-- ==== Sys2Proof/Word.lean ====
section
/-!
DEFINITION. The word types of the KT1640 and the index types of its repeated blocks.
-/
namespace Sys2Proof

abbrev Byte := BitVec 8
abbrev W16 := BitVec 16
abbrev W32 := BitVec 32
abbrev W64 := BitVec 64

/-- Channels 0–15 (00 "Numbers and fields"). -/
abbrev Chan := Fin 16
/-- Filter paths 0–31. -/
abbrev PathIx := Fin 32
/-- Tide wheels 0–3. -/
abbrev WheelIx := Fin 4
/-- Svasta Link ports 0–3. -/
abbrev PortIx := Fin 4
/-- Event sources 0–127 (R479). -/
abbrev SrcIx := Fin 128
/-- Mailbox slots 0–7 (R491). -/
abbrev SlotIx := Fin 8
/-- Triad lanes A, B, C. -/
abbrev LaneIx := Fin 3

end Sys2Proof
end

