-- ==== Sys2Proof/Machine/Bits.lean ====
section
/-!
DEFINITION. Bit fields, saturating counters, byte order and the rounding rules every block uses (R3, R4, R9–R12).
-/
namespace Sys2Proof.Machine

/-- The field of `len` bits of `w` whose least significant bit is bit `lo`. -/
def field {n : Nat} (w : BitVec n) (lo len : Nat) : BitVec len := w.extractLsb' lo len

/-- Bit `i` of `w`. -/
def bitAt {n : Nat} (w : BitVec n) (i : Nat) : Bool := w.getLsbD i

/-- `v` placed with its bit 0 at bit `lo` of a 32-bit register word. -/
def put {n : Nat} (lo : Nat) (v : BitVec n) : W32 := v.setWidth 32 <<< lo

/-- A one-bit field at bit `lo`. -/
def putB (lo : Nat) (b : Bool) : W32 := put lo (BitVec.ofBool b)

/-- A number taken modulo its field's width and placed at bit `lo`. -/
def putN (lo len v : Nat) : W32 := put lo (BitVec.ofNat len v)

/-- Set or clear bit `i`. -/
def setBit (w : W32) (i : Nat) (b : Bool) : W32 :=
  if b then w ||| (1#32 <<< i) else w &&& ~~~(1#32 <<< i)

/-- A counter that advances by one and stays at its greatest value (the "saturating" counters of the register tables). -/
def satInc {n : Nat} (c : BitVec n) : BitVec n := if c = BitVec.allOnes n then c else c + 1

/-- A saturating counter advanced by `k`. -/
def satAdd {n : Nat} (c : BitVec n) (k : Nat) : BitVec n :=
  if c.toNat + k ≥ 2 ^ n then BitVec.allOnes n else c + BitVec.ofNat n k

/-- A count shown in a field of `n` bits that stays at its greatest value. -/
def satNat (n k : Nat) : BitVec n := if k ≥ 2 ^ n then BitVec.allOnes n else BitVec.ofNat n k

/-- RW1C (Table 0-4): a 1 clears the bit, a 0 has no effect. -/
def rw1c {n : Nat} (w v : BitVec n) : BitVec n := w &&& ~~~v

/-- Element `i` of a fixed array changed by `f`. -/
def modAt {α : Type} {n : Nat} (v : Vector α n) (i : Fin n) (f : α → α) : Vector α n := v.set i (f v[i])

/-- Element `i` of a fixed array replaced. -/
def setAt {α : Type} {n : Nat} (v : Vector α n) (i : Fin n) (x : α) : Vector α n := v.set i x

/-- The bytes of a 32-bit word, least significant first (R4). -/
def bytesLE (w : W32) : List Byte := [field w 0 8, field w 8 8, field w 16 8, field w 24 8]

/-- The bytes of a 32-bit word, most significant first (R4's exceptions). -/
def bytesBE (w : W32) : List Byte := (bytesLE w).reverse

/-- A little-endian number from its bytes (R4). -/
def natLE : List Byte → Nat
  | [] => 0
  | b :: bs => b.toNat + 256 * natLE bs

/-- A most-significant-byte-first number from its bytes. -/
def natBE (bs : List Byte) : Nat := natLE bs.reverse

/-- R11: narrow the integer `v` by discarding `s` low-order bits, rounding half to even. -/
def narrow (v : Int) (s : Nat) : Int :=
  if s = 0 then v else
    let q := v / (2 ^ s : Int)
    let r := v - q * (2 ^ s : Int)
    let h : Int := 2 ^ (s - 1)
    if r > h ∨ (r = h ∧ q % 2 = 1) then q + 1 else q

/-- Quotient of `n` by `d`, rounded half to even (the division rule of R244 for an exact quotient of integers). -/
def divRound (n d : Int) : Int :=
  if d = 0 then 0 else
    let (n, d) := if d < 0 then (-n, -d) else (n, d)
    let q := n / d
    let r := n - q * d
    if 2 * r > d ∨ (2 * r = d ∧ q % 2 = 1) then q + 1 else q

/-- R12: replace a value outside the signed width `w` by the nearest representable one. -/
def satSigned (w : Nat) (v : Int) : Int :=
  if v > 2 ^ (w - 1) - 1 then 2 ^ (w - 1) - 1 else if v < -(2 ^ (w - 1)) then -(2 ^ (w - 1)) else v

/-- R12's flag: the value had to be replaced. -/
def satSignedFlag (w : Nat) (v : Int) : Bool := satSigned w v ≠ v

/-- R12 for an unsigned width. -/
def satUnsigned (w : Nat) (v : Int) : Int := if v > 2 ^ w - 1 then 2 ^ w - 1 else if v < 0 then 0 else v

/-- A value limited to `lo`…`hi`. -/
def clampInt (lo hi v : Int) : Int := if v < lo then lo else if v > hi then hi else v

/-- The signed integer as a 32-bit two's-complement word (R3). -/
def toW32 (v : Int) : W32 := BitVec.ofInt 32 v

end Sys2Proof.Machine
end

