-- ==== Sys2Proof/Machine/Mem.lean ====
section
/-!
DEFINITION. Sparse memories: a list of (address, value) cells in one canonical form. Addresses rise strictly and no cell holds the value
an unlisted address reads as. The flash, its mirror, staging, the endpoint image, the rings and the coefficient banks are held so.
-/
namespace Sys2Proof.Machine

/-- What address `a` reads as, with `d` at every unlisted address. -/
def sread {α : Type} (d : α) : List (Nat × α) → Nat → α
  | [], _ => d
  | (k, v) :: m, a => if a = k then v else sread d m a

/-- The cells with the cell of `a` removed. -/
def serase {α : Type} : List (Nat × α) → Nat → List (Nat × α)
  | [], _ => []
  | (k, v) :: m, a => if a = k then m else (k, v) :: serase m a

/-- The cells with `a` listed as `v`, in rising order. -/
def sinsert {α : Type} : List (Nat × α) → Nat → α → List (Nat × α)
  | [], a, v => [(a, v)]
  | (k, w) :: m, a, v => if a < k then (a, v) :: (k, w) :: m else if a = k then (a, v) :: m else (k, w) :: sinsert m a v

/-- Write `v` at `a`; writing the value an unlisted address reads as removes the cell. -/
def swrite {α : Type} [DecidableEq α] (d : α) (m : List (Nat × α)) (a : Nat) (v : α) : List (Nat × α) :=
  if v = d then serase m a else sinsert m a v

/-- Write consecutive values from `a` up. -/
def swriteList {α : Type} [DecidableEq α] (d : α) (m : List (Nat × α)) (a : Nat) : List α → List (Nat × α)
  | [] => m
  | v :: vs => swriteList d (swrite d m a v) (a + 1) vs

/-- The `n` values from `a` up. -/
def sreadList {α : Type} (d : α) (m : List (Nat × α)) (a n : Nat) : List α :=
  (List.range n).map fun i => sread d m (a + i)

/-- Cells of the addresses `lo` to `hi − 1` removed: that range reads as unlisted. -/
def sclear {α : Type} (m : List (Nat × α)) (lo hi : Nat) : List (Nat × α) :=
  m.filter fun c => c.1 < lo || hi ≤ c.1

/-- The canonical form. -/
def swf {α : Type} [DecidableEq α] (d : α) : List (Nat × α) → Bool
  | [] => true
  | [(_, v)] => v ≠ d
  | (k, v) :: (k', v') :: m => v ≠ d && k < k' && swf d ((k', v') :: m)

/-- The addresses rise strictly: the canonical form where no value is the unlisted one. -/
def srise {α : Type} : List (Nat × α) → Bool
  | [] => true
  | [_] => true
  | c :: c' :: m => c.1 < c'.1 && srise (c' :: m)

/-- A value list with element `i` replaced; unchanged when `i` lies beyond its end. -/
def listSet {α : Type} (l : List α) (i : Nat) (x : α) : List α := l.set i x

/-- What a byte of flash that nothing has programmed reads as: erased (02 Table 2-1). [log 6: DESIGN CHOICE, unsafe] -/
def flashErased : Byte := 0xFF#8

/-- What a byte of staging outside its content reads as (15 R419). [log 8: DESIGN CHOICE, unsafe] -/
def stagingEmpty : Byte := 0#8

/-- What an endpoint that is not served reads as (R296). [log 8: DESIGN CHOICE, unsafe] -/
def epUnassigned : W32 := 0x00F00000#32

/-- What a copy reads as until its first update or sweep word (R296). [log 8: DESIGN CHOICE, unsafe] -/
def epNoComm : W32 := 0x00A00000#32

end Sys2Proof.Machine
end

