-- ==== Sys2Proof/Machine/GenState.lean ====
section
/-!
DEFINITION. A generation: the decoded content of a configuration copy (02, Tables 2-5 to 2-8). The channel records and the GROUP and LINK
headers keep their register words, since the host reads them as registers. A section that is absent holds the value its "If absent" column gives.
-/
namespace Sys2Proof.Machine

/-- DEVICE section (Table 2-8). -/
structure DeviceSec where
  slackMs : W16 := 0xFFFF
  hostMaxwait : W16 := 0xFFFF
  budgetMw : W16 := 0xFFFF
  debugRun : Bool := false
  shed : Bool := false
  heatsink : Bool := false
  safeCount : Byte := 0
  clkoutSel : BitVec 2 := 0
  safeWindow : W16 := 1
  deriving DecidableEq, Repr

/-- A CHANNEL record: the byte image of the configuration registers 0x000–0x0FC of block CHn, as 64 words. -/
structure ChanRecord where
  word : Vector W32 64 := Vector.replicate 64 0
  deriving DecidableEq, Repr

/-- SAFESTATE entry: what a channel does when its safe state is applied. -/
inductive SafeState where
  | off
  | on
  | hold
  | character (k : BitVec 6)
  deriving DecidableEq, Repr

/-- FILTER path descriptor (Table 2-8). -/
structure PathDesc where
  rank : Byte := 0
  hb : Byte := 0
  decim : W16 := 1
  taps : Byte := 1
  bank : Bool := false
  fade : W16 := 16
  syncWheel : BitVec 2 := 0
  syncPhase : W32 := 0
  deriving DecidableEq, Repr

/-- One edge of a flash character. -/
structure CharEdge where
  phase : W32
  lit : Bool
  deriving DecidableEq, Repr

/-- A CHARACTER record. -/
structure Character where
  wheel : WheelIx
  charId : BitVec 6
  edges : List CharEdge
  deriving DecidableEq, Repr

/-- TIDE entry of a wheel; the default is the section's absence: free-run with a period of 1 s. -/
structure TideCfg where
  periodUs : W32 := 1000000
  ref : Byte := 0
  refPort : PortIx := 0
  mainsN : W16 := 1
  slewPpm : W16 := 0xFFFF
  stepEn : Bool := false
  stepNs : W32 := 0
  kp : W32 := 0
  ki : W32 := 0
  deriving DecidableEq, Repr

/-- An aspect of an ASPECT group. -/
structure Aspect where
  chmask : W16
  rank : Byte
  char : Vector Byte 16
  subst : List Byte
  deriving DecidableEq, Repr

/-- An ASPECT group. -/
structure AspectGroup where
  groupId : BitVec 6
  cmdEp : BitVec 20
  aspects : List Aspect
  deriving DecidableEq, Repr

/-- A rule record: its four words (12 gives their fields). -/
structure RuleRec where
  w0 : W32
  w1 : W32
  w2 : W32
  w3 : W32
  deriving DecidableEq, Repr

/-- A group map entry. -/
structure GroupEntry where
  subBase : BitVec 20
  subLog2 : Byte
  port : PortIx
  deriving DecidableEq, Repr

/-- GROUP section. -/
structure GroupSec where
  localBase : BitVec 20 := 0
  winBase : BitVec 20 := 0
  winLog2 : Byte := 12
  /-- none: UPPORT 0xFF, the top device -/
  upport : Option PortIx := none
  entries : List GroupEntry := []
  deriving DecidableEq, Repr

/-- LINK entry of a port; the default is the section's absence: port disabled. -/
structure LinkCfg where
  role : Byte := 0
  baudMhz : W16 := 0
  ownId : W32 := 0
  peerId : W32 := 0
  deriving DecidableEq, Repr

/-- HART mapping entry. -/
structure HartMap where
  ch : Chan
  poll : BitVec 4
  var : BitVec 2
  ep : BitVec 12
  deriving DecidableEq, Repr

/-- A generation, identified by (SEQ, HDR_CRC). -/
structure Generation where
  seq : W32 := 0
  hdrCrc : W32 := 0
  schema : W16 := 0
  device : DeviceSec := {}
  chan : Vector ChanRecord 16 := Vector.replicate 16 {}
  safe : Vector SafeState 16 := Vector.replicate 16 .off
  path : Vector PathDesc 32 := Vector.replicate 32 {}
  /-- coefficients as cells of (128·path + 64·bank + tap, 24-bit value); unlisted 0 -/
  coeff : List (Nat × BitVec 24) := []
  chars : List Character := []
  tide : Vector TideCfg 4 := Vector.replicate 4 {}
  aspects : List AspectGroup := []
  rules : List RuleRec := []
  cycleUs : W32 := 1000
  group : GroupSec := {}
  link : Vector LinkCfg 4 := Vector.replicate 4 {}
  event : Vector W32 128 := Vector.replicate 128 1
  hart : List HartMap := []
  deriving DecidableEq, Repr

end Sys2Proof.Machine
end

