-- ==== Sys2Proof/Machine/ChanState.lean ====
section
/-!
DEFINITION. State of the field channels at the logic die: the status registers of block CHn and what the executive keeps beside them
(04 Tables 4-17 to 4-21, 05 Tables 5-12 to 5-17, 06 Tables 6-9 to 6-13, 06 R154). Every field's default is its value at reset.
-/
namespace Sys2Proof.Machine

/-- CHn.STATE.LIFE (Table 4-7). -/
inductive Life where
  | default
  | settling
  | active
  | isolated
  | safeApplied
  | retired
  | standbyIdle
  | standbyMapped
  deriving DecidableEq, Repr

/-- LIFE codes of Table 4-7. -/
def Life.code : Life → BitVec 3
  | .default => 0 | .settling => 1 | .active => 2 | .isolated => 3 | .safeApplied => 4
  | .retired => 5 | .standbyIdle => 6 | .standbyMapped => 7

/-- Lamp states (Table 5-1). -/
inductive Lamp where
  | darkProven
  | litProven
  | litPartial
  | darkUnexpected
  | litUnexpected
  | unproven
  | fault
  | retired
  deriving DecidableEq, Repr

/-- Lamp codes of Table 5-1. -/
def Lamp.code : Lamp → BitVec 3
  | .darkProven => 0 | .litProven => 1 | .litPartial => 2 | .darkUnexpected => 3
  | .litUnexpected => 4 | .unproven => 5 | .fault => 6 | .retired => 7

/-- PSTATE (R154). -/
inductive PState where
  | clear
  | backoff
  | permit
  | retired
  deriving DecidableEq, Repr

def PState.code : PState → BitVec 3
  | .clear => 0 | .backoff => 1 | .permit => 2 | .retired => 3

/-- Window comparator state: PSTAT.WIN (Table 5-12). -/
inductive Win where
  | notArmed
  | belowOpen
  | belowLow
  | pass
  deriving DecidableEq, Repr

def Win.code : Win → BitVec 2
  | .notArmed => 0 | .belowOpen => 1 | .belowLow => 2 | .pass => 3

/-- Off-state pulse class (R135); `none` codes 0. -/
inductive Pulse where
  | none
  | normal
  | open
  | shortSupply
  deriving DecidableEq, Repr

def Pulse.code : Pulse → BitVec 2
  | .none => 0 | .normal => 1 | .open => 2 | .shortSupply => 3

/-- DISTAT.CLASS (Table 4-20). -/
inductive DiClass where
  | off
  | on
  | wireBreak
  | diLeak
  | sinkFault
  | notDi
  deriving DecidableEq, Repr

def DiClass.code : DiClass → BitVec 3
  | .off => 0 | .on => 1 | .wireBreak => 2 | .diLeak => 3 | .sinkFault => 4 | .notDi => 5

/-- Why a channel is retired: PROT.RET_CAUSE (Table 6-9). -/
inductive RetCause where
  | notRetired
  | retries
  | bucket
  | command
  | other
  deriving DecidableEq, Repr

def RetCause.code : RetCause → BitVec 3
  | .notRetired => 0 | .retries => 1 | .bucket => 2 | .command => 3 | .other => 4

/-- What a channel is commanded to do. -/
inductive ChanCmd where
  | dark
  | lit
  | character (k : BitVec 6)
  /-- an AO's target, the AO_ALARM selection with it (07 R172) and the DAC code of the target (09 R257) -/
  | ao (code : W16) (alarm : BitVec 2) (dac : W16)
  deriving DecidableEq, Repr

/-- Wiring and digital-input status: WIRE, WIRELAT, WIRECNT, DISTAT, DITIME. -/
structure ChanWire where
  wire : BitVec 11 := 0
  wireLat : BitVec 11 := 0
  cntMiswire : BitVec 8 := 0
  cntTransient : BitVec 8 := 0
  cntBreak : BitVec 8 := 0
  cntReverse : BitVec 8 := 0
  diState : Bool := false
  diRaw : Bool := false
  diClass : DiClass := .notDi
  edges : W16 := 0
  diTime : W32 := 0
  deriving DecidableEq, Repr

/-- A signature in force: the fields of Table 5-8. -/
structure Signature where
  g : W32
  i : W32
  v : W32
  nstr : Byte
  dither : Byte
  period : Byte
  pair : Bool
  tj : W32
  deriving DecidableEq, Repr

/-- Proving status: PSTAT, PLAT, PGMEAS, PSIGx, POFF, PCNT, PCTIME, and the evidence the executive holds (R123, R124, R132). -/
structure ChanProve where
  inst : Lamp := .unproven
  pub : Lamp := .unproven
  cmdLit : Bool := false
  flood : Bool := false
  /-- tick at which the executive saw the flood window end -/
  floodEnd : Option W64 := none
  win : Win := .notArmed
  offCls : Pulse := .none
  phDet : Bool := false
  phSupp : Bool := false
  driven : Bool := false
  noSig : Bool := false
  sigHigh : Bool := false
  estValid : Bool := false
  strings : BitVec 4 := 0
  ebbHold : Bool := false
  pcOk : Bool := false
  pcFail : BitVec 4 := 0
  plat : BitVec 7 := 0
  gMeas : W32 := 0x80000000
  /-- latest TYPE 0x03 journal record of the channel; PSIGx show it while it is valid (R134) -/
  sig : Option Signature := none
  rload : W16 := 0xFFFF
  cntDark : BitVec 8 := 0
  cntLit : BitVec 8 := 0
  cntPartial : BitVec 8 := 0
  cntPc : BitVec 8 := 0
  pcTime : W32 := 0
  /-- tick of the last passing path check -/
  pcTick : Option W64 := none
  /-- tick of the last correlator result -/
  estTick : Option W64 := none
  /-- consecutive results with k = NSTR since LIT_PARTIAL or DARK_UNEXPECTED (R132); the state stands lowered while `lowered` -/
  fullRun : Nat := 0
  lowered : Option Lamp := none
  /-- the class two consecutive pulses last agreed on since the turn-off or invalidation, and the tick of the last agreeing pulse (R136) -/
  agreed : Pulse := .none
  agreeTick : Option W64 := none
  /-- verdicts of the published state of a running character (R124) -/
  litVerdict : Option Lamp := none
  darkVerdict : Option Lamp := none
  /-- the character the verdicts belong to -/
  verdictOf : Option (BitVec 6) := none
  deriving DecidableEq, Repr

/-- An enrolment in progress (R133): the mailbox slot and the results of the windows gathered. -/
structure Enrolment where
  slot : SlotIx
  gs : List (Option Int)
  deriving DecidableEq, Repr

/-- Protection status and retry state: PROT, PROTLAT, PROTCNT, PROTCNT2, CLAMPE, CLAMPA, TRIPINFO, TRIPTIME, BACKOFF (R154, R169). -/
structure ChanProt where
  /-- PROT bits 0 to 9 -/
  live : BitVec 10 := 0
  lat : BitVec 10 := 0
  pstate : PState := .clear
  retryN : BitVec 4 := 0
  tokens : BitVec 4 := 15
  retCause : RetCause := .notRetired
  cntOc : BitVec 8 := 0
  cntShort : BitVec 8 := 0
  cntThermal : BitVec 8 := 0
  cntClamp : BitVec 8 := 0
  cntRetry : BitVec 8 := 0
  cntGov : BitVec 8 := 0
  cntShed : BitVec 8 := 0
  eLast : W16 := 0
  /-- stored heat as last reported, UQ.8 of 10 µJ (R34, R261) -/
  eEst : Nat := 0
  eAllow : W16 := 0
  iTrip : W16 := 0
  tjTrip : BitVec 8 := 0
  tripTime : W32 := 0
  /-- back-off expiry tick -/
  expiry : W64 := 0
  /-- ticks of the refill timer, 0 to 600,000,000 -/
  refill : Nat := 0
  /-- the token of the timer's present run was added early, for a trip in the rule cycle of its refill (R156) -/
  refilled : Bool := false
  /-- on-time since the last overcurrent trip, in ticks -/
  onTime : Nat := 0
  deriving DecidableEq, Repr

/-- The sums of one accepted dither cycle (R129): code differences of the current, of the slave's current and of the voltage, the samples kept
of each half, the cycle's first tick and the tick of its newest sample. -/
structure CycleSum where
  di : Int
  di2 : Int
  dv : Int
  m : Nat
  start : W64
  last : W64
  deriving DecidableEq, Repr

/-- What the executive keeps for a channel: status registers, demand, retirement and mapping. -/
structure Channel where
  life : Life := .default
  setl : Bool := false
  kind : BitVec 3 := 0
  out : Bool := false
  roleOf : Option Chan := none
  map : Option Chan := none
  w : ChanWire := {}
  p : ChanProve := {}
  prot : ChanProt := {}
  retired : Bool := false
  /-- its safe-state entry is applied in SAFE, in STOP or after an unadopted slack window (Table 4-7) -/
  safeApp : Bool := false
  /-- a third declaration holds the channel isolated (R104) -/
  held : Bool := false
  /-- the demand the governor refuses, with its COMMAND word (R165, R166) -/
  refused : Option W16 := none
  /-- the refused demand is one the governor shed -/
  shed : Bool := false
  /-- the COMMAND word last acted on, and the command sent for it -/
  cmdWord : W16 := 0
  cmd : ChanCmd := .dark
  /-- the record its character is taken from until the changeover that the field die reports (R287) -/
  oldChar : Option Character := none
  /-- mapping onto the standby waits for the next rule-cycle boundary (R108) -/
  mapDue : Bool := false
  /-- a restart has been sent and its outcome is not yet reported (R157) -/
  restarting : Bool := false
  /-- the last accepted dither cycles, newest first, at most 16, and their number since the last discard (R131) -/
  acc : List CycleSum := []
  accN : Nat := 0
  /-- retired since the last boundary (Table 4-6) -/
  retNow : Bool := false
  /-- its record is being replaced: the field die has not taken it yet (Table 4-7) -/
  replacing : Bool := false
  /-- COUNT endpoint: turn-ons or counted transitions (Table 4-9) -/
  count : W16 := 0
  /-- the COMMAND endpoint holds a refused form (R115, R116, R165) -/
  cmdBad : Bool := false
  /-- last valid governor term in µW and magnitude of the last measured on-current in 10 nA (R163, R165, R262) -/
  govTerm : Int := 0
  onI : Nat := 0
  deriving DecidableEq, Repr

end Sys2Proof.Machine
end

