-- ==== Sys2Proof/Machine/LinkState.lean ====
section
/-!
DEFINITION. Svasta Link messages and the state of a port (13, R344–R375). Every field's default is its value at reset.
-/
namespace Sys2Proof.Machine

/-- The three frame classes; their SOF symbols are SOF_Q, SOF_P and SOF_U (Table 13-1). -/
inductive LinkClass where
  | request
  | response
  | urgent
  deriving DecidableEq, Repr

/-- TIME record payload (Table 13-4). -/
structure TimeRecord where
  wheel : WheelIx
  wheelState : BitVec 3
  uncert : Bool
  secValid : Bool
  hops : Byte
  periodUs : W32
  aUp : W64
  incUp : W64
  unc : W16
  fTx : Byte
  sec : W32
  qUp : W32
  deriving DecidableEq, Repr

/-- TRAIN payload (Table 13-4). -/
structure TrainInfo where
  ownId : W32
  role : Byte
  baud : Byte
  revision : Byte
  seen : Bool
  ready : Bool
  winBase : BitVec 20
  winLog2 : Byte
  deriving DecidableEq, Repr

/-- Frame contents by TYPE (Tables 13-3 and 13-4). -/
inductive LinkMsg where
  | train (t : TrainInfo)
  | write (entries : List (BitVec 20 × W16))
  | update (sweep : Bool) (entries : List (BitVec 20 × W32))
  | fence (tag : W16)
  | writeRsp (reasons : List Byte)
  | updateAck (applied : W32)
  | fenceRsp (code : Byte)
  | errorRsp (code : Byte)
  | time (seq : W16) (t : TimeRecord)
  | disc (winBase : BitVec 20) (winLog2 : Byte)
  | lamp (addr : BitVec 20) (word : W32) (origin : Byte)
  | event (source : BitVec 7) (count : W16) (modeEp : BitVec 20)
  deriving DecidableEq, Repr

def LinkMsg.isWrite : LinkMsg → Bool
  | .write _ => true
  | _ => false

/-- The class of each frame type (Table 13-3). -/
def LinkMsg.cls : LinkMsg → LinkClass
  | .train _ | .write _ | .update _ _ | .fence _ => .request
  | .writeRsp _ | .updateAck _ | .fenceRsp _ | .errorRsp _ | .time _ _ | .disc _ _ => .response
  | .lamp _ _ _ | .event _ _ _ => .urgent

/-- A frame a port has to send or keeps until it is acknowledged (R359, R367). -/
structure TxFrame where
  msg : LinkMsg
  tag : W16 := 0
  /-- remaining budget in 10 µs (R366) -/
  budget : W16 := 0
  fseq : Byte := 0
  sends : Nat := 0
  /-- tick at which its request arrived, for the dwell of R366 -/
  since : W64 := 0
  /-- the arrival port and the units of its urgent buffer that a forwarded frame holds until it is acknowledged (R361, R368) -/
  hold : Option (PortIx × Nat) := none
  /-- a retransmission that still waits for credits (R359) -/
  again : Bool := false
  deriving DecidableEq, Repr

/-- One class of one port, both directions (R359–R363). -/
structure PortClass where
  txSeq : Byte := 0
  rxSeq : Byte := 0
  waiting : List TxFrame := []
  unacked : List TxFrame := []
  /-- credits held for the transmit direction -/
  credits : Nat := 0
  /-- units held for the peer in this class's buffers -/
  occupied : Nat := 0
  /-- cumulative units returned to the peer -/
  ret : Byte := 0
  /-- cumulative units received back -/
  rcv : Byte := 0
  /-- values `ret` took and the ticks at which it took them, newest first (R363 condition 2) -/
  retHist : List (W64 × Byte) := []
  deriving DecidableEq, Repr

/-- Control sequences, with their data bytes, and frames, with the bytes between their SOF and EOF, put on the line (Table 13-1).
[log 92: DESIGN CHOICE, safe] -/
inductive LinkOut where
  | crt (data : List Byte)
  | ack (data : List Byte)
  | cen (data : List Byte)
  | mark (data : List Byte)
  | frame (c : LinkClass) (data : List Byte)
  | abortFrame
  deriving DecidableEq, Repr

/-- Port states: codes of health endpoint 0xF09. -/
inductive PortState where
  | disabled
  | down
  | training
  | up
  deriving DecidableEq, Repr

def PortState.code : PortState → BitVec 2
  | .disabled => 0 | .down => 1 | .training => 2 | .up => 3

/-- A received frame that waits in its input buffer: for a transit entry (R365) or for the end of a handover (Table 13-11). -/
structure BufferedRequest where
  msg : LinkMsg
  tag : W16
  budget : W16
  units : Nat
  since : W64
  /-- identity, which a fence placed after a waiting write keeps (R311) -/
  id : Nat := 0
  deriving DecidableEq, Repr

/-- One Svasta Link port. -/
structure Port where
  state : PortState := .disabled
  idMm : Bool := false
  roleMm : Bool := false
  baudMm : Bool := false
  reinits : BitVec 8 := 0
  lastCause : BitVec 4 := 0
  peerId : W32 := 0
  peerWinBase : BitVec 20 := 0
  peerWinLog2 : BitVec 5 := 0
  peerWinValid : Bool := false
  /-- D in ns -/
  delay : W16 := 0
  spread : BitVec 8 := 0
  rej : BitVec 8 := 0
  /-- the last eight kept round trips in ns, newest first -/
  rtts : List Int := []
  req : PortClass := {}
  rsp : PortClass := {}
  urg : PortClass := {}
  crcErr : W16 := 0
  censusFail : BitVec 4 := 0
  ctlErr : BitVec 4 := 0
  proto : BitVec 8 := 0
  retxFrames : W16 := 0
  aborts : BitVec 8 := 0
  txCnt : W32 := 0
  rxCnt : W32 := 0
  late : BitVec 7 := 0
  timeouts : W16 := 0
  urgForwarded : W16 := 0
  maxDwell : W16 := 0
  /-- the 100 ms after a training time-out run (Table 13-5) -/
  retryWait : Bool := false
  /-- consecutive valid TRAIN frames received (R354) -/
  trainRun : Nat := 0
  seen : Bool := false
  seenSent : Bool := false
  peerSeen : Bool := false
  ready : Bool := false
  readySent : Bool := false
  /-- delay exchanges completed in this training -/
  exchanges : Nat := 0
  /-- sequence number of the next delay request -/
  exchSeq : BitVec 24 := 0
  /-- the delay request in flight: its sequence and departure time in ns -/
  exchOpen : Option (BitVec 24 × Int) := none
  /-- the last time-reference MARK received: V, its tick and the ns after it (R357) -/
  mark : Option (BitVec 24 × W64 × Byte) := none
  /-- sequence number of the next time-reference MARK sent -/
  markSeq : W16 := 0
  /-- tick of the last event 84 + n raised for CRC_ERR (R375) -/
  crcEventAt : Option W64 := none
  /-- ticks of the code violations of the last millisecond while UP (R355) -/
  viols : List W64 := []
  buffered : List BufferedRequest := []
  /-- tag of the next request sent on this port -/
  nextTag : W16 := 0
  /-- what the last command put on the line -/
  out : List LinkOut := []
  deriving DecidableEq, Repr

end Sys2Proof.Machine
end

