-- ==== Sys2Proof/Syntax.lean ====
section
/-!
DEFINITION. The commands the block takes: one constructor for each row of the table of operations and events. What the outside world or the
analogue side supplies to an event (levels, measured values, received bytes, the outcome of a check on the wire) is an operand.
-/
namespace Sys2Proof

/-- A host-port frame as captured (16): address and LEN as clocked in, data bytes received, whole HSCK cycles in the frame, and whether a
lane disagreed with the command's lane rule. -/
structure HostFrame where
  addr : BitVec 24
  len : Nat
  data : List Byte
  cycles : Nat
  laneError : Bool
  deriving DecidableEq, Repr

/-- The lanes of the Breakwater. -/
inductive BwLane where
  | f2l0
  | f2l1
  | l2f
  deriving DecidableEq, Repr

/-- A received Breakwater frame but for its TYPE, which the command names (Table 1-3): bytes 1 to 3, the 58 payload bytes and the CRC. -/
structure BwHeader where
  seq : Byte
  ack : Byte
  flags : Byte
  payload : List Byte
  crc : W16
  deriving DecidableEq, Repr

/-- One raw sample of a dither cycle (R129): the first tick of its slot, its codes (the second current is the slave's, for a pair), and whether
it reached the filter engine as a repeated sample. -/
structure DitherSample where
  tick : W64
  i : W16
  i2 : W16
  v : W16
  repeated : Bool
  deriving DecidableEq, Repr

/-- One dither cycle (R128, R129): its samples in slot order, and the mean current of its high half in 10 nA. -/
structure DitherCycle where
  samples : List DitherSample
  iHigh : W32
  deriving DecidableEq, Repr

/-- What a path check measures (R139): (a) the current increment in 10 nA; (b) the reading and the reference tap in µV; (c) the thresholds OPEN
and LOW in µA and whether the replicas toggled both ways; (d) the same for V_PH in µV. -/
structure PathMeasure where
  current : W32
  reading : W32
  tap : W32
  open_ : W32
  low : W32
  toggled : Bool
  phantom : W32
  phToggled : Bool
  deriving DecidableEq, Repr

/-- A received Svasta Link frame but for its TYPE, which the command names (Tables 13-1 and 13-2): the class of its SOF symbol, its header's
other fields, its payload bytes and its CRC, and whether EOF ended it. -/
structure LinkHeader where
  sof : Machine.LinkClass
  fseq : Byte
  len : W16
  tag : W16
  budget : W16
  param : W32
  payload : List Byte
  crc : W32
  eof : Bool
  deriving DecidableEq, Repr

/-- What ends the running of the logic die (R507, Table 19-8): RESET_N, or what has its effect while the SRAM keeps its content (PGOOD low, a
supply below its threshold), and a logic supply lost with the SRAM's content (power-on of the logic die follows). -/
inductive ResetCause where
  | resetN
  | supply
  deriving DecidableEq, Repr

/-- Faults of the voting plane's comparison that lead to SAFE (Table 14-2). -/
inductive VoterFault where
  | noMajority
  | pairMismatch
  | pairSelfReport
  | v1v2
  deriving DecidableEq, Repr

/-- Outcome of a start check (R394): the pattern of the self-test that failed, if any, and whether the lanes' CRCs differed in the survey. -/
structure StartCheck where
  failing : Option (Fin 6)
  surveyFails : Bool
  deriving DecidableEq, Repr

/-- What the clock monitor finds failed (R31): XIN itself, or a PLL that loses lock. -/
inductive ClockFault where
  | xin
  | corePll
  | linkPll
  deriving DecidableEq, Repr

/-- Fatal field-die faults (R75). -/
inductive FieldFault where
  | microcodeRam
  | selfCheck
  | tableCheck
  | tickLock
  deriving DecidableEq, Repr

/-- What the executive finds at a start: VLOOP and VFLD at the field die in mV for the governor's check, none when not reported (R164), and
whether the checkpoint in SRAM passes its CRC-32C (R79). -/
structure StartMeasure where
  vloop : Option Nat
  vfld : Option Nat
  sealed : Bool
  deriving DecidableEq, Repr

/-- A received HART frame (07 R198): the outcome of its parity and check byte, its unique address (of a command 0 response, the
one its data give), command, response code, device
status and data bytes. -/
structure HartFrame where
  ok : Bool
  addr : BitVec 40
  command : Byte
  respCode : Byte
  devStatus : Byte
  data : List Byte
  deriving DecidableEq, Repr

/-- The commands: one constructor for each row of the table, in its order. Each docstring names the rule and what the row is. -/
inductive Instr where
  /-- R440. Single-lane native READ frame (0x0B): the device captures LEN bytes at the order point and answers with busy bytes, sync and data. -/
  | read (f : HostFrame)
  /-- R438. Native READ frame 0x3B with the data phase on two lanes. -/
  | readDualData (f : HostFrame)
  /-- R438. Native READ frame 0xBB with address, LEN and data on two lanes. -/
  | readDualAddressData (f : HostFrame)
  /-- R438. Native READ frame 0x6B with the data phase on four lanes. -/
  | readQuadData (f : HostFrame)
  /-- R438. Native READ frame 0xEB with address, LEN and data on four lanes. -/
  | readQuadAddressData (f : HostFrame)
  /-- R440. The addressed bytes of a pending read are ready, so the device sends the sync byte 0x5A and then the data. -/
  | readSync (clocked : Nat) (laneError : Bool)
  /-- R440. MAXWAIT busy bytes have been sent without the data being ready, so the device sends the abort byte 0xA6. -/
  | readAbort
  /-- R444. Single-lane native WRITE frame (0x02), accepted whole or discarded at the release of HCS_N. -/
  | write (f : HostFrame)
  /-- R444. Native WRITE frame 0xA2 with the data phase on two lanes. -/
  | writeDualData (f : HostFrame)
  /-- R444. Native WRITE frame 0x32 with the data phase on four lanes. -/
  | writeQuadData (f : HostFrame)
  /-- R446. The STATUS command returns the 32-bit port status word at a fixed latency. -/
  | status (cycles : Nat) (laneError : Bool)
  /-- R1. The IDENT command returns the 16 identification bytes of Table 0-1. -/
  | ident (cycles : Nat) (laneError : Bool)
  /-- R447. A host-port FENCE frame places a fence with its tag at its order point. -/
  | fenceFrame (tag : W16) (cycles : Nat) (laneError : Bool)
  /-- R445. A frame whose command byte is unknown is discarded and counted at its release. -/
  | unknownCommand (code : Byte) (cycles : Nat)
  /-- R452. A legacy READ frame captures 64 bytes at the page-relative address and returns a status byte and the data. -/
  | legacyRead (f : HostFrame)
  /-- R452. The data of a legacy READ is not in the buffer by its first data byte, so every data byte reads 0xFF and LATE advances. -/
  | legacyReadLate (f : HostFrame)
  /-- R451. A legacy WRITE frame writes 4 to 64 bytes at the page-relative address. -/
  | legacyWrite (f : HostFrame)
  /-- R451. A legacy SETPAGE frame sets DEV.HOSTCFG.PAGE at its release. -/
  | setpage (page : Byte) (cycles : Nat) (laneError : Bool)
  /-- R307. A host write to endpoint image words routes each word to its owner, or refuses it. -/
  | imageWrite (words : List (BitVec 20 × W16))
  /-- R224. A host write to a filter coefficient, discarded when its bank is busy or the mode is LOAD or STOP. -/
  | coefficientWrite (p : PathIx) (bank : Bool) (tap : BitVec 6) (v : W32)
  /-- R419. A host write to STG takes effect only while staging is OPEN and the byte lies below LENGTH. -/
  | stagingWrite (offset : BitVec 20) (data : List Byte)
  /-- R225. A write of FLT.PCTLp with SWAP set requests a bank swap and cross-fade. -/
  | swapRequest (p : PathIx) (v : W32)
  /-- R228. A write of FLT.PCTLp with SYNC set requests a synchronising reset of the path. -/
  | syncRequest (p : PathIx) (v : W32)
  /-- R272. A write of DEV.PPSSET sets the second number that the next accepted PPS edge takes. -/
  | ppssetWrite (v : W32)
  /-- R485. A write of EVQ.ACK removes the N oldest queue entries when HEAD matches, and otherwise flags an ACK error. -/
  | evqAck (v : W32)
  /-- R490. A write of EVQ.CNTCLR clears one source's count, or every count. -/
  | countClear (v : W32)
  /-- R5. A write to any register that has no row of its own acts under its access code (RW, RW1C, RO, reserved). -/
  | registerWrite (addr : BitVec 24) (v : W32)
  /-- R494. Mailbox NOP command. -/
  | nop (slot : SlotIx) (tag : W16)
  /-- R310. Mailbox FENCE command, which places a fence at its acceptance. -/
  | fence (slot : SlotIx) (tag : W16)
  /-- R416. Mailbox REINIT command, which restarts one function of Table 15-5. -/
  | reinit (slot : SlotIx) (tag : W16)
  /-- R416. A REINIT finishes its function's restart and ends with OK. -/
  | reinitComplete (func : BitVec 5)
  /-- R407. Mailbox RESET_DEVICE command, which resets the logic die at the release of its frame. -/
  | resetDevice (slot : SlotIx) (tag : W16)
  /-- R408. Mailbox power-cycle request, which flushes the log and waits for any flash write to end. -/
  | requestPowerCycle (slot : SlotIx) (tag : W16)
  /-- R408. After the flush and the wait for WRITING to clear or 5 s, the device asserts PCYC_N. -/
  | pcycAssert
  /-- R111. Mailbox command that retires a channel. -/
  | retireChannel (slot : SlotIx) (tag : W16)
  /-- R161. Mailbox command that returns a retired or mapped channel to service. -/
  | returnChannel (slot : SlotIx) (tag : W16)
  /-- R109. Mailbox command that maps a retired primary onto its standby. -/
  | mapSpare (slot : SlotIx) (tag : W16)
  /-- R186. Mailbox command that starts a zero-point capture. -/
  | trimZero (slot : SlotIx) (tag : W16)
  /-- R186. Mailbox command that starts a span-point capture. -/
  | trimSpan (slot : SlotIx) (tag : W16)
  /-- R187. A zero or span capture has gathered its 16 results, or has timed out, and ends. -/
  | trimCaptureComplete (n : Chan) (written : Bool)
  /-- R190. Mailbox command that appends a restore-factory marker. -/
  | restoreFactory (slot : SlotIx) (tag : W16)
  /-- R133. Mailbox command that starts a four-window signature enrolment. -/
  | enrolSignature (slot : SlotIx) (tag : W16)
  /-- R133. Enrolment ends after its four windows, a discard, a missing G or the time limit, and records or refuses the signature. -/
  | enrolComplete (n : Chan) (amps volts tj : W32) (written : Bool)
  /-- R418. Mailbox command that opens staging for a configuration, executive or microcode item. -/
  | stageOpen (slot : SlotIx) (tag : W16)
  /-- R421. Mailbox command that writes a staged slot to flash and arms it for a fence tag. -/
  | stageCommit (slot : SlotIx) (tag : W16)
  /-- R420. Mailbox command that empties staging. -/
  | stageAbort (slot : SlotIx) (tag : W16)
  /-- R476. Mailbox command that starts a check value over host addresses or flash. -/
  | check (slot : SlotIx) (tag : W16)
  /-- R476. The CHECK computation has covered its range and returns its result. -/
  | checkComplete
  /-- R67. Mailbox command that enters SAFE. -/
  | forceSafe (slot : SlotIx) (tag : W16)
  /-- R73. Mailbox command that leaves SAFE when every recorded cause permits it. -/
  | leaveSafe (slot : SlotIx) (tag : W16)
  /-- R67. Mailbox command that enters TRIM and arms a channel. -/
  | enterTrim (slot : SlotIx) (tag : W16)
  /-- R77. Mailbox command that leaves TRIM and passes the outputs to rule control. -/
  | leaveTrim (slot : SlotIx) (tag : W16)
  /-- R49. Mailbox command that writes the staged image to a configuration copy and can make it pending. -/
  | writeConfig (slot : SlotIx) (tag : W16)
  /-- R203. Mailbox command that schedules a HART pass-through request. -/
  | hartPass (slot : SlotIx) (tag : W16)
  /-- R493. A mailbox code not listed in Table 18-6 ends the command with UNKNOWN. -/
  | unknownMailboxCommand (slot : SlotIx) (code tag : W16)
  /-- R514. The TAP EXTEST instruction drives the scanned outputs from the boundary register in LOAD or reset only. -/
  | extest (cells : BitVec 69)
  /-- R514. The TAP IDCODE instruction selects the 32-bit identification register. -/
  | idcode
  /-- R398. The TAP SAMPLE/PRELOAD instruction. -/
  | samplePreload (captured preload : BitVec 69)
  /-- R398. The TAP BYPASS instruction, also taken for any unlisted instruction value. -/
  | bypass (ir : BitVec 5)
  /-- R399. DBG_CTRL attach request, refused in RUN or REDUCED unless DEBUG_RUN is set. -/
  | attach
  /-- R398. DBG_CTRL detach, which releases any halt and then detaches. -/
  | detach (crcs : List W32)
  /-- R400. DBG_CTRL halt request, passed to the lanes through the input agreement unit. -/
  | halt
  /-- R400. All voting lanes reach a common instruction boundary and stop, and the logic-to-field transmitter stops. -/
  | triadHalted
  /-- R402. DBG_CTRL release, which replays the buffered writes, runs a survey, releases the lanes and retrains the Breakwater. -/
  | release (crcs : List W32)
  /-- R400. DBG_CTRL step, which replays, runs one instruction on each lane and halts again. -/
  | step (crcs : List W32)
  /-- R398. DBG_ACCESS read of a state word or an SRAM word of the reference lane. -/
  | dbgRead (addr : W32)
  /-- R400. DBG_ACCESS write, applied to the reference lane and recorded in the replay buffer. -/
  | dbgWrite (addr data : W32)
  /-- R507. RESET_N asserted, PGOOD low or a logic supply below its threshold resets the logic die and asserts SAFE_N. -/
  | logicReset (c : ResetCause)
  /-- R62. At t0 the logic die enters LOAD, samples the straps and starts its oscillator. -/
  | start (lanemode hcompat : Bool) (boot : BitVec 2) (rstValid logValid : Bool)
  /-- R62. XIN is valid and both PLLs lock, so the start reads the boot descriptor and trains the Breakwater. -/
  | clocksValid
  /-- R394. The executive slot has been read and checked, so the start check runs and the lanes are released. -/
  | executiveLoaded (startCheck : StartCheck)
  /-- R61. 2 ms after enabling its reference buffer, the field die sets REF_READY. -/
  | refReady
  /-- R65. REF_READY is not set 10 ms after REF_ON, so REF_ON is sent again, up to three times. -/
  | refOnRetry
  /-- R62. The field die accepts the microcode, or it is already running, so configuration selection, journal replay and field-die configuration follow. -/
  | microcodeAccepted (m : StartMeasure)
  /-- R31. The clock monitor declares XIN failed or a PLL unlocked, and the PLLs switch to the monitor oscillator. -/
  | xinFailure (f : ClockFault)
  /-- R31. The PLLs relock to the monitor oscillator, so the device enters SAFE, takes the ports down and puts the wheels in holdover. -/
  | monitorRelock
  /-- R31. The PLLs have not relocked 100 µs after the declaration, so the logic die is held in reset until the clocks are valid. -/
  | clockReset
  /-- R61. VFLD rises through the release threshold, so the field-die reset is released, ALMSEL is sampled and the reference is enabled. -/
  | fieldResetRelease (almsel : Bool)
  /-- R83. A filtered VFLD crossing of the ebb or turn-on refusal threshold changes the supply band. -/
  | fieldSupplyBandChange (band : BitVec 2)
  /-- R84. VFLD falls through the field-reset threshold, so the field die stops sounding, switches outputs off in order and sends its record. -/
  | lastGasp (vfld vhold : W16)
  /-- R84. At the end of the last-gasp the field die resets to its field power-on default. -/
  | fieldDieReset
  /-- R183. A filtered VLOOP crossing of 11.6 V falling or 11.9 V rising raises event 79. -/
  | vloopLow (falling : Bool)
  /-- R20. A Breakwater IDLE heartbeat frame is received and checked. -/
  | idleFrame (lane : BwLane) (h : BwHeader)
  /-- R222. A Breakwater SAMPLE frame of 14 (I, V) code pairs is received and fed to the filter engine. -/
  | sampleFrame (h : BwHeader) (firstTick : W64) (missI missV : BitVec 14)
  /-- R19. A Breakwater STATUS frame reports protection latches, lamp detector states and channel states. -/
  | statusFrame (h : BwHeader) (raw : W16)
  /-- R215. A Breakwater HOUSEKEEPING frame carries the millisecond sums, from which housekeeping results are formed. -/
  | housekeepingFrame (h : BwHeader) (sums : List (Fin 24 × Nat)) (missed : Bool)
  /-- R20. A Breakwater EVENT frame carries urgent field events to the executive. -/
  | eventFrame (h : BwHeader)
  /-- R21. A Breakwater COMMAND frame is accepted by the field die for its target tick. -/
  | commandFrame (h : BwHeader)
  /-- R16. Every 1 ms the logic die sends each wheel's accumulator, tick and increments in a PHASE frame. -/
  | phaseSend
  /-- R16. The field die accepts a PHASE frame and loads its shadow wheels at the stated tick. -/
  | phaseFrame (h : BwHeader)
  /-- R431. A Breakwater LOAD frame carries microcode or configuration blocks to the field die. -/
  | loadFrame (h : BwHeader)
  /-- R385. The field die accepts a SAFE frame, applies its safe states and then ignores lane commands. -/
  | safeFrame (h : BwHeader)
  /-- R21. The target tick of a received COMMAND arrives, and the field die acts on it. -/
  | commandTargetTick
  /-- R21. The oldest unacknowledged Breakwater frame has waited 20 µs, so it and all later ones are resent. -/
  | bwRetransmit (fieldDie : Bool)
  /-- R22. The field die declares the logic-to-field lane lost and enters slack hold. -/
  | l2fLaneLost
  /-- R22. The logic die declares a field-to-logic lane lost, marks the results or endpoints and retrains it. -/
  | f2lLaneLost (lane1 : Bool)
  /-- R19. A Breakwater lane completes training or retraining, and its sequence spaces restart. -/
  | breakwaterTrained (lane : BwLane)
  /-- R22. A field-to-logic retraining has not completed within 1 ms; the third in succession escalates to REINIT 0x1D. -/
  | retrainTimeout
  /-- R22. 10 ms pass without a lost SAMPLE frame, so results become valid again. -/
  | sampleLossClear
  /-- R81. The slack window ends without re-adoption, and the field die applies its safe states. -/
  | slackWindowExpiry
  /-- R98. A DI's new level has held for DEBOUNCE, so its debounced state changes. -/
  | diStateChange (n : Chan) (level : Bool)
  /-- R97. A DI classification (WIRE_BREAK, DI_LEAK, SINK_FAULT and so on) holds for its debounce time. -/
  | diClassChange (n : Chan) (c : Machine.DiClass)
  /-- R92. The FSN-to-FIO difference has stayed above or below its threshold for 10 ms. -/
  | senseDiff (n : Chan) (above : Bool)
  /-- R94. Pair current imbalance has held, or been absent, for 10 ms. -/
  | pairImbal (n : Chan) (present : Bool)
  /-- R99. An AI-I loop path enters or leaves current limit, setting or clearing WIRE.SHORT. -/
  | pathLimit (n : Chan) (entered : Bool)
  /-- R99. With SHORT_OFF, a limit held for 100 ms opens the blocking switch. -/
  | shortSwitchOff (n : Chan)
  /-- R99. Once a second the switch is reclosed for a 10 ms probe of the limit. -/
  | shortProbe (n : Chan) (inLimit : Bool)
  /-- R99. The AI-I open-loop condition has held or been absent for 100 ms. -/
  | openLoop (n : Chan) (present : Bool)
  /-- R103. A MISWIRE or REVERSE threshold is crossed, so the blocking switches open within 2 µs. -/
  | wiringCrossing (n : Chan) (reverse : Bool)
  /-- R103. The wiring condition persists for 500 µs and is declared, with an EVENT frame. -/
  | wiringDeclare (n : Chan)
  /-- R103. A transient has stayed past release for 1 ms, so the switches reclose and the transient is counted. -/
  | wiringTransientEnd (n : Chan)
  /-- R104. A declared MISWIRE or REVERSE has stayed past release for 1 s and clears, unless a third declaration holds the channel isolated. -/
  | wiringClear (n : Chan)
  /-- R105. REVERSE on an off DO persists 20 ms and is declared, refusing turn-on. -/
  | doReverse (n : Chan) (present : Bool)
  /-- R105. V(FIO) rises above VFLD + 0.5 V on a DO, refusing turn-on or switching the switch off. -/
  | backfeed (n : Chan) (present : Bool) (ma : W16) (tj : Byte)
  /-- R147. The switch current exceeds 8 A, so the switch turns off and the overcurrent latch sets. -/
  | hardShort (n : Chan) (ma : W16) (tj : Byte)
  /-- R149. After the flood window the current stays above TRIP for 10 µs, so the steady trip latches. -/
  | steadyTrip (n : Chan) (ma : W16) (tj : Byte)
  /-- R149. The flood window ends, so the steady trip is evaluated and the window comparators arm. -/
  | floodWindowEnd (n : Chan) (limited : Bool)
  /-- R151. V(FIO) falls below −30 V after a turn-off, so a clamp event begins with its allowance fixed. -/
  | clampEventStart (n : Chan) (tj : W32)
  /-- R151. The clamp current falls below 10 mA, and the event's energy is added to E_EST. -/
  | clampEventEnd (n : Chan) (samples : List (W32 × W32 × W32))
  /-- R261. At each 10 µs grid tick the stored clamp heat is tested against E_ALLOW and the latch set. -/
  | clampEnergyTest (n : Chan) (samples : List (W32 × W32 × W32))
  /-- R261. Every 1 ms outside events E_EST decays, and the clamp-energy latch releases at half the allowance. -/
  | clampDecayStep (n : Chan)
  /-- R153. Every 10 µs a junction is compared with the case + DT_LIM and with 170 °C, setting or releasing cooling latches. -/
  | thermalCompare (n : Chan) (tj tcase : W32) (inRegulation : Bool) (ma : W16)
  /-- R158. The back-off expiry tick arrives, so PSTATE becomes PERMIT and a restart can follow. -/
  | backoffExpiry (n : Chan)
  /-- R156. The refill timer reaches 60 s and TOKENS advances. -/
  | tokenRefill (n : Chan)
  /-- R156. Accumulated on-time reaches QUIET_S and RETRY_N returns to 0. -/
  | quietReset (n : Chan)
  /-- R163. Every 10 ms the governor recomputes P_EST and re-admits shed channels that now fit. -/
  | governorUpdate
  /-- R166. P_EST has exceeded the budget for 1 s, so OVER is set and refusal or shedding begins. -/
  | governorOver
  /-- R165. Every 100 ms a refused demand is re-evaluated and carried out once admitted. -/
  | governorReevaluate
  /-- R166. Every 100 ms while over budget with SHED set, the highest shed-able lit channel is switched off. -/
  | governorShed
  /-- R127. A new window comparator value has held for OPEN_FILT and is declared, with an EVENT frame when below OPEN. -/
  | windowDeclare (n : Chan) (w : Machine.Win) (held : Nat)
  /-- R128. 1 ms after arming, on-state dither begins on a lit lamp with SND_EN. -/
  | ditherStart (n : Chan) (iRef : W32)
  /-- R131. Every fourth accepted dither cycle, after 16, the correlator yields G for the last 16 cycles. -/
  | correlatorResult (n : Chan) (cycles : List DitherCycle)
  /-- R136. A due off-state pulse is applied once every condition holds, and is classified after 50 µs. -/
  | offStatePulse (n : Chan) (v0 v1 i1 vfld : W32)
  /-- R137. FIO stays above V_PH for PH_FILT on a dark lamp, so the phantom detector is declared and the sink engaged. -/
  | phantomDeclare (n : Chan) (held : Nat)
  /-- R137. FIO stays below V_PH − 0.5 V for 10 ms, and the declaration clears. -/
  | phantomClear (n : Chan)
  /-- R138. FIO stays above V_PH for 10 ms with the sink engaged, so the sink is released and DRIVEN set. -/
  | phantomDriven (n : Chan)
  /-- R139. At its offset each second, or 100 ms after a failure, the channel's proving path is checked. -/
  | pathCheck (n : Chan) (m : PathMeasure)
  /-- R141. A held estimate or agreeing pulse becomes older than HOLD_S and the lamp becomes UNPROVEN. -/
  | evidenceExpiry (n : Chan)
  /-- R179. The AO target exceeds the measured current by 0.1 mA for 10 ms, setting COMPLIANCE. -/
  | shortfall (n : Chan)
  /-- R179. The measured current exceeds the AO target by 0.1 mA for 10 ms, setting LOOP_OVER. -/
  | excess (n : Chan)
  /-- R179. The target and measured current agree within 0.05 mA for 100 ms, clearing the bits. -/
  | complianceClear (n : Chan)
  /-- R182. The open-output-loop condition holds for 10 ms. -/
  | aoOpen (n : Chan)
  /-- R181. Every 100 ms the loop resistance and the alarm headroom are estimated. -/
  | loopResistanceEstimate (n : Chan)
  /-- R181. The predicted alarm headroom has stayed below 2.5 V or above 2.6 V for 1 s. -/
  | almRisk (n : Chan) (risk : Bool)
  /-- R257. At a target change and every 10 ms the DAC code is recomputed and sent when it changes. -/
  | dacRecompute (n : Chan)
  /-- R192. A debounced ZERO_N or SPAN_N press ends and its action under Table 7-4 is taken. -/
  | buttonPress (zero ended : Bool) (ms : Nat) (both : Bool)
  /-- R198. A mapped device's command 3 poll falls due. -/
  | hartPollDue (n : Chan) (poll : BitVec 4)
  /-- R198. Every 10 s an absent or unfound device is sought with command 0. -/
  | hartSearch (n : Chan) (poll : BitVec 4)
  /-- R197. A free modem is connected and, after the carrier wait, sends a ready request. -/
  | hartTransactionStart (modem : Fin 4)
  /-- R198. A HART response is received and checked, and mapped endpoints or the pass-through result are updated. -/
  | hartResponse (modem : Fin 4) (r : HartFrame)
  /-- R198. No response begins within RT, so the transaction fails and is retried or the device is declared absent. -/
  | hartTimeout (modem : Fin 4)
  /-- R195. A burst frame is received, discarded and counted. -/
  | hartBurst (n : Chan)
  /-- R200. Every 60 s an idle modem runs its loopback test and leaves service if it fails. -/
  | hartModemSelftest (modem : Fin 4) (pass : Bool)
  /-- R247. A path's filter output is produced and its result is computed and written to RES and its ring. -/
  | mainResult (p : PathIx)
  /-- R228. The SYNC_WHEEL phase crosses SYNC_PHASE, ending an ALIGN wait and fixing raw sample 0. -/
  | alignCrossing (p : PathIx)
  /-- R272. A PPS_IN rising edge is captured, and its acceptance and second number are decided. -/
  | ppsEdge
  /-- R271. A MAINS_IN rising edge is captured and counted, or ignored as a bounce. -/
  | mainsEdge
  /-- R271. A TIDE_IN rising edge is captured as a reference event. -/
  | tideInEdge
  /-- R274. The executive processes an accepted reference event: error, step rule, and new F, S and INC. -/
  | referenceEventProcess (w : WheelIx)
  /-- R274. The apply tick arrives and the new increment takes effect. -/
  | incApply (w : WheelIx)
  /-- R279. At the apply tick a step jumps the wheel's accumulator, and characters take the level at the new phase. -/
  | wheelStep (w : WheelIx)
  /-- R271. No accepted event arrives within the loss time, so the wheel enters HOLDOVER. -/
  | referenceLost (w : WheelIx)
  /-- R283. A wheel's phase crosses an edge PHASE of a running character, and the field die drives the switch. -/
  | characterEdge (n : Chan)
  /-- R287. At phase 0 of the old wheel a running character changes over to the new library. -/
  | libraryChangeover (n : Chan)
  /-- R286. Phase 0 of wheel 0 fires, and TIDE_OUT is driven high. -/
  | tideOutPulse
  /-- R286. 100 ticks after its rise, TIDE_OUT is driven low. -/
  | tideOutEnd
  /-- R273. At its offset each second a TIME record with its MARK is sent for each started wheel on downstream ports. -/
  | timeSend (w : WheelIx) (fTx : Byte)
  /-- R299. Every 1 ms in modes without rule cycles, class 2 and 3 endpoints are recomputed. -/
  | endpointRecompute
  /-- R305. Changed words in the change set are sent upstream in an update request when credits and the rate limit allow. -/
  | updateSend
  /-- R306. Every 937.5 ms the next 64 local words are sent upstream as sweep words. -/
  | sweepSend
  /-- R306. 150 s pass without an update or sweep word from an entry, so it becomes STALE. -/
  | entryStale (j : Fin 256)
  /-- R311. The last condition of a pending fence comes to hold, and the fence completes or returns its response. -/
  | fenceComplete (upstream : Bool)
  /-- R52. After its fence and the end of the rule cycle, a pending generation takes effect at one point. -/
  | generationApply
  /-- R319. At a boundary a rule cycle takes the cycle view, runs the rules and writes, commands and checkpoints. -/
  | ruleCycle
  /-- R332. A boundary passes before the cycle completes, so the boundary is skipped and the overrun counted. -/
  | ruleOverrun
  /-- R354. A Svasta Link TRAIN frame is received during training and checked for identity, role and rate. -/
  | train (k : PortIx) (f : LinkHeader)
  /-- R354. Every 10 µs in TRAINING a port sends a TRAIN frame. -/
  | trainSend (k : PortIx)
  /-- R353. 128 clean code groups are received after the IDL period, so a DOWN port enters TRAINING. -/
  | commaAligned (k : PortIx)
  /-- R353. A port not UP 10 ms after entering TRAINING returns to DOWN. -/
  | trainingTimeout (k : PortIx)
  /-- R353. 100 ms after a training time-out the port tries again. -/
  | trainingRetry (k : PortIx)
  /-- R365. A link WRITE request is received and its entries are applied locally or routed on. -/
  | linkWrite (k : PortIx) (f : LinkHeader)
  /-- R306. A link UPDATE request of changed or sweep words is received and applied. -/
  | update (k : PortIx) (f : LinkHeader)
  /-- R312. A fence request is received from upstream and placed. -/
  | fenceRequest (k : PortIx) (f : LinkHeader)
  /-- R365. A WRITE_RSP is received and matched to its transit entry or origin. -/
  | writeRsp (k : PortIx) (f : LinkHeader)
  /-- R305. An UPDATE_ACK confirms that the update's words were written upstream. -/
  | updateAck (k : PortIx) (f : LinkHeader)
  /-- R311. A FENCE_RSP is received from a downstream port. -/
  | fenceRsp (k : PortIx) (f : LinkHeader)
  /-- R365. An ERROR_RSP (TIMEOUT, NO_ROUTE, LOOP) is received and passed back or recorded. -/
  | errorRsp (k : PortIx) (f : LinkHeader)
  /-- R273. A TIME record is received after its MARK and taken as a link reference event. -/
  | timeRecord (k : PortIx) (f : LinkHeader)
  /-- R369. A DISC record is received, and the neighbour's window is stored and applied under R301. -/
  | disc (k : PortIx) (f : LinkHeader)
  /-- R368. An urgent LAMP record is received, forwarded cut-through and written to the image. -/
  | lampRecord (k : PortIx) (f : LinkHeader)
  /-- R487. An urgent EVENT record is received, forwarded, and entered in the queue as a remote entry. -/
  | eventRecord (k : PortIx) (f : LinkHeader)
  /-- R361. A credit return sequence is received and the sender's credits advance. -/
  | crt (k : PortIx) (v check : Byte)
  /-- R359. A cumulative acknowledgement is received, freeing frames retained for retransmission. -/
  | ack (k : PortIx) (c : Machine.LinkClass) (q : Byte)
  /-- R363. A credit census is received and checked against the receiver's books. -/
  | cen (k : PortIx) (hq hp hu rq rp ru ck : Byte)
  /-- R363. Every 1 ms, at the first moment with no frame open, a port sends its census. -/
  | censusSend (k : PortIx)
  /-- R364. No valid census arrives for 3 ms, so the port is re-initialised. -/
  | censusMissing (k : PortIx)
  /-- R356. A MARK of type 0 is received and answered with a delay-response MARK. -/
  | markDelayRequest (k : PortIx) (v : BitVec 24) (ck : Byte) (turnNs : BitVec 24)
  /-- R356. A MARK of type 1 is received, completing a delay exchange and updating D. -/
  | markDelayResponse (k : PortIx) (turnNs : BitVec 24) (ck : Byte) (t4Ns : Int)
  /-- R357. A MARK of type 2 is received as the reference symbol of the TIME record that follows it. -/
  | markTimeReference (k : PortIx) (v : BitVec 24) (ck : Byte) (ns : Byte)
  /-- R356. Every 100 ms while UP, and at training, a port starts a delay exchange. -/
  | delayExchange (k : PortIx) (t1Ns : Int)
  /-- R361. A waiting frame is sent once its class's credits are held, in the order of R367. -/
  | linkFrameSend (k : PortIx)
  /-- R359. The oldest unacknowledged frame of a class passes T_RT, so the class is resent go-back-N, up to the cap. -/
  | linkRetransmit (k : PortIx) (c : Machine.LinkClass)
  /-- R355. No symbol is decoded for 10 µs, so an UP port is re-initialised. -/
  | lossOfSignal (k : PortIx)
  /-- R355. A code violation is received; the 64th within 1 ms re-initialises the port. -/
  | codeViolation (k : PortIx)
  /-- R366. A request's budget reaches 0 while held, so it is discarded and answered with TIMEOUT. -/
  | requestBudgetExpiry (k : PortIx) (tag : W16)
  /-- R366. An origin has had no response for 300 ms, so the request fails. -/
  | requestTimeout (k : PortIx) (tag : W16)
  /-- R379. One lane's output bundle differs from the majority, so it is gated and resynchronised. -/
  | laneDisagree (l : LaneIx) (plane : Fin 6)
  /-- R377. A lane detects a parity error in its own state and reports itself odd. -/
  | laneSelfReport (l : LaneIx)
  /-- R382. A lane's sample of one input stays in the minority for `cycles` consecutive cycles; at 4,096 it is declared odd. -/
  | iauMinority (l : LaneIx) (cycles : W16)
  /-- R387. The state image transfer and its verification end, and the odd lane rejoins or is retried. -/
  | resyncComplete (verified pairAgrees : Bool) (failing : Option (Fin 6)) (crcs : List W32)
  /-- R385. No majority, a pair mismatch or a V1/V2 difference stops field commands and sends the SAFE frame. -/
  | voterFault (f : VoterFault)
  /-- R383. Every 1 ms the voting plane stalls the lanes and runs its test patterns. -/
  | voterSelftest (failing : Option (Fin 6))
  /-- R390. Every 10 ms the lanes compute and vote a CRC over their architectural state. -/
  | stateSurvey (crcs : List W32)
  /-- R410. A watchdog expires, and its REINIT, watchdog reset or SAFE step is taken. -/
  | watchdog (k : Fin 8) (func : BitVec 5)
  /-- R424. An armed executive's fence has completed and the cycle has ended, so the image freezes and the record is sealed. -/
  | handoverStart
  /-- R426. The boot sequencer finishes exchanging the slot image with staging and runs the start check. -/
  | exchangeComplete (startCheck : StartCheck)
  /-- R427. The new executive adopts the record, unfreezes the image and processes the held traffic. -/
  | executiveResume
  /-- R428. A failed check, a refused record or 10 ms without resumption reverses the handover. -/
  | handoverReverse (why : BitVec 3) (startCheck : StartCheck)
  /-- R429. 1 s after resumption the boot descriptor is written to name the new slot. -/
  | probationEnd (written : Bool)
  /-- R430. An armed microcode's fence has completed and every lane is up, so the opening LOAD frame starts the reload hold. -/
  | reloadStart
  /-- R431. The field die reports the body check and self-check passed, and the hold ends when the identity is presented. -/
  | reloadComplete (written : Bool)
  /-- R432. The field die reports a failed body check, so the body is resent or the descriptor's slot used. -/
  | reloadBodyFail
  /-- R460. The executive writes a memory-port queue entry, which is checked and queued or refused. -/
  | queueEntry (w0 w1 w2 w3 : W32) (data : List Byte)
  /-- R459. The port starts the serial frame of the next queue entry. -/
  | memoryFrame
  /-- R461. Every 10 µs a polling entry sends a 0x05 status frame until the flash reports ready. -/
  | pollFrame (st : Byte)
  /-- R461. A queue entry, including its poll, completes. -/
  | entryComplete (ok : Bool)
  /-- R462. No next entry arrives within 100 µs of a held select, so the select is released. -/
  | contBreak
  /-- R465. A read in the execute-in-place window is built into a flash frame by hardware. -/
  | xipRead (addr : BitVec 24) (len : W16)
  /-- R463. At the first frame boundary after its cause, the port switches between direct and decoded select. -/
  | selectModeChange
  /-- R473. A START write loads the check register with INIT XOR FOLD. -/
  | checkUnitStart (ctrl : W32) (poly init xorout fold : W64)
  /-- R474. A DATA8 write feeds one byte to the check-value unit. -/
  | data8 (v : W32)
  /-- R474. A DATA16 write feeds two bytes, low first. -/
  | data16 (v : W32)
  /-- R474. A DATA32 write feeds four bytes in ascending order. -/
  | data32 (v : W32)
  /-- R489. Pages of collected log records are programmed to flash, erasing the next sector when the ring wraps. -/
  | logFlush
  /-- R29. The scrubber reads and rewrites SRAM words, correcting single-bit errors and acting on uncorrectable ones. -/
  | scrub (offset : BitVec 23) (uncorrectable : Bool)
  /-- R31. XIN becomes valid again and both PLLs lock to it, ending a clock reset or the running on the monitor oscillator. -/
  | xinRestored
  /-- R65. XIN is still not valid, or a PLL still unlocked, 50 ms after t0, so event 106 CLOCK_FAULT is recorded. -/
  | clockWaitTimeout
  /-- R75. The field die detects a fatal fault (recurring microcode RAM error, protection self-check failure, table or library check failure, or loss of tick lock) and switches all channels off or applies its safe-state table. -/
  | fieldDieFaultDetected (f : FieldFault)
  /-- R526. VFLD and VHOLD both fall below 8.0 V before the retained last-gasp record has been accepted, so the record is lost. -/
  | retentionStoreLoss
  /-- R418. The zero fill of staging that an accepted STAGE_OPEN began ends within 1 ms, and staging enters OPEN with event 90. -/
  | stagingFilled
  /-- R194. A timer of the TRIMLED pattern expires and TRIMLED changes level: the armed-channel pulses, the 1 s low after a success, or the 100 ms toggling after a refusal. -/
  | trimledTimer
  deriving DecidableEq, Repr

end Sys2Proof
end

