-- ==== Sys2Proof/Machine/BwFrame.lean ====
section
/-!
DEFINITION. The Breakwater frame (01 R18, R19, Tables 1-3 and 1-4; 14 R384): its bytes, its type codes, its flags and its CRC.
-/
namespace Sys2Proof.Machine

/-- TYPE codes (Table 1-4, R384). -/
def tyIdle : Byte := 0x00
def tySample : Byte := 0x01
def tyStatus : Byte := 0x02
def tyHousekeeping : Byte := 0x03
def tyEvent : Byte := 0x04
def tyCommand : Byte := 0x10
def tyPhase : Byte := 0x11
def tyLoad : Byte := 0x12
def tySafe : Byte := 0x13

/-- FLAGS (Table 1-3): bit 0 RETX, bit 1 HANDOVER, bit 2 EBB, bits 3 to 7 zero. -/
def bwFlags (retx handover ebb : Bool) : Byte :=
  (BitVec.ofBool retx).setWidth 8 ||| (BitVec.ofBool handover).setWidth 8 <<< 1 ||| (BitVec.ofBool ebb).setWidth 8 <<< 2

/-- One byte, most significant bit first, into a CRC register of polynomial 0x1021 (R19). -/
def crc16Byte (c : W16) (b : Byte) : W16 :=
  (List.range 8).foldl (fun c _ => if bitAt c 15 then (c <<< 1) ^^^ 0x1021#16 else c <<< 1) (c ^^^ (b.setWidth 16 <<< 8))

/-- The CRC of a frame numbered `seq` over its bytes 0 to 61 (R19): no reflection, no final XOR. -/
def bwCrc (seq : Byte) (bytes : List Byte) : W16 := bytes.foldl crc16Byte (0xFFFF#16 ^^^ (seq.setWidth 16 * 0x0101#16))

/-- Bytes 0 to 61 of a frame of type `ty` (R18). -/
def bwBytes (ty : Byte) (h : BwHeader) : List Byte := ty :: h.seq :: h.ack :: h.flags :: h.payload

/-- The 64 bytes of a frame of type `ty`, CRC most significant byte first (R18).[log 138: DESIGN CHOICE, safe] -/
def bwWire (ty : Byte) (h : BwHeader) : List Byte := bwBytes ty h ++ [field h.crc 8 8, field h.crc 0 8]

/-- A frame of type `ty` passes its check: 64 bytes, and the CRC of R19. -/
def frameOk (h : BwHeader) (ty : Byte) : Bool := h.payload.length = 58 && bwCrc h.seq (bwBytes ty h) = h.crc

/-- The 16-bit field at payload byte `i`, most significant byte first (R18). -/
def bwHalf (h : BwHeader) (i : Nat) : W16 := BitVec.ofNat 16 (natBE ((h.payload.drop i).take 2))

/-- SAMPLE: the slot counter of the first pair (Table 1-4). -/
def sampleSlot (h : BwHeader) : W16 := bwHalf h 0

/-- SAMPLE: its fourteen (I, V) code pairs (Table 1-4). -/
def samplePairs (h : BwHeader) : List (W16 × W16) := (List.range 14).map fun i => (bwHalf h (2 + 4 * i), bwHalf h (4 + 4 * i))

/-- A frame as its sender forms it, with its CRC. -/
def bwForm (ty seq ack flags : Byte) (payload : List Byte) : BwHeader :=
  { seq := seq, ack := ack, flags := flags, payload := payload, crc := bwCrc seq (ty :: seq :: ack :: flags :: payload) }

end Sys2Proof.Machine
end

