-- ==== Sys2Proof/Config.lean ====
section
/-!
DEFINITION. What one device fixes (factory OTP, the executive's own data) and the values the spec leaves open. All of them are opaque: nothing
can be proved of a particular value, so a statement about one holds whatever it is.
-/
namespace Sys2Proof.Config

/-- A value the spec leaves open, one for each draw of `State.free`. [log 5: DESIGN CHOICE, safe; log 46: DESIGN CHOICE, safe; log 48: DESIGN CHOICE, safe; log 55: DESIGN CHOICE, safe; log 82: DESIGN CHOICE, safe; log 127: DESIGN CHOICE, safe] -/
opaque free : Nat → W32

/-- IDENT bytes 4–7: die serial number from factory OTP (Table 0-1). [log 7: DESIGN CHOICE, unsafe] -/
opaque serial : W32

/-- The quotient of the output chain by a user gain of 0 (09 R256). [log 163: DESIGN CHOICE, safe] -/
opaque zeroGain : Int → Int

/-- TJ of a conversion for which no junction result exists (09 R249). [log 164: DESIGN CHOICE, safe] -/
opaque tjNone : W32

/-- Words of the architectural state image as the executive leaves them (R386): a value for each draw and word. -/
opaque laneWord : Nat → Nat → W32

/-- The survey CRC of the reference lane at a survey (R386, R390). [log 27: DESIGN CHOICE, safe] -/
opaque surveyCrc : Nat → W32

/-- A byte of a serial device on decoded codes 2 to 6, for each read, code and offset (R464): what such a device answers is its own. [log 119: DESIGN CHOICE, safe; log 122: DESIGN CHOICE, safe] -/
opaque deviceByte : Nat → Nat → Nat → Byte

end Sys2Proof.Config
end

