-- ==== Sys2Proof/Machine/EventState.lean ====
section
/-!
DEFINITION. State of the event router, its queue and log, and of the mailbox (18, R479–R500). Every field's default is its value at reset.
-/
namespace Sys2Proof.Machine

/-- The normal-class entry of a source that waits for the next boundary (R481). -/
structure PendingEntry where
  count : W16
  tick : W64
  detail : W32
  multi : Bool
  deriving DecidableEq, Repr

/-- One event source: EVQ.SRCs (Table 18-15). Until the first generation is applied every source is enabled, normal and routed to the queue only (R479). -/
structure EventSource where
  enable : Bool := true
  urgent : Bool := false
  route : BitVec 2 := 0
  latched : Bool := false
  count : W16 := 0
  waiting : Option PendingEntry := none
  deriving DecidableEq, Repr

/-- A queue entry (Table 18-2). -/
structure QueueEntry where
  source : BitVec 7 := 0
  remote : Bool := false
  urgent : Bool := false
  irq : Bool := false
  link : Bool := false
  multi : Bool := false
  count : W16 := 0
  tick : W32 := 0
  addr : BitVec 20 := 0
  detail : W32 := 0
  deriving DecidableEq, Repr

/-- A log record (Table 18-3) less its CRC, which R37 gives when it is programmed. -/
structure LogRecord where
  ltype : Byte
  flags : Byte
  resets : W16
  lseq : W32
  body : List W32
  tickh : W32
  deriving DecidableEq, Repr

/-- The router, the queue, IRQ and the log. -/
structure EventRouter where
  src : Vector EventSource 128 := Vector.replicate 128 {}
  ring : Vector QueueEntry 256 := Vector.replicate 256 {}
  head : BitVec 8 := 0
  count : Nat := 0
  ovf : Bool := false
  irqEn : Bool := true
  irqOvf : Bool := true
  lost : W16 := 0
  linkDrop : W16 := 0
  remoteEntries : W16 := 0
  foreign : BitVec 8 := 0
  ackErr : Bool := false
  ackBad : BitVec 8 := 0
  /-- records in the SRAM log not yet programmed, oldest first (R489) -/
  sramLog : List LogRecord := []
  /-- EVQ.LOGPOS: LSEQ of the next record -/
  logPos : W32 := 0
  /-- EVQ.LOGOLD: LSEQ of the oldest record in flash -/
  logOld : W32 := 0
  logSel : BitVec 12 := 0
  /-- EVQ.LOGCNT.LOST -/
  logLost : W16 := 0
  /-- records lost since the last LTYPE 0x03 record -/
  logLostRun : Nat := 0
  /-- flash record place (0 to 352,255) at which the next record is programmed -/
  logPlace : Nat := 0
  /-- the seal of the SRAM event log holds (R489) -/
  logSeal : Bool := false
  /-- occurrences detected while the executive did not run, or during a handover or debug halt, oldest first (R481, Table 18-4) -/
  deferred : List (SrcIx × W32 × W64) := []
  deriving DecidableEq, Repr

/-- Mailbox slot states (Table 18-8). -/
inductive SlotState where
  | free
  | running
  | done
  deriving DecidableEq, Repr

/-- One mailbox slot (Table 18-8). -/
structure MailSlot where
  code : W16 := 0
  cmdTag : W16 := 0
  state : SlotState := .free
  result : Byte := 0
  tag : W16 := 0
  detail : W32 := 0
  arg : Vector W32 32 := Vector.replicate 32 0
  ret : Vector W32 28 := Vector.replicate 28 0
  /-- the arguments taken at the start of the command that runs (Table 18-7) -/
  taken : Vector W32 32 := Vector.replicate 32 0
  deriving DecidableEq, Repr

/-- The mailbox: eight slots and MBX.SUMMARY.REJECTED. -/
structure Mailbox where
  slot : Vector MailSlot 8 := Vector.replicate 8 {}
  rejected : BitVec 8 := 0
  deriving DecidableEq, Repr

end Sys2Proof.Machine
end

