-- ==== Sys2Proof/Machine/FieldState.lean ====
section
/-!
DEFINITION. State of the field die (01 R17, 03 R60–R85, 04–06) and the frames of the Breakwater in both directions (01 R18–R22).
Every field's default is the field power-on default or the value at reset.
-/
namespace Sys2Proof.Machine

/-- Causes of a last-gasp (R84). -/
inductive GaspCause where
  /-- VFLD fell through the field-reset threshold -/
  | fieldReset
  deriving DecidableEq, Repr

/-- A last-gasp record (R84, R526): its number, its cause, the VFLD and VHOLD codes, and the channels that were on before the outputs went off. -/
structure GaspRecord where
  number : Nat
  cause : GaspCause
  vfld : W16
  vhold : W16
  on : Vector Bool 16
  deriving DecidableEq, Repr

/-- One channel of the field die. -/
structure FdChan where
  /-- the record in force -/
  cfg : ChanRecord := {}
  /-- command in force (rank 5), and the level of the running character -/
  cmd : ChanCmd := .dark
  charLit : Bool := false
  /-- the record the running character is taken from until its changeover (R287) -/
  oldChar : Option Character := none
  /-- the safe-state entry in the table, and whether it is being applied -/
  safe : SafeState := .off
  safeOn : Bool := false
  /-- switch, source, sink or regulator on -/
  on : Bool := false
  /-- overcurrent latches: steady, short, backfeed -/
  oc : Vector Bool 3 := Vector.replicate 3 false
  inLimit : Bool := false
  /-- cooling latches -/
  clampLatch : Bool := false
  thDt : Bool := false
  thAbs : Bool := false
  flood : Bool := false
  floodLimited : Bool := false
  /-- a turn-on due during a clamp event waits for its end (Table 6-5) -/
  onHeld : Bool := false
  blockOpen : Bool := false
  /-- a wiring threshold is crossed and not yet declared: reverse? The tick of the crossing, and the last interval that ended as a transient -/
  crossed : Option Bool := none
  crossTick : W64 := 0
  lastTransient : Option (W64 × W64) := none
  miswire : Bool := false
  reverse : Bool := false
  declTicks : List W64 := []
  isolated : Bool := false
  doReverse : Bool := false
  backfeed : Bool := false
  inLimitPath : Bool := false
  shortOpen : Bool := false
  openLoop : Bool := false
  diLevel : Bool := false
  diClass : DiClass := .notDi
  senseDiff : Bool := false
  imbal : Bool := false
  clampEvent : Bool := false
  /-- energy of the event in progress and stored heat, UQ.8 of 10 µJ (R261) -/
  e : Nat := 0
  eEst : Nat := 0
  eAllow : Nat := 0
  win : Win := .notArmed
  dither : Bool := false
  /-- first ticks of the first dither cycle and of the one whose end has not been taken yet -/
  ditherFrom : W64 := 0
  ditherNext : W64 := 0
  /-- a path check in progress since this tick, and the first and last tick of the last one (R139) -/
  checkFrom : Option W64 := none
  lastCheck : Option (W64 × W64) := none
  /-- I_ref and the low half's regulated current in 10 nA while dither runs (R128) -/
  iRef : Nat := 0
  iLow : Nat := 0
  lastPulse : Pulse := .none
  /-- tick the next off-state pulse falls due at, tick of the last one, and its current in 100 µA (R135, R136) -/
  pulseDue : Option W64 := none
  pulseTick : Option W64 := none
  pulseI : Nat := 0
  offTick : Option W64 := none
  phDet : Bool := false
  phSink : Bool := false
  phDriven : Bool := false
  pcFail : BitVec 4 := 0
  retired : Bool := false
  roleOf : Option Chan := none
  /-- the safe-state entry that a mapping replaced -/
  ownSafe : Option SafeState := none
  /-- AO: command word in force, alarm selection, DAC code (R173, R257) -/
  aoCode : W16 := 0
  aoAlarm : BitVec 2 := 0
  dac : W16 := 0
  deriving DecidableEq, Repr

/-- What the field die reports to the executive in EVENT and STATUS frames, one report for each detection. -/
inductive Report where
  /-- level, class and counted level change of a DI (R97, R98) -/
  | di (n : Chan) (level : Bool) (tick : W64)
  | diClass (n : Chan) (c : DiClass)
  | senseDiff (n : Chan) (on : Bool)
  | pairImbal (n : Chan) (on : Bool)
  | short (n : Chan) (on : Bool)
  | openLoop (n : Chan) (on : Bool)
  | block (n : Chan) (isOpen : Bool)
  | wiring (n : Chan) (reverse : Bool) (on : Bool) (held : Bool)
  | transient (n : Chan)
  | doReverse (n : Chan) (on : Bool)
  /-- BACKFEED present or gone; `event` when it raises 4n + 2 (the switch was off, Table 4-5) -/
  | backfeed (n : Chan) (on : Bool) (event : Bool)
  /-- an overcurrent trip: which latch, current in mA, temperature code, tick, and the cooling latches of the same tick (R150, R162) -/
  | trip (n : Chan) (bit : Fin 3) (cool : List (Fin 10)) (inLimit : Bool) (ma : W16) (tj : BitVec 8) (tick : W64)
  /-- a cooling latch set or released: 4 CLAMP, 5 TH_DT, 6 TH_ABS -/
  | cooling (n : Chan) (bit : Fin 10) (on : Bool) (tj : BitVec 8) (tick : W64)
  | ocCleared (n : Chan)
  /-- a restart has taken place, or its conditions did not hold at its target tick (R157) -/
  | restarted (n : Chan)
  | restartMissed (n : Chan)
  | flood (n : Chan) (running : Bool) (limited : Bool)
  | clampEnd (n : Chan) (eLast : W16) (eEst : Nat) (eAllow : W16)
  | switched (n : Chan) (on : Bool) (tick : W64)
  | window (n : Chan) (w : Win)
  /-- an off-state pulse, and whether it agrees with the one before it since the last turn-off or invalidation (R136) -/
  | pulse (n : Chan) (c : Pulse) (agree : Bool) (rload : Option W16) (tick : W64)
  | phantom (n : Chan) (declared engaged driven : Bool)
  | pathCheck (n : Chan) (fail : BitVec 4) (tick : W64)
  | level (n : Chan) (lit : Bool)
  | late (n : Chan)
  | turnOnRefused (n : Chan)
  /-- a rise of an AO refused (R83), with what stays in force: regulator on, target code, alarm selection -/
  | riseRefused (n : Chan) (on : Bool) (code : W16) (sel : BitVec 2)
  /-- a turn-off in a dither low half (Table 6-5) -/
  | ditherCut (n : Chan)
  | compliance (n : Chan) (bit : Fin 11) (on : Bool)
  | supply (band : BitVec 2)
  | lastGasp (r : GaspRecord) (retained : Bool)
  /-- ALMSEL as sampled (R175) -/
  | almsel (b : Bool)
  /-- a debounced press of ZERO_N or SPAN_N begun or ended (R192) -/
  | button (zero ended : Bool) (ms : Nat) (both : Bool)
  /-- DI levels at the last tick before debounce, and the stored heat of every channel, as STATUS frames give them (Table 4-20, R34) -/
  | diRaw (levels : W16)
  | heat (e : Vector Nat 16)
  /-- the channel's status, restated after a REINIT (R120) -/
  | restated (n : Chan) (c : FdChan)
  /-- the records of a generation are in force at the field die, with the channels whose changeover waits (R53, R287) -/
  | configured (waits : Vector Bool 16)
  /-- a channel has changed over to the new library, which may lack its character (R287) -/
  | changedOver (n : Chan) (gone : Bool)
  | vloop (falling : Bool)
  | refReady
  /-- REF_READY as a STATUS frame shows it (R242) -/
  | refNow (b : Bool)
  | fatal (off : Bool)
  | seqTimer
  | microRam
  | slackSeen (overwritten : Nat)
  | safeApplied
  deriving DecidableEq, Repr

/-- One channel command of a COMMAND frame. -/
inductive FieldAct where
  /-- a new command, an AO's with its DAC code: ends an applied safe state, never clears a latch -/
  | set (n : Chan) (c : ChanCmd)
  /-- a restart under R157: clears the overcurrent latch and turns the switch on if the commanded level is lit (R148) -/
  | restart (n : Chan)
  /-- the safe-state entry is applied -/
  | safe (n : Chan)
  /-- retirement of the channel, and its return (R111, R161) -/
  | retire (n : Chan)
  | unretire (n : Chan)
  /-- s takes the role of p with p's command and safe-state entry (R107); and its end -/
  | mapRole (p s : Chan)
  | unmapRole (p s : Chan)
  /-- the overcurrent latch is cleared without a restart (RETURN_CHANNEL, REINIT) -/
  | clearOc (n : Chan)
  /-- REINIT of the channel's function: its overcurrent latch and its isolation under R104 end -/
  | reinit (n : Chan)
  /-- the channel's status is reported again -/
  | restate (n : Chan)
  /-- a DAC code for an AO channel (09 R257) -/
  | dac (n : Chan) (code : W16)
  deriving DecidableEq, Repr

/-- A shadow-wheel update of a PHASE frame (R16). -/
structure PhaseItem where
  wheel : WheelIx
  acc : W64
  inc : W64
  hold : W64
  tick : W64
  deriving DecidableEq, Repr

/-- What a frame of a retransmitted type carries on the logic→field lane (Table 1-4, R384). -/
inductive L2F where
  | command (acts : List FieldAct) (target : W64)
  | phase (items : List PhaseItem)
  /-- opening, body and closing frames of a microcode load (R431) -/
  | loadOpen
  | loadBody (index : Nat)
  | loadClose (ucodeIf : W16) (bodyCrc : W32)
  /-- configuration blocks of a generation with its identity (R62 step 9); `fresh` ends every retirement, mapping and overcurrent latch -/
  | configure (g : Generation) (fresh : Bool)
  | identity (seq hdrCrc : W32)
  | refOn
  | fieldReset
  | safe (cause : Byte) (why : BitVec 4) (tick : W32)
  deriving DecidableEq, Repr

/-- TYPE of a logic→field frame (Table 1-4, R384). -/
def L2F.type : L2F → Byte
  | .command _ _ => tyCommand | .phase _ => tyPhase | .safe _ _ _ => tySafe | _ => tyLoad

/-- A frame held by the logic die's sender until it is acknowledged (R21), with the ACK and FLAGS it was last sent with. -/
structure BwTx where
  seq : Byte
  body : L2F
  sent : W64
  ack : Byte
  flags : Byte
  deriving DecidableEq, Repr

/-- What a STATUS frame says of the field die as it stands (Table 1-4): REF_READY, ALMSEL, the DI levels before debounce, the stored heat. -/
structure StatusNow where
  refReady : Bool
  almsel : Bool
  raw : W16
  heat : Vector Nat 16
  deriving DecidableEq, Repr

/-- What a frame of a retransmitted type carries on field→logic lane 1 (Table 1-4). -/
inductive F2L where
  /-- the reports of a STATUS frame and the state it shows -/
  | status (rs : List Report) (now : StatusNow)
  /-- sums of 40 codes by housekeeping input, the tick their millisecond ended at, and whether a conversion missed its slot (R215, R216) -/
  | housekeeping (sums : List (Fin 24 × Nat)) (ended : W64) (missed : Bool)
  | event (rs : List Report)
  deriving DecidableEq, Repr

/-- TYPE of a field→logic frame (Table 1-4). -/
def F2L.type : F2L → Byte
  | .status _ _ => tyStatus | .housekeeping _ _ _ => tyHousekeeping | .event _ => tyEvent

/-- A frame held by the field die's sender until it is acknowledged (R21). -/
structure FdTx where
  seq : Byte
  body : F2L
  sent : W64
  ack : Byte
  flags : Byte
  deriving DecidableEq, Repr

/-- The Breakwater at the logic die: DEV.BWSTAT and DEV.BWCNT, the sender of the logic→field lane and the two receivers. -/
structure Breakwater where
  l2fUp : Bool := false
  f2l0Up : Bool := false
  f2l1Up : Bool := false
  slackSeen : Bool := false
  ebb : Bool := false
  retrain : BitVec 8 := 0
  crcErr : W16 := 0
  lostSample : W16 := 0
  txSeq : Byte := 0
  unacked : List BwTx := []
  waiting : List L2F := []
  /-- the COMMANDs of a rule cycle are being gathered for step 5 of R319 -/
  gathering : Bool := false
  /-- COMMANDs of the last rule cycle, issued at tick `stepFiveAt`, where step 4 ends -/
  stepFive : List L2F := []
  stepFiveAt : Nat := 0
  /-- next SEQ expected in the retransmitted space of lane 1 -/
  rxNext : Byte := 0
  /-- last SEQ accepted in the IDLE and SAMPLE space of each field→logic lane -/
  idle0 : Byte := 255
  idle1 : Byte := 255
  /-- consecutive failed frames on each field→logic lane -/
  fail0 : Nat := 0
  fail1 : Nat := 0
  /-- slot counter of the last SAMPLE frame accepted -/
  lastSlot : Option W16 := none
  /-- ticks of SAMPLE losses within the last 10 ms, with their counts -/
  losses : List (W64 × Nat) := []
  /-- results are invalid for lost SAMPLE frames (Table 1-5) -/
  sampleBad : Bool := false
  /-- consecutive failed retrainings -/
  retrainFails : Nat := 0
  /-- field die known absent -/
  absent : Bool := true
  /-- Breakwater frames received during a handover, waiting for resumption (R425) -/
  buffered : List (List Report) := []
  /-- the transmitter has stopped for a debug halt or REINIT 0x1D (R20, R401) -/
  stopped : Bool := false
  /-- the loss of the lanes follows a last-gasp record (R85) -/
  gasped : Bool := false
  /-- an uncorrectable microcode RAM error has already led to a reload (R75) -/
  ramOnce : Bool := false
  /-- the field die reported an expired sequencer timer or a first microcode RAM error: REINIT 0x1D reloads its microcode (Table 15-5) -/
  reloadFirst : Bool := false
  deriving DecidableEq, Repr

/-- A received command waiting for its target tick. -/
structure FdCmd where
  act : FieldAct
  target : W64
  deriving DecidableEq, Repr

/-- The field die. -/
structure FieldDie where
  /-- powered and out of its own reset -/
  alive : Bool := false
  /-- its own tick count, equal to the logic die's while the Breakwater is up (R16, R268) -/
  tick : W64 := 0
  /-- a configuration has been accepted: its identity (SEQ, HDR_CRC) -/
  ident : Option (W32 × W32) := none
  chars : List Character := []
  /-- the library before the last replacement, used by commands written before a channel's changeover (R287) -/
  oldChars : List Character := []
  ch : Vector FdChan 16 := Vector.replicate 16 {}
  /-- slack hold, its deadline, and whether the window has ended without re-adoption -/
  slack : Bool := false
  slackEnd : W64 := 0
  expired : Bool := false
  /-- the hold began with the device in SAFE or STOP (Table 3-7) -/
  fromSafe : Bool := false
  slackMs : W16 := 500
  reloadHold : Bool := false
  l2fUp : Bool := false
  rxNext : Byte := 0
  idle : Byte := 255
  fail : Nat := 0
  /-- the sender of field→logic lane 1: number of its next frame of a retransmitted type, and the frames not yet acknowledged (R21) -/
  txSeq : Byte := 0
  unacked : List FdTx := []
  /-- a SAFE frame has been accepted: no COMMAND, PHASE or LOAD acts until a field reset or lane loss (R385) -/
  safeHeld : Bool := false
  cmds : List FdCmd := []
  /-- urgent and status reports waiting to be sent, oldest first -/
  events : List Report := []
  status : List Report := []
  overwritten : Nat := 0
  refOn : Bool := false
  refReady : Bool := false
  ucode : Option (W16 × W32) := none
  band : BitVec 2 := 3
  almsel : Bool := false
  gasping : Bool := false
  gaspNumber : Nat := 0
  /-- the retention store: the last-gasp record (R526) -/
  retained : Option GaspRecord := none
  fatal : Bool := false
  /-- the safe-state table or character library failed its check and is not used (R75) -/
  tableBad : Bool := false
  acc : Vector W64 4 := Vector.replicate 4 0
  /-- each shadow wheel's A at the tick before this one (R283) -/
  prev : Vector W64 4 := Vector.replicate 4 0
  inc : Vector W64 4 := Vector.replicate 4 0
  incHold : Vector W64 4 := Vector.replicate 4 0
  wheelOn : Vector Bool 4 := Vector.replicate 4 false
  /-- PHASE updates accepted and not yet loaded -/
  phases : List PhaseItem := []
  deriving DecidableEq, Repr

end Sys2Proof.Machine
end

