-- ==== Sys2Proof/Machine/FilterState.lean ====
section
/-!
DEFINITION. State of conversion, filtering and results, and of the calibration layers (08 R209–R243, 09 R246–R265). Every field's default
is its value at reset.
-/
namespace Sys2Proof.Machine

/-- A result block (Table 8-8). The default is a record before its path's first result (R233). -/
structure ResultBlock where
  value : W32 := 0x80000000
  valid : Bool := false
  settling : Bool := false
  fresh : Bool := false
  ovr : Bool := false
  sat : Bool := false
  calsrc : BitVec 2 := 0
  seq : W16 := 0
  ts : W32 := 0
  fout : W32 := 0
  deriving DecidableEq, Repr

/-- One half-band stage: its last inputs, newest first (at most 11), and the parity of its input count (R219). -/
structure HalfBand where
  x : List Int := []
  odd : Bool := false
  deriving DecidableEq, Repr

/-- A cross-fade in progress (R226): bank faded to, its length F and the number i of the next output. -/
structure Fade where
  target : Bool
  len : Nat
  i : Nat
  deriving DecidableEq, Repr

/-- The parameters in force when an output's f is produced (R250): selector, user layer, CALSRC, junction temperature and its substitution. -/
structure ChainTerms where
  csel : Nat
  layer : Option (Int × Int)
  src : BitVec 2
  tj : Option Int
  stale : Bool
  deriving DecidableEq, Repr

/-- An output f of a path that waits for its result (R247). -/
structure FiltOut where
  f : Int
  terms : ChainTerms
  ts : W64
  settling : Bool
  ovr : Bool
  /-- its raw samples lie in the interval of a transient (Table 8-9) -/
  tainted : Bool
  deriving DecidableEq, Repr

/-- One filter path with its registers FLT.PSTAT, PERR, PCNT and its latest result. -/
structure PathState where
  active : Bool := false
  fade : Option Fade := none
  /-- pending swap: target and fade length (R225) -/
  pend : Option (Bool × Nat) := none
  /-- a generation's coefficient sets wait for the end of the fade: set of its BANK bank, other set (R227) -/
  load : Option (List (BitVec 24) × List (BitVec 24)) := none
  /-- the set to load into the bank that is inactive when the fade in progress ends (R227) -/
  loadAfter : Option (List (BitVec 24)) := none
  /-- outputs still to settle after a synchronising reset, and after a bank reload (R230, Table 8-6) -/
  remain : Nat := 0
  reload : Nat := 0
  /-- each bank holds the generation's set of the other number (R227) -/
  flip : Bool := false
  waitAlign : Bool := false
  /-- first tick a slot may begin at for its sample to be accepted (R228) -/
  since : W64 := 0
  /-- last raw samples, newest first, at most 9 -/
  raw : List Int := []
  hb : Vector HalfBand 5 := Vector.replicate 5 {}
  decSum : Int := 0
  decCount : Nat := 0
  /-- last decimator outputs, newest first, at most 64 -/
  fir : List Int := []
  /-- a limit code or saturation since the path's previous result -/
  ovr : Bool := false
  /-- stage saturations in the computation of the next output -/
  hbSat : Bool := false
  /-- raw samples for which outputs still reach back into a transient -/
  taint : Nat := 0
  lastCode : Int := 0
  rawLim : Bool := false
  hbSatBit : Bool := false
  firSatBit : Bool := false
  ovf : W16 := 0
  resets : BitVec 8 := 0
  swaps : BitVec 8 := 0
  outs : List FiltOut := []
  res : ResultBlock := {}
  /-- latest valid VALUE (R262) -/
  lastValid : Option Int := none
  ringNext : BitVec 10 := 0
  wraps : BitVec 22 := 0
  /-- CAL.APPLp -/
  tj : W32 := 0
  kq : W32 := 0
  o : W32 := 0
  tjStale : Bool := false
  tjNone : Bool := false
  clamped : Bool := false
  applSrc : BitVec 2 := 0
  /-- pre-user value x1 of the last output -/
  x1 : Int := 0
  deriving DecidableEq, Repr

/-- A zero or span point (Table 9-5) with the JSEQ of its record. -/
structure CalPoint where
  r : Int
  m : Int
  rt : Int
  tj : W32
  code : W16
  kind : Byte
  range : Byte
  qty : Byte
  jseq : W32
  deriving DecidableEq, Repr

/-- A housekeeping result with the tick its millisecond ended at (R249). -/
structure HkEntry where
  value : W32
  valid : Bool
  ended : W64
  deriving DecidableEq, Repr

/-- A result gathered by a capture: its value, its x1, and the terms it was computed with (R187, R252). -/
structure TrimSample where
  value : Int
  x1 : Int
  kq : Int
  o : Int
  tj : W32
  deriving DecidableEq, Repr

/-- A capture in progress (R187): results gathered, oldest first, and who asked. -/
structure TrimCapture where
  ch : Chan
  span : Bool
  r : Int
  /-- mailbox slot, none for a button -/
  slot : Option SlotIx
  got : List TrimSample := []
  /-- an output channel's point, judged at the command (R188) -/
  point : Option CalPoint := none
  deriving DecidableEq, Repr

/-- A scan mask and raw rate that the field die has received, and the tick of the round boundary at which they take effect (R211). -/
structure ScanNext where
  mask : W16
  ebb : Bool
  at_ : W64
  deriving DecidableEq, Repr

/-- Conversion and measurement state outside the paths: DEV.SCAN, DEV.REFSTAT, FLT.ERR, RES.RINGSEL, housekeeping results. -/
structure ConvState where
  mask : W16 := 0
  ebbRate : Bool := false
  next : Option ScanNext := none
  /-- a tick at which a round began at the raw rate in force (R210) -/
  base : Option W64 := none
  /-- consecutive slots whose conversion was not complete, and the tick of the last such frame, for each SAR converter (R217) -/
  missI : Nat := 0
  missV : Nat := 0
  missTickI : Option W64 := none
  missTickV : Option W64 := none
  refReady : Bool := false
  refFault : Bool := false
  unmon : Bool := false
  hkFault : Bool := false
  sarI : Bool := false
  sarV : Bool := false
  faults : BitVec 8 := 0
  devn : W16 := 0
  /-- consecutive FREF results within 0.5 % after a fault; test-tap results out of 2 % and within 1 % in a row -/
  refGood : Nat := 0
  tapBad : Nat := 0
  tapGood : Nat := 0
  /-- ticks of path-check failures of element (a) and of element (b), with their channels, in the last second (R217) -/
  failA : List (Chan × W64) := []
  failB : List (Chan × W64) := []
  /-- a passing path check since the converter fault -/
  passA : Bool := false
  passB : Bool := false
  hk : Vector ResultBlock 24 := Vector.replicate 24 {}
  /-- last valid VALUE of each housekeeping input with the tick its millisecond ended at -/
  hkLast : Vector (Option (W32 × W64)) 24 := Vector.replicate 24 none
  /-- results of each housekeeping input, newest first, as far back as R249 may select -/
  hkHist : Vector (List HkEntry) 24 := Vector.replicate 24 []
  path : Vector PathState 32 := Vector.replicate 32 {}
  /-- coefficient banks as cells of 128·path + 64·bank + tap -/
  coeff : List (Nat × BitVec 24) := []
  /-- result rings as cells of 1024·path + entry -/
  ring : List (Nat × ResultBlock) := []
  ringSel : BitVec 5 := 0
  errBusy : Bool := false
  errMode : Bool := false
  errSwap : Bool := false
  errPath : BitVec 5 := 0
  errBank : Bool := false
  /-- points in force by channel, of the channel's journal: any kind, range and quantity -/
  points : List (Chan × Bool × CalPoint) := []
  capture : Option TrimCapture := none
  /-- CAL.DACn -/
  dac : Vector W16 16 := Vector.replicate 16 0
  dacSat : Vector Bool 16 := Vector.replicate 16 false
  deriving DecidableEq, Repr

end Sys2Proof.Machine
end

