-- ==== Sys2Proof/Machine/ImageState.lean ====
section
/-!
DEFINITION. State of the endpoint image, its routing and its fences (11, R292–R317). Every field's default is its value at reset.
-/
namespace Sys2Proof.Machine

/-- What a request sent out on a port is, and what its response is matched to (R365). -/
inductive RequestKind where
  /-- command writes of this device; `src` is EPWLAST.SRC -/
  | origin (src : BitVec 2) (addrs : List (BitVec 20))
  /-- entries `pos` of the request gathered under merge record `merge` -/
  | transit (merge : Nat) (pos : List Nat)
  /-- the request of the pending fence with this identity -/
  | fence (id : Nat)
  /-- an update or sweep request with the words it carries -/
  | update (sweep : Bool) (addrs : List (BitVec 20))
  deriving DecidableEq, Repr

/-- An outstanding request: a transit entry, an outstanding write, a fence request or an unacknowledged update. -/
structure OutRequest where
  port : PortIx
  tag : W16
  kind : RequestKind
  /-- tick at which it was issued -/
  since : W64
  /-- identity, in the order of issue -/
  id : Nat
  deriving DecidableEq, Repr

/-- The gathering of the responses of a request that was forwarded (R365): one reason for each entry, in the original order. -/
structure Merge where
  id : Nat
  port : PortIx
  tag : W16
  reasons : List (Option Byte)
  deriving DecidableEq, Repr

/-- Who placed a fence (R310). -/
inductive FenceSource where
  | frame
  | mailbox
  | rule (index : Nat)
  | upstream (port : PortIx) (tag : W16)
  deriving DecidableEq, Repr

/-- A pending fence (R310–R313). -/
structure PendingFence where
  id : Nat
  tag : W16
  source : FenceSource
  /-- identities of the routed command writes placed before it that are still outstanding -/
  writes : List Nat
  /-- ports whose response is still awaited -/
  ports : List PortIx
  /-- words of the change set that must still be sent, and the update requests that must still be acknowledged (R312) -/
  words : List (BitVec 20)
  updates : List Nat
  partialFlag : Bool
  deriving DecidableEq, Repr

/-- Group map entry state GRP.ESTATj (Table 11-17). -/
structure EntryState where
  state : BitVec 2 := 0
  outside : Bool := false
  losses : BitVec 8 := 0
  /-- tick of the last sweep word from the entry, or of its reset: SWEEP_AGE counts from it -/
  sweepTick : W64 := 0
  /-- tick of the last word from the entry, or of its port's entry to UP (R306) -/
  heard : W64 := 0
  deriving DecidableEq, Repr

/-- The endpoint image and its bookkeeping. -/
structure ImageState where
  /-- the device's own endpoint words by endpoint number; an unlisted one reads UNASSIGNED -/
  words : List (Nat × W32) := []
  /-- copies of other devices' words; an unlisted one reads BAD_NO_COMM, as every copy does from a start to its first arrival (R296) -/
  copies : List (Nat × W32) := []
  /-- the change set, in the order of first change (R305) -/
  changes : List (BitVec 20) := []
  /-- tick of the last sending of a class 2 or 3 word (R305) -/
  lastSent : List (Nat × W64) := []
  /-- offset of the next local word of the sweep (R306) -/
  sweepAt : Nat := 0
  /-- sweep words received from below that wait to be forwarded -/
  sweepForward : List (BitVec 20) := []
  out : List OutRequest := []
  merges : List Merge := []
  nextId : Nat := 0
  fencesLocal : List PendingFence := []
  fencesUp : List PendingFence := []
  doneTag : W16 := 0
  donePartial : Bool := false
  doneCount : BitVec 8 := 0
  fenceRefused : BitVec 8 := 0
  partials : BitVec 8 := 0
  sweepFix : W16 := 0
  foreign : BitVec 8 := 0
  staleEnt : BitVec 8 := 0
  issued : W16 := 0
  refused : BitVec 8 := 0
  lastAddr : BitVec 20 := 0
  lastReason : BitVec 3 := 0
  lastSrc : BitVec 2 := 0
  entry : Vector EntryState 256 := Vector.replicate 256 {}
  deriving DecidableEq, Repr

end Sys2Proof.Machine
end

