-- ==== Sys2Proof/Machine/LoopState.lean ====
section
/-!
DEFINITION. State of current loops, the trim buttons and HART (07 R172–R208), and of the governor (06 R163–R167). Every field's default is
its value at reset.
-/
namespace Sys2Proof.Machine

/-- A field device at a polling address of a channel (R198, R199). -/
structure HartDev where
  /-- the unique address of its last command 0 response -/
  unique : Option (BitVec 40) := none
  live : Bool := false
  /-- start of its last poll -/
  lastPoll : Option W64 := none
  /-- last successful read -/
  lastRead : Option W64 := none
  /-- the last ten achieved poll periods in ticks, newest first -/
  periods : List Nat := []
  /-- PV to QV of the last command 3 response as received, and its device status -/
  vars : Vector (Option W32) 4 := Vector.replicate 4 none
  fds : Byte := 0
  deriving DecidableEq, Repr

/-- What a HART transaction carries. -/
inductive HartReq where
  /-- cyclic command 3, with the tick it fell due at -/
  | poll (n : Chan) (addr : BitVec 4) (due : W64)
  /-- command 0 search -/
  | search (n : Chan) (addr : BitVec 4) (due : W64)
  /-- pass-through request of a mailbox slot -/
  | pass (n : Chan) (addr : BitVec 4) (cmd : Byte) (data : List Byte) (slot : SlotIx)
  deriving DecidableEq, Repr

/-- A modem's transaction: request, retries left, and the characters of its request frame, preambles first (R195). -/
structure HartTxn where
  req : HartReq
  retries : Nat
  frame : List Byte := []
  deriving DecidableEq, Repr

/-- One modem. -/
structure Modem where
  ok : Bool := true
  txn : Option HartTxn := none
  deriving DecidableEq, Repr

/-- Loop and HART status of a channel: LOOP, LOOPLAT, LOOPMEAS, LOOPCMD, HARTSTAT, HARTCNT, HARTPER. -/
structure ChanLoop where
  live : BitVec 11 := 0
  lat : BitVec 11 := 0
  dirEff : Bool := false
  headroom : W16 := 0
  rloop : W16 := 0xFFFF
  deliver : W16 := 0
  cmd : W16 := 0
  /-- LOOPCMD.CMD, the last accepted code since its reset value was last restored (R207) -/
  cmdReg : W16 := 0
  /-- the AO_ALARM selection in force (R176) -/
  alarm : BitVec 2 := 0
  /-- the AO_ALARM endpoint holds a refused form; an alarm increase is refused (R180); the selection the governor refuses (R165, R176) -/
  alarmBad : Bool := false
  alarmInc : Bool := false
  alarmRef : Option (BitVec 2) := none
  /-- the target is on, it is that of the safe-state entry (Table 7-2 order 3), and the tick of its last change (R179, R188) -/
  targetOn : Bool := false
  safeTgt : Bool := false
  targetTick : W64 := 0
  /-- the tick at which COMPLIANCE and LOOP_OVER were last both clear again (R188) -/
  faultEnd : Option W64 := none
  /-- the headroom predicted at the alarm level has been below 2.5 V, or at 2.6 V and above, since this tick (R181) -/
  riskSince : Option W64 := none
  easeSince : Option W64 := none
  lastFds : Byte := 0
  cntTimeout : BitVec 8 := 0
  cntCheck : BitVec 8 := 0
  cntComm : BitVec 8 := 0
  cntBurst : BitVec 8 := 0
  errs : W16 := 0
  period : W16 := 0
  dev : Vector HartDev 16 := Vector.replicate 16 {}
  deriving DecidableEq, Repr

/-- TRIMLED's patterns (R194). -/
inductive LedPhase where
  | off
  /-- pulse `k` of the armed pattern, low or high -/
  | pulse (k : Nat) (low : Bool)
  | gap
  | success
  /-- toggles left of a refusal -/
  | toggle (k : Nat) (low : Bool)
  deriving DecidableEq, Repr

/-- DEV.TRIMSTAT and TRIMLED. -/
structure TrimState where
  armed : Chan := 0
  armValid : Bool := false
  zeroP : Bool := false
  spanP : Bool := false
  /-- both buttons have been held for 2 s in this press -/
  both : Bool := false
  lastAct : BitVec 3 := 0
  actCount : BitVec 8 := 0
  led : LedPhase := .off
  /-- ALMSEL as the STATUS frames report it (Table 7-16) -/
  almsel : Bool := false
  deriving DecidableEq, Repr

/-- The HART scheduler: modems and the requests that are ready, pass-through first (R197). -/
structure HartState where
  modem : Vector Modem 4 := Vector.replicate 4 {}
  passes : List HartReq := []
  polls : List HartReq := []
  deriving DecidableEq, Repr

/-- The dissipation governor (R163–R167): DEV.GOVSTAT and its timers. -/
structure GovState where
  pEst : W16 := 0
  overSum : Bool := false
  pkgHot : Bool := false
  peak : W16 := 0
  /-- a demand of this rule cycle has been refused (R165) -/
  cycleRefused : Bool := false
  deriving DecidableEq, Repr

end Sys2Proof.Machine
end

