-- ==== Sys2Proof/Machine/SysState.lean ====
section
/-!
DEFINITION. State of modes, start-up, clocks, boot and generations, the Triad, debugging, watchdogs, staging and live replacement
(01 R31, 02 R58, 03 R87, 14 R403, 15 R435). Every field's default is its value at reset.
-/
namespace Sys2Proof.Machine

/-- DEV.MODE.MODE (R1). -/
inductive Mode where
  | load
  | trim
  | run
  | reduced
  | safe
  | stop
  deriving DecidableEq, Repr

/-- Mode codes of R1. -/
def Mode.code : Mode → BitVec 3
  | .load => 0 | .trim => 1 | .run => 2 | .reduced => 3 | .safe => 4 | .stop => 5

/-- Where the logic die stands between reset and a running executive. [log 11: DEDUCED, safe] -/
inductive RunState where
  /-- RESET_N asserted, PGOOD low or a logic supply absent (R507) -/
  | held
  /-- the clock reset of R31 -/
  | clockReset
  /-- the boot sequencer runs; no executive -/
  | booting
  /-- the executive runs -/
  | running
  /-- no executive could be started: IDENT and STATUS only (Table 3-3, R394) -/
  | noExec
  deriving DecidableEq, Repr

/-- DEV.START.WAIT (Table 3-10c). -/
inductive StartWait where
  | none
  | clocks
  | fieldDie
  | reference
  | endedInLoad
  deriving DecidableEq, Repr

/-- DEV.START.READOPT (Table 3-10c). -/
inductive Readopt where
  | notInHold
  | readopted
  | refused
  | windowEnded
  deriving DecidableEq, Repr

/-- A SAFE cause recorded since the SAFE entry, with the watchdog concerned for 0x0E (R73, R414). -/
structure SafeCause where
  code : Byte
  /-- for 0x0E: the watchdog, or none for step 4 under R411 -/
  wd : Option (Fin 8)
  /-- tick at which it was recorded -/
  since : W64
  deriving DecidableEq, Repr

/-- The mode left by a SAFE entry, and the counts and causes that stood before it (R68). -/
structure BeforeSafe where
  mode : Mode
  safeTicks : List W64
  safeTotal : W16
  causes : List SafeCause
  deriving DecidableEq, Repr

/-- Modes, start and supply (Tables 3-10a to 3-10d). -/
structure ModeState where
  mode : Mode := .load
  prev : Mode := .load
  cause : Byte := 0
  laneRet : Bool := false
  chanRet : Bool := false
  /-- ticks of the automatic SAFE entries, newest first, at most 255 (R74) -/
  safeTicks : List W64 := []
  safeTotal : W16 := 0
  causes : List SafeCause := []
  run : RunState := .held
  step : BitVec 4 := 0
  wait : StartWait := .none
  readopt : Readopt := .notInHold
  chkpt : Bool := false
  elapsedMs : W16 := 0
  /-- tick-count value of t0 -/
  t0 : W64 := 0
  /-- attempts of REF_ON in this start (R65) -/
  refOnTries : Nat := 0
  band : BitVec 2 := 3
  lastGasp : Bool := false
  /-- VLOOP below the falling threshold of R183 (Table 11-5) -/
  vloopLow : Bool := false
  ebbCount : BitVec 8 := 0
  gaspCount : BitVec 8 := 0
  /-- number of the last last-gasp acted on (R526) -/
  gaspSeen : Option Nat := none
  /-- the mailbox slot whose LEAVE_SAFE or LEAVE_TRIM waits for its one complete rule cycle (R72, R77) -/
  leaving : Option SlotIx := none
  /-- REDUCED was entered at a retirement in the present rule cycle: its event 71 waits for the cycle's end, with its DETAIL and tick (R68) -/
  reducedNow : Option (W32 × W64) := none
  /-- what a SAFE entry of the present rule cycle replaced, should a trigger to STOP in that cycle discard it (R68) -/
  beforeSafe : Option BeforeSafe := none
  /-- a configuration afresh outside a start waits for its common tick (R525) -/
  afresh : Bool := false
  deriving DecidableEq, Repr

/-- Straps sampled at t0 (R63, R396, R450). [log 10: DEDUCED, unsafe] -/
structure Straps where
  lanemode : Bool := false
  hcompat : Bool := false
  boot : BitVec 2 := 0
  deriving DecidableEq, Repr

/-- DEV.CLKCFG, the clock monitor and the pins it drives (R31, R32). -/
structure ClockState where
  clkoutSel : BitVec 2 := 0
  xinOk : Bool := false
  cpllLock : Bool := false
  lpllLock : Bool := false
  onMonitor : Bool := false
  /-- XIN failure declared, relock pending -/
  failing : Bool := false
  /-- tick since which XIN has been valid and both PLLs locked to it -/
  goodSince : Option W64 := none
  deriving DecidableEq, Repr

/-- The boot descriptor in use (Table 2-3). -/
structure BootDesc where
  copy1 : Bool
  fallbackExec : Bool
  fallbackUcode : Bool
  mirrorB : Bool
  seq : W32
  execSlot : Bool
  ucodeSlot : Bool
  loadLanes : Byte
  loadDiv : Byte
  readCmd : Byte
  dummy : Byte
  deriving DecidableEq, Repr

/-- The ranges of a slot header (Table 2-4). -/
structure SlotHeader where
  version : W16
  length : Nat
  ucodeMin : W16
  ucodeMax : W16
  schemaMin : W16
  schemaMax : W16
  bodyCrc : W32
  deriving DecidableEq, Repr

/-- A generation waiting for its fence (R52). -/
structure PendingGen where
  gen : Generation
  tag : W16
  /-- an application of it waits for the end of the rule cycle, a handover or a reload (R52, R54, R434) -/
  due : Bool
  /-- the copy that holds it is B -/
  copyB : Bool
  deriving DecidableEq, Repr

/-- Steps of a flash write that follow the erasure of the header's sector (R49 steps 5 to 8). -/
inductive JobStep where
  | rest
  | body
  | headLow
  | headHigh
  | readBack
  deriving DecidableEq, Repr

/-- What a flash write in progress writes, from its acceptance to the end of its read-back (R49, R421). -/
inductive FlashJob where
  /-- a configuration copy with its new SEQ; `mirror` while steps 4 to 8 are repeated on the mirror -/
  | config (slot : SlotIx) (apply : Bool) (tag : W16) (seq : W32) (copyB mirror : Bool) (step : JobStep)
  /-- slot `target` of the executive or the microcode -/
  | image (slot : SlotIx) (tag : W16) (ucode target : Bool) (step : JobStep)
  deriving DecidableEq, Repr

/-- Boot and generation state (Tables 2-15a to 2-15d). -/
structure BootState where
  /-- the descriptor in use: the one chosen at the start, or the newest one written since -/
  desc : Option BootDesc := none
  /-- DEV.BOOTSTAT.DESC, and the copy that holds the active generation, coded as DEV.BOOTSTAT.CFG -/
  descCopy : BitVec 2 := 0
  act : BitVec 2 := 0
  execSlot : Bool := false
  execFb : Bool := false
  ucodeSlot : Bool := false
  ucodeFb : Bool := false
  cfg : BitVec 2 := 0
  cfgA : BitVec 3 := 0
  cfgB : BitVec 3 := 0
  cfgM : BitVec 3 := 0
  ucodeMm : Bool := false
  schemaMm : Bool := false
  execNone : Bool := false
  /-- header of the running executive -/
  exec : Option SlotHeader := none
  /-- header of the microcode loaded and accepted -/
  ucode : Option SlotHeader := none
  /-- the active generation -/
  gen : Option Generation := none
  /-- the library before the last replacement, which commands to a channel use until its changeover (R287) -/
  oldChars : List Character := []
  /-- the generation's EVENT section and the rest of it are in force (R479) -/
  applied : Bool := false
  pend : Option PendingGen := none
  job : Option FlashJob := none
  lastFail : Bool := false
  /-- the newest copy written has a valid header and has not been in force yet (Table 2-11); it outlasts every reset, as the flash does -/
  unapplied : Bool := false
  /-- the calibration journal: the next JSEQ and the flash offset at which the next record is programmed (R56) -/
  jseq : W32 := 0
  jplace : Nat := 0x500000
  deriving DecidableEq, Repr

/-- Sources of a lane disagreement: LASTDIS.SOURCE (Table 14-14). -/
inductive DisSource where
  | output
  | survey
  | selfReport
  | inputAgreement
  | verification
  deriving DecidableEq, Repr

def DisSource.code : DisSource → BitVec 3
  | .output => 0 | .survey => 1 | .selfReport => 2 | .inputAgreement => 3 | .verification => 4

/-- An entry of the replay buffer (R400): a state word, or an SRAM byte offset, and its value. -/
structure ReplayEntry where
  sram : Bool
  addr : Nat
  value : W32
  deriving DecidableEq, Repr

/-- The TAP instruction in force (Table 14-10). -/
inductive TapIr where
  | extest
  | idcode
  | samplePreload
  | dbgCtrl
  | dbgAccess
  | bypass
  deriving DecidableEq, Repr

/-- What an instruction register value selects (Table 14-10). -/
def TapIr.ofCode (c : BitVec 5) : TapIr :=
  match c.toNat with
  | 0x00 => .extest | 0x01 => .idcode | 0x02 => .samplePreload | 0x10 => .dbgCtrl | 0x11 => .dbgAccess | _ => .bypass

/-- The Triad, the voting plane and debugging (Tables 14-13 to 14-16). -/
structure TriadState where
  vote : Vector Bool 3 := Vector.replicate 3 false
  ret : Vector Bool 3 := Vector.replicate 3 false
  paired : Bool := false
  /-- the lane being rebuilt -/
  held : Option LaneIx := none
  startOk : Bool := false
  safeWhy : BitVec 4 := 0
  dis : Vector (BitVec 8) 3 := Vector.replicate 3 0
  resyncs : BitVec 8 := 0
  lastLane : LaneIx := 0
  lastSource : BitVec 3 := 0
  lastPlane : BitVec 3 := 0
  lastTick : W32 := 0
  /-- ticks of each lane's disagreements, newest first (R391) -/
  disTicks : Vector (List W64) 3 := Vector.replicate 3 []
  /-- consecutive failed transfer verifications of the lane being rebuilt (R388) -/
  verFails : Nat := 0
  tests : W16 := 0
  fault : Bool := false
  pattern : BitVec 3 := 0
  /-- X of the next self-test is 0xAAAA_AAAA (R383) -/
  patternAlt : Bool := false
  surveys : W16 := 0
  mismatch : BitVec 8 := 0
  survCrc : W32 := 0
  /-- a survey waits for the end of a resynchronisation or halt (R390) -/
  surveyDue : Bool := false
  /-- a self-test waits for the end of a resynchronisation or handover -/
  testDue : Bool := false
  /-- a debugger detached by entering RUN or REDUCED has its halt released (R399) -/
  releasing : Bool := false
  iau : Vector (BitVec 8) 3 := Vector.replicate 3 0
  /-- a SAFE entry under R385 has begun: no field command passes until reset -/
  blocked : Bool := false
  /-- architectural state words of the reference lane, written through the debugger; unlisted words hold what the executive put there -/
  image : List (Nat × W32) := []
  /-- SRAM words outside the regions of Table 1-8 that other state holds -/
  sram : List (Nat × W32) := []
  attached : Bool := false
  halted : Bool := false
  haltReq : Bool := false
  haltTick : W64 := 0
  replay : List ReplayEntry := []
  replayFull : Bool := false
  attaches : BitVec 8 := 0
  refused : Bool := false
  /-- the last attach was refused (Table 14-11) -/
  lastRefused : Bool := false
  haltUs : W32 := 0
  /-- which of the executive's own contents a halt shows: advances at each halt and step -/
  shown : Nat := 0
  ir : TapIr := .idcode
  /-- boundary register cells, one bit for each -/
  boundary : BitVec 69 := 0
  /-- the data register the instruction selects, as last captured -/
  dr : BitVec 69 := 0
  /-- DBG_ACCESS capture: DATA, ADDR, ST -/
  dbgData : W32 := 0
  dbgAddr : W32 := 0
  dbgSt : BitVec 2 := 0
  deriving DecidableEq, Repr

/-- Staging states (Table 15-7). -/
inductive StageState where
  | empty
  | opened
  | committing
  | armed
  | switching
  | probation
  | invalid
  deriving DecidableEq, Repr

def StageState.code : StageState → BitVec 3
  | .empty => 0 | .opened => 1 | .committing => 2 | .armed => 3 | .switching => 4 | .probation => 5 | .invalid => 6

/-- An executive handover in progress (R424). -/
structure Handover where
  start : W64
  exchanged : Bool
  /-- the start check after the exchange has passed -/
  checked : Bool
  deriving DecidableEq, Repr

/-- A microcode reload hold (R430). -/
structure Reload where
  start : W64
  /-- part of REINIT 0x1D, not of a commit -/
  reinit : Bool
  /-- header of the microcode sent -/
  hdr : Option SlotHeader
  resent : Bool
  fellBack : Bool
  /-- the fallback failed too: the hold goes on to the end of the window (R432) -/
  failed : Bool
  deriving DecidableEq, Repr

/-- A REINIT in progress (R416): its function and the mailbox slot that waits for it, none for a watchdog's. -/
structure ReinitJob where
  func : BitVec 5
  slot : Option SlotIx
  deriving DecidableEq, Repr

/-- A host frame that completed while the executive could not take it, carried out in completion order when it can (R425, R448). -/
inductive HeldFrame where
  /-- command byte (0 for a write that a command of the table stands for), address of the frame, and its words with their host addresses -/
  | write (cmd : Byte) (addr : BitVec 24) (words : List (Nat × W32))
  | fence (tag : W16)
  deriving DecidableEq, Repr

/-- Watchdogs, recovery, staging and replacement (Tables 15-12 to 15-15). -/
structure RecovState where
  expired : BitVec 8 := 0
  wdLast : BitVec 3 := 0
  wdStep : BitVec 3 := 0
  wdCnt : Vector (BitVec 8) 4 := Vector.replicate 4 0
  /-- tick of the last step taken for each watchdog (R410) -/
  wdTick : Vector (Option W64) 8 := Vector.replicate 8 none
  rstCause : BitVec 3 := 0
  rstWd : BitVec 3 := 0
  /-- ticks of the watchdog resets of the last 600 s, newest first (R411) -/
  wdResets : List W64 := []
  step4 : Bool := false
  /-- the next start takes step 4 -/
  step4Next : Bool := false
  resets : W16 := 0
  func : BitVec 5 := 0
  reinits : BitVec 8 := 0
  jobs : List ReinitJob := []
  /-- REINIT 0x1A completed, or a generation was applied, since the SAFE entry (Table 15-4) -/
  ruleRestored : Bool := false
  /-- a microcode reload due has found a Breakwater lane down (R422) -/
  laneWait : Bool := false
  pcyc : Bool := false
  pcycWait : Bool := false
  pcycTick : W64 := 0
  stage : StageState := .empty
  stageKind : BitVec 2 := 0
  stageEcc : Bool := false
  stageTag : W16 := 0
  stageLen : BitVec 21 := 0
  /-- the zero fill of an accepted STAGE_OPEN has not ended -/
  filling : Option SlotIx := none
  staging : List (Nat × Byte) := []
  /-- the slot-image half of the executive region: the running slot's header and body, cells over 0 (R423) -/
  slotImage : List (Nat × Byte) := []
  /-- the armed item's fence has completed: handover or reload at the end of the cycle (R422) -/
  switchDue : Bool := false
  handover : Option Handover := none
  hoLastUs : W16 := 0
  hoCount : BitVec 8 := 0
  hoReversed : Bool := false
  hoWhy : BitVec 3 := 0
  hoDescFail : Bool := false
  /-- tick at which the probation of a resumed executive began (R429) -/
  probation : W64 := 0
  reload : Option Reload := none
  ucLastUs : W16 := 0
  ucCount : BitVec 8 := 0
  ucResent : Bool := false
  ucFellBack : Bool := false
  /-- tick at which all three Breakwater lanes came up without an expiry of watchdog 2 since (Table 15-4) -/
  lanesUpSince : Option W64 := none
  /-- steps of watchdogs that fell due during a handover or reload hold, with their function and step (R415) -/
  wdDue : List (Fin 8 × BitVec 5 × BitVec 3) := []
  /-- SRAM offsets of endpoint words and banks lost while the executive did not run (R29) -/
  eccDue : List Nat := []
  deriving DecidableEq, Repr

end Sys2Proof.Machine
end

