-- ==== Sys2Proof/Machine/PortState.lean ====
section
/-!
DEFINITION. State of the host port (16 R437–R455), the memory port (17 R456–R471, R477), the check-value unit (17 R472–R474) and the pins
that hold a level of their own. Every field's default is its value at reset.
-/
namespace Sys2Proof.Machine

/-- What the device sends in answer to a read, STATUS or IDENT frame. -/
inductive HostReply where
  | none
  /-- busy bytes so far; the data follows after a sync byte -/
  | busy
  /-- sync and the data bytes -/
  | data (bytes : List Byte)
  /-- 0xFF through the data phase, never sync -/
  | fill
  /-- the abort byte -/
  | abort
  /-- a fixed answer without sync: STATUS, IDENT -/
  | fixed (bytes : List Byte)
  /-- a legacy READ: status byte, then its data -/
  | legacy (status : Byte) (bytes : List Byte)
  deriving DecidableEq, Repr

/-- A read whose data is being captured (R440). -/
structure PendingRead where
  cmd : Byte
  addr : BitVec 24
  bytes : List Byte
  laneError : Bool
  deriving DecidableEq, Repr

/-- DEV.HOSTSTAT, HOSTCFG, HOSTERR, HOSTRD and HOSTLAST, the read in progress and the last reply. -/
structure HostPort where
  discards : BitVec 8 := 0
  done : BitVec 8 := 0
  lastErr : BitVec 4 := 0
  page : Byte := 0x40
  cLength : BitVec 8 := 0
  cEarly : BitVec 8 := 0
  cPartial : BitVec 8 := 0
  cExtra : BitVec 8 := 0
  cLane : BitVec 8 := 0
  cAlign : BitVec 8 := 0
  cUnknown : BitVec 8 := 0
  cDropped : BitVec 8 := 0
  aborts : W16 := 0
  late : W16 := 0
  lastAddr : BitVec 24 := 0
  lastCmd : Byte := 0
  latePrev : Bool := false
  reading : Option PendingRead := none
  reply : HostReply := .none
  deriving DecidableEq, Repr

/-- A memory-port queue entry (Table 17-1). -/
structure MemEntry where
  w0 : W32
  w1 : W32
  w2 : W32
  w3 : W32
  deriving DecidableEq, Repr

/-- DEV.MEMCFG, MEMWIN, MEMSTAT, MEMCNT, the queue and the 8 KiB buffer. [log 124: DEDUCED, unsafe] -/
structure MemPort where
  decoded : Bool := true
  bootDec : Bool := false
  xipCmd : Byte := 0x03
  xipLn : BitVec 2 := 0
  xipDiv : BitVec 3 := 4
  xipDummy : BitVec 5 := 0
  code : BitVec 3 := 0
  queue : List MemEntry := []
  /-- the entry whose frame is in progress -/
  cur : Option MemEntry := none
  polling : Bool := false
  /-- the poll has the limit of an erase (POLL 2) -/
  pollErase : Bool := false
  /-- the read entry in hand has been repeated after an error in the buffer (Table 17-6) -/
  repeated : Bool := false
  /-- a read entry that waits to be repeated, ahead of the queue (Table 17-6) -/
  again : Option MemEntry := none
  /-- select and code held by CONT -/
  heldSel : Option (Bool × BitVec 3) := none
  /-- a poll of an entry of the chain takes effect when its select is released: 0 none -/
  chainPoll : BitVec 2 := 0
  lastErr : BitVec 3 := 0
  errors : BitVec 8 := 0
  contBreak : BitVec 8 := 0
  xip : W16 := 0
  entries : W16 := 0
  /-- the write-enable latch of each select's flash -/
  wel : Vector Bool 2 := Vector.replicate 2 false
  /-- bytes of the buffer, cells over 0 -/
  buf : List (Nat × Byte) := []
  /-- the last frame at the balls: select, code, command, address and data -/
  frame : Option (Bool × BitVec 3 × W16 × W32 × List Byte) := none
  deriving DecidableEq, Repr

/-- The check-value unit (Table 17-7), and the CHECK command in progress. -/
structure CheckUnit where
  width : BitVec 7 := 32
  refin : Bool := true
  refout : Bool := true
  poly : W64 := 0x1EDC6F41
  init : W64 := 0xFFFFFFFF
  xorout : W64 := 0xFFFFFFFF
  fold : W64 := 0
  reg : W64 := 0
  /-- mailbox slot of the CHECK in progress, with whether it reads flash, START and LEN -/
  job : Option (SlotIx × Bool × Nat × Nat) := none
  deriving DecidableEq, Repr

/-- Pins with a level of their own: HBEAT, TIDE_OUT, TRIMLED driven low, and CLKOUT's source (19 R503). -/
structure Pins where
  hbeat : Bool := false
  tideOut : Bool := false
  /-- tick of TIDE_OUT's last rise (R286) -/
  tideRise : W64 := 0
  ledLow : Bool := false
  deriving DecidableEq, Repr

end Sys2Proof.Machine
end

