-- ==== Sys2Proof/Machine/RuleState.lean ====
section
/-!
DEFINITION. State of the rule engine and its aspect groups (12 R318–R343). Every field's default is its value at reset.
-/
namespace Sys2Proof.Machine

/-- A rule's state (R327) with the output of its last execution. -/
structure RuleMem where
  q : Bool := false
  run : Bool := false
  acc : Nat := 0
  /-- p of R326: none until the first execution -/
  prev : Option Bool := none
  /-- word last issued in mode 3 with its identity, and the tick of the last issue -/
  issued : Option W16 := none
  issueTick : W64 := 0
  /-- reason of the last mode-3 issue's refusal: 0 while it is pending or has succeeded -/
  ended : BitVec 3 := 0
  /-- the word last issued has failed, and its rule fault has been raised (R340) -/
  failed : Bool := false
  /-- issues in a row refused with BUSY -/
  busyRun : Nat := 0
  deferred : Bool := false
  /-- mode-2 writes of the rule that their chapter refused (R340): the endpoint, the VALUE asked and the word that shows the refusal -/
  refused : List (BitVec 20 × W16 × W32) := []
  value : W16 := 0
  qual : BitVec 4 := 0
  deriving DecidableEq, Repr

/-- State of an aspect group (R335–R337): RUL.ASTATg, and for each channel its bar with the LAMP quality at which it was set, and the tick
its grace ends at. -/
structure GroupMem where
  displayed : BitVec 6 := 0
  commanded : BitVec 6 := 0
  subst : Bool := false
  pending : Bool := false
  noprov : Bool := false
  invcmd : Bool := false
  bar : Vector (Option (BitVec 4)) 16 := Vector.replicate 16 none
  /-- displayed aspect includes the channel: tick its grace ends at -/
  lit : Vector (Option W64) 16 := Vector.replicate 16 none
  deriving DecidableEq, Repr

/-- What a checkpoint holds (R79): the generation's SEQ, rule state, each channel's retry state, and the mode. -/
structure Checkpoint where
  seq : W32
  mem : List RuleMem
  grp : List GroupMem
  prot : Vector ChanProt 16
  mode : Mode
  deriving DecidableEq, Repr

/-- The rule engine: state of each rule by index, of each group, and the RUL registers. -/
structure RuleState where
  mem : List RuleMem := []
  grp : List GroupMem := []
  wcet : W16 := 0
  lastUs : W16 := 0
  maxUs : W16 := 0
  cycles : W16 := 0
  overrun : BitVec 8 := 0
  faults : BitVec 8 := 0
  faultIx : BitVec 14 := 0
  faultCause : BitVec 3 := 0
  merged : BitVec 8 := 0
  psel : BitVec 14 := 0
  /-- boundary of the last cycle, none before the first of R320 -/
  lastBoundary : Option W64 := none
  /-- tick at which the last cycle completes (R318) -/
  doneAt : Nat := 0
  /-- overrunning cycles in a row; the last cycle has been counted -/
  overRun : Nat := 0
  overSeen : Bool := false
  /-- the checkpoint written at the end of the last cycle; it survives resets that keep the SRAM -/
  checkpoint : Option Checkpoint := none
  deriving DecidableEq, Repr

end Sys2Proof.Machine
end

