-- ==== Sys2Proof/Machine/WheelState.lean ====
section
/-!
DEFINITION. State of the tide wheels and the time of the device (10 R266–R291). Every field's default is its value at reset.
-/
namespace Sys2Proof.Machine

/-- Wheel states (Table 10-3). -/
inductive WState where
  | stopped
  | free
  | acquire
  | slewing
  | locked
  | holdover
  deriving DecidableEq, Repr

/-- TWn.STAT.STATE codes. -/
def WState.code : WState → BitVec 3
  | .stopped => 0 | .free => 1 | .acquire => 2 | .slewing => 3 | .locked => 4 | .holdover => 5

/-- A captured reference event that was accepted: capture tick, the wheel's phase there, expected phase, capture tick of the accepted event
before it in the chain, and whether the reference is qualified by it or was before. -/
structure RefEvent where
  tick : W64
  phase : W32
  phi : W32
  prev : Option W64
  qualifies : Bool
  deriving DecidableEq, Repr

/-- A new increment, or a step, that waits for its apply tick (R274, R279). -/
structure PendingInc where
  tick : W64
  f : Int
  s : Int
  /-- the error a step removes -/
  step : Option Int
  deriving DecidableEq, Repr

/-- One tide wheel with its TWn registers. -/
structure Wheel where
  state : WState := .stopped
  acc : W64 := 0
  /-- A at the tick before this one, which the tick's interval of phases starts after (R283) -/
  prev : W64 := 0
  inc : W64 := 0
  f : Int := 0
  s : Int := 0
  next : Option PendingInc := none
  qualified : Bool := false
  /-- capture tick of the last accepted event of the chain, the interval before it, and the chain's length up to 3 -/
  last : Option W64 := none
  lastInterval : Option Nat := none
  /-- tick since which a wheel in ACQUIRE has waited for its first event (R271) -/
  waitFrom : W64 := 0
  chain : Nat := 0
  events : List RefEvent := []
  /-- consecutive accepted events with |e_ns| ≤ LOCK_NS -/
  goodRun : Nat := 0
  /-- accepted events since the last step, up to 3 -/
  sinceStep : Nat := 3
  steps : BitVec 8 := 0
  losses : BitVec 8 := 0
  eNs : W32 := 0
  refTick : W32 := 0
  accepted : W16 := 0
  rejected : BitVec 8 := 0
  unc : W16 := 0
  hops : BitVec 8 := 0
  upUncert : Bool := false
  uncert : Bool := false
  holdStart : Option W64 := none
  holdSec : W32 := 0
  /-- counted rising edges of MAINS_IN since the last event, and the tick of the last counted edge -/
  mains : Nat := 0
  mainsTick : Option W64 := none
  deriving DecidableEq, Repr

/-- A second number that came with a TIME record (R272 item 2). -/
structure UpSecond where
  sec : W32
  /-- t_a − d − q_up -/
  origin : Int
  arrived : W64
  deriving DecidableEq, Repr

/-- DEV.PPSSEC, PPSSET and TIMESTAT. -/
structure TimeState where
  sec : W32 := 0
  set : Option W32 := none
  secValid : Bool := false
  secSrc : Bool := false
  conflict : BitVec 8 := 0
  /-- tick of the last accepted PPS edge of the chain, and of the last accepted one at all -/
  ppsChain : Option W64 := none
  ppsLast : Option W64 := none
  up : Option UpSecond := none
  deriving DecidableEq, Repr

end Sys2Proof.Machine
end

