-- ==== Sys2Proof/Machine/State.lean ====
section
/-!
DEFINITION. The state of the KT1640: what the spec gives the two dies, their ports and pins, and the queue of waiting commands. The parts
stand in the files this one imports; every field's default is its value at reset.
-/
namespace Sys2Proof.Machine

/-- The whole state. -/
structure State where
  /-- commands waiting, first in, first out -/
  pending : List Instr := []
  /-- the model's own: number of free values drawn so far -/
  free : Nat := 0
  /-- the 64-bit 10 MHz tick count (R268) -/
  tick : W64 := 0
  straps : Straps := {}
  clk : ClockState := {}
  m : ModeState := {}
  boot : BootState := {}
  triad : TriadState := {}
  recov : RecovState := {}
  bw : Breakwater := {}
  fd : FieldDie := {}
  ch : Vector Channel 16 := Vector.replicate 16 {}
  ev : EventRouter := {}
  mbx : Mailbox := {}
  img : ImageState := {}
  /-- host frames held, in completion order (R425, R448) -/
  held : List HeldFrame := []
  port : Vector Port 4 := Vector.replicate 4 {}
  /-- flash on MCS0_N and its mirror of copy B on MCS1_N, as cells over the erased state (R35, R36) -/
  flash : List Host.Cell := []
  mirror : List Host.Cell := []
  /-- factory OTP, as cells over the unprogrammed value 0x00 (R246) -/
  otp : List Host.Cell := []
  conv : ConvState := {}
  loop : Vector ChanLoop 16 := Vector.replicate 16 {}
  trim : TrimState := {}
  hart : HartState := {}
  gov : GovState := {}
  wheel : Vector Wheel 4 := Vector.replicate 4 {}
  time : TimeState := {}
  rul : RuleState := {}
  host : HostPort := {}
  mem : MemPort := {}
  chk : CheckUnit := {}
  pins : Pins := {}
  /-- enrolments in progress, by channel (R133) -/
  enrol : Vector (Option Enrolment) 16 := Vector.replicate 16 none
  deriving DecidableEq, Repr

/-- Faults. No meaning raises one: every command of this block has an effect, were it none. -/
inductive Fault where
  /-- raised by nothing; safe -/
  | unreachable
  deriving DecidableEq, Repr

/-- Refusals. -/
inductive Refusal where
  /-- raised by an arm whose command has no meaning yet; safe -/
  | notModelled (mnemonic : String)
  deriving DecidableEq, Repr

/-- The machine right after reset: every field at its default. [log 9: DESIGN CHOICE, unsafe; log 11: DEDUCED, safe] -/
def State.reset : State := {}

end Sys2Proof.Machine
end

