-- ==== Sys2Proof/Machine/Operands.lean ====
section
/-!
DEFINITION. The operand forms: fields of a channel's configuration record (04 Tables 4-12 to 4-16, 05 Tables 5-3 to 5-7, 06 Tables 6-6 to
6-8) with their "0 selects" values resolved, fields of a generation, and the forms of received frames.
-/
namespace Sys2Proof.Machine

/-- Configuration register at byte offset `o` of block CHn. -/
def recWord (r : ChanRecord) (i : Fin 64) : W32 := r.word[i]

/-- A field whose value 0 selects `d`. -/
def orDefault (v d : Nat) : Nat := if v = 0 then d else v

/-! CHn.CFG (Table 4-12) -/
def cfgKind (r : ChanRecord) : BitVec 3 := field (recWord r 0) 0 3
def cfgRange (r : ChanRecord) : BitVec 2 := field (recWord r 0) 4 2
def cfgStby (r : ChanRecord) : Chan := ⟨(field (recWord r 0) 8 4).toNat, (field (recWord r 0) 8 4).isLt⟩
def cfgStbyEn (r : ChanRecord) : Bool := bitAt (recWord r 0) 12
def cfgAutoSpare (r : ChanRecord) : Bool := bitAt (recWord r 0) 13
def cfgFsnEn (r : ChanRecord) : Bool := bitAt (recWord r 0) 14
def cfgImbEn (r : ChanRecord) : Bool := bitAt (recWord r 0) 15

/-! CHn.DICFG, DIBAND, AICFG (Tables 4-13 to 4-15) -/
def diIsink7 (r : ChanRecord) : Bool := bitAt (recWord r 1) 16
def diInvert (r : ChanRecord) : Bool := bitAt (recWord r 1) 17
def diWbEn (r : ChanRecord) : Bool := bitAt (recWord r 1) 18
def diCountEdge (r : ChanRecord) : BitVec 2 := field (recWord r 1) 30 2
def snkVmax (r : ChanRecord) : Nat := orDefault (field (recWord r 4) 0 6).toNat 40
def aiNe43 (r : ChanRecord) : Bool := bitAt (recWord r 3) 0
def aiOpenEn (r : ChanRecord) : Bool := bitAt (recWord r 3) 1
def aiShortOff (r : ChanRecord) : Bool := bitAt (recWord r 3) 2

/-! CHn.PROTCFG, RETRYCFG, GOVCFG (Tables 6-6 to 6-8) -/
/-- TRIP in mA. -/
def protTripMa (r : ChanRecord) : Nat := (field (recWord r 8) 0 6).toNat * 50
def protFloodMs (r : ChanRecord) : Nat := orDefault (field (recWord r 8) 8 7).toNat 20
def protDtLim (r : ChanRecord) : Nat := orDefault (field (recWord r 8) 16 7).toNat 60
def protClampMj (r : ChanRecord) : Nat := orDefault (field (recWord r 8) 24 8).toNat 40
def retryMax (r : ChanRecord) : BitVec 4 := field (recWord r 9) 0 4
def retryQuietS (r : ChanRecord) : Nat := orDefault (field (recWord r 9) 4 8).toNat 10
def retryShedOk (r : ChanRecord) : Bool := bitAt (recWord r 9) 12
/-- NOM_I in mA; 0 selects TRIP. -/
def govNomMa (r : ChanRecord) : Nat :=
  let v := (field (recWord r 10) 0 8).toNat
  if v = 0 then protTripMa r else v * 10

/-! CHn.PCFG, WINCFG, SNDCFG, OFFCFG (Tables 5-3 to 5-6) -/
def pProveEn (r : ChanRecord) : Bool := bitAt (recWord r 16) 0
def pSndEn (r : ChanRecord) : Bool := bitAt (recWord r 16) 1
def pOffEn (r : ChanRecord) : Bool := bitAt (recWord r 16) 2
def pPhEn (r : ChanRecord) : Bool := bitAt (recWord r 16) 3
def pSuppEn (r : ChanRecord) : Bool := bitAt (recWord r 16) 4
def pPulse6V (r : ChanRecord) : Bool := bitAt (recWord r 16) 5
def pNstr (r : ChanRecord) : BitVec 4 := field (recWord r 16) 8 4
def pPartMin (r : ChanRecord) : BitVec 4 := field (recWord r 16) 12 4
def pHoldS (r : ChanRecord) : Nat := orDefault (field (recWord r 16) 16 8).toNat 10
def pDither (r : ChanRecord) : Nat := orDefault (field (recWord r 18) 0 4).toNat 4
def pPeriod (r : ChanRecord) : Nat := orDefault (field (recWord r 18) 4 8).toNat 80
def pOpen (r : ChanRecord) : Nat := (field (recWord r 17) 0 10 : BitVec 10).toNat
def pLow (r : ChanRecord) : Nat := (field (recWord r 17) 10 10 : BitVec 10).toNat
def pOpenFilt (r : ChanRecord) : Nat := orDefault (field (recWord r 17) 20 4 : BitVec 4).toNat 5
def pOffPer (r : ChanRecord) : Nat := orDefault (field (recWord r 19) 0 7 : BitVec 7).toNat 5
def pPulse (r : ChanRecord) : Nat := orDefault (field (recWord r 19) 7 4 : BitVec 4).toNat 10
def pDarkBlank (r : ChanRecord) : Nat := orDefault (field (recWord r 19) 11 8).toNat 20
def pVPh (r : ChanRecord) : Nat := (field (recWord r 20) 0 8 : BitVec 8).toNat
def pPhFilt (r : ChanRecord) : Nat := orDefault (field (recWord r 20) 8 8 : BitVec 8).toNat 10
/-- The proving words of a record, PCFG to PHCFG (Tables 5-3 to 5-7). -/
def proveWords (r : ChanRecord) : List W32 := [recWord r 16, recWord r 17, recWord r 18, recWord r 19, recWord r 20]

/-! CHn.AOCFG, TRIMZ, TRIMS, HARTCFG, HARTSCL (Tables 7-8 to 7-11), AICVCFG -/
def aoSatEn (r : ChanRecord) : Bool := bitAt (recWord r 32) 0
def aoAlmDir (r : ChanRecord) : BitVec 2 := field (recWord r 32) 1 2
def trimZ (r : ChanRecord) : Int := (recWord r 33).toInt
def trimS (r : ChanRecord) : Int := (recWord r 34).toInt
def hartEn (r : ChanRecord) : Bool := bitAt (recWord r 35) 0
def hartSecondary (r : ChanRecord) : Bool := bitAt (recWord r 35) 1
def hartPreamble (r : ChanRecord) : Nat := orDefault (field (recWord r 35) 2 5 : BitVec 5).toNat 5
def hartRetry (r : ChanRecord) : Nat := (field (recWord r 35) 7 2 : BitVec 2).toNat
/-- POLL_PER in ticks. -/
def hartPollPer (r : ChanRecord) : Nat := orDefault (field (recWord r 35) 9 10 : BitVec 10).toNat 10 * 1000000
def hartExp (r : ChanRecord) (v : BitVec 2) : Int := ((recWord r 36).extractLsb' (4 * v.toNat) 4).toInt

/-! Kinds (Table 4-1) -/
def kindOff : BitVec 3 := 0
def kindDO : BitVec 3 := 1
def kindDI : BitVec 3 := 2
def kindAII : BitVec 3 := 3
def kindAIV : BitVec 3 := 4
def kindAOSrc : BitVec 3 := 5
def kindAOSnk : BitVec 3 := 6
def kindPair : BitVec 3 := 7

/-- Kinds with a regulated output current. -/
def isAO (k : BitVec 3) : Bool := k = kindAOSrc || k = kindAOSnk
/-- Kinds with series blocking switches: loop and input kinds (04 "Wrong wiring", R105 for DO). -/
def hasBlocking (k : BitVec 3) : Bool := k = kindDI || k = kindAII || k = kindAIV || isAO k

/-- The record of channel `n` in the active generation; all zero while none is active (reset "cfg"). -/
def State.crec (s : State) (n : Chan) : ChanRecord :=
  match s.boot.gen with
  | some g => g.chan[n]
  | none => {}

/-- Kind of channel `n` in the active generation. -/
def State.kind (s : State) (n : Chan) : BitVec 3 := cfgKind (s.crec n)

/-- The current path, the voltage path and the junction input of channel `n` (R210, R213). -/
def curPath (n : Chan) : PathIx := ⟨2 * n.val, by omega⟩
def volPath (n : Chan) : PathIx := ⟨2 * n.val + 1, by omega⟩
def tjInput (n : Chan) : Fin 24 := ⟨8 + n.val, by omega⟩

/-- The partner 2k + 1 of an even channel 2k. -/
def slaveOf (n : Chan) : Chan := if h : n.val % 2 = 0 then ⟨n.val + 1, by omega⟩ else n
/-- The partner 2k of an odd channel 2k + 1. -/
def masterOf (n : Chan) : Chan := if n.val % 2 = 1 then ⟨n.val - 1, by omega⟩ else n

/-- Channel `n` is a pair master (R93). -/
def isMaster (g : Generation) (n : Chan) : Bool :=
  n.val % 2 = 0 && cfgKind g.chan[n] = kindDO && cfgKind g.chan[slaveOf n] = kindPair

def State.isMaster (s : State) (n : Chan) : Bool := match s.boot.gen with
  | some g => Machine.isMaster g n
  | none => false

/-- Channel `n` is named as a standby by another channel (R106). -/
def State.isStandby (s : State) (n : Chan) : Bool :=
  (List.finRange 16).any fun p => p ≠ n && cfgStbyEn (s.crec p) && cfgStby (s.crec p) = n

/-- DEVICE section in force. -/
def State.device (s : State) : DeviceSec := match s.boot.gen with
  | some g => g.device
  | none => {}

/-- GROUP section in force. -/
def State.group (s : State) : GroupSec := match s.boot.gen with
  | some g => g.group
  | none => {}

def State.localBase (s : State) : BitVec 20 := s.group.localBase

/-- A character of the library in force. -/
def findChar (cs : List Character) (k : BitVec 6) : Option Character := cs.find? (·.charId = k)

/-- SLACK_MS; 0xFFFF selects 500. -/
def slackMsOf (d : DeviceSec) : W16 := if d.slackMs = 0xFFFF then 500 else d.slackMs
/-- HOST_MAXWAIT; 0xFFFF selects 1024. -/
def maxwaitOf (d : DeviceSec) : W16 := if d.hostMaxwait = 0xFFFF then 1024 else d.hostMaxwait
/-- BUDGET_MW; 0xFFFF selects 6000. -/
def budgetOf (d : DeviceSec) : Nat := if d.budgetMw = 0xFFFF then 6000 else d.budgetMw.toNat

/-- Ticks in `k` ms. -/
def msTicks (k : Nat) : Nat := k * 10000
/-- Ticks in `k` s. -/
def secTicks (k : Nat) : Nat := k * 10000000

/-- Ticks from `a` to now. -/
def State.since (s : State) (a : W64) : Nat := (s.tick - a).toNat

/-- Serial-number comparison of R47 with `n` bits: `b` is greater than `a`. -/
def serialGt {n : Nat} (b a : BitVec n) : Bool :=
  let d := (b - a).toNat
  0 < d && d < 2 ^ (n - 1)

end Sys2Proof.Machine
end

