-- ==== Sys2Proof/Machine/Flags.lean ====
section
/-!
DEFINITION. The status registers as words: each is the packing of the state fields its table names, reserved bits 0 (R9).
-/
namespace Sys2Proof.Machine

/-- IDENT0–3 bytes 8–15 follow start-up (R1, R2); straps byte of Table 0-1. -/
def strapsByte (p : Straps) : Byte := BitVec.ofNat 8 ((if p.lanemode then 1 else 0) + (if p.hcompat then 2 else 0) + 4 * p.boot.toNat)

/-- DEV.BWSTAT (Table 1-6a). -/
def bwstatWord (b : Breakwater) : W32 :=
  putB 0 b.l2fUp ||| putB 1 b.f2l0Up ||| putB 2 b.f2l1Up ||| putB 3 b.slackSeen ||| putB 4 b.ebb ||| put 8 b.retrain

/-- DEV.BWCNT (Table 1-6b). -/
def bwcntWord (b : Breakwater) : W32 := put 0 b.crcErr ||| put 16 b.lostSample

/-- DEV.CLKCFG (Table 1-11). -/
def clkcfgWord (c : ClockState) : W32 :=
  put 0 c.clkoutSel ||| putB 2 c.xinOk ||| putB 3 c.cpllLock ||| putB 4 c.lpllLock ||| putB 5 c.onMonitor

/-- DEV.BOOTSTAT (Table 2-15a). -/
def bootstatWord (b : BootState) : W32 :=
  put 0 b.descCopy
  ||| putB 2 b.execSlot ||| putB 3 b.execFb ||| putB 4 b.ucodeSlot ||| putB 5 b.ucodeFb ||| put 6 b.cfg ||| put 8 b.cfgA
  ||| put 11 b.cfgB ||| put 14 b.cfgM ||| putB 17 b.ucodeMm ||| putB 18 b.schemaMm ||| putB 19 b.execNone

/-- DEV.CFGACT (Table 2-15b): 0 while no generation is active. -/
def cfgactWord (b : BootState) : W32 := match b.gen with | some g => g.seq | none => 0

/-- DEV.CFGPEND (Table 2-15c). -/
def cfgpendWord (b : BootState) : W32 :=
  (match b.pend with | some p => put 0 p.tag ||| putB 16 true | none => 0) ||| putB 17 b.job.isSome ||| putB 18 b.lastFail

/-- DEV.CFGPSEQ (Table 2-15d). -/
def cfgpseqWord (b : BootState) : W32 := match b.pend with | some p => p.gen.seq | none => 0

/-- DEV.MODE (Table 3-10a). -/
def modeWord (m : ModeState) : W32 :=
  put 0 m.mode.code ||| put 3 m.prev.code ||| put 8 m.cause ||| putB 16 m.laneRet ||| putB 17 m.chanRet

/-- DEV.SAFECNT (Table 3-10b): entries within the last SAFE_WINDOW seconds, and all entries. -/
def safecntWord (s : State) : W32 :=
  putN 0 8 (s.m.safeTicks.filter fun t => s.since t < secTicks s.device.safeWindow.toNat).length ||| put 8 s.m.safeTotal

def StartWait.code : StartWait → BitVec 4
  | .none => 0 | .clocks => 1 | .fieldDie => 2 | .reference => 3 | .endedInLoad => 4

def Readopt.code : Readopt → BitVec 2
  | .notInHold => 0 | .readopted => 1 | .refused => 2 | .windowEnded => 3

/-- DEV.START (Table 3-10c). -/
def startWord (m : ModeState) : W32 :=
  put 0 m.step ||| put 4 m.wait.code ||| put 8 m.readopt.code ||| putB 10 m.chkpt ||| put 16 m.elapsedMs

/-- DEV.SUPPLY (Table 3-10d). -/
def supplyWord (m : ModeState) : W32 := put 0 m.band ||| putB 2 m.lastGasp ||| put 8 m.ebbCount ||| put 16 m.gaspCount

/-- DEV.TRIAD (Table 14-13). -/
def triadWord (t : TriadState) (split : Bool) : W32 :=
  putB 0 t.vote[0] ||| putB 1 t.vote[1] ||| putB 2 t.vote[2] ||| putB 3 split ||| putB 4 t.paired ||| putB 5 t.held.isSome
  ||| putN 6 2 ((t.held.map Fin.val).getD 0) ||| putB 8 t.ret[0] ||| putB 9 t.ret[1] ||| putB 10 t.ret[2] ||| putB 11 t.startOk
  ||| put 16 t.safeWhy

/-- DEV.LANEDIS, LASTDIS (Table 14-14). -/
def lanedisWord (t : TriadState) : W32 := put 0 t.dis[0] ||| put 8 t.dis[1] ||| put 16 t.dis[2] ||| put 24 t.resyncs
def lastdisWord (t : TriadState) : W32 := putN 0 2 t.lastLane.val ||| put 2 t.lastSource ||| put 8 t.lastPlane

/-- DEV.VOTER, SURVEY, IAU (Table 14-15). -/
def voterWord (t : TriadState) : W32 := put 0 t.tests ||| putB 16 t.fault ||| put 17 t.pattern
def surveyWord (t : TriadState) : W32 := put 0 t.surveys ||| put 16 t.mismatch
def iauWord (t : TriadState) : W32 := put 0 t.iau[0] ||| put 8 t.iau[1] ||| put 16 t.iau[2]

/-- The reference lane: A, or the lowest-lettered voting lane (R400). -/
def refLane (t : TriadState) : LaneIx := if !t.ret[0] then 0 else if !t.ret[1] then 1 else 2

/-- DEV.DEBUG (Table 14-16). -/
def debugWord (t : TriadState) : W32 :=
  putB 0 t.attached ||| putB 1 t.halted ||| putN 2 7 t.replay.length ||| putB 9 t.replayFull ||| putN 10 2 (refLane t).val
  ||| put 12 t.attaches ||| putB 20 t.refused

/-- DEV.WDSTAT, WDCNT (Table 15-12). `suspended` is R413's condition. -/
def wdcntWord (r : RecovState) : W32 := put 0 r.wdCnt[0] ||| put 8 r.wdCnt[1] ||| put 16 r.wdCnt[2] ||| put 24 r.wdCnt[3]

/-- Watchdog `k` is suspended (R413). -/
def State.wdHeld (s : State) (k : Fin 8) : Bool :=
  s.triad.halted || ((k = 0 || k = 1) && s.recov.handover.isSome) || (k = 2 && (s.recov.reload.isSome || s.bw.absent || s.m.wait = .fieldDie))
  || ((k = 3 || k = 6 || k = 7) && (s.m.mode = .load || s.m.mode = .stop))

/-- A watchdog is suspended. -/
def State.wdSuspended (s : State) : Bool := (List.finRange 8).any s.wdHeld

def wdstatWord (s : State) : W32 :=
  put 0 s.recov.expired ||| put 8 s.recov.wdLast ||| put 11 s.recov.wdStep ||| putB 14 s.wdSuspended

/-- Watchdog resets within the last 600 s (R411, R412). -/
def State.wdResets (s : State) : Nat := (s.recov.wdResets.filter fun t => s.since t < secTicks 600).length

/-- DEV.RSTCAUSE (Table 15-13). -/
def rstcauseWord (s : State) : W32 :=
  put 0 s.recov.rstCause ||| put 3 s.recov.rstWd ||| put 8 (satNat 2 s.wdResets) ||| putB 10 s.recov.step4 ||| put 16 s.recov.resets

/-- DEV.RECOV (Table 15-13). -/
def recovWord (r : RecovState) : W32 :=
  put 0 r.func ||| putB 5 (!r.jobs.isEmpty) ||| putB 6 r.pcyc ||| putB 7 r.pcycWait ||| put 8 r.reinits

/-- DEV.STAGE (Table 15-14). -/
def stageWord (r : RecovState) : W32 := put 0 r.stage.code ||| put 3 r.stageKind ||| putB 5 r.stageEcc ||| put 16 r.stageTag

/-- DEV.HANDOVER and DEV.UCRELOAD (Table 15-15). -/
def handoverWord (r : RecovState) : W32 :=
  put 0 r.hoLastUs ||| put 16 r.hoCount ||| putB 24 r.hoReversed ||| put 25 r.hoWhy ||| putB 28 r.hoDescFail
def ucreloadWord (r : RecovState) : W32 := put 0 r.ucLastUs ||| put 16 r.ucCount ||| putB 24 r.ucResent ||| putB 25 r.ucFellBack

/-- DEV.FENCE_DONE, FENCESTAT, IMGSTAT, EPWSTAT, EPWLAST (Tables 11-9 to 11-15). -/
def fenceDoneWord (i : ImageState) : W32 := put 0 i.doneTag ||| putB 16 i.donePartial ||| put 24 i.doneCount
def fencestatWord (i : ImageState) : W32 :=
  putN 0 4 i.fencesLocal.length ||| putN 4 4 i.fencesUp.length ||| put 8 i.fenceRefused ||| put 16 i.partials
def imgstatWord (i : ImageState) : W32 := put 0 i.sweepFix ||| put 16 i.foreign ||| put 24 i.staleEnt

/-- Outstanding command writes of this device (R307): one place for each word. -/
def ImageState.pendingWrites (i : ImageState) : Nat :=
  (i.out.map fun r => match r.kind with | .origin _ a => a.length | _ => 0).sum
def epwstatWord (i : ImageState) : W32 := put 0 i.issued ||| put 16 i.refused ||| putN 24 7 i.pendingWrites
def epwlastWord (i : ImageState) : W32 := put 0 i.lastAddr ||| put 20 i.lastReason ||| put 24 i.lastSrc

/-- EXTEST acts only while RESET_N is asserted or in LOAD; elsewhere it is BYPASS (R514). [log 131: DEDUCED, unsafe] -/
def State.extestActs (s : State) : Bool := s.triad.ir = .extest && (s.m.run = .held || s.m.mode = .load)

/-- DEV.IMGWIN, IMGLOCAL (Tables 11-11, 11-12). -/
def imgwinWord (g : GroupSec) : W32 := put 0 g.winBase ||| putN 20 5 g.winLog2.toNat
def imglocalWord (g : GroupSec) : W32 :=
  put 0 g.localBase ||| putN 20 2 ((g.upport.map Fin.val).getD 0) ||| putB 22 g.upport.isNone

/-- GRP.ESTATj (Table 11-17). -/
def estatWord (s : State) (e : EntryState) : W32 :=
  put 0 e.state ||| putB 2 e.outside ||| put 8 e.losses
  ||| (if e.state = 0 then 0 else put 16 (satNat 16 (s.since e.sweepTick / secTicks 1) : BitVec 16))

/-- CHn.STATE (Table 4-17). In DEFAULT no kind is in force at the field die (R60). -/
def chStateWord (c : Channel) (standby : Bool) : W32 :=
  put 0 c.life.code ||| putB 3 c.setl ||| put 4 (if c.life = .default then 0#3 else c.kind) ||| putB 7 c.out ||| putN 8 4 ((c.roleOf.map Fin.val).getD 0)
  ||| putN 12 4 ((c.map.map Fin.val).getD 0) ||| putB 16 c.map.isSome ||| putB 17 standby

/-- CHn.WIRECNT, DISTAT (Tables 4-19, 4-20). -/
def wirecntWord (w : ChanWire) : W32 := put 0 w.cntMiswire ||| put 8 w.cntTransient ||| put 16 w.cntBreak ||| put 24 w.cntReverse
def distatWord (w : ChanWire) : W32 := putB 0 w.diState ||| putB 1 w.diRaw ||| put 2 w.diClass.code ||| put 16 w.edges

/-- CHn.PSTAT (Table 5-12). -/
def pstatWord (p : ChanProve) : W32 :=
  put 0 p.inst.code ||| put 3 p.pub.code ||| putB 6 p.cmdLit ||| putB 7 p.flood ||| put 8 p.win.code ||| put 10 p.offCls.code
  ||| putB 12 p.phDet ||| putB 13 p.phSupp ||| putB 14 p.driven ||| putB 15 p.noSig ||| putB 16 p.sigHigh ||| putB 17 p.estValid
  ||| put 18 p.strings ||| putB 22 p.ebbHold ||| putB 23 p.pcOk ||| put 24 p.pcFail

/-- CHn.POFF, PCNT (Tables 5-16, 5-17). -/
def poffWord (p : ChanProve) : W32 := put 0 p.rload ||| put 16 p.offCls.code
def pcntWord (p : ChanProve) : W32 := put 0 p.cntDark ||| put 8 p.cntLit ||| put 16 p.cntPartial ||| put 24 p.cntPc

/-- CHn.PROT (Table 6-9). -/
def protWord (p : ChanProt) : W32 :=
  put 0 p.live ||| put 13 p.pstate.code ||| put 16 p.retryN ||| put 20 p.tokens ||| put 24 p.retCause.code

/-- CHn.PROTCNT, PROTCNT2 (Tables 6-10, 6-11). -/
def protcntWord (p : ChanProt) : W32 := put 0 p.cntOc ||| put 8 p.cntShort ||| put 16 p.cntThermal ||| put 24 p.cntClamp
def protcnt2Word (p : ChanProt) : W32 := put 0 p.cntRetry ||| put 8 p.cntGov ||| put 16 p.cntShed

/-- CHn.TRIPINFO, BACKOFF (Table 6-13). -/
def tripinfoWord (p : ChanProt) : W32 := put 0 p.iTrip ||| put 16 p.tjTrip
def backoffWord (s : State) (p : ChanProt) : W32 :=
  (if p.pstate = .backoff && s.tick.toNat < p.expiry.toNat then put 0 (satNat 16 ((p.expiry - s.tick).toNat / 10000)) else 0)
  ||| (if p.tokens = 15 then 0 else putN 16 6 ((secTicks 60 - 1 - p.refill) / secTicks 1))

/-- LNKn.STAT, PEERWIN, DELAY, CRED, ERR, RETX, OUTST, URG (Tables 13-13 to 13-15). -/
def lnkStatWord (p : Port) : W32 :=
  put 0 p.state.code ||| putB 2 p.idMm ||| putB 3 p.roleMm ||| putB 4 p.baudMm ||| put 8 p.reinits ||| put 16 p.lastCause
def peerwinWord (p : Port) : W32 := put 0 p.peerWinBase ||| put 20 p.peerWinLog2 ||| putB 25 p.peerWinValid
def delayWord (p : Port) : W32 := put 0 p.delay ||| put 16 p.spread ||| put 24 p.rej
def credWord (p : Port) : W32 :=
  putN 0 4 p.req.credits ||| putN 4 4 p.rsp.credits ||| putN 8 3 p.urg.credits ||| putN 16 4 p.req.occupied
  ||| putN 20 4 p.rsp.occupied ||| putN 24 3 p.urg.occupied
def lnkErrWord (p : Port) : W32 := put 0 p.crcErr ||| put 16 p.censusFail ||| put 20 p.ctlErr ||| put 24 p.proto
def retxWord (p : Port) : W32 := put 0 p.retxFrames ||| put 16 p.aborts
def outstWord (s : State) (k : PortIx) (p : Port) : W32 :=
  putN 0 9 (s.img.out.filter fun r => r.port = k && (match r.kind with | .transit _ _ => true | _ => false)).length
  ||| put 9 p.late ||| put 16 p.timeouts
def urgWord (p : Port) : W32 := put 0 p.urgForwarded ||| put 16 p.maxDwell

/-- EVQ.STAT (Table 18-13) needs the pin; see `evqStatWord` in Ops. EVQ.LOST, REMOTE, ERR, SRCs (Tables 18-14, 18-15). -/
def evqLostWord (e : EventRouter) : W32 := put 0 e.lost ||| put 16 e.linkDrop
def evqRemoteWord (e : EventRouter) : W32 := put 0 e.remoteEntries ||| put 16 e.foreign
def evqErrWord (e : EventRouter) : W32 := putB 0 e.ackErr ||| put 8 e.ackBad
def srcWord (x : EventSource) : W32 := putB 0 x.enable ||| putB 1 x.urgent ||| put 2 x.route ||| putB 8 x.latched ||| put 16 x.count

/-- MBX.STATs and SUMMARY (Tables 18-8, 18-17). -/
def SlotState.code : SlotState → BitVec 2
  | .free => 0 | .running => 1 | .done => 2
def mbxStatWord (m : MailSlot) : W32 := put 0 m.state.code ||| put 8 m.result ||| put 16 m.tag
def mbxSummaryWord (m : Mailbox) : W32 :=
  ((List.finRange 8).foldl (fun a i => a ||| putB i.val (m.slot[i].state = .running) ||| putB (8 + i.val) (m.slot[i].state = .done)) 0)
  ||| put 16 m.rejected

/-! ## Conversion, loops, wheels, rules and ports -/

/-- FLT.PSTATp, PERRp, PCNTp, ERR (Tables 8-16 to 8-19). -/
def pstatPathWord (x : PathState) (scanned : Bool) : W32 :=
  putB 0 x.active ||| putB 1 x.fade.isSome ||| putB 2 x.pend.isSome ||| putB 3 ((x.pend.map (·.1)).getD false)
  ||| putB 4 (x.remain ≠ 0 || x.reload ≠ 0 || x.fade.isSome) ||| putB 5 x.waitAlign ||| putB 6 scanned
  ||| put 16 (satNat 16 (max (max x.remain x.reload) (match x.fade with | some f => f.len - f.i | none => 0)))
def perrWord (x : PathState) : W32 := putB 0 x.rawLim ||| putB 1 x.hbSatBit ||| putB 2 x.firSatBit
def pcntPathWord (x : PathState) : W32 := put 0 x.ovf ||| put 16 x.resets ||| put 24 x.swaps
def fltErrWord (c : ConvState) : W32 :=
  putB 0 c.errBusy ||| putB 1 c.errMode ||| putB 2 c.errSwap ||| put 8 c.errPath ||| putB 13 c.errBank

/-- A result block's word 1 (Table 8-8). -/
def resWord1 (r : ResultBlock) : W32 :=
  putB 0 r.valid ||| putB 1 r.settling ||| putB 2 r.fresh ||| putB 3 r.ovr ||| putB 4 r.sat ||| put 5 r.calsrc ||| put 16 r.seq

/-- DEV.SCAN, REFSTAT (Tables 8-20, 8-21). -/
def scanWord (c : ConvState) : W32 :=
  put 0 c.mask ||| putN 16 5 ((List.range 16).filter (bitAt c.mask)).length ||| putB 21 c.ebbRate
def refstatWord (c : ConvState) : W32 :=
  putB 0 c.refReady ||| putB 1 c.refFault ||| putB 2 c.unmon ||| putB 3 c.hkFault ||| putB 4 c.sarI ||| putB 5 c.sarV
  ||| put 8 c.faults ||| put 16 c.devn

/-- CAL.APPLp word 3 (Table 9-10). -/
def applWord3 (x : PathState) : W32 := putB 0 x.tjStale ||| putB 1 x.tjNone ||| putB 2 x.clamped ||| put 3 x.applSrc

/-- CHn.LOOP, LOOPMEAS, LOOPCMD, HARTSTAT, HARTCNT (Tables 7-12 to 7-15). -/
def loopWord (l : ChanLoop) : W32 := put 0 l.live ||| putB 17 l.dirEff
def loopmeasWord (l : ChanLoop) : W32 := put 0 l.headroom ||| put 16 l.rloop
def loopcmdWord (l : ChanLoop) : W32 := put 0 l.deliver ||| put 16 l.cmdReg

/-- LIVE bits of a channel's devices (HART_LIVE, HARTSTAT). -/
def liveBits (l : ChanLoop) : W16 :=
  (List.finRange 16).foldl (fun a p => if p.val ≠ 0 && l.dev[p].live then a ||| (1#16 <<< p.val) else a) 0

/-- Channel of a HART request. -/
def HartReq.chan : HartReq → Chan
  | .poll n _ _ | .search n _ _ | .pass n _ _ _ _ => n

def HartReq.isPass : HartReq → Bool
  | .pass _ _ _ _ _ => true
  | _ => false

/-- The modem that carries a transaction of channel `n`. -/
def modemOf (h : HartState) (n : Chan) : Option (Fin 4) :=
  (List.finRange 4).find? fun m => match h.modem[m].txn with | some t => t.req.chan = n | none => false

def hartstatWord (s : State) (n : Chan) : W32 :=
  let m := modemOf s.hart n
  put 0 (liveBits s.loop[n]) ||| putN 16 2 ((m.map Fin.val).getD 0) ||| putB 18 m.isSome
  ||| putB 19 ((s.hart.passes.any fun r => r.chan = n)
      || (List.finRange 4).any fun i => match s.hart.modem[i].txn with | some t => t.req.chan = n && t.req.isPass | none => false)
  ||| put 24 s.loop[n].lastFds
def hartcntWord (l : ChanLoop) : W32 := put 0 l.cntTimeout ||| put 8 l.cntCheck ||| put 16 l.cntComm ||| put 24 l.cntBurst

/-- DEV.TRIMSTAT, HARTMOD (Tables 7-16, 7-17). -/
def trimstatWord (t : TrimState) : W32 :=
  putN 0 4 t.armed.val ||| putB 4 t.armValid ||| putB 5 t.almsel ||| putB 6 t.zeroP ||| putB 7 t.spanP ||| put 8 t.lastAct ||| put 16 t.actCount
def hartmodWord (h : HartState) : W32 :=
  (List.finRange 4).foldl (fun a m => a ||| putB m.val h.modem[m].ok ||| putB (4 + m.val) h.modem[m].txn.isSome) 0

/-- DEV.GOVSTAT, GOVBUD (Tables 6-14, 6-15). -/
def govstatWord (s : State) : W32 :=
  put 0 s.gov.pEst ||| putB 16 s.gov.overSum ||| putB 17 s.gov.pkgHot ||| putB 18 ((List.finRange 16).any fun n => s.ch[n].shed)
  ||| putB 19 ((List.finRange 16).any fun n => s.ch[n].refused.isSome || s.loop[n].alarmRef.isSome)
def govbudWord (s : State) : W32 := putN 0 16 (if s.boot.gen.isSome then budgetOf s.device else 0) ||| put 16 s.gov.peak

/-- TWn.STAT, CNT, LINK (Tables 10-10, 10-12). `chg` is CHG_PEND. -/
def twStatWord (w : Wheel) (chg : Bool) : W32 :=
  put 0 w.state.code ||| putB 3 w.qualified ||| putB 4 w.upUncert ||| putB 5 w.uncert ||| putB 6 chg ||| put 8 w.steps ||| put 16 w.losses
def twCntWord (w : Wheel) : W32 := put 0 w.accepted ||| put 16 w.rejected
def twLinkWord (w : Wheel) : W32 := put 0 w.unc ||| put 16 w.hops

/-- A library changeover waits for this wheel's phase 0 (R287), as the field die has last reported (R34). -/
def chgPend (s : State) (w : WheelIx) : Bool :=
  s.ch.toList.any fun c => match c.oldChar with | some o => o.wheel = w | none => false

/-- DEV.TIMESTAT (Table 10-13). -/
def timestatWord (s : State) : W32 :=
  putB 0 s.time.secValid ||| putB 1 s.time.secSrc
  ||| putB 2 (match s.time.ppsLast with | some t => s.since t ≤ 25000000 | none => false) ||| put 8 s.time.conflict

/-- Cycles are being started: R318's condition (RUL.STAT.RUNNING). -/
def State.ruleRunning (s : State) : Bool :=
  (s.m.mode = .run || s.m.mode = .reduced) && s.m.run = .running

/-- RUL.CFG, STAT, TIME, CNT, FAULT, FENCE, PVAL, PACC, ASTATg (Tables 12-12 to 12-15). -/
def rulCfgWord (s : State) : W32 :=
  match s.boot.gen with | some g => putN 0 15 g.rules.length ||| putN 16 14 g.cycleUs.toNat | none => 0
def rulStatWord (s : State) : W32 :=
  putB 0 (s.ruleRunning && s.recov.handover.isNone) ||| putB 1 (s.ruleRunning && s.recov.handover.isSome) ||| put 16 s.rul.wcet
def rulTimeWord (r : RuleState) : W32 := put 0 r.lastUs ||| put 16 r.maxUs
def rulCntWord (r : RuleState) : W32 := put 0 r.cycles ||| put 16 r.overrun ||| put 24 r.faults
def rulFaultWord (r : RuleState) : W32 := put 0 r.faultIx ||| put 16 r.faultCause
def rulFenceWord (r : RuleState) : W32 := putN 0 14 (r.mem.filter (·.deferred)).length ||| put 16 r.merged
def rulPvalWord (x : RuleMem) : W32 :=
  put 0 x.value ||| put 16 x.qual ||| putB 20 x.q ||| putB 21 (x.prev.getD false) ||| putB 22 (x.run || x.deferred)
def barBits (g : GroupMem) : W16 :=
  (List.finRange 16).foldl (fun a n => if (g.bar[n]).isSome then a ||| (1#16 <<< n.val) else a) 0
def astatWord (g : GroupMem) : W32 :=
  put 0 g.displayed ||| put 6 g.commanded ||| putB 12 g.subst ||| putB 13 g.pending ||| putB 14 g.noprov ||| putB 15 g.invcmd ||| put 16 (barBits g)

/-- DEV.HOSTSTAT, HOSTCFG, HOSTERR0, HOSTERR1, HOSTRD, HOSTLAST (Tables 16-8 to 16-10). -/
def hoststatWord (s : State) : W32 := put 0 s.host.discards ||| put 8 s.host.done ||| put 16 s.host.lastErr ||| putN 20 7 s.held.length
def hostcfgWord (s : State) : W32 :=
  put 0 (if s.boot.gen.isSome then maxwaitOf s.device else 1024) ||| putB 16 s.straps.hcompat ||| put 24 s.host.page
def hosterr0Word (h : HostPort) : W32 := put 0 h.cLength ||| put 8 h.cEarly ||| put 16 h.cPartial ||| put 24 h.cExtra
def hosterr1Word (h : HostPort) : W32 := put 0 h.cLane ||| put 8 h.cAlign ||| put 16 h.cUnknown ||| put 24 h.cDropped
def hostrdWord (h : HostPort) : W32 := put 0 h.aborts ||| put 16 h.late
def hostlastWord (h : HostPort) : W32 := put 0 h.lastAddr ||| put 24 h.lastCmd

/-- DEV.MEMCFG, MEMWIN, MEMSTAT, MEMCNT (Tables 17-9, 17-10). -/
def memcfgWord (m : MemPort) : W32 :=
  putB 0 m.decoded ||| putB 1 m.bootDec ||| put 8 m.xipCmd ||| put 16 m.xipLn ||| put 18 m.xipDiv ||| put 21 m.xipDummy
def memstatWord (m : MemPort) : W32 :=
  putB 0 m.cur.isSome ||| putB 1 m.heldSel.isSome ||| putB 2 m.polling ||| putN 3 5 m.queue.length ||| put 8 m.lastErr ||| put 16 m.errors
  ||| put 24 m.contBreak
def memcntWord (m : MemPort) : W32 := put 0 m.xip ||| put 16 m.entries

end Sys2Proof.Machine
end

