-- ==== Sys2Proof/Machine/RuleFields.lean ====
section
/-!
DEFINITION. Fields of a rule record (12 Tables 12-1, 12-2), the opcodes (Table 12-4), the load-time checks of Table 12-5 and the worst-case
cycle time of R331.
-/
namespace Sys2Proof.Machine

/-! ## Fields (Table 12-1) -/
def RuleRec.opc (r : RuleRec) : Byte := field r.w0 0 8
def RuleRec.fsel (r : RuleRec) : BitVec 4 := field r.w0 8 4
def RuleRec.holdBad (r : RuleRec) : Bool := bitAt r.w0 12
def RuleRec.param (r : RuleRec) : W16 := field r.w0 16 16
def RuleRec.out (r : RuleRec) : BitVec 20 := field r.w3 0 20
def RuleRec.outMode (r : RuleRec) : BitVec 4 := field r.w3 20 4
def RuleRec.aux (r : RuleRec) : Byte := field r.w3 24 8

/-- Operand fields of word 1, word 2 or a carrier's word 1. -/
def opIn (w : W32) : BitVec 20 := field w 0 20
def opSel (w : W32) : BitVec 4 := field w 20 4
def opInv (w : W32) : Bool := bitAt w 24
def opNoq (w : W32) : Bool := bitAt w 25
def opFailTrue (w : W32) : Bool := bitAt w 26
def opCmd (w : W32) : Bool := bitAt w 27
def opBit (w : W32) : BitVec 4 := field w 28 4
def opConst (w : W32) : Bool := opSel w = 0xE || opSel w = 0xF

/-- Opcodes (Table 12-4). -/
inductive Opc where
  | nop | copy | not | and | or | xor | maj | sr | rs | ton | tof | pulse | cmpGt | cmpLt | inrange | select | aspect | prove
  | qualgate | emit | fence | end_
  deriving DecidableEq, Repr

def opcOf (b : Byte) : Option Opc :=
  match b.toNat with
  | 0x00 => some .nop | 0x01 => some .copy | 0x02 => some .not | 0x03 => some .and | 0x04 => some .or | 0x05 => some .xor
  | 0x06 => some .maj | 0x08 => some .sr | 0x09 => some .rs | 0x0A => some .ton | 0x0B => some .tof | 0x0C => some .pulse
  | 0x10 => some .cmpGt | 0x11 => some .cmpLt | 0x12 => some .inrange | 0x18 => some .select | 0x20 => some .aspect
  | 0x21 => some .prove | 0x28 => some .qualgate | 0x30 => some .emit | 0x31 => some .fence | 0x3F => some .end_
  | _ => none

/-- The rule has operand A; and operand B. -/
def usesA : Opc → Bool
  | .nop | .end_ => false
  | _ => true
def usesB : Opc → Bool
  | .and | .or | .xor | .maj | .sr | .rs | .cmpGt | .cmpLt | .inrange | .select | .aspect | .prove | .qualgate => true
  | _ => false

/-- The operand words a rule reads: A, B and the carrier's for MAJ and SELECT. -/
def ruleOperands (rules : List RuleRec) (i : Nat) (r : RuleRec) : List W32 :=
  match opcOf r.opc with
  | none => []
  | some o =>
    (if usesA o then [r.w1] else []) ++ (if usesB o then [r.w2] else [])
    ++ (if o = .maj || o = .select then
      (match rules[i + r.aux.toNat]? with | some c => [c.w1] | none => []) else [])

/-! ## Table 12-5 -/

/-- FSEL and PARAM within Table 12-4. -/
def fselParamOk (o : Opc) (f : BitVec 4) (p : W16) : Bool :=
  match o with
  | .copy | .select => f.toNat ≤ 6 && p = 0
  | .ton | .tof | .pulse => f.toNat ≤ 3
  | .cmpGt | .cmpLt | .inrange | .fence => f = 0
  | .aspect => f = 0 && p.toNat ≤ 10000
  | .prove => f.toNat ≤ 2 && p.toNat ≤ 15
  | .qualgate => f.toNat ≤ 1 && p.toNat ≤ 15
  | .emit => f.toNat ≤ 1 && 108 ≤ p.toNat && p.toNat ≤ 127
  | _ => f = 0 && p = 0

/-- An operand word's reserved values: SEL, constants and BIT. -/
def operandOk (w : W32) : Bool :=
  !(4 ≤ (opSel w).toNat && (opSel w).toNat ≤ 0xD) && (!opConst w || (field (opIn w) 16 4 : BitVec 4) = 0)
  && (opBit w = 0 || opSel w = 1)

/-- The Fields check. A carrier's word 1 is an operand. -/
def fieldsOk (r : RuleRec) (o : Opc) : Bool :=
  (field r.w0 13 3 : BitVec 3) = 0 && fselParamOk o r.fsel r.param && operandOk r.w1 && operandOk r.w2

/-- An address of the device's window. -/
def opInWindow (g : GroupSec) (w : W32) : Bool :=
  opConst w || (g.winBase.toNat ≤ (opIn w).toNat && (opIn w).toNat < g.winBase.toNat + 2 ^ g.winLog2.toNat)

def opLocal (base a : BitVec 20) : Bool := base.toNat ≤ a.toNat && a.toNat < base.toNat + 4096
def offsetOf (base a : BitVec 20) : Nat := a.toNat - base.toNat

/-- LOCAL_BASE + 0xC00 to + 0xEFF. -/
def isRuleEp (base a : BitVec 20) : Bool := opLocal base a && 0xC00 ≤ offsetOf base a && offsetOf base a ≤ 0xEFF

/-- Rule command endpoints (R334): every CMD_EP and every operand with CMD set. -/
def ruleCmdEps (rules : List RuleRec) (groups : List AspectGroup) : List (BitVec 20) :=
  groups.map (·.cmdEp) ++ ((List.range rules.length).zip rules).flatMap fun ir =>
    ((ruleOperands rules ir.1 ir.2).filter fun w => opCmd w && !opConst w).map opIn

/-- COMMAND of a DO or AO channel, AO_ALARM of an AO channel, or a rule command endpoint. -/
def isLocalCmdEp (g : Generation) (a : BitVec 20) : Bool :=
  let base := g.group.localBase
  opLocal base a &&
    (let o := offsetOf base a
     if o < 0x800 then
       let k := cfgKind g.chan[(BitVec.ofNat 4 (o / 0x80)).toFin]
       (o % 0x80 = 0 && (k = kindDO || isAO k)) || (o % 0x80 = 0x20 && isAO k)
     else (ruleCmdEps g.rules g.aspects).contains a)

/-- The route of a mode-3 address at this device is neither local nor refused. -/
def routesAway (g : GroupSec) (a : BitVec 20) : Bool :=
  !opLocal g.localBase a &&
    ((g.entries.any fun e => e.subBase.toNat ≤ a.toNat && a.toNat < e.subBase.toNat + 2 ^ e.subLog2.toNat)
     || (!(g.winBase.toNat ≤ a.toNat && a.toNat < g.winBase.toNat + 2 ^ g.winLog2.toNat) && g.upport.isSome))

/-- Union of an aspect group's CHMASKs (R333). -/
def AspectGroup.chset (g : AspectGroup) : W16 := g.aspects.foldl (fun a x => a ||| x.chmask) 0

/-- The Output check of one rule. -/
def outputOk (g : Generation) (o : Opc) (r : RuleRec) : Bool :=
  let none_ := o = .nop || o = .emit || o = .fence || o = .end_
  match r.outMode.toNat with
  | 0 => none_ && r.out = 0
  | 1 => !none_ && isRuleEp g.group.localBase r.out && !(ruleCmdEps g.rules g.aspects).contains r.out
  | 2 => !none_ && isLocalCmdEp g r.out &&
      !(g.aspects.any fun x => (List.finRange 16).any fun n =>
        bitAt x.chset n.val && offsetOf g.group.localBase r.out = 0x80 * n.val)
  | 3 => !none_ && routesAway g.group r.out
  | _ => false

/-- One rule at index `i` passes Table 12-5's checks of rules. -/
def ruleOk (g : Generation) (i : Nat) (r : RuleRec) : Bool :=
  match opcOf r.opc with
  | none => false
  | some o =>
    let n := g.rules.length
    (o = .end_) = (i + 1 = n) && fieldsOk r o
    && (ruleOperands g.rules i r).all (opInWindow g.group) && (usesB o || r.w2 = 0x00F00000#32)
    && (if o = .maj || o = .select then
          r.aux ≠ 0 && i + r.aux.toNat < n - 1 && (match g.rules[i + r.aux.toNat]? with | some c => opcOf c.opc = some .nop | none => false)
        else o = .aspect || r.aux = 0)
    && outputOk g o r
    && (o ≠ .prove || (opIn r.w1).toNat % 4096 % 0x80 = 1 && (opIn r.w1).toNat % 4096 < 0x800)
    && (o ≠ .aspect || (match g.aspects.find? fun x => x.groupId.toNat = r.aux.toNat with
          | some x => opIn r.w1 = x.cmdEp && opSel r.w1 = 0
          | none => false))
    && (!(ruleOperands g.rules i r).any fun w => opCmd w && !isRuleEp g.group.localBase (opIn w))

/-- No two rules write one endpoint. -/
def outputsDistinct (rules : List RuleRec) : Bool :=
  decide ((rules.filter fun r => r.outMode ≠ 0).map (·.out)).Nodup

/-- The RULE section's part of Table 12-5. -/
def rulesOk (g : Generation) : Bool :=
  ((List.range g.rules.length).zip g.rules).all (fun ir => ruleOk g ir.1 ir.2) && outputsDistinct g.rules

/-- The ASPECT section's part of Table 12-5 for one group. -/
def aspectGroupOk (g : Generation) (x : AspectGroup) : Bool :=
  ((g.rules.filter fun r => opcOf r.opc = some .aspect && r.aux.toNat = x.groupId.toNat).length = 1)
  && ((x.aspects.filter (·.rank = 0)).length = 1)
  && (x.aspects.all fun a =>
      ((a.subst.takeWhile (· ≠ 0xFF)).all fun k =>
        match x.aspects[k.toNat]? with | some b => b.rank.toNat < a.rank.toNat | none => false)
      && (List.finRange 16).all fun n =>
        if bitAt a.chmask n.val then a.char[n] = 0xFF || g.chars.any fun c => c.charId.toNat = a.char[n].toNat else a.char[n] = 0xFF)
  && ((List.finRange 16).all fun n => !bitAt x.chset n.val ||
      (cfgKind g.chan[n] = kindDO
       && !((List.finRange 16).any fun p => p ≠ n && cfgStbyEn g.chan[p] && cfgStby g.chan[p] = n)
       && !(g.aspects.any fun y => y.groupId ≠ x.groupId && bitAt y.chset n.val)))
  && isRuleEp g.group.localBase x.cmdEp
  && !(g.rules.any fun r => r.outMode = 1 && r.out = x.cmdEp)

/-- The ASPECT section's part of Table 12-5. Two groups of one GROUP_ID fail it. [log 143: DEDUCED, unsafe] -/
def aspectsOk (g : Generation) : Bool :=
  g.aspects.all (aspectGroupOk g) && decide (g.aspects.map (·.groupId)).Nodup

/-! ## Worst-case cycle time (R331), in ns -/

def ruleCost (g : Generation) (r : RuleRec) : Nat :=
  match opcOf r.opc with
  | none | some .end_ => 0
  | some .nop => 20
  | some .maj | some .select | some .cmpGt | some .cmpLt | some .inrange => 80
  | some .ton | some .tof | some .pulse => 90
  | some .prove => 120
  | some .emit => 150
  | some .fence => 300
  | some .aspect =>
    1500 + 400 * (match g.aspects.find? fun x => x.groupId.toNat = r.aux.toNat with
      | some x => ((List.range 16).filter (bitAt x.chset)).length
      | none => 0)
  | _ => 60

def outCost (r : RuleRec) : Nat := match r.outMode.toNat with | 2 => 200 | 3 => 1000 | _ => 0

/-- W of R331, rounded up to whole µs. -/
def wcetUs (g : Generation) : Nat :=
  let ns := 60000 + 50 * g.hart.length + (((List.range g.rules.length).zip g.rules).map fun ir =>
    ruleCost g ir.2 + outCost ir.2
      + 40 * ((ruleOperands g.rules ir.1 ir.2).filter fun w => !opConst w && !opLocal g.group.localBase (opIn w)).length).sum
  (ns + 999) / 1000

end Sys2Proof.Machine
end

