-- ==== Sys2Proof/Machine/Ops.lean ====
section
/-!
DEFINITION. Shared operations over the state: events, the queue and the log; the endpoint image; link records; mailbox results. Every meaning
is written over these.
-/
namespace Sys2Proof.Machine

/-! ## Parts of the state -/

/-- Channel `n`'s executive state changed by `f`. -/
def State.modCh (s : State) (n : Chan) (f : Channel → Channel) : State := { s with ch := modAt s.ch n f }
/-- Channel `n`'s field-die state changed by `f`. -/
def State.modFd (s : State) (n : Chan) (f : FdChan → FdChan) : State := { s with fd := { s.fd with ch := modAt s.fd.ch n f } }
/-- Port `k` changed by `f`. -/
def State.modPort (s : State) (k : PortIx) (f : Port → Port) : State := { s with port := modAt s.port k f }
/-- Slot `i` changed by `f`. -/
def State.modSlot (s : State) (i : SlotIx) (f : MailSlot → MailSlot) : State :=
  { s with mbx := { s.mbx with slot := modAt s.mbx.slot i f } }
/-- Source `i` changed by `f`. -/
def State.modSrc (s : State) (i : SrcIx) (f : EventSource → EventSource) : State :=
  { s with ev := { s.ev with src := modAt s.ev.src i f } }

/-- A free value, and the state with the draw counted. [log 5: DESIGN CHOICE, safe] -/
def State.draw (s : State) : W32 × State := (Config.free s.free, { s with free := s.free + 1 })

/-- The executive runs and is neither exchanged nor halted. -/
def State.execRuns (s : State) : Bool := s.m.run = .running && s.recov.handover.isNone && !s.triad.halted

/-- Image words may be written: only the voters write them (R26), so none changes while the executive is halted or exchanged. -/
def State.votes (s : State) : Bool := s.m.run ≠ .running || s.execRuns

/-! ## Events (18) -/

/-- Source 4n + k of channel `n` (R479). -/
def chanSrc (n : Chan) (k : Fin 4) : SrcIx := ⟨4 * n.val + k.val, by omega⟩

/-- Table 18-2 word 2: the endpoint an entry names. -/
def entryAddr (localBase : BitVec 20) (src : SrcIx) : BitVec 20 :=
  if src.val < 64 then localBase + BitVec.ofNat 20 (0x80 * (src.val / 4) + if src.val % 4 = 0 then 1 else 6)
  else localBase + 0xF00

/-- A record put in the SRAM log, or lost and counted when it is full (R489). -/
def logPut (e : EventRouter) (ltype flags : Byte) (resets : W16) (body : List W32) (tickh : W32) : EventRouter :=
  if e.sramLog.length < 8192 then
    { e with sramLog := e.sramLog ++ [⟨ltype, flags, resets, e.logPos, body, tickh⟩], logPos := e.logPos + 1, logSeal := true }
  else { e with logLost := satInc e.logLost, logLostRun := e.logLostRun + 1 }

/-- The four words of a queue entry (Table 18-2). -/
def entryWords (q : QueueEntry) : List W32 :=
  [put 0 q.source ||| putB 7 q.remote ||| putB 8 q.urgent ||| putB 9 q.irq ||| putB 10 q.link ||| putB 11 q.multi ||| put 16 q.count,
   q.tick, put 0 q.addr, q.detail]

/-- An entry written at the next ring index. -/
def ringPut (e : EventRouter) (q : QueueEntry) : EventRouter :=
  { e with ring := setAt e.ring (e.head + BitVec.ofNat 8 e.count).toFin q, count := e.count + 1 }

/-- The upstream port, when there is one and it is UP. -/
def State.upPort (s : State) : Option PortIx :=
  match s.group.upport with
  | some k => if s.port[k].state = .up then some k else none
  | none => none

/-- The entry of a local occurrence: its routing is the source's, its LINK is set when the record is sent (R482). -/
def mkEntry (s : State) (src : SrcIx) (multi : Bool) (count : W16) (tick : W64) (detail : W32) : QueueEntry :=
  let x := s.ev.src[src]
  { source := BitVec.ofNat 7 src.val, urgent := x.urgent, irq := bitAt x.route 0, link := bitAt x.route 1 && s.upPort.isSome,
    multi := multi, count := count, tick := tick.setWidth 32, addr := entryAddr s.localBase src, detail := detail }

/-- A frame put in the waiting list of its class on port `k`. -/
def portQueue (p : Port) (f : TxFrame) : Port :=
  match f.msg.cls with
  | .request => { p with req := { p.req with waiting := p.req.waiting ++ [f] } }
  | .response => { p with rsp := { p.rsp with waiting := p.rsp.waiting ++ [f] } }
  | .urgent => { p with urg := { p.urg with waiting := p.urg.waiting ++ [f] } }

/-- The urgent record of an entry sent on the upstream port, or dropped and counted while it is not UP (R482). -/
def linkRecord (s : State) (q : QueueEntry) (src : SrcIx) : State :=
  if bitAt s.ev.src[src].route 1 && s.group.upport.isSome then
    match s.upPort with
    | some k =>
      let msg := if src.val < 64 && src.val % 4 = 0 then LinkMsg.lamp q.addr q.detail (BitVec.ofNat 8 (src.val / 4))
        else LinkMsg.event q.source q.count (s.localBase + 0xF00)
      s.modPort k fun p => portQueue p { msg := msg, since := s.tick }
    | none => { s with ev := { s.ev with linkDrop := satInc s.ev.linkDrop } }
  else s

/-- The occurrence of source 107 that takes the 256th place (R484). -/
def raiseOverflow (s : State) : State :=
  let x := s.ev.src[(107 : SrcIx)]
  let c := satInc x.count
  let q := mkEntry s 107 false c s.tick (put 0 s.ev.lost)
  let s := s.modSrc 107 fun x => { x with latched := true, count := c }
  let s := { s with ev := ringPut (logPut s.ev 0x01 0 s.recov.resets (entryWords q) (field s.tick 32 32)) q }
  linkRecord s q 107

/-- An entry that falls due: written while fewer than 255 are held, otherwise lost; at 255 the overflow takes the last place (R484). -/
def enqueue (s : State) (q : QueueEntry) : State :=
  if s.ev.count < 255 then { s with ev := ringPut s.ev q }
  else
    let s1 := { s with ev := { s.ev with lost := s.ev.lost + 1, ovf := true } }
    if s.ev.count = 255 then raiseOverflow s1 else s1

/-- An occurrence of an enabled source (R480, R481): latched bit, count and log at once; entry and link record at once for an urgent
source, at the next boundary otherwise. [log 128: DEDUCED, unsafe] -/
def occur (s : State) (src : SrcIx) (detail : W32) (tick : W64) : State :=
  let x := s.ev.src[src]
  if x.enable then
    let c := satInc x.count
    let q := mkEntry s src false c tick detail
    let s1 := s.modSrc src fun x => { x with latched := true, count := c }
    let s2 := { s1 with ev := logPut s1.ev 0x01 0 s.recov.resets (entryWords q) (field tick 32 32) }
    if x.urgent then linkRecord (enqueue s2 q) q src
    else s2.modSrc src fun y => { y with waiting := some ⟨c, tick, detail, x.waiting.isSome⟩ }
  else s

/-- Raise a source (R480). While the executive does not run the occurrence is kept and raised once it does (R481); during a handover or
debug halt the hardware latches it at once (Table 18-4). [log 130: DEDUCED, unsafe; log 135: DEDUCED, unsafe] -/
def raise (s : State) (src : SrcIx) (detail : W32) : State :=
  if s.execRuns then occur s src detail s.tick
  else
    let s1 := if s.m.run = .running && s.ev.src[src].enable then s.modSrc src fun x => { x with latched := true } else s
    { s1 with ev := { s1.ev with deferred := s1.ev.deferred ++ [(src, detail, s.tick)] } }

/-- An occurrence of tick `tick` raised while the executive runs, and kept until it does otherwise (R481). -/
def raiseAt (s : State) (src : SrcIx) (detail : W32) (tick : W64) : State :=
  if s.execRuns then occur s src detail tick else { s with ev := { s.ev with deferred := s.ev.deferred ++ [(src, detail, tick)] } }

/-- The kept occurrences raised in order (R481, R425). -/
def raiseDeferred (s : State) : State :=
  s.ev.deferred.foldl (fun a d => occur a d.1 d.2.1 d.2.2) { s with ev := { s.ev with deferred := [] } }

/-- The waiting entry of one normal source written at a boundary (R481). [log 128: DEDUCED, unsafe] -/
def flushSource (s : State) (src : SrcIx) : State :=
  match s.ev.src[src].waiting with
  | some p =>
    let q := mkEntry s src p.multi p.count p.tick p.detail
    let s1 := s.modSrc src fun x => { x with waiting := none }
    linkRecord (enqueue s1 q) q src
  | none => s

/-- Kept occurrences handled in the order of their ticks; a source's entry is written at its last one (R481). -/
def occurEach : List (SrcIx × W32 × W64) → State → State
  | [], s => s
  | d :: ds, s =>
    let s1 := occur s d.1 d.2.1 d.2.2
    occurEach ds (if ds.any (·.1 = d.1) then s1 else flushSource s1 d.1)

/-- The occurrences of a handover or debug halt: their entries are written at resumption, in order of TICK (Table 18-4, R425). -/
def raiseHeld (s : State) : State := occurEach s.ev.deferred { s with ev := { s.ev with deferred := [] } }

/-- Every waiting entry written at a boundary, in ascending source order. [log 128: DEDUCED, unsafe] -/
def flushNormal (s : State) : State := (List.finRange 128).foldl flushSource s

/-- An entry with IRQ set is held (EVQ.STAT.IRQPEND). -/
def irqPend (e : EventRouter) : Bool :=
  (List.range e.count).any fun i => e.ring[(e.head + BitVec.ofNat 8 i).toFin].irq

/-- IRQ_N is asserted (R486). -/
def State.irq (s : State) : Bool :=
  s.m.run = .running && s.ev.irqEn && (irqPend s.ev || (s.ev.ovf && s.ev.irqOvf))

/-- EVQ.STAT (Table 18-13). -/
def evqStatWord (s : State) : W32 :=
  put 0 s.ev.head ||| putN 8 9 s.ev.count ||| putB 17 s.ev.ovf ||| putB 18 s.irq ||| putB 19 (irqPend s.ev)

/-- Sources by name (Table 18-1). -/
def srcLaneDisagree : SrcIx := 64
def srcLaneRetired : SrcIx := 65
def srcVoter : SrcIx := 66
def srcSurvey : SrcIx := 67
def srcEccCorr : SrcIx := 68
def srcEccUncorr : SrcIx := 69
def srcWatchdog : SrcIx := 70
def srcMode : SrcIx := 71
def srcTide (w : WheelIx) : SrcIx := ⟨72 + w.val, by omega⟩
def srcTideLost : SrcIx := 76
def srcBreakwater : SrcIx := 77
def srcSupply : SrcIx := 78
def srcVloop : SrcIx := 79
def srcLink (k : PortIx) : SrcIx := ⟨80 + k.val, by omega⟩
def srcLinkErr (k : PortIx) : SrcIx := ⟨84 + k.val, by omega⟩
def srcMember : SrcIx := 88
def srcConfig : SrcIx := 89
def srcStage : SrcIx := 90
def srcVersion : SrcIx := 91
def srcHostErr : SrcIx := 92
def srcMemErr : SrcIx := 93
def srcHart : SrcIx := 94
def srcOverrun : SrcIx := 95
def srcRuleFault : SrcIx := 96
def srcFence : SrcIx := 97
def srcPower : SrcIx := 98
def srcTemp : SrcIx := 99
def srcRefFault : SrcIx := 100
def srcConv : SrcIx := 101
def srcFilter : SrcIx := 102
def srcCal : SrcIx := 103
def srcButton : SrcIx := 104
def srcDebug : SrcIx := 105
def srcClock : SrcIx := 106

/-- Raise 4n + 1 with CHn.PROT, 4n + 2 with CHn.WIRE, 4n + 3 with a cause code (18 "channel sources"). -/
def raiseProt (s : State) (n : Chan) : State := raise s (chanSrc n 1) (protWord s.ch[n].prot)
def raiseWire (s : State) (n : Chan) : State := raise s (chanSrc n 2) (put 0 s.ch[n].w.wire)
/-- [log 41: DESIGN CHOICE, unsafe] -/
def raiseMeasure (s : State) (n : Chan) (cause : Nat) (poll : Nat) : State :=
  raise s (chanSrc n 3) (putN 0 8 cause ||| putN 8 8 poll)

/-! ## The endpoint image (11) -/

/-- Quality codes (Table 11-2). -/
def qGood : BitVec 4 := 0
def qSubst : BitVec 4 := 1
def qSettling : BitVec 4 := 2
def qHoldover : BitVec 4 := 3
def qStale : BitVec 4 := 4
def qFault : BitVec 4 := 8
def qRetired : BitVec 4 := 9
def qNoComm : BitVec 4 := 10
def qUnassigned : BitVec 4 := 15

/-- An endpoint word (Table 11-1). -/
def epWord (seq : Byte) (q cls : BitVec 4) (v : W16) : W32 := put 24 seq ||| put 20 q ||| put 16 cls ||| put 0 v
def epSeq (w : W32) : Byte := field w 24 8
def epQual (w : W32) : BitVec 4 := field w 20 4
def epClass (w : W32) : BitVec 4 := field w 16 4
def epValue (w : W32) : W16 := field w 0 16

/-- `a` is one of the device's own endpoints. -/
def State.isLocal (s : State) (a : BitVec 20) : Bool := s.localBase.toNat ≤ a.toNat && a.toNat < s.localBase.toNat + 4096

/-- The stored word of endpoint `a`. -/
def State.ep (s : State) (a : BitVec 20) : W32 :=
  if s.isLocal a then sread epUnassigned s.img.words a.toNat else sread epNoComm s.img.copies a.toNat

/-- A changed word enters the change set when the device has an upstream neighbour (R305). -/
def noteChange (s : State) (a : BitVec 20) : State :=
  if s.group.upport.isSome && !s.img.changes.contains a then { s with img := { s.img with changes := s.img.changes ++ [a] } } else s

/-- Store word `w` at endpoint `a`, atomically (R304), while the voters write (R26). -/
def epStore (s : State) (a : BitVec 20) (w : W32) : State :=
  if !s.votes then s
  else if s.isLocal a then noteChange { s with img := { s.img with words := swrite epUnassigned s.img.words a.toNat w } } a
  else noteChange { s with img := { s.img with copies := swrite epNoComm s.img.copies a.toNat w } } a

/-- The owner's write of a local word: SEQ advances when VALUE, QUAL or CLASS changes, and nothing happens otherwise (R295). -/
def epPut (s : State) (a : BitVec 20) (q cls : BitVec 4) (v : W16) : State :=
  let w := s.ep a
  if epQual w = q && epClass w = cls && epValue w = v then s else epStore s a (epWord (epSeq w + 1) q cls v)

/-- An accepted command write: SEQ advances whether or not the value changes (R295, Table 11-7 row 5). -/
def epAccept (s : State) (a : BitVec 20) (q cls : BitVec 4) (v : W16) : State :=
  epStore s a (epWord (epSeq (s.ep a) + 1) q cls v)

/-- Local endpoint at offset `o`. -/
def State.lo (s : State) (o : Nat) : BitVec 20 := s.localBase + BitVec.ofNat 20 o
/-- Endpoint `k` of channel `n` (R114). -/
def State.chEp (s : State) (n : Chan) (k : Nat) : BitVec 20 := s.lo (0x80 * n.val + k)

/-- A device health endpoint (Table 11-5), GOOD in every mode other than LOAD. -/
def putHealth (s : State) (o : Nat) (cls : BitVec 4) (v : W16) : State := epPut s (s.lo o) qGood cls v

/-- Entry `j` of the group map contains `a`. -/
def inEntry (e : GroupEntry) (a : BitVec 20) : Bool :=
  e.subBase.toNat ≤ a.toNat && a.toNat < e.subBase.toNat + 2 ^ e.subLog2.toNat

def inWindow (g : GroupSec) (a : BitVec 20) : Bool :=
  g.winBase.toNat ≤ a.toNat && a.toNat < g.winBase.toNat + 2 ^ g.winLog2.toNat

/-- The group map entry containing `a`, with its index. -/
def findEntry (g : GroupSec) (a : BitVec 20) : Option (Nat × GroupEntry) :=
  ((List.range g.entries.length).zip g.entries).find? fun e => inEntry e.2 a

/-- Where a write or fence request for `a` goes (Table 11-6). `up` says that it arrived on the upstream port. -/
inductive Route where
  | loc
  | down (k : PortIx) (j : Nat)
  | up (k : PortIx)
  | refused (reason : BitVec 3)
  deriving DecidableEq, Repr

/-- REASON codes (Table 11-15). -/
def rsMode : BitVec 3 := 1
def rsUnassigned : BitVec 3 := 2
def rsClass : BitVec 3 := 3
def rsNoRoute : BitVec 3 := 4
def rsTimeout : BitVec 3 := 5
def rsLoop : BitVec 3 := 6
def rsBusy : BitVec 3 := 7

/-- Table 11-6, first row that holds. A port that is down, and an entry outside its neighbour's window, which is treated as if its port
were down, give NO_ROUTE (R301). -/
def State.route (s : State) (a : BitVec 20) (fromUp : Bool) : Route :=
  if s.isLocal a then .loc
  else match findEntry s.group a with
    | some (j, e) =>
      if s.img.entry[(BitVec.ofNat 8 j).toFin].outside || s.port[e.port].state ≠ .up then .refused rsNoRoute else .down e.port j
    | none =>
      if inWindow s.group a then .refused rsUnassigned
      else match s.group.upport with
        | some k => if fromUp then .refused rsLoop else if s.port[k].state = .up then .up k else .refused rsNoRoute
        | none => .refused rsNoRoute

/-- The rules of the active generation. -/
def State.rules (s : State) : List RuleRec := match s.boot.gen with | some g => g.rules | none => []

/-- State of rule `i`. -/
def State.ruleMem (s : State) (i : Nat) : RuleMem := s.rul.mem.getD i {}
def State.modRule (s : State) (i : Nat) (f : RuleMem → RuleMem) : State :=
  { s with rul := { s.rul with mem := s.rul.mem.modify i f } }

/-- An occurrence of Table 12-9 (R340): RUL.FAULT, its count, and event 96. -/
def ruleFault (s : State) (i : Nat) (cause : BitVec 3) : State :=
  let s1 := { s with rul := { s.rul with faults := satInc s.rul.faults, faultIx := BitVec.ofNat 14 i, faultCause := cause } }
  raise s1 srcRuleFault (rulFaultWord s1.rul)

/-- A mode-3 write to `a` was refused or failed: BUSY is issued again at the next cycle, any other every second (R324, Table 12-9). [log 84: DEDUCED, unsafe] -/
def ruleRefused (s : State) (a : BitVec 20) (reason : BitVec 3) : State :=
  match s.rules.findIdx? fun r => r.outMode = 3 && r.out = a with
  | none => s
  | some i =>
    let m := s.ruleMem i
    if reason = rsBusy then
      let s1 := s.modRule i fun x => { x with ended := reason, busyRun := x.busyRun + 1 }
      if m.busyRun + 1 = 10 then ruleFault s1 i 3 else s1
    else
      let s1 := s.modRule i fun x => { x with ended := reason, busyRun := 0, failed := true }
      if m.failed then s1 else ruleFault s1 i 2

/-- A refused or failed write recorded at its origin (R308); `src` 1 is a rule. [log 78: DEDUCED, unsafe] -/
def recordRefusal (s : State) (a : BitVec 20) (reason : BitVec 3) (src : BitVec 2) : State :=
  let s1 := { s with img := { s.img with refused := satInc s.img.refused, lastAddr := a, lastReason := reason, lastSrc := src } }
  if src = 1 then ruleRefused s1 a reason else s1

/-- The word a reader sees at `a` (R296, R300): unserved addresses and every address in LOAD read UNASSIGNED. -/
def State.readEp (s : State) (a : BitVec 20) : W32 :=
  if s.m.mode = .load then epUnassigned
  else if s.isLocal a || (findEntry s.group a).isSome then s.ep a
  else epUnassigned

/-! ## Link requests -/

/-- A frame queued on port `k`. -/
def sendOn (s : State) (k : PortIx) (f : TxFrame) : State := s.modPort k fun p => portQueue p f

/-- Budget of a request at its origin: 200 ms in 10 µs (R366). -/
def fullBudget : W16 := 20000

/-- A request queued on port `k` with a tag unique on that port, and the record its response is matched to (R365). -/
def sendRequest (s : State) (k : PortIx) (msg : LinkMsg) (kind : RequestKind) (budget : W16) (since : W64) : State :=
  let tag := s.port[k].nextTag
  let s1 := s.modPort k fun p => { portQueue p { msg := msg, tag := tag, budget := budget, since := since } with nextTag := tag + 1 }
  { s1 with img := { s1.img with
      out := s1.img.out ++ [⟨k, tag, kind, s.tick, s1.img.nextId⟩], nextId := s1.img.nextId + 1 } }

/-- A response queued on port `k` to the request with `tag`. -/
def sendResponse (s : State) (k : PortIx) (msg : LinkMsg) (tag : W16) : State := sendOn s k { msg := msg, tag := tag, since := s.tick }

/-! ## Mailbox (18) -/

/-- Result codes (Table 18-5). -/
def rcOk : Byte := 0
def rcBusy : Byte := 1
def rcInvalid : Byte := 2
def rcWrongMode : Byte := 3
def rcVersion : Byte := 4
def rcFlash : Byte := 5
def rcUnstable : Byte := 6
def rcLimit : Byte := 7
def rcCause : Byte := 8
def rcTimeout : Byte := 9
def rcUnknown : Byte := 0xA

/-- The command of slot `i` ends with `result` and `detail`. -/
def mbxEnd (s : State) (i : SlotIx) (result : Byte) (detail : W32) : State :=
  s.modSlot i fun m => { m with state := .done, result := result, detail := detail }

/-- RETURN word `j` of slot `i`. -/
def mbxReturn (s : State) (i : SlotIx) (j : Fin 28) (v : W32) : State := s.modSlot i fun m => { m with ret := setAt m.ret j v }

/-- Argument `j` taken at the start of slot `i`'s command. -/
def State.arg (s : State) (i : SlotIx) (j : Fin 32) : W32 := s.mbx.slot[i].taken[j]

/-- The start of a command by a write of the slot's CMD word (R491): the slot's RETURN words and DETAIL become 0, it runs with the
arguments as they stand. [log 129: DEDUCED, unsafe] -/
def mbxStart (s : State) (i : SlotIx) (code tag : W16) : State :=
  s.modSlot i fun m => { m with code := code, cmdTag := tag, state := .running, result := 0, tag := tag, detail := 0,
                                ret := Vector.replicate 28 0, taken := m.arg }

/-- Data bytes of a held frame. -/
def HeldFrame.bytes : HeldFrame → Nat
  | .write _ _ ws => 4 * ws.length
  | .fence _ => 2

/-- The host-frame buffer has room for a frame of `n` data bytes (R449). -/
def State.holdRoom (s : State) (n : Nat) : Bool := s.held.length < 64 && (s.held.map HeldFrame.bytes).sum + n ≤ 98304

/-- A host write in force when the executive serves it: held during a handover or debug halt, without effect while no
executive runs, and acting at once otherwise (R425, R448). [log 113: DESIGN CHOICE, unsafe] -/
def whenServed (s : State) (h : HeldFrame) (f : State → State) : State :=
  if s.execRuns then f s
  else if s.m.run = .running && s.holdRoom h.bytes then { s with held := s.held ++ [h] }
  else s

/-- Host address of slot `i`'s CMD word (R499). -/
def cmdAddr (i : SlotIx) : BitVec 24 := 0x440000 + BitVec.ofNat 24 (0x100 * i.val)

/-- A command written to slot `i` and taken (R491, R493): discarded and counted while the slot runs; otherwise started, ended with
WRONG_MODE when the mode does not accept it, with INVALID and the index of the argument word when a bit not named in an argument is set
(R494), and carried out otherwise. `masks` lists the arguments and their named bits. [log 129: DEDUCED, unsafe] -/
def mbxRun (s : State) (i : SlotIx) (code tag : W16) (accepted : Mode → Bool) (masks : List (Fin 32 × W32))
    (f : State → State) : State :=
  if s.mbx.slot[i].state = .running then { s with mbx := { s.mbx with rejected := satInc s.mbx.rejected } }
  else
    let s1 := mbxStart s i code tag
    if !accepted s.m.mode then mbxEnd s1 i rcWrongMode (put 0 s.m.mode.code)
    else match masks.find? fun m => s1.arg i m.1 &&& ~~~m.2 ≠ 0 with
      | some m => mbxEnd s1 i rcInvalid (putN 0 32 m.1.val)
      | none => f s1

/-- A mailbox command as the host writes it: `run` carries it out when the executive serves it. [log 113: DESIGN CHOICE, unsafe] -/
def mbxServed (s : State) (i : SlotIx) (code tag : W16) (run : State → SlotIx → W16 → State) : State :=
  whenServed s (.write 0 (cmdAddr i) [((cmdAddr i).toNat, put 0 code ||| put 16 tag)]) fun s => run s i tag

/-- The modes a command is accepted in (Table 18-6). [log 1: DESIGN CHOICE, unsafe] -/
def inAll (_ : Mode) : Bool := true
def notStop (m : Mode) : Bool := m ≠ .stop
def served (m : Mode) : Bool := m = .trim || m = .run || m = .reduced || m = .safe

end Sys2Proof.Machine
end

