-- ==== Sys2Proof/Machine/ChanOps.lean ====
section
/-!
DEFINITION. Shared operations over a channel: its life state, the quality of its endpoints and the evaluation of its lamp (04 R112, R115;
05 R123, R124, R132, R145).
-/
namespace Sys2Proof.Machine

/-- sat16 (R12). -/
def sat16 (v : Int) : W16 := BitVec.ofInt 16 (satSigned 16 v)

/-! ## Bits of CHn.WIRE and CHn.PROT -/
def wMiswire : Nat := 0
def wReverse : Nat := 1
def wBackfeed : Nat := 2
def wOpen : Nat := 3
def wShort : Nat := 4
def wBreak : Nat := 5
def wLeak : Nat := 6
def wSink : Nat := 7
def wImbal : Nat := 8
def wSense : Nat := 9
def wBlock : Nat := 10
def pOc : Nat := 0
def pShort : Nat := 1
def pBackfeed : Nat := 2
def pInLimit : Nat := 3
def pClamp : Nat := 4
def pThDt : Nat := 5
def pThAbs : Nat := 6
def pFlood : Nat := 7
def pGovRef : Nat := 8
def pShed : Nat := 9

/-- Bit `i` of a field of any width set or cleared. -/
def withBit {n : Nat} (w : BitVec n) (i : Nat) (b : Bool) : BitVec n :=
  if b then w ||| (1#n <<< i) else w &&& ~~~(1#n <<< i)

/-- A live wiring bit; a live bit that sets also sets the latched bit (R119). Bit 10 has no latch of its own. -/
def setWire (w : ChanWire) (i : Nat) (b : Bool) : ChanWire :=
  { w with wire := withBit w.wire i b,
           wireLat := if b && !bitAt w.wire i && i ≠ wBlock then withBit w.wireLat i true else w.wireLat }

/-- A live protection bit; a live bit that sets also sets the latched bit (R169). FLOOD's latch means that the flood limit regulated. -/
def setProt (p : ChanProt) (i : Nat) (b : Bool) : ChanProt :=
  { p with live := withBit p.live i b, lat := if b && !bitAt p.live i && i ≠ pFlood then withBit p.lat i true else p.lat }

/-! ## Life and endpoint quality -/

/-- The field die is absent or at its power-on default (R60). -/
def State.fieldDefault (s : State) : Bool := s.bw.absent || s.fd.ident.isNone

/-- LIFE of channel `n`: the highest state of Table 4-7 whose condition holds. -/
def lifeOf (s : State) (n : Chan) : Life :=
  let c := s.ch[n]
  if s.fieldDefault || c.replacing then .default
  else if c.retired then .retired
  else if c.held || (hasBlocking c.kind && (bitAt c.w.wire wMiswire || bitAt c.w.wire wReverse)) then .isolated
  else if c.safeApp && s.m.mode ≠ .trim then .safeApplied
  else if c.roleOf.isSome then .standbyMapped
  else if s.isStandby n then .standbyIdle
  else if c.setl then .settling
  else .active

/-- A field→logic lane whose loss marks the channel endpoints is down, or the field die is absent (Table 1-5, R85). -/
def State.chanNoComm (s : State) : Bool := s.bw.absent || !s.bw.f2l1Up

/-- Quality of an endpoint other than COMMAND and HEALTH by LIFE (Table 4-10); `analogue` marks CURRENT, VOLTAGE and TJ, `diFault` a live
fault of Table 4-3 on a DI's STATE. -/
def qualOf (s : State) (n : Chan) (analogue diFault : Bool) : BitVec 4 :=
  if s.chanNoComm then qNoComm
  else match s.ch[n].life with
    | .default => qNoComm
    | .retired => qRetired
    | .isolated => qFault
    | _ => if diFault then qFault else if analogue && s.ch[n].setl then qSettling else qGood

/-- Quality of HEALTH and the normal quality of COMMAND (Table 4-10). -/
def qualCmd (s : State) (n : Chan) : BitVec 4 := if s.chanNoComm || s.ch[n].life = .default then qNoComm else qGood

/-- A live fault of Table 4-3. -/
def diFault (w : ChanWire) : Bool := bitAt w.wire wBreak || bitAt w.wire wLeak || bitAt w.wire wSink

/-- The HEALTH endpoint: LIFE and WIRE[9:0] (Table 4-9). -/
def putChanHealth (s : State) (n : Chan) : State :=
  let c := s.ch[n]
  epPut s (s.chEp n 6) (qualCmd s n) 6 (c.life.code.setWidth 16 ||| ((c.w.wire.setWidth 10).setWidth 16 <<< 3))

/-- The STATE endpoint of a DO, DO-PAIR or DI (Table 4-9). -/
def putChanState (s : State) (n : Chan) : State :=
  let c := s.ch[n]
  if c.kind = kindDO || c.kind = kindPair then epPut s (s.chEp n 4) (qualOf s n false false) 0 (if c.out then 1 else 0)
  else if c.kind = kindDI then epPut s (s.chEp n 4) (qualOf s n false (diFault c.w)) 0 (if c.w.diState then 1 else 0)
  else s

/-! ## Lamps -/

/-- A switch held off by a protection latch, by a refusal of R105, or by turn-on refusal of R83 (rank 3). -/
def heldOff (s : State) (n : Chan) : Bool :=
  let c := s.ch[n]
  (List.range 7).any (fun i => i ≠ pInLimit && bitAt c.prot.live i)
  || bitAt c.w.wire wReverse || bitAt c.w.wire wBackfeed || (s.m.band = 2 && !c.out)

/-- The evidence of a pulse or estimate taken at `t` is no older than HOLD_S. -/
def fresh (s : State) (n : Chan) (t : Option W64) : Bool :=
  match t with
  | some t => s.since t ≤ secTicks (pHoldS (s.crec n))
  | none => false

/-- The reference or a SAR converter is at fault, so lamps on scanned channels are UNPROVEN (Table 1-7, Table 8-3, R217). -/
def measureFault (s : State) : Bool := s.conv.refFault || !s.conv.refReady || s.conv.sarI || s.conv.sarV

/-- The instantaneous state with the rank of Table 5-2 that gives it, first match. -/
def lampRank (s : State) (n : Chan) : Nat × Lamp :=
  let c := s.ch[n]
  let r := s.crec n
  let p := c.p
  if c.retired then (1, .retired)
  else if s.m.mode = .load || s.m.mode = .stop || c.life = .default || !s.bw.f2l0Up || !s.bw.f2l1Up || !pProveEn r then (2, .unproven)
  else if p.cmdLit then
    if heldOff s n then (3, .fault)
    else if p.flood || p.win = .notArmed then (5, .unproven)
    else if p.win = .belowOpen then (6, .darkUnexpected)
    else if p.pcFail ≠ 0 || measureFault s then (7, .unproven)
    else if p.win = .belowLow then (8, .litPartial)
    else if !pSndEn r then (9, .litProven)
    else if !p.estValid || p.noSig || !fresh s n p.estTick || p.sigHigh then (10, .unproven)
    else match p.lowered with
      | some l => (11, l)
      | none => (11, if p.strings = 0 then .darkUnexpected else if p.strings.toNat < (pNstr r).toNat then .litPartial else .litProven)
  else
    if p.phDet || p.agreed = .shortSupply then (4, .litUnexpected)
    else if p.pcFail ≠ 0 || measureFault s then (7, .unproven)
    else if !pOffEn r || p.phSupp || p.agreed = .none || !fresh s n p.agreeTick then (12, .unproven)
    else if p.agreed = .open then (13, .fault)
    else (14, .darkProven)

/-- Severity order of R124, most severe highest. -/
def severity : Lamp → Nat
  | .retired => 7 | .fault => 6 | .litUnexpected => 5 | .darkUnexpected => 4 | .litPartial => 3 | .unproven => 2
  | .litProven => 1 | .darkProven => 0

/-- The character the channel runs, if it runs one. -/
def runningChar (c : FdChan) : Option (BitVec 6) :=
  match c.safeOn, c.safe, c.cmd with
  | true, .character k, _ => some k
  | true, .hold, .character k => some k
  | false, _, .character k => some k
  | _, _, _ => none

/-- The channel is commanded to run a character. -/
def runsChar (c : Channel) : Bool := match c.cmd with | .character _ => true | _ => false

/-- The verdicts of a running character after a new instantaneous state (R124): a lit verdict at ranks 3, 6, 8 to 11, a dark one at ranks
4, 12 to 14; rank 12 for want of agreeing pulses alone is none. They start anew with each character the field die starts. [log 47: DEDUCED, unsafe] -/
def newVerdicts (s : State) (n : Chan) (rank : Nat) (l : Lamp) (p : ChanProve) : ChanProve :=
  let k := runningChar s.fd.ch[n]
  let p := if p.verdictOf = k then p else { p with verdictOf := k, litVerdict := none, darkVerdict := none }
  if k.isNone then p
  else if p.cmdLit then
    if rank = 3 || rank = 6 || (8 ≤ rank && rank ≤ 11) then { p with litVerdict := some l } else p
  else if rank = 4 || rank = 13 || rank = 14 || (rank = 12 && (!pOffEn (s.crec n) || p.phSupp || p.agreed ≠ .none)) then
    { p with darkVerdict := some l }
  else p

/-- The published state (R124). [log 52: DEDUCED, unsafe] -/
def published (rank : Nat) (l : Lamp) (p : ChanProve) : Lamp :=
  if rank ≤ 2 || p.verdictOf.isNone then l
  else match p.litVerdict, p.darkVerdict with
    | some a, some b => if severity a ≥ severity b then a else b
    | some a, none => a
    | none, some b => b
    | none, none => .unproven

/-- PLAT and PCNT on reaching a state (Tables 5-13, 5-17). -/
def lampCounts (p : ChanProve) (old new : Lamp) (rank : Nat) : ChanProve :=
  if old = new then p
  else match new with
    | .darkUnexpected => { p with plat := withBit p.plat 0 true, cntDark := satInc p.cntDark }
    | .litUnexpected => { p with plat := withBit p.plat 1 true, cntLit := satInc p.cntLit }
    | .litPartial => { p with plat := withBit p.plat 2 true, cntPartial := satInc p.cntPartial }
    | .fault => if rank = 13 then { p with plat := withBit p.plat 3 true } else p
    | _ => p

/-- Phase of a wheel: bits [63:32] of its accumulator (R266). -/
def phaseOf (acc : W64) : W32 := field acc 32 32

/-- The wheel that times channel `n`'s running character, with its old library until the changeover (R281, R287). -/
def charWheel (s : State) (n : Chan) : Option WheelIx :=
  match s.ch[n].cmd with
  | .character k => match s.ch[n].oldChar with
    | some o => some o.wheel
    | none => match s.boot.gen with
      | some g => (findChar g.chars k).map (·.wheel)
      | none => none
  | _ => none

/-- The command in force on channel `n`; a character is taken from the old library while the channel's changeover waits (R287). -/
def setCmd (s : State) (n : Chan) (cmd : ChanCmd) : State := s.modCh n fun c =>
  { c with cmd := cmd, oldChar := match cmd, c.oldChar with | .character k, some _ => findChar s.boot.oldChars k | _, _ => none }

/-- UNCERTAIN_HOLDOVER in place of GOOD and GOOD_SUBSTITUTED on an endpoint timed by wheel `w` (R281). -/
def timedBy (s : State) (w : Option WheelIx) (q : BitVec 4) : BitVec 4 :=
  match w with
  | some w => if (q = qGood || q = qSubst) && s.wheel[w].uncert then qHoldover else q
  | none => q

/-- Quality of the LAMP endpoint: Table 4-10; a mapped primary shows its standby's state as substituted (R107). -/
def lampQual (s : State) (n : Chan) : BitVec 4 :=
  match s.ch[n].map with
  | some m => let q := qualOf s m false false; timedBy s (charWheel s m) (if q = qGood then qSubst else q)
  | none => timedBy s (charWheel s n) (qualOf s n false false)

/-- The LAMP endpoint of `n` shows its published state, or its standby's while its role is on one (R107). -/
def lampShown (s : State) (n : Chan) : Lamp := match s.ch[n].map with
  | some m => s.ch[m].p.pub
  | none => s.ch[n].p.pub

/-- The LAMP endpoint written; a change of its value raises event 4n + 0 with the word as DETAIL (R145). -/
def putLamp (s : State) (n : Chan) : State :=
  if s.ch[n].kind ≠ kindDO then s
  else
    let a := s.chEp n 1
    let old := epValue (s.ep a)
    let v := (lampShown s n).code.setWidth 16
    let s1 := epPut s a (lampQual s n) 4 v
    if old = v || !s.votes then s1 else raise s1 (chanSrc n 0) (s1.ep a)

/-- The PROVING and OFFLOAD endpoints (Table 5-11); before any path check has passed the age reads 255. [log 147: DEDUCED, unsafe] -/
def putProving (s : State) (n : Chan) : State :=
  let c := s.ch[n]
  let p := c.p
  if c.kind ≠ kindDO || !pProveEn (s.crec n) then s
  else
    let age : BitVec 8 := match p.pcTick with | some t => satNat 8 (s.since t / secTicks 1) | none => 255
    let v : W32 := put 0 p.inst.code ||| putB 3 p.pcOk ||| putB 4 p.noSig ||| putB 5 p.sigHigh ||| putB 6 p.flood ||| putB 7 p.ebbHold
      ||| put 8 age
    let s1 := epPut s (s.chEp n 11) (qualOf s n false false) 6 (v.setWidth 16)
    if pOffEn (s.crec n) then
      let q := (divRound p.rload.toNat 4).toNat
      let r4 : BitVec 12 := if p.rload = 0xFFFF then 0xFFF else if q > 0xFFE then 0xFFE else BitVec.ofNat 12 q
      let w : W32 := put 0 p.offCls.code ||| putB 2 p.phSupp ||| putB 3 p.driven ||| put 4 r4
      epPut s1 (s.chEp n 10) (qualOf s n false false) 6 (w.setWidth 16)
    else s1

/-- Bit n of health endpoint LAMPS is set while LAMP reads 2, 3, 4 or 6 (Table 11-5). -/
def lampsBits (s : State) : W16 :=
  (List.finRange 16).foldl (fun a n =>
    if s.ch[n].kind = kindDO && (let l := lampShown s n; l = .litPartial || l = .darkUnexpected || l = .litUnexpected || l = .fault)
    then a ||| (1#16 <<< n.val) else a) 0

def retiredBits (s : State) : W16 :=
  (List.finRange 16).foldl (fun a n => if s.ch[n].retired then a ||| (1#16 <<< n.val) else a) 0

/-- The lamp of channel `n` evaluated: instantaneous state, verdicts, published state, counts, endpoints and event (R123, R124, R145). [log 52: DEDUCED, unsafe] -/
def evalLamp (s : State) (n : Chan) : State :=
  let c := s.ch[n]
  if c.kind ≠ kindDO then s.modCh n fun c => { c with p := { c.p with ebbHold := false } }
  else
    let (rank, l) := lampRank s n
    let p1 := lampCounts c.p c.p.inst l rank
    let hold := s.bw.ebb && (rank = 11 || rank = 13 || rank = 14)
    let p2 := newVerdicts s n rank l { p1 with inst := l, ebbHold := hold }
    let pub := published rank l p2
    let s1 := s.modCh n fun c => { c with p := { p2 with pub := pub } }
    let s2 := putProving (putLamp s1 n) n
    let s3 := match c.roleOf with | some p => putLamp s2 p | none => s2
    putHealth s3 0xF0A 6 (lampsBits s3)

/-! ## Command endpoints -/

/-- Bits of CHn.LOOP (Table 7-12). -/
def lCompliance : Nat := 0
def lOver : Nat := 1
def lOpen : Nat := 2
def lAlarmAct : Nat := 3
def lAlarmFail : Nat := 4
def lAlmRisk : Nat := 5
def lSatClamp : Nat := 6
def lRefused : Nat := 7
def lNeLow : Nat := 8
def lNeHigh : Nat := 9
def lHartLate : Nat := 10

/-- A live loop bit; a live bit that sets also sets the latched bit (R207). -/
def setLoop (l : ChanLoop) (i : Nat) (b : Bool) : ChanLoop :=
  { l with live := withBit l.live i b, lat := if b && !bitAt l.live i then withBit l.lat i true else l.lat }

def State.modLoop (s : State) (n : Chan) (f : ChanLoop → ChanLoop) : State := { s with loop := modAt s.loop n f }

/-- COMPLIANCE or LOOP_OVER is live (R179). [log 41: DESIGN CHOICE, unsafe] -/
def loopFault (l : ChanLoop) : Bool := bitAt l.live lCompliance || bitAt l.live lOver

/-- Quality of COMMAND and AO_ALARM: BAD_FAULT for a refused form or under R179, else Table 4-10. -/
def cmdQual (s : State) (n : Chan) : BitVec 4 :=
  let q := qualCmd s n
  if q = qGood && (s.ch[n].cmdBad || loopFault s.loop[n]) then qFault else q
def alarmQual (s : State) (n : Chan) : BitVec 4 :=
  let q := qualOf s n false false
  let l := s.loop[n]
  if q = qGood && (l.alarmBad || (bitAt l.live lAlarmAct && loopFault l)) then qFault else q

/-- The HART_LIVE endpoint (Table 7-7). -/
def putHartLive (s : State) (n : Chan) : State :=
  if s.ch[n].kind = kindAII && hartEn (s.crec n) then epPut s (s.chEp n 0x23) (qualOf s n false false) 6 (liveBits s.loop[n]) else s

/-- The qualities of COMMAND and AO_ALARM follow the channel; LOOPSTAT follows CHn.LOOP, and HART_LIVE the devices (Table 7-7). -/
def putCommands (s : State) (n : Chan) : State :=
  let k := s.ch[n].kind
  let s1 := if k = kindDO || isAO k then epPut s (s.chEp n 0) (cmdQual s n) 5 (epValue (s.ep (s.chEp n 0))) else s
  let s2 := if isAO k then epPut s1 (s.chEp n 0x20) (alarmQual s1 n) 5 (epValue (s1.ep (s.chEp n 0x20))) else s1
  putHartLive (if isAO k || k = kindAII then epPut s2 (s.chEp n 0x22) (qualOf s2 n false false) 6 (s2.loop[n].live.setWidth 16) else s2) n

/-- NE43_LOW and NE43_HIGH of channel `n` (R185). -/
def putNe43 (s : State) (n : Chan) (lo hi : Bool) : State :=
  let s1 := s.modLoop n fun l => setLoop (setLoop l lNeLow lo) lNeHigh hi
  if s1.loop[n].live = s.loop[n].live then s1 else putCommands s1 n

/-- LIFE recomputed with the endpoints that follow it. -/
def refresh (s : State) (n : Chan) : State :=
  let s1 := s.modCh n fun c => { c with life := lifeOf s n }
  evalLamp (putCommands (putChanState (putChanHealth s1 n) n) n) n

/-- Every channel refreshed. -/
def refreshAll (s : State) : State := (List.finRange 16).foldl refresh s

/-- The valid signature of channel `n` (R134). [log 51: DEDUCED, unsafe] -/
def validSig (s : State) (n : Chan) : Option Signature :=
  match s.ch[n].p.sig with
  | some g =>
    let r := s.crec n
    if 0 < g.g.toInt && g.nstr.toNat = (pNstr r).toNat && g.dither.toNat = pDither r && g.period.toNat = pPeriod r && g.pair = s.isMaster n then some g else none
  | none => none

/-- NO_SIG follows the signature (R134, R144). [log 51: DEDUCED, unsafe] -/
def putNoSig (s : State) (n : Chan) : State :=
  s.modCh n fun c => { c with p := { c.p with noSig := c.kind = kindDO && pProveEn (s.crec n) && pSndEn (s.crec n) && (validSig s n).isNone } }

/-! ## Correlation -/

/-- The correlation accumulation of channel `n` discarded (R131); an enrolment in progress ends with UNSTABLE (R133). [log 47: DEDUCED, unsafe; log 48: DESIGN CHOICE, safe] -/
def discardAcc (s : State) (n : Chan) : State :=
  let s1 := s.modCh n fun c => { c with acc := [], accN := 0 }
  match s1.enrol[n] with
  | some e =>
    -- Table 18-5 states no spread for a discard
    let (v, s2) := s1.draw
    mbxEnd { s2 with enrol := setAt s2.enrol n none } e.slot rcUnstable v
  | none => s1

/-- The estimate of channel `n` dropped. -/
def dropEst (s : State) (n : Chan) : State :=
  s.modCh n fun c => { c with p := { c.p with estValid := false, estTick := none, fullRun := 0, lowered := none } }

end Sys2Proof.Machine
end

