-- ==== Sys2Proof/Machine/HartOps.lean ====
section
/-!
DEFINITION. Shared operations of HART (07 R195–R204): mapped variables, request frames, the ends of transactions, achieved periods.
-/
namespace Sys2Proof.Machine

/-! ## HART variables (R201, R202) -/

/-- A binary32 value as a fraction; none for NaN and infinities. -/
def f32Frac (w : W32) : Option (Int × Int) :=
  let e := (field w 23 8 : BitVec 8).toNat
  let f := (field w 0 23 : BitVec 23).toNat
  let sg : Int := if bitAt w 31 then -1 else 1
  if e = 255 then none
  else
    let m : Nat := if e = 0 then f else f + 2 ^ 23
    let x := if e = 0 then 1 else e
    if x ≥ 150 then some (sg * (m * 2 ^ (x - 150) : Nat), 1) else some (sg * m, (2 ^ (150 - x) : Nat))

/-- round(x · 10^e) of R201. -/
def hartScale (q : Int × Int) (e : Int) : Int :=
  if e ≥ 0 then divRound (q.1 * 10 ^ e.toNat) q.2 else divRound q.1 (q.2 * 10 ^ (-e).toNat)

/-- VALUE of a variable, and whether order 4 of R202 makes it BAD_FAULT. -/
def hartValue (r : ChanRecord) (d : HartDev) (v : BitVec 2) : W16 × Bool :=
  let bad := bitAt d.fds 7 || (if v = 0 then bitAt d.fds 0 else bitAt d.fds 1)
  match (d.vars[v.toFin]).bind f32Frac with
  | none => (0, true)
  | some q => let y := hartScale q (hartExp r v); (sat16 y, bad || satSignedFlag 16 y)

/-- No HART traffic: slack hold or STOP, or no modem in service. -/
def hartStopped (s : State) : Bool :=
  s.m.mode = .stop || s.fd.slack || s.chanNoComm || !((List.finRange 4).any fun m => s.hart.modem[m].ok)

/-- A mapped endpoint (R202). The value is kept while the device is absent. -/
def putHart (s : State) (e : HartMap) : State :=
  let a := s.lo e.ep.toNat
  let d := s.loop[e.ch].dev[e.poll.toFin]
  let keep := epValue (s.ep a)
  if s.ch[e.ch].retired then epPut s a qRetired 2 keep
  else if s.ch[e.ch].life = .isolated || !hartEn (s.crec e.ch) then epPut s a qFault 2 keep
  else if !d.live || hartStopped s then epPut s a qNoComm 2 keep
  else match d.lastRead with
    | none => epPut s a qNoComm 2 keep
    | some t =>
      let x := hartValue (s.crec e.ch) d e.var
      epPut s a (if x.2 then qFault else if s.since t > 3 * hartPollPer (s.crec e.ch) then qStale else qGood) 2 x.1

def putHarts (s : State) : State :=
  match s.boot.gen with
  | some g => g.hart.foldl putHart s
  | none => s

/-- The mapped endpoints and HART_LIVE of channel `n` follow its devices. [log 41: DESIGN CHOICE, unsafe] -/
def putHartChan (s : State) (n : Chan) : State :=
  match s.boot.gen with
  | some g => (g.hart.filter fun e => e.ch = n).foldl putHart (putHartLive s n)
  | none => s

/-! ## Request frames (R195) -/

/-- Longitudinal parity. -/
def hartParity (bs : List Byte) : Byte := bs.foldl (· ^^^ ·) 0

/-- The characters of a request: preambles, delimiter, address, command, byte count, data and check byte. Command 0 goes in a short frame at the
polling address, every other command in a long frame with the unique address; none while that is not known. [log 62: PRESUMED, unsafe] -/
def hartFrame (r : ChanRecord) (d : HartDev) (addr : BitVec 4) (cmd : Byte) (data : List Byte) : Option (List Byte) :=
  let m : Byte := if hartSecondary r then 0 else 0x80
  let head : Option (List Byte) :=
    if cmd = 0 then some [0x02, m ||| addr.setWidth 8]
    else d.unique.map fun u => [0x82, m ||| (field u 32 6 : BitVec 6).setWidth 8, field u 24 8, field u 16 8, field u 8 8, field u 0 8]
  head.map fun h =>
    let body := h ++ [cmd, BitVec.ofNat 8 data.length] ++ data
    List.replicate (hartPreamble r) 0xFF ++ body ++ [hartParity body]

/-- The frame of a ready request. -/
def reqFrame (s : State) : HartReq → Option (List Byte)
  | .poll n a _ => hartFrame (s.crec n) s.loop[n].dev[a.toFin] a 3 []
  | .search n a _ => hartFrame (s.crec n) s.loop[n].dev[a.toFin] a 0 []
  | .pass n a cmd data _ => hartFrame (s.crec n) s.loop[n].dev[a.toFin] a cmd data

/-! ## Requests -/

/-- The device at polling address `a` of channel `n` is mapped (R201). -/
def hartMapped (s : State) (n : Chan) (a : BitVec 4) : Bool :=
  match s.boot.gen with
  | some g => g.hart.any fun e => e.ch = n && e.poll = a
  | none => false

def modDev (s : State) (n : Chan) (a : BitVec 4) (f : HartDev → HartDev) : State :=
  s.modLoop n fun l => { l with dev := modAt l.dev a.toFin f }

/-- Due time of a poll or search. -/
def HartReq.due : HartReq → W64
  | .poll _ _ t | .search _ _ t => t
  | .pass _ _ _ _ _ => 0

/-- A cyclic request put in order: earliest due time first, lower channel first at equal due time (R197). [log 63: DEDUCED, unsafe] -/
def insertPoll (r : HartReq) : List HartReq → List HartReq
  | [] => [r]
  | x :: l => if r.due.toNat < x.due.toNat || (r.due = x.due && r.chan.val < x.chan.val) then r :: x :: l else x :: insertPoll r l

/-- A cyclic request made ready, once. -/
def readyPoll (s : State) (r : HartReq) : State :=
  if s.hart.polls.contains r then s else { s with hart := { s.hart with polls := insertPoll r s.hart.polls } }

/-! ## Achieved periods (R199) -/

/-- The mean of the achieved periods of `d` exceeds `k` half poll periods `per`; false before its second poll. -/
def periodOver (d : HartDev) (k per : Nat) : Bool := k * per * d.periods.length < 2 * d.periods.sum

/-- HARTPER's value of a device, in 10 ms. -/
def period10ms (d : HartDev) : Nat := if d.periods.isEmpty then 0 else (divRound d.periods.sum (100000 * d.periods.length)).toNat

/-- HARTPER and HART_LATE follow the averages of the mapped devices of channel `n` (R199). -/
def hartPeriods (s : State) (n : Chan) : State :=
  let ds := ((List.finRange 16).filter fun a => hartMapped s n (BitVec.ofFin a)).map fun a => s.loop[n].dev[a]
  let per := hartPollPer (s.crec n)
  let late := ds.any fun d => d.periods.length = 10 && periodOver d 3 per
  let ok := ds.all fun d => !periodOver d 2 per
  let s1 := s.modLoop n fun l =>
    { setLoop l lHartLate (late || (bitAt l.live lHartLate && !ok)) with period := satNat 16 (ds.foldl (fun a d => max a (period10ms d)) 0) }
  if bitAt s.loop[n].live lHartLate = bitAt s1.loop[n].live lHartLate then s1 else putCommands s1 n

/-! ## Ends of transactions -/

/-- The modem is free again. -/
def modemFree (s : State) (modem : Fin 4) : State :=
  { s with hart := { s.hart with modem := modAt s.hart.modem modem fun m => { m with txn := none } } }

/-- A device that is to be sought again; its variables and the tick of its last read stand. -/
def HartDev.lost (d : HartDev) : HartDev := { d with live := false, periods := [], lastPoll := none }

/-- The device is absent (R198). -/
def hartAbsent (s : State) (n : Chan) (a : BitVec 4) : State :=
  if s.loop[n].dev[a.toFin].live then
    raiseMeasure (hartPeriods (putHartChan (modDev s n a HartDev.lost) n) n) n 7 a.toNat
  else s

/-- Every device of channel `n` is sought again with command 0. -/
def hartSeek (s : State) (n : Chan) : State :=
  hartPeriods (putHartChan (s.modLoop n fun l => { l with dev := l.dev.map HartDev.lost }) n) n

/-- A pass-through request ends without a valid response; after command 6 a search follows (R203). -/
def passTimeout (s : State) (r : HartReq) : State :=
  match r with
  | .pass n a cmd _ slot =>
    let s1 := mbxEnd s slot rcTimeout 0
    if cmd = 6 then readyPoll s1 (.search n a s.tick) else s1
  | _ => s

/-- A transaction ends with no attempt left. -/
def hartEnd (s : State) (modem : Fin 4) (t : HartTxn) : State :=
  match t.req with
  | .poll n a _ | .search n a _ => hartAbsent (modemFree s modem) n a
  | r => passTimeout (modemFree s modem) r

/-- A failed attempt counted (Table 7-7). -/
def hartErr (s : State) (n : Chan) : State := s.modLoop n fun l => { l with errs := l.errs + 1 }

/-- MISWIRE or the loop-path limit during a transaction of channel `n`: it fails without retry (Table 7-6). -/
def hartHit (s : State) (n : Chan) : State :=
  match modemOf s.hart n with
  | some m => match s.hart.modem[m].txn with
    | some t => hartEnd (hartErr s n) m t
    | none => s
  | none => s

/-- HART requests of channel `n` dropped: its pass-through ends with TIMEOUT (Table 7-6). -/
def hartAbandon (s : State) (n : Chan) : State :=
  let mine (r : HartReq) : Bool := r.chan = n
  let held := (s.hart.passes.filter mine) ++ (List.finRange 4).filterMap fun m => match s.hart.modem[m].txn with
    | some t => if mine t.req then some t.req else none
    | none => none
  let s1 := { s with hart := { s.hart with
    passes := s.hart.passes.filter fun r => !mine r, polls := s.hart.polls.filter fun r => !mine r,
    modem := s.hart.modem.map fun m => match m.txn with | some t => if mine t.req then { m with txn := none } else m | none => m } }
  held.foldl (fun a r => match r with | .pass _ _ _ _ i => mbxEnd a i rcTimeout 0 | _ => a) s1

/-- No modem is left in service: cyclic requests are dropped, and pass-through requests that wait end with TIMEOUT (R200, R203).
[log 152: DEDUCED, unsafe] -/
def hartHalt (s : State) : State :=
  let held := s.hart.passes
  putHarts (held.foldl passTimeout { s with hart := { s.hart with passes := [], polls := [] } })

end Sys2Proof.Machine
end

