-- ==== Sys2Proof/Machine/Image.lean ====
section
/-!
DEFINITION. The flash image (02): check values (R37), the boot descriptor (R38), slot headers (R40), the configuration copy's header and body
checks (R43–R46, Table 2-9) and the generation a copy decodes to (Table 2-8). A medium is read as a function from offsets to bytes.
-/
namespace Sys2Proof.Machine

/-! ## Reading -/

/-- A medium's bytes. -/
abbrev Medium := Nat → Byte

def rd8 (m : Medium) (a : Nat) : Nat := (m a).toNat
def rdN (m : Medium) (a n : Nat) : Nat := natLE ((List.range n).map fun i => m (a + i))
def rd16 (m : Medium) (a : Nat) : W16 := BitVec.ofNat 16 (rdN m a 2)
def rd32 (m : Medium) (a : Nat) : W32 := BitVec.ofNat 32 (rdN m a 4)
def rdBytes (m : Medium) (a n : Nat) : List Byte := (List.range n).map fun i => m (a + i)
def allZero (m : Medium) (a n : Nat) : Bool := (List.range n).all fun i => m (a + i) = 0

/-! ## Check values (R37) -/

/-- One bit shifted: polynomial 0x1EDC_6F41, reflected. -/
def crcBit (r : W32) : W32 := if r.getLsbD 0 then (r >>> 1) ^^^ 0x82F63B78#32 else r >>> 1

def crcBits (r : W32) : Nat → W32
  | 0 => r
  | n + 1 => crcBits (crcBit r) n

def crcByte (r : W32) (b : Byte) : W32 := crcBits (r ^^^ b.setWidth 32) 8

/-- CRC-32C with fold `f`. -/
def crc32c (f : W32) (bs : List Byte) : W32 := (bs.foldl crcByte (0xFFFFFFFF#32 ^^^ f)) ^^^ 0xFFFFFFFF#32

def crcOf (m : Medium) (f : W32) (a n : Nat) : W32 := crc32c f (rdBytes m a n)

/-! ## Boot descriptor and slots -/

/-- The descriptor copy at flash offset `a`, when valid (R38). -/
def bootDescAt (m : Medium) (copy1 : Bool) : Option BootDesc :=
  let a := if copy1 then 0x1000 else 0
  let flags := rd16 m (a + 6)
  let lanes := rd8 m (a + 0xE)
  let div := rd8 m (a + 0xF)
  if rd32 m a = 0x4442544B#32 && rd16 m (a + 4) = 1 && rd32 m (a + 0x3C) = crcOf m (BitVec.ofNat 32 a) a 0x3C
     && allZero m (a + 0x12) 42 && (field flags 3 13 : BitVec 13) = 0 && rd8 m (a + 0xC) ≤ 1 && rd8 m (a + 0xD) ≤ 1
     && (lanes = 1 || lanes = 2 || lanes = 4) && 1 ≤ div && div ≤ 8 && rd8 m (a + 0x11) ≤ 31 then
    some { copy1 := copy1, fallbackExec := bitAt flags 0, fallbackUcode := bitAt flags 1, mirrorB := bitAt flags 2, seq := rd32 m (a + 8),
           execSlot := rd8 m (a + 0xC) = 1, ucodeSlot := rd8 m (a + 0xD) = 1, loadLanes := m (a + 0xE), loadDiv := m (a + 0xF),
           readCmd := m (a + 0x10), dummy := m (a + 0x11) }
  else none

/-- R47: `b` is taken before `a` only when it is greater; an undefined comparison favours `a`, the copy at the lower offset. -/
def newer (a b : W32) : Bool := serialGt b a

/-- The descriptor in use (R38, R47). -/
def bootDesc (m : Medium) : Option BootDesc :=
  match bootDescAt m false, bootDescAt m true with
  | some a, some b => if newer a.seq b.seq then some b else some a
  | some a, none => some a
  | none, d => d

def execSlotBase (slot1 : Bool) : Nat := if slot1 then 0x110000 else 0x010000
def ucodeSlotBase (slot1 : Bool) : Nat := if slot1 then 0x220000 else 0x210000

/-- The header of a slot at `a`, when the slot is valid (R40). -/
def slotAt (m : Medium) (a : Nat) (ucode : Bool) : Option SlotHeader :=
  let len := rdN m (a + 8) 4
  if rd32 m a = (if ucode then 0x4355544B#32 else 0x5845544B#32) && rd32 m (a + 0xFC) = crcOf m 0 a 0xFC
     && 4 ≤ len && len ≤ (if ucode then 16384 else 1048320) && len % 4 = 0
     && rd32 m (a + 0x14) = crcOf m 0x100 (a + 0x100) len then
    some { version := rd16 m (a + 4), length := len, ucodeMin := rd16 m (a + 0xC), ucodeMax := rd16 m (a + 0xE),
           schemaMin := rd16 m (a + 0x10), schemaMax := rd16 m (a + 0x12), bodyCrc := rd32 m (a + 0x14) }
  else none

/-- The slot loaded: the named one, or the other under FALLBACK; with whether the fallback was used (R41). -/
def chooseSlot (m : Medium) (ucode named fallback : Bool) : Option (Bool × Bool × SlotHeader) :=
  let base := fun b => if ucode then ucodeSlotBase b else execSlotBase b
  match slotAt m (base named) ucode with
  | some h => some (named, false, h)
  | none =>
    if fallback then
      match slotAt m (base !named) ucode with
      | some h => some (!named, true, h)
      | none => none
    else none

/-- Inclusive ranges (R40, R55). -/
def schemaOk (h : SlotHeader) (schema : W16) : Bool := h.schemaMin.toNat ≤ schema.toNat && schema.toNat ≤ h.schemaMax.toNat
def ucodeOk (h : SlotHeader) (v : W16) : Bool := h.ucodeMin.toNat ≤ v.toNat && v.toNat ≤ h.ucodeMax.toNat

/-! ## Configuration copy -/

/-- A directory entry (Table 2-6). -/
structure DirEntry where
  id : Nat
  offset : Nat
  slen : Nat
  crc : W32
  deriving DecidableEq, Repr

/-- The directory of a copy at `b`, as many entries as NSECT says, at most 28. -/
def directory (m : Medium) (b : Nat) : List DirEntry :=
  (List.range (min 28 (rdN m (b + 0x10) 2))).map fun i =>
    let a := b + 0x20 + 16 * i
    ⟨rdN m a 2, rdN m (a + 4) 4, rdN m (a + 8) 4, rd32 m (a + 0xC)⟩

/-- Ascending OFFSET order without overlap, every section ending at or before LENGTH. -/
def orderOk (len : Nat) : List DirEntry → Bool
  | [] => true
  | [e] => e.offset + e.slen ≤ len
  | e :: f :: es => e.offset < f.offset && e.offset + e.slen ≤ f.offset && e.offset + e.slen ≤ len && orderOk len (f :: es)

/-- The copy's header is valid (R43). -/
def headerOk (m : Medium) (b : Nat) : Bool :=
  let len := rdN m (b + 0xC) 4
  let n := rdN m (b + 0x10) 2
  let d := directory m b
  rd32 m b = 0x4643544B#32 && rd32 m (b + 0x1FC) = crcOf m 0 b 0x1FC && rdN m (b + 6) 2 = 0x200 && rd32 m (b + 8) ≠ 0
  && 0x200 ≤ len && len ≤ 0x100000 && len % 4 = 0 && 1 ≤ n && n ≤ 28
  && (d.all fun e => e.id ≠ 0 && e.offset % 0x100 = 0 && 0x200 ≤ e.offset && e.slen % 4 = 0)
  && decide (d.map (·.id)).Nodup && orderOk len d

def copySeq (m : Medium) (b : Nat) : W32 := rd32 m (b + 8)
def copySchema (m : Medium) (b : Nat) : W16 := rd16 m (b + 4)
def copyHdrCrc (m : Medium) (b : Nat) : W32 := rd32 m (b + 0x1FC)
def copyLength (m : Medium) (b : Nat) : Nat := rdN m (b + 0xC) 4

/-- Start of section `id` in the copy at `b`. -/
def sectionAt (m : Medium) (b id : Nat) : Option Nat := ((directory m b).find? (·.id = id)).map fun e => b + e.offset

/-! ### Decoding (Table 2-8) -/

def decDevice (m : Medium) (a : Nat) : DeviceSec :=
  let fl := rd16 m (a + 6)
  { slackMs := rd16 m a, hostMaxwait := rd16 m (a + 2), budgetMw := rd16 m (a + 4), debugRun := bitAt fl 0, shed := bitAt fl 1,
    heatsink := bitAt fl 2, safeCount := m (a + 8), clkoutSel := field (m (a + 9)) 0 2, safeWindow := rd16 m (a + 0xA) }

def decChan (m : Medium) (a : Nat) : ChanRecord := { word := Vector.ofFn fun i => rd32 m (a + 4 * i.val) }

def decSafe (m : Medium) (a : Nat) : SafeState :=
  let w := rd32 m a
  match (field w 0 2 : BitVec 2).toNat with
  | 0 => .off | 1 => .on | 2 => .hold | _ => .character (field w 8 6)

def decPath (m : Medium) (a : Nat) : PathDesc :=
  { rank := m a, hb := m (a + 1), decim := rd16 m (a + 2), taps := m (a + 4), bank := rd8 m (a + 5) = 1, fade := rd16 m (a + 6),
    syncWheel := field (m (a + 8)) 0 2, syncPhase := rd32 m (a + 0xC) }

def decCoeffs (m : Medium) (a : Nat) : List (Nat × BitVec 24) :=
  (List.range 4096).filterMap fun i =>
    let c : BitVec 24 := field (rd32 m (a + 1024 + 4 * i)) 0 24
    if c = 0 then none else some (i, c)

def decChar (m : Medium) (a : Nat) : Character :=
  { wheel := (field (m (a + 1)) 0 2 : BitVec 2).toFin, charId := field (m (a + 2)) 0 6,
    edges := (List.range (min 16 (rd8 m a))).map fun e => ⟨rd32 m (a + 4 + 8 * e), rd8 m (a + 8 + 8 * e) = 1⟩ }

def decTide (m : Medium) (a : Nat) : TideCfg :=
  { periodUs := rd32 m a, ref := m (a + 4), refPort := (field (m (a + 5)) 0 2 : BitVec 2).toFin, mainsN := rd16 m (a + 6),
    slewPpm := rd16 m (a + 8), stepEn := rd8 m (a + 0xA) = 1, stepNs := rd32 m (a + 0xC), kp := rd32 m (a + 0x10), ki := rd32 m (a + 0x14) }

def decAspect (m : Medium) (a : Nat) : Aspect :=
  { chmask := rd16 m a, rank := m (a + 2), char := Vector.ofFn fun i => m (a + 4 + i.val), subst := rdBytes m (a + 20) 4 }

/-- `n` aspect groups from `a`, with the offset after them. -/
def decGroups (m : Medium) : Nat → Nat → List AspectGroup × Nat
  | 0, a => ([], a)
  | n + 1, a =>
    let k := rd8 m (a + 1)
    let g : AspectGroup := { groupId := field (m a) 0 6, cmdEp := field (rd32 m (a + 4)) 0 20,
                             aspects := (List.range k).map fun i => decAspect m (a + 8 + 24 * i) }
    let r := decGroups m n (a + 8 + 24 * k)
    (g :: r.1, r.2)

def decRule (m : Medium) (a : Nat) : RuleRec := ⟨rd32 m a, rd32 m (a + 4), rd32 m (a + 8), rd32 m (a + 12)⟩

def decGroup (m : Medium) (a : Nat) : GroupSec :=
  { localBase := field (rd32 m a) 0 20, winBase := field (rd32 m (a + 4)) 0 20, winLog2 := m (a + 8),
    upport := if rd8 m (a + 9) = 0xFF then none else some (field (m (a + 9)) 0 2 : BitVec 2).toFin,
    entries := (List.range (min 256 (rdN m (a + 0xA) 2))).map fun j =>
      ⟨field (rd32 m (a + 16 + 8 * j)) 0 20, m (a + 20 + 8 * j), (field (m (a + 21 + 8 * j)) 0 2 : BitVec 2).toFin⟩ }

def decLink (m : Medium) (a : Nat) : LinkCfg := ⟨m a, rd16 m (a + 2), rd32 m (a + 4), rd32 m (a + 8)⟩

def decHart (m : Medium) (a : Nat) : HartMap :=
  ⟨(field (m a) 0 4 : BitVec 4).toFin, field (m (a + 1)) 0 4, field (m (a + 2)) 0 2, field (rd16 m (a + 4)) 0 12⟩

/-- The generation a copy at `b` decodes to. -/
def decGeneration (m : Medium) (b : Nat) : Generation :=
  let opt {α : Type} (id : Nat) (d : α) (f : Nat → α) : α := match sectionAt m b id with | some a => f a | none => d
  { seq := copySeq m b, hdrCrc := copyHdrCrc m b, schema := copySchema m b
    device := opt 1 {} (decDevice m)
    chan := opt 2 (Vector.replicate 16 {}) fun a => Vector.ofFn fun i => decChan m (a + 256 * i.val)
    safe := opt 3 (Vector.replicate 16 .off) fun a => Vector.ofFn fun i => decSafe m (a + 4 * i.val)
    path := opt 4 (Vector.replicate 32 {}) fun a => Vector.ofFn fun i => decPath m (a + 32 * i.val)
    coeff := opt 4 [] (decCoeffs m)
    chars := opt 5 [] fun a => (List.range (min 64 (rdN m a 4))).map fun i => decChar m (a + 4 + 132 * i)
    tide := opt 6 (Vector.replicate 4 {}) fun a => Vector.ofFn fun i => decTide m (a + 64 * i.val)
    aspects := opt 7 [] fun a => (decGroups m (min 64 (rdN m a 4)) (a + 4)).1
    rules := opt 8 [] fun a => (List.range (min 16384 (rdN m a 4))).map fun i => decRule m (a + 8 + 16 * i)
    cycleUs := opt 8 1000 fun a => rd32 m (a + 4)
    group := opt 9 {} (decGroup m)
    link := opt 10 (Vector.replicate 4 {}) fun a => Vector.ofFn fun i => decLink m (a + 16 * i.val)
    event := opt 11 (Vector.replicate 128 1) fun a => Vector.ofFn fun i => rd32 m (a + 4 * i.val)
    hart := opt 12 [] fun a => (List.range (min 960 (rdN m a 4))).map fun i => decHart m (a + 4 + 8 * i) }

/-! ### Section lengths (Table 2-7) -/

/-- SLEN of a known section as its content requires (Table 2-7); none for an ID not listed, for a count out of that table's range, and for an NGROUP
of which no copy could hold the groups. -/
def expectedLen (m : Medium) (a id : Nat) : Option Nat :=
  match id with
  | 1 => some 256 | 2 => some 4096 | 3 => some 64 | 4 => some 17408
  | 5 => if rdN m a 4 ≤ 64 then some (4 + 132 * rdN m a 4) else none
  | 6 => some 256
  | 7 => if rdN m a 4 ≤ 0x20000 then some ((decGroups m (rdN m a 4) (a + 4)).2 - a) else none
  | 8 => some (8 + 16 * rdN m a 4)
  | 9 => some (16 + 8 * rdN m (a + 0xA) 2)
  | 10 => some 64 | 11 => some 512
  | 12 => if rdN m a 4 ≤ 960 then some (4 + 8 * rdN m a 4) else none
  | _ => none

/-- R44 and R45 for one present section. -/
def structureOk (m : Medium) (b : Nat) (e : DirEntry) : Bool :=
  0x8000 ≤ e.id || expectedLen m (b + e.offset) e.id = some e.slen

/-- Mandatory sections (Table 2-7). -/
def mandatory : List Nat := [1, 2, 3, 4, 9, 11]

/-! ### Ranges (Table 2-9 with the owning chapters' tables) -/

def between (v lo hi : Nat) : Bool := lo ≤ v && v ≤ hi
/-- A field in range, 0 selecting a default. -/
def zeroOr (v lo hi : Nat) : Bool := v = 0 || between v lo hi
def zeroBits (w : W32) (lo len : Nat) : Bool := w.extractLsb' lo len = 0
def fld (w : W32) (lo len : Nat) : Nat := (w.extractLsb' lo len).toNat

def rangesDevice (m : Medium) (a : Nat) : Bool :=
  let d := decDevice m a
  (d.slackMs.toNat ≤ 2000 || d.slackMs = 0xFFFF) && d.hostMaxwait ≠ 0 && (between d.budgetMw.toNat 1000 8000 || d.budgetMw = 0xFFFF)
  && (field (rd16 m (a + 6)) 3 13 : BitVec 13) = 0 && rd8 m (a + 9) ≤ 3 && d.safeWindow ≠ 0 && allZero m (a + 0xC) 0xF4

/-- Range codes of a kind (Table 4-2). -/
def rangeOk (k : BitVec 3) (r : Nat) : Bool := if k = kindDI || k = kindAII || k = kindAIV then r ≤ 1 else r = 0

/-- Measurable span of AI-I and AI-V in result units (Table 4-2). -/
def inSpan (k : BitVec 3) (r : Nat) (v : Int) : Bool :=
  if k = kindAII then (if r = 0 then -100000 ≤ v && v ≤ 2500000 else -2500000 ≤ v && v ≤ 100000)
  else if r = 0 then -500000 ≤ v && v ≤ 11000000 else -1000000 ≤ v && v ≤ 65000000

/-- A signed 4-bit exponent within −4 to +4 (Table 7-11). -/
def expOk (w : W32) (lo : Nat) : Bool := let v := (w.extractLsb' lo 4).toInt; -4 ≤ v && v ≤ 4

def rangesProve (r : ChanRecord) : Bool :=
  let p := recWord r 16; let w := recWord r 17; let sn := recWord r 18; let o := recWord r 19; let ph := recWord r 20
  zeroBits p 24 8 && zeroBits w 24 8 && zeroBits sn 12 20 && zeroBits o 19 13 && zeroBits ph 16 16
  && (!bitAt p 0 ||
      ((if bitAt p 1 then 1 ≤ fld p 8 4 else fld p 8 4 = 0) && fld p 12 4 ≤ fld p 8 4 && (!bitAt p 4 || bitAt p 3) && fld p 6 2 ≤ 2
       && between (fld w 0 10) 1 1000 && zeroOr (fld w 10 10) (fld w 0 10 + 1) 1000 && fld w 20 4 ≤ 9
       && zeroOr (fld sn 0 4) 2 10 && (zeroOr (fld sn 4 8) 20 200 && fld sn 4 8 % 2 = 0)
       && fld o 0 7 ≤ 100 && fld o 7 4 ≤ 10 && between (fld ph 0 8) 4 160 && fld ph 8 8 ≤ 100))

/-- One CHANNEL record (Tables 4-12 to 4-16, 5-3 to 5-7, 6-6 to 6-8, 7-8 to 7-11, 8-10). `master` tells a pair master. -/
def rangesChan (r : ChanRecord) (master : Bool) : Bool :=
  let k := cfgKind r
  let c := recWord r 0
  let di := recWord r 1; let db := recWord r 2; let ai := recWord r 3; let wc := recWord r 4
  let pc := recWord r 8; let rc := recWord r 9; let gc := recWord r 10
  let ao := recWord r 32; let hc := recWord r 35; let hs := recWord r 36; let cv := recWord r 40
  let reserved := [5, 6, 7, 11, 12, 13, 14, 15, 21, 22, 23, 24, 25, 26, 27, 28, 29, 30, 31, 37, 38, 39, 41, 42, 43, 44, 45, 46, 47, 48, 49, 50,
    51, 52, 53, 54, 55, 56, 57, 58, 59, 60, 61, 62, 63]
  if k = kindPair then c = 7 && (List.finRange 64).all fun i => i.val = 0 || r.word[i] = 0
  else
    zeroBits c 3 1 && zeroBits c 6 2 && zeroBits c 21 11 && rangeOk k (fld c 4 2)
    && (if bitAt c 14 then between (fld c 16 5) 1 20 else fld c 16 5 = 0)
    && (reserved.all fun i => r.word[(BitVec.ofNat 6 i).toFin] = 0)
    && (if k = kindDI then
          zeroBits di 19 1 && fld di 20 10 ≤ 1000
          && ((fld di 0 8 = 0 && fld di 8 8 = 0)
              || (between (fld di 0 8) 8 240 && between (fld di 8 8) 4 236 && fld di 8 8 + 4 ≤ fld di 0 8))
          && zeroBits db 16 16 && between (fld db 0 8) 1 40 && fld db 0 8 + 4 ≤ fld db 8 8
          && fld db 8 8 ≤ (if bitAt di 16 then 130 else 40)
        else di = 0 && db = 0)
    && (if k = kindAII then zeroBits ai 3 29 && !(bitAt ai 0 && bitAt hc 0) else ai = 0)
    && (if k = kindAOSnk then zeroBits wc 6 26 && zeroOr (fld wc 0 6) 10 40 else wc = 0)
    && zeroBits pc 15 1 && zeroBits pc 23 1 && zeroBits rc 13 19 && zeroBits gc 8 24
    && (k ≠ kindDO ||
        (between (fld pc 0 6) 4 32 && fld pc 8 7 ≤ 100 && zeroOr (fld pc 16 7) 30 90 && fld pc 24 8 ≤ 150
         && fld gc 0 8 ≤ (if master then 200 else 100)))
    && rangesProve r
    && zeroBits ao 3 29 && fld ao 1 2 ≤ 2
    && (!(k = kindAII || k = kindAIV) || (inSpan k (fld c 4 2) (recWord r 33).toInt && inSpan k (fld c 4 2) (recWord r 34).toInt))
    && zeroBits hc 25 7 && zeroBits hs 16 16
    && (k ≠ kindAII ||
        (zeroOr (fld hc 2 5) 5 20 && fld hc 9 10 ≤ 600 && zeroOr (fld hc 19 6) 2 50
         && expOk hs 0 && expOk hs 4 && expOk hs 8 && expOk hs 12))
    && zeroBits cv 2 30 && (k = kindOff || k = kindDI || bitAt cv 0)

/-- Channel `n` is in the scan mask (R209). -/
def scanned (g : Generation) (n : Chan) : Bool :=
  if cfgKind g.chan[n] = kindPair then bitAt (recWord g.chan[masterOf n] 40) 0 else bitAt (recWord g.chan[n] 40) 0

def scanMask (g : Generation) : W16 :=
  (List.finRange 16).foldl (fun a n => if scanned g n then a ||| (1#16 <<< n.val) else a) 0

/-- Channel of a path. -/
def pathChan (p : PathIx) : Chan := ⟨p.val / 2, by omega⟩

def rangesPath (m : Medium) (a : Nat) (p : PathIx) : Bool :=
  let d := a + 32 * p.val
  let x := decPath m d
  (x.rank.toNat ≤ 4 || between x.rank.toNat 0x11 0x19) && x.hb.toNat ≤ 5 && between x.decim.toNat 1 4096 && between x.taps.toNat 1 64
  && rd8 m (d + 5) ≤ 1 && between x.fade.toNat 16 4096 && rd8 m (d + 8) ≤ 3 && allZero m (d + 9) 3 && allZero m (d + 0x10) 16
  && (List.range 128).all fun i =>
    let w := rd32 m (a + 1024 + 512 * p.val + 4 * i)
    (field w 24 8 : BitVec 8) = if bitAt w 23 then 0xFF else 0

/-- Table 10-4's checks of a character; `period` is its wheel's PERIOD_US. -/
def charOk (c : Character) (period : Nat) : Bool :=
  let sep := (2 ^ 32 * 10 + period - 1) / period
  let ph := c.edges.map (·.phase.toNat)
  let rec asc : List Nat → Bool
    | a :: b :: l => a + sep ≤ b && asc (b :: l)
    | _ => true
  match c.edges, c.edges.getLast? with
  | e :: _ :: _, some l => asc ph && l.phase.toNat + sep ≤ e.phase.toNat + 2 ^ 32 && e.lit ≠ l.lit
  | _, _ => true

def rangesChar (m : Medium) (a : Nat) (tide : Vector TideCfg 4) : Bool :=
  let n := rdN m a 4
  ((List.range n).all fun i =>
    let r := a + 4 + 132 * i
    let k := rd8 m r
    between k 1 16 && rd8 m (r + 1) ≤ 3 && rd8 m (r + 2) ≤ 63 && rd8 m (r + 3) = 0
    && ((List.range 16).all fun e =>
      if e < k then rd8 m (r + 8 + 8 * e) ≤ 1 && allZero m (r + 9 + 8 * e) 3 else allZero m (r + 4 + 8 * e) 8)
    && ((List.range (k - 1)).all fun e => rdN m (r + 4 + 8 * e) 4 < rdN m (r + 12 + 8 * e) 4)
    && (let c := decChar m r; charOk c tide[c.wheel].periodUs.toNat))
  && decide ((List.range n).map fun i => rd8 m (a + 4 + 132 * i + 2)).Nodup

def rangesTide (m : Medium) (a : Nat) (g : Generation) : Bool :=
  (List.range 4).all fun w =>
    let b := a + 64 * w
    let t := decTide m b
    between t.periodUs.toNat 1000 600000000 && t.ref.toNat ≤ 4 && rd8 m (b + 5) ≤ 3
    && (t.ref ≠ 2 || (t.mainsN ≠ 0 && 15000 * t.mainsN.toNat ≤ t.periodUs.toNat && t.periodUs.toNat ≤ 22500 * t.mainsN.toNat))
    && (between t.slewPpm.toNat 1 500 || t.slewPpm = 0xFFFF) && rd8 m (b + 0xA) ≤ 1 && rd8 m (b + 0xB) = 0
    && zeroOr t.stepNs.toNat 1000 4000000000 && t.kp.toNat ≤ 0x10000 && t.ki.toNat ≤ 0x4000 && allZero m (b + 0x18) 40
    && (t.ref ≠ 4 || (g.group.upport = some t.refPort && g.link[t.refPort].role = 1))

def rangesAspect (m : Medium) (a : Nat) (g : Generation) : Bool :=
  let rec walk : Nat → Nat → Bool
    | 0, _ => true
    | n + 1, b =>
      let k := rd8 m (b + 1)
      rd8 m b ≤ 63 && between k 1 64 && allZero m (b + 2) 2 && rdN m (b + 4) 4 < 2 ^ 20
      && ((List.range k).all fun i => rd8 m (b + 8 + 24 * i + 3) = 0) && walk n (b + 8 + 24 * k)
  rdN m a 4 ≤ 64 && walk (rdN m a 4) (a + 4) && aspectsOk g

def rangesRule (m : Medium) (a : Nat) (g : Generation) : Bool := between (rdN m a 4) 1 16384 && between (rdN m (a + 4) 4) 250 10000 && rulesOk g

def rangesGroup (m : Medium) (a : Nat) : Bool :=
  let wl := rd8 m (a + 8)
  rdN m a 4 < 2 ^ 20 && rdN m a 4 % 4096 = 0 && between wl 12 20 && rdN m (a + 4) 4 < 2 ^ 20 && rdN m (a + 4) 4 % 2 ^ wl = 0
  && (rd8 m (a + 9) ≤ 3 || rd8 m (a + 9) = 0xFF) && allZero m (a + 0xC) 4 && rdN m (a + 0xA) 2 ≤ 256
  && (List.range (rdN m (a + 0xA) 2)).all fun j =>
    let e := a + 16 + 8 * j
    rdN m e 4 < 2 ^ 20 && between (rd8 m (e + 4)) 12 19 && rd8 m (e + 5) ≤ 3 && allZero m (e + 6) 2

def rangesLink (m : Medium) (a : Nat) : Bool :=
  ((List.range 4).filter fun k => rd8 m (a + 16 * k) = 1).length ≤ 1 && (List.range 4).all fun k =>
    let e := a + 16 * k
    let baud := rdN m (e + 2) 2
    rd8 m e ≤ 2 && rd8 m (e + 1) = 0 && (baud = 50 || baud = 100 || baud = 125 || baud = 200 || baud = 250)
    && allZero m (e + 0xC) 4

def rangesEvent (m : Medium) (a : Nat) : Bool :=
  ((List.range 128).all fun s => zeroBits (rd32 m (a + 4 * s)) 4 28) && bitAt (rd32 m (a + 4 * 107)) 0

def rangesHart (m : Medium) (a : Nat) : Bool :=
  (List.range (rdN m a 4)).all fun i =>
    let e := a + 4 + 8 * i
    let ch := rd8 m e
    ch ≤ 15 && between (rd8 m (e + 1)) 1 15 && rd8 m (e + 2) ≤ 3 && rd8 m (e + 3) = 0
    && between (rdN m (e + 4) 2) (0x800 + 0x40 * ch) (0x83F + 0x40 * ch) && allZero m (e + 6) 2

def rangesSafe (m : Medium) (a : Nat) : Bool :=
  (List.range 16).all fun n => let w := rd32 m (a + 4 * n); zeroBits w 2 6 && zeroBits w 14 18

/-- The Ranges check of section `id` at `a`. -/
def rangesSection (m : Medium) (g : Generation) (id a : Nat) : Bool :=
  match id with
  | 1 => rangesDevice m a
  | 2 => (List.finRange 16).all fun n => rangesChan g.chan[n] (isMaster g n)
  | 3 => rangesSafe m a
  | 4 => (List.finRange 32).all fun p => !scanned g (pathChan p) || rangesPath m a p
  | 5 => rangesChar m a g.tide
  | 6 => rangesTide m a g
  | 7 => rangesAspect m a g
  | 8 => rangesRule m a g
  | 9 => rangesGroup m a
  | 10 => rangesLink m a
  | 11 => rangesEvent m a
  | 12 => rangesHart m a
  | _ => true

/-! ### The other checks of Table 2-9 -/

def pairingOk (g : Generation) : Bool :=
  (List.finRange 16).all fun n =>
    cfgKind g.chan[n] ≠ kindPair || (n.val % 2 = 1 && cfgKind g.chan[masterOf n] = kindDO)

def standbyOk (g : Generation) : Bool :=
  (List.finRange 16).all fun n =>
    !cfgStbyEn g.chan[n] ||
      (let s := cfgStby g.chan[n]
       cfgKind g.chan[n] = kindDO && !isMaster g n && s ≠ n && cfgKind g.chan[s] = kindDO && !isMaster g s && !cfgStbyEn g.chan[s])

def hasChar (g : Generation) (k : Nat) : Bool := g.chars.any fun c => c.charId.toNat = k

def safeCharsOk (g : Generation) : Bool :=
  (List.finRange 16).all fun n => match g.safe[n] with | .character k => hasChar g k.toNat | _ => true

def aspectCharsOk (g : Generation) : Bool :=
  g.aspects.all fun x => x.aspects.all fun a => (List.finRange 16).all fun n => a.char[n] = 0xFF || hasChar g a.char[n].toNat

def decimationOk (g : Generation) : Bool :=
  (List.finRange 32).all fun p =>
    !scanned g (pathChan p) || between (2 ^ g.path[p].hb.toNat * g.path[p].decim.toNat) 4 4096

/-- Nominal on-current in mA; 0 selects the trip threshold, doubled for a pair (R164, Table 6-6). -/
def nomMa (g : Generation) (n : Chan) : Nat :=
  let v := fld (recWord g.chan[n] 10) 0 8
  if v = 0 then protTripMa g.chan[n] * (if isMaster g n then 2 else 1) else v * 10

/-- p_do of R262: `id` in 0.1 mA, `r` in µΩ. -/
def pDo (id : Nat) (r : Int) : Int := divRound ((id : Int) * id * r) 100000000
/-- p_loop of R262: drop in µV, current in 10 nA. -/
def pLoop (dv : Int) (i : Int) : Int := divRound ((if dv < 0 then 0 else dv) * Int.natAbs i) 100000000

/-- Dissipation of the configured state in µW (R164, R262); voltages in mV as measured. A pair counts once, with its master's NOM_I.
[log 160: DEDUCED, unsafe] -/
def configuredUw (g : Generation) (vloop vfld : Option Nat) : Int :=
  2000000 + ((List.finRange 16).map fun n =>
    let k := cfgKind g.chan[n]
    if k = kindDO then pDo (10 * nomMa g n) 220000
    else if isAO k || (k = kindAII && cfgRange g.chan[n] = 0) then pLoop (((vloop.getD 36000 : Nat) : Int) * 1000) 2400000
    else if k = kindDI then pLoop (((vfld.getD 60000 : Nat) : Int) * 1000) (if diIsink7 g.chan[n] then 700000 else 250000)
    else 0).sum

def powerOk (g : Generation) (vloop vfld : Option Nat) : Bool :=
  configuredUw g vloop vfld ≤ 1000 * budgetOf g.device

/-- The Power check of Table 2-9. -/
def powerCheckOk (g : Generation) (vloop vfld : Option Nat) : Bool :=
  powerOk g vloop vfld && (g.device.heatsink || budgetOf g.device ≤ 6000)

/-- Two sub-windows meet. -/
def overlap (a la b lb : Nat) : Bool := a < b + 2 ^ lb && b < a + 2 ^ la

def windowsOk (g : Generation) : Bool :=
  let s := g.group
  let lo := s.winBase.toNat
  let hi := lo + 2 ^ s.winLog2.toNat
  let inW := fun a l => lo ≤ a && a + 2 ^ l ≤ hi
  inW s.localBase.toNat 12
  && ((List.range s.entries.length).zip s.entries).all (fun je =>
      let e := je.2
      e.subBase.toNat % 2 ^ e.subLog2.toNat = 0 && inW e.subBase.toNat e.subLog2.toNat
      && !overlap e.subBase.toNat e.subLog2.toNat s.localBase.toNat 12 && g.link[e.port].role = 2
      && !(((List.range s.entries.length).zip s.entries).any fun kf =>
          kf.1 ≠ je.1 && overlap e.subBase.toNat e.subLog2.toNat kf.2.subBase.toNat kf.2.subLog2.toNat))
  && (match s.upport with
      | some k => g.link[k].role = 1 && s.winLog2.toNat ≠ 20
      | none => true)

def hartMapOk (g : Generation) : Bool :=
  (g.hart.all fun e => cfgKind g.chan[e.ch] = kindAII) && decide (g.hart.map (·.ep)).Nodup

/-- Outcome of a body check: valid, or state 4 or 5 of Table 2-15a with the section it names. -/
inductive BodyCheck where
  | valid
  | badCrc (id : Nat)
  | badBody (id : Nat)
  deriving DecidableEq, Repr

/-- The body of the copy at `b` checked in the order of R46. A failed Power check names DEVICE, and a failed Windows check GROUP, whichever
section its figures come from. [log 29: DEDUCED, unsafe; log 142: DEDUCED, unsafe] -/
def bodyCheck (m : Medium) (b : Nat) (vloop vfld : Option Nat) : BodyCheck :=
  let d := directory m b
  match d.find? fun e => crcOf m (BitVec.ofNat 32 e.offset) (b + e.offset) e.slen ≠ e.crc with
  | some e => .badCrc e.id
  | none =>
    match d.find? fun e => !structureOk m b e with
    | some e => .badBody e.id
    | none =>
      match mandatory.find? fun id => !d.any (·.id = id) with
      | some id => .badBody id
      | none =>
        let g := decGeneration m b
        match d.find? fun e => !rangesSection m g e.id (b + e.offset) with
        | some e => .badBody e.id
        | none =>
          let charSec := d.find? fun e => (e.id = 3 && !safeCharsOk g) || (e.id = 7 && !aspectCharsOk g)
          if !pairingOk g || !standbyOk g then .badBody 2
          else match charSec with
            | some e => .badBody e.id
            | none =>
              if !decimationOk g then .badBody 4
              else if d.any (·.id = 8) && wcetUs g > g.cycleUs.toNat then .badBody 8
              else if !powerCheckOk g vloop vfld then .badBody 1
              else if !windowsOk g then .badBody 9
              else if !hartMapOk g then .badBody 12
              else .valid

/-! ## Media of the device -/

def State.flashAt (s : State) : Medium := sread flashErased s.flash
def State.mirrorAt (s : State) : Medium := sread flashErased s.mirror
def State.stageAt (s : State) : Medium := sread stagingEmpty s.recov.staging

def copyBase (b : Bool) : Nat := if b then 0x400000 else 0x300000

/-! ## Journal records (Table 2-14) -/

/-- The bytes of a record less its CRC, and with the CRC for flash offset `at_`. -/
def journalBytes (ty ch range qty : Byte) (jseq : W32) (payload : List Byte) : List Byte :=
  [ty, ch, range, qty] ++ bytesLE jseq ++ payload

/-- A valid record at flash offset `a`: type, channel, range, quantity, JSEQ (R56). -/
def journalAt (m : Medium) (a : Nat) : Option (Byte × Byte × Byte × Byte × W32) :=
  if m a = 0xFF || rd32 m (a + 0x1C) ≠ crcOf m (BitVec.ofNat 32 a) a 0x1C then none
  else some (m a, m (a + 1), m (a + 2), m (a + 3), rd32 m (a + 4))

end Sys2Proof.Machine
end

