-- ==== Sys2Proof/Machine/CalOps.lean ====
section
/-!
DEFINITION. Calibration (09): selectors and scales, factory and housekeeping records from OTP, the user layer, the measurement chain R247, the
output chain R256, the correlator's conductance R259 and the clamp-energy arithmetic R260 and R261.
-/
namespace Sys2Proof.Machine

/-- Factory OTP as a medium; an unprogrammed byte reads 0x00 (R246). [log 7: DESIGN CHOICE, unsafe] -/
def State.otpAt (s : State) : Medium := sread 0 s.otp

/-- Signed 32-bit number at `a`. -/
def rdI32 (m : Medium) (a : Nat) : Int := (rd32 m a).toInt

/-! ## Selectors (Table 9-1) -/

/-- CSEL of a kind, range and quantity (0 current, 1 voltage). -/
def cselOf (k : BitVec 3) (range : Nat) (qty : Nat) : Nat :=
  qty + (if k = kindOff then 0 else if k = kindDO || k = kindPair then 2 else if k = kindDI then 4
    else if k = kindAII then 6 + 2 * range else if k = kindAIV then 10 + 2 * range else if k = kindAOSrc then 14 else 16)

/-- Output-chain selector of an AO kind. -/
def cselOut (k : BitVec 3) : Nat := if k = kindAOSrc then 18 else 19

/-- K: result units per converter code, or per DAC code. -/
def kOf (csel : Nat) : Int :=
  match csel with
  | 0 | 10 | 12 => 4
  | 2 => 32000
  | 4 => 40
  | 6 | 8 | 14 | 16 => 80
  | 11 => 400
  | 18 | 19 => 40
  | _ => 2500

/-- The endpoint divisor. -/
def divisorOf (csel : Nat) : Int :=
  match csel with
  | 0 | 10 | 12 => 10
  | 2 => 100000
  | 4 | 6 | 8 | 14 | 16 => 100
  | 11 => 1000
  | _ => 10000

/-- Range span of the user-layer tests (Table 9-4). -/
def spanOf (csel : Nat) : Int :=
  match csel with
  | 11 => 10000000
  | 13 => 60000000
  | _ => 2400000

/-- Selector of path `p` with the kind and range in force; a pair's slave measures as its master. -/
def State.csel (s : State) (p : PathIx) : Nat :=
  let n := pathChan p
  cselOf s.ch[n].kind (cfgRange (s.crec n)).toNat (p.val % 2)

/-! ## Factory records -/

/-- A factory record's parameters (Table 9-2), nominal where it is invalid. -/
structure FactoryRec where
  ofs : Int := 0
  gain : Int := 0x40000000
  tg1 : Int := 0
  tg2 : Int := 0
  to1 : Int := 0
  to2 : Int := 0
  t0 : Int := 25000
  valid : Bool := false
  deriving DecidableEq, Repr

def factoryAddr (n : Chan) (csel : Nat) : Nat := 0x1000 + 0x280 * n.val + 32 * csel

/-- The record of a channel and selector (R246). -/
def factoryRec (m : Medium) (n : Chan) (csel : Nat) : FactoryRec :=
  let a := factoryAddr n csel
  let g := rdI32 m (a + 4)
  let o := rdI32 m a
  if rd32 m (a + 0x1C) = crcOf m (BitVec.ofNat 32 a) a 0x1C && !allZero m a 32 && 0x20000000 ≤ g && g ≤ 0x60000000
     && o.natAbs ≤ 2 ^ 20 then
    { ofs := o, gain := g, tg1 := rdI32 m (a + 8), tg2 := rdI32 m (a + 0xC), to1 := rdI32 m (a + 0x10), to2 := rdI32 m (a + 0x14),
      t0 := rdI32 m (a + 0x18), valid := true }
  else {}

/-- A housekeeping record (R251): HOFS, HK, HB and validity; nominal values of Table 9-3 where it is invalid. -/
def hkRec (m : Medium) (h : Fin 24) : Int × Int × Int × Bool :=
  let a := 0x3800 + 16 * h.val
  if rd32 m (a + 0xC) = crcOf m (BitVec.ofNat 32 a) a 0xC && !allZero m a 16 then
    (rdI32 m a, rdN m (a + 4) 4, rdI32 m (a + 8), true)
  else if h.val ≤ 2 then (0, 32768000, 0, false)
  else if h.val = 3 then (0, 3276800, 0, false)
  else if h.val = 4 || h.val = 5 || h.val = 7 then (0, 1638400, 0, false)
  else (0, 409600, -273150, false)

/-- The trims KIF, KVF, KVS of a channel and whether its record is valid (R260). -/
def trimRec (m : Medium) (n : Chan) : Nat × Nat × Nat × Bool :=
  let a := 0x3A00 + 16 * n.val
  let near := fun (v nom : Nat) => 9 * nom ≤ 10 * v && 10 * v ≤ 11 * nom
  let i := rdN m a 2
  let v := rdN m (a + 2) 2
  let s := rdN m (a + 4) 2
  if rd32 m (a + 0xC) = crcOf m (BitVec.ofNat 32 a) a 0xC && !allZero m a 16 && near i 20972 && near v 16384 && near s 512 then
    (i, v, s, true)
  else (20972, 16384, 512, false)

/-! ## The user layer -/

/-- Selector with a user layer that a point of KIND, RANGE and QTY addresses (R255): the current of an AI-I, the voltage of an AI-V, the output
chain of an AO; none where they give no such selector. -/
def pointCsel (c : CalPoint) : Option Nat :=
  let k : BitVec 3 := c.kind.setWidth 3
  if 7 < c.kind.toNat then none
  else if k = kindAII && c.qty = 0 && c.range.toNat ≤ 1 then some (6 + 2 * c.range.toNat)
  else if k = kindAIV && c.qty = 1 && c.range.toNat ≤ 1 then some (11 + 2 * c.range.toNat)
  else if isAO k && c.qty = 0 && c.range = 0 then some (cselOut k)
  else none

/-- The point in force of channel `n` for selector `csel`. -/
def pointFor (s : State) (n : Chan) (csel : Nat) (span : Bool) : Option CalPoint :=
  (s.conv.points.find? fun x => x.1 = n && x.2.1 = span && x.2.2.kind = s.ch[n].kind.setWidth 8 && pointCsel x.2.2 = some csel).map (·.2.2)

/-- ug and uo from the points (R253); none without points or with a zero divisor. -/
def layerOf (z sp : Option CalPoint) : Option (Int × Int) :=
  match z, sp with
  | some z, some t =>
    if t.m = z.m then none
    else
      let ug := divRound ((t.rt - z.rt) * 2 ^ 30) (t.m - z.m)
      some (ug, z.rt - narrow (z.m * ug) 30)
  | some z, none => some (2 ^ 30, z.rt - z.m)
  | none, some t => if t.m = 0 then none else some (divRound (t.rt * 2 ^ 30) t.m, 0)
  | none, none => none

/-- The user layer of a channel and selector in force, never over an invalid factory record (R246, R253, R255). [log 140: DEDUCED, unsafe] -/
def userLayer (s : State) (n : Chan) (csel : Nat) : Option (Int × Int) :=
  if (factoryRec s.otpAt n csel).valid then layerOf (pointFor s n csel false) (pointFor s n csel true) else none

/-- CALSRC of a path (R250, R255). -/
def calSrc (s : State) (p : PathIx) : BitVec 2 :=
  let n := pathChan p
  if !(factoryRec s.otpAt n (s.csel p)).valid then 0
  else if isAO s.ch[n].kind && p.val % 2 = 0 then (if (userLayer s n (cselOut s.ch[n].kind)).isSome then 2 else 1)
  else if (userLayer s n (s.csel p)).isSome then 2 else 1

/-! ## Temperature terms (R248, R249) -/

/-- kq, o and whether a clamp acted. -/
def tempTerms (f : FactoryRec) (tj : Option Int) : Int × Int × Bool :=
  let raw := match tj with | some t => t - f.t0 | none => 0
  let dt := clampInt (-200000) 200000 raw
  let k := narrow (f.tg1 * dt + narrow (f.tg2 * dt) 16 * dt) 10
  let kq := clampInt (-(2 ^ 28)) (2 ^ 28) k
  let o := narrow (f.to1 * dt + narrow (f.to2 * dt) 16 * dt) 32
  let oc := clampInt (-(2 ^ 20)) (2 ^ 20) o
  (kq, oc, dt ≠ raw || kq ≠ k || oc ≠ o)

/-- A junction result selected from the newest on: the newest itself, or the latest earlier valid one in its place, which is TJ_STALE; none
is TJ_NONE (R249). -/
def tjSelect : List HkEntry → Option Int × Bool
  | [] => (none, false)
  | x :: l => if x.valid then (some x.value.toInt, false) else ((l.find? (·.valid)).map (·.value.toInt), (l.find? (·.valid)).isSome)

/-- tj for an output whose newest sample's slot began at `ts`, from the last millisecond that ended at least 200 µs before (R249). A millisecond
whose HOUSEKEEPING frame has not arrived has no result yet. [log 151: DEDUCED, unsafe] -/
def tjFor (s : State) (n : Chan) (ts : W64) : Option Int × Bool :=
  tjSelect (s.conv.hkHist[tjInput n].dropWhile fun x => ts.toNat < x.ended.toNat + 2000)

/-- The latest valid junction result of channel `n`, under the substitutions of R249 (R256). -/
def tjNow (s : State) (n : Chan) : Option Int × Bool := tjSelect s.conv.hkHist[tjInput n]

/-- Results kept for R249 at tick `now`: those of the last 20 ms, and the newest valid one before them. [log 151: DEDUCED, unsafe] -/
def keepHist (now : W64) : List HkEntry → List HkEntry
  | [] => []
  | x :: l => if x.ended.toNat + msTicks 20 ≤ now.toNat then (if x.valid then [x] else keepHist now l) else x :: keepHist now l

/-! ## The measurement chain (R247) -/

/-- VALUE, SAT and x1 of an output `f`. -/
def chainValue (f : Int) (r : FactoryRec) (layer : Option (Int × Int)) (kq o k : Int) : Int × Bool × Int :=
  let x1 := narrow ((f - r.ofs) * r.gain) 30
  let x2 := match layer with | some (ug, uo) => narrow (x1 * ug) 30 + uo | none => x1
  let x3 := x2 + narrow (x2 * kq) 30 + o
  let v := narrow (x3 * k) 8
  (satSigned 32 v, satSignedFlag 32 v, x1)

/-! ## The output chain (R256) -/

/-- CAL.APPLp.TJ, and the TJ of a captured point: a free value while no junction result gives one (R249). [log 164: DESIGN CHOICE, safe] -/
def shownTj (t : Option Int) : W32 := match t with
  | some t => toW32 t
  | none => Config.tjNone

/-- x2 − uo divided by the user gain `ug`; R256 gives no quotient by 0. [log 163: DESIGN CHOICE, safe] -/
def userDiv (x ug : Int) : Int := if ug = 0 then Config.zeroGain x else divRound (x * 2 ^ 30) ug

/-- x1 of the chain for code `c`, its DAC code and DAC_SAT; `layer` with or without the user layer. -/
def outChain (c : W16) (r : FactoryRec) (layer : Option (Int × Int)) (kq o : Int) : Int × W16 × Bool :=
  let x3 := divRound (c.toNat * 50 * 256) 40
  let x2 := divRound ((x3 - o) * 2 ^ 30) (2 ^ 30 + kq)
  let x1 := match layer with | some (ug, uo) => userDiv (x2 - uo) ug | none => x2
  let d8 := divRound (x1 * 2 ^ 30) r.gain + r.ofs
  let d := narrow d8 8
  let dc := clampInt 0 65535 d
  (x1, BitVec.ofInt 16 dc, dc ≠ d)

/-- CALSRC of the output chain of AO channel `n` (R250). -/
def outSrc (s : State) (n : Chan) : BitVec 2 :=
  let cs := cselOut s.ch[n].kind
  if !(factoryRec s.otpAt n cs).valid then 0 else if (userLayer s n cs).isSome then 2 else 1

/-- The DAC code of AO channel `n` for its target computed: CAL.DACn, and CAL.APPL of path 2n, which is the output chain's (Table 9-8).
[log 59: DEDUCED, safe] -/
def putDac (s : State) (n : Chan) : State :=
  let cs := cselOut s.ch[n].kind
  let r := factoryRec s.otpAt n cs
  let t := tjNow s n
  let q := tempTerms r t.1
  let d := outChain s.loop[n].deliver r (userLayer s n cs) q.1 q.2.1
  { s with conv := { s.conv with
      dac := setAt s.conv.dac n d.2.1, dacSat := setAt s.conv.dacSat n d.2.2,
      path := modAt s.conv.path (curPath n) fun x =>
        { x with tj := shownTj t.1, kq := toW32 q.1, o := toW32 q.2.1, tjStale := t.2, tjNone := t.1.isNone, clamped := q.2.2,
                 applSrc := outSrc s n } } }

/-- The parameters of path `p` in force for an output of TS `ts` (R250). -/
def chainTerms (s : State) (p : PathIx) (ts : W64) : ChainTerms :=
  let n := pathChan p
  let t := tjFor s n ts
  { csel := s.csel p, layer := if isAO s.ch[n].kind && p.val % 2 = 0 then none else userLayer s n (s.csel p), src := calSrc s p,
    tj := t.1, stale := t.2 }

/-! ## Conductance (R259) -/

/-- gain·(2^30 + kq) of a path in Q2.30, with the terms at the newest sample's tick `ts`. -/
def gainAt (s : State) (n : Chan) (csel : Nat) (ts : W64) : Int :=
  let r := factoryRec s.otpAt n csel
  narrow (r.gain * (2 ^ 30 + (tempTerms r (tjFor s n ts).1).1)) 30

/-- G in µS of a window with sums `di` (each half's, for a pair), `dv`, `m` kept samples of its 16 half-cycles together, and its newest sample at
tick `ts`; none under R129. -/
def conductance (s : State) (n : Chan) (di di2 dv : Int) (m : Nat) (ts : W64) : Option Int :=
  let iu1 := narrow (di * gainAt s n 2 ts * 32000) 30
  let iu := if s.isMaster n then iu1 + narrow (di2 * gainAt s (slaveOf n) 2 ts * 32000) 30 else iu1
  let vu := narrow (dv * gainAt s n 3 ts * 2500) 30
  if vu ≤ 0 || vu < 5000 * m then none
  else some (clampInt (-(2 ^ 31 - 1)) (2 ^ 31 - 1) (divRound (10000 * iu) vu))

/-- k of R130 from G and the signature. -/
def stringCount (g : Int) (nstr : Nat) (gEnr : Int) : Int :=
  if g ≤ 0 then 0 else narrow ((g * nstr * 256) / gEnr) 8

/-! ## Clamp energy (R260, R261) -/

/-- The accumulation of one raw sample: current code, voltage code, VFLD code, raw period in 100 ns. -/
def clampTerm (t : Nat × Nat × Nat × Bool) (ci cv cs : Int) (t2 : Nat) : Nat :=
  let i := narrow (ci * t.1) 16
  let vf := narrow (cv * t.2.1) 16
  let vs := narrow (cs * t.2.2.1) 8
  let u := vs - vf
  ((if i > 0 then i else 0) * (if u > 0 then u else 0) * t2).toNat

/-- acc of an event: 56 bits, saturating. -/
def clampAcc (t : Nat × Nat × Nat × Bool) (t2 : Nat) (samples : List (W32 × W32 × W32)) : Nat :=
  samples.foldl (fun a x => min (2 ^ 56 - 1) (a + clampTerm t x.1.toInt x.2.1.toInt x.2.2.toNat t2)) 0

/-- E_ALLOW of R261 in 10 µJ from tj in m°C and CLAMP_LIM in mJ. -/
def clampAllow (tj : Int) (limMj : Nat) : Nat :=
  let tc := divRound tj 1000
  let r : Int := if tc ≤ 25 then 15000 else if tc ≤ 125 then 15000 - 110 * (tc - 25) else if tc < 150 then 160 * (150 - tc) else 0
  min (100 * limMj) r.toNat

/-- The latch test of R261. -/
def clampOver (acc e allow : Nat) : Bool := 256 * acc + e * 10 ^ 7 > allow * 256 * 10 ^ 7

end Sys2Proof.Machine
end

