-- ==== Sys2Proof/Machine/FieldOps.lean ====
section
/-!
DEFINITION. Shared operations of the field die: reports, characters, the output of a channel under the precedence of R25, latches, safe
states, configuration and the actions of COMMAND frames (01, 03, 04, 06, 10).
-/
namespace Sys2Proof.Machine

/-! ## Channels and pairs -/

/-- Field-die state of channel `n`. -/
def State.fdc (s : State) (n : Chan) : FdChan := s.fd.ch[n]
/-- Kind in force at the field die. -/
def fdKind (c : FdChan) : BitVec 3 := cfgKind c.cfg

/-- Longest path check in ticks: 320 µs, elements (a) and (b) taking eight times as long in ebb mode (R139). -/
def checkTicks (ebb : Bool) : Nat := if ebb then 24200 else 3200

/-- A path check of the channel falls in the `len` ticks from `t0` (R139). -/
def checkedIn (c : FdChan) (ebb : Bool) (t0 : W64) (len : Nat) : Bool :=
  (c.checkFrom.any fun t => t.toNat < t0.toNat + len && t0.toNat < t.toNat + checkTicks ebb)
  || c.lastCheck.any fun x => x.1.toNat < t0.toNat + len && t0.toNat ≤ x.2.toNat

/-- Path checks run in every mode but LOAD and STOP, and in slack hold (R139, Table 3-3). -/
def checking (s : State) : Bool := s.fd.slack || s.m.mode ≠ .load && s.m.mode ≠ .stop

/-- The channel is the master of a pair at the field die (R93). -/
def State.fdMaster (s : State) (n : Chan) : Bool :=
  n.val % 2 = 0 && fdKind (s.fdc n) = kindDO && fdKind (s.fdc (slaveOf n)) = kindPair

/-- The channel whose command, counts and registers a switch follows: itself, or its master for a pair's slave. -/
def State.unit (s : State) (n : Chan) : Chan := if fdKind (s.fdc n) = kindPair then masterOf n else n

/-- The switches that act together with channel `n` (R93). -/
def State.halves (s : State) (n : Chan) : List Chan :=
  if s.fdMaster (s.unit n) then [s.unit n, slaveOf (s.unit n)] else [s.unit n]

/-- Every half changed by `f`. -/
def modHalves (s : State) (n : Chan) (f : FdChan → FdChan) : State := (s.halves n).foldl (fun a k => a.modFd k f) s

/-- The field die is powered and holds an accepted configuration (R60). -/
def State.fdOn (s : State) : Bool := s.fd.alive && s.fd.ident.isSome

/-! ## Reports -/

/-- An urgent report of the field die. In slack hold at most 64 are kept; a further one overwrites the oldest (R78). [log 13: DEDUCED, safe] -/
def report (s : State) (r : Report) : State :=
  if !s.fd.alive then s
  else if s.fd.slack && 64 ≤ s.fd.events.length then
    { s with fd := { s.fd with events := s.fd.events.drop 1 ++ [r], overwritten := s.fd.overwritten + 1 } }
  else { s with fd := { s.fd with events := s.fd.events ++ [r] } }

/-- A report of the STATUS frames; in slack hold it is kept with the others. [log 13: DEDUCED, safe] -/
def reportStatus (s : State) (r : Report) : State :=
  if s.fd.slack then report s r
  else if s.fd.alive then { s with fd := { s.fd with status := s.fd.status ++ [r] } } else s

/-! ## Characters (10) -/

/-- Level of a character at a phase (R284). -/
def charLevel (c : Character) (phase : W32) : Bool :=
  match (c.edges.filter fun e => e.phase.toNat ≤ phase.toNat).getLast?, c.edges.getLast? with
  | some e, _ => e.lit
  | none, some e => e.lit
  | none, none => false


/-- The record a channel's running character is taken from: the old one until its changeover (R287). [log 73: DEDUCED, unsafe] -/
def runningRecord (s : State) (c : FdChan) (k : BitVec 6) : Option Character :=
  match c.oldChar with
  | some o => if o.charId = k then some o else findChar s.fd.oldChars k
  | none => findChar s.fd.chars k

/-- Level of character `k` on channel `c` at its shadow wheel's phase; dark for an index the library lacks and
before its wheel's first PHASE frame (R282). -/
def charLitNow (s : State) (c : FdChan) (k : BitVec 6) : Bool :=
  match runningRecord s c k with
  | some r => s.fd.wheelOn[r.wheel] && charLevel r (phaseOf s.fd.acc[r.wheel])
  | none => false

/-- Level of a command. -/
def cmdLevel (c : FdChan) : Bool := match c.cmd with | .lit => true | .character _ => c.charLit | _ => false

/-- The commanded level at ranks 3 to 5 of R25 (R121); the safe state that 04 R106 gives an idle standby ranks above its dark command.
[log 159: DEDUCED, unsafe] -/
def commandedLit (c : FdChan) : Bool :=
  if c.safeOn then (match c.safe with | .off => false | .on => true | .hold => cmdLevel c | .character _ => c.charLit) else cmdLevel c

/-- The running character's level taken at the present phase. -/
def levelChar (s : State) (n : Chan) : State :=
  match runningChar (s.fdc n) with
  | some k => s.modFd n fun c => { c with charLit := charLitNow s c k }
  | none => s

/-! ## The output -/

/-- A latch of Table 6-1 is set. -/
def latched (c : FdChan) : Bool := c.oc[0] || c.oc[1] || c.oc[2] || c.clampLatch || c.thDt || c.thAbs

/-- A turn-on is refused: a latch, REVERSE or BACKFEED (R105), VFLD below the refusal threshold (R83), or the last-gasp. -/
def turnOnRefused (s : State) (n : Chan) : Bool :=
  (s.halves n).any (fun k => latched (s.fdc k) || (s.fdc k).doReverse || (s.fdc k).backfeed)
  || s.fd.band = 2 || s.fd.gasping || !s.fdOn

/-- The DO is turned on: its flood window starts and a phantom sink is released (R149, R138). [log 39: DEDUCED, unsafe; log 56: DEDUCED, unsafe] -/
def turnOn (s : State) (n : Chan) : State :=
  let s1 := modHalves s n fun c =>
    { c with on := true, flood := true, floodLimited := false, onHeld := false, win := .notArmed, dither := false,
             phSink := false, phDriven := false, phDet := false }
  let c := s.fdc (s.unit n)
  let s2 := if c.phDet || c.phSink || c.phDriven then report s1 (.phantom (s.unit n) false false false) else s1
  report (report s2 (.flood (s.unit n) true false)) (.switched (s.unit n) true s.fd.tick)

/-- A dither cycle's length in ticks (R128). -/
def cycleLen (r : ChanRecord) : Nat := 100 * pPeriod r

/-- Dither stands in a low half, the second half of its cycle (R128). -/
def inLowHalf (s : State) (c : FdChan) : Bool :=
  c.dither && cycleLen c.cfg ≤ 2 * ((s.fd.tick - c.ditherFrom).toNat % cycleLen c.cfg)

/-- The flood limit has regulated in the window that ends (R169). In one cut short before a report has said so it is not known. [log 154: DESIGN
CHOICE, safe] -/
def floodCut (s : State) (c : FdChan) : Bool × State :=
  if c.flood && !c.floodLimited then (bitAt s.draw.1 0, s.draw.2) else (c.floodLimited, s)

/-- The DO is turned off: the flood window is cancelled and the pulse history restarts (R149, R136). A turn-off in a dither low half is reported as
such (Table 6-5). -/
def turnOff (s : State) (n : Chan) : State :=
  let u := s.unit n
  let r := floodCut s (s.fdc u)
  let s1 := if inLowHalf s (s.fdc u) then report r.2 (.ditherCut u) else r.2
  let s2 := modHalves s1 n fun c =>
    { c with on := false, flood := false, onHeld := false, win := .notArmed, dither := false, lastPulse := .none, offTick := some s.fd.tick }
  report (report s2 (.flood u false r.1)) (.switched u false s.fd.tick)

/-- Output of a channel that is not a DO: its source, sink or regulator, on unless its blocking switches are open, it is retired, or its
safe state takes an AO to 0 mA (R69, R96, R177). An AI-V has none of the three (R100). -/
def loopOut (c : FdChan) : Bool :=
  fdKind c ≠ kindAIV && !(c.blockOpen || c.retired || c.isolated || c.crossed.isSome) && !(isAO (fdKind c) && c.safeOn && c.safe = .off)

/-- The AO's target in force at the field die, 0 while its regulator is off. -/
def aoInForce (c : FdChan) : W16 := if c.on then c.aoCode else 0

/-- A rise of an AO to target `t` below the turn-on refusal threshold (R83). -/
def riseRefused (s : State) (n : Chan) (t : W16) : Bool :=
  s.fd.band = 2 && isAO (fdKind (s.fdc n)) && (aoInForce (s.fdc n)).toNat < t.toNat

/-- A refused rise reported with what stays in force (R83, R172). -/
def refuseRise (s : State) (n : Chan) : State :=
  let c := s.fdc n
  reportStatus s (.riseRefused n c.on (aoInForce c) c.aoAlarm)

/-- The output of channel `n` brought to what R25 gives. -/
def drive (s : State) (n : Chan) : State :=
  let u := s.unit n
  let c := s.fdc u
  if fdKind c = kindDO then
    if commandedLit c then
      if c.on then s
      else if (s.halves u).any fun k => (s.fdc k).clampEvent then modHalves s u fun c => { c with onHeld := true }
      else if turnOnRefused s u then (if s.fd.band = 2 then reportStatus s (.turnOnRefused u) else s)
      else turnOn s u
    else if c.on then turnOff s u
    else modHalves s u fun c => { c with onHeld := false }
  else if fdKind c = kindOff || fdKind c = kindPair then s
  else
    let out := loopOut c && !(isAO (fdKind c) && s.fd.gasping)
    if c.on = out then s
    else if out && riseRefused s u c.aoCode then refuseRise s u
    else reportStatus (s.modFd u fun c => { c with on := out }) (.switched u out s.fd.tick)

/-- Channel `n`'s demands changed by `f`, with its level taken afresh, a change of the commanded level reported and the output driven. -/
def demand (s : State) (n : Chan) (f : FdChan → FdChan) : State :=
  let old := commandedLit (s.fdc n)
  let s1 := levelChar (s.modFd n f) n
  let new := commandedLit (s1.fdc n)
  drive (if old = new then s1 else report s1 (.level n new)) n

/-! ## Latches -/

/-- The cooling latch of unit `u` that a report tells of, when it set at tick `t`. -/
def coolAt (u : Chan) (t : W64) : Report → Option (Fin 10)
  | .cooling n b true _ t' => if n = u && t' = t then some b else none
  | _ => none

/-- A report of a trip of unit `u` at tick `t`. -/
def tripAt (u : Chan) (t : W64) : Report → Bool
  | .trip n _ _ _ _ _ t' => n = u && t' = t
  | _ => false

/-- The trip of unit `u` at tick `t` reported with a further cooling latch of its tick. -/
def withCooling (u : Chan) (t : W64) (b : Fin 10) : Report → Report
  | .trip n bit cool lim ma tj t' => if n = u && t' = t then .trip n bit (cool ++ [b]) lim ma tj t' else .trip n bit cool lim ma tj t'
  | r => r

/-- A cooling latch of unit `u` set at the present tick (R162). -/
def cooledNow (s : State) (u : Chan) : Bool := s.fd.events.any fun r => (coolAt u s.fd.tick r).isSome

/-- Overcurrent latch `bit` on channel `n`: both halves latch, the switch is off, and the trip is reported, with the cooling latches of the
same tick (R93, R147, R150, R162). [log 40: DEDUCED, unsafe] -/
def fdTrip (s : State) (n : Chan) (bit : Fin 3) (inLimit : Bool) (ma : W16) (tj : Byte) : State :=
  let u := s.unit n
  let s1 := modHalves s n fun c => { c with oc := setAt c.oc bit true, inLimit := inLimit }
  let s2 := if (s1.fdc u).on then turnOff s1 n else s1
  let cool := s2.fd.events.filterMap (coolAt u s.fd.tick)
  let s3 := { s2 with fd := { s2.fd with events := s2.fd.events.filter fun r => (coolAt u s.fd.tick r).isNone } }
  report s3 (.trip u bit cool inLimit ma tj s.fd.tick)

/-- A cooling latch of one half set or released: 4 CLAMP, 5 TH_DT, 6 TH_ABS. [log 40: DEDUCED, unsafe] -/
def withCool (c : FdChan) (bit : Fin 10) (b : Bool) : FdChan :=
  if bit = 4 then { c with clampLatch := b } else if bit = 5 then { c with thDt := b } else { c with thAbs := b }

/-- [log 40: DEDUCED, unsafe] -/
def coolBit (c : FdChan) (bit : Fin 10) : Bool := if bit = 4 then c.clampLatch else if bit = 5 then c.thDt else c.thAbs

/-! ## AO targets (07 Table 7-2) -/

/-- [log 57: DEDUCED, unsafe] -/
def alarmLow : W16 := 7000
/-- [log 57: DEDUCED, unsafe] -/
def alarmHigh : W16 := 43000

/-- Effective alarm direction: high? (R175) -/
def dirHigh (r : ChanRecord) (almsel : Bool) : Bool := if aoAlmDir r = 0 then almsel else aoAlmDir r = 2

/-- Alarm level of a selection (R176). -/
def alarmLevel (r : ChanRecord) (almsel : Bool) (sel : BitVec 2) : W16 :=
  if sel = 1 then (if dirHigh r almsel then alarmHigh else alarmLow) else if sel = 2 then alarmLow else alarmHigh

/-- COMMAND clamped under R174. -/
def satClamp (r : ChanRecord) (c : W16) : W16 :=
  if aoSatEn r then (if c.toNat < 7600 then 7600 else if c.toNat > 41000 then 41000 else c) else c

/-! ## Safe states, retirement and reset -/

/-- The safe-state entry of channel `n` applied (R69); ON takes an AO to the alarm level of its effective direction, unless R83 refuses the
rise, which is reported. -/
def applySafe (s : State) (n : Chan) : State :=
  let t := alarmLevel (s.fdc n).cfg s.fd.almsel 1
  if (s.fdc n).safe = .on && riseRefused s n t then refuseRise (demand s n fun c => { c with safeOn := true }) n
  else demand s n fun c => { c with safeOn := true, aoCode := if c.safe = .on then t else c.aoCode }

/-- The safe states of every channel applied at one tick (R70). With the table not used every channel goes OFF (R75). -/
def applySafeAll (s : State) : State :=
  let s1 := if s.fd.tableBad then (List.finRange 16).foldl (fun a n => a.modFd n fun c => { c with safe := .off }) s else s
  reportStatus ((List.finRange 16).foldl applySafe s1) .safeApplied

/-- The field power-on default of a channel (R60); the heat state and its latches are kept while the die stays powered (R148). -/
def defaultChan (c : FdChan) : FdChan :=
  { clampLatch := c.clampLatch, thDt := c.thDt, thAbs := c.thAbs, clampEvent := c.clampEvent, e := c.e, eEst := c.eEst, eAllow := c.eAllow,
    blockOpen := true }

/-- A field reset over the Breakwater (R60). -/
def fieldReset (s : State) : State :=
  { s with fd := { s.fd with ident := none, chars := [], ch := s.fd.ch.map defaultChan, slack := false, expired := false,
                             reloadHold := false, safeHeld := false, cmds := [], phases := [], fatal := false, tableBad := false,
                             wheelOn := Vector.replicate 4 false } }

/-! ## Configuration of the field die -/

/-- A blocking switch closes again when nothing else holds it open. -/
def reclose (c : FdChan) : FdChan :=
  { c with blockOpen := hasBlocking (fdKind c) && (c.crossed.isSome || c.miswire || c.reverse || c.isolated || c.retired || c.shortOpen) }

/-- A channel takes record `r` with the safe-state entry `safe`, and `role` for the primary whose role it carries (R53, R107): a change of kind, range
or standby switches it off and starts it in its new kind, a retired one in its safe state (R111); any other change keeps its output; a wiring condition
and an isolation stand on a kind with blocking switches. New proving words leave no evidence (Table 5-10). A `fresh` configuration also ends its
retirement, its mapping and its overcurrent latch (R66, R148). A mapped standby takes the primary's new safe-state entry. [log 167: DEDUCED, unsafe] -/
def configureChan (c : FdChan) (r : ChanRecord) (safe role : SafeState) (fresh : Bool) : FdChan :=
  let same := (recWord c.cfg 0 &&& 0x1F3F#32) = (recWord r 0 &&& 0x1F3F#32)
  let base : FdChan :=
    if same then { c with cfg := r }
    else
      let d := { defaultChan c with cfg := r, oc := c.oc, inLimit := c.inLimit, declTicks := c.declTicks, retired := c.retired, safeOn := c.retired,
                                      roleOf := c.roleOf }
      if hasBlocking (cfgKind r) then { d with crossed := c.crossed, isolated := c.isolated, miswire := c.miswire, reverse := c.reverse } else d
  let base := { base with safe := if base.roleOf.isSome && !fresh then role else safe,
                          ownSafe := if base.roleOf.isSome && !fresh then some safe else none }
  let base := if proveWords c.cfg = proveWords r then base
    else { base with lastPulse := .none, pulseDue := none, dither := false, win := .notArmed }
  if fresh then
    reclose { base with retired := false, safeOn := base.safeOn && !base.retired, roleOf := none, isolated := false, declTicks := [], oc := Vector.replicate 3 false, inLimit := false }
  else if same then base
  else reclose base

/-- The terminal of channel `n`, as last measured, stands past the MISWIRE threshold of record `r` (Table 4-4). [log 146: DEDUCED, unsafe] -/
def pastMiswire (s : State) (n : Chan) (r : ChanRecord) : Bool :=
  let cur := s.conv.path[curPath n].res
  let v := s.conv.path[volPath n].res
  let uv := v.value.toInt
  let k := cfgKind r
  v.valid &&
    (if k = kindAOSrc || (k = kindAII && cfgRange r = 0) then
      (match s.conv.hkLast[(1 : Fin 24)] with | some l => uv > l.1.toInt + 1500000 | none => false)
      || uv > 40000000 || (cur.valid && cur.value.toInt < -100000)
    else if k = kindAII then uv > 40000000
    else if k = kindAOSnk then uv > 1000000 * snkVmax r
    else k = kindAIV && cfgRange r = 0 && uv > 15000000)

/-- The die takes generation `g` (R62 step 9, R53). Blocking switches of a channel that has not crossed a threshold close; a channel that
becomes a loop kind past its MISWIRE threshold starts isolated, its switches never closing (Table 4-8). A slave added under a master that is lit
follows it from the master's next switching. [log 15: DEDUCED, unsafe; log 146: DEDUCED, unsafe; log 156: DESIGN CHOICE, unsafe] -/
def configureDie (s : State) (g : Generation) (fresh : Bool) : State :=
  let first := s.fd.ident.isNone
  let old := s.fd.chars
  let s1 := { s with fd := { s.fd with
    ident := some (g.seq, g.hdrCrc), chars := g.chars, oldChars := if old = g.chars then s.fd.oldChars else old, slackMs := slackMsOf g.device, tableBad := false,
    ch := Vector.ofFn fun n =>
      let c := s.fd.ch[n]
      let d := configureChan c g.chan[n] g.safe[n] g.safe[c.roleOf.getD n] fresh
      let d := if first then reclose d else d
      let d := if fdKind c ≠ fdKind d && pastMiswire s n d.cfg && !d.miswire then reclose { d with miswire := true } else d
      match runningChar c with
      | some k => if old = g.chars then d else { d with oldChar := if c.oldChar.isSome then c.oldChar else findChar old k }
      | none => d } }
  (List.finRange 16).foldl (configureNote s) s1
where
  /-- what the change of channel `n` reports, and its output in the new kind -/
  configureNote (s a : State) (n : Chan) : State :=
    let old := s.fdc n
    let new := a.fdc n
    let a1 := if old.on && !new.on then reportStatus a (.switched n false s.fd.tick) else a
    let a2 := if new.blockOpen ≠ old.blockOpen then report a1 (.block n new.blockOpen) else a1
    let a3 := if new.miswire && !old.miswire then report a2 (.wiring n false true new.isolated) else a2
    let a4 := if new.win ≠ old.win then report a3 (.window n new.win) else a3
    let a5 := levelChar a4 n
    let lit := commandedLit (a5.fdc n)
    drive (if commandedLit old = lit then a5 else report a5 (.level n lit)) n

/-! ## Actions of COMMAND frames -/

/-- A restart of unit `u` takes place at the field die: lit, not retired, and nothing but an overcurrent latch holds the switch off (R157). -/
def restartable (s : State) (u : Chan) : Bool :=
  commandedLit (s.fdc u) && !(s.fdc u).retired && s.fd.band ≠ 2 && !s.fd.gasping && s.fdOn
  && !((s.halves u).any fun k =>
    (s.fdc k).clampLatch || (s.fdc k).thDt || (s.fdc k).thAbs || (s.fdc k).doReverse || (s.fdc k).backfeed)

/-- A change of channel `n`'s blocking switches reported (WIRE.BLOCK_OPEN, R119). -/
def noteBlock (old new : State) (n : Chan) : State :=
  if (new.fdc n).blockOpen = (old.fdc n).blockOpen then new else report new (.block n (new.fdc n).blockOpen)

/-- One action at its target tick (R21). A command never clears a latch; a retired channel keeps its safe state. [log 38: DEDUCED, unsafe; log 42: DEDUCED, unsafe] -/
def fieldAct (s : State) (a : FieldAct) : State :=
  match a with
  | .set n (.ao code alarm dac) =>
    if riseRefused s n code then refuseRise s n
    else demand s n fun c => { c with aoCode := code, aoAlarm := alarm, dac := dac, safeOn := c.retired }
  | .set n cmd => demand s n fun c =>
      { c with cmd := cmd, safeOn := c.retired,
               oldChar := match cmd, c.oldChar with | .character k, some _ => findChar s.fd.oldChars k | _, _ => none }
  | .restart n =>
    let u := s.unit n
    if restartable s u then
      report (drive (report (modHalves s n fun c => { c with oc := Vector.replicate 3 false, inLimit := false }) (.ocCleared u)) n) (.restarted u)
    else reportStatus s (.restartMissed u)
  | .safe n => applySafe s n
  | .retire n =>
    let f := fun (c : FdChan) =>
      { c with retired := true, safeOn := true, blockOpen := c.blockOpen || hasBlocking (fdKind c) }
    noteBlock s (demand s n f) n
  | .unretire n => noteBlock s (demand s n fun c => reclose { c with retired := false }) n
  | .mapRole p m =>
    let q := s.fdc p
    demand s m fun c => { c with roleOf := some p, ownSafe := if c.roleOf.isSome then c.ownSafe else some c.safe,
                                 safe := q.safe, cmd := q.cmd, oldChar := q.oldChar }
  | .unmapRole _ m =>
    demand s m fun c => { c with roleOf := none, safe := c.ownSafe.getD c.safe, ownSafe := none, cmd := .dark }
  | .clearOc n => report (modHalves s n fun c => { c with oc := Vector.replicate 3 false, inLimit := false }) (.ocCleared (s.unit n))
  | .reinit n =>
    let s1 := report (modHalves s n fun c => { c with oc := Vector.replicate 3 false, inLimit := false }) (.ocCleared (s.unit n))
    let s2 := s1.modFd n fun c =>
      let c := { c with lastPulse := .none }
      if hasBlocking (fdKind c) then reclose { c with isolated := false, declTicks := [] } else c
    if (s2.fdc n).blockOpen = (s1.fdc n).blockOpen then s2 else drive (noteBlock s1 s2 n) n
  | .restate n => reportStatus s (.restated n (s.fdc n))
  | .dac n code =>
    if s.fd.band = 2 && isAO (fdKind (s.fdc n)) && (s.fdc n).on && (s.fdc n).dac.toNat < code.toNat then reportStatus s (.turnOnRefused n)
    else s.modFd n fun c => { c with dac := code }

/-! ## What the field die says of a channel -/

/-- PROT live bits of a channel as its latches stand. -/
def latchBits (c : FdChan) : BitVec 10 :=
  withBit (withBit (withBit (withBit (withBit (withBit (withBit (withBit 0 pOc c.oc[0]) pShort c.oc[1]) pBackfeed c.oc[2]) pInLimit c.inLimit)
    pClamp c.clampLatch) pThDt c.thDt) pThAbs c.thAbs) pFlood c.flood

/-- WIRE live bits of a channel as its conditions and its DI class stand. -/
def wireBits (c : FdChan) : BitVec 11 :=
  withBit (withBit (withBit (withBit (withBit (withBit (withBit (withBit (withBit (withBit (withBit 0 wMiswire c.miswire)
    wReverse (c.reverse || c.doReverse)) wBackfeed c.backfeed) wOpen c.openLoop) wShort c.inLimitPath) wBreak (c.diClass = .wireBreak))
    wLeak (c.diClass = .diLeak)) wSink (c.diClass = .sinkFault)) wImbal c.imbal) wSense c.senseDiff) wBlock c.blockOpen

/-- The status registers of a channel taken from the field die's own status; a live bit that sets also sets its latched bit (R119, R169).
[log 32: DEDUCED, unsafe] -/
def takeChan (x : Channel) (c : FdChan) : Channel :=
  let wire := wireBits c
  let live := withBit (withBit (latchBits c) pGovRef x.refused.isSome) pShed x.shed
  { x with out := c.on, held := c.isolated,
           w := { x.w with wire := wire, wireLat := x.w.wireLat ||| (wire &&& ~~~x.w.wire &&& 0x3FF#11),
                           diState := fdKind c = kindDI && (c.diLevel != diInvert c.cfg), diRaw := c.diLevel, diClass := c.diClass },
           p := { x.p with cmdLit := commandedLit c, flood := c.flood, win := c.win, phDet := c.phDet, phSupp := c.phSink, driven := c.phDriven,
                           pcFail := c.pcFail }
           prot := { x.prot with live := live, lat := x.prot.lat ||| (live &&& ~~~x.prot.live &&& ~~~(1#10 <<< pFlood)), eEst := c.eEst } }

/-- The declared conditions of a channel that the executive reads back (R80): reports that restate them. -/
def readBack (c : FdChan) (n : Chan) : List Report :=
  [.block n c.blockOpen, .flood n c.flood c.floodLimited, .window n c.win, .phantom n c.phDet c.phSink c.phDriven]

/-! ## Logic→field sending -/

/-- A new frame of the logic die's sender, with the ACK and FLAGS of Table 1-3: ACK names the last frame accepted in order on lane 1, and EBB follows
what the field die's frames say (R83). -/
def mkTx (s : State) (b : L2F) : BwTx := ⟨s.bw.txSeq, b, s.tick, s.bw.rxNext - 1, bwFlags false s.recov.handover.isSome s.bw.ebb⟩

/-- A frame of this content may be put on the lane now: nothing while the transmitter has stopped (R20), and no COMMAND during a reload hold
(R430). [log 17: DEDUCED, unsafe] -/
def canSend (s : State) (b : L2F) : Bool :=
  !s.bw.stopped && (match b with | .command _ _ => s.recov.reload.isNone | _ => true)

def L2F.isCommand : L2F → Bool
  | .command _ _ => true
  | _ => false

/-- The logic→field sender takes a frame of a retransmitted type (R21): into a free place of its 16, or waiting in order. Nothing passes
after a SAFE entry by the voting plane (R385). The COMMANDs of a rule cycle wait for its step 5 (R319). [log 17: DEDUCED, unsafe] -/
def bwSend (s : State) (b : L2F) : State :=
  if s.triad.blocked then s
  else if s.bw.gathering && b.isCommand then { s with bw := { s.bw with stepFive := s.bw.stepFive ++ [b] } }
  else if s.bw.unacked.length < 16 && canSend s b && !(s.bw.waiting.any (canSend s)) then
    { s with bw := { s.bw with unacked := s.bw.unacked ++ [mkTx s b], txSeq := s.bw.txSeq + 1 } }
  else { s with bw := { s.bw with waiting := s.bw.waiting ++ [b] } }

/-- Waiting frames put into the places an acknowledgement or the end of a stop frees, in order (R21); at most `k` of them. [log 17: DEDUCED, unsafe] -/
def bwRefill (s : State) : Nat → State
  | 0 => s
  | k + 1 =>
    if s.triad.blocked || 16 ≤ s.bw.unacked.length then s
    else match s.bw.waiting.findIdx? (canSend s) with
      | none => s
      | some i => match s.bw.waiting[i]? with
        | none => s
        | some b =>
          bwRefill { s with bw := { s.bw with waiting := s.bw.waiting.eraseIdx i, txSeq := s.bw.txSeq + 1,
                                              unacked := s.bw.unacked ++ [mkTx s b] } } k

/-- Lead of a COMMAND's target tick: 100 µs (R21). -/
def leadTicks : W64 := 1000

/-- A command to channel `n` ends SAFE_APPLIED after an unadopted slack window (Table 4-7). -/
def endSafeApp (s : State) (n : Chan) : State :=
  if s.ch[n].safeApp && s.m.mode ≠ .safe && s.m.mode ≠ .stop then refresh (s.modCh n fun c => { c with safeApp := false }) n else s

def commanded (s : State) (x : FieldAct) : State :=
  match x with
  | .set n _ => endSafeApp s n
  | _ => s

/-- A COMMAND frame with actions at one target tick. -/
def command (s : State) (acts : List FieldAct) : State :=
  if acts.isEmpty then s else bwSend (acts.foldl commanded s) (.command acts (s.tick + leadTicks))

end Sys2Proof.Machine
end

