-- ==== Sys2Proof/Machine/LinkWire.lean ====
section
/-!
DEFINITION. Svasta Link frames and control sequences as bytes: Tables 13-1 to 13-4, the CRC of R349 and the CRC-8 of R346 (13 R346–R351). Multi-byte
fields go most significant byte first (R345).
-/
namespace Sys2Proof.Machine

/-! ## Types (Table 13-3) -/

/-- TYPE of each message. -/
def LinkMsg.ty : LinkMsg → Byte
  | .train _ => 0x01
  | .write _ => 0x10
  | .update _ _ => 0x11
  | .fence _ => 0x12
  | .writeRsp _ => 0x90
  | .updateAck _ => 0x91
  | .fenceRsp _ => 0x92
  | .errorRsp _ => 0x9F
  | .time _ _ => 0xA0
  | .disc _ _ => 0xA1
  | .lamp _ _ _ => 0xC0
  | .event _ _ _ => 0xC1

/-- LEN as the row of the message's type allows it (Table 13-3). -/
def LinkMsg.lenOk (m : LinkMsg) (len : Nat) : Bool := match m with
  | .train _ => len = 16
  | .write _ | .update _ _ => 8 ≤ len && len ≤ 240 && len % 8 = 0
  | .fence _ => len = 4
  | .writeRsp _ => 4 ≤ len && len ≤ 32 && len % 4 = 0
  | .updateAck _ | .fenceRsp _ | .errorRsp _ => len = 0
  | .time _ _ => len = 36
  | .disc _ _ => len = 8
  | .lamp _ _ _ | .event _ _ _ => len = 16

/-- CLS of R349, and the class code of CRT and ACK (Table 13-1). -/
def LinkClass.code : LinkClass → Nat
  | .request => 0 | .response => 1 | .urgent => 2

/-! ## Payloads (Table 13-4) -/

/-- A 16-bit field. -/
def halfBE (v : W16) : List Byte := [field v 8 8, field v 0 8]
/-- An endpoint address in four bytes. -/
def addrBE (a : BitVec 20) : List Byte := bytesBE (a.setWidth 32)
/-- A 64-bit field. -/
def longBE (v : W64) : List Byte := bytesBE (field v 32 32) ++ bytesBE (field v 0 32)
def zeros (n : Nat) : List Byte := List.replicate n 0
/-- `len` bytes at offset `i`, as a number. -/
def beAt (p : List Byte) (i len : Nat) : Nat := natBE ((p.drop i).take len)
def byteAt (p : List Byte) (i : Nat) : Byte := p.getD i 0
/-- The endpoint address at offset `i`. -/
def addrAt (p : List Byte) (i : Nat) : BitVec 20 := BitVec.ofNat 20 (beAt p i 4)

def TrainInfo.bytes (t : TrainInfo) : List Byte :=
  bytesBE t.ownId ++ [t.role, t.baud, t.revision, (BitVec.ofBool t.seen).setWidth 8 ||| (BitVec.ofBool t.ready).setWidth 8 <<< 1]
    ++ addrBE t.winBase ++ [t.winLog2] ++ zeros 3

def trainOf (p : List Byte) : TrainInfo :=
  { ownId := BitVec.ofNat 32 (beAt p 0 4), role := byteAt p 4, baud := byteAt p 5, revision := byteAt p 6,
    seen := bitAt (byteAt p 7) 0, ready := bitAt (byteAt p 7) 1, winBase := addrAt p 8, winLog2 := byteAt p 12 }

def TimeRecord.bytes (r : TimeRecord) : List Byte :=
  [BitVec.ofNat 8 r.wheel.val, r.wheelState.setWidth 8, (BitVec.ofBool r.uncert).setWidth 8 ||| (BitVec.ofBool r.secValid).setWidth 8 <<< 1, r.hops]
    ++ bytesBE r.periodUs ++ longBE r.aUp ++ longBE r.incUp ++ halfBE r.unc ++ [r.fTx, 0] ++ bytesBE r.sec ++ bytesBE r.qUp

/-- Of the wheel and state codes the bits they need are read. [log 153: DESIGN CHOICE, unsafe] -/
def timeOf (p : List Byte) : TimeRecord :=
  { wheel := (field (byteAt p 0) 0 2 : BitVec 2).toFin, wheelState := field (byteAt p 1) 0 3, uncert := bitAt (byteAt p 2) 0,
    secValid := bitAt (byteAt p 2) 1, hops := byteAt p 3, periodUs := BitVec.ofNat 32 (beAt p 4 4), aUp := BitVec.ofNat 64 (beAt p 8 8),
    incUp := BitVec.ofNat 64 (beAt p 16 8), unc := BitVec.ofNat 16 (beAt p 24 2), fTx := byteAt p 26, sec := BitVec.ofNat 32 (beAt p 28 4),
    qUp := BitVec.ofNat 32 (beAt p 32 4) }

/-- Entries of eight bytes read by `f` from their offsets. -/
def entriesOf {α : Type} (f : List Byte → α) (p : List Byte) : List α := (List.range (p.length / 8)).map fun e => f (p.drop (8 * e))

def writesOf (p : List Byte) : List (BitVec 20 × W16) := entriesOf (fun e => (addrAt e 0, BitVec.ofNat 16 (beAt e 6 2))) p
def wordsOf (p : List Byte) : List (BitVec 20 × W32) := entriesOf (fun e => (addrAt e 0, BitVec.ofNat 32 (beAt e 4 4))) p

/-- The payload of a message. -/
def LinkMsg.payload : LinkMsg → List Byte
  | .train t => t.bytes
  | .write es => (es.map fun e => addrBE e.1 ++ zeros 2 ++ halfBE e.2).flatten
  | .update _ es => (es.map fun e => addrBE e.1 ++ bytesBE e.2).flatten
  | .fence tag => halfBE tag ++ zeros 2
  | .writeRsp rs => rs ++ zeros ((4 - rs.length % 4) % 4)
  | .updateAck _ | .fenceRsp _ | .errorRsp _ => []
  | .time _ r => r.bytes
  | .disc b l => addrBE b ++ [l] ++ zeros 3
  | .lamp a w o => addrBE a ++ bytesBE w ++ [o] ++ zeros 7
  | .event src c a => [src.setWidth 8, 0] ++ halfBE c ++ addrBE a ++ zeros 8

/-- PARAM (Table 13-3). -/
def LinkMsg.param : LinkMsg → W32
  | .update sweep _ => putB 0 sweep
  | .updateAck n => n
  | .fenceRsp c => put 0 c
  | .errorRsp c => put 0 c
  | .time seq _ => put 0 seq
  | _ => 0

/-- LEN of a message. -/
def payloadLen (m : LinkMsg) : Nat := m.payload.length

/-! ## Received frames -/

/-- The message a received frame of the type of `m` holds. The reasons of a WRITE_RSP come with their padding. -/
def trainMsg (h : LinkHeader) : LinkMsg := .train (trainOf h.payload)
def writeMsg (h : LinkHeader) : LinkMsg := .write (writesOf h.payload)
def updateMsg (h : LinkHeader) : LinkMsg := .update (bitAt h.param 0) (wordsOf h.payload)
def fenceMsg (h : LinkHeader) : LinkMsg := .fence (BitVec.ofNat 16 (beAt h.payload 0 2))
def writeRspMsg (h : LinkHeader) : LinkMsg := .writeRsp h.payload
def updateAckMsg (h : LinkHeader) : LinkMsg := .updateAck h.param
def fenceRspMsg (h : LinkHeader) : LinkMsg := .fenceRsp (field h.param 0 8)
def errorRspMsg (h : LinkHeader) : LinkMsg := .errorRsp (field h.param 0 8)
def timeMsg (h : LinkHeader) : LinkMsg := .time (field h.param 0 16) (timeOf h.payload)
def discMsg (h : LinkHeader) : LinkMsg := .disc (addrAt h.payload 0) (byteAt h.payload 4)
def lampMsg (h : LinkHeader) : LinkMsg := .lamp (addrAt h.payload 0) (BitVec.ofNat 32 (beAt h.payload 4 4)) (byteAt h.payload 8)
def eventMsg (h : LinkHeader) : LinkMsg :=
  .event (field (byteAt h.payload 0) 0 7) (BitVec.ofNat 16 (beAt h.payload 2 2)) (addrAt h.payload 4)

/-- Header and payload of a frame in transmission order (Table 13-2). -/
def linkBody (ty : Byte) (h : LinkHeader) : List Byte :=
  [ty, h.fseq] ++ halfBE h.len ++ halfBE h.tag ++ halfBE h.budget ++ bytesBE h.param ++ h.payload

/-- The fold of R349 for a frame to the port whose OWN_ID is `rxId`. -/
def linkFold (rxId : W32) (c : LinkClass) (fseq : Byte) : W32 :=
  rxId ^^^ BitVec.ofNat 32 (c.code * 0x40000000) ^^^ (fseq.setWidth 32 * 0x00010001)

def linkCrc (rxId : W32) (ty : Byte) (h : LinkHeader) : W32 := crc32c (linkFold rxId h.sof h.fseq) (linkBody ty h)

/-- Bytes counted between the SOF and the end symbol. -/
def linkBytes (h : LinkHeader) : Nat := 16 + h.payload.length

/-- The frame of message `m` passes its CRC at the port whose OWN_ID is `rxId`, meets R350 and has 16 + LEN bytes (R352). -/
def linkOk (rxId : W32) (h : LinkHeader) (m : LinkMsg) : Bool :=
  linkCrc rxId m.ty h = h.crc && h.sof = m.cls && m.lenOk h.len.toNat && linkBytes h = 16 + h.len.toNat

/-! ## What a port sends -/

/-- The header of a frame that carries message `m`, with its CRC for the receiver whose OWN_ID is `rxId`. -/
def linkForm (rxId : W32) (m : LinkMsg) (fseq : Byte) (tag budget : W16) : LinkHeader :=
  let h : LinkHeader := { sof := m.cls, fseq := fseq, len := BitVec.ofNat 16 (payloadLen m), tag := tag, budget := budget,
                          param := m.param, payload := m.payload, crc := 0, eof := true }
  { h with crc := linkCrc rxId m.ty h }

/-- The bytes of a frame between its SOF and EOF symbols. -/
def linkWire (rxId : W32) (f : TxFrame) : List Byte :=
  let h := linkForm rxId f.msg f.fseq f.tag f.budget
  linkBody f.msg.ty h ++ bytesBE h.crc

/-- CRC-8 of R346: polynomial 0x07, initial value 0, no reflection. -/
def crc8 (bs : List Byte) : Byte :=
  bs.foldl (fun c b => (List.range 8).foldl (fun c _ => if bitAt c 7 then (c <<< 1) ^^^ 0x07#8 else c <<< 1) (c ^^^ b)) 0

/-- CRT for `units` of class `c`: its data bytes (Table 13-1). -/
def crtBytes (c : LinkClass) (units : Nat) : List Byte :=
  let v : Byte := BitVec.ofNat 8 (64 * c.code + 8 * (units - 1))
  [v, ~~~v]

def ackBytes (c : LinkClass) (fseq : Byte) : List Byte := [BitVec.ofNat 8 (64 * c.code), fseq]

/-- CEN: held credits, returns received, CK. -/
def cenBytes (b : List Byte) : List Byte := b ++ [crc8 b]

/-- MARK `t` with `v` and CK. -/
def markBytes (t : Byte) (v : BitVec 24) : List Byte :=
  let b : List Byte := [t, field v 16 8, field v 8 8, field v 0 8]
  b ++ [crc8 b]

/-- CK of a received MARK passes. -/
def markOk (t : Byte) (v : BitVec 24) (ck : Byte) : Bool := markBytes t v = [t, field v 16 8, field v 8 8, field v 0 8, ck]

end Sys2Proof.Machine
end

