-- ==== Sys2Proof/Machine/WheelOps.lean ====
section
/-!
DEFINITION. Shared operations of the tide wheels (10): increments, states, the discipline of an accepted event, starts and changes of
configuration.
-/
namespace Sys2Proof.Machine

/-! ## Configuration and increments (R267, R275, R276) -/

/-- TIDE entry of wheel `w` in force. -/
def State.tide (s : State) (w : WheelIx) : TideCfg := match s.boot.gen with
  | some g => g.tide[w]
  | none => {}

def incNom (c : TideCfg) : Int := divRound (2 ^ 64) (10 * c.periodUs.toNat)
/-- SLEW_PPM; 0xFFFF selects 50. -/
def slewPpm (c : TideCfg) : Nat := if c.slewPpm = 0xFFFF then 50 else c.slewPpm.toNat
def smax (c : TideCfg) : Int := divRound (incNom c * slewPpm c) 1000000
def frange (c : TideCfg) : Int := divRound (incNom c * (if c.ref = 2 then 50000 else 200)) 1000000
def tideKp (c : TideCfg) : Int := orDefault c.kp.toNat 0x8000
def tideKi (c : TideCfg) : Int := orDefault c.ki.toNat 0x1000
def tideStepNs (c : TideCfg) : Int := orDefault c.stepNs.toNat 1000000
def lockNs (c : TideCfg) : Nat := if c.ref = 2 then 50000 else 300

/-- An increment as the accumulator's 64 bits. -/
def incWord (v : Int) : W64 := BitVec.ofInt 64 v

/-- INC_HOLD = INC_NOM + F (R280). -/
def incHold (c : TideCfg) (x : Wheel) : W64 := incWord (incNom c + x.f)

def State.modWheel (s : State) (w : WheelIx) (f : Wheel → Wheel) : State := { s with wheel := modAt s.wheel w f }

/-- The wheel has been started. -/
def started (x : Wheel) : Bool := x.state ≠ .stopped

/-- The first tick whose count is a multiple of 10,000 and at least `t`. [log 70: DEDUCED, unsafe] -/
def gridTick (t : W64) : W64 := BitVec.ofNat 64 ((t.toNat + 9999) / 10000 * 10000)

/-- The apply tick of something decided at capture tick `t` (R274). -/
def applyTick (t : W64) : W64 := gridTick (t + 2000)

/-! ## States (Table 10-3) -/

/-- The WHEELS endpoint (Table 11-5). -/
def putWheels (s : State) : State :=
  putHealth s 0xF08 6 ((putN 0 3 s.wheel[0].state.code.toNat ||| putN 3 3 s.wheel[1].state.code.toNat ||| putN 6 3 s.wheel[2].state.code.toNat
    ||| putN 9 3 s.wheel[3].state.code.toNat ||| putB 12 ((List.finRange 4).any fun w => s.wheel[w].uncert)).setWidth 16)

/-- Event 72 + w with TWn.STAT. -/
def raiseTide (s : State) (w : WheelIx) : State := raise s (srcTide w) (twStatWord s.wheel[w] (chgPend s w))

/-- The quality R281 gives changes: the endpoints that carry it follow. [log 71: DEDUCED, unsafe] -/
def setUncert (s : State) (w : WheelIx) (b : Bool) : State :=
  let v := b && (s.tide w).ref ≠ 0 && s.wheel[w].state ≠ .free
  if s.wheel[w].uncert = v then s else refreshAll (putWheels (s.modWheel w fun x => { x with uncert := v }))

/-- A change of state (R277), with the holdover's length (Table 10-12) and the interval of R281. -/
def setWheel (s : State) (w : WheelIx) (st : WState) : State :=
  if s.wheel[w].state = st then s
  else
    let s1 := s.modWheel w fun x =>
      { x with state := st
               holdSec := match x.state, x.holdStart with | .holdover, some t => BitVec.ofNat 32 (s.since t / secTicks 1) | _, _ => x.holdSec
               holdStart := if st = .holdover then some s.tick else none
               goodRun := 0 }
    let s2 := match st with
      | .acquire | .holdover => setUncert s1 w true
      | .locked => setUncert s1 w s1.wheel[w].upUncert
      | .free => setUncert s1 w false
      | _ => s1
    let s3 := raiseTide (putWheels s2) w
    if st = .holdover then raise s3 srcTideLost (putN 0 2 w.val) else s3

/-- FREE for REF 0 and HOLDOVER otherwise. -/
def restState (c : TideCfg) : WState := if c.ref = 0 then .free else .holdover

/-- The reference chain restarts (R271). -/
def dropChain (x : Wheel) : Wheel :=
  { x with qualified := false, last := none, lastInterval := none, chain := 0, events := [], mains := 0, mainsTick := none }

/-- F as R274 last left it: the one that waits for its apply tick, if any. -/
def lastF (x : Wheel) : Int := match x.next with
  | some p => p.f
  | none => x.f

/-- S := 0 from the next apply tick; a step already decided stands. -/
def slewEnd (s : State) (x : Wheel) : Wheel :=
  match x.next with
  | some { step := some _, .. } => x
  | _ => { x with next := some { tick := applyTick s.tick, f := lastF x, s := 0, step := none } }

/-- F becomes `f` and S 0 at once; nothing decided before stands. [log 71: DEDUCED, unsafe] -/
def slewNow (c : TideCfg) (x : Wheel) (f : Int) : Wheel :=
  let y := { x with f := f, s := 0, next := none }
  { y with inc := incHold c y }

/-- The device enters STOP. -/
def wheelsStop (s : State) : State :=
  (List.finRange 4).foldl (fun a w =>
    if started a.wheel[w] then setWheel (a.modWheel w fun x => slewNow (a.tide w) (dropChain x) (lastF x)) w (restState (a.tide w)) else a) s

/-- The wheel's reference is lost, or XIN fails. -/
def wheelLost (s : State) (w : WheelIx) (byRef : Bool) : State :=
  let st := s.wheel[w].state
  let s1 := s.modWheel w dropChain
  if st = .acquire || st = .slewing || st = .locked then
    setWheel (s1.modWheel w fun x => slewEnd s { x with losses := if byRef then satInc x.losses else x.losses }) w .holdover
  else s1

/-- REINIT of function 0x14 + w (Table 10-3, R291); while characters run on the wheel it raises its event though the state stays (Table 10-8). -/
def wheelReinit (s : State) (w : WheelIx) : State :=
  if !started s.wheel[w] then s.modWheel w fun x => { x with accepted := 0, rejected := 0, eNs := 0, refTick := x.refTick, unc := 0, hops := 0 }
  else
    let s1 := s.modWheel w fun x =>
      slewNow (s.tide w) { dropChain x with accepted := 0, rejected := 0, eNs := 0, unc := 0, hops := 0 } 0
    let st := restState (s.tide w)
    if s.wheel[w].state = st && (List.finRange 16).any (fun n => charWheel s n = some w) then raiseTide s1 w else setWheel s1 w st

/-- Step 10 of R62. Not re-adopted: A, F and S are 0 at the first tick of the 10,000 grid. Re-adopted: the field die's wheels are taken; a wheel it has
not started begins as above. [log 70: DEDUCED, unsafe] -/
def wheelStart (s : State) (readopt : Bool) (w : WheelIx) : State :=
  let c := s.tide w
  let fresh : Wheel := { waitFrom := s.tick }
  let s1 := s.modWheel w fun _ =>
    if readopt && s.fd.wheelOn[w] then
      let inc := s.fd.incHold[w]
      { fresh with acc := s.fd.acc[w], prev := s.fd.acc[w], inc := inc, f := inc.toInt - incNom c }
    else { fresh with next := some { tick := gridTick s.tick, f := 0, s := 0, step := none } }
  setWheel s1 w (if readopt then restState c else if c.ref = 0 then .free else .acquire)

def wheelsStart (s : State) (readopt : Bool) : State := (List.finRange 4).foldl (fun a w => wheelStart a readopt w) s

/-- TWn.LINK and UP_UNCERT tell of TIME records, which only a wheel with REF 4 accepts (Table 10-12). -/
def linkWords (c : TideCfg) (x : Wheel) : Wheel := if c.ref = 4 then x else { x with unc := 0, hops := 0, upUncert := false }

/-- A generation replaces TIDE entry `o` of wheel `w` by the one in force (Table 10-3, R277). With REF 0 a wheel runs with F = 0, as R269 states.
[log 166: DEDUCED, unsafe] -/
def wheelConfigure (s : State) (o : TideCfg) (w : WheelIx) : State :=
  let c := s.tide w
  if !started s.wheel[w] then s
  else if o.ref ≠ c.ref || o.refPort ≠ c.refPort || (o.mainsN ≠ c.mainsN) then
    let s1 := s.modWheel w fun x =>
      let f := if c.ref = 0 then 0 else if o.periodUs = c.periodUs then lastF x else divRound (lastF x * incNom c) (incNom o)
      slewNow c (linkWords c (dropChain x)) (clampInt (-(frange c)) (frange c) f)
    setWheel s1 w (restState c)
  else if o.periodUs ≠ c.periodUs then
    s.modWheel w fun x => slewNow c x (divRound (lastF x * incNom c) (incNom o))
  else s

/-! ## Accepted events -/

/-- A step has been decided and waits for its apply tick: reference events are discarded and not counted (R279). -/
def stepPending (x : Wheel) : Bool := x.next.any (·.step.isSome)

/-- An event captured at tick `t` with expected phase `phi`. -/
def captureEvent (s : State) (w : WheelIx) (phi : W32) (t : W64) : State :=
  s.modWheel w fun x =>
    if stepPending x then x
    else
      let q := x.qualified || 2 ≤ x.chain
      { x with events := x.events ++ [{ tick := t, phase := field (x.acc - x.inc * (s.tick - t)) 32 32, phi := phi, prev := x.last, qualifies := q }]
               qualified := q, chain := min 3 (x.chain + 1), last := some t
               lastInterval := x.last.map fun l => (t - l).toNat }

/-- A rejected event. -/
def rejectEvent (s : State) (w : WheelIx) : State :=
  s.modWheel w fun x => if stepPending x then x else { x with rejected := satInc x.rejected }

/-- The error e of R274. -/
def phaseError (v : RefEvent) : Int := (v.phi - v.phase).toInt

/-- e_ns of R274. -/
def errorNs (c : TideCfg) (e : Int) : Int := divRound (e * 1000 * c.periodUs.toNat) (2 ^ 32)

/-- F and S of R274 for error `e` over `d` ticks. [log 71: DEDUCED, unsafe] -/
def discipline (c : TideCfg) (f : Int) (e : Int) (d : Nat) : Int × Int :=
  let u := divRound (e * 2 ^ 32) d
  let sp := narrow (tideKp c * u) 16
  let f1 := if (sp.natAbs : Int) ≤ smax c then f + clampInt (-(smax c)) (smax c) (narrow (tideKi c * u) 16) else f
  (clampInt (-(frange c)) (frange c) f1, clampInt (-(smax c)) (smax c) sp)

/-- R278: the wheel steps at this event. -/
def steps (c : TideCfg) (x : Wheel) (ns : Int) (inAcquire : Bool) : Bool :=
  (c.stepEn && (ns.natAbs : Int) > tideStepNs c && x.sinceStep = 3) || (inAcquire && ns.natAbs > 10 * lockNs c)

/-- One accepted event processed (R274–R279). [log 71: DEDUCED, unsafe] -/
def processEvent (s : State) (w : WheelIx) (v : RefEvent) : State :=
  let c := s.tide w
  let e := phaseError v
  let ns := errorNs c e
  let inAcq := s.wheel[w].state = .acquire
  let s1 := s.modWheel w fun x => { x with accepted := x.accepted + 1, eNs := toW32 (satSigned 32 ns), refTick := v.tick.setWidth 32 }
  let s2 := if ns.natAbs > 10 * lockNs c then setUncert s1 w true else s1
  if !v.qualifies then s2.modWheel w fun x => { x with sinceStep := min 3 (x.sinceStep + 1) }
  else
    let s3 := if s2.wheel[w].state = .acquire || s2.wheel[w].state = .holdover then setWheel s2 w .slewing else s2
    let s3 := if s3.wheel[w].state = .locked && ns.natAbs > lockNs c then setWheel s3 w .slewing else s3
    let s4 := s3.modWheel w fun x => { x with goodRun := if ns.natAbs ≤ lockNs c then x.goodRun + 1 else 0 }
    let s5 :=
      if steps c s4.wheel[w] ns inAcq then
        s4.modWheel w fun x => { x with next := some { tick := applyTick v.tick, f := lastF x, s := 0, step := some e }
                                        sinceStep := 0, events := [], last := some v.tick
                                        lastInterval := v.prev.map fun t => (v.tick - t).toNat }
      else
        s4.modWheel w fun x =>
          let r := discipline c (lastF x) e (match v.prev with | some t => (v.tick - t).toNat | none => 1)
          { x with next := some { tick := applyTick v.tick, f := r.1, s := r.2, step := none }, sinceStep := min 3 (x.sinceStep + 1) }
    if s5.wheel[w].state = .slewing && 3 ≤ s5.wheel[w].goodRun then setWheel s5 w .locked else s5

/-! ## New increments -/

/-- The wheel at tick `t` with its pending increment or step `p` applied at `p.tick`, from what it holds at tick `now`: the apply tick's addition uses
the new increment (R274, R288), a step adds its error there (R279), and a wheel that has not run yet begins with A = 0 (Table 10-3).
[log 70: DEDUCED, unsafe] -/
def applied (c : TideCfg) (x : Wheel) (p : PendingInc) (now t : W64) : Wheel :=
  let inc := incWord (incNom c + p.f + p.s)
  let before := x.acc + x.inc * (p.tick - 1 - now)
  let at0 := if x.inc = 0 then 0 else before + inc + (match p.step with | some e => BitVec.ofInt 64 e <<< 32 | none => 0)
  { x with acc := at0 + inc * (t - p.tick), prev := if t = p.tick then (if x.inc = 0 then 0 else before) else at0 + inc * (t - p.tick - 1)
           inc := inc, f := p.f, s := p.s, next := none, steps := if p.step.isSome then satInc x.steps else x.steps }

/-- F and S of a pending increment take force at its apply tick. -/
def applyInc (s : State) (w : WheelIx) (p : PendingInc) : State := s.modWheel w fun x => applied (s.tide w) x p s.tick s.tick

/-- What waits for its apply tick is due. -/
def incDue (s : State) (x : Wheel) : Option PendingInc := x.next.filter fun p => p.tick.toNat ≤ s.tick.toNat

/-! ## Phases (R283) -/

/-- Phase `x` lies in (p(t − 1), p(t)], with `prev` and `acc` the accumulator at the two ticks; nothing does when a step has turned the wheel back
(R279). -/
def fires (prev acc : W64) (x : W32) : Bool :=
  let d := (x - phaseOf prev).toNat
  0 < d && (d : Int) ≤ (phaseOf acc - phaseOf prev).toInt

end Sys2Proof.Machine
end

