-- ==== Sys2Proof/Machine/LinkOps.lean ====
section
/-!
DEFINITION. Shared operations of the Svasta Link: acceptance of frames, credits, re-initialisation of a port, group-map entries, fences and
the responses of routed requests (11 R306–R313, 13 R352–R368).
-/
namespace Sys2Proof.Machine

/-! ## Frames and credits -/


/-- Units of a frame of `b` bytes (R348, R361): one for each 64 bytes begun, at most 4. -/
def unitsOf (b : Nat) : Nat := min 4 ((b + 63) / 64)

/-- Credit totals (R360). -/
def creditTotal : LinkClass → Nat
  | .request => 8 | .response => 8 | .urgent => 4

def Port.cls (p : Port) : LinkClass → PortClass
  | .request => p.req | .response => p.rsp | .urgent => p.urg

def Port.modCls (p : Port) (c : LinkClass) (f : PortClass → PortClass) : Port :=
  match c with
  | .request => { p with req := f p.req }
  | .response => { p with rsp := f p.rsp }
  | .urgent => { p with urg := f p.urg }

/-- The values RET took within the last millisecond, and the one before them. -/
def recentHist (tick : W64) : List (W64 × Byte) → List (W64 × Byte)
  | [] => []
  | x :: xs => if (tick - x.1).toNat < 10000 then x :: recentHist tick xs else [x]

/-- Units of class `c` freed and returned in a CRT (R361). -/
def freeUnits (p : Port) (c : LinkClass) (units : Nat) (tick : W64) : Port :=
  let q := p.modCls c fun x => { x with ret := x.ret + BitVec.ofNat 8 units,
                                        retHist := (tick, x.ret + BitVec.ofNat 8 units) :: recentHist tick x.retHist }
  { q with out := q.out ++ [.crt (crtBytes c units)] }

/-- ROLE of port `k` (0 disabled, 1 upstream, 2 downstream). -/
def State.linkCfg (s : State) (k : PortIx) : LinkCfg := match s.boot.gen with
  | some g => g.link[k]
  | none => {}
def State.role (s : State) (k : PortIx) : Nat := (s.linkCfg k).role.toNat

/-- The ROLE of the ports a frame type may arrive on (Table 13-3): none for either. -/
def arrivalRole : LinkMsg → Option Nat
  | .update _ _ | .fenceRsp _ | .disc _ _ | .lamp _ _ _ | .event _ _ _ => some 2
  | .fence _ | .updateAck _ | .time _ _ => some 1
  | _ => none

/-- Event 84 + n, for CRC_ERR at most once a second (R375). [log 89: DEDUCED, unsafe] -/
def raiseLinkErr (s : State) (k : PortIx) : State := raise s (srcLinkErr k) (lnkErrWord s.port[k])

/-- A frame discarded for its CRC or form (R352), with the event a rise of CRC_ERR raises (R375). [log 89: DEDUCED, unsafe] -/
def crcError (s : State) (k : PortIx) : State :=
  let s1 := s.modPort k fun p => { p with crcErr := satInc p.crcErr }
  let due : Bool := match s.port[k].crcEventAt with
    | some t => secTicks 1 ≤ s.since t
    | none => true
  if due && s.port[k].crcErr ≠ s1.port[k].crcErr then raiseLinkErr (s1.modPort k fun p => { p with crcEventAt := some s.tick }) k else s1

/-- The message may arrive on port `k` (Table 13-3). -/
def permittedOn (s : State) (k : PortIx) (m : LinkMsg) : Bool := match arrivalRole m with
  | some r => s.role k = r
  | none => true

/-- The units of an accepted frame: held in its buffer, or returned at once (R361). -/
def takeUnits (p : Port) (c : LinkClass) (units : Nat) (hold : Bool) (tick : W64) : Port :=
  if hold then p.modCls c fun x => { x with occupied := x.occupied + units } else freeUnits p c units tick

/-- A frame that is none of a port's in TRAINING is discarded; one that is aborted, or fails its CRC or form, is counted (R352). -/
def trainingFrame (s : State) (k : PortIx) (h : LinkHeader) (m : LinkMsg) : State :=
  if s.port[k].state ≠ .training then s
  else if !h.eof then s.modPort k fun p => { p with aborts := satInc p.aborts }
  else if !linkOk (s.linkCfg k).ownId h m then crcError s k
  else s

/-- A frame of message `m` received on an UP port (R352): accepted, acknowledged and then taken by `f`, or discarded and counted. An accepted
frame of a type not permitted in its direction is dropped under PROTO. Its units are returned, unless `hold` keeps its buffer. -/
def receiveFrame (s : State) (k : PortIx) (h : LinkHeader) (m : LinkMsg) (hold : Bool) (f : State → State) : State :=
  if s.port[k].state ≠ .up then trainingFrame s k h m
  else
    let units := unitsOf (linkBytes h)
    if !h.eof then s.modPort k fun p => freeUnits { p with aborts := satInc p.aborts } h.sof units s.tick
    else if !linkOk (s.linkCfg k).ownId h m then (crcError s k).modPort k fun p => freeUnits p h.sof units s.tick
    else if h.fseq ≠ (s.port[k].cls h.sof).rxSeq then s.modPort k fun p => freeUnits p h.sof units s.tick
    else
      let ok := permittedOn s k m
      let s1 := s.modPort k fun p =>
        let q := p.modCls h.sof fun x => { x with rxSeq := x.rxSeq + 1 }
        takeUnits { q with rxCnt := q.rxCnt + 1, out := q.out ++ [.ack (ackBytes h.sof h.fseq)] } h.sof units (hold && ok) s.tick
      if ok then f s1 else s1.modPort k fun p => { p with proto := satInc p.proto }

/-! ## Group map entries -/

/-- Entry `j`'s state. -/
def modEntry (s : State) (j : Fin 256) (f : EntryState → EntryState) : State :=
  { s with img := { s.img with entry := modAt s.img.entry j f } }

/-- Event 88 for entry `j` (Table 18-1). -/
def raiseMember (s : State) (j : Fin 256) : State :=
  let e := s.img.entry[j]
  raise s srcMember (putN 0 8 j.val ||| put 8 e.state ||| putB 10 e.outside)

/-- A word under quality `q`. -/
def withQual (q : BitVec 4) (w : W32) : W32 := (w &&& ~~~(0x00F00000#32)) ||| put 20 q

/-- QUAL `q` over every copy of an entry; VALUE, CLASS and SEQ are kept (R295, R306). -/
def overrideCopies (s : State) (e : GroupEntry) (q : BitVec 4) : State :=
  let upd (m : List (Nat × W32)) (i : Nat) : List (Nat × W32) :=
    let a := e.subBase.toNat + i
    swrite epNoComm m a (withQual q (sread epNoComm m a))
  let s1 := (List.range (2 ^ e.subLog2.toNat)).foldl (fun a i =>
    let x := e.subBase + BitVec.ofNat 20 i
    if epQual (s.ep x) = q then a else noteChange a x) s
  { s1 with img := { s1.img with copies := (List.range (2 ^ e.subLog2.toNat)).foldl upd s.img.copies } }

/-- The listed copies of an entry carry BAD_NO_COMM; an unlisted copy reads so already. The words that change enter the change set (R305). -/
def copiesNoComm (s : State) (e : GroupEntry) : State :=
  if !s.votes then s
  else
  let mine (c : Nat × W32) : Bool := e.subBase.toNat ≤ c.1 && c.1 < e.subBase.toNat + 2 ^ e.subLog2.toNat
  let s1 := (s.img.copies.filter fun c => mine c && epQual c.2 ≠ qNoComm).foldl (fun a c => noteChange a (BitVec.ofNat 20 c.1)) s
  { s1 with img := { s1.img with copies := (s.img.copies.filterMap fun c =>
      if mine c then (if withQual qNoComm c.2 = epNoComm then none else some (c.1, withQual qNoComm c.2)) else some c) } }

/-- The group map entries with their indices. -/
def State.entries (s : State) : List (Fin 256 × GroupEntry) :=
  ((List.range s.group.entries.length).zip s.group.entries).map fun e => ((BitVec.ofNat 8 e.1).toFin, e.2)

/-- An entry whose port is lost (R306): state 2, copies BAD_NO_COMM, a loss counted and event 88 once. The neighbour's window is unknown until its next
DISC (R369). -/
def entryLost (s : State) (j : Fin 256) (e : GroupEntry) : State :=
  raiseMember (modEntry (copiesNoComm s e) j fun x => { x with state := 2, outside := false, losses := satInc x.losses }) j

/-- Entries naming port `k` after its loss. -/
def entriesLost (s : State) (k : PortIx) : State :=
  s.entries.foldl (fun a je => if je.2.port = k then entryLost a je.1 je.2 else a) s

/-- A word arrives from an entry (R306). -/
def entryArrival (s : State) (j : Fin 256) (sweep : Bool) : State :=
  modEntry s j fun x => { x with state := 1, heard := s.tick, sweepTick := if sweep then s.tick else x.sweepTick }

/-- An entry whose port is up is current, from when on a word is awaited from it (R306). [log 80: DEDUCED, unsafe] -/
def entryUp (tick : W64) (x : EntryState) : EntryState := { x with state := 1, heard := tick, outside := false }

/-- Entries naming port `k` at its entry to UP. -/
def entriesUp (s : State) (k : PortIx) : State :=
  s.entries.foldl (fun a je => if je.2.port = k then modEntry a je.1 (entryUp s.tick) else a) s

/-- LINKS health endpoint (Table 11-5). -/
def putLinks (s : State) : State :=
  putHealth s 0xF09 6 ((put 0 s.port[0].state.code ||| put 2 s.port[1].state.code ||| put 4 s.port[2].state.code
    ||| put 6 s.port[3].state.code).setWidth 16)

/-- A change of a port's state raises event 80 + n (R353). -/
def setPortState (s : State) (k : PortIx) (st : PortState) : State :=
  if s.port[k].state = st then s
  else
    let s1 := s.modPort k fun p => { p with state := st }
    putLinks (raise s1 (srcLink k) (lnkStatWord s1.port[k]))

/-! ## Responses -/

/-- A merge record whose reasons have all come answers its request with one WRITE_RSP in the original entry order (R365). -/
def closeMerge (s : State) (id : Nat) : State :=
  match s.img.merges.find? (·.id = id) with
  | none => s
  | some g =>
    if g.reasons.all Option.isSome then
      let s1 := { s with img := { s.img with merges := s.img.merges.filter (·.id ≠ id) } }
      sendResponse s1 g.port (.writeRsp (g.reasons.map (·.getD 0))) g.tag
    else s

/-- Reasons `rs` put at positions `pos` of a merge record. -/
def fillReasons (l : List (Option Byte)) : List Nat → List Byte → List (Option Byte)
  | i :: is, r :: rs => fillReasons (l.set i (some r)) is rs
  | _, _ => l

def mergeFill (s : State) (id : Nat) (pos : List Nat) (rs : List Byte) : State :=
  closeMerge { s with img := { s.img with merges := s.img.merges.map fun g =>
    if g.id = id then { g with reasons := fillReasons g.reasons pos rs } else g } } id

/-- Every pending fence changed by `f`. -/
def modFences (s : State) (f : PendingFence → PendingFence) : State :=
  { s with img := { s.img with fencesLocal := s.img.fencesLocal.map f, fencesUp := s.img.fencesUp.map f } }

/-- A fence that waits for port `k`'s response does so no longer; `part` marks it PARTIAL (R311, R312). -/
def fenceHeard (s : State) (id : Nat) (k : PortIx) (part : Bool) : State :=
  modFences s fun x =>
    if x.id = id && x.ports.contains k then { x with ports := x.ports.filter (· ≠ k), partialFlag := x.partialFlag || part } else x

/-- Every pending fence drops the routed write with identity `id` from its conditions (R311 condition 2). -/
def fenceWriteDone (s : State) (id : Nat) : State := modFences s fun x => { x with writes := x.writes.filter (· ≠ id) }

/-- Words `ws` go out in update request `id`: the fences that waited for their sending wait for its acknowledgement (R312). -/
def fenceWordsSent (s : State) (id : Nat) (ws : List (BitVec 20)) : State :=
  modFences s fun x =>
    if x.words.any ws.contains then { x with words := x.words.filter fun a => !ws.contains a, updates := x.updates ++ [id] } else x

/-- A write that waited is routed: the fences that waited for it wait for its requests, those with identities from `n` on (R311). -/
def fenceRouted (s : State) (id n : Nat) : State :=
  modFences s fun x =>
    if x.writes.contains id then { x with writes := x.writes.filter (· ≠ id) ++ (s.img.out.filter fun r => n ≤ r.id).map (·.id) } else x

/-- Update request `id` is acknowledged. -/
def fenceUpdateDone (s : State) (id : Nat) : State := modFences s fun x => { x with updates := x.updates.filter (· ≠ id) }

/-- Update request `id` failed: its words must be sent again. -/
def fenceUpdateFailed (s : State) (id : Nat) (ws : List (BitVec 20)) : State :=
  modFences s fun x => if x.updates.contains id then { x with updates := x.updates.filter (· ≠ id), words := x.words ++ ws } else x

/-- Request `r` taken from the outstanding ones. -/
def dropOut (s : State) (r : OutRequest) : State :=
  { s with img := { s.img with out := s.img.out.filter fun x => x.id ≠ r.id } }

/-- A request ends without an owner's answer: with ERROR_RSP `code` (3 TIMEOUT, 4 NO_ROUTE, 5 LOOP) or by time-out (R365, R366). At the
origin the reasons are 5, 4 and 6; a merged part takes those reasons; an unsplit forwarded request is answered with the ERROR_RSP. [log 79: DEDUCED, unsafe] -/
def requestFailed (s : State) (r : OutRequest) (code : Byte) : State :=
  let reason : BitVec 3 := if code = 4 then rsNoRoute else if code = 5 then rsLoop else rsTimeout
  let s := dropOut s r
  let s := if code = 3 then s.modPort r.port fun p => { p with timeouts := satInc p.timeouts } else s
  match r.kind with
  | .origin src addrs => fenceWriteDone (addrs.foldl (fun a x => recordRefusal a x reason src) s) r.id
  | .transit id pos =>
    let s := fenceWriteDone s r.id
    match s.img.merges.find? (·.id = id) with
    | some g =>
      if g.reasons.length = pos.length then
        sendResponse { s with img := { s.img with merges := s.img.merges.filter (·.id ≠ id) } } g.port (.errorRsp code) g.tag
      else mergeFill s id pos (pos.map fun _ => reason.setWidth 8)
    | none => s
  | .fence id => fenceHeard s id r.port true
  | .update true _ => s
  | .update false addrs =>
    fenceUpdateFailed { s with img := { s.img with changes := addrs.filter (fun a => !s.img.changes.contains a) ++ s.img.changes } } r.id addrs

/-! ## Re-initialisation of a port (R353) -/

/-- The counters, credits, buffers and training state of a port emptied, in state `st`; what R375 keeps stays. A forwarded urgent frame that has not
been sent waits on in the urgent buffer of its arrival port (R368). -/
def clearedPort (p : Port) (cause : BitVec 4) (st : PortState) : Port :=
  { p with state := st, lastCause := cause, reinits := satInc p.reinits, peerWinBase := 0, peerWinLog2 := 0, peerWinValid := false,
           req := {}, rsp := {}, urg := { waiting := p.urg.waiting.filter (·.hold.isSome) }, trainRun := 0, seen := false, seenSent := false,
           peerSeen := false, ready := false, readySent := false, exchanges := 0, exchOpen := none, mark := none, viols := [], buffered := [],
           out := [] }

/-- Nothing new on the lines yet. -/
def clearOut (s : State) : State := { s with port := s.port.map fun p => { p with out := [] } }

/-- A waiting frame leaves its buffer, whose units are returned (R361). -/
def releaseBuffer (s : State) (k : PortIx) (b : BufferedRequest) : State :=
  if b.units = 0 then s
  else s.modPort k fun p => freeUnits (p.modCls b.msg.cls fun x => { x with occupied := x.occupied - b.units }) b.msg.cls b.units s.tick

/-- A waiting frame is lost. -/
def dropBuffered (s : State) (k : PortIx) (b : BufferedRequest) : State :=
  fenceWriteDone ((releaseBuffer s k b).modPort k fun p => { p with buffered := p.buffered.erase b }) b.id

/-- The requests forwarded on port `k` fail at once with TIMEOUT, and fences stop waiting for it (R365, R311 condition 3). A request of
this device's own waits for its time-out. -/
def failPort (s : State) (k : PortIx) : State :=
  (s.img.out.filter (·.port = k)).foldl (fun a r => match r.kind with | .origin _ _ => a | _ => requestFailed a r 3) s

/-- The units a forwarded urgent frame held are freed at its arrival port. -/
def freeHeld (s : State) (f : TxFrame) : State :=
  match f.hold with
  | some (j, u) =>
    if s.port[j].state = .up then
      s.modPort j fun p => freeUnits (p.modCls .urgent fun x => { x with occupied := x.occupied - u }) .urgent u s.tick
    else s
  | none => s

/-- Frames on other ports no longer hold units of port `k`, whose books start afresh. -/
def unholdFrom (k : PortIx) (l : List TxFrame) : List TxFrame :=
  l.map fun f => match f.hold with
    | some (j, _) => if j = k then { f with hold := none } else f
    | none => f

/-- What port `k`'s sent urgent frames hold elsewhere is freed, and nothing holds units of port `k`. -/
def dropHolds (s : State) (k : PortIx) : State :=
  let s1 := s.port[k].urg.unacked.foldl freeHeld s
  { s1 with port := s1.port.map fun p =>
      { p with urg := { p.urg with waiting := unholdFrom k p.urg.waiting, unacked := unholdFrom k p.urg.unacked } } }

/-- The wheels that follow the link port `k` lose their reference when it is declared down (R271). -/
def wheelsOfPort (s : State) (k : PortIx) : State :=
  (List.finRange 4).foldl (fun a w =>
    if started a.wheel[w] && (a.tide w).ref = 4 && (a.tide w).refPort = k && a.m.mode ≠ .stop then wheelLost a w true else a) s

/-- PORT_REINITIALISE: the port goes DOWN, or with ROLE 0 to DISABLED, for `cause` (Table 13-9's codes); a DISABLED port stays so. Entries naming a
port that leaves UP, and wheels following it, are lost. Events 80 + n for the state and 84 + n for REINITS. -/
def portLeave (s : State) (k : PortIx) (cause : BitVec 4) (st : PortState) : State :=
  if s.port[k].state = .disabled then s
  else
    let wasUp := s.port[k].state = .up
    let changed := s.port[k].state ≠ st
    let rose := s.port[k].reinits ≠ 255
    let s0 := s.port[k].buffered.foldl (fun a b => fenceWriteDone a b.id) (dropHolds s k)
    let s1 := failPort (s0.modPort k fun p => clearedPort p cause st) k
    let s2 := if changed then putLinks (raise s1 (srcLink k) (lnkStatWord s1.port[k])) else s1
    let s3 := if rose then raiseLinkErr s2 k else s2
    if wasUp then wheelsOfPort (entriesLost s3 k) k else s3

def portReinit (s : State) (k : PortIx) (cause : BitVec 4) : State := portLeave s k cause .down

/-- Every port re-initialised. -/
def portsDown (s : State) (cause : BitVec 4) : State := (List.finRange 4).foldl (fun a k => portReinit a k cause) (clearOut s)

/-! ## Fences (R310–R313) -/

/-- The ports some entry names. -/
def State.memberPorts (s : State) : List PortIx := (List.finRange 4).filter fun k => s.group.entries.any (·.port = k)

/-- A fence placed, with its requests sent on every member port that is up; refused and counted beyond 8 of its group (R310, R311). [log 79: DEDUCED, unsafe] -/
def placeFence (s : State) (tag : W16) (src : FenceSource) (budget : W16) : State × Bool :=
  let up := match src with | .upstream _ _ => true | _ => false
  let held := if up then s.img.fencesUp.length else s.img.fencesLocal.length
  if held ≥ 8 then ({ s with img := { s.img with fenceRefused := satInc s.img.fenceRefused } }, false)
  else
    let id := s.img.nextId
    let ports := s.memberPorts.filter fun k => s.port[k].state = .up
    let part := s.memberPorts.any (fun k => s.port[k].state ≠ .up)
      || s.entries.any fun je => s.img.entry[je.1].outside || s.img.entry[je.1].state = 3
    let writes := (s.img.out.filter fun r => match r.kind with | .origin _ _ | .transit _ _ => true | _ => false).map (·.id)
    let sent := (s.img.out.filter fun r => match r.kind with | .update false _ => true | _ => false).map (·.id)
    let waits := ((List.finRange 4).map fun k => (s.port[k].buffered.filter fun b => b.msg.isWrite).map (·.id)).flatten
    let f : PendingFence := { id := id, tag := tag, source := src, writes := writes ++ waits, ports := ports,
                              words := if up then s.img.changes else [], updates := if up then sent else [], partialFlag := part }
    let s1 := { s with img := { s.img with nextId := id + 1
                                           fencesLocal := if up then s.img.fencesLocal else s.img.fencesLocal ++ [f]
                                           fencesUp := if up then s.img.fencesUp ++ [f] else s.img.fencesUp } }
    (ports.foldl (fun a k => sendRequest a k (.fence tag) (.fence id) budget s.tick) s1, true)

/-- Every condition of a fence holds (R311, R312). -/
def PendingFence.ready (f : PendingFence) : Bool := f.writes.isEmpty && f.ports.isEmpty && f.words.isEmpty && f.updates.isEmpty

/-- The completion of tag T makes a pending generation with that tag due (R52) and begins an armed replacement (R422). -/
def fenceTag (s : State) (tag : W16) : State :=
  let s1 := { s with boot := { s.boot with pend := s.boot.pend.map fun p => if p.tag = tag then { p with due := true } else p } }
  if s.recov.stage = .armed && s.recov.stageTag = tag then
    let s2 := { s1 with recov := { s1.recov with stage := .switching, switchDue := true } }
    raise s2 srcStage (stageWord s2.recov)
  else s1

end Sys2Proof.Machine
end

