-- ==== Sys2Proof/Machine/ModeOps.lean ====
section
/-!
DEFINITION. Mode transitions (03 R67, R68, R72–R77): the change itself, entry to SAFE with its count, entry to STOP, and the return to RUN
or REDUCED.
-/
namespace Sys2Proof.Machine

/-- The MODE health endpoint (Table 11-5). -/
def putMode (s : State) : State :=
  let m := s.m
  putHealth s 0xF00 6 ((put 0 m.mode.code ||| put 3 m.prev.code ||| putB 6 m.laneRet ||| putB 7 m.chanRet ||| put 8 m.cause).setWidth 16)

/-- The debugger is detached when RUN or REDUCED is entered with DEBUG_RUN clear (R399); a halt is released within the tick. [log 97: DEDUCED,
unsafe] -/
def autoDetach (s : State) : State :=
  if s.triad.attached && !s.device.debugRun && (s.m.mode = .run || s.m.mode = .reduced) then
    let s1 := { s with triad := { s.triad with attached := false, haltReq := false, releasing := s.triad.halted } }
    raise s1 srcDebug (debugWord s1.triad)
  else s

/-- Whether channels stand in their applied safe states after the change (Table 4-7): in SAFE and STOP. -/
def markSafe (s : State) (b : Bool) : State := { s with ch := s.ch.map fun c => { c with safeApp := b } }

/-- What follows a change of DEV.MODE to `mode` (R67). Outside RUN and REDUCED HBEAT stays low (R33) and the next cycle counts as first (R320).
[log 135: DEDUCED, unsafe] -/
def modeChanged (s2 : State) (mode : Mode) : State :=
  let s2 := if mode = .run || mode = .reduced then s2 else
    { s2 with rul := { s2.rul with lastBoundary := none, overRun := 0, overSeen := false }, pins := { s2.pins with hbeat := false } }
  let s3 := if mode = .trim then s2 else
    { s2 with trim := { s2.trim with armValid := false, led := .off, both := false }, pins := { s2.pins with ledLow := false } }
  refreshAll (autoDetach s3)

/-- MODE, PREV and CAUSE written, with the endpoint (R67). -/
def writeMode (s : State) (mode : Mode) (cause : Byte) : State :=
  putMode { s with m := { s.m with mode := mode, prev := s.m.mode, cause := cause, reducedNow := none } }

/-- Event 71 of a change to REDUCED that nothing discarded, with the tick of the change (R68, R67). [log 86: DEDUCED, unsafe] -/
def raiseReduced (s : State) : State :=
  match s.m.reducedNow with
  | some e => raiseAt { s with m := { s.m with reducedNow := none } } srcMode e.1 e.2
  | none => s

/-- DEV.MODE changes to `mode` under `cause` (R67): PREV, CAUSE, the endpoint, event 71 and the channels' states. -/
def setMode (s : State) (mode : Mode) (cause : Byte) : State :=
  let s1 := writeMode (raiseReduced s) mode cause
  modeChanged (raise s1 srcMode (modeWord s1.m)) mode

/-! ## AO targets (07 Table 7-2) -/

/-- Orders 5 and 6 of Table 7-2. -/
def aoTarget (s : State) (n : Chan) (cmd : W16) (alarm : BitVec 2) : W16 :=
  if alarm ≠ 0 then alarmLevel (s.crec n) s.trim.almsel alarm else satClamp (s.crec n) cmd

/-- Order 2 of Table 7-2, and order 1: the regulator is off whatever is demanded. -/
def loopOff (s : State) (n : Chan) : Bool :=
  s.ch[n].retired || s.ch[n].life = .isolated || s.ch[n].life = .default || bitAt s.ch[n].w.wire wBlock

/-- CHn.LOOP.ALM_DIR_EFF: the effective direction of an AO (R175). -/
def putDir (s : State) (n : Chan) : State :=
  s.modLoop n fun l => { l with dirEff := isAO s.ch[n].kind && dirHigh (s.crec n) s.trim.almsel }

/-- Bits of CHn.LOOP that follow an AO's target, its endpoints' refused forms and COMPLIANCE: SAT_CLAMP (R174), REFUSED (R172), ALARM_FAIL with
event 4n + 3 at its setting (R180), ALM_DIR_EFF (R175). An isolated or retired channel fails no alarm (Table 7-3). [log 57: DEDUCED, unsafe] -/
def putLoop (s : State) (n : Chan) : State :=
  if !isAO s.ch[n].kind then putCommands s n
  else
    let l := s.loop[n]
    let act := bitAt l.live lAlarmAct
    let clamp := l.targetOn && !act && satClamp (s.crec n) l.cmd ≠ l.cmd
    let fail := !(s.ch[n].retired || s.ch[n].life = .isolated) && (l.alarmInc || (act && bitAt l.live lCompliance))
    let s1 := putDir (s.modLoop n fun l =>
      setLoop (setLoop (setLoop l lSatClamp clamp) lRefused (s.ch[n].cmdBad || l.alarmBad)) lAlarmFail fail) n
    putCommands (if fail && !bitAt l.live lAlarmFail then raiseMeasure s1 n 5 0 else s1) n

/-- The target of AO channel `n` becomes code `t.1`, an alarm level if `t.2` (R176), or off; a change is marked (R179, R188), and the DAC code of
a target that is on is computed (R257). -/
def setTarget (s : State) (n : Chan) (t : Option (W16 × Bool)) : State :=
  let c : W16 := (t.map (·.1)).getD 0
  let same := s.loop[n].targetOn = t.isSome && s.loop[n].deliver = c
  let s1 := s.modLoop n fun l =>
    { setLoop l lAlarmAct (t.any (·.2)) with deliver := c, targetOn := t.isSome, targetTick := if same then l.targetTick else s.tick }
  putLoop (if t.isSome then putDac s1 n else s1) n

/-- The regulator of an AO is off under order 2 of Table 7-2: its target is off and no R_L stands (R181). -/
def targetOff (s : State) (n : Chan) : State :=
  setTarget (s.modLoop n fun l => { l with rloop := 0xFFFF, riskSince := none, easeSince := none }) n none

/-- The field die is in reset or absent: every AO's target is off (Table 7-2 order 1), and TRIMSTAT.ALMSEL reads 0 (R208). -/
def fieldGone (s : State) : State :=
  (List.finRange 16).foldl (fun a n => if isAO a.ch[n].kind then targetOff a n else a) { s with trim := { s.trim with almsel := false } }

/-- The safe-state entry of channel `n`, its primary's while mapped (R107). -/
def safeEntry (s : State) (n : Chan) : SafeState :=
  match s.boot.gen with
  | some g => (match s.ch[n].roleOf with | some p => g.safe[p] | none => g.safe[n])
  | none => .off

/-- The AO target that a safe-state entry gives: off, the alarm level of the effective direction, or the last target held (R69, Table 7-2). -/
def safeTarget (s : State) (n : Chan) : State :=
  let s1 := s.modLoop n fun l => { l with safeTgt := true }
  if loopOff s n then targetOff s1 n
  else match safeEntry s n with
    | .off => setTarget s1 n none
    | .on => setTarget s1 n (some (alarmLevel (s.crec n) s.trim.almsel 1, true))
    | _ => putLoop s1 n

/-- What a safe-state entry leaves as the command and the AO target in force (Table 3-5). -/
def noteSafe (s : State) (n : Chan) : State :=
  if s.boot.gen.isNone then s
  else
    let s1 := match safeEntry s n with
      | .off => setCmd s n .dark
      | .on => setCmd s n .lit
      | .hold => s
      | .character k => setCmd s n (.character k)
    if isAO s.ch[n].kind then safeTarget s1 n else s1

/-- The DAC codes of the AO targets that are on. -/
def dacActs (s : State) : List FieldAct :=
  (List.finRange 16).filterMap fun n => if isAO s.ch[n].kind && s.loop[n].targetOn then some (.dac n s.conv.dac[n]) else none

/-- Safe states of every channel commanded at one target tick (R70), with the DAC codes of the targets they give (R257). -/
def commandSafeAll (s : State) : State :=
  let s1 := (List.finRange 16).foldl noteSafe s
  command s1 ((List.finRange 16).map .safe ++ dacActs s1)

/-- RUN or REDUCED, as a lane or channel is retired (Table 3-4). -/
def runMode (s : State) : Mode := if s.m.laneRet || s.m.chanRet then .reduced else .run

/-- Staging that was armed empties in STOP (Table 15-7). -/
def stageStop (s : State) : State :=
  if s.recov.stage = .armed then
    let s1 := { s with recov := { s.recov with stage := .empty } }
    raise s1 srcStage (stageWord s1.recov)
  else s

/-- A LEAVE_SAFE or LEAVE_TRIM still waiting for its rule cycle is refused with `result` and `detail` (R68). [log 86: DEDUCED, unsafe] -/
def refuseLeaving (s : State) (result : Byte) (detail : W32) : State := match s.m.leaving with
  | some i => mbxEnd { s with m := { s.m with leaving := none } } i result detail
  | none => s

/-- A trigger to SAFE or STOP, or ENTER_TRIM, in the rule cycle of a retirement decides: the change to REDUCED is discarded with its event, and
the mode before it stands as the one left (R68). [log 86: DEDUCED, unsafe] -/
def discardReduced (s : State) : State :=
  if s.m.reducedNow.isSome && s.m.mode = .reduced then { s with m := { s.m with mode := .run, reducedNow := none } } else s

/-- A trigger to STOP in the rule cycle of a SAFE entry decides: the entry is discarded with its counts, and the mode before it stands as the one
left (R68). The entry that reaches SAFE_COUNT is itself the trigger of R74 and stands. [log 86: DEDUCED, unsafe] -/
def discardSafe (s : State) (cause : Byte) : State :=
  match s.m.beforeSafe with
  | some b =>
    if s.m.mode = .safe && cause ≠ 0x0F then
      { s with m := { s.m with mode := b.mode, safeTicks := b.safeTicks, safeTotal := b.safeTotal, causes := b.causes, beforeSafe := none } }
    else s
  | none => s

/-- The rule cycle ends: what it changed by R68 stands. -/
def settleMode (s : State) : State := raiseReduced { s with m := { s.m with beforeSafe := none } }

/-- Dither stops on every channel (R76). -/
def ditherStop (s : State) : State := { s with fd := { s.fd with ch := s.fd.ch.map fun c => { c with dither := false } } }

/-- The COMMANDs of a rule cycle still in progress are not issued: its outputs are written and not acted on (R341, R72). -/
def dropStepFive (s : State) : State := { s with bw := { s.bw with stepFive := [] } }

/-- Entry to STOP (R74, R75, R76). A device in STOP stays there. -/
def enterStop (s : State) (cause : Byte) : State :=
  if s.m.mode = .stop then s
  else
    let s0 := ditherStop (refuseLeaving (discardReduced (discardSafe s cause)) rcWrongMode (put 0 Mode.stop.code))
    let s1 := setMode (markSafe { (dropStepFive s0) with m := { s0.m with afresh := false } } true) .stop cause
    stageStop (portsDown (wheelsStop (commandSafeAll s1)) 11)

/-- An automatic entry counted (R74): over the last 255 entries; STOP at the entry that reaches SAFE_COUNT within SAFE_WINDOW seconds. -/
def countSafe (s : State) : State :=
  let s1 := { s with m := { s.m with safeTicks := (s.tick :: s.m.safeTicks).take 255 } }
  let n := (s1.m.safeTicks.filter fun t => s1.since t < secTicks s1.device.safeWindow.toNat).length
  if s1.device.safeCount ≠ 0 && s1.device.safeCount.toNat ≤ n then enterStop s1 0x0F else s1

/-- A SAFE cause: entry from RUN, REDUCED and TRIM; recorded and counted in SAFE; without effect in LOAD and STOP (Table 3-4, R67, R74).
FORCE_SAFE (0x05) is not an automatic entry. -/
def enterSafe (s : State) (cause : Byte) (wd : Option (Fin 8)) : State :=
  let rec1 : SafeCause := { code := cause, wd := wd, since := s.tick }
  match s.m.mode with
  | .run | .reduced | .trim =>
    let s := refuseLeaving (discardReduced s) rcWrongMode (put 0 Mode.safe.code)
    let s0 := { s with m := { s.m with causes := [rec1], safeTotal := satInc s.m.safeTotal, afresh := false,
                                       beforeSafe := some ⟨s.m.mode, s.m.safeTicks, s.m.safeTotal, s.m.causes⟩ },
                       recov := { s.recov with ruleRestored := false } }
    let s1 := commandSafeAll (setMode (markSafe (dropStepFive s0) true) .safe cause)
    if cause = 0x05 then s1 else countSafe s1
  | .safe =>
    let s := refuseLeaving s rcCause (put 0 cause)
    let s0 := { s with m := { s.m with causes := s.m.causes ++ [rec1], cause := cause, safeTotal := satInc s.m.safeTotal },
                       recov := { s.recov with ruleRestored := s.recov.ruleRestored && wd ≠ some 1 } }
    countSafe (putMode s0)
  | _ => s

/-- CHAN_RET and LANE_RET follow the retirements, and the health endpoint RETIRED with them. -/
def putRetired (s : State) : State :=
  let r := retiredBits s
  let l := s.triad.ret[0] || s.triad.ret[1] || s.triad.ret[2]
  let s1 := putMode { s with m := { s.m with chanRet := r ≠ 0, laneRet := l } }
  putHealth s1 0xF0B 6 r

/-- RUN becomes REDUCED at a retirement: 0x07 lane, 0x08 channel (Table 3-4). Its event 71 waits for the end of the rule cycle, in which a trigger of
a higher place in R68 discards the change. [log 86: DEDUCED, unsafe] -/
def reduce (s : State) (cause : Byte) : State :=
  let s1 := putRetired s
  if s1.m.mode = .run then
    let s2 := modeChanged (writeMode s1 .reduced cause) .reduced
    { s2 with m := { s2.m with reducedNow := some (modeWord s2.m, s.tick) } }
  else s1

/-- The pins SAFE_N and HBEAT follow the mode (R33): SAFE_N is asserted in reset, LOAD, SAFE and STOP. -/
def State.safeN (s : State) : Bool := !(s.m.mode = .trim || s.m.mode = .run || s.m.mode = .reduced)

end Sys2Proof.Machine
end

