-- ==== Sys2Proof/Machine/GovOps.lean ====
section
/-!
DEFINITION. The governor's sums and admissions (06 R163–R167, 09 R262), the commands of DO and AO channels (04 R107, R116; 07 R172–R177),
restart, trip classification, retirement and mapping (04 R107–R111, 06 R154–R161).
-/
namespace Sys2Proof.Machine

/-! ## Measurements -/


/-- Latest result of the channel's current (10 nA) and voltage (1 µV) paths. -/
def State.cur (s : State) (n : Chan) : ResultBlock := s.conv.path[curPath n].res
def State.vol (s : State) (n : Chan) : ResultBlock := s.conv.path[volPath n].res

/-- Latest valid junction result in m°C; 25 °C while there has been none (R249). -/
def State.tj (s : State) (n : Chan) : Int := match s.conv.hkLast[tjInput n] with | some v => v.1.toInt | none => 25000

/-- Latest valid VLOOP in µV. -/
def State.vloop (s : State) : Option Int := s.conv.hkLast[(1 : Fin 24)].map fun v => v.1.toInt

/-- r of R262 in µΩ. -/
def rGov (tj : Int) : Int := 140000 + divRound (64 * (if tj > 25000 then tj - 25000 else 0)) 100

/-! ## The governor -/

/-- A channel's drop in µV under R163 with the voltage result `v`; none for a kind that counts nothing. -/
def dropOf (s : State) (n : Chan) (v : Int) : Option Int :=
  let k := s.ch[n].kind
  if k = kindAOSrc || (k = kindAII && cfgRange (s.crec n) = 0) then s.vloop.map fun l => l - v
  else if k = kindAOSnk || k = kindAII || k = kindDI then some v
  else none

/-- A channel's drop from its latest valid voltage result (R262); none while there has been none. -/
def loopDrop (s : State) (n : Chan) : Option Int := s.conv.path[volPath n].lastValid.bind (dropOf s n)

/-- The switch of a DO or pair half counts as on: on, or running a character (R163). -/
def countsOn (s : State) (n : Chan) : Bool :=
  let u := if s.ch[n].kind = kindPair then masterOf n else n
  s.ch[u].out || runsChar s.ch[u]

/-- Term of channel `n` in µW (R163, R262); none when its results are not VALID. -/
def govTerm (s : State) (n : Chan) : Option Int :=
  let c := s.ch[n]
  let i := (s.cur n).value.toInt
  if c.kind = kindOff || c.kind = kindAIV || bitAt c.w.wire wBlock then some 0
  else if c.kind = kindDO || c.kind = kindPair then
    if !countsOn s n then some 0
    else if (s.cur n).valid then some (pDo (divRound (Int.natAbs i) 10000).toNat (rGov (s.tj n))) else none
  else if (s.cur n).valid && (s.vol n).valid then (dropOf s n (s.vol n).value.toInt).map fun d => pLoop d i else none

/-- The sum of R262 in µW, over the last valid terms. [log 54: DEDUCED, unsafe] -/
def govSum (s : State) : Int := 2000000 + ((List.finRange 16).map fun n => s.ch[n].govTerm).sum

/-- The terms and P_EST recomputed (R163). -/
def govUpdate (s : State) : State :=
  let s1 := (List.finRange 16).foldl (fun a n => match govTerm s n with
    | some t => a.modCh n fun c =>
      { c with govTerm := t,
               onI := if c.kind = kindDO && c.out && (s.cur n).valid then Int.natAbs (s.cur n).value.toInt else c.onI }
    | none => a) s
  let p : W16 := satNat 16 (divRound (govSum s1) 1000).toNat
  { s1 with gov := { s1.gov with pEst := p, peak := if s1.gov.peak.toNat < p.toNat then p else s1.gov.peak } }

/-- Budget in µW. -/
def budgetUw (s : State) : Int := 1000 * budgetOf s.device

/-- A demand with a predicted increase is admitted (R165, R166, R167): never while PKG_HOT, nor while OVER stands with SHED clear, nor
after a refusal in the same rule cycle; a shed channel only within 90 % of the budget. [log 54: DEDUCED, unsafe] -/
def admits (s : State) (inc : Int) (wasShed : Bool) : Bool :=
  !s.gov.pkgHot && !(s.gov.overSum && !s.device.shed) && !(s.gov.cycleRefused && (s.m.mode = .run || s.m.mode = .reduced))
  && (if wasShed then 10 * (govSum s + inc) ≤ 9 * budgetUw s else govSum s + inc ≤ budgetUw s)

/-- Predicted increase of a DO (R262). -/
def doIncrease (s : State) (n : Chan) : Int :=
  match s.boot.gen with
  | some g => pDo (max (10 * nomMa g n) (divRound s.ch[n].onI 10000).toNat) (rGov (s.tj n))
  | none => 0


/-- Predicted increase of an AO from code `a` to `b`: the term of R163 at each (R165). The drop is a free value while no valid result gives
it. [log 55: DESIGN CHOICE, safe] -/
def aoIncrease (s : State) (n : Chan) (a b : W16) : Int × State :=
  match loopDrop s n with
  | some d => (pLoop d (50 * b.toNat) - pLoop d (50 * a.toNat), s)
  | none => let (v, s1) := s.draw; (pLoop v.toInt (50 * b.toNat) - pLoop v.toInt (50 * a.toNat), s1)

/-! ## Refusals -/

/-- A refused demand's event 98 (Table 18-1). -/
def raisePower (s : State) (n : Option Chan) : State :=
  raise s srcPower (put 0 s.gov.pEst ||| (match n with | some n => putN 16 4 n.val ||| putB 20 true | none => 0))

/-- A demand of channel `n` refused by the governor (R165): GOV_REF, the count and event 98 at its first refusal. [log 54: DEDUCED, unsafe] -/
def govRefuse (s : State) (n : Chan) (word : W16) : State :=
  let first := s.ch[n].refused ≠ some word
  let s1 := s.modCh n fun c =>
    let p := setProt c.prot pGovRef true
    { c with refused := some word, prot := if first then { p with cntGov := satInc p.cntGov } else p }
  let s2 := { s1 with gov := { s1.gov with cycleRefused := true } }
  if first then raisePower s2 (some n) else s2

/-- The refused demand of channel `n` ends; GOV_REF stands while an alarm raise is refused (R176). -/
def govClear (s : State) (n : Chan) : State :=
  s.modCh n fun c =>
    { c with refused := none, shed := false, prot := setProt (setProt c.prot pGovRef s.loop[n].alarmRef.isSome) pShed false }

/-- An alarm raise of channel `n` to selection `sel` refused by the governor, a demand of R165 as a COMMAND is (R176): GOV_REF, the count and event
98 at its first refusal. [log 54: DEDUCED, unsafe] -/
def govRefuseAlarm (s : State) (n : Chan) (sel : BitVec 2) : State :=
  let first := s.loop[n].alarmRef ≠ some sel
  let s1 := (s.modLoop n fun l => { l with alarmRef := some sel }).modCh n fun c =>
    let p := setProt c.prot pGovRef true
    { c with prot := if first then { p with cntGov := satInc p.cntGov } else p }
  let s2 := { s1 with gov := { s1.gov with cycleRefused := true } }
  if first then raisePower s2 (some n) else s2

/-- No alarm raise of channel `n` is refused. -/
def alarmClear (s : State) (n : Chan) : State :=
  (s.modLoop n fun l => { l with alarmBad := false, alarmInc := false, alarmRef := none }).modCh n fun c =>
    { c with prot := setProt c.prot pGovRef c.refused.isSome }

/-- `x` put among others in ascending order of `key`, before those of its own key. -/
def placeBy {α : Type} (key : α → Nat) (x : α) : List α → List α
  | [] => [x]
  | y :: ys => if key x ≤ key y then x :: y :: ys else y :: placeBy key x ys

/-- Writes in ascending order of `key`, so that the demands of their channels are judged in ascending channel order (R165); those of one key stay
in order. -/
def sortBy {α : Type} (key : α → Nat) : List α → List α
  | [] => []
  | x :: l => placeBy key x (sortBy key l)

/-- COMMAND of a DO as a refusal shows it: code 3, with the written index of a code 2 (R115, R165). [log 44: DEDUCED, unsafe] -/
def codeThree (v : W16) : W16 := if (field v 0 2 : BitVec 2) = 2 then v ||| 3 else 3

/-- The COMMAND endpoint shows `v`, in a refused form or not; the executive's rewrite (R115). [log 44: DEDUCED, unsafe] -/
def showCommand (s : State) (n : Chan) (v : W16) (bad : Bool) : State :=
  let s1 := s.modCh n fun c => { c with cmdBad := bad }
  epPut s1 (s1.chEp n 0) (cmdQual s1 n) 5 v

/-! ## DO commands -/

/-- R116: the forms a DO's COMMAND refuses. [log 44: DEDUCED, unsafe] -/
def doRefusedForm (v : W16) : Bool :=
  (field v 0 2 : BitVec 2) = 3 || (field v 2 6 : BitVec 6) ≠ 0 || (field v 14 2 : BitVec 2) ≠ 0

/-- The command a COMMAND word gives. -/
def doCommand (v : W16) : ChanCmd :=
  match (field v 0 2 : BitVec 2).toNat with | 1 => .lit | 2 => .character (field v 8 6) | _ => .dark

/-- Character `k` is in the library the channel's commands use (R287). -/
def charKnown (s : State) (n : Chan) (k : BitVec 6) : Bool :=
  ((findChar (if s.ch[n].oldChar.isSome then s.boot.oldChars else match s.boot.gen with | some g => g.chars | none => []) k)).isSome

/-- A character that COMMAND word `v` names is in that library. -/
def commandKnown (s : State) (n : Chan) (v : W16) : Bool := match doCommand v with | .character k => charKnown s n k | _ => true

/-- The channel that carries `n`'s role: its standby while mapped (R107). -/
def roleChan (s : State) (n : Chan) : Chan := s.ch[n].map.getD n

/-- COMMANDs to channel `n` drive a channel: it is neither retired without a standby nor a standby itself (R106, R111). -/
def commandable (s : State) (n : Chan) : Bool := (!s.ch[n].retired || s.ch[n].map.isSome) && !s.isStandby n

/-- The demand of word `v` on DO channel `n` carried out (R165): a demand that turns a dark lamp on, or starts a character on one, is
admitted or refused; any other is sent. -/
def demandDO (s : State) (n : Chan) (v : W16) : State :=
  let t := roleChan s n
  let cmd := doCommand v
  let wasShed := s.ch[n].shed
  if s.ch[t].cmd = .dark && cmd ≠ .dark && !admits s (doIncrease s t) wasShed then showCommand (govRefuse s n v) n (codeThree v) true
  else
    let s1 := setCmd (govClear s n) t cmd
    if s.ch[t].cmd = cmd then s1 else command s1 [.set t cmd]

/-- Command writes are acted on in RUN and REDUCED, and in TRIM without the rule engine (R72, R77); not before the common tick of a configuration
afresh (R525). -/
def acting (s : State) : Bool := (s.m.mode = .run || s.m.mode = .reduced || s.m.mode = .trim) && !s.m.afresh

/-- An accepted write of a DO's COMMAND endpoint (Table 11-7 row 5). A refused form leaves the commanded state, and with it a demand that
the governor refuses, which goes on being re-evaluated behind the refused word. [log 44: DEDUCED, unsafe] -/
def writeDO (s : State) (n : Chan) (v : W16) : State :=
  if doRefusedForm v then
    let s1 := s.modCh n fun c => { c with cmdBad := true }
    epAccept s1 (s1.chEp n 0) (cmdQual s1 n) 5 v
  else
    let known := commandKnown s n v
    let w := if known then v else codeThree v
    let s1 := s.modCh n fun c => { c with cmdBad := !known, cmdWord := if known then v else 0 }
    let s2 := epAccept s1 (s1.chEp n 0) (cmdQual s1 n) 5 w
    if acting s && commandable s n then demandDO s2 n (if known then v else 0) else s2

/-! ## AO commands -/

/-- The AO target of channel `n` taken from its demands in force (Table 7-2 orders 5 and 6). -/
def targetAO (s : State) (n : Chan) : State :=
  let s1 := (endSafeApp s n).modLoop n fun l => { l with safeTgt := false }
  if loopOff s1 n then targetOff s1 n else setTarget s1 n (some (aoTarget s1 n s1.loop[n].cmd s1.loop[n].alarm, s1.loop[n].alarm ≠ 0))

/-- The COMMAND that gives the field die an AO's target in force. -/
def aoAct (s : State) (n : Chan) : FieldAct := .set n (.ao s.loop[n].deliver s.loop[n].alarm s.conv.dac[n])

/-- The AO target of channel `n` sent when its DAC code has changed since state `old`, or when the regulator or a safe state begins or ends with it
(R257). [log 59: DEDUCED, safe] -/
def sendAO (old s : State) (n : Chan) : State :=
  let a := old.loop[n]
  if s.loop[n].targetOn && !(a.targetOn && !a.safeTgt && old.conv.dac[n] = s.conv.dac[n]) then
    command s [aoAct s n]
  else s

/-- A change of an AO's demand to `cmd` with selection `alarm` admitted under R165 and R83, or not: an increase is refused below the
turn-on refusal threshold, and by the governor. -/
inductive AoVerdict where
  | admitted
  | band
  | governor
  deriving DecidableEq, Repr

def aoAdmit (s : State) (n : Chan) (cmd : W16) (alarm : BitVec 2) : AoVerdict × State :=
  let a := s.loop[n].deliver
  let b := aoTarget s n cmd alarm
  if b.toNat ≤ a.toNat && s.loop[n].targetOn then (.admitted, s)
  else if s.m.band = 2 then (.band, s)
  else
    let (inc, s1) := aoIncrease s n (if s.loop[n].targetOn then a else 0) b
    (if inc ≤ 0 || admits s inc false then .admitted else .governor, s1)

/-- A demand on AO channel `n` is acted on now (R72, Table 7-2). -/
def actsAO (s : State) (n : Chan) : Bool := acting s && !loopOff s n

/-- The demand `v` of the COMMAND endpoint of AO channel `n` judged: taken into the target, or left in a refused form (R165, R172). -/
def takeCmd (s : State) (n : Chan) (v : W16) : State :=
  match aoAdmit s n v s.loop[n].alarm with
  | (.admitted, s1) =>
    let s2 := (govClear s1 n).modLoop n fun l => { l with cmd := v, cmdReg := v }
    targetAO (if s2.ch[n].cmdBad then showCommand s2 n v false else s2) n
  | (.band, s1) => putLoop (showCommand (if s1.ch[n].refused = some v then s1 else govClear s1 n) n v true) n
  | (.governor, s1) => putLoop (showCommand (govRefuse s1 n v) n v true) n

/-- A demand of the COMMAND endpoint of AO channel `n` judged and sent. -/
def demandAO (s : State) (n : Chan) (v : W16) : State := sendAO s (takeCmd s n v) n

/-- An accepted write of an AO's COMMAND endpoint (R172). A refused form leaves a demand that the governor refuses as it stands. LOOPCMD.CMD takes the
code when it is acted on. [log 44: DEDUCED, unsafe; log 161: DESIGN CHOICE, unsafe] -/
def writeAO (s : State) (n : Chan) (v : W16) : State :=
  let bad := 48000 < v.toNat
  let s1 := s.modCh n fun c => { c with cmdBad := bad, cmdWord := if bad then c.cmdWord else v }
  let s2 := putLoop (epAccept s1 (s1.chEp n 0) (cmdQual s1 n) 5 v) n
  if !bad && actsAO s2 n then demandAO s2 n v else s2

/-- An alarm raise refused (R172, R176, R180). -/
def alarmRefused (s : State) (n : Chan) : State := putLoop (s.modLoop n fun l => { l with alarmBad := true, alarmInc := true }) n

/-- The selection `sel` of the AO_ALARM endpoint of AO channel `n` judged: in force, or left in a refused form with event 98 or 78 (R176,
Table 7-3). -/
def takeAlarm (s : State) (n : Chan) (sel : BitVec 2) : State :=
  match aoAdmit s n s.loop[n].cmd sel with
  | (.admitted, s1) => targetAO ((alarmClear s1 n).modLoop n fun l => { l with alarm := sel }) n
  | (.band, s1) => alarmRefused (if s1.loop[n].alarmInc then s1 else raise s1 srcSupply (supplyWord s1.m)) n
  | (.governor, s1) => alarmRefused (govRefuseAlarm s1 n sel) n

/-- A selection of AO channel `n` judged and sent. -/
def demandAlarm (s : State) (n : Chan) (sel : BitVec 2) : State := sendAO s (takeAlarm s n sel) n

/-- An accepted write of an AO_ALARM endpoint: a value above 3 leaves the selection in force (R176). [log 57: DEDUCED, unsafe] -/
def writeAlarm (s : State) (n : Chan) (v : W16) : State :=
  let bad := 3 < v.toNat
  let s1 := if bad then s.modLoop n fun l => { l with alarmBad := true, alarmInc := false }
    else s.modLoop n fun l => { l with alarmBad := false, alarmInc := false }
  let s2 := putLoop (epAccept s1 (s1.chEp n 0x20) (alarmQual s1 n) 5 v) n
  if !bad && actsAO s2 n then demandAlarm s2 n (field v 0 2) else s2

/-! ## Restart, trips and retirement (06) -/

/-- The overcurrent and cooling latches as the executive knows them. -/
def ocLive (p : ChanProt) : Bool := bitAt p.live pOc || bitAt p.live pShort || bitAt p.live pBackfeed
def coolLive (p : ChanProt) : Bool := bitAt p.live pClamp || bitAt p.live pThDt || bitAt p.live pThAbs

/-- Every condition of R157 but PSTATE's and the governor's. -/
def restartReady (s : State) (n : Chan) : Bool :=
  let c := s.ch[n]
  c.kind = kindDO && c.p.cmdLit && !c.out && !c.restarting && !coolLive c.prot && !bitAt c.w.wire wReverse && !bitAt c.w.wire wBackfeed && s.m.band ≠ 2
  && (s.m.mode = .trim || s.m.mode = .run || s.m.mode = .reduced || s.m.mode = .safe) && !s.fd.slack

/-- PSTATE allows a restart now (R157). -/
def restartAllowed (p : ChanProt) : Bool := p.pstate = .permit || (p.pstate = .clear && !ocLive p)

/-- The restart of R157 sent for tick `target`, when its conditions hold and it is admitted. A restart the governor refuses keeps its PSTATE.
[log 53: DEDUCED, unsafe] -/
def tryRestart (s : State) (n : Chan) (target : W64) : State :=
  if !restartReady s n then s
  else if !admits s (doIncrease s n) false then showCommand (govRefuse s n s.ch[n].cmdWord) n (codeThree s.ch[n].cmdWord) true
  else
    let was := s.ch[n].refused.isSome
    let s1 := (govClear s n).modCh n fun c => { c with restarting := true }
    let s2 := if was then showCommand s1 n s1.ch[n].cmdWord false else s1
    bwSend s2 (.command [.restart n] target)

/-- A restart has taken place: one that ends a back-off, from PERMIT or at the expiry tick itself, is a retry, which takes a token and advances
RETRY_N (R156, Table 6-4). -/
def takeRestart (c : Channel) : Channel :=
  if c.prot.pstate = .permit || c.prot.pstate = .backoff then
    { c with restarting := false
             prot := { c.prot with pstate := .clear, retryN := c.prot.retryN + 1, tokens := c.prot.tokens - 1,
                                   refill := if c.prot.tokens = 15 && !c.prot.refilled then 0 else c.prot.refill,
                                   cntRetry := satInc c.prot.cntRetry } }
  else { c with restarting := false }

/-- Every end of a refused demand's cause re-tries the restart at the lead of R21. [log 53: DEDUCED, unsafe] -/
def tryRestartNow (s : State) (n : Chan) : State :=
  if restartAllowed s.ch[n].prot then tryRestart s n (s.tick + leadTicks) else s

/-- Length of a rule cycle in ticks, 1 ms where no generation is active (R318, R299). -/
def State.cycleTicks (s : State) : Nat := match s.boot.gen with | some g => 10 * g.cycleUs.toNat | none => msTicks 1

/-- Channel `n`'s back-off ends before a COMMAND of the next boundary could have it as its target (R21). -/
def expiresSoon (s : State) (n : Chan) : Bool :=
  s.ch[n].prot.pstate = .backoff && s.ch[n].prot.expiry.toNat < s.tick.toNat + s.cycleTicks + leadTicks.toNat

/-- At a boundary: a restart whose last condition has been met by a mode entered, the end of a hold or a re-adoption, and one whose back-off ends
before the next boundary could command it, issued in advance with the expiry tick as its target, or the earliest tick that R21 allows (R157). Those
the governor refuses have their own re-evaluation. [log 53: DEDUCED, unsafe] -/
def restartOne (s : State) (n : Chan) : State :=
  if s.ch[n].refused.isSome then s
  else if expiresSoon s n then
    tryRestart s n (if s.ch[n].prot.expiry.toNat < s.tick.toNat + leadTicks.toNat then s.tick + leadTicks else s.ch[n].prot.expiry)
  else tryRestartNow s n

/-- The restarts of every channel at a boundary, in ascending order. -/
def restartPending (s : State) : State := (List.finRange 16).foldl restartOne s

/-- Channels that follow channel `n` at its retirement and return: the slave of a pair master (R111). -/
def pairOf (s : State) (n : Chan) : List Chan := if s.isMaster n then [n, slaveOf n] else [n]

/-- Retirement (R111, R160): PSTATE and cause, safe state and switches, standby, event 4n + 1, and REDUCED. -/
def retireChannel (s : State) (n : Chan) (cause : RetCause) : State :=
  let s1 := (govClear (s.modLoop n fun l => { l with alarmRef := none }) n).modCh n fun c =>
    { c with restarting := false
             prot := { c.prot with pstate := .retired, retCause := cause },
             mapDue := cfgAutoSpare (s.crec n) && cfgStbyEn (s.crec n) && c.roleOf.isNone }
  let s2 := (pairOf s n).foldl (fun a k => (a.modCh k fun c => { c with retired := true, retNow := true }).modLoop k fun l =>
    { setLoop (setLoop (setLoop l lCompliance false) lOver false) lOpen false with dev := Vector.replicate 16 {} })
    (discardAcc (hartAbandon s1 n) n)
  let s2 := hartPeriods (if isAO s.ch[n].kind then targetOff s2 n else s2) n
  let s3 := command s2 ((pairOf s n).map .retire)
  let s4 := refreshAll (raiseProt s3 n)
  reduce s4 0x08

/-- A standby can take a role (R107). In SAFE, where LIFE of every standby reads SAFE_APPLIED, STANDBY_IDLE means that it serves no primary.
[log 42: DEDUCED, unsafe] -/
def standbyReady (s : State) (m : Chan) : Bool :=
  let c := s.ch[m]
  c.roleOf.isNone && !c.retired && c.life ≠ .isolated && c.life ≠ .default && !ocLive c.prot && !coolLive c.prot
  && (c.p.pub = .darkProven || (c.p.pub = .unproven && s.m.band ≠ 0))

/-- Primary `p` mapped onto standby `m` (R107, R108): the standby takes the role with p's command. [log 42: DEDUCED, unsafe] -/
def mapOnto (s : State) (p m : Chan) : State :=
  let s := discardAcc (discardAcc s p) m
  let s1 := (s.modCh p fun c => { c with map := some m, mapDue := false }).modCh m fun c => { c with roleOf := some p, cmd := .dark, oldChar := s.ch[p].oldChar }
  let s2 := command s1 [.mapRole p m]
  let s3 := if acting s then demandDO s2 p s.ch[p].cmdWord else s2
  refresh (refresh s3 m) p

/-- Mappings that wait for a boundary, lower-numbered primaries first (R108, Table 4-6). [log 42: DEDUCED, unsafe] -/
def mapPending (s : State) : State :=
  let r := (List.finRange 16).foldl mapOne (s, [])
  { r.1 with ch := r.1.ch.map fun c => { c with retNow := false } }
where
  /-- the mapping of one primary, with the standbys mapped at this boundary; a standby retired since the last one is not mapped, and its
  retirement is all that is reported -/
  mapOne (a : State × List Chan) (p : Chan) : State × List Chan :=
    if a.1.ch[p].mapDue && a.1.ch[p].retired then
      let m := cfgStby (a.1.crec p)
      if standbyReady a.1 m then (mapOnto a.1 p m, m :: a.2)
      else
        let b := a.1.modCh p fun c => { c with mapDue := false }
        let x := if a.2.contains m then p else m
        (if a.1.ch[m].retNow then b else raise b (chanSrc x 0) (b.ep (b.chEp x 1)), a.2)
    else a

/-- A refill due before the rule cycle ends is applied ahead of a trip of that cycle (R156). -/
def refillFirst (s : State) (n : Chan) : State :=
  let p := s.ch[n].prot
  if p.tokens ≠ 15 && !p.refilled && secTicks 60 ≤ p.refill + (s.cycleTicks - s.tick.toNat % s.cycleTicks) then
    s.modCh n fun c => { c with prot := { c.prot with tokens := c.prot.tokens + 1, refilled := true } }
  else s

/-- An overcurrent trip classified (R155): permanent when the retries or the budget are spent, or RETRIES stands below RETRY_N (Table 6-5),
transient otherwise. Not in LOAD or STOP, and not of a retired channel. -/
def classify (s : State) (n : Chan) (tick : W64) : State :=
  let p := s.ch[n].prot
  if s.m.mode = .load || s.m.mode = .stop || p.pstate = .retired then raiseProt s n
  else if retryMax (s.crec n) ≤ p.retryN then retireChannel s n .retries
  else if p.tokens = 0 then retireChannel s n .bucket
  else
    let k := if p.retryN.toNat < 8 then p.retryN.toNat else 8
    raiseProt (s.modCh n fun c =>
      { c with prot := { c.prot with pstate := .backoff, expiry := tick + BitVec.ofNat 64 (msTicks 10 * 2 ^ k) } }) n

/-- A cooling latch counted (Table 6-10). -/
def countCool (p : ChanProt) (b : Fin 10) : ChanProt :=
  if b = 4 then { p with cntClamp := satInc p.cntClamp } else { p with cntThermal := satInc p.cntThermal }

/-- An overcurrent trip reported by the field die (R147–R155, R169). -/
def takeTrip (s : State) (n : Chan) (bit : Fin 3) (cool : List (Fin 10)) (inLimit : Bool) (ma : W16) (tj : Byte) (tick : W64) : State :=
  let s1 := s.modCh n fun c =>
    let p := setProt (setProt c.prot bit.val true) pInLimit inLimit
    let p := cool.foldl (fun p b => countCool (setProt p b.val true) b) p
    { c with prot := { p with cntOc := satInc p.cntOc, cntShort := if bit = 1 then satInc p.cntShort else p.cntShort,
                              iTrip := ma, tjTrip := tj, tripTime := tick.setWidth 32, onTime := 0,
                              lat := if inLimit then withBit p.lat pFlood true else p.lat } }
  refresh (classify (refillFirst s1 n) n tick) n

/-! ## Every command of the channels at one tick (R72, R525) -/

/-- What channel `n` is commanded at a common tick in the present mode. -/
def commonAct (s : State) (n : Chan) : List FieldAct :=
  let c := s.ch[n]
  if s.m.mode = .safe || s.m.mode = .stop then [.safe n]
  else if c.retired then [.retire n]
  else if c.kind = kindDO then
    match c.roleOf with
    | some p => [.mapRole p n, .set n c.cmd]
    | none => if s.isStandby n then [.set n .dark] else [.set n c.cmd]
  else if isAO c.kind then (if s.loop[n].targetOn then [aoAct s n] else [])
  else [.set n .dark]

/-- Every channel commanded with one common target tick 100 µs ahead. -/
def commandAll (s : State) : State := command s ((List.finRange 16).flatMap (commonAct s))

/-- The commanded state of a DO taken from its COMMAND endpoint before a common tick: a refused form commands it dark, and a demand the governor
refuses is re-evaluated only from that tick (R72). -/
def takeDO (s : State) (n : Chan) : State :=
  let v := epValue (s.ep (s.chEp n 0))
  let t := roleChan s n
  let cmd := doCommand v
  if s.ch[n].cmdBad then setCmd s t .dark
  else if cmd ≠ .dark && s.ch[t].cmd = .dark && !admits s (doIncrease s t) s.ch[n].shed then showCommand (govRefuse s n v) n (codeThree v) true
  else setCmd (govClear s n) t cmd

/-- The commanded state of an AO from its two endpoints: a selection other than 0 first, which sets the target whatever COMMAND holds. With COMMAND in
a refused form the channel is commanded to its last accepted code with the selection in force (R72). -/
def takeAO (s : State) (n : Chan) : State :=
  let l := s.loop[n]
  let sel : BitVec 2 := if l.alarmBad then l.alarm else field (epValue (s.ep (s.chEp n 0x20))) 0 2
  let s1 := if l.alarmBad then s else if sel = 0 then s.modLoop n fun l => { l with alarm := 0 } else takeAlarm s n sel
  let s2 := if s1.ch[n].cmdBad then s1 else takeCmd s1 n (epValue (s1.ep (s1.chEp n 0)))
  if s2.ch[n].cmdBad then targetAO s2 n else s2

/-- The target of AO channel `n` recomputed after a change of its clamp or its alarm direction, and applied at the next target tick (Table 7-3). -/
def retargetAO (s : State) (n : Chan) : State :=
  if !isAO s.ch[n].kind || !s.loop[n].targetOn then putLoop s n
  else if s.loop[n].safeTgt then
    let s1 := safeTarget s n
    if s1.loop[n].deliver = s.loop[n].deliver then s1 else command s1 [.safe n, .dac n s1.conv.dac[n]]
  else if acting s then sendAO s (targetAO s n) n
  else putLoop s n

/-- The regulator of AO channel `n` may run again: the target is that of the safe-state entry while one is applied, or of the demands in force
(Table 7-2), and what was written meanwhile is taken. [log 57: DEDUCED, unsafe] -/
def resumeAO (s : State) (n : Chan) : State :=
  if s.loop[n].safeTgt then
    (match safeEntry s n with
      | .hold => setTarget s n (some (aoTarget s n s.loop[n].cmd s.loop[n].alarm, s.loop[n].alarm ≠ 0))
      | _ => safeTarget s n)
  else
    let s1 := targetAO s n
    if acting s1 then sendAO s1 (takeAO s1 n) n else s1

/-- The commanded states of the COMMAND endpoints taken at the end of a rule cycle before a common tick (R72); a demand is admitted or
refused as any other. -/
def takeCommands (s : State) : State :=
  (List.finRange 16).foldl (fun a n =>
    if a.ch[n].kind = kindDO && commandable a n then takeDO a n
    else if isAO a.ch[n].kind && !a.ch[n].retired && a.ch[n].life ≠ .isolated then takeAO a n
    else a) s

end Sys2Proof.Machine
end

