-- ==== Sys2Proof/Machine/FilterOps.lean ====
section
/-!
DEFINITION. The filter engine (08): stages of a path, banks and fades, synchronising resets and settling, results and rings.
-/
namespace Sys2Proof.Machine

/-! ## Access -/

def State.modPath (s : State) (p : PathIx) (f : PathState → PathState) : State :=
  { s with conv := { s.conv with path := modAt s.conv.path p f } }

/-- Descriptor in force. -/
def State.desc (s : State) (p : PathIx) : PathDesc := match s.boot.gen with
  | some g => g.path[p]
  | none => {}

/-- The path's channel is in the scan mask in force. -/
def State.scanned (s : State) (p : PathIx) : Bool := bitAt s.conv.mask (pathChan p).val

/-- Coefficient `t` of a bank, Q1.23. -/
def coeffIx (p : PathIx) (bank : Bool) (t : Nat) : Nat := 128 * p.val + (if bank then 64 else 0) + t
def State.coeff (s : State) (p : PathIx) (bank : Bool) (t : Nat) : BitVec 24 := sread 0 s.conv.coeff (coeffIx p bank t)

/-- A bank loaded with a set. -/
def loadBank (s : State) (p : PathIx) (bank : Bool) (set : List (BitVec 24)) : State :=
  { s with conv := { s.conv with coeff := swriteList 0 s.conv.coeff (coeffIx p bank 0) set } }

/-- A generation's set for a bank. -/
def genSet (g : Generation) (p : PathIx) (bank : Bool) : List (BitVec 24) := sreadList 0 g.coeff (coeffIx p bank 0) 64

/-! ## Stages (R218–R221) -/

def insertSorted (x : Int) : List Int → List Int
  | [] => [x]
  | y :: l => if x ≤ y then x :: y :: l else y :: insertSorted x l

/-- Values in ascending order, duplicates kept. -/
def sortAsc (l : List Int) : List Int := l.foldr insertSorted []

/-- Window of a rank filter and the position it takes (R218). -/
def rankWindow (rank : Byte) : Nat × Nat :=
  match rank.toNat with
  | 0 => (1, 1)
  | 1 => (3, 2)
  | 2 => (5, 3)
  | 3 => (7, 4)
  | 4 => (9, 5)
  | r => (9, r - 0x10)

/-- The rank filter's output, code × 2^8. -/
def rankOut (rank : Byte) (raw : List Int) : Int :=
  let w := rankWindow rank
  (sortAsc ((raw ++ List.replicate 9 0).take w.1)).getD (w.2 - 1) 0 * 256

/-- Sample x[m − i] of a list held newest first; 0 before sample 0. -/
def back (l : List Int) (i : Nat) : Int := l.getD i 0

/-- One half-band stage: its state after input `x`, its output at an odd input index, and whether it saturated (R219). -/
def halfBandStep (h : HalfBand) (x : Int) : HalfBand × Option Int × Bool :=
  let l := (x :: h.x).take 11
  let h2 : HalfBand := { x := l, odd := !h.odd }
  if h.odd then
    let acc := 3 * (back l 0 + back l 10) - 25 * (back l 2 + back l 8) + 150 * (back l 4 + back l 6) + 256 * back l 5
    let y := narrow acc 9
    (h2, some (satSigned 24 y), satSignedFlag 24 y)
  else (h2, none, false)

/-- Stages `j` to HB in order. -/
def halfBands (hb : Nat) : Nat → Vector HalfBand 5 → Int → Vector HalfBand 5 × Option Int × Bool
  | 0, v, x => (v, some x, false)
  | fuel + 1, v, x =>
    let j := hb - (fuel + 1)
    if h : j < 5 then
      let r := halfBandStep v[j] x
      let v2 := v.set j r.1
      match r.2.1 with
      | some y => let q := halfBands hb fuel v2 y; (q.1, q.2.1, q.2.2 || r.2.2)
      | none => (v2, none, r.2.2)
    else (v, some x, false)

/-- The FIR over the newest-first decimator outputs (R221): y and whether it saturated. -/
def firOut (c : Nat → Int) (taps : Nat) (x : List Int) : Int × Bool :=
  let r := (List.range taps).foldl (fun (a : Int × Bool) t =>
    let v := a.1 + c t * back x t
    (satSigned 48 v, a.2 || satSignedFlag 48 v)) (0, false)
  let y := narrow r.1 23
  (satSigned 24 y, r.2 || satSignedFlag 24 y)

/-- Total decimation M. -/
def decimOf (d : PathDesc) : Nat := 2 ^ d.hb.toNat * d.decim.toNat

/-- L of R230: raw samples of history. -/
def historyOf (d : PathDesc) : Nat :=
  ((rankWindow d.rank).1 - 1) + 10 * (2 ^ d.hb.toNat - 1) + 2 ^ d.hb.toNat * (d.decim.toNat - 1)
  + 2 ^ d.hb.toNat * d.decim.toNat * (d.taps.toNat - 1)

/-- S of R230. -/
def settleOf (d : PathDesc) : Nat := historyOf d / decimOf d

/-! ## Fades (R225–R227) -/

/-- The active bank changes without a fade. [log 68: DEDUCED, unsafe] -/
def swapNow (s : State) (p : PathIx) (target : Bool) : State := s.modPath p fun x => { x with active := target }

/-- A generation's sets that waited for a fade's end: its BANK set into the inactive bank, which fades in; the other set follows (R227). -/
def startLoad (s : State) (p : PathIx) : State :=
  match s.conv.path[p].load with
  | none => s
  | some (a, b) =>
    let t := !s.conv.path[p].active
    (loadBank s p t a).modPath p fun x =>
      { x with load := none, loadAfter := some b, pend := none, flip := t != (s.desc p).bank,
               fade := some { target := t, len := (s.desc p).fade.toNat, i := 0 } }

/-- The end of a fade (Table 8-5, R227). [log 68: DEDUCED, unsafe] -/
def fadeEnd (s : State) (p : PathIx) (target : Bool) : State :=
  let s1 := s.modPath p fun x => { x with active := target, fade := none, swaps := satInc x.swaps }
  let s2 := match s1.conv.path[p].loadAfter with
    | some set => (loadBank s1 p (!target) set).modPath p fun x => { x with loadAfter := none }
    | none => s1
  if s2.conv.path[p].load.isSome then startLoad s2 p
  else match s2.conv.path[p].pend with
    | some (t, len) =>
      s2.modPath p fun x => { x with pend := none, fade := if t = x.active then none else some { target := t, len := len, i := 0 } }
    | none => s2

/-! ## Events and endpoints that follow -/

/-- SETL follows the latest results of the channel's two paths (R231). -/
def updateSetl (s : State) (n : Chan) : State :=
  let v := (s.cur n).settling || (s.vol n).settling
  if s.ch[n].setl = v then s else refresh (s.modCh n fun c => { c with setl := v }) n

/-- A result written to RES and to the ring (R233, R234, R238). -/
def putResult (s : State) (p : PathIx) (r : ResultBlock) : State :=
  let x := s.conv.path[p]
  let r1 := { r with seq := x.res.seq + 1, fresh := true }
  let s1 := s.modPath p fun x =>
    { x with res := r1, lastValid := if r.valid then some r.value.toInt else x.lastValid, ringNext := x.ringNext + 1, wraps := if x.ringNext = BitVec.allOnes 10 then x.wraps + 1 else x.wraps }
  updateSetl { s1 with conv := { s1.conv with
    ring := swrite {} s1.conv.ring (1024 * p.val + x.ringNext.toNat) { r1 with fresh := false } } } (pathChan p)

/-! ## Synchronising reset (R228) -/

/-- The path reset, its raw sample 0 being the first of a slot that begins at tick `since` or later. A path outside the scan mask keeps its
record, and outputs that are not yet results are dropped. [log 64: DEDUCED, unsafe; log 162: DEDUCED, unsafe] -/
def resetFrom (s : State) (since : W64) (p : PathIx) : State :=
  if !s.scanned p then s
  else
    let x := s.conv.path[p]
    let d := s.desc p
    let s0 := match x.fade with | some f => swapNow s p f.target | none => s
    let s1 := s0.modPath p fun x =>
      { x with fade := none, pend := none, remain := settleOf d, reload := 0, waitAlign := bitAt (recWord (s.crec (pathChan p)) 40) 1,
               since := since, raw := [], hb := Vector.replicate 5 {}, decSum := 0, decCount := 0, fir := [],
               ovr := false, hbSat := false, taint := 0, resets := satInc x.resets, outs := [] }
    let s2 := match x.loadAfter with
      | some set => (loadBank s1 p (!s1.conv.path[p].active) set).modPath p fun x => { x with loadAfter := none }
      | none => s1
    let s3 := match s2.conv.path[p].load with
      | some (a, b) =>
        let t := !s2.conv.path[p].active
        (loadBank (loadBank s2 p t a) p (!t) b).modPath p fun x => { x with load := none, active := t, flip := t != d.bank }
      | none => s2
    putResult s3 p { value := 0x80000000, settling := true, calsrc := calSrc s3 p, ts := s.tick.setWidth 32 }

/-- A reset at the present tick: a slot that begins at it does not count (R228). -/
def syncReset (s : State) (p : PathIx) : State := resetFrom s (s.tick + 1) p

def resetPaths (s : State) (ps : List PathIx) : State := ps.foldl syncReset s

/-- Every scanned path; the paths of one converter; both paths of a channel (Table 8-6). -/
def resetAllPaths (s : State) : State := resetPaths s (List.finRange 32)
def resetConverter (s : State) (voltage : Bool) : State :=
  resetPaths s ((List.finRange 32).filter fun p => (p.val % 2 = 1) = voltage)
def resetChannel (s : State) (n : Chan) : State := resetPaths s [curPath n, volPath n]

/-! ## The scan (R210, R211) -/

/-- Ebb mode (R83). -/
def ebbBand (b : BitVec 2) : Bool := b = 1 || b = 2

/-- Channels of the scan mask in ascending order. -/
def maskChans (s : State) : List Chan := (List.finRange 16).filter fun n => bitAt s.conv.mask n.val

/-- Ticks of a slot (Table 8-1). -/
def slotTicks (s : State) : Nat := if s.conv.ebbRate then 16 else 2

/-- The mask and rate in force once what waits has taken effect. -/
def scanTarget (s : State) : W16 × Bool := match s.conv.next with
  | some x => (x.mask, x.ebb)
  | none => (s.conv.mask, s.conv.ebbRate)

/-- A mask and a rate in force. A path that leaves the mask keeps its record: its outputs that are not yet results are dropped (R233). -/
def putScan (s : State) (mask : W16) (ebb : Bool) (base : Option W64) : State :=
  { s with conv := { s.conv with
      mask := mask, ebbRate := ebb, next := none, base := base
      path := Vector.ofFn fun p => if bitAt mask (pathChan p).val then s.conv.path[p] else { s.conv.path[p] with outs := [] } } }

/-- The field die begins to scan `mask` at the rate of its band. -/
def startScan (s : State) (mask : W16) : State := putScan s mask (ebbBand s.fd.band) none

/-- The first tick after `t` at which a round begins (R210); the next tick while no slot has been seen. [log 65: DEDUCED, unsafe] -/
def roundAfter (s : State) (t : W64) : W64 := match s.conv.base with
  | some b => let r := slotTicks s * (maskChans s).length; b + BitVec.ofNat 64 (((t - b).toNat / r + 1) * r)
  | none => t + 1

/-- The field die receives a mask or a rate: in force from its next round boundary, or at once when nothing is scanned (R211). -/
def setScan (s : State) (mask : W16) (ebb : Bool) : State :=
  if s.conv.mask = mask && s.conv.ebbRate = ebb then { s with conv := { s.conv with next := none } }
  else if s.conv.mask = 0 then resetAllPaths (putScan s mask ebb none)
  else { s with conv := { s.conv with next := some { mask := mask, ebb := ebb, at_ := roundAfter s s.fd.tick } } }

/-- Position in the mask of the slot that begins at `ts`: rounds follow one another without a gap (R210). The first slot seen begins a round.
[log 65: DEDUCED, unsafe] -/
def slotPos (s : State) (ts : W64) : Nat := match s.conv.base with
  | some b => ((ts - b).toNat / slotTicks s) % (maskChans s).length
  | none => 0

/-- What waits for a round boundary takes effect there, with a reset of every scanned path whose raw sample 0 is of the round that begins
(R211, R228). -/
def takeScan (s : State) (x : ScanNext) : State :=
  (List.finRange 32).foldl (fun a p => resetFrom a x.at_ p) (putScan s x.mask x.ebb (some x.at_))

/-- A slot that begins at `ts`: what waits for a boundary at or before it is in force. -/
def roundStart (s : State) (ts : W64) : State :=
  let s := if s.conv.base.isNone then { s with conv := { s.conv with base := some ts } } else s
  match s.conv.next with
  | some x => if x.at_.toNat ≤ ts.toNat then takeScan s x else s
  | none => s

/-- The round boundary of a change that no SAMPLE frame will show, as nothing is scanned after it or the lane is down (R211).
[log 65: DEDUCED, unsafe] -/
def scanDue (s : State) : State := match s.conv.next with
  | some x => if x.at_.toNat ≤ s.fd.tick.toNat && (x.mask = 0 || !s.bw.f2l0Up) then takeScan s x else s
  | none => s

/-! ## A raw sample (R218–R226, R229) -/

/-- The output of the path from the decimator's output `x`, with the fade's step (R221, R226). -/
def pathOutput (s : State) (p : PathIx) (ts : W64) (taint : Bool) : State :=
  let st := s.conv.path[p]
  let d := s.desc p
  let y := fun (b : Bool) => firOut (fun t => (s.coeff p b t).toInt) d.taps.toNat st.fir
  let ya := y st.active
  let out : Int × Bool := match st.fade with
    | some f =>
      let yb := y f.target
      let w : Int := (f.i * 65536) / f.len
      (narrow (ya.1 * (65536 - w) + yb.1 * w) 16, ya.2 || yb.2)
    | none => ya
  let hbNew := st.hbSat && !st.hbSatBit
  let firNew := out.2 && !st.firSatBit
  let o : FiltOut := { f := out.1, terms := chainTerms s p ts, ts := ts, settling := st.remain ≠ 0 || st.reload ≠ 0 || st.fade.isSome, ovr := st.ovr || st.hbSat || out.2, tainted := taint }
  let s1 := s.modPath p fun x =>
    { x with outs := x.outs ++ [o], remain := x.remain - 1, reload := x.reload - 1, ovr := false, hbSat := false, hbSatBit := x.hbSatBit || x.hbSat,
             firSatBit := x.firSatBit || out.2, ovf := if x.hbSat || out.2 then satInc x.ovf else x.ovf }
  let s2 := if hbNew || firNew then
      raise s1 srcFilter (putN 0 5 p.val ||| putB 5 s1.conv.path[p].hbSatBit ||| putB 6 s1.conv.path[p].firSatBit)
    else s1
  match st.fade with
  | some f =>
    if f.i + 1 = f.len then fadeEnd s2 p f.target
    else s2.modPath p fun x => { x with fade := some { f with i := f.i + 1 } }
  | none => s2

/-- A raw code of a slot beginning at `ts` fed to path `p`; `tainted` while a transient runs (R103, Table 8-9). [log 64: DEDUCED, unsafe] -/
def feed (s : State) (p : PathIx) (code : Int) (ts : W64) (tainted : Bool) : State :=
  let st := s.conv.path[p]
  let d := s.desc p
  if !s.scanned p || st.waitAlign || ts.toNat < st.since.toNat then s
  else
    let lim := code = -32768 || code = 32767
    let raw := (code :: st.raw).take 9
    let hbr := halfBands d.hb.toNat d.hb.toNat st.hb (rankOut d.rank raw)
    let taint := if tainted then historyOf d else st.taint - 1
    let s1 := s.modPath p fun x =>
      { x with raw := raw, lastCode := code, hb := hbr.1, hbSat := x.hbSat || hbr.2.2, ovr := x.ovr || lim, rawLim := x.rawLim || lim,
               taint := taint }
    match hbr.2.1 with
    | none => s1
    | some x =>
      let sum := st.decSum + x
      if st.decCount + 1 < d.decim.toNat then s1.modPath p fun y => { y with decSum := sum, decCount := st.decCount + 1 }
      else
        let s2 := s1.modPath p fun y =>
          { y with decSum := 0, decCount := 0, fir := (divRound sum d.decim.toNat :: y.fir).take 64 }
        pathOutput s2 p ts (tainted || st.taint ≠ 0)

/-! ## Results (R237, R247) -/

/-- A converter or the reference makes results of path `p` invalid (Table 8-9). -/
def pathFault (s : State) (p : PathIx) : Bool :=
  s.conv.refFault || !s.conv.refReady || (if p.val % 2 = 0 then s.conv.sarI else s.conv.sarV) || !s.bw.f2l0Up || s.bw.sampleBad

/-- The result of output `o` of path `p` with the parameters of its production (R247–R250). CAL.APPL of an AO's path 2n is the output chain's
(Table 9-8). -/
def takeOutput (s : State) (p : PathIx) (o : FiltOut) : State :=
  let n := pathChan p
  let t := o.terms
  let r := factoryRec s.otpAt n t.csel
  let q := tempTerms r t.tj
  let v := chainValue o.f r t.layer q.1 q.2.1 (kOf t.csel)
  let s1 := s.modPath p fun x =>
    if isAO s.ch[n].kind && p.val % 2 = 0 then { x with x1 := v.2.2 }
    else { x with tj := shownTj t.tj, kq := toW32 q.1, o := toW32 q.2.1, tjStale := t.stale, tjNone := t.tj.isNone, clamped := q.2.2,
                  applSrc := t.src, x1 := v.2.2 }
  putResult s1 p { value := toW32 v.1, valid := !o.settling && !pathFault s p && !o.tainted, settling := o.settling, ovr := o.ovr, sat := v.2.1,
                   calsrc := t.src, ts := o.ts.setWidth 32, fout := toW32 o.f }

end Sys2Proof.Machine
end

