-- ==== Sys2Proof/Machine/Journal.lean ====
section
/-!
DEFINITION. The calibration journal (02 R56, R57) and the capture of zero and span points (07 R186–R190, 09 R252–R254).
-/
namespace Sys2Proof.Machine

/-! ## Records -/

def journalHalf (b : Bool) : Nat := if b then 0x520000 else 0x500000

/-- One record programmed at flash offset `a` (Table 2-14). -/
def journalProgram (fl : List Host.Cell) (a : Nat) (ty ch range qty : Byte) (jseq : W32) (payload : List Byte) : List Host.Cell :=
  let b := journalBytes ty ch range qty jseq payload
  swriteList flashErased fl a (b ++ bytesLE (crc32c (BitVec.ofNat 32 a) b))

/-- Payload of a zero or span record (Table 9-5), and of a signature record (Table 5-8). -/
def pointPayload (c : CalPoint) : List Byte :=
  bytesLE (toW32 c.r) ++ bytesLE (toW32 c.m) ++ bytesLE (toW32 c.rt) ++ bytesLE c.tj
    ++ [field c.code 0 8, field c.code 8 8, c.kind, 0]
def sigPayload (g : Signature) : List Byte :=
  bytesLE g.g ++ bytesLE g.i ++ bytesLE g.v ++ [g.nstr, g.dither, g.period, if g.pair then 1 else 0] ++ bytesLE g.tj

/-- The records in force: type, channel, range, quantity and payload (R57). -/
def journalLive (s : State) : List (Byte × Byte × Byte × Byte × List Byte) :=
  s.conv.points.map (fun x => (if x.2.1 then 2 else 1, BitVec.ofNat 8 x.1.val, x.2.2.range, x.2.2.qty, pointPayload x.2.2))
  ++ (List.finRange 16).filterMap fun n => s.ch[n].p.sig.map fun g => (3, BitVec.ofNat 8 n.val, 0, 0, sigPayload g)

/-- Records programmed one after another from offset `a` with rising JSEQ. -/
def journalCopy : List (Byte × Byte × Byte × Byte × List Byte) → List Host.Cell → Nat → W32 → List Host.Cell × Nat × W32
  | [], fl, a, j => (fl, a, j)
  | r :: rs, fl, a, j => journalCopy rs (journalProgram fl a r.1 r.2.1 r.2.2.1 r.2.2.2.1 j r.2.2.2.2) (a + 32) (j + 1)

/-- A full half: the records in force copied to the other half, erased, with new JSEQ values, and the full half erased (R57). -/
def journalCompact (s : State) : State :=
  let b := decide (s.boot.jplace = journalHalf false + 0x20000)
  let old := journalHalf (!b)
  let new := journalHalf b
  let r := journalCopy (journalLive s) (sclear s.flash new (new + 0x20000)) new s.boot.jseq
  { s with flash := sclear r.1 old (old + 0x20000), boot := { s.boot with jplace := r.2.1, jseq := r.2.2 } }

/-- The half in use has no room for a record. -/
def journalFull (s : State) : Bool := s.boot.jplace = journalHalf false + 0x20000 || s.boot.jplace ≥ journalHalf true + 0x20000

/-- A record appended; its JSEQ is the one before the append. [log 61: DEDUCED, unsafe] -/
def journalAppend (s : State) (ty ch range qty : Byte) (payload : List Byte) : State × W32 :=
  let s1 := if journalFull s then journalCompact s else s
  let j := s1.boot.jseq
  ({ s1 with flash := journalProgram s1.flash s1.boot.jplace ty ch range qty j payload,
             boot := { s1.boot with jplace := s1.boot.jplace + 32, jseq := j + 1 } }, j)

/-- A point recorded: it replaces the earlier one of its type, channel, range and quantity (R57), and event 103 is raised. -/
def recordPoint (s : State) (n : Chan) (span : Bool) (c : CalPoint) : State × W32 :=
  let ty : Byte := if span then 2 else 1
  let r := journalAppend s ty (BitVec.ofNat 8 n.val) c.range c.qty (pointPayload c)
  let keep := r.1.conv.points.filter fun x => !(x.1 = n && x.2.1 = span && x.2.2.range = c.range && x.2.2.qty = c.qty)
  let s1 := { r.1 with conv := { r.1.conv with points := keep ++ [(n, span, { c with jseq := r.2 })] } }
  (raise s1 srcCal (putN 0 8 n.val ||| put 8 ty), r.2)

/-- A restore-factory marker for a channel, or for all (R190). [log 61: DEDUCED, unsafe] -/
def restoreFactory (s : State) (n : Option Chan) : State × W32 :=
  let ch : Byte := match n with | some c => BitVec.ofNat 8 c.val | none => 0xFF
  let r := journalAppend s 4 ch 0 0 (List.replicate 20 0)
  let s1 := { r.1 with conv := { r.1.conv with points := r.1.conv.points.filter fun x => match n with | some c => x.1 ≠ c | none => false } }
  (raise s1 srcCal (put 0 ch ||| putN 8 8 4), r.2)

/-! ## Points -/

/-- The quantity trimmed on a kind (R186): voltage for AI-V, current otherwise; and the path that measures it. -/
def trimQty (k : BitVec 3) : Byte := if k = kindAIV then 1 else 0
def trimPath (s : State) (n : Chan) : PathIx := if s.ch[n].kind = kindAIV then volPath n else curPath n
def trimCsel (s : State) (n : Chan) : Nat := if isAO s.ch[n].kind then cselOut s.ch[n].kind else s.csel (trimPath s n)

/-- r′ of R252 in the pre-user domain. -/
def refOf (r k kq o : Int) : Int := divRound ((divRound (r * 256) k - o) * 2 ^ 30) (2 ^ 30 + kq)

/-- The test of R254 a candidate fails, with the other point in force; none when it passes. [log 58: DEDUCED, unsafe] -/
def pointTest (s : State) (n : Chan) (span : Bool) (c : CalPoint) : Option Nat :=
  let cs := trimCsel s n
  let other := pointFor s n cs (!span)
  let z := if span then other else some c
  let t := if span then some c else other
  match layerOf z t with
  | none => some 4
  | some (ug, uo) =>
    if (match other with | some p => decide ((c.r - p.r).natAbs * 4 < (spanOf cs).natAbs) | none => false) then some 1
    else if ug < 966367642 || ug > 1181116006 then some 2
    else if (narrow (uo * kOf cs) 8).natAbs * 20 > (spanOf cs).natAbs then some 3
    else none

/-- The point of an input channel from 16 gathered results, with the terms of the last of them (R187, R252). -/
def inputPoint (s : State) (n : Chan) (r : Int) (got : List TrimSample) : CalPoint :=
  let (kq, o, tj) : Int × Int × W32 := match got.getLast? with | some x => (x.kq, x.o, x.tj) | none => (0, 0, 0)
  { r := r, m := divRound (got.map (·.x1)).sum 16, rt := refOf r (kOf (trimCsel s n)) kq o, tj := tj, code := 0,
    kind := s.ch[n].kind.setWidth 8, range := (cfgRange (s.crec n)).setWidth 8, qty := trimQty s.ch[n].kind, jseq := 0 }

/-- The point of an output channel for the delivered code (R188, R252). [log 58: DEDUCED, unsafe] -/
def outputPoint (s : State) (n : Chan) (r : Int) : CalPoint :=
  let f := factoryRec s.otpAt n (trimCsel s n)
  let t := (tjNow s n).1
  let q := tempTerms f t
  let r := if s.ch[n].kind = kindAOSnk then (Int.natAbs r : Int) else r
  { r := r, m := (outChain s.loop[n].deliver f none q.1 q.2.1).1, rt := refOf r (kOf (trimCsel s n)) q.1 q.2.1, tj := shownTj t,
    code := s.loop[n].deliver, kind := s.ch[n].kind.setWidth 8, range := 0, qty := 0, jseq := 0 }

/-- Largest less smallest of the gathered VALUEs. -/
def spreadOf (got : List TrimSample) : Int :=
  match got.map (·.value) with
  | [] => 0
  | x :: l => l.foldl max x - l.foldl min x

/-! ## Ends of captures -/

/-- The LED pattern of the armed channel (R194). -/
def ledResume (s : State) : State :=
  let b := s.m.mode = .trim && s.trim.armValid
  { s with trim := { s.trim with led := if b then .pulse 0 true else .off }, pins := { s.pins with ledLow := b } }

/-- A button action ends (R192); outside TRIM and with no channel armed TRIMLED stays high (R194). -/
def buttonEnd (s : State) (ok : Bool) (act : BitVec 3) : State :=
  let b := s.m.mode = .trim && s.trim.armValid
  let t := { s.trim with lastAct := if ok then act else 5, actCount := satInc s.trim.actCount,
                         led := if !b then .off else if ok then .success else .toggle 20 true }
  let s1 := { s with trim := t, pins := { s.pins with ledLow := b } }
  raise s1 srcButton (trimstatWord s1.trim)

/-- A mailbox command's end with a DETAIL the spec does not state: a free value. [log 105: DESIGN CHOICE, safe] -/
def mbxEndFree (s : State) (i : SlotIx) (result : Byte) : State := let (v, s1) := s.draw; mbxEnd s1 i result v

/-- A capture or trim ends for whoever asked. -/
def trimEnd (s : State) (slot : Option SlotIx) (span : Bool) (result : Byte) (detail : Option W32) : State :=
  match slot with
  | some i => match detail with | some d => mbxEnd s i result d | none => mbxEndFree s i result
  | none => buttonEnd s (result = rcOk) (if span then 2 else 1)

/-- A judged point recorded, or the flash failure that leaves the previous one in force (R189). -/
def trimRecord (s : State) (c : TrimCapture) (p : CalPoint) (written : Bool) : State :=
  if !written then trimEnd s c.slot c.span rcFlash (some (memstatWord s.mem))
  else
    let r := recordPoint s c.ch c.span p
    let s1 := match c.slot with
      | some i => mbxReturn (mbxReturn (mbxReturn r.1 i 0 (toW32 p.m)) i 1 (toW32 p.rt)) i 2 r.2
      | none => r.1
    trimEnd s1 c.slot c.span rcOk (some 0)

/-- COMPLIANCE or LOOP_OVER has held within the last 100 ms (R188). -/
def faultRecent (s : State) (l : ChanLoop) : Bool :=
  loopFault l || match l.faultEnd with | some t => s.since t < msTicks 100 | none => false

/-- A trim of channel `n` with reference `r` asked for by a slot, or by a button (R186–R189). -/
def trimStart (s : State) (n : Chan) (span : Bool) (r : Int) (slot : Option SlotIx) : State :=
  let k := s.ch[n].kind
  if !(k = kindAII || k = kindAIV || isAO k) then trimEnd s slot span rcInvalid (some 0)
  else if isAO k && s.m.mode ≠ .trim then trimEnd s slot span rcWrongMode (some (put 0 s.m.mode.code))
  else if s.boot.job.isSome || s.conv.capture.isSome then trimEnd s slot span rcBusy (some 0)
  else if isAO k then
    let l := s.loop[n]
    if !l.targetOn || s.since l.targetTick < msTicks 100 || faultRecent s l then trimEnd s slot span rcUnstable none
    else if (if span then l.deliver.toNat < 24000 else 24000 < l.deliver.toNat) then trimEnd s slot span rcInvalid (some 0)
    else
      let p := outputPoint s n r
      match pointTest s n span p with
      | some d => trimEnd s slot span rcLimit (some (putN 0 3 d))
      | none => { s with conv := { s.conv with capture := some { ch := n, span := span, r := r, slot := slot, point := some p } } }
  else { s with conv := { s.conv with capture := some { ch := n, span := span, r := r, slot := slot } } }

/-- The capture in progress ends with what it gathered (R187, R189). [log 58: DEDUCED, unsafe] -/
def trimComplete (s : State) (c : TrimCapture) (written : Bool) : State :=
  let s := { s with conv := { s.conv with capture := none } }
  match c.point with
  | some p => trimRecord s c p written
  | none =>
    if c.got.length < 16 then trimEnd s c.slot c.span rcUnstable none
    else if (spreadOf c.got).natAbs * 2000 > (spanOf (trimCsel s c.ch)).natAbs then
      trimEnd s c.slot c.span rcUnstable (some (toW32 (spreadOf c.got)))
    else
      let p := inputPoint s c.ch c.r c.got
      match pointTest s c.ch c.span p with
      | some d => trimEnd s c.slot c.span rcLimit (some (putN 0 3 d))
      | none => trimRecord s c p written

/-! ## Arming (R191) -/

def armable (s : State) (n : Chan) : Bool :=
  (s.ch[n].kind = kindAII || s.ch[n].kind = kindAIV) && !s.ch[n].retired && s.ch[n].life ≠ .isolated

/-- The channel armed on entry to TRIM: the one asked for, or the lowest that can be. [log 60: DEDUCED, unsafe] -/
def arm (s : State) (ask : Option Chan) : State :=
  let c := match ask with
    | some n => if armable s n then some n else (List.finRange 16).find? (armable s)
    | none => (List.finRange 16).find? (armable s)
  ledResume { s with trim := { s.trim with armed := c.getD s.trim.armed, armValid := c.isSome } }

/-- ZREF and SREF (R193). -/
def buttonRef (s : State) (n : Chan) (span : Bool) : Int :=
  let r := s.crec n
  if trimZ r = 0 && trimS r = 0 then
    (if s.ch[n].kind = kindAII then (if span then 2000000 else 400000)
     else if span then (if cfgRange r = 0 then 10000000 else 50000000) else 0)
  else if span then trimS r else trimZ r

/-- The next higher channel that R191 permits, wrapping past 15. -/
def nextArmed (s : State) : Option Chan :=
  ((List.range 16).map fun i => (BitVec.ofNat 4 (s.trim.armed.val + 1 + i)).toFin).find? (armable s)

/-- The action of a press of Table 7-4. [log 60: DEDUCED, unsafe] -/
def pressAction (s : State) (zero : Bool) (ms : Nat) : State :=
  if !s.trim.armValid || ms < 2000 then s
  else if ms < 10000 then trimStart s s.trim.armed (!zero) (buttonRef s s.trim.armed (!zero)) none
  else if zero then buttonEnd (restoreFactory s (some s.trim.armed)).1 true 3
  else s

/-- A press that the field die reports: its action is taken at its end, in TRIM only (R192). [log 60: DEDUCED, unsafe] -/
def takeButton (s : State) (zero ended : Bool) (ms : Nat) (both : Bool) : State :=
  let s1 := { s with trim := if zero then { s.trim with zeroP := !ended } else { s.trim with spanP := !ended } }
  if !ended || s.m.mode ≠ .trim then s1
  else
    let other := if zero then s.trim.spanP else s.trim.zeroP
    if s.trim.both then { s1 with trim := { s1.trim with both := other } }
    else if both then
      let s2 := { s1 with trim := { s1.trim with both := other } }
      if !s2.trim.armValid then s2
      else match nextArmed s2 with
        | some n => buttonEnd { s2 with trim := { s2.trim with armed := n } } true 4
        | none => buttonEnd s2 false 4
    else pressAction s1 zero ms

end Sys2Proof.Machine
end

