-- ==== Sys2Proof/Machine/Reports.lean ====
section
/-!
DEFINITION. What the executive does with the field die's reports (01, 03–07): the status registers, endpoints, events and decisions that
follow an EVENT or STATUS frame.
-/
namespace Sys2Proof.Machine

/-- Every accumulation discarded. -/
def discardAll (s : State) : State := (List.finRange 16).foldl discardAcc s

/-- Lamps of every channel evaluated. -/
def evalAll (s : State) : State := (List.finRange 16).foldl evalLamp s

/-! ## Converter faults (R217) -/

/-- Channels whose path check failed an element within the last second. -/
def recentFails (s : State) (l : List (Chan × W64)) : List (Chan × W64) := l.filter fun x => s.since x.2 < secTicks 1

def distinctChans (l : List (Chan × W64)) : Nat := ((List.finRange 16).filter fun n => l.any fun x => x.1 = n).length

/-- A converter declared faulty: 0 current, 1 voltage, 2 housekeeping. Event 101 at the fault. -/
def converterFault (s : State) (k : Fin 3) : State :=
  let was := if k = 0 then s.conv.sarI else if k = 1 then s.conv.sarV else s.conv.hkFault
  if was then s
  else
    let s1 := { s with conv := { s.conv with
      sarI := s.conv.sarI || k = 0, sarV := s.conv.sarV || k = 1, hkFault := s.conv.hkFault || k = 2, unmon := s.conv.unmon || k = 2,
      passA := s.conv.passA && k ≠ 0, passB := s.conv.passB && k ≠ 1 } }
    evalAll (raise s1 srcConv (refstatWord s1.conv))

/-- A SAR converter's fault cleared, with a reset of its paths (R217). -/
def converterClear (s : State) (voltage : Bool) : State :=
  let s1 := { s with conv := if voltage then { s.conv with sarV := false, failB := [] } else { s.conv with sarI := false, failA := [] } }
  evalAll (resetConverter s1 voltage)

/-- 100 ms without a missed completion (R217). -/
def noMiss (s : State) (t : Option W64) : Bool := match t with | some t => msTicks 100 ≤ s.since t | none => true

/-- A SAR converter's fault clears after 100 ms without a missed completion and a passing path check (R217). [log 66: DEDUCED, unsafe] -/
def sarRecover (s : State) : State :=
  let s1 := if s.conv.sarI && s.conv.passA && noMiss s s.conv.missTickI then converterClear s false else s
  if s1.conv.sarV && s1.conv.passB && noMiss s1 s1.conv.missTickV then converterClear s1 true else s1

/-! ## Kinds of report -/

/-- A counted transition of a DI's reported state (R98, Table 4-13). -/
def countsEdge (edge : BitVec 2) (rising : Bool) : Bool := (edge = 1 && rising) || (edge = 2 && !rising) || edge = 3

/-- R98: the reported state follows the debounced level and INVERT; with a fault class live the VALUE is that state too, and only the quality
follows Table 4-3. [log 45: DEDUCED, unsafe; log 145: DEDUCED, unsafe] -/
def takeDi (s : State) (n : Chan) (level : Bool) (tick : W64) : State :=
  let st := level != diInvert (s.crec n)
  let c := s.ch[n]
  if c.w.diState = st then putChanState (s.modCh n fun c => { c with w := { c.w with diRaw := level } }) n
  else
    let inc := countsEdge (diCountEdge (s.crec n)) st
    putChanState (s.modCh n fun c =>
      { c with w := { c.w with diRaw := level, diState := st, diTime := tick.setWidth 32, edges := if inc then c.w.edges + 1 else c.w.edges },
               count := if inc then c.count + 1 else c.count }) n

/-- DISTAT.RAW of every DI (Table 4-20). -/
def takeRaw (s : State) (levels : W16) : State :=
  { s with ch := Vector.ofFn fun n =>
      if s.ch[n].kind = kindDI then { s.ch[n] with w := { s.ch[n].w with diRaw := bitAt levels n.val } } else s.ch[n] }

/-- [log 37: DEDUCED, unsafe] -/
def takeDiClass (s : State) (n : Chan) (k : DiClass) : State :=
  let s1 := s.modCh n fun c =>
    let w := setWire (setWire (setWire c.w wBreak (k = .wireBreak)) wLeak (k = .diLeak)) wSink (k = .sinkFault)
    { c with w := { w with diClass := k, cntBreak := if k = .wireBreak && c.w.diClass ≠ .wireBreak then satInc w.cntBreak else w.cntBreak } }
  let s2 := refresh s1 n
  if k = .wireBreak || k = .diLeak then raiseWire s2 n else if k = .sinkFault then raiseMeasure s2 n 1 0 else s2

/-- A declared or cleared MISWIRE or REVERSE on a kind with blocking switches (R103, R104). -/
def takeWiring (s : State) (n : Chan) (rev on held : Bool) : State :=
  let s1 := s.modCh n fun c =>
    let w := setWire c.w (if rev then wReverse else wMiswire) on
    { c with held := held,
             w := if on then (if rev then { w with cntReverse := satInc w.cntReverse } else { w with cntMiswire := satInc w.cntMiswire }) else w }
  let s2 := refresh s1 n
  if on then hartHit (raiseWire (untaint s2 n) n) n
  else if s.ch[n].life = .isolated && s2.ch[n].life ≠ .isolated then refresh (resetChannel s2 n) n
  else s2
where
  /-- a crossing that ends declared is no transient (Table 8-9) -/
  untaint (s : State) (n : Chan) : State := (s.modPath (curPath n) fun x => { x with taint := 0 }).modPath (volPath n) fun x => { x with taint := 0 }

/-- [log 45: DEDUCED, unsafe] -/
def takeSwitched (s : State) (n : Chan) (on : Bool) : State :=
  let both := if s.isMaster n then [n, slaveOf n] else [n]
  let s1 := both.foldl (fun a k => putChanState (a.modCh k fun c => { c with out := on }) k) s
  let s2 := s1.modCh n fun c =>
    let d := { c with p := { c.p with agreed := .none, agreeTick := none } }
    if on then { d with count := if c.kind = kindDO then c.count + 1 else c.count } else { d with p := { d.p with win := .notArmed } }
  evalLamp s2 n

def takePulse (s : State) (n : Chan) (k : Pulse) (agree : Bool) (rload : Option W16) (tick : W64) : State :=
  evalLamp (s.modCh n fun c =>
    { c with p := { c.p with offCls := k, rload := rload.getD c.p.rload, agreed := if agree then k else c.p.agreed,
                             agreeTick := if agree then some tick else c.p.agreeTick } }) n

def takePhantom (s : State) (n : Chan) (det supp driven : Bool) : State :=
  evalLamp (s.modCh n fun c =>
    { c with p := { c.p with phDet := det, phSupp := supp, driven := driven,
                             plat := if driven && !c.p.driven then withBit c.p.plat 5 true else c.p.plat } }) n

/-- A path check's outcome (R139, R140), with R217's judgement of the converters. [log 66: DEDUCED, unsafe] -/
def takePathCheck (s : State) (n : Chan) (fail : BitVec 4) (tick : W64) : State :=
  let s1 := s.modCh n fun c =>
    if fail = 0 then { c with p := { c.p with pcFail := 0, pcOk := true, pcTick := some tick, pcTime := tick.setWidth 32 } }
    else { c with p := { c.p with pcFail := fail, pcOk := false, plat := withBit c.p.plat 4 true, cntPc := satInc c.p.cntPc } }
  let a := recentFails s1 (if bitAt fail 0 then (n, s.tick) :: s1.conv.failA else s1.conv.failA)
  let b := recentFails s1 (if bitAt fail 1 then (n, s.tick) :: s1.conv.failB else s1.conv.failB)
  let s2 := { s1 with conv := { s1.conv with failA := a, failB := b, passA := s1.conv.passA || fail = 0, passB := s1.conv.passB || fail = 0 } }
  let s3 := if bitAt fail 0 && distinctChans a ≥ 3 then converterFault s2 0 else s2
  let s4 := sarRecover (if bitAt fail 1 && distinctChans b ≥ 3 then converterFault s3 1 else s3)
  evalLamp (if fail = 0 then s4 else raiseMeasure s4 n 2 0) n

/-- COMPLIANCE, LOOP_OVER and AO_OPEN as reported (R179, R182), with what follows them (R180). AO_OPEN clears with COMPLIANCE. -/
def takeCompliance (s : State) (n : Chan) (bit : Fin 11) (on : Bool) : State :=
  let was := bitAt s.loop[n].live bit.val
  let s1 := s.modLoop n fun l =>
    let l1 := setLoop l bit.val on
    let l2 := if bit.val = lCompliance && !on then setLoop l1 lOpen false else l1
    { l2 with faultEnd := if loopFault l && !loopFault l2 then some s.tick else l.faultEnd }
  let s2 := if on && !was && bit.val = lCompliance then raiseMeasure s1 n 3 0
    else if on && !was && bit.val = lOver then raiseMeasure s1 n 4 0 else s1
  putLoop s2 n

/-- The SUPPLY endpoint (Table 11-5). -/
def putSupply (s : State) : State := putHealth s 0xF03 6 ((put 0 s.m.band ||| putB 2 s.m.vloopLow).setWidth 16)

/-- A change of the supply band (R83, R141): counts, event 78, and at entry to ebb the end of the correlations. Restarts held back below the
refusal threshold fall due; an absent field die reports no REF_READY, and TRIMSTAT.ALMSEL reads 0 (R208). -/
def takeSupply (s : State) (band : BitVec 2) : State :=
  let ebb := fun (b : BitVec 2) => b = 1 || b = 2
  let enter := ebb band && !ebb s.m.band

  let s1 := { s with m := { s.m with band := band, ebbCount := if enter then satInc s.m.ebbCount else s.m.ebbCount },
                     bw := { s.bw with ebb := ebb band },
                     conv := { s.conv with refReady := s.conv.refReady && band ≠ 3 },
                     trim := if band = 3 then { s.trim with almsel := false } else s.trim }
  let s1 := if band = 3 then fieldGone s1 else s1
  let s2 := raise (putSupply s1) srcSupply (supplyWord s1.m)
  let s3 := (List.finRange 16).foldl putDir (if enter then discardAll s2 else s2)
  evalAll (if s.m.band = 2 && band ≠ 2 then (List.finRange 16).foldl tryRestartNow s3 else s3)

/-- A last-gasp record: once for each number (R526); one within a reload hold leaves staging INVALID (Table 15-11). -/
def takeGasp (s : State) (number : Nat) : State :=
  if s.m.gaspSeen = some number then s
  else
    let s1 := { s with m := { s.m with lastGasp := true, gaspCount := satInc s.m.gaspCount, gaspSeen := some number },
                       bw := { s.bw with gasped := true } }
    if s1.recov.reload.isSome then
      let s2 := { s1 with recov := { s1.recov with reload := none } }
      if s2.recov.stage = .switching then
        let s3 := { s2 with recov := { s2.recov with stage := .invalid } }
        raise s3 srcStage (stageWord s3.recov)
      else s2
    else s1

/-- ALMSEL as the field die sampled it: the effective direction of every AO follows, with what is derived from it (R175). -/
def takeAlmsel (s : State) (b : Bool) : State :=
  if s.trim.almsel = b then s else (List.finRange 16).foldl retargetAO { s with trim := { s.trim with almsel := b } }

/-- BLOCK of channel `n` as reported: with an AO's switches open its target is off, and closed it is resumed (Table 7-2). -/
def takeBlock (s : State) (n : Chan) (isOpen : Bool) : State :=
  let s1 := refresh (s.modCh n fun c => { c with w := setWire c.w wBlock isOpen }) n
  if !isAO s.ch[n].kind then s1
  else if isOpen then targetOff s1 n
  else if bitAt s.ch[n].w.wire wBlock && !loopOff s1 n then resumeAO s1 n
  else s1

/-- A rise of AO channel `n` refused by the field die (R83): what stays in force is its target again, and the demand that asked for the rise is in a
refused form (R172, R176); a safe state is no demand. [log 155: DEDUCED, unsafe] -/
def takeRiseRefused (s : State) (n : Chan) (on : Bool) (code : W16) (sel : BitVec 2) : State :=
  if !isAO s.ch[n].kind then s
  else
    let asked := s.loop[n].alarm ≠ 0
    let s1 := setTarget s n (if on then some (code, sel ≠ 0) else none)
    if s.loop[n].safeTgt then s1
    else if asked then alarmRefused (s1.modLoop n fun l => { l with alarm := sel }) n
    else putLoop (showCommand s1 n (epValue (s1.ep (s1.chEp n 0))) true) n

/-- Channel `n`, whose LIFE was `old`'s, has left DEFAULT: its paths have a synchronising reset (Table 8-6), and an AO's target is again what
Table 7-2 gives. -/
def leftDefault (old s : State) (n : Chan) : State :=
  if old.ch[n].life = .default && s.ch[n].life ≠ .default then
    let s1 := resetChannel s n
    if isAO s.ch[n].kind && !s.loop[n].targetOn && !loopOff s1 n then
      let s2 := resumeAO s1 n
      if s2.loop[n].safeTgt && s2.loop[n].targetOn then command s2 [.dac n s2.conv.dac[n]] else s2
    else s1
  else s

/-- The channels that have left DEFAULT since `old`. -/
def leaveDefault (old s : State) : State := (List.finRange 16).foldl (leftDefault old) s

/-- The field die is configured (R53); a channel that runs nothing there has changed over (R287). -/
def takeConfigured (s : State) (waits : Vector Bool 16) : State :=
  leaveDefault s (refreshAll { s with ch := Vector.ofFn fun n =>
    { s.ch[n] with replacing := false, oldChar := if waits[n] then s.ch[n].oldChar else none } })

/-- A channel has changed over to the new library (R287): a character it lacks is stopped, and the COMMAND endpoint that commanded it reads code 3. -/
def takeChangeover (s : State) (n : Chan) (gone : Bool) : State :=
  let s1 := s.modCh n fun c => { c with oldChar := none }
  if gone then
    let p := s.ch[n].roleOf.getD n
    let s2 := (setCmd s1 n .dark).modCh p fun c => { c with cmdWord := 0 }
    showCommand s2 p (codeThree (epValue (s2.ep (s2.chEp p 0)))) true
  else s1

/-- WIRE.SHORT of an AI-I: a transaction in progress fails (Table 7-6). -/
def takeShort (s : State) (n : Chan) (on : Bool) : State :=
  refresh ((if on then hartHit s n else s).modCh n fun c => { c with w := setWire c.w wShort on }) n

/-- Tick at which the flood window was last seen to end. -/
def floodEnded (p : ChanProve) (running : Bool) (t : W64) : Option W64 :=
  if running then none else if p.flood then some t else p.floodEnd

/-! ## Lanes and REINIT 0x1D -/

/-- Event 77 with DEV.BWSTAT. -/
def raiseBw (s : State) : State := raise s srcBreakwater (bwstatWord s.bw)

/-- Results of every path carry VALID = 0 (Table 1-5). -/
def dropValid (s : State) : State :=
  { s with conv := { s.conv with path := s.conv.path.map fun x => { x with res := { x.res with valid := false } } } }

/-- A field→logic lane goes down; with lane 0 every result loses VALID (Table 1-5). [log 18: DEDUCED, unsafe] -/
def laneDown (s : State) (lane1 : Bool) : State :=
  if lane1 then { s with bw := { s.bw with f2l1Up := false, fail1 := 0, retrain := satInc s.bw.retrain } }
  else dropValid { s with bw := { s.bw with f2l0Up := false, fail0 := 0, retrain := satInc s.bw.retrain } }

/-- Channel endpoints and lamps follow a change of the lanes. Only the voters write the image (R26): while the executive is halted or
exchanged nothing is written, and its resumption refreshes every channel. [log 139: DEDUCED, unsafe] -/
def refreshServed (s : State) : State := if s.votes then refreshAll s else s

/-- Event 77 and the marks of channel endpoints and lamps after a change of a field→logic lane (Table 1-5). -/
def laneChanged (s : State) : State := refreshServed (raiseBw s)

/-- REINIT of the field die begins, unless one is in progress (Table 15-5): the transmitter stops and the lanes are retrained. [log 103: DEDUCED, unsafe] -/
def startFieldReinit (s : State) (slot : Option SlotIx) : State :=
  if s.recov.jobs.any fun j => j.func = 0x1D then s
  else
    let s1 := laneDown (laneDown s false) true
    let s2 := { s1 with
      recov := { s1.recov with func := 0x1D, reinits := satInc s.recov.reinits, jobs := s.recov.jobs ++ [⟨0x1D, slot⟩], lanesUpSince := none }
      bw := { s1.bw with stopped := true, l2fUp := false, retrainFails := 0 } }
    refreshAll (evalAll s2)

/-! ## One report -/

/-- What the executive does with one report. [log 103: DEDUCED, unsafe] -/
def takeReport (s : State) (r : Report) : State :=
  match r with
  | .di n level tick => takeDi s n level tick
  | .diClass n c => takeDiClass s n c
  | .senseDiff n on => refresh (s.modCh n fun c => { c with w := setWire c.w wSense on }) n
  | .pairImbal n on => refresh (s.modCh n fun c => { c with w := setWire c.w wImbal on }) n
  | .short n on => takeShort s n on
  | .openLoop n on => refresh (s.modCh n fun c => { c with w := setWire c.w wOpen on }) n
  | .block n isOpen => takeBlock s n isOpen
  | .wiring n rev on held => takeWiring s n rev on held
  | .transient n =>
    resetChannel (s.modCh n fun c =>
      { c with w := { c.w with wireLat := withBit c.w.wireLat 10 true, cntTransient := satInc c.w.cntTransient } }) n
  | .doReverse n on =>
    let s1 := s.modCh n fun c =>
      let w := setWire c.w wReverse on
      { c with w := if on then { w with cntReverse := satInc w.cntReverse } else w }
    if on then raiseWire (refresh s1 n) n else tryRestartNow (refresh s1 n) n
  | .backfeed n on event =>
    let s1 := refresh (s.modCh n fun c => { c with w := setWire c.w wBackfeed on }) n
    if on then (if event then raiseWire s1 n else s1) else tryRestartNow s1 n
  | .trip n bit cool inLimit ma tj tick => takeTrip s n bit cool inLimit ma tj tick
  | .cooling n bit on tj tick =>
    if on then
      let s1 := s.modCh n fun c =>
        let p := setProt c.prot bit.val true
        { c with prot := if bit = 4 then { p with cntClamp := satInc p.cntClamp, tripTime := tick.setWidth 32 }
          else { p with cntThermal := satInc p.cntThermal, tjTrip := tj, tripTime := tick.setWidth 32 } }
      evalLamp (raiseProt s1 n) n
    else tryRestartNow (evalLamp (s.modCh n fun c => { c with prot := setProt c.prot bit.val false }) n) n
  | .ocCleared n =>
    evalLamp (s.modCh n fun c =>
      { c with prot := setProt (setProt (setProt (setProt c.prot pOc false) pShort false) pBackfeed false) pInLimit false }) n
  | .restarted n => s.modCh n takeRestart
  | .restartMissed n => s.modCh n fun c => { c with restarting := false }
  | .flood n running limited =>
    evalLamp (s.modCh n fun c =>
      let p := setProt c.prot pFlood running
      { c with prot := if limited then { p with lat := withBit p.lat pFlood true } else p,
               p := { c.p with flood := running, floodEnd := floodEnded c.p running s.tick,
                               win := if running then .notArmed else c.p.win } }) n
  | .clampEnd n eLast eEst eAllow => s.modCh n fun c => { c with prot := { c.prot with eLast := eLast, eEst := eEst, eAllow := eAllow } }
  | .switched n on _ => takeSwitched s n on
  | .window n w => evalLamp (s.modCh n fun c => { c with p := { c.p with win := w } }) n
  | .pulse n k agree rload tick => takePulse s n k agree rload tick
  | .phantom n d e f => takePhantom s n d e f
  | .pathCheck n fail tick => takePathCheck s n fail tick
  | .level n lit =>
    let s1 := evalLamp (s.modCh n fun c => { c with p := { c.p with cmdLit := lit } }) n
    if lit && (ocLive s1.ch[n].prot || coolLive s1.ch[n].prot) then tryRestartNow s1 n else s1
  | .late _ => s
  | .turnOnRefused n => evalLamp s n
  | .riseRefused n on code sel => takeRiseRefused s n on code sel
  | .ditherCut n => discardAcc s n
  | .compliance n bit on => takeCompliance s n bit on
  | .supply band => takeSupply s band
  | .lastGasp r _ => takeGasp s r.number
  | .almsel b => takeAlmsel s b
  | .button zero ended ms both => takeButton s zero ended ms both
  | .diRaw levels => takeRaw s levels
  | .heat e => { s with ch := Vector.ofFn fun n => { s.ch[n] with prot := { s.ch[n].prot with eEst := e[n] } } }
  | .restated n c => refresh (evalLamp (s.modCh n fun x => takeChan x c) n) n
  | .configured waits => takeConfigured s waits
  | .changedOver n gone => takeChangeover s n gone
  | .vloop falling => raise (putSupply { s with m := { s.m with vloopLow := falling } }) srcVloop (putB 0 falling)
  | .refReady => evalAll { s with conv := { s.conv with refReady := true } }
  | .refNow b => if s.conv.refReady = b then s else evalAll { s with conv := { s.conv with refReady := b } }
  | .fatal _ => enterStop s 0x10
  | .seqTimer => { s with bw := { s.bw with reloadFirst := true } }
  | .microRam => startFieldReinit { s with bw := { s.bw with reloadFirst := true, ramOnce := true } } none
  | .slackSeen _ =>
    let s1 := { s with bw := { s.bw with slackSeen := true }, ch := s.ch.map fun c => { c with restarting := false } }
    raise s1 srcBreakwater (bwstatWord s1.bw)

  | .safeApplied => if s.m.mode = .trim then s else refreshAll ((List.finRange 16).foldl noteSafe (markSafe s true))

/-- Reports taken in order. [log 21: DESIGN CHOICE, unsafe] -/
def takeReports (s : State) (rs : List Report) : State := rs.foldl takeReport s

end Sys2Proof.Machine
end

