-- ==== Sys2Proof/Machine/EpOps.lean ====
section
/-!
DEFINITION. The local endpoints as the executive computes them from their sources (04 Table 4-9, 05 Table 5-11, 07 Table 7-7 and R201–R202,
09 Table 9-6, 11 R296–R299 and Table 11-5), at a boundary and at a start.
-/
namespace Sys2Proof.Machine


/-- A scaled VALUE; one that saturates carries BAD_FAULT (R258). -/
def putScaled (s : State) (a : BitVec 20) (q : BitVec 4) (v : Int) : State :=
  epPut s a (if (q = qGood || q = qHoldover) && satSignedFlag 16 v then qFault else q) 2 (sat16 v)

/-! ## Channels -/

/-- CURRENT (qty 0) or VOLTAGE (qty 1) of channel `n` (R237, R179, R185, R281). -/
def putAnalogue (s : State) (n : Chan) (p : PathIx) : State :=
  let r := s.conv.path[p].res
  let l := s.loop[n]
  let bad := !r.valid && !r.settling
    || (p.val % 2 = 0 && ((isAO s.ch[n].kind && loopFault l) || bitAt l.live lNeLow || bitAt l.live lNeHigh))
  let q := qualOf s n true false
  let w := if bitAt (recWord (s.crec n) 40) 1 then some (s.desc p).syncWheel.toFin else none
  putScaled s (s.chEp n (2 + p.val % 2)) (if q = qGood && bad then qFault else timedBy s w q) (divRound r.value.toInt (divisorOf (s.csel p)))

/-- The TJ endpoint. -/
def putTj (s : State) (n : Chan) : State :=
  let r := s.conv.hk[tjInput n]
  let q := qualOf s n true false
  putScaled s (s.chEp n 5) (if q = qGood && !r.valid then qFault else q) (divRound r.value.toInt 100)

/-- Headroom h in µV (Table 9-6). -/
def headroomUv (s : State) (n : Chan) : Int :=
  if s.ch[n].kind = kindAOSrc then s.conv.hk[(1 : Fin 24)].value.toInt - (s.vol n).value.toInt else (s.vol n).value.toInt

/-- STRINGS and CONDUCTANCE: STALE with VALUE 0 while no valid estimate. -/
def putEstimate (s : State) (n : Chan) : State :=
  let p := s.ch[n].p
  let q := qualOf s n false false
  if p.estValid && fresh s n p.estTick then
    putScaled (epPut s (s.chEp n 8) q 2 (p.strings.setWidth 16)) (s.chEp n 9) q (divRound p.gMeas.toInt 10)
  else epPut (epPut s (s.chEp n 8) (if q = qGood then qStale else q) 2 0) (s.chEp n 9) (if q = qGood then qStale else q) 2 0

/-- Class 2 and 3 endpoints of channel `n` (R299). -/
def recomputeChan (s : State) (n : Chan) : State :=
  let k := s.ch[n].kind
  let s1 := putTj (putAnalogue (putAnalogue s n (curPath n)) n (volPath n)) n
  let s2 := if k = kindDO || k = kindDI then epPut s1 (s1.chEp n 7) (qualOf s1 n false false) 3 s1.ch[n].count else s1
  let s3 := if k = kindDO && pProveEn (s2.crec n) && pSndEn (s2.crec n) then putEstimate s2 n else s2
  if isAO k then
    let h := divRound (headroomUv s3 n) 10000
    putScaled (s3.modLoop n fun l => { l with headroom := sat16 h }) (s3.chEp n 0x21) (qualOf s3 n false false) h
  else if k = kindAII && hartEn (s3.crec n) then epPut s3 (s3.chEp n 0x24) (qualOf s3 n false false) 3 s3.loop[n].errs
  else s3

/-! ## Device health (Table 11-5) -/

/-- A health word of class 2 from a housekeeping result. -/
def putHkHealth (s : State) (o : Nat) (h : Fin 24) (d : Int) : State :=
  let r := s.conv.hk[h]
  putScaled s (s.lo o) (if r.valid then qGood else qFault) (divRound r.value.toInt d)

/-- The TRIAD endpoint. -/
def putTriad (s : State) : State :=
  putHealth s 0xF01 6 ((putB 0 s.triad.vote[0] ||| putB 1 s.triad.vote[1] ||| putB 2 s.triad.vote[2] ||| putB 3 s.straps.lanemode).setWidth 16)

/-- Whole minutes since the end of start-up. -/
def uptime (s : State) : W16 := BitVec.ofNat 16 ((s.since s.m.t0 - msTicks s.m.elapsedMs.toNat) / secTicks 60)

def recomputeHealth (s : State) : State :=
  let s1 := putHealth s 0xF02 3 ((cfgactWord s.boot).setWidth 16)
  let s2 := putHkHealth (putHkHealth (putHkHealth s1 0xF04 0 10000) 0xF05 1 10000) 0xF06 6 100
  let s3 := putHealth s2 0xF07 2 (if s2.gov.pEst.toNat > 32767 then 32767 else s2.gov.pEst)
  putHealth (putHealth (putHealth s3 0xF0C 3 s3.img.doneTag) 0xF0D 3 (uptime s3)) 0xF0E 3 s3.ev.lost

/-- Every class 2 and 3 endpoint recomputed from its source (R299); not in LOAD, whose words are not served (R296). [log 74: DEDUCED, safe] -/
def recompute (s : State) : State :=
  if s.m.mode = .load then s else recomputeHealth (putHarts ((List.finRange 16).foldl recomputeChan s))

/-! ## Definition of local endpoints -/

/-- Endpoint `k` of a channel is defined for its kind (Tables 4-9, 5-11, 7-7). -/
def epDefined (s : State) (n : Chan) (k : Nat) : Bool :=
  let kd := s.ch[n].kind
  let r := s.crec n
  match k with
  | 0 => kd = kindDO || isAO kd
  | 1 => kd = kindDO
  | 2 | 3 | 5 | 6 => true
  | 4 => kd = kindDO || kd = kindDI || kd = kindPair
  | 7 => kd = kindDO || kd = kindDI
  | 8 | 9 => kd = kindDO && pProveEn r && pSndEn r
  | 10 => kd = kindDO && pProveEn r && pOffEn r
  | 11 => kd = kindDO && pProveEn r
  | 0x20 | 0x21 => isAO kd
  | 0x22 => isAO kd || kd = kindAII
  | 0x23 | 0x24 => kd = kindAII && hartEn r
  | _ => false

/-- Channel endpoints that exist on some kind. -/
def chanOffsets : List Nat := [0, 1, 2, 3, 4, 5, 6, 7, 8, 9, 10, 11, 0x20, 0x21, 0x22, 0x23, 0x24]

/-- A local offset 0x800–0xEFF is mapped by HART, written by a rule or a rule command endpoint of `g`. -/
def offsetServed (g : Generation) (o : Nat) : Bool :=
  (o < 0xC00 && g.hart.any fun e => e.ep.toNat = o)
  || (0xC00 ≤ o && ((g.rules.any fun r => r.outMode = 1 && offsetOf g.group.localBase r.out = o)
      || (ruleCmdEps g.rules g.aspects).any fun a => offsetOf g.group.localBase a = o))

/-- Words that the generation in force does not define become UNASSIGNED (R53, R114). -/
def unassign (s : State) : State :=
  match s.boot.gen with
  | none => s
  | some g =>
    let s1 := (List.finRange 16).foldl (fun a n =>
      chanOffsets.foldl (fun b k => if epDefined b n k then b else epPut b (b.chEp n k) qUnassigned 0 0) a) s
    (s1.img.words.map fun c => c.1 - s1.localBase.toNat).foldl (fun a o =>
      if 0x800 ≤ o && o < 0xF00 && !offsetServed g o then epPut a (a.lo o) qUnassigned 0 0 else a) s1

/-- Rule command endpoints that hold no command word yet begin at VALUE 0 with QUAL GOOD (R296, R334). -/
def assignCommands (s : State) : State :=
  match s.boot.gen with
  | none => s
  | some g => (ruleCmdEps g.rules g.aspects).foldl (fun a x => if epClass (a.ep x) = 5 then a else epPut a x qGood 5 0) s

/-- Every word of classes 0, 4, 5 and 6 that follows the state. -/
def putAll (s : State) : State :=
  let s1 := (List.finRange 16).foldl putHartLive (refreshAll s)
  putRetired (putLinks (putWheels (putTriad (putSupply (putMode (assignCommands s1))))))

/-- The local image at a start (R296): no word is older than the start, every initial word carries SEQ 0, and nothing of it is a change. [log 74: DEDUCED, safe] -/
def initLocal (s : State) : State :=
  let s1 := recompute (putAll { s with img := { s.img with words := [], copies := [] } })
  { s1 with ev := s.ev, port := s.port,
            img := { s1.img with changes := [], words := s1.img.words.filterMap fun c =>
              let w := c.2 &&& 0x00FFFFFF#32; if w = epUnassigned then none else some (c.1, w) } }

end Sys2Proof.Machine
end

