-- ==== Sys2Proof/Machine/BwOps.lean ====
section
/-!
DEFINITION. Shared operations of the Breakwater (01 R18–R22): acceptance of frames at either die, acknowledgements, the delivery of reports,
loss and training of lanes, and the end of a hold.
-/
namespace Sys2Proof.Machine

/-! ## Acceptance at the logic die (R19) -/

/-- An acknowledgement: frames up to SEQ `a` are freed and waiting ones take their places (R21). -/
def bwAck (s : State) (a : Byte) : State :=
  match s.bw.unacked.findIdx? fun f => f.seq = a with
  | some i => bwRefill { s with bw := { s.bw with unacked := s.bw.unacked.drop (i + 1), l2fUp := true } } 16
  | none => s

/-- The logic die declares a field→logic lane lost and retrains it (R22, Table 1-5). [log 18: DEDUCED, unsafe] -/
def f2lLost (s : State) (lane1 : Bool) : State :=
  laneChanged (laneDown { s with recov := { s.recov with lanesUpSince := none } } lane1)

/-- A discarded frame counted under DEV.BWCNT.CRC_ERR. [log 20: DEDUCED, unsafe] -/
def bwDiscard (s : State) : State := { s with bw := { s.bw with crcErr := satInc s.bw.crcErr } }

/-- A failed frame of a field→logic lane: the eighth in a row loses the lane (R22). -/
def bwFailed (s : State) (lane1 : Bool) : State :=
  let n := (if lane1 then s.bw.fail1 else s.bw.fail0) + 1
  let s1 := bwDiscard { s with bw := if lane1 then { s.bw with fail1 := n } else { s.bw with fail0 := n } }
  if 8 ≤ n then f2lLost s1 lane1 else s1

/-- A valid frame of a field→logic lane: the run of failed frames ends, FLAGS tells of ebb mode (Tables 1-3, 1-6a), ACK frees what it names. -/
def bwValid (s : State) (lane1 : Bool) (h : BwHeader) : State :=
  let b := { s.bw with ebb := bitAt h.flags 2 }
  bwAck { s with bw := if lane1 then { b with fail1 := 0 } else { b with fail0 := 0 } } h.ack

/-- The field die forms its next frame of a retransmitted type: SEQ `seq`, while fewer than 16 are unacknowledged (R21). -/
def fdMaySend (s : State) (seq : Byte) : Bool := s.fd.alive && seq = s.fd.txSeq && s.fd.unacked.length < 16

/-- A frame the field die forms, held until it is acknowledged. -/
def fdSend (s : State) (b : F2L) : State :=
  { s with fd := { s.fd with
      unacked := s.fd.unacked ++ [⟨s.fd.txSeq, b, s.fd.tick, s.fd.rxNext - 1, bwFlags false false (s.fd.band = 1 || s.fd.band = 2)⟩]
      txSeq := s.fd.txSeq + 1 } }

/-- What the field die's sender holds under number `seq`. -/
def fdHeld (s : State) (seq : Byte) : Option F2L := (s.fd.unacked.find? fun x => x.seq = seq).map (·.body)

/-- A frame of a retransmitted type `ty` on field→logic lane 1 (R19). Its content is what the field die's sender holds under its SEQ. -/
def bwTakeRetx (s : State) (h : BwHeader) (ty : Byte) (f : F2L → State → State) : State :=
  if !s.bw.f2l1Up || !s.fd.alive then s
  else if !frameOk h ty then bwFailed s true
  else if h.seq ≠ s.bw.rxNext then bwDiscard s
  else match fdHeld s h.seq with
    | some b => if b.type = ty then f b (bwValid { s with bw := { s.bw with rxNext := s.bw.rxNext + 1 } } true h) else s
    | none => s

/-- An IDLE or SAMPLE frame of type `ty` on a field→logic lane (R19). -/
def bwTakePlain (s : State) (lane1 : Bool) (h : BwHeader) (ty : Byte) (f : State → State) : State :=
  let up := if lane1 then s.bw.f2l1Up else s.bw.f2l0Up
  let last := if lane1 then s.bw.idle1 else s.bw.idle0
  let d := (h.seq - last).toNat
  if !up || !s.fd.alive then s
  else if !frameOk h ty || d = 0 || 16 < d then bwFailed s lane1
  else
    let s1 := { s with bw := if lane1 then { s.bw with idle1 := h.seq } else { s.bw with idle0 := h.seq } }
    f (bwValid s1 lane1 h)

/-! ## Delivery -/

/-- Reports reach the executive: at once, or buffered, up to 256 frames, while it does not run, is exchanged
(R425) or halted. -/
def deliver (s : State) (rs : List Report) : State :=
  if s.execRuns then takeReports s rs
  else if s.bw.buffered.length < 256 then { s with bw := { s.bw with buffered := s.bw.buffered ++ [rs] } }
  else s

/-- Buffered frames taken in order (R425). [log 21: DESIGN CHOICE, unsafe] -/
def takeBuffered (s : State) : State := s.bw.buffered.foldl takeReports { s with bw := { s.bw with buffered := [] } }

/-! ## Loss of the logic→field lane -/

/-- With the lane lost each shadow wheel runs at INC_HOLD, and no update waits for its tick (R282). -/
def holdWheels (s : State) : State :=
  if s.fd.l2fUp then s else { s with fd := { s.fd with inc := s.fd.incHold, phases := [] } }

/-- The field die enters slack hold (R22, R78); with a window of 0 its safe states apply at once (Table 3-7). Outputs and characters go on;
dither and pulses stop (R141). With the lane lost the shadow wheels run at
INC_HOLD (R282). -/
def enterSlack (s : State) : State :=
  if !s.fdOn then s
  else if s.fd.slack then holdWheels s
  else
    let s := holdWheels s
    let s1 := { s with fd := { s.fd with
      slack := true, overwritten := 0, slackEnd := s.fd.tick + BitVec.ofNat 64 (msTicks s.fd.slackMs.toNat),
      ch := s.fd.ch.map fun c => { c with dither := false } } }
    let s1 := (List.finRange 16).foldl hartAbandon (discardAll s1)
    if s.fd.slackMs = 0 then applySafeAll { s1 with fd := { s1.fd with expired := true } } else s1

/-- The field die loses the logic→field lane and enters slack hold (R22). A running logic die retrains it, which DEV.BWSTAT.RETRAIN counts.
[log 18: DEDUCED, unsafe] -/
def l2fLost (s : State) : State :=
  let n := if s.m.run = .running && !s.triad.halted then satInc s.bw.retrain else s.bw.retrain
  enterSlack { s with fd := { s.fd with l2fUp := false, safeHeld := false, fail := 0 }
                      bw := { s.bw with l2fUp := false, retrain := n }, recov := { s.recov with lanesUpSince := none } }

/-! ## Reception at the field die -/

/-- The logic→field transmitter sends: not while the logic die is in reset, a supply is absent or a debug halt lasts (R20). -/
def State.txRuns (s : State) : Bool := !s.bw.stopped && s.m.run ≠ .held && s.m.run ≠ .clockReset

/-- A failed frame at the field die, discarded and counted in DEV.BWCNT, which covers every lane; the eighth in a row loses the lane (R22).
[log 20: DEDUCED, unsafe] -/
def fdFailed (s : State) : State :=
  let n := s.fd.fail + 1
  let s1 := bwDiscard { s with fd := { s.fd with fail := n } }
  if 8 ≤ n then l2fLost s1 else s1

/-- A valid frame at the field die: the run of failed frames ends, and ACK frees the frames up to the one it names (R21). -/
def fdValid (s : State) (a : Byte) : State :=
  { s with fd := { s.fd with fail := 0, unacked := match s.fd.unacked.findIdx? fun x => x.seq = a with
      | some i => s.fd.unacked.drop (i + 1)
      | none => s.fd.unacked } }

/-- A frame of a retransmitted type on the logic→field lane (R19): its content is what the sender holds under its SEQ. -/
def fdTakeRetx (s : State) (h : BwHeader) (ty : Byte) (f : L2F → State → State) : State :=
  if !s.fd.alive || !s.fd.l2fUp || !s.txRuns then s
  else if !frameOk h ty then fdFailed s
  else if h.seq ≠ s.fd.rxNext then bwDiscard s
  else match s.bw.unacked.find? fun x => x.seq = h.seq with
    | none => s
    | some x => if x.body.type = ty then f x.body (fdValid { s with fd := { s.fd with rxNext := s.fd.rxNext + 1 } } h.ack) else s

/-- An IDLE frame on the logic→field lane (R19). -/
def fdTakeIdle (s : State) (h : BwHeader) : State :=
  let d := (h.seq - s.fd.idle).toNat
  if !s.fd.alive || !s.fd.l2fUp || !s.txRuns then s
  else if !frameOk h tyIdle || d = 0 || 16 < d then fdFailed s
  else fdValid { s with fd := { s.fd with idle := h.seq } } h.ack

/-! ## Lanes -/

/-- Slack hold ends with the outputs as they are: buffered events are reported in order, after the hold and its overwrites (R78, R80), and every
HART device is sought again (07 Table 7-6). -/
def leaveSlack (s : State) : State :=
  if !s.fd.slack then s
  else
    (List.finRange 16).foldl hartSeek
      { s with fd := { s.fd with slack := false, expired := false, reloadHold := false,
                                 events := .slackSeen s.fd.overwritten :: s.fd.events, overwritten := 0 } }

/-- The three lanes are up. -/
def Breakwater.allUp (b : Breakwater) : Bool := b.l2fUp && b.f2l0Up && b.f2l1Up

/-- Frames numbered from 0 again after a training (R19). -/
def renumber : List BwTx → Byte → List BwTx
  | [], _ => []
  | x :: xs, k => { x with seq := k, flags := x.flags &&& 0xFE#8 } :: renumber xs (k + 1)

/-- The field die's frames numbered from 0 again (R19). -/
def renumberFd : List FdTx → Byte → List FdTx
  | [], _ => []
  | x :: xs, k => { x with seq := k, flags := x.flags &&& 0xFE#8 } :: renumberFd xs (k + 1)

/-- A lane comes up after training, and its sequence spaces restart (R19). -/
def laneUp (s : State) (lane : BwLane) : State :=
  let b := s.bw
  match lane with
  | .f2l0 => { s with bw := { b with f2l0Up := true, idle0 := 255, fail0 := 0, lastSlot := none, retrainFails := 0 } }
  | .f2l1 =>
    { s with bw := { b with f2l1Up := true, rxNext := 0, idle1 := 255, fail1 := 0, retrainFails := 0 }
             fd := { s.fd with unacked := renumberFd s.fd.unacked 0, txSeq := BitVec.ofNat 8 s.fd.unacked.length } }
  | .l2f =>
    { s with bw := { b with l2fUp := true, stopped := s.triad.halted, unacked := renumber b.unacked 0,
                            txSeq := BitVec.ofNat 8 b.unacked.length }
             fd := { s.fd with l2fUp := true, rxNext := 0, idle := 255, fail := 0 } }

/-- Waiting channel commands of an outage or hold dropped: a common tick commands every channel instead (R525). -/
def dropHeldCommands (s : State) : State :=
  { s with bw := { s.bw with stepFive := [], waiting := s.bw.waiting.filter fun b => !b.isCommand } }

/-- The newest commanded state of every channel sent with one common target tick, after what waited through a hold (R430, R525). [log 15: DEDUCED, unsafe] -/
def endHold (s : State) : State :=
  let acts := (s.bw.waiting ++ s.bw.stepFive).flatMap fun b => match b with
    | .command a _ => a.filter fun x => match x with | .set _ _ => false | _ => true
    | _ => []
  let s1 := dropHeldCommands s
  bwRefill (command s1 (acts ++ (List.finRange 16).flatMap (commonAct s1))) 16

end Sys2Proof.Machine
end

