-- ==== Sys2Proof/Machine/Wheels.lean ====
section
/-!
DEFINITION. Reference edges, the discipline of the wheels, and the characters and pulses placed by phase (10).
-/
namespace Sys2Proof.Machine

/-! ## The second number (R272) -/

/-- Item 2's value at an edge now, when a valid second number arrived within the last 2 s. -/
def upstreamSec (s : State) : Option W32 :=
  match s.time.up with
  | some u => if s.since u.arrived ≤ secTicks 2 then some (BitVec.ofInt 32 (u.sec.toNat + divRound (s.tick.toNat - u.origin) 10000000)) else none
  | none => none

/-- Item 3's value. -/
def countedSec (s : State) : W32 :=
  match s.time.ppsLast with
  | some t => s.time.sec + BitVec.ofInt 32 (divRound (s.since t) 10000000)
  | none => 0

/-- SEC taken at an accepted PPS edge. [log 72: DEDUCED, unsafe] -/
def takeSec (s : State) : State :=
  let t := s.time
  match t.set, upstreamSec s with
  | some v, _ => { s with time := { t with sec := v, set := none, secValid := true, secSrc := false } }
  | none, some v =>
    if !t.secValid then { s with time := { t with sec := v, secValid := true, secSrc := true } }
    else
      let c := countedSec s
      let s1 := { s with time := { t with sec := c, conflict := if v = c then t.conflict else satInc t.conflict } }
      if v = c then s1
      else (List.finRange 4).foldl (fun a w => if (a.tide w).ref = 1 && started a.wheel[w] then raiseTide a w else a) s1
  | none, none => { s with time := { t with sec := countedSec s } }

/-- D = k × 10,000,000 ± 1,000, k = 1 or 2. [log 72: DEDUCED, unsafe] -/
def ppsInterval (d : Nat) : Bool := (9999000 ≤ d && d ≤ 10001000) || (19999000 ≤ d && d ≤ 20001000)

/-- Expected phase of REF 1 (Table 10-1). -/
def ppsPhase (sec : W32) (period : Nat) : W32 := BitVec.ofInt 32 (divRound ((sec.toNat * 1000000 % period : Nat) * 2 ^ 32) period)

/-- A wheel takes part in discipline: started, with this reference, and not in STOP. -/
def follows (s : State) (w : WheelIx) (ref : Byte) : Bool := started s.wheel[w] && (s.tide w).ref = ref && s.m.mode ≠ .stop

/-- The interval from the last accepted event of a wheel's chain passes `ok`; the first event of a chain passes. -/
def inChain (s : State) (w : WheelIx) (ok : Nat → Bool) : Bool :=
  match s.wheel[w].last with
  | some t => ok (s.since t)
  | none => true

/-- R270–R272: a rising edge of PPS_IN. [log 72: DEDUCED, unsafe] -/
def execPpsEdge (s : State) : Host.Outcome State Fault Refusal :=
  .next (if s.m.run ≠ .running then s
    else
      let fits : Bool := match s.time.ppsChain with
        | some t => if s.since t > 25000000 then true else ppsInterval (s.since t)
        | none => true
      let s1 := if fits then
          let s1 := takeSec s
          { s1 with time := { s1.time with ppsChain := some s.tick, ppsLast := some s.tick } }
        else s
      (List.finRange 4).foldl (fun a w =>
        if follows a w 1 then
          if inChain a w ppsInterval then captureEvent a w (ppsPhase a.time.sec (a.tide w).periodUs.toNat) s.tick else rejectEvent a w
        else a) s1)

/-- Acceptance of a mains event (Table 10-2). -/
def mainsInterval (x : Wheel) (period d : Nat) : Bool :=
  95 * period ≤ 10 * d && 10 * d ≤ 105 * period
  && match x.lastInterval with
    | some l => decide (100 * (d - l) ≤ l ∧ 100 * (l - d) ≤ l)
    | none => true

/-- One rising edge of MAINS_IN at a wheel: ignored within 0.4 of a cycle, counted, and every MAINS_N-th an event. -/
def mainsAt (s : State) (w : WheelIx) : State :=
  let c := s.tide w
  let x := s.wheel[w]
  let n := max 1 c.mainsN.toNat
  let soon : Bool := match x.mainsTick with
    | some t => s.since t * n < 4 * c.periodUs.toNat
    | none => false
  if soon then s
  else
    let s1 := s.modWheel w fun x => { x with mains := if x.mains + 1 < n then x.mains + 1 else 0, mainsTick := some s.tick }
    if x.mains + 1 < n then s1
    else if inChain s1 w (mainsInterval x c.periodUs.toNat) then captureEvent s1 w 0 s.tick
    else rejectEvent s1 w

/-- R269–R271: a rising edge of MAINS_IN. -/
def execMainsEdge (s : State) : Host.Outcome State Fault Refusal :=
  .next ((List.finRange 4).foldl (fun a w => if follows a w 2 then mainsAt a w else a) s)

/-- D = k turns ± 100 ppm, k = 1 to 64. -/
def tideInterval (period d : Nat) : Bool :=
  let k := (d + 5 * period) / (10 * period)
  1 ≤ k && k ≤ 64 && decide (10000 * (d - 10 * period * k) ≤ 10 * period * k ∧ 10000 * (10 * period * k - d) ≤ 10 * period * k)

/-- R269–R271: a rising edge of TIDE_IN. -/
def execTideInEdge (s : State) : Host.Outcome State Fault Refusal :=
  .next ((List.finRange 4).foldl (fun a w =>
    if follows a w 3 then
      if inChain a w (tideInterval (a.tide w).periodUs.toNat) then captureEvent a w 0 s.tick else rejectEvent a w
    else a) s)

/-- R274, R276–R278: the oldest captured event of a wheel is processed. -/
def execReferenceEventProcess (w : WheelIx) (s : State) : Host.Outcome State Fault Refusal :=
  .next (if !s.execRuns || s.m.mode = .stop then s
    else match s.wheel[w].events with
      | [] => s
      | v :: vs => processEvent (s.modWheel w fun x => { x with events := vs }) w v)

/-- R274: a new increment takes force at its apply tick. -/
def execIncApply (w : WheelIx) (s : State) : Host.Outcome State Fault Refusal :=
  .next (match incDue s s.wheel[w] with
    | some p => if p.step.isNone then applyInc s w p else s
    | none => s)

/-- R228: SYNC_PHASE is crossed at a tick later than the request, by the wheel's advance or by a forward step; the first raw sample at or after that
tick is raw sample 0. -/
def alignCrossing (s : State) (p : PathIx) : State :=
  let d := s.desc p
  let x := s.wheel[d.syncWheel.toFin]
  let q := s.conv.path[p]
  if q.waitAlign && q.since.toNat ≤ s.tick.toNat && started x && fires x.prev x.acc d.syncPhase then
    s.modPath p fun x => { x with waitAlign := false, since := s.tick }
  else s

/-- [log 73: DEDUCED, unsafe] -/
def execAlignCrossing (p : PathIx) (s : State) : Host.Outcome State Fault Refusal := .next (alignCrossing s p)

/-- Phase 0 of wheel 0 fires, and TIDE_OUT rises (R286). -/
def tidePulse (s : State) : State :=
  if started s.wheel[0] && fires s.wheel[0].prev s.wheel[0].acc 0 then { s with pins := { s.pins with tideOut := true, tideRise := s.tick } } else s

/-- TIDE_OUT falls 100 ticks after its rise (R286). -/
def tideFall (s : State) : State :=
  if s.pins.tideOut && 100 ≤ s.since s.pins.tideRise then { s with pins := { s.pins with tideOut := false } } else s

/-- A step at its apply tick (R279): what crosses by it, and event 72 + w. -/
def stepWheel (s : State) (w : WheelIx) (p : PendingInc) : State :=
  let s1 := (List.finRange 32).foldl alignCrossing (applyInc s w p)
  raiseTide (if w = 0 then tidePulse s1 else s1) w

/-- R279: a step at its apply tick. -/
def execWheelStep (w : WheelIx) (s : State) : Host.Outcome State Fault Refusal :=
  .next (match incDue s s.wheel[w] with
    | some p => if p.step.isSome then stepWheel s w p else s
    | none => s)

/-- Ticks without an accepted event after which a reference is lost (Table 10-2). -/
def lostAfter (c : TideCfg) : Nat :=
  if c.ref = 2 then 25 * c.periodUs.toNat
  else if c.ref = 3 then min (1600 * c.periodUs.toNat) (secTicks 600)
  else 25000000

/-- R271, R277: a reference is lost once that time has passed since its chain's last accepted event, or since the start before its first one.
[log 72: DEDUCED, unsafe] -/
def execReferenceLost (w : WheelIx) (s : State) : Host.Outcome State Fault Refusal :=
  .next (
    let x := s.wheel[w]
    let due : Bool := lostAfter (s.tide w) ≤ s.since (x.last.getD x.waitFrom)
    if started s.wheel[w] && (s.tide w).ref ≠ 0 && s.m.mode ≠ .stop && due then wheelLost s w true else s)

/-! ## Characters -/

/-- A phase of shadow wheel `w` fires at this tick of the field die (R283). -/
def shadowFires (s : State) (w : WheelIx) (x : W32) : Bool := s.fdOn && s.fd.wheelOn[w] && fires s.fd.prev[w] s.fd.acc[w] x

/-- An edge of the character that channel `n` runs fires at this tick (R283). -/
def edgeFires (s : State) (n : Chan) : Bool := match runningChar (s.fdc n) with
  | some k => match runningRecord s (s.fdc n) k with
    | some r => r.edges.any fun e => shadowFires s r.wheel e.phase
    | none => false
  | none => false

/-- The level of the running character taken at an edge (R283). -/
def charEdge (s : State) (n : Chan) : State := if edgeFires s n then demand s n id else s

/-- R283: an edge of the running character fires. -/
def execCharacterEdge (n : Chan) (s : State) : Host.Outcome State Fault Refusal := .next (charEdge s n)

/-- R287: phase 0 of the old wheel fires, or a forward step crosses it, on a channel whose changeover waits; a character the new library lacks stops.
[log 73: DEDUCED, unsafe] -/
def changeover (s : State) (n : Chan) : State :=
  match (s.fdc n).oldChar with
  | none => s
  | some o =>
    if shadowFires s o.wheel 0 then
      let gone : Bool := match (s.fdc n).cmd with
        | .character k => (findChar s.fd.chars k).isNone
        | _ => false
      reportStatus (demand s n fun c => { c with oldChar := none, cmd := if gone then .dark else c.cmd }) (.changedOver n gone)
    else s

/-- R287: a channel changes over to the new library. -/
def execLibraryChangeover (n : Chan) (s : State) : Host.Outcome State Fault Refusal := .next (changeover s n)

/-! ## TIDE_OUT (R286) -/

/-- R286: phase 0 of wheel 0 fires. -/
def execTideOutPulse (s : State) : Host.Outcome State Fault Refusal := .next (tidePulse s)

/-- R286: the pulse ends. -/
def execTideOutEnd (s : State) : Host.Outcome State Fault Refusal := .next (tideFall s)

/-! ## Shadow wheels (R16, R279, R282) -/

/-- A PHASE item loaded at the field die: at its tick, or extrapolated to now when that has passed. A value that moves the phase gives the
wheel's running characters the level there. -/
def loadPhase (s : State) (i : PhaseItem) : State :=
  let acc := i.acc + i.inc * (s.fd.tick - i.tick)
  let moved := !s.fd.wheelOn[i.wheel] || s.fd.acc[i.wheel] ≠ acc
  let s1 := { s with fd := { s.fd with
    acc := setAt s.fd.acc i.wheel acc
    prev := if s.fd.wheelOn[i.wheel] then s.fd.prev else setAt s.fd.prev i.wheel acc
    inc := setAt s.fd.inc i.wheel i.inc, incHold := setAt s.fd.incHold i.wheel i.hold,
    wheelOn := setAt s.fd.wheelOn i.wheel true } }
  if !moved then s1
  else (List.finRange 16).foldl (fun a n => if (runningChar (a.fdc n)).isSome && a.fdOn then demand a n id else a) s1

/-- PHASE items: those whose tick has come are loaded, the others wait for theirs. -/
def takePhase (s : State) (items : List PhaseItem) : State :=
  let due := items.filter fun i => i.tick.toNat ≤ s.fd.tick.toNat
  let later := items.filter fun i => s.fd.tick.toNat < i.tick.toNat
  due.foldl loadPhase { s with fd := { s.fd with phases := s.fd.phases ++ later } }

/-- The item for wheel `w` at tick `t`: what it will hold there, with an increment or step that applies by then. -/
def phaseItem (s : State) (w : WheelIx) (t : W64) : PhaseItem :=
  let x := s.wheel[w]
  let c := s.tide w
  let y := match x.next with
    | some p => if t.toNat < p.tick.toNat then { x with acc := x.acc + x.inc * (t - s.tick) } else applied c x p s.tick t
    | none => { x with acc := x.acc + x.inc * (t - s.tick) }
  { wheel := w, acc := y.acc, inc := y.inc, hold := incHold c y, tick := t }

/-- R16: one PHASE frame for the next tick of the 1 ms grid. None during a handover, reset or halt (R425). -/
def execPhaseSend (s : State) : Host.Outcome State Fault Refusal :=
  .next (
    let ws := (List.finRange 4).filter fun w => started s.wheel[w]
    if !s.execRuns || ws.isEmpty then s else bwSend s (.phase (ws.map fun w => phaseItem s w (gridTick (s.tick + 1)))))

/-- R16: the field die accepts a PHASE frame. -/
def execPhaseFrame (h : BwHeader) (s : State) : Host.Outcome State Fault Refusal :=
  .next (fdTakeRetx s h tyPhase fun b s1 => match b with
    | .phase items => if s1.fd.safeHeld then s1 else takePhase s1 items
    | _ => s1)

end Sys2Proof.Machine
end

