-- ==== Sys2Proof/Machine/Breakwater.lean ====
section
/-!
DEFINITION. The frames and lanes of the Breakwater (01 R16–R22, 14 R385, 15 R430, R431) and the field die's own supply, reset and faults
(03 R60, R61, R75, R78–R85, R526; 07 R183).
-/
namespace Sys2Proof.Machine

/-! ## Field→logic frames -/

/-- R19, R20: a heartbeat. On the logic→field lane the field die checks it. -/
def execIdleFrame (lane : BwLane) (h : BwHeader) (s : State) : Host.Outcome State Fault Refusal :=
  .next (match lane with
    | .f2l0 => bwTakePlain s false h tyIdle id
    | .f2l1 => bwTakePlain s true h tyIdle id
    | .l2f => fdTakeIdle s h)

/-- The field die forms a STATUS frame: not while an EVENT frame is due, which goes ahead of it (R20). In slack hold the reports stay in
their buffer (R78). -/
def formStatus (s : State) (seq : Byte) (raw : W16) : State :=
  if !fdMaySend s seq || (!s.fd.slack && !s.fd.events.isEmpty) then s
  else fdSend { s with fd := { s.fd with status := if s.fd.slack then s.fd.status else [] } }
    (.status (if s.fd.slack then [] else s.fd.status)
      { refReady := s.fd.refReady, almsel := s.fd.almsel, raw := raw, heat := s.fd.ch.map (·.eEst) })

/-- The executive takes what a STATUS frame reports (R19). -/
def takeStatus (s : State) (told : List Report) (x : StatusNow) : State :=
  let ref := if told.contains .refReady && x.refReady then [] else [Report.refNow x.refReady]
  deliver s (.almsel x.almsel :: .heat x.heat :: ref ++ told ++ [.diRaw x.raw])

/-- R19, R80: a STATUS frame delivers what the field die reports of its latches, detectors and channels, REF_READY, ALMSEL as sampled, the DI
levels `raw` at its last tick, and the stored heat. -/
def execStatusFrame (h : BwHeader) (raw : W16) (s : State) : Host.Outcome State Fault Refusal :=
  .next (bwTakeRetx (formStatus s h.seq raw) h tyStatus fun b s => match b with
    | .status told x => takeStatus s told x
    | _ => s)

/-- The report is a last-gasp record (R526). -/
def isGasp : Report → Bool
  | .lastGasp _ _ => true
  | _ => false

/-- The report is the last-gasp record that the store holds. -/
def isStored (s : State) : Report → Bool
  | .lastGasp r _ => s.fd.retained = some r
  | _ => false

/-- A frame held by the field die's sender carries a last-gasp record. -/
def carriesGasp (x : FdTx) : Bool := match x.body with
  | .event rs => rs.any isGasp
  | _ => false

/-- The retained record, when the next EVENT frame is the one that carries it (R526). -/
def gaspDue (s : State) : List Report := match s.fd.retained with
  | some r => if s.fd.gasping || s.fd.unacked.any carriesGasp then [] else [.lastGasp r true]
  | none => []

/-- The events of one frame: a last-gasp record ends it, so that the record sent twice goes in two frames (Table 3-9). -/
def oneFrame : List Report → List Report × List Report
  | [] => ([], [])
  | r :: rs => if isGasp r then ([r], rs) else (r :: (oneFrame rs).1, (oneFrame rs).2)

/-- The field die forms an EVENT frame of its urgent events, a retained last-gasp record first (R20, R526); none when there is nothing to
send. In slack hold the events stay in their buffer (R78). -/
def formEvent (s : State) (seq : Byte) : State :=
  let x := if s.fd.slack then ([], s.fd.events) else oneFrame s.fd.events
  let rs := gaspDue s ++ x.1
  if !fdMaySend s seq || rs.isEmpty then s else fdSend { s with fd := { s.fd with events := x.2 } } (.event rs)

/-- R20, R526: an EVENT frame delivers the urgent events; the last-gasp record leaves its store once a frame that carries it is accepted. -/
def execEventFrame (h : BwHeader) (s : State) : Host.Outcome State Fault Refusal :=
  .next (bwTakeRetx (formEvent s h.seq) h tyEvent fun b s => match b with
    | .event rs => deliver { s with fd := { s.fd with retained := if rs.any (isStored s) then none else s.fd.retained } } rs
    | _ => s)

/-! ## Logic→field frames at the field die -/

/-- Actions carried out at one tick. -/
def actAll (s : State) (acts : List FieldAct) : State := acts.foldl fieldAct s

/-- The channel an action is for. -/
def actChan : FieldAct → Chan
  | .set n _ | .restart n | .safe n | .retire n | .unretire n | .clearOc n | .reinit n | .restate n | .dac n _ => n
  | .mapRole _ m | .unmapRole _ m => m

/-- Actions whose target tick has come. In slack hold, and under a fatal fault's safe states, a higher rank of R25 is present and they have
no effect. [log 16: DEDUCED, unsafe] -/
def actDue (s : State) (acts : List FieldAct) : State := if s.fd.slack || s.fd.fatal then s else actAll s acts

/-- R21: a COMMAND accepted for its target tick. One whose target tick has already passed takes effect at the first tick after its receipt
and is reported late; one whose target tick is the present one acts at it. [log 16: DEDUCED, unsafe] -/
def takeCommand (s : State) (acts : List FieldAct) (target : W64) : State :=
  if s.fd.safeHeld || !s.fdOn then s
  else if target = s.fd.tick then actDue s acts
  else
    let late := target.toNat < s.fd.tick.toNat
    let at' := if late then s.fd.tick + 1 else target
    let s1 := if late then acts.foldl (fun a x => reportStatus a (.late (actChan x))) s else s
    { s1 with fd := { s1.fd with cmds := s1.fd.cmds ++ acts.map fun a => ⟨a, at'⟩ } }

/-- [log 16: DEDUCED, unsafe] -/
def execCommandFrame (h : BwHeader) (s : State) : Host.Outcome State Fault Refusal :=
  .next (fdTakeRetx s h tyCommand fun b s1 => match b with
    | .command acts target => takeCommand s1 acts target
    | _ => s1)

/-- The earliest target tick among the waiting commands. -/
def leastTarget : List FdCmd → Option Nat
  | [] => none
  | c :: cs => match leastTarget cs with
    | some t => some (min c.target.toNat t)
    | none => some c.target.toNat

/-- R21: the earliest target tick arrives, and every command for it acts. [log 16: DEDUCED, unsafe] -/
def execCommandTargetTick (s : State) : Host.Outcome State Fault Refusal :=
  .next (match leastTarget s.fd.cmds with
    | none => s
    | some t =>
      let due := s.fd.cmds.filter fun c => c.target.toNat = t
      actDue { s with fd := { s.fd with cmds := s.fd.cmds.filter fun c => c.target.toNat ≠ t } } (due.map (·.act)))

/-- R430: the opening frame of a microcode load puts a configured field die into reload hold; its window runs from here unless a hold is
already in force. -/
def openReload (s : State) : State :=
  if !s.fdOn then { s with fd := { s.fd with ucode := none } }
  else
    let s1 := if s.fd.slack then s else { s with fd := { s.fd with
      slack := true, overwritten := 0, slackEnd := s.fd.tick + BitVec.ofNat 64 (msTicks s.fd.slackMs.toNat) } }
    { s1 with fd := { s1.fd with reloadHold := true, ucode := none, ch := s1.fd.ch.map fun c => { c with dither := false } } }

/-- The field die configured afresh: a hold ends without change of its outputs, and it takes the logic die's tick count. -/
def configureFresh (s : State) (g : Generation) (fresh : Bool) : State :=
  let s1 := startScan (leaveSlack s) (scanMask g)
  configureDie { s1 with ch := s1.ch.map fun c => { c with replacing := false, restarting := false }
                         fd := { s1.fd with slack := false, expired := false, fromSafe := false, tick := s.tick, cmds := [] } } g fresh

/-- The channels whose changeover waits at the field die (R287). -/
def changeoverWaits (s : State) : Vector Bool 16 := s.fd.ch.map fun c => c.oldChar.isSome

/-- The acceptance of a configuration reported. -/
def noteConfigured (s : State) : State := reportStatus s (.configured (changeoverWaits s))

/-- What a LOAD frame does at the field die (R60, R61, R62 steps 6 and 9, R430, R431). [log 111: DEDUCED, unsafe] -/
def takeLoad (s : State) (b : L2F) : State :=
  match b with
  | .loadOpen => openReload s
  | .loadClose v crc => { s with fd := { s.fd with ucode := some (v, crc) } }
  | .configure g fresh =>
    if s.fd.ident.isNone || s.fd.slack then noteConfigured (resetAllPaths (configureFresh s g fresh))
    else setScan (noteConfigured (configureDie s g fresh)) (scanMask g) (ebbBand s.fd.band)
  | .identity seq crc =>
    if !s.fd.expired && s.fd.ident = some (seq, crc) then (if s.fd.slack then resetAllPaths (leaveSlack s) else s) else s
  | .refOn => { s with fd := { s.fd with refOn := true } }
  | _ => s

/-- R385, R431: a LOAD frame accepted; after a SAFE frame only a field reset acts. -/
def execLoadFrame (h : BwHeader) (s : State) : Host.Outcome State Fault Refusal :=
  .next (fdTakeRetx s h tyLoad fun b s1 => match b with
    | .fieldReset => fieldGone (fieldReset s1)
    | .command _ _ | .phase _ | .safe _ _ _ => s1
    | _ => if s1.fd.safeHeld then s1 else takeLoad s1 b)

/-- R385: a SAFE frame accepted: safe states at once, waiting commands discarded, the wheels on at INC_HOLD, and nothing further acted on. -/
def execSafeFrame (h : BwHeader) (s : State) : Host.Outcome State Fault Refusal :=
  .next (fdTakeRetx s h tySafe fun b s1 => match b with
    | .safe _ _ _ =>
      let s2 := { s1 with fd := { s1.fd with safeHeld := true, cmds := [], phases := [], inc := s1.fd.incHold } }
      if s2.fdOn then applySafeAll s2 else s2
    | _ => s1)

/-- R21: the oldest frame of a sender waited 20 µs, so it and every later one go again with RETX, the present ACK and the present flags. -/
def execBwRetransmit (fieldDie : Bool) (s : State) : Host.Outcome State Fault Refusal :=
  .next (if fieldDie then
      (if !s.fd.alive then s
       else { s with fd := { s.fd with unacked := s.fd.unacked.map fun x =>
        { x with flags := bwFlags true false (s.fd.band = 1 || s.fd.band = 2), ack := s.fd.rxNext - 1, sent := s.fd.tick } } })
    else if !s.txRuns then s
    else { s with bw := { s.bw with unacked := s.bw.unacked.map fun x =>
      { x with flags := bwFlags true s.recov.handover.isSome s.bw.ebb, ack := s.bw.rxNext - 1, sent := s.tick } } })

/-! ## Lanes -/

/-- R22: the field die loses the logic→field lane and enters slack hold. [log 18: DEDUCED, unsafe] -/
def execL2fLaneLost (s : State) : Host.Outcome State Fault Refusal :=
  .next (if !s.fd.alive || !s.fd.l2fUp then s else l2fLost s)

/-- R22, Table 1-5: the logic die loses a field→logic lane and retrains it. [log 18: DEDUCED, unsafe] -/
def execF2lLaneLost (lane1 : Bool) (s : State) : Host.Outcome State Fault Refusal :=
  .next (if !(if lane1 then s.bw.f2l1Up else s.bw.f2l0Up) then s else f2lLost s lane1)


/-- The outputs of a field die configured afresh outside a start return at one common tick, which in RUN and REDUCED follows the next complete
rule cycle (R525). -/
def afterFresh (s : State) : State :=
  let s1 := { s with ch := s.ch.map fun c => { c with restarting := false } }
  if s.m.mode = .run || s.m.mode = .reduced then { s1 with m := { s1.m with afresh := true } } else commandAll s1

/-- The field die is configured afresh outside a start with LOAD frames (R525). -/
def freshen (s : State) (g : Generation) : State := afterFresh (bwSend (dropHeldCommands s) (.configure g false))

/-- An executive in service whose lanes come up again offers the generation's identity to a field die in slack hold (R80), and configures
afresh one whose window has ended or that holds another identity (R402, R525). -/
def offerIdentity (s : State) : State :=
  match s.boot.gen with
  | some g =>
    if s.m.mode = .load || !s.execRuns || (s.recov.jobs.any fun j => j.func = 0x1D) then s
    else if s.fd.ident = some (g.seq, g.hdrCrc) && !s.fd.expired then
      (if s.fd.slack then bwSend s (.identity g.seq g.hdrCrc) else s)
    else freshen s g
  | none => s

/-- Step 4 of R62 once the field die answers: REF_ON is sent. -/
def sendRefOn (s : State) : State :=
  if s.m.mode = .load && s.m.refOnTries = 0 && s.bw.allUp then
    let s1 := bwSend { s with m := { s.m with refOnTries := 1, wait := if s.m.wait = .fieldDie then .none else s.m.wait,
                                              step := if s.m.step ≠ 3 then s.m.step else if s.m.run = .running then 5 else 4 } } .refOn
    s1
  else s

/-- R19: a lane completes training. Not without power and clocks on both dies. -/
def execBreakwaterTrained (lane : BwLane) (s : State) : Host.Outcome State Fault Refusal :=
  .next (
    let up := match lane with | .f2l0 => s.bw.f2l0Up | .f2l1 => s.bw.f2l1Up | .l2f => s.fd.l2fUp
    if up || !s.fd.alive || s.m.run = .held || s.m.run = .clockReset || s.m.step.toNat < 3 then s
    else
      let s1 := laneUp s lane
      let s2 := if s1.bw.absent && s1.bw.allUp then deliver { s1 with bw := { s1.bw with absent := false } } [.supply s1.fd.band] else s1
      let s3 := if s2.bw.allUp then { s2 with recov := { s2.recov with lanesUpSince := some s2.tick }, bw := { s2.bw with gasped := false } } else s2
      let s3 := if lane = .f2l0 then resetAllPaths s3 else s3
      let s4 := bwRefill (leaveDefault s (refreshServed s3)) 16
      if s4.bw.allUp then offerIdentity (sendRefOn s4) else s4)

/-! ## Field supply and reset -/

/-- R61: the field die comes out of reset, samples ALMSEL and enables its reference. VFLD at the release threshold lies below the turn-on
refusal threshold. [log 134: DEDUCED, unsafe] -/
def execFieldResetRelease (almsel : Bool) (s : State) : Host.Outcome State Fault Refusal :=
  .next (if s.fd.alive then s
    else
      let fresh : FieldDie := {}
      { s with fd := { fresh with alive := true, refOn := true, almsel := almsel, band := 2, gaspNumber := s.fd.gaspNumber, retained := s.fd.retained,
                                  ch := fresh.ch.map defaultChan } })

/-- R61: 2 ms after its enabling the reference is ready. -/
def execRefReady (s : State) : Host.Outcome State Fault Refusal :=
  .next (if s.fd.alive && s.fd.refOn && !s.fd.refReady then reportStatus { s with fd := { s.fd with refReady := true } } .refReady else s)

/-- R65: REF_READY is not set 10 ms after REF_ON. Three attempts; then the device stays in LOAD. -/
def execRefOnRetry (s : State) : Host.Outcome State Fault Refusal :=
  .next (if s.m.run ≠ .running || s.m.mode ≠ .load || s.m.step ≠ 5 || s.conv.refReady || s.m.refOnTries = 0 || 3 < s.m.refOnTries then s
    else
      let s1 := { s with m := { s.m with refOnTries := s.m.refOnTries + 1, wait := .reference } }
      if s.m.refOnTries < 3 then bwSend s1 .refOn else raise s1 srcRefFault (refstatWord s1.conv))

/-- R82, R83: a filtered crossing changes the band. In ebb mode sounding is suspended. [log 137: DESIGN CHOICE, safe] -/
def execFieldSupplyBandChange (band : BitVec 2) (s : State) : Host.Outcome State Fault Refusal :=
  .next (if !s.fd.alive || s.fd.gasping || band = s.fd.band || band = 3 then s
    else
      let s1 := { s with fd := { s.fd with band := band, ch := if band = 0 then s.fd.ch else s.fd.ch.map fun c => { c with dither := false } } }
      reportStatus (setScan s1 (scanTarget s1).1 (ebbBand band)) (.supply band))

/-- Order 1 of Table 3-9 for one channel: sounding stops, and an AO regulator goes to 0 mA. -/
def gaspAo (c : FdChan) : FdChan :=
  let d := { c with dither := false }
  if isAO (fdKind c) then { d with on := false, dac := 0 } else d

/-- Order 2 of Table 3-9 for one channel: a DO is switched off. -/
def gaspDo (s : State) (n : Chan) : State := if fdKind (s.fdc n) = kindDO && (s.fdc n).on then turnOff s n else s

/-- R84, R526: the last-gasp in the order of Table 3-9, with the VFLD and VHOLD codes converted at it. Sounding and conversions stop, the AO
regulators go to 0 mA, the DO channels go off in ascending order, and the record is sent twice and retained. -/
def execLastGasp (vfld vhold : W16) (s : State) : Host.Outcome State Fault Refusal :=
  .next (if !s.fd.alive || s.fd.gasping then s
    else
      let r : GaspRecord := { number := s.fd.gaspNumber + 1, cause := .fieldReset, vfld := vfld, vhold := vhold,
                              on := s.fd.ch.map fun c => (gaspAo c).on }
      let s1 := { s with fd := { s.fd with gasping := true, gaspNumber := r.number, retained := some r, ch := s.fd.ch.map gaspAo } }
      let s2 := (List.finRange 16).foldl gaspDo s1
      report (report s2 (.lastGasp r false)) (.lastGasp r false))

/-- R84, R60: at the end of the last-gasp the field die resets. Its retention store survives. -/
def execFieldDieReset (s : State) : Host.Outcome State Fault Refusal :=
  .next (if !s.fd.gasping then s
    else
      let fresh : FieldDie := {}
      fieldGone { s with fd := { fresh with gaspNumber := s.fd.gaspNumber, retained := s.fd.retained, ch := fresh.ch.map defaultChan } })

/-- R526: VFLD and VHOLD both fell below 8.0 V: the record is lost. [log 134: DEDUCED, unsafe] -/
def execRetentionStoreLoss (s : State) : Host.Outcome State Fault Refusal :=
  .next { s with fd := { s.fd with retained := none } }

/-- R183: a filtered crossing of VLOOP. [log 137: DESIGN CHOICE, safe] -/
def execVloopLow (falling : Bool) (s : State) : Host.Outcome State Fault Refusal := .next (reportStatus s (.vloop falling))

/-- R75: a fatal fault. A first microcode RAM error is reported and leads to a reload; the table faults switch every channel off, the
others apply the safe-state table. [log 103: DEDUCED, unsafe] -/
def execFieldDieFaultDetected (f : FieldFault) (s : State) : Host.Outcome State Fault Refusal :=
  .next (if !s.fd.alive then s
    else if f = .microcodeRam && !s.bw.ramOnce then reportStatus s .microRam
    else
      let s1 := { s with fd := { s.fd with fatal := true, tableBad := s.fd.tableBad || f = .tableCheck } }
      reportStatus (if s1.fdOn then applySafeAll s1 else s1) (.fatal (f = .tableCheck)))

end Sys2Proof.Machine
end

