-- ==== Sys2Proof/Machine/FieldEvents.lean ====
section
/-!
DEFINITION. The meanings of the field channels' events (04 R92–R105): digital inputs, the sense terminal, pairs, input loops, wrong wiring,
reverse and backfeed. Each acts at the field die, which reports what it detects. An event that finds its condition absent changes nothing.
-/
namespace Sys2Proof.Machine

/-- An event of the field die on a channel for which `c` holds. [log 1: DESIGN CHOICE, unsafe; log 13: DEDUCED, safe] -/
def onField (s : State) (n : Chan) (c : FdChan → Bool) (f : State → State) : State := if s.fdOn && c (s.fdc n) then f s else s

/-- A condition bit of channel `n` that takes the value `b`: stored and reported when it changes. -/
def condBit (s : State) (n : Chan) (old b : Bool) (f : FdChan → FdChan) (r : Report) : State :=
  if old = b then s else report (s.modFd n f) r

/-- The loop kinds a MISWIRE or REVERSE threshold exists for (Table 4-4). -/
def hasThreshold (c : FdChan) (rev : Bool) : Bool :=
  let k := fdKind c
  k = kindAII || isAO k || (k = kindAIV && cfgRange c.cfg = 0) || (rev && k = kindDI)

/-- A switch of kind 1 or 7. -/
def isSwitch (c : FdChan) : Bool := fdKind c = kindDO || fdKind c = kindPair

/-- R98: the debounced level of a DI. -/
def execDiStateChange (n : Chan) (level : Bool) (s : State) : Host.Outcome State Fault Refusal :=
  .next (onField s n (fun c => fdKind c = kindDI) fun s =>
    condBit s n (s.fdc n).diLevel level (fun c => { c with diLevel := level }) (.di n level s.fd.tick))

/-- R97: the class of a DI; a wire break is classified only with WB_EN set, and is OFF otherwise. [log 37: DEDUCED, unsafe] -/
def execDiClassChange (n : Chan) (k : DiClass) (s : State) : Host.Outcome State Fault Refusal :=
  .next (onField s n (fun c => fdKind c = kindDI && k ≠ .notDi) fun s =>
    let k := if k = .wireBreak && !diWbEn (s.fdc n).cfg then .off else k
    if (s.fdc n).diClass = k then s else report (s.modFd n fun c => { c with diClass := k }) (.diClass n k))

/-- R92: SENSE_DIFF, with FSN_EN set. A generation that clears FSN_EN ends the comparison and leaves the bit as it stands until a start, a
REINIT or a change of kind. [log 144: DEDUCED, unsafe] -/
def execSenseDiff (n : Chan) (above : Bool) (s : State) : Host.Outcome State Fault Refusal :=
  .next (onField s n (fun c => cfgFsnEn c.cfg) fun s =>
    condBit s n (s.fdc n).senseDiff above (fun c => { c with senseDiff := above }) (.senseDiff n above))

/-- R94: PAIR_IMBAL of a pair master with IMB_EN set; it sets only while the pair is on, and clears whatever the record says. -/
def execPairImbal (n : Chan) (present : Bool) (s : State) : Host.Outcome State Fault Refusal :=
  .next (onField s n (fun c => !present || (s.fdMaster n && cfgImbEn c.cfg && c.on)) fun s =>
    condBit s n (s.fdc n).imbal present (fun c => { c with imbal := present }) (.pairImbal n present))

/-- R99: the path limit of an AI-I. WIRE.SHORT stays set while the switch stands open between probes. -/
def execPathLimit (n : Chan) (entered : Bool) (s : State) : Host.Outcome State Fault Refusal :=
  .next (onField s n (fun c => fdKind c = kindAII && !c.shortOpen) fun s =>
    condBit s n (s.fdc n).inLimitPath entered (fun c => { c with inLimitPath := entered }) (.short n entered))

/-- R99: with SHORT_OFF, the blocking switch opens. -/
def execShortSwitchOff (n : Chan) (s : State) : Host.Outcome State Fault Refusal :=
  .next (onField s n (fun c => fdKind c = kindAII && aiShortOff c.cfg && c.inLimitPath && !c.shortOpen) fun s =>
    drive (report (s.modFd n fun c => { c with shortOpen := true, blockOpen := true }) (.block n true)) n)

/-- R99: the end of a probe; the first one out of limit leaves the switch closed and clears WIRE.SHORT. -/
def execShortProbe (n : Chan) (inLimit : Bool) (s : State) : Host.Outcome State Fault Refusal :=
  .next (onField s n (fun c => c.shortOpen && !inLimit) fun s =>
    let s1 := s.modFd n fun c => reclose { c with shortOpen := false, inLimitPath := false }
    drive (report (report s1 (.short n false)) (.block n (s1.fdc n).blockOpen)) n)

/-- R99: the open-loop condition of an AI-I in range 0 with OPEN_EN; it clears whatever the record says. -/
def execOpenLoop (n : Chan) (present : Bool) (s : State) : Host.Outcome State Fault Refusal :=
  .next (onField s n (fun c => !present || (fdKind c = kindAII && cfgRange c.cfg = 0 && aiOpenEn c.cfg)) fun s =>
    condBit s n (s.fdc n).openLoop present (fun c => { c with openLoop := present }) (.openLoop n present))

/-- R103 step 1: blocking switches open, regulator, source or sink off. -/
def execWiringCrossing (n : Chan) (rev : Bool) (s : State) : Host.Outcome State Fault Refusal :=
  .next (onField s n (fun c => hasThreshold c rev && c.crossed.isNone && !(if rev then c.reverse else c.miswire)) fun s =>
    drive (report (s.modFd n fun c => { c with crossed := some rev, crossTick := s.fd.tick, blockOpen := true }) (.block n true)) n)

/-- R103 step 2 and R104: the condition is declared; the third declaration within any 60 s isolates the channel. [log 2: DESIGN CHOICE, safe] -/
def execWiringDeclare (n : Chan) (s : State) : Host.Outcome State Fault Refusal :=
  .next (onField s n (fun c => c.crossed.isSome) fun s =>
    let rev := (s.fdc n).crossed.getD false
    let ticks := (s.fd.tick :: (s.fdc n).declTicks).filter fun t => (s.fd.tick - t).toNat < secTicks 60
    let held := (s.fdc n).isolated || 3 ≤ ticks.length
    report (s.modFd n fun c =>
      { c with crossed := none, miswire := c.miswire || !rev, reverse := c.reverse || rev, declTicks := ticks.take 3, isolated := held })
      (.wiring n rev true held))

/-- R103 step 3: a transient ends and the switches reclose. -/
def execWiringTransientEnd (n : Chan) (s : State) : Host.Outcome State Fault Refusal :=
  .next (onField s n (fun c => c.crossed.isSome) fun s =>
    let s1 := s.modFd n fun c => reclose { c with crossed := none, lastTransient := some (c.crossTick, s.fd.tick) }
    drive (report (report s1 (.transient n)) (.block n (s1.fdc n).blockOpen)) n)

/-- R104: a declared condition clears; an isolated channel stays so. -/
def execWiringClear (n : Chan) (s : State) : Host.Outcome State Fault Refusal :=
  .next (onField s n (fun c => c.miswire || c.reverse) fun s =>
    let old := s.fdc n
    let s1 := s.modFd n fun c => reclose { c with miswire := false, reverse := false }
    let s2 := if old.miswire then report s1 (.wiring n false false old.isolated) else s1
    let s3 := if old.reverse then report s2 (.wiring n true false old.isolated) else s2
    drive (report s3 (.block n (s3.fdc n).blockOpen)) n)

/-- R105: REVERSE on a DO whose switch is off and in no clamp event. -/
def execDoReverse (n : Chan) (present : Bool) (s : State) : Host.Outcome State Fault Refusal :=
  .next (onField s n (fun c => isSwitch c && (!present || (!c.on && !c.clampEvent))) fun s =>
    condBit s n (s.fdc n).doReverse present (fun c => { c with doReverse := present }) (.doReverse (s.unit n) present))

/-- R105: BACKFEED on a DO: turn-ons refused while it lasts; with the switch on, an overcurrent trip. -/
def execBackfeed (n : Chan) (present : Bool) (ma : W16) (tj : Byte) (s : State) : Host.Outcome State Fault Refusal :=
  .next (onField s n isSwitch fun s =>
    let was := (s.fdc n).on || cooledNow s (s.unit n)
    let s1 := condBit s n (s.fdc n).backfeed present (fun c => { c with backfeed := present }) (.backfeed (s.unit n) present (present && !was))
    if present && was then fdTrip s1 n 2 false ma tj else s1)

end Sys2Proof.Machine
end

