-- ==== Sys2Proof/Machine/Protect.lean ====
section
/-!
DEFINITION. The meanings of protected switching (06 R147–R167, 09 R260–R262): trips, clamp events, thermal limits, retries and the governor.
-/
namespace Sys2Proof.Machine

/-- R147: a hard short turns the switch off and latches, also at the tick at which a cooling latch has turned it off (R162).
[log 2: DESIGN CHOICE, safe] -/
def execHardShort (n : Chan) (ma : W16) (tj : Byte) (s : State) : Host.Outcome State Fault Refusal :=
  .next (onField s n (fun c => isSwitch c && (c.on || cooledNow s (s.unit n))) fun s => fdTrip s n 1 false ma tj)

/-- R149: the steady trip, after the flood window. -/
def execSteadyTrip (n : Chan) (ma : W16) (tj : Byte) (s : State) : Host.Outcome State Fault Refusal :=
  .next (onField s n (fun c => isSwitch c && (c.on || cooledNow s (s.unit n)) && !c.flood) fun s => fdTrip s n 0 false ma tj)

/-- R149: the flood window ends; `limited` says that the flood limit regulated in it. -/
def execFloodWindowEnd (n : Chan) (limited : Bool) (s : State) : Host.Outcome State Fault Refusal :=
  .next (onField s n (fun c => isSwitch c && c.on && c.flood) fun s =>
    report (modHalves s n fun c => { c with flood := false, floodLimited := limited }) (.flood (s.unit n) false limited))

/-- R151: a clamp event begins with its allowance fixed from Tj in m°C (R152, R261). -/
def execClampEventStart (n : Chan) (tj : W32) (s : State) : Host.Outcome State Fault Refusal :=
  .next (onField s n (fun c => isSwitch c && !c.on && !c.clampEvent) fun s =>
    let lim := protClampMj (s.fdc (s.unit n)).cfg
    s.modFd n fun c => { c with clampEvent := true, e := 0, eAllow := clampAllow tj.toInt lim })

/-- Raw period in force in 100 ns: 2N, or 16N in ebb mode, with N channels in the scan mask (R260). -/
def rawPeriod (s : State) : Nat :=
  let k := ((List.range 16).filter (bitAt s.conv.mask)).length
  if s.conv.ebbRate then 16 * k else 2 * k

/-- The event's accumulation with further raw samples (current, voltage and VFLD codes), R260. -/
def clampSum (s : State) (n : Chan) (samples : List (W32 × W32 × W32)) : Nat :=
  min (2 ^ 56 - 1) ((s.fdc n).e + clampAcc (trimRec s.otpAt n) (rawPeriod s) samples)

/-- Energy shown in 10 µJ (Table 6-12), with a saturated accumulation as 0xFFFF. -/
def energyWord (acc : Nat) : W16 := if acc = 2 ^ 56 - 1 then 0xFFFF else satNat 16 (divRound acc (10 ^ 7)).toNat

/-- R151: the event ends; its energy is added to the stored heat, and a turn-on held by it is carried out or refused (Table 6-5). [log 56: DEDUCED, unsafe] -/
def execClampEventEnd (n : Chan) (samples : List (W32 × W32 × W32)) (s : State) : Host.Outcome State Fault Refusal :=
  .next (onField s n (fun c => c.clampEvent) fun s =>
    let acc := clampSum s n samples
    let s1 := s.modFd n fun c =>
      { c with clampEvent := false, e := 0, eEst := c.eEst + (divRound (256 * acc) (10 ^ 7)).toNat }
    let c := s1.fdc n
    let s2 := reportStatus s1 (.clampEnd n (energyWord acc) c.eEst (satNat 16 c.eAllow))
    if (s2.fdc (s.unit n)).onHeld then drive (modHalves s2 n fun c => { c with onHeld := false }) n else s2)

/-- A cooling latch set by half `n`: both halves latch at one tick (R93), reported once, with the trip of that tick when there is one (R162). -/
def coolSet (s : State) (n : Chan) (bit : Fin 10) (tj : Byte) : State :=
  let u := s.unit n
  let held := (s.halves n).any fun k => coolBit (s.fdc k) bit
  let s1 := modHalves s n fun c => withCool c bit true
  if held then s1
  else if s1.fd.events.any (tripAt u s1.fd.tick) then
    { s1 with fd := { s1.fd with events := s1.fd.events.map (withCooling u s1.fd.tick bit) } }
  else report s1 (.cooling u bit true tj s1.fd.tick)

/-- R261: the stored heat tested at a tick of the 10 µs grid. -/
def execClampEnergyTest (n : Chan) (samples : List (W32 × W32 × W32)) (s : State) : Host.Outcome State Fault Refusal :=
  .next (onField s n isSwitch fun s =>
    let s1 := if (s.fdc n).clampEvent then s.modFd n fun c => { c with e := clampSum s n samples } else s
    let c := s1.fdc n
    if clampOver c.e c.eEst c.eAllow && !c.clampLatch then coolSet s1 n 4 0 else s1)

/-- A cooling latch of half `n` released; the unit's bit clears when no half holds it. -/
def coolRelease (s : State) (n : Chan) (bit : Fin 10) : State :=
  let s1 := s.modFd n fun c => withCool c bit false
  if (s1.halves n).any fun k => coolBit (s1.fdc k) bit then s1 else report s1 (.cooling (s.unit n) bit false 0 s.fd.tick)

/-- R261: the decay of the stored heat every 1 ms outside events, with the latch's release. It runs on a powered die in every state. [log 56: DEDUCED, unsafe] -/
def execClampDecayStep (n : Chan) (s : State) : Host.Outcome State Fault Refusal :=
  .next (if !s.fd.alive || (s.fdc n).clampEvent then s
    else
      let s1 := s.modFd n fun c => { c with eEst := c.eEst - (c.eEst + 127) / 128 }
      let c := s1.fdc n
      if c.clampLatch && 2 * c.eEst ≤ 256 * c.eAllow then coolRelease s1 n 4 else s1)

/-- TJ_TRIP: °C plus 40 (Table 6-13), from m°C. -/
def tjCode (tj : Int) : Byte := BitVec.ofInt 8 (clampInt 0 255 (divRound tj 1000 + 40))

/-- R153: the junction compared with its two limits, in m°C; a latch that sets in a flood window with the current in regulation trips the
switch as R150 states. -/
def execThermalCompare (n : Chan) (tj tcase : W32) (inRegulation : Bool) (ma : W16) (s : State) : Host.Outcome State Fault Refusal :=
  .next (onField s n (fun c => isSwitch c || c.thDt || c.thAbs) fun s =>
    let t := tj.toInt
    let lim := tcase.toInt + 1000 * protDtLim (s.fdc (s.unit n)).cfg
    let c := s.fdc n
    let setDt := isSwitch c && !c.thDt && t > lim
    let setAbs := isSwitch c && !c.thAbs && t > 170000
    let was := (s.fdc (s.unit n)).on
    let r150 := was && (s.fdc (s.unit n)).flood && inRegulation
    let s1 := if c.thDt && t ≤ lim - 15000 then coolRelease s n 5 else s
    let s2 := if c.thAbs && t ≤ 155000 then coolRelease s1 n 6 else s1
    if !setDt && !setAbs then s2
    else
      let s2 := if r150 then modHalves s2 n fun c => { c with floodLimited := true } else s2
      let s3 := if was then turnOff s2 n else s2
      let s4 := if setDt then coolSet s3 n 5 (tjCode t) else s3
      let s5 := if setAbs then coolSet s4 n 6 (tjCode t) else s4
      if r150 then fdTrip s5 n 0 true ma (tjCode t) else s5)

/-- R158: the back-off ends and PSTATE is PERMIT. A restart issued in advance (R157, R21) is under way; one whose other conditions hold only now
follows at the lead of R21. [log 2: DESIGN CHOICE, safe; log 53: DEDUCED, unsafe] -/
def execBackoffExpiry (n : Chan) (s : State) : Host.Outcome State Fault Refusal :=
  .next (if s.execRuns && s.ch[n].prot.pstate = .backoff && s.ch[n].prot.expiry.toNat ≤ s.tick.toNat then
      tryRestartNow (s.modCh n fun c => { c with prot := { c.prot with pstate := .permit } }) n
    else s)

/-- R156: a token is refilled and the timer restarts; not while the executive is absent. A token added already for a trip of this rule cycle is not
added again. -/
def execTokenRefill (n : Chan) (s : State) : Host.Outcome State Fault Refusal :=
  .next (if s.m.run = .running && (s.ch[n].prot.tokens ≠ 15 || s.ch[n].prot.refilled) && secTicks 60 ≤ s.ch[n].prot.refill then
      s.modCh n fun c =>
        { c with prot := { c.prot with tokens := if c.prot.refilled then c.prot.tokens else c.prot.tokens + 1, refill := 0, refilled := false } }
    else s)

/-- R156: the quiet reset of RETRY_N. It is not made with a trip on its tick: one already taken has set the on-time back, one still to be reported
stands among the field die's events. -/
def execQuietReset (n : Chan) (s : State) : Host.Outcome State Fault Refusal :=
  .next (if s.m.run = .running && !s.ch[n].retired && secTicks (retryQuietS (s.crec n)) ≤ s.ch[n].prot.onTime
      && !s.fd.events.any (tripAt n s.tick) then s.modCh n fun c => { c with prot := { c.prot with retryN := 0 } } else s)

/-! ## The governor -/

/-- A refused demand of channel `n` re-evaluated: a lit command's restart, or the demand itself (R165, R166). In SAFE, where the safe states
stand, only a restart is (R72). One refused again refuses every later demand of the rule cycle. -/
def retryDemand (s : State) (n : Chan) : State :=
  match s.ch[n].refused with
  | none => s
  | some v =>
    let t := roleChan s n
    if s.ch[n].kind = kindDO then
      if s.ch[t].cmd ≠ .dark then tryRestartNow s t
      else if !acting s then s
      else if admits s (doIncrease s t) s.ch[n].shed then showCommand (demandDO s n v) n v false
      else { s with gov := { s.gov with cycleRefused := true } }
    else if actsAO s n then demandAO s n v
    else s

/-- A refused alarm raise of channel `n` re-evaluated (R165, R176). -/
def retryAlarm (s : State) (n : Chan) : State :=
  match s.loop[n].alarmRef with
  | some sel => if actsAO s n then demandAlarm s n sel else s
  | none => s

/-- Refused demands of channel `n` re-evaluated. -/
def retryChan (s : State) (n : Chan) : State := retryAlarm (retryDemand s n) n

/-- A shed channel re-admitted when it fits (R166), whatever became of other demands of the rule cycle. [log 54: DEDUCED, unsafe] -/
def readmit (s : State) (n : Chan) : State :=
  if s.ch[n].shed then
    let s1 := retryChan { s with gov := { s.gov with cycleRefused := false } } n
    { s1 with gov := { s1.gov with cycleRefused := s.gov.cycleRefused } }
  else s

/-- R163: P_EST every 10 ms; OVER clears at 95 % with SHED clear and at the budget with it set, and shed channels that fit are re-admitted
(R166). -/
def execGovernorUpdate (s : State) : Host.Outcome State Fault Refusal :=
  .next (if !s.execRuns then s
    else
      let s1 := govUpdate s
      let lim : Int := if s.device.shed then budgetUw s else 95 * budgetUw s / 100
      let s2 := if s1.gov.overSum && govSum s1 ≤ lim then { s1 with gov := { s1.gov with overSum := false } } else s1
      (List.finRange 16).foldl readmit s2)

/-- R166: P_EST has exceeded the budget for 1 s. -/
def execGovernorOver (s : State) : Host.Outcome State Fault Refusal :=
  .next (if s.execRuns && govSum s > budgetUw s && !s.gov.overSum then raisePower { s with gov := { s.gov with overSum := true } } none else s)

/-- R165: refused demands re-evaluated every 100 ms, lowest channel first, until one is refused. -/
def execGovernorReevaluate (s : State) : Host.Outcome State Fault Refusal :=
  .next (if s.execRuns then (List.finRange 16).foldl retryChan s else s)

/-- R166: with SHED set, the highest lit channel with SHED_OK is switched off, while over budget; in SAFE and STOP the safe states, which rank
above a command, stand (R25). [log 54: DEDUCED, unsafe] -/
def execGovernorShed (s : State) : Host.Outcome State Fault Refusal :=
  .next (if !s.execRuns || !acting s || !s.gov.overSum || !s.device.shed || govSum s ≤ budgetUw s then s
    else match (List.finRange 16).reverse.find? fun n =>
        s.ch[n].kind = kindDO && retryShedOk (s.crec n) && s.ch[n].p.cmdLit && !s.ch[n].retired && s.ch[n].refused.isNone with
      | none => s
      | some n =>
        let owner := s.ch[n].roleOf.getD n
        let s1 := s.modCh owner fun c =>
          { c with refused := some c.cmdWord, shed := true,
                   prot := let p := setProt (setProt c.prot pGovRef true) pShed true; { p with cntGov := satInc p.cntGov } }
        let s2 := (setCmd s1 n .dark).modCh n fun c => { c with prot := { c.prot with cntShed := satInc c.prot.cntShed } }
        let s3 := showCommand s2 owner (codeThree s2.ch[owner].cmdWord) true
        command (raisePower s3 (some owner)) [.set n .dark])

end Sys2Proof.Machine
end

