-- ==== Sys2Proof/Machine/Prove.lean ====
section
/-!
DEFINITION. The meanings of lamp proving (05 R126–R141): window comparators, dither and the string estimate, off-state pulses, the phantom
detector, path checks and the ageing of evidence.
-/
namespace Sys2Proof.Machine

/-- Sounding and pulses run: neither ebb mode nor slack hold (R141), nor STOP (R76), nor a last-gasp (R84). R78 has off-state sounding go on in slack hold, where R141
says that no pulse is applied; R141 is followed. [log 148: DEDUCED, unsafe] -/
def sounding (s : State) : Bool := s.fd.band ≠ 1 && s.fd.band ≠ 2 && !s.fd.slack && !s.fd.gasping && s.m.mode ≠ .stop

/-- A proven DO at the field die. -/
def proven (c : FdChan) : Bool := fdKind c = kindDO && pProveEn c.cfg

/-- An event of proving, which stops in STOP (R76). -/
def onProve (s : State) (n : Chan) (c : FdChan → Bool) (f : State → State) : State :=
  onField s n (fun x => s.m.mode ≠ .stop && c x) f

/-- The window state a new value gives: with LOW 0 there is no partial threshold (Table 5-4). -/
def windowOf (r : ChanRecord) (w : Win) : Win := if w = .belowLow && pLow r = 0 then .pass else w

/-- R126, R127: once armed, the window state changes to a value held for OPEN_FILT; `held` counts ticks. -/
def execWindowDeclare (n : Chan) (w : Win) (held : Nat) (s : State) : Host.Outcome State Fault Refusal :=
  .next (onProve s n (fun c => proven c && c.on && !c.flood && w ≠ .notArmed && 100 * pOpenFilt c.cfg ≤ held) fun s =>
    let w := windowOf (s.fdc n).cfg w
    if (s.fdc n).win = w then s else report (s.modFd n fun c => { c with win := w }) (.window n w))

/-- The low half's regulated current for I_ref `i`, in 10 nA (R128). -/
def withRef (c : FdChan) (i : Nat) : FdChan := { c with iRef := i, iLow := (divRound (i * (100 - pDither c.cfg)) 100).toNat }

/-- R128: dither starts on a lit, switched-on lamp with SND_EN, its low half regulated at I_ref × (1 − DITHER / 100); the first I_ref is the
mean current `iRef` before it, in 10 nA. -/
def execDitherStart (n : Chan) (iRef : W32) (s : State) : Host.Outcome State Fault Refusal :=
  .next (onProve s n (fun c => proven c && pSndEn c.cfg && c.on && !c.flood && c.win ≠ .notArmed && commandedLit c && sounding s) fun s =>
    modHalves s n fun c => withRef { c with dither := true, ditherFrom := s.fd.tick, ditherNext := s.fd.tick } iRef.toNat)

/-! ## The correlator (R129, R131) -/

/-- The samples of a half of `len` ticks from tick `t0`, without those of its first eighth of the period. -/
def halfSamples (l : List DitherSample) (t0 : W64) (len eighth : Nat) : List DitherSample :=
  l.filter fun x => eighth ≤ (x.tick - t0).toNat && (x.tick - t0).toNat < len

/-- A cycle that begins at `t0` is accepted (R129). An edge of the switch and a protection event end the dither, so that no cycle that has run to
its end holds one. -/
def cycleAccepted (d : FdChan) (t0 : W64) (c : DitherCycle) : Bool := !checkedIn d false t0 (cycleLen d.cfg) && !(c.samples.any (·.repeated))

/-- The sums of a cycle of `len` ticks that begins at `t0`, its halves of equal length (R128, R129). -/
def cycleSum (len : Nat) (t0 : W64) (c : DitherCycle) : CycleSum :=
  let half := len / 2
  let t1 := t0 + BitVec.ofNat 64 half
  let hi := halfSamples c.samples t0 half (len / 8)
  let lo := halfSamples c.samples t1 half (len / 8)
  let m := min hi.length lo.length
  let diff (f : DitherSample → W16) : Int := ((hi.take m).map fun x => (f x).toInt).sum - ((lo.take m).map fun x => (f x).toInt).sum
  { di := diff (·.i), di2 := diff (·.i2), dv := diff (·.v), m := m, start := t0, last := (c.samples.getLast?.map (·.tick)).getD (t0 + BitVec.ofNat 64 len) }

/-- The cycle of channel `n` that begins at `t0` taken into its accumulation, when it is accepted. -/
def accumulate (s : State) (n : Chan) (t0 : W64) (c : DitherCycle) : State :=
  if cycleAccepted (s.fdc n) t0 c then
    s.modCh n fun x => { x with acc := (cycleSum (cycleLen (s.crec n)) t0 c :: x.acc).take 16, accN := x.accN + 1 }
  else s

/-- G of the window of the last 16 accepted cycles (R129, R259). -/
def windowG (s : State) (n : Chan) : Option Int :=
  let l := s.ch[n].acc
  conductance s n (l.map (·.di)).sum (l.map (·.di2)).sum (l.map (·.dv)).sum (l.map (·.m)).sum ((l.head?.map (·.last)).getD s.tick)

/-- The window's oldest cycle is older than HOLD_S (R131). -/
def windowOld (s : State) (n : Chan) : Bool := s.ch[n].acc.any fun c => secTicks (pHoldS (s.crec n)) < s.since c.start

/-- A result G judged against the signature (R130, R132). [log 47: DEDUCED, unsafe] -/
def judgeStrings (s : State) (n : Chan) (g : Int) : State :=
  match validSig s n with
  | none => s.modCh n fun c => { c with p := { c.p with estValid := false, estTick := none } }
  | some sg =>
    let nstr := (pNstr (s.crec n)).toNat
    let k := stringCount g nstr sg.g.toInt
    let high := k > nstr
    s.modCh n fun c =>
      let p := c.p
      let full := if k = nstr then p.fullRun + 1 else 0
      let low : Option Lamp :=
        if k = 0 then some .darkUnexpected else if k < nstr then some .litPartial
        else if k = nstr && 2 ≤ full then none else p.lowered
      { c with p := { p with estValid := true, estTick := some s.tick, strings := BitVec.ofNat 4 (min 15 k.toNat), sigHigh := high,
                             plat := if high then withBit p.plat 6 true else p.plat, fullRun := min 2 full, lowered := low } }

/-- The correlator's result over the last 16 accepted cycles of channel `n`; during an enrolment every fourth ends one of its windows (R133). -/
def giveResult (s : State) (n : Chan) : State :=
  if windowOld s n then discardAcc s n
  else
    let g := windowG s n
    match s.enrol[n] with
    | some e =>
      if s.ch[n].accN % 16 = 0 && e.gs.length < 4 then { s with enrol := setAt s.enrol n (some { e with gs := e.gs ++ [g] }) } else s
    | none =>
      evalLamp (match g with
        | none => s.modCh n fun c => { c with p := { c.p with estValid := false, estTick := none } }
        | some v => judgeStrings (s.modCh n fun c => { c with p := { c.p with gMeas := toW32 v } }) n v) n

/-- A dither cycle of channel `n` that has run to its end: it is accumulated, and every fourth accepted one, after 16, gives a result (R131). Its
high half's mean is the next cycle's I_ref (R128). -/
def takeCycle (n : Chan) (s : State) (c : DitherCycle) : State :=
  let d := s.fdc n
  let len := cycleLen d.cfg
  if (s.fd.tick - d.ditherNext).toNat < len then s
  else
    let s1 := modHalves s n fun x => withRef { x with ditherNext := x.ditherNext + BitVec.ofNat 64 len } c.iHigh.toNat
    let s2 := accumulate s1 n d.ditherNext c
    if s2.ch[n].accN = s.ch[n].accN || s2.ch[n].accN < 16 || s2.ch[n].accN % 4 ≠ 0 then s2 else giveResult s2 n

/-- R131: dither cycles that have ended since the last ones taken, in order. -/
def execCorrelatorResult (n : Chan) (cycles : List DitherCycle) (s : State) : Host.Outcome State Fault Refusal :=
  let r := s.crec n
  .next (if !s.execRuns || s.ch[n].kind ≠ kindDO || !pProveEn r || !pSndEn r || s.ch[n].retired || !sounding s || !(s.fdc n).dither then s
    else cycles.foldl (takeCycle n) s)

/-! ## Off-state pulses -/

/-- Class of a pulse (R135); voltages in µV. -/
def pulseClass (r : ChanRecord) (v0 v1 vfld : Int) : Pulse :=
  if v0 ≥ vfld - 3000000 then .shortSupply
  else if v1 ≥ (if pPulse6V r then 6000000 else 12000000) - 1500000 then .open
  else .normal

/-- `len` ticks have passed since tick `t`, when there is one. -/
def passed (s : State) (t : Option W64) (len : Nat) : Bool := match t with
  | some t => len ≤ (s.fd.tick - t).toNat
  | none => true

/-- DARK_BLANK in ticks. -/
def blankTicks (r : ChanRecord) : Nat := 1000 * pDarkBlank r

/-- An action turns a switch or may turn one. -/
def switches : FieldAct → Bool
  | .set _ _ | .restart _ | .safe _ | .retire _ | .mapRole _ _ | .unmapRole _ _ => true
  | _ => false

/-- A switch edge of channel `n` is known to fall within the next 100 µs (R136): a COMMAND received, or an edge of its running character. -/
def edgeSoon (s : State) (n : Chan) : Bool :=
  let soon (t : W64) : Bool := (t - s.fd.tick).toNat ≤ leadTicks.toNat
  (s.fd.cmds.any fun x => switches x.act && actChan x.act = n && soon x.target)
  || match runningChar (s.fdc n) with
    | some k => match runningRecord s (s.fdc n) k with
      | some r => s.fd.wheelOn[r.wheel] && r.edges.any fun e =>
          ((e.phase.setWidth 64 <<< 32) - s.fd.acc[r.wheel]).toNat ≤ leadTicks.toNat * s.fd.inc[r.wheel].toNat
      | none => false
    | none => false

/-- A pulse may be applied at this tick (R136). -/
def pulseFree (s : State) (n : Chan) : Bool :=
  let c := s.fdc n
  (match c.pulseDue with | some t => t.toNat ≤ s.fd.tick.toNat | none => true)
  && passed s c.offTick (blankTicks c.cfg) && !edgeSoon s n

/-- The tick the next pulse falls due at (R136): one interval on, or the first multiple of it still to come. [log 149: DEDUCED, safe] -/
def nextPulse (c : FdChan) (now : W64) : W64 :=
  let per := msTicks 10 * pOffPer c.cfg
  let due := (c.pulseDue.getD now).toNat
  BitVec.ofNat 64 (due + ((now.toNat - due) / per + 1) * per)

/-- R135, R136: a due pulse applied and classified; `i1` in 10 nA. Two consecutive pulses that agree give the class its weight. [log 46: DESIGN CHOICE, safe] -/
def execOffStatePulse (n : Chan) (v0 v1 i1 vfld : W32) (s : State) : Host.Outcome State Fault Refusal :=
  .next (onField s n (fun c => proven c && pOffEn c.cfg && !commandedLit c && !c.on && !c.phSink && sounding s && pulseFree s n) fun s =>
    let c := s.fdc n
    let k := pulseClass c.cfg v0.toInt v1.toInt vfld.toInt
    let agree := c.lastPulse = k
    let s1 := s.modFd n fun c =>
      { c with lastPulse := k, pulseDue := some (nextPulse c s.fd.tick), pulseTick := some s.fd.tick,
               pulseI := if k = .shortSupply then 0 else pPulse c.cfg }
    if k = .normal then
      if i1.toInt > 0 then
        report s1 (.pulse n k agree (some (BitVec.ofInt 16 (clampInt 0 0xFFFE (divRound (100 * (v1.toInt - v0.toInt)) i1.toInt)))) s.fd.tick)
      else
        -- R135 divides by I1: no value is stated for a current that is not positive
        let (v, s2) := s1.draw
        report s2 (.pulse n k agree (some (field v 0 16)) s.fd.tick)
    else report s1 (.pulse n k agree none s.fd.tick))

/-- The phantom detector's three flags reported. -/
def reportPhantom (s : State) (n : Chan) : State :=
  let c := s.fdc n
  report s (.phantom n c.phDet c.phSink c.phDriven)

/-- The phantom comparator is not blanked: DARK_BLANK after a turn-off and 50 µs after a pulse have passed, with the filter time after them
(R137, R142). -/
def phantomLive (s : State) (c : FdChan) : Bool :=
  passed s c.offTick (blankTicks c.cfg + 100 * pPhFilt c.cfg) && passed s c.pulseTick (500 + 100 * pPhFilt c.cfg)

/-- R137, R138: the declaration after PH_FILT, `held` ticks, with the sink engaged under SUPP_EN. [log 39: DEDUCED, unsafe] -/
def execPhantomDeclare (n : Chan) (held : Nat) (s : State) : Host.Outcome State Fault Refusal :=
  .next (onProve s n (fun c => proven c && pPhEn c.cfg && !commandedLit c && !c.on && !c.phDet && 100 * pPhFilt c.cfg ≤ held && phantomLive s c) fun s =>
    reportPhantom (s.modFd n fun c => { c with phDet := true, phSink := pSuppEn c.cfg, phDriven := false }) n)

/-- R137: the declaration clears; an engaged sink stays until the next turn-on. -/
def execPhantomClear (n : Chan) (s : State) : Host.Outcome State Fault Refusal :=
  .next (onProve s n (fun c => c.phDet) fun s => reportPhantom (s.modFd n fun c => { c with phDet := false }) n)

/-- R138: a driven source: the sink is released. [log 39: DEDUCED, unsafe] -/
def execPhantomDriven (n : Chan) (s : State) : Host.Outcome State Fault Refusal :=
  .next (onProve s n (fun c => c.phDet && c.phSink) fun s =>
    reportPhantom (s.modFd n fun c => { c with phSink := false, phDriven := true }) n)

/-- `x` lies within `pct` per cent of `set`. -/
def withinPct (x set pct : Int) : Bool := 100 * (x - set).natAbs ≤ pct * set.natAbs

/-- The elements of a path check outside their tolerance (R139): (a) 5.000 mA ± 2 %, (b) the tap ± 1 %, (c) OPEN and LOW ± 2 %, (d) V_PH ± 2 %.
A LOW of 0 sets no threshold. -/
def pathFails (r : ChanRecord) (m : PathMeasure) : BitVec 4 :=
  let a := !withinPct m.current.toInt 500000 2
  let b := !withinPct m.reading.toInt m.tap.toInt 1
  let c := !(withinPct m.open_.toInt (2000 * pOpen r) 2 && (pLow r = 0 || withinPct m.low.toInt (2000 * pLow r) 2) && m.toggled)
  let d := !(withinPct m.phantom.toInt (250000 * pVPh r) 2 && m.phToggled)
  withBit (withBit (withBit (withBit 0 0 a) 1 b) 2 c) 3 d

/-- R139, R140: a path check ends with its failed elements; in every mode but LOAD and STOP, and in slack hold. -/
def execPathCheck (n : Chan) (m : PathMeasure) (s : State) : Host.Outcome State Fault Refusal :=
  .next (onField s n (fun c => proven c && checking s) fun s =>
    let fail := pathFails (s.fdc n).cfg m
    report (s.modFd n fun c => { c with pcFail := fail, checkFrom := none, lastCheck := some (c.checkFrom.getD s.fd.tick, s.fd.tick) })
      (.pathCheck n fail s.fd.tick))

/-- R141: held evidence has become older than HOLD_S. -/
def execEvidenceExpiry (n : Chan) (s : State) : Host.Outcome State Fault Refusal :=
  .next (if s.execRuns then
      evalLamp (s.modCh n fun c => if fresh s n c.p.estTick then c else { c with p := { c.p with estValid := false } }) n
    else s)

end Sys2Proof.Machine
end

