-- ==== Sys2Proof/Machine/HostMap.lean ====
section
/-!
DEFINITION. The host address map (18 R496–R499): the word a host read returns at each address. Reserved addresses read 0 (R9).
-/
namespace Sys2Proof.Machine

/-! ## Byte images of configuration entries (R117, Tables 8-14, 10-9, 11-16, 13-12) -/

/-- Word `i` of a FILTER path descriptor. -/
def pathDescWord (d : PathDesc) (i : Nat) : W32 :=
  if i = 0 then put 0 d.rank ||| put 8 d.hb ||| put 16 d.decim
  else if i = 1 then put 0 d.taps ||| putB 8 d.bank ||| put 16 d.fade
  else if i = 2 then put 0 d.syncWheel
  else if i = 3 then d.syncPhase
  else 0

/-- Word `i` of a TIDE entry. [log 133: DEDUCED, unsafe] -/
def tideWord (c : TideCfg) (i : Nat) : W32 :=
  if i = 0 then c.periodUs
  else if i = 1 then put 0 c.ref ||| putN 8 2 c.refPort.val ||| put 16 c.mainsN
  else if i = 2 then put 0 c.slewPpm ||| putB 16 c.stepEn
  else if i = 3 then c.stepNs
  else if i = 4 then c.kp
  else if i = 5 then c.ki
  else 0

/-- Word `i` of the GROUP section's header and entries. -/
def groupWord (g : GroupSec) (i : Nat) : W32 :=
  if i = 0 then put 0 g.localBase
  else if i = 1 then put 0 g.winBase
  else if i = 2 then put 0 g.winLog2 ||| (match g.upport with | some k => putN 8 8 k.val | none => putN 8 8 0xFF) ||| putN 16 16 g.entries.length
  else if i < 4 then 0
  else match g.entries[(i - 4) / 2]? with
    | some e => if i % 2 = 0 then put 0 e.subBase else put 0 e.subLog2 ||| putN 8 8 e.port.val
    | none => 0

/-- Word `i` of a LINK entry. [log 133: DEDUCED, unsafe] -/
def linkWord (c : LinkCfg) (i : Nat) : W32 :=
  if i = 0 then put 0 c.role ||| put 16 c.baudMhz else if i = 1 then c.ownId else if i = 2 then c.peerId else 0

/-! ## Blocks -/

/-- IDENT bytes 0 to 15 as four words (Tables 0-1, 18-12). -/
def identWord (s : State) (i : Nat) : W32 :=
  if i = 0 then 0x45A11640
  else if i = 1 then Config.serial
  else if i = 2 then
    (match s.boot.exec with | some h => if s.m.run = .running then put 0 h.version else 0 | none => 0)
    ||| (match s.boot.ucode with | some h => put 16 h.version | none => 0)
  else (match s.boot.gen with | some g => put 0 g.schema | none => 0) ||| put 16 s.m.mode.code ||| put 24 (strapsByte s.straps)

/-- DEV block, word at offset `o` (Table 18-10). [log 10: DEDUCED, unsafe] -/
def devWord (s : State) (o : Nat) : W32 :=
  match o with
  | 0x00 => identWord s 0 | 0x04 => identWord s 1 | 0x08 => identWord s 2 | 0x0C => identWord s 3
  | 0x40 => bwstatWord s.bw | 0x44 => bwcntWord s.bw | 0x48 => clkcfgWord s.clk
  | 0x50 => bootstatWord s.boot | 0x54 => cfgactWord s.boot | 0x58 => cfgpendWord s.boot | 0x5C => cfgpseqWord s.boot
  | 0x60 => modeWord s.m | 0x64 => safecntWord s | 0x68 => startWord s.m | 0x6C => supplyWord s.m
  | 0x70 => govstatWord s | 0x74 => govbudWord s | 0x78 => trimstatWord s.trim | 0x7C => hartmodWord s.hart
  | 0x80 => scanWord s.conv | 0x84 => refstatWord s.conv
  | 0x88 => s.time.sec | 0x90 => timestatWord s | 0x94 => field s.tick 0 32 | 0x98 => field s.tick 32 32
  | 0xA0 => fenceDoneWord s.img | 0xA4 => fencestatWord s.img | 0xA8 => (if s.boot.gen.isSome then imgwinWord s.group else 0)
  | 0xAC => (if s.boot.gen.isSome then imglocalWord s.group else 0)
  | 0xB0 => imgstatWord s.img | 0xB4 => epwstatWord s.img | 0xB8 => epwlastWord s.img
  | 0xC0 => triadWord s.triad s.straps.lanemode | 0xC4 => lanedisWord s.triad | 0xC8 => lastdisWord s.triad | 0xCC => s.triad.lastTick
  | 0xD0 => voterWord s.triad | 0xD4 => surveyWord s.triad | 0xD8 => s.triad.survCrc | 0xDC => iauWord s.triad
  | 0xE0 => debugWord s.triad | 0xE4 => s.triad.haltUs
  | 0x100 => wdstatWord s | 0x104 => wdcntWord s.recov | 0x108 => rstcauseWord s | 0x10C => recovWord s.recov
  | 0x110 => stageWord s.recov | 0x114 => put 0 s.recov.stageLen | 0x118 => handoverWord s.recov | 0x11C => ucreloadWord s.recov
  | 0x120 => hoststatWord s | 0x124 => hosterr0Word s.host | 0x128 => hosterr1Word s.host | 0x12C => hostrdWord s.host
  | 0x130 => hostlastWord s.host | 0x134 => hostcfgWord s
  | 0x140 => memcfgWord s.mem | 0x144 => memstatWord s.mem | 0x148 => put 0 s.mem.code | 0x14C => memcntWord s.mem
  | _ => 0

/-- The signature registers read 0 while no signature is valid (Table 5-15). -/
def sigWord (s : State) (n : Chan) (i : Nat) : W32 :=
  match validSig s n with
  | some g => if i = 0 then g.g else if i = 1 then g.i else g.v
  | none => 0

/-- Block CHn, word at offset `o` (Table 4-11). -/
def chWord (s : State) (n : Chan) (o : Nat) : W32 :=
  let c := s.ch[n]
  if o < 0x100 then recWord (s.crec n) (BitVec.ofNat 6 (o / 4)).toFin
  else match o with
  | 0x100 => chStateWord c (s.isStandby n) | 0x104 => put 0 c.w.wire | 0x108 => put 0 c.w.wireLat | 0x10C => wirecntWord c.w
  | 0x110 => distatWord c.w | 0x114 => c.w.diTime
  | 0x120 => protWord c.prot | 0x124 => put 0 c.prot.lat | 0x128 => protcntWord c.prot | 0x12C => protcnt2Word c.prot
  | 0x130 => put 0 c.prot.eLast ||| put 16 (satNat 16 (narrow c.prot.eEst 8).toNat : BitVec 16) | 0x134 => put 0 c.prot.eAllow
  | 0x138 => tripinfoWord c.prot | 0x13C => c.prot.tripTime | 0x140 => backoffWord s c.prot
  | 0x160 => pstatWord c.p | 0x164 => put 0 c.p.plat | 0x168 => c.p.gMeas
  | 0x16C => sigWord s n 0 | 0x170 => sigWord s n 1 | 0x174 => sigWord s n 2
  | 0x178 => poffWord c.p | 0x17C => pcntWord c.p | 0x180 => c.p.pcTime
  | 0x1C0 => loopWord s.loop[n] | 0x1C4 => put 0 s.loop[n].lat | 0x1C8 => loopmeasWord s.loop[n] | 0x1CC => loopcmdWord s.loop[n]
  | 0x1D0 => hartstatWord s n | 0x1D4 => hartcntWord s.loop[n] | 0x1D8 => put 0 s.loop[n].period
  | _ => 0

/-- Word `i` of a result block (Table 8-8). -/
def resWord (r : ResultBlock) (i : Nat) : W32 :=
  if i = 0 then r.value else if i = 1 then resWord1 r else if i = 2 then r.ts else r.fout

/-- Path `i mod 32`. -/
def pathOf (i : Nat) : PathIx := ⟨i % 32, by omega⟩
/-- Channel `i mod 16`. -/
def chanOf (i : Nat) : Chan := ⟨i % 16, by omega⟩

/-- Block RES, word at offset `o` (Table 8-11). -/
def resBlockWord (s : State) (o : Nat) : W32 :=
  let c := s.conv
  if o < 0x200 then resWord c.path[pathOf (o / 16)].res (o / 4 % 4)
  else if o < 0x380 then (if h : (o - 0x200) / 16 < 24 then resWord c.hk[(o - 0x200) / 16] (o / 4 % 4) else 0)
  else if o = 0x400 then put 0 c.ringSel
  else if 0x500 ≤ o && o < 0x580 then
    let x := c.path[pathOf ((o - 0x500) / 4)]
    put 0 x.ringNext ||| put 10 x.wraps
  else if 0x4000 ≤ o && o < 0x8000 then resWord (sread {} c.ring (1024 * c.ringSel.toNat + (o - 0x4000) / 16)) (o / 4 % 4)
  else 0

/-- Bits of the 32 sources from 32x: EVQ.LATx (Table 18-15). -/
def latWord (e : EventRouter) (x : Nat) : W32 :=
  (List.range 32).foldl (fun a b => a ||| putB b (e.src[(BitVec.ofNat 7 (32 * x + b)).toFin]).latched) 0

/-- The log window: the sector that EVQ.LOGSEL names (Table 18-16). -/
def logWord (s : State) (o : Nat) : W32 :=
  if 2751 < s.ev.logSel.toNat then 0xFFFFFFFF else rd32 s.flashAt (0x540000 + 0x1000 * s.ev.logSel.toNat + o)

/-- Block EVQ, word at offset `o` (Table 18-11). -/
def evqWord (s : State) (o : Nat) : W32 :=
  if o < 0x1000 then (entryWords s.ev.ring[(BitVec.ofNat 8 (o / 16)).toFin]).getD (o / 4 % 4) 0
  else if 0x2000 ≤ o && o < 0x2200 then srcWord s.ev.src[(BitVec.ofNat 7 ((o - 0x2000) / 4)).toFin]
  else if 0x8000 ≤ o && o < 0x9000 then logWord s (o - 0x8000)
  else match o with
  | 0x1000 => evqStatWord s | 0x1004 => putB 0 s.ev.irqEn ||| putB 1 s.ev.irqOvf | 0x100C => evqLostWord s.ev
  | 0x1010 => evqRemoteWord s.ev | 0x1018 => evqErrWord s.ev
  | 0x1020 => latWord s.ev 0 | 0x1024 => latWord s.ev 1 | 0x1028 => latWord s.ev 2 | 0x102C => latWord s.ev 3
  | 0x1030 => s.ev.logPos | 0x1034 => s.ev.logOld | 0x1038 => put 0 s.ev.logSel | 0x103C => put 0 s.ev.logLost
  | _ => 0

/-- Block MBX, word at offset `o` (Tables 18-8, 18-17). -/
def mbxWord (s : State) (o : Nat) : W32 :=
  if o = 0x800 then mbxSummaryWord s.mbx
  else if 0x800 < o then 0
  else
    let m := s.mbx.slot[(BitVec.ofNat 3 (o / 0x100)).toFin]
    let r := o % 0x100
    if r = 0 then put 0 m.code ||| put 16 m.cmdTag
    else if r = 4 then mbxStatWord m
    else if r = 8 then m.detail
    else if 0x10 ≤ r && r < 0x90 then m.arg[(BitVec.ofNat 5 ((r - 0x10) / 4)).toFin]
    else if 0x90 ≤ r then m.ret.toList.getD ((r - 0x90) / 4) 0
    else 0

/-- Whole seconds of the holdover in progress, or of the last one (Table 10-12). -/
def holdWord (s : State) (x : Wheel) : W32 :=
  match x.holdStart with
  | some t => BitVec.ofNat 32 (s.since t / secTicks 1)
  | none => x.holdSec

/-- Block TWn, word at offset `o` (Table 10-9). -/
def twWord (s : State) (w : WheelIx) (o : Nat) : W32 :=
  let x := s.wheel[w]
  let nom := incNom (s.tide w)
  if o < 0x40 then (if s.boot.gen.isSome then tideWord (s.tide w) (o / 4) else 0)
  else match o with
  | 0x40 => twStatWord x (chgPend s w) | 0x44 => phaseOf x.acc | 0x48 => field x.acc 0 32 | 0x4C => field x.acc 32 32
  | 0x50 => field x.inc 0 32 | 0x54 => field x.inc 32 32
  | 0x58 => toW32 (divRound (x.f * 1000000000) nom) | 0x5C => toW32 (divRound (x.s * 1000000000) nom)
  | 0x60 => x.eNs | 0x64 => x.refTick | 0x68 => twCntWord x | 0x6C => twLinkWord x | 0x70 => holdWord s x
  | _ => 0

/-- Block LNKn, word at offset `o` (Table 13-12). -/
def lnkWord (s : State) (k : PortIx) (o : Nat) : W32 :=
  let p := s.port[k]
  match o with
  | 0x00 => linkWord (s.linkCfg k) 0 | 0x04 => linkWord (s.linkCfg k) 1 | 0x08 => linkWord (s.linkCfg k) 2
  | 0x10 => lnkStatWord p | 0x14 => p.peerId | 0x18 => peerwinWord p | 0x1C => delayWord p | 0x20 => credWord p | 0x24 => lnkErrWord p
  | 0x28 => retxWord p | 0x2C => p.txCnt | 0x30 => p.rxCnt | 0x34 => outstWord s k p | 0x38 => urgWord p
  | _ => 0

/-- Block GRP, word at offset `o` (Table 11-16). -/
def grpWord (s : State) (o : Nat) : W32 :=
  if o < 0x810 then (if s.boot.gen.isSome then groupWord s.group (o / 4) else 0)
  else if o < 0xC10 then estatWord s s.img.entry[(BitVec.ofNat 8 ((o - 0x810) / 4)).toFin]
  else 0

/-- State of the group with GROUP_ID `g` (Table 2-8); at reset where there is none. -/
def groupMem (s : State) (g : Nat) : GroupMem := match s.boot.gen with
  | some x => (match x.aspects.findIdx? fun y => y.groupId.toNat = g with
    | some k => s.rul.grp.getD k {}
    | none => {})
  | none => {}

/-- Block RUL, word at offset `o` (Table 12-11). -/
def rulWord (s : State) (o : Nat) : W32 :=
  if 0x100 ≤ o && o < 0x200 then astatWord (groupMem s ((o - 0x100) / 4))
  else match o with
  | 0x00 => rulCfgWord s | 0x04 => rulStatWord s | 0x08 => rulTimeWord s.rul | 0x0C => rulCntWord s.rul | 0x10 => rulFaultWord s.rul
  | 0x14 => rulFenceWord s.rul | 0x18 => put 0 s.rul.psel | 0x1C => rulPvalWord (s.ruleMem s.rul.psel.toNat)
  | 0x20 => satNat 32 (s.ruleMem s.rul.psel.toNat).acc
  | _ => 0

/-- A coefficient as it reads: bits 31 to 24 equal bit 23 (R224). -/
def coeffWord (c : BitVec 24) : W32 := c.signExtend 32

/-- Block FLT, word at offset `o` (Table 8-14). FLT.PCTLp is write-only. -/
def fltWord (s : State) (o : Nat) : W32 :=
  if o < 0x4000 then coeffWord (s.coeff (pathOf (o / 512)) (o / 256 % 2 = 1) (o / 4 % 64))
  else if o < 0x4200 then
    let p := pathOf ((o - 0x4000) / 16)
    let x := s.conv.path[p]
    if o % 16 = 4 then pstatPathWord x (s.scanned p) else if o % 16 = 8 then perrWord x else if o % 16 = 12 then pcntPathWord x else 0
  else if o = 0x4200 then fltErrWord s.conv
  else if 0x4400 ≤ o && o < 0x4800 then (if s.boot.applied then pathDescWord (s.desc (pathOf ((o - 0x4400) / 32))) (o / 4 % 8) else 0)
  else 0

/-- Selector of CAL.USERp, from the generation of step 7: the output chain for AO kinds at p = 2n (Table 9-8). CSEL reads 0 until step 8 loads
the register (R265). -/
def userSel (s : State) (p : PathIx) : Nat :=
  let r := s.crec (pathChan p)
  if s.boot.gen.isNone then 0
  else if isAO (cfgKind r) && p.val % 2 = 0 then cselOut (cfgKind r)
  else cselOf (cfgKind r) (cfgRange r).toNat (p.val % 2)

/-- JSEQ of the newer of the two points in force. -/
def userJseq (z sp : Option CalPoint) : W32 :=
  match z, sp with
  | some z, some t => if serialGt t.jseq z.jseq then t.jseq else z.jseq
  | some z, none => z.jseq
  | none, some t => t.jseq
  | none, none => 0

/-- Word `i` of CAL.USERp (Table 9-9). [log 140: DEDUCED, unsafe] -/
def userWord (s : State) (p : PathIx) (i : Nat) : W32 :=
  let n := pathChan p
  let c := userSel s p
  let z := pointFor s n c false
  let t := pointFor s n c true
  let l := userLayer s n c
  if i = 0 then (match l with | some x => toW32 x.1 | none => 0x40000000)
  else if i = 1 then (match l with | some x => toW32 x.2 | none => 0)
  else if i = 2 then putB 0 z.isSome ||| putB 1 t.isSome ||| putB 2 l.isSome ||| putN 3 5 c
  else userJseq z t

/-- Word `i` of CAL.APPLp (Table 9-10). -/
def applWord (x : PathState) (i : Nat) : W32 := if i = 0 then x.tj else if i = 1 then x.kq else if i = 2 then x.o else applWord3 x

/-- Block CAL, word at offset `o` (Table 9-8); records are read from OTP. -/
def calWord (s : State) (o : Nat) : W32 :=
  if o < 0x2800 then rd32 s.otpAt (0x1000 + o)
  else if 0x4000 ≤ o && o < 0x4180 then rd32 s.otpAt (0x3800 + (o - 0x4000))
  else if 0x5000 ≤ o && o < 0x5200 then userWord s (pathOf ((o - 0x5000) / 16)) (o / 4 % 4)
  else if 0x6000 ≤ o && o < 0x6200 then applWord s.conv.path[pathOf ((o - 0x6000) / 16)] (o / 4 % 4)
  else if 0x7000 ≤ o && o < 0x7040 then
    let n := chanOf ((o - 0x7000) / 4)
    put 0 s.conv.dac[n] ||| putB 16 s.conv.dacSat[n]
  else if 0x7100 ≤ o && o < 0x7140 then
    (List.range 20).foldl (fun a c => a ||| putB c (factoryRec s.otpAt (chanOf ((o - 0x7100) / 4)) c).valid) 0
  else if o = 0x7180 then (List.finRange 24).foldl (fun a h => a ||| putB h.val (hkRec s.otpAt h).2.2.2) 0
  else if o = 0x7184 then (List.finRange 16).foldl (fun a n => a ||| putB n.val (trimRec s.otpAt n).2.2.2) 0
  else if 0x7200 ≤ o && o < 0x7300 then rd32 s.otpAt (0x3A00 + (o - 0x7200))
  else 0

/-! ## The flash window (R465) -/

/-- A byte the execute-in-place window shows at offset `o`. [log 119: DESIGN CHOICE, safe; log 122: DESIGN CHOICE, safe] -/
def windowByte (s : State) (o : Nat) : Byte :=
  if !s.mem.decoded || s.mem.code = 0 then s.flashAt o
  else if s.mem.code = 1 then (if 0x400000 ≤ o && o < 0x500000 then s.mirrorAt o else 0xFF)
  else Config.deviceByte s.free s.mem.code.toNat o

/-- A word of the window. -/
def windowWord (s : State) (o : Nat) : W32 :=
  BitVec.ofNat 32 (natLE ((List.range 4).map fun i => windowByte s (o + i)))

/-! ## The map (Table 18-9) -/

/-- The word at host address `a`, a multiple of 4. [log 10: DEDUCED, unsafe; log 133: DEDUCED, unsafe; log 139: DEDUCED, unsafe] -/
def hostWord (s : State) (a : Nat) : W32 :=
  let o := a % 0x10000
  if a < 0x400000 then s.readEp (BitVec.ofNat 20 (a / 4))
  else if a < 0x410000 then devWord s o
  else if a < 0x420000 then chWord s (chanOf (o / 0x1000)) (o % 0x1000)
  else if a < 0x430000 then resBlockWord s o
  else if a < 0x440000 then evqWord s o
  else if a < 0x450000 then mbxWord s o
  else if a < 0x460000 then (if h : o / 0x100 < 4 then twWord s ⟨o / 0x100, h⟩ (o % 0x100) else 0)
  else if a < 0x468000 then (if h : o / 0x100 < 4 then lnkWord s ⟨o / 0x100, h⟩ (o % 0x100) else 0)
  else if a < 0x470000 then grpWord s (a - 0x468000)
  else if a < 0x480000 then rulWord s o
  else if a < 0x4C0000 then fltWord s (a - 0x480000)
  else if a < 0x500000 then calWord s (a - 0x4C0000)
  else if a < 0x600000 then (if s.recov.stage = .empty || s.recov.stageLen.toNat ≤ a - 0x500000 then 0 else rd32 s.stageAt (a - 0x500000))
  else if a < 0x800000 then 0
  else windowWord s (a - 0x800000)

/-- The byte at host address `a`. -/
def hostByte (s : State) (a : Nat) : Byte := (hostWord s (a - a % 4)).extractLsb' (8 * (a % 4)) 8

/-- `n` bytes from host address `a` up, captured at one instant (R7, R439). [log 119: DESIGN CHOICE, safe] -/
def hostBytes (s : State) (a n : Nat) : List Byte := (List.range n).map fun i => hostByte s (a + i)

end Sys2Proof.Machine
end

