-- ==== Sys2Proof/Machine/CheckUnit.lean ====
section
/-!
DEFINITION. The check-value unit (17 R472–R474) and the range a CHECK command covers (R475, R476).
-/
namespace Sys2Proof.Machine

/-- The low `w` bits of a value (R472). -/
def checkMask (w : BitVec 7) (v : W64) : W64 := v &&& (((1#65 <<< w.toNat) - 1).setWidth 64)

/-- Bit j to bit w−1−j (R473). -/
def checkReflect (w : BitVec 7) (v : W64) : W64 := checkMask w (v.reverse >>> (64 - w.toNat))

/-- One bit fed, most significant first. -/
def checkBitMsb (c : CheckUnit) (reg : W64) (b : Bool) : W64 :=
  let t := bitAt reg (c.width.toNat - 1) != b
  let r := checkMask c.width (reg <<< 1)
  if t then r ^^^ checkMask c.width c.poly else r

/-- One bit fed, least significant first. -/
def checkBitLsb (c : CheckUnit) (reg : W64) (b : Bool) : W64 :=
  let t := bitAt reg 0 != b
  let r := reg >>> 1
  if t then r ^^^ checkReflect c.width (checkMask c.width c.poly) else r

/-- One byte fed (R473). -/
def checkFeed (c : CheckUnit) (reg : W64) (x : Byte) : W64 :=
  if c.refin then [0, 1, 2, 3, 4, 5, 6, 7].foldl (fun r i => checkBitLsb c r (bitAt x i)) reg
  else [7, 6, 5, 4, 3, 2, 1, 0].foldl (fun r i => checkBitMsb c r (bitAt x i)) reg

/-- The register loaded at START. -/
def checkLoad (c : CheckUnit) : W64 := checkMask c.width (c.init ^^^ c.fold)

/-- RESULT of the register. -/
def checkResult (c : CheckUnit) (reg : W64) : W64 :=
  (if c.refout = c.refin then reg else checkReflect c.width reg) ^^^ checkMask c.width c.xorout

/-- The check value of bytes under parameters `c`. -/
def checkOver (c : CheckUnit) (bs : List Byte) : W64 := checkResult c (bs.foldl (checkFeed c) (checkLoad c))

def widthOk (w : BitVec 7) : Bool := 1 ≤ w.toNat && w.toNat ≤ 64

/-- Bytes fed by a DATA write (R474). -/
def checkData (s : State) (bs : List Byte) : State := { s with chk := { s.chk with reg := bs.foldl (checkFeed s.chk) s.chk.reg } }

/-! ## The unit's commands -/

/-- R472, R473: the parameters as the executive writes them, with CTRL; its START loads the register, unless WIDTH is not 1 to 64. -/
def execCheckUnitStart (ctrl : W32) (poly init xorout fold : W64) (s : State) : Host.Outcome State Fault Refusal :=
  let w : BitVec 7 := field ctrl 0 7
  let c := { s.chk with width := w, refin := bitAt ctrl 8, refout := bitAt ctrl 9, poly := checkMask w poly, init := checkMask w init,
                        xorout := checkMask w xorout, fold := checkMask w fold }
  .next (if !s.execRuns then s
    else if bitAt ctrl 16 && widthOk w then { s with chk := { c with reg := checkLoad c } }
    else { s with chk := c })

/-- R474: one byte. -/
def execData8 (v : W32) (s : State) : Host.Outcome State Fault Refusal :=
  .next (if s.execRuns then checkData s [field v 0 8] else s)

/-- R474: bits [7:0], then [15:8]. -/
def execData16 (v : W32) (s : State) : Host.Outcome State Fault Refusal :=
  .next (if s.execRuns then checkData s [field v 0 8, field v 8 8] else s)

/-- R474: four bytes in ascending order. -/
def execData32 (v : W32) (s : State) : Host.Outcome State Fault Refusal :=
  .next (if s.execRuns then checkData s (bytesLE v) else s)

/-! ## CHECK -/

/-- The preset of Table 17-8. -/
def checkPreset (p : BitVec 2) : CheckUnit :=
  if p = 0 then {}
  else if p = 1 then { width := 16, refin := false, refout := false, poly := 0x1021, init := 0xFFFF, xorout := 0 }
  else { width := 8, refin := false, refout := false, poly := 0x07, init := 0, xorout := 0 }

/-- Two argument words as one value, the low word first. -/
def State.arg64 (s : State) (i : SlotIx) (j : Fin 32) : W64 := s.arg i (j + 1) ++ s.arg i j

/-- The parameters slot `i`'s CHECK names. [log 132: DEDUCED, unsafe] -/
def checkParams (s : State) (i : SlotIx) : CheckUnit :=
  let a := s.arg i 0
  let c : CheckUnit := if bitAt a 0 then
      { width := field (s.arg i 5) 0 7, refin := bitAt (s.arg i 5) 8, refout := bitAt (s.arg i 5) 9, poly := s.arg64 i 6,
        init := s.arg64 i 8, xorout := s.arg64 i 10 }
    else checkPreset (field a 1 2)
  { c with fold := s.arg64 i 3 }

/-- Named bits of CHECK's arguments (Table 18-6). -/
def checkMasks (s : State) (i : SlotIx) : List (Fin 32 × W32) :=
  [(0, 0xF), (1, 0xFFFFFF), (2, 0x1FFFFFF)] ++ (if bitAt (s.mbx.slot[i].arg[(0 : Fin 32)]) 0 then [(5, 0x37F)] else [])

/-- CHECK as taken by slot `i` (R476). [log 132: DEDUCED, unsafe] -/
def runCheck (s : State) (i : SlotIx) (tag : W16) : State :=
  mbxRun s i 0x60 tag notStop (checkMasks s i) fun s =>
    let a := s.arg i 0
    let start := (s.arg i 1).toNat
    let len := (s.arg i 2).toNat
    if s.chk.job.isSome then mbxEnd s i rcBusy 0
    else if !bitAt a 0 && (field a 1 2 : BitVec 2) = 3 then mbxEnd s i rcInvalid 0
    else if len = 0 || 0x1000000 < start + len then mbxEnd s i rcInvalid 2
    else if bitAt a 0 && !widthOk (field (s.arg i 5) 0 7) then mbxEnd s i rcInvalid 5
    else { s with chk := { s.chk with job := some (i, bitAt a 3, start, len) } }

/-- R476: the range is covered and its check value returned. A range that shows serial devices uses values of one read. -/
def execCheckComplete (s : State) : Host.Outcome State Fault Refusal :=
  .next (match s.chk.job with
    | none => s
    | some (i, flash, start, len) =>
      if !s.execRuns then s
      else
        let bs := if flash then rdBytes s.flashAt start len else hostBytes s start len
        let r := checkOver (checkParams s i) bs
        let s1 := { s with chk := { s.chk with job := none }, free := if flash then s.free else s.free + 1 }
        mbxEnd (mbxReturn (mbxReturn s1 i 0 (field r 0 32)) i 1 (field r 32 32)) i rcOk 0)

def execCheck (slot : SlotIx) (tag : W16) (s : State) : Host.Outcome State Fault Refusal :=
  .next (mbxServed s slot 0x60 tag runCheck)

end Sys2Proof.Machine
end

