-- ==== Sys2Proof/Machine/ImgOps.lean ====
section
/-!
DEFINITION. Command writes at their owner and at their origin, requests that pass through, and what arrives for copies (11 R299–R309,
13 R365).
-/
namespace Sys2Proof.Machine

/-! ## The owner (Table 11-7) -/

/-- The bars of group `k` cleared when its command endpoint is `a`. [log 85: DEDUCED, unsafe] -/
def clearGroup (s : State) (a : BitVec 20) (k : Nat) (g : GroupMem) : GroupMem :=
  match s.boot.gen with
  | some x => (match x.aspects[k]? with
    | some y => if y.cmdEp = a then { g with bar := Vector.replicate 16 none } else g
    | none => g)
  | none => g

/-- CLEAR_BARS of an accepted write clears the bars of the group it names (R334, R337). [log 85: DEDUCED, unsafe] -/
def clearBars (s : State) (a : BitVec 20) (v : W16) : State :=
  if bitAt v 15 then { s with rul := { s.rul with grp := s.rul.grp.mapIdx (clearGroup s a) } } else s

/-- An accepted command write acted on as the endpoint's chapter states. A rule's command endpoint takes the word. -/
def actCommand (s : State) (a : BitVec 20) (v : W16) : State :=
  let o := offsetOf s.localBase a
  let n : Chan := ⟨o / 0x80 % 16, Nat.mod_lt _ (by decide)⟩
  let kd := s.ch[n].kind
  if o < 0x800 && o % 0x80 = 0 && kd = kindDO then writeDO s n v
  else if o < 0x800 && o % 0x80 = 0 && isAO kd then writeAO s n v
  else if o < 0x800 && o % 0x80 = 0x20 && isAO kd then writeAlarm s n v
  else clearBars (epAccept s a qGood 5 v) a v

/-- A write at the owner: the reason, 0 when accepted. [log 78: DEDUCED, unsafe] -/
def ownerWrite (s : State) (a : BitVec 20) (v : W16) : State × BitVec 3 :=
  if s.m.mode = .load || s.m.mode = .stop then (s, rsMode)
  else if epQual (s.ep a) = qUnassigned then (s, rsUnassigned)
  else if epClass (s.ep a) ≠ 5 then (s, rsClass)
  else (actCommand s a v, 0)

/-! ## The origin (R307) -/

/-- Entries of at most 30 per request. -/
def chunks {α : Type} (n : Nat) : Nat → List α → List (List α)
  | 0, _ => []
  | _ + 1, [] => []
  | fuel + 1, l => l.take n :: chunks n fuel (l.drop n)

/-- The port a route leaves on. -/
def Route.port : Route → Option PortIx
  | .down k _ => some k
  | .up k => some k
  | _ => none

/-- One word routed at its origin: local ones act, refused ones are recorded; the others wait for their requests. `src` is EPWLAST.SRC. -/
def originWord (s : State) (src : BitVec 2) (x : BitVec 20 × W16) (toPort : List (PortIx × BitVec 20 × W16)) :
    State × List (PortIx × BitVec 20 × W16) :=
  if s.m.mode = .load then (recordRefusal s x.1 rsMode src, toPort)
  else match s.route x.1 false with
    | .loc => let r := ownerWrite s x.1 x.2; (if r.2 = 0 then r.1 else recordRefusal r.1 x.1 r.2 src, toPort)
    | .refused why => (recordRefusal s x.1 why src, toPort)
    | .down k _ | .up k =>
      if s.img.pendingWrites + toPort.length ≥ 64 then (recordRefusal s x.1 rsBusy src, toPort)
      else ({ s with img := { s.img with issued := s.img.issued + 1 } }, toPort ++ [(k, x)])

def originWords (s : State) (src : BitVec 2) : List (BitVec 20 × W16) → List (PortIx × BitVec 20 × W16) →
    State × List (PortIx × BitVec 20 × W16)
  | [], q => (s, q)
  | x :: xs, q => let r := originWord s src x q; originWords r.1 src xs r.2

/-- Words written by one frame or one rule cycle of this device: the words of one route go as one request of at most 30 entries. -/
def originWrites (s : State) (src : BitVec 2) (ws : List (BitVec 20 × W16)) : State :=
  let r := originWords s src ws []
  (List.finRange 4).foldl (fun a k =>
    let mine := (r.2.filter fun x => x.1 = k).map (·.2)
    (chunks 30 mine.length mine).foldl (fun b es => sendRequest b k (.write es) (.origin src (es.map (·.1))) fullBudget b.tick) a) r.1

/-! ## Requests that arrive (R302, R365) -/

/-- Transit entries in use. -/
def transitCount (s : State) : Nat :=
  (s.img.out.filter fun r => match r.kind with | .transit _ _ => true | _ => false).length

/-- EPWLAST.SRC of a write that arrived on port `k`. [log 78: DEDUCED, unsafe] -/
def linkSrc (s : State) (k : PortIx) : BitVec 2 := if s.role k = 1 then 2 else 3

/-- The ports the entries of a request leave on. -/
def partPorts (s : State) (up : Bool) (es : List (BitVec 20 × W16)) : List PortIx :=
  (List.finRange 4).filter fun k => es.any fun e => (s.route e.1 up).port = some k

/-- Entries with their positions. -/
def indexed {α : Type} (l : List α) : List (Nat × α) := (List.range l.length).zip l

/-- Local and refused entries of merge `id` answered in ascending order of their endpoints (R165). -/
def answerHere (s : State) (k : PortIx) (id : Nat) (up : Bool) (es : List (Nat × BitVec 20 × W16)) : State :=
  (sortBy (·.2.1.toNat) es).foldl (fun a e => match a.route e.2.1 up with
    | .loc =>
      let r := ownerWrite a e.2.1 e.2.2
      mergeFill (if r.2 = 0 then r.1 else recordRefusal r.1 e.2.1 r.2 (linkSrc s k)) id [e.1] [r.2.setWidth 8]
    | .refused why => mergeFill (recordRefusal a e.2.1 why (linkSrc s k)) id [e.1] [why.setWidth 8]
    | _ => a) s

/-- Every entry is refused for want of a route, and with the same code. [log 76: DEDUCED, unsafe] -/
def allRefused (s : State) (up : Bool) (why : BitVec 3) (es : List (BitVec 20 × W16)) : Bool :=
  !es.isEmpty && es.all fun e => s.route e.1 up = .refused why

/-- A WRITE request taken from port `k`: local entries act, others go on in transit entries, and the responses are merged. A request refused
whole for its route is answered with ERROR_RSP. [log 76: DEDUCED, unsafe] -/
def transitWrite (s : State) (k : PortIx) (tag budget : W16) (since : W64) (es : List (BitVec 20 × W16)) : State :=
  let up := s.role k = 1
  let refuse (why : BitVec 3) (code : Byte) : State :=
    sendResponse (es.foldl (fun a e => recordRefusal a e.1 why (linkSrc s k)) s) k (.errorRsp code) tag
  if allRefused s up rsNoRoute es then refuse rsNoRoute 4
  else if allRefused s up rsLoop es then refuse rsLoop 5
  else
    let id := s.img.nextId
    let g : Merge := { id := id, port := k, tag := tag, reasons := es.map fun _ => none }
    let s1 := { s with img := { s.img with nextId := id + 1, merges := s.img.merges ++ [g] } }
    let ix := indexed es
    let s2 := (partPorts s up es).foldl (fun a p =>
      let part := ix.filter fun e => (s.route e.2.1 up).port = some p
      sendRequest a p (.write (part.map (·.2))) (.transit id (part.map (·.1))) budget since) s1
    answerHere s2 k id up ix

/-- The request needs more transit entries than are free. [log 77: DEDUCED, unsafe] -/
def needsWait (s : State) (k : PortIx) (es : List (BitVec 20 × W16)) : Bool :=
  let n := (partPorts s (s.role k = 1) es).length
  n ≠ 0 && 256 < transitCount s + n

/-! ## Copies (R305, R306) -/

/-- One word of an update or sweep request from port `k`. -/
def takeWord (s : State) (k : PortIx) (sweep : Bool) (x : BitVec 20 × W32) : State × Bool :=
  match findEntry s.group x.1 with
  | some (j, e) =>
    let j : Fin 256 := (BitVec.ofNat 8 j).toFin
    if e.port ≠ k || s.img.entry[j].outside then ({ s with img := { s.img with foreign := satInc s.img.foreign } }, false)
    else
      let old := s.ep x.1
      let s1 := entryArrival s j sweep
      let s2 := if old = x.2 then s1 else epStore s1 x.1 x.2
      let s3 := if sweep then { s2 with img := { s2.img with
          sweepFix := if old = x.2 then s2.img.sweepFix else satInc s2.img.sweepFix,
          sweepForward := if s.group.upport.isSome then s2.img.sweepForward ++ [x.1] else s2.img.sweepForward } } else s2
      (s3, true)
  | none => ({ s with img := { s.img with foreign := satInc s.img.foreign } }, false)

def takeWords (s : State) (k : PortIx) (sweep : Bool) : List (BitVec 20 × W32) → Nat → State × Nat
  | [], n => (s, n)
  | x :: xs, n => let r := takeWord s k sweep x; takeWords r.1 k sweep xs (if r.2 then n + 1 else n)

/-- R301 for the entries naming port `k`, from the window its neighbour reported. -/
def applyPeerWindow (s : State) (k : PortIx) : State :=
  let p := s.port[k]
  s.entries.foldl (fun a je =>
    if je.2.port ≠ k then a
    else
      let inside := p.peerWinBase.toNat ≤ je.2.subBase.toNat
        && je.2.subBase.toNat + 2 ^ je.2.subLog2.toNat ≤ p.peerWinBase.toNat + 2 ^ p.peerWinLog2.toNat
      let out := p.peerWinValid && !inside
      if out = a.img.entry[je.1].outside then a
      else if out then
        raiseMember (modEntry (copiesNoComm a je.2) je.1 fun x =>
          { x with outside := true, state := 2, losses := if x.state = 2 then x.losses else satInc x.losses }) je.1
      else modEntry a je.1 (entryUp s.tick)) s

/-- DISC sent on the upstream port (R369). -/
def sendDisc (s : State) : State := match s.upPort with
  | some k => sendOn s k { msg := .disc s.group.winBase s.group.winLog2, since := s.tick }
  | none => s

/-- States of the entries at a start, or of the ones a generation adds or changes: no communication while the port is not up (R306). -/
def entriesInit (s : State) (keep : Nat → GroupEntry → Bool) : State :=
  let es := s.group.entries
  { s with img := { s.img with entry := Vector.ofFn fun j =>
      match es[j.val]? with
      | some e =>
        if keep j.val e then s.img.entry[j]
        else { state := if s.port[e.port].state = .up then 1 else 2, sweepTick := s.tick, heard := s.tick }
      | none => {} } }

end Sys2Proof.Machine
end

