-- ==== Sys2Proof/Machine/EndpointImage.lean ====
section
/-!
DEFINITION. Recomputation at boundaries without rule cycles, updates and sweeps sent upstream, stale entries and the completion of fences
(11 R299, R305, R306, R311–R313).
-/
namespace Sys2Proof.Machine

/-- R299, R481, R108: a boundary of a mode without rule cycles, every 1 ms. [log 74: DEDUCED, safe] -/
def execEndpointRecompute (s : State) : Host.Outcome State Fault Refusal :=
  .next (if !s.execRuns || s.ruleRunning then s else flushNormal (mapPending (restartPending (recompute (settleMode s)))))

/-- A word of the change set may be sent now: class 2 and 3 at most once per 10 ms. -/
def sendable (s : State) (a : BitVec 20) : Bool :=
  let c := epClass (s.ep a)
  if c = 2 || c = 3 then
    match s.img.lastSent.find? fun x => x.1 = a.toNat with
    | some x => decide (msTicks 10 ≤ s.since x.2)
    | none => true
  else true

/-- An update request with these words, which leave the change set (R305). -/
def sendUpdate (s : State) (k : PortIx) (as : List (BitVec 20)) : State :=
  let limited := as.filter fun a => let c := epClass (s.ep a); c = 2 || c = 3
  let s1 := { s with img := { s.img with
    changes := s.img.changes.filter fun a => !as.contains a
    lastSent := limited.foldl (fun m a => sinsert (serase m a.toNat) a.toNat s.tick) s.img.lastSent } }
  fenceWordsSent (sendRequest s1 k (.update false (as.map fun a => (a, s.ep a))) (.update false as) fullBudget s.tick) s1.img.nextId as

/-- R305: up to 30 changed words are sent upstream in the order of their first change. -/
def execUpdateSend (s : State) : Host.Outcome State Fault Refusal :=
  .next (match s.upPort with
    | some k =>
      let as := (s.img.changes.filter (sendable s)).take 30
      if !s.execRuns || as.isEmpty then s else sendUpdate s k as
    | none => s)

/-- R306: the next 64 local words go upstream, with the sweep words that came from below. -/
def execSweepSend (s : State) : Host.Outcome State Fault Refusal :=
  .next (match s.upPort with
    | some k =>
      if !s.execRuns then s
      else
        let mine := (List.range 64).map fun i => s.lo ((s.img.sweepAt + i) % 4096)
        let as := mine ++ s.img.sweepForward
        let s1 := { s with img := { s.img with sweepAt := (s.img.sweepAt + 64) % 4096, sweepForward := [] } }
        (chunks 30 as.length as).foldl (fun a ws =>
          sendRequest a k (.update true (ws.map fun x => (x, a.ep x))) (.update true ws) fullBudget a.tick) s1
    | none => s)

/-- R306: nothing has arrived from an entry for 150 s while its port is up. -/
def execEntryStale (j : Fin 256) (s : State) : Host.Outcome State Fault Refusal :=
  .next (match s.group.entries[j.val]? with
    | some e =>
      if s.execRuns && s.port[e.port].state = .up && s.img.entry[j].state = 1 && secTicks 150 ≤ s.since s.img.entry[j].heard then
        let s1 := modEntry (overrideCopies s e qStale) j fun x => { x with state := 3, losses := satInc x.losses }
        raiseMember { s1 with img := { s1.img with staleEnt := satInc s1.img.staleEnt } } j
      else s
    | none => s)

/-- R313: a local fence completes. -/
def completeLocal (s : State) (f : PendingFence) : State :=
  let s1 := { s with img := { s.img with
    doneTag := f.tag, donePartial := f.partialFlag, doneCount := s.img.doneCount + 1,
    partials := if f.partialFlag then satInc s.img.partials else s.img.partials } }
  let s2 := putHealth s1 0xF0C 3 f.tag
  fenceTag (raise s2 srcFence (fenceDoneWord s2.img)) f.tag

/-- R311–R313: the oldest fence of a group completes once its conditions hold; not during a handover. -/
def execFenceComplete (upstream : Bool) (s : State) : Host.Outcome State Fault Refusal :=
  .next (if !s.execRuns then s
    else if upstream then
      match s.img.fencesUp with
      | f :: fs =>
        if f.ready then
          let s1 := { s with img := { s.img with fencesUp := fs } }
          match f.source with
          | .upstream k tag => sendResponse s1 k (.fenceRsp (if f.partialFlag then 1 else 0)) tag
          | _ => s1
        else s
      | [] => s
    else
      match s.img.fencesLocal with
      | f :: fs => if f.ready then completeLocal { s with img := { s.img with fencesLocal := fs } } f else s
      | [] => s)

end Sys2Proof.Machine
end

