-- ==== Sys2Proof/Machine/Rules.lean ====
section
/-!
DEFINITION. The rule engine (12 R318–R341): operands, opcodes, aspects, outputs, fences and the cycle that carries them out.
-/
namespace Sys2Proof.Machine

/-! ## The cycle view (R319, R322) -/

/-- What rules read: the image as the cycle took it, overlaid with the outputs of earlier rules. -/
structure CycleView where
  base : State
  overlay : List (BitVec 20 × W32)

def CycleView.word (v : CycleView) (a : BitVec 20) : W32 := match v.overlay.find? fun x => x.1 = a with
  | some x => x.2
  | none => v.base.readEp a

/-- An operand as read: numeric value, boolean value, quality, and whether that enters the output quality. -/
structure Operand where
  num : Int
  b : Bool
  q : BitVec 4
  enters : Bool

/-- The selected field of an endpoint word (Table 12-2). -/
def selected (w : W32) (sel : BitVec 4) (bit : BitVec 4) : Int :=
  match sel.toNat with
  | 0 => if epClass w = 2 then (epValue w).toInt else (epValue w).toNat
  | 1 => if bitAt (epValue w) bit.toNat then 1 else 0
  | 2 => (epQual w).toNat
  | _ => (epSeq w).toNat

/-- Code 15 enters as 8. -/
def opQual (w : W32) : BitVec 4 := if epQual w = qUnassigned then 8 else epQual w

/-- An operand word read from the view (R322). -/
def CycleView.read (v : CycleView) (w : W32) : Operand :=
  if opConst w then
    let k : W16 := field (opIn w) 0 16
    { num := if opSel w = 0xE then k.toInt else k.toNat, b := (k ≠ 0) != opInv w, q := 0, enters := false }
  else
    let e := v.word (opIn w)
    let x := selected e (opSel w) (opBit w)
    { num := x, b := if 8 ≤ opQual e then opFailTrue w else (x ≠ 0) != opInv w, q := opQual e, enters := !opNoq w }

/-- The worse of two qualities (R293). -/
def worse (a b : BitVec 4) : BitVec 4 := if a < b then b else a

/-- R323: the worst of the qualities that enter. -/
def worstOf (ops : List Operand) : BitVec 4 := ops.foldl (fun q o => if o.enters then worse q o.q else q) 0

/-- The lower of two qualities. -/
def better (a b : BitVec 4) : BitVec 4 := if a < b then a else b

/-- The operand reads `b` with a quality below 8 that enters (R323). -/
def Operand.agrees (o : Operand) (b : Bool) : Bool := o.b = b && o.q < 8 && o.enters

/-- The lowest quality below 8 that enters, among operands that read `b`. [log 83: DEDUCED, unsafe] -/
def bestOf (b : Bool) : List Operand → Option (BitVec 4)
  | [] => none
  | o :: os => match bestOf b os with
    | some x => if o.agrees b then some (better o.q x) else some x
    | none => if o.agrees b then some o.q else none

/-- MAJ: the worse quality of the best-qualified pair that reads `b`. [log 83: DEDUCED, unsafe] -/
def secondOf (b : Bool) (x y z : Operand) : Option (BitVec 4) :=
  let pair (m n : Operand) : Option (BitVec 4) := if m.agrees b && n.agrees b then some (worse m.q n.q) else none
  [pair x y, pair x z, pair y z].foldl (fun a p => match a, p with
    | some m, some n => some (if m < n then m else n)
    | some m, none => some m
    | none, p => p) none

/-! ## Timers (R326) -/

def topAcc : Nat := 2 ^ 48 - 1
def accAdd (acc el : Nat) : Nat := min (acc + el) topAcc

/-- T in µs. -/
def timerT (f : BitVec 4) (p : W16) : Nat :=
  p.toNat * (match f.toNat with | 0 => 1000 | 1 => 10000 | 2 => 100000 | _ => 1000000)

def runTon (m : RuleMem) (a p : Bool) (el t : Nat) : RuleMem × Bool :=
  let acc := if a then (if p then accAdd m.acc el else 0) else m.acc
  ({ m with acc := acc }, a && t ≤ acc)

def runTof (m : RuleMem) (a p : Bool) (el t : Nat) : RuleMem × Bool :=
  let acc := if a then m.acc else if p then 0 else accAdd m.acc el
  ({ m with acc := acc }, a || acc < t)

def runPulse (m : RuleMem) (a p : Bool) (el t : Nat) : RuleMem × Bool :=
  let acc := if m.run then accAdd m.acc el else m.acc
  let start := !m.run && a && !p
  let acc := if start then 0 else acc
  let run := (m.run || start) && !(t ≤ acc)
  ({ m with acc := acc, run := run }, run)

/-- A rule's reset state (R327). -/
def ruleReset (r : RuleRec) : RuleMem := { acc := if opcOf r.opc = some .tof then topAcc else 0 }

/-- Every rule and group in its reset state (R327). -/
def rulesReset (s : State) : State := match s.boot.gen with
  | some g => { s with rul := { s.rul with mem := g.rules.map ruleReset, grp := g.aspects.map fun _ => {} } }
  | none => { s with rul := { s.rul with mem := [], grp := [] } }

/-! ## Lamps (R335–R338) -/

/-- How a lamp is judged (Table 12-7). -/
inductive Judged where
  | ok
  | pending
  | fail
  | bar
  deriving DecidableEq, Repr

/-- Rows 2 to 8 of Table 12-7, for lamp state `st` of quality `q`; `part` says that STRINGS reaches PM. -/
def judge (st : Nat) (q : BitVec 4) (lit grace part : Bool) : Judged :=
  if 8 ≤ q then (if lit then .bar else .fail)
  else if st = 3 || st = 6 || st = 7 then .bar
  else if st = 4 then .fail
  else if lit && grace && (st = 0 || st = 5) then .pending
  else if lit && (st = 1 || (st = 2 && part)) then .ok
  else if !lit && (st = 0 || st = 1 || st = 2 || st = 5) then .ok
  else if lit then .bar else .fail

/-- STRINGS at LAMP + 7 reads at least `pm` with quality below 8. -/
def CycleView.strings (v : CycleView) (lamp : BitVec 20) (pm : Nat) : Bool :=
  let w := v.word (lamp + 7)
  opQual w < 8 && pm ≤ (epValue w).toNat

/-- PROVE (R336). -/
def provedBy (v : CycleView) (r : RuleRec) (b : Bool) : Bool :=
  let a := opIn r.w1
  let w := v.word a
  let local_ := v.base.isLocal a
  let n : Chan := ⟨offsetOf v.base.localBase a / 0x80 % 16, Nat.mod_lt _ (by decide)⟩
  let p := r.param.toNat % 16
  let pm := if p ≠ 0 then p else if local_ then (pPartMin (v.base.crec n)).toNat else 16
  let lit := judge (epValue w).toNat (opQual w) true false (v.strings a pm) = .ok
  let dark := epValue w = 0 && opQual w < 8
  match r.fsel.toNat with
  | 0 => lit
  | 1 => dark
  | _ => if b then lit else dark

/-- Lamp `n` of a group judged in the present cycle; row 1 first. -/
def judgeLamp (v : CycleView) (g : GroupMem) (n : Chan) : Judged :=
  if (g.bar[n]).isSome then .fail
  else
    let a := v.base.chEp n 1
    let w := v.word a
    let grace := match g.lit[n] with | some t => decide (v.base.tick.toNat ≤ t.toNat) | none => false
    judge (epValue w).toNat (opQual w) (g.lit[n]).isSome grace (v.strings a (pPartMin (v.base.crec n)).toNat)

/-- [log 52: DEDUCED, unsafe] -/
def lampsOf (m : W16) : List Chan := (List.finRange 16).filter fun n => bitAt m n.val

/-- The bars of R337 set by judging the lamps of `m`, each with its LAMP quality. [log 85: DEDUCED, unsafe] -/
def setBars (v : CycleView) (g : GroupMem) (m : W16) : GroupMem :=
  { g with bar := Vector.ofFn fun n =>
      if bitAt m n.val && judgeLamp v g n = .bar then some (opQual (v.word (v.base.chEp n 1))) else g.bar[n] }

/-- Every lamp of `m` judges ok. -/
def provable (v : CycleView) (g : GroupMem) (m : W16) : Bool :=
  (lampsOf m).all fun n => judgeLamp v g n = .ok || judgeLamp v g n = .pending

/-- The first provable candidate, with the bars that judging set (R335). -/
def pickAspect (v : CycleView) (x : AspectGroup) : List Nat → GroupMem → GroupMem × Option Nat
  | [], g => (g, none)
  | a :: as, g => match x.aspects[a]? with
    | none => pickAspect v x as g
    | some d => if provable v g d.chmask then (g, some a) else pickAspect v x as (setBars v g d.chmask)

/-- Index of the aspect of RANK 0. -/
def rankZero (x : AspectGroup) : Nat := (x.aspects.findIdx? fun a => a.rank = 0).getD 0

/-- COMMAND word of channel `n` under aspect `d` (R333). -/
def aspectWord (d : Aspect) (n : Chan) : W16 :=
  if !bitAt d.chmask n.val then 0
  else if d.char[n] = 0xFF then 1
  else 2 ||| ((d.char[n] &&& 0x3F).setWidth 16 <<< 8)

/-- What an execution of ASPECT gives. -/
structure AspectRun where
  grp : GroupMem
  sel : Nat
  qual : BitVec 4
  writes : List (Chan × W16)
  newBars : Nat
  newNoprov : Bool

/-- Quality of ASPECT's output (Table 12-8). -/
def aspectQual (invalid noprov stray pend hold subst : Bool) : BitVec 4 :=
  if invalid || noprov || stray then qFault else if pend then qSettling else if hold then qHoldover else if subst then qSubst else qGood

/-- ASPECT executed for its group (R333–R338); `target` is the cycle's target tick. -/
def runAspect (v : CycleView) (r : RuleRec) (x : AspectGroup) (g0 : GroupMem) (target : W64) : AspectRun :=
  let w := v.word x.cmdEp
  let b := v.read r.w2
  let inv := x.aspects.length ≤ (epValue w).toNat % 64 || (field (epValue w) 6 9 : BitVec 9) ≠ 0 || 8 ≤ opQual w
  let pinv := 8 ≤ b.q && !opNoq r.w2
  let r0 := rankZero x
  let c := if inv || pinv || !b.b then r0 else (epValue w).toNat % 64
  let g1 := { g0 with bar := Vector.ofFn fun n => match g0.bar[n] with
    | some q => if q = opQual (v.word (v.base.chEp n 1)) then some q else none
    | none => none }
  let subst := match x.aspects[c]? with | some d => (d.subst.takeWhile (· ≠ 0xFF)).map (·.toNat) | none => []
  let p := pickAspect v x (c :: subst ++ [r0]) g1
  let sel := p.2.getD r0
  let d := match x.aspects[sel]? with | some d => d | none => ⟨0, 0, Vector.replicate 16 0xFF, []⟩
  let lamps := lampsOf d.chmask
  let pend := lamps.any fun n => judgeLamp v p.1 n = .pending
  let stray := (lampsOf x.chset).any fun n => !bitAt d.chmask n.val && epValue (v.word (v.base.chEp n 1)) = 4
  let hold := lamps.any fun n => epQual (v.word (v.base.chEp n 1)) = qHoldover
  let graceMs := if r.param = 0 then 250 else r.param.toNat
  let g2 := { p.1 with
    displayed := BitVec.ofNat 6 sel, commanded := BitVec.ofNat 6 c, subst := sel ≠ c, pending := pend, noprov := p.2.isNone,
    invcmd := inv || pinv,
    lit := Vector.ofFn fun n =>
      if bitAt d.chmask n.val then (match g0.lit[n] with | some t => some t | none => some (target + BitVec.ofNat 64 (msTicks graceMs))) else none }
  { grp := g2, sel := sel, qual := aspectQual (inv || pinv) p.2.isNone stray pend hold (sel ≠ c),
    writes := (lampsOf x.chset).map fun n => (n, aspectWord d n),
    newBars := ((List.finRange 16).filter fun n => (p.1.bar[n]).isSome && (g1.bar[n]).isNone).length,
    newNoprov := p.2.isNone && !g0.noprov }

/-! ## Executing the rules (R325) -/

/-- What a cycle has to do once its rules have run. -/
inductive RuleAct where
  | put (a : BitVec 20) (q cls : BitVec 4) (v : W16)
  | write (i : Nat) (a : BitVec 20) (v : W16)
  | remote (i : Nat) (a : BitVec 20) (v : W16)
  | emit (i : Nat) (src : SrcIx) (a : Bool)
  | fence (i : Nat) (tag : W16)
  | fault (i : Nat) (cause : BitVec 3)
  deriving DecidableEq, Repr

/-- A cycle in progress. -/
structure Cycle where
  view : CycleView
  mem : List RuleMem
  grp : List GroupMem
  acts : List RuleAct

/-- What an opcode without outputs of its own computes: class, quality, VALUE and the rule's state. -/
structure Computed where
  cls : BitVec 4
  q : BitVec 4
  v : W16
  mem : RuleMem

def bool16 (b : Bool) : W16 := if b then 1 else 0
def int16 (x : Int) : W16 := BitVec.ofInt 16 x

/-- The first operand of quality 8 or above. [log 83: DEDUCED, unsafe] -/
def badOf : List Operand → Option Operand
  | [] => none
  | o :: os => if 8 ≤ o.q then some o else badOf os

/-- A comparison in int32 with hysteresis: `up` sets Q, `down` clears it; a bad operand gives its fail value. -/
def compare (m : RuleMem) (ops : List Operand) (up down : Bool) : Computed :=
  let q := match badOf ops with | some o => o.b | none => if up then true else if down then false else m.q
  ⟨0, worstOf ops, bool16 q, { m with q := q }⟩

/-- VALUE written under output class `cls`: 0 or 1 in class 0 (R325). [log 83: DEDUCED, unsafe] -/
def classed (cls : BitVec 4) (x : Int) : W16 := if cls = 0 then bool16 (x ≠ 0) else int16 x

/-- Quality of QUALGATE with FSEL 1: `q` of the operand chosen where it enters (R323), else none. -/
def entering (o : Operand) : BitVec 4 := if o.enters then o.q else 0

/-- Opcodes of Table 12-4 that compute an output from their operands. -/
def compute (v : CycleView) (r : RuleRec) (o : Opc) (m : RuleMem) (a b c : Operand) (p : Bool) (el : Nat) : Option Computed :=
  let out (x : Bool) (ops : List Operand) : Computed := ⟨0, worstOf ops, bool16 x, m⟩
  match o with
  | .copy => some ⟨r.fsel, worstOf [a], classed r.fsel a.num, m⟩
  | .not => some (out (!a.b) [a])
  | .and =>
    let x := a.b && b.b
    let k := out x [a, b]
    some (if x then k else match bestOf false [a, b] with | some q => { k with q := q } | none => k)
  | .or =>
    let x := a.b || b.b
    let k := out x [a, b]
    some (if x then (match bestOf true [a, b] with | some q => { k with q := q } | none => k) else k)
  | .xor => some (out (a.b != b.b) [a, b])
  | .maj =>
    let x := (a.b && b.b) || (a.b && c.b) || (b.b && c.b)
    let k := out x [a, b, c]
    some (match secondOf x a b c with | some q => { k with q := q } | none => k)
  | .sr => let q := if a.b then true else if b.b then false else m.q; some { out q [a, b] with mem := { m with q := q } }
  | .rs => let q := if b.b then false else if a.b then true else m.q; some { out q [a, b] with mem := { m with q := q } }
  | .ton => let t := runTon m a.b p el (timerT r.fsel r.param); some { out t.2 [a] with mem := t.1 }
  | .tof => let t := runTof m a.b p el (timerT r.fsel r.param); some { out t.2 [a] with mem := t.1 }
  | .pulse => let t := runPulse m a.b p el (timerT r.fsel r.param); some { out t.2 [a] with mem := t.1 }
  | .cmpGt => some (compare m [a, b] (b.num < a.num) (a.num ≤ b.num - r.param.toNat))
  | .cmpLt => some (compare m [a, b] (a.num < b.num) (b.num + r.param.toNat ≤ a.num))
  | .inrange =>
    match badOf [a, b] with
    | some x => some { out x.b [a, b] with mem := { m with q := x.b } }
    | none => some (out (b.num ≤ a.num && a.num ≤ r.param.toInt) [a, b])
  | .select => let x := if c.b then a else b; some ⟨r.fsel, worstOf [c, x], classed r.fsel x.num, m⟩
  | .prove => some (out (provedBy v r b.b) [a, b])
  | .qualgate =>
    let l : BitVec 4 := field r.param 0 4
    if r.fsel = 0 then some ⟨0, 0, bool16 (a.q ≤ l), m⟩
    else
      let cls := if opConst r.w1 then 0 else epClass (v.word (opIn r.w1))
      some (if a.q ≤ l then ⟨cls, entering a, classed cls a.num, m⟩ else ⟨cls, worse 1 (entering b), classed cls b.num, m⟩)
  | _ => none

/-- A rule's output as later rules of the cycle read it. A command word reads as an accepted write leaves it. [log 69: DEDUCED, unsafe] -/
def CycleView.put (v : CycleView) (a : BitVec 20) (q cls : BitVec 4) (x : W16) : CycleView :=
  let w := v.word a
  if epQual w = q && epClass w = cls && epValue w = x then v
  else { v with overlay := (a, epWord (epSeq w + 1) q cls x) :: v.overlay }

/-- A computed output put where OUT_MODE says (R324); under HOLD_BAD the VALUE is kept and only QUAL is written. [log 69: DEDUCED, unsafe] -/
def output (cy : Cycle) (i : Nat) (r : RuleRec) (k : Computed) : Cycle :=
  let hold := 8 ≤ k.q && r.holdBad
  let held := cy.view.word r.out
  match r.outMode.toNat with
  | 1 =>
    let x := if hold then epValue held else k.v
    { cy with view := cy.view.put r.out k.q k.cls x, acts := cy.acts ++ [.put r.out k.q k.cls x] }
  | 2 => if hold then cy else { cy with view := cy.view.put r.out qGood 5 k.v, acts := cy.acts ++ [.write i r.out k.v] }
  | 3 =>
    if hold then (match k.mem.issued with | some x => { cy with acts := cy.acts ++ [.remote i r.out x] } | none => cy)
    else { cy with view := cy.view.put r.out qGood 5 k.v, acts := cy.acts ++ [.remote i r.out k.v] }
  | _ => cy

/-- VALUE that PVAL shows: the output's, kept under HOLD_BAD. -/
def shownValue (cy : Cycle) (r : RuleRec) (k : Computed) : W16 :=
  if 8 ≤ k.q && r.holdBad then (if r.outMode = 3 then k.mem.issued.getD 0 else epValue (cy.view.word r.out)) else k.v

/-- Rule `i` executed (R319 step 3). -/
def runRule (rules : List RuleRec) (groups : List AspectGroup) (el : Nat) (target : W64) (cy : Cycle) (i : Nat) (r : RuleRec) : Cycle :=
  match opcOf r.opc with
  | none | some .nop | some .end_ => cy
  | some o =>
    let v := cy.view
    let m := cy.mem.getD i {}
    let a := v.read r.w1
    let b := v.read r.w2
    let c := match rules[i + r.aux.toNat]? with | some x => v.read x.w1 | none => ⟨0, false, 0, false⟩
    let p := m.prev.getD a.b
    let m1 := { m with prev := some a.b }
    match o with
    | .emit =>
      { cy with mem := cy.mem.set i m1
                acts := if (r.fsel = 0 && a.b && !p) || (r.fsel ≠ 0 && a.b != p) then
                  cy.acts ++ [.emit i (BitVec.ofNat 7 r.param.toNat).toFin a.b] else cy.acts }
    | .fence => { cy with mem := cy.mem.set i m1, acts := if a.b && !p then cy.acts ++ [.fence i r.param] else cy.acts }
    | .aspect =>
      match groups.findIdx? fun x => x.groupId.toNat = r.aux.toNat with
      | none => cy
      | some k => match groups[k]? with
        | none => cy
        | some x =>
          let n := runAspect v r x (cy.grp.getD k {}) target
          let view := n.writes.foldl (fun y w => y.put (v.base.chEp w.1 0) qGood 5 w.2) v
          let faults := List.replicate n.newBars (RuleAct.fault i 6) ++ (if n.newNoprov then [RuleAct.fault i 5] else [])
          let out : Computed := ⟨1, n.qual, BitVec.ofNat 16 n.sel, m1⟩
          let cy1 := { cy with view := view, grp := cy.grp.set k n.grp
                               acts := cy.acts ++ n.writes.map (fun w => .write i (v.base.chEp w.1 0) w.2) ++ faults }
          { output cy1 i r out with mem := cy.mem.set i { m1 with value := shownValue cy1 r out, qual := n.qual } }
    | _ => match compute v r o m1 a b c p el with
      | none => { cy with mem := cy.mem.set i m1 }
      | some k => { output cy i r k with mem := cy.mem.set i { k.mem with value := shownValue cy r k, qual := k.q } }

def runRules (rules : List RuleRec) (groups : List AspectGroup) (el : Nat) (target : W64) : List RuleRec → Nat → Cycle → Cycle
  | [], _, cy => cy
  | r :: rs, i, cy => runRules rules groups el target rs (i + 1) (runRule rules groups el target cy i r)

/-! ## Step 4: writes, fences and events -/

/-- The endpoint still shows the refusal of `v` as rule `i` asked it (R340). -/
def refusalShown (s : State) (i : Nat) (a : BitVec 20) (v : W16) : Bool := (s.ruleMem i).refused.contains (a, v, s.ep a)

/-- What rule `i` remembers of its write of `v` to endpoint `a`: the word that shows a refusal, or nothing. -/
def noteWrite (s : State) (i : Nat) (a : BitVec 20) (v : W16) (refused : Bool) : State :=
  let now : List (BitVec 20 × W16 × W32) := if refused then [(a, v, s.ep a)] else []
  s.modRule i fun m => { m with refused := (m.refused.filter fun x => x.1 ≠ a) ++ now }

/-- The owning chapter refused what a mode-2 write asked (Table 12-9). -/
def commandRefused (s : State) (a : BitVec 20) : Bool :=
  let o := offsetOf s.localBase a
  let n : Chan := ⟨o / 0x80 % 16, Nat.mod_lt _ (by decide)⟩
  o < 0x800 && (if o % 0x80 = 0x20 then s.loop[n].alarmBad else s.ch[n].cmdBad)

/-- A mode-2 write, when the word differs from the one held (R324) and its refusal is not what the endpoint shows (R340). -/
def ruleCommand (s : State) (i : Nat) (a : BitVec 20) (v : W16) : State :=
  if refusalShown s i a v || (epValue (s.ep a) = v && !commandRefused s a) then s
  else
    let r := ownerWrite s a v
    if r.2 ≠ 0 then noteWrite (ruleFault (recordRefusal r.1 a r.2 1) i 1) i a v true
    else if commandRefused r.1 a then noteWrite (ruleFault r.1 i 1) i a v true
    else noteWrite r.1 i a v false

/-- A mode-3 write is issued: a new value, one refused with BUSY, or once a second after another failure (R324). [log 84: DEDUCED, unsafe] -/
def issueDue (s : State) (i : Nat) (v : W16) : Bool :=
  let m := s.ruleMem i
  m.issued ≠ some v || m.ended = rsBusy || (m.ended ≠ 0 && secTicks 1 ≤ s.since m.issueTick)

/-- [log 84: DEDUCED, unsafe] -/
def noteIssue (s : State) (i : Nat) (v : W16) : State :=
  s.modRule i fun m => { m with issued := some v, issueTick := s.tick, ended := 0, failed := m.failed && m.issued = some v,
                                busyRun := if m.ended = rsBusy then m.busyRun else 0 }

/-- The local command writes of a cycle, each with its rule. -/
def localWrites (acts : List RuleAct) : List (Nat × BitVec 20 × W16) :=
  acts.filterMap fun x => match x with | .write i a v => some (i, a, v) | _ => none

/-- The command write of a rule `w.1` to endpoint `w.2.1`. -/
def putWrite (s : State) (w : Nat × BitVec 20 × W16) : State := ruleCommand s w.1 w.2.1 w.2.2

/-- What the cycle asks of channel `n`: its restart, then its command writes (R165). -/
def demandsOf (writes : List (Nat × BitVec 20 × W16)) (s : State) (n : Chan) : State :=
  (writes.filter fun w => offsetOf s.localBase w.2.1 / 0x80 = n.val).foldl putWrite (restartOne s n)

/-- The command writes and restarts of one cycle: the channels in ascending order (R165), then the writes to other endpoints. -/
def cycleDemands (s : State) (writes : List (Nat × BitVec 20 × W16)) : State :=
  (writes.filter fun w => 0x800 ≤ offsetOf s.localBase w.2.1).foldl putWrite ((List.finRange 16).foldl (demandsOf writes) s)

/-- Local outputs, and the mode-3 writes to issue. [log 69: DEDUCED, unsafe] -/
def writeOutputs (s : State) : List RuleAct → List (BitVec 20 × W16) → State × List (BitVec 20 × W16)
  | [], q => (s, q)
  | .put a qual cls v :: l, q => writeOutputs (epPut s a qual cls v) l q
  | .remote i a v :: l, q => if issueDue s i v then writeOutputs (noteIssue s i v) l (q ++ [(a, v)]) else writeOutputs s l q
  | .fault i c :: l, q => writeOutputs (ruleFault s i c) l q
  | _ :: l, q => writeOutputs s l q

/-- Deferred fences placed while there is room, in table order (R329). -/
def placeDeferred (s : State) : State :=
  (List.range s.rul.mem.length).foldl (fun a i =>
    if (a.ruleMem i).deferred && a.img.fencesLocal.length < 8 then
      match a.rules[i]? with
      | some r => (placeFence (a.modRule i fun m => { m with deferred := false }) r.param (.rule i) fullBudget).1
      | none => a
    else a) s

/-- A FENCE rule's rising edge: placed, deferred, or merged into the one it holds (R329). -/
def ruleFence (s : State) (i : Nat) (tag : W16) : State :=
  if (s.ruleMem i).deferred then { s with rul := { s.rul with merged := satInc s.rul.merged } }
  else
    let r := placeFence s tag (.rule i) fullBudget
    if r.2 then r.1 else ruleFault (r.1.modRule i fun m => { m with deferred := true }) i 4

def placeFences (s : State) (acts : List RuleAct) : State :=
  acts.foldl (fun a x => match x with | .fence i tag => ruleFence a i tag | _ => a) s

/-- R328: DETAIL carries the rule's index and its input. -/
def raiseEmits (s : State) (acts : List RuleAct) : State :=
  acts.foldl (fun a x => match x with | .emit i src b => raise a src (putN 0 14 i ||| putB 16 b) | _ => a) s

/-! ## The cycle -/

/-- The COMMANDs of a cycle are gathered from here. -/
def gatherCommands (s : State) : State := { s with bw := { s.bw with gathering := true } }

/-- The COMMANDs gathered take one target tick `t` and wait for tick `e`, where step 4 ends (R319 step 5). -/
def retarget (s : State) (e : Nat) (t : W64) : State :=
  let f (b : L2F) : L2F := match b with | .command acts _ => .command acts t | x => x
  { s with bw := { s.bw with gathering := false, stepFive := s.bw.stepFive.map f, stepFiveAt := e } }

/-- Step 5 of R319: the last cycle's COMMANDs, once its step 4 has ended. -/
def issueStepFive (s : State) : State :=
  if s.execRuns && s.bw.stepFiveAt ≤ s.tick.toNat then s.bw.stepFive.foldl bwSend { s with bw := { s.bw with stepFive := [] } } else s

/-- The last cycle has completed (R318). -/
def State.cycleDone (s : State) : Bool := s.rul.doneAt ≤ s.tick.toNat

/-- The LEAVE command that waited for the cycle ends. -/
def endLeaving (s : State) : State := match s.m.leaving with
  | some i => mbxEnd { s with m := { s.m with leaving := none } } i rcOk 0
  | none => s

/-- The checkpoint of R79. -/
def writeCheckpoint (s : State) (g : Generation) : State :=
  { s with rul := { s.rul with checkpoint :=
      (some ⟨g.seq, s.rul.mem, s.rul.grp, s.ch.map (·.prot), s.m.mode⟩) } }

/-- What follows the single cycle of LEAVE_SAFE and LEAVE_TRIM, or a configuration afresh: the mode, and every channel commanded to its
rule-computed state (R72, R77, R525). [log 82: DESIGN CHOICE, safe; log 86: DEDUCED, unsafe] -/
def afterCycle (s : State) : State :=
  if s.m.leaving.isSome then
    let cause : Byte := if s.m.mode = .trim then 0x04 else 0x06
    let s := endLeaving s
    let s1 := markSafe { s with m := { s.m with afresh := false, causes := [] } } false
    commandAll (takeCommands (setMode s1 (runMode s1) cause))
  else if s.m.afresh then commandAll (takeCommands (markSafe { s with m := { s.m with afresh := false } } false))
  else s

/-- A rule cycle's times in ticks: its duration, and what passes of it before step 4 ends. Both are free values. [log 81: DEDUCED, unsafe] -/
def cycleTimes (s : State) : (Nat × Nat) × State :=
  let d := s.draw
  let e := d.2.draw
  ((d.1.toNat + 1, e.1.toNat % (d.1.toNat + 2)), e.2)

/-- A rule cycle of generation `g` (R319), whose COMMANDs carry max(b, e) + 1,000, or at a LEAVE_SAFE a tick 100 µs past the cycle's end (R72).
[log 81: DEDUCED, unsafe; log 82: DESIGN CHOICE, safe] -/
def cycle (s : State) (g : Generation) : State :=
  let times := (cycleTimes s).1
  let s := (cycleTimes s).2
  let stepFour := s.tick.toNat + times.2
  let done := s.tick.toNat + times.1
  let held := if s.m.leaving.isSome then done else stepFour
  let target := BitVec.ofNat 64 (max (s.tick.toNat + 10 * g.cycleUs.toNat) held) + leadTicks
  let el := match s.m.leaving, s.rul.lastBoundary with
    | none, some t => (s.since t) / 10
    | _, _ => g.cycleUs.toNat
  let s1 := gatherCommands (flushNormal (recompute (settleMode { s with gov := { s.gov with cycleRefused := false } })))
  let cy := runRules g.rules g.aspects el target g.rules 0 ⟨⟨s1, []⟩, s1.rul.mem, s1.rul.grp, []⟩
  let s1 := cycleDemands (mapPending { s1 with rul := { s1.rul with mem := cy.mem, grp := cy.grp } }) (localWrites cy.acts)
  let r := writeOutputs s1 cy.acts []
  let s3 := raiseEmits (placeFences (placeDeferred (originWrites r.1 1 r.2)) cy.acts) cy.acts
  let us : W16 := satNat 16 (times.1 / 10)
  let s4 := { s3 with
    rul := { s3.rul with lastUs := us, maxUs := if s3.rul.maxUs < us then us else s3.rul.maxUs, cycles := s3.rul.cycles + 1,
                         lastBoundary := if s.m.leaving.isSome then none else some s.tick, doneAt := done,
                         overRun := if s3.rul.overSeen then s3.rul.overRun else 0, overSeen := false }
    pins := { s3.pins with hbeat := if s3.ruleRunning then !s3.pins.hbeat else s3.pins.hbeat } }
  retarget (afterCycle (writeCheckpoint s4 g)) stepFour target

/-- A pending generation is to be applied before the next cycle begins (R52, R54). -/
def generationDue (s : State) : Bool := match s.boot.pend with
  | some p => p.due && s.m.mode ≠ .load && s.recov.reload.isNone && s.recov.stage ≠ .switching
  | none => false

/-- R318: a cycle starts at a boundary in RUN and REDUCED, and for LEAVE_SAFE and LEAVE_TRIM, after a generation due (R52), once the cycle before
it has completed. [log 81: DEDUCED, unsafe] -/
def cycleDue (s : State) (g : Generation) : Bool :=
  s.execRuns && (s.m.mode = .run || s.m.mode = .reduced || s.m.leaving.isSome) && s.tick.toNat % (10 * g.cycleUs.toNat) = 0
  && !generationDue s && s.cycleDone

/-- [log 81: DEDUCED, unsafe] -/
def execRuleCycle (s : State) : Host.Outcome State Fault Refusal :=
  .next (match s.boot.gen with
    | some g => if cycleDue s g then cycle s g else s
    | none => s)

end Sys2Proof.Machine
end

