-- ==== Sys2Proof/Machine/Triad.lean ====
section
/-!
DEFINITION. The Triad (14 R377–R395): disagreements, resynchronisation, retirement, the voting plane's own faults, the survey and the SAFE path.
-/
namespace Sys2Proof.Machine

/-- The voting lanes, lowest first. -/
def votingLanes (t : TriadState) : List LaneIx := (List.finRange 3).filter fun l => t.vote[l]

/-- Lanes vote: the executive's lanes have been released after a passed start check. -/
def State.voting (s : State) : Bool := s.triad.startOk && s.m.run = .running

/-- Two lanes are compared as a pair: paired operation, or a third lane held (R379). -/
def asPair (t : TriadState) : Bool := t.paired || t.held.isSome

/-- The SAFE frame put in the logic→field sender; what it has not started is discarded (R385). [log 94: DEDUCED, unsafe] -/
def sendSafe (s : State) (cause : Byte) (why : BitVec 4) : State :=
  { s with bw := { s.bw with
      waiting := [], stepFive := [], txSeq := s.bw.txSeq + 1, unacked := s.bw.unacked ++ [mkTx s (.safe cause why (s.tick.setWidth 32))] } }

/-- A SAFE entry by the voting plane (R385): no field command passes from here; the executive enters SAFE. SAFE_WHY names the last condition of
Table 14-2. [log 94: DEDUCED, unsafe] -/
def voterSafe (s : State) (cause : Byte) (why : BitVec 4) (event : Bool) : State :=
  let s := { s with triad := { s.triad with safeWhy := why } }
  let s2 := if s.triad.blocked then s
    else
      let s1 := sendSafe s cause why
      { s1 with triad := { s1.triad with blocked := true } }
  let s3 := if event then raise s2 srcVoter (triadWord s2.triad s2.straps.lanemode) else s2
  enterSafe s3 cause none

/-- A disagreement of lane `l` counted and recorded, with its event (R389). [log 93: DEDUCED, unsafe] -/
def recordDis (s : State) (l : LaneIx) (src : DisSource) (plane : BitVec 3) : State :=
  let t := s.triad
  let s1 := { s with triad := { t with
    dis := modAt t.dis l satInc, lastLane := l, lastSource := src.code, lastPlane := plane, lastTick := s.tick.setWidth 32,
    disTicks := modAt t.disTicks l fun x => (s.tick :: x).take 3 } }
  raise s1 (if src = .survey then srcSurvey else srcLaneDisagree) (lastdisWord s1.triad)

/-- Three disagreements of the lane lie within 10 s (R391). -/
def thirdWithin (s : State) (l : LaneIx) : Bool :=
  3 ≤ (s.triad.disTicks[l].filter fun t => s.since t ≤ secTicks 10).length

/-- A lane retired (R391): event 65, LANE_RET, and REDUCED from RUN. -/
def retireLane (s : State) (l : LaneIx) : State :=
  let t := s.triad
  let s1 := { s with triad := { t with vote := setAt t.vote l false, ret := setAt t.ret l true, paired := true, held := none, verFails := 0 } }
  reduce (putTriad (raise s1 srcLaneRetired (triadWord s1.triad s1.straps.lanemode))) 0x07

/-- A lane declared odd while three vote: retired at its third disagreement within 10 s, resynchronised otherwise (R387, R391). -/
def laneOdd (s : State) (l : LaneIx) (src : DisSource) (plane : BitVec 3) : State :=
  let s1 := recordDis s l src plane
  if thirdWithin s1 l then retireLane s1 l
  else
    let t := s1.triad
    putTriad { s1 with triad := { t with vote := setAt t.vote l false, held := some l, verFails := 0 } }

/-- R379: lane `l`'s output bundle differs in plane `plane`. A held or retired lane's outputs are ignored; split boot compares nothing. -/
def execLaneDisagree (l : LaneIx) (plane : Fin 6) (s : State) : Host.Outcome State Fault Refusal :=
  .next (if !s.voting || s.straps.lanemode || !s.triad.vote[l] then s
    else if asPair s.triad then voterSafe s 0x0A 4 false
    else laneOdd s l .output (BitVec.ofNat 3 plane.val))

/-- R377: lane `l` reports itself odd. -/
def execLaneSelfReport (l : LaneIx) (s : State) : Host.Outcome State Fault Refusal :=
  .next (if !s.voting || s.straps.lanemode || !s.triad.vote[l] then s
    else if asPair s.triad then voterSafe s 0x0A 6 false
    else laneOdd s l .selfReport 7)

/-- R382: lane `l`'s sample stayed in the minority for `cycles` cycles, each of which counts; at 4,096 the lane is odd. Two lanes alone give no
majority. [log 93: DEDUCED, unsafe] -/
def execIauMinority (l : LaneIx) (cycles : W16) (s : State) : Host.Outcome State Fault Refusal :=
  .next (if !s.voting || s.straps.lanemode || !s.triad.vote[l] || asPair s.triad then s
    else
      let s1 := { s with triad := { s.triad with iau := modAt s.triad.iau l fun x => satAdd x (min cycles.toNat 4096) } }
      if 4096 ≤ cycles.toNat then laneOdd s1 l .inputAgreement 7 else s1)

/-! ## Self-test and survey (R383, R390) -/

/-- The patterns the self-test runs (R383, R396). -/
def patternRun (s : State) (p : Fin 6) : Bool :=
  p = 0 || (!s.straps.lanemode && (if s.triad.paired then p = 5 else p ≠ 5))

/-- A self-test run, which passes or fails in a pattern (R383). -/
def selfTest (s : State) (failing : Option (Fin 6)) : State :=
  let t := { s.triad with patternAlt := !s.triad.patternAlt, testDue := false }
  match failing.filter (patternRun s) with
  | none => { s with triad := { t with tests := t.tests + 1 } }
  | some p => voterSafe { s with triad := { t with fault := true, pattern := BitVec.ofNat 3 p.val } } 0x0B 2 true

/-- A survey's counts; the reference lane's CRC is recorded (R390). [log 27: DESIGN CHOICE, safe] -/
def surveyRun (s : State) (crcs : List W32) (mismatch : Bool) : State :=
  { s with triad := { s.triad with
      surveys := s.triad.surveys + 1, survCrc := crcs.headD s.triad.survCrc, surveyDue := false,
      mismatch := if mismatch then satInc s.triad.mismatch else s.triad.mismatch } }

/-- A survey run on the voting lanes' CRCs, lowest lane first, and what its vote decides (R390). -/
def survey (s : State) (crcs : List W32) : State :=
  match votingLanes s.triad, crcs with
  | [_, _], [x, y] => if x = y then surveyRun s crcs false else voterSafe (surveyRun s crcs true) 0x0A 5 false
  | [a, b, c], [x, y, z] =>
    if x = y && y = z then surveyRun s crcs false
    else if x = y then laneOdd (surveyRun s crcs true) c .survey 7
    else if x = z then laneOdd (surveyRun s crcs true) b .survey 7
    else if y = z then laneOdd (surveyRun s crcs true) a .survey 7
    else voterSafe (surveyRun s crcs true) 0x0B 3 true
  | _, _ => s

/-- What waited for a lane to be rebuilt (R390, Table 14-9): the self-test, then the survey. [log 95: DEDUCED, unsafe] -/
def afterRebuild (s : State) (failing : Option (Fin 6)) (crcs : List W32) : State :=
  let s1 := if s.triad.testDue && s.recov.handover.isNone then selfTest s failing else s
  if s1.triad.surveyDue && s1.execRuns then survey s1 crcs else s1

/-- R387, R388: the rebuilt lane rejoins, is rebuilt again, or is retired; a difference of the pair's copies leads to SAFE. What fell due
meanwhile runs at its end. [log 93: DEDUCED, unsafe] -/
def execResyncComplete (verified pairAgrees : Bool) (failing : Option (Fin 6)) (crcs : List W32) (s : State) :
    Host.Outcome State Fault Refusal :=
  .next (match s.triad.held with
    | none => s
    | some l =>
      if !pairAgrees then voterSafe s 0x0A 4 false
      else if verified then
        let t := s.triad
        afterRebuild (putTriad { s with triad := { t with vote := setAt t.vote l true, held := none, resyncs := satInc t.resyncs, verFails := 0 } })
          failing crcs
      else
        let s1 := recordDis s l .verification 7
        if thirdWithin s1 l || s.triad.verFails ≠ 0 then afterRebuild (retireLane s1 l) failing crcs
        else { s1 with triad := { s1.triad with verFails := 1 } })

/-- R379, R385: no majority, a mismatch or self-report of a pair, or voters that differ. -/
def execVoterFault (f : VoterFault) (s : State) : Host.Outcome State Fault Refusal :=
  .next (if !s.voting then s
    else match f with
      | .noMajority => if asPair s.triad || s.straps.lanemode then s else voterSafe s 0x0B 3 true
      | .pairMismatch => if asPair s.triad && !s.straps.lanemode then voterSafe s 0x0A 4 false else s
      | .pairSelfReport => if asPair s.triad && !s.straps.lanemode then voterSafe s 0x0A 6 false else s
      | .v1v2 => voterSafe { s with triad := { s.triad with fault := true } } 0x0B 1 true)

/-- R383: every 1 ms the voting plane tests itself, in a debug halt too. It waits while a lane is rebuilt and during a handover (R390, R425).
[log 95: DEDUCED, unsafe] -/
def execVoterSelftest (failing : Option (Fin 6)) (s : State) : Host.Outcome State Fault Refusal :=
  .next (if !s.voting || !(s.tick.toNat % 10000 = 0 || s.triad.testDue) then s
    else if s.triad.held.isSome || s.recov.handover.isSome then { s with triad := { s.triad with testDue := true } }
    else selfTest s failing)

/-- R390: every 10 ms a survey, of the voting lanes' CRCs. One that falls due while a lane is rebuilt or the executive stands still runs after.
[log 95: DEDUCED, unsafe] -/
def execStateSurvey (crcs : List W32) (s : State) : Host.Outcome State Fault Refusal :=
  .next (if !s.voting || s.straps.lanemode || !(s.tick.toNat % 100000 = 0 || s.triad.surveyDue) then s
    else if s.triad.held.isSome || !s.execRuns then { s with triad := { s.triad with surveyDue := true } }
    else survey s crcs)

end Sys2Proof.Machine
end

