-- ==== Sys2Proof/Machine/Sram.lean ====
section
/-!
DEFINITION. The SRAM as the debugger addresses it (01 R28, Table 1-8; 14 R398): each region's words over the state that holds its contents.
The places inside a region follow the order in which the host's blocks list the same contents. [log 126: DEDUCED, unsafe]
-/
namespace Sys2Proof.Machine

/-! ## Result rings: 16 bytes for each record, 1,024 records for each path -/

/-- A result block with word `i` replaced. -/
def putResWord (r : ResultBlock) (i : Nat) (v : W32) : ResultBlock :=
  if i = 0 then { r with value := v }
  else if i = 1 then
    { r with valid := bitAt v 0, settling := bitAt v 1, fresh := bitAt v 2, ovr := bitAt v 3, sat := bitAt v 4, calsrc := field v 5 2, seq := field v 16 16 }
  else if i = 2 then { r with ts := v } else { r with fout := v }

/-! ## Event log: 32 bytes for each record, at place LSEQ modulo 8,192 -/

/-- Word `i` of a log record (Table 18-3), but for its CRC, which is the executive's to seal. -/
def recordWord (r : LogRecord) (i : Nat) : W32 :=
  if i = 0 then put 0 r.ltype ||| put 8 r.flags ||| put 16 r.resets else if i = 1 then r.lseq else if i = 6 then r.tickh else r.body.getD (i - 2) 0

/-- A log record with word `i` replaced. -/
def putRecordWord (r : LogRecord) (i : Nat) (v : W32) : LogRecord :=
  if i = 0 then { r with ltype := field v 0 8, flags := field v 8 8, resets := field v 16 16 }
  else if i = 1 then { r with lseq := v }
  else if i = 6 then { r with tickh := v } else { r with body := r.body.set (i - 2) v }

/-- The record held at place `k`. -/
def logHeld (s : State) (k : Nat) : Option LogRecord := s.ev.sramLog.find? fun r => r.lseq.toNat % 8192 = k

/-! ## Regions -/

/-- A word of the executive's own contents as a halt shows it (R386). [log 96: DEDUCED, safe] -/
def ownWord (s : State) (i : Nat) : W32 := Config.laneWord s.triad.shown i

/-- Four bytes of a byte memory over 0, as a word. [log 96: DEDUCED, safe] -/
def wordOf (m : List (Nat × Byte)) (a : Nat) : W32 := BitVec.ofNat 32 (natLE (sreadList stagingEmpty m a 4))

/-- A word that no state of its own holds: as last stored, or the executive's. [log 96: DEDUCED, safe] -/
def otherWord (s : State) (a : Nat) : W32 := match s.triad.sram.find? fun c => c.1 = a with
  | some c => c.2
  | none => ownWord s (0x10000 + a)

/-- The SRAM word at byte offset `a` (Table 1-8). [log 96: DEDUCED, safe; log 126: DEDUCED, unsafe] -/
def sramWord (s : State) (a : Nat) : W32 :=
  if a < 0x400000 then s.ep (BitVec.ofNat 20 (a / 4))
  else if a < 0x500000 then wordOf s.recov.slotImage (a - 0x400000)
  else if a < 0x600000 then otherWord s a
  else if a < 0x700000 then wordOf s.recov.staging (a - 0x600000)
  else if a < 0x780000 then resWord (sread {} s.conv.ring ((a - 0x700000) / 16)) (a / 4 % 4)
  else if a < 0x7C0000 then
    match logHeld s ((a - 0x780000) / 32) with
    | some r => if a / 4 % 8 = 7 then otherWord s a else recordWord r (a / 4 % 8)
    | none => otherWord s a
  else if a < 0x7C4000 then (sread 0 s.conv.coeff ((a - 0x7C0000) / 4)).signExtend 32
  else otherWord s a

/-- A store of a word to SRAM. [log 96: DEDUCED, safe; log 126: DEDUCED, unsafe] -/
def sramStore (s : State) (a : Nat) (v : W32) : State :=
  let other : State := { s with triad := { s.triad with sram := sinsert s.triad.sram a v } }
  if a < 0x400000 then
    let e := BitVec.ofNat 20 (a / 4)
    if s.isLocal e then { s with img := { s.img with words := swrite epUnassigned s.img.words e.toNat v } }
    else { s with img := { s.img with copies := swrite epNoComm s.img.copies e.toNat v } }
  else if a < 0x500000 then
    { s with recov := { s.recov with slotImage := swriteList stagingEmpty s.recov.slotImage (a - 0x400000) (bytesLE v) } }
  else if a < 0x600000 then other
  else if a < 0x700000 then
    { s with recov := { s.recov with staging := swriteList stagingEmpty s.recov.staging (a - 0x600000) (bytesLE v) } }
  else if a < 0x780000 then
    let k := (a - 0x700000) / 16
    { s with conv := { s.conv with ring := swrite {} s.conv.ring k (putResWord (sread {} s.conv.ring k) (a / 4 % 4) v) } }
  else if a < 0x7C0000 then
    let k := (a - 0x780000) / 32
    if a / 4 % 8 = 7 || (logHeld s k).isNone then other
    else { s with ev := { s.ev with sramLog := s.ev.sramLog.map fun r => if r.lseq.toNat % 8192 = k then putRecordWord r (a / 4 % 8) v else r } }
  else if a < 0x7C4000 then { s with conv := { s.conv with coeff := swrite 0 s.conv.coeff ((a - 0x7C0000) / 4) (field v 0 24) } }
  else other

end Sys2Proof.Machine
end

