-- ==== Sys2Proof/Machine/Debug.lean ====
section
/-!
DEFINITION. The TAP and the debugger (14 R398–R402, 19 R514).
-/
namespace Sys2Proof.Machine

/-! ## TAP -/

/-- The identification register (R514). -/
def idcodeValue : W32 := 0x116405A3

/-- A scanned output while EXTEST acts follows its cell of the boundary register, and otherwise its own level (R514). -/
def State.ballLevel (s : State) (cell : Nat) (own : Bool) : Bool := if s.extestActs then bitAt s.triad.boundary cell else own

/-- Levels at the balls HBEAT, TIDE_OUT and IRQ_N, the last low while asserted: cells 17, 51 and 14 of R514's order. SAFE_N and PCYC_N are
not driven by the boundary register. [log 131: DEDUCED, unsafe] -/
def State.hbeatBall (s : State) : Bool := s.ballLevel 17 s.pins.hbeat
def State.tideOutBall (s : State) : Bool := s.ballLevel 51 s.pins.tideOut
def State.irqBall (s : State) : Bool := s.ballLevel 14 (!s.irq)

/-- R514: EXTEST with the cells shifted in. The outputs follow the boundary register while it acts. [log 131: DEDUCED, unsafe] -/
def execExtest (cells : BitVec 69) (s : State) : Host.Outcome State Fault Refusal :=
  .next { s with triad :=
    if s.m.run = .held || s.m.mode = .load then { s.triad with ir := .extest, boundary := cells }
    else { s.triad with ir := .extest, dr := 0 } }

def execIdcode (s : State) : Host.Outcome State Fault Refusal :=
  .next { s with triad := { s.triad with ir := .idcode, dr := idcodeValue.setWidth 69 } }

/-- R398: the balls are captured, and the boundary register is preloaded without effect on them. [log 131: DEDUCED, unsafe] -/
def execSamplePreload (captured preload : BitVec 69) (s : State) : Host.Outcome State Fault Refusal :=
  .next { s with triad := { s.triad with ir := .samplePreload, dr := captured, boundary := preload } }

/-- R398: any value that Table 14-10 does not list selects BYPASS. A listed one, which no well-formed command of this row carries, selects its
own register. -/
def execBypass (ir : BitVec 5) (s : State) : Host.Outcome State Fault Refusal :=
  let i := TapIr.ofCode ir
  .next { s with triad := { s.triad with ir := i, dr := if i = .bypass then 0 else s.triad.dr } }

/-! ## Attachment and halts (R399–R401) -/

/-- What DBG_CTRL captures (Table 14-11). -/
def ctrlWord (t : TriadState) : BitVec 69 :=
  (putB 0 t.attached ||| putB 1 t.halted ||| putB 2 t.lastRefused ||| putB 3 (t.replay.length = 64)).setWidth 69

/-- What DBG_ACCESS captures: DATA, ADDR and ST of the last operation (Table 14-12). -/
def accessWord (t : TriadState) : BitVec 69 := (t.dbgSt ++ t.dbgAddr ++ t.dbgData).setWidth 69

/-- A scan of DBG_CTRL: what stood before its update is captured. -/
def scanCtrl (s : State) : State := { s with triad := { s.triad with ir := .dbgCtrl, dr := ctrlWord s.triad } }

/-- R399: refused in RUN and REDUCED without DEBUG_RUN; counted and reported in either case. -/
def execAttach (s : State) : Host.Outcome State Fault Refusal :=
  .next (
    let no := (s.m.mode = .run || s.m.mode = .reduced) && !s.device.debugRun
    let t := (scanCtrl s).triad
    let s1 := { s with triad := { t with attaches := satInc t.attaches, refused := t.refused || no, lastRefused := no,
                                         attached := t.attached || !no } }
    raise s1 srcDebug (debugWord s1.triad))

/-- R400: a halt is requested through the agreement unit. [log 97: DEDUCED, unsafe] -/
def execHalt (s : State) : Host.Outcome State Fault Refusal :=
  .next { s with triad := { (scanCtrl s).triad with haltReq := s.triad.haltReq || (s.triad.attached && !s.triad.halted) } }

/-- R400, R401: the voting lanes stop, after a resynchronisation or handover in progress. The transmitter sends nothing from here. [log 97: DEDUCED, unsafe] -/
def execTriadHalted (s : State) : Host.Outcome State Fault Refusal :=
  .next (if !s.triad.haltReq || !s.voting || s.triad.held.isSome || s.recov.handover.isSome then s
    else { s with
      triad := { s.triad with halted := true, haltReq := false, haltTick := s.tick, shown := s.triad.shown + 1, image := [] }
      bw := { s.bw with stopped := true }
      rul := { s.rul with lastBoundary := none } })

/-! ## DBG_ACCESS -/

/-- What DBG_ACCESS addresses: an SRAM word, or word `w` of the state image of lane `l` (R398). -/
inductive DbgTarget where
  | sram (a : Nat)
  | lane (l w : Nat)
  deriving DecidableEq, Repr

def dbgTarget (s : State) (addr : W32) : Option DbgTarget :=
  let a := addr.toNat
  if a < 0x800000 then some (.sram (a / 4 * 4))
  else if a < 0x40000000 then none
  else
    let o := a - 0x40000000
    let l := o / 0x1000
    let w := o % 0x1000 / 4
    if o % 4 ≠ 0 || 396 ≤ w then none
    else if s.straps.lanemode then (if l < 3 then some (.lane l w) else none)
    else if l = 0 then some (.lane 0 w) else none

/-- Key of a state word in the image and the replay buffer. -/
def DbgTarget.key : DbgTarget → Nat
  | .sram a => a
  | .lane l w => 0x400 * l + w

def DbgTarget.isSram : DbgTarget → Bool
  | .sram _ => true
  | .lane _ _ => false

/-- A state word as it stands, or as it is read; a buffered SRAM write is read back newest first (R400). -/
def dbgValue (s : State) (t : DbgTarget) : W32 :=
  match t with
  | .sram a => (match s.triad.replay.reverse.find? fun e => e.sram && e.addr = a with
    | some e => e.value
    | none => sramWord s a)
  | .lane _ _ => (match s.triad.image.find? fun c => c.1 = t.key with
    | some c => c.2
    | none => ownWord s t.key)

/-- A scan of DBG_ACCESS: the last operation is captured before the next one is taken. -/
def scanAccess (s : State) : State := { s with triad := { s.triad with ir := .dbgAccess, dr := accessWord s.triad } }

/-- The end of an operation: ADDR and ST (Table 14-12). -/
def dbgDone (s : State) (addr : W32) (st : BitVec 2) : State :=
  { s with triad := { s.triad with dbgAddr := addr, dbgSt := st } }

/-- The debugger may access state: attached and halted (R398). -/
def dbgOpen (t : TriadState) : Bool := t.attached && t.halted

/-- One read, carried out with the lanes halted. -/
def dbgRead (s : State) (addr : W32) : State :=
  if !dbgOpen s.triad then dbgDone s addr 2
  else match dbgTarget s addr with
    | none => dbgDone s addr 2
    | some t => dbgDone { s with triad := { s.triad with dbgData := dbgValue s t } } addr 0

def execDbgRead (addr : W32) (s : State) : Host.Outcome State Fault Refusal := .next (dbgRead (scanAccess s) addr)

/-- A state word of the reference lane, or of the addressed lane in split boot. -/
def putLaneWord (t : TriadState) (k : Nat) (v : W32) : TriadState :=
  { t with image := sinsert t.image k v }

/-- R400: a write is applied to the reference lane and recorded, or only recorded for SRAM. In split boot it applies directly. -/
def dbgWrite (s : State) (addr data : W32) : State :=
  if !dbgOpen s.triad then dbgDone s addr 2
  else match dbgTarget s addr with
    | none => dbgDone s addr 2
    | some t =>
      if !t.isSram && 392 ≤ t.key % 0x400 then dbgDone s addr 2
      else if s.straps.lanemode then
        dbgDone (match t with
          | .sram a => sramStore s a data
          | .lane _ _ => { s with triad := putLaneWord s.triad t.key data }) addr 0
      else if 64 ≤ s.triad.replay.length then dbgDone { s with triad := { s.triad with replayFull := true } } addr 3
      else
        let e : ReplayEntry := { sram := t.isSram, addr := t.key, value := data }
        let t1 := if t.isSram then s.triad else putLaneWord s.triad t.key data
        dbgDone { s with triad := { t1 with replay := t1.replay ++ [e] } } addr 0

def execDbgWrite (addr data : W32) (s : State) : Host.Outcome State Fault Refusal := .next (dbgWrite (scanAccess s) addr data)

/-- Replay (R400): state entries reach the other voting lanes, SRAM entries are stored; the buffer empties and a survey runs, with the lanes'
CRCs. In split boot there is none (R396). [log 95: DEDUCED, unsafe] -/
def replayAll (s : State) (crcs : List W32) : State :=
  let s1 := s.triad.replay.foldl (fun a e => if e.sram then sramStore a e.addr e.value else a) s
  if s1.straps.lanemode then { s1 with triad := { s1.triad with replay := [] } }
  else survey { s1 with triad := { s1.triad with replay := [], surveyDue := true } } crcs

/-- R400: replays, runs one instruction on each lane, and halts again. -/
def execStep (crcs : List W32) (s : State) : Host.Outcome State Fault Refusal :=
  .next (if !dbgOpen s.triad then scanCtrl s
    else
      let s1 := replayAll (scanCtrl s) crcs
      { s1 with triad := { s1.triad with shown := s1.triad.shown + 1, image := [] } })

end Sys2Proof.Machine
end

