-- ==== Sys2Proof/Machine/Filter.lean ====
section
/-!
DEFINITION. The meanings of conversion, filtering and results (08 R209–R238): samples and housekeeping as they arrive, results as they are
produced, ALIGN, and the writes of FLT.PCTLp and of a coefficient.
-/
namespace Sys2Proof.Machine

/-! ## Samples -/

/-- The slot that begins at `ts` lies in the interval of a transient, or of a crossing not yet decided (R103, Table 8-9). [log 64: DEDUCED, unsafe] -/
def inTransient (c : FdChan) (ts : W64) : Bool :=
  (c.crossed.isSome && c.crossTick.toNat ≤ ts.toNat)
  || match c.lastTransient with | some x => x.1.toNat ≤ ts.toNat && ts.toNat < x.2.toNat | none => false

/-- One (I, V) pair of channel `n` whose slot begins at `ts`; none, and any pair of a slot during a path check, repeats the previous samples
(Table 1-5, R139). -/
def feedPair (s : State) (n : Chan) (pair : Option (W16 × W16)) (ts : W64) : State :=
  let t := inTransient (s.fdc n) ts
  let pair := if checkedIn (s.fdc n) s.conv.ebbRate ts 1 then none else pair
  let x := s.conv.path[curPath n]
  let y := s.conv.path[volPath n]
  let i := match pair with | some p => p.1.toInt | none => x.lastCode
  let v := match pair with | some p => p.2.toInt | none => y.lastCode
  feed (feed s (curPath n) i ts t) (volPath n) v ts t

/-- Pairs of consecutive slots, the first beginning at `ts`, fed to the channels of their positions (R210). -/
def feedPairs (s : State) : List (Option (W16 × W16)) → W64 → State
  | [], _ => s
  | p :: ps, ts =>
    let s0 := roundStart s ts
    let s1 := match (maskChans s0)[slotPos s0 ts]? with | some n => feedPair s0 n p ts | none => s0
    feedPairs s1 ps (ts + BitVec.ofNat 64 (slotTicks s0))

/-- The run of slots with an incomplete conversion after those of a frame, and whether it reached three (R217). -/
def missRun (run : Nat) (m : BitVec 14) : Nat × Bool :=
  (List.range 14).foldl (fun a k => let r := if bitAt m k then a.1 + 1 else 0; (r, a.2 || 3 ≤ r)) (run, false)

/-- The SAR converters judged by the completion of a frame's conversions (R217). -/
def judgeSar (s : State) (missI missV : BitVec 14) : State :=
  let i := missRun s.conv.missI missI
  let v := missRun s.conv.missV missV
  let s1 := { s with conv := { s.conv with missI := i.1, missV := v.1, missTickI := if missI = 0 then s.conv.missTickI else some s.tick,
                                           missTickV := if missV = 0 then s.conv.missTickV else some s.tick } }
  let s2 := if i.2 then converterFault s1 0 else s1
  sarRecover (if v.2 then converterFault s2 1 else s2)

/-- R19, R22, R222: a SAMPLE frame; bit k of `missI` and of `missV` says that the conversion of its slot k was not complete. Frames missing
before it are known from its slot counter; up to 4 within 10 ms are filled with each path's previous sample, and more make every result
invalid. Conversions are refused before REF_READY (Table 8-3), and stop at the last-gasp (Table 3-9). [log 64: DEDUCED, unsafe; log 65: DEDUCED, unsafe] -/
def execSampleFrame (h : BwHeader) (firstTick : W64) (missI missV : BitVec 14) (s : State) : Host.Outcome State Fault Refusal :=
  .next (if s.fd.gasping then s else bwTakePlain s false h tySample fun s =>
    let slot := sampleSlot h
    let pairs := samplePairs h
    if !s.fd.refReady then raise s srcRefFault (refstatWord s.conv)
    else if s.conv.mask = 0 then s
    else
      let gap := match s.bw.lastSlot with | some l => (slot - (l + 14)).toNat | none => 0
      let lost := gap / 14
      let recent := s.bw.losses.filter fun x => s.since x.1 < msTicks 10
      let losses := if lost = 0 then recent else (s.tick, lost) :: recent
      let total := (losses.map (·.2)).sum
      let bad := s.bw.sampleBad || (lost ≠ 0 && 4 < total)
      let fill := if lost ≠ 0 && total ≤ 4 then 14 * lost else 0
      let s1 := { s with bw := { s.bw with lastSlot := some slot, losses := losses, lostSample := satAdd s.bw.lostSample lost, sampleBad := bad } }
      let s2 := if bad && !s.bw.sampleBad then dropValid (raiseBw s1) else s1
      let start := firstTick - BitVec.ofNat 64 (fill * slotTicks s)
      feedPairs (judgeSar s2 missI missV) (List.replicate fill none ++ pairs.map some) start)

/-- R22: 10 ms have passed without a lost SAMPLE frame; every scanned path has a synchronising reset (Table 8-6). [log 65: DEDUCED, unsafe] -/
def execSampleLossClear (s : State) : Host.Outcome State Fault Refusal :=
  .next (if s.bw.sampleBad then
      resetAllPaths { s with bw := { s.bw with sampleBad := false, losses := [] } }
    else s)

/-! ## Housekeeping -/

/-- The result of input `h` from its sum of 40 codes (R215, R251) in the millisecond that ended at tick `ended`; its TS is the slot of its last
conversion there. [log 67: DEDUCED, unsafe] -/
def putHk (s : State) (ended : W64) (h : Fin 24) (sum : Nat) : State :=
  let r := hkRec s.otpAt h
  let v := narrow (((sum : Int) - r.1) * r.2.1) 16 + r.2.2.1
  let old := s.conv.hk[h]
  let valid := !s.conv.hkFault
  let b : ResultBlock :=
    { value := toW32 (satSigned 32 v), valid := valid, fresh := true, sat := satSignedFlag 32 v, calsrc := if r.2.2.2 then 1 else 0,
      seq := old.seq + 1, ts := (ended - 250 + BitVec.ofNat 64 (10 * h.val)).setWidth 32, fout := BitVec.ofNat 32 sum }
  { s with conv := { s.conv with
      hk := setAt s.conv.hk h b,
      hkLast := if valid then setAt s.conv.hkLast h (some (b.value, ended)) else s.conv.hkLast,
      hkHist := modAt s.conv.hkHist h fun l => keepHist s.tick (⟨b.value, valid, ended⟩ :: l) } }

/-- `v` lies within `d` of `c`. -/
def within (v c d : Int) : Bool := c - d ≤ v && v ≤ c + d

/-- The test tap judged (R216). [log 66: DEDUCED, unsafe] -/
def judgeTap (s : State) : State :=
  let v := s.conv.hk[(7 : Fin 24)].value.toInt
  if s.conv.hkFault then
    let g := if within v 1250000 12500 then s.conv.tapGood + 1 else 0
    if 10 ≤ g then { s with conv := { s.conv with tapGood := 0, tapBad := 0, hkFault := false, unmon := false } }
    else { s with conv := { s.conv with tapGood := g } }
  else
    let b := if within v 1250000 25000 then 0 else s.conv.tapBad + 1
    let s1 := { s with conv := { s.conv with tapBad := b, tapGood := 0 } }
    if 3 ≤ b then converterFault s1 2 else s1

/-- FREF judged (R214). [log 66: DEDUCED, unsafe] -/
def judgeRef (s : State) : State :=
  let v := s.conv.hk[(5 : Fin 24)].value.toInt
  let s1 := { s with conv := { s.conv with devn := sat16 (divRound ((v - 2500000) * 10000) 2500000) } }
  if s.conv.hkFault then s1
  else if !within v 2500000 25000 then
    if s.conv.refFault then { s1 with conv := { s1.conv with refGood := 0 } }
    else
      let s2 := { s1 with conv := { s1.conv with refFault := true, refGood := 0, faults := satInc s1.conv.faults } }
      evalAll (raise s2 srcRefFault (refstatWord s2.conv))
  else if s.conv.refFault then
    let g := if within v 2500000 12500 then s.conv.refGood + 1 else 0
    if 10 ≤ g then evalAll (resetAllPaths { s1 with conv := { s1.conv with refFault := false, refGood := 0 } })
    else { s1 with conv := { s1.conv with refGood := g } }
  else s1

/-- The case sensor judged (R167). -/
def judgeCase (s : State) : State :=
  let r := s.conv.hk[(6 : Fin 24)]
  if !r.valid then s
  else if r.value.toInt ≥ 110000 then
    if s.gov.pkgHot then s
    else raise { s with gov := { s.gov with pkgHot := true } } srcTemp ((sat16 (divRound r.value.toInt 100)).setWidth 32)
  else if r.value.toInt < 100000 then { s with gov := { s.gov with pkgHot := false } }
  else s

/-- The sums of the millisecond that ended at tick `ended` (R215); `missed` when a conversion was not complete within its slot, which is a
fault (R216). [log 67: DEDUCED, unsafe] -/
def takeSums (s : State) (sums : List (Fin 24 × Nat)) (ended : W64) (missed : Bool) : State :=
  let has (i : Fin 24) : Bool := sums.any fun x => x.1 = i
  let s0 := if missed then converterFault s 2 else s
  let s1 := sums.foldl (fun a x => putHk a ended x.1 x.2) s0
  let s2 := if has 7 then judgeTap s1 else s1
  let s3 := if has 5 then judgeRef s2 else s2
  if has 6 then judgeCase s3 else s3

/-- The last millisecond that has ended at the field die ended at this tick. [log 67: DEDUCED, unsafe] -/
def lastMs (s : State) : W64 := BitVec.ofNat 64 (s.fd.tick.toNat / msTicks 1 * msTicks 1)

/-- The field die forms a HOUSEKEEPING frame of the sums of one millisecond: not while an EVENT frame is due (R20), nor once conversions have
stopped (Table 3-9). -/
def formHk (s : State) (seq : Byte) (sums : List (Fin 24 × Nat)) (missed : Bool) : State :=
  if !fdMaySend s seq || s.fd.gasping || (!s.fd.slack && !s.fd.events.isEmpty) then s else fdSend s (.housekeeping sums (lastMs s) missed)

/-- R215: a HOUSEKEEPING frame; `sums` are what the converters gave when the field die forms it now. -/
def execHousekeepingFrame (h : BwHeader) (sums : List (Fin 24 × Nat)) (missed : Bool) (s : State) : Host.Outcome State Fault Refusal :=
  .next (bwTakeRetx (formHk s h.seq sums missed) h tyHousekeeping fun b s => match b with
    | .housekeeping sums ended missed => takeSums s sums ended missed
    | _ => s)

/-! ## Results -/

/-- A valid result of the trimmed path gathered by the capture in progress, which counts only consecutive ones (R187). -/
def gather (s : State) (p : PathIx) : State :=
  match s.conv.capture with
  | some c =>
    let x := s.conv.path[p]
    if c.point.isSome || trimPathOf s c.ch ≠ p || 16 ≤ c.got.length then s
    else
      let y : TrimSample := { value := x.res.value.toInt, x1 := x.x1, kq := x.kq.toInt, o := x.o.toInt, tj := x.tj }
      { s with conv := { s.conv with capture := some { c with got := if x.res.valid then c.got ++ [y] else [] } } }
  | none => s
where
  trimPathOf (s : State) (n : Chan) : PathIx := if s.ch[n].kind = kindAIV then volPath n else curPath n

/-- NE43_LOW and NE43_HIGH from a valid current result (R185). -/
def judgeNe43 (s : State) (n : Chan) : State :=
  let r := s.cur n
  if s.ch[n].kind ≠ kindAII || !aiNe43 (s.crec n) || !r.valid then s
  else
    let m := Int.natAbs r.value.toInt
    putNe43 s n (m < 360000) (2100000 < m)

/-- R247, R236: the oldest output of path `p` becomes a result. [log 67: DEDUCED, unsafe] -/
def execMainResult (p : PathIx) (s : State) : Host.Outcome State Fault Refusal :=
  .next (match s.conv.path[p].outs with
    | [] => s
    | o :: os =>
      let s1 := gather (takeOutput (s.modPath p fun x => { x with outs := os }) p o) p
      if p.val % 2 = 0 then judgeNe43 s1 (pathChan p) else s1)


/-! ## Writes of the FLT block -/

/-- A swap requested (R225, Table 8-5). [log 68: DEDUCED, unsafe] -/
def requestSwap (s : State) (p : PathIx) (target : Bool) (fade : Nat) : State :=
  let x := s.conv.path[p]
  let len := if fade = 0 then (s.desc p).fade.toNat else fade
  if fade ≠ 0 && (fade < 16 || 4096 < fade) then
    { s with conv := { s.conv with errSwap := true, errPath := BitVec.ofNat 5 p.val } }
  else if x.fade.isSome || x.load.isSome then s.modPath p fun x => { x with pend := some (target, len) }
  else if x.remain ≠ 0 || x.waitAlign then swapNow s p target
  else if target = x.active then s
  else s.modPath p fun x => { x with fade := some { target := target, len := len, i := 0 } }

/-- A write of FLT.PCTLp (Table 8-15): the synchronising reset first, then the swap. -/
def writePctl (s : State) (p : PathIx) (v : W32) : State :=
  let s1 := if bitAt v 2 then syncReset s p else s
  if bitAt v 0 then requestSwap s1 p (bitAt v 1) (field v 16 16 : BitVec 16).toNat else s1

/-- A write of coefficient `t` (R224). [log 115: DEDUCED, unsafe] -/
def writeCoeff (s : State) (p : PathIx) (bank : Bool) (t : BitVec 6) (v : W32) : State :=
  let x := s.conv.path[p]
  if s.m.mode = .load || s.m.mode = .stop then
    { s with conv := { s.conv with errMode := true, errPath := BitVec.ofNat 5 p.val, errBank := bank } }
  else if bank = x.active || x.fade.isSome then
    { s with conv := { s.conv with errBusy := true, errPath := BitVec.ofNat 5 p.val, errBank := bank } }
  else { s with conv := { s.conv with coeff := swrite 0 s.conv.coeff (coeffIx p bank t.toNat) (field v 0 24) } }

end Sys2Proof.Machine
end

