-- ==== Sys2Proof/Machine/Loops.lean ====
section
/-!
DEFINITION. The meanings of output loops (07 R179–R182, 09 R257), the trim buttons (07 R191–R194) and HART (07 R195–R203).
-/
namespace Sys2Proof.Machine

/-! ## Compliance -/

/-- The check of R179 runs: a regulating AO with valid results. -/
def checked (s : State) (n : Chan) (c : FdChan) : Bool := isAO (fdKind c) && c.on && (s.fd.slack || (s.cur n).valid)

/-- R179: a shortfall has held. -/
def execShortfall (n : Chan) (s : State) : Host.Outcome State Fault Refusal :=
  .next (onField s n (checked s n) fun s => report s (.compliance n 0 true))

/-- R179: an excess has held. -/
def execExcess (n : Chan) (s : State) : Host.Outcome State Fault Refusal :=
  .next (onField s n (checked s n) fun s => report s (.compliance n 1 true))

/-- R179: target and current agree; both bits clear. -/
def execComplianceClear (n : Chan) (s : State) : Host.Outcome State Fault Refusal :=
  .next (onField s n (checked s n) fun s => reportStatus (reportStatus s (.compliance n 0 false)) (.compliance n 1 false))

/-- R182: an open output loop. -/
def execAoOpen (n : Chan) (s : State) : Host.Outcome State Fault Refusal :=
  .next (onField s n (checked s n) fun s => report s (.compliance n 2 true))

/-- The headroom V(VLOOP) − R_L × A predicted at the alarm level A of the effective direction, times I_M in 10 nA, is below `uv` µV times I_M;
none without a valid VLOOP (R181). -/
def headroomBelow (s : State) (n : Chan) (uv : Int) : Option Bool :=
  let i : Int := Int.natAbs (s.cur n).value.toInt
  let a : Int := (alarmLevel (s.crec n) s.trim.almsel 1).toNat
  s.vloop.map fun v => v * i - 50 * (s.vol n).value.toInt * a < uv * i

/-- The tick since which `b` has held, when it held since `t`. -/
def heldSince (s : State) (t : Option W64) (b : Option Bool) : Option W64 := if b = some true then some (t.getD s.tick) else none

/-- RLOOP for `uv` µV and `i` in 10 nA, in ohms; it states no value for a negative voltage. [log 165: DESIGN CHOICE, safe] -/
def loopR (s : State) (uv : Int) (i : Nat) : W16 × State :=
  if uv < 0 then (field s.draw.1 0 16, s.draw.2) else (BitVec.ofInt 16 (clampInt 0 0xFFFE (divRound (100 * uv) i)), s)

/-- R181: the loop resistance, on AO-SRC with at least 1 mA and valid results, and the headroom it predicts at the alarm level, which is compared
with its two limits at each estimate. [log 150: DEDUCED, unsafe] -/
def execLoopResistanceEstimate (n : Chan) (s : State) : Host.Outcome State Fault Refusal :=
  let i := Int.natAbs (s.cur n).value.toInt
  .next (if s.execRuns && s.ch[n].kind = kindAOSrc && (s.cur n).valid && (s.vol n).valid && 100000 ≤ i then
      let r := loopR s (s.vol n).value.toInt i
      r.2.modLoop n fun l =>
        { l with rloop := r.1,
                 riskSince := heldSince s l.riskSince (headroomBelow s n 2500000),
                 easeSince := heldSince s l.easeSince ((headroomBelow s n 2600000).map not) }
    else s)

/-- R181: the predicted headroom at the alarm level has stayed below 2.5 V, or at 2.6 V and above, for 1 s. -/
def execAlmRisk (n : Chan) (risk : Bool) (s : State) : Host.Outcome State Fault Refusal :=
  let t := if risk then s.loop[n].riskSince else s.loop[n].easeSince
  .next (if s.execRuns && s.ch[n].kind = kindAOSrc && bitAt s.loop[n].live lAlmRisk ≠ risk && t.any fun t => secTicks 1 ≤ s.since t then
      let s1 := s.modLoop n fun l => setLoop l lAlmRisk risk
      putCommands (if risk then raiseMeasure s1 n 6 0 else s1) n
    else s)

/-- R257: the DAC code of the target in force; sent only when it changes. [log 59: DEDUCED, safe] -/
def execDacRecompute (n : Chan) (s : State) : Host.Outcome State Fault Refusal :=
  .next (if s.execRuns && isAO s.ch[n].kind && s.loop[n].targetOn then
      let s1 := putDac s n
      if s.conv.dac[n] = s1.conv.dac[n] then s1 else command s1 [.dac n s1.conv.dac[n]]
    else s)

/-! ## Buttons -/

/-- R192: a debounced press of ZERO_N or SPAN_N begins, or ends after `ms`; `both` says that both buttons had been held together for 2 s in
it. The field die samples the pins and tells of them in its STATUS frames (R34). -/
def execButtonPress (zero ended : Bool) (ms : Nat) (both : Bool) (s : State) : Host.Outcome State Fault Refusal :=
  .next (reportStatus s (.button zero ended ms both))

/-- R194: a timer of the TRIMLED pattern expires. -/
def execTrimledTimer (s : State) : Host.Outcome State Fault Refusal :=
  let led (p : LedPhase) (low : Bool) : State := { s with trim := { s.trim with led := p }, pins := { s.pins with ledLow := low } }
  .next (if s.m.mode ≠ .trim then led .off false
    else match s.trim.led with
      | .off => s
      | .pulse k true => led (.pulse k false) false
      | .pulse k false => if k < s.trim.armed.val then led (.pulse (k + 1) true) true else led .gap false
      | .gap => ledResume s
      | .success => ledResume s
      | .toggle k low => if k ≤ 1 then ledResume s else led (.toggle (k - 1) (!low)) (!low))

/-! ## HART -/

/-- Polling runs on channel `n` (R198, R200, R204). -/
def hartRuns (s : State) (n : Chan) : Bool :=
  s.execRuns && served s.m.mode && s.ch[n].kind = kindAII && hartEn (s.crec n) && !s.ch[n].retired && s.ch[n].life ≠ .isolated
  && !hartStopped s

/-- A cyclic request for that device waits or is carried. -/
def hartQueued (s : State) (n : Chan) (a : BitVec 4) : Bool :=
  let is (r : HartReq) : Bool := match r with | .poll m b _ | .search m b _ => m = n && b = a | .pass _ _ _ _ _ => false
  s.hart.polls.any is || (List.finRange 4).any fun m => match s.hart.modem[m].txn with | some t => is t.req | none => false

/-- R198: a mapped device that is present falls due for command 3. -/
def execHartPollDue (n : Chan) (poll : BitVec 4) (s : State) : Host.Outcome State Fault Refusal :=
  .next (if hartRuns s n && hartMapped s n poll && s.loop[n].dev[poll.toFin].live && !hartQueued s n poll then
      readyPoll s (.poll n poll s.tick)
    else s)

/-- R198: an absent or unfound device is sought with command 0. -/
def execHartSearch (n : Chan) (poll : BitVec 4) (s : State) : Host.Outcome State Fault Refusal :=
  .next (if hartRuns s n && hartMapped s n poll && !s.loop[n].dev[poll.toFin].live && !hartQueued s n poll then
      readyPoll s (.search n poll s.tick)
    else s)

/-- Modem `modem` takes request `r` with its frame; a pass-through to a device whose unique address is not known has no frame and ends with
TIMEOUT (R195, R203). [log 152: DEDUCED, unsafe] -/
def startTxn (s : State) (modem : Fin 4) (r : HartReq) (retries : Nat) : State :=
  match reqFrame s r with
  | none => passTimeout s r
  | some f =>
    let s1 := { s with hart := { s.hart with modem := modAt s.hart.modem modem fun m => { m with txn := some ⟨r, retries, f⟩ } } }
    match r with
    | .poll n a _ =>
      hartPeriods (modDev s1 n a fun d =>
        { d with lastPoll := some s.tick,
                 periods := match d.lastPoll with | some t => ((s.tick - t).toNat :: d.periods).take 10 | none => d.periods }) n
    | _ => s1

/-- R197: a free modem in service takes the first ready request whose channel has no transaction in progress. [log 63: DEDUCED, unsafe] -/
def execHartTransactionStart (modem : Fin 4) (s : State) : Host.Outcome State Fault Refusal :=
  let m := s.hart.modem[modem]
  let free (r : HartReq) : Bool := (modemOf s.hart r.chan).isNone && hartRuns s r.chan
  .next (if !m.ok || m.txn.isSome then s
    else match s.hart.passes.find? free with
      | some r => startTxn { s with hart := { s.hart with passes := s.hart.passes.erase r } } modem r 0
      | none => match s.hart.polls.find? free with
        | none => s
        | some r => startTxn { s with hart := { s.hart with polls := s.hart.polls.erase r } } modem r (hartRetry (s.crec r.chan)))

/-- A failed attempt: retried at once while retries are left, and the end of the transaction otherwise. -/
def hartFail (s : State) (modem : Fin 4) (t : HartTxn) (f : ChanLoop → ChanLoop) : State :=
  let n := t.req.chan
  let s1 := hartErr (s.modLoop n f) n
  if t.retries ≠ 0 && hartRuns s n then
    { s1 with hart := { s1.hart with modem := modAt s1.hart.modem modem fun m => { m with txn := some { t with retries := t.retries - 1 } } } }
  else hartEnd s1 modem t

/-- Bytes as a little-endian word, padded with 0. [log 62: PRESUMED, unsafe] -/
def packWord (bs : List Byte) : W32 := BitVec.ofNat 32 (natLE (bs.take 4))

/-- Response data as RETURN words. -/
def returnBytes (s : State) (i : SlotIx) (from_ : Nat) (bs : List Byte) : State :=
  (List.range 16).foldl (fun a j =>
    if h : from_ + j < 28 then (if 4 * j < bs.length then mbxReturn a i ⟨from_ + j, h⟩ (packWord (bs.drop (4 * j))) else a) else a) s

/-- The four variables of a command 3 response: a binary32 value after each unit code. [log 62: PRESUMED, unsafe] -/
def hartVars (d : List Byte) : Vector (Option W32) 4 :=
  Vector.ofFn fun v => let b := (d.drop (5 + 5 * v.val)).take 4; if b.length = 4 then some (BitVec.ofNat 32 (natBE b)) else none

/-- R198: a response; a check failure or a communication error (bit 7 of the response code) fails the attempt. [log 62: PRESUMED, unsafe] -/
def execHartResponse (modem : Fin 4) (r : HartFrame) (s : State) : Host.Outcome State Fault Refusal :=
  .next (match s.hart.modem[modem].txn with
    | none => s
    | some t =>
      let n := t.req.chan
      if !r.ok then hartFail s modem t fun l => { l with cntCheck := satInc l.cntCheck }
      else if bitAt r.respCode 7 then
        hartFail (s.modLoop n fun l => { l with lastFds := r.devStatus }) modem t fun l => { l with cntComm := satInc l.cntComm }
      else
        let s1 := (modemFree s modem).modLoop n fun l => { l with lastFds := r.devStatus }
        match t.req with
        | .poll n a _ =>
          putHartChan (modDev s1 n a fun d => { d with lastRead := some s.tick, vars := hartVars r.data, fds := r.devStatus }) n
        | .search n a _ =>
          let d := s1.loop[n].dev[a.toFin]
          let isNew : Bool := match d.unique with | some u => u ≠ r.addr | none => false
          let s2 := hartPeriods (putHartChan (modDev s1 n a fun d =>
            { d.lost with unique := some r.addr, live := true, lastRead := if isNew then none else d.lastRead }) n) n
          let s3 := raiseMeasure s2 n 8 a.toNat
          if isNew then raiseMeasure s3 n 9 a.toNat else s3
        | .pass n a cmd _ slot =>
          let data := r.data.take 64
          let s2 := mbxReturn s1 slot 0 (putN 0 8 data.length ||| putB 8 (64 < r.data.length) ||| put 16 r.respCode ||| put 24 r.devStatus)
          let s3 := mbxEnd (returnBytes s2 slot 1 data) slot rcOk 0
          if cmd = 6 then readyPoll s3 (.search n a s.tick) else s3)

/-- R198: no response begins in time. -/
def execHartTimeout (modem : Fin 4) (s : State) : Host.Outcome State Fault Refusal :=
  .next (match s.hart.modem[modem].txn with
    | none => s
    | some t => hartFail s modem t fun l => { l with cntTimeout := satInc l.cntTimeout })

/-- R195: a burst frame is discarded and counted. -/
def execHartBurst (n : Chan) (s : State) : Host.Outcome State Fault Refusal :=
  .next (if s.m.run = .running && s.ch[n].kind = kindAII && hartEn (s.crec n) then s.modLoop n fun l => { l with cntBurst := satInc l.cntBurst } else s)

/-- R200: the loopback test of an idle modem; one that fails leaves service. With none left polling stops. -/
def execHartModemSelftest (modem : Fin 4) (pass : Bool) (s : State) : Host.Outcome State Fault Refusal :=
  let m := s.hart.modem[modem]
  .next (if m.txn.isSome || !m.ok || pass || !s.execRuns then s
    else
      let s1 := { s with hart := { s.hart with modem := setAt s.hart.modem modem { m with ok := false } } }
      let s2 := raise s1 srcHart (hartmodWord s1.hart &&& 0xF)
      if (List.finRange 4).any fun k => s2.hart.modem[k].ok then s2 else hartHalt s2)

end Sys2Proof.Machine
end

