-- ==== Sys2Proof/Machine/GenOps.lean ====
section
/-!
DEFINITION. Shared operations of a start and of a generation's application: the choice of the configuration copy (R48), the journal (R57), the
sections that act on the executive's side (R53), and what re-adoption reads back (R80).
-/
namespace Sys2Proof.Machine

/-! ## The tick count (R268) -/

/-- The tick count becomes `t`, with the ticks that the state keeps moved along. [log 14: DEDUCED, unsafe] -/
def retick (s : State) (t : W64) : State :=
  let d := t - s.tick
  { s with tick := t
           m := { s.m with t0 := s.m.t0 + d, safeTicks := s.m.safeTicks.map (· + d) }
           clk := { s.clk with goodSince := s.clk.goodSince.map (· + d) }
           recov := { s.recov with wdResets := s.recov.wdResets.map (· + d), wdTick := s.recov.wdTick.map fun x => x.map (· + d),
                                   lanesUpSince := s.recov.lanesUpSince.map (· + d), pcycTick := s.recov.pcycTick + d } }

/-! ## The configuration copy (R48) -/

/-- Copies A and B and the mirror of B. -/
inductive CopyId where
  | a
  | b
  | mirror
  deriving DecidableEq, Repr

def CopyId.ix : CopyId → Fin 3
  | .a => 0 | .b => 1 | .mirror => 2
/-- BOOTSTAT.CFG. -/
def CopyId.code : CopyId → BitVec 2
  | .a => 1 | .b => 2 | .mirror => 3
def CopyId.base : CopyId → Nat
  | .a => copyBase false | _ => copyBase true

/-- The medium a copy lies on. -/
def State.copyAt (s : State) : CopyId → Medium
  | .mirror => s.mirrorAt
  | _ => s.flashAt

def State.copyOk (s : State) (c : CopyId) : Bool := headerOk (s.copyAt c) c.base
def State.seqOf (s : State) (c : CopyId) : W32 := copySeq (s.copyAt c) c.base

/-- MIRROR_B of the descriptor in use. -/
def State.mirrorB (s : State) : Bool := match s.boot.desc with | some d => d.mirrorB | none => false

/-- What stands for copy B: its own header, or a valid mirror's. -/
def State.copyB (s : State) : Option CopyId :=
  if s.copyOk .b then some .b else if s.mirrorB && s.copyOk .mirror then some .mirror else none

/-- The copies in the order in which they are taken: newer first, and the mirror's body after copy B's. -/
def State.copyOrder (s : State) : List CopyId :=
  let bs := match s.copyB with
    | some .b => if s.mirrorB && s.copyOk .mirror then [.b, .mirror] else [.b]
    | some c => [c]
    | none => []
  match s.copyOk .a, s.copyB with
  | true, some x => if newer (s.seqOf .a) (s.seqOf x) then bs ++ [.a] else .a :: bs
  | true, none => [.a]
  | false, _ => bs

/-- The outcome of a selection: the copy taken, the copies' states, whether a schema ended it, and whether an older copy was taken. -/
structure Selection where
  active : Option CopyId
  st : Vector (BitVec 3) 3
  schemaMm : Bool
  older : Bool

/-- With copy B's body failed the mirror is read: its header's failure is recorded (R48 step 5). -/
def triedMirror (s : State) (c : CopyId) (st : Vector (BitVec 3) 3) : Vector (BitVec 3) 3 :=
  if c = .b && s.mirrorB && !s.copyOk .mirror then setAt st 2 3 else st

/-- Copies tried in order. [log 29: DEDUCED, unsafe] -/
def tryCopies (s : State) (h : SlotHeader) (st : Vector (BitVec 3) 3) (older : Bool) : List CopyId → Selection
  | [] => ⟨none, st, false, older⟩
  | c :: cs =>
    let m := s.copyAt c
    if !schemaOk h (copySchema m c.base) then ⟨none, setAt st c.ix 6, true, older⟩
    else match bodyCheck m c.base none none with
      | .valid => ⟨some c, setAt st c.ix 1, false, older⟩
      | .badCrc _ => tryCopies s h (triedMirror s c (setAt st c.ix 4)) true cs
      | .badBody _ => tryCopies s h (triedMirror s c (setAt st c.ix 5)) true cs

/-- States of the copies by their headers: 3 invalid, 2 valid; the mirror's is 7 when there is none and 0 while it is not read. [log 28: DEDUCED, unsafe] -/
def headerStates (s : State) : Vector (BitVec 3) 3 :=
  let f (c : CopyId) : BitVec 3 := if s.copyOk c then 2 else 3
  let mir : BitVec 3 := if !s.mirrorB then 7 else if s.copyOk .b then 0 else f .mirror
  Vector.ofFn fun i => if i = 0 then f .a else if i = 1 then f .b else mir

/-- CONFIG_SELECT. -/
def selectConfig (s : State) (h : SlotHeader) : Selection := tryCopies s h (headerStates s) false s.copyOrder

/-- Event 91 (Table 18-1). -/
def raiseVersion (s : State) (bit : Nat) : State := raise s srcVersion (putN 0 4 (2 ^ bit))

/-! ## The journal (R57) -/

/-- The valid records of both halves with their flash offsets. -/
def journalRecords (m : Medium) : List (Nat × Byte × Byte × Byte × Byte × W32) :=
  ((List.range 8192).map fun i => 0x500000 + 32 * i).filterMap fun a => (journalAt m a).map fun r => (a, r)

/-- A record put in ascending JSEQ order. Of two with equal JSEQ, the one at the higher flash offset is applied later. [log 33: DEDUCED, unsafe] -/
def jInsert (x : Nat × Byte × Byte × Byte × Byte × W32) :
    List (Nat × Byte × Byte × Byte × Byte × W32) → List (Nat × Byte × Byte × Byte × Byte × W32)
  | [] => [x]
  | y :: l => if serialGt y.2.2.2.2.2 x.2.2.2.2.2 then x :: y :: l else y :: jInsert x l

/-- The zero or span point in a record (Table 9-5). -/
def jPoint (m : Medium) (a : Nat) (range qty : Byte) (jseq : W32) : CalPoint :=
  { r := rdI32 m (a + 8), m := rdI32 m (a + 0xC), rt := rdI32 m (a + 0x10), tj := rd32 m (a + 0x14), code := rd16 m (a + 0x18),
    kind := m (a + 0x1A), range := range, qty := qty, jseq := jseq }

/-- The signature in a record (Table 5-8). -/
def jSig (m : Medium) (a : Nat) : Signature :=
  { g := rd32 m (a + 8), i := rd32 m (a + 0xC), v := rd32 m (a + 0x10), nstr := m (a + 0x14), dither := m (a + 0x15), period := m (a + 0x16),
    pair := bitAt (m (a + 0x17)) 0, tj := rd32 m (a + 0x18) }

/-- One record applied. -/
def jApply (m : Medium) (s : State) (x : Nat × Byte × Byte × Byte × Byte × W32) : State :=
  let ty := x.2.1; let ch := x.2.2.1; let range := x.2.2.2.1; let qty := x.2.2.2.2.1; let jseq := x.2.2.2.2.2
  let n : Chan := (field ch 0 4 : BitVec 4).toFin
  if (ty = 1 || ty = 2) && ch.toNat < 16 then
    let span := decide (ty = 2)
    let keep := s.conv.points.filter fun p => !(p.1 = n && p.2.1 = span && p.2.2.range = range && p.2.2.qty = qty)
    { s with conv := { s.conv with points := keep ++ [(n, span, jPoint m x.1 range qty jseq)] } }
  else if ty = 3 && ch.toNat < 16 then s.modCh n fun c => { c with p := { c.p with sig := some (jSig m x.1) } }
  else if ty = 4 then
    { s with conv := { s.conv with points := s.conv.points.filter fun p => !(ch = 0xFF || p.1.val = ch.toNat) } }
  else s

/-- The place after the last one in use of a half. -/
def jEnd (m : Medium) (base : Nat) : Nat :=
  match ((List.range 4096).filter fun i => !(List.range 32).all fun k => m (base + 32 * i + k) = 0xFF).getLast? with
  | some i => base + 32 * (i + 1)
  | none => base

/-- JOURNAL_REPLAY: the records applied in ascending JSEQ order, and where the next one goes. [log 33: DEDUCED, unsafe] -/
def journalReplay (s : State) : State :=
  let m := s.flashAt
  let rs := (journalRecords m).foldl (fun l x => jInsert x l) []
  let s1 := rs.foldl (jApply m) { s with conv := { s.conv with points := [] } }
  match rs.getLast? with
  | some x => { s1 with boot := { s1.boot with jseq := x.2.2.2.2.2 + 1, jplace := jEnd m (journalHalf (decide (journalHalf true ≤ x.1))) } }
  | none => { s1 with boot := { s1.boot with jseq := 0, jplace := jEnd m (journalHalf false) } }

/-! ## Sections on the executive's side (R53) -/

/-- EVENT: enables, classes and routing (R479). -/
def applyEvents (s : State) (g : Generation) : State :=
  { s with ev := { s.ev with src := Vector.ofFn fun i =>
      let w := g.event[i]
      { s.ev.src[i] with enable := bitAt w 0, urgent := bitAt w 1, route := field w 2 2 } } }

/-- LINK: a port whose ROLE is not 0 stands DOWN, one with ROLE 0 is disabled (Table 13-5). -/
def openPorts (s : State) : State :=
  (List.finRange 4).foldl (fun a k =>
    if a.role k = 0 then portLeave a k 8 .disabled
    else if a.port[k].state = .disabled then setPortState a k .down else a) s

/-- CHANNEL: kinds in force. -/
def applyKinds (s : State) (g : Generation) : State :=
  { s with ch := Vector.ofFn fun n => { s.ch[n] with kind := cfgKind g.chan[n] } }

/-- Both banks of every path as a generation gives them. -/
@[irreducible] def genCells (g : Generation) : List (Nat × BitVec 24) := swriteList 0 [] 0 (sreadList 0 g.coeff 0 4096)

/-- FILTER at a start: both banks of every path from the generation, and the scan mask. -/
def applyFilter (s : State) (g : Generation) : State :=
  { s with conv := { s.conv with
      mask := scanMask g, ebbRate := ebbBand s.fd.band, next := none, base := none, coeff := genCells g,
      path := Vector.ofFn fun p =>
        { s.conv.path[p] with active := g.path[p].bank, flip := false, fade := none, pend := none, load := none, loadAfter := none } } }

/-! ## What re-adoption reads back (R80) -/

/-- The status a channel's registers take from the field die; a re-adopted channel that its third declaration isolated stays so.
[log 32: DEDUCED, unsafe; log 157: DEDUCED, unsafe] -/
def readChan (s : State) (n : Chan) : State :=
  let c := s.fdc n
  s.modCh n fun x => { takeChan x c with cmd := c.cmd, oldChar := c.oldChar, safeApp := c.safeOn && !c.retired }

/-- What re-adoption adds: latches, retirement and roles as the field die holds them; the retry state comes from a restored checkpoint.
[log 32: DEDUCED, unsafe] -/
def adoptChan (s : State) (n : Chan) : State :=
  let c := s.fdc n
  s.modCh n fun x =>
    { x with retired := c.retired, roleOf := c.roleOf, map := (List.finRange 16).find? fun m => (s.fdc m).roleOf = some n,
             prot := { x.prot with lat := latchBits c &&& ~~~(1#10 <<< pFlood), pstate := if c.retired then .retired else x.prot.pstate,
                                   retCause := if !c.retired then .notRetired else if x.prot.retCause = .notRetired then .other else x.prot.retCause } }

/-- COMMAND word that gives a DO the command it holds. [log 32: DEDUCED, unsafe] -/
def commandWord : ChanCmd → W16
  | .dark => 0
  | .lit => 1
  | .character k => 2 ||| (k.setWidth 16 <<< 8)
  | .ao code _ _ => code

/-- The command endpoints of channels take the command states read back (R296): an AO's is its target and selection in force. [log 32: DEDUCED, unsafe] -/
def adoptCommands (s : State) : State :=
  (List.finRange 16).foldl (fun a n =>
    let c := a.fdc n
    let set (b : State) (e : BitVec 20) (v : W16) : State :=
      { b with img := { b.img with words := swrite epUnassigned b.img.words e.toNat (epWord 0 (epQual (b.ep e)) 5 v) } }
    if a.ch[n].kind = kindDO then
      (set a (a.chEp n 0) (commandWord c.cmd)).modCh n fun x => { x with cmdWord := commandWord c.cmd }
    else if isAO a.ch[n].kind then
      let a1 := a.modLoop n fun l =>
        { setLoop l lAlarmAct (c.on && c.aoAlarm ≠ 0) with
            cmd := c.aoCode, cmdReg := c.aoCode, alarm := c.aoAlarm, deliver := if c.on then c.aoCode else 0, targetOn := c.on,
            safeTgt := c.safeOn, targetTick := a.tick }
      set (set a1 (a.chEp n 0) c.aoCode) (a.chEp n 0x20) (c.aoAlarm.setWidth 16)
    else a) s

/-- CHECKPOINT_RESTORE (R79): rule state and the groups' bars (R343) when the checkpoint's CRC passes and its SEQ is the generation's; each
channel's retry state only at re-adoption. -/
def restoreCheckpoint (s : State) (g : Generation) (sealed adopted : Bool) : State :=
  match s.rul.checkpoint with
  | some k =>
    if sealed && k.seq = g.seq then
      let s1 := { s with rul := { s.rul with mem := k.mem, grp := k.grp.map fun x => { bar := x.bar } }, m := { s.m with chkpt := true } }
      if adopted then
        { s1 with ch := Vector.ofFn fun n =>
            let p := k.prot[n]
            let q : ChanProt := { pstate := p.pstate, retryN := p.retryN, tokens := p.tokens, retCause := p.retCause, expiry := p.expiry,
                                  refill := p.refill, onTime := p.onTime }
            { s.ch[n] with prot := q } }
      else s1
    else s
  | none => s

/-! ## The log at a start (R489) -/

/-- LSEQ of the log record at place `i` of flash, when valid (R488). -/
def logAt (m : Medium) (i : Nat) : Option W32 :=
  let a := 0x540000 + 32 * i
  if m a = 0xFF || rd32 m (a + 0x1C) ≠ crcOf m (BitVec.ofNat 32 a) a 0x1C then none else some (rd32 m (a + 4))

/-- The first records of the sectors, with their places. -/
def logFirsts (m : Medium) : List (Nat × W32) :=
  ((List.range 2752).map (128 * ·)).filterMap fun i => (logAt m i).map fun l => (i, l)

/-- The newest valid record from place `i` to the end of its sector. -/
def logLast (m : Medium) (best : Nat × W32) : List Nat → Nat × W32
  | [] => best
  | i :: is => match logAt m i with
    | some l => logLast m (if serialGt l best.2 then (i, l) else best) is
    | none => logLast m best is

/-- The end of the log found: place and LSEQ of the next record, and LSEQ of the oldest record in flash. [log 33: DEDUCED, unsafe] -/
def findLog (m : Medium) : Nat × W32 × W32 :=
  match logFirsts m with
  | [] => (0, 0, 0)
  | f :: fs =>
    let newest := fs.foldl (fun a x => if serialGt x.2 a.2 then x else a) f
    let oldest := fs.foldl (fun a x => if serialGt a.2 x.2 then x else a) f
    let last := logLast m newest ((List.range 128).map (newest.1 + ·))
    ((last.1 + 1) % 352256, last.2 + 1, oldest.2)

/-! ## The log in flash (R488, R489) -/

/-- A record's bytes at flash offset `a` (Table 18-3). -/
def logBytes (r : LogRecord) (a : Nat) : List Byte :=
  let b := [r.ltype, r.flags] ++ (bytesLE (put 0 r.resets)).take 2 ++ bytesLE r.lseq ++ ((r.body ++ [0, 0, 0, 0]).take 4).flatMap bytesLE
    ++ bytesLE r.tickh
  b ++ bytesLE (crc32c (BitVec.ofNat 32 a) b)

/-- Records programmed one after another from place `i`; a sector is erased before its first record. [log 125: DEDUCED, unsafe] -/
def logProgram : List LogRecord → List Host.Cell → Nat → List Host.Cell × Nat
  | [], fl, i => (fl, i)
  | r :: rs, fl, i =>
    let a := 0x540000 + 32 * i
    let fl1 := if i % 128 = 0 then sclear fl a (a + 0x1000) else fl
    logProgram rs (swriteList flashErased fl1 a (logBytes r a)) ((i + 1) % 352256)

/-- The next page's first place. -/
def pagePlace (i : Nat) : Nat := (i + 7) / 8 * 8 % 352256

/-- Once there is room again, records lost are recorded (R489). -/
def lossRecord (e : EventRouter) (resets : W16) (tickh : W32) : EventRouter :=
  if e.logLostRun = 0 then e else { logPut e 0x03 0 resets [BitVec.ofNat 32 e.logLostRun, 0, 0, 0] tickh with logLostRun := 0 }

/-- R489: the collected records are programmed; a page they do not fill keeps empty records. [log 125: DEDUCED, unsafe] -/
def flushLog (s : State) : State :=
  if s.ev.sramLog.isEmpty then s
  else
    let r := logProgram s.ev.sramLog s.flash s.ev.logPlace
    let e : EventRouter := { s.ev with sramLog := [], logPlace := pagePlace r.2, logOld := (findLog (sread flashErased r.1)).2.2 }
    { s with flash := r.1, ev := lossRecord e s.recov.resets (field s.tick 32 32) }

end Sys2Proof.Machine
end

