-- ==== Sys2Proof/Machine/ResetOps.lean ====
section
/-!
DEFINITION. Resets and clocks of the logic die: what ends its running (R31, R407, R410, R507), and steps 1 to 5 of its start (03 R62–R65, 14 R394).
-/
namespace Sys2Proof.Machine

/-! ## Resets -/

/-- Causes of DEV.RSTCAUSE (Table 15-13). -/
def rstPowerOn : BitVec 3 := 0
def rstResetN : BitVec 3 := 1
def rstDevice : BitVec 3 := 2
def rstWatchdog : BitVec 3 := 3
def rstClock : BitVec 3 := 4

/-- The recovery state after a reset (R408, R411, R412, R436): DEV.RSTCAUSE, the 600 s window and PCYC_N are kept. [log 23: DEDUCED, unsafe; log 35: DEDUCED, unsafe; log 112: DEDUCED, unsafe] -/
def recovAfter (s : State) (cause wd : BitVec 3) : RecovState :=
  let r := s.recov
  let fresh : RecovState := {}
  if cause = rstPowerOn then fresh
  else
    let ticks := if cause = rstWatchdog then s.tick :: r.wdResets else r.wdResets
    let third := cause = rstWatchdog && 3 ≤ (ticks.filter fun t => s.since t < secTicks 600).length
    { fresh with rstCause := cause, rstWd := if cause = rstWatchdog then wd else r.rstWd, wdResets := ticks, step4 := r.step4,
                 step4Next := r.step4Next || third, resets := satInc r.resets, pcyc := r.pcyc && cause ≠ rstResetN }

/-- The Breakwater after a reset: the transmitter has stopped, and no lane is trained. DEV.BWSTAT.RETRAIN and DEV.BWCNT are kept except at
RESET_DEVICE and power-on (R24). [log 22: DEDUCED, unsafe] -/
def bwAfter (s : State) (cause : BitVec 3) : Breakwater :=
  let fresh : Breakwater := {}
  if cause = rstPowerOn || cause = rstDevice then fresh
  else { fresh with retrain := s.bw.retrain, crcErr := s.bw.crcErr, lostSample := s.bw.lostSample }

/-- Mode state after a reset (R88): the last-gasp marks outlast all but power-on, and the rest of DEV.SUPPLY all but RESET_DEVICE too. [log 22: DEDUCED, unsafe] -/
def modeAfter (s : State) (cause : BitVec 3) : ModeState :=
  let fresh : ModeState := {}
  if cause = rstPowerOn then fresh
  else
    let m := { fresh with lastGasp := s.m.lastGasp, gaspCount := s.m.gaspCount, gaspSeen := s.m.gaspSeen }
    if cause = rstDevice then m else { m with band := s.m.band, ebbCount := s.m.ebbCount }

/-- The router after a reset (R489, R500): the SRAM log is kept while its supply is; the started wheels stop, which is told at the start (R277);
a staging item in hand empties there (Table 15-7). [log 34: DEDUCED, unsafe] -/
def eventsAfter (s : State) (cause : BitVec 3) : EventRouter :=
  let fresh : EventRouter := {}
  let e := if cause = rstPowerOn then fresh else { fresh with sramLog := s.ev.sramLog, logSeal := s.ev.logSeal }
  let tide := if cause = rstPowerOn then [] else ((List.finRange 4).filter fun w => s.wheel[w].state ≠ .stopped).map fun w => (srcTide w, 0, s.tick)
  { e with deferred := tide ++ if s.recov.stage = .empty then [] else [(srcStage, 0, s.tick)] }

/-- The logic die reset for `cause` (0 for a lost supply). The field die, the flash and the OTP are untouched. RESET_N and the resets like
it do not clear SRAM (R79). [log 23: DEDUCED, unsafe] -/
def logicReset (s : State) (cause wd : BitVec 3) : State :=
  let fresh : State := {}
  let wasSafe := s.m.mode = .safe || s.m.mode = .stop
  let t : TriadState := {}
  { fresh with
    pending := s.pending, free := s.free, tick := s.tick, flash := s.flash, mirror := s.mirror, otp := s.otp
    fd := { s.fd with fromSafe := s.fd.fromSafe || (wasSafe && s.fd.ident.isSome) }
    boot := { fresh.boot with unapplied := s.boot.unapplied }
    m := modeAfter s cause
    recov := recovAfter s cause wd
    bw := bwAfter s cause
    ev := eventsAfter s cause
    rul := if cause = rstPowerOn then fresh.rul else { fresh.rul with checkpoint := s.rul.checkpoint }
    triad := if cause = rstPowerOn then t
      else { t with sram := s.triad.sram, ir := s.triad.ir, boundary := s.triad.boundary, dr := s.triad.dr }
    mem := { fresh.mem with wel := s.mem.wel }
    time := { fresh.time with sec := if cause = rstPowerOn || cause = rstDevice then 0 else s.time.sec } }

/-- R507: RESET_N asserted, or power lost. PCYC_N is released (R408). [log 23: DEDUCED, unsafe; log 137: DESIGN CHOICE, safe] -/
def execLogicReset (c : ResetCause) (s : State) : Host.Outcome State Fault Refusal :=
  .next (match c with
    | .supply => logicReset s rstPowerOn 0
    | .resetN => if s.m.run = .held then { s with recov := { s.recov with pcyc := false } } else logicReset s rstResetN 0)

/-! ## Start (R62) -/

/-- R62 step 1: t0, the later of PGOOD rising and RESET_N released. Straps are sampled; a failed check of DEV.RSTCAUSE or of the SRAM log's
seal clears what it covers (R412, R489). [log 11: DEDUCED, safe; log 24: DEDUCED, safe; log 25: DEDUCED, unsafe] -/
def execStart (lanemode hcompat : Bool) (boot : BitVec 2) (rstValid logValid : Bool) (s : State) : Host.Outcome State Fault Refusal :=
  .next (if s.m.run ≠ .held then s
    else
      let r := s.recov
      let r := if rstValid then r else { r with rstCause := 0, rstWd := 0, wdResets := [], step4 := false, step4Next := false, resets := 0 }
      let cause : Byte := if r.rstCause = 0 then 0x00 else 0x11
      let s1 := { s with
        straps := { lanemode := lanemode, hcompat := hcompat, boot := boot }
        recov := r
        ev := if logValid then s.ev else { s.ev with sramLog := [], logSeal := false }
        m := { s.m with mode := .load, prev := .load, cause := cause, run := .booting, step := 1, wait := .clocks, t0 := s.tick } }
      if cause = 0 then s1 else raise s1 srcMode (modeWord s1.m))

/-- R65: 50 ms after t0 the clocks are still not valid. -/
def execClockWaitTimeout (s : State) : Host.Outcome State Fault Refusal :=
  .next (if s.m.run = .booting && s.m.step = 1 then raise s srcClock (clkcfgWord s.clk) else s)

/-- DEV.MEMCFG takes the descriptor's values (R478). [log 124: DEDUCED, unsafe] -/
def takeDesc (m : MemPort) (d : BootDesc) : MemPort :=
  { m with xipCmd := d.readCmd, xipLn := if d.loadLanes = 4 then 2 else if d.loadLanes = 2 then 1 else 0,
           xipDiv := field d.loadDiv 0 3, xipDummy := field d.dummy 0 5 }

/-- R38, R39, R62 steps 2 and 3: the tick count starts, the flash is reset (R467) and the boot descriptor is chosen. [log 14: DEDUCED, unsafe] -/
def execClocksValid (s : State) : Host.Outcome State Fault Refusal :=
  .next (if s.m.run ≠ .booting || s.m.step ≠ 1 then s
    else
      let s1 := retick { s with
        clk := { s.clk with xinOk := true, cpllLock := true, lpllLock := true, onMonitor := false, failing := false, goodSince := some s.tick }
        mem := { s.mem with wel := Vector.replicate 2 false } } 0
      match bootDesc s1.flashAt with
      | none => { s1 with m := { s1.m with step := 2, run := .noExec, wait := .endedInLoad } }
      | some d => { s1 with boot := { s1.boot with desc := some d, descCopy := if d.copy1 then 2 else 1 }, mem := takeDesc s1.mem d, m := { s1.m with step := 3, wait := .none } })

/-- The slot image that the executive region holds (R423): header and body of the running slot. -/
def loadSlotImage (s : State) (base len : Nat) : List (Nat × Byte) :=
  swriteList 0 [] 0 (rdBytes s.flashAt base (256 + len))

/-- IDENT bytes 8–11 as the log's start record carries them. -/
def identVersions (s : State) : W32 :=
  let v (o : Option SlotHeader) : W16 := match o with | some h => h.version | none => 0
  put 0 (v s.boot.exec) ||| put 16 (v s.boot.ucode)

/-- The log taken up at a start (R489): its end found, what stands in SRAM first, and a start record before any other. [log 33: DEDUCED, unsafe] -/
def startLog (s : State) : State :=
  let f := findLog s.flashAt
  let pos := match s.ev.sramLog.getLast? with | some r => r.lseq + 1 | none => f.2.1
  let e := { s.ev with logPlace := f.1, logPos := pos, logOld := f.2.2 }
  { s with ev := logPut e 0x02 (if s.ev.logSeal then 0 else 1) s.recov.resets [rstcauseWord s, identVersions s, cfgactWord s.boot, 0]
                   (field s.tick 32 32) }

/-- The pattern of a start check's self-test that failed: P0 to P4, and P0 alone in split boot (R394, R396). -/
def checkFailed (k : StartCheck) (split : Bool) : Option (Fin 6) := k.failing.filter fun p => p = 0 || (!split && p ≠ 5)

/-- Both parts of the start check pass; split boot runs the self-test only (R394, R396). -/
def checkPassed (k : StartCheck) (split : Bool) : Bool := (checkFailed k split).isNone && (split || !k.surveyFails)

/-- START_CHECK (R394): the self-test, and outside split boot one survey (R396), with their counts. [log 26: DEDUCED, unsafe; log 27: DESIGN
CHOICE, safe] -/
def startCheckRun (t : TriadState) (split : Bool) (k : StartCheck) : TriadState :=
  let t1 := match checkFailed k split with
    | none => { t with tests := t.tests + 1 }
    | some p => { t with fault := true, pattern := BitVec.ofNat 3 p.val }
  if split then t1
  else { t1 with surveys := t.surveys + 1, survCrc := Config.surveyCrc t.surveys.toNat,
                 mismatch := if k.surveyFails then satInc t.mismatch else t.mismatch }

/-- R41, R62 step 5, R394: the executive is loaded and its start check has run. Occurrences kept since t0 are raised. [log 26: DEDUCED, unsafe] -/
def execExecutiveLoaded (startCheck : StartCheck) (s : State) : Host.Outcome State Fault Refusal :=
  .next (match s.boot.desc with
    | none => s
    | some d =>
      if s.m.run ≠ .booting || s.m.step.toNat < 3 then s
      else match chooseSlot s.flashAt false d.execSlot d.fallbackExec with
        | none => { s with boot := { s.boot with execNone := true }, m := { s.m with run := .noExec, wait := .endedInLoad } }
        | some (slot, fb, h) =>
          let split := s.straps.lanemode
          let t := startCheckRun s.triad split startCheck
          let s1 := { s with boot := { s.boot with execSlot := slot, execFb := fb }, triad := t }
          if !checkPassed startCheck split then
            { s1 with triad := { t with safeWhy := 7 }, m := { s1.m with run := .noExec, wait := .endedInLoad } }
          else
            let s2 := { s1 with
              boot := { s1.boot with exec := some h }
              triad := { t with startOk := true, vote := Vector.replicate 3 (!split) }
              recov := { s1.recov with slotImage := loadSlotImage s1 (execSlotBase slot) h.length }
              m := { s1.m with run := .running, step := if s1.m.step = 4 then 5 else s1.m.step } }
            takeBuffered (raiseDeferred (startLog s2)))

/-! ## Clocks (R31) -/

/-- R31: XIN or a PLL fails, and both PLLs switch to the monitor. One already on the monitor stays there without XIN, and loses its lock
with a PLL's. DEV.CLKCFG.XIN_OK falls only with XIN. -/
def execXinFailure (f : ClockFault) (s : State) : Host.Outcome State Fault Refusal :=
  .next (if s.m.run = .held || s.m.run = .clockReset || s.m.step.toNat < 2 then s
    else
      let s1 := { s with clk := { s.clk with xinOk := s.clk.xinOk && f ≠ .xin, goodSince := none } }
      if s.clk.failing || (s.clk.onMonitor && f = .xin) then s1
      else { s1 with clk := { s1.clk with cpllLock := false, lpllLock := false, onMonitor := false, failing := true } })

/-- R31: both PLLs have relocked to the monitor: SAFE, ports down, wheels in holdover, event 106. -/
def execMonitorRelock (s : State) : Host.Outcome State Fault Refusal :=
  .next (if !s.clk.failing then s
    else
      let s1 := { s with clk := { s.clk with cpllLock := true, lpllLock := true, onMonitor := true, failing := false } }
      let s2 := portsDown (enterSafe s1 0x0D none) 9
      let s3 := (List.finRange 4).foldl (fun a w => wheelLost a w false) s2
      raise s3 srcClock (clkcfgWord s3.clk))

/-- R31: no relock by the deadline: the clock reset. Event 106 is raised once the executive runs. [log 36: DEDUCED, safe] -/
def execClockReset (s : State) : Host.Outcome State Fault Refusal :=
  .next (if !s.clk.failing then s
    else
      let s1 := logicReset s rstClock 0
      { s1 with m := { s1.m with run := .clockReset }
                ev := { s1.ev with deferred := s1.ev.deferred ++ [(srcClock, clkcfgWord s1.clk, s.tick)] } })

/-- R31: XIN is valid and both PLLs are locked to it: the clock reset ends, or the device leaves the monitor oscillator. [log 36: DEDUCED, safe] -/
def execXinRestored (s : State) : Host.Outcome State Fault Refusal :=
  .next (if s.m.run = .clockReset then { s with m := { s.m with run := .held } }
    else if s.clk.failing then { s with clk := { s.clk with xinOk := true } }
    else if s.clk.onMonitor then
      { s with clk := { s.clk with xinOk := true, cpllLock := true, lpllLock := true, onMonitor := false, goodSince := some s.tick } }
    else s)

end Sys2Proof.Machine
end

