-- ==== Sys2Proof/Machine/Start.lean ====
section
/-!
DEFINITION. Steps 6 to 11 of a start (03 R62–R66, R78–R81, 02 R48–R57): microcode, configuration, journal, the field die, wheels and the mode.
-/
namespace Sys2Proof.Machine

/-- A start that ends in LOAD with the executive running (Table 3-3). A field die whose slack window has ended gets a field reset (Table 3-7). [log 25: DEDUCED, unsafe] -/
def endInLoad (s : State) (cause : Option Byte) : State :=
  let s1 := { s with m := { s.m with wait := .endedInLoad, cause := cause.getD s.m.cause } }
  if s1.fd.slack && s1.fd.expired then bwSend { s1 with m := { s1.m with readopt := .windowEnded } } .fieldReset else s1

/-- States of the copies recorded (R59). [log 28: DEDUCED, unsafe] -/
def recordCopies (s : State) (x : Selection) : State :=
  { s with boot := { s.boot with cfgA := x.st[0], cfgB := x.st[1], cfgM := x.st[2], schemaMm := x.schemaMm } }

/-- Step 6 fails (R55, Table 2-13). A schema out of range is reported with it. [log 28: DEDUCED, unsafe] -/
def startNoUcode (s : State) (h : SlotHeader) : State :=
  let x := selectConfig s h
  let x := match x.active with | some c => { x with st := setAt x.st c.ix 2 } | none => x
  let s1 := recordCopies { s with boot := { s.boot with ucodeMm := true } } x
  endInLoad (raise s1 srcVersion (if x.schemaMm then 3 else 1)) (some 0x12)

/-- Step 6: a field die in slack hold that runs the slot's microcode keeps it; otherwise the window ends, and the microcode is loaded (R80,
Table 3-7). -/
def takeUcode (s : State) (slot fb : Bool) (u : SlotHeader) : State :=
  let s1 := { s with boot := { s.boot with ucodeSlot := slot, ucodeFb := fb, ucode := some u }, m := { s.m with step := 6, wait := .none } }
  let pair := (u.version, u.bodyCrc)
  if s1.fd.slack && s1.fd.ucode = some pair then s1
  else
    let s2 := if s1.fd.slack && !s1.fd.expired then
        applySafeAll { s1 with fd := { s1.fd with expired := true }, m := { s1.m with readopt := .refused } }
      else s1
    { s2 with fd := { s2.fd with ucode := some pair } }

/-- The field die is re-adopted (R80). [log 31: DEDUCED, unsafe] -/
def canAdopt (s : State) (g : Generation) : Bool :=
  s.fd.slack && !s.fd.expired && !s.fd.fromSafe && s.fd.ident = some (g.seq, g.hdrCrc)


/-- READOPT of a start that does not re-adopt, with what Table 3-7 does at step 9. [log 31: DEDUCED, unsafe] -/
def refuseAdopt (s : State) (g : Generation) : State :=
  if s.m.readopt = .refused then s
  else if !s.fd.slack then { s with m := { s.m with readopt := .notInHold } }
  else if s.fd.expired then { s with m := { s.m with readopt := .windowEnded } }
  else if s.fd.fromSafe then { s with m := { s.m with readopt := .notInHold } }
  else
    let s1 := applySafeAll { s with fd := { s.fd with expired := true }, m := { s.m with readopt := .refused } }
    if s.boot.unapplied then s1 else raise s1 srcConfig (put 0 g.seq)

/-- Registers and sections that take the generation at step 9, whichever way the field die is taken. [log 14: DEDUCED, unsafe; log 30: DEDUCED, unsafe] -/
def takeGeneration (s : State) (g : Generation) : State :=
  let s1 := applyFilter (applyKinds (applyEvents s g) g) g
  let s2 := { s1 with
    boot := { s1.boot with applied := true, unapplied := false }
    clk := { s1.clk with clkoutSel := g.device.clkoutSel }
    rul := { s1.rul with wcet := BitVec.ofNat 16 (wcetUs g) } }
  entriesInit (openPorts (rulesReset s2)) fun _ _ => false

/-- The field die at step 9: re-adopted on its tick count with the characters that wait there, or configured afresh (R80). -/
def startDie (s : State) (g : Generation) : State :=
  if canAdopt s g then
    let a := retick (leaveSlack s) s.fd.tick
    { a with m := { a.m with readopt := .readopted }, boot := { a.boot with oldChars := a.fd.oldChars } }
  else configureFresh (refuseAdopt s g) g true

/-- Step 9 (R62, R79, R80). Every scanned path has a synchronising reset (Table 8-6). [log 15: DEDUCED, unsafe; log 31: DEDUCED, unsafe] -/
def startField (s : State) (g : Generation) (sealed : Bool) : State :=
  let adopted := canAdopt s g
  let s2 := restoreCheckpoint (takeGeneration (startDie s g) g) g sealed adopted
  let s3 := if adopted then (List.finRange 16).foldl adoptChan s2 else s2
  let s4 := (List.finRange 16).foldl (fun a n => putDir (putNoSig a n) n) ((List.finRange 16).foldl readChan s3)
  let s5 := initLocal { resetAllPaths s4 with ev := s4.ev }
  let s6 := if adopted then adoptCommands s5 else s5
  { s6 with m := { s6.m with step := 9 } }

/-- A power-cycle request as R408 accepts it: PCYC_WAIT is set and the log still in SRAM is written. A second one changes nothing.
[log 112: DEDUCED, unsafe] -/
def requestPcyc (s : State) : State :=
  if s.recov.pcyc || s.recov.pcycWait then s else flushLog { s with recov := { s.recov with pcycWait := true, pcycTick := s.tick } }

/-- Step 11: the mode of Table 3-1, or step 4 of the recovery ladder (R411). [log 25: DEDUCED, unsafe; log 35: DEDUCED, unsafe] -/
def startMode (s : State) : State :=
  let s1 := { s with m := { s.m with step := 11, wait := .none, elapsedMs := satNat 16 (s.since s.m.t0 / 10000) }
                     recov := { s.recov with step4 := false } }
  if s1.recov.step4Next then
    let s2 := { s1 with
      recov := { s1.recov with step4Next := false, step4 := true, wdLast := s1.recov.rstWd, wdStep := 4 }
      m := { s1.m with causes := [⟨0x0E, none, s1.tick⟩], safeTotal := satInc s1.m.safeTotal } }
    requestPcyc (countSafe (commandSafeAll (setMode (markSafe s2 true) .safe 0x0E)))
  else if bitAt s1.straps.boot 0 then arm (commandSafeAll (setMode s1 .trim 0x02)) none
  else setMode s1 (runMode s1) 0x01

/-- Steps 9 to 11, after the governor's check with the field die's measured state (Table 3-3, R164). [log 29: DEDUCED, unsafe] -/
def startService (s : State) (g : Generation) (x : StartMeasure) : State :=
  if !powerOk g x.vloop x.vfld then endInLoad (raisePower s none) none
  else
    let s1 := startField s g x.sealed
    let s2 := wheelsStart s1 (s1.m.readopt = .readopted)
    startMode { s2 with m := { s2.m with step := 10 }, mem := { s2.mem with bootDec := s2.straps.boot = 3 } }

/-- Steps 7 and 8 with copy `c`: the generation, and the journal. Event 89 tells of an older copy, and of a newer one that no application
brought into force (Tables 2-10, 2-11). [log 30: DEDUCED, unsafe; log 141: DEDUCED, unsafe] -/
def startCopy (s : State) (c : CopyId) (older : Bool) (x : StartMeasure) : State :=
  let g := decGeneration (s.copyAt c) c.base
  let s1 := { s with boot := { s.boot with gen := some g, cfg := c.code, act := c.code }, m := { s.m with step := 7 } }
  let s2 := journalReplay (if older || s1.boot.unapplied then raise s1 srcConfig (put 0 g.seq) else s1)
  let s3 := { s2 with m := { s2.m with step := 8 } }
  if s.straps.boot = 2 then endInLoad s3 (some 0x01) else startService s3 g x

/-- Step 7: the copy selected (R48). [log 30: DEDUCED, unsafe] -/
def startConfig (s : State) (h : SlotHeader) (x : StartMeasure) : State :=
  let sel := selectConfig s h
  let s1 := recordCopies s sel
  match sel.active with
  | some c => startCopy s1 c sel.older x
  | none => if sel.schemaMm then endInLoad (raiseVersion s1 1) (some 0x12) else endInLoad s1 none

/-- R62 steps 6 to 11, once REF_READY has been seen: the microcode is accepted or already runs. After a SAFE entry by the voting plane no frame of
these steps passes, and the field die acts on none (R385). -/
def execMicrocodeAccepted (x : StartMeasure) (s : State) : Host.Outcome State Fault Refusal :=
  .next (match s.boot.desc, s.boot.exec with
    | some d, some h =>
      if !s.execRuns || s.m.mode ≠ .load || s.m.step ≠ 5 || !s.conv.refReady || 3 < s.m.refOnTries || !s.bw.allUp || s.triad.blocked
        || s.fd.safeHeld then s
      else match chooseSlot s.flashAt true d.ucodeSlot d.fallbackUcode with
        | some (slot, fb, u) => if ucodeOk h u.version then startConfig (takeUcode s slot fb u) h x else startNoUcode s h
        | none => startNoUcode s h
    | _, _ => s)

end Sys2Proof.Machine
end

