-- ==== Sys2Proof/Machine/Staging.lean ====
section
/-!
DEFINITION. Staging and what is written from it (15 R418–R421, 02 R49–R51, R55): STAGE_OPEN, STAGE_COMMIT, STAGE_ABORT, WRITE_CONFIG, and the
flash writes they begin.
-/
namespace Sys2Proof.Machine

/-- DEV.STAGE.STATE becomes `st`; a change raises event 90 (R420). [log 135: DEDUCED, unsafe] -/
def setStage (s : State) (st : StageState) : State :=
  let s1 := { s with recov := { s.recov with stage := st } }
  if s.recov.stage = st then s1 else raise s1 srcStage (stageWord s1.recov)

/-! ## Opening and aborting -/

/-- LENGTH lies in the range of its kind (R418). -/
def stageLenOk (k : BitVec 2) (len : Nat) : Bool :=
  len % 4 = 0 && (if k = 0 then 0x200 ≤ len && len ≤ 0x100000
    else if k = 1 then 260 ≤ len && len ≤ 1048576 else 260 ≤ len && len ≤ 16640)

/-- States in which staging is in use (R420). -/
def stageInUse (r : RecovState) : Bool :=
  r.stage = .committing || r.stage = .armed || r.stage = .switching || r.stage = .probation

/-- STAGE_OPEN as taken by slot `i`. [log 106: DEDUCED, unsafe] -/
def runStageOpen (s : State) (i : SlotIx) (tag : W16) : State :=
  mbxRun s i 0x50 tag notStop [(0, 3)] fun s =>
    let k : BitVec 2 := field (s.arg i 0) 0 2
    if stageInUse s.recov || s.recov.filling.isSome then mbxEnd s i rcBusy 0
    else if k = 3 then mbxEnd s i rcInvalid 0
    else if !stageLenOk k (s.arg i 1).toNat then mbxEnd s i rcInvalid 1
    else { s with recov := { s.recov with filling := some i } }

/-- The zero fill ends: staging is OPEN with KIND and LENGTH of the command, and the command ends with OK (R418). [log 106: DEDUCED, unsafe] -/
def execStagingFilled (s : State) : Host.Outcome State Fault Refusal :=
  .next (match s.recov.filling with
    | none => s
    | some i =>
      if !s.execRuns then s
      else
        let len := (s.arg i 1).toNat
        let s1 := { s with recov := { s.recov with
          filling := none, stageKind := field (s.arg i 0) 0 2, stageLen := BitVec.ofNat 21 len, stageEcc := false
          staging := sclear s.recov.staging 0 len } }
        mbxEnd (setStage s1 .opened) i rcOk 0)

/-- STAGE_ABORT (Table 15-7). [log 106: DEDUCED, unsafe] -/
def runStageAbort (s : State) (i : SlotIx) (tag : W16) : State :=
  mbxRun s i 0x52 tag notStop [] fun s =>
    if s.recov.stage = .committing || s.recov.stage = .switching || s.recov.stage = .probation || s.recov.filling.isSome then
      mbxEnd s i rcBusy 0
    else if s.recov.stage = .empty then mbxEnd s i rcOk 0
    else mbxEnd (setStage s .empty) i rcOk 0

/-! ## Writing flash -/

/-- The 4 KiB sectors that `len` bytes from `a` touch erased. -/
@[irreducible] def eraseRange (fl : List Host.Cell) (a len : Nat) : List Host.Cell := sclear fl a (a + (len + 0xFFF) / 0x1000 * 0x1000)

/-- Bytes `lo` to `hi` of a slot or copy `bs` programmed at base `a`. -/
def programPart (fl : List Host.Cell) (a : Nat) (bs : List Byte) (lo hi : Nat) : List Host.Cell :=
  swriteList flashErased fl (a + lo) ((bs.take hi).drop lo)

/-- One step of R49's steps 5 to 7 on the content `bs` of a target at base `a`, whose header is its first `hdr` bytes. -/
@[irreducible] def stepFlash (fl : List Host.Cell) (a : Nat) (bs : List Byte) (hdr : Nat) : JobStep → List Host.Cell
  | .rest => eraseRange fl (a + 0x1000) (bs.length - 0x1000)
  | .body => programPart fl a bs hdr bs.length
  | .headLow => programPart fl a bs 0 0x100
  | .headHigh => programPart fl a bs 0x100 hdr
  | .readBack => fl

/-- The step after a step; a slot header has no second page. -/
def nextStep (image : Bool) : JobStep → JobStep
  | .rest => .body
  | .body => .headLow
  | .headLow => if image then .readBack else .headHigh
  | .headHigh | .readBack => .readBack

/-- Content written over erased sectors. -/
@[irreducible] def writeErased (fl : List Host.Cell) (a : Nat) (bs : List Byte) : List Host.Cell :=
  swriteList flashErased (eraseRange fl a bs.length) a bs

/-- The greater of two sequence numbers under R47, `a` lying lower in flash. -/
def greaterSeq (a b : W32) : W32 := if newer a b then b else a

/-- S of R49 step 3. -/
def greatestSeq (s : State) : W32 :=
  let act := match s.boot.gen with | some g => [g.seq] | none => []
  let copies := [CopyId.a, .b] ++ (if s.mirrorB then [CopyId.mirror] else [])
  match act ++ (copies.filter s.copyOk).map s.seqOf with
  | [] => 0
  | x :: xs => xs.foldl greaterSeq x

/-- Target of R49 step 2: true for copy B. -/
def writeTargetB (s : State) : Bool :=
  if s.boot.act ≠ 0 then s.boot.act = 1
  else match s.copyOk .a, s.copyB with
    | true, some x => !newer (s.seqOf .a) (s.seqOf x)
    | true, none => true
    | false, _ => false

/-- The staged copy with SEQ `seq` and its HDR_CRC (R49 step 3). -/
def stagedCopy (s : State) (seq : W32) : List Byte :=
  let raw := sreadList stagingEmpty s.recov.staging 0 (copyLength s.stageAt 0)
  let hdr := raw.take 8 ++ bytesLE seq ++ (raw.drop 12).take 0x1F0
  hdr ++ bytesLE (crc32c 0 hdr) ++ raw.drop 0x200

/-- A boot descriptor naming slots `e` and `u`, in the copy not in use, with SEQ one greater (R55, R429, R433). -/
def descBytes (d : BootDesc) (e u : Bool) : List Byte :=
  let flags : Byte := BitVec.ofNat 8 ((if d.fallbackExec then 1 else 0) + (if d.fallbackUcode then 2 else 0) + (if d.mirrorB then 4 else 0))
  let b (x : Bool) : Byte := if x then 1 else 0
  let body := bytesLE 0x4442544B ++ [1, 0, flags, 0] ++ bytesLE (d.seq + 1) ++ [b e, b u, d.loadLanes, d.loadDiv, d.readCmd, d.dummy]
    ++ List.replicate 42 0
  body ++ bytesLE (crc32c (if d.copy1 then 0 else 0x1000) body)

/-- Flash with the descriptor copy not in use written (R55). -/
@[irreducible] def descFlash (fl : List Host.Cell) (d : BootDesc) (e u : Bool) : List Host.Cell :=
  writeErased fl (if d.copy1 then 0 else 0x1000) (descBytes d e u)

/-- The descriptor copy not in use written; it is the one in use from then on. -/
def writeDesc (s : State) (ucode slot : Bool) : State :=
  match s.boot.desc with
  | none => s
  | some d =>
    let e := if ucode then d.execSlot else slot
    let u := if ucode then slot else d.ucodeSlot
    { s with flash := descFlash s.flash d e u
             boot := { s.boot with desc := some { d with copy1 := !d.copy1, seq := d.seq + 1, execSlot := e, ucodeSlot := u } } }

/-- Base of an executive or microcode slot. -/
def slotBase (ucode slot : Bool) : Nat := if ucode then ucodeSlotBase slot else execSlotBase slot

/-- The target's header is left erased. -/
def eraseHeader (s : State) : FlashJob → State
  | .config _ _ _ _ b true _ => { s with mirror := eraseRange s.mirror (copyBase b) 0x1000 }
  | .config _ _ _ _ b false _ => { s with flash := eraseRange s.flash (copyBase b) 0x1000, boot := { s.boot with unapplied := false } }
  | .image _ _ u t _ => { s with flash := eraseRange s.flash (slotBase u t) 0x1000 }

/-- A flash write fails (Tables 2-11, 15-8): the target's header stays erased, staging returns to OPEN, event 93. [log 107: DEDUCED, unsafe] -/
def jobFail (s : State) (j : FlashJob) : State :=
  let s1 := setStage (eraseHeader { s with boot := { s.boot with job := none } } j) .opened
  let s2 := raise s1 srcMemErr (memstatWord s1.mem)
  match j with
  | .config i _ _ _ _ _ _ => mbxEnd { s2 with boot := { s2.boot with lastFail := true } } i rcFlash (memstatWord s2.mem)
  | .image i _ _ _ _ => mbxEnd s2 i rcFlash (memstatWord s2.mem)

/-- WRITE_CONFIG has written and read back its copy (R49, R51): staging empties, and with APPLY outside LOAD the copy is pending. -/
def configDone (s : State) (i : SlotIx) (apply : Bool) (tag : W16) (seq : W32) (copyB : Bool) : State :=
  let g := decGeneration s.flashAt (copyBase copyB)
  let s1 := { s with boot := { s.boot with
    job := none, lastFail := false
    pend := if apply && s.m.mode ≠ .load then some ⟨g, tag, false, copyB⟩ else s.boot.pend } }
  mbxReturn (mbxEnd (setStage s1 .empty) i rcOk 0) i 0 seq

/-- A committed slot reads back valid (R421): ARMED, or in LOAD the descriptor at once. -/
def imageDone (s : State) (i : SlotIx) (tag : W16) (ucode target : Bool) : State :=
  let s1 := { s with boot := { s.boot with job := none } }
  let s2 := if s.m.mode = .load then setStage (writeDesc s1 ucode target) .empty
    else setStage { s1 with recov := { s1.recov with stageTag := tag } } .armed
  mbxEnd s2 i rcOk 0

/-- A configuration copy on MCS0_N reads back valid: the mirror of copy B follows, or the write is done (R49). -/
def copyDone (s : State) (i : SlotIx) (apply : Bool) (tag : W16) (seq : W32) (copyB : Bool) : State :=
  if copyB && s.mirrorB then
    { s with mirror := eraseRange s.mirror (copyBase copyB) 0x1000, boot := { s.boot with job := some (.config i apply tag seq copyB true .rest) } }
  else configDone s i apply tag seq copyB

/-- The step of the job in progress has ended with `ok`: its flash content stands, and the next step begins (R49, R421). [log 107: DEDUCED, unsafe] -/
def jobEnd (s : State) (j : FlashJob) (ok : Bool) : State :=
  if !ok then jobFail s j
  else match j with
    | .config i apply tag seq copyB true .readBack => configDone s i apply tag seq copyB
    | .config i apply tag seq copyB false .readBack => copyDone s i apply tag seq copyB
    | .config i apply tag seq copyB true p =>
      { s with mirror := stepFlash s.mirror (copyBase copyB) (stagedCopy s seq) 0x200 p
               boot := { s.boot with job := some (.config i apply tag seq copyB true (nextStep false p)) } }
    | .config i apply tag seq copyB false p =>
      { s with flash := stepFlash s.flash (copyBase copyB) (stagedCopy s seq) 0x200 p
               boot := { s.boot with job := some (.config i apply tag seq copyB false (nextStep false p))
                                     unapplied := s.boot.unapplied || p = .headHigh } }
    | .image i tag ucode target .readBack => imageDone s i tag ucode target
    | .image i tag ucode target p =>
      let bs := sreadList stagingEmpty s.recov.staging 0 s.recov.stageLen.toNat
      { s with flash := stepFlash s.flash (slotBase ucode target) bs 0x100 p
               boot := { s.boot with job := some (.image i tag ucode target (nextStep true p)) } }

/-! ## WRITE_CONFIG and STAGE_COMMIT -/

/-- VLOOP and VFLD as last measured, in mV. -/
def measuredMv (s : State) (h : Fin 24) : Option Nat := s.conv.hkLast[h].map fun v => (v.1.toInt / 1000).toNat

/-- WRITE_CONFIG as taken by slot `i` (R49, R51, R420). [log 104: DEDUCED, unsafe] -/
def runWriteConfig (s : State) (i : SlotIx) (tag : W16) : State :=
  mbxRun s i 0x90 tag notStop [(0, 1), (1, 0xFFFF)] fun s =>
    let m := s.stageAt
    if s.boot.job.isSome || s.boot.pend.isSome || s.recov.filling.isSome then mbxEnd s i rcBusy 0
    else if s.recov.stage ≠ .opened || s.recov.stageKind ≠ 0 then mbxEndFree s i rcInvalid
    else if !headerOk m 0 then mbxEnd s i rcInvalid 0xFFFF
    else match bodyCheck m 0 (measuredMv s 1) (measuredMv s 0) with
      | .badCrc id => mbxEnd s i rcInvalid (putN 0 16 id)
      | .badBody id => mbxEnd s i rcInvalid (putN 0 16 id)
      | .valid =>
        if !(match s.boot.exec with | some h => schemaOk h (copySchema m 0) | none => false) then
          mbxEnd (raiseVersion s 3) i rcVersion (put 0 (copySchema m 0))
        else
          let b := writeTargetB s
          let seq := if greatestSeq s + 1 = 0 then 1 else greatestSeq s + 1
          let s1 := { s with
            flash := eraseRange s.flash (copyBase b) 0x1000
            boot := { s.boot with job := some (.config i (bitAt (s.arg i 0) 0) (field (s.arg i 1) 0 16) seq b false .rest), unapplied := false } }
          setStage s1 .committing

/-- Outcome of the checks of Table 15-8, rows 2 to 5. -/
inductive CommitCheck where
  | invalidHeader
  | invalid
  /-- DETAIL of VERSION_MISMATCH -/
  | version (detail : W32)
  | ok
  deriving DecidableEq, Repr

/-- The rows of Table 15-8 after the first, for the staged slot. [log 104: DEDUCED, unsafe] -/
def commitCheck (s : State) (ucode : Bool) : CommitCheck :=
  let m := s.stageAt
  match slotAt m 0 ucode with
  | none =>
    let len := rdN m 8 4
    if rd32 m 0 = (if ucode then 0x4355544B else 0x5845544B) && rd32 m 0xFC = crcOf m 0 0 0xFC && 4 ≤ len
      && len ≤ (if ucode then 16384 else 1048320) && len % 4 = 0 then .invalid
    else .invalidHeader
  | some h =>
    if h.length + 256 ≠ s.recov.stageLen.toNat then .invalidHeader
    else if ucode then
      if !(match s.boot.exec with | some e => ucodeOk e h.version | none => false) then .version (put 0 h.version ||| putB 16 true)
      else if (slackMsOf s.device).toNat < 100 then .invalid
      else .ok
    else
      match s.boot.ucode with
      | some u => if !ucodeOk h u.version then .version (put 0 u.version ||| putB 16 true) else schemas h
      | none => schemas h
where
  /-- The active and a pending generation's schemas against the new executive's range. -/
  schemas (h : SlotHeader) : CommitCheck :=
    let gs := s.boot.gen.toList ++ (s.boot.pend.map (·.gen)).toList
    match gs.find? fun g => !schemaOk h g.schema with
    | some g => .version (put 0 g.schema)
    | none => .ok

/-- STAGE_COMMIT as taken by slot `i` (R421). [log 104: DEDUCED, unsafe] -/
def runStageCommit (s : State) (i : SlotIx) (tag : W16) : State :=
  mbxRun s i 0x51 tag notStop [(0, 0xFFFF)] fun s =>
    let ucode := decide (s.recov.stageKind = 2)
    if s.recov.stage ≠ .opened || s.recov.stageKind = 0 then mbxEndFree s i rcInvalid
    else if s.boot.job.isSome || s.recov.filling.isSome || s.recov.jobs.any (fun j => j.func = 0x1C) then mbxEnd s i rcBusy 0
    else
      let s1 := setStage s .committing
      match commitCheck s ucode with
      | .invalidHeader => mbxEnd (setStage s1 .opened) i rcInvalid 0xFFFF
      | .invalid => mbxEndFree (setStage s1 .opened) i rcInvalid
      | .version d => mbxEnd (setStage (raiseVersion s1 2) .opened) i rcVersion d
      | .ok =>
        let target := match s.boot.desc with | some d => !(if ucode then d.ucodeSlot else d.execSlot) | none => false
        { s1 with flash := eraseRange s1.flash (slotBase ucode target) 0x1000
                  boot := { s1.boot with job := some (.image i (field (s1.arg i 0) 0 16) ucode target .rest) } }

/-! ## The commands -/

def execStageOpen (slot : SlotIx) (tag : W16) (s : State) : Host.Outcome State Fault Refusal :=
  .next (mbxServed s slot 0x50 tag runStageOpen)
def execStageCommit (slot : SlotIx) (tag : W16) (s : State) : Host.Outcome State Fault Refusal :=
  .next (mbxServed s slot 0x51 tag runStageCommit)
def execStageAbort (slot : SlotIx) (tag : W16) (s : State) : Host.Outcome State Fault Refusal :=
  .next (mbxServed s slot 0x52 tag runStageAbort)
def execWriteConfig (slot : SlotIx) (tag : W16) (s : State) : Host.Outcome State Fault Refusal :=
  .next (mbxServed s slot 0x90 tag runWriteConfig)

end Sys2Proof.Machine
end

