-- ==== Sys2Proof/Machine/Mailbox.lean ====
section
/-!
DEFINITION. The mailbox commands of channels, modes, calibration and HART (18 R491–R495, Table 18-6; 03 R72–R77; 04 R106–R111; 05 R133;
06 R161; 07 R186–R190, R203; 11 R310; 15 R408).
-/
namespace Sys2Proof.Machine

/-- The channel that bits [3:0] of ARG0 name. -/
def argChan (s : State) (i : SlotIx) : Chan := (field (s.arg i 0) 0 4 : BitVec 4).toFin

/-! ## Synchronisation and power -/

def runNop (s : State) (i : SlotIx) (tag : W16) : State := mbxRun s i 0x01 tag notStop [] fun s => mbxEnd s i rcOk 0

/-- FENCE (R310): placed at its acceptance, with the budget of R366. -/
def runFence (s : State) (i : SlotIx) (tag : W16) : State :=
  mbxRun s i 0x10 tag served [(0, 0xFFFF)] fun s =>
    let r := placeFence s (field (s.arg i 0) 0 16) .mailbox fullBudget
    mbxEnd r.1 i (if r.2 then rcOk else rcBusy) 0

def runRequestPowerCycle (s : State) (i : SlotIx) (tag : W16) : State :=
  mbxRun s i 0x22 tag inAll [] fun s => mbxEnd (requestPcyc s) i rcOk 0

def execNop (slot : SlotIx) (tag : W16) (s : State) : Host.Outcome State Fault Refusal := .next (mbxServed s slot 0x01 tag runNop)
def execFence (slot : SlotIx) (tag : W16) (s : State) : Host.Outcome State Fault Refusal := .next (mbxServed s slot 0x10 tag runFence)
def execRequestPowerCycle (slot : SlotIx) (tag : W16) (s : State) : Host.Outcome State Fault Refusal :=
  .next (mbxServed s slot 0x22 tag runRequestPowerCycle)

/-- R408 steps 2 and 3: once no flash write is in progress, or 5 s after the request, PCYC_N is asserted. [log 112: DEDUCED, unsafe] -/
def execPcycAssert (s : State) : Host.Outcome State Fault Refusal :=
  .next (if s.recov.pcycWait && (s.boot.job.isNone || secTicks 5 ≤ s.since s.recov.pcycTick) then
      { s with recov := { s.recov with pcycWait := false, pcyc := true } }
    else s)

/-! ## Retirement, return and mapping -/

/-- RETIRE_CHANNEL (R111). -/
def runRetireChannel (s : State) (i : SlotIx) (tag : W16) : State :=
  mbxRun s i 0x30 tag served [(0, 0xF)] fun s =>
    let n := argChan s i
    if s.ch[n].kind = kindOff || s.ch[n].kind = kindPair then mbxEnd s i rcInvalid 0
    else if s.ch[n].retired then mbxEnd s i rcOk 0
    else mbxEnd (retireChannel s n .command) i rcOk 0

/-- The executive's part of a return (R111, R161): no longer retired, PSTATE CLEAR with a full budget, and no mapping. [log 43: DEDUCED, unsafe] -/
def freshReturn (s : State) (n : Chan) : State :=
  (pairOf s n).foldl (fun a k => a.modCh k fun c =>
    { c with retired := false, mapDue := false, map := none, roleOf := none, cmd := .dark, oldChar := none
             prot := { c.prot with pstate := .clear, retryN := 0, tokens := 15, refill := 0, retCause := .notRetired } }) s

/-- The mapping that channel `n` is in ends: the standby is dark and serves no primary (Table 4-6). -/
def unmapExec (s : State) (n : Chan) : State × List FieldAct :=
  match s.ch[n].map, s.ch[n].roleOf with
  | some m, _ => ((setCmd (s.modCh n fun c => { c with map := none }) m .dark).modCh m fun c => { c with roleOf := none }, [.unmapRole n m])
  | none, some p => ((setCmd (s.modCh p fun c => { c with map := none }) n .dark).modCh n fun c => { c with roleOf := none }, [.unmapRole p n])
  | none, none => (s, [])

/-- The command state a returned channel takes. [log 43: DEDUCED, unsafe] -/
def takeReturned (s : State) (n : Chan) : State :=
  if s.m.mode = .safe then noteSafe s n
  else if !acting s then s
  else if s.ch[n].kind = kindDO && commandable s n then takeDO s n
  else if isAO s.ch[n].kind && s.ch[n].life ≠ .isolated then takeAO s n
  else s

/-- The actions that put the command state of `n` on its output; an AO without an admitted target keeps its safe state. -/
def returnActs (s : State) (n : Chan) : List FieldAct :=
  if isAO s.ch[n].kind && s.m.mode ≠ .safe && !s.loop[n].targetOn then [] else commonAct s n

/-- REDUCED becomes RUN at the return of the last retired channel with no lane retired (Table 3-4). -/
def leaveReduced (s : State) : State :=
  let s1 := putRetired s
  if s1.m.mode = .reduced && !s1.m.chanRet && !s1.m.laneRet then setMode s1 .run 0x09 else s1

/-- Channel `n` returned: at one target tick its standby goes dark and it takes its command state, settling. [log 43: DEDUCED, unsafe] -/
def returnChannel (s : State) (n : Chan) : State :=
  let u := unmapExec s n
  let mapped := !u.2.isEmpty
  let s1 := takeReturned (freshReturn u.1 n) n
  let acts := u.2 ++ [.clearOc n] ++ (pairOf s1 n).map FieldAct.unretire ++ returnActs s1 n
  let s2 := (pairOf s1 n).foldl resetChannel (command s1 acts)
  let s3 := refreshAll (discardAcc s2 n)
  let p := match s.ch[n].map, s.ch[n].roleOf with | none, some p => p | _, _ => n
  leaveReduced (if mapped then raise s3 (chanSrc p 0) (s3.ep (s3.chEp p 1)) else s3)

/-- RETURN_CHANNEL (Table 4-6); a pair's slave returns with its master. -/
def runReturnChannel (s : State) (i : SlotIx) (tag : W16) : State :=
  mbxRun s i 0x31 tag served [(0, 0xF)] fun s =>
    let n := argChan s i
    let n := if s.ch[n].kind = kindPair then masterOf n else n
    if !s.ch[n].retired && s.ch[n].map.isNone then mbxEnd s i rcInvalid 0
    else mbxEnd (returnChannel s n) i rcOk 0

/-- MAP_SPARE (Table 4-6). -/
def runMapSpare (s : State) (i : SlotIx) (tag : W16) : State :=
  mbxRun s i 0x32 tag served [(0, 0xF)] fun s =>
    let p := argChan s i
    let m := cfgStby (s.crec p)
    if !s.ch[p].retired || !cfgStbyEn (s.crec p) || s.ch[p].kind ≠ kindDO then mbxEnd s i rcInvalid 0
    else if s.ch[m].roleOf.isSome && s.ch[m].roleOf ≠ some p then mbxEnd s i rcBusy 0
    else if !standbyReady s m then mbxEnd s i rcInvalid 0
    else mbxEnd (s.modCh p fun c => { c with mapDue := true }) i rcOk 0

def execRetireChannel (slot : SlotIx) (tag : W16) (s : State) : Host.Outcome State Fault Refusal :=
  .next (mbxServed s slot 0x30 tag runRetireChannel)
def execReturnChannel (slot : SlotIx) (tag : W16) (s : State) : Host.Outcome State Fault Refusal :=
  .next (mbxServed s slot 0x31 tag runReturnChannel)
def execMapSpare (slot : SlotIx) (tag : W16) (s : State) : Host.Outcome State Fault Refusal :=
  .next (mbxServed s slot 0x32 tag runMapSpare)

/-! ## Calibration and signatures -/

/-- Modes of R186. -/
def trimModes (m : Mode) : Bool := m = .trim || m = .run || m = .reduced

def runTrimZero (s : State) (i : SlotIx) (tag : W16) : State :=
  mbxRun s i 0x40 tag trimModes [(0, 0xF)] fun s => trimStart s (argChan s i) false (s.arg i 1).toInt (some i)
def runTrimSpan (s : State) (i : SlotIx) (tag : W16) : State :=
  mbxRun s i 0x41 tag trimModes [(0, 0xF)] fun s => trimStart s (argChan s i) true (s.arg i 1).toInt (some i)

def execTrimZero (slot : SlotIx) (tag : W16) (s : State) : Host.Outcome State Fault Refusal :=
  .next (mbxServed s slot 0x40 tag runTrimZero)
def execTrimSpan (slot : SlotIx) (tag : W16) (s : State) : Host.Outcome State Fault Refusal :=
  .next (mbxServed s slot 0x41 tag runTrimSpan)

/-- R187, R189: the capture of channel `n` has gathered its results, or its time has passed. [log 61: DEDUCED, unsafe] -/
def execTrimCaptureComplete (n : Chan) (written : Bool) (s : State) : Host.Outcome State Fault Refusal :=
  .next (match s.conv.capture with
    | some c => if c.ch = n && s.execRuns then trimComplete s c written else s
    | none => s)

/-- RESTORE_FACTORY (R190): 0 to 15, or 0xFF for all. -/
def runRestoreFactory (s : State) (i : SlotIx) (tag : W16) : State :=
  mbxRun s i 0x42 tag served [(0, 0xFF)] fun s =>
    let a := (s.arg i 0).toNat
    if 16 ≤ a && a ≠ 0xFF then mbxEnd s i rcInvalid 0
    else
      let r := restoreFactory s (if a = 0xFF then none else some (chanOf a))
      mbxEnd (mbxReturn r.1 i 2 r.2) i rcOk 0

def execRestoreFactory (slot : SlotIx) (tag : W16) (s : State) : Host.Outcome State Fault Refusal :=
  .next (mbxServed s slot 0x42 tag runRestoreFactory)

/-- The conditions of R133 under which ENROL_SIGNATURE is refused with INVALID. [log 50: DEDUCED, unsafe] -/
def enrolBad (s : State) (n : Chan) : Bool :=
  let c := s.ch[n]
  c.kind ≠ kindDO || !pSndEn (s.crec n) || c.cmdBad || doCommand c.cmdWord ≠ .lit || c.p.flood
  || (match c.p.floodEnd with | some t => s.since t < msTicks 100 | none => false)
  || c.p.win ≠ .pass || c.p.pcFail ≠ 0

/-- ENROL_SIGNATURE (R133). -/
def runEnrolSignature (s : State) (i : SlotIx) (tag : W16) : State :=
  mbxRun s i 0x43 tag (fun m => m = .trim) [(0, 0xF)] fun s =>
    let n := argChan s i
    if enrolBad s n then mbxEnd s i rcInvalid 0
    else if s.boot.job.isSome then mbxEnd s i rcBusy 0
    else
      let s1 := evalLamp (dropEst (discardAcc s n) n) n
      { s1 with enrol := setAt s1.enrol n (some ⟨i, []⟩) }

def execEnrolSignature (slot : SlotIx) (tag : W16) (s : State) : Host.Outcome State Fault Refusal :=
  .next (mbxServed s slot 0x43 tag runEnrolSignature)

/-- The signature enrolled, with the settings in force (Table 5-8). [log 49: DEDUCED, unsafe] -/
def newSignature (s : State) (n : Chan) (g : Int) (i v tj : W32) : Signature :=
  let r := s.crec n
  { g := toW32 g, i := i, v := v, nstr := (pNstr r).setWidth 8, dither := BitVec.ofNat 8 (pDither r), period := BitVec.ofNat 8 (pPeriod r),
    pair := s.isMaster n, tj := tj }

/-- A signature recorded, in force from the next result. [log 49: DEDUCED, unsafe] -/
def recordSignature (s : State) (n : Chan) (g : Signature) : State :=
  let r := journalAppend s 3 (BitVec.ofNat 8 n.val) 0 0 (sigPayload g)
  putNoSig (r.1.modCh n fun c => { c with acc := [], accN := 0, p := { c.p with sig := some g } }) n

/-- R133: the four windows have ended, or their time has passed; with the means measured meanwhile and the outcome of the flash write. [log 49: DEDUCED, unsafe] -/
def execEnrolComplete (n : Chan) (i v tj : W32) (written : Bool) (s : State) : Host.Outcome State Fault Refusal :=
  .next (match s.enrol[n] with
    | none => s
    | some e =>
      if !s.execRuns then s
      else
        let s1 := { s with enrol := setAt s.enrol n none }
        let gs := e.gs.filterMap id
        if gs.length < e.gs.length then mbxEnd s1 e.slot rcUnstable 0xFFFFFFFF
        else if gs.length < 4 then mbxEnd s1 e.slot rcTimeout 0
        else
          let mean := divRound gs.sum 4
          let spread := gs.foldl max (gs.headD 0) - gs.foldl min (gs.headD 0)
          if 50 * spread > mean then mbxEnd s1 e.slot rcUnstable (toW32 spread)
          else if !written then mbxEnd s1 e.slot rcFlash (memstatWord s1.mem)
          else
            let g := newSignature s1 n mean i v tj
            let s2 := recordSignature s1 n g
            mbxEnd (mbxReturn (mbxReturn (mbxReturn s2 e.slot 0 g.g) e.slot 1 i) e.slot 2 v) e.slot rcOk 0)

/-! ## Modes -/

/-- LEAVE_SAFE may be accepted for a recorded cause (Tables 3-6b, 15-4). -/
def causeCleared (s : State) (c : SafeCause) : Bool :=
  if c.code = 0x05 then true
  else if c.code = 0x0D then
    !s.clk.onMonitor && (match s.clk.goodSince with | some t => msTicks 10 ≤ s.since t | none => false)
  else if c.code = 0x0E then
    match c.wd with
    | some k =>
      if k = 1 then s.recov.ruleRestored
      else if k = 2 then (match s.recov.lanesUpSince with | some t => secTicks 10 ≤ s.since t | none => false)
      else false
    | none => false
  else false

/-- The first recorded cause that prevents leaving. [log 94: DEDUCED, unsafe] -/
def safeBlock (s : State) : Option SafeCause := s.m.causes.find? fun c => !causeCleared s c

/-- FORCE_SAFE. -/
def runForceSafe (s : State) (i : SlotIx) (tag : W16) : State :=
  mbxRun s i 0x70 tag trimModes [] fun s => mbxEnd (enterSafe s 0x05 none) i rcOk 0

/-- A LEAVE command waits in its slot for one complete rule cycle; a second one meanwhile finds it taken. [log 86: DEDUCED, unsafe] -/
def beginLeaving (s : State) (i : SlotIx) : State :=
  if s.m.leaving.isSome then mbxEnd s i rcBusy 0 else { s with m := { s.m with leaving := some i } }

/-- LEAVE_SAFE (R72, R73): the mode changes, and the command ends, after one complete rule cycle. [log 86: DEDUCED, unsafe] -/
def runLeaveSafe (s : State) (i : SlotIx) (tag : W16) : State :=
  mbxRun s i 0x71 tag (fun m => m = .safe) [] fun s =>
    match safeBlock s with
    | some c => mbxEnd s i rcCause (put 0 c.code)
    | none => beginLeaving s i

/-- TRIM entered from RUN, REDUCED or SAFE: safe states at one tick, and the armed channel (R77, R191). -/
def enterTrim (s : State) (ask : Option Chan) : State :=
  let s := refuseLeaving (discardReduced s) rcWrongMode (put 0 Mode.trim.code)
  let s1 := if s.m.mode = .safe then markSafe { s with m := { s.m with causes := [] } } false else s
  arm (commandSafeAll (setMode s1 .trim 0x03)) ask

/-- ENTER_TRIM. -/
def runEnterTrim (s : State) (i : SlotIx) (tag : W16) : State :=
  mbxRun s i 0x80 tag (fun m => m = .run || m = .reduced || m = .safe) [(0, 0xFF)] fun s =>
    let a := (s.arg i 0).toNat
    if 16 ≤ a && a ≠ 0xFF then mbxEnd s i rcInvalid 0
    else match if s.m.mode = .safe then safeBlock s else none with
      | some c => mbxEnd s i rcCause (put 0 c.code)
      | none =>
        let s1 := enterTrim s (if a = 0xFF then none else some (chanOf a))
        mbxEnd (mbxReturn s1 i 0 (putN 0 4 s1.trim.armed.val ||| putB 4 s1.trim.armValid)) i rcOk 0

/-- LEAVE_TRIM (R77). [log 86: DEDUCED, unsafe] -/
def runLeaveTrim (s : State) (i : SlotIx) (tag : W16) : State :=
  mbxRun s i 0x81 tag (fun m => m = .trim) [] fun s => beginLeaving s i

def execForceSafe (slot : SlotIx) (tag : W16) (s : State) : Host.Outcome State Fault Refusal :=
  .next (mbxServed s slot 0x70 tag runForceSafe)
def execLeaveSafe (slot : SlotIx) (tag : W16) (s : State) : Host.Outcome State Fault Refusal :=
  .next (mbxServed s slot 0x71 tag runLeaveSafe)
def execEnterTrim (slot : SlotIx) (tag : W16) (s : State) : Host.Outcome State Fault Refusal :=
  .next (mbxServed s slot 0x80 tag runEnterTrim)
def execLeaveTrim (slot : SlotIx) (tag : W16) (s : State) : Host.Outcome State Fault Refusal :=
  .next (mbxServed s slot 0x81 tag runLeaveTrim)

/-! ## HART -/

/-- A pass-through request of channel `n` waits or is carried. -/
def passOutstanding (s : State) (n : Chan) : Bool :=
  let is (r : HartReq) : Bool := r.isPass && r.chan = n
  s.hart.passes.any is || (List.finRange 4).any fun m => match s.hart.modem[m].txn with | some t => is t.req | none => false

/-- The request bytes in ARG1 to ARG16. -/
def passBytes (s : State) (i : SlotIx) (len : Nat) : List Byte :=
  ((List.finRange 16).flatMap fun j => bytesLE (s.arg i ⟨j.val + 1, by omega⟩)).take len

/-- HART_PASS (R203); with no modem in service it ends with TIMEOUT. [log 152: DEDUCED, unsafe] -/
def runHartPass (s : State) (i : SlotIx) (tag : W16) : State :=
  mbxRun s i 0xA0 tag served [(0, 0xFFFF0F0F)] fun s =>
    let a := s.arg i 0
    let n := argChan s i
    let poll : BitVec 4 := field a 8 4
    let cmd : Byte := field a 16 8
    let len := (field a 24 8 : Byte).toNat
    if s.ch[n].kind ≠ kindAII || !hartEn (s.crec n) || s.ch[n].retired || s.ch[n].life = .isolated || poll = 0 || 64 < len
       || (cmd = 6 && s.m.mode ≠ .trim) then mbxEnd s i rcInvalid 0
    else if passOutstanding s n then mbxEnd s i rcBusy 0
    else if !((List.finRange 4).any fun m => s.hart.modem[m].ok) then mbxEnd s i rcTimeout 0
    else { s with hart := { s.hart with passes := s.hart.passes ++ [.pass n poll cmd (passBytes s i len) i] } }

def execHartPass (slot : SlotIx) (tag : W16) (s : State) : Host.Outcome State Fault Refusal :=
  .next (mbxServed s slot 0xA0 tag runHartPass)

end Sys2Proof.Machine
end

