-- ==== Sys2Proof/Machine/Reinit.lean ====
section
/-!
DEFINITION. REINIT, the watchdogs and the recovery ladder (15 R406–R416; 01 R22, R24; 12 R332). What a REINIT undoes of a function's work
happens at its acceptance, and the registers it returns to their reset values do so at its completion.
-/
namespace Sys2Proof.Machine

/-! ## The host port's counted frames (R445) -/

/-- Its counter in HOSTERR advanced. -/
def countHost (h : HostPort) (code : BitVec 4) : HostPort :=
  match code.toNat with
  | 1 => { h with cLength := satInc h.cLength }
  | 2 => { h with cEarly := satInc h.cEarly }
  | 3 => { h with cPartial := satInc h.cPartial }
  | 4 => { h with cExtra := satInc h.cExtra }
  | 5 => { h with cLane := satInc h.cLane }
  | 6 | 7 => { h with cAlign := satInc h.cAlign }
  | 8 => { h with cUnknown := satInc h.cUnknown }
  | _ => { h with cDropped := satInc h.cDropped }

/-- A frame discarded and counted under `code`, with event 92. -/
def hostError (s : State) (code : BitVec 4) (cmd : Byte) (addr : BitVec 24) : State :=
  let h := countHost s.host code
  let s1 := { s with host := { h with discards := h.discards + 1, lastErr := code, lastCmd := cmd, lastAddr := addr } }
  raise s1 srcHostErr (hoststatWord s1)

/-! ## At the acceptance of a REINIT (Table 15-5) -/

/-- The devices of channel `n` are no longer known, and are sought again. -/
def hartForget (s : State) (n : Chan) : State :=
  hartSeek (s.modLoop n fun l => { l with dev := l.dev.map fun d => { d with unique := none } }) n

/-- Function n: the overcurrent latch, the retry state, accumulated evidence and both paths; a lit-commanded switch restarts under R157. [log 38: DEDUCED, unsafe] -/
def reinitChannel (s : State) (n : Chan) : State :=
  let s1 := s.modCh n fun c =>
    let q := setProt (setProt (setProt (setProt c.prot pOc false) pShort false) pBackfeed false) pInLimit false
    { c with held := false
             prot := if c.retired then q else { q with pstate := .clear, retryN := 0 }
             p := { c.p with offCls := .none, agreed := .none, agreeTick := none } }
  let s2 := hartForget s1 n
  let s3 := command (dropEst (discardAcc s2 n) n) [.reinit n]
  tryRestartNow (refresh (evalLamp (resetChannel s3 n) n) n) n

/-- Functions 0x10 to 0x13: the port, with LOSSES of the entries naming it kept (R317). [log 102: DEDUCED, unsafe] -/
def reinitPort (s : State) (k : PortIx) : State :=
  let s1 := portReinit (clearOut s) k 7
  s.entries.foldl (fun a je => if je.2.port = k then modEntry a je.1 fun x => { x with losses := s.img.entry[je.1].losses } else a) s1

/-- Function 0x18. -/
def reinitFilter (s : State) : State :=
  evalAll ((List.finRange 16).foldl dropEst (discardAll (resetAllPaths s)))

/-- Function 0x19: transactions abandoned, pass-through requests ended with TIMEOUT, every device sought again. -/
def reinitHart (s : State) : State :=
  (List.finRange 16).foldl (fun a n => hartForget (hartAbandon a n) n) s

/-- A memory-port error recorded, with event 93. -/
def memError (s : State) (code : BitVec 3) : State :=
  let s1 := { s with mem := { s.mem with lastErr := code, errors := satInc s.mem.errors } }
  raise s1 srcMemErr (memstatWord s1.mem)

/-- Function 0x1C: queue cleared, the operation in progress abandoned with the flash write it served; LAST_ERR 4 and, for a frame or a
flash write abandoned, event 93 (R471, R478, Table 2-11). -/
def reinitMemory (s : State) : State :=
  let s1 := { s with mem := { s.mem with queue := [], cur := none, again := none, polling := false, heldSel := none, chainPoll := 0, repeated := false } }
  let s2 := { s1 with mem := { s1.mem with lastErr := 4, errors := satInc s1.mem.errors } }
  match s2.boot.job with
  | some j => jobFail s2 j
  | none => if s.mem.cur.isSome then raise s2 srcMemErr (memstatWord s2.mem) else s2

/-- A REINIT of function `f` begins, for slot `slot` or a watchdog; one in progress stands. [log 101: DEDUCED, unsafe] -/
def startReinit (s : State) (f : BitVec 5) (slot : Option SlotIx) : State :=
  if s.recov.jobs.any fun j => j.func = f then s
  else if f = 0x1D then startFieldReinit s slot
  else
    let s1 := { s with recov := { s.recov with func := f, reinits := satInc s.recov.reinits, jobs := s.recov.jobs ++ [⟨f, slot⟩] } }
    if f < 0x10 then reinitChannel s1 (chanOf f.toNat)
    else if f < 0x14 then reinitPort s1 (field f 0 2 : BitVec 2).toFin
    else if f = 0x18 then reinitFilter s1
    else if f = 0x19 then reinitHart s1
    else if f = 0x1C then reinitMemory s1
    else s1

/-! ## At its completion -/

/-- FLT.PERRp and FLT.PCNTp at their reset values (R243). [log 101: DEDUCED, unsafe] -/
def clearPath (x : PathState) : PathState := { x with rawLim := false, hbSatBit := false, firSatBit := false, ovf := 0, resets := 0, swaps := 0 }

/-- CAL.APPLp at its reset value (R265). -/
def clearAppl (x : PathState) : PathState :=
  { x with tj := 0, kq := 0, o := 0, tjStale := false, tjNone := false, clamped := false, applSrc := 0 }

/-- Status of a channel at its reset values (R120, R144, R171), but for the signature, the retry state and the heat, which R144 and R171 keep. -/
def clearStatus (c : Channel) : Channel :=
  let p : ChanProve := { sig := c.p.sig }
  let prot : ChanProt := { pstate := c.prot.pstate, retryN := c.prot.retryN, tokens := c.prot.tokens, retCause := c.prot.retCause,
                           expiry := c.prot.expiry, refill := c.prot.refill, onTime := c.prot.onTime, eEst := c.prot.eEst }
  { c with w := {}, p := p, prot := prot, count := 0 }

/-- Loop and HART status at their reset values (R207); the demands, the target and the devices found are no part of it. -/
def clearLoop (l : ChanLoop) : ChanLoop :=
  { l with live := 0, lat := 0, dirEff := false, headroom := 0, rloop := 0xFFFF, cmdReg := 0, riskSince := none, easeSince := none,
           lastFds := 0, cntTimeout := 0, cntCheck := 0, cntComm := 0, cntBurst := 0, period := 0 }

/-- Registers of function n at their reset values; the field die then states the channel's condition afresh, and the executive an AO's target.
[log 38: DEDUCED, unsafe] -/
def finishChannel (s : State) (n : Chan) : State :=
  let s1 := ((s.modCh n clearStatus).modLoop n clearLoop).modPath (curPath n) fun x => clearAppl (clearPath x)
  let s2 := s1.modPath (volPath n) fun x => clearAppl (clearPath x)
  let s3 := { s2 with conv := { s2.conv with dac := setAt s2.conv.dac n 0, dacSat := setAt s2.conv.dacSat n false } }
  let l := s.loop[n]
  let s4 := if isAO s.ch[n].kind && l.targetOn then setTarget s3 n (some (l.deliver, bitAt l.live lAlarmAct)) else putLoop s3 n
  refresh (evalLamp (putNoSig (command s4 [.restate n]) n) n) n

/-- LNKn.ERR, RETX and URG at their reset values (R375). -/
def clearLink (p : Port) : Port :=
  { p with crcErr := 0, censusFail := 0, ctlErr := 0, proto := 0, retxFrames := 0, aborts := 0, urgForwarded := 0, maxDwell := 0 }

/-- The modems that return to service (R200). [log 63: DEDUCED, unsafe] -/
def finishHart (s : State) : State :=
  putHarts { s with hart := { s.hart with modem := s.hart.modem.map fun m => { m with ok := true } } }

/-- Rules, groups and the RUL registers at their reset values (R327, R343); the next cycle counts as the first (R320). [log 102: DEDUCED, unsafe] -/
def finishRules (s : State) : State :=
  let fresh : RuleState := {}
  rulesReset { s with rul := { fresh with wcet := s.rul.wcet, checkpoint := s.rul.checkpoint }, recov := { s.recov with ruleRestored := true } }

/-- The host port's counters reset, and then the frames it discards counted (R455). -/
def finishHost (s : State) : State :=
  let h := { s.host with cLength := 0, cEarly := 0, cPartial := 0, cExtra := 0, cLane := 0, cAlign := 0, cUnknown := 0, cDropped := 0,
                         aborts := 0, late := 0, latePrev := false, reading := none, reply := .none }
  let s1 := { s with host := h, held := [] }
  let s2 := match s.host.reading with | some r => hostError s1 12 r.cmd r.addr | none => s1
  s.held.foldl (fun a f => match f with
    | .write c addr _ => hostError a 12 c addr
    | .fence _ => hostError a 12 0xB9 0) s2

/-- DEV.MEMSTAT other than ERRORS and CONT_BREAK, and the check-value unit, at their reset values (R478). -/
def finishMemory (s : State) : State :=
  let fresh : CheckUnit := {}
  { s with mem := { s.mem with lastErr := 4 }, chk := { fresh with job := s.chk.job } }

/-- The field die taken again after its retraining (R80, R85, Table 3-7): in slack hold it is presented the identity it holds, and otherwise it is
configured afresh. In LOAD there is nothing to take it into. -/
def finishField (s : State) : State :=
  let s1 := { s with bw := { s.bw with retrain := 0, crcErr := 0, lostSample := 0 } }
  match s1.boot.gen with
  | some g =>
    if s1.m.mode = .load then s1
    else if s1.fd.ident = some (g.seq, g.hdrCrc) && !s1.fd.expired then (if s1.fd.slack then bwSend s1 (.identity g.seq g.hdrCrc) else s1)
    else freshen s1 g
  | none => s1

/-- What completes a REINIT of function `f`. [log 101: DEDUCED, unsafe] -/
def finishReinit (s : State) (f : BitVec 5) : State :=
  if f < 0x10 then finishChannel s (chanOf f.toNat)
  else if f < 0x14 then s.modPort (field f 0 2 : BitVec 2).toFin clearLink
  else if f < 0x18 then wheelReinit s (field f 0 2 : BitVec 2).toFin
  else if f = 0x18 then { s with conv := { s.conv with path := s.conv.path.map clearPath } }
  else if f = 0x19 then finishHart s
  else if f = 0x1A then finishRules s
  else if f = 0x1B then finishHost s
  else if f = 0x1C then finishMemory s
  else finishField s

/-- The field die answers: its lanes are up again, its reference is ready (R62 step 6), and no reload is due or in progress. [log 19: DEDUCED, unsafe] -/
def fieldAnswers (s : State) : Bool :=
  s.bw.allUp && !s.bw.stopped && s.conv.refReady && s.recov.reload.isNone && !s.bw.reloadFirst

/-- The field die runs the microcode of the running slot (R62 step 6). -/
def runsUcode (s : State) : Bool := match s.boot.ucode with
  | some u => s.fd.ucode = some (u.version, u.bodyCrc)
  | none => true

/-- R416: a REINIT completes; 0x1D waits for the field die without limit, and has its microcode loaded first when it runs another or none (R85). -/
def execReinitComplete (func : BitVec 5) (s : State) : Host.Outcome State Fault Refusal :=
  .next (match s.recov.jobs.find? fun j => j.func = func with
    | none => s
    | some j =>
      if !s.execRuns || (func = 0x1D && !fieldAnswers s) then s
      else if func = 0x1D && s.m.mode ≠ .load && !runsUcode s then { s with bw := { s.bw with reloadFirst := true } }
      else
        let s1 := finishReinit { s with recov := { s.recov with jobs := s.recov.jobs.filter fun x => x.func ≠ func } } func
        match j.slot with
        | some i => mbxEnd s1 i rcOk 0
        | none => s1)

/-- REINIT as taken by slot `i` (R416). -/
def runReinit (s : State) (i : SlotIx) (tag : W16) : State :=
  mbxRun s i 0x20 tag notStop [(0, 0xFF)] fun s =>
    let id := (s.arg i 0).toNat
    let f := BitVec.ofNat 5 id
    if 0x1D < id then mbxEnd s i rcInvalid 0
    else if (s.recov.jobs.any fun j => j.func = f) || (f = 0x1D && s.recov.reload.isSome) then mbxEnd s i rcBusy 0
    else startReinit s f (some i)

def execReinit (slot : SlotIx) (tag : W16) (s : State) : Host.Outcome State Fault Refusal :=
  .next (mbxServed s slot 0x20 tag runReinit)

/-! ## RESET_DEVICE -/

/-- RESET_DEVICE as taken by slot `i` (R407): it returns no result. -/
def runResetDevice (s : State) (i : SlotIx) (tag : W16) : State :=
  mbxRun s i 0x21 tag inAll [(0, 1)] fun s =>
    if s.boot.job.isSome && !bitAt (s.arg i 0) 0 then mbxEnd s i rcBusy 0 else logicReset s rstDevice 0

def execResetDevice (slot : SlotIx) (tag : W16) (s : State) : Host.Outcome State Fault Refusal :=
  .next (mbxServed s slot 0x21 tag runResetDevice)

/-! ## Watchdogs (R410–R415) -/

/-- The step of watchdog `k`, codes of WDSTAT.LAST_STEP (Table 15-3): 2 REINIT, 3 watchdog reset, 5 SAFE, 0 when SAFE is already in force. [log 99: DEDUCED, unsafe] -/
def wdStepOf (k : Fin 8) (rep inSafe : Bool) : BitVec 3 :=
  match k.val with
  | 0 => 3
  | 1 => if inSafe then 0 else 5
  | 2 => if rep then 5 else 2
  | 5 | 6 => 2
  | _ => if rep then 3 else 2

/-- The function a REINIT step names; `func` is the wheel's for watchdog 7. -/
def wdFunc (k : Fin 8) (func : BitVec 5) : BitVec 5 :=
  match k.val with
  | 2 => 0x1D
  | 3 => 0x18
  | 4 => 0x1C
  | 5 => 0x1B
  | 6 => 0x19
  | _ => 0x14 + (func &&& 3)

/-- LAST_ERR of an entry that exceeds its poll's limit (Table 17-6): 2 program, 3 erase. Of a flash write the step in progress says which. -/
def pollError (s : State) : Option (BitVec 3) :=
  if s.mem.polling then some (if s.mem.pollErase then 3 else 2)
  else match s.boot.job with
    | some (.config _ _ _ _ _ _ p) | some (.image _ _ _ _ p) => if p = .rest then some 3 else if p = .readBack then none else some 2
    | none => none

/-- Watchdog 4 records the limit exceeded (Table 17-6). -/
def notePoll (s : State) (k : Fin 8) : State :=
  match if k = 4 then pollError s else none with
  | some e => { s with mem := { s.mem with lastErr := e, errors := satInc s.mem.errors } }
  | none => s

/-- One step taken. [log 35: DEDUCED, unsafe; log 99: DEDUCED, unsafe] -/
def wdTake (s : State) (d : Fin 8 × BitVec 5 × BitVec 3) : State :=
  let s1 := { s with recov := { s.recov with wdTick := setAt s.recov.wdTick d.1 (some s.tick) } }
  if d.2.2 = 3 then logicReset s1 rstWatchdog (BitVec.ofNat 3 d.1.val)
  else if d.2.2 = 5 then enterSafe s1 0x0E (some d.1)
  else if d.2.2 = 2 then startReinit s1 d.2.1 none
  else s

/-- The steps that fell due during a handover or a reload hold, in the order of R415. [log 100: DEDUCED, unsafe] -/
def takeDue (s : State) : State :=
  let l := s.recov.wdDue
  let s1 := { s with recov := { s.recov with wdDue := [] } }
  match l.find? fun d => d.2.2 = 3 with
  | some d => wdTake s1 d
  | none =>
    let safe := l.filter fun d => d.2.2 = 5
    let re := (List.range 32).flatMap fun f => l.filter fun d => d.2.2 = 2 && d.2.1.toNat = f
    (safe ++ re).foldl wdTake s1

/-- Watchdog `k` expires (R410). [log 99: DEDUCED, unsafe; log 100: DEDUCED, unsafe] -/
def wdExpire (s : State) (k : Fin 8) (func : BitVec 5) : State :=
  if s.m.run ≠ .running || s.wdHeld k then s
  else
    let rep := match s.recov.wdTick[k] with | some t => decide (s.since t < secTicks 60) | none => false
    let step := wdStepOf k rep (s.m.mode = .safe)
    let c : Fin 4 := ⟨min k.val 3, by omega⟩
    let s1 := { notePoll s k with recov := { s.recov with
      expired := s.recov.expired ||| (1#8 <<< k.val), wdLast := BitVec.ofNat 3 k.val, wdStep := step
      wdCnt := modAt s.recov.wdCnt c satInc
      lanesUpSince := if k = 2 then s.recov.lanesUpSince.map fun _ => s.tick else s.recov.lanesUpSince } }
    let s2 := raise s1 srcWatchdog (putN 0 3 k.val ||| put 3 step)
    let d := (k, wdFunc k func, step)
    if s2.recov.handover.isSome || s2.recov.reload.isSome then { s2 with recov := { s2.recov with wdDue := s2.recov.wdDue ++ [d] } }
    else wdTake s2 d

def execWatchdog (k : Fin 8) (func : BitVec 5) (s : State) : Host.Outcome State Fault Refusal := .next (wdExpire s k func)

/-- R332: a boundary later than the last cycle's, which that cycle has not completed by. -/
def boundaryMissed (s : State) : Bool :=
  !s.cycleDone && (match s.boot.gen, s.rul.lastBoundary with
    | some g, some b => s.tick ≠ b && s.tick.toNat % (10 * g.cycleUs.toNat) = 0
    | _, _ => false)

/-- R332: the boundary is skipped; the cycle that overruns is counted once. [log 81: DEDUCED, unsafe] -/
def execRuleOverrun (s : State) : Host.Outcome State Fault Refusal :=
  .next (if !s.execRuns || !s.ruleRunning || !boundaryMissed s || s.rul.overSeen then s
    else
      let n := s.rul.overRun + 1
      let s1 := { s with rul := { s.rul with overrun := satInc s.rul.overrun, overSeen := true, overRun := if n = 16 then 0 else n } }
      let s2 := raise s1 srcOverrun (rulTimeWord s1.rul)
      if n = 16 then wdExpire s2 1 0 else s2)

/-- R22, R65, R85: a field→logic retraining has not completed. During a start the executive waits for the field die. In service the third
failure in succession is watchdog 2's; a loss that follows a last-gasp does not climb the ladder. With both lanes down the field die is
absent. [log 19: DEDUCED, unsafe] -/
def execRetrainTimeout (s : State) : Host.Outcome State Fault Refusal :=
  .next (if s.m.run = .held || s.m.run = .clockReset || s.m.step.toNat < 3 || (s.bw.f2l0Up && s.bw.f2l1Up) then s
    else
      let s1 := { s with bw := { s.bw with retrain := satInc s.bw.retrain, retrainFails := s.bw.retrainFails + 1 } }
      if s.m.mode = .load && s.m.wait ≠ .endedInLoad then
        if s.m.wait = .fieldDie then s1
        else raise (raiseBw { s1 with m := { s1.m with wait := .fieldDie } }) srcSupply (supplyWord s1.m)
      else if s1.bw.retrainFails ≠ 3 then s1
      else
        let busy := s1.recov.jobs.any fun j => j.func = 0x1D
        let s2 := raiseBw s1
        let s3 := if busy || s2.m.run ≠ .running then s2 else if s2.bw.gasped then startReinit s2 0x1D none else wdExpire s2 2 0
        if s.bw.f2l0Up || s.bw.f2l1Up || s.bw.absent then s3
        else refreshServed (deliver { s3 with bw := { s3.bw with absent := true } } [.supply 3]))

end Sys2Proof.Machine
end

