-- ==== Sys2Proof/Machine/Reload.lean ====
section
/-!
DEFINITION. Replacement of the field sequencer microcode (15 R422, R430–R434) and the end of the slack window (03 R81).
-/
namespace Sys2Proof.Machine

/-- Header of the staged microcode slot. -/
def stagedUcode (s : State) : Option SlotHeader := slotAt s.stageAt 0 true

/-- An armed microcode's fence has completed. -/
def reloadDue (s : State) : Bool := s.recov.stage = .switching && s.recov.stageKind = 2 && s.recov.switchDue

/-- REINIT 0x1D reloads the running slot's microcode first (Table 15-5). -/
def reinitReload (s : State) : Bool := s.bw.reloadFirst && s.recov.jobs.any fun j => j.func = 0x1D

/-- The frames of a microcode load (R431): opening, bodies of 48 bytes, closing. [log 111: DEDUCED, unsafe] -/
def sendUcode (s : State) (h : SlotHeader) : State :=
  let s1 := (List.range ((h.length + 47) / 48)).foldl (fun a i => bwSend a (.loadBody i)) (bwSend s .loadOpen)
  bwSend s1 (.loadClose h.version h.bodyCrc)

/-- The tick is a rule-cycle boundary (R318). -/
def atBoundary (s : State) : Bool := match s.boot.gen with
  | some g => s.tick.toNat % (10 * g.cycleUs.toNat) = 0
  | none => true

/-- The rule cycle in progress at the fence has ended, or a boundary has come after a wait for the lanes (R422). -/
def reloadTime (s : State) : Bool := s.cycleDone && (!s.recov.laneWait || atBoundary s)

/-- R422, R430: a reload begins when the rule cycle in progress has ended; one that waited for a lane, at the first boundary after all three are up.
The reload of a REINIT waits for no cycle. -/
def execReloadStart (s : State) : Host.Outcome State Fault Refusal :=
  .next (
    let hdr := if reinitReload s then s.boot.ucode else stagedUcode s
    if !s.execRuns || s.recov.reload.isSome || !(reinitReload s || reloadDue s) then s
    else if !s.bw.allUp || s.bw.stopped then { s with recov := { s.recov with laneWait := true } }
    else if !reinitReload s && !reloadTime s then s
    else match hdr with
      | none => s
      | some h =>
        let re := reinitReload s
        let s1 := { s with recov := { s.recov with
          reload := some { start := s.tick, reinit := re, hdr := some h, resent := false, fellBack := false, failed := false }
          ucCount := satInc s.recov.ucCount, ucResent := false, ucFellBack := false, laneWait := false
          switchDue := s.recov.switchDue && re } }
        sendUcode s1 h)

/-- A hold whose window has ended: the field die is configured afresh (Table 3-7, R525). -/
def freshAfterHold (s : State) : State :=
  match s.boot.gen with
  | some g => if s.m.mode = .load then s else freshen s g
  | none => s

/-- The reload is over, with the length of its hold. -/
def reloadOver (s : State) (x : Reload) : State :=
  { s with recov := { s.recov with reload := none, ucLastUs := satNat 16 (s.since x.start / 10) }
           bw := { s.bw with reloadFirst := s.bw.reloadFirst && !x.reinit, retrainFails := 0 } }

/-- The boot descriptor names the new microcode, unless the write fails (R433); staging empties. -/
def commitUcode (s : State) (written : Bool) : State :=
  let s1 := match s.boot.desc with
    | some d => if written then writeDesc s true (!d.ucodeSlot) else raise s srcMemErr (memstatWord s.mem)
    | none => s
  setStage s1 .empty

/-- No frame of a microcode load is still to be accepted. -/
def loadSent (s : State) : Bool :=
  let isLoad (b : L2F) : Bool := match b with | .loadOpen | .loadBody _ | .loadClose _ _ => true | _ => false
  !(s.bw.waiting.any isLoad || s.bw.unacked.any fun x => isLoad x.body)

/-- R431: the field die accepts the microcode and the identity is presented: the hold ends with the outputs unchanged, or the die is configured
afresh when its window has ended. -/
def execReloadComplete (written : Bool) (s : State) : Host.Outcome State Fault Refusal :=
  .next (match s.recov.reload with
    | none => s
    | some x =>
      match x.hdr with
      | none => s
      | some h =>
        if !s.execRuns || x.failed || !loadSent s || s.fd.ucode ≠ some (h.version, h.bodyCrc) || s.triad.blocked || s.fd.safeHeld then s
        else
          let s1 := reloadOver { s with boot := { s.boot with ucode := some h } } x
          let s2 := if s1.fd.slack && !s1.fd.expired then endHold (resetAllPaths (leaveSlack s1))
            else if s1.fd.slack then freshAfterHold s1 else endHold s1
          let s3 := if x.reinit || x.fellBack then s2 else commitUcode s2 written
          takeDue s3)

/-- Header of the microcode slot the descriptor in use names. -/
def namedUcode (s : State) : Option SlotHeader :=
  match s.boot.desc with
  | some d => slotAt s.flashAt (slotBase true d.ucodeSlot) true
  | none => none

/-- The fallback failed: the hold goes on to the end of the window, and ends here when that has passed. [log 111: DEDUCED, unsafe] -/
def reloadFailed (s : State) (x : Reload) : State :=
  if s.fd.slack && !s.fd.expired then { s with recov := { s.recov with reload := some { x with failed := true } } }
  else takeDue (freshAfterHold (reloadOver s x))

/-- R432: the body fails its check: sent once more, then the named slot's instead, then no more. -/
def execReloadBodyFail (s : State) : Host.Outcome State Fault Refusal :=
  .next (match s.recov.reload with
    | none => s
    | some x =>
      if !s.execRuns || x.failed then s
      else
        let s1 := { s with fd := { s.fd with ucode := none } }
        if !x.resent then
          match x.hdr with
          | some h => sendUcode { s1 with recov := { s1.recov with reload := some { x with resent := true }, ucResent := true } } h
          | none => s1
        else if !x.fellBack then
          let y := { x with fellBack := true, hdr := namedUcode s }
          let s2 := { s1 with recov := { s1.recov with reload := some y, ucFellBack := true } }
          let s3 := if s2.recov.stage = .switching && !x.reinit then setStage s2 .invalid else s2
          match y.hdr with
          | some h => sendUcode s3 h
          | none => reloadFailed s3 y
        else reloadFailed s1 x)

/-- R81, R432, R433: the slack window ends and the safe states are applied. After a start that ended in LOAD the executive sends a field
reset; a reload whose fallback failed ends. -/
def execSlackWindowExpiry (s : State) : Host.Outcome State Fault Refusal :=
  .next (if !s.fdOn || !s.fd.slack || s.fd.expired then s
    else
      let s1 := applySafeAll { s with fd := { s.fd with expired := true } }
      if s1.m.mode = .load && s1.m.wait = .endedInLoad && s1.m.run = .running then
        bwSend { s1 with m := { s1.m with readopt := .windowEnded } } .fieldReset
      else match s1.recov.reload with
        | some x => if x.failed && s1.execRuns then takeDue (freshAfterHold (reloadOver s1 x)) else s1
        | none => s1)

end Sys2Proof.Machine
end

