-- ==== Sys2Proof/Machine/GenApply.lean ====
section
/-!
DEFINITION. The application of a pending generation (02 R52–R54, Table 2-12a; 08 R227; 12 R327; 11 R301, R317).
-/
namespace Sys2Proof.Machine

/-- Channel `n`'s record changes in kind, range or standby (R53). -/
def chanChanged (a b : Generation) (n : Chan) : Bool := (recWord a.chan[n] 0 &&& 0x1F3F#32) ≠ (recWord b.chan[n] 0 &&& 0x1F3F#32)

/-- Counts and latches that return to 0 when the kind changes (R120, R144, R171, R207). -/
def kindReset (c : Channel) : Channel :=
  { c with
    w := { c.w with wireLat := 0, cntMiswire := 0, cntTransient := 0, cntBreak := 0, cntReverse := 0 }
    p := { c.p with plat := 0, cntDark := 0, cntLit := 0, cntPartial := 0, cntPc := 0 }
    prot := { c.prot with lat := 0, cntOc := 0, cntShort := 0, cntThermal := 0, cntClamp := 0, cntRetry := 0, cntGov := 0, cntShed := 0 } }

def kindResetLoop (l : ChanLoop) : ChanLoop := { l with lat := 0, cntTimeout := 0, cntCheck := 0, cntComm := 0, cntBurst := 0 }

/-- Loop and HART state of a channel that is started in its new kind: neither target nor demand, no measurement and no device; the latches and
counts stand (R207). -/
def freshLoop (l : ChanLoop) : ChanLoop :=
  { lat := l.lat, cntTimeout := l.cntTimeout, cntCheck := l.cntCheck, cntComm := l.cntComm, cntBurst := l.cntBurst, errs := l.errs, lastFds := l.lastFds }

/-- Command endpoints of a channel that is started in its new kind begin at VALUE 0, as at a start. [log 15: DEDUCED, unsafe] -/
def freshCommands (s : State) (n : Chan) : State :=
  let s1 := if s.ch[n].kind = kindDO || isAO s.ch[n].kind then epPut s (s.chEp n 0) (cmdQual s n) 5 0 else s
  if isAO s.ch[n].kind then epPut s1 (s1.chEp n 0x20) (alarmQual s1 n) 5 0 else s1

/-- Live status of a channel switched off and configured afresh at the field die: a wiring condition of a kind with blocking switches and the
latches stand. `k` is the kind it had, and `b` the kind it takes. [log 15: DEDUCED, unsafe] -/
def freshStatus (k b : BitVec 3) (c : Channel) : Channel :=
  let w := if hasBlocking b then c.w.wire else 0
  { c with
    replacing := true
    held := c.held && hasBlocking b
    w := { c.w with wire := withBit (withBit (withBit 0 wMiswire (bitAt w wMiswire)) wReverse (hasBlocking k && bitAt w wReverse)) wBlock (bitAt w wBlock),
                    diState := false, diRaw := false, diClass := .notDi }
    p := { c.p with cmdLit := false, flood := false, win := .notArmed, phDet := false, phSupp := false, driven := false }
    -- R148: a change of kind or range clears no overcurrent latch, and no cooling latch
    prot := { c.prot with live := c.prot.live &&& 0x7F#10 } }

/-- DISTAT.STATE of a DI follows a change of INVERT (R98); `was` is the inversion it was taken with. It is no level change of the input, so EDGES, COUNT
and DITIME stay. [log 158: DEDUCED, unsafe] -/
def invertDi (was : Bool) (r : ChanRecord) (c : Channel) : Channel :=
  if cfgKind r = kindDI then { c with w := { c.w with diState := c.w.diState != (was != diInvert r) } } else c

/-- CHANNEL section for channel `n`: the executive's side of a channel switched off and started in its new kind. -/
def applyChan (a b : Generation) (s : State) (n : Chan) : State :=
  if !chanChanged a b n then
    let s := if proveWords a.chan[n] = proveWords b.chan[n] then s else
      (dropEst (discardAcc s n) n).modCh n fun c => { c with p := { c.p with agreed := .none, agreeTick := none } }
    let s := if aiNe43 b.chan[n] then s else putNe43 s n false false
    let s := if recWord a.chan[n] 32 = recWord b.chan[n] 32 then s else retargetAO s n
    s.modCh n fun c => invertDi (diInvert a.chan[n]) b.chan[n] c
  else
    let s0 := s.modCh n fun c => invertDi false b.chan[n] (freshStatus (cfgKind a.chan[n]) (cfgKind b.chan[n]) c)
    let s1 := if cfgKind a.chan[n] = cfgKind b.chan[n] then s0 else (s0.modCh n kindReset).modLoop n kindResetLoop
    let s2 := (setCmd (govClear s1 n) n .dark).modCh n fun c => { c with cmdBad := false, cmdWord := 0 }
    freshCommands (putDir ((discardAcc (hartAbandon s2 n) n).modLoop n freshLoop) n) n

/-- CHARACTER section: a channel that runs a character keeps its old record until the changeover (R287). -/
def applyChars (a b : Generation) (s : State) : State :=
  if a.chars = b.chars then s
  else { s with boot := { s.boot with oldChars := a.chars }
                ch := s.ch.map fun c => match c.cmd with
                  | .character k => if c.oldChar.isSome then c else { c with oldChar := findChar a.chars k }
                  | _ => c }

/-- Coefficient sets of path `p` are the same in both generations. -/
def sameSets (a b : Generation) (p : PathIx) : Bool := genSet a p false = genSet b p false && genSet a p true = genSet b p true

/-- FILTER section for path `p` (R227). -/
def applyPath (a b : Generation) (s : State) (p : PathIx) : State :=
  if a.path[p] ≠ b.path[p] then
    let s1 := loadBank (loadBank s p false (genSet b p false)) p true (genSet b p true)
    s1.modPath p fun x => { x with active := b.path[p].bank, flip := false, fade := none, pend := none, load := none, loadAfter := none }
  else if sameSets a b p then s
  else
    let bank := b.path[p].bank
    let s1 := s.modPath p fun x => { x with load := some (genSet b p bank, genSet b p (!bank)) }
    if s.conv.path[p].fade.isSome then s1 else startLoad s1 p

/-- Path `p` has a synchronising reset at the application (Table 8-6). -/
def pathReset (a b : Generation) (p : PathIx) : Bool :=
  a.path[p] ≠ b.path[p] || chanChanged a b (pathChan p)

/-- Rule state carried over for a rule unchanged in record and index (R53, R327). [log 75: DEDUCED, unsafe] -/
def keptRules (a b : Generation) (old : List RuleMem) : List RuleMem :=
  (List.range b.rules.length).filterMap fun i => match b.rules[i]? with
    | some r => some (if a.rules[i]? = some r then old.getD i (ruleReset r) else ruleReset r)
    | none => none

/-- Index of the ASPECT rule of group `k`. -/
def aspectRule (g : Generation) (k : BitVec 6) : Option Nat :=
  g.rules.findIdx? fun r => opcOf r.opc = some .aspect && r.aux.toNat = k.toNat

/-- Group state carried over where the group's ASPECT rule is unchanged in record and index (R53, R327). -/
def keptGroups (a b : Generation) (old : List GroupMem) : List GroupMem :=
  b.aspects.map fun x => match aspectRule b x.groupId, a.aspects.findIdx? fun y => y.groupId = x.groupId with
    | some i, some j => if a.rules[i]? = b.rules[i]? then old.getD j {} else {}
    | _, _ => {}

/-- GROUP section: copies of the sub-windows that stay, local words under the new LOCAL_BASE, entry states, and the window reported
upstream (R317, R369); a copy that is still served and now reads BAD_NO_COMM is a change (R305). [log 75: DEDUCED, unsafe] -/
def applyGroup (a b : Generation) (s : State) : State :=
  if a.group = b.group then s
  else
    let kept (x : BitVec 20) : Bool := b.group.entries.any fun e => inEntry e x && a.group.entries.contains e
    let old := a.group.localBase.toNat
    let new := b.group.localBase.toNat
    let words := s.img.words.filter fun c => old ≤ c.1 && c.1 < old + 4096
    let lost := (s.img.copies.map fun c => BitVec.ofNat 20 c.1).filter fun x => !kept x && (findEntry b.group x).isSome
    let moved (x : BitVec 20) : BitVec 20 := if old ≤ x.toNat && x.toNat < old + 4096 then BitVec.ofNat 20 (x.toNat - old + new) else x
    let img := { s.img with words := words.map fun c => (c.1 - old + new, c.2)
                            copies := s.img.copies.filter fun c => kept (BitVec.ofNat 20 c.1)
                            changes := (s.img.changes.map moved).filter fun x => (findEntry b.group x).isSome || s.isLocal x }
    let same (j : Nat) (e : GroupEntry) : Bool := a.group.entries[j]? = some e
    applyPeers (sendDisc (entriesInit (dropPorts (lost.foldl noteChange { s with img := img })) same))
where
  applyPeers (s : State) : State := (List.finRange 4).foldl applyPeerWindow s
  /-- A fence no longer waits for a port that no entry names (Table 11-8). -/
  dropPorts (s : State) : State := modFences s fun x => { x with ports := x.ports.filter s.memberPorts.contains }

/-- LINK section: a port whose entry changed is re-initialised with cause 8 (Table 2-12a). [log 75: DEDUCED, unsafe] -/
def applyLinks (a b : Generation) (s : State) : State :=
  openPorts ((List.finRange 4).foldl (fun x k => if a.link[k] = b.link[k] || b.link[k].role = 0 then x else portReinit x k 8) (clearOut s))

/-- Sections of the executive's side, with generation `b` in force in place of `a`. -/
def applySections (s : State) (a b : Generation) : State :=
  let s1 := applyKinds (applyEvents s b) b
  let s2 := applyChars a b ((List.finRange 16).foldl (applyChan a b) s1)
  let s3 := (List.finRange 32).foldl (applyPath a b) s2
  let s4 := resetPaths s3 ((List.finRange 32).filter (pathReset a b))
  let s5 := (List.finRange 4).foldl (fun x w => wheelConfigure x a.tide[w] w) s4
  let s6 := { s5 with rul := { s5.rul with mem := keptRules a b s5.rul.mem, grp := keptGroups a b s5.rul.grp, wcet := BitVec.ofNat 16 (wcetUs b) }
                      clk := if a.device = b.device then s5.clk else { s5.clk with clkoutSel := b.device.clkoutSel } }
  applyLinks a b (applyGroup a b s6)

/-- What follows the sections: endpoints, proving marks and event 89 (R53, R59). -/
def afterSections (s : State) (b : Generation) : State :=
  let s1 := (List.finRange 16).foldl (fun a n => hartPeriods (putNoSig a n) n) s
  let s2 := putAll (assignCommands (unassign s1))
  let s3 := raise (evalAll s2) srcConfig (put 0 b.seq)
  { s3 with recov := { s3.recov with ruleRestored := true } }

/-- The pending generation takes effect at one point. -/
def applyGeneration (s : State) (a : Generation) (p : PendingGen) : State :=
  let b := p.gen
  let s1 := { s with boot := { s.boot with gen := some b, pend := none, act := if p.copyB then 2 else 1, unapplied := false } }
  afterSections (applySections (bwSend s1 (.configure b false)) a b) b

/-- R52, R54: after its fence and between rule cycles; after a handover or a reload armed with the same tag. The governor's refusal leaves it
pending for the next completion of its tag. [log 110: DEDUCED, unsafe] -/
def execGenerationApply (s : State) : Host.Outcome State Fault Refusal :=
  .next (match s.boot.gen, s.boot.pend with
    | some a, some p =>
      if !generationDue s || !s.execRuns || !s.cycleDone then s
      else if !powerOk p.gen (measuredMv s 1) (measuredMv s 0) then
        raisePower { s with boot := { s.boot with pend := some { p with due := false } } } none
      else applyGeneration s a p
    | _, _ => s)

end Sys2Proof.Machine
end

