-- ==== Sys2Proof/Machine/Handover.lean ====
section
/-!
DEFINITION. Executive handover up to the exchange, and its probation (15 R422–R426, R429).
-/
namespace Sys2Proof.Machine

/-- R424: the armed executive's fence has completed and the cycle has ended: the image freezes and rule cycles pause. -/
def execHandoverStart (s : State) : Host.Outcome State Fault Refusal :=
  .next (if !s.execRuns || !s.cycleDone || s.recov.stage ≠ .switching || s.recov.stageKind ≠ 1 || !s.recov.switchDue || s.recov.reload.isSome then s
    else { s with recov := { s.recov with
      switchDue := false, handover := some { start := s.tick, exchanged := false, checked := false }, hoCount := satInc s.recov.hoCount } })

/-- Bytes covered by the exchange (R426): the larger of the two slot images, in whole blocks of 4 KiB. -/
def exchangeLen (s : State) : Nat :=
  let old := match s.boot.exec with | some h => h.length + 256 | none => 0
  (max old s.recov.stageLen.toNat + 0xFFF) / 0x1000 * 0x1000

/-- The first `n` cells' bytes of `a` followed by what lies above them in `b`. -/
def joinAt (n : Nat) (a b : List (Nat × Byte)) : List (Nat × Byte) := (a.filter fun c => c.1 < n) ++ b.filter fun c => n ≤ c.1

/-- The slot-image half and staging exchanged. -/
def exchange (s : State) : State :=
  let n := exchangeLen s
  { s with recov := { s.recov with slotImage := joinAt n s.recov.staging s.recov.slotImage, staging := joinAt n s.recov.slotImage s.recov.staging } }

/-- R426: the exchange is complete, and the start check of the new executive has run with the outcome `startCheck`. -/
def execExchangeComplete (startCheck : StartCheck) (s : State) : Host.Outcome State Fault Refusal :=
  .next (match s.recov.handover with
    | none => s
    | some h =>
      if h.exchanged then s
      else
        let s1 := exchange s
        { s1 with recov := { s1.recov with handover := some { h with exchanged := true, checked := checkPassed startCheck s1.straps.lanemode } }
                  triad := startCheckRun s1.triad s1.straps.lanemode startCheck })

/-- R429: the end of probation, 1 s after resumption: the boot descriptor names the new slot, or the write fails. -/
def execProbationEnd (written : Bool) (s : State) : Host.Outcome State Fault Refusal :=
  .next (if !s.execRuns || s.recov.stage ≠ .probation || s.since s.recov.probation < secTicks 1 then s
    else
      let s1 := match s.boot.desc with
        | some d => if written then writeDesc s false (!d.execSlot)
          else raise { s with recov := { s.recov with hoDescFail := true } } srcMemErr (memstatWord s.mem)
        | none => s
      setStage s1 .empty)

end Sys2Proof.Machine
end

