-- ==== Sys2Proof/Machine/MemoryPort.lean ====
section
/-!
DEFINITION. The memory port (17 R456–R471), the flush of the log (18 R489) and the scrubber (01 R29).
-/
namespace Sys2Proof.Machine

/-! ## Queue entries (Table 17-1) -/

def MemEntry.cmdBits (e : MemEntry) : Nat := (field e.w0 16 5 : BitVec 5).toNat
def MemEntry.cmdLn (e : MemEntry) : BitVec 2 := field e.w0 21 2
def MemEntry.addrBits (e : MemEntry) : Nat := (field e.w0 24 6 : BitVec 6).toNat
def MemEntry.addrLn (e : MemEntry) : BitVec 2 := field e.w0 30 2
def MemEntry.dummy (e : MemEntry) : Nat := (field e.w2 0 8 : BitVec 8).toNat
def MemEntry.dataLn (e : MemEntry) : BitVec 2 := field e.w2 8 2
def MemEntry.write (e : MemEntry) : Bool := bitAt e.w2 10
def MemEntry.cont (e : MemEntry) : Bool := bitAt e.w2 11
def MemEntry.poll (e : MemEntry) : BitVec 2 := field e.w2 12 2
def MemEntry.sel (e : MemEntry) : Bool := bitAt e.w2 14
def MemEntry.msel (e : MemEntry) : BitVec 3 := field e.w2 15 3
def MemEntry.dataBits (e : MemEntry) : Nat := (field e.w3 0 16 : BitVec 16).toNat
def MemEntry.bufOfs (e : MemEntry) : Nat := 4 * (field e.w3 16 11 : BitVec 11).toNat

/-- Bytes of the data phase. -/
def MemEntry.dataBytes (e : MemEntry) : Nat := (e.dataBits + 7) / 8

/-- CMD and ADDR as sent: their used bits. -/
def MemEntry.cmd (e : MemEntry) : W16 := BitVec.ofNat 16 ((field e.w0 0 16 : W16).toNat % 2 ^ e.cmdBits)
def MemEntry.addr (e : MemEntry) : W32 := BitVec.ofNat 32 (e.w1.toNat % 2 ^ e.addrBits)

/-- Lanes of a lane field. -/
def lanesOf (ln : BitVec 2) : Nat := if ln = 0 then 1 else if ln = 1 then 2 else 4

/-- R460's faults of the entry itself. [log 120: DEDUCED, unsafe] -/
def entryBad (m : MemPort) (e : MemEntry) : Bool :=
  bitAt e.w0 23 || (field e.w2 23 9 : BitVec 9) ≠ 0 || (field e.w3 27 5 : BitVec 5) ≠ 0
  || e.cmdLn = 3 || e.addrLn = 3 || e.dataLn = 3 || 16 < e.cmdBits || 32 < e.addrBits || e.poll = 3
  || e.cmdBits % lanesOf e.cmdLn ≠ 0 || e.addrBits % lanesOf e.addrLn ≠ 0 || e.dataBits % lanesOf e.dataLn ≠ 0
  || 8192 < e.bufOfs + e.dataBytes
  || (if m.decoded then e.sel || e.msel = 7 else e.msel ≠ 0)
  || (e.cmdBits = 0 && e.addrBits = 0 && e.dummy = 0 && e.dataBits = 0)

/-- R458, R460: the executive writes an entry, with the data of a write entry in the buffer. [log 120: DEDUCED, unsafe] -/
def execQueueEntry (w0 w1 w2 w3 : W32) (data : List Byte) (s : State) : Host.Outcome State Fault Refusal :=
  let e : MemEntry := ⟨w0, w1, w2, w3⟩
  .next (if !s.execRuns then s
    else if entryBad s.mem e then memError s 1
    else if 16 ≤ s.mem.queue.length then memError s 6
    else
      let buf := if e.write then swriteList 0 s.mem.buf e.bufOfs (data.take e.dataBytes) else s.mem.buf
      { s with mem := { s.mem with queue := s.mem.queue ++ [e], buf := buf } })

/-! ## Frames -/

/-- The device a select reaches: 0 the flash, 1 its mirror, 2 to 6 what the decoded code names. -/
def deviceOf (m : MemPort) (sel : Bool) (code : BitVec 3) : Nat :=
  if m.decoded then code.toNat else if sel then 1 else 0

/-- The flash or the mirror changed. [log 121: PRESUMED, unsafe] -/
def onFlash (s : State) (dev : Nat) (f : List Host.Cell → List Host.Cell) : State :=
  if dev = 0 then { s with flash := f s.flash } else if dev = 1 then { s with mirror := f s.mirror } else s

/-- Bytes programmed from `a` within its 256-byte page: bits are only ever cleared. [log 121: PRESUMED, unsafe] -/
def pageProgram (fl : List Host.Cell) (a : Nat) (bs : List Byte) : List Host.Cell :=
  ((List.range bs.length).zip bs).foldl (fun f x =>
    let k := a / 256 * 256 + (a + x.1) % 256
    swrite flashErased f k (sread flashErased f k &&& x.2)) fl

/-- The write-enable latch of device `dev`. -/
def welOf (m : MemPort) (dev : Nat) : Bool := if dev = 0 then m.wel[0] else dev = 1 && m.wel[1]
def setWel (s : State) (dev : Nat) (b : Bool) : State :=
  if h : dev < 2 then { s with mem := { s.mem with wel := setAt s.mem.wel ⟨dev, h⟩ b } } else s

/-- What a finished frame does to the device it reached (Table 17-3): write enable, page program, sector erase, reset. [log 121: PRESUMED, unsafe] -/
def frameDone (s : State) (dev : Nat) (cmd : W16) (addr : W32) (data : List Byte) : State :=
  let a := addr.toNat % 0x1000000
  if cmd = 0x06 then setWel s dev true
  else if cmd = 0x99 then setWel s dev false
  else if cmd = 0x02 && welOf s.mem dev then setWel (onFlash s dev fun f => pageProgram f a data) dev false
  else if cmd = 0x20 && welOf s.mem dev then
    setWel (onFlash s dev fun f => sclear f (a / 0x1000 * 0x1000) (a / 0x1000 * 0x1000 + 0x1000)) dev false
  else s

/-- What a read frame gets from its device from byte `k` of its data on: flash content for the read commands, and otherwise what the device
answers, which the spec does not state. [log 122: DESIGN CHOICE, safe] -/
def frameRead (s : State) (dev : Nat) (cmd : W16) (addr : W32) (k n : Nat) : List Byte :=
  let a := addr.toNat + k
  if dev < 2 && (cmd = 0x03 || cmd = s.mem.xipCmd.setWidth 16) then
    (List.range n).map fun i => if dev = 0 then s.flashAt ((a + i) % 0x1000000) else s.mirrorAt ((a + i) % 0x1000000)
  else (List.range n).map fun i => Config.deviceByte s.free dev (a + i)

/-- The last byte of a data phase that ends within it: its top bits, with 0 below them (R459). -/
def trimLast (bits : Nat) (bs : List Byte) : List Byte :=
  if bits % 8 = 0 then bs else bs.dropLast ++ (bs.drop (bs.length - 1)).map fun b => b &&& (0xFF#8 <<< (8 - bits % 8))

/-- The frame that entry `e` starts, or continues while a select is held. A byte of which only the top bits were sent is not programmed.
[log 121: PRESUMED, unsafe] -/
def sendFrame (s : State) (e : MemEntry) : State :=
  let dev := deviceOf s.mem e.sel e.msel
  let prev : W16 × W32 × List Byte := match s.mem.heldSel, s.mem.frame with
    | some _, some f => (f.2.2.1, f.2.2.2.1, f.2.2.2.2)
    | _, _ => (0, 0, [])
  let cmd := if e.cmdBits = 0 then prev.1 else e.cmd
  let addr := if e.addrBits = 0 then prev.2.1 else e.addr
  let n := e.dataBytes
  let got := trimLast e.dataBits (if e.write then sreadList 0 s.mem.buf e.bufOfs n else frameRead s dev cmd addr prev.2.2.length n)
  let data := prev.2.2 ++ got
  let s1 := { s with
    free := if e.write then s.free else s.free + 1
    mem := { s.mem with
      frame := some (e.sel, e.msel, cmd, addr, data)
      buf := if e.write then s.mem.buf else swriteList 0 s.mem.buf e.bufOfs got } }
  if e.cont then s1 else frameDone s1 dev cmd addr (if e.dataBits % 8 = 0 then data else data.dropLast)

/-- The held select is released: its chain's frame ends, and a poll asked for in it begins (R462). -/
def releaseSelect (s : State) : State :=
  let s1 := match s.mem.heldSel, s.mem.frame with
    | some h, some f => frameDone s (deviceOf s.mem h.1 h.2) f.2.2.1 f.2.2.2.1 f.2.2.2.2
    | _, _ => s
  { s1 with mem := { s1.mem with heldSel := none, polling := s1.mem.chainPoll ≠ 0, pollErase := s1.mem.chainPoll = 2, chainPoll := 0 } }

/-- A chain broken (R462). [log 123: DEDUCED, unsafe] -/
def breakChain (s : State) : State := releaseSelect { s with mem := { s.mem with contBreak := satInc s.mem.contBreak } }

/-- The port holds its signals in the reset state of R456. -/
def portReset (s : State) : Bool := s.m.run = .held || s.m.run = .clockReset

/-- The next entry to be sent, with what the queue then holds: an entry to be repeated goes first. -/
def nextEntry (m : MemPort) : Option (MemEntry × List MemEntry) := match m.again, m.queue with
  | some e, q => some (e, q)
  | none, e :: q => some (e, q)
  | none, [] => none

/-- R459, R462, R466: the next entry's frame. A held select of another device is released first. -/
def execMemoryFrame (s : State) : Host.Outcome State Fault Refusal :=
  .next (match nextEntry s.mem with
    | none => s
    | some (e, rest) =>
      if portReset s || s.mem.cur.isSome || s.mem.polling then s
      else
        let other : Bool := match s.mem.heldSel with | some h => decide (h ≠ (e.sel, e.msel)) | none => false
        let s1 := if other then breakChain s else s
        if s1.mem.polling then s1
        else
          let s2 := sendFrame s1 e
          let poll := if e.poll ≠ 0 then e.poll else s2.mem.chainPoll
          { s2 with mem := { s2.mem with
              queue := rest, again := none, cur := some e
              heldSel := if e.cont then some (e.sel, e.msel) else none
              chainPoll := if e.cont then poll else 0
              polling := !e.cont && poll ≠ 0
              pollErase := poll = 2 } })

/-- R461: a status frame; bit 0 of the response clear ends the poll. -/
def execPollFrame (st : Byte) (s : State) : Host.Outcome State Fault Refusal :=
  .next (if s.mem.polling && !bitAt st 0 then { s with mem := { s.mem with polling := false } } else s)

/-- R461: an entry, its poll ended, is complete. Without one in the port, the entries of the present step by which the executive writes a copy
or a slot have ended, with `ok` (R49, R421). [log 107: DEDUCED, unsafe] -/
def execEntryComplete (ok : Bool) (s : State) : Host.Outcome State Fault Refusal :=
  .next (match s.mem.cur with
    | some _ => if s.mem.polling then s else { s with mem := { s.mem with cur := none, repeated := false, entries := s.mem.entries + 1 } }
    | none => match s.boot.job with
      | some j => if s.execRuns then jobEnd s j ok else s
      | none => s)

/-- R462: 100 µs without a next entry. -/
def execContBreak (s : State) : Host.Outcome State Fault Refusal :=
  .next (if s.mem.heldSel.isSome && s.mem.cur.isNone && s.mem.queue.isEmpty then breakChain s else s)

/-- The part of a window read from `a` up to `b` that becomes a frame on the device of `code`: a mirror answers from 0x400000 to 0x4FFFFF
only (R36). -/
def xipSpan (code : BitVec 3) (a b : Nat) : Nat × Nat := if code = 1 then (max a 0x400000, min b 0x500000) else (a, b)

/-- R465: a window read becomes one frame, once no entry's frame, chain or poll is in progress (R466). [log 123: DEDUCED, unsafe] -/
def execXipRead (addr : BitVec 24) (len : W16) (s : State) : Host.Outcome State Fault Refusal :=
  let code := if s.mem.decoded then s.mem.code else 0
  let span := xipSpan code addr.toNat (addr.toNat + len.toNat)
  .next (if portReset s || s.mem.cur.isSome || s.mem.heldSel.isSome || s.mem.polling || span.2 ≤ span.1 then s
    else
      let bytes := (List.range (span.2 - span.1)).map fun i => windowByte s (span.1 + i)
      { s with free := s.free + 1
               mem := { s.mem with xip := s.mem.xip + 1,
                                   frame := some (false, code, s.mem.xipCmd.setWidth 16, BitVec.ofNat 32 span.1, bytes) } })

/-- The select mode that Table 17-2 puts in force. [log 124: DEDUCED, unsafe] -/
def decodedNow (s : State) : Bool := s.m.mode = .load || s.m.mode = .stop || s.mem.bootDec

/-- R463: the select mode changes at a frame boundary; a select held then is released. [log 123: DEDUCED, unsafe] -/
def execSelectModeChange (s : State) : Host.Outcome State Fault Refusal :=
  .next (if s.mem.decoded = decodedNow s || s.mem.cur.isSome || s.mem.polling then s
    else
      let s1 := if s.mem.heldSel.isSome then breakChain s else s
      { s1 with mem := { s1.mem with decoded := decodedNow s } })

/-- R489: the SRAM log is programmed. [log 125: DEDUCED, unsafe] -/
def execLogFlush (s : State) : Host.Outcome State Fault Refusal := .next (if s.execRuns then flushLog s else s)

/-! ## The scrubber (R29, Table 1-9) -/

/-- One endpoint word lost: a local one is written again from its source with SEQ advanced, and a copy reads BAD_FAULT with VALUE 0. [log 126: DEDUCED, unsafe; log 127: DESIGN CHOICE, safe] -/
def eccEndpoint (s : State) (a : BitVec 20) : State :=
  if s.isLocal a then
    let w := s.ep a
    if epQual w = qUnassigned then s else epStore s a (epWord (epSeq w + 1) (epQual w) (epClass w) (epValue w))
  else if (findEntry s.group a).isSome then
    let (v, s1) := s.draw
    epStore s1 a (epWord (epSeq v) qFault (BitVec.ofNat 4 ((epClass v).toNat % 7)) 0)
  else s

/-- Staging loses its content (Table 15-7): an armed item is withdrawn, and a commit ends with INVALID. [log 105: DESIGN CHOICE, safe; log 126: DEDUCED, unsafe] -/
def eccStaging (s : State) : State :=
  let bad (x : State) : State := setStage { x with recov := { x.recov with stageEcc := true, switchDue := false } } .invalid
  match s.recov.stage with
  | .empty | .opened | .armed => bad s
  | .committing =>
    match s.boot.job with
    | some (.config i _ _ _ _ _ _) | some (.image i _ _ _ _) => mbxEndFree (bad { s with boot := { s.boot with job := none } }) i rcInvalid
    | none => bad s
  | _ => s

/-- A ring's record reads VALID 0. -/
def eccRing (s : State) (k : Nat) : State :=
  { s with conv := { s.conv with ring := swrite {} s.conv.ring k { sread {} s.conv.ring k with valid := false } } }

/-- The record at place `k` of the SRAM log is lost. -/
def eccLog (s : State) (k : Nat) : State :=
  if s.ev.sramLog.any fun r => r.lseq.toNat % 8192 = k then
    { s with ev := { s.ev with sramLog := s.ev.sramLog.filter fun r => r.lseq.toNat % 8192 ≠ k
                               logLost := satInc s.ev.logLost, logLostRun := s.ev.logLostRun + 1 } }
  else s

/-- A bank reloaded from the active copy with the set it held (R227); FADE outputs of its path settle (Table 8-6). -/
def eccBank (s : State) (p : PathIx) (bank : Bool) : State :=
  match s.boot.gen with
  | some g => (loadBank s p bank (genSet g p (bank != s.conv.path[p].flip))).modPath p fun x =>
      { x with reload := max x.reload (s.desc p).fade.toNat }
  | none => s

/-- The data of the first write entry that waits are lost: it is not sent (Table 17-6). -/
def loseWrite (s : State) : State :=
  match s.mem.queue.find? fun e => e.write with
  | some e => memError { s with mem := { s.mem with queue := s.mem.queue.erase e } } 5
  | none => s

/-- The memory-port buffer loses the data of an entry: a read entry in hand is repeated once, and otherwise a write entry that waits is not
sent (Table 17-6). An entry of a chain has no frame of its own to repeat. [log 127: DESIGN CHOICE, safe] -/
def eccMemBuffer (s : State) : State :=
  match s.mem.cur with
  | some e =>
    if e.write then loseWrite s
    else if s.mem.repeated || e.cont then memError s 5
    else memError { s with mem := { s.mem with cur := none, polling := false, again := some e, repeated := true } } 5
  | none => loseWrite s

/-- A buffer's frame is lost as if its CRC had failed. Which buffer a word belongs to is the executive's arrangement: a free value chooses. [log 127: DESIGN CHOICE, safe] -/
def eccBuffer (s : State) : State :=
  let (v, s1) := s.draw
  if v.toNat % 3 = 0 then
    match s1.held with
    | [] => s1
    | .write c a _ :: fs => hostError { s1 with held := fs } 11 c a
    | .fence _ :: fs => hostError { s1 with held := fs } 11 0xB9 0
  else if v.toNat % 3 = 1 then eccMemBuffer s1
  else
    let k : PortIx := (field v 8 2 : BitVec 2).toFin
    crcError (match s1.port[k].buffered[(field v 16 8 : BitVec 8).toNat % s1.port[k].buffered.length]? with
      | some b => dropBuffered s1 k b
      | none => s1) k

/-- An uncorrectable word at SRAM offset `o` handled by its region (Table 1-9). A result record lies at 16 bytes each, 1,024 for a path, and
bank b of path p at 512p + 256b in its region, four bytes a coefficient; the rest of a region holds nothing. [log 126: DEDUCED, unsafe] -/
def eccRegion (s : State) (o : Nat) : State :=
  if o < 0x400000 then eccEndpoint (eccEndpoint s (BitVec.ofNat 20 (o / 4))) (BitVec.ofNat 20 (o / 4 + 1))
  else if o < 0x600000 then (if s.m.run = .running then enterSafe s 0x0C none else s)
  else if o < 0x700000 then eccStaging s
  else if o < 0x780000 then eccRing s ((o - 0x700000) / 16)
  else if o < 0x7C0000 then eccLog s ((o - 0x780000) / 32)
  else if o < 0x7C4000 then eccBank s (pathOf ((o - 0x7C0000) / 512)) ((o - 0x7C0000) / 256 % 2 = 1)
  else if o < 0x7D0000 then s
  else eccBuffer s

/-- A word of the endpoint image or of a coefficient bank is written again by the executive, which does so once it runs. -/
def eccWord (s : State) (o : Nat) : State :=
  if s.m.run = .running && !s.execRuns && (o < 0x400000 || (0x7C0000 ≤ o && o < 0x7C4000)) then
    { s with recov := { s.recov with eccDue := s.recov.eccDue ++ [o] } }
  else eccRegion s o

/-- The words that waited. -/
def eccTaken (s : State) : State := s.recov.eccDue.foldl eccRegion { s with recov := { s.recov with eccDue := [] } }

/-- R29: a word scrubbed with an error in it. -/
def execScrub (offset : BitVec 23) (uncorrectable : Bool) (s : State) : Host.Outcome State Fault Refusal :=
  let o := offset.toNat / 8 * 8
  .next (if portReset s then s
    else if !uncorrectable then raise s srcEccCorr (BitVec.ofNat 32 o)
    else eccWord (raise s srcEccUncorr (BitVec.ofNat 32 o)) o)

end Sys2Proof.Machine
end

