-- ==== Sys2Proof/Machine/HostWrite.lean ====
section
/-!
DEFINITION. What a word written by the host does in each block (00 R5, R9; 16 R443, R444; 18 R496), the mailbox words of a frame (R491, R492),
and the commands that stand for single writes.
-/
namespace Sys2Proof.Machine

/-! ## Blocks -/

/-- RW1C of one bit: cleared by a 1 in bit `i` of the word written. -/
def clr (b : Bool) (v : W32) (i : Nat) : Bool := b && !bitAt v i

/-- Block DEV. -/
def writeDev (s : State) (o : Nat) (v : W32) : State :=
  match o with
  | 0x40 => { s with bw := { s.bw with slackSeen := clr s.bw.slackSeen v 3 } }
  | 0x48 => { s with clk := { s.clk with clkoutSel := field v 0 2 } }
  | 0x58 => { s with boot := { s.boot with lastFail := clr s.boot.lastFail v 18 } }
  | 0x6C => { s with m := { s.m with lastGasp := clr s.m.lastGasp v 2 } }
  | 0x8C => { s with time := { s.time with set := some v } }
  | 0xE0 => { s with triad := { s.triad with replayFull := clr s.triad.replayFull v 9, refused := clr s.triad.refused v 20 } }
  | 0x100 => { s with recov := { s.recov with expired := rw1c s.recov.expired (field v 0 8) } }
  | 0x148 => { s with mem := { s.mem with code := if (field v 0 3 : BitVec 3) = 7 then 0 else field v 0 3 } }
  | _ => s

/-- Block CHn. -/
def writeCh (s : State) (n : Chan) (o : Nat) (v : W32) : State :=
  match o with
  | 0x108 => s.modCh n fun c => { c with w := { c.w with wireLat := rw1c c.w.wireLat (field v 0 11) } }
  | 0x124 => s.modCh n fun c => { c with prot := { c.prot with lat := rw1c c.prot.lat (field v 0 10) } }
  | 0x164 => s.modCh n fun c => { c with p := { c.p with plat := rw1c c.p.plat (field v 0 7) } }
  | 0x1C4 => s.modLoop n fun l => { l with lat := rw1c l.lat (field v 0 11) }
  | _ => s

/-- EVQ.ACK (R485). -/
def evqAckWrite (e : EventRouter) (v : W32) : EventRouter :=
  let n := (field v 8 9 : BitVec 9).toNat
  if (field v 0 8 : BitVec 8) = e.head && 1 ≤ n && n ≤ e.count then
    { e with head := e.head + BitVec.ofNat 8 n, count := e.count - n }
  else { e with ackErr := true, ackBad := satInc e.ackBad }

/-- EVQ.CNTCLR (R480, Table 18-14). -/
def countClearWrite (e : EventRouter) (v : W32) : EventRouter :=
  if bitAt v 8 then { e with src := e.src.map fun x => { x with count := 0 } }
  else { e with src := modAt e.src (field v 0 7 : BitVec 7).toFin fun x => { x with count := 0 } }

/-- EVQ.LATx: a 1 clears the latched bit of its source. -/
def latWrite (e : EventRouter) (x : Nat) (v : W32) : EventRouter :=
  { e with src := Vector.ofFn fun i => { e.src[i] with latched := e.src[i].latched && !(i.val / 32 = x && bitAt v (i.val % 32)) } }

/-- Block EVQ. -/
def writeEvq (s : State) (o : Nat) (v : W32) : State :=
  if 0x2000 ≤ o && o < 0x2200 then
    s.modSrc (BitVec.ofNat 7 ((o - 0x2000) / 4)).toFin fun x => { x with latched := clr x.latched v 8 }
  else if 0x1020 ≤ o && o < 0x1030 then { s with ev := latWrite s.ev ((o - 0x1020) / 4) v }
  else match o with
  | 0x1000 => { s with ev := { s.ev with ovf := clr s.ev.ovf v 17 } }
  | 0x1004 => { s with ev := { s.ev with irqEn := bitAt v 0, irqOvf := bitAt v 1 } }
  | 0x1008 => { s with ev := evqAckWrite s.ev v }
  | 0x1014 => { s with ev := countClearWrite s.ev v }
  | 0x1018 => { s with ev := { s.ev with ackErr := clr s.ev.ackErr v 0 } }
  | 0x1038 => { s with ev := { s.ev with logSel := field v 0 12 } }
  | _ => s

/-- Block MBX but for the CMD words: arguments. -/
def writeMbx (s : State) (o : Nat) (v : W32) : State :=
  let r := o % 0x100
  if o < 0x800 && 0x10 ≤ r && r < 0x90 then
    s.modSlot (BitVec.ofNat 3 (o / 0x100)).toFin fun m => { m with arg := setAt m.arg (BitVec.ofNat 5 ((r - 0x10) / 4)).toFin v }
  else s

/-- Block LNKn: the mismatch bits of STAT. -/
def writeLnk (s : State) (k : PortIx) (o : Nat) (v : W32) : State :=
  if o = 0x10 then s.modPort k fun p => { p with idMm := clr p.idMm v 2, roleMm := clr p.roleMm v 3, baudMm := clr p.baudMm v 4 } else s

/-- Block FLT. -/
def writeFlt (s : State) (o : Nat) (v : W32) : State :=
  if o < 0x4000 then writeCoeff s (pathOf (o / 512)) (o / 256 % 2 = 1) (BitVec.ofNat 6 (o / 4)) v
  else if o < 0x4200 then
    let p := pathOf ((o - 0x4000) / 16)
    if o % 16 = 0 then writePctl s p v
    else if o % 16 = 8 then
      s.modPath p fun x => { x with rawLim := clr x.rawLim v 0, hbSatBit := clr x.hbSatBit v 1, firSatBit := clr x.firSatBit v 2 }
    else s
  else if o = 0x4200 then
    { s with conv := { s.conv with errBusy := clr s.conv.errBusy v 0, errMode := clr s.conv.errMode v 1, errSwap := clr s.conv.errSwap v 2 } }
  else s

/-- Staged bytes: only while OPEN, and below LENGTH (R419). -/
def writeStaging (s : State) (o : Nat) (v : W32) : State :=
  if s.recov.stage = .opened then
    { s with recov := { s.recov with
        staging := swriteList stagingEmpty s.recov.staging o ((bytesLE v).take (s.recov.stageLen.toNat - o)) } }
  else s

/-- One word outside the image and the mailbox's CMD words. [log 139: DEDUCED, unsafe] -/
def writeWord (s : State) (a : Nat) (v : W32) : State :=
  let o := a % 0x10000
  if a < 0x400000 then s
  else if a < 0x410000 then writeDev s o v
  else if a < 0x420000 then writeCh s (chanOf (o / 0x1000)) (o % 0x1000) v
  else if a < 0x430000 then (if o = 0x400 then { s with conv := { s.conv with ringSel := field v 0 5 } } else s)
  else if a < 0x440000 then writeEvq s o v
  else if a < 0x450000 then writeMbx s o v
  else if a < 0x460000 then s
  else if a < 0x468000 then (if h : o / 0x100 < 4 then writeLnk s ⟨o / 0x100, h⟩ (o % 0x100) v else s)
  else if a < 0x470000 then s
  else if a < 0x480000 then (if o = 0x18 then { s with rul := { s.rul with psel := field v 0 14 } } else s)
  else if a < 0x4C0000 then writeFlt s (a - 0x480000) v
  else if a < 0x500000 then s
  else if a < 0x600000 then writeStaging s (a - 0x500000) v
  else if a < 0x800000 then s
  else memError s 1

/-! ## Mailbox commands (R491–R493) -/

/-- A code not listed in Table 18-6 (R493). [log 129: DEDUCED, unsafe] -/
def runUnknown (s : State) (i : SlotIx) (code tag : W16) : State := mbxRun s i code tag inAll [] fun s => mbxEnd s i rcUnknown (put 0 code)

/-- The command of code `code` begins in slot `i`. -/
def mbxDispatch (s : State) (i : SlotIx) (code tag : W16) : State :=
  match code.toNat with
  | 0x01 => runNop s i tag | 0x10 => runFence s i tag | 0x20 => runReinit s i tag | 0x21 => runResetDevice s i tag
  | 0x22 => runRequestPowerCycle s i tag | 0x30 => runRetireChannel s i tag | 0x31 => runReturnChannel s i tag | 0x32 => runMapSpare s i tag
  | 0x40 => runTrimZero s i tag | 0x41 => runTrimSpan s i tag | 0x42 => runRestoreFactory s i tag | 0x43 => runEnrolSignature s i tag
  | 0x50 => runStageOpen s i tag | 0x51 => runStageCommit s i tag | 0x52 => runStageAbort s i tag | 0x60 => runCheck s i tag
  | 0x70 => runForceSafe s i tag | 0x71 => runLeaveSafe s i tag | 0x80 => runEnterTrim s i tag | 0x81 => runLeaveTrim s i tag
  | 0x90 => runWriteConfig s i tag | 0xA0 => runHartPass s i tag
  | _ => runUnknown s i code tag

/-- RESET_DEVICE in slot `i` would be carried out (R407). [log 114: DEDUCED, unsafe] -/
def resetTaken (s : State) (i : SlotIx) : Bool :=
  let a := s.mbx.slot[i].arg[(0 : Fin 32)]
  s.mbx.slot[i].state ≠ .running && a &&& ~~~1 = 0 && (s.boot.job.isNone || bitAt a 0)

/-- CMD words of one order point in ascending slot order; a RESET_DEVICE that is carried out is the only one (R492). [log 114: DEDUCED, unsafe] -/
def runCmds (s : State) (cs : List (SlotIx × W32)) : State :=
  match cs.find? fun c => (field c.2 0 16 : W16) = 0x21 && resetTaken s c.1 with
  | some c => runResetDevice s c.1 (field c.2 16 16)
  | none => cs.foldl (fun a c => mbxDispatch a c.1 (field c.2 0 16) (field c.2 16 16)) s

/-! ## A frame's words (R444) -/

/-- The slot whose CMD word stands at host address `a`. -/
def cmdSlot (a : Nat) : Option SlotIx :=
  if 0x440000 ≤ a && a < 0x440800 && a % 0x100 = 0 then some (BitVec.ofNat 3 ((a - 0x440000) / 0x100)).toFin else none

/-- The word at host address `a` holds RW1C bits. -/
def isRw1c (a : Nat) : Bool :=
  let o := a % 0x10000
  (0x400000 ≤ a && a < 0x410000 && [0x40, 0x58, 0x6C, 0xE0, 0x100].contains o)
  || (0x410000 ≤ a && a < 0x420000 && [0x108, 0x124, 0x164, 0x1C4].contains (o % 0x1000))
  || (0x430000 ≤ a && a < 0x440000 && (o = 0x1000 || o = 0x1018 || (0x1020 ≤ o && o < 0x1030) || (0x2000 ≤ o && o < 0x2200)))
  || (0x460000 ≤ a && a < 0x468000 && o % 0x100 = 0x10)
  || (0x484000 ≤ a && a < 0x484200 && o % 16 = 8) || a = 0x484200

/-- The words of one frame, all at one point. What one of them sets stays set although another clears it (R6), so the words of RW1C bits go
first. Image words are routed; commands start with the arguments as they stand after it. [log 114: DEDUCED, unsafe] -/
def hostWords (s : State) (ws : List (Nat × W32)) : State :=
  let image := ws.filterMap fun w => if w.1 < 0x400000 then some (BitVec.ofNat 20 (w.1 / 4), (field w.2 0 16 : W16)) else none
  let cmds := ws.filterMap fun w => (cmdSlot w.1).map fun i => (i, w.2)
  let s0 := (ws.filter fun w => isRw1c w.1).foldl (fun a w => writeWord a w.1 w.2) s
  let s1 := if image.isEmpty then s0 else originWrites s0 0 (sortBy (·.1.toNat) image)
  runCmds (ws.foldl (fun a w => if (cmdSlot w.1).isSome || isRw1c w.1 then a else writeWord a w.1 w.2) s1) cmds

/-- In STOP only frames to the mailbox are served (R448). [log 115: DEDUCED, unsafe] -/
def servedInStop (ws : List (Nat × W32)) : Bool := ws.all fun w => 0x440000 ≤ w.1 && w.1 < 0x440804

/-- Words written by a command that stands for one write. -/
def hostWrite (s : State) (addr : Nat) (ws : List (Nat × W32)) : State :=
  whenServed s (.write 0 (BitVec.ofNat 24 addr) ws) fun s => if s.m.mode = .stop && !servedInStop ws then s else hostWords s ws

/-- Little-endian words of consecutive bytes from address `a`. [log 113: DESIGN CHOICE, unsafe] -/
def wordsFrom (a : Nat) (bs : List Byte) : List (Nat × W32) :=
  (List.range (bs.length / 4)).map fun i => (a + 4 * i, BitVec.ofNat 32 (natLE ((bs.drop (4 * i)).take 4)))

/-! ## Commands that stand for writes -/

/-- R307. -/
def execImageWrite (words : List (BitVec 20 × W16)) (s : State) : Host.Outcome State Fault Refusal :=
  .next (hostWrite s 0 (words.map fun w => (4 * w.1.toNat, w.2.setWidth 32)))

/-- R224; in STOP the write is discarded under its own rule. [log 115: DEDUCED, unsafe] -/
def execCoefficientWrite (p : PathIx) (bank : Bool) (tap : BitVec 6) (v : W32) (s : State) : Host.Outcome State Fault Refusal :=
  let a := 0x480000 + 512 * p.val + (if bank then 256 else 0) + 4 * tap.toNat
  .next (whenServed s (.write 0 (BitVec.ofNat 24 a) [(a, v)]) fun s => writeCoeff s p bank tap v)

/-- R419: whole words of the staging window. -/
def execStagingWrite (offset : BitVec 20) (data : List Byte) (s : State) : Host.Outcome State Fault Refusal :=
  let a := 0x500000 + offset.toNat
  .next (if offset.toNat % 4 ≠ 0 || data.length % 4 ≠ 0 then s else hostWrite s a (wordsFrom a data))

/-- R225: FLT.PCTLp with SWAP. -/
def execSwapRequest (p : PathIx) (v : W32) (s : State) : Host.Outcome State Fault Refusal :=
  let a := 0x484000 + 16 * p.val
  .next (hostWrite s a [(a, v ||| 1)])

/-- R228: FLT.PCTLp with SYNC. -/
def execSyncRequest (p : PathIx) (v : W32) (s : State) : Host.Outcome State Fault Refusal :=
  let a := 0x484000 + 16 * p.val
  .next (hostWrite s a [(a, v ||| 4)])

/-- Table 10-12: DEV.PPSSET. -/
def execPpssetWrite (v : W32) (s : State) : Host.Outcome State Fault Refusal := .next (hostWrite s 0x40008C [(0x40008C, v)])

/-- R485: EVQ.ACK. -/
def execEvqAck (v : W32) (s : State) : Host.Outcome State Fault Refusal := .next (hostWrite s 0x431008 [(0x431008, v)])

/-- EVQ.CNTCLR. -/
def execCountClear (v : W32) (s : State) : Host.Outcome State Fault Refusal := .next (hostWrite s 0x431014 [(0x431014, v)])

/-- R5: a write of the word at `addr`. -/
def execRegisterWrite (addr : BitVec 24) (v : W32) (s : State) : Host.Outcome State Fault Refusal :=
  let a := addr.toNat / 4 * 4
  .next (hostWrite s a [(a, v)])

/-- R493: a CMD word with a code of no command. -/
def execUnknownMailboxCommand (slot : SlotIx) (code tag : W16) (s : State) : Host.Outcome State Fault Refusal :=
  .next (mbxServed s slot code tag fun s i t => mbxDispatch s i code t)

end Sys2Proof.Machine
end

