-- ==== Sys2Proof/Machine/HostPort.lean ====
section
/-!
DEFINITION. The host port's frames (16 R437–R452): their classification under Table 16-2, the answers to reads, the acceptance and holding of
writes and fences, and the legacy frames.
-/
namespace Sys2Proof.Machine

/-! ## Shared parts -/

/-- The host port's own state changed. -/
def State.modHost (s : State) (f : HostPort → HostPort) : State := { s with host := f s.host }

/-- A read of which no sync or abort was seen has been released in its dummy phase or its busy bytes, and is not counted (Table 16-2). [log 118: DEDUCED, unsafe] -/
def endRead (s : State) : State := s.modHost fun h => { h with reading := none, reply := .none }

/-- The first rows of Table 16-2: no frame is seen in reset, while EXTEST acts (R514) or without a cycle, and one released inside its command
byte is PARTIAL. [log 117: DEDUCED, unsafe] -/
def frameStart (s : State) (cycles : Nat) (f : State → State) : State :=
  if portReset s || s.extestActs || cycles = 0 then s
  else
    let s1 := endRead s
    if cycles < 8 then hostError s1 3 0 0 else f s1

/-- A command byte that the port does not know in its mode. -/
def unknownFrame (s : State) (code : Byte) : State := hostError s 8 code 0

/-- Host addresses end here. -/
def hostEnd : Nat := 0x1000000

/-- A cycle count short of a phase's end: EARLY on a byte boundary of `per` cycles, PARTIAL inside a byte. -/
def shortCode (c per : Nat) : BitVec 4 := if c % per = 0 then 2 else 3

/-! ## RC fields (R442) -/

/-- FRESH of record `r` clears, when it is the result whose word 1 was captured as `w`; a later result keeps its own (R439). -/
def clearRec (w : W32) (r : ResultBlock) : ResultBlock := if r.seq = field w 16 16 then { r with fresh := false } else r

/-- FRESH of the result block whose word 1, captured as `w`, stands at host address `a` clears. -/
def clearFresh (s : State) (a : Nat) (w : W32) : State :=
  let o := a - 0x420000
  if a < 0x420004 || 0x420380 ≤ a || o % 16 ≠ 4 then s
  else if o < 0x200 then s.modPath (pathOf (o / 16)) fun x => { x with res := clearRec w x.res }
  else if h : (o - 0x200) / 16 < 24 then { s with conv := { s.conv with hk := modAt s.conv.hk ⟨(o - 0x200) / 16, h⟩ (clearRec w) } }
  else s

/-- The words that lie wholly in the bytes clocked out from address `a`. -/
def clearRead (s : State) (a : Nat) (bytes : List Byte) : State :=
  (List.range bytes.length).foldl (fun x i =>
    if (a + i) % 4 = 0 && i + 4 ≤ bytes.length then clearFresh x (a + i) (BitVec.ofNat 32 (natLE ((bytes.drop i).take 4))) else x) s

/-! ## Native reads -/

/-- A native read with `a` address lanes (R438, R440, Table 16-2). Its bytes are captured at the order point, when they can be. [log 117: DEDUCED, unsafe] -/
def readFrame (s : State) (cmd : Byte) (a : Nat) (f : HostFrame) : State :=
  frameStart s f.cycles fun s =>
    if s.straps.hcompat then unknownFrame s cmd
    else if f.cycles < 8 + 40 / a then hostError s 2 cmd (if f.cycles < 8 + 24 / a then 0 else f.addr)
    else if f.len = 0 || 4096 < f.len then hostError (s.modHost fun h => { h with reply := .fill }) 1 cmd f.addr
    else if hostEnd < f.addr.toNat + f.len then hostError (s.modHost fun h => { h with reply := .fill }) 7 cmd f.addr
    else
      let bytes := if s.execRuns then hostBytes s f.addr.toNat f.len else []
      { s with
        free := if 0x800000 < f.addr.toNat + f.len then s.free + 1 else s.free
        host := { s.host with reply := .busy, reading := some ⟨cmd, f.addr, bytes, f.laneError⟩ } }

def execRead (f : HostFrame) (s : State) : Host.Outcome State Fault Refusal := .next (readFrame s 0x0B 1 f)
def execReadDualData (f : HostFrame) (s : State) : Host.Outcome State Fault Refusal := .next (readFrame s 0x3B 1 f)
def execReadDualAddressData (f : HostFrame) (s : State) : Host.Outcome State Fault Refusal := .next (readFrame s 0xBB 2 f)
def execReadQuadData (f : HostFrame) (s : State) : Host.Outcome State Fault Refusal := .next (readFrame s 0x6B 1 f)
def execReadQuadAddressData (f : HostFrame) (s : State) : Host.Outcome State Fault Refusal := .next (readFrame s 0xEB 4 f)

/-- R440, R442: sync and the data; `clocked` data bytes are clocked out. A lane error counts once they all are (Table 16-2). [log 118: DEDUCED, unsafe] -/
def execReadSync (clocked : Nat) (laneError : Bool) (s : State) : Host.Outcome State Fault Refusal :=
  .next (match s.host.reading with
    | none => s
    | some r =>
      if r.bytes.isEmpty then s
      else
        let s1 := s.modHost fun h => { h with reading := none, reply := .data r.bytes }
        if laneError || r.laneError then (if clocked < r.bytes.length then s1 else hostError s1 5 r.cmd r.addr)
        else clearRead s1 r.addr.toNat (r.bytes.take clocked))

/-- R440: MAXWAIT busy bytes have passed. [log 118: DEDUCED, unsafe] -/
def execReadAbort (s : State) : Host.Outcome State Fault Refusal :=
  .next (match s.host.reading with
    | none => s
    | some r =>
      let s1 := s.modHost fun h => { h with reading := none, reply := .abort, aborts := satInc h.aborts }
      if r.laneError then hostError s1 5 r.cmd r.addr else s1)

/-! ## STATUS and IDENT (R446, R447) -/

/-- Data bytes of all held frames. -/
def State.heldBytes (s : State) : Nat := (s.held.map HeldFrame.bytes).sum

/-- The STATUS word (Table 16-3). -/
def statusWord (s : State) : W32 :=
  put 0 s.m.mode.code ||| putB 3 s.execRuns ||| putB 4 s.recov.handover.isSome ||| putB 5 s.triad.halted ||| putB 6 s.irq
  ||| putB 7 (s.safeN) ||| put 8 s.host.discards ||| put 16 s.host.done ||| put 24 s.host.lastErr ||| putB 28 (!s.holdRoom 4096)
  ||| putB 29 s.straps.hcompat ||| putB 30 s.recov.reload.isSome

/-- A frame that the port's hardware answers at a fixed latency. One released in its dummy byte or data counts no lane error (Table 16-2). -/
def fixedFrame (s : State) (code : Byte) (cycles : Nat) (laneError : Bool) (bytes : State → List Byte) : State :=
  frameStart s cycles fun s =>
    let s1 := s.modHost fun h => { h with reply := .fixed (bytes s) }
    if laneError && 16 + 8 * (bytes s).length ≤ cycles then hostError s1 5 code 0 else s1

def execStatus (cycles : Nat) (laneError : Bool) (s : State) : Host.Outcome State Fault Refusal :=
  .next (fixedFrame s 0x05 cycles laneError fun s => bytesLE (statusWord s))

def execIdent (cycles : Nat) (laneError : Bool) (s : State) : Host.Outcome State Fault Refusal :=
  .next (fixedFrame s 0x9F cycles laneError fun s => [0, 1, 2, 3].flatMap fun i => bytesLE (identWord s i))

/-! ## Writes and fences (R443–R449) -/

/-- One more frame accepted (R444). -/
def countDone (s : State) : State := s.modHost fun h => { h with done := h.done + 1 }

/-- A complete write frame in the hands of the executive; in STOP only those to the mailbox are served. -/
def carryWrite (s : State) (cmd : Byte) (addr : BitVec 24) (ws : List (Nat × W32)) : State :=
  if s.m.mode = .stop && !servedInStop ws then (if cmd = 0 then s else hostError s 10 cmd addr)
  else hostWords s ws

/-- A complete FENCE frame in the hands of the executive. A refused one counts only in FENCESTAT.REFUSED (R310, R447). -/
def carryFence (s : State) (tag : W16) : State :=
  if s.m.mode = .stop then hostError s 10 0xB9 0
  else if s.m.mode = .load then { s with img := { s.img with fenceRefused := satInc s.img.fenceRefused } }
  else
    let r := placeFence s tag .frame fullBudget
    if r.2 then countDone r.1 else r.1

/-- A held frame carried out. -/
def carryHeld (s : State) (f : HeldFrame) : State :=
  match f with
  | .write cmd addr ws => carryWrite s cmd addr ws
  | .fence tag => carryFence s tag

/-- DONE advances at the order point of an accepted write (R444); a fence is accepted once it is placed (R447). -/
def countAccepted (s : State) (f : HeldFrame) : State :=
  match f with
  | .write _ _ ws => if s.m.mode = .stop && !servedInStop ws then s else countDone s
  | .fence _ => s

/-- A complete frame under Table 16-4: carried out, held, or counted as OVERFLOW or UNAVAILABLE. -/
def acceptFrame (s : State) (f : HeldFrame) (cmd : Byte) (addr : BitVec 24) : State :=
  if s.execRuns then carryHeld (countAccepted s f) f
  else if s.m.run ≠ .running then hostError s 10 cmd addr
  else if s.holdRoom f.bytes then countAccepted { s with held := s.held ++ [f] } f
  else hostError s 9 cmd addr

/-- Data of `n` bytes as received. -/
def padded (n : Nat) (bs : List Byte) : List Byte := (bs ++ List.replicate n 0).take n

/-- A native write with `d` data lanes (Table 16-2). [log 117: DEDUCED, unsafe] -/
def writeFrame (s : State) (cmd : Byte) (d : Nat) (f : HostFrame) : State :=
  let a := f.addr.toNat
  let c := f.cycles
  if c < 48 then hostError s (if 32 ≤ c && a % 4 ≠ 0 then 6 else shortCode (c - 8) 8) cmd (if c < 32 then 0 else f.addr)
  else if f.len = 0 || 4096 < f.len then hostError s 1 cmd f.addr
  else if a % 4 ≠ 0 || f.len % 4 ≠ 0 then hostError s 6 cmd f.addr
  else if hostEnd < a + f.len then hostError s 7 cmd f.addr
  else if c < 48 + 8 * f.len / d then hostError s (shortCode (c - 48) (8 / d)) cmd f.addr
  else if 48 + 8 * f.len / d < c then hostError s 4 cmd f.addr
  else if f.laneError then hostError s 5 cmd f.addr
  else acceptFrame s (.write cmd f.addr (wordsFrom a (padded f.len f.data))) cmd f.addr

/-- A legacy WRITE of A and its data (R451, Table 16-5). [log 116: DEDUCED, unsafe] -/
def legacyWriteFrame (s : State) (a : W16) (data : List Byte) (c : Nat) (laneError : Bool) : State :=
  let addr := s.host.page.toNat * 0x10000 + a.toNat
  let h : BitVec 24 := BitVec.ofNat 24 addr
  let n := (c - 24) / 8
  if c < 24 then hostError s (shortCode c 8) 0x02 0
  else if n = 0 || 64 < n then hostError s 1 0x02 h
  else if a.toNat % 4 ≠ 0 || n % 4 ≠ 0 then hostError s 6 0x02 h
  else if hostEnd < addr + n then hostError s 7 0x02 h
  else if c % 8 ≠ 0 then hostError s 3 0x02 h
  else if laneError then hostError s 5 0x02 h
  else acceptFrame s (.write 0x02 h (wordsFrom addr (padded n data))) 0x02 h

/-- WRITE, 0x02. In legacy mode the same bytes are a legacy WRITE. -/
def execWrite (f : HostFrame) (s : State) : Host.Outcome State Fault Refusal :=
  .next (frameStart s f.cycles fun s =>
    if s.straps.hcompat then
      let len : W16 := BitVec.ofNat 16 f.len
      legacyWriteFrame s (field f.addr 8 16) ([field f.addr 0 8, field len 8 8, field len 0 8] ++ f.data) f.cycles f.laneError
    else writeFrame s 0x02 1 f)

def execWriteDualData (f : HostFrame) (s : State) : Host.Outcome State Fault Refusal :=
  .next (frameStart s f.cycles fun s => if s.straps.hcompat then unknownFrame s 0xA2 else writeFrame s 0xA2 2 f)

def execWriteQuadData (f : HostFrame) (s : State) : Host.Outcome State Fault Refusal :=
  .next (frameStart s f.cycles fun s => if s.straps.hcompat then unknownFrame s 0x32 else writeFrame s 0x32 4 f)

/-- FENCE (R438, R447). -/
def execFenceFrame (tag : W16) (cycles : Nat) (laneError : Bool) (s : State) : Host.Outcome State Fault Refusal :=
  .next (frameStart s cycles fun s =>
    if s.straps.hcompat then unknownFrame s 0xB9
    else if cycles < 24 then hostError s (shortCode cycles 8) 0xB9 0
    else if 24 < cycles then hostError s 4 0xB9 0
    else if laneError then hostError s 5 0xB9 0
    else acceptFrame s (.fence tag) 0xB9 0)

/-- The command bytes of Table 16-1, and of Table 16-5. -/
def knownCode (legacy : Bool) (code : Byte) : Bool :=
  if legacy then code = 0x03 || code = 0x02 || code = 0x0A || code = 0x05 || code = 0x9F
  else code = 0x0B || code = 0x3B || code = 0xBB || code = 0x6B || code = 0xEB || code = 0x02 || code = 0xA2 || code = 0x32
    || code = 0x05 || code = 0x9F || code = 0xB9

/-- A frame whose command byte is in neither the table of the port's mode. -/
def execUnknownCommand (code : Byte) (cycles : Nat) (s : State) : Host.Outcome State Fault Refusal :=
  .next (if knownCode s.straps.hcompat code then s else frameStart s cycles fun s => unknownFrame s code)

/-! ## Legacy frames (R450–R452) -/

/-- The status byte of a legacy READ (R452). -/
def legacyStatus (s : State) : Byte :=
  (put 0 s.m.mode.code ||| putB 3 s.host.latePrev ||| putB 4 s.recov.handover.isSome ||| putB 5 s.irq ||| putB 6 s.execRuns
    ||| putB 7 (s.safeN)).setWidth 8

/-- A legacy READ; `late` says that its data is not in the buffer in time. [log 116: DEDUCED, unsafe] -/
def legacyReadFrame (s : State) (f : HostFrame) (late : Bool) : State :=
  frameStart s f.cycles fun s =>
    let addr := s.host.page.toNat * 0x10000 + f.addr.toNat % 0x10000
    let h24 : BitVec 24 := BitVec.ofNat 24 addr
    let st := legacyStatus s
    let fill := List.replicate 64 (0xFF : Byte)
    if !s.straps.hcompat then unknownFrame s 0x03
    else if f.cycles < 24 then hostError s 2 0x03 0
    else if hostEnd < addr + 64 then hostError (s.modHost fun h => { h with reply := .legacy st fill }) 7 0x03 h24
    else
      let isLate := (late || !s.execRuns) && 88 ≤ f.cycles
      let bytes := if isLate || !s.execRuns then fill else hostBytes s addr 64
      let s1 := { s with
        free := if 0x800000 < addr + 64 then s.free + 1 else s.free
        host := { s.host with reply := .legacy st bytes, latePrev := isLate, late := if isLate then satInc s.host.late else s.host.late } }
      if f.laneError then (if f.cycles < 600 then s1 else hostError s1 5 0x03 h24)
      else if isLate || !s.execRuns then s1
      else clearRead s1 addr (bytes.take ((f.cycles - 88) / 8))

def execLegacyRead (f : HostFrame) (s : State) : Host.Outcome State Fault Refusal := .next (legacyReadFrame s f false)
def execLegacyReadLate (f : HostFrame) (s : State) : Host.Outcome State Fault Refusal := .next (legacyReadFrame s f true)

/-- A native WRITE frame of the bytes that a legacy WRITE sends. [log 116: DEDUCED, unsafe] -/
def asNative (f : HostFrame) : HostFrame :=
  let b (i : Nat) : Byte := f.data.getD i 0
  { f with addr := field f.addr 0 16 ++ b 0, len := (b 1).toNat * 256 + (b 2).toNat, data := f.data.drop 3 }

/-- Legacy WRITE, 0x02. In native mode the same bytes are a native WRITE. -/
def execLegacyWrite (f : HostFrame) (s : State) : Host.Outcome State Fault Refusal :=
  .next (frameStart s f.cycles fun s =>
    if s.straps.hcompat then legacyWriteFrame s (field f.addr 0 16) f.data f.cycles f.laneError else writeFrame s 0x02 1 (asNative f))

/-- SETPAGE (R451), taken by the port itself at its release. -/
def execSetpage (page : Byte) (cycles : Nat) (laneError : Bool) (s : State) : Host.Outcome State Fault Refusal :=
  .next (frameStart s cycles fun s =>
    if !s.straps.hcompat then unknownFrame s 0x0A
    else if cycles < 16 then hostError s (shortCode cycles 8) 0x0A 0
    else if 16 < cycles then hostError s 4 0x0A 0
    else if laneError then hostError s 5 0x0A 0
    else countDone (s.modHost fun h => { h with page := page }))

end Sys2Proof.Machine
end

