-- ==== Sys2Proof/Machine/LinkPort.lean ====
section
/-!
DEFINITION. A port of the Svasta Link: training, credits and census, delay measurement, sending and retransmission, loss (13 R344–R367).
-/
namespace Sys2Proof.Machine


/-- What port `k` puts on the line. -/
def putOut (s : State) (k : PortIx) (o : LinkOut) : State := s.modPort k fun p => { p with out := p.out ++ [o] }

/-! ## States (Table 13-5) -/

/-- Entry to UP: full credits, the entries naming the port, and DISC on an upstream port (R306, R360, R369). -/
def enterUp (s : State) (k : PortIx) : State :=
  let s1 := s.modPort k fun p => { p with req := { p.req with credits := 8 }, rsp := { p.rsp with credits := 8 }, urg := { p.urg with credits := 4 } }
  let s2 := entriesUp (setPortState s1 k .up) k
  if s2.upPort = some k then sendDisc s2 else s2

/-- Any symbol other than IDL, SKP or TRAIN after the own READY was sent completes the training (R354). [log 87: DEDUCED, unsafe] -/
def upBySymbol (s : State) (k : PortIx) : State :=
  if s.port[k].state = .training && s.port[k].readySent then enterUp s k else s

/-- Comma alignment over 128 clean code groups: DOWN becomes TRAINING, outside LOAD and STOP. -/
def execCommaAligned (k : PortIx) (s : State) : Host.Outcome State Fault Refusal :=
  .next (if s.port[k].state = .down && !s.port[k].retryWait && s.m.mode ≠ .load && s.m.mode ≠ .stop then setPortState s k .training else s)

/-- R353: not UP within 10 ms of entering TRAINING. -/
def execTrainingTimeout (k : PortIx) (s : State) : Host.Outcome State Fault Refusal :=
  .next (if s.port[k].state = .training then (portReinit (clearOut s) k 6).modPort k fun p => { p with retryWait := true } else s)

/-- R353: 100 ms later the port tries again. -/
def execTrainingRetry (k : PortIx) (s : State) : Host.Outcome State Fault Refusal :=
  .next (s.modPort k fun p => { p with retryWait := false })

/-- A frame on the line, for the receiver whose OWN_ID is `rxId`. -/
def sent (rxId : W32) (f : TxFrame) : LinkOut := .frame f.msg.cls (linkWire rxId f)

/-- R354 step 1: a TRAIN frame with this port's identity, SEEN and READY. -/
def execTrainSend (k : PortIx) (s : State) : Host.Outcome State Fault Refusal :=
  .next (if s.port[k].state ≠ .training then s
    else
      let c := s.linkCfg k
      let p := s.port[k]
      let t : TrainInfo := { ownId := c.ownId, role := c.role, baud := c.baudMhz.setWidth 8, revision := 1, seen := p.seen,
                             ready := p.ready, winBase := s.group.winBase, winLog2 := s.group.winLog2 }
      s.modPort k fun p => { p with seenSent := p.seen, readySent := p.ready, txCnt := p.txCnt + 1, out := [sent c.peerId { msg := .train t }] })

/-- What a TRAIN frame disagrees with (R354): OWN_ID, ROLE, BAUD_MHZ. -/
def trainMismatch (c : LinkCfg) (t : TrainInfo) : Bool × Bool × Bool :=
  (t.ownId ≠ c.peerId, !((c.role = 1 && t.role = 2) || (c.role = 2 && t.role = 1)), t.baud ≠ c.baudMhz.setWidth 8)

/-- A TRAIN frame received in TRAINING (R354). [log 87: DEDUCED, unsafe] -/
def takeTrain (s : State) (k : PortIx) (t : TrainInfo) : State :=
  let m := trainMismatch (s.linkCfg k) t
  let p := s.port[k]
  let rose := [m.1 && !p.idMm, m.2.1 && !p.roleMm, m.2.2 && !p.baudMm]
  let good := !m.1 && !m.2.1 && !m.2.2 && t.revision = 1
  let s1 := s.modPort k fun p =>
    { p with peerId := t.ownId, idMm := p.idMm || m.1, roleMm := p.roleMm || m.2.1, baudMm := p.baudMm || m.2.2, rxCnt := p.rxCnt + 1,
             trainRun := if good then p.trainRun + 1 else 0, seen := p.seen || (good && 1 ≤ p.trainRun), peerSeen := p.peerSeen || (good && t.seen) }
  let s2 := rose.foldl (fun a r => if r then raiseLinkErr a k else a) s1
  if good && t.ready && s2.port[k].readySent then enterUp s2 k else s2

/-- R353, R354: a TRAIN frame, whose FSEQ is 0; its OWN_ID shows in PEERID (Table 13-13). One that shows a peer starting afresh re-initialises an UP
port, with cause 10. [log 87: DEDUCED, unsafe] -/
def execTrain (k : PortIx) (f : LinkHeader) (s : State) : Host.Outcome State Fault Refusal :=
  .next (
    let s := clearOut s
    let t := trainOf f.payload
    if s.port[k].state = .disabled || s.port[k].state = .down then s
    else if !f.eof then s.modPort k fun p => { p with aborts := satInc p.aborts, trainRun := 0 }
    else if !linkOk (s.linkCfg k).ownId f (trainMsg f) then (crcError s k).modPort k fun p => { p with trainRun := 0 }
    else if f.fseq ≠ 0 then s.modPort k fun p => { p with trainRun := 0 }
    else if s.port[k].state = .up then
      let s1 := s.modPort k fun p => { p with peerId := t.ownId }
      if t.ready then s1 else portReinit s1 k 10
    else takeTrain s k t)

/-- R355: no symbol for 10 µs. -/
def execLossOfSignal (k : PortIx) (s : State) : Host.Outcome State Fault Refusal :=
  .next (if s.port[k].state = .up then portReinit (clearOut s) k 1 else s)

/-- R355: a code violation; the 64th of an UP port within 1 ms re-initialises it. [log 92: DESIGN CHOICE, safe] -/
def execCodeViolation (k : PortIx) (s : State) : Host.Outcome State Fault Refusal :=
  .next (
    let l := s.tick :: s.port[k].viols.filter fun t => s.since t < msTicks 1
    if s.port[k].state ≠ .up then s
    else if l.length < 64 then s.modPort k fun p => { p with viols := l }
    else portReinit (clearOut s) k 2)

/-! ## Credits, acknowledgements and the census (R359–R364) -/

def classOf : Nat → Option LinkClass
  | 0 => some .request
  | 1 => some .response
  | 2 => some .urgent
  | _ => none

/-- A control sequence discarded (R346). -/
def ctlError (s : State) (k : PortIx) : State := s.modPort k fun p => { p with ctlErr := satInc p.ctlErr }

/-- A control sequence received: one that fails its check is counted on a port in TRAINING or UP (R346), and one taken by `f` on an UP port may have
completed its training (R354). -/
def takeControl (s : State) (k : PortIx) (ok : Bool) (f : State → State) : State :=
  let s := upBySymbol (clearOut s) k
  if s.port[k].state = .disabled || s.port[k].state = .down then s
  else if !ok then ctlError s k
  else if s.port[k].state = .up then f s
  else s

/-- R361: a credit return. -/
def execCrt (k : PortIx) (v check : Byte) (s : State) : Host.Outcome State Fault Refusal :=
  .next (takeControl s k (check = ~~~v) fun s =>
    match classOf (field v 6 2 : BitVec 2).toNat with
      | some c =>
        let n := (field v 3 3 : BitVec 3).toNat + 1
        s.modPort k fun p => p.modCls c fun x => { x with credits := x.credits + n, rcv := x.rcv + BitVec.ofNat 8 n }
      | none => ctlError s k)

/-- R359: a cumulative acknowledgement. -/
def execAck (k : PortIx) (c : LinkClass) (q : Byte) (s : State) : Host.Outcome State Fault Refusal :=
  .next (takeControl s k true fun s =>
    match (s.port[k].cls c).unacked.findIdx? fun f => f.fseq = q with
      | some i =>
        let l := (s.port[k].cls c).unacked
        (l.take (i + 1)).foldl freeHeld (s.modPort k fun p => p.modCls c fun x => { x with unacked := l.drop (i + 1) })
      | none => s)

/-- RET at tick `t` from the kept history: 0 before its first value. -/
def retAt : List (W64 × Byte) → W64 → Byte
  | [], _ => 0
  | x :: xs, t => if x.1.toNat ≤ t.toNat then x.2 else retAt xs t

/-- R363 for one class: held credits `h` and RCV of the sender against this receiver's books. -/
def censusOk (s : State) (p : Port) (c : LinkClass) (h : Nat) (rcv : Byte) : Bool :=
  let x := p.cls c
  let back := (2 * p.delay.toNat + 2000 + 99) / 100
  h + x.occupied + (x.ret - rcv).toNat = creditTotal c && !serialGt (retAt x.retHist (s.tick - BitVec.ofNat 64 back)) rcv

/-- R363, R364: a census. -/
def execCen (k : PortIx) (hq hp hu rq rp ru ck : Byte) (s : State) : Host.Outcome State Fault Refusal :=
  .next (takeControl s k (crc8 [hq, hp, hu, rq, rp, ru] = ck) fun s =>
      let p := s.port[k]
      let good := censusOk s p .request hq.toNat rq && censusOk s p .response hp.toNat rp && censusOk s p .urgent hu.toNat ru
      if good then s
      else
        let s1 := s.modPort k fun p => { p with censusFail := satInc p.censusFail }
        portReinit (if p.censusFail = 15 then s1 else raiseLinkErr s1 k) k 3)

/-- R363: the port's own census. -/
def execCensusSend (k : PortIx) (s : State) : Host.Outcome State Fault Refusal :=
  .next (if s.port[k].state ≠ .up then s
    else s.modPort k fun p =>
      { p with out := [.cen (cenBytes ([p.req.credits, p.rsp.credits, p.urg.credits].map (BitVec.ofNat 8) ++ [p.req.rcv, p.rsp.rcv, p.urg.rcv]))] })

/-- R364: no valid census for 3 ms. -/
def execCensusMissing (k : PortIx) (s : State) : Host.Outcome State Fault Refusal :=
  .next (if s.port[k].state = .up then portReinit (clearOut s) k 4 else s)

/-! ## Delay (R356) -/

/-- R356 step 1: a delay request leaves at `t1`. -/
def execDelayExchange (k : PortIx) (t1Ns : Int) (s : State) : Host.Outcome State Fault Refusal :=
  .next (
    let p := s.port[k]
    let training := p.state = .training && p.seen && p.seenSent && p.peerSeen && p.exchanges < 8
    if !(training || p.state = .up) then s
    else s.modPort k fun p =>
      { p with exchOpen := some (p.exchSeq, t1Ns), exchSeq := p.exchSeq + 1, out := [.mark (markBytes 0 p.exchSeq)] })

/-- R356 step 2: a delay request arrives and is answered with the turnaround. -/
def execMarkDelayRequest (k : PortIx) (v : BitVec 24) (ck : Byte) (turnNs : BitVec 24) (s : State) : Host.Outcome State Fault Refusal :=
  .next (
    let s := upBySymbol (clearOut s) k
    if !(s.port[k].state = .training || s.port[k].state = .up) then s
    else if !markOk 0 v ck then ctlError s k
    else putOut s k (.mark (markBytes 1 turnNs)))

/-- An exchange is kept: every one in training, otherwise one within ±20 ns of the median of the last eight. [log 88: DEDUCED, unsafe] -/
def keptRtt (p : Port) (rtt : Int) : Bool :=
  if p.state = .training || p.rtts.length < 8 then true
  else
    let l := sortAsc p.rtts
    (2 * rtt - (l.getD 3 0 + l.getD 4 0)).natAbs ≤ 40

/-- D, SPREAD and the list after a kept round trip. [log 88: DEDUCED, unsafe] -/
def keepRtt (p : Port) (rtt : Int) : Port :=
  let l := (rtt :: p.rtts).take 8
  let srt := sortAsc l
  let d := divRound l.sum 16
  let sp := (srt.getLastD 0 - srt.headD 0).toNat
  { p with rtts := l, delay := satNat 16 d.toNat, spread := satNat 8 sp }

/-- R356 step 3: the delay response arrives at `t4`. [log 88: DEDUCED, unsafe] -/
def execMarkDelayResponse (k : PortIx) (turnNs : BitVec 24) (ck : Byte) (t4Ns : Int) (s : State) : Host.Outcome State Fault Refusal :=
  .next (
    let s := upBySymbol (clearOut s) k
    let p := s.port[k]
    if !(p.state = .training || p.state = .up) then s
    else if !markOk 1 turnNs ck then ctlError s k
    else match p.exchOpen with
      | none => s
      | some (_, t1) =>
        let rtt : Int := (t4Ns - t1) - turnNs.toNat
        s.modPort k fun p =>
          let q := if keptRtt p rtt then keepRtt p rtt else { p with rej := satInc p.rej }
          let q := { q with exchOpen := none }
          if p.state = .training then { q with exchanges := p.exchanges + 1, ready := decide (8 ≤ p.exchanges + 1) } else q)

/-- R357: a time-reference MARK arrives, `ns` after the tick. -/
def execMarkTimeReference (k : PortIx) (v : BitVec 24) (ck : Byte) (ns : Byte) (s : State) : Host.Outcome State Fault Refusal :=
  .next (takeControl s k (markOk 2 v ck) fun s => s.modPort k fun p => { p with mark := some (v, s.tick, ns) })

/-- Wheel `w`'s TIME record as it leaves now (R273, R357). -/
def timeRecord (s : State) (w : WheelIx) (fTx : Byte) : TimeRecord :=
  let x := s.wheel[w]
  let c := s.tide w
  let sec := match s.time.ppsLast with | some _ => s.time.secValid | none => false
  { wheel := w, wheelState := x.state.code, uncert := x.uncert, secValid := sec, hops := if c.ref = 4 then x.hops else 0,
    periodUs := c.periodUs, aUp := x.acc, incUp := x.inc, unc := if c.ref = 4 then x.unc else 0, fTx := fTx,
    sec := if sec then s.time.sec else 0,
    qUp := if sec then (match s.time.ppsLast with | some t => (s.tick - t).setWidth 32 | none => 0) else 0 }

/-! ## Sending (R359–R361, R366, R367) -/

/-- The frame is a request of this device's own, whose budget runs from its sending: not a forwarded one, nor one of a fence from upstream. -/
def ownRequest (s : State) (k : PortIx) (f : TxFrame) : Bool :=
  s.img.out.any fun r => r.port = k && r.tag = f.tag && (match r.kind with
    | .transit _ _ => false
    | .fence id => !s.img.fencesUp.any fun x => x.id = id
    | _ => true)

/-- Budget a frame would carry if it left now. -/
def budgetNow (s : State) (k : PortIx) (f : TxFrame) : Nat :=
  if ownRequest s k f then f.budget.toNat else f.budget.toNat - (s.since f.since + 99) / 100

/-- Units of a frame this device sends. -/
def txUnits (f : TxFrame) : Nat := unitsOf (16 + payloadLen f.msg)

/-- Position of the waiting request with the smallest budget, the earliest among equals. [log 91: DEDUCED, unsafe] -/
def nextRequest (s : State) (k : PortIx) : List TxFrame → Option (Nat × Nat)
  | [] => none
  | f :: fs => match nextRequest s k fs with
    | some (i, b) => if budgetNow s k f ≤ b then some (0, budgetNow s k f) else some (i + 1, b)
    | none => some (0, budgetNow s k f)

/-- The waiting frame of a class that goes next, once no retransmission waits before it (R359). [log 91: DEDUCED, unsafe] -/
def nextOf (s : State) (k : PortIx) (c : LinkClass) : Option (Nat × TxFrame) :=
  let l := if (s.port[k].cls c).unacked.any (·.again) then [] else (s.port[k].cls c).waiting
  let i := match c with | .request => (nextRequest s k l).map Prod.fst | _ => if l.isEmpty then none else some 0
  i.bind fun i => match l[i]? with
    | some f => if txUnits f ≤ (s.port[k].cls c).credits then some (i, f) else none
    | none => none

/-- An urgent frame of another device forwarded here (R368). -/
def isForwarded (s : State) (f : TxFrame) : Bool := match f.msg with
  | .lamp a _ _ => !s.isLocal a
  | .event _ _ a => !s.isLocal a
  | _ => false

/-- What a frame leaves as, with the MARK sent immediately before it: a TIME record tells of the tick at which its MARK departs (R357). -/
def departing (s : State) (k : PortIx) (m : LinkMsg) : LinkMsg × List LinkOut := match m with
  | .time _ r => let v := s.port[k].markSeq; (.time v (timeRecord s r.wheel r.fTx), [.mark (markBytes 2 (v.setWidth 24))])
  | m => (m, [])

/-- One waiting frame goes out, with its credits debited. -/
def sendOf (s : State) (k : PortIx) (c : LinkClass) (i : Nat) (f : TxFrame) : State :=
  s.modPort k fun p =>
    let m := departing s k f.msg
    let g := { f with msg := m.1, fseq := (p.cls c).txSeq, sends := 1, budget := BitVec.ofNat 16 (budgetNow s k f) }
    let q := p.modCls c fun x => { x with txSeq := x.txSeq + 1, waiting := x.waiting.eraseIdx i, unacked := x.unacked ++ [g],
                                          credits := x.credits - txUnits f }
    let dwell : W16 := satNat 16 (10 * s.since f.since)
    { q with txCnt := q.txCnt + 1, out := m.2 ++ [sent (s.linkCfg k).peerId g],
             markSeq := if m.2.isEmpty then q.markSeq else q.markSeq + 1,
             urgForwarded := if isForwarded s f then q.urgForwarded + 1 else q.urgForwarded,
             maxDwell := if isForwarded s f && q.maxDwell.toNat < dwell.toNat then dwell else q.maxDwell }

/-- Frames of a class whose retransmission waits, sent in order while their credits last (R359). -/
def resend : List TxFrame → Nat → List TxFrame × Nat × List TxFrame
  | [], n => ([], n, [])
  | f :: fs, n =>
    if !f.again then let r := resend fs n; (f :: r.1, r.2.1, r.2.2)
    else if txUnits f ≤ n then
      let g := { f with sends := f.sends + 1, again := false }
      let r := resend fs (n - txUnits f)
      (g :: r.1, r.2.1, g :: r.2.2)
    else (f :: fs, n, [])

/-- The retransmissions of class `c` that its credits allow. -/
def resendClass (s : State) (k : PortIx) (c : LinkClass) : State :=
  let r := resend (s.port[k].cls c).unacked (s.port[k].cls c).credits
  s.modPort k fun p =>
    let q := p.modCls c fun x => { x with unacked := r.1, credits := r.2.1 }
    { q with retxFrames := satAdd q.retxFrames r.2.2.length, txCnt := q.txCnt + BitVec.ofNat 32 r.2.2.length,
             out := r.2.2.map (sent (s.linkCfg k).peerId) }

/-- Class `c` has something to send and the credits for it: a retransmission, or the next waiting frame. -/
def sendClass (s : State) (k : PortIx) (c : LinkClass) : Option State :=
  let x := s.port[k].cls c
  match x.unacked.find? (·.again) with
  | some f => if txUnits f ≤ x.credits then some (resendClass s k c) else none
  | none => (nextOf s k c).map fun j => sendOf s k c j.1 j.2

/-- R359, R367: urgent before response before request. [log 91: DEDUCED, unsafe] -/
def execLinkFrameSend (k : PortIx) (s : State) : Host.Outcome State Fault Refusal :=
  .next (
    let s := clearOut s
    if s.port[k].state ≠ .up then s
    else match sendClass s k .urgent with
      | some t => t
      | none => match sendClass s k .response with
        | some t => t
        | none => (sendClass s k .request).getD s)

/-- R359: go-back-N of one class; a frame sent 16 times re-initialises the port. -/
def execLinkRetransmit (k : PortIx) (c : LinkClass) (s : State) : Host.Outcome State Fault Refusal :=
  .next (
    let s := clearOut s
    let x := s.port[k].cls c
    if s.port[k].state ≠ .up || x.unacked.isEmpty then s
    else if x.unacked.any fun f => decide (16 ≤ f.sends) then portReinit s k 5
    else resendClass (s.modPort k fun p => p.modCls c fun x => { x with unacked := x.unacked.map fun f => { f with again := true } }) k c)

/-- Wheel `w`'s TIME record on port `k`: it leaves with its MARK when nothing of its class waits before it, and in its turn otherwise (R357, R367). -/
def timeOn (s : State) (w : WheelIx) (fTx : Byte) (k : PortIx) : State :=
  if s.role k = 2 && s.port[k].state = .up then
    let first := s.port[k].rsp.waiting.isEmpty
    let s1 := sendOn s k { msg := .time 0 (timeRecord s w fTx), since := s.tick }
    if first then (sendClass s1 k .response).getD s1 else s1
  else s

/-- R273, R357: wheel `w`'s TIME record, behind its MARK, on every downstream port that is UP. -/
def execTimeSend (w : WheelIx) (fTx : Byte) (s : State) : Host.Outcome State Fault Refusal :=
  .next (if !started s.wheel[w] || !s.execRuns then s else (List.finRange 4).foldl (fun a k => timeOn a w fTx k) (clearOut s))

end Sys2Proof.Machine
end

