-- ==== Sys2Proof/Machine/LinkFrames.lean ====
section
/-!
DEFINITION. The frames of the Svasta Link that carry traffic: writes, updates, fences, responses, time, discovery and urgent records
(13 R350–R352, R357, R365–R369; 10 R273; 11 R305–R312; 18 R487).
-/
namespace Sys2Proof.Machine

/-! ## Frames that wait in their buffers (R365, R425, Table 13-11) -/

/-- A frame of message `m` waits in its buffer with `units` of it. -/
def bufferFrame (s : State) (k : PortIx) (h : LinkHeader) (m : LinkMsg) (units : Nat) : State :=
  let id := s.img.nextId
  { (s.modPort k fun p => { p with buffered := p.buffered ++ [⟨m, h.tag, h.budget, units, s.tick, id⟩] }) with
    img := { s.img with nextId := id + 1 } }

/-- A frame of message `m` received on port `k` (R352); it may complete a training (R354). It waits in its buffer when `wait` says so, and
is taken by `f` otherwise. [log 77: DEDUCED, unsafe; log 90: DEDUCED, unsafe; log 92: DESIGN CHOICE, safe] -/
def linkFrame (s : State) (k : PortIx) (h : LinkHeader) (m : LinkMsg) (wait : State → Bool) (f : State → State) : State :=
  let s := upBySymbol (clearOut s) k
  receiveFrame s k h m (wait s) fun s => if wait s then bufferFrame s k h m (unitsOf (linkBytes h)) else f s

/-- The executive does not take link traffic now (R425). -/
def held (s : State) : Bool := !s.execRuns


/-- An update request applied and acknowledged with the number of entries applied. [log 80: DEDUCED, unsafe] -/
def applyUpdate (s : State) (k : PortIx) (tag : W16) (sweep : Bool) (es : List (BitVec 20 × W32)) : State :=
  let r := takeWords s k sweep es 0
  sendResponse r.1 k (.updateAck (BitVec.ofNat 32 r.2)) tag

/-- An entry naming port `k`, and not OUTSIDE its neighbour's window (R301), contains `a`. -/
def entryOn (s : State) (k : PortIx) (a : BitVec 20) : Bool := match findEntry s.group a with
  | some (j, e) => e.port = k && !s.img.entry[(BitVec.ofNat 8 j).toFin].outside
  | none => false

/-- A remote entry under this device's own entry for source `src` (R487 item 3). -/
def remoteEntry (s : State) (src : SrcIx) (addr : BitVec 20) (count : W16) (detail : W32) : State :=
  let x := s.ev.src[src]
  if !x.enable then s
  else
    let q : QueueEntry := { source := BitVec.ofNat 7 src.val, remote := true, urgent := x.urgent, irq := bitAt x.route 0, count := count,
                            tick := s.tick.setWidth 32, addr := addr, detail := detail }
    enqueue { s with ev := { s.ev with remoteEntries := s.ev.remoteEntries + 1 } } q

/-- Source 4n + 0 of an origin channel, in bits [3:0]. [log 153: DESIGN CHOICE, unsafe] -/
def lampSource (origin : Byte) : SrcIx := chanSrc (origin.setWidth 4).toFin 0

/-- What the device itself does with a LAMP record (R368, R487): the copy takes the word when its SEQ lies after the copy's. [log 80: DEDUCED, unsafe] -/
def actLamp (s : State) (k : PortIx) (a : BitVec 20) (w : W32) (origin : Byte) : State :=
  if !entryOn s k a then
    { s with ev := { s.ev with foreign := satInc s.ev.foreign }, img := { s.img with foreign := satInc s.img.foreign } }
  else
    let s1 := if serialGt (epSeq w) (epSeq (s.ep a)) || s.ep a = epNoComm then epStore s a w else s
    remoteEntry s1 (lampSource origin) a 0 w

/-- What the device itself does with an EVENT record (R487). -/
def actEvent (s : State) (k : PortIx) (src : BitVec 7) (count : W16) (a : BitVec 20) : State :=
  if !entryOn s k a then { s with ev := { s.ev with foreign := satInc s.ev.foreign } }
  else remoteEntry s src.toFin a count 0

/-! ## Responses (R365) -/

/-- The outstanding request a response on port `k` with `tag` answers. -/
def answered (s : State) (k : PortIx) (tag : W16) : Option OutRequest := s.img.out.find? fun r => r.port = k && r.tag = tag

/-- A response with no matching entry. -/
def lateResponse (s : State) (k : PortIx) : State := s.modPort k fun p => { p with late := satInc p.late }

/-- A response matched by port and TAG. -/
def takeResponse (s : State) (k : PortIx) (tag : W16) (f : OutRequest → State → State) : State :=
  match answered s k tag with
  | some r => f r s
  | none => lateResponse s k

/-- The reasons of a write's response at its origin: every reason but 0 is a refusal (R308). -/
def recordReasons (s : State) (src : BitVec 2) : List (BitVec 20) → List Byte → State
  | a :: as, r :: rs => recordReasons (if r = 0 then s else recordRefusal s a (r.setWidth 3) src) src as rs
  | _, _ => s

def actWriteRsp (s : State) (k : PortIx) (tag : W16) (reasons : List Byte) : State :=
  takeResponse s k tag fun r s => match r.kind with
    | .origin src addrs => fenceWriteDone (recordReasons (dropOut s r) src addrs reasons) r.id
    | .transit id pos => mergeFill (fenceWriteDone (dropOut s r) r.id) id pos reasons
    | _ => lateResponse s k

/-- R305: an update is acknowledged, and leaves the conditions of the upstream fences (R312). -/
def actUpdateAck (s : State) (k : PortIx) (tag : W16) : State :=
  takeResponse s k tag fun r s => match r.kind with
    | .update sweep _ => if sweep then dropOut s r else fenceUpdateDone (dropOut s r) r.id
    | _ => lateResponse s k

/-- R311, R312: a fence response; anything but OK marks the fence PARTIAL. -/
def actFenceRsp (s : State) (k : PortIx) (tag : W16) (code : Byte) : State :=
  takeResponse s k tag fun r s => match r.kind with
    | .fence id => fenceHeard (dropOut s r) id k (code ≠ 0)
    | _ => lateResponse s k

/-- R365: a request failed further on. [log 76: DEDUCED, unsafe] -/
def actErrorRsp (s : State) (k : PortIx) (tag : W16) (code : Byte) : State := takeResponse s k tag fun r s => requestFailed s r code

/-- R369, R301: the window a subordinate reports. -/
def actDisc (s : State) (k : PortIx) (winBase : BitVec 20) (winLog2 : Byte) : State :=
  applyPeerWindow (s.modPort k fun p => { p with peerWinBase := winBase, peerWinLog2 := winLog2.setWidth 5, peerWinValid := true }) k

/-! ## Serving what waited -/

/-- A write waits in the buffer of port `k`: no later one passes it (R309). -/
def writeWaits (s : State) (k : PortIx) : Bool := s.port[k].buffered.any fun b => b.msg.isWrite

/-- A waiting frame served now, when it can be. -/
def serveOne (s : State) (k : PortIx) (b : BufferedRequest) : Option State :=
  if held s then none
  else
    let s1 := releaseBuffer s k b
    match b.msg with
    | .write es =>
      if needsWait s k es || writeWaits s k then none
      else some (fenceRouted (transitWrite s1 k b.tag b.budget b.since es) b.id s1.img.nextId)
    | .update sweep es => some (applyUpdate s1 k b.tag sweep es)
    | .writeRsp rs => some (actWriteRsp s1 k b.tag rs)
    | .updateAck _ => some (actUpdateAck s1 k b.tag)
    | .fenceRsp c => some (actFenceRsp s1 k b.tag c)
    | .errorRsp c => some (actErrorRsp s1 k b.tag c)
    | .disc w l => some (actDisc s1 k w l)
    | .lamp a w o => some (actLamp s1 k a w o)
    | .event src c a => some (actEvent s1 k src c a)
    | _ => some s1

/-- The waiting frames of port `k` served in order; those that cannot be stay. [log 77: DEDUCED, unsafe] -/
def serveBuffered (s : State) (k : PortIx) : State :=
  let bs := s.port[k].buffered
  bs.foldl (fun a b => match serveOne a k b with
    | some t => t
    | none => a.modPort k fun p => { p with buffered := p.buffered ++ [b] }) (s.modPort k fun p => { p with buffered := [] })

/-- Every port's, and then the requests for which a response has freed a place. [log 90: DEDUCED, unsafe] -/
def serveAll (s : State) : State := (List.finRange 4).foldl serveBuffered ((List.finRange 4).foldl serveBuffered s)

/-! ## Requests -/

/-- R302, R365: a WRITE request. -/
def execLinkWrite (k : PortIx) (f : LinkHeader) (s : State) : Host.Outcome State Fault Refusal :=
  let es := writesOf f.payload
  .next (linkFrame s k f (writeMsg f) (fun s => held s || needsWait s k es || writeWaits s k) fun s => transitWrite s k f.tag f.budget s.tick es)

/-- R305, R306: an UPDATE request from a subordinate. -/
def execUpdate (k : PortIx) (f : LinkHeader) (s : State) : Host.Outcome State Fault Refusal :=
  .next (linkFrame s k f (updateMsg f) held fun s => applyUpdate s k f.tag (bitAt f.param 0) (wordsOf f.payload))

/-- R310, R312: a FENCE request from upstream, placed on arrival or refused. [log 79: DEDUCED, unsafe] -/
def execFenceRequest (k : PortIx) (f : LinkHeader) (s : State) : Host.Outcome State Fault Refusal :=
  .next (linkFrame s k f (fenceMsg f) (fun _ => false) fun s =>
    let r := placeFence s (BitVec.ofNat 16 (beAt f.payload 0 2)) (.upstream k f.tag) f.budget
    if r.2 then r.1 else sendResponse r.1 k (.fenceRsp 2) f.tag)

/-- R365: a WRITE_RSP, and then the requests that waited for its place. -/
def execWriteRsp (k : PortIx) (f : LinkHeader) (s : State) : Host.Outcome State Fault Refusal :=
  .next (linkFrame s k f (writeRspMsg f) held fun s => serveAll (actWriteRsp s k f.tag f.payload))

def execUpdateAck (k : PortIx) (f : LinkHeader) (s : State) : Host.Outcome State Fault Refusal :=
  .next (linkFrame s k f (updateAckMsg f) held fun s => actUpdateAck s k f.tag)

def execFenceRsp (k : PortIx) (f : LinkHeader) (s : State) : Host.Outcome State Fault Refusal :=
  .next (linkFrame s k f (fenceRspMsg f) held fun s => actFenceRsp s k f.tag (field f.param 0 8))

/-- [log 76: DEDUCED, unsafe] -/
def execErrorRsp (k : PortIx) (f : LinkHeader) (s : State) : Host.Outcome State Fault Refusal :=
  .next (linkFrame s k f (errorRspMsg f) held fun s => serveAll (actErrorRsp s k f.tag (field f.param 0 8)))

/-- A buffered request whose budget has run out. -/
def spent (s : State) (b : BufferedRequest) (tag : W16) : Bool :=
  b.tag = tag && b.msg.cls = .request && b.budget.toNat ≤ (s.since b.since + 99) / 100

/-- A request of another device waits to be sent on port `k` with no budget left. -/
def unsent (s : State) (k : PortIx) (tag : W16) : Bool :=
  s.port[k].req.waiting.any fun f => f.tag = tag && !ownRequest s k f && budgetNow s k f = 0

/-- R366: a request held here has no budget left. One that waits in its input buffer is answered on its arrival port; one that waits to be sent
on is withdrawn and answered, or, a fence's, heard no more. -/
def execRequestBudgetExpiry (k : PortIx) (tag : W16) (s : State) : Host.Outcome State Fault Refusal :=
  .next (match s.port[k].buffered.find? fun b => spent s b tag with
    | some b =>
      sendResponse ((dropBuffered s k b).modPort k fun p => { p with timeouts := satInc p.timeouts }) k (.errorRsp 3) tag
    | none =>
      if !unsent s k tag then s
      else match answered s k tag with
        | some r =>
          let s1 := s.modPort k fun p => { p with req := { p.req with waiting := p.req.waiting.filter fun f => f.tag ≠ tag } }
          serveAll (requestFailed s1 r 3)
        | none => s)

/-- R366: 300 ms without a response at the origin. -/
def execRequestTimeout (k : PortIx) (tag : W16) (s : State) : Host.Outcome State Fault Refusal :=
  .next (match answered s k tag with
    | some r => match r.kind with
      | .transit _ _ => s
      | _ => if s.since r.since < msTicks 300 then s else requestFailed s r 3
    | none => s)

/-! ## Time (R272, R273, R357) -/

/-- What a TIME record with its MARK gives: `d` is the delay in ns from the tick at which A_UP holds to tick `t`. -/
def takeTime (s : State) (k : PortIx) (r : TimeRecord) (t : W64) (d : Int) : State :=
  let w := r.wheel
  let s1 := if r.secValid then
      { s with time := { s.time with up := some { sec := r.sec, origin := t.toNat - divRound d 100 - r.qUp.toNat, arrived := s.tick } } }
    else s
  if !(follows s1 w 4 && (s1.tide w).refPort = k) || stepPending s1.wheel[w] then s1
  else if r.wheelState = 0 || r.periodUs ≠ (s1.tide w).periodUs then rejectEvent s1 w
  else
    let acc := r.aUp + BitVec.ofInt 64 (divRound (d * r.incUp.toNat) 100)
    let s2 := (captureEvent s1 w (phaseOf acc) t).modWheel w fun x =>
      { x with unc := satAdd r.unc 250, hops := r.hops + 1, upUncert := r.uncert }
    if r.uncert then setUncert s2 w true else if s2.wheel[w].state = .locked then setUncert s2 w false else s2

def execTimeRecord (k : PortIx) (f : LinkHeader) (s : State) : Host.Outcome State Fault Refusal :=
  .next (linkFrame s k f (timeMsg f) (fun _ => false) fun s =>
    let p := s.port[k]
    let r := timeOf f.payload
    let s1 := s.modPort k fun p => { p with mark := none }
    match p.mark with
    | some (v, t, ns) =>
      if v = (field f.param 0 16 : W16).setWidth 24 then takeTime s1 k r t ((p.delay.toNat : Int) + r.fTx.toNat - ns.toNat)
      else rejectEvent s1 r.wheel
    | none => rejectEvent s1 r.wheel)

def execDisc (k : PortIx) (f : LinkHeader) (s : State) : Host.Outcome State Fault Refusal :=
  .next (linkFrame s k f (discMsg f) held fun s => actDisc s k (addrAt f.payload 0) (byteAt f.payload 4))

/-! ## Urgent records (R145, R368, R487) -/

/-- An accepted urgent frame of port `k` forwarded on the upstream port by link hardware, holding its units of port `k`; it waits while that port is not
UP. -/
def forwardUrgent (s : State) (k : PortIx) (m : LinkMsg) (units : Nat) : State := match s.group.upport with
  | some u => sendOn s u { msg := m, since := s.tick, hold := some (k, units) }
  | none => s

/-- A discarded urgent frame of `units` units ends its forwarded copy with EOF_ABORT, when its forwarding had begun: nothing waited before
it and an urgent credit was held. The copy's units are debited as any frame's. -/
def abortForward (before after : State) (k : PortIx) (units : Nat) : State :=
  if before.port[k].state = .up && before.role k = 2 && before.port[k].rxCnt = after.port[k].rxCnt then
    match after.upPort with
    | some u =>
      if after.port[u].urg.waiting.isEmpty && units ≤ after.port[u].urg.credits then
        after.modPort u fun p => { p with urg := { p.urg with credits := p.urg.credits - units }, out := [.abortFrame] }
      else after
    | none => after
  else after

/-- An urgent record: forwarded, and acted on here or kept for the end of a handover (R425). Its buffer is kept by whichever of the two still
needs it. -/
def urgentRecord (s : State) (k : PortIx) (f : LinkHeader) (m : LinkMsg) (act : State → State) : State :=
  let units := unitsOf (linkBytes f)
  let s1 := upBySymbol (clearOut s) k
  abortForward s1 (receiveFrame s1 k f m (s1.group.upport.isSome || held s1) fun s =>
    let s2 := forwardUrgent s k m units
    if held s2 then bufferFrame s2 k f m (if s.group.upport.isSome then 0 else units) else act s2) k units

def execLampRecord (k : PortIx) (f : LinkHeader) (s : State) : Host.Outcome State Fault Refusal :=
  .next (urgentRecord s k f (lampMsg f) fun s =>
    actLamp s k (addrAt f.payload 0) (BitVec.ofNat 32 (beAt f.payload 4 4)) (byteAt f.payload 8))

def execEventRecord (k : PortIx) (f : LinkHeader) (s : State) : Host.Outcome State Fault Refusal :=
  .next (urgentRecord s k f (eventMsg f) fun s =>
    actEvent s k (field (byteAt f.payload 0) 0 7) (BitVec.ofNat 16 (beAt f.payload 2 2)) (addrAt f.payload 4))

end Sys2Proof.Machine
end

