-- ==== Sys2Proof/Machine/Resume.lean ====
section
/-!
DEFINITION. The executive goes on: release of a debug halt (14 R398, R400–R402), resumption after a handover, and its reversal (15 R425–R428).
-/
namespace Sys2Proof.Machine

/-- Host frames held are carried out in completion order (R425). -/
def carryAll (s : State) : State := s.held.foldl carryHeld { s with held := [] }

/-- Entry `j` of the group map, when its port was lost: its copies carry BAD_NO_COMM (R306). -/
def recallEntry (s : State) (je : Fin 256 × GroupEntry) : State := if s.img.entry[je.1].state = 2 then copiesNoComm s je.2 else s

/-- The image words that could not be written while the voters stood still (R26) follow the state. [log 139: DEDUCED, unsafe] -/
def recallImage (s : State) : State := if s.m.mode = .load then s else s.entries.foldl recallEntry (putAll s)

/-- What waited while the lanes were held: the image words that only the voters write (R26), hardware events, buffered Breakwater frames, link
traffic, host frames (R425, R427). [log 90: DEDUCED, unsafe; log 109: DEDUCED, unsafe; log 139: DEDUCED, unsafe] -/
def takeWaiting (s : State) : State := carryAll (serveAll (takeBuffered (raiseHeld (recallImage (eccTaken s)))))

/-! ## Release (R400–R402) -/

/-- The logic→field lane is trained again: a field die that still had it loses it and holds. [log 98: DEDUCED, unsafe] -/
def retrainL2f (s : State) : State :=
  let s1 := { s with bw := { s.bw with l2fUp := false, stopped := false, retrain := satInc s.bw.retrain, retrainFails := 0 }
                     recov := { s.recov with lanesUpSince := none } }
  if s.fd.alive && s.fd.l2fUp then enterSlack { s1 with fd := { s1.fd with l2fUp := false, safeHeld := false, fail := 0 } } else s1

/-- A halt ends: the buffered writes are replayed, the halt's length recorded, the Breakwater retrained, and what waited is taken. [log 97: DEDUCED, unsafe; log 98: DEDUCED, unsafe] -/
def releaseHalt (s : State) (crcs : List W32) : State :=
  if !s.triad.halted then s
  else
    let us : W32 := satNat 32 (s.since s.triad.haltTick / 10)
    let s1 := replayAll s crcs
    takeWaiting (retrainL2f { s1 with triad := { s1.triad with halted := false, releasing := false, haltUs := us }
                                      rul := { s1.rul with lastBoundary := none, overRun := 0, overSeen := false } })

def execRelease (crcs : List W32) (s : State) : Host.Outcome State Fault Refusal :=
  .next (releaseHalt (scanCtrl s) crcs)

/-- R398: any halt is released, and then the debugger detached. -/
def execDetach (crcs : List W32) (s : State) : Host.Outcome State Fault Refusal :=
  .next (
    let s1 := releaseHalt (scanCtrl s) crcs
    { s1 with triad := { s1.triad with attached := false, haltReq := false } })

/-! ## Handover -/

/-- The handover is over at tick s.tick, with its outcome in DEV.HANDOVER. [log 109: DEDUCED, unsafe] -/
def handoverOver (s : State) (h : Handover) (reversed : Bool) (why : BitVec 3) : State :=
  { s with recov := { s.recov with handover := none, hoLastUs := satNat 16 (s.since h.start / 10), hoReversed := reversed, hoWhy := why }
           rul := { s.rul with lastBoundary := none, overRun := 0, overSeen := false } }

/-- What a resumed executive does, with the staging state it leaves last (R427), and the watchdog steps that waited (R415). [log 109: DEDUCED, unsafe] -/
def resumeWith (s : State) (st : StageState) : State := takeDue (setStage (takeWaiting s) st)

/-- R427: the new executive resumes; it must have passed its start check. -/
def execExecutiveResume (s : State) : Host.Outcome State Fault Refusal :=
  .next (match s.recov.handover with
    | none => s
    | some h =>
      if !h.exchanged || !h.checked then s
      else
        let s1 := handoverOver s h false 0
        resumeWith { s1 with boot := { s1.boot with exec := slotAt (sread 0 s1.recov.slotImage) 0 false }
                             recov := { s1.recov with probation := s1.tick } } .probation)

/-- Neither executive runs: the device stays in LOAD (R394, R428), with event 71 for the change and HBEAT low (R67, R33). The spec gives this
entry no CAUSE. [log 108: DEDUCED, safe] -/
def reverseDead (s : State) : State :=
  let (v, s1) := s.draw
  let s2 := portsDown (setMode s1 .load (field v 0 8)) 11
  setStage { s2 with
    m := { s2.m with run := .noExec, wait := .endedInLoad }
    triad := { s2.triad with startOk := false, safeWhy := 7 }
    bw := { s2.bw with stopped := true } } .invalid

/-- Case `why` of R428 can hold: 1 after a failed start check, 2 once a start check has passed, 3 with 10 ms gone since the start. -/
def reverseCase (s : State) (h : Handover) (why : BitVec 3) : Bool :=
  (why = 1 && h.exchanged && !h.checked) || (why = 2 && h.exchanged && h.checked) || (why = 3 && msTicks 10 ≤ s.since h.start)

/-- R428: the halves are exchanged back and the old executive resumes from its record, when its start check passes. [log 108: DEDUCED, safe] -/
def execHandoverReverse (why : BitVec 3) (startCheck : StartCheck) (s : State) : Host.Outcome State Fault Refusal :=
  .next (match s.recov.handover with
    | none => s
    | some h =>
      if !reverseCase s h why then s
      else
        let s1 := if h.exchanged then exchange s else s
        let s2 := handoverOver { s1 with triad := startCheckRun s1.triad s1.straps.lanemode startCheck } h true why
        if checkPassed startCheck s1.straps.lanemode then resumeWith s2 .invalid else reverseDead s2)

end Sys2Proof.Machine
end

