-- ==== Sys2Proof/Machine/Dispatch.lean ====
section
/-!
DEFINITION. One arm for each command: a direct call of its meaning, or a rejection by name.
-/
namespace Sys2Proof.Machine

def exec (i : Instr) (s : State) : Host.Outcome State Fault Refusal :=
  match i with
  | .read f => Sys2Proof.Machine.execRead f s
  | .readDualData f => Sys2Proof.Machine.execReadDualData f s
  | .readDualAddressData f => Sys2Proof.Machine.execReadDualAddressData f s
  | .readQuadData f => Sys2Proof.Machine.execReadQuadData f s
  | .readQuadAddressData f => Sys2Proof.Machine.execReadQuadAddressData f s
  | .readSync clocked laneError => Sys2Proof.Machine.execReadSync clocked laneError s
  | .readAbort => Sys2Proof.Machine.execReadAbort s
  | .write f => Sys2Proof.Machine.execWrite f s
  | .writeDualData f => Sys2Proof.Machine.execWriteDualData f s
  | .writeQuadData f => Sys2Proof.Machine.execWriteQuadData f s
  | .status cycles laneError => Sys2Proof.Machine.execStatus cycles laneError s
  | .ident cycles laneError => Sys2Proof.Machine.execIdent cycles laneError s
  | .fenceFrame tag cycles laneError => Sys2Proof.Machine.execFenceFrame tag cycles laneError s
  | .unknownCommand code cycles => Sys2Proof.Machine.execUnknownCommand code cycles s
  | .legacyRead f => Sys2Proof.Machine.execLegacyRead f s
  | .legacyReadLate f => Sys2Proof.Machine.execLegacyReadLate f s
  | .legacyWrite f => Sys2Proof.Machine.execLegacyWrite f s
  | .setpage page cycles laneError => Sys2Proof.Machine.execSetpage page cycles laneError s
  | .imageWrite words => Sys2Proof.Machine.execImageWrite words s
  | .coefficientWrite p bank tap v => Sys2Proof.Machine.execCoefficientWrite p bank tap v s
  | .stagingWrite offset data => Sys2Proof.Machine.execStagingWrite offset data s
  | .swapRequest p v => Sys2Proof.Machine.execSwapRequest p v s
  | .syncRequest p v => Sys2Proof.Machine.execSyncRequest p v s
  | .ppssetWrite v => Sys2Proof.Machine.execPpssetWrite v s
  | .evqAck v => Sys2Proof.Machine.execEvqAck v s
  | .countClear v => Sys2Proof.Machine.execCountClear v s
  | .registerWrite addr v => Sys2Proof.Machine.execRegisterWrite addr v s
  | .nop slot tag => Sys2Proof.Machine.execNop slot tag s
  | .fence slot tag => Sys2Proof.Machine.execFence slot tag s
  | .reinit slot tag => Sys2Proof.Machine.execReinit slot tag s
  | .reinitComplete func => Sys2Proof.Machine.execReinitComplete func s
  | .resetDevice slot tag => Sys2Proof.Machine.execResetDevice slot tag s
  | .requestPowerCycle slot tag => Sys2Proof.Machine.execRequestPowerCycle slot tag s
  | .pcycAssert => Sys2Proof.Machine.execPcycAssert s
  | .retireChannel slot tag => Sys2Proof.Machine.execRetireChannel slot tag s
  | .returnChannel slot tag => Sys2Proof.Machine.execReturnChannel slot tag s
  | .mapSpare slot tag => Sys2Proof.Machine.execMapSpare slot tag s
  | .trimZero slot tag => Sys2Proof.Machine.execTrimZero slot tag s
  | .trimSpan slot tag => Sys2Proof.Machine.execTrimSpan slot tag s
  | .trimCaptureComplete n written => Sys2Proof.Machine.execTrimCaptureComplete n written s
  | .restoreFactory slot tag => Sys2Proof.Machine.execRestoreFactory slot tag s
  | .enrolSignature slot tag => Sys2Proof.Machine.execEnrolSignature slot tag s
  | .enrolComplete n amps volts tj written => Sys2Proof.Machine.execEnrolComplete n amps volts tj written s
  | .stageOpen slot tag => Sys2Proof.Machine.execStageOpen slot tag s
  | .stageCommit slot tag => Sys2Proof.Machine.execStageCommit slot tag s
  | .stageAbort slot tag => Sys2Proof.Machine.execStageAbort slot tag s
  | .check slot tag => Sys2Proof.Machine.execCheck slot tag s
  | .checkComplete => Sys2Proof.Machine.execCheckComplete s
  | .forceSafe slot tag => Sys2Proof.Machine.execForceSafe slot tag s
  | .leaveSafe slot tag => Sys2Proof.Machine.execLeaveSafe slot tag s
  | .enterTrim slot tag => Sys2Proof.Machine.execEnterTrim slot tag s
  | .leaveTrim slot tag => Sys2Proof.Machine.execLeaveTrim slot tag s
  | .writeConfig slot tag => Sys2Proof.Machine.execWriteConfig slot tag s
  | .hartPass slot tag => Sys2Proof.Machine.execHartPass slot tag s
  | .unknownMailboxCommand slot code tag => Sys2Proof.Machine.execUnknownMailboxCommand slot code tag s
  | .extest cells => Sys2Proof.Machine.execExtest cells s
  | .idcode => Sys2Proof.Machine.execIdcode s
  | .samplePreload captured preload => Sys2Proof.Machine.execSamplePreload captured preload s
  | .bypass ir => Sys2Proof.Machine.execBypass ir s
  | .attach => Sys2Proof.Machine.execAttach s
  | .detach crcs => Sys2Proof.Machine.execDetach crcs s
  | .halt => Sys2Proof.Machine.execHalt s
  | .triadHalted => Sys2Proof.Machine.execTriadHalted s
  | .release crcs => Sys2Proof.Machine.execRelease crcs s
  | .step crcs => Sys2Proof.Machine.execStep crcs s
  | .dbgRead addr => Sys2Proof.Machine.execDbgRead addr s
  | .dbgWrite addr data => Sys2Proof.Machine.execDbgWrite addr data s
  | .logicReset c => Sys2Proof.Machine.execLogicReset c s
  | .start lanemode hcompat boot rstValid logValid => Sys2Proof.Machine.execStart lanemode hcompat boot rstValid logValid s
  | .clocksValid => Sys2Proof.Machine.execClocksValid s
  | .executiveLoaded startCheck => Sys2Proof.Machine.execExecutiveLoaded startCheck s
  | .refReady => Sys2Proof.Machine.execRefReady s
  | .refOnRetry => Sys2Proof.Machine.execRefOnRetry s
  | .microcodeAccepted m => Sys2Proof.Machine.execMicrocodeAccepted m s
  | .xinFailure f => Sys2Proof.Machine.execXinFailure f s
  | .monitorRelock => Sys2Proof.Machine.execMonitorRelock s
  | .clockReset => Sys2Proof.Machine.execClockReset s
  | .fieldResetRelease almsel => Sys2Proof.Machine.execFieldResetRelease almsel s
  | .fieldSupplyBandChange band => Sys2Proof.Machine.execFieldSupplyBandChange band s
  | .lastGasp vfld vhold => Sys2Proof.Machine.execLastGasp vfld vhold s
  | .fieldDieReset => Sys2Proof.Machine.execFieldDieReset s
  | .vloopLow falling => Sys2Proof.Machine.execVloopLow falling s
  | .idleFrame lane h => Sys2Proof.Machine.execIdleFrame lane h s
  | .sampleFrame h firstTick missI missV => Sys2Proof.Machine.execSampleFrame h firstTick missI missV s
  | .statusFrame h raw => Sys2Proof.Machine.execStatusFrame h raw s
  | .housekeepingFrame h sums missed => Sys2Proof.Machine.execHousekeepingFrame h sums missed s
  | .eventFrame h => Sys2Proof.Machine.execEventFrame h s
  | .commandFrame h => Sys2Proof.Machine.execCommandFrame h s
  | .phaseSend => Sys2Proof.Machine.execPhaseSend s
  | .phaseFrame h => Sys2Proof.Machine.execPhaseFrame h s
  | .loadFrame h => Sys2Proof.Machine.execLoadFrame h s
  | .safeFrame h => Sys2Proof.Machine.execSafeFrame h s
  | .commandTargetTick => Sys2Proof.Machine.execCommandTargetTick s
  | .bwRetransmit fieldDie => Sys2Proof.Machine.execBwRetransmit fieldDie s
  | .l2fLaneLost => Sys2Proof.Machine.execL2fLaneLost s
  | .f2lLaneLost lane1 => Sys2Proof.Machine.execF2lLaneLost lane1 s
  | .breakwaterTrained lane => Sys2Proof.Machine.execBreakwaterTrained lane s
  | .retrainTimeout => Sys2Proof.Machine.execRetrainTimeout s
  | .sampleLossClear => Sys2Proof.Machine.execSampleLossClear s
  | .slackWindowExpiry => Sys2Proof.Machine.execSlackWindowExpiry s
  | .diStateChange n level => Sys2Proof.Machine.execDiStateChange n level s
  | .diClassChange n c => Sys2Proof.Machine.execDiClassChange n c s
  | .senseDiff n above => Sys2Proof.Machine.execSenseDiff n above s
  | .pairImbal n present => Sys2Proof.Machine.execPairImbal n present s
  | .pathLimit n entered => Sys2Proof.Machine.execPathLimit n entered s
  | .shortSwitchOff n => Sys2Proof.Machine.execShortSwitchOff n s
  | .shortProbe n inLimit => Sys2Proof.Machine.execShortProbe n inLimit s
  | .openLoop n present => Sys2Proof.Machine.execOpenLoop n present s
  | .wiringCrossing n reverse => Sys2Proof.Machine.execWiringCrossing n reverse s
  | .wiringDeclare n => Sys2Proof.Machine.execWiringDeclare n s
  | .wiringTransientEnd n => Sys2Proof.Machine.execWiringTransientEnd n s
  | .wiringClear n => Sys2Proof.Machine.execWiringClear n s
  | .doReverse n present => Sys2Proof.Machine.execDoReverse n present s
  | .backfeed n present ma tj => Sys2Proof.Machine.execBackfeed n present ma tj s
  | .hardShort n ma tj => Sys2Proof.Machine.execHardShort n ma tj s
  | .steadyTrip n ma tj => Sys2Proof.Machine.execSteadyTrip n ma tj s
  | .floodWindowEnd n limited => Sys2Proof.Machine.execFloodWindowEnd n limited s
  | .clampEventStart n tj => Sys2Proof.Machine.execClampEventStart n tj s
  | .clampEventEnd n samples => Sys2Proof.Machine.execClampEventEnd n samples s
  | .clampEnergyTest n samples => Sys2Proof.Machine.execClampEnergyTest n samples s
  | .clampDecayStep n => Sys2Proof.Machine.execClampDecayStep n s
  | .thermalCompare n tj tcase inRegulation ma => Sys2Proof.Machine.execThermalCompare n tj tcase inRegulation ma s
  | .backoffExpiry n => Sys2Proof.Machine.execBackoffExpiry n s
  | .tokenRefill n => Sys2Proof.Machine.execTokenRefill n s
  | .quietReset n => Sys2Proof.Machine.execQuietReset n s
  | .governorUpdate => Sys2Proof.Machine.execGovernorUpdate s
  | .governorOver => Sys2Proof.Machine.execGovernorOver s
  | .governorReevaluate => Sys2Proof.Machine.execGovernorReevaluate s
  | .governorShed => Sys2Proof.Machine.execGovernorShed s
  | .windowDeclare n w held => Sys2Proof.Machine.execWindowDeclare n w held s
  | .ditherStart n iRef => Sys2Proof.Machine.execDitherStart n iRef s
  | .correlatorResult n cycles => Sys2Proof.Machine.execCorrelatorResult n cycles s
  | .offStatePulse n v0 v1 i1 vfld => Sys2Proof.Machine.execOffStatePulse n v0 v1 i1 vfld s
  | .phantomDeclare n held => Sys2Proof.Machine.execPhantomDeclare n held s
  | .phantomClear n => Sys2Proof.Machine.execPhantomClear n s
  | .phantomDriven n => Sys2Proof.Machine.execPhantomDriven n s
  | .pathCheck n m => Sys2Proof.Machine.execPathCheck n m s
  | .evidenceExpiry n => Sys2Proof.Machine.execEvidenceExpiry n s
  | .shortfall n => Sys2Proof.Machine.execShortfall n s
  | .excess n => Sys2Proof.Machine.execExcess n s
  | .complianceClear n => Sys2Proof.Machine.execComplianceClear n s
  | .aoOpen n => Sys2Proof.Machine.execAoOpen n s
  | .loopResistanceEstimate n => Sys2Proof.Machine.execLoopResistanceEstimate n s
  | .almRisk n risk => Sys2Proof.Machine.execAlmRisk n risk s
  | .dacRecompute n => Sys2Proof.Machine.execDacRecompute n s
  | .buttonPress zero ended ms both => Sys2Proof.Machine.execButtonPress zero ended ms both s
  | .hartPollDue n poll => Sys2Proof.Machine.execHartPollDue n poll s
  | .hartSearch n poll => Sys2Proof.Machine.execHartSearch n poll s
  | .hartTransactionStart modem => Sys2Proof.Machine.execHartTransactionStart modem s
  | .hartResponse modem r => Sys2Proof.Machine.execHartResponse modem r s
  | .hartTimeout modem => Sys2Proof.Machine.execHartTimeout modem s
  | .hartBurst n => Sys2Proof.Machine.execHartBurst n s
  | .hartModemSelftest modem pass => Sys2Proof.Machine.execHartModemSelftest modem pass s
  | .mainResult p => Sys2Proof.Machine.execMainResult p s
  | .alignCrossing p => Sys2Proof.Machine.execAlignCrossing p s
  | .ppsEdge => Sys2Proof.Machine.execPpsEdge s
  | .mainsEdge => Sys2Proof.Machine.execMainsEdge s
  | .tideInEdge => Sys2Proof.Machine.execTideInEdge s
  | .referenceEventProcess w => Sys2Proof.Machine.execReferenceEventProcess w s
  | .incApply w => Sys2Proof.Machine.execIncApply w s
  | .wheelStep w => Sys2Proof.Machine.execWheelStep w s
  | .referenceLost w => Sys2Proof.Machine.execReferenceLost w s
  | .characterEdge n => Sys2Proof.Machine.execCharacterEdge n s
  | .libraryChangeover n => Sys2Proof.Machine.execLibraryChangeover n s
  | .tideOutPulse => Sys2Proof.Machine.execTideOutPulse s
  | .tideOutEnd => Sys2Proof.Machine.execTideOutEnd s
  | .timeSend w fTx => Sys2Proof.Machine.execTimeSend w fTx s
  | .endpointRecompute => Sys2Proof.Machine.execEndpointRecompute s
  | .updateSend => Sys2Proof.Machine.execUpdateSend s
  | .sweepSend => Sys2Proof.Machine.execSweepSend s
  | .entryStale j => Sys2Proof.Machine.execEntryStale j s
  | .fenceComplete upstream => Sys2Proof.Machine.execFenceComplete upstream s
  | .generationApply => Sys2Proof.Machine.execGenerationApply s
  | .ruleCycle => Sys2Proof.Machine.execRuleCycle s
  | .ruleOverrun => Sys2Proof.Machine.execRuleOverrun s
  | .train k f => Sys2Proof.Machine.execTrain k f s
  | .trainSend k => Sys2Proof.Machine.execTrainSend k s
  | .commaAligned k => Sys2Proof.Machine.execCommaAligned k s
  | .trainingTimeout k => Sys2Proof.Machine.execTrainingTimeout k s
  | .trainingRetry k => Sys2Proof.Machine.execTrainingRetry k s
  | .linkWrite k f => Sys2Proof.Machine.execLinkWrite k f s
  | .update k f => Sys2Proof.Machine.execUpdate k f s
  | .fenceRequest k f => Sys2Proof.Machine.execFenceRequest k f s
  | .writeRsp k f => Sys2Proof.Machine.execWriteRsp k f s
  | .updateAck k f => Sys2Proof.Machine.execUpdateAck k f s
  | .fenceRsp k f => Sys2Proof.Machine.execFenceRsp k f s
  | .errorRsp k f => Sys2Proof.Machine.execErrorRsp k f s
  | .timeRecord k f => Sys2Proof.Machine.execTimeRecord k f s
  | .disc k f => Sys2Proof.Machine.execDisc k f s
  | .lampRecord k f => Sys2Proof.Machine.execLampRecord k f s
  | .eventRecord k f => Sys2Proof.Machine.execEventRecord k f s
  | .crt k v check => Sys2Proof.Machine.execCrt k v check s
  | .ack k c q => Sys2Proof.Machine.execAck k c q s
  | .cen k hq hp hu rq rp ru ck => Sys2Proof.Machine.execCen k hq hp hu rq rp ru ck s
  | .censusSend k => Sys2Proof.Machine.execCensusSend k s
  | .censusMissing k => Sys2Proof.Machine.execCensusMissing k s
  | .markDelayRequest k v ck turnNs => Sys2Proof.Machine.execMarkDelayRequest k v ck turnNs s
  | .markDelayResponse k turnNs ck t4Ns => Sys2Proof.Machine.execMarkDelayResponse k turnNs ck t4Ns s
  | .markTimeReference k v ck ns => Sys2Proof.Machine.execMarkTimeReference k v ck ns s
  | .delayExchange k t1Ns => Sys2Proof.Machine.execDelayExchange k t1Ns s
  | .linkFrameSend k => Sys2Proof.Machine.execLinkFrameSend k s
  | .linkRetransmit k c => Sys2Proof.Machine.execLinkRetransmit k c s
  | .lossOfSignal k => Sys2Proof.Machine.execLossOfSignal k s
  | .codeViolation k => Sys2Proof.Machine.execCodeViolation k s
  | .requestBudgetExpiry k tag => Sys2Proof.Machine.execRequestBudgetExpiry k tag s
  | .requestTimeout k tag => Sys2Proof.Machine.execRequestTimeout k tag s
  | .laneDisagree l plane => Sys2Proof.Machine.execLaneDisagree l plane s
  | .laneSelfReport l => Sys2Proof.Machine.execLaneSelfReport l s
  | .iauMinority l cycles => Sys2Proof.Machine.execIauMinority l cycles s
  | .resyncComplete verified pairAgrees failing crcs => Sys2Proof.Machine.execResyncComplete verified pairAgrees failing crcs s
  | .voterFault f => Sys2Proof.Machine.execVoterFault f s
  | .voterSelftest failing => Sys2Proof.Machine.execVoterSelftest failing s
  | .stateSurvey crcs => Sys2Proof.Machine.execStateSurvey crcs s
  | .watchdog k func => Sys2Proof.Machine.execWatchdog k func s
  | .handoverStart => Sys2Proof.Machine.execHandoverStart s
  | .exchangeComplete startCheck => Sys2Proof.Machine.execExchangeComplete startCheck s
  | .executiveResume => Sys2Proof.Machine.execExecutiveResume s
  | .handoverReverse why startCheck => Sys2Proof.Machine.execHandoverReverse why startCheck s
  | .probationEnd written => Sys2Proof.Machine.execProbationEnd written s
  | .reloadStart => Sys2Proof.Machine.execReloadStart s
  | .reloadComplete written => Sys2Proof.Machine.execReloadComplete written s
  | .reloadBodyFail => Sys2Proof.Machine.execReloadBodyFail s
  | .queueEntry w0 w1 w2 w3 data => Sys2Proof.Machine.execQueueEntry w0 w1 w2 w3 data s
  | .memoryFrame => Sys2Proof.Machine.execMemoryFrame s
  | .pollFrame st => Sys2Proof.Machine.execPollFrame st s
  | .entryComplete ok => Sys2Proof.Machine.execEntryComplete ok s
  | .contBreak => Sys2Proof.Machine.execContBreak s
  | .xipRead addr len => Sys2Proof.Machine.execXipRead addr len s
  | .selectModeChange => Sys2Proof.Machine.execSelectModeChange s
  | .checkUnitStart ctrl poly init xorout fold => Sys2Proof.Machine.execCheckUnitStart ctrl poly init xorout fold s
  | .data8 v => Sys2Proof.Machine.execData8 v s
  | .data16 v => Sys2Proof.Machine.execData16 v s
  | .data32 v => Sys2Proof.Machine.execData32 v s
  | .logFlush => Sys2Proof.Machine.execLogFlush s
  | .scrub offset uncorrectable => Sys2Proof.Machine.execScrub offset uncorrectable s
  | .xinRestored => Sys2Proof.Machine.execXinRestored s
  | .clockWaitTimeout => Sys2Proof.Machine.execClockWaitTimeout s
  | .fieldDieFaultDetected f => Sys2Proof.Machine.execFieldDieFaultDetected f s
  | .retentionStoreLoss => Sys2Proof.Machine.execRetentionStoreLoss s
  | .stagingFilled => Sys2Proof.Machine.execStagingFilled s
  | .trimledTimer => Sys2Proof.Machine.execTrimledTimer s

end Sys2Proof.Machine
end

