-- ==== Sys2Proof/Machine/Tick.lean ====
section
/-!
DEFINITION. One 10 MHz tick with no command waiting: tick counts, tide wheels and shadow wheels advance, and the refill and on-time
counts of the retry budget with them (10 R266–R268, R279; 06 R156). What the tick's phases and times decide and no command has done yet
happens first.
-/
namespace Sys2Proof.Machine

/-- A started wheel advances by its increment (R266). [log 3: DESIGN CHOICE, unsafe] -/
def tickWheel (x : Wheel) : Wheel := if started x then { x with prev := x.acc, acc := x.acc + x.inc } else x

/-- The refill timer runs while the executive does and TOKENS is below 15; on-time accumulates while the output is on (R156). -/
def tickProt (runs on : Bool) (p : ChanProt) : ChanProt :=
  { p with refill := if runs && (p.tokens ≠ 15 || p.refilled) then min (p.refill + 1) 600000000 else p.refill
           onTime := if on then p.onTime + 1 else p.onTime }

def tickChan (runs : Bool) (c : Channel) : Channel := { c with prot := tickProt runs c.out c.prot }

/-- A path check of channel `n` begins at tick `t`: at its offset in the device second, or 100 ms after a failed one (R139, R140). -/
def checkBegins (n : Chan) (c : FdChan) (t : W64) : Bool :=
  fdKind c = kindDO && pProveEn c.cfg &&
    match c.lastCheck with
    | some x => if c.pcFail ≠ 0 then t = x.1 + BitVec.ofNat 64 (msTicks 100) else t.toNat % secTicks 1 = 625000 * n.val
    | none => t.toNat % secTicks 1 = 625000 * n.val

/-- The field die's own tick, its shadow wheels and, where `checks`, the path checks that begin. -/
def tickDie (checks : Bool) (d : FieldDie) : FieldDie :=
  if d.alive then
    { d with tick := d.tick + 1, prev := d.acc, acc := Vector.ofFn fun w => if d.wheelOn[w] then d.acc[w] + d.inc[w] else d.acc[w]
             ch := Vector.ofFn fun n => if checks && checkBegins n d.ch[n] (d.tick + 1) then { d.ch[n] with checkFrom := some (d.tick + 1) } else d.ch[n] }
  else d

/-- PHASE items whose tick has come are loaded (R16). -/
def loadDue (s : State) : State := takePhase { s with fd := { s.fd with phases := [] } } s.fd.phases

/-- What waits for its apply tick at wheel `w` and is due. -/
def wheelDue (s : State) (w : WheelIx) : State := match incDue s s.wheel[w] with
  | some p => if p.step.isSome then stepWheel s w p else applyInc s w p
  | none => s

/-- What the phases of a tick decide and no command has done yet, before the next tick (R274, R279, R228, R283, R286, R287). [log 3: DESIGN CHOICE,
unsafe] -/
def closeTick (s : State) : State :=
  let s := if s.triad.releasing then releaseHalt s [] else s
  let s1 := (List.finRange 4).foldl wheelDue (issueStepFive s)
  let s2 := tideFall (tidePulse ((List.finRange 32).foldl alignCrossing s1))
  (List.finRange 16).foldl (fun a n => charEdge (changeover a n) n) s2

/-- Requests that waited for a transit entry are served once one is free, whatever freed it (R365). -/
def serveDue (s : State) : State := if (List.finRange 4).any fun k => !s.port[k].buffered.isEmpty then serveAll s else s

/-- One tick. [log 3: DESIGN CHOICE, unsafe; log 136: DESIGN CHOICE, safe] -/
def idle (s : State) : State :=
  let s := serveDue (closeTick s)
  scanDue <| loadDue { s with tick := s.tick + 1, wheel := s.wheel.map tickWheel, ch := s.ch.map (tickChan (s.m.run = .running)), fd := tickDie (checking s) s.fd }

end Sys2Proof.Machine
end

