-- ==== Sys2Proof/Machine/Step.lean ====
section
/-!
DEFINITION. One step: the command at the front of the queue acts on the state with the queue's rest. On an empty queue one tick passes.
-/
namespace Sys2Proof.Machine

/-- One step of the block. [log 3: DESIGN CHOICE, unsafe; log 4: DESIGN CHOICE, unsafe; log 136: DESIGN CHOICE, safe] -/
def step (s : State) : Host.Outcome State Fault Refusal :=
  match s.pending with
  | [] => .next (idle s)
  | c :: rest => exec c { s with pending := rest }

/-- The command a table word spells put at the front of the queue. The table gives no row bits, so no word spells one. [log 12: DESIGN CHOICE, safe] -/
def State.withFetchWord (s : State) (nbits w : Nat) : State :=
  match decodeTableWord nbits w with
  | some c => { s with pending := c :: s.pending }
  | none => s

end Sys2Proof.Machine
end

