-- ==== Sys2Proof/Safety.lean ====
section
/-!
DEFINITION. The terms claims are stated in: the parts of the state, two states that agree outside some of them, and what every state the block
reaches from a sound one keeps.
-/
namespace Sys2Proof.Machine

/-- The parts of the state: the fields of State. -/
inductive Part where
  | pending | free | tick | straps | clk | m | boot | triad | recov | bw | fd | ch | ev | mbx | img | held | port | flash | mirror | otp
  | conv | loop | trim | hart | gov | wheel | time | rul | host | mem | chk | pins | enrol
  deriving DecidableEq, Repr

/-- Two states agree in a part. -/
def Part.same (s t : State) : Part → Prop
  | .pending => t.pending = s.pending | .free => t.free = s.free | .tick => t.tick = s.tick | .straps => t.straps = s.straps
  | .clk => t.clk = s.clk | .m => t.m = s.m | .boot => t.boot = s.boot | .triad => t.triad = s.triad | .recov => t.recov = s.recov
  | .bw => t.bw = s.bw | .fd => t.fd = s.fd | .ch => t.ch = s.ch | .ev => t.ev = s.ev | .mbx => t.mbx = s.mbx | .img => t.img = s.img
  | .held => t.held = s.held | .port => t.port = s.port | .flash => t.flash = s.flash | .mirror => t.mirror = s.mirror
  | .otp => t.otp = s.otp | .conv => t.conv = s.conv | .loop => t.loop = s.loop | .trim => t.trim = s.trim | .hart => t.hart = s.hart
  | .gov => t.gov = s.gov | .wheel => t.wheel = s.wheel | .time => t.time = s.time | .rul => t.rul = s.rul | .host => t.host = s.host
  | .mem => t.mem = s.mem | .chk => t.chk = s.chk | .pins => t.pins = s.pins | .enrol => t.enrol = s.enrol

/-- `t` agrees with `s` in every part that `ps` does not name: the frame of a command. -/
structure SameOutside (ps : List Part) (s t : State) : Prop where
  out : ∀ p, p ∉ ps → p.same s t

/-- What a sound state states of each part. The sparse memories are in their canonical form; the queues the spec bounds hold no more than it
allows: 64 held host frames (R449), 16 queue entries of the memory port (R458), 256 event entries (R483), 8192 records in the SRAM log (R489),
8 fences of each group (R310) and 64 recorded debug writes (R401); and a merge record's number was drawn before the next one. -/
def Part.sound (s : State) : Part → Prop
  | .flash => swf flashErased s.flash = true
  | .mirror => swf flashErased s.mirror = true
  | .otp => swf 0 s.otp = true
  | .mem => swf 0 s.mem.buf = true ∧ s.mem.queue.length ≤ 16
  | .img =>
    (swf epUnassigned s.img.words = true ∧ swf epNoComm s.img.copies = true ∧ srise s.img.lastSent = true) ∧
    (∀ g ∈ s.img.merges, g.id < s.img.nextId) ∧ s.img.fencesLocal.length ≤ 8 ∧ s.img.fencesUp.length ≤ 8
  | .recov => swf stagingEmpty s.recov.staging = true ∧ swf stagingEmpty s.recov.slotImage = true
  | .conv => swf 0 s.conv.coeff = true ∧ swf {} s.conv.ring = true
  | .triad => (srise s.triad.sram = true ∧ srise s.triad.image = true) ∧ s.triad.replay.length ≤ 64
  | .held => s.held.length ≤ 64
  | .ev => s.ev.count ≤ 256 ∧ s.ev.sramLog.length ≤ 8192
  | _ => True

/-- Every part of the state is sound: its memories are canonical and its queues within the spec's bounds. -/
def Sound (s : State) : Prop := ∀ p : Part, p.sound s

/-- Command `c` completes on `s`, in a state of which `P` holds. -/
def Completes (c : Instr) (s : State) (P : State → Prop) : Prop := ∃ t, exec c s = .next t ∧ P t

/-- Nothing is due at this tick: no wheel, path, character, pulse or port of the device has anything to do before the next one. -/
structure Quiet (s : State) : Prop where
  release : s.triad.releasing = false
  stepFive : s.bw.stepFive = []
  wheels : ∀ w : WheelIx, incDue s s.wheel[w] = none
  paths : ∀ p : PathIx, s.conv.path[p].waitAlign = false
  pulse : s.pins.tideOut = false
  phase : fires s.wheel[(0 : WheelIx)].prev s.wheel[(0 : WheelIx)].acc 0 = false
  chars : ∀ n : Chan, (s.fdc n).oldChar = none ∧ edgeFires s n = false
  ports : ∀ k : PortIx, s.port[k].buffered = []
  phases : s.fd.phases = []
  scan : s.conv.next = none

/-- Only the field die's record of channel `n`, and of the channels tied to its output, its reports and what became of them change; and free values
may have been drawn. -/
def FieldFrame (n : Chan) (s t : State) : Prop :=
  SameOutside [.free, .fd] s t ∧
  t.fd = { s.fd with ch := t.fd.ch, events := t.fd.events, status := t.fd.status, overwritten := t.fd.overwritten } ∧
  ∀ m : Chan, m ≠ n → m ∉ s.halves n → t.fdc m = s.fdc m

/-- A frame of field→logic lane 1 that fails its check is discarded and counted; the eighth in a row loses the lane (01 R19 item 1, R22). -/
def FailedFrame (s t : State) : Prop :=
  (s.bw.fail1 < 7 → t.bw = { s.bw with crcErr := satInc s.bw.crcErr, fail1 := s.bw.fail1 + 1 } ∧ SameOutside [.bw, .fd] s t) ∧
  (7 ≤ s.bw.fail1 →
    t.bw.f2l1Up = false ∧ t.bw.crcErr = satInc s.bw.crcErr ∧ t.bw.retrain = satInc s.bw.retrain ∧
    SameOutside [.recov, .bw, .fd, .ch, .ev, .img, .port] s t)

/-- A frame of lane 1 with another SEQ than the next is discarded and counted, and nothing else happens to the lane (01 R19 item 3). -/
def SkippedFrame (s t : State) : Prop := t.bw = { s.bw with crcErr := satInc s.bw.crcErr } ∧ SameOutside [.bw, .fd] s t

/-- Channel `n`'s protection state at PERMIT. -/
def permitted (s : State) (n : Chan) : State := s.modCh n fun c => { c with prot := { c.prot with pstate := .permit } }

/-- A frame that port `k` takes as message `m`: whole, with its CRC and form right, of the next number of its class, of a type its neighbour may
send (13 R349, R350, R352, R360). -/
def FrameTaken (s : State) (k : PortIx) (h : LinkHeader) (m : LinkMsg) : Prop :=
  s.port[k].state = .up ∧ h.eof = true ∧ linkOk (s.linkCfg k).ownId h m = true ∧ h.fseq = (s.port[k].cls h.sof).rxSeq ∧
  permittedOn s k m = true

/-- Port `k` has gone down for `cause`: its counters and buffers are empty, and the entries that name it are lost (13 R353, 11 R306). -/
def PortLost (k : PortIx) (cause : BitVec 4) (s t : State) : Prop :=
  t.port[k].state = .down ∧ t.port[k].lastCause = cause ∧ t.port[k].reinits = satInc s.port[k].reinits ∧
  t.port[k].req.credits = 0 ∧ t.port[k].buffered = [] ∧ (∀ je ∈ s.entries, je.2.port = k → t.img.entry[je.1].state = 2) ∧
  (∀ j : PortIx, j ≠ k → t.port[j].state = s.port[j].state) ∧ SameOutside [.ch, .ev, .img, .port, .rul, .wheel] s t

/-- No frame of a class of port `k` waits to be sent again. -/
abbrev NoneAgain (s : State) (k : PortIx) (c : LinkClass) : Prop := (s.port[k].cls c).unacked.any (·.again) = false

/-- Lane `l` has been declared odd while three vote: counted and recorded, and held for a resynchronisation, or retired at its third disagreement
within 10 s, with RUN then REDUCED (14 R387, R389, R391). -/
def OddLane (l : LaneIx) (src : DisSource) (plane : BitVec 3) (s t : State) : Prop :=
  t.triad.dis[l] = satInc s.triad.dis[l] ∧ t.triad.lastLane = l ∧ t.triad.lastSource = src.code ∧ t.triad.lastPlane = plane ∧
  t.triad.lastTick = s.tick.setWidth 32 ∧ t.triad.vote[l] = false ∧ (∀ m : LaneIx, m ≠ l → t.triad.vote[m] = s.triad.vote[m]) ∧
  (thirdWithin (recordDis s l src plane) l = false → t.triad.held = some l ∧ t.triad.ret = s.triad.ret ∧ t.m = s.m) ∧
  (thirdWithin (recordDis s l src plane) l = true →
    t.triad.held = none ∧ t.triad.ret[l] = true ∧ t.triad.paired = true ∧ t.m.laneRet = true ∧
    (s.m.mode = .run → t.m.mode = .reduced ∧ t.m.prev = .run ∧ t.m.cause = 0x07)) ∧
  t.fd = s.fd ∧ t.bw = s.bw

/-- The voting plane has led to SAFE: its own frame is the last that passes, what waited is discarded, SAFE_WHY tells why (14 R379, R385). -/
def PlaneSafe (cause : Byte) (why : BitVec 4) (s t : State) : Prop :=
  t.triad.blocked = true ∧ t.triad.safeWhy = why ∧ t.bw.waiting = [] ∧
  t.bw.unacked = s.bw.unacked ++ [mkTx s (.safe cause why (s.tick.setWidth 32))] ∧
  (s.m.mode = .run ∨ s.m.mode = .reduced ∨ s.m.mode = .trim → t.m.mode = .safe ∨ t.m.mode = .stop)

/-- What waits for a release of a debug halt: nothing. -/
structure NothingHeld (s : State) : Prop where
  replay : s.triad.replay = []
  lane : s.fd.l2fUp = false
  events : s.ev.deferred = []
  reports : s.bw.buffered = []
  requests : ∀ k : PortIx, s.port[k].buffered = []
  frames : s.held = []
  words : s.recov.eccDue = []

/-- A mailbox command is taken in slot `i`, and has ended there with result `r` and detail `d`. -/
def MbxTaken (s : State) (i : SlotIx) : Prop := s.execRuns = true ∧ s.mbx.slot[i].state ≠ .running
def MbxEnded (t : State) (i : SlotIx) (r : Byte) (d : W32) : Prop :=
  t.mbx.slot[i].state = .done ∧ t.mbx.slot[i].result = r ∧ t.mbx.slot[i].detail = d

/-- A host frame discarded and counted under `code` of DEV.HOSTERR, and nothing but the host port and the event changes (16 R445). -/
def HostCounted (s t : State) (code : BitVec 4) (cmd : Byte) (addr : BitVec 24) : Prop :=
  t.host.discards = s.host.discards + 1 ∧ t.host.lastErr = code ∧ t.host.lastCmd = cmd ∧ t.host.lastAddr = addr ∧
  SameOutside [.host, .ev, .port] s t

/-- A native read under command byte `cmd` has captured its bytes at its order point, and answers busy (16 R439, R440). -/
def ReadCaptured (cmd : Byte) (f : HostFrame) (s t : State) : Prop :=
  t.host.reading = some ⟨cmd, f.addr, hostBytes (endRead s) f.addr.toNat f.len, f.laneError⟩ ∧ t.host.reply = .busy ∧
  SameOutside [.host, .free] s t

/-- A native frame's length and address lie within Table 16-2's bounds. -/
def SpanOk (f : HostFrame) : Prop := 1 ≤ f.len ∧ f.len ≤ 4096 ∧ f.addr.toNat + f.len ≤ 0x1000000

/-- A native write of whole words, clocked out to its end on `lanes` data lanes (16 R443). -/
def WriteWhole (lanes : Nat) (f : HostFrame) : Prop :=
  SpanOk f ∧ f.addr.toNat % 4 = 0 ∧ f.len % 4 = 0 ∧ f.cycles = 48 + 8 * f.len / lanes

/-- What an accepted native write leaves: its words carried out at one point, and DONE one further (16 R444). -/
def writeCarried (s : State) (f : HostFrame) : State :=
  hostWords (countDone (endRead s)) (wordsFrom f.addr.toNat (padded f.len f.data))

end Sys2Proof.Machine
end

