-- ==== Sys2Proof/Certificates/Slice0/Obligations.lean ====
section
/-!
DEFINITION. The statements for the provers.
-/
open Sys2Proof Sys2Proof.Machine

/-- The model's queue: a step takes the command at the front, and it acts on the state with the queue's rest; a step on an empty queue is
one 10 MHz tick (the model's choice: log entry 3), at which the wheels advance, the shadow wheels with them, and nothing else than the retry
budgets' counts when nothing is due. -/
def Obligations.StepTakesTheFrontCommand : Prop :=
  (∀ (s : State) (c : Instr), step { s with pending := c :: s.pending } = exec c s) ∧
  ∀ s : State, s.pending = [] →
    ∃ t, step s = .next t ∧ t.tick = s.tick + 1 ∧ t.pending = [] ∧
      (Quiet s →
        (∀ w : WheelIx, t.wheel[w] = tickWheel s.wheel[w]) ∧ (∀ n : Chan, t.ch[n] = tickChan (s.m.run = .running) s.ch[n]) ∧
        (s.fd.alive = true → t.fd.tick = s.fd.tick + 1 ∧
          ∀ w : WheelIx, t.fd.acc[w] = if s.fd.wheelOn[w] then s.fd.acc[w] + s.fd.inc[w] else s.fd.acc[w]) ∧
        SameOutside [.tick, .wheel, .ch, .fd] s t)

/-- The machine right after reset is sound: its memories are canonical, its queues within bounds, and no command waits. -/
def Obligations.ResetIsSound : Prop :=
  Sound State.reset ∧ State.reset.pending = []

/-- Every step keeps what Sound states: canonical memories, and queues within the bounds that the spec gives them. -/
def Obligations.EveryStepKeepsSound : Prop :=
  ∀ s t : State, Sound s → step s = .next t → Sound t

/-- Every command completes on every state, and leaves the commands that wait and the factory OTP as they stand (the model's own choice
for commands whose condition does not hold: log entry 1). -/
def Obligations.EveryCommandCompletes : Prop :=
  ∀ (c : Instr) (s : State), Completes c s fun t => t.pending = s.pending ∧ t.otp = s.otp ∧ s.free ≤ t.free

/-- 00 R11, R12: narrowing rounds half to even, and saturation follows it: a value outside the target width is replaced by the nearest
representable one, and the flag is set exactly then. -/
def Obligations.NarrowingAndSaturation : Prop :=
  ∀ (v : Int) (n w : Nat), 1 ≤ n → 1 ≤ w →
    narrow v n = (if 2 ^ (n - 1) < v % 2 ^ n ∨ v % 2 ^ n = 2 ^ (n - 1) ∧ (v / 2 ^ n) % 2 = 1 then v / 2 ^ n + 1 else v / 2 ^ n) ∧
    (satSignedFlag w (narrow v n) = true ↔ narrow v n < -(2 ^ (w - 1)) ∨ 2 ^ (w - 1) - 1 < narrow v n) ∧
    (satSignedFlag w (narrow v n) = false → satSigned w (narrow v n) = narrow v n) ∧
    (narrow v n < -(2 ^ (w - 1)) → satSigned w (narrow v n) = -(2 ^ (w - 1))) ∧
    (2 ^ (w - 1) - 1 < narrow v n → satSigned w (narrow v n) = 2 ^ (w - 1) - 1)

/-- 18 R485: a write of EVQ.ACK that names the head and a count no greater than the queue's frees that many entries; any other changes
nothing but ACK_ERR, which sets, and ACK_BAD, which advances. -/
def Obligations.QueueAcknowledged : Prop :=
  ∀ (s : State) (v : W32), s.execRuns = true → s.m.mode ≠ .stop →
    (v.setWidth 8 = s.ev.head ∧ 1 ≤ (v.extractLsb' 8 9).toNat ∧ (v.extractLsb' 8 9).toNat ≤ s.ev.count →
      exec (.evqAck v) s = .next { s with ev := { s.ev with
        head := s.ev.head + BitVec.ofNat 8 (v.extractLsb' 8 9).toNat, count := s.ev.count - (v.extractLsb' 8 9).toNat } }) ∧
    (¬(v.setWidth 8 = s.ev.head ∧ 1 ≤ (v.extractLsb' 8 9).toNat ∧ (v.extractLsb' 8 9).toNat ≤ s.ev.count) →
      exec (.evqAck v) s = .next { s with ev := { s.ev with ackErr := true, ackBad := satInc s.ev.ackBad } })

/-- 15 R419: words written to the staging window while staging is OPEN, and below LENGTH, are staged; outside OPEN, and at or above
LENGTH, a write has no effect; a read returns the staged bytes, and 0x00 in EMPTY and beyond LENGTH. -/
def Obligations.StagingWindow : Prop :=
  (∀ (s : State) (offset : BitVec 20) (data : List Byte), s.execRuns = true → s.m.mode ≠ .stop → offset.toNat % 4 = 0 →
    data.length % 4 = 0 → offset.toNat + data.length ≤ 0x100000 → Sound s →
    Completes (.stagingWrite offset data) s fun t =>
      (s.recov.stage = .opened → ∀ k, k < 0x100000 →
        t.stageAt k = if offset.toNat ≤ k ∧ k < offset.toNat + data.length ∧ k < s.recov.stageLen.toNat
          then data.getD (k - offset.toNat) 0 else s.stageAt k) ∧
      (s.recov.stage ≠ .opened → t = s) ∧ SameOutside [.recov] s t) ∧
  ∀ (s : State) (k : Nat), s.recov.stageLen.toNat % 4 = 0 → k < 0x100000 →
    hostByte s (0x500000 + k) = if s.recov.stage = .empty ∨ s.recov.stageLen.toNat ≤ k then 0 else s.stageAt k

/-- 18 R480–R483: an occurrence of an enabled source sets its latch, advances its count and writes a log record; an urgent one enters the
queue at once, or overflows it, and a normal one waits for the boundary. -/
def Obligations.OccurrencesAreCountedAndQueued : Prop :=
  ∀ (s : State) (src : SrcIx) (detail : W32), s.execRuns = true → src ≠ 107 →
    (s.ev.src[src].enable = false → raise s src detail = s) ∧
    (s.ev.src[src].enable = true →
      (raise s src detail).ev.src[src].latched = true ∧ (raise s src detail).ev.src[src].count = satInc s.ev.src[src].count ∧
      (∀ x : SrcIx, x ≠ src → x ≠ 107 → (raise s src detail).ev.src[x] = s.ev.src[x]) ∧
      (s.ev.src[src].urgent = false →
        (∃ w : PendingEntry, (raise s src detail).ev.src[src].waiting = some w ∧ w.detail = detail ∧ w.tick = s.tick ∧
          w.multi = s.ev.src[src].waiting.isSome) ∧
        (raise s src detail).ev.count = s.ev.count ∧ (raise s src detail).ev.ring = s.ev.ring ∧ (raise s src detail).port = s.port) ∧
      (s.ev.src[src].urgent = true →
        (s.ev.count < 255 →
          (raise s src detail).ev.count = s.ev.count + 1 ∧ (raise s src detail).ev.ovf = s.ev.ovf ∧
          ((raise s src detail).ev.ring[(s.ev.head + BitVec.ofNat 8 s.ev.count).toFin]).source = BitVec.ofNat 7 src.val ∧
          ((raise s src detail).ev.ring[(s.ev.head + BitVec.ofNat 8 s.ev.count).toFin]).detail = detail) ∧
        (s.ev.count = 255 → (raise s src detail).ev.count = 256 ∧ (raise s src detail).ev.ovf = true ∧
          (raise s src detail).ev.lost = s.ev.lost + 1) ∧
        (256 ≤ s.ev.count → (raise s src detail).ev.count = s.ev.count ∧ (raise s src detail).ev.ovf = true ∧
          (raise s src detail).ev.lost = s.ev.lost + 1)) ∧
      SameOutside [.ev, .port] s (raise s src detail))

/-- 04 R92, R94, R97–R99, R103: a condition of a channel that its detector declares is stored at the field die, and nothing but that
channel and the reports changes. 04 R99: with SHORT_OFF the blocking switch of an AI-I in its path limit opens and its input is off; the
first probe out of limit leaves it closed unless another condition holds it open. 04 R103, R104: a crossing of a wiring threshold opens
the blocking switches at once and switches the channel's output off; the declaration records MISWIRE or REVERSE, and the third within 60 s
isolates the channel; a transient and a cleared condition leave neither. -/
def Obligations.FieldConditionsAndWiring : Prop :=
  (∀ (s : State) (n : Chan), s.fdOn = true →
        (∀ level, fdKind (s.fdc n) = kindDI →
          Completes (.diStateChange n level) s fun t => (t.fdc n).diLevel = level ∧ FieldFrame n s t) ∧
        (∀ k, fdKind (s.fdc n) = kindDI → k ≠ .notDi →
          Completes (.diClassChange n k) s fun t =>
            (t.fdc n).diClass = (if k = .wireBreak ∧ diWbEn (s.fdc n).cfg = false then .off else k) ∧ FieldFrame n s t) ∧
        (∀ above, cfgFsnEn (s.fdc n).cfg = true →
          Completes (.senseDiff n above) s fun t => (t.fdc n).senseDiff = above ∧ FieldFrame n s t) ∧
        (∀ present, (present = false ∨ s.fdMaster n = true ∧ cfgImbEn (s.fdc n).cfg = true ∧ (s.fdc n).on = true) →
          Completes (.pairImbal n present) s fun t => (t.fdc n).imbal = present ∧ FieldFrame n s t) ∧
        (∀ entered, fdKind (s.fdc n) = kindAII → (s.fdc n).shortOpen = false →
          Completes (.pathLimit n entered) s fun t => (t.fdc n).inLimitPath = entered ∧ FieldFrame n s t) ∧
        (∀ present, (present = false ∨ fdKind (s.fdc n) = kindAII ∧ cfgRange (s.fdc n).cfg = 0 ∧ aiOpenEn (s.fdc n).cfg = true) →
          Completes (.openLoop n present) s fun t => (t.fdc n).openLoop = present ∧ FieldFrame n s t) ∧
        (∀ present, isSwitch (s.fdc n) = true → (present = false ∨ ((s.fdc n).on = false ∧ (s.fdc n).clampEvent = false)) →
          Completes (.doReverse n present) s fun t => (t.fdc n).doReverse = present ∧ FieldFrame n s t)) ∧
  (∀ (s : State) (n : Chan), s.fdOn = true → fdKind (s.fdc n) = kindAII →
        (aiShortOff (s.fdc n).cfg = true → (s.fdc n).inLimitPath = true → (s.fdc n).shortOpen = false →
          Completes (.shortSwitchOff n) s fun t =>
            (t.fdc n).shortOpen = true ∧ (t.fdc n).blockOpen = true ∧ (t.fdc n).on = false ∧ FieldFrame n s t) ∧
        ((s.fdc n).shortOpen = true →
          Completes (.shortProbe n false) s fun t =>
            (t.fdc n).shortOpen = false ∧ (t.fdc n).inLimitPath = false ∧
            ((t.fdc n).blockOpen = true ↔ (s.fdc n).crossed.isSome = true ∨ (s.fdc n).miswire = true ∨ (s.fdc n).reverse = true ∨
              (s.fdc n).isolated = true ∨ (s.fdc n).retired = true) ∧ FieldFrame n s t)) ∧
  (∀ (s : State) (n : Chan), s.fdOn = true →
        (∀ rev, hasThreshold (s.fdc n) rev = true → (s.fdc n).crossed = none →
          (if rev then (s.fdc n).reverse else (s.fdc n).miswire) = false →
          Completes (.wiringCrossing n rev) s fun t =>
            (t.fdc n).crossed = some rev ∧ (t.fdc n).blockOpen = true ∧ (t.fdc n).on = false ∧ FieldFrame n s t) ∧
        (∀ rev, (s.fdc n).crossed = some rev →
          Completes (.wiringDeclare n) s fun t =>
            (t.fdc n).crossed = none ∧ (t.fdc n).miswire = ((s.fdc n).miswire || !rev) ∧ (t.fdc n).reverse = ((s.fdc n).reverse || rev) ∧
            ((t.fdc n).isolated = true ↔ (s.fdc n).isolated = true ∨
              2 ≤ ((s.fdc n).declTicks.filter fun k => decide ((s.fd.tick - k).toNat < 600000000)).length) ∧ FieldFrame n s t) ∧
        ((s.fdc n).crossed.isSome = true →
          Completes (.wiringTransientEnd n) s fun t => (t.fdc n).crossed = none ∧ FieldFrame n s t) ∧
        ((s.fdc n).miswire = true ∨ (s.fdc n).reverse = true →
          Completes (.wiringClear n) s fun t =>
            (t.fdc n).miswire = false ∧ (t.fdc n).reverse = false ∧ (t.fdc n).isolated = (s.fdc n).isolated ∧ FieldFrame n s t))

/-- 04 R105, 06 R147, R149: a hard short, a steady trip and backfeed with the switch on each latch their overcurrent latch on the unit and
switch it off. 06 R149: the end of a flood window. 06 R153, 04 R93: a junction above the case by more than its limit, or above 170 °C, sets
its latch on every switch that acts together with the channel, and the switch is off; a latch releases 15 K below. -/
def Obligations.ProtectionLatches : Prop :=
  (∀ (s : State) (n : Chan) (ma : W16) (tj : Byte), s.fdOn = true → isSwitch (s.fdc n) = true → (s.fdc n).on = true →
        Completes (.hardShort n ma tj) s (fun t =>
          (t.fdc (s.unit n)).oc[1] = true ∧ (t.fdc (s.unit n)).on = false ∧ FieldFrame n s t) ∧
        ((s.fdc n).flood = false → Completes (.steadyTrip n ma tj) s fun t =>
          (t.fdc (s.unit n)).oc[0] = true ∧ (t.fdc (s.unit n)).on = false ∧ FieldFrame n s t) ∧
        Completes (.backfeed n true ma tj) s (fun t =>
          (t.fdc (s.unit n)).oc[2] = true ∧ (t.fdc (s.unit n)).on = false ∧ FieldFrame n s t)) ∧
  (∀ (s : State) (n : Chan) (limited : Bool), s.fdOn = true → isSwitch (s.fdc n) = true → (s.fdc n).on = true → (s.fdc n).flood = true →
        Completes (.floodWindowEnd n limited) s fun t =>
          (t.fdc (s.unit n)).flood = false ∧ (t.fdc (s.unit n)).floodLimited = limited ∧ FieldFrame n s t) ∧
  (∀ (s : State) (n : Chan) (tj tcase : W32) (inReg : Bool) (ma : W16), s.fdOn = true →
        (isSwitch (s.fdc n) = true ∨ (s.fdc n).thDt = true ∨ (s.fdc n).thAbs = true) →
        Completes (.thermalCompare n tj tcase inReg ma) s fun t =>
          (isSwitch (s.fdc n) = true → 170000 < tj.toInt → (s.fdc n).thAbs = false →
            (∀ m ∈ s.halves n, (t.fdc m).thAbs = true) ∧ (t.fdc (s.unit n)).on = false) ∧
          (155000 < tj.toInt → (s.fdc n).thAbs = true → (t.fdc n).thAbs = true) ∧
          (tj.toInt ≤ 155000 → (t.fdc n).thAbs = false) ∧
          (isSwitch (s.fdc n) = true → tcase.toInt + 1000 * protDtLim (s.fdc (s.unit n)).cfg < tj.toInt → (s.fdc n).thDt = false →
            (∀ m ∈ s.halves n, (t.fdc m).thDt = true) ∧ (t.fdc (s.unit n)).on = false) ∧
          (tcase.toInt + 1000 * protDtLim (s.fdc (s.unit n)).cfg - 15000 < tj.toInt → (s.fdc n).thDt = true → (t.fdc n).thDt = true) ∧
          (tj.toInt ≤ tcase.toInt + 1000 * protDtLim (s.fdc (s.unit n)).cfg - 15000 → (t.fdc n).thDt = false) ∧
          FieldFrame n s t)

/-- 06 R151, R152, 09 R260, R261: a clamp event fixes its allowance at its start, its energy joins the stored heat at its end, the latch
sets on every switch that acts together with the channel when the test finds the heat above its limits, and the stored heat decays by a
128th, rounded up, each millisecond outside events. -/
def Obligations.ClampHeatIsKept : Prop :=
  ∀ (s : State) (n : Chan),
    (∀ tj, s.fdOn = true → isSwitch (s.fdc n) = true → (s.fdc n).on = false → (s.fdc n).clampEvent = false →
      Completes (.clampEventStart n tj) s fun t =>
        (t.fdc n).clampEvent = true ∧ (t.fdc n).e = 0 ∧
        (t.fdc n).eAllow = clampAllow tj.toInt (protClampMj (s.fdc (s.unit n)).cfg) ∧ FieldFrame n s t) ∧
    (∀ samples, s.fdOn = true → (s.fdc n).clampEvent = true →
      Completes (.clampEventEnd n samples) s fun t =>
        (t.fdc n).clampEvent = false ∧ (t.fdc n).e = 0 ∧
        (t.fdc n).eEst = (s.fdc n).eEst + (divRound (256 * clampSum s n samples) (10 ^ 7)).toNat ∧ FieldFrame n s t) ∧
    (∀ samples, s.fdOn = true → isSwitch (s.fdc n) = true →
      clampOver (if (s.fdc n).clampEvent then clampSum s n samples else (s.fdc n).e) (s.fdc n).eEst (s.fdc n).eAllow = true →
      (s.fdc n).clampLatch = false →
      Completes (.clampEnergyTest n samples) s fun t => (∀ m ∈ s.halves n, (t.fdc m).clampLatch = true) ∧ FieldFrame n s t) ∧
    (s.fd.alive = true → (s.fdc n).clampEvent = false →
      Completes (.clampDecayStep n) s fun t => (t.fdc n).eEst = (s.fdc n).eEst - ((s.fdc n).eEst + 127) / 128 ∧ FieldFrame n s t)

/-- 05 R126, R128, R135–R140: what the field die keeps of proving: the window state after its filter time, dither with its two currents, the
last pulse's class, the phantom flags and the failed elements of a path check. 05 R128–R131, R141: a dither cycle that has run to its end sets
the next one's currents from its high half; an accepted one joins the accumulation, and after 16 accepted ones every fourth gives a result,
which is the channel's G; held evidence past its time leaves the estimate invalid. -/
def Obligations.ProvingAtFieldDieAndExecutive : Prop :=
  (∀ (s : State) (n : Chan), s.fdOn = true → proven (s.fdc n) = true →
        (∀ w held, s.m.mode ≠ .stop → (s.fdc n).on = true → (s.fdc n).flood = false → w ≠ .notArmed → 100 * pOpenFilt (s.fdc n).cfg ≤ held →
          Completes (.windowDeclare n w held) s fun t =>
            (t.fdc n).win = (if w = .belowLow ∧ pLow (s.fdc n).cfg = 0 then .pass else w) ∧ FieldFrame n s t) ∧
        (∀ iRef, pSndEn (s.fdc n).cfg = true → (s.fdc n).on = true → (s.fdc n).flood = false → (s.fdc n).win ≠ .notArmed →
          commandedLit (s.fdc n) = true → sounding s = true →
          Completes (.ditherStart n iRef) s fun t =>
            (t.fdc n).dither = true ∧ (t.fdc n).ditherFrom = s.fd.tick ∧ (t.fdc n).iRef = iRef.toNat ∧
            (t.fdc n).iLow = (divRound (iRef.toNat * (100 - pDither (s.fdc n).cfg)) 100).toNat ∧ FieldFrame n s t) ∧
        (∀ v0 v1 i1 vfld, pOffEn (s.fdc n).cfg = true → commandedLit (s.fdc n) = false → (s.fdc n).on = false → (s.fdc n).phSink = false →
          sounding s = true → pulseFree s n = true →
          Completes (.offStatePulse n v0 v1 i1 vfld) s fun t =>
            (t.fdc n).lastPulse = pulseClass (s.fdc n).cfg v0.toInt v1.toInt vfld.toInt ∧ SameOutside [.fd, .free] s t ∧
            ∀ m, m ≠ n → t.fdc m = s.fdc m) ∧
        (∀ held, s.m.mode ≠ .stop → pPhEn (s.fdc n).cfg = true → commandedLit (s.fdc n) = false → (s.fdc n).on = false →
          (s.fdc n).phDet = false → 100 * pPhFilt (s.fdc n).cfg ≤ held → phantomLive s (s.fdc n) = true →
          Completes (.phantomDeclare n held) s fun t =>
            (t.fdc n).phDet = true ∧ (t.fdc n).phSink = pSuppEn (s.fdc n).cfg ∧ (t.fdc n).phDriven = false ∧ FieldFrame n s t) ∧
        (s.m.mode ≠ .stop → (s.fdc n).phDet = true →
          Completes (.phantomClear n) s fun t =>
            (t.fdc n).phDet = false ∧ (t.fdc n).phSink = (s.fdc n).phSink ∧ FieldFrame n s t) ∧
        (s.m.mode ≠ .stop → (s.fdc n).phDet = true → (s.fdc n).phSink = true →
          Completes (.phantomDriven n) s fun t => (t.fdc n).phSink = false ∧ (t.fdc n).phDriven = true ∧ FieldFrame n s t) ∧
        (∀ m, (s.fd.slack = true ∨ s.m.mode ≠ .load ∧ s.m.mode ≠ .stop) →
          Completes (.pathCheck n m) s fun t => (t.fdc n).pcFail = pathFails (s.fdc n).cfg m ∧ FieldFrame n s t)) ∧
  (∀ (s : State) (n : Chan), s.execRuns = true →
        (∀ (c : DitherCycle) (t0 : W64) (len : Nat), s.ch[n].kind = kindDO → pProveEn (s.crec n) = true → pSndEn (s.crec n) = true →
          s.ch[n].retired = false → sounding s = true → fdKind (s.fdc n) = kindDO → (s.fdc n).dither = true →
          t0 = (s.fdc n).ditherNext → len = cycleLen (s.fdc n).cfg → len ≤ (s.fd.tick - t0).toNat →
          (cycleAccepted (s.fdc n) t0 c = false →
            Completes (.correlatorResult n [c]) s fun t =>
              (t.fdc n).ditherNext = t0 + BitVec.ofNat 64 len ∧ (t.fdc n).iRef = c.iHigh.toNat ∧
              (t.fdc n).iLow = (divRound (c.iHigh.toNat * (100 - pDither (s.fdc n).cfg)) 100).toNat ∧ FieldFrame n s t) ∧
          (cycleAccepted (s.fdc n) t0 c = true →
            (s.ch[n].accN < 15 ∨ s.ch[n].accN % 4 ≠ 3 →
              Completes (.correlatorResult n [c]) s fun t =>
                t.ch[n].accN = s.ch[n].accN + 1 ∧ t.ch[n].acc = (cycleSum (cycleLen (s.crec n)) t0 c :: s.ch[n].acc).take 16 ∧
                t.ch[n].p = s.ch[n].p ∧ (∀ m : Chan, m ≠ n → t.ch[m] = s.ch[m]) ∧ SameOutside [.fd, .ch] s t) ∧
            (∀ v, 15 ≤ s.ch[n].accN → s.ch[n].accN % 4 = 3 → windowOld (accumulate s n t0 c) n = false → s.enrol[n] = none →
              windowG (accumulate s n t0 c) n = some v →
              Completes (.correlatorResult n [c]) s fun t =>
                t.ch[n].p.gMeas = toW32 v ∧ t.ch[n].accN = s.ch[n].accN + 1 ∧ SameOutside [.fd, .ch, .ev, .img, .port] s t))) ∧
        (fresh s n s.ch[n].p.estTick = false →
          Completes (.evidenceExpiry n) s fun t => t.ch[n].p.estValid = false ∧ SameOutside [.ch, .ev, .img, .port] s t))

/-- 01 R19: an IDLE frame whose SEQ lies 1 to 16 ahead is accepted on its lane and ends the lane's run of failed frames; it counts as no
error. 01 R19 items 1 and 3, R22, Table 1-6b: on field→logic lane 1 a frame of a retransmitted type that fails its CRC, or carries another
SEQ than the next, is discarded and counted in CRC_ERR, and nothing else happens; only the first adds to the run of failed frames, whose
eighth loses the lane. -/
def Obligations.HeartbeatsAndDiscards : Prop :=
  (∀ (s : State) (h : BwHeader), frameOk h tyIdle = true → s.fd.alive = true →
        (s.bw.f2l0Up = true → 1 ≤ (h.seq - s.bw.idle0).toNat → (h.seq - s.bw.idle0).toNat ≤ 16 →
          Completes (.idleFrame .f2l0 h) s fun t =>
            t.bw.idle0 = h.seq ∧ t.bw.fail0 = 0 ∧ t.bw.crcErr = s.bw.crcErr ∧ t.bw.ebb = bitAt h.flags 2 ∧ SameOutside [.bw] s t) ∧
        (s.bw.f2l1Up = true → 1 ≤ (h.seq - s.bw.idle1).toNat → (h.seq - s.bw.idle1).toNat ≤ 16 →
          Completes (.idleFrame .f2l1 h) s fun t =>
            t.bw.idle1 = h.seq ∧ t.bw.fail1 = 0 ∧ t.bw.crcErr = s.bw.crcErr ∧ t.bw.ebb = bitAt h.flags 2 ∧ SameOutside [.bw] s t) ∧
        (s.fd.l2fUp = true → s.txRuns = true → 1 ≤ (h.seq - s.fd.idle).toNat → (h.seq - s.fd.idle).toNat ≤ 16 →
          Completes (.idleFrame .l2f h) s fun t =>
            t.fd = { s.fd with idle := h.seq, fail := 0, unacked := t.fd.unacked } ∧ SameOutside [.fd] s t)) ∧
  (∀ (s : State) (h : BwHeader), s.bw.f2l1Up = true → s.fd.alive = true →
        (∀ raw, (frameOk h tyStatus = false → Completes (.statusFrame h raw) s (FailedFrame s)) ∧
          (frameOk h tyStatus = true → h.seq ≠ s.bw.rxNext → Completes (.statusFrame h raw) s (SkippedFrame s))) ∧
        (frameOk h tyEvent = false → Completes (.eventFrame h) s (FailedFrame s)) ∧
        (frameOk h tyEvent = true → h.seq ≠ s.bw.rxNext → Completes (.eventFrame h) s (SkippedFrame s)) ∧
        (∀ sums missed, (frameOk h tyHousekeeping = false → Completes (.housekeepingFrame h sums missed) s (FailedFrame s)) ∧
          (frameOk h tyHousekeeping = true → h.seq ≠ s.bw.rxNext → Completes (.housekeepingFrame h sums missed) s (SkippedFrame s))))

/-- 01 R19–R21, 03 R526, 15 R425: a new STATUS frame takes every status report waiting at the field die, only while no EVENT is due, and shows
REF_READY, ALMSEL and the heat as they stand; a new EVENT frame takes the urgent reports up to a last-gasp record, a retained record first, which
leaves its store when the frame is accepted; a frame sent again carries what it carried; while the executive cannot take reports they are
buffered in order, up to 256 frames. 02 R62 step 9, 14 R385: a configuration accepted gives the field die the generation's identity and library;
an accepted SAFE frame applies every safe state, discards what waits and leaves the shadow wheels at INC_HOLD. -/
def Obligations.ReportsLoadAndSafeFrames : Prop :=
  (∀ (s : State) (h : BwHeader), s.bw.f2l1Up = true → s.fd.alive = true → h.seq = s.bw.rxNext →
        (∀ raw, fdMaySend s h.seq = true → fdHeld s h.seq = none → s.fd.slack = false → s.fd.events = [] → frameOk h tyStatus = true →
          Completes (.statusFrame h raw) s fun t =>
            t.fd.status = [] ∧ t.fd.events = [] ∧ t.fd.txSeq = s.fd.txSeq + 1 ∧
            (s.execRuns = false → s.bw.buffered.length < 256 →
              t.bw.buffered = s.bw.buffered ++
                [[.almsel s.fd.almsel, .heat (s.fd.ch.map (·.eEst))] ++
                  (if s.fd.status.contains .refReady && s.fd.refReady then [] else [.refNow s.fd.refReady]) ++ s.fd.status ++ [.diRaw raw]] ∧
              t.bw.rxNext = h.seq + 1)) ∧
        (∀ rs, rs = gaspDue s ++ (oneFrame s.fd.events).1 → rs ≠ [] → fdMaySend s h.seq = true → fdHeld s h.seq = none → s.fd.slack = false →
          frameOk h tyEvent = true →
          Completes (.eventFrame h) s fun t =>
            t.fd.events = (oneFrame s.fd.events).2 ∧ t.fd.status = s.fd.status ∧ t.fd.txSeq = s.fd.txSeq + 1 ∧
            t.fd.retained = (if rs.any (isStored s) then none else s.fd.retained) ∧
            (s.execRuns = false → s.bw.buffered.length < 256 → t.bw.buffered = s.bw.buffered ++ [rs] ∧ t.bw.rxNext = h.seq + 1)) ∧
        (∀ rs, h.seq ≠ s.fd.txSeq → fdHeld s h.seq = some (.event rs) → frameOk h tyEvent = true →
          Completes (.eventFrame h) s fun t =>
            t.fd.events = s.fd.events ∧ t.fd.txSeq = s.fd.txSeq ∧
            (s.execRuns = false → s.bw.buffered.length < 256 → t.bw.buffered = s.bw.buffered ++ [rs] ∧ t.bw.rxNext = h.seq + 1))) ∧
  (∀ (s : State) (h : BwHeader) (x : BwTx), s.fd.alive = true → s.fd.l2fUp = true → s.txRuns = true → h.seq = s.fd.rxNext →
        s.bw.unacked.find? (fun y => y.seq = h.seq) = some x →
        (∀ g f, x.body = .configure g f → s.fd.safeHeld = false → frameOk h tyLoad = true →
          Completes (.loadFrame h) s fun t =>
            t.fd.ident = some (g.seq, g.hdrCrc) ∧ t.fd.chars = g.chars ∧ (∀ n : Chan, (t.fdc n).cfg = g.chan[n]) ∧
            SameOutside [.free, .fd, .ch, .ev, .img, .port, .conv, .loop] s t) ∧
        (∀ cause why tick, x.body = .safe cause why tick → frameOk h tySafe = true →
          Completes (.safeFrame h) s fun t =>
            t.fd.safeHeld = true ∧ t.fd.cmds = [] ∧ t.fd.phases = [] ∧ t.fd.inc = s.fd.incHold ∧
            (s.fd.ident.isSome = true → ∀ n : Chan, (t.fdc n).safeOn = true) ∧ SameOutside [.free, .fd] s t))

/-- 01 R21: a COMMAND accepted before its target tick waits for it at the field die; one whose target tick has passed is reported late and
waits for the next tick; at the earliest target tick the commands for it leave the waiting list. 01 R16: a PHASE frame whose items lie ahead
waits for their tick; an item whose tick has come sets the shadow wheel to the value it holds now. The executive's PHASE frame takes the
next number of the lane while a place is free. -/
def Obligations.CommandAndPhaseFrames : Prop :=
  ((∀ (s : State) (h : BwHeader) (x : BwTx) (acts : List FieldAct) (target : W64), s.fd.alive = true → s.fd.l2fUp = true → s.txRuns = true →
        frameOk h tyCommand = true → h.seq = s.fd.rxNext → s.bw.unacked.find? (fun y => y.seq = h.seq) = some x →
        x.body = .command acts target → s.fd.ident.isSome = true → s.fd.safeHeld = false →
        (s.fd.tick.toNat < target.toNat →
          Completes (.commandFrame h) s fun t =>
            t.fd = { s.fd with
              rxNext := s.fd.rxNext + 1, fail := 0, unacked := t.fd.unacked, cmds := s.fd.cmds ++ acts.map fun a => ⟨a, target⟩ } ∧
            SameOutside [.fd] s t) ∧
        (target.toNat < s.fd.tick.toNat → s.fd.slack = false →
          Completes (.commandFrame h) s fun t =>
            t.fd = { s.fd with
              rxNext := s.fd.rxNext + 1, fail := 0, unacked := t.fd.unacked, cmds := s.fd.cmds ++ acts.map fun a => ⟨a, s.fd.tick + 1⟩,
              status := s.fd.status ++ acts.map fun a => .late (actChan a) } ∧
            SameOutside [.fd] s t)) ∧
      (∀ (s : State) (k : Nat), leastTarget s.fd.cmds = some k →
        Completes .commandTargetTick s fun t =>
          t.fd.cmds = s.fd.cmds.filter (fun c => c.target.toNat ≠ k) ∧ t.fd.phases = s.fd.phases ∧ SameOutside [.free, .fd] s t)) ∧
  ((∀ (s : State) (h : BwHeader) (x : BwTx) (items : List PhaseItem), s.fd.alive = true → s.fd.l2fUp = true → s.txRuns = true →
        frameOk h tyPhase = true → h.seq = s.fd.rxNext → s.bw.unacked.find? (fun y => y.seq = h.seq) = some x → x.body = .phase items →
        s.fd.safeHeld = false →
        ((∀ i ∈ items, s.fd.tick.toNat < i.tick.toNat) →
          Completes (.phaseFrame h) s fun t =>
            t.fd = { s.fd with rxNext := s.fd.rxNext + 1, fail := 0, unacked := t.fd.unacked, phases := s.fd.phases ++ items } ∧
            SameOutside [.fd] s t) ∧
        (∀ i, items = [i] → i.tick.toNat ≤ s.fd.tick.toNat →
          Completes (.phaseFrame h) s fun t =>
            t.fd.acc[i.wheel] = i.acc + i.inc * (s.fd.tick - i.tick) ∧ t.fd.inc[i.wheel] = i.inc ∧ t.fd.incHold[i.wheel] = i.hold ∧
            t.fd.wheelOn[i.wheel] = true ∧ SameOutside [.free, .fd] s t)) ∧
      (∀ s : State, s.execRuns = true → s.triad.blocked = false → s.bw.stopped = false → s.bw.waiting = [] → s.bw.unacked.length < 16 →
        ((List.finRange 4).filter fun w => started s.wheel[w]) ≠ [] →
        Completes .phaseSend s fun t =>
          t.bw.txSeq = s.bw.txSeq + 1 ∧
          (∃ x : BwTx, t.bw.unacked = s.bw.unacked ++ [x] ∧ x.seq = s.bw.txSeq ∧ x.sent = s.tick ∧ x.ack = s.bw.rxNext - 1 ∧
            bitAt x.flags 0 = false ∧ x.body = .phase (((List.finRange 4).filter fun w => started s.wheel[w]).map fun w =>
              phaseItem s w (gridTick (s.tick + 1)))) ∧ SameOutside [.bw] s t))

/-- 01 R21, R22, Table 1-5, 03 R78: a retransmission repeats every unacknowledged frame with RETX and the present ACK, at either die; the
loss of the logic→field lane puts a configured field die in slack hold; the loss of a field→logic lane is counted, and with lane 0 every
result loses VALID. 01 R19, Table 1-5, 03 R81: a lane that completes its training is up and numbers its spaces afresh; a failed retraining
is counted; ten milliseconds without loss end the run of lost samples; the end of the slack window applies every safe state. -/
def Obligations.LanesLostAndTrained : Prop :=
  (∀ s : State,
        (s.txRuns = true →
          exec (.bwRetransmit false) s =
            .next { s with bw := { s.bw with unacked := s.bw.unacked.map fun x =>
              { x with flags := bwFlags true s.recov.handover.isSome s.bw.ebb, ack := s.bw.rxNext - 1, sent := s.tick } } }) ∧
        (s.fd.alive = true →
          exec (.bwRetransmit true) s =
            .next { s with fd := { s.fd with unacked := s.fd.unacked.map fun x =>
              { x with flags := bwFlags true false (s.fd.band = 1 ∨ s.fd.band = 2), ack := s.fd.rxNext - 1, sent := s.fd.tick } } }) ∧
        (s.fd.alive = true → s.fd.l2fUp = true →
          Completes .l2fLaneLost s fun t =>
            t.fd.l2fUp = false ∧ t.bw.l2fUp = false ∧ (s.fd.ident.isSome = true → t.fd.slack = true) ∧
            (s.m.run = .running → s.triad.halted = false → t.bw.retrain = satInc s.bw.retrain) ∧
            SameOutside [.free, .recov, .bw, .fd, .ch, .mbx, .hart, .enrol] s t) ∧
        (s.bw.f2l0Up = true →
          Completes (.f2lLaneLost false) s fun t =>
            t.bw.f2l0Up = false ∧ t.bw.retrain = satInc s.bw.retrain ∧ (∀ p : PathIx, t.conv.path[p].res.valid = false) ∧
            SameOutside [.recov, .bw, .ch, .ev, .img, .port, .conv] s t) ∧
        (s.bw.f2l1Up = true →
          Completes (.f2lLaneLost true) s fun t =>
            t.bw.f2l1Up = false ∧ t.bw.retrain = satInc s.bw.retrain ∧ SameOutside [.recov, .bw, .ch, .ev, .img, .port] s t)) ∧
  (∀ s : State,
        (s.fd.alive = true → s.m.run ≠ .held → s.m.run ≠ .clockReset → 3 ≤ s.m.step.toNat →
          (s.bw.f2l0Up = false → Completes (.breakwaterTrained .f2l0) s fun t => t.bw.f2l0Up = true ∧ t.bw.idle0 = 255) ∧
          (s.bw.f2l1Up = false → Completes (.breakwaterTrained .f2l1) s fun t =>
            t.bw.f2l1Up = true ∧ t.bw.idle1 = 255 ∧ t.bw.rxNext = 0 ∧ t.fd.unacked = renumberFd s.fd.unacked 0) ∧
          (s.fd.l2fUp = false → Completes (.breakwaterTrained .l2f) s fun t =>
            t.fd.l2fUp = true ∧ t.bw.l2fUp = true ∧ t.fd.rxNext = 0 ∧ t.fd.idle = 255)) ∧
        (s.m.run ≠ .held → s.m.run ≠ .clockReset → 3 ≤ s.m.step.toNat → ¬(s.bw.f2l0Up = true ∧ s.bw.f2l1Up = true) →
          (s.m.mode ≠ .load ∨ s.m.wait = .endedInLoad) → s.bw.retrainFails ≠ 2 →
          exec .retrainTimeout s =
            .next { s with bw := { s.bw with retrain := satInc s.bw.retrain, retrainFails := s.bw.retrainFails + 1 } }) ∧
        (s.bw.sampleBad = true →
          Completes .sampleLossClear s fun t =>
            t.bw.sampleBad = false ∧ t.bw.losses = [] ∧ SameOutside [.bw, .ch, .ev, .img, .port, .conv] s t) ∧
        (s.fdOn = true → s.fd.slack = true → s.fd.expired = false → s.m.mode ≠ .load → s.recov.reload = none →
          Completes .slackWindowExpiry s fun t =>
            t.fd.expired = true ∧ (∀ n : Chan, (t.fdc n).safeOn = true) ∧ SameOutside [.free, .fd] s t))

/-- 03 R61, R65, R82, R84, R526, 07 R183: the field die's reset, reference, supply bands, last-gasp and retention store. -/
def Obligations.FieldSupplyAndReset : Prop :=
  ∀ s : State,
    (∀ almsel, s.fd.alive = false →
      Completes (.fieldResetRelease almsel) s fun t =>
        t.fd.alive = true ∧ t.fd.refOn = true ∧ t.fd.refReady = false ∧ t.fd.almsel = almsel ∧ t.fd.ident = none ∧
        t.fd.gaspNumber = s.fd.gaspNumber ∧ t.fd.retained = s.fd.retained ∧
        (∀ n : Chan, (t.fdc n).on = false ∧ (t.fdc n).blockOpen = true) ∧ SameOutside [.fd] s t) ∧
    (s.fd.alive = true → s.fd.refOn = true → s.fd.refReady = false →
      Completes .refReady s fun t => t.fd.refReady = true ∧ SameOutside [.fd] s t) ∧
    (s.m.run = .running → s.m.mode = .load → s.m.step = 5 → s.conv.refReady = false → s.m.refOnTries ≠ 0 → s.m.refOnTries ≤ 3 →
      Completes .refOnRetry s fun t =>
        t.m.refOnTries = s.m.refOnTries + 1 ∧ t.m.wait = .reference ∧ SameOutside [.m, .bw, .ev, .port] s t) ∧
    (∀ band, s.fd.alive = true → s.fd.gasping = false → band ≠ s.fd.band → band ≠ 3 →
      Completes (.fieldSupplyBandChange band) s fun t =>
        t.fd.band = band ∧ (band ≠ 0 → ∀ n : Chan, (t.fdc n).dither = false) ∧ SameOutside [.fd, .ch, .ev, .img, .port, .conv] s t) ∧
    (∀ vfld vhold, s.fd.alive = true → s.fd.gasping = false →
      Completes (.lastGasp vfld vhold) s fun t =>
        t.fd.gasping = true ∧ t.fd.gaspNumber = s.fd.gaspNumber + 1 ∧
        t.fd.retained = some ⟨s.fd.gaspNumber + 1, .fieldReset, vfld, vhold, s.fd.ch.map fun c => (gaspAo c).on⟩ ∧
        (∀ n : Chan, (t.fdc n).dither = false ∧ (isAO (fdKind (s.fdc n)) = true → (t.fdc n).on = false ∧ (t.fdc n).dac = 0) ∧
          (fdKind (s.fdc n) = kindDO → (t.fdc n).on = false)) ∧
        SameOutside [.free, .fd] s t) ∧
    (s.fd.gasping = true →
      Completes .fieldDieReset s fun t =>
        t.fd.alive = false ∧ t.fd.ident = none ∧ t.fd.gaspNumber = s.fd.gaspNumber ∧ t.fd.retained = s.fd.retained ∧
        (∀ n : Chan, (t.fdc n).on = false ∧ (isAO s.ch[n].kind = true → t.loop[n].targetOn = false ∧ t.loop[n].deliver = 0)) ∧
        t.trim.almsel = false ∧ SameOutside [.fd, .ev, .img, .port, .conv, .loop, .trim] s t) ∧
    exec .retentionStoreLoss s = .next { s with fd := { s.fd with retained := none } } ∧
    (∀ falling, s.fd.alive = true → s.fd.slack = false →
      exec (.vloopLow falling) s = .next { s with fd := { s.fd with status := s.fd.status ++ [.vloop falling] } }) ∧
    (s.fd.alive = true → s.bw.ramOnce = false → s.fd.slack = false →
      exec (.fieldDieFaultDetected .microcodeRam) s = .next { s with fd := { s.fd with status := s.fd.status ++ [.microRam] } }) ∧
    (∀ f, s.fd.alive = true → (f ≠ .microcodeRam ∨ s.bw.ramOnce = true) →
      Completes (.fieldDieFaultDetected f) s fun t =>
        t.fd.fatal = true ∧ (f = .tableCheck → t.fd.tableBad = true) ∧
        (s.fd.ident.isSome = true → ∀ n : Chan, (t.fdc n).safeOn = true) ∧ SameOutside [.free, .fd] s t)

/-- 01 R19, 08 R222, R233, R236–R238: an accepted SAMPLE frame moves the slot counter and counts the frames it shows lost; the
housekeeping sums become results; an output of a path becomes its next result, valid only if neither settling nor tainted; ALIGN releases
a waiting path. -/
def Obligations.SamplesAndResults : Prop :=
  (∀ (s : State) (h : BwHeader) (first : W64) (missI missV : BitVec 14), s.bw.f2l0Up = true → s.fd.alive = true → s.fd.gasping = false →
    frameOk h tySample = true → 1 ≤ (h.seq - s.bw.idle0).toNat → (h.seq - s.bw.idle0).toNat ≤ 16 → s.fd.refReady = true → s.conv.mask ≠ 0 →
    Completes (.sampleFrame h first missI missV) s fun t =>
      t.bw.idle0 = h.seq ∧ t.bw.lastSlot = some (sampleSlot h) ∧
      (∀ l, s.bw.lastSlot = some l → t.bw.lostSample = satAdd s.bw.lostSample ((sampleSlot h - (l + 14)).toNat / 14)) ∧
      SameOutside [.bw, .ch, .ev, .img, .port, .conv] s t) ∧
  (∀ (s : State) (h : BwHeader) (sums : List (Fin 24 × Nat)) (missed : Bool) (i : Fin 24) (k : Nat), s.bw.f2l1Up = true →
    fdMaySend s h.seq = true → fdHeld s h.seq = none → s.fd.gasping = false → (s.fd.slack = true ∨ s.fd.events = []) →
    frameOk h tyHousekeeping = true → h.seq = s.bw.rxNext → sums.getLast? = some (i, k) →
    Completes (.housekeepingFrame h sums missed) s fun t =>
      t.conv.hk[i].fout = BitVec.ofNat 32 k ∧ t.conv.hk[i].fresh = true ∧
      SameOutside [.bw, .fd, .ch, .ev, .img, .port, .conv, .gov] s t) ∧
  (∀ (s : State) (p : PathIx) (o : FiltOut) (os : List FiltOut), s.conv.path[p].outs = o :: os →
    Completes (.mainResult p) s fun t =>
      t.conv.path[p].outs = os ∧ t.conv.path[p].res.seq = s.conv.path[p].res.seq + 1 ∧ t.conv.path[p].res.fout = toW32 o.f ∧
      t.conv.path[p].res.ts = o.ts.setWidth 32 ∧ t.conv.path[p].res.fresh = true ∧
      (t.conv.path[p].res.valid = true ↔ o.settling = false ∧ o.tainted = false ∧ pathFault s p = false) ∧
      SameOutside [.ch, .ev, .img, .port, .conv, .loop] s t) ∧
  (∀ (s : State) (p : PathIx) (x : Wheel), s.conv.path[p].waitAlign = true → s.conv.path[p].since.toNat ≤ s.tick.toNat →
    x = s.wheel[(s.desc p).syncWheel.toFin] → started x = true → fires x.prev x.acc (s.desc p).syncPhase = true →
    exec (.alignCrossing p) s = .next (s.modPath p fun x => { x with waitAlign := false, since := s.tick }))

/-- 10 R270–R272: an edge of PPS_IN that fits its chain is the chain's last, and takes the second number a write set; edges of MAINS_IN
and TIDE_IN reach the wheels that follow them. -/
def Obligations.ReferenceEdges : Prop :=
  ∀ s : State,
    (s.m.run = .running → (∀ k, s.time.ppsChain = some k → 25000000 < s.since k ∨ ppsInterval (s.since k) = true) →
      Completes .ppsEdge s fun t =>
        t.time.ppsChain = some s.tick ∧ t.time.ppsLast = some s.tick ∧
        (∀ v, s.time.set = some v → t.time.sec = v ∧ t.time.set = none ∧ t.time.secValid = true ∧ t.time.secSrc = false) ∧
        SameOutside [.ev, .port, .wheel, .time] s t) ∧
    (∀ w : WheelIx, follows s w 2 = true → s.wheel[w].mainsTick = none →
      Completes .mainsEdge s fun t => t.wheel[w].mainsTick = some s.tick ∧ SameOutside [.wheel] s t) ∧
    (∀ w : WheelIx, follows s w 3 = true → (∀ p, s.wheel[w].next = some p → p.step = none) →
      Completes .tideInEdge s fun t =>
        (inChain s w (tideInterval (s.tide w).periodUs.toNat) = true → t.wheel[w].last = some s.tick) ∧
        (inChain s w (tideInterval (s.tide w).periodUs.toNat) = false →
          t.wheel[w].rejected = satInc s.wheel[w].rejected ∧ t.wheel[w].last = s.wheel[w].last) ∧
        SameOutside [.wheel] s t)

/-- 10 R271, R274, R277–R279: a captured event is processed and counted; a new increment and a step take force at their apply tick, at which the
wheel advances by the new increment, and not before it; the loss of its reference puts a wheel that followed it in holdover. -/
def Obligations.WheelDiscipline : Prop :=
  ∀ (s : State) (w : WheelIx),
    (∀ v vs, s.execRuns = true → s.m.mode ≠ .stop → s.wheel[w].events = v :: vs →
      Completes (.referenceEventProcess w) s fun t =>
        t.wheel[w].accepted = s.wheel[w].accepted + 1 ∧ t.wheel[w].refTick = v.tick.setWidth 32 ∧
        (∀ x : WheelIx, x ≠ w → t.wheel[x] = s.wheel[x]) ∧ SameOutside [.ch, .ev, .img, .port, .wheel] s t) ∧
    (∀ p, s.wheel[w].next = some p → p.step = none → p.tick.toNat ≤ s.tick.toNat →
      Completes (.incApply w) s fun t =>
        t.wheel[w].inc = incWord (incNom (s.tide w) + p.f + p.s) ∧ t.wheel[w].f = p.f ∧ t.wheel[w].s = p.s ∧ t.wheel[w].next = none ∧
        (p.tick = s.tick → s.wheel[w].inc ≠ 0 → t.wheel[w].acc = s.wheel[w].acc - s.wheel[w].inc + t.wheel[w].inc) ∧
        (∀ x : WheelIx, x ≠ w → t.wheel[x] = s.wheel[x]) ∧ SameOutside [.wheel] s t) ∧
    (∀ p, s.wheel[w].next = some p → s.tick.toNat < p.tick.toNat → exec (.incApply w) s = .next s ∧ exec (.wheelStep w) s = .next s) ∧
    (∀ p e, s.wheel[w].next = some p → p.step = some e → s.tick = p.tick → s.wheel[w].inc ≠ 0 →
      Completes (.wheelStep w) s fun t =>
        t.wheel[w].acc = s.wheel[w].acc - s.wheel[w].inc + t.wheel[w].inc + (BitVec.ofInt 64 e <<< 32) ∧
        t.wheel[w].steps = satInc s.wheel[w].steps ∧
        t.wheel[w].inc = incWord (incNom (s.tide w) + p.f + p.s) ∧ t.wheel[w].next = none ∧
        (∀ x : WheelIx, x ≠ w → t.wheel[x] = s.wheel[x]) ∧ SameOutside [.ev, .port, .conv, .wheel, .pins] s t) ∧
    (started s.wheel[w] = true → (s.tide w).ref ≠ 0 → s.m.mode ≠ .stop →
      lostAfter (s.tide w) ≤ s.since (s.wheel[w].last.getD s.wheel[w].waitFrom) →
      Completes (.referenceLost w) s fun t =>
        t.wheel[w].qualified = false ∧ t.wheel[w].chain = 0 ∧
        (s.wheel[w].state = .acquire ∨ s.wheel[w].state = .slewing ∨ s.wheel[w].state = .locked →
          t.wheel[w].state = .holdover ∧ t.wheel[w].losses = satInc s.wheel[w].losses) ∧
        SameOutside [.ch, .ev, .img, .port, .wheel] s t)

/-- 10 R283, R286, R287: an edge of the running character that fires gives the output the level at the wheel's phase, and none does before it; a
changeover at phase 0 of the old wheel leaves the old record, and stops a character that the new library lacks; TIDE_OUT rises at phase 0 of
wheel 0 and falls 100 ticks later. -/
def Obligations.CharactersAndTideOut : Prop :=
  ∀ s : State,
    (∀ (n : Chan) (k : BitVec 6), runningChar (s.fdc n) = some k → edgeFires s n = true →
      Completes (.characterEdge n) s fun t => (t.fdc n).charLit = charLitNow s (s.fdc n) k ∧ FieldFrame n s t) ∧
    (∀ n : Chan, edgeFires s n = false → exec (.characterEdge n) s = .next s) ∧
    (∀ (n : Chan) (o : Character), (s.fdc n).oldChar = some o → shadowFires s o.wheel 0 = true →
      Completes (.libraryChangeover n) s fun t =>
        (t.fdc n).oldChar = none ∧ (∀ k, (s.fdc n).cmd = .character k → findChar s.fd.chars k = none → (t.fdc n).cmd = .dark) ∧
        FieldFrame n s t) ∧
    (started s.wheel[(0 : WheelIx)] = true → fires s.wheel[(0 : WheelIx)].prev s.wheel[(0 : WheelIx)].acc 0 = true →
      exec .tideOutPulse s = .next { s with pins := { s.pins with tideOut := true, tideRise := s.tick } }) ∧
    (s.pins.tideOut = true → 100 ≤ s.since s.pins.tideRise →
      exec .tideOutEnd s = .next { s with pins := { s.pins with tideOut := false } }) ∧
    (s.since s.pins.tideRise < 100 → exec .tideOutEnd s = .next s)

/-- 06 R156–R158: a token is refilled after 60 s, a quiet channel's RETRY_N returns to 0 after its quiet time unless a trip falls on the same tick,
and the end of the back-off is PERMIT; where every other condition holds only then and the governor admits it, the restart is sent for the
earliest tick that 01 R21 allows (the model's reading: log entry 53), and once it has taken place it counts as a retry and takes a token. -/
def Obligations.RetriesAndTokens : Prop :=
  ∀ (s : State) (n : Chan),
    (s.m.run = .running → s.ch[n].prot.tokens ≠ 15 → s.ch[n].prot.refilled = false → secTicks 60 ≤ s.ch[n].prot.refill →
      Completes (.tokenRefill n) s fun t =>
        t.ch[n].prot.tokens = s.ch[n].prot.tokens + 1 ∧ t.ch[n].prot.refill = 0 ∧ (∀ m : Chan, m ≠ n → t.ch[m] = s.ch[m]) ∧
        SameOutside [.ch] s t) ∧
    (s.m.run = .running → s.ch[n].retired = false → secTicks (retryQuietS (s.crec n)) ≤ s.ch[n].prot.onTime →
      s.fd.events.any (tripAt n s.tick) = false →
      Completes (.quietReset n) s fun t =>
        t.ch[n].prot.retryN = 0 ∧ t.ch[n].prot.tokens = s.ch[n].prot.tokens ∧ (∀ m : Chan, m ≠ n → t.ch[m] = s.ch[m]) ∧
        SameOutside [.ch] s t) ∧
    (s.execRuns = true → s.ch[n].prot.pstate = .backoff → s.ch[n].prot.expiry.toNat ≤ s.tick.toNat →
      Completes (.backoffExpiry n) s fun t =>
        t.ch[n].prot.pstate = .permit ∧ t.ch[n].prot.tokens = s.ch[n].prot.tokens ∧ t.ch[n].prot.retryN = s.ch[n].prot.retryN ∧
        (restartReady (permitted s n) n = false → t = permitted s n) ∧
        (restartReady (permitted s n) n = true → admits (permitted s n) (doIncrease (permitted s n) n) false = true →
          t.ch[n].restarting = true ∧ t.ch[n].refused = none ∧
          (s.triad.blocked = false → s.bw.gathering = false → s.bw.stopped = false → s.recov.reload = none → s.bw.waiting = [] →
            s.bw.unacked.length < 16 →
            ∃ x : BwTx, t.bw.unacked = s.bw.unacked ++ [x] ∧ x.body = .command [.restart n] (s.tick + leadTicks))) ∧
        (restartReady (permitted s n) n = true → admits (permitted s n) (doIncrease (permitted s n) n) false = false →
          t.ch[n].refused = some s.ch[n].cmdWord ∧ bitAt t.ch[n].prot.live pGovRef = true ∧ t.bw = s.bw) ∧
        (∀ m : Chan, m ≠ n → t.ch[m] = s.ch[m]) ∧ SameOutside [.bw, .ch, .ev, .gov, .img, .port] s t) ∧
    (s.ch[n].prot.pstate = .permit ∨ s.ch[n].prot.pstate = .backoff →
      (takeReport s (.restarted n)).ch[n].prot.pstate = .clear ∧
      (takeReport s (.restarted n)).ch[n].prot.retryN = s.ch[n].prot.retryN + 1 ∧
      (takeReport s (.restarted n)).ch[n].prot.tokens = s.ch[n].prot.tokens - 1 ∧ SameOutside [.ch] s (takeReport s (.restarted n)))

/-- 06 R163–R166: the estimate is recomputed and its peak kept, and OVER ends when the sum is back under its limit; a sum above the budget
for 1 s sets OVER; a refused turn-on that fits is carried out; SHED switches off the highest lit channel that allows it. -/
def Obligations.GovernorEstimatesRefusesAndSheds : Prop :=
  ∀ s : State, s.execRuns = true →
    Completes .governorUpdate s (fun t =>
      t.gov.pEst = satNat 16 (divRound (govSum (govUpdate s)) 1000).toNat ∧ t.gov.pEst.toNat ≤ t.gov.peak.toNat ∧
      (govSum (govUpdate s) ≤ (if s.device.shed then budgetUw s else 95 * budgetUw s / 100) → t.gov.overSum = false) ∧
      SameOutside [.free, .bw, .ch, .ev, .img, .port, .conv, .loop, .gov] s t) ∧
    (budgetUw s < govSum s → s.gov.overSum = false →
      Completes .governorOver s fun t => t.gov.overSum = true ∧ t.gov.pEst = s.gov.pEst ∧ SameOutside [.ev, .gov, .port] s t) ∧
    (∀ (n : Chan) (v : W16), s.ch[n].refused = some v → (∀ m : Chan, m ≠ n → s.ch[m].refused = none) →
      (∀ m : Chan, s.loop[m].alarmRef = none) → s.ch[n].kind = kindDO → acting s = true →
      s.ch[n].map = none → s.ch[n].cmd = .dark → doCommand v ≠ .dark →
      admits s (doIncrease s n) s.ch[n].shed = true →
      Completes .governorReevaluate s fun t =>
        t.ch[n].refused = none ∧ t.ch[n].shed = false ∧ t.ch[n].cmd = doCommand v ∧ t.gov = s.gov ∧
        SameOutside [.free, .bw, .ch, .ev, .img, .port, .conv, .loop] s t) ∧
    (∀ n : Chan, acting s = true → s.gov.overSum = true → s.device.shed = true → budgetUw s < govSum s →
      (s.ch[n].kind = kindDO ∧ retryShedOk (s.crec n) = true ∧ s.ch[n].p.cmdLit = true ∧ s.ch[n].retired = false ∧
        s.ch[n].refused = none ∧ s.ch[n].roleOf = none) →
      (∀ m : Chan, n < m → s.ch[m].p.cmdLit = false) →
      Completes .governorShed s fun t =>
        t.ch[n].refused = some s.ch[n].cmdWord ∧ t.ch[n].shed = true ∧ t.ch[n].cmd = .dark ∧
        t.ch[n].prot.cntShed = satInc s.ch[n].prot.cntShed ∧ t.ch[n].prot.cntGov = satInc s.ch[n].prot.cntGov ∧
        SameOutside [.bw, .ch, .ev, .img, .port] s t)

/-- 07 R179, R182: what the field die finds of a regulating output is reported to the executive, and nothing else changes. 07 R181, 09
R257: RLOOP is the loop's voltage over its current where at least 1 mA flows, within 0 to 0xFFFE; ALM_RISK follows the test; the DAC code
of the target in force is computed, and sent when it changes. -/
def Obligations.LoopConditionsAndEstimates : Prop :=
  (∀ (s : State) (n : Chan), s.fdOn = true → checked s n (s.fdc n) = true → s.fd.slack = false →
        exec (.shortfall n) s = .next { s with fd := { s.fd with events := s.fd.events ++ [.compliance n 0 true] } } ∧
        exec (.excess n) s = .next { s with fd := { s.fd with events := s.fd.events ++ [.compliance n 1 true] } } ∧
        exec (.aoOpen n) s = .next { s with fd := { s.fd with events := s.fd.events ++ [.compliance n 2 true] } } ∧
        exec (.complianceClear n) s =
          .next { s with fd := { s.fd with status := s.fd.status ++ [.compliance n 0 false, .compliance n 1 false] } }) ∧
  (∀ (s : State) (n : Chan), s.execRuns = true →
        (s.ch[n].kind = kindAOSrc → (s.cur n).valid = true → (s.vol n).valid = true → 100000 ≤ Int.natAbs (s.cur n).value.toInt →
          Completes (.loopResistanceEstimate n) s fun t =>
            (0 ≤ (s.vol n).value.toInt → (t.loop[n].rloop.toNat : Int) =
              clampInt 0 0xFFFE (divRound (100 * (s.vol n).value.toInt) (Int.natAbs (s.cur n).value.toInt))) ∧
            (∀ m : Chan, m ≠ n → t.loop[m] = s.loop[m]) ∧ SameOutside [.free, .loop] s t) ∧
        (∀ risk k, s.ch[n].kind = kindAOSrc → bitAt s.loop[n].live lAlmRisk = !risk →
          (if risk then s.loop[n].riskSince else s.loop[n].easeSince) = some k → secTicks 1 ≤ s.since k →
          Completes (.almRisk n risk) s fun t =>
            bitAt t.loop[n].live lAlmRisk = risk ∧ (∀ m : Chan, m ≠ n → t.loop[m] = s.loop[m]) ∧ SameOutside [.ev, .img, .loop, .port] s t) ∧
        (isAO s.ch[n].kind = true → s.loop[n].targetOn = true → ∀ q d,
          q = tempTerms (factoryRec s.otpAt n (cselOut s.ch[n].kind)) (tjNow s n).1 →
          d = outChain s.loop[n].deliver (factoryRec s.otpAt n (cselOut s.ch[n].kind)) (userLayer s n (cselOut s.ch[n].kind)) q.1 q.2.1 →
          Completes (.dacRecompute n) s fun t =>
            t.conv.dac[n] = d.2.1 ∧ t.conv.dacSat[n] = d.2.2 ∧ (∀ m : Chan, m ≠ n → t.conv.dac[m] = s.conv.dac[m]) ∧
            (s.conv.dac[n] = d.2.1 → t.bw = s.bw) ∧ SameOutside [.bw, .conv] s t))

/-- 07 R191, R192, R194, 01 R34: a press of a button reaches the executive in a STATUS frame; its level is shown while it is pressed; outside TRIM it
does nothing else; both held move the arming to the next channel in order; TRIMLED's timer outside TRIM puts it out. -/
def Obligations.ButtonsAndTheirLamp : Prop :=
  ∀ s : State,
    (∀ zero ended ms both, s.fd.alive = true → s.fd.slack = false →
      exec (.buttonPress zero ended ms both) s =
        .next { s with fd := { s.fd with status := s.fd.status ++ [.button zero ended ms both] } }) ∧
    (∀ zero ms both t, t = takeReport s (.button zero false ms both) →
      (if zero then t.trim.zeroP else t.trim.spanP) = true ∧ t.trim.armed = s.trim.armed ∧ t.trim.actCount = s.trim.actCount ∧
      SameOutside [.trim] s t) ∧
    (∀ zero ms both t, s.m.mode ≠ .trim → t = takeReport s (.button zero true ms both) →
      (if zero then t.trim.zeroP else t.trim.spanP) = false ∧ t.trim.actCount = s.trim.actCount ∧ SameOutside [.trim] s t) ∧
    (∀ zero ms n t, s.m.mode = .trim → s.execRuns = true → s.trim.both = false → s.trim.armValid = true → nextArmed s = some n →
      t = takeReport s (.button zero true ms true) →
      t.trim.armed = n ∧ t.trim.lastAct = 4 ∧ t.trim.actCount = satInc s.trim.actCount ∧ t.trim.led = .success ∧
      t.pins.ledLow = true ∧ SameOutside [.ev, .port, .trim, .pins] s t) ∧
    (s.m.mode ≠ .trim →
      Completes .trimledTimer s fun t => t.trim.led = .off ∧ t.pins.ledLow = false ∧ SameOutside [.trim, .pins] s t) ∧
    (∀ k, s.m.mode = .trim → s.trim.led = .pulse k true →
      Completes .trimledTimer s fun t => t.trim.led = .pulse k false ∧ t.pins.ledLow = false ∧ SameOutside [.trim, .pins] s t) ∧
    (∀ k, s.m.mode = .trim → s.trim.led = .pulse k false →
      Completes .trimledTimer s fun t =>
        t.trim.led = (if k < s.trim.armed.val then .pulse (k + 1) true else .gap) ∧
        (t.pins.ledLow = true ↔ k < s.trim.armed.val) ∧ SameOutside [.trim, .pins] s t)

/-- 07 R197, R198, R200: a poll or search that falls due waits once in the list; a free modem takes a pass-through request before a cyclic
one; a modem that fails its loopback test leaves service; a burst frame is counted. 07 R198: a good response frees the modem and gives the
device its variables; a response that fails its check, or none in time, is counted and tried again while retries are left; the last
failure of a poll makes the device absent. -/
def Obligations.HartTransactions : Prop :=
  (∀ s : State,
        (∀ n a, hartRuns s n = true → hartMapped s n a = true → hartQueued s n a = false →
          (s.loop[n].dev[a.toFin].live = true →
            Completes (.hartPollDue n a) s fun t => HartReq.poll n a s.tick ∈ t.hart.polls ∧ t.hart.passes = s.hart.passes ∧
              SameOutside [.hart] s t) ∧
          (s.loop[n].dev[a.toFin].live = false →
            Completes (.hartSearch n a) s fun t => HartReq.search n a s.tick ∈ t.hart.polls ∧ t.hart.passes = s.hart.passes ∧
              SameOutside [.hart] s t)) ∧
        (∀ (k : Fin 4) (r : HartReq) (rs : List HartReq) (n : Chan) (a : BitVec 4) (cmd : Byte) (data : List Byte) (slot : SlotIx),
          s.hart.modem[k].ok = true → s.hart.modem[k].txn = none → s.hart.passes = r :: rs → r = .pass n a cmd data slot →
          modemOf s.hart n = none → hartRuns s n = true →
          (∀ f, reqFrame s r = some f → Completes (.hartTransactionStart k) s fun t =>
            t.hart.modem[k].txn = some ⟨r, 0, f⟩ ∧ t.hart.passes = rs ∧ t.hart.polls = s.hart.polls ∧ SameOutside [.hart] s t) ∧
          (reqFrame s r = none → cmd ≠ 6 → Completes (.hartTransactionStart k) s fun t =>
            MbxEnded t slot rcTimeout 0 ∧ t.hart = { s.hart with passes := rs } ∧ SameOutside [.mbx, .hart] s t)) ∧
        (∀ k : Fin 4, s.execRuns = true → s.hart.modem[k].ok = true → s.hart.modem[k].txn = none →
          Completes (.hartModemSelftest k false) s fun t =>
            t.hart.modem[k].ok = false ∧ (∀ j : Fin 4, j ≠ k → t.hart.modem[j] = s.hart.modem[j]) ∧
            SameOutside [.ev, .mbx, .img, .port, .hart] s t) ∧
        (∀ n : Chan, s.m.run = .running → s.ch[n].kind = kindAII → hartEn (s.crec n) = true →
          Completes (.hartBurst n) s fun t => t.loop[n].cntBurst = satInc s.loop[n].cntBurst ∧ SameOutside [.loop] s t)) ∧
  (∀ (s : State) (k : Fin 4) (t0 : HartTxn), s.hart.modem[k].txn = some t0 →
        (∀ n a due f, t0.req = .poll n a due → f.ok = true → bitAt f.respCode 7 = false →
          Completes (.hartResponse k f) s fun t =>
            t.hart.modem[k].txn = none ∧ t.loop[n].dev[a.toFin].vars = hartVars f.data ∧ t.loop[n].dev[a.toFin].fds = f.devStatus ∧
            t.loop[n].dev[a.toFin].lastRead = some s.tick ∧ t.loop[n].lastFds = f.devStatus ∧ t.loop[n].errs = s.loop[n].errs ∧
            SameOutside [.hart, .img, .loop] s t) ∧
        (∀ f, f.ok = false → t0.retries ≠ 0 → hartRuns s t0.req.chan = true →
          Completes (.hartResponse k f) s fun t =>
            t.hart.modem[k].txn = some { t0 with retries := t0.retries - 1 } ∧
            t.loop[t0.req.chan].cntCheck = satInc s.loop[t0.req.chan].cntCheck ∧
            t.loop[t0.req.chan].errs = s.loop[t0.req.chan].errs + 1 ∧ SameOutside [.hart, .loop] s t) ∧
        (t0.retries ≠ 0 → hartRuns s t0.req.chan = true →
          Completes (.hartTimeout k) s fun t =>
            t.hart.modem[k].txn = some { t0 with retries := t0.retries - 1 } ∧
            t.loop[t0.req.chan].cntTimeout = satInc s.loop[t0.req.chan].cntTimeout ∧
            t.loop[t0.req.chan].errs = s.loop[t0.req.chan].errs + 1 ∧ SameOutside [.hart, .loop] s t) ∧
        (∀ n a due, (t0.req = .poll n a due ∨ t0.req = .search n a due) → t0.retries = 0 → s.loop[n].dev[a.toFin].live = true →
          Completes (.hartTimeout k) s fun t =>
            t.hart.modem[k].txn = none ∧ t.loop[n].dev[a.toFin].live = false ∧ SameOutside [.ev, .hart, .img, .loop, .port] s t))

/-- 10 R273, 13 R357, R367: a TIME record of a started wheel leaves every downstream port that is UP immediately after its MARK, and carries the wheel
as it stands then; where a response waits before it, it waits behind it. 11 R299, R305, R306: the words of an update leave the change set in one
request; a sweep sends the next 64 local words in three requests of at most 30. -/
def Obligations.TimeUpdatesAndSweepsSent : Prop :=
  (∀ (s : State) (w : WheelIx) (fTx : Byte), started s.wheel[w] = true → s.execRuns = true →
        Completes (.timeSend w fTx) s fun t =>
          (∀ (k : PortIx) (f : TxFrame), s.role k = 2 → s.port[k].state = .up → f = { msg := .time 0 (timeRecord s w fTx), since := s.tick } →
            f.msg.cls = .response ∧
            (s.port[k].rsp.waiting = [] → s.port[k].rsp.unacked.any (·.again) = false → txUnits f ≤ s.port[k].rsp.credits →
              t.port[k].markSeq = s.port[k].markSeq + 1 ∧ t.port[k].rsp.waiting = [] ∧
              ∃ (g : TxFrame) (r : TimeRecord), t.port[k].rsp.unacked = s.port[k].rsp.unacked ++ [g] ∧ g.msg = .time s.port[k].markSeq r ∧
                g.fseq = s.port[k].rsp.txSeq ∧
                t.port[k].out = [.mark (markBytes 2 (s.port[k].markSeq.setWidth 24)), sent (s.linkCfg k).peerId g] ∧
                r.wheel = w ∧ r.aUp = s.wheel[w].acc ∧ r.incUp = s.wheel[w].inc ∧ r.wheelState = s.wheel[w].state.code ∧
                r.periodUs = (s.tide w).periodUs ∧ r.fTx = fTx) ∧
            (s.port[k].rsp.waiting ≠ [] →
              t.port[k].rsp.waiting = s.port[k].rsp.waiting ++ [f] ∧ t.port[k].markSeq = s.port[k].markSeq ∧ t.port[k].out = [])) ∧
          (∀ k : PortIx, (s.role k ≠ 2 ∨ s.port[k].state ≠ .up) → t.port[k] = { s.port[k] with out := [] }) ∧ SameOutside [.port] s t) ∧
  (∀ (s : State) (k : PortIx), s.upPort = some k → s.execRuns = true →
        (∀ as, as = (s.img.changes.filter (sendable s)).take 30 → as ≠ [] →
          Completes .updateSend s fun t =>
            t.port[k].req.waiting = s.port[k].req.waiting ++
              [{ msg := .update false (as.map fun a => (a, s.ep a)), tag := s.port[k].nextTag, budget := fullBudget, since := s.tick }] ∧
            t.img.changes = s.img.changes.filter (fun a => !as.contains a) ∧ t.img.words = s.img.words ∧ t.img.copies = s.img.copies ∧
            (∀ j : PortIx, j ≠ k → t.port[j] = s.port[j]) ∧ SameOutside [.img, .port] s t) ∧
        (s.img.sweepForward = [] →
          Completes .sweepSend s fun t =>
            t.img.sweepAt = (s.img.sweepAt + 64) % 4096 ∧
            (∃ fs, t.port[k].req.waiting = s.port[k].req.waiting ++ fs ∧ fs.length = 3) ∧
            t.img.words = s.img.words ∧ t.img.copies = s.img.copies ∧ (∀ j : PortIx, j ≠ k → t.port[j] = s.port[j]) ∧
            SameOutside [.img, .port] s t))

/-- 11 R299, R305, R306: a boundary of a mode without rule cycles recomputes and writes what waits; 150 s without arrival make an entry
and its copies STALE, with their values kept. -/
def Obligations.BoundariesAndStaleEntries : Prop :=
  ∀ s : State, s.execRuns = true →
    (s.ruleRunning = false →
      Completes .endpointRecompute s fun t =>
        (∀ i : SrcIx, t.ev.src[i].waiting = none) ∧ SameOutside [.free, .m, .bw, .ch, .ev, .mbx, .img, .port, .loop, .gov, .enrol] s t) ∧
    (∀ (j : Fin 256) (e : GroupEntry), s.group.entries[j.val]? = some e → s.port[e.port].state = .up → s.img.entry[j].state = 1 →
      secTicks 150 ≤ s.since s.img.entry[j].heard → Sound s →
      Completes (.entryStale j) s fun t =>
        t.img.entry[j].state = 3 ∧ t.img.entry[j].losses = satInc s.img.entry[j].losses ∧ t.img.staleEnt = satInc s.img.staleEnt ∧
        (∀ a, inEntry e a = true → s.isLocal a = false →
          epQual (t.ep a) = qStale ∧ epValue (t.ep a) = epValue (s.ep a) ∧ epSeq (t.ep a) = epSeq (s.ep a)) ∧
        t.img.words = s.img.words ∧ SameOutside [.ev, .img, .port] s t)

/-- 11 R311–R313, 02 R52, 15 R422: the oldest fence of a group completes when its conditions hold: a local one shows its tag, makes a
pending generation with that tag due and begins an armed replacement; one from upstream is answered. 02 R52–R54: a due generation takes
effect between rule cycles, its unchanged sections leaving what they set; one whose dissipation does not fit stays pending for the next
completion of its tag. -/
def Obligations.FencesAndPendingGenerations : Prop :=
  (∀ (s : State) (f : PendingFence) (fs : List PendingFence), s.execRuns = true → f.ready = true →
        (s.img.fencesLocal = f :: fs →
          Completes (.fenceComplete false) s fun t =>
            t.img.fencesLocal = fs ∧ t.img.doneTag = f.tag ∧ t.img.donePartial = f.partialFlag ∧ t.img.doneCount = s.img.doneCount + 1 ∧
            (∀ p, s.boot.pend = some p → p.tag = f.tag → t.boot.pend = some { p with due := true }) ∧
            (s.recov.stage = .armed → s.recov.stageTag = f.tag → t.recov.stage = .switching ∧ t.recov.switchDue = true) ∧
            SameOutside [.boot, .ev, .img, .port, .recov] s t) ∧
        (∀ k tag, s.img.fencesUp = f :: fs → f.source = .upstream k tag →
          Completes (.fenceComplete true) s fun t =>
            t.img.fencesUp = fs ∧
            t.port[k].rsp.waiting = s.port[k].rsp.waiting ++
              [{ msg := .fenceRsp (if f.partialFlag then 1 else 0), tag := tag, since := s.tick }] ∧
            (∀ j : PortIx, j ≠ k → t.port[j] = s.port[j]) ∧ SameOutside [.img, .port] s t)) ∧
  (∀ (s : State) (a : Generation) (p : PendingGen), s.boot.gen = some a → s.boot.pend = some p → p.due = true → s.execRuns = true →
        s.m.mode ≠ .load → s.recov.reload = none → s.recov.stage ≠ .switching → s.cycleDone = true →
        (powerOk p.gen (measuredMv s 1) (measuredMv s 0) = true →
          Completes .generationApply s fun t =>
            t.boot.gen = some p.gen ∧ t.boot.pend = none ∧ t.boot.act = (if p.copyB then 2 else 1) ∧
            t.clk.clkoutSel = (if a.device = p.gen.device then s.clk.clkoutSel else p.gen.device.clkoutSel) ∧
            t.recov.ruleRestored = true ∧
            SameOutside [.boot, .bw, .ch, .clk, .conv, .enrol, .ev, .free, .hart, .img, .loop, .m, .mbx, .port, .recov, .rul, .wheel] s t) ∧
        (powerOk p.gen (measuredMv s 1) (measuredMv s 0) = false →
          Completes .generationApply s fun t =>
            t.boot.gen = some a ∧ t.boot.pend = some { p with due := false } ∧ SameOutside [.boot, .ev, .port] s t))

/-- 12 R318, R319, 03 R79, 12 R332: a cycle that starts at its boundary notes the boundary, writes the checkpoint of the generation and
toggles HBEAT; its COMMANDs wait for its step 5 at tick e, where step 4 ends, and take max(b, e) + 1,000 as their target; one that has not
completed by the next boundary is counted once. 02 R52, 12 R318: no cycle starts before a generation that is due has taken effect, nor before the
last one has completed. -/
def Obligations.RuleCycleCompletesOrOverruns : Prop :=
  ∀ (s : State) (g : Generation),
    (s.boot.gen = some g → cycleDue s g = true → s.m.leaving = none → s.m.afresh = false → s.m.reducedNow = none →
      Completes .ruleCycle s fun t =>
        t.rul.lastBoundary = some s.tick ∧ t.rul.overSeen = false ∧ t.rul.lastUs.toNat ≤ t.rul.maxUs.toNat ∧
        s.tick.toNat < t.rul.doneAt ∧ t.bw.gathering = false ∧
        (∀ acts target, L2F.command acts target ∈ t.bw.stepFive →
          target = BitVec.ofNat 64 (max (s.tick.toNat + 10 * g.cycleUs.toNat) t.bw.stepFiveAt) + 1000) ∧
        (∃ c : Checkpoint, t.rul.checkpoint = some c ∧ c.seq = g.seq ∧ c.mem = t.rul.mem ∧ c.grp = t.rul.grp ∧
          c.prot = t.ch.map (·.prot) ∧ c.mode = s.m.mode) ∧
        t.pins.hbeat = !s.pins.hbeat ∧ t.m = { s.m with beforeSafe := none } ∧
        SameOutside [.bw, .ch, .conv, .enrol, .ev, .free, .gov, .img, .loop, .m, .mbx, .pins, .port, .rul] s t) ∧
    (s.cycleDone = false → exec .ruleCycle s = .next s) ∧
    (∀ p, s.boot.pend = some p → p.due = true → s.m.mode ≠ .load → s.recov.reload = none → s.recov.stage ≠ .switching →
      exec .ruleCycle s = .next s) ∧
    (s.execRuns = true → s.ruleRunning = true → boundaryMissed s = true → s.rul.overSeen = false → s.rul.overRun ≠ 15 →
      Completes .ruleOverrun s fun t =>
        t.rul.overrun = satInc s.rul.overrun ∧ t.rul.overSeen = true ∧ t.rul.cycles = s.rul.cycles ∧ SameOutside [.ev, .port, .rul] s t)

/-- 13 R353, R354, R360: a port leaves DOWN at comma alignment, sends its identity, counts the TRAIN frames that agree with its
configuration, latches what disagrees, is UP with full credits once both sides are READY, and goes back to DOWN when training takes too
long. -/
def Obligations.PortTraining : Prop :=
  ∀ (s : State) (k : PortIx),
    (s.port[k].state = .down → s.port[k].retryWait = false → s.m.mode ≠ .load → s.m.mode ≠ .stop →
      Completes (.commaAligned k) s fun t =>
        t.port[k].state = .training ∧ (∀ j : PortIx, j ≠ k → t.port[j].state = s.port[j].state) ∧ SameOutside [.ev, .img, .port] s t) ∧
    (s.port[k].state = .training →
      Completes (.trainSend k) s fun t =>
        t.port[k].seenSent = s.port[k].seen ∧ t.port[k].readySent = s.port[k].ready ∧ t.port[k].state = .training ∧
        (∃ i : TrainInfo, t.port[k].out = [sent (s.linkCfg k).peerId { msg := .train i }] ∧ i.ownId = (s.linkCfg k).ownId ∧
          i.role = (s.linkCfg k).role ∧ i.seen = s.port[k].seen ∧ i.ready = s.port[k].ready) ∧
        (∀ j : PortIx, j ≠ k → t.port[j] = s.port[j]) ∧ SameOutside [.port] s t) ∧
    (∀ (f : LinkHeader) (i : TrainInfo), s.port[k].state = .training → f.eof = true → linkOk (s.linkCfg k).ownId f (trainMsg f) = true →
      f.fseq = 0 → i = trainOf f.payload →
      (s.port[k].readySent = false →
        Completes (.train k f) s fun t =>
          t.port[k].peerId = i.ownId ∧ t.port[k].state = .training ∧
          (trainMismatch (s.linkCfg k) i = (false, false, false) → i.revision = 1 →
            t.port[k].trainRun = s.port[k].trainRun + 1 ∧ (1 ≤ s.port[k].trainRun → t.port[k].seen = true)) ∧
          (i.ownId ≠ (s.linkCfg k).peerId → t.port[k].idMm = true ∧ t.port[k].trainRun = 0) ∧ SameOutside [.ev, .port] s t) ∧
      (s.port[k].readySent = true → trainMismatch (s.linkCfg k) i = (false, false, false) → i.revision = 1 → i.ready = true →
        Completes (.train k f) s fun t =>
          t.port[k].state = .up ∧ t.port[k].req.credits = 8 ∧ t.port[k].rsp.credits = 8 ∧ t.port[k].urg.credits = 4 ∧
          SameOutside [.ev, .img, .port] s t)) ∧
    (s.port[k].state = .training →
      Completes (.trainingTimeout k) s fun t =>
        t.port[k].state = .down ∧ t.port[k].lastCause = 6 ∧ t.port[k].retryWait = true ∧
        (∀ j : PortIx, j ≠ k → t.port[j].state = s.port[j].state) ∧ SameOutside [.ev, .img, .port, .rul] s t) ∧
    Completes (.trainingRetry k) s (fun t => t.port[k].retryWait = false ∧ (∀ j : PortIx, j ≠ k → t.port[j] = s.port[j]) ∧
      SameOutside [.port] s t)

/-- 13 R355, R364, 11 R306: the loss of its signal, 64 code violations within 1 ms and the absence of a census each take an UP port down with their
own cause, and the entries that name it lose their copies. 13 R346, R359, R361, R363, R368: credit returns, acknowledgements and censuses
on an UP port; an acknowledged urgent frame frees the units it held at its arrival port; what fails its check is counted; a census that
disagrees takes the port down with cause 3. -/
def Obligations.PortLossesAndControls : Prop :=
  (∀ (s : State) (k : PortIx) (l : List W64), s.port[k].state = .up → l = s.tick :: s.port[k].viols.filter (fun t => s.since t < msTicks 1) →
        Completes (.lossOfSignal k) s (PortLost k 1 s) ∧
        (l.length < 64 → exec (.codeViolation k) s = .next (s.modPort k fun p => { p with viols := l })) ∧
        (64 ≤ l.length → Completes (.codeViolation k) s (PortLost k 2 s)) ∧
        Completes (.censusMissing k) s (PortLost k 4 s)) ∧
  (∀ (s : State) (k : PortIx), s.port[k].state = .up →
        (∀ (v : Byte) (c : LinkClass), classOf (field v 6 2 : BitVec 2).toNat = some c →
          Completes (.crt k v (~~~v)) s fun t =>
            (t.port[k].cls c).credits = (s.port[k].cls c).credits + ((field v 3 3 : BitVec 3).toNat + 1) ∧
            (∀ d, d ≠ c → t.port[k].cls d = s.port[k].cls d) ∧ t.port[k].ctlErr = s.port[k].ctlErr ∧ SameOutside [.port] s t) ∧
        (∀ v check, check ≠ ~~~v →
          Completes (.crt k v check) s fun t =>
            t.port[k].ctlErr = satInc s.port[k].ctlErr ∧ (∀ d, t.port[k].cls d = s.port[k].cls d) ∧ SameOutside [.port] s t) ∧
        (∀ c q i, (s.port[k].cls c).unacked.findIdx? (fun f => f.fseq = q) = some i →
          Completes (.ack k c q) s fun t =>
            (t.port[k].cls c).unacked = (s.port[k].cls c).unacked.drop (i + 1) ∧
            ((∀ f ∈ (s.port[k].cls c).unacked.take (i + 1), f.hold = none) →
              (∀ d, d ≠ c → t.port[k].cls d = s.port[k].cls d) ∧ ∀ j : PortIx, j ≠ k → t.port[j] = { s.port[j] with out := [] }) ∧
            (∀ f j u, (s.port[k].cls c).unacked.take (i + 1) = [f] → f.hold = some (j, u) → j ≠ k → s.port[j].state = .up →
              t.port[j].urg.occupied = s.port[j].urg.occupied - u ∧ t.port[j].out = [.crt (crtBytes .urgent u)]) ∧
            SameOutside [.port] s t) ∧
        Completes (.censusSend k) s (fun t =>
          t.port[k].out = [.cen (cenBytes ([s.port[k].req.credits, s.port[k].rsp.credits, s.port[k].urg.credits].map (BitVec.ofNat 8) ++
            [s.port[k].req.rcv, s.port[k].rsp.rcv, s.port[k].urg.rcv]))] ∧ (∀ d, t.port[k].cls d = s.port[k].cls d) ∧
          SameOutside [.port] s t) ∧
        (∀ (hq hp hu rq rp ru ck : Byte) (good : Bool),
          good = (censusOk s s.port[k] .request hq.toNat rq && censusOk s s.port[k] .response hp.toNat rp &&
            censusOk s s.port[k] .urgent hu.toNat ru) →
          (ck = crc8 [hq, hp, hu, rq, rp, ru] → good = false →
            Completes (.cen k hq hp hu rq rp ru ck) s fun t =>
              t.port[k].state = .down ∧ t.port[k].lastCause = 3 ∧ t.port[k].censusFail = satInc s.port[k].censusFail ∧
              SameOutside [.ch, .ev, .img, .port, .rul, .wheel] s t) ∧
          (ck = crc8 [hq, hp, hu, rq, rp, ru] → good = true →
            Completes (.cen k hq hp hu rq rp ru ck) s fun t =>
              t.port[k].state = .up ∧ t.port[k].censusFail = s.port[k].censusFail ∧ (∀ d, t.port[k].cls d = s.port[k].cls d) ∧
              SameOutside [.port] s t) ∧
          (ck ≠ crc8 [hq, hp, hu, rq, rp, ru] →
            Completes (.cen k hq hp hu rq rp ru ck) s fun t =>
              t.port[k].ctlErr = satInc s.port[k].ctlErr ∧ (∀ d, t.port[k].cls d = s.port[k].cls d) ∧ SameOutside [.port] s t)))

/-- 13 R346, R356, R357: a delay request is sent with its departure, answered with the turnaround, and its response gives the delay or is
rejected; a time-reference MARK is kept with its tick; a MARK whose CK does not pass is counted and answered with nothing. -/
def Obligations.DelayAndTimeMarks : Prop :=
  ∀ (s : State) (k : PortIx), s.port[k].state = .up →
    (∀ t1, Completes (.delayExchange k t1) s fun t =>
      t.port[k].exchOpen = some (s.port[k].exchSeq, t1) ∧ t.port[k].exchSeq = s.port[k].exchSeq + 1 ∧
      t.port[k].out = [.mark (markBytes 0 s.port[k].exchSeq)] ∧ SameOutside [.port] s t) ∧
    (∀ v ck turn, Completes (.markDelayRequest k v ck turn) s fun t =>
      (markOk 0 v ck = true → t.port[k].out = [.mark (markBytes 1 turn)] ∧ t.port[k].ctlErr = s.port[k].ctlErr) ∧
      (markOk 0 v ck = false → t.port[k].out = [] ∧ t.port[k].ctlErr = satInc s.port[k].ctlErr) ∧ SameOutside [.port] s t) ∧
    (∀ turn ck t4 q t1, s.port[k].exchOpen = some (q, t1) → markOk 1 turn ck = true →
      Completes (.markDelayResponse k turn ck t4) s fun t =>
        t.port[k].exchOpen = none ∧
        (keptRtt s.port[k] ((t4 - t1) - turn.toNat) = true →
          t.port[k].rtts = (((t4 - t1) - turn.toNat : Int) :: s.port[k].rtts).take 8 ∧ t.port[k].rej = s.port[k].rej ∧
          t.port[k].delay = satNat 16 (divRound ((((t4 - t1) - turn.toNat : Int) :: s.port[k].rtts).take 8).sum 16).toNat) ∧
        (keptRtt s.port[k] ((t4 - t1) - turn.toNat) = false →
          t.port[k].rej = satInc s.port[k].rej ∧ t.port[k].delay = s.port[k].delay ∧ t.port[k].rtts = s.port[k].rtts) ∧
        SameOutside [.port] s t) ∧
    (∀ v ck ns, markOk 2 v ck = true →
      Completes (.markTimeReference k v ck ns) s fun t =>
        t.port[k].mark = some (v, s.tick, ns) ∧ t.port[k].ctlErr = s.port[k].ctlErr ∧ SameOutside [.port] s t)

/-- 13 R359–R361, R366: the head of the urgent class goes out first, for its credits, then a response, then the request with the least
budget; a retransmission sends a class's frames again, those its credits do not allow later and before any newer frame of the class, and a frame
sent 16 times takes the port down with cause 5. -/
def Obligations.FramesSentAndSentAgain : Prop :=
  ∀ (s : State) (k : PortIx), s.port[k].state = .up →
    (∀ f fs, NoneAgain s k .urgent → s.port[k].urg.waiting = f :: fs → f.msg.cls = .urgent → txUnits f ≤ s.port[k].urg.credits →
      Completes (.linkFrameSend k) s fun t =>
        t.port[k].urg.waiting = fs ∧ t.port[k].urg.credits = s.port[k].urg.credits - txUnits f ∧
        t.port[k].urg.txSeq = s.port[k].urg.txSeq + 1 ∧
        (∃ g : TxFrame, t.port[k].urg.unacked = s.port[k].urg.unacked ++ [g] ∧ t.port[k].out = [sent (s.linkCfg k).peerId g] ∧
          g.msg = f.msg ∧ g.fseq = s.port[k].urg.txSeq) ∧
        t.port[k].req = s.port[k].req ∧ t.port[k].rsp = s.port[k].rsp ∧ (∀ j : PortIx, j ≠ k → t.port[j] = { s.port[j] with out := [] }) ∧
        SameOutside [.port] s t) ∧
    (∀ f, s.port[k].urg.unacked.find? (·.again) = some f → txUnits f ≤ s.port[k].urg.credits →
      Completes (.linkFrameSend k) s fun t =>
        t.port[k].urg.waiting = s.port[k].urg.waiting ∧ t.port[k].urg.txSeq = s.port[k].urg.txSeq ∧
        t.port[k].urg.unacked.map (·.fseq) = s.port[k].urg.unacked.map (·.fseq) ∧
        t.port[k].urg.credits + txUnits f ≤ s.port[k].urg.credits ∧ t.port[k].req = s.port[k].req ∧ t.port[k].rsp = s.port[k].rsp ∧
        SameOutside [.port] s t) ∧
    (∀ f fs, NoneAgain s k .urgent → NoneAgain s k .response → s.port[k].urg.waiting = [] → s.port[k].rsp.waiting = f :: fs →
      txUnits f ≤ s.port[k].rsp.credits →
      Completes (.linkFrameSend k) s fun t =>
        t.port[k].rsp.waiting = fs ∧ t.port[k].req = s.port[k].req ∧ t.port[k].urg = s.port[k].urg ∧ SameOutside [.port] s t) ∧
    (∀ i f, (∀ c, NoneAgain s k c) → s.port[k].urg.waiting = [] → s.port[k].rsp.waiting = [] → s.port[k].req.waiting[i]? = some f →
      (∀ j g, s.port[k].req.waiting[j]? = some g →
        budgetNow s k f ≤ budgetNow s k g ∧ (budgetNow s k g = budgetNow s k f → i ≤ j)) → txUnits f ≤ s.port[k].req.credits →
      Completes (.linkFrameSend k) s fun t =>
        t.port[k].req.waiting = s.port[k].req.waiting.eraseIdx i ∧ t.port[k].req.credits = s.port[k].req.credits - txUnits f ∧
        t.port[k].rsp = s.port[k].rsp ∧ t.port[k].urg = s.port[k].urg ∧ SameOutside [.port] s t) ∧
    (∀ c, (s.port[k].cls c).unacked ≠ [] → (∀ f ∈ (s.port[k].cls c).unacked, f.sends < 16) →
      Completes (.linkRetransmit k c) s fun t =>
        (t.port[k].cls c).unacked.map (·.fseq) = (s.port[k].cls c).unacked.map (·.fseq) ∧
        (t.port[k].cls c).credits ≤ (s.port[k].cls c).credits ∧ (t.port[k].cls c).waiting = (s.port[k].cls c).waiting ∧
        t.port[k].state = .up ∧ (∀ d, d ≠ c → t.port[k].cls d = s.port[k].cls d) ∧ SameOutside [.port] s t) ∧
    (∀ c f, f ∈ (s.port[k].cls c).unacked → 16 ≤ f.sends →
      Completes (.linkRetransmit k c) s fun t =>
        t.port[k].state = .down ∧ t.port[k].lastCause = 5 ∧ SameOutside [.ch, .ev, .img, .port, .rul, .wheel] s t)

/-- 11 R302, R304, R305, R310, 13 R352, R365: a request taken from a port: a write of one local command endpoint acts and is answered with
reason 0, one of an endpoint of another class with reason 3; one whose route leads to another port goes on there; an update moves its copy;
a fence is placed, or refused beyond eight. -/
def Obligations.RequestsTakenFromAPort : Prop :=
  ∀ (s : State) (k : PortIx) (h : LinkHeader), s.execRuns = true → Sound s →
    (∀ (a : BitVec 20) (v : W16), FrameTaken s k h (writeMsg h) → writesOf h.payload = [(a, v)] → writeWaits s k = false →
      (s.isLocal a = true → 0x800 ≤ offsetOf s.localBase a → s.m.mode ≠ .load → s.m.mode ≠ .stop → epQual (s.ep a) ≠ qUnassigned →
        (epClass (s.ep a) = 5 →
          Completes (.linkWrite k h) s fun t =>
            epValue (t.ep a) = v ∧ epSeq (t.ep a) = epSeq (s.ep a) + 1 ∧
            t.port[k].rsp.waiting = s.port[k].rsp.waiting ++ [{ msg := .writeRsp [0], tag := h.tag, since := s.tick }] ∧
            SameOutside [.img, .port, .rul] s t) ∧
        (epClass (s.ep a) ≠ 5 →
          Completes (.linkWrite k h) s fun t =>
            t.img.words = s.img.words ∧ t.img.lastAddr = a ∧ t.img.lastReason = 3 ∧
            t.port[k].rsp.waiting = s.port[k].rsp.waiting ++ [{ msg := .writeRsp [3], tag := h.tag, since := s.tick }] ∧
            SameOutside [.img, .port] s t)) ∧
      (∀ p j, s.route a (s.role k = 1) = .down p j → transitCount s < 256 →
        Completes (.linkWrite k h) s fun t =>
          t.port[p].req.waiting = s.port[p].req.waiting ++
            [{ msg := .write [(a, v)], tag := s.port[p].nextTag, budget := h.budget, since := s.tick }] ∧
          t.port[k].rsp.waiting = s.port[k].rsp.waiting ∧ t.img.words = s.img.words ∧ SameOutside [.img, .port] s t)) ∧
    (∀ (a : BitVec 20) (w : W32) (j : Nat) (e : GroupEntry), FrameTaken s k h (updateMsg h) → wordsOf h.payload = [(a, w)] →
      findEntry s.group a = some (j, e) → j < 256 → e.port = k → s.img.entry[(BitVec.ofNat 8 j).toFin].outside = false →
      s.isLocal a = false →
      Completes (.update k h) s fun t =>
        t.ep a = w ∧ t.img.entry[(BitVec.ofNat 8 j).toFin].state = 1 ∧
        t.port[k].rsp.waiting = s.port[k].rsp.waiting ++ [{ msg := .updateAck 1, tag := h.tag, since := s.tick }] ∧
        SameOutside [.img, .port] s t) ∧
    (FrameTaken s k h (fenceMsg h) →
      (s.img.fencesUp.length < 8 →
        Completes (.fenceRequest k h) s fun t =>
          (∃ f : PendingFence, t.img.fencesUp = s.img.fencesUp ++ [f] ∧ f.tag = BitVec.ofNat 16 (beAt h.payload 0 2) ∧
            f.source = .upstream k h.tag) ∧
          t.img.fenceRefused = s.img.fenceRefused ∧ SameOutside [.img, .port] s t) ∧
      (8 ≤ s.img.fencesUp.length →
        Completes (.fenceRequest k h) s fun t =>
          t.img.fencesUp = s.img.fencesUp ∧ t.img.fenceRefused = satInc s.img.fenceRefused ∧
          t.port[k].rsp.waiting = s.port[k].rsp.waiting ++ [{ msg := .fenceRsp 2, tag := h.tag, since := s.tick }] ∧
          SameOutside [.img, .port] s t))

/-- 13 R365, R366, 11 R307, R308, R311, R312: a response ends the request it answers: a refused word is recorded, an update leaves the
conditions of the fences, a fence stops waiting for the port, an error or 300 ms without a response fail every word. 13 R366: a request
whose budget ends in its input buffer is answered TIMEOUT on the port it came from, and counted; one that waits to be sent on is withdrawn
and answered TIMEOUT. -/
def Obligations.ResponsesEndTheirRequests : Prop :=
  (∀ (s : State) (k : PortIx) (h : LinkHeader) (r : OutRequest), (∀ j : PortIx, s.port[j].buffered = []) →
        answered s k h.tag = some r →
        (∀ a reason, s.execRuns = true → FrameTaken s k h (writeRspMsg h) → h.payload[0]? = some reason → r.kind = .origin 0 [a] →
          Completes (.writeRsp k h) s fun t =>
            r ∉ t.img.out ∧ (reason = 0 → t.img.refused = s.img.refused) ∧
            (reason ≠ 0 → t.img.refused = satInc s.img.refused ∧ t.img.lastAddr = a ∧ t.img.lastReason = reason.setWidth 3) ∧
            SameOutside [.img, .port] s t) ∧
        (∀ sweep as, s.execRuns = true → FrameTaken s k h (updateAckMsg h) → r.kind = .update sweep as →
          Completes (.updateAck k h) s fun t =>
            r ∉ t.img.out ∧ (sweep = false → ∀ f ∈ t.img.fencesLocal ++ t.img.fencesUp, r.id ∉ f.updates) ∧
            SameOutside [.img, .port] s t) ∧
        (∀ code id, s.execRuns = true → FrameTaken s k h (fenceRspMsg h) → field h.param 0 8 = code → r.kind = .fence id →
          Completes (.fenceRsp k h) s fun t =>
            r ∉ t.img.out ∧ (∀ f ∈ t.img.fencesLocal ++ t.img.fencesUp, f.id = id → k ∉ f.ports) ∧
            (∀ f ∈ s.img.fencesLocal, f.id = id → k ∈ f.ports →
              { f with ports := f.ports.filter (· ≠ k), partialFlag := f.partialFlag || decide (code ≠ (0 : Byte)) } ∈ t.img.fencesLocal) ∧
            SameOutside [.img, .port] s t) ∧
        (∀ a, s.execRuns = true → FrameTaken s k h (errorRspMsg h) → r.kind = .origin 0 [a] →
          Completes (.errorRsp k h) s fun t =>
            r ∉ t.img.out ∧ t.img.refused = satInc s.img.refused ∧ t.img.lastAddr = a ∧
            (field h.param 0 8 = 3#8 → t.img.lastReason = rsTimeout) ∧ (field h.param 0 8 = 4#8 → t.img.lastReason = rsNoRoute) ∧
            (field h.param 0 8 = 5#8 → t.img.lastReason = rsLoop) ∧ SameOutside [.img, .port] s t) ∧
        (∀ a, r.kind = .origin 0 [a] → msTicks 300 ≤ s.since r.since →
          Completes (.requestTimeout k h.tag) s fun t =>
            r ∉ t.img.out ∧ t.img.refused = satInc s.img.refused ∧ t.img.lastAddr = a ∧ t.img.lastReason = rsTimeout ∧
            t.port[k].timeouts = satInc s.port[k].timeouts ∧ SameOutside [.img, .port] s t) ∧
        (∀ id g, unsent s k h.tag = true → r.kind = .transit id [0] → s.img.merges.find? (fun x => x.id = id) = some g →
          g.reasons.length = 1 →
          Completes (.requestBudgetExpiry k h.tag) s fun t =>
            r ∉ t.img.out ∧ (∀ f ∈ t.port[k].req.waiting, f.tag ≠ h.tag) ∧
            t.port[g.port].rsp.waiting = s.port[g.port].rsp.waiting ++ [{ msg := .errorRsp 3, tag := g.tag, since := s.tick }] ∧
            t.port[k].timeouts = satInc s.port[k].timeouts ∧ SameOutside [.img, .port] s t)) ∧
  (∀ (s : State) (k : PortIx) (tag : W16) (b : BufferedRequest), s.port[k].buffered.find? (fun x => spent s x tag) = some b →
        Completes (.requestBudgetExpiry k tag) s fun t =>
          t.port[k].timeouts = satInc s.port[k].timeouts ∧ t.port[k].buffered = s.port[k].buffered.erase b ∧
          t.port[k].rsp.waiting = s.port[k].rsp.waiting ++ [{ msg := .errorRsp 3, tag := tag, since := s.tick }] ∧
          (∀ f ∈ t.img.fencesLocal ++ t.img.fencesUp, b.id ∉ f.writes) ∧
          (∀ j : PortIx, j ≠ k → t.port[j] = s.port[j]) ∧ SameOutside [.img, .port] s t)

/-- 10 R273, 13 R357, R368, R369, 18 R487: a TIME record without its MARK is rejected, and one with it gives the wheel that follows the port
its uncertainty and hops; DISC gives the neighbour's window; a LAMP record moves its copy when its SEQ lies after it; both urgent records
are forwarded upstream and enter the queue as remote ones, or are counted as foreign. -/
def Obligations.RecordsTakenFromAPort : Prop :=
  ∀ (s : State) (k : PortIx) (h : LinkHeader),
    (∀ r, FrameTaken s k h (timeMsg h) → r = timeOf h.payload → stepPending s.wheel[r.wheel] = false →
      (s.port[k].mark = none →
        Completes (.timeRecord k h) s fun t =>
          t.wheel[r.wheel].rejected = satInc s.wheel[r.wheel].rejected ∧ t.time = s.time ∧ SameOutside [.port, .wheel] s t) ∧
      (∀ v t0 ns, s.port[k].mark = some (v, t0, ns) → v = (field h.param 0 16 : W16).setWidth 24 → follows s r.wheel 4 = true →
        (s.tide r.wheel).refPort = k → r.wheelState ≠ 0 → r.periodUs = (s.tide r.wheel).periodUs → r.secValid = false →
        r.uncert = false →
        Completes (.timeRecord k h) s fun t =>
          t.port[k].mark = none ∧ t.wheel[r.wheel].unc = satAdd r.unc 250 ∧ t.wheel[r.wheel].hops = r.hops + 1 ∧
          t.wheel[r.wheel].rejected = s.wheel[r.wheel].rejected ∧ (∀ w : WheelIx, w ≠ r.wheel → t.wheel[w] = s.wheel[w]) ∧
          (s.wheel[r.wheel].state = .locked → t.wheel[r.wheel].uncert = false) ∧ SameOutside [.ch, .ev, .img, .port, .wheel] s t)) ∧
    (FrameTaken s k h (discMsg h) → s.execRuns = true →
      Completes (.disc k h) s fun t =>
        t.port[k].peerWinBase = addrAt h.payload 0 ∧ t.port[k].peerWinLog2 = (byteAt h.payload 4).setWidth 5 ∧
        t.port[k].peerWinValid = true ∧ SameOutside [.ev, .img, .port] s t) ∧
    (∀ a w o, FrameTaken s k h (lampMsg h) → a = addrAt h.payload 0 → w = BitVec.ofNat 32 (beAt h.payload 4 4) →
      o = byteAt h.payload 8 → s.execRuns = true → Sound s →
      Completes (.lampRecord k h) s fun t =>
        (entryOn s k a = true → s.isLocal a = false → serialGt (epSeq w) (epSeq (s.ep a)) = true → t.ep a = w) ∧
        (entryOn s k a = true → s.ev.src[lampSource o].enable = true → t.ev.remoteEntries = s.ev.remoteEntries + 1) ∧
        (entryOn s k a = false → t.ev.foreign = satInc s.ev.foreign ∧ t.img.copies = s.img.copies) ∧
        (∀ u, s.group.upport = some u → ∃ l, t.port[u].urg.waiting = s.port[u].urg.waiting ++
          { msg := lampMsg h, since := s.tick, hold := some (k, unitsOf (linkBytes h)) } :: l ∧ (s.ev.count < 255 → l = [])) ∧
        SameOutside [.ev, .img, .port] s t) ∧
    (∀ src a, FrameTaken s k h (eventMsg h) → src = (field (byteAt h.payload 0) 0 7 : BitVec 7).toFin → a = addrAt h.payload 4 →
      s.execRuns = true →
      Completes (.eventRecord k h) s fun t =>
        (entryOn s k a = true → s.ev.src[src].enable = true → t.ev.remoteEntries = s.ev.remoteEntries + 1) ∧
        (entryOn s k a = false → t.ev.foreign = satInc s.ev.foreign) ∧
        (∀ u, s.group.upport = some u → ∃ l, t.port[u].urg.waiting = s.port[u].urg.waiting ++
          { msg := eventMsg h, since := s.tick, hold := some (k, unitsOf (linkBytes h)) } :: l ∧ (s.ev.count < 255 → l = [])) ∧
        SameOutside [.ev, .port] s t)

/-- 14 R377, R379, R382, R387, R389, R391: a lane declared odd while three vote, by its outputs, its own report or 4,096 cycles in the minority,
is counted and recorded, and held for a resynchronisation, or retired at its third disagreement within 10 s; then RUN becomes REDUCED. Every
cycle in the minority counts in DEV.IAU. -/
def Obligations.OddLaneHeldOrRetired : Prop :=
  ∀ (s : State) (l : LaneIx), s.voting = true → s.straps.lanemode = false → s.triad.vote[l] = true → asPair s.triad = false →
    (∀ p : Fin 6, Completes (.laneDisagree l p) s (OddLane l .output (BitVec.ofNat 3 p.val) s)) ∧
    Completes (.laneSelfReport l) s (OddLane l .selfReport 7 s) ∧
    (∀ cycles, 4096 ≤ cycles.toNat → Completes (.iauMinority l cycles) s fun t =>
      OddLane l .inputAgreement 7 s t ∧ t.triad.iau[l] = satAdd s.triad.iau[l] 4096) ∧
    (∀ cycles, cycles.toNat < 4096 → Completes (.iauMinority l cycles) s fun t =>
      t.triad.iau[l] = satAdd s.triad.iau[l] cycles.toNat ∧ t.triad.vote = s.triad.vote ∧ t.triad.dis = s.triad.dis ∧ SameOutside [.triad] s t)

/-- 14 R379, R383, R385: a pair that disagrees, a report of its own by one of a pair, no majority, voters that differ, and a self-test that fails
lead to SAFE by the plane's own frame; nothing is sent to the field die after it. -/
def Obligations.VotingPlaneEntersSafe : Prop :=
  ∀ s : State, s.voting = true → s.triad.blocked = false → s.straps.lanemode = false →
    (asPair s.triad = true →
      (∀ (l : LaneIx) (p : Fin 6), s.triad.vote[l] = true → Completes (.laneDisagree l p) s (PlaneSafe 0x0A 4 s)) ∧
      (∀ l : LaneIx, s.triad.vote[l] = true → Completes (.laneSelfReport l) s (PlaneSafe 0x0A 6 s)) ∧
      Completes (.voterFault .pairMismatch) s (PlaneSafe 0x0A 4 s) ∧ Completes (.voterFault .pairSelfReport) s (PlaneSafe 0x0A 6 s)) ∧
    (asPair s.triad = false → Completes (.voterFault .noMajority) s (PlaneSafe 0x0B 3 s)) ∧
    Completes (.voterFault .v1v2) s (PlaneSafe 0x0B 1 s) ∧
    (s.triad.held = none → s.recov.handover = none → (s.tick.toNat % 10000 = 0 ∨ s.triad.testDue = true) →
      Completes (.voterSelftest (some 0)) s fun t => PlaneSafe 0x0B 2 s t ∧ t.triad.fault = true ∧ t.triad.pattern = 0 ∧ t.triad.tests = s.triad.tests)

/-- 14 R383, R387, R388, R390, R395: a self-test that passes is counted and takes the other pattern next, in a debug halt too; a survey of lanes
that agree is counted with its value; what falls due while a lane is rebuilt waits for its end; a rebuilt lane that verifies votes again, with
what waited run then, and one that does not is rebuilt once more. -/
def Obligations.SelfTestSurveyResynchronisation : Prop :=
  ∀ s : State,
    (s.voting = true → s.recov.handover = none → (s.tick.toNat % 10000 = 0 ∨ s.triad.testDue = true) →
      (s.triad.held = none →
        Completes (.voterSelftest none) s fun t =>
          t.triad.tests = s.triad.tests + 1 ∧ t.triad.patternAlt = !s.triad.patternAlt ∧ t.triad.testDue = false ∧ t.triad.vote = s.triad.vote ∧
          SameOutside [.triad] s t) ∧
      (s.triad.held.isSome = true → ∀ failing,
        exec (.voterSelftest failing) s = .next { s with triad := { s.triad with testDue := true } })) ∧
    (∀ x, s.voting = true → s.straps.lanemode = false → s.triad.held = none → s.execRuns = true → votingLanes s.triad = [0, 1, 2] →
      (s.tick.toNat % 100000 = 0 ∨ s.triad.surveyDue = true) →
      Completes (.stateSurvey [x, x, x]) s (fun t =>
        t.triad.surveys = s.triad.surveys + 1 ∧ t.triad.survCrc = x ∧ t.triad.mismatch = s.triad.mismatch ∧ t.triad.vote = s.triad.vote ∧
        SameOutside [.triad] s t) ∧
      ∀ y, y ≠ x → Completes (.stateSurvey [x, y, x]) s fun t =>
        t.triad.surveys = s.triad.surveys + 1 ∧ t.triad.survCrc = x ∧ t.triad.mismatch = satInc s.triad.mismatch ∧
        t.triad.lastLane = 1 ∧ t.triad.lastSource = 1 ∧ t.triad.vote[1] = false) ∧
    (∀ l, s.triad.held = some l →
      (∀ crcs, s.triad.surveyDue = false →
        Completes (.resyncComplete true true none crcs) s fun t =>
          t.triad.vote[l] = true ∧ t.triad.held = none ∧ t.triad.resyncs = satInc s.triad.resyncs ∧
          (∀ m : LaneIx, m ≠ l → t.triad.vote[m] = s.triad.vote[m]) ∧
          (s.recov.handover = none →
            t.triad.testDue = false ∧ t.triad.tests = if s.triad.testDue then s.triad.tests + 1 else s.triad.tests) ∧
          SameOutside [.triad, .img] s t) ∧
      (∀ x, s.triad.surveyDue = true → s.triad.testDue = false → s.execRuns = true → (∀ m : LaneIx, m ≠ l → s.triad.vote[m] = true) →
        Completes (.resyncComplete true true none [x, x, x]) s fun t =>
          t.triad.vote = Vector.replicate 3 true ∧ t.triad.surveyDue = false ∧ t.triad.surveys = s.triad.surveys + 1 ∧ t.triad.survCrc = x ∧
          t.triad.mismatch = s.triad.mismatch ∧ SameOutside [.triad, .img] s t) ∧
      (∀ failing crcs, s.triad.verFails = 0 → thirdWithin (recordDis s l .verification 7) l = false →
        Completes (.resyncComplete false true failing crcs) s fun t =>
          t.triad.held = some l ∧ t.triad.verFails = 1 ∧ t.triad.lastSource = 4 ∧ t.triad.vote = s.triad.vote ∧
          SameOutside [.triad, .ev, .port] s t))

/-- 14 R398, 19 R514: the TAP's instructions: EXTEST drives the cells while RESET_N is asserted or in LOAD and is BYPASS elsewhere; IDCODE
reads 0x116405A3; SAMPLE_PRELOAD captures and preloads; any other value is BYPASS. 14 R399: ATTACH is refused in RUN and REDUCED with
DEBUG_RUN clear and accepted in all other cases; every one raises event 105 and is counted, a refusal sets REFUSED; entering RUN or
REDUCED with a debugger attached and DEBUG_RUN clear detaches it and raises 105. -/
def Obligations.TapAndAttach : Prop :=
  (∀ s : State,
        (∀ cells, Completes (.extest cells) s fun t =>
          t.triad.ir = .extest ∧ (s.m.run = .held ∨ s.m.mode = .load → t.triad.boundary = cells) ∧
          (s.m.run ≠ .held → s.m.mode ≠ .load → t.triad.boundary = s.triad.boundary ∧ t.triad.dr = 0) ∧ SameOutside [.triad] s t) ∧
        Completes .idcode s (fun t => t.triad.ir = .idcode ∧ t.triad.dr = (0x116405A3 : BitVec 69) ∧ t.triad.boundary = s.triad.boundary ∧
          SameOutside [.triad] s t) ∧
        (∀ captured preload, Completes (.samplePreload captured preload) s fun t =>
          t.triad.ir = .samplePreload ∧ t.triad.dr = captured ∧ t.triad.boundary = preload ∧ SameOutside [.triad] s t) ∧
        (∀ ir, ir ∉ [0x00, 0x01, 0x02, 0x10, 0x11] → Completes (.bypass ir) s fun t =>
          t.triad.ir = .bypass ∧ t.triad.dr = 0 ∧ t.triad.boundary = s.triad.boundary ∧ SameOutside [.triad] s t)) ∧
  (∀ s : State,
        Completes .attach s (fun t =>
          t.triad.attaches = satInc s.triad.attaches ∧
          ((s.m.mode = .run ∨ s.m.mode = .reduced) ∧ s.device.debugRun = false →
            t.triad.attached = s.triad.attached ∧ t.triad.refused = true ∧ t.triad.lastRefused = true) ∧
          (¬((s.m.mode = .run ∨ s.m.mode = .reduced) ∧ s.device.debugRun = false) →
            t.triad.attached = true ∧ t.triad.refused = s.triad.refused ∧ t.triad.lastRefused = false) ∧
          (s.execRuns = true → s.ev.src[srcDebug].enable = true → t.ev.src[srcDebug].count = satInc s.ev.src[srcDebug].count) ∧
          SameOutside [.triad, .ev, .port] s t) ∧
        ∀ (mode : Mode) (cause : Byte), (mode = .run ∨ mode = .reduced) → s.triad.attached = true → s.device.debugRun = false →
          (setMode s mode cause).triad.attached = false ∧
          (s.execRuns = true → s.ev.src[srcDebug].enable = true →
            (setMode s mode cause).ev.src[srcDebug].count = satInc s.ev.src[srcDebug].count))

/-- 14 R398, R400, R401: a halt is asked for by an attached debugger, and stops the lanes and the Breakwater transmitter; DBG_ACCESS needs
it; a read shows a state word, a write is recorded for replay, up to 64; STEP replays and halts again, with a survey of the lanes after it except
in split boot; RELEASE and DETACH replay, survey and go on. -/
def Obligations.HaltAccessRelease : Prop :=
  ∀ s : State,
    (s.triad.attached = true →
      Completes .halt s fun t => (s.triad.halted = false → t.triad.haltReq = true) ∧ t.triad.halted = s.triad.halted ∧
        SameOutside [.triad] s t) ∧
    (s.triad.haltReq = true → s.voting = true → s.triad.held = none → s.recov.handover = none →
      Completes .triadHalted s fun t =>
        t.triad.halted = true ∧ t.triad.haltReq = false ∧ t.triad.haltTick = s.tick ∧ t.bw.stopped = true ∧ t.rul.lastBoundary = none ∧
        t.execRuns = false ∧ SameOutside [.triad, .bw, .rul] s t) ∧
    (∀ addr data, dbgOpen s.triad = false →
      Completes (.dbgRead addr) s (fun t => t.triad.dbgSt = 2 ∧ t.triad.dbgData = s.triad.dbgData ∧ SameOutside [.triad] s t) ∧
      Completes (.dbgWrite addr data) s (fun t => t.triad.dbgSt = 2 ∧ t.triad.replay = s.triad.replay ∧ SameOutside [.triad] s t)) ∧
    (∀ (addr : W32) (x : DbgTarget), dbgOpen s.triad = true → dbgTarget s addr = some x →
      Completes (.dbgRead addr) s (fun t =>
        t.triad.dbgSt = 0 ∧ t.triad.dbgAddr = addr ∧ t.triad.dbgData = dbgValue s x ∧ SameOutside [.triad] s t) ∧
      ∀ data, s.straps.lanemode = false → x.isSram = true →
        (s.triad.replay.length < 64 →
          Completes (.dbgWrite addr data) s fun t =>
            t.triad.dbgSt = 0 ∧ t.triad.replay = s.triad.replay ++ [⟨true, x.key, data⟩] ∧ dbgValue t x = data ∧
            SameOutside [.triad] s t) ∧
        (64 ≤ s.triad.replay.length →
          Completes (.dbgWrite addr data) s fun t =>
            t.triad.dbgSt = 3 ∧ t.triad.replayFull = true ∧ t.triad.replay = s.triad.replay ∧ SameOutside [.triad] s t)) ∧
    (dbgOpen s.triad = true →
      (∀ crcs, s.straps.lanemode = true →
        Completes (.step crcs) s fun t =>
          t.triad.replay = [] ∧ t.triad.halted = true ∧ t.triad.attached = true ∧ t.triad.surveys = s.triad.surveys ∧
          SameOutside [.triad, .img, .recov, .ev, .conv] s t) ∧
      (∀ x, s.straps.lanemode = false → votingLanes s.triad = [0, 1, 2] →
        Completes (.step [x, x, x]) s fun t =>
          t.triad.replay = [] ∧ t.triad.halted = true ∧ t.triad.attached = true ∧ t.triad.surveys = s.triad.surveys + 1 ∧ t.triad.survCrc = x ∧
          t.triad.mismatch = s.triad.mismatch ∧ SameOutside [.triad, .img, .recov, .ev, .conv] s t)) ∧
    (s.triad.halted = false → ∀ crcs,
      Completes (.release crcs) s (fun t => t.triad.halted = false ∧ t.triad.attached = s.triad.attached ∧ SameOutside [.triad] s t) ∧
      Completes (.detach crcs) s (fun t => t.triad.attached = false ∧ t.triad.haltReq = false ∧ SameOutside [.triad] s t)) ∧
    (∀ x, s.triad.halted = true → NothingHeld s → s.straps.lanemode = false → votingLanes s.triad = [0, 1, 2] →
      Completes (.release [x, x, x]) s (fun t =>
        t.triad.halted = false ∧ t.triad.attached = s.triad.attached ∧ t.triad.haltUs = satNat 32 (s.since s.triad.haltTick / 10) ∧
        t.triad.surveys = s.triad.surveys + 1 ∧ t.bw.stopped = false ∧ t.bw.l2fUp = false ∧ t.bw.retrain = satInc s.bw.retrain ∧
        SameOutside [.triad, .m, .bw, .recov, .rul, .ch, .ev, .img, .port] s t) ∧
      Completes (.detach [x, x, x]) s (fun t => t.triad.halted = false ∧ t.triad.attached = false ∧ t.triad.haltReq = false ∧
        SameOutside [.triad, .m, .bw, .recov, .rul, .ch, .ev, .img, .port] s t))

/-- 03 R62, R65, R66, 14 R394, 15 R407, R412, 19 R507, 01 R24: RESET_N and a lost supply put the logic die in LOAD and keep what they
must; t0 samples the straps; the clocks start the tick count and give the boot descriptor; the executive runs once its start check has
passed. -/
def Obligations.ResetAndStartUpToTheExecutive : Prop :=
  ∀ s : State,
    Completes (.logicReset .supply) s (fun t =>
      t.m.run = .held ∧ t.m.mode = .load ∧ t.bw.retrain = 0 ∧ t.bw.crcErr = 0 ∧ t.bw.lostSample = 0 ∧ t.recov.pcyc = false ∧
      t.recov.rstCause = 0 ∧ t.held = [] ∧ (∀ n : Chan, t.ch[n].retired = false) ∧ t.flash = s.flash ∧ t.mirror = s.mirror ∧ t.otp = s.otp) ∧
    (s.m.run ≠ .held →
      Completes (.logicReset .resetN) s fun t =>
        t.m.run = .held ∧ t.m.mode = .load ∧ t.bw.retrain = s.bw.retrain ∧ t.bw.crcErr = s.bw.crcErr ∧
        t.bw.lostSample = s.bw.lostSample ∧ t.recov.pcyc = false ∧ t.recov.rstCause = 1 ∧ t.recov.resets = satInc s.recov.resets ∧
        t.rul.checkpoint = s.rul.checkpoint ∧ t.ev.sramLog = s.ev.sramLog ∧ t.held = [] ∧ (∀ n : Chan, t.ch[n].retired = false) ∧
        t.flash = s.flash ∧ t.otp = s.otp) ∧
    (s.m.run = .held → Completes (.logicReset .resetN) s fun t => t.recov.pcyc = false ∧ t.m = s.m ∧ SameOutside [.recov] s t) ∧
    (∀ lanemode hcompat boot rstValid logValid, s.m.run = .held →
      Completes (.start lanemode hcompat boot rstValid logValid) s fun t =>
        t.m.run = .booting ∧ t.m.step = 1 ∧ t.m.mode = .load ∧ t.m.wait = .clocks ∧ t.m.t0 = s.tick ∧
        t.straps = ⟨lanemode, hcompat, boot⟩ ∧ (t.m.cause = 0x11 ↔ rstValid = true ∧ s.recov.rstCause ≠ 0) ∧
        SameOutside [.straps, .recov, .ev, .m, .port] s t) ∧
    (s.m.run = .booting → s.m.step = 1 →
      Completes .clockWaitTimeout s (fun t =>
        t.ev.deferred = s.ev.deferred ++ [(srcClock, clkcfgWord s.clk, s.tick)] ∧ SameOutside [.ev] s t) ∧
      Completes .clocksValid s fun t =>
        t.tick = 0 ∧ t.clk.xinOk = true ∧ t.clk.cpllLock = true ∧ t.clk.lpllLock = true ∧
        (bootDesc s.flashAt = none → t.m.run = .noExec ∧ t.m.wait = .endedInLoad ∧ t.m.step = 2) ∧
        (∀ d, bootDesc s.flashAt = some d → t.boot.desc = some d ∧ t.m.step = 3 ∧ t.m.run = .booting ∧ t.m.wait = .none) ∧
        SameOutside [.tick, .m, .clk, .recov, .mem, .boot] s t) ∧
    (∀ d, s.boot.desc = some d → s.m.run = .booting → 3 ≤ s.m.step.toNat →
      (∀ ok, chooseSlot s.flashAt false d.execSlot d.fallbackExec = none →
        Completes (.executiveLoaded ok) s fun t =>
          t.boot.execNone = true ∧ t.m.run = .noExec ∧ t.m.wait = .endedInLoad ∧ SameOutside [.boot, .m] s t) ∧
      (∀ slot fb h ok, chooseSlot s.flashAt false d.execSlot d.fallbackExec = some (slot, fb, h) →
        (checkPassed ok s.straps.lanemode = false →
          Completes (.executiveLoaded ok) s fun t =>
            t.triad.safeWhy = 7 ∧ t.triad.startOk = s.triad.startOk ∧ t.m.run = .noExec ∧ t.m.wait = .endedInLoad ∧ t.boot.execSlot = slot ∧
            (∀ p, checkFailed ok s.straps.lanemode = some p →
              t.triad.fault = true ∧ t.triad.pattern = BitVec.ofNat 3 p.val ∧ t.triad.tests = s.triad.tests) ∧
            SameOutside [.boot, .triad, .m] s t) ∧
        (checkPassed ok s.straps.lanemode = true → s.ev.deferred = [] → s.bw.buffered = [] →
          Completes (.executiveLoaded ok) s fun t =>
            t.m.run = .running ∧ t.boot.exec = some h ∧ t.boot.execSlot = slot ∧ t.boot.execFb = fb ∧ t.triad.startOk = true ∧
            t.triad.tests = s.triad.tests + 1 ∧
            (∀ l : LaneIx, t.triad.vote[l] = !s.straps.lanemode) ∧ SameOutside [.boot, .triad, .m, .recov, .ev] s t)))

/-- 03 R62 steps 6 to 11, R63, Tables 3-1, 3-3: without a usable microcode, and with BOOT 2, the start ends in LOAD; with BOOT 0 it ends
in RUN or REDUCED with the generation in force at the field die. -/
def Obligations.StartEndsAsTheStrapsSay : Prop :=
  ∀ (s : State) (d : BootDesc) (h : SlotHeader) (x : StartMeasure), s.boot.desc = some d → s.boot.exec = some h → s.execRuns = true →
    s.m.mode = .load → s.m.step = 5 → s.conv.refReady = true → s.m.refOnTries ≤ 3 → s.bw.allUp = true → s.m.readopt ≠ .refused →
    s.triad.blocked = false → s.fd.safeHeld = false →
    (chooseSlot s.flashAt true d.ucodeSlot d.fallbackUcode = none →
      Completes (.microcodeAccepted x) s fun t =>
        t.m.mode = .load ∧ t.m.wait = .endedInLoad ∧ t.m.cause = 0x12 ∧ t.boot.ucodeMm = true) ∧
    (∀ slot fb u c, chooseSlot s.flashAt true d.ucodeSlot d.fallbackUcode = some (slot, fb, u) → ucodeOk h u.version = true →
      (selectConfig s h).active = some c → s.fd.slack = false →
      (s.straps.boot = 2 →
        Completes (.microcodeAccepted x) s fun t =>
          t.m.mode = .load ∧ t.m.wait = .endedInLoad ∧ t.m.cause = 0x01 ∧ t.boot.gen = some (decGeneration (s.copyAt c) c.base)) ∧
      (s.straps.boot = 0 → powerOk (decGeneration (s.copyAt c) c.base) x.vloop x.vfld = true → s.recov.step4Next = false →
        Completes (.microcodeAccepted x) s fun t =>
          (t.m.mode = .run ∨ t.m.mode = .reduced) ∧ t.m.cause = 0x01 ∧ t.m.step = 11 ∧ t.m.readopt = .notInHold ∧
          t.boot.gen = some (decGeneration (s.copyAt c) c.base) ∧
          t.fd.ident = some ((decGeneration (s.copyAt c) c.base).seq, (decGeneration (s.copyAt c) c.base).hdrCrc)))

/-- 01 R31: a failed XIN or PLL is marked, XIN_OK falling with XIN alone; XIN lost on the monitor oscillator leaves the device there, and a PLL
that fails there has to relock; the relock to the monitor enters SAFE with cause 0x0D, takes every port down and raises event 106; no relock
resets the logic die until XIN is back; XIN restored leaves the monitor, and ends no failure in progress. -/
def Obligations.ClockFailureAndRecovery : Prop :=
  ∀ s : State,
    (∀ f, s.m.run ≠ .held → s.m.run ≠ .clockReset → 2 ≤ s.m.step.toNat → s.clk.failing = false →
      Completes (.xinFailure f) s fun t =>
        t.clk.xinOk = (s.clk.xinOk && decide (f ≠ .xin)) ∧ t.clk.goodSince = none ∧
        (s.clk.onMonitor = false ∨ f ≠ .xin →
          t.clk.cpllLock = false ∧ t.clk.lpllLock = false ∧ t.clk.failing = true ∧ t.clk.onMonitor = false) ∧
        (s.clk.onMonitor = true → f = .xin →
          t.clk.cpllLock = s.clk.cpllLock ∧ t.clk.lpllLock = s.clk.lpllLock ∧ t.clk.failing = false ∧ t.clk.onMonitor = true) ∧
        SameOutside [.clk] s t) ∧
    (s.clk.failing = true →
      Completes .monitorRelock s (fun t =>
        t.clk.onMonitor = true ∧ t.clk.failing = false ∧ t.clk.cpllLock = true ∧ t.clk.xinOk = s.clk.xinOk ∧
        (∀ k : PortIx, t.port[k].state = .down ∨ t.port[k].state = .disabled) ∧
        (s.m.mode = .run ∨ s.m.mode = .reduced ∨ s.m.mode = .trim → t.m.mode = .safe ∧ t.m.cause = 0x0D ∨ t.m.mode = .stop)) ∧
      Completes .clockReset s fun t =>
        t.m.run = .clockReset ∧ t.m.mode = .load ∧ t.recov.rstCause = 4 ∧ t.clk.failing = false ∧ t.flash = s.flash) ∧
    (s.m.run = .clockReset → Completes .xinRestored s fun t => t.m.run = .held ∧ t.m.mode = s.m.mode ∧ SameOutside [.m] s t) ∧
    (s.m.run ≠ .clockReset → s.clk.failing = false → s.clk.onMonitor = true →
      Completes .xinRestored s fun t =>
        t.clk.onMonitor = false ∧ t.clk.xinOk = true ∧ t.clk.goodSince = some s.tick ∧ SameOutside [.clk] s t) ∧
    (s.m.run ≠ .clockReset → s.clk.failing = true →
      Completes .xinRestored s fun t => t.clk = { s.clk with xinOk := true } ∧ SameOutside [.clk] s t)

/-- 18 R491, R493, Table 18-5: a command written to a running slot is discarded and counted; one taken shows its tag and ends with its
result: NOP with OK, a code of no command with UNKNOWN and the code, NOP in STOP with WRONG_MODE and the mode. 11 R310, 15 R408: FENCE
from the mailbox is placed, or refused with BUSY beyond eight; a power-cycle request is accepted in every mode and a second one changes
nothing; PCYC_N is asserted once no flash write is in progress, or 5 s after the request. -/
def Obligations.MailboxCommandsTaken : Prop :=
  (∀ (s : State) (i : SlotIx) (tag : W16), s.execRuns = true →
        (s.mbx.slot[i].state = .running →
          Completes (.nop i tag) s fun t => t.mbx.rejected = satInc s.mbx.rejected ∧ t.mbx.slot = s.mbx.slot ∧ SameOutside [.mbx] s t) ∧
        (s.mbx.slot[i].state ≠ .running →
          (s.m.mode ≠ .stop → Completes (.nop i tag) s fun t => MbxEnded t i rcOk 0 ∧ t.mbx.slot[i].tag = tag ∧ SameOutside [.mbx] s t) ∧
          (s.m.mode = .stop → Completes (.nop i tag) s fun t => MbxEnded t i rcWrongMode 5 ∧ SameOutside [.mbx] s t) ∧
          (∀ code : W16, code.toNat ∉ [0x01, 0x10, 0x20, 0x21, 0x22, 0x30, 0x31, 0x32, 0x40, 0x41, 0x42, 0x43, 0x50, 0x51, 0x52, 0x60, 0x70,
              0x71, 0x80, 0x81, 0x90, 0xA0] →
            Completes (.unknownMailboxCommand i code tag) s fun t =>
              MbxEnded t i rcUnknown (code.setWidth 32) ∧ t.mbx.slot[i].tag = tag ∧ SameOutside [.mbx] s t))) ∧
  (∀ (s : State) (i : SlotIx) (tag : W16),
        (MbxTaken s i → served s.m.mode = true → s.mbx.slot[i].arg[0] &&& ~~~0xFFFF#32 = 0 →
          (s.img.fencesLocal.length < 8 →
            Completes (.fence i tag) s fun t =>
              MbxEnded t i rcOk 0 ∧ (∃ f : PendingFence, t.img.fencesLocal = s.img.fencesLocal ++ [f] ∧
                f.tag = s.mbx.slot[i].arg[0].setWidth 16 ∧ f.source = .mailbox) ∧ SameOutside [.mbx, .img, .port] s t) ∧
          (8 ≤ s.img.fencesLocal.length →
            Completes (.fence i tag) s fun t =>
              MbxEnded t i rcBusy 0 ∧ t.img.fencesLocal = s.img.fencesLocal ∧ t.img.fenceRefused = satInc s.img.fenceRefused ∧
              SameOutside [.mbx, .img] s t)) ∧
        (MbxTaken s i →
          Completes (.requestPowerCycle i tag) s fun t =>
            MbxEnded t i rcOk 0 ∧
            (s.recov.pcyc = false → s.recov.pcycWait = false →
              t.recov.pcycWait = true ∧ t.recov.pcycTick = s.tick ∧ t.ev.sramLog.length ≤ 1 ∧ SameOutside [.mbx, .recov, .ev, .flash] s t) ∧
            (s.recov.pcyc = true ∨ s.recov.pcycWait = true → SameOutside [.mbx] s t)) ∧
        (s.recov.pcycWait = true →
          (s.boot.job = none ∨ secTicks 5 ≤ s.since s.recov.pcycTick →
            Completes .pcycAssert s fun t => t.recov.pcyc = true ∧ t.recov.pcycWait = false ∧ SameOutside [.recov] s t) ∧
          (s.boot.job ≠ none → s.since s.recov.pcycTick < secTicks 5 → exec .pcycAssert s = .next s)))

/-- 04 R109, R111, 06 R160, R161, Table 4-6: RETIRE_CHANNEL retires a channel and RUN becomes REDUCED; RETURN_CHANNEL gives it back a full
retry budget; MAP_SPARE marks a retired primary whose standby is ready; each refuses with INVALID what does not apply. -/
def Obligations.RetireReturnMap : Prop :=
  ∀ (s : State) (i : SlotIx) (tag : W16) (n : Chan), MbxTaken s i → served s.m.mode = true →
    s.mbx.slot[i].arg[0] = BitVec.ofNat 32 n.val →
    (s.ch[n].kind = kindOff ∨ s.ch[n].kind = kindPair →
      Completes (.retireChannel i tag) s fun t => MbxEnded t i rcInvalid 0 ∧ SameOutside [.mbx] s t) ∧
    (s.ch[n].kind ≠ kindOff → s.ch[n].kind ≠ kindPair → s.ch[n].retired = false →
      Completes (.retireChannel i tag) s fun t =>
        MbxEnded t i rcOk 0 ∧ t.ch[n].retired = true ∧ t.ch[n].prot.pstate = .retired ∧ t.ch[n].prot.retCause = .command ∧
        t.m.chanRet = true ∧ (s.m.mode = .run → t.m.mode = .reduced ∧ t.m.cause = 0x08)) ∧
    (s.ch[n].kind ≠ kindPair → s.ch[n].retired = false → s.ch[n].map = none →
      Completes (.returnChannel i tag) s fun t => MbxEnded t i rcInvalid 0 ∧ SameOutside [.mbx] s t) ∧
    (s.ch[n].kind ≠ kindPair → s.ch[n].retired = true →
      Completes (.returnChannel i tag) s fun t =>
        MbxEnded t i rcOk 0 ∧ t.ch[n].retired = false ∧ t.ch[n].prot.pstate = .clear ∧ t.ch[n].prot.retryN = 0 ∧
        t.ch[n].prot.tokens = 15 ∧ t.ch[n].prot.retCause = .notRetired ∧ t.ch[n].map = none) ∧
    (s.ch[n].retired = false →
      Completes (.mapSpare i tag) s fun t => MbxEnded t i rcInvalid 0 ∧ SameOutside [.mbx] s t) ∧
    (∀ q, s.ch[n].retired = true → cfgStbyEn (s.crec n) = true → s.ch[n].kind = kindDO → s.ch[cfgStby (s.crec n)].roleOf = some q →
      q ≠ n → Completes (.mapSpare i tag) s fun t => MbxEnded t i rcBusy 0 ∧ SameOutside [.mbx] s t) ∧
    (s.ch[n].retired = true → cfgStbyEn (s.crec n) = true → s.ch[n].kind = kindDO → s.ch[cfgStby (s.crec n)].roleOf = none →
      standbyReady s (cfgStby (s.crec n)) = true →
      Completes (.mapSpare i tag) s fun t =>
        MbxEnded t i rcOk 0 ∧ t.ch[n].mapDue = true ∧ (∀ m : Chan, m ≠ n → t.ch[m] = s.ch[m]) ∧ SameOutside [.mbx, .ch] s t)

/-- 05 R133, 07 R186–R190: a trim of an input begins a capture; one that ends with fewer than 16 results ends UNSTABLE, and a judged point
is in force from its recording; RESTORE_FACTORY drops a channel's points; an enrolment begins with nothing accumulated and no estimate,
gathers windows, and its signature is in force. -/
def Obligations.TrimsAndEnrolments : Prop :=
  ∀ (s : State) (i : SlotIx) (tag : W16) (n : Chan),
    (MbxTaken s i → trimModes s.m.mode = true → s.mbx.slot[i].arg[0] = BitVec.ofNat 32 n.val →
      s.ch[n].kind = kindAII ∨ s.ch[n].kind = kindAIV → s.boot.job = none → s.conv.capture = none →
      Completes (.trimZero i tag) s (fun t =>
        (∃ c : TrimCapture, t.conv.capture = some c ∧ c.ch = n ∧ c.span = false ∧ c.slot = some i ∧ c.got = [] ∧ c.point = none ∧
          c.r = s.mbx.slot[i].arg[1].toInt) ∧ t.mbx.slot[i].state = .running ∧ SameOutside [.mbx, .conv] s t) ∧
      Completes (.trimSpan i tag) s fun t =>
        (∃ c : TrimCapture, t.conv.capture = some c ∧ c.ch = n ∧ c.span = true ∧ c.slot = some i ∧ c.got = [] ∧ c.point = none ∧
          c.r = s.mbx.slot[i].arg[1].toInt) ∧ t.mbx.slot[i].state = .running ∧ SameOutside [.mbx, .conv] s t) ∧
    (∀ c : TrimCapture, s.execRuns = true → s.conv.capture = some c → c.ch = n → c.slot = some i →
      (∀ w, c.point = none → c.got.length < 16 →
        Completes (.trimCaptureComplete n w) s fun t =>
          t.conv.capture = none ∧ t.conv.points = s.conv.points ∧ t.mbx.slot[i].state = .done ∧ t.mbx.slot[i].result = rcUnstable ∧
          SameOutside [.mbx, .conv, .free] s t) ∧
      (∀ p, c.point = some p →
        Completes (.trimCaptureComplete n true) s (fun t =>
          t.conv.capture = none ∧ MbxEnded t i rcOk 0 ∧ (∃ j, (n, c.span, { p with jseq := j }) ∈ t.conv.points) ∧
          (journalFull s = false → t.boot.jseq = s.boot.jseq + 1) ∧ SameOutside [.boot, .flash, .mbx, .conv, .ev, .port] s t) ∧
        Completes (.trimCaptureComplete n false) s fun t =>
          t.conv.capture = none ∧ MbxEnded t i rcFlash (memstatWord s.mem) ∧ t.conv.points = s.conv.points ∧
          SameOutside [.mbx, .conv] s t)) ∧
    (MbxTaken s i → served s.m.mode = true → s.mbx.slot[i].arg[0] = BitVec.ofNat 32 n.val →
      Completes (.restoreFactory i tag) s fun t =>
        MbxEnded t i rcOk 0 ∧ (∀ x ∈ t.conv.points, x.1 ≠ n) ∧ (∀ x ∈ s.conv.points, x.1 ≠ n → x ∈ t.conv.points) ∧
        SameOutside [.boot, .flash, .mbx, .conv, .ev, .port] s t) ∧
    (MbxTaken s i → s.m.mode = .trim → s.mbx.slot[i].arg[0] = BitVec.ofNat 32 n.val →
      (enrolBad s n = true → Completes (.enrolSignature i tag) s fun t => MbxEnded t i rcInvalid 0 ∧ SameOutside [.mbx] s t) ∧
      (enrolBad s n = false → s.boot.job = none →
        Completes (.enrolSignature i tag) s fun t =>
          t.enrol[n] = some ⟨i, []⟩ ∧ (∀ m : Chan, m ≠ n → t.enrol[m] = s.enrol[m]) ∧ t.ch[n].acc = [] ∧ t.ch[n].accN = 0 ∧
          t.ch[n].p.estValid = false ∧ SameOutside [.mbx, .enrol, .ch, .ev, .img, .port, .free] s t)) ∧
    (∀ (g : Int) (a v tj : W32), s.execRuns = true → 0 ≤ g → s.enrol[n] = some ⟨i, [some g, some g, some g, some g]⟩ →
      Completes (.enrolComplete n a v tj true) s fun t =>
        t.enrol[n] = none ∧ MbxEnded t i rcOk 0 ∧ t.ch[n].p.sig = some (newSignature s n g a v tj) ∧
        SameOutside [.boot, .ch, .enrol, .flash, .mbx] s t)

/-- 03 R67, R68, R72–R74, R77: FORCE_SAFE enters SAFE under cause 0x05, and a change to REDUCED of the same rule cycle is discarded; LEAVE_SAFE
is refused for a cause that stands and otherwise waits for its cycle; TRIM is entered with its channel armed, and left after one cycle; that
cycle ends the command and the mode. -/
def Obligations.ModeCommands : Prop :=
  ∀ (s : State) (i : SlotIx) (tag : W16), MbxTaken s i →
    (s.m.mode = .run ∨ s.m.mode = .reduced ∨ s.m.mode = .trim →
      Completes (.forceSafe i tag) s fun t =>
        MbxEnded t i rcOk 0 ∧ t.m.mode = .safe ∧
        t.m.prev = (if s.m.reducedNow.isSome = true ∧ s.m.mode = .reduced then .run else s.m.mode) ∧ t.m.cause = 0x05 ∧
        t.m.safeTotal = satInc s.m.safeTotal ∧
        t.m.safeTicks = s.m.safeTicks ∧ (∀ n : Chan, t.ch[n].safeApp = true)) ∧
    (s.m.mode = .safe →
      (∀ c, safeBlock s = some c →
        Completes (.leaveSafe i tag) s fun t => MbxEnded t i rcCause (c.code.setWidth 32) ∧ SameOutside [.mbx] s t) ∧
      (safeBlock s = none → s.m.leaving = none →
        Completes (.leaveSafe i tag) s fun t =>
          t.mbx.slot[i].state = .running ∧ t.m.leaving = some i ∧ t.m.mode = .safe ∧ SameOutside [.mbx, .m] s t) ∧
      (∀ j, safeBlock s = none → s.m.leaving = some j →
        Completes (.leaveSafe i tag) s fun t => MbxEnded t i rcBusy 0 ∧ SameOutside [.mbx] s t)) ∧
    (s.m.mode = .run ∨ s.m.mode = .reduced → s.mbx.slot[i].arg[0] = 0xFF →
      Completes (.enterTrim i tag) s fun t =>
        t.mbx.slot[i].state = .done ∧ t.mbx.slot[i].result = rcOk ∧ t.m.mode = .trim ∧
        t.m.prev = (if s.m.reducedNow.isSome = true ∧ s.m.mode = .reduced then .run else s.m.mode) ∧ t.m.cause = 0x03 ∧
        t.pins.hbeat = false ∧ (t.trim.armValid = true ↔ ∃ n : Chan, armable t n = true)) ∧
    (s.m.mode = .trim → s.m.leaving = none →
      Completes (.leaveTrim i tag) s fun t =>
        t.mbx.slot[i].state = .running ∧ t.m.leaving = some i ∧ t.m.mode = .trim ∧ SameOutside [.mbx, .m] s t) ∧
    (∀ (g : Generation) (j : SlotIx), s.boot.gen = some g → cycleDue s g = true → s.m.leaving = some j →
      Completes .ruleCycle s fun t =>
        MbxEnded t j rcOk 0 ∧ t.m.leaving = none ∧ (t.m.mode = .run ∨ t.m.mode = .reduced) ∧ t.m.prev = s.m.mode ∧
        t.m.cause = (if s.m.mode = .trim then 0x04 else 0x06))

/-- 07 R203, 17 R472–R476: a HART pass-through waits behind those before it, a second one of its channel is BUSY, and one with no modem in
service ends with TIMEOUT (the last is the model's reading, log entry 152); a CHECK waits for
its range and returns the check value; the unit's START loads its register and each data write feeds its bytes in ascending order. -/
def Obligations.PassThroughAndCheck : Prop :=
  (∀ (s : State) (i : SlotIx) (tag : W16) (n : Chan), MbxTaken s i → served s.m.mode = true →
    s.mbx.slot[i].arg[0] = 0x00010100 ||| BitVec.ofNat 32 n.val → s.ch[n].kind = kindAII → hartEn (s.crec n) = true →
    s.ch[n].retired = false → s.ch[n].life ≠ .isolated →
    (passOutstanding s n = false → (∀ m : Fin 4, s.hart.modem[m].ok = false) →
      Completes (.hartPass i tag) s fun t => MbxEnded t i rcTimeout 0 ∧ SameOutside [.mbx] s t) ∧
    (∀ m : Fin 4, passOutstanding s n = false → s.hart.modem[m].ok = true →
      Completes (.hartPass i tag) s fun t =>
        t.hart.passes = s.hart.passes ++ [.pass n 1 1 [] i] ∧ t.hart.polls = s.hart.polls ∧ t.mbx.slot[i].state = .running ∧
        SameOutside [.mbx, .hart] s t) ∧
    (passOutstanding s n = true →
      Completes (.hartPass i tag) s fun t => MbxEnded t i rcBusy 0 ∧ SameOutside [.mbx] s t)) ∧
  (∀ (s : State) (i : SlotIx) (tag : W16), MbxTaken s i → s.m.mode ≠ .stop → s.mbx.slot[i].arg[0] = 8 →
    s.mbx.slot[i].arg[1].toNat < 0x1000000 → 0 < s.mbx.slot[i].arg[2].toNat →
    s.mbx.slot[i].arg[1].toNat + s.mbx.slot[i].arg[2].toNat ≤ 0x1000000 → s.chk.job = none →
    Completes (.check i tag) s fun t =>
      t.chk.job = some (i, true, s.mbx.slot[i].arg[1].toNat, s.mbx.slot[i].arg[2].toNat) ∧ t.mbx.slot[i].state = .running ∧
      SameOutside [.mbx, .chk] s t) ∧
  (∀ (s : State) (i : SlotIx) (start len : Nat), s.execRuns = true → s.chk.job = some (i, true, start, len) →
    Completes .checkComplete s fun t =>
      t.chk.job = none ∧ MbxEnded t i rcOk 0 ∧
      t.mbx.slot[i].ret[1] ++ t.mbx.slot[i].ret[0] = checkOver (checkParams s i) (rdBytes s.flashAt start len) ∧
      SameOutside [.mbx, .chk] s t) ∧
  (∀ s : State, s.execRuns = true →
    (∀ (ctrl : W32) (poly init xorout fold : W64), bitAt ctrl 16 = true → widthOk (field ctrl 0 7) = true →
      Completes (.checkUnitStart ctrl poly init xorout fold) s fun t =>
        t.chk.reg = checkMask (field ctrl 0 7) (init ^^^ fold) ∧ t.chk.width = field ctrl 0 7 ∧ t.chk.job = s.chk.job ∧
        SameOutside [.chk] s t) ∧
    (∀ v : W32,
      Completes (.data8 v) s (fun t => t.chk.reg = checkFeed s.chk s.chk.reg (field v 0 8) ∧ SameOutside [.chk] s t) ∧
      Completes (.data16 v) s (fun t =>
        t.chk.reg = checkFeed s.chk (checkFeed s.chk s.chk.reg (field v 0 8)) (field v 8 8) ∧ SameOutside [.chk] s t) ∧
      Completes (.data32 v) s fun t =>
        t.chk.reg = checkFeed s.chk (checkFeed s.chk (checkFeed s.chk (checkFeed s.chk s.chk.reg (field v 0 8)) (field v 8 8))
          (field v 16 8)) (field v 24 8) ∧ SameOutside [.chk] s t))

/-- 15 R418–R421, R49, Table 15-7: STAGE_OPEN claims staging, and its zero fill ends with OPEN, the kind and the length; STAGE_ABORT
empties what is open; a valid item is committed by STAGE_COMMIT or WRITE_CONFIG, and staging that holds none of its kind is refused. -/
def Obligations.StagingOpenedCommittedAborted : Prop :=
  ∀ (s : State) (i : SlotIx) (tag : W16), s.m.mode ≠ .stop →
    (MbxTaken s i → stageInUse s.recov = true → s.mbx.slot[i].arg[0] = 0 →
      Completes (.stageOpen i tag) s fun t => MbxEnded t i rcBusy 0 ∧ SameOutside [.mbx] s t) ∧
    (MbxTaken s i → stageInUse s.recov = false → s.recov.filling = none → s.mbx.slot[i].arg[0].toNat < 3 →
      (stageLenOk (s.mbx.slot[i].arg[0].setWidth 2) s.mbx.slot[i].arg[1].toNat = true →
        Completes (.stageOpen i tag) s fun t =>
          t.recov.filling = some i ∧ t.recov.stage = s.recov.stage ∧ t.mbx.slot[i].state = .running ∧
          t.mbx.slot[i].taken = s.mbx.slot[i].arg ∧ SameOutside [.mbx, .recov] s t) ∧
      (stageLenOk (s.mbx.slot[i].arg[0].setWidth 2) s.mbx.slot[i].arg[1].toNat = false →
        Completes (.stageOpen i tag) s fun t => MbxEnded t i rcInvalid 1 ∧ SameOutside [.mbx] s t)) ∧
    (s.execRuns = true → s.recov.filling = some i → Sound s →
      Completes .stagingFilled s fun t =>
        t.recov.filling = none ∧ t.recov.stage = .opened ∧ t.recov.stageKind = s.mbx.slot[i].taken[0].setWidth 2 ∧
        t.recov.stageLen = s.mbx.slot[i].taken[1].setWidth 21 ∧ MbxEnded t i rcOk 0 ∧
        (∀ k, k < s.mbx.slot[i].taken[1].toNat → t.stageAt k = 0) ∧
        (∀ k, s.mbx.slot[i].taken[1].toNat ≤ k → t.stageAt k = s.stageAt k) ∧ SameOutside [.ev, .mbx, .port, .recov] s t) ∧
    (MbxTaken s i → s.recov.stage = .opened → s.recov.filling = none →
      Completes (.stageAbort i tag) s fun t =>
        t.recov.stage = .empty ∧ MbxEnded t i rcOk 0 ∧ t.recov.staging = s.recov.staging ∧ SameOutside [.ev, .mbx, .port, .recov] s t) ∧
    (MbxTaken s i → s.mbx.slot[i].arg[0] &&& ~~~0xFFFF#32 = 0 →
      (s.recov.stage ≠ .opened ∨ s.recov.stageKind = 0 →
        Completes (.stageCommit i tag) s fun t =>
          t.mbx.slot[i].state = .done ∧ t.mbx.slot[i].result = rcInvalid ∧ SameOutside [.mbx, .free] s t) ∧
      (∀ d, s.recov.stage = .opened → s.recov.stageKind ≠ 0 → s.boot.job = none → s.recov.filling = none →
        (∀ j ∈ s.recov.jobs, j.func ≠ 0x1C) → commitCheck s (s.recov.stageKind = 2) = .ok → s.boot.desc = some d →
        Completes (.stageCommit i tag) s fun t =>
          t.recov.stage = .committing ∧ t.mbx.slot[i].state = .running ∧
          t.boot.job = some (.image i (s.mbx.slot[i].arg[0].setWidth 16) (s.recov.stageKind = 2)
            (!(if s.recov.stageKind = 2 then d.ucodeSlot else d.execSlot)) .rest) ∧
          (∀ base, base = slotBase (s.recov.stageKind = 2) (!(if s.recov.stageKind = 2 then d.ucodeSlot else d.execSlot)) →
            ∀ a, t.flashAt a = if base ≤ a ∧ a < base + 0x1000 then flashErased else s.flashAt a) ∧
          SameOutside [.boot, .ev, .flash, .mbx, .port, .recov] s t)) ∧
    (MbxTaken s i → s.mbx.slot[i].arg[0] &&& ~~~1#32 = 0 → s.mbx.slot[i].arg[1] &&& ~~~0xFFFF#32 = 0 → s.boot.job = none →
      s.boot.pend = none → s.recov.filling = none → s.recov.stage = .opened → s.recov.stageKind = 0 →
      (headerOk s.stageAt 0 = false →
        Completes (.writeConfig i tag) s fun t => MbxEnded t i rcInvalid 0xFFFF ∧ SameOutside [.mbx] s t) ∧
      (∀ h, headerOk s.stageAt 0 = true → bodyCheck s.stageAt 0 (measuredMv s 1) (measuredMv s 0) = .valid → s.boot.exec = some h →
        schemaOk h (copySchema s.stageAt 0) = true → Sound s →
        Completes (.writeConfig i tag) s fun t =>
          t.recov.stage = .committing ∧ t.mbx.slot[i].state = .running ∧
          (∃ seq, seq ≠ 0 ∧ t.boot.job = some (.config i (s.mbx.slot[i].arg[0].getLsbD 0) (s.mbx.slot[i].arg[1].setWidth 16) seq
            (writeTargetB s) false .rest)) ∧
          (∀ a, t.flashAt a = if copyBase (writeTargetB s) ≤ a ∧ a < copyBase (writeTargetB s) + 0x1000 then flashErased else s.flashAt a) ∧
          SameOutside [.boot, .ev, .flash, .mbx, .port, .recov] s t))

/-- 15 R421, R422, 02 R49–R51: the flash write of a copy or a slot goes step by step: the rest of the target erased, its content programmed, its
header last, each step changing no other byte; at the read-back staging empties, or is armed with the command's tag, after the mirror where
copy B has one; a write that fails leaves the target's header erased and staging OPEN. -/
def Obligations.FlashWritesEnd : Prop :=
  ∀ s : State, s.mem.cur = none → s.execRuns = true →
    (∀ i apply seq b tag p bs, s.boot.job = some (.config i apply tag seq b false p) → p ≠ .readBack → bs = stagedCopy s seq → Sound s →
      Completes (.entryComplete true) s fun t =>
        t.boot.job = some (.config i apply tag seq b false (nextStep false p)) ∧
        (p = .rest → ∀ a, t.flashAt a = if copyBase b + 0x1000 ≤ a ∧ a < copyBase b + 0x1000 + (bs.length - 0x1000 + 0xFFF) / 0x1000 * 0x1000
          then flashErased else s.flashAt a) ∧
        (∀ lo hi, (p, lo, hi) ∈ [(JobStep.body, 0x200, bs.length), (JobStep.headLow, 0, 0x100), (JobStep.headHigh, 0x100, 0x200)] →
          ∀ a, t.flashAt a = if copyBase b + lo ≤ a ∧ a < copyBase b + min hi bs.length then bs.getD (a - copyBase b) 0 else s.flashAt a) ∧
        SameOutside [.boot, .flash] s t) ∧
    (∀ i apply seq b tag p, s.boot.job = some (.config i apply tag seq b true p) → p ≠ .readBack →
      Completes (.entryComplete true) s fun t =>
        t.boot.job = some (.config i apply tag seq b true (nextStep false p)) ∧
        t.mirror = stepFlash s.mirror (copyBase b) (stagedCopy s seq) 0x200 p ∧ SameOutside [.boot, .mirror] s t) ∧
    (∀ i apply seq tag, s.boot.job = some (.config i apply tag seq true false .readBack) → s.mirrorB = true →
      Completes (.entryComplete true) s fun t =>
        t.boot.job = some (.config i apply tag seq true true .rest) ∧ t.mirror = eraseRange s.mirror (copyBase true) 0x1000 ∧
        SameOutside [.boot, .mirror] s t) ∧
    (∀ i apply seq b tag m, s.boot.job = some (.config i apply tag seq b m .readBack) → (m = true ∨ b = false ∨ s.mirrorB = false) →
      Completes (.entryComplete true) s fun t =>
        t.boot.job = none ∧ t.boot.lastFail = false ∧ t.recov.stage = .empty ∧ MbxEnded t i rcOk 0 ∧ t.mbx.slot[i].ret[0] = seq ∧
        (apply = true → s.m.mode ≠ .load → t.boot.pend = some ⟨decGeneration s.flashAt (copyBase b), tag, false, b⟩) ∧
        (apply = false ∨ s.m.mode = .load → t.boot.pend = s.boot.pend) ∧ SameOutside [.boot, .ev, .mbx, .port, .recov] s t) ∧
    (∀ i tag ucode target p, s.boot.job = some (.image i tag ucode target p) →
      (∀ bs, p ≠ .readBack → bs = sreadList stagingEmpty s.recov.staging 0 s.recov.stageLen.toNat → Sound s →
        Completes (.entryComplete true) s fun t =>
          t.boot.job = some (.image i tag ucode target (nextStep true p)) ∧
          (∀ lo hi, (p, lo, hi) ∈ [(JobStep.body, 0x100, bs.length), (JobStep.headLow, 0, 0x100)] →
            ∀ a, t.flashAt a = if slotBase ucode target + lo ≤ a ∧ a < slotBase ucode target + min hi bs.length
              then bs.getD (a - slotBase ucode target) 0 else s.flashAt a) ∧ SameOutside [.boot, .flash] s t) ∧
      (p = .readBack → s.m.mode ≠ .load →
        Completes (.entryComplete true) s fun t =>
          t.boot.job = none ∧ t.recov.stage = .armed ∧ t.recov.stageTag = tag ∧ MbxEnded t i rcOk 0 ∧
          SameOutside [.boot, .ev, .mbx, .port, .recov] s t) ∧
      (∀ d, p = .readBack → s.m.mode = .load → s.boot.desc = some d →
        Completes (.entryComplete true) s fun t =>
          t.boot.job = none ∧ t.recov.stage = .empty ∧ MbxEnded t i rcOk 0 ∧
          (∃ e, t.boot.desc = some e ∧ e.copy1 = !d.copy1 ∧ e.seq = d.seq + 1 ∧
            (if ucode then e.ucodeSlot else e.execSlot) = target) ∧ SameOutside [.boot, .ev, .flash, .mbx, .port, .recov] s t) ∧
      Completes (.entryComplete false) s (fun t =>
        t.boot.job = none ∧ t.recov.stage = .opened ∧ t.mbx.slot[i].state = .done ∧ t.mbx.slot[i].result = rcFlash ∧
        (∀ a, t.flashAt a = if slotBase ucode target ≤ a ∧ a < slotBase ucode target + 0x1000 then flashErased else s.flashAt a) ∧
        SameOutside [.boot, .ev, .flash, .mbx, .port, .recov] s t)) ∧
    (∀ i apply seq b tag p, s.boot.job = some (.config i apply tag seq b false p) →
      Completes (.entryComplete false) s fun t =>
        t.boot.job = none ∧ t.boot.lastFail = true ∧ t.recov.stage = .opened ∧ t.mbx.slot[i].state = .done ∧
        t.mbx.slot[i].result = rcFlash ∧
        (∀ a, t.flashAt a = if copyBase b ≤ a ∧ a < copyBase b + 0x1000 then flashErased else s.flashAt a) ∧
        SameOutside [.boot, .ev, .flash, .mbx, .port, .recov] s t)

/-- 15 R416, R411, Table 15-5: REINIT of an identifier beyond 0x1D is INVALID and of one in progress BUSY; any other is counted and runs
until its completion, which returns OK to the slot that asked; the field die's stops the transmitter and waits for it to answer. -/
def Obligations.ReinitBeginsAndCompletes : Prop :=
  ∀ (s : State) (i : SlotIx) (tag : W16),
    (MbxTaken s i → s.m.mode ≠ .stop → s.mbx.slot[i].arg[0].toNat < 256 →
      (0x1D < s.mbx.slot[i].arg[0].toNat →
        Completes (.reinit i tag) s fun t => MbxEnded t i rcInvalid 0 ∧ SameOutside [.mbx] s t) ∧
      (∀ j ∈ s.recov.jobs, s.mbx.slot[i].arg[0] = j.func.setWidth 32 → j.func.toNat ≤ 0x1D →
        Completes (.reinit i tag) s fun t => MbxEnded t i rcBusy 0 ∧ SameOutside [.mbx] s t) ∧
      (s.mbx.slot[i].arg[0].toNat ≤ 0x1C → (∀ j ∈ s.recov.jobs, s.mbx.slot[i].arg[0] ≠ j.func.setWidth 32) →
        Completes (.reinit i tag) s fun t =>
          t.recov.func = s.mbx.slot[i].arg[0].setWidth 5 ∧ t.recov.reinits = satInc s.recov.reinits ∧
          t.recov.jobs = s.recov.jobs ++ [⟨s.mbx.slot[i].arg[0].setWidth 5, some i⟩] ∧ t.m = s.m ∧ t.fd = s.fd ∧
          (s.mbx.slot[i].arg[0] ≠ 0x1C ∨ s.boot.job = none → t.flash = s.flash) ∧
          (s.mbx.slot[i].arg[0].toNat ∈ [0x14, 0x15, 0x16, 0x17, 0x1A, 0x1B] →
            t.mbx.slot[i].state = .running ∧ SameOutside [.mbx, .recov] s t)) ∧
      (s.mbx.slot[i].arg[0] = 0x1D → s.recov.reload = none → (∀ j ∈ s.recov.jobs, j.func ≠ 0x1D) →
        Completes (.reinit i tag) s fun t =>
          t.recov.func = 0x1D ∧ t.recov.reinits = satInc s.recov.reinits ∧ t.recov.jobs = s.recov.jobs ++ [⟨0x1D, some i⟩] ∧
          t.bw.stopped = true ∧ t.bw.l2fUp = false ∧ t.bw.f2l0Up = false ∧ t.bw.f2l1Up = false ∧
          SameOutside [.free, .recov, .bw, .ch, .ev, .mbx, .img, .port, .conv, .enrol] s t)) ∧
    (∀ f : BitVec 5, s.execRuns = true → f ≠ 0x1D → s.recov.jobs = [⟨f, some i⟩] →
      Completes (.reinitComplete f) s fun t =>
        t.recov.jobs = [] ∧ MbxEnded t i rcOk 0 ∧
        (∀ n : Chan, f = BitVec.ofNat 5 n.val →
          t.ch[n].prot.lat = 0 ∧ t.ch[n].w = {} ∧ t.ch[n].count = 0 ∧ t.ch[n].prot.eEst = s.ch[n].prot.eEst ∧
          t.ch[n].prot.tokens = s.ch[n].prot.tokens ∧ (isAO s.ch[n].kind = false → t.loop[n].lat = 0) ∧
          ∀ m : Chan, m ≠ n → t.loop[m] = s.loop[m]) ∧
        (f = 0x18 → ∀ p : PathIx, t.conv.path[p].resets = 0 ∧ t.conv.path[p].swaps = 0 ∧ t.conv.path[p].ovf = 0) ∧
        (f = 0x19 → ∀ k : Fin 4, t.hart.modem[k].ok = true) ∧ (f = 0x1B → t.held = []) ∧
        SameOutside [.recov, .mbx, .img, .bw, .conv, .port, .ch, .loop, .ev, .rul, .hart, .host, .held, .mem, .chk, .wheel] s t) ∧
    (s.recov.jobs = [⟨0x1D, some i⟩] → s.execRuns = true →
      (fieldAnswers s = false → exec (.reinitComplete 0x1D) s = .next s) ∧
      (fieldAnswers s = true → s.m.mode = .load ∨ runsUcode s = true →
        Completes (.reinitComplete 0x1D) s fun t =>
          t.recov.jobs = [] ∧ MbxEnded t i rcOk 0 ∧ t.bw.retrain = 0 ∧ t.bw.crcErr = 0 ∧ t.bw.lostSample = 0) ∧
      (fieldAnswers s = true → s.m.mode ≠ .load → runsUcode s = false →
        Completes (.reinitComplete 0x1D) s fun t => t.bw = { s.bw with reloadFirst := true } ∧ SameOutside [.bw] s t))

/-- 15 R407, R410–R414, Table 15-3: RESET_DEVICE resets the logic die unless a flash write is in progress and it is not forced; watchdog 0
resets it, watchdog 1 enters SAFE, and the first expiry of watchdog 4 reinitialises the memory port. -/
def Obligations.ResetDeviceAndWatchdogs : Prop :=
  ∀ s : State,
    (∀ (i : SlotIx) (tag : W16), MbxTaken s i → s.mbx.slot[i].arg[0] &&& ~~~1#32 = 0 →
      (s.boot.job = none ∨ s.mbx.slot[i].arg[0].getLsbD 0 = true →
        Completes (.resetDevice i tag) s fun t =>
          t.m.run = .held ∧ t.m.mode = .load ∧ t.recov.rstCause = 2 ∧ t.bw.retrain = 0 ∧ t.recov.pcyc = s.recov.pcyc ∧
          t.mbx.slot[i].state = .free ∧ t.flash = s.flash ∧ t.otp = s.otp ∧ t.tick = s.tick ∧ t.pending = s.pending) ∧
      (s.boot.job ≠ none → s.mbx.slot[i].arg[0].getLsbD 0 = false →
        Completes (.resetDevice i tag) s fun t => MbxEnded t i rcBusy 0 ∧ SameOutside [.mbx] s t)) ∧
    (∀ func : BitVec 5, s.m.run = .running → s.recov.handover = none → s.recov.reload = none →
      (s.wdHeld 0 = false →
        Completes (.watchdog 0 func) s fun t =>
          t.m.run = .held ∧ t.recov.rstCause = 3 ∧ t.recov.rstWd = 0 ∧ t.recov.resets = satInc s.recov.resets ∧ t.flash = s.flash) ∧
      (s.wdHeld 1 = false → s.execRuns = true → s.m.mode = .run →
        Completes (.watchdog 1 func) s fun t =>
          (t.m.mode = .safe ∧ t.m.cause = 0x0E ∨ t.m.mode = .stop) ∧
          t.recov.wdLast = 1 ∧ t.recov.wdStep = 5 ∧ t.recov.expired = s.recov.expired ||| 2) ∧
      (s.wdHeld 4 = false → s.recov.wdTick[(4 : Fin 8)] = none → (∀ j ∈ s.recov.jobs, j.func ≠ 0x1C) →
        Completes (.watchdog 4 func) s fun t =>
          t.recov.func = 0x1C ∧ t.recov.wdLast = 4 ∧ t.recov.wdStep = 2 ∧ (∃ j ∈ t.recov.jobs, j.func = 0x1C ∧ j.slot = none) ∧
          t.mem.queue = [] ∧ t.mem.cur = none ∧ t.mem.lastErr = 4)) ∧
    (∀ (k : Fin 8) (func : BitVec 5), s.m.run = .running → s.recov.handover.isSome = true → s.wdHeld k = false →
      Completes (.watchdog k func) s fun t =>
        t.recov.wdLast = BitVec.ofNat 3 k.val ∧ t.recov.wdDue.length = s.recov.wdDue.length + 1 ∧
        (k ≠ 4 → t.mem = s.mem) ∧ SameOutside [.ev, .mem, .port, .recov] s t)

/-- 15 R424–R429, 03 R67, R33: an executive handover freezes the image at the end of its cycle, exchanges the two images, and ends in probation
under the new executive or reversed under the old, in the cases of R428 alone; with neither executive the device stands in LOAD with HBEAT low;
probation ends after 1 s with the boot descriptor naming the new slot. -/
def Obligations.HandoverStepsAreTaken : Prop :=
  ∀ s : State,
    (s.execRuns = true → s.cycleDone = true → s.recov.stage = .switching → s.recov.stageKind = 1 → s.recov.switchDue = true →
      s.recov.reload = none → Completes .handoverStart s fun t =>
        t.execRuns = false ∧ t.recov.hoCount = satInc s.recov.hoCount ∧ t.recov.switchDue = false ∧
        (∃ h : Handover, t.recov.handover = some h ∧ h.start = s.tick ∧ h.exchanged = false) ∧ SameOutside [.recov] s t) ∧
    (∀ h check, s.recov.handover = some h → h.exchanged = false → Sound s →
      Completes (.exchangeComplete check) s fun t =>
        (∀ k, k < exchangeLen s → t.stageAt k = sread stagingEmpty s.recov.slotImage k ∧
          sread stagingEmpty t.recov.slotImage k = s.stageAt k) ∧
        (∀ k, exchangeLen s ≤ k → t.stageAt k = s.stageAt k ∧ sread stagingEmpty t.recov.slotImage k = sread stagingEmpty s.recov.slotImage k) ∧
        t.recov.handover = some { h with exchanged := true, checked := checkPassed check s.straps.lanemode } ∧
        (checkFailed check s.straps.lanemode = none → t.triad.tests = s.triad.tests + 1 ∧ t.triad.fault = s.triad.fault) ∧
        (∀ p, checkFailed check s.straps.lanemode = some p →
          t.triad.tests = s.triad.tests ∧ t.triad.fault = true ∧ t.triad.pattern = BitVec.ofNat 3 p.val) ∧
        SameOutside [.recov, .triad] s t) ∧
    (∀ h, s.recov.handover = some h → h.exchanged = true → s.ev.deferred = [] → s.bw.buffered = [] →
      (∀ k : PortIx, s.port[k].buffered = []) → s.held = [] → s.recov.wdDue = [] → s.recov.eccDue = [] →
      (h.checked = true →
        Completes .executiveResume s fun t =>
          t.recov.handover = none ∧ t.recov.stage = .probation ∧ t.recov.hoReversed = false ∧ t.recov.probation = s.tick ∧
          t.recov.hoLastUs = satNat 16 (s.since h.start / 10) ∧ t.boot.exec = slotAt (sread 0 s.recov.slotImage) 0 false ∧
          t.m.mode = s.m.mode ∧ SameOutside [.m, .boot, .ch, .ev, .img, .port, .recov, .rul] s t) ∧
      (∀ why check, reverseCase s h why = true →
        (checkPassed check s.straps.lanemode = true →
          Completes (.handoverReverse why check) s fun t =>
            t.recov.handover = none ∧ t.recov.stage = .invalid ∧ t.recov.hoReversed = true ∧ t.recov.hoWhy = why ∧
            t.m.mode = s.m.mode ∧ SameOutside [.m, .ch, .ev, .img, .port, .recov, .rul, .triad] s t) ∧
        (checkPassed check s.straps.lanemode = false →
          Completes (.handoverReverse why check) s fun t =>
            t.recov.handover = none ∧ t.recov.stage = .invalid ∧ t.m.mode = .load ∧ t.m.run = .noExec ∧ t.m.prev = s.m.mode ∧
            t.pins.hbeat = false ∧ t.triad.safeWhy = 7 ∧ t.bw.stopped = true ∧
            (∀ k : PortIx, t.port[k].state = .down ∨ t.port[k].state = .disabled)))) ∧
    (∀ h why check, s.recov.handover = some h → reverseCase s h why = false → exec (.handoverReverse why check) s = .next s) ∧
    (∀ d, s.execRuns = true → s.recov.stage = .probation → s.boot.desc = some d → secTicks 1 ≤ s.since s.recov.probation →
      Completes (.probationEnd true) s (fun t =>
        t.recov.stage = .empty ∧ t.boot.desc = some { d with copy1 := !d.copy1, seq := d.seq + 1, execSlot := !d.execSlot } ∧
        SameOutside [.boot, .ev, .flash, .port, .recov] s t) ∧
      Completes (.probationEnd false) s fun t =>
        t.recov.stage = .empty ∧ t.recov.hoDescFail = true ∧ t.boot.desc = some d ∧ SameOutside [.ev, .port, .recov] s t)

/-- 15 R430–R434: a microcode reload sends the staged microcode's frames once the lanes are up; a body that fails its check is sent once
more, and then the named slot's instead; the field die's acceptance ends the hold with its length, and the descriptor names the new slot. -/
def Obligations.MicrocodeReload : Prop :=
  ∀ s : State,
    (s.execRuns = true → s.recov.reload = none → s.bw.allUp = false → s.recov.stage = .switching → s.recov.stageKind = 2 →
      s.recov.switchDue = true →
      Completes .reloadStart s fun t => t.recov = { s.recov with laneWait := true } ∧ SameOutside [.recov] s t) ∧
    (∀ h, s.execRuns = true → s.recov.reload = none → s.bw.allUp = true → s.bw.stopped = false → s.bw.reloadFirst = false →
      s.triad.blocked = false → s.bw.waiting = [] → s.cycleDone = true → (s.recov.laneWait = false ∨ atBoundary s = true) →
      s.recov.stage = .switching → s.recov.stageKind = 2 → s.recov.switchDue = true → slotAt s.stageAt 0 true = some h →
      Completes .reloadStart s fun t =>
        t.recov.reload = some ⟨s.tick, false, some h, false, false, false⟩ ∧
        t.recov.ucCount = satInc s.recov.ucCount ∧ t.recov.switchDue = false ∧ t.recov.ucResent = false ∧ t.recov.ucFellBack = false ∧
        t.bw.unacked.map (·.body) ++ t.bw.waiting = s.bw.unacked.map (·.body) ++
          (.loadOpen :: (List.range ((h.length + 47) / 48)).map .loadBody ++ [.loadClose h.version h.bodyCrc]) ∧
        SameOutside [.bw, .recov] s t) ∧
    (∀ x h, s.recov.reload = some x → x.hdr = some h → s.execRuns = true → x.failed = false →
      (x.resent = false →
        Completes .reloadBodyFail s fun t =>
          t.recov.reload = some { x with resent := true } ∧ t.recov.ucResent = true ∧ t.fd.ucode = none ∧ SameOutside [.bw, .fd, .recov] s t) ∧
      (∀ u, x.resent = true → x.fellBack = false → x.reinit = false → s.recov.stage = .switching → namedUcode s = some u →
        Completes .reloadBodyFail s fun t =>
          t.recov.reload = some { x with fellBack := true, hdr := some u } ∧ t.recov.ucFellBack = true ∧ t.recov.stage = .invalid ∧
          t.fd.ucode = none ∧ SameOutside [.bw, .ev, .fd, .port, .recov] s t) ∧
      (x.resent = true → x.fellBack = true → s.fd.slack = true → s.fd.expired = false →
        Completes .reloadBodyFail s fun t =>
          t.recov.reload = some { x with failed := true } ∧ t.fd.ucode = none ∧ SameOutside [.fd, .recov] s t) ∧
      (∀ d, x.reinit = false → x.fellBack = false → loadSent s = true → s.fd.ucode = some (h.version, h.bodyCrc) → s.fd.slack = false →
        s.triad.blocked = false → s.fd.safeHeld = false → s.boot.desc = some d → s.recov.wdDue = [] →
        Completes (.reloadComplete true) s fun t =>
          t.recov.reload = none ∧ t.recov.ucLastUs = satNat 16 (s.since x.start / 10) ∧ t.boot.ucode = some h ∧ t.recov.stage = .empty ∧
          t.boot.desc = some { d with copy1 := !d.copy1, seq := d.seq + 1, ucodeSlot := !d.ucodeSlot }))

/-- 16 R438–R442, R446, Tables 16-2, 16-3: a native read captures its bytes at its order point and answers busy until its sync, which
clears FRESH of the result words clocked out; a frame that breaks a rule of Table 16-2 is counted under its code; STATUS and IDENT answer
at once. 16 R443–R449, Tables 16-2, 16-4, 15 R425: a complete native write is counted and carried out, held during a handover, and
unavailable while no executive runs; one that breaks a rule of Table 16-2 is discarded and counted; a FENCE frame is placed. 16 R450–R452,
Table 16-5: in legacy mode SETPAGE gives the page; a READ answers its status byte and 64 bytes, which are the map's when they are in the
buffer in time and 0xFF otherwise; a WRITE's words are carried out at its page. -/
def Obligations.HostFrames : Prop :=
  (∀ s : State, portReset s = false → s.extestActs = false →
        (∀ f : HostFrame, s.straps.hcompat = false → s.execRuns = true → SpanOk f →
          (48 ≤ f.cycles →
            Completes (.read f) s (ReadCaptured 0x0B f s) ∧ Completes (.readDualData f) s (ReadCaptured 0x3B f s) ∧
            Completes (.readQuadData f) s (ReadCaptured 0x6B f s)) ∧
          (28 ≤ f.cycles → Completes (.readDualAddressData f) s (ReadCaptured 0xBB f s)) ∧
          (18 ≤ f.cycles → Completes (.readQuadAddressData f) s (ReadCaptured 0xEB f s))) ∧
        (∀ (f : HostFrame) (x : Instr × Byte × Nat),
          x ∈ [(Instr.read f, 0x0B#8, 1), (.readDualData f, 0x3B#8, 1), (.readDualAddressData f, 0xBB#8, 2), (.readQuadData f, 0x6B#8, 1),
            (.readQuadAddressData f, 0xEB#8, 4)] → 8 + 40 / x.2.2 ≤ f.cycles →
          (s.straps.hcompat = false → f.len = 0 ∨ 4096 < f.len →
            Completes x.1 s fun t => HostCounted s t 1 x.2.1 f.addr ∧ t.host.cLength = satInc s.host.cLength ∧ t.host.reply = .fill) ∧
          (s.straps.hcompat = false → 1 ≤ f.len → f.len ≤ 4096 → 0x1000000 < f.addr.toNat + f.len →
            Completes x.1 s fun t => HostCounted s t 7 x.2.1 f.addr ∧ t.host.cAlign = satInc s.host.cAlign) ∧
          (s.straps.hcompat = true →
            Completes x.1 s fun t => HostCounted s t 8 x.2.1 0 ∧ t.host.cUnknown = satInc s.host.cUnknown)) ∧
        (∀ r, s.host.reading = some r →
          (∀ clocked, r.bytes ≠ [] → r.laneError = false →
            Completes (.readSync clocked false) s fun t =>
              t.host.reading = none ∧ t.host.reply = .data r.bytes ∧
              (∀ p : PathIx, t.conv.path[p] =
                if r.addr.toNat ≤ 0x420004 + 16 * p.val ∧ 0x420008 + 16 * p.val ≤ r.addr.toNat + min clocked r.bytes.length ∧
                    s.conv.path[p].res.seq =
                      BitVec.ofNat 16 (natLE ((r.bytes.drop (0x420006 + 16 * p.val - r.addr.toNat)).take 2)) then
                  { s.conv.path[p] with res := { s.conv.path[p].res with fresh := false } }
                else s.conv.path[p]) ∧ SameOutside [.host, .conv] s t) ∧
          (∀ clocked, r.bytes ≠ [] → r.bytes.length ≤ clocked →
            Completes (.readSync clocked true) s fun t =>
              HostCounted s t 5 r.cmd r.addr ∧ t.host.cLane = satInc s.host.cLane ∧ t.host.reply = .data r.bytes) ∧
          (r.laneError = false →
            Completes .readAbort s fun t =>
              t.host.reading = none ∧ t.host.reply = .abort ∧ t.host.aborts = satInc s.host.aborts ∧ t.host.discards = s.host.discards ∧
              SameOutside [.host] s t)) ∧
        (∀ cycles, 8 ≤ cycles →
          Completes (.status cycles false) s (fun t =>
            t.host.reply = .fixed (bytesLE (statusWord (endRead s))) ∧ t.host.done = s.host.done ∧ SameOutside [.host] s t) ∧
          Completes (.ident cycles false) s (fun t =>
            t.host.reply = .fixed ([0, 1, 2, 3].flatMap fun i => bytesLE (identWord (endRead s) i)) ∧ t.host.done = s.host.done ∧
            SameOutside [.host] s t) ∧
          (cycles < 48 → Completes (.status cycles true) s fun t =>
            t.host.reply = .fixed (bytesLE (statusWord (endRead s))) ∧ t.host.discards = s.host.discards ∧ SameOutside [.host] s t) ∧
          (48 ≤ cycles → Completes (.status cycles true) s fun t => HostCounted s t 5 0x05 0 ∧ t.host.cLane = satInc s.host.cLane) ∧
          (144 ≤ cycles → Completes (.ident cycles true) s fun t => HostCounted s t 5 0x9F 0 ∧ t.host.cLane = satInc s.host.cLane) ∧
          (∀ code, knownCode s.straps.hcompat code = false →
            Completes (.unknownCommand code cycles) s fun t => HostCounted s t 8 code 0 ∧ t.host.cUnknown = satInc s.host.cUnknown))) ∧
  (∀ s : State, portReset s = false → s.extestActs = false → s.straps.hcompat = false →
        (∀ f : HostFrame, f.laneError = false → s.execRuns = true → s.m.mode ≠ .stop →
          (WriteWhole 1 f → exec (.write f) s = .next (writeCarried s f)) ∧
          (WriteWhole 2 f → exec (.writeDualData f) s = .next (writeCarried s f)) ∧
          (WriteWhole 4 f → exec (.writeQuadData f) s = .next (writeCarried s f))) ∧
        (∀ (f : HostFrame) (x : Instr × Byte × Nat),
          x ∈ [(Instr.write f, 0x02#8, 1), (.writeDualData f, 0xA2#8, 2), (.writeQuadData f, 0x32#8, 4)] → 48 ≤ f.cycles →
          (WriteWhole x.2.2 f →
            (f.laneError = false → s.m.run = .running → s.execRuns = false → s.holdRoom f.len = true → s.m.mode ≠ .stop →
              Completes x.1 s fun t =>
                t.held = s.held ++ [.write x.2.1 f.addr (wordsFrom f.addr.toNat (padded f.len f.data))] ∧ t.host.done = s.host.done + 1 ∧
                SameOutside [.held, .host] s t) ∧
            (f.laneError = false → s.m.run ≠ .running →
              Completes x.1 s fun t => HostCounted s t 10 x.2.1 f.addr ∧ t.host.cDropped = satInc s.host.cDropped) ∧
            (f.laneError = true → Completes x.1 s fun t => HostCounted s t 5 x.2.1 f.addr ∧ t.host.cLane = satInc s.host.cLane)) ∧
          (f.len = 0 ∨ 4096 < f.len → Completes x.1 s fun t => HostCounted s t 1 x.2.1 f.addr) ∧
          (1 ≤ f.len → f.len ≤ 4096 → f.addr.toNat % 4 ≠ 0 ∨ f.len % 4 ≠ 0 → Completes x.1 s fun t => HostCounted s t 6 x.2.1 f.addr)) ∧
        (∀ tag : W16, s.execRuns = true →
          (served s.m.mode = true → s.img.fencesLocal.length < 8 →
            Completes (.fenceFrame tag 24 false) s fun t =>
              t.host.done = s.host.done + 1 ∧
              (∃ f : PendingFence, t.img.fencesLocal = s.img.fencesLocal ++ [f] ∧ f.tag = tag ∧ f.source = .frame) ∧
              SameOutside [.host, .img, .port] s t) ∧
          (s.m.mode = .load →
            Completes (.fenceFrame tag 24 false) s fun t =>
              t.img.fenceRefused = satInc s.img.fenceRefused ∧ t.img.fencesLocal = s.img.fencesLocal ∧ SameOutside [.host, .img] s t) ∧
          (s.m.mode = .stop →
            Completes (.fenceFrame tag 24 false) s fun t => HostCounted s t 10 0xB9 0 ∧ t.img.fencesLocal = s.img.fencesLocal))) ∧
  (∀ s : State, portReset s = false → s.extestActs = false → s.straps.hcompat = true →
        (∀ page, Completes (.setpage page 16 false) s fun t =>
          t.host.page = page ∧ t.host.done = s.host.done + 1 ∧ SameOutside [.host] s t) ∧
        (∀ f : HostFrame, f.cycles = 600 → f.laneError = false → s.execRuns = true →
          s.host.page.toNat * 0x10000 + f.addr.toNat % 0x10000 + 64 ≤ 0x1000000 →
          Completes (.legacyRead f) s (fun t =>
            t.host.reply = .legacy (legacyStatus (endRead s)) (hostBytes (endRead s) (s.host.page.toNat * 0x10000 + f.addr.toNat % 0x10000) 64) ∧
            t.host.latePrev = false ∧ t.host.late = s.host.late ∧ SameOutside [.host, .free, .conv] s t) ∧
          Completes (.legacyReadLate f) s fun t =>
            t.host.reply = .legacy (legacyStatus (endRead s)) (List.replicate 64 0xFF) ∧ t.host.latePrev = true ∧
            t.host.late = satInc s.host.late ∧ SameOutside [.host, .free] s t) ∧
        (∀ (f : HostFrame) (n : Nat), 0 < n → n ≤ 64 → n % 4 = 0 → f.cycles = 24 + 8 * n → f.addr.toNat % 4 = 0 → f.laneError = false →
          s.host.page.toNat * 0x10000 + f.addr.toNat % 0x10000 + n ≤ 0x1000000 → s.execRuns = true → s.m.mode ≠ .stop →
          exec (.legacyWrite f) s = .next (hostWords (countDone (endRead s))
            (wordsFrom (s.host.page.toNat * 0x10000 + f.addr.toNat % 0x10000) (padded n f.data)))))

/-- 08 R224, R225, R228, Tables 8-5, 8-15: a coefficient goes into a bank that is idle, and is discarded with its bit of FLT.ERR
otherwise; a swap asked for begins its fade, and a swap length out of range is refused; SYNC resets the path. 00 R5, R9, 11 R294, R304,
R307, R308, 18 R480, Tables 10-12, 18-14: a write of one word of the map: a local command endpoint acts, one of another class is refused
and recorded, one that another device serves goes to its port as a request; PPSSET is kept for the next second; CNTCLR clears one count or all; a writable field takes its bits and a read-only word
none. -/
def Obligations.WordsWrittenToTheMap : Prop :=
  (∀ (s : State) (p : PathIx), s.execRuns = true →
        (∀ bank tap v,
          (s.m.mode = .load ∨ s.m.mode = .stop →
            Completes (.coefficientWrite p bank tap v) s fun t =>
              t.conv.errMode = true ∧ t.conv.errPath = BitVec.ofNat 5 p.val ∧ t.conv.errBank = bank ∧ t.conv.coeff = s.conv.coeff ∧
              SameOutside [.conv] s t) ∧
          (s.m.mode ≠ .load → s.m.mode ≠ .stop → bank = s.conv.path[p].active ∨ s.conv.path[p].fade.isSome = true →
            Completes (.coefficientWrite p bank tap v) s fun t =>
              t.conv.errBusy = true ∧ t.conv.errPath = BitVec.ofNat 5 p.val ∧ t.conv.errBank = bank ∧ t.conv.coeff = s.conv.coeff ∧
              SameOutside [.conv] s t) ∧
          (s.m.mode ≠ .load → s.m.mode ≠ .stop → bank ≠ s.conv.path[p].active → s.conv.path[p].fade = none → Sound s →
            Completes (.coefficientWrite p bank tap v) s fun t =>
              t.coeff p bank tap.toNat = v.setWidth 24 ∧
              (∀ (q : PathIx) (b : Bool) (u : BitVec 6), (q, b, u) ≠ (p, bank, tap) → t.coeff q b u.toNat = s.coeff q b u.toNat) ∧
              t.conv.errBusy = s.conv.errBusy ∧ SameOutside [.conv] s t)) ∧
        (∀ v : W32, s.m.mode ≠ .stop → v.getLsbD 2 = false →
          (∀ n : Nat, n = (v.extractLsb' 16 16).toNat → (n = 0 ∨ 16 ≤ n ∧ n ≤ 4096) → s.conv.path[p].fade = none → s.conv.path[p].load = none →
            s.conv.path[p].remain = 0 → s.conv.path[p].waitAlign = false → v.getLsbD 1 ≠ s.conv.path[p].active →
            Completes (.swapRequest p v) s fun t =>
              t.conv.path[p].fade = some { target := v.getLsbD 1, len := if n = 0 then (s.desc p).fade.toNat else n, i := 0 } ∧
              t.conv.path[p].active = s.conv.path[p].active ∧ (∀ q : PathIx, q ≠ p → t.conv.path[q] = s.conv.path[q]) ∧
              SameOutside [.conv] s t) ∧
          (∀ n : Nat, n = (v.extractLsb' 16 16).toNat → (n = 0 ∨ 16 ≤ n ∧ n ≤ 4096) → s.conv.path[p].fade.isSome = true →
            exec (.swapRequest p v) s = .next (s.modPath p fun x =>
              { x with pend := some (v.getLsbD 1, if n = 0 then (s.desc p).fade.toNat else n) })) ∧
          ((v.extractLsb' 16 16).toNat = 0 → s.conv.path[p].fade = none → s.conv.path[p].load = none → s.conv.path[p].remain = 0 →
            s.conv.path[p].waitAlign = false → v.getLsbD 1 = s.conv.path[p].active → exec (.swapRequest p v) s = .next s) ∧
          ((v.extractLsb' 16 16).toNat ≠ 0 → (v.extractLsb' 16 16).toNat < 16 ∨ 4096 < (v.extractLsb' 16 16).toNat →
            Completes (.swapRequest p v) s fun t =>
              t.conv.errSwap = true ∧ t.conv.errPath = BitVec.ofNat 5 p.val ∧ t.conv.path = s.conv.path ∧ SameOutside [.conv] s t)) ∧
        (∀ v : W32, s.m.mode ≠ .stop → v.getLsbD 0 = false →
          Completes (.syncRequest p v) s fun t =>
            (s.scanned p = true → t.conv.path[p].outs = [] ∧ t.conv.path[p].fade = none ∧ t.conv.path[p].res.settling = true ∧
              t.conv.path[p].since = s.tick + 1 ∧ t.conv.path[p].remain = settleOf (s.desc p) ∧ t.conv.path[p].resets = satInc s.conv.path[p].resets) ∧
            (s.scanned p = false → t = s) ∧
            (∀ q : PathIx, q ≠ p → t.conv.path[q] = s.conv.path[q]) ∧ SameOutside [.ch, .conv, .ev, .img, .port] s t)) ∧
  (∀ s : State, s.execRuns = true → s.m.mode ≠ .stop →
        (∀ a v, s.m.mode ≠ .load → s.isLocal a = true → 0x800 ≤ offsetOf s.localBase a → epQual (s.ep a) ≠ qUnassigned → Sound s →
          (epClass (s.ep a) = 5 →
            Completes (.imageWrite [(a, v)]) s fun t =>
              epValue (t.ep a) = v ∧ epSeq (t.ep a) = epSeq (s.ep a) + 1 ∧ t.img.refused = s.img.refused ∧
              (∀ b : BitVec 20, b ≠ a → t.ep b = s.ep b) ∧ SameOutside [.img, .rul] s t) ∧
          (epClass (s.ep a) ≠ 5 →
            Completes (.imageWrite [(a, v)]) s fun t =>
              t.img.words = s.img.words ∧ t.img.refused = satInc s.img.refused ∧ t.img.lastAddr = a ∧ t.img.lastReason = 3 ∧
              t.img.lastSrc = 0 ∧ SameOutside [.img] s t)) ∧
        (∀ a v k, s.m.mode ≠ .load → (s.route a false).port = some k → s.img.pendingWrites < 64 →
          Completes (.imageWrite [(a, v)]) s fun t =>
            t.img.out = s.img.out ++ [⟨k, s.port[k].nextTag, .origin 0 [a], s.tick, s.img.nextId⟩] ∧
            t.img.issued = s.img.issued + 1 ∧ t.img.refused = s.img.refused ∧ t.img.words = s.img.words ∧
            SameOutside [.img, .port] s t) ∧
        (∀ a v why, s.m.mode ≠ .load → s.route a false = .refused why →
          Completes (.imageWrite [(a, v)]) s fun t =>
            t.img.words = s.img.words ∧ t.img.refused = satInc s.img.refused ∧ t.img.lastAddr = a ∧ t.img.lastReason = why ∧
            SameOutside [.img] s t) ∧
        (∀ a v, s.m.mode = .load →
          Completes (.imageWrite [(a, v)]) s fun t =>
            t.img.words = s.img.words ∧ t.img.refused = satInc s.img.refused ∧ t.img.lastAddr = a ∧ t.img.lastReason = 1 ∧
            SameOutside [.img] s t) ∧
        (∀ v, exec (.ppssetWrite v) s = .next { s with time := { s.time with set := some v } }) ∧
        (∀ v : W32, Completes (.countClear v) s fun t =>
          (∀ i : SrcIx, t.ev.src[i].count = (if v.getLsbD 8 = true ∨ v.setWidth 7 = BitVec.ofNat 7 i.val then 0 else s.ev.src[i].count)) ∧
          t.ev.ring = s.ev.ring ∧ t.ev.count = s.ev.count ∧ SameOutside [.ev] s t) ∧
        (∀ v : W32, exec (.registerWrite 0x400048 v) s = .next { s with clk := { s.clk with clkoutSel := v.setWidth 2 } }) ∧
        (∀ v : W32, exec (.registerWrite 0x431004 v) s =
          .next { s with ev := { s.ev with irqEn := v.getLsbD 0, irqOvf := v.getLsbD 1 } }) ∧
        (∀ (n : Chan) (v : W32), Completes (.registerWrite (BitVec.ofNat 24 (0x410124 + 0x1000 * n.val)) v) s fun t =>
          t.ch[n].prot.lat = s.ch[n].prot.lat &&& ~~~(v.setWidth 10) ∧ t.ch[n].prot.live = s.ch[n].prot.live ∧
          (∀ m : Chan, m ≠ n → t.ch[m] = s.ch[m]) ∧ SameOutside [.ch] s t) ∧
        (∀ (a : BitVec 24) (v : W32), 0x4C0000 ≤ a.toNat → a.toNat < 0x500000 → exec (.registerWrite a v) s = .next s) ∧
        (∀ (a : BitVec 24) (v : W32), 0x800000 ≤ a.toNat →
          Completes (.registerWrite a v) s fun t =>
            t.flash = s.flash ∧ t.mem.lastErr = 1 ∧ t.mem.errors = satInc s.mem.errors ∧ SameOutside [.ev, .mem, .port] s t))

/-- 17 R456–R466, R471: a well-formed entry enters the queue of sixteen with its data; the next entry's frame is sent, held or polled as
its bits say, and changes flash only with write enabled; a status frame with bit 0 clear ends the poll, and the entry is then complete; a
chain without a next entry is broken; window reads and select modes take their turn at a frame boundary. -/
def Obligations.MemoryPortEntriesAndFrames : Prop :=
  ∀ s : State,
    (∀ (e : MemEntry) (data : List Byte), s.execRuns = true →
      (entryBad s.mem e = true →
        Completes (.queueEntry e.w0 e.w1 e.w2 e.w3 data) s fun t =>
          t.mem.lastErr = 1 ∧ t.mem.errors = satInc s.mem.errors ∧ t.mem.queue = s.mem.queue ∧ SameOutside [.ev, .mem, .port] s t) ∧
      (entryBad s.mem e = false → 16 ≤ s.mem.queue.length →
        Completes (.queueEntry e.w0 e.w1 e.w2 e.w3 data) s fun t =>
          t.mem.lastErr = 6 ∧ t.mem.errors = satInc s.mem.errors ∧ t.mem.queue = s.mem.queue ∧ SameOutside [.ev, .mem, .port] s t) ∧
      (entryBad s.mem e = false → s.mem.queue.length < 16 →
        Completes (.queueEntry e.w0 e.w1 e.w2 e.w3 data) s fun t =>
          t.mem.queue = s.mem.queue ++ [e] ∧ (e.write = false → t.mem.buf = s.mem.buf) ∧ t.mem.errors = s.mem.errors ∧
          SameOutside [.mem] s t)) ∧
    (∀ e rest, (s.mem.again = some e ∧ rest = s.mem.queue ∨ s.mem.again = none ∧ s.mem.queue = e :: rest) → portReset s = false →
      s.mem.cur = none → s.mem.polling = false → s.mem.heldSel = none → s.mem.chainPoll = 0 →
      Completes .memoryFrame s fun t =>
        t.mem.queue = rest ∧ t.mem.again = none ∧ t.mem.cur = some e ∧ (t.mem.polling = true ↔ e.cont = false ∧ e.poll ≠ 0) ∧
        t.mem.heldSel = (if e.cont then some (e.sel, e.msel) else none) ∧
        (s.mem.wel[(0 : Fin 2)] = false → t.flash = s.flash) ∧ (s.mem.wel[(1 : Fin 2)] = false → t.mirror = s.mirror) ∧
        (e.cont = true → t.flash = s.flash ∧ t.mirror = s.mirror) ∧
        (e.cont = false → s.mem.decoded = false → e.sel = false → e.cmd = 0x06 → e.cmdBits ≠ 0 → t.mem.wel[(0 : Fin 2)] = true) ∧
        SameOutside [.flash, .mirror, .free, .mem] s t) ∧
    (∀ st, s.mem.polling = true →
      (st.getLsbD 0 = false → exec (.pollFrame st) s = .next { s with mem := { s.mem with polling := false } }) ∧
      (st.getLsbD 0 = true → exec (.pollFrame st) s = .next s)) ∧
    (∀ e ok, s.mem.cur = some e →
      (s.mem.polling = false →
        exec (.entryComplete ok) s = .next { s with mem := { s.mem with cur := none, repeated := false, entries := s.mem.entries + 1 } }) ∧
      (s.mem.polling = true → exec (.entryComplete ok) s = .next s)) ∧
    (∀ x, s.mem.heldSel = some x → s.mem.cur = none → s.mem.queue = [] →
      Completes .contBreak s fun t =>
        t.mem.heldSel = none ∧ t.mem.contBreak = satInc s.mem.contBreak ∧ (t.mem.polling = true ↔ s.mem.chainPoll ≠ 0) ∧
        SameOutside [.flash, .mirror, .mem] s t) ∧
    (∀ (addr : BitVec 24) (len : W16), portReset s = false → s.mem.cur = none → s.mem.heldSel = none → s.mem.polling = false →
      (s.mem.decoded = false → 0 < len.toNat →
        Completes (.xipRead addr len) s fun t =>
          t.mem.xip = s.mem.xip + 1 ∧ t.mem.queue = s.mem.queue ∧ t.mem.buf = s.mem.buf ∧
          t.mem.frame = some (false, 0, s.mem.xipCmd.setWidth 16, addr.setWidth 32,
            (List.range len.toNat).map fun i => s.flashAt (addr.toNat + i)) ∧
          SameOutside [.free, .mem] s t) ∧
      (s.mem.decoded = true → s.mem.code = 1 → 0x400000 ≤ addr.toNat → addr.toNat + len.toNat ≤ 0x500000 → 0 < len.toNat →
        Completes (.xipRead addr len) s fun t =>
          t.mem.xip = s.mem.xip + 1 ∧
          t.mem.frame = some (false, 1, s.mem.xipCmd.setWidth 16, addr.setWidth 32,
            (List.range len.toNat).map fun i => s.mirrorAt (addr.toNat + i)) ∧
          SameOutside [.free, .mem] s t)) ∧
    (s.mem.decoded ≠ decodedNow s → s.mem.cur = none → s.mem.polling = false → s.mem.heldSel = none →
      exec .selectModeChange s = .next { s with mem := { s.mem with decoded := decodedNow s } })

/-- 18 R489, 01 R29, Table 1-9: collected log records are programmed in flash and leave SRAM; a corrected word only raises its event; an
uncorrectable one acts by its region: an open staging area is lost, a ring's record reads VALID 0, an endpoint's copy reads BAD_FAULT once
the executive runs, and the rule program region enters SAFE. The record's place in its region is the model's (log entry 126). -/
def Obligations.LogAndScrubber : Prop :=
  ∀ s : State,
    (s.execRuns = true →
      (s.ev.sramLog = [] → exec .logFlush s = .next s) ∧
      (s.ev.sramLog ≠ [] → s.ev.logLostRun = 0 →
        Completes .logFlush s fun t =>
          t.ev.sramLog = [] ∧ t.flash = (logProgram s.ev.sramLog s.flash s.ev.logPlace).1 ∧ t.ev.logPlace % 8 = 0 ∧
          t.ev.ring = s.ev.ring ∧ SameOutside [.ev, .flash] s t) ∧
      (s.ev.sramLog ≠ [] → s.ev.logLostRun ≠ 0 →
        Completes .logFlush s fun t =>
          (∃ r : LogRecord, t.ev.sramLog = [r] ∧ r.ltype = 0x03 ∧ r.body = [BitVec.ofNat 32 s.ev.logLostRun, 0, 0, 0]) ∧
          t.ev.logLostRun = 0 ∧ SameOutside [.ev, .flash] s t)) ∧
    (portReset s = false →
      (∀ o, Completes (.scrub o false) s fun t =>
        (s.execRuns = true → s.ev.src[srcEccCorr].enable = true → t.ev.src[srcEccCorr].count = satInc s.ev.src[srcEccCorr].count) ∧
        SameOutside [.ev, .port] s t) ∧
      (∀ o : BitVec 23, 0x600000 ≤ o.toNat → o.toNat < 0x700000 → s.recov.stage = .opened →
        Completes (.scrub o true) s fun t =>
          t.recov.stage = .invalid ∧ t.recov.stageEcc = true ∧ t.recov.staging = s.recov.staging ∧ SameOutside [.ev, .port, .recov] s t) ∧
      (∀ o : BitVec 23, 0x700000 ≤ o.toNat → o.toNat < 0x780000 → Sound s →
        Completes (.scrub o true) s fun t =>
          (sread {} t.conv.ring ((o.toNat - 0x700000) / 16)).valid = false ∧
          (∀ k, k ≠ (o.toNat - 0x700000) / 16 → sread {} t.conv.ring k = sread {} s.conv.ring k) ∧ SameOutside [.conv, .ev, .port] s t) ∧
      (∀ o : BitVec 23, s.m.run = .running → s.execRuns = false → o.toNat < 0x400000 →
        Completes (.scrub o true) s fun t =>
          t.recov.eccDue = s.recov.eccDue ++ [o.toNat / 8 * 8] ∧ SameOutside [.ev, .port, .recov] s t) ∧
      (∀ (o : BitVec 23) (a : BitVec 20), s.execRuns = true → o.toNat < 0x400000 → (a.toNat = o.toNat / 8 * 2 ∨ a.toNat = o.toNat / 8 * 2 + 1) →
        s.isLocal a = false → (findEntry s.group a).isSome = true → Sound s →
        Completes (.scrub o true) s fun t =>
          epQual (t.ep a) = qFault ∧ epValue (t.ep a) = 0 ∧ (epClass (t.ep a)).toNat < 7 ∧
          (∀ b : BitVec 20, b.toNat / 2 ≠ a.toNat / 2 → t.ep b = s.ep b) ∧ SameOutside [.ev, .port, .img, .free] s t) ∧
      (∀ o : BitVec 23, 0x400000 ≤ o.toNat → o.toNat < 0x600000 → s.execRuns = true → s.m.mode ∈ [.run, .reduced, .trim] →
        Completes (.scrub o true) s fun t => t.m.mode = .safe ∧ t.m.cause = 0x0C ∨ t.m.mode = .stop ∧ t.m.cause = 0x0F))
end

