-- ==== Sys2Proof/Laws/Mem.lean ====
section
/-!
SUPPORT. The sparse memories: every operation keeps the canonical form, a read after a write gives the value written, and a write leaves every
other address as it was.
-/
namespace Sys2Proof.Machine

variable {α : Type}

theorem srise_iff (m : List (Nat × α)) : srise m = true ↔ m.Pairwise (fun a b => a.1 < b.1) := by
  induction m with
  | nil => simp [srise]
  | cons c m ih =>
    cases m with
    | nil => simp [srise]
    | cons c' m =>
      simp only [srise, Bool.and_eq_true, decide_eq_true_eq, ih, List.pairwise_cons]
      refine ⟨fun h => ⟨fun x hx => ?_, h.2⟩, fun h => ⟨h.1 c' (by simp), h.2⟩⟩
      rcases List.mem_cons.mp hx with rfl | hx
      · exact h.1
      · exact Nat.lt_trans h.1 (h.2.1 x hx)

theorem swf_iff [DecidableEq α] (d : α) (m : List (Nat × α)) :
    swf d m = true ↔ m.Pairwise (fun a b => a.1 < b.1) ∧ ∀ c ∈ m, c.2 ≠ d := by
  induction m with
  | nil => simp [swf]
  | cons c m ih =>
    cases m with
    | nil => simp [swf]
    | cons c' m =>
      simp only [swf, Bool.and_eq_true, decide_eq_true_eq, ih, List.pairwise_cons, List.forall_mem_cons]
      refine ⟨fun h => ⟨⟨⟨h.1.2, fun x hx => Nat.lt_trans h.1.2 (h.2.1.1 x hx)⟩, h.2.1⟩, ?_, h.2.2⟩,
        fun h => ⟨⟨?_, h.1.1.1⟩, h.1.2, h.2.2⟩⟩
      · simpa using h.1.1
      · simpa using h.2.1

theorem serase_sublist (m : List (Nat × α)) (a : Nat) : (serase m a).Sublist m := by
  induction m with
  | nil => exact List.Sublist.refl _
  | cons c m ih =>
    unfold serase
    split
    · exact List.sublist_cons_self ..
    · exact ih.cons_cons _

theorem mem_sinsert {m : List (Nat × α)} {a : Nat} {v : α} {c : Nat × α} (h : c ∈ sinsert m a v) : c = (a, v) ∨ c ∈ m := by
  induction m with
  | nil => simpa [sinsert] using h
  | cons x m ih =>
    unfold sinsert at h
    split at h
    · simpa using h
    · split at h
      · rcases List.mem_cons.mp h with h | h
        · exact .inl h
        · exact .inr (List.mem_cons_of_mem _ h)
      · rcases List.mem_cons.mp h with h | h
        · exact .inr (by simp [h])
        · exact (ih h).imp_right (List.mem_cons_of_mem _)

theorem sinsert_rising {m : List (Nat × α)} (a : Nat) (v : α) (h : m.Pairwise (fun x y => x.1 < y.1)) :
    (sinsert m a v).Pairwise (fun x y => x.1 < y.1) := by
  induction m with
  | nil => simp [sinsert]
  | cons x m ih =>
    have hx := List.pairwise_cons.mp h
    unfold sinsert
    split
    case isTrue hlt =>
      refine List.pairwise_cons.mpr ⟨fun c hc => ?_, h⟩
      rcases List.mem_cons.mp hc with rfl | hc
      · exact hlt
      · exact Nat.lt_trans hlt (hx.1 c hc)
    case isFalse hlt =>
      split
      case isTrue heq => exact List.pairwise_cons.mpr ⟨fun c hc => heq ▸ hx.1 c hc, hx.2⟩
      case isFalse hne =>
        refine List.pairwise_cons.mpr ⟨fun c hc => ?_, ih hx.2⟩
        rcases mem_sinsert hc with rfl | hc
        · exact Nat.lt_of_le_of_ne (Nat.le_of_not_lt hlt) (Ne.symm hne)
        · exact hx.1 c hc

theorem srise_sinsert {m : List (Nat × α)} (h : srise m = true) (a : Nat) (v : α) : srise (sinsert m a v) = true :=
  (srise_iff _).mpr (sinsert_rising a v ((srise_iff _).mp h))

theorem srise_serase {m : List (Nat × α)} (h : srise m = true) (a : Nat) : srise (serase m a) = true :=
  (srise_iff _).mpr (((srise_iff _).mp h).sublist (serase_sublist m a))

variable [DecidableEq α]

theorem swf_swrite {d : α} {m : List (Nat × α)} (h : swf d m = true) (a : Nat) (v : α) : swf d (swrite d m a v) = true := by
  obtain ⟨hp, hd⟩ := (swf_iff d m).mp h
  refine (swf_iff _ _).mpr ?_
  unfold swrite
  split
  · exact ⟨hp.sublist (serase_sublist m a), fun c hc => hd c ((serase_sublist m a).subset hc)⟩
  case isFalse hv =>
    refine ⟨sinsert_rising a v hp, fun c hc => ?_⟩
    rcases mem_sinsert hc with rfl | hc
    · exact hv
    · exact hd c hc

theorem swf_swriteList {d : α} {m : List (Nat × α)} (h : swf d m = true) (a : Nat) (vs : List α) :
    swf d (swriteList d m a vs) = true := by
  induction vs generalizing m a with
  | nil => exact h
  | cons v vs ih => exact ih (swf_swrite h a v) (a + 1)

theorem swf_filter {d : α} {m : List (Nat × α)} (h : swf d m = true) (p : Nat × α → Bool) : swf d (m.filter p) = true := by
  obtain ⟨hp, hd⟩ := (swf_iff d m).mp h
  exact (swf_iff _ _).mpr ⟨hp.sublist List.filter_sublist, fun c hc => hd c (List.mem_of_mem_filter hc)⟩

/-- Cells kept, dropped or given another value at their own address. -/
theorem swf_filterMap {d : α} {m : List (Nat × α)} (h : swf d m = true) (f : Nat × α → Option (Nat × α))
    (hf : ∀ c e, f c = some e → e.1 = c.1 ∧ (c.2 ≠ d → e.2 ≠ d)) : swf d (m.filterMap f) = true := by
  obtain ⟨hp, hd⟩ := (swf_iff d m).mp h
  refine (swf_iff _ _).mpr ⟨List.pairwise_filterMap.mpr (hp.imp fun hab x hx y hy => ?_), fun e he => ?_⟩
  · rw [(hf _ _ hx).1, (hf _ _ hy).1]
    exact hab
  · obtain ⟨c, hc, hce⟩ := List.mem_filterMap.mp he
    exact (hf _ _ hce).2 (hd c hc)

/-- The cells of a window of 4096 addresses moved to another base. -/
theorem swf_shift {d : α} {m : List (Nat × α)} (h : swf d m = true) (old new : Nat) :
    swf d ((m.filter fun c => old ≤ c.1 && c.1 < old + 4096).map fun c => (c.1 - old + new, c.2)) = true := by
  obtain ⟨hp, hd⟩ := (swf_iff _ _).mp h
  refine (swf_iff _ _).mpr ⟨?_, fun e he => ?_⟩
  · rw [List.pairwise_map]
    refine List.Pairwise.imp_of_mem ?_ (hp.sublist List.filter_sublist)
    intro a b ha hb hab
    have h1 := (List.mem_filter.mp ha).2
    have h2 := (List.mem_filter.mp hb).2
    simp only [Bool.and_eq_true, decide_eq_true_eq] at h1 h2
    show a.1 - old + new < b.1 - old + new
    omega
  · obtain ⟨c, hc, rfl⟩ := List.mem_map.mp he
    exact hd c (List.mem_of_mem_filter hc)

theorem swf_sclear {d : α} {m : List (Nat × α)} (h : swf d m = true) (lo hi : Nat) : swf d (sclear m lo hi) = true := swf_filter h _

theorem swf_nil (d : α) : swf d ([] : List (Nat × α)) = true := rfl

/-- A fold of steps that each keep the form keeps it. -/
theorem swf_foldl {β : Type} {d : α} {l : List β} {f : List (Nat × α) → β → List (Nat × α)} {m : List (Nat × α)}
    (hf : ∀ x b, swf d x = true → swf d (f x b) = true) (h : swf d m = true) : swf d (l.foldl f m) = true := by
  induction l generalizing m with
  | nil => exact h
  | cons b l ih => exact ih (hf m b h)

theorem srise_foldl {β γ : Type} {l : List β} {f : List (Nat × γ) → β → List (Nat × γ)} {m : List (Nat × γ)}
    (hf : ∀ x b, srise x = true → srise (f x b) = true) (h : srise m = true) : srise (l.foldl f m) = true := by
  induction l generalizing m with
  | nil => exact h
  | cons b l ih => exact ih (hf m b h)

/-- An address below every cell reads as unlisted. -/
theorem sread_absent {γ : Type} {d : γ} {m : List (Nat × γ)} {a : Nat} (h : ∀ c ∈ m, c.1 ≠ a) : sread d m a = d := by
  induction m with
  | nil => rfl
  | cons c m ih =>
    unfold sread
    rw [if_neg fun e => h c (by simp) e.symm]
    exact ih fun x hx => h x (List.mem_cons_of_mem _ hx)

theorem sread_sinsert {γ : Type} (d : γ) (m : List (Nat × γ)) (a : Nat) (v : γ) (b : Nat) :
    sread d (sinsert m a v) b = if b = a then v else sread d m b := by
  induction m with
  | nil => simp [sinsert, sread]
  | cons c m ih =>
    unfold sinsert
    split
    · simp only [sread]
    · split
      case isTrue h =>
        subst h
        simp only [sread]
        split <;> rfl
      case isFalse h1 h2 =>
        simp only [sread, ih]
        by_cases hb : b = c.1
        · subst hb
          simp [Ne.symm h2]
        · simp [hb]

theorem sread_serase {d : α} {m : List (Nat × α)} (h : swf d m = true) (a b : Nat) :
    sread d (serase m a) b = if b = a then d else sread d m b := by
  obtain ⟨hp, -⟩ := (swf_iff d m).mp h
  clear h
  induction m with
  | nil => simp [serase, sread]
  | cons c m ih =>
    have hc := List.pairwise_cons.mp hp
    unfold serase
    split
    case isTrue h =>
      by_cases hb : b = a
      · subst hb
        rw [if_pos rfl]
        exact sread_absent fun x hx => h ▸ Nat.ne_of_gt (hc.1 x hx)
      · simp only [sread, if_neg hb, if_neg (h ▸ hb : ¬ b = c.1)]
    case isFalse h =>
      simp only [sread, ih hc.2]
      by_cases hb : b = c.1
      · subst hb
        simp [Ne.symm h]
      · simp [hb]

/-- A read after a write: the value written at its address, the old value at every other. -/
theorem sread_swrite {d : α} {m : List (Nat × α)} (h : swf d m = true) (a : Nat) (v : α) (b : Nat) :
    sread d (swrite d m a v) b = if b = a then v else sread d m b := by
  unfold swrite
  split
  case isTrue hv => subst hv; exact sread_serase h a b
  case isFalse => exact sread_sinsert d m a v b

/-- A list of writes leaves every address outside the written range as it was. -/
theorem sread_swriteList_outside {d : α} {m : List (Nat × α)} (h : swf d m = true) (a : Nat) (vs : List α) (b : Nat)
    (hb : b < a ∨ a + vs.length ≤ b) : sread d (swriteList d m a vs) b = sread d m b := by
  induction vs generalizing m a with
  | nil => rfl
  | cons v vs ih =>
    simp only [List.length_cons] at hb
    unfold swriteList
    rw [ih (swf_swrite h a v) (a + 1) (by omega), sread_swrite h, if_neg (by omega)]

/-- What any address reads as after a list of writes. -/
theorem sread_swriteList {d : α} {m : List (Nat × α)} (h : swf d m = true) (a : Nat) (vs : List α) (b : Nat) :
    sread d (swriteList d m a vs) b = if a ≤ b ∧ b < a + vs.length then vs.getD (b - a) d else sread d m b := by
  induction vs generalizing m a with
  | nil => simp only [List.length_nil, swriteList]; rw [if_neg (by omega)]
  | cons v vs ih =>
    unfold swriteList
    rw [ih (swf_swrite h a v) (a + 1), sread_swrite h]
    simp only [List.length_cons]
    by_cases hb : b = a
    · subst hb
      rw [if_neg (by omega), if_pos rfl, if_pos (by omega), Nat.sub_self, List.getD_cons_zero]
    · rw [if_neg hb]
      by_cases hr : a + 1 ≤ b ∧ b < a + 1 + vs.length
      · obtain ⟨k, rfl⟩ : ∃ k, b = a + 1 + k := ⟨b - (a + 1), by omega⟩
        rw [if_pos hr, if_pos (by omega), show a + 1 + k - (a + 1) = k from by omega, show a + 1 + k - a = k + 1 from by omega,
          List.getD_cons_succ]
      · rw [if_neg hr, if_neg (by omega)]

end Sys2Proof.Machine
end

