-- ==== Sys2Proof/Laws/Same.lean ====
section
/-!
SUPPORT. How frames compose: two states that agree outside a list of parts.
-/
namespace Sys2Proof.Machine

/-- The parts of the state, in two halves. -/
def partsLow : List Part :=
  [.pending, .free, .tick, .straps, .clk, .m, .boot, .triad, .recov, .bw, .fd, .ch, .ev, .mbx, .img, .held]
def partsHigh : List Part :=
  [.port, .flash, .mirror, .otp, .conv, .loop, .trim, .hart, .gov, .wheel, .time, .rul, .host, .mem, .chk, .pins, .enrol]

/-- Every part but `ps`. -/
def partsBut (ps : List Part) : List Part := (partsLow ++ partsHigh).filter fun p => !ps.contains p

/-- Every part of `ps` is in `qs`. -/
def covers (qs ps : List Part) : Bool := ps.all fun p => qs.contains p

theorem covers_mem {qs ps : List Part} (h : covers qs ps = true) {p : Part} (hp : p ∈ ps) : p ∈ qs := by
  have := List.all_eq_true.mp h p hp
  simpa using this

theorem covers_refl (ps : List Part) : covers ps ps = true := List.all_eq_true.mpr fun p hp => by simpa using hp

theorem covers_trans {rs qs ps : List Part} (h : covers rs qs = true) (k : covers qs ps = true) : covers rs ps = true :=
  List.all_eq_true.mpr fun p hp => by
    have := covers_mem h (covers_mem k hp)
    simpa using this

theorem covers_has {qs ps : List Part} {p : Part} (h : covers qs ps = true) (k : ps.contains p = true) : qs.contains p = true := by
  have := covers_mem h (by simpa using k : p ∈ ps)
  simpa using this

theorem Part.same_trans {s t u : State} {p : Part} (h : p.same s t) (k : p.same t u) : p.same s u := by
  cases p <;> exact Eq.trans k h

theorem Part.sound_same {s t : State} {p : Part} (h : p.same s t) (k : p.sound s) : p.sound t := by
  cases p <;> unfold Part.same at h <;> unfold Part.sound at k ⊢ <;> first | trivial | exact h ▸ k

/-- The state after reset is sound. -/
theorem State.reset_sound : Sound State.reset := fun p => by
  cases p <;> unfold Part.sound <;> simp [State.reset, swf, srise]

namespace SameOutside

theorem refl {ps : List Part} (s : State) : SameOutside ps s s := ⟨fun p _ => by cases p <;> rfl⟩

/-- Two changes after one another. -/
theorem step {qs ps : List Part} {s t u : State} (k : SameOutside ps t u) (hc : covers qs ps = true) (h : SameOutside qs s t) :
    SameOutside qs s u :=
  ⟨fun p hp => Part.same_trans (h.out p hp) (k.out p fun hm => hp (covers_mem hc hm))⟩

/-- A frame may be widened. -/
theorem widen {qs ps : List Part} {s t : State} (k : SameOutside ps s t) (hc : covers qs ps = true) : SameOutside qs s t :=
  step k hc (refl s)

end SameOutside

end Sys2Proof.Machine
end

