-- ==== Sys2Proof/Laws/Moves.lean ====
section
/-!
SUPPORT. What an operation can do to the state, said once for each: which parts it may change, and that it keeps every state sound; and how
such facts compose.
-/
namespace Sys2Proof.Machine

/-- From `s` to `t` only the parts `ps` may have changed, and `t` is sound if `s` is. -/
structure Moves (ps : List Part) (s t : State) : Prop where
  same : SameOutside ps s t
  sound : Sound s → Sound t

namespace Moves

theorem refl {ps : List Part} (s : State) : Moves ps s s := ⟨SameOutside.refl s, id⟩

/-- One operation after another. -/
theorem step {qs ps : List Part} {s t u : State} (k : Moves ps t u) (hc : covers qs ps = true) (h : Moves qs s t) : Moves qs s u :=
  ⟨k.same.step hc h.same, fun x => k.sound (h.sound x)⟩

theorem widen {qs ps : List Part} {s t : State} (k : Moves ps s t) (hc : covers qs ps = true) : Moves qs s t := step k hc (refl s)

/-- One operation after another, the second one known to keep soundness only of what the first leaves. -/
theorem after {qs ps : List Part} {s t u : State} (h : Moves qs s t) (hc : covers qs ps = true) (k : SameOutside ps t u)
    (hs : Sound t → Sound u) : Moves qs s u := step ⟨k, hs⟩ hc h

/-- A record update of `t`: each part it changes is one of `ps`, and sound again. -/
theorem upd {ps : List Part} {s t : State}
    {x0 x1 x2 x3 x4 x5 x6 x7 x8 x9 x10 x11 x12 x13 x14 x15 x16 x17 x18 x19 x20 x21 x22 x23 x24 x25 x26 x27 x28 x29 x30 x31 x32}
    (_ : x0 = t.pending)
    (k : ∀ p : Part,
      (ps.contains p = true ∧
        (Sound s → Sound t → p.sound
          (State.mk x0 x1 x2 x3 x4 x5 x6 x7 x8 x9 x10 x11 x12 x13 x14 x15 x16 x17 x18 x19 x20 x21 x22 x23 x24 x25 x26 x27 x28 x29 x30
            x31 x32))) ∨
      p.same t (State.mk x0 x1 x2 x3 x4 x5 x6 x7 x8 x9 x10 x11 x12 x13 x14 x15 x16 x17 x18 x19 x20 x21 x22 x23 x24 x25 x26 x27 x28 x29 x30
        x31 x32))
    (h : Moves ps s t) :
    Moves ps s
      (State.mk x0 x1 x2 x3 x4 x5 x6 x7 x8 x9 x10 x11 x12 x13 x14 x15 x16 x17 x18 x19 x20 x21 x22 x23 x24 x25 x26 x27 x28 x29 x30 x31
        x32) :=
  ⟨⟨fun p hp => Part.same_trans (h.same.out p hp) ((k p).resolve_left fun e => hp (by simpa using e.1))⟩,
    fun x p => (k p).elim (fun e => e.2 x (h.sound x)) fun e => Part.sound_same e (h.sound x p)⟩

theorem ite {ps : List Part} {s a b : State} {c : Prop} [Decidable c] (ha : c → Moves ps s a) (hb : ¬ c → Moves ps s b) :
    Moves ps s (if c then a else b) := by
  split
  · exact ha ‹_›
  · exact hb ‹_›

theorem dite {ps : List Part} {s : State} {c : Prop} [Decidable c] {a : c → State} {b : ¬ c → State}
    (ha : ∀ h, Moves ps s (a h)) (hb : ∀ h, Moves ps s (b h)) : Moves ps s (if h : c then a h else b h) := by
  split
  · exact ha _
  · exact hb _

theorem ofFst {ps : List Part} {t a : State} {α : Type} {p : State × α} {b : α} (h : p = (a, b)) (k : Moves ps t p.1) : Moves ps t a := by
  subst h
  exact k

theorem ofSnd {ps : List Part} {t a : State} {α : Type} {p : α × State} {b : α} (h : p = (b, a)) (k : Moves ps t p.2) : Moves ps t a := by
  subst h
  exact k

theorem foldl {α : Type} {ps : List Part} {s t : State} {f : State → α → State} {l : List α} (hf : ∀ a x, Moves ps a (f a x))
    (h : Moves ps s t) : Moves ps s (l.foldl f t) := by
  induction l generalizing t with
  | nil => exact h
  | cons x l ih => exact ih (step (hf t x) (covers_refl ps) h)

/-- A fold that carries something beside the state. -/
theorem foldlFst {α β : Type} {ps : List Part} {s : State} {f : State × β → α → State × β} {l : List α} {t : State × β}
    (hf : ∀ a x, Moves ps a.1 (f a x).1) (h : Moves ps s t.1) : Moves ps s (l.foldl f t).1 := by
  induction l generalizing t with
  | nil => exact h
  | cons x l ih => exact ih (step (hf t x) (covers_refl ps) h)

end Moves

end Sys2Proof.Machine
end

