-- ==== Sys2Proof/Laws/Bounds.lean ====
section
/-!
SUPPORT. What the operations on one part of the state keep of what Sound states of it: the canonical form of its memories and the bounds of its
queues.
-/
namespace Sys2Proof.Machine

/-! ## Event router -/

/-- What a sound state states of its event router. -/
def RouterOk (e : EventRouter) : Prop := e.count ≤ 256 ∧ e.sramLog.length ≤ 8192

theorem logPut_count (e : EventRouter) (t f : Byte) (r : W16) (b : List W32) (k : W32) : (logPut e t f r b k).count = e.count := by
  unfold logPut
  split <;> rfl

theorem logPut_log (e : EventRouter) (t f : Byte) (r : W16) (b : List W32) (k : W32) (h : e.sramLog.length ≤ 8192) :
    (logPut e t f r b k).sramLog.length ≤ 8192 := by
  unfold logPut
  split
  · rw [List.length_append]
    exact Nat.succ_le_of_lt ‹_›
  · exact h

theorem logPut_ok {e : EventRouter} (h : RouterOk e) (t f : Byte) (r : W16) (b : List W32) (k : W32) : RouterOk (logPut e t f r b k) :=
  ⟨(logPut_count ..).trans_le h.1, logPut_log _ _ _ _ _ _ h.2⟩

theorem ringPut_ok {e : EventRouter} (h : RouterOk e) (hc : e.count ≤ 255) (q : QueueEntry) : RouterOk (ringPut e q) :=
  ⟨Nat.succ_le_succ hc, h.2⟩

theorem lossRecord_ok {e : EventRouter} (h : RouterOk e) (r : W16) (k : W32) : RouterOk (lossRecord e r k) := by
  unfold lossRecord
  split
  · exact h
  · exact logPut_ok h ..

theorem evqAckWrite_ok {e : EventRouter} (h : RouterOk e) (v : W32) : RouterOk (evqAckWrite e v) := by
  unfold evqAckWrite
  extract_lets n
  split
  · exact ⟨(Nat.sub_le ..).trans h.1, h.2⟩
  · exact h

theorem countClearWrite_ok {e : EventRouter} (h : RouterOk e) (v : W32) : RouterOk (countClearWrite e v) := by
  unfold countClearWrite
  split <;> exact h

theorem latWrite_ok {e : EventRouter} (h : RouterOk e) (x : Nat) (v : W32) : RouterOk (latWrite e x v) := by
  unfold RouterOk latWrite at *
  exact ⟨h.1, h.2⟩

/-! ## Flash -/

theorem eraseRange_ok {m : List Host.Cell} (h : swf flashErased m = true) (a len : Nat) : swf flashErased (eraseRange m a len) = true := by
  unfold eraseRange
  exact swf_sclear h ..

theorem descFlash_ok {m : List Host.Cell} (h : swf flashErased m = true) (d : BootDesc) (e u : Bool) :
    swf flashErased (descFlash m d e u) = true := by
  unfold descFlash writeErased
  exact swf_swriteList (eraseRange_ok h ..) ..

theorem stepFlash_ok {m : List Host.Cell} (h : swf flashErased m = true) (a : Nat) (bs : List Byte) (hdr : Nat) (p : JobStep) :
    swf flashErased (stepFlash m a bs hdr p) = true := by
  unfold stepFlash programPart
  cases p
  case rest => exact eraseRange_ok h ..
  case readBack => exact h
  all_goals exact swf_swriteList h ..

theorem pageProgram_ok {m : List Host.Cell} (h : swf flashErased m = true) (a : Nat) (bs : List Byte) :
    swf flashErased (pageProgram m a bs) = true := swf_foldl (fun _ _ x => swf_swrite x ..) h

theorem journalCopy_ok (l : List (Byte × Byte × Byte × Byte × List Byte)) {fl : List Host.Cell} (h : swf flashErased fl = true) (a : Nat)
    (j : W32) : swf flashErased (journalCopy l fl a j).1 = true := by
  induction l generalizing fl a j with
  | nil => exact h
  | cons r rs ih => exact ih (swf_swriteList h ..) _ _

theorem logProgram_ok (l : List LogRecord) {m : List Host.Cell} (h : swf flashErased m = true) (i : Nat) :
    swf flashErased (logProgram l m i).1 = true := by
  induction l generalizing m i with
  | nil => exact h
  | cons r rs ih =>
    unfold logProgram
    extract_lets +onlyGivenNames a fl1
    refine ih (swf_swriteList ?_ ..) _
    unfold fl1
    split
    · exact swf_sclear h ..
    · exact h

/-! ## Queues -/

/-- A frame held where there is room leaves no more than 64 held. -/
theorem holdRoom_append {s : State} {n : Nat} (f : HeldFrame) (h : s.holdRoom n = true) : (s.held ++ [f]).length ≤ 64 := by
  rw [List.length_append]
  exact Nat.succ_le_of_lt (of_decide_eq_true (Bool.and_eq_true_iff.mp h).1)

theorem tail_held {l fs : List HeldFrame} {x : HeldFrame} (h : l.length ≤ 64) (e : l = x :: fs) : fs.length ≤ 64 := by
  subst e
  exact (Nat.le_succ _).trans h

/-- A fence added to the list of its group, where the list has room. -/
theorem fence_added {up : Bool} {l m : List PendingFence} (h : l.length ≤ 8 ∧ m.length ≤ 8)
    (hr : ¬ (if up = true then m.length else l.length) ≥ 8) (f : PendingFence) :
    (if up = true then l else l ++ [f]).length ≤ 8 ∧ (if up = true then m ++ [f] else m).length ≤ 8 := by
  cases up
  · simp only [Bool.false_eq_true, if_false, List.length_append, List.length_singleton] at hr ⊢
    exact ⟨by omega, h.2⟩
  · simp only [if_true, List.length_append, List.length_singleton] at hr ⊢
    exact ⟨h.1, by omega⟩

theorem merge_added {l : List Merge} {n : Nat} (h : ∀ g ∈ l, g.id < n) {x : Merge} (e : x.id = n) : ∀ g ∈ l ++ [x], g.id < n + 1 := by
  intro g hg
  rcases List.mem_append.mp hg with k | k
  · exact Nat.lt_succ_of_lt (h g k)
  · rw [List.mem_singleton.mp k, e]
    exact Nat.lt_succ_self n

theorem merge_mapped {l : List Merge} {n : Nat} (h : ∀ g ∈ l, g.id < n) {f : Merge → Merge} (e : ∀ g, (f g).id = g.id) :
    ∀ g ∈ l.map f, g.id < n := by
  intro g hg
  obtain ⟨x, hx, rfl⟩ := List.mem_map.mp hg
  rw [e]
  exact h x hx

theorem merge_filtered {l : List Merge} {n : Nat} (h : ∀ g ∈ l, g.id < n) (p : Merge → Bool) : ∀ g ∈ l.filter p, g.id < n :=
  fun g hg => h g (List.mem_of_mem_filter hg)

/-- A debug write recorded where the buffer has room. -/
theorem replay_added {t : TriadState} (h : (srise t.sram = true ∧ srise t.image = true) ∧ t.replay.length ≤ 64)
    (hr : ¬ 64 ≤ t.replay.length) (b : Bool) (k : Nat) (v : W32) (e : ReplayEntry) :
    (srise (if b = true then t else putLaneWord t k v).sram = true ∧ srise (if b = true then t else putLaneWord t k v).image = true) ∧
    ((if b = true then t else putLaneWord t k v).replay ++ [e]).length ≤ 64 := by
  rw [List.length_append, List.length_singleton]
  cases b
  · exact ⟨⟨h.1.1, srise_sinsert h.1.2 ..⟩, Nat.succ_le_of_lt (Nat.lt_of_not_le hr)⟩
  · exact ⟨h.1, Nat.succ_le_of_lt (Nat.lt_of_not_le hr)⟩

/-- The exchange of two halves keeps both canonical. -/
theorem swf_joinAt {d : Byte} (n : Nat) {a b : List (Nat × Byte)} (ha : swf d a = true) (hb : swf d b = true) : swf d (joinAt n a b) = true := by
  obtain ⟨pa, da⟩ := (swf_iff _ _).mp ha
  obtain ⟨pb, db⟩ := (swf_iff _ _).mp hb
  refine (swf_iff _ _).mpr ⟨List.pairwise_append.mpr ⟨pa.sublist List.filter_sublist, pb.sublist List.filter_sublist, ?_⟩, ?_⟩
  · intro x hx y hy
    have h1 := of_decide_eq_true (List.mem_filter.mp hx).2
    have h2 := of_decide_eq_true (List.mem_filter.mp hy).2
    omega
  · intro c hc
    rcases List.mem_append.mp hc with k | k
    · exact da c (List.mem_of_mem_filter k)
    · exact db c (List.mem_of_mem_filter k)

theorem genCells_ok (g : Generation) : swf 0 (genCells g) = true := by
  unfold genCells
  exact swf_swriteList (swf_nil _) ..

end Sys2Proof.Machine
end

