-- ==== Sys2Proof/Laws/MovesOps.lean ====
section
/-!
SUPPORT. The operations shared by the meanings: what each operation can change, and that it keeps a sound state sound.
-/
namespace Sys2Proof.Machine

/-! ## Ops -/

theorem State.modCh_moves (s : State) (n : Chan) (f : Channel → Channel) : Moves [.ch] s (State.modCh s n f) := by
  unfold State.modCh
  refine Moves.upd rfl (fun p => by cases p; (case ch => exact Or.inl ⟨rfl, fun _ _ => trivial⟩); all_goals exact Or.inr rfl) ?_
  exact Moves.refl _

theorem State.modFd_moves (s : State) (n : Chan) (f : FdChan → FdChan) : Moves [.fd] s (State.modFd s n f) := by
  unfold State.modFd
  refine Moves.upd rfl (fun p => by cases p; (case fd => exact Or.inl ⟨rfl, fun _ _ => trivial⟩); all_goals exact Or.inr rfl) ?_
  exact Moves.refl _

theorem State.modPort_moves (s : State) (k : PortIx) (f : Port → Port) : Moves [.port] s (State.modPort s k f) := by
  unfold State.modPort
  refine Moves.upd rfl (fun p => by cases p; (case port => exact Or.inl ⟨rfl, fun _ _ => trivial⟩); all_goals exact Or.inr rfl) ?_
  exact Moves.refl _

theorem State.modSlot_moves (s : State) (i : SlotIx) (f : MailSlot → MailSlot) : Moves [.mbx] s (State.modSlot s i f) := by
  unfold State.modSlot
  refine Moves.upd rfl (fun p => by cases p; (case mbx => exact Or.inl ⟨rfl, fun _ _ => trivial⟩); all_goals exact Or.inr rfl) ?_
  exact Moves.refl _

theorem State.modSrc_moves (s : State) (i : SrcIx) (f : EventSource → EventSource) : Moves [.ev] s (State.modSrc s i f) := by
  unfold State.modSrc
  refine Moves.upd rfl (fun p => by cases p; (case ev => exact Or.inl ⟨rfl, fun _ h => h .ev⟩); all_goals exact Or.inr rfl) ?_
  exact Moves.refl _

theorem State.draw_moves (s : State) : Moves [.free] s (State.draw s).2 := by
  unfold State.draw
  dsimp -zeta only
  refine Moves.upd rfl (fun p => by cases p; (case free => exact Or.inl ⟨rfl, fun _ _ => trivial⟩); all_goals exact Or.inr rfl) ?_
  exact Moves.refl _

theorem linkRecord_moves (s : State) (q : QueueEntry) (src : SrcIx) : Moves [.ev, .port] s (linkRecord s q src) := by
  unfold linkRecord
  refine Moves.ite (fun _ => ?_) (fun _ => ?_)
  · split
    · extract_lets +onlyGivenNames x1
      clear_value x1
      refine Moves.step (State.modPort_moves ..) rfl ?_
      exact Moves.refl _
    · refine Moves.upd rfl (fun p => by cases p; (case ev => exact Or.inl ⟨rfl, fun _ h => h .ev⟩); all_goals exact Or.inr rfl) ?_
      exact Moves.refl _
  · exact Moves.refl _

theorem raiseOverflow_moves (s : State) (hc : s.ev.count ≤ 255) : Moves [.ev, .port] s (raiseOverflow s) := by
  unfold raiseOverflow
  extract_lets x c q s1 s2
  have h1 : Moves [.ev, .port] s s1 := (State.modSrc_moves ..).widen rfl
  have e1 : s1.ev.count = s.ev.count := rfl
  clear_value s1
  have h2 : Moves [.ev, .port] s s2 := by
    refine Moves.upd rfl (fun p => by
        cases p
        case ev => exact Or.inl ⟨rfl, fun _ h => ringPut_ok (logPut_ok (h .ev) ..) ((logPut_count ..).trans_le (e1.trans_le hc)) _⟩
        all_goals exact Or.inr rfl) ?_
    exact h1
  exact Moves.step (linkRecord_moves ..) rfl h2

theorem enqueue_moves (s : State) (q : QueueEntry) : Moves [.ev, .port] s (enqueue s q) := by
  unfold enqueue
  refine Moves.ite (fun hc => ?_) (fun _ => ?_)
  · refine Moves.upd rfl (fun p => by
        cases p
        case ev => exact Or.inl ⟨rfl, fun _ h => ringPut_ok (h .ev) (Nat.le_of_lt hc) _⟩
        all_goals exact Or.inr rfl) ?_
    exact Moves.refl _
  · have k : Moves [.ev, .port] s { s with ev := { s.ev with lost := s.ev.lost + 1, ovf := true } } :=
      Moves.upd rfl (fun p => by cases p; (case ev => exact Or.inl ⟨rfl, fun _ h => h .ev⟩); all_goals exact Or.inr rfl) (Moves.refl _)
    exact Moves.ite (fun hc => Moves.step (raiseOverflow_moves _ (Nat.le_of_eq hc)) rfl k) (fun _ => k)

theorem occur_moves (s : State) (src : SrcIx) (detail : W32) (tick : W64) : Moves [.ev, .port] s (occur s src detail tick) := by
  unfold occur
  extract_lets +onlyGivenNames x1
  clear_value x1
  refine Moves.ite (fun _ => ?_) (fun _ => ?_)
  · extract_lets +onlyGivenNames x2
    clear_value x2
    extract_lets +onlyGivenNames x3
    clear_value x3
    extract_lets +onlyGivenNames x4
    have h4 : Moves [.ev, .port] s x4 := by
      unfold x4
      refine Moves.step (State.modSrc_moves ..) rfl ?_
      exact Moves.refl _
    clear_value x4
    extract_lets +onlyGivenNames x5
    have h5 : Moves [.ev, .port] s x5 := by
      unfold x5
      refine Moves.upd rfl (fun p => by
          cases p
          case ev => exact Or.inl ⟨rfl, fun _ h => logPut_ok (h .ev) ..⟩
          all_goals exact Or.inr rfl) ?_
      assumption
    clear_value x5
    refine Moves.ite (fun _ => ?_) (fun _ => ?_)
    · refine Moves.step (linkRecord_moves ..) rfl ?_
      refine Moves.step (enqueue_moves ..) rfl ?_
      assumption
    · refine Moves.step (State.modSrc_moves ..) rfl ?_
      assumption
  · exact Moves.refl _

theorem raise_moves (s : State) (src : SrcIx) (detail : W32) : Moves [.ev, .port] s (raise s src detail) := by
  unfold raise
  refine Moves.ite (fun _ => ?_) (fun _ => ?_)
  · refine Moves.step (occur_moves ..) rfl ?_
    exact Moves.refl _
  · extract_lets +onlyGivenNames x1
    have h1 : Moves [.ev, .port] s x1 := by
      unfold x1
      refine Moves.ite (fun _ => ?_) (fun _ => ?_)
      · refine Moves.step (State.modSrc_moves ..) rfl ?_
        exact Moves.refl _
      · exact Moves.refl _
    clear_value x1
    refine Moves.upd rfl (fun p => by cases p; (case ev => exact Or.inl ⟨rfl, fun _ h => h .ev⟩); all_goals exact Or.inr rfl) ?_
    assumption

theorem raiseAt_moves (s : State) (src : SrcIx) (detail : W32) (tick : W64) : Moves [.ev, .port] s (raiseAt s src detail tick) := by
  unfold raiseAt
  refine Moves.ite (fun _ => ?_) (fun _ => ?_)
  · refine Moves.step (occur_moves ..) rfl ?_
    exact Moves.refl _
  · refine Moves.upd rfl (fun p => by cases p; (case ev => exact Or.inl ⟨rfl, fun _ h => h .ev⟩); all_goals exact Or.inr rfl) ?_
    exact Moves.refl _

theorem raiseDeferred_moves (s : State) : Moves [.ev, .port] s (raiseDeferred s) := by
  unfold raiseDeferred
  refine Moves.foldl (fun y1 z1 => ?_) ?_
  · refine Moves.step (occur_moves ..) rfl ?_
    exact Moves.refl _
  · refine Moves.upd rfl (fun p => by cases p; (case ev => exact Or.inl ⟨rfl, fun _ h => h .ev⟩); all_goals exact Or.inr rfl) ?_
    exact Moves.refl _

theorem flushSource_moves (s : State) (src : SrcIx) : Moves [.ev, .port] s (flushSource s src) := by
  unfold flushSource
  split
  · extract_lets +onlyGivenNames x1
    clear_value x1
    extract_lets +onlyGivenNames x2
    have h2 : Moves [.ev, .port] s x2 := by
      unfold x2
      refine Moves.step (State.modSrc_moves ..) rfl ?_
      exact Moves.refl _
    clear_value x2
    refine Moves.step (linkRecord_moves ..) rfl ?_
    refine Moves.step (enqueue_moves ..) rfl ?_
    assumption
  · exact Moves.refl _

theorem occurEach_moves (v0 : List (SrcIx × W32 × W64)) (v1 : State) : Moves [.ev, .port] v1 (occurEach v0 v1) := by
  induction v0 generalizing v1 with
  | nil => exact Moves.refl _
  | cons d ds ih =>
    unfold occurEach
    extract_lets s1
    have h1 : Moves [.ev, .port] v1 s1 := (occur_moves ..).widen rfl
    refine Moves.step (ih ..) (covers_refl _) ?_
    exact Moves.ite (fun _ => h1) (fun _ => Moves.step (flushSource_moves ..) rfl h1)

theorem raiseHeld_moves (s : State) : Moves [.ev, .port] s (raiseHeld s) := by
  unfold raiseHeld
  refine Moves.step (occurEach_moves ..) rfl ?_
  refine Moves.upd rfl (fun p => by cases p; (case ev => exact Or.inl ⟨rfl, fun _ h => h .ev⟩); all_goals exact Or.inr rfl) ?_
  exact Moves.refl _

theorem flushNormal_moves (s : State) : Moves [.ev, .port] s (flushNormal s) := by
  unfold flushNormal
  refine Moves.foldl (fun y1 z1 => ?_) ?_
  · refine Moves.step (flushSource_moves ..) rfl ?_
    exact Moves.refl _
  · exact Moves.refl _

theorem raiseProt_moves (s : State) (n : Chan) : Moves [.ev, .port] s (raiseProt s n) := by
  unfold raiseProt
  refine Moves.step (raise_moves ..) rfl ?_
  exact Moves.refl _

theorem raiseWire_moves (s : State) (n : Chan) : Moves [.ev, .port] s (raiseWire s n) := by
  unfold raiseWire
  refine Moves.step (raise_moves ..) rfl ?_
  exact Moves.refl _

theorem raiseMeasure_moves (s : State) (n : Chan) (cause : ℕ) (poll : ℕ) : Moves [.ev, .port] s (raiseMeasure s n cause poll) := by
  unfold raiseMeasure
  refine Moves.step (raise_moves ..) rfl ?_
  exact Moves.refl _

theorem noteChange_moves (s : State) (a : BitVec 20) : Moves [.img] s (noteChange s a) := by
  unfold noteChange
  refine Moves.ite (fun _ => ?_) (fun _ => ?_)
  · refine Moves.upd rfl (fun p => by cases p; (case img => exact Or.inl ⟨rfl, fun _ h => h .img⟩); all_goals exact Or.inr rfl) ?_
    exact Moves.refl _
  · exact Moves.refl _

theorem epStore_moves (s : State) (a : BitVec 20) (w : W32) : Moves [.img] s (epStore s a w) := by
  unfold epStore
  refine Moves.ite (fun _ => ?_) (fun _ => ?_)
  · exact Moves.refl _
  · refine Moves.ite (fun _ => ?_) (fun _ => ?_)
    · refine Moves.step (noteChange_moves ..) rfl ?_
      refine Moves.upd rfl (fun p => by
          cases p
          case img => exact Or.inl ⟨rfl, fun _ h => ⟨⟨swf_swrite (h .img).1.1 .., (h .img).1.2⟩, (h .img).2⟩⟩
          all_goals exact Or.inr rfl) ?_
      exact Moves.refl _
    · refine Moves.step (noteChange_moves ..) rfl ?_
      refine Moves.upd rfl (fun p => by
          cases p
          case img => exact Or.inl ⟨rfl, fun _ h => ⟨⟨(h .img).1.1, swf_swrite (h .img).1.2.1 .., (h .img).1.2.2⟩, (h .img).2⟩⟩
          all_goals exact Or.inr rfl) ?_
      exact Moves.refl _

theorem epPut_moves (s : State) (a : BitVec 20) (q : BitVec 4) (cls : BitVec 4) (v : W16) : Moves [.img] s (epPut s a q cls v) := by
  unfold epPut
  extract_lets +onlyGivenNames x1
  clear_value x1
  refine Moves.ite (fun _ => ?_) (fun _ => ?_)
  · exact Moves.refl _
  · refine Moves.step (epStore_moves ..) rfl ?_
    exact Moves.refl _

theorem epAccept_moves (s : State) (a : BitVec 20) (q : BitVec 4) (cls : BitVec 4) (v : W16) : Moves [.img] s (epAccept s a q cls v) := by
  unfold epAccept
  refine Moves.step (epStore_moves ..) rfl ?_
  exact Moves.refl _

theorem putHealth_moves (s : State) (o : ℕ) (cls : BitVec 4) (v : W16) : Moves [.img] s (putHealth s o cls v) := by
  unfold putHealth
  refine Moves.step (epPut_moves ..) rfl ?_
  exact Moves.refl _

theorem State.modRule_moves (s : State) (i : ℕ) (f : RuleMem → RuleMem) : Moves [.rul] s (State.modRule s i f) := by
  unfold State.modRule
  refine Moves.upd rfl (fun p => by cases p; (case rul => exact Or.inl ⟨rfl, fun _ _ => trivial⟩); all_goals exact Or.inr rfl) ?_
  exact Moves.refl _

theorem ruleFault_moves (s : State) (i : ℕ) (cause : BitVec 3) : Moves [.ev, .port, .rul] s (ruleFault s i cause) := by
  unfold ruleFault
  extract_lets +onlyGivenNames x1
  clear_value x1
  extract_lets +onlyGivenNames x2
  have h2 : Moves [.ev, .port, .rul] s x2 := by
    unfold x2
    refine Moves.upd rfl (fun p => by cases p; (case rul => exact Or.inl ⟨rfl, fun _ _ => trivial⟩); all_goals exact Or.inr rfl) ?_
    exact Moves.refl _
  clear_value x2
  refine Moves.step (raise_moves ..) rfl ?_
  assumption

theorem ruleRefused_moves (s : State) (a : BitVec 20) (reason : BitVec 3) : Moves [.ev, .port, .rul] s (ruleRefused s a reason) := by
  unfold ruleRefused
  split
  · exact Moves.refl _
  · extract_lets +onlyGivenNames x1
    clear_value x1
    refine Moves.ite (fun _ => ?_) (fun _ => ?_)
    · extract_lets +onlyGivenNames x2
      have h2 : Moves [.ev, .port, .rul] s x2 := by
        unfold x2
        refine Moves.step (State.modRule_moves ..) rfl ?_
        exact Moves.refl _
      clear_value x2
      refine Moves.ite (fun _ => ?_) (fun _ => ?_)
      · refine Moves.step (ruleFault_moves ..) rfl ?_
        assumption
      · assumption
    · extract_lets +onlyGivenNames x3
      have h3 : Moves [.ev, .port, .rul] s x3 := by
        unfold x3
        refine Moves.step (State.modRule_moves ..) rfl ?_
        exact Moves.refl _
      clear_value x3
      refine Moves.ite (fun _ => ?_) (fun _ => ?_)
      · assumption
      · refine Moves.step (ruleFault_moves ..) rfl ?_
        assumption

theorem recordRefusal_moves (s : State) (a : BitVec 20) (reason : BitVec 3) (src : BitVec 2)
    : Moves [.ev, .img, .port, .rul] s (recordRefusal s a reason src) := by
  unfold recordRefusal
  extract_lets +onlyGivenNames x1
  extract_lets +onlyGivenNames x2
  have h2 : Moves [.ev, .img, .port, .rul] s x2 := by
    unfold x2
    refine Moves.upd rfl (fun p => by cases p; (case img => exact Or.inl ⟨rfl, fun _ h => h .img⟩); all_goals exact Or.inr rfl) ?_
    exact Moves.refl _
  clear_value x2
  refine Moves.ite (fun _ => ?_) (fun _ => ?_)
  · refine Moves.step (ruleRefused_moves ..) rfl ?_
    assumption
  · assumption

theorem sendOn_moves (s : State) (k : PortIx) (f : TxFrame) : Moves [.port] s (sendOn s k f) := by
  unfold sendOn
  refine Moves.step (State.modPort_moves ..) rfl ?_
  exact Moves.refl _

theorem sendRequest_moves (s : State) (k : PortIx) (msg : LinkMsg) (kind : RequestKind) (budget : W16) (since : W64)
    : Moves [.img, .port] s (sendRequest s k msg kind budget since) := by
  unfold sendRequest
  extract_lets +onlyGivenNames x1
  clear_value x1
  extract_lets +onlyGivenNames x2
  have h2 : Moves [.img, .port] s x2 := by
    unfold x2
    refine Moves.step (State.modPort_moves ..) rfl ?_
    exact Moves.refl _
  clear_value x2
  refine Moves.upd rfl (fun p => by
      cases p
      case img => exact Or.inl ⟨rfl, fun _ h => ⟨(h .img).1, fun g hg => Nat.lt_succ_of_lt ((h .img).2.1 g hg), (h .img).2.2⟩⟩
      all_goals exact Or.inr rfl) ?_
  assumption

theorem sendResponse_moves (s : State) (k : PortIx) (msg : LinkMsg) (tag : W16) : Moves [.port] s (sendResponse s k msg tag) := by
  unfold sendResponse
  refine Moves.step (sendOn_moves ..) rfl ?_
  exact Moves.refl _

theorem mbxEnd_moves (s : State) (i : SlotIx) (result : Byte) (detail : W32) : Moves [.mbx] s (mbxEnd s i result detail) := by
  unfold mbxEnd
  refine Moves.step (State.modSlot_moves ..) rfl ?_
  exact Moves.refl _

theorem mbxReturn_moves (s : State) (i : SlotIx) (j : Fin 28) (v : W32) : Moves [.mbx] s (mbxReturn s i j v) := by
  unfold mbxReturn
  refine Moves.step (State.modSlot_moves ..) rfl ?_
  exact Moves.refl _

theorem mbxStart_moves (s : State) (i : SlotIx) (code : W16) (tag : W16) : Moves [.mbx] s (mbxStart s i code tag) := by
  unfold mbxStart
  refine Moves.step (State.modSlot_moves ..) rfl ?_
  exact Moves.refl _

theorem whenServed_moves {ps : List Part} (hc : covers ps [.held] = true) (s : State) (h : HeldFrame) (f : State → State)
    (hf2 : ∀ a0, Moves ps a0 (f a0)) : Moves ps s (whenServed s h f) := by
  unfold whenServed
  refine Moves.ite (fun _ => ?_) (fun _ => ?_)
  · refine Moves.step (hf2 ..) (covers_refl _) ?_
    exact Moves.refl _
  · refine Moves.ite (fun _ => ?_) (fun _ => ?_)
    · refine Moves.upd rfl (fun p => by
          cases p
          case held => exact Or.inl ⟨covers_has hc rfl, fun _ h => holdRoom_append _ (Bool.and_eq_true_iff.mp (by assumption)).2⟩
          all_goals exact Or.inr rfl) ?_
      exact Moves.refl _
    · exact Moves.refl _

theorem mbxRun_moves {ps : List Part} (hc : covers ps [.mbx] = true) (s : State) (i : SlotIx) (code : W16) (tag : W16)
    (accepted : Mode → Bool) (masks : List (Fin 32 × W32)) (f : State → State) (hf6 : ∀ a0, Moves ps a0 (f a0))
    : Moves ps s (mbxRun s i code tag accepted masks f) := by
  unfold mbxRun
  refine Moves.ite (fun _ => ?_) (fun _ => ?_)
  · refine Moves.upd rfl (fun p => by
        cases p
        case mbx => exact Or.inl ⟨covers_has hc rfl, fun _ _ => trivial⟩
        all_goals exact Or.inr rfl) ?_
    exact Moves.refl _
  · extract_lets +onlyGivenNames x1
    have h1 : Moves ps s x1 := by
      unfold x1
      refine Moves.step (mbxStart_moves ..) (covers_trans hc rfl) ?_
      exact Moves.refl _
    clear_value x1
    refine Moves.ite (fun _ => ?_) (fun _ => ?_)
    · refine Moves.step (mbxEnd_moves ..) (covers_trans hc rfl) ?_
      assumption
    · split
      · refine Moves.step (mbxEnd_moves ..) (covers_trans hc rfl) ?_
        assumption
      · refine Moves.step (hf6 ..) (covers_refl _) ?_
        assumption

theorem mbxServed_moves {ps : List Part} (hc : covers ps [.held] = true) (s : State) (i : SlotIx) (code : W16) (tag : W16)
    (run : State → SlotIx → W16 → State) (hf4 : ∀ a0 a1 a2, Moves ps a0 (run a0 a1 a2)) : Moves ps s (mbxServed s i code tag run) := by
  unfold mbxServed
  refine Moves.step (whenServed_moves (ps := ps) (hc := covers_trans hc rfl) (hf2 := fun y1_0 => ?_) ..) (covers_refl _) ?_
  · refine Moves.step (hf4 ..) (covers_refl _) ?_
    exact Moves.refl _
  · exact Moves.refl _

/-! ## ChanOps -/

theorem putChanHealth_moves (s : State) (n : Chan) : Moves [.img] s (putChanHealth s n) := by
  unfold putChanHealth
  extract_lets +onlyGivenNames x1
  clear_value x1
  refine Moves.step (epPut_moves ..) rfl ?_
  exact Moves.refl _

theorem putChanState_moves (s : State) (n : Chan) : Moves [.img] s (putChanState s n) := by
  unfold putChanState
  extract_lets +onlyGivenNames x1
  clear_value x1
  refine Moves.ite (fun _ => ?_) (fun _ => ?_)
  · refine Moves.step (epPut_moves ..) rfl ?_
    exact Moves.refl _
  · refine Moves.ite (fun _ => ?_) (fun _ => ?_)
    · refine Moves.step (epPut_moves ..) rfl ?_
      exact Moves.refl _
    · exact Moves.refl _

theorem setCmd_moves (s : State) (n : Chan) (cmd : ChanCmd) : Moves [.ch] s (setCmd s n cmd) := by
  unfold setCmd
  refine Moves.step (State.modCh_moves ..) rfl ?_
  exact Moves.refl _

theorem putLamp_moves (s : State) (n : Chan) : Moves [.ev, .img, .port] s (putLamp s n) := by
  unfold putLamp
  refine Moves.ite (fun _ => ?_) (fun _ => ?_)
  · exact Moves.refl _
  · extract_lets +onlyGivenNames x1
    clear_value x1
    extract_lets +onlyGivenNames x2
    clear_value x2
    extract_lets +onlyGivenNames x3
    clear_value x3
    extract_lets +onlyGivenNames x4
    have h4 : Moves [.ev, .img, .port] s x4 := by
      unfold x4
      refine Moves.step (epPut_moves ..) rfl ?_
      exact Moves.refl _
    clear_value x4
    refine Moves.ite (fun _ => ?_) (fun _ => ?_)
    · assumption
    · refine Moves.step (raise_moves ..) rfl ?_
      assumption

theorem putProving_moves (s : State) (n : Chan) : Moves [.img] s (putProving s n) := by
  unfold putProving
  extract_lets +onlyGivenNames x1
  clear_value x1
  extract_lets +onlyGivenNames x2
  clear_value x2
  refine Moves.ite (fun _ => ?_) (fun _ => ?_)
  · exact Moves.refl _
  · extract_lets +onlyGivenNames x3
    clear_value x3
    extract_lets +onlyGivenNames x4
    clear_value x4
    extract_lets +onlyGivenNames x5
    have h5 : Moves [.img] s x5 := by
      unfold x5
      refine Moves.step (epPut_moves ..) rfl ?_
      exact Moves.refl _
    clear_value x5
    refine Moves.ite (fun _ => ?_) (fun _ => ?_)
    · extract_lets +onlyGivenNames x6
      clear_value x6
      extract_lets +onlyGivenNames x7
      clear_value x7
      extract_lets +onlyGivenNames x8
      clear_value x8
      refine Moves.step (epPut_moves ..) rfl ?_
      assumption
    · assumption

theorem evalLamp_moves (s : State) (n : Chan) : Moves [.ch, .ev, .img, .port] s (evalLamp s n) := by
  unfold evalLamp
  extract_lets +onlyGivenNames x1
  clear_value x1
  refine Moves.ite (fun _ => ?_) (fun _ => ?_)
  · refine Moves.step (State.modCh_moves ..) rfl ?_
    exact Moves.refl _
  · split
    extract_lets +onlyGivenNames x2
    clear_value x2
    extract_lets +onlyGivenNames x3
    clear_value x3
    extract_lets +onlyGivenNames x4
    clear_value x4
    extract_lets +onlyGivenNames x5
    clear_value x5
    extract_lets +onlyGivenNames x6
    have h6 : Moves [.ch, .ev, .img, .port] s x6 := by
      unfold x6
      refine Moves.step (State.modCh_moves ..) rfl ?_
      exact Moves.refl _
    clear_value x6
    extract_lets +onlyGivenNames x7
    have h7 : Moves [.ch, .ev, .img, .port] s x7 := by
      unfold x7
      refine Moves.step (putProving_moves ..) rfl ?_
      refine Moves.step (putLamp_moves ..) rfl ?_
      assumption
    clear_value x7
    extract_lets +onlyGivenNames x8
    have h8 : Moves [.ch, .ev, .img, .port] s x8 := by
      unfold x8
      split
      · refine Moves.step (putLamp_moves ..) rfl ?_
        assumption
      · assumption
    clear_value x8
    refine Moves.step (putHealth_moves ..) rfl ?_
    assumption

theorem State.modLoop_moves (s : State) (n : Chan) (f : ChanLoop → ChanLoop) : Moves [.loop] s (State.modLoop s n f) := by
  unfold State.modLoop
  refine Moves.upd rfl (fun p => by cases p; (case loop => exact Or.inl ⟨rfl, fun _ _ => trivial⟩); all_goals exact Or.inr rfl) ?_
  exact Moves.refl _

theorem putHartLive_moves (s : State) (n : Chan) : Moves [.img] s (putHartLive s n) := by
  unfold putHartLive
  refine Moves.ite (fun _ => ?_) (fun _ => ?_)
  · refine Moves.step (epPut_moves ..) rfl ?_
    exact Moves.refl _
  · exact Moves.refl _

theorem putCommands_moves (s : State) (n : Chan) : Moves [.img] s (putCommands s n) := by
  unfold putCommands
  extract_lets +onlyGivenNames x1
  clear_value x1
  extract_lets +onlyGivenNames x2
  have h2 : Moves [.img] s x2 := by
    unfold x2
    refine Moves.ite (fun _ => ?_) (fun _ => ?_)
    · refine Moves.step (epPut_moves ..) rfl ?_
      exact Moves.refl _
    · exact Moves.refl _
  clear_value x2
  extract_lets +onlyGivenNames x3
  have h3 : Moves [.img] s x3 := by
    unfold x3
    refine Moves.ite (fun _ => ?_) (fun _ => ?_)
    · refine Moves.step (epPut_moves ..) rfl ?_
      assumption
    · assumption
  clear_value x3
  refine Moves.step (putHartLive_moves ..) rfl ?_
  refine Moves.ite (fun _ => ?_) (fun _ => ?_)
  · refine Moves.step (epPut_moves ..) rfl ?_
    assumption
  · assumption

theorem putNe43_moves (s : State) (n : Chan) (lo : Bool) (hi : Bool) : Moves [.img, .loop] s (putNe43 s n lo hi) := by
  unfold putNe43
  extract_lets +onlyGivenNames x1
  have h1 : Moves [.img, .loop] s x1 := by
    unfold x1
    refine Moves.step (State.modLoop_moves ..) rfl ?_
    exact Moves.refl _
  clear_value x1
  refine Moves.ite (fun _ => ?_) (fun _ => ?_)
  · assumption
  · refine Moves.step (putCommands_moves ..) rfl ?_
    assumption

theorem refresh_moves (s : State) (n : Chan) : Moves [.ch, .ev, .img, .port] s (refresh s n) := by
  unfold refresh
  extract_lets +onlyGivenNames x1
  have h1 : Moves [.ch, .ev, .img, .port] s x1 := by
    unfold x1
    refine Moves.step (State.modCh_moves ..) rfl ?_
    exact Moves.refl _
  clear_value x1
  refine Moves.step (evalLamp_moves ..) rfl ?_
  refine Moves.step (putCommands_moves ..) rfl ?_
  refine Moves.step (putChanState_moves ..) rfl ?_
  refine Moves.step (putChanHealth_moves ..) rfl ?_
  assumption

theorem refreshAll_moves (s : State) : Moves [.ch, .ev, .img, .port] s (refreshAll s) := by
  unfold refreshAll
  refine Moves.foldl (fun y1 z1 => ?_) ?_
  · refine Moves.step (refresh_moves ..) rfl ?_
    exact Moves.refl _
  · exact Moves.refl _

theorem putNoSig_moves (s : State) (n : Chan) : Moves [.ch] s (putNoSig s n) := by
  unfold putNoSig
  refine Moves.step (State.modCh_moves ..) rfl ?_
  exact Moves.refl _

theorem discardAcc_moves (s : State) (n : Chan) : Moves [.free, .ch, .mbx, .enrol] s (discardAcc s n) := by
  unfold discardAcc
  extract_lets +onlyGivenNames x1
  have h1 : Moves [.free, .ch, .mbx, .enrol] s x1 := by
    unfold x1
    refine Moves.step (State.modCh_moves ..) rfl ?_
    exact Moves.refl _
  clear_value x1
  split
  · split
    refine Moves.step (mbxEnd_moves ..) rfl ?_
    refine Moves.upd rfl (fun p => by cases p; (case enrol => exact Or.inl ⟨rfl, fun _ _ => trivial⟩); all_goals exact Or.inr rfl) ?_
    refine Moves.ofSnd (by assumption) ?_
    refine Moves.step (State.draw_moves ..) rfl ?_
    assumption
  · assumption

theorem dropEst_moves (s : State) (n : Chan) : Moves [.ch] s (dropEst s n) := by
  unfold dropEst
  refine Moves.step (State.modCh_moves ..) rfl ?_
  exact Moves.refl _

/-! ## CalOps -/

theorem putDac_moves (s : State) (n : Chan) : Moves [.conv] s (putDac s n) := by
  unfold putDac
  extract_lets +onlyGivenNames x1
  clear_value x1
  extract_lets +onlyGivenNames x2
  clear_value x2
  extract_lets +onlyGivenNames x3
  clear_value x3
  extract_lets +onlyGivenNames x4
  clear_value x4
  extract_lets +onlyGivenNames x5
  clear_value x5
  refine Moves.upd rfl (fun p => by cases p; (case conv => exact Or.inl ⟨rfl, fun _ h => h .conv⟩); all_goals exact Or.inr rfl) ?_
  exact Moves.refl _

/-! ## FieldOps -/

theorem modHalves_moves (s : State) (n : Chan) (f : FdChan → FdChan) : Moves [.fd] s (modHalves s n f) := by
  unfold modHalves
  refine Moves.foldl (fun y1 z1 => ?_) ?_
  · refine Moves.step (State.modFd_moves ..) rfl ?_
    exact Moves.refl _
  · exact Moves.refl _

theorem report_moves (s : State) (r : Report) : Moves [.fd] s (report s r) := by
  unfold report
  refine Moves.ite (fun _ => ?_) (fun _ => ?_)
  · exact Moves.refl _
  · refine Moves.ite (fun _ => ?_) (fun _ => ?_)
    · refine Moves.upd rfl (fun p => by cases p; (case fd => exact Or.inl ⟨rfl, fun _ _ => trivial⟩); all_goals exact Or.inr rfl) ?_
      exact Moves.refl _
    · refine Moves.upd rfl (fun p => by cases p; (case fd => exact Or.inl ⟨rfl, fun _ _ => trivial⟩); all_goals exact Or.inr rfl) ?_
      exact Moves.refl _

theorem reportStatus_moves (s : State) (r : Report) : Moves [.fd] s (reportStatus s r) := by
  unfold reportStatus
  refine Moves.ite (fun _ => ?_) (fun _ => ?_)
  · refine Moves.step (report_moves ..) rfl ?_
    exact Moves.refl _
  · refine Moves.ite (fun _ => ?_) (fun _ => ?_)
    · refine Moves.upd rfl (fun p => by cases p; (case fd => exact Or.inl ⟨rfl, fun _ _ => trivial⟩); all_goals exact Or.inr rfl) ?_
      exact Moves.refl _
    · exact Moves.refl _

theorem levelChar_moves (s : State) (n : Chan) : Moves [.fd] s (levelChar s n) := by
  unfold levelChar
  split
  · refine Moves.step (State.modFd_moves ..) rfl ?_
    exact Moves.refl _
  · exact Moves.refl _

theorem turnOn_moves (s : State) (n : Chan) : Moves [.fd] s (turnOn s n) := by
  unfold turnOn
  extract_lets +onlyGivenNames x1
  have h1 : Moves [.fd] s x1 := by
    unfold x1
    refine Moves.step (modHalves_moves ..) rfl ?_
    exact Moves.refl _
  clear_value x1
  extract_lets +onlyGivenNames x2
  clear_value x2
  extract_lets +onlyGivenNames x3
  have h3 : Moves [.fd] s x3 := by
    unfold x3
    refine Moves.ite (fun _ => ?_) (fun _ => ?_)
    · refine Moves.step (report_moves ..) rfl ?_
      assumption
    · assumption
  clear_value x3
  refine Moves.step (report_moves ..) rfl ?_
  refine Moves.step (report_moves ..) rfl ?_
  assumption

theorem floodCut_moves (s : State) (c : FdChan) : Moves [.free] s (floodCut s c).2 := by
  unfold floodCut
  split
  · dsimp -zeta only
    refine Moves.step (State.draw_moves ..) rfl ?_
    exact Moves.refl _
  · dsimp -zeta only
    exact Moves.refl _

theorem turnOff_moves (s : State) (n : Chan) : Moves [.free, .fd] s (turnOff s n) := by
  unfold turnOff
  extract_lets +onlyGivenNames x1
  clear_value x1
  extract_lets +onlyGivenNames x2
  have h2 : Moves [.free, .fd] s x2.2 := by
    unfold x2
    refine Moves.step (floodCut_moves ..) rfl ?_
    exact Moves.refl _
  clear_value x2
  extract_lets +onlyGivenNames x3
  have h3 : Moves [.free, .fd] s x3 := by
    unfold x3
    refine Moves.ite (fun _ => ?_) (fun _ => ?_)
    · refine Moves.step (report_moves ..) rfl ?_
      assumption
    · assumption
  clear_value x3
  extract_lets +onlyGivenNames x4
  have h4 : Moves [.free, .fd] s x4 := by
    unfold x4
    refine Moves.step (modHalves_moves ..) rfl ?_
    assumption
  clear_value x4
  refine Moves.step (report_moves ..) rfl ?_
  refine Moves.step (report_moves ..) rfl ?_
  assumption

theorem refuseRise_moves (s : State) (n : Chan) : Moves [.fd] s (refuseRise s n) := by
  unfold refuseRise
  extract_lets +onlyGivenNames x1
  clear_value x1
  refine Moves.step (reportStatus_moves ..) rfl ?_
  exact Moves.refl _

theorem drive_moves (s : State) (n : Chan) : Moves [.free, .fd] s (drive s n) := by
  unfold drive
  extract_lets +onlyGivenNames x1
  clear_value x1
  extract_lets +onlyGivenNames x2
  clear_value x2
  refine Moves.ite (fun _ => ?_) (fun _ => ?_)
  · refine Moves.ite (fun _ => ?_) (fun _ => ?_)
    · refine Moves.ite (fun _ => ?_) (fun _ => ?_)
      · exact Moves.refl _
      · refine Moves.ite (fun _ => ?_) (fun _ => ?_)
        · refine Moves.step (modHalves_moves ..) rfl ?_
          exact Moves.refl _
        · refine Moves.ite (fun _ => ?_) (fun _ => ?_)
          · refine Moves.ite (fun _ => ?_) (fun _ => ?_)
            · refine Moves.step (reportStatus_moves ..) rfl ?_
              exact Moves.refl _
            · exact Moves.refl _
          · refine Moves.step (turnOn_moves ..) rfl ?_
            exact Moves.refl _
    · refine Moves.ite (fun _ => ?_) (fun _ => ?_)
      · refine Moves.step (turnOff_moves ..) rfl ?_
        exact Moves.refl _
      · refine Moves.step (modHalves_moves ..) rfl ?_
        exact Moves.refl _
  · refine Moves.ite (fun _ => ?_) (fun _ => ?_)
    · exact Moves.refl _
    · extract_lets +onlyGivenNames x3
      clear_value x3
      refine Moves.ite (fun _ => ?_) (fun _ => ?_)
      · exact Moves.refl _
      · refine Moves.ite (fun _ => ?_) (fun _ => ?_)
        · refine Moves.step (refuseRise_moves ..) rfl ?_
          exact Moves.refl _
        · refine Moves.step (reportStatus_moves ..) rfl ?_
          refine Moves.step (State.modFd_moves ..) rfl ?_
          exact Moves.refl _

theorem demand_moves (s : State) (n : Chan) (f : FdChan → FdChan) : Moves [.free, .fd] s (demand s n f) := by
  unfold demand
  extract_lets +onlyGivenNames x1
  clear_value x1
  extract_lets +onlyGivenNames x2
  have h2 : Moves [.free, .fd] s x2 := by
    unfold x2
    refine Moves.step (levelChar_moves ..) rfl ?_
    refine Moves.step (State.modFd_moves ..) rfl ?_
    exact Moves.refl _
  clear_value x2
  extract_lets +onlyGivenNames x3
  clear_value x3
  refine Moves.step (drive_moves ..) rfl ?_
  refine Moves.ite (fun _ => ?_) (fun _ => ?_)
  · assumption
  · refine Moves.step (report_moves ..) rfl ?_
    assumption

theorem fdTrip_moves (s : State) (n : Chan) (bit : Fin 3) (inLimit : Bool) (ma : W16) (tj : Byte)
    : Moves [.free, .fd] s (fdTrip s n bit inLimit ma tj) := by
  unfold fdTrip
  extract_lets +onlyGivenNames x1
  clear_value x1
  extract_lets +onlyGivenNames x2
  have h2 : Moves [.free, .fd] s x2 := by
    unfold x2
    refine Moves.step (modHalves_moves ..) rfl ?_
    exact Moves.refl _
  clear_value x2
  extract_lets +onlyGivenNames x3
  have h3 : Moves [.free, .fd] s x3 := by
    unfold x3
    refine Moves.ite (fun _ => ?_) (fun _ => ?_)
    · refine Moves.step (turnOff_moves ..) rfl ?_
      assumption
    · assumption
  clear_value x3
  extract_lets +onlyGivenNames x4
  clear_value x4
  extract_lets +onlyGivenNames x5
  clear_value x5
  extract_lets +onlyGivenNames x6
  have h6 : Moves [.free, .fd] s x6 := by
    unfold x6
    refine Moves.upd rfl (fun p => by cases p; (case fd => exact Or.inl ⟨rfl, fun _ _ => trivial⟩); all_goals exact Or.inr rfl) ?_
    assumption
  clear_value x6
  refine Moves.step (report_moves ..) rfl ?_
  assumption

theorem applySafe_moves (s : State) (n : Chan) : Moves [.free, .fd] s (applySafe s n) := by
  unfold applySafe
  extract_lets +onlyGivenNames x1
  clear_value x1
  refine Moves.ite (fun _ => ?_) (fun _ => ?_)
  · refine Moves.step (refuseRise_moves ..) rfl ?_
    refine Moves.step (demand_moves ..) rfl ?_
    exact Moves.refl _
  · refine Moves.step (demand_moves ..) rfl ?_
    exact Moves.refl _

theorem applySafeAll_moves (s : State) : Moves [.free, .fd] s (applySafeAll s) := by
  unfold applySafeAll
  extract_lets +onlyGivenNames x1
  have h1 : Moves [.free, .fd] s x1 := by
    unfold x1
    refine Moves.ite (fun _ => ?_) (fun _ => ?_)
    · refine Moves.foldl (fun y2 z2 => ?_) ?_
      · refine Moves.step (State.modFd_moves ..) rfl ?_
        exact Moves.refl _
      · exact Moves.refl _
    · exact Moves.refl _
  clear_value x1
  refine Moves.step (reportStatus_moves ..) rfl ?_
  refine Moves.foldl (fun y3 z3 => ?_) ?_
  · refine Moves.step (applySafe_moves ..) rfl ?_
    exact Moves.refl _
  · assumption

theorem fieldReset_moves (s : State) : Moves [.fd] s (fieldReset s) := by
  unfold fieldReset
  refine Moves.upd rfl (fun p => by cases p; (case fd => exact Or.inl ⟨rfl, fun _ _ => trivial⟩); all_goals exact Or.inr rfl) ?_
  exact Moves.refl _

theorem configureDie.configureNote_moves (s : State) (a : State) (n : Chan)
    : Moves [.free, .fd] a (configureDie.configureNote s a n) := by
  unfold configureDie.configureNote
  extract_lets +onlyGivenNames x1
  clear_value x1
  extract_lets +onlyGivenNames x2
  clear_value x2
  extract_lets +onlyGivenNames x3
  have h3 : Moves [.free, .fd] a x3 := by
    unfold x3
    refine Moves.ite (fun _ => ?_) (fun _ => ?_)
    · refine Moves.step (reportStatus_moves ..) rfl ?_
      exact Moves.refl _
    · exact Moves.refl _
  clear_value x3
  extract_lets +onlyGivenNames x4
  have h4 : Moves [.free, .fd] a x4 := by
    unfold x4
    refine Moves.ite (fun _ => ?_) (fun _ => ?_)
    · refine Moves.step (report_moves ..) rfl ?_
      assumption
    · assumption
  clear_value x4
  extract_lets +onlyGivenNames x5
  have h5 : Moves [.free, .fd] a x5 := by
    unfold x5
    refine Moves.ite (fun _ => ?_) (fun _ => ?_)
    · refine Moves.step (report_moves ..) rfl ?_
      assumption
    · assumption
  clear_value x5
  extract_lets +onlyGivenNames x6
  have h6 : Moves [.free, .fd] a x6 := by
    unfold x6
    refine Moves.ite (fun _ => ?_) (fun _ => ?_)
    · refine Moves.step (report_moves ..) rfl ?_
      assumption
    · assumption
  clear_value x6
  extract_lets +onlyGivenNames x7
  have h7 : Moves [.free, .fd] a x7 := by
    unfold x7
    refine Moves.step (levelChar_moves ..) rfl ?_
    assumption
  clear_value x7
  extract_lets +onlyGivenNames x8
  clear_value x8
  refine Moves.step (drive_moves ..) rfl ?_
  refine Moves.ite (fun _ => ?_) (fun _ => ?_)
  · assumption
  · refine Moves.step (report_moves ..) rfl ?_
    assumption

theorem noteBlock_moves (old : State) (new : State) (n : Chan) : Moves [.fd] new (noteBlock old new n) := by
  unfold noteBlock
  refine Moves.ite (fun _ => ?_) (fun _ => ?_)
  · exact Moves.refl _
  · refine Moves.step (report_moves ..) rfl ?_
    exact Moves.refl _

theorem fieldAct_moves (s : State) (a : FieldAct) : Moves [.free, .fd] s (fieldAct s a) := by
  unfold fieldAct
  split
  · refine Moves.ite (fun _ => ?_) (fun _ => ?_)
    · refine Moves.step (refuseRise_moves ..) rfl ?_
      exact Moves.refl _
    · refine Moves.step (demand_moves ..) rfl ?_
      exact Moves.refl _
  · refine Moves.step (demand_moves ..) rfl ?_
    exact Moves.refl _
  · extract_lets +onlyGivenNames x1
    clear_value x1
    refine Moves.ite (fun _ => ?_) (fun _ => ?_)
    · refine Moves.step (report_moves ..) rfl ?_
      refine Moves.step (drive_moves ..) rfl ?_
      refine Moves.step (report_moves ..) rfl ?_
      refine Moves.step (modHalves_moves ..) rfl ?_
      exact Moves.refl _
    · refine Moves.step (reportStatus_moves ..) rfl ?_
      exact Moves.refl _
  · refine Moves.step (applySafe_moves ..) rfl ?_
    exact Moves.refl _
  · extract_lets +onlyGivenNames x2
    clear_value x2
    refine Moves.step (noteBlock_moves ..) rfl ?_
    refine Moves.step (demand_moves ..) rfl ?_
    exact Moves.refl _
  · refine Moves.step (noteBlock_moves ..) rfl ?_
    refine Moves.step (demand_moves ..) rfl ?_
    exact Moves.refl _
  · extract_lets +onlyGivenNames x3
    clear_value x3
    refine Moves.step (demand_moves ..) rfl ?_
    exact Moves.refl _
  · refine Moves.step (demand_moves ..) rfl ?_
    exact Moves.refl _
  · refine Moves.step (report_moves ..) rfl ?_
    refine Moves.step (modHalves_moves ..) rfl ?_
    exact Moves.refl _
  · extract_lets +onlyGivenNames x4
    have h4 : Moves [.free, .fd] s x4 := by
      unfold x4
      refine Moves.step (report_moves ..) rfl ?_
      refine Moves.step (modHalves_moves ..) rfl ?_
      exact Moves.refl _
    clear_value x4
    extract_lets +onlyGivenNames x5
    have h5 : Moves [.free, .fd] s x5 := by
      unfold x5
      refine Moves.step (State.modFd_moves ..) rfl ?_
      assumption
    clear_value x5
    refine Moves.ite (fun _ => ?_) (fun _ => ?_)
    · assumption
    · refine Moves.step (drive_moves ..) rfl ?_
      refine Moves.step (noteBlock_moves ..) rfl ?_
      assumption
  · refine Moves.step (reportStatus_moves ..) rfl ?_
    exact Moves.refl _
  · refine Moves.ite (fun _ => ?_) (fun _ => ?_)
    · refine Moves.step (reportStatus_moves ..) rfl ?_
      exact Moves.refl _
    · refine Moves.step (State.modFd_moves ..) rfl ?_
      exact Moves.refl _

theorem bwSend_moves (s : State) (b : L2F) : Moves [.bw] s (bwSend s b) := by
  unfold bwSend
  refine Moves.ite (fun _ => ?_) (fun _ => ?_)
  · exact Moves.refl _
  · refine Moves.ite (fun _ => ?_) (fun _ => ?_)
    · refine Moves.upd rfl (fun p => by cases p; (case bw => exact Or.inl ⟨rfl, fun _ _ => trivial⟩); all_goals exact Or.inr rfl) ?_
      exact Moves.refl _
    · refine Moves.ite (fun _ => ?_) (fun _ => ?_)
      · refine Moves.upd rfl (fun p => by cases p; (case bw => exact Or.inl ⟨rfl, fun _ _ => trivial⟩); all_goals exact Or.inr rfl) ?_
        exact Moves.refl _
      · refine Moves.upd rfl (fun p => by cases p; (case bw => exact Or.inl ⟨rfl, fun _ _ => trivial⟩); all_goals exact Or.inr rfl) ?_
        exact Moves.refl _

theorem bwRefill_moves (s : State) (v1 : ℕ) : Moves [.bw] s (bwRefill s v1) := by
  fun_induction bwRefill s v1
  · exact Moves.refl _
  · exact Moves.refl _
  · exact Moves.refl _
  · exact Moves.refl _
  · refine Moves.step (by assumption) (covers_refl _) ?_
    refine Moves.upd rfl (fun p => by cases p; (case bw => exact Or.inl ⟨rfl, fun _ _ => trivial⟩); all_goals exact Or.inr rfl) ?_
    exact Moves.refl _

theorem endSafeApp_moves (s : State) (n : Chan) : Moves [.ch, .ev, .img, .port] s (endSafeApp s n) := by
  unfold endSafeApp
  refine Moves.ite (fun _ => ?_) (fun _ => ?_)
  · refine Moves.step (refresh_moves ..) rfl ?_
    refine Moves.step (State.modCh_moves ..) rfl ?_
    exact Moves.refl _
  · exact Moves.refl _

theorem commanded_moves (s : State) (x : FieldAct) : Moves [.ch, .ev, .img, .port] s (commanded s x) := by
  unfold commanded
  split
  · refine Moves.step (endSafeApp_moves ..) rfl ?_
    exact Moves.refl _
  · exact Moves.refl _

theorem command_moves (s : State) (acts : List FieldAct) : Moves [.bw, .ch, .ev, .img, .port] s (command s acts) := by
  unfold command
  refine Moves.ite (fun _ => ?_) (fun _ => ?_)
  · exact Moves.refl _
  · refine Moves.step (bwSend_moves ..) rfl ?_
    refine Moves.foldl (fun y1 z1 => ?_) ?_
    · refine Moves.step (commanded_moves ..) rfl ?_
      exact Moves.refl _
    · exact Moves.refl _

theorem configureDie_moves (s : State) (g : Generation) (fresh : Bool) : Moves [.free, .fd] s (configureDie s g fresh) := by
  unfold configureDie
  extract_lets +onlyGivenNames x1
  clear_value x1
  extract_lets +onlyGivenNames x2
  clear_value x2
  extract_lets +onlyGivenNames x3
  clear_value x3
  extract_lets +onlyGivenNames x4
  have h4 : Moves [.free, .fd] s x4 := by
    unfold x4
    refine Moves.upd rfl (fun p => by cases p; (case fd => exact Or.inl ⟨rfl, fun _ _ => trivial⟩); all_goals exact Or.inr rfl) ?_
    exact Moves.refl _
  clear_value x4
  refine Moves.foldl (fun y5 z5 => ?_) ?_
  · refine Moves.step (configureDie.configureNote_moves ..) rfl ?_
    exact Moves.refl _
  · assumption

/-! ## WheelOps -/

theorem State.modWheel_moves (s : State) (w : WheelIx) (f : Wheel → Wheel) : Moves [.wheel] s (State.modWheel s w f) := by
  unfold State.modWheel
  refine Moves.upd rfl (fun p => by cases p; (case wheel => exact Or.inl ⟨rfl, fun _ _ => trivial⟩); all_goals exact Or.inr rfl) ?_
  exact Moves.refl _

theorem putWheels_moves (s : State) : Moves [.img] s (putWheels s) := by
  unfold putWheels
  refine Moves.step (putHealth_moves ..) rfl ?_
  exact Moves.refl _

theorem raiseTide_moves (s : State) (w : WheelIx) : Moves [.ev, .port] s (raiseTide s w) := by
  unfold raiseTide
  refine Moves.step (raise_moves ..) rfl ?_
  exact Moves.refl _

theorem setUncert_moves (s : State) (w : WheelIx) (b : Bool) : Moves [.ch, .ev, .img, .port, .wheel] s (setUncert s w b) := by
  unfold setUncert
  extract_lets +onlyGivenNames x1
  clear_value x1
  refine Moves.ite (fun _ => ?_) (fun _ => ?_)
  · exact Moves.refl _
  · refine Moves.step (refreshAll_moves ..) rfl ?_
    refine Moves.step (putWheels_moves ..) rfl ?_
    refine Moves.step (State.modWheel_moves ..) rfl ?_
    exact Moves.refl _

theorem setWheel_moves (s : State) (w : WheelIx) (st : WState) : Moves [.ch, .ev, .img, .port, .wheel] s (setWheel s w st) := by
  unfold setWheel
  refine Moves.ite (fun _ => ?_) (fun _ => ?_)
  · exact Moves.refl _
  · extract_lets +onlyGivenNames x1
    have h1 : Moves [.ch, .ev, .img, .port, .wheel] s x1 := by
      unfold x1
      refine Moves.step (State.modWheel_moves ..) rfl ?_
      exact Moves.refl _
    clear_value x1
    extract_lets +onlyGivenNames x2
    have h2 : Moves [.ch, .ev, .img, .port, .wheel] s x2 := by
      unfold x2
      split
      · refine Moves.step (setUncert_moves ..) rfl ?_
        assumption
      · refine Moves.step (setUncert_moves ..) rfl ?_
        assumption
      · refine Moves.step (setUncert_moves ..) rfl ?_
        assumption
      · refine Moves.step (setUncert_moves ..) rfl ?_
        assumption
      · assumption
    clear_value x2
    extract_lets +onlyGivenNames x3
    have h3 : Moves [.ch, .ev, .img, .port, .wheel] s x3 := by
      unfold x3
      refine Moves.step (raiseTide_moves ..) rfl ?_
      refine Moves.step (putWheels_moves ..) rfl ?_
      assumption
    clear_value x3
    refine Moves.ite (fun _ => ?_) (fun _ => ?_)
    · refine Moves.step (raise_moves ..) rfl ?_
      assumption
    · assumption

theorem wheelsStop_moves (s : State) : Moves [.ch, .ev, .img, .port, .wheel] s (wheelsStop s) := by
  unfold wheelsStop
  refine Moves.foldl (fun y1 z1 => ?_) ?_
  · refine Moves.ite (fun _ => ?_) (fun _ => ?_)
    · refine Moves.step (setWheel_moves ..) rfl ?_
      refine Moves.step (State.modWheel_moves ..) rfl ?_
      exact Moves.refl _
    · exact Moves.refl _
  · exact Moves.refl _

theorem wheelLost_moves (s : State) (w : WheelIx) (byRef : Bool) : Moves [.ch, .ev, .img, .port, .wheel] s (wheelLost s w byRef) := by
  unfold wheelLost
  extract_lets +onlyGivenNames x1
  clear_value x1
  extract_lets +onlyGivenNames x2
  have h2 : Moves [.ch, .ev, .img, .port, .wheel] s x2 := by
    unfold x2
    refine Moves.step (State.modWheel_moves ..) rfl ?_
    exact Moves.refl _
  clear_value x2
  refine Moves.ite (fun _ => ?_) (fun _ => ?_)
  · refine Moves.step (setWheel_moves ..) rfl ?_
    refine Moves.step (State.modWheel_moves ..) rfl ?_
    assumption
  · assumption

theorem wheelReinit_moves (s : State) (w : WheelIx) : Moves [.ch, .ev, .img, .port, .wheel] s (wheelReinit s w) := by
  unfold wheelReinit
  refine Moves.ite (fun _ => ?_) (fun _ => ?_)
  · refine Moves.step (State.modWheel_moves ..) rfl ?_
    exact Moves.refl _
  · extract_lets +onlyGivenNames x1
    have h1 : Moves [.ch, .ev, .img, .port, .wheel] s x1 := by
      unfold x1
      refine Moves.step (State.modWheel_moves ..) rfl ?_
      exact Moves.refl _
    clear_value x1
    extract_lets +onlyGivenNames x2
    clear_value x2
    refine Moves.ite (fun _ => ?_) (fun _ => ?_)
    · refine Moves.step (raiseTide_moves ..) rfl ?_
      assumption
    · refine Moves.step (setWheel_moves ..) rfl ?_
      assumption

theorem wheelStart_moves (s : State) (readopt : Bool) (w : WheelIx)
    : Moves [.ch, .ev, .img, .port, .wheel] s (wheelStart s readopt w) := by
  unfold wheelStart
  extract_lets +onlyGivenNames x1
  clear_value x1
  extract_lets +onlyGivenNames x2
  clear_value x2
  extract_lets +onlyGivenNames x3
  clear_value x3
  extract_lets +onlyGivenNames x4
  have h4 : Moves [.ch, .ev, .img, .port, .wheel] s x4 := by
    unfold x4
    refine Moves.step (State.modWheel_moves ..) rfl ?_
    exact Moves.refl _
  clear_value x4
  refine Moves.step (setWheel_moves ..) rfl ?_
  assumption

theorem wheelsStart_moves (s : State) (readopt : Bool) : Moves [.ch, .ev, .img, .port, .wheel] s (wheelsStart s readopt) := by
  unfold wheelsStart
  refine Moves.foldl (fun y1 z1 => ?_) ?_
  · refine Moves.step (wheelStart_moves ..) rfl ?_
    exact Moves.refl _
  · exact Moves.refl _

theorem wheelConfigure_moves (s : State) (o : TideCfg) (w : WheelIx)
    : Moves [.ch, .ev, .img, .port, .wheel] s (wheelConfigure s o w) := by
  unfold wheelConfigure
  extract_lets +onlyGivenNames x1
  clear_value x1
  refine Moves.ite (fun _ => ?_) (fun _ => ?_)
  · exact Moves.refl _
  · refine Moves.ite (fun _ => ?_) (fun _ => ?_)
    · extract_lets +onlyGivenNames x2
      have h2 : Moves [.ch, .ev, .img, .port, .wheel] s x2 := by
        unfold x2
        refine Moves.step (State.modWheel_moves ..) rfl ?_
        exact Moves.refl _
      clear_value x2
      refine Moves.step (setWheel_moves ..) rfl ?_
      assumption
    · refine Moves.ite (fun _ => ?_) (fun _ => ?_)
      · refine Moves.step (State.modWheel_moves ..) rfl ?_
        exact Moves.refl _
      · exact Moves.refl _

theorem captureEvent_moves (s : State) (w : WheelIx) (phi : W32) (t : W64) : Moves [.wheel] s (captureEvent s w phi t) := by
  unfold captureEvent
  refine Moves.step (State.modWheel_moves ..) rfl ?_
  exact Moves.refl _

theorem rejectEvent_moves (s : State) (w : WheelIx) : Moves [.wheel] s (rejectEvent s w) := by
  unfold rejectEvent
  refine Moves.step (State.modWheel_moves ..) rfl ?_
  exact Moves.refl _

theorem processEvent_moves (s : State) (w : WheelIx) (v : RefEvent) : Moves [.ch, .ev, .img, .port, .wheel] s (processEvent s w v) := by
  unfold processEvent
  extract_lets +onlyGivenNames x1
  clear_value x1
  extract_lets +onlyGivenNames x2
  clear_value x2
  extract_lets +onlyGivenNames x3
  clear_value x3
  extract_lets +onlyGivenNames x4
  extract_lets +onlyGivenNames x5
  have h5 : Moves [.ch, .ev, .img, .port, .wheel] s x5 := by
    unfold x5
    refine Moves.step (State.modWheel_moves ..) rfl ?_
    exact Moves.refl _
  clear_value x5
  extract_lets +onlyGivenNames x6
  have h6 : Moves [.ch, .ev, .img, .port, .wheel] s x6 := by
    unfold x6
    refine Moves.ite (fun _ => ?_) (fun _ => ?_)
    · refine Moves.step (setUncert_moves ..) rfl ?_
      assumption
    · assumption
  clear_value x6
  refine Moves.ite (fun _ => ?_) (fun _ => ?_)
  · refine Moves.step (State.modWheel_moves ..) rfl ?_
    assumption
  · extract_lets +onlyGivenNames x7
    have h7 : Moves [.ch, .ev, .img, .port, .wheel] s x7 := by
      unfold x7
      refine Moves.ite (fun _ => ?_) (fun _ => ?_)
      · refine Moves.step (setWheel_moves ..) rfl ?_
        assumption
      · assumption
    clear_value x7
    extract_lets +onlyGivenNames x8
    have h8 : Moves [.ch, .ev, .img, .port, .wheel] s x8 := by
      unfold x8
      refine Moves.ite (fun _ => ?_) (fun _ => ?_)
      · refine Moves.step (setWheel_moves ..) rfl ?_
        assumption
      · assumption
    clear_value x8
    extract_lets +onlyGivenNames x9
    have h9 : Moves [.ch, .ev, .img, .port, .wheel] s x9 := by
      unfold x9
      refine Moves.step (State.modWheel_moves ..) rfl ?_
      assumption
    clear_value x9
    extract_lets +onlyGivenNames x10
    have h10 : Moves [.ch, .ev, .img, .port, .wheel] s x10 := by
      unfold x10
      refine Moves.ite (fun _ => ?_) (fun _ => ?_)
      · refine Moves.step (State.modWheel_moves ..) rfl ?_
        assumption
      · refine Moves.step (State.modWheel_moves ..) rfl ?_
        assumption
    clear_value x10
    refine Moves.ite (fun _ => ?_) (fun _ => ?_)
    · refine Moves.step (setWheel_moves ..) rfl ?_
      assumption
    · assumption

theorem applyInc_moves (s : State) (w : WheelIx) (p : PendingInc) : Moves [.wheel] s (applyInc s w p) := by
  unfold applyInc
  refine Moves.step (State.modWheel_moves ..) rfl ?_
  exact Moves.refl _

/-! ## LinkOps -/

theorem raiseLinkErr_moves (s : State) (k : PortIx) : Moves [.ev, .port] s (raiseLinkErr s k) := by
  unfold raiseLinkErr
  refine Moves.step (raise_moves ..) rfl ?_
  exact Moves.refl _

theorem crcError_moves (s : State) (k : PortIx) : Moves [.ev, .port] s (crcError s k) := by
  unfold crcError
  extract_lets +onlyGivenNames x1
  have h1 : Moves [.ev, .port] s x1 := by
    unfold x1
    refine Moves.step (State.modPort_moves ..) rfl ?_
    exact Moves.refl _
  clear_value x1
  extract_lets +onlyGivenNames x2
  clear_value x2
  refine Moves.ite (fun _ => ?_) (fun _ => ?_)
  · refine Moves.step (raiseLinkErr_moves ..) rfl ?_
    refine Moves.step (State.modPort_moves ..) rfl ?_
    assumption
  · assumption

theorem trainingFrame_moves (s : State) (k : PortIx) (h : LinkHeader) (m : LinkMsg) : Moves [.ev, .port] s (trainingFrame s k h m) := by
  unfold trainingFrame
  refine Moves.ite (fun _ => ?_) (fun _ => ?_)
  · exact Moves.refl _
  · refine Moves.ite (fun _ => ?_) (fun _ => ?_)
    · refine Moves.step (State.modPort_moves ..) rfl ?_
      exact Moves.refl _
    · refine Moves.ite (fun _ => ?_) (fun _ => ?_)
      · refine Moves.step (crcError_moves ..) rfl ?_
        exact Moves.refl _
      · exact Moves.refl _

theorem receiveFrame_moves {ps : List Part} (hc : covers ps [.ev, .port] = true) (s : State) (k : PortIx) (h : LinkHeader) (m : LinkMsg)
    (hold : Bool) (f : State → State) (hf5 : ∀ a0, Moves ps a0 (f a0)) : Moves ps s (receiveFrame s k h m hold f) := by
  unfold receiveFrame
  refine Moves.ite (fun _ => ?_) (fun _ => ?_)
  · refine Moves.step (trainingFrame_moves ..) (covers_trans hc rfl) ?_
    exact Moves.refl _
  · extract_lets +onlyGivenNames x1
    clear_value x1
    refine Moves.ite (fun _ => ?_) (fun _ => ?_)
    · refine Moves.step (State.modPort_moves ..) (covers_trans hc rfl) ?_
      exact Moves.refl _
    · refine Moves.ite (fun _ => ?_) (fun _ => ?_)
      · refine Moves.step (State.modPort_moves ..) (covers_trans hc rfl) ?_
        refine Moves.step (crcError_moves ..) (covers_trans hc rfl) ?_
        exact Moves.refl _
      · refine Moves.ite (fun _ => ?_) (fun _ => ?_)
        · refine Moves.step (State.modPort_moves ..) (covers_trans hc rfl) ?_
          exact Moves.refl _
        · extract_lets +onlyGivenNames x2
          clear_value x2
          extract_lets +onlyGivenNames x3
          have h3 : Moves ps s x3 := by
            unfold x3
            refine Moves.step (State.modPort_moves ..) (covers_trans hc rfl) ?_
            exact Moves.refl _
          clear_value x3
          refine Moves.ite (fun _ => ?_) (fun _ => ?_)
          · refine Moves.step (hf5 ..) (covers_refl _) ?_
            assumption
          · refine Moves.step (State.modPort_moves ..) (covers_trans hc rfl) ?_
            assumption

theorem modEntry_moves (s : State) (j : Fin 256) (f : EntryState → EntryState) : Moves [.img] s (modEntry s j f) := by
  unfold modEntry
  refine Moves.upd rfl (fun p => by cases p; (case img => exact Or.inl ⟨rfl, fun _ h => h .img⟩); all_goals exact Or.inr rfl) ?_
  exact Moves.refl _

theorem raiseMember_moves (s : State) (j : Fin 256) : Moves [.ev, .port] s (raiseMember s j) := by
  unfold raiseMember
  extract_lets +onlyGivenNames x1
  clear_value x1
  refine Moves.step (raise_moves ..) rfl ?_
  exact Moves.refl _

theorem overrideCopies_moves (s : State) (e : GroupEntry) (q : BitVec 4) : Moves [.img] s (overrideCopies s e q) := by
  unfold overrideCopies
  extract_lets +onlyGivenNames x1
  extract_lets +onlyGivenNames x2
  have h2 : Moves [.img] s x2 := by
    unfold x2
    refine Moves.foldl (fun y3 z3 => ?_) ?_
    · extract_lets +onlyGivenNames x4
      refine Moves.ite (fun _ => ?_) (fun _ => ?_)
      · exact Moves.refl _
      · refine Moves.step (noteChange_moves ..) rfl ?_
        exact Moves.refl _
    · exact Moves.refl _
  clear_value x2
  refine Moves.upd rfl (fun p => by
      cases p
      case img => exact Or.inl ⟨rfl, fun h0 h => ⟨⟨(h .img).1.1, swf_foldl (fun _ _ x => swf_swrite x _ _) (h0 .img).1.2.1, (h .img).1.2.2⟩, (h .img).2⟩⟩
      all_goals exact Or.inr rfl) ?_
  assumption

theorem copiesNoComm_moves (s : State) (e : GroupEntry) : Moves [.img] s (copiesNoComm s e) := by
  unfold copiesNoComm
  refine Moves.ite (fun _ => ?_) (fun _ => ?_)
  · exact Moves.refl _
  · extract_lets +onlyGivenNames x1
    extract_lets +onlyGivenNames x2
    have h2 : Moves [.img] s x2 := by
      unfold x2
      refine Moves.foldl (fun y3 z3 => ?_) ?_
      · refine Moves.step (noteChange_moves ..) rfl ?_
        exact Moves.refl _
      · exact Moves.refl _
    clear_value x2
    refine Moves.upd rfl (fun p => by
        cases p
        case img => exact Or.inl ⟨rfl, fun h0 h => ⟨⟨(h .img).1.1, swf_filterMap (h0 .img).1.2.1 _ fun c d hd => by grind, (h .img).1.2.2⟩, (h .img).2⟩⟩
        all_goals exact Or.inr rfl) ?_
    assumption

theorem entryLost_moves (s : State) (j : Fin 256) (e : GroupEntry) : Moves [.ev, .img, .port] s (entryLost s j e) := by
  unfold entryLost
  refine Moves.step (raiseMember_moves ..) rfl ?_
  refine Moves.step (modEntry_moves ..) rfl ?_
  refine Moves.step (copiesNoComm_moves ..) rfl ?_
  exact Moves.refl _

theorem entriesLost_moves (s : State) (k : PortIx) : Moves [.ev, .img, .port] s (entriesLost s k) := by
  unfold entriesLost
  refine Moves.foldl (fun y1 z1 => ?_) ?_
  · refine Moves.ite (fun _ => ?_) (fun _ => ?_)
    · refine Moves.step (entryLost_moves ..) rfl ?_
      exact Moves.refl _
    · exact Moves.refl _
  · exact Moves.refl _

theorem entryArrival_moves (s : State) (j : Fin 256) (sweep : Bool) : Moves [.img] s (entryArrival s j sweep) := by
  unfold entryArrival
  refine Moves.step (modEntry_moves ..) rfl ?_
  exact Moves.refl _

theorem entriesUp_moves (s : State) (k : PortIx) : Moves [.img] s (entriesUp s k) := by
  unfold entriesUp
  refine Moves.foldl (fun y1 z1 => ?_) ?_
  · refine Moves.ite (fun _ => ?_) (fun _ => ?_)
    · refine Moves.step (modEntry_moves ..) rfl ?_
      exact Moves.refl _
    · exact Moves.refl _
  · exact Moves.refl _

theorem putLinks_moves (s : State) : Moves [.img] s (putLinks s) := by
  unfold putLinks
  refine Moves.step (putHealth_moves ..) rfl ?_
  exact Moves.refl _

theorem setPortState_moves (s : State) (k : PortIx) (st : PortState) : Moves [.ev, .img, .port] s (setPortState s k st) := by
  unfold setPortState
  refine Moves.ite (fun _ => ?_) (fun _ => ?_)
  · exact Moves.refl _
  · extract_lets +onlyGivenNames x1
    have h1 : Moves [.ev, .img, .port] s x1 := by
      unfold x1
      refine Moves.step (State.modPort_moves ..) rfl ?_
      exact Moves.refl _
    clear_value x1
    refine Moves.step (putLinks_moves ..) rfl ?_
    refine Moves.step (raise_moves ..) rfl ?_
    assumption

theorem closeMerge_moves (s : State) (id : ℕ) : Moves [.img, .port] s (closeMerge s id) := by
  unfold closeMerge
  split
  · exact Moves.refl _
  · refine Moves.ite (fun _ => ?_) (fun _ => ?_)
    · extract_lets +onlyGivenNames x1
      extract_lets +onlyGivenNames x2
      have h2 : Moves [.img, .port] s x2 := by
        unfold x2
        refine Moves.upd rfl (fun p => by
            cases p
            case img => exact Or.inl ⟨rfl, fun _ h => ⟨(h .img).1, merge_filtered (h .img).2.1 _, (h .img).2.2⟩⟩
            all_goals exact Or.inr rfl) ?_
        exact Moves.refl _
      clear_value x2
      refine Moves.step (sendResponse_moves ..) rfl ?_
      assumption
    · exact Moves.refl _

theorem mergeFill_moves (s : State) (id : ℕ) (pos : List ℕ) (rs : List Byte) : Moves [.img, .port] s (mergeFill s id pos rs) := by
  unfold mergeFill
  refine Moves.step (closeMerge_moves ..) rfl ?_
  refine Moves.upd rfl (fun p => by
      cases p
      case img => exact Or.inl ⟨rfl, fun _ h => ⟨(h .img).1, merge_mapped (h .img).2.1 fun g => by split <;> rfl, (h .img).2.2⟩⟩
      all_goals exact Or.inr rfl) ?_
  exact Moves.refl _

theorem modFences_moves (s : State) (f : PendingFence → PendingFence) : Moves [.img] s (modFences s f) := by
  unfold modFences
  refine Moves.upd rfl (fun p => by
      cases p
      case img => exact Or.inl ⟨rfl, fun _ h => ⟨(h .img).1, (h .img).2.1, (List.length_map ..).trans_le (h .img).2.2.1, (List.length_map ..).trans_le (h .img).2.2.2⟩⟩
      all_goals exact Or.inr rfl) ?_
  exact Moves.refl _

theorem fenceHeard_moves (s : State) (id : ℕ) (k : PortIx) (part : Bool) : Moves [.img] s (fenceHeard s id k part) := by
  unfold fenceHeard
  refine Moves.step (modFences_moves ..) rfl ?_
  exact Moves.refl _

theorem fenceWriteDone_moves (s : State) (id : ℕ) : Moves [.img] s (fenceWriteDone s id) := by
  unfold fenceWriteDone
  refine Moves.step (modFences_moves ..) rfl ?_
  exact Moves.refl _

theorem fenceWordsSent_moves (s : State) (id : ℕ) (ws : List (BitVec 20)) : Moves [.img] s (fenceWordsSent s id ws) := by
  unfold fenceWordsSent
  refine Moves.step (modFences_moves ..) rfl ?_
  exact Moves.refl _

theorem fenceRouted_moves (s : State) (id : ℕ) (n : ℕ) : Moves [.img] s (fenceRouted s id n) := by
  unfold fenceRouted
  refine Moves.step (modFences_moves ..) rfl ?_
  exact Moves.refl _

theorem fenceUpdateDone_moves (s : State) (id : ℕ) : Moves [.img] s (fenceUpdateDone s id) := by
  unfold fenceUpdateDone
  refine Moves.step (modFences_moves ..) rfl ?_
  exact Moves.refl _

theorem fenceUpdateFailed_moves (s : State) (id : ℕ) (ws : List (BitVec 20)) : Moves [.img] s (fenceUpdateFailed s id ws) := by
  unfold fenceUpdateFailed
  refine Moves.step (modFences_moves ..) rfl ?_
  exact Moves.refl _

theorem dropOut_moves (s : State) (r : OutRequest) : Moves [.img] s (dropOut s r) := by
  unfold dropOut
  refine Moves.upd rfl (fun p => by cases p; (case img => exact Or.inl ⟨rfl, fun _ h => h .img⟩); all_goals exact Or.inr rfl) ?_
  exact Moves.refl _

theorem requestFailed_moves (s : State) (r : OutRequest) (code : Byte) : Moves [.ev, .img, .port, .rul] s (requestFailed s r code) := by
  unfold requestFailed
  extract_lets +onlyGivenNames x1
  clear_value x1
  extract_lets +onlyGivenNames x2
  have h2 : Moves [.ev, .img, .port, .rul] s x2 := by
    unfold x2
    refine Moves.step (dropOut_moves ..) rfl ?_
    exact Moves.refl _
  clear_value x2
  extract_lets +onlyGivenNames x3
  have h3 : Moves [.ev, .img, .port, .rul] s x3 := by
    unfold x3
    refine Moves.ite (fun _ => ?_) (fun _ => ?_)
    · refine Moves.step (State.modPort_moves ..) rfl ?_
      assumption
    · assumption
  clear_value x3
  split
  · refine Moves.step (fenceWriteDone_moves ..) rfl ?_
    refine Moves.foldl (fun y4 z4 => ?_) ?_
    · refine Moves.step (recordRefusal_moves ..) rfl ?_
      exact Moves.refl _
    · assumption
  · extract_lets +onlyGivenNames x5
    have h5 : Moves [.ev, .img, .port, .rul] s x5 := by
      unfold x5
      refine Moves.step (fenceWriteDone_moves ..) rfl ?_
      assumption
    clear_value x5
    split
    · refine Moves.ite (fun _ => ?_) (fun _ => ?_)
      · refine Moves.step (sendResponse_moves ..) rfl ?_
        refine Moves.upd rfl (fun p => by
            cases p
            case img => exact Or.inl ⟨rfl, fun _ h => ⟨(h .img).1, merge_filtered (h .img).2.1 _, (h .img).2.2⟩⟩
            all_goals exact Or.inr rfl) ?_
        assumption
      · refine Moves.step (mergeFill_moves ..) rfl ?_
        assumption
    · assumption
  · refine Moves.step (fenceHeard_moves ..) rfl ?_
    assumption
  · assumption
  · refine Moves.step (fenceUpdateFailed_moves ..) rfl ?_
    refine Moves.upd rfl (fun p => by cases p; (case img => exact Or.inl ⟨rfl, fun _ h => h .img⟩); all_goals exact Or.inr rfl) ?_
    assumption

theorem clearOut_moves (s : State) : Moves [.port] s (clearOut s) := by
  unfold clearOut
  refine Moves.upd rfl (fun p => by cases p; (case port => exact Or.inl ⟨rfl, fun _ _ => trivial⟩); all_goals exact Or.inr rfl) ?_
  exact Moves.refl _

theorem releaseBuffer_moves (s : State) (k : PortIx) (b : BufferedRequest) : Moves [.port] s (releaseBuffer s k b) := by
  unfold releaseBuffer
  refine Moves.ite (fun _ => ?_) (fun _ => ?_)
  · exact Moves.refl _
  · refine Moves.step (State.modPort_moves ..) rfl ?_
    exact Moves.refl _

theorem dropBuffered_moves (s : State) (k : PortIx) (b : BufferedRequest) : Moves [.img, .port] s (dropBuffered s k b) := by
  unfold dropBuffered
  refine Moves.step (fenceWriteDone_moves ..) rfl ?_
  refine Moves.step (State.modPort_moves ..) rfl ?_
  refine Moves.step (releaseBuffer_moves ..) rfl ?_
  exact Moves.refl _

theorem failPort_moves (s : State) (k : PortIx) : Moves [.ev, .img, .port, .rul] s (failPort s k) := by
  unfold failPort
  refine Moves.foldl (fun y1 z1 => ?_) ?_
  · split
    · exact Moves.refl _
    · refine Moves.step (requestFailed_moves ..) rfl ?_
      exact Moves.refl _
  · exact Moves.refl _

theorem freeHeld_moves (s : State) (f : TxFrame) : Moves [.port] s (freeHeld s f) := by
  unfold freeHeld
  split
  · refine Moves.ite (fun _ => ?_) (fun _ => ?_)
    · refine Moves.step (State.modPort_moves ..) rfl ?_
      exact Moves.refl _
    · exact Moves.refl _
  · exact Moves.refl _

theorem dropHolds_moves (s : State) (k : PortIx) : Moves [.port] s (dropHolds s k) := by
  unfold dropHolds
  extract_lets +onlyGivenNames x1
  have h1 : Moves [.port] s x1 := by
    unfold x1
    refine Moves.foldl (fun y2 z2 => ?_) ?_
    · refine Moves.step (freeHeld_moves ..) rfl ?_
      exact Moves.refl _
    · exact Moves.refl _
  clear_value x1
  refine Moves.upd rfl (fun p => by cases p; (case port => exact Or.inl ⟨rfl, fun _ _ => trivial⟩); all_goals exact Or.inr rfl) ?_
  assumption

theorem wheelsOfPort_moves (s : State) (k : PortIx) : Moves [.ch, .ev, .img, .port, .wheel] s (wheelsOfPort s k) := by
  unfold wheelsOfPort
  refine Moves.foldl (fun y1 z1 => ?_) ?_
  · refine Moves.ite (fun _ => ?_) (fun _ => ?_)
    · refine Moves.step (wheelLost_moves ..) rfl ?_
      exact Moves.refl _
    · exact Moves.refl _
  · exact Moves.refl _

theorem portLeave_moves (s : State) (k : PortIx) (cause : BitVec 4) (st : PortState)
    : Moves [.ch, .ev, .img, .port, .wheel, .rul] s (portLeave s k cause st) := by
  unfold portLeave
  refine Moves.ite (fun _ => ?_) (fun _ => ?_)
  · exact Moves.refl _
  · extract_lets +onlyGivenNames x1
    extract_lets +onlyGivenNames x2
    extract_lets +onlyGivenNames x3
    extract_lets +onlyGivenNames x4
    have h4 : Moves [.ch, .ev, .img, .port, .wheel, .rul] s x4 := by
      unfold x4
      refine Moves.foldl (fun y5 z5 => ?_) ?_
      · refine Moves.step (fenceWriteDone_moves ..) rfl ?_
        exact Moves.refl _
      · refine Moves.step (dropHolds_moves ..) rfl ?_
        exact Moves.refl _
    clear_value x4
    extract_lets +onlyGivenNames x6
    have h6 : Moves [.ch, .ev, .img, .port, .wheel, .rul] s x6 := by
      unfold x6
      refine Moves.step (failPort_moves ..) rfl ?_
      refine Moves.step (State.modPort_moves ..) rfl ?_
      assumption
    clear_value x6
    extract_lets +onlyGivenNames x7
    have h7 : Moves [.ch, .ev, .img, .port, .wheel, .rul] s x7 := by
      unfold x7
      refine Moves.ite (fun _ => ?_) (fun _ => ?_)
      · refine Moves.step (putLinks_moves ..) rfl ?_
        refine Moves.step (raise_moves ..) rfl ?_
        assumption
      · assumption
    clear_value x7
    extract_lets +onlyGivenNames x8
    have h8 : Moves [.ch, .ev, .img, .port, .wheel, .rul] s x8 := by
      unfold x8
      refine Moves.ite (fun _ => ?_) (fun _ => ?_)
      · refine Moves.step (raiseLinkErr_moves ..) rfl ?_
        assumption
      · assumption
    clear_value x8
    refine Moves.ite (fun _ => ?_) (fun _ => ?_)
    · refine Moves.step (wheelsOfPort_moves ..) rfl ?_
      refine Moves.step (entriesLost_moves ..) rfl ?_
      assumption
    · assumption

theorem portReinit_moves (s : State) (k : PortIx) (cause : BitVec 4)
    : Moves [.ch, .ev, .img, .port, .wheel, .rul] s (portReinit s k cause) := by
  unfold portReinit
  refine Moves.step (portLeave_moves ..) rfl ?_
  exact Moves.refl _

theorem portsDown_moves (s : State) (cause : BitVec 4) : Moves [.ch, .ev, .img, .port, .wheel, .rul] s (portsDown s cause) := by
  unfold portsDown
  refine Moves.foldl (fun y1 z1 => ?_) ?_
  · refine Moves.step (portReinit_moves ..) rfl ?_
    exact Moves.refl _
  · refine Moves.step (clearOut_moves ..) rfl ?_
    exact Moves.refl _

theorem placeFence_moves (s : State) (tag : W16) (src : FenceSource) (budget : W16)
    : Moves [.img, .port] s (placeFence s tag src budget).1 := by
  unfold placeFence
  extract_lets +onlyGivenNames x1
  extract_lets +onlyGivenNames x2
  split
  · dsimp -zeta only
    refine Moves.upd rfl (fun p => by cases p; (case img => exact Or.inl ⟨rfl, fun _ h => h .img⟩); all_goals exact Or.inr rfl) ?_
    exact Moves.refl _
  · extract_lets +onlyGivenNames x3
    extract_lets +onlyGivenNames x4
    extract_lets +onlyGivenNames x5
    extract_lets +onlyGivenNames x6
    extract_lets +onlyGivenNames x7
    extract_lets +onlyGivenNames x8
    extract_lets +onlyGivenNames x9
    extract_lets +onlyGivenNames x10
    extract_lets +onlyGivenNames x11
    have h11 : Moves [.img, .port] s x11 := by
      unfold x11
      refine Moves.upd rfl (fun p => by
          cases p
          case img => exact Or.inl ⟨rfl, fun _ h => ⟨(h .img).1, fun g hg => Nat.lt_succ_of_lt ((h .img).2.1 g hg), fence_added (h .img).2.2 (by assumption) _⟩⟩
          all_goals exact Or.inr rfl) ?_
      exact Moves.refl _
    clear_value x11
    dsimp -zeta only
    refine Moves.foldl (fun y12 z12 => ?_) ?_
    · refine Moves.step (sendRequest_moves ..) rfl ?_
      exact Moves.refl _
    · assumption

theorem fenceTag_moves (s : State) (tag : W16) : Moves [.boot, .recov, .ev, .port] s (fenceTag s tag) := by
  unfold fenceTag
  extract_lets +onlyGivenNames x1
  clear_value x1
  extract_lets +onlyGivenNames x2
  have h2 : Moves [.boot, .recov, .ev, .port] s x2 := by
    unfold x2
    refine Moves.upd rfl (fun p => by cases p; (case boot => exact Or.inl ⟨rfl, fun _ _ => trivial⟩); all_goals exact Or.inr rfl) ?_
    exact Moves.refl _
  clear_value x2
  refine Moves.ite (fun _ => ?_) (fun _ => ?_)
  · extract_lets +onlyGivenNames x3
    extract_lets +onlyGivenNames x4
    have h4 : Moves [.boot, .recov, .ev, .port] s x4 := by
      unfold x4
      refine Moves.upd rfl (fun p => by cases p; (case recov => exact Or.inl ⟨rfl, fun _ h => h .recov⟩); all_goals exact Or.inr rfl) ?_
      assumption
    clear_value x4
    refine Moves.step (raise_moves ..) rfl ?_
    assumption
  · assumption

/-! ## ModeOps -/

theorem putMode_moves (s : State) : Moves [.img] s (putMode s) := by
  unfold putMode
  extract_lets +onlyGivenNames x1
  clear_value x1
  refine Moves.step (putHealth_moves ..) rfl ?_
  exact Moves.refl _

theorem autoDetach_moves (s : State) : Moves [.triad, .ev, .port] s (autoDetach s) := by
  unfold autoDetach
  refine Moves.ite (fun _ => ?_) (fun _ => ?_)
  · extract_lets +onlyGivenNames x1
    extract_lets +onlyGivenNames x2
    have h2 : Moves [.triad, .ev, .port] s x2 := by
      unfold x2
      refine Moves.upd rfl (fun p => by cases p; (case triad => exact Or.inl ⟨rfl, fun _ h => h .triad⟩); all_goals exact Or.inr rfl) ?_
      exact Moves.refl _
    clear_value x2
    refine Moves.step (raise_moves ..) rfl ?_
    assumption
  · exact Moves.refl _

theorem markSafe_moves (s : State) (b : Bool) : Moves [.ch] s (markSafe s b) := by
  unfold markSafe
  refine Moves.upd rfl (fun p => by cases p; (case ch => exact Or.inl ⟨rfl, fun _ _ => trivial⟩); all_goals exact Or.inr rfl) ?_
  exact Moves.refl _

theorem modeChanged_moves (s2 : State) (mode : Mode)
    : Moves [.triad, .ch, .ev, .img, .port, .trim, .rul, .pins] s2 (modeChanged s2 mode) := by
  unfold modeChanged
  extract_lets +onlyGivenNames x1
  clear_value x1
  extract_lets +onlyGivenNames x2
  clear_value x2
  extract_lets +onlyGivenNames x3
  have h3 : Moves [.triad, .ch, .ev, .img, .port, .trim, .rul, .pins] s2 x3 := by
    unfold x3
    refine Moves.ite (fun _ => ?_) (fun _ => ?_)
    · exact Moves.refl _
    · refine Moves.upd rfl (fun p => by cases p; (case rul | pins => exact Or.inl ⟨rfl, fun _ _ => trivial⟩); all_goals exact Or.inr rfl) ?_
      exact Moves.refl _
  clear_value x3
  extract_lets +onlyGivenNames x4
  clear_value x4
  extract_lets +onlyGivenNames x5
  clear_value x5
  extract_lets +onlyGivenNames x6
  have h6 : Moves [.triad, .ch, .ev, .img, .port, .trim, .rul, .pins] s2 x6 := by
    unfold x6
    refine Moves.ite (fun _ => ?_) (fun _ => ?_)
    · assumption
    · refine Moves.upd rfl (fun p => by
          cases p
          case trim | pins => exact Or.inl ⟨rfl, fun _ _ => trivial⟩
          all_goals exact Or.inr rfl) ?_
      assumption
  clear_value x6
  refine Moves.step (refreshAll_moves ..) rfl ?_
  refine Moves.step (autoDetach_moves ..) rfl ?_
  assumption

theorem writeMode_moves (s : State) (mode : Mode) (cause : Byte) : Moves [.m, .img] s (writeMode s mode cause) := by
  unfold writeMode
  refine Moves.step (putMode_moves ..) rfl ?_
  refine Moves.upd rfl (fun p => by cases p; (case m => exact Or.inl ⟨rfl, fun _ _ => trivial⟩); all_goals exact Or.inr rfl) ?_
  exact Moves.refl _

theorem raiseReduced_moves (s : State) : Moves [.m, .ev, .port] s (raiseReduced s) := by
  unfold raiseReduced
  split
  · refine Moves.step (raiseAt_moves ..) rfl ?_
    refine Moves.upd rfl (fun p => by cases p; (case m => exact Or.inl ⟨rfl, fun _ _ => trivial⟩); all_goals exact Or.inr rfl) ?_
    exact Moves.refl _
  · exact Moves.refl _

theorem setMode_moves (s : State) (mode : Mode) (cause : Byte)
    : Moves [.m, .triad, .ch, .ev, .img, .port, .trim, .rul, .pins] s (setMode s mode cause) := by
  unfold setMode
  extract_lets +onlyGivenNames x1
  have h1 : Moves [.m, .triad, .ch, .ev, .img, .port, .trim, .rul, .pins] s x1 := by
    unfold x1
    refine Moves.step (writeMode_moves ..) rfl ?_
    refine Moves.step (raiseReduced_moves ..) rfl ?_
    exact Moves.refl _
  clear_value x1
  refine Moves.step (modeChanged_moves ..) rfl ?_
  refine Moves.step (raise_moves ..) rfl ?_
  assumption

theorem putDir_moves (s : State) (n : Chan) : Moves [.loop] s (putDir s n) := by
  unfold putDir
  refine Moves.step (State.modLoop_moves ..) rfl ?_
  exact Moves.refl _

theorem putLoop_moves (s : State) (n : Chan) : Moves [.ev, .img, .port, .loop] s (putLoop s n) := by
  unfold putLoop
  refine Moves.ite (fun _ => ?_) (fun _ => ?_)
  · refine Moves.step (putCommands_moves ..) rfl ?_
    exact Moves.refl _
  · extract_lets +onlyGivenNames x1
    clear_value x1
    extract_lets +onlyGivenNames x2
    clear_value x2
    extract_lets +onlyGivenNames x3
    clear_value x3
    extract_lets +onlyGivenNames x4
    clear_value x4
    extract_lets +onlyGivenNames x5
    have h5 : Moves [.ev, .img, .port, .loop] s x5 := by
      unfold x5
      refine Moves.step (putDir_moves ..) rfl ?_
      refine Moves.step (State.modLoop_moves ..) rfl ?_
      exact Moves.refl _
    clear_value x5
    refine Moves.step (putCommands_moves ..) rfl ?_
    refine Moves.ite (fun _ => ?_) (fun _ => ?_)
    · refine Moves.step (raiseMeasure_moves ..) rfl ?_
      assumption
    · assumption

theorem setTarget_moves (s : State) (n : Chan) (t : Option (W16 × Bool))
    : Moves [.ev, .img, .port, .conv, .loop] s (setTarget s n t) := by
  unfold setTarget
  extract_lets +onlyGivenNames x1
  clear_value x1
  extract_lets +onlyGivenNames x2
  clear_value x2
  extract_lets +onlyGivenNames x3
  have h3 : Moves [.ev, .img, .port, .conv, .loop] s x3 := by
    unfold x3
    refine Moves.step (State.modLoop_moves ..) rfl ?_
    exact Moves.refl _
  clear_value x3
  refine Moves.step (putLoop_moves ..) rfl ?_
  refine Moves.ite (fun _ => ?_) (fun _ => ?_)
  · refine Moves.step (putDac_moves ..) rfl ?_
    assumption
  · assumption

theorem targetOff_moves (s : State) (n : Chan) : Moves [.ev, .img, .port, .conv, .loop] s (targetOff s n) := by
  unfold targetOff
  refine Moves.step (setTarget_moves ..) rfl ?_
  refine Moves.step (State.modLoop_moves ..) rfl ?_
  exact Moves.refl _

theorem fieldGone_moves (s : State) : Moves [.ev, .img, .port, .conv, .loop, .trim] s (fieldGone s) := by
  unfold fieldGone
  refine Moves.foldl (fun y1 z1 => ?_) ?_
  · refine Moves.ite (fun _ => ?_) (fun _ => ?_)
    · refine Moves.step (targetOff_moves ..) rfl ?_
      exact Moves.refl _
    · exact Moves.refl _
  · refine Moves.upd rfl (fun p => by cases p; (case trim => exact Or.inl ⟨rfl, fun _ _ => trivial⟩); all_goals exact Or.inr rfl) ?_
    exact Moves.refl _

theorem safeTarget_moves (s : State) (n : Chan) : Moves [.ev, .img, .port, .conv, .loop] s (safeTarget s n) := by
  unfold safeTarget
  extract_lets +onlyGivenNames x1
  have h1 : Moves [.ev, .img, .port, .conv, .loop] s x1 := by
    unfold x1
    refine Moves.step (State.modLoop_moves ..) rfl ?_
    exact Moves.refl _
  clear_value x1
  refine Moves.ite (fun _ => ?_) (fun _ => ?_)
  · refine Moves.step (targetOff_moves ..) rfl ?_
    assumption
  · split
    · refine Moves.step (setTarget_moves ..) rfl ?_
      assumption
    · refine Moves.step (setTarget_moves ..) rfl ?_
      assumption
    · refine Moves.step (putLoop_moves ..) rfl ?_
      assumption

theorem noteSafe_moves (s : State) (n : Chan) : Moves [.ch, .ev, .img, .port, .conv, .loop] s (noteSafe s n) := by
  unfold noteSafe
  refine Moves.ite (fun _ => ?_) (fun _ => ?_)
  · exact Moves.refl _
  · extract_lets +onlyGivenNames x1
    have h1 : Moves [.ch, .ev, .img, .port, .conv, .loop] s x1 := by
      unfold x1
      split
      · refine Moves.step (setCmd_moves ..) rfl ?_
        exact Moves.refl _
      · refine Moves.step (setCmd_moves ..) rfl ?_
        exact Moves.refl _
      · exact Moves.refl _
      · refine Moves.step (setCmd_moves ..) rfl ?_
        exact Moves.refl _
    clear_value x1
    refine Moves.ite (fun _ => ?_) (fun _ => ?_)
    · refine Moves.step (safeTarget_moves ..) rfl ?_
      assumption
    · assumption

theorem commandSafeAll_moves (s : State) : Moves [.bw, .ch, .ev, .img, .port, .conv, .loop] s (commandSafeAll s) := by
  unfold commandSafeAll
  extract_lets +onlyGivenNames x1
  have h1 : Moves [.bw, .ch, .ev, .img, .port, .conv, .loop] s x1 := by
    unfold x1
    refine Moves.foldl (fun y2 z2 => ?_) ?_
    · refine Moves.step (noteSafe_moves ..) rfl ?_
      exact Moves.refl _
    · exact Moves.refl _
  clear_value x1
  refine Moves.step (command_moves ..) rfl ?_
  assumption

theorem stageStop_moves (s : State) : Moves [.recov, .ev, .port] s (stageStop s) := by
  unfold stageStop
  refine Moves.ite (fun _ => ?_) (fun _ => ?_)
  · extract_lets +onlyGivenNames x1
    extract_lets +onlyGivenNames x2
    have h2 : Moves [.recov, .ev, .port] s x2 := by
      unfold x2
      refine Moves.upd rfl (fun p => by cases p; (case recov => exact Or.inl ⟨rfl, fun _ h => h .recov⟩); all_goals exact Or.inr rfl) ?_
      exact Moves.refl _
    clear_value x2
    refine Moves.step (raise_moves ..) rfl ?_
    assumption
  · exact Moves.refl _

theorem refuseLeaving_moves (s : State) (result : Byte) (detail : W32) : Moves [.m, .mbx] s (refuseLeaving s result detail) := by
  unfold refuseLeaving
  split
  · refine Moves.step (mbxEnd_moves ..) rfl ?_
    refine Moves.upd rfl (fun p => by cases p; (case m => exact Or.inl ⟨rfl, fun _ _ => trivial⟩); all_goals exact Or.inr rfl) ?_
    exact Moves.refl _
  · exact Moves.refl _

theorem discardReduced_moves (s : State) : Moves [.m] s (discardReduced s) := by
  unfold discardReduced
  refine Moves.ite (fun _ => ?_) (fun _ => ?_)
  · refine Moves.upd rfl (fun p => by cases p; (case m => exact Or.inl ⟨rfl, fun _ _ => trivial⟩); all_goals exact Or.inr rfl) ?_
    exact Moves.refl _
  · exact Moves.refl _

theorem discardSafe_moves (s : State) (cause : Byte) : Moves [.m] s (discardSafe s cause) := by
  unfold discardSafe
  split
  · refine Moves.ite (fun _ => ?_) (fun _ => ?_)
    · refine Moves.upd rfl (fun p => by cases p; (case m => exact Or.inl ⟨rfl, fun _ _ => trivial⟩); all_goals exact Or.inr rfl) ?_
      exact Moves.refl _
    · exact Moves.refl _
  · exact Moves.refl _

theorem settleMode_moves (s : State) : Moves [.m, .ev, .port] s (settleMode s) := by
  unfold settleMode
  refine Moves.step (raiseReduced_moves ..) rfl ?_
  refine Moves.upd rfl (fun p => by cases p; (case m => exact Or.inl ⟨rfl, fun _ _ => trivial⟩); all_goals exact Or.inr rfl) ?_
  exact Moves.refl _

theorem ditherStop_moves (s : State) : Moves [.fd] s (ditherStop s) := by
  unfold ditherStop
  refine Moves.upd rfl (fun p => by cases p; (case fd => exact Or.inl ⟨rfl, fun _ _ => trivial⟩); all_goals exact Or.inr rfl) ?_
  exact Moves.refl _

theorem dropStepFive_moves (s : State) : Moves [.bw] s (dropStepFive s) := by
  unfold dropStepFive
  refine Moves.upd rfl (fun p => by cases p; (case bw => exact Or.inl ⟨rfl, fun _ _ => trivial⟩); all_goals exact Or.inr rfl) ?_
  exact Moves.refl _

theorem enterStop_moves (s : State) (cause : Byte)
    : Moves [.m, .triad, .recov, .bw, .fd, .ch, .ev, .mbx, .img, .port, .conv, .loop, .trim, .wheel, .rul, .pins] s (enterStop s cause) := by
  unfold enterStop
  refine Moves.ite (fun _ => ?_) (fun _ => ?_)
  · exact Moves.refl _
  · extract_lets +onlyGivenNames x1
    have h1 : Moves [.m, .triad, .recov, .bw, .fd, .ch, .ev, .mbx, .img, .port, .conv, .loop, .trim, .wheel, .rul, .pins] s x1 := by
      unfold x1
      refine Moves.step (ditherStop_moves ..) rfl ?_
      refine Moves.step (refuseLeaving_moves ..) rfl ?_
      refine Moves.step (discardReduced_moves ..) rfl ?_
      refine Moves.step (discardSafe_moves ..) rfl ?_
      exact Moves.refl _
    clear_value x1
    extract_lets +onlyGivenNames x2
    have h2 : Moves [.m, .triad, .recov, .bw, .fd, .ch, .ev, .mbx, .img, .port, .conv, .loop, .trim, .wheel, .rul, .pins] s x2 := by
      unfold x2
      refine Moves.step (dropStepFive_moves ..) rfl ?_
      assumption
    clear_value x2
    extract_lets +onlyGivenNames x3
    clear_value x3
    extract_lets +onlyGivenNames x4
    have h4 : Moves [.m, .triad, .recov, .bw, .fd, .ch, .ev, .mbx, .img, .port, .conv, .loop, .trim, .wheel, .rul, .pins] s x4 := by
      unfold x4
      refine Moves.step (setMode_moves ..) rfl ?_
      refine Moves.step (markSafe_moves ..) rfl ?_
      refine Moves.upd rfl (fun p => by cases p; (case m => exact Or.inl ⟨rfl, fun _ _ => trivial⟩); all_goals exact Or.inr rfl) ?_
      assumption
    clear_value x4
    refine Moves.step (stageStop_moves ..) rfl ?_
    refine Moves.step (portsDown_moves ..) rfl ?_
    refine Moves.step (wheelsStop_moves ..) rfl ?_
    refine Moves.step (commandSafeAll_moves ..) rfl ?_
    assumption

theorem countSafe_moves (s : State)
    : Moves [.m, .triad, .recov, .bw, .fd, .ch, .ev, .mbx, .img, .port, .conv, .loop, .trim, .wheel, .rul, .pins] s (countSafe s) := by
  unfold countSafe
  extract_lets +onlyGivenNames x1
  clear_value x1
  extract_lets +onlyGivenNames x2
  have h2 : Moves [.m, .triad, .recov, .bw, .fd, .ch, .ev, .mbx, .img, .port, .conv, .loop, .trim, .wheel, .rul, .pins] s x2 := by
    unfold x2
    refine Moves.upd rfl (fun p => by cases p; (case m => exact Or.inl ⟨rfl, fun _ _ => trivial⟩); all_goals exact Or.inr rfl) ?_
    exact Moves.refl _
  clear_value x2
  extract_lets +onlyGivenNames x3
  clear_value x3
  refine Moves.ite (fun _ => ?_) (fun _ => ?_)
  · refine Moves.step (enterStop_moves ..) rfl ?_
    assumption
  · assumption

theorem enterSafe_moves (s : State) (cause : Byte) (wd : Option (Fin 8))
    : Moves [.m, .triad, .recov, .bw, .fd, .ch, .ev, .mbx, .img, .port, .conv, .loop, .trim, .wheel, .rul, .pins] s (enterSafe s cause wd) := by
  unfold enterSafe
  extract_lets +onlyGivenNames x1
  clear_value x1
  split
  · extract_lets +onlyGivenNames x2
    have h2 : Moves [.m, .triad, .recov, .bw, .fd, .ch, .ev, .mbx, .img, .port, .conv, .loop, .trim, .wheel, .rul, .pins] s x2 := by
      unfold x2
      refine Moves.step (refuseLeaving_moves ..) rfl ?_
      refine Moves.step (discardReduced_moves ..) rfl ?_
      exact Moves.refl _
    clear_value x2
    extract_lets +onlyGivenNames x3
    clear_value x3
    extract_lets +onlyGivenNames x4
    extract_lets +onlyGivenNames x5
    have h5 : Moves [.m, .triad, .recov, .bw, .fd, .ch, .ev, .mbx, .img, .port, .conv, .loop, .trim, .wheel, .rul, .pins] s x5 := by
      unfold x5
      refine Moves.upd rfl (fun p => by
          cases p
          case m => exact Or.inl ⟨rfl, fun _ _ => trivial⟩
          case recov => exact Or.inl ⟨rfl, fun _ h => h .recov⟩
          all_goals exact Or.inr rfl) ?_
      assumption
    clear_value x5
    extract_lets +onlyGivenNames x6
    have h6 : Moves [.m, .triad, .recov, .bw, .fd, .ch, .ev, .mbx, .img, .port, .conv, .loop, .trim, .wheel, .rul, .pins] s x6 := by
      unfold x6
      refine Moves.step (commandSafeAll_moves ..) rfl ?_
      refine Moves.step (setMode_moves ..) rfl ?_
      refine Moves.step (markSafe_moves ..) rfl ?_
      refine Moves.step (dropStepFive_moves ..) rfl ?_
      assumption
    clear_value x6
    refine Moves.ite (fun _ => ?_) (fun _ => ?_)
    · assumption
    · refine Moves.step (countSafe_moves ..) rfl ?_
      assumption
  · extract_lets +onlyGivenNames x7
    have h7 : Moves [.m, .triad, .recov, .bw, .fd, .ch, .ev, .mbx, .img, .port, .conv, .loop, .trim, .wheel, .rul, .pins] s x7 := by
      unfold x7
      refine Moves.step (refuseLeaving_moves ..) rfl ?_
      refine Moves.step (discardReduced_moves ..) rfl ?_
      exact Moves.refl _
    clear_value x7
    extract_lets +onlyGivenNames x8
    clear_value x8
    extract_lets +onlyGivenNames x9
    extract_lets +onlyGivenNames x10
    have h10 : Moves [.m, .triad, .recov, .bw, .fd, .ch, .ev, .mbx, .img, .port, .conv, .loop, .trim, .wheel, .rul, .pins] s x10 := by
      unfold x10
      refine Moves.upd rfl (fun p => by
          cases p
          case m => exact Or.inl ⟨rfl, fun _ _ => trivial⟩
          case recov => exact Or.inl ⟨rfl, fun _ h => h .recov⟩
          all_goals exact Or.inr rfl) ?_
      assumption
    clear_value x10
    extract_lets +onlyGivenNames x11
    have h11 : Moves [.m, .triad, .recov, .bw, .fd, .ch, .ev, .mbx, .img, .port, .conv, .loop, .trim, .wheel, .rul, .pins] s x11 := by
      unfold x11
      refine Moves.step (commandSafeAll_moves ..) rfl ?_
      refine Moves.step (setMode_moves ..) rfl ?_
      refine Moves.step (markSafe_moves ..) rfl ?_
      refine Moves.step (dropStepFive_moves ..) rfl ?_
      assumption
    clear_value x11
    refine Moves.ite (fun _ => ?_) (fun _ => ?_)
    · assumption
    · refine Moves.step (countSafe_moves ..) rfl ?_
      assumption
  · extract_lets +onlyGivenNames x12
    have h12 : Moves [.m, .triad, .recov, .bw, .fd, .ch, .ev, .mbx, .img, .port, .conv, .loop, .trim, .wheel, .rul, .pins] s x12 := by
      unfold x12
      refine Moves.step (refuseLeaving_moves ..) rfl ?_
      refine Moves.step (discardReduced_moves ..) rfl ?_
      exact Moves.refl _
    clear_value x12
    extract_lets +onlyGivenNames x13
    clear_value x13
    extract_lets +onlyGivenNames x14
    extract_lets +onlyGivenNames x15
    have h15 : Moves [.m, .triad, .recov, .bw, .fd, .ch, .ev, .mbx, .img, .port, .conv, .loop, .trim, .wheel, .rul, .pins] s x15 := by
      unfold x15
      refine Moves.upd rfl (fun p => by
          cases p
          case m => exact Or.inl ⟨rfl, fun _ _ => trivial⟩
          case recov => exact Or.inl ⟨rfl, fun _ h => h .recov⟩
          all_goals exact Or.inr rfl) ?_
      assumption
    clear_value x15
    extract_lets +onlyGivenNames x16
    have h16 : Moves [.m, .triad, .recov, .bw, .fd, .ch, .ev, .mbx, .img, .port, .conv, .loop, .trim, .wheel, .rul, .pins] s x16 := by
      unfold x16
      refine Moves.step (commandSafeAll_moves ..) rfl ?_
      refine Moves.step (setMode_moves ..) rfl ?_
      refine Moves.step (markSafe_moves ..) rfl ?_
      refine Moves.step (dropStepFive_moves ..) rfl ?_
      assumption
    clear_value x16
    refine Moves.ite (fun _ => ?_) (fun _ => ?_)
    · assumption
    · refine Moves.step (countSafe_moves ..) rfl ?_
      assumption
  · extract_lets +onlyGivenNames x17
    have h17 : Moves [.m, .triad, .recov, .bw, .fd, .ch, .ev, .mbx, .img, .port, .conv, .loop, .trim, .wheel, .rul, .pins] s x17 := by
      unfold x17
      refine Moves.step (refuseLeaving_moves ..) rfl ?_
      exact Moves.refl _
    clear_value x17
    extract_lets +onlyGivenNames x18
    clear_value x18
    extract_lets +onlyGivenNames x19
    extract_lets +onlyGivenNames x20
    have h20 : Moves [.m, .triad, .recov, .bw, .fd, .ch, .ev, .mbx, .img, .port, .conv, .loop, .trim, .wheel, .rul, .pins] s x20 := by
      unfold x20
      refine Moves.upd rfl (fun p => by
          cases p
          case m => exact Or.inl ⟨rfl, fun _ _ => trivial⟩
          case recov => exact Or.inl ⟨rfl, fun _ h => h .recov⟩
          all_goals exact Or.inr rfl) ?_
      assumption
    clear_value x20
    refine Moves.step (countSafe_moves ..) rfl ?_
    refine Moves.step (putMode_moves ..) rfl ?_
    assumption
  · exact Moves.refl _

theorem putRetired_moves (s : State) : Moves [.m, .img] s (putRetired s) := by
  unfold putRetired
  extract_lets +onlyGivenNames x1
  clear_value x1
  extract_lets +onlyGivenNames x2
  clear_value x2
  extract_lets +onlyGivenNames x3
  clear_value x3
  extract_lets +onlyGivenNames x4
  have h4 : Moves [.m, .img] s x4 := by
    unfold x4
    refine Moves.step (putMode_moves ..) rfl ?_
    refine Moves.upd rfl (fun p => by cases p; (case m => exact Or.inl ⟨rfl, fun _ _ => trivial⟩); all_goals exact Or.inr rfl) ?_
    exact Moves.refl _
  clear_value x4
  refine Moves.step (putHealth_moves ..) rfl ?_
  assumption

theorem reduce_moves (s : State) (cause : Byte) : Moves [.m, .triad, .ch, .ev, .img, .port, .trim, .rul, .pins] s (reduce s cause) := by
  unfold reduce
  extract_lets +onlyGivenNames x1
  have h1 : Moves [.m, .triad, .ch, .ev, .img, .port, .trim, .rul, .pins] s x1 := by
    unfold x1
    refine Moves.step (putRetired_moves ..) rfl ?_
    exact Moves.refl _
  clear_value x1
  refine Moves.ite (fun _ => ?_) (fun _ => ?_)
  · extract_lets +onlyGivenNames x2
    have h2 : Moves [.m, .triad, .ch, .ev, .img, .port, .trim, .rul, .pins] s x2 := by
      unfold x2
      refine Moves.step (modeChanged_moves ..) rfl ?_
      refine Moves.step (writeMode_moves ..) rfl ?_
      assumption
    clear_value x2
    refine Moves.upd rfl (fun p => by cases p; (case m => exact Or.inl ⟨rfl, fun _ _ => trivial⟩); all_goals exact Or.inr rfl) ?_
    assumption
  · assumption

/-! ## HartOps -/

theorem putHart_moves (s : State) (e : HartMap) : Moves [.img] s (putHart s e) := by
  unfold putHart
  extract_lets +onlyGivenNames x1
  clear_value x1
  extract_lets +onlyGivenNames x2
  clear_value x2
  extract_lets +onlyGivenNames x3
  clear_value x3
  refine Moves.ite (fun _ => ?_) (fun _ => ?_)
  · refine Moves.step (epPut_moves ..) rfl ?_
    exact Moves.refl _
  · refine Moves.ite (fun _ => ?_) (fun _ => ?_)
    · refine Moves.step (epPut_moves ..) rfl ?_
      exact Moves.refl _
    · refine Moves.ite (fun _ => ?_) (fun _ => ?_)
      · refine Moves.step (epPut_moves ..) rfl ?_
        exact Moves.refl _
      · split
        · refine Moves.step (epPut_moves ..) rfl ?_
          exact Moves.refl _
        · extract_lets +onlyGivenNames x4
          clear_value x4
          refine Moves.step (epPut_moves ..) rfl ?_
          exact Moves.refl _

theorem putHarts_moves (s : State) : Moves [.img] s (putHarts s) := by
  unfold putHarts
  split
  · refine Moves.foldl (fun y1 z1 => ?_) ?_
    · refine Moves.step (putHart_moves ..) rfl ?_
      exact Moves.refl _
    · exact Moves.refl _
  · exact Moves.refl _

theorem putHartChan_moves (s : State) (n : Chan) : Moves [.img] s (putHartChan s n) := by
  unfold putHartChan
  split
  · refine Moves.foldl (fun y1 z1 => ?_) ?_
    · refine Moves.step (putHart_moves ..) rfl ?_
      exact Moves.refl _
    · refine Moves.step (putHartLive_moves ..) rfl ?_
      exact Moves.refl _
  · exact Moves.refl _

theorem modDev_moves (s : State) (n : Chan) (a : BitVec 4) (f : HartDev → HartDev) : Moves [.loop] s (modDev s n a f) := by
  unfold modDev
  refine Moves.step (State.modLoop_moves ..) rfl ?_
  exact Moves.refl _

theorem readyPoll_moves (s : State) (r : HartReq) : Moves [.hart] s (readyPoll s r) := by
  unfold readyPoll
  refine Moves.ite (fun _ => ?_) (fun _ => ?_)
  · exact Moves.refl _
  · refine Moves.upd rfl (fun p => by cases p; (case hart => exact Or.inl ⟨rfl, fun _ _ => trivial⟩); all_goals exact Or.inr rfl) ?_
    exact Moves.refl _

theorem hartPeriods_moves (s : State) (n : Chan) : Moves [.img, .loop] s (hartPeriods s n) := by
  unfold hartPeriods
  extract_lets +onlyGivenNames x1
  clear_value x1
  extract_lets +onlyGivenNames x2
  clear_value x2
  extract_lets +onlyGivenNames x3
  clear_value x3
  extract_lets +onlyGivenNames x4
  clear_value x4
  extract_lets +onlyGivenNames x5
  have h5 : Moves [.img, .loop] s x5 := by
    unfold x5
    refine Moves.step (State.modLoop_moves ..) rfl ?_
    exact Moves.refl _
  clear_value x5
  refine Moves.ite (fun _ => ?_) (fun _ => ?_)
  · assumption
  · refine Moves.step (putCommands_moves ..) rfl ?_
    assumption

theorem modemFree_moves (s : State) (modem : Fin 4) : Moves [.hart] s (modemFree s modem) := by
  unfold modemFree
  refine Moves.upd rfl (fun p => by cases p; (case hart => exact Or.inl ⟨rfl, fun _ _ => trivial⟩); all_goals exact Or.inr rfl) ?_
  exact Moves.refl _

theorem hartAbsent_moves (s : State) (n : Chan) (a : BitVec 4) : Moves [.ev, .img, .port, .loop] s (hartAbsent s n a) := by
  unfold hartAbsent
  refine Moves.ite (fun _ => ?_) (fun _ => ?_)
  · refine Moves.step (raiseMeasure_moves ..) rfl ?_
    refine Moves.step (hartPeriods_moves ..) rfl ?_
    refine Moves.step (putHartChan_moves ..) rfl ?_
    refine Moves.step (modDev_moves ..) rfl ?_
    exact Moves.refl _
  · exact Moves.refl _

theorem hartSeek_moves (s : State) (n : Chan) : Moves [.img, .loop] s (hartSeek s n) := by
  unfold hartSeek
  refine Moves.step (hartPeriods_moves ..) rfl ?_
  refine Moves.step (putHartChan_moves ..) rfl ?_
  refine Moves.step (State.modLoop_moves ..) rfl ?_
  exact Moves.refl _

theorem passTimeout_moves (s : State) (r : HartReq) : Moves [.mbx, .hart] s (passTimeout s r) := by
  unfold passTimeout
  split
  · extract_lets +onlyGivenNames x1
    have h1 : Moves [.mbx, .hart] s x1 := by
      unfold x1
      refine Moves.step (mbxEnd_moves ..) rfl ?_
      exact Moves.refl _
    clear_value x1
    refine Moves.ite (fun _ => ?_) (fun _ => ?_)
    · refine Moves.step (readyPoll_moves ..) rfl ?_
      assumption
    · assumption
  · exact Moves.refl _

theorem hartEnd_moves (s : State) (modem : Fin 4) (t : HartTxn) : Moves [.ev, .mbx, .img, .port, .loop, .hart] s (hartEnd s modem t) := by
  unfold hartEnd
  split
  · refine Moves.step (hartAbsent_moves ..) rfl ?_
    refine Moves.step (modemFree_moves ..) rfl ?_
    exact Moves.refl _
  · refine Moves.step (hartAbsent_moves ..) rfl ?_
    refine Moves.step (modemFree_moves ..) rfl ?_
    exact Moves.refl _
  · refine Moves.step (passTimeout_moves ..) rfl ?_
    refine Moves.step (modemFree_moves ..) rfl ?_
    exact Moves.refl _

theorem hartErr_moves (s : State) (n : Chan) : Moves [.loop] s (hartErr s n) := by
  unfold hartErr
  refine Moves.step (State.modLoop_moves ..) rfl ?_
  exact Moves.refl _

theorem hartHit_moves (s : State) (n : Chan) : Moves [.ev, .mbx, .img, .port, .loop, .hart] s (hartHit s n) := by
  unfold hartHit
  split
  · split
    · refine Moves.step (hartEnd_moves ..) rfl ?_
      refine Moves.step (hartErr_moves ..) rfl ?_
      exact Moves.refl _
    · exact Moves.refl _
  · exact Moves.refl _

theorem hartAbandon_moves (s : State) (n : Chan) : Moves [.mbx, .hart] s (hartAbandon s n) := by
  unfold hartAbandon
  extract_lets +onlyGivenNames x1
  clear_value x1
  extract_lets +onlyGivenNames x2
  clear_value x2
  extract_lets +onlyGivenNames x3
  clear_value x3
  extract_lets +onlyGivenNames x4
  have h4 : Moves [.mbx, .hart] s x4 := by
    unfold x4
    refine Moves.upd rfl (fun p => by cases p; (case hart => exact Or.inl ⟨rfl, fun _ _ => trivial⟩); all_goals exact Or.inr rfl) ?_
    exact Moves.refl _
  clear_value x4
  refine Moves.foldl (fun y5 z5 => ?_) ?_
  · split
    · refine Moves.step (mbxEnd_moves ..) rfl ?_
      exact Moves.refl _
    · exact Moves.refl _
  · assumption

theorem hartHalt_moves (s : State) : Moves [.mbx, .img, .hart] s (hartHalt s) := by
  unfold hartHalt
  extract_lets +onlyGivenNames x1
  clear_value x1
  refine Moves.step (putHarts_moves ..) rfl ?_
  refine Moves.foldl (fun y2 z2 => ?_) ?_
  · refine Moves.step (passTimeout_moves ..) rfl ?_
    exact Moves.refl _
  · refine Moves.upd rfl (fun p => by cases p; (case hart => exact Or.inl ⟨rfl, fun _ _ => trivial⟩); all_goals exact Or.inr rfl) ?_
    exact Moves.refl _

end Sys2Proof.Machine
end

