-- ==== Sys2Proof/Laws/MovesField.lean ====
section
/-!
SUPPORT. Channels and lamps, filtering, reports of the field die, the Breakwater and the event wheels: what each operation can change, and that it keeps a sound state sound.
-/
namespace Sys2Proof.Machine

/-! ## GovOps -/

theorem govUpdate_moves (s : State) : Moves [.ch, .gov] s (govUpdate s) := by
  unfold govUpdate
  extract_lets +onlyGivenNames x1
  have h1 : Moves [.ch, .gov] s x1 := by
    unfold x1
    refine Moves.foldl (fun y2 z2 => ?_) ?_
    · split
      · refine Moves.step (State.modCh_moves ..) rfl ?_
        exact Moves.refl _
      · exact Moves.refl _
    · exact Moves.refl _
  clear_value x1
  extract_lets +onlyGivenNames x3
  clear_value x3
  refine Moves.upd rfl (fun p => by cases p; (case gov => exact Or.inl ⟨rfl, fun _ _ => trivial⟩); all_goals exact Or.inr rfl) ?_
  assumption

theorem aoIncrease_moves (s : State) (n : Chan) (a : W16) (b : W16) : Moves [.free] s (aoIncrease s n a b).2 := by
  unfold aoIncrease
  split
  · dsimp -zeta only
    exact Moves.refl _
  · split
    dsimp -zeta only
    refine Moves.ofSnd (by assumption) ?_
    refine Moves.step (State.draw_moves ..) rfl ?_
    exact Moves.refl _

theorem raisePower_moves (s : State) (n : Option Chan) : Moves [.ev, .port] s (raisePower s n) := by
  unfold raisePower
  refine Moves.step (raise_moves ..) rfl ?_
  exact Moves.refl _

theorem govRefuse_moves (s : State) (n : Chan) (word : W16) : Moves [.ch, .ev, .port, .gov] s (govRefuse s n word) := by
  unfold govRefuse
  extract_lets +onlyGivenNames x1
  extract_lets +onlyGivenNames x2
  have h2 : Moves [.ch, .ev, .port, .gov] s x2 := by
    unfold x2
    refine Moves.step (State.modCh_moves ..) rfl ?_
    exact Moves.refl _
  clear_value x2
  extract_lets +onlyGivenNames x3
  clear_value x3
  extract_lets +onlyGivenNames x4
  have h4 : Moves [.ch, .ev, .port, .gov] s x4 := by
    unfold x4
    refine Moves.upd rfl (fun p => by cases p; (case gov => exact Or.inl ⟨rfl, fun _ _ => trivial⟩); all_goals exact Or.inr rfl) ?_
    assumption
  clear_value x4
  refine Moves.ite (fun _ => ?_) (fun _ => ?_)
  · refine Moves.step (raisePower_moves ..) rfl ?_
    assumption
  · assumption

theorem govClear_moves (s : State) (n : Chan) : Moves [.ch] s (govClear s n) := by
  unfold govClear
  refine Moves.step (State.modCh_moves ..) rfl ?_
  exact Moves.refl _

theorem govRefuseAlarm_moves (s : State) (n : Chan) (sel : BitVec 2)
    : Moves [.ch, .ev, .port, .loop, .gov] s (govRefuseAlarm s n sel) := by
  unfold govRefuseAlarm
  extract_lets +onlyGivenNames x1
  extract_lets +onlyGivenNames x2
  have h2 : Moves [.ch, .ev, .port, .loop, .gov] s x2 := by
    unfold x2
    refine Moves.step (State.modCh_moves ..) rfl ?_
    refine Moves.step (State.modLoop_moves ..) rfl ?_
    exact Moves.refl _
  clear_value x2
  extract_lets +onlyGivenNames x3
  clear_value x3
  extract_lets +onlyGivenNames x4
  have h4 : Moves [.ch, .ev, .port, .loop, .gov] s x4 := by
    unfold x4
    refine Moves.upd rfl (fun p => by cases p; (case gov => exact Or.inl ⟨rfl, fun _ _ => trivial⟩); all_goals exact Or.inr rfl) ?_
    assumption
  clear_value x4
  refine Moves.ite (fun _ => ?_) (fun _ => ?_)
  · refine Moves.step (raisePower_moves ..) rfl ?_
    assumption
  · assumption

theorem alarmClear_moves (s : State) (n : Chan) : Moves [.ch, .loop] s (alarmClear s n) := by
  unfold alarmClear
  refine Moves.step (State.modCh_moves ..) rfl ?_
  refine Moves.step (State.modLoop_moves ..) rfl ?_
  exact Moves.refl _

theorem showCommand_moves (s : State) (n : Chan) (v : W16) (bad : Bool) : Moves [.ch, .img] s (showCommand s n v bad) := by
  unfold showCommand
  extract_lets +onlyGivenNames x1
  have h1 : Moves [.ch, .img] s x1 := by
    unfold x1
    refine Moves.step (State.modCh_moves ..) rfl ?_
    exact Moves.refl _
  clear_value x1
  refine Moves.step (epPut_moves ..) rfl ?_
  assumption

theorem demandDO_moves (s : State) (n : Chan) (v : W16) : Moves [.bw, .ch, .ev, .img, .port, .gov] s (demandDO s n v) := by
  unfold demandDO
  extract_lets +onlyGivenNames x1
  extract_lets +onlyGivenNames x2
  clear_value x2
  extract_lets +onlyGivenNames x3
  clear_value x3
  refine Moves.ite (fun _ => ?_) (fun _ => ?_)
  · refine Moves.step (showCommand_moves ..) rfl ?_
    refine Moves.step (govRefuse_moves ..) rfl ?_
    exact Moves.refl _
  · extract_lets +onlyGivenNames x4
    have h4 : Moves [.bw, .ch, .ev, .img, .port, .gov] s x4 := by
      unfold x4
      refine Moves.step (setCmd_moves ..) rfl ?_
      refine Moves.step (govClear_moves ..) rfl ?_
      exact Moves.refl _
    clear_value x4
    refine Moves.ite (fun _ => ?_) (fun _ => ?_)
    · assumption
    · refine Moves.step (command_moves ..) rfl ?_
      assumption

theorem writeDO_moves (s : State) (n : Chan) (v : W16) : Moves [.bw, .ch, .ev, .img, .port, .gov] s (writeDO s n v) := by
  unfold writeDO
  refine Moves.ite (fun _ => ?_) (fun _ => ?_)
  · extract_lets +onlyGivenNames x1
    have h1 : Moves [.bw, .ch, .ev, .img, .port, .gov] s x1 := by
      unfold x1
      refine Moves.step (State.modCh_moves ..) rfl ?_
      exact Moves.refl _
    clear_value x1
    refine Moves.step (epAccept_moves ..) rfl ?_
    assumption
  · extract_lets +onlyGivenNames x2
    clear_value x2
    extract_lets +onlyGivenNames x3
    clear_value x3
    extract_lets +onlyGivenNames x4
    have h4 : Moves [.bw, .ch, .ev, .img, .port, .gov] s x4 := by
      unfold x4
      refine Moves.step (State.modCh_moves ..) rfl ?_
      exact Moves.refl _
    clear_value x4
    extract_lets +onlyGivenNames x5
    have h5 : Moves [.bw, .ch, .ev, .img, .port, .gov] s x5 := by
      unfold x5
      refine Moves.step (epAccept_moves ..) rfl ?_
      assumption
    clear_value x5
    refine Moves.ite (fun _ => ?_) (fun _ => ?_)
    · refine Moves.step (demandDO_moves ..) rfl ?_
      assumption
    · assumption

theorem targetAO_moves (s : State) (n : Chan) : Moves [.ch, .ev, .img, .port, .conv, .loop] s (targetAO s n) := by
  unfold targetAO
  extract_lets +onlyGivenNames x1
  have h1 : Moves [.ch, .ev, .img, .port, .conv, .loop] s x1 := by
    unfold x1
    refine Moves.step (State.modLoop_moves ..) rfl ?_
    refine Moves.step (endSafeApp_moves ..) rfl ?_
    exact Moves.refl _
  clear_value x1
  refine Moves.ite (fun _ => ?_) (fun _ => ?_)
  · refine Moves.step (targetOff_moves ..) rfl ?_
    assumption
  · refine Moves.step (setTarget_moves ..) rfl ?_
    assumption

theorem sendAO_moves (old : State) (s : State) (n : Chan) : Moves [.bw, .ch, .ev, .img, .port] s (sendAO old s n) := by
  unfold sendAO
  extract_lets +onlyGivenNames x1
  clear_value x1
  refine Moves.ite (fun _ => ?_) (fun _ => ?_)
  · refine Moves.step (command_moves ..) rfl ?_
    exact Moves.refl _
  · exact Moves.refl _

theorem aoAdmit_moves (s : State) (n : Chan) (cmd : W16) (alarm : BitVec 2) : Moves [.free] s (aoAdmit s n cmd alarm).2 := by
  unfold aoAdmit
  extract_lets +onlyGivenNames x1
  clear_value x1
  extract_lets +onlyGivenNames x2
  clear_value x2
  split
  · dsimp -zeta only
    exact Moves.refl _
  · split
    · dsimp -zeta only
      exact Moves.refl _
    · split
      dsimp -zeta only
      refine Moves.ofSnd (by assumption) ?_
      refine Moves.step (aoIncrease_moves ..) rfl ?_
      exact Moves.refl _

theorem takeCmd_moves (s : State) (n : Chan) (v : W16) : Moves [.free, .ch, .ev, .img, .port, .conv, .loop, .gov] s (takeCmd s n v) := by
  unfold takeCmd
  split
  · extract_lets +onlyGivenNames x1
    have h1 : Moves [.free, .ch, .ev, .img, .port, .conv, .loop, .gov] s x1 := by
      unfold x1
      refine Moves.step (State.modLoop_moves ..) rfl ?_
      refine Moves.step (govClear_moves ..) rfl ?_
      refine Moves.ofSnd (by assumption) ?_
      refine Moves.step (aoAdmit_moves ..) rfl ?_
      exact Moves.refl _
    clear_value x1
    refine Moves.step (targetAO_moves ..) rfl ?_
    refine Moves.ite (fun _ => ?_) (fun _ => ?_)
    · refine Moves.step (showCommand_moves ..) rfl ?_
      assumption
    · assumption
  · refine Moves.step (putLoop_moves ..) rfl ?_
    refine Moves.step (showCommand_moves ..) rfl ?_
    refine Moves.ite (fun _ => ?_) (fun _ => ?_)
    · refine Moves.ofSnd (by assumption) ?_
      refine Moves.step (aoAdmit_moves ..) rfl ?_
      exact Moves.refl _
    · refine Moves.step (govClear_moves ..) rfl ?_
      refine Moves.ofSnd (by assumption) ?_
      refine Moves.step (aoAdmit_moves ..) rfl ?_
      exact Moves.refl _
  · refine Moves.step (putLoop_moves ..) rfl ?_
    refine Moves.step (showCommand_moves ..) rfl ?_
    refine Moves.step (govRefuse_moves ..) rfl ?_
    refine Moves.ofSnd (by assumption) ?_
    refine Moves.step (aoAdmit_moves ..) rfl ?_
    exact Moves.refl _

theorem demandAO_moves (s : State) (n : Chan) (v : W16)
    : Moves [.free, .bw, .ch, .ev, .img, .port, .conv, .loop, .gov] s (demandAO s n v) := by
  unfold demandAO
  refine Moves.step (sendAO_moves ..) rfl ?_
  refine Moves.step (takeCmd_moves ..) rfl ?_
  exact Moves.refl _

theorem writeAO_moves (s : State) (n : Chan) (v : W16)
    : Moves [.free, .bw, .ch, .ev, .img, .port, .conv, .loop, .gov] s (writeAO s n v) := by
  unfold writeAO
  extract_lets +onlyGivenNames x1
  extract_lets +onlyGivenNames x2
  have h2 : Moves [.free, .bw, .ch, .ev, .img, .port, .conv, .loop, .gov] s x2 := by
    unfold x2
    refine Moves.step (State.modCh_moves ..) rfl ?_
    exact Moves.refl _
  clear_value x2
  extract_lets +onlyGivenNames x3
  have h3 : Moves [.free, .bw, .ch, .ev, .img, .port, .conv, .loop, .gov] s x3 := by
    unfold x3
    refine Moves.step (putLoop_moves ..) rfl ?_
    refine Moves.step (epAccept_moves ..) rfl ?_
    assumption
  clear_value x3
  refine Moves.ite (fun _ => ?_) (fun _ => ?_)
  · refine Moves.step (demandAO_moves ..) rfl ?_
    assumption
  · assumption

theorem alarmRefused_moves (s : State) (n : Chan) : Moves [.ev, .img, .port, .loop] s (alarmRefused s n) := by
  unfold alarmRefused
  refine Moves.step (putLoop_moves ..) rfl ?_
  refine Moves.step (State.modLoop_moves ..) rfl ?_
  exact Moves.refl _

theorem takeAlarm_moves (s : State) (n : Chan) (sel : BitVec 2)
    : Moves [.free, .ch, .ev, .img, .port, .conv, .loop, .gov] s (takeAlarm s n sel) := by
  unfold takeAlarm
  split
  · refine Moves.step (targetAO_moves ..) rfl ?_
    refine Moves.step (State.modLoop_moves ..) rfl ?_
    refine Moves.step (alarmClear_moves ..) rfl ?_
    refine Moves.ofSnd (by assumption) ?_
    refine Moves.step (aoAdmit_moves ..) rfl ?_
    exact Moves.refl _
  · refine Moves.step (alarmRefused_moves ..) rfl ?_
    refine Moves.ite (fun _ => ?_) (fun _ => ?_)
    · refine Moves.ofSnd (by assumption) ?_
      refine Moves.step (aoAdmit_moves ..) rfl ?_
      exact Moves.refl _
    · refine Moves.step (raise_moves ..) rfl ?_
      refine Moves.ofSnd (by assumption) ?_
      refine Moves.step (aoAdmit_moves ..) rfl ?_
      exact Moves.refl _
  · refine Moves.step (alarmRefused_moves ..) rfl ?_
    refine Moves.step (govRefuseAlarm_moves ..) rfl ?_
    refine Moves.ofSnd (by assumption) ?_
    refine Moves.step (aoAdmit_moves ..) rfl ?_
    exact Moves.refl _

theorem demandAlarm_moves (s : State) (n : Chan) (sel : BitVec 2)
    : Moves [.free, .bw, .ch, .ev, .img, .port, .conv, .loop, .gov] s (demandAlarm s n sel) := by
  unfold demandAlarm
  refine Moves.step (sendAO_moves ..) rfl ?_
  refine Moves.step (takeAlarm_moves ..) rfl ?_
  exact Moves.refl _

theorem writeAlarm_moves (s : State) (n : Chan) (v : W16)
    : Moves [.free, .bw, .ch, .ev, .img, .port, .conv, .loop, .gov] s (writeAlarm s n v) := by
  unfold writeAlarm
  extract_lets +onlyGivenNames x1
  extract_lets +onlyGivenNames x2
  have h2 : Moves [.free, .bw, .ch, .ev, .img, .port, .conv, .loop, .gov] s x2 := by
    unfold x2
    refine Moves.ite (fun _ => ?_) (fun _ => ?_)
    · refine Moves.step (State.modLoop_moves ..) rfl ?_
      exact Moves.refl _
    · refine Moves.step (State.modLoop_moves ..) rfl ?_
      exact Moves.refl _
  clear_value x2
  extract_lets +onlyGivenNames x3
  have h3 : Moves [.free, .bw, .ch, .ev, .img, .port, .conv, .loop, .gov] s x3 := by
    unfold x3
    refine Moves.step (putLoop_moves ..) rfl ?_
    refine Moves.step (epAccept_moves ..) rfl ?_
    assumption
  clear_value x3
  refine Moves.ite (fun _ => ?_) (fun _ => ?_)
  · refine Moves.step (demandAlarm_moves ..) rfl ?_
    assumption
  · assumption

theorem tryRestart_moves (s : State) (n : Chan) (target : W64) : Moves [.bw, .ch, .ev, .img, .port, .gov] s (tryRestart s n target) := by
  unfold tryRestart
  refine Moves.ite (fun _ => ?_) (fun _ => ?_)
  · exact Moves.refl _
  · refine Moves.ite (fun _ => ?_) (fun _ => ?_)
    · refine Moves.step (showCommand_moves ..) rfl ?_
      refine Moves.step (govRefuse_moves ..) rfl ?_
      exact Moves.refl _
    · extract_lets +onlyGivenNames x1
      clear_value x1
      extract_lets +onlyGivenNames x2
      have h2 : Moves [.bw, .ch, .ev, .img, .port, .gov] s x2 := by
        unfold x2
        refine Moves.step (State.modCh_moves ..) rfl ?_
        refine Moves.step (govClear_moves ..) rfl ?_
        exact Moves.refl _
      clear_value x2
      extract_lets +onlyGivenNames x3
      have h3 : Moves [.bw, .ch, .ev, .img, .port, .gov] s x3 := by
        unfold x3
        refine Moves.ite (fun _ => ?_) (fun _ => ?_)
        · refine Moves.step (showCommand_moves ..) rfl ?_
          assumption
        · assumption
      clear_value x3
      refine Moves.step (bwSend_moves ..) rfl ?_
      assumption

theorem tryRestartNow_moves (s : State) (n : Chan) : Moves [.bw, .ch, .ev, .img, .port, .gov] s (tryRestartNow s n) := by
  unfold tryRestartNow
  refine Moves.ite (fun _ => ?_) (fun _ => ?_)
  · refine Moves.step (tryRestart_moves ..) rfl ?_
    exact Moves.refl _
  · exact Moves.refl _

theorem restartOne_moves (s : State) (n : Chan) : Moves [.bw, .ch, .ev, .img, .port, .gov] s (restartOne s n) := by
  unfold restartOne
  refine Moves.ite (fun _ => ?_) (fun _ => ?_)
  · exact Moves.refl _
  · refine Moves.ite (fun _ => ?_) (fun _ => ?_)
    · refine Moves.step (tryRestart_moves ..) rfl ?_
      exact Moves.refl _
    · refine Moves.step (tryRestartNow_moves ..) rfl ?_
      exact Moves.refl _

theorem restartPending_moves (s : State) : Moves [.bw, .ch, .ev, .img, .port, .gov] s (restartPending s) := by
  unfold restartPending
  refine Moves.foldl (fun y1 z1 => ?_) ?_
  · refine Moves.step (restartOne_moves ..) rfl ?_
    exact Moves.refl _
  · exact Moves.refl _

theorem retireChannel_moves (s : State) (n : Chan) (cause : RetCause)
    : Moves [.free, .m, .triad, .bw, .ch, .ev, .mbx, .img, .port, .conv, .loop, .trim, .hart, .rul, .pins, .enrol] s (retireChannel s n cause) := by
  unfold retireChannel
  extract_lets +onlyGivenNames x1
  have h1 : Moves [.free, .m, .triad, .bw, .ch, .ev, .mbx, .img, .port, .conv, .loop, .trim, .hart, .rul, .pins, .enrol] s x1 := by
    unfold x1
    refine Moves.step (State.modCh_moves ..) rfl ?_
    refine Moves.step (govClear_moves ..) rfl ?_
    refine Moves.step (State.modLoop_moves ..) rfl ?_
    exact Moves.refl _
  clear_value x1
  extract_lets +onlyGivenNames x2
  have h2 : Moves [.free, .m, .triad, .bw, .ch, .ev, .mbx, .img, .port, .conv, .loop, .trim, .hart, .rul, .pins, .enrol] s x2 := by
    unfold x2
    refine Moves.foldl (fun y3 z3 => ?_) ?_
    · refine Moves.step (State.modLoop_moves ..) rfl ?_
      refine Moves.step (State.modCh_moves ..) rfl ?_
      exact Moves.refl _
    · refine Moves.step (discardAcc_moves ..) rfl ?_
      refine Moves.step (hartAbandon_moves ..) rfl ?_
      assumption
  clear_value x2
  extract_lets +onlyGivenNames x4
  have h4 : Moves [.free, .m, .triad, .bw, .ch, .ev, .mbx, .img, .port, .conv, .loop, .trim, .hart, .rul, .pins, .enrol] s x4 := by
    unfold x4
    refine Moves.step (hartPeriods_moves ..) rfl ?_
    refine Moves.ite (fun _ => ?_) (fun _ => ?_)
    · refine Moves.step (targetOff_moves ..) rfl ?_
      assumption
    · assumption
  clear_value x4
  extract_lets +onlyGivenNames x5
  have h5 : Moves [.free, .m, .triad, .bw, .ch, .ev, .mbx, .img, .port, .conv, .loop, .trim, .hart, .rul, .pins, .enrol] s x5 := by
    unfold x5
    refine Moves.step (command_moves ..) rfl ?_
    assumption
  clear_value x5
  extract_lets +onlyGivenNames x6
  have h6 : Moves [.free, .m, .triad, .bw, .ch, .ev, .mbx, .img, .port, .conv, .loop, .trim, .hart, .rul, .pins, .enrol] s x6 := by
    unfold x6
    refine Moves.step (refreshAll_moves ..) rfl ?_
    refine Moves.step (raiseProt_moves ..) rfl ?_
    assumption
  clear_value x6
  refine Moves.step (reduce_moves ..) rfl ?_
  assumption

theorem mapOnto_moves (s : State) (p : Chan) (m : Chan)
    : Moves [.free, .bw, .ch, .ev, .mbx, .img, .port, .gov, .enrol] s (mapOnto s p m) := by
  unfold mapOnto
  extract_lets +onlyGivenNames x1
  have h1 : Moves [.free, .bw, .ch, .ev, .mbx, .img, .port, .gov, .enrol] s x1 := by
    unfold x1
    refine Moves.step (discardAcc_moves ..) rfl ?_
    refine Moves.step (discardAcc_moves ..) rfl ?_
    exact Moves.refl _
  clear_value x1
  extract_lets +onlyGivenNames x2
  have h2 : Moves [.free, .bw, .ch, .ev, .mbx, .img, .port, .gov, .enrol] s x2 := by
    unfold x2
    refine Moves.step (State.modCh_moves ..) rfl ?_
    refine Moves.step (State.modCh_moves ..) rfl ?_
    assumption
  clear_value x2
  extract_lets +onlyGivenNames x3
  have h3 : Moves [.free, .bw, .ch, .ev, .mbx, .img, .port, .gov, .enrol] s x3 := by
    unfold x3
    refine Moves.step (command_moves ..) rfl ?_
    assumption
  clear_value x3
  extract_lets +onlyGivenNames x4
  have h4 : Moves [.free, .bw, .ch, .ev, .mbx, .img, .port, .gov, .enrol] s x4 := by
    unfold x4
    refine Moves.ite (fun _ => ?_) (fun _ => ?_)
    · refine Moves.step (demandDO_moves ..) rfl ?_
      assumption
    · assumption
  clear_value x4
  refine Moves.step (refresh_moves ..) rfl ?_
  refine Moves.step (refresh_moves ..) rfl ?_
  assumption

theorem mapPending.mapOne_moves (a : State × List Chan) (p : Chan)
    : Moves [.free, .bw, .ch, .ev, .mbx, .img, .port, .gov, .enrol] a.1 (mapPending.mapOne a p).1 := by
  unfold mapPending.mapOne
  split
  · extract_lets +onlyGivenNames x1
    split
    · dsimp -zeta only
      refine Moves.step (mapOnto_moves ..) rfl ?_
      exact Moves.refl _
    · extract_lets +onlyGivenNames x2
      have h2 : Moves [.free, .bw, .ch, .ev, .mbx, .img, .port, .gov, .enrol] a.1 x2 := by
        unfold x2
        refine Moves.step (State.modCh_moves ..) rfl ?_
        exact Moves.refl _
      clear_value x2
      extract_lets +onlyGivenNames x3
      clear_value x3
      dsimp -zeta only
      refine Moves.ite (fun _ => ?_) (fun _ => ?_)
      · assumption
      · refine Moves.step (raise_moves ..) rfl ?_
        assumption
  · exact Moves.refl _

theorem refillFirst_moves (s : State) (n : Chan) : Moves [.ch] s (refillFirst s n) := by
  unfold refillFirst
  extract_lets +onlyGivenNames x1
  clear_value x1
  refine Moves.ite (fun _ => ?_) (fun _ => ?_)
  · refine Moves.step (State.modCh_moves ..) rfl ?_
    exact Moves.refl _
  · exact Moves.refl _

theorem classify_moves (s : State) (n : Chan) (tick : W64)
    : Moves [.free, .m, .triad, .bw, .ch, .ev, .mbx, .img, .port, .conv, .loop, .trim, .hart, .rul, .pins, .enrol] s (classify s n tick) := by
  unfold classify
  extract_lets +onlyGivenNames x1
  clear_value x1
  refine Moves.ite (fun _ => ?_) (fun _ => ?_)
  · refine Moves.step (raiseProt_moves ..) rfl ?_
    exact Moves.refl _
  · refine Moves.ite (fun _ => ?_) (fun _ => ?_)
    · refine Moves.step (retireChannel_moves ..) rfl ?_
      exact Moves.refl _
    · refine Moves.ite (fun _ => ?_) (fun _ => ?_)
      · refine Moves.step (retireChannel_moves ..) rfl ?_
        exact Moves.refl _
      · extract_lets +onlyGivenNames x2
        clear_value x2
        refine Moves.step (raiseProt_moves ..) rfl ?_
        refine Moves.step (State.modCh_moves ..) rfl ?_
        exact Moves.refl _

theorem takeTrip_moves (s : State) (n : Chan) (bit : Fin 3) (cool : List (Fin 10)) (inLimit : Bool) (ma : W16) (tj : Byte) (tick : W64)
    : Moves [.free, .m, .triad, .bw, .ch, .ev, .mbx, .img, .port, .conv, .loop, .trim, .hart, .rul, .pins, .enrol] s (takeTrip s n bit cool inLimit ma tj tick) := by
  unfold takeTrip
  extract_lets +onlyGivenNames x1
  have h1 : Moves [.free, .m, .triad, .bw, .ch, .ev, .mbx, .img, .port, .conv, .loop, .trim, .hart, .rul, .pins, .enrol] s x1 := by
    unfold x1
    refine Moves.step (State.modCh_moves ..) rfl ?_
    exact Moves.refl _
  clear_value x1
  refine Moves.step (refresh_moves ..) rfl ?_
  refine Moves.step (classify_moves ..) rfl ?_
  refine Moves.step (refillFirst_moves ..) rfl ?_
  assumption

theorem commandAll_moves (s : State) : Moves [.bw, .ch, .ev, .img, .port] s (commandAll s) := by
  unfold commandAll
  refine Moves.step (command_moves ..) rfl ?_
  exact Moves.refl _

theorem takeDO_moves (s : State) (n : Chan) : Moves [.ch, .ev, .img, .port, .gov] s (takeDO s n) := by
  unfold takeDO
  extract_lets +onlyGivenNames x1
  clear_value x1
  extract_lets +onlyGivenNames x2
  extract_lets +onlyGivenNames x3
  clear_value x3
  refine Moves.ite (fun _ => ?_) (fun _ => ?_)
  · refine Moves.step (setCmd_moves ..) rfl ?_
    exact Moves.refl _
  · refine Moves.ite (fun _ => ?_) (fun _ => ?_)
    · refine Moves.step (showCommand_moves ..) rfl ?_
      refine Moves.step (govRefuse_moves ..) rfl ?_
      exact Moves.refl _
    · refine Moves.step (setCmd_moves ..) rfl ?_
      refine Moves.step (govClear_moves ..) rfl ?_
      exact Moves.refl _

theorem takeAO_moves (s : State) (n : Chan) : Moves [.free, .ch, .ev, .img, .port, .conv, .loop, .gov] s (takeAO s n) := by
  unfold takeAO
  extract_lets +onlyGivenNames x1
  clear_value x1
  extract_lets +onlyGivenNames x2
  clear_value x2
  extract_lets +onlyGivenNames x3
  have h3 : Moves [.free, .ch, .ev, .img, .port, .conv, .loop, .gov] s x3 := by
    unfold x3
    refine Moves.ite (fun _ => ?_) (fun _ => ?_)
    · exact Moves.refl _
    · refine Moves.ite (fun _ => ?_) (fun _ => ?_)
      · refine Moves.step (State.modLoop_moves ..) rfl ?_
        exact Moves.refl _
      · refine Moves.step (takeAlarm_moves ..) rfl ?_
        exact Moves.refl _
  clear_value x3
  extract_lets +onlyGivenNames x4
  have h4 : Moves [.free, .ch, .ev, .img, .port, .conv, .loop, .gov] s x4 := by
    unfold x4
    refine Moves.ite (fun _ => ?_) (fun _ => ?_)
    · assumption
    · refine Moves.step (takeCmd_moves ..) rfl ?_
      assumption
  clear_value x4
  refine Moves.ite (fun _ => ?_) (fun _ => ?_)
  · refine Moves.step (targetAO_moves ..) rfl ?_
    assumption
  · assumption

theorem retargetAO_moves (s : State) (n : Chan) : Moves [.bw, .ch, .ev, .img, .port, .conv, .loop] s (retargetAO s n) := by
  unfold retargetAO
  refine Moves.ite (fun _ => ?_) (fun _ => ?_)
  · refine Moves.step (putLoop_moves ..) rfl ?_
    exact Moves.refl _
  · refine Moves.ite (fun _ => ?_) (fun _ => ?_)
    · extract_lets +onlyGivenNames x1
      have h1 : Moves [.bw, .ch, .ev, .img, .port, .conv, .loop] s x1 := by
        unfold x1
        refine Moves.step (safeTarget_moves ..) rfl ?_
        exact Moves.refl _
      clear_value x1
      refine Moves.ite (fun _ => ?_) (fun _ => ?_)
      · assumption
      · refine Moves.step (command_moves ..) rfl ?_
        assumption
    · refine Moves.ite (fun _ => ?_) (fun _ => ?_)
      · refine Moves.step (sendAO_moves ..) rfl ?_
        refine Moves.step (targetAO_moves ..) rfl ?_
        exact Moves.refl _
      · refine Moves.step (putLoop_moves ..) rfl ?_
        exact Moves.refl _

theorem resumeAO_moves (s : State) (n : Chan) : Moves [.free, .bw, .ch, .ev, .img, .port, .conv, .loop, .gov] s (resumeAO s n) := by
  unfold resumeAO
  refine Moves.ite (fun _ => ?_) (fun _ => ?_)
  · split
    · refine Moves.step (setTarget_moves ..) rfl ?_
      exact Moves.refl _
    · refine Moves.step (safeTarget_moves ..) rfl ?_
      exact Moves.refl _
  · extract_lets +onlyGivenNames x1
    have h1 : Moves [.free, .bw, .ch, .ev, .img, .port, .conv, .loop, .gov] s x1 := by
      unfold x1
      refine Moves.step (targetAO_moves ..) rfl ?_
      exact Moves.refl _
    clear_value x1
    refine Moves.ite (fun _ => ?_) (fun _ => ?_)
    · refine Moves.step (sendAO_moves ..) rfl ?_
      refine Moves.step (takeAO_moves ..) rfl ?_
      assumption
    · assumption

theorem takeCommands_moves (s : State) : Moves [.free, .ch, .ev, .img, .port, .conv, .loop, .gov] s (takeCommands s) := by
  unfold takeCommands
  refine Moves.foldl (fun y1 z1 => ?_) ?_
  · refine Moves.ite (fun _ => ?_) (fun _ => ?_)
    · refine Moves.step (takeDO_moves ..) rfl ?_
      exact Moves.refl _
    · refine Moves.ite (fun _ => ?_) (fun _ => ?_)
      · refine Moves.step (takeAO_moves ..) rfl ?_
        exact Moves.refl _
      · exact Moves.refl _
  · exact Moves.refl _

theorem mapPending_moves (s : State) : Moves [.free, .bw, .ch, .ev, .mbx, .img, .port, .gov, .enrol] s (mapPending s) := by
  unfold mapPending
  extract_lets +onlyGivenNames x1
  have h1 : Moves [.free, .bw, .ch, .ev, .mbx, .img, .port, .gov, .enrol] s x1.1 := by
    unfold x1
    refine Moves.foldlFst (fun y2 z2 => ?_) ?_
    · refine Moves.step (mapPending.mapOne_moves ..) rfl ?_
      exact Moves.refl _
    · dsimp -zeta only
      exact Moves.refl _
  clear_value x1
  extract_lets +onlyGivenNames x3
  have h3 : Moves [.free, .bw, .ch, .ev, .mbx, .img, .port, .gov, .enrol] s x3 := by
    unfold x3
    assumption
  refine Moves.upd rfl (fun p => by cases p; (case ch => exact Or.inl ⟨rfl, fun _ _ => trivial⟩); all_goals exact Or.inr rfl) ?_
  assumption

/-! ## FilterOps -/

theorem State.modPath_moves (s : State) (p : PathIx) (f : PathState → PathState) : Moves [.conv] s (State.modPath s p f) := by
  unfold State.modPath
  refine Moves.upd rfl (fun p => by cases p; (case conv => exact Or.inl ⟨rfl, fun _ h => h .conv⟩); all_goals exact Or.inr rfl) ?_
  exact Moves.refl _

theorem loadBank_moves (s : State) (p : PathIx) (bank : Bool) (set : List (BitVec 24)) : Moves [.conv] s (loadBank s p bank set) := by
  unfold loadBank
  refine Moves.upd rfl (fun p => by
      cases p
      case conv => exact Or.inl ⟨rfl, fun _ h => ⟨swf_swriteList (h .conv).1 .., (h .conv).2⟩⟩
      all_goals exact Or.inr rfl) ?_
  exact Moves.refl _

theorem swapNow_moves (s : State) (p : PathIx) (target : Bool) : Moves [.conv] s (swapNow s p target) := by
  unfold swapNow
  refine Moves.step (State.modPath_moves ..) rfl ?_
  exact Moves.refl _

theorem startLoad_moves (s : State) (p : PathIx) : Moves [.conv] s (startLoad s p) := by
  unfold startLoad
  split
  · exact Moves.refl _
  · extract_lets +onlyGivenNames x1
    clear_value x1
    refine Moves.step (State.modPath_moves ..) rfl ?_
    refine Moves.step (loadBank_moves ..) rfl ?_
    exact Moves.refl _

theorem fadeEnd_moves (s : State) (p : PathIx) (target : Bool) : Moves [.conv] s (fadeEnd s p target) := by
  unfold fadeEnd
  extract_lets +onlyGivenNames x1
  have h1 : Moves [.conv] s x1 := by
    unfold x1
    refine Moves.step (State.modPath_moves ..) rfl ?_
    exact Moves.refl _
  clear_value x1
  extract_lets +onlyGivenNames x2
  have h2 : Moves [.conv] s x2 := by
    unfold x2
    split
    · refine Moves.step (State.modPath_moves ..) rfl ?_
      refine Moves.step (loadBank_moves ..) rfl ?_
      assumption
    · assumption
  clear_value x2
  refine Moves.ite (fun _ => ?_) (fun _ => ?_)
  · refine Moves.step (startLoad_moves ..) rfl ?_
    assumption
  · split
    · refine Moves.step (State.modPath_moves ..) rfl ?_
      assumption
    · assumption

theorem updateSetl_moves (s : State) (n : Chan) : Moves [.ch, .ev, .img, .port] s (updateSetl s n) := by
  unfold updateSetl
  extract_lets +onlyGivenNames x1
  clear_value x1
  refine Moves.ite (fun _ => ?_) (fun _ => ?_)
  · exact Moves.refl _
  · refine Moves.step (refresh_moves ..) rfl ?_
    refine Moves.step (State.modCh_moves ..) rfl ?_
    exact Moves.refl _

theorem putResult_moves (s : State) (p : PathIx) (r : ResultBlock) : Moves [.ch, .ev, .img, .port, .conv] s (putResult s p r) := by
  unfold putResult
  extract_lets +onlyGivenNames x1
  clear_value x1
  extract_lets +onlyGivenNames x2
  clear_value x2
  extract_lets +onlyGivenNames x3
  have h3 : Moves [.ch, .ev, .img, .port, .conv] s x3 := by
    unfold x3
    refine Moves.step (State.modPath_moves ..) rfl ?_
    exact Moves.refl _
  clear_value x3
  refine Moves.step (updateSetl_moves ..) rfl ?_
  refine Moves.upd rfl (fun p => by
      cases p
      case conv => exact Or.inl ⟨rfl, fun _ h => ⟨(h .conv).1, swf_swrite (h .conv).2 ..⟩⟩
      all_goals exact Or.inr rfl) ?_
  assumption

theorem resetFrom_moves (s : State) (since : W64) (p : PathIx) : Moves [.ch, .ev, .img, .port, .conv] s (resetFrom s since p) := by
  unfold resetFrom
  refine Moves.ite (fun _ => ?_) (fun _ => ?_)
  · exact Moves.refl _
  · extract_lets +onlyGivenNames x1
    clear_value x1
    extract_lets +onlyGivenNames x2
    clear_value x2
    extract_lets +onlyGivenNames x3
    have h3 : Moves [.ch, .ev, .img, .port, .conv] s x3 := by
      unfold x3
      split
      · refine Moves.step (swapNow_moves ..) rfl ?_
        exact Moves.refl _
      · exact Moves.refl _
    clear_value x3
    extract_lets +onlyGivenNames x4
    have h4 : Moves [.ch, .ev, .img, .port, .conv] s x4 := by
      unfold x4
      refine Moves.step (State.modPath_moves ..) rfl ?_
      assumption
    clear_value x4
    extract_lets +onlyGivenNames x5
    have h5 : Moves [.ch, .ev, .img, .port, .conv] s x5 := by
      unfold x5
      split
      · refine Moves.step (State.modPath_moves ..) rfl ?_
        refine Moves.step (loadBank_moves ..) rfl ?_
        assumption
      · assumption
    clear_value x5
    extract_lets +onlyGivenNames x6
    clear_value x6
    extract_lets +onlyGivenNames x7
    have h7 : Moves [.ch, .ev, .img, .port, .conv] s x7 := by
      unfold x7
      split
      · refine Moves.step (State.modPath_moves ..) rfl ?_
        refine Moves.step (loadBank_moves ..) rfl ?_
        refine Moves.step (loadBank_moves ..) rfl ?_
        assumption
      · assumption
    clear_value x7
    refine Moves.step (putResult_moves ..) rfl ?_
    assumption

theorem syncReset_moves (s : State) (p : PathIx) : Moves [.ch, .ev, .img, .port, .conv] s (syncReset s p) := by
  unfold syncReset
  refine Moves.step (resetFrom_moves ..) rfl ?_
  exact Moves.refl _

theorem resetPaths_moves (s : State) (ps : List PathIx) : Moves [.ch, .ev, .img, .port, .conv] s (resetPaths s ps) := by
  unfold resetPaths
  refine Moves.foldl (fun y1 z1 => ?_) ?_
  · refine Moves.step (syncReset_moves ..) rfl ?_
    exact Moves.refl _
  · exact Moves.refl _

theorem resetAllPaths_moves (s : State) : Moves [.ch, .ev, .img, .port, .conv] s (resetAllPaths s) := by
  unfold resetAllPaths
  refine Moves.step (resetPaths_moves ..) rfl ?_
  exact Moves.refl _

theorem resetConverter_moves (s : State) (voltage : Bool) : Moves [.ch, .ev, .img, .port, .conv] s (resetConverter s voltage) := by
  unfold resetConverter
  refine Moves.step (resetPaths_moves ..) rfl ?_
  exact Moves.refl _

theorem resetChannel_moves (s : State) (n : Chan) : Moves [.ch, .ev, .img, .port, .conv] s (resetChannel s n) := by
  unfold resetChannel
  refine Moves.step (resetPaths_moves ..) rfl ?_
  exact Moves.refl _

theorem putScan_moves (s : State) (mask : W16) (ebb : Bool) (base : Option W64) : Moves [.conv] s (putScan s mask ebb base) := by
  unfold putScan
  refine Moves.upd rfl (fun p => by cases p; (case conv => exact Or.inl ⟨rfl, fun _ h => h .conv⟩); all_goals exact Or.inr rfl) ?_
  exact Moves.refl _

theorem startScan_moves (s : State) (mask : W16) : Moves [.conv] s (startScan s mask) := by
  unfold startScan
  refine Moves.step (putScan_moves ..) rfl ?_
  exact Moves.refl _

theorem setScan_moves (s : State) (mask : W16) (ebb : Bool) : Moves [.ch, .ev, .img, .port, .conv] s (setScan s mask ebb) := by
  unfold setScan
  refine Moves.ite (fun _ => ?_) (fun _ => ?_)
  · refine Moves.upd rfl (fun p => by cases p; (case conv => exact Or.inl ⟨rfl, fun _ h => h .conv⟩); all_goals exact Or.inr rfl) ?_
    exact Moves.refl _
  · refine Moves.ite (fun _ => ?_) (fun _ => ?_)
    · refine Moves.step (resetAllPaths_moves ..) rfl ?_
      refine Moves.step (putScan_moves ..) rfl ?_
      exact Moves.refl _
    · refine Moves.upd rfl (fun p => by cases p; (case conv => exact Or.inl ⟨rfl, fun _ h => h .conv⟩); all_goals exact Or.inr rfl) ?_
      exact Moves.refl _

theorem takeScan_moves (s : State) (x : ScanNext) : Moves [.ch, .ev, .img, .port, .conv] s (takeScan s x) := by
  unfold takeScan
  refine Moves.foldl (fun y1 z1 => ?_) ?_
  · refine Moves.step (resetFrom_moves ..) rfl ?_
    exact Moves.refl _
  · refine Moves.step (putScan_moves ..) rfl ?_
    exact Moves.refl _

theorem roundStart_moves (s : State) (ts : W64) : Moves [.ch, .ev, .img, .port, .conv] s (roundStart s ts) := by
  unfold roundStart
  extract_lets +onlyGivenNames x1
  extract_lets +onlyGivenNames x2
  have h2 : Moves [.ch, .ev, .img, .port, .conv] s x2 := by
    unfold x2
    refine Moves.ite (fun _ => ?_) (fun _ => ?_)
    · refine Moves.upd rfl (fun p => by cases p; (case conv => exact Or.inl ⟨rfl, fun _ h => h .conv⟩); all_goals exact Or.inr rfl) ?_
      exact Moves.refl _
    · exact Moves.refl _
  clear_value x2
  split
  · refine Moves.ite (fun _ => ?_) (fun _ => ?_)
    · refine Moves.step (takeScan_moves ..) rfl ?_
      assumption
    · assumption
  · assumption

theorem scanDue_moves (s : State) : Moves [.ch, .ev, .img, .port, .conv] s (scanDue s) := by
  unfold scanDue
  split
  · refine Moves.ite (fun _ => ?_) (fun _ => ?_)
    · refine Moves.step (takeScan_moves ..) rfl ?_
      exact Moves.refl _
    · exact Moves.refl _
  · exact Moves.refl _

theorem pathOutput_moves (s : State) (p : PathIx) (ts : W64) (taint : Bool) : Moves [.ev, .port, .conv] s (pathOutput s p ts taint) := by
  unfold pathOutput
  extract_lets +onlyGivenNames x1
  clear_value x1
  extract_lets +onlyGivenNames x2
  clear_value x2
  extract_lets +onlyGivenNames x3
  clear_value x3
  extract_lets +onlyGivenNames x4
  clear_value x4
  extract_lets +onlyGivenNames x5
  clear_value x5
  extract_lets +onlyGivenNames x6
  clear_value x6
  extract_lets +onlyGivenNames x7
  clear_value x7
  extract_lets +onlyGivenNames x8
  clear_value x8
  extract_lets +onlyGivenNames x9
  have h9 : Moves [.ev, .port, .conv] s x9 := by
    unfold x9
    refine Moves.step (State.modPath_moves ..) rfl ?_
    exact Moves.refl _
  clear_value x9
  extract_lets +onlyGivenNames x10
  have h10 : Moves [.ev, .port, .conv] s x10 := by
    unfold x10
    refine Moves.ite (fun _ => ?_) (fun _ => ?_)
    · refine Moves.step (raise_moves ..) rfl ?_
      assumption
    · assumption
  clear_value x10
  split
  · refine Moves.ite (fun _ => ?_) (fun _ => ?_)
    · refine Moves.step (fadeEnd_moves ..) rfl ?_
      assumption
    · refine Moves.step (State.modPath_moves ..) rfl ?_
      assumption
  · assumption

theorem feed_moves (s : State) (p : PathIx) (code : ℤ) (ts : W64) (tainted : Bool)
    : Moves [.ev, .port, .conv] s (feed s p code ts tainted) := by
  unfold feed
  extract_lets +onlyGivenNames x1
  clear_value x1
  extract_lets +onlyGivenNames x2
  clear_value x2
  refine Moves.ite (fun _ => ?_) (fun _ => ?_)
  · exact Moves.refl _
  · extract_lets +onlyGivenNames x3
    clear_value x3
    extract_lets +onlyGivenNames x4
    clear_value x4
    extract_lets +onlyGivenNames x5
    clear_value x5
    extract_lets +onlyGivenNames x6
    clear_value x6
    extract_lets +onlyGivenNames x7
    have h7 : Moves [.ev, .port, .conv] s x7 := by
      unfold x7
      refine Moves.step (State.modPath_moves ..) rfl ?_
      exact Moves.refl _
    clear_value x7
    split
    · assumption
    · extract_lets +onlyGivenNames x8
      clear_value x8
      refine Moves.ite (fun _ => ?_) (fun _ => ?_)
      · refine Moves.step (State.modPath_moves ..) rfl ?_
        assumption
      · extract_lets +onlyGivenNames x9
        have h9 : Moves [.ev, .port, .conv] s x9 := by
          unfold x9
          refine Moves.step (State.modPath_moves ..) rfl ?_
          assumption
        clear_value x9
        refine Moves.step (pathOutput_moves ..) rfl ?_
        assumption

theorem takeOutput_moves (s : State) (p : PathIx) (o : FiltOut) : Moves [.ch, .ev, .img, .port, .conv] s (takeOutput s p o) := by
  unfold takeOutput
  extract_lets +onlyGivenNames x1
  extract_lets +onlyGivenNames x2
  clear_value x2
  extract_lets +onlyGivenNames x3
  clear_value x3
  extract_lets +onlyGivenNames x4
  clear_value x4
  extract_lets +onlyGivenNames x5
  clear_value x5
  extract_lets +onlyGivenNames x6
  have h6 : Moves [.ch, .ev, .img, .port, .conv] s x6 := by
    unfold x6
    refine Moves.step (State.modPath_moves ..) rfl ?_
    exact Moves.refl _
  clear_value x6
  refine Moves.step (putResult_moves ..) rfl ?_
  assumption

/-! ## Journal -/

theorem journalCompact_moves (s : State) : Moves [.boot, .flash] s (journalCompact s) := by
  unfold journalCompact
  extract_lets +onlyGivenNames x1
  extract_lets +onlyGivenNames x2
  extract_lets +onlyGivenNames x3
  extract_lets +onlyGivenNames x4
  refine Moves.upd rfl (fun p => by
      cases p
      case boot => exact Or.inl ⟨rfl, fun _ _ => trivial⟩
      case flash => exact Or.inl ⟨rfl, fun _ h => swf_sclear (journalCopy_ok _ (swf_sclear (h .flash) ..) ..) ..⟩
      all_goals exact Or.inr rfl) ?_
  exact Moves.refl _

theorem journalAppend_moves (s : State) (ty : Byte) (ch : Byte) (range : Byte) (qty : Byte) (payload : List Byte)
    : Moves [.boot, .flash] s (journalAppend s ty ch range qty payload).1 := by
  unfold journalAppend
  extract_lets +onlyGivenNames x1
  have h1 : Moves [.boot, .flash] s x1 := by
    unfold x1
    refine Moves.ite (fun _ => ?_) (fun _ => ?_)
    · refine Moves.step (journalCompact_moves ..) rfl ?_
      exact Moves.refl _
    · exact Moves.refl _
  clear_value x1
  extract_lets +onlyGivenNames x2
  clear_value x2
  dsimp -zeta only
  refine Moves.upd rfl (fun p => by
      cases p
      case boot => exact Or.inl ⟨rfl, fun _ _ => trivial⟩
      case flash => exact Or.inl ⟨rfl, fun _ h => swf_swriteList (h .flash) ..⟩
      all_goals exact Or.inr rfl) ?_
  assumption

theorem recordPoint_moves (s : State) (n : Chan) (span : Bool) (c : CalPoint)
    : Moves [.boot, .ev, .port, .flash, .conv] s (recordPoint s n span c).1 := by
  unfold recordPoint
  extract_lets +onlyGivenNames x1
  clear_value x1
  extract_lets +onlyGivenNames x2
  have h2 : Moves [.boot, .ev, .port, .flash, .conv] s x2.1 := by
    unfold x2
    refine Moves.step (journalAppend_moves ..) rfl ?_
    exact Moves.refl _
  clear_value x2
  extract_lets +onlyGivenNames x3
  clear_value x3
  extract_lets +onlyGivenNames x4
  have h4 : Moves [.boot, .ev, .port, .flash, .conv] s x4 := by
    unfold x4
    assumption
  extract_lets +onlyGivenNames x5
  extract_lets +onlyGivenNames x6
  have h6 : Moves [.boot, .ev, .port, .flash, .conv] s x6 := by
    unfold x6
    refine Moves.upd rfl (fun p => by cases p; (case conv => exact Or.inl ⟨rfl, fun _ h => h .conv⟩); all_goals exact Or.inr rfl) ?_
    assumption
  clear_value x6
  dsimp -zeta only
  refine Moves.step (raise_moves ..) rfl ?_
  assumption

theorem restoreFactory_moves (s : State) (n : Option Chan) : Moves [.boot, .ev, .port, .flash, .conv] s (restoreFactory s n).1 := by
  unfold restoreFactory
  extract_lets +onlyGivenNames x1
  clear_value x1
  extract_lets +onlyGivenNames x2
  have h2 : Moves [.boot, .ev, .port, .flash, .conv] s x2.1 := by
    unfold x2
    refine Moves.step (journalAppend_moves ..) rfl ?_
    exact Moves.refl _
  clear_value x2
  extract_lets +onlyGivenNames x3
  have h3 : Moves [.boot, .ev, .port, .flash, .conv] s x3 := by
    unfold x3
    assumption
  extract_lets +onlyGivenNames x4
  extract_lets +onlyGivenNames x5
  have h5 : Moves [.boot, .ev, .port, .flash, .conv] s x5 := by
    unfold x5
    refine Moves.upd rfl (fun p => by cases p; (case conv => exact Or.inl ⟨rfl, fun _ h => h .conv⟩); all_goals exact Or.inr rfl) ?_
    assumption
  clear_value x5
  dsimp -zeta only
  refine Moves.step (raise_moves ..) rfl ?_
  assumption

theorem ledResume_moves (s : State) : Moves [.trim, .pins] s (ledResume s) := by
  unfold ledResume
  extract_lets +onlyGivenNames x1
  clear_value x1
  refine Moves.upd rfl (fun p => by cases p; (case trim | pins => exact Or.inl ⟨rfl, fun _ _ => trivial⟩); all_goals exact Or.inr rfl) ?_
  exact Moves.refl _

theorem buttonEnd_moves (s : State) (ok : Bool) (act : BitVec 3) : Moves [.ev, .port, .trim, .pins] s (buttonEnd s ok act) := by
  unfold buttonEnd
  extract_lets +onlyGivenNames x1
  clear_value x1
  extract_lets +onlyGivenNames x2
  clear_value x2
  extract_lets +onlyGivenNames x3
  clear_value x3
  extract_lets +onlyGivenNames x4
  clear_value x4
  extract_lets +onlyGivenNames x5
  have h5 : Moves [.ev, .port, .trim, .pins] s x5 := by
    unfold x5
    refine Moves.upd rfl (fun p => by cases p; (case trim | pins => exact Or.inl ⟨rfl, fun _ _ => trivial⟩); all_goals exact Or.inr rfl) ?_
    exact Moves.refl _
  clear_value x5
  refine Moves.step (raise_moves ..) rfl ?_
  assumption

theorem mbxEndFree_moves (s : State) (i : SlotIx) (result : Byte) : Moves [.free, .mbx] s (mbxEndFree s i result) := by
  unfold mbxEndFree
  refine Moves.step (mbxEnd_moves ..) rfl ?_
  refine Moves.step (State.draw_moves ..) rfl ?_
  exact Moves.refl _

theorem trimEnd_moves (s : State) (slot : Option SlotIx) (span : Bool) (result : Byte) (detail : Option W32)
    : Moves [.free, .ev, .mbx, .port, .trim, .pins] s (trimEnd s slot span result detail) := by
  unfold trimEnd
  split
  · split
    · refine Moves.step (mbxEnd_moves ..) rfl ?_
      exact Moves.refl _
    · refine Moves.step (mbxEndFree_moves ..) rfl ?_
      exact Moves.refl _
  · refine Moves.step (buttonEnd_moves ..) rfl ?_
    exact Moves.refl _

theorem trimRecord_moves (s : State) (c : TrimCapture) (p : CalPoint) (written : Bool)
    : Moves [.free, .boot, .ev, .mbx, .port, .flash, .conv, .trim, .pins] s (trimRecord s c p written) := by
  unfold trimRecord
  refine Moves.ite (fun _ => ?_) (fun _ => ?_)
  · refine Moves.step (trimEnd_moves ..) rfl ?_
    exact Moves.refl _
  · extract_lets +onlyGivenNames x1
    have h1 : Moves [.free, .boot, .ev, .mbx, .port, .flash, .conv, .trim, .pins] s x1.1 := by
      unfold x1
      refine Moves.step (recordPoint_moves ..) rfl ?_
      exact Moves.refl _
    clear_value x1
    extract_lets +onlyGivenNames x2
    have h2 : Moves [.free, .boot, .ev, .mbx, .port, .flash, .conv, .trim, .pins] s x2 := by
      unfold x2
      split
      · refine Moves.step (mbxReturn_moves ..) rfl ?_
        refine Moves.step (mbxReturn_moves ..) rfl ?_
        refine Moves.step (mbxReturn_moves ..) rfl ?_
        assumption
      · assumption
    clear_value x2
    refine Moves.step (trimEnd_moves ..) rfl ?_
    assumption

theorem trimStart_moves (s : State) (n : Chan) (span : Bool) (r : ℤ) (slot : Option SlotIx)
    : Moves [.free, .ev, .mbx, .port, .conv, .trim, .pins] s (trimStart s n span r slot) := by
  unfold trimStart
  extract_lets +onlyGivenNames x1
  clear_value x1
  refine Moves.ite (fun _ => ?_) (fun _ => ?_)
  · refine Moves.step (trimEnd_moves ..) rfl ?_
    exact Moves.refl _
  · refine Moves.ite (fun _ => ?_) (fun _ => ?_)
    · refine Moves.step (trimEnd_moves ..) rfl ?_
      exact Moves.refl _
    · refine Moves.ite (fun _ => ?_) (fun _ => ?_)
      · refine Moves.step (trimEnd_moves ..) rfl ?_
        exact Moves.refl _
      · refine Moves.ite (fun _ => ?_) (fun _ => ?_)
        · extract_lets +onlyGivenNames x2
          clear_value x2
          refine Moves.ite (fun _ => ?_) (fun _ => ?_)
          · refine Moves.step (trimEnd_moves ..) rfl ?_
            exact Moves.refl _
          · refine Moves.ite (fun _ => ?_) (fun _ => ?_)
            · refine Moves.step (trimEnd_moves ..) rfl ?_
              exact Moves.refl _
            · extract_lets +onlyGivenNames x3
              clear_value x3
              split
              · refine Moves.step (trimEnd_moves ..) rfl ?_
                exact Moves.refl _
              · refine Moves.upd rfl (fun p => by
                    cases p
                    case conv => exact Or.inl ⟨rfl, fun _ h => h .conv⟩
                    all_goals exact Or.inr rfl) ?_
                exact Moves.refl _
        · refine Moves.upd rfl (fun p => by cases p; (case conv => exact Or.inl ⟨rfl, fun _ h => h .conv⟩); all_goals exact Or.inr rfl) ?_
          exact Moves.refl _

theorem trimComplete_moves (s : State) (c : TrimCapture) (written : Bool)
    : Moves [.free, .boot, .ev, .mbx, .port, .flash, .conv, .trim, .pins] s (trimComplete s c written) := by
  unfold trimComplete
  extract_lets +onlyGivenNames x1
  extract_lets +onlyGivenNames x2
  have h2 : Moves [.free, .boot, .ev, .mbx, .port, .flash, .conv, .trim, .pins] s x2 := by
    unfold x2
    refine Moves.upd rfl (fun p => by cases p; (case conv => exact Or.inl ⟨rfl, fun _ h => h .conv⟩); all_goals exact Or.inr rfl) ?_
    exact Moves.refl _
  clear_value x2
  split
  · refine Moves.step (trimRecord_moves ..) rfl ?_
    assumption
  · refine Moves.ite (fun _ => ?_) (fun _ => ?_)
    · refine Moves.step (trimEnd_moves ..) rfl ?_
      assumption
    · refine Moves.ite (fun _ => ?_) (fun _ => ?_)
      · refine Moves.step (trimEnd_moves ..) rfl ?_
        assumption
      · extract_lets +onlyGivenNames x3
        clear_value x3
        split
        · refine Moves.step (trimEnd_moves ..) rfl ?_
          assumption
        · refine Moves.step (trimRecord_moves ..) rfl ?_
          assumption

theorem arm_moves (s : State) (ask : Option Chan) : Moves [.trim, .pins] s (arm s ask) := by
  unfold arm
  extract_lets +onlyGivenNames x1
  clear_value x1
  refine Moves.step (ledResume_moves ..) rfl ?_
  refine Moves.upd rfl (fun p => by cases p; (case trim => exact Or.inl ⟨rfl, fun _ _ => trivial⟩); all_goals exact Or.inr rfl) ?_
  exact Moves.refl _

theorem pressAction_moves (s : State) (zero : Bool) (ms : ℕ)
    : Moves [.free, .boot, .ev, .mbx, .port, .flash, .conv, .trim, .pins] s (pressAction s zero ms) := by
  unfold pressAction
  refine Moves.ite (fun _ => ?_) (fun _ => ?_)
  · exact Moves.refl _
  · refine Moves.ite (fun _ => ?_) (fun _ => ?_)
    · refine Moves.step (trimStart_moves ..) rfl ?_
      exact Moves.refl _
    · refine Moves.ite (fun _ => ?_) (fun _ => ?_)
      · refine Moves.step (buttonEnd_moves ..) rfl ?_
        refine Moves.step (restoreFactory_moves ..) rfl ?_
        exact Moves.refl _
      · exact Moves.refl _

theorem takeButton_moves (s : State) (zero : Bool) (ended : Bool) (ms : ℕ) (both : Bool)
    : Moves [.free, .boot, .ev, .mbx, .port, .flash, .conv, .trim, .pins] s (takeButton s zero ended ms both) := by
  unfold takeButton
  extract_lets +onlyGivenNames x1
  clear_value x1
  extract_lets +onlyGivenNames x2
  have h2 : Moves [.free, .boot, .ev, .mbx, .port, .flash, .conv, .trim, .pins] s x2 := by
    unfold x2
    refine Moves.upd rfl (fun p => by cases p; (case trim => exact Or.inl ⟨rfl, fun _ _ => trivial⟩); all_goals exact Or.inr rfl) ?_
    exact Moves.refl _
  clear_value x2
  refine Moves.ite (fun _ => ?_) (fun _ => ?_)
  · assumption
  · extract_lets +onlyGivenNames x3
    clear_value x3
    refine Moves.ite (fun _ => ?_) (fun _ => ?_)
    · refine Moves.upd rfl (fun p => by cases p; (case trim => exact Or.inl ⟨rfl, fun _ _ => trivial⟩); all_goals exact Or.inr rfl) ?_
      assumption
    · refine Moves.ite (fun _ => ?_) (fun _ => ?_)
      · extract_lets +onlyGivenNames x4
        clear_value x4
        extract_lets +onlyGivenNames x5
        have h5 : Moves [.free, .boot, .ev, .mbx, .port, .flash, .conv, .trim, .pins] s x5 := by
          unfold x5
          refine Moves.upd rfl (fun p => by cases p; (case trim => exact Or.inl ⟨rfl, fun _ _ => trivial⟩); all_goals exact Or.inr rfl) ?_
          assumption
        clear_value x5
        refine Moves.ite (fun _ => ?_) (fun _ => ?_)
        · assumption
        · split
          · refine Moves.step (buttonEnd_moves ..) rfl ?_
            refine Moves.upd rfl (fun p => by cases p; (case trim => exact Or.inl ⟨rfl, fun _ _ => trivial⟩); all_goals exact Or.inr rfl) ?_
            assumption
          · refine Moves.step (buttonEnd_moves ..) rfl ?_
            assumption
      · refine Moves.step (pressAction_moves ..) rfl ?_
        assumption

/-! ## Reports -/

theorem discardAll_moves (s : State) : Moves [.free, .ch, .mbx, .enrol] s (discardAll s) := by
  unfold discardAll
  refine Moves.foldl (fun y1 z1 => ?_) ?_
  · refine Moves.step (discardAcc_moves ..) rfl ?_
    exact Moves.refl _
  · exact Moves.refl _

theorem evalAll_moves (s : State) : Moves [.ch, .ev, .img, .port] s (evalAll s) := by
  unfold evalAll
  refine Moves.foldl (fun y1 z1 => ?_) ?_
  · refine Moves.step (evalLamp_moves ..) rfl ?_
    exact Moves.refl _
  · exact Moves.refl _

theorem converterFault_moves (s : State) (k : Fin 3) : Moves [.ch, .ev, .img, .port, .conv] s (converterFault s k) := by
  unfold converterFault
  extract_lets +onlyGivenNames x1
  clear_value x1
  refine Moves.ite (fun _ => ?_) (fun _ => ?_)
  · exact Moves.refl _
  · extract_lets +onlyGivenNames x2
    extract_lets +onlyGivenNames x3
    have h3 : Moves [.ch, .ev, .img, .port, .conv] s x3 := by
      unfold x3
      refine Moves.upd rfl (fun p => by cases p; (case conv => exact Or.inl ⟨rfl, fun _ h => h .conv⟩); all_goals exact Or.inr rfl) ?_
      exact Moves.refl _
    clear_value x3
    refine Moves.step (evalAll_moves ..) rfl ?_
    refine Moves.step (raise_moves ..) rfl ?_
    assumption

theorem converterClear_moves (s : State) (voltage : Bool) : Moves [.ch, .ev, .img, .port, .conv] s (converterClear s voltage) := by
  unfold converterClear
  extract_lets +onlyGivenNames x1
  extract_lets +onlyGivenNames x2
  have h2 : Moves [.ch, .ev, .img, .port, .conv] s x2 := by
    unfold x2
    refine Moves.upd rfl (fun p => by
        cases p
        case conv => exact Or.inl ⟨rfl, fun _ h => by have k := h .conv; unfold Part.sound at k ⊢; dsimp only; split <;> exact k⟩
        all_goals exact Or.inr rfl) ?_
    exact Moves.refl _
  clear_value x2
  refine Moves.step (evalAll_moves ..) rfl ?_
  refine Moves.step (resetConverter_moves ..) rfl ?_
  assumption

theorem sarRecover_moves (s : State) : Moves [.ch, .ev, .img, .port, .conv] s (sarRecover s) := by
  unfold sarRecover
  extract_lets +onlyGivenNames x1
  have h1 : Moves [.ch, .ev, .img, .port, .conv] s x1 := by
    unfold x1
    refine Moves.ite (fun _ => ?_) (fun _ => ?_)
    · refine Moves.step (converterClear_moves ..) rfl ?_
      exact Moves.refl _
    · exact Moves.refl _
  clear_value x1
  refine Moves.ite (fun _ => ?_) (fun _ => ?_)
  · refine Moves.step (converterClear_moves ..) rfl ?_
    assumption
  · assumption

theorem takeDi_moves (s : State) (n : Chan) (level : Bool) (tick : W64) : Moves [.ch, .img] s (takeDi s n level tick) := by
  unfold takeDi
  extract_lets +onlyGivenNames x1
  clear_value x1
  extract_lets +onlyGivenNames x2
  clear_value x2
  refine Moves.ite (fun _ => ?_) (fun _ => ?_)
  · refine Moves.step (putChanState_moves ..) rfl ?_
    refine Moves.step (State.modCh_moves ..) rfl ?_
    exact Moves.refl _
  · extract_lets +onlyGivenNames x3
    clear_value x3
    refine Moves.step (putChanState_moves ..) rfl ?_
    refine Moves.step (State.modCh_moves ..) rfl ?_
    exact Moves.refl _

theorem takeRaw_moves (s : State) (levels : W16) : Moves [.ch] s (takeRaw s levels) := by
  unfold takeRaw
  refine Moves.upd rfl (fun p => by cases p; (case ch => exact Or.inl ⟨rfl, fun _ _ => trivial⟩); all_goals exact Or.inr rfl) ?_
  exact Moves.refl _

theorem takeDiClass_moves (s : State) (n : Chan) (k : DiClass) : Moves [.ch, .ev, .img, .port] s (takeDiClass s n k) := by
  unfold takeDiClass
  extract_lets +onlyGivenNames x1
  have h1 : Moves [.ch, .ev, .img, .port] s x1 := by
    unfold x1
    refine Moves.step (State.modCh_moves ..) rfl ?_
    exact Moves.refl _
  clear_value x1
  extract_lets +onlyGivenNames x2
  have h2 : Moves [.ch, .ev, .img, .port] s x2 := by
    unfold x2
    refine Moves.step (refresh_moves ..) rfl ?_
    assumption
  clear_value x2
  refine Moves.ite (fun _ => ?_) (fun _ => ?_)
  · refine Moves.step (raiseWire_moves ..) rfl ?_
    assumption
  · refine Moves.ite (fun _ => ?_) (fun _ => ?_)
    · refine Moves.step (raiseMeasure_moves ..) rfl ?_
      assumption
    · assumption

theorem takeWiring.untaint_moves (s : State) (n : Chan) : Moves [.conv] s (takeWiring.untaint s n) := by
  unfold takeWiring.untaint
  refine Moves.step (State.modPath_moves ..) rfl ?_
  refine Moves.step (State.modPath_moves ..) rfl ?_
  exact Moves.refl _

theorem takeSwitched_moves (s : State) (n : Chan) (on : Bool) : Moves [.ch, .ev, .img, .port] s (takeSwitched s n on) := by
  unfold takeSwitched
  extract_lets +onlyGivenNames x1
  clear_value x1
  extract_lets +onlyGivenNames x2
  have h2 : Moves [.ch, .ev, .img, .port] s x2 := by
    unfold x2
    refine Moves.foldl (fun y3 z3 => ?_) ?_
    · refine Moves.step (putChanState_moves ..) rfl ?_
      refine Moves.step (State.modCh_moves ..) rfl ?_
      exact Moves.refl _
    · exact Moves.refl _
  clear_value x2
  extract_lets +onlyGivenNames x4
  have h4 : Moves [.ch, .ev, .img, .port] s x4 := by
    unfold x4
    refine Moves.step (State.modCh_moves ..) rfl ?_
    assumption
  clear_value x4
  refine Moves.step (evalLamp_moves ..) rfl ?_
  assumption

theorem takePulse_moves (s : State) (n : Chan) (k : Pulse) (agree : Bool) (rload : Option W16) (tick : W64)
    : Moves [.ch, .ev, .img, .port] s (takePulse s n k agree rload tick) := by
  unfold takePulse
  refine Moves.step (evalLamp_moves ..) rfl ?_
  refine Moves.step (State.modCh_moves ..) rfl ?_
  exact Moves.refl _

theorem takePhantom_moves (s : State) (n : Chan) (det : Bool) (supp : Bool) (driven : Bool)
    : Moves [.ch, .ev, .img, .port] s (takePhantom s n det supp driven) := by
  unfold takePhantom
  refine Moves.step (evalLamp_moves ..) rfl ?_
  refine Moves.step (State.modCh_moves ..) rfl ?_
  exact Moves.refl _

theorem takePathCheck_moves (s : State) (n : Chan) (fail : BitVec 4) (tick : W64)
    : Moves [.ch, .ev, .img, .port, .conv] s (takePathCheck s n fail tick) := by
  unfold takePathCheck
  extract_lets +onlyGivenNames x1
  have h1 : Moves [.ch, .ev, .img, .port, .conv] s x1 := by
    unfold x1
    refine Moves.step (State.modCh_moves ..) rfl ?_
    exact Moves.refl _
  clear_value x1
  extract_lets +onlyGivenNames x2
  clear_value x2
  extract_lets +onlyGivenNames x3
  clear_value x3
  extract_lets +onlyGivenNames x4
  extract_lets +onlyGivenNames x5
  have h5 : Moves [.ch, .ev, .img, .port, .conv] s x5 := by
    unfold x5
    refine Moves.upd rfl (fun p => by cases p; (case conv => exact Or.inl ⟨rfl, fun _ h => h .conv⟩); all_goals exact Or.inr rfl) ?_
    assumption
  clear_value x5
  extract_lets +onlyGivenNames x6
  have h6 : Moves [.ch, .ev, .img, .port, .conv] s x6 := by
    unfold x6
    refine Moves.ite (fun _ => ?_) (fun _ => ?_)
    · refine Moves.step (converterFault_moves ..) rfl ?_
      assumption
    · assumption
  clear_value x6
  extract_lets +onlyGivenNames x7
  have h7 : Moves [.ch, .ev, .img, .port, .conv] s x7 := by
    unfold x7
    refine Moves.step (sarRecover_moves ..) rfl ?_
    refine Moves.ite (fun _ => ?_) (fun _ => ?_)
    · refine Moves.step (converterFault_moves ..) rfl ?_
      assumption
    · assumption
  clear_value x7
  refine Moves.step (evalLamp_moves ..) rfl ?_
  refine Moves.ite (fun _ => ?_) (fun _ => ?_)
  · assumption
  · refine Moves.step (raiseMeasure_moves ..) rfl ?_
    assumption

theorem takeCompliance_moves (s : State) (n : Chan) (bit : Fin 11) (on : Bool)
    : Moves [.ev, .img, .port, .loop] s (takeCompliance s n bit on) := by
  unfold takeCompliance
  extract_lets +onlyGivenNames x1
  clear_value x1
  extract_lets +onlyGivenNames x2
  have h2 : Moves [.ev, .img, .port, .loop] s x2 := by
    unfold x2
    refine Moves.step (State.modLoop_moves ..) rfl ?_
    exact Moves.refl _
  clear_value x2
  extract_lets +onlyGivenNames x3
  have h3 : Moves [.ev, .img, .port, .loop] s x3 := by
    unfold x3
    refine Moves.ite (fun _ => ?_) (fun _ => ?_)
    · refine Moves.step (raiseMeasure_moves ..) rfl ?_
      assumption
    · refine Moves.ite (fun _ => ?_) (fun _ => ?_)
      · refine Moves.step (raiseMeasure_moves ..) rfl ?_
        assumption
      · assumption
  clear_value x3
  refine Moves.step (putLoop_moves ..) rfl ?_
  assumption

theorem putSupply_moves (s : State) : Moves [.img] s (putSupply s) := by
  unfold putSupply
  refine Moves.step (putHealth_moves ..) rfl ?_
  exact Moves.refl _

theorem takeSupply_moves (s : State) (band : BitVec 2)
    : Moves [.free, .m, .bw, .ch, .ev, .mbx, .img, .port, .conv, .loop, .trim, .gov, .enrol] s (takeSupply s band) := by
  unfold takeSupply
  extract_lets +onlyGivenNames x1
  clear_value x1
  extract_lets +onlyGivenNames x2
  clear_value x2
  extract_lets +onlyGivenNames x3
  clear_value x3
  extract_lets +onlyGivenNames x4
  clear_value x4
  extract_lets +onlyGivenNames x5
  extract_lets +onlyGivenNames x6
  clear_value x6
  extract_lets +onlyGivenNames x7
  have h7 : Moves [.free, .m, .bw, .ch, .ev, .mbx, .img, .port, .conv, .loop, .trim, .gov, .enrol] s x7 := by
    unfold x7
    refine Moves.upd rfl (fun p => by
        cases p
        case m | bw | trim => exact Or.inl ⟨rfl, fun _ _ => trivial⟩
        case conv => exact Or.inl ⟨rfl, fun _ h => h .conv⟩
        all_goals exact Or.inr rfl) ?_
    exact Moves.refl _
  clear_value x7
  extract_lets +onlyGivenNames x8
  have h8 : Moves [.free, .m, .bw, .ch, .ev, .mbx, .img, .port, .conv, .loop, .trim, .gov, .enrol] s x8 := by
    unfold x8
    refine Moves.ite (fun _ => ?_) (fun _ => ?_)
    · refine Moves.step (fieldGone_moves ..) rfl ?_
      assumption
    · assumption
  clear_value x8
  extract_lets +onlyGivenNames x9
  have h9 : Moves [.free, .m, .bw, .ch, .ev, .mbx, .img, .port, .conv, .loop, .trim, .gov, .enrol] s x9 := by
    unfold x9
    refine Moves.step (raise_moves ..) rfl ?_
    refine Moves.step (putSupply_moves ..) rfl ?_
    assumption
  clear_value x9
  extract_lets +onlyGivenNames x10
  have h10 : Moves [.free, .m, .bw, .ch, .ev, .mbx, .img, .port, .conv, .loop, .trim, .gov, .enrol] s x10 := by
    unfold x10
    refine Moves.foldl (fun y11 z11 => ?_) ?_
    · refine Moves.step (putDir_moves ..) rfl ?_
      exact Moves.refl _
    · refine Moves.ite (fun _ => ?_) (fun _ => ?_)
      · refine Moves.step (discardAll_moves ..) rfl ?_
        assumption
      · assumption
  clear_value x10
  refine Moves.step (evalAll_moves ..) rfl ?_
  refine Moves.ite (fun _ => ?_) (fun _ => ?_)
  · refine Moves.foldl (fun y12 z12 => ?_) ?_
    · refine Moves.step (tryRestartNow_moves ..) rfl ?_
      exact Moves.refl _
    · assumption
  · assumption

theorem takeGasp_moves (s : State) (number : ℕ) : Moves [.m, .recov, .bw, .ev, .port] s (takeGasp s number) := by
  unfold takeGasp
  refine Moves.ite (fun _ => ?_) (fun _ => ?_)
  · exact Moves.refl _
  · extract_lets +onlyGivenNames x1
    clear_value x1
    extract_lets +onlyGivenNames x2
    clear_value x2
    extract_lets +onlyGivenNames x3
    have h3 : Moves [.m, .recov, .bw, .ev, .port] s x3 := by
      unfold x3
      refine Moves.upd rfl (fun p => by cases p; (case m | bw => exact Or.inl ⟨rfl, fun _ _ => trivial⟩); all_goals exact Or.inr rfl) ?_
      exact Moves.refl _
    clear_value x3
    refine Moves.ite (fun _ => ?_) (fun _ => ?_)
    · extract_lets +onlyGivenNames x4
      extract_lets +onlyGivenNames x5
      have h5 : Moves [.m, .recov, .bw, .ev, .port] s x5 := by
        unfold x5
        refine Moves.upd rfl (fun p => by cases p; (case recov => exact Or.inl ⟨rfl, fun _ h => h .recov⟩); all_goals exact Or.inr rfl) ?_
        assumption
      refine Moves.ite (fun _ => ?_) (fun _ => ?_)
      · extract_lets +onlyGivenNames x6
        extract_lets +onlyGivenNames x7
        have h7 : Moves [.m, .recov, .bw, .ev, .port] s x7 := by
          unfold x7
          refine Moves.upd rfl (fun p => by cases p; (case recov => exact Or.inl ⟨rfl, fun _ h => h .recov⟩); all_goals exact Or.inr rfl) ?_
          assumption
        clear_value x7
        refine Moves.step (raise_moves ..) rfl ?_
        assumption
      · assumption
    · assumption

theorem takeAlmsel_moves (s : State) (b : Bool) : Moves [.bw, .ch, .ev, .img, .port, .conv, .loop, .trim] s (takeAlmsel s b) := by
  unfold takeAlmsel
  refine Moves.ite (fun _ => ?_) (fun _ => ?_)
  · exact Moves.refl _
  · refine Moves.foldl (fun y1 z1 => ?_) ?_
    · refine Moves.step (retargetAO_moves ..) rfl ?_
      exact Moves.refl _
    · refine Moves.upd rfl (fun p => by cases p; (case trim => exact Or.inl ⟨rfl, fun _ _ => trivial⟩); all_goals exact Or.inr rfl) ?_
      exact Moves.refl _

theorem takeBlock_moves (s : State) (n : Chan) (isOpen : Bool)
    : Moves [.free, .bw, .ch, .ev, .img, .port, .conv, .loop, .gov] s (takeBlock s n isOpen) := by
  unfold takeBlock
  extract_lets +onlyGivenNames x1
  have h1 : Moves [.free, .bw, .ch, .ev, .img, .port, .conv, .loop, .gov] s x1 := by
    unfold x1
    refine Moves.step (refresh_moves ..) rfl ?_
    refine Moves.step (State.modCh_moves ..) rfl ?_
    exact Moves.refl _
  clear_value x1
  refine Moves.ite (fun _ => ?_) (fun _ => ?_)
  · assumption
  · refine Moves.ite (fun _ => ?_) (fun _ => ?_)
    · refine Moves.step (targetOff_moves ..) rfl ?_
      assumption
    · refine Moves.ite (fun _ => ?_) (fun _ => ?_)
      · refine Moves.step (resumeAO_moves ..) rfl ?_
        assumption
      · assumption

theorem takeRiseRefused_moves (s : State) (n : Chan) (on : Bool) (code : W16) (sel : BitVec 2)
    : Moves [.ch, .ev, .img, .port, .conv, .loop] s (takeRiseRefused s n on code sel) := by
  unfold takeRiseRefused
  refine Moves.ite (fun _ => ?_) (fun _ => ?_)
  · exact Moves.refl _
  · extract_lets +onlyGivenNames x1
    extract_lets +onlyGivenNames x2
    have h2 : Moves [.ch, .ev, .img, .port, .conv, .loop] s x2 := by
      unfold x2
      refine Moves.step (setTarget_moves ..) rfl ?_
      exact Moves.refl _
    clear_value x2
    refine Moves.ite (fun _ => ?_) (fun _ => ?_)
    · assumption
    · refine Moves.ite (fun _ => ?_) (fun _ => ?_)
      · refine Moves.step (alarmRefused_moves ..) rfl ?_
        refine Moves.step (State.modLoop_moves ..) rfl ?_
        assumption
      · refine Moves.step (putLoop_moves ..) rfl ?_
        refine Moves.step (showCommand_moves ..) rfl ?_
        assumption

theorem leftDefault_moves (old : State) (s : State) (n : Chan)
    : Moves [.free, .bw, .ch, .ev, .img, .port, .conv, .loop, .gov] s (leftDefault old s n) := by
  unfold leftDefault
  refine Moves.ite (fun _ => ?_) (fun _ => ?_)
  · extract_lets +onlyGivenNames x1
    have h1 : Moves [.free, .bw, .ch, .ev, .img, .port, .conv, .loop, .gov] s x1 := by
      unfold x1
      refine Moves.step (resetChannel_moves ..) rfl ?_
      exact Moves.refl _
    clear_value x1
    refine Moves.ite (fun _ => ?_) (fun _ => ?_)
    · extract_lets +onlyGivenNames x2
      have h2 : Moves [.free, .bw, .ch, .ev, .img, .port, .conv, .loop, .gov] s x2 := by
        unfold x2
        refine Moves.step (resumeAO_moves ..) rfl ?_
        assumption
      clear_value x2
      refine Moves.ite (fun _ => ?_) (fun _ => ?_)
      · refine Moves.step (command_moves ..) rfl ?_
        assumption
      · assumption
    · assumption
  · exact Moves.refl _

theorem leaveDefault_moves (old : State) (s : State)
    : Moves [.free, .bw, .ch, .ev, .img, .port, .conv, .loop, .gov] s (leaveDefault old s) := by
  unfold leaveDefault
  refine Moves.foldl (fun y1 z1 => ?_) ?_
  · refine Moves.step (leftDefault_moves ..) rfl ?_
    exact Moves.refl _
  · exact Moves.refl _

theorem takeConfigured_moves (s : State) (waits : Vector Bool 16)
    : Moves [.free, .bw, .ch, .ev, .img, .port, .conv, .loop, .gov] s (takeConfigured s waits) := by
  unfold takeConfigured
  refine Moves.step (leaveDefault_moves ..) rfl ?_
  refine Moves.step (refreshAll_moves ..) rfl ?_
  refine Moves.upd rfl (fun p => by cases p; (case ch => exact Or.inl ⟨rfl, fun _ _ => trivial⟩); all_goals exact Or.inr rfl) ?_
  exact Moves.refl _

theorem takeChangeover_moves (s : State) (n : Chan) (gone : Bool) : Moves [.ch, .img] s (takeChangeover s n gone) := by
  unfold takeChangeover
  extract_lets +onlyGivenNames x1
  have h1 : Moves [.ch, .img] s x1 := by
    unfold x1
    refine Moves.step (State.modCh_moves ..) rfl ?_
    exact Moves.refl _
  clear_value x1
  refine Moves.ite (fun _ => ?_) (fun _ => ?_)
  · extract_lets +onlyGivenNames x2
    clear_value x2
    extract_lets +onlyGivenNames x3
    have h3 : Moves [.ch, .img] s x3 := by
      unfold x3
      refine Moves.step (State.modCh_moves ..) rfl ?_
      refine Moves.step (setCmd_moves ..) rfl ?_
      assumption
    clear_value x3
    refine Moves.step (showCommand_moves ..) rfl ?_
    assumption
  · assumption

theorem takeShort_moves (s : State) (n : Chan) (on : Bool) : Moves [.ch, .ev, .mbx, .img, .port, .loop, .hart] s (takeShort s n on) := by
  unfold takeShort
  refine Moves.step (refresh_moves ..) rfl ?_
  refine Moves.step (State.modCh_moves ..) rfl ?_
  refine Moves.ite (fun _ => ?_) (fun _ => ?_)
  · refine Moves.step (hartHit_moves ..) rfl ?_
    exact Moves.refl _
  · exact Moves.refl _

theorem raiseBw_moves (s : State) : Moves [.ev, .port] s (raiseBw s) := by
  unfold raiseBw
  refine Moves.step (raise_moves ..) rfl ?_
  exact Moves.refl _

theorem dropValid_moves (s : State) : Moves [.conv] s (dropValid s) := by
  unfold dropValid
  refine Moves.upd rfl (fun p => by cases p; (case conv => exact Or.inl ⟨rfl, fun _ h => h .conv⟩); all_goals exact Or.inr rfl) ?_
  exact Moves.refl _

theorem laneDown_moves (s : State) (lane1 : Bool) : Moves [.bw, .conv] s (laneDown s lane1) := by
  unfold laneDown
  refine Moves.ite (fun _ => ?_) (fun _ => ?_)
  · refine Moves.upd rfl (fun p => by cases p; (case bw => exact Or.inl ⟨rfl, fun _ _ => trivial⟩); all_goals exact Or.inr rfl) ?_
    exact Moves.refl _
  · refine Moves.step (dropValid_moves ..) rfl ?_
    refine Moves.upd rfl (fun p => by cases p; (case bw => exact Or.inl ⟨rfl, fun _ _ => trivial⟩); all_goals exact Or.inr rfl) ?_
    exact Moves.refl _

theorem refreshServed_moves (s : State) : Moves [.ch, .ev, .img, .port] s (refreshServed s) := by
  unfold refreshServed
  refine Moves.ite (fun _ => ?_) (fun _ => ?_)
  · refine Moves.step (refreshAll_moves ..) rfl ?_
    exact Moves.refl _
  · exact Moves.refl _

theorem laneChanged_moves (s : State) : Moves [.ch, .ev, .img, .port] s (laneChanged s) := by
  unfold laneChanged
  refine Moves.step (refreshServed_moves ..) rfl ?_
  refine Moves.step (raiseBw_moves ..) rfl ?_
  exact Moves.refl _

theorem startFieldReinit_moves (s : State) (slot : Option SlotIx)
    : Moves [.recov, .bw, .ch, .ev, .img, .port, .conv] s (startFieldReinit s slot) := by
  unfold startFieldReinit
  refine Moves.ite (fun _ => ?_) (fun _ => ?_)
  · exact Moves.refl _
  · extract_lets +onlyGivenNames x1
    have h1 : Moves [.recov, .bw, .ch, .ev, .img, .port, .conv] s x1 := by
      unfold x1
      refine Moves.step (laneDown_moves ..) rfl ?_
      refine Moves.step (laneDown_moves ..) rfl ?_
      exact Moves.refl _
    clear_value x1
    extract_lets +onlyGivenNames x2
    extract_lets +onlyGivenNames x3
    clear_value x3
    extract_lets +onlyGivenNames x4
    have h4 : Moves [.recov, .bw, .ch, .ev, .img, .port, .conv] s x4 := by
      unfold x4
      refine Moves.upd rfl (fun p => by
          cases p
          case bw => exact Or.inl ⟨rfl, fun _ _ => trivial⟩
          case recov => exact Or.inl ⟨rfl, fun _ h => h .recov⟩
          all_goals exact Or.inr rfl) ?_
      assumption
    clear_value x4
    refine Moves.step (refreshAll_moves ..) rfl ?_
    refine Moves.step (evalAll_moves ..) rfl ?_
    assumption

theorem takeWiring_moves (s : State) (n : Chan) (rev : Bool) (on : Bool) (held : Bool)
    : Moves [.ch, .ev, .mbx, .img, .port, .conv, .loop, .hart] s (takeWiring s n rev on held) := by
  unfold takeWiring
  extract_lets +onlyGivenNames x1
  have h1 : Moves [.ch, .ev, .mbx, .img, .port, .conv, .loop, .hart] s x1 := by
    unfold x1
    refine Moves.step (State.modCh_moves ..) rfl ?_
    exact Moves.refl _
  clear_value x1
  extract_lets +onlyGivenNames x2
  have h2 : Moves [.ch, .ev, .mbx, .img, .port, .conv, .loop, .hart] s x2 := by
    unfold x2
    refine Moves.step (refresh_moves ..) rfl ?_
    assumption
  clear_value x2
  refine Moves.ite (fun _ => ?_) (fun _ => ?_)
  · refine Moves.step (hartHit_moves ..) rfl ?_
    refine Moves.step (raiseWire_moves ..) rfl ?_
    refine Moves.step (takeWiring.untaint_moves ..) rfl ?_
    assumption
  · refine Moves.ite (fun _ => ?_) (fun _ => ?_)
    · refine Moves.step (refresh_moves ..) rfl ?_
      refine Moves.step (resetChannel_moves ..) rfl ?_
      assumption
    · assumption

theorem takeReport_moves (s : State) (r : Report)
    : Moves (partsBut [.pending, .tick, .straps, .clk, .held, .mirror, .otp, .time, .host, .mem, .chk]) s (takeReport s r) := by
  unfold takeReport
  split
  · refine Moves.step (takeDi_moves ..) rfl ?_
    exact Moves.refl _
  · refine Moves.step (takeDiClass_moves ..) rfl ?_
    exact Moves.refl _
  · refine Moves.step (refresh_moves ..) rfl ?_
    refine Moves.step (State.modCh_moves ..) rfl ?_
    exact Moves.refl _
  · refine Moves.step (refresh_moves ..) rfl ?_
    refine Moves.step (State.modCh_moves ..) rfl ?_
    exact Moves.refl _
  · refine Moves.step (takeShort_moves ..) rfl ?_
    exact Moves.refl _
  · refine Moves.step (refresh_moves ..) rfl ?_
    refine Moves.step (State.modCh_moves ..) rfl ?_
    exact Moves.refl _
  · refine Moves.step (takeBlock_moves ..) rfl ?_
    exact Moves.refl _
  · refine Moves.step (takeWiring_moves ..) rfl ?_
    exact Moves.refl _
  · refine Moves.step (resetChannel_moves ..) rfl ?_
    refine Moves.step (State.modCh_moves ..) rfl ?_
    exact Moves.refl _
  · extract_lets +onlyGivenNames x1
    have h1 : Moves (partsBut [.pending, .tick, .straps, .clk, .held, .mirror, .otp, .time, .host, .mem, .chk]) s x1 := by
      unfold x1
      refine Moves.step (State.modCh_moves ..) rfl ?_
      exact Moves.refl _
    clear_value x1
    refine Moves.ite (fun _ => ?_) (fun _ => ?_)
    · refine Moves.step (raiseWire_moves ..) rfl ?_
      refine Moves.step (refresh_moves ..) rfl ?_
      assumption
    · refine Moves.step (tryRestartNow_moves ..) rfl ?_
      refine Moves.step (refresh_moves ..) rfl ?_
      assumption
  · extract_lets +onlyGivenNames x2
    have h2 : Moves (partsBut [.pending, .tick, .straps, .clk, .held, .mirror, .otp, .time, .host, .mem, .chk]) s x2 := by
      unfold x2
      refine Moves.step (refresh_moves ..) rfl ?_
      refine Moves.step (State.modCh_moves ..) rfl ?_
      exact Moves.refl _
    clear_value x2
    refine Moves.ite (fun _ => ?_) (fun _ => ?_)
    · refine Moves.ite (fun _ => ?_) (fun _ => ?_)
      · refine Moves.step (raiseWire_moves ..) rfl ?_
        assumption
      · assumption
    · refine Moves.step (tryRestartNow_moves ..) rfl ?_
      assumption
  · refine Moves.step (takeTrip_moves ..) rfl ?_
    exact Moves.refl _
  · refine Moves.ite (fun _ => ?_) (fun _ => ?_)
    · extract_lets +onlyGivenNames x3
      have h3 : Moves (partsBut [.pending, .tick, .straps, .clk, .held, .mirror, .otp, .time, .host, .mem, .chk]) s x3 := by
        unfold x3
        refine Moves.step (State.modCh_moves ..) rfl ?_
        exact Moves.refl _
      clear_value x3
      refine Moves.step (evalLamp_moves ..) rfl ?_
      refine Moves.step (raiseProt_moves ..) rfl ?_
      assumption
    · refine Moves.step (tryRestartNow_moves ..) rfl ?_
      refine Moves.step (evalLamp_moves ..) rfl ?_
      refine Moves.step (State.modCh_moves ..) rfl ?_
      exact Moves.refl _
  · refine Moves.step (evalLamp_moves ..) rfl ?_
    refine Moves.step (State.modCh_moves ..) rfl ?_
    exact Moves.refl _
  · refine Moves.step (State.modCh_moves ..) rfl ?_
    exact Moves.refl _
  · refine Moves.step (State.modCh_moves ..) rfl ?_
    exact Moves.refl _
  · refine Moves.step (evalLamp_moves ..) rfl ?_
    refine Moves.step (State.modCh_moves ..) rfl ?_
    exact Moves.refl _
  · refine Moves.step (State.modCh_moves ..) rfl ?_
    exact Moves.refl _
  · refine Moves.step (takeSwitched_moves ..) rfl ?_
    exact Moves.refl _
  · refine Moves.step (evalLamp_moves ..) rfl ?_
    refine Moves.step (State.modCh_moves ..) rfl ?_
    exact Moves.refl _
  · refine Moves.step (takePulse_moves ..) rfl ?_
    exact Moves.refl _
  · refine Moves.step (takePhantom_moves ..) rfl ?_
    exact Moves.refl _
  · refine Moves.step (takePathCheck_moves ..) rfl ?_
    exact Moves.refl _
  · extract_lets +onlyGivenNames x4
    have h4 : Moves (partsBut [.pending, .tick, .straps, .clk, .held, .mirror, .otp, .time, .host, .mem, .chk]) s x4 := by
      unfold x4
      refine Moves.step (evalLamp_moves ..) rfl ?_
      refine Moves.step (State.modCh_moves ..) rfl ?_
      exact Moves.refl _
    clear_value x4
    refine Moves.ite (fun _ => ?_) (fun _ => ?_)
    · refine Moves.step (tryRestartNow_moves ..) rfl ?_
      assumption
    · assumption
  · exact Moves.refl _
  · refine Moves.step (evalLamp_moves ..) rfl ?_
    exact Moves.refl _
  · refine Moves.step (takeRiseRefused_moves ..) rfl ?_
    exact Moves.refl _
  · refine Moves.step (discardAcc_moves ..) rfl ?_
    exact Moves.refl _
  · refine Moves.step (takeCompliance_moves ..) rfl ?_
    exact Moves.refl _
  · refine Moves.step (takeSupply_moves ..) rfl ?_
    exact Moves.refl _
  · refine Moves.step (takeGasp_moves ..) rfl ?_
    exact Moves.refl _
  · refine Moves.step (takeAlmsel_moves ..) rfl ?_
    exact Moves.refl _
  · refine Moves.step (takeButton_moves ..) rfl ?_
    exact Moves.refl _
  · refine Moves.step (takeRaw_moves ..) rfl ?_
    exact Moves.refl _
  · refine Moves.upd rfl (fun p => by cases p; (case ch => exact Or.inl ⟨rfl, fun _ _ => trivial⟩); all_goals exact Or.inr rfl) ?_
    exact Moves.refl _
  · refine Moves.step (refresh_moves ..) rfl ?_
    refine Moves.step (evalLamp_moves ..) rfl ?_
    refine Moves.step (State.modCh_moves ..) rfl ?_
    exact Moves.refl _
  · refine Moves.step (takeConfigured_moves ..) rfl ?_
    exact Moves.refl _
  · refine Moves.step (takeChangeover_moves ..) rfl ?_
    exact Moves.refl _
  · refine Moves.step (raise_moves ..) rfl ?_
    refine Moves.step (putSupply_moves ..) rfl ?_
    refine Moves.upd rfl (fun p => by cases p; (case m => exact Or.inl ⟨rfl, fun _ _ => trivial⟩); all_goals exact Or.inr rfl) ?_
    exact Moves.refl _
  · refine Moves.step (evalAll_moves ..) rfl ?_
    refine Moves.upd rfl (fun p => by cases p; (case conv => exact Or.inl ⟨rfl, fun _ h => h .conv⟩); all_goals exact Or.inr rfl) ?_
    exact Moves.refl _
  · refine Moves.ite (fun _ => ?_) (fun _ => ?_)
    · exact Moves.refl _
    · refine Moves.step (evalAll_moves ..) rfl ?_
      refine Moves.upd rfl (fun p => by cases p; (case conv => exact Or.inl ⟨rfl, fun _ h => h .conv⟩); all_goals exact Or.inr rfl) ?_
      exact Moves.refl _
  · refine Moves.step (enterStop_moves ..) rfl ?_
    exact Moves.refl _
  · refine Moves.upd rfl (fun p => by cases p; (case bw => exact Or.inl ⟨rfl, fun _ _ => trivial⟩); all_goals exact Or.inr rfl) ?_
    exact Moves.refl _
  · refine Moves.step (startFieldReinit_moves ..) rfl ?_
    refine Moves.upd rfl (fun p => by cases p; (case bw => exact Or.inl ⟨rfl, fun _ _ => trivial⟩); all_goals exact Or.inr rfl) ?_
    exact Moves.refl _
  · extract_lets +onlyGivenNames x5
    clear_value x5
    extract_lets +onlyGivenNames x6
    have h6 : Moves (partsBut [.pending, .tick, .straps, .clk, .held, .mirror, .otp, .time, .host, .mem, .chk]) s x6 := by
      unfold x6
      refine Moves.upd rfl (fun p => by cases p; (case bw | ch => exact Or.inl ⟨rfl, fun _ _ => trivial⟩); all_goals exact Or.inr rfl) ?_
      exact Moves.refl _
    clear_value x6
    refine Moves.step (raise_moves ..) rfl ?_
    assumption
  · refine Moves.ite (fun _ => ?_) (fun _ => ?_)
    · exact Moves.refl _
    · refine Moves.step (refreshAll_moves ..) rfl ?_
      refine Moves.foldl (fun y7 z7 => ?_) ?_
      · refine Moves.step (noteSafe_moves ..) rfl ?_
        exact Moves.refl _
      · refine Moves.step (markSafe_moves ..) rfl ?_
        exact Moves.refl _

theorem takeReports_moves (s : State) (rs : List Report)
    : Moves (partsBut [.pending, .tick, .straps, .clk, .held, .mirror, .otp, .time, .host, .mem, .chk]) s (takeReports s rs) := by
  unfold takeReports
  refine Moves.foldl (fun y1 z1 => ?_) ?_
  · refine Moves.step (takeReport_moves ..) rfl ?_
    exact Moves.refl _
  · exact Moves.refl _

/-! ## EpOps -/

theorem putScaled_moves (s : State) (a : BitVec 20) (q : BitVec 4) (v : ℤ) : Moves [.img] s (putScaled s a q v) := by
  unfold putScaled
  refine Moves.step (epPut_moves ..) rfl ?_
  exact Moves.refl _

theorem putAnalogue_moves (s : State) (n : Chan) (p : PathIx) : Moves [.img] s (putAnalogue s n p) := by
  unfold putAnalogue
  extract_lets +onlyGivenNames x1
  clear_value x1
  extract_lets +onlyGivenNames x2
  clear_value x2
  extract_lets +onlyGivenNames x3
  clear_value x3
  extract_lets +onlyGivenNames x4
  clear_value x4
  extract_lets +onlyGivenNames x5
  clear_value x5
  refine Moves.step (putScaled_moves ..) rfl ?_
  exact Moves.refl _

theorem putTj_moves (s : State) (n : Chan) : Moves [.img] s (putTj s n) := by
  unfold putTj
  extract_lets +onlyGivenNames x1
  clear_value x1
  extract_lets +onlyGivenNames x2
  clear_value x2
  refine Moves.step (putScaled_moves ..) rfl ?_
  exact Moves.refl _

theorem putEstimate_moves (s : State) (n : Chan) : Moves [.img] s (putEstimate s n) := by
  unfold putEstimate
  extract_lets +onlyGivenNames x1
  clear_value x1
  extract_lets +onlyGivenNames x2
  clear_value x2
  refine Moves.ite (fun _ => ?_) (fun _ => ?_)
  · refine Moves.step (putScaled_moves ..) rfl ?_
    refine Moves.step (epPut_moves ..) rfl ?_
    exact Moves.refl _
  · refine Moves.step (epPut_moves ..) rfl ?_
    refine Moves.step (epPut_moves ..) rfl ?_
    exact Moves.refl _

theorem recomputeChan_moves (s : State) (n : Chan) : Moves [.img, .loop] s (recomputeChan s n) := by
  unfold recomputeChan
  extract_lets +onlyGivenNames x1
  clear_value x1
  extract_lets +onlyGivenNames x2
  have h2 : Moves [.img, .loop] s x2 := by
    unfold x2
    refine Moves.step (putTj_moves ..) rfl ?_
    refine Moves.step (putAnalogue_moves ..) rfl ?_
    refine Moves.step (putAnalogue_moves ..) rfl ?_
    exact Moves.refl _
  clear_value x2
  extract_lets +onlyGivenNames x3
  have h3 : Moves [.img, .loop] s x3 := by
    unfold x3
    refine Moves.ite (fun _ => ?_) (fun _ => ?_)
    · refine Moves.step (epPut_moves ..) rfl ?_
      assumption
    · assumption
  clear_value x3
  extract_lets +onlyGivenNames x4
  have h4 : Moves [.img, .loop] s x4 := by
    unfold x4
    refine Moves.ite (fun _ => ?_) (fun _ => ?_)
    · refine Moves.step (putEstimate_moves ..) rfl ?_
      assumption
    · assumption
  clear_value x4
  refine Moves.ite (fun _ => ?_) (fun _ => ?_)
  · extract_lets +onlyGivenNames x5
    clear_value x5
    refine Moves.step (putScaled_moves ..) rfl ?_
    refine Moves.step (State.modLoop_moves ..) rfl ?_
    assumption
  · refine Moves.ite (fun _ => ?_) (fun _ => ?_)
    · refine Moves.step (epPut_moves ..) rfl ?_
      assumption
    · assumption

theorem putHkHealth_moves (s : State) (o : ℕ) (h : Fin 24) (d : ℤ) : Moves [.img] s (putHkHealth s o h d) := by
  unfold putHkHealth
  extract_lets +onlyGivenNames x1
  clear_value x1
  refine Moves.step (putScaled_moves ..) rfl ?_
  exact Moves.refl _

theorem putTriad_moves (s : State) : Moves [.img] s (putTriad s) := by
  unfold putTriad
  refine Moves.step (putHealth_moves ..) rfl ?_
  exact Moves.refl _

theorem recomputeHealth_moves (s : State) : Moves [.img] s (recomputeHealth s) := by
  unfold recomputeHealth
  extract_lets +onlyGivenNames x1
  have h1 : Moves [.img] s x1 := by
    unfold x1
    refine Moves.step (putHealth_moves ..) rfl ?_
    exact Moves.refl _
  clear_value x1
  extract_lets +onlyGivenNames x2
  have h2 : Moves [.img] s x2 := by
    unfold x2
    refine Moves.step (putHkHealth_moves ..) rfl ?_
    refine Moves.step (putHkHealth_moves ..) rfl ?_
    refine Moves.step (putHkHealth_moves ..) rfl ?_
    assumption
  clear_value x2
  extract_lets +onlyGivenNames x3
  have h3 : Moves [.img] s x3 := by
    unfold x3
    refine Moves.step (putHealth_moves ..) rfl ?_
    assumption
  clear_value x3
  refine Moves.step (putHealth_moves ..) rfl ?_
  refine Moves.step (putHealth_moves ..) rfl ?_
  refine Moves.step (putHealth_moves ..) rfl ?_
  assumption

theorem recompute_moves (s : State) : Moves [.img, .loop] s (recompute s) := by
  unfold recompute
  refine Moves.ite (fun _ => ?_) (fun _ => ?_)
  · exact Moves.refl _
  · refine Moves.step (recomputeHealth_moves ..) rfl ?_
    refine Moves.step (putHarts_moves ..) rfl ?_
    refine Moves.foldl (fun y1 z1 => ?_) ?_
    · refine Moves.step (recomputeChan_moves ..) rfl ?_
      exact Moves.refl _
    · exact Moves.refl _

theorem unassign_moves (s : State) : Moves [.img] s (unassign s) := by
  unfold unassign
  split
  · exact Moves.refl _
  · extract_lets +onlyGivenNames x1
    have h1 : Moves [.img] s x1 := by
      unfold x1
      refine Moves.foldl (fun y2 z2 => ?_) ?_
      · refine Moves.foldl (fun y3 z3 => ?_) ?_
        · refine Moves.ite (fun _ => ?_) (fun _ => ?_)
          · exact Moves.refl _
          · refine Moves.step (epPut_moves ..) rfl ?_
            exact Moves.refl _
        · exact Moves.refl _
      · exact Moves.refl _
    clear_value x1
    refine Moves.foldl (fun y4 z4 => ?_) ?_
    · refine Moves.ite (fun _ => ?_) (fun _ => ?_)
      · refine Moves.step (epPut_moves ..) rfl ?_
        exact Moves.refl _
      · exact Moves.refl _
    · assumption

theorem assignCommands_moves (s : State) : Moves [.img] s (assignCommands s) := by
  unfold assignCommands
  split
  · exact Moves.refl _
  · refine Moves.foldl (fun y1 z1 => ?_) ?_
    · refine Moves.ite (fun _ => ?_) (fun _ => ?_)
      · exact Moves.refl _
      · refine Moves.step (epPut_moves ..) rfl ?_
        exact Moves.refl _
    · exact Moves.refl _

theorem putAll_moves (s : State) : Moves [.m, .ch, .ev, .img, .port] s (putAll s) := by
  unfold putAll
  extract_lets +onlyGivenNames x1
  have h1 : Moves [.m, .ch, .ev, .img, .port] s x1 := by
    unfold x1
    refine Moves.foldl (fun y2 z2 => ?_) ?_
    · refine Moves.step (putHartLive_moves ..) rfl ?_
      exact Moves.refl _
    · refine Moves.step (refreshAll_moves ..) rfl ?_
      exact Moves.refl _
  clear_value x1
  refine Moves.step (putRetired_moves ..) rfl ?_
  refine Moves.step (putLinks_moves ..) rfl ?_
  refine Moves.step (putWheels_moves ..) rfl ?_
  refine Moves.step (putTriad_moves ..) rfl ?_
  refine Moves.step (putSupply_moves ..) rfl ?_
  refine Moves.step (putMode_moves ..) rfl ?_
  refine Moves.step (assignCommands_moves ..) rfl ?_
  assumption

theorem initLocal_moves (s : State) : Moves [.m, .ch, .ev, .img, .port, .loop] s (initLocal s) := by
  unfold initLocal
  extract_lets +onlyGivenNames x1
  extract_lets +onlyGivenNames x2
  have h2 : Moves [.m, .ch, .ev, .img, .port, .loop] s x2 := by
    unfold x2
    refine Moves.step (recompute_moves ..) rfl ?_
    refine Moves.step (putAll_moves ..) rfl ?_
    refine Moves.upd rfl (fun p => by
        cases p
        case img => exact Or.inl ⟨rfl, fun _ h => ⟨⟨rfl, rfl, (h .img).1.2.2⟩, (h .img).2⟩⟩
        all_goals exact Or.inr rfl) ?_
    exact Moves.refl _
  clear_value x2
  refine Moves.upd rfl (fun p => by
      cases p
      case port => exact Or.inl ⟨rfl, fun _ _ => trivial⟩
      case ev => exact Or.inl ⟨rfl, fun h0 h => h0 .ev⟩
      case img => exact Or.inl ⟨rfl, fun _ h => ⟨⟨swf_filterMap (h .img).1.1 _ fun c d hd => by grind, (h .img).1.2⟩, (h .img).2⟩⟩
      all_goals exact Or.inr rfl) ?_
  assumption

/-! ## BwOps -/

theorem bwAck_moves (s : State) (a : Byte) : Moves [.bw] s (bwAck s a) := by
  unfold bwAck
  split
  · refine Moves.step (bwRefill_moves ..) rfl ?_
    refine Moves.upd rfl (fun p => by cases p; (case bw => exact Or.inl ⟨rfl, fun _ _ => trivial⟩); all_goals exact Or.inr rfl) ?_
    exact Moves.refl _
  · exact Moves.refl _

theorem f2lLost_moves (s : State) (lane1 : Bool) : Moves [.recov, .bw, .ch, .ev, .img, .port, .conv] s (f2lLost s lane1) := by
  unfold f2lLost
  refine Moves.step (laneChanged_moves ..) rfl ?_
  refine Moves.step (laneDown_moves ..) rfl ?_
  refine Moves.upd rfl (fun p => by cases p; (case recov => exact Or.inl ⟨rfl, fun _ h => h .recov⟩); all_goals exact Or.inr rfl) ?_
  exact Moves.refl _

theorem bwDiscard_moves (s : State) : Moves [.bw] s (bwDiscard s) := by
  unfold bwDiscard
  refine Moves.upd rfl (fun p => by cases p; (case bw => exact Or.inl ⟨rfl, fun _ _ => trivial⟩); all_goals exact Or.inr rfl) ?_
  exact Moves.refl _

theorem bwFailed_moves (s : State) (lane1 : Bool) : Moves [.recov, .bw, .ch, .ev, .img, .port, .conv] s (bwFailed s lane1) := by
  unfold bwFailed
  extract_lets +onlyGivenNames x1
  clear_value x1
  extract_lets +onlyGivenNames x2
  clear_value x2
  extract_lets +onlyGivenNames x3
  have h3 : Moves [.recov, .bw, .ch, .ev, .img, .port, .conv] s x3 := by
    unfold x3
    refine Moves.step (bwDiscard_moves ..) rfl ?_
    refine Moves.upd rfl (fun p => by cases p; (case bw => exact Or.inl ⟨rfl, fun _ _ => trivial⟩); all_goals exact Or.inr rfl) ?_
    exact Moves.refl _
  clear_value x3
  refine Moves.ite (fun _ => ?_) (fun _ => ?_)
  · refine Moves.step (f2lLost_moves ..) rfl ?_
    assumption
  · assumption

theorem bwValid_moves (s : State) (lane1 : Bool) (h : BwHeader) : Moves [.bw] s (bwValid s lane1 h) := by
  unfold bwValid
  extract_lets +onlyGivenNames x1
  clear_value x1
  extract_lets +onlyGivenNames x2
  clear_value x2
  refine Moves.step (bwAck_moves ..) rfl ?_
  refine Moves.upd rfl (fun p => by cases p; (case bw => exact Or.inl ⟨rfl, fun _ _ => trivial⟩); all_goals exact Or.inr rfl) ?_
  exact Moves.refl _

theorem fdSend_moves (s : State) (b : F2L) : Moves [.fd] s (fdSend s b) := by
  unfold fdSend
  refine Moves.upd rfl (fun p => by cases p; (case fd => exact Or.inl ⟨rfl, fun _ _ => trivial⟩); all_goals exact Or.inr rfl) ?_
  exact Moves.refl _

theorem bwTakeRetx_moves {ps : List Part} (hc : covers ps [.recov, .bw, .ch, .ev, .img, .port, .conv] = true) (s : State) (h : BwHeader)
    (ty : Byte) (f : F2L → State → State) (hf3 : ∀ a0 a1, Moves ps a1 (f a0 a1)) : Moves ps s (bwTakeRetx s h ty f) := by
  unfold bwTakeRetx
  refine Moves.ite (fun _ => ?_) (fun _ => ?_)
  · exact Moves.refl _
  · refine Moves.ite (fun _ => ?_) (fun _ => ?_)
    · refine Moves.step (bwFailed_moves ..) (covers_trans hc rfl) ?_
      exact Moves.refl _
    · refine Moves.ite (fun _ => ?_) (fun _ => ?_)
      · refine Moves.step (bwDiscard_moves ..) (covers_trans hc rfl) ?_
        exact Moves.refl _
      · split
        · refine Moves.ite (fun _ => ?_) (fun _ => ?_)
          · refine Moves.step (hf3 ..) (covers_refl _) ?_
            refine Moves.step (bwValid_moves ..) (covers_trans hc rfl) ?_
            refine Moves.upd rfl (fun p => by
                cases p
                case bw => exact Or.inl ⟨covers_has hc rfl, fun _ _ => trivial⟩
                all_goals exact Or.inr rfl) ?_
            exact Moves.refl _
          · exact Moves.refl _
        · exact Moves.refl _

theorem bwTakePlain_moves {ps : List Part} (hc : covers ps [.recov, .bw, .ch, .ev, .img, .port, .conv] = true) (s : State)
    (lane1 : Bool) (h : BwHeader) (ty : Byte) (f : State → State) (hf4 : ∀ a0, Moves ps a0 (f a0))
    : Moves ps s (bwTakePlain s lane1 h ty f) := by
  unfold bwTakePlain
  extract_lets +onlyGivenNames x1
  clear_value x1
  extract_lets +onlyGivenNames x2
  clear_value x2
  extract_lets +onlyGivenNames x3
  clear_value x3
  refine Moves.ite (fun _ => ?_) (fun _ => ?_)
  · exact Moves.refl _
  · refine Moves.ite (fun _ => ?_) (fun _ => ?_)
    · refine Moves.step (bwFailed_moves ..) (covers_trans hc rfl) ?_
      exact Moves.refl _
    · extract_lets +onlyGivenNames x4
      clear_value x4
      extract_lets +onlyGivenNames x5
      have h5 : Moves ps s x5 := by
        unfold x5
        refine Moves.upd rfl (fun p => by
            cases p
            case bw => exact Or.inl ⟨covers_has hc rfl, fun _ _ => trivial⟩
            all_goals exact Or.inr rfl) ?_
        exact Moves.refl _
      clear_value x5
      refine Moves.step (hf4 ..) (covers_refl _) ?_
      refine Moves.step (bwValid_moves ..) (covers_trans hc rfl) ?_
      assumption

theorem deliver_moves (s : State) (rs : List Report)
    : Moves (partsBut [.pending, .tick, .straps, .clk, .held, .mirror, .otp, .time, .host, .mem, .chk]) s (deliver s rs) := by
  unfold deliver
  refine Moves.ite (fun _ => ?_) (fun _ => ?_)
  · refine Moves.step (takeReports_moves ..) rfl ?_
    exact Moves.refl _
  · refine Moves.ite (fun _ => ?_) (fun _ => ?_)
    · refine Moves.upd rfl (fun p => by cases p; (case bw => exact Or.inl ⟨rfl, fun _ _ => trivial⟩); all_goals exact Or.inr rfl) ?_
      exact Moves.refl _
    · exact Moves.refl _

theorem takeBuffered_moves (s : State)
    : Moves (partsBut [.pending, .tick, .straps, .clk, .held, .mirror, .otp, .time, .host, .mem, .chk]) s (takeBuffered s) := by
  unfold takeBuffered
  refine Moves.foldl (fun y1 z1 => ?_) ?_
  · refine Moves.step (takeReports_moves ..) rfl ?_
    exact Moves.refl _
  · refine Moves.upd rfl (fun p => by cases p; (case bw => exact Or.inl ⟨rfl, fun _ _ => trivial⟩); all_goals exact Or.inr rfl) ?_
    exact Moves.refl _

theorem holdWheels_moves (s : State) : Moves [.fd] s (holdWheels s) := by
  unfold holdWheels
  refine Moves.ite (fun _ => ?_) (fun _ => ?_)
  · exact Moves.refl _
  · refine Moves.upd rfl (fun p => by cases p; (case fd => exact Or.inl ⟨rfl, fun _ _ => trivial⟩); all_goals exact Or.inr rfl) ?_
    exact Moves.refl _

theorem enterSlack_moves (s : State) : Moves [.free, .fd, .ch, .mbx, .hart, .enrol] s (enterSlack s) := by
  unfold enterSlack
  refine Moves.ite (fun _ => ?_) (fun _ => ?_)
  · exact Moves.refl _
  · refine Moves.ite (fun _ => ?_) (fun _ => ?_)
    · refine Moves.step (holdWheels_moves ..) rfl ?_
      exact Moves.refl _
    · extract_lets +onlyGivenNames x1
      have h1 : Moves [.free, .fd, .ch, .mbx, .hart, .enrol] s x1 := by
        unfold x1
        refine Moves.step (holdWheels_moves ..) rfl ?_
        exact Moves.refl _
      clear_value x1
      extract_lets +onlyGivenNames x2
      clear_value x2
      extract_lets +onlyGivenNames x3
      have h3 : Moves [.free, .fd, .ch, .mbx, .hart, .enrol] s x3 := by
        unfold x3
        refine Moves.upd rfl (fun p => by cases p; (case fd => exact Or.inl ⟨rfl, fun _ _ => trivial⟩); all_goals exact Or.inr rfl) ?_
        assumption
      clear_value x3
      extract_lets +onlyGivenNames x4
      have h4 : Moves [.free, .fd, .ch, .mbx, .hart, .enrol] s x4 := by
        unfold x4
        refine Moves.foldl (fun y5 z5 => ?_) ?_
        · refine Moves.step (hartAbandon_moves ..) rfl ?_
          exact Moves.refl _
        · refine Moves.step (discardAll_moves ..) rfl ?_
          assumption
      clear_value x4
      refine Moves.ite (fun _ => ?_) (fun _ => ?_)
      · refine Moves.step (applySafeAll_moves ..) rfl ?_
        refine Moves.upd rfl (fun p => by cases p; (case fd => exact Or.inl ⟨rfl, fun _ _ => trivial⟩); all_goals exact Or.inr rfl) ?_
        assumption
      · assumption

theorem l2fLost_moves (s : State) : Moves [.free, .recov, .bw, .fd, .ch, .mbx, .hart, .enrol] s (l2fLost s) := by
  unfold l2fLost
  extract_lets +onlyGivenNames x1
  clear_value x1
  refine Moves.step (enterSlack_moves ..) rfl ?_
  refine Moves.upd rfl (fun p => by
      cases p
      case bw | fd => exact Or.inl ⟨rfl, fun _ _ => trivial⟩
      case recov => exact Or.inl ⟨rfl, fun _ h => h .recov⟩
      all_goals exact Or.inr rfl) ?_
  exact Moves.refl _

theorem fdFailed_moves (s : State) : Moves [.free, .recov, .bw, .fd, .ch, .mbx, .hart, .enrol] s (fdFailed s) := by
  unfold fdFailed
  extract_lets +onlyGivenNames x1
  clear_value x1
  extract_lets +onlyGivenNames x2
  clear_value x2
  extract_lets +onlyGivenNames x3
  have h3 : Moves [.free, .recov, .bw, .fd, .ch, .mbx, .hart, .enrol] s x3 := by
    unfold x3
    refine Moves.step (bwDiscard_moves ..) rfl ?_
    refine Moves.upd rfl (fun p => by cases p; (case fd => exact Or.inl ⟨rfl, fun _ _ => trivial⟩); all_goals exact Or.inr rfl) ?_
    exact Moves.refl _
  clear_value x3
  refine Moves.ite (fun _ => ?_) (fun _ => ?_)
  · refine Moves.step (l2fLost_moves ..) rfl ?_
    assumption
  · assumption

theorem fdValid_moves (s : State) (a : Byte) : Moves [.fd] s (fdValid s a) := by
  unfold fdValid
  refine Moves.upd rfl (fun p => by cases p; (case fd => exact Or.inl ⟨rfl, fun _ _ => trivial⟩); all_goals exact Or.inr rfl) ?_
  exact Moves.refl _

theorem fdTakeRetx_moves {ps : List Part} (hc : covers ps [.free, .recov, .bw, .fd, .ch, .mbx, .hart, .enrol] = true) (s : State)
    (h : BwHeader) (ty : Byte) (f : L2F → State → State) (hf3 : ∀ a0 a1, Moves ps a1 (f a0 a1)) : Moves ps s (fdTakeRetx s h ty f) := by
  unfold fdTakeRetx
  refine Moves.ite (fun _ => ?_) (fun _ => ?_)
  · exact Moves.refl _
  · refine Moves.ite (fun _ => ?_) (fun _ => ?_)
    · refine Moves.step (fdFailed_moves ..) (covers_trans hc rfl) ?_
      exact Moves.refl _
    · refine Moves.ite (fun _ => ?_) (fun _ => ?_)
      · refine Moves.step (bwDiscard_moves ..) (covers_trans hc rfl) ?_
        exact Moves.refl _
      · split
        · exact Moves.refl _
        · refine Moves.ite (fun _ => ?_) (fun _ => ?_)
          · refine Moves.step (hf3 ..) (covers_refl _) ?_
            refine Moves.step (fdValid_moves ..) (covers_trans hc rfl) ?_
            refine Moves.upd rfl (fun p => by
                cases p
                case fd => exact Or.inl ⟨covers_has hc rfl, fun _ _ => trivial⟩
                all_goals exact Or.inr rfl) ?_
            exact Moves.refl _
          · exact Moves.refl _

theorem fdTakeIdle_moves (s : State) (h : BwHeader) : Moves [.free, .recov, .bw, .fd, .ch, .mbx, .hart, .enrol] s (fdTakeIdle s h) := by
  unfold fdTakeIdle
  extract_lets +onlyGivenNames x1
  clear_value x1
  refine Moves.ite (fun _ => ?_) (fun _ => ?_)
  · exact Moves.refl _
  · refine Moves.ite (fun _ => ?_) (fun _ => ?_)
    · refine Moves.step (fdFailed_moves ..) rfl ?_
      exact Moves.refl _
    · refine Moves.step (fdValid_moves ..) rfl ?_
      refine Moves.upd rfl (fun p => by cases p; (case fd => exact Or.inl ⟨rfl, fun _ _ => trivial⟩); all_goals exact Or.inr rfl) ?_
      exact Moves.refl _

theorem leaveSlack_moves (s : State) : Moves [.fd, .img, .loop] s (leaveSlack s) := by
  unfold leaveSlack
  refine Moves.ite (fun _ => ?_) (fun _ => ?_)
  · exact Moves.refl _
  · refine Moves.foldl (fun y1 z1 => ?_) ?_
    · refine Moves.step (hartSeek_moves ..) rfl ?_
      exact Moves.refl _
    · refine Moves.upd rfl (fun p => by cases p; (case fd => exact Or.inl ⟨rfl, fun _ _ => trivial⟩); all_goals exact Or.inr rfl) ?_
      exact Moves.refl _

theorem laneUp_moves (s : State) (lane : BwLane) : Moves [.bw, .fd] s (laneUp s lane) := by
  unfold laneUp
  extract_lets +onlyGivenNames x1
  clear_value x1
  split
  · refine Moves.upd rfl (fun p => by cases p; (case bw => exact Or.inl ⟨rfl, fun _ _ => trivial⟩); all_goals exact Or.inr rfl) ?_
    exact Moves.refl _
  · refine Moves.upd rfl (fun p => by cases p; (case bw | fd => exact Or.inl ⟨rfl, fun _ _ => trivial⟩); all_goals exact Or.inr rfl) ?_
    exact Moves.refl _
  · refine Moves.upd rfl (fun p => by cases p; (case bw | fd => exact Or.inl ⟨rfl, fun _ _ => trivial⟩); all_goals exact Or.inr rfl) ?_
    exact Moves.refl _

theorem dropHeldCommands_moves (s : State) : Moves [.bw] s (dropHeldCommands s) := by
  unfold dropHeldCommands
  refine Moves.upd rfl (fun p => by cases p; (case bw => exact Or.inl ⟨rfl, fun _ _ => trivial⟩); all_goals exact Or.inr rfl) ?_
  exact Moves.refl _

theorem endHold_moves (s : State) : Moves [.bw, .ch, .ev, .img, .port] s (endHold s) := by
  unfold endHold
  extract_lets +onlyGivenNames x1
  clear_value x1
  extract_lets +onlyGivenNames x2
  have h2 : Moves [.bw, .ch, .ev, .img, .port] s x2 := by
    unfold x2
    refine Moves.step (dropHeldCommands_moves ..) rfl ?_
    exact Moves.refl _
  clear_value x2
  refine Moves.step (bwRefill_moves ..) rfl ?_
  refine Moves.step (command_moves ..) rfl ?_
  assumption

/-! ## Wheels -/

theorem takeSec_moves (s : State) : Moves [.ev, .port, .time] s (takeSec s) := by
  unfold takeSec
  extract_lets +onlyGivenNames x1
  clear_value x1
  split
  · refine Moves.upd rfl (fun p => by cases p; (case time => exact Or.inl ⟨rfl, fun _ _ => trivial⟩); all_goals exact Or.inr rfl) ?_
    exact Moves.refl _
  · refine Moves.ite (fun _ => ?_) (fun _ => ?_)
    · refine Moves.upd rfl (fun p => by cases p; (case time => exact Or.inl ⟨rfl, fun _ _ => trivial⟩); all_goals exact Or.inr rfl) ?_
      exact Moves.refl _
    · extract_lets +onlyGivenNames x2
      clear_value x2
      extract_lets +onlyGivenNames x3
      have h3 : Moves [.ev, .port, .time] s x3 := by
        unfold x3
        refine Moves.upd rfl (fun p => by cases p; (case time => exact Or.inl ⟨rfl, fun _ _ => trivial⟩); all_goals exact Or.inr rfl) ?_
        exact Moves.refl _
      clear_value x3
      refine Moves.ite (fun _ => ?_) (fun _ => ?_)
      · assumption
      · refine Moves.foldl (fun y4 z4 => ?_) ?_
        · refine Moves.ite (fun _ => ?_) (fun _ => ?_)
          · refine Moves.step (raiseTide_moves ..) rfl ?_
            exact Moves.refl _
          · exact Moves.refl _
        · assumption
  · refine Moves.upd rfl (fun p => by cases p; (case time => exact Or.inl ⟨rfl, fun _ _ => trivial⟩); all_goals exact Or.inr rfl) ?_
    exact Moves.refl _

theorem mainsAt_moves (s : State) (w : WheelIx) : Moves [.wheel] s (mainsAt s w) := by
  unfold mainsAt
  extract_lets +onlyGivenNames x1
  clear_value x1
  extract_lets +onlyGivenNames x2
  clear_value x2
  extract_lets +onlyGivenNames x3
  clear_value x3
  extract_lets +onlyGivenNames x4
  clear_value x4
  refine Moves.ite (fun _ => ?_) (fun _ => ?_)
  · exact Moves.refl _
  · extract_lets +onlyGivenNames x5
    have h5 : Moves [.wheel] s x5 := by
      unfold x5
      refine Moves.step (State.modWheel_moves ..) rfl ?_
      exact Moves.refl _
    clear_value x5
    refine Moves.ite (fun _ => ?_) (fun _ => ?_)
    · assumption
    · refine Moves.ite (fun _ => ?_) (fun _ => ?_)
      · refine Moves.step (captureEvent_moves ..) rfl ?_
        assumption
      · refine Moves.step (rejectEvent_moves ..) rfl ?_
        assumption

theorem alignCrossing_moves (s : State) (p : PathIx) : Moves [.conv] s (alignCrossing s p) := by
  unfold alignCrossing
  extract_lets +onlyGivenNames x1
  extract_lets +onlyGivenNames x2
  clear_value x2
  extract_lets +onlyGivenNames x3
  clear_value x3
  refine Moves.ite (fun _ => ?_) (fun _ => ?_)
  · refine Moves.step (State.modPath_moves ..) rfl ?_
    exact Moves.refl _
  · exact Moves.refl _

theorem tidePulse_moves (s : State) : Moves [.pins] s (tidePulse s) := by
  unfold tidePulse
  refine Moves.ite (fun _ => ?_) (fun _ => ?_)
  · refine Moves.upd rfl (fun p => by cases p; (case pins => exact Or.inl ⟨rfl, fun _ _ => trivial⟩); all_goals exact Or.inr rfl) ?_
    exact Moves.refl _
  · exact Moves.refl _

theorem tideFall_moves (s : State) : Moves [.pins] s (tideFall s) := by
  unfold tideFall
  refine Moves.ite (fun _ => ?_) (fun _ => ?_)
  · refine Moves.upd rfl (fun p => by cases p; (case pins => exact Or.inl ⟨rfl, fun _ _ => trivial⟩); all_goals exact Or.inr rfl) ?_
    exact Moves.refl _
  · exact Moves.refl _

theorem stepWheel_moves (s : State) (w : WheelIx) (p : PendingInc) : Moves [.ev, .port, .conv, .wheel, .pins] s (stepWheel s w p) := by
  unfold stepWheel
  extract_lets +onlyGivenNames x1
  have h1 : Moves [.ev, .port, .conv, .wheel, .pins] s x1 := by
    unfold x1
    refine Moves.foldl (fun y2 z2 => ?_) ?_
    · refine Moves.step (alignCrossing_moves ..) rfl ?_
      exact Moves.refl _
    · refine Moves.step (applyInc_moves ..) rfl ?_
      exact Moves.refl _
  clear_value x1
  refine Moves.step (raiseTide_moves ..) rfl ?_
  refine Moves.ite (fun _ => ?_) (fun _ => ?_)
  · refine Moves.step (tidePulse_moves ..) rfl ?_
    assumption
  · assumption

theorem charEdge_moves (s : State) (n : Chan) : Moves [.free, .fd] s (charEdge s n) := by
  unfold charEdge
  refine Moves.ite (fun _ => ?_) (fun _ => ?_)
  · refine Moves.step (demand_moves ..) rfl ?_
    exact Moves.refl _
  · exact Moves.refl _

theorem changeover_moves (s : State) (n : Chan) : Moves [.free, .fd] s (changeover s n) := by
  unfold changeover
  split
  · exact Moves.refl _
  · refine Moves.ite (fun _ => ?_) (fun _ => ?_)
    · extract_lets +onlyGivenNames x1
      clear_value x1
      refine Moves.step (reportStatus_moves ..) rfl ?_
      refine Moves.step (demand_moves ..) rfl ?_
      exact Moves.refl _
    · exact Moves.refl _

theorem loadPhase_moves (s : State) (i : PhaseItem) : Moves [.free, .fd] s (loadPhase s i) := by
  unfold loadPhase
  extract_lets +onlyGivenNames x1
  clear_value x1
  extract_lets +onlyGivenNames x2
  clear_value x2
  extract_lets +onlyGivenNames x3
  clear_value x3
  extract_lets +onlyGivenNames x4
  have h4 : Moves [.free, .fd] s x4 := by
    unfold x4
    refine Moves.upd rfl (fun p => by cases p; (case fd => exact Or.inl ⟨rfl, fun _ _ => trivial⟩); all_goals exact Or.inr rfl) ?_
    exact Moves.refl _
  clear_value x4
  refine Moves.ite (fun _ => ?_) (fun _ => ?_)
  · assumption
  · refine Moves.foldl (fun y5 z5 => ?_) ?_
    · refine Moves.ite (fun _ => ?_) (fun _ => ?_)
      · refine Moves.step (demand_moves ..) rfl ?_
        exact Moves.refl _
      · exact Moves.refl _
    · assumption

theorem takePhase_moves (s : State) (items : List PhaseItem) : Moves [.free, .fd] s (takePhase s items) := by
  unfold takePhase
  extract_lets +onlyGivenNames x1
  clear_value x1
  extract_lets +onlyGivenNames x2
  clear_value x2
  refine Moves.foldl (fun y3 z3 => ?_) ?_
  · refine Moves.step (loadPhase_moves ..) rfl ?_
    exact Moves.refl _
  · refine Moves.upd rfl (fun p => by cases p; (case fd => exact Or.inl ⟨rfl, fun _ _ => trivial⟩); all_goals exact Or.inr rfl) ?_
    exact Moves.refl _

/-! ## Breakwater -/

theorem formStatus_moves (s : State) (seq : Byte) (raw : W16) : Moves [.fd] s (formStatus s seq raw) := by
  unfold formStatus
  refine Moves.ite (fun _ => ?_) (fun _ => ?_)
  · exact Moves.refl _
  · refine Moves.step (fdSend_moves ..) rfl ?_
    refine Moves.upd rfl (fun p => by cases p; (case fd => exact Or.inl ⟨rfl, fun _ _ => trivial⟩); all_goals exact Or.inr rfl) ?_
    exact Moves.refl _

theorem takeStatus_moves (s : State) (told : List Report) (x : StatusNow)
    : Moves (partsBut [.pending, .tick, .straps, .clk, .held, .mirror, .otp, .time, .host, .mem, .chk]) s (takeStatus s told x) := by
  unfold takeStatus
  extract_lets +onlyGivenNames x1
  clear_value x1
  refine Moves.step (deliver_moves ..) rfl ?_
  exact Moves.refl _

theorem formEvent_moves (s : State) (seq : Byte) : Moves [.fd] s (formEvent s seq) := by
  unfold formEvent
  extract_lets +onlyGivenNames x1
  clear_value x1
  extract_lets +onlyGivenNames x2
  clear_value x2
  refine Moves.ite (fun _ => ?_) (fun _ => ?_)
  · exact Moves.refl _
  · refine Moves.step (fdSend_moves ..) rfl ?_
    refine Moves.upd rfl (fun p => by cases p; (case fd => exact Or.inl ⟨rfl, fun _ _ => trivial⟩); all_goals exact Or.inr rfl) ?_
    exact Moves.refl _

theorem actAll_moves (s : State) (acts : List FieldAct) : Moves [.free, .fd] s (actAll s acts) := by
  unfold actAll
  refine Moves.foldl (fun y1 z1 => ?_) ?_
  · refine Moves.step (fieldAct_moves ..) rfl ?_
    exact Moves.refl _
  · exact Moves.refl _

theorem actDue_moves (s : State) (acts : List FieldAct) : Moves [.free, .fd] s (actDue s acts) := by
  unfold actDue
  refine Moves.ite (fun _ => ?_) (fun _ => ?_)
  · exact Moves.refl _
  · refine Moves.step (actAll_moves ..) rfl ?_
    exact Moves.refl _

theorem takeCommand_moves (s : State) (acts : List FieldAct) (target : W64) : Moves [.free, .fd] s (takeCommand s acts target) := by
  unfold takeCommand
  refine Moves.ite (fun _ => ?_) (fun _ => ?_)
  · exact Moves.refl _
  · refine Moves.ite (fun _ => ?_) (fun _ => ?_)
    · refine Moves.step (actDue_moves ..) rfl ?_
      exact Moves.refl _
    · extract_lets +onlyGivenNames x1
      extract_lets +onlyGivenNames x2
      clear_value x2
      extract_lets +onlyGivenNames x3
      have h3 : Moves [.free, .fd] s x3 := by
        unfold x3
        refine Moves.ite (fun _ => ?_) (fun _ => ?_)
        · refine Moves.foldl (fun y4 z4 => ?_) ?_
          · refine Moves.step (reportStatus_moves ..) rfl ?_
            exact Moves.refl _
          · exact Moves.refl _
        · exact Moves.refl _
      clear_value x3
      refine Moves.upd rfl (fun p => by cases p; (case fd => exact Or.inl ⟨rfl, fun _ _ => trivial⟩); all_goals exact Or.inr rfl) ?_
      assumption

theorem openReload_moves (s : State) : Moves [.fd] s (openReload s) := by
  unfold openReload
  refine Moves.ite (fun _ => ?_) (fun _ => ?_)
  · refine Moves.upd rfl (fun p => by cases p; (case fd => exact Or.inl ⟨rfl, fun _ _ => trivial⟩); all_goals exact Or.inr rfl) ?_
    exact Moves.refl _
  · extract_lets +onlyGivenNames x1
    clear_value x1
    extract_lets +onlyGivenNames x2
    have h2 : Moves [.fd] s x2 := by
      unfold x2
      refine Moves.ite (fun _ => ?_) (fun _ => ?_)
      · exact Moves.refl _
      · refine Moves.upd rfl (fun p => by cases p; (case fd => exact Or.inl ⟨rfl, fun _ _ => trivial⟩); all_goals exact Or.inr rfl) ?_
        exact Moves.refl _
    clear_value x2
    refine Moves.upd rfl (fun p => by cases p; (case fd => exact Or.inl ⟨rfl, fun _ _ => trivial⟩); all_goals exact Or.inr rfl) ?_
    assumption

theorem configureFresh_moves (s : State) (g : Generation) (fresh : Bool)
    : Moves [.free, .fd, .ch, .img, .conv, .loop] s (configureFresh s g fresh) := by
  unfold configureFresh
  extract_lets +onlyGivenNames x1
  have h1 : Moves [.free, .fd, .ch, .img, .conv, .loop] s x1 := by
    unfold x1
    refine Moves.step (startScan_moves ..) rfl ?_
    refine Moves.step (leaveSlack_moves ..) rfl ?_
    exact Moves.refl _
  clear_value x1
  refine Moves.step (configureDie_moves ..) rfl ?_
  refine Moves.upd rfl (fun p => by cases p; (case fd | ch => exact Or.inl ⟨rfl, fun _ _ => trivial⟩); all_goals exact Or.inr rfl) ?_
  assumption

theorem noteConfigured_moves (s : State) : Moves [.fd] s (noteConfigured s) := by
  unfold noteConfigured
  refine Moves.step (reportStatus_moves ..) rfl ?_
  exact Moves.refl _

theorem takeLoad_moves (s : State) (b : L2F) : Moves [.free, .fd, .ch, .ev, .img, .port, .conv, .loop] s (takeLoad s b) := by
  unfold takeLoad
  cases b <;> dsimp -zeta only
  case loadOpen => exact (openReload_moves ..).widen rfl
  case loadClose | refOn =>
    refine Moves.upd rfl (fun p => by cases p; (case fd => exact Or.inl ⟨rfl, fun _ _ => trivial⟩); all_goals exact Or.inr rfl) ?_
    exact Moves.refl _
  case configure g fresh =>
    exact Moves.ite
      (fun _ => Moves.step (noteConfigured_moves ..) rfl (Moves.step (resetAllPaths_moves ..) rfl ((configureFresh_moves ..).widen rfl)))
      (fun _ => Moves.step (setScan_moves ..) rfl (Moves.step (noteConfigured_moves ..) rfl ((configureDie_moves ..).widen rfl)))
  case identity =>
    exact Moves.ite
      (fun _ => Moves.ite (fun _ => Moves.step (resetAllPaths_moves ..) rfl ((leaveSlack_moves ..).widen rfl)) (fun _ => Moves.refl _))
      (fun _ => Moves.refl _)
  all_goals exact Moves.refl _

theorem afterFresh_moves (s : State) : Moves [.m, .bw, .ch, .ev, .img, .port] s (afterFresh s) := by
  unfold afterFresh
  extract_lets +onlyGivenNames x1
  have h1 : Moves [.m, .bw, .ch, .ev, .img, .port] s x1 := by
    unfold x1
    refine Moves.upd rfl (fun p => by cases p; (case ch => exact Or.inl ⟨rfl, fun _ _ => trivial⟩); all_goals exact Or.inr rfl) ?_
    exact Moves.refl _
  clear_value x1
  refine Moves.ite (fun _ => ?_) (fun _ => ?_)
  · refine Moves.upd rfl (fun p => by cases p; (case m => exact Or.inl ⟨rfl, fun _ _ => trivial⟩); all_goals exact Or.inr rfl) ?_
    assumption
  · refine Moves.step (commandAll_moves ..) rfl ?_
    assumption

theorem freshen_moves (s : State) (g : Generation) : Moves [.m, .bw, .ch, .ev, .img, .port] s (freshen s g) := by
  unfold freshen
  refine Moves.step (afterFresh_moves ..) rfl ?_
  refine Moves.step (bwSend_moves ..) rfl ?_
  refine Moves.step (dropHeldCommands_moves ..) rfl ?_
  exact Moves.refl _

theorem offerIdentity_moves (s : State) : Moves [.m, .bw, .ch, .ev, .img, .port] s (offerIdentity s) := by
  unfold offerIdentity
  split
  · refine Moves.ite (fun _ => ?_) (fun _ => ?_)
    · exact Moves.refl _
    · refine Moves.ite (fun _ => ?_) (fun _ => ?_)
      · refine Moves.ite (fun _ => ?_) (fun _ => ?_)
        · refine Moves.step (bwSend_moves ..) rfl ?_
          exact Moves.refl _
        · exact Moves.refl _
      · refine Moves.step (freshen_moves ..) rfl ?_
        exact Moves.refl _
  · exact Moves.refl _

theorem sendRefOn_moves (s : State) : Moves [.m, .bw] s (sendRefOn s) := by
  unfold sendRefOn
  refine Moves.ite (fun _ => ?_) (fun _ => ?_)
  · extract_lets +onlyGivenNames x1
    clear_value x1
    extract_lets +onlyGivenNames x2
    have h2 : Moves [.m, .bw] s x2 := by
      unfold x2
      refine Moves.step (bwSend_moves ..) rfl ?_
      refine Moves.upd rfl (fun p => by cases p; (case m => exact Or.inl ⟨rfl, fun _ _ => trivial⟩); all_goals exact Or.inr rfl) ?_
      exact Moves.refl _
    clear_value x2
    assumption
  · exact Moves.refl _

theorem gaspDo_moves (s : State) (n : Chan) : Moves [.free, .fd] s (gaspDo s n) := by
  unfold gaspDo
  refine Moves.ite (fun _ => ?_) (fun _ => ?_)
  · refine Moves.step (turnOff_moves ..) rfl ?_
    exact Moves.refl _
  · exact Moves.refl _

/-! ## FieldEvents -/

theorem onField_moves {ps : List Part} (s : State) (n : Chan) (c : FdChan → Bool) (f : State → State) (hf3 : ∀ a0, Moves ps a0 (f a0))
    : Moves ps s (onField s n c f) := by
  unfold onField
  refine Moves.ite (fun _ => ?_) (fun _ => ?_)
  · refine Moves.step (hf3 ..) (covers_refl _) ?_
    exact Moves.refl _
  · exact Moves.refl _

theorem condBit_moves (s : State) (n : Chan) (old : Bool) (b : Bool) (f : FdChan → FdChan) (r : Report)
    : Moves [.fd] s (condBit s n old b f r) := by
  unfold condBit
  refine Moves.ite (fun _ => ?_) (fun _ => ?_)
  · exact Moves.refl _
  · refine Moves.step (report_moves ..) rfl ?_
    refine Moves.step (State.modFd_moves ..) rfl ?_
    exact Moves.refl _

/-! ## Protect -/

theorem coolSet_moves (s : State) (n : Chan) (bit : Fin 10) (tj : Byte) : Moves [.fd] s (coolSet s n bit tj) := by
  unfold coolSet
  extract_lets +onlyGivenNames x1
  clear_value x1
  extract_lets +onlyGivenNames x2
  clear_value x2
  extract_lets +onlyGivenNames x3
  have h3 : Moves [.fd] s x3 := by
    unfold x3
    refine Moves.step (modHalves_moves ..) rfl ?_
    exact Moves.refl _
  clear_value x3
  refine Moves.ite (fun _ => ?_) (fun _ => ?_)
  · assumption
  · refine Moves.ite (fun _ => ?_) (fun _ => ?_)
    · refine Moves.upd rfl (fun p => by cases p; (case fd => exact Or.inl ⟨rfl, fun _ _ => trivial⟩); all_goals exact Or.inr rfl) ?_
      assumption
    · refine Moves.step (report_moves ..) rfl ?_
      assumption

theorem coolRelease_moves (s : State) (n : Chan) (bit : Fin 10) : Moves [.fd] s (coolRelease s n bit) := by
  unfold coolRelease
  extract_lets +onlyGivenNames x1
  have h1 : Moves [.fd] s x1 := by
    unfold x1
    refine Moves.step (State.modFd_moves ..) rfl ?_
    exact Moves.refl _
  clear_value x1
  refine Moves.ite (fun _ => ?_) (fun _ => ?_)
  · assumption
  · refine Moves.step (report_moves ..) rfl ?_
    assumption

theorem retryDemand_moves (s : State) (n : Chan) : Moves [.free, .bw, .ch, .ev, .img, .port, .conv, .loop, .gov] s (retryDemand s n) := by
  unfold retryDemand
  split
  · exact Moves.refl _
  · extract_lets +onlyGivenNames x1
    refine Moves.ite (fun _ => ?_) (fun _ => ?_)
    · refine Moves.ite (fun _ => ?_) (fun _ => ?_)
      · refine Moves.step (tryRestartNow_moves ..) rfl ?_
        exact Moves.refl _
      · refine Moves.ite (fun _ => ?_) (fun _ => ?_)
        · exact Moves.refl _
        · refine Moves.ite (fun _ => ?_) (fun _ => ?_)
          · refine Moves.step (showCommand_moves ..) rfl ?_
            refine Moves.step (demandDO_moves ..) rfl ?_
            exact Moves.refl _
          · refine Moves.upd rfl (fun p => by cases p; (case gov => exact Or.inl ⟨rfl, fun _ _ => trivial⟩); all_goals exact Or.inr rfl) ?_
            exact Moves.refl _
    · refine Moves.ite (fun _ => ?_) (fun _ => ?_)
      · refine Moves.step (demandAO_moves ..) rfl ?_
        exact Moves.refl _
      · exact Moves.refl _

theorem retryAlarm_moves (s : State) (n : Chan) : Moves [.free, .bw, .ch, .ev, .img, .port, .conv, .loop, .gov] s (retryAlarm s n) := by
  unfold retryAlarm
  split
  · refine Moves.ite (fun _ => ?_) (fun _ => ?_)
    · refine Moves.step (demandAlarm_moves ..) rfl ?_
      exact Moves.refl _
    · exact Moves.refl _
  · exact Moves.refl _

theorem retryChan_moves (s : State) (n : Chan) : Moves [.free, .bw, .ch, .ev, .img, .port, .conv, .loop, .gov] s (retryChan s n) := by
  unfold retryChan
  refine Moves.step (retryAlarm_moves ..) rfl ?_
  refine Moves.step (retryDemand_moves ..) rfl ?_
  exact Moves.refl _

theorem readmit_moves (s : State) (n : Chan) : Moves [.free, .bw, .ch, .ev, .img, .port, .conv, .loop, .gov] s (readmit s n) := by
  unfold readmit
  refine Moves.ite (fun _ => ?_) (fun _ => ?_)
  · extract_lets +onlyGivenNames x1
    clear_value x1
    extract_lets +onlyGivenNames x2
    have h2 : Moves [.free, .bw, .ch, .ev, .img, .port, .conv, .loop, .gov] s x2 := by
      unfold x2
      refine Moves.step (retryChan_moves ..) rfl ?_
      refine Moves.upd rfl (fun p => by cases p; (case gov => exact Or.inl ⟨rfl, fun _ _ => trivial⟩); all_goals exact Or.inr rfl) ?_
      exact Moves.refl _
    clear_value x2
    refine Moves.upd rfl (fun p => by cases p; (case gov => exact Or.inl ⟨rfl, fun _ _ => trivial⟩); all_goals exact Or.inr rfl) ?_
    assumption
  · exact Moves.refl _

/-! ## Prove -/

theorem onProve_moves {ps : List Part} (s : State) (n : Chan) (c : FdChan → Bool) (f : State → State) (hf3 : ∀ a0, Moves ps a0 (f a0))
    : Moves ps s (onProve s n c f) := by
  unfold onProve
  refine Moves.step (onField_moves (ps := ps) (hf3 := fun y1_0 => ?_) ..) (covers_refl _) ?_
  · refine Moves.step (hf3 ..) (covers_refl _) ?_
    exact Moves.refl _
  · exact Moves.refl _

theorem accumulate_moves (s : State) (n : Chan) (t0 : W64) (c : DitherCycle) : Moves [.ch] s (accumulate s n t0 c) := by
  unfold accumulate
  refine Moves.ite (fun _ => ?_) (fun _ => ?_)
  · refine Moves.step (State.modCh_moves ..) rfl ?_
    exact Moves.refl _
  · exact Moves.refl _

theorem judgeStrings_moves (s : State) (n : Chan) (g : ℤ) : Moves [.ch] s (judgeStrings s n g) := by
  unfold judgeStrings
  split
  · refine Moves.step (State.modCh_moves ..) rfl ?_
    exact Moves.refl _
  · extract_lets +onlyGivenNames x1
    clear_value x1
    extract_lets +onlyGivenNames x2
    clear_value x2
    extract_lets +onlyGivenNames x3
    refine Moves.step (State.modCh_moves ..) rfl ?_
    exact Moves.refl _

theorem giveResult_moves (s : State) (n : Chan) : Moves [.free, .ch, .ev, .mbx, .img, .port, .enrol] s (giveResult s n) := by
  unfold giveResult
  refine Moves.ite (fun _ => ?_) (fun _ => ?_)
  · refine Moves.step (discardAcc_moves ..) rfl ?_
    exact Moves.refl _
  · extract_lets +onlyGivenNames x1
    clear_value x1
    split
    · refine Moves.ite (fun _ => ?_) (fun _ => ?_)
      · refine Moves.upd rfl (fun p => by cases p; (case enrol => exact Or.inl ⟨rfl, fun _ _ => trivial⟩); all_goals exact Or.inr rfl) ?_
        exact Moves.refl _
      · exact Moves.refl _
    · refine Moves.step (evalLamp_moves ..) rfl ?_
      split
      · refine Moves.step (State.modCh_moves ..) rfl ?_
        exact Moves.refl _
      · refine Moves.step (judgeStrings_moves ..) rfl ?_
        refine Moves.step (State.modCh_moves ..) rfl ?_
        exact Moves.refl _

theorem takeCycle_moves (n : Chan) (s : State) (c : DitherCycle)
    : Moves [.free, .fd, .ch, .ev, .mbx, .img, .port, .enrol] s (takeCycle n s c) := by
  unfold takeCycle
  extract_lets +onlyGivenNames x1
  clear_value x1
  extract_lets +onlyGivenNames x2
  clear_value x2
  refine Moves.ite (fun _ => ?_) (fun _ => ?_)
  · exact Moves.refl _
  · extract_lets +onlyGivenNames x3
    have h3 : Moves [.free, .fd, .ch, .ev, .mbx, .img, .port, .enrol] s x3 := by
      unfold x3
      refine Moves.step (modHalves_moves ..) rfl ?_
      exact Moves.refl _
    clear_value x3
    extract_lets +onlyGivenNames x4
    have h4 : Moves [.free, .fd, .ch, .ev, .mbx, .img, .port, .enrol] s x4 := by
      unfold x4
      refine Moves.step (accumulate_moves ..) rfl ?_
      assumption
    clear_value x4
    refine Moves.ite (fun _ => ?_) (fun _ => ?_)
    · assumption
    · refine Moves.step (giveResult_moves ..) rfl ?_
      assumption

theorem reportPhantom_moves (s : State) (n : Chan) : Moves [.fd] s (reportPhantom s n) := by
  unfold reportPhantom
  extract_lets +onlyGivenNames x1
  clear_value x1
  refine Moves.step (report_moves ..) rfl ?_
  exact Moves.refl _

end Sys2Proof.Machine
end

