-- ==== Sys2Proof/Laws/State.lean ====
section
/-!
SUPPORT. What each named update of the state leaves in each of its fields, and the elements of an array after one of them changes.
-/
namespace Sys2Proof.Machine

/-- The changed element; simp reads an index of `Fin n` as its number. -/
@[simp] theorem modAt_self_val {α : Type} {n : Nat} (v : Vector α n) (i : Fin n) (f : α → α) : (modAt v i f)[i.val] = f v[i.val] := by
  simp [modAt]

theorem modAt_self {α : Type} {n : Nat} (v : Vector α n) (i : Fin n) (f : α → α) : (modAt v i f)[i] = f v[i] := modAt_self_val v i f

theorem modAt_of_ne {α : Type} {n : Nat} (v : Vector α n) {i j : Fin n} (f : α → α) (h : j ≠ i) : (modAt v i f)[j] = v[j] := by
  have : i.val ≠ j.val := fun k => h (Fin.ext k.symm)
  simp [modAt, this]

/-- Element `j` after element `i` changes. -/
theorem modAt_get {α : Type} {n : Nat} (v : Vector α n) (i j : Fin n) (f : α → α) :
    (modAt v i f)[j] = if j = i then f v[i] else v[j] := by
  split
  · subst j
    exact modAt_self ..
  · exact modAt_of_ne _ _ ‹_›

@[simp] theorem setAt_self_val {α : Type} {n : Nat} (v : Vector α n) (i : Fin n) (x : α) : (setAt v i x)[i.val] = x := by
  simp [setAt]

theorem setAt_self {α : Type} {n : Nat} (v : Vector α n) (i : Fin n) (x : α) : (setAt v i x)[i] = x := setAt_self_val v i x

theorem setAt_of_ne {α : Type} {n : Nat} (v : Vector α n) {i j : Fin n} (x : α) (h : j ≠ i) : (setAt v i x)[j] = v[j] := by
  have : i.val ≠ j.val := fun k => h (Fin.ext k.symm)
  simp [setAt, this]

/-- Element `j` after element `i` is replaced. -/
theorem setAt_get {α : Type} {n : Nat} (v : Vector α n) (i j : Fin n) (x : α) :
    (setAt v i x)[j] = if j = i then x else v[j] := by
  split
  · subst j
    exact setAt_self ..
  · exact setAt_of_ne _ _ ‹_›

theorem draw_fst (s : State) : s.draw.1 = Config.free s.free := rfl

@[simp] theorem State.modCh_pending (s : State) (n : Chan) (f : Channel → Channel) : (s.modCh n f).pending = s.pending := rfl
@[simp] theorem State.modCh_free (s : State) (n : Chan) (f : Channel → Channel) : (s.modCh n f).free = s.free := rfl
@[simp] theorem State.modCh_tick (s : State) (n : Chan) (f : Channel → Channel) : (s.modCh n f).tick = s.tick := rfl
@[simp] theorem State.modCh_straps (s : State) (n : Chan) (f : Channel → Channel) : (s.modCh n f).straps = s.straps := rfl
@[simp] theorem State.modCh_clk (s : State) (n : Chan) (f : Channel → Channel) : (s.modCh n f).clk = s.clk := rfl
@[simp] theorem State.modCh_m (s : State) (n : Chan) (f : Channel → Channel) : (s.modCh n f).m = s.m := rfl
@[simp] theorem State.modCh_boot (s : State) (n : Chan) (f : Channel → Channel) : (s.modCh n f).boot = s.boot := rfl
@[simp] theorem State.modCh_triad (s : State) (n : Chan) (f : Channel → Channel) : (s.modCh n f).triad = s.triad := rfl
@[simp] theorem State.modCh_recov (s : State) (n : Chan) (f : Channel → Channel) : (s.modCh n f).recov = s.recov := rfl
@[simp] theorem State.modCh_bw (s : State) (n : Chan) (f : Channel → Channel) : (s.modCh n f).bw = s.bw := rfl
@[simp] theorem State.modCh_fd (s : State) (n : Chan) (f : Channel → Channel) : (s.modCh n f).fd = s.fd := rfl
@[simp] theorem State.modCh_ch (s : State) (n : Chan) (f : Channel → Channel) : (s.modCh n f).ch = modAt s.ch n f := rfl
@[simp] theorem State.modCh_ev (s : State) (n : Chan) (f : Channel → Channel) : (s.modCh n f).ev = s.ev := rfl
@[simp] theorem State.modCh_mbx (s : State) (n : Chan) (f : Channel → Channel) : (s.modCh n f).mbx = s.mbx := rfl
@[simp] theorem State.modCh_img (s : State) (n : Chan) (f : Channel → Channel) : (s.modCh n f).img = s.img := rfl
@[simp] theorem State.modCh_held (s : State) (n : Chan) (f : Channel → Channel) : (s.modCh n f).held = s.held := rfl
@[simp] theorem State.modCh_port (s : State) (n : Chan) (f : Channel → Channel) : (s.modCh n f).port = s.port := rfl
@[simp] theorem State.modCh_flash (s : State) (n : Chan) (f : Channel → Channel) : (s.modCh n f).flash = s.flash := rfl
@[simp] theorem State.modCh_mirror (s : State) (n : Chan) (f : Channel → Channel) : (s.modCh n f).mirror = s.mirror := rfl
@[simp] theorem State.modCh_otp (s : State) (n : Chan) (f : Channel → Channel) : (s.modCh n f).otp = s.otp := rfl
@[simp] theorem State.modCh_conv (s : State) (n : Chan) (f : Channel → Channel) : (s.modCh n f).conv = s.conv := rfl
@[simp] theorem State.modCh_loop (s : State) (n : Chan) (f : Channel → Channel) : (s.modCh n f).loop = s.loop := rfl
@[simp] theorem State.modCh_trim (s : State) (n : Chan) (f : Channel → Channel) : (s.modCh n f).trim = s.trim := rfl
@[simp] theorem State.modCh_hart (s : State) (n : Chan) (f : Channel → Channel) : (s.modCh n f).hart = s.hart := rfl
@[simp] theorem State.modCh_gov (s : State) (n : Chan) (f : Channel → Channel) : (s.modCh n f).gov = s.gov := rfl
@[simp] theorem State.modCh_wheel (s : State) (n : Chan) (f : Channel → Channel) : (s.modCh n f).wheel = s.wheel := rfl
@[simp] theorem State.modCh_time (s : State) (n : Chan) (f : Channel → Channel) : (s.modCh n f).time = s.time := rfl
@[simp] theorem State.modCh_rul (s : State) (n : Chan) (f : Channel → Channel) : (s.modCh n f).rul = s.rul := rfl
@[simp] theorem State.modCh_host (s : State) (n : Chan) (f : Channel → Channel) : (s.modCh n f).host = s.host := rfl
@[simp] theorem State.modCh_mem (s : State) (n : Chan) (f : Channel → Channel) : (s.modCh n f).mem = s.mem := rfl
@[simp] theorem State.modCh_chk (s : State) (n : Chan) (f : Channel → Channel) : (s.modCh n f).chk = s.chk := rfl
@[simp] theorem State.modCh_pins (s : State) (n : Chan) (f : Channel → Channel) : (s.modCh n f).pins = s.pins := rfl
@[simp] theorem State.modCh_enrol (s : State) (n : Chan) (f : Channel → Channel) : (s.modCh n f).enrol = s.enrol := rfl

@[simp] theorem State.modFd_pending (s : State) (n : Chan) (f : FdChan → FdChan) : (s.modFd n f).pending = s.pending := rfl
@[simp] theorem State.modFd_free (s : State) (n : Chan) (f : FdChan → FdChan) : (s.modFd n f).free = s.free := rfl
@[simp] theorem State.modFd_tick (s : State) (n : Chan) (f : FdChan → FdChan) : (s.modFd n f).tick = s.tick := rfl
@[simp] theorem State.modFd_straps (s : State) (n : Chan) (f : FdChan → FdChan) : (s.modFd n f).straps = s.straps := rfl
@[simp] theorem State.modFd_clk (s : State) (n : Chan) (f : FdChan → FdChan) : (s.modFd n f).clk = s.clk := rfl
@[simp] theorem State.modFd_m (s : State) (n : Chan) (f : FdChan → FdChan) : (s.modFd n f).m = s.m := rfl
@[simp] theorem State.modFd_boot (s : State) (n : Chan) (f : FdChan → FdChan) : (s.modFd n f).boot = s.boot := rfl
@[simp] theorem State.modFd_triad (s : State) (n : Chan) (f : FdChan → FdChan) : (s.modFd n f).triad = s.triad := rfl
@[simp] theorem State.modFd_recov (s : State) (n : Chan) (f : FdChan → FdChan) : (s.modFd n f).recov = s.recov := rfl
@[simp] theorem State.modFd_bw (s : State) (n : Chan) (f : FdChan → FdChan) : (s.modFd n f).bw = s.bw := rfl
@[simp] theorem State.modFd_fd (s : State) (n : Chan) (f : FdChan → FdChan) :
    (s.modFd n f).fd = { s.fd with ch := modAt s.fd.ch n f } := rfl
@[simp] theorem State.modFd_ch (s : State) (n : Chan) (f : FdChan → FdChan) : (s.modFd n f).ch = s.ch := rfl
@[simp] theorem State.modFd_ev (s : State) (n : Chan) (f : FdChan → FdChan) : (s.modFd n f).ev = s.ev := rfl
@[simp] theorem State.modFd_mbx (s : State) (n : Chan) (f : FdChan → FdChan) : (s.modFd n f).mbx = s.mbx := rfl
@[simp] theorem State.modFd_img (s : State) (n : Chan) (f : FdChan → FdChan) : (s.modFd n f).img = s.img := rfl
@[simp] theorem State.modFd_held (s : State) (n : Chan) (f : FdChan → FdChan) : (s.modFd n f).held = s.held := rfl
@[simp] theorem State.modFd_port (s : State) (n : Chan) (f : FdChan → FdChan) : (s.modFd n f).port = s.port := rfl
@[simp] theorem State.modFd_flash (s : State) (n : Chan) (f : FdChan → FdChan) : (s.modFd n f).flash = s.flash := rfl
@[simp] theorem State.modFd_mirror (s : State) (n : Chan) (f : FdChan → FdChan) : (s.modFd n f).mirror = s.mirror := rfl
@[simp] theorem State.modFd_otp (s : State) (n : Chan) (f : FdChan → FdChan) : (s.modFd n f).otp = s.otp := rfl
@[simp] theorem State.modFd_conv (s : State) (n : Chan) (f : FdChan → FdChan) : (s.modFd n f).conv = s.conv := rfl
@[simp] theorem State.modFd_loop (s : State) (n : Chan) (f : FdChan → FdChan) : (s.modFd n f).loop = s.loop := rfl
@[simp] theorem State.modFd_trim (s : State) (n : Chan) (f : FdChan → FdChan) : (s.modFd n f).trim = s.trim := rfl
@[simp] theorem State.modFd_hart (s : State) (n : Chan) (f : FdChan → FdChan) : (s.modFd n f).hart = s.hart := rfl
@[simp] theorem State.modFd_gov (s : State) (n : Chan) (f : FdChan → FdChan) : (s.modFd n f).gov = s.gov := rfl
@[simp] theorem State.modFd_wheel (s : State) (n : Chan) (f : FdChan → FdChan) : (s.modFd n f).wheel = s.wheel := rfl
@[simp] theorem State.modFd_time (s : State) (n : Chan) (f : FdChan → FdChan) : (s.modFd n f).time = s.time := rfl
@[simp] theorem State.modFd_rul (s : State) (n : Chan) (f : FdChan → FdChan) : (s.modFd n f).rul = s.rul := rfl
@[simp] theorem State.modFd_host (s : State) (n : Chan) (f : FdChan → FdChan) : (s.modFd n f).host = s.host := rfl
@[simp] theorem State.modFd_mem (s : State) (n : Chan) (f : FdChan → FdChan) : (s.modFd n f).mem = s.mem := rfl
@[simp] theorem State.modFd_chk (s : State) (n : Chan) (f : FdChan → FdChan) : (s.modFd n f).chk = s.chk := rfl
@[simp] theorem State.modFd_pins (s : State) (n : Chan) (f : FdChan → FdChan) : (s.modFd n f).pins = s.pins := rfl
@[simp] theorem State.modFd_enrol (s : State) (n : Chan) (f : FdChan → FdChan) : (s.modFd n f).enrol = s.enrol := rfl

@[simp] theorem State.modPort_pending (s : State) (k : PortIx) (f : Port → Port) : (s.modPort k f).pending = s.pending := rfl
@[simp] theorem State.modPort_free (s : State) (k : PortIx) (f : Port → Port) : (s.modPort k f).free = s.free := rfl
@[simp] theorem State.modPort_tick (s : State) (k : PortIx) (f : Port → Port) : (s.modPort k f).tick = s.tick := rfl
@[simp] theorem State.modPort_straps (s : State) (k : PortIx) (f : Port → Port) : (s.modPort k f).straps = s.straps := rfl
@[simp] theorem State.modPort_clk (s : State) (k : PortIx) (f : Port → Port) : (s.modPort k f).clk = s.clk := rfl
@[simp] theorem State.modPort_m (s : State) (k : PortIx) (f : Port → Port) : (s.modPort k f).m = s.m := rfl
@[simp] theorem State.modPort_boot (s : State) (k : PortIx) (f : Port → Port) : (s.modPort k f).boot = s.boot := rfl
@[simp] theorem State.modPort_triad (s : State) (k : PortIx) (f : Port → Port) : (s.modPort k f).triad = s.triad := rfl
@[simp] theorem State.modPort_recov (s : State) (k : PortIx) (f : Port → Port) : (s.modPort k f).recov = s.recov := rfl
@[simp] theorem State.modPort_bw (s : State) (k : PortIx) (f : Port → Port) : (s.modPort k f).bw = s.bw := rfl
@[simp] theorem State.modPort_fd (s : State) (k : PortIx) (f : Port → Port) : (s.modPort k f).fd = s.fd := rfl
@[simp] theorem State.modPort_ch (s : State) (k : PortIx) (f : Port → Port) : (s.modPort k f).ch = s.ch := rfl
@[simp] theorem State.modPort_ev (s : State) (k : PortIx) (f : Port → Port) : (s.modPort k f).ev = s.ev := rfl
@[simp] theorem State.modPort_mbx (s : State) (k : PortIx) (f : Port → Port) : (s.modPort k f).mbx = s.mbx := rfl
@[simp] theorem State.modPort_img (s : State) (k : PortIx) (f : Port → Port) : (s.modPort k f).img = s.img := rfl
@[simp] theorem State.modPort_held (s : State) (k : PortIx) (f : Port → Port) : (s.modPort k f).held = s.held := rfl
@[simp] theorem State.modPort_port (s : State) (k : PortIx) (f : Port → Port) : (s.modPort k f).port = modAt s.port k f := rfl
@[simp] theorem State.modPort_flash (s : State) (k : PortIx) (f : Port → Port) : (s.modPort k f).flash = s.flash := rfl
@[simp] theorem State.modPort_mirror (s : State) (k : PortIx) (f : Port → Port) : (s.modPort k f).mirror = s.mirror := rfl
@[simp] theorem State.modPort_otp (s : State) (k : PortIx) (f : Port → Port) : (s.modPort k f).otp = s.otp := rfl
@[simp] theorem State.modPort_conv (s : State) (k : PortIx) (f : Port → Port) : (s.modPort k f).conv = s.conv := rfl
@[simp] theorem State.modPort_loop (s : State) (k : PortIx) (f : Port → Port) : (s.modPort k f).loop = s.loop := rfl
@[simp] theorem State.modPort_trim (s : State) (k : PortIx) (f : Port → Port) : (s.modPort k f).trim = s.trim := rfl
@[simp] theorem State.modPort_hart (s : State) (k : PortIx) (f : Port → Port) : (s.modPort k f).hart = s.hart := rfl
@[simp] theorem State.modPort_gov (s : State) (k : PortIx) (f : Port → Port) : (s.modPort k f).gov = s.gov := rfl
@[simp] theorem State.modPort_wheel (s : State) (k : PortIx) (f : Port → Port) : (s.modPort k f).wheel = s.wheel := rfl
@[simp] theorem State.modPort_time (s : State) (k : PortIx) (f : Port → Port) : (s.modPort k f).time = s.time := rfl
@[simp] theorem State.modPort_rul (s : State) (k : PortIx) (f : Port → Port) : (s.modPort k f).rul = s.rul := rfl
@[simp] theorem State.modPort_host (s : State) (k : PortIx) (f : Port → Port) : (s.modPort k f).host = s.host := rfl
@[simp] theorem State.modPort_mem (s : State) (k : PortIx) (f : Port → Port) : (s.modPort k f).mem = s.mem := rfl
@[simp] theorem State.modPort_chk (s : State) (k : PortIx) (f : Port → Port) : (s.modPort k f).chk = s.chk := rfl
@[simp] theorem State.modPort_pins (s : State) (k : PortIx) (f : Port → Port) : (s.modPort k f).pins = s.pins := rfl
@[simp] theorem State.modPort_enrol (s : State) (k : PortIx) (f : Port → Port) : (s.modPort k f).enrol = s.enrol := rfl

@[simp] theorem State.modSlot_pending (s : State) (i : SlotIx) (f : MailSlot → MailSlot) : (s.modSlot i f).pending = s.pending := rfl
@[simp] theorem State.modSlot_free (s : State) (i : SlotIx) (f : MailSlot → MailSlot) : (s.modSlot i f).free = s.free := rfl
@[simp] theorem State.modSlot_tick (s : State) (i : SlotIx) (f : MailSlot → MailSlot) : (s.modSlot i f).tick = s.tick := rfl
@[simp] theorem State.modSlot_straps (s : State) (i : SlotIx) (f : MailSlot → MailSlot) : (s.modSlot i f).straps = s.straps := rfl
@[simp] theorem State.modSlot_clk (s : State) (i : SlotIx) (f : MailSlot → MailSlot) : (s.modSlot i f).clk = s.clk := rfl
@[simp] theorem State.modSlot_m (s : State) (i : SlotIx) (f : MailSlot → MailSlot) : (s.modSlot i f).m = s.m := rfl
@[simp] theorem State.modSlot_boot (s : State) (i : SlotIx) (f : MailSlot → MailSlot) : (s.modSlot i f).boot = s.boot := rfl
@[simp] theorem State.modSlot_triad (s : State) (i : SlotIx) (f : MailSlot → MailSlot) : (s.modSlot i f).triad = s.triad := rfl
@[simp] theorem State.modSlot_recov (s : State) (i : SlotIx) (f : MailSlot → MailSlot) : (s.modSlot i f).recov = s.recov := rfl
@[simp] theorem State.modSlot_bw (s : State) (i : SlotIx) (f : MailSlot → MailSlot) : (s.modSlot i f).bw = s.bw := rfl
@[simp] theorem State.modSlot_fd (s : State) (i : SlotIx) (f : MailSlot → MailSlot) : (s.modSlot i f).fd = s.fd := rfl
@[simp] theorem State.modSlot_ch (s : State) (i : SlotIx) (f : MailSlot → MailSlot) : (s.modSlot i f).ch = s.ch := rfl
@[simp] theorem State.modSlot_ev (s : State) (i : SlotIx) (f : MailSlot → MailSlot) : (s.modSlot i f).ev = s.ev := rfl
@[simp] theorem State.modSlot_mbx (s : State) (i : SlotIx) (f : MailSlot → MailSlot) :
    (s.modSlot i f).mbx = { s.mbx with slot := modAt s.mbx.slot i f } := rfl
@[simp] theorem State.modSlot_img (s : State) (i : SlotIx) (f : MailSlot → MailSlot) : (s.modSlot i f).img = s.img := rfl
@[simp] theorem State.modSlot_held (s : State) (i : SlotIx) (f : MailSlot → MailSlot) : (s.modSlot i f).held = s.held := rfl
@[simp] theorem State.modSlot_port (s : State) (i : SlotIx) (f : MailSlot → MailSlot) : (s.modSlot i f).port = s.port := rfl
@[simp] theorem State.modSlot_flash (s : State) (i : SlotIx) (f : MailSlot → MailSlot) : (s.modSlot i f).flash = s.flash := rfl
@[simp] theorem State.modSlot_mirror (s : State) (i : SlotIx) (f : MailSlot → MailSlot) : (s.modSlot i f).mirror = s.mirror := rfl
@[simp] theorem State.modSlot_otp (s : State) (i : SlotIx) (f : MailSlot → MailSlot) : (s.modSlot i f).otp = s.otp := rfl
@[simp] theorem State.modSlot_conv (s : State) (i : SlotIx) (f : MailSlot → MailSlot) : (s.modSlot i f).conv = s.conv := rfl
@[simp] theorem State.modSlot_loop (s : State) (i : SlotIx) (f : MailSlot → MailSlot) : (s.modSlot i f).loop = s.loop := rfl
@[simp] theorem State.modSlot_trim (s : State) (i : SlotIx) (f : MailSlot → MailSlot) : (s.modSlot i f).trim = s.trim := rfl
@[simp] theorem State.modSlot_hart (s : State) (i : SlotIx) (f : MailSlot → MailSlot) : (s.modSlot i f).hart = s.hart := rfl
@[simp] theorem State.modSlot_gov (s : State) (i : SlotIx) (f : MailSlot → MailSlot) : (s.modSlot i f).gov = s.gov := rfl
@[simp] theorem State.modSlot_wheel (s : State) (i : SlotIx) (f : MailSlot → MailSlot) : (s.modSlot i f).wheel = s.wheel := rfl
@[simp] theorem State.modSlot_time (s : State) (i : SlotIx) (f : MailSlot → MailSlot) : (s.modSlot i f).time = s.time := rfl
@[simp] theorem State.modSlot_rul (s : State) (i : SlotIx) (f : MailSlot → MailSlot) : (s.modSlot i f).rul = s.rul := rfl
@[simp] theorem State.modSlot_host (s : State) (i : SlotIx) (f : MailSlot → MailSlot) : (s.modSlot i f).host = s.host := rfl
@[simp] theorem State.modSlot_mem (s : State) (i : SlotIx) (f : MailSlot → MailSlot) : (s.modSlot i f).mem = s.mem := rfl
@[simp] theorem State.modSlot_chk (s : State) (i : SlotIx) (f : MailSlot → MailSlot) : (s.modSlot i f).chk = s.chk := rfl
@[simp] theorem State.modSlot_pins (s : State) (i : SlotIx) (f : MailSlot → MailSlot) : (s.modSlot i f).pins = s.pins := rfl
@[simp] theorem State.modSlot_enrol (s : State) (i : SlotIx) (f : MailSlot → MailSlot) : (s.modSlot i f).enrol = s.enrol := rfl

@[simp] theorem State.modSrc_pending (s : State) (i : SrcIx) (f : EventSource → EventSource) : (s.modSrc i f).pending = s.pending := rfl
@[simp] theorem State.modSrc_free (s : State) (i : SrcIx) (f : EventSource → EventSource) : (s.modSrc i f).free = s.free := rfl
@[simp] theorem State.modSrc_tick (s : State) (i : SrcIx) (f : EventSource → EventSource) : (s.modSrc i f).tick = s.tick := rfl
@[simp] theorem State.modSrc_straps (s : State) (i : SrcIx) (f : EventSource → EventSource) : (s.modSrc i f).straps = s.straps := rfl
@[simp] theorem State.modSrc_clk (s : State) (i : SrcIx) (f : EventSource → EventSource) : (s.modSrc i f).clk = s.clk := rfl
@[simp] theorem State.modSrc_m (s : State) (i : SrcIx) (f : EventSource → EventSource) : (s.modSrc i f).m = s.m := rfl
@[simp] theorem State.modSrc_boot (s : State) (i : SrcIx) (f : EventSource → EventSource) : (s.modSrc i f).boot = s.boot := rfl
@[simp] theorem State.modSrc_triad (s : State) (i : SrcIx) (f : EventSource → EventSource) : (s.modSrc i f).triad = s.triad := rfl
@[simp] theorem State.modSrc_recov (s : State) (i : SrcIx) (f : EventSource → EventSource) : (s.modSrc i f).recov = s.recov := rfl
@[simp] theorem State.modSrc_bw (s : State) (i : SrcIx) (f : EventSource → EventSource) : (s.modSrc i f).bw = s.bw := rfl
@[simp] theorem State.modSrc_fd (s : State) (i : SrcIx) (f : EventSource → EventSource) : (s.modSrc i f).fd = s.fd := rfl
@[simp] theorem State.modSrc_ch (s : State) (i : SrcIx) (f : EventSource → EventSource) : (s.modSrc i f).ch = s.ch := rfl
@[simp] theorem State.modSrc_ev (s : State) (i : SrcIx) (f : EventSource → EventSource) :
    (s.modSrc i f).ev = { s.ev with src := modAt s.ev.src i f } := rfl
@[simp] theorem State.modSrc_mbx (s : State) (i : SrcIx) (f : EventSource → EventSource) : (s.modSrc i f).mbx = s.mbx := rfl
@[simp] theorem State.modSrc_img (s : State) (i : SrcIx) (f : EventSource → EventSource) : (s.modSrc i f).img = s.img := rfl
@[simp] theorem State.modSrc_held (s : State) (i : SrcIx) (f : EventSource → EventSource) : (s.modSrc i f).held = s.held := rfl
@[simp] theorem State.modSrc_port (s : State) (i : SrcIx) (f : EventSource → EventSource) : (s.modSrc i f).port = s.port := rfl
@[simp] theorem State.modSrc_flash (s : State) (i : SrcIx) (f : EventSource → EventSource) : (s.modSrc i f).flash = s.flash := rfl
@[simp] theorem State.modSrc_mirror (s : State) (i : SrcIx) (f : EventSource → EventSource) : (s.modSrc i f).mirror = s.mirror := rfl
@[simp] theorem State.modSrc_otp (s : State) (i : SrcIx) (f : EventSource → EventSource) : (s.modSrc i f).otp = s.otp := rfl
@[simp] theorem State.modSrc_conv (s : State) (i : SrcIx) (f : EventSource → EventSource) : (s.modSrc i f).conv = s.conv := rfl
@[simp] theorem State.modSrc_loop (s : State) (i : SrcIx) (f : EventSource → EventSource) : (s.modSrc i f).loop = s.loop := rfl
@[simp] theorem State.modSrc_trim (s : State) (i : SrcIx) (f : EventSource → EventSource) : (s.modSrc i f).trim = s.trim := rfl
@[simp] theorem State.modSrc_hart (s : State) (i : SrcIx) (f : EventSource → EventSource) : (s.modSrc i f).hart = s.hart := rfl
@[simp] theorem State.modSrc_gov (s : State) (i : SrcIx) (f : EventSource → EventSource) : (s.modSrc i f).gov = s.gov := rfl
@[simp] theorem State.modSrc_wheel (s : State) (i : SrcIx) (f : EventSource → EventSource) : (s.modSrc i f).wheel = s.wheel := rfl
@[simp] theorem State.modSrc_time (s : State) (i : SrcIx) (f : EventSource → EventSource) : (s.modSrc i f).time = s.time := rfl
@[simp] theorem State.modSrc_rul (s : State) (i : SrcIx) (f : EventSource → EventSource) : (s.modSrc i f).rul = s.rul := rfl
@[simp] theorem State.modSrc_host (s : State) (i : SrcIx) (f : EventSource → EventSource) : (s.modSrc i f).host = s.host := rfl
@[simp] theorem State.modSrc_mem (s : State) (i : SrcIx) (f : EventSource → EventSource) : (s.modSrc i f).mem = s.mem := rfl
@[simp] theorem State.modSrc_chk (s : State) (i : SrcIx) (f : EventSource → EventSource) : (s.modSrc i f).chk = s.chk := rfl
@[simp] theorem State.modSrc_pins (s : State) (i : SrcIx) (f : EventSource → EventSource) : (s.modSrc i f).pins = s.pins := rfl
@[simp] theorem State.modSrc_enrol (s : State) (i : SrcIx) (f : EventSource → EventSource) : (s.modSrc i f).enrol = s.enrol := rfl

@[simp] theorem State.modRule_pending (s : State) (i : Nat) (f : RuleMem → RuleMem) : (s.modRule i f).pending = s.pending := rfl
@[simp] theorem State.modRule_free (s : State) (i : Nat) (f : RuleMem → RuleMem) : (s.modRule i f).free = s.free := rfl
@[simp] theorem State.modRule_tick (s : State) (i : Nat) (f : RuleMem → RuleMem) : (s.modRule i f).tick = s.tick := rfl
@[simp] theorem State.modRule_straps (s : State) (i : Nat) (f : RuleMem → RuleMem) : (s.modRule i f).straps = s.straps := rfl
@[simp] theorem State.modRule_clk (s : State) (i : Nat) (f : RuleMem → RuleMem) : (s.modRule i f).clk = s.clk := rfl
@[simp] theorem State.modRule_m (s : State) (i : Nat) (f : RuleMem → RuleMem) : (s.modRule i f).m = s.m := rfl
@[simp] theorem State.modRule_boot (s : State) (i : Nat) (f : RuleMem → RuleMem) : (s.modRule i f).boot = s.boot := rfl
@[simp] theorem State.modRule_triad (s : State) (i : Nat) (f : RuleMem → RuleMem) : (s.modRule i f).triad = s.triad := rfl
@[simp] theorem State.modRule_recov (s : State) (i : Nat) (f : RuleMem → RuleMem) : (s.modRule i f).recov = s.recov := rfl
@[simp] theorem State.modRule_bw (s : State) (i : Nat) (f : RuleMem → RuleMem) : (s.modRule i f).bw = s.bw := rfl
@[simp] theorem State.modRule_fd (s : State) (i : Nat) (f : RuleMem → RuleMem) : (s.modRule i f).fd = s.fd := rfl
@[simp] theorem State.modRule_ch (s : State) (i : Nat) (f : RuleMem → RuleMem) : (s.modRule i f).ch = s.ch := rfl
@[simp] theorem State.modRule_ev (s : State) (i : Nat) (f : RuleMem → RuleMem) : (s.modRule i f).ev = s.ev := rfl
@[simp] theorem State.modRule_mbx (s : State) (i : Nat) (f : RuleMem → RuleMem) : (s.modRule i f).mbx = s.mbx := rfl
@[simp] theorem State.modRule_img (s : State) (i : Nat) (f : RuleMem → RuleMem) : (s.modRule i f).img = s.img := rfl
@[simp] theorem State.modRule_held (s : State) (i : Nat) (f : RuleMem → RuleMem) : (s.modRule i f).held = s.held := rfl
@[simp] theorem State.modRule_port (s : State) (i : Nat) (f : RuleMem → RuleMem) : (s.modRule i f).port = s.port := rfl
@[simp] theorem State.modRule_flash (s : State) (i : Nat) (f : RuleMem → RuleMem) : (s.modRule i f).flash = s.flash := rfl
@[simp] theorem State.modRule_mirror (s : State) (i : Nat) (f : RuleMem → RuleMem) : (s.modRule i f).mirror = s.mirror := rfl
@[simp] theorem State.modRule_otp (s : State) (i : Nat) (f : RuleMem → RuleMem) : (s.modRule i f).otp = s.otp := rfl
@[simp] theorem State.modRule_conv (s : State) (i : Nat) (f : RuleMem → RuleMem) : (s.modRule i f).conv = s.conv := rfl
@[simp] theorem State.modRule_loop (s : State) (i : Nat) (f : RuleMem → RuleMem) : (s.modRule i f).loop = s.loop := rfl
@[simp] theorem State.modRule_trim (s : State) (i : Nat) (f : RuleMem → RuleMem) : (s.modRule i f).trim = s.trim := rfl
@[simp] theorem State.modRule_hart (s : State) (i : Nat) (f : RuleMem → RuleMem) : (s.modRule i f).hart = s.hart := rfl
@[simp] theorem State.modRule_gov (s : State) (i : Nat) (f : RuleMem → RuleMem) : (s.modRule i f).gov = s.gov := rfl
@[simp] theorem State.modRule_wheel (s : State) (i : Nat) (f : RuleMem → RuleMem) : (s.modRule i f).wheel = s.wheel := rfl
@[simp] theorem State.modRule_time (s : State) (i : Nat) (f : RuleMem → RuleMem) : (s.modRule i f).time = s.time := rfl
@[simp] theorem State.modRule_rul (s : State) (i : Nat) (f : RuleMem → RuleMem) :
    (s.modRule i f).rul = { s.rul with mem := s.rul.mem.modify i f } := rfl
@[simp] theorem State.modRule_host (s : State) (i : Nat) (f : RuleMem → RuleMem) : (s.modRule i f).host = s.host := rfl
@[simp] theorem State.modRule_mem (s : State) (i : Nat) (f : RuleMem → RuleMem) : (s.modRule i f).mem = s.mem := rfl
@[simp] theorem State.modRule_chk (s : State) (i : Nat) (f : RuleMem → RuleMem) : (s.modRule i f).chk = s.chk := rfl
@[simp] theorem State.modRule_pins (s : State) (i : Nat) (f : RuleMem → RuleMem) : (s.modRule i f).pins = s.pins := rfl
@[simp] theorem State.modRule_enrol (s : State) (i : Nat) (f : RuleMem → RuleMem) : (s.modRule i f).enrol = s.enrol := rfl

@[simp] theorem State.modLoop_pending (s : State) (n : Chan) (f : ChanLoop → ChanLoop) : (s.modLoop n f).pending = s.pending := rfl
@[simp] theorem State.modLoop_free (s : State) (n : Chan) (f : ChanLoop → ChanLoop) : (s.modLoop n f).free = s.free := rfl
@[simp] theorem State.modLoop_tick (s : State) (n : Chan) (f : ChanLoop → ChanLoop) : (s.modLoop n f).tick = s.tick := rfl
@[simp] theorem State.modLoop_straps (s : State) (n : Chan) (f : ChanLoop → ChanLoop) : (s.modLoop n f).straps = s.straps := rfl
@[simp] theorem State.modLoop_clk (s : State) (n : Chan) (f : ChanLoop → ChanLoop) : (s.modLoop n f).clk = s.clk := rfl
@[simp] theorem State.modLoop_m (s : State) (n : Chan) (f : ChanLoop → ChanLoop) : (s.modLoop n f).m = s.m := rfl
@[simp] theorem State.modLoop_boot (s : State) (n : Chan) (f : ChanLoop → ChanLoop) : (s.modLoop n f).boot = s.boot := rfl
@[simp] theorem State.modLoop_triad (s : State) (n : Chan) (f : ChanLoop → ChanLoop) : (s.modLoop n f).triad = s.triad := rfl
@[simp] theorem State.modLoop_recov (s : State) (n : Chan) (f : ChanLoop → ChanLoop) : (s.modLoop n f).recov = s.recov := rfl
@[simp] theorem State.modLoop_bw (s : State) (n : Chan) (f : ChanLoop → ChanLoop) : (s.modLoop n f).bw = s.bw := rfl
@[simp] theorem State.modLoop_fd (s : State) (n : Chan) (f : ChanLoop → ChanLoop) : (s.modLoop n f).fd = s.fd := rfl
@[simp] theorem State.modLoop_ch (s : State) (n : Chan) (f : ChanLoop → ChanLoop) : (s.modLoop n f).ch = s.ch := rfl
@[simp] theorem State.modLoop_ev (s : State) (n : Chan) (f : ChanLoop → ChanLoop) : (s.modLoop n f).ev = s.ev := rfl
@[simp] theorem State.modLoop_mbx (s : State) (n : Chan) (f : ChanLoop → ChanLoop) : (s.modLoop n f).mbx = s.mbx := rfl
@[simp] theorem State.modLoop_img (s : State) (n : Chan) (f : ChanLoop → ChanLoop) : (s.modLoop n f).img = s.img := rfl
@[simp] theorem State.modLoop_held (s : State) (n : Chan) (f : ChanLoop → ChanLoop) : (s.modLoop n f).held = s.held := rfl
@[simp] theorem State.modLoop_port (s : State) (n : Chan) (f : ChanLoop → ChanLoop) : (s.modLoop n f).port = s.port := rfl
@[simp] theorem State.modLoop_flash (s : State) (n : Chan) (f : ChanLoop → ChanLoop) : (s.modLoop n f).flash = s.flash := rfl
@[simp] theorem State.modLoop_mirror (s : State) (n : Chan) (f : ChanLoop → ChanLoop) : (s.modLoop n f).mirror = s.mirror := rfl
@[simp] theorem State.modLoop_otp (s : State) (n : Chan) (f : ChanLoop → ChanLoop) : (s.modLoop n f).otp = s.otp := rfl
@[simp] theorem State.modLoop_conv (s : State) (n : Chan) (f : ChanLoop → ChanLoop) : (s.modLoop n f).conv = s.conv := rfl
@[simp] theorem State.modLoop_loop (s : State) (n : Chan) (f : ChanLoop → ChanLoop) : (s.modLoop n f).loop = modAt s.loop n f := rfl
@[simp] theorem State.modLoop_trim (s : State) (n : Chan) (f : ChanLoop → ChanLoop) : (s.modLoop n f).trim = s.trim := rfl
@[simp] theorem State.modLoop_hart (s : State) (n : Chan) (f : ChanLoop → ChanLoop) : (s.modLoop n f).hart = s.hart := rfl
@[simp] theorem State.modLoop_gov (s : State) (n : Chan) (f : ChanLoop → ChanLoop) : (s.modLoop n f).gov = s.gov := rfl
@[simp] theorem State.modLoop_wheel (s : State) (n : Chan) (f : ChanLoop → ChanLoop) : (s.modLoop n f).wheel = s.wheel := rfl
@[simp] theorem State.modLoop_time (s : State) (n : Chan) (f : ChanLoop → ChanLoop) : (s.modLoop n f).time = s.time := rfl
@[simp] theorem State.modLoop_rul (s : State) (n : Chan) (f : ChanLoop → ChanLoop) : (s.modLoop n f).rul = s.rul := rfl
@[simp] theorem State.modLoop_host (s : State) (n : Chan) (f : ChanLoop → ChanLoop) : (s.modLoop n f).host = s.host := rfl
@[simp] theorem State.modLoop_mem (s : State) (n : Chan) (f : ChanLoop → ChanLoop) : (s.modLoop n f).mem = s.mem := rfl
@[simp] theorem State.modLoop_chk (s : State) (n : Chan) (f : ChanLoop → ChanLoop) : (s.modLoop n f).chk = s.chk := rfl
@[simp] theorem State.modLoop_pins (s : State) (n : Chan) (f : ChanLoop → ChanLoop) : (s.modLoop n f).pins = s.pins := rfl
@[simp] theorem State.modLoop_enrol (s : State) (n : Chan) (f : ChanLoop → ChanLoop) : (s.modLoop n f).enrol = s.enrol := rfl

@[simp] theorem State.modPath_pending (s : State) (p : PathIx) (f : PathState → PathState) : (s.modPath p f).pending = s.pending := rfl
@[simp] theorem State.modPath_free (s : State) (p : PathIx) (f : PathState → PathState) : (s.modPath p f).free = s.free := rfl
@[simp] theorem State.modPath_tick (s : State) (p : PathIx) (f : PathState → PathState) : (s.modPath p f).tick = s.tick := rfl
@[simp] theorem State.modPath_straps (s : State) (p : PathIx) (f : PathState → PathState) : (s.modPath p f).straps = s.straps := rfl
@[simp] theorem State.modPath_clk (s : State) (p : PathIx) (f : PathState → PathState) : (s.modPath p f).clk = s.clk := rfl
@[simp] theorem State.modPath_m (s : State) (p : PathIx) (f : PathState → PathState) : (s.modPath p f).m = s.m := rfl
@[simp] theorem State.modPath_boot (s : State) (p : PathIx) (f : PathState → PathState) : (s.modPath p f).boot = s.boot := rfl
@[simp] theorem State.modPath_triad (s : State) (p : PathIx) (f : PathState → PathState) : (s.modPath p f).triad = s.triad := rfl
@[simp] theorem State.modPath_recov (s : State) (p : PathIx) (f : PathState → PathState) : (s.modPath p f).recov = s.recov := rfl
@[simp] theorem State.modPath_bw (s : State) (p : PathIx) (f : PathState → PathState) : (s.modPath p f).bw = s.bw := rfl
@[simp] theorem State.modPath_fd (s : State) (p : PathIx) (f : PathState → PathState) : (s.modPath p f).fd = s.fd := rfl
@[simp] theorem State.modPath_ch (s : State) (p : PathIx) (f : PathState → PathState) : (s.modPath p f).ch = s.ch := rfl
@[simp] theorem State.modPath_ev (s : State) (p : PathIx) (f : PathState → PathState) : (s.modPath p f).ev = s.ev := rfl
@[simp] theorem State.modPath_mbx (s : State) (p : PathIx) (f : PathState → PathState) : (s.modPath p f).mbx = s.mbx := rfl
@[simp] theorem State.modPath_img (s : State) (p : PathIx) (f : PathState → PathState) : (s.modPath p f).img = s.img := rfl
@[simp] theorem State.modPath_held (s : State) (p : PathIx) (f : PathState → PathState) : (s.modPath p f).held = s.held := rfl
@[simp] theorem State.modPath_port (s : State) (p : PathIx) (f : PathState → PathState) : (s.modPath p f).port = s.port := rfl
@[simp] theorem State.modPath_flash (s : State) (p : PathIx) (f : PathState → PathState) : (s.modPath p f).flash = s.flash := rfl
@[simp] theorem State.modPath_mirror (s : State) (p : PathIx) (f : PathState → PathState) : (s.modPath p f).mirror = s.mirror := rfl
@[simp] theorem State.modPath_otp (s : State) (p : PathIx) (f : PathState → PathState) : (s.modPath p f).otp = s.otp := rfl
@[simp] theorem State.modPath_conv (s : State) (p : PathIx) (f : PathState → PathState) :
    (s.modPath p f).conv = { s.conv with path := modAt s.conv.path p f } := rfl
@[simp] theorem State.modPath_loop (s : State) (p : PathIx) (f : PathState → PathState) : (s.modPath p f).loop = s.loop := rfl
@[simp] theorem State.modPath_trim (s : State) (p : PathIx) (f : PathState → PathState) : (s.modPath p f).trim = s.trim := rfl
@[simp] theorem State.modPath_hart (s : State) (p : PathIx) (f : PathState → PathState) : (s.modPath p f).hart = s.hart := rfl
@[simp] theorem State.modPath_gov (s : State) (p : PathIx) (f : PathState → PathState) : (s.modPath p f).gov = s.gov := rfl
@[simp] theorem State.modPath_wheel (s : State) (p : PathIx) (f : PathState → PathState) : (s.modPath p f).wheel = s.wheel := rfl
@[simp] theorem State.modPath_time (s : State) (p : PathIx) (f : PathState → PathState) : (s.modPath p f).time = s.time := rfl
@[simp] theorem State.modPath_rul (s : State) (p : PathIx) (f : PathState → PathState) : (s.modPath p f).rul = s.rul := rfl
@[simp] theorem State.modPath_host (s : State) (p : PathIx) (f : PathState → PathState) : (s.modPath p f).host = s.host := rfl
@[simp] theorem State.modPath_mem (s : State) (p : PathIx) (f : PathState → PathState) : (s.modPath p f).mem = s.mem := rfl
@[simp] theorem State.modPath_chk (s : State) (p : PathIx) (f : PathState → PathState) : (s.modPath p f).chk = s.chk := rfl
@[simp] theorem State.modPath_pins (s : State) (p : PathIx) (f : PathState → PathState) : (s.modPath p f).pins = s.pins := rfl
@[simp] theorem State.modPath_enrol (s : State) (p : PathIx) (f : PathState → PathState) : (s.modPath p f).enrol = s.enrol := rfl

@[simp] theorem State.modHost_pending (s : State) (f : HostPort → HostPort) : (s.modHost f).pending = s.pending := rfl
@[simp] theorem State.modHost_free (s : State) (f : HostPort → HostPort) : (s.modHost f).free = s.free := rfl
@[simp] theorem State.modHost_tick (s : State) (f : HostPort → HostPort) : (s.modHost f).tick = s.tick := rfl
@[simp] theorem State.modHost_straps (s : State) (f : HostPort → HostPort) : (s.modHost f).straps = s.straps := rfl
@[simp] theorem State.modHost_clk (s : State) (f : HostPort → HostPort) : (s.modHost f).clk = s.clk := rfl
@[simp] theorem State.modHost_m (s : State) (f : HostPort → HostPort) : (s.modHost f).m = s.m := rfl
@[simp] theorem State.modHost_boot (s : State) (f : HostPort → HostPort) : (s.modHost f).boot = s.boot := rfl
@[simp] theorem State.modHost_triad (s : State) (f : HostPort → HostPort) : (s.modHost f).triad = s.triad := rfl
@[simp] theorem State.modHost_recov (s : State) (f : HostPort → HostPort) : (s.modHost f).recov = s.recov := rfl
@[simp] theorem State.modHost_bw (s : State) (f : HostPort → HostPort) : (s.modHost f).bw = s.bw := rfl
@[simp] theorem State.modHost_fd (s : State) (f : HostPort → HostPort) : (s.modHost f).fd = s.fd := rfl
@[simp] theorem State.modHost_ch (s : State) (f : HostPort → HostPort) : (s.modHost f).ch = s.ch := rfl
@[simp] theorem State.modHost_ev (s : State) (f : HostPort → HostPort) : (s.modHost f).ev = s.ev := rfl
@[simp] theorem State.modHost_mbx (s : State) (f : HostPort → HostPort) : (s.modHost f).mbx = s.mbx := rfl
@[simp] theorem State.modHost_img (s : State) (f : HostPort → HostPort) : (s.modHost f).img = s.img := rfl
@[simp] theorem State.modHost_held (s : State) (f : HostPort → HostPort) : (s.modHost f).held = s.held := rfl
@[simp] theorem State.modHost_port (s : State) (f : HostPort → HostPort) : (s.modHost f).port = s.port := rfl
@[simp] theorem State.modHost_flash (s : State) (f : HostPort → HostPort) : (s.modHost f).flash = s.flash := rfl
@[simp] theorem State.modHost_mirror (s : State) (f : HostPort → HostPort) : (s.modHost f).mirror = s.mirror := rfl
@[simp] theorem State.modHost_otp (s : State) (f : HostPort → HostPort) : (s.modHost f).otp = s.otp := rfl
@[simp] theorem State.modHost_conv (s : State) (f : HostPort → HostPort) : (s.modHost f).conv = s.conv := rfl
@[simp] theorem State.modHost_loop (s : State) (f : HostPort → HostPort) : (s.modHost f).loop = s.loop := rfl
@[simp] theorem State.modHost_trim (s : State) (f : HostPort → HostPort) : (s.modHost f).trim = s.trim := rfl
@[simp] theorem State.modHost_hart (s : State) (f : HostPort → HostPort) : (s.modHost f).hart = s.hart := rfl
@[simp] theorem State.modHost_gov (s : State) (f : HostPort → HostPort) : (s.modHost f).gov = s.gov := rfl
@[simp] theorem State.modHost_wheel (s : State) (f : HostPort → HostPort) : (s.modHost f).wheel = s.wheel := rfl
@[simp] theorem State.modHost_time (s : State) (f : HostPort → HostPort) : (s.modHost f).time = s.time := rfl
@[simp] theorem State.modHost_rul (s : State) (f : HostPort → HostPort) : (s.modHost f).rul = s.rul := rfl
@[simp] theorem State.modHost_host (s : State) (f : HostPort → HostPort) : (s.modHost f).host = f s.host := rfl
@[simp] theorem State.modHost_mem (s : State) (f : HostPort → HostPort) : (s.modHost f).mem = s.mem := rfl
@[simp] theorem State.modHost_chk (s : State) (f : HostPort → HostPort) : (s.modHost f).chk = s.chk := rfl
@[simp] theorem State.modHost_pins (s : State) (f : HostPort → HostPort) : (s.modHost f).pins = s.pins := rfl
@[simp] theorem State.modHost_enrol (s : State) (f : HostPort → HostPort) : (s.modHost f).enrol = s.enrol := rfl

@[simp] theorem State.modWheel_pending (s : State) (w : WheelIx) (f : Wheel → Wheel) : (s.modWheel w f).pending = s.pending := rfl
@[simp] theorem State.modWheel_free (s : State) (w : WheelIx) (f : Wheel → Wheel) : (s.modWheel w f).free = s.free := rfl
@[simp] theorem State.modWheel_tick (s : State) (w : WheelIx) (f : Wheel → Wheel) : (s.modWheel w f).tick = s.tick := rfl
@[simp] theorem State.modWheel_straps (s : State) (w : WheelIx) (f : Wheel → Wheel) : (s.modWheel w f).straps = s.straps := rfl
@[simp] theorem State.modWheel_clk (s : State) (w : WheelIx) (f : Wheel → Wheel) : (s.modWheel w f).clk = s.clk := rfl
@[simp] theorem State.modWheel_m (s : State) (w : WheelIx) (f : Wheel → Wheel) : (s.modWheel w f).m = s.m := rfl
@[simp] theorem State.modWheel_boot (s : State) (w : WheelIx) (f : Wheel → Wheel) : (s.modWheel w f).boot = s.boot := rfl
@[simp] theorem State.modWheel_triad (s : State) (w : WheelIx) (f : Wheel → Wheel) : (s.modWheel w f).triad = s.triad := rfl
@[simp] theorem State.modWheel_recov (s : State) (w : WheelIx) (f : Wheel → Wheel) : (s.modWheel w f).recov = s.recov := rfl
@[simp] theorem State.modWheel_bw (s : State) (w : WheelIx) (f : Wheel → Wheel) : (s.modWheel w f).bw = s.bw := rfl
@[simp] theorem State.modWheel_fd (s : State) (w : WheelIx) (f : Wheel → Wheel) : (s.modWheel w f).fd = s.fd := rfl
@[simp] theorem State.modWheel_ch (s : State) (w : WheelIx) (f : Wheel → Wheel) : (s.modWheel w f).ch = s.ch := rfl
@[simp] theorem State.modWheel_ev (s : State) (w : WheelIx) (f : Wheel → Wheel) : (s.modWheel w f).ev = s.ev := rfl
@[simp] theorem State.modWheel_mbx (s : State) (w : WheelIx) (f : Wheel → Wheel) : (s.modWheel w f).mbx = s.mbx := rfl
@[simp] theorem State.modWheel_img (s : State) (w : WheelIx) (f : Wheel → Wheel) : (s.modWheel w f).img = s.img := rfl
@[simp] theorem State.modWheel_held (s : State) (w : WheelIx) (f : Wheel → Wheel) : (s.modWheel w f).held = s.held := rfl
@[simp] theorem State.modWheel_port (s : State) (w : WheelIx) (f : Wheel → Wheel) : (s.modWheel w f).port = s.port := rfl
@[simp] theorem State.modWheel_flash (s : State) (w : WheelIx) (f : Wheel → Wheel) : (s.modWheel w f).flash = s.flash := rfl
@[simp] theorem State.modWheel_mirror (s : State) (w : WheelIx) (f : Wheel → Wheel) : (s.modWheel w f).mirror = s.mirror := rfl
@[simp] theorem State.modWheel_otp (s : State) (w : WheelIx) (f : Wheel → Wheel) : (s.modWheel w f).otp = s.otp := rfl
@[simp] theorem State.modWheel_conv (s : State) (w : WheelIx) (f : Wheel → Wheel) : (s.modWheel w f).conv = s.conv := rfl
@[simp] theorem State.modWheel_loop (s : State) (w : WheelIx) (f : Wheel → Wheel) : (s.modWheel w f).loop = s.loop := rfl
@[simp] theorem State.modWheel_trim (s : State) (w : WheelIx) (f : Wheel → Wheel) : (s.modWheel w f).trim = s.trim := rfl
@[simp] theorem State.modWheel_hart (s : State) (w : WheelIx) (f : Wheel → Wheel) : (s.modWheel w f).hart = s.hart := rfl
@[simp] theorem State.modWheel_gov (s : State) (w : WheelIx) (f : Wheel → Wheel) : (s.modWheel w f).gov = s.gov := rfl
@[simp] theorem State.modWheel_wheel (s : State) (w : WheelIx) (f : Wheel → Wheel) : (s.modWheel w f).wheel = modAt s.wheel w f := rfl
@[simp] theorem State.modWheel_time (s : State) (w : WheelIx) (f : Wheel → Wheel) : (s.modWheel w f).time = s.time := rfl
@[simp] theorem State.modWheel_rul (s : State) (w : WheelIx) (f : Wheel → Wheel) : (s.modWheel w f).rul = s.rul := rfl
@[simp] theorem State.modWheel_host (s : State) (w : WheelIx) (f : Wheel → Wheel) : (s.modWheel w f).host = s.host := rfl
@[simp] theorem State.modWheel_mem (s : State) (w : WheelIx) (f : Wheel → Wheel) : (s.modWheel w f).mem = s.mem := rfl
@[simp] theorem State.modWheel_chk (s : State) (w : WheelIx) (f : Wheel → Wheel) : (s.modWheel w f).chk = s.chk := rfl
@[simp] theorem State.modWheel_pins (s : State) (w : WheelIx) (f : Wheel → Wheel) : (s.modWheel w f).pins = s.pins := rfl
@[simp] theorem State.modWheel_enrol (s : State) (w : WheelIx) (f : Wheel → Wheel) : (s.modWheel w f).enrol = s.enrol := rfl

@[simp] theorem modEntry_pending (s : State) (j : Fin 256) (f : EntryState → EntryState) : (modEntry s j f).pending = s.pending := rfl
@[simp] theorem modEntry_free (s : State) (j : Fin 256) (f : EntryState → EntryState) : (modEntry s j f).free = s.free := rfl
@[simp] theorem modEntry_tick (s : State) (j : Fin 256) (f : EntryState → EntryState) : (modEntry s j f).tick = s.tick := rfl
@[simp] theorem modEntry_straps (s : State) (j : Fin 256) (f : EntryState → EntryState) : (modEntry s j f).straps = s.straps := rfl
@[simp] theorem modEntry_clk (s : State) (j : Fin 256) (f : EntryState → EntryState) : (modEntry s j f).clk = s.clk := rfl
@[simp] theorem modEntry_m (s : State) (j : Fin 256) (f : EntryState → EntryState) : (modEntry s j f).m = s.m := rfl
@[simp] theorem modEntry_boot (s : State) (j : Fin 256) (f : EntryState → EntryState) : (modEntry s j f).boot = s.boot := rfl
@[simp] theorem modEntry_triad (s : State) (j : Fin 256) (f : EntryState → EntryState) : (modEntry s j f).triad = s.triad := rfl
@[simp] theorem modEntry_recov (s : State) (j : Fin 256) (f : EntryState → EntryState) : (modEntry s j f).recov = s.recov := rfl
@[simp] theorem modEntry_bw (s : State) (j : Fin 256) (f : EntryState → EntryState) : (modEntry s j f).bw = s.bw := rfl
@[simp] theorem modEntry_fd (s : State) (j : Fin 256) (f : EntryState → EntryState) : (modEntry s j f).fd = s.fd := rfl
@[simp] theorem modEntry_ch (s : State) (j : Fin 256) (f : EntryState → EntryState) : (modEntry s j f).ch = s.ch := rfl
@[simp] theorem modEntry_ev (s : State) (j : Fin 256) (f : EntryState → EntryState) : (modEntry s j f).ev = s.ev := rfl
@[simp] theorem modEntry_mbx (s : State) (j : Fin 256) (f : EntryState → EntryState) : (modEntry s j f).mbx = s.mbx := rfl
@[simp] theorem modEntry_img (s : State) (j : Fin 256) (f : EntryState → EntryState) :
    (modEntry s j f).img = { s.img with entry := modAt s.img.entry j f } := rfl
@[simp] theorem modEntry_held (s : State) (j : Fin 256) (f : EntryState → EntryState) : (modEntry s j f).held = s.held := rfl
@[simp] theorem modEntry_port (s : State) (j : Fin 256) (f : EntryState → EntryState) : (modEntry s j f).port = s.port := rfl
@[simp] theorem modEntry_flash (s : State) (j : Fin 256) (f : EntryState → EntryState) : (modEntry s j f).flash = s.flash := rfl
@[simp] theorem modEntry_mirror (s : State) (j : Fin 256) (f : EntryState → EntryState) : (modEntry s j f).mirror = s.mirror := rfl
@[simp] theorem modEntry_otp (s : State) (j : Fin 256) (f : EntryState → EntryState) : (modEntry s j f).otp = s.otp := rfl
@[simp] theorem modEntry_conv (s : State) (j : Fin 256) (f : EntryState → EntryState) : (modEntry s j f).conv = s.conv := rfl
@[simp] theorem modEntry_loop (s : State) (j : Fin 256) (f : EntryState → EntryState) : (modEntry s j f).loop = s.loop := rfl
@[simp] theorem modEntry_trim (s : State) (j : Fin 256) (f : EntryState → EntryState) : (modEntry s j f).trim = s.trim := rfl
@[simp] theorem modEntry_hart (s : State) (j : Fin 256) (f : EntryState → EntryState) : (modEntry s j f).hart = s.hart := rfl
@[simp] theorem modEntry_gov (s : State) (j : Fin 256) (f : EntryState → EntryState) : (modEntry s j f).gov = s.gov := rfl
@[simp] theorem modEntry_wheel (s : State) (j : Fin 256) (f : EntryState → EntryState) : (modEntry s j f).wheel = s.wheel := rfl
@[simp] theorem modEntry_time (s : State) (j : Fin 256) (f : EntryState → EntryState) : (modEntry s j f).time = s.time := rfl
@[simp] theorem modEntry_rul (s : State) (j : Fin 256) (f : EntryState → EntryState) : (modEntry s j f).rul = s.rul := rfl
@[simp] theorem modEntry_host (s : State) (j : Fin 256) (f : EntryState → EntryState) : (modEntry s j f).host = s.host := rfl
@[simp] theorem modEntry_mem (s : State) (j : Fin 256) (f : EntryState → EntryState) : (modEntry s j f).mem = s.mem := rfl
@[simp] theorem modEntry_chk (s : State) (j : Fin 256) (f : EntryState → EntryState) : (modEntry s j f).chk = s.chk := rfl
@[simp] theorem modEntry_pins (s : State) (j : Fin 256) (f : EntryState → EntryState) : (modEntry s j f).pins = s.pins := rfl
@[simp] theorem modEntry_enrol (s : State) (j : Fin 256) (f : EntryState → EntryState) : (modEntry s j f).enrol = s.enrol := rfl

@[simp] theorem State.draw_pending (s : State) : (s.draw.2).pending = s.pending := rfl
@[simp] theorem State.draw_free (s : State) : (s.draw.2).free = s.free + 1 := rfl
@[simp] theorem State.draw_tick (s : State) : (s.draw.2).tick = s.tick := rfl
@[simp] theorem State.draw_straps (s : State) : (s.draw.2).straps = s.straps := rfl
@[simp] theorem State.draw_clk (s : State) : (s.draw.2).clk = s.clk := rfl
@[simp] theorem State.draw_m (s : State) : (s.draw.2).m = s.m := rfl
@[simp] theorem State.draw_boot (s : State) : (s.draw.2).boot = s.boot := rfl
@[simp] theorem State.draw_triad (s : State) : (s.draw.2).triad = s.triad := rfl
@[simp] theorem State.draw_recov (s : State) : (s.draw.2).recov = s.recov := rfl
@[simp] theorem State.draw_bw (s : State) : (s.draw.2).bw = s.bw := rfl
@[simp] theorem State.draw_fd (s : State) : (s.draw.2).fd = s.fd := rfl
@[simp] theorem State.draw_ch (s : State) : (s.draw.2).ch = s.ch := rfl
@[simp] theorem State.draw_ev (s : State) : (s.draw.2).ev = s.ev := rfl
@[simp] theorem State.draw_mbx (s : State) : (s.draw.2).mbx = s.mbx := rfl
@[simp] theorem State.draw_img (s : State) : (s.draw.2).img = s.img := rfl
@[simp] theorem State.draw_held (s : State) : (s.draw.2).held = s.held := rfl
@[simp] theorem State.draw_port (s : State) : (s.draw.2).port = s.port := rfl
@[simp] theorem State.draw_flash (s : State) : (s.draw.2).flash = s.flash := rfl
@[simp] theorem State.draw_mirror (s : State) : (s.draw.2).mirror = s.mirror := rfl
@[simp] theorem State.draw_otp (s : State) : (s.draw.2).otp = s.otp := rfl
@[simp] theorem State.draw_conv (s : State) : (s.draw.2).conv = s.conv := rfl
@[simp] theorem State.draw_loop (s : State) : (s.draw.2).loop = s.loop := rfl
@[simp] theorem State.draw_trim (s : State) : (s.draw.2).trim = s.trim := rfl
@[simp] theorem State.draw_hart (s : State) : (s.draw.2).hart = s.hart := rfl
@[simp] theorem State.draw_gov (s : State) : (s.draw.2).gov = s.gov := rfl
@[simp] theorem State.draw_wheel (s : State) : (s.draw.2).wheel = s.wheel := rfl
@[simp] theorem State.draw_time (s : State) : (s.draw.2).time = s.time := rfl
@[simp] theorem State.draw_rul (s : State) : (s.draw.2).rul = s.rul := rfl
@[simp] theorem State.draw_host (s : State) : (s.draw.2).host = s.host := rfl
@[simp] theorem State.draw_mem (s : State) : (s.draw.2).mem = s.mem := rfl
@[simp] theorem State.draw_chk (s : State) : (s.draw.2).chk = s.chk := rfl
@[simp] theorem State.draw_pins (s : State) : (s.draw.2).pins = s.pins := rfl
@[simp] theorem State.draw_enrol (s : State) : (s.draw.2).enrol = s.enrol := rfl

end Sys2Proof.Machine
end

