-- ==== Sys2Proof/Laws/Field.lean ====
section
/-!
SUPPORT. What the shared operations of the field die do: to the record of a channel, and to nothing but the channels tied to its output.
-/
namespace Sys2Proof.Machine

/-! ## Records after one of them changes -/

@[simp] theorem fdc_modFd_self (s : State) (n : Chan) (f : FdChan → FdChan) : (s.modFd n f).fdc n = f (s.fdc n) := modAt_self ..

theorem fdc_modFd_ne (s : State) {n m : Chan} (f : FdChan → FdChan) (h : m ≠ n) : (s.modFd n f).fdc m = s.fdc m := modAt_of_ne _ _ h

theorem fdc_modFd (s : State) (n m : Chan) (f : FdChan → FdChan) : (s.modFd n f).fdc m = if m = n then f (s.fdc n) else s.fdc m :=
  modAt_get ..

/-- A report adds to the reports and changes no record. -/
theorem report_fd (s : State) (r : Report) :
    ∃ e o, report s r = { s with fd := { s.fd with events := e, overwritten := o } } := by
  unfold report
  split
  · exact ⟨s.fd.events, s.fd.overwritten, rfl⟩
  · split
    · exact ⟨_, _, rfl⟩
    · exact ⟨_, s.fd.overwritten, rfl⟩

theorem reportStatus_fd (s : State) (r : Report) :
    ∃ e u o, reportStatus s r = { s with fd := { s.fd with events := e, status := u, overwritten := o } } := by
  unfold reportStatus
  split
  · obtain ⟨e, o, h⟩ := report_fd s r
    exact ⟨e, s.fd.status, o, h⟩
  · split
    · exact ⟨s.fd.events, _, s.fd.overwritten, rfl⟩
    · exact ⟨s.fd.events, s.fd.status, s.fd.overwritten, rfl⟩

@[simp] theorem report_fdc (s : State) (r : Report) (m : Chan) : (report s r).fdc m = s.fdc m := by
  obtain ⟨e, o, h⟩ := report_fd s r
  rw [h]
  rfl

@[simp] theorem reportStatus_fdc (s : State) (r : Report) (m : Chan) : (reportStatus s r).fdc m = s.fdc m := by
  obtain ⟨e, u, o, h⟩ := reportStatus_fd s r
  rw [h]
  rfl

/-! ## The channels tied to one output -/

/-- The relation of a channel's output keeps: like FieldFrame, with the configuration of every channel. -/
structure FieldStep (n : Chan) (s t : State) : Prop where
  same : SameOutside [.free, .fd] s t
  rest : t.fd = { s.fd with ch := t.fd.ch, events := t.fd.events, status := t.fd.status, overwritten := t.fd.overwritten }
  chans : ∀ m : Chan, m ≠ n → m ∉ s.halves n → t.fdc m = s.fdc m
  cfg : ∀ m : Chan, (t.fdc m).cfg = (s.fdc m).cfg

theorem fdKind_cfg {s t : State} (h : ∀ m : Chan, (t.fdc m).cfg = (s.fdc m).cfg) (n : Chan) : fdKind (t.fdc n) = fdKind (s.fdc n) := by
  unfold fdKind
  rw [h]

theorem fdMaster_cfg {s t : State} (h : ∀ m : Chan, (t.fdc m).cfg = (s.fdc m).cfg) (n : Chan) : t.fdMaster n = s.fdMaster n := by
  simp only [State.fdMaster, fdKind_cfg h]

theorem unit_cfg {s t : State} (h : ∀ m : Chan, (t.fdc m).cfg = (s.fdc m).cfg) (n : Chan) : t.unit n = s.unit n := by
  simp only [State.unit, fdKind_cfg h]

theorem halves_cfg {s t : State} (h : ∀ m : Chan, (t.fdc m).cfg = (s.fdc m).cfg) (n : Chan) : t.halves n = s.halves n := by
  simp only [State.halves, unit_cfg h, fdMaster_cfg h]

namespace FieldStep

theorem refl (n : Chan) (s : State) : FieldStep n s s := ⟨SameOutside.refl s, rfl, fun _ _ _ => rfl, fun _ => rfl⟩

theorem trans {n : Chan} {s t u : State} (h : FieldStep n s t) (k : FieldStep n t u) : FieldStep n s u where
  same := SameOutside.step k.same rfl h.same
  rest := by rw [k.rest, h.rest]
  chans m hm hh := (k.chans m hm (by rwa [halves_cfg h.cfg])).trans (h.chans m hm hh)
  cfg m := (k.cfg m).trans (h.cfg m)

theorem frame {n : Chan} {s t : State} (h : FieldStep n s t) : FieldFrame n s t := ⟨h.same, h.rest, h.chans⟩

/-- A change of the channel's own record. -/
theorem modFd (s : State) (n : Chan) (f : FdChan → FdChan) (hf : ∀ c, (f c).cfg = c.cfg) : FieldStep n s (s.modFd n f) where
  same := (State.modFd_moves s n f).same.widen rfl
  rest := rfl
  chans _ hm _ := fdc_modFd_ne s f hm
  cfg _ := by
    rw [fdc_modFd]
    split
    · next h => rw [hf, h]
    · rfl

/-- A change of a record tied to the channel's output. -/
theorem modFd_half (s : State) (n k : Chan) (f : FdChan → FdChan) (hk : k = n ∨ k ∈ s.halves n) (hf : ∀ c, (f c).cfg = c.cfg) :
    FieldStep n s (s.modFd k f) where
  same := (State.modFd_moves s k f).same.widen rfl
  rest := rfl
  chans _ hm hh := fdc_modFd_ne s f fun e => hk.elim (fun h => hm (e.trans h)) fun h => hh (e ▸ h)
  cfg := (modFd s k f hf).cfg

theorem report (s : State) (n : Chan) (r : Report) : FieldStep n s (report s r) where
  same := (report_moves s r).same.widen rfl
  rest := by
    obtain ⟨e, o, h⟩ := report_fd s r
    rw [h]
  chans m _ _ := report_fdc s r m
  cfg _ := by rw [report_fdc]

theorem reportStatus (s : State) (n : Chan) (r : Report) : FieldStep n s (reportStatus s r) where
  same := (reportStatus_moves s r).same.widen rfl
  rest := by
    obtain ⟨e, u, o, h⟩ := reportStatus_fd s r
    rw [h]
  chans m _ _ := reportStatus_fdc s r m
  cfg _ := by rw [reportStatus_fdc]

end FieldStep

theorem foldl_modFd_step {n : Chan} {s : State} {f : FdChan → FdChan} (hf : ∀ c, (f c).cfg = c.cfg) (l : List Chan)
    (hl : ∀ k ∈ l, k = n ∨ k ∈ s.halves n) : FieldStep n s (l.foldl (fun a k => a.modFd k f) s) := by
  induction l generalizing s with
  | nil => exact FieldStep.refl n s
  | cons k l ih =>
    have h1 := FieldStep.modFd_half s n k f (hl k (List.mem_cons_self ..)) hf
    refine h1.trans (ih fun j hj => ?_)
    rw [halves_cfg h1.cfg]
    exact hl j (List.mem_cons_of_mem _ hj)

theorem modHalves_step (s : State) (n : Chan) (f : FdChan → FdChan) (hf : ∀ c, (f c).cfg = c.cfg) : FieldStep n s (modHalves s n f) :=
  foldl_modFd_step hf _ fun _ h => Or.inr h

/-- Every record of `l` changed once. -/
theorem foldl_modFd_get (f : FdChan → FdChan) (s : State) (l : List Chan) (hl : l.Nodup) (m : Chan) :
    (l.foldl (fun a k => a.modFd k f) s).fdc m = if m ∈ l then f (s.fdc m) else s.fdc m := by
  induction l generalizing s with
  | nil => simp
  | cons k l ih =>
    have hk : k ∉ l := (List.nodup_cons.mp hl).1
    rw [List.foldl_cons, ih _ (List.nodup_cons.mp hl).2, fdc_modFd]
    by_cases h : m = k
    · subst h
      simp [hk]
    · simp [h]

theorem slaveOf_ne {n : Chan} (h : n.val % 2 = 0) : slaveOf n ≠ n := by
  revert n
  decide

theorem halves_nodup (s : State) (n : Chan) : (s.halves n).Nodup := by
  unfold State.halves
  split
  · next h =>
    have he : (s.unit n).val % 2 = 0 := of_decide_eq_true (Bool.and_eq_true_iff.mp (Bool.and_eq_true_iff.mp h).1).1
    simp [(slaveOf_ne he).symm]
  · simp

theorem modHalves_get (s : State) (n : Chan) (f : FdChan → FdChan) (m : Chan) :
    (modHalves s n f).fdc m = if m ∈ s.halves n then f (s.fdc m) else s.fdc m := foldl_modFd_get f s _ (halves_nodup s n) m

theorem unit_mem_halves (s : State) (n : Chan) : s.unit n ∈ s.halves n := by
  unfold State.halves
  split <;> simp

@[simp] theorem modHalves_unit (s : State) (n : Chan) (f : FdChan → FdChan) : (modHalves s n f).fdc (s.unit n) = f (s.fdc (s.unit n)) := by
  rw [modHalves_get, if_pos (unit_mem_halves s n)]

/-! ## The output -/

/-- What driving the output changes in a record. -/
def DriveRec (c d : FdChan) : Prop :=
  d = { c with on := d.on, flood := d.flood, floodLimited := d.floodLimited, onHeld := d.onHeld, win := d.win, dither := d.dither,
               phSink := d.phSink, phDriven := d.phDriven, phDet := d.phDet, lastPulse := d.lastPulse, offTick := d.offTick }

theorem DriveRec.refl (c : FdChan) : DriveRec c c := rfl

/-- A part of the record that driving the output leaves alone. -/
theorem DriveRec.get {c d : FdChan} (h : DriveRec c d) {α : Type} (g : FdChan → α)
    (hg : ∀ b1 b2 b3 b4 b5 b6 b7 b8 b9 b10 b11,
      g { c with on := b1, flood := b2, floodLimited := b3, onHeld := b4, win := b5, dither := b6, phSink := b7, phDriven := b8,
                 phDet := b9, lastPulse := b10, offTick := b11 } = g c := by intros; rfl) : g d = g c :=
  (congrArg g h).trans (hg ..)

theorem DriveRec.trans {c d e : FdChan} (h : DriveRec c d) (k : DriveRec d e) : DriveRec c e := by
  unfold DriveRec at *
  rw [k, h]

theorem turnOn_step (s : State) (n : Chan) : FieldStep n s (turnOn s n) := by
  unfold turnOn
  dsimp only
  refine (FieldStep.trans ?_ (FieldStep.report _ n _)).trans (FieldStep.report _ n _)
  have h := modHalves_step s n (fun c => { c with on := true, flood := true, floodLimited := false, onHeld := false, win := .notArmed, dither := false, phSink := false, phDriven := false, phDet := false }) fun _ => rfl
  split
  · exact h.trans (FieldStep.report _ n _)
  · exact h

@[simp] theorem floodCut_fdc (s : State) (c : FdChan) (m : Chan) : (floodCut s c).2.fdc m = s.fdc m := by
  unfold floodCut
  split <;> rfl

theorem floodCut_step (s : State) (n : Chan) (c : FdChan) : FieldStep n s (floodCut s c).2 where
  same := (floodCut_moves s c).same.widen rfl
  rest := by
    unfold floodCut
    split <;> rfl
  chans m _ _ := floodCut_fdc s c m
  cfg m := by rw [floodCut_fdc]

/-- What a turn-off reports before the output changes. -/
theorem turnOff_report_step (s : State) (n : Chan) (c : FdChan) (r : Report) :
    FieldStep n s (if inLowHalf s c then report (floodCut s c).2 r else (floodCut s c).2) := by
  split
  · exact (floodCut_step s n c).trans (FieldStep.report _ n r)
  · exact floodCut_step s n c

theorem turnOff_step (s : State) (n : Chan) : FieldStep n s (turnOff s n) := by
  unfold turnOff
  dsimp only
  refine (FieldStep.trans ?_ (FieldStep.report _ n _)).trans (FieldStep.report _ n _)
  exact (turnOff_report_step s n _ _).trans (modHalves_step _ n _ (by intro _; rfl))

theorem modHalves_rec (s : State) (n m : Chan) (f : FdChan → FdChan) (hf : ∀ c, DriveRec c (f c)) :
    DriveRec (s.fdc m) ((modHalves s n f).fdc m) := by
  rw [modHalves_get]
  split
  · exact hf _
  · exact DriveRec.refl _

theorem turnOn_rec (s : State) (n m : Chan) : DriveRec (s.fdc m) ((turnOn s n).fdc m) := by
  unfold turnOn
  dsimp only
  rw [report_fdc, report_fdc]
  split
  · rw [report_fdc]
    exact modHalves_rec s n m _ (by intro _; rfl)
  · exact modHalves_rec s n m _ (by intro _; rfl)

/-- No record changes by what a turn-off reports first. -/
theorem turnOff_report_fdc (s : State) (c : FdChan) (r : Report) (m : Chan) :
    (if inLowHalf s c then report (floodCut s c).2 r else (floodCut s c).2).fdc m = s.fdc m := by
  split <;> simp

theorem turnOff_rec (s : State) (n m : Chan) : DriveRec (s.fdc m) ((turnOff s n).fdc m) := by
  unfold turnOff
  simp only [report_fdc]
  have h := modHalves_rec (if inLowHalf s (s.fdc (s.unit n)) then report (floodCut s (s.fdc (s.unit n))).2 (.ditherCut (s.unit n))
    else (floodCut s (s.fdc (s.unit n))).2) n m (fun c =>
      { c with on := false, flood := false, onHeld := false, win := .notArmed, dither := false, lastPulse := .none, offTick := some s.fd.tick })
    (by intro _; rfl)
  rwa [turnOff_report_fdc] at h

@[simp] theorem turnOff_on (s : State) (n : Chan) : ((turnOff s n).fdc (s.unit n)).on = false := by
  unfold turnOff
  simp only [report_fdc]
  have hu := unit_cfg (fun m => congrArg FdChan.cfg (turnOff_report_fdc s (s.fdc (s.unit n)) (.ditherCut (s.unit n)) m)) n
  generalize (if inLowHalf s (s.fdc (s.unit n)) then report (floodCut s (s.fdc (s.unit n))).2 (.ditherCut (s.unit n))
    else (floodCut s (s.fdc (s.unit n))).2) = a at hu ⊢
  rw [← hu, modHalves_unit]

@[simp] theorem turnOn_on (s : State) (n : Chan) : ((turnOn s n).fdc (s.unit n)).on = true := by
  unfold turnOn
  dsimp only
  rw [report_fdc, report_fdc]
  split <;> simp

/-- The unit of a unit of kind DO is itself. -/
theorem unit_unit {s : State} {n : Chan} (h : fdKind (s.fdc (s.unit n)) = kindDO) : s.unit (s.unit n) = s.unit n := by
  generalize s.unit n = u at h
  unfold State.unit
  rw [if_neg (by rw [h]; decide)]

theorem FieldStep.of_unit {s t : State} {n : Chan} (hu : s.unit (s.unit n) = s.unit n) (h : FieldStep (s.unit n) s t) : FieldStep n s t where
  same := h.same
  rest := h.rest
  chans m _ hh := h.chans m (fun e => hh (e ▸ unit_mem_halves s n)) (by unfold State.halves at hh ⊢; rwa [hu])
  cfg := h.cfg

theorem drive_step (s : State) (n : Chan) : FieldStep n s (drive s n) := by
  unfold drive
  dsimp only
  split
  · next h =>
    refine FieldStep.of_unit (unit_unit h) ?_
    split
    · split
      · exact FieldStep.refl _ s
      · split
        · exact modHalves_step s _ _ (by intro _; rfl)
        · split
          · split
            · exact FieldStep.reportStatus _ _ _
            · exact FieldStep.refl _ s
          · exact turnOn_step s _
    · split
      · exact turnOff_step s _
      · exact modHalves_step s _ _ (by intro _; rfl)
  · split
    · exact FieldStep.refl n s
    · split
      · exact FieldStep.refl n s
      · split
        · exact FieldStep.reportStatus s n _
        · refine FieldStep.trans ?_ (FieldStep.reportStatus _ n _)
          exact FieldStep.modFd_half s n _ _ (Or.inr (unit_mem_halves s n)) (by intro _; rfl)

theorem modFd_rec (s : State) (n m : Chan) (f : FdChan → FdChan) (hf : DriveRec (s.fdc n) (f (s.fdc n))) :
    DriveRec (s.fdc m) ((s.modFd n f).fdc m) := by
  rw [fdc_modFd]
  split
  · next h => exact h ▸ hf
  · exact DriveRec.refl _

theorem drive_rec (s : State) (n m : Chan) : DriveRec (s.fdc m) ((drive s n).fdc m) := by
  unfold drive
  dsimp only
  split
  · split
    · split
      · exact DriveRec.refl _
      · split
        · exact modHalves_rec s _ m _ (by intro _; rfl)
        · split
          · split
            · rw [reportStatus_fdc]
              exact DriveRec.refl _
            · exact DriveRec.refl _
          · exact turnOn_rec s _ m
    · split
      · exact turnOff_rec s _ m
      · exact modHalves_rec s _ m _ (by intro _; rfl)
  · split
    · exact DriveRec.refl _
    · split
      · exact DriveRec.refl _
      · split
        · unfold refuseRise
          rw [reportStatus_fdc]
          exact DriveRec.refl _
        · rw [reportStatus_fdc]
          exact modFd_rec s _ m _ rfl

/-- Output of a channel of a loop kind after it is driven: a rise that ebb refuses leaves it as it was. -/
theorem drive_loop_on {s : State} {n : Chan} (h1 : fdKind (s.fdc n) ≠ kindDO) (h2 : fdKind (s.fdc n) ≠ kindOff)
    (h3 : fdKind (s.fdc n) ≠ kindPair) (h4 : riseRefused s n (s.fdc n).aoCode = false) :
    ((drive s n).fdc n).on = (loopOut (s.fdc n) && !(isAO (fdKind (s.fdc n)) && s.fd.gasping)) := by
  have hu : s.unit n = n := if_neg h3
  unfold drive
  dsimp only
  rw [hu, if_neg h1, if_neg (by simp [h2, h3]), h4, Bool.and_false, if_neg Bool.false_ne_true]
  split
  · assumption
  · simp

theorem levelChar_step (s : State) (n : Chan) : FieldStep n s (levelChar s n) := by
  unfold levelChar
  split
  · exact FieldStep.modFd s n _ fun _ => rfl
  · exact FieldStep.refl n s

theorem demand_step (s : State) (n : Chan) (f : FdChan → FdChan) (hf : ∀ c, (f c).cfg = c.cfg) : FieldStep n s (demand s n f) := by
  unfold demand
  dsimp only
  refine FieldStep.trans ?_ (drive_step _ n)
  have h := (FieldStep.modFd s n f hf).trans (levelChar_step _ n)
  split
  · exact h
  · exact h.trans (FieldStep.report _ n _)

/-! ## Conditions and trips -/

theorem condBit_step (s : State) (n : Chan) (old b : Bool) (f : FdChan → FdChan) (r : Report) (hf : ∀ c, (f c).cfg = c.cfg) :
    FieldStep n s (condBit s n old b f r) := by
  unfold condBit
  split
  · exact FieldStep.refl n s
  · exact (FieldStep.modFd s n f hf).trans (FieldStep.report _ n r)

/-- Where the condition already holds, storing it changes nothing; so the channel's record is `f` of what it was in either case. -/
theorem condBit_get (s : State) (n : Chan) (old b : Bool) (f : FdChan → FdChan) (r : Report) (h : old = b → f (s.fdc n) = s.fdc n) :
    (condBit s n old b f r).fdc n = f (s.fdc n) := by
  unfold condBit
  split
  · exact (h ‹_›).symm
  · simp

@[simp] theorem fdc_events (s : State) (l : List Report) (m : Chan) :
    State.fdc { s with fd := { s.fd with events := l } } m = s.fdc m := rfl

/-- Reports taken back, or added, change no record. -/
theorem FieldStep.events (s : State) (n : Chan) (l : List Report) : FieldStep n s { s with fd := { s.fd with events := l } } where
  same := ⟨fun p hp => by cases p <;> first | rfl | exact absurd (by decide) hp⟩
  rest := rfl
  chans _ _ _ := rfl
  cfg _ := rfl

theorem fdTrip_step (s : State) (n : Chan) (bit : Fin 3) (inLimit : Bool) (ma : W16) (tj : Byte) :
    FieldStep n s (fdTrip s n bit inLimit ma tj) := by
  unfold fdTrip
  refine FieldStep.trans (FieldStep.trans ?_ (FieldStep.events _ n _)) (FieldStep.report _ n _)
  have h := modHalves_step s n (fun c => { c with oc := setAt c.oc bit true, inLimit := inLimit }) fun _ => rfl
  split
  · exact h.trans (turnOff_step _ n)
  · exact h

theorem fdTrip_unit (s : State) (n : Chan) (bit : Fin 3) (inLimit : Bool) (ma : W16) (tj : Byte) :
    ((fdTrip s n bit inLimit ma tj).fdc (s.unit n)).oc[bit] = true ∧
    ((fdTrip s n bit inLimit ma tj).fdc (s.unit n)).on = false := by
  have h := modHalves_step s n (fun c => { c with oc := setAt c.oc bit true, inLimit := inLimit }) fun _ => rfl
  have hu := unit_cfg h.cfg n
  have g := modHalves_unit s n (fun c => { c with oc := setAt c.oc bit true, inLimit := inLimit })
  unfold fdTrip
  dsimp only
  rw [report_fdc, fdc_events]
  revert h hu g
  generalize (modHalves s n fun c => { c with oc := setAt c.oc bit true, inLimit := inLimit }) = a
  intro h hu g
  have ho : (a.fdc (s.unit n)).oc[bit] = true := by
    rw [g]
    exact setAt_self ..
  split
  · have he : ((turnOff a n).fdc (s.unit n)).oc = (a.fdc (s.unit n)).oc := (turnOff_rec a n _).get FdChan.oc
    refine ⟨?_, by rw [← hu]; exact turnOff_on a n⟩
    exact (congrArg (fun v : Vector Bool 3 => v[bit]) he).trans ho
  · next hn =>
    exact ⟨ho, by simpa using hn⟩

end Sys2Proof.Machine
end

