-- ==== Sys2Proof/Laws/MovesLogic.lean ====
section
/-!
SUPPORT. The image, rules, triad, conversion, calibration and resets: what each operation can change, and that it keeps a sound state sound.
-/
namespace Sys2Proof.Machine

/-! ## CheckUnit -/

theorem checkData_moves (s : State) (bs : List Byte) : Moves [.chk] s (checkData s bs) := by
  unfold checkData
  refine Moves.upd rfl (fun p => by cases p; (case chk => exact Or.inl ⟨rfl, fun _ _ => trivial⟩); all_goals exact Or.inr rfl) ?_
  exact Moves.refl _

theorem runCheck_moves (s : State) (i : SlotIx) (tag : W16) : Moves [.mbx, .chk] s (runCheck s i tag) := by
  unfold runCheck
  refine Moves.step (mbxRun_moves (ps := [.mbx, .chk]) (hc := rfl) (hf6 := fun y1_0 => ?_) ..) (covers_refl _) ?_
  · extract_lets +onlyGivenNames x2
    clear_value x2
    extract_lets +onlyGivenNames x3
    clear_value x3
    extract_lets +onlyGivenNames x4
    clear_value x4
    refine Moves.ite (fun _ => ?_) (fun _ => ?_)
    · refine Moves.step (mbxEnd_moves ..) rfl ?_
      exact Moves.refl _
    · refine Moves.ite (fun _ => ?_) (fun _ => ?_)
      · refine Moves.step (mbxEnd_moves ..) rfl ?_
        exact Moves.refl _
      · refine Moves.ite (fun _ => ?_) (fun _ => ?_)
        · refine Moves.step (mbxEnd_moves ..) rfl ?_
          exact Moves.refl _
        · refine Moves.ite (fun _ => ?_) (fun _ => ?_)
          · refine Moves.step (mbxEnd_moves ..) rfl ?_
            exact Moves.refl _
          · refine Moves.upd rfl (fun p => by cases p; (case chk => exact Or.inl ⟨rfl, fun _ _ => trivial⟩); all_goals exact Or.inr rfl) ?_
            exact Moves.refl _
  · exact Moves.refl _

/-! ## ImgOps -/

theorem clearBars_moves (s : State) (a : BitVec 20) (v : W16) : Moves [.rul] s (clearBars s a v) := by
  unfold clearBars
  refine Moves.ite (fun _ => ?_) (fun _ => ?_)
  · refine Moves.upd rfl (fun p => by cases p; (case rul => exact Or.inl ⟨rfl, fun _ _ => trivial⟩); all_goals exact Or.inr rfl) ?_
    exact Moves.refl _
  · exact Moves.refl _

theorem actCommand_moves (s : State) (a : BitVec 20) (v : W16)
    : Moves [.free, .bw, .ch, .ev, .img, .port, .conv, .loop, .gov, .rul] s (actCommand s a v) := by
  unfold actCommand
  extract_lets +onlyGivenNames x1
  extract_lets +onlyGivenNames x2
  extract_lets +onlyGivenNames x3
  clear_value x3
  refine Moves.ite (fun _ => ?_) (fun _ => ?_)
  · refine Moves.step (writeDO_moves ..) rfl ?_
    exact Moves.refl _
  · refine Moves.ite (fun _ => ?_) (fun _ => ?_)
    · refine Moves.step (writeAO_moves ..) rfl ?_
      exact Moves.refl _
    · refine Moves.ite (fun _ => ?_) (fun _ => ?_)
      · refine Moves.step (writeAlarm_moves ..) rfl ?_
        exact Moves.refl _
      · refine Moves.step (clearBars_moves ..) rfl ?_
        refine Moves.step (epAccept_moves ..) rfl ?_
        exact Moves.refl _

theorem ownerWrite_moves (s : State) (a : BitVec 20) (v : W16)
    : Moves [.free, .bw, .ch, .ev, .img, .port, .conv, .loop, .gov, .rul] s (ownerWrite s a v).1 := by
  unfold ownerWrite
  split
  · dsimp -zeta only
    exact Moves.refl _
  · split
    · dsimp -zeta only
      exact Moves.refl _
    · split
      · dsimp -zeta only
        exact Moves.refl _
      · dsimp -zeta only
        refine Moves.step (actCommand_moves ..) rfl ?_
        exact Moves.refl _

theorem originWord_moves (s : State) (src : BitVec 2) (x : BitVec 20 × W16) (toPort : List (PortIx × BitVec 20 × W16))
    : Moves [.free, .bw, .ch, .ev, .img, .port, .conv, .loop, .gov, .rul] s (originWord s src x toPort).1 := by
  unfold originWord
  split
  · dsimp -zeta only
    refine Moves.step (recordRefusal_moves ..) rfl ?_
    exact Moves.refl _
  · split
    · extract_lets +onlyGivenNames x1
      have h1 : Moves [.free, .bw, .ch, .ev, .img, .port, .conv, .loop, .gov, .rul] s x1.1 := by
        unfold x1
        refine Moves.step (ownerWrite_moves ..) rfl ?_
        exact Moves.refl _
      clear_value x1
      dsimp -zeta only
      refine Moves.ite (fun _ => ?_) (fun _ => ?_)
      · assumption
      · refine Moves.step (recordRefusal_moves ..) rfl ?_
        assumption
    · dsimp -zeta only
      refine Moves.step (recordRefusal_moves ..) rfl ?_
      exact Moves.refl _
    · split
      · dsimp -zeta only
        refine Moves.step (recordRefusal_moves ..) rfl ?_
        exact Moves.refl _
      · dsimp -zeta only
        refine Moves.upd rfl (fun p => by cases p; (case img => exact Or.inl ⟨rfl, fun _ h => h .img⟩); all_goals exact Or.inr rfl) ?_
        exact Moves.refl _
    · split
      · dsimp -zeta only
        refine Moves.step (recordRefusal_moves ..) rfl ?_
        exact Moves.refl _
      · dsimp -zeta only
        refine Moves.upd rfl (fun p => by cases p; (case img => exact Or.inl ⟨rfl, fun _ h => h .img⟩); all_goals exact Or.inr rfl) ?_
        exact Moves.refl _

theorem originWords_moves (s : State) (src : BitVec 2) (v2 : List (BitVec 20 × W16)) (v3 : List (PortIx × BitVec 20 × W16))
    : Moves [.free, .bw, .ch, .ev, .img, .port, .conv, .loop, .gov, .rul] s (originWords s src v2 v3).1 := by
  induction v2 generalizing s v3 with
  | nil => exact Moves.refl _
  | cons x l ih => exact Moves.step (ih ..) (covers_refl _) ((originWord_moves ..).widen rfl)

theorem originWrites_moves (s : State) (src : BitVec 2) (ws : List (BitVec 20 × W16))
    : Moves [.free, .bw, .ch, .ev, .img, .port, .conv, .loop, .gov, .rul] s (originWrites s src ws) := by
  unfold originWrites
  extract_lets +onlyGivenNames x1
  have h1 : Moves [.free, .bw, .ch, .ev, .img, .port, .conv, .loop, .gov, .rul] s x1.1 := by
    unfold x1
    refine Moves.step (originWords_moves ..) rfl ?_
    exact Moves.refl _
  clear_value x1
  refine Moves.foldl (fun y2 z2 => ?_) ?_
  · extract_lets +onlyGivenNames x3
    clear_value x3
    refine Moves.foldl (fun y4 z4 => ?_) ?_
    · refine Moves.step (sendRequest_moves ..) rfl ?_
      exact Moves.refl _
    · exact Moves.refl _
  · assumption

theorem answerHere_moves (s : State) (k : PortIx) (id : ℕ) (up : Bool) (es : List (ℕ × BitVec 20 × W16))
    : Moves [.free, .bw, .ch, .ev, .img, .port, .conv, .loop, .gov, .rul] s (answerHere s k id up es) := by
  unfold answerHere
  refine Moves.foldl (fun y1 z1 => ?_) ?_
  · split
    · extract_lets +onlyGivenNames x2
      have h2 : Moves [.free, .bw, .ch, .ev, .img, .port, .conv, .loop, .gov, .rul] y1 x2.1 := by
        unfold x2
        refine Moves.step (ownerWrite_moves ..) rfl ?_
        exact Moves.refl _
      clear_value x2
      refine Moves.step (mergeFill_moves ..) rfl ?_
      refine Moves.ite (fun _ => ?_) (fun _ => ?_)
      · assumption
      · refine Moves.step (recordRefusal_moves ..) rfl ?_
        assumption
    · refine Moves.step (mergeFill_moves ..) rfl ?_
      refine Moves.step (recordRefusal_moves ..) rfl ?_
      exact Moves.refl _
    · exact Moves.refl _
  · exact Moves.refl _

theorem transitWrite_moves (s : State) (k : PortIx) (tag : W16) (budget : W16) (since : W64) (es : List (BitVec 20 × W16))
    : Moves [.free, .bw, .ch, .ev, .img, .port, .conv, .loop, .gov, .rul] s (transitWrite s k tag budget since es) := by
  unfold transitWrite
  extract_lets +onlyGivenNames x1
  extract_lets +onlyGivenNames x2
  have h2 : ∀ w2_0 w2_1, Moves [.free, .bw, .ch, .ev, .img, .port, .conv, .loop, .gov, .rul] s (x2 w2_0 w2_1) := fun w2_0 w2_1 => by
    unfold x2
    refine Moves.step (sendResponse_moves ..) rfl ?_
    refine Moves.foldl (fun y3 z3 => ?_) ?_
    · refine Moves.step (recordRefusal_moves ..) rfl ?_
      exact Moves.refl _
    · exact Moves.refl _
  clear_value x2
  refine Moves.ite (fun _ => ?_) (fun _ => ?_)
  · refine Moves.step (h2 ..) (covers_refl _) ?_
    exact Moves.refl _
  · refine Moves.ite (fun _ => ?_) (fun _ => ?_)
    · refine Moves.step (h2 ..) (covers_refl _) ?_
      exact Moves.refl _
    · extract_lets +onlyGivenNames x4
      extract_lets +onlyGivenNames x5
      extract_lets +onlyGivenNames x6
      extract_lets +onlyGivenNames x7
      have h7 : Moves [.free, .bw, .ch, .ev, .img, .port, .conv, .loop, .gov, .rul] s x7 := by
        unfold x7
        refine Moves.upd rfl (fun p => by
            cases p
            case img => exact Or.inl ⟨rfl, fun _ h => ⟨(h .img).1, merge_added (h .img).2.1 rfl, (h .img).2.2⟩⟩
            all_goals exact Or.inr rfl) ?_
        exact Moves.refl _
      clear_value x7
      extract_lets +onlyGivenNames x8
      extract_lets +onlyGivenNames x9
      have h9 : Moves [.free, .bw, .ch, .ev, .img, .port, .conv, .loop, .gov, .rul] s x9 := by
        unfold x9
        refine Moves.foldl (fun y10 z10 => ?_) ?_
        · extract_lets +onlyGivenNames x11
          refine Moves.step (sendRequest_moves ..) rfl ?_
          exact Moves.refl _
        · assumption
      clear_value x9
      refine Moves.step (answerHere_moves ..) rfl ?_
      assumption

theorem takeWord_moves (s : State) (k : PortIx) (sweep : Bool) (x : BitVec 20 × W32) : Moves [.img] s (takeWord s k sweep x).1 := by
  unfold takeWord
  split
  · extract_lets +onlyGivenNames x1
    split
    · dsimp -zeta only
      refine Moves.upd rfl (fun p => by cases p; (case img => exact Or.inl ⟨rfl, fun _ h => h .img⟩); all_goals exact Or.inr rfl) ?_
      exact Moves.refl _
    · extract_lets +onlyGivenNames x2
      clear_value x2
      extract_lets +onlyGivenNames x3
      have h3 : Moves [.img] s x3 := by
        unfold x3
        refine Moves.step (entryArrival_moves ..) rfl ?_
        exact Moves.refl _
      clear_value x3
      extract_lets +onlyGivenNames x4
      have h4 : Moves [.img] s x4 := by
        unfold x4
        refine Moves.ite (fun _ => ?_) (fun _ => ?_)
        · assumption
        · refine Moves.step (epStore_moves ..) rfl ?_
          assumption
      clear_value x4
      extract_lets +onlyGivenNames x5
      extract_lets +onlyGivenNames x6
      have h6 : Moves [.img] s x6 := by
        unfold x6
        refine Moves.ite (fun _ => ?_) (fun _ => ?_)
        · refine Moves.upd rfl (fun p => by cases p; (case img => exact Or.inl ⟨rfl, fun _ h => h .img⟩); all_goals exact Or.inr rfl) ?_
          assumption
        · assumption
      clear_value x6
      dsimp -zeta only
      assumption
  · dsimp -zeta only
    refine Moves.upd rfl (fun p => by cases p; (case img => exact Or.inl ⟨rfl, fun _ h => h .img⟩); all_goals exact Or.inr rfl) ?_
    exact Moves.refl _

theorem takeWords_moves (s : State) (k : PortIx) (sweep : Bool) (v3 : List (BitVec 20 × W32)) (v4 : ℕ)
    : Moves [.img] s (takeWords s k sweep v3 v4).1 := by
  induction v3 generalizing s v4 with
  | nil => exact Moves.refl _
  | cons x l ih => exact Moves.step (ih ..) (covers_refl _) ((takeWord_moves ..).widen rfl)

theorem applyPeerWindow_moves (s : State) (k : PortIx) : Moves [.ev, .img, .port] s (applyPeerWindow s k) := by
  unfold applyPeerWindow
  extract_lets +onlyGivenNames x1
  clear_value x1
  refine Moves.foldl (fun y2 z2 => ?_) ?_
  · refine Moves.ite (fun _ => ?_) (fun _ => ?_)
    · exact Moves.refl _
    · extract_lets +onlyGivenNames x3
      clear_value x3
      extract_lets +onlyGivenNames x4
      clear_value x4
      refine Moves.ite (fun _ => ?_) (fun _ => ?_)
      · exact Moves.refl _
      · refine Moves.ite (fun _ => ?_) (fun _ => ?_)
        · refine Moves.step (raiseMember_moves ..) rfl ?_
          refine Moves.step (modEntry_moves ..) rfl ?_
          refine Moves.step (copiesNoComm_moves ..) rfl ?_
          exact Moves.refl _
        · refine Moves.step (modEntry_moves ..) rfl ?_
          exact Moves.refl _
  · exact Moves.refl _

theorem sendDisc_moves (s : State) : Moves [.port] s (sendDisc s) := by
  unfold sendDisc
  split
  · refine Moves.step (sendOn_moves ..) rfl ?_
    exact Moves.refl _
  · exact Moves.refl _

theorem entriesInit_moves (s : State) (keep : ℕ → GroupEntry → Bool) : Moves [.img] s (entriesInit s keep) := by
  unfold entriesInit
  extract_lets +onlyGivenNames x1
  clear_value x1
  refine Moves.upd rfl (fun p => by
      cases p
      case img => exact Or.inl ⟨rfl, fun _ h => by have k := h .img; unfold Part.sound at k ⊢; exact k⟩
      all_goals exact Or.inr rfl) ?_
  exact Moves.refl _

/-! ## EndpointImage -/

theorem sendUpdate_moves (s : State) (k : PortIx) (as : List (BitVec 20)) : Moves [.img, .port] s (sendUpdate s k as) := by
  unfold sendUpdate
  extract_lets +onlyGivenNames x1
  clear_value x1
  extract_lets +onlyGivenNames x2
  extract_lets +onlyGivenNames x3
  have h3 : Moves [.img, .port] s x3 := by
    unfold x3
    refine Moves.upd rfl (fun p => by
        cases p
        case img => exact Or.inl ⟨rfl, fun _ h => ⟨⟨(h .img).1.1, (h .img).1.2.1, srise_foldl (fun _ _ x => srise_sinsert (srise_serase x _) _ _) (h .img).1.2.2⟩, (h .img).2⟩⟩
        all_goals exact Or.inr rfl) ?_
    exact Moves.refl _
  clear_value x3
  refine Moves.step (fenceWordsSent_moves ..) rfl ?_
  refine Moves.step (sendRequest_moves ..) rfl ?_
  assumption

theorem completeLocal_moves (s : State) (f : PendingFence) : Moves [.boot, .recov, .ev, .img, .port] s (completeLocal s f) := by
  unfold completeLocal
  extract_lets +onlyGivenNames x1
  extract_lets +onlyGivenNames x2
  have h2 : Moves [.boot, .recov, .ev, .img, .port] s x2 := by
    unfold x2
    refine Moves.upd rfl (fun p => by cases p; (case img => exact Or.inl ⟨rfl, fun _ h => h .img⟩); all_goals exact Or.inr rfl) ?_
    exact Moves.refl _
  clear_value x2
  extract_lets +onlyGivenNames x3
  have h3 : Moves [.boot, .recov, .ev, .img, .port] s x3 := by
    unfold x3
    refine Moves.step (putHealth_moves ..) rfl ?_
    assumption
  clear_value x3
  refine Moves.step (fenceTag_moves ..) rfl ?_
  refine Moves.step (raise_moves ..) rfl ?_
  assumption

/-! ## Rules -/

theorem rulesReset_moves (s : State) : Moves [.rul] s (rulesReset s) := by
  unfold rulesReset
  split
  · refine Moves.upd rfl (fun p => by cases p; (case rul => exact Or.inl ⟨rfl, fun _ _ => trivial⟩); all_goals exact Or.inr rfl) ?_
    exact Moves.refl _
  · refine Moves.upd rfl (fun p => by cases p; (case rul => exact Or.inl ⟨rfl, fun _ _ => trivial⟩); all_goals exact Or.inr rfl) ?_
    exact Moves.refl _

theorem noteWrite_moves (s : State) (i : ℕ) (a : BitVec 20) (v : W16) (refused : Bool) : Moves [.rul] s (noteWrite s i a v refused) := by
  unfold noteWrite
  extract_lets +onlyGivenNames x1
  clear_value x1
  refine Moves.step (State.modRule_moves ..) rfl ?_
  exact Moves.refl _

theorem ruleCommand_moves (s : State) (i : ℕ) (a : BitVec 20) (v : W16)
    : Moves [.free, .bw, .ch, .ev, .img, .port, .conv, .loop, .gov, .rul] s (ruleCommand s i a v) := by
  unfold ruleCommand
  refine Moves.ite (fun _ => ?_) (fun _ => ?_)
  · exact Moves.refl _
  · extract_lets +onlyGivenNames x1
    have h1 : Moves [.free, .bw, .ch, .ev, .img, .port, .conv, .loop, .gov, .rul] s x1.1 := by
      unfold x1
      refine Moves.step (ownerWrite_moves ..) rfl ?_
      exact Moves.refl _
    clear_value x1
    refine Moves.ite (fun _ => ?_) (fun _ => ?_)
    · refine Moves.step (noteWrite_moves ..) rfl ?_
      refine Moves.step (ruleFault_moves ..) rfl ?_
      refine Moves.step (recordRefusal_moves ..) rfl ?_
      assumption
    · refine Moves.ite (fun _ => ?_) (fun _ => ?_)
      · refine Moves.step (noteWrite_moves ..) rfl ?_
        refine Moves.step (ruleFault_moves ..) rfl ?_
        assumption
      · refine Moves.step (noteWrite_moves ..) rfl ?_
        assumption

theorem noteIssue_moves (s : State) (i : ℕ) (v : W16) : Moves [.rul] s (noteIssue s i v) := by
  unfold noteIssue
  refine Moves.step (State.modRule_moves ..) rfl ?_
  exact Moves.refl _

theorem putWrite_moves (s : State) (w : ℕ × BitVec 20 × W16)
    : Moves [.free, .bw, .ch, .ev, .img, .port, .conv, .loop, .gov, .rul] s (putWrite s w) := by
  unfold putWrite
  refine Moves.step (ruleCommand_moves ..) rfl ?_
  exact Moves.refl _

theorem demandsOf_moves (writes : List (ℕ × BitVec 20 × W16)) (s : State) (n : Chan)
    : Moves [.free, .bw, .ch, .ev, .img, .port, .conv, .loop, .gov, .rul] s (demandsOf writes s n) := by
  unfold demandsOf
  refine Moves.foldl (fun y1 z1 => ?_) ?_
  · refine Moves.step (putWrite_moves ..) rfl ?_
    exact Moves.refl _
  · refine Moves.step (restartOne_moves ..) rfl ?_
    exact Moves.refl _

theorem cycleDemands_moves (s : State) (writes : List (ℕ × BitVec 20 × W16))
    : Moves [.free, .bw, .ch, .ev, .img, .port, .conv, .loop, .gov, .rul] s (cycleDemands s writes) := by
  unfold cycleDemands
  refine Moves.foldl (fun y1 z1 => ?_) ?_
  · refine Moves.step (putWrite_moves ..) rfl ?_
    exact Moves.refl _
  · refine Moves.foldl (fun y2 z2 => ?_) ?_
    · refine Moves.step (demandsOf_moves ..) rfl ?_
      exact Moves.refl _
    · exact Moves.refl _

theorem writeOutputs_moves (s : State) (v1 : List RuleAct) (v2 : List (BitVec 20 × W16))
    : Moves [.ev, .img, .port, .rul] s (writeOutputs s v1 v2).1 := by
  fun_induction writeOutputs s v1 v2
  · dsimp -zeta only
    exact Moves.refl _
  · refine Moves.step (by assumption) (covers_refl _) ?_
    refine Moves.step (epPut_moves ..) rfl ?_
    exact Moves.refl _
  · refine Moves.step (by assumption) (covers_refl _) ?_
    refine Moves.step (noteIssue_moves ..) rfl ?_
    exact Moves.refl _
  · refine Moves.step (by assumption) (covers_refl _) ?_
    exact Moves.refl _
  · refine Moves.step (by assumption) (covers_refl _) ?_
    refine Moves.step (ruleFault_moves ..) rfl ?_
    exact Moves.refl _
  · refine Moves.step (by assumption) (covers_refl _) ?_
    exact Moves.refl _

theorem placeDeferred_moves (s : State) : Moves [.img, .port, .rul] s (placeDeferred s) := by
  unfold placeDeferred
  refine Moves.foldl (fun y1 z1 => ?_) ?_
  · refine Moves.ite (fun _ => ?_) (fun _ => ?_)
    · split
      · refine Moves.step (placeFence_moves ..) rfl ?_
        refine Moves.step (State.modRule_moves ..) rfl ?_
        exact Moves.refl _
      · exact Moves.refl _
    · exact Moves.refl _
  · exact Moves.refl _

theorem ruleFence_moves (s : State) (i : ℕ) (tag : W16) : Moves [.ev, .img, .port, .rul] s (ruleFence s i tag) := by
  unfold ruleFence
  refine Moves.ite (fun _ => ?_) (fun _ => ?_)
  · refine Moves.upd rfl (fun p => by cases p; (case rul => exact Or.inl ⟨rfl, fun _ _ => trivial⟩); all_goals exact Or.inr rfl) ?_
    exact Moves.refl _
  · extract_lets +onlyGivenNames x1
    have h1 : Moves [.ev, .img, .port, .rul] s x1.1 := by
      unfold x1
      refine Moves.step (placeFence_moves ..) rfl ?_
      exact Moves.refl _
    clear_value x1
    refine Moves.ite (fun _ => ?_) (fun _ => ?_)
    · assumption
    · refine Moves.step (ruleFault_moves ..) rfl ?_
      refine Moves.step (State.modRule_moves ..) rfl ?_
      assumption

theorem placeFences_moves (s : State) (acts : List RuleAct) : Moves [.ev, .img, .port, .rul] s (placeFences s acts) := by
  unfold placeFences
  refine Moves.foldl (fun y1 z1 => ?_) ?_
  · split
    · refine Moves.step (ruleFence_moves ..) rfl ?_
      exact Moves.refl _
    · exact Moves.refl _
  · exact Moves.refl _

theorem raiseEmits_moves (s : State) (acts : List RuleAct) : Moves [.ev, .port] s (raiseEmits s acts) := by
  unfold raiseEmits
  refine Moves.foldl (fun y1 z1 => ?_) ?_
  · split
    · refine Moves.step (raise_moves ..) rfl ?_
      exact Moves.refl _
    · exact Moves.refl _
  · exact Moves.refl _

theorem gatherCommands_moves (s : State) : Moves [.bw] s (gatherCommands s) := by
  unfold gatherCommands
  refine Moves.upd rfl (fun p => by cases p; (case bw => exact Or.inl ⟨rfl, fun _ _ => trivial⟩); all_goals exact Or.inr rfl) ?_
  exact Moves.refl _

theorem retarget_moves (s : State) (e : ℕ) (t : W64) : Moves [.bw] s (retarget s e t) := by
  unfold retarget
  extract_lets +onlyGivenNames x1
  clear_value x1
  refine Moves.upd rfl (fun p => by cases p; (case bw => exact Or.inl ⟨rfl, fun _ _ => trivial⟩); all_goals exact Or.inr rfl) ?_
  exact Moves.refl _

theorem issueStepFive_moves (s : State) : Moves [.bw] s (issueStepFive s) := by
  unfold issueStepFive
  refine Moves.ite (fun _ => ?_) (fun _ => ?_)
  · refine Moves.foldl (fun y1 z1 => ?_) ?_
    · refine Moves.step (bwSend_moves ..) rfl ?_
      exact Moves.refl _
    · refine Moves.upd rfl (fun p => by cases p; (case bw => exact Or.inl ⟨rfl, fun _ _ => trivial⟩); all_goals exact Or.inr rfl) ?_
      exact Moves.refl _
  · exact Moves.refl _

theorem endLeaving_moves (s : State) : Moves [.m, .mbx] s (endLeaving s) := by
  unfold endLeaving
  split
  · refine Moves.step (mbxEnd_moves ..) rfl ?_
    refine Moves.upd rfl (fun p => by cases p; (case m => exact Or.inl ⟨rfl, fun _ _ => trivial⟩); all_goals exact Or.inr rfl) ?_
    exact Moves.refl _
  · exact Moves.refl _

theorem writeCheckpoint_moves (s : State) (g : Generation) : Moves [.rul] s (writeCheckpoint s g) := by
  unfold writeCheckpoint
  refine Moves.upd rfl (fun p => by cases p; (case rul => exact Or.inl ⟨rfl, fun _ _ => trivial⟩); all_goals exact Or.inr rfl) ?_
  exact Moves.refl _

theorem afterCycle_moves (s : State)
    : Moves [.free, .m, .triad, .bw, .ch, .ev, .mbx, .img, .port, .conv, .loop, .trim, .gov, .rul, .pins] s (afterCycle s) := by
  unfold afterCycle
  refine Moves.ite (fun _ => ?_) (fun _ => ?_)
  · extract_lets +onlyGivenNames x1
    clear_value x1
    extract_lets +onlyGivenNames x2
    have h2 : Moves [.free, .m, .triad, .bw, .ch, .ev, .mbx, .img, .port, .conv, .loop, .trim, .gov, .rul, .pins] s x2 := by
      unfold x2
      refine Moves.step (endLeaving_moves ..) rfl ?_
      exact Moves.refl _
    clear_value x2
    extract_lets +onlyGivenNames x3
    clear_value x3
    extract_lets +onlyGivenNames x4
    have h4 : Moves [.free, .m, .triad, .bw, .ch, .ev, .mbx, .img, .port, .conv, .loop, .trim, .gov, .rul, .pins] s x4 := by
      unfold x4
      refine Moves.step (markSafe_moves ..) rfl ?_
      refine Moves.upd rfl (fun p => by cases p; (case m => exact Or.inl ⟨rfl, fun _ _ => trivial⟩); all_goals exact Or.inr rfl) ?_
      assumption
    clear_value x4
    refine Moves.step (commandAll_moves ..) rfl ?_
    refine Moves.step (takeCommands_moves ..) rfl ?_
    refine Moves.step (setMode_moves ..) rfl ?_
    assumption
  · refine Moves.ite (fun _ => ?_) (fun _ => ?_)
    · refine Moves.step (commandAll_moves ..) rfl ?_
      refine Moves.step (takeCommands_moves ..) rfl ?_
      refine Moves.step (markSafe_moves ..) rfl ?_
      refine Moves.upd rfl (fun p => by cases p; (case m => exact Or.inl ⟨rfl, fun _ _ => trivial⟩); all_goals exact Or.inr rfl) ?_
      exact Moves.refl _
    · exact Moves.refl _

theorem cycleTimes_moves (s : State) : Moves [.free] s (cycleTimes s).2 := by
  unfold cycleTimes
  extract_lets +onlyGivenNames x1
  have h1 : Moves [.free] s x1.2 := by
    unfold x1
    refine Moves.step (State.draw_moves ..) rfl ?_
    exact Moves.refl _
  clear_value x1
  extract_lets +onlyGivenNames x2
  have h2 : Moves [.free] s x2.2 := by
    unfold x2
    refine Moves.step (State.draw_moves ..) rfl ?_
    assumption
  clear_value x2
  dsimp -zeta only
  assumption

theorem cycle_moves (s : State) (g : Generation)
    : Moves [.free, .m, .triad, .bw, .ch, .ev, .mbx, .img, .port, .conv, .loop, .trim, .gov, .rul, .pins, .enrol] s (cycle s g) := by
  unfold cycle
  extract_lets +onlyGivenNames x1
  clear_value x1
  extract_lets +onlyGivenNames x2
  have h2 : Moves [.free, .m, .triad, .bw, .ch, .ev, .mbx, .img, .port, .conv, .loop, .trim, .gov, .rul, .pins, .enrol] s x2 := by
    unfold x2
    refine Moves.step (cycleTimes_moves ..) rfl ?_
    exact Moves.refl _
  extract_lets +onlyGivenNames x3
  clear_value x3
  extract_lets +onlyGivenNames x4
  clear_value x4
  extract_lets +onlyGivenNames x5
  clear_value x5
  extract_lets +onlyGivenNames x6
  clear_value x6
  extract_lets +onlyGivenNames x7
  clear_value x7
  extract_lets +onlyGivenNames x8
  clear_value x8
  extract_lets +onlyGivenNames x9
  have h9 : Moves [.free, .m, .triad, .bw, .ch, .ev, .mbx, .img, .port, .conv, .loop, .trim, .gov, .rul, .pins, .enrol] s x9 := by
    unfold x9
    refine Moves.step (gatherCommands_moves ..) rfl ?_
    refine Moves.step (flushNormal_moves ..) rfl ?_
    refine Moves.step (recompute_moves ..) rfl ?_
    refine Moves.step (settleMode_moves ..) rfl ?_
    refine Moves.upd rfl (fun p => by cases p; (case gov => exact Or.inl ⟨rfl, fun _ _ => trivial⟩); all_goals exact Or.inr rfl) ?_
    assumption
  clear_value x9
  extract_lets +onlyGivenNames x10
  clear_value x10
  extract_lets +onlyGivenNames x11
  clear_value x11
  extract_lets +onlyGivenNames x12
  have h12 : Moves [.free, .m, .triad, .bw, .ch, .ev, .mbx, .img, .port, .conv, .loop, .trim, .gov, .rul, .pins, .enrol] s x12 := by
    unfold x12
    refine Moves.step (cycleDemands_moves ..) rfl ?_
    refine Moves.step (mapPending_moves ..) rfl ?_
    refine Moves.upd rfl (fun p => by cases p; (case rul => exact Or.inl ⟨rfl, fun _ _ => trivial⟩); all_goals exact Or.inr rfl) ?_
    assumption
  clear_value x12
  extract_lets +onlyGivenNames x13
  have h13 : Moves [.free, .m, .triad, .bw, .ch, .ev, .mbx, .img, .port, .conv, .loop, .trim, .gov, .rul, .pins, .enrol] s x13.1 := by
    unfold x13
    refine Moves.step (writeOutputs_moves ..) rfl ?_
    assumption
  clear_value x13
  extract_lets +onlyGivenNames x14
  have h14 : Moves [.free, .m, .triad, .bw, .ch, .ev, .mbx, .img, .port, .conv, .loop, .trim, .gov, .rul, .pins, .enrol] s x14 := by
    unfold x14
    refine Moves.step (raiseEmits_moves ..) rfl ?_
    refine Moves.step (placeFences_moves ..) rfl ?_
    refine Moves.step (placeDeferred_moves ..) rfl ?_
    refine Moves.step (originWrites_moves ..) rfl ?_
    assumption
  clear_value x14
  extract_lets +onlyGivenNames x15
  clear_value x15
  extract_lets +onlyGivenNames x16
  clear_value x16
  extract_lets +onlyGivenNames x17
  clear_value x17
  extract_lets +onlyGivenNames x18
  have h18 : Moves [.free, .m, .triad, .bw, .ch, .ev, .mbx, .img, .port, .conv, .loop, .trim, .gov, .rul, .pins, .enrol] s x18 := by
    unfold x18
    refine Moves.upd rfl (fun p => by cases p; (case rul | pins => exact Or.inl ⟨rfl, fun _ _ => trivial⟩); all_goals exact Or.inr rfl) ?_
    assumption
  clear_value x18
  refine Moves.step (retarget_moves ..) rfl ?_
  refine Moves.step (afterCycle_moves ..) rfl ?_
  refine Moves.step (writeCheckpoint_moves ..) rfl ?_
  assumption

/-! ## Triad -/

theorem sendSafe_moves (s : State) (cause : Byte) (why : BitVec 4) : Moves [.bw] s (sendSafe s cause why) := by
  unfold sendSafe
  refine Moves.upd rfl (fun p => by cases p; (case bw => exact Or.inl ⟨rfl, fun _ _ => trivial⟩); all_goals exact Or.inr rfl) ?_
  exact Moves.refl _

theorem voterSafe_moves (s : State) (cause : Byte) (why : BitVec 4) (event : Bool)
    : Moves [.m, .triad, .recov, .bw, .fd, .ch, .ev, .mbx, .img, .port, .conv, .loop, .trim, .wheel, .rul, .pins] s (voterSafe s cause why event) := by
  unfold voterSafe
  extract_lets +onlyGivenNames x1
  extract_lets +onlyGivenNames x2
  have h2 : Moves [.m, .triad, .recov, .bw, .fd, .ch, .ev, .mbx, .img, .port, .conv, .loop, .trim, .wheel, .rul, .pins] s x2 := by
    unfold x2
    refine Moves.upd rfl (fun p => by cases p; (case triad => exact Or.inl ⟨rfl, fun _ h => h .triad⟩); all_goals exact Or.inr rfl) ?_
    exact Moves.refl _
  clear_value x2
  extract_lets +onlyGivenNames x3
  have h3 : Moves [.m, .triad, .recov, .bw, .fd, .ch, .ev, .mbx, .img, .port, .conv, .loop, .trim, .wheel, .rul, .pins] s x3 := by
    unfold x3
    refine Moves.step (sendSafe_moves ..) rfl ?_
    assumption
  clear_value x3
  extract_lets +onlyGivenNames x4
  extract_lets +onlyGivenNames x5
  have h5 : Moves [.m, .triad, .recov, .bw, .fd, .ch, .ev, .mbx, .img, .port, .conv, .loop, .trim, .wheel, .rul, .pins] s x5 := by
    unfold x5
    refine Moves.ite (fun _ => ?_) (fun _ => ?_)
    · assumption
    · refine Moves.upd rfl (fun p => by cases p; (case triad => exact Or.inl ⟨rfl, fun _ h => h .triad⟩); all_goals exact Or.inr rfl) ?_
      assumption
  clear_value x5
  extract_lets +onlyGivenNames x6
  have h6 : Moves [.m, .triad, .recov, .bw, .fd, .ch, .ev, .mbx, .img, .port, .conv, .loop, .trim, .wheel, .rul, .pins] s x6 := by
    unfold x6
    refine Moves.ite (fun _ => ?_) (fun _ => ?_)
    · refine Moves.step (raise_moves ..) rfl ?_
      assumption
    · assumption
  clear_value x6
  refine Moves.step (enterSafe_moves ..) rfl ?_
  assumption

theorem recordDis_moves (s : State) (l : LaneIx) (src : DisSource) (plane : BitVec 3)
    : Moves [.triad, .ev, .port] s (recordDis s l src plane) := by
  unfold recordDis
  extract_lets +onlyGivenNames x1
  extract_lets +onlyGivenNames x2
  have h2 : Moves [.triad, .ev, .port] s x2 := by
    unfold x2
    refine Moves.upd rfl (fun p => by cases p; (case triad => exact Or.inl ⟨rfl, fun _ h => h .triad⟩); all_goals exact Or.inr rfl) ?_
    exact Moves.refl _
  clear_value x2
  refine Moves.step (raise_moves ..) rfl ?_
  assumption

theorem retireLane_moves (s : State) (l : LaneIx) : Moves [.m, .triad, .ch, .ev, .img, .port, .trim, .rul, .pins] s (retireLane s l) := by
  unfold retireLane
  extract_lets +onlyGivenNames x1
  extract_lets +onlyGivenNames x2
  have h2 : Moves [.m, .triad, .ch, .ev, .img, .port, .trim, .rul, .pins] s x2 := by
    unfold x2
    refine Moves.upd rfl (fun p => by cases p; (case triad => exact Or.inl ⟨rfl, fun _ h => h .triad⟩); all_goals exact Or.inr rfl) ?_
    exact Moves.refl _
  clear_value x2
  refine Moves.step (reduce_moves ..) rfl ?_
  refine Moves.step (putTriad_moves ..) rfl ?_
  refine Moves.step (raise_moves ..) rfl ?_
  assumption

theorem laneOdd_moves (s : State) (l : LaneIx) (src : DisSource) (plane : BitVec 3)
    : Moves [.m, .triad, .ch, .ev, .img, .port, .trim, .rul, .pins] s (laneOdd s l src plane) := by
  unfold laneOdd
  extract_lets +onlyGivenNames x1
  have h1 : Moves [.m, .triad, .ch, .ev, .img, .port, .trim, .rul, .pins] s x1 := by
    unfold x1
    refine Moves.step (recordDis_moves ..) rfl ?_
    exact Moves.refl _
  clear_value x1
  refine Moves.ite (fun _ => ?_) (fun _ => ?_)
  · refine Moves.step (retireLane_moves ..) rfl ?_
    assumption
  · extract_lets +onlyGivenNames x2
    refine Moves.step (putTriad_moves ..) rfl ?_
    refine Moves.upd rfl (fun p => by cases p; (case triad => exact Or.inl ⟨rfl, fun _ h => h .triad⟩); all_goals exact Or.inr rfl) ?_
    assumption

theorem selfTest_moves (s : State) (failing : Option (Fin 6))
    : Moves [.m, .triad, .recov, .bw, .fd, .ch, .ev, .mbx, .img, .port, .conv, .loop, .trim, .wheel, .rul, .pins] s (selfTest s failing) := by
  unfold selfTest
  extract_lets +onlyGivenNames x1
  extract_lets +onlyGivenNames x2
  split
  · refine Moves.upd rfl (fun p => by cases p; (case triad => exact Or.inl ⟨rfl, fun _ h => h .triad⟩); all_goals exact Or.inr rfl) ?_
    exact Moves.refl _
  · refine Moves.step (voterSafe_moves ..) rfl ?_
    refine Moves.upd rfl (fun p => by cases p; (case triad => exact Or.inl ⟨rfl, fun _ h => h .triad⟩); all_goals exact Or.inr rfl) ?_
    exact Moves.refl _

theorem surveyRun_moves (s : State) (crcs : List W32) (mismatch : Bool) : Moves [.triad] s (surveyRun s crcs mismatch) := by
  unfold surveyRun
  refine Moves.upd rfl (fun p => by cases p; (case triad => exact Or.inl ⟨rfl, fun _ h => h .triad⟩); all_goals exact Or.inr rfl) ?_
  exact Moves.refl _

theorem survey_moves (s : State) (crcs : List W32)
    : Moves [.m, .triad, .recov, .bw, .fd, .ch, .ev, .mbx, .img, .port, .conv, .loop, .trim, .wheel, .rul, .pins] s (survey s crcs) := by
  unfold survey
  split
  · refine Moves.ite (fun _ => ?_) (fun _ => ?_)
    · refine Moves.step (surveyRun_moves ..) rfl ?_
      exact Moves.refl _
    · refine Moves.step (voterSafe_moves ..) rfl ?_
      refine Moves.step (surveyRun_moves ..) rfl ?_
      exact Moves.refl _
  · refine Moves.ite (fun _ => ?_) (fun _ => ?_)
    · refine Moves.step (surveyRun_moves ..) rfl ?_
      exact Moves.refl _
    · refine Moves.ite (fun _ => ?_) (fun _ => ?_)
      · refine Moves.step (laneOdd_moves ..) rfl ?_
        refine Moves.step (surveyRun_moves ..) rfl ?_
        exact Moves.refl _
      · refine Moves.ite (fun _ => ?_) (fun _ => ?_)
        · refine Moves.step (laneOdd_moves ..) rfl ?_
          refine Moves.step (surveyRun_moves ..) rfl ?_
          exact Moves.refl _
        · refine Moves.ite (fun _ => ?_) (fun _ => ?_)
          · refine Moves.step (laneOdd_moves ..) rfl ?_
            refine Moves.step (surveyRun_moves ..) rfl ?_
            exact Moves.refl _
          · refine Moves.step (voterSafe_moves ..) rfl ?_
            refine Moves.step (surveyRun_moves ..) rfl ?_
            exact Moves.refl _
  · exact Moves.refl _

theorem afterRebuild_moves (s : State) (failing : Option (Fin 6)) (crcs : List W32)
    : Moves [.m, .triad, .recov, .bw, .fd, .ch, .ev, .mbx, .img, .port, .conv, .loop, .trim, .wheel, .rul, .pins] s (afterRebuild s failing crcs) := by
  unfold afterRebuild
  extract_lets +onlyGivenNames x1
  have h1 : Moves [.m, .triad, .recov, .bw, .fd, .ch, .ev, .mbx, .img, .port, .conv, .loop, .trim, .wheel, .rul, .pins] s x1 := by
    unfold x1
    refine Moves.ite (fun _ => ?_) (fun _ => ?_)
    · refine Moves.step (selfTest_moves ..) rfl ?_
      exact Moves.refl _
    · exact Moves.refl _
  clear_value x1
  refine Moves.ite (fun _ => ?_) (fun _ => ?_)
  · refine Moves.step (survey_moves ..) rfl ?_
    assumption
  · assumption

/-! ## Sram -/

theorem sramStore_moves (s : State) (a : ℕ) (v : W32) : Moves [.triad, .recov, .ev, .img, .conv] s (sramStore s a v) := by
  unfold sramStore
  extract_lets +onlyGivenNames x1
  extract_lets +onlyGivenNames x2
  have h2 : Moves [.triad, .recov, .ev, .img, .conv] s x2 := by
    unfold x2
    refine Moves.upd rfl (fun p => by
        cases p
        case triad => exact Or.inl ⟨rfl, fun _ h => ⟨⟨srise_sinsert (h .triad).1.1 .., (h .triad).1.2⟩, (h .triad).2⟩⟩
        all_goals exact Or.inr rfl) ?_
    exact Moves.refl _
  clear_value x2
  refine Moves.ite (fun _ => ?_) (fun _ => ?_)
  · extract_lets +onlyGivenNames x3
    clear_value x3
    refine Moves.ite (fun _ => ?_) (fun _ => ?_)
    · refine Moves.upd rfl (fun p => by
          cases p
          case img => exact Or.inl ⟨rfl, fun _ h => ⟨⟨swf_swrite (h .img).1.1 .., (h .img).1.2⟩, (h .img).2⟩⟩
          all_goals exact Or.inr rfl) ?_
      exact Moves.refl _
    · refine Moves.upd rfl (fun p => by
          cases p
          case img => exact Or.inl ⟨rfl, fun _ h => ⟨⟨(h .img).1.1, swf_swrite (h .img).1.2.1 .., (h .img).1.2.2⟩, (h .img).2⟩⟩
          all_goals exact Or.inr rfl) ?_
      exact Moves.refl _
  · refine Moves.ite (fun _ => ?_) (fun _ => ?_)
    · refine Moves.upd rfl (fun p => by
          cases p
          case recov => exact Or.inl ⟨rfl, fun _ h => ⟨(h .recov).1, swf_swriteList (h .recov).2 ..⟩⟩
          all_goals exact Or.inr rfl) ?_
      exact Moves.refl _
    · refine Moves.ite (fun _ => ?_) (fun _ => ?_)
      · assumption
      · refine Moves.ite (fun _ => ?_) (fun _ => ?_)
        · refine Moves.upd rfl (fun p => by
              cases p
              case recov => exact Or.inl ⟨rfl, fun _ h => ⟨swf_swriteList (h .recov).1 .., (h .recov).2⟩⟩
              all_goals exact Or.inr rfl) ?_
          exact Moves.refl _
        · refine Moves.ite (fun _ => ?_) (fun _ => ?_)
          · extract_lets +onlyGivenNames x4
            clear_value x4
            refine Moves.upd rfl (fun p => by
                cases p
                case conv => exact Or.inl ⟨rfl, fun _ h => ⟨(h .conv).1, swf_swrite (h .conv).2 ..⟩⟩
                all_goals exact Or.inr rfl) ?_
            exact Moves.refl _
          · refine Moves.ite (fun _ => ?_) (fun _ => ?_)
            · extract_lets +onlyGivenNames x5
              clear_value x5
              refine Moves.ite (fun _ => ?_) (fun _ => ?_)
              · assumption
              · refine Moves.upd rfl (fun p => by
                    cases p
                    case ev => exact Or.inl ⟨rfl, fun _ h => ⟨(h .ev).1, (List.length_map ..).trans_le (h .ev).2⟩⟩
                    all_goals exact Or.inr rfl) ?_
                exact Moves.refl _
            · refine Moves.ite (fun _ => ?_) (fun _ => ?_)
              · refine Moves.upd rfl (fun p => by
                    cases p
                    case conv => exact Or.inl ⟨rfl, fun _ h => ⟨swf_swrite (h .conv).1 .., (h .conv).2⟩⟩
                    all_goals exact Or.inr rfl) ?_
                exact Moves.refl _
              · assumption

/-! ## Debug -/

theorem scanCtrl_moves (s : State) : Moves [.triad] s (scanCtrl s) := by
  unfold scanCtrl
  refine Moves.upd rfl (fun p => by cases p; (case triad => exact Or.inl ⟨rfl, fun _ h => h .triad⟩); all_goals exact Or.inr rfl) ?_
  exact Moves.refl _

theorem scanAccess_moves (s : State) : Moves [.triad] s (scanAccess s) := by
  unfold scanAccess
  refine Moves.upd rfl (fun p => by cases p; (case triad => exact Or.inl ⟨rfl, fun _ h => h .triad⟩); all_goals exact Or.inr rfl) ?_
  exact Moves.refl _

theorem dbgDone_moves (s : State) (addr : W32) (st : BitVec 2) : Moves [.triad] s (dbgDone s addr st) := by
  unfold dbgDone
  refine Moves.upd rfl (fun p => by cases p; (case triad => exact Or.inl ⟨rfl, fun _ h => h .triad⟩); all_goals exact Or.inr rfl) ?_
  exact Moves.refl _

theorem dbgRead_moves (s : State) (addr : W32) : Moves [.triad] s (dbgRead s addr) := by
  unfold dbgRead
  refine Moves.ite (fun _ => ?_) (fun _ => ?_)
  · refine Moves.step (dbgDone_moves ..) rfl ?_
    exact Moves.refl _
  · split
    · refine Moves.step (dbgDone_moves ..) rfl ?_
      exact Moves.refl _
    · refine Moves.step (dbgDone_moves ..) rfl ?_
      refine Moves.upd rfl (fun p => by cases p; (case triad => exact Or.inl ⟨rfl, fun _ h => h .triad⟩); all_goals exact Or.inr rfl) ?_
      exact Moves.refl _

theorem dbgWrite_moves (s : State) (addr : W32) (data : W32) : Moves [.triad, .recov, .ev, .img, .conv] s (dbgWrite s addr data) := by
  unfold dbgWrite
  refine Moves.ite (fun _ => ?_) (fun _ => ?_)
  · refine Moves.step (dbgDone_moves ..) rfl ?_
    exact Moves.refl _
  · split
    · refine Moves.step (dbgDone_moves ..) rfl ?_
      exact Moves.refl _
    · refine Moves.ite (fun _ => ?_) (fun _ => ?_)
      · refine Moves.step (dbgDone_moves ..) rfl ?_
        exact Moves.refl _
      · refine Moves.ite (fun _ => ?_) (fun _ => ?_)
        · refine Moves.step (dbgDone_moves ..) rfl ?_
          split
          · refine Moves.step (sramStore_moves ..) rfl ?_
            exact Moves.refl _
          · refine Moves.upd rfl (fun p => by
                cases p
                case triad => exact Or.inl ⟨rfl, fun _ h => ⟨⟨(h .triad).1.1, srise_sinsert (h .triad).1.2 ..⟩, (h .triad).2⟩⟩
                all_goals exact Or.inr rfl) ?_
            exact Moves.refl _
        · refine Moves.ite (fun _ => ?_) (fun _ => ?_)
          · refine Moves.step (dbgDone_moves ..) rfl ?_
            refine Moves.upd rfl (fun p => by
                cases p
                case triad => exact Or.inl ⟨rfl, fun _ h => h .triad⟩
                all_goals exact Or.inr rfl) ?_
            exact Moves.refl _
          · extract_lets +onlyGivenNames x1
            extract_lets +onlyGivenNames x2
            refine Moves.step (dbgDone_moves ..) rfl ?_
            refine Moves.upd rfl (fun p => by
                cases p
                case triad => exact Or.inl ⟨rfl, fun _ h => replay_added (h .triad) (by assumption) ..⟩
                all_goals exact Or.inr rfl) ?_
            exact Moves.refl _

theorem replayAll_moves (s : State) (crcs : List W32)
    : Moves [.m, .triad, .recov, .bw, .fd, .ch, .ev, .mbx, .img, .port, .conv, .loop, .trim, .wheel, .rul, .pins] s (replayAll s crcs) := by
  unfold replayAll
  extract_lets +onlyGivenNames x1
  have h1 : Moves [.m, .triad, .recov, .bw, .fd, .ch, .ev, .mbx, .img, .port, .conv, .loop, .trim, .wheel, .rul, .pins] s x1 := by
    unfold x1
    refine Moves.foldl (fun y2 z2 => ?_) ?_
    · refine Moves.ite (fun _ => ?_) (fun _ => ?_)
      · refine Moves.step (sramStore_moves ..) rfl ?_
        exact Moves.refl _
      · exact Moves.refl _
    · exact Moves.refl _
  clear_value x1
  refine Moves.ite (fun _ => ?_) (fun _ => ?_)
  · refine Moves.upd rfl (fun p => by
        cases p
        case triad => exact Or.inl ⟨rfl, fun _ h => ⟨(h .triad).1, Nat.zero_le _⟩⟩
        all_goals exact Or.inr rfl) ?_
    assumption
  · refine Moves.step (survey_moves ..) rfl ?_
    refine Moves.upd rfl (fun p => by
        cases p
        case triad => exact Or.inl ⟨rfl, fun _ h => ⟨(h .triad).1, Nat.zero_le _⟩⟩
        all_goals exact Or.inr rfl) ?_
    assumption

/-! ## Filter -/

theorem feedPair_moves (s : State) (n : Chan) (pair : Option (W16 × W16)) (ts : W64)
    : Moves [.ev, .port, .conv] s (feedPair s n pair ts) := by
  unfold feedPair
  extract_lets +onlyGivenNames x1
  clear_value x1
  extract_lets +onlyGivenNames x2
  clear_value x2
  extract_lets +onlyGivenNames x3
  clear_value x3
  extract_lets +onlyGivenNames x4
  clear_value x4
  extract_lets +onlyGivenNames x5
  clear_value x5
  extract_lets +onlyGivenNames x6
  clear_value x6
  refine Moves.step (feed_moves ..) rfl ?_
  refine Moves.step (feed_moves ..) rfl ?_
  exact Moves.refl _

theorem feedPairs_moves (s : State) (v1 : List (Option (W16 × W16))) (v2 : W64)
    : Moves [.ch, .ev, .img, .port, .conv] s (feedPairs s v1 v2) := by
  induction v1 generalizing s v2 with
  | nil => exact Moves.refl _
  | cons p l ih =>
    unfold feedPairs
    extract_lets s0 s1
    have h0 : Moves [.ch, .ev, .img, .port, .conv] s s0 := (roundStart_moves ..).widen rfl
    have h1 : Moves [.ch, .ev, .img, .port, .conv] s s1 := by
      unfold s1
      split
      · exact Moves.step (feedPair_moves ..) rfl h0
      · exact h0
    exact Moves.step (ih ..) (covers_refl _) h1

theorem judgeSar_moves (s : State) (missI : BitVec 14) (missV : BitVec 14)
    : Moves [.ch, .ev, .img, .port, .conv] s (judgeSar s missI missV) := by
  unfold judgeSar
  extract_lets +onlyGivenNames x1
  clear_value x1
  extract_lets +onlyGivenNames x2
  clear_value x2
  extract_lets +onlyGivenNames x3
  extract_lets +onlyGivenNames x4
  have h4 : Moves [.ch, .ev, .img, .port, .conv] s x4 := by
    unfold x4
    refine Moves.upd rfl (fun p => by cases p; (case conv => exact Or.inl ⟨rfl, fun _ h => h .conv⟩); all_goals exact Or.inr rfl) ?_
    exact Moves.refl _
  clear_value x4
  extract_lets +onlyGivenNames x5
  have h5 : Moves [.ch, .ev, .img, .port, .conv] s x5 := by
    unfold x5
    refine Moves.ite (fun _ => ?_) (fun _ => ?_)
    · refine Moves.step (converterFault_moves ..) rfl ?_
      assumption
    · assumption
  clear_value x5
  refine Moves.step (sarRecover_moves ..) rfl ?_
  refine Moves.ite (fun _ => ?_) (fun _ => ?_)
  · refine Moves.step (converterFault_moves ..) rfl ?_
    assumption
  · assumption

theorem putHk_moves (s : State) (ended : W64) (h : Fin 24) (sum : ℕ) : Moves [.conv] s (putHk s ended h sum) := by
  unfold putHk
  extract_lets +onlyGivenNames x1
  clear_value x1
  extract_lets +onlyGivenNames x2
  clear_value x2
  extract_lets +onlyGivenNames x3
  clear_value x3
  extract_lets +onlyGivenNames x4
  clear_value x4
  extract_lets +onlyGivenNames x5
  clear_value x5
  refine Moves.upd rfl (fun p => by cases p; (case conv => exact Or.inl ⟨rfl, fun _ h => h .conv⟩); all_goals exact Or.inr rfl) ?_
  exact Moves.refl _

theorem judgeTap_moves (s : State) : Moves [.ch, .ev, .img, .port, .conv] s (judgeTap s) := by
  unfold judgeTap
  extract_lets +onlyGivenNames x1
  clear_value x1
  refine Moves.ite (fun _ => ?_) (fun _ => ?_)
  · extract_lets +onlyGivenNames x2
    clear_value x2
    refine Moves.ite (fun _ => ?_) (fun _ => ?_)
    · refine Moves.upd rfl (fun p => by cases p; (case conv => exact Or.inl ⟨rfl, fun _ h => h .conv⟩); all_goals exact Or.inr rfl) ?_
      exact Moves.refl _
    · refine Moves.upd rfl (fun p => by cases p; (case conv => exact Or.inl ⟨rfl, fun _ h => h .conv⟩); all_goals exact Or.inr rfl) ?_
      exact Moves.refl _
  · extract_lets +onlyGivenNames x3
    clear_value x3
    extract_lets +onlyGivenNames x4
    extract_lets +onlyGivenNames x5
    have h5 : Moves [.ch, .ev, .img, .port, .conv] s x5 := by
      unfold x5
      refine Moves.upd rfl (fun p => by cases p; (case conv => exact Or.inl ⟨rfl, fun _ h => h .conv⟩); all_goals exact Or.inr rfl) ?_
      exact Moves.refl _
    clear_value x5
    refine Moves.ite (fun _ => ?_) (fun _ => ?_)
    · refine Moves.step (converterFault_moves ..) rfl ?_
      assumption
    · assumption

theorem judgeRef_moves (s : State) : Moves [.ch, .ev, .img, .port, .conv] s (judgeRef s) := by
  unfold judgeRef
  extract_lets +onlyGivenNames x1
  clear_value x1
  extract_lets +onlyGivenNames x2
  extract_lets +onlyGivenNames x3
  have h3 : Moves [.ch, .ev, .img, .port, .conv] s x3 := by
    unfold x3
    refine Moves.upd rfl (fun p => by cases p; (case conv => exact Or.inl ⟨rfl, fun _ h => h .conv⟩); all_goals exact Or.inr rfl) ?_
    exact Moves.refl _
  clear_value x3
  refine Moves.ite (fun _ => ?_) (fun _ => ?_)
  · assumption
  · refine Moves.ite (fun _ => ?_) (fun _ => ?_)
    · refine Moves.ite (fun _ => ?_) (fun _ => ?_)
      · refine Moves.upd rfl (fun p => by cases p; (case conv => exact Or.inl ⟨rfl, fun _ h => h .conv⟩); all_goals exact Or.inr rfl) ?_
        assumption
      · extract_lets +onlyGivenNames x4
        extract_lets +onlyGivenNames x5
        have h5 : Moves [.ch, .ev, .img, .port, .conv] s x5 := by
          unfold x5
          refine Moves.upd rfl (fun p => by cases p; (case conv => exact Or.inl ⟨rfl, fun _ h => h .conv⟩); all_goals exact Or.inr rfl) ?_
          assumption
        clear_value x5
        refine Moves.step (evalAll_moves ..) rfl ?_
        refine Moves.step (raise_moves ..) rfl ?_
        assumption
    · refine Moves.ite (fun _ => ?_) (fun _ => ?_)
      · extract_lets +onlyGivenNames x6
        clear_value x6
        refine Moves.ite (fun _ => ?_) (fun _ => ?_)
        · refine Moves.step (evalAll_moves ..) rfl ?_
          refine Moves.step (resetAllPaths_moves ..) rfl ?_
          refine Moves.upd rfl (fun p => by cases p; (case conv => exact Or.inl ⟨rfl, fun _ h => h .conv⟩); all_goals exact Or.inr rfl) ?_
          assumption
        · refine Moves.upd rfl (fun p => by cases p; (case conv => exact Or.inl ⟨rfl, fun _ h => h .conv⟩); all_goals exact Or.inr rfl) ?_
          assumption
      · assumption

theorem judgeCase_moves (s : State) : Moves [.ev, .port, .gov] s (judgeCase s) := by
  unfold judgeCase
  extract_lets +onlyGivenNames x1
  clear_value x1
  refine Moves.ite (fun _ => ?_) (fun _ => ?_)
  · exact Moves.refl _
  · refine Moves.ite (fun _ => ?_) (fun _ => ?_)
    · refine Moves.ite (fun _ => ?_) (fun _ => ?_)
      · exact Moves.refl _
      · refine Moves.step (raise_moves ..) rfl ?_
        refine Moves.upd rfl (fun p => by cases p; (case gov => exact Or.inl ⟨rfl, fun _ _ => trivial⟩); all_goals exact Or.inr rfl) ?_
        exact Moves.refl _
    · refine Moves.ite (fun _ => ?_) (fun _ => ?_)
      · refine Moves.upd rfl (fun p => by cases p; (case gov => exact Or.inl ⟨rfl, fun _ _ => trivial⟩); all_goals exact Or.inr rfl) ?_
        exact Moves.refl _
      · exact Moves.refl _

theorem takeSums_moves (s : State) (sums : List (Fin 24 × ℕ)) (ended : W64) (missed : Bool)
    : Moves [.ch, .ev, .img, .port, .conv, .gov] s (takeSums s sums ended missed) := by
  unfold takeSums
  extract_lets +onlyGivenNames x1
  clear_value x1
  extract_lets +onlyGivenNames x2
  have h2 : Moves [.ch, .ev, .img, .port, .conv, .gov] s x2 := by
    unfold x2
    refine Moves.ite (fun _ => ?_) (fun _ => ?_)
    · refine Moves.step (converterFault_moves ..) rfl ?_
      exact Moves.refl _
    · exact Moves.refl _
  clear_value x2
  extract_lets +onlyGivenNames x3
  have h3 : Moves [.ch, .ev, .img, .port, .conv, .gov] s x3 := by
    unfold x3
    refine Moves.foldl (fun y4 z4 => ?_) ?_
    · refine Moves.step (putHk_moves ..) rfl ?_
      exact Moves.refl _
    · assumption
  clear_value x3
  extract_lets +onlyGivenNames x5
  have h5 : Moves [.ch, .ev, .img, .port, .conv, .gov] s x5 := by
    unfold x5
    refine Moves.ite (fun _ => ?_) (fun _ => ?_)
    · refine Moves.step (judgeTap_moves ..) rfl ?_
      assumption
    · assumption
  clear_value x5
  extract_lets +onlyGivenNames x6
  have h6 : Moves [.ch, .ev, .img, .port, .conv, .gov] s x6 := by
    unfold x6
    refine Moves.ite (fun _ => ?_) (fun _ => ?_)
    · refine Moves.step (judgeRef_moves ..) rfl ?_
      assumption
    · assumption
  clear_value x6
  refine Moves.ite (fun _ => ?_) (fun _ => ?_)
  · refine Moves.step (judgeCase_moves ..) rfl ?_
    assumption
  · assumption

theorem formHk_moves (s : State) (seq : Byte) (sums : List (Fin 24 × ℕ)) (missed : Bool) : Moves [.fd] s (formHk s seq sums missed) := by
  unfold formHk
  refine Moves.ite (fun _ => ?_) (fun _ => ?_)
  · exact Moves.refl _
  · refine Moves.step (fdSend_moves ..) rfl ?_
    exact Moves.refl _

theorem judgeNe43_moves (s : State) (n : Chan) : Moves [.img, .loop] s (judgeNe43 s n) := by
  unfold judgeNe43
  extract_lets +onlyGivenNames x1
  clear_value x1
  refine Moves.ite (fun _ => ?_) (fun _ => ?_)
  · exact Moves.refl _
  · extract_lets +onlyGivenNames x2
    clear_value x2
    refine Moves.step (putNe43_moves ..) rfl ?_
    exact Moves.refl _

theorem requestSwap_moves (s : State) (p : PathIx) (target : Bool) (fade : ℕ) : Moves [.conv] s (requestSwap s p target fade) := by
  unfold requestSwap
  extract_lets +onlyGivenNames x1
  clear_value x1
  extract_lets +onlyGivenNames x2
  clear_value x2
  refine Moves.ite (fun _ => ?_) (fun _ => ?_)
  · refine Moves.upd rfl (fun p => by cases p; (case conv => exact Or.inl ⟨rfl, fun _ h => h .conv⟩); all_goals exact Or.inr rfl) ?_
    exact Moves.refl _
  · refine Moves.ite (fun _ => ?_) (fun _ => ?_)
    · refine Moves.step (State.modPath_moves ..) rfl ?_
      exact Moves.refl _
    · refine Moves.ite (fun _ => ?_) (fun _ => ?_)
      · refine Moves.step (swapNow_moves ..) rfl ?_
        exact Moves.refl _
      · refine Moves.ite (fun _ => ?_) (fun _ => ?_)
        · exact Moves.refl _
        · refine Moves.step (State.modPath_moves ..) rfl ?_
          exact Moves.refl _

theorem writePctl_moves (s : State) (p : PathIx) (v : W32) : Moves [.ch, .ev, .img, .port, .conv] s (writePctl s p v) := by
  unfold writePctl
  extract_lets +onlyGivenNames x1
  have h1 : Moves [.ch, .ev, .img, .port, .conv] s x1 := by
    unfold x1
    refine Moves.ite (fun _ => ?_) (fun _ => ?_)
    · refine Moves.step (syncReset_moves ..) rfl ?_
      exact Moves.refl _
    · exact Moves.refl _
  clear_value x1
  refine Moves.ite (fun _ => ?_) (fun _ => ?_)
  · refine Moves.step (requestSwap_moves ..) rfl ?_
    assumption
  · assumption

theorem writeCoeff_moves (s : State) (p : PathIx) (bank : Bool) (t : BitVec 6) (v : W32) : Moves [.conv] s (writeCoeff s p bank t v) := by
  unfold writeCoeff
  extract_lets +onlyGivenNames x1
  clear_value x1
  refine Moves.ite (fun _ => ?_) (fun _ => ?_)
  · refine Moves.upd rfl (fun p => by cases p; (case conv => exact Or.inl ⟨rfl, fun _ h => h .conv⟩); all_goals exact Or.inr rfl) ?_
    exact Moves.refl _
  · refine Moves.ite (fun _ => ?_) (fun _ => ?_)
    · refine Moves.upd rfl (fun p => by cases p; (case conv => exact Or.inl ⟨rfl, fun _ h => h .conv⟩); all_goals exact Or.inr rfl) ?_
      exact Moves.refl _
    · refine Moves.upd rfl (fun p => by
          cases p
          case conv => exact Or.inl ⟨rfl, fun _ h => ⟨swf_swrite (h .conv).1 .., (h .conv).2⟩⟩
          all_goals exact Or.inr rfl) ?_
      exact Moves.refl _

theorem gather_moves (s : State) (p : PathIx) : Moves [.conv] s (gather s p) := by
  unfold gather
  split
  · extract_lets +onlyGivenNames x1
    clear_value x1
    refine Moves.ite (fun _ => ?_) (fun _ => ?_)
    · exact Moves.refl _
    · extract_lets +onlyGivenNames x2
      clear_value x2
      refine Moves.upd rfl (fun p => by cases p; (case conv => exact Or.inl ⟨rfl, fun _ h => h .conv⟩); all_goals exact Or.inr rfl) ?_
      exact Moves.refl _
  · exact Moves.refl _

/-! ## Loops -/

theorem loopR_moves (s : State) (uv : ℤ) (i : ℕ) : Moves [.free] s (loopR s uv i).2 := by
  unfold loopR
  split
  · dsimp -zeta only
    refine Moves.step (State.draw_moves ..) rfl ?_
    exact Moves.refl _
  · dsimp -zeta only
    exact Moves.refl _

theorem startTxn_moves (s : State) (modem : Fin 4) (r : HartReq) (retries : ℕ)
    : Moves [.mbx, .img, .loop, .hart] s (startTxn s modem r retries) := by
  unfold startTxn
  split
  · refine Moves.step (passTimeout_moves ..) rfl ?_
    exact Moves.refl _
  · extract_lets +onlyGivenNames x1
    clear_value x1
    extract_lets +onlyGivenNames x2
    have h2 : Moves [.mbx, .img, .loop, .hart] s x2 := by
      unfold x2
      refine Moves.upd rfl (fun p => by cases p; (case hart => exact Or.inl ⟨rfl, fun _ _ => trivial⟩); all_goals exact Or.inr rfl) ?_
      exact Moves.refl _
    clear_value x2
    split
    · refine Moves.step (hartPeriods_moves ..) rfl ?_
      refine Moves.step (modDev_moves ..) rfl ?_
      assumption
    · assumption

theorem hartFail_moves (s : State) (modem : Fin 4) (t : HartTxn) (f : ChanLoop → ChanLoop)
    : Moves [.ev, .mbx, .img, .port, .loop, .hart] s (hartFail s modem t f) := by
  unfold hartFail
  extract_lets +onlyGivenNames x1
  clear_value x1
  extract_lets +onlyGivenNames x2
  have h2 : Moves [.ev, .mbx, .img, .port, .loop, .hart] s x2 := by
    unfold x2
    refine Moves.step (hartErr_moves ..) rfl ?_
    refine Moves.step (State.modLoop_moves ..) rfl ?_
    exact Moves.refl _
  clear_value x2
  refine Moves.ite (fun _ => ?_) (fun _ => ?_)
  · refine Moves.upd rfl (fun p => by cases p; (case hart => exact Or.inl ⟨rfl, fun _ _ => trivial⟩); all_goals exact Or.inr rfl) ?_
    assumption
  · refine Moves.step (hartEnd_moves ..) rfl ?_
    assumption

theorem returnBytes_moves (s : State) (i : SlotIx) (from_ : ℕ) (bs : List Byte) : Moves [.mbx] s (returnBytes s i from_ bs) := by
  unfold returnBytes
  refine Moves.foldl (fun y1 z1 => ?_) ?_
  · refine Moves.dite (fun _ => ?_) (fun _ => ?_)
    · refine Moves.ite (fun _ => ?_) (fun _ => ?_)
      · refine Moves.step (mbxReturn_moves ..) rfl ?_
        exact Moves.refl _
      · exact Moves.refl _
    · exact Moves.refl _
  · exact Moves.refl _

/-! ## GenOps -/

theorem retick_moves (s : State) (t : W64) : Moves [.tick, .clk, .m, .recov] s (retick s t) := by
  unfold retick
  extract_lets +onlyGivenNames x1
  clear_value x1
  refine Moves.upd rfl (fun p => by
      cases p
      case tick | clk | m => exact Or.inl ⟨rfl, fun _ _ => trivial⟩
      case recov => exact Or.inl ⟨rfl, fun _ h => h .recov⟩
      all_goals exact Or.inr rfl) ?_
  exact Moves.refl _

theorem raiseVersion_moves (s : State) (bit : ℕ) : Moves [.ev, .port] s (raiseVersion s bit) := by
  unfold raiseVersion
  refine Moves.step (raise_moves ..) rfl ?_
  exact Moves.refl _

theorem jApply_moves (m : Medium) (s : State) (x : ℕ × Byte × Byte × Byte × Byte × W32) : Moves [.ch, .conv] s (jApply m s x) := by
  unfold jApply
  extract_lets +onlyGivenNames x1
  clear_value x1
  extract_lets +onlyGivenNames x2
  clear_value x2
  extract_lets +onlyGivenNames x3
  clear_value x3
  extract_lets +onlyGivenNames x4
  clear_value x4
  extract_lets +onlyGivenNames x5
  clear_value x5
  extract_lets +onlyGivenNames x6
  clear_value x6
  refine Moves.ite (fun _ => ?_) (fun _ => ?_)
  · extract_lets +onlyGivenNames x7
    clear_value x7
    extract_lets +onlyGivenNames x8
    clear_value x8
    refine Moves.upd rfl (fun p => by cases p; (case conv => exact Or.inl ⟨rfl, fun _ h => h .conv⟩); all_goals exact Or.inr rfl) ?_
    exact Moves.refl _
  · refine Moves.ite (fun _ => ?_) (fun _ => ?_)
    · refine Moves.step (State.modCh_moves ..) rfl ?_
      exact Moves.refl _
    · refine Moves.ite (fun _ => ?_) (fun _ => ?_)
      · refine Moves.upd rfl (fun p => by cases p; (case conv => exact Or.inl ⟨rfl, fun _ h => h .conv⟩); all_goals exact Or.inr rfl) ?_
        exact Moves.refl _
      · exact Moves.refl _

theorem journalReplay_moves (s : State) : Moves [.boot, .ch, .conv] s (journalReplay s) := by
  unfold journalReplay
  extract_lets +onlyGivenNames x1
  clear_value x1
  extract_lets +onlyGivenNames x2
  clear_value x2
  extract_lets +onlyGivenNames x3
  extract_lets +onlyGivenNames x4
  have h4 : Moves [.boot, .ch, .conv] s x4 := by
    unfold x4
    refine Moves.foldl (fun y5 z5 => ?_) ?_
    · refine Moves.step (jApply_moves ..) rfl ?_
      exact Moves.refl _
    · refine Moves.upd rfl (fun p => by cases p; (case conv => exact Or.inl ⟨rfl, fun _ h => h .conv⟩); all_goals exact Or.inr rfl) ?_
      exact Moves.refl _
  clear_value x4
  split
  · refine Moves.upd rfl (fun p => by cases p; (case boot => exact Or.inl ⟨rfl, fun _ _ => trivial⟩); all_goals exact Or.inr rfl) ?_
    assumption
  · refine Moves.upd rfl (fun p => by cases p; (case boot => exact Or.inl ⟨rfl, fun _ _ => trivial⟩); all_goals exact Or.inr rfl) ?_
    assumption

theorem applyEvents_moves (s : State) (g : Generation) : Moves [.ev] s (applyEvents s g) := by
  unfold applyEvents
  refine Moves.upd rfl (fun p => by
      cases p
      case ev => exact Or.inl ⟨rfl, fun _ h => by have k := h .ev; unfold Part.sound at k ⊢; exact k⟩
      all_goals exact Or.inr rfl) ?_
  exact Moves.refl _

theorem openPorts_moves (s : State) : Moves [.ch, .ev, .img, .port, .wheel, .rul] s (openPorts s) := by
  unfold openPorts
  refine Moves.foldl (fun y1 z1 => ?_) ?_
  · refine Moves.ite (fun _ => ?_) (fun _ => ?_)
    · refine Moves.step (portLeave_moves ..) rfl ?_
      exact Moves.refl _
    · refine Moves.ite (fun _ => ?_) (fun _ => ?_)
      · refine Moves.step (setPortState_moves ..) rfl ?_
        exact Moves.refl _
      · exact Moves.refl _
  · exact Moves.refl _

theorem applyKinds_moves (s : State) (g : Generation) : Moves [.ch] s (applyKinds s g) := by
  unfold applyKinds
  refine Moves.upd rfl (fun p => by cases p; (case ch => exact Or.inl ⟨rfl, fun _ _ => trivial⟩); all_goals exact Or.inr rfl) ?_
  exact Moves.refl _

theorem applyFilter_moves (s : State) (g : Generation) : Moves [.conv] s (applyFilter s g) := by
  unfold applyFilter
  refine Moves.upd rfl (fun p => by
      cases p
      case conv => exact Or.inl ⟨rfl, fun _ h => ⟨genCells_ok _, (h .conv).2⟩⟩
      all_goals exact Or.inr rfl) ?_
  exact Moves.refl _

theorem readChan_moves (s : State) (n : Chan) : Moves [.ch] s (readChan s n) := by
  unfold readChan
  extract_lets +onlyGivenNames x1
  clear_value x1
  refine Moves.step (State.modCh_moves ..) rfl ?_
  exact Moves.refl _

theorem adoptChan_moves (s : State) (n : Chan) : Moves [.ch] s (adoptChan s n) := by
  unfold adoptChan
  extract_lets +onlyGivenNames x1
  clear_value x1
  refine Moves.step (State.modCh_moves ..) rfl ?_
  exact Moves.refl _

theorem adoptCommands_moves (s : State) : Moves [.ch, .img, .loop] s (adoptCommands s) := by
  unfold adoptCommands
  refine Moves.foldl (fun y1 z1 => ?_) ?_
  · extract_lets +onlyGivenNames x2
    clear_value x2
    extract_lets +onlyGivenNames x3
    have h3 : ∀ w3_0 w3_1 w3_2, Moves [.ch, .img, .loop] w3_0 (x3 w3_0 w3_1 w3_2) := fun w3_0 w3_1 w3_2 => by
      unfold x3
      refine Moves.upd rfl (fun p => by
          cases p
          case img => exact Or.inl ⟨rfl, fun _ h => ⟨⟨swf_swrite (h .img).1.1 .., (h .img).1.2⟩, (h .img).2⟩⟩
          all_goals exact Or.inr rfl) ?_
      exact Moves.refl _
    clear_value x3
    refine Moves.ite (fun _ => ?_) (fun _ => ?_)
    · refine Moves.step (State.modCh_moves ..) rfl ?_
      refine Moves.step (h3 ..) (covers_refl _) ?_
      exact Moves.refl _
    · refine Moves.ite (fun _ => ?_) (fun _ => ?_)
      · extract_lets +onlyGivenNames x4
        have h4 : Moves [.ch, .img, .loop] y1 x4 := by
          unfold x4
          refine Moves.step (State.modLoop_moves ..) rfl ?_
          exact Moves.refl _
        clear_value x4
        refine Moves.step (h3 ..) (covers_refl _) ?_
        refine Moves.step (h3 ..) (covers_refl _) ?_
        assumption
      · exact Moves.refl _
  · exact Moves.refl _

theorem restoreCheckpoint_moves (s : State) (g : Generation) (sealed : Bool) (adopted : Bool)
    : Moves [.m, .ch, .rul] s (restoreCheckpoint s g sealed adopted) := by
  unfold restoreCheckpoint
  split
  · refine Moves.ite (fun _ => ?_) (fun _ => ?_)
    · extract_lets +onlyGivenNames x1
      clear_value x1
      extract_lets +onlyGivenNames x2
      clear_value x2
      extract_lets +onlyGivenNames x3
      have h3 : Moves [.m, .ch, .rul] s x3 := by
        unfold x3
        refine Moves.upd rfl (fun p => by cases p; (case m | rul => exact Or.inl ⟨rfl, fun _ _ => trivial⟩); all_goals exact Or.inr rfl) ?_
        exact Moves.refl _
      clear_value x3
      refine Moves.ite (fun _ => ?_) (fun _ => ?_)
      · refine Moves.upd rfl (fun p => by cases p; (case ch => exact Or.inl ⟨rfl, fun _ _ => trivial⟩); all_goals exact Or.inr rfl) ?_
        assumption
      · assumption
    · exact Moves.refl _
  · exact Moves.refl _

theorem flushLog_moves (s : State) : Moves [.ev, .flash] s (flushLog s) := by
  unfold flushLog
  refine Moves.ite (fun _ => ?_) (fun _ => ?_)
  · exact Moves.refl _
  · extract_lets +onlyGivenNames x1
    extract_lets +onlyGivenNames x2
    extract_lets +onlyGivenNames x3
    refine Moves.upd rfl (fun p => by
        cases p
        case ev => exact Or.inl ⟨rfl, fun _ h => by have k := h .ev; unfold Part.sound at k ⊢; exact lossRecord_ok (e := x3) ⟨k.1, Nat.zero_le _⟩ ..⟩
        case flash => exact Or.inl ⟨rfl, fun _ h => logProgram_ok _ (h .flash) _⟩
        all_goals exact Or.inr rfl) ?_
    exact Moves.refl _

/-! ## ResetOps -/

theorem logicReset_moves (s : State) (cause : BitVec 3) (wd : BitVec 3)
    : Moves (partsBut [.pending, .free, .tick, .flash, .mirror, .otp]) s (logicReset s cause wd) := by
  have e (h : RouterOk s.ev) : RouterOk (eventsAfter s cause) := by
    unfold eventsAfter
    repeat' split
    all_goals first | exact ⟨Nat.zero_le _, Nat.zero_le _⟩ | exact ⟨Nat.zero_le _, h.2⟩
  have r : swf stagingEmpty (recovAfter s cause wd).staging = true ∧ swf stagingEmpty (recovAfter s cause wd).slotImage = true := by
    unfold recovAfter
    split <;> exact ⟨rfl, rfl⟩
  unfold logicReset
  refine Moves.upd (t := s) rfl (fun p => ?_) (Moves.refl _)
  cases p
  case pending | free | tick | flash | mirror | otp => exact Or.inr rfl
  case mem => exact Or.inl ⟨rfl, fun _ _ => ⟨rfl, Nat.zero_le _⟩⟩
  case img => exact Or.inl ⟨rfl, fun _ _ => ⟨⟨rfl, rfl, rfl⟩, fun _ x => (List.not_mem_nil x).elim, Nat.zero_le _, Nat.zero_le _⟩⟩
  case recov => exact Or.inl ⟨rfl, fun _ _ => r⟩
  case conv => exact Or.inl ⟨rfl, fun _ _ => ⟨rfl, rfl⟩⟩
  case held => exact Or.inl ⟨rfl, fun _ _ => Nat.zero_le _⟩
  case ev => exact Or.inl ⟨rfl, fun _ h => e (h .ev)⟩
  case triad =>
    refine Or.inl ⟨rfl, fun _ h => ?_⟩
    unfold Part.sound
    dsimp only
    split
    · exact ⟨⟨rfl, rfl⟩, Nat.zero_le _⟩
    · exact ⟨⟨(h .triad).1.1, rfl⟩, Nat.zero_le _⟩
  all_goals exact Or.inl ⟨rfl, fun _ _ => trivial⟩

theorem startLog_moves (s : State) : Moves [.ev] s (startLog s) := by
  unfold startLog
  extract_lets +onlyGivenNames x1
  clear_value x1
  extract_lets +onlyGivenNames x2
  clear_value x2
  extract_lets +onlyGivenNames x3
  extract_lets +onlyGivenNames x4
  refine Moves.upd rfl (fun p => by
      cases p
      case ev => exact Or.inl ⟨rfl, fun _ h => by have k := h .ev; unfold Part.sound at k ⊢; exact logPut_ok (e := x4) ⟨k.1, k.2⟩ ..⟩
      all_goals exact Or.inr rfl) ?_
  exact Moves.refl _

end Sys2Proof.Machine
end

