-- ==== Sys2Proof/Laws/MovesSys.lean ====
section
/-!
SUPPORT. Start, configuration, mailbox, recovery, the memory and host ports and the link: what each operation can change, and that it keeps a sound state sound.
-/
namespace Sys2Proof.Machine

/-! ## Start -/

theorem endInLoad_moves (s : State) (cause : Option Byte) : Moves [.m, .bw] s (endInLoad s cause) := by
  unfold endInLoad
  extract_lets +onlyGivenNames x1
  clear_value x1
  extract_lets +onlyGivenNames x2
  have h2 : Moves [.m, .bw] s x2 := by
    unfold x2
    refine Moves.upd rfl (fun p => by cases p; (case m => exact Or.inl ⟨rfl, fun _ _ => trivial⟩); all_goals exact Or.inr rfl) ?_
    exact Moves.refl _
  clear_value x2
  refine Moves.ite (fun _ => ?_) (fun _ => ?_)
  · refine Moves.step (bwSend_moves ..) rfl ?_
    refine Moves.upd rfl (fun p => by cases p; (case m => exact Or.inl ⟨rfl, fun _ _ => trivial⟩); all_goals exact Or.inr rfl) ?_
    assumption
  · assumption

theorem recordCopies_moves (s : State) (x : Selection) : Moves [.boot] s (recordCopies s x) := by
  unfold recordCopies
  refine Moves.upd rfl (fun p => by cases p; (case boot => exact Or.inl ⟨rfl, fun _ _ => trivial⟩); all_goals exact Or.inr rfl) ?_
  exact Moves.refl _

theorem startNoUcode_moves (s : State) (h : SlotHeader) : Moves [.m, .boot, .bw, .ev, .port] s (startNoUcode s h) := by
  unfold startNoUcode
  extract_lets +onlyGivenNames x1
  clear_value x1
  extract_lets +onlyGivenNames x2
  clear_value x2
  extract_lets +onlyGivenNames x3
  clear_value x3
  extract_lets +onlyGivenNames x4
  have h4 : Moves [.m, .boot, .bw, .ev, .port] s x4 := by
    unfold x4
    refine Moves.step (recordCopies_moves ..) rfl ?_
    refine Moves.upd rfl (fun p => by cases p; (case boot => exact Or.inl ⟨rfl, fun _ _ => trivial⟩); all_goals exact Or.inr rfl) ?_
    exact Moves.refl _
  clear_value x4
  refine Moves.step (endInLoad_moves ..) rfl ?_
  refine Moves.step (raise_moves ..) rfl ?_
  assumption

theorem takeUcode_moves (s : State) (slot : Bool) (fb : Bool) (u : SlotHeader)
    : Moves [.free, .m, .boot, .fd] s (takeUcode s slot fb u) := by
  unfold takeUcode
  extract_lets +onlyGivenNames x1
  clear_value x1
  extract_lets +onlyGivenNames x2
  clear_value x2
  extract_lets +onlyGivenNames x3
  have h3 : Moves [.free, .m, .boot, .fd] s x3 := by
    unfold x3
    refine Moves.upd rfl (fun p => by cases p; (case m | boot => exact Or.inl ⟨rfl, fun _ _ => trivial⟩); all_goals exact Or.inr rfl) ?_
    exact Moves.refl _
  clear_value x3
  extract_lets +onlyGivenNames x4
  clear_value x4
  refine Moves.ite (fun _ => ?_) (fun _ => ?_)
  · assumption
  · extract_lets +onlyGivenNames x5
    clear_value x5
    extract_lets +onlyGivenNames x6
    clear_value x6
    extract_lets +onlyGivenNames x7
    have h7 : Moves [.free, .m, .boot, .fd] s x7 := by
      unfold x7
      refine Moves.ite (fun _ => ?_) (fun _ => ?_)
      · refine Moves.step (applySafeAll_moves ..) rfl ?_
        refine Moves.upd rfl (fun p => by cases p; (case m | fd => exact Or.inl ⟨rfl, fun _ _ => trivial⟩); all_goals exact Or.inr rfl) ?_
        assumption
      · assumption
    clear_value x7
    refine Moves.upd rfl (fun p => by cases p; (case fd => exact Or.inl ⟨rfl, fun _ _ => trivial⟩); all_goals exact Or.inr rfl) ?_
    assumption

theorem refuseAdopt_moves (s : State) (g : Generation) : Moves [.free, .m, .fd, .ev, .port] s (refuseAdopt s g) := by
  unfold refuseAdopt
  refine Moves.ite (fun _ => ?_) (fun _ => ?_)
  · exact Moves.refl _
  · refine Moves.ite (fun _ => ?_) (fun _ => ?_)
    · refine Moves.upd rfl (fun p => by cases p; (case m => exact Or.inl ⟨rfl, fun _ _ => trivial⟩); all_goals exact Or.inr rfl) ?_
      exact Moves.refl _
    · refine Moves.ite (fun _ => ?_) (fun _ => ?_)
      · refine Moves.upd rfl (fun p => by cases p; (case m => exact Or.inl ⟨rfl, fun _ _ => trivial⟩); all_goals exact Or.inr rfl) ?_
        exact Moves.refl _
      · refine Moves.ite (fun _ => ?_) (fun _ => ?_)
        · refine Moves.upd rfl (fun p => by cases p; (case m => exact Or.inl ⟨rfl, fun _ _ => trivial⟩); all_goals exact Or.inr rfl) ?_
          exact Moves.refl _
        · extract_lets +onlyGivenNames x1
          clear_value x1
          extract_lets +onlyGivenNames x2
          clear_value x2
          extract_lets +onlyGivenNames x3
          have h3 : Moves [.free, .m, .fd, .ev, .port] s x3 := by
            unfold x3
            refine Moves.step (applySafeAll_moves ..) rfl ?_
            refine Moves.upd rfl (fun p => by
                cases p
                case m | fd => exact Or.inl ⟨rfl, fun _ _ => trivial⟩
                all_goals exact Or.inr rfl) ?_
            exact Moves.refl _
          clear_value x3
          refine Moves.ite (fun _ => ?_) (fun _ => ?_)
          · assumption
          · refine Moves.step (raise_moves ..) rfl ?_
            assumption

theorem takeGeneration_moves (s : State) (g : Generation)
    : Moves [.clk, .boot, .ch, .ev, .img, .port, .conv, .wheel, .rul] s (takeGeneration s g) := by
  unfold takeGeneration
  extract_lets +onlyGivenNames x1
  have h1 : Moves [.clk, .boot, .ch, .ev, .img, .port, .conv, .wheel, .rul] s x1 := by
    unfold x1
    refine Moves.step (applyFilter_moves ..) rfl ?_
    refine Moves.step (applyKinds_moves ..) rfl ?_
    refine Moves.step (applyEvents_moves ..) rfl ?_
    exact Moves.refl _
  clear_value x1
  extract_lets +onlyGivenNames x2
  clear_value x2
  extract_lets +onlyGivenNames x3
  clear_value x3
  extract_lets +onlyGivenNames x4
  clear_value x4
  extract_lets +onlyGivenNames x5
  have h5 : Moves [.clk, .boot, .ch, .ev, .img, .port, .conv, .wheel, .rul] s x5 := by
    unfold x5
    refine Moves.upd rfl (fun p => by
        cases p
        case clk | boot | rul => exact Or.inl ⟨rfl, fun _ _ => trivial⟩
        all_goals exact Or.inr rfl) ?_
    assumption
  clear_value x5
  refine Moves.step (entriesInit_moves ..) rfl ?_
  refine Moves.step (openPorts_moves ..) rfl ?_
  refine Moves.step (rulesReset_moves ..) rfl ?_
  assumption

theorem startDie_moves (s : State) (g : Generation)
    : Moves [.free, .tick, .clk, .m, .boot, .recov, .fd, .ch, .ev, .img, .port, .conv, .loop] s (startDie s g) := by
  unfold startDie
  refine Moves.ite (fun _ => ?_) (fun _ => ?_)
  · extract_lets +onlyGivenNames x1
    have h1 : Moves [.free, .tick, .clk, .m, .boot, .recov, .fd, .ch, .ev, .img, .port, .conv, .loop] s x1 := by
      unfold x1
      refine Moves.step (retick_moves ..) rfl ?_
      refine Moves.step (leaveSlack_moves ..) rfl ?_
      exact Moves.refl _
    clear_value x1
    refine Moves.upd rfl (fun p => by cases p; (case m | boot => exact Or.inl ⟨rfl, fun _ _ => trivial⟩); all_goals exact Or.inr rfl) ?_
    assumption
  · refine Moves.step (configureFresh_moves ..) rfl ?_
    refine Moves.step (refuseAdopt_moves ..) rfl ?_
    exact Moves.refl _

theorem startField_moves (s : State) (g : Generation) (sealed : Bool)
    : Moves [.free, .tick, .clk, .m, .boot, .recov, .fd, .ch, .ev, .img, .port, .conv, .loop, .wheel, .rul] s (startField s g sealed) := by
  unfold startField
  extract_lets +onlyGivenNames x1
  clear_value x1
  extract_lets +onlyGivenNames x3
  have h3 : Moves [.free, .tick, .clk, .m, .boot, .recov, .fd, .ch, .ev, .img, .port, .conv, .loop, .wheel, .rul] s x3 := Moves.step (restoreCheckpoint_moves ..) rfl (Moves.step (takeGeneration_moves ..) rfl ((startDie_moves ..).widen rfl))
  clear_value x3
  extract_lets +onlyGivenNames x4
  have h4 : Moves [.free, .tick, .clk, .m, .boot, .recov, .fd, .ch, .ev, .img, .port, .conv, .loop, .wheel, .rul] s x4 := by
    unfold x4
    exact Moves.ite (fun _ => Moves.foldl (fun a n => (adoptChan_moves a n).widen rfl) h3) (fun _ => h3)
  clear_value x4
  extract_lets +onlyGivenNames x5
  have h5 : Moves [.free, .tick, .clk, .m, .boot, .recov, .fd, .ch, .ev, .img, .port, .conv, .loop, .wheel, .rul] s x5 :=
    Moves.foldl (fun a n => Moves.step (putDir_moves ..) rfl ((putNoSig_moves a n).widen rfl))
      (Moves.foldl (fun a n => (readChan_moves a n).widen rfl) h4)
  clear_value x5
  extract_lets +onlyGivenNames y6
  extract_lets +onlyGivenNames x6
  have k : Moves [.free, .tick, .clk, .m, .boot, .recov, .fd, .ch, .ev, .img, .port, .conv, .loop, .wheel, .rul] x5 { y6 with ev := x5.ev } := by
    refine Moves.upd rfl (fun p => by cases p; (case ev => exact Or.inl ⟨rfl, fun h0 _ => h0 .ev⟩); all_goals exact Or.inr rfl) ?_
    exact (resetAllPaths_moves x5).widen rfl
  have h6 : Moves [.free, .tick, .clk, .m, .boot, .recov, .fd, .ch, .ev, .img, .port, .conv, .loop, .wheel, .rul] s x6 := Moves.step (initLocal_moves ..) rfl (Moves.step k (covers_refl _) h5)
  clear_value x6
  extract_lets +onlyGivenNames x7
  have h7 : Moves [.free, .tick, .clk, .m, .boot, .recov, .fd, .ch, .ev, .img, .port, .conv, .loop, .wheel, .rul] s x7 := by
    unfold x7
    exact Moves.ite (fun _ => Moves.step (adoptCommands_moves ..) rfl h6) (fun _ => h6)
  clear_value x7
  refine Moves.upd rfl (fun p => by cases p; (case m => exact Or.inl ⟨rfl, fun _ _ => trivial⟩); all_goals exact Or.inr rfl) ?_
  exact h7

theorem requestPcyc_moves (s : State) : Moves [.recov, .ev, .flash] s (requestPcyc s) := by
  unfold requestPcyc
  refine Moves.ite (fun _ => ?_) (fun _ => ?_)
  · exact Moves.refl _
  · refine Moves.step (flushLog_moves ..) rfl ?_
    refine Moves.upd rfl (fun p => by cases p; (case recov => exact Or.inl ⟨rfl, fun _ h => h .recov⟩); all_goals exact Or.inr rfl) ?_
    exact Moves.refl _

theorem startMode_moves (s : State)
    : Moves (partsBut [.pending, .free, .tick, .straps, .clk, .boot, .held, .mirror, .otp, .hart, .gov, .time, .host, .mem, .chk, .enrol]) s (startMode s) := by
  unfold startMode
  extract_lets +onlyGivenNames x1
  clear_value x1
  extract_lets +onlyGivenNames x2
  extract_lets +onlyGivenNames x3
  have h3 : Moves (partsBut [.pending, .free, .tick, .straps, .clk, .boot, .held, .mirror, .otp, .hart, .gov, .time, .host, .mem, .chk, .enrol]) s x3 := by
    unfold x3
    refine Moves.upd rfl (fun p => by
        cases p
        case m => exact Or.inl ⟨rfl, fun _ _ => trivial⟩
        case recov => exact Or.inl ⟨rfl, fun _ h => h .recov⟩
        all_goals exact Or.inr rfl) ?_
    exact Moves.refl _
  clear_value x3
  refine Moves.ite (fun _ => ?_) (fun _ => ?_)
  · extract_lets +onlyGivenNames x4
    clear_value x4
    extract_lets +onlyGivenNames x5
    extract_lets +onlyGivenNames x6
    have h6 : Moves (partsBut [.pending, .free, .tick, .straps, .clk, .boot, .held, .mirror, .otp, .hart, .gov, .time, .host, .mem, .chk, .enrol]) s x6 := by
      unfold x6
      refine Moves.upd rfl (fun p => by
          cases p
          case m => exact Or.inl ⟨rfl, fun _ _ => trivial⟩
          case recov => exact Or.inl ⟨rfl, fun _ h => h .recov⟩
          all_goals exact Or.inr rfl) ?_
      assumption
    clear_value x6
    refine Moves.step (requestPcyc_moves ..) rfl ?_
    refine Moves.step (countSafe_moves ..) rfl ?_
    refine Moves.step (commandSafeAll_moves ..) rfl ?_
    refine Moves.step (setMode_moves ..) rfl ?_
    refine Moves.step (markSafe_moves ..) rfl ?_
    assumption
  · refine Moves.ite (fun _ => ?_) (fun _ => ?_)
    · refine Moves.step (arm_moves ..) rfl ?_
      refine Moves.step (commandSafeAll_moves ..) rfl ?_
      refine Moves.step (setMode_moves ..) rfl ?_
      assumption
    · refine Moves.step (setMode_moves ..) rfl ?_
      assumption

theorem startService_moves (s : State) (g : Generation) (x : StartMeasure)
    : Moves (partsBut [.pending, .straps, .held, .mirror, .otp, .hart, .gov, .time, .host, .chk, .enrol]) s (startService s g x) := by
  unfold startService
  refine Moves.ite (fun _ => ?_) (fun _ => ?_)
  · refine Moves.step (endInLoad_moves ..) rfl ?_
    refine Moves.step (raisePower_moves ..) rfl ?_
    exact Moves.refl _
  · extract_lets +onlyGivenNames x1
    have h1 : Moves (partsBut [.pending, .straps, .held, .mirror, .otp, .hart, .gov, .time, .host, .chk, .enrol]) s x1 := by
      unfold x1
      refine Moves.step (startField_moves ..) rfl ?_
      exact Moves.refl _
    clear_value x1
    extract_lets +onlyGivenNames x2
    have h2 : Moves (partsBut [.pending, .straps, .held, .mirror, .otp, .hart, .gov, .time, .host, .chk, .enrol]) s x2 := by
      unfold x2
      refine Moves.step (wheelsStart_moves ..) rfl ?_
      assumption
    clear_value x2
    refine Moves.step (startMode_moves ..) rfl ?_
    refine Moves.upd rfl (fun p => by
        cases p
        case m => exact Or.inl ⟨rfl, fun _ _ => trivial⟩
        case mem => exact Or.inl ⟨rfl, fun _ h => h .mem⟩
        all_goals exact Or.inr rfl) ?_
    assumption

theorem startCopy_moves (s : State) (c : CopyId) (older : Bool) (x : StartMeasure)
    : Moves (partsBut [.pending, .straps, .held, .mirror, .otp, .hart, .gov, .time, .host, .chk, .enrol]) s (startCopy s c older x) := by
  unfold startCopy
  extract_lets +onlyGivenNames x1
  clear_value x1
  extract_lets +onlyGivenNames x2
  clear_value x2
  extract_lets +onlyGivenNames x3
  clear_value x3
  extract_lets +onlyGivenNames x4
  have h4 : Moves (partsBut [.pending, .straps, .held, .mirror, .otp, .hart, .gov, .time, .host, .chk, .enrol]) s x4 := by
    unfold x4
    refine Moves.upd rfl (fun p => by cases p; (case m | boot => exact Or.inl ⟨rfl, fun _ _ => trivial⟩); all_goals exact Or.inr rfl) ?_
    exact Moves.refl _
  clear_value x4
  extract_lets +onlyGivenNames x5
  have h5 : Moves (partsBut [.pending, .straps, .held, .mirror, .otp, .hart, .gov, .time, .host, .chk, .enrol]) s x5 := by
    unfold x5
    refine Moves.step (journalReplay_moves ..) rfl ?_
    refine Moves.ite (fun _ => ?_) (fun _ => ?_)
    · refine Moves.step (raise_moves ..) rfl ?_
      assumption
    · assumption
  clear_value x5
  extract_lets +onlyGivenNames x6
  clear_value x6
  extract_lets +onlyGivenNames x7
  have h7 : Moves (partsBut [.pending, .straps, .held, .mirror, .otp, .hart, .gov, .time, .host, .chk, .enrol]) s x7 := by
    unfold x7
    refine Moves.upd rfl (fun p => by cases p; (case m => exact Or.inl ⟨rfl, fun _ _ => trivial⟩); all_goals exact Or.inr rfl) ?_
    assumption
  clear_value x7
  refine Moves.ite (fun _ => ?_) (fun _ => ?_)
  · refine Moves.step (endInLoad_moves ..) rfl ?_
    assumption
  · refine Moves.step (startService_moves ..) rfl ?_
    assumption

theorem startConfig_moves (s : State) (h : SlotHeader) (x : StartMeasure)
    : Moves (partsBut [.pending, .straps, .held, .mirror, .otp, .hart, .gov, .time, .host, .chk, .enrol]) s (startConfig s h x) := by
  unfold startConfig
  extract_lets +onlyGivenNames x1
  clear_value x1
  extract_lets +onlyGivenNames x2
  have h2 : Moves (partsBut [.pending, .straps, .held, .mirror, .otp, .hart, .gov, .time, .host, .chk, .enrol]) s x2 := by
    unfold x2
    refine Moves.step (recordCopies_moves ..) rfl ?_
    exact Moves.refl _
  clear_value x2
  split
  · refine Moves.step (startCopy_moves ..) rfl ?_
    assumption
  · refine Moves.ite (fun _ => ?_) (fun _ => ?_)
    · refine Moves.step (endInLoad_moves ..) rfl ?_
      refine Moves.step (raiseVersion_moves ..) rfl ?_
      assumption
    · refine Moves.step (endInLoad_moves ..) rfl ?_
      assumption

/-! ## Staging -/

theorem setStage_moves (s : State) (st : StageState) : Moves [.recov, .ev, .port] s (setStage s st) := by
  unfold setStage
  extract_lets +onlyGivenNames x1
  extract_lets +onlyGivenNames x2
  have h2 : Moves [.recov, .ev, .port] s x2 := by
    unfold x2
    refine Moves.upd rfl (fun p => by cases p; (case recov => exact Or.inl ⟨rfl, fun _ h => h .recov⟩); all_goals exact Or.inr rfl) ?_
    exact Moves.refl _
  clear_value x2
  refine Moves.ite (fun _ => ?_) (fun _ => ?_)
  · assumption
  · refine Moves.step (raise_moves ..) rfl ?_
    assumption

theorem runStageOpen_moves (s : State) (i : SlotIx) (tag : W16) : Moves [.recov, .mbx] s (runStageOpen s i tag) := by
  unfold runStageOpen
  refine Moves.step (mbxRun_moves (ps := [.recov, .mbx]) (hc := rfl) (hf6 := fun y1_0 => ?_) ..) (covers_refl _) ?_
  · extract_lets +onlyGivenNames x2
    clear_value x2
    refine Moves.ite (fun _ => ?_) (fun _ => ?_)
    · refine Moves.step (mbxEnd_moves ..) rfl ?_
      exact Moves.refl _
    · refine Moves.ite (fun _ => ?_) (fun _ => ?_)
      · refine Moves.step (mbxEnd_moves ..) rfl ?_
        exact Moves.refl _
      · refine Moves.ite (fun _ => ?_) (fun _ => ?_)
        · refine Moves.step (mbxEnd_moves ..) rfl ?_
          exact Moves.refl _
        · refine Moves.upd rfl (fun p => by cases p; (case recov => exact Or.inl ⟨rfl, fun _ h => h .recov⟩); all_goals exact Or.inr rfl) ?_
          exact Moves.refl _
  · exact Moves.refl _

theorem runStageAbort_moves (s : State) (i : SlotIx) (tag : W16) : Moves [.recov, .ev, .mbx, .port] s (runStageAbort s i tag) := by
  unfold runStageAbort
  refine Moves.step (mbxRun_moves (ps := [.recov, .ev, .mbx, .port]) (hc := rfl) (hf6 := fun y1_0 => ?_) ..) (covers_refl _) ?_
  · refine Moves.ite (fun _ => ?_) (fun _ => ?_)
    · refine Moves.step (mbxEnd_moves ..) rfl ?_
      exact Moves.refl _
    · refine Moves.ite (fun _ => ?_) (fun _ => ?_)
      · refine Moves.step (mbxEnd_moves ..) rfl ?_
        exact Moves.refl _
      · refine Moves.step (mbxEnd_moves ..) rfl ?_
        refine Moves.step (setStage_moves ..) rfl ?_
        exact Moves.refl _
  · exact Moves.refl _

theorem writeDesc_moves (s : State) (ucode : Bool) (slot : Bool) : Moves [.boot, .flash] s (writeDesc s ucode slot) := by
  unfold writeDesc
  split
  · exact Moves.refl _
  · extract_lets +onlyGivenNames x1
    clear_value x1
    extract_lets +onlyGivenNames x2
    clear_value x2
    refine Moves.upd rfl (fun p => by
        cases p
        case boot => exact Or.inl ⟨rfl, fun _ _ => trivial⟩
        case flash => exact Or.inl ⟨rfl, fun _ h => descFlash_ok (h .flash) ..⟩
        all_goals exact Or.inr rfl) ?_
    exact Moves.refl _

theorem eraseHeader_moves (s : State) (v1 : FlashJob) : Moves [.boot, .flash, .mirror] s (eraseHeader s v1) := by
  unfold eraseHeader
  split
  · refine Moves.upd rfl (fun p => by
        cases p
        case mirror => exact Or.inl ⟨rfl, fun _ h => eraseRange_ok (h .mirror) ..⟩
        all_goals exact Or.inr rfl) ?_
    exact Moves.refl _
  · refine Moves.upd rfl (fun p => by
        cases p
        case boot => exact Or.inl ⟨rfl, fun _ _ => trivial⟩
        case flash => exact Or.inl ⟨rfl, fun _ h => eraseRange_ok (h .flash) ..⟩
        all_goals exact Or.inr rfl) ?_
    exact Moves.refl _
  · refine Moves.upd rfl (fun p => by
        cases p
        case flash => exact Or.inl ⟨rfl, fun _ h => eraseRange_ok (h .flash) ..⟩
        all_goals exact Or.inr rfl) ?_
    exact Moves.refl _

theorem jobFail_moves (s : State) (j : FlashJob) : Moves [.boot, .recov, .ev, .mbx, .port, .flash, .mirror] s (jobFail s j) := by
  unfold jobFail
  extract_lets +onlyGivenNames x1
  clear_value x1
  extract_lets +onlyGivenNames x2
  have h2 : Moves [.boot, .recov, .ev, .mbx, .port, .flash, .mirror] s x2 := by
    unfold x2
    refine Moves.step (setStage_moves ..) rfl ?_
    refine Moves.step (eraseHeader_moves ..) rfl ?_
    refine Moves.upd rfl (fun p => by cases p; (case boot => exact Or.inl ⟨rfl, fun _ _ => trivial⟩); all_goals exact Or.inr rfl) ?_
    exact Moves.refl _
  clear_value x2
  extract_lets +onlyGivenNames x3
  have h3 : Moves [.boot, .recov, .ev, .mbx, .port, .flash, .mirror] s x3 := by
    unfold x3
    refine Moves.step (raise_moves ..) rfl ?_
    assumption
  clear_value x3
  split
  · refine Moves.step (mbxEnd_moves ..) rfl ?_
    refine Moves.upd rfl (fun p => by cases p; (case boot => exact Or.inl ⟨rfl, fun _ _ => trivial⟩); all_goals exact Or.inr rfl) ?_
    assumption
  · refine Moves.step (mbxEnd_moves ..) rfl ?_
    assumption

theorem configDone_moves (s : State) (i : SlotIx) (apply : Bool) (tag : W16) (seq : W32) (copyB : Bool)
    : Moves [.boot, .recov, .ev, .mbx, .port] s (configDone s i apply tag seq copyB) := by
  unfold configDone
  extract_lets +onlyGivenNames x1
  clear_value x1
  extract_lets +onlyGivenNames x2
  clear_value x2
  extract_lets +onlyGivenNames x3
  have h3 : Moves [.boot, .recov, .ev, .mbx, .port] s x3 := by
    unfold x3
    refine Moves.upd rfl (fun p => by cases p; (case boot => exact Or.inl ⟨rfl, fun _ _ => trivial⟩); all_goals exact Or.inr rfl) ?_
    exact Moves.refl _
  clear_value x3
  refine Moves.step (mbxReturn_moves ..) rfl ?_
  refine Moves.step (mbxEnd_moves ..) rfl ?_
  refine Moves.step (setStage_moves ..) rfl ?_
  assumption

theorem imageDone_moves (s : State) (i : SlotIx) (tag : W16) (ucode : Bool) (target : Bool)
    : Moves [.boot, .recov, .ev, .mbx, .port, .flash] s (imageDone s i tag ucode target) := by
  unfold imageDone
  extract_lets +onlyGivenNames x1
  clear_value x1
  extract_lets +onlyGivenNames x2
  have h2 : Moves [.boot, .recov, .ev, .mbx, .port, .flash] s x2 := by
    unfold x2
    refine Moves.upd rfl (fun p => by cases p; (case boot => exact Or.inl ⟨rfl, fun _ _ => trivial⟩); all_goals exact Or.inr rfl) ?_
    exact Moves.refl _
  clear_value x2
  extract_lets +onlyGivenNames x3
  extract_lets +onlyGivenNames x4
  have h4 : Moves [.boot, .recov, .ev, .mbx, .port, .flash] s x4 := by
    unfold x4
    refine Moves.ite (fun _ => ?_) (fun _ => ?_)
    · refine Moves.step (setStage_moves ..) rfl ?_
      refine Moves.step (writeDesc_moves ..) rfl ?_
      assumption
    · refine Moves.step (setStage_moves ..) rfl ?_
      refine Moves.upd rfl (fun p => by cases p; (case recov => exact Or.inl ⟨rfl, fun _ h => h .recov⟩); all_goals exact Or.inr rfl) ?_
      assumption
  clear_value x4
  refine Moves.step (mbxEnd_moves ..) rfl ?_
  assumption

theorem copyDone_moves (s : State) (i : SlotIx) (apply : Bool) (tag : W16) (seq : W32) (copyB : Bool)
    : Moves [.boot, .recov, .ev, .mbx, .port, .mirror] s (copyDone s i apply tag seq copyB) := by
  unfold copyDone
  refine Moves.ite (fun _ => ?_) (fun _ => ?_)
  · refine Moves.upd rfl (fun p => by
        cases p
        case boot => exact Or.inl ⟨rfl, fun _ _ => trivial⟩
        case mirror => exact Or.inl ⟨rfl, fun _ h => eraseRange_ok (h .mirror) ..⟩
        all_goals exact Or.inr rfl) ?_
    exact Moves.refl _
  · refine Moves.step (configDone_moves ..) rfl ?_
    exact Moves.refl _

theorem jobEnd_moves (s : State) (j : FlashJob) (ok : Bool)
    : Moves [.boot, .recov, .ev, .mbx, .port, .flash, .mirror] s (jobEnd s j ok) := by
  unfold jobEnd
  refine Moves.ite (fun _ => ?_) (fun _ => ?_)
  · refine Moves.step (jobFail_moves ..) rfl ?_
    exact Moves.refl _
  · split
    · refine Moves.step (configDone_moves ..) rfl ?_
      exact Moves.refl _
    · refine Moves.step (copyDone_moves ..) rfl ?_
      exact Moves.refl _
    · refine Moves.upd rfl (fun p => by
          cases p
          case boot => exact Or.inl ⟨rfl, fun _ _ => trivial⟩
          case mirror => exact Or.inl ⟨rfl, fun _ h => stepFlash_ok (h .mirror) ..⟩
          all_goals exact Or.inr rfl) ?_
      exact Moves.refl _
    · refine Moves.upd rfl (fun p => by
          cases p
          case boot => exact Or.inl ⟨rfl, fun _ _ => trivial⟩
          case flash => exact Or.inl ⟨rfl, fun _ h => stepFlash_ok (h .flash) ..⟩
          all_goals exact Or.inr rfl) ?_
      exact Moves.refl _
    · refine Moves.step (imageDone_moves ..) rfl ?_
      exact Moves.refl _
    · extract_lets +onlyGivenNames x1
      clear_value x1
      refine Moves.upd rfl (fun p => by
          cases p
          case boot => exact Or.inl ⟨rfl, fun _ _ => trivial⟩
          case flash => exact Or.inl ⟨rfl, fun _ h => stepFlash_ok (h .flash) ..⟩
          all_goals exact Or.inr rfl) ?_
      exact Moves.refl _

theorem runWriteConfig_moves (s : State) (i : SlotIx) (tag : W16)
    : Moves [.free, .boot, .recov, .ev, .mbx, .port, .flash] s (runWriteConfig s i tag) := by
  unfold runWriteConfig
  refine Moves.step (mbxRun_moves (ps := [.free, .boot, .recov, .ev, .mbx, .port, .flash]) (hc := rfl) (hf6 := fun y1_0 => ?_) ..) (covers_refl _) ?_
  · extract_lets +onlyGivenNames x2
    clear_value x2
    refine Moves.ite (fun _ => ?_) (fun _ => ?_)
    · refine Moves.step (mbxEnd_moves ..) rfl ?_
      exact Moves.refl _
    · refine Moves.ite (fun _ => ?_) (fun _ => ?_)
      · refine Moves.step (mbxEndFree_moves ..) rfl ?_
        exact Moves.refl _
      · refine Moves.ite (fun _ => ?_) (fun _ => ?_)
        · refine Moves.step (mbxEnd_moves ..) rfl ?_
          exact Moves.refl _
        · split
          · refine Moves.step (mbxEnd_moves ..) rfl ?_
            exact Moves.refl _
          · refine Moves.step (mbxEnd_moves ..) rfl ?_
            exact Moves.refl _
          · refine Moves.ite (fun _ => ?_) (fun _ => ?_)
            · refine Moves.step (mbxEnd_moves ..) rfl ?_
              refine Moves.step (raiseVersion_moves ..) rfl ?_
              exact Moves.refl _
            · extract_lets +onlyGivenNames x3
              clear_value x3
              extract_lets +onlyGivenNames x4
              clear_value x4
              extract_lets +onlyGivenNames x5
              clear_value x5
              extract_lets +onlyGivenNames x6
              have h6 : Moves [.free, .boot, .recov, .ev, .mbx, .port, .flash] y1_0 x6 := by
                unfold x6
                refine Moves.upd rfl (fun p => by
                    cases p
                    case boot => exact Or.inl ⟨rfl, fun _ _ => trivial⟩
                    case flash => exact Or.inl ⟨rfl, fun _ h => eraseRange_ok (h .flash) ..⟩
                    all_goals exact Or.inr rfl) ?_
                exact Moves.refl _
              clear_value x6
              refine Moves.step (setStage_moves ..) rfl ?_
              assumption
  · exact Moves.refl _

theorem runStageCommit_moves (s : State) (i : SlotIx) (tag : W16)
    : Moves [.free, .boot, .recov, .ev, .mbx, .port, .flash] s (runStageCommit s i tag) := by
  unfold runStageCommit
  refine Moves.step (mbxRun_moves (ps := [.free, .boot, .recov, .ev, .mbx, .port, .flash]) (hc := rfl) (hf6 := fun y1_0 => ?_) ..) (covers_refl _) ?_
  · extract_lets +onlyGivenNames x2
    clear_value x2
    refine Moves.ite (fun _ => ?_) (fun _ => ?_)
    · refine Moves.step (mbxEndFree_moves ..) rfl ?_
      exact Moves.refl _
    · refine Moves.ite (fun _ => ?_) (fun _ => ?_)
      · refine Moves.step (mbxEnd_moves ..) rfl ?_
        exact Moves.refl _
      · extract_lets +onlyGivenNames x3
        have h3 : Moves [.free, .boot, .recov, .ev, .mbx, .port, .flash] y1_0 x3 := by
          unfold x3
          refine Moves.step (setStage_moves ..) rfl ?_
          exact Moves.refl _
        clear_value x3
        split
        · refine Moves.step (mbxEnd_moves ..) rfl ?_
          refine Moves.step (setStage_moves ..) rfl ?_
          assumption
        · refine Moves.step (mbxEndFree_moves ..) rfl ?_
          refine Moves.step (setStage_moves ..) rfl ?_
          assumption
        · refine Moves.step (mbxEnd_moves ..) rfl ?_
          refine Moves.step (setStage_moves ..) rfl ?_
          refine Moves.step (raiseVersion_moves ..) rfl ?_
          assumption
        · extract_lets +onlyGivenNames x4
          clear_value x4
          refine Moves.upd rfl (fun p => by
              cases p
              case boot => exact Or.inl ⟨rfl, fun _ _ => trivial⟩
              case flash => exact Or.inl ⟨rfl, fun _ h => eraseRange_ok (h .flash) ..⟩
              all_goals exact Or.inr rfl) ?_
          assumption
  · exact Moves.refl _

/-! ## Mailbox -/

theorem runNop_moves (s : State) (i : SlotIx) (tag : W16) : Moves [.mbx] s (runNop s i tag) := by
  unfold runNop
  refine Moves.step (mbxRun_moves (ps := [.mbx]) (hc := rfl) (hf6 := fun y1_0 => ?_) ..) (covers_refl _) ?_
  · refine Moves.step (mbxEnd_moves ..) rfl ?_
    exact Moves.refl _
  · exact Moves.refl _

theorem runFence_moves (s : State) (i : SlotIx) (tag : W16) : Moves [.mbx, .img, .port] s (runFence s i tag) := by
  unfold runFence
  refine Moves.step (mbxRun_moves (ps := [.mbx, .img, .port]) (hc := rfl) (hf6 := fun y1_0 => ?_) ..) (covers_refl _) ?_
  · extract_lets +onlyGivenNames x2
    have h2 : Moves [.mbx, .img, .port] y1_0 x2.1 := by
      unfold x2
      refine Moves.step (placeFence_moves ..) rfl ?_
      exact Moves.refl _
    clear_value x2
    refine Moves.step (mbxEnd_moves ..) rfl ?_
    assumption
  · exact Moves.refl _

theorem runRequestPowerCycle_moves (s : State) (i : SlotIx) (tag : W16)
    : Moves [.recov, .ev, .mbx, .flash] s (runRequestPowerCycle s i tag) := by
  unfold runRequestPowerCycle
  refine Moves.step (mbxRun_moves (ps := [.recov, .ev, .mbx, .flash]) (hc := rfl) (hf6 := fun y1_0 => ?_) ..) (covers_refl _) ?_
  · refine Moves.step (mbxEnd_moves ..) rfl ?_
    refine Moves.step (requestPcyc_moves ..) rfl ?_
    exact Moves.refl _
  · exact Moves.refl _

theorem runRetireChannel_moves (s : State) (i : SlotIx) (tag : W16)
    : Moves [.free, .m, .triad, .bw, .ch, .ev, .mbx, .img, .port, .conv, .loop, .trim, .hart, .rul, .pins, .enrol] s (runRetireChannel s i tag) := by
  unfold runRetireChannel
  refine Moves.step (mbxRun_moves (ps := [.free, .m, .triad, .bw, .ch, .ev, .mbx, .img, .port, .conv, .loop, .trim, .hart, .rul, .pins, .enrol]) (hc := rfl) (hf6 := fun y1_0 => ?_) ..) (covers_refl _) ?_
  · extract_lets +onlyGivenNames x2
    refine Moves.ite (fun _ => ?_) (fun _ => ?_)
    · refine Moves.step (mbxEnd_moves ..) rfl ?_
      exact Moves.refl _
    · refine Moves.ite (fun _ => ?_) (fun _ => ?_)
      · refine Moves.step (mbxEnd_moves ..) rfl ?_
        exact Moves.refl _
      · refine Moves.step (mbxEnd_moves ..) rfl ?_
        refine Moves.step (retireChannel_moves ..) rfl ?_
        exact Moves.refl _
  · exact Moves.refl _

theorem freshReturn_moves (s : State) (n : Chan) : Moves [.ch] s (freshReturn s n) := by
  unfold freshReturn
  refine Moves.foldl (fun y1 z1 => ?_) ?_
  · refine Moves.step (State.modCh_moves ..) rfl ?_
    exact Moves.refl _
  · exact Moves.refl _

theorem unmapExec_moves (s : State) (n : Chan) : Moves [.ch] s (unmapExec s n).1 := by
  unfold unmapExec
  split
  · dsimp -zeta only
    refine Moves.step (State.modCh_moves ..) rfl ?_
    refine Moves.step (setCmd_moves ..) rfl ?_
    refine Moves.step (State.modCh_moves ..) rfl ?_
    exact Moves.refl _
  · dsimp -zeta only
    refine Moves.step (State.modCh_moves ..) rfl ?_
    refine Moves.step (setCmd_moves ..) rfl ?_
    refine Moves.step (State.modCh_moves ..) rfl ?_
    exact Moves.refl _
  · dsimp -zeta only
    exact Moves.refl _

theorem takeReturned_moves (s : State) (n : Chan) : Moves [.free, .ch, .ev, .img, .port, .conv, .loop, .gov] s (takeReturned s n) := by
  unfold takeReturned
  refine Moves.ite (fun _ => ?_) (fun _ => ?_)
  · refine Moves.step (noteSafe_moves ..) rfl ?_
    exact Moves.refl _
  · refine Moves.ite (fun _ => ?_) (fun _ => ?_)
    · exact Moves.refl _
    · refine Moves.ite (fun _ => ?_) (fun _ => ?_)
      · refine Moves.step (takeDO_moves ..) rfl ?_
        exact Moves.refl _
      · refine Moves.ite (fun _ => ?_) (fun _ => ?_)
        · refine Moves.step (takeAO_moves ..) rfl ?_
          exact Moves.refl _
        · exact Moves.refl _

theorem leaveReduced_moves (s : State) : Moves [.m, .triad, .ch, .ev, .img, .port, .trim, .rul, .pins] s (leaveReduced s) := by
  unfold leaveReduced
  extract_lets +onlyGivenNames x1
  have h1 : Moves [.m, .triad, .ch, .ev, .img, .port, .trim, .rul, .pins] s x1 := by
    unfold x1
    refine Moves.step (putRetired_moves ..) rfl ?_
    exact Moves.refl _
  clear_value x1
  refine Moves.ite (fun _ => ?_) (fun _ => ?_)
  · refine Moves.step (setMode_moves ..) rfl ?_
    assumption
  · assumption

theorem returnChannel_moves (s : State) (n : Chan)
    : Moves [.free, .m, .triad, .bw, .ch, .ev, .mbx, .img, .port, .conv, .loop, .trim, .gov, .rul, .pins, .enrol] s (returnChannel s n) := by
  unfold returnChannel
  extract_lets +onlyGivenNames x1
  have h1 : Moves [.free, .m, .triad, .bw, .ch, .ev, .mbx, .img, .port, .conv, .loop, .trim, .gov, .rul, .pins, .enrol] s x1.1 := by
    unfold x1
    refine Moves.step (unmapExec_moves ..) rfl ?_
    exact Moves.refl _
  clear_value x1
  extract_lets +onlyGivenNames x2
  clear_value x2
  extract_lets +onlyGivenNames x3
  have h3 : Moves [.free, .m, .triad, .bw, .ch, .ev, .mbx, .img, .port, .conv, .loop, .trim, .gov, .rul, .pins, .enrol] s x3 := by
    unfold x3
    refine Moves.step (takeReturned_moves ..) rfl ?_
    refine Moves.step (freshReturn_moves ..) rfl ?_
    assumption
  clear_value x3
  extract_lets +onlyGivenNames x4
  clear_value x4
  extract_lets +onlyGivenNames x5
  have h5 : Moves [.free, .m, .triad, .bw, .ch, .ev, .mbx, .img, .port, .conv, .loop, .trim, .gov, .rul, .pins, .enrol] s x5 := by
    unfold x5
    refine Moves.foldl (fun y6 z6 => ?_) ?_
    · refine Moves.step (resetChannel_moves ..) rfl ?_
      exact Moves.refl _
    · refine Moves.step (command_moves ..) rfl ?_
      assumption
  clear_value x5
  extract_lets +onlyGivenNames x7
  have h7 : Moves [.free, .m, .triad, .bw, .ch, .ev, .mbx, .img, .port, .conv, .loop, .trim, .gov, .rul, .pins, .enrol] s x7 := by
    unfold x7
    refine Moves.step (refreshAll_moves ..) rfl ?_
    refine Moves.step (discardAcc_moves ..) rfl ?_
    assumption
  clear_value x7
  extract_lets +onlyGivenNames x8
  clear_value x8
  refine Moves.step (leaveReduced_moves ..) rfl ?_
  refine Moves.ite (fun _ => ?_) (fun _ => ?_)
  · refine Moves.step (raise_moves ..) rfl ?_
    assumption
  · assumption

theorem runReturnChannel_moves (s : State) (i : SlotIx) (tag : W16)
    : Moves [.free, .m, .triad, .bw, .ch, .ev, .mbx, .img, .port, .conv, .loop, .trim, .gov, .rul, .pins, .enrol] s (runReturnChannel s i tag) := by
  unfold runReturnChannel
  refine Moves.step (mbxRun_moves (ps := [.free, .m, .triad, .bw, .ch, .ev, .mbx, .img, .port, .conv, .loop, .trim, .gov, .rul, .pins, .enrol]) (hc := rfl) (hf6 := fun y1_0 => ?_) ..) (covers_refl _) ?_
  · extract_lets +onlyGivenNames x2
    extract_lets +onlyGivenNames x3
    refine Moves.ite (fun _ => ?_) (fun _ => ?_)
    · refine Moves.step (mbxEnd_moves ..) rfl ?_
      exact Moves.refl _
    · refine Moves.step (mbxEnd_moves ..) rfl ?_
      refine Moves.step (returnChannel_moves ..) rfl ?_
      exact Moves.refl _
  · exact Moves.refl _

theorem runMapSpare_moves (s : State) (i : SlotIx) (tag : W16) : Moves [.ch, .mbx] s (runMapSpare s i tag) := by
  unfold runMapSpare
  refine Moves.step (mbxRun_moves (ps := [.ch, .mbx]) (hc := rfl) (hf6 := fun y1_0 => ?_) ..) (covers_refl _) ?_
  · extract_lets +onlyGivenNames x2
    extract_lets +onlyGivenNames x3
    refine Moves.ite (fun _ => ?_) (fun _ => ?_)
    · refine Moves.step (mbxEnd_moves ..) rfl ?_
      exact Moves.refl _
    · refine Moves.ite (fun _ => ?_) (fun _ => ?_)
      · refine Moves.step (mbxEnd_moves ..) rfl ?_
        exact Moves.refl _
      · refine Moves.ite (fun _ => ?_) (fun _ => ?_)
        · refine Moves.step (mbxEnd_moves ..) rfl ?_
          exact Moves.refl _
        · refine Moves.step (mbxEnd_moves ..) rfl ?_
          refine Moves.step (State.modCh_moves ..) rfl ?_
          exact Moves.refl _
  · exact Moves.refl _

theorem runTrimZero_moves (s : State) (i : SlotIx) (tag : W16)
    : Moves [.free, .ev, .mbx, .port, .conv, .trim, .pins] s (runTrimZero s i tag) := by
  unfold runTrimZero
  refine Moves.step (mbxRun_moves (ps := [.free, .ev, .mbx, .port, .conv, .trim, .pins]) (hc := rfl) (hf6 := fun y1_0 => ?_) ..) (covers_refl _) ?_
  · refine Moves.step (trimStart_moves ..) rfl ?_
    exact Moves.refl _
  · exact Moves.refl _

theorem runTrimSpan_moves (s : State) (i : SlotIx) (tag : W16)
    : Moves [.free, .ev, .mbx, .port, .conv, .trim, .pins] s (runTrimSpan s i tag) := by
  unfold runTrimSpan
  refine Moves.step (mbxRun_moves (ps := [.free, .ev, .mbx, .port, .conv, .trim, .pins]) (hc := rfl) (hf6 := fun y1_0 => ?_) ..) (covers_refl _) ?_
  · refine Moves.step (trimStart_moves ..) rfl ?_
    exact Moves.refl _
  · exact Moves.refl _

theorem runRestoreFactory_moves (s : State) (i : SlotIx) (tag : W16)
    : Moves [.boot, .ev, .mbx, .port, .flash, .conv] s (runRestoreFactory s i tag) := by
  unfold runRestoreFactory
  refine Moves.step (mbxRun_moves (ps := [.boot, .ev, .mbx, .port, .flash, .conv]) (hc := rfl) (hf6 := fun y1_0 => ?_) ..) (covers_refl _) ?_
  · extract_lets +onlyGivenNames x2
    clear_value x2
    refine Moves.ite (fun _ => ?_) (fun _ => ?_)
    · refine Moves.step (mbxEnd_moves ..) rfl ?_
      exact Moves.refl _
    · extract_lets +onlyGivenNames x3
      have h3 : Moves [.boot, .ev, .mbx, .port, .flash, .conv] y1_0 x3.1 := by
        unfold x3
        refine Moves.step (restoreFactory_moves ..) rfl ?_
        exact Moves.refl _
      clear_value x3
      refine Moves.step (mbxEnd_moves ..) rfl ?_
      refine Moves.step (mbxReturn_moves ..) rfl ?_
      assumption
  · exact Moves.refl _

theorem runEnrolSignature_moves (s : State) (i : SlotIx) (tag : W16)
    : Moves [.free, .ch, .ev, .mbx, .img, .port, .enrol] s (runEnrolSignature s i tag) := by
  unfold runEnrolSignature
  refine Moves.step (mbxRun_moves (ps := [.free, .ch, .ev, .mbx, .img, .port, .enrol]) (hc := rfl) (hf6 := fun y1_0 => ?_) ..) (covers_refl _) ?_
  · extract_lets +onlyGivenNames x2
    clear_value x2
    refine Moves.ite (fun _ => ?_) (fun _ => ?_)
    · refine Moves.step (mbxEnd_moves ..) rfl ?_
      exact Moves.refl _
    · refine Moves.ite (fun _ => ?_) (fun _ => ?_)
      · refine Moves.step (mbxEnd_moves ..) rfl ?_
        exact Moves.refl _
      · extract_lets +onlyGivenNames x3
        have h3 : Moves [.free, .ch, .ev, .mbx, .img, .port, .enrol] y1_0 x3 := by
          unfold x3
          refine Moves.step (evalLamp_moves ..) rfl ?_
          refine Moves.step (dropEst_moves ..) rfl ?_
          refine Moves.step (discardAcc_moves ..) rfl ?_
          exact Moves.refl _
        clear_value x3
        refine Moves.upd rfl (fun p => by cases p; (case enrol => exact Or.inl ⟨rfl, fun _ _ => trivial⟩); all_goals exact Or.inr rfl) ?_
        assumption
  · exact Moves.refl _

theorem recordSignature_moves (s : State) (n : Chan) (g : Signature) : Moves [.boot, .ch, .flash] s (recordSignature s n g) := by
  unfold recordSignature
  extract_lets +onlyGivenNames x1
  have h1 : Moves [.boot, .ch, .flash] s x1.1 := by
    unfold x1
    refine Moves.step (journalAppend_moves ..) rfl ?_
    exact Moves.refl _
  clear_value x1
  refine Moves.step (putNoSig_moves ..) rfl ?_
  refine Moves.step (State.modCh_moves ..) rfl ?_
  assumption

theorem runForceSafe_moves (s : State) (i : SlotIx) (tag : W16)
    : Moves [.m, .triad, .recov, .bw, .fd, .ch, .ev, .mbx, .img, .port, .conv, .loop, .trim, .wheel, .rul, .pins] s (runForceSafe s i tag) := by
  unfold runForceSafe
  refine Moves.step (mbxRun_moves (ps := [.m, .triad, .recov, .bw, .fd, .ch, .ev, .mbx, .img, .port, .conv, .loop, .trim, .wheel, .rul, .pins]) (hc := rfl) (hf6 := fun y1_0 => ?_) ..) (covers_refl _) ?_
  · refine Moves.step (mbxEnd_moves ..) rfl ?_
    refine Moves.step (enterSafe_moves ..) rfl ?_
    exact Moves.refl _
  · exact Moves.refl _

theorem beginLeaving_moves (s : State) (i : SlotIx) : Moves [.m, .mbx] s (beginLeaving s i) := by
  unfold beginLeaving
  refine Moves.ite (fun _ => ?_) (fun _ => ?_)
  · refine Moves.step (mbxEnd_moves ..) rfl ?_
    exact Moves.refl _
  · refine Moves.upd rfl (fun p => by cases p; (case m => exact Or.inl ⟨rfl, fun _ _ => trivial⟩); all_goals exact Or.inr rfl) ?_
    exact Moves.refl _

theorem runLeaveSafe_moves (s : State) (i : SlotIx) (tag : W16) : Moves [.m, .mbx] s (runLeaveSafe s i tag) := by
  unfold runLeaveSafe
  refine Moves.step (mbxRun_moves (ps := [.m, .mbx]) (hc := rfl) (hf6 := fun y1_0 => ?_) ..) (covers_refl _) ?_
  · split
    · refine Moves.step (mbxEnd_moves ..) rfl ?_
      exact Moves.refl _
    · refine Moves.step (beginLeaving_moves ..) rfl ?_
      exact Moves.refl _
  · exact Moves.refl _

theorem enterTrim_moves (s : State) (ask : Option Chan)
    : Moves [.m, .triad, .bw, .ch, .ev, .mbx, .img, .port, .conv, .loop, .trim, .rul, .pins] s (enterTrim s ask) := by
  unfold enterTrim
  extract_lets +onlyGivenNames x1
  have h1 : Moves [.m, .triad, .bw, .ch, .ev, .mbx, .img, .port, .conv, .loop, .trim, .rul, .pins] s x1 := by
    unfold x1
    refine Moves.step (refuseLeaving_moves ..) rfl ?_
    refine Moves.step (discardReduced_moves ..) rfl ?_
    exact Moves.refl _
  clear_value x1
  extract_lets +onlyGivenNames x2
  clear_value x2
  extract_lets +onlyGivenNames x3
  have h3 : Moves [.m, .triad, .bw, .ch, .ev, .mbx, .img, .port, .conv, .loop, .trim, .rul, .pins] s x3 := by
    unfold x3
    refine Moves.ite (fun _ => ?_) (fun _ => ?_)
    · refine Moves.step (markSafe_moves ..) rfl ?_
      refine Moves.upd rfl (fun p => by cases p; (case m => exact Or.inl ⟨rfl, fun _ _ => trivial⟩); all_goals exact Or.inr rfl) ?_
      assumption
    · assumption
  clear_value x3
  refine Moves.step (arm_moves ..) rfl ?_
  refine Moves.step (commandSafeAll_moves ..) rfl ?_
  refine Moves.step (setMode_moves ..) rfl ?_
  assumption

theorem runEnterTrim_moves (s : State) (i : SlotIx) (tag : W16)
    : Moves [.m, .triad, .bw, .ch, .ev, .mbx, .img, .port, .conv, .loop, .trim, .rul, .pins] s (runEnterTrim s i tag) := by
  unfold runEnterTrim
  refine Moves.step (mbxRun_moves (ps := [.m, .triad, .bw, .ch, .ev, .mbx, .img, .port, .conv, .loop, .trim, .rul, .pins]) (hc := rfl) (hf6 := fun y1_0 => ?_) ..) (covers_refl _) ?_
  · extract_lets +onlyGivenNames x2
    clear_value x2
    refine Moves.ite (fun _ => ?_) (fun _ => ?_)
    · refine Moves.step (mbxEnd_moves ..) rfl ?_
      exact Moves.refl _
    · split
      · refine Moves.step (mbxEnd_moves ..) rfl ?_
        exact Moves.refl _
      · extract_lets +onlyGivenNames x3
        have h3 : Moves [.m, .triad, .bw, .ch, .ev, .mbx, .img, .port, .conv, .loop, .trim, .rul, .pins] y1_0 x3 := by
          unfold x3
          refine Moves.step (enterTrim_moves ..) rfl ?_
          exact Moves.refl _
        clear_value x3
        refine Moves.step (mbxEnd_moves ..) rfl ?_
        refine Moves.step (mbxReturn_moves ..) rfl ?_
        assumption
  · exact Moves.refl _

theorem runLeaveTrim_moves (s : State) (i : SlotIx) (tag : W16) : Moves [.m, .mbx] s (runLeaveTrim s i tag) := by
  unfold runLeaveTrim
  refine Moves.step (mbxRun_moves (ps := [.m, .mbx]) (hc := rfl) (hf6 := fun y1_0 => ?_) ..) (covers_refl _) ?_
  · refine Moves.step (beginLeaving_moves ..) rfl ?_
    exact Moves.refl _
  · exact Moves.refl _

theorem runHartPass_moves (s : State) (i : SlotIx) (tag : W16) : Moves [.mbx, .hart] s (runHartPass s i tag) := by
  unfold runHartPass
  refine Moves.step (mbxRun_moves (ps := [.mbx, .hart]) (hc := rfl) (hf6 := fun y1_0 => ?_) ..) (covers_refl _) ?_
  · extract_lets +onlyGivenNames x2
    clear_value x2
    extract_lets +onlyGivenNames x3
    extract_lets +onlyGivenNames x4
    clear_value x4
    extract_lets +onlyGivenNames x5
    clear_value x5
    extract_lets +onlyGivenNames x6
    clear_value x6
    refine Moves.ite (fun _ => ?_) (fun _ => ?_)
    · refine Moves.step (mbxEnd_moves ..) rfl ?_
      exact Moves.refl _
    · refine Moves.ite (fun _ => ?_) (fun _ => ?_)
      · refine Moves.step (mbxEnd_moves ..) rfl ?_
        exact Moves.refl _
      · refine Moves.ite (fun _ => ?_) (fun _ => ?_)
        · refine Moves.step (mbxEnd_moves ..) rfl ?_
          exact Moves.refl _
        · refine Moves.upd rfl (fun p => by cases p; (case hart => exact Or.inl ⟨rfl, fun _ _ => trivial⟩); all_goals exact Or.inr rfl) ?_
          exact Moves.refl _
  · exact Moves.refl _

/-! ## Reinit -/

theorem hostError_moves (s : State) (code : BitVec 4) (cmd : Byte) (addr : BitVec 24)
    : Moves [.ev, .port, .host] s (hostError s code cmd addr) := by
  unfold hostError
  extract_lets +onlyGivenNames x1
  clear_value x1
  extract_lets +onlyGivenNames x2
  have h2 : Moves [.ev, .port, .host] s x2 := by
    unfold x2
    refine Moves.upd rfl (fun p => by cases p; (case host => exact Or.inl ⟨rfl, fun _ _ => trivial⟩); all_goals exact Or.inr rfl) ?_
    exact Moves.refl _
  clear_value x2
  refine Moves.step (raise_moves ..) rfl ?_
  assumption

theorem hartForget_moves (s : State) (n : Chan) : Moves [.img, .loop] s (hartForget s n) := by
  unfold hartForget
  refine Moves.step (hartSeek_moves ..) rfl ?_
  refine Moves.step (State.modLoop_moves ..) rfl ?_
  exact Moves.refl _

theorem reinitChannel_moves (s : State) (n : Chan)
    : Moves [.free, .bw, .ch, .ev, .mbx, .img, .port, .conv, .loop, .gov, .enrol] s (reinitChannel s n) := by
  unfold reinitChannel
  extract_lets +onlyGivenNames x1
  have h1 : Moves [.free, .bw, .ch, .ev, .mbx, .img, .port, .conv, .loop, .gov, .enrol] s x1 := by
    unfold x1
    refine Moves.step (State.modCh_moves ..) rfl ?_
    exact Moves.refl _
  clear_value x1
  extract_lets +onlyGivenNames x2
  have h2 : Moves [.free, .bw, .ch, .ev, .mbx, .img, .port, .conv, .loop, .gov, .enrol] s x2 := by
    unfold x2
    refine Moves.step (hartForget_moves ..) rfl ?_
    assumption
  clear_value x2
  extract_lets +onlyGivenNames x3
  have h3 : Moves [.free, .bw, .ch, .ev, .mbx, .img, .port, .conv, .loop, .gov, .enrol] s x3 := by
    unfold x3
    refine Moves.step (command_moves ..) rfl ?_
    refine Moves.step (dropEst_moves ..) rfl ?_
    refine Moves.step (discardAcc_moves ..) rfl ?_
    assumption
  clear_value x3
  refine Moves.step (tryRestartNow_moves ..) rfl ?_
  refine Moves.step (refresh_moves ..) rfl ?_
  refine Moves.step (evalLamp_moves ..) rfl ?_
  refine Moves.step (resetChannel_moves ..) rfl ?_
  assumption

theorem reinitPort_moves (s : State) (k : PortIx) : Moves [.ch, .ev, .img, .port, .wheel, .rul] s (reinitPort s k) := by
  unfold reinitPort
  extract_lets +onlyGivenNames x1
  have h1 : Moves [.ch, .ev, .img, .port, .wheel, .rul] s x1 := by
    unfold x1
    refine Moves.step (portReinit_moves ..) rfl ?_
    refine Moves.step (clearOut_moves ..) rfl ?_
    exact Moves.refl _
  clear_value x1
  refine Moves.foldl (fun y2 z2 => ?_) ?_
  · refine Moves.ite (fun _ => ?_) (fun _ => ?_)
    · refine Moves.step (modEntry_moves ..) rfl ?_
      exact Moves.refl _
    · exact Moves.refl _
  · assumption

theorem reinitFilter_moves (s : State) : Moves [.free, .ch, .ev, .mbx, .img, .port, .conv, .enrol] s (reinitFilter s) := by
  unfold reinitFilter
  refine Moves.step (evalAll_moves ..) rfl ?_
  refine Moves.foldl (fun y1 z1 => ?_) ?_
  · refine Moves.step (dropEst_moves ..) rfl ?_
    exact Moves.refl _
  · refine Moves.step (discardAll_moves ..) rfl ?_
    refine Moves.step (resetAllPaths_moves ..) rfl ?_
    exact Moves.refl _

theorem reinitHart_moves (s : State) : Moves [.mbx, .img, .loop, .hart] s (reinitHart s) := by
  unfold reinitHart
  refine Moves.foldl (fun y1 z1 => ?_) ?_
  · refine Moves.step (hartForget_moves ..) rfl ?_
    refine Moves.step (hartAbandon_moves ..) rfl ?_
    exact Moves.refl _
  · exact Moves.refl _

theorem memError_moves (s : State) (code : BitVec 3) : Moves [.ev, .port, .mem] s (memError s code) := by
  unfold memError
  extract_lets +onlyGivenNames x1
  extract_lets +onlyGivenNames x2
  have h2 : Moves [.ev, .port, .mem] s x2 := by
    unfold x2
    refine Moves.upd rfl (fun p => by cases p; (case mem => exact Or.inl ⟨rfl, fun _ h => h .mem⟩); all_goals exact Or.inr rfl) ?_
    exact Moves.refl _
  clear_value x2
  refine Moves.step (raise_moves ..) rfl ?_
  assumption

theorem reinitMemory_moves (s : State) : Moves [.boot, .recov, .ev, .mbx, .port, .flash, .mirror, .mem] s (reinitMemory s) := by
  unfold reinitMemory
  extract_lets +onlyGivenNames x1
  extract_lets +onlyGivenNames x2
  have h2 : Moves [.boot, .recov, .ev, .mbx, .port, .flash, .mirror, .mem] s x2 := by
    unfold x2
    refine Moves.upd rfl (fun p => by
        cases p
        case mem => exact Or.inl ⟨rfl, fun _ h => ⟨(h .mem).1, Nat.zero_le _⟩⟩
        all_goals exact Or.inr rfl) ?_
    exact Moves.refl _
  clear_value x2
  extract_lets +onlyGivenNames x3
  extract_lets +onlyGivenNames x4
  have h4 : Moves [.boot, .recov, .ev, .mbx, .port, .flash, .mirror, .mem] s x4 := by
    unfold x4
    refine Moves.upd rfl (fun p => by cases p; (case mem => exact Or.inl ⟨rfl, fun _ h => h .mem⟩); all_goals exact Or.inr rfl) ?_
    assumption
  clear_value x4
  split
  · refine Moves.step (jobFail_moves ..) rfl ?_
    assumption
  · refine Moves.ite (fun _ => ?_) (fun _ => ?_)
    · refine Moves.step (raise_moves ..) rfl ?_
      assumption
    · assumption

theorem startReinit_moves (s : State) (f : BitVec 5) (slot : Option SlotIx)
    : Moves (partsBut [.pending, .tick, .straps, .clk, .m, .triad, .fd, .held, .otp, .trim, .time, .host, .chk, .pins]) s (startReinit s f slot) := by
  unfold startReinit
  refine Moves.ite (fun _ => ?_) (fun _ => ?_)
  · exact Moves.refl _
  · refine Moves.ite (fun _ => ?_) (fun _ => ?_)
    · refine Moves.step (startFieldReinit_moves ..) rfl ?_
      exact Moves.refl _
    · extract_lets +onlyGivenNames x1
      extract_lets +onlyGivenNames x2
      have h2 : Moves (partsBut [.pending, .tick, .straps, .clk, .m, .triad, .fd, .held, .otp, .trim, .time, .host, .chk, .pins]) s x2 := by
        unfold x2
        refine Moves.upd rfl (fun p => by cases p; (case recov => exact Or.inl ⟨rfl, fun _ h => h .recov⟩); all_goals exact Or.inr rfl) ?_
        exact Moves.refl _
      clear_value x2
      refine Moves.ite (fun _ => ?_) (fun _ => ?_)
      · refine Moves.step (reinitChannel_moves ..) rfl ?_
        assumption
      · refine Moves.ite (fun _ => ?_) (fun _ => ?_)
        · refine Moves.step (reinitPort_moves ..) rfl ?_
          assumption
        · refine Moves.ite (fun _ => ?_) (fun _ => ?_)
          · refine Moves.step (reinitFilter_moves ..) rfl ?_
            assumption
          · refine Moves.ite (fun _ => ?_) (fun _ => ?_)
            · refine Moves.step (reinitHart_moves ..) rfl ?_
              assumption
            · refine Moves.ite (fun _ => ?_) (fun _ => ?_)
              · refine Moves.step (reinitMemory_moves ..) rfl ?_
                assumption
              · assumption

theorem finishChannel_moves (s : State) (n : Chan) : Moves [.bw, .ch, .ev, .img, .port, .conv, .loop] s (finishChannel s n) := by
  unfold finishChannel
  extract_lets +onlyGivenNames x1
  have h1 : Moves [.bw, .ch, .ev, .img, .port, .conv, .loop] s x1 := by
    unfold x1
    refine Moves.step (State.modPath_moves ..) rfl ?_
    refine Moves.step (State.modLoop_moves ..) rfl ?_
    refine Moves.step (State.modCh_moves ..) rfl ?_
    exact Moves.refl _
  clear_value x1
  extract_lets +onlyGivenNames x2
  have h2 : Moves [.bw, .ch, .ev, .img, .port, .conv, .loop] s x2 := by
    unfold x2
    refine Moves.step (State.modPath_moves ..) rfl ?_
    assumption
  clear_value x2
  extract_lets +onlyGivenNames x3
  extract_lets +onlyGivenNames x4
  have h4 : Moves [.bw, .ch, .ev, .img, .port, .conv, .loop] s x4 := by
    unfold x4
    refine Moves.upd rfl (fun p => by cases p; (case conv => exact Or.inl ⟨rfl, fun _ h => h .conv⟩); all_goals exact Or.inr rfl) ?_
    assumption
  clear_value x4
  extract_lets +onlyGivenNames x5
  clear_value x5
  extract_lets +onlyGivenNames x6
  have h6 : Moves [.bw, .ch, .ev, .img, .port, .conv, .loop] s x6 := by
    unfold x6
    refine Moves.ite (fun _ => ?_) (fun _ => ?_)
    · refine Moves.step (setTarget_moves ..) rfl ?_
      assumption
    · refine Moves.step (putLoop_moves ..) rfl ?_
      assumption
  clear_value x6
  refine Moves.step (refresh_moves ..) rfl ?_
  refine Moves.step (evalLamp_moves ..) rfl ?_
  refine Moves.step (putNoSig_moves ..) rfl ?_
  refine Moves.step (command_moves ..) rfl ?_
  assumption

theorem finishHart_moves (s : State) : Moves [.img, .hart] s (finishHart s) := by
  unfold finishHart
  refine Moves.step (putHarts_moves ..) rfl ?_
  refine Moves.upd rfl (fun p => by cases p; (case hart => exact Or.inl ⟨rfl, fun _ _ => trivial⟩); all_goals exact Or.inr rfl) ?_
  exact Moves.refl _

theorem finishRules_moves (s : State) : Moves [.recov, .rul] s (finishRules s) := by
  unfold finishRules
  extract_lets +onlyGivenNames x1
  clear_value x1
  refine Moves.step (rulesReset_moves ..) rfl ?_
  refine Moves.upd rfl (fun p => by
      cases p
      case rul => exact Or.inl ⟨rfl, fun _ _ => trivial⟩
      case recov => exact Or.inl ⟨rfl, fun _ h => h .recov⟩
      all_goals exact Or.inr rfl) ?_
  exact Moves.refl _

theorem finishHost_moves (s : State) : Moves [.ev, .held, .port, .host] s (finishHost s) := by
  unfold finishHost
  extract_lets +onlyGivenNames x1
  clear_value x1
  extract_lets +onlyGivenNames x2
  clear_value x2
  extract_lets +onlyGivenNames x3
  have h3 : Moves [.ev, .held, .port, .host] s x3 := by
    unfold x3
    refine Moves.upd rfl (fun p => by
        cases p
        case host => exact Or.inl ⟨rfl, fun _ _ => trivial⟩
        case held => exact Or.inl ⟨rfl, fun _ h => Nat.zero_le _⟩
        all_goals exact Or.inr rfl) ?_
    exact Moves.refl _
  clear_value x3
  extract_lets +onlyGivenNames x4
  have h4 : Moves [.ev, .held, .port, .host] s x4 := by
    unfold x4
    split
    · refine Moves.step (hostError_moves ..) rfl ?_
      assumption
    · assumption
  clear_value x4
  refine Moves.foldl (fun y5 z5 => ?_) ?_
  · split
    · refine Moves.step (hostError_moves ..) rfl ?_
      exact Moves.refl _
    · refine Moves.step (hostError_moves ..) rfl ?_
      exact Moves.refl _
  · assumption

theorem finishMemory_moves (s : State) : Moves [.mem, .chk] s (finishMemory s) := by
  unfold finishMemory
  extract_lets +onlyGivenNames x1
  clear_value x1
  refine Moves.upd rfl (fun p => by
      cases p
      case chk => exact Or.inl ⟨rfl, fun _ _ => trivial⟩
      case mem => exact Or.inl ⟨rfl, fun _ h => h .mem⟩
      all_goals exact Or.inr rfl) ?_
  exact Moves.refl _

theorem finishField_moves (s : State) : Moves [.m, .bw, .ch, .ev, .img, .port] s (finishField s) := by
  unfold finishField
  extract_lets +onlyGivenNames x1
  clear_value x1
  extract_lets +onlyGivenNames x2
  have h2 : Moves [.m, .bw, .ch, .ev, .img, .port] s x2 := by
    unfold x2
    refine Moves.upd rfl (fun p => by cases p; (case bw => exact Or.inl ⟨rfl, fun _ _ => trivial⟩); all_goals exact Or.inr rfl) ?_
    exact Moves.refl _
  clear_value x2
  split
  · refine Moves.ite (fun _ => ?_) (fun _ => ?_)
    · assumption
    · refine Moves.ite (fun _ => ?_) (fun _ => ?_)
      · refine Moves.ite (fun _ => ?_) (fun _ => ?_)
        · refine Moves.step (bwSend_moves ..) rfl ?_
          assumption
        · assumption
      · refine Moves.step (freshen_moves ..) rfl ?_
        assumption
  · assumption

theorem finishReinit_moves (s : State) (f : BitVec 5)
    : Moves [.m, .recov, .bw, .ch, .ev, .img, .held, .port, .conv, .loop, .hart, .wheel, .rul, .host, .mem, .chk] s (finishReinit s f) := by
  unfold finishReinit
  refine Moves.ite (fun _ => ?_) (fun _ => ?_)
  · refine Moves.step (finishChannel_moves ..) rfl ?_
    exact Moves.refl _
  · refine Moves.ite (fun _ => ?_) (fun _ => ?_)
    · refine Moves.step (State.modPort_moves ..) rfl ?_
      exact Moves.refl _
    · refine Moves.ite (fun _ => ?_) (fun _ => ?_)
      · refine Moves.step (wheelReinit_moves ..) rfl ?_
        exact Moves.refl _
      · refine Moves.ite (fun _ => ?_) (fun _ => ?_)
        · refine Moves.upd rfl (fun p => by cases p; (case conv => exact Or.inl ⟨rfl, fun _ h => h .conv⟩); all_goals exact Or.inr rfl) ?_
          exact Moves.refl _
        · refine Moves.ite (fun _ => ?_) (fun _ => ?_)
          · refine Moves.step (finishHart_moves ..) rfl ?_
            exact Moves.refl _
          · refine Moves.ite (fun _ => ?_) (fun _ => ?_)
            · refine Moves.step (finishRules_moves ..) rfl ?_
              exact Moves.refl _
            · refine Moves.ite (fun _ => ?_) (fun _ => ?_)
              · refine Moves.step (finishHost_moves ..) rfl ?_
                exact Moves.refl _
              · refine Moves.ite (fun _ => ?_) (fun _ => ?_)
                · refine Moves.step (finishMemory_moves ..) rfl ?_
                  exact Moves.refl _
                · refine Moves.step (finishField_moves ..) rfl ?_
                  exact Moves.refl _

theorem runReinit_moves (s : State) (i : SlotIx) (tag : W16)
    : Moves (partsBut [.pending, .tick, .straps, .clk, .m, .triad, .fd, .held, .otp, .trim, .time, .host, .chk, .pins]) s (runReinit s i tag) := by
  unfold runReinit
  refine Moves.step (mbxRun_moves (ps := (partsBut [.pending, .tick, .straps, .clk, .m, .triad, .fd, .held, .otp, .trim, .time, .host, .chk, .pins])) (hc := rfl) (hf6 := fun y1_0 => ?_) ..) (covers_refl _) ?_
  · extract_lets +onlyGivenNames x2
    clear_value x2
    extract_lets +onlyGivenNames x3
    clear_value x3
    refine Moves.ite (fun _ => ?_) (fun _ => ?_)
    · refine Moves.step (mbxEnd_moves ..) rfl ?_
      exact Moves.refl _
    · refine Moves.ite (fun _ => ?_) (fun _ => ?_)
      · refine Moves.step (mbxEnd_moves ..) rfl ?_
        exact Moves.refl _
      · refine Moves.step (startReinit_moves ..) rfl ?_
        exact Moves.refl _
  · exact Moves.refl _

theorem runResetDevice_moves (s : State) (i : SlotIx) (tag : W16)
    : Moves (partsBut [.pending, .free, .tick, .flash, .mirror, .otp]) s (runResetDevice s i tag) := by
  unfold runResetDevice
  refine Moves.step (mbxRun_moves (ps := (partsBut [.pending, .free, .tick, .flash, .mirror, .otp])) (hc := rfl) (hf6 := fun y1_0 => ?_) ..) (covers_refl _) ?_
  · refine Moves.ite (fun _ => ?_) (fun _ => ?_)
    · refine Moves.step (mbxEnd_moves ..) rfl ?_
      exact Moves.refl _
    · refine Moves.step (logicReset_moves ..) rfl ?_
      exact Moves.refl _
  · exact Moves.refl _

theorem notePoll_moves (s : State) (k : Fin 8) : Moves [.mem] s (notePoll s k) := by
  unfold notePoll
  split
  · refine Moves.upd rfl (fun p => by cases p; (case mem => exact Or.inl ⟨rfl, fun _ h => h .mem⟩); all_goals exact Or.inr rfl) ?_
    exact Moves.refl _
  · exact Moves.refl _

theorem wdTake_moves (s : State) (d : Fin 8 × BitVec 5 × BitVec 3) : Moves (partsBut [.pending, .tick, .otp]) s (wdTake s d) := by
  unfold wdTake
  extract_lets +onlyGivenNames x1
  extract_lets +onlyGivenNames x2
  have h2 : Moves (partsBut [.pending, .tick, .otp]) s x2 := by
    unfold x2
    refine Moves.upd rfl (fun p => by cases p; (case recov => exact Or.inl ⟨rfl, fun _ h => h .recov⟩); all_goals exact Or.inr rfl) ?_
    exact Moves.refl _
  clear_value x2
  refine Moves.ite (fun _ => ?_) (fun _ => ?_)
  · refine Moves.step (logicReset_moves ..) rfl ?_
    assumption
  · refine Moves.ite (fun _ => ?_) (fun _ => ?_)
    · refine Moves.step (enterSafe_moves ..) rfl ?_
      assumption
    · refine Moves.ite (fun _ => ?_) (fun _ => ?_)
      · refine Moves.step (startReinit_moves ..) rfl ?_
        assumption
      · exact Moves.refl _

theorem takeDue_moves (s : State) : Moves (partsBut [.pending, .tick, .otp]) s (takeDue s) := by
  unfold takeDue
  extract_lets +onlyGivenNames x1
  clear_value x1
  extract_lets +onlyGivenNames x2
  extract_lets +onlyGivenNames x3
  have h3 : Moves (partsBut [.pending, .tick, .otp]) s x3 := by
    unfold x3
    refine Moves.upd rfl (fun p => by cases p; (case recov => exact Or.inl ⟨rfl, fun _ h => h .recov⟩); all_goals exact Or.inr rfl) ?_
    exact Moves.refl _
  clear_value x3
  split
  · refine Moves.step (wdTake_moves ..) rfl ?_
    assumption
  · extract_lets +onlyGivenNames x4
    clear_value x4
    extract_lets +onlyGivenNames x5
    clear_value x5
    refine Moves.foldl (fun y6 z6 => ?_) ?_
    · refine Moves.step (wdTake_moves ..) rfl ?_
      exact Moves.refl _
    · assumption

theorem wdExpire_moves (s : State) (k : Fin 8) (func : BitVec 5) : Moves (partsBut [.pending, .tick, .otp]) s (wdExpire s k func) := by
  unfold wdExpire
  refine Moves.ite (fun _ => ?_) (fun _ => ?_)
  · exact Moves.refl _
  · extract_lets +onlyGivenNames x1
    clear_value x1
    extract_lets +onlyGivenNames x2
    clear_value x2
    extract_lets +onlyGivenNames x3
    clear_value x3
    extract_lets +onlyGivenNames x4
    have h4 : Moves (partsBut [.pending, .tick, .otp]) s x4 := by
      unfold x4
      refine Moves.step (notePoll_moves ..) rfl ?_
      exact Moves.refl _
    clear_value x4
    extract_lets +onlyGivenNames x5
    extract_lets +onlyGivenNames x6
    have h6 : Moves (partsBut [.pending, .tick, .otp]) s x6 := by
      unfold x6
      refine Moves.upd rfl (fun p => by cases p; (case recov => exact Or.inl ⟨rfl, fun h0 h => h0 .recov⟩); all_goals exact Or.inr rfl) ?_
      assumption
    clear_value x6
    extract_lets +onlyGivenNames x7
    have h7 : Moves (partsBut [.pending, .tick, .otp]) s x7 := by
      unfold x7
      refine Moves.step (raise_moves ..) rfl ?_
      assumption
    clear_value x7
    extract_lets +onlyGivenNames x8
    clear_value x8
    refine Moves.ite (fun _ => ?_) (fun _ => ?_)
    · refine Moves.upd rfl (fun p => by cases p; (case recov => exact Or.inl ⟨rfl, fun _ h => h .recov⟩); all_goals exact Or.inr rfl) ?_
      assumption
    · refine Moves.step (wdTake_moves ..) rfl ?_
      assumption

/-! ## Reload -/

theorem sendUcode_moves (s : State) (h : SlotHeader) : Moves [.bw] s (sendUcode s h) := by
  unfold sendUcode
  extract_lets +onlyGivenNames x1
  have h1 : Moves [.bw] s x1 := by
    unfold x1
    refine Moves.foldl (fun y2 z2 => ?_) ?_
    · refine Moves.step (bwSend_moves ..) rfl ?_
      exact Moves.refl _
    · refine Moves.step (bwSend_moves ..) rfl ?_
      exact Moves.refl _
  clear_value x1
  refine Moves.step (bwSend_moves ..) rfl ?_
  assumption

theorem freshAfterHold_moves (s : State) : Moves [.m, .bw, .ch, .ev, .img, .port] s (freshAfterHold s) := by
  unfold freshAfterHold
  split
  · refine Moves.ite (fun _ => ?_) (fun _ => ?_)
    · exact Moves.refl _
    · refine Moves.step (freshen_moves ..) rfl ?_
      exact Moves.refl _
  · exact Moves.refl _

theorem reloadOver_moves (s : State) (x : Reload) : Moves [.recov, .bw] s (reloadOver s x) := by
  unfold reloadOver
  refine Moves.upd rfl (fun p => by
      cases p
      case bw => exact Or.inl ⟨rfl, fun _ _ => trivial⟩
      case recov => exact Or.inl ⟨rfl, fun _ h => h .recov⟩
      all_goals exact Or.inr rfl) ?_
  exact Moves.refl _

theorem commitUcode_moves (s : State) (written : Bool) : Moves [.boot, .recov, .ev, .port, .flash] s (commitUcode s written) := by
  unfold commitUcode
  extract_lets +onlyGivenNames x1
  have h1 : Moves [.boot, .recov, .ev, .port, .flash] s x1 := by
    unfold x1
    split
    · refine Moves.ite (fun _ => ?_) (fun _ => ?_)
      · refine Moves.step (writeDesc_moves ..) rfl ?_
        exact Moves.refl _
      · refine Moves.step (raise_moves ..) rfl ?_
        exact Moves.refl _
    · exact Moves.refl _
  clear_value x1
  refine Moves.step (setStage_moves ..) rfl ?_
  assumption

theorem reloadFailed_moves (s : State) (x : Reload) : Moves (partsBut [.pending, .tick, .otp]) s (reloadFailed s x) := by
  unfold reloadFailed
  refine Moves.ite (fun _ => ?_) (fun _ => ?_)
  · refine Moves.upd rfl (fun p => by cases p; (case recov => exact Or.inl ⟨rfl, fun _ h => h .recov⟩); all_goals exact Or.inr rfl) ?_
    exact Moves.refl _
  · refine Moves.step (takeDue_moves ..) rfl ?_
    refine Moves.step (freshAfterHold_moves ..) rfl ?_
    refine Moves.step (reloadOver_moves ..) rfl ?_
    exact Moves.refl _

/-! ## GenApply -/

theorem freshCommands_moves (s : State) (n : Chan) : Moves [.img] s (freshCommands s n) := by
  unfold freshCommands
  extract_lets +onlyGivenNames x1
  have h1 : Moves [.img] s x1 := by
    unfold x1
    refine Moves.ite (fun _ => ?_) (fun _ => ?_)
    · refine Moves.step (epPut_moves ..) rfl ?_
      exact Moves.refl _
    · exact Moves.refl _
  clear_value x1
  refine Moves.ite (fun _ => ?_) (fun _ => ?_)
  · refine Moves.step (epPut_moves ..) rfl ?_
    assumption
  · assumption

theorem applyChan_moves (a : Generation) (b : Generation) (s : State) (n : Chan)
    : Moves [.free, .bw, .ch, .ev, .mbx, .img, .port, .conv, .loop, .hart, .enrol] s (applyChan a b s n) := by
  unfold applyChan
  refine Moves.ite (fun _ => ?_) (fun _ => ?_)
  · extract_lets +onlyGivenNames x1
    have h1 : Moves [.free, .bw, .ch, .ev, .mbx, .img, .port, .conv, .loop, .hart, .enrol] s x1 := by
      unfold x1
      refine Moves.ite (fun _ => ?_) (fun _ => ?_)
      · exact Moves.refl _
      · refine Moves.step (State.modCh_moves ..) rfl ?_
        refine Moves.step (dropEst_moves ..) rfl ?_
        refine Moves.step (discardAcc_moves ..) rfl ?_
        exact Moves.refl _
    clear_value x1
    extract_lets +onlyGivenNames x2
    have h2 : Moves [.free, .bw, .ch, .ev, .mbx, .img, .port, .conv, .loop, .hart, .enrol] s x2 := by
      unfold x2
      refine Moves.ite (fun _ => ?_) (fun _ => ?_)
      · assumption
      · refine Moves.step (putNe43_moves ..) rfl ?_
        assumption
    clear_value x2
    extract_lets +onlyGivenNames x3
    have h3 : Moves [.free, .bw, .ch, .ev, .mbx, .img, .port, .conv, .loop, .hart, .enrol] s x3 := by
      unfold x3
      refine Moves.ite (fun _ => ?_) (fun _ => ?_)
      · assumption
      · refine Moves.step (retargetAO_moves ..) rfl ?_
        assumption
    clear_value x3
    refine Moves.step (State.modCh_moves ..) rfl ?_
    assumption
  · extract_lets +onlyGivenNames x4
    have h4 : Moves [.free, .bw, .ch, .ev, .mbx, .img, .port, .conv, .loop, .hart, .enrol] s x4 := by
      unfold x4
      refine Moves.step (State.modCh_moves ..) rfl ?_
      exact Moves.refl _
    clear_value x4
    extract_lets +onlyGivenNames x5
    have h5 : Moves [.free, .bw, .ch, .ev, .mbx, .img, .port, .conv, .loop, .hart, .enrol] s x5 := by
      unfold x5
      refine Moves.ite (fun _ => ?_) (fun _ => ?_)
      · assumption
      · refine Moves.step (State.modLoop_moves ..) rfl ?_
        refine Moves.step (State.modCh_moves ..) rfl ?_
        assumption
    clear_value x5
    extract_lets +onlyGivenNames x6
    have h6 : Moves [.free, .bw, .ch, .ev, .mbx, .img, .port, .conv, .loop, .hart, .enrol] s x6 := by
      unfold x6
      refine Moves.step (State.modCh_moves ..) rfl ?_
      refine Moves.step (setCmd_moves ..) rfl ?_
      refine Moves.step (govClear_moves ..) rfl ?_
      assumption
    clear_value x6
    refine Moves.step (freshCommands_moves ..) rfl ?_
    refine Moves.step (putDir_moves ..) rfl ?_
    refine Moves.step (State.modLoop_moves ..) rfl ?_
    refine Moves.step (discardAcc_moves ..) rfl ?_
    refine Moves.step (hartAbandon_moves ..) rfl ?_
    assumption

theorem applyChars_moves (a : Generation) (b : Generation) (s : State) : Moves [.boot, .ch] s (applyChars a b s) := by
  unfold applyChars
  refine Moves.ite (fun _ => ?_) (fun _ => ?_)
  · exact Moves.refl _
  · refine Moves.upd rfl (fun p => by cases p; (case boot | ch => exact Or.inl ⟨rfl, fun _ _ => trivial⟩); all_goals exact Or.inr rfl) ?_
    exact Moves.refl _

theorem applyPath_moves (a : Generation) (b : Generation) (s : State) (p : PathIx) : Moves [.conv] s (applyPath a b s p) := by
  unfold applyPath
  refine Moves.ite (fun _ => ?_) (fun _ => ?_)
  · extract_lets +onlyGivenNames x1
    have h1 : Moves [.conv] s x1 := by
      unfold x1
      refine Moves.step (loadBank_moves ..) rfl ?_
      refine Moves.step (loadBank_moves ..) rfl ?_
      exact Moves.refl _
    clear_value x1
    refine Moves.step (State.modPath_moves ..) rfl ?_
    assumption
  · refine Moves.ite (fun _ => ?_) (fun _ => ?_)
    · exact Moves.refl _
    · extract_lets +onlyGivenNames x2
      clear_value x2
      extract_lets +onlyGivenNames x3
      have h3 : Moves [.conv] s x3 := by
        unfold x3
        refine Moves.step (State.modPath_moves ..) rfl ?_
        exact Moves.refl _
      clear_value x3
      refine Moves.ite (fun _ => ?_) (fun _ => ?_)
      · assumption
      · refine Moves.step (startLoad_moves ..) rfl ?_
        assumption

theorem applyGroup.applyPeers_moves (s : State) : Moves [.ev, .img, .port] s (applyGroup.applyPeers s) := by
  unfold applyGroup.applyPeers
  refine Moves.foldl (fun y1 z1 => ?_) ?_
  · refine Moves.step (applyPeerWindow_moves ..) rfl ?_
    exact Moves.refl _
  · exact Moves.refl _

theorem applyGroup.dropPorts_moves (s : State) : Moves [.img] s (applyGroup.dropPorts s) := by
  unfold applyGroup.dropPorts
  refine Moves.step (modFences_moves ..) rfl ?_
  exact Moves.refl _

theorem applyLinks_moves (a : Generation) (b : Generation) (s : State)
    : Moves [.ch, .ev, .img, .port, .wheel, .rul] s (applyLinks a b s) := by
  unfold applyLinks
  refine Moves.step (openPorts_moves ..) rfl ?_
  refine Moves.foldl (fun y1 z1 => ?_) ?_
  · refine Moves.ite (fun _ => ?_) (fun _ => ?_)
    · exact Moves.refl _
    · refine Moves.step (portReinit_moves ..) rfl ?_
      exact Moves.refl _
  · refine Moves.step (clearOut_moves ..) rfl ?_
    exact Moves.refl _

theorem afterSections_moves (s : State) (b : Generation) : Moves [.m, .recov, .ch, .ev, .img, .port, .loop] s (afterSections s b) := by
  unfold afterSections
  extract_lets +onlyGivenNames x1
  have h1 : Moves [.m, .recov, .ch, .ev, .img, .port, .loop] s x1 := by
    unfold x1
    refine Moves.foldl (fun y2 z2 => ?_) ?_
    · refine Moves.step (hartPeriods_moves ..) rfl ?_
      refine Moves.step (putNoSig_moves ..) rfl ?_
      exact Moves.refl _
    · exact Moves.refl _
  clear_value x1
  extract_lets +onlyGivenNames x3
  have h3 : Moves [.m, .recov, .ch, .ev, .img, .port, .loop] s x3 := by
    unfold x3
    refine Moves.step (putAll_moves ..) rfl ?_
    refine Moves.step (assignCommands_moves ..) rfl ?_
    refine Moves.step (unassign_moves ..) rfl ?_
    assumption
  clear_value x3
  extract_lets +onlyGivenNames x4
  have h4 : Moves [.m, .recov, .ch, .ev, .img, .port, .loop] s x4 := by
    unfold x4
    refine Moves.step (raise_moves ..) rfl ?_
    refine Moves.step (evalAll_moves ..) rfl ?_
    assumption
  clear_value x4
  refine Moves.upd rfl (fun p => by cases p; (case recov => exact Or.inl ⟨rfl, fun _ h => h .recov⟩); all_goals exact Or.inr rfl) ?_
  assumption

theorem applyGroup_moves (a : Generation) (b : Generation) (s : State) : Moves [.ev, .img, .port] s (applyGroup a b s) := by
  unfold applyGroup
  refine Moves.ite (fun _ => ?_) (fun _ => ?_)
  · exact Moves.refl _
  · extract_lets +onlyGivenNames x1
    extract_lets +onlyGivenNames x2
    extract_lets +onlyGivenNames x3
    extract_lets +onlyGivenNames x4
    extract_lets +onlyGivenNames x5
    extract_lets +onlyGivenNames x6
    extract_lets +onlyGivenNames x7
    extract_lets +onlyGivenNames x8
    extract_lets +onlyGivenNames x9
    refine Moves.step (applyGroup.applyPeers_moves ..) rfl ?_
    refine Moves.step (sendDisc_moves ..) rfl ?_
    refine Moves.step (entriesInit_moves ..) rfl ?_
    refine Moves.step (applyGroup.dropPorts_moves ..) rfl ?_
    refine Moves.foldl (fun y10 z10 => ?_) ?_
    · refine Moves.step (noteChange_moves ..) rfl ?_
      exact Moves.refl _
    · refine Moves.upd rfl (fun p => by
          cases p
          case img => exact Or.inl ⟨rfl, fun _ h => by have k := h .img; unfold Part.sound at k ⊢; exact ⟨⟨swf_shift k.1.1 _ _, swf_filter k.1.2.1 _, k.1.2.2⟩, k.2⟩⟩
          all_goals exact Or.inr rfl) ?_
      exact Moves.refl _

theorem applySections_moves (s : State) (a : Generation) (b : Generation)
    : Moves [.free, .clk, .boot, .bw, .ch, .ev, .mbx, .img, .port, .conv, .loop, .hart, .wheel, .rul, .enrol] s (applySections s a b) := by
  unfold applySections
  extract_lets +onlyGivenNames x1
  have h1 : Moves [.free, .clk, .boot, .bw, .ch, .ev, .mbx, .img, .port, .conv, .loop, .hart, .wheel, .rul, .enrol] s x1 := by
    unfold x1
    refine Moves.step (applyKinds_moves ..) rfl ?_
    refine Moves.step (applyEvents_moves ..) rfl ?_
    exact Moves.refl _
  clear_value x1
  extract_lets +onlyGivenNames x2
  have h2 : Moves [.free, .clk, .boot, .bw, .ch, .ev, .mbx, .img, .port, .conv, .loop, .hart, .wheel, .rul, .enrol] s x2 := by
    unfold x2
    refine Moves.step (applyChars_moves ..) rfl ?_
    refine Moves.foldl (fun y3 z3 => ?_) ?_
    · refine Moves.step (applyChan_moves ..) rfl ?_
      exact Moves.refl _
    · assumption
  clear_value x2
  extract_lets +onlyGivenNames x4
  have h4 : Moves [.free, .clk, .boot, .bw, .ch, .ev, .mbx, .img, .port, .conv, .loop, .hart, .wheel, .rul, .enrol] s x4 := by
    unfold x4
    refine Moves.foldl (fun y5 z5 => ?_) ?_
    · refine Moves.step (applyPath_moves ..) rfl ?_
      exact Moves.refl _
    · assumption
  clear_value x4
  extract_lets +onlyGivenNames x6
  have h6 : Moves [.free, .clk, .boot, .bw, .ch, .ev, .mbx, .img, .port, .conv, .loop, .hart, .wheel, .rul, .enrol] s x6 := by
    unfold x6
    refine Moves.step (resetPaths_moves ..) rfl ?_
    assumption
  clear_value x6
  extract_lets +onlyGivenNames x7
  have h7 : Moves [.free, .clk, .boot, .bw, .ch, .ev, .mbx, .img, .port, .conv, .loop, .hart, .wheel, .rul, .enrol] s x7 := by
    unfold x7
    refine Moves.foldl (fun y8 z8 => ?_) ?_
    · refine Moves.step (wheelConfigure_moves ..) rfl ?_
      exact Moves.refl _
    · assumption
  clear_value x7
  extract_lets +onlyGivenNames x9
  clear_value x9
  extract_lets +onlyGivenNames x10
  clear_value x10
  extract_lets +onlyGivenNames x11
  have h11 : Moves [.free, .clk, .boot, .bw, .ch, .ev, .mbx, .img, .port, .conv, .loop, .hart, .wheel, .rul, .enrol] s x11 := by
    unfold x11
    refine Moves.upd rfl (fun p => by cases p; (case clk | rul => exact Or.inl ⟨rfl, fun _ _ => trivial⟩); all_goals exact Or.inr rfl) ?_
    assumption
  clear_value x11
  refine Moves.step (applyLinks_moves ..) rfl ?_
  refine Moves.step (applyGroup_moves ..) rfl ?_
  assumption

theorem applyGeneration_moves (s : State) (a : Generation) (p : PendingGen)
    : Moves (partsBut [.pending, .tick, .straps, .triad, .fd, .held, .flash, .mirror, .otp, .trim, .gov, .time, .host, .mem, .chk, .pins]) s (applyGeneration s a p) := by
  unfold applyGeneration
  extract_lets +onlyGivenNames x1
  clear_value x1
  extract_lets +onlyGivenNames x2
  clear_value x2
  extract_lets +onlyGivenNames x3
  have h3 : Moves (partsBut [.pending, .tick, .straps, .triad, .fd, .held, .flash, .mirror, .otp, .trim, .gov, .time, .host, .mem, .chk, .pins]) s x3 := by
    unfold x3
    refine Moves.upd rfl (fun p => by cases p; (case boot => exact Or.inl ⟨rfl, fun _ _ => trivial⟩); all_goals exact Or.inr rfl) ?_
    exact Moves.refl _
  clear_value x3
  refine Moves.step (afterSections_moves ..) rfl ?_
  refine Moves.step (applySections_moves ..) rfl ?_
  refine Moves.step (bwSend_moves ..) rfl ?_
  assumption

/-! ## Handover -/

theorem exchange_moves (s : State) : Moves [.recov] s (exchange s) := by
  unfold exchange
  extract_lets +onlyGivenNames x1
  clear_value x1
  refine Moves.upd rfl (fun p => by
      cases p
      case recov => exact Or.inl ⟨rfl, fun _ h => ⟨swf_joinAt _ (h .recov).2 (h .recov).1, swf_joinAt _ (h .recov).1 (h .recov).2⟩⟩
      all_goals exact Or.inr rfl) ?_
  exact Moves.refl _

/-! ## MemoryPort -/

theorem onFlash_moves (s : State) (dev : ℕ) (f : List Host.Cell → List Host.Cell)
    (hf : ∀ m, swf flashErased m = true → swf flashErased (f m) = true) : Moves [.flash, .mirror] s (onFlash s dev f) := by
  unfold onFlash
  refine Moves.ite (fun _ => ?_) (fun _ => ?_)
  · refine Moves.upd rfl (fun p => by
        cases p
        case flash => exact Or.inl ⟨rfl, fun _ h => hf _ (h .flash)⟩
        all_goals exact Or.inr rfl) ?_
    exact Moves.refl _
  · refine Moves.ite (fun _ => ?_) (fun _ => ?_)
    · refine Moves.upd rfl (fun p => by
          cases p
          case mirror => exact Or.inl ⟨rfl, fun _ h => hf _ (h .mirror)⟩
          all_goals exact Or.inr rfl) ?_
      exact Moves.refl _
    · exact Moves.refl _

theorem setWel_moves (s : State) (dev : ℕ) (b : Bool) : Moves [.mem] s (setWel s dev b) := by
  unfold setWel
  refine Moves.dite (fun _ => ?_) (fun _ => ?_)
  · refine Moves.upd rfl (fun p => by cases p; (case mem => exact Or.inl ⟨rfl, fun _ h => h .mem⟩); all_goals exact Or.inr rfl) ?_
    exact Moves.refl _
  · exact Moves.refl _

theorem frameDone_moves (s : State) (dev : ℕ) (cmd : W16) (addr : W32) (data : List Byte)
    : Moves [.flash, .mirror, .mem] s (frameDone s dev cmd addr data) := by
  unfold frameDone
  extract_lets +onlyGivenNames x1
  clear_value x1
  refine Moves.ite (fun _ => ?_) (fun _ => ?_)
  · refine Moves.step (setWel_moves ..) rfl ?_
    exact Moves.refl _
  · refine Moves.ite (fun _ => ?_) (fun _ => ?_)
    · refine Moves.step (setWel_moves ..) rfl ?_
      exact Moves.refl _
    · refine Moves.ite (fun _ => ?_) (fun _ => ?_)
      · refine Moves.step (setWel_moves ..) rfl ?_
        refine Moves.step (onFlash_moves (hf := fun _ x => by apply_rules [swf_sclear, pageProgram_ok]) ..) rfl ?_
        exact Moves.refl _
      · refine Moves.ite (fun _ => ?_) (fun _ => ?_)
        · refine Moves.step (setWel_moves ..) rfl ?_
          refine Moves.step (onFlash_moves (hf := fun _ x => by apply_rules [swf_sclear, pageProgram_ok]) ..) rfl ?_
          exact Moves.refl _
        · exact Moves.refl _

theorem sendFrame_moves (s : State) (e : MemEntry) : Moves [.free, .flash, .mirror, .mem] s (sendFrame s e) := by
  unfold sendFrame
  extract_lets +onlyGivenNames x1
  clear_value x1
  extract_lets +onlyGivenNames x2
  clear_value x2
  extract_lets +onlyGivenNames x3
  clear_value x3
  extract_lets +onlyGivenNames x4
  clear_value x4
  extract_lets +onlyGivenNames x5
  clear_value x5
  extract_lets +onlyGivenNames x6
  clear_value x6
  extract_lets +onlyGivenNames x7
  clear_value x7
  extract_lets +onlyGivenNames x8
  extract_lets +onlyGivenNames x9
  have h9 : Moves [.free, .flash, .mirror, .mem] s x9 := by
    unfold x9
    refine Moves.upd rfl (fun p => by
        cases p
        case free => exact Or.inl ⟨rfl, fun _ _ => trivial⟩
        case mem => exact Or.inl ⟨rfl, fun _ h => by have k := h .mem; unfold Part.sound at k ⊢; refine ⟨?_, k.2⟩; dsimp only; split; exacts [k.1, swf_swriteList k.1 ..]⟩
        all_goals exact Or.inr rfl) ?_
    exact Moves.refl _
  clear_value x9
  refine Moves.ite (fun _ => ?_) (fun _ => ?_)
  · assumption
  · refine Moves.step (frameDone_moves ..) rfl ?_
    assumption

theorem releaseSelect_moves (s : State) : Moves [.flash, .mirror, .mem] s (releaseSelect s) := by
  unfold releaseSelect
  extract_lets +onlyGivenNames x1
  have h1 : Moves [.flash, .mirror, .mem] s x1 := by
    unfold x1
    split
    · refine Moves.step (frameDone_moves ..) rfl ?_
      exact Moves.refl _
    · exact Moves.refl _
  clear_value x1
  refine Moves.upd rfl (fun p => by cases p; (case mem => exact Or.inl ⟨rfl, fun _ h => h .mem⟩); all_goals exact Or.inr rfl) ?_
  assumption

theorem breakChain_moves (s : State) : Moves [.flash, .mirror, .mem] s (breakChain s) := by
  unfold breakChain
  refine Moves.step (releaseSelect_moves ..) rfl ?_
  refine Moves.upd rfl (fun p => by cases p; (case mem => exact Or.inl ⟨rfl, fun _ h => h .mem⟩); all_goals exact Or.inr rfl) ?_
  exact Moves.refl _

theorem eccEndpoint_moves (s : State) (a : BitVec 20) : Moves [.free, .img] s (eccEndpoint s a) := by
  unfold eccEndpoint
  refine Moves.ite (fun _ => ?_) (fun _ => ?_)
  · extract_lets +onlyGivenNames x1
    clear_value x1
    refine Moves.ite (fun _ => ?_) (fun _ => ?_)
    · exact Moves.refl _
    · refine Moves.step (epStore_moves ..) rfl ?_
      exact Moves.refl _
  · refine Moves.ite (fun _ => ?_) (fun _ => ?_)
    · split
      refine Moves.step (epStore_moves ..) rfl ?_
      refine Moves.ofSnd (by assumption) ?_
      refine Moves.step (State.draw_moves ..) rfl ?_
      exact Moves.refl _
    · exact Moves.refl _

theorem eccStaging_moves (s : State) : Moves [.free, .boot, .recov, .ev, .mbx, .port] s (eccStaging s) := by
  unfold eccStaging
  extract_lets +onlyGivenNames x1
  have h1 : ∀ w1_0, Moves [.free, .boot, .recov, .ev, .mbx, .port] w1_0 (x1 w1_0) := fun w1_0 => by
    unfold x1
    refine Moves.step (setStage_moves ..) rfl ?_
    refine Moves.upd rfl (fun p => by cases p; (case recov => exact Or.inl ⟨rfl, fun _ h => h .recov⟩); all_goals exact Or.inr rfl) ?_
    exact Moves.refl _
  clear_value x1
  split
  · refine Moves.step (h1 ..) (covers_refl _) ?_
    exact Moves.refl _
  · refine Moves.step (h1 ..) (covers_refl _) ?_
    exact Moves.refl _
  · refine Moves.step (h1 ..) (covers_refl _) ?_
    exact Moves.refl _
  · split
    · refine Moves.step (mbxEndFree_moves ..) rfl ?_
      refine Moves.step (h1 ..) (covers_refl _) ?_
      refine Moves.upd rfl (fun p => by cases p; (case boot => exact Or.inl ⟨rfl, fun _ _ => trivial⟩); all_goals exact Or.inr rfl) ?_
      exact Moves.refl _
    · refine Moves.step (mbxEndFree_moves ..) rfl ?_
      refine Moves.step (h1 ..) (covers_refl _) ?_
      refine Moves.upd rfl (fun p => by cases p; (case boot => exact Or.inl ⟨rfl, fun _ _ => trivial⟩); all_goals exact Or.inr rfl) ?_
      exact Moves.refl _
    · refine Moves.step (h1 ..) (covers_refl _) ?_
      exact Moves.refl _
  · exact Moves.refl _

theorem eccRing_moves (s : State) (k : ℕ) : Moves [.conv] s (eccRing s k) := by
  unfold eccRing
  refine Moves.upd rfl (fun p => by
      cases p
      case conv => exact Or.inl ⟨rfl, fun _ h => ⟨(h .conv).1, swf_swrite (h .conv).2 ..⟩⟩
      all_goals exact Or.inr rfl) ?_
  exact Moves.refl _

theorem eccLog_moves (s : State) (k : ℕ) : Moves [.ev] s (eccLog s k) := by
  unfold eccLog
  refine Moves.ite (fun _ => ?_) (fun _ => ?_)
  · refine Moves.upd rfl (fun p => by
        cases p
        case ev => exact Or.inl ⟨rfl, fun _ h => ⟨(h .ev).1, (List.length_filter_le ..).trans (h .ev).2⟩⟩
        all_goals exact Or.inr rfl) ?_
    exact Moves.refl _
  · exact Moves.refl _

theorem eccBank_moves (s : State) (p : PathIx) (bank : Bool) : Moves [.conv] s (eccBank s p bank) := by
  unfold eccBank
  split
  · refine Moves.step (State.modPath_moves ..) rfl ?_
    refine Moves.step (loadBank_moves ..) rfl ?_
    exact Moves.refl _
  · exact Moves.refl _

theorem loseWrite_moves (s : State) : Moves [.ev, .port, .mem] s (loseWrite s) := by
  unfold loseWrite
  split
  · refine Moves.step (memError_moves ..) rfl ?_
    refine Moves.upd rfl (fun p => by
        cases p
        case mem => exact Or.inl ⟨rfl, fun _ h => ⟨(h .mem).1, (List.length_erase_le ..).trans (h .mem).2⟩⟩
        all_goals exact Or.inr rfl) ?_
    exact Moves.refl _
  · exact Moves.refl _

theorem eccMemBuffer_moves (s : State) : Moves [.ev, .port, .mem] s (eccMemBuffer s) := by
  unfold eccMemBuffer
  split
  · refine Moves.ite (fun _ => ?_) (fun _ => ?_)
    · refine Moves.step (loseWrite_moves ..) rfl ?_
      exact Moves.refl _
    · refine Moves.ite (fun _ => ?_) (fun _ => ?_)
      · refine Moves.step (memError_moves ..) rfl ?_
        exact Moves.refl _
      · refine Moves.step (memError_moves ..) rfl ?_
        refine Moves.upd rfl (fun p => by cases p; (case mem => exact Or.inl ⟨rfl, fun _ h => h .mem⟩); all_goals exact Or.inr rfl) ?_
        exact Moves.refl _
  · refine Moves.step (loseWrite_moves ..) rfl ?_
    exact Moves.refl _

theorem eccBuffer_moves (s : State) : Moves [.free, .ev, .img, .held, .port, .host, .mem] s (eccBuffer s) := by
  unfold eccBuffer
  refine Moves.ite (fun _ => ?_) (fun _ => ?_)
  · split
    · refine Moves.step (State.draw_moves ..) rfl ?_
      exact Moves.refl _
    · refine Moves.step (hostError_moves ..) rfl ?_
      refine Moves.upd rfl (fun p => by
          cases p
          case held => exact Or.inl ⟨rfl, fun _ h => tail_held (h .held) (by assumption)⟩
          all_goals exact Or.inr rfl) ?_
      refine Moves.step (State.draw_moves ..) rfl ?_
      exact Moves.refl _
    · refine Moves.step (hostError_moves ..) rfl ?_
      refine Moves.upd rfl (fun p => by
          cases p
          case held => exact Or.inl ⟨rfl, fun _ h => tail_held (h .held) (by assumption)⟩
          all_goals exact Or.inr rfl) ?_
      refine Moves.step (State.draw_moves ..) rfl ?_
      exact Moves.refl _
  · refine Moves.ite (fun _ => ?_) (fun _ => ?_)
    · refine Moves.step (eccMemBuffer_moves ..) rfl ?_
      refine Moves.step (State.draw_moves ..) rfl ?_
      exact Moves.refl _
    · extract_lets +onlyGivenNames x1
      refine Moves.step (crcError_moves ..) rfl ?_
      split
      · refine Moves.step (dropBuffered_moves ..) rfl ?_
        refine Moves.step (State.draw_moves ..) rfl ?_
        exact Moves.refl _
      · refine Moves.step (State.draw_moves ..) rfl ?_
        exact Moves.refl _

theorem eccRegion_moves (s : State) (o : ℕ)
    : Moves (partsBut [.pending, .tick, .straps, .clk, .flash, .mirror, .otp, .hart, .gov, .time, .chk, .enrol]) s (eccRegion s o) := by
  unfold eccRegion
  refine Moves.ite (fun _ => ?_) (fun _ => ?_)
  · refine Moves.step (eccEndpoint_moves ..) rfl ?_
    refine Moves.step (eccEndpoint_moves ..) rfl ?_
    exact Moves.refl _
  · refine Moves.ite (fun _ => ?_) (fun _ => ?_)
    · refine Moves.ite (fun _ => ?_) (fun _ => ?_)
      · refine Moves.step (enterSafe_moves ..) rfl ?_
        exact Moves.refl _
      · exact Moves.refl _
    · refine Moves.ite (fun _ => ?_) (fun _ => ?_)
      · refine Moves.step (eccStaging_moves ..) rfl ?_
        exact Moves.refl _
      · refine Moves.ite (fun _ => ?_) (fun _ => ?_)
        · refine Moves.step (eccRing_moves ..) rfl ?_
          exact Moves.refl _
        · refine Moves.ite (fun _ => ?_) (fun _ => ?_)
          · refine Moves.step (eccLog_moves ..) rfl ?_
            exact Moves.refl _
          · refine Moves.ite (fun _ => ?_) (fun _ => ?_)
            · refine Moves.step (eccBank_moves ..) rfl ?_
              exact Moves.refl _
            · refine Moves.ite (fun _ => ?_) (fun _ => ?_)
              · exact Moves.refl _
              · refine Moves.step (eccBuffer_moves ..) rfl ?_
                exact Moves.refl _

theorem eccWord_moves (s : State) (o : ℕ)
    : Moves (partsBut [.pending, .tick, .straps, .clk, .flash, .mirror, .otp, .hart, .gov, .time, .chk, .enrol]) s (eccWord s o) := by
  unfold eccWord
  refine Moves.ite (fun _ => ?_) (fun _ => ?_)
  · refine Moves.upd rfl (fun p => by cases p; (case recov => exact Or.inl ⟨rfl, fun _ h => h .recov⟩); all_goals exact Or.inr rfl) ?_
    exact Moves.refl _
  · refine Moves.step (eccRegion_moves ..) rfl ?_
    exact Moves.refl _

theorem eccTaken_moves (s : State)
    : Moves (partsBut [.pending, .tick, .straps, .clk, .flash, .mirror, .otp, .hart, .gov, .time, .chk, .enrol]) s (eccTaken s) := by
  unfold eccTaken
  refine Moves.foldl (fun y1 z1 => ?_) ?_
  · refine Moves.step (eccRegion_moves ..) rfl ?_
    exact Moves.refl _
  · refine Moves.upd rfl (fun p => by cases p; (case recov => exact Or.inl ⟨rfl, fun _ h => h .recov⟩); all_goals exact Or.inr rfl) ?_
    exact Moves.refl _

/-! ## HostWrite -/

theorem writeDev_moves (s : State) (o : ℕ) (v : W32) : Moves [.clk, .m, .boot, .triad, .recov, .bw, .time, .mem] s (writeDev s o v) := by
  unfold writeDev
  split
  · refine Moves.upd rfl (fun p => by cases p; (case bw => exact Or.inl ⟨rfl, fun _ _ => trivial⟩); all_goals exact Or.inr rfl) ?_
    exact Moves.refl _
  · refine Moves.upd rfl (fun p => by cases p; (case clk => exact Or.inl ⟨rfl, fun _ _ => trivial⟩); all_goals exact Or.inr rfl) ?_
    exact Moves.refl _
  · refine Moves.upd rfl (fun p => by cases p; (case boot => exact Or.inl ⟨rfl, fun _ _ => trivial⟩); all_goals exact Or.inr rfl) ?_
    exact Moves.refl _
  · refine Moves.upd rfl (fun p => by cases p; (case m => exact Or.inl ⟨rfl, fun _ _ => trivial⟩); all_goals exact Or.inr rfl) ?_
    exact Moves.refl _
  · refine Moves.upd rfl (fun p => by cases p; (case time => exact Or.inl ⟨rfl, fun _ _ => trivial⟩); all_goals exact Or.inr rfl) ?_
    exact Moves.refl _
  · refine Moves.upd rfl (fun p => by cases p; (case triad => exact Or.inl ⟨rfl, fun _ h => h .triad⟩); all_goals exact Or.inr rfl) ?_
    exact Moves.refl _
  · refine Moves.upd rfl (fun p => by cases p; (case recov => exact Or.inl ⟨rfl, fun _ h => h .recov⟩); all_goals exact Or.inr rfl) ?_
    exact Moves.refl _
  · refine Moves.upd rfl (fun p => by cases p; (case mem => exact Or.inl ⟨rfl, fun _ h => h .mem⟩); all_goals exact Or.inr rfl) ?_
    exact Moves.refl _
  · exact Moves.refl _

theorem writeCh_moves (s : State) (n : Chan) (o : ℕ) (v : W32) : Moves [.ch, .loop] s (writeCh s n o v) := by
  unfold writeCh
  split
  · refine Moves.step (State.modCh_moves ..) rfl ?_
    exact Moves.refl _
  · refine Moves.step (State.modCh_moves ..) rfl ?_
    exact Moves.refl _
  · refine Moves.step (State.modCh_moves ..) rfl ?_
    exact Moves.refl _
  · refine Moves.step (State.modLoop_moves ..) rfl ?_
    exact Moves.refl _
  · exact Moves.refl _

theorem writeEvq_moves (s : State) (o : ℕ) (v : W32) : Moves [.ev] s (writeEvq s o v) := by
  unfold writeEvq
  refine Moves.ite (fun _ => ?_) (fun _ => ?_)
  · refine Moves.step (State.modSrc_moves ..) rfl ?_
    exact Moves.refl _
  · refine Moves.ite (fun _ => ?_) (fun _ => ?_)
    · refine Moves.upd rfl (fun p => by
          cases p
          case ev => exact Or.inl ⟨rfl, fun _ h => latWrite_ok (h .ev) ..⟩
          all_goals exact Or.inr rfl) ?_
      exact Moves.refl _
    · split
      · refine Moves.upd rfl (fun p => by cases p; (case ev => exact Or.inl ⟨rfl, fun _ h => h .ev⟩); all_goals exact Or.inr rfl) ?_
        exact Moves.refl _
      · refine Moves.upd rfl (fun p => by cases p; (case ev => exact Or.inl ⟨rfl, fun _ h => h .ev⟩); all_goals exact Or.inr rfl) ?_
        exact Moves.refl _
      · refine Moves.upd rfl (fun p => by
            cases p
            case ev => exact Or.inl ⟨rfl, fun _ h => evqAckWrite_ok (h .ev) _⟩
            all_goals exact Or.inr rfl) ?_
        exact Moves.refl _
      · refine Moves.upd rfl (fun p => by
            cases p
            case ev => exact Or.inl ⟨rfl, fun _ h => countClearWrite_ok (h .ev) _⟩
            all_goals exact Or.inr rfl) ?_
        exact Moves.refl _
      · refine Moves.upd rfl (fun p => by cases p; (case ev => exact Or.inl ⟨rfl, fun _ h => h .ev⟩); all_goals exact Or.inr rfl) ?_
        exact Moves.refl _
      · refine Moves.upd rfl (fun p => by cases p; (case ev => exact Or.inl ⟨rfl, fun _ h => h .ev⟩); all_goals exact Or.inr rfl) ?_
        exact Moves.refl _
      · exact Moves.refl _

theorem writeMbx_moves (s : State) (o : ℕ) (v : W32) : Moves [.mbx] s (writeMbx s o v) := by
  unfold writeMbx
  extract_lets +onlyGivenNames x1
  clear_value x1
  refine Moves.ite (fun _ => ?_) (fun _ => ?_)
  · refine Moves.step (State.modSlot_moves ..) rfl ?_
    exact Moves.refl _
  · exact Moves.refl _

theorem writeLnk_moves (s : State) (k : PortIx) (o : ℕ) (v : W32) : Moves [.port] s (writeLnk s k o v) := by
  unfold writeLnk
  refine Moves.ite (fun _ => ?_) (fun _ => ?_)
  · refine Moves.step (State.modPort_moves ..) rfl ?_
    exact Moves.refl _
  · exact Moves.refl _

theorem writeFlt_moves (s : State) (o : ℕ) (v : W32) : Moves [.ch, .ev, .img, .port, .conv] s (writeFlt s o v) := by
  unfold writeFlt
  refine Moves.ite (fun _ => ?_) (fun _ => ?_)
  · refine Moves.step (writeCoeff_moves ..) rfl ?_
    exact Moves.refl _
  · refine Moves.ite (fun _ => ?_) (fun _ => ?_)
    · extract_lets +onlyGivenNames x1
      clear_value x1
      refine Moves.ite (fun _ => ?_) (fun _ => ?_)
      · refine Moves.step (writePctl_moves ..) rfl ?_
        exact Moves.refl _
      · refine Moves.ite (fun _ => ?_) (fun _ => ?_)
        · refine Moves.step (State.modPath_moves ..) rfl ?_
          exact Moves.refl _
        · exact Moves.refl _
    · refine Moves.ite (fun _ => ?_) (fun _ => ?_)
      · refine Moves.upd rfl (fun p => by cases p; (case conv => exact Or.inl ⟨rfl, fun _ h => h .conv⟩); all_goals exact Or.inr rfl) ?_
        exact Moves.refl _
      · exact Moves.refl _

theorem writeStaging_moves (s : State) (o : ℕ) (v : W32) : Moves [.recov] s (writeStaging s o v) := by
  unfold writeStaging
  refine Moves.ite (fun _ => ?_) (fun _ => ?_)
  · refine Moves.upd rfl (fun p => by
        cases p
        case recov => exact Or.inl ⟨rfl, fun _ h => ⟨swf_swriteList (h .recov).1 .., (h .recov).2⟩⟩
        all_goals exact Or.inr rfl) ?_
    exact Moves.refl _
  · exact Moves.refl _

theorem writeWord_moves (s : State) (a : ℕ) (v : W32)
    : Moves [.clk, .m, .boot, .triad, .recov, .bw, .ch, .ev, .mbx, .img, .port, .conv, .loop, .time, .rul, .mem] s (writeWord s a v) := by
  unfold writeWord
  extract_lets +onlyGivenNames x1
  clear_value x1
  refine Moves.ite (fun _ => ?_) (fun _ => ?_)
  · exact Moves.refl _
  · refine Moves.ite (fun _ => ?_) (fun _ => ?_)
    · refine Moves.step (writeDev_moves ..) rfl ?_
      exact Moves.refl _
    · refine Moves.ite (fun _ => ?_) (fun _ => ?_)
      · refine Moves.step (writeCh_moves ..) rfl ?_
        exact Moves.refl _
      · refine Moves.ite (fun _ => ?_) (fun _ => ?_)
        · refine Moves.ite (fun _ => ?_) (fun _ => ?_)
          · refine Moves.upd rfl (fun p => by cases p; (case conv => exact Or.inl ⟨rfl, fun _ h => h .conv⟩); all_goals exact Or.inr rfl) ?_
            exact Moves.refl _
          · exact Moves.refl _
        · refine Moves.ite (fun _ => ?_) (fun _ => ?_)
          · refine Moves.step (writeEvq_moves ..) rfl ?_
            exact Moves.refl _
          · refine Moves.ite (fun _ => ?_) (fun _ => ?_)
            · refine Moves.step (writeMbx_moves ..) rfl ?_
              exact Moves.refl _
            · refine Moves.ite (fun _ => ?_) (fun _ => ?_)
              · exact Moves.refl _
              · refine Moves.ite (fun _ => ?_) (fun _ => ?_)
                · refine Moves.dite (fun _ => ?_) (fun _ => ?_)
                  · refine Moves.step (writeLnk_moves ..) rfl ?_
                    exact Moves.refl _
                  · exact Moves.refl _
                · refine Moves.ite (fun _ => ?_) (fun _ => ?_)
                  · exact Moves.refl _
                  · refine Moves.ite (fun _ => ?_) (fun _ => ?_)
                    · refine Moves.ite (fun _ => ?_) (fun _ => ?_)
                      · refine Moves.upd rfl (fun p => by
                            cases p
                            case rul => exact Or.inl ⟨rfl, fun _ _ => trivial⟩
                            all_goals exact Or.inr rfl) ?_
                        exact Moves.refl _
                      · exact Moves.refl _
                    · refine Moves.ite (fun _ => ?_) (fun _ => ?_)
                      · refine Moves.step (writeFlt_moves ..) rfl ?_
                        exact Moves.refl _
                      · refine Moves.ite (fun _ => ?_) (fun _ => ?_)
                        · exact Moves.refl _
                        · refine Moves.ite (fun _ => ?_) (fun _ => ?_)
                          · refine Moves.step (writeStaging_moves ..) rfl ?_
                            exact Moves.refl _
                          · refine Moves.ite (fun _ => ?_) (fun _ => ?_)
                            · exact Moves.refl _
                            · refine Moves.step (memError_moves ..) rfl ?_
                              exact Moves.refl _

theorem runUnknown_moves (s : State) (i : SlotIx) (code : W16) (tag : W16) : Moves [.mbx] s (runUnknown s i code tag) := by
  unfold runUnknown
  refine Moves.step (mbxRun_moves (ps := [.mbx]) (hc := rfl) (hf6 := fun y1_0 => ?_) ..) (covers_refl _) ?_
  · refine Moves.step (mbxEnd_moves ..) rfl ?_
    exact Moves.refl _
  · exact Moves.refl _

theorem mbxDispatch_moves (s : State) (i : SlotIx) (code : W16) (tag : W16)
    : Moves (partsBut [.pending, .tick, .otp]) s (mbxDispatch s i code tag) := by
  unfold mbxDispatch
  split
  · refine Moves.step (runNop_moves ..) rfl ?_
    exact Moves.refl _
  · refine Moves.step (runFence_moves ..) rfl ?_
    exact Moves.refl _
  · refine Moves.step (runReinit_moves ..) rfl ?_
    exact Moves.refl _
  · refine Moves.step (runResetDevice_moves ..) rfl ?_
    exact Moves.refl _
  · refine Moves.step (runRequestPowerCycle_moves ..) rfl ?_
    exact Moves.refl _
  · refine Moves.step (runRetireChannel_moves ..) rfl ?_
    exact Moves.refl _
  · refine Moves.step (runReturnChannel_moves ..) rfl ?_
    exact Moves.refl _
  · refine Moves.step (runMapSpare_moves ..) rfl ?_
    exact Moves.refl _
  · refine Moves.step (runTrimZero_moves ..) rfl ?_
    exact Moves.refl _
  · refine Moves.step (runTrimSpan_moves ..) rfl ?_
    exact Moves.refl _
  · refine Moves.step (runRestoreFactory_moves ..) rfl ?_
    exact Moves.refl _
  · refine Moves.step (runEnrolSignature_moves ..) rfl ?_
    exact Moves.refl _
  · refine Moves.step (runStageOpen_moves ..) rfl ?_
    exact Moves.refl _
  · refine Moves.step (runStageCommit_moves ..) rfl ?_
    exact Moves.refl _
  · refine Moves.step (runStageAbort_moves ..) rfl ?_
    exact Moves.refl _
  · refine Moves.step (runCheck_moves ..) rfl ?_
    exact Moves.refl _
  · refine Moves.step (runForceSafe_moves ..) rfl ?_
    exact Moves.refl _
  · refine Moves.step (runLeaveSafe_moves ..) rfl ?_
    exact Moves.refl _
  · refine Moves.step (runEnterTrim_moves ..) rfl ?_
    exact Moves.refl _
  · refine Moves.step (runLeaveTrim_moves ..) rfl ?_
    exact Moves.refl _
  · refine Moves.step (runWriteConfig_moves ..) rfl ?_
    exact Moves.refl _
  · refine Moves.step (runHartPass_moves ..) rfl ?_
    exact Moves.refl _
  · refine Moves.step (runUnknown_moves ..) rfl ?_
    exact Moves.refl _

theorem runCmds_moves (s : State) (cs : List (SlotIx × W32)) : Moves (partsBut [.pending, .tick, .otp]) s (runCmds s cs) := by
  unfold runCmds
  split
  · refine Moves.step (runResetDevice_moves ..) rfl ?_
    exact Moves.refl _
  · refine Moves.foldl (fun y1 z1 => ?_) ?_
    · refine Moves.step (mbxDispatch_moves ..) rfl ?_
      exact Moves.refl _
    · exact Moves.refl _

theorem hostWords_moves (s : State) (ws : List (ℕ × W32)) : Moves (partsBut [.pending, .tick, .otp]) s (hostWords s ws) := by
  unfold hostWords
  extract_lets +onlyGivenNames x1
  clear_value x1
  extract_lets +onlyGivenNames x2
  clear_value x2
  extract_lets +onlyGivenNames x3
  have h3 : Moves (partsBut [.pending, .tick, .otp]) s x3 := by
    unfold x3
    refine Moves.foldl (fun y4 z4 => ?_) ?_
    · refine Moves.step (writeWord_moves ..) rfl ?_
      exact Moves.refl _
    · exact Moves.refl _
  clear_value x3
  extract_lets +onlyGivenNames x5
  have h5 : Moves (partsBut [.pending, .tick, .otp]) s x5 := by
    unfold x5
    refine Moves.ite (fun _ => ?_) (fun _ => ?_)
    · assumption
    · refine Moves.step (originWrites_moves ..) rfl ?_
      assumption
  clear_value x5
  refine Moves.step (runCmds_moves ..) rfl ?_
  refine Moves.foldl (fun y6 z6 => ?_) ?_
  · refine Moves.ite (fun _ => ?_) (fun _ => ?_)
    · exact Moves.refl _
    · refine Moves.step (writeWord_moves ..) rfl ?_
      exact Moves.refl _
  · assumption

theorem hostWrite_moves (s : State) (addr : ℕ) (ws : List (ℕ × W32))
    : Moves (partsBut [.pending, .tick, .otp]) s (hostWrite s addr ws) := by
  unfold hostWrite
  refine Moves.step (whenServed_moves (ps := (partsBut [.pending, .tick, .otp])) (hc := rfl) (hf2 := fun y1_0 => ?_) ..) (covers_refl _) ?_
  · refine Moves.ite (fun _ => ?_) (fun _ => ?_)
    · exact Moves.refl _
    · refine Moves.step (hostWords_moves ..) rfl ?_
      exact Moves.refl _
  · exact Moves.refl _

/-! ## HostPort -/

theorem State.modHost_moves (s : State) (f : HostPort → HostPort) : Moves [.host] s (State.modHost s f) := by
  unfold State.modHost
  refine Moves.upd rfl (fun p => by cases p; (case host => exact Or.inl ⟨rfl, fun _ _ => trivial⟩); all_goals exact Or.inr rfl) ?_
  exact Moves.refl _

theorem endRead_moves (s : State) : Moves [.host] s (endRead s) := by
  unfold endRead
  refine Moves.step (State.modHost_moves ..) rfl ?_
  exact Moves.refl _

theorem frameStart_moves {ps : List Part} (hc : covers ps [.ev, .port, .host] = true) (s : State) (cycles : ℕ) (f : State → State)
    (hf2 : ∀ a0, Moves ps a0 (f a0)) : Moves ps s (frameStart s cycles f) := by
  unfold frameStart
  refine Moves.ite (fun _ => ?_) (fun _ => ?_)
  · exact Moves.refl _
  · extract_lets +onlyGivenNames x1
    have h1 : Moves ps s x1 := by
      unfold x1
      refine Moves.step (endRead_moves ..) (covers_trans hc rfl) ?_
      exact Moves.refl _
    clear_value x1
    refine Moves.ite (fun _ => ?_) (fun _ => ?_)
    · refine Moves.step (hostError_moves ..) (covers_trans hc rfl) ?_
      assumption
    · refine Moves.step (hf2 ..) (covers_refl _) ?_
      assumption

theorem unknownFrame_moves (s : State) (code : Byte) : Moves [.ev, .port, .host] s (unknownFrame s code) := by
  unfold unknownFrame
  refine Moves.step (hostError_moves ..) rfl ?_
  exact Moves.refl _

theorem clearFresh_moves (s : State) (a : ℕ) (w : W32) : Moves [.conv] s (clearFresh s a w) := by
  unfold clearFresh
  extract_lets +onlyGivenNames x1
  clear_value x1
  refine Moves.ite (fun _ => ?_) (fun _ => ?_)
  · exact Moves.refl _
  · refine Moves.ite (fun _ => ?_) (fun _ => ?_)
    · refine Moves.step (State.modPath_moves ..) rfl ?_
      exact Moves.refl _
    · refine Moves.dite (fun _ => ?_) (fun _ => ?_)
      · refine Moves.upd rfl (fun p => by cases p; (case conv => exact Or.inl ⟨rfl, fun _ h => h .conv⟩); all_goals exact Or.inr rfl) ?_
        exact Moves.refl _
      · exact Moves.refl _

theorem clearRead_moves (s : State) (a : ℕ) (bytes : List Byte) : Moves [.conv] s (clearRead s a bytes) := by
  unfold clearRead
  refine Moves.foldl (fun y1 z1 => ?_) ?_
  · refine Moves.ite (fun _ => ?_) (fun _ => ?_)
    · refine Moves.step (clearFresh_moves ..) rfl ?_
      exact Moves.refl _
    · exact Moves.refl _
  · exact Moves.refl _

theorem readFrame_moves (s : State) (cmd : Byte) (a : ℕ) (f : HostFrame) : Moves [.free, .ev, .port, .host] s (readFrame s cmd a f) := by
  unfold readFrame
  refine Moves.step (frameStart_moves (ps := [.free, .ev, .port, .host]) (hc := rfl) (hf2 := fun y1_0 => ?_) ..) (covers_refl _) ?_
  · refine Moves.ite (fun _ => ?_) (fun _ => ?_)
    · refine Moves.step (unknownFrame_moves ..) rfl ?_
      exact Moves.refl _
    · refine Moves.ite (fun _ => ?_) (fun _ => ?_)
      · refine Moves.step (hostError_moves ..) rfl ?_
        exact Moves.refl _
      · refine Moves.ite (fun _ => ?_) (fun _ => ?_)
        · refine Moves.step (hostError_moves ..) rfl ?_
          refine Moves.step (State.modHost_moves ..) rfl ?_
          exact Moves.refl _
        · refine Moves.ite (fun _ => ?_) (fun _ => ?_)
          · refine Moves.step (hostError_moves ..) rfl ?_
            refine Moves.step (State.modHost_moves ..) rfl ?_
            exact Moves.refl _
          · extract_lets +onlyGivenNames x2
            clear_value x2
            refine Moves.upd rfl (fun p => by
                cases p
                case free | host => exact Or.inl ⟨rfl, fun _ _ => trivial⟩
                all_goals exact Or.inr rfl) ?_
            exact Moves.refl _
  · exact Moves.refl _

theorem fixedFrame_moves (s : State) (code : Byte) (cycles : ℕ) (laneError : Bool) (bytes : State → List Byte)
    : Moves [.ev, .port, .host] s (fixedFrame s code cycles laneError bytes) := by
  unfold fixedFrame
  refine Moves.step (frameStart_moves (ps := [.ev, .port, .host]) (hc := rfl) (hf2 := fun y1_0 => ?_) ..) (covers_refl _) ?_
  · extract_lets +onlyGivenNames x2
    have h2 : Moves [.ev, .port, .host] y1_0 x2 := by
      unfold x2
      refine Moves.step (State.modHost_moves ..) rfl ?_
      exact Moves.refl _
    clear_value x2
    refine Moves.ite (fun _ => ?_) (fun _ => ?_)
    · refine Moves.step (hostError_moves ..) rfl ?_
      assumption
    · assumption
  · exact Moves.refl _

theorem countDone_moves (s : State) : Moves [.host] s (countDone s) := by
  unfold countDone
  refine Moves.step (State.modHost_moves ..) rfl ?_
  exact Moves.refl _

theorem carryWrite_moves (s : State) (cmd : Byte) (addr : BitVec 24) (ws : List (ℕ × W32))
    : Moves (partsBut [.pending, .tick, .otp]) s (carryWrite s cmd addr ws) := by
  unfold carryWrite
  refine Moves.ite (fun _ => ?_) (fun _ => ?_)
  · refine Moves.ite (fun _ => ?_) (fun _ => ?_)
    · exact Moves.refl _
    · refine Moves.step (hostError_moves ..) rfl ?_
      exact Moves.refl _
  · refine Moves.step (hostWords_moves ..) rfl ?_
    exact Moves.refl _

theorem carryFence_moves (s : State) (tag : W16) : Moves [.ev, .img, .port, .host] s (carryFence s tag) := by
  unfold carryFence
  refine Moves.ite (fun _ => ?_) (fun _ => ?_)
  · refine Moves.step (hostError_moves ..) rfl ?_
    exact Moves.refl _
  · refine Moves.ite (fun _ => ?_) (fun _ => ?_)
    · refine Moves.upd rfl (fun p => by cases p; (case img => exact Or.inl ⟨rfl, fun _ h => h .img⟩); all_goals exact Or.inr rfl) ?_
      exact Moves.refl _
    · extract_lets +onlyGivenNames x1
      have h1 : Moves [.ev, .img, .port, .host] s x1.1 := by
        unfold x1
        refine Moves.step (placeFence_moves ..) rfl ?_
        exact Moves.refl _
      clear_value x1
      refine Moves.ite (fun _ => ?_) (fun _ => ?_)
      · refine Moves.step (countDone_moves ..) rfl ?_
        assumption
      · assumption

theorem carryHeld_moves (s : State) (f : HeldFrame) : Moves (partsBut [.pending, .tick, .otp]) s (carryHeld s f) := by
  unfold carryHeld
  split
  · refine Moves.step (carryWrite_moves ..) rfl ?_
    exact Moves.refl _
  · refine Moves.step (carryFence_moves ..) rfl ?_
    exact Moves.refl _

theorem countAccepted_moves (s : State) (f : HeldFrame) : Moves [.host] s (countAccepted s f) := by
  unfold countAccepted
  split
  · refine Moves.ite (fun _ => ?_) (fun _ => ?_)
    · exact Moves.refl _
    · refine Moves.step (countDone_moves ..) rfl ?_
      exact Moves.refl _
  · exact Moves.refl _

theorem acceptFrame_moves (s : State) (f : HeldFrame) (cmd : Byte) (addr : BitVec 24)
    : Moves (partsBut [.pending, .tick, .otp]) s (acceptFrame s f cmd addr) := by
  unfold acceptFrame
  refine Moves.ite (fun _ => ?_) (fun _ => ?_)
  · refine Moves.step (carryHeld_moves ..) rfl ?_
    refine Moves.step (countAccepted_moves ..) rfl ?_
    exact Moves.refl _
  · refine Moves.ite (fun _ => ?_) (fun _ => ?_)
    · refine Moves.step (hostError_moves ..) rfl ?_
      exact Moves.refl _
    · refine Moves.ite (fun _ => ?_) (fun _ => ?_)
      · refine Moves.step (countAccepted_moves ..) rfl ?_
        refine Moves.upd rfl (fun p => by
            cases p
            case held => exact Or.inl ⟨rfl, fun _ h => holdRoom_append _ (by assumption)⟩
            all_goals exact Or.inr rfl) ?_
        exact Moves.refl _
      · refine Moves.step (hostError_moves ..) rfl ?_
        exact Moves.refl _

theorem writeFrame_moves (s : State) (cmd : Byte) (d : ℕ) (f : HostFrame)
    : Moves (partsBut [.pending, .tick, .otp]) s (writeFrame s cmd d f) := by
  unfold writeFrame
  extract_lets +onlyGivenNames x1
  clear_value x1
  extract_lets +onlyGivenNames x2
  clear_value x2
  refine Moves.ite (fun _ => ?_) (fun _ => ?_)
  · refine Moves.step (hostError_moves ..) rfl ?_
    exact Moves.refl _
  · refine Moves.ite (fun _ => ?_) (fun _ => ?_)
    · refine Moves.step (hostError_moves ..) rfl ?_
      exact Moves.refl _
    · refine Moves.ite (fun _ => ?_) (fun _ => ?_)
      · refine Moves.step (hostError_moves ..) rfl ?_
        exact Moves.refl _
      · refine Moves.ite (fun _ => ?_) (fun _ => ?_)
        · refine Moves.step (hostError_moves ..) rfl ?_
          exact Moves.refl _
        · refine Moves.ite (fun _ => ?_) (fun _ => ?_)
          · refine Moves.step (hostError_moves ..) rfl ?_
            exact Moves.refl _
          · refine Moves.ite (fun _ => ?_) (fun _ => ?_)
            · refine Moves.step (hostError_moves ..) rfl ?_
              exact Moves.refl _
            · refine Moves.ite (fun _ => ?_) (fun _ => ?_)
              · refine Moves.step (hostError_moves ..) rfl ?_
                exact Moves.refl _
              · refine Moves.step (acceptFrame_moves ..) rfl ?_
                exact Moves.refl _

theorem legacyWriteFrame_moves (s : State) (a : W16) (data : List Byte) (c : ℕ) (laneError : Bool)
    : Moves (partsBut [.pending, .tick, .otp]) s (legacyWriteFrame s a data c laneError) := by
  unfold legacyWriteFrame
  extract_lets +onlyGivenNames x1
  clear_value x1
  extract_lets +onlyGivenNames x2
  clear_value x2
  extract_lets +onlyGivenNames x3
  clear_value x3
  refine Moves.ite (fun _ => ?_) (fun _ => ?_)
  · refine Moves.step (hostError_moves ..) rfl ?_
    exact Moves.refl _
  · refine Moves.ite (fun _ => ?_) (fun _ => ?_)
    · refine Moves.step (hostError_moves ..) rfl ?_
      exact Moves.refl _
    · refine Moves.ite (fun _ => ?_) (fun _ => ?_)
      · refine Moves.step (hostError_moves ..) rfl ?_
        exact Moves.refl _
      · refine Moves.ite (fun _ => ?_) (fun _ => ?_)
        · refine Moves.step (hostError_moves ..) rfl ?_
          exact Moves.refl _
        · refine Moves.ite (fun _ => ?_) (fun _ => ?_)
          · refine Moves.step (hostError_moves ..) rfl ?_
            exact Moves.refl _
          · refine Moves.ite (fun _ => ?_) (fun _ => ?_)
            · refine Moves.step (hostError_moves ..) rfl ?_
              exact Moves.refl _
            · refine Moves.step (acceptFrame_moves ..) rfl ?_
              exact Moves.refl _

theorem legacyReadFrame_moves (s : State) (f : HostFrame) (late : Bool)
    : Moves [.free, .ev, .port, .conv, .host] s (legacyReadFrame s f late) := by
  unfold legacyReadFrame
  refine Moves.step (frameStart_moves (ps := [.free, .ev, .port, .conv, .host]) (hc := rfl) (hf2 := fun y1_0 => ?_) ..) (covers_refl _) ?_
  · extract_lets +onlyGivenNames x2
    clear_value x2
    extract_lets +onlyGivenNames x3
    clear_value x3
    extract_lets +onlyGivenNames x4
    clear_value x4
    extract_lets +onlyGivenNames x5
    clear_value x5
    refine Moves.ite (fun _ => ?_) (fun _ => ?_)
    · refine Moves.step (unknownFrame_moves ..) rfl ?_
      exact Moves.refl _
    · refine Moves.ite (fun _ => ?_) (fun _ => ?_)
      · refine Moves.step (hostError_moves ..) rfl ?_
        exact Moves.refl _
      · refine Moves.ite (fun _ => ?_) (fun _ => ?_)
        · refine Moves.step (hostError_moves ..) rfl ?_
          refine Moves.step (State.modHost_moves ..) rfl ?_
          exact Moves.refl _
        · extract_lets +onlyGivenNames x6
          clear_value x6
          extract_lets +onlyGivenNames x7
          clear_value x7
          extract_lets +onlyGivenNames x8
          clear_value x8
          extract_lets +onlyGivenNames x9
          have h9 : Moves [.free, .ev, .port, .conv, .host] y1_0 x9 := by
            unfold x9
            refine Moves.upd rfl (fun p => by
                cases p
                case free | host => exact Or.inl ⟨rfl, fun _ _ => trivial⟩
                all_goals exact Or.inr rfl) ?_
            exact Moves.refl _
          clear_value x9
          refine Moves.ite (fun _ => ?_) (fun _ => ?_)
          · refine Moves.ite (fun _ => ?_) (fun _ => ?_)
            · assumption
            · refine Moves.step (hostError_moves ..) rfl ?_
              assumption
          · refine Moves.ite (fun _ => ?_) (fun _ => ?_)
            · assumption
            · refine Moves.step (clearRead_moves ..) rfl ?_
              assumption
  · exact Moves.refl _

/-! ## LinkPort -/

theorem putOut_moves (s : State) (k : PortIx) (o : LinkOut) : Moves [.port] s (putOut s k o) := by
  unfold putOut
  refine Moves.step (State.modPort_moves ..) rfl ?_
  exact Moves.refl _

theorem enterUp_moves (s : State) (k : PortIx) : Moves [.ev, .img, .port] s (enterUp s k) := by
  unfold enterUp
  extract_lets +onlyGivenNames x1
  have h1 : Moves [.ev, .img, .port] s x1 := by
    unfold x1
    refine Moves.step (State.modPort_moves ..) rfl ?_
    exact Moves.refl _
  clear_value x1
  extract_lets +onlyGivenNames x2
  have h2 : Moves [.ev, .img, .port] s x2 := by
    unfold x2
    refine Moves.step (entriesUp_moves ..) rfl ?_
    refine Moves.step (setPortState_moves ..) rfl ?_
    assumption
  clear_value x2
  refine Moves.ite (fun _ => ?_) (fun _ => ?_)
  · refine Moves.step (sendDisc_moves ..) rfl ?_
    assumption
  · assumption

theorem upBySymbol_moves (s : State) (k : PortIx) : Moves [.ev, .img, .port] s (upBySymbol s k) := by
  unfold upBySymbol
  refine Moves.ite (fun _ => ?_) (fun _ => ?_)
  · refine Moves.step (enterUp_moves ..) rfl ?_
    exact Moves.refl _
  · exact Moves.refl _

theorem takeTrain_moves (s : State) (k : PortIx) (t : TrainInfo) : Moves [.ev, .img, .port] s (takeTrain s k t) := by
  unfold takeTrain
  extract_lets +onlyGivenNames x1
  clear_value x1
  extract_lets +onlyGivenNames x2
  clear_value x2
  extract_lets +onlyGivenNames x3
  clear_value x3
  extract_lets +onlyGivenNames x4
  clear_value x4
  extract_lets +onlyGivenNames x5
  have h5 : Moves [.ev, .img, .port] s x5 := by
    unfold x5
    refine Moves.step (State.modPort_moves ..) rfl ?_
    exact Moves.refl _
  clear_value x5
  extract_lets +onlyGivenNames x6
  have h6 : Moves [.ev, .img, .port] s x6 := by
    unfold x6
    refine Moves.foldl (fun y7 z7 => ?_) ?_
    · refine Moves.ite (fun _ => ?_) (fun _ => ?_)
      · refine Moves.step (raiseLinkErr_moves ..) rfl ?_
        exact Moves.refl _
      · exact Moves.refl _
    · assumption
  clear_value x6
  refine Moves.ite (fun _ => ?_) (fun _ => ?_)
  · refine Moves.step (enterUp_moves ..) rfl ?_
    assumption
  · assumption

theorem ctlError_moves (s : State) (k : PortIx) : Moves [.port] s (ctlError s k) := by
  unfold ctlError
  refine Moves.step (State.modPort_moves ..) rfl ?_
  exact Moves.refl _

theorem takeControl_moves {ps : List Part} (hc : covers ps [.ev, .img, .port] = true) (s : State) (k : PortIx) (ok : Bool)
    (f : State → State) (hf3 : ∀ a0, Moves ps a0 (f a0)) : Moves ps s (takeControl s k ok f) := by
  unfold takeControl
  extract_lets +onlyGivenNames x1
  have h1 : Moves ps s x1 := by
    unfold x1
    refine Moves.step (upBySymbol_moves ..) (covers_trans hc rfl) ?_
    refine Moves.step (clearOut_moves ..) (covers_trans hc rfl) ?_
    exact Moves.refl _
  clear_value x1
  refine Moves.ite (fun _ => ?_) (fun _ => ?_)
  · assumption
  · refine Moves.ite (fun _ => ?_) (fun _ => ?_)
    · refine Moves.step (ctlError_moves ..) (covers_trans hc rfl) ?_
      assumption
    · refine Moves.ite (fun _ => ?_) (fun _ => ?_)
      · refine Moves.step (hf3 ..) (covers_refl _) ?_
        assumption
      · assumption

theorem sendOf_moves (s : State) (k : PortIx) (c : LinkClass) (i : ℕ) (f : TxFrame) : Moves [.port] s (sendOf s k c i f) := by
  unfold sendOf
  refine Moves.step (State.modPort_moves ..) rfl ?_
  exact Moves.refl _

theorem resendClass_moves (s : State) (k : PortIx) (c : LinkClass) : Moves [.port] s (resendClass s k c) := by
  unfold resendClass
  extract_lets +onlyGivenNames x1
  clear_value x1
  refine Moves.step (State.modPort_moves ..) rfl ?_
  exact Moves.refl _

theorem sendClass_moves {s t : State} {k : PortIx} {c : LinkClass} (h : sendClass s k c = some t) : Moves [.port] s t := by
  unfold sendClass at h
  dsimp only at h
  split at h
  · split at h
    · cases h
      exact (resendClass_moves ..).widen rfl
    · cases h
  · obtain ⟨j, _, rfl⟩ := Option.map_eq_some_iff.mp h
    exact (sendOf_moves ..).widen rfl

theorem timeOn_moves (s : State) (w : WheelIx) (fTx : Byte) (k : PortIx) : Moves [.port] s (timeOn s w fTx k) := by
  unfold timeOn
  refine Moves.ite (fun _ => ?_) (fun _ => Moves.refl _)
  extract_lets a s1
  have h1 : Moves [.port] s s1 := (sendOn_moves ..).widen rfl
  refine Moves.ite (fun _ => ?_) (fun _ => h1)
  cases e : sendClass s1 k .response with
  | none => exact h1
  | some t => exact Moves.step (sendClass_moves e) rfl h1

/-! ## LinkFrames -/

theorem bufferFrame_moves (s : State) (k : PortIx) (h : LinkHeader) (m : LinkMsg) (units : ℕ)
    : Moves [.img, .port] s (bufferFrame s k h m units) := by
  unfold bufferFrame
  extract_lets +onlyGivenNames x1
  extract_lets +onlyGivenNames x2
  have h2 : Moves [.img, .port] s x2 := by
    unfold x2
    refine Moves.step (State.modPort_moves ..) rfl ?_
    exact Moves.refl _
  clear_value x2
  refine Moves.upd rfl (fun p => by
      cases p
      case img => exact Or.inl ⟨rfl, fun h0 h => by have k := h0 .img; unfold Part.sound at k ⊢; exact ⟨k.1, fun g hg => Nat.lt_succ_of_lt (k.2.1 g hg), k.2.2⟩⟩
      all_goals exact Or.inr rfl) ?_
  assumption

theorem linkFrame_moves {ps : List Part} (hc : covers ps [.ev, .img, .port] = true) (s : State) (k : PortIx) (h : LinkHeader)
    (m : LinkMsg) (wait : State → Bool) (f : State → State) (hf5 : ∀ a0, Moves ps a0 (f a0)) : Moves ps s (linkFrame s k h m wait f) := by
  unfold linkFrame
  extract_lets +onlyGivenNames x1
  have h1 : Moves ps s x1 := by
    unfold x1
    refine Moves.step (upBySymbol_moves ..) (covers_trans hc rfl) ?_
    refine Moves.step (clearOut_moves ..) (covers_trans hc rfl) ?_
    exact Moves.refl _
  clear_value x1
  refine Moves.step (receiveFrame_moves (ps := ps) (hc := covers_trans hc rfl) (hf5 := fun y2_0 => ?_) ..) (covers_refl _) ?_
  · refine Moves.ite (fun _ => ?_) (fun _ => ?_)
    · refine Moves.step (bufferFrame_moves ..) (covers_trans hc rfl) ?_
      exact Moves.refl _
    · refine Moves.step (hf5 ..) (covers_refl _) ?_
      exact Moves.refl _
  · assumption

theorem applyUpdate_moves (s : State) (k : PortIx) (tag : W16) (sweep : Bool) (es : List (BitVec 20 × W32))
    : Moves [.img, .port] s (applyUpdate s k tag sweep es) := by
  unfold applyUpdate
  extract_lets +onlyGivenNames x1
  have h1 : Moves [.img, .port] s x1.1 := by
    unfold x1
    refine Moves.step (takeWords_moves ..) rfl ?_
    exact Moves.refl _
  clear_value x1
  refine Moves.step (sendResponse_moves ..) rfl ?_
  assumption

theorem remoteEntry_moves (s : State) (src : SrcIx) (addr : BitVec 20) (count : W16) (detail : W32)
    : Moves [.ev, .port] s (remoteEntry s src addr count detail) := by
  unfold remoteEntry
  extract_lets +onlyGivenNames x1
  clear_value x1
  refine Moves.ite (fun _ => ?_) (fun _ => ?_)
  · exact Moves.refl _
  · extract_lets +onlyGivenNames x2
    clear_value x2
    refine Moves.step (enqueue_moves ..) rfl ?_
    refine Moves.upd rfl (fun p => by cases p; (case ev => exact Or.inl ⟨rfl, fun _ h => h .ev⟩); all_goals exact Or.inr rfl) ?_
    exact Moves.refl _

theorem actLamp_moves (s : State) (k : PortIx) (a : BitVec 20) (w : W32) (origin : Byte)
    : Moves [.ev, .img, .port] s (actLamp s k a w origin) := by
  unfold actLamp
  refine Moves.ite (fun _ => ?_) (fun _ => ?_)
  · refine Moves.upd rfl (fun p => by
        cases p
        case ev => exact Or.inl ⟨rfl, fun _ h => h .ev⟩
        case img => exact Or.inl ⟨rfl, fun _ h => h .img⟩
        all_goals exact Or.inr rfl) ?_
    exact Moves.refl _
  · extract_lets +onlyGivenNames x1
    have h1 : Moves [.ev, .img, .port] s x1 := by
      unfold x1
      refine Moves.ite (fun _ => ?_) (fun _ => ?_)
      · refine Moves.step (epStore_moves ..) rfl ?_
        exact Moves.refl _
      · exact Moves.refl _
    clear_value x1
    refine Moves.step (remoteEntry_moves ..) rfl ?_
    assumption

theorem actEvent_moves (s : State) (k : PortIx) (src : BitVec 7) (count : W16) (a : BitVec 20)
    : Moves [.ev, .port] s (actEvent s k src count a) := by
  unfold actEvent
  refine Moves.ite (fun _ => ?_) (fun _ => ?_)
  · refine Moves.upd rfl (fun p => by cases p; (case ev => exact Or.inl ⟨rfl, fun _ h => h .ev⟩); all_goals exact Or.inr rfl) ?_
    exact Moves.refl _
  · refine Moves.step (remoteEntry_moves ..) rfl ?_
    exact Moves.refl _

theorem lateResponse_moves (s : State) (k : PortIx) : Moves [.port] s (lateResponse s k) := by
  unfold lateResponse
  refine Moves.step (State.modPort_moves ..) rfl ?_
  exact Moves.refl _

theorem takeResponse_moves {ps : List Part} (hc : covers ps [.port] = true) (s : State) (k : PortIx) (tag : W16)
    (f : OutRequest → State → State) (hf3 : ∀ a0 a1, Moves ps a1 (f a0 a1)) : Moves ps s (takeResponse s k tag f) := by
  unfold takeResponse
  split
  · refine Moves.step (hf3 ..) (covers_refl _) ?_
    exact Moves.refl _
  · refine Moves.step (lateResponse_moves ..) (covers_trans hc rfl) ?_
    exact Moves.refl _

theorem recordReasons_moves (s : State) (src : BitVec 2) (v2 : List (BitVec 20)) (v3 : List Byte)
    : Moves [.ev, .img, .port, .rul] s (recordReasons s src v2 v3) := by
  fun_induction recordReasons s src v2 v3
  · refine Moves.step (by assumption) (covers_refl _) ?_
    refine Moves.ite (fun _ => ?_) (fun _ => ?_)
    · exact Moves.refl _
    · refine Moves.step (recordRefusal_moves ..) rfl ?_
      exact Moves.refl _
  · exact Moves.refl _

theorem actWriteRsp_moves (s : State) (k : PortIx) (tag : W16) (reasons : List Byte)
    : Moves [.ev, .img, .port, .rul] s (actWriteRsp s k tag reasons) := by
  unfold actWriteRsp
  refine Moves.step (takeResponse_moves (ps := [.ev, .img, .port, .rul]) (hc := rfl) (hf3 := fun y1_0 y1_1 => ?_) ..) (covers_refl _) ?_
  · split
    · refine Moves.step (fenceWriteDone_moves ..) rfl ?_
      refine Moves.step (recordReasons_moves ..) rfl ?_
      refine Moves.step (dropOut_moves ..) rfl ?_
      exact Moves.refl _
    · refine Moves.step (mergeFill_moves ..) rfl ?_
      refine Moves.step (fenceWriteDone_moves ..) rfl ?_
      refine Moves.step (dropOut_moves ..) rfl ?_
      exact Moves.refl _
    · refine Moves.step (lateResponse_moves ..) rfl ?_
      exact Moves.refl _
  · exact Moves.refl _

theorem actUpdateAck_moves (s : State) (k : PortIx) (tag : W16) : Moves [.img, .port] s (actUpdateAck s k tag) := by
  unfold actUpdateAck
  refine Moves.step (takeResponse_moves (ps := [.img, .port]) (hc := rfl) (hf3 := fun y1_0 y1_1 => ?_) ..) (covers_refl _) ?_
  · split
    · refine Moves.ite (fun _ => ?_) (fun _ => ?_)
      · refine Moves.step (dropOut_moves ..) rfl ?_
        exact Moves.refl _
      · refine Moves.step (fenceUpdateDone_moves ..) rfl ?_
        refine Moves.step (dropOut_moves ..) rfl ?_
        exact Moves.refl _
    · refine Moves.step (lateResponse_moves ..) rfl ?_
      exact Moves.refl _
  · exact Moves.refl _

theorem actFenceRsp_moves (s : State) (k : PortIx) (tag : W16) (code : Byte) : Moves [.img, .port] s (actFenceRsp s k tag code) := by
  unfold actFenceRsp
  refine Moves.step (takeResponse_moves (ps := [.img, .port]) (hc := rfl) (hf3 := fun y1_0 y1_1 => ?_) ..) (covers_refl _) ?_
  · split
    · refine Moves.step (fenceHeard_moves ..) rfl ?_
      refine Moves.step (dropOut_moves ..) rfl ?_
      exact Moves.refl _
    · refine Moves.step (lateResponse_moves ..) rfl ?_
      exact Moves.refl _
  · exact Moves.refl _

theorem actErrorRsp_moves (s : State) (k : PortIx) (tag : W16) (code : Byte)
    : Moves [.ev, .img, .port, .rul] s (actErrorRsp s k tag code) := by
  unfold actErrorRsp
  refine Moves.step (takeResponse_moves (ps := [.ev, .img, .port, .rul]) (hc := rfl) (hf3 := fun y1_0 y1_1 => ?_) ..) (covers_refl _) ?_
  · refine Moves.step (requestFailed_moves ..) rfl ?_
    exact Moves.refl _
  · exact Moves.refl _

theorem actDisc_moves (s : State) (k : PortIx) (winBase : BitVec 20) (winLog2 : Byte)
    : Moves [.ev, .img, .port] s (actDisc s k winBase winLog2) := by
  unfold actDisc
  refine Moves.step (applyPeerWindow_moves ..) rfl ?_
  refine Moves.step (State.modPort_moves ..) rfl ?_
  exact Moves.refl _

theorem serveOne_moves {s t : State} {k : PortIx} {b : BufferedRequest} (h : serveOne s k b = some t) : Moves [.free, .bw, .ch, .ev, .img, .port, .conv, .loop, .gov, .rul] s t := by
  unfold serveOne at h
  split at h
  · cases h
  extract_lets s1 at h
  have h1 : Moves [.free, .bw, .ch, .ev, .img, .port, .conv, .loop, .gov, .rul] s s1 := (releaseBuffer_moves ..).widen rfl
  clear_value s1
  split at h
  · split at h
    · cases h
    · cases h
      exact Moves.step (fenceRouted_moves ..) rfl (Moves.step (transitWrite_moves ..) rfl h1)
  · cases h
    exact Moves.step (applyUpdate_moves ..) rfl h1
  · cases h
    exact Moves.step (actWriteRsp_moves ..) rfl h1
  · cases h
    exact Moves.step (actUpdateAck_moves ..) rfl h1
  · cases h
    exact Moves.step (actFenceRsp_moves ..) rfl h1
  · cases h
    exact Moves.step (actErrorRsp_moves ..) rfl h1
  · cases h
    exact Moves.step (actDisc_moves ..) rfl h1
  · cases h
    exact Moves.step (actLamp_moves ..) rfl h1
  · cases h
    exact Moves.step (actEvent_moves ..) rfl h1
  · cases h
    exact h1

theorem serveBuffered_moves (s : State) (k : PortIx)
    : Moves [.free, .bw, .ch, .ev, .img, .port, .conv, .loop, .gov, .rul] s (serveBuffered s k) := by
  unfold serveBuffered
  extract_lets bs
  refine Moves.foldl (fun a b => ?_) ((State.modPort_moves ..).widen rfl)
  split
  next t h => exact (serveOne_moves h).widen rfl
  next => exact (State.modPort_moves ..).widen rfl

theorem serveAll_moves (s : State) : Moves [.free, .bw, .ch, .ev, .img, .port, .conv, .loop, .gov, .rul] s (serveAll s) := by
  unfold serveAll
  refine Moves.foldl (fun y1 z1 => ?_) ?_
  · refine Moves.step (serveBuffered_moves ..) rfl ?_
    exact Moves.refl _
  · refine Moves.foldl (fun y2 z2 => ?_) ?_
    · refine Moves.step (serveBuffered_moves ..) rfl ?_
      exact Moves.refl _
    · exact Moves.refl _

theorem takeTime_moves (s : State) (k : PortIx) (r : TimeRecord) (t : W64) (d : ℤ)
    : Moves [.ch, .ev, .img, .port, .wheel, .time] s (takeTime s k r t d) := by
  unfold takeTime
  extract_lets +onlyGivenNames x1
  extract_lets +onlyGivenNames x2
  clear_value x2
  extract_lets +onlyGivenNames x3
  have h3 : Moves [.ch, .ev, .img, .port, .wheel, .time] s x3 := by
    unfold x3
    refine Moves.ite (fun _ => ?_) (fun _ => ?_)
    · refine Moves.upd rfl (fun p => by cases p; (case time => exact Or.inl ⟨rfl, fun _ _ => trivial⟩); all_goals exact Or.inr rfl) ?_
      exact Moves.refl _
    · exact Moves.refl _
  clear_value x3
  refine Moves.ite (fun _ => ?_) (fun _ => ?_)
  · assumption
  · refine Moves.ite (fun _ => ?_) (fun _ => ?_)
    · refine Moves.step (rejectEvent_moves ..) rfl ?_
      assumption
    · extract_lets +onlyGivenNames x4
      clear_value x4
      extract_lets +onlyGivenNames x5
      have h5 : Moves [.ch, .ev, .img, .port, .wheel, .time] s x5 := by
        unfold x5
        refine Moves.step (State.modWheel_moves ..) rfl ?_
        refine Moves.step (captureEvent_moves ..) rfl ?_
        assumption
      clear_value x5
      refine Moves.ite (fun _ => ?_) (fun _ => ?_)
      · refine Moves.step (setUncert_moves ..) rfl ?_
        assumption
      · refine Moves.ite (fun _ => ?_) (fun _ => ?_)
        · refine Moves.step (setUncert_moves ..) rfl ?_
          assumption
        · assumption

theorem forwardUrgent_moves (s : State) (k : PortIx) (m : LinkMsg) (units : ℕ) : Moves [.port] s (forwardUrgent s k m units) := by
  unfold forwardUrgent
  split
  · refine Moves.step (sendOn_moves ..) rfl ?_
    exact Moves.refl _
  · exact Moves.refl _

theorem abortForward_moves (before : State) (after : State) (k : PortIx) (units : ℕ)
    : Moves [.port] after (abortForward before after k units) := by
  unfold abortForward
  refine Moves.ite (fun _ => ?_) (fun _ => ?_)
  · split
    · refine Moves.ite (fun _ => ?_) (fun _ => ?_)
      · refine Moves.step (State.modPort_moves ..) rfl ?_
        exact Moves.refl _
      · exact Moves.refl _
    · exact Moves.refl _
  · exact Moves.refl _

theorem urgentRecord_moves {ps : List Part} (hc : covers ps [.ev, .img, .port] = true) (s : State) (k : PortIx) (f : LinkHeader)
    (m : LinkMsg) (act : State → State) (hf4 : ∀ a0, Moves ps a0 (act a0)) : Moves ps s (urgentRecord s k f m act) := by
  unfold urgentRecord
  extract_lets +onlyGivenNames x1
  clear_value x1
  extract_lets +onlyGivenNames x2
  have h2 : Moves ps s x2 := by
    unfold x2
    refine Moves.step (upBySymbol_moves ..) (covers_trans hc rfl) ?_
    refine Moves.step (clearOut_moves ..) (covers_trans hc rfl) ?_
    exact Moves.refl _
  clear_value x2
  refine Moves.step (abortForward_moves ..) (covers_trans hc rfl) ?_
  refine Moves.step (receiveFrame_moves (ps := ps) (hc := covers_trans hc rfl) (hf5 := fun y3_0 => ?_) ..) (covers_refl _) ?_
  · extract_lets +onlyGivenNames x4
    have h4 : Moves ps y3_0 x4 := by
      unfold x4
      refine Moves.step (forwardUrgent_moves ..) (covers_trans hc rfl) ?_
      exact Moves.refl _
    clear_value x4
    refine Moves.ite (fun _ => ?_) (fun _ => ?_)
    · refine Moves.step (bufferFrame_moves ..) (covers_trans hc rfl) ?_
      assumption
    · refine Moves.step (hf4 ..) (covers_refl _) ?_
      assumption
  · assumption

/-! ## Resume -/

theorem carryAll_moves (s : State) : Moves (partsBut [.pending, .tick, .otp]) s (carryAll s) := by
  unfold carryAll
  refine Moves.foldl (fun y1 z1 => ?_) ?_
  · refine Moves.step (carryHeld_moves ..) rfl ?_
    exact Moves.refl _
  · refine Moves.upd rfl (fun p => by cases p; (case held => exact Or.inl ⟨rfl, fun _ h => Nat.zero_le _⟩); all_goals exact Or.inr rfl) ?_
    exact Moves.refl _

theorem recallEntry_moves (s : State) (je : Fin 256 × GroupEntry) : Moves [.img] s (recallEntry s je) := by
  unfold recallEntry
  refine Moves.ite (fun _ => ?_) (fun _ => ?_)
  · refine Moves.step (copiesNoComm_moves ..) rfl ?_
    exact Moves.refl _
  · exact Moves.refl _

theorem recallImage_moves (s : State) : Moves [.m, .ch, .ev, .img, .port] s (recallImage s) := by
  unfold recallImage
  refine Moves.ite (fun _ => ?_) (fun _ => ?_)
  · exact Moves.refl _
  · refine Moves.foldl (fun y1 z1 => ?_) ?_
    · refine Moves.step (recallEntry_moves ..) rfl ?_
      exact Moves.refl _
    · refine Moves.step (putAll_moves ..) rfl ?_
      exact Moves.refl _

theorem takeWaiting_moves (s : State) : Moves (partsBut [.pending, .tick, .otp]) s (takeWaiting s) := by
  unfold takeWaiting
  refine Moves.step (carryAll_moves ..) rfl ?_
  refine Moves.step (serveAll_moves ..) rfl ?_
  refine Moves.step (takeBuffered_moves ..) rfl ?_
  refine Moves.step (raiseHeld_moves ..) rfl ?_
  refine Moves.step (recallImage_moves ..) rfl ?_
  refine Moves.step (eccTaken_moves ..) rfl ?_
  exact Moves.refl _

theorem retrainL2f_moves (s : State) : Moves [.free, .recov, .bw, .fd, .ch, .mbx, .hart, .enrol] s (retrainL2f s) := by
  unfold retrainL2f
  extract_lets +onlyGivenNames x1
  extract_lets +onlyGivenNames x2
  clear_value x2
  extract_lets +onlyGivenNames x3
  have h3 : Moves [.free, .recov, .bw, .fd, .ch, .mbx, .hart, .enrol] s x3 := by
    unfold x3
    refine Moves.upd rfl (fun p => by
        cases p
        case bw => exact Or.inl ⟨rfl, fun _ _ => trivial⟩
        case recov => exact Or.inl ⟨rfl, fun _ h => h .recov⟩
        all_goals exact Or.inr rfl) ?_
    exact Moves.refl _
  clear_value x3
  refine Moves.ite (fun _ => ?_) (fun _ => ?_)
  · refine Moves.step (enterSlack_moves ..) rfl ?_
    refine Moves.upd rfl (fun p => by cases p; (case fd => exact Or.inl ⟨rfl, fun _ _ => trivial⟩); all_goals exact Or.inr rfl) ?_
    assumption
  · assumption

theorem releaseHalt_moves (s : State) (crcs : List W32) : Moves (partsBut [.pending, .tick, .otp]) s (releaseHalt s crcs) := by
  unfold releaseHalt
  refine Moves.ite (fun _ => ?_) (fun _ => ?_)
  · exact Moves.refl _
  · extract_lets +onlyGivenNames x1
    clear_value x1
    extract_lets +onlyGivenNames x2
    have h2 : Moves (partsBut [.pending, .tick, .otp]) s x2 := by
      unfold x2
      refine Moves.step (replayAll_moves ..) rfl ?_
      exact Moves.refl _
    clear_value x2
    refine Moves.step (takeWaiting_moves ..) rfl ?_
    refine Moves.step (retrainL2f_moves ..) rfl ?_
    refine Moves.upd rfl (fun p => by
        cases p
        case rul => exact Or.inl ⟨rfl, fun _ _ => trivial⟩
        case triad => exact Or.inl ⟨rfl, fun _ h => h .triad⟩
        all_goals exact Or.inr rfl) ?_
    assumption

theorem handoverOver_moves (s : State) (h : Handover) (reversed : Bool) (why : BitVec 3)
    : Moves [.recov, .rul] s (handoverOver s h reversed why) := by
  unfold handoverOver
  refine Moves.upd rfl (fun p => by
      cases p
      case rul => exact Or.inl ⟨rfl, fun _ _ => trivial⟩
      case recov => exact Or.inl ⟨rfl, fun _ h => h .recov⟩
      all_goals exact Or.inr rfl) ?_
  exact Moves.refl _

theorem resumeWith_moves (s : State) (st : StageState) : Moves (partsBut [.pending, .tick, .otp]) s (resumeWith s st) := by
  unfold resumeWith
  refine Moves.step (takeDue_moves ..) rfl ?_
  refine Moves.step (setStage_moves ..) rfl ?_
  refine Moves.step (takeWaiting_moves ..) rfl ?_
  exact Moves.refl _

theorem reverseDead_moves (s : State)
    : Moves [.free, .m, .triad, .recov, .bw, .ch, .ev, .img, .port, .trim, .wheel, .rul, .pins] s (reverseDead s) := by
  unfold reverseDead
  split
  next v s1 h =>
    extract_lets s2
    have h2 : Moves [.free, .m, .triad, .recov, .bw, .ch, .ev, .img, .port, .trim, .wheel, .rul, .pins] s s2 :=
      Moves.step (portsDown_moves ..) rfl (Moves.step (setMode_moves ..) rfl (Moves.ofSnd h ((State.draw_moves s).widen rfl)))
    clear_value s2
    refine Moves.step (setStage_moves ..) rfl ?_
    refine Moves.upd rfl (fun p => by
        cases p
        case m | bw => exact Or.inl ⟨rfl, fun _ _ => trivial⟩
        case triad => exact Or.inl ⟨rfl, fun _ h => h .triad⟩
        all_goals exact Or.inr rfl) ?_
    exact h2

/-! ## Tick -/

theorem loadDue_moves (s : State) : Moves [.free, .fd] s (loadDue s) := by
  unfold loadDue
  refine Moves.step (takePhase_moves ..) rfl ?_
  refine Moves.upd rfl (fun p => by cases p; (case fd => exact Or.inl ⟨rfl, fun _ _ => trivial⟩); all_goals exact Or.inr rfl) ?_
  exact Moves.refl _

theorem wheelDue_moves (s : State) (w : WheelIx) : Moves [.ev, .port, .conv, .wheel, .pins] s (wheelDue s w) := by
  unfold wheelDue
  split
  · refine Moves.ite (fun _ => ?_) (fun _ => ?_)
    · refine Moves.step (stepWheel_moves ..) rfl ?_
      exact Moves.refl _
    · refine Moves.step (applyInc_moves ..) rfl ?_
      exact Moves.refl _
  · exact Moves.refl _

theorem closeTick_moves (s : State) : Moves (partsBut [.pending, .tick, .otp]) s (closeTick s) := by
  unfold closeTick
  extract_lets +onlyGivenNames x1
  have h1 : Moves (partsBut [.pending, .tick, .otp]) s x1 := by
    unfold x1
    refine Moves.ite (fun _ => ?_) (fun _ => ?_)
    · refine Moves.step (releaseHalt_moves ..) rfl ?_
      exact Moves.refl _
    · exact Moves.refl _
  clear_value x1
  extract_lets +onlyGivenNames x2
  have h2 : Moves (partsBut [.pending, .tick, .otp]) s x2 := by
    unfold x2
    refine Moves.foldl (fun y3 z3 => ?_) ?_
    · refine Moves.step (wheelDue_moves ..) rfl ?_
      exact Moves.refl _
    · refine Moves.step (issueStepFive_moves ..) rfl ?_
      assumption
  clear_value x2
  extract_lets +onlyGivenNames x4
  have h4 : Moves (partsBut [.pending, .tick, .otp]) s x4 := by
    unfold x4
    refine Moves.step (tideFall_moves ..) rfl ?_
    refine Moves.step (tidePulse_moves ..) rfl ?_
    refine Moves.foldl (fun y5 z5 => ?_) ?_
    · refine Moves.step (alignCrossing_moves ..) rfl ?_
      exact Moves.refl _
    · assumption
  clear_value x4
  refine Moves.foldl (fun y6 z6 => ?_) ?_
  · refine Moves.step (charEdge_moves ..) rfl ?_
    refine Moves.step (changeover_moves ..) rfl ?_
    exact Moves.refl _
  · assumption

theorem serveDue_moves (s : State) : Moves [.free, .bw, .ch, .ev, .img, .port, .conv, .loop, .gov, .rul] s (serveDue s) := by
  unfold serveDue
  refine Moves.ite (fun _ => ?_) (fun _ => ?_)
  · refine Moves.step (serveAll_moves ..) rfl ?_
    exact Moves.refl _
  · exact Moves.refl _

theorem idle_moves (s : State) : Moves (partsBut [.pending, .otp]) s (idle s) := by
  unfold idle
  extract_lets +onlyGivenNames x1
  have h1 : Moves (partsBut [.pending, .otp]) s x1 := by
    unfold x1
    refine Moves.step (serveDue_moves ..) rfl ?_
    refine Moves.step (closeTick_moves ..) rfl ?_
    exact Moves.refl _
  clear_value x1
  refine Moves.step (scanDue_moves ..) rfl ?_
  refine Moves.step (loadDue_moves ..) rfl ?_
  refine Moves.upd rfl (fun p => by
      cases p
      case tick | fd | ch | wheel => exact Or.inl ⟨rfl, fun _ _ => trivial⟩
      all_goals exact Or.inr rfl) ?_
  assumption

end Sys2Proof.Machine
end

