-- ==== Sys2Proof/WellFormed.lean ====
section
/-!
DEFINITION. Which commands are well formed: the bounds that the spec's encodings set on operands held here as lists and numbers. Each check that
fails has a name.
-/
namespace Sys2Proof

/-- Why a command is not one the hardware can meet. -/
inductive IllFormed where
  /-- a host frame's LEN has 16 bits, and its data at most the bytes its cycles can carry (R438) -/
  | frame
  /-- the host writes whole words (R443) -/
  | unaligned
  /-- a host frame carries at most 4096 bytes (R443) -/
  | tooManyWords
  /-- R428 numbers three reasons -/
  | noSuchReason
  /-- the field die reports the bands 0 to 2; 3 says that it is absent -/
  | noSuchBand
  /-- a command byte or a mailbox code that is known -/
  | knownCode
  /-- a queue entry has at most 32,768 data bits (Table 17-1) -/
  | entryData
  /-- a HART frame counts its data bytes in one byte -/
  | hartData
  /-- a Breakwater frame has 58 payload bytes (Table 1-3) -/
  | bwPayload
  /-- a read of the execute-in-place window is one frame of at most 4 KiB within 16 MiB (R465) -/
  | windowRange
  /-- an instruction register value that selects another register than BYPASS (Table 14-10) -/
  | otherInstruction
  deriving DecidableEq, Repr

/-- The codes of Table 18-6. -/
def mailboxCodes : List Nat :=
  [0x01, 0x10, 0x20, 0x21, 0x22, 0x30, 0x31, 0x32, 0x40, 0x41, 0x42, 0x43, 0x50, 0x51, 0x52, 0x60, 0x70, 0x71, 0x80, 0x81, 0x90, 0xA0]

/-- A host frame as it can be clocked. -/
def HostFrame.wf (f : HostFrame) : Bool := f.len < 65536 && f.data.length ≤ f.cycles

/-- The check a command fails, if any. -/
def Instr.illFormed : Instr → Option IllFormed
  | .read f => if f.wf then none else some .frame
  | .readDualData f => if f.wf then none else some .frame
  | .readDualAddressData f => if f.wf then none else some .frame
  | .readQuadData f => if f.wf then none else some .frame
  | .readQuadAddressData f => if f.wf then none else some .frame
  | .readSync _ _ => none
  | .readAbort => none
  | .write f => if f.wf then none else some .frame
  | .writeDualData f => if f.wf then none else some .frame
  | .writeQuadData f => if f.wf then none else some .frame
  | .status _ _ => none
  | .ident _ _ => none
  | .fenceFrame _ _ _ => none
  | .unknownCommand code _ => if code = 0x02 || code = 0x05 || code = 0x9F then some .knownCode else none
  | .legacyRead f => if f.wf then none else some .frame
  | .legacyReadLate f => if f.wf then none else some .frame
  | .legacyWrite f => if f.wf then none else some .frame
  | .setpage _ _ _ => none
  | .imageWrite words => if words.length ≤ 1024 then none else some .tooManyWords
  | .coefficientWrite _ _ _ _ => none
  | .stagingWrite offset data => if offset.toNat % 4 = 0 && data.length % 4 = 0 then none else some .unaligned
  | .swapRequest _ _ => none
  | .syncRequest _ _ => none
  | .ppssetWrite _ => none
  | .evqAck _ => none
  | .countClear _ => none
  | .registerWrite _ _ => none
  | .nop _ _ => none
  | .fence _ _ => none
  | .reinit _ _ => none
  | .reinitComplete _ => none
  | .resetDevice _ _ => none
  | .requestPowerCycle _ _ => none
  | .pcycAssert => none
  | .retireChannel _ _ => none
  | .returnChannel _ _ => none
  | .mapSpare _ _ => none
  | .trimZero _ _ => none
  | .trimSpan _ _ => none
  | .trimCaptureComplete _ _ => none
  | .restoreFactory _ _ => none
  | .enrolSignature _ _ => none
  | .enrolComplete _ _ _ _ _ => none
  | .stageOpen _ _ => none
  | .stageCommit _ _ => none
  | .stageAbort _ _ => none
  | .check _ _ => none
  | .checkComplete => none
  | .forceSafe _ _ => none
  | .leaveSafe _ _ => none
  | .enterTrim _ _ => none
  | .leaveTrim _ _ => none
  | .writeConfig _ _ => none
  | .hartPass _ _ => none
  | .unknownMailboxCommand _ code _ => if mailboxCodes.contains code.toNat then some .knownCode else none
  | .extest _ => none
  | .idcode => none
  | .samplePreload _ _ => none
  | .bypass ir => if ir ∈ [0x00, 0x01, 0x02, 0x10, 0x11] then some .otherInstruction else none
  | .attach => none
  | .detach _ => none
  | .halt => none
  | .triadHalted => none
  | .release _ => none
  | .step _ => none
  | .dbgRead _ => none
  | .dbgWrite _ _ => none
  | .logicReset _ => none
  | .start _ _ _ _ _ => none
  | .clocksValid => none
  | .executiveLoaded _ => none
  | .refReady => none
  | .refOnRetry => none
  | .microcodeAccepted _ => none
  | .xinFailure _ => none
  | .monitorRelock => none
  | .clockReset => none
  | .fieldResetRelease _ => none
  | .fieldSupplyBandChange band => if band = 3 then some .noSuchBand else none
  | .lastGasp _ _ => none
  | .fieldDieReset => none
  | .vloopLow _ => none
  | .idleFrame _ h => if h.payload.length = 58 then none else some .bwPayload
  | .sampleFrame h _ _ _ => if h.payload.length = 58 then none else some .bwPayload
  | .statusFrame h _ => if h.payload.length = 58 then none else some .bwPayload
  | .housekeepingFrame h _ _ => if h.payload.length = 58 then none else some .bwPayload
  | .eventFrame h => if h.payload.length = 58 then none else some .bwPayload
  | .commandFrame h => if h.payload.length = 58 then none else some .bwPayload
  | .phaseSend => none
  | .phaseFrame h => if h.payload.length = 58 then none else some .bwPayload
  | .loadFrame h => if h.payload.length = 58 then none else some .bwPayload
  | .safeFrame h => if h.payload.length = 58 then none else some .bwPayload
  | .commandTargetTick => none
  | .bwRetransmit _ => none
  | .l2fLaneLost => none
  | .f2lLaneLost _ => none
  | .breakwaterTrained _ => none
  | .retrainTimeout => none
  | .sampleLossClear => none
  | .slackWindowExpiry => none
  | .diStateChange _ _ => none
  | .diClassChange _ _ => none
  | .senseDiff _ _ => none
  | .pairImbal _ _ => none
  | .pathLimit _ _ => none
  | .shortSwitchOff _ => none
  | .shortProbe _ _ => none
  | .openLoop _ _ => none
  | .wiringCrossing _ _ => none
  | .wiringDeclare _ => none
  | .wiringTransientEnd _ => none
  | .wiringClear _ => none
  | .doReverse _ _ => none
  | .backfeed _ _ _ _ => none
  | .hardShort _ _ _ => none
  | .steadyTrip _ _ _ => none
  | .floodWindowEnd _ _ => none
  | .clampEventStart _ _ => none
  | .clampEventEnd _ _ => none
  | .clampEnergyTest _ _ => none
  | .clampDecayStep _ => none
  | .thermalCompare _ _ _ _ _ => none
  | .backoffExpiry _ => none
  | .tokenRefill _ => none
  | .quietReset _ => none
  | .governorUpdate => none
  | .governorOver => none
  | .governorReevaluate => none
  | .governorShed => none
  | .windowDeclare _ _ _ => none
  | .ditherStart _ _ => none
  | .correlatorResult _ _ => none
  | .offStatePulse _ _ _ _ _ => none
  | .phantomDeclare _ _ => none
  | .phantomClear _ => none
  | .phantomDriven _ => none
  | .pathCheck _ _ => none
  | .evidenceExpiry _ => none
  | .shortfall _ => none
  | .excess _ => none
  | .complianceClear _ => none
  | .aoOpen _ => none
  | .loopResistanceEstimate _ => none
  | .almRisk _ _ => none
  | .dacRecompute _ => none
  | .buttonPress _ _ _ _ => none
  | .hartPollDue _ _ => none
  | .hartSearch _ _ => none
  | .hartTransactionStart _ => none
  | .hartResponse _ r => if r.data.length ≤ 255 then none else some .hartData
  | .hartTimeout _ => none
  | .hartBurst _ => none
  | .hartModemSelftest _ _ => none
  | .mainResult _ => none
  | .alignCrossing _ => none
  | .ppsEdge => none
  | .mainsEdge => none
  | .tideInEdge => none
  | .referenceEventProcess _ => none
  | .incApply _ => none
  | .wheelStep _ => none
  | .referenceLost _ => none
  | .characterEdge _ => none
  | .libraryChangeover _ => none
  | .tideOutPulse => none
  | .tideOutEnd => none
  | .timeSend _ _ => none
  | .endpointRecompute => none
  | .updateSend => none
  | .sweepSend => none
  | .entryStale _ => none
  | .fenceComplete _ => none
  | .generationApply => none
  | .ruleCycle => none
  | .ruleOverrun => none
  | .train _ _ => none
  | .trainSend _ => none
  | .commaAligned _ => none
  | .trainingTimeout _ => none
  | .trainingRetry _ => none
  | .linkWrite _ _ => none
  | .update _ _ => none
  | .fenceRequest _ _ => none
  | .writeRsp _ _ => none
  | .updateAck _ _ => none
  | .fenceRsp _ _ => none
  | .errorRsp _ _ => none
  | .timeRecord _ _ => none
  | .disc _ _ => none
  | .lampRecord _ _ => none
  | .eventRecord _ _ => none
  | .crt _ _ _ => none
  | .ack _ _ _ => none
  | .cen _ _ _ _ _ _ _ _ => none
  | .censusSend _ => none
  | .censusMissing _ => none
  | .markDelayRequest _ _ _ _ => none
  | .markDelayResponse _ _ _ _ => none
  | .markTimeReference _ _ _ _ => none
  | .delayExchange _ _ => none
  | .linkFrameSend _ => none
  | .linkRetransmit _ _ => none
  | .lossOfSignal _ => none
  | .codeViolation _ => none
  | .requestBudgetExpiry _ _ => none
  | .requestTimeout _ _ => none
  | .laneDisagree _ _ => none
  | .laneSelfReport _ => none
  | .iauMinority _ _ => none
  | .resyncComplete _ _ _ _ => none
  | .voterFault _ => none
  | .voterSelftest _ => none
  | .stateSurvey _ => none
  | .watchdog _ _ => none
  | .handoverStart => none
  | .exchangeComplete _ => none
  | .executiveResume => none
  | .handoverReverse why _ => if why = 1 || why = 2 || why = 3 then none else some .noSuchReason
  | .probationEnd _ => none
  | .reloadStart => none
  | .reloadComplete _ => none
  | .reloadBodyFail => none
  | .queueEntry _ _ _ _ data => if data.length ≤ 4096 then none else some .entryData
  | .memoryFrame => none
  | .pollFrame _ => none
  | .entryComplete _ => none
  | .contBreak => none
  | .xipRead addr len => if 1 ≤ len.toNat && len.toNat ≤ 4096 && addr.toNat + len.toNat ≤ 0x1000000 then none else some .windowRange
  | .selectModeChange => none
  | .checkUnitStart _ _ _ _ _ => none
  | .data8 _ => none
  | .data16 _ => none
  | .data32 _ => none
  | .logFlush => none
  | .scrub _ _ => none
  | .xinRestored => none
  | .clockWaitTimeout => none
  | .fieldDieFaultDetected _ => none
  | .retentionStoreLoss => none
  | .stagingFilled => none
  | .trimledTimer => none

/-- A well-formed command. -/
def Instr.wf (i : Instr) : Bool := i.illFormed.isNone

end Sys2Proof
end

