-- ==== Sys2Proof/Tests/Slice0.lean ====
section
/-!
SUPPORT. Tests on fixed values: ill-formed commands that the checks of WellFormed refuse, the spec's worked examples, one witness for the
hypotheses of each statement, on small states.
-/
namespace Sys2Proof.Tests
open Sys2Proof Sys2Proof.Machine

set_option maxRecDepth 4000
set_option Elab.async false

/-! ## Ill-formed commands, one for each check -/

def frameOf (addr : BitVec 24) (len : Nat) (data : List Byte) (cycles : Nat) : HostFrame := ⟨addr, len, data, cycles, false⟩

/-- A Breakwater frame of type `ty` number `seq`, its payload zeros, as its sender forms it; and the same with its CRC failing. -/
def frame (ty seq : Byte) : BwHeader := bwForm ty seq 0 0 (List.replicate 58 0)
def broken (h : BwHeader) : BwHeader := { h with crc := h.crc + 1 }

theorem test_refuses_frame : (Instr.write (frameOf 0 4 [1, 2, 3, 4] 3)).illFormed = some .frame := by decide
theorem test_refuses_unaligned : (Instr.stagingWrite 2 [0, 0, 0, 0]).illFormed = some .unaligned := by decide
theorem test_refuses_reason : (Instr.handoverReverse 0 ⟨none, false⟩).illFormed = some .noSuchReason := by decide
theorem test_refuses_band : (Instr.fieldSupplyBandChange 3).illFormed = some .noSuchBand := by decide
theorem test_refuses_known_code : (Instr.unknownMailboxCommand 0 0xA0 0).illFormed = some .knownCode := by decide
theorem test_refuses_bw_payload : (Instr.statusFrame ⟨0, 0, 0, [], 0⟩ 0).illFormed = some .bwPayload := by decide
theorem test_refuses_words : (Instr.imageWrite (List.replicate 1025 (0, 0))).illFormed = some .tooManyWords := by decide +kernel
theorem test_refuses_entry_data : (Instr.queueEntry 0 0 0 0 (List.replicate 4097 0)).illFormed = some .entryData := by decide +kernel
theorem test_refuses_other_instruction : (Instr.bypass 0x10).illFormed = some .otherInstruction := by decide
theorem test_refuses_window_range : (Instr.xipRead 0xFFFFFF 2).illFormed = some .windowRange := by decide
theorem test_refuses_hart_data : (Instr.hartResponse 0 ⟨true, 0, 3, 0, 0, List.replicate 256 0⟩).illFormed = some .hartData := by decide +kernel

/-! ## Worked examples of the spec -/

/-- 00, the example of narrowing by four bits, and of saturation after rounding. -/
theorem test_narrow_example :
    [0x0A8, 0x0B8, 0x0B9, -0x028, -0x038].map (narrow · 4) = [10, 12, 12, -2, -4] ∧
    satSigned 8 (narrow 0x7F8 4) = 127 ∧ satSignedFlag 8 (narrow 0x7F8 4) = true := by decide

/-- 17, Table 17-8: the three presets over "123456789". -/
theorem test_check_presets :
    [0, 1, 2].map (fun p => checkOver (checkPreset p) [0x31, 0x32, 0x33, 0x34, 0x35, 0x36, 0x37, 0x38, 0x39]) =
      [0xE3069283, 0x29B1, 0xF4] := by decide +kernel

/-- 01 R19: with SEQ 0 the CRC of a Breakwater frame is that of preset 1; SEQ changes it, and a frame of another SEQ does not pass. -/
theorem test_breakwater_crc :
    bwCrc 0 [0x31, 0x32, 0x33, 0x34, 0x35, 0x36, 0x37, 0x38, 0x39] = 0x29B1 ∧ (bwWire tyIdle (frame tyIdle 7)).length = 64 ∧
    frameOk (frame tyIdle 7) tyIdle = true ∧ frameOk { frame tyIdle 7 with seq := 8 } tyIdle = false := by decide +kernel

/-- 02 R37: the check of the copies and slots is that of preset 0. -/
theorem test_crc32c : crc32c 0 [0x31, 0x32, 0x33, 0x34, 0x35, 0x36, 0x37, 0x38, 0x39] = 0xE3069283 := by decide +kernel

/-- 02, the example of a sequence wrap: SEQ 1 is later than 0xFFFF_FFFE. -/
theorem test_seq_wrap : newer 0xFFFFFFFE 1 = true ∧ newer 1 0xFFFFFFFE = false := by decide

/-- 09, the example of a 12 mA transmitter. -/
theorem test_twelve_milliamp :
    let r : FactoryRec := { ofs := 320, gain := 0x40200000, tg1 := -54976, valid := true }
    tempTerms r (some 45000) = (-1073750, 0, false) ∧
    chainValue 3832960 r none (-1073750) 0 80 = (1198839, false, 3840126) := by decide +kernel

/-- 09, the example of zero and span on a 10 V input. -/
theorem test_zero_and_span :
    let r : FactoryRec := { ofs := -512, valid := true }
    layerOf (some ⟨0, 1280, 0, 0, 0, 4, 0, 0, 1⟩) (some ⟨10000000, 6396800, 6400000, 0, 0, 4, 0, 0, 2⟩) = some (1074493970, -1281) ∧
    (chainValue 3198464 r (some (1074493970, -1281)) 0 0 400).1 = 4999900 := by decide +kernel

/-- 09, the example of a 16 mA command at 55 °C. -/
theorem test_sixteen_milliamp :
    let r : FactoryRec := { ofs := 1536, gain := 0x3FE00000, tg1 := 109951, valid := true }
    tempTerms r (some 55000) = (3221221, 0, false) ∧ outChain 32000 r none 3221221 0 = (10209372, 39964, false) := by decide +kernel

/-- 05, Table 5-9: the strings counted as one of four opens. -/
theorem test_strings : [187352, 178570, 166860, 155151, 143441, 140514].map (stringCount · 4 187600) = [4, 4, 4, 3, 3, 3] := by decide +kernel

/-- 08, the example of a spike: RANK 1's median of three, and the FIR output of the steady state and of output 26 under RANK 0. -/
theorem test_spike :
    rankOut 1 [12000, 30000, 12000] = 3072000 ∧ rankOut 0 [30000, 12000, 12000] = 7680000 ∧
    firOut (fun _ => 8388607) 1 [3072000] = (3072000, false) ∧ firOut (fun _ => 8388607) 1 [4224000] = (4223999, false) := by decide +kernel

/-- 06, the example of a solenoid valve: the allowance at 45 °C is the limit of 40 mJ (in 10 µJ). -/
theorem test_allowance : clampAllow 45000 40 = 4000 := by decide +kernel

/-- The table gives no row any bits: no word spells a command. -/
theorem test_no_word : (List.range 256).all (fun w => (decodeTableWord 32 w).isNone) = true := by decide +kernel

/-! ## States -/

/-- A channel record with the words given, 0 elsewhere. -/
def recOf (ws : List (Fin 64 × W32)) : ChanRecord := ⟨ws.foldl (fun v x => setAt v x.1 x.2) (Vector.replicate 64 0)⟩

/-- The executive runs in `mode`. -/
def inMode (mode : Mode) : State := { State.reset with m := { State.reset.m with run := .running, mode := mode, step := 11 } }

/-- The generation in force gives channel 2 the record `r`, and the channel has its kind. -/
def withRec (r : ChanRecord) (s : State) : State :=
  { s with
    boot := { s.boot with gen := some { chan := setAt (Vector.replicate 16 {}) 2 r } }
    ch := modAt s.ch 2 fun c => { c with kind := cfgKind r } }

/-- The field die runs its configuration, with `c` for channel 2. -/
def withField (c : FdChan) (s : State) : State :=
  { s with fd := { s.fd with alive := true, ident := some (1, 1), band := 0, ch := setAt s.fd.ch 2 c } }

/-- Channel 2 of kind `k` at the field die, with the words given beside CFG. -/
def fieldKind (k : W32) (ws : List (Fin 64 × W32)) (f : FdChan → FdChan) : State :=
  withField (f { cfg := recOf ((0, k) :: ws) }) (inMode .run)

/-- Both Breakwater directions are up, and the field die runs. -/
def linked (s : State) : State :=
  { s with
    bw := { s.bw with l2fUp := true, f2l0Up := true, f2l1Up := true, absent := false }
    fd := { s.fd with alive := true, ident := some (1, 1), l2fUp := true } }

/-- Port 1 in state `up` with `f` of it. -/
def withPort (f : Port → Port) (s : State) : State := s.modPort 1 fun x => f { x with state := .up }

/-- Slot 3 with the arguments given. -/
def withArgs (as : List (Fin 32 × W32)) (s : State) : State :=
  s.modSlot 3 fun x => { x with arg := as.foldl (fun v a => setAt v a.1 a.2) x.arg }

theorem sound_inMode (mode : Mode) : Sound (inMode mode) := fun p => by
  have h := State.reset_sound p
  cases p <;> exact h

/-! ## One witness for the hypotheses of each statement -/

theorem witness_StepTakesTheFrontCommand :
    Quiet (linked State.reset) ∧ (linked State.reset).pending = [] ∧ (linked State.reset).fd.alive = true :=
  ⟨⟨rfl, rfl, by decide +kernel, by decide +kernel, rfl, by decide +kernel, by decide +kernel, by decide +kernel, rfl, rfl⟩, rfl, rfl⟩

theorem witness_EveryStepKeepsSound : Sound (inMode .run) ∧ ∃ t, step (inMode .run) = .next t := ⟨sound_inMode .run, _, rfl⟩

theorem witness_NarrowingAndSaturation :
    (1 ≤ 1 ∧ 1 ≤ 1) ∧ satSignedFlag 1 (narrow 0 1) = false ∧ narrow (-4) 1 < -(2 ^ (1 - 1)) ∧ 2 ^ (1 - 1) - 1 < narrow 2 1 := by decide

def acked : State := { inMode .run with ev := { (inMode .run).ev with head := 7, count := 256 } }

theorem witness_QueueAcknowledged :
    acked.execRuns = true ∧ acked.m.mode ≠ .stop ∧
    ((0x10007 : W32).setWidth 8 = acked.ev.head ∧ 1 ≤ ((0x10007 : W32).extractLsb' 8 9).toNat ∧
      ((0x10007 : W32).extractLsb' 8 9).toNat ≤ acked.ev.count) ∧
    ¬((0x7 : W32).setWidth 8 = acked.ev.head ∧ 1 ≤ ((0x7 : W32).extractLsb' 8 9).toNat ∧
      ((0x7 : W32).extractLsb' 8 9).toNat ≤ acked.ev.count) := by decide +kernel

def staged (st : StageState) (len : BitVec 21) : State :=
  { inMode .run with recov := { (inMode .run).recov with stage := st, stageLen := len } }

theorem sound_staged (st : StageState) (len : BitVec 21) : Sound (staged st len) := fun p => by
  have h := State.reset_sound p
  cases p <;> exact h

theorem witness_StagingWindow :
    ((staged .opened 0x100000).execRuns = true ∧ (staged .opened 0x100000).m.mode ≠ .stop ∧ (0xFFFFC : BitVec 20).toNat % 4 = 0 ∧
      [1, 2, 3, (4 : Byte)].length % 4 = 0 ∧ (0xFFFFC : BitVec 20).toNat + [1, 2, 3, (4 : Byte)].length ≤ 0x100000 ∧
      Sound (staged .opened 0x100000) ∧ (staged .opened 0x100000).recov.stage = .opened) ∧
    ((staged .armed 0x100000).recov.stage ≠ .opened ∧ Sound (staged .armed 0x100000)) ∧
    ((staged .armed 0x100000).recov.stageLen.toNat % 4 = 0 ∧ 0xFFFFF < 0x100000) :=
  ⟨⟨by decide, by decide, by decide, by decide, by decide, sound_staged _ _, rfl⟩, ⟨by decide, sound_staged _ _⟩, by decide⟩

def sourceWith (enable urgent : Bool) (count : Nat) : State :=
  { inMode .run with ev := { (inMode .run).ev with
    src := setAt (inMode .run).ev.src 2 { enable := enable, urgent := urgent }
    count := count } }

theorem witness_OccurrencesAreCountedAndQueued :
    ((sourceWith false false 0).execRuns = true ∧ (2 : SrcIx) ≠ 107 ∧ (sourceWith false false 0).ev.src[(2 : SrcIx)].enable = false) ∧
    ((sourceWith true false 0).ev.src[(2 : SrcIx)].enable = true ∧ (sourceWith true false 0).ev.src[(2 : SrcIx)].urgent = false) ∧
    ((sourceWith true true 254).ev.src[(2 : SrcIx)].urgent = true ∧ (sourceWith true true 254).ev.count < 255) ∧
    (sourceWith true true 255).ev.count = 255 ∧ 256 ≤ (sourceWith true true 256).ev.count := by decide +kernel

/-- Channels 2 and 3 are a pair whose master is on. -/
def pairOn : State :=
  let s := fieldKind 0x8001 [] fun c => { c with on := true }
  s.modFd 3 fun c => { c with cfg := recOf [(0, 7)] }

theorem witness_FieldConditionsAndWiring :
    -- a DI with wire-break detection, a DO with FSN and pair checks, an input loop, a pair master
    ((fieldKind 2 [(1, 0x40000)] id).fdOn = true ∧ fdKind ((fieldKind 2 [(1, 0x40000)] id).fdc 2) = kindDI ∧ DiClass.wireBreak ≠ .notDi) ∧
    ((fieldKind 0x4001 [] id).fdOn = true ∧ cfgFsnEn ((fieldKind 0x4001 [] id).fdc 2).cfg = true) ∧
    (pairOn.fdOn = true ∧ pairOn.fdMaster 2 = true ∧ cfgImbEn (pairOn.fdc 2).cfg = true ∧ (pairOn.fdc 2).on = true) ∧
    ((fieldKind 3 [(3, 6)] id).fdOn = true ∧ fdKind ((fieldKind 3 [(3, 6)] id).fdc 2) = kindAII ∧
      ((fieldKind 3 [(3, 6)] id).fdc 2).shortOpen = false ∧ cfgRange ((fieldKind 3 [(3, 6)] id).fdc 2).cfg = 0 ∧
      aiOpenEn ((fieldKind 3 [(3, 6)] id).fdc 2).cfg = true) ∧
    ((fieldKind 1 [] id).fdOn = true ∧ isSwitch ((fieldKind 1 [] id).fdc 2) = true ∧ ((fieldKind 1 [] id).fdc 2).on = false ∧
      ((fieldKind 1 [] id).fdc 2).clampEvent = false) ∧
    -- SHORT_OFF with the limit reached; the switch open
    (let s := fieldKind 3 [(3, 6)] fun c => { c with inLimitPath := true };
      s.fdOn = true ∧ fdKind (s.fdc 2) = kindAII ∧ aiShortOff (s.fdc 2).cfg = true ∧ (s.fdc 2).inLimitPath = true ∧
      (s.fdc 2).shortOpen = false) ∧
    (let s := fieldKind 3 [(3, 6)] fun c => { c with shortOpen := true };
      s.fdOn = true ∧ fdKind (s.fdc 2) = kindAII ∧ (s.fdc 2).shortOpen = true) ∧
    -- wiring thresholds
    (let s := fieldKind 2 [] id;
      s.fdOn = true ∧ hasThreshold (s.fdc 2) true = true ∧ (s.fdc 2).crossed = none ∧ (s.fdc 2).reverse = false) ∧
    (let s := fieldKind 3 [] fun c => { c with crossed := some false, miswire := true, declTicks := [0, 0] };
      s.fdOn = true ∧ (s.fdc 2).crossed = some false ∧ (s.fdc 2).crossed.isSome = true ∧ (s.fdc 2).miswire = true) := by
  decide +kernel

theorem witness_ProtectionLatches :
    (let s := fieldKind 1 [] fun c => { c with on := true };
      s.fdOn = true ∧ isSwitch (s.fdc 2) = true ∧ (s.fdc 2).on = true ∧ (s.fdc 2).flood = false) ∧
    (let s := fieldKind 1 [] fun c => { c with on := true, flood := true };
      s.fdOn = true ∧ isSwitch (s.fdc 2) = true ∧ (s.fdc 2).on = true ∧ (s.fdc 2).flood = true) ∧
    -- thermal limits at their boundaries, the latches clear, and set on a channel that is no switch
    (let s := fieldKind 1 [] id;
      s.fdOn = true ∧ isSwitch (s.fdc 2) = true ∧ 170000 < (170001 : W32).toInt ∧ (s.fdc 2).thAbs = false ∧ (s.fdc 2).thDt = false ∧
      (155000 : W32).toInt ≤ 155000 ∧ (110000 : W32).toInt + 1000 * protDtLim (s.fdc (s.unit 2)).cfg < (170001 : W32).toInt ∧
      (155000 : W32).toInt ≤ (110000 : W32).toInt + 1000 * protDtLim (s.fdc (s.unit 2)).cfg - 15000) ∧
    (let s := fieldKind 2 [] fun c => { c with thDt := true, thAbs := true };
      s.fdOn = true ∧ isSwitch (s.fdc 2) = false ∧ (s.fdc 2).thDt = true ∧ (s.fdc 2).thAbs = true ∧ 155000 < (155001 : W32).toInt ∧
      (110000 : W32).toInt + 1000 * protDtLim (s.fdc (s.unit 2)).cfg - 15000 < (155001 : W32).toInt) := by decide +kernel

theorem witness_ClampHeatIsKept :
    (let s := fieldKind 1 [] id;
      s.fdOn = true ∧ isSwitch (s.fdc 2) = true ∧ (s.fdc 2).on = false ∧ (s.fdc 2).clampEvent = false ∧ s.fd.alive = true) ∧
    (let s := fieldKind 1 [] fun c => { c with clampEvent := true };
      s.fdOn = true ∧ (s.fdc 2).clampEvent = true) ∧
    (let s := fieldKind 1 [] fun c => { c with e := 1 };
      s.fdOn = true ∧ isSwitch (s.fdc 2) = true ∧ (s.fdc 2).clampLatch = false ∧
      clampOver (if (s.fdc 2).clampEvent then clampSum s 2 [] else (s.fdc 2).e) (s.fdc 2).eEst (s.fdc 2).eAllow = true) := by decide +kernel

/-- A proven DO of the executive: kind, proving and sounding, and one record of its generation; the field die dithers it, and a cycle's length
has passed since its next cycle began. -/
def provenOut (acc : List CycleSum) (k : Nat) : State :=
  let s := withField { cfg := recOf [(0, 1), (16, 0x3)], on := true, dither := true } (withRec (recOf [(0, 1), (16, 0x3)]) (inMode .run))
  let s := s.modCh 2 fun c => { c with acc := acc, accN := k }
  { s with fd := { s.fd with tick := 1000000 } }

/-- A dither cycle of one sample, which is a repeated one or not. -/
def ditherCycle (repeated : Bool) : DitherCycle := ⟨[⟨0, 0, 0, 0, repeated⟩], 1000⟩

/-- Fifteen cycles of a lamp that conducts. -/
def fifteen : List CycleSum := List.replicate 15 ⟨1000, 0, 10000000, 2, 0, 0⟩

theorem witness_ProvingAtFieldDieAndExecutive :
    (let s := fieldKind 1 [(16, 0x1F)] fun c => { c with on := true, cmd := .lit, win := .pass };
      s.fdOn = true ∧ proven (s.fdc 2) = true ∧ (s.fdc 2).on = true ∧ (s.fdc 2).flood = false ∧ Win.pass ≠ .notArmed ∧
      100 * pOpenFilt (s.fdc 2).cfg ≤ 100 * pOpenFilt (s.fdc 2).cfg ∧ (s.fdc 2).win ≠ .notArmed ∧
      pSndEn (s.fdc 2).cfg = true ∧ commandedLit (s.fdc 2) = true ∧ sounding s = true ∧ s.m.mode ≠ .load ∧ s.m.mode ≠ .stop) ∧
    (let s := fieldKind 1 [(16, 0x1F)] id;
      s.fdOn = true ∧ proven (s.fdc 2) = true ∧ pOffEn (s.fdc 2).cfg = true ∧ commandedLit (s.fdc 2) = false ∧ (s.fdc 2).on = false ∧
      (s.fdc 2).phSink = false ∧ sounding s = true ∧ pulseFree s 2 = true ∧ pPhEn (s.fdc 2).cfg = true ∧ (s.fdc 2).phDet = false ∧
      phantomLive s (s.fdc 2) = true ∧ s.m.mode ≠ .stop) ∧
    (let s := fieldKind 1 [(16, 0x1F)] fun c => { c with phDet := true, phSink := true };
      s.fdOn = true ∧ proven (s.fdc 2) = true ∧ (s.fdc 2).phDet = true ∧ (s.fdc 2).phSink = true ∧ s.m.mode ≠ .stop) ∧
    (∃ v, let s := provenOut fifteen 15;
      windowG (accumulate s 2 0 (ditherCycle false)) 2 = some v ∧ s.execRuns = true ∧ s.ch[(2 : Chan)].kind = kindDO ∧
      pProveEn (s.crec 2) = true ∧ pSndEn (s.crec 2) = true ∧ s.ch[(2 : Chan)].retired = false ∧ sounding s = true ∧
      fdKind (s.fdc 2) = kindDO ∧ (s.fdc 2).dither = true ∧ (s.fdc 2).ditherNext = 0 ∧
      cycleLen (s.fdc 2).cfg ≤ (s.fd.tick - 0).toNat ∧ cycleAccepted (s.fdc 2) 0 (ditherCycle false) = true ∧
      15 ≤ s.ch[(2 : Chan)].accN ∧ s.ch[(2 : Chan)].accN % 4 = 3 ∧ s.enrol[(2 : Chan)] = none ∧
      windowOld (accumulate s 2 0 (ditherCycle false)) 2 = false) ∧
    (let s := provenOut [] 0;
      cycleAccepted (s.fdc 2) 0 (ditherCycle true) = false ∧ s.ch[(2 : Chan)].accN < 15 ∧
      fresh s 2 s.ch[(2 : Chan)].p.estTick = false) := by
  refine ⟨by decide +kernel, by decide +kernel, by decide +kernel, ?_, by decide +kernel⟩
  obtain ⟨v, hv⟩ : ∃ v, windowG (accumulate (provenOut fifteen 15) 2 0 (ditherCycle false)) 2 = some v :=
    Option.isSome_iff_exists.mp (by decide +kernel)
  exact ⟨v, hv, by decide +kernel⟩

theorem witness_HeartbeatsAndDiscards :
    -- SEQ 16 and 1 ahead of the last, 255
    (let s := linked (inMode .run);
      frameOk (frame tyIdle 15) tyIdle = true ∧ frameOk (frame tyIdle 0) tyIdle = true ∧ s.fd.alive = true ∧ s.bw.f2l0Up = true ∧
      1 ≤ ((frame tyIdle 15).seq - s.bw.idle0).toNat ∧ ((frame tyIdle 15).seq - s.bw.idle0).toNat ≤ 16 ∧
      s.bw.f2l1Up = true ∧ 1 ≤ ((frame tyIdle 0).seq - s.bw.idle1).toNat ∧ ((frame tyIdle 0).seq - s.bw.idle1).toNat ≤ 16 ∧
      s.fd.l2fUp = true ∧ s.txRuns = true ∧ 1 ≤ ((frame tyIdle 0).seq - s.fd.idle).toNat ∧ ((frame tyIdle 0).seq - s.fd.idle).toNat ≤ 16) ∧
    (let s := linked (inMode .run);
      frameOk (broken (frame tyStatus 0)) tyStatus = false ∧ s.bw.fail1 < 7 ∧ frameOk (broken (frame tyEvent 0)) tyEvent = false ∧
      frameOk (broken (frame tyHousekeeping 0)) tyHousekeeping = false ∧
      frameOk (frame tyStatus 1) tyStatus = true ∧ (frame tyStatus 1).seq ≠ s.bw.rxNext) ∧
    (let s := linked (inMode .run);
      7 ≤ ({ s with bw := { s.bw with fail1 := 7 } } : State).bw.fail1) := by decide +kernel

/-- A frame of body `b`, the next of the lane, waits to be received by the field die. -/
def sentFrame (b : L2F) : State :=
  let s := linked (inMode .run)
  { s with bw := { s.bw with unacked := [⟨0, b, 0, 255, 0⟩] } }

/-- The lanes are up, and a handover keeps the executive from taking reports. -/
def handingOver (s : State) : State := linked { s with recov := { s.recov with handover := some ⟨0, false, false⟩ } }

theorem witness_ReportsLoadAndSafeFrames :
    (let s := handingOver { inMode .run with conv := { (inMode .run).conv with refReady := true } };
      s.bw.f2l1Up = true ∧ s.fd.alive = true ∧ (frame tyStatus 0).seq = s.bw.rxNext ∧ fdMaySend s (frame tyStatus 0).seq = true ∧
      fdHeld s (frame tyStatus 0).seq = none ∧ s.fd.slack = false ∧ s.fd.events = [] ∧ frameOk (frame tyStatus 0) tyStatus = true ∧
      s.execRuns = false ∧ s.bw.buffered.length < 256 ∧ s.conv.refReady = true) ∧
    (let s := handingOver (inMode .run);
      let s := { s with fd := { s.fd with retained := some ⟨1, .fieldReset, 0, 0, Vector.replicate 16 false⟩ } };
      fdMaySend s (frame tyEvent 0).seq = true ∧ fdHeld s (frame tyEvent 0).seq = none ∧ s.fd.slack = false ∧
      gaspDue s ++ (oneFrame s.fd.events).1 ≠ [] ∧ gaspDue s ≠ [] ∧ frameOk (frame tyEvent 0) tyEvent = true ∧ s.execRuns = false ∧
      s.bw.buffered.length < 256) ∧
    (let s := handingOver (inMode .run);
      let s := { s with fd := { s.fd with unacked := [⟨0, .event [.microRam], 0, 255, 0⟩], txSeq := 1 } };
      (frame tyEvent 0).seq = s.bw.rxNext ∧ (frame tyEvent 0).seq ≠ s.fd.txSeq ∧
      fdHeld s (frame tyEvent 0).seq = some (.event [.microRam]) ∧ s.execRuns = false) ∧
    (frameOk (frame tyLoad 0) tyLoad = true ∧ frameOk (frame tySafe 0) tySafe = true) ∧
    (∃ g x, let s := sentFrame (.configure g true);
      s.fd.alive = true ∧ s.fd.l2fUp = true ∧ s.txRuns = true ∧ (frame tyLoad 0).seq = s.fd.rxNext ∧
      s.bw.unacked.find? (fun y => y.seq = (frame tyLoad 0).seq) = some x ∧ x.body = .configure g true ∧ s.fd.safeHeld = false) ∧
    (∃ x, (sentFrame (.safe 0x0A 4 0)).bw.unacked.find? (fun y => y.seq = (frame tySafe 0).seq) = some x ∧ x.body = .safe 0x0A 4 0 ∧
      (sentFrame (.safe 0x0A 4 0)).fd.ident.isSome = true) :=
  ⟨by decide +kernel, by decide +kernel, by decide +kernel, by decide +kernel, ⟨{}, _, rfl, rfl, rfl, rfl, rfl, rfl, rfl⟩, ⟨_, rfl, rfl, rfl⟩⟩

/-- The field die is at tick `k`. -/
def atFdTick (k : W64) (s : State) : State := { s with fd := { s.fd with tick := k } }

theorem witness_CommandAndPhaseFrames :
    (frameOk (frame tyCommand 0) tyCommand = true ∧ frameOk (frame tyPhase 0) tyPhase = true) ∧
    (∃ x, let s := sentFrame (.command [.set 2 .lit] 1);
      s.fd.alive = true ∧ s.fd.l2fUp = true ∧ s.txRuns = true ∧ (frame tyCommand 0).seq = s.fd.rxNext ∧
      s.bw.unacked.find? (fun y => y.seq = (frame tyCommand 0).seq) = some x ∧ x.body = .command [.set 2 .lit] 1 ∧
      s.fd.ident.isSome = true ∧ s.fd.safeHeld = false ∧ s.fd.tick.toNat < (1 : W64).toNat) ∧
    (let s := atFdTick 2 (sentFrame (.command [.set 2 .lit] 1));
      (1 : W64).toNat < s.fd.tick.toNat ∧ s.fd.slack = false) ∧
    leastTarget [⟨.set 2 .lit, 1⟩, ⟨.set 3 .dark, 5⟩] = some 1 ∧
    (∃ x, let s := sentFrame (.phase [⟨0, 0, 1, 2, 0⟩]);
      s.bw.unacked.find? (fun y => y.seq = (frame tyPhase 0).seq) = some x ∧ x.body = .phase [⟨0, 0, 1, 2, 0⟩] ∧ s.fd.safeHeld = false ∧
      (0 : W64).toNat ≤ s.fd.tick.toNat) ∧
    (∀ i ∈ [(⟨0, 0, 1, 2, 1⟩ : PhaseItem)], (sentFrame (.phase [⟨0, 0, 1, 2, 1⟩])).fd.tick.toNat < i.tick.toNat) ∧
    (let s := { linked (inMode .run) with wheel := setAt (inMode .run).wheel 0 { state := .free } };
      s.execRuns = true ∧ s.triad.blocked = false ∧ s.bw.stopped = false ∧ s.bw.waiting = [] ∧ s.bw.unacked.length < 16 ∧
      ((List.finRange 4).filter fun w => started s.wheel[w]) ≠ []) :=
  ⟨by decide +kernel, ⟨_, rfl, rfl, rfl, rfl, rfl, rfl, rfl, rfl, by decide⟩, by decide, by decide, ⟨_, rfl, rfl, rfl, by decide⟩, by decide,
    by decide +kernel⟩

theorem witness_LanesLostAndTrained :
    (let s := linked (inMode .run);
      s.txRuns = true ∧ s.fd.alive = true ∧ s.fd.l2fUp = true ∧ s.fd.ident.isSome = true ∧ s.m.run = .running ∧ s.triad.halted = false ∧
      s.bw.f2l0Up = true ∧ s.bw.f2l1Up = true) ∧
    (let s := withField {} (inMode .run);
      s.fd.alive = true ∧ s.m.run ≠ .held ∧ s.m.run ≠ .clockReset ∧ 3 ≤ s.m.step.toNat ∧ s.bw.f2l0Up = false ∧ s.bw.f2l1Up = false ∧
      s.fd.l2fUp = false ∧ ¬(s.bw.f2l0Up = true ∧ s.bw.f2l1Up = true) ∧ s.m.mode ≠ .load ∧ s.bw.retrainFails ≠ 2) ∧
    (let s := { inMode .run with bw := { (inMode .run).bw with sampleBad := true } };
      s.bw.sampleBad = true) ∧
    (let s := withField {} (inMode .run);
      let s := { s with fd := { s.fd with slack := true } };
      s.fdOn = true ∧ s.fd.slack = true ∧ s.fd.expired = false ∧ s.m.mode ≠ .load ∧ s.recov.reload = none) := by decide +kernel

theorem witness_FieldSupplyAndReset :
    State.reset.fd.alive = false ∧
    (let s := withField {} (inMode .run);
      let s := { s with fd := { s.fd with refOn := true } };
      s.fd.alive = true ∧ s.fd.refOn = true ∧ s.fd.refReady = false ∧ s.fd.gasping = false ∧ (1 : BitVec 2) ≠ s.fd.band ∧
      (1 : BitVec 2) ≠ 3 ∧ s.fd.slack = false ∧ s.bw.ramOnce = false ∧ FieldFault.tableCheck ≠ .microcodeRam ∧ s.fd.ident.isSome = true) ∧
    (let s := { inMode .load with m := { (inMode .load).m with step := 5, refOnTries := 3 } };
      s.m.run = .running ∧ s.m.mode = .load ∧ s.m.step = 5 ∧ s.conv.refReady = false ∧ s.m.refOnTries ≠ 0 ∧ s.m.refOnTries ≤ 3) ∧
    (let s := { State.reset with fd := { State.reset.fd with gasping := true } };
      s.fd.gasping = true) ∧
    (let s := { State.reset with bw := { State.reset.bw with ramOnce := true } };
      s.bw.ramOnce = true) := by decide +kernel

/-- An output of a filter path whose stages took fixed terms. -/
def outOf (f : Int) : FiltOut := { f := f, terms := ⟨0, none, 0, none, false⟩, ts := 0, settling := false, ovr := false, tainted := false }

/-- Path 4 with `f` of it; channel 2's scan mask. -/
def withPath (f : PathState → PathState) : State :=
  let s := linked (inMode .run)
  State.modPath { s with conv := { s.conv with mask := 4 } } 4 f

theorem witness_SamplesAndResults :
    (let s := withPath id;
      let s := { s with fd := { s.fd with refReady := true } };
      s.bw.f2l0Up = true ∧ s.fd.alive = true ∧ s.fd.gasping = false ∧ frameOk (frame tySample 15) tySample = true ∧
      1 ≤ ((frame tySample 15).seq - s.bw.idle0).toNat ∧ ((frame tySample 15).seq - s.bw.idle0).toNat ≤ 16 ∧ s.fd.refReady = true ∧
      s.conv.mask ≠ 0 ∧ s.bw.f2l1Up = true ∧ fdMaySend s (frame tyHousekeeping 0).seq = true ∧
      fdHeld s (frame tyHousekeeping 0).seq = none ∧ s.fd.events = [] ∧ frameOk (frame tyHousekeeping 0) tyHousekeeping = true ∧
      (frame tyHousekeeping 0).seq = s.bw.rxNext) ∧
    ([((3 : Fin 24), 5)].getLast? = some (3, 5)) ∧
    (withPath fun x => { x with outs := [outOf 256] }).conv.path[(4 : PathIx)].outs = [outOf 256] ∧
    (let s := withPath fun x => { x with waitAlign := true };
      let s := { s with wheel := setAt s.wheel 0 { state := .free, prev := 0xFFFFFFFF00000000 } };
      let x := s.wheel[(s.desc 4).syncWheel.toFin];
      s.conv.path[(4 : PathIx)].waitAlign = true ∧ s.conv.path[(4 : PathIx)].since.toNat ≤ s.tick.toNat ∧ started x = true ∧
      fires x.prev x.acc (s.desc 4).syncPhase = true) := by decide +kernel

/-- Wheel 1 as `f` makes it, following reference `ref`. -/
def withWheel (ref : Byte) (f : Wheel → Wheel) : State :=
  let s := inMode .run
  { s with
    wheel := modAt s.wheel 1 f
    boot := { s.boot with gen := some { tide := setAt (Vector.replicate 4 {}) 1 { ref := ref } } } }

theorem witness_ReferenceEdges :
    ((inMode .run).m.run = .running ∧
      ∀ k, (inMode .run).time.ppsChain = some k → 25000000 < (inMode .run).since k ∨ ppsInterval ((inMode .run).since k) = true) ∧
    (let s := { inMode .run with tick := 9999000, time := { (inMode .run).time with ppsChain := some 0, set := some 1000 } };
      s.m.run = .running ∧ (∀ k, s.time.ppsChain = some k → 25000000 < s.since k ∨ ppsInterval (s.since k) = true) ∧
      s.time.set = some 1000) ∧
    (follows (withWheel 2 fun x => { x with state := .acquire }) 1 2 = true ∧
      (withWheel 2 fun x => { x with state := .acquire }).wheel[(1 : WheelIx)].mainsTick = none) ∧
    (follows (withWheel 3 fun x => { x with state := .acquire }) 1 3 = true ∧
      (∀ p, (withWheel 3 fun x => { x with state := .acquire }).wheel[(1 : WheelIx)].next = some p → p.step = none) ∧
      inChain (withWheel 3 fun x => { x with state := .acquire }) 1
        (tideInterval ((withWheel 3 fun x => { x with state := .acquire }).tide 1).periodUs.toNat) = true) ∧
    inChain (withWheel 3 fun x => { x with state := .acquire, last := some 0 }) 1
      (tideInterval ((withWheel 3 fun x => { x with state := .acquire }).tide 1).periodUs.toNat) = false :=
  ⟨⟨rfl, nofun⟩, ⟨rfl, fun _ h => by cases h; decide, rfl⟩, by decide +kernel, ⟨by decide +kernel, nofun, by decide +kernel⟩,
    by decide +kernel⟩

theorem witness_WheelDiscipline :
    (let s := withWheel 1 fun x => { x with state := .acquire, events := [⟨5, 0, 0, none, false⟩] };
      s.execRuns = true ∧ s.m.mode ≠ .stop ∧ s.wheel[(1 : WheelIx)].events = [⟨5, 0, 0, none, false⟩]) ∧
    -- at the apply tick, and one tick before it
    (let s := { (withWheel 1 fun x => { x with inc := 7, next := some ⟨10000, 1, 1, none⟩ }) with tick := 10000 };
      s.wheel[(1 : WheelIx)].next = some ⟨10000, 1, 1, none⟩ ∧ (10000 : W64).toNat ≤ s.tick.toNat ∧ (10000 : W64) = s.tick ∧
      s.wheel[(1 : WheelIx)].inc ≠ 0) ∧
    (let s := { (withWheel 1 fun x => { x with next := some ⟨10000, 1, 1, none⟩ }) with tick := 9999 };
      s.wheel[(1 : WheelIx)].next = some ⟨10000, 1, 1, none⟩ ∧ s.tick.toNat < (10000 : W64).toNat) ∧
    (let s := { (withWheel 1 fun x => { x with inc := 7, next := some ⟨10000, 1, 1, some (-5)⟩ }) with tick := 10000 };
      s.wheel[(1 : WheelIx)].next = some ⟨10000, 1, 1, some (-5)⟩ ∧ s.tick = 10000 ∧ s.wheel[(1 : WheelIx)].inc ≠ 0) ∧
    -- a reference lost at its time, counted from its last event and from the start of the wait
    (let s := { (withWheel 1 fun x => { x with state := .locked, last := some 1 }) with tick := 25000001 };
      started s.wheel[(1 : WheelIx)] = true ∧ (s.tide 1).ref ≠ 0 ∧ s.m.mode ≠ .stop ∧ s.wheel[(1 : WheelIx)].state = .locked ∧
      lostAfter (s.tide 1) ≤ s.since (s.wheel[(1 : WheelIx)].last.getD s.wheel[(1 : WheelIx)].waitFrom)) ∧
    (let s := { (withWheel 1 fun x => { x with state := .acquire, waitFrom := 2 }) with tick := 25000002 };
      s.wheel[(1 : WheelIx)].state = .acquire ∧
      lostAfter (s.tide 1) ≤ s.since (s.wheel[(1 : WheelIx)].last.getD s.wheel[(1 : WheelIx)].waitFrom)) := by
  decide +kernel

/-- Shadow wheel 0 reaches phase 0 at this tick, and character 63 of it has an edge there; channel 2 as `f` makes it. -/
def characterNow (f : FdChan → FdChan) : State :=
  let s := fieldKind 1 [] f
  { s with fd := { s.fd with
      chars := [⟨0, 63, [⟨0, true⟩]⟩], wheelOn := setAt s.fd.wheelOn 0 true, prev := setAt s.fd.prev 0 0xFFFFFFFF00000000 } }

theorem witness_CharactersAndTideOut :
    (let s := characterNow fun c => { c with cmd := .character 63 };
      runningChar (s.fdc 2) = some 63 ∧ edgeFires s 2 = true) ∧
    edgeFires (characterNow fun c => { c with cmd := .lit }) 2 = false ∧
    (let s := characterNow fun c => { c with oldChar := some ⟨0, 1, []⟩, cmd := .character 1 };
      (s.fdc 2).oldChar = some ⟨0, 1, []⟩ ∧ shadowFires s 0 0 = true ∧ (s.fdc 2).cmd = .character 1 ∧ findChar s.fd.chars 1 = none) ∧
    (let s := { inMode .run with wheel := setAt (inMode .run).wheel 0 { state := .free, prev := 0xFFFFFFFF00000000 } };
      started s.wheel[(0 : WheelIx)] = true ∧ fires s.wheel[(0 : WheelIx)].prev s.wheel[(0 : WheelIx)].acc 0 = true) ∧
    (let s := { inMode .run with tick := 100, pins := { (inMode .run).pins with tideOut := true } };
      s.pins.tideOut = true ∧ 100 ≤ s.since s.pins.tideRise) ∧
    (let s := { inMode .run with tick := 99, pins := { (inMode .run).pins with tideOut := true } };
      s.since s.pins.tideRise < 100) := by
  decide +kernel

/-- A DO commanded lit that an overcurrent trip has switched off. -/
def tripped (budget : W16) : State :=
  let s := withRec (recOf [(0, 1), (8, 1)]) (linked (inMode .run))
  let s := { s with
    boot := { s.boot with gen := s.boot.gen.map fun (g : Generation) => { g with device := { g.device with budgetMw := budget } } }
    m := { s.m with band := 0 } }
  s.modCh 2 fun c => { c with cmd := .lit, p := { c.p with cmdLit := true }, prot := { c.prot with pstate := .backoff } }

theorem witness_RetriesAndTokens :
    (let s := (inMode .run).modCh 2 fun c => { c with prot := { c.prot with tokens := 14, refill := secTicks 60, onTime := 10000000000 } };
      s.m.run = .running ∧ s.ch[(2 : Chan)].prot.tokens ≠ 15 ∧ s.ch[(2 : Chan)].prot.refilled = false ∧
      secTicks 60 ≤ s.ch[(2 : Chan)].prot.refill ∧ s.ch[(2 : Chan)].retired = false ∧
      secTicks (retryQuietS (s.crec 2)) ≤ s.ch[(2 : Chan)].prot.onTime ∧ s.fd.events.any (tripAt 2 s.tick) = false) ∧
    (let s := tripped 6000;
      s.execRuns = true ∧ s.ch[(2 : Chan)].prot.pstate = .backoff ∧ s.ch[(2 : Chan)].prot.expiry.toNat ≤ s.tick.toNat ∧
      restartReady (permitted s 2) 2 = true ∧ admits (permitted s 2) (doIncrease (permitted s 2) 2) false = true ∧
      s.triad.blocked = false ∧ s.bw.gathering = false ∧ s.bw.stopped = false ∧ s.recov.reload = none ∧ s.bw.waiting = [] ∧ s.bw.unacked.length < 16) ∧
    (let s := tripped 1;
      restartReady (permitted s 2) 2 = true ∧ admits (permitted s 2) (doIncrease (permitted s 2) 2) false = false) ∧
    (let s := (inMode .run).modCh 2 fun c => { c with prot := { c.prot with pstate := .backoff } };
      s.execRuns = true ∧ s.ch[(2 : Chan)].prot.pstate = .backoff ∧ restartReady (permitted s 2) 2 = false) ∧
    (permitted (tripped 6000) 2).ch[(2 : Chan)].prot.pstate = .permit := by decide +kernel

theorem witness_GovernorEstimatesRefusesAndSheds :
    (inMode .run).execRuns = true ∧
    (govSum (govUpdate (inMode .run)) ≤
      (if (inMode .run).device.shed then budgetUw (inMode .run) else 95 * budgetUw (inMode .run) / 100)) ∧
    (let s := tripped 1999;
      s.execRuns = true ∧ budgetUw s < govSum s ∧ s.gov.overSum = false) ∧
    (let s := (tripped 6000).modCh 2 fun c => { c with cmd := .dark, refused := some 1, shed := true };
      s.execRuns = true ∧ s.ch[(2 : Chan)].refused = some 1 ∧ (∀ m : Chan, m ≠ 2 → s.ch[m].refused = none) ∧
      (∀ m : Chan, s.loop[m].alarmRef = none) ∧ acting s = true ∧ s.ch[(2 : Chan)].kind = kindDO ∧
      s.ch[(2 : Chan)].map = none ∧ s.ch[(2 : Chan)].cmd = .dark ∧ doCommand 1 ≠ .dark ∧
      admits s (doIncrease s 2) s.ch[(2 : Chan)].shed = true) ∧
    (let s := withRec (recOf [(0, 1), (9, 0x1000)]) (inMode .run);
      let s := { s with
        boot := { s.boot with gen := s.boot.gen.map fun (g : Generation) => { g with device := { g.device with budgetMw := 1000, shed := true } } }
        gov := { s.gov with overSum := true } };
      let s := s.modCh 2 fun c => { c with p := { c.p with cmdLit := true } };
      acting s = true ∧ s.gov.overSum = true ∧ s.device.shed = true ∧ budgetUw s < govSum s ∧ s.ch[(2 : Chan)].kind = kindDO ∧
      retryShedOk (s.crec 2) = true ∧ s.ch[(2 : Chan)].p.cmdLit = true ∧ s.ch[(2 : Chan)].retired = false ∧
      s.ch[(2 : Chan)].refused = none ∧ s.ch[(2 : Chan)].roleOf = none ∧ ∀ m : Chan, 2 < m → s.ch[m].p.cmdLit = false) := by decide +kernel

/-- Channel 2 is a source of the executive and of the field die, on, with a valid current of `i` 10 nA and a valid voltage. -/
def sourceOn (i : W32) : State :=
  let s := withField { cfg := recOf [(0, 5)], on := true } (withRec (recOf [(0, 5)]) (inMode .run))
  let s := s.modPath 4 fun x => { x with res := { x.res with value := i, valid := true } }
  let s := s.modPath 5 fun x => { x with res := { x.res with value := 1000000, valid := true } }
  s.modLoop 2 fun l => { l with targetOn := true }

theorem witness_LoopConditionsAndEstimates :
    ((sourceOn 100000).fdOn = true ∧ checked (sourceOn 100000) 2 ((sourceOn 100000).fdc 2) = true ∧ (sourceOn 100000).fd.slack = false) ∧
    ((sourceOn 100000).execRuns = true ∧ (sourceOn 100000).ch[(2 : Chan)].kind = kindAOSrc ∧ ((sourceOn 100000).cur 2).valid = true ∧
      ((sourceOn 100000).vol 2).valid = true ∧ 100000 ≤ Int.natAbs ((sourceOn 100000).cur 2).value.toInt) ∧
    (let s := (sourceOn 100000).modLoop 2 fun l => { l with riskSince := some 0 };
      let s := { s with tick := 10000000 };
      bitAt s.loop[(2 : Chan)].live lAlmRisk = !true ∧ s.ch[(2 : Chan)].kind = kindAOSrc ∧ s.loop[(2 : Chan)].riskSince = some 0 ∧
      secTicks 1 ≤ s.since 0 ∧ isAO s.ch[(2 : Chan)].kind = true ∧ s.loop[(2 : Chan)].targetOn = true) := by decide +kernel

/-- TRIM with channel 2, an input, armable; the arming and TRIMLED as given. -/
def trimming (led : LedPhase) : State :=
  let s := withRec (recOf [(0, 3)]) (inMode .trim)
  { s with trim := { s.trim with armValid := true, led := led } }

theorem witness_ButtonsAndTheirLamp :
    ((fieldKind 1 [] id).fd.alive = true ∧ (fieldKind 1 [] id).fd.slack = false) ∧ (inMode .run).m.mode ≠ .trim ∧
    ((trimming .off).m.mode = .trim ∧ (trimming .off).execRuns = true ∧ (trimming .off).trim.both = false ∧
      (trimming .off).trim.armValid = true ∧ nextArmed (trimming .off) = some 2) ∧
    (trimming (.pulse 0 true)).trim.led = .pulse 0 true ∧
    (trimming (.pulse 0 false)).trim.led = .pulse 0 false := by decide +kernel

/-- Channel 2 runs HART with polling address 15 mapped; `f` of the HART state. -/
def harting (f : HartState → HartState) : State :=
  let s := withRec (recOf [(0, 3), (35, 1)]) (linked (inMode .run))
  { s with
    boot := { s.boot with gen := s.boot.gen.map fun (g : Generation) => { g with hart := [⟨2, 15, 0, 0x100⟩] } }
    hart := f s.hart }

/-- As `harting`, with the device present. -/
def hartLive (f : HartState → HartState) : State :=
  (harting f).modLoop 2 fun l => { l with dev := setAt l.dev 15 { live := true } }

def polling (retries : Nat) : State :=
  hartLive fun h => { h with modem := setAt h.modem 1 { txn := some { req := .poll 2 15 0, retries := retries } } }

theorem witness_HartTransactions :
    (let s := hartLive id;
      hartRuns s 2 = true ∧ hartMapped s 2 15 = true ∧ hartQueued s 2 15 = false ∧ s.loop[(2 : Chan)].dev[(15 : Fin 16)].live = true) ∧
    (let s := harting id;
      hartRuns s 2 = true ∧ hartMapped s 2 15 = true ∧ hartQueued s 2 15 = false ∧ s.loop[(2 : Chan)].dev[(15 : Fin 16)].live = false) ∧
    (let s := harting fun h => { h with passes := [.pass 2 1 0 [] 3] };
      s.hart.modem[(1 : Fin 4)].ok = true ∧ s.hart.modem[(1 : Fin 4)].txn = none ∧ s.hart.passes = [.pass 2 1 0 [] 3] ∧
      modemOf s.hart 2 = none ∧ hartRuns s 2 = true ∧ s.execRuns = true ∧ s.m.run = .running ∧ s.ch[(2 : Chan)].kind = kindAII ∧
      hartEn (s.crec 2) = true ∧ (reqFrame s (.pass 2 1 0 [] 3)).isSome = true ∧ reqFrame s (.pass 2 1 9 [] 3) = none) ∧
    ((polling 3).hart.modem[(1 : Fin 4)].txn = some { req := .poll 2 15 0, retries := 3 } ∧ bitAt (0x7F : Byte) 7 = false ∧ 3 ≠ 0 ∧
      hartRuns (polling 3) 2 = true) ∧
    ((polling 0).hart.modem[(1 : Fin 4)].txn = some { req := .poll 2 15 0, retries := 0 } ∧
      (polling 0).loop[(2 : Chan)].dev[(15 : BitVec 4).toFin].live = true) ∧
    (let s := hartLive fun h => { h with modem := setAt h.modem 1 { txn := some { req := .search 2 15 0, retries := 0 } } };
      s.hart.modem[(1 : Fin 4)].txn = some { req := .search 2 15 0, retries := 0 } ∧
      s.loop[(2 : Chan)].dev[(15 : BitVec 4).toFin].live = true) := by decide +kernel

/-- Port 1, up in its role, under a generation that names it as the upstream port (role 1) or gives it entry 0 (role 2). -/
def portRole (role : Byte) (f : Port → Port) : State :=
  let g : Generation :=
    { link := setAt (Vector.replicate 4 {}) 1 { role := role }
      group := { upport := if role = 1 then some 1 else none, entries := [⟨0x2000, 12, 1⟩] } }
  withPort f { inMode .run with boot := { (inMode .run).boot with gen := some g } }

theorem witness_TimeUpdatesAndSweepsSent :
    (let s := portRole 2 id;
      let s := { s with wheel := setAt s.wheel 3 { state := .locked } };
      started s.wheel[(3 : WheelIx)] = true ∧ s.execRuns = true ∧ s.role 1 = 2 ∧ s.port[(1 : PortIx)].state = .up ∧
      s.role 0 ≠ 2 ∧ s.port[(0 : PortIx)].state ≠ .up) ∧
    -- with the credits of its units, and a response that waits before it
    (let s := portRole 2 fun x => { x with rsp := { x.rsp with credits := 2 } };
      let s := { s with wheel := setAt s.wheel 3 { state := .locked } };
      s.port[(1 : PortIx)].rsp.waiting = [] ∧ s.port[(1 : PortIx)].rsp.unacked.any (·.again) = false ∧
      txUnits { msg := .time 0 (timeRecord s 3 0), since := s.tick } ≤ s.port[(1 : PortIx)].rsp.credits) ∧
    (portRole 2 fun x => { x with rsp := { x.rsp with waiting := [{ msg := .updateAck 0 }] } }).port[(1 : PortIx)].rsp.waiting ≠ [] ∧
    (let s := portRole 1 id;
      let s := { s with img := { s.img with changes := [0x800, 0x801] } };
      s.upPort = some 1 ∧ s.execRuns = true ∧ (s.img.changes.filter (sendable s)).take 30 = [0x800, 0x801]) ∧
    ((portRole 1 id).upPort = some 1 ∧ (portRole 1 id).img.sweepForward = []) := by decide +kernel

/-- Entry 0 live, 150 s after its last arrival. -/
def liveEntry (role : Byte) (f : Port → Port) : State :=
  let s := portRole role f
  { s with tick := 1500000000, img := { s.img with entry := setAt s.img.entry 0 { state := 1 } } }

theorem sound_liveEntry (role : Byte) (f : Port → Port) : Sound (liveEntry role f) := fun p => by
  have h := State.reset_sound p
  cases p <;> exact h

theorem witness_BoundariesAndStaleEntries :
    ((inMode .safe).execRuns = true ∧ (inMode .safe).ruleRunning = false) ∧
    ((liveEntry 2 id).execRuns = true ∧ (liveEntry 2 id).group.entries[(0 : Fin 256).val]? = some ⟨0x2000, 12, 1⟩ ∧
      ((liveEntry 2 id).port[(1 : PortIx)].state = .up ∧ secTicks 150 ≤ (liveEntry 2 id).since (liveEntry 2 id).img.entry[(0 : Fin 256)].heard) ∧
      (liveEntry 2 id).img.entry[(0 : Fin 256)].state = 1 ∧ Sound (liveEntry 2 id) ∧
      inEntry ⟨0x2000, 12, 1⟩ 0x2FFF = true ∧ (liveEntry 2 id).isLocal 0x2FFF = false) :=
  ⟨by decide +kernel, by decide +kernel, by decide +kernel, by decide +kernel, by decide +kernel, sound_liveEntry _ _, by decide +kernel⟩

def readyFence (src : FenceSource) : PendingFence := ⟨0, 5, src, [], [], [], [], false⟩

/-- An active generation and a pending one that is due, under a budget in mW. -/
def pendingGen (budget : W16) : State :=
  let s := inMode .run
  { s with boot := { s.boot with gen := some {}, pend := some ⟨{ device := { budgetMw := budget } }, 5, true, true⟩ } }

theorem witness_FencesAndPendingGenerations :
    (let s := { pendingGen 0xFFFF with
        img := { (inMode .run).img with fencesLocal := [readyFence .mailbox] }
        recov := { (inMode .run).recov with stage := .armed, stageTag := 5 } };
      s.execRuns = true ∧ (readyFence .mailbox).ready = true ∧ s.img.fencesLocal = [readyFence .mailbox] ∧
      (∃ p, s.boot.pend = some p ∧ p.tag = (readyFence .mailbox).tag) ∧ s.recov.stage = .armed ∧
      s.recov.stageTag = (readyFence .mailbox).tag) ∧
    (let s := { inMode .run with img := { (inMode .run).img with fencesUp := [readyFence (.upstream 1 9)] } };
      s.execRuns = true ∧ s.img.fencesUp = [readyFence (.upstream 1 9)] ∧ (readyFence (.upstream 1 9)).source = .upstream 1 9) ∧
    (let s := pendingGen 0xFFFF;
      ∃ a p, s.boot.gen = some a ∧ s.boot.pend = some p ∧ p.due = true ∧ s.execRuns = true ∧ s.m.mode ≠ .load ∧ s.recov.reload = none ∧
        s.recov.stage ≠ .switching ∧ s.cycleDone = true ∧ powerOk p.gen (measuredMv s 1) (measuredMv s 0) = true) ∧
    (let s := pendingGen 1999;
      ∃ a p, s.boot.gen = some a ∧ s.boot.pend = some p ∧ p.due = true ∧ s.execRuns = true ∧ s.m.mode ≠ .load ∧ s.recov.reload = none ∧
        s.recov.stage ≠ .switching ∧ s.cycleDone = true ∧ powerOk p.gen (measuredMv s 1) (measuredMv s 0) = false) :=
  ⟨⟨rfl, rfl, rfl, ⟨_, rfl, rfl⟩, rfl, rfl⟩, by decide +kernel,
    ⟨_, _, rfl, rfl, rfl, rfl, by decide, rfl, by decide, by decide, by decide +kernel⟩,
    ⟨_, _, rfl, rfl, rfl, rfl, by decide, rfl, by decide, by decide, by decide +kernel⟩⟩

theorem witness_RuleCycleCompletesOrOverruns :
    (let s := { inMode .run with boot := { (inMode .run).boot with gen := some {} } };
      s.boot.gen = some {} ∧ cycleDue s {} = true ∧ s.m.leaving = none ∧ s.m.afresh = false ∧ s.m.reducedNow = none) ∧
    (∃ p, (pendingGen 0xFFFF).boot.pend = some p ∧ p.due = true ∧ (pendingGen 0xFFFF).m.mode ≠ .load ∧
      (pendingGen 0xFFFF).recov.reload = none ∧ (pendingGen 0xFFFF).recov.stage ≠ .switching) ∧
    -- at the next boundary of a cycle of 100 ms, which completes one tick after it
    (let g : Generation := { cycleUs := 100 };
      let s := { inMode .run with
        tick := 1000, boot := { (inMode .run).boot with gen := some g },
        rul := { (inMode .run).rul with lastBoundary := some 0, overRun := 14, doneAt := 1001 } };
      s.cycleDone = false ∧ s.execRuns = true ∧ s.ruleRunning = true ∧ boundaryMissed s = true ∧ s.rul.overSeen = false ∧
      s.rul.overRun ≠ 15) :=
  ⟨by decide +kernel, ⟨_, rfl, rfl, by decide, rfl, by decide⟩, by decide +kernel⟩

/-- The header of a whole frame of message `m` with `tag`, FSEQ 0, to a port whose OWN_ID is 0. -/
def headerFor (m : LinkMsg) (tag : W16 := 0) : LinkHeader := linkForm 0 m 0 tag 0

/-- A TRAIN frame of a port of `role` that is seen and READY, from `own`. -/
def trainFrame (own : W32) (role : Byte) : LinkHeader := headerFor (.train ⟨own, role, 0, 1, true, true, 0, 12⟩)

theorem witness_PortTraining :
    (let s := (inMode .run).modPort 1 fun x => { x with state := .down };
      s.port[(1 : PortIx)].state = .down ∧ s.port[(1 : PortIx)].retryWait = false ∧ s.m.mode ≠ .load ∧ s.m.mode ≠ .stop) ∧
    (let s := (portRole 1 id).modPort 1 fun x => { x with state := .training, trainRun := 1 };
      let f := trainFrame 0 2;
      s.port[(1 : PortIx)].state = .training ∧ f.eof = true ∧ linkOk (s.linkCfg 1).ownId f (trainMsg f) = true ∧
      f.fseq = 0 ∧ s.port[(1 : PortIx)].readySent = false ∧ 1 ≤ s.port[(1 : PortIx)].trainRun ∧
      trainMismatch (s.linkCfg 1) (trainOf f.payload) = (false, false, false) ∧ (trainOf f.payload).revision = 1 ∧
      (trainOf f.payload).ready = true) ∧
    (let s := (portRole 1 id).modPort 1 fun x => { x with state := .training, readySent := true };
      s.port[(1 : PortIx)].readySent = true) ∧
    (linkOk 0 (trainFrame 5 2) (trainMsg (trainFrame 5 2)) = true ∧ (trainOf (trainFrame 5 2).payload).ownId ≠ ((portRole 1 id).linkCfg 1).peerId) := by
  decide +kernel

theorem witness_PortLossesAndControls :
    -- the 63rd and the 64th violation within 1 ms
    ((liveEntry 2 id).port[(1 : PortIx)].state = .up ∧ ∃ je ∈ (liveEntry 2 id).entries, je.2.port = 1) ∧
    (let l (s : State) : List W64 := s.tick :: s.port[(1 : PortIx)].viols.filter (fun t => s.since t < msTicks 1);
      (l (liveEntry 2 fun x => { x with viols := List.replicate 62 1499990001 })).length < 64 ∧
      64 ≤ (l (liveEntry 2 fun x => { x with viols := List.replicate 63 1499990001 })).length) ∧
    (classOf (field (0xBF : Byte) 6 2 : BitVec 2).toNat = some .urgent ∧ classOf (field (0xC0 : Byte) 6 2 : BitVec 2).toNat = none) ∧
    ((0xF0 : Byte) ≠ ~~~(0x10 : Byte)) ∧
    (let s := portRole 2 fun x => { x with rsp := { x.rsp with unacked := [{ msg := .updateAck 0, fseq := 254 }, { msg := .updateAck 0, fseq := 255 }] } };
      (s.port[(1 : PortIx)].cls .response).unacked.findIdx? (fun f => f.fseq = 255) = some 1 ∧
      ∀ f ∈ (s.port[(1 : PortIx)].cls .response).unacked.take 2, f.hold = none) ∧
    -- an acknowledged urgent frame that port 2 still holds
    (let f : TxFrame := { msg := .event 1 1 0x2000, fseq := 7, hold := some (2, 1) };
      let s := State.modPort (portRole 1 fun x => { x with urg := { x.urg with unacked := [f] } }) 2 fun x => { x with state := .up };
      (s.port[(1 : PortIx)].cls .urgent).unacked.findIdx? (fun f => f.fseq = 7) = some 0 ∧
      (s.port[(1 : PortIx)].cls .urgent).unacked.take 1 = [f] ∧ f.hold = some (2, 1) ∧ (2 : PortIx) ≠ 1 ∧ s.port[(2 : PortIx)].state = .up) ∧
    (let s := portRole 2 id;
      (censusOk s s.port[(1 : PortIx)] .request (0 : Byte).toNat 0 && censusOk s s.port[(1 : PortIx)] .response (0 : Byte).toNat 0 &&
        censusOk s s.port[(1 : PortIx)] .urgent (0 : Byte).toNat 0) = false ∧
      (censusOk s s.port[(1 : PortIx)] .request (8 : Byte).toNat 0 && censusOk s s.port[(1 : PortIx)] .response (8 : Byte).toNat 0 &&
        censusOk s s.port[(1 : PortIx)] .urgent (4 : Byte).toNat 0) = true ∧ (1 : Byte) ≠ crc8 [0, 0, 0, 0, 0, 0]) := by decide +kernel

theorem witness_DelayAndTimeMarks :
    (let s := portRole 2 fun x => { x with exchOpen := some (3, 100), rtts := List.replicate 8 40 };
      s.port[(1 : PortIx)].state = .up ∧ s.port[(1 : PortIx)].exchOpen = some (3, 100) ∧
      keptRtt s.port[(1 : PortIx)] ((200 - 100) - ((40 : BitVec 24).toNat : Int)) = true ∧
      keptRtt s.port[(1 : PortIx)] ((200 - 100) - ((39 : BitVec 24).toNat : Int)) = false) ∧
    (markOk 0 5 (crc8 [0, 0, 0, 5]) = true ∧ markOk 0 5 (crc8 [0, 0, 0, 5] + 1) = false ∧ markOk 1 40 (crc8 [1, 0, 0, 40]) = true ∧
      markOk 2 0x010203 (crc8 [2, 1, 2, 3]) = true) := by decide +kernel

theorem witness_FramesSentAndSentAgain :
    (let s := portRole 2 fun x => { x with urg := { x.urg with waiting := [{ msg := .lamp 0x2000 0 0 }], credits := 1 } };
      s.port[(1 : PortIx)].state = .up ∧ NoneAgain s 1 .urgent ∧ s.port[(1 : PortIx)].urg.waiting = [{ msg := .lamp 0x2000 0 0 }] ∧
      (LinkMsg.lamp 0x2000 0 0).cls = .urgent ∧ txUnits { msg := .lamp 0x2000 0 0 } ≤ s.port[(1 : PortIx)].urg.credits) ∧
    -- a frame that its credits did not allow before
    (let f : TxFrame := { msg := .lamp 0x2000 0 0, again := true };
      let s := portRole 2 fun x => { x with urg := { x.urg with unacked := [f], credits := 1 } };
      s.port[(1 : PortIx)].urg.unacked.find? (·.again) = some f ∧ txUnits f ≤ s.port[(1 : PortIx)].urg.credits) ∧
    (let s := portRole 2 fun x => { x with rsp := { x.rsp with waiting := [{ msg := .updateAck 0 }], credits := 1 } };
      NoneAgain s 1 .urgent ∧ NoneAgain s 1 .response ∧ NoneAgain s 1 .request ∧ s.port[(1 : PortIx)].urg.waiting = [] ∧ s.port[(1 : PortIx)].rsp.waiting = [{ msg := .updateAck 0 }] ∧
      txUnits { msg := .updateAck 0 } ≤ s.port[(1 : PortIx)].rsp.credits) ∧
    -- of two requests the second has the less budget
    (let s := portRole 2 fun x =>
        { x with req := { x.req with waiting := [{ msg := .fence 1, tag := 1, budget := 9 }, { msg := .fence 2, tag := 2, budget := 8 }], credits := 1 } };
      NoneAgain s 1 .urgent ∧ NoneAgain s 1 .response ∧ NoneAgain s 1 .request ∧ s.port[(1 : PortIx)].urg.waiting = [] ∧ s.port[(1 : PortIx)].rsp.waiting = [] ∧
      s.port[(1 : PortIx)].req.waiting[1]? = some { msg := .fence 2, tag := 2, budget := 8 } ∧
      budgetNow s 1 { msg := .fence 2, tag := 2, budget := 8 } < budgetNow s 1 { msg := .fence 1, tag := 1, budget := 9 } ∧
      txUnits { msg := .fence 2 } ≤ s.port[(1 : PortIx)].req.credits) ∧
    (let s := portRole 2 fun x => { x with rsp := { x.rsp with unacked := [{ msg := .updateAck 0, sends := 15 }] } };
      (s.port[(1 : PortIx)].cls .response).unacked ≠ [] ∧ ∀ f ∈ (s.port[(1 : PortIx)].cls .response).unacked, f.sends < 16) ∧
    (let s := portRole 2 fun x => { x with rsp := { x.rsp with unacked := [{ msg := .updateAck 0, sends := 16 }] } };
      ({ msg := .updateAck 0, sends := 16 } : TxFrame) ∈ (s.port[(1 : PortIx)].cls .response).unacked ∧ 16 ≤ 16) := by decide +kernel

/-- `FrameTaken` of a port whose state is given, to be decided. -/
theorem frameTaken (s : State) (k : PortIx) (h : LinkHeader) (m : LinkMsg)
    (d : (decide (s.port[k].state = .up) && h.eof && linkOk (s.linkCfg k).ownId h m && decide (h.fseq = (s.port[k].cls h.sof).rxSeq) &&
      permittedOn s k m) = true) : FrameTaken s k h m := by
  simp only [Bool.and_eq_true, decide_eq_true_eq] at d
  exact ⟨d.1.1.1.1, d.1.1.1.2, d.1.1.2, d.1.2, d.2⟩

/-- The device holds a word `w` at the local endpoint 0x800. -/
def localWord (w : W32) : State :=
  let s := portRole 1 id
  { s with img := { s.img with words := [(0x800, w)] } }

theorem sound_localWord : Sound (localWord 0x00050000) ∧ Sound (localWord 0x00020000) :=
  ⟨fun p => by
    have h := State.reset_sound p
    cases p <;> exact h,
   fun p => by
    have h := State.reset_sound p
    cases p <;> exact h⟩

/-- Port 2 is up too, and serves the entry from 0x2000 on; port 1 is the upstream port. -/
def passing : State :=
  let g : Generation :=
    { link := setAt (setAt (Vector.replicate 4 {}) 1 { role := 1 }) 2 { role := 2 }
      group := { upport := some 1, entries := [⟨0x2000, 12, 2⟩] } }
  State.modPort (withPort id { inMode .run with boot := { (inMode .run).boot with gen := some g } }) 2 fun x => { x with state := .up }

theorem sound_passing : Sound passing := fun p => by
  have h := State.reset_sound p
  cases p <;> exact h

/-- Eight upstream fences are pending. -/
def fencesFull : State :=
  let s := portRole 1 id
  { s with img := { s.img with fencesUp := List.replicate 8 (readyFence (.upstream 1 9)) } }

theorem sound_fencesFull : Sound fencesFull := fun p => by
  have h := State.reset_sound p
  cases p <;> first | exact h | exact ⟨⟨rfl, rfl, rfl⟩, nofun, Nat.zero_le _, Nat.le_refl 8⟩

theorem witness_RequestsTakenFromAPort :
    ((localWord 0x00050000).execRuns = true ∧ Sound (localWord 0x00050000) ∧
      FrameTaken (localWord 0x00050000) 1 (headerFor (.write [(0x800, 7)])) (writeMsg (headerFor (.write [(0x800, 7)]))) ∧
      writesOf (headerFor (.write [(0x800, 7)])).payload = [(0x800, 7)] ∧ writeWaits (localWord 0x00050000) 1 = false ∧
      writeWaits passing 1 = false ∧ (localWord 0x00050000).isLocal 0x800 = true ∧ 0x800 ≤ offsetOf (localWord 0x00050000).localBase 0x800 ∧
      (localWord 0x00050000).m.mode ≠ .load ∧ (localWord 0x00050000).m.mode ≠ .stop ∧
      epQual ((localWord 0x00050000).ep 0x800) ≠ qUnassigned ∧ epClass ((localWord 0x00050000).ep 0x800) = 5) ∧
    (epQual ((localWord 0x00020000).ep 0x800) ≠ qUnassigned ∧ epClass ((localWord 0x00020000).ep 0x800) ≠ 5 ∧
      Sound (localWord 0x00020000)) ∧
    (passing.execRuns = true ∧ Sound passing ∧
      FrameTaken passing 1 (headerFor (.write [(0x2001, 7)])) (writeMsg (headerFor (.write [(0x2001, 7)]))) ∧
      passing.route 0x2001 (passing.role 1 = 1) = .down 2 0 ∧ transitCount passing < 256) ∧
    ((liveEntry 2 id).execRuns = true ∧ Sound (liveEntry 2 id) ∧
      FrameTaken (liveEntry 2 id) 1 (headerFor (.update false [(0x2FFF, 1)])) (updateMsg (headerFor (.update false [(0x2FFF, 1)]))) ∧
      wordsOf (headerFor (.update false [(0x2FFF, 1)])).payload = [(0x2FFF, 1)] ∧
      findEntry (liveEntry 2 id).group 0x2FFF = some (0, ⟨0x2000, 12, 1⟩) ∧ 0 < 256 ∧
      (liveEntry 2 id).img.entry[(BitVec.ofNat 8 0).toFin].outside = false ∧ (liveEntry 2 id).isLocal 0x2FFF = false) ∧
    (liveEntry 2 id).group.entries[0]?.map (·.port) = some 1 ∧
    (FrameTaken passing 1 (headerFor (.fence 5)) (fenceMsg (headerFor (.fence 5))) ∧ passing.img.fencesUp.length < 8) ∧
    (FrameTaken fencesFull 1 (headerFor (.fence 5)) (fenceMsg (headerFor (.fence 5))) ∧ fencesFull.execRuns = true ∧ Sound fencesFull ∧
      8 ≤ fencesFull.img.fencesUp.length) := by
  refine ⟨⟨rfl, sound_localWord.1, frameTaken _ _ _ _ ?_, ?_⟩, ⟨by decide +kernel, by decide +kernel, sound_localWord.2⟩,
    ⟨by decide +kernel, sound_passing, frameTaken _ _ _ _ ?_, by decide +kernel⟩,
    ⟨rfl, sound_liveEntry _ _, frameTaken _ _ _ _ ?_, ?_⟩, by decide +kernel, ⟨frameTaken _ _ _ _ ?_, by decide +kernel⟩,
    frameTaken _ _ _ _ ?_, by decide +kernel, sound_fencesFull, by decide +kernel⟩
  all_goals decide +kernel

/-- Request `r` waits for its response at port 1 with tag 4. -/
def asked (role : Byte) (kind : RequestKind) : State :=
  let s := portRole role id
  { s with img := { s.img with out := [⟨1, 4, kind, 0, 2⟩] } }

/-- The header of the response to it. -/
def answerTo (m : LinkMsg) : LinkHeader := headerFor m 4

theorem witness_ResponsesEndTheirRequests :
    (let s := asked 2 (.origin 0 [0x2000]);
      (∀ j : PortIx, s.port[j].buffered = []) ∧ s.execRuns = true ∧
      answered s 1 (answerTo (.writeRsp [3])).tag = some ⟨1, 4, .origin 0 [0x2000], 0, 2⟩ ∧
      FrameTaken s 1 (answerTo (.writeRsp [3])) (writeRspMsg (answerTo (.writeRsp [3]))) ∧
      (answerTo (.writeRsp [3])).payload[0]? = some 3 ∧
      FrameTaken s 1 (answerTo (.errorRsp 4)) (errorRspMsg (answerTo (.errorRsp 4))) ∧
      field (answerTo (.errorRsp 4)).param 0 8 = 4#8) ∧
    (let s := asked 1 (.update false [0x800]);
      answered s 1 (answerTo (.updateAck 1)).tag = some ⟨1, 4, .update false [0x800], 0, 2⟩ ∧
      FrameTaken s 1 (answerTo (.updateAck 1)) (updateAckMsg (answerTo (.updateAck 1)))) ∧
    (let s := asked 2 (.fence 3);
      answered s 1 (answerTo (.fenceRsp 1)).tag = some ⟨1, 4, .fence 3, 0, 2⟩ ∧
      FrameTaken s 1 (answerTo (.fenceRsp 1)) (fenceRspMsg (answerTo (.fenceRsp 1))) ∧ field (answerTo (.fenceRsp 1)).param 0 8 = (1 : Byte)) ∧
    -- 300 ms without a response
    (let s := { asked 2 (.origin 0 [0x2000]) with tick := 3000000 };
      msTicks 300 ≤ s.since 0) ∧
    -- a request passed on that waits to be sent, and one that waits in its input buffer, without budget
    (let s := asked 2 (.transit 9 [0]);
      let s := State.modPort { s with img := { s.img with merges := [⟨9, 2, 7, [none]⟩] } } 1 fun x =>
        { x with req := { x.req with waiting := [{ msg := .write [(0x2001, 7)], tag := 4 }] } };
      answered s 1 4 = some ⟨1, 4, .transit 9 [0], 0, 2⟩ ∧ unsent s 1 4 = true ∧
      s.img.merges.find? (fun x => x.id = 9) = some ⟨9, 2, 7, [none]⟩) ∧
    (let s := portRole 2 fun x => { x with buffered := [⟨.write [], 4, 0, 1, 0, 0⟩] };
      s.port[(1 : PortIx)].buffered.find? (fun x => spent s x 4) = some ⟨.write [], 4, 0, 1, 0, 0⟩) := by
  refine ⟨⟨by decide +kernel, by decide +kernel, by decide +kernel, frameTaken _ _ _ _ ?_, by decide +kernel, frameTaken _ _ _ _ ?_, by decide +kernel⟩,
    ⟨by decide +kernel, frameTaken _ _ _ _ ?_⟩, ⟨by decide +kernel, frameTaken _ _ _ _ ?_, by decide +kernel⟩, ?_⟩
  all_goals decide +kernel

/-- The record of wheel 2, and port 1 upstream: that wheel, started, follows it when `mark` was received before. -/
def wheelRecord : TimeRecord := ⟨2, 4, false, false, 1, 1000000, 0, 0, 0, 0, 0, 0⟩
def timed (mark : Option (BitVec 24 × W64 × Byte)) : State :=
  let s := portRole 1 fun x => { x with mark := mark }
  { s with
    boot := { s.boot with gen := s.boot.gen.map fun (g : Generation) =>
      { g with tide := setAt g.tide 2 { ref := 4, refPort := 1, periodUs := 1000000 } } }
    wheel := setAt s.wheel 2 { state := .acquire } }

theorem witness_RecordsTakenFromAPort :
    (FrameTaken (timed none) 1 (headerFor (.time 3 wheelRecord)) (timeMsg (headerFor (.time 3 wheelRecord))) ∧
      wheelRecord = timeOf (headerFor (.time 3 wheelRecord)).payload ∧ (timed none).port[(1 : PortIx)].mark = none ∧
      stepPending (timed none).wheel[wheelRecord.wheel] = false) ∧
    (let s := timed (some (3, 0, 0));
      FrameTaken s 1 (headerFor (.time 3 wheelRecord)) (timeMsg (headerFor (.time 3 wheelRecord))) ∧
      s.port[(1 : PortIx)].mark = some (3, 0, 0) ∧ stepPending s.wheel[wheelRecord.wheel] = false ∧
      3 = (field (headerFor (.time 3 wheelRecord)).param 0 16 : W16).setWidth 24 ∧ follows s 2 4 = true ∧ (s.tide 2).refPort = 1 ∧
      wheelRecord.wheelState ≠ 0 ∧ wheelRecord.periodUs = (s.tide 2).periodUs ∧ wheelRecord.secValid = false ∧ wheelRecord.uncert = false) ∧
    (FrameTaken (portRole 2 id) 1 (headerFor (.disc 0x2000 12)) (discMsg (headerFor (.disc 0x2000 12))) ∧ (portRole 2 id).execRuns = true) ∧
    (FrameTaken (liveEntry 2 id) 1 (headerFor (.lamp 0x2000 0x01050001 0)) (lampMsg (headerFor (.lamp 0x2000 0x01050001 0))) ∧
      (liveEntry 2 id).execRuns = true ∧ entryOn (liveEntry 2 id) 1 0x2000 = true ∧ (liveEntry 2 id).isLocal 0x2000 = false ∧
      Sound (liveEntry 2 id) ∧ addrAt (headerFor (.lamp 0x2000 0x01050001 0)).payload 0 = 0x2000 ∧
      serialGt (epSeq 0x01050001) (epSeq ((liveEntry 2 id).ep 0x2000)) = true ∧ (liveEntry 2 id).ev.src[lampSource 0].enable = true) ∧
    (FrameTaken (portRole 2 id) 1 (headerFor (.event 127 1 0x2000)) (eventMsg (headerFor (.event 127 1 0x2000))) ∧
      entryOn (portRole 2 id) 1 0x2000 = true ∧ (portRole 2 id).ev.src[(127 : BitVec 7).toFin].enable = true ∧
      entryOn (portRole 2 id) 1 0x3000 = false) ∧
    -- an urgent record that is forwarded: port 2 below, port 1 upstream
    (FrameTaken passing 2 (headerFor (.event 127 1 0x2000)) (eventMsg (headerFor (.event 127 1 0x2000))) ∧ passing.group.upport = some 1 ∧
      passing.ev.count < 255) := by
  refine ⟨⟨frameTaken _ _ _ _ ?_, ?_⟩, ⟨frameTaken _ _ _ _ ?_, ?_⟩, ⟨frameTaken _ _ _ _ ?_, ?_⟩,
    ⟨frameTaken _ _ _ _ ?_, by decide +kernel, by decide +kernel, by decide +kernel, sound_liveEntry _ _, ?_⟩,
    ⟨frameTaken _ _ _ _ ?_, ?_⟩, frameTaken _ _ _ _ ?_, ?_⟩
  all_goals decide +kernel

/-- The lanes vote, lane 1 among them, paired as given; lane 1's last disagreements. -/
def triad (paired : Bool) (ticks : List W64) : State :=
  let s := inMode .run
  { s with triad := { s.triad with
      startOk := true, paired := paired, vote := Vector.replicate 3 true, disTicks := setAt s.triad.disTicks 1 ticks } }

theorem witness_OddLaneHeldOrRetired :
    ((triad false []).voting = true ∧ (triad false []).straps.lanemode = false ∧ (triad false []).triad.vote[(1 : LaneIx)] = true ∧
      asPair (triad false []).triad = false ∧
      (∃ p : Fin 6, Instr.laneDisagree 1 5 = .laneDisagree 1 p ∧ DisSource.output = .output ∧ (5 : BitVec 3) = BitVec.ofNat 3 p.val) ∧
      thirdWithin (recordDis (triad false []) 1 .output 5) 1 = false) ∧
    (thirdWithin (recordDis (triad false [0, 0]) 1 .selfReport 7) 1 = true ∧ (triad false [0, 0]).m.mode = .run) ∧
    (4096 ≤ (4096 : W16).toNat ∧ (4095 : W16).toNat < 4096) := by decide +kernel

/-- The lanes vote at tick `t`, a self-test and a survey due; lane `l` is rebuilt. -/
def dueAt (t : W64) (l : Option LaneIx) : State :=
  let s := triad false []
  { s with tick := t, triad := { s.triad with held := l, testDue := true, surveyDue := true } }

/-- Attached, halted as given, with `n` recorded writes. -/
def halted (h : Bool) (n : Nat) : State :=
  let s := triad false []
  { s with
    triad := { s.triad with attached := true, halted := h, haltReq := !h, replay := List.replicate n ⟨true, 0, 0⟩ } }

theorem witness_VotingPlaneEntersSafe :
    ((triad true []).voting = true ∧ (triad true []).triad.blocked = false ∧ (triad true []).straps.lanemode = false ∧
      asPair (triad true []).triad = true ∧ (triad true []).triad.vote[(1 : LaneIx)] = true ∧ (triad true []).m.mode = .run) ∧
    ((triad false []).voting = true ∧ (triad false []).triad.blocked = false ∧ asPair (triad false []).triad = false ∧
      (triad false []).triad.held = none ∧ (triad false []).recov.handover = none ∧ (triad false []).tick.toNat % 10000 = 0) ∧
    -- a self-test that waited, at a tick of its own
    ({ triad false [] with tick := 9999 } : State).tick.toNat % 10000 ≠ 0 ∧ (dueAt 9999 none).triad.testDue = true := by decide +kernel

theorem witness_SelfTestSurveyResynchronisation :
    ((triad false []).voting = true ∧ (triad false []).triad.held = none ∧ (triad false []).execRuns = true ∧
      (triad false []).straps.lanemode = false ∧ votingLanes (triad false []).triad = [0, 1, 2] ∧ (1 : W32) ≠ 2 ∧
      (triad false []).recov.handover = none ∧ (triad false []).tick.toNat % 10000 = 0 ∧ (triad false []).tick.toNat % 100000 = 0) ∧
    -- what waited, at a tick of its own; a debug halt, in which a self-test runs
    ((dueAt 99999 none).voting = true ∧ (dueAt 99999 none).triad.testDue = true ∧ (dueAt 99999 none).triad.surveyDue = true ∧
      (dueAt 99999 none).tick.toNat % 10000 ≠ 0 ∧ votingLanes (dueAt 99999 none).triad = [0, 1, 2]) ∧
    ((halted true 0).execRuns = false ∧ (halted true 0).voting = true ∧ (halted true 0).triad.held = none ∧
      (halted true 0).recov.handover = none ∧ (halted true 0).tick.toNat % 10000 = 0) ∧
    -- due while a lane is rebuilt
    ((dueAt 0 (some 1)).voting = true ∧ (dueAt 0 (some 1)).triad.held.isSome = true ∧ (dueAt 0 (some 1)).recov.handover = none) ∧
    (let s := triad false [0];
      let s := { s with triad := { s.triad with held := some 1 } };
      s.triad.held = some 1 ∧ s.triad.verFails = 0 ∧ thirdWithin (recordDis s 1 .verification 7) 1 = false ∧
      s.triad.surveyDue = false ∧ s.recov.handover = none) ∧
    (let s := dueAt 0 (some 1);
      let s := { s with triad := { s.triad with testDue := false, vote := #v[true, false, true] } };
      s.triad.held = some 1 ∧ s.triad.surveyDue = true ∧ s.triad.testDue = false ∧ s.execRuns = true ∧
      ∀ m : LaneIx, m ≠ 1 → s.triad.vote[m] = true) := by decide +kernel

theorem witness_TapAndAttach :
    (State.reset.m.run = .held ∧ State.reset.m.mode = .load) ∧
    ((inMode .run).m.run ≠ .held ∧ (inMode .run).m.mode ≠ .load ∧ (inMode .run).m.mode = .run ∧ (inMode .run).device.debugRun = false ∧
      (inMode .run).execRuns = true ∧ (inMode .run).ev.src[srcDebug].enable = true ∧
      (0x03 : BitVec 5) ∉ [0x00, 0x01, 0x02, 0x10, 0x11] ∧ (0x1F : BitVec 5) ∉ [0x00, 0x01, 0x02, 0x10, 0x11]) ∧
    ((Mode.run = .run ∨ Mode.run = .reduced) ∧ (halted true 0).triad.attached = true ∧ (halted true 0).device.debugRun = false) ∧
    (let s := inMode .safe;
      let s := { s with triad := { s.triad with attached := true } };
      ¬((s.m.mode = .run ∨ s.m.mode = .reduced) ∧ s.device.debugRun = false) ∧ s.triad.attached = true ∧ s.device.debugRun = false) := by
  decide +kernel

theorem witness_HaltAccessRelease :
    ((halted false 0).triad.attached = true ∧ (halted false 0).triad.halted = false ∧ (halted false 0).triad.haltReq = true ∧
      (halted false 0).voting = true ∧ (halted false 0).triad.held = none ∧ (halted false 0).recov.handover = none ∧
      dbgOpen (halted false 0).triad = false) ∧
    (dbgOpen (halted true 63).triad = true ∧ dbgTarget (halted true 63) 0x7FFFFC = some (.sram 0x7FFFFC) ∧
      (halted true 63).straps.lanemode = false ∧ (DbgTarget.sram 0x7FFFFC).isSram = true ∧ (halted true 63).triad.replay.length < 64) ∧
    (dbgTarget (halted true 0) 0x4000062C = some (.lane 0 395) ∧ dbgTarget (halted true 0) 0x40000630 = none) ∧
    64 ≤ (halted true 64).triad.replay.length ∧
    -- STEP in split boot and with three lanes
    (let s := halted true 1;
      dbgOpen { s with straps := { s.straps with lanemode := true } }.triad = true ∧ s.straps.lanemode = false ∧
      dbgOpen s.triad = true ∧ votingLanes s.triad = [0, 1, 2]) ∧
    (halted false 0).triad.halted = false ∧ (halted true 0).triad.halted = true ∧ NothingHeld (halted true 0) ∧
    votingLanes (halted true 0).triad = [0, 1, 2] :=
  ⟨by decide +kernel, by decide +kernel, by decide +kernel, by decide +kernel, by decide +kernel, rfl, rfl,
    ⟨rfl, rfl, rfl, rfl, by decide +kernel, rfl, rfl⟩, by decide +kernel⟩

/-! ### Images in flash and staging -/

/-- The cells of `bs` from `a` up over `d`. -/
def cellsAt (d : Byte) (a : Nat) (bs : List Byte) : List (Nat × Byte) := ((List.range' a bs.length).zip bs).filter fun c => c.2 ≠ d

/-- A boot descriptor (Table 2-2): SEQ 7, both named slots 0, with its check value. -/
def descBytes : List Byte :=
  let b := [0x4B, 0x54, 0x42, 0x44, 1, 0, 0, 0, 7, 0, 0, 0, 0, 0, 1, 1, 3, 0] ++ List.replicate 42 0
  b ++ bytesLE (crc32c 0 b)

/-- A slot (Table 2-3) with a body of four bytes and the ranges 0 to 0xFFFF. -/
def slotBytes (ucode : Bool) : List Byte :=
  let body : List Byte := [1, 2, 3, 4]
  let b := bytesLE (if ucode then 0x4355544B else 0x5845544B) ++ [5, 0, 0, 0, 4, 0, 0, 0, 0, 0, 0xFF, 0xFF, 0, 0, 0xFF, 0xFF] ++
    bytesLE (crc32c 0x100 body) ++ List.replicate 228 0
  b ++ bytesLE (crc32c 0 b) ++ body

def slotHeader (_ucode : Bool) : SlotHeader := ⟨5, 4, 0, 0xFFFF, 0, 0xFFFF, crc32c 0x100 [1, 2, 3, 4]⟩
def desc7 : BootDesc := ⟨false, false, false, false, 7, false, false, 1, 1, 3, 0⟩

/-- The executive runs in `mode` from `desc7` and a header. -/
def booted (mode : Mode) : State :=
  let s := inMode mode
  { s with boot := { s.boot with desc := some desc7, exec := some (slotHeader false), ucode := some (slotHeader true) } }

theorem slot_in_staging (ucode : Bool) : slotAt (sread stagingEmpty (cellsAt stagingEmpty 0 (slotBytes ucode))) 0 ucode =
    some (slotHeader ucode) := by
  cases ucode <;> decide +kernel

/-- Booting at `step` with the descriptor in flash. -/
def booting (step : BitVec 4) (flash : List (Nat × Byte)) : State :=
  { State.reset with
    m := { State.reset.m with run := .booting, step := step }
    flash := flash
    boot := { State.reset.boot with desc := some desc7 } }

theorem witness_ResetAndStartUpToTheExecutive :
    ((inMode .run).m.run ≠ .held ∧ State.reset.m.run = .held) ∧
    ((booting 1 []).m.run = .booting ∧ (booting 1 []).m.step = 1 ∧ bootDesc (booting 1 []).flashAt = none) ∧
    bootDesc (booting 1 (cellsAt flashErased 0 descBytes)).flashAt = some desc7 ∧
    ((booting 3 []).boot.desc = some desc7 ∧ 3 ≤ (booting 3 []).m.step.toNat ∧
      chooseSlot (booting 3 []).flashAt false desc7.execSlot desc7.fallbackExec = none) ∧
    (chooseSlot (booting 3 (cellsAt flashErased 0x10000 (slotBytes false))).flashAt false desc7.execSlot desc7.fallbackExec =
        some (false, false, slotHeader false) ∧
      -- a start check that passes, one whose self-test fails in its last pattern, one whose survey fails
      checkPassed ⟨none, false⟩ false = true ∧ checkFailed ⟨some 4, false⟩ false = some 4 ∧ checkPassed ⟨some 4, false⟩ false = false ∧
      checkPassed ⟨none, true⟩ false = false ∧ checkFailed ⟨none, true⟩ false = none ∧
      (booting 3 (cellsAt flashErased 0x10000 (slotBytes false))).ev.deferred = [] ∧
      (booting 3 (cellsAt flashErased 0x10000 (slotBytes false))).bw.buffered = []) := by decide +kernel

/-- XIN is valid; a failure of the clock may be in progress, or the device be on the monitor oscillator. -/
def clocked (failing monitor : Bool) : State :=
  { inMode .run with clk := { (inMode .run).clk with xinOk := !failing, failing := failing, onMonitor := monitor } }

theorem witness_ClockFailureAndRecovery :
    ((clocked false false).m.run ≠ .held ∧ (clocked false false).m.run ≠ .clockReset ∧ 2 ≤ (clocked false false).m.step.toNat ∧
      (clocked false false).clk.failing = false ∧ (clocked false false).clk.onMonitor = false) ∧
    ((clocked false true).clk.failing = false ∧ (clocked false true).clk.onMonitor = true) ∧
    ((clocked true false).clk.failing = true ∧ (clocked true false).m.mode = .run ∧ (clocked true false).m.run ≠ .clockReset) ∧
    (let s := { State.reset with m := { State.reset.m with run := .clockReset } };
      s.m.run = .clockReset) := by decide +kernel

/-- A power cycle is requested at tick 0 while a flash write is in progress; the tick now is `t`. -/
def cycling (t : W64) (job : Option FlashJob) : State :=
  { inMode .run with
    tick := t
    recov := { (inMode .run).recov with pcycWait := true }
    boot := { (inMode .run).boot with job := job } }

theorem witness_MailboxCommandsTaken :
    (let s := (inMode .run).modSlot 3 fun x => { x with state := .running };
      s.execRuns = true ∧ s.mbx.slot[(3 : SlotIx)].state = .running) ∧
    ((inMode .run).mbx.slot[(3 : SlotIx)].state ≠ .running ∧ (inMode .run).m.mode ≠ .stop ∧ (inMode .stop).m.mode = .stop ∧
      (inMode .stop).execRuns = true ∧
      (0xA1 : W16).toNat ∉ [0x01, 0x10, 0x20, 0x21, 0x22, 0x30, 0x31, 0x32, 0x40, 0x41, 0x42, 0x43, 0x50, 0x51, 0x52, 0x60, 0x70,
        0x71, 0x80, 0x81, 0x90, 0xA0]) ∧
    (let s := withArgs [(0, 0xFFFF)] (inMode .run);
      MbxTaken s 3 ∧ served s.m.mode = true ∧ s.mbx.slot[(3 : SlotIx)].arg[0] &&& ~~~0xFFFF#32 = 0 ∧ s.img.fencesLocal.length < 8 ∧
      s.recov.pcyc = false ∧ s.recov.pcycWait = false) ∧
    (let s := { inMode .run with img := { (inMode .run).img with fencesLocal := List.replicate 8 (readyFence .mailbox) } };
      MbxTaken s 3 ∧ s.mbx.slot[(3 : SlotIx)].arg[0] &&& ~~~0xFFFF#32 = 0 ∧ 8 ≤ s.img.fencesLocal.length) ∧
    -- 1 tick before 5 s and at 5 s with a flash write in progress; none in progress
    (let j := some (FlashJob.image 5 5 true true .rest);
      MbxTaken (cycling 49999999 j) 3 ∧ (cycling 49999999 j).recov.pcycWait = true ∧ (cycling 49999999 j).boot.job ≠ none ∧
      (cycling 49999999 j).since (cycling 49999999 j).recov.pcycTick < secTicks 5 ∧
      secTicks 5 ≤ (cycling 50000000 j).since (cycling 50000000 j).recov.pcycTick ∧ (cycling 0 none).boot.job = none) :=
  ⟨by decide +kernel, by decide +kernel, ⟨⟨rfl, by decide +kernel⟩, by decide +kernel⟩,
    ⟨⟨rfl, by decide +kernel⟩, by decide +kernel⟩,
    ⟨⟨rfl, by decide +kernel⟩, by decide +kernel⟩⟩

/-- Channel 2 has record `r`, slot 3 names it, and `f` of it. -/
def named (mode : Mode) (r : ChanRecord) (f : Channel → Channel) : State :=
  (withArgs [(0, 2)] (withRec r (inMode mode))).modCh 2 f

theorem taken_named (mode : Mode) (r : ChanRecord) (f : Channel → Channel) : MbxTaken (named mode r f) 3 :=
  ⟨rfl, fun h => nomatch (show SlotState.free = .running from h)⟩

theorem witness_RetireReturnMap :
    (let s := named .run {} id;
      MbxTaken s 3 ∧ served s.m.mode = true ∧ s.mbx.slot[(3 : SlotIx)].arg[0] = BitVec.ofNat 32 (2 : Chan).val ∧ s.ch[(2 : Chan)].kind = kindOff ∧
      s.ch[(2 : Chan)].kind ≠ kindPair ∧ s.ch[(2 : Chan)].retired = false ∧ s.ch[(2 : Chan)].map = none) ∧
    (let s := named .run (recOf [(0, 1)]) id;
      MbxTaken s 3 ∧ s.ch[(2 : Chan)].kind ≠ kindOff ∧ s.ch[(2 : Chan)].kind ≠ kindPair ∧ s.ch[(2 : Chan)].retired = false ∧ s.m.mode = .run) ∧
    (let s := (named .run (recOf [(0, 0x1301)]) fun c => { c with retired := true }).modCh 3 fun c =>
        { c with life := .standbyIdle, p := { c.p with pub := .darkProven } };
      MbxTaken s 3 ∧ s.ch[(2 : Chan)].kind ≠ kindPair ∧ s.ch[(2 : Chan)].retired = true ∧ cfgStbyEn (s.crec 2) = true ∧
      s.ch[(2 : Chan)].kind = kindDO ∧ s.ch[cfgStby (s.crec 2)].roleOf = none ∧ standbyReady s (cfgStby (s.crec 2)) = true) ∧
    -- the standby serves channel 5
    (let s := (named .run (recOf [(0, 0x1301)]) fun c => { c with retired := true }).modCh 3 fun c => { c with roleOf := some 5 };
      MbxTaken s 3 ∧ s.ch[(2 : Chan)].retired = true ∧ s.ch[cfgStby (s.crec 2)].roleOf = some 5 ∧ (5 : Chan) ≠ 2) :=
  ⟨⟨taken_named .., by decide +kernel⟩, ⟨taken_named .., by decide +kernel⟩, ⟨⟨rfl, by decide +kernel⟩, by decide +kernel⟩,
    ⟨rfl, by decide +kernel⟩, by decide +kernel⟩

/-- A capture by slot 3 for channel 2. -/
def capturing (point : Option CalPoint) : State :=
  let s := named .trim (recOf [(0, 3)]) id
  { s with conv := { s.conv with capture := some { ch := 2, span := true, r := 0, slot := some 3, got := List.replicate 15 ⟨0, 0, 0, 0, 0⟩, point := point } } }

theorem witness_TrimsAndEnrolments :
    (let s := named .trim (recOf [(0, 3)]) id;
      MbxTaken s 3 ∧ trimModes s.m.mode = true ∧ s.mbx.slot[(3 : SlotIx)].arg[0] = BitVec.ofNat 32 (2 : Chan).val ∧
      s.ch[(2 : Chan)].kind = kindAII ∧ s.boot.job = none ∧ s.conv.capture = none ∧ served s.m.mode = true ∧ enrolBad s 2 = true) ∧
    (∃ c : TrimCapture, (capturing none).execRuns = true ∧ (capturing none).conv.capture = some c ∧ c.ch = 2 ∧ c.slot = some 3 ∧
      c.point = none ∧ c.got.length < 16) ∧
    (∃ (c : TrimCapture) (p : CalPoint), (capturing (some ⟨0, 0, 0, 0, 0, 3, 0, 0, 1⟩)).conv.capture = some c ∧ c.point = some p ∧
      journalFull (capturing (some ⟨0, 0, 0, 0, 0, 3, 0, 0, 1⟩)) = false) ∧
    (let s := named .trim (recOf [(0, 1), (16, 3)]) fun c => { c with cmdWord := 1, p := { c.p with win := .pass } };
      MbxTaken s 3 ∧ s.m.mode = .trim ∧ enrolBad s 2 = false ∧ s.boot.job = none) ∧
    (let s := { named .trim (recOf [(0, 1)]) id with
        enrol := setAt (Vector.replicate 16 none) 2 (some ⟨3, [some 0, some 0, some 0, some 0]⟩) };
      s.execRuns = true ∧ (0 : Int) ≤ 0 ∧ s.enrol[(2 : Chan)] = some ⟨3, [some 0, some 0, some 0, some 0]⟩) :=
  ⟨⟨taken_named .., by decide +kernel⟩, ⟨_, rfl, rfl, rfl, rfl, rfl, by decide⟩, ⟨_, _, rfl, rfl, by decide +kernel⟩,
    ⟨taken_named .., by decide +kernel⟩, by decide +kernel⟩

/-- A generation is in force, and slot 4 waits for the cycle that leaves `mode`. -/
def leavingMode (mode : Mode) : State :=
  { inMode mode with
    m := { (inMode mode).m with leaving := some 4 }
    boot := { (inMode mode).boot with gen := some {} } }

theorem witness_ModeCommands :
    (MbxTaken (inMode .run) 3 ∧ (inMode .run).m.mode = .run) ∧
    (let s := { inMode .reduced with m := { (inMode .reduced).m with reducedNow := some (0, 0) } };
      MbxTaken s 3 ∧ s.m.reducedNow.isSome = true ∧ s.m.mode = .reduced) ∧
    (let s := { inMode .safe with m := { (inMode .safe).m with causes := [⟨0x0A, none, 0⟩] } };
      MbxTaken s 3 ∧ s.m.mode = .safe ∧ safeBlock s = some ⟨0x0A, none, 0⟩) ∧
    (let s := { inMode .safe with m := { (inMode .safe).m with causes := [⟨0x05, none, 0⟩] } };
      MbxTaken s 3 ∧ s.m.mode = .safe ∧ safeBlock s = none ∧ s.m.leaving = none) ∧
    (let s := withArgs [(0, 0xFF)] (inMode .reduced);
      MbxTaken s 3 ∧ s.m.mode = .reduced ∧ s.mbx.slot[(3 : SlotIx)].arg[0] = 0xFF) ∧
    (MbxTaken (inMode .trim) 3 ∧ (inMode .trim).m.mode = .trim ∧ (inMode .trim).m.leaving = none) ∧
    (MbxTaken (leavingMode .safe) 3 ∧ (leavingMode .safe).m.mode = .safe ∧ safeBlock (leavingMode .safe) = none ∧
      (leavingMode .safe).m.leaving = some 4 ∧ (leavingMode .safe).boot.gen = some {} ∧ cycleDue (leavingMode .safe) {} = true) ∧
    (MbxTaken (leavingMode .trim) 3 ∧ (leavingMode .trim).m.mode = .trim ∧ cycleDue (leavingMode .trim) {} = true) :=
  ⟨⟨⟨rfl, by decide +kernel⟩, rfl⟩, ⟨⟨rfl, by decide +kernel⟩, rfl, rfl⟩, ⟨⟨rfl, by decide +kernel⟩, rfl, by decide +kernel⟩,
    ⟨⟨rfl, by decide +kernel⟩, rfl, by decide +kernel⟩, ⟨⟨rfl, by decide +kernel⟩, rfl, by decide +kernel⟩, ⟨⟨rfl, by decide +kernel⟩, rfl, rfl⟩,
    ⟨⟨rfl, by decide +kernel⟩, by decide +kernel⟩, ⟨rfl, by decide +kernel⟩, by decide +kernel⟩

theorem witness_PassThroughAndCheck :
    (let s := withArgs [(0, 0x00010102)] (harting id);
      MbxTaken s 3 ∧ served s.m.mode = true ∧ s.mbx.slot[(3 : SlotIx)].arg[0] = 0x00010100 ||| BitVec.ofNat 32 (2 : Chan).val ∧
      s.ch[(2 : Chan)].kind = kindAII ∧ hartEn (s.crec 2) = true ∧ s.ch[(2 : Chan)].retired = false ∧ s.ch[(2 : Chan)].life ≠ .isolated ∧
      passOutstanding s 2 = false ∧ s.hart.modem[(3 : Fin 4)].ok = true) ∧
    (let s := withArgs [(0, 0x00010102)] (harting fun h => { h with modem := Vector.replicate 4 { ok := false } });
      MbxTaken s 3 ∧ passOutstanding s 2 = false ∧ ∀ m : Fin 4, s.hart.modem[m].ok = false) ∧
    (let s := withArgs [(0, 0x00010102)] (harting fun h => { h with passes := [.pass 2 1 1 [] 5] });
      MbxTaken s 3 ∧ passOutstanding s 2 = true) ∧
    (let s := withArgs [(0, 8), (1, 0xFFFFFF), (2, 1)] (inMode .run);
      MbxTaken s 3 ∧ s.m.mode ≠ .stop ∧ s.mbx.slot[(3 : SlotIx)].arg[0] = 8 ∧ s.mbx.slot[(3 : SlotIx)].arg[1].toNat < 0x1000000 ∧
      0 < s.mbx.slot[(3 : SlotIx)].arg[2].toNat ∧
      s.mbx.slot[(3 : SlotIx)].arg[1].toNat + s.mbx.slot[(3 : SlotIx)].arg[2].toNat ≤ 0x1000000 ∧ s.chk.job = none) ∧
    (let s := { inMode .run with chk := { (inMode .run).chk with job := some (3, true, 0, 60) } };
      s.execRuns = true ∧ s.chk.job = some (3, true, 0, 60) ∧ s.m.run = .running) ∧
    (bitAt (0x10020 : W32) 16 = true ∧ widthOk (field (0x10020 : W32) 0 7) = true) :=
  ⟨⟨⟨rfl, by decide +kernel⟩, by decide +kernel⟩, ⟨⟨rfl, by decide +kernel⟩, by decide +kernel⟩, ⟨⟨rfl, by decide +kernel⟩, by decide +kernel⟩,
    ⟨⟨rfl, by decide +kernel⟩, by decide +kernel⟩, by decide +kernel⟩

/-- The flash write `j` is in progress. -/
def writing (mode : Mode) (j : FlashJob) : State := { booted mode with boot := { (booted mode).boot with job := some j } }

theorem sound_writing (mode : Mode) (j : FlashJob) : Sound (writing mode j) := fun p => by
  have h := State.reset_sound p
  cases p <;> exact h

theorem witness_FlashWritesEnd :
    -- each step of the write of copy A, and of copy B while B has no mirror
    (∀ p : JobStep, (writing .run (.config 3 true 5 8 false false p)).mem.cur = none ∧ (writing .run (.config 3 true 5 8 false false p)).execRuns = true ∧
      (writing .run (.config 3 true 5 8 false false p)).boot.job = some (.config 3 true 5 8 false false p) ∧
      Sound (writing .run (.config 3 true 5 8 false false p))) ∧
    ((writing .run (.config 3 true 5 8 true false .readBack)).mirrorB = false ∧ (writing .run (.config 3 true 5 8 true false .readBack)).m.mode ≠ .load) ∧
    -- on the mirror, and copy B with one
    (JobStep.rest ≠ .readBack ∧ (writing .run (.config 3 true 5 8 true true .rest)).boot.job = some (.config 3 true 5 8 true true .rest)) ∧
    (let s := writing .run (.config 3 true 5 8 true false .readBack);
      let s := { s with boot := { s.boot with desc := some { desc7 with mirrorB := true } } };
      s.mirrorB = true ∧ s.mem.cur = none ∧ s.execRuns = true) ∧
    -- slots, in RUN and in LOAD
    ((∀ p : JobStep, (writing .run (.image 3 5 true true p)).boot.job = some (.image 3 5 true true p)) ∧ (writing .run (.image 3 5 true true .readBack)).m.mode ≠ .load ∧
      Sound (writing .run (.image 3 5 true true .rest)) ∧ (writing .load (.image 3 5 true true .readBack)).m.mode = .load ∧
      (writing .load (.image 3 5 true true .readBack)).boot.desc = some desc7 ∧ (writing .load (.image 3 5 true true .readBack)).execRuns = true) :=
  ⟨fun p => ⟨rfl, rfl, rfl, sound_writing _ _⟩, by decide +kernel, by decide +kernel, by decide +kernel,
    ⟨fun _ => rfl, by decide +kernel, sound_writing _ _, by decide +kernel⟩⟩

/-- A REINIT of function `f` for slot 3 is in progress; slot 4 asks for function `g`. -/
def reiniting (f : BitVec 5) (g : W32) : State :=
  let s := (inMode .run).modSlot 4 fun x => { x with arg := setAt x.arg 0 g }
  { s with recov := { s.recov with jobs := [⟨f, some 3⟩] } }

theorem witness_ReinitBeginsAndCompletes :
    ((reiniting 2 0x1E).m.mode ≠ .stop ∧ MbxTaken (reiniting 2 0x1E) 4 ∧ (reiniting 2 0x1E).mbx.slot[(4 : SlotIx)].arg[0].toNat < 256 ∧
      0x1D < (reiniting 2 0x1E).mbx.slot[(4 : SlotIx)].arg[0].toNat) ∧
    (∃ j ∈ (reiniting 0x1D 0x1D).recov.jobs, (reiniting 0x1D 0x1D).mbx.slot[(4 : SlotIx)].arg[0] = j.func.setWidth 32 ∧ j.func.toNat ≤ 0x1D) ∧
    (MbxTaken (reiniting 2 0x14) 4 ∧ (reiniting 2 0x14).mbx.slot[(4 : SlotIx)].arg[0].toNat ≤ 0x1C ∧
      (∀ j ∈ (reiniting 2 0x14).recov.jobs, (reiniting 2 0x14).mbx.slot[(4 : SlotIx)].arg[0] ≠ j.func.setWidth 32) ∧
      (reiniting 2 0x14).mbx.slot[(4 : SlotIx)].arg[0].toNat ∈ [0x14, 0x15, 0x16, 0x17, 0x1A, 0x1B]) ∧
    (MbxTaken (reiniting 2 0x1D) 4 ∧ (reiniting 2 0x1D).mbx.slot[(4 : SlotIx)].arg[0] = 0x1D ∧ (reiniting 2 0x1D).recov.reload = none ∧
      ∀ j ∈ (reiniting 2 0x1D).recov.jobs, j.func ≠ 0x1D) ∧
    ((reiniting 2 0).execRuns = true ∧ (2 : BitVec 5) ≠ 0x1D ∧ (reiniting 2 0).recov.jobs = [⟨2, some 3⟩] ∧ (2 : BitVec 5) = BitVec.ofNat 5 (2 : Chan).val ∧
      isAO (reiniting 2 0).ch[(2 : Chan)].kind = false) ∧
    ((reiniting 0x18 0).recov.jobs = [⟨0x18, some 3⟩] ∧ (reiniting 0x19 0).recov.jobs = [⟨0x19, some 3⟩] ∧
      (reiniting 0x1B 0).recov.jobs = [⟨0x1B, some 3⟩]) ∧
    ((reiniting 0x1D 0).recov.jobs = [⟨0x1D, some 3⟩] ∧ fieldAnswers (reiniting 0x1D 0) = false ∧
      (let s := linked (reiniting 0x1D 0);
        let s := { s with conv := { s.conv with refReady := true } };
        -- the field die runs what the boot chose, or has lost it
        let u := { s with boot := { s.boot with ucode := some (slotHeader true) } };
        fieldAnswers s = true ∧ runsUcode s = true ∧ s.execRuns = true ∧ fieldAnswers u = true ∧ u.m.mode ≠ .load ∧ runsUcode u = false ∧
        fieldAnswers { u with m := { u.m with mode := .load } } = true)) :=
  ⟨⟨by decide, ⟨rfl, by decide +kernel⟩, by decide +kernel⟩, by decide +kernel, ⟨⟨rfl, by decide +kernel⟩, by decide +kernel⟩,
    ⟨⟨rfl, by decide +kernel⟩, by decide +kernel⟩, by decide +kernel⟩

theorem witness_ResetDeviceAndWatchdogs :
    (let s := withArgs [(0, 1)] (inMode .run);
      MbxTaken s 3 ∧ s.mbx.slot[(3 : SlotIx)].arg[0] &&& ~~~1#32 = 0 ∧ s.boot.job = none ∧ s.mbx.slot[(3 : SlotIx)].arg[0].getLsbD 0 = true) ∧
    (let s := writing .run (.image 5 5 true true .rest);
      MbxTaken s 3 ∧ s.mbx.slot[(3 : SlotIx)].arg[0] &&& ~~~1#32 = 0 ∧ s.boot.job ≠ none ∧
      s.mbx.slot[(3 : SlotIx)].arg[0].getLsbD 0 = false) ∧
    ((inMode .run).m.run = .running ∧ (inMode .run).recov.handover = none ∧ (inMode .run).recov.reload = none ∧ (inMode .run).wdHeld 0 = false ∧
      (inMode .run).wdHeld 1 = false ∧ (inMode .run).execRuns = true ∧ (inMode .run).m.mode = .run ∧ (inMode .run).wdHeld 4 = false ∧
      (inMode .run).recov.wdTick[(4 : Fin 8)] = none ∧ (∀ j ∈ (inMode .run).recov.jobs, j.func ≠ 0x1C)) ∧
    (let s := { inMode .run with recov := { (inMode .run).recov with handover := some ⟨0, false, false⟩ } };
      s.m.run = .running ∧ s.recov.handover.isSome = true ∧ s.wdHeld 7 = false) :=
  ⟨⟨⟨rfl, by decide +kernel⟩, by decide +kernel⟩, ⟨⟨rfl, by decide +kernel⟩, by decide +kernel⟩, by decide +kernel⟩

/-- Staging holds the slot of the kind given, in state `st`. -/
def stagedSlot (ucode : Bool) (st : StageState) : State :=
  let s := booted .run
  { s with recov := { s.recov with
      stage := st, stageKind := if ucode then 2 else 1, stageLen := 260, switchDue := true
      staging := cellsAt stagingEmpty 0 (slotBytes ucode) } }

/-- A handover; the exchange made or not, the start check passed or not. -/
def handing (exchanged : Bool) (checked : Bool := true) : State :=
  let s := stagedSlot false .switching
  { s with recov := { s.recov with handover := some ⟨0, exchanged, checked⟩ } }

theorem sound_handing : Sound (handing false) := fun p => by
  have h := State.reset_sound p
  cases p
  case recov => exact ⟨by decide +kernel, rfl⟩
  all_goals exact h

theorem witness_HandoverStepsAreTaken :
    ((stagedSlot false .switching).execRuns = true ∧ (stagedSlot false .switching).cycleDone = true ∧
      (stagedSlot false .switching).recov.stage = .switching ∧
      (stagedSlot false .switching).recov.stageKind = 1 ∧ (stagedSlot false .switching).recov.switchDue = true ∧
      (stagedSlot false .switching).recov.reload = none) ∧
    ((handing false).recov.handover = some ⟨0, false, true⟩ ∧ Sound (handing false) ∧ (handing false).straps.lanemode = false ∧
      checkPassed ⟨none, false⟩ false = true ∧ checkFailed ⟨some 4, false⟩ false = some 4 ∧ checkPassed ⟨none, true⟩ false = false) ∧
    ((handing true).recov.handover = some ⟨0, true, true⟩ ∧ (handing true).ev.deferred = [] ∧ (handing true).bw.buffered = [] ∧
      (∀ k : PortIx, (handing true).port[k].buffered = []) ∧ (handing true).held = [] ∧ (handing true).recov.wdDue = [] ∧
      (handing true).recov.eccDue = []) ∧
    -- the three cases of R428, and none of them
    (reverseCase (handing true false) ⟨0, true, false⟩ 1 = true ∧ reverseCase (handing true) ⟨0, true, true⟩ 2 = true ∧
      reverseCase { handing true with tick := 100000 } ⟨0, true, true⟩ 3 = true ∧ reverseCase (handing true) ⟨0, true, true⟩ 3 = false) ∧
    (let s := { stagedSlot false .probation with tick := 10000000 };
      s.execRuns = true ∧ s.recov.stage = .probation ∧ s.boot.desc = some desc7 ∧ secTicks 1 ≤ s.since s.recov.probation) :=
  ⟨by decide +kernel, ⟨rfl, sound_handing, by decide +kernel⟩, by decide +kernel⟩

/-- A reload hold of the staged microcode, as `f` makes it. -/
def reloading (f : Reload → Reload) : State :=
  let s := linked (stagedSlot true .switching)
  { s with recov := { s.recov with reload := some (f ⟨0, false, some (slotHeader true), false, false, false⟩) }
           fd := { s.fd with ucode := some ((slotHeader true).version, (slotHeader true).bodyCrc) }
           flash := cellsAt flashErased 0x210000 (slotBytes true) }

theorem witness_MicrocodeReload :
    ((stagedSlot true .switching).execRuns = true ∧ (stagedSlot true .switching).recov.reload = none ∧
      (stagedSlot true .switching).bw.allUp = false ∧ (stagedSlot true .switching).recov.stage = .switching ∧
      (stagedSlot true .switching).recov.stageKind = 2 ∧ (stagedSlot true .switching).recov.switchDue = true) ∧
    (let s := linked (stagedSlot true .switching);
      s.cycleDone = true ∧ s.recov.laneWait = false ∧
      -- the lanes were waited for, and a cycle's boundary is here
      (let w := { s with recov := { s.recov with laneWait := true } }; w.cycleDone = true ∧ atBoundary w = true) ∧
      s.execRuns = true ∧ s.recov.reload = none ∧ s.bw.allUp = true ∧ s.bw.stopped = false ∧ s.bw.reloadFirst = false ∧
      s.triad.blocked = false ∧ s.bw.waiting = [] ∧ s.recov.stage = .switching ∧ s.recov.stageKind = 2 ∧ s.recov.switchDue = true ∧
      slotAt s.stageAt 0 true = some (slotHeader true)) ∧
    ((reloading id).recov.reload = some ⟨0, false, some (slotHeader true), false, false, false⟩ ∧ (reloading id).execRuns = true ∧
      loadSent (reloading id) = true ∧ (reloading id).fd.ucode = some ((slotHeader true).version, (slotHeader true).bodyCrc) ∧
      (reloading id).fd.slack = false ∧ (reloading id).triad.blocked = false ∧ (reloading id).fd.safeHeld = false ∧ (reloading id).boot.desc = some desc7 ∧ (reloading id).recov.wdDue = []) ∧
    (let s := reloading fun x => { x with resent := true };
      s.recov.reload = some ⟨0, false, some (slotHeader true), true, false, false⟩ ∧ s.recov.stage = .switching ∧
      namedUcode s = some (slotHeader true)) ∧
    (let s := reloading fun x => { x with resent := true, fellBack := true };
      let s := { s with fd := { s.fd with slack := true } };
      s.recov.reload = some ⟨0, false, some (slotHeader true), true, true, false⟩ ∧ s.execRuns = true ∧ s.fd.slack = true ∧
      s.fd.expired = false) :=
  ⟨by decide +kernel, ⟨by decide +kernel, rfl, by decide +kernel, rfl, rfl, rfl, rfl, rfl, rfl, rfl, rfl, rfl, rfl, slot_in_staging true⟩, by decide +kernel⟩

def hframe (addr : BitVec 24) (len cycles : Nat) : HostFrame := ⟨addr, len, [1, 2, 3, 4], cycles, false⟩

/-- A native port in the mode given; a legacy one. -/
def legacyPort : State := { inMode .run with straps := { (inMode .run).straps with hcompat := true } }

/-- A read of path 0's word 1 is under way, captured when its number was 0; the number now is `k`. -/
def readingAt (k : W16) : State :=
  let s := { inMode .run with host := { (inMode .run).host with reading := some ⟨0x0B, 0x420004, [0, 0, 0, 0], false⟩ } }
  State.modPath s 0 fun x => { x with res := { x.res with seq := k } }

theorem witness_HostFrames :
    -- reads: the last byte of the map, an absent LEN, a read past the end; legacy
    (portReset (inMode .run) = false ∧ (inMode .run).extestActs = false ∧ (inMode .run).straps.hcompat = false ∧ (inMode .run).execRuns = true ∧
      (Instr.readQuadAddressData (hframe 0xFFFFFF 1 18), 0xEB#8, 4) ∈
        [(Instr.read (hframe 0xFFFFFF 1 18), 0x0B#8, 1), (.readDualData (hframe 0xFFFFFF 1 18), 0x3B#8, 1),
          (.readDualAddressData (hframe 0xFFFFFF 1 18), 0xBB#8, 2), (.readQuadData (hframe 0xFFFFFF 1 18), 0x6B#8, 1),
          (.readQuadAddressData (hframe 0xFFFFFF 1 18), 0xEB#8, 4)] ∧
      8 + 40 / 4 ≤ (hframe 0xFFFFFF 1 18).cycles ∧ SpanOk (hframe 0xFFFFFF 1 18) ∧ 28 ≤ (hframe 0xFFF000 4096 28).cycles ∧
      SpanOk (hframe 0xFFF000 4096 28) ∧ 48 ≤ (hframe 0 1 48).cycles ∧ SpanOk (hframe 0 1 48)) ∧
    ((hframe 0 0 48).len = 0 ∧ 4096 < (hframe 0 4097 48).len ∧ 0x1000000 < (hframe 0xFFFFFF 2 48).addr.toNat + (hframe 0xFFFFFF 2 48).len ∧
      8 + 40 / 1 ≤ (hframe 0 0 48).cycles) ∧
    (portReset legacyPort = false ∧ legacyPort.extestActs = false ∧ legacyPort.straps.hcompat = true ∧ legacyPort.execRuns = true) ∧
    -- a read that waits: the record it captured still stands, a later one is in its place
    (∀ k : W16, portReset (readingAt k) = false ∧ (readingAt k).extestActs = false ∧
      (readingAt k).host.reading = some ⟨0x0B, 0x420004, [0, 0, 0, 0], false⟩) ∧
    ((0x420004 : BitVec 24).toNat ≤ 0x420004 + 16 * (0 : PathIx).val ∧
      0x420008 + 16 * (0 : PathIx).val ≤ (0x420004 : BitVec 24).toNat + min 4 [0, 0, 0, (0 : Byte)].length ∧
      (readingAt 0).conv.path[(0 : PathIx)].res.seq =
        BitVec.ofNat 16 (natLE (([0, 0, 0, (0 : Byte)].drop (0x420006 + 16 * (0 : PathIx).val - (0x420004 : BitVec 24).toNat)).take 2)) ∧
      (readingAt 1).conv.path[(0 : PathIx)].res.seq ≠
        BitVec.ofNat 16 (natLE (([0, 0, 0, (0 : Byte)].drop (0x420006 + 16 * (0 : PathIx).val - (0x420004 : BitVec 24).toNat)).take 2))) ∧
    ([0, 0, 0, (0 : Byte)].length ≤ 4 ∧ 8 ≤ 8 ∧ 47 < 48 ∧ 48 ≤ 48 ∧ 144 ≤ 144 ∧ knownCode false 0x03 = false) ∧
    -- writes
    (WriteWhole 1 (hframe 0xFFFFFC 4 80) ∧ WriteWhole 2 (hframe 0xFFFFFC 4 64) ∧ WriteWhole 4 (hframe 0xFFF000 4096 8240) ∧
      48 ≤ (hframe 0xFFFFFC 4 56).cycles ∧ WriteWhole 4 (hframe 0xFFFFFC 4 56) ∧
      (hframe 0xFFFFFC 4 80).laneError = false ∧ (inMode .run).m.mode ≠ .stop ∧ (hframe 2 4 80).addr.toNat % 4 ≠ 0) ∧
    ((handing false).m.run = .running ∧ (handing false).m.mode ≠ .stop ∧ (handing false).execRuns = false ∧ (handing false).holdRoom 4 = true ∧
      portReset (handing false) = false ∧ (handing false).extestActs = false ∧ (handing false).straps.hcompat = false) ∧
    (portReset (booting 3 []) = false ∧ (booting 3 []).extestActs = false ∧ (booting 3 []).m.run ≠ .running ∧ (booting 3 []).straps.hcompat = false) ∧
    -- fences
    (served (inMode .run).m.mode = true ∧ (inMode .run).img.fencesLocal.length < 8 ∧ (inMode .load).execRuns = true ∧
      (inMode .load).m.mode = .load ∧ portReset (inMode .load) = false ∧ (inMode .stop).execRuns = true ∧ (inMode .stop).m.mode = .stop) ∧
    -- legacy: the page at its reset value, the longest write at the page's end
    ((hframe 0xFFC0 64 600).cycles = 600 ∧
      legacyPort.host.page.toNat * 0x10000 + (hframe 0xFFC0 64 600).addr.toNat % 0x10000 + 64 ≤ 0x1000000 ∧
      (hframe 0xFFC0 64 536).cycles = 24 + 8 * 64 ∧ 64 % 4 = 0 ∧ (hframe 0xFFC0 64 536).addr.toNat % 4 = 0 ∧ legacyPort.m.mode ≠ .stop) :=
  ⟨by unfold SpanOk; decide +kernel, by decide +kernel, by decide +kernel, fun _ => ⟨rfl, rfl, rfl⟩,
    by decide +kernel, by decide +kernel, by unfold WriteWhole SpanOk; decide +kernel, by decide +kernel⟩

/-- The local word 0x800 in a state that also fits COEFFICIENT_WRITE: path 4 of `mode`. -/
def pathIn (mode : Mode) (f : PathState → PathState) : State := (inMode mode).modPath 4 f

theorem sound_pathIn (mode : Mode) (f : PathState → PathState) : Sound (pathIn mode f) := fun p => by
  have h := State.reset_sound p
  cases p <;> exact h

theorem witness_WordsWrittenToTheMap :
    ((pathIn .load id).execRuns = true ∧ (pathIn .load id).m.mode = .load ∧ (pathIn .stop id).m.mode = .stop ∧ (pathIn .stop id).execRuns = true) ∧
    ((pathIn .run id).m.mode ≠ .load ∧ (pathIn .run id).m.mode ≠ .stop ∧ false = (pathIn .run id).conv.path[(4 : PathIx)].active ∧
      true ≠ (pathIn .run id).conv.path[(4 : PathIx)].active ∧ (pathIn .run id).conv.path[(4 : PathIx)].fade = none ∧ Sound (pathIn .run id)) ∧
    (pathIn .run fun x => { x with fade := some ⟨true, 16, 3⟩ }).conv.path[(4 : PathIx)].fade.isSome = true ∧
    -- SWAP with length 16 and with 0, to the inactive bank and to the active one
    ((0x100002 : W32).getLsbD 2 = false ∧ 16 = ((0x100002 : W32).extractLsb' 16 16).toNat ∧ (pathIn .run id).conv.path[(4 : PathIx)].load = none ∧
      (pathIn .run id).conv.path[(4 : PathIx)].remain = 0 ∧ (pathIn .run id).conv.path[(4 : PathIx)].waitAlign = false ∧
      (0x100002 : W32).getLsbD 1 ≠ (pathIn .run id).conv.path[(4 : PathIx)].active ∧ 0 = ((2 : W32).extractLsb' 16 16).toNat ∧
      (0 : W32).getLsbD 1 = (pathIn .run id).conv.path[(4 : PathIx)].active) ∧
    (((0xF0002 : W32).extractLsb' 16 16).toNat ≠ 0 ∧ ((0xF0002 : W32).extractLsb' 16 16).toNat < 16 ∧
      4096 < ((0x10010002 : W32).extractLsb' 16 16).toNat) ∧
    ((0 : W32).getLsbD 0 = false ∧ (withPath id).scanned 4 = true ∧ (pathIn .run id).scanned 4 = false) ∧
    -- the map: a local command endpoint, one of another class, one that port 2 serves, one that no port does
    ((localWord 0x00050000).execRuns = true ∧ (localWord 0x00050000).m.mode ≠ .stop ∧ (localWord 0x00050000).m.mode ≠ .load ∧
      (localWord 0x00050000).isLocal 0x800 = true ∧ 0x800 ≤ offsetOf (localWord 0x00050000).localBase 0x800 ∧
      epQual ((localWord 0x00050000).ep 0x800) ≠ qUnassigned ∧ epClass ((localWord 0x00050000).ep 0x800) = 5 ∧
      Sound (localWord 0x00050000) ∧ epClass ((localWord 0x00020000).ep 0x800) ≠ 5 ∧ Sound (localWord 0x00020000)) ∧
    (passing.execRuns = true ∧ passing.m.mode ≠ .stop ∧ passing.m.mode ≠ .load ∧ (passing.route 0x2001 false).port = some 2 ∧
      passing.img.pendingWrites < 64) ∧
    ((inMode .run).m.mode ≠ .load ∧ ∃ why, (inMode .run).route 0x2001 false = .refused why) ∧
    (0x4C0000 ≤ (0x4FFFFC : BitVec 24).toNat ∧ (0x4FFFFC : BitVec 24).toNat < 0x500000 ∧ 0x800000 ≤ (0x800000 : BitVec 24).toNat) :=
  ⟨by decide +kernel, ⟨by decide, by decide, by decide +kernel, by decide +kernel, by decide +kernel, sound_pathIn _ _⟩, by decide +kernel,
    by decide +kernel, by decide +kernel, by decide +kernel, ⟨rfl, by decide, by decide, by decide, by decide, by decide, by decide,
      sound_localWord.1, by decide, sound_localWord.2⟩, by decide +kernel, ⟨by decide, _, rfl⟩, by decide⟩

/-- The memory port with `f` of it. -/
def memPort (f : MemPort → MemPort) : State := { inMode .run with mem := f (inMode .run).mem }

/-- Write enable: command 0x06 of 8 bits on one lane; held on (CONT), polled, and with the reserved bit 23 set. -/
def entryWren : MemEntry := ⟨0x00080006, 0, 0, 0⟩
def entryHeld : MemEntry := ⟨0x00080006, 0, 0x800, 0⟩
def entryPolled : MemEntry := ⟨0x00080006, 0, 0x1000, 0⟩
def entryOdd : MemEntry := ⟨0x00880006, 0, 0, 0⟩

theorem witness_MemoryPortEntriesAndFrames :
    ((inMode .run).execRuns = true ∧ entryBad (inMode .run).mem entryOdd = true ∧ entryBad (inMode .run).mem entryWren = false ∧
      entryWren.write = false ∧ (inMode .run).mem.queue.length < 16) ∧
    (let s := memPort fun m => { m with queue := List.replicate 16 entryWren };
      s.execRuns = true ∧ entryBad s.mem entryWren = false ∧ 16 ≤ s.mem.queue.length) ∧
    (let s := memPort fun m => { m with queue := [entryWren], decoded := false };
      s.mem.again = none ∧ s.mem.queue = entryWren :: [] ∧ portReset s = false ∧ s.mem.cur = none ∧ s.mem.polling = false ∧
      s.mem.heldSel = none ∧ s.mem.chainPoll = 0 ∧ s.mem.wel[(0 : Fin 2)] = false ∧ s.mem.wel[(1 : Fin 2)] = false ∧ entryWren.cont = false ∧
      s.mem.decoded = false ∧ entryWren.sel = false ∧ entryWren.cmd = 0x06 ∧ entryWren.cmdBits ≠ 0) ∧
    -- an entry that is sent again goes before the queue
    (let s := memPort fun m => { m with again := some entryPolled, queue := [entryWren], decoded := false };
      s.mem.again = some entryPolled ∧ [entryWren] = s.mem.queue) ∧
    (entryHeld.cont = true ∧ entryPolled.cont = false ∧ entryPolled.poll ≠ 0) ∧
    (let s := memPort fun m => { m with cur := some entryPolled, polling := true };
      s.mem.polling = true ∧ s.mem.cur = some entryPolled ∧ (0 : Byte).getLsbD 0 = false ∧ (1 : Byte).getLsbD 0 = true) ∧
    (let s := memPort fun m => { m with cur := some entryWren };
      s.mem.cur = some entryWren ∧ s.mem.polling = false) ∧
    (let s := memPort fun m => { m with heldSel := some (false, 0), chainPoll := 1 };
      s.mem.heldSel = some (false, 0) ∧ s.mem.cur = none ∧ s.mem.queue = [] ∧ s.mem.chainPoll ≠ 0) ∧
    (let s := memPort fun m => { m with decoded := false };
      portReset s = false ∧ s.mem.cur = none ∧ s.mem.heldSel = none ∧ s.mem.polling = false ∧ s.mem.decoded = false) ∧
    ((inMode .run).mem.decoded ≠ decodedNow (inMode .run) ∧ (inMode .run).mem.cur = none ∧ (inMode .run).mem.polling = false ∧
      (inMode .run).mem.heldSel = none) ∧
    -- window reads of one byte, decoded: the first and the last byte of copy B's mirror
    (0 < (1 : W16).toNat ∧ (memPort fun m => { m with code := 1 }).mem.decoded = true ∧ (memPort fun m => { m with code := 1 }).mem.code = 1 ∧
      portReset (memPort fun m => { m with code := 1 }) = false ∧ (memPort fun m => { m with code := 1 }).mem.cur = none ∧
      0x400000 ≤ (0x400000 : BitVec 24).toNat ∧ (0x4FFFFF : BitVec 24).toNat + (1 : W16).toNat ≤ 0x500000) := by decide +kernel

theorem witness_LogAndScrubber :
    ((inMode .run).execRuns = true ∧ (inMode .run).ev.sramLog = [] ∧ portReset (inMode .run) = false ∧
      (inMode .run).ev.src[srcEccCorr].enable = true ∧ (inMode .run).m.mode ∈ [Mode.run, .reduced, .trim]) ∧
    (let s := { inMode .run with ev := { (inMode .run).ev with sramLog := [⟨1, 0, 0, 0, [], 0⟩] } };
      s.execRuns = true ∧ s.ev.sramLog ≠ [] ∧ s.ev.logLostRun = 0) ∧
    (let s := { inMode .run with ev := { (inMode .run).ev with sramLog := [⟨1, 0, 0, 0, [], 0⟩], logLostRun := 3 } };
      s.execRuns = true ∧ s.ev.sramLog ≠ [] ∧ s.ev.logLostRun ≠ 0) ∧
    (0x600000 ≤ (0x6FFFFF : BitVec 23).toNat ∧ (0x6FFFFF : BitVec 23).toNat < 0x700000 ∧ (staged .opened 0x100000).recov.stage = .opened ∧
      portReset (staged .opened 0x100000) = false) ∧
    (0x700000 ≤ (0x77FFFF : BitVec 23).toNat ∧ (0x77FFFF : BitVec 23).toNat < 0x780000 ∧ Sound (inMode .run)) ∧
    ((handing false).m.run = .running ∧ (handing false).execRuns = false ∧ portReset (handing false) = false ∧
      (0x3FFFFF : BitVec 23).toNat < 0x400000) ∧
    (portReset (liveEntry 2 id) = false ∧ (liveEntry 2 id).execRuns = true ∧ (0x8000 : BitVec 23).toNat < 0x400000 ∧
      (0x2001 : BitVec 20).toNat = (0x8000 : BitVec 23).toNat / 8 * 2 + 1 ∧ (liveEntry 2 id).isLocal 0x2001 = false ∧
      (findEntry (liveEntry 2 id).group 0x2001).isSome = true ∧ Sound (liveEntry 2 id)) ∧
    (0x400000 ≤ (0x5FFFFF : BitVec 23).toNat ∧ (0x5FFFFF : BitVec 23).toNat < 0x600000) :=
  ⟨by decide +kernel, by decide +kernel, by decide +kernel, by decide, ⟨by decide, by decide, sound_inMode _⟩, by decide +kernel,
    ⟨by decide, by decide, by decide, by decide, by decide, by decide, sound_liveEntry _ _⟩, by decide⟩

/-! ### A valid configuration copy -/

/-- The sections of the smallest copy: ID, offset and length. -/
def sections : List (Nat × Nat × Nat) :=
  [(1, 0x200, 256), (2, 0x300, 4096), (3, 0x1300, 64), (4, 0x1400, 17408), (9, 0x5800, 16), (11, 0x5900, 512)]

/-- The body: a DEVICE section with HOST_MAXWAIT 1, a budget of 6000 mW and SAFE_WINDOW 1; every channel OFF; a top device with one window of
4096; source 107 enabled. -/
def bodyAt (k : Nat) : Byte :=
  if k = 0x202 then 1 else if k = 0x204 then 0x70 else if k = 0x205 then 0x17 else if k = 0x20A then 1
  else if k = 0x5808 then 12 else if k = 0x5809 then 0xFF else if k = 0x5900 + 4 * 107 then 1 else 0

def half (v : Nat) : List Byte := [BitVec.ofNat 8 v, BitVec.ofNat 8 (v / 256)]
def word (v : Nat) : List Byte := bytesLE (BitVec.ofNat 32 v)

/-- The header less its check value: SEQ 9, LENGTH 0x5B00, six sections with theirs. -/
def headBytes : List Byte :=
  [0x4B, 0x54, 0x43, 0x46] ++ half 1 ++ half 0x200 ++ word 9 ++ word 0x5B00 ++ half 6 ++ List.replicate 14 0 ++
  (sections.flatMap fun e => half e.1 ++ half 0 ++ word e.2.1 ++ word e.2.2 ++ bytesLE (crcOf bodyAt (BitVec.ofNat 32 e.2.1) e.2.1 e.2.2)) ++
  List.replicate 380 0

def copyBytes : List Byte := headBytes ++ bytesLE (crc32c 0 headBytes) ++ (List.range' 0x200 0x5900).map bodyAt

/-- The copy read from `b` up, with `d` around it. -/
def copyMedium (d : Medium) (b k : Nat) : Byte :=
  if b ≤ k ∧ k < b + 0x200 then (headBytes ++ bytesLE (crc32c 0 headBytes)).getD (k - b) 0
  else if b + 0x200 ≤ k ∧ k < b + 0x5B00 then bodyAt (k - b) else d k

theorem headBytes_length : headBytes.length = 508 := by decide +kernel
theorem head_length : (headBytes ++ bytesLE (crc32c 0 headBytes)).length = 0x200 := by decide +kernel
theorem copyBytes_length : copyBytes.length = 0x5B00 := by
  unfold copyBytes
  rw [List.length_append, head_length, List.length_map, List.length_range']

theorem copy_reads (e : Byte) (m : List (Nat × Byte)) (h : swf e m = true) (b : Nat) :
    sread e (swriteList e m b copyBytes) = copyMedium (sread e m) b := by
  funext k
  rw [sread_swriteList h, copyBytes_length, copyMedium]
  by_cases h : b ≤ k ∧ k < b + 0x200
  · rw [if_pos (by omega), if_pos h, copyBytes, List.getD_append _ _ _ _ (by rw [head_length]; omega),
      List.getD_eq_getElem _ _ (by rw [head_length]; omega), List.getD_eq_getElem _ _ (by rw [head_length]; omega)]
  · rw [if_neg h]
    by_cases h2 : b + 0x200 ≤ k ∧ k < b + 0x5B00
    · rw [if_pos (by omega), if_pos h2, copyBytes, List.getD_append_right _ _ _ _ (by rw [head_length]; omega), head_length, List.getD_eq_getElem?_getD,
        List.getElem?_map, List.getElem?_range' (by omega)]
      simp only [Option.map_some, Option.getD_some]
      congr 1
      omega
    · rw [if_neg (by omega), if_neg h2]

theorem crc_section (d : Medium) (b o n : Nat) (f : W32) (h : 0x200 ≤ o) (h2 : o + n ≤ 0x5B00) :
    crcOf (copyMedium d b) f (b + o) n = crcOf bodyAt f o n := by
  unfold crcOf rdBytes
  congr 1
  refine List.map_congr_left fun i hi => ?_
  have := List.mem_range.mp hi
  unfold copyMedium
  rw [if_neg (by omega), if_pos (by omega)]
  congr 1
  omega

theorem crc_header (d : Medium) (b : Nat) : crcOf (copyMedium d b) 0 b 0x1FC = crc32c 0 headBytes := by
  unfold crcOf rdBytes
  congr 1
  refine List.ext_getElem (by rw [List.length_map, List.length_range, headBytes_length]) fun i h1 h2 => ?_
  rw [headBytes_length] at h2
  rw [List.getElem_map, List.getElem_range]
  unfold copyMedium
  rw [if_pos (by omega), show b + i - b = i from by omega, List.getD_append _ _ _ _ (by rw [headBytes_length]; omega),
    List.getD_eq_getElem _ _ (by rw [headBytes_length]; omega)]

theorem natLE_bytesLE (w : W32) : BitVec.ofNat 32 (natLE (bytesLE w)) = w := by
  refine BitVec.eq_of_toNat_eq ?_
  have := w.isLt
  simp only [bytesLE, natLE, field, BitVec.toNat_ofNat, BitVec.extractLsb'_toNat, Nat.shiftRight_eq_div_pow]
  omega

theorem head_read (d : Medium) (b i : Nat) (h : i < 0x200) :
    copyMedium d b (b + i) = (headBytes ++ bytesLE (crc32c 0 headBytes)).getD i 0 := by
  unfold copyMedium
  rw [if_pos (by omega), show b + i - b = i from by omega]

/-- Four bytes of the header in a row are a word. -/
theorem head_word (d : Medium) (b i : Nat) (w : W32) (h : i + 4 ≤ 0x200)
    (hw : ((headBytes ++ bytesLE (crc32c 0 headBytes)).drop i).take 4 = bytesLE w) : rd32 (copyMedium d b) (b + i) = w := by
  have hl := head_length
  have e : (List.range 4).map (fun k => copyMedium d b (b + i + k)) = bytesLE w := by
    rw [← hw]
    refine List.ext_getElem (by rw [List.length_map, List.length_range, List.length_take, List.length_drop, hl]; omega) fun k h1 h2 => ?_
    rw [List.getElem_map, List.getElem_range, show b + i + k = b + (i + k) from by omega, head_read _ _ _ (by simp at h1; omega)]
    rw [List.getElem_take, List.getElem_drop, List.getD_eq_getElem _ _ (by simp at h1; omega)]
  unfold rd32 rdN
  rw [e, natLE_bytesLE]

theorem head_crc (d : Medium) (b : Nat) : rd32 (copyMedium d b) (b + 0x1FC) = crc32c 0 headBytes :=
  head_word d b 0x1FC _ (by decide) (by
    rw [List.drop_append_of_le_length (by rw [headBytes_length]), List.drop_eq_nil_of_le (by rw [headBytes_length])]
    rfl)

theorem section_word (k : Fin 6) : ((headBytes ++ bytesLE (crc32c 0 headBytes)).drop (0x2C + 16 * k.val)).take 4 =
    bytesLE (crcOf bodyAt (BitVec.ofNat 32 (sections[k.val]).2.1) (sections[k.val]).2.1 (sections[k.val]).2.2) := by
  obtain ⟨k, hk⟩ := k
  match k, hk with
  | 0, _ => rfl
  | 1, _ => rfl
  | 2, _ => rfl
  | 3, _ => rfl
  | 4, _ => rfl
  | 5, _ => rfl

/-- The directory of the copy. -/
theorem copy_directory (d : Medium) (b : Nat)
    (h : rdN (copyMedium d b) (b + 0x10) 2 = 6)
    (hs : ∀ k : Fin 6, rdN (copyMedium d b) (b + 0x20 + 16 * k.val) 2 = (sections[k.val]).1 ∧
      rdN (copyMedium d b) (b + 0x20 + 16 * k.val + 4) 4 = (sections[k.val]).2.1 ∧
      rdN (copyMedium d b) (b + 0x20 + 16 * k.val + 8) 4 = (sections[k.val]).2.2) :
    directory (copyMedium d b) b = sections.map fun e => ⟨e.1, e.2.1, e.2.2, crcOf bodyAt (BitVec.ofNat 32 e.2.1) e.2.1 e.2.2⟩ := by
  unfold directory
  rw [h]
  refine List.ext_getElem (by simp [sections]) fun i h1 h2 => ?_
  have hi : i < 6 := by simpa [sections] using h2
  rw [List.getElem_map, List.getElem_range, List.getElem_map]
  have hk := hs ⟨i, hi⟩
  simp only at hk
  dsimp only
  rw [hk.1, hk.2.1, hk.2.2, show b + 0x20 + 16 * i + 0xC = b + (0x2C + 16 * i) from by omega,
    head_word d b (0x2C + 16 * i) _ (by omega) (section_word ⟨i, hi⟩)]

theorem sections_in : ∀ x ∈ sections, 0x200 ≤ x.2.1 ∧ x.2.1 + x.2.2 ≤ 0x5B00 := by decide +kernel

/-- No section of the copy fails its check value. -/
theorem copy_crcs (d : Medium) (b : Nat) (hd : directory (copyMedium d b) b =
      sections.map fun e => ⟨e.1, e.2.1, e.2.2, crcOf bodyAt (BitVec.ofNat 32 e.2.1) e.2.1 e.2.2⟩) :
    ((directory (copyMedium d b) b).find? fun e =>
      crcOf (copyMedium d b) (BitVec.ofNat 32 e.offset) (b + e.offset) e.slen ≠ e.crc) = none := by
  rw [hd, List.find?_eq_none]
  intro e he
  obtain ⟨x, hx, rfl⟩ := List.mem_map.mp he
  have : 0x200 ≤ x.2.1 ∧ x.2.1 + x.2.2 ≤ 0x5B00 := sections_in x hx
  rw [crc_section _ _ _ _ _ this.1 this.2]
  simp

theorem copy_headerOk (d : Medium) (b : Nat) (hd : directory (copyMedium d b) b =
      sections.map fun e => ⟨e.1, e.2.1, e.2.2, crcOf bodyAt (BitVec.ofNat 32 e.2.1) e.2.1 e.2.2⟩)
    (hr : (let m := copyMedium d b
      let len := rdN m (b + 0xC) 4
      let n := rdN m (b + 0x10) 2
      let dir := sections.map fun e => (⟨e.1, e.2.1, e.2.2, 0⟩ : DirEntry)
      rd32 m b = 0x4643544B#32 && rdN m (b + 6) 2 = 0x200 && rd32 m (b + 8) ≠ 0
      && 0x200 ≤ len && len ≤ 0x100000 && len % 4 = 0 && 1 ≤ n && n ≤ 28
      && (dir.all fun e => e.id ≠ 0 && e.offset % 0x100 = 0 && 0x200 ≤ e.offset && e.slen % 4 = 0)
      && decide (dir.map (·.id)).Nodup && orderOk len dir) = true) : headerOk (copyMedium d b) b = true := by
  unfold headerOk
  rw [head_crc, crc_header, hd]
  simpa [sections, orderOk] using hr

/-- Staging with the copy; flash with a microcode slot and the copy at copy A's place. -/
def stagedMedium : Medium := copyMedium (fun _ => 0) 0
def slotCells : List (Nat × Byte) := cellsAt flashErased 0x210000 (slotBytes true)
def flashMedium : Medium := copyMedium (sread flashErased slotCells) 0x300000

theorem directory_staged : directory stagedMedium 0 =
    sections.map fun e => ⟨e.1, e.2.1, e.2.2, crcOf bodyAt (BitVec.ofNat 32 e.2.1) e.2.1 e.2.2⟩ :=
  copy_directory (fun _ => 0) 0 (by decide +kernel) (by decide +kernel)

theorem directory_flash : directory flashMedium 0x300000 =
    sections.map fun e => ⟨e.1, e.2.1, e.2.2, crcOf bodyAt (BitVec.ofNat 32 e.2.1) e.2.1 e.2.2⟩ :=
  copy_directory (sread flashErased slotCells) 0x300000 (by decide +kernel) (by decide +kernel)

theorem header_staged : headerOk stagedMedium 0 = true := copy_headerOk (fun _ => 0) 0 directory_staged (by decide +kernel)
theorem header_flash : headerOk flashMedium 0x300000 = true :=
  copy_headerOk (sread flashErased slotCells) 0x300000 directory_flash (by decide +kernel)

theorem body_zero (d : Medium) (b k : Nat) (h : 0x300 ≤ k) (h2 : k + 4 ≤ 0x5800) : rd32 (copyMedium d b) (b + k) = 0 := by
  have e : (List.range 4).map (fun i => copyMedium d b (b + k + i)) = [0, 0, 0, 0] := by
    refine List.ext_getElem rfl fun i h3 h4 => ?_
    have hi : i < 4 := h4
    rw [List.getElem_map, List.getElem_range]
    unfold copyMedium
    rw [if_neg (by omega), if_pos (by omega), show b + k + i - b = k + i from by omega]
    have h : ∀ c : Nat, c < 0x300 ∨ 0x5800 ≤ c → ¬(k + i = c) := fun c hc e => by omega
    simp only [bodyAt, h, Nat.reduceLT, Nat.reduceLeDiff, Nat.reduceMul, Nat.reduceAdd, true_or, or_true, if_false]
    match i, hi with
    | 0, _ => rfl
    | 1, _ => rfl
    | 2, _ => rfl
    | 3, _ => rfl
  unfold rd32 rdN
  rw [e]
  rfl

/-- Every channel of the copy is OFF. -/
theorem copy_chan (d : Medium) (b : Nat) (hd : directory (copyMedium d b) b =
      sections.map fun e => ⟨e.1, e.2.1, e.2.2, crcOf bodyAt (BitVec.ofNat 32 e.2.1) e.2.1 e.2.2⟩) (n : Chan) :
    (decGeneration (copyMedium d b) b).chan[n] = {} := by
  have hs : sectionAt (copyMedium d b) b 2 = some (b + 0x300) := by
    unfold sectionAt
    rw [hd]
    rfl
  have hc : (decGeneration (copyMedium d b) b).chan = Vector.ofFn fun i => decChan (copyMedium d b) (b + 0x300 + 256 * i.val) := by
    unfold decGeneration
    dsimp only
    rw [hs]
  rw [hc, Fin.getElem_fin, Vector.getElem_ofFn]
  unfold decChan
  refine congrArg ChanRecord.mk (Vector.ext fun i hi => ?_)
  rw [Vector.getElem_ofFn, Vector.getElem_replicate, show b + 0x300 + 256 * n.val + 4 * i = b + (0x300 + 256 * n.val + 4 * i) from by omega]
  exact body_zero d b _ (by omega) (by omega)

theorem off_chan : rangesChan {} false = true := by decide +kernel

theorem off_scanned (g : Generation) (hk : ∀ n : Chan, g.chan[n] = {}) (n : Chan) : scanned g n = false := by
  unfold scanned
  rw [hk, hk]
  decide

theorem off_pairing (g : Generation) (hk : ∀ n : Chan, g.chan[n] = {}) : pairingOk g = true := by
  have f : cfgKind {} ≠ kindPair := by decide
  unfold pairingOk
  rw [List.all_eq_true]
  intro n _
  simp only [hk, f, ne_eq, not_false_eq_true, decide_true, Bool.true_or]

theorem off_standby (g : Generation) (hk : ∀ n : Chan, g.chan[n] = {}) : standbyOk g = true := by
  have f : cfgStbyEn {} = false := by decide
  unfold standbyOk
  rw [List.all_eq_true]
  intro n _
  simp only [hk, f, Bool.not_false, Bool.true_or]

theorem off_decimation (g : Generation) (hk : ∀ n : Chan, g.chan[n] = {}) : decimationOk g = true := by
  unfold decimationOk
  rw [List.all_eq_true]
  intro n _
  simp only [off_scanned g hk, Bool.not_false, Bool.true_or]

theorem off_ranges (m : Medium) (g : Generation) (hk : ∀ n : Chan, g.chan[n] = {}) (b : Nat) :
    ((List.finRange 16).all fun n => rangesChan g.chan[n] (isMaster g n)) = true ∧
    ((List.finRange 32).all fun p => !scanned g (pathChan p) || rangesPath m b p) = true := by
  have f : cfgKind {} ≠ kindDO := by decide
  constructor
  · rw [List.all_eq_true]
    intro n _
    have : isMaster g n = false := by
      unfold isMaster
      simp only [hk, f, decide_false, Bool.and_false, Bool.false_and]
    rw [hk, this, off_chan]
  · rw [List.all_eq_true]
    intro n _
    simp only [off_scanned g hk, Bool.not_false, Bool.true_or]

theorem off_power (g : Generation) (hk : ∀ n : Chan, g.chan[n] = {}) (h5 : budgetOf g.device = 6000) (x y : Option Nat) :
    powerOk g x y = true := by
  have f : cfgKind {} = 0 := by decide
  unfold powerOk configuredUw
  simp only [hk, f, h5]
  simp [isAO, kindDO, kindAOSrc, kindAOSnk, kindAII, kindDI]

/-- What the copy at `b` is checked for beyond its header and its channels. -/
def copyOk (m : Medium) (b : Nat) : Bool :=
  (sections.all fun e => expectedLen m (b + e.2.1) e.1 = some e.2.2) &&
  (rangesDevice m (b + 0x200) && rangesSafe m (b + 0x1300) && rangesGroup m (b + 0x5800) && rangesEvent m (b + 0x5900)) &&
  (safeCharsOk (decGeneration m b) && windowsOk (decGeneration m b) && hartMapOk (decGeneration m b))

/-- The body passes when the sections' lengths and the checks of DEVICE, SAFESTATE, GROUP and EVENT do. -/
theorem copy_body (d : Medium) (b : Nat) (hd : directory (copyMedium d b) b =
      sections.map fun e => ⟨e.1, e.2.1, e.2.2, crcOf bodyAt (BitVec.ofNat 32 e.2.1) e.2.1 e.2.2⟩)
    (ok : copyOk (copyMedium d b) b = true) (h5 : budgetOf (decGeneration (copyMedium d b) b).device = 6000) :
    bodyCheck (copyMedium d b) b none none = .valid ∧ ∀ x y, powerOk (decGeneration (copyMedium d b) b) x y = true := by
  simp only [copyOk, Bool.and_eq_true] at ok
  obtain ⟨⟨hs, ⟨⟨r1, r3⟩, r9⟩, r11⟩, ⟨h3, h6⟩, h7⟩ := ok
  have hc := copy_crcs d b hd
  have hk := copy_chan d b hd
  have hp := off_power _ hk h5
  refine ⟨?_, hp⟩
  have h1 := off_pairing _ hk
  have h2 := off_standby _ hk
  have h4 := off_decimation _ hk
  have hr := off_ranges (copyMedium d b) _ hk (b + 5120)
  have q2 : rangesSection (copyMedium d b) (decGeneration (copyMedium d b) b) 2 (b + 768) = true := hr.1
  have q4 : rangesSection (copyMedium d b) (decGeneration (copyMedium d b) b) 4 (b + 5120) = true := hr.2
  have hpc : powerCheckOk (decGeneration (copyMedium d b) b) none none = true := by
    unfold powerCheckOk
    rw [hp, h5]
    simp
  unfold bodyCheck
  dsimp only
  rw [hc, hd]
  simp only [sections, List.all_cons, List.all_nil, Bool.and_true, Bool.and_eq_true, decide_eq_true_eq] at hs
  have q1 : rangesSection (copyMedium d b) (decGeneration (copyMedium d b) b) 1 (b + 512) = true := r1
  have q3 : rangesSection (copyMedium d b) (decGeneration (copyMedium d b) b) 3 (b + 4864) = true := r3
  have q9 : rangesSection (copyMedium d b) (decGeneration (copyMedium d b) b) 9 (b + 22528) = true := r9
  have q11 : rangesSection (copyMedium d b) (decGeneration (copyMedium d b) b) 11 (b + 22784) = true := r11
  simp [sections, structureOk, hs, mandatory, q1, q2, q3, q4, q9, q11, h1, h2, h3, h4, hpc, h6, h7]

theorem body_staged : bodyCheck stagedMedium 0 none none = .valid ∧ ∀ x y, powerOk (decGeneration stagedMedium 0) x y = true :=
  copy_body (fun _ => 0) 0 directory_staged (by decide +kernel) (by decide +kernel)

theorem body_flash : bodyCheck flashMedium 0x300000 none none = .valid ∧
    ∀ x y, powerOk (decGeneration flashMedium 0x300000) x y = true :=
  copy_body (sread flashErased slotCells) 0x300000 directory_flash (by decide +kernel) (by decide +kernel)

/-- Staging is OPEN with a configuration of the length given. -/
def configStaged (staging : List (Nat × Byte)) : State :=
  let s := booted .run
  { s with recov := { s.recov with stage := .opened, stageKind := 0, stageLen := 0x5B00, staging := staging } }

theorem stageAt_configStaged (st : List (Nat × Byte)) : (configStaged st).stageAt = sread stagingEmpty st := rfl
theorem staged_medium : sread stagingEmpty (swriteList stagingEmpty [] 0 copyBytes) = stagedMedium :=
  (copy_reads stagingEmpty [] rfl 0).trans (congrArg (copyMedium · 0) (funext fun _ => rfl))

theorem sound_configStaged (st : List (Nat × Byte)) (w : swf stagingEmpty st = true) : Sound (configStaged st) := fun p => by
  have h := State.reset_sound p
  cases p
  case recov => exact ⟨w, rfl⟩
  all_goals exact h

/-- The hypotheses of WRITE_CONFIG beside those about the staged bytes. -/
def ConfigReady (s : State) : Prop :=
  MbxTaken s 3 ∧ s.m.mode ≠ .stop ∧ s.mbx.slot[(3 : SlotIx)].arg[0] &&& ~~~1#32 = 0 ∧ s.mbx.slot[(3 : SlotIx)].arg[1] &&& ~~~0xFFFF#32 = 0 ∧
  s.boot.job = none ∧ s.boot.pend = none ∧ s.recov.filling = none ∧ s.recov.stage = .opened ∧ s.recov.stageKind = 0 ∧
  s.boot.exec = some (slotHeader false)

theorem config_ready (st : List (Nat × Byte)) : ConfigReady (configStaged st) :=
  ⟨⟨rfl, (nofun : SlotState.free ≠ .running)⟩, (nofun : Mode.run ≠ .stop), (by decide : (0#32 : W32) &&& ~~~1#32 = 0), (by decide : (0#32 : W32) &&& ~~~0xFFFF#32 = 0), rfl,
    rfl, rfl,
    rfl, rfl, rfl⟩

theorem config_unmeasured (st : List (Nat × Byte)) : measuredMv (configStaged st) 1 = none ∧ measuredMv (configStaged st) 0 = none := ⟨rfl, rfl⟩

theorem sound_filling : Sound { inMode .run with recov := { (inMode .run).recov with filling := some 3 } } := fun p => by
  have h := State.reset_sound p
  cases p <;> exact h

theorem witness_StagingOpenedCommittedAborted :
    -- in use; free, with a length in range and one out of it
    ((staged .armed 0).m.mode ≠ .stop ∧ MbxTaken (staged .armed 0) 3 ∧ stageInUse (staged .armed 0).recov = true ∧
      (staged .armed 0).mbx.slot[(3 : SlotIx)].arg[0] = 0) ∧
    (let s := withArgs [(0, 2), (1, 16640)] (inMode .run);
      MbxTaken s 3 ∧ stageInUse s.recov = false ∧ s.recov.filling = none ∧ s.mbx.slot[(3 : SlotIx)].arg[0].toNat < 3 ∧
      stageLenOk (s.mbx.slot[(3 : SlotIx)].arg[0].setWidth 2) s.mbx.slot[(3 : SlotIx)].arg[1].toNat = true ∧ stageLenOk 2 16644 = false) ∧
    ({ inMode .run with recov := { (inMode .run).recov with filling := some 3 } } : State).execRuns = true ∧
    Sound { inMode .run with recov := { (inMode .run).recov with filling := some 3 } } ∧
    (MbxTaken (staged .opened 0x200) 3 ∧ (staged .opened 0x200).recov.stage = .opened ∧ (staged .opened 0x200).recov.filling = none ∧
      (staged .opened 0x200).recov.stageKind = 0 ∧ (staged .opened 0x200).mbx.slot[(3 : SlotIx)].arg[0] &&& ~~~0xFFFF#32 = 0) ∧
    -- a slot that may be committed
    ((stagedSlot true .opened).recov.stage = .opened ∧ (stagedSlot true .opened).recov.stageKind ≠ 0 ∧ (stagedSlot true .opened).boot.job = none ∧
      (∀ j ∈ (stagedSlot true .opened).recov.jobs, j.func ≠ 0x1C) ∧ (stagedSlot true .opened).recov.filling = none ∧
      commitCheck (stagedSlot true .opened) true = .ok ∧ (stagedSlot true .opened).boot.desc = some desc7) ∧
    -- a configuration that fails its header, and one that may be written
    (ConfigReady (configStaged []) ∧ headerOk (configStaged []).stageAt 0 = false) ∧
    ∃ st, ConfigReady (configStaged st) ∧ headerOk (configStaged st).stageAt 0 = true ∧
      bodyCheck (configStaged st).stageAt 0 (measuredMv (configStaged st) 1) (measuredMv (configStaged st) 0) = .valid ∧
      schemaOk (slotHeader false) (copySchema (configStaged st).stageAt 0) = true ∧ Sound (configStaged st) := by
  refine ⟨⟨by decide, ⟨rfl, by decide +kernel⟩, by decide, by decide +kernel⟩, ⟨⟨rfl, by decide +kernel⟩, by decide +kernel⟩, rfl, sound_filling,
    ⟨⟨rfl, by decide +kernel⟩, rfl, rfl, rfl, by decide +kernel⟩, by decide +kernel, ⟨config_ready [], by decide +kernel⟩,
    swriteList stagingEmpty [] 0 copyBytes, ?_⟩
  have h := config_unmeasured (swriteList stagingEmpty [] 0 copyBytes)
  rw [stageAt_configStaged, staged_medium, h.1, h.2]
  exact ⟨config_ready _, header_staged, body_staged.1, by decide +kernel, sound_configStaged _ (swf_swriteList rfl 0 copyBytes)⟩

/-- The executive runs in LOAD at step 5 with the strap given and all that step 6 needs. -/
def starting (boot : BitVec 2) (flash : List (Nat × Byte)) : State :=
  let s := linked (booted .load)
  { s with
    m := { s.m with step := 5 }
    straps := { s.straps with boot := boot }
    conv := { s.conv with refReady := true }
    flash := flash }

theorem flashAt_starting (boot : BitVec 2) (fl : List (Nat × Byte)) : (starting boot fl).flashAt = sread flashErased fl := rfl
theorem flash_medium : sread flashErased (swriteList flashErased slotCells 0x300000 copyBytes) = flashMedium :=
  copy_reads flashErased slotCells (by decide +kernel) 0x300000

theorem selected_starting (boot : BitVec 2) (fl : List (Nat × Byte)) (h : sread flashErased fl = flashMedium) :
    (selectConfig (starting boot fl) (slotHeader false)).active = some .a := by
  have hf : (starting boot fl).flashAt = flashMedium := h
  have hb : (starting boot fl).mirrorB = false := rfl
  have ha : (starting boot fl).copyOk .a = true := by
    unfold State.copyOk State.copyAt
    rw [hf]
    exact header_flash
  have hn : (starting boot fl).copyOk .b = false := by
    show headerOk (starting boot fl).flashAt 0x400000 = false
    rw [hf]
    decide +kernel
  have ho : (starting boot fl).copyOrder = [.a] := by
    unfold State.copyOrder State.copyB
    simp only [hb, ha, hn, Bool.false_and, Bool.false_eq_true, if_false]
  have hs : schemaOk (slotHeader false) (copySchema flashMedium (CopyId.base .a)) = true := by decide +kernel
  have hv : bodyCheck flashMedium (CopyId.base .a) none none = .valid := body_flash.1
  unfold selectConfig
  rw [ho]
  unfold tryCopies State.copyAt
  dsimp only
  rw [hf, hs, hv]
  rfl

/-- The hypotheses beside those about the flash. -/
def StartReady (s : State) : Prop :=
  s.boot.desc = some desc7 ∧ s.boot.exec = some (slotHeader false) ∧ s.execRuns = true ∧ s.m.mode = .load ∧ s.m.step = 5 ∧
  s.conv.refReady = true ∧ s.m.refOnTries ≤ 3 ∧ s.bw.allUp = true ∧ s.m.readopt ≠ .refused ∧ s.fd.slack = false ∧ s.recov.step4Next = false ∧
  s.triad.blocked = false ∧ s.fd.safeHeld = false

theorem start_ready (boot : BitVec 2) (fl : List (Nat × Byte)) : StartReady (starting boot fl) ∧ (starting boot fl).straps.boot = boot :=
  ⟨⟨rfl, rfl, rfl, rfl, rfl, rfl, Nat.zero_le _, rfl, (nofun : Readopt.notInHold ≠ .refused), rfl, rfl, rfl, rfl⟩, rfl⟩

theorem copyAt_starting (boot : BitVec 2) (fl : List (Nat × Byte)) : (starting boot fl).copyAt .a = sread flashErased fl := rfl

theorem witness_StartEndsAsTheStrapsSay :
    (StartReady (starting 0 []) ∧ chooseSlot (starting 0 []).flashAt true desc7.ucodeSlot desc7.fallbackUcode = none) ∧
    ∃ fl, ∀ boot : BitVec 2,
      (StartReady (starting boot fl) ∧ (starting boot fl).straps.boot = boot) ∧
      chooseSlot (starting boot fl).flashAt true desc7.ucodeSlot desc7.fallbackUcode = some (false, false, slotHeader true) ∧
      ucodeOk (slotHeader false) (slotHeader true).version = true ∧ (selectConfig (starting boot fl) (slotHeader false)).active = some .a ∧
      powerOk (decGeneration ((starting boot fl).copyAt .a) (CopyId.base .a)) none none = true := by
  refine ⟨⟨(start_ready 0 []).1, by decide +kernel⟩, swriteList flashErased slotCells 0x300000 copyBytes, fun boot => ⟨start_ready _ _, ?_,
    by decide +kernel, selected_starting boot _ flash_medium, ?_⟩⟩
  · rw [flashAt_starting, flash_medium]
    decide +kernel
  · rw [copyAt_starting, flash_medium]
    exact body_flash.2 _ _

end Sys2Proof.Tests
end

section
/-!
Narrowing and saturation (00 R11, R12): what `narrow`, `satSigned` and the flag answer, case by case.
-/
namespace Sys2Proof.Machine

/-- R11 for `s ≥ 1`: the remainder of the arithmetic shift, held against one half, decides between the quotient and its successor. -/
theorem narrow_of_pos (v : Int) {s : Nat} (hs : 1 ≤ s) :
    narrow v s = if 2 ^ (s - 1) < v % 2 ^ s ∨ v % 2 ^ s = 2 ^ (s - 1) ∧ v / 2 ^ s % 2 = 1 then v / 2 ^ s + 1 else v / 2 ^ s := by
  have hr : v - v / 2 ^ s * 2 ^ s = v % 2 ^ s := by rw [Int.emod_def, Int.mul_comm]
  rw [← hr]
  exact if_neg (Nat.one_le_iff_ne_zero.mp hs)

/-- R12, above the width. -/
theorem satSigned_of_above {w : Nat} {v : Int} (h : 2 ^ (w - 1) - 1 < v) : satSigned w v = 2 ^ (w - 1) - 1 := if_pos h

/-- R12, below the width: the lower limit never passes the upper one, so the value is not above it too. -/
theorem satSigned_of_below {w : Nat} {v : Int} (h : v < -(2 ^ (w - 1))) : satSigned w v = -(2 ^ (w - 1)) := by
  have hpos : (0 : Int) < 2 ^ (w - 1) := by positivity
  rw [satSigned, if_neg (by omega), if_pos h]

/-- R12, within the width. -/
theorem satSigned_of_within {w : Nat} {v : Int} (hlo : -(2 ^ (w - 1)) ≤ v) (hhi : v ≤ 2 ^ (w - 1) - 1) : satSigned w v = v := by
  rw [satSigned, if_neg (by omega), if_neg (by omega)]

theorem satSignedFlag_iff_ne {w : Nat} {v : Int} : satSignedFlag w v = true ↔ satSigned w v ≠ v := decide_eq_true_iff

theorem satSignedFlag_eq_false_iff {w : Nat} {v : Int} : satSignedFlag w v = false ↔ satSigned w v = v := by
  rw [← Bool.not_eq_true, satSignedFlag_iff_ne, not_not]

/-- R12: the flag is set exactly for a value beyond a limit, so one that stands at a limit does not set it. -/
theorem satSignedFlag_iff {w : Nat} {v : Int} : satSignedFlag w v = true ↔ v < -(2 ^ (w - 1)) ∨ 2 ^ (w - 1) - 1 < v := by
  rw [satSignedFlag_iff_ne]
  constructor
  · intro hne
    by_contra hin
    exact hne (satSigned_of_within (by omega) (by omega))
  · rintro (hlo | hhi)
    · rw [satSigned_of_below hlo]
      exact hlo.ne'
    · rw [satSigned_of_above hhi]
      exact hhi.ne

/-- Settles O5: the rounding rule of `narrow_of_pos`, and the three ranges of R12 at the rounded value. -/
theorem narrowingAndSaturation : Obligations.NarrowingAndSaturation := by
  intro v n w hn _
  exact ⟨narrow_of_pos v hn, satSignedFlag_iff, satSignedFlag_eq_false_iff.mp, satSigned_of_below, satSigned_of_above⟩

end Sys2Proof.Machine
end

section
/-!
A word and its four bytes (00 R4): `natLE` and `bytesLE` undo one another, and a read of one byte finds the byte that was put together.
-/
namespace Sys2Proof.Machine

/-- The digits of a little-endian number to the base 256 are its bytes. -/
theorem natLE_digit (bs : List Byte) (j : Nat) : natLE bs / 256 ^ j % 256 = (bs.getD j 0).toNat := by
  induction bs generalizing j with
  | nil => simp [natLE]
  | cons b bs ih =>
    have hb : b.toNat < 256 := b.isLt
    cases j with
    | zero =>
      rw [List.getD_cons_zero, pow_zero, Nat.div_one, natLE]
      omega
    | succ j =>
      have hq : (b.toNat + 256 * natLE bs) / 256 = natLE bs := by omega
      rw [List.getD_cons_succ, pow_succ', ← Nat.div_div_eq_div_mul, natLE, hq, ih j]

/-- Byte `j` of the word made of the bytes `bs`. -/
theorem extractByte_ofNat_natLE (bs : List Byte) {j : Nat} (hj : j < 4) :
    (BitVec.ofNat 32 (natLE bs)).extractLsb' (8 * j) 8 = bs.getD j 0 := by
  refine BitVec.eq_of_toNat_eq ?_
  rw [BitVec.extractLsb'_toNat, BitVec.toNat_ofNat, Nat.shiftRight_eq_div_pow, ← natLE_digit bs j]
  interval_cases j <;> omega

/-- Four bytes made a word are that word's bytes. -/
theorem bytesLE_ofNat_natLE {bs : List Byte} (h : bs.length = 4) : bytesLE (BitVec.ofNat 32 (natLE bs)) = bs := by
  have hbytes : bytesLE (BitVec.ofNat 32 (natLE bs)) = [bs.getD 0 0, bs.getD 1 0, bs.getD 2 0, bs.getD 3 0] := by
    simp only [← extractByte_ofNat_natLE bs (show 0 < 4 by decide), ← extractByte_ofNat_natLE bs (show 1 < 4 by decide),
      ← extractByte_ofNat_natLE bs (show 2 < 4 by decide), ← extractByte_ofNat_natLE bs (show 3 < 4 by decide)]
    rfl
  match bs, h with
  | [_, _, _, _], _ => exact hbytes

/-- A byte of a little-endian word of a medium is the medium's byte at its address. -/
theorem extractByte_rd32 (m : Medium) (a : Nat) {j : Nat} (hj : j < 4) : (rd32 m a).extractLsb' (8 * j) 8 = m (a + j) := by
  rw [rd32, rdN, extractByte_ofNat_natLE _ hj, List.getD_eq_getElem _ _ (by simpa using hj), List.getElem_map, List.getElem_range]

/-- The first four bytes make the first word, and the words of the rest follow it. -/
theorem wordsFrom_append (a : Nat) {w : List Byte} (bs : List Byte) (hw : w.length = 4) :
    wordsFrom a (w ++ bs) = (a, BitVec.ofNat 32 (natLE w)) :: wordsFrom (a + 4) bs := by
  have hn : (w ++ bs).length / 4 = bs.length / 4 + 1 := by
    rw [List.length_append]
    omega
  have hfirst : (w ++ bs).take 4 = w := hw ▸ List.take_left
  have hrest : ∀ i, (w ++ bs).drop (4 * (i + 1)) = bs.drop (4 * i) := fun i => by
    rw [Nat.mul_succ, Nat.add_comm, ← hw, List.drop_append]
    simp
  simp only [wordsFrom, hn, List.range_succ_eq_map, List.map_cons, List.map_map]
  refine congrArg₂ _ (by simp [hfirst]) (List.map_congr_left fun i _ => ?_)
  simp only [Function.comp_apply, Nat.succ_eq_add_one, hrest]
  congr 1
  omega

/-- The words of whole-word data from `a` up lie within the data's span. -/
theorem wordsFrom_within {a : Nat} {bs : List Byte} : ∀ w ∈ wordsFrom a bs, a ≤ w.1 ∧ w.1 < a + bs.length := by
  intro w hw
  obtain ⟨i, hi, rfl⟩ := List.mem_map.mp hw
  have := List.mem_range.mp hi
  constructor <;> dsimp only <;> omega

end Sys2Proof.Machine
end

section
/-!
The staging window (15 R419): its words go through `hostWords` to staging alone, byte list by byte list, and are read back from there.
-/
namespace Sys2Proof.Machine

/-! ## A list of bytes staged -/

/-- The bytes `bs` written to staging from offset `o` up, as R419 takes them: while OPEN, those below LENGTH. -/
def stageBytes (s : State) (o : Nat) (bs : List Byte) : State :=
  if s.recov.stage = .opened then
    { s with recov := { s.recov with staging := swriteList stagingEmpty s.recov.staging o (bs.take (s.recov.stageLen.toNat - o)) } }
  else s

theorem writeStaging_eq_stageBytes (s : State) (o : Nat) (v : W32) : writeStaging s o v = stageBytes s o (bytesLE v) := rfl

theorem stageBytes_of_opened {s : State} (h : s.recov.stage = .opened) (o : Nat) (bs : List Byte) :
    stageBytes s o bs = { s with recov := { s.recov with
      staging := swriteList stagingEmpty s.recov.staging o (bs.take (s.recov.stageLen.toNat - o)) } } := if_pos h

theorem stageBytes_of_not_opened {s : State} (h : s.recov.stage ≠ .opened) (o : Nat) (bs : List Byte) : stageBytes s o bs = s := if_neg h

theorem stageBytes_nil (s : State) (o : Nat) : stageBytes s o [] = s := by
  unfold stageBytes
  rw [List.take_nil]
  split <;> rfl

theorem swriteList_append {α : Type} [DecidableEq α] (d : α) (m : List (Nat × α)) (a : Nat) (xs ys : List α) :
    swriteList d m a (xs ++ ys) = swriteList d (swriteList d m a xs) (a + xs.length) ys := by
  induction xs generalizing m a with
  | nil => rfl
  | cons x xs ih =>
    rw [List.cons_append, swriteList, swriteList, ih, List.length_cons, Nat.add_assoc, Nat.add_comm 1]

/-- Bytes staged in two goes are staged in one. -/
theorem stageBytes_append (s : State) (o : Nat) (xs ys : List Byte) :
    stageBytes s o (xs ++ ys) = stageBytes (stageBytes s o xs) (o + xs.length) ys := by
  by_cases h : s.recov.stage = .opened
  case neg => simp only [stageBytes_of_not_opened h]
  case pos =>
    -- Either all of `xs` lies below LENGTH, or none of `ys` does.
    rw [stageBytes_of_opened h, stageBytes_of_opened h, stageBytes_of_opened (by exact h), List.take_append, swriteList_append, ← Nat.sub_sub]
    by_cases hx : xs.length ≤ s.recov.stageLen.toNat - o
    · rw [List.take_of_length_le hx]
    · rw [Nat.sub_eq_zero_of_le (Nat.le_of_not_le hx), List.take_zero]
      rfl

theorem stageBytes_same (s : State) (o : Nat) (bs : List Byte) : SameOutside [.recov] s (stageBytes s o bs) := by
  unfold stageBytes
  split
  · refine ⟨fun p hp => ?_⟩
    cases p
    case recov => exact absurd List.mem_cons_self hp
    all_goals rfl
  · exact SameOutside.refl s

/-- What staging reads as once bytes are staged. -/
theorem stageAt_stageBytes {s : State} (hopen : s.recov.stage = .opened) (hs : Sound s) (o : Nat) (bs : List Byte) (k : Nat) :
    (stageBytes s o bs).stageAt k =
      if o ≤ k ∧ k < o + bs.length ∧ k < s.recov.stageLen.toNat then bs.getD (k - o) 0 else s.stageAt k := by
  obtain ⟨hwf, -⟩ := hs .recov
  rw [stageBytes_of_opened hopen]
  show sread stagingEmpty (swriteList _ _ _ _) k = _
  rw [sread_swriteList hwf, List.length_take]
  by_cases hk : o ≤ k ∧ k < o + bs.length ∧ k < s.recov.stageLen.toNat
  · obtain ⟨hlo, hhi, hlen⟩ := hk
    rw [if_pos (by omega), if_pos ⟨hlo, hhi, hlen⟩, List.getD_eq_getElem _ _ (by rw [List.length_take]; omega), List.getElem_take,
      List.getD_eq_getElem _ _ (by omega)]
  · rw [if_neg (by omega), if_neg hk]
    rfl

/-! ## The window's words -/

/-- A host address of block STG (18 Table 18-9). -/
def InStaging (a : Nat) : Prop := 0x500000 ≤ a ∧ a < 0x600000

theorem InStaging.cmdSlot {a : Nat} (h : InStaging a) : cmdSlot a = none := by
  obtain ⟨hlo, -⟩ := h
  rw [Machine.cmdSlot, if_neg]
  simp only [Bool.and_eq_true, decide_eq_true_eq]
  omega

theorem InStaging.not_rw1c {a : Nat} (h : InStaging a) : isRw1c a = false := by
  obtain ⟨hlo, -⟩ := h
  have above : ∀ n ≤ 0x500000, decide (a < n) = false := fun n hn => decide_eq_false (by omega)
  have last : decide (a = 0x484200) = false := decide_eq_false (by omega)
  simp (disch := decide) only [isRw1c, above, last, Bool.and_false, Bool.false_and, Bool.or_false]

theorem InStaging.writeWord {a : Nat} (h : InStaging a) (s : State) (v : W32) :
    writeWord s a v = stageBytes s (a - 0x500000) (bytesLE v) := by
  obtain ⟨hlo, hhi⟩ := h
  have above : ∀ n ≤ 0x500000, ¬ a < n := fun n hn => by omega
  simp (disch := decide) only [Machine.writeWord, above, hhi, if_false, if_true, writeStaging_eq_stageBytes]

theorem InStaging.hostWord {a : Nat} (h : InStaging a) (s : State) :
    hostWord s a = if s.recov.stage = .empty ∨ s.recov.stageLen.toNat ≤ a - 0x500000 then 0 else rd32 s.stageAt (a - 0x500000) := by
  obtain ⟨hlo, hhi⟩ := h
  have above : ∀ n ≤ 0x500000, ¬ a < n := fun n hn => by omega
  simp (disch := decide) only [Machine.hostWord, above, hhi, if_false, if_true, Bool.or_eq_true, decide_eq_true_eq]

theorem runCmds_nil (s : State) : runCmds s [] = s := rfl

/-- A frame within the staging window routes nothing to the image, starts no command and clears no bit: its words are staged in their order. -/
theorem hostWords_of_staging (s : State) {ws : List (Nat × W32)} (h : ∀ w ∈ ws, InStaging w.1) :
    hostWords s ws = ws.foldl (fun a w => stageBytes a (w.1 - 0x500000) (bytesLE w.2)) s := by
  have himage : (ws.filterMap fun w => if w.1 < 0x400000 then some (BitVec.ofNat 20 (w.1 / 4), (field w.2 0 16 : W16)) else none) = [] :=
    List.filterMap_eq_nil_iff.mpr fun w hw => if_neg (by have := (h w hw).1; omega)
  have hcmds : (ws.filterMap fun w => (cmdSlot w.1).map fun i => (i, w.2)) = [] :=
    List.filterMap_eq_nil_iff.mpr fun w hw => by rw [(h w hw).cmdSlot]; rfl
  have hrw1c : (ws.filter fun w => isRw1c w.1) = [] := List.filter_eq_nil_iff.mpr fun w hw => by simp [(h w hw).not_rw1c]
  simp only [hostWords, himage, hcmds, hrw1c, runCmds_nil, List.isEmpty_nil, if_true, List.foldl_nil]
  refine List.foldl_ext _ _ _ fun a w hw => ?_
  rw [(h w hw).cmdSlot, (h w hw).not_rw1c, (h w hw).writeWord]
  rfl

/-- Whole words staged one after another stage their bytes. -/
theorem foldl_wordsFrom (s : State) (o : Nat) {n : Nat} {bs : List Byte} (hn : bs.length = 4 * n) :
    (wordsFrom (0x500000 + o) bs).foldl (fun a w => stageBytes a (w.1 - 0x500000) (bytesLE w.2)) s = stageBytes s o bs := by
  induction n generalizing s o bs with
  | zero =>
    rw [List.eq_nil_of_length_eq_zero hn, stageBytes_nil]
    rfl
  | succ n ih =>
    have hw : (bs.take 4).length = 4 := by rw [List.length_take]; omega
    have hr : (bs.drop 4).length = 4 * n := by rw [List.length_drop]; omega
    rw [← List.take_append_drop 4 bs, wordsFrom_append _ _ hw, List.foldl_cons, bytesLE_ofNat_natLE hw, Nat.add_assoc, ih _ _ hr,
      Nat.add_sub_cancel_left, stageBytes_append, hw]

/-- A served write of whole words to the window stages its bytes. -/
theorem exec_stagingWrite {s : State} {offset : BitVec 20} {data : List Byte} (hrun : s.execRuns = true) (hstop : s.m.mode ≠ .stop)
    (hoff : offset.toNat % 4 = 0) (hlen : data.length % 4 = 0) (hend : offset.toNat + data.length ≤ 0x100000) :
    exec (.stagingWrite offset data) s = .next (stageBytes s offset.toNat data) := by
  have hin : ∀ w ∈ wordsFrom (0x500000 + offset.toNat) data, InStaging w.1 := fun w hw => by
    obtain ⟨hlo, hhi⟩ := wordsFrom_within w hw
    exact ⟨by omega, by omega⟩
  show execStagingWrite offset data s = _
  simp only [execStagingWrite, hoff, hlen, hostWrite, whenServed, hrun, hstop]
  rw [← foldl_wordsFrom s offset.toNat (n := data.length / 4) (by omega), ← hostWords_of_staging s hin]
  simp

/-- A byte of the window, LENGTH being whole words. -/
theorem hostByte_staging (s : State) {k : Nat} (hlen : s.recov.stageLen.toNat % 4 = 0) (hk : k < 0x100000) :
    hostByte s (0x500000 + k) = if s.recov.stage = .empty ∨ s.recov.stageLen.toNat ≤ k then 0 else s.stageAt k := by
  have hmod : (0x500000 + k) % 4 = k % 4 := by omega
  have hword : 0x500000 + k - k % 4 - 0x500000 = k - k % 4 := by omega
  have hle : s.recov.stageLen.toNat ≤ k - k % 4 ↔ s.recov.stageLen.toNat ≤ k := by omega
  have hin : InStaging (0x500000 + k - k % 4) := ⟨by omega, by omega⟩
  rw [hostByte, hmod, hin.hostWord, hword]
  simp only [hle]
  split
  · simp
  · rw [extractByte_rd32 _ _ (Nat.mod_lt k (by decide)), Nat.sub_add_cancel (Nat.mod_le k 4)]

/-- Settles O7: a served write is `stageBytes`, whose reading, frame and answer outside OPEN are known; a read is a byte of the window. -/
theorem stagingWindow : Obligations.StagingWindow := by
  refine ⟨fun s offset data hrun hstop hoff hlen hend hs => ?_, fun s k => hostByte_staging s⟩
  exact ⟨_, exec_stagingWrite hrun hstop hoff hlen hend, fun hopen k _ => stageAt_stageBytes hopen hs _ _ k,
    fun h => stageBytes_of_not_opened h _ _, stageBytes_same ..⟩

end Sys2Proof.Machine
end

section
/-!
The acknowledgement of queue entries (18 R485): EVQ.ACK's word reaches the event router alone, which takes it or counts it as bad.
-/
namespace Sys2Proof.Machine

/-- A frame of one word that is no image word, starts no command and clears no bit is that word's own write. -/
theorem hostWords_singleton (s : State) {a : Nat} (v : W32) (himage : ¬ a < 0x400000) (hcmd : cmdSlot a = none) (hrw1c : isRw1c a = false) :
    hostWords s [(a, v)] = writeWord s a v := by
  simp [hostWords, himage, hcmd, hrw1c, runCmds_nil]

/-- The word of EVQ.ACK changes the event router alone. -/
theorem writeWord_evqAck (s : State) (v : W32) : writeWord s 0x431008 v = { s with ev := evqAckWrite s.ev v } := rfl

/-- A served write of EVQ.ACK acts at once. -/
theorem exec_evqAck {s : State} (hrun : s.execRuns = true) (hstop : s.m.mode ≠ .stop) (v : W32) :
    exec (.evqAck v) s = .next { s with ev := evqAckWrite s.ev v } := by
  have hwords : hostWords s [(0x431008, v)] = { s with ev := evqAckWrite s.ev v } :=
    (hostWords_singleton s v (by decide) (by decide) (by decide)).trans (writeWord_evqAck s v)
  show execEvqAck v s = _
  simp [execEvqAck, hostWrite, whenServed, hrun, hstop, hwords]

/-- R485: `v` names the head of the queue of `e` and a count from one to the queue's own. -/
def AckNames (e : EventRouter) (v : W32) : Prop :=
  v.setWidth 8 = e.head ∧ 1 ≤ (v.extractLsb' 8 9).toNat ∧ (v.extractLsb' 8 9).toNat ≤ e.count

/-- The test that `evqAckWrite` makes of the word's two fields. -/
theorem ackTest_iff (e : EventRouter) (v : W32) :
    ((field v 0 8 : BitVec 8) = e.head && 1 ≤ (field v 8 9 : BitVec 9).toNat && (field v 8 9 : BitVec 9).toNat ≤ e.count) = true ↔
      AckNames e v := by
  have hhead : (field v 0 8 : BitVec 8) = v.setWidth 8 := (BitVec.setWidth_eq_extractLsb' (by decide)).symm
  simp only [Bool.and_eq_true, decide_eq_true_eq, and_assoc, hhead]
  rfl

theorem evqAckWrite_of_names {e : EventRouter} {v : W32} (h : AckNames e v) :
    evqAckWrite e v = { e with
      head := e.head + BitVec.ofNat 8 (v.extractLsb' 8 9).toNat, count := e.count - (v.extractLsb' 8 9).toNat } :=
  if_pos ((ackTest_iff e v).mpr h)

theorem evqAckWrite_of_not_names {e : EventRouter} {v : W32} (h : ¬ AckNames e v) :
    evqAckWrite e v = { e with ackErr := true, ackBad := satInc e.ackBad } :=
  if_neg (mt (ackTest_iff e v).mp h)

/-- Settles O6: a served write is `evqAckWrite` of the event router, which frees the entries named or notes the error. -/
theorem queueAcknowledged : Obligations.QueueAcknowledged := by
  intro s v hrun hstop
  rw [exec_evqAck hrun hstop]
  constructor
  · intro h
    rw [evqAckWrite_of_names h]
  · intro h
    rw [evqAckWrite_of_not_names h]

end Sys2Proof.Machine
end

section
/-!
What each command can change: every meaning completes, changes no part of the state beyond those its lemma names, and keeps a sound state sound.
-/
namespace Sys2Proof.Machine

/-- Command meaning `o` completes on `s`: only the parts `ps` may have changed then, and a sound state stays sound. -/
def Ends (ps : List Part) (s : State) (o : Host.Outcome State Fault Refusal) : Prop := ∃ t, o = .next t ∧ Moves ps s t

theorem Ends.widen {qs ps : List Part} {s : State} {o : Host.Outcome State Fault Refusal} (h : Ends ps s o) (hc : covers qs ps = true) :
    Ends qs s o :=
  h.imp fun _ k => ⟨k.1, k.2.widen hc⟩

/-- What a sound state states of its lanes. -/
def TriadOk (t : TriadState) : Prop := (srise t.sram = true ∧ srise t.image = true) ∧ t.replay.length ≤ 64

theorem startCheckRun_ok {t : TriadState} (h : TriadOk t) (split : Bool) (k : StartCheck) : TriadOk (startCheckRun t split k) := by
  unfold startCheckRun
  cases checkFailed k split <;> cases split <;> exact h

theorem fences_tail {l fs : List PendingFence} {f : PendingFence} (h : l.length ≤ 8) (e : l = f :: fs) : fs.length ≤ 8 := by
  subst e
  exact (Nat.le_succ _).trans h

/-- What remains of the queue behind the next entry. -/
theorem nextEntry_rest {m : MemPort} {e : MemEntry} {rest : List MemEntry} (h : nextEntry m = some (e, rest)) (hq : m.queue.length ≤ 16) :
    rest.length ≤ 16 := by
  unfold nextEntry at h
  split at h
  · cases h
    exact hq
  next q =>
    cases h
    rw [q] at hq
    exact (Nat.le_succ _).trans hq
  · cases h

/-- An entry queued where the queue has room, its data with it where it is a write. -/
theorem entry_queued {m : MemPort} (h : swf 0 m.buf = true ∧ m.queue.length ≤ 16) (hq : ¬ 16 ≤ m.queue.length) (e : MemEntry) (bs :
    List Byte) :
    swf 0 (if e.write then swriteList 0 m.buf e.bufOfs bs else m.buf) = true ∧ (m.queue ++ [e]).length ≤ 16 := by
  refine ⟨?_, by rw [List.length_append]; exact Nat.lt_of_not_le hq⟩
  split
  · exact swf_swriteList h.1 ..
  · exact h.1

theorem execPpsEdge_ends (s : State) : Ends [.ev, .port, .wheel, .time] s (execPpsEdge s) := by
  unfold execPpsEdge
  refine ⟨_, rfl, ?_⟩
  refine Moves.ite (fun _ => ?_) fun _ => ?_
  · exact Moves.refl _
  · extract_lets +onlyGivenNames x1
    extract_lets +onlyGivenNames _ _ x2
    have h2 : Moves [.ev, .port, .wheel, .time] s x2 := by
      unfold x2
      refine Moves.ite (fun _ => ?_) fun _ => ?_
      · refine Moves.upd rfl (fun p => by cases p; (case time => exact Or.inl ⟨rfl, fun _ _ => trivial⟩); all_goals exact Or.inr rfl) ?_
        exact (takeSec_moves ..).widen rfl
      · exact Moves.refl _
    clear_value x2
    exact Moves.foldl (fun _ _ => Moves.ite (fun _ => Moves.ite (fun _ => (captureEvent_moves ..).widen rfl) fun _ =>
      (rejectEvent_moves ..).widen rfl) fun _ => Moves.refl _) h2

theorem execMainsEdge_ends (s : State) : Ends [.wheel] s (execMainsEdge s) :=
  ⟨_, rfl, Moves.foldl (fun _ _ => Moves.ite (fun _ => (mainsAt_moves ..).widen rfl) fun _ => Moves.refl _) (Moves.refl _)⟩

theorem execTideInEdge_ends (s : State) : Ends [.wheel] s (execTideInEdge s) :=
  ⟨_, rfl, Moves.foldl (fun _ _ => Moves.ite (fun _ => Moves.ite (fun _ => (captureEvent_moves ..).widen rfl) fun _ =>
    (rejectEvent_moves ..).widen rfl) fun _ => Moves.refl _) (Moves.refl _)⟩

theorem execReferenceEventProcess_ends (w : WheelIx) (s : State) : Ends [.ch, .ev, .img, .port, .wheel] s (execReferenceEventProcess w s)
    := by
  unfold execReferenceEventProcess
  refine ⟨_, rfl, ?_⟩
  refine Moves.ite (fun _ => ?_) fun _ => ?_
  · exact Moves.refl _
  · split
    · exact Moves.refl _
    · exact Moves.step (processEvent_moves ..) rfl ((State.modWheel_moves ..).widen rfl)

theorem execIncApply_ends (w : WheelIx) (s : State) : Ends [.wheel] s (execIncApply w s) := by
  unfold execIncApply
  refine ⟨_, rfl, ?_⟩
  split
  · exact Moves.ite (fun _ => (applyInc_moves ..).widen rfl) fun _ => Moves.refl _
  · exact Moves.refl _

theorem execAlignCrossing_ends (p : PathIx) (s : State) : Ends [.conv] s (execAlignCrossing p s) :=
  ⟨_, rfl, (alignCrossing_moves ..).widen rfl⟩

theorem execWheelStep_ends (w : WheelIx) (s : State) : Ends [.ev, .port, .conv, .wheel, .pins] s (execWheelStep w s) := by
  unfold execWheelStep
  refine ⟨_, rfl, ?_⟩
  split
  · exact Moves.ite (fun _ => (stepWheel_moves ..).widen rfl) fun _ => Moves.refl _
  · exact Moves.refl _

theorem execReferenceLost_ends (w : WheelIx) (s : State) : Ends [.ch, .ev, .img, .port, .wheel] s (execReferenceLost w s) := by
  unfold execReferenceLost
  refine ⟨_, rfl, ?_⟩
  extract_lets +onlyGivenNames x1
  extract_lets +onlyGivenNames x2
  exact Moves.ite (fun _ => (wheelLost_moves ..).widen rfl) fun _ => Moves.refl _

theorem execCharacterEdge_ends (n : Chan) (s : State) : Ends [.free, .fd] s (execCharacterEdge n s) :=
  ⟨_, rfl, (charEdge_moves ..).widen rfl⟩

theorem execLibraryChangeover_ends (n : Chan) (s : State) : Ends [.free, .fd] s (execLibraryChangeover n s) :=
  ⟨_, rfl, (changeover_moves ..).widen rfl⟩

theorem execTideOutPulse_ends (s : State) : Ends [.pins] s (execTideOutPulse s) :=
  ⟨_, rfl, (tidePulse_moves ..).widen rfl⟩

theorem execTideOutEnd_ends (s : State) : Ends [.pins] s (execTideOutEnd s) :=
  ⟨_, rfl, (tideFall_moves ..).widen rfl⟩

theorem execPhaseSend_ends (s : State) : Ends [.bw] s (execPhaseSend s) := by
  unfold execPhaseSend
  refine ⟨_, rfl, ?_⟩
  extract_lets +onlyGivenNames x1
  exact Moves.ite (fun _ => Moves.refl _) fun _ => (bwSend_moves ..).widen rfl

theorem execPhaseFrame_ends (h : BwHeader) (s : State) : Ends [.free, .recov, .bw, .fd, .ch, .mbx, .hart, .enrol] s (execPhaseFrame h s) :=
    by
  unfold execPhaseFrame
  refine ⟨_, rfl, ?_⟩
  refine fdTakeRetx_moves (ps := [.free, .recov, .bw, .fd, .ch, .mbx, .hart, .enrol]) (hc := rfl) (hf3 := fun y1_0 y1_1 => ?_) ..
  · split
    · exact Moves.ite (fun _ => Moves.refl _) fun _ => (takePhase_moves ..).widen rfl
    · exact Moves.refl _

theorem execIdleFrame_ends (lane : BwLane) (h : BwHeader) (s : State) : Ends
    [.free, .recov, .bw, .fd, .ch, .ev, .mbx, .img, .port, .conv, .hart, .enrol] s (execIdleFrame lane h s) := by
  unfold execIdleFrame
  refine ⟨_, rfl, ?_⟩
  split
  · refine bwTakePlain_moves (ps := [.free, .recov, .bw, .fd, .ch, .ev, .mbx, .img, .port, .conv, .hart, .enrol]) (hc := rfl)
      (hf4 := fun y1_0 => ?_) ..
    · unfold id
      exact Moves.refl _
  · refine bwTakePlain_moves (ps := [.free, .recov, .bw, .fd, .ch, .ev, .mbx, .img, .port, .conv, .hart, .enrol]) (hc := rfl)
      (hf4 := fun y2_0 => ?_) ..
    · unfold id
      exact Moves.refl _
  · exact (fdTakeIdle_moves ..).widen rfl

theorem execStatusFrame_ends (h : BwHeader) (raw : W16) (s : State) : Ends
    (partsBut [.pending, .tick, .straps, .clk, .held, .mirror, .otp, .time, .host, .mem, .chk]) s (execStatusFrame h raw s) := by
  unfold execStatusFrame
  refine ⟨_, rfl, ?_⟩
  refine Moves.step (bwTakeRetx_moves (ps := (partsBut [.pending, .tick, .straps, .clk, .held, .mirror, .otp, .time, .host, .mem, .chk]))
    (hc := rfl) (hf3 := fun y1_0 y1_1 => ?_) ..) (covers_refl _) ?_
  · split
    · exact (takeStatus_moves ..).widen rfl
    · exact Moves.refl _
  · exact (formStatus_moves ..).widen rfl

theorem execEventFrame_ends (h : BwHeader) (s : State) : Ends (partsBut
    [.pending, .tick, .straps, .clk, .held, .mirror, .otp, .time, .host, .mem, .chk]) s (execEventFrame h s) := by
  unfold execEventFrame
  refine ⟨_, rfl, ?_⟩
  refine Moves.step (bwTakeRetx_moves (ps := (partsBut [.pending, .tick, .straps, .clk, .held, .mirror, .otp, .time, .host, .mem, .chk]))
    (hc := rfl) (hf3 := fun y1_0 y1_1 => ?_) ..) (covers_refl _) ?_
  · split
    · refine Moves.step (deliver_moves ..) rfl ?_
      refine Moves.upd rfl (fun p => by cases p; (case fd => exact Or.inl ⟨rfl, fun _ _ => trivial⟩); all_goals exact Or.inr rfl) ?_
      exact Moves.refl _
    · exact Moves.refl _
  · exact (formEvent_moves ..).widen rfl

theorem execCommandFrame_ends (h : BwHeader) (s : State) : Ends [.free, .recov, .bw, .fd, .ch, .mbx, .hart, .enrol] s
    (execCommandFrame h s) := by
  unfold execCommandFrame
  refine ⟨_, rfl, ?_⟩
  refine fdTakeRetx_moves (ps := [.free, .recov, .bw, .fd, .ch, .mbx, .hart, .enrol]) (hc := rfl) (hf3 := fun y1_0 y1_1 => ?_) ..
  · split
    · exact (takeCommand_moves ..).widen rfl
    · exact Moves.refl _

theorem execCommandTargetTick_ends (s : State) : Ends [.free, .fd] s (execCommandTargetTick s) := by
  unfold execCommandTargetTick
  refine ⟨_, rfl, ?_⟩
  split
  · exact Moves.refl _
  · extract_lets +onlyGivenNames x1
    refine Moves.step (actDue_moves ..) rfl ?_
    refine Moves.upd rfl (fun p => by cases p; (case fd => exact Or.inl ⟨rfl, fun _ _ => trivial⟩); all_goals exact Or.inr rfl) ?_
    exact Moves.refl _

theorem execLoadFrame_ends (h : BwHeader) (s : State) : Ends [.free, .recov, .bw, .fd, .ch, .ev, .mbx, .img, .port, .conv, .loop, .trim,
    .hart, .enrol] s (execLoadFrame h s) := by
  unfold execLoadFrame
  refine ⟨_, rfl, ?_⟩
  refine fdTakeRetx_moves (ps := [.free, .recov, .bw, .fd, .ch, .ev, .mbx, .img, .port, .conv, .loop, .trim, .hart, .enrol]) (hc := rfl)
    (hf3 := fun y1_0 y1_1 => ?_) ..
  · split
    · exact Moves.step (fieldGone_moves ..) rfl ((fieldReset_moves ..).widen rfl)
    · exact Moves.refl _
    · exact Moves.refl _
    · exact Moves.refl _
    · exact Moves.ite (fun _ => Moves.refl _) fun _ => (takeLoad_moves ..).widen rfl

theorem execSafeFrame_ends (h : BwHeader) (s : State) : Ends [.free, .recov, .bw, .fd, .ch, .mbx, .hart, .enrol] s (execSafeFrame h s) := by
  unfold execSafeFrame
  refine ⟨_, rfl, ?_⟩
  refine fdTakeRetx_moves (ps := [.free, .recov, .bw, .fd, .ch, .mbx, .hart, .enrol]) (hc := rfl) (hf3 := fun y1_0 y1_1 => ?_) ..
  · split
    · extract_lets +onlyGivenNames _ x2
      have h2 : Moves [.free, .recov, .bw, .fd, .ch, .mbx, .hart, .enrol] y1_1 x2 := by
        unfold x2
        refine Moves.upd rfl (fun p => by cases p; (case fd => exact Or.inl ⟨rfl, fun _ _ => trivial⟩); all_goals exact Or.inr rfl) ?_
        exact Moves.refl _
      clear_value x2
      exact Moves.ite (fun _ => Moves.step (applySafeAll_moves ..) rfl h2) fun _ => h2
    · exact Moves.refl _

theorem execBwRetransmit_ends (fieldDie : Bool) (s : State) : Ends [.bw, .fd] s (execBwRetransmit fieldDie s) := by
  unfold execBwRetransmit
  refine ⟨_, rfl, ?_⟩
  refine Moves.ite (fun _ => ?_) fun _ => ?_
  · refine Moves.ite (fun _ => ?_) fun _ => ?_
    · exact Moves.refl _
    · refine Moves.upd rfl (fun p => by cases p; (case fd => exact Or.inl ⟨rfl, fun _ _ => trivial⟩); all_goals exact Or.inr rfl) ?_
      exact Moves.refl _
  · refine Moves.ite (fun _ => ?_) fun _ => ?_
    · exact Moves.refl _
    · refine Moves.upd rfl (fun p => by cases p; (case bw => exact Or.inl ⟨rfl, fun _ _ => trivial⟩); all_goals exact Or.inr rfl) ?_
      exact Moves.refl _

theorem execL2fLaneLost_ends (s : State) : Ends [.free, .recov, .bw, .fd, .ch, .mbx, .hart, .enrol] s (execL2fLaneLost s) :=
  ⟨_, rfl, Moves.ite (fun _ => Moves.refl _) fun _ => (l2fLost_moves ..).widen rfl⟩

theorem execF2lLaneLost_ends (lane1 : Bool) (s : State) : Ends [.recov, .bw, .ch, .ev, .img, .port, .conv] s (execF2lLaneLost lane1 s) :=
  ⟨_, rfl, Moves.ite (fun _ => Moves.refl _) fun _ => (f2lLost_moves ..).widen rfl⟩

theorem execBreakwaterTrained_ends (lane : BwLane) (s : State) : Ends (partsBut
    [.pending, .tick, .straps, .clk, .held, .mirror, .otp, .time, .host, .mem, .chk]) s (execBreakwaterTrained lane s) := by
  unfold execBreakwaterTrained
  refine ⟨_, rfl, ?_⟩
  extract_lets +onlyGivenNames x1
  refine Moves.ite (fun _ => ?_) fun _ => ?_
  · exact Moves.refl _
  · extract_lets +onlyGivenNames x2
    have h2 : Moves (partsBut [.pending, .tick, .straps, .clk, .held, .mirror, .otp, .time, .host, .mem, .chk]) s x2 :=
      (laneUp_moves ..).widen rfl
    clear_value x2
    extract_lets +onlyGivenNames _ x3
    have h3 : Moves (partsBut [.pending, .tick, .straps, .clk, .held, .mirror, .otp, .time, .host, .mem, .chk]) s x3 := by
      unfold x3
      refine Moves.ite (fun _ => ?_) fun _ => ?_
      · refine Moves.step (deliver_moves ..) rfl ?_
        refine Moves.upd rfl (fun p => by cases p; (case bw => exact Or.inl ⟨rfl, fun _ _ => trivial⟩); all_goals exact Or.inr rfl) ?_
        exact h2
      · exact h2
    clear_value x3
    extract_lets +onlyGivenNames _ _ x4
    have h4 : Moves (partsBut [.pending, .tick, .straps, .clk, .held, .mirror, .otp, .time, .host, .mem, .chk]) s x4 := by
      unfold x4
      refine Moves.ite (fun _ => ?_) fun _ => ?_
      · refine Moves.upd rfl (fun p => by
            cases p
            case bw => exact Or.inl ⟨rfl, fun _ _ => trivial⟩
            case recov => exact Or.inl ⟨rfl, fun _ h => h .recov⟩
            all_goals exact Or.inr rfl) ?_
        exact h3
      · exact h3
    clear_value x4
    extract_lets +onlyGivenNames x5
    have h5 : Moves (partsBut [.pending, .tick, .straps, .clk, .held, .mirror, .otp, .time, .host, .mem, .chk]) s x5 := Moves.ite
      (fun _ => Moves.step (resetAllPaths_moves ..) rfl h4) fun _ => h4
    clear_value x5
    extract_lets +onlyGivenNames x6
    have h6 : Moves (partsBut [.pending, .tick, .straps, .clk, .held, .mirror, .otp, .time, .host, .mem, .chk]) s x6 := Moves.step
      (bwRefill_moves ..) rfl (Moves.step (leaveDefault_moves ..) rfl (Moves.step (refreshServed_moves ..) rfl h5))
    clear_value x6
    exact Moves.ite (fun _ => Moves.step (offerIdentity_moves ..) rfl (Moves.step (sendRefOn_moves ..) rfl h6)) fun _ => h6

theorem execFieldResetRelease_ends (almsel : Bool) (s : State) : Ends [.fd] s (execFieldResetRelease almsel s) := by
  unfold execFieldResetRelease
  refine ⟨_, rfl, ?_⟩
  refine Moves.ite (fun _ => ?_) fun _ => ?_
  · exact Moves.refl _
  · extract_lets +onlyGivenNames x1
    refine Moves.upd rfl (fun p => by cases p; (case fd => exact Or.inl ⟨rfl, fun _ _ => trivial⟩); all_goals exact Or.inr rfl) ?_
    exact Moves.refl _

theorem execRefReady_ends (s : State) : Ends [.fd] s (execRefReady s) := by
  unfold execRefReady
  refine ⟨_, rfl, ?_⟩
  refine Moves.ite (fun _ => ?_) fun _ => ?_
  · refine Moves.step (reportStatus_moves ..) rfl ?_
    refine Moves.upd rfl (fun p => by cases p; (case fd => exact Or.inl ⟨rfl, fun _ _ => trivial⟩); all_goals exact Or.inr rfl) ?_
    exact Moves.refl _
  · exact Moves.refl _

theorem execRefOnRetry_ends (s : State) : Ends [.m, .bw, .ev, .port] s (execRefOnRetry s) := by
  unfold execRefOnRetry
  refine ⟨_, rfl, ?_⟩
  refine Moves.ite (fun _ => ?_) fun _ => ?_
  · exact Moves.refl _
  · extract_lets +onlyGivenNames _ x1
    have h1 : Moves [.m, .bw, .ev, .port] s x1 := by
      unfold x1
      refine Moves.upd rfl (fun p => by cases p; (case m => exact Or.inl ⟨rfl, fun _ _ => trivial⟩); all_goals exact Or.inr rfl) ?_
      exact Moves.refl _
    clear_value x1
    exact Moves.ite (fun _ => Moves.step (bwSend_moves ..) rfl h1) fun _ => Moves.step (raise_moves ..) rfl h1

theorem execFieldSupplyBandChange_ends (band : BitVec 2) (s : State) : Ends [.fd, .ch, .ev, .img, .port, .conv] s
    (execFieldSupplyBandChange band s) := by
  unfold execFieldSupplyBandChange
  refine ⟨_, rfl, ?_⟩
  refine Moves.ite (fun _ => ?_) fun _ => ?_
  · exact Moves.refl _
  · extract_lets +onlyGivenNames _ x1
    have h1 : Moves [.fd, .ch, .ev, .img, .port, .conv] s x1 := by
      unfold x1
      refine Moves.upd rfl (fun p => by cases p; (case fd => exact Or.inl ⟨rfl, fun _ _ => trivial⟩); all_goals exact Or.inr rfl) ?_
      exact Moves.refl _
    clear_value x1
    exact Moves.step (reportStatus_moves ..) rfl (Moves.step (setScan_moves ..) rfl h1)

theorem execLastGasp_ends (vfld : W16) (vhold : W16) (s : State) : Ends [.free, .fd] s (execLastGasp vfld vhold s) := by
  unfold execLastGasp
  refine ⟨_, rfl, ?_⟩
  refine Moves.ite (fun _ => ?_) fun _ => ?_
  · exact Moves.refl _
  · extract_lets +onlyGivenNames x1
    extract_lets +onlyGivenNames _ x2
    have h2 : Moves [.free, .fd] s x2 := by
      unfold x2
      refine Moves.upd rfl (fun p => by cases p; (case fd => exact Or.inl ⟨rfl, fun _ _ => trivial⟩); all_goals exact Or.inr rfl) ?_
      exact Moves.refl _
    clear_value x2
    extract_lets +onlyGivenNames x3
    have h3 : Moves [.free, .fd] s x3 := Moves.foldl (fun _ _ => (gaspDo_moves ..).widen rfl) h2
    clear_value x3
    exact Moves.step (report_moves ..) rfl (Moves.step (report_moves ..) rfl h3)

theorem execFieldDieReset_ends (s : State) : Ends [.fd, .ev, .img, .port, .conv, .loop, .trim] s (execFieldDieReset s) := by
  unfold execFieldDieReset
  refine ⟨_, rfl, ?_⟩
  refine Moves.ite (fun _ => ?_) fun _ => ?_
  · exact Moves.refl _
  · extract_lets +onlyGivenNames x1
    refine Moves.step (fieldGone_moves ..) rfl ?_
    refine Moves.upd rfl (fun p => by cases p; (case fd => exact Or.inl ⟨rfl, fun _ _ => trivial⟩); all_goals exact Or.inr rfl) ?_
    exact Moves.refl _

theorem execRetentionStoreLoss_ends (s : State) : Ends [.fd] s (execRetentionStoreLoss s) := by
  unfold execRetentionStoreLoss
  refine ⟨_, rfl, ?_⟩
  refine Moves.upd rfl (fun p => by cases p; (case fd => exact Or.inl ⟨rfl, fun _ _ => trivial⟩); all_goals exact Or.inr rfl) ?_
  exact Moves.refl _

theorem execVloopLow_ends (falling : Bool) (s : State) : Ends [.fd] s (execVloopLow falling s) :=
  ⟨_, rfl, (reportStatus_moves ..).widen rfl⟩

theorem execFieldDieFaultDetected_ends (f : FieldFault) (s : State) : Ends [.free, .fd] s (execFieldDieFaultDetected f s) := by
  unfold execFieldDieFaultDetected
  refine ⟨_, rfl, ?_⟩
  refine Moves.ite (fun _ => ?_) fun _ => ?_
  · exact Moves.refl _
  · refine Moves.ite (fun _ => ?_) fun _ => ?_
    · exact (reportStatus_moves ..).widen rfl
    · extract_lets +onlyGivenNames _ x1
      have h1 : Moves [.free, .fd] s x1 := by
        unfold x1
        refine Moves.upd rfl (fun p => by cases p; (case fd => exact Or.inl ⟨rfl, fun _ _ => trivial⟩); all_goals exact Or.inr rfl) ?_
        exact Moves.refl _
      clear_value x1
      exact Moves.step (reportStatus_moves ..) rfl (Moves.ite (fun _ => Moves.step (applySafeAll_moves ..) rfl h1) fun _ => h1)

theorem execDiStateChange_ends (n : Chan) (level : Bool) (s : State) : Ends [.fd] s (execDiStateChange n level s) :=
  ⟨_, rfl, onField_moves (ps := [.fd]) (hf3 := fun _ => (condBit_moves ..).widen rfl) ..⟩

theorem execDiClassChange_ends (n : Chan) (k : DiClass) (s : State) : Ends [.fd] s (execDiClassChange n k s) := by
  unfold execDiClassChange
  refine ⟨_, rfl, ?_⟩
  refine onField_moves (ps := [.fd]) (hf3 := fun y1_0 => ?_) ..
  · extract_lets +onlyGivenNames x2
    exact Moves.ite (fun _ => Moves.refl _) fun _ => Moves.step (report_moves ..) rfl ((State.modFd_moves ..).widen rfl)

theorem execSenseDiff_ends (n : Chan) (above : Bool) (s : State) : Ends [.fd] s (execSenseDiff n above s) :=
  ⟨_, rfl, onField_moves (ps := [.fd]) (hf3 := fun _ => (condBit_moves ..).widen rfl) ..⟩

theorem execPairImbal_ends (n : Chan) (present : Bool) (s : State) : Ends [.fd] s (execPairImbal n present s) :=
  ⟨_, rfl, onField_moves (ps := [.fd]) (hf3 := fun _ => (condBit_moves ..).widen rfl) ..⟩

theorem execPathLimit_ends (n : Chan) (entered : Bool) (s : State) : Ends [.fd] s (execPathLimit n entered s) :=
  ⟨_, rfl, onField_moves (ps := [.fd]) (hf3 := fun _ => (condBit_moves ..).widen rfl) ..⟩

theorem execShortSwitchOff_ends (n : Chan) (s : State) : Ends [.free, .fd] s (execShortSwitchOff n s) :=
  ⟨_, rfl, onField_moves (ps := [.free, .fd]) (hf3 := fun _ => Moves.step (drive_moves ..) rfl
    (Moves.step (report_moves ..) rfl ((State.modFd_moves ..).widen rfl))) ..⟩

theorem execShortProbe_ends (n : Chan) (inLimit : Bool) (s : State) : Ends [.free, .fd] s (execShortProbe n inLimit s) := by
  unfold execShortProbe
  refine ⟨_, rfl, ?_⟩
  refine onField_moves (ps := [.free, .fd]) (hf3 := fun y1_0 => ?_) ..
  · extract_lets +onlyGivenNames x2
    have h2 : Moves [.free, .fd] y1_0 x2 := (State.modFd_moves ..).widen rfl
    clear_value x2
    exact Moves.step (drive_moves ..) rfl (Moves.step (report_moves ..) rfl (Moves.step (report_moves ..) rfl h2))

theorem execOpenLoop_ends (n : Chan) (present : Bool) (s : State) : Ends [.fd] s (execOpenLoop n present s) :=
  ⟨_, rfl, onField_moves (ps := [.fd]) (hf3 := fun _ => (condBit_moves ..).widen rfl) ..⟩

theorem execWiringCrossing_ends (n : Chan) (rev : Bool) (s : State) : Ends [.free, .fd] s (execWiringCrossing n rev s) :=
  ⟨_, rfl, onField_moves (ps := [.free, .fd]) (hf3 := fun _ => Moves.step (drive_moves ..) rfl
    (Moves.step (report_moves ..) rfl ((State.modFd_moves ..).widen rfl))) ..⟩

theorem execWiringDeclare_ends (n : Chan) (s : State) : Ends [.fd] s (execWiringDeclare n s) := by
  unfold execWiringDeclare
  refine ⟨_, rfl, ?_⟩
  refine onField_moves (ps := [.fd]) (hf3 := fun y1_0 => ?_) ..
  · extract_lets +onlyGivenNames x2
    extract_lets +onlyGivenNames x3
    extract_lets +onlyGivenNames x4
    exact Moves.step (report_moves ..) rfl ((State.modFd_moves ..).widen rfl)

theorem execWiringTransientEnd_ends (n : Chan) (s : State) : Ends [.free, .fd] s (execWiringTransientEnd n s) := by
  unfold execWiringTransientEnd
  refine ⟨_, rfl, ?_⟩
  refine onField_moves (ps := [.free, .fd]) (hf3 := fun y1_0 => ?_) ..
  · extract_lets +onlyGivenNames x2
    have h2 : Moves [.free, .fd] y1_0 x2 := (State.modFd_moves ..).widen rfl
    clear_value x2
    exact Moves.step (drive_moves ..) rfl (Moves.step (report_moves ..) rfl (Moves.step (report_moves ..) rfl h2))

theorem execWiringClear_ends (n : Chan) (s : State) : Ends [.free, .fd] s (execWiringClear n s) := by
  unfold execWiringClear
  refine ⟨_, rfl, ?_⟩
  refine onField_moves (ps := [.free, .fd]) (hf3 := fun y1_0 => ?_) ..
  · extract_lets +onlyGivenNames x2
    extract_lets +onlyGivenNames x3
    have h3 : Moves [.free, .fd] y1_0 x3 := (State.modFd_moves ..).widen rfl
    clear_value x3
    extract_lets +onlyGivenNames x4
    have h4 : Moves [.free, .fd] y1_0 x4 := Moves.ite (fun _ => Moves.step (report_moves ..) rfl h3) fun _ => h3
    clear_value x4
    extract_lets +onlyGivenNames x5
    have h5 : Moves [.free, .fd] y1_0 x5 := Moves.ite (fun _ => Moves.step (report_moves ..) rfl h4) fun _ => h4
    clear_value x5
    exact Moves.step (drive_moves ..) rfl (Moves.step (report_moves ..) rfl h5)

theorem execDoReverse_ends (n : Chan) (present : Bool) (s : State) : Ends [.fd] s (execDoReverse n present s) :=
  ⟨_, rfl, onField_moves (ps := [.fd]) (hf3 := fun _ => (condBit_moves ..).widen rfl) ..⟩

theorem execBackfeed_ends (n : Chan) (present : Bool) (ma : W16) (tj : Byte) (s : State) : Ends [.free, .fd] s
    (execBackfeed n present ma tj s) := by
  unfold execBackfeed
  refine ⟨_, rfl, ?_⟩
  refine onField_moves (ps := [.free, .fd]) (hf3 := fun y1_0 => ?_) ..
  · extract_lets +onlyGivenNames x2
    extract_lets +onlyGivenNames x3
    have h3 : Moves [.free, .fd] y1_0 x3 := (condBit_moves ..).widen rfl
    clear_value x3
    exact Moves.ite (fun _ => Moves.step (fdTrip_moves ..) rfl h3) fun _ => h3

theorem execHardShort_ends (n : Chan) (ma : W16) (tj : Byte) (s : State) : Ends [.free, .fd] s (execHardShort n ma tj s) :=
  ⟨_, rfl, onField_moves (ps := [.free, .fd]) (hf3 := fun _ => (fdTrip_moves ..).widen rfl) ..⟩

theorem execSteadyTrip_ends (n : Chan) (ma : W16) (tj : Byte) (s : State) : Ends [.free, .fd] s (execSteadyTrip n ma tj s) :=
  ⟨_, rfl, onField_moves (ps := [.free, .fd]) (hf3 := fun _ => (fdTrip_moves ..).widen rfl) ..⟩

theorem execFloodWindowEnd_ends (n : Chan) (limited : Bool) (s : State) : Ends [.fd] s (execFloodWindowEnd n limited s) :=
  ⟨_, rfl, onField_moves (ps := [.fd]) (hf3 := fun _ => Moves.step (report_moves ..) rfl ((modHalves_moves ..).widen rfl)) ..⟩

theorem execClampEventStart_ends (n : Chan) (tj : W32) (s : State) : Ends [.fd] s (execClampEventStart n tj s) := by
  unfold execClampEventStart
  refine ⟨_, rfl, ?_⟩
  refine onField_moves (ps := [.fd]) (hf3 := fun y1_0 => ?_) ..
  · extract_lets +onlyGivenNames x2
    exact (State.modFd_moves ..).widen rfl

theorem execClampEventEnd_ends (n : Chan) (samples : List (W32 × W32 × W32)) (s : State) : Ends [.free, .fd] s
    (execClampEventEnd n samples s) := by
  unfold execClampEventEnd
  refine ⟨_, rfl, ?_⟩
  refine onField_moves (ps := [.free, .fd]) (hf3 := fun y1_0 => ?_) ..
  · extract_lets +onlyGivenNames x2
    extract_lets +onlyGivenNames x3
    have h3 : Moves [.free, .fd] y1_0 x3 := (State.modFd_moves ..).widen rfl
    clear_value x3
    extract_lets +onlyGivenNames x4
    extract_lets +onlyGivenNames x5
    have h5 : Moves [.free, .fd] y1_0 x5 := Moves.step (reportStatus_moves ..) rfl h3
    clear_value x5
    exact Moves.ite (fun _ => Moves.step (drive_moves ..) rfl (Moves.step (modHalves_moves ..) rfl h5)) fun _ => h5

theorem execClampEnergyTest_ends (n : Chan) (samples : List (W32 × W32 × W32)) (s : State) : Ends [.fd] s (execClampEnergyTest n samples s)
    := by
  unfold execClampEnergyTest
  refine ⟨_, rfl, ?_⟩
  refine onField_moves (ps := [.fd]) (hf3 := fun y1_0 => ?_) ..
  · extract_lets +onlyGivenNames x2
    have h2 : Moves [.fd] y1_0 x2 := Moves.ite (fun _ => (State.modFd_moves ..).widen rfl) fun _ => Moves.refl _
    clear_value x2
    extract_lets +onlyGivenNames x3
    exact Moves.ite (fun _ => Moves.step (coolSet_moves ..) rfl h2) fun _ => h2

theorem execClampDecayStep_ends (n : Chan) (s : State) : Ends [.fd] s (execClampDecayStep n s) := by
  unfold execClampDecayStep
  refine ⟨_, rfl, ?_⟩
  refine Moves.ite (fun _ => ?_) fun _ => ?_
  · exact Moves.refl _
  · extract_lets +onlyGivenNames x1
    have h1 : Moves [.fd] s x1 := (State.modFd_moves ..).widen rfl
    clear_value x1
    extract_lets +onlyGivenNames x2
    exact Moves.ite (fun _ => Moves.step (coolRelease_moves ..) rfl h1) fun _ => h1

theorem execThermalCompare_ends (n : Chan) (tj : W32) (tcase : W32) (inRegulation : Bool) (ma : W16) (s : State) : Ends [.free, .fd] s
    (execThermalCompare n tj tcase inRegulation ma s) := by
  unfold execThermalCompare
  refine ⟨_, rfl, ?_⟩
  refine onField_moves (ps := [.free, .fd]) (hf3 := fun y1_0 => ?_) ..
  · extract_lets +onlyGivenNames x2
    extract_lets +onlyGivenNames x3
    extract_lets +onlyGivenNames x4
    extract_lets +onlyGivenNames x5
    extract_lets +onlyGivenNames x6
    extract_lets +onlyGivenNames x7
    extract_lets +onlyGivenNames x8
    extract_lets +onlyGivenNames x9
    have h9 : Moves [.free, .fd] y1_0 x9 := Moves.ite (fun _ => (coolRelease_moves ..).widen rfl) fun _ => Moves.refl _
    clear_value x9
    extract_lets +onlyGivenNames x10
    have h10 : Moves [.free, .fd] y1_0 x10 := Moves.ite (fun _ => Moves.step (coolRelease_moves ..) rfl h9) fun _ => h9
    clear_value x10
    refine Moves.ite (fun _ => ?_) fun _ => ?_
    · exact h10
    · extract_lets +onlyGivenNames x11
      have h11 : Moves [.free, .fd] y1_0 x11 := Moves.ite (fun _ => Moves.step (modHalves_moves ..) rfl h10) fun _ => h10
      clear_value x11
      extract_lets +onlyGivenNames x12
      have h12 : Moves [.free, .fd] y1_0 x12 := Moves.ite (fun _ => Moves.step (turnOff_moves ..) rfl h11) fun _ => h11
      clear_value x12
      extract_lets +onlyGivenNames x13
      have h13 : Moves [.free, .fd] y1_0 x13 := Moves.ite (fun _ => Moves.step (coolSet_moves ..) rfl h12) fun _ => h12
      clear_value x13
      extract_lets +onlyGivenNames x14
      have h14 : Moves [.free, .fd] y1_0 x14 := Moves.ite (fun _ => Moves.step (coolSet_moves ..) rfl h13) fun _ => h13
      clear_value x14
      exact Moves.ite (fun _ => Moves.step (fdTrip_moves ..) rfl h14) fun _ => h14

theorem execBackoffExpiry_ends (n : Chan) (s : State) : Ends [.bw, .ch, .ev, .img, .port, .gov] s (execBackoffExpiry n s) :=
  ⟨_, rfl, Moves.ite (fun _ => Moves.step (tryRestartNow_moves ..) rfl ((State.modCh_moves ..).widen rfl)) fun _ => Moves.refl _⟩

theorem execTokenRefill_ends (n : Chan) (s : State) : Ends [.ch] s (execTokenRefill n s) :=
  ⟨_, rfl, Moves.ite (fun _ => (State.modCh_moves ..).widen rfl) fun _ => Moves.refl _⟩

theorem execQuietReset_ends (n : Chan) (s : State) : Ends [.ch] s (execQuietReset n s) :=
  ⟨_, rfl, Moves.ite (fun _ => (State.modCh_moves ..).widen rfl) fun _ => Moves.refl _⟩

theorem execGovernorUpdate_ends (s : State) : Ends [.free, .bw, .ch, .ev, .img, .port, .conv, .loop, .gov] s (execGovernorUpdate s) := by
  unfold execGovernorUpdate
  refine ⟨_, rfl, ?_⟩
  refine Moves.ite (fun _ => ?_) fun _ => ?_
  · exact Moves.refl _
  · extract_lets +onlyGivenNames x1
    have h1 : Moves [.free, .bw, .ch, .ev, .img, .port, .conv, .loop, .gov] s x1 := (govUpdate_moves ..).widen rfl
    clear_value x1
    extract_lets +onlyGivenNames x2
    extract_lets +onlyGivenNames _ x3
    have h3 : Moves [.free, .bw, .ch, .ev, .img, .port, .conv, .loop, .gov] s x3 := by
      unfold x3
      refine Moves.ite (fun _ => ?_) fun _ => ?_
      · refine Moves.upd rfl (fun p => by cases p; (case gov => exact Or.inl ⟨rfl, fun _ _ => trivial⟩); all_goals exact Or.inr rfl) ?_
        exact h1
      · exact h1
    clear_value x3
    exact Moves.foldl (fun _ _ => (readmit_moves ..).widen rfl) h3

theorem execGovernorOver_ends (s : State) : Ends [.ev, .port, .gov] s (execGovernorOver s) := by
  unfold execGovernorOver
  refine ⟨_, rfl, ?_⟩
  refine Moves.ite (fun _ => ?_) fun _ => ?_
  · refine Moves.step (raisePower_moves ..) rfl ?_
    refine Moves.upd rfl (fun p => by cases p; (case gov => exact Or.inl ⟨rfl, fun _ _ => trivial⟩); all_goals exact Or.inr rfl) ?_
    exact Moves.refl _
  · exact Moves.refl _

theorem execGovernorReevaluate_ends (s : State) : Ends [.free, .bw, .ch, .ev, .img, .port, .conv, .loop, .gov] s (execGovernorReevaluate s)
    :=
  ⟨_, rfl, Moves.ite (fun _ => Moves.foldl (fun _ _ => (retryChan_moves ..).widen rfl) (Moves.refl _)) fun _ => Moves.refl _⟩

theorem execGovernorShed_ends (s : State) : Ends [.bw, .ch, .ev, .img, .port] s (execGovernorShed s) := by
  unfold execGovernorShed
  refine ⟨_, rfl, ?_⟩
  refine Moves.ite (fun _ => ?_) fun _ => ?_
  · exact Moves.refl _
  · split
    · exact Moves.refl _
    · extract_lets +onlyGivenNames x1
      extract_lets +onlyGivenNames x2
      have h2 : Moves [.bw, .ch, .ev, .img, .port] s x2 := (State.modCh_moves ..).widen rfl
      clear_value x2
      extract_lets +onlyGivenNames x3
      have h3 : Moves [.bw, .ch, .ev, .img, .port] s x3 := Moves.step (State.modCh_moves ..) rfl (Moves.step (setCmd_moves ..) rfl h2)
      clear_value x3
      extract_lets +onlyGivenNames x4
      have h4 : Moves [.bw, .ch, .ev, .img, .port] s x4 := Moves.step (showCommand_moves ..) rfl h3
      clear_value x4
      exact Moves.step (command_moves ..) rfl (Moves.step (raisePower_moves ..) rfl h4)

theorem execWindowDeclare_ends (n : Chan) (w : Win) (held : ℕ) (s : State) : Ends [.fd] s (execWindowDeclare n w held s) := by
  unfold execWindowDeclare
  refine ⟨_, rfl, ?_⟩
  refine onProve_moves (ps := [.fd]) (hf3 := fun y1_0 => ?_) ..
  · extract_lets +onlyGivenNames x2
    exact Moves.ite (fun _ => Moves.refl _) fun _ => Moves.step (report_moves ..) rfl ((State.modFd_moves ..).widen rfl)

theorem execDitherStart_ends (n : Chan) (iRef : W32) (s : State) : Ends [.fd] s (execDitherStart n iRef s) :=
  ⟨_, rfl, onProve_moves (ps := [.fd]) (hf3 := fun _ => (modHalves_moves ..).widen rfl) ..⟩

theorem execCorrelatorResult_ends (n : Chan) (cycles : List DitherCycle) (s : State) : Ends
    [.free, .fd, .ch, .ev, .mbx, .img, .port, .enrol] s (execCorrelatorResult n cycles s) :=
  ⟨_, rfl, Moves.ite (fun _ => Moves.refl _) fun _ => Moves.foldl (fun _ _ => (takeCycle_moves ..).widen rfl) (Moves.refl _)⟩

theorem execOffStatePulse_ends (n : Chan) (v0 v1 i1 vfld : W32) (s : State) :
    Ends [.free, .fd] s (execOffStatePulse n v0 v1 i1 vfld s) := by
  unfold execOffStatePulse
  refine ⟨_, rfl, ?_⟩
  refine onField_moves (ps := [.free, .fd]) (hf3 := fun y => ?_) ..
  extract_lets +onlyGivenNames x1 x2 x3 x4
  have h4 : Moves [.free, .fd] y x4 := (State.modFd_moves ..).widen rfl
  clear_value x4
  refine Moves.ite (fun _ => Moves.ite (fun _ => Moves.step (report_moves ..) rfl h4) fun _ => ?_) fun _ => Moves.step (report_moves ..) rfl h4
  split
  next v a e => exact Moves.step (report_moves ..) rfl (Moves.ofSnd e (Moves.step (State.draw_moves ..) rfl h4))

theorem execPhantomDeclare_ends (n : Chan) (held : ℕ) (s : State) : Ends [.fd] s (execPhantomDeclare n held s) :=
  ⟨_, rfl, onProve_moves (ps := [.fd]) (hf3 := fun _ => Moves.step (reportPhantom_moves ..) rfl ((State.modFd_moves ..).widen rfl)) ..⟩

theorem execPhantomClear_ends (n : Chan) (s : State) : Ends [.fd] s (execPhantomClear n s) :=
  ⟨_, rfl, onProve_moves (ps := [.fd]) (hf3 := fun _ => Moves.step (reportPhantom_moves ..) rfl ((State.modFd_moves ..).widen rfl)) ..⟩

theorem execPhantomDriven_ends (n : Chan) (s : State) : Ends [.fd] s (execPhantomDriven n s) :=
  ⟨_, rfl, onProve_moves (ps := [.fd]) (hf3 := fun _ => Moves.step (reportPhantom_moves ..) rfl ((State.modFd_moves ..).widen rfl)) ..⟩

theorem execPathCheck_ends (n : Chan) (m : PathMeasure) (s : State) : Ends [.fd] s (execPathCheck n m s) := by
  unfold execPathCheck
  refine ⟨_, rfl, ?_⟩
  refine onField_moves (ps := [.fd]) (hf3 := fun y1_0 => ?_) ..
  · extract_lets +onlyGivenNames x2
    exact Moves.step (report_moves ..) rfl ((State.modFd_moves ..).widen rfl)

theorem execEvidenceExpiry_ends (n : Chan) (s : State) : Ends [.ch, .ev, .img, .port] s (execEvidenceExpiry n s) :=
  ⟨_, rfl, Moves.ite (fun _ => Moves.step (evalLamp_moves ..) rfl ((State.modCh_moves ..).widen rfl)) fun _ => Moves.refl _⟩

theorem execCheckUnitStart_ends (ctrl : W32) (poly : W64) (init : W64) (xorout : W64) (fold : W64) (s : State) : Ends [.chk] s
    (execCheckUnitStart ctrl poly init xorout fold s) := by
  unfold execCheckUnitStart
  refine ⟨_, rfl, ?_⟩
  refine Moves.ite (fun _ => ?_) fun _ => ?_
  · exact Moves.refl _
  · refine Moves.ite (fun _ => ?_) fun _ => ?_
    · refine Moves.upd rfl (fun p => by cases p; (case chk => exact Or.inl ⟨rfl, fun _ _ => trivial⟩); all_goals exact Or.inr rfl) ?_
      exact Moves.refl _
    · refine Moves.upd rfl (fun p => by cases p; (case chk => exact Or.inl ⟨rfl, fun _ _ => trivial⟩); all_goals exact Or.inr rfl) ?_
      exact Moves.refl _

theorem execData8_ends (v : W32) (s : State) : Ends [.chk] s (execData8 v s) :=
  ⟨_, rfl, Moves.ite (fun _ => (checkData_moves ..).widen rfl) fun _ => Moves.refl _⟩

theorem execData16_ends (v : W32) (s : State) : Ends [.chk] s (execData16 v s) :=
  ⟨_, rfl, Moves.ite (fun _ => (checkData_moves ..).widen rfl) fun _ => Moves.refl _⟩

theorem execData32_ends (v : W32) (s : State) : Ends [.chk] s (execData32 v s) :=
  ⟨_, rfl, Moves.ite (fun _ => (checkData_moves ..).widen rfl) fun _ => Moves.refl _⟩

theorem execCheckComplete_ends (s : State) : Ends [.free, .mbx, .chk] s (execCheckComplete s) := by
  unfold execCheckComplete
  refine ⟨_, rfl, ?_⟩
  split
  · exact Moves.refl _
  · refine Moves.ite (fun _ => ?_) fun _ => ?_
    · exact Moves.refl _
    · extract_lets +onlyGivenNames x1
      extract_lets +onlyGivenNames x2
      extract_lets +onlyGivenNames _ x3
      have h3 : Moves [.free, .mbx, .chk] s x3 := by
        unfold x3
        refine Moves.upd rfl (fun p => by
            cases p
            case free | chk => exact Or.inl ⟨rfl, fun _ _ => trivial⟩
            all_goals exact Or.inr rfl) ?_
        exact Moves.refl _
      clear_value x3
      exact Moves.step (mbxEnd_moves ..) rfl (Moves.step (mbxReturn_moves ..) rfl (Moves.step (mbxReturn_moves ..) rfl h3))

theorem execCheck_ends (slot : SlotIx) (tag : W16) (s : State) : Ends [.mbx, .held, .chk] s (execCheck slot tag s) :=
  ⟨_, rfl, mbxServed_moves (ps := [.mbx, .held, .chk]) (hc := rfl) (hf4 := fun _ _ _ => (runCheck_moves ..).widen rfl) ..⟩

theorem execEndpointRecompute_ends (s : State) : Ends [.free, .m, .bw, .ch, .ev, .mbx, .img, .port, .loop, .gov, .enrol] s
    (execEndpointRecompute s) :=
  ⟨_, rfl, Moves.ite (fun _ => Moves.refl _) fun _ => Moves.step (flushNormal_moves ..) rfl
    (Moves.step (mapPending_moves ..) rfl (Moves.step (restartPending_moves ..) rfl
    (Moves.step (recompute_moves ..) rfl ((settleMode_moves ..).widen rfl))))⟩

theorem execUpdateSend_ends (s : State) : Ends [.img, .port] s (execUpdateSend s) := by
  unfold execUpdateSend
  refine ⟨_, rfl, ?_⟩
  split
  · extract_lets +onlyGivenNames x1
    exact Moves.ite (fun _ => Moves.refl _) fun _ => (sendUpdate_moves ..).widen rfl
  · exact Moves.refl _

theorem execSweepSend_ends (s : State) : Ends [.img, .port] s (execSweepSend s) := by
  unfold execSweepSend
  refine ⟨_, rfl, ?_⟩
  split
  · refine Moves.ite (fun _ => ?_) fun _ => ?_
    · exact Moves.refl _
    · extract_lets +onlyGivenNames x1
      extract_lets +onlyGivenNames x2
      extract_lets +onlyGivenNames _ x3
      have h3 : Moves [.img, .port] s x3 := by
        unfold x3
        refine Moves.upd rfl (fun p => by cases p; (case img => exact Or.inl ⟨rfl, fun _ h => h .img⟩); all_goals exact Or.inr rfl) ?_
        exact Moves.refl _
      clear_value x3
      exact Moves.foldl (fun _ _ => (sendRequest_moves ..).widen rfl) h3
  · exact Moves.refl _

theorem execEntryStale_ends (j : Fin 256) (s : State) : Ends [.ev, .img, .port] s (execEntryStale j s) := by
  unfold execEntryStale
  refine ⟨_, rfl, ?_⟩
  split
  · refine Moves.ite (fun _ => ?_) fun _ => ?_
    · extract_lets +onlyGivenNames x1
      have h1 : Moves [.ev, .img, .port] s x1 := Moves.step (modEntry_moves ..) rfl ((overrideCopies_moves ..).widen rfl)
      clear_value x1
      refine Moves.step (raiseMember_moves ..) rfl ?_
      refine Moves.upd rfl (fun p => by cases p; (case img => exact Or.inl ⟨rfl, fun _ h => h .img⟩); all_goals exact Or.inr rfl) ?_
      exact h1
    · exact Moves.refl _
  · exact Moves.refl _

theorem execFenceComplete_ends (upstream : Bool) (s : State) : Ends [.boot, .recov, .ev, .img, .port] s (execFenceComplete upstream s) := by
  unfold execFenceComplete
  refine ⟨_, rfl, ?_⟩
  refine Moves.ite (fun _ => ?_) fun _ => ?_
  · exact Moves.refl _
  · refine Moves.ite (fun _ => ?_) fun _ => ?_
    · split
      next f fs e =>
        refine Moves.ite (fun _ => ?_) fun _ => ?_
        · extract_lets +onlyGivenNames _ x1
          have h1 : Moves [.boot, .recov, .ev, .img, .port] s x1 := by
            unfold x1
            refine Moves.upd rfl (fun p => by
                cases p
                case img => exact Or.inl ⟨rfl, fun _ h => ⟨(h .img).1, (h .img).2.1, (h .img).2.2.1, fences_tail (h .img).2.2.2 e⟩⟩
                all_goals exact Or.inr rfl) ?_
            exact Moves.refl _
          clear_value x1
          split
          · exact Moves.step (sendResponse_moves ..) rfl h1
          · exact h1
        · exact Moves.refl _
      · exact Moves.refl _
    · split
      next f fs e =>
        refine Moves.ite (fun _ => ?_) fun _ => ?_
        · refine Moves.step (completeLocal_moves ..) rfl ?_
          refine Moves.upd rfl (fun p => by
              cases p
              case img => exact Or.inl ⟨rfl, fun _ h => ⟨(h .img).1, (h .img).2.1, fences_tail (h .img).2.2.1 e, (h .img).2.2.2⟩⟩
              all_goals exact Or.inr rfl) ?_
          exact Moves.refl _
        · exact Moves.refl _
      · exact Moves.refl _

theorem execRuleCycle_ends (s : State) : Ends [.free, .m, .triad, .bw, .ch, .ev, .mbx, .img, .port, .conv, .loop, .trim, .gov, .rul, .pins,
    .enrol] s (execRuleCycle s) := by
  unfold execRuleCycle
  refine ⟨_, rfl, ?_⟩
  split
  · exact Moves.ite (fun _ => (cycle_moves ..).widen rfl) fun _ => Moves.refl _
  · exact Moves.refl _

theorem execLaneDisagree_ends (l : LaneIx) (plane : Fin 6) (s : State) : Ends
    [.m, .triad, .recov, .bw, .fd, .ch, .ev, .mbx, .img, .port, .conv, .loop, .trim, .wheel, .rul, .pins] s (execLaneDisagree l plane s) :=
  ⟨_, rfl, Moves.ite (fun _ => Moves.refl _) fun _ => Moves.ite (fun _ => (voterSafe_moves ..).widen rfl) fun _ => (laneOdd_moves ..).widen
    rfl⟩

theorem execLaneSelfReport_ends (l : LaneIx) (s : State) : Ends [.m, .triad, .recov, .bw, .fd, .ch, .ev, .mbx, .img, .port, .conv, .loop,
    .trim, .wheel, .rul, .pins] s (execLaneSelfReport l s) :=
  ⟨_, rfl, Moves.ite (fun _ => Moves.refl _) fun _ => Moves.ite (fun _ => (voterSafe_moves ..).widen rfl) fun _ => (laneOdd_moves ..).widen
    rfl⟩

theorem execIauMinority_ends (l : LaneIx) (cycles : W16) (s : State) : Ends [.m, .triad, .ch, .ev, .img, .port, .trim, .rul, .pins] s
    (execIauMinority l cycles s) := by
  unfold execIauMinority
  refine ⟨_, rfl, ?_⟩
  refine Moves.ite (fun _ => ?_) fun _ => ?_
  · exact Moves.refl _
  · extract_lets +onlyGivenNames _ x1
    have h1 : Moves [.m, .triad, .ch, .ev, .img, .port, .trim, .rul, .pins] s x1 := by
      unfold x1
      refine Moves.upd rfl (fun p => by
          cases p
          case triad => exact Or.inl ⟨rfl, fun _ h => h .triad⟩
          all_goals exact Or.inr rfl) ?_
      exact Moves.refl _
    clear_value x1
    exact Moves.ite (fun _ => Moves.step (laneOdd_moves ..) rfl h1) fun _ => h1

theorem execResyncComplete_ends (verified : Bool) (pairAgrees : Bool) (failing : Option (Fin 6)) (crcs : List W32) (s : State) : Ends
    [.m, .triad, .recov, .bw, .fd, .ch, .ev, .mbx, .img, .port, .conv, .loop, .trim, .wheel, .rul, .pins] s
    (execResyncComplete verified pairAgrees failing crcs s) := by
  unfold execResyncComplete
  refine ⟨_, rfl, ?_⟩
  split
  · exact Moves.refl _
  · refine Moves.ite (fun _ => ?_) fun _ => ?_
    · exact (voterSafe_moves ..).widen rfl
    · refine Moves.ite (fun _ => ?_) fun _ => ?_
      · extract_lets +onlyGivenNames x1
        refine Moves.step (afterRebuild_moves ..) rfl ?_
        refine Moves.step (putTriad_moves ..) rfl ?_
        refine Moves.upd rfl (fun p => by
            cases p
            case triad => exact Or.inl ⟨rfl, fun _ h => h .triad⟩
            all_goals exact Or.inr rfl) ?_
        exact Moves.refl _
      · extract_lets +onlyGivenNames x2
        have h2 : Moves [.m, .triad, .recov, .bw, .fd, .ch, .ev, .mbx, .img, .port, .conv, .loop, .trim, .wheel, .rul, .pins] s x2 :=
          (recordDis_moves ..).widen rfl
        clear_value x2
        refine Moves.ite (fun _ => ?_) fun _ => ?_
        · exact Moves.step (afterRebuild_moves ..) rfl (Moves.step (retireLane_moves ..) rfl h2)
        · refine Moves.upd rfl (fun p => by
              cases p
              case triad => exact Or.inl ⟨rfl, fun _ h => h .triad⟩
              all_goals exact Or.inr rfl) ?_
          exact h2

theorem execVoterFault_ends (f : VoterFault) (s : State) : Ends [.m, .triad, .recov, .bw, .fd, .ch, .ev, .mbx, .img, .port, .conv, .loop,
    .trim, .wheel, .rul, .pins] s (execVoterFault f s) := by
  unfold execVoterFault
  refine ⟨_, rfl, ?_⟩
  refine Moves.ite (fun _ => ?_) fun _ => ?_
  · exact Moves.refl _
  · split
    · exact Moves.ite (fun _ => Moves.refl _) fun _ => (voterSafe_moves ..).widen rfl
    · exact Moves.ite (fun _ => (voterSafe_moves ..).widen rfl) fun _ => Moves.refl _
    · exact Moves.ite (fun _ => (voterSafe_moves ..).widen rfl) fun _ => Moves.refl _
    · refine Moves.step (voterSafe_moves ..) rfl ?_
      refine Moves.upd rfl (fun p => by
          cases p
          case triad => exact Or.inl ⟨rfl, fun _ h => h .triad⟩
          all_goals exact Or.inr rfl) ?_
      exact Moves.refl _

theorem execVoterSelftest_ends (failing : Option (Fin 6)) (s : State) : Ends
    [.m, .triad, .recov, .bw, .fd, .ch, .ev, .mbx, .img, .port, .conv, .loop, .trim, .wheel, .rul, .pins] s (execVoterSelftest failing s)
    := by
  unfold execVoterSelftest
  refine ⟨_, rfl, ?_⟩
  refine Moves.ite (fun _ => ?_) fun _ => ?_
  · exact Moves.refl _
  · refine Moves.ite (fun _ => ?_) fun _ => ?_
    · refine Moves.upd rfl (fun p => by
          cases p
          case triad => exact Or.inl ⟨rfl, fun _ h => h .triad⟩
          all_goals exact Or.inr rfl) ?_
      exact Moves.refl _
    · exact (selfTest_moves ..).widen rfl

theorem execStateSurvey_ends (crcs : List W32) (s : State) : Ends [.m, .triad, .recov, .bw, .fd, .ch, .ev, .mbx, .img, .port, .conv, .loop,
    .trim, .wheel, .rul, .pins] s (execStateSurvey crcs s) := by
  unfold execStateSurvey
  refine ⟨_, rfl, ?_⟩
  refine Moves.ite (fun _ => ?_) fun _ => ?_
  · exact Moves.refl _
  · refine Moves.ite (fun _ => ?_) fun _ => ?_
    · refine Moves.upd rfl (fun p => by
          cases p
          case triad => exact Or.inl ⟨rfl, fun _ h => h .triad⟩
          all_goals exact Or.inr rfl) ?_
      exact Moves.refl _
    · exact (survey_moves ..).widen rfl

theorem execExtest_ends (cells : BitVec 69) (s : State) : Ends [.triad] s (execExtest cells s) := by
  unfold execExtest
  refine ⟨_, rfl, ?_⟩
  refine Moves.upd rfl (fun p => by
      cases p
      case triad => exact Or.inl ⟨rfl, fun _ h => by show TriadOk (ite _ _ _); split <;> exact h .triad⟩
      all_goals exact Or.inr rfl) ?_
  exact Moves.refl _

theorem execIdcode_ends (s : State) : Ends [.triad] s (execIdcode s) := by
  unfold execIdcode
  refine ⟨_, rfl, ?_⟩
  refine Moves.upd rfl (fun p => by
      cases p
      case triad => exact Or.inl ⟨rfl, fun _ h => h .triad⟩
      all_goals exact Or.inr rfl) ?_
  exact Moves.refl _

theorem execSamplePreload_ends (captured : BitVec 69) (preload : BitVec 69) (s : State) : Ends [.triad] s
    (execSamplePreload captured preload s) := by
  unfold execSamplePreload
  refine ⟨_, rfl, ?_⟩
  refine Moves.upd rfl (fun p => by
      cases p
      case triad => exact Or.inl ⟨rfl, fun _ h => h .triad⟩
      all_goals exact Or.inr rfl) ?_
  exact Moves.refl _

theorem execBypass_ends (ir : BitVec 5) (s : State) : Ends [.triad] s (execBypass ir s) := by
  unfold execBypass
  refine ⟨_, rfl, ?_⟩
  refine Moves.upd rfl (fun p => by
      cases p
      case triad => exact Or.inl ⟨rfl, fun _ h => h .triad⟩
      all_goals exact Or.inr rfl) ?_
  exact Moves.refl _

theorem execAttach_ends (s : State) : Ends [.triad, .ev, .port] s (execAttach s) := by
  unfold execAttach
  refine ⟨_, rfl, ?_⟩
  extract_lets +onlyGivenNames x1
  extract_lets +onlyGivenNames x2
  extract_lets +onlyGivenNames x3
  have h3 : Moves [.triad, .ev, .port] s x3 := by
    unfold x3
    refine Moves.upd rfl (fun p => by
        cases p
        case triad => exact Or.inl ⟨rfl, fun _ h => h .triad⟩
        all_goals exact Or.inr rfl) ?_
    exact Moves.refl _
  clear_value x3
  exact Moves.step (raise_moves ..) rfl h3

theorem execHalt_ends (s : State) : Ends [.triad] s (execHalt s) := by
  unfold execHalt
  refine ⟨_, rfl, ?_⟩
  refine Moves.upd rfl (fun p => by
      cases p
      case triad => exact Or.inl ⟨rfl, fun _ h => h .triad⟩
      all_goals exact Or.inr rfl) ?_
  exact Moves.refl _

theorem execTriadHalted_ends (s : State) : Ends [.triad, .bw, .rul] s (execTriadHalted s) := by
  unfold execTriadHalted
  refine ⟨_, rfl, ?_⟩
  refine Moves.ite (fun _ => ?_) fun _ => ?_
  · exact Moves.refl _
  · refine Moves.upd rfl (fun p => by
        cases p
        case bw | rul => exact Or.inl ⟨rfl, fun _ _ => trivial⟩
        case triad => exact Or.inl ⟨rfl, fun _ h => ⟨⟨(h .triad).1.1, rfl⟩, (h .triad).2⟩⟩
        all_goals exact Or.inr rfl) ?_
    exact Moves.refl _

theorem execDbgRead_ends (addr : W32) (s : State) : Ends [.triad] s (execDbgRead addr s) :=
  ⟨_, rfl, Moves.step (dbgRead_moves ..) rfl ((scanAccess_moves ..).widen rfl)⟩

theorem execDbgWrite_ends (addr : W32) (data : W32) (s : State) : Ends [.triad, .recov, .ev, .img, .conv] s (execDbgWrite addr data s) :=
  ⟨_, rfl, Moves.step (dbgWrite_moves ..) rfl ((scanAccess_moves ..).widen rfl)⟩

theorem execStep_ends (crcs : List W32) (s : State) : Ends [.m, .triad, .recov, .bw, .fd, .ch, .ev, .mbx, .img, .port, .conv, .loop, .trim,
    .wheel, .rul, .pins] s (execStep crcs s) := by
  unfold execStep
  refine ⟨_, rfl, ?_⟩
  refine Moves.ite (fun _ => ?_) fun _ => ?_
  · exact (scanCtrl_moves ..).widen rfl
  · extract_lets +onlyGivenNames x1
    have h1 : Moves [.m, .triad, .recov, .bw, .fd, .ch, .ev, .mbx, .img, .port, .conv, .loop, .trim, .wheel, .rul, .pins] s x1 :=
      Moves.step (replayAll_moves ..) rfl ((scanCtrl_moves ..).widen rfl)
    clear_value x1
    refine Moves.upd rfl (fun p => by
        cases p
        case triad => exact Or.inl ⟨rfl, fun _ h => ⟨⟨(h .triad).1.1, rfl⟩, (h .triad).2⟩⟩
        all_goals exact Or.inr rfl) ?_
    exact h1

theorem execSampleFrame_ends (h : BwHeader) (firstTick : W64) (missI : BitVec 14) (missV : BitVec 14) (s : State) : Ends
    [.recov, .bw, .ch, .ev, .img, .port, .conv] s (execSampleFrame h firstTick missI missV s) := by
  unfold execSampleFrame
  refine ⟨_, rfl, ?_⟩
  refine Moves.ite (fun _ => ?_) fun _ => ?_
  · exact Moves.refl _
  · refine bwTakePlain_moves (ps := [.recov, .bw, .ch, .ev, .img, .port, .conv]) (hc := rfl) (hf4 := fun y1_0 => ?_) ..
    · extract_lets +onlyGivenNames x2
      extract_lets +onlyGivenNames x3
      refine Moves.ite (fun _ => ?_) fun _ => ?_
      · exact (raise_moves ..).widen rfl
      · refine Moves.ite (fun _ => ?_) fun _ => ?_
        · exact Moves.refl _
        · extract_lets +onlyGivenNames x4
          extract_lets +onlyGivenNames x5
          extract_lets +onlyGivenNames x6
          extract_lets +onlyGivenNames x7
          extract_lets +onlyGivenNames x8
          extract_lets +onlyGivenNames x9
          extract_lets +onlyGivenNames x10
          extract_lets +onlyGivenNames _ x11
          have h11 : Moves [.recov, .bw, .ch, .ev, .img, .port, .conv] y1_0 x11 := by
            unfold x11
            refine Moves.upd rfl (fun p => by cases p; (case bw => exact Or.inl ⟨rfl, fun _ _ => trivial⟩); all_goals exact Or.inr rfl) ?_
            exact Moves.refl _
          clear_value x11
          extract_lets +onlyGivenNames x12
          have h12 : Moves [.recov, .bw, .ch, .ev, .img, .port, .conv] y1_0 x12 := Moves.ite
            (fun _ => Moves.step (dropValid_moves ..) rfl (Moves.step (raiseBw_moves ..) rfl h11)) fun _ => h11
          clear_value x12
          extract_lets +onlyGivenNames x13
          exact Moves.step (feedPairs_moves ..) rfl (Moves.step (judgeSar_moves ..) rfl h12)

theorem execSampleLossClear_ends (s : State) : Ends [.bw, .ch, .ev, .img, .port, .conv] s (execSampleLossClear s) := by
  unfold execSampleLossClear
  refine ⟨_, rfl, ?_⟩
  refine Moves.ite (fun _ => ?_) fun _ => ?_
  · refine Moves.step (resetAllPaths_moves ..) rfl ?_
    refine Moves.upd rfl (fun p => by cases p; (case bw => exact Or.inl ⟨rfl, fun _ _ => trivial⟩); all_goals exact Or.inr rfl) ?_
    exact Moves.refl _
  · exact Moves.refl _

theorem execHousekeepingFrame_ends (h : BwHeader) (sums : List (Fin 24 × ℕ)) (missed : Bool) (s : State) : Ends
    [.recov, .bw, .fd, .ch, .ev, .img, .port, .conv, .gov] s (execHousekeepingFrame h sums missed s) := by
  unfold execHousekeepingFrame
  refine ⟨_, rfl, ?_⟩
  refine Moves.step (bwTakeRetx_moves (ps := [.recov, .bw, .fd, .ch, .ev, .img, .port, .conv, .gov]) (hc := rfl)
    (hf3 := fun y1_0 y1_1 => ?_) ..) (covers_refl _) ?_
  · split
    · exact (takeSums_moves ..).widen rfl
    · exact Moves.refl _
  · exact (formHk_moves ..).widen rfl

theorem execMainResult_ends (p : PathIx) (s : State) : Ends [.ch, .ev, .img, .port, .conv, .loop] s (execMainResult p s) := by
  unfold execMainResult
  refine ⟨_, rfl, ?_⟩
  split
  · exact Moves.refl _
  · extract_lets +onlyGivenNames x1
    have h1 : Moves [.ch, .ev, .img, .port, .conv, .loop] s x1 := Moves.step (gather_moves ..) rfl
      (Moves.step (takeOutput_moves ..) rfl ((State.modPath_moves ..).widen rfl))
    clear_value x1
    exact Moves.ite (fun _ => Moves.step (judgeNe43_moves ..) rfl h1) fun _ => h1

theorem execShortfall_ends (n : Chan) (s : State) : Ends [.fd] s (execShortfall n s) :=
  ⟨_, rfl, onField_moves (ps := [.fd]) (hf3 := fun _ => (report_moves ..).widen rfl) ..⟩

theorem execExcess_ends (n : Chan) (s : State) : Ends [.fd] s (execExcess n s) :=
  ⟨_, rfl, onField_moves (ps := [.fd]) (hf3 := fun _ => (report_moves ..).widen rfl) ..⟩

theorem execComplianceClear_ends (n : Chan) (s : State) : Ends [.fd] s (execComplianceClear n s) :=
  ⟨_, rfl, onField_moves (ps := [.fd]) (hf3 := fun _ => Moves.step (reportStatus_moves ..) rfl ((reportStatus_moves ..).widen rfl)) ..⟩

theorem execAoOpen_ends (n : Chan) (s : State) : Ends [.fd] s (execAoOpen n s) :=
  ⟨_, rfl, onField_moves (ps := [.fd]) (hf3 := fun _ => (report_moves ..).widen rfl) ..⟩

theorem execLoopResistanceEstimate_ends (n : Chan) (s : State) : Ends [.free, .loop] s (execLoopResistanceEstimate n s) := by
  unfold execLoopResistanceEstimate
  refine ⟨_, rfl, ?_⟩
  refine Moves.ite (fun _ => ?_) fun _ => ?_
  · extract_lets +onlyGivenNames x1
    refine Moves.step (State.modLoop_moves ..) rfl ?_
    exact (loopR_moves ..).widen rfl
  · exact Moves.refl _

theorem execAlmRisk_ends (n : Chan) (risk : Bool) (s : State) : Ends [.ev, .img, .port, .loop] s (execAlmRisk n risk s) := by
  unfold execAlmRisk
  refine ⟨_, rfl, ?_⟩
  refine Moves.ite (fun _ => ?_) fun _ => ?_
  · extract_lets +onlyGivenNames x1
    have h1 : Moves [.ev, .img, .port, .loop] s x1 := (State.modLoop_moves ..).widen rfl
    clear_value x1
    exact Moves.step (putCommands_moves ..) rfl (Moves.ite (fun _ => Moves.step (raiseMeasure_moves ..) rfl h1) fun _ => h1)
  · exact Moves.refl _

theorem execDacRecompute_ends (n : Chan) (s : State) : Ends [.bw, .ch, .ev, .img, .port, .conv] s (execDacRecompute n s) := by
  unfold execDacRecompute
  refine ⟨_, rfl, ?_⟩
  refine Moves.ite (fun _ => ?_) fun _ => ?_
  · extract_lets +onlyGivenNames x1
    have h1 : Moves [.bw, .ch, .ev, .img, .port, .conv] s x1 := (putDac_moves ..).widen rfl
    clear_value x1
    exact Moves.ite (fun _ => h1) fun _ => Moves.step (command_moves ..) rfl h1
  · exact Moves.refl _

theorem execButtonPress_ends (zero : Bool) (ended : Bool) (ms : ℕ) (both : Bool) (s : State) : Ends [.fd] s
    (execButtonPress zero ended ms both s) :=
  ⟨_, rfl, (reportStatus_moves ..).widen rfl⟩

theorem execTrimledTimer_ends (s : State) : Ends [.trim, .pins] s (execTrimledTimer s) := by
  unfold execTrimledTimer
  refine ⟨_, rfl, ?_⟩
  refine Moves.ite (fun _ => ?_) fun _ => ?_
  · refine Moves.upd rfl (fun p => by
        cases p
        case trim | pins => exact Or.inl ⟨rfl, fun _ _ => trivial⟩
        all_goals exact Or.inr rfl) ?_
    exact Moves.refl _
  · split
    · exact Moves.refl _
    · refine Moves.upd rfl (fun p => by
          cases p
          case trim | pins => exact Or.inl ⟨rfl, fun _ _ => trivial⟩
          all_goals exact Or.inr rfl) ?_
      exact Moves.refl _
    · refine Moves.ite (fun _ => ?_) fun _ => ?_
      · refine Moves.upd rfl (fun p => by
            cases p
            case trim | pins => exact Or.inl ⟨rfl, fun _ _ => trivial⟩
            all_goals exact Or.inr rfl) ?_
        exact Moves.refl _
      · refine Moves.upd rfl (fun p => by
            cases p
            case trim | pins => exact Or.inl ⟨rfl, fun _ _ => trivial⟩
            all_goals exact Or.inr rfl) ?_
        exact Moves.refl _
    · exact (ledResume_moves ..).widen rfl
    · exact (ledResume_moves ..).widen rfl
    · refine Moves.ite (fun _ => ?_) fun _ => ?_
      · exact (ledResume_moves ..).widen rfl
      · refine Moves.upd rfl (fun p => by
            cases p
            case trim | pins => exact Or.inl ⟨rfl, fun _ _ => trivial⟩
            all_goals exact Or.inr rfl) ?_
        exact Moves.refl _

theorem execHartPollDue_ends (n : Chan) (poll : BitVec 4) (s : State) : Ends [.hart] s (execHartPollDue n poll s) :=
  ⟨_, rfl, Moves.ite (fun _ => (readyPoll_moves ..).widen rfl) fun _ => Moves.refl _⟩

theorem execHartSearch_ends (n : Chan) (poll : BitVec 4) (s : State) : Ends [.hart] s (execHartSearch n poll s) :=
  ⟨_, rfl, Moves.ite (fun _ => (readyPoll_moves ..).widen rfl) fun _ => Moves.refl _⟩

theorem execHartTransactionStart_ends (modem : Fin 4) (s : State) : Ends [.mbx, .img, .loop, .hart] s (execHartTransactionStart modem s) :=
    by
  unfold execHartTransactionStart
  refine ⟨_, rfl, ?_⟩
  refine Moves.ite (fun _ => ?_) fun _ => ?_
  · exact Moves.refl _
  · split
    · refine Moves.step (startTxn_moves ..) rfl ?_
      refine Moves.upd rfl (fun p => by cases p; (case hart => exact Or.inl ⟨rfl, fun _ _ => trivial⟩); all_goals exact Or.inr rfl) ?_
      exact Moves.refl _
    · split
      · exact Moves.refl _
      · refine Moves.step (startTxn_moves ..) rfl ?_
        refine Moves.upd rfl (fun p => by cases p; (case hart => exact Or.inl ⟨rfl, fun _ _ => trivial⟩); all_goals exact Or.inr rfl) ?_
        exact Moves.refl _

theorem execHartResponse_ends (modem : Fin 4) (r : HartFrame) (s : State) : Ends [.ev, .mbx, .img, .port, .loop, .hart] s
    (execHartResponse modem r s) := by
  unfold execHartResponse
  refine ⟨_, rfl, ?_⟩
  split
  · exact Moves.refl _
  · extract_lets +onlyGivenNames x1
    refine Moves.ite (fun _ => ?_) fun _ => ?_
    · exact (hartFail_moves ..).widen rfl
    · refine Moves.ite (fun _ => ?_) fun _ => ?_
      · exact Moves.step (hartFail_moves ..) rfl ((State.modLoop_moves ..).widen rfl)
      · extract_lets +onlyGivenNames x2
        have h2 : Moves [.ev, .mbx, .img, .port, .loop, .hart] s x2 := Moves.step (State.modLoop_moves ..) rfl
          ((modemFree_moves ..).widen rfl)
        clear_value x2
        split
        · exact Moves.step (putHartChan_moves ..) rfl (Moves.step (modDev_moves ..) rfl h2)
        · extract_lets +onlyGivenNames x3
          extract_lets +onlyGivenNames x4
          extract_lets +onlyGivenNames x5
          have h5 : Moves [.ev, .mbx, .img, .port, .loop, .hart] s x5 := Moves.step (hartPeriods_moves ..) rfl
            (Moves.step (putHartChan_moves ..) rfl (Moves.step (modDev_moves ..) rfl h2))
          clear_value x5
          extract_lets +onlyGivenNames x6
          have h6 : Moves [.ev, .mbx, .img, .port, .loop, .hart] s x6 := Moves.step (raiseMeasure_moves ..) rfl h5
          clear_value x6
          exact Moves.ite (fun _ => Moves.step (raiseMeasure_moves ..) rfl h6) fun _ => h6
        · extract_lets +onlyGivenNames x7
          extract_lets +onlyGivenNames x8
          have h8 : Moves [.ev, .mbx, .img, .port, .loop, .hart] s x8 := Moves.step (mbxReturn_moves ..) rfl h2
          clear_value x8
          extract_lets +onlyGivenNames x9
          have h9 : Moves [.ev, .mbx, .img, .port, .loop, .hart] s x9 := Moves.step (mbxEnd_moves ..) rfl
            (Moves.step (returnBytes_moves ..) rfl h8)
          clear_value x9
          exact Moves.ite (fun _ => Moves.step (readyPoll_moves ..) rfl h9) fun _ => h9

theorem execHartTimeout_ends (modem : Fin 4) (s : State) : Ends [.ev, .mbx, .img, .port, .loop, .hart] s (execHartTimeout modem s) := by
  unfold execHartTimeout
  refine ⟨_, rfl, ?_⟩
  split
  · exact Moves.refl _
  · exact (hartFail_moves ..).widen rfl

theorem execHartBurst_ends (n : Chan) (s : State) : Ends [.loop] s (execHartBurst n s) :=
  ⟨_, rfl, Moves.ite (fun _ => (State.modLoop_moves ..).widen rfl) fun _ => Moves.refl _⟩

theorem execHartModemSelftest_ends (modem : Fin 4) (pass : Bool) (s : State) : Ends [.ev, .mbx, .img, .port, .hart] s
    (execHartModemSelftest modem pass s) := by
  unfold execHartModemSelftest
  refine ⟨_, rfl, ?_⟩
  refine Moves.ite (fun _ => ?_) fun _ => ?_
  · exact Moves.refl _
  · extract_lets +onlyGivenNames _ x1
    have h1 : Moves [.ev, .mbx, .img, .port, .hart] s x1 := by
      unfold x1
      refine Moves.upd rfl (fun p => by cases p; (case hart => exact Or.inl ⟨rfl, fun _ _ => trivial⟩); all_goals exact Or.inr rfl) ?_
      exact Moves.refl _
    clear_value x1
    extract_lets +onlyGivenNames x2
    have h2 : Moves [.ev, .mbx, .img, .port, .hart] s x2 := Moves.step (raise_moves ..) rfl h1
    clear_value x2
    exact Moves.ite (fun _ => h2) fun _ => Moves.step (hartHalt_moves ..) rfl h2

theorem execLogicReset_ends (c : ResetCause) (s : State) : Ends (partsBut [.pending, .free, .tick, .flash, .mirror, .otp]) s
    (execLogicReset c s) := by
  unfold execLogicReset
  refine ⟨_, rfl, ?_⟩
  split
  · exact (logicReset_moves ..).widen rfl
  · refine Moves.ite (fun _ => ?_) fun _ => ?_
    · refine Moves.upd rfl (fun p => by
          cases p
          case recov => exact Or.inl ⟨rfl, fun _ h => h .recov⟩
          all_goals exact Or.inr rfl) ?_
      exact Moves.refl _
    · exact (logicReset_moves ..).widen rfl

theorem execStart_ends (lanemode : Bool) (hcompat : Bool) (boot : BitVec 2) (rstValid : Bool) (logValid : Bool) (s : State) : Ends
    [.straps, .m, .recov, .ev, .port] s (execStart lanemode hcompat boot rstValid logValid s) := by
  unfold execStart
  refine ⟨_, rfl, ?_⟩
  refine Moves.ite (fun _ => ?_) fun _ => ?_
  · exact Moves.refl _
  · extract_lets +onlyGivenNames x1
    extract_lets +onlyGivenNames x2
    extract_lets +onlyGivenNames x3
    extract_lets +onlyGivenNames _ _ x4
    have h4 : Moves [.straps, .m, .recov, .ev, .port] s x4 := by
      unfold x4
      refine Moves.upd rfl (fun p => by
          cases p
          case straps | m => exact Or.inl ⟨rfl, fun _ _ => trivial⟩
          case recov => exact Or.inl ⟨rfl, fun _ h => by unfold Part.sound; dsimp only [x2]; split <;> exact h .recov⟩
          case ev => exact Or.inl ⟨rfl, fun _ h => by unfold Part.sound; dsimp only; split; exacts [h .ev, ⟨(h .ev).1, Nat.zero_le _⟩]⟩
          all_goals exact Or.inr rfl) ?_
      exact Moves.refl _
    clear_value x4
    exact Moves.ite (fun _ => h4) fun _ => Moves.step (raise_moves ..) rfl h4

theorem execClockWaitTimeout_ends (s : State) : Ends [.ev, .port] s (execClockWaitTimeout s) :=
  ⟨_, rfl, Moves.ite (fun _ => (raise_moves ..).widen rfl) fun _ => Moves.refl _⟩

theorem execClocksValid_ends (s : State) : Ends [.tick, .clk, .m, .boot, .recov, .mem] s (execClocksValid s) := by
  unfold execClocksValid
  refine ⟨_, rfl, ?_⟩
  refine Moves.ite (fun _ => ?_) fun _ => ?_
  · exact Moves.refl _
  · extract_lets +onlyGivenNames _ _ x1
    have h1 : Moves [.tick, .clk, .m, .boot, .recov, .mem] s x1 := by
      unfold x1
      refine Moves.step (retick_moves ..) rfl ?_
      refine Moves.upd rfl (fun p => by
          cases p
          case clk => exact Or.inl ⟨rfl, fun _ _ => trivial⟩
          case mem => exact Or.inl ⟨rfl, fun _ h => h .mem⟩
          all_goals exact Or.inr rfl) ?_
      exact Moves.refl _
    clear_value x1
    split
    · refine Moves.upd rfl (fun p => by cases p; (case m => exact Or.inl ⟨rfl, fun _ _ => trivial⟩); all_goals exact Or.inr rfl) ?_
      exact h1
    · refine Moves.upd rfl (fun p => by
          cases p
          case m | boot => exact Or.inl ⟨rfl, fun _ _ => trivial⟩
          case mem => exact Or.inl ⟨rfl, fun _ h => h .mem⟩
          all_goals exact Or.inr rfl) ?_
      exact h1

theorem execExecutiveLoaded_ends (startCheck : StartCheck) (s : State) : Ends
    (partsBut [.pending, .tick, .straps, .clk, .held, .mirror, .otp, .time, .host, .mem, .chk]) s (execExecutiveLoaded startCheck s) := by
  unfold execExecutiveLoaded
  refine ⟨_, rfl, ?_⟩
  split
  · exact Moves.refl _
  · refine Moves.ite (fun _ => ?_) fun _ => ?_
    · exact Moves.refl _
    · split
      · refine Moves.upd rfl (fun p => by
            cases p
            case m | boot => exact Or.inl ⟨rfl, fun _ _ => trivial⟩
            all_goals exact Or.inr rfl) ?_
        exact Moves.refl _
      · extract_lets +onlyGivenNames x1
        extract_lets +onlyGivenNames x2
        have k2 : Sound s → TriadOk x2 := fun h => startCheckRun_ok (h .triad) ..
        extract_lets +onlyGivenNames _ x3
        have h3 : Moves (partsBut [.pending, .tick, .straps, .clk, .held, .mirror, .otp, .time, .host, .mem, .chk]) s x3 := by
          unfold x3
          refine Moves.upd rfl (fun p => by
              cases p
              case boot => exact Or.inl ⟨rfl, fun _ _ => trivial⟩
              case triad => exact Or.inl ⟨rfl, fun _ h => startCheckRun_ok (h .triad) ..⟩
              all_goals exact Or.inr rfl) ?_
          exact Moves.refl _
        clear_value x3
        refine Moves.ite (fun _ => ?_) fun _ => ?_
        · refine Moves.upd rfl (fun p => by
              cases p
              case m => exact Or.inl ⟨rfl, fun _ _ => trivial⟩
              case triad => exact Or.inl ⟨rfl, fun h _ => k2 h⟩
              all_goals exact Or.inr rfl) ?_
          exact h3
        · extract_lets +onlyGivenNames _ _ _ x4
          have h4 : Moves (partsBut [.pending, .tick, .straps, .clk, .held, .mirror, .otp, .time, .host, .mem, .chk]) s x4 := by
            unfold x4
            refine Moves.upd rfl (fun p => by
                cases p
                case m | boot => exact Or.inl ⟨rfl, fun _ _ => trivial⟩
                case triad => exact Or.inl ⟨rfl, fun h _ => k2 h⟩
                case recov => exact Or.inl ⟨rfl, fun _ h => ⟨(h .recov).1, swf_swriteList (swf_nil _) ..⟩⟩
                all_goals exact Or.inr rfl) ?_
            exact h3
          clear_value x4
          exact Moves.step (takeBuffered_moves ..) rfl (Moves.step (raiseDeferred_moves ..) rfl (Moves.step (startLog_moves ..) rfl h4))

theorem execXinFailure_ends (f : ClockFault) (s : State) : Ends [.clk] s (execXinFailure f s) := by
  unfold execXinFailure
  refine ⟨_, rfl, ?_⟩
  refine Moves.ite (fun _ => ?_) fun _ => ?_
  · exact Moves.refl _
  · extract_lets +onlyGivenNames _ x1
    have h1 : Moves [.clk] s x1 := by
      unfold x1
      refine Moves.upd rfl (fun p => by cases p; (case clk => exact Or.inl ⟨rfl, fun _ _ => trivial⟩); all_goals exact Or.inr rfl) ?_
      exact Moves.refl _
    clear_value x1
    refine Moves.ite (fun _ => ?_) fun _ => ?_
    · exact h1
    · refine Moves.upd rfl (fun p => by cases p; (case clk => exact Or.inl ⟨rfl, fun _ _ => trivial⟩); all_goals exact Or.inr rfl) ?_
      exact h1

theorem execMonitorRelock_ends (s : State) : Ends [.clk, .m, .triad, .recov, .bw, .fd, .ch, .ev, .mbx, .img, .port, .conv, .loop, .trim,
    .wheel, .rul, .pins] s (execMonitorRelock s) := by
  unfold execMonitorRelock
  refine ⟨_, rfl, ?_⟩
  refine Moves.ite (fun _ => ?_) fun _ => ?_
  · exact Moves.refl _
  · extract_lets +onlyGivenNames _ x1
    have h1 : Moves [.clk, .m, .triad, .recov, .bw, .fd, .ch, .ev, .mbx, .img, .port, .conv, .loop, .trim, .wheel, .rul, .pins] s x1 := by
      unfold x1
      refine Moves.upd rfl (fun p => by cases p; (case clk => exact Or.inl ⟨rfl, fun _ _ => trivial⟩); all_goals exact Or.inr rfl) ?_
      exact Moves.refl _
    clear_value x1
    extract_lets +onlyGivenNames x2
    have h2 : Moves [.clk, .m, .triad, .recov, .bw, .fd, .ch, .ev, .mbx, .img, .port, .conv, .loop, .trim, .wheel, .rul, .pins] s x2 :=
      Moves.step (portsDown_moves ..) rfl (Moves.step (enterSafe_moves ..) rfl h1)
    clear_value x2
    extract_lets +onlyGivenNames x3
    have h3 : Moves [.clk, .m, .triad, .recov, .bw, .fd, .ch, .ev, .mbx, .img, .port, .conv, .loop, .trim, .wheel, .rul, .pins] s x3 :=
      Moves.foldl (fun _ _ => (wheelLost_moves ..).widen rfl) h2
    clear_value x3
    exact Moves.step (raise_moves ..) rfl h3

theorem execClockReset_ends (s : State) : Ends (partsBut [.pending, .free, .tick, .flash, .mirror, .otp]) s (execClockReset s) := by
  unfold execClockReset
  refine ⟨_, rfl, ?_⟩
  refine Moves.ite (fun _ => ?_) fun _ => ?_
  · exact Moves.refl _
  · extract_lets +onlyGivenNames x1
    have h1 : Moves (partsBut [.pending, .free, .tick, .flash, .mirror, .otp]) s x1 := (logicReset_moves ..).widen rfl
    clear_value x1
    refine Moves.upd rfl (fun p => by
        cases p
        case m => exact Or.inl ⟨rfl, fun _ _ => trivial⟩
        case ev => exact Or.inl ⟨rfl, fun _ h => h .ev⟩
        all_goals exact Or.inr rfl) ?_
    exact h1

theorem execXinRestored_ends (s : State) : Ends [.clk, .m] s (execXinRestored s) := by
  unfold execXinRestored
  refine ⟨_, rfl, ?_⟩
  refine Moves.ite (fun _ => ?_) fun _ => ?_
  · refine Moves.upd rfl (fun p => by cases p; (case m => exact Or.inl ⟨rfl, fun _ _ => trivial⟩); all_goals exact Or.inr rfl) ?_
    exact Moves.refl _
  · refine Moves.ite (fun _ => ?_) fun _ => ?_
    · refine Moves.upd rfl (fun p => by cases p; (case clk => exact Or.inl ⟨rfl, fun _ _ => trivial⟩); all_goals exact Or.inr rfl) ?_
      exact Moves.refl _
    · refine Moves.ite (fun _ => ?_) fun _ => ?_
      · refine Moves.upd rfl (fun p => by cases p; (case clk => exact Or.inl ⟨rfl, fun _ _ => trivial⟩); all_goals exact Or.inr rfl) ?_
        exact Moves.refl _
      · exact Moves.refl _

theorem execMicrocodeAccepted_ends (x : StartMeasure) (s : State) : Ends
    (partsBut [.pending, .straps, .held, .mirror, .otp, .hart, .gov, .time, .host, .chk, .enrol]) s (execMicrocodeAccepted x s) := by
  unfold execMicrocodeAccepted
  refine ⟨_, rfl, ?_⟩
  split
  · refine Moves.ite (fun _ => ?_) fun _ => ?_
    · exact Moves.refl _
    · split
      · exact Moves.ite (fun _ => Moves.step (startConfig_moves ..) rfl ((takeUcode_moves ..).widen rfl)) fun _ =>
          (startNoUcode_moves ..).widen rfl
      · exact (startNoUcode_moves ..).widen rfl
  · exact Moves.refl _

theorem execStagingFilled_ends (s : State) : Ends [.recov, .ev, .mbx, .port] s (execStagingFilled s) := by
  unfold execStagingFilled
  refine ⟨_, rfl, ?_⟩
  split
  · exact Moves.refl _
  · refine Moves.ite (fun _ => ?_) fun _ => ?_
    · exact Moves.refl _
    · extract_lets +onlyGivenNames x1
      extract_lets +onlyGivenNames _ x2
      have h2 : Moves [.recov, .ev, .mbx, .port] s x2 := by
        unfold x2
        refine Moves.upd rfl (fun p => by
            cases p
            case recov => exact Or.inl ⟨rfl, fun _ h => ⟨swf_sclear (h .recov).1 .., (h .recov).2⟩⟩
            all_goals exact Or.inr rfl) ?_
        exact Moves.refl _
      clear_value x2
      exact Moves.step (mbxEnd_moves ..) rfl (Moves.step (setStage_moves ..) rfl h2)

theorem execStageOpen_ends (slot : SlotIx) (tag : W16) (s : State) : Ends [.recov, .mbx, .held] s (execStageOpen slot tag s) :=
  ⟨_, rfl, mbxServed_moves (ps := [.recov, .mbx, .held]) (hc := rfl) (hf4 := fun _ _ _ => (runStageOpen_moves ..).widen rfl) ..⟩

theorem execStageCommit_ends (slot : SlotIx) (tag : W16) (s : State) : Ends [.free, .boot, .recov, .ev, .mbx, .held, .port, .flash] s
    (execStageCommit slot tag s) :=
  ⟨_, rfl, mbxServed_moves (ps := [.free, .boot, .recov, .ev, .mbx, .held, .port, .flash]) (hc := rfl)
    (hf4 := fun _ _ _ => (runStageCommit_moves ..).widen rfl) ..⟩

theorem execStageAbort_ends (slot : SlotIx) (tag : W16) (s : State) : Ends [.recov, .ev, .mbx, .held, .port] s (execStageAbort slot tag s)
    :=
  ⟨_, rfl, mbxServed_moves (ps := [.recov, .ev, .mbx, .held, .port]) (hc := rfl) (hf4 := fun _ _ _ => (runStageAbort_moves ..).widen rfl)
    ..⟩

theorem execWriteConfig_ends (slot : SlotIx) (tag : W16) (s : State) : Ends [.free, .boot, .recov, .ev, .mbx, .held, .port, .flash] s
    (execWriteConfig slot tag s) :=
  ⟨_, rfl, mbxServed_moves (ps := [.free, .boot, .recov, .ev, .mbx, .held, .port, .flash]) (hc := rfl)
    (hf4 := fun _ _ _ => (runWriteConfig_moves ..).widen rfl) ..⟩

theorem execNop_ends (slot : SlotIx) (tag : W16) (s : State) : Ends [.mbx, .held] s (execNop slot tag s) :=
  ⟨_, rfl, mbxServed_moves (ps := [.mbx, .held]) (hc := rfl) (hf4 := fun _ _ _ => (runNop_moves ..).widen rfl) ..⟩

theorem execFence_ends (slot : SlotIx) (tag : W16) (s : State) : Ends [.mbx, .img, .held, .port] s (execFence slot tag s) :=
  ⟨_, rfl, mbxServed_moves (ps := [.mbx, .img, .held, .port]) (hc := rfl) (hf4 := fun _ _ _ => (runFence_moves ..).widen rfl) ..⟩

theorem execRequestPowerCycle_ends (slot : SlotIx) (tag : W16) (s : State) : Ends [.recov, .ev, .mbx, .held, .flash] s
    (execRequestPowerCycle slot tag s) :=
  ⟨_, rfl, mbxServed_moves (ps := [.recov, .ev, .mbx, .held, .flash]) (hc := rfl)
    (hf4 := fun _ _ _ => (runRequestPowerCycle_moves ..).widen rfl) ..⟩

theorem execPcycAssert_ends (s : State) : Ends [.recov] s (execPcycAssert s) := by
  unfold execPcycAssert
  refine ⟨_, rfl, ?_⟩
  refine Moves.ite (fun _ => ?_) fun _ => ?_
  · refine Moves.upd rfl (fun p => by
        cases p
        case recov => exact Or.inl ⟨rfl, fun _ h => h .recov⟩
        all_goals exact Or.inr rfl) ?_
    exact Moves.refl _
  · exact Moves.refl _

theorem execRetireChannel_ends (slot : SlotIx) (tag : W16) (s : State) : Ends
    [.free, .m, .triad, .bw, .ch, .ev, .mbx, .img, .held, .port, .conv, .loop, .trim, .hart, .rul, .pins, .enrol] s
    (execRetireChannel slot tag s) :=
  ⟨_, rfl, mbxServed_moves (ps := [.free, .m, .triad, .bw, .ch, .ev, .mbx, .img, .held, .port, .conv, .loop, .trim, .hart, .rul, .pins,
    .enrol]) (hc := rfl) (hf4 := fun _ _ _ => (runRetireChannel_moves ..).widen rfl) ..⟩

theorem execReturnChannel_ends (slot : SlotIx) (tag : W16) (s : State) : Ends
    [.free, .m, .triad, .bw, .ch, .ev, .mbx, .img, .held, .port, .conv, .loop, .trim, .gov, .rul, .pins, .enrol] s
    (execReturnChannel slot tag s) :=
  ⟨_, rfl, mbxServed_moves (ps := [.free, .m, .triad, .bw, .ch, .ev, .mbx, .img, .held, .port, .conv, .loop, .trim, .gov, .rul, .pins,
    .enrol]) (hc := rfl) (hf4 := fun _ _ _ => (runReturnChannel_moves ..).widen rfl) ..⟩

theorem execMapSpare_ends (slot : SlotIx) (tag : W16) (s : State) : Ends [.ch, .mbx, .held] s (execMapSpare slot tag s) :=
  ⟨_, rfl, mbxServed_moves (ps := [.ch, .mbx, .held]) (hc := rfl) (hf4 := fun _ _ _ => (runMapSpare_moves ..).widen rfl) ..⟩

theorem execTrimZero_ends (slot : SlotIx) (tag : W16) (s : State) : Ends [.free, .ev, .mbx, .held, .port, .conv, .trim, .pins] s
    (execTrimZero slot tag s) :=
  ⟨_, rfl, mbxServed_moves (ps := [.free, .ev, .mbx, .held, .port, .conv, .trim, .pins]) (hc := rfl)
    (hf4 := fun _ _ _ => (runTrimZero_moves ..).widen rfl) ..⟩

theorem execTrimSpan_ends (slot : SlotIx) (tag : W16) (s : State) : Ends [.free, .ev, .mbx, .held, .port, .conv, .trim, .pins] s
    (execTrimSpan slot tag s) :=
  ⟨_, rfl, mbxServed_moves (ps := [.free, .ev, .mbx, .held, .port, .conv, .trim, .pins]) (hc := rfl)
    (hf4 := fun _ _ _ => (runTrimSpan_moves ..).widen rfl) ..⟩

theorem execTrimCaptureComplete_ends (n : Chan) (written : Bool) (s : State) : Ends
    [.free, .boot, .ev, .mbx, .port, .flash, .conv, .trim, .pins] s (execTrimCaptureComplete n written s) := by
  unfold execTrimCaptureComplete
  refine ⟨_, rfl, ?_⟩
  split
  · exact Moves.ite (fun _ => (trimComplete_moves ..).widen rfl) fun _ => Moves.refl _
  · exact Moves.refl _

theorem execRestoreFactory_ends (slot : SlotIx) (tag : W16) (s : State) : Ends [.boot, .ev, .mbx, .held, .port, .flash, .conv] s
    (execRestoreFactory slot tag s) :=
  ⟨_, rfl, mbxServed_moves (ps := [.boot, .ev, .mbx, .held, .port, .flash, .conv]) (hc := rfl)
    (hf4 := fun _ _ _ => (runRestoreFactory_moves ..).widen rfl) ..⟩

theorem execEnrolSignature_ends (slot : SlotIx) (tag : W16) (s : State) : Ends [.free, .ch, .ev, .mbx, .img, .held, .port, .enrol] s
    (execEnrolSignature slot tag s) :=
  ⟨_, rfl, mbxServed_moves (ps := [.free, .ch, .ev, .mbx, .img, .held, .port, .enrol]) (hc := rfl)
    (hf4 := fun _ _ _ => (runEnrolSignature_moves ..).widen rfl) ..⟩

theorem execEnrolComplete_ends (n : Chan) (i : W32) (v : W32) (tj : W32) (written : Bool) (s : State) : Ends
    [.boot, .ch, .mbx, .flash, .enrol] s (execEnrolComplete n i v tj written s) := by
  unfold execEnrolComplete
  refine ⟨_, rfl, ?_⟩
  split
  · exact Moves.refl _
  · refine Moves.ite (fun _ => ?_) fun _ => ?_
    · exact Moves.refl _
    · extract_lets +onlyGivenNames x1
      have h1 : Moves [.boot, .ch, .mbx, .flash, .enrol] s x1 := by
        unfold x1
        refine Moves.upd rfl (fun p => by
            cases p
            case enrol => exact Or.inl ⟨rfl, fun _ _ => trivial⟩
            all_goals exact Or.inr rfl) ?_
        exact Moves.refl _
      clear_value x1
      extract_lets +onlyGivenNames x2
      refine Moves.ite (fun _ => ?_) fun _ => ?_
      · exact Moves.step (mbxEnd_moves ..) rfl h1
      · refine Moves.ite (fun _ => ?_) fun _ => ?_
        · exact Moves.step (mbxEnd_moves ..) rfl h1
        · extract_lets +onlyGivenNames x3
          extract_lets +onlyGivenNames x4
          refine Moves.ite (fun _ => ?_) fun _ => ?_
          · exact Moves.step (mbxEnd_moves ..) rfl h1
          · refine Moves.ite (fun _ => ?_) fun _ => ?_
            · exact Moves.step (mbxEnd_moves ..) rfl h1
            · extract_lets +onlyGivenNames x5
              extract_lets +onlyGivenNames x6
              have h6 : Moves [.boot, .ch, .mbx, .flash, .enrol] s x6 := Moves.step (recordSignature_moves ..) rfl h1
              clear_value x6
              exact Moves.step (mbxEnd_moves ..) rfl (Moves.step (mbxReturn_moves ..) rfl
                (Moves.step (mbxReturn_moves ..) rfl (Moves.step (mbxReturn_moves ..) rfl h6)))

theorem execForceSafe_ends (slot : SlotIx) (tag : W16) (s : State) : Ends
    [.m, .triad, .recov, .bw, .fd, .ch, .ev, .mbx, .img, .held, .port, .conv, .loop, .trim, .wheel, .rul, .pins] s
    (execForceSafe slot tag s) :=
  ⟨_, rfl, mbxServed_moves (ps := [.m, .triad, .recov, .bw, .fd, .ch, .ev, .mbx, .img, .held, .port, .conv, .loop, .trim, .wheel, .rul,
    .pins]) (hc := rfl) (hf4 := fun _ _ _ => (runForceSafe_moves ..).widen rfl) ..⟩

theorem execLeaveSafe_ends (slot : SlotIx) (tag : W16) (s : State) : Ends [.m, .mbx, .held] s (execLeaveSafe slot tag s) :=
  ⟨_, rfl, mbxServed_moves (ps := [.m, .mbx, .held]) (hc := rfl) (hf4 := fun _ _ _ => (runLeaveSafe_moves ..).widen rfl) ..⟩

theorem execEnterTrim_ends (slot : SlotIx) (tag : W16) (s : State) : Ends
    [.m, .triad, .bw, .ch, .ev, .mbx, .img, .held, .port, .conv, .loop, .trim, .rul, .pins] s (execEnterTrim slot tag s) :=
  ⟨_, rfl, mbxServed_moves (ps := [.m, .triad, .bw, .ch, .ev, .mbx, .img, .held, .port, .conv, .loop, .trim, .rul, .pins]) (hc := rfl)
    (hf4 := fun _ _ _ => (runEnterTrim_moves ..).widen rfl) ..⟩

theorem execLeaveTrim_ends (slot : SlotIx) (tag : W16) (s : State) : Ends [.m, .mbx, .held] s (execLeaveTrim slot tag s) :=
  ⟨_, rfl, mbxServed_moves (ps := [.m, .mbx, .held]) (hc := rfl) (hf4 := fun _ _ _ => (runLeaveTrim_moves ..).widen rfl) ..⟩

theorem execHartPass_ends (slot : SlotIx) (tag : W16) (s : State) : Ends [.mbx, .held, .hart] s (execHartPass slot tag s) :=
  ⟨_, rfl, mbxServed_moves (ps := [.mbx, .held, .hart]) (hc := rfl) (hf4 := fun _ _ _ => (runHartPass_moves ..).widen rfl) ..⟩

theorem execReinitComplete_ends (func : BitVec 5) (s : State) : Ends [.m, .recov, .bw, .ch, .ev, .mbx, .img, .held, .port, .conv, .loop,
    .hart, .wheel, .rul, .host, .mem, .chk] s (execReinitComplete func s) := by
  unfold execReinitComplete
  refine ⟨_, rfl, ?_⟩
  split
  · exact Moves.refl _
  · refine Moves.ite (fun _ => ?_) fun _ => ?_
    · exact Moves.refl _
    · refine Moves.ite (fun _ => ?_) fun _ => ?_
      · refine Moves.upd rfl (fun p => by cases p; (case bw => exact Or.inl ⟨rfl, fun _ _ => trivial⟩); all_goals exact Or.inr rfl) ?_
        exact Moves.refl _
      · extract_lets +onlyGivenNames _ x1
        have h1 : Moves [.m, .recov, .bw, .ch, .ev, .mbx, .img, .held, .port, .conv, .loop, .hart, .wheel, .rul, .host, .mem, .chk] s x1 :=
          by
          unfold x1
          refine Moves.step (finishReinit_moves ..) rfl ?_
          refine Moves.upd rfl (fun p => by
              cases p
              case recov => exact Or.inl ⟨rfl, fun _ h => h .recov⟩
              all_goals exact Or.inr rfl) ?_
          exact Moves.refl _
        clear_value x1
        split
        · exact Moves.step (mbxEnd_moves ..) rfl h1
        · exact h1

theorem execReinit_ends (slot : SlotIx) (tag : W16) (s : State) : Ends
    (partsBut [.pending, .tick, .straps, .clk, .m, .triad, .fd, .otp, .trim, .time, .host, .chk, .pins]) s (execReinit slot tag s) :=
  ⟨_, rfl, mbxServed_moves (ps := (partsBut [.pending, .tick, .straps, .clk, .m, .triad, .fd, .otp, .trim, .time, .host, .chk, .pins]))
    (hc := rfl) (hf4 := fun _ _ _ => (runReinit_moves ..).widen rfl) ..⟩

theorem execResetDevice_ends (slot : SlotIx) (tag : W16) (s : State) : Ends (partsBut [.pending, .free, .tick, .flash, .mirror, .otp]) s
    (execResetDevice slot tag s) :=
  ⟨_, rfl, mbxServed_moves (ps := (partsBut [.pending, .free, .tick, .flash, .mirror, .otp])) (hc := rfl)
    (hf4 := fun _ _ _ => (runResetDevice_moves ..).widen rfl) ..⟩

theorem execWatchdog_ends (k : Fin 8) (func : BitVec 5) (s : State) : Ends (partsBut [.pending, .tick, .otp]) s (execWatchdog k func s) :=
  ⟨_, rfl, (wdExpire_moves ..).widen rfl⟩

theorem execRuleOverrun_ends (s : State) : Ends (partsBut [.pending, .tick, .otp]) s (execRuleOverrun s) := by
  unfold execRuleOverrun
  refine ⟨_, rfl, ?_⟩
  refine Moves.ite (fun _ => ?_) fun _ => ?_
  · exact Moves.refl _
  · extract_lets +onlyGivenNames x1
    extract_lets +onlyGivenNames _ x2
    have h2 : Moves (partsBut [.pending, .tick, .otp]) s x2 := by
      unfold x2
      refine Moves.upd rfl (fun p => by cases p; (case rul => exact Or.inl ⟨rfl, fun _ _ => trivial⟩); all_goals exact Or.inr rfl) ?_
      exact Moves.refl _
    clear_value x2
    extract_lets +onlyGivenNames x3
    have h3 : Moves (partsBut [.pending, .tick, .otp]) s x3 := Moves.step (raise_moves ..) rfl h2
    clear_value x3
    exact Moves.ite (fun _ => Moves.step (wdExpire_moves ..) rfl h3) fun _ => h3

theorem execRetrainTimeout_ends (s : State) : Ends (partsBut [.pending, .tick, .otp]) s (execRetrainTimeout s) := by
  unfold execRetrainTimeout
  refine ⟨_, rfl, ?_⟩
  refine Moves.ite (fun _ => ?_) fun _ => ?_
  · exact Moves.refl _
  · extract_lets +onlyGivenNames _ x1
    have h1 : Moves (partsBut [.pending, .tick, .otp]) s x1 := by
      unfold x1
      refine Moves.upd rfl (fun p => by cases p; (case bw => exact Or.inl ⟨rfl, fun _ _ => trivial⟩); all_goals exact Or.inr rfl) ?_
      exact Moves.refl _
    clear_value x1
    refine Moves.ite (fun _ => ?_) fun _ => ?_
    · refine Moves.ite (fun _ => ?_) fun _ => ?_
      · exact h1
      · refine Moves.step (raise_moves ..) rfl ?_
        refine Moves.step (raiseBw_moves ..) rfl ?_
        refine Moves.upd rfl (fun p => by cases p; (case m => exact Or.inl ⟨rfl, fun _ _ => trivial⟩); all_goals exact Or.inr rfl) ?_
        exact h1
    · refine Moves.ite (fun _ => ?_) fun _ => ?_
      · exact h1
      · extract_lets +onlyGivenNames x2
        extract_lets +onlyGivenNames x3
        have h3 : Moves (partsBut [.pending, .tick, .otp]) s x3 := Moves.step (raiseBw_moves ..) rfl h1
        clear_value x3
        extract_lets +onlyGivenNames x4
        have h4 : Moves (partsBut [.pending, .tick, .otp]) s x4 := Moves.ite (fun _ => h3) fun _ => Moves.ite
          (fun _ => Moves.step (startReinit_moves ..) rfl h3) fun _ => Moves.step (wdExpire_moves ..) rfl h3
        clear_value x4
        refine Moves.ite (fun _ => ?_) fun _ => ?_
        · exact h4
        · refine Moves.step (refreshServed_moves ..) rfl ?_
          refine Moves.step (deliver_moves ..) rfl ?_
          refine Moves.upd rfl (fun p => by cases p; (case bw => exact Or.inl ⟨rfl, fun _ _ => trivial⟩); all_goals exact Or.inr rfl) ?_
          exact h4

theorem execReloadStart_ends (s : State) : Ends [.recov, .bw] s (execReloadStart s) := by
  unfold execReloadStart
  refine ⟨_, rfl, ?_⟩
  extract_lets +onlyGivenNames x1
  clear_value x1
  refine Moves.ite (fun _ => ?_) fun _ => ?_
  · exact Moves.refl _
  · refine Moves.ite (fun _ => ?_) fun _ => ?_
    · refine Moves.upd rfl (fun p => by
          cases p
          case recov => exact Or.inl ⟨rfl, fun _ h => h .recov⟩
          all_goals exact Or.inr rfl) ?_
      exact Moves.refl _
    · refine Moves.ite (fun _ => ?_) fun _ => ?_
      · exact Moves.refl _
      · split
        · exact Moves.refl _
        · extract_lets +onlyGivenNames x2
          extract_lets +onlyGivenNames _ x3
          have h3 : Moves [.recov, .bw] s x3 := by
            unfold x3
            refine Moves.upd rfl (fun p => by
                cases p
                case recov => exact Or.inl ⟨rfl, fun _ h => h .recov⟩
                all_goals exact Or.inr rfl) ?_
            exact Moves.refl _
          clear_value x3
          exact Moves.step (sendUcode_moves ..) rfl h3

theorem execReloadComplete_ends (written : Bool) (s : State) : Ends (partsBut [.pending, .tick, .otp]) s (execReloadComplete written s) :=
    by
  unfold execReloadComplete
  refine ⟨_, rfl, ?_⟩
  split
  · exact Moves.refl _
  · split
    · exact Moves.refl _
    · refine Moves.ite (fun _ => ?_) fun _ => ?_
      · exact Moves.refl _
      · extract_lets +onlyGivenNames _ x1
        have h1 : Moves (partsBut [.pending, .tick, .otp]) s x1 := by
          unfold x1
          refine Moves.step (reloadOver_moves ..) rfl ?_
          refine Moves.upd rfl (fun p => by cases p; (case boot => exact Or.inl ⟨rfl, fun _ _ => trivial⟩); all_goals exact Or.inr rfl) ?_
          exact Moves.refl _
        clear_value x1
        extract_lets +onlyGivenNames x2
        have h2 : Moves (partsBut [.pending, .tick, .otp]) s x2 := Moves.ite
          (fun _ => Moves.step (endHold_moves ..) rfl (Moves.step (resetAllPaths_moves ..) rfl (Moves.step (leaveSlack_moves ..) rfl h1)))
          fun _ => Moves.ite (fun _ => Moves.step (freshAfterHold_moves ..) rfl h1) fun _ => Moves.step (endHold_moves ..) rfl h1
        clear_value x2
        extract_lets +onlyGivenNames x3
        have h3 : Moves (partsBut [.pending, .tick, .otp]) s x3 := Moves.ite (fun _ => h2) fun _ => Moves.step (commitUcode_moves ..) rfl h2
        clear_value x3
        exact Moves.step (takeDue_moves ..) rfl h3

theorem execReloadBodyFail_ends (s : State) : Ends (partsBut [.pending, .tick, .otp]) s (execReloadBodyFail s) := by
  unfold execReloadBodyFail
  refine ⟨_, rfl, ?_⟩
  split
  · exact Moves.refl _
  · refine Moves.ite (fun _ => ?_) fun _ => ?_
    · exact Moves.refl _
    · extract_lets +onlyGivenNames _ x1
      have h1 : Moves (partsBut [.pending, .tick, .otp]) s x1 := by
        unfold x1
        refine Moves.upd rfl (fun p => by cases p; (case fd => exact Or.inl ⟨rfl, fun _ _ => trivial⟩); all_goals exact Or.inr rfl) ?_
        exact Moves.refl _
      clear_value x1
      refine Moves.ite (fun _ => ?_) fun _ => ?_
      · split
        · refine Moves.step (sendUcode_moves ..) rfl ?_
          refine Moves.upd rfl (fun p => by
              cases p
              case recov => exact Or.inl ⟨rfl, fun _ h => h .recov⟩
              all_goals exact Or.inr rfl) ?_
          exact h1
        · exact h1
      · refine Moves.ite (fun _ => ?_) fun _ => ?_
        · extract_lets +onlyGivenNames x2
          extract_lets +onlyGivenNames _ x3
          have h3 : Moves (partsBut [.pending, .tick, .otp]) s x3 := by
            unfold x3
            refine Moves.upd rfl (fun p => by
                cases p
                case recov => exact Or.inl ⟨rfl, fun _ h => h .recov⟩
                all_goals exact Or.inr rfl) ?_
            exact h1
          clear_value x3
          extract_lets +onlyGivenNames x4
          have h4 : Moves (partsBut [.pending, .tick, .otp]) s x4 := Moves.ite (fun _ => Moves.step (setStage_moves ..) rfl h3) fun _ => h3
          clear_value x4
          split
          · exact Moves.step (sendUcode_moves ..) rfl h4
          · exact Moves.step (reloadFailed_moves ..) rfl h4
        · exact Moves.step (reloadFailed_moves ..) rfl h1

theorem execSlackWindowExpiry_ends (s : State) : Ends (partsBut [.pending, .tick, .otp]) s (execSlackWindowExpiry s) := by
  unfold execSlackWindowExpiry
  refine ⟨_, rfl, ?_⟩
  refine Moves.ite (fun _ => ?_) fun _ => ?_
  · exact Moves.refl _
  · extract_lets +onlyGivenNames _ x1
    have h1 : Moves (partsBut [.pending, .tick, .otp]) s x1 := by
      unfold x1
      refine Moves.step (applySafeAll_moves ..) rfl ?_
      refine Moves.upd rfl (fun p => by cases p; (case fd => exact Or.inl ⟨rfl, fun _ _ => trivial⟩); all_goals exact Or.inr rfl) ?_
      exact Moves.refl _
    clear_value x1
    refine Moves.ite (fun _ => ?_) fun _ => ?_
    · refine Moves.step (bwSend_moves ..) rfl ?_
      refine Moves.upd rfl (fun p => by cases p; (case m => exact Or.inl ⟨rfl, fun _ _ => trivial⟩); all_goals exact Or.inr rfl) ?_
      exact h1
    · split
      · exact Moves.ite (fun _ => Moves.step (takeDue_moves ..) rfl (Moves.step (freshAfterHold_moves ..) rfl
          (Moves.step (reloadOver_moves ..) rfl h1))) fun _ => h1
      · exact h1

theorem execGenerationApply_ends (s : State) : Ends [.free, .clk, .m, .boot, .recov, .bw, .ch, .ev, .mbx, .img, .port, .conv, .loop, .hart,
    .wheel, .rul, .enrol] s (execGenerationApply s) := by
  unfold execGenerationApply
  refine ⟨_, rfl, ?_⟩
  split
  · refine Moves.ite (fun _ => ?_) fun _ => ?_
    · exact Moves.refl _
    · refine Moves.ite (fun _ => ?_) fun _ => ?_
      · refine Moves.step (raisePower_moves ..) rfl ?_
        refine Moves.upd rfl (fun p => by cases p; (case boot => exact Or.inl ⟨rfl, fun _ _ => trivial⟩); all_goals exact Or.inr rfl) ?_
        exact Moves.refl _
      · exact (applyGeneration_moves ..).widen rfl
  · exact Moves.refl _

theorem execHandoverStart_ends (s : State) : Ends [.recov] s (execHandoverStart s) := by
  unfold execHandoverStart
  refine ⟨_, rfl, ?_⟩
  refine Moves.ite (fun _ => ?_) fun _ => ?_
  · exact Moves.refl _
  · refine Moves.upd rfl (fun p => by
        cases p
        case recov => exact Or.inl ⟨rfl, fun _ h => h .recov⟩
        all_goals exact Or.inr rfl) ?_
    exact Moves.refl _

theorem execExchangeComplete_ends (startCheck : StartCheck) (s : State) : Ends [.triad, .recov] s (execExchangeComplete startCheck s) := by
  unfold execExchangeComplete
  refine ⟨_, rfl, ?_⟩
  split
  · exact Moves.refl _
  · refine Moves.ite (fun _ => ?_) fun _ => ?_
    · exact Moves.refl _
    · extract_lets +onlyGivenNames x1
      have h1 : Moves [.triad, .recov] s x1 := (exchange_moves ..).widen rfl
      clear_value x1
      refine Moves.upd rfl (fun p => by
          cases p
          case triad => exact Or.inl ⟨rfl, fun _ h => startCheckRun_ok (h .triad) ..⟩
          case recov => exact Or.inl ⟨rfl, fun _ h => h .recov⟩
          all_goals exact Or.inr rfl) ?_
      exact h1

theorem execProbationEnd_ends (written : Bool) (s : State) : Ends [.boot, .recov, .ev, .port, .flash] s (execProbationEnd written s) := by
  unfold execProbationEnd
  refine ⟨_, rfl, ?_⟩
  refine Moves.ite (fun _ => ?_) fun _ => ?_
  · exact Moves.refl _
  · extract_lets +onlyGivenNames _ x1
    have h1 : Moves [.boot, .recov, .ev, .port, .flash] s x1 := by
      unfold x1
      split
      · refine Moves.ite (fun _ => ?_) fun _ => ?_
        · exact (writeDesc_moves ..).widen rfl
        · refine Moves.step (raise_moves ..) rfl ?_
          refine Moves.upd rfl (fun p => by
              cases p
              case recov => exact Or.inl ⟨rfl, fun _ h => h .recov⟩
              all_goals exact Or.inr rfl) ?_
          exact Moves.refl _
      · exact Moves.refl _
    clear_value x1
    exact Moves.step (setStage_moves ..) rfl h1

theorem execQueueEntry_ends (w0 : W32) (w1 : W32) (w2 : W32) (w3 : W32) (data : List Byte) (s : State) : Ends [.ev, .port, .mem] s
    (execQueueEntry w0 w1 w2 w3 data s) := by
  unfold execQueueEntry
  refine ⟨_, rfl, ?_⟩
  refine Moves.ite (fun _ => ?_) fun _ => ?_
  · exact Moves.refl _
  · refine Moves.ite (fun _ => ?_) fun _ => ?_
    · exact (memError_moves ..).widen rfl
    · refine Moves.ite (fun _ => ?_) fun hq => ?_
      · exact (memError_moves ..).widen rfl
      · extract_lets +onlyGivenNames x1
        refine Moves.upd rfl (fun p => by
            cases p
            case mem => exact Or.inl ⟨rfl, fun _ h => entry_queued (h .mem) hq ..⟩
            all_goals exact Or.inr rfl) ?_
        exact Moves.refl _

theorem execMemoryFrame_ends (s : State) : Ends [.free, .flash, .mirror, .mem] s (execMemoryFrame s) := by
  unfold execMemoryFrame
  refine ⟨_, rfl, ?_⟩
  split
  next => exact Moves.refl _
  next e rest hn =>
    refine Moves.ite (fun _ => ?_) fun _ => ?_
    · exact Moves.refl _
    · extract_lets +onlyGivenNames x1
      extract_lets +onlyGivenNames x2
      have h2 : Moves [.free, .flash, .mirror, .mem] s x2 := Moves.ite (fun _ => (breakChain_moves ..).widen rfl) fun _ => Moves.refl _
      clear_value x2
      refine Moves.ite (fun _ => ?_) fun _ => ?_
      · exact h2
      · extract_lets +onlyGivenNames x3
        have h3 : Moves [.free, .flash, .mirror, .mem] s x3 := Moves.step (sendFrame_moves ..) rfl h2
        clear_value x3
        extract_lets +onlyGivenNames x4
        refine Moves.upd rfl (fun p => by
            cases p
            case mem => exact Or.inl ⟨rfl, fun k h => ⟨(h .mem).1, nextEntry_rest hn (k .mem).2⟩⟩
            all_goals exact Or.inr rfl) ?_
        exact h3

theorem execPollFrame_ends (st : Byte) (s : State) : Ends [.mem] s (execPollFrame st s) := by
  unfold execPollFrame
  refine ⟨_, rfl, ?_⟩
  refine Moves.ite (fun _ => ?_) fun _ => ?_
  · refine Moves.upd rfl (fun p => by cases p; (case mem => exact Or.inl ⟨rfl, fun _ h => h .mem⟩); all_goals exact Or.inr rfl) ?_
    exact Moves.refl _
  · exact Moves.refl _

theorem execEntryComplete_ends (ok : Bool) (s : State) : Ends [.boot, .recov, .ev, .mbx, .port, .flash, .mirror, .mem] s
    (execEntryComplete ok s) := by
  unfold execEntryComplete
  refine ⟨_, rfl, ?_⟩
  split
  · refine Moves.ite (fun _ => ?_) fun _ => ?_
    · exact Moves.refl _
    · refine Moves.upd rfl (fun p => by cases p; (case mem => exact Or.inl ⟨rfl, fun _ h => h .mem⟩); all_goals exact Or.inr rfl) ?_
      exact Moves.refl _
  · split
    · exact Moves.ite (fun _ => (jobEnd_moves ..).widen rfl) fun _ => Moves.refl _
    · exact Moves.refl _

theorem execContBreak_ends (s : State) : Ends [.flash, .mirror, .mem] s (execContBreak s) :=
  ⟨_, rfl, Moves.ite (fun _ => (breakChain_moves ..).widen rfl) fun _ => Moves.refl _⟩

theorem execXipRead_ends (addr : BitVec 24) (len : W16) (s : State) : Ends [.free, .mem] s (execXipRead addr len s) := by
  unfold execXipRead
  refine ⟨_, rfl, ?_⟩
  refine Moves.ite (fun _ => ?_) fun _ => ?_
  · exact Moves.refl _
  · extract_lets +onlyGivenNames x1
    refine Moves.upd rfl (fun p => by
        cases p
        case free => exact Or.inl ⟨rfl, fun _ _ => trivial⟩
        case mem => exact Or.inl ⟨rfl, fun _ h => h .mem⟩
        all_goals exact Or.inr rfl) ?_
    exact Moves.refl _

theorem execSelectModeChange_ends (s : State) : Ends [.flash, .mirror, .mem] s (execSelectModeChange s) := by
  unfold execSelectModeChange
  refine ⟨_, rfl, ?_⟩
  refine Moves.ite (fun _ => ?_) fun _ => ?_
  · exact Moves.refl _
  · extract_lets +onlyGivenNames x1
    have h1 : Moves [.flash, .mirror, .mem] s x1 := Moves.ite (fun _ => (breakChain_moves ..).widen rfl) fun _ => Moves.refl _
    clear_value x1
    refine Moves.upd rfl (fun p => by cases p; (case mem => exact Or.inl ⟨rfl, fun _ h => h .mem⟩); all_goals exact Or.inr rfl) ?_
    exact h1

theorem execLogFlush_ends (s : State) : Ends [.ev, .flash] s (execLogFlush s) :=
  ⟨_, rfl, Moves.ite (fun _ => (flushLog_moves ..).widen rfl) fun _ => Moves.refl _⟩

theorem execScrub_ends (offset : BitVec 23) (uncorrectable : Bool) (s : State) : Ends
    (partsBut [.pending, .tick, .straps, .clk, .flash, .mirror, .otp, .hart, .gov, .time, .chk, .enrol]) s
    (execScrub offset uncorrectable s) :=
  ⟨_, rfl, Moves.ite (fun _ => Moves.refl _) fun _ => Moves.ite (fun _ => (raise_moves ..).widen rfl) fun _ => Moves.step
    (eccWord_moves ..) rfl ((raise_moves ..).widen rfl)⟩

theorem execImageWrite_ends (words : List (BitVec 20 × W16)) (s : State) : Ends (partsBut [.pending, .tick, .otp]) s
    (execImageWrite words s) :=
  ⟨_, rfl, (hostWrite_moves ..).widen rfl⟩

theorem execCoefficientWrite_ends (p : PathIx) (bank : Bool) (tap : BitVec 6) (v : W32) (s : State) : Ends [.held, .conv] s
    (execCoefficientWrite p bank tap v s) :=
  ⟨_, rfl, whenServed_moves (ps := [.held, .conv]) (hc := rfl) (hf2 := fun _ => (writeCoeff_moves ..).widen rfl) ..⟩

theorem execStagingWrite_ends (offset : BitVec 20) (data : List Byte) (s : State) : Ends (partsBut [.pending, .tick, .otp]) s
    (execStagingWrite offset data s) :=
  ⟨_, rfl, Moves.ite (fun _ => Moves.refl _) fun _ => (hostWrite_moves ..).widen rfl⟩

theorem execSwapRequest_ends (p : PathIx) (v : W32) (s : State) : Ends (partsBut [.pending, .tick, .otp]) s (execSwapRequest p v s) :=
  ⟨_, rfl, (hostWrite_moves ..).widen rfl⟩

theorem execSyncRequest_ends (p : PathIx) (v : W32) (s : State) : Ends (partsBut [.pending, .tick, .otp]) s (execSyncRequest p v s) :=
  ⟨_, rfl, (hostWrite_moves ..).widen rfl⟩

theorem execPpssetWrite_ends (v : W32) (s : State) : Ends (partsBut [.pending, .tick, .otp]) s (execPpssetWrite v s) :=
  ⟨_, rfl, (hostWrite_moves ..).widen rfl⟩

theorem execEvqAck_ends (v : W32) (s : State) : Ends (partsBut [.pending, .tick, .otp]) s (execEvqAck v s) :=
  ⟨_, rfl, (hostWrite_moves ..).widen rfl⟩

theorem execCountClear_ends (v : W32) (s : State) : Ends (partsBut [.pending, .tick, .otp]) s (execCountClear v s) :=
  ⟨_, rfl, (hostWrite_moves ..).widen rfl⟩

theorem execRegisterWrite_ends (addr : BitVec 24) (v : W32) (s : State) : Ends (partsBut [.pending, .tick, .otp]) s
    (execRegisterWrite addr v s) :=
  ⟨_, rfl, (hostWrite_moves ..).widen rfl⟩

theorem execUnknownMailboxCommand_ends (slot : SlotIx) (code : W16) (tag : W16) (s : State) : Ends (partsBut [.pending, .tick, .otp]) s
    (execUnknownMailboxCommand slot code tag s) :=
  ⟨_, rfl, mbxServed_moves (ps := (partsBut [.pending, .tick, .otp])) (hc := rfl) (hf4 := fun _ _ _ => (mbxDispatch_moves ..).widen rfl) ..⟩

theorem execRead_ends (f : HostFrame) (s : State) : Ends [.free, .ev, .port, .host] s (execRead f s) :=
  ⟨_, rfl, (readFrame_moves ..).widen rfl⟩

theorem execReadDualData_ends (f : HostFrame) (s : State) : Ends [.free, .ev, .port, .host] s (execReadDualData f s) :=
  ⟨_, rfl, (readFrame_moves ..).widen rfl⟩

theorem execReadDualAddressData_ends (f : HostFrame) (s : State) : Ends [.free, .ev, .port, .host] s (execReadDualAddressData f s) :=
  ⟨_, rfl, (readFrame_moves ..).widen rfl⟩

theorem execReadQuadData_ends (f : HostFrame) (s : State) : Ends [.free, .ev, .port, .host] s (execReadQuadData f s) :=
  ⟨_, rfl, (readFrame_moves ..).widen rfl⟩

theorem execReadQuadAddressData_ends (f : HostFrame) (s : State) : Ends [.free, .ev, .port, .host] s (execReadQuadAddressData f s) :=
  ⟨_, rfl, (readFrame_moves ..).widen rfl⟩

theorem execReadSync_ends (clocked : ℕ) (laneError : Bool) (s : State) : Ends [.ev, .port, .conv, .host] s
    (execReadSync clocked laneError s) := by
  unfold execReadSync
  refine ⟨_, rfl, ?_⟩
  split
  · exact Moves.refl _
  · refine Moves.ite (fun _ => ?_) fun _ => ?_
    · exact Moves.refl _
    · extract_lets +onlyGivenNames x1
      have h1 : Moves [.ev, .port, .conv, .host] s x1 := (State.modHost_moves ..).widen rfl
      clear_value x1
      exact Moves.ite (fun _ => Moves.ite (fun _ => h1) fun _ => Moves.step (hostError_moves ..) rfl h1) fun _ => Moves.step
        (clearRead_moves ..) rfl h1

theorem execReadAbort_ends (s : State) : Ends [.ev, .port, .host] s (execReadAbort s) := by
  unfold execReadAbort
  refine ⟨_, rfl, ?_⟩
  split
  · exact Moves.refl _
  · extract_lets +onlyGivenNames x1
    have h1 : Moves [.ev, .port, .host] s x1 := (State.modHost_moves ..).widen rfl
    clear_value x1
    exact Moves.ite (fun _ => Moves.step (hostError_moves ..) rfl h1) fun _ => h1

theorem execStatus_ends (cycles : ℕ) (laneError : Bool) (s : State) : Ends [.ev, .port, .host] s (execStatus cycles laneError s) :=
  ⟨_, rfl, (fixedFrame_moves ..).widen rfl⟩

theorem execIdent_ends (cycles : ℕ) (laneError : Bool) (s : State) : Ends [.ev, .port, .host] s (execIdent cycles laneError s) :=
  ⟨_, rfl, (fixedFrame_moves ..).widen rfl⟩

theorem execWrite_ends (f : HostFrame) (s : State) : Ends (partsBut [.pending, .tick, .otp]) s (execWrite f s) := by
  unfold execWrite
  refine ⟨_, rfl, ?_⟩
  refine frameStart_moves (ps := (partsBut [.pending, .tick, .otp])) (hc := rfl) (hf2 := fun y1_0 => ?_) ..
  · refine Moves.ite (fun _ => ?_) fun _ => ?_
    · extract_lets +onlyGivenNames x2
      exact (legacyWriteFrame_moves ..).widen rfl
    · exact (writeFrame_moves ..).widen rfl

theorem execWriteDualData_ends (f : HostFrame) (s : State) : Ends (partsBut [.pending, .tick, .otp]) s (execWriteDualData f s) :=
  ⟨_, rfl, frameStart_moves (ps := (partsBut [.pending, .tick, .otp])) (hc := rfl)
    (hf2 := fun _ => Moves.ite (fun _ => (unknownFrame_moves ..).widen rfl) fun _ => (writeFrame_moves ..).widen rfl) ..⟩

theorem execWriteQuadData_ends (f : HostFrame) (s : State) : Ends (partsBut [.pending, .tick, .otp]) s (execWriteQuadData f s) :=
  ⟨_, rfl, frameStart_moves (ps := (partsBut [.pending, .tick, .otp])) (hc := rfl)
    (hf2 := fun _ => Moves.ite (fun _ => (unknownFrame_moves ..).widen rfl) fun _ => (writeFrame_moves ..).widen rfl) ..⟩

theorem execFenceFrame_ends (tag : W16) (cycles : ℕ) (laneError : Bool) (s : State) : Ends (partsBut [.pending, .tick, .otp]) s
    (execFenceFrame tag cycles laneError s) :=
  ⟨_, rfl, frameStart_moves (ps := (partsBut [.pending, .tick, .otp])) (hc := rfl)
    (hf2 := fun _ => Moves.ite (fun _ => (unknownFrame_moves ..).widen rfl) fun _ => Moves.ite (fun _ => (hostError_moves ..).widen rfl)
    fun _ => Moves.ite (fun _ => (hostError_moves ..).widen rfl) fun _ => Moves.ite (fun _ => (hostError_moves ..).widen rfl) fun _ =>
    (acceptFrame_moves ..).widen rfl) ..⟩

theorem execUnknownCommand_ends (code : Byte) (cycles : ℕ) (s : State) : Ends [.ev, .port, .host] s (execUnknownCommand code cycles s) :=
  ⟨_, rfl, Moves.ite (fun _ => Moves.refl _) fun _ => frameStart_moves (ps := [.ev, .port, .host]) (hc := rfl)
    (hf2 := fun _ => (unknownFrame_moves ..).widen rfl) ..⟩

theorem execLegacyRead_ends (f : HostFrame) (s : State) : Ends [.free, .ev, .port, .conv, .host] s (execLegacyRead f s) :=
  ⟨_, rfl, (legacyReadFrame_moves ..).widen rfl⟩

theorem execLegacyReadLate_ends (f : HostFrame) (s : State) : Ends [.free, .ev, .port, .conv, .host] s (execLegacyReadLate f s) :=
  ⟨_, rfl, (legacyReadFrame_moves ..).widen rfl⟩

theorem execLegacyWrite_ends (f : HostFrame) (s : State) : Ends (partsBut [.pending, .tick, .otp]) s (execLegacyWrite f s) :=
  ⟨_, rfl, frameStart_moves (ps := (partsBut [.pending, .tick, .otp])) (hc := rfl)
    (hf2 := fun _ => Moves.ite (fun _ => (legacyWriteFrame_moves ..).widen rfl) fun _ => (writeFrame_moves ..).widen rfl) ..⟩

theorem execSetpage_ends (page : Byte) (cycles : ℕ) (laneError : Bool) (s : State) : Ends [.ev, .port, .host] s
    (execSetpage page cycles laneError s) :=
  ⟨_, rfl, frameStart_moves (ps := [.ev, .port, .host]) (hc := rfl) (hf2 := fun _ => Moves.ite (fun _ => (unknownFrame_moves ..).widen rfl)
    fun _ => Moves.ite (fun _ => (hostError_moves ..).widen rfl) fun _ => Moves.ite (fun _ => (hostError_moves ..).widen rfl) fun _ =>
    Moves.ite (fun _ => (hostError_moves ..).widen rfl) fun _ => Moves.step (countDone_moves ..) rfl ((State.modHost_moves ..).widen rfl))
    ..⟩

theorem execCommaAligned_ends (k : PortIx) (s : State) : Ends [.ev, .img, .port] s (execCommaAligned k s) :=
  ⟨_, rfl, Moves.ite (fun _ => (setPortState_moves ..).widen rfl) fun _ => Moves.refl _⟩

theorem execTrainingTimeout_ends (k : PortIx) (s : State) : Ends [.ch, .ev, .img, .port, .wheel, .rul] s (execTrainingTimeout k s) :=
  ⟨_, rfl, Moves.ite (fun _ => Moves.step (State.modPort_moves ..) rfl
    (Moves.step (portReinit_moves ..) rfl ((clearOut_moves ..).widen rfl))) fun _ => Moves.refl _⟩

theorem execTrainingRetry_ends (k : PortIx) (s : State) : Ends [.port] s (execTrainingRetry k s) :=
  ⟨_, rfl, (State.modPort_moves ..).widen rfl⟩

theorem execTrainSend_ends (k : PortIx) (s : State) : Ends [.port] s (execTrainSend k s) := by
  unfold execTrainSend
  refine ⟨_, rfl, ?_⟩
  refine Moves.ite (fun _ => ?_) fun _ => ?_
  · exact Moves.refl _
  · extract_lets +onlyGivenNames x1
    extract_lets +onlyGivenNames x2
    extract_lets +onlyGivenNames x3
    exact (State.modPort_moves ..).widen rfl

theorem execTrain_ends (k : PortIx) (f : LinkHeader) (s : State) : Ends [.ch, .ev, .img, .port, .wheel, .rul] s (execTrain k f s) := by
  unfold execTrain
  refine ⟨_, rfl, ?_⟩
  extract_lets +onlyGivenNames x1
  have h1 : Moves [.ch, .ev, .img, .port, .wheel, .rul] _ x1 := (clearOut_moves ..).widen rfl
  clear_value x1
  extract_lets +onlyGivenNames x2
  refine Moves.ite (fun _ => ?_) fun _ => ?_
  · exact h1
  · refine Moves.ite (fun _ => ?_) fun _ => ?_
    · exact Moves.step (State.modPort_moves ..) rfl h1
    · refine Moves.ite (fun _ => ?_) fun _ => ?_
      · exact Moves.step (State.modPort_moves ..) rfl (Moves.step (crcError_moves ..) rfl h1)
      · refine Moves.ite (fun _ => ?_) fun _ => ?_
        · exact Moves.step (State.modPort_moves ..) rfl h1
        · refine Moves.ite (fun _ => ?_) fun _ => ?_
          · extract_lets +onlyGivenNames x3
            have h3 : Moves [.ch, .ev, .img, .port, .wheel, .rul] _ x3 := Moves.step (State.modPort_moves ..) rfl h1
            clear_value x3
            exact Moves.ite (fun _ => h3) fun _ => Moves.step (portReinit_moves ..) rfl h3
          · exact Moves.step (takeTrain_moves ..) rfl h1

theorem execLossOfSignal_ends (k : PortIx) (s : State) : Ends [.ch, .ev, .img, .port, .wheel, .rul] s (execLossOfSignal k s) :=
  ⟨_, rfl, Moves.ite (fun _ => Moves.step (portReinit_moves ..) rfl ((clearOut_moves ..).widen rfl)) fun _ => Moves.refl _⟩

theorem execCodeViolation_ends (k : PortIx) (s : State) : Ends [.ch, .ev, .img, .port, .wheel, .rul] s (execCodeViolation k s) := by
  unfold execCodeViolation
  refine ⟨_, rfl, ?_⟩
  extract_lets +onlyGivenNames x1
  exact Moves.ite (fun _ => Moves.refl _) fun _ => Moves.ite (fun _ => (State.modPort_moves ..).widen rfl) fun _ => Moves.step
    (portReinit_moves ..) rfl ((clearOut_moves ..).widen rfl)

theorem execCrt_ends (k : PortIx) (v : Byte) (check : Byte) (s : State) : Ends [.ev, .img, .port] s (execCrt k v check s) := by
  unfold execCrt
  refine ⟨_, rfl, ?_⟩
  refine takeControl_moves (ps := [.ev, .img, .port]) (hc := rfl) (hf3 := fun y1_0 => ?_) ..
  · split
    · extract_lets +onlyGivenNames x2
      exact (State.modPort_moves ..).widen rfl
    · exact (ctlError_moves ..).widen rfl

theorem execAck_ends (k : PortIx) (c : LinkClass) (q : Byte) (s : State) : Ends [.ev, .img, .port] s (execAck k c q s) := by
  unfold execAck
  refine ⟨_, rfl, ?_⟩
  refine takeControl_moves (ps := [.ev, .img, .port]) (hc := rfl) (hf3 := fun y1_0 => ?_) ..
  · split
    · extract_lets +onlyGivenNames x2
      exact Moves.foldl (fun _ _ => (freeHeld_moves ..).widen rfl) ((State.modPort_moves ..).widen rfl)
    · exact Moves.refl _

theorem execCen_ends (k : PortIx) (hq : Byte) (hp : Byte) (hu : Byte) (rq : Byte) (rp : Byte) (ru : Byte) (ck : Byte) (s : State) : Ends
    [.ch, .ev, .img, .port, .wheel, .rul] s (execCen k hq hp hu rq rp ru ck s) := by
  unfold execCen
  refine ⟨_, rfl, ?_⟩
  refine takeControl_moves (ps := [.ch, .ev, .img, .port, .wheel, .rul]) (hc := rfl) (hf3 := fun y1_0 => ?_) ..
  · extract_lets +onlyGivenNames x2
    extract_lets +onlyGivenNames x3
    refine Moves.ite (fun _ => ?_) fun _ => ?_
    · exact Moves.refl _
    · extract_lets +onlyGivenNames x4
      have h4 : Moves [.ch, .ev, .img, .port, .wheel, .rul] y1_0 x4 := (State.modPort_moves ..).widen rfl
      clear_value x4
      exact Moves.step (portReinit_moves ..) rfl (Moves.ite (fun _ => h4) fun _ => Moves.step (raiseLinkErr_moves ..) rfl h4)

theorem execCensusSend_ends (k : PortIx) (s : State) : Ends [.port] s (execCensusSend k s) :=
  ⟨_, rfl, Moves.ite (fun _ => Moves.refl _) fun _ => (State.modPort_moves ..).widen rfl⟩

theorem execCensusMissing_ends (k : PortIx) (s : State) : Ends [.ch, .ev, .img, .port, .wheel, .rul] s (execCensusMissing k s) :=
  ⟨_, rfl, Moves.ite (fun _ => Moves.step (portReinit_moves ..) rfl ((clearOut_moves ..).widen rfl)) fun _ => Moves.refl _⟩

theorem execDelayExchange_ends (k : PortIx) (t1Ns : ℤ) (s : State) : Ends [.port] s (execDelayExchange k t1Ns s) := by
  unfold execDelayExchange
  refine ⟨_, rfl, ?_⟩
  extract_lets +onlyGivenNames x1
  extract_lets +onlyGivenNames x2
  exact Moves.ite (fun _ => Moves.refl _) fun _ => (State.modPort_moves ..).widen rfl

theorem execMarkDelayRequest_ends (k : PortIx) (v : BitVec 24) (ck : Byte) (turnNs : BitVec 24) (s : State) : Ends [.ev, .img, .port] s
    (execMarkDelayRequest k v ck turnNs s) := by
  unfold execMarkDelayRequest
  refine ⟨_, rfl, ?_⟩
  extract_lets +onlyGivenNames x1
  have h1 : Moves [.ev, .img, .port] _ x1 := Moves.step (upBySymbol_moves ..) rfl ((clearOut_moves ..).widen rfl)
  clear_value x1
  exact Moves.ite (fun _ => h1) fun _ => Moves.ite (fun _ => Moves.step (ctlError_moves ..) rfl h1) fun _ => Moves.step (putOut_moves ..)
    rfl h1

theorem execMarkDelayResponse_ends (k : PortIx) (turnNs : BitVec 24) (ck : Byte) (t4Ns : ℤ) (s : State) : Ends [.ev, .img, .port] s
    (execMarkDelayResponse k turnNs ck t4Ns s) := by
  unfold execMarkDelayResponse
  refine ⟨_, rfl, ?_⟩
  extract_lets +onlyGivenNames x1
  have h1 : Moves [.ev, .img, .port] _ x1 := Moves.step (upBySymbol_moves ..) rfl ((clearOut_moves ..).widen rfl)
  clear_value x1
  extract_lets +onlyGivenNames x2
  refine Moves.ite (fun _ => ?_) fun _ => ?_
  · exact h1
  · refine Moves.ite (fun _ => ?_) fun _ => ?_
    · exact Moves.step (ctlError_moves ..) rfl h1
    · split
      · exact h1
      · extract_lets +onlyGivenNames x3
        exact Moves.step (State.modPort_moves ..) rfl h1

theorem execMarkTimeReference_ends (k : PortIx) (v : BitVec 24) (ck : Byte) (ns : Byte) (s : State) : Ends [.ev, .img, .port] s
    (execMarkTimeReference k v ck ns s) :=
  ⟨_, rfl, takeControl_moves (ps := [.ev, .img, .port]) (hc := rfl) (hf3 := fun _ => (State.modPort_moves ..).widen rfl) ..⟩

theorem execLinkFrameSend_ends (k : PortIx) (s : State) : Ends [.port] s (execLinkFrameSend k s) := by
  unfold execLinkFrameSend
  refine ⟨_, rfl, ?_⟩
  extract_lets +onlyGivenNames x1
  have h1 : Moves [.port] s x1 := (clearOut_moves ..).widen rfl
  clear_value x1
  refine Moves.ite (fun _ => h1) fun _ => ?_
  split
  next t e => exact Moves.step (sendClass_moves e) rfl h1
  next =>
    split
    next t e => exact Moves.step (sendClass_moves e) rfl h1
    next =>
      cases e : sendClass x1 k .request with
      | none => exact h1
      | some t => exact Moves.step (sendClass_moves e) rfl h1

theorem execLinkRetransmit_ends (k : PortIx) (c : LinkClass) (s : State) : Ends [.ch, .ev, .img, .port, .wheel, .rul] s
    (execLinkRetransmit k c s) := by
  unfold execLinkRetransmit
  refine ⟨_, rfl, ?_⟩
  extract_lets +onlyGivenNames x1
  have h1 : Moves [.ch, .ev, .img, .port, .wheel, .rul] _ x1 := (clearOut_moves ..).widen rfl
  clear_value x1
  extract_lets +onlyGivenNames x2
  exact Moves.ite (fun _ => h1) fun _ => Moves.ite (fun _ => Moves.step (portReinit_moves ..) rfl h1) fun _ => Moves.step
    (resendClass_moves ..) rfl (Moves.step (State.modPort_moves ..) rfl h1)

theorem execTimeSend_ends (w : WheelIx) (fTx : Byte) (s : State) : Ends [.port] s (execTimeSend w fTx s) :=
  ⟨_, rfl, Moves.ite (fun _ => Moves.refl _) fun _ => Moves.foldl (fun _ _ => (timeOn_moves ..).widen rfl) ((clearOut_moves ..).widen rfl)⟩

theorem execLinkWrite_ends (k : PortIx) (f : LinkHeader) (s : State) : Ends [.free, .bw, .ch, .ev, .img, .port, .conv, .loop, .gov, .rul] s
    (execLinkWrite k f s) :=
  ⟨_, rfl, linkFrame_moves (ps := [.free, .bw, .ch, .ev, .img, .port, .conv, .loop, .gov, .rul]) (hc := rfl)
    (hf5 := fun _ => (transitWrite_moves ..).widen rfl) ..⟩

theorem execUpdate_ends (k : PortIx) (f : LinkHeader) (s : State) : Ends [.ev, .img, .port] s (execUpdate k f s) :=
  ⟨_, rfl, linkFrame_moves (ps := [.ev, .img, .port]) (hc := rfl) (hf5 := fun _ => (applyUpdate_moves ..).widen rfl) ..⟩

theorem execFenceRequest_ends (k : PortIx) (f : LinkHeader) (s : State) : Ends [.ev, .img, .port] s (execFenceRequest k f s) := by
  unfold execFenceRequest
  refine ⟨_, rfl, ?_⟩
  refine linkFrame_moves (ps := [.ev, .img, .port]) (hc := rfl) (hf5 := fun y1_0 => ?_) ..
  · extract_lets +onlyGivenNames x2
    refine Moves.ite (fun _ => ?_) fun _ => ?_
    · exact (placeFence_moves ..).widen rfl
    · exact Moves.step (sendResponse_moves ..) rfl ((placeFence_moves ..).widen rfl)

theorem execWriteRsp_ends (k : PortIx) (f : LinkHeader) (s : State) : Ends [.free, .bw, .ch, .ev, .img, .port, .conv, .loop, .gov, .rul] s
    (execWriteRsp k f s) :=
  ⟨_, rfl, linkFrame_moves (ps := [.free, .bw, .ch, .ev, .img, .port, .conv, .loop, .gov, .rul]) (hc := rfl)
    (hf5 := fun _ => Moves.step (serveAll_moves ..) rfl ((actWriteRsp_moves ..).widen rfl)) ..⟩

theorem execUpdateAck_ends (k : PortIx) (f : LinkHeader) (s : State) : Ends [.ev, .img, .port] s (execUpdateAck k f s) :=
  ⟨_, rfl, linkFrame_moves (ps := [.ev, .img, .port]) (hc := rfl) (hf5 := fun _ => (actUpdateAck_moves ..).widen rfl) ..⟩

theorem execFenceRsp_ends (k : PortIx) (f : LinkHeader) (s : State) : Ends [.ev, .img, .port] s (execFenceRsp k f s) :=
  ⟨_, rfl, linkFrame_moves (ps := [.ev, .img, .port]) (hc := rfl) (hf5 := fun _ => (actFenceRsp_moves ..).widen rfl) ..⟩

theorem execErrorRsp_ends (k : PortIx) (f : LinkHeader) (s : State) : Ends [.free, .bw, .ch, .ev, .img, .port, .conv, .loop, .gov, .rul] s
    (execErrorRsp k f s) :=
  ⟨_, rfl, linkFrame_moves (ps := [.free, .bw, .ch, .ev, .img, .port, .conv, .loop, .gov, .rul]) (hc := rfl)
    (hf5 := fun _ => Moves.step (serveAll_moves ..) rfl ((actErrorRsp_moves ..).widen rfl)) ..⟩

theorem execRequestBudgetExpiry_ends (k : PortIx) (tag : W16) (s : State) : Ends
    [.free, .bw, .ch, .ev, .img, .port, .conv, .loop, .gov, .rul] s (execRequestBudgetExpiry k tag s) := by
  unfold execRequestBudgetExpiry
  refine ⟨_, rfl, ?_⟩
  split
  · exact Moves.step (sendResponse_moves ..) rfl (Moves.step (State.modPort_moves ..) rfl ((dropBuffered_moves ..).widen rfl))
  · refine Moves.ite (fun _ => ?_) fun _ => ?_
    · exact Moves.refl _
    · split
      · extract_lets +onlyGivenNames x1
        have h1 : Moves [.free, .bw, .ch, .ev, .img, .port, .conv, .loop, .gov, .rul] s x1 := (State.modPort_moves ..).widen rfl
        clear_value x1
        exact Moves.step (serveAll_moves ..) rfl (Moves.step (requestFailed_moves ..) rfl h1)
      · exact Moves.refl _

theorem execRequestTimeout_ends (k : PortIx) (tag : W16) (s : State) : Ends [.ev, .img, .port, .rul] s (execRequestTimeout k tag s) := by
  unfold execRequestTimeout
  refine ⟨_, rfl, ?_⟩
  split
  · split
    · exact Moves.refl _
    · exact Moves.ite (fun _ => Moves.refl _) fun _ => (requestFailed_moves ..).widen rfl
  · exact Moves.refl _

theorem execTimeRecord_ends (k : PortIx) (f : LinkHeader) (s : State) : Ends [.ch, .ev, .img, .port, .wheel, .time] s
    (execTimeRecord k f s) := by
  unfold execTimeRecord
  refine ⟨_, rfl, ?_⟩
  refine linkFrame_moves (ps := [.ch, .ev, .img, .port, .wheel, .time]) (hc := rfl) (hf5 := fun y1_0 => ?_) ..
  · extract_lets +onlyGivenNames x2
    extract_lets +onlyGivenNames x3
    extract_lets +onlyGivenNames x4
    have h4 : Moves [.ch, .ev, .img, .port, .wheel, .time] y1_0 x4 := (State.modPort_moves ..).widen rfl
    clear_value x4
    split
    · exact Moves.ite (fun _ => Moves.step (takeTime_moves ..) rfl h4) fun _ => Moves.step (rejectEvent_moves ..) rfl h4
    · exact Moves.step (rejectEvent_moves ..) rfl h4

theorem execDisc_ends (k : PortIx) (f : LinkHeader) (s : State) : Ends [.ev, .img, .port] s (execDisc k f s) :=
  ⟨_, rfl, linkFrame_moves (ps := [.ev, .img, .port]) (hc := rfl) (hf5 := fun _ => (actDisc_moves ..).widen rfl) ..⟩

theorem execLampRecord_ends (k : PortIx) (f : LinkHeader) (s : State) : Ends [.ev, .img, .port] s (execLampRecord k f s) :=
  ⟨_, rfl, urgentRecord_moves (ps := [.ev, .img, .port]) (hc := rfl) (hf4 := fun _ => (actLamp_moves ..).widen rfl) ..⟩

theorem execEventRecord_ends (k : PortIx) (f : LinkHeader) (s : State) : Ends [.ev, .img, .port] s (execEventRecord k f s) :=
  ⟨_, rfl, urgentRecord_moves (ps := [.ev, .img, .port]) (hc := rfl) (hf4 := fun _ => (actEvent_moves ..).widen rfl) ..⟩

theorem execRelease_ends (crcs : List W32) (s : State) : Ends (partsBut [.pending, .tick, .otp]) s (execRelease crcs s) :=
  ⟨_, rfl, Moves.step (releaseHalt_moves ..) rfl ((scanCtrl_moves ..).widen rfl)⟩

theorem execDetach_ends (crcs : List W32) (s : State) : Ends (partsBut [.pending, .tick, .otp]) s (execDetach crcs s) := by
  unfold execDetach
  refine ⟨_, rfl, ?_⟩
  extract_lets +onlyGivenNames x1
  have h1 : Moves (partsBut [.pending, .tick, .otp]) s x1 := Moves.step (releaseHalt_moves ..) rfl ((scanCtrl_moves ..).widen rfl)
  clear_value x1
  refine Moves.upd rfl (fun p => by
      cases p
      case triad => exact Or.inl ⟨rfl, fun _ h => h .triad⟩
      all_goals exact Or.inr rfl) ?_
  exact h1

theorem execExecutiveResume_ends (s : State) : Ends (partsBut [.pending, .tick, .otp]) s (execExecutiveResume s) := by
  unfold execExecutiveResume
  refine ⟨_, rfl, ?_⟩
  split
  · exact Moves.refl _
  · refine Moves.ite (fun _ => ?_) fun _ => ?_
    · exact Moves.refl _
    · extract_lets +onlyGivenNames x1
      have h1 : Moves (partsBut [.pending, .tick, .otp]) s x1 := (handoverOver_moves ..).widen rfl
      clear_value x1
      refine Moves.step (resumeWith_moves ..) rfl ?_
      refine Moves.upd rfl (fun p => by
          cases p
          case boot => exact Or.inl ⟨rfl, fun _ _ => trivial⟩
          case recov => exact Or.inl ⟨rfl, fun _ h => h .recov⟩
          all_goals exact Or.inr rfl) ?_
      exact h1

theorem execHandoverReverse_ends (why : BitVec 3) (startCheck : StartCheck) (s : State) : Ends (partsBut [.pending, .tick, .otp]) s
    (execHandoverReverse why startCheck s) := by
  unfold execHandoverReverse
  refine ⟨_, rfl, ?_⟩
  split
  · exact Moves.refl _
  · refine Moves.ite (fun _ => ?_) fun _ => ?_
    · exact Moves.refl _
    · extract_lets +onlyGivenNames x1
      have h1 : Moves (partsBut [.pending, .tick, .otp]) s x1 := Moves.ite (fun _ => (exchange_moves ..).widen rfl) fun _ => Moves.refl _
      clear_value x1
      extract_lets +onlyGivenNames x2
      have h2 : Moves (partsBut [.pending, .tick, .otp]) s x2 := by
        unfold x2
        refine Moves.step (handoverOver_moves ..) rfl ?_
        refine Moves.upd rfl (fun p => by
            cases p
            case triad => exact Or.inl ⟨rfl, fun _ h => startCheckRun_ok (h .triad) ..⟩
            all_goals exact Or.inr rfl) ?_
        exact h1
      clear_value x2
      exact Moves.ite (fun _ => Moves.step (resumeWith_moves ..) rfl h2) fun _ => Moves.step (reverseDead_moves ..) rfl h2


/-- Every command completes: only the queue and the OTP are certain to stay as they stand, and a sound state stays sound. -/
theorem exec_ends (c : Instr) (s : State) : Ends (partsBut [.pending, .otp]) s (exec c s) := by
  cases c with
  | read => exact (execRead_ends ..).widen rfl
  | readDualData => exact (execReadDualData_ends ..).widen rfl
  | readDualAddressData => exact (execReadDualAddressData_ends ..).widen rfl
  | readQuadData => exact (execReadQuadData_ends ..).widen rfl
  | readQuadAddressData => exact (execReadQuadAddressData_ends ..).widen rfl
  | readSync => exact (execReadSync_ends ..).widen rfl
  | readAbort => exact (execReadAbort_ends ..).widen rfl
  | write => exact (execWrite_ends ..).widen rfl
  | writeDualData => exact (execWriteDualData_ends ..).widen rfl
  | writeQuadData => exact (execWriteQuadData_ends ..).widen rfl
  | status => exact (execStatus_ends ..).widen rfl
  | ident => exact (execIdent_ends ..).widen rfl
  | fenceFrame => exact (execFenceFrame_ends ..).widen rfl
  | unknownCommand => exact (execUnknownCommand_ends ..).widen rfl
  | legacyRead => exact (execLegacyRead_ends ..).widen rfl
  | legacyReadLate => exact (execLegacyReadLate_ends ..).widen rfl
  | legacyWrite => exact (execLegacyWrite_ends ..).widen rfl
  | setpage => exact (execSetpage_ends ..).widen rfl
  | imageWrite => exact (execImageWrite_ends ..).widen rfl
  | coefficientWrite => exact (execCoefficientWrite_ends ..).widen rfl
  | stagingWrite => exact (execStagingWrite_ends ..).widen rfl
  | swapRequest => exact (execSwapRequest_ends ..).widen rfl
  | syncRequest => exact (execSyncRequest_ends ..).widen rfl
  | ppssetWrite => exact (execPpssetWrite_ends ..).widen rfl
  | evqAck => exact (execEvqAck_ends ..).widen rfl
  | countClear => exact (execCountClear_ends ..).widen rfl
  | registerWrite => exact (execRegisterWrite_ends ..).widen rfl
  | nop => exact (execNop_ends ..).widen rfl
  | fence => exact (execFence_ends ..).widen rfl
  | reinit => exact (execReinit_ends ..).widen rfl
  | reinitComplete => exact (execReinitComplete_ends ..).widen rfl
  | resetDevice => exact (execResetDevice_ends ..).widen rfl
  | requestPowerCycle => exact (execRequestPowerCycle_ends ..).widen rfl
  | pcycAssert => exact (execPcycAssert_ends ..).widen rfl
  | retireChannel => exact (execRetireChannel_ends ..).widen rfl
  | returnChannel => exact (execReturnChannel_ends ..).widen rfl
  | mapSpare => exact (execMapSpare_ends ..).widen rfl
  | trimZero => exact (execTrimZero_ends ..).widen rfl
  | trimSpan => exact (execTrimSpan_ends ..).widen rfl
  | trimCaptureComplete => exact (execTrimCaptureComplete_ends ..).widen rfl
  | restoreFactory => exact (execRestoreFactory_ends ..).widen rfl
  | enrolSignature => exact (execEnrolSignature_ends ..).widen rfl
  | enrolComplete => exact (execEnrolComplete_ends ..).widen rfl
  | stageOpen => exact (execStageOpen_ends ..).widen rfl
  | stageCommit => exact (execStageCommit_ends ..).widen rfl
  | stageAbort => exact (execStageAbort_ends ..).widen rfl
  | check => exact (execCheck_ends ..).widen rfl
  | checkComplete => exact (execCheckComplete_ends ..).widen rfl
  | forceSafe => exact (execForceSafe_ends ..).widen rfl
  | leaveSafe => exact (execLeaveSafe_ends ..).widen rfl
  | enterTrim => exact (execEnterTrim_ends ..).widen rfl
  | leaveTrim => exact (execLeaveTrim_ends ..).widen rfl
  | writeConfig => exact (execWriteConfig_ends ..).widen rfl
  | hartPass => exact (execHartPass_ends ..).widen rfl
  | unknownMailboxCommand => exact (execUnknownMailboxCommand_ends ..).widen rfl
  | extest => exact (execExtest_ends ..).widen rfl
  | idcode => exact (execIdcode_ends ..).widen rfl
  | samplePreload => exact (execSamplePreload_ends ..).widen rfl
  | bypass => exact (execBypass_ends ..).widen rfl
  | attach => exact (execAttach_ends ..).widen rfl
  | detach => exact (execDetach_ends ..).widen rfl
  | halt => exact (execHalt_ends ..).widen rfl
  | triadHalted => exact (execTriadHalted_ends ..).widen rfl
  | release => exact (execRelease_ends ..).widen rfl
  | step => exact (execStep_ends ..).widen rfl
  | dbgRead => exact (execDbgRead_ends ..).widen rfl
  | dbgWrite => exact (execDbgWrite_ends ..).widen rfl
  | logicReset => exact (execLogicReset_ends ..).widen rfl
  | start => exact (execStart_ends ..).widen rfl
  | clocksValid => exact (execClocksValid_ends ..).widen rfl
  | executiveLoaded => exact (execExecutiveLoaded_ends ..).widen rfl
  | refReady => exact (execRefReady_ends ..).widen rfl
  | refOnRetry => exact (execRefOnRetry_ends ..).widen rfl
  | microcodeAccepted => exact (execMicrocodeAccepted_ends ..).widen rfl
  | xinFailure => exact (execXinFailure_ends ..).widen rfl
  | monitorRelock => exact (execMonitorRelock_ends ..).widen rfl
  | clockReset => exact (execClockReset_ends ..).widen rfl
  | fieldResetRelease => exact (execFieldResetRelease_ends ..).widen rfl
  | fieldSupplyBandChange => exact (execFieldSupplyBandChange_ends ..).widen rfl
  | lastGasp => exact (execLastGasp_ends ..).widen rfl
  | fieldDieReset => exact (execFieldDieReset_ends ..).widen rfl
  | vloopLow => exact (execVloopLow_ends ..).widen rfl
  | idleFrame => exact (execIdleFrame_ends ..).widen rfl
  | sampleFrame => exact (execSampleFrame_ends ..).widen rfl
  | statusFrame => exact (execStatusFrame_ends ..).widen rfl
  | housekeepingFrame => exact (execHousekeepingFrame_ends ..).widen rfl
  | eventFrame => exact (execEventFrame_ends ..).widen rfl
  | commandFrame => exact (execCommandFrame_ends ..).widen rfl
  | phaseSend => exact (execPhaseSend_ends ..).widen rfl
  | phaseFrame => exact (execPhaseFrame_ends ..).widen rfl
  | loadFrame => exact (execLoadFrame_ends ..).widen rfl
  | safeFrame => exact (execSafeFrame_ends ..).widen rfl
  | commandTargetTick => exact (execCommandTargetTick_ends ..).widen rfl
  | bwRetransmit => exact (execBwRetransmit_ends ..).widen rfl
  | l2fLaneLost => exact (execL2fLaneLost_ends ..).widen rfl
  | f2lLaneLost => exact (execF2lLaneLost_ends ..).widen rfl
  | breakwaterTrained => exact (execBreakwaterTrained_ends ..).widen rfl
  | retrainTimeout => exact (execRetrainTimeout_ends ..).widen rfl
  | sampleLossClear => exact (execSampleLossClear_ends ..).widen rfl
  | slackWindowExpiry => exact (execSlackWindowExpiry_ends ..).widen rfl
  | diStateChange => exact (execDiStateChange_ends ..).widen rfl
  | diClassChange => exact (execDiClassChange_ends ..).widen rfl
  | senseDiff => exact (execSenseDiff_ends ..).widen rfl
  | pairImbal => exact (execPairImbal_ends ..).widen rfl
  | pathLimit => exact (execPathLimit_ends ..).widen rfl
  | shortSwitchOff => exact (execShortSwitchOff_ends ..).widen rfl
  | shortProbe => exact (execShortProbe_ends ..).widen rfl
  | openLoop => exact (execOpenLoop_ends ..).widen rfl
  | wiringCrossing => exact (execWiringCrossing_ends ..).widen rfl
  | wiringDeclare => exact (execWiringDeclare_ends ..).widen rfl
  | wiringTransientEnd => exact (execWiringTransientEnd_ends ..).widen rfl
  | wiringClear => exact (execWiringClear_ends ..).widen rfl
  | doReverse => exact (execDoReverse_ends ..).widen rfl
  | backfeed => exact (execBackfeed_ends ..).widen rfl
  | hardShort => exact (execHardShort_ends ..).widen rfl
  | steadyTrip => exact (execSteadyTrip_ends ..).widen rfl
  | floodWindowEnd => exact (execFloodWindowEnd_ends ..).widen rfl
  | clampEventStart => exact (execClampEventStart_ends ..).widen rfl
  | clampEventEnd => exact (execClampEventEnd_ends ..).widen rfl
  | clampEnergyTest => exact (execClampEnergyTest_ends ..).widen rfl
  | clampDecayStep => exact (execClampDecayStep_ends ..).widen rfl
  | thermalCompare => exact (execThermalCompare_ends ..).widen rfl
  | backoffExpiry => exact (execBackoffExpiry_ends ..).widen rfl
  | tokenRefill => exact (execTokenRefill_ends ..).widen rfl
  | quietReset => exact (execQuietReset_ends ..).widen rfl
  | governorUpdate => exact (execGovernorUpdate_ends ..).widen rfl
  | governorOver => exact (execGovernorOver_ends ..).widen rfl
  | governorReevaluate => exact (execGovernorReevaluate_ends ..).widen rfl
  | governorShed => exact (execGovernorShed_ends ..).widen rfl
  | windowDeclare => exact (execWindowDeclare_ends ..).widen rfl
  | ditherStart => exact (execDitherStart_ends ..).widen rfl
  | correlatorResult => exact (execCorrelatorResult_ends ..).widen rfl
  | offStatePulse => exact (execOffStatePulse_ends ..).widen rfl
  | phantomDeclare => exact (execPhantomDeclare_ends ..).widen rfl
  | phantomClear => exact (execPhantomClear_ends ..).widen rfl
  | phantomDriven => exact (execPhantomDriven_ends ..).widen rfl
  | pathCheck => exact (execPathCheck_ends ..).widen rfl
  | evidenceExpiry => exact (execEvidenceExpiry_ends ..).widen rfl
  | shortfall => exact (execShortfall_ends ..).widen rfl
  | excess => exact (execExcess_ends ..).widen rfl
  | complianceClear => exact (execComplianceClear_ends ..).widen rfl
  | aoOpen => exact (execAoOpen_ends ..).widen rfl
  | loopResistanceEstimate => exact (execLoopResistanceEstimate_ends ..).widen rfl
  | almRisk => exact (execAlmRisk_ends ..).widen rfl
  | dacRecompute => exact (execDacRecompute_ends ..).widen rfl
  | buttonPress => exact (execButtonPress_ends ..).widen rfl
  | hartPollDue => exact (execHartPollDue_ends ..).widen rfl
  | hartSearch => exact (execHartSearch_ends ..).widen rfl
  | hartTransactionStart => exact (execHartTransactionStart_ends ..).widen rfl
  | hartResponse => exact (execHartResponse_ends ..).widen rfl
  | hartTimeout => exact (execHartTimeout_ends ..).widen rfl
  | hartBurst => exact (execHartBurst_ends ..).widen rfl
  | hartModemSelftest => exact (execHartModemSelftest_ends ..).widen rfl
  | mainResult => exact (execMainResult_ends ..).widen rfl
  | alignCrossing => exact (execAlignCrossing_ends ..).widen rfl
  | ppsEdge => exact (execPpsEdge_ends ..).widen rfl
  | mainsEdge => exact (execMainsEdge_ends ..).widen rfl
  | tideInEdge => exact (execTideInEdge_ends ..).widen rfl
  | referenceEventProcess => exact (execReferenceEventProcess_ends ..).widen rfl
  | incApply => exact (execIncApply_ends ..).widen rfl
  | wheelStep => exact (execWheelStep_ends ..).widen rfl
  | referenceLost => exact (execReferenceLost_ends ..).widen rfl
  | characterEdge => exact (execCharacterEdge_ends ..).widen rfl
  | libraryChangeover => exact (execLibraryChangeover_ends ..).widen rfl
  | tideOutPulse => exact (execTideOutPulse_ends ..).widen rfl
  | tideOutEnd => exact (execTideOutEnd_ends ..).widen rfl
  | timeSend => exact (execTimeSend_ends ..).widen rfl
  | endpointRecompute => exact (execEndpointRecompute_ends ..).widen rfl
  | updateSend => exact (execUpdateSend_ends ..).widen rfl
  | sweepSend => exact (execSweepSend_ends ..).widen rfl
  | entryStale => exact (execEntryStale_ends ..).widen rfl
  | fenceComplete => exact (execFenceComplete_ends ..).widen rfl
  | generationApply => exact (execGenerationApply_ends ..).widen rfl
  | ruleCycle => exact (execRuleCycle_ends ..).widen rfl
  | ruleOverrun => exact (execRuleOverrun_ends ..).widen rfl
  | train => exact (execTrain_ends ..).widen rfl
  | trainSend => exact (execTrainSend_ends ..).widen rfl
  | commaAligned => exact (execCommaAligned_ends ..).widen rfl
  | trainingTimeout => exact (execTrainingTimeout_ends ..).widen rfl
  | trainingRetry => exact (execTrainingRetry_ends ..).widen rfl
  | linkWrite => exact (execLinkWrite_ends ..).widen rfl
  | update => exact (execUpdate_ends ..).widen rfl
  | fenceRequest => exact (execFenceRequest_ends ..).widen rfl
  | writeRsp => exact (execWriteRsp_ends ..).widen rfl
  | updateAck => exact (execUpdateAck_ends ..).widen rfl
  | fenceRsp => exact (execFenceRsp_ends ..).widen rfl
  | errorRsp => exact (execErrorRsp_ends ..).widen rfl
  | timeRecord => exact (execTimeRecord_ends ..).widen rfl
  | disc => exact (execDisc_ends ..).widen rfl
  | lampRecord => exact (execLampRecord_ends ..).widen rfl
  | eventRecord => exact (execEventRecord_ends ..).widen rfl
  | crt => exact (execCrt_ends ..).widen rfl
  | ack => exact (execAck_ends ..).widen rfl
  | cen => exact (execCen_ends ..).widen rfl
  | censusSend => exact (execCensusSend_ends ..).widen rfl
  | censusMissing => exact (execCensusMissing_ends ..).widen rfl
  | markDelayRequest => exact (execMarkDelayRequest_ends ..).widen rfl
  | markDelayResponse => exact (execMarkDelayResponse_ends ..).widen rfl
  | markTimeReference => exact (execMarkTimeReference_ends ..).widen rfl
  | delayExchange => exact (execDelayExchange_ends ..).widen rfl
  | linkFrameSend => exact (execLinkFrameSend_ends ..).widen rfl
  | linkRetransmit => exact (execLinkRetransmit_ends ..).widen rfl
  | lossOfSignal => exact (execLossOfSignal_ends ..).widen rfl
  | codeViolation => exact (execCodeViolation_ends ..).widen rfl
  | requestBudgetExpiry => exact (execRequestBudgetExpiry_ends ..).widen rfl
  | requestTimeout => exact (execRequestTimeout_ends ..).widen rfl
  | laneDisagree => exact (execLaneDisagree_ends ..).widen rfl
  | laneSelfReport => exact (execLaneSelfReport_ends ..).widen rfl
  | iauMinority => exact (execIauMinority_ends ..).widen rfl
  | resyncComplete => exact (execResyncComplete_ends ..).widen rfl
  | voterFault => exact (execVoterFault_ends ..).widen rfl
  | voterSelftest => exact (execVoterSelftest_ends ..).widen rfl
  | stateSurvey => exact (execStateSurvey_ends ..).widen rfl
  | watchdog => exact (execWatchdog_ends ..).widen rfl
  | handoverStart => exact (execHandoverStart_ends ..).widen rfl
  | exchangeComplete => exact (execExchangeComplete_ends ..).widen rfl
  | executiveResume => exact (execExecutiveResume_ends ..).widen rfl
  | handoverReverse => exact (execHandoverReverse_ends ..).widen rfl
  | probationEnd => exact (execProbationEnd_ends ..).widen rfl
  | reloadStart => exact (execReloadStart_ends ..).widen rfl
  | reloadComplete => exact (execReloadComplete_ends ..).widen rfl
  | reloadBodyFail => exact (execReloadBodyFail_ends ..).widen rfl
  | queueEntry => exact (execQueueEntry_ends ..).widen rfl
  | memoryFrame => exact (execMemoryFrame_ends ..).widen rfl
  | pollFrame => exact (execPollFrame_ends ..).widen rfl
  | entryComplete => exact (execEntryComplete_ends ..).widen rfl
  | contBreak => exact (execContBreak_ends ..).widen rfl
  | xipRead => exact (execXipRead_ends ..).widen rfl
  | selectModeChange => exact (execSelectModeChange_ends ..).widen rfl
  | checkUnitStart => exact (execCheckUnitStart_ends ..).widen rfl
  | data8 => exact (execData8_ends ..).widen rfl
  | data16 => exact (execData16_ends ..).widen rfl
  | data32 => exact (execData32_ends ..).widen rfl
  | logFlush => exact (execLogFlush_ends ..).widen rfl
  | scrub => exact (execScrub_ends ..).widen rfl
  | xinRestored => exact (execXinRestored_ends ..).widen rfl
  | clockWaitTimeout => exact (execClockWaitTimeout_ends ..).widen rfl
  | fieldDieFaultDetected => exact (execFieldDieFaultDetected_ends ..).widen rfl
  | retentionStoreLoss => exact (execRetentionStoreLoss_ends ..).widen rfl
  | stagingFilled => exact (execStagingFilled_ends ..).widen rfl
  | trimledTimer => exact (execTrimledTimer_ends ..).widen rfl

end Sys2Proof.Machine
end

section
/-!
Every step keeps a sound state sound (02 R49, 11 R294, 16 R449, 17 R458, 18 R483): an idle tick and every command do.
-/
namespace Sys2Proof.Machine

/-- Settles O3: an idle tick and every command keep a sound state sound, and the queue is no part of what Sound states. -/
theorem everyStepKeepsSound : Obligations.EveryStepKeepsSound := by
  intro s t hs h
  unfold step at h
  split at h
  · exact Host.Outcome.next.inj h ▸ (idle_moves s).sound hs
  next c rest _ =>
    obtain ⟨u, hu, hm⟩ := exec_ends c { s with pending := rest }
    cases hu.symm.trans h
    refine hm.sound fun p => ?_
    cases p
    case pending => trivial
    all_goals exact Part.sound_same (s := s) rfl (hs _)

/-- Settles O2: every field of the state after reset is at its default, which is sound. -/
theorem resetIsSound : Obligations.ResetIsSound := ⟨State.reset_sound, rfl⟩

end Sys2Proof.Machine
end

section
/-!
Free values (log 5) are drawn forward only: no operation and no command takes the count of those drawn back.
-/
namespace Sys2Proof.Machine

/-- No fewer free values have been drawn at `t` than at `s`. -/
def Later (s t : State) : Prop := s.free ≤ t.free

namespace Later

theorem refl (s : State) : Later s s := Nat.le_refl _

theorem step {s t u : State} (k : Later t u) (h : Later s t) : Later s u := Nat.le_trans h k

theorem trans {s t u : State} (h : Later s t) (k : Later t u) : Later s u := Nat.le_trans h k

/-- What leaves the count alone. -/
theorem of_moves {ps : List Part} {s t : State} (h : Moves ps s t) (hf : ps.contains .free = false) : Later s t :=
  Nat.le_of_eq (h.same.out .free (by simpa using hf)).symm

/-- A record update of `t` that leaves the count alone. -/
theorem upd {s t : State}
    {x0 x1 x2 x3 x4 x5 x6 x7 x8 x9 x10 x11 x12 x13 x14 x15 x16 x17 x18 x19 x20 x21 x22 x23 x24 x25 x26 x27 x28 x29 x30 x31 x32}
    (_ : x0 = t.pending) (e : x1 = t.free) (h : Later s t) :
    Later s
      (State.mk x0 x1 x2 x3 x4 x5 x6 x7 x8 x9 x10 x11 x12 x13 x14 x15 x16 x17 x18 x19 x20 x21 x22 x23 x24 x25 x26 x27 x28 x29 x30 x31
        x32) :=
  Nat.le_trans h (Nat.le_of_eq e.symm)

/-- A record update of `t` that counts the values drawn. -/
theorem draw {s t : State}
    {x0 x1 x2 x3 x4 x5 x6 x7 x8 x9 x10 x11 x12 x13 x14 x15 x16 x17 x18 x19 x20 x21 x22 x23 x24 x25 x26 x27 x28 x29 x30 x31 x32}
    (_ : x0 = t.pending) (e : t.free ≤ x1) (h : Later s t) :
    Later s
      (State.mk x0 x1 x2 x3 x4 x5 x6 x7 x8 x9 x10 x11 x12 x13 x14 x15 x16 x17 x18 x19 x20 x21 x22 x23 x24 x25 x26 x27 x28 x29 x30 x31
        x32) :=
  Nat.le_trans h e

theorem ite {s a b : State} {c : Prop} [Decidable c] (ha : c → Later s a) (hb : ¬ c → Later s b) : Later s (if c then a else b) := by
  split
  · exact ha ‹_›
  · exact hb ‹_›

theorem dite {s : State} {c : Prop} [Decidable c] {a : c → State} {b : ¬ c → State} (ha : ∀ h, Later s (a h)) (hb : ∀ h, Later s (b h)) :
    Later s (if h : c then a h else b h) := by
  split
  · exact ha _
  · exact hb _

theorem ofFst {t a : State} {α : Type} {p : State × α} {b : α} (h : p = (a, b)) (k : Later t p.1) : Later t a := by
  subst h
  exact k

theorem ofSnd {t a : State} {α : Type} {p : α × State} {b : α} (h : p = (b, a)) (k : Later t p.2) : Later t a := by
  subst h
  exact k

theorem foldl {α : Type} {s t : State} {f : State → α → State} {l : List α} (hf : ∀ a x, Later a (f a x)) (h : Later s t) :
    Later s (l.foldl f t) := by
  induction l generalizing t with
  | nil => exact h
  | cons x l ih => exact ih (step (hf t x) h)

/-- A fold that carries something beside the state. -/
theorem foldlFst {α β : Type} {s : State} {f : State × β → α → State × β} {l : List α} {t : State × β} (hf : ∀ a x,
    Later a.1 (f a x).1)
    (h : Later s t.1) : Later s (l.foldl f t).1 := by
  induction l generalizing t with
  | nil => exact h
  | cons x l ih => exact ih (step (hf t x) h)

end Later

/-- Command meaning `o` ends with no fewer free values drawn than `s` has. -/
def EndsLater (s : State) (o : Host.Outcome State Fault Refusal) : Prop := ∃ t, o = .next t ∧ Later s t

theorem State.draw_later (s : State) : Later s (State.draw s).2 := by
  unfold State.draw
  dsimp -zeta only
  refine Later.draw rfl (Nat.le_succ _) ?_
  exact Later.refl _

theorem whenServed_later (s : State) (h : HeldFrame) (f : State → State) (hf2 : ∀ a0, Later a0 (f a0)) : Later s (whenServed s h f) := by
  unfold whenServed
  exact Later.ite (fun _ => hf2 ..) fun _ => Later.ite (fun _ => Later.upd rfl rfl (Later.refl _)) fun _ => Later.refl _

theorem mbxRun_later (s : State) (i : SlotIx) (code : W16) (tag : W16) (accepted : Mode → Bool) (masks : List (Fin 32 × W32))
    (f : State → State) (hf6 : ∀ a0, Later a0 (f a0)) : Later s (mbxRun s i code tag accepted masks f) := by
  unfold mbxRun
  refine Later.ite (fun _ => ?_) fun _ => ?_
  · exact Later.upd rfl rfl (Later.refl _)
  · extract_lets +onlyGivenNames x1
    have h1 : Later s x1 := Later.of_moves (mbxStart_moves ..) rfl
    clear_value x1
    refine Later.ite (fun _ => ?_) fun _ => ?_
    · exact Later.trans h1 (Later.of_moves (mbxEnd_moves ..) rfl)
    · split
      · exact Later.trans h1 (Later.of_moves (mbxEnd_moves ..) rfl)
      · exact Later.trans h1 (hf6 ..)

theorem mbxServed_later (s : State) (i : SlotIx) (code : W16) (tag : W16) (run : State → SlotIx → W16 → State)
    (hf4 : ∀ a0 a1 a2, Later a0 (run a0 a1 a2)) : Later s (mbxServed s i code tag run) := by
  unfold mbxServed
  exact whenServed_later (hf2 := fun _ => hf4 ..) ..

theorem discardAcc_later (s : State) (n : Chan) : Later s (discardAcc s n) := by
  unfold discardAcc
  extract_lets +onlyGivenNames x1
  have h1 : Later s x1 := by
    unfold x1
    refine Later.step (Later.of_moves (State.modCh_moves ..) rfl) ?_
    exact Later.refl _
  clear_value x1
  split
  · split
    refine Later.step (Later.of_moves (mbxEnd_moves ..) rfl) ?_
    refine Later.upd rfl rfl ?_
    refine Later.ofSnd (by assumption) ?_
    refine Later.step (State.draw_later ..) ?_
    assumption
  · assumption

theorem floodCut_later (s : State) (c : FdChan) : Later s (floodCut s c).2 := by
  unfold floodCut
  split
  · dsimp -zeta only
    refine Later.step (State.draw_later ..) ?_
    exact Later.refl _
  · dsimp -zeta only
    exact Later.refl _

theorem turnOff_later (s : State) (n : Chan) : Later s (turnOff s n) := by
  unfold turnOff
  extract_lets +onlyGivenNames x1
  clear_value x1
  extract_lets +onlyGivenNames x2
  have h2 : Later s x2.2 := by
    unfold x2
    refine Later.step (floodCut_later ..) ?_
    exact Later.refl _
  clear_value x2
  extract_lets +onlyGivenNames x3
  have h3 : Later s x3 := by
    unfold x3
    refine Later.ite (fun _ => ?_) (fun _ => ?_)
    · refine Later.step (Later.of_moves (report_moves ..) rfl) ?_
      assumption
    · assumption
  clear_value x3
  extract_lets +onlyGivenNames x4
  have h4 : Later s x4 := by
    unfold x4
    refine Later.step (Later.of_moves (modHalves_moves ..) rfl) ?_
    assumption
  clear_value x4
  refine Later.step (Later.of_moves (report_moves ..) rfl) ?_
  refine Later.step (Later.of_moves (report_moves ..) rfl) ?_
  assumption

theorem drive_later (s : State) (n : Chan) : Later s (drive s n) := by
  unfold drive
  extract_lets +onlyGivenNames x1
  extract_lets +onlyGivenNames x2
  refine Later.ite (fun _ => ?_) fun _ => ?_
  · exact Later.ite (fun _ => Later.ite (fun _ => Later.refl _) fun _ => Later.ite (fun _ => Later.of_moves (modHalves_moves ..) rfl) fun _
      => Later.ite (fun _ => Later.ite (fun _ => Later.of_moves (reportStatus_moves ..) rfl) fun _ => Later.refl _) fun _ => Later.of_moves
      (turnOn_moves ..) rfl) fun _ => Later.ite (fun _ => turnOff_later ..) fun _ => Later.of_moves (modHalves_moves ..) rfl
  · refine Later.ite (fun _ => ?_) fun _ => ?_
    · exact Later.refl _
    · extract_lets +onlyGivenNames x3
      exact Later.ite (fun _ => Later.refl _) fun _ => Later.ite (fun _ => Later.of_moves (refuseRise_moves ..) rfl) fun _ => Later.trans
        (Later.of_moves (State.modFd_moves ..) rfl) (Later.of_moves (reportStatus_moves ..) rfl)

theorem demand_later (s : State) (n : Chan) (f : FdChan → FdChan) : Later s (demand s n f) := by
  unfold demand
  extract_lets +onlyGivenNames x1
  extract_lets +onlyGivenNames x2
  have h2 : Later s x2 := Later.trans (Later.of_moves (State.modFd_moves ..) rfl) (Later.of_moves (levelChar_moves ..) rfl)
  clear_value x2
  extract_lets +onlyGivenNames x3
  exact Later.trans (Later.ite (fun _ => h2) fun _ => Later.trans h2 (Later.of_moves (report_moves ..) rfl)) (drive_later ..)

theorem fdTrip_later (s : State) (n : Chan) (bit : Fin 3) (inLimit : Bool) (ma : W16) (tj : Byte) : Later s (fdTrip s n bit inLimit ma tj)
    := by
  unfold fdTrip
  extract_lets +onlyGivenNames x1
  extract_lets +onlyGivenNames x2
  have h2 : Later s x2 := Later.of_moves (modHalves_moves ..) rfl
  clear_value x2
  extract_lets +onlyGivenNames x3
  have h3 : Later s x3 := Later.ite (fun _ => Later.trans h2 (turnOff_later ..)) fun _ => h2
  clear_value x3
  extract_lets +onlyGivenNames x4
  extract_lets +onlyGivenNames _ x5
  have h5 : Later s x5 := Later.upd rfl rfl h3
  clear_value x5
  exact Later.trans h5 (Later.of_moves (report_moves ..) rfl)

theorem applySafe_later (s : State) (n : Chan) : Later s (applySafe s n) := by
  unfold applySafe
  extract_lets +onlyGivenNames x1
  exact Later.ite (fun _ => Later.trans (demand_later ..) (Later.of_moves (refuseRise_moves ..) rfl)) fun _ => demand_later ..

theorem applySafeAll_later (s : State) : Later s (applySafeAll s) := by
  unfold applySafeAll
  extract_lets +onlyGivenNames x1
  have h1 : Later s x1 := Later.ite (fun _ => Later.foldl (fun _ _ => Later.of_moves (State.modFd_moves ..) rfl) (Later.refl _)) fun _ =>
    Later.refl _
  clear_value x1
  exact Later.trans (Later.foldl (fun _ _ => applySafe_later ..) h1) (Later.of_moves (reportStatus_moves ..) rfl)

theorem configureDie.configureNote_later (s : State) (a : State) (n : Chan) : Later a (configureDie.configureNote s a n) := by
  unfold configureDie.configureNote
  extract_lets +onlyGivenNames x1
  extract_lets +onlyGivenNames x2
  extract_lets +onlyGivenNames x3
  have h3 : Later a x3 := Later.ite (fun _ => Later.of_moves (reportStatus_moves ..) rfl) fun _ => Later.refl _
  clear_value x3
  extract_lets +onlyGivenNames x4
  have h4 : Later a x4 := Later.ite (fun _ => Later.trans h3 (Later.of_moves (report_moves ..) rfl)) fun _ => h3
  clear_value x4
  extract_lets +onlyGivenNames x5
  have h5 : Later a x5 := Later.ite (fun _ => Later.trans h4 (Later.of_moves (report_moves ..) rfl)) fun _ => h4
  clear_value x5
  extract_lets +onlyGivenNames x6
  have h6 : Later a x6 := Later.ite (fun _ => Later.trans h5 (Later.of_moves (report_moves ..) rfl)) fun _ => h5
  clear_value x6
  extract_lets +onlyGivenNames x7
  have h7 : Later a x7 := Later.trans h6 (Later.of_moves (levelChar_moves ..) rfl)
  clear_value x7
  extract_lets +onlyGivenNames x8
  exact Later.trans (Later.ite (fun _ => h7) fun _ => Later.trans h7 (Later.of_moves (report_moves ..) rfl)) (drive_later ..)

theorem fieldAct_later (s : State) (a : FieldAct) : Later s (fieldAct s a) := by
  unfold fieldAct
  split
  · exact Later.ite (fun _ => Later.of_moves (refuseRise_moves ..) rfl) fun _ => demand_later ..
  · exact demand_later ..
  · extract_lets +onlyGivenNames x1
    exact Later.ite (fun _ => Later.trans (Later.trans (Later.trans (Later.of_moves (modHalves_moves ..) rfl)
      (Later.of_moves (report_moves ..) rfl)) (drive_later ..)) (Later.of_moves (report_moves ..) rfl)) fun _ => Later.of_moves
      (reportStatus_moves ..) rfl
  · exact applySafe_later ..
  · extract_lets +onlyGivenNames x2
    exact Later.trans (demand_later ..) (Later.of_moves (noteBlock_moves ..) rfl)
  · exact Later.trans (demand_later ..) (Later.of_moves (noteBlock_moves ..) rfl)
  · extract_lets +onlyGivenNames x3
    exact demand_later ..
  · exact demand_later ..
  · exact Later.trans (Later.of_moves (modHalves_moves ..) rfl) (Later.of_moves (report_moves ..) rfl)
  · extract_lets +onlyGivenNames x4
    have h4 : Later s x4 := Later.trans (Later.of_moves (modHalves_moves ..) rfl) (Later.of_moves (report_moves ..) rfl)
    clear_value x4
    extract_lets +onlyGivenNames x5
    have h5 : Later s x5 := Later.trans h4 (Later.of_moves (State.modFd_moves ..) rfl)
    clear_value x5
    exact Later.ite (fun _ => h5) fun _ => Later.trans (Later.trans h5 (Later.of_moves (noteBlock_moves ..) rfl)) (drive_later ..)
  · exact Later.of_moves (reportStatus_moves ..) rfl
  · exact Later.ite (fun _ => Later.of_moves (reportStatus_moves ..) rfl) fun _ => Later.of_moves (State.modFd_moves ..) rfl

theorem configureDie_later (s : State) (g : Generation) (fresh : Bool) : Later s (configureDie s g fresh) := by
  unfold configureDie
  extract_lets +onlyGivenNames x1
  extract_lets +onlyGivenNames x2
  extract_lets +onlyGivenNames _ x3
  have h3 : Later s x3 := Later.upd rfl rfl (Later.refl _)
  clear_value x3
  exact Later.foldl (fun _ _ => configureDie.configureNote_later ..) h3

theorem receiveFrame_later (s : State) (k : PortIx) (h : LinkHeader) (m : LinkMsg) (hold : Bool) (f : State → State)
    (hf5 : ∀ a0, Later a0 (f a0)) : Later s (receiveFrame s k h m hold f) := by
  unfold receiveFrame
  refine Later.ite (fun _ => ?_) fun _ => ?_
  · exact Later.of_moves (trainingFrame_moves ..) rfl
  · extract_lets +onlyGivenNames x1
    refine Later.ite (fun _ => ?_) fun _ => ?_
    · exact Later.of_moves (State.modPort_moves ..) rfl
    · refine Later.ite (fun _ => ?_) fun _ => ?_
      · exact Later.trans (Later.of_moves (crcError_moves ..) rfl) (Later.of_moves (State.modPort_moves ..) rfl)
      · refine Later.ite (fun _ => ?_) fun _ => ?_
        · exact Later.of_moves (State.modPort_moves ..) rfl
        · extract_lets +onlyGivenNames x2
          extract_lets +onlyGivenNames x3
          have h3 : Later s x3 := Later.of_moves (State.modPort_moves ..) rfl
          clear_value x3
          exact Later.ite (fun _ => Later.trans h3 (hf5 ..)) fun _ => Later.trans h3 (Later.of_moves (State.modPort_moves ..) rfl)

theorem aoIncrease_later (s : State) (n : Chan) (a : W16) (b : W16) : Later s (aoIncrease s n a b).2 := by
  unfold aoIncrease
  split
  · dsimp -zeta only
    exact Later.refl _
  · split
    dsimp -zeta only
    refine Later.ofSnd (by assumption) ?_
    refine Later.step (State.draw_later ..) ?_
    exact Later.refl _

theorem aoAdmit_later (s : State) (n : Chan) (cmd : W16) (alarm : BitVec 2) : Later s (aoAdmit s n cmd alarm).2 := by
  unfold aoAdmit
  extract_lets +onlyGivenNames x1
  clear_value x1
  extract_lets +onlyGivenNames x2
  clear_value x2
  split
  · dsimp -zeta only
    exact Later.refl _
  · split
    · dsimp -zeta only
      exact Later.refl _
    · split
      dsimp -zeta only
      refine Later.ofSnd (by assumption) ?_
      refine Later.step (aoIncrease_later ..) ?_
      exact Later.refl _

theorem takeCmd_later (s : State) (n : Chan) (v : W16) : Later s (takeCmd s n v) := by
  unfold takeCmd
  split
  · extract_lets +onlyGivenNames x1
    have h1 : Later s x1 := by
      unfold x1
      refine Later.step (Later.of_moves (State.modLoop_moves ..) rfl) ?_
      refine Later.step (Later.of_moves (govClear_moves ..) rfl) ?_
      refine Later.ofSnd (by assumption) ?_
      refine Later.step (aoAdmit_later ..) ?_
      exact Later.refl _
    clear_value x1
    refine Later.step (Later.of_moves (targetAO_moves ..) rfl) ?_
    refine Later.ite (fun _ => ?_) (fun _ => ?_)
    · refine Later.step (Later.of_moves (showCommand_moves ..) rfl) ?_
      assumption
    · assumption
  · refine Later.step (Later.of_moves (putLoop_moves ..) rfl) ?_
    refine Later.step (Later.of_moves (showCommand_moves ..) rfl) ?_
    refine Later.ite (fun _ => ?_) (fun _ => ?_)
    · refine Later.ofSnd (by assumption) ?_
      refine Later.step (aoAdmit_later ..) ?_
      exact Later.refl _
    · refine Later.step (Later.of_moves (govClear_moves ..) rfl) ?_
      refine Later.ofSnd (by assumption) ?_
      refine Later.step (aoAdmit_later ..) ?_
      exact Later.refl _
  · refine Later.step (Later.of_moves (putLoop_moves ..) rfl) ?_
    refine Later.step (Later.of_moves (showCommand_moves ..) rfl) ?_
    refine Later.step (Later.of_moves (govRefuse_moves ..) rfl) ?_
    refine Later.ofSnd (by assumption) ?_
    refine Later.step (aoAdmit_later ..) ?_
    exact Later.refl _

theorem demandAO_later (s : State) (n : Chan) (v : W16) : Later s (demandAO s n v) := by
  unfold demandAO
  exact Later.trans (takeCmd_later ..) (Later.of_moves (sendAO_moves ..) rfl)

theorem writeAO_later (s : State) (n : Chan) (v : W16) : Later s (writeAO s n v) := by
  unfold writeAO
  extract_lets +onlyGivenNames x1
  extract_lets +onlyGivenNames x2
  have h2 : Later s x2 := Later.of_moves (State.modCh_moves ..) rfl
  clear_value x2
  extract_lets +onlyGivenNames x3
  have h3 : Later s x3 := Later.trans (Later.trans h2 (Later.of_moves (epAccept_moves ..) rfl)) (Later.of_moves (putLoop_moves ..) rfl)
  clear_value x3
  exact Later.ite (fun _ => Later.trans h3 (demandAO_later ..)) fun _ => h3

theorem takeAlarm_later (s : State) (n : Chan) (sel : BitVec 2)
    : Later s (takeAlarm s n sel) := by
  unfold takeAlarm
  split
  · refine Later.step (Later.of_moves (targetAO_moves ..) rfl) ?_
    refine Later.step (Later.of_moves (State.modLoop_moves ..) rfl) ?_
    refine Later.step (Later.of_moves (alarmClear_moves ..) rfl) ?_
    refine Later.ofSnd (by assumption) ?_
    refine Later.step (aoAdmit_later ..) ?_
    exact Later.refl _
  · refine Later.step (Later.of_moves (alarmRefused_moves ..) rfl) ?_
    refine Later.ite (fun _ => ?_) (fun _ => ?_)
    · refine Later.ofSnd (by assumption) ?_
      refine Later.step (aoAdmit_later ..) ?_
      exact Later.refl _
    · refine Later.step (Later.of_moves (raise_moves ..) rfl) ?_
      refine Later.ofSnd (by assumption) ?_
      refine Later.step (aoAdmit_later ..) ?_
      exact Later.refl _
  · refine Later.step (Later.of_moves (alarmRefused_moves ..) rfl) ?_
    refine Later.step (Later.of_moves (govRefuseAlarm_moves ..) rfl) ?_
    refine Later.ofSnd (by assumption) ?_
    refine Later.step (aoAdmit_later ..) ?_
    exact Later.refl _

theorem demandAlarm_later (s : State) (n : Chan) (sel : BitVec 2) : Later s (demandAlarm s n sel) := by
  unfold demandAlarm
  exact Later.trans (takeAlarm_later ..) (Later.of_moves (sendAO_moves ..) rfl)

theorem writeAlarm_later (s : State) (n : Chan) (v : W16) : Later s (writeAlarm s n v) := by
  unfold writeAlarm
  extract_lets +onlyGivenNames x1
  extract_lets +onlyGivenNames x2
  have h2 : Later s x2 := Later.ite (fun _ => Later.of_moves (State.modLoop_moves ..) rfl) fun _ => Later.of_moves (State.modLoop_moves ..)
    rfl
  clear_value x2
  extract_lets +onlyGivenNames x3
  have h3 : Later s x3 := Later.trans (Later.trans h2 (Later.of_moves (epAccept_moves ..) rfl)) (Later.of_moves (putLoop_moves ..) rfl)
  clear_value x3
  exact Later.ite (fun _ => Later.trans h3 (demandAlarm_later ..)) fun _ => h3

theorem retireChannel_later (s : State) (n : Chan) (cause : RetCause) : Later s (retireChannel s n cause) := by
  unfold retireChannel
  extract_lets +onlyGivenNames x1
  have h1 : Later s x1 := Later.trans (Later.trans (Later.of_moves (State.modLoop_moves ..) rfl) (Later.of_moves (govClear_moves ..) rfl))
    (Later.of_moves (State.modCh_moves ..) rfl)
  clear_value x1
  extract_lets +onlyGivenNames x2
  have h2 : Later s x2 := Later.foldl (fun _ _ => Later.trans (Later.of_moves (State.modCh_moves ..) rfl)
    (Later.of_moves (State.modLoop_moves ..) rfl)) (Later.trans (Later.trans h1 (Later.of_moves (hartAbandon_moves ..) rfl))
    (discardAcc_later ..))
  clear_value x2
  extract_lets +onlyGivenNames x4
  have h4 : Later s x4 := Later.trans (Later.ite (fun _ => Later.trans h2 (Later.of_moves (targetOff_moves ..) rfl)) fun _ => h2)
    (Later.of_moves (hartPeriods_moves ..) rfl)
  clear_value x4
  extract_lets +onlyGivenNames x5
  have h5 : Later s x5 := Later.trans h4 (Later.of_moves (command_moves ..) rfl)
  clear_value x5
  extract_lets +onlyGivenNames x6
  have h6 : Later s x6 := Later.trans (Later.trans h5 (Later.of_moves (raiseProt_moves ..) rfl)) (Later.of_moves (refreshAll_moves ..) rfl)
  clear_value x6
  exact Later.trans h6 (Later.of_moves (reduce_moves ..) rfl)

theorem mapOnto_later (s : State) (p : Chan) (m : Chan) : Later s (mapOnto s p m) := by
  unfold mapOnto
  extract_lets +onlyGivenNames x1
  have h1 : Later _ x1 := Later.trans (discardAcc_later ..) (discardAcc_later ..)
  clear_value x1
  extract_lets +onlyGivenNames x2
  have h2 : Later _ x2 := Later.trans (Later.trans h1 (Later.of_moves (State.modCh_moves ..) rfl))
    (Later.of_moves (State.modCh_moves ..) rfl)
  clear_value x2
  extract_lets +onlyGivenNames x3
  have h3 : Later _ x3 := Later.trans h2 (Later.of_moves (command_moves ..) rfl)
  clear_value x3
  extract_lets +onlyGivenNames x4
  have h4 : Later _ x4 := Later.ite (fun _ => Later.trans h3 (Later.of_moves (demandDO_moves ..) rfl)) fun _ => h3
  clear_value x4
  exact Later.trans (Later.trans h4 (Later.of_moves (refresh_moves ..) rfl)) (Later.of_moves (refresh_moves ..) rfl)

theorem mapPending.mapOne_later (a : State × List Chan) (p : Chan)
    : Later a.1 (mapPending.mapOne a p).1 := by
  unfold mapPending.mapOne
  split
  · extract_lets +onlyGivenNames x1
    split
    · dsimp -zeta only
      refine Later.step (mapOnto_later ..) ?_
      exact Later.refl _
    · extract_lets +onlyGivenNames x2
      have h2 : Later a.1 x2 := by
        unfold x2
        refine Later.step (Later.of_moves (State.modCh_moves ..) rfl) ?_
        exact Later.refl _
      clear_value x2
      extract_lets +onlyGivenNames x3
      clear_value x3
      dsimp -zeta only
      refine Later.ite (fun _ => ?_) (fun _ => ?_)
      · assumption
      · refine Later.step (Later.of_moves (raise_moves ..) rfl) ?_
        assumption
  · exact Later.refl _

theorem classify_later (s : State) (n : Chan) (tick : W64) : Later s (classify s n tick) := by
  unfold classify
  extract_lets +onlyGivenNames x1
  refine Later.ite (fun _ => ?_) fun _ => ?_
  · exact Later.of_moves (raiseProt_moves ..) rfl
  · refine Later.ite (fun _ => ?_) fun _ => ?_
    · exact retireChannel_later ..
    · refine Later.ite (fun _ => ?_) fun _ => ?_
      · exact retireChannel_later ..
      · extract_lets +onlyGivenNames x2
        exact Later.trans (Later.of_moves (State.modCh_moves ..) rfl) (Later.of_moves (raiseProt_moves ..) rfl)

theorem takeTrip_later (s : State) (n : Chan) (bit : Fin 3) (cool : List (Fin 10)) (inLimit : Bool) (ma : W16) (tj : Byte) (tick : W64) :
    Later s (takeTrip s n bit cool inLimit ma tj tick) := by
  unfold takeTrip
  extract_lets +onlyGivenNames x1
  have h1 : Later s x1 := Later.of_moves (State.modCh_moves ..) rfl
  clear_value x1
  exact Later.trans (Later.trans (Later.trans h1 (Later.of_moves (refillFirst_moves ..) rfl)) (classify_later ..))
    (Later.of_moves (refresh_moves ..) rfl)

theorem takeAO_later (s : State) (n : Chan) : Later s (takeAO s n) := by
  unfold takeAO
  extract_lets +onlyGivenNames x1
  extract_lets +onlyGivenNames x2
  extract_lets +onlyGivenNames x3
  have h3 : Later s x3 := Later.ite (fun _ => Later.refl _) fun _ => Later.ite (fun _ => Later.of_moves (State.modLoop_moves ..) rfl) fun _
    => takeAlarm_later ..
  clear_value x3
  extract_lets +onlyGivenNames x4
  have h4 : Later s x4 := Later.ite (fun _ => h3) fun _ => Later.trans h3 (takeCmd_later ..)
  clear_value x4
  exact Later.ite (fun _ => Later.trans h4 (Later.of_moves (targetAO_moves ..) rfl)) fun _ => h4

theorem resumeAO_later (s : State) (n : Chan) : Later s (resumeAO s n) := by
  unfold resumeAO
  refine Later.ite (fun _ => ?_) fun _ => ?_
  · split
    · exact Later.of_moves (setTarget_moves ..) rfl
    · exact Later.of_moves (safeTarget_moves ..) rfl
  · extract_lets +onlyGivenNames x1
    have h1 : Later s x1 := Later.of_moves (targetAO_moves ..) rfl
    clear_value x1
    exact Later.ite (fun _ => Later.trans (Later.trans h1 (takeAO_later ..)) (Later.of_moves (sendAO_moves ..) rfl)) fun _ => h1

theorem takeCommands_later (s : State) : Later s (takeCommands s) := by
  unfold takeCommands
  exact Later.foldl (fun _ _ => Later.ite (fun _ => Later.of_moves (takeDO_moves ..) rfl) fun _ => Later.ite (fun _ => takeAO_later ..)
    fun _ => Later.refl _) (Later.refl _)

theorem mapPending_later (s : State) : Later s (mapPending s) := by
  unfold mapPending
  extract_lets +onlyGivenNames x1
  have h1 : Later s x1.1 := by
    unfold x1
    refine Later.foldlFst (fun y2 z2 => ?_) ?_
    · refine Later.step (mapPending.mapOne_later ..) ?_
      exact Later.refl _
    · dsimp -zeta only
      exact Later.refl _
  clear_value x1
  extract_lets +onlyGivenNames x3
  have h3 : Later s x3 := by
    unfold x3
    assumption
  refine Later.upd rfl rfl ?_
  assumption

theorem mbxEndFree_later (s : State) (i : SlotIx) (result : Byte) : Later s (mbxEndFree s i result) := by
  unfold mbxEndFree
  refine Later.step (Later.of_moves (mbxEnd_moves ..) rfl) ?_
  refine Later.step (State.draw_later ..) ?_
  exact Later.refl _

theorem trimEnd_later (s : State) (slot : Option SlotIx) (span : Bool) (result : Byte) (detail : Option W32) : Later s
    (trimEnd s slot span result detail) := by
  unfold trimEnd
  split
  · split
    · exact Later.of_moves (mbxEnd_moves ..) rfl
    · exact mbxEndFree_later ..
  · exact Later.of_moves (buttonEnd_moves ..) rfl

theorem trimRecord_later (s : State) (c : TrimCapture) (p : CalPoint) (written : Bool)
    : Later s (trimRecord s c p written) := by
  unfold trimRecord
  refine Later.ite (fun _ => ?_) (fun _ => ?_)
  · refine Later.step (trimEnd_later ..) ?_
    exact Later.refl _
  · extract_lets +onlyGivenNames x1
    have h1 : Later s x1.1 := by
      unfold x1
      refine Later.step (Later.of_moves (recordPoint_moves ..) rfl) ?_
      exact Later.refl _
    clear_value x1
    extract_lets +onlyGivenNames x2
    have h2 : Later s x2 := by
      unfold x2
      split
      · refine Later.step (Later.of_moves (mbxReturn_moves ..) rfl) ?_
        refine Later.step (Later.of_moves (mbxReturn_moves ..) rfl) ?_
        refine Later.step (Later.of_moves (mbxReturn_moves ..) rfl) ?_
        assumption
      · assumption
    clear_value x2
    refine Later.step (trimEnd_later ..) ?_
    assumption

theorem trimStart_later (s : State) (n : Chan) (span : Bool) (r : ℤ) (slot : Option SlotIx) : Later s (trimStart s n span r slot) := by
  unfold trimStart
  extract_lets +onlyGivenNames x1
  refine Later.ite (fun _ => ?_) fun _ => ?_
  · exact trimEnd_later ..
  · refine Later.ite (fun _ => ?_) fun _ => ?_
    · exact trimEnd_later ..
    · refine Later.ite (fun _ => ?_) fun _ => ?_
      · exact trimEnd_later ..
      · refine Later.ite (fun _ => ?_) fun _ => ?_
        · extract_lets +onlyGivenNames x2
          refine Later.ite (fun _ => ?_) fun _ => ?_
          · exact trimEnd_later ..
          · refine Later.ite (fun _ => ?_) fun _ => ?_
            · exact trimEnd_later ..
            · extract_lets +onlyGivenNames x3
              split
              · exact trimEnd_later ..
              · exact Later.upd rfl rfl (Later.refl _)
        · exact Later.upd rfl rfl (Later.refl _)

theorem trimComplete_later (s : State) (c : TrimCapture) (written : Bool) : Later s (trimComplete s c written) := by
  unfold trimComplete
  extract_lets +onlyGivenNames _ x1
  have h1 : Later _ x1 := Later.upd rfl rfl (Later.refl _)
  clear_value x1
  split
  · exact Later.trans h1 (trimRecord_later ..)
  · refine Later.ite (fun _ => ?_) fun _ => ?_
    · exact Later.trans h1 (trimEnd_later ..)
    · refine Later.ite (fun _ => ?_) fun _ => ?_
      · exact Later.trans h1 (trimEnd_later ..)
      · extract_lets +onlyGivenNames x2
        split
        · exact Later.trans h1 (trimEnd_later ..)
        · exact Later.trans h1 (trimRecord_later ..)

theorem pressAction_later (s : State) (zero : Bool) (ms : ℕ) : Later s (pressAction s zero ms) := by
  unfold pressAction
  exact Later.ite (fun _ => Later.refl _) fun _ => Later.ite (fun _ => trimStart_later ..) fun _ => Later.ite
    (fun _ => Later.trans (Later.of_moves (restoreFactory_moves ..) rfl) (Later.of_moves (buttonEnd_moves ..) rfl)) fun _ => Later.refl _

theorem takeButton_later (s : State) (zero : Bool) (ended : Bool) (ms : ℕ) (both : Bool) : Later s (takeButton s zero ended ms both) := by
  unfold takeButton
  extract_lets +onlyGivenNames _ x1
  have h1 : Later s x1 := Later.upd rfl rfl (Later.refl _)
  clear_value x1
  refine Later.ite (fun _ => ?_) fun _ => ?_
  · exact h1
  · extract_lets +onlyGivenNames x2
    refine Later.ite (fun _ => ?_) fun _ => ?_
    · exact Later.upd rfl rfl h1
    · refine Later.ite (fun _ => ?_) fun _ => ?_
      · extract_lets +onlyGivenNames _ x3
        have h3 : Later s x3 := Later.upd rfl rfl h1
        clear_value x3
        refine Later.ite (fun _ => ?_) fun _ => ?_
        · exact h3
        · split
          · exact Later.trans (Later.upd rfl rfl h3) (Later.of_moves (buttonEnd_moves ..) rfl)
          · exact Later.trans h3 (Later.of_moves (buttonEnd_moves ..) rfl)
      · exact Later.trans h1 (pressAction_later ..)

theorem discardAll_later (s : State) : Later s (discardAll s) := by
  unfold discardAll
  exact Later.foldl (fun _ _ => discardAcc_later ..) (Later.refl _)

theorem takeSupply_later (s : State) (band : BitVec 2) : Later s (takeSupply s band) := by
  unfold takeSupply
  extract_lets +onlyGivenNames x1
  extract_lets +onlyGivenNames x2
  extract_lets +onlyGivenNames _ _ _ _ x3
  have h3 : Later s x3 := Later.upd rfl rfl (Later.refl _)
  clear_value x3
  extract_lets +onlyGivenNames x4
  have h4 : Later s x4 := Later.ite (fun _ => Later.trans h3 (Later.of_moves (fieldGone_moves ..) rfl)) fun _ => h3
  clear_value x4
  extract_lets +onlyGivenNames x5
  have h5 : Later s x5 := Later.trans (Later.trans h4 (Later.of_moves (putSupply_moves ..) rfl)) (Later.of_moves (raise_moves ..) rfl)
  clear_value x5
  extract_lets +onlyGivenNames x6
  have h6 : Later s x6 := Later.foldl (fun _ _ => Later.of_moves (putDir_moves ..) rfl)
    (Later.ite (fun _ => Later.trans h5 (discardAll_later ..)) fun _ => h5)
  clear_value x6
  exact Later.trans (Later.ite (fun _ => Later.foldl (fun _ _ => Later.of_moves (tryRestartNow_moves ..) rfl) h6) fun _ => h6)
    (Later.of_moves (evalAll_moves ..) rfl)

theorem takeBlock_later (s : State) (n : Chan) (isOpen : Bool) : Later s (takeBlock s n isOpen) := by
  unfold takeBlock
  extract_lets +onlyGivenNames x1
  have h1 : Later s x1 := Later.trans (Later.of_moves (State.modCh_moves ..) rfl) (Later.of_moves (refresh_moves ..) rfl)
  clear_value x1
  exact Later.ite (fun _ => h1) fun _ => Later.ite (fun _ => Later.trans h1 (Later.of_moves (targetOff_moves ..) rfl)) fun _ => Later.ite
    (fun _ => Later.trans h1 (resumeAO_later ..)) fun _ => h1

theorem leftDefault_later (old : State) (s : State) (n : Chan) : Later s (leftDefault old s n) := by
  unfold leftDefault
  refine Later.ite (fun _ => ?_) fun _ => ?_
  · extract_lets +onlyGivenNames x1
    have h1 : Later s x1 := Later.of_moves (resetChannel_moves ..) rfl
    clear_value x1
    refine Later.ite (fun _ => ?_) fun _ => ?_
    · extract_lets +onlyGivenNames x2
      have h2 : Later s x2 := Later.trans h1 (resumeAO_later ..)
      clear_value x2
      exact Later.ite (fun _ => Later.trans h2 (Later.of_moves (command_moves ..) rfl)) fun _ => h2
    · exact h1
  · exact Later.refl _

theorem leaveDefault_later (old : State) (s : State) : Later s (leaveDefault old s) := by
  unfold leaveDefault
  exact Later.foldl (fun _ _ => leftDefault_later ..) (Later.refl _)

theorem takeConfigured_later (s : State) (waits : Vector Bool 16) : Later s (takeConfigured s waits) := by
  unfold takeConfigured
  exact Later.trans (Later.trans (Later.upd rfl rfl (Later.refl _)) (Later.of_moves (refreshAll_moves ..) rfl)) (leaveDefault_later ..)

theorem takeReport_later (s : State) (r : Report) : Later s (takeReport s r) := by
  unfold takeReport
  split
  · exact Later.of_moves (takeDi_moves ..) rfl
  · exact Later.of_moves (takeDiClass_moves ..) rfl
  · exact Later.trans (Later.of_moves (State.modCh_moves ..) rfl) (Later.of_moves (refresh_moves ..) rfl)
  · exact Later.trans (Later.of_moves (State.modCh_moves ..) rfl) (Later.of_moves (refresh_moves ..) rfl)
  · exact Later.of_moves (takeShort_moves ..) rfl
  · exact Later.trans (Later.of_moves (State.modCh_moves ..) rfl) (Later.of_moves (refresh_moves ..) rfl)
  · exact takeBlock_later ..
  · exact Later.of_moves (takeWiring_moves ..) rfl
  · exact Later.trans (Later.of_moves (State.modCh_moves ..) rfl) (Later.of_moves (resetChannel_moves ..) rfl)
  · extract_lets +onlyGivenNames x1
    have h1 : Later s x1 := Later.of_moves (State.modCh_moves ..) rfl
    clear_value x1
    exact Later.ite (fun _ => Later.trans (Later.trans h1 (Later.of_moves (refresh_moves ..) rfl))
      (Later.of_moves (raiseWire_moves ..) rfl)) fun _ => Later.trans (Later.trans h1 (Later.of_moves (refresh_moves ..) rfl))
      (Later.of_moves (tryRestartNow_moves ..) rfl)
  · extract_lets +onlyGivenNames x2
    have h2 : Later s x2 := Later.trans (Later.of_moves (State.modCh_moves ..) rfl) (Later.of_moves (refresh_moves ..) rfl)
    clear_value x2
    exact Later.ite (fun _ => Later.ite (fun _ => Later.trans h2 (Later.of_moves (raiseWire_moves ..) rfl)) fun _ => h2) fun _ =>
      Later.trans h2 (Later.of_moves (tryRestartNow_moves ..) rfl)
  · exact takeTrip_later ..
  · refine Later.ite (fun _ => ?_) fun _ => ?_
    · extract_lets +onlyGivenNames x3
      have h3 : Later s x3 := Later.of_moves (State.modCh_moves ..) rfl
      clear_value x3
      exact Later.trans (Later.trans h3 (Later.of_moves (raiseProt_moves ..) rfl)) (Later.of_moves (evalLamp_moves ..) rfl)
    · exact Later.trans (Later.trans (Later.of_moves (State.modCh_moves ..) rfl) (Later.of_moves (evalLamp_moves ..) rfl))
        (Later.of_moves (tryRestartNow_moves ..) rfl)
  · exact Later.trans (Later.of_moves (State.modCh_moves ..) rfl) (Later.of_moves (evalLamp_moves ..) rfl)
  · exact Later.of_moves (State.modCh_moves ..) rfl
  · exact Later.of_moves (State.modCh_moves ..) rfl
  · exact Later.trans (Later.of_moves (State.modCh_moves ..) rfl) (Later.of_moves (evalLamp_moves ..) rfl)
  · exact Later.of_moves (State.modCh_moves ..) rfl
  · exact Later.of_moves (takeSwitched_moves ..) rfl
  · exact Later.trans (Later.of_moves (State.modCh_moves ..) rfl) (Later.of_moves (evalLamp_moves ..) rfl)
  · exact Later.of_moves (takePulse_moves ..) rfl
  · exact Later.of_moves (takePhantom_moves ..) rfl
  · exact Later.of_moves (takePathCheck_moves ..) rfl
  · extract_lets +onlyGivenNames x4
    have h4 : Later s x4 := Later.trans (Later.of_moves (State.modCh_moves ..) rfl) (Later.of_moves (evalLamp_moves ..) rfl)
    clear_value x4
    exact Later.ite (fun _ => Later.trans h4 (Later.of_moves (tryRestartNow_moves ..) rfl)) fun _ => h4
  · exact Later.refl _
  · exact Later.of_moves (evalLamp_moves ..) rfl
  · exact Later.of_moves (takeRiseRefused_moves ..) rfl
  · exact discardAcc_later ..
  · exact Later.of_moves (takeCompliance_moves ..) rfl
  · exact takeSupply_later ..
  · exact Later.of_moves (takeGasp_moves ..) rfl
  · exact Later.of_moves (takeAlmsel_moves ..) rfl
  · exact takeButton_later ..
  · exact Later.of_moves (takeRaw_moves ..) rfl
  · exact Later.upd rfl rfl (Later.refl _)
  · exact Later.trans (Later.trans (Later.of_moves (State.modCh_moves ..) rfl) (Later.of_moves (evalLamp_moves ..) rfl))
      (Later.of_moves (refresh_moves ..) rfl)
  · exact takeConfigured_later ..
  · exact Later.of_moves (takeChangeover_moves ..) rfl
  · exact Later.trans (Later.trans (Later.upd rfl rfl (Later.refl _)) (Later.of_moves (putSupply_moves ..) rfl))
      (Later.of_moves (raise_moves ..) rfl)
  · exact Later.trans (Later.upd rfl rfl (Later.refl _)) (Later.of_moves (evalAll_moves ..) rfl)
  · exact Later.ite (fun _ => Later.refl _) fun _ => Later.trans (Later.upd rfl rfl (Later.refl _)) (Later.of_moves (evalAll_moves ..) rfl)
  · exact Later.of_moves (enterStop_moves ..) rfl
  · exact Later.upd rfl rfl (Later.refl _)
  · exact Later.trans (Later.upd rfl rfl (Later.refl _)) (Later.of_moves (startFieldReinit_moves ..) rfl)
  · extract_lets +onlyGivenNames _ x5
    have h5 : Later s x5 := Later.upd rfl rfl (Later.refl _)
    clear_value x5
    exact Later.trans h5 (Later.of_moves (raise_moves ..) rfl)
  · exact Later.ite (fun _ => Later.refl _) fun _ => Later.trans (Later.foldl (fun _ _ => Later.of_moves (noteSafe_moves ..) rfl)
      (Later.of_moves (markSafe_moves ..) rfl)) (Later.of_moves (refreshAll_moves ..) rfl)

theorem takeReports_later (s : State) (rs : List Report) : Later s (takeReports s rs) := by
  unfold takeReports
  exact Later.foldl (fun _ _ => takeReport_later ..) (Later.refl _)

theorem bwTakeRetx_later (s : State) (h : BwHeader) (ty : Byte) (f : F2L → State → State) (hf3 : ∀ a0 a1, Later a1 (f a0 a1)) : Later s
    (bwTakeRetx s h ty f) := by
  unfold bwTakeRetx
  refine Later.ite (fun _ => ?_) fun _ => ?_
  · exact Later.refl _
  · refine Later.ite (fun _ => ?_) fun _ => ?_
    · exact Later.of_moves (bwFailed_moves ..) rfl
    · refine Later.ite (fun _ => ?_) fun _ => ?_
      · exact Later.of_moves (bwDiscard_moves ..) rfl
      · split
        · exact Later.ite (fun _ => Later.trans (Later.trans (Later.upd rfl rfl (Later.refl _)) (Later.of_moves (bwValid_moves ..) rfl))
            (hf3 ..)) fun _ => Later.refl _
        · exact Later.refl _

theorem bwTakePlain_later (s : State) (lane1 : Bool) (h : BwHeader) (ty : Byte) (f : State → State) (hf4 : ∀ a0, Later a0 (f a0)) : Later s
    (bwTakePlain s lane1 h ty f) := by
  unfold bwTakePlain
  extract_lets +onlyGivenNames x1
  extract_lets +onlyGivenNames x2
  extract_lets +onlyGivenNames x3
  refine Later.ite (fun _ => ?_) fun _ => ?_
  · exact Later.refl _
  · refine Later.ite (fun _ => ?_) fun _ => ?_
    · exact Later.of_moves (bwFailed_moves ..) rfl
    · extract_lets +onlyGivenNames _ x4
      have h4 : Later s x4 := Later.upd rfl rfl (Later.refl _)
      clear_value x4
      exact Later.trans (Later.trans h4 (Later.of_moves (bwValid_moves ..) rfl)) (hf4 ..)

theorem deliver_later (s : State) (rs : List Report) : Later s (deliver s rs) := by
  unfold deliver
  exact Later.ite (fun _ => takeReports_later ..) fun _ => Later.ite (fun _ => Later.upd rfl rfl (Later.refl _)) fun _ => Later.refl _

theorem takeBuffered_later (s : State) : Later s (takeBuffered s) := by
  unfold takeBuffered
  exact Later.foldl (fun _ _ => takeReports_later ..) (Later.upd rfl rfl (Later.refl _))

theorem enterSlack_later (s : State) : Later s (enterSlack s) := by
  unfold enterSlack
  refine Later.ite (fun _ => ?_) fun _ => ?_
  · exact Later.refl _
  · refine Later.ite (fun _ => ?_) fun _ => ?_
    · exact Later.of_moves (holdWheels_moves ..) rfl
    · extract_lets +onlyGivenNames x1
      have h1 : Later _ x1 := Later.of_moves (holdWheels_moves ..) rfl
      clear_value x1
      extract_lets +onlyGivenNames _ x2
      have h2 : Later _ x2 := Later.upd rfl rfl h1
      clear_value x2
      extract_lets +onlyGivenNames x3
      have h3 : Later _ x3 := Later.foldl (fun _ _ => Later.of_moves (hartAbandon_moves ..) rfl) (Later.trans h2 (discardAll_later ..))
      clear_value x3
      exact Later.ite (fun _ => Later.trans (Later.upd rfl rfl h3) (applySafeAll_later ..)) fun _ => h3

theorem l2fLost_later (s : State) : Later s (l2fLost s) := by
  unfold l2fLost
  extract_lets +onlyGivenNames x1
  exact Later.trans (Later.upd rfl rfl (Later.refl _)) (enterSlack_later ..)

theorem fdFailed_later (s : State) : Later s (fdFailed s) := by
  unfold fdFailed
  extract_lets +onlyGivenNames x1
  extract_lets +onlyGivenNames _ x2
  have h2 : Later s x2 := Later.trans (Later.upd rfl rfl (Later.refl _)) (Later.of_moves (bwDiscard_moves ..) rfl)
  clear_value x2
  exact Later.ite (fun _ => Later.trans h2 (l2fLost_later ..)) fun _ => h2

theorem fdTakeRetx_later (s : State) (h : BwHeader) (ty : Byte) (f : L2F → State → State) (hf3 : ∀ a0 a1, Later a1 (f a0 a1)) : Later s
    (fdTakeRetx s h ty f) := by
  unfold fdTakeRetx
  refine Later.ite (fun _ => ?_) fun _ => ?_
  · exact Later.refl _
  · refine Later.ite (fun _ => ?_) fun _ => ?_
    · exact fdFailed_later ..
    · refine Later.ite (fun _ => ?_) fun _ => ?_
      · exact Later.of_moves (bwDiscard_moves ..) rfl
      · split
        · exact Later.refl _
        · exact Later.ite (fun _ => Later.trans (Later.trans (Later.upd rfl rfl (Later.refl _)) (Later.of_moves (fdValid_moves ..) rfl))
            (hf3 ..)) fun _ => Later.refl _

theorem fdTakeIdle_later (s : State) (h : BwHeader) : Later s (fdTakeIdle s h) := by
  unfold fdTakeIdle
  extract_lets +onlyGivenNames x1
  exact Later.ite (fun _ => Later.refl _) fun _ => Later.ite (fun _ => fdFailed_later ..) fun _ => Later.trans
    (Later.upd rfl rfl (Later.refl _)) (Later.of_moves (fdValid_moves ..) rfl)

theorem charEdge_later (s : State) (n : Chan) : Later s (charEdge s n) := by
  unfold charEdge
  exact Later.ite (fun _ => demand_later ..) fun _ => Later.refl _

theorem changeover_later (s : State) (n : Chan) : Later s (changeover s n) := by
  unfold changeover
  split
  · exact Later.refl _
  · refine Later.ite (fun _ => ?_) fun _ => ?_
    · extract_lets +onlyGivenNames x1
      exact Later.trans (demand_later ..) (Later.of_moves (reportStatus_moves ..) rfl)
    · exact Later.refl _

theorem loadPhase_later (s : State) (i : PhaseItem) : Later s (loadPhase s i) := by
  unfold loadPhase
  extract_lets +onlyGivenNames x1
  extract_lets +onlyGivenNames x2
  extract_lets +onlyGivenNames _ x3
  have h3 : Later s x3 := Later.upd rfl rfl (Later.refl _)
  clear_value x3
  exact Later.ite (fun _ => h3) fun _ => Later.foldl (fun _ _ => Later.ite (fun _ => demand_later ..) fun _ => Later.refl _) h3

theorem takePhase_later (s : State) (items : List PhaseItem) : Later s (takePhase s items) := by
  unfold takePhase
  extract_lets +onlyGivenNames x1
  extract_lets +onlyGivenNames x2
  exact Later.foldl (fun _ _ => loadPhase_later ..) (Later.upd rfl rfl (Later.refl _))

theorem takeStatus_later (s : State) (told : List Report) (x : StatusNow) : Later s (takeStatus s told x) := by
  unfold takeStatus
  extract_lets +onlyGivenNames x1
  exact deliver_later ..

theorem actAll_later (s : State) (acts : List FieldAct) : Later s (actAll s acts) := by
  unfold actAll
  exact Later.foldl (fun _ _ => fieldAct_later ..) (Later.refl _)

theorem actDue_later (s : State) (acts : List FieldAct) : Later s (actDue s acts) := by
  unfold actDue
  exact Later.ite (fun _ => Later.refl _) fun _ => actAll_later ..

theorem takeCommand_later (s : State) (acts : List FieldAct) (target : W64) : Later s (takeCommand s acts target) := by
  unfold takeCommand
  refine Later.ite (fun _ => ?_) fun _ => ?_
  · exact Later.refl _
  · refine Later.ite (fun _ => ?_) fun _ => ?_
    · exact actDue_later ..
    · extract_lets +onlyGivenNames x1
      extract_lets +onlyGivenNames x2
      extract_lets +onlyGivenNames x3
      have h3 : Later s x3 := Later.ite (fun _ => Later.foldl (fun _ _ => Later.of_moves (reportStatus_moves ..) rfl) (Later.refl _)) fun _
        => Later.refl _
      clear_value x3
      exact Later.upd rfl rfl h3

theorem configureFresh_later (s : State) (g : Generation) (fresh : Bool) : Later s (configureFresh s g fresh) := by
  unfold configureFresh
  extract_lets +onlyGivenNames x1
  have h1 : Later s x1 := Later.trans (Later.of_moves (leaveSlack_moves ..) rfl) (Later.of_moves (startScan_moves ..) rfl)
  clear_value x1
  exact Later.trans (Later.upd rfl rfl h1) (configureDie_later ..)

theorem takeLoad_later (s : State) (b : L2F) : Later s (takeLoad s b) := by
  unfold takeLoad
  cases b <;> dsimp -zeta only
  case loadOpen => exact (Later.of_moves (openReload_moves ..) rfl)
  case loadClose | refOn =>
    refine Later.upd rfl rfl ?_
    exact Later.refl _
  case configure g fresh =>
    exact Later.ite
      (fun _ => Later.step (Later.of_moves (noteConfigured_moves ..) rfl)
      (Later.step (Later.of_moves (resetAllPaths_moves ..) rfl) (configureFresh_later ..)))
      (fun _ => Later.step (Later.of_moves (setScan_moves ..) rfl) (Later.step (Later.of_moves (noteConfigured_moves ..) rfl)
      (configureDie_later ..)))
  case identity =>
    exact Later.ite
      (fun _ => Later.ite (fun _ => Later.step (Later.of_moves (resetAllPaths_moves ..) rfl) (Later.of_moves (leaveSlack_moves ..) rfl))
      (fun _ => Later.refl _))
      (fun _ => Later.refl _)
  all_goals exact Later.refl _

theorem gaspDo_later (s : State) (n : Chan) : Later s (gaspDo s n) := by
  unfold gaspDo
  exact Later.ite (fun _ => turnOff_later ..) fun _ => Later.refl _

theorem onField_later (s : State) (n : Chan) (c : FdChan → Bool) (f : State → State) (hf3 : ∀ a0, Later a0 (f a0)) : Later s
    (onField s n c f) := by
  unfold onField
  exact Later.ite (fun _ => hf3 ..) fun _ => Later.refl _

theorem retryDemand_later (s : State) (n : Chan) : Later s (retryDemand s n) := by
  unfold retryDemand
  split
  · exact Later.refl _
  · extract_lets +onlyGivenNames x1
    exact Later.ite (fun _ => Later.ite (fun _ => Later.of_moves (tryRestartNow_moves ..) rfl) fun _ => Later.ite (fun _ => Later.refl _)
      fun _ => Later.ite (fun _ => Later.trans (Later.of_moves (demandDO_moves ..) rfl) (Later.of_moves (showCommand_moves ..) rfl)) fun _
      => Later.upd rfl rfl (Later.refl _)) fun _ => Later.ite (fun _ => demandAO_later ..) fun _ => Later.refl _

theorem retryAlarm_later (s : State) (n : Chan) : Later s (retryAlarm s n) := by
  unfold retryAlarm
  split
  · exact Later.ite (fun _ => demandAlarm_later ..) fun _ => Later.refl _
  · exact Later.refl _

theorem retryChan_later (s : State) (n : Chan) : Later s (retryChan s n) := by
  unfold retryChan
  exact Later.trans (retryDemand_later ..) (retryAlarm_later ..)

theorem readmit_later (s : State) (n : Chan) : Later s (readmit s n) := by
  unfold readmit
  refine Later.ite (fun _ => ?_) fun _ => ?_
  · extract_lets +onlyGivenNames _ x1
    have h1 : Later s x1 := Later.trans (Later.upd rfl rfl (Later.refl _)) (retryChan_later ..)
    clear_value x1
    exact Later.upd rfl rfl h1
  · exact Later.refl _

theorem onProve_later (s : State) (n : Chan) (c : FdChan → Bool) (f : State → State) (hf3 : ∀ a0, Later a0 (f a0)) : Later s
    (onProve s n c f) := by
  unfold onProve
  exact onField_later (hf3 := fun _ => hf3 ..) ..

theorem giveResult_later (s : State) (n : Chan) : Later s (giveResult s n) := by
  unfold giveResult
  refine Later.ite (fun _ => ?_) (fun _ => ?_)
  · refine Later.step (discardAcc_later ..) ?_
    exact Later.refl _
  · extract_lets +onlyGivenNames x1
    clear_value x1
    split
    · refine Later.ite (fun _ => ?_) (fun _ => ?_)
      · refine Later.upd rfl rfl ?_
        exact Later.refl _
      · exact Later.refl _
    · refine Later.step (Later.of_moves (evalLamp_moves ..) rfl) ?_
      split
      · refine Later.step (Later.of_moves (State.modCh_moves ..) rfl) ?_
        exact Later.refl _
      · refine Later.step (Later.of_moves (judgeStrings_moves ..) rfl) ?_
        refine Later.step (Later.of_moves (State.modCh_moves ..) rfl) ?_
        exact Later.refl _

theorem takeCycle_later (n : Chan) (s : State) (c : DitherCycle) : Later s (takeCycle n s c) := by
  unfold takeCycle
  extract_lets +onlyGivenNames x1
  extract_lets +onlyGivenNames x2
  refine Later.ite (fun _ => ?_) fun _ => ?_
  · exact Later.refl _
  · extract_lets +onlyGivenNames x3
    have h3 : Later s x3 := Later.of_moves (modHalves_moves ..) rfl
    clear_value x3
    extract_lets +onlyGivenNames x4
    have h4 : Later s x4 := Later.trans h3 (Later.of_moves (accumulate_moves ..) rfl)
    clear_value x4
    exact Later.ite (fun _ => h4) fun _ => Later.trans h4 (giveResult_later ..)

theorem actCommand_later (s : State) (a : BitVec 20) (v : W16) : Later s (actCommand s a v) := by
  unfold actCommand
  extract_lets +onlyGivenNames x1
  extract_lets +onlyGivenNames x2
  extract_lets +onlyGivenNames x3
  exact Later.ite (fun _ => Later.of_moves (writeDO_moves ..) rfl) fun _ => Later.ite (fun _ => writeAO_later ..) fun _ => Later.ite
    (fun _ => writeAlarm_later ..) fun _ => Later.trans (Later.of_moves (epAccept_moves ..) rfl) (Later.of_moves (clearBars_moves ..) rfl)

theorem ownerWrite_later (s : State) (a : BitVec 20) (v : W16)
    : Later s (ownerWrite s a v).1 := by
  unfold ownerWrite
  split
  · dsimp -zeta only
    exact Later.refl _
  · split
    · dsimp -zeta only
      exact Later.refl _
    · split
      · dsimp -zeta only
        exact Later.refl _
      · dsimp -zeta only
        refine Later.step (actCommand_later ..) ?_
        exact Later.refl _

theorem originWord_later (s : State) (src : BitVec 2) (x : BitVec 20 × W16) (toPort : List (PortIx × BitVec 20 × W16))
    : Later s (originWord s src x toPort).1 := by
  unfold originWord
  split
  · dsimp -zeta only
    refine Later.step (Later.of_moves (recordRefusal_moves ..) rfl) ?_
    exact Later.refl _
  · split
    · extract_lets +onlyGivenNames x1
      have h1 : Later s x1.1 := by
        unfold x1
        refine Later.step (ownerWrite_later ..) ?_
        exact Later.refl _
      clear_value x1
      dsimp -zeta only
      refine Later.ite (fun _ => ?_) (fun _ => ?_)
      · assumption
      · refine Later.step (Later.of_moves (recordRefusal_moves ..) rfl) ?_
        assumption
    · dsimp -zeta only
      refine Later.step (Later.of_moves (recordRefusal_moves ..) rfl) ?_
      exact Later.refl _
    · split
      · dsimp -zeta only
        refine Later.step (Later.of_moves (recordRefusal_moves ..) rfl) ?_
        exact Later.refl _
      · dsimp -zeta only
        refine Later.upd rfl rfl ?_
        exact Later.refl _
    · split
      · dsimp -zeta only
        refine Later.step (Later.of_moves (recordRefusal_moves ..) rfl) ?_
        exact Later.refl _
      · dsimp -zeta only
        refine Later.upd rfl rfl ?_
        exact Later.refl _

theorem originWords_later (s : State) (src : BitVec 2) (v2 : List (BitVec 20 × W16)) (v3 : List (PortIx × BitVec 20 × W16))
    : Later s (originWords s src v2 v3).1 := by
  induction v2 generalizing s v3 with
  | nil => exact Later.refl _
  | cons x l ih => exact Later.step (ih ..) (originWord_later ..)

theorem originWrites_later (s : State) (src : BitVec 2) (ws : List (BitVec 20 × W16))
    : Later s (originWrites s src ws) := by
  unfold originWrites
  extract_lets +onlyGivenNames x1
  have h1 : Later s x1.1 := by
    unfold x1
    refine Later.step (originWords_later ..) ?_
    exact Later.refl _
  clear_value x1
  refine Later.foldl (fun y2 z2 => ?_) ?_
  · extract_lets +onlyGivenNames x3
    clear_value x3
    refine Later.foldl (fun y4 z4 => ?_) ?_
    · refine Later.step (Later.of_moves (sendRequest_moves ..) rfl) ?_
      exact Later.refl _
    · exact Later.refl _
  · assumption

theorem answerHere_later (s : State) (k : PortIx) (id : ℕ) (up : Bool) (es : List (ℕ × BitVec 20 × W16))
    : Later s (answerHere s k id up es) := by
  unfold answerHere
  refine Later.foldl (fun y1 z1 => ?_) ?_
  · split
    · extract_lets +onlyGivenNames x2
      have h2 : Later y1 x2.1 := by
        unfold x2
        refine Later.step (ownerWrite_later ..) ?_
        exact Later.refl _
      clear_value x2
      refine Later.step (Later.of_moves (mergeFill_moves ..) rfl) ?_
      refine Later.ite (fun _ => ?_) (fun _ => ?_)
      · assumption
      · refine Later.step (Later.of_moves (recordRefusal_moves ..) rfl) ?_
        assumption
    · refine Later.step (Later.of_moves (mergeFill_moves ..) rfl) ?_
      refine Later.step (Later.of_moves (recordRefusal_moves ..) rfl) ?_
      exact Later.refl _
    · exact Later.refl _
  · exact Later.refl _

theorem transitWrite_later (s : State) (k : PortIx) (tag : W16) (budget : W16) (since : W64) (es : List (BitVec 20 × W16))
    : Later s (transitWrite s k tag budget since es) := by
  unfold transitWrite
  extract_lets +onlyGivenNames x1
  extract_lets +onlyGivenNames x2
  have h2 : ∀ w2_0 w2_1, Later s (x2 w2_0 w2_1) := fun w2_0 w2_1 => by
    unfold x2
    refine Later.step (Later.of_moves (sendResponse_moves ..) rfl) ?_
    refine Later.foldl (fun y3 z3 => ?_) ?_
    · refine Later.step (Later.of_moves (recordRefusal_moves ..) rfl) ?_
      exact Later.refl _
    · exact Later.refl _
  clear_value x2
  refine Later.ite (fun _ => ?_) (fun _ => ?_)
  · refine Later.step (h2 ..) ?_
    exact Later.refl _
  · refine Later.ite (fun _ => ?_) (fun _ => ?_)
    · refine Later.step (h2 ..) ?_
      exact Later.refl _
    · extract_lets +onlyGivenNames x4
      extract_lets +onlyGivenNames x5
      extract_lets +onlyGivenNames x6
      extract_lets +onlyGivenNames x7
      have h7 : Later s x7 := by
        unfold x7
        refine Later.upd rfl rfl ?_
        exact Later.refl _
      clear_value x7
      extract_lets +onlyGivenNames x8
      extract_lets +onlyGivenNames x9
      have h9 : Later s x9 := by
        unfold x9
        refine Later.foldl (fun y10 z10 => ?_) ?_
        · extract_lets +onlyGivenNames x11
          refine Later.step (Later.of_moves (sendRequest_moves ..) rfl) ?_
          exact Later.refl _
        · assumption
      clear_value x9
      refine Later.step (answerHere_later ..) ?_
      assumption

theorem ruleCommand_later (s : State) (i : ℕ) (a : BitVec 20) (v : W16)
    : Later s (ruleCommand s i a v) := by
  unfold ruleCommand
  refine Later.ite (fun _ => ?_) (fun _ => ?_)
  · exact Later.refl _
  · extract_lets +onlyGivenNames x1
    have h1 : Later s x1.1 := by
      unfold x1
      refine Later.step (ownerWrite_later ..) ?_
      exact Later.refl _
    clear_value x1
    refine Later.ite (fun _ => ?_) (fun _ => ?_)
    · refine Later.step (Later.of_moves (noteWrite_moves ..) rfl) ?_
      refine Later.step (Later.of_moves (ruleFault_moves ..) rfl) ?_
      refine Later.step (Later.of_moves (recordRefusal_moves ..) rfl) ?_
      assumption
    · refine Later.ite (fun _ => ?_) (fun _ => ?_)
      · refine Later.step (Later.of_moves (noteWrite_moves ..) rfl) ?_
        refine Later.step (Later.of_moves (ruleFault_moves ..) rfl) ?_
        assumption
      · refine Later.step (Later.of_moves (noteWrite_moves ..) rfl) ?_
        assumption

theorem putWrite_later (s : State) (w : ℕ × BitVec 20 × W16) : Later s (putWrite s w) := by
  unfold putWrite
  exact ruleCommand_later ..

theorem demandsOf_later (writes : List (ℕ × BitVec 20 × W16)) (s : State) (n : Chan) : Later s (demandsOf writes s n) := by
  unfold demandsOf
  exact Later.foldl (fun _ _ => putWrite_later ..) (Later.of_moves (restartOne_moves ..) rfl)

theorem cycleDemands_later (s : State) (writes : List (ℕ × BitVec 20 × W16)) : Later s (cycleDemands s writes) := by
  unfold cycleDemands
  exact Later.foldl (fun _ _ => putWrite_later ..) (Later.foldl (fun _ _ => demandsOf_later ..) (Later.refl _))

theorem afterCycle_later (s : State) : Later s (afterCycle s) := by
  unfold afterCycle
  refine Later.ite (fun _ => ?_) fun _ => ?_
  · extract_lets +onlyGivenNames x1
    extract_lets +onlyGivenNames x2
    have h2 : Later _ x2 := Later.of_moves (endLeaving_moves ..) rfl
    clear_value x2
    extract_lets +onlyGivenNames _ x3
    have h3 : Later _ x3 := Later.trans (Later.upd rfl rfl h2) (Later.of_moves (markSafe_moves ..) rfl)
    clear_value x3
    exact Later.trans (Later.trans (Later.trans h3 (Later.of_moves (setMode_moves ..) rfl)) (takeCommands_later ..))
      (Later.of_moves (commandAll_moves ..) rfl)
  · exact Later.ite (fun _ => Later.trans (Later.trans (Later.trans (Later.upd rfl rfl (Later.refl _))
      (Later.of_moves (markSafe_moves ..) rfl)) (takeCommands_later ..)) (Later.of_moves (commandAll_moves ..) rfl)) fun _ => Later.refl _

theorem cycleTimes_later (s : State) : Later s (cycleTimes s).2 := by
  unfold cycleTimes
  extract_lets +onlyGivenNames x1
  have h1 : Later s x1.2 := by
    unfold x1
    refine Later.step (State.draw_later ..) ?_
    exact Later.refl _
  clear_value x1
  extract_lets +onlyGivenNames x2
  have h2 : Later s x2.2 := by
    unfold x2
    refine Later.step (State.draw_later ..) ?_
    assumption
  clear_value x2
  dsimp -zeta only
  assumption

theorem cycle_later (s : State) (g : Generation)
    : Later s (cycle s g) := by
  unfold cycle
  extract_lets +onlyGivenNames x1
  clear_value x1
  extract_lets +onlyGivenNames x2
  have h2 : Later s x2 := by
    unfold x2
    refine Later.step (cycleTimes_later ..) ?_
    exact Later.refl _
  extract_lets +onlyGivenNames x3
  clear_value x3
  extract_lets +onlyGivenNames x4
  clear_value x4
  extract_lets +onlyGivenNames x5
  clear_value x5
  extract_lets +onlyGivenNames x6
  clear_value x6
  extract_lets +onlyGivenNames x7
  clear_value x7
  extract_lets +onlyGivenNames x8
  clear_value x8
  extract_lets +onlyGivenNames x9
  have h9 : Later s x9 := by
    unfold x9
    refine Later.step (Later.of_moves (gatherCommands_moves ..) rfl) ?_
    refine Later.step (Later.of_moves (flushNormal_moves ..) rfl) ?_
    refine Later.step (Later.of_moves (recompute_moves ..) rfl) ?_
    refine Later.step (Later.of_moves (settleMode_moves ..) rfl) ?_
    refine Later.upd rfl rfl ?_
    assumption
  clear_value x9
  extract_lets +onlyGivenNames x10
  clear_value x10
  extract_lets +onlyGivenNames x11
  clear_value x11
  extract_lets +onlyGivenNames x12
  have h12 : Later s x12 := by
    unfold x12
    refine Later.step (cycleDemands_later ..) ?_
    refine Later.step (mapPending_later ..) ?_
    refine Later.upd rfl rfl ?_
    assumption
  clear_value x12
  extract_lets +onlyGivenNames x13
  have h13 : Later s x13.1 := by
    unfold x13
    refine Later.step (Later.of_moves (writeOutputs_moves ..) rfl) ?_
    assumption
  clear_value x13
  extract_lets +onlyGivenNames x14
  have h14 : Later s x14 := by
    unfold x14
    refine Later.step (Later.of_moves (raiseEmits_moves ..) rfl) ?_
    refine Later.step (Later.of_moves (placeFences_moves ..) rfl) ?_
    refine Later.step (Later.of_moves (placeDeferred_moves ..) rfl) ?_
    refine Later.step (originWrites_later ..) ?_
    assumption
  clear_value x14
  extract_lets +onlyGivenNames x15
  clear_value x15
  extract_lets +onlyGivenNames x16
  clear_value x16
  extract_lets +onlyGivenNames x17
  clear_value x17
  extract_lets +onlyGivenNames x18
  have h18 : Later s x18 := by
    unfold x18
    refine Later.upd rfl rfl ?_
    assumption
  clear_value x18
  refine Later.step (Later.of_moves (retarget_moves ..) rfl) ?_
  refine Later.step (afterCycle_later ..) ?_
  refine Later.step (Later.of_moves (writeCheckpoint_moves ..) rfl) ?_
  assumption

theorem loopR_later (s : State) (uv : ℤ) (i : ℕ) : Later s (loopR s uv i).2 := by
  unfold loopR
  split
  · dsimp -zeta only
    refine Later.step (State.draw_later ..) ?_
    exact Later.refl _
  · dsimp -zeta only
    exact Later.refl _

theorem takeUcode_later (s : State) (slot : Bool) (fb : Bool) (u : SlotHeader) : Later s (takeUcode s slot fb u) := by
  unfold takeUcode
  extract_lets +onlyGivenNames _ _ x1
  have h1 : Later s x1 := Later.upd rfl rfl (Later.refl _)
  clear_value x1
  extract_lets +onlyGivenNames x2
  refine Later.ite (fun _ => ?_) fun _ => ?_
  · exact h1
  · extract_lets +onlyGivenNames _ _ x3
    have h3 : Later s x3 := Later.ite (fun _ => Later.trans (Later.upd rfl rfl h1) (applySafeAll_later ..)) fun _ => h1
    clear_value x3
    exact Later.upd rfl rfl h3

theorem refuseAdopt_later (s : State) (g : Generation) : Later s (refuseAdopt s g) := by
  unfold refuseAdopt
  refine Later.ite (fun _ => ?_) fun _ => ?_
  · exact Later.refl _
  · refine Later.ite (fun _ => ?_) fun _ => ?_
    · exact Later.upd rfl rfl (Later.refl _)
    · refine Later.ite (fun _ => ?_) fun _ => ?_
      · exact Later.upd rfl rfl (Later.refl _)
      · refine Later.ite (fun _ => ?_) fun _ => ?_
        · exact Later.upd rfl rfl (Later.refl _)
        · extract_lets +onlyGivenNames _ _ x1
          have h1 : Later s x1 := Later.trans (Later.upd rfl rfl (Later.refl _)) (applySafeAll_later ..)
          clear_value x1
          exact Later.ite (fun _ => h1) fun _ => Later.trans h1 (Later.of_moves (raise_moves ..) rfl)

theorem startDie_later (s : State) (g : Generation) : Later s (startDie s g) := by
  unfold startDie
  refine Later.ite (fun _ => ?_) fun _ => ?_
  · extract_lets +onlyGivenNames x1
    have h1 : Later s x1 := Later.trans (Later.of_moves (leaveSlack_moves ..) rfl) (Later.of_moves (retick_moves ..) rfl)
    clear_value x1
    exact Later.upd rfl rfl h1
  · exact Later.trans (refuseAdopt_later ..) (configureFresh_later ..)

theorem startField_later (s : State) (g : Generation) (sealed : Bool)
    : Later s (startField s g sealed) := by
  unfold startField
  extract_lets +onlyGivenNames x1
  clear_value x1
  extract_lets +onlyGivenNames x3
  have h3 : Later s x3 := Later.step (Later.of_moves (restoreCheckpoint_moves ..) rfl)
    (Later.step (Later.of_moves (takeGeneration_moves ..) rfl) (startDie_later ..))
  clear_value x3
  extract_lets +onlyGivenNames x4
  have h4 : Later s x4 := by
    unfold x4
    exact Later.ite (fun _ => Later.foldl (fun a n => Later.of_moves (adoptChan_moves a n) rfl) h3) (fun _ => h3)
  clear_value x4
  extract_lets +onlyGivenNames x5
  have h5 : Later s x5 :=
    Later.foldl (fun a n => Later.step (Later.of_moves (putDir_moves ..) rfl) (Later.of_moves (putNoSig_moves a n) rfl))
      (Later.foldl (fun a n => Later.of_moves (readChan_moves a n) rfl) h4)
  clear_value x5
  extract_lets +onlyGivenNames y6
  extract_lets +onlyGivenNames x6
  have k : Later x5 { y6 with ev := x5.ev } := by
    refine Later.upd rfl rfl ?_
    exact Later.of_moves (resetAllPaths_moves x5) rfl
  have h6 : Later s x6 := Later.step (Later.of_moves (initLocal_moves ..) rfl) (Later.step k h5)
  clear_value x6
  extract_lets +onlyGivenNames x7
  have h7 : Later s x7 := by
    unfold x7
    exact Later.ite (fun _ => Later.step (Later.of_moves (adoptCommands_moves ..) rfl) h6) (fun _ => h6)
  clear_value x7
  refine Later.upd rfl rfl ?_
  exact h7

theorem startService_later (s : State) (g : Generation) (x : StartMeasure) : Later s (startService s g x) := by
  unfold startService
  refine Later.ite (fun _ => ?_) fun _ => ?_
  · exact Later.trans (Later.of_moves (raisePower_moves ..) rfl) (Later.of_moves (endInLoad_moves ..) rfl)
  · extract_lets +onlyGivenNames x1
    have h1 : Later s x1 := startField_later ..
    clear_value x1
    extract_lets +onlyGivenNames x2
    have h2 : Later s x2 := Later.trans h1 (Later.of_moves (wheelsStart_moves ..) rfl)
    clear_value x2
    exact Later.trans (Later.upd rfl rfl h2) (Later.of_moves (startMode_moves ..) rfl)

theorem startCopy_later (s : State) (c : CopyId) (older : Bool) (x : StartMeasure) : Later s (startCopy s c older x) := by
  unfold startCopy
  extract_lets +onlyGivenNames x1
  extract_lets +onlyGivenNames _ _ x2
  have h2 : Later s x2 := Later.upd rfl rfl (Later.refl _)
  clear_value x2
  extract_lets +onlyGivenNames x3
  have h3 : Later s x3 := Later.trans (Later.ite (fun _ => Later.trans h2 (Later.of_moves (raise_moves ..) rfl)) fun _ => h2)
    (Later.of_moves (journalReplay_moves ..) rfl)
  clear_value x3
  extract_lets +onlyGivenNames _ x4
  have h4 : Later s x4 := Later.upd rfl rfl h3
  clear_value x4
  exact Later.ite (fun _ => Later.trans h4 (Later.of_moves (endInLoad_moves ..) rfl)) fun _ => Later.trans h4 (startService_later ..)

theorem startConfig_later (s : State) (h : SlotHeader) (x : StartMeasure) : Later s (startConfig s h x) := by
  unfold startConfig
  extract_lets +onlyGivenNames x1
  extract_lets +onlyGivenNames x2
  have h2 : Later s x2 := Later.of_moves (recordCopies_moves ..) rfl
  clear_value x2
  split
  · exact Later.trans h2 (startCopy_later ..)
  · exact Later.ite (fun _ => Later.trans (Later.trans h2 (Later.of_moves (raiseVersion_moves ..) rfl))
      (Later.of_moves (endInLoad_moves ..) rfl)) fun _ => Later.trans h2 (Later.of_moves (endInLoad_moves ..) rfl)

theorem runWriteConfig_later (s : State) (i : SlotIx) (tag : W16) : Later s (runWriteConfig s i tag) := by
  unfold runWriteConfig
  refine mbxRun_later (hf6 := fun y1_0 => ?_) ..
  · extract_lets +onlyGivenNames x2
    refine Later.ite (fun _ => ?_) fun _ => ?_
    · exact Later.of_moves (mbxEnd_moves ..) rfl
    · refine Later.ite (fun _ => ?_) fun _ => ?_
      · exact mbxEndFree_later ..
      · refine Later.ite (fun _ => ?_) fun _ => ?_
        · exact Later.of_moves (mbxEnd_moves ..) rfl
        · split
          · exact Later.of_moves (mbxEnd_moves ..) rfl
          · exact Later.of_moves (mbxEnd_moves ..) rfl
          · refine Later.ite (fun _ => ?_) fun _ => ?_
            · exact Later.trans (Later.of_moves (raiseVersion_moves ..) rfl) (Later.of_moves (mbxEnd_moves ..) rfl)
            · extract_lets +onlyGivenNames x3
              extract_lets +onlyGivenNames x4
              extract_lets +onlyGivenNames _ x5
              have h5 : Later y1_0 x5 := Later.upd rfl rfl (Later.refl _)
              clear_value x5
              exact Later.trans h5 (Later.of_moves (setStage_moves ..) rfl)

theorem runStageCommit_later (s : State) (i : SlotIx) (tag : W16) : Later s (runStageCommit s i tag) := by
  unfold runStageCommit
  refine mbxRun_later (hf6 := fun y1_0 => ?_) ..
  · extract_lets +onlyGivenNames x2
    refine Later.ite (fun _ => ?_) fun _ => ?_
    · exact mbxEndFree_later ..
    · refine Later.ite (fun _ => ?_) fun _ => ?_
      · exact Later.of_moves (mbxEnd_moves ..) rfl
      · extract_lets +onlyGivenNames x3
        have h3 : Later y1_0 x3 := Later.of_moves (setStage_moves ..) rfl
        clear_value x3
        split
        · exact Later.trans (Later.trans h3 (Later.of_moves (setStage_moves ..) rfl)) (Later.of_moves (mbxEnd_moves ..) rfl)
        · exact Later.trans (Later.trans h3 (Later.of_moves (setStage_moves ..) rfl)) (mbxEndFree_later ..)
        · exact Later.trans (Later.trans (Later.trans h3 (Later.of_moves (raiseVersion_moves ..) rfl))
            (Later.of_moves (setStage_moves ..) rfl)) (Later.of_moves (mbxEnd_moves ..) rfl)
        · extract_lets +onlyGivenNames x4
          exact Later.upd rfl rfl h3

theorem runRetireChannel_later (s : State) (i : SlotIx) (tag : W16) : Later s (runRetireChannel s i tag) := by
  unfold runRetireChannel
  refine mbxRun_later (hf6 := fun y1_0 => ?_) ..
  · extract_lets +onlyGivenNames x2
    exact Later.ite (fun _ => Later.of_moves (mbxEnd_moves ..) rfl) fun _ => Later.ite (fun _ => Later.of_moves (mbxEnd_moves ..) rfl)
      fun _ => Later.trans (retireChannel_later ..) (Later.of_moves (mbxEnd_moves ..) rfl)

theorem takeReturned_later (s : State) (n : Chan) : Later s (takeReturned s n) := by
  unfold takeReturned
  exact Later.ite (fun _ => Later.of_moves (noteSafe_moves ..) rfl) fun _ => Later.ite (fun _ => Later.refl _) fun _ => Later.ite
    (fun _ => Later.of_moves (takeDO_moves ..) rfl) fun _ => Later.ite (fun _ => takeAO_later ..) fun _ => Later.refl _

theorem returnChannel_later (s : State) (n : Chan)
    : Later s (returnChannel s n) := by
  unfold returnChannel
  extract_lets +onlyGivenNames x1
  have h1 : Later s x1.1 := by
    unfold x1
    refine Later.step (Later.of_moves (unmapExec_moves ..) rfl) ?_
    exact Later.refl _
  clear_value x1
  extract_lets +onlyGivenNames x2
  clear_value x2
  extract_lets +onlyGivenNames x3
  have h3 : Later s x3 := by
    unfold x3
    refine Later.step (takeReturned_later ..) ?_
    refine Later.step (Later.of_moves (freshReturn_moves ..) rfl) ?_
    assumption
  clear_value x3
  extract_lets +onlyGivenNames x4
  clear_value x4
  extract_lets +onlyGivenNames x5
  have h5 : Later s x5 := by
    unfold x5
    refine Later.foldl (fun y6 z6 => ?_) ?_
    · refine Later.step (Later.of_moves (resetChannel_moves ..) rfl) ?_
      exact Later.refl _
    · refine Later.step (Later.of_moves (command_moves ..) rfl) ?_
      assumption
  clear_value x5
  extract_lets +onlyGivenNames x7
  have h7 : Later s x7 := by
    unfold x7
    refine Later.step (Later.of_moves (refreshAll_moves ..) rfl) ?_
    refine Later.step (discardAcc_later ..) ?_
    assumption
  clear_value x7
  extract_lets +onlyGivenNames x8
  clear_value x8
  refine Later.step (Later.of_moves (leaveReduced_moves ..) rfl) ?_
  refine Later.ite (fun _ => ?_) (fun _ => ?_)
  · refine Later.step (Later.of_moves (raise_moves ..) rfl) ?_
    assumption
  · assumption

theorem runReturnChannel_later (s : State) (i : SlotIx) (tag : W16) : Later s (runReturnChannel s i tag) := by
  unfold runReturnChannel
  refine mbxRun_later (hf6 := fun y1_0 => ?_) ..
  · extract_lets +onlyGivenNames x2
    extract_lets +onlyGivenNames x3
    exact Later.ite (fun _ => Later.of_moves (mbxEnd_moves ..) rfl) fun _ => Later.trans (returnChannel_later ..)
      (Later.of_moves (mbxEnd_moves ..) rfl)

theorem runTrimZero_later (s : State) (i : SlotIx) (tag : W16) : Later s (runTrimZero s i tag) := by
  unfold runTrimZero
  exact mbxRun_later (hf6 := fun _ => trimStart_later ..) ..

theorem runTrimSpan_later (s : State) (i : SlotIx) (tag : W16) : Later s (runTrimSpan s i tag) := by
  unfold runTrimSpan
  exact mbxRun_later (hf6 := fun _ => trimStart_later ..) ..

theorem runEnrolSignature_later (s : State) (i : SlotIx) (tag : W16) : Later s (runEnrolSignature s i tag) := by
  unfold runEnrolSignature
  refine mbxRun_later (hf6 := fun y1_0 => ?_) ..
  · extract_lets +onlyGivenNames x2
    refine Later.ite (fun _ => ?_) fun _ => ?_
    · exact Later.of_moves (mbxEnd_moves ..) rfl
    · refine Later.ite (fun _ => ?_) fun _ => ?_
      · exact Later.of_moves (mbxEnd_moves ..) rfl
      · extract_lets +onlyGivenNames x3
        have h3 : Later y1_0 x3 := Later.trans (Later.trans (discardAcc_later ..) (Later.of_moves (dropEst_moves ..) rfl))
          (Later.of_moves (evalLamp_moves ..) rfl)
        clear_value x3
        exact Later.upd rfl rfl h3

theorem reinitChannel_later (s : State) (n : Chan) : Later s (reinitChannel s n) := by
  unfold reinitChannel
  extract_lets +onlyGivenNames x1
  have h1 : Later s x1 := Later.of_moves (State.modCh_moves ..) rfl
  clear_value x1
  extract_lets +onlyGivenNames x2
  have h2 : Later s x2 := Later.trans h1 (Later.of_moves (hartForget_moves ..) rfl)
  clear_value x2
  extract_lets +onlyGivenNames x3
  have h3 : Later s x3 := Later.trans (Later.trans (Later.trans h2 (discardAcc_later ..)) (Later.of_moves (dropEst_moves ..) rfl))
    (Later.of_moves (command_moves ..) rfl)
  clear_value x3
  exact Later.trans (Later.trans (Later.trans (Later.trans h3 (Later.of_moves (resetChannel_moves ..) rfl))
    (Later.of_moves (evalLamp_moves ..) rfl)) (Later.of_moves (refresh_moves ..) rfl)) (Later.of_moves (tryRestartNow_moves ..) rfl)

theorem reinitFilter_later (s : State) : Later s (reinitFilter s) := by
  unfold reinitFilter
  exact Later.trans (Later.foldl (fun _ _ => Later.of_moves (dropEst_moves ..) rfl)
    (Later.trans (Later.of_moves (resetAllPaths_moves ..) rfl) (discardAll_later ..))) (Later.of_moves (evalAll_moves ..) rfl)

theorem startReinit_later (s : State) (f : BitVec 5) (slot : Option SlotIx) : Later s (startReinit s f slot) := by
  unfold startReinit
  refine Later.ite (fun _ => ?_) fun _ => ?_
  · exact Later.refl _
  · refine Later.ite (fun _ => ?_) fun _ => ?_
    · exact Later.of_moves (startFieldReinit_moves ..) rfl
    · extract_lets +onlyGivenNames _ x1
      have h1 : Later s x1 := Later.upd rfl rfl (Later.refl _)
      clear_value x1
      exact Later.ite (fun _ => Later.trans h1 (reinitChannel_later ..)) fun _ => Later.ite
        (fun _ => Later.trans h1 (Later.of_moves (reinitPort_moves ..) rfl)) fun _ => Later.ite
        (fun _ => Later.trans h1 (reinitFilter_later ..)) fun _ => Later.ite
        (fun _ => Later.trans h1 (Later.of_moves (reinitHart_moves ..) rfl)) fun _ => Later.ite
        (fun _ => Later.trans h1 (Later.of_moves (reinitMemory_moves ..) rfl)) fun _ => h1

theorem runReinit_later (s : State) (i : SlotIx) (tag : W16) : Later s (runReinit s i tag) := by
  unfold runReinit
  refine mbxRun_later (hf6 := fun y1_0 => ?_) ..
  · extract_lets +onlyGivenNames x2
    extract_lets +onlyGivenNames x3
    exact Later.ite (fun _ => Later.of_moves (mbxEnd_moves ..) rfl) fun _ => Later.ite (fun _ => Later.of_moves (mbxEnd_moves ..) rfl)
      fun _ => startReinit_later ..

theorem wdTake_later (s : State) (d : Fin 8 × BitVec 5 × BitVec 3) : Later s (wdTake s d) := by
  unfold wdTake
  extract_lets +onlyGivenNames _ x1
  have h1 : Later s x1 := Later.upd rfl rfl (Later.refl _)
  clear_value x1
  exact Later.ite (fun _ => Later.trans h1 (Later.of_moves (logicReset_moves ..) rfl)) fun _ => Later.ite
    (fun _ => Later.trans h1 (Later.of_moves (enterSafe_moves ..) rfl)) fun _ => Later.ite (fun _ => Later.trans h1 (startReinit_later ..))
    fun _ => Later.refl _

theorem takeDue_later (s : State) : Later s (takeDue s) := by
  unfold takeDue
  extract_lets +onlyGivenNames x1
  extract_lets +onlyGivenNames _ x2
  have h2 : Later s x2 := Later.upd rfl rfl (Later.refl _)
  clear_value x2
  split
  · exact Later.trans h2 (wdTake_later ..)
  · extract_lets +onlyGivenNames x3
    extract_lets +onlyGivenNames x4
    exact Later.foldl (fun _ _ => wdTake_later ..) h2

theorem wdExpire_later (s : State) (k : Fin 8) (func : BitVec 5) : Later s (wdExpire s k func) := by
  unfold wdExpire
  refine Later.ite (fun _ => ?_) (fun _ => ?_)
  · exact Later.refl _
  · extract_lets +onlyGivenNames x1
    clear_value x1
    extract_lets +onlyGivenNames x2
    clear_value x2
    extract_lets +onlyGivenNames x3
    clear_value x3
    extract_lets +onlyGivenNames x4
    have h4 : Later s x4 := by
      unfold x4
      refine Later.step (Later.of_moves (notePoll_moves ..) rfl) ?_
      exact Later.refl _
    clear_value x4
    extract_lets +onlyGivenNames x5
    extract_lets +onlyGivenNames x6
    have h6 : Later s x6 := by
      unfold x6
      refine Later.upd rfl rfl ?_
      assumption
    clear_value x6
    extract_lets +onlyGivenNames x7
    have h7 : Later s x7 := by
      unfold x7
      refine Later.step (Later.of_moves (raise_moves ..) rfl) ?_
      assumption
    clear_value x7
    extract_lets +onlyGivenNames x8
    clear_value x8
    refine Later.ite (fun _ => ?_) (fun _ => ?_)
    · refine Later.upd rfl rfl ?_
      assumption
    · refine Later.step (wdTake_later ..) ?_
      assumption

theorem reloadFailed_later (s : State) (x : Reload) : Later s (reloadFailed s x) := by
  unfold reloadFailed
  exact Later.ite (fun _ => Later.upd rfl rfl (Later.refl _)) fun _ => Later.trans
    (Later.trans (Later.of_moves (reloadOver_moves ..) rfl) (Later.of_moves (freshAfterHold_moves ..) rfl)) (takeDue_later ..)

theorem applyChan_later (a : Generation) (b : Generation) (s : State) (n : Chan) : Later s (applyChan a b s n) := by
  unfold applyChan
  refine Later.ite (fun _ => ?_) fun _ => ?_
  · extract_lets +onlyGivenNames x1
    have h1 : Later _ x1 := Later.ite (fun _ => Later.refl _) fun _ => Later.trans
      (Later.trans (discardAcc_later ..) (Later.of_moves (dropEst_moves ..) rfl)) (Later.of_moves (State.modCh_moves ..) rfl)
    clear_value x1
    extract_lets +onlyGivenNames x2
    have h2 : Later _ x2 := Later.ite (fun _ => h1) fun _ => Later.trans h1 (Later.of_moves (putNe43_moves ..) rfl)
    clear_value x2
    extract_lets +onlyGivenNames x3
    have h3 : Later _ x3 := Later.ite (fun _ => h2) fun _ => Later.trans h2 (Later.of_moves (retargetAO_moves ..) rfl)
    clear_value x3
    exact Later.trans h3 (Later.of_moves (State.modCh_moves ..) rfl)
  · extract_lets +onlyGivenNames x4
    have h4 : Later s x4 := Later.of_moves (State.modCh_moves ..) rfl
    clear_value x4
    extract_lets +onlyGivenNames x5
    have h5 : Later s x5 := Later.ite (fun _ => h4) fun _ => Later.trans (Later.trans h4 (Later.of_moves (State.modCh_moves ..) rfl))
      (Later.of_moves (State.modLoop_moves ..) rfl)
    clear_value x5
    extract_lets +onlyGivenNames x6
    have h6 : Later s x6 := Later.trans (Later.trans (Later.trans h5 (Later.of_moves (govClear_moves ..) rfl))
      (Later.of_moves (setCmd_moves ..) rfl)) (Later.of_moves (State.modCh_moves ..) rfl)
    clear_value x6
    exact Later.trans (Later.trans (Later.trans (Later.trans (Later.trans h6 (Later.of_moves (hartAbandon_moves ..) rfl))
      (discardAcc_later ..)) (Later.of_moves (State.modLoop_moves ..) rfl)) (Later.of_moves (putDir_moves ..) rfl))
      (Later.of_moves (freshCommands_moves ..) rfl)

theorem applySections_later (s : State) (a : Generation) (b : Generation) : Later s (applySections s a b) := by
  unfold applySections
  extract_lets +onlyGivenNames x1
  have h1 : Later s x1 := Later.trans (Later.of_moves (applyEvents_moves ..) rfl) (Later.of_moves (applyKinds_moves ..) rfl)
  clear_value x1
  extract_lets +onlyGivenNames x2
  have h2 : Later s x2 := Later.trans (Later.foldl (fun _ _ => applyChan_later ..) h1) (Later.of_moves (applyChars_moves ..) rfl)
  clear_value x2
  extract_lets +onlyGivenNames x4
  have h4 : Later s x4 := Later.foldl (fun _ _ => Later.of_moves (applyPath_moves ..) rfl) h2
  clear_value x4
  extract_lets +onlyGivenNames x6
  have h6 : Later s x6 := Later.trans h4 (Later.of_moves (resetPaths_moves ..) rfl)
  clear_value x6
  extract_lets +onlyGivenNames x7
  have h7 : Later s x7 := Later.foldl (fun _ _ => Later.of_moves (wheelConfigure_moves ..) rfl) h6
  clear_value x7
  extract_lets +onlyGivenNames _ _ x9
  have h9 : Later s x9 := Later.upd rfl rfl h7
  clear_value x9
  exact Later.trans (Later.trans h9 (Later.of_moves (applyGroup_moves ..) rfl)) (Later.of_moves (applyLinks_moves ..) rfl)

theorem applyGeneration_later (s : State) (a : Generation) (p : PendingGen) : Later s (applyGeneration s a p) := by
  unfold applyGeneration
  extract_lets +onlyGivenNames x1
  extract_lets +onlyGivenNames _ x2
  have h2 : Later s x2 := Later.upd rfl rfl (Later.refl _)
  clear_value x2
  exact Later.trans (Later.trans (Later.trans h2 (Later.of_moves (bwSend_moves ..) rfl)) (applySections_later ..))
    (Later.of_moves (afterSections_moves ..) rfl)

theorem sendFrame_later (s : State) (e : MemEntry) : Later s (sendFrame s e) := by
  unfold sendFrame
  extract_lets +onlyGivenNames x1
  clear_value x1
  extract_lets +onlyGivenNames x2
  clear_value x2
  extract_lets +onlyGivenNames x3
  clear_value x3
  extract_lets +onlyGivenNames x4
  clear_value x4
  extract_lets +onlyGivenNames x5
  clear_value x5
  extract_lets +onlyGivenNames x6
  clear_value x6
  extract_lets +onlyGivenNames x7
  clear_value x7
  extract_lets +onlyGivenNames x8
  extract_lets +onlyGivenNames x9
  have h9 : Later s x9 := by
    unfold x9
    refine Later.draw rfl (by split <;> omega) ?_
    exact Later.refl _
  clear_value x9
  refine Later.ite (fun _ => ?_) (fun _ => ?_)
  · assumption
  · refine Later.step (Later.of_moves (frameDone_moves ..) rfl) ?_
    assumption

theorem eccEndpoint_later (s : State) (a : BitVec 20) : Later s (eccEndpoint s a) := by
  unfold eccEndpoint
  refine Later.ite (fun _ => ?_) (fun _ => ?_)
  · extract_lets +onlyGivenNames x1
    clear_value x1
    refine Later.ite (fun _ => ?_) (fun _ => ?_)
    · exact Later.refl _
    · refine Later.step (Later.of_moves (epStore_moves ..) rfl) ?_
      exact Later.refl _
  · refine Later.ite (fun _ => ?_) (fun _ => ?_)
    · split
      refine Later.step (Later.of_moves (epStore_moves ..) rfl) ?_
      refine Later.ofSnd (by assumption) ?_
      refine Later.step (State.draw_later ..) ?_
      exact Later.refl _
    · exact Later.refl _

theorem eccStaging_later (s : State) : Later s (eccStaging s) := by
  unfold eccStaging
  extract_lets +onlyGivenNames x1
  have h1 : ∀ w1_0, Later w1_0 (x1 w1_0) := fun w1_0 => by
    unfold x1
    refine Later.step (Later.of_moves (setStage_moves ..) rfl) ?_
    refine Later.upd rfl rfl ?_
    exact Later.refl _
  clear_value x1
  split
  · refine Later.step (h1 ..) ?_
    exact Later.refl _
  · refine Later.step (h1 ..) ?_
    exact Later.refl _
  · refine Later.step (h1 ..) ?_
    exact Later.refl _
  · split
    · refine Later.step (mbxEndFree_later ..) ?_
      refine Later.step (h1 ..) ?_
      refine Later.upd rfl rfl ?_
      exact Later.refl _
    · refine Later.step (mbxEndFree_later ..) ?_
      refine Later.step (h1 ..) ?_
      refine Later.upd rfl rfl ?_
      exact Later.refl _
    · refine Later.step (h1 ..) ?_
      exact Later.refl _
  · exact Later.refl _

theorem eccBuffer_later (s : State) : Later s (eccBuffer s) := by
  unfold eccBuffer
  refine Later.ite (fun _ => ?_) (fun _ => ?_)
  · split
    · refine Later.step (State.draw_later ..) ?_
      exact Later.refl _
    · refine Later.step (Later.of_moves (hostError_moves ..) rfl) ?_
      refine Later.upd rfl rfl ?_
      refine Later.step (State.draw_later ..) ?_
      exact Later.refl _
    · refine Later.step (Later.of_moves (hostError_moves ..) rfl) ?_
      refine Later.upd rfl rfl ?_
      refine Later.step (State.draw_later ..) ?_
      exact Later.refl _
  · refine Later.ite (fun _ => ?_) (fun _ => ?_)
    · refine Later.step (Later.of_moves (eccMemBuffer_moves ..) rfl) ?_
      refine Later.step (State.draw_later ..) ?_
      exact Later.refl _
    · extract_lets +onlyGivenNames x1
      refine Later.step (Later.of_moves (crcError_moves ..) rfl) ?_
      split
      · refine Later.step (Later.of_moves (dropBuffered_moves ..) rfl) ?_
        refine Later.step (State.draw_later ..) ?_
        exact Later.refl _
      · refine Later.step (State.draw_later ..) ?_
        exact Later.refl _

theorem eccRegion_later (s : State) (o : ℕ) : Later s (eccRegion s o) := by
  unfold eccRegion
  exact Later.ite (fun _ => Later.trans (eccEndpoint_later ..) (eccEndpoint_later ..)) fun _ => Later.ite
    (fun _ => Later.ite (fun _ => Later.of_moves (enterSafe_moves ..) rfl) fun _ => Later.refl _) fun _ => Later.ite
    (fun _ => eccStaging_later ..) fun _ => Later.ite (fun _ => Later.of_moves (eccRing_moves ..) rfl) fun _ => Later.ite
    (fun _ => Later.of_moves (eccLog_moves ..) rfl) fun _ => Later.ite (fun _ => Later.of_moves (eccBank_moves ..) rfl) fun _ => Later.ite
    (fun _ => Later.refl _) fun _ => eccBuffer_later ..

theorem eccWord_later (s : State) (o : ℕ) : Later s (eccWord s o) := by
  unfold eccWord
  exact Later.ite (fun _ => Later.upd rfl rfl (Later.refl _)) fun _ => eccRegion_later ..

theorem eccTaken_later (s : State) : Later s (eccTaken s) := by
  unfold eccTaken
  exact Later.foldl (fun _ _ => eccRegion_later ..) (Later.upd rfl rfl (Later.refl _))

theorem mbxDispatch_later (s : State) (i : SlotIx) (code : W16) (tag : W16) : Later s (mbxDispatch s i code tag) := by
  unfold mbxDispatch
  split
  · exact Later.of_moves (runNop_moves ..) rfl
  · exact Later.of_moves (runFence_moves ..) rfl
  · exact runReinit_later ..
  · exact Later.of_moves (runResetDevice_moves ..) rfl
  · exact Later.of_moves (runRequestPowerCycle_moves ..) rfl
  · exact runRetireChannel_later ..
  · exact runReturnChannel_later ..
  · exact Later.of_moves (runMapSpare_moves ..) rfl
  · exact runTrimZero_later ..
  · exact runTrimSpan_later ..
  · exact Later.of_moves (runRestoreFactory_moves ..) rfl
  · exact runEnrolSignature_later ..
  · exact Later.of_moves (runStageOpen_moves ..) rfl
  · exact runStageCommit_later ..
  · exact Later.of_moves (runStageAbort_moves ..) rfl
  · exact Later.of_moves (runCheck_moves ..) rfl
  · exact Later.of_moves (runForceSafe_moves ..) rfl
  · exact Later.of_moves (runLeaveSafe_moves ..) rfl
  · exact Later.of_moves (runEnterTrim_moves ..) rfl
  · exact Later.of_moves (runLeaveTrim_moves ..) rfl
  · exact runWriteConfig_later ..
  · exact Later.of_moves (runHartPass_moves ..) rfl
  · exact Later.of_moves (runUnknown_moves ..) rfl

theorem runCmds_later (s : State) (cs : List (SlotIx × W32)) : Later s (runCmds s cs) := by
  unfold runCmds
  split
  · exact Later.of_moves (runResetDevice_moves ..) rfl
  · exact Later.foldl (fun _ _ => mbxDispatch_later ..) (Later.refl _)

theorem hostWords_later (s : State) (ws : List (ℕ × W32)) : Later s (hostWords s ws) := by
  unfold hostWords
  extract_lets +onlyGivenNames x1
  extract_lets +onlyGivenNames x2
  extract_lets +onlyGivenNames x3
  have h3 : Later s x3 := Later.foldl (fun _ _ => Later.of_moves (writeWord_moves ..) rfl) (Later.refl _)
  clear_value x3
  extract_lets +onlyGivenNames x5
  have h5 : Later s x5 := Later.ite (fun _ => h3) fun _ => Later.trans h3 (originWrites_later ..)
  clear_value x5
  exact Later.trans (Later.foldl (fun _ _ => Later.ite (fun _ => Later.refl _) fun _ => Later.of_moves (writeWord_moves ..) rfl) h5)
    (runCmds_later ..)

theorem hostWrite_later (s : State) (addr : ℕ) (ws : List (ℕ × W32)) : Later s (hostWrite s addr ws) := by
  unfold hostWrite
  exact whenServed_later (hf2 := fun _ => Later.ite (fun _ => Later.refl _) fun _ => hostWords_later ..) ..

theorem frameStart_later (s : State) (cycles : ℕ) (f : State → State) (hf2 : ∀ a0, Later a0 (f a0)) : Later s (frameStart s cycles f) := by
  unfold frameStart
  refine Later.ite (fun _ => ?_) fun _ => ?_
  · exact Later.refl _
  · extract_lets +onlyGivenNames x1
    have h1 : Later s x1 := Later.of_moves (endRead_moves ..) rfl
    clear_value x1
    exact Later.ite (fun _ => Later.trans h1 (Later.of_moves (hostError_moves ..) rfl)) fun _ => Later.trans h1 (hf2 ..)

theorem readFrame_later (s : State) (cmd : Byte) (a : ℕ) (f : HostFrame) : Later s (readFrame s cmd a f) := by
  unfold readFrame
  refine Later.step (frameStart_later (hf2 := fun y1_0 => ?_) ..) ?_
  · refine Later.ite (fun _ => ?_) (fun _ => ?_)
    · refine Later.step (Later.of_moves (unknownFrame_moves ..) rfl) ?_
      exact Later.refl _
    · refine Later.ite (fun _ => ?_) (fun _ => ?_)
      · refine Later.step (Later.of_moves (hostError_moves ..) rfl) ?_
        exact Later.refl _
      · refine Later.ite (fun _ => ?_) (fun _ => ?_)
        · refine Later.step (Later.of_moves (hostError_moves ..) rfl) ?_
          refine Later.step (Later.of_moves (State.modHost_moves ..) rfl) ?_
          exact Later.refl _
        · refine Later.ite (fun _ => ?_) (fun _ => ?_)
          · refine Later.step (Later.of_moves (hostError_moves ..) rfl) ?_
            refine Later.step (Later.of_moves (State.modHost_moves ..) rfl) ?_
            exact Later.refl _
          · extract_lets +onlyGivenNames x2
            clear_value x2
            refine Later.draw rfl (by split <;> omega) ?_
            exact Later.refl _
  · exact Later.refl _

theorem carryWrite_later (s : State) (cmd : Byte) (addr : BitVec 24) (ws : List (ℕ × W32)) : Later s (carryWrite s cmd addr ws) := by
  unfold carryWrite
  exact Later.ite (fun _ => Later.ite (fun _ => Later.refl _) fun _ => Later.of_moves (hostError_moves ..) rfl) fun _ => hostWords_later ..

theorem carryHeld_later (s : State) (f : HeldFrame) : Later s (carryHeld s f) := by
  unfold carryHeld
  split
  · exact carryWrite_later ..
  · exact Later.of_moves (carryFence_moves ..) rfl

theorem acceptFrame_later (s : State) (f : HeldFrame) (cmd : Byte) (addr : BitVec 24) : Later s (acceptFrame s f cmd addr) := by
  unfold acceptFrame
  exact Later.ite (fun _ => Later.trans (Later.of_moves (countAccepted_moves ..) rfl) (carryHeld_later ..)) fun _ => Later.ite
    (fun _ => Later.of_moves (hostError_moves ..) rfl) fun _ => Later.ite
    (fun _ => Later.trans (Later.upd rfl rfl (Later.refl _)) (Later.of_moves (countAccepted_moves ..) rfl)) fun _ => Later.of_moves
    (hostError_moves ..) rfl

theorem writeFrame_later (s : State) (cmd : Byte) (d : ℕ) (f : HostFrame) : Later s (writeFrame s cmd d f) := by
  unfold writeFrame
  extract_lets +onlyGivenNames x1
  extract_lets +onlyGivenNames x2
  exact Later.ite (fun _ => Later.of_moves (hostError_moves ..) rfl) fun _ => Later.ite (fun _ => Later.of_moves (hostError_moves ..) rfl)
    fun _ => Later.ite (fun _ => Later.of_moves (hostError_moves ..) rfl) fun _ => Later.ite
    (fun _ => Later.of_moves (hostError_moves ..) rfl) fun _ => Later.ite (fun _ => Later.of_moves (hostError_moves ..) rfl) fun _ =>
    Later.ite (fun _ => Later.of_moves (hostError_moves ..) rfl) fun _ => Later.ite (fun _ => Later.of_moves (hostError_moves ..) rfl)
    fun _ => acceptFrame_later ..

theorem legacyWriteFrame_later (s : State) (a : W16) (data : List Byte) (c : ℕ) (laneError : Bool) : Later s
    (legacyWriteFrame s a data c laneError) := by
  unfold legacyWriteFrame
  extract_lets +onlyGivenNames x1
  extract_lets +onlyGivenNames x2
  extract_lets +onlyGivenNames x3
  exact Later.ite (fun _ => Later.of_moves (hostError_moves ..) rfl) fun _ => Later.ite (fun _ => Later.of_moves (hostError_moves ..) rfl)
    fun _ => Later.ite (fun _ => Later.of_moves (hostError_moves ..) rfl) fun _ => Later.ite
    (fun _ => Later.of_moves (hostError_moves ..) rfl) fun _ => Later.ite (fun _ => Later.of_moves (hostError_moves ..) rfl) fun _ =>
    Later.ite (fun _ => Later.of_moves (hostError_moves ..) rfl) fun _ => acceptFrame_later ..

theorem legacyReadFrame_later (s : State) (f : HostFrame) (late : Bool)
    : Later s (legacyReadFrame s f late) := by
  unfold legacyReadFrame
  refine Later.step (frameStart_later (hf2 := fun y1_0 => ?_) ..) ?_
  · extract_lets +onlyGivenNames x2
    clear_value x2
    extract_lets +onlyGivenNames x3
    clear_value x3
    extract_lets +onlyGivenNames x4
    clear_value x4
    extract_lets +onlyGivenNames x5
    clear_value x5
    refine Later.ite (fun _ => ?_) (fun _ => ?_)
    · refine Later.step (Later.of_moves (unknownFrame_moves ..) rfl) ?_
      exact Later.refl _
    · refine Later.ite (fun _ => ?_) (fun _ => ?_)
      · refine Later.step (Later.of_moves (hostError_moves ..) rfl) ?_
        exact Later.refl _
      · refine Later.ite (fun _ => ?_) (fun _ => ?_)
        · refine Later.step (Later.of_moves (hostError_moves ..) rfl) ?_
          refine Later.step (Later.of_moves (State.modHost_moves ..) rfl) ?_
          exact Later.refl _
        · extract_lets +onlyGivenNames x6
          clear_value x6
          extract_lets +onlyGivenNames x7
          clear_value x7
          extract_lets +onlyGivenNames x8
          clear_value x8
          extract_lets +onlyGivenNames x9
          have h9 : Later y1_0 x9 := by
            unfold x9
            refine Later.draw rfl (by split <;> omega) ?_
            exact Later.refl _
          clear_value x9
          refine Later.ite (fun _ => ?_) (fun _ => ?_)
          · refine Later.ite (fun _ => ?_) (fun _ => ?_)
            · assumption
            · refine Later.step (Later.of_moves (hostError_moves ..) rfl) ?_
              assumption
          · refine Later.ite (fun _ => ?_) (fun _ => ?_)
            · assumption
            · refine Later.step (Later.of_moves (clearRead_moves ..) rfl) ?_
              assumption
  · exact Later.refl _

theorem takeControl_later (s : State) (k : PortIx) (ok : Bool) (f : State → State) (hf3 : ∀ a0, Later a0 (f a0)) : Later s
    (takeControl s k ok f) := by
  unfold takeControl
  extract_lets +onlyGivenNames x1
  have h1 : Later _ x1 := Later.trans (Later.of_moves (clearOut_moves ..) rfl) (Later.of_moves (upBySymbol_moves ..) rfl)
  clear_value x1
  exact Later.ite (fun _ => h1) fun _ => Later.ite (fun _ => Later.trans h1 (Later.of_moves (ctlError_moves ..) rfl)) fun _ => Later.ite
    (fun _ => Later.trans h1 (hf3 ..)) fun _ => h1

theorem linkFrame_later (s : State) (k : PortIx) (h : LinkHeader) (m : LinkMsg) (wait : State → Bool) (f : State → State)
    (hf5 : ∀ a0, Later a0 (f a0)) : Later s (linkFrame s k h m wait f) := by
  unfold linkFrame
  extract_lets +onlyGivenNames x1
  have h1 : Later _ x1 := Later.trans (Later.of_moves (clearOut_moves ..) rfl) (Later.of_moves (upBySymbol_moves ..) rfl)
  clear_value x1
  exact Later.trans h1 (receiveFrame_later (hf5 := fun _ => Later.ite (fun _ => Later.of_moves (bufferFrame_moves ..) rfl) fun _ => hf5 ..)
    ..)

theorem takeResponse_later (s : State) (k : PortIx) (tag : W16) (f : OutRequest → State → State) (hf3 : ∀ a0 a1, Later a1 (f a0 a1)) :
    Later s (takeResponse s k tag f) := by
  unfold takeResponse
  split
  · exact hf3 ..
  · exact Later.of_moves (lateResponse_moves ..) rfl

theorem serveOne_later {s t : State} {k : PortIx} {b : BufferedRequest} (h : serveOne s k b = some t) : Later s t := by
  unfold serveOne at h
  split at h
  · cases h
  extract_lets s1 at h
  have h1 : Later s s1 := (Later.of_moves (releaseBuffer_moves ..) rfl)
  clear_value s1
  split at h
  · split at h
    · cases h
    · cases h
      exact Later.step (Later.of_moves (fenceRouted_moves ..) rfl) (Later.step (transitWrite_later ..) h1)
  · cases h
    exact Later.step (Later.of_moves (applyUpdate_moves ..) rfl) h1
  · cases h
    exact Later.step (Later.of_moves (actWriteRsp_moves ..) rfl) h1
  · cases h
    exact Later.step (Later.of_moves (actUpdateAck_moves ..) rfl) h1
  · cases h
    exact Later.step (Later.of_moves (actFenceRsp_moves ..) rfl) h1
  · cases h
    exact Later.step (Later.of_moves (actErrorRsp_moves ..) rfl) h1
  · cases h
    exact Later.step (Later.of_moves (actDisc_moves ..) rfl) h1
  · cases h
    exact Later.step (Later.of_moves (actLamp_moves ..) rfl) h1
  · cases h
    exact Later.step (Later.of_moves (actEvent_moves ..) rfl) h1
  · cases h
    exact h1

theorem serveBuffered_later (s : State) (k : PortIx)
    : Later s (serveBuffered s k) := by
  unfold serveBuffered
  extract_lets bs
  refine Later.foldl (fun a b => ?_) (Later.of_moves (State.modPort_moves ..) rfl)
  split
  next t h => exact (serveOne_later h)
  next => exact (Later.of_moves (State.modPort_moves ..) rfl)

theorem serveAll_later (s : State) : Later s (serveAll s) := by
  unfold serveAll
  exact Later.foldl (fun _ _ => serveBuffered_later ..) (Later.foldl (fun _ _ => serveBuffered_later ..) (Later.refl _))

theorem urgentRecord_later (s : State) (k : PortIx) (f : LinkHeader) (m : LinkMsg) (act : State → State) (hf4 : ∀ a0, Later a0 (act a0)) :
    Later s (urgentRecord s k f m act) := by
  unfold urgentRecord
  extract_lets +onlyGivenNames x1
  extract_lets +onlyGivenNames x2
  have h2 : Later s x2 := Later.trans (Later.of_moves (clearOut_moves ..) rfl) (Later.of_moves (upBySymbol_moves ..) rfl)
  clear_value x2
  refine Later.trans ?_ (Later.of_moves (abortForward_moves ..) rfl)
  refine Later.trans ?_ (receiveFrame_later (hf5 := fun y3_0 => ?_) ..)
  · exact h2
  · extract_lets +onlyGivenNames x4
    have h4 : Later y3_0 x4 := Later.of_moves (forwardUrgent_moves ..) rfl
    clear_value x4
    exact Later.ite (fun _ => Later.trans h4 (Later.of_moves (bufferFrame_moves ..) rfl)) fun _ => Later.trans h4 (hf4 ..)

theorem carryAll_later (s : State) : Later s (carryAll s) := by
  unfold carryAll
  exact Later.foldl (fun _ _ => carryHeld_later ..) (Later.upd rfl rfl (Later.refl _))

theorem takeWaiting_later (s : State) : Later s (takeWaiting s) := by
  unfold takeWaiting
  exact Later.trans (Later.trans (Later.trans (Later.trans (Later.trans (eccTaken_later ..) (Later.of_moves (recallImage_moves ..) rfl))
    (Later.of_moves (raiseHeld_moves ..) rfl)) (takeBuffered_later ..)) (serveAll_later ..)) (carryAll_later ..)

theorem retrainL2f_later (s : State) : Later s (retrainL2f s) := by
  unfold retrainL2f
  extract_lets +onlyGivenNames _ _ x1
  have h1 : Later s x1 := Later.upd rfl rfl (Later.refl _)
  clear_value x1
  exact Later.ite (fun _ => Later.trans (Later.upd rfl rfl h1) (enterSlack_later ..)) fun _ => h1

theorem releaseHalt_later (s : State) (crcs : List W32) : Later s (releaseHalt s crcs) := by
  unfold releaseHalt
  refine Later.ite (fun _ => ?_) fun _ => ?_
  · exact Later.refl _
  · extract_lets +onlyGivenNames x1
    extract_lets +onlyGivenNames x2
    have h2 : Later s x2 := Later.of_moves (replayAll_moves ..) rfl
    clear_value x2
    exact Later.trans (Later.trans (Later.upd rfl rfl h2) (retrainL2f_later ..)) (takeWaiting_later ..)

theorem resumeWith_later (s : State) (st : StageState) : Later s (resumeWith s st) := by
  unfold resumeWith
  exact Later.trans (Later.trans (takeWaiting_later ..) (Later.of_moves (setStage_moves ..) rfl)) (takeDue_later ..)

theorem reverseDead_later (s : State)
    : Later s (reverseDead s) := by
  unfold reverseDead
  split
  next v s1 h =>
    extract_lets s2
    have h2 : Later s s2 :=
      Later.step (Later.of_moves (portsDown_moves ..) rfl) (Later.step (Later.of_moves (setMode_moves ..) rfl)
      (Later.ofSnd h (State.draw_later s)))
    clear_value s2
    refine Later.step (Later.of_moves (setStage_moves ..) rfl) ?_
    refine Later.upd rfl rfl ?_
    exact h2

theorem loadDue_later (s : State) : Later s (loadDue s) := by
  unfold loadDue
  exact Later.trans (Later.upd rfl rfl (Later.refl _)) (takePhase_later ..)

theorem closeTick_later (s : State) : Later s (closeTick s) := by
  unfold closeTick
  extract_lets +onlyGivenNames x1
  have h1 : Later _ x1 := Later.ite (fun _ => releaseHalt_later ..) fun _ => Later.refl _
  clear_value x1
  extract_lets +onlyGivenNames x2
  have h2 : Later _ x2 := Later.foldl (fun _ _ => Later.of_moves (wheelDue_moves ..) rfl)
    (Later.trans h1 (Later.of_moves (issueStepFive_moves ..) rfl))
  clear_value x2
  extract_lets +onlyGivenNames x4
  have h4 : Later _ x4 := Later.trans (Later.trans (Later.foldl (fun _ _ => Later.of_moves (alignCrossing_moves ..) rfl) h2)
    (Later.of_moves (tidePulse_moves ..) rfl)) (Later.of_moves (tideFall_moves ..) rfl)
  clear_value x4
  exact Later.foldl (fun _ _ => Later.trans (changeover_later ..) (charEdge_later ..)) h4

theorem serveDue_later (s : State) : Later s (serveDue s) := by
  unfold serveDue
  exact Later.ite (fun _ => serveAll_later ..) fun _ => Later.refl _

theorem idle_later (s : State) : Later s (idle s) := by
  unfold idle
  extract_lets +onlyGivenNames x1
  have h1 : Later _ x1 := Later.trans (closeTick_later ..) (serveDue_later ..)
  clear_value x1
  exact Later.trans (Later.trans (Later.upd rfl rfl h1) (loadDue_later ..)) (Later.of_moves (scanDue_moves ..) rfl)

theorem execCharacterEdge_later (n : Chan) (s : State) : EndsLater s (execCharacterEdge n s) :=
  ⟨_, rfl, charEdge_later ..⟩

theorem execLibraryChangeover_later (n : Chan) (s : State) : EndsLater s (execLibraryChangeover n s) :=
  ⟨_, rfl, changeover_later ..⟩

theorem execPhaseFrame_later (h : BwHeader) (s : State) : EndsLater s (execPhaseFrame h s) := by
  unfold execPhaseFrame
  refine ⟨_, rfl, ?_⟩
  refine fdTakeRetx_later (hf3 := fun y1_0 y1_1 => ?_) ..
  · split
    · exact Later.ite (fun _ => Later.refl _) fun _ => takePhase_later ..
    · exact Later.refl _

theorem execIdleFrame_later (lane : BwLane) (h : BwHeader) (s : State) : EndsLater s (execIdleFrame lane h s) := by
  unfold execIdleFrame
  refine ⟨_, rfl, ?_⟩
  split
  · refine bwTakePlain_later (hf4 := fun y1_0 => ?_) ..
    · unfold id
      exact Later.refl _
  · refine bwTakePlain_later (hf4 := fun y2_0 => ?_) ..
    · unfold id
      exact Later.refl _
  · exact fdTakeIdle_later ..

theorem execStatusFrame_later (h : BwHeader) (raw : W16) (s : State) : EndsLater s (execStatusFrame h raw s) := by
  unfold execStatusFrame
  refine ⟨_, rfl, ?_⟩
  refine Later.trans ?_ (bwTakeRetx_later (hf3 := fun y1_0 y1_1 => ?_) ..)
  · exact Later.of_moves (formStatus_moves ..) rfl
  · split
    · exact takeStatus_later ..
    · exact Later.refl _

theorem execEventFrame_later (h : BwHeader) (s : State) : EndsLater s (execEventFrame h s) := by
  unfold execEventFrame
  refine ⟨_, rfl, ?_⟩
  refine Later.trans ?_ (bwTakeRetx_later (hf3 := fun y1_0 y1_1 => ?_) ..)
  · exact Later.of_moves (formEvent_moves ..) rfl
  · split
    · exact Later.trans (Later.upd rfl rfl (Later.refl _)) (deliver_later ..)
    · exact Later.refl _

theorem execCommandFrame_later (h : BwHeader) (s : State) : EndsLater s (execCommandFrame h s) := by
  unfold execCommandFrame
  refine ⟨_, rfl, ?_⟩
  refine fdTakeRetx_later (hf3 := fun y1_0 y1_1 => ?_) ..
  · split
    · exact takeCommand_later ..
    · exact Later.refl _

theorem execCommandTargetTick_later (s : State) : EndsLater s (execCommandTargetTick s) := by
  unfold execCommandTargetTick
  refine ⟨_, rfl, ?_⟩
  split
  · exact Later.refl _
  · extract_lets +onlyGivenNames x1
    exact Later.trans (Later.upd rfl rfl (Later.refl _)) (actDue_later ..)

theorem execLoadFrame_later (h : BwHeader) (s : State) : EndsLater s (execLoadFrame h s) := by
  unfold execLoadFrame
  refine ⟨_, rfl, ?_⟩
  refine fdTakeRetx_later (hf3 := fun y1_0 y1_1 => ?_) ..
  · split
    · exact Later.trans (Later.of_moves (fieldReset_moves ..) rfl) (Later.of_moves (fieldGone_moves ..) rfl)
    · exact Later.refl _
    · exact Later.refl _
    · exact Later.refl _
    · exact Later.ite (fun _ => Later.refl _) fun _ => takeLoad_later ..

theorem execSafeFrame_later (h : BwHeader) (s : State) : EndsLater s (execSafeFrame h s) := by
  unfold execSafeFrame
  refine ⟨_, rfl, ?_⟩
  refine fdTakeRetx_later (hf3 := fun y1_0 y1_1 => ?_) ..
  · split
    · extract_lets +onlyGivenNames _ x2
      have h2 : Later y1_1 x2 := Later.upd rfl rfl (Later.refl _)
      clear_value x2
      exact Later.ite (fun _ => Later.trans h2 (applySafeAll_later ..)) fun _ => h2
    · exact Later.refl _

theorem execL2fLaneLost_later (s : State) : EndsLater s (execL2fLaneLost s) :=
  ⟨_, rfl, Later.ite (fun _ => Later.refl _) fun _ => l2fLost_later ..⟩

theorem execBreakwaterTrained_later (lane : BwLane) (s : State) : EndsLater s (execBreakwaterTrained lane s) := by
  unfold execBreakwaterTrained
  refine ⟨_, rfl, ?_⟩
  extract_lets +onlyGivenNames x1
  refine Later.ite (fun _ => ?_) fun _ => ?_
  · exact Later.refl _
  · extract_lets +onlyGivenNames x2
    have h2 : Later s x2 := Later.of_moves (laneUp_moves ..) rfl
    clear_value x2
    extract_lets +onlyGivenNames _ x3
    have h3 : Later s x3 := Later.ite (fun _ => Later.trans (Later.upd rfl rfl h2) (deliver_later ..)) fun _ => h2
    clear_value x3
    extract_lets +onlyGivenNames _ _ x4
    have h4 : Later s x4 := Later.ite (fun _ => Later.upd rfl rfl h3) fun _ => h3
    clear_value x4
    extract_lets +onlyGivenNames x5
    have h5 : Later s x5 := Later.ite (fun _ => Later.trans h4 (Later.of_moves (resetAllPaths_moves ..) rfl)) fun _ => h4
    clear_value x5
    extract_lets +onlyGivenNames x6
    have h6 : Later s x6 := Later.trans (Later.trans (Later.trans h5 (Later.of_moves (refreshServed_moves ..) rfl))
      (leaveDefault_later ..)) (Later.of_moves (bwRefill_moves ..) rfl)
    clear_value x6
    exact Later.ite (fun _ => Later.trans (Later.trans h6 (Later.of_moves (sendRefOn_moves ..) rfl))
      (Later.of_moves (offerIdentity_moves ..) rfl)) fun _ => h6

theorem execLastGasp_later (vfld : W16) (vhold : W16) (s : State) : EndsLater s (execLastGasp vfld vhold s) := by
  unfold execLastGasp
  refine ⟨_, rfl, ?_⟩
  refine Later.ite (fun _ => ?_) fun _ => ?_
  · exact Later.refl _
  · extract_lets +onlyGivenNames x1
    extract_lets +onlyGivenNames _ x2
    have h2 : Later s x2 := Later.upd rfl rfl (Later.refl _)
    clear_value x2
    extract_lets +onlyGivenNames x3
    have h3 : Later s x3 := Later.foldl (fun _ _ => gaspDo_later ..) h2
    clear_value x3
    exact Later.trans (Later.trans h3 (Later.of_moves (report_moves ..) rfl)) (Later.of_moves (report_moves ..) rfl)

theorem execFieldDieFaultDetected_later (f : FieldFault) (s : State) : EndsLater s (execFieldDieFaultDetected f s) := by
  unfold execFieldDieFaultDetected
  refine ⟨_, rfl, ?_⟩
  refine Later.ite (fun _ => ?_) fun _ => ?_
  · exact Later.refl _
  · refine Later.ite (fun _ => ?_) fun _ => ?_
    · exact Later.of_moves (reportStatus_moves ..) rfl
    · extract_lets +onlyGivenNames _ x1
      have h1 : Later s x1 := Later.upd rfl rfl (Later.refl _)
      clear_value x1
      exact Later.trans (Later.ite (fun _ => Later.trans h1 (applySafeAll_later ..)) fun _ => h1)
        (Later.of_moves (reportStatus_moves ..) rfl)

theorem execShortSwitchOff_later (n : Chan) (s : State) : EndsLater s (execShortSwitchOff n s) :=
  ⟨_, rfl, onField_later (hf3 := fun _ => Later.trans (Later.trans (Later.of_moves (State.modFd_moves ..) rfl)
    (Later.of_moves (report_moves ..) rfl)) (drive_later ..)) ..⟩

theorem execShortProbe_later (n : Chan) (inLimit : Bool) (s : State) : EndsLater s (execShortProbe n inLimit s) := by
  unfold execShortProbe
  refine ⟨_, rfl, ?_⟩
  refine onField_later (hf3 := fun y1_0 => ?_) ..
  · extract_lets +onlyGivenNames x2
    have h2 : Later y1_0 x2 := Later.of_moves (State.modFd_moves ..) rfl
    clear_value x2
    exact Later.trans (Later.trans (Later.trans h2 (Later.of_moves (report_moves ..) rfl)) (Later.of_moves (report_moves ..) rfl))
      (drive_later ..)

theorem execWiringCrossing_later (n : Chan) (rev : Bool) (s : State) : EndsLater s (execWiringCrossing n rev s) :=
  ⟨_, rfl, onField_later (hf3 := fun _ => Later.trans (Later.trans (Later.of_moves (State.modFd_moves ..) rfl)
    (Later.of_moves (report_moves ..) rfl)) (drive_later ..)) ..⟩

theorem execWiringTransientEnd_later (n : Chan) (s : State) : EndsLater s (execWiringTransientEnd n s) := by
  unfold execWiringTransientEnd
  refine ⟨_, rfl, ?_⟩
  refine onField_later (hf3 := fun y1_0 => ?_) ..
  · extract_lets +onlyGivenNames x2
    have h2 : Later y1_0 x2 := Later.of_moves (State.modFd_moves ..) rfl
    clear_value x2
    exact Later.trans (Later.trans (Later.trans h2 (Later.of_moves (report_moves ..) rfl)) (Later.of_moves (report_moves ..) rfl))
      (drive_later ..)

theorem execWiringClear_later (n : Chan) (s : State) : EndsLater s (execWiringClear n s) := by
  unfold execWiringClear
  refine ⟨_, rfl, ?_⟩
  refine onField_later (hf3 := fun y1_0 => ?_) ..
  · extract_lets +onlyGivenNames x2
    extract_lets +onlyGivenNames x3
    have h3 : Later y1_0 x3 := Later.of_moves (State.modFd_moves ..) rfl
    clear_value x3
    extract_lets +onlyGivenNames x4
    have h4 : Later y1_0 x4 := Later.ite (fun _ => Later.trans h3 (Later.of_moves (report_moves ..) rfl)) fun _ => h3
    clear_value x4
    extract_lets +onlyGivenNames x5
    have h5 : Later y1_0 x5 := Later.ite (fun _ => Later.trans h4 (Later.of_moves (report_moves ..) rfl)) fun _ => h4
    clear_value x5
    exact Later.trans (Later.trans h5 (Later.of_moves (report_moves ..) rfl)) (drive_later ..)

theorem execBackfeed_later (n : Chan) (present : Bool) (ma : W16) (tj : Byte) (s : State) : EndsLater s (execBackfeed n present ma tj s) :=
    by
  unfold execBackfeed
  refine ⟨_, rfl, ?_⟩
  refine onField_later (hf3 := fun y1_0 => ?_) ..
  · extract_lets +onlyGivenNames x2
    extract_lets +onlyGivenNames x3
    have h3 : Later y1_0 x3 := Later.of_moves (condBit_moves ..) rfl
    clear_value x3
    exact Later.ite (fun _ => Later.trans h3 (fdTrip_later ..)) fun _ => h3

theorem execHardShort_later (n : Chan) (ma : W16) (tj : Byte) (s : State) : EndsLater s (execHardShort n ma tj s) :=
  ⟨_, rfl, onField_later (hf3 := fun _ => fdTrip_later ..) ..⟩

theorem execSteadyTrip_later (n : Chan) (ma : W16) (tj : Byte) (s : State) : EndsLater s (execSteadyTrip n ma tj s) :=
  ⟨_, rfl, onField_later (hf3 := fun _ => fdTrip_later ..) ..⟩

theorem execClampEventEnd_later (n : Chan) (samples : List (W32 × W32 × W32)) (s : State) : EndsLater s (execClampEventEnd n samples s) :=
    by
  unfold execClampEventEnd
  refine ⟨_, rfl, ?_⟩
  refine onField_later (hf3 := fun y1_0 => ?_) ..
  · extract_lets +onlyGivenNames x2
    extract_lets +onlyGivenNames x3
    have h3 : Later y1_0 x3 := Later.of_moves (State.modFd_moves ..) rfl
    clear_value x3
    extract_lets +onlyGivenNames x4
    extract_lets +onlyGivenNames x5
    have h5 : Later y1_0 x5 := Later.trans h3 (Later.of_moves (reportStatus_moves ..) rfl)
    clear_value x5
    exact Later.ite (fun _ => Later.trans (Later.trans h5 (Later.of_moves (modHalves_moves ..) rfl)) (drive_later ..)) fun _ => h5

theorem execThermalCompare_later (n : Chan) (tj : W32) (tcase : W32) (inRegulation : Bool) (ma : W16) (s : State) : EndsLater s
    (execThermalCompare n tj tcase inRegulation ma s) := by
  unfold execThermalCompare
  refine ⟨_, rfl, ?_⟩
  refine onField_later (hf3 := fun y1_0 => ?_) ..
  · extract_lets +onlyGivenNames x2
    extract_lets +onlyGivenNames x3
    extract_lets +onlyGivenNames x4
    extract_lets +onlyGivenNames x5
    extract_lets +onlyGivenNames x6
    extract_lets +onlyGivenNames x7
    extract_lets +onlyGivenNames x8
    extract_lets +onlyGivenNames x9
    have h9 : Later y1_0 x9 := Later.ite (fun _ => Later.of_moves (coolRelease_moves ..) rfl) fun _ => Later.refl _
    clear_value x9
    extract_lets +onlyGivenNames x10
    have h10 : Later y1_0 x10 := Later.ite (fun _ => Later.trans h9 (Later.of_moves (coolRelease_moves ..) rfl)) fun _ => h9
    clear_value x10
    refine Later.ite (fun _ => ?_) fun _ => ?_
    · exact h10
    · extract_lets +onlyGivenNames x11
      have h11 : Later y1_0 x11 := Later.ite (fun _ => Later.trans h10 (Later.of_moves (modHalves_moves ..) rfl)) fun _ => h10
      clear_value x11
      extract_lets +onlyGivenNames x12
      have h12 : Later y1_0 x12 := Later.ite (fun _ => Later.trans h11 (turnOff_later ..)) fun _ => h11
      clear_value x12
      extract_lets +onlyGivenNames x13
      have h13 : Later y1_0 x13 := Later.ite (fun _ => Later.trans h12 (Later.of_moves (coolSet_moves ..) rfl)) fun _ => h12
      clear_value x13
      extract_lets +onlyGivenNames x14
      have h14 : Later y1_0 x14 := Later.ite (fun _ => Later.trans h13 (Later.of_moves (coolSet_moves ..) rfl)) fun _ => h13
      clear_value x14
      exact Later.ite (fun _ => Later.trans h14 (fdTrip_later ..)) fun _ => h14

theorem execGovernorUpdate_later (s : State) : EndsLater s (execGovernorUpdate s) := by
  unfold execGovernorUpdate
  refine ⟨_, rfl, ?_⟩
  refine Later.ite (fun _ => ?_) fun _ => ?_
  · exact Later.refl _
  · extract_lets +onlyGivenNames x1
    have h1 : Later s x1 := Later.of_moves (govUpdate_moves ..) rfl
    clear_value x1
    extract_lets +onlyGivenNames x2
    extract_lets +onlyGivenNames _ x3
    have h3 : Later s x3 := Later.ite (fun _ => Later.upd rfl rfl h1) fun _ => h1
    clear_value x3
    exact Later.foldl (fun _ _ => readmit_later ..) h3

theorem execGovernorReevaluate_later (s : State) : EndsLater s (execGovernorReevaluate s) :=
  ⟨_, rfl, Later.ite (fun _ => Later.foldl (fun _ _ => retryChan_later ..) (Later.refl _)) fun _ => Later.refl _⟩

theorem execCorrelatorResult_later (n : Chan) (cycles : List DitherCycle) (s : State) : EndsLater s (execCorrelatorResult n cycles s) :=
  ⟨_, rfl, Later.ite (fun _ => Later.refl _) fun _ => Later.foldl (fun _ _ => takeCycle_later ..) (Later.refl _)⟩

theorem execOffStatePulse_later (n : Chan) (v0 v1 i1 vfld : W32) (s : State) :
    EndsLater s (execOffStatePulse n v0 v1 i1 vfld s) := by
  unfold execOffStatePulse
  refine ⟨_, rfl, ?_⟩
  refine onField_later (hf3 := fun y => ?_) ..
  extract_lets +onlyGivenNames x1 x2 x3 x4
  have h4 : Later y x4 := (Later.of_moves (State.modFd_moves ..) rfl)
  clear_value x4
  refine Later.ite (fun _ => Later.ite (fun _ => Later.step (Later.of_moves (report_moves ..) rfl) h4) fun _ => ?_) fun _ => Later.step
    (Later.of_moves (report_moves ..) rfl) h4
  split
  next v a e => exact Later.step (Later.of_moves (report_moves ..) rfl) (Later.ofSnd e (Later.step (State.draw_later ..) h4))

theorem execCheckComplete_later (s : State) : EndsLater s (execCheckComplete s) := by
  unfold execCheckComplete
  refine ⟨_, rfl, ?_⟩
  split
  · exact Later.refl _
  · refine Later.ite (fun _ => ?_) fun _ => ?_
    · exact Later.refl _
    · extract_lets +onlyGivenNames x1
      extract_lets +onlyGivenNames x2
      extract_lets +onlyGivenNames _ x3
      have h3 : Later s x3 := by
        unfold x3
        refine Later.draw rfl (by split <;> omega) ?_
        exact Later.refl _
      clear_value x3
      exact Later.step (Later.of_moves (mbxEnd_moves ..) rfl) (Later.step (Later.of_moves (mbxReturn_moves ..) rfl)
        (Later.step (Later.of_moves (mbxReturn_moves ..) rfl) h3))

theorem execEndpointRecompute_later (s : State) : EndsLater s (execEndpointRecompute s) :=
  ⟨_, rfl, Later.ite (fun _ => Later.refl _) fun _ => Later.trans (Later.trans
    (Later.trans (Later.trans (Later.of_moves (settleMode_moves ..) rfl) (Later.of_moves (recompute_moves ..) rfl))
    (Later.of_moves (restartPending_moves ..) rfl)) (mapPending_later ..)) (Later.of_moves (flushNormal_moves ..) rfl)⟩

theorem execRuleCycle_later (s : State) : EndsLater s (execRuleCycle s) := by
  unfold execRuleCycle
  refine ⟨_, rfl, ?_⟩
  split
  · exact Later.ite (fun _ => cycle_later ..) fun _ => Later.refl _
  · exact Later.refl _

theorem execExecutiveLoaded_later (startCheck : StartCheck) (s : State) : EndsLater s (execExecutiveLoaded startCheck s) := by
  unfold execExecutiveLoaded
  refine ⟨_, rfl, ?_⟩
  split
  · exact Later.refl _
  · refine Later.ite (fun _ => ?_) fun _ => ?_
    · exact Later.refl _
    · split
      · exact Later.upd rfl rfl (Later.refl _)
      · extract_lets +onlyGivenNames x1
        extract_lets +onlyGivenNames x2
        extract_lets +onlyGivenNames _ x3
        have h3 : Later s x3 := Later.upd rfl rfl (Later.refl _)
        clear_value x3
        refine Later.ite (fun _ => ?_) fun _ => ?_
        · exact Later.upd rfl rfl h3
        · extract_lets +onlyGivenNames _ _ _ x4
          have h4 : Later s x4 := Later.upd rfl rfl h3
          clear_value x4
          exact Later.trans (Later.trans (Later.trans h4 (Later.of_moves (startLog_moves ..) rfl))
            (Later.of_moves (raiseDeferred_moves ..) rfl)) (takeBuffered_later ..)

theorem execMicrocodeAccepted_later (x : StartMeasure) (s : State) : EndsLater s (execMicrocodeAccepted x s) := by
  unfold execMicrocodeAccepted
  refine ⟨_, rfl, ?_⟩
  split
  · refine Later.ite (fun _ => ?_) fun _ => ?_
    · exact Later.refl _
    · split
      · exact Later.ite (fun _ => Later.trans (takeUcode_later ..) (startConfig_later ..)) fun _ => Later.of_moves (startNoUcode_moves ..)
          rfl
      · exact Later.of_moves (startNoUcode_moves ..) rfl
  · exact Later.refl _

theorem execStageCommit_later (slot : SlotIx) (tag : W16) (s : State) : EndsLater s (execStageCommit slot tag s) :=
  ⟨_, rfl, mbxServed_later (hf4 := fun _ _ _ => runStageCommit_later ..) ..⟩

theorem execWriteConfig_later (slot : SlotIx) (tag : W16) (s : State) : EndsLater s (execWriteConfig slot tag s) :=
  ⟨_, rfl, mbxServed_later (hf4 := fun _ _ _ => runWriteConfig_later ..) ..⟩

theorem execRetireChannel_later (slot : SlotIx) (tag : W16) (s : State) : EndsLater s (execRetireChannel slot tag s) :=
  ⟨_, rfl, mbxServed_later (hf4 := fun _ _ _ => runRetireChannel_later ..) ..⟩

theorem execReturnChannel_later (slot : SlotIx) (tag : W16) (s : State) : EndsLater s (execReturnChannel slot tag s) :=
  ⟨_, rfl, mbxServed_later (hf4 := fun _ _ _ => runReturnChannel_later ..) ..⟩

theorem execTrimZero_later (slot : SlotIx) (tag : W16) (s : State) : EndsLater s (execTrimZero slot tag s) :=
  ⟨_, rfl, mbxServed_later (hf4 := fun _ _ _ => runTrimZero_later ..) ..⟩

theorem execTrimSpan_later (slot : SlotIx) (tag : W16) (s : State) : EndsLater s (execTrimSpan slot tag s) :=
  ⟨_, rfl, mbxServed_later (hf4 := fun _ _ _ => runTrimSpan_later ..) ..⟩

theorem execTrimCaptureComplete_later (n : Chan) (written : Bool) (s : State) : EndsLater s (execTrimCaptureComplete n written s) := by
  unfold execTrimCaptureComplete
  refine ⟨_, rfl, ?_⟩
  split
  · exact Later.ite (fun _ => trimComplete_later ..) fun _ => Later.refl _
  · exact Later.refl _

theorem execEnrolSignature_later (slot : SlotIx) (tag : W16) (s : State) : EndsLater s (execEnrolSignature slot tag s) :=
  ⟨_, rfl, mbxServed_later (hf4 := fun _ _ _ => runEnrolSignature_later ..) ..⟩

theorem execReinit_later (slot : SlotIx) (tag : W16) (s : State) : EndsLater s (execReinit slot tag s) :=
  ⟨_, rfl, mbxServed_later (hf4 := fun _ _ _ => runReinit_later ..) ..⟩

theorem execWatchdog_later (k : Fin 8) (func : BitVec 5) (s : State) : EndsLater s (execWatchdog k func s) :=
  ⟨_, rfl, wdExpire_later ..⟩

theorem execRuleOverrun_later (s : State) : EndsLater s (execRuleOverrun s) := by
  unfold execRuleOverrun
  refine ⟨_, rfl, ?_⟩
  refine Later.ite (fun _ => ?_) fun _ => ?_
  · exact Later.refl _
  · extract_lets +onlyGivenNames x1
    extract_lets +onlyGivenNames _ x2
    have h2 : Later s x2 := Later.upd rfl rfl (Later.refl _)
    clear_value x2
    extract_lets +onlyGivenNames x3
    have h3 : Later s x3 := Later.trans h2 (Later.of_moves (raise_moves ..) rfl)
    clear_value x3
    exact Later.ite (fun _ => Later.trans h3 (wdExpire_later ..)) fun _ => h3

theorem execRetrainTimeout_later (s : State) : EndsLater s (execRetrainTimeout s) := by
  unfold execRetrainTimeout
  refine ⟨_, rfl, ?_⟩
  refine Later.ite (fun _ => ?_) fun _ => ?_
  · exact Later.refl _
  · extract_lets +onlyGivenNames _ x1
    have h1 : Later s x1 := Later.upd rfl rfl (Later.refl _)
    clear_value x1
    refine Later.ite (fun _ => ?_) fun _ => ?_
    · exact Later.ite (fun _ => h1) fun _ => Later.trans (Later.trans (Later.upd rfl rfl h1) (Later.of_moves (raiseBw_moves ..) rfl))
        (Later.of_moves (raise_moves ..) rfl)
    · refine Later.ite (fun _ => ?_) fun _ => ?_
      · exact h1
      · extract_lets +onlyGivenNames x2
        extract_lets +onlyGivenNames x3
        have h3 : Later s x3 := Later.trans h1 (Later.of_moves (raiseBw_moves ..) rfl)
        clear_value x3
        extract_lets +onlyGivenNames x4
        have h4 : Later s x4 := Later.ite (fun _ => h3) fun _ => Later.ite (fun _ => Later.trans h3 (startReinit_later ..)) fun _ =>
          Later.trans h3 (wdExpire_later ..)
        clear_value x4
        exact Later.ite (fun _ => h4) fun _ => Later.trans (Later.trans (Later.upd rfl rfl h4) (deliver_later ..))
          (Later.of_moves (refreshServed_moves ..) rfl)

theorem execReloadComplete_later (written : Bool) (s : State) : EndsLater s (execReloadComplete written s) := by
  unfold execReloadComplete
  refine ⟨_, rfl, ?_⟩
  split
  · exact Later.refl _
  · split
    · exact Later.refl _
    · refine Later.ite (fun _ => ?_) fun _ => ?_
      · exact Later.refl _
      · extract_lets +onlyGivenNames _ x1
        have h1 : Later s x1 := Later.trans (Later.upd rfl rfl (Later.refl _)) (Later.of_moves (reloadOver_moves ..) rfl)
        clear_value x1
        extract_lets +onlyGivenNames x2
        have h2 : Later s x2 := Later.ite (fun _ => Later.trans (Later.trans (Later.trans h1 (Later.of_moves (leaveSlack_moves ..) rfl))
          (Later.of_moves (resetAllPaths_moves ..) rfl)) (Later.of_moves (endHold_moves ..) rfl)) fun _ => Later.ite
          (fun _ => Later.trans h1 (Later.of_moves (freshAfterHold_moves ..) rfl)) fun _ => Later.trans h1
          (Later.of_moves (endHold_moves ..) rfl)
        clear_value x2
        extract_lets +onlyGivenNames x3
        have h3 : Later s x3 := Later.ite (fun _ => h2) fun _ => Later.trans h2 (Later.of_moves (commitUcode_moves ..) rfl)
        clear_value x3
        exact Later.trans h3 (takeDue_later ..)

theorem execReloadBodyFail_later (s : State) : EndsLater s (execReloadBodyFail s) := by
  unfold execReloadBodyFail
  refine ⟨_, rfl, ?_⟩
  split
  · exact Later.refl _
  · refine Later.ite (fun _ => ?_) fun _ => ?_
    · exact Later.refl _
    · extract_lets +onlyGivenNames _ x1
      have h1 : Later s x1 := Later.upd rfl rfl (Later.refl _)
      clear_value x1
      refine Later.ite (fun _ => ?_) fun _ => ?_
      · split
        · exact Later.trans (Later.upd rfl rfl h1) (Later.of_moves (sendUcode_moves ..) rfl)
        · exact h1
      · refine Later.ite (fun _ => ?_) fun _ => ?_
        · extract_lets +onlyGivenNames x2
          extract_lets +onlyGivenNames _ x3
          have h3 : Later s x3 := Later.upd rfl rfl h1
          clear_value x3
          extract_lets +onlyGivenNames x4
          have h4 : Later s x4 := Later.ite (fun _ => Later.trans h3 (Later.of_moves (setStage_moves ..) rfl)) fun _ => h3
          clear_value x4
          split
          · exact Later.trans h4 (Later.of_moves (sendUcode_moves ..) rfl)
          · exact Later.trans h4 (reloadFailed_later ..)
        · exact Later.trans h1 (reloadFailed_later ..)

theorem execSlackWindowExpiry_later (s : State) : EndsLater s (execSlackWindowExpiry s) := by
  unfold execSlackWindowExpiry
  refine ⟨_, rfl, ?_⟩
  refine Later.ite (fun _ => ?_) fun _ => ?_
  · exact Later.refl _
  · extract_lets +onlyGivenNames _ x1
    have h1 : Later s x1 := Later.trans (Later.upd rfl rfl (Later.refl _)) (applySafeAll_later ..)
    clear_value x1
    refine Later.ite (fun _ => ?_) fun _ => ?_
    · exact Later.trans (Later.upd rfl rfl h1) (Later.of_moves (bwSend_moves ..) rfl)
    · split
      · exact Later.ite (fun _ => Later.trans (Later.trans (Later.trans h1 (Later.of_moves (reloadOver_moves ..) rfl))
          (Later.of_moves (freshAfterHold_moves ..) rfl)) (takeDue_later ..)) fun _ => h1
      · exact h1

theorem execGenerationApply_later (s : State) : EndsLater s (execGenerationApply s) := by
  unfold execGenerationApply
  refine ⟨_, rfl, ?_⟩
  split
  · exact Later.ite (fun _ => Later.refl _) fun _ => Later.ite (fun _ => Later.trans (Later.upd rfl rfl (Later.refl _))
      (Later.of_moves (raisePower_moves ..) rfl)) fun _ => applyGeneration_later ..
  · exact Later.refl _

theorem execMemoryFrame_later (s : State) : EndsLater s (execMemoryFrame s) := by
  unfold execMemoryFrame
  refine ⟨_, rfl, ?_⟩
  split
  · exact Later.refl _
  · refine Later.ite (fun _ => ?_) fun _ => ?_
    · exact Later.refl _
    · extract_lets +onlyGivenNames x1
      extract_lets +onlyGivenNames x2
      have h2 : Later s x2 := Later.ite (fun _ => Later.of_moves (breakChain_moves ..) rfl) fun _ => Later.refl _
      clear_value x2
      refine Later.ite (fun _ => ?_) fun _ => ?_
      · exact h2
      · extract_lets +onlyGivenNames x3
        have h3 : Later s x3 := Later.trans h2 (sendFrame_later ..)
        clear_value x3
        extract_lets +onlyGivenNames x4
        exact Later.upd rfl rfl h3

theorem execXipRead_later (addr : BitVec 24) (len : W16) (s : State) : EndsLater s (execXipRead addr len s) := by
  unfold execXipRead
  refine ⟨_, rfl, ?_⟩
  refine Later.ite (fun _ => ?_) fun _ => ?_
  · exact Later.refl _
  · extract_lets +onlyGivenNames x1
    refine Later.draw rfl (Nat.le_succ _) ?_
    exact Later.refl _

theorem execScrub_later (offset : BitVec 23) (uncorrectable : Bool) (s : State) : EndsLater s (execScrub offset uncorrectable s) :=
  ⟨_, rfl, Later.ite (fun _ => Later.refl _) fun _ => Later.ite (fun _ => Later.of_moves (raise_moves ..) rfl) fun _ => Later.trans
    (Later.of_moves (raise_moves ..) rfl) (eccWord_later ..)⟩

theorem execImageWrite_later (words : List (BitVec 20 × W16)) (s : State) : EndsLater s (execImageWrite words s) :=
  ⟨_, rfl, hostWrite_later ..⟩

theorem execStagingWrite_later (offset : BitVec 20) (data : List Byte) (s : State) : EndsLater s (execStagingWrite offset data s) :=
  ⟨_, rfl, Later.ite (fun _ => Later.refl _) fun _ => hostWrite_later ..⟩

theorem execSwapRequest_later (p : PathIx) (v : W32) (s : State) : EndsLater s (execSwapRequest p v s) :=
  ⟨_, rfl, hostWrite_later ..⟩

theorem execSyncRequest_later (p : PathIx) (v : W32) (s : State) : EndsLater s (execSyncRequest p v s) :=
  ⟨_, rfl, hostWrite_later ..⟩

theorem execPpssetWrite_later (v : W32) (s : State) : EndsLater s (execPpssetWrite v s) :=
  ⟨_, rfl, hostWrite_later ..⟩

theorem execEvqAck_later (v : W32) (s : State) : EndsLater s (execEvqAck v s) :=
  ⟨_, rfl, hostWrite_later ..⟩

theorem execCountClear_later (v : W32) (s : State) : EndsLater s (execCountClear v s) :=
  ⟨_, rfl, hostWrite_later ..⟩

theorem execRegisterWrite_later (addr : BitVec 24) (v : W32) (s : State) : EndsLater s (execRegisterWrite addr v s) :=
  ⟨_, rfl, hostWrite_later ..⟩

theorem execUnknownMailboxCommand_later (slot : SlotIx) (code : W16) (tag : W16) (s : State) : EndsLater s
    (execUnknownMailboxCommand slot code tag s) :=
  ⟨_, rfl, mbxServed_later (hf4 := fun _ _ _ => mbxDispatch_later ..) ..⟩

theorem execRead_later (f : HostFrame) (s : State) : EndsLater s (execRead f s) :=
  ⟨_, rfl, readFrame_later ..⟩

theorem execReadDualData_later (f : HostFrame) (s : State) : EndsLater s (execReadDualData f s) :=
  ⟨_, rfl, readFrame_later ..⟩

theorem execReadDualAddressData_later (f : HostFrame) (s : State) : EndsLater s (execReadDualAddressData f s) :=
  ⟨_, rfl, readFrame_later ..⟩

theorem execReadQuadData_later (f : HostFrame) (s : State) : EndsLater s (execReadQuadData f s) :=
  ⟨_, rfl, readFrame_later ..⟩

theorem execReadQuadAddressData_later (f : HostFrame) (s : State) : EndsLater s (execReadQuadAddressData f s) :=
  ⟨_, rfl, readFrame_later ..⟩

theorem execWrite_later (f : HostFrame) (s : State) : EndsLater s (execWrite f s) := by
  unfold execWrite
  refine ⟨_, rfl, ?_⟩
  refine frameStart_later (hf2 := fun y1_0 => ?_) ..
  · refine Later.ite (fun _ => ?_) fun _ => ?_
    · extract_lets +onlyGivenNames x2
      exact legacyWriteFrame_later ..
    · exact writeFrame_later ..

theorem execWriteDualData_later (f : HostFrame) (s : State) : EndsLater s (execWriteDualData f s) :=
  ⟨_, rfl, frameStart_later (hf2 := fun _ => Later.ite (fun _ => Later.of_moves (unknownFrame_moves ..) rfl) fun _ => writeFrame_later ..)
    ..⟩

theorem execWriteQuadData_later (f : HostFrame) (s : State) : EndsLater s (execWriteQuadData f s) :=
  ⟨_, rfl, frameStart_later (hf2 := fun _ => Later.ite (fun _ => Later.of_moves (unknownFrame_moves ..) rfl) fun _ => writeFrame_later ..)
    ..⟩

theorem execFenceFrame_later (tag : W16) (cycles : ℕ) (laneError : Bool) (s : State) : EndsLater s (execFenceFrame tag cycles laneError s)
    :=
  ⟨_, rfl, frameStart_later (hf2 := fun _ => Later.ite (fun _ => Later.of_moves (unknownFrame_moves ..) rfl) fun _ => Later.ite
    (fun _ => Later.of_moves (hostError_moves ..) rfl) fun _ => Later.ite (fun _ => Later.of_moves (hostError_moves ..) rfl) fun _ =>
    Later.ite (fun _ => Later.of_moves (hostError_moves ..) rfl) fun _ => acceptFrame_later ..) ..⟩

theorem execLegacyRead_later (f : HostFrame) (s : State) : EndsLater s (execLegacyRead f s) :=
  ⟨_, rfl, legacyReadFrame_later ..⟩

theorem execLegacyReadLate_later (f : HostFrame) (s : State) : EndsLater s (execLegacyReadLate f s) :=
  ⟨_, rfl, legacyReadFrame_later ..⟩

theorem execLegacyWrite_later (f : HostFrame) (s : State) : EndsLater s (execLegacyWrite f s) :=
  ⟨_, rfl, frameStart_later (hf2 := fun _ => Later.ite (fun _ => legacyWriteFrame_later ..) fun _ => writeFrame_later ..) ..⟩

theorem execLinkFrameSend_later (k : PortIx) (s : State) : EndsLater s (execLinkFrameSend k s) := by
  unfold execLinkFrameSend
  refine ⟨_, rfl, ?_⟩
  extract_lets +onlyGivenNames x1
  have h1 : Later s x1 := (Later.of_moves (clearOut_moves ..) rfl)
  clear_value x1
  refine Later.ite (fun _ => h1) fun _ => ?_
  split
  next t e => exact Later.step (Later.of_moves (sendClass_moves e) rfl) h1
  next =>
    split
    next t e => exact Later.step (Later.of_moves (sendClass_moves e) rfl) h1
    next =>
      cases e : sendClass x1 k .request with
      | none => exact h1
      | some t => exact Later.step (Later.of_moves (sendClass_moves e) rfl) h1

theorem execLinkWrite_later (k : PortIx) (f : LinkHeader) (s : State) : EndsLater s (execLinkWrite k f s) :=
  ⟨_, rfl, linkFrame_later (hf5 := fun _ => transitWrite_later ..) ..⟩

theorem execWriteRsp_later (k : PortIx) (f : LinkHeader) (s : State) : EndsLater s (execWriteRsp k f s) :=
  ⟨_, rfl, linkFrame_later (hf5 := fun _ => Later.trans (Later.of_moves (actWriteRsp_moves ..) rfl) (serveAll_later ..)) ..⟩

theorem execErrorRsp_later (k : PortIx) (f : LinkHeader) (s : State) : EndsLater s (execErrorRsp k f s) :=
  ⟨_, rfl, linkFrame_later (hf5 := fun _ => Later.trans (Later.of_moves (actErrorRsp_moves ..) rfl) (serveAll_later ..)) ..⟩

theorem execRequestBudgetExpiry_later (k : PortIx) (tag : W16) (s : State) : EndsLater s (execRequestBudgetExpiry k tag s) := by
  unfold execRequestBudgetExpiry
  refine ⟨_, rfl, ?_⟩
  split
  · exact Later.trans (Later.trans (Later.of_moves (dropBuffered_moves ..) rfl) (Later.of_moves (State.modPort_moves ..) rfl))
      (Later.of_moves (sendResponse_moves ..) rfl)
  · refine Later.ite (fun _ => ?_) fun _ => ?_
    · exact Later.refl _
    · split
      · extract_lets +onlyGivenNames x1
        have h1 : Later s x1 := Later.of_moves (State.modPort_moves ..) rfl
        clear_value x1
        exact Later.trans (Later.trans h1 (Later.of_moves (requestFailed_moves ..) rfl)) (serveAll_later ..)
      · exact Later.refl _

theorem execRelease_later (crcs : List W32) (s : State) : EndsLater s (execRelease crcs s) :=
  ⟨_, rfl, Later.trans (Later.of_moves (scanCtrl_moves ..) rfl) (releaseHalt_later ..)⟩

theorem execDetach_later (crcs : List W32) (s : State) : EndsLater s (execDetach crcs s) := by
  unfold execDetach
  refine ⟨_, rfl, ?_⟩
  extract_lets +onlyGivenNames x1
  have h1 : Later s x1 := Later.trans (Later.of_moves (scanCtrl_moves ..) rfl) (releaseHalt_later ..)
  clear_value x1
  exact Later.upd rfl rfl h1

theorem execExecutiveResume_later (s : State) : EndsLater s (execExecutiveResume s) := by
  unfold execExecutiveResume
  refine ⟨_, rfl, ?_⟩
  split
  · exact Later.refl _
  · refine Later.ite (fun _ => ?_) fun _ => ?_
    · exact Later.refl _
    · extract_lets +onlyGivenNames x1
      have h1 : Later s x1 := Later.of_moves (handoverOver_moves ..) rfl
      clear_value x1
      exact Later.trans (Later.upd rfl rfl h1) (resumeWith_later ..)

theorem execHandoverReverse_later (why : BitVec 3) (startCheck : StartCheck) (s : State) : EndsLater s
    (execHandoverReverse why startCheck s) := by
  unfold execHandoverReverse
  refine ⟨_, rfl, ?_⟩
  split
  · exact Later.refl _
  · refine Later.ite (fun _ => ?_) fun _ => ?_
    · exact Later.refl _
    · extract_lets +onlyGivenNames x1
      have h1 : Later s x1 := Later.ite (fun _ => Later.of_moves (exchange_moves ..) rfl) fun _ => Later.refl _
      clear_value x1
      extract_lets +onlyGivenNames x2
      have h2 : Later s x2 := Later.trans (Later.upd rfl rfl h1) (Later.of_moves (handoverOver_moves ..) rfl)
      clear_value x2
      exact Later.ite (fun _ => Later.trans h2 (resumeWith_later ..)) fun _ => Later.trans h2 (reverseDead_later ..)


theorem execLoopResistanceEstimate_later (n : Chan) (s : State) : EndsLater s (execLoopResistanceEstimate n s) :=
  ⟨_, rfl, Later.ite (fun _ => Later.step (Later.of_moves (State.modLoop_moves ..) rfl) (loopR_later ..)) fun _ => Later.refl _⟩

/-- A command that draws no free value. -/
theorem EndsLater.of_ends {ps : List Part} {s : State} {o : Host.Outcome State Fault Refusal} (h : Ends ps s o)
    (hf : ps.contains .free = false) : EndsLater s o :=
  h.imp fun _ k => ⟨k.1, .of_moves k.2 hf⟩

/-- Every command draws free values forward only. -/
theorem exec_later (c : Instr) (s : State) : EndsLater s (exec c s) := by
  cases c with
  | read => exact execRead_later ..
  | readDualData => exact execReadDualData_later ..
  | readDualAddressData => exact execReadDualAddressData_later ..
  | readQuadData => exact execReadQuadData_later ..
  | readQuadAddressData => exact execReadQuadAddressData_later ..
  | readSync => exact .of_ends (execReadSync_ends ..) rfl
  | readAbort => exact .of_ends (execReadAbort_ends ..) rfl
  | write => exact execWrite_later ..
  | writeDualData => exact execWriteDualData_later ..
  | writeQuadData => exact execWriteQuadData_later ..
  | status => exact .of_ends (execStatus_ends ..) rfl
  | ident => exact .of_ends (execIdent_ends ..) rfl
  | fenceFrame => exact execFenceFrame_later ..
  | unknownCommand => exact .of_ends (execUnknownCommand_ends ..) rfl
  | legacyRead => exact execLegacyRead_later ..
  | legacyReadLate => exact execLegacyReadLate_later ..
  | legacyWrite => exact execLegacyWrite_later ..
  | setpage => exact .of_ends (execSetpage_ends ..) rfl
  | imageWrite => exact execImageWrite_later ..
  | coefficientWrite => exact .of_ends (execCoefficientWrite_ends ..) rfl
  | stagingWrite => exact execStagingWrite_later ..
  | swapRequest => exact execSwapRequest_later ..
  | syncRequest => exact execSyncRequest_later ..
  | ppssetWrite => exact execPpssetWrite_later ..
  | evqAck => exact execEvqAck_later ..
  | countClear => exact execCountClear_later ..
  | registerWrite => exact execRegisterWrite_later ..
  | nop => exact .of_ends (execNop_ends ..) rfl
  | fence => exact .of_ends (execFence_ends ..) rfl
  | reinit => exact execReinit_later ..
  | reinitComplete => exact .of_ends (execReinitComplete_ends ..) rfl
  | resetDevice => exact .of_ends (execResetDevice_ends ..) rfl
  | requestPowerCycle => exact .of_ends (execRequestPowerCycle_ends ..) rfl
  | pcycAssert => exact .of_ends (execPcycAssert_ends ..) rfl
  | retireChannel => exact execRetireChannel_later ..
  | returnChannel => exact execReturnChannel_later ..
  | mapSpare => exact .of_ends (execMapSpare_ends ..) rfl
  | trimZero => exact execTrimZero_later ..
  | trimSpan => exact execTrimSpan_later ..
  | trimCaptureComplete => exact execTrimCaptureComplete_later ..
  | restoreFactory => exact .of_ends (execRestoreFactory_ends ..) rfl
  | enrolSignature => exact execEnrolSignature_later ..
  | enrolComplete => exact .of_ends (execEnrolComplete_ends ..) rfl
  | stageOpen => exact .of_ends (execStageOpen_ends ..) rfl
  | stageCommit => exact execStageCommit_later ..
  | stageAbort => exact .of_ends (execStageAbort_ends ..) rfl
  | check => exact .of_ends (execCheck_ends ..) rfl
  | checkComplete => exact execCheckComplete_later ..
  | forceSafe => exact .of_ends (execForceSafe_ends ..) rfl
  | leaveSafe => exact .of_ends (execLeaveSafe_ends ..) rfl
  | enterTrim => exact .of_ends (execEnterTrim_ends ..) rfl
  | leaveTrim => exact .of_ends (execLeaveTrim_ends ..) rfl
  | writeConfig => exact execWriteConfig_later ..
  | hartPass => exact .of_ends (execHartPass_ends ..) rfl
  | unknownMailboxCommand => exact execUnknownMailboxCommand_later ..
  | extest => exact .of_ends (execExtest_ends ..) rfl
  | idcode => exact .of_ends (execIdcode_ends ..) rfl
  | samplePreload => exact .of_ends (execSamplePreload_ends ..) rfl
  | bypass => exact .of_ends (execBypass_ends ..) rfl
  | attach => exact .of_ends (execAttach_ends ..) rfl
  | detach => exact execDetach_later ..
  | halt => exact .of_ends (execHalt_ends ..) rfl
  | triadHalted => exact .of_ends (execTriadHalted_ends ..) rfl
  | release => exact execRelease_later ..
  | step => exact .of_ends (execStep_ends ..) rfl
  | dbgRead => exact .of_ends (execDbgRead_ends ..) rfl
  | dbgWrite => exact .of_ends (execDbgWrite_ends ..) rfl
  | logicReset => exact .of_ends (execLogicReset_ends ..) rfl
  | start => exact .of_ends (execStart_ends ..) rfl
  | clocksValid => exact .of_ends (execClocksValid_ends ..) rfl
  | executiveLoaded => exact execExecutiveLoaded_later ..
  | refReady => exact .of_ends (execRefReady_ends ..) rfl
  | refOnRetry => exact .of_ends (execRefOnRetry_ends ..) rfl
  | microcodeAccepted => exact execMicrocodeAccepted_later ..
  | xinFailure => exact .of_ends (execXinFailure_ends ..) rfl
  | monitorRelock => exact .of_ends (execMonitorRelock_ends ..) rfl
  | clockReset => exact .of_ends (execClockReset_ends ..) rfl
  | fieldResetRelease => exact .of_ends (execFieldResetRelease_ends ..) rfl
  | fieldSupplyBandChange => exact .of_ends (execFieldSupplyBandChange_ends ..) rfl
  | lastGasp => exact execLastGasp_later ..
  | fieldDieReset => exact .of_ends (execFieldDieReset_ends ..) rfl
  | vloopLow => exact .of_ends (execVloopLow_ends ..) rfl
  | idleFrame => exact execIdleFrame_later ..
  | sampleFrame => exact .of_ends (execSampleFrame_ends ..) rfl
  | statusFrame => exact execStatusFrame_later ..
  | housekeepingFrame => exact .of_ends (execHousekeepingFrame_ends ..) rfl
  | eventFrame => exact execEventFrame_later ..
  | commandFrame => exact execCommandFrame_later ..
  | phaseSend => exact .of_ends (execPhaseSend_ends ..) rfl
  | phaseFrame => exact execPhaseFrame_later ..
  | loadFrame => exact execLoadFrame_later ..
  | safeFrame => exact execSafeFrame_later ..
  | commandTargetTick => exact execCommandTargetTick_later ..
  | bwRetransmit => exact .of_ends (execBwRetransmit_ends ..) rfl
  | l2fLaneLost => exact execL2fLaneLost_later ..
  | f2lLaneLost => exact .of_ends (execF2lLaneLost_ends ..) rfl
  | breakwaterTrained => exact execBreakwaterTrained_later ..
  | retrainTimeout => exact execRetrainTimeout_later ..
  | sampleLossClear => exact .of_ends (execSampleLossClear_ends ..) rfl
  | slackWindowExpiry => exact execSlackWindowExpiry_later ..
  | diStateChange => exact .of_ends (execDiStateChange_ends ..) rfl
  | diClassChange => exact .of_ends (execDiClassChange_ends ..) rfl
  | senseDiff => exact .of_ends (execSenseDiff_ends ..) rfl
  | pairImbal => exact .of_ends (execPairImbal_ends ..) rfl
  | pathLimit => exact .of_ends (execPathLimit_ends ..) rfl
  | shortSwitchOff => exact execShortSwitchOff_later ..
  | shortProbe => exact execShortProbe_later ..
  | openLoop => exact .of_ends (execOpenLoop_ends ..) rfl
  | wiringCrossing => exact execWiringCrossing_later ..
  | wiringDeclare => exact .of_ends (execWiringDeclare_ends ..) rfl
  | wiringTransientEnd => exact execWiringTransientEnd_later ..
  | wiringClear => exact execWiringClear_later ..
  | doReverse => exact .of_ends (execDoReverse_ends ..) rfl
  | backfeed => exact execBackfeed_later ..
  | hardShort => exact execHardShort_later ..
  | steadyTrip => exact execSteadyTrip_later ..
  | floodWindowEnd => exact .of_ends (execFloodWindowEnd_ends ..) rfl
  | clampEventStart => exact .of_ends (execClampEventStart_ends ..) rfl
  | clampEventEnd => exact execClampEventEnd_later ..
  | clampEnergyTest => exact .of_ends (execClampEnergyTest_ends ..) rfl
  | clampDecayStep => exact .of_ends (execClampDecayStep_ends ..) rfl
  | thermalCompare => exact execThermalCompare_later ..
  | backoffExpiry => exact .of_ends (execBackoffExpiry_ends ..) rfl
  | tokenRefill => exact .of_ends (execTokenRefill_ends ..) rfl
  | quietReset => exact .of_ends (execQuietReset_ends ..) rfl
  | governorUpdate => exact execGovernorUpdate_later ..
  | governorOver => exact .of_ends (execGovernorOver_ends ..) rfl
  | governorReevaluate => exact execGovernorReevaluate_later ..
  | governorShed => exact .of_ends (execGovernorShed_ends ..) rfl
  | windowDeclare => exact .of_ends (execWindowDeclare_ends ..) rfl
  | ditherStart => exact .of_ends (execDitherStart_ends ..) rfl
  | correlatorResult => exact execCorrelatorResult_later ..
  | offStatePulse => exact execOffStatePulse_later ..
  | phantomDeclare => exact .of_ends (execPhantomDeclare_ends ..) rfl
  | phantomClear => exact .of_ends (execPhantomClear_ends ..) rfl
  | phantomDriven => exact .of_ends (execPhantomDriven_ends ..) rfl
  | pathCheck => exact .of_ends (execPathCheck_ends ..) rfl
  | evidenceExpiry => exact .of_ends (execEvidenceExpiry_ends ..) rfl
  | shortfall => exact .of_ends (execShortfall_ends ..) rfl
  | excess => exact .of_ends (execExcess_ends ..) rfl
  | complianceClear => exact .of_ends (execComplianceClear_ends ..) rfl
  | aoOpen => exact .of_ends (execAoOpen_ends ..) rfl
  | loopResistanceEstimate => exact execLoopResistanceEstimate_later ..
  | almRisk => exact .of_ends (execAlmRisk_ends ..) rfl
  | dacRecompute => exact .of_ends (execDacRecompute_ends ..) rfl
  | buttonPress => exact .of_ends (execButtonPress_ends ..) rfl
  | hartPollDue => exact .of_ends (execHartPollDue_ends ..) rfl
  | hartSearch => exact .of_ends (execHartSearch_ends ..) rfl
  | hartTransactionStart => exact .of_ends (execHartTransactionStart_ends ..) rfl
  | hartResponse => exact .of_ends (execHartResponse_ends ..) rfl
  | hartTimeout => exact .of_ends (execHartTimeout_ends ..) rfl
  | hartBurst => exact .of_ends (execHartBurst_ends ..) rfl
  | hartModemSelftest => exact .of_ends (execHartModemSelftest_ends ..) rfl
  | mainResult => exact .of_ends (execMainResult_ends ..) rfl
  | alignCrossing => exact .of_ends (execAlignCrossing_ends ..) rfl
  | ppsEdge => exact .of_ends (execPpsEdge_ends ..) rfl
  | mainsEdge => exact .of_ends (execMainsEdge_ends ..) rfl
  | tideInEdge => exact .of_ends (execTideInEdge_ends ..) rfl
  | referenceEventProcess => exact .of_ends (execReferenceEventProcess_ends ..) rfl
  | incApply => exact .of_ends (execIncApply_ends ..) rfl
  | wheelStep => exact .of_ends (execWheelStep_ends ..) rfl
  | referenceLost => exact .of_ends (execReferenceLost_ends ..) rfl
  | characterEdge => exact execCharacterEdge_later ..
  | libraryChangeover => exact execLibraryChangeover_later ..
  | tideOutPulse => exact .of_ends (execTideOutPulse_ends ..) rfl
  | tideOutEnd => exact .of_ends (execTideOutEnd_ends ..) rfl
  | timeSend => exact .of_ends (execTimeSend_ends ..) rfl
  | endpointRecompute => exact execEndpointRecompute_later ..
  | updateSend => exact .of_ends (execUpdateSend_ends ..) rfl
  | sweepSend => exact .of_ends (execSweepSend_ends ..) rfl
  | entryStale => exact .of_ends (execEntryStale_ends ..) rfl
  | fenceComplete => exact .of_ends (execFenceComplete_ends ..) rfl
  | generationApply => exact execGenerationApply_later ..
  | ruleCycle => exact execRuleCycle_later ..
  | ruleOverrun => exact execRuleOverrun_later ..
  | train => exact .of_ends (execTrain_ends ..) rfl
  | trainSend => exact .of_ends (execTrainSend_ends ..) rfl
  | commaAligned => exact .of_ends (execCommaAligned_ends ..) rfl
  | trainingTimeout => exact .of_ends (execTrainingTimeout_ends ..) rfl
  | trainingRetry => exact .of_ends (execTrainingRetry_ends ..) rfl
  | linkWrite => exact execLinkWrite_later ..
  | update => exact .of_ends (execUpdate_ends ..) rfl
  | fenceRequest => exact .of_ends (execFenceRequest_ends ..) rfl
  | writeRsp => exact execWriteRsp_later ..
  | updateAck => exact .of_ends (execUpdateAck_ends ..) rfl
  | fenceRsp => exact .of_ends (execFenceRsp_ends ..) rfl
  | errorRsp => exact execErrorRsp_later ..
  | timeRecord => exact .of_ends (execTimeRecord_ends ..) rfl
  | disc => exact .of_ends (execDisc_ends ..) rfl
  | lampRecord => exact .of_ends (execLampRecord_ends ..) rfl
  | eventRecord => exact .of_ends (execEventRecord_ends ..) rfl
  | crt => exact .of_ends (execCrt_ends ..) rfl
  | ack => exact .of_ends (execAck_ends ..) rfl
  | cen => exact .of_ends (execCen_ends ..) rfl
  | censusSend => exact .of_ends (execCensusSend_ends ..) rfl
  | censusMissing => exact .of_ends (execCensusMissing_ends ..) rfl
  | markDelayRequest => exact .of_ends (execMarkDelayRequest_ends ..) rfl
  | markDelayResponse => exact .of_ends (execMarkDelayResponse_ends ..) rfl
  | markTimeReference => exact .of_ends (execMarkTimeReference_ends ..) rfl
  | delayExchange => exact .of_ends (execDelayExchange_ends ..) rfl
  | linkFrameSend => exact execLinkFrameSend_later ..
  | linkRetransmit => exact .of_ends (execLinkRetransmit_ends ..) rfl
  | lossOfSignal => exact .of_ends (execLossOfSignal_ends ..) rfl
  | codeViolation => exact .of_ends (execCodeViolation_ends ..) rfl
  | requestBudgetExpiry => exact execRequestBudgetExpiry_later ..
  | requestTimeout => exact .of_ends (execRequestTimeout_ends ..) rfl
  | laneDisagree => exact .of_ends (execLaneDisagree_ends ..) rfl
  | laneSelfReport => exact .of_ends (execLaneSelfReport_ends ..) rfl
  | iauMinority => exact .of_ends (execIauMinority_ends ..) rfl
  | resyncComplete => exact .of_ends (execResyncComplete_ends ..) rfl
  | voterFault => exact .of_ends (execVoterFault_ends ..) rfl
  | voterSelftest => exact .of_ends (execVoterSelftest_ends ..) rfl
  | stateSurvey => exact .of_ends (execStateSurvey_ends ..) rfl
  | watchdog => exact execWatchdog_later ..
  | handoverStart => exact .of_ends (execHandoverStart_ends ..) rfl
  | exchangeComplete => exact .of_ends (execExchangeComplete_ends ..) rfl
  | executiveResume => exact execExecutiveResume_later ..
  | handoverReverse => exact execHandoverReverse_later ..
  | probationEnd => exact .of_ends (execProbationEnd_ends ..) rfl
  | reloadStart => exact .of_ends (execReloadStart_ends ..) rfl
  | reloadComplete => exact execReloadComplete_later ..
  | reloadBodyFail => exact execReloadBodyFail_later ..
  | queueEntry => exact .of_ends (execQueueEntry_ends ..) rfl
  | memoryFrame => exact execMemoryFrame_later ..
  | pollFrame => exact .of_ends (execPollFrame_ends ..) rfl
  | entryComplete => exact .of_ends (execEntryComplete_ends ..) rfl
  | contBreak => exact .of_ends (execContBreak_ends ..) rfl
  | xipRead => exact execXipRead_later ..
  | selectModeChange => exact .of_ends (execSelectModeChange_ends ..) rfl
  | checkUnitStart => exact .of_ends (execCheckUnitStart_ends ..) rfl
  | data8 => exact .of_ends (execData8_ends ..) rfl
  | data16 => exact .of_ends (execData16_ends ..) rfl
  | data32 => exact .of_ends (execData32_ends ..) rfl
  | logFlush => exact .of_ends (execLogFlush_ends ..) rfl
  | scrub => exact execScrub_later ..
  | xinRestored => exact .of_ends (execXinRestored_ends ..) rfl
  | clockWaitTimeout => exact .of_ends (execClockWaitTimeout_ends ..) rfl
  | fieldDieFaultDetected => exact execFieldDieFaultDetected_later ..
  | retentionStoreLoss => exact .of_ends (execRetentionStoreLoss_ends ..) rfl
  | stagingFilled => exact .of_ends (execStagingFilled_ends ..) rfl
  | trimledTimer => exact .of_ends (execTrimledTimer_ends ..) rfl

/-- Settles O4: `exec_ends` gives the completion and the frame, `exec_later` the count of free values. -/
theorem everyCommandCompletes : Obligations.EveryCommandCompletes := by
  intro c s
  obtain ⟨t, ht, hm⟩ := exec_ends c s
  obtain ⟨u, hu, hl⟩ := exec_later c s
  obtain rfl : t = u := Host.Outcome.next.inj (ht.symm.trans hu)
  exact ⟨t, ht, hm.same.out .pending (by decide), hm.same.out .otp (by decide), hl⟩

end Sys2Proof.Machine
end

section
/-!
What a frame says of each part it does not name.
-/
namespace Sys2Proof.Machine.SameOutside

variable {ps : List Part} {s t : State}

/-- A part that the frame does not name. -/
theorem same (h : SameOutside ps s t) {p : Part} (hp : ps.contains p = false) : p.same s t := h.out p (by simpa using hp)

theorem pending (h : SameOutside ps s t) (hp : ps.contains .pending = false) : t.pending = s.pending := h.same hp
theorem free (h : SameOutside ps s t) (hp : ps.contains .free = false) : t.free = s.free := h.same hp
theorem tick (h : SameOutside ps s t) (hp : ps.contains .tick = false) : t.tick = s.tick := h.same hp
theorem straps (h : SameOutside ps s t) (hp : ps.contains .straps = false) : t.straps = s.straps := h.same hp
theorem clk (h : SameOutside ps s t) (hp : ps.contains .clk = false) : t.clk = s.clk := h.same hp
theorem m (h : SameOutside ps s t) (hp : ps.contains .m = false) : t.m = s.m := h.same hp
theorem boot (h : SameOutside ps s t) (hp : ps.contains .boot = false) : t.boot = s.boot := h.same hp
theorem triad (h : SameOutside ps s t) (hp : ps.contains .triad = false) : t.triad = s.triad := h.same hp
theorem recov (h : SameOutside ps s t) (hp : ps.contains .recov = false) : t.recov = s.recov := h.same hp
theorem bw (h : SameOutside ps s t) (hp : ps.contains .bw = false) : t.bw = s.bw := h.same hp
theorem fd (h : SameOutside ps s t) (hp : ps.contains .fd = false) : t.fd = s.fd := h.same hp
theorem ch (h : SameOutside ps s t) (hp : ps.contains .ch = false) : t.ch = s.ch := h.same hp
theorem ev (h : SameOutside ps s t) (hp : ps.contains .ev = false) : t.ev = s.ev := h.same hp
theorem mbx (h : SameOutside ps s t) (hp : ps.contains .mbx = false) : t.mbx = s.mbx := h.same hp
theorem img (h : SameOutside ps s t) (hp : ps.contains .img = false) : t.img = s.img := h.same hp
theorem held (h : SameOutside ps s t) (hp : ps.contains .held = false) : t.held = s.held := h.same hp
theorem port (h : SameOutside ps s t) (hp : ps.contains .port = false) : t.port = s.port := h.same hp
theorem flash (h : SameOutside ps s t) (hp : ps.contains .flash = false) : t.flash = s.flash := h.same hp
theorem mirror (h : SameOutside ps s t) (hp : ps.contains .mirror = false) : t.mirror = s.mirror := h.same hp
theorem otp (h : SameOutside ps s t) (hp : ps.contains .otp = false) : t.otp = s.otp := h.same hp
theorem conv (h : SameOutside ps s t) (hp : ps.contains .conv = false) : t.conv = s.conv := h.same hp
theorem loop (h : SameOutside ps s t) (hp : ps.contains .loop = false) : t.loop = s.loop := h.same hp
theorem trim (h : SameOutside ps s t) (hp : ps.contains .trim = false) : t.trim = s.trim := h.same hp
theorem hart (h : SameOutside ps s t) (hp : ps.contains .hart = false) : t.hart = s.hart := h.same hp
theorem gov (h : SameOutside ps s t) (hp : ps.contains .gov = false) : t.gov = s.gov := h.same hp
theorem wheel (h : SameOutside ps s t) (hp : ps.contains .wheel = false) : t.wheel = s.wheel := h.same hp
theorem time (h : SameOutside ps s t) (hp : ps.contains .time = false) : t.time = s.time := h.same hp
theorem rul (h : SameOutside ps s t) (hp : ps.contains .rul = false) : t.rul = s.rul := h.same hp
theorem host (h : SameOutside ps s t) (hp : ps.contains .host = false) : t.host = s.host := h.same hp
theorem mem (h : SameOutside ps s t) (hp : ps.contains .mem = false) : t.mem = s.mem := h.same hp
theorem chk (h : SameOutside ps s t) (hp : ps.contains .chk = false) : t.chk = s.chk := h.same hp
theorem pins (h : SameOutside ps s t) (hp : ps.contains .pins = false) : t.pins = s.pins := h.same hp
theorem enrol (h : SameOutside ps s t) (hp : ps.contains .enrol = false) : t.enrol = s.enrol := h.same hp

/-! ## One part written -/

theorem set_free (s : State) (x : Nat) : SameOutside [.free] s { s with free := x } :=
  ⟨fun p hp => by cases p; (case free => exact absurd (List.mem_singleton_self _) hp); all_goals rfl⟩

theorem set_tick (s : State) (x : W64) : SameOutside [.tick] s { s with tick := x } :=
  ⟨fun p hp => by cases p; (case tick => exact absurd (List.mem_singleton_self _) hp); all_goals rfl⟩

theorem set_clk (s : State) (x : ClockState) : SameOutside [.clk] s { s with clk := x } :=
  ⟨fun p hp => by cases p; (case clk => exact absurd (List.mem_singleton_self _) hp); all_goals rfl⟩

theorem set_m (s : State) (x : ModeState) : SameOutside [.m] s { s with m := x } :=
  ⟨fun p hp => by cases p; (case m => exact absurd (List.mem_singleton_self _) hp); all_goals rfl⟩

theorem set_boot (s : State) (x : BootState) : SameOutside [.boot] s { s with boot := x } :=
  ⟨fun p hp => by cases p; (case boot => exact absurd (List.mem_singleton_self _) hp); all_goals rfl⟩

theorem set_triad (s : State) (x : TriadState) : SameOutside [.triad] s { s with triad := x } :=
  ⟨fun p hp => by cases p; (case triad => exact absurd (List.mem_singleton_self _) hp); all_goals rfl⟩

theorem set_recov (s : State) (x : RecovState) : SameOutside [.recov] s { s with recov := x } :=
  ⟨fun p hp => by cases p; (case recov => exact absurd (List.mem_singleton_self _) hp); all_goals rfl⟩

theorem set_bw (s : State) (x : Breakwater) : SameOutside [.bw] s { s with bw := x } :=
  ⟨fun p hp => by cases p; (case bw => exact absurd (List.mem_singleton_self _) hp); all_goals rfl⟩

theorem set_fd (s : State) (x : FieldDie) : SameOutside [.fd] s { s with fd := x } :=
  ⟨fun p hp => by cases p; (case fd => exact absurd (List.mem_singleton_self _) hp); all_goals rfl⟩

theorem set_ch (s : State) (x : Vector Channel 16) : SameOutside [.ch] s { s with ch := x } :=
  ⟨fun p hp => by cases p; (case ch => exact absurd (List.mem_singleton_self _) hp); all_goals rfl⟩

theorem set_ev (s : State) (x : EventRouter) : SameOutside [.ev] s { s with ev := x } :=
  ⟨fun p hp => by cases p; (case ev => exact absurd (List.mem_singleton_self _) hp); all_goals rfl⟩

theorem set_mbx (s : State) (x : Mailbox) : SameOutside [.mbx] s { s with mbx := x } :=
  ⟨fun p hp => by cases p; (case mbx => exact absurd (List.mem_singleton_self _) hp); all_goals rfl⟩

theorem set_img (s : State) (x : ImageState) : SameOutside [.img] s { s with img := x } :=
  ⟨fun p hp => by cases p; (case img => exact absurd (List.mem_singleton_self _) hp); all_goals rfl⟩

theorem set_held (s : State) (x : List HeldFrame) : SameOutside [.held] s { s with held := x } :=
  ⟨fun p hp => by cases p; (case held => exact absurd (List.mem_singleton_self _) hp); all_goals rfl⟩

theorem set_port (s : State) (x : Vector Port 4) : SameOutside [.port] s { s with port := x } :=
  ⟨fun p hp => by cases p; (case port => exact absurd (List.mem_singleton_self _) hp); all_goals rfl⟩

theorem set_flash (s : State) (x : List Host.Cell) : SameOutside [.flash] s { s with flash := x } :=
  ⟨fun p hp => by cases p; (case flash => exact absurd (List.mem_singleton_self _) hp); all_goals rfl⟩

theorem set_mirror (s : State) (x : List Host.Cell) : SameOutside [.mirror] s { s with mirror := x } :=
  ⟨fun p hp => by cases p; (case mirror => exact absurd (List.mem_singleton_self _) hp); all_goals rfl⟩

theorem set_conv (s : State) (x : ConvState) : SameOutside [.conv] s { s with conv := x } :=
  ⟨fun p hp => by cases p; (case conv => exact absurd (List.mem_singleton_self _) hp); all_goals rfl⟩

theorem set_loop (s : State) (x : Vector ChanLoop 16) : SameOutside [.loop] s { s with loop := x } :=
  ⟨fun p hp => by cases p; (case loop => exact absurd (List.mem_singleton_self _) hp); all_goals rfl⟩

theorem set_trim (s : State) (x : TrimState) : SameOutside [.trim] s { s with trim := x } :=
  ⟨fun p hp => by cases p; (case trim => exact absurd (List.mem_singleton_self _) hp); all_goals rfl⟩

theorem set_hart (s : State) (x : HartState) : SameOutside [.hart] s { s with hart := x } :=
  ⟨fun p hp => by cases p; (case hart => exact absurd (List.mem_singleton_self _) hp); all_goals rfl⟩

theorem set_gov (s : State) (x : GovState) : SameOutside [.gov] s { s with gov := x } :=
  ⟨fun p hp => by cases p; (case gov => exact absurd (List.mem_singleton_self _) hp); all_goals rfl⟩

theorem set_wheel (s : State) (x : Vector Wheel 4) : SameOutside [.wheel] s { s with wheel := x } :=
  ⟨fun p hp => by cases p; (case wheel => exact absurd (List.mem_singleton_self _) hp); all_goals rfl⟩

theorem set_time (s : State) (x : TimeState) : SameOutside [.time] s { s with time := x } :=
  ⟨fun p hp => by cases p; (case time => exact absurd (List.mem_singleton_self _) hp); all_goals rfl⟩

theorem set_rul (s : State) (x : RuleState) : SameOutside [.rul] s { s with rul := x } :=
  ⟨fun p hp => by cases p; (case rul => exact absurd (List.mem_singleton_self _) hp); all_goals rfl⟩

theorem set_host (s : State) (x : HostPort) : SameOutside [.host] s { s with host := x } :=
  ⟨fun p hp => by cases p; (case host => exact absurd (List.mem_singleton_self _) hp); all_goals rfl⟩

theorem set_mem (s : State) (x : MemPort) : SameOutside [.mem] s { s with mem := x } :=
  ⟨fun p hp => by cases p; (case mem => exact absurd (List.mem_singleton_self _) hp); all_goals rfl⟩

theorem set_chk (s : State) (x : CheckUnit) : SameOutside [.chk] s { s with chk := x } :=
  ⟨fun p hp => by cases p; (case chk => exact absurd (List.mem_singleton_self _) hp); all_goals rfl⟩

theorem set_pins (s : State) (x : Pins) : SameOutside [.pins] s { s with pins := x } :=
  ⟨fun p hp => by cases p; (case pins => exact absurd (List.mem_singleton_self _) hp); all_goals rfl⟩

theorem set_enrol (s : State) (x : Vector (Option Enrolment) 16) : SameOutside [.enrol] s { s with enrol := x } :=
  ⟨fun p hp => by cases p; (case enrol => exact absurd (List.mem_singleton_self _) hp); all_goals rfl⟩

end Sys2Proof.Machine.SameOutside
end

section
/-!
Occurrences of event sources (18 R480–R484): what an occurrence does to its source, to the queue and to the log.
-/
namespace Sys2Proof.Machine

@[simp] theorem logPut_src (e : EventRouter) (t f : Byte) (r : W16) (b : List W32) (k : W32) : (logPut e t f r b k).src = e.src := by
  unfold logPut
  split <;> rfl

@[simp] theorem logPut_ring (e : EventRouter) (t f : Byte) (r : W16) (b : List W32) (k : W32) : (logPut e t f r b k).ring = e.ring := by
  unfold logPut
  split <;> rfl

@[simp] theorem logPut_head (e : EventRouter) (t f : Byte) (r : W16) (b : List W32) (k : W32) : (logPut e t f r b k).head = e.head := by
  unfold logPut
  split <;> rfl

@[simp] theorem logPut_ovf (e : EventRouter) (t f : Byte) (r : W16) (b : List W32) (k : W32) : (logPut e t f r b k).ovf = e.ovf := by
  unfold logPut
  split <;> rfl

@[simp] theorem logPut_lost (e : EventRouter) (t f : Byte) (r : W16) (b : List W32) (k : W32) : (logPut e t f r b k).lost = e.lost := by
  unfold logPut
  split <;> rfl

/-- A link record changes no field of the event router but the count of those dropped. -/
theorem linkRecord_ev (s : State) (q : QueueEntry) (src : SrcIx) : ∃ d, (linkRecord s q src).ev = { s.ev with linkDrop := d } := by
  unfold linkRecord
  split
  · split
    · exact ⟨_, rfl⟩
    · exact ⟨_, rfl⟩
  · exact ⟨_, rfl⟩

/-- A queue entry put where there is room. -/
theorem enqueue_of_room {s : State} (h : s.ev.count < 255) (q : QueueEntry) : enqueue s q = { s with ev := ringPut s.ev q } := if_pos h

/-- An overflow of the queue puts its own entry and counts its own occurrence. -/
theorem raiseOverflow_ev (s : State) :
    (raiseOverflow s).ev.count = s.ev.count + 1 ∧ (raiseOverflow s).ev.ovf = s.ev.ovf ∧ (raiseOverflow s).ev.lost = s.ev.lost ∧
    ∀ x : SrcIx, x ≠ 107 → (raiseOverflow s).ev.src[x] = s.ev.src[x] := by
  unfold raiseOverflow
  dsimp only
  obtain ⟨d, hd⟩ := linkRecord_ev _ _ 107
  rw [hd]
  refine ⟨by simp [ringPut, logPut_count], by simp [ringPut], by simp [ringPut], fun x hx => ?_⟩
  simp only [ringPut, logPut_src, State.modSrc_ev]
  exact modAt_of_ne _ _ hx

/-- What queueing an entry does to the event router: it is put, or lost and the overflow latched. -/
theorem enqueue_ev (s : State) (q : QueueEntry) :
    (∀ x : SrcIx, x ≠ 107 → (enqueue s q).ev.src[x] = s.ev.src[x]) ∧
    (s.ev.count < 255 → (enqueue s q).ev = ringPut s.ev q) ∧
    (s.ev.count = 255 → (enqueue s q).ev.count = 256 ∧ (enqueue s q).ev.ovf = true ∧ (enqueue s q).ev.lost = s.ev.lost + 1) ∧
    (256 ≤ s.ev.count → (enqueue s q).ev.count = s.ev.count ∧ (enqueue s q).ev.ovf = true ∧ (enqueue s q).ev.lost = s.ev.lost + 1) := by
  by_cases h : s.ev.count < 255
  · rw [enqueue_of_room h]
    exact ⟨fun _ _ => rfl, fun _ => rfl, fun e => by omega, fun e => by omega⟩
  · unfold enqueue
    rw [if_neg h]
    dsimp only
    split
    next e =>
      obtain ⟨hc, ho, hl, hs⟩ := raiseOverflow_ev { s with ev := { s.ev with lost := s.ev.lost + 1, ovf := true } }
      exact ⟨hs, fun k => absurd k h, fun _ => ⟨hc.trans (by rw [e]), ho, hl⟩, fun k => by omega⟩
    next e => exact ⟨fun _ _ => rfl, fun k => absurd k h, fun k => absurd k e, fun _ => ⟨rfl, rfl, rfl⟩⟩

/-- An occurrence while the executive runs. -/
theorem raise_running {s : State} (h : s.execRuns = true) (src : SrcIx) (detail : W32) : raise s src detail = occur s src detail s.tick := if_pos h

theorem occur_disabled {s : State} {src : SrcIx} (h : s.ev.src[src].enable = false) (detail : W32) (t : W64) : occur s src detail t = s := by
  unfold occur
  simp only [h]
  rfl

/-- The state of a source once an occurrence has been counted and logged, before it is queued. -/
def counted (s : State) (src : SrcIx) (q : QueueEntry) (t : W64) : State :=
  let s1 := s.modSrc src fun x => { x with latched := true, count := satInc s.ev.src[src].count }
  { s1 with ev := logPut s1.ev 0x01 0 s.recov.resets (entryWords q) (field t 32 32) }

/-- The queue entry of an occurrence. -/
def occurEntry (s : State) (src : SrcIx) (detail : W32) (t : W64) : QueueEntry := mkEntry s src false (satInc s.ev.src[src].count) t detail

theorem occur_urgent {s : State} {src : SrcIx} (h : s.ev.src[src].enable = true) (hu : s.ev.src[src].urgent = true) (detail : W32) (t : W64) :
    occur s src detail t = linkRecord (enqueue (counted s src (occurEntry s src detail t) t) (occurEntry s src detail t))
      (occurEntry s src detail t) src := by
  unfold occur
  simp only [h, hu]
  rfl

theorem occur_normal {s : State} {src : SrcIx} (h : s.ev.src[src].enable = true) (hu : s.ev.src[src].urgent = false) (detail : W32) (t : W64) :
    occur s src detail t = (counted s src (occurEntry s src detail t) t).modSrc src fun y =>
      { y with waiting := some ⟨satInc s.ev.src[src].count, t, detail, s.ev.src[src].waiting.isSome⟩ } := by
  unfold occur
  simp only [h, hu]
  rfl

theorem counted_src (s : State) (src : SrcIx) (q : QueueEntry) (t : W64) (x : SrcIx) :
    (counted s src q t).ev.src[x] =
      if x = src then { s.ev.src[src] with latched := true, count := satInc s.ev.src[src].count } else s.ev.src[x] := by
  unfold counted
  simp only [logPut_src, State.modSrc_ev, modAt_get]

@[simp] theorem counted_count (s : State) (src : SrcIx) (q : QueueEntry) (t : W64) : (counted s src q t).ev.count = s.ev.count := logPut_count ..
@[simp] theorem counted_ring (s : State) (src : SrcIx) (q : QueueEntry) (t : W64) : (counted s src q t).ev.ring = s.ev.ring := logPut_ring ..
@[simp] theorem counted_head (s : State) (src : SrcIx) (q : QueueEntry) (t : W64) : (counted s src q t).ev.head = s.ev.head := logPut_head ..
@[simp] theorem counted_ovf (s : State) (src : SrcIx) (q : QueueEntry) (t : W64) : (counted s src q t).ev.ovf = s.ev.ovf := logPut_ovf ..
@[simp] theorem counted_lost (s : State) (src : SrcIx) (q : QueueEntry) (t : W64) : (counted s src q t).ev.lost = s.ev.lost := logPut_lost ..

/-- An occurrence of an enabled source: its latch and count, and no other source but that of the overflow. -/
theorem occur_source {s : State} {src : SrcIx} (h : s.ev.src[src].enable = true) (hs : src ≠ 107) (detail : W32) (t : W64) :
    (occur s src detail t).ev.src[src].latched = true ∧ (occur s src detail t).ev.src[src].count = satInc s.ev.src[src].count ∧
    ∀ x : SrcIx, x ≠ src → x ≠ 107 → (occur s src detail t).ev.src[x] = s.ev.src[x] := by
  cases hu : s.ev.src[src].urgent with
  | true =>
    rw [occur_urgent h hu]
    obtain ⟨d, hd⟩ := linkRecord_ev (enqueue (counted s src (occurEntry s src detail t) t) (occurEntry s src detail t))
      (occurEntry s src detail t) src
    have hq := (enqueue_ev (counted s src (occurEntry s src detail t) t) (occurEntry s src detail t)).1
    rw [hd]
    dsimp only
    simp only [hq src hs, counted_src, if_true]
    refine ⟨trivial, trivial, fun x hx h7 => ?_⟩
    rw [hq x h7, counted_src, if_neg hx]
  | false =>
    rw [occur_normal h hu]
    simp only [State.modSrc_ev, modAt_get, counted_src, if_true]
    refine ⟨trivial, trivial, fun x hx _ => ?_⟩
    simp only [if_neg hx]

/-- Settles O8: `occur_urgent` and `occur_normal` say what an occurrence does, `enqueue_ev` what becomes of an urgent one. -/
theorem occurrencesAreCountedAndQueued : Obligations.OccurrencesAreCountedAndQueued := by
  intro s src detail hrun hs
  rw [raise_running hrun]
  refine ⟨fun h => occur_disabled h .., fun h => ?_⟩
  obtain ⟨hlat, hcnt, hoth⟩ := occur_source h hs detail s.tick
  refine ⟨hlat, hcnt, hoth, fun hu => ?_, fun hu => ?_, (occur_moves ..).same⟩
  · rw [occur_normal h hu]
    refine ⟨⟨⟨satInc s.ev.src[src].count, s.tick, detail, s.ev.src[src].waiting.isSome⟩, ?_, rfl, rfl, rfl⟩, counted_count ..,
      counted_ring .., rfl⟩
    simp only [State.modSrc_ev, modAt_get, if_true]
  · rw [occur_urgent h hu]
    obtain ⟨d, hd⟩ := linkRecord_ev (enqueue (counted s src (occurEntry s src detail s.tick) s.tick) (occurEntry s src detail s.tick))
      (occurEntry s src detail s.tick) src
    obtain ⟨-, hroom, hfull, hover⟩ := enqueue_ev (counted s src (occurEntry s src detail s.tick) s.tick) (occurEntry s src detail s.tick)
    rw [hd]
    simp only [counted_count, counted_lost] at hroom hfull hover ⊢
    refine ⟨fun hc => ?_, hfull, hover⟩
    rw [hroom hc]
    simp only [ringPut, counted_count, counted_ring, counted_head, counted_ovf, setAt_self, true_and]
    exact ⟨rfl, rfl⟩

end Sys2Proof.Machine
end

section
namespace Sys2Proof.Machine

/-! ## What a field command does where its condition holds -/

theorem onField_pos {s : State} {n : Chan} {p : FdChan → Bool} (hon : s.fdOn = true) (hp : p (s.fdc n) = true) (f : State → State) :
    onField s n p f = f s := if_pos (by rw [hon, hp]; rfl)

/-- A command of the field die acts where its condition holds of the channel's record. -/
theorem completes_onField {c : Instr} {s : State} {n : Chan} {p : FdChan → Bool} {f : State → State} {P : State → Prop}
    (e : exec c s = .next (onField s n p f)) (hon : s.fdOn = true) (hp : p (s.fdc n) = true) (h : P (f s)) : Completes c s P :=
  ⟨_, e, by rwa [onField_pos hon hp]⟩

/-- A condition that a detector declares is stored, and the channel's record and the reports alone change. -/
theorem condBit_stored {α : Type} {s : State} {n : Chan} {old b : Bool} {f : FdChan → FdChan} {r : Report} {g : FdChan → α} {v : α}
    (hcfg : ∀ c, (f c).cfg = c.cfg) (hold : old = b → f (s.fdc n) = s.fdc n) (hv : ∀ c, g (f c) = v) :
    g ((condBit s n old b f r).fdc n) = v ∧ FieldFrame n s (condBit s n old b f r) :=
  ⟨by rw [condBit_get s n old b f r hold, hv], (condBit_step s n old b f r hcfg).frame⟩

/-- A record that already shows the value is unchanged by storing it. -/
theorem diClass_stored (s : State) (n : Chan) (k : DiClass) :
    ((if (s.fdc n).diClass = k then s else report (s.modFd n fun c => { c with diClass := k }) (.diClass n k)).fdc n).diClass = k ∧
    FieldFrame n s (if (s.fdc n).diClass = k then s else report (s.modFd n fun c => { c with diClass := k }) (.diClass n k)) := by
  split
  next h => exact ⟨h, (FieldStep.refl n s).frame⟩
  next h => exact ⟨by simp, (FieldStep.trans (FieldStep.modFd s n _ (by intro _; rfl)) (FieldStep.report _ n _)).frame⟩

/-- The output of a channel of a loop kind that nothing lets on is off once it is driven. -/
theorem drive_loop_off {s : State} {n : Chan} (h1 : fdKind (s.fdc n) ≠ kindDO) (h2 : fdKind (s.fdc n) ≠ kindOff)
    (h3 : fdKind (s.fdc n) ≠ kindPair) (h4 : loopOut (s.fdc n) = false) : ((drive s n).fdc n).on = false := by
  have hu : s.unit n = n := if_neg h3
  unfold drive
  dsimp only
  rw [hu, if_neg h1, if_neg (by simp [h2, h3]), h4, Bool.false_and]
  split
  · assumption
  · simp

theorem loopOut_of_blockOpen {c : FdChan} (h : c.blockOpen = true) : loopOut c = false := by
  simp [loopOut, h]

/-- The kinds whose inputs have a wiring threshold. -/
theorem kind_of_hasThreshold {c : FdChan} {rev : Bool} (h : hasThreshold c rev = true) :
    fdKind c ≠ kindDO ∧ fdKind c ≠ kindOff ∧ fdKind c ≠ kindPair := by
  unfold hasThreshold isAO at h
  refine ⟨fun e => ?_, fun e => ?_, fun e => ?_⟩ <;> simp [e, kindDO, kindOff, kindPair, kindAII, kindAIV, kindDI, kindAOSrc, kindAOSnk] at h

theorem fdc_report_modFd (s : State) (n : Chan) (f : FdChan → FdChan) (r : Report) : (report (s.modFd n f) r).fdc n = f (s.fdc n) := by
  rw [report_fdc, fdc_modFd_self]

/-- A change of the channel's record with its reports, after which its output is driven. -/
def driveReports (s : State) (n : Chan) (f : FdChan → FdChan) (rs : List Report) : State :=
  drive (rs.foldl report (s.modFd n f)) n

theorem fdc_reports (rs : List Report) (s : State) (m : Chan) : (rs.foldl report s).fdc m = s.fdc m := by
  induction rs generalizing s with
  | nil => rfl
  | cons r rs ih => rw [List.foldl_cons, ih, report_fdc]

theorem reports_step (n : Chan) (rs : List Report) (s : State) : FieldStep n s (rs.foldl report s) := by
  induction rs generalizing s with
  | nil => exact FieldStep.refl n s
  | cons r rs ih => exact (FieldStep.report s n r).trans (ih _)

theorem driveReports_frame (s : State) (n : Chan) (f : FdChan → FdChan) (rs : List Report) (hf : ∀ c, (f c).cfg = c.cfg) :
    FieldFrame n s (driveReports s n f rs) :=
  (((FieldStep.modFd s n f hf).trans (reports_step n rs _)).trans (drive_step _ n)).frame

/-- What driving the output leaves of a part of the changed record that driving does not touch. -/
theorem driveReports_get {α : Type} (s : State) (n : Chan) (f : FdChan → FdChan) (rs : List Report) (g : FdChan → α)
    (hg : ∀ c b1 b2 b3 b4 b5 b6 b7 b8 b9 b10 b11,
      g { c with on := b1, flood := b2, floodLimited := b3, onHeld := b4, win := b5, dither := b6, phSink := b7, phDriven := b8,
                 phDet := b9, lastPulse := b10, offTick := b11 } = g c) :
    g ((driveReports s n f rs).fdc n) = g (f (s.fdc n)) := by
  rw [driveReports, (drive_rec _ n n).get g (hg _), fdc_reports, fdc_modFd_self]

/-- A record whose blocking switch has just opened leaves its output off. -/
theorem driveReports_off {s : State} {n : Chan} {f : FdChan → FdChan} (rs : List Report) (hf : ∀ c, (f c).cfg = c.cfg)
    (hb : ∀ c, (f c).blockOpen = true) (h1 : fdKind (s.fdc n) ≠ kindDO) (h2 : fdKind (s.fdc n) ≠ kindOff) (h3 : fdKind (s.fdc n) ≠ kindPair) :
    ((driveReports s n f rs).fdc n).on = false := by
  have hk : fdKind ((rs.foldl report (s.modFd n f)).fdc n) = fdKind (s.fdc n) := by
    rw [fdc_reports, fdc_modFd_self]
    exact congrArg cfgKind (hf _)
  refine drive_loop_off (hk ▸ h1) (hk ▸ h2) (hk ▸ h3) (loopOut_of_blockOpen ?_)
  rw [fdc_reports, fdc_modFd_self]
  exact hb _

/-! ## Settling -/

/-- The conditions that a detector declares. -/
theorem detected_conditions {s : State} {n : Chan} (hon : s.fdOn = true) :
    (∀ level, fdKind (s.fdc n) = kindDI → Completes (.diStateChange n level) s fun t => (t.fdc n).diLevel = level ∧ FieldFrame n s t) ∧
    (∀ above, cfgFsnEn (s.fdc n).cfg = true → Completes (.senseDiff n above) s fun t => (t.fdc n).senseDiff = above ∧ FieldFrame n s t) ∧
    (∀ present, (present = false ∨ s.fdMaster n = true ∧ cfgImbEn (s.fdc n).cfg = true ∧ (s.fdc n).on = true) →
      Completes (.pairImbal n present) s fun t => (t.fdc n).imbal = present ∧ FieldFrame n s t) ∧
    (∀ entered, fdKind (s.fdc n) = kindAII → (s.fdc n).shortOpen = false →
      Completes (.pathLimit n entered) s fun t => (t.fdc n).inLimitPath = entered ∧ FieldFrame n s t) ∧
    (∀ present, (present = false ∨ fdKind (s.fdc n) = kindAII ∧ cfgRange (s.fdc n).cfg = 0 ∧ aiOpenEn (s.fdc n).cfg = true) →
      Completes (.openLoop n present) s fun t => (t.fdc n).openLoop = present ∧ FieldFrame n s t) ∧
    (∀ present, isSwitch (s.fdc n) = true → (present = false ∨ ((s.fdc n).on = false ∧ (s.fdc n).clampEvent = false)) →
      Completes (.doReverse n present) s fun t => (t.fdc n).doReverse = present ∧ FieldFrame n s t) := by
  refine ⟨fun level hk => ?_, fun above hc => ?_, fun present hp => ?_, fun entered hk hs => ?_, fun present hp => ?_, fun present hs hp => ?_⟩
  · exact completes_onField rfl hon (by simp [hk]) (condBit_stored (fun _ => rfl) (fun h => h ▸ rfl) fun _ => rfl)
  · exact completes_onField rfl hon hc (condBit_stored (fun _ => rfl) (fun h => h ▸ rfl) fun _ => rfl)
  · refine completes_onField rfl hon ?_ (condBit_stored (fun _ => rfl) (fun h => h ▸ rfl) fun _ => rfl)
    rcases hp with rfl | ⟨h1, h2, h3⟩
    · rfl
    · simp [h1, h2, h3]
  · exact completes_onField rfl hon (by simp [hk, hs]) (condBit_stored (fun _ => rfl) (fun h => h ▸ rfl) fun _ => rfl)
  · refine completes_onField rfl hon ?_ (condBit_stored (fun _ => rfl) (fun h => h ▸ rfl) fun _ => rfl)
    rcases hp with rfl | ⟨h1, h2, h3⟩
    · rfl
    · simp [h1, h2, h3]
  · refine completes_onField rfl hon ?_ (condBit_stored (fun _ => rfl) (fun h => h ▸ rfl) fun _ => rfl)
    rcases hp with rfl | ⟨h1, h2⟩
    · simp [hs]
    · simp [hs, h1, h2]

theorem completes_diClassChange {s : State} {n : Chan} (hon : s.fdOn = true) (k : DiClass) (hk : fdKind (s.fdc n) = kindDI) (hn : k ≠ .notDi) :
    Completes (.diClassChange n k) s fun t =>
      (t.fdc n).diClass = (if k = .wireBreak ∧ diWbEn (s.fdc n).cfg = false then .off else k) ∧ FieldFrame n s t := by
  refine completes_onField rfl hon (by simp [hk, hn]) ?_
  have e : (if (decide (k = DiClass.wireBreak) && !diWbEn (s.fdc n).cfg) = true then DiClass.off else k) =
      if k = .wireBreak ∧ diWbEn (s.fdc n).cfg = false then .off else k := by simp
  dsimp only
  rw [e]
  exact diClass_stored s n _

theorem completes_shortSwitchOff {s : State} {n : Chan} (hon : s.fdOn = true) (hk : fdKind (s.fdc n) = kindAII)
    (ho : aiShortOff (s.fdc n).cfg = true) (hl : (s.fdc n).inLimitPath = true) (hs : (s.fdc n).shortOpen = false) :
    Completes (.shortSwitchOff n) s fun t =>
      (t.fdc n).shortOpen = true ∧ (t.fdc n).blockOpen = true ∧ (t.fdc n).on = false ∧ FieldFrame n s t := by
  have e : exec (.shortSwitchOff n) s = .next (driveReports s n (fun c => { c with shortOpen := true, blockOpen := true }) [.block n true]) := 
    congrArg Host.Outcome.next (onField_pos hon (by simp [hk, ho, hl, hs]) _)
  exact ⟨_, e, driveReports_get _ _ _ _ FdChan.shortOpen (by intros; rfl), driveReports_get _ _ _ _ FdChan.blockOpen (by intros; rfl),
    driveReports_off _ (fun _ => rfl) (fun _ => rfl) (by rw [hk]; decide) (by rw [hk]; decide) (by rw [hk]; decide),
    driveReports_frame _ _ _ _ fun _ => rfl⟩

theorem completes_shortProbe {s : State} {n : Chan} (hon : s.fdOn = true) (hk : fdKind (s.fdc n) = kindAII) (hs : (s.fdc n).shortOpen = true) :
    Completes (.shortProbe n false) s fun t =>
      (t.fdc n).shortOpen = false ∧ (t.fdc n).inLimitPath = false ∧
      ((t.fdc n).blockOpen = true ↔ (s.fdc n).crossed.isSome = true ∨ (s.fdc n).miswire = true ∨ (s.fdc n).reverse = true ∨
        (s.fdc n).isolated = true ∨ (s.fdc n).retired = true) ∧ FieldFrame n s t := by
  have e : exec (.shortProbe n false) s = .next (driveReports s n (fun c => reclose { c with shortOpen := false, inLimitPath := false })
      [.short n false, .block n ((s.modFd n fun c => reclose { c with shortOpen := false, inLimitPath := false }).fdc n).blockOpen]) :=
    congrArg Host.Outcome.next (onField_pos hon (by simp [hs]) _)
  refine ⟨_, e, driveReports_get _ _ _ _ FdChan.shortOpen (by intros; rfl), driveReports_get _ _ _ _ FdChan.inLimitPath (by intros; rfl), ?_,
    driveReports_frame _ _ _ _ fun _ => rfl⟩
  rw [driveReports_get s n _ _ FdChan.blockOpen (by intros; rfl)]
  have hb : hasBlocking (fdKind { s.fdc n with shortOpen := false, inLimitPath := false }) = true := by
    rw [show fdKind { s.fdc n with shortOpen := false, inLimitPath := false } = fdKind (s.fdc n) from rfl, hk]; rfl
  simp [reclose, hb, or_assoc]

theorem completes_wiringCrossing {s : State} {n : Chan} (hon : s.fdOn = true) {rev : Bool} (ht : hasThreshold (s.fdc n) rev = true)
    (hc : (s.fdc n).crossed = none) (hd : (if rev then (s.fdc n).reverse else (s.fdc n).miswire) = false) :
    Completes (.wiringCrossing n rev) s fun t =>
      (t.fdc n).crossed = some rev ∧ (t.fdc n).blockOpen = true ∧ (t.fdc n).on = false ∧ FieldFrame n s t := by
  obtain ⟨h1, h2, h3⟩ := kind_of_hasThreshold ht
  have e : exec (.wiringCrossing n rev) s = .next (driveReports s n (fun c => { c with crossed := some rev, crossTick := s.fd.tick, blockOpen := true }) [.block n true]) :=
    congrArg Host.Outcome.next (onField_pos hon (by simp [ht, hc, hd]) _)
  exact ⟨_, e, driveReports_get _ _ _ _ FdChan.crossed (by intros; rfl), driveReports_get _ _ _ _ FdChan.blockOpen (by intros; rfl),
    driveReports_off _ (fun _ => rfl) (fun _ => rfl) h1 h2 h3, driveReports_frame _ _ _ _ fun _ => rfl⟩

/-- The declarations within the time are one more than the earlier ones within it. -/
theorem three_le_declared (k : BitVec 64) (l : List (BitVec 64)) :
    3 ≤ ((k :: l).filter fun t => decide ((k - t).toNat < secTicks 60)).length ↔
      2 ≤ (l.filter fun t => decide ((k - t).toNat < 600000000)).length := by
  have hk : (k - k).toNat < secTicks 60 := by rw [BitVec.sub_self]; decide
  rw [List.filter_cons_of_pos (by simpa using hk), List.length_cons, Nat.succ_le_succ_iff]
  rfl

theorem completes_wiringDeclare {s : State} {n : Chan} (hon : s.fdOn = true) {rev : Bool} (hc : (s.fdc n).crossed = some rev) :
    Completes (.wiringDeclare n) s fun t =>
      (t.fdc n).crossed = none ∧ (t.fdc n).miswire = ((s.fdc n).miswire || !rev) ∧ (t.fdc n).reverse = ((s.fdc n).reverse || rev) ∧
      ((t.fdc n).isolated = true ↔ (s.fdc n).isolated = true ∨
        2 ≤ ((s.fdc n).declTicks.filter fun k => decide ((s.fd.tick - k).toNat < 600000000)).length) ∧ FieldFrame n s t := by
  refine completes_onField rfl hon (by simp [hc]) ?_
  rw [← three_le_declared]
  refine ⟨?_, ?_, ?_, ?_, (FieldStep.trans (FieldStep.modFd s n _ (by intro _; rfl)) (FieldStep.report _ n _)).frame⟩
  · rw [fdc_report_modFd]
  · rw [fdc_report_modFd, hc]; rfl
  · rw [fdc_report_modFd, hc]; rfl
  · rw [fdc_report_modFd, Bool.or_eq_true, decide_eq_true_iff]

theorem completes_wiringTransientEnd {s : State} {n : Chan} (hon : s.fdOn = true) (hc : (s.fdc n).crossed.isSome = true) :
    Completes (.wiringTransientEnd n) s fun t => (t.fdc n).crossed = none ∧ FieldFrame n s t := by
  have e : exec (.wiringTransientEnd n) s = .next (driveReports s n
      (fun c => reclose { c with crossed := none, lastTransient := some (c.crossTick, s.fd.tick) })
      [.transient n, .block n ((s.modFd n fun c => reclose { c with crossed := none, lastTransient := some (c.crossTick, s.fd.tick) }).fdc n).blockOpen]) :=
    congrArg Host.Outcome.next (onField_pos hon hc _)
  exact ⟨_, e, driveReports_get _ _ _ _ FdChan.crossed (by intros; rfl), driveReports_frame _ _ _ _ fun _ => rfl⟩

theorem completes_wiringClear {s : State} {n : Chan} (hon : s.fdOn = true) (hc : (s.fdc n).miswire = true ∨ (s.fdc n).reverse = true) :
    Completes (.wiringClear n) s fun t =>
      (t.fdc n).miswire = false ∧ (t.fdc n).reverse = false ∧ (t.fdc n).isolated = (s.fdc n).isolated ∧ FieldFrame n s t := by
  have e : ∃ rs, exec (.wiringClear n) s = .next (driveReports s n (fun c => reclose { c with miswire := false, reverse := false }) rs) := by
    refine ⟨(if (s.fdc n).miswire then [.wiring n false false (s.fdc n).isolated] else []) ++
      (if (s.fdc n).reverse then [.wiring n true false (s.fdc n).isolated] else []) ++ [.block n (reclose { s.fdc n with miswire := false, reverse := false }).blockOpen], ?_⟩
    show execWiringClear n s = _
    rw [execWiringClear, onField_pos hon (by simpa using hc)]
    cases hm : (s.fdc n).miswire <;> cases hr : (s.fdc n).reverse <;> simp [driveReports, report_fdc, hm, hr]
  obtain ⟨rs, e⟩ := e
  exact ⟨_, e, driveReports_get _ _ _ _ FdChan.miswire (by intros; rfl), driveReports_get _ _ _ _ FdChan.reverse (by intros; rfl),
    driveReports_get _ _ _ _ FdChan.isolated (by intros; rfl), driveReports_frame _ _ _ _ fun _ => rfl⟩

/-- Settles O9: a detector's condition is stored by `condBit`; a crossing, a short and their ends change the record and then drive the output. -/
theorem fieldConditionsAndWiring : Obligations.FieldConditionsAndWiring := by
  refine ⟨fun s n hon => ?_, fun s n hon hk => ?_, fun s n hon => ?_⟩
  · obtain ⟨hdi, hsense, himb, hpath, hopen, hrev⟩ := detected_conditions (n := n) hon
    exact ⟨hdi, fun k => completes_diClassChange hon k, hsense, himb, hpath, hopen, hrev⟩
  · exact ⟨completes_shortSwitchOff hon hk, completes_shortProbe hon hk⟩
  · exact ⟨fun rev => completes_wiringCrossing hon, fun rev => completes_wiringDeclare hon, completes_wiringTransientEnd hon,
      completes_wiringClear hon⟩

end Sys2Proof.Machine
end

section
namespace Sys2Proof.Machine

/-! ## Latches of the thermal compare and the clamp -/

theorem withCool_cfg (c : FdChan) (bit : Fin 10) (b : Bool) : (withCool c bit b).cfg = c.cfg := by
  unfold withCool
  split
  · rfl
  · split <;> rfl

theorem coolSet_step (s : State) (n : Chan) (bit : Fin 10) (tj : Byte) : FieldStep n s (coolSet s n bit tj) := by
  have h := modHalves_step s n (fun c => withCool c bit true) fun c => withCool_cfg c bit true
  unfold coolSet
  dsimp only
  split
  · exact h
  · split
    · exact h.trans (FieldStep.events _ n _)
    · exact h.trans (FieldStep.report _ n _)

/-- The latch is set on every channel tied to the output, and no other part of a record changes. -/
theorem coolSet_get (s : State) (n : Chan) (bit : Fin 10) (tj : Byte) (m : Chan) :
    (coolSet s n bit tj).fdc m = if m ∈ s.halves n then withCool (s.fdc m) bit true else s.fdc m := by
  rw [← modHalves_get s n (fun c => withCool c bit true) m]
  unfold coolSet
  dsimp only
  split
  · rfl
  · split
    · rfl
    · exact report_fdc ..

theorem coolRelease_step (s : State) (n : Chan) (bit : Fin 10) : FieldStep n s (coolRelease s n bit) := by
  have h := FieldStep.modFd s n (fun c => withCool c bit false) fun c => withCool_cfg c bit false
  unfold coolRelease
  dsimp only
  split
  · exact h
  · exact h.trans (FieldStep.report _ n _)

/-- The latch is released on the channel alone, and no other part of its record changes. -/
theorem coolRelease_get (s : State) (n : Chan) (bit : Fin 10) (m : Chan) :
    (coolRelease s n bit).fdc m = if m = n then withCool (s.fdc n) bit false else s.fdc m := by
  rw [← fdc_modFd s n m fun c => withCool c bit false]
  unfold coolRelease
  dsimp only
  split
  · rfl
  · exact report_fdc ..

/-- What a trip leaves of a part of a record that neither the trip nor the output's end touches. -/
theorem fdTrip_get {α : Type} (s : State) (n : Chan) (bit : Fin 3) (inLimit : Bool) (ma : W16) (tj : Byte) (m : Chan) (g : FdChan → α)
    (hg : ∀ c b1 b2 b3 b4 b5 b6 b7 b8 b9 b10 b11,
      g { c with on := b1, flood := b2, floodLimited := b3, onHeld := b4, win := b5, dither := b6, phSink := b7, phDriven := b8,
                 phDet := b9, lastPulse := b10, offTick := b11 } = g c)
    (ho : ∀ c oc il, g { c with oc := oc, inLimit := il } = g c) :
    g ((fdTrip s n bit inLimit ma tj).fdc m) = g (s.fdc m) := by
  have h1 : g ((modHalves s n fun c => { c with oc := setAt c.oc bit true, inLimit := inLimit }).fdc m) = g (s.fdc m) := by
    rw [modHalves_get]
    split
    · exact ho ..
    · rfl
  unfold fdTrip
  dsimp only
  rw [report_fdc, fdc_events]
  split
  · exact ((turnOff_rec _ n m).get g (hg _)).trans h1
  · exact h1

/-! ## The thermal compare, stage by stage -/

/-- The latches that the compare releases: those whose junction lies 15 K below their limit. -/
def thermalReleased (s : State) (n : Chan) (t lim : Int) : State :=
  let s1 := if (s.fdc n).thDt && t ≤ lim - 15000 then coolRelease s n 5 else s
  if (s.fdc n).thAbs && t ≤ 155000 then coolRelease s1 n 6 else s1

theorem thermalReleased_step (s : State) (n : Chan) (t lim : Int) : FieldStep n s (thermalReleased s n t lim) := by
  have h : FieldStep n s (if (s.fdc n).thDt && t ≤ lim - 15000 then coolRelease s n 5 else s) := by
    split
    · exact coolRelease_step s n 5
    · exact FieldStep.refl n s
  unfold thermalReleased
  dsimp only
  split
  · exact h.trans (coolRelease_step _ n 6)
  · exact h

theorem thermalReleased_dt (s : State) (n : Chan) (t lim : Int) :
    ((thermalReleased s n t lim).fdc n).thDt = ((s.fdc n).thDt && decide (lim - 15000 < t)) := by
  unfold thermalReleased
  dsimp only
  split <;> split <;> simp_all [coolRelease_get, withCool]

theorem thermalReleased_abs (s : State) (n : Chan) (t lim : Int) :
    ((thermalReleased s n t lim).fdc n).thAbs = ((s.fdc n).thAbs && decide (155000 < t)) := by
  unfold thermalReleased
  dsimp only
  split <;> split <;> simp_all [coolRelease_get, withCool]

/-- A part of every record that the latches are not. -/
theorem withCool_on (c : FdChan) (bit : Fin 10) (b : Bool) : (withCool c bit b).on = c.on := by
  unfold withCool
  split
  · rfl
  · split <;> rfl

theorem coolRelease_on (s : State) (n : Chan) (bit : Fin 10) (m : Chan) : ((coolRelease s n bit).fdc m).on = (s.fdc m).on := by
  rw [coolRelease_get]
  split
  · next h => rw [withCool_on, h]
  · rfl

theorem coolSet_on (s : State) (n : Chan) (bit : Fin 10) (tj : Byte) (m : Chan) : ((coolSet s n bit tj).fdc m).on = (s.fdc m).on := by
  rw [coolSet_get]
  split
  · exact withCool_on ..
  · rfl

theorem thermalReleased_on (s : State) (n : Chan) (t lim : Int) (m : Chan) :
    ((thermalReleased s n t lim).fdc m).on = (s.fdc m).on := by
  unfold thermalReleased
  dsimp only
  split <;> split <;> simp [coolRelease_on]

/-- The switch off before its latches are set; a flood window in regulation is in its limit first (R150). -/
def thermalOff (s : State) (n : Chan) (was limited : Bool) : State :=
  let s1 := if limited then modHalves s n fun c => { c with floodLimited := true } else s
  if was then turnOff s1 n else s1

theorem thermalOff_step (s : State) (n : Chan) (was limited : Bool) : FieldStep n s (thermalOff s n was limited) := by
  have h : FieldStep n s (if limited then modHalves s n fun c => { c with floodLimited := true } else s) := by
    split
    · exact modHalves_step s n _ fun _ => rfl
    · exact FieldStep.refl n s
  unfold thermalOff
  dsimp only
  split
  · exact h.trans (turnOff_step _ n)
  · exact h

theorem thermalOff_rec (s : State) (n : Chan) (was limited : Bool) (m : Chan) :
    DriveRec (s.fdc m) ((thermalOff s n was limited).fdc m) := by
  have h : DriveRec (s.fdc m) ((if limited then modHalves s n fun c => { c with floodLimited := true } else s).fdc m) := by
    split
    · exact modHalves_rec s n m _ fun _ => rfl
    · exact DriveRec.refl _
  unfold thermalOff
  dsimp only
  split
  · exact h.trans (turnOff_rec _ n m)
  · exact h

theorem thermalOff_on (s : State) (n : Chan) (limited : Bool) :
    ((thermalOff s n (s.fdc (s.unit n)).on limited).fdc (s.unit n)).on = false := by
  have h : FieldStep n s (if limited then modHalves s n fun c => { c with floodLimited := true } else s) := by
    split
    · exact modHalves_step s n _ fun _ => rfl
    · exact FieldStep.refl n s
  unfold thermalOff
  dsimp only
  split
  · rw [← unit_cfg h.cfg n]
    exact turnOff_on _ n
  · next hw => split <;> simpa using hw

/-- The latches that the compare sets. -/
def thermalLatched (s : State) (n : Chan) (setDt setAbs : Bool) (tj : Byte) : State :=
  let s1 := if setDt then coolSet s n 5 tj else s
  if setAbs then coolSet s1 n 6 tj else s1

theorem thermalLatched_step (s : State) (n : Chan) (setDt setAbs : Bool) (tj : Byte) :
    FieldStep n s (thermalLatched s n setDt setAbs tj) := by
  have h : FieldStep n s (if setDt then coolSet s n 5 tj else s) := by
    split
    · exact coolSet_step ..
    · exact FieldStep.refl n s
  unfold thermalLatched
  dsimp only
  split
  · exact h.trans (coolSet_step ..)
  · exact h

theorem coolSet_dt (s : State) (n : Chan) (tj : Byte) (m : Chan) :
    ((coolSet s n 5 tj).fdc m).thDt = ((s.fdc m).thDt || decide (m ∈ s.halves n)) ∧ ((coolSet s n 5 tj).fdc m).thAbs = (s.fdc m).thAbs := by
  rw [coolSet_get]
  split
  · next h => exact ⟨by simp [withCool, h], rfl⟩
  · next h => exact ⟨by simp [h], rfl⟩

theorem coolSet_abs (s : State) (n : Chan) (tj : Byte) (m : Chan) :
    ((coolSet s n 6 tj).fdc m).thAbs = ((s.fdc m).thAbs || decide (m ∈ s.halves n)) ∧ ((coolSet s n 6 tj).fdc m).thDt = (s.fdc m).thDt := by
  rw [coolSet_get]
  split
  · next h => exact ⟨by simp [withCool, h], rfl⟩
  · next h => exact ⟨by simp [h], rfl⟩

theorem thermalLatched_get (s : State) (n : Chan) (setDt setAbs : Bool) (tj : Byte) (m : Chan) :
    ((thermalLatched s n setDt setAbs tj).fdc m).on = (s.fdc m).on ∧
    ((thermalLatched s n setDt setAbs tj).fdc m).thDt = ((s.fdc m).thDt || (setDt && decide (m ∈ s.halves n))) ∧
    ((thermalLatched s n setDt setAbs tj).fdc m).thAbs = ((s.fdc m).thAbs || (setAbs && decide (m ∈ s.halves n))) := by
  have hh : (coolSet s n 5 tj).halves n = s.halves n := halves_cfg (coolSet_step s n 5 tj).cfg n
  unfold thermalLatched
  cases setDt <;> cases setAbs <;>
    simp only [Bool.false_eq_true, if_false, if_true, coolSet_on, (coolSet_abs _ n tj m).1, (coolSet_abs _ n tj m).2,
      (coolSet_dt _ n tj m).1, (coolSet_dt _ n tj m).2, hh, Bool.false_and, Bool.or_false, Bool.true_and, and_self]

/-- What the compare does: the releases, and where a latch sets, the switch off, the latches, and the trip of R150. -/
def thermalDone (s : State) (n : Chan) (t lim : Int) (inReg : Bool) (ma : W16) : State :=
  let setDt := isSwitch (s.fdc n) && !(s.fdc n).thDt && decide (t > lim)
  let setAbs := isSwitch (s.fdc n) && !(s.fdc n).thAbs && decide (t > 170000)
  let r150 := (s.fdc (s.unit n)).on && (s.fdc (s.unit n)).flood && inReg
  let s1 := thermalReleased s n t lim
  if !setDt && !setAbs then s1
  else
    let s2 := thermalLatched (thermalOff s1 n (s.fdc (s.unit n)).on r150) n setDt setAbs (tjCode t)
    if r150 then fdTrip s2 n 0 true ma (tjCode t) else s2

theorem thermalDone_step (s : State) (n : Chan) (t lim : Int) (inReg : Bool) (ma : W16) :
    FieldStep n s (thermalDone s n t lim inReg ma) := by
  unfold thermalDone
  dsimp only
  have h := thermalReleased_step s n t lim
  split
  · exact h
  · have h2 := h.trans (thermalOff_step _ n (s.fdc (s.unit n)).on ((s.fdc (s.unit n)).on && (s.fdc (s.unit n)).flood && inReg))
    split
    · exact (h2.trans (thermalLatched_step ..)).trans (fdTrip_step ..)
    · exact h2.trans (thermalLatched_step ..)

/-- A latch after the compare: kept where it was set and its junction has not fallen 15 K below, and set where it must. -/
theorem thermalDone_latches (s : State) (n : Chan) (t lim : Int) (inReg : Bool) (ma : W16) (m : Chan) :
    ((thermalDone s n t lim inReg ma).fdc m).thDt =
      (((thermalReleased s n t lim).fdc m).thDt ||
        (isSwitch (s.fdc n) && !(s.fdc n).thDt && decide (t > lim) && decide (m ∈ s.halves n))) ∧
    ((thermalDone s n t lim inReg ma).fdc m).thAbs =
      (((thermalReleased s n t lim).fdc m).thAbs ||
        (isSwitch (s.fdc n) && !(s.fdc n).thAbs && decide (t > 170000) && decide (m ∈ s.halves n))) := by
  unfold thermalDone
  dsimp only
  generalize (isSwitch (s.fdc n) && !(s.fdc n).thDt && decide (t > lim)) = setDt
  generalize (isSwitch (s.fdc n) && !(s.fdc n).thAbs && decide (t > 170000)) = setAbs
  generalize (s.fdc (s.unit n)).on = was
  generalize (was && (s.fdc (s.unit n)).flood && inReg) = r150
  have hstep := (thermalReleased_step s n t lim).trans (thermalOff_step _ n was r150)
  have hoff := thermalOff_rec (thermalReleased s n t lim) n was r150 m
  have hl := thermalLatched_get (thermalOff (thermalReleased s n t lim) n was r150) n setDt setAbs (tjCode t) m
  obtain ⟨-, hdt, habs⟩ := hl
  rw [halves_cfg hstep.cfg, hoff.get FdChan.thDt] at hdt
  rw [halves_cfg hstep.cfg, hoff.get FdChan.thAbs] at habs
  split
  · next h =>
    obtain ⟨rfl, rfl⟩ : setDt = false ∧ setAbs = false := by simpa using h
    simp
  · split
    · exact ⟨(fdTrip_get _ n 0 true ma _ m FdChan.thDt (by intros; rfl) (by intros; rfl)).trans hdt,
        (fdTrip_get _ n 0 true ma _ m FdChan.thAbs (by intros; rfl) (by intros; rfl)).trans habs⟩
    · exact ⟨hdt, habs⟩

/-- Where a latch sets, the switch is off. -/
theorem thermalDone_off (s : State) (n : Chan) (t lim : Int) (inReg : Bool) (ma : W16)
    (h : (isSwitch (s.fdc n) && !(s.fdc n).thDt && decide (t > lim)) = true ∨ (isSwitch (s.fdc n) && !(s.fdc n).thAbs && decide (t > 170000)) = true) :
    ((thermalDone s n t lim inReg ma).fdc (s.unit n)).on = false := by
  unfold thermalDone
  dsimp only
  rw [if_neg (by rcases h with h | h <;> simp [h])]
  generalize (isSwitch (s.fdc n) && !(s.fdc n).thDt && decide (t > lim)) = setDt
  generalize (isSwitch (s.fdc n) && !(s.fdc n).thAbs && decide (t > 170000)) = setAbs
  generalize ((s.fdc (s.unit n)).on && (s.fdc (s.unit n)).flood && inReg) = r150
  have hr := thermalReleased_step s n t lim
  have hs := (hr.trans (thermalOff_step _ n (s.fdc (s.unit n)).on r150)).trans (thermalLatched_step _ n setDt setAbs (tjCode t))
  split
  · have h2 := (fdTrip_unit (thermalLatched (thermalOff (thermalReleased s n t lim) n (s.fdc (s.unit n)).on r150) n setDt setAbs (tjCode t))
      n 0 true ma (tjCode t)).2
    rwa [unit_cfg hs.cfg] at h2
  · rw [(thermalLatched_get ..).1]
    have h2 := thermalOff_on (thermalReleased s n t lim) n r150
    rwa [unit_cfg hr.cfg, thermalReleased_on] at h2

theorem exec_thermalCompare {s : State} {n : Chan} {tj tcase : W32} {inReg : Bool} {ma : W16} (hon : s.fdOn = true)
    (h : isSwitch (s.fdc n) = true ∨ (s.fdc n).thDt = true ∨ (s.fdc n).thAbs = true) :
    exec (.thermalCompare n tj tcase inReg ma) s =
      .next (thermalDone s n tj.toInt (tcase.toInt + 1000 * protDtLim (s.fdc (s.unit n)).cfg) inReg ma) :=
  congrArg Host.Outcome.next (onField_pos hon (by simpa [or_assoc] using h) _)

theorem completes_thermalCompare {s : State} {n : Chan} {tj tcase : W32} {inReg : Bool} {ma : W16} (hon : s.fdOn = true)
    (h : isSwitch (s.fdc n) = true ∨ (s.fdc n).thDt = true ∨ (s.fdc n).thAbs = true) :
    Completes (.thermalCompare n tj tcase inReg ma) s fun t =>
      (isSwitch (s.fdc n) = true → 170000 < tj.toInt → (s.fdc n).thAbs = false →
        (∀ m ∈ s.halves n, (t.fdc m).thAbs = true) ∧ (t.fdc (s.unit n)).on = false) ∧
      (155000 < tj.toInt → (s.fdc n).thAbs = true → (t.fdc n).thAbs = true) ∧
      (tj.toInt ≤ 155000 → (t.fdc n).thAbs = false) ∧
      (isSwitch (s.fdc n) = true → tcase.toInt + 1000 * protDtLim (s.fdc (s.unit n)).cfg < tj.toInt → (s.fdc n).thDt = false →
        (∀ m ∈ s.halves n, (t.fdc m).thDt = true) ∧ (t.fdc (s.unit n)).on = false) ∧
      (tcase.toInt + 1000 * protDtLim (s.fdc (s.unit n)).cfg - 15000 < tj.toInt → (s.fdc n).thDt = true → (t.fdc n).thDt = true) ∧
      (tj.toInt ≤ tcase.toInt + 1000 * protDtLim (s.fdc (s.unit n)).cfg - 15000 → (t.fdc n).thDt = false) ∧
      FieldFrame n s t := by
  refine ⟨_, exec_thermalCompare hon h, ?_⟩
  generalize tcase.toInt + 1000 * protDtLim (s.fdc (s.unit n)).cfg = lim
  generalize tj.toInt = t
  have hl := thermalDone_latches s n t lim inReg ma
  have hoff := thermalDone_off s n t lim inReg ma
  refine ⟨fun hsw ht hn => ⟨fun m hm => ?_, hoff (Or.inr ?_)⟩, fun ht hn => ?_, fun ht => ?_,
    fun hsw ht hn => ⟨fun m hm => ?_, hoff (Or.inl ?_)⟩, fun ht hn => ?_, fun ht => ?_, (thermalDone_step ..).frame⟩
  · rw [(hl m).2]; simp [hsw, hn, ht, hm]
  · simp [hsw, hn, ht]
  · rw [(hl n).2, thermalReleased_abs]; simp [hn, ht]
  · rw [(hl n).2, thermalReleased_abs, decide_eq_false (show ¬ 155000 < t by omega), decide_eq_false (show ¬ t > 170000 by omega)]; simp
  · rw [(hl m).1]; simp [hsw, hn, ht, hm]
  · simp [hsw, hn, ht]
  · rw [(hl n).1, thermalReleased_dt]; simp [hn, ht]
  · rw [(hl n).1, thermalReleased_dt, decide_eq_false (show ¬ lim - 15000 < t by omega), decide_eq_false (show ¬ t > lim by omega)]; simp

/-! ## Trips -/

/-- A command that trips the switch: the latch is set on its unit, which is off. -/
theorem completes_fdTrip {c : Instr} {s : State} {n : Chan} {bit : Fin 3} {inLimit : Bool} {ma : W16} {tj : Byte}
    (e : exec c s = .next (fdTrip s n bit inLimit ma tj)) :
    Completes c s fun t => (t.fdc (s.unit n)).oc[bit] = true ∧ (t.fdc (s.unit n)).on = false ∧ FieldFrame n s t :=
  have h := fdTrip_unit s n bit inLimit ma tj
  ⟨_, e, h.1, h.2, (fdTrip_step ..).frame⟩

theorem completes_backfeed {s : State} {n : Chan} {ma : W16} {tj : Byte} (hon : s.fdOn = true) (hsw : isSwitch (s.fdc n) = true)
    (ho : (s.fdc n).on = true) :
    Completes (.backfeed n true ma tj) s fun t =>
      (t.fdc (s.unit n)).oc[(2 : Fin 3)] = true ∧ (t.fdc (s.unit n)).on = false ∧ FieldFrame n s t := by
  have e : exec (.backfeed n true ma tj) s = .next (fdTrip (condBit s n (s.fdc n).backfeed true
      (fun c => { c with backfeed := true }) (.backfeed (s.unit n) true false)) n 2 false ma tj) := by
    show execBackfeed n true ma tj s = _
    rw [execBackfeed, onField_pos hon hsw]
    simp [ho]
  have hs := condBit_step s n (s.fdc n).backfeed true (fun c => { c with backfeed := true }) (.backfeed (s.unit n) true false) fun _ => rfl
  have h := fdTrip_unit (condBit s n (s.fdc n).backfeed true (fun c => { c with backfeed := true }) (.backfeed (s.unit n) true false)) n 2 false ma tj
  rw [unit_cfg hs.cfg] at h
  exact ⟨_, e, h.1, h.2, (hs.trans (fdTrip_step ..)).frame⟩

theorem completes_floodWindowEnd {s : State} {n : Chan} {limited : Bool} (hon : s.fdOn = true) (hsw : isSwitch (s.fdc n) = true)
    (ho : (s.fdc n).on = true) (hf : (s.fdc n).flood = true) :
    Completes (.floodWindowEnd n limited) s fun t =>
      (t.fdc (s.unit n)).flood = false ∧ (t.fdc (s.unit n)).floodLimited = limited ∧ FieldFrame n s t := by
  refine completes_onField rfl hon (by simp [hsw, ho, hf]) ⟨?_, ?_, FieldStep.frame ?_⟩
  · rw [report_fdc, modHalves_unit]
  · rw [report_fdc, modHalves_unit]
  · exact FieldStep.trans (modHalves_step s n _ (by intro _; rfl)) (FieldStep.report _ n _)

/-- Settles O10: a trip latches and switches off by `fdTrip_unit`; the thermal compare by its stages. -/
theorem protectionLatches : Obligations.ProtectionLatches := by
  refine ⟨fun s n ma tj hon hsw ho => ⟨?_, fun hf => ?_, completes_backfeed hon hsw ho⟩,
    fun s n limited hon hsw ho hf => completes_floodWindowEnd hon hsw ho hf,
    fun s n tj tcase inReg ma hon h => completes_thermalCompare hon h⟩
  · exact completes_fdTrip (c := .hardShort n ma tj) (bit := 1) (congrArg Host.Outcome.next (onField_pos hon (by simp [hsw, ho]) _))
  · exact completes_fdTrip (c := .steadyTrip n ma tj) (bit := 0) (congrArg Host.Outcome.next (onField_pos hon (by simp [hsw, ho, hf]) _))

end Sys2Proof.Machine
end

section
namespace Sys2Proof.Machine

/-! ## Clamp energy and stored heat -/

theorem completes_clampEventStart {s : State} {n : Chan} {tj : W32} (hon : s.fdOn = true) (hsw : isSwitch (s.fdc n) = true)
    (ho : (s.fdc n).on = false) (hc : (s.fdc n).clampEvent = false) :
    Completes (.clampEventStart n tj) s fun t =>
      (t.fdc n).clampEvent = true ∧ (t.fdc n).e = 0 ∧
      (t.fdc n).eAllow = clampAllow tj.toInt (protClampMj (s.fdc (s.unit n)).cfg) ∧ FieldFrame n s t := by
  refine completes_onField rfl hon (by simp [hsw, ho, hc]) ⟨?_, ?_, ?_, FieldStep.frame (FieldStep.modFd s n _ (by intro _; rfl))⟩
  · rw [fdc_modFd_self]
  · rw [fdc_modFd_self]
  · rw [fdc_modFd_self]

/-- The record at the end of a clamp event whose energy is `acc`. -/
def clampEnded (acc : Nat) (c : FdChan) : FdChan :=
  { c with clampEvent := false, e := 0, eEst := c.eEst + (divRound (256 * acc) (10 ^ 7)).toNat }

/-- A turn-on held until the clamp event's end follows it, and leaves every part that driving does not touch. -/
def driveHeld (s : State) (n u : Chan) : State :=
  if (s.fdc u).onHeld then drive (modHalves s n fun c => { c with onHeld := false }) n else s

theorem driveHeld_rec (s : State) (n u m : Chan) : DriveRec (s.fdc m) ((driveHeld s n u).fdc m) := by
  unfold driveHeld
  split
  · exact DriveRec.trans (modHalves_rec s n m _ (by intro _; rfl)) (drive_rec _ n m)
  · exact DriveRec.refl _

theorem driveHeld_step (s : State) (n u : Chan) : FieldStep n s (driveHeld s n u) := by
  unfold driveHeld
  split
  · exact FieldStep.trans (modHalves_step s n _ (by intro _; rfl)) (drive_step _ n)
  · exact FieldStep.refl n s

theorem completes_clampEventEnd {s : State} {n : Chan} {samples : List (W32 × W32 × W32)} (hon : s.fdOn = true)
    (hc : (s.fdc n).clampEvent = true) :
    Completes (.clampEventEnd n samples) s fun t =>
      (t.fdc n).clampEvent = false ∧ (t.fdc n).e = 0 ∧
      (t.fdc n).eEst = (s.fdc n).eEst + (divRound (256 * clampSum s n samples) (10 ^ 7)).toNat ∧ FieldFrame n s t := by
  let s1 := s.modFd n (clampEnded (clampSum s n samples))
  have e : ∃ r, exec (.clampEventEnd n samples) s = .next (driveHeld (reportStatus s1 r) n (s.unit n)) :=
    ⟨.clampEnd n (energyWord (clampSum s n samples)) (s1.fdc n).eEst (satNat 16 (s1.fdc n).eAllow),
      congrArg Host.Outcome.next (onField_pos hon hc _)⟩
  obtain ⟨r, e⟩ := e
  have hr := driveHeld_rec (reportStatus s1 r) n (s.unit n) n
  have hs : (reportStatus s1 r).fdc n = clampEnded (clampSum s n samples) (s.fdc n) := by
    rw [reportStatus_fdc, fdc_modFd_self]
  rw [hs] at hr
  exact ⟨_, e, hr.get FdChan.clampEvent, hr.get FdChan.e, hr.get FdChan.eEst,
    (((FieldStep.modFd s n (clampEnded _) fun _ => rfl).trans (FieldStep.reportStatus _ n r)).trans (driveHeld_step _ n _)).frame⟩

theorem completes_clampEnergyTest {s : State} {n : Chan} {samples : List (W32 × W32 × W32)} (hon : s.fdOn = true)
    (hsw : isSwitch (s.fdc n) = true)
    (hover : clampOver (if (s.fdc n).clampEvent then clampSum s n samples else (s.fdc n).e) (s.fdc n).eEst (s.fdc n).eAllow = true)
    (hl : (s.fdc n).clampLatch = false) :
    Completes (.clampEnergyTest n samples) s fun t => (∀ m ∈ s.halves n, (t.fdc m).clampLatch = true) ∧ FieldFrame n s t := by
  have hstep : ∃ s1, FieldStep n s s1 ∧ exec (.clampEnergyTest n samples) s = .next (coolSet s1 n 4 0) := by
    have e : exec (.clampEnergyTest n samples) s = _ := congrArg Host.Outcome.next (onField_pos hon hsw _)
    dsimp only at e
    cases hev : (s.fdc n).clampEvent with
    | true =>
      rw [hev, if_pos rfl] at hover
      refine ⟨s.modFd n fun c => { c with e := clampSum s n samples }, FieldStep.modFd s n _ fun _ => rfl, e.trans ?_⟩
      simp only [hev, if_true, fdc_modFd_self, hover, hl, Bool.not_false, Bool.and_self]
    | false =>
      rw [hev, if_neg Bool.false_ne_true] at hover
      refine ⟨s, FieldStep.refl n s, e.trans ?_⟩
      simp only [hev, Bool.false_eq_true, if_false, hover, hl, Bool.not_false, Bool.and_self, if_true]
  obtain ⟨s1, hstep, e⟩ := hstep
  refine ⟨_, e, fun m hm => ?_, (hstep.trans (coolSet_step s1 n 4 0)).frame⟩
  rw [coolSet_get, halves_cfg hstep.cfg, if_pos hm]
  rfl

theorem completes_clampDecayStep {s : State} {n : Chan} (ha : s.fd.alive = true) (hc : (s.fdc n).clampEvent = false) :
    Completes (.clampDecayStep n) s fun t => (t.fdc n).eEst = (s.fdc n).eEst - ((s.fdc n).eEst + 127) / 128 ∧ FieldFrame n s t := by
  have e : exec (.clampDecayStep n) s = .next _ := congrArg Host.Outcome.next (if_neg (by simp [ha, hc]))
  refine ⟨_, e, ?_⟩
  dsimp only
  have hs := FieldStep.modFd s n (fun c => { c with eEst := c.eEst - (c.eEst + 127) / 128 }) fun _ => rfl
  have he : ((s.modFd n fun c => { c with eEst := c.eEst - (c.eEst + 127) / 128 }).fdc n).eEst = (s.fdc n).eEst - ((s.fdc n).eEst + 127) / 128 := by
    rw [fdc_modFd_self]
  split
  · refine ⟨?_, (hs.trans (coolRelease_step _ n 4)).frame⟩
    rw [coolRelease_get, if_pos rfl]
    exact he
  · exact ⟨he, hs.frame⟩

/-- Settles O11: each part of a clamp event changes the channel's record, and the held turn-on that follows its end leaves the energies. -/
theorem clampHeatIsKept : Obligations.ClampHeatIsKept := fun _ _ =>
  ⟨fun _ => completes_clampEventStart, fun _ => completes_clampEventEnd, fun _ => completes_clampEnergyTest, completes_clampDecayStep⟩

end Sys2Proof.Machine
end

section
namespace Sys2Proof.Machine

/-! ## Proving at the field die -/

/-- A DO is its own unit. -/
theorem unit_of_kindDO {s : State} {n : Chan} (h : fdKind (s.fdc n) = kindDO) : s.unit n = n := if_neg (by rw [h]; decide)

theorem kind_of_proven {c : FdChan} (h : proven c = true) : fdKind c = kindDO := by
  unfold proven at h
  simpa using (Bool.and_eq_true_iff.mp h).1

theorem onProve_pos {s : State} {n : Chan} {p : FdChan → Bool} (hon : s.fdOn = true) (hm : s.m.mode ≠ .stop) (hp : p (s.fdc n) = true)
    (f : State → State) : onProve s n p f = f s := onField_pos hon (by simp [hm, hp]) f

/-- A value that a record may already show is stored. -/
theorem shown_or_stored {α : Type} [DecidableEq α] (s : State) (n : Chan) (g : FdChan → α) (v : α) (f : FdChan → FdChan) (r : Report)
    (hf : ∀ c, (f c).cfg = c.cfg) (hv : ∀ c, g (f c) = v) :
    g ((if g (s.fdc n) = v then s else report (s.modFd n f) r).fdc n) = v ∧
    FieldFrame n s (if g (s.fdc n) = v then s else report (s.modFd n f) r) := by
  split
  · next h => exact ⟨h, (FieldStep.refl n s).frame⟩
  · exact ⟨by rw [fdc_report_modFd, hv], ((FieldStep.modFd s n f hf).trans (FieldStep.report _ n r)).frame⟩

theorem completes_windowDeclare {s : State} {n : Chan} (hon : s.fdOn = true) (hpr : proven (s.fdc n) = true) {w : Win} {held : Nat}
    (hm : s.m.mode ≠ .stop) (ho : (s.fdc n).on = true) (hf : (s.fdc n).flood = false) (hw : w ≠ .notArmed)
    (hh : 100 * pOpenFilt (s.fdc n).cfg ≤ held) :
    Completes (.windowDeclare n w held) s fun t =>
      (t.fdc n).win = (if w = .belowLow ∧ pLow (s.fdc n).cfg = 0 then .pass else w) ∧ FieldFrame n s t := by
  have e : exec (.windowDeclare n w held) s = .next _ :=
    congrArg Host.Outcome.next (onProve_pos hon hm (by simp [hpr, ho, hf, hw, hh]) _)
  have ew : windowOf (s.fdc n).cfg w = if w = .belowLow ∧ pLow (s.fdc n).cfg = 0 then .pass else w := by simp [windowOf]
  rw [← ew]
  exact ⟨_, e, shown_or_stored s n FdChan.win _ _ _ (fun _ => rfl) fun _ => rfl⟩

theorem completes_ditherStart {s : State} {n : Chan} (hon : s.fdOn = true) (hpr : proven (s.fdc n) = true) {iRef : W32}
    (he : pSndEn (s.fdc n).cfg = true) (ho : (s.fdc n).on = true) (hf : (s.fdc n).flood = false) (hw : (s.fdc n).win ≠ .notArmed)
    (hl : commandedLit (s.fdc n) = true) (hs : sounding s = true) :
    Completes (.ditherStart n iRef) s fun t =>
      (t.fdc n).dither = true ∧ (t.fdc n).ditherFrom = s.fd.tick ∧ (t.fdc n).iRef = iRef.toNat ∧
      (t.fdc n).iLow = (divRound (iRef.toNat * (100 - pDither (s.fdc n).cfg)) 100).toNat ∧ FieldFrame n s t := by
  have hm : s.m.mode ≠ .stop := by
    intro h
    simp [sounding, h] at hs
  have e : exec (.ditherStart n iRef) s = .next _ :=
    congrArg Host.Outcome.next (onProve_pos hon hm (by simp [hpr, he, ho, hf, hw, hl, hs]) _)
  have hu := unit_of_kindDO (kind_of_proven hpr)
  have g := modHalves_unit s n (fun c => withRef { c with dither := true, ditherFrom := s.fd.tick, ditherNext := s.fd.tick } iRef.toNat)
  rw [hu] at g
  refine ⟨_, e, ?_, ?_, ?_, ?_, FieldStep.frame (modHalves_step s n _ (by intro _; rfl))⟩ <;> rw [g] <;> rfl

/-- The record after an off-state pulse of class `k`. -/
def pulseTaken (now : W64) (k : Pulse) (c : FdChan) : FdChan :=
  { c with lastPulse := k, pulseDue := some (nextPulse c now), pulseTick := some now, pulseI := if k = .shortSupply then 0 else pPulse c.cfg }

/-- Drawing a value changes no record. -/
theorem draw_fdc (s : State) (m : Chan) : s.draw.2.fdc m = s.fdc m := rfl

theorem completes_offStatePulse {s : State} {n : Chan} (hon : s.fdOn = true) (hpr : proven (s.fdc n) = true) {v0 v1 i1 vfld : W32}
    (he : pOffEn (s.fdc n).cfg = true) (hl : commandedLit (s.fdc n) = false) (ho : (s.fdc n).on = false) (hp : (s.fdc n).phSink = false)
    (hs : sounding s = true) (hf : pulseFree s n = true) :
    Completes (.offStatePulse n v0 v1 i1 vfld) s fun t =>
      (t.fdc n).lastPulse = pulseClass (s.fdc n).cfg v0.toInt v1.toInt vfld.toInt ∧ SameOutside [.fd, .free] s t ∧
      ∀ m, m ≠ n → t.fdc m = s.fdc m := by
  have e : exec (.offStatePulse n v0 v1 i1 vfld) s = .next _ :=
    congrArg Host.Outcome.next (onField_pos hon (by simp [hpr, he, hl, ho, hp, hs, hf]) _)
  obtain ⟨t, ht, hm⟩ := execOffStatePulse_ends n v0 v1 i1 vfld s
  have hrec : ∀ m, t.fdc m = (s.modFd n (pulseTaken s.fd.tick (pulseClass (s.fdc n).cfg v0.toInt v1.toInt vfld.toInt))).fdc m := by
    intro m
    obtain rfl : t = _ := Host.Outcome.next.inj (ht.symm.trans e)
    dsimp only
    split
    · split
      · exact report_fdc ..
      · exact (report_fdc ..).trans (draw_fdc ..)
    · exact report_fdc ..
  refine ⟨t, ht, ?_, hm.same.widen rfl, fun m hn => ?_⟩
  · rw [hrec, fdc_modFd_self]
    rfl
  · rw [hrec, fdc_modFd_ne s _ hn]

/-- A change of the channel's record and a report, in a state of the field die's events. -/
theorem completes_recorded {c : Instr} {s : State} {n : Chan} {f : FdChan → FdChan} {r : Report} {P : FdChan → Prop}
    (e : exec c s = .next (report (s.modFd n f) r)) (hf : ∀ c, (f c).cfg = c.cfg) (hP : P (f (s.fdc n))) :
    Completes c s fun t => P (t.fdc n) ∧ FieldFrame n s t :=
  ⟨_, e, by rwa [fdc_report_modFd], ((FieldStep.modFd s n f hf).trans (FieldStep.report _ n r)).frame⟩

theorem completes_phantom {s : State} {n : Chan} (hon : s.fdOn = true) (hpr : proven (s.fdc n) = true) :
    (∀ held, s.m.mode ≠ .stop → pPhEn (s.fdc n).cfg = true → commandedLit (s.fdc n) = false → (s.fdc n).on = false →
      (s.fdc n).phDet = false → 100 * pPhFilt (s.fdc n).cfg ≤ held → phantomLive s (s.fdc n) = true →
      Completes (.phantomDeclare n held) s fun t =>
        (t.fdc n).phDet = true ∧ (t.fdc n).phSink = pSuppEn (s.fdc n).cfg ∧ (t.fdc n).phDriven = false ∧ FieldFrame n s t) ∧
    (s.m.mode ≠ .stop → (s.fdc n).phDet = true →
      Completes (.phantomClear n) s fun t => (t.fdc n).phDet = false ∧ (t.fdc n).phSink = (s.fdc n).phSink ∧ FieldFrame n s t) ∧
    (s.m.mode ≠ .stop → (s.fdc n).phDet = true → (s.fdc n).phSink = true →
      Completes (.phantomDriven n) s fun t => (t.fdc n).phSink = false ∧ (t.fdc n).phDriven = true ∧ FieldFrame n s t) := by
  refine ⟨fun held hm he hl ho hd hh hlive => ?_, fun hm hd => ?_, fun hm hd hk => ?_⟩
  · have e : exec (.phantomDeclare n held) s = .next _ :=
      congrArg Host.Outcome.next (onProve_pos hon hm (by simp [hpr, he, hl, ho, hd, hh, hlive]) _)
    have h := completes_recorded (P := fun c => c.phDet = true ∧ c.phSink = pSuppEn (s.fdc n).cfg ∧ c.phDriven = false) e
      (fun _ => rfl) ⟨rfl, rfl, rfl⟩
    simpa only [and_assoc] using h
  · have e : exec (.phantomClear n) s = .next _ := congrArg Host.Outcome.next (onProve_pos hon hm hd _)
    have h := completes_recorded (P := fun c => c.phDet = false ∧ c.phSink = (s.fdc n).phSink) e (fun _ => rfl) ⟨rfl, rfl⟩
    simpa only [and_assoc] using h
  · have e : exec (.phantomDriven n) s = .next _ := congrArg Host.Outcome.next (onProve_pos hon hm (by simp [hd, hk]) _)
    have h := completes_recorded (P := fun c => c.phSink = false ∧ c.phDriven = true) e (fun _ => rfl) ⟨rfl, rfl⟩
    simpa only [and_assoc] using h

theorem completes_pathCheck {s : State} {n : Chan} (hon : s.fdOn = true) (hpr : proven (s.fdc n) = true) {m : PathMeasure}
    (hm : s.fd.slack = true ∨ s.m.mode ≠ .load ∧ s.m.mode ≠ .stop) :
    Completes (.pathCheck n m) s fun t => (t.fdc n).pcFail = pathFails (s.fdc n).cfg m ∧ FieldFrame n s t := by
  have e : exec (.pathCheck n m) s = .next _ :=
    congrArg Host.Outcome.next (onField_pos hon (by simpa [hpr, checking] using hm) _)
  exact completes_recorded (P := fun c => c.pcFail = pathFails (s.fdc n).cfg m) e (fun _ => rfl) rfl

/-! ## The lamp states that the executive evaluates -/

/-- What evaluating a lamp changes in its channel's record. -/
def LampRec (c d : Channel) : Prop :=
  d = { c with p := { c.p with
    inst := d.p.inst, pub := d.p.pub, ebbHold := d.p.ebbHold, plat := d.p.plat, cntDark := d.p.cntDark, cntLit := d.p.cntLit,
    cntPartial := d.p.cntPartial, verdictOf := d.p.verdictOf, litVerdict := d.p.litVerdict, darkVerdict := d.p.darkVerdict } }

/-- A part of the record that evaluating a lamp leaves alone. -/
theorem LampRec.get {c d : Channel} (h : LampRec c d) {α : Type} (g : Channel → α)
    (hg : ∀ e : Channel,
      g { c with p := { c.p with inst := e.p.inst, pub := e.p.pub, ebbHold := e.p.ebbHold, plat := e.p.plat, cntDark := e.p.cntDark,
                                 cntLit := e.p.cntLit, cntPartial := e.p.cntPartial, verdictOf := e.p.verdictOf, litVerdict := e.p.litVerdict
                                 darkVerdict := e.p.darkVerdict } } = g c) : g d = g c :=
  (congrArg g h).trans (hg d)

/-- The part of `LampRec` that speaks of the proving record. -/
def ProveRec (c d : ChanProve) : Prop :=
  d = { c with inst := d.inst, pub := d.pub, ebbHold := d.ebbHold, plat := d.plat, cntDark := d.cntDark, cntLit := d.cntLit,
               cntPartial := d.cntPartial, verdictOf := d.verdictOf, litVerdict := d.litVerdict, darkVerdict := d.darkVerdict }

theorem ProveRec.trans {c d e : ChanProve} (h : ProveRec c d) (k : ProveRec d e) : ProveRec c e := by
  unfold ProveRec at *
  rw [k, h]

theorem lampCounts_rec (p : ChanProve) (old new : Lamp) (rank : Nat) : ProveRec p (lampCounts p old new rank) := by
  unfold lampCounts
  split
  · rfl
  · split
    · rfl
    · rfl
    · rfl
    · split <;> rfl
    · rfl

theorem newVerdicts_rec (s : State) (n : Chan) (rank : Nat) (l : Lamp) (p : ChanProve) : ProveRec p (newVerdicts s n rank l p) := by
  unfold newVerdicts
  dsimp only
  have h : ProveRec p (if p.verdictOf = runningChar s.fd.ch[n] then p
      else { p with verdictOf := runningChar s.fd.ch[n], litVerdict := none, darkVerdict := none }) := by
    split <;> rfl
  generalize (if p.verdictOf = runningChar s.fd.ch[n] then p
      else { p with verdictOf := runningChar s.fd.ch[n], litVerdict := none, darkVerdict := none }) = q at h ⊢
  split
  · exact h
  · split
    · split
      · exact h.trans rfl
      · exact h
    · split
      · exact h.trans rfl
      · exact h

/-- A proving record that shows instantaneous state `l`. -/
def withInst (p : ChanProve) (l : Lamp) (hold : Bool) : ChanProve := { p with inst := l, ebbHold := hold }

theorem withInst_rec (p : ChanProve) (l : Lamp) (hold : Bool) : ProveRec p (withInst p l hold) := rfl

/-- The channel's record after its lamp is evaluated. -/
def lampEvaluated (s : State) (n : Chan) (c : Channel) : Channel :=
  if s.ch[n].kind ≠ kindDO then { c with p := { c.p with ebbHold := false } }
  else
    let (rank, l) := lampRank s n
    let hold := s.bw.ebb && (rank = 11 || rank = 13 || rank = 14)
    let p := newVerdicts s n rank l (withInst (lampCounts s.ch[n].p s.ch[n].p.inst l rank) l hold)
    { c with p := { p with pub := published rank l p } }

theorem evalLamp_ch (s : State) (n : Chan) : (evalLamp s n).ch = modAt s.ch n (lampEvaluated s n) := by
  by_cases hk : s.ch[n].kind = kindDO
  · have ef : lampEvaluated s n = _ := funext fun c => if_neg (not_not_intro hk)
    rw [ef]
    unfold evalLamp
    dsimp only
    rw [if_neg (not_not_intro hk), (putHealth_moves ..).same.ch rfl]
    split
    · rw [(putLamp_moves ..).same.ch rfl, (putProving_moves ..).same.ch rfl, (putLamp_moves ..).same.ch rfl]
      rfl
    · rw [(putProving_moves ..).same.ch rfl, (putLamp_moves ..).same.ch rfl]
      rfl
  · have ef : lampEvaluated s n = _ := funext fun c => if_pos hk
    rw [ef]
    unfold evalLamp
    dsimp only
    rw [if_pos hk]
    rfl

theorem LampRec.of_prove {c : Channel} {q : ChanProve} (h : ProveRec c.p q) (v : Lamp) : LampRec c { c with p := { q with pub := v } } := by
  unfold LampRec
  unfold ProveRec at h
  dsimp only
  rw [h]

theorem lampEvaluated_rec (s : State) (n : Chan) : LampRec s.ch[n] (lampEvaluated s n s.ch[n]) := by
  unfold lampEvaluated
  split
  · rfl
  · exact LampRec.of_prove (((lampCounts_rec ..).trans (withInst_rec ..)).trans (newVerdicts_rec ..)) _

theorem evalLamp_rec (s : State) (n m : Chan) : LampRec s.ch[m] (evalLamp s n).ch[m] := by
  rw [evalLamp_ch, modAt_get]
  split
  · next h => exact h ▸ lampEvaluated_rec s n
  · rfl

/-! ## Dither cycles -/

/-- A command that gathers one dither cycle takes it. -/
theorem exec_correlatorResult_one {s : State} {n : Chan} {c : DitherCycle} (hr : s.execRuns = true) (hk : s.ch[n].kind = kindDO)
    (hp : pProveEn (s.crec n) = true) (he : pSndEn (s.crec n) = true) (ht : s.ch[n].retired = false) (hs : sounding s = true)
    (hd : (s.fdc n).dither = true) : exec (.correlatorResult n [c]) s = .next (takeCycle n s c) :=
  congrArg Host.Outcome.next (if_neg (by rw [hr, hk, hp, he, ht, hs, hd]; decide))

/-- The record whose next dither cycle follows one with high half's mean `i`. -/
def cycleEnded (len : Nat) (i : Nat) (x : FdChan) : FdChan := withRef { x with ditherNext := x.ditherNext + BitVec.ofNat 64 len } i

/-- The field die after a dither cycle has run to its end. -/
def cycleTaken (s : State) (n : Chan) (c : DitherCycle) : State := modHalves s n (cycleEnded (cycleLen (s.fdc n).cfg) c.iHigh.toNat)

theorem cycleTaken_fd (s : State) (n : Chan) (c : DitherCycle) : ∃ fd, cycleTaken s n c = { s with fd := fd } := by
  have h : ∀ l : List Chan, ∀ fd, ∃ fd',
      l.foldl (fun a k => a.modFd k (cycleEnded (cycleLen (s.fdc n).cfg) c.iHigh.toNat)) { s with fd := fd } = { s with fd := fd' } := by
    intro l
    induction l with
    | nil => exact fun fd => ⟨fd, rfl⟩
    | cons k l ih => exact fun fd => ih _
  exact h _ s.fd

theorem cycleTaken_self {s : State} {n : Chan} (c : DitherCycle) (hk : fdKind (s.fdc n) = kindDO) :
    (cycleTaken s n c).fdc n = cycleEnded (cycleLen (s.fdc n).cfg) c.iHigh.toNat (s.fdc n) := by
  have g := modHalves_unit s n (cycleEnded (cycleLen (s.fdc n).cfg) c.iHigh.toNat)
  rwa [unit_of_kindDO hk] at g

theorem cycleTaken_accepted {s : State} {n : Chan} (c : DitherCycle) (hk : fdKind (s.fdc n) = kindDO) (t0 : W64) :
    cycleAccepted ((cycleTaken s n c).fdc n) t0 c = cycleAccepted (s.fdc n) t0 c := by
  rw [cycleTaken_self c hk]
  rfl

theorem takeCycle_ended {s : State} {n : Chan} {c : DitherCycle} (hlen : cycleLen (s.fdc n).cfg ≤ (s.fd.tick - (s.fdc n).ditherNext).toNat) :
    takeCycle n s c =
      (let s2 := accumulate (cycleTaken s n c) n (s.fdc n).ditherNext c
       if s2.ch[n].accN = s.ch[n].accN || s2.ch[n].accN < 16 || s2.ch[n].accN % 4 ≠ 0 then s2 else giveResult s2 n) :=
  if_neg (Nat.not_lt.mpr hlen)

/-- The accumulation's record with one accepted cycle more. -/
theorem accumulate_accN {s : State} {n : Chan} {t0 : W64} {c : DitherCycle} (h : cycleAccepted (s.fdc n) t0 c = true) :
    (accumulate s n t0 c).ch[n].accN = s.ch[n].accN + 1 := by
  rw [accumulate, if_pos h, State.modCh_ch, modAt_self]

theorem takeCycle_refused {s : State} {n : Chan} {c : DitherCycle} (hk : fdKind (s.fdc n) = kindDO)
    (hlen : cycleLen (s.fdc n).cfg ≤ (s.fd.tick - (s.fdc n).ditherNext).toNat)
    (ha : cycleAccepted (s.fdc n) (s.fdc n).ditherNext c = false) : takeCycle n s c = cycleTaken s n c := by
  have e : accumulate (cycleTaken s n c) n (s.fdc n).ditherNext c = cycleTaken s n c :=
    if_neg (by rw [cycleTaken_accepted c hk, ha]; decide)
  obtain ⟨fd, hfd⟩ := cycleTaken_fd s n c
  rw [takeCycle_ended hlen, e]
  dsimp only
  rw [if_pos]
  rw [hfd, decide_eq_true rfl]
  rfl

theorem takeCycle_gathered {s : State} {n : Chan} {c : DitherCycle} (hk : fdKind (s.fdc n) = kindDO)
    (hlen : cycleLen (s.fdc n).cfg ≤ (s.fd.tick - (s.fdc n).ditherNext).toNat)
    (ha : cycleAccepted (s.fdc n) (s.fdc n).ditherNext c = true) (hn : s.ch[n].accN < 15 ∨ s.ch[n].accN % 4 ≠ 3) :
    takeCycle n s c = accumulate (cycleTaken s n c) n (s.fdc n).ditherNext c := by
  have hN := accumulate_accN (s := cycleTaken s n c) (n := n) ((cycleTaken_accepted c hk (s.fdc n).ditherNext).trans ha)
  obtain ⟨fd, hfd⟩ := cycleTaken_fd s n c
  have hN2 : (accumulate (cycleTaken s n c) n (s.fdc n).ditherNext c).ch[n].accN = s.ch[n].accN + 1 := by rw [hN, hfd]
  rw [takeCycle_ended hlen]
  dsimp only
  rw [hN2, if_pos]
  generalize s.ch[n].accN = N at hn
  simp only [Bool.or_eq_true, decide_eq_true_iff]
  omega

theorem takeCycle_result {s : State} {n : Chan} {c : DitherCycle} (hk : fdKind (s.fdc n) = kindDO)
    (hlen : cycleLen (s.fdc n).cfg ≤ (s.fd.tick - (s.fdc n).ditherNext).toNat)
    (ha : cycleAccepted (s.fdc n) (s.fdc n).ditherNext c = true) (h15 : 15 ≤ s.ch[n].accN) (h3 : s.ch[n].accN % 4 = 3) :
    takeCycle n s c = giveResult (accumulate (cycleTaken s n c) n (s.fdc n).ditherNext c) n := by
  have hN := accumulate_accN (s := cycleTaken s n c) (n := n) ((cycleTaken_accepted c hk (s.fdc n).ditherNext).trans ha)
  obtain ⟨fd, hfd⟩ := cycleTaken_fd s n c
  have hN2 : (accumulate (cycleTaken s n c) n (s.fdc n).ditherNext c).ch[n].accN = s.ch[n].accN + 1 := by rw [hN, hfd]
  rw [takeCycle_ended hlen]
  dsimp only
  rw [hN2, if_neg]
  generalize s.ch[n].accN = N at h15 h3
  simp only [Bool.or_eq_true, decide_eq_true_iff]
  omega

/-- Accumulation does not read the field die but for the cycle's acceptance. -/
theorem accumulate_cycleTaken {s : State} {n : Chan} {c : DitherCycle} (hk : fdKind (s.fdc n) = kindDO) {t0 : W64}
    (ha : cycleAccepted (s.fdc n) t0 c = true) :
    accumulate (cycleTaken s n c) n t0 c = { accumulate s n t0 c with fd := (cycleTaken s n c).fd } := by
  have h2 := (cycleTaken_accepted c hk t0).trans ha
  obtain ⟨fd, hfd⟩ := cycleTaken_fd s n c
  rw [accumulate, if_pos h2, accumulate, if_pos ha, hfd]
  rfl

/-- The channel's record with one accepted cycle more in its window. -/
def gathered (len : Nat) (t0 : W64) (c : DitherCycle) (x : Channel) : Channel :=
  { x with acc := (cycleSum len t0 c :: x.acc).take 16, accN := x.accN + 1 }

theorem accumulate_ch {s : State} {n : Chan} {c : DitherCycle} (hk : fdKind (s.fdc n) = kindDO) {t0 : W64}
    (ha : cycleAccepted (s.fdc n) t0 c = true) :
    (accumulate (cycleTaken s n c) n t0 c).ch = modAt s.ch n (gathered (cycleLen (s.crec n)) t0 c) := by
  rw [accumulate_cycleTaken hk ha, accumulate, if_pos ha]
  rfl

theorem judgeStrings_keeps (s : State) (n : Chan) (g : Int) :
    (judgeStrings s n g).ch[n].p.gMeas = s.ch[n].p.gMeas ∧ (judgeStrings s n g).ch[n].accN = s.ch[n].accN := by
  unfold judgeStrings
  split <;> rw [State.modCh_ch, modAt_self] <;> exact ⟨rfl, rfl⟩

theorem giveResult_measured {s : State} {n : Chan} {v : Int} (ho : windowOld s n = false) (he : s.enrol[n] = none) (hg : windowG s n = some v) :
    (giveResult s n).ch[n].p.gMeas = toW32 v ∧ (giveResult s n).ch[n].accN = s.ch[n].accN ∧
    SameOutside [.ch, .ev, .img, .port] s (giveResult s n) := by
  have e : giveResult s n = evalLamp (judgeStrings (s.modCh n fun c => { c with p := { c.p with gMeas := toW32 v } }) n v) n := by
    unfold giveResult
    rw [if_neg (by rw [ho]; decide)]
    dsimp only
    rw [he, hg]
  rw [e]
  have hr := evalLamp_rec (judgeStrings (s.modCh n fun c => { c with p := { c.p with gMeas := toW32 v } }) n v) n n
  obtain ⟨h1, h2⟩ := judgeStrings_keeps (s.modCh n fun c => { c with p := { c.p with gMeas := toW32 v } }) n v
  rw [State.modCh_ch, modAt_self] at h1 h2
  refine ⟨(hr.get (fun c => c.p.gMeas) fun _ => rfl).trans h1, (hr.get Channel.accN fun _ => rfl).trans h2, ?_⟩
  exact (Moves.step (evalLamp_moves ..) rfl (Moves.step (judgeStrings_moves ..) rfl ((State.modCh_moves ..).widen rfl))).same

theorem completes_correlatorResult {s : State} {n : Chan} (hr : s.execRuns = true) {c : DitherCycle} (hk : s.ch[n].kind = kindDO)
    (hp : pProveEn (s.crec n) = true) (he : pSndEn (s.crec n) = true) (ht : s.ch[n].retired = false) (hs : sounding s = true)
    (hf : fdKind (s.fdc n) = kindDO) (hd : (s.fdc n).dither = true)
    (hlen : cycleLen (s.fdc n).cfg ≤ (s.fd.tick - (s.fdc n).ditherNext).toNat) :
    (cycleAccepted (s.fdc n) (s.fdc n).ditherNext c = false →
      Completes (.correlatorResult n [c]) s fun t =>
        (t.fdc n).ditherNext = (s.fdc n).ditherNext + BitVec.ofNat 64 (cycleLen (s.fdc n).cfg) ∧ (t.fdc n).iRef = c.iHigh.toNat ∧
        (t.fdc n).iLow = (divRound (c.iHigh.toNat * (100 - pDither (s.fdc n).cfg)) 100).toNat ∧ FieldFrame n s t) ∧
    (cycleAccepted (s.fdc n) (s.fdc n).ditherNext c = true →
      (s.ch[n].accN < 15 ∨ s.ch[n].accN % 4 ≠ 3 →
        Completes (.correlatorResult n [c]) s fun t =>
          t.ch[n].accN = s.ch[n].accN + 1 ∧
          t.ch[n].acc = (cycleSum (cycleLen (s.crec n)) (s.fdc n).ditherNext c :: s.ch[n].acc).take 16 ∧
          t.ch[n].p = s.ch[n].p ∧ (∀ m : Chan, m ≠ n → t.ch[m] = s.ch[m]) ∧ SameOutside [.fd, .ch] s t) ∧
      (∀ v, 15 ≤ s.ch[n].accN → s.ch[n].accN % 4 = 3 → windowOld (accumulate s n (s.fdc n).ditherNext c) n = false → s.enrol[n] = none →
        windowG (accumulate s n (s.fdc n).ditherNext c) n = some v →
        Completes (.correlatorResult n [c]) s fun t =>
          t.ch[n].p.gMeas = toW32 v ∧ t.ch[n].accN = s.ch[n].accN + 1 ∧ SameOutside [.fd, .ch, .ev, .img, .port] s t)) := by
  have e := exec_correlatorResult_one (c := c) hr hk hp he ht hs hd
  refine ⟨fun ha => ?_, fun ha => ⟨fun hn => ?_, fun v h15 h3 ho hen hg => ?_⟩⟩
  · rw [takeCycle_refused hf hlen ha] at e
    refine ⟨_, e, ?_, ?_, ?_, FieldStep.frame (modHalves_step s n _ (by intro _; rfl))⟩ <;> rw [cycleTaken_self c hf] <;> rfl
  · have hs2 : SameOutside [.fd, .ch] s (accumulate (cycleTaken s n c) n (s.fdc n).ditherNext c) :=
      (Moves.step (accumulate_moves ..) rfl ((modHalves_moves ..).widen rfl)).same
    rw [takeCycle_gathered hf hlen ha hn] at e
    refine ⟨_, e, ?_, ?_, ?_, fun m hm => ?_, hs2⟩ <;> rw [accumulate_ch hf ha]
    · rw [modAt_self]
      rfl
    · rw [modAt_self]
      rfl
    · rw [modAt_self]
      rfl
    · exact modAt_of_ne _ _ hm
  · have hs2 : SameOutside [.fd, .ch] s (accumulate (cycleTaken s n c) n (s.fdc n).ditherNext c) :=
      (Moves.step (accumulate_moves ..) rfl ((modHalves_moves ..).widen rfl)).same
    rw [takeCycle_result hf hlen ha h15 h3] at e
    obtain ⟨h1, h2, h3⟩ := giveResult_measured (s := accumulate (cycleTaken s n c) n (s.fdc n).ditherNext c) (n := n) (v := v)
      (by rw [accumulate_cycleTaken hf ha]; exact ho) (by rw [hs2.enrol rfl]; exact hen) (by rw [accumulate_cycleTaken hf ha]; exact hg)
    have hN : (accumulate (cycleTaken s n c) n (s.fdc n).ditherNext c).ch[n].accN = s.ch[n].accN + 1 := by
      rw [accumulate_ch hf ha, modAt_self]
      rfl
    refine ⟨_, e, ?_⟩
    generalize accumulate (cycleTaken s n c) n (s.fdc n).ditherNext c = a at *
    exact ⟨h1, h2.trans hN, SameOutside.step h3 rfl (hs2.widen rfl)⟩

theorem completes_evidenceExpiry {s : State} {n : Chan} (hr : s.execRuns = true) (hf : fresh s n s.ch[n].p.estTick = false) :
    Completes (.evidenceExpiry n) s fun t => t.ch[n].p.estValid = false ∧ SameOutside [.ch, .ev, .img, .port] s t := by
  have e : exec (.evidenceExpiry n) s = .next _ := congrArg Host.Outcome.next (if_pos hr)
  refine ⟨_, e, ?_, (Moves.step (evalLamp_moves ..) rfl ((State.modCh_moves ..).widen rfl)).same⟩
  refine ((evalLamp_rec _ n n).get (fun c => c.p.estValid) fun _ => rfl).trans ?_
  rw [State.modCh_ch, modAt_self, hf]
  rfl

/-- Settles O12: the field die's part by the record that each of its commands stores; the executive's by the cycle taken into the accumulation. -/
theorem provingAtFieldDieAndExecutive : Obligations.ProvingAtFieldDieAndExecutive := by
  refine ⟨fun s n hon hpr => ?_, fun s n hr => ⟨fun c t0 len hk hp he ht hs hf hd e0 elen hlen => ?_, completes_evidenceExpiry hr⟩⟩
  · obtain ⟨hdecl, hclr, hdrv⟩ := completes_phantom hon hpr
    exact ⟨fun w held => completes_windowDeclare hon hpr, fun iRef => completes_ditherStart hon hpr,
      fun v0 v1 i1 vfld => completes_offStatePulse hon hpr, hdecl, hclr, hdrv, fun m => completes_pathCheck hon hpr⟩
  · subst e0 elen
    exact completes_correlatorResult hr hk hp he ht hs hf hd hlen

end Sys2Proof.Machine
end

section
namespace Sys2Proof.Machine

/-! ## Acceptance of a field→logic frame -/

/-- What an acknowledgement changes in the Breakwater: its sender's frames, and the lane that it proves up. -/
def AckRec (b c : Breakwater) : Prop :=
  c = { b with waiting := c.waiting, txSeq := c.txSeq, unacked := c.unacked, l2fUp := c.l2fUp }

theorem AckRec.trans {b c d : Breakwater} (h : AckRec b c) (k : AckRec c d) : AckRec b d := by
  unfold AckRec at *
  rw [k, h]

theorem AckRec.get {b c : Breakwater} (h : AckRec b c) {α : Type} (g : Breakwater → α)
    (hg : ∀ e : Breakwater, g { b with waiting := e.waiting, txSeq := e.txSeq, unacked := e.unacked, l2fUp := e.l2fUp } = g b) : g c = g b :=
  (congrArg g h).trans (hg c)

theorem bwRefill_rec (s : State) (k : Nat) : AckRec s.bw (bwRefill s k).bw := by
  induction k generalizing s with
  | zero => rfl
  | succ k ih =>
    unfold bwRefill
    split
    · rfl
    · split
      · rfl
      · split
        · rfl
        · refine AckRec.trans ?_ (ih _)
          rfl

theorem bwAck_rec (s : State) (a : Byte) : AckRec s.bw (bwAck s a).bw := by
  unfold bwAck
  split
  · refine AckRec.trans ?_ (bwRefill_rec _ 16)
    rfl
  · rfl

/-- A valid frame of lane 0 ends the lane's run of failed frames and tells of ebb mode; its ACK frees what it names. -/
theorem bwValid_lane0 (s : State) (h : BwHeader) :
    AckRec { s.bw with ebb := bitAt h.flags 2, fail0 := 0 } (bwValid s false h).bw :=
  bwAck_rec { s with bw := { s.bw with ebb := bitAt h.flags 2, fail0 := 0 } } h.ack

theorem bwValid_lane1 (s : State) (h : BwHeader) :
    AckRec { s.bw with ebb := bitAt h.flags 2, fail1 := 0 } (bwValid s true h).bw :=
  bwAck_rec { s with bw := { s.bw with ebb := bitAt h.flags 2, fail1 := 0 } } h.ack

/-! ## Heartbeats -/

theorem seq_ahead {d : Nat} (h1 : 1 ≤ d) (h16 : d ≤ 16) : (decide (d = 0) || decide (16 < d)) = false := by
  simp; omega

theorem completes_idle_f2l0 {s : State} {h : BwHeader} (hf : frameOk h tyIdle = true) (ha : s.fd.alive = true) (hup : s.bw.f2l0Up = true)
    (h1 : 1 ≤ (h.seq - s.bw.idle0).toNat) (h16 : (h.seq - s.bw.idle0).toNat ≤ 16) :
    Completes (.idleFrame .f2l0 h) s fun t =>
      t.bw.idle0 = h.seq ∧ t.bw.fail0 = 0 ∧ t.bw.crcErr = s.bw.crcErr ∧ t.bw.ebb = bitAt h.flags 2 ∧ SameOutside [.bw] s t := by
  have e : exec (.idleFrame .f2l0 h) s = .next (bwValid { s with bw := { s.bw with idle0 := h.seq } } false h) := by
    show execIdleFrame .f2l0 h s = _
    simp only [execIdleFrame, bwTakePlain, hup, ha, hf, Bool.or_assoc, seq_ahead h1 h16, Bool.false_eq_true, if_false, Bool.not_true,
      Bool.or_self, id]
  have hb := bwValid_lane0 { s with bw := { s.bw with idle0 := h.seq } } h
  exact ⟨_, e, hb.get Breakwater.idle0 fun _ => rfl, hb.get Breakwater.fail0 fun _ => rfl, hb.get Breakwater.crcErr fun _ => rfl,
      hb.get Breakwater.ebb fun _ => rfl,
    SameOutside.step (bwValid_moves ..).same rfl (SameOutside.set_bw ..)⟩

theorem completes_idle_f2l1 {s : State} {h : BwHeader} (hf : frameOk h tyIdle = true) (ha : s.fd.alive = true) (hup : s.bw.f2l1Up = true)
    (h1 : 1 ≤ (h.seq - s.bw.idle1).toNat) (h16 : (h.seq - s.bw.idle1).toNat ≤ 16) :
    Completes (.idleFrame .f2l1 h) s fun t =>
      t.bw.idle1 = h.seq ∧ t.bw.fail1 = 0 ∧ t.bw.crcErr = s.bw.crcErr ∧ t.bw.ebb = bitAt h.flags 2 ∧ SameOutside [.bw] s t := by
  have e : exec (.idleFrame .f2l1 h) s = .next (bwValid { s with bw := { s.bw with idle1 := h.seq } } true h) := by
    show execIdleFrame .f2l1 h s = _
    simp only [execIdleFrame, bwTakePlain, hup, ha, hf, Bool.or_assoc, seq_ahead h1 h16, Bool.false_eq_true, if_false, if_true, Bool.not_true,
      Bool.or_self, id]
  have hb := bwValid_lane1 { s with bw := { s.bw with idle1 := h.seq } } h
  exact ⟨_, e, hb.get Breakwater.idle1 fun _ => rfl, hb.get Breakwater.fail1 fun _ => rfl, hb.get Breakwater.crcErr fun _ => rfl,
      hb.get Breakwater.ebb fun _ => rfl,
    SameOutside.step (bwValid_moves ..).same rfl (SameOutside.set_bw ..)⟩

theorem completes_idle_l2f {s : State} {h : BwHeader} (hf : frameOk h tyIdle = true) (ha : s.fd.alive = true) (hup : s.fd.l2fUp = true)
    (htx : s.txRuns = true) (h1 : 1 ≤ (h.seq - s.fd.idle).toNat) (h16 : (h.seq - s.fd.idle).toNat ≤ 16) :
    Completes (.idleFrame .l2f h) s fun t =>
      t.fd = { s.fd with idle := h.seq, fail := 0, unacked := t.fd.unacked } ∧ SameOutside [.fd] s t := by
  have e : exec (.idleFrame .l2f h) s = .next (fdValid { s with fd := { s.fd with idle := h.seq } } h.ack) := by
    show execIdleFrame .l2f h s = _
    simp only [execIdleFrame, fdTakeIdle, hup, ha, hf, htx, Bool.or_assoc, seq_ahead h1 h16, Bool.false_eq_true, if_false, Bool.not_true,
      Bool.or_self]
  exact ⟨_, e, rfl, SameOutside.set_fd ..⟩

/-! ## Frames of lane 1 that are discarded -/

/-- Forming a frame changes the field die only, and leaves it alive. -/
structure Formed (s t : State) : Prop where
  same : SameOutside [.fd] s t
  alive : t.fd.alive = s.fd.alive

theorem formStatus_formed (s : State) (seq : Byte) (raw : W16) : Formed s (formStatus s seq raw) where
  same := (formStatus_moves ..).same
  alive := by
    unfold formStatus
    split <;> rfl

theorem formEvent_formed (s : State) (seq : Byte) : Formed s (formEvent s seq) where
  same := (formEvent_moves ..).same
  alive := by
    unfold formEvent
    dsimp only
    generalize (if s.fd.slack = true then (([] : List Report), s.fd.events) else oneFrame s.fd.events) = x
    split <;> rfl

theorem formHk_formed (s : State) (seq : Byte) (sums : List (Fin 24 × Nat)) (missed : Bool) : Formed s (formHk s seq sums missed) where
  same := (formHk_moves ..).same
  alive := by
    unfold formHk
    split <;> rfl

/-- The eighth failed frame in a row loses lane 1. -/
theorem bwFailed_eighth {s : State} (h : 7 ≤ s.bw.fail1) :
    (bwFailed s true).bw = { s.bw with crcErr := satInc s.bw.crcErr, f2l1Up := false, fail1 := 0, retrain := satInc s.bw.retrain } ∧
    SameOutside [.recov, .bw, .ch, .ev, .img, .port] s (bwFailed s true) := by
  have e : bwFailed s true = f2lLost (bwDiscard { s with bw := { s.bw with fail1 := s.bw.fail1 + 1 } }) true :=
    if_pos (show 8 ≤ s.bw.fail1 + 1 by omega)
  rw [e]
  unfold f2lLost
  have hl := (laneChanged_moves (laneDown { (bwDiscard { s with bw := { s.bw with fail1 := s.bw.fail1 + 1 } }) with
    recov := { (bwDiscard { s with bw := { s.bw with fail1 := s.bw.fail1 + 1 } }).recov with lanesUpSince := none } } true)).same
  refine ⟨hl.bw rfl, SameOutside.step hl rfl ?_⟩
  have h1 : SameOutside [.recov, .bw, .ch, .ev, .img, .port] s (laneDown (bwDiscard { s with bw := { s.bw with fail1 := s.bw.fail1 + 1 } }) true) :=
    (SameOutside.set_bw s _).widen rfl
  exact (SameOutside.set_recov _ _).step rfl h1

theorem bwFailed_early {s : State} (h : s.bw.fail1 < 7) :
    bwFailed s true = { s with bw := { s.bw with crcErr := satInc s.bw.crcErr, fail1 := s.bw.fail1 + 1 } } :=
  if_neg (show ¬ 8 ≤ s.bw.fail1 + 1 by omega)

/-- A frame of lane 1 that fails its check. -/
theorem takeRetx_failed {s s' : State} {h : BwHeader} {ty : Byte} {f : F2L → State → State} (hform : Formed s s')
    (hup : s.bw.f2l1Up = true) (ha : s.fd.alive = true) (hf : frameOk h ty = false) : FailedFrame s (bwTakeRetx s' h ty f) := by
  have hbw : s'.bw = s.bw := hform.same.bw rfl
  have e : bwTakeRetx s' h ty f = bwFailed s' true := by
    simp only [bwTakeRetx, hbw, hup, hform.alive, ha, hf, Bool.not_true, Bool.not_false, Bool.or_self, Bool.false_eq_true, if_false, if_true]
  rw [e]
  refine ⟨fun h7 => ?_, fun h7 => ?_⟩
  · rw [bwFailed_early (by rw [hbw]; exact h7), hbw]
    exact ⟨rfl, SameOutside.step (SameOutside.set_bw ..) rfl (hform.same.widen rfl)⟩
  · obtain ⟨hb, hs⟩ := bwFailed_eighth (s := s') (by rw [hbw]; exact h7)
    rw [hb, hbw]
    exact ⟨rfl, rfl, rfl, SameOutside.step hs rfl (hform.same.widen rfl)⟩

/-- A frame of lane 1 with another number than the next. -/
theorem takeRetx_skipped {s s' : State} {h : BwHeader} {ty : Byte} {f : F2L → State → State} (hform : Formed s s')
    (hup : s.bw.f2l1Up = true) (ha : s.fd.alive = true) (hf : frameOk h ty = true) (hn : h.seq ≠ s.bw.rxNext) :
    SkippedFrame s (bwTakeRetx s' h ty f) := by
  have hbw : s'.bw = s.bw := hform.same.bw rfl
  have e : bwTakeRetx s' h ty f = bwDiscard s' := by
    simp only [bwTakeRetx, hbw, hup, hform.alive, ha, hf, Bool.not_true, Bool.or_self, Bool.false_eq_true, if_false, hn, ne_eq,
      not_false_eq_true, if_true]
  rw [e, bwDiscard, hbw]
  exact ⟨rfl, SameOutside.step (SameOutside.set_bw ..) rfl (hform.same.widen rfl)⟩

/-- Settles O13: a heartbeat is valid while its number lies ahead; the frames of lane 1 share their discards, whatever they would have carried. -/
theorem heartbeatsAndDiscards : Obligations.HeartbeatsAndDiscards := by
  refine ⟨fun s h hf ha => ⟨completes_idle_f2l0 hf ha, completes_idle_f2l1 hf ha, completes_idle_l2f hf ha⟩, fun s h hup ha => ?_⟩
  have hst := fun raw => formStatus_formed s h.seq raw
  have hev := formEvent_formed s h.seq
  have hhk := fun sums missed => formHk_formed s h.seq sums missed
  exact ⟨fun raw => ⟨fun hf => ⟨_, rfl, takeRetx_failed (hst raw) hup ha hf⟩, fun hf hn => ⟨_, rfl,
      takeRetx_skipped (hst raw) hup ha hf hn⟩⟩,
    fun hf => ⟨_, rfl, takeRetx_failed hev hup ha hf⟩, fun hf hn => ⟨_, rfl, takeRetx_skipped hev hup ha hf hn⟩,
    fun sums missed => ⟨fun hf => ⟨_, rfl, takeRetx_failed (hhk sums missed) hup ha hf⟩,
      fun hf hn => ⟨_, rfl, takeRetx_skipped (hhk sums missed) hup ha hf hn⟩⟩⟩

end Sys2Proof.Machine
end

section
namespace Sys2Proof.Machine

/-! ## What the executive leaves of the field die when it takes reports -/

/-- Of the field die only its channels' records have changed. -/
def FdChans (s t : State) : Prop := t.fd = { s.fd with ch := t.fd.ch }

theorem FdChans.of_eq {s t : State} (h : t.fd = s.fd) : FdChans s t := by
  unfold FdChans
  rw [h]

theorem FdChans.trans {s t u : State} (h : FdChans s t) (k : FdChans t u) : FdChans s u := by
  unfold FdChans at *
  rw [k, h]

theorem FdChans.get {s t : State} (h : FdChans s t) {α : Type} (g : FieldDie → α)
    (hg : ∀ c, g { s.fd with ch := c } = g s.fd) : g t.fd = g s.fd :=
  (congrArg g h).trans (hg _)

theorem enterStop_fdChans (s : State) (cause : Byte) : FdChans s (enterStop s cause) := by
  unfold enterStop
  split
  · exact FdChans.of_eq rfl
  · have h0 : (refuseLeaving (discardReduced (discardSafe s cause)) rcWrongMode (put 0 Mode.stop.code)).fd = s.fd := by
      rw [(refuseLeaving_moves ..).same.fd rfl, (discardReduced_moves ..).same.fd rfl, (discardSafe_moves ..).same.fd rfl]
    have h1 : FdChans s (ditherStop (refuseLeaving (discardReduced (discardSafe s cause)) rcWrongMode (put 0 Mode.stop.code))) := by
      unfold FdChans ditherStop
      rw [h0]
    refine h1.trans (FdChans.of_eq ?_)
    dsimp only
    rw [(stageStop_moves ..).same.fd rfl, (portsDown_moves ..).same.fd rfl, (wheelsStop_moves ..).same.fd rfl, (commandSafeAll_moves ..).same.fd rfl,
      ((setMode_moves ..).same.fd rfl), (markSafe_moves ..).same.fd rfl]
    exact (dropStepFive_moves ..).same.fd rfl

/-- Only a fatal fault reported reaches the field die: STOP ends its dither. -/
theorem takeReport_fdChans (s : State) (r : Report) : FdChans s (takeReport s r) := by
  cases r <;> dsimp only [takeReport]
  case di n level tick => exact .of_eq ((takeDi_moves ..).same.fd rfl)
  case diClass n c => exact .of_eq ((takeDiClass_moves ..).same.fd rfl)
  case senseDiff n on => exact .of_eq ((refresh_moves ..).same.fd rfl)
  case pairImbal n on => exact .of_eq ((refresh_moves ..).same.fd rfl)
  case short n on => exact .of_eq ((takeShort_moves ..).same.fd rfl)
  case openLoop n on => exact .of_eq ((refresh_moves ..).same.fd rfl)
  case block n isOpen => exact .of_eq ((takeBlock_moves ..).same.fd rfl)
  case wiring n reverse on held => exact .of_eq ((takeWiring_moves ..).same.fd rfl)
  case transient n => exact .of_eq ((resetChannel_moves ..).same.fd rfl)
  case doReverse n on =>
    refine .of_eq ?_
    split
    · exact ((raiseWire_moves ..).same.fd rfl).trans ((refresh_moves ..).same.fd rfl)
    · exact ((tryRestartNow_moves ..).same.fd rfl).trans ((refresh_moves ..).same.fd rfl)
  case backfeed n on event =>
    refine .of_eq ?_
    split
    · split
      · exact ((raiseWire_moves ..).same.fd rfl).trans ((refresh_moves ..).same.fd rfl)
      · exact (refresh_moves ..).same.fd rfl
    · exact ((tryRestartNow_moves ..).same.fd rfl).trans ((refresh_moves ..).same.fd rfl)
  case trip n bit cool inLimit ma tj tick => exact .of_eq ((takeTrip_moves ..).same.fd rfl)
  case cooling n bit on tj tick =>
    refine .of_eq ?_
    split
    · exact ((evalLamp_moves ..).same.fd rfl).trans ((raiseProt_moves ..).same.fd rfl)
    · exact ((tryRestartNow_moves ..).same.fd rfl).trans ((evalLamp_moves ..).same.fd rfl)
  case ocCleared n => exact .of_eq ((evalLamp_moves ..).same.fd rfl)
  case restarted n => exact .of_eq rfl
  case restartMissed n => exact .of_eq rfl
  case flood n running limited => exact .of_eq ((evalLamp_moves ..).same.fd rfl)
  case clampEnd n eLast eEst eAllow => exact .of_eq rfl
  case switched n on tick => exact .of_eq ((takeSwitched_moves ..).same.fd rfl)
  case window n w => exact .of_eq ((evalLamp_moves ..).same.fd rfl)
  case pulse n c agree rload tick => exact .of_eq ((takePulse_moves ..).same.fd rfl)
  case phantom n declared engaged driven => exact .of_eq ((takePhantom_moves ..).same.fd rfl)
  case pathCheck n fail tick => exact .of_eq ((takePathCheck_moves ..).same.fd rfl)
  case level n lit =>
    refine .of_eq ?_
    split
    · exact ((tryRestartNow_moves ..).same.fd rfl).trans ((evalLamp_moves ..).same.fd rfl)
    · exact (evalLamp_moves ..).same.fd rfl
  case late n => exact .of_eq rfl
  case turnOnRefused n => exact .of_eq ((evalLamp_moves ..).same.fd rfl)
  case riseRefused n on code sel => exact .of_eq ((takeRiseRefused_moves ..).same.fd rfl)
  case ditherCut n => exact .of_eq ((discardAcc_moves ..).same.fd rfl)
  case compliance n bit on => exact .of_eq ((takeCompliance_moves ..).same.fd rfl)
  case supply band => exact .of_eq ((takeSupply_moves ..).same.fd rfl)
  case lastGasp r retained => exact .of_eq ((takeGasp_moves ..).same.fd rfl)
  case almsel b => exact .of_eq ((takeAlmsel_moves ..).same.fd rfl)
  case button zero ended ms both => exact .of_eq ((takeButton_moves ..).same.fd rfl)
  case diRaw levels => exact .of_eq ((takeRaw_moves ..).same.fd rfl)
  case heat e => exact .of_eq rfl
  case restated n c => exact .of_eq (((refresh_moves ..).same.fd rfl).trans ((evalLamp_moves ..).same.fd rfl))
  case configured waits => exact .of_eq ((takeConfigured_moves ..).same.fd rfl)
  case changedOver n gone => exact .of_eq ((takeChangeover_moves ..).same.fd rfl)
  case vloop falling => exact .of_eq (((raise_moves ..).same.fd rfl).trans ((putSupply_moves ..).same.fd rfl))
  case refReady => exact .of_eq ((evalAll_moves ..).same.fd rfl)
  case refNow b =>
    refine .of_eq ?_
    split
    · rfl
    · exact (evalAll_moves ..).same.fd rfl
  case fatal off => exact enterStop_fdChans s 0x10
  case seqTimer => exact .of_eq rfl
  case microRam => exact .of_eq ((startFieldReinit_moves ..).same.fd rfl)
  case slackSeen overwritten => exact .of_eq ((raise_moves ..).same.fd rfl)
  case safeApplied =>
    refine .of_eq ?_
    split
    · rfl
    · exact ((refreshAll_moves ..).same.fd rfl).trans
        ((Moves.foldl (ps := [.ch, .ev, .img, .port, .conv, .loop]) (fun _ _ => noteSafe_moves ..) ((markSafe_moves ..).widen rfl)).same.fd rfl)

theorem takeReports_fdChans (s : State) (rs : List Report) : FdChans s (takeReports s rs) := by
  unfold takeReports
  induction rs generalizing s with
  | nil => exact .of_eq rfl
  | cons r rs ih => exact (takeReport_fdChans s r).trans (ih _)

theorem deliver_fdChans (s : State) (rs : List Report) : FdChans s (deliver s rs) := by
  unfold deliver
  split
  · exact takeReports_fdChans s rs
  · split <;> exact .of_eq rfl

/-- Reports that the executive cannot take are buffered in order while there is room. -/
theorem deliver_buffered {s : State} {rs : List Report} (hr : s.execRuns = false) (hb : s.bw.buffered.length < 256) :
    deliver s rs = { s with bw := { s.bw with buffered := s.bw.buffered ++ [rs] } } := by
  rw [deliver, hr, if_neg Bool.false_ne_true, if_pos hb]

/-! ## Acceptance of a frame of lane 1 -/

/-- The logic die once it has accepted the next frame of lane 1. -/
def accepted (s : State) (h : BwHeader) : State := bwValid { s with bw := { s.bw with rxNext := s.bw.rxNext + 1 } } true h

theorem accepted_same (s : State) (h : BwHeader) : SameOutside [.bw] s (accepted s h) :=
  SameOutside.step (bwValid_moves ..).same rfl (SameOutside.set_bw ..)

theorem execRuns_same {ps : List Part} {s t : State} (h : SameOutside ps s t) (hm : ps.contains .m = false)
    (hr : ps.contains .recov = false) (ht : ps.contains .triad = false) : t.execRuns = s.execRuns := by
  rw [State.execRuns, h.m hm, h.recov hr, h.triad ht, State.execRuns]

theorem accepted_rec (s : State) (h : BwHeader) :
    AckRec { s.bw with rxNext := s.bw.rxNext + 1, ebb := bitAt h.flags 2, fail1 := 0 } (accepted s h).bw :=
  bwValid_lane1 _ h

theorem takeRetx_accepted {s : State} {h : BwHeader} {ty : Byte} {b : F2L} (f : F2L → State → State) (hup : s.bw.f2l1Up = true)
    (ha : s.fd.alive = true) (hf : frameOk h ty = true) (hn : h.seq = s.bw.rxNext) (hb : fdHeld s h.seq = some b) (hty : b.type = ty) :
    bwTakeRetx s h ty f = f b (accepted s h) := by
  unfold bwTakeRetx
  rw [hup, ha, hf, if_neg (by decide), if_neg (by decide), if_neg (not_not_intro hn), hb]
  exact if_pos hty

/-- What is delivered of an accepted frame: nothing of the field die's sender changes, and what the executive cannot take is buffered. -/
theorem delivered {s a : State} {h : BwHeader} (rs : List Report) (hs : SameOutside [.fd, .bw] s a) (hn : h.seq = s.bw.rxNext)
    (hbuf : a.bw.buffered = s.bw.buffered) (hrx : a.bw.rxNext = s.bw.rxNext + 1) :
    FdChans a (deliver a rs) ∧ (s.execRuns = false → s.bw.buffered.length < 256 →
      (deliver a rs).bw.buffered = s.bw.buffered ++ [rs] ∧ (deliver a rs).bw.rxNext = h.seq + 1) := by
  refine ⟨deliver_fdChans a rs, fun hr hb => ?_⟩
  rw [deliver_buffered ((execRuns_same hs rfl rfl rfl).trans hr) (by rwa [hbuf])]
  exact ⟨by rw [hbuf], by rw [hrx, hn]⟩

/-! ## Frames that the field die forms -/

/-- A frame just formed is held under its number. -/
theorem fdHeld_fdSend {s : State} {q : Byte} (b : F2L) (hm : fdMaySend s q = true) (hh : fdHeld s q = none) : fdHeld (fdSend s b) q = some b := by
  have hq : q = s.fd.txSeq := by
    unfold fdMaySend at hm
    simp only [Bool.and_eq_true, decide_eq_true_iff] at hm
    exact hm.1.2
  unfold fdHeld at hh ⊢
  rw [Option.map_eq_none_iff] at hh
  rw [fdSend, List.find?_append, hh, Option.none_or, List.find?_cons_of_pos (by simp [hq])]
  rfl

theorem fdMaySend_status {s : State} {q : Byte} (l : List Report) : fdMaySend { s with fd := { s.fd with status := l } } q = fdMaySend s q := rfl

theorem completes_newStatus {s : State} {h : BwHeader} {raw : W16} (hup : s.bw.f2l1Up = true) (ha : s.fd.alive = true) (hn : h.seq = s.bw.rxNext)
    (hm : fdMaySend s h.seq = true) (hh : fdHeld s h.seq = none) (hs : s.fd.slack = false) (he : s.fd.events = [])
    (hf : frameOk h tyStatus = true) :
    Completes (.statusFrame h raw) s fun t =>
      t.fd.status = [] ∧ t.fd.events = [] ∧ t.fd.txSeq = s.fd.txSeq + 1 ∧
      (s.execRuns = false → s.bw.buffered.length < 256 →
        t.bw.buffered = s.bw.buffered ++
          [[.almsel s.fd.almsel, .heat (s.fd.ch.map (·.eEst))] ++
            (if s.fd.status.contains .refReady && s.fd.refReady then [] else [.refNow s.fd.refReady]) ++ s.fd.status ++ [.diRaw raw]] ∧
        t.bw.rxNext = h.seq + 1) := by
  let b : F2L := .status s.fd.status { refReady := s.fd.refReady, almsel := s.fd.almsel, raw := raw, heat := s.fd.ch.map (·.eEst) }
  have hform : formStatus s h.seq raw = fdSend { s with fd := { s.fd with status := [] } } b := by
    unfold formStatus
    rw [hm, hs, he]
    rfl
  have hb : fdHeld (formStatus s h.seq raw) h.seq = some b := by
    rw [hform]
    exact fdHeld_fdSend b hm hh
  have hst := formStatus_formed s h.seq raw
  have e : exec (.statusFrame h raw) s = .next (takeStatus (accepted (formStatus s h.seq raw) h) s.fd.status _) :=
    congrArg Host.Outcome.next (takeRetx_accepted _ (by rw [hst.same.bw rfl]; exact hup) (hst.alive.trans ha) hf
      (by rw [hst.same.bw rfl]; exact hn) hb rfl)
  have hacc := accepted_same (formStatus s h.seq raw) h
  have hrec := accepted_rec (formStatus s h.seq raw) h
  rw [hst.same.bw rfl] at hrec
  obtain ⟨hfd, hbuf⟩ := delivered (s := s) (a := accepted (formStatus s h.seq raw) h) (h := h)
    ([.almsel s.fd.almsel, .heat (s.fd.ch.map (·.eEst))] ++
      (if s.fd.status.contains .refReady && s.fd.refReady then [] else [.refNow s.fd.refReady]) ++ s.fd.status ++ [.diRaw raw])
    (SameOutside.step hacc rfl (hst.same.widen rfl)) hn (hrec.get Breakwater.buffered fun _ => rfl) (hrec.get Breakwater.rxNext fun _ => rfl)
  have hfd0 : (accepted (formStatus s h.seq raw) h).fd = (fdSend { s with fd := { s.fd with status := [] } } b).fd := by
    rw [hacc.fd rfl, hform]
  refine ⟨_, e, ?_, ?_, ?_, hbuf⟩
  · exact (hfd.get FieldDie.status fun _ => rfl).trans (by rw [hfd0]; rfl)
  · exact (hfd.get FieldDie.events fun _ => rfl).trans (by rw [hfd0]; exact he)
  · exact (hfd.get FieldDie.txSeq fun _ => rfl).trans (by rw [hfd0]; rfl)

theorem formEvent_new {s : State} {q : Byte} {rs : List Report} (hrs : rs = gaspDue s ++ (oneFrame s.fd.events).1) (hne : rs ≠ [])
    (hm : fdMaySend s q = true) (hs : s.fd.slack = false) :
    formEvent s q = fdSend { s with fd := { s.fd with events := (oneFrame s.fd.events).2 } } (.event rs) := by
  subst hrs
  unfold formEvent
  rw [hs, hm]
  exact if_neg (by simpa using hne)

theorem isStored_congr {s t : State} (h : t.fd.retained = s.fd.retained) : isStored t = isStored s := by
  funext r
  cases r <;> simp only [isStored, h]

/-- An EVENT frame accepted that carries `rs`, which the field die's sender holds. -/
theorem completes_eventHeld {s s' : State} {h : BwHeader} {rs : List Report} (hform : formEvent s h.seq = s') (hup : s.bw.f2l1Up = true)
    (ha : s.fd.alive = true) (hn : h.seq = s.bw.rxNext) (hb : fdHeld s' h.seq = some (.event rs)) (hf : frameOk h tyEvent = true) :
    Completes (.eventFrame h) s fun t =>
      FdChans { s' with fd := { s'.fd with retained := if rs.any (isStored s') then none else s'.fd.retained } } t ∧
      (s.execRuns = false → s.bw.buffered.length < 256 → t.bw.buffered = s.bw.buffered ++ [rs] ∧ t.bw.rxNext = h.seq + 1) := by
  have hev : Formed s s' := hform ▸ formEvent_formed s h.seq
  have hacc := accepted_same s' h
  have hrec := accepted_rec s' h
  rw [hev.same.bw rfl] at hrec
  have e : exec (.eventFrame h) s = .next (deliver { (accepted s' h) with
      fd := { (accepted s' h).fd with retained := if rs.any (isStored (accepted s' h)) then none else (accepted s' h).fd.retained } } rs) := by
    show Host.Outcome.next (bwTakeRetx (formEvent s h.seq) h tyEvent _) = _
    rw [hform, takeRetx_accepted _ (by rw [hev.same.bw rfl]; exact hup) (hev.alive.trans ha) hf (by rw [hev.same.bw rfl]; exact hn) hb rfl]
  rw [isStored_congr (congrArg FieldDie.retained (hacc.fd rfl)), hacc.fd rfl] at e
  obtain ⟨hfd, hbuf⟩ := delivered (s := s) (h := h) (a := { (accepted s' h) with
      fd := { s'.fd with retained := if rs.any (isStored s') then none else s'.fd.retained } }) rs
    (SameOutside.step (SameOutside.set_fd ..) rfl (SameOutside.step hacc rfl (hev.same.widen rfl))) hn
    (hrec.get Breakwater.buffered fun _ => rfl) (hrec.get Breakwater.rxNext fun _ => rfl)
  exact ⟨_, e, hfd, hbuf⟩

theorem completes_newEvent {s : State} {h : BwHeader} (hup : s.bw.f2l1Up = true) (ha : s.fd.alive = true) (hn : h.seq = s.bw.rxNext)
    {rs : List Report} (hrs : rs = gaspDue s ++ (oneFrame s.fd.events).1) (hne : rs ≠ []) (hm : fdMaySend s h.seq = true)
    (hh : fdHeld s h.seq = none) (hs : s.fd.slack = false) (hf : frameOk h tyEvent = true) :
    Completes (.eventFrame h) s fun t =>
      t.fd.events = (oneFrame s.fd.events).2 ∧ t.fd.status = s.fd.status ∧ t.fd.txSeq = s.fd.txSeq + 1 ∧
      t.fd.retained = (if rs.any (isStored s) then none else s.fd.retained) ∧
      (s.execRuns = false → s.bw.buffered.length < 256 → t.bw.buffered = s.bw.buffered ++ [rs] ∧ t.bw.rxNext = h.seq + 1) := by
  have hheld : fdHeld (fdSend { s with fd := { s.fd with events := (oneFrame s.fd.events).2 } } (.event rs)) h.seq = some (.event rs) :=
    fdHeld_fdSend _ hm hh
  obtain ⟨t, e, hfd, hbuf⟩ := completes_eventHeld (formEvent_new hrs hne hm hs) hup ha hn hheld hf
  refine ⟨t, e, hfd.get FieldDie.events fun _ => rfl, hfd.get FieldDie.status fun _ => rfl, hfd.get FieldDie.txSeq fun _ => rfl, ?_, hbuf⟩
  rw [hfd.get FieldDie.retained fun _ => rfl, isStored_congr (s := s) rfl]
  rfl

theorem completes_eventAgain {s : State} {h : BwHeader} (hup : s.bw.f2l1Up = true) (ha : s.fd.alive = true) (hn : h.seq = s.bw.rxNext)
    {rs : List Report} (hne : h.seq ≠ s.fd.txSeq) (hh : fdHeld s h.seq = some (.event rs)) (hf : frameOk h tyEvent = true) :
    Completes (.eventFrame h) s fun t =>
      t.fd.events = s.fd.events ∧ t.fd.txSeq = s.fd.txSeq ∧
      (s.execRuns = false → s.bw.buffered.length < 256 → t.bw.buffered = s.bw.buffered ++ [rs] ∧ t.bw.rxNext = h.seq + 1) := by
  have hform : formEvent s h.seq = s := if_pos (by simp [fdMaySend, hne])
  obtain ⟨t, e, hfd, hbuf⟩ := completes_eventHeld hform hup ha hn hh hf
  exact ⟨t, e, hfd.get FieldDie.events fun _ => rfl, hfd.get FieldDie.txSeq fun _ => rfl, hbuf⟩

/-! ## Acceptance at the field die -/

/-- The field die once it has accepted the next frame of the logic→field lane. -/
def fdAccepted (s : State) (h : BwHeader) : State := fdValid { s with fd := { s.fd with rxNext := s.fd.rxNext + 1 } } h.ack

theorem fdTakeRetx_accepted {s : State} {h : BwHeader} {ty : Byte} {x : BwTx} (f : L2F → State → State) (ha : s.fd.alive = true)
    (hup : s.fd.l2fUp = true) (htx : s.txRuns = true) (hf : frameOk h ty = true) (hn : h.seq = s.fd.rxNext)
    (hx : s.bw.unacked.find? (fun y => y.seq = h.seq) = some x) (hty : x.body.type = ty) :
    fdTakeRetx s h ty f = f x.body (fdAccepted s h) := by
  unfold fdTakeRetx
  rw [ha, hup, htx, hf, if_neg (by decide), if_neg (by decide), if_neg (not_not_intro hn), hx]
  exact if_pos hty

/-! ## The field die's own state under reports and demands -/

/-- Of the field die only its records, without their configuration, and its reports have changed. -/
structure FdKept (s t : State) : Prop where
  rest : t.fd = { s.fd with ch := t.fd.ch, events := t.fd.events, status := t.fd.status, overwritten := t.fd.overwritten }
  cfg : ∀ m : Chan, (t.fdc m).cfg = (s.fdc m).cfg

theorem FieldStep.kept {n : Chan} {s t : State} (h : FieldStep n s t) : FdKept s t := ⟨h.rest, h.cfg⟩

namespace FdKept

theorem refl (s : State) : FdKept s s := ⟨rfl, fun _ => rfl⟩

theorem of_eq {s t : State} (h : t.fd = s.fd) : FdKept s t := ⟨by rw [h], fun m => by rw [State.fdc, h, State.fdc]⟩

theorem trans {s t u : State} (h : FdKept s t) (k : FdKept t u) : FdKept s u :=
  ⟨by rw [k.rest, h.rest], fun m => (k.cfg m).trans (h.cfg m)⟩

/-- A part of the field die that reports and records are not. -/
theorem get {s t : State} (h : FdKept s t) {α : Type} (g : FieldDie → α)
    (hg : ∀ e : FieldDie, g { s.fd with ch := e.ch, events := e.events, status := e.status, overwritten := e.overwritten } = g s.fd) :
    g t.fd = g s.fd :=
  (congrArg g h.rest).trans (hg t.fd)

theorem foldl {β : Type} {f : State → β → State} (hf : ∀ a x, FdKept a (f a x)) (l : List β) (s : State) : FdKept s (l.foldl f s) := by
  induction l generalizing s with
  | nil => exact refl s
  | cons x l ih => exact (hf s x).trans (ih _)

end FdKept

/-! ## Configuration -/

theorem FieldStep.ite {n : Chan} {s t u : State} {c : Prop} [Decidable c] (h : FieldStep n s t) (k : FieldStep n s u) :
    FieldStep n s (if c then t else u) := by
  split
  · exact h
  · exact k

theorem configureNote_step (s a : State) (n : Chan) : FieldStep n a (configureDie.configureNote s a n) := by
  have hrep : ∀ {b : State} (c : Prop) [Decidable c] (r : Report), FieldStep n a b → FieldStep n a (if c then report b r else b) :=
    fun c _ r h => .ite (h.trans (.report _ n r)) h
  unfold configureDie.configureNote
  extract_lets old new a1 a2 a3 a4 a5 lit
  have h1 : FieldStep n a a1 := .ite (.reportStatus a n _) (.refl n a)
  have h2 : FieldStep n a a2 := hrep _ _ h1
  have h3 : FieldStep n a a3 := hrep _ _ h2
  have h4 : FieldStep n a a4 := hrep _ _ h3
  have h5 : FieldStep n a a5 := h4.trans (levelChar_step a4 n)
  exact FieldStep.trans (.ite h5 (h5.trans (.report _ n _))) (drive_step _ n)

theorem reclose_cfg (c : FdChan) : (reclose c).cfg = c.cfg := rfl

theorem configureChan_cfg (c : FdChan) (r : ChanRecord) (safe role : SafeState) (fresh : Bool) : (configureChan c r safe role fresh).cfg = r := by
  unfold configureChan
  simp only [apply_ite FdChan.cfg, reclose_cfg, ite_self]

/-- The record that a configuration gives channel `n` of the field die. -/
def configured (s : State) (g : Generation) (fresh : Bool) (n : Chan) : FdChan :=
  let c := s.fd.ch[n]
  let d := configureChan c g.chan[n] g.safe[n] g.safe[c.roleOf.getD n] fresh
  let d := if s.fd.ident.isNone then reclose d else d
  let d := if fdKind c ≠ fdKind d && pastMiswire s n d.cfg && !d.miswire then reclose { d with miswire := true } else d
  match runningChar c with
  | some k => if s.fd.chars = g.chars then d else { d with oldChar := if c.oldChar.isSome then c.oldChar else findChar s.fd.chars k }
  | none => d

theorem configured_cfg (s : State) (g : Generation) (fresh : Bool) (n : Chan) : (configured s g fresh n).cfg = g.chan[n] := by
  unfold configured
  extract_lets c d d2 d3
  have h2 : d2.cfg = g.chan[n] := by
    unfold d2
    split
    · rw [reclose_cfg]
      exact configureChan_cfg ..
    · exact configureChan_cfg ..
  have h3 : d3.cfg = g.chan[n] := by
    unfold d3
    split <;> exact h2
  split
  · split <;> exact h3
  · exact h3

/-- The field die as generation `g` configures it. -/
structure Configured (g : Generation) (t : State) : Prop where
  ident : t.fd.ident = some (g.seq, g.hdrCrc)
  chars : t.fd.chars = g.chars
  cfg : ∀ n : Chan, (t.fdc n).cfg = g.chan[n]

theorem Configured.kept {g : Generation} {s t : State} (h : Configured g s) (k : FdKept s t) : Configured g t :=
  ⟨(k.get FieldDie.ident fun _ => rfl).trans h.ident, (k.get FieldDie.chars fun _ => rfl).trans h.chars, fun n => (k.cfg n).trans (h.cfg n)⟩

theorem configureDie_configured (s : State) (g : Generation) (fresh : Bool) : Configured g (configureDie s g fresh) := by
  unfold configureDie
  refine Configured.kept (s := { s with fd := { s.fd with
    ident := some (g.seq, g.hdrCrc), chars := g.chars, oldChars := if s.fd.chars = g.chars then s.fd.oldChars else s.fd.chars,
    slackMs := slackMsOf g.device, tableBad := false, ch := Vector.ofFn (configured s g fresh) } }) ⟨rfl, rfl, fun n => ?_⟩
    (FdKept.foldl (fun a n => (configureNote_step s a n).kept) _ _)
  have h : (Vector.ofFn (configured s g fresh))[n] = configured s g fresh n := Vector.getElem_ofFn ..
  exact (congrArg FdChan.cfg h).trans (configured_cfg s g fresh n)

theorem configureFresh_configured (s : State) (g : Generation) (fresh : Bool) : Configured g (configureFresh s g fresh) := by
  unfold configureFresh
  exact configureDie_configured ..

theorem noteConfigured_kept (s : State) : FdKept s (noteConfigured s) := (FieldStep.reportStatus s 0 _).kept

theorem takeLoad_configured (s : State) (g : Generation) (fresh : Bool) : Configured g (takeLoad s (.configure g fresh)) := by
  unfold takeLoad
  dsimp only
  split
  · have h := configureFresh_configured s g fresh
    generalize configureFresh s g fresh = a at h
    exact h.kept (FdKept.trans (FdKept.of_eq ((resetAllPaths_moves a).same.fd rfl)) (noteConfigured_kept _))
  · have h := configureDie_configured s g fresh
    generalize configureDie s g fresh = a at h
    exact h.kept (FdKept.trans (noteConfigured_kept a) (FdKept.of_eq ((setScan_moves ..).same.fd rfl)))

theorem completes_load {s : State} {h : BwHeader} {x : BwTx} (ha : s.fd.alive = true) (hup : s.fd.l2fUp = true) (htx : s.txRuns = true)
    (hn : h.seq = s.fd.rxNext) (hx : s.bw.unacked.find? (fun y => y.seq = h.seq) = some x) {g : Generation} {f : Bool}
    (hb : x.body = .configure g f) (hs : s.fd.safeHeld = false) (hf : frameOk h tyLoad = true) :
    Completes (.loadFrame h) s fun t =>
      t.fd.ident = some (g.seq, g.hdrCrc) ∧ t.fd.chars = g.chars ∧ (∀ n : Chan, (t.fdc n).cfg = g.chan[n]) ∧
      SameOutside [.free, .fd, .ch, .ev, .img, .port, .conv, .loop] s t := by
  have e : exec (.loadFrame h) s = .next (takeLoad (fdAccepted s h) (.configure g f)) := by
    show Host.Outcome.next (fdTakeRetx s h tyLoad _) = _
    rw [fdTakeRetx_accepted _ ha hup htx hf hn hx (by rw [hb]; rfl), hb]
    exact congrArg Host.Outcome.next (if_neg (by rw [show (fdAccepted s h).fd.safeHeld = s.fd.safeHeld from rfl, hs]; decide))
  obtain ⟨hi, hc, hg⟩ := takeLoad_configured (fdAccepted s h) g f
  exact ⟨_, e, hi, hc, hg, SameOutside.step (takeLoad_moves ..).same rfl ((SameOutside.set_fd s (fdAccepted s h).fd).widen rfl)⟩

/-! ## Safe states applied -/

/-- What a demand leaves of a part of a record that neither the character's level nor driving the output touches. -/
theorem demand_get {α : Type} (s : State) (n : Chan) (f : FdChan → FdChan) (m : Chan) (g : FdChan → α)
    (hg : ∀ c b1 b2 b3 b4 b5 b6 b7 b8 b9 b10 b11,
      g { c with on := b1, flood := b2, floodLimited := b3, onHeld := b4, win := b5, dither := b6, phSink := b7, phDriven := b8,
                 phDet := b9, lastPulse := b10, offTick := b11 } = g c)
    (hl : ∀ c b, g { c with charLit := b } = g c) :
    g ((demand s n f).fdc m) = g ((s.modFd n f).fdc m) := by
  have hc : g ((levelChar (s.modFd n f) n).fdc m) = g ((s.modFd n f).fdc m) := by
    unfold levelChar
    split
    · rw [fdc_modFd]
      split
      · next h => rw [hl, h]
      · rfl
    · rfl
  unfold demand
  extract_lets old s1 new
  rw [(drive_rec _ n m).get g (hg _)]
  split
  · exact hc
  · rw [report_fdc]
    exact hc

theorem applySafe_kept (s : State) (n : Chan) : FdKept s (applySafe s n) := by
  unfold applySafe
  dsimp only
  split
  · exact FieldStep.kept (FieldStep.trans (demand_step s n _ (by intro _; rfl)) (FieldStep.reportStatus _ n _))
  · exact FieldStep.kept (demand_step s n _ (by intro _; rfl))

theorem applySafe_safeOn (s : State) (n m : Chan) : ((applySafe s n).fdc m).safeOn = (decide (m = n) || (s.fdc m).safeOn) := by
  have h : ∀ f : FdChan → FdChan, (∀ c, (f c).safeOn = true) → ((demand s n f).fdc m).safeOn = (decide (m = n) || (s.fdc m).safeOn) := by
    intro f hf
    rw [demand_get s n f m FdChan.safeOn (by intros; rfl) (by intros; rfl), fdc_modFd]
    split
    · next e => simp [hf, e]
    · next e => simp [e]
  unfold applySafe
  dsimp only
  split
  · exact (congrArg FdChan.safeOn (reportStatus_fdc ..)).trans (h _ fun _ => rfl)
  · exact h _ fun _ => rfl

/-- Safe states applied to the channels of `l`. -/
theorem foldl_applySafe_safeOn (l : List Chan) (s : State) (m : Chan) :
    ((l.foldl applySafe s).fdc m).safeOn = (decide (m ∈ l) || (s.fdc m).safeOn) := by
  induction l generalizing s with
  | nil => simp
  | cons n l ih =>
    rw [List.foldl_cons, ih, applySafe_safeOn]
    by_cases h : m = n <;> simp [h]

/-- The safe-state entries that a lost table leaves: every one OFF. -/
theorem offAll_kept (s : State) : FdKept s ((List.finRange 16).foldl (fun a n => a.modFd n fun c => { c with safe := .off }) s) :=
  FdKept.foldl (fun a n => FieldStep.kept (FieldStep.modFd a n _ (by intro _; rfl))) _ s

theorem applySafeAll_kept (s : State) : FdKept s (applySafeAll s) := by
  unfold applySafeAll
  dsimp only
  refine FdKept.trans ?_ (FieldStep.reportStatus _ 0 _).kept
  refine FdKept.trans ?_ (FdKept.foldl applySafe_kept _ _)
  split
  · exact offAll_kept s
  · exact FdKept.refl s

theorem applySafeAll_safeOn (s : State) (n : Chan) : ((applySafeAll s).fdc n).safeOn = true := by
  unfold applySafeAll
  dsimp only
  rw [reportStatus_fdc, foldl_applySafe_safeOn]
  simp

theorem completes_safe {s : State} {h : BwHeader} {x : BwTx} (ha : s.fd.alive = true) (hup : s.fd.l2fUp = true) (htx : s.txRuns = true)
    (hn : h.seq = s.fd.rxNext) (hx : s.bw.unacked.find? (fun y => y.seq = h.seq) = some x) {cause : Byte} {why : BitVec 4} {tick : W32}
    (hb : x.body = .safe cause why tick) (hf : frameOk h tySafe = true) :
    Completes (.safeFrame h) s fun t =>
      t.fd.safeHeld = true ∧ t.fd.cmds = [] ∧ t.fd.phases = [] ∧ t.fd.inc = s.fd.incHold ∧
      (s.fd.ident.isSome = true → ∀ n : Chan, (t.fdc n).safeOn = true) ∧ SameOutside [.free, .fd] s t := by
  let s2 : State := { fdAccepted s h with fd := { (fdAccepted s h).fd with safeHeld := true, cmds := [], phases := [], inc := s.fd.incHold } }
  have e : exec (.safeFrame h) s = .next (if s2.fdOn then applySafeAll s2 else s2) := by
    show Host.Outcome.next (fdTakeRetx s h tySafe _) = _
    rw [fdTakeRetx_accepted _ ha hup htx hf hn hx (by rw [hb]; rfl), hb]
    rfl
  have hs2 : SameOutside [.free, .fd] s s2 := (SameOutside.set_fd s s2.fd).widen rfl
  have hk : FdKept s2 (if s2.fdOn then applySafeAll s2 else s2) := by
    split
    · exact applySafeAll_kept s2
    · exact FdKept.refl s2
  refine ⟨_, e, hk.get FieldDie.safeHeld fun _ => rfl, hk.get FieldDie.cmds fun _ => rfl, hk.get FieldDie.phases fun _ => rfl,
      hk.get FieldDie.inc fun _ => rfl, fun hi n => ?_, ?_⟩
  · rw [if_pos (show s2.fdOn = true by rw [show s2.fdOn = (s.fd.alive && s.fd.ident.isSome) from rfl, ha, hi]; rfl)]
    exact applySafeAll_safeOn s2 n
  · split
    · exact SameOutside.step (applySafeAll_moves ..).same rfl hs2
    · exact hs2

/-- Settles O14: a frame carries what the sender holds; the executive's part leaves the field die's reports; LOAD and SAFE frames act there. -/
theorem reportsLoadAndSafeFrames : Obligations.ReportsLoadAndSafeFrames :=
  ⟨fun _ _ hup ha hn =>
      ⟨fun _ hm hh hs he hf => completes_newStatus hup ha hn hm hh hs he hf,
        fun _ hrs hne hm hh hs hf => completes_newEvent hup ha hn hrs hne hm hh hs hf,
        fun _ hne hh hf => completes_eventAgain hup ha hn hne hh hf⟩,
    fun _ _ _ ha hup htx hn hx =>
      ⟨fun _ _ hb hs hf => completes_load ha hup htx hn hx hb hs hf, fun _ _ _ hb hf => completes_safe ha hup htx hn hx hb hf⟩⟩

end Sys2Proof.Machine
end

section
namespace Sys2Proof.Machine

/-! ## COMMAND frames at the field die -/

/-- Status reports of a field die outside slack hold join those that wait. -/
theorem foldl_reportStatus {β : Type} (f : β → Report) (l : List β) (s : State) (ha : s.fd.alive = true) (hs : s.fd.slack = false) :
    l.foldl (fun a x => reportStatus a (f x)) s = { s with fd := { s.fd with status := s.fd.status ++ l.map f } } := by
  induction l generalizing s with
  | nil => simp
  | cons x l ih =>
    have e : reportStatus s (f x) = { s with fd := { s.fd with status := s.fd.status ++ [f x] } } := by
      rw [reportStatus, hs, if_neg Bool.false_ne_true, if_pos ha]
    rw [List.foldl_cons, e, ih { s with fd := { s.fd with status := s.fd.status ++ [f x] } } ha hs]
    simp

theorem exec_commandFrame {s : State} {h : BwHeader} {x : BwTx} {acts : List FieldAct} {target : W64} (ha : s.fd.alive = true)
    (hup : s.fd.l2fUp = true) (htx : s.txRuns = true) (hf : frameOk h tyCommand = true) (hn : h.seq = s.fd.rxNext)
    (hx : s.bw.unacked.find? (fun y => y.seq = h.seq) = some x) (hb : x.body = .command acts target) :
    exec (.commandFrame h) s = .next (takeCommand (fdAccepted s h) acts target) := by
  show Host.Outcome.next (fdTakeRetx s h tyCommand _) = _
  rw [fdTakeRetx_accepted _ ha hup htx hf hn hx (by rw [hb]; rfl), hb]

theorem takeCommand_ahead {s : State} {acts : List FieldAct} {target : W64} (hs : s.fd.safeHeld = false) (hon : s.fdOn = true)
    (ht : s.fd.tick.toNat < target.toNat) :
    takeCommand s acts target = { s with fd := { s.fd with cmds := s.fd.cmds ++ acts.map fun a => ⟨a, target⟩ } } := by
  unfold takeCommand
  rw [hs, hon, if_neg (by decide), if_neg fun c => by rw [c] at ht; exact lt_irrefl _ ht]
  dsimp only
  rw [if_neg (Nat.lt_asymm ht), if_neg (Nat.lt_asymm ht)]

theorem takeCommand_late {s : State} {acts : List FieldAct} {target : W64} (hs : s.fd.safeHeld = false) (hon : s.fdOn = true)
    (ht : target.toNat < s.fd.tick.toNat) (ha : s.fd.alive = true) (hsl : s.fd.slack = false) :
    takeCommand s acts target = { s with fd := { s.fd with
      cmds := s.fd.cmds ++ acts.map fun a => ⟨a, s.fd.tick + 1⟩, status := s.fd.status ++ acts.map fun a => .late (actChan a) } } := by
  unfold takeCommand
  rw [hs, hon, if_neg (by decide), if_neg fun c => by rw [c] at ht; exact lt_irrefl _ ht]
  dsimp only
  rw [if_pos ht, if_pos ht, foldl_reportStatus (fun a => Report.late (actChan a)) acts s ha hsl]

theorem fdAccepted_fdOn {s : State} {h : BwHeader} (ha : s.fd.alive = true) (hi : s.fd.ident.isSome = true) : (fdAccepted s h).fdOn = true := by
  rw [show (fdAccepted s h).fdOn = (s.fd.alive && s.fd.ident.isSome) from rfl, ha, hi]
  rfl

theorem completes_commandAhead {s : State} {h : BwHeader} {x : BwTx} {acts : List FieldAct} {target : W64} (ha : s.fd.alive = true)
    (hup : s.fd.l2fUp = true) (htx : s.txRuns = true) (hf : frameOk h tyCommand = true) (hn : h.seq = s.fd.rxNext)
    (hx : s.bw.unacked.find? (fun y => y.seq = h.seq) = some x) (hb : x.body = .command acts target) (hi : s.fd.ident.isSome = true)
    (hs : s.fd.safeHeld = false) (ht : s.fd.tick.toNat < target.toNat) :
    Completes (.commandFrame h) s fun t =>
      t.fd = { s.fd with
        rxNext := s.fd.rxNext + 1, fail := 0, unacked := t.fd.unacked, cmds := s.fd.cmds ++ acts.map fun a => ⟨a, target⟩ } ∧
      SameOutside [.fd] s t := by
  have e := exec_commandFrame ha hup htx hf hn hx hb
  rw [takeCommand_ahead (s := fdAccepted s h) hs (fdAccepted_fdOn ha hi) ht] at e
  exact ⟨_, e, rfl, SameOutside.set_fd s _⟩

theorem completes_commandLate {s : State} {h : BwHeader} {x : BwTx} {acts : List FieldAct} {target : W64} (ha : s.fd.alive = true)
    (hup : s.fd.l2fUp = true) (htx : s.txRuns = true) (hf : frameOk h tyCommand = true) (hn : h.seq = s.fd.rxNext)
    (hx : s.bw.unacked.find? (fun y => y.seq = h.seq) = some x) (hb : x.body = .command acts target) (hi : s.fd.ident.isSome = true)
    (hs : s.fd.safeHeld = false) (ht : target.toNat < s.fd.tick.toNat) (hsl : s.fd.slack = false) :
    Completes (.commandFrame h) s fun t =>
      t.fd = { s.fd with
        rxNext := s.fd.rxNext + 1, fail := 0, unacked := t.fd.unacked, cmds := s.fd.cmds ++ acts.map fun a => ⟨a, s.fd.tick + 1⟩,
        status := s.fd.status ++ acts.map fun a => .late (actChan a) } ∧
      SameOutside [.fd] s t := by
  have e := exec_commandFrame ha hup htx hf hn hx hb
  rw [takeCommand_late (s := fdAccepted s h) hs (fdAccepted_fdOn ha hi) ht ha hsl] at e
  exact ⟨_, e, rfl, SameOutside.set_fd s _⟩

/-! ## Actions at the field die -/

theorem noteBlock_kept (s t : State) (n : Chan) : FdKept t (noteBlock s t n) := by
  unfold noteBlock
  split
  · exact FdKept.refl t
  · exact (FieldStep.report t n _).kept

theorem ocCleared_step (s : State) (n u : Chan) :
    FieldStep n s (report (modHalves s n fun c => { c with oc := Vector.replicate 3 false, inLimit := false }) (.ocCleared u)) :=
  FieldStep.trans (modHalves_step s n _ (by intro _; rfl)) (FieldStep.report _ n _)

theorem demand_kept (s : State) (n : Chan) (f : FdChan → FdChan) (hf : ∀ c, (f c).cfg = c.cfg) : FdKept s (demand s n f) :=
  (demand_step s n f hf).kept

/-- The record after a channel's own REINIT. -/
def reinitRec (c : FdChan) : FdChan :=
  let c := { c with lastPulse := .none }
  if hasBlocking (fdKind c) then reclose { c with isolated := false, declTicks := [] } else c

theorem reinitRec_cfg (c : FdChan) : (reinitRec c).cfg = c.cfg := by
  unfold reinitRec
  dsimp only
  split <;> rfl

theorem fieldAct_kept (s : State) (a : FieldAct) : FdKept s (fieldAct s a) := by
  cases a with
  | set n cmd =>
    cases cmd with
    | ao code alarm dac =>
      unfold fieldAct
      dsimp only
      split
      · exact (FieldStep.reportStatus s n _).kept
      · exact demand_kept s n _ (by intro _; rfl)
    | _ => exact demand_kept s n _ (by intro _; rfl)
  | restart n =>
    unfold fieldAct
    dsimp only
    split
    · exact (((ocCleared_step s n _).trans (drive_step _ n)).trans (FieldStep.report _ n _)).kept
    · exact (FieldStep.reportStatus s n _).kept
  | safe n => exact applySafe_kept s n
  | retire n => exact FdKept.trans (demand_kept s n _ (by intro _; rfl)) (noteBlock_kept s _ n)
  | unretire n => exact FdKept.trans (demand_kept s n _ (by intro _; rfl)) (noteBlock_kept s _ n)
  | mapRole p m => exact demand_kept s m _ (by intro _; rfl)
  | unmapRole p m => exact demand_kept s m _ (by intro _; rfl)
  | clearOc n => exact (ocCleared_step s n _).kept
  | reinit n =>
    have h2 := (ocCleared_step s n (s.unit n)).kept.trans (FieldStep.modFd _ n reinitRec reinitRec_cfg).kept
    unfold fieldAct
    dsimp only
    split
    · exact h2
    · exact FdKept.trans (FdKept.trans h2 (noteBlock_kept _ _ n)) (drive_step _ n).kept
  | restate n => exact (FieldStep.reportStatus s n _).kept
  | dac n code =>
    unfold fieldAct
    dsimp only
    split
    · exact (FieldStep.reportStatus s n _).kept
    · exact FieldStep.kept (FieldStep.modFd s n _ (by intro _; rfl))

theorem actDue_kept (s : State) (acts : List FieldAct) : FdKept s (actDue s acts) := by
  unfold actDue
  split
  · exact FdKept.refl s
  · exact FdKept.foldl fieldAct_kept acts s

theorem completes_commandTargetTick {s : State} {k : Nat} (hk : leastTarget s.fd.cmds = some k) :
    Completes .commandTargetTick s fun t =>
      t.fd.cmds = s.fd.cmds.filter (fun c => c.target.toNat ≠ k) ∧ t.fd.phases = s.fd.phases ∧ SameOutside [.free, .fd] s t := by
  have e : exec .commandTargetTick s = .next (actDue
      { s with fd := { s.fd with cmds := s.fd.cmds.filter fun c => c.target.toNat ≠ k } }
      ((s.fd.cmds.filter fun c => c.target.toNat = k).map (·.act))) := by
    show execCommandTargetTick s = _
    rw [execCommandTargetTick, hk]
  have h := actDue_kept { s with fd := { s.fd with cmds := s.fd.cmds.filter fun c => c.target.toNat ≠ k } }
    ((s.fd.cmds.filter fun c => c.target.toNat = k).map (·.act))
  exact ⟨_, e, h.get FieldDie.cmds fun _ => rfl, h.get FieldDie.phases fun _ => rfl,
    SameOutside.step (actDue_moves ..).same rfl ((SameOutside.set_fd ..).widen rfl)⟩

/-! ## PHASE frames -/

theorem exec_phaseFrame {s : State} {h : BwHeader} {x : BwTx} {items : List PhaseItem} (ha : s.fd.alive = true)
    (hup : s.fd.l2fUp = true) (htx : s.txRuns = true) (hf : frameOk h tyPhase = true) (hn : h.seq = s.fd.rxNext)
    (hx : s.bw.unacked.find? (fun y => y.seq = h.seq) = some x) (hb : x.body = .phase items) (hs : s.fd.safeHeld = false) :
    exec (.phaseFrame h) s = .next (takePhase (fdAccepted s h) items) := by
  show Host.Outcome.next (fdTakeRetx s h tyPhase _) = _
  rw [fdTakeRetx_accepted _ ha hup htx hf hn hx (by rw [hb]; rfl), hb]
  exact congrArg Host.Outcome.next (if_neg (by rw [show (fdAccepted s h).fd.safeHeld = s.fd.safeHeld from rfl, hs]; decide))

theorem takePhase_ahead {s : State} {items : List PhaseItem} (hi : ∀ i ∈ items, s.fd.tick.toNat < i.tick.toNat) :
    takePhase s items = { s with fd := { s.fd with phases := s.fd.phases ++ items } } := by
  have hd : (items.filter fun i => i.tick.toNat ≤ s.fd.tick.toNat) = [] := by
    rw [List.filter_eq_nil_iff]
    intro i hm
    simpa using hi i hm
  have hl : (items.filter fun i => s.fd.tick.toNat < i.tick.toNat) = items := by
    rw [List.filter_eq_self]
    intro i hm
    simpa using hi i hm
  unfold takePhase
  dsimp only
  rw [hd, hl]
  rfl

/-- The shadow wheel of a PHASE item loaded now. -/
def phaseLoaded (s : State) (i : PhaseItem) : State :=
  { s with fd := { s.fd with
      acc := setAt s.fd.acc i.wheel (i.acc + i.inc * (s.fd.tick - i.tick))
      prev := if s.fd.wheelOn[i.wheel] then s.fd.prev else setAt s.fd.prev i.wheel (i.acc + i.inc * (s.fd.tick - i.tick))
      inc := setAt s.fd.inc i.wheel i.inc, incHold := setAt s.fd.incHold i.wheel i.hold,
      wheelOn := setAt s.fd.wheelOn i.wheel true } }

theorem FdKept.ite {s t u : State} {c : Prop} [Decidable c] (h : FdKept s t) (k : FdKept s u) : FdKept s (if c then t else u) := by
  split
  · exact h
  · exact k

theorem loadPhase_kept (s : State) (i : PhaseItem) : FdKept (phaseLoaded s i) (loadPhase s i) := by
  unfold loadPhase
  refine FdKept.ite (FdKept.refl _) (FdKept.foldl (fun a n => ?_) _ _)
  exact FdKept.ite (demand_kept a n id fun _ => rfl) (FdKept.refl a)

theorem takePhase_one {s : State} {i : PhaseItem} (hi : i.tick.toNat ≤ s.fd.tick.toNat) :
    takePhase s [i] = loadPhase { s with fd := { s.fd with phases := s.fd.phases ++ [] } } i := by
  have hl : ¬ s.fd.tick.toNat < i.tick.toNat := Nat.not_lt.mpr hi
  simp [takePhase, hi, hl]

theorem completes_phaseOne {s : State} {h : BwHeader} {x : BwTx} {i : PhaseItem} (ha : s.fd.alive = true)
    (hup : s.fd.l2fUp = true) (htx : s.txRuns = true) (hf : frameOk h tyPhase = true) (hn : h.seq = s.fd.rxNext)
    (hx : s.bw.unacked.find? (fun y => y.seq = h.seq) = some x) (hb : x.body = .phase [i]) (hs : s.fd.safeHeld = false)
    (hi : i.tick.toNat ≤ s.fd.tick.toNat) :
    Completes (.phaseFrame h) s fun t =>
      t.fd.acc[i.wheel] = i.acc + i.inc * (s.fd.tick - i.tick) ∧ t.fd.inc[i.wheel] = i.inc ∧ t.fd.incHold[i.wheel] = i.hold ∧
      t.fd.wheelOn[i.wheel] = true ∧ SameOutside [.free, .fd] s t := by
  have e := exec_phaseFrame ha hup htx hf hn hx hb hs
  rw [takePhase_one (s := fdAccepted s h) hi] at e
  have hk := loadPhase_kept { fdAccepted s h with fd := { (fdAccepted s h).fd with phases := (fdAccepted s h).fd.phases ++ [] } } i
  refine ⟨_, e, ?_, ?_, ?_, ?_, SameOutside.step (loadPhase_moves ..).same rfl ((SameOutside.set_fd s _).widen rfl)⟩
  · exact (hk.get (fun d => d.acc[i.wheel]) fun _ => rfl).trans (setAt_self ..)
  · exact (hk.get (fun d => d.inc[i.wheel]) fun _ => rfl).trans (setAt_self ..)
  · exact (hk.get (fun d => d.incHold[i.wheel]) fun _ => rfl).trans (setAt_self ..)
  · exact (hk.get (fun d => d.wheelOn[i.wheel]) fun _ => rfl).trans (setAt_self ..)

theorem bwFlags_fresh (handover ebb : Bool) : bitAt (bwFlags false handover ebb) 0 = false := by
  cases handover <;> cases ebb <;> decide

/-- A frame goes at once while a place is free and nothing waits before it. -/
theorem bwSend_free {s : State} {b : L2F} (hb : s.triad.blocked = false) (hc : b.isCommand = false) (hs : canSend s b = true)
    (hw : s.bw.waiting = []) (hu : s.bw.unacked.length < 16) :
    bwSend s b = { s with bw := { s.bw with unacked := s.bw.unacked ++ [mkTx s b], txSeq := s.bw.txSeq + 1 } } := by
  unfold bwSend
  rw [hb, if_neg Bool.false_ne_true, hc, Bool.and_false, if_neg Bool.false_ne_true, hs, hw, decide_eq_true hu]
  rfl

theorem completes_phaseSend {s : State} (hr : s.execRuns = true) (hb : s.triad.blocked = false) (hs : s.bw.stopped = false)
    (hw : s.bw.waiting = []) (hu : s.bw.unacked.length < 16) (hne : ((List.finRange 4).filter fun w => started s.wheel[w]) ≠ []) :
    Completes .phaseSend s fun t =>
      t.bw.txSeq = s.bw.txSeq + 1 ∧
      (∃ x : BwTx, t.bw.unacked = s.bw.unacked ++ [x] ∧ x.seq = s.bw.txSeq ∧ x.sent = s.tick ∧ x.ack = s.bw.rxNext - 1 ∧
        bitAt x.flags 0 = false ∧ x.body = .phase (((List.finRange 4).filter fun w => started s.wheel[w]).map fun w =>
          phaseItem s w (gridTick (s.tick + 1)))) ∧ SameOutside [.bw] s t := by
  have e : exec .phaseSend s = .next (bwSend s (.phase (((List.finRange 4).filter fun w => started s.wheel[w]).map fun w =>
      phaseItem s w (gridTick (s.tick + 1))))) := congrArg Host.Outcome.next (if_neg (by simpa [hr] using hne))
  rw [bwSend_free hb rfl (by simp [canSend, hs]) hw hu] at e
  exact ⟨_, e, rfl, ⟨_, rfl, rfl, rfl, rfl, bwFlags_fresh _ _, rfl⟩, SameOutside.set_bw ..⟩

/-- Settles O15: an accepted frame's commands and items wait, or act by operations that leave the field die's queues. -/
theorem commandAndPhaseFrames : Obligations.CommandAndPhaseFrames := by
  refine ⟨⟨fun s h x acts target ha hup htx hf hn hx hb hi hs => ⟨fun ht => ?_, fun ht hsl => ?_⟩, fun s k => completes_commandTargetTick⟩,
    ⟨fun s h x items ha hup htx hf hn hx hb hs => ⟨fun hi => ?_, fun i hi ht => ?_⟩, fun s => completes_phaseSend⟩⟩
  · exact completes_commandAhead ha hup htx hf hn hx hb hi hs ht
  · exact completes_commandLate ha hup htx hf hn hx hb hi hs ht hsl
  · have e := exec_phaseFrame ha hup htx hf hn hx hb hs
    rw [takePhase_ahead (s := fdAccepted s h) hi] at e
    exact ⟨_, e, rfl, SameOutside.set_fd s _⟩
  · subst hi
    exact completes_phaseOne ha hup htx hf hn hx hb hs ht

end Sys2Proof.Machine
end

section
namespace Sys2Proof.Machine

/-! ## What sending changes in the Breakwater -/

/-- Of the Breakwater only the frames sent and waiting have changed, the reports buffered, and what a supply report tells. -/
def SendRec (b c : Breakwater) : Prop :=
  c = { b with waiting := c.waiting, unacked := c.unacked, txSeq := c.txSeq, stepFive := c.stepFive, buffered := c.buffered,
               ebb := c.ebb, gasped := c.gasped, absent := c.absent }

theorem SendRec.trans {b c d : Breakwater} (h : SendRec b c) (k : SendRec c d) : SendRec b d := by
  unfold SendRec at *
  rw [k, h]

/-- From `s` to `t` the Breakwater has changed by sending alone. -/
def Sends (s t : State) : Prop := SendRec s.bw t.bw

namespace Sends

theorem refl (s : State) : Sends s s := rfl

theorem trans {s t u : State} (h : Sends s t) (k : Sends t u) : Sends s u := SendRec.trans h k

/-- A part of the Breakwater that sending leaves alone. -/
theorem get {s t : State} (h : Sends s t) {α : Type} (g : Breakwater → α)
    (hg : ∀ e : Breakwater, g { s.bw with
      waiting := e.waiting, unacked := e.unacked, txSeq := e.txSeq, stepFive := e.stepFive, buffered := e.buffered, ebb := e.ebb
      gasped := e.gasped, absent := e.absent } = g s.bw) : g t.bw = g s.bw :=
  (congrArg g h).trans (hg t.bw)

/-- What leaves the Breakwater alone. -/
theorem of_moves {ps : List Part} {s t : State} (h : Moves ps s t) (hb : ps.contains .bw = false) : Sends s t := by
  unfold Sends
  rw [h.same.bw hb]
  rfl

/-- A record update of `t` whose Breakwater has changed by sending alone. -/
theorem upd {s t : State}
    {x0 x1 x2 x3 x4 x5 x6 x7 x8 x9 x10 x11 x12 x13 x14 x15 x16 x17 x18 x19 x20 x21 x22 x23 x24 x25 x26 x27 x28 x29 x30 x31 x32}
    (_ : x0 = t.pending) (e : SendRec t.bw x9) (h : Sends s t) :
    Sends s
      (State.mk x0 x1 x2 x3 x4 x5 x6 x7 x8 x9 x10 x11 x12 x13 x14 x15 x16 x17 x18 x19 x20 x21 x22 x23 x24 x25 x26 x27 x28 x29 x30 x31
        x32) :=
  SendRec.trans h e

theorem ite {s a b : State} {c : Prop} [Decidable c] (ha : c → Sends s a) (hb : ¬ c → Sends s b) : Sends s (if c then a else b) := by
  split
  · exact ha ‹_›
  · exact hb ‹_›

theorem foldl {α : Type} {s t : State} {f : State → α → State} {l : List α} (hf : ∀ a x, Sends a (f a x)) (h : Sends s t) :
    Sends s (l.foldl f t) := by
  induction l generalizing t with
  | nil => exact h
  | cons x l ih => exact ih (h.trans (hf t x))

end Sends

theorem bwSend_sends (s : State) (b : L2F) : Sends s (bwSend s b) := by
  unfold bwSend
  exact Sends.ite (fun _ => Sends.refl _) fun _ =>
    Sends.ite (fun _ => Sends.upd rfl rfl (Sends.refl _)) fun _ =>
    Sends.ite (fun _ => Sends.upd rfl rfl (Sends.refl _)) fun _ => Sends.upd rfl rfl (Sends.refl _)

theorem command_sends (s : State) (acts : List FieldAct) : Sends s (command s acts) := by
  unfold command
  exact Sends.ite (fun _ => Sends.refl _)
      fun _ => Sends.trans (Sends.foldl (fun _ _ => Sends.of_moves (commanded_moves ..) rfl) (Sends.refl _)) (bwSend_sends ..)

theorem sendAO_sends (old : State) (s : State) (n : Chan) : Sends s (sendAO old s n) := by
  unfold sendAO
  extract_lets +onlyGivenNames x1
  exact Sends.ite (fun _ => command_sends ..) fun _ => Sends.refl _

theorem resumeAO_sends (s : State) (n : Chan) : Sends s (resumeAO s n) := by
  unfold resumeAO
  refine Sends.ite (fun _ => ?_) fun _ => ?_
  · split
    · exact Sends.of_moves (setTarget_moves ..) rfl
    · exact Sends.of_moves (safeTarget_moves ..) rfl
  · extract_lets +onlyGivenNames x1
    have h1 : Sends s x1 := Sends.of_moves (targetAO_moves ..) rfl
    clear_value x1
    exact Sends.ite (fun _ => Sends.trans (Sends.trans h1 (Sends.of_moves (takeAO_moves ..) rfl)) (sendAO_sends ..)) fun _ => h1

theorem leftDefault_sends (old : State) (s : State) (n : Chan) : Sends s (leftDefault old s n) := by
  unfold leftDefault
  refine Sends.ite (fun _ => ?_) fun _ => ?_
  · extract_lets +onlyGivenNames x1
    have h1 : Sends s x1 := Sends.of_moves (resetChannel_moves ..) rfl
    clear_value x1
    refine Sends.ite (fun _ => ?_) fun _ => ?_
    · extract_lets +onlyGivenNames x2
      have h2 : Sends s x2 := Sends.trans h1 (resumeAO_sends ..)
      clear_value x2
      exact Sends.ite (fun _ => Sends.trans h2 (command_sends ..)) fun _ => h2
    · exact h1
  · exact Sends.refl _

theorem leaveDefault_sends (old : State) (s : State) : Sends s (leaveDefault old s) := by
  unfold leaveDefault
  exact Sends.foldl (fun _ _ => leftDefault_sends ..) (Sends.refl _)

theorem tryRestart_sends (s : State) (n : Chan) (target : W64) : Sends s (tryRestart s n target) := by
  unfold tryRestart
  refine Sends.ite (fun _ => ?_) fun _ => ?_
  · exact Sends.refl _
  · refine Sends.ite (fun _ => ?_) fun _ => ?_
    · exact Sends.trans (Sends.of_moves (govRefuse_moves ..) rfl) (Sends.of_moves (showCommand_moves ..) rfl)
    · extract_lets +onlyGivenNames x1
      extract_lets +onlyGivenNames x2
      have h2 : Sends s x2 := Sends.trans (Sends.of_moves (govClear_moves ..) rfl) (Sends.of_moves (State.modCh_moves ..) rfl)
      clear_value x2
      extract_lets +onlyGivenNames x3
      have h3 : Sends s x3 := Sends.ite (fun _ => Sends.trans h2 (Sends.of_moves (showCommand_moves ..) rfl)) fun _ => h2
      clear_value x3
      exact Sends.trans h3 (bwSend_sends ..)

theorem tryRestartNow_sends (s : State) (n : Chan) : Sends s (tryRestartNow s n) := by
  unfold tryRestartNow
  exact Sends.ite (fun _ => tryRestart_sends ..) fun _ => Sends.refl _

theorem takeSupply_sends (s : State) (band : BitVec 2) : Sends s (takeSupply s band) := by
  unfold takeSupply
  extract_lets +onlyGivenNames x1
  extract_lets +onlyGivenNames x2
  extract_lets +onlyGivenNames _ _ _ _ x3
  have h3 : Sends s x3 := Sends.upd rfl rfl (Sends.refl _)
  clear_value x3
  extract_lets +onlyGivenNames x4
  have h4 : Sends s x4 := Sends.ite (fun _ => Sends.trans h3 (Sends.of_moves (fieldGone_moves ..) rfl)) fun _ => h3
  clear_value x4
  extract_lets +onlyGivenNames x5
  have h5 : Sends s x5 := Sends.trans (Sends.trans h4 (Sends.of_moves (putSupply_moves ..) rfl)) (Sends.of_moves (raise_moves ..) rfl)
  clear_value x5
  extract_lets +onlyGivenNames x6
  have h6 : Sends s x6 := Sends.foldl (fun _ _ => Sends.of_moves (putDir_moves ..) rfl)
    (Sends.ite (fun _ => Sends.trans h5 (Sends.of_moves (discardAll_moves ..) rfl)) fun _ => h5)
  clear_value x6
  exact Sends.trans (Sends.ite (fun _ => Sends.foldl (fun _ _ => tryRestartNow_sends ..) h6) fun _ => h6) (Sends.of_moves (evalAll_moves ..) rfl)

theorem dropHeldCommands_sends (s : State) : Sends s (dropHeldCommands s) := by
  unfold dropHeldCommands
  exact Sends.upd (t := s) rfl rfl (Sends.refl _)

theorem commandAll_sends (s : State) : Sends s (commandAll s) := by
  unfold commandAll
  exact command_sends ..

theorem afterFresh_sends (s : State) : Sends s (afterFresh s) := by
  unfold afterFresh
  extract_lets +onlyGivenNames x1
  have h1 : Sends s x1 := Sends.upd rfl rfl (Sends.refl _)
  clear_value x1
  exact Sends.ite (fun _ => Sends.upd rfl rfl h1) fun _ => Sends.trans h1 (commandAll_sends ..)

theorem freshen_sends (s : State) (g : Generation) : Sends s (freshen s g) := by
  unfold freshen
  exact Sends.trans (Sends.trans (dropHeldCommands_sends ..) (bwSend_sends ..)) (afterFresh_sends ..)

theorem offerIdentity_sends (s : State) : Sends s (offerIdentity s) := by
  unfold offerIdentity
  split
  · exact Sends.ite (fun _ => Sends.refl _) fun _ =>
    Sends.ite (fun _ => Sends.ite (fun _ => bwSend_sends ..) fun _ => Sends.refl _) fun _ => freshen_sends ..
  · exact Sends.refl _

theorem sendRefOn_sends (s : State) : Sends s (sendRefOn s) := by
  unfold sendRefOn
  refine Sends.ite (fun _ => ?_) fun _ => Sends.refl _
  refine Sends.trans ?_ (bwSend_sends ..)
  exact Sends.upd (t := s) rfl rfl (Sends.refl _)

/-! ## Retransmission -/

theorem exec_bwRetransmit_logic {s : State} (h : s.txRuns = true) :
    exec (.bwRetransmit false) s =
      .next { s with bw := { s.bw with unacked := s.bw.unacked.map fun x =>
        { x with flags := bwFlags true s.recov.handover.isSome s.bw.ebb, ack := s.bw.rxNext - 1, sent := s.tick } } } := by
  show execBwRetransmit false s = _
  rw [execBwRetransmit, h]
  rfl

theorem exec_bwRetransmit_field {s : State} (h : s.fd.alive = true) :
    exec (.bwRetransmit true) s =
      .next { s with fd := { s.fd with unacked := s.fd.unacked.map fun x =>
        { x with flags := bwFlags true false (s.fd.band = 1 ∨ s.fd.band = 2), ack := s.fd.rxNext - 1, sent := s.fd.tick } } } := by
  show execBwRetransmit true s = _
  simp only [execBwRetransmit, h, Bool.not_true, Bool.false_eq_true, if_false, if_true, Bool.decide_or]

/-! ## Loss of a lane -/

theorem holdWheels_fd (s : State) : (holdWheels s).fd.l2fUp = s.fd.l2fUp ∧ (holdWheels s).fd.slack = s.fd.slack := by
  unfold holdWheels
  split <;> exact ⟨rfl, rfl⟩

/-- What the executive and the modems lose when slack hold begins is no part of the field die. -/
theorem abandonAll_fd (s : State) : ((List.finRange 16).foldl hartAbandon (discardAll s)).fd = s.fd := by
  have h : Moves [.mbx, .hart] (discardAll s) ((List.finRange 16).foldl hartAbandon (discardAll s)) :=
    Moves.foldl (fun _ _ => hartAbandon_moves ..) (Moves.refl _)
  rw [h.same.fd rfl, (discardAll_moves ..).same.fd rfl]

/-- The field die at the beginning of slack hold: dither stops, and the window runs. -/
def slackBegun (s : State) : State :=
  { s with fd := { s.fd with
      slack := true, overwritten := 0, slackEnd := s.fd.tick + BitVec.ofNat 64 (msTicks s.fd.slackMs.toNat),
      ch := s.fd.ch.map fun c => { c with dither := false } } }

theorem slackBegun_slack (s : State) : (slackBegun s).fd.slack = true := rfl

theorem enterSlack_begun {s : State} (hon : s.fdOn = true) (hs : s.fd.slack = false) :
    enterSlack s =
      (let c := (List.finRange 16).foldl hartAbandon (discardAll (slackBegun (holdWheels s)))
       if (holdWheels s).fd.slackMs = 0 then applySafeAll { c with fd := { c.fd with expired := true } } else c) := by
  unfold enterSlack
  rw [if_neg (by rw [hon]; decide), if_neg (by rw [hs]; decide)]
  dsimp only [slackBegun]

theorem applySafeAll_hold (s : State) : (applySafeAll s).fd.l2fUp = s.fd.l2fUp ∧ (applySafeAll s).fd.slack = s.fd.slack :=
  ⟨(applySafeAll_kept s).get FieldDie.l2fUp fun _ => rfl, (applySafeAll_kept s).get FieldDie.slack fun _ => rfl⟩

/-- Slack hold begins, or goes on, at a configured field die; the lane stays as it is. -/
theorem enterSlack_fd (s : State) : (enterSlack s).fd.l2fUp = s.fd.l2fUp ∧ (s.fdOn = true → (enterSlack s).fd.slack = true) := by
  cases hon : s.fdOn with
  | false =>
    rw [enterSlack, if_pos (by rw [hon]; rfl)]
    exact ⟨rfl, fun h => absurd h Bool.false_ne_true⟩
  | true =>
    cases hs : s.fd.slack with
    | true =>
      rw [enterSlack, if_neg (by rw [hon]; decide), if_pos hs]
      exact ⟨(holdWheels_fd s).1, fun _ => (holdWheels_fd s).2.trans hs⟩
    | false =>
      have hc := abandonAll_fd (slackBegun (holdWheels s))
      rw [enterSlack_begun hon hs]
      generalize (List.finRange 16).foldl hartAbandon (discardAll (slackBegun (holdWheels s))) = c at hc ⊢
      have h1 : c.fd.l2fUp = s.fd.l2fUp := by rw [hc]; exact (holdWheels_fd s).1
      have h2 : c.fd.slack = true := (congrArg FieldDie.slack hc).trans (slackBegun_slack _)
      dsimp only
      split
      · exact ⟨(applySafeAll_hold _).1.trans h1, fun _ => (applySafeAll_hold _).2.trans h2⟩
      · exact ⟨h1, fun _ => h2⟩

theorem completes_l2fLaneLost {s : State} (ha : s.fd.alive = true) (hup : s.fd.l2fUp = true) :
    Completes .l2fLaneLost s fun t =>
      t.fd.l2fUp = false ∧ t.bw.l2fUp = false ∧ (s.fd.ident.isSome = true → t.fd.slack = true) ∧
      (s.m.run = .running → s.triad.halted = false → t.bw.retrain = satInc s.bw.retrain) ∧
      SameOutside [.free, .recov, .bw, .fd, .ch, .mbx, .hart, .enrol] s t := by
  have e : exec .l2fLaneLost s = .next (l2fLost s) := congrArg Host.Outcome.next (if_neg (by rw [ha, hup]; decide))
  refine ⟨_, e, ?_, ?_, fun hi => ?_, fun hr hh => ?_, (l2fLost_moves s).same⟩
  · unfold l2fLost
    exact (enterSlack_fd _).1
  · unfold l2fLost
    rw [(enterSlack_moves ..).same.bw rfl]
  · unfold l2fLost
    refine (enterSlack_fd _).2 ?_
    rw [State.fdOn, Bool.and_eq_true]
    exact ⟨ha, hi⟩
  · unfold l2fLost
    rw [(enterSlack_moves ..).same.bw rfl]
    simp [hr, hh]

/-- The lane 0 lost leaves no result valid. -/
theorem dropValid_path (s : State) (p : PathIx) : (dropValid s).conv.path[p].res.valid = false := by
  have h : (dropValid s).conv.path[p] = { s.conv.path[p] with res := { s.conv.path[p].res with valid := false } } := Vector.getElem_map ..
  rw [h]

theorem completes_f2lLaneLost0 {s : State} (hup : s.bw.f2l0Up = true) :
    Completes (.f2lLaneLost false) s fun t =>
      t.bw.f2l0Up = false ∧ t.bw.retrain = satInc s.bw.retrain ∧ (∀ p : PathIx, t.conv.path[p].res.valid = false) ∧
      SameOutside [.recov, .bw, .ch, .ev, .img, .port, .conv] s t := by
  have e : exec (.f2lLaneLost false) s = .next (f2lLost s false) := congrArg Host.Outcome.next (if_neg (by simp [hup]))
  have hs := (laneChanged_moves (laneDown { s with recov := { s.recov with lanesUpSince := none } } false)).same
  refine ⟨_, e, ?_, ?_, fun p => ?_, (f2lLost_moves ..).same⟩
  · exact congrArg Breakwater.f2l0Up (hs.bw rfl)
  · exact congrArg Breakwater.retrain (hs.bw rfl)
  · exact (congrArg (fun c : ConvState => c.path[p].res.valid) (hs.conv rfl)).trans (dropValid_path ..)

theorem completes_f2lLaneLost1 {s : State} (hup : s.bw.f2l1Up = true) :
    Completes (.f2lLaneLost true) s fun t =>
      t.bw.f2l1Up = false ∧ t.bw.retrain = satInc s.bw.retrain ∧ SameOutside [.recov, .bw, .ch, .ev, .img, .port] s t := by
  have e : exec (.f2lLaneLost true) s = .next (f2lLost s true) := congrArg Host.Outcome.next (if_neg (by simp [hup]))
  have hs := (laneChanged_moves (laneDown { s with recov := { s.recov with lanesUpSince := none } } true)).same
  refine ⟨_, e, congrArg Breakwater.f2l1Up (hs.bw rfl), congrArg Breakwater.retrain (hs.bw rfl), SameOutside.step hs rfl ?_⟩
  have h1 : SameOutside [.recov, .bw, .ch, .ev, .img, .port] s { s with recov := { s.recov with lanesUpSince := none } } :=
    (SameOutside.set_recov ..).widen rfl
  exact (SameOutside.set_bw ..).step rfl h1

/-! ## Training of a lane -/

/-- A report of the supply delivered changes neither the lanes nor the field die but its channels' records. -/
theorem deliverSupply_kept (s : State) (band : BitVec 2) : Sends s (deliver s [.supply band]) := by
  have e : takeReports s [.supply band] = takeSupply s band := by simp only [takeReports, List.foldl, takeReport]
  unfold deliver
  rw [e]
  refine Sends.ite (fun _ => takeSupply_sends s band) fun _ => Sends.ite (fun _ => ?_) fun _ => Sends.refl s
  exact Sends.upd (t := s) rfl rfl (Sends.refl s)

/-- With every lane up again the supply's band is reported. -/
def supplyTold (s : State) : State :=
  if s.bw.absent && s.bw.allUp then deliver { s with bw := { s.bw with absent := false } } [.supply s.fd.band] else s

/-- The tick from which every lane is up. -/
def allUpNoted (s : State) : State :=
  if s.bw.allUp then { s with recov := { s.recov with lanesUpSince := some s.tick }, bw := { s.bw with gasped := false } } else s

/-- What the executive offers once every lane is up. -/
def identityOffered (s : State) : State := if s.bw.allUp then offerIdentity (sendRefOn s) else s

/-- What follows the training of a lane. -/
def afterTraining (s s1 : State) (lane : BwLane) : State :=
  let s3 := allUpNoted (supplyTold s1)
  identityOffered (bwRefill (leaveDefault s (refreshServed (if lane = .f2l0 then resetAllPaths s3 else s3))) 16)

theorem bwRefill_sends (s : State) (k : Nat) : Sends s (bwRefill s k) := by
  induction k generalizing s with
  | zero => exact Sends.refl s
  | succ k ih =>
    unfold bwRefill
    refine Sends.ite (fun _ => Sends.refl s) fun _ => ?_
    split
    · exact Sends.refl s
    · split
      · exact Sends.refl s
      · refine Sends.trans ?_ (ih _)
        exact Sends.upd (t := s) rfl rfl (Sends.refl s)

/-- Neither the lanes change nor the field die, but for its channels' records. -/
structure LanesKept (s t : State) : Prop where
  bw : Sends s t
  fd : FdChans s t

namespace LanesKept

theorem refl (s : State) : LanesKept s s := ⟨Sends.refl s, FdChans.of_eq rfl⟩

theorem trans {s t u : State} (h : LanesKept s t) (k : LanesKept t u) : LanesKept s u := ⟨h.bw.trans k.bw, h.fd.trans k.fd⟩

theorem of_sends {ps : List Part} {s t : State} (h : Sends s t) (hm : Moves ps s t) (hp : ps.contains .fd = false) :
    LanesKept s t := ⟨h, FdChans.of_eq (hm.same.fd hp)⟩

theorem of_moves {ps : List Part} {s t : State} (h : Moves ps s t) (hb : ps.contains .bw = false)
    (hp : ps.contains .fd = false) : LanesKept s t := ⟨Sends.of_moves h hb, FdChans.of_eq (h.same.fd hp)⟩

end LanesKept

theorem supplyTold_kept (s : State) : LanesKept s (supplyTold s) := by
  unfold supplyTold
  split
  · have h : LanesKept s { s with bw := { s.bw with absent := false } } := ⟨rfl, FdChans.of_eq rfl⟩
    exact h.trans ⟨deliverSupply_kept .., deliver_fdChans ..⟩
  · exact LanesKept.refl s

theorem allUpNoted_kept (s : State) : LanesKept s (allUpNoted s) := by
  unfold allUpNoted
  split
  · exact ⟨rfl, FdChans.of_eq rfl⟩
  · exact LanesKept.refl s

theorem identityOffered_kept (s : State) : LanesKept s (identityOffered s) := by
  unfold identityOffered
  split
  · exact (LanesKept.of_sends (sendRefOn_sends s) (sendRefOn_moves s) rfl).trans (.of_sends (offerIdentity_sends _) (offerIdentity_moves _) rfl)
  · exact LanesKept.refl s

theorem resetAllPaths_if_kept (c : Prop) [Decidable c] (s : State) : LanesKept s (if c then resetAllPaths s else s) := by
  split
  · exact LanesKept.of_moves (resetAllPaths_moves s) rfl rfl
  · exact LanesKept.refl s

theorem afterTraining_kept (s s1 : State) (lane : BwLane) : LanesKept s1 (afterTraining s s1 lane) := by
  unfold afterTraining
  have h := ((supplyTold_kept s1).trans (allUpNoted_kept _)).trans (resetAllPaths_if_kept (lane = .f2l0) _)
  have h2 := (h.trans (.of_moves (refreshServed_moves _) rfl rfl)).trans (.of_sends (leaveDefault_sends s _) (leaveDefault_moves s _) rfl)
  exact (h2.trans (.of_sends (bwRefill_sends _ 16) (bwRefill_moves _ 16) rfl)).trans (identityOffered_kept _)

theorem exec_breakwaterTrained {s : State} {lane : BwLane} (ha : s.fd.alive = true) (h1 : s.m.run ≠ .held) (h2 : s.m.run ≠ .clockReset)
    (h3 : 3 ≤ s.m.step.toNat) (hup : (match lane with | .f2l0 => s.bw.f2l0Up | .f2l1 => s.bw.f2l1Up | .l2f => s.fd.l2fUp) = false) :
    exec (.breakwaterTrained lane) s = .next (afterTraining s (laneUp s lane) lane) := by
  refine congrArg Host.Outcome.next (if_neg ?_)
  cases lane <;> dsimp only at hup ⊢ <;>
    rw [hup, ha, decide_eq_false h1, decide_eq_false h2, decide_eq_false (Nat.not_lt.mpr h3)] <;> decide

theorem completes_trained {s : State} (ha : s.fd.alive = true) (h1 : s.m.run ≠ .held) (h2 : s.m.run ≠ .clockReset) (h3 : 3 ≤ s.m.step.toNat) :
    (s.bw.f2l0Up = false → Completes (.breakwaterTrained .f2l0) s fun t => t.bw.f2l0Up = true ∧ t.bw.idle0 = 255) ∧
    (s.bw.f2l1Up = false → Completes (.breakwaterTrained .f2l1) s fun t =>
      t.bw.f2l1Up = true ∧ t.bw.idle1 = 255 ∧ t.bw.rxNext = 0 ∧ t.fd.unacked = renumberFd s.fd.unacked 0) ∧
    (s.fd.l2fUp = false → Completes (.breakwaterTrained .l2f) s fun t =>
      t.fd.l2fUp = true ∧ t.bw.l2fUp = true ∧ t.fd.rxNext = 0 ∧ t.fd.idle = 255) := by
  refine ⟨fun hup => ?_, fun hup => ?_, fun hup => ?_⟩
  · obtain ⟨hb, -⟩ := afterTraining_kept s (laneUp s .f2l0) .f2l0
    exact ⟨_, exec_breakwaterTrained ha h1 h2 h3 hup, hb.get Breakwater.f2l0Up fun _ => rfl, hb.get Breakwater.idle0 fun _ => rfl⟩
  · obtain ⟨hb, hf⟩ := afterTraining_kept s (laneUp s .f2l1) .f2l1
    exact ⟨_, exec_breakwaterTrained ha h1 h2 h3 hup, hb.get Breakwater.f2l1Up fun _ => rfl, hb.get Breakwater.idle1 fun _ => rfl,
      hb.get Breakwater.rxNext fun _ => rfl,
      hf.get FieldDie.unacked fun _ => rfl⟩
  · obtain ⟨hb, hf⟩ := afterTraining_kept s (laneUp s .l2f) .l2f
    exact ⟨_, exec_breakwaterTrained ha h1 h2 h3 hup, hf.get FieldDie.l2fUp fun _ => rfl, hb.get Breakwater.l2fUp fun _ => rfl,
      hf.get FieldDie.rxNext fun _ => rfl,
      hf.get FieldDie.idle fun _ => rfl⟩

theorem exec_retrainTimeout {s : State} (h1 : s.m.run ≠ .held) (h2 : s.m.run ≠ .clockReset) (h3 : 3 ≤ s.m.step.toNat)
    (hup : ¬(s.bw.f2l0Up = true ∧ s.bw.f2l1Up = true)) (hm : s.m.mode ≠ .load ∨ s.m.wait = .endedInLoad) (hf : s.bw.retrainFails ≠ 2) :
    exec .retrainTimeout s =
      .next { s with bw := { s.bw with retrain := satInc s.bw.retrain, retrainFails := s.bw.retrainFails + 1 } } := by
  have hc : ¬ (decide (s.m.run = .held) || decide (s.m.run = .clockReset) || decide (s.m.step.toNat < 3) || (s.bw.f2l0Up && s.bw.f2l1Up)) = true := by
    rw [decide_eq_false h1, decide_eq_false h2, decide_eq_false (Nat.not_lt.mpr h3)]
    simpa using hup
  have hl : ¬ (decide (s.m.mode = .load) && decide (s.m.wait ≠ .endedInLoad)) = true := by
    rcases hm with h | h <;> simp [h]
  show execRetrainTimeout s = _
  unfold execRetrainTimeout
  rw [if_neg hc]
  dsimp only
  rw [if_neg hl, if_pos (by omega)]

/-! ## The end of a hold -/

theorem completes_sampleLossClear {s : State} (hb : s.bw.sampleBad = true) :
    Completes .sampleLossClear s fun t =>
      t.bw.sampleBad = false ∧ t.bw.losses = [] ∧ SameOutside [.bw, .ch, .ev, .img, .port, .conv] s t := by
  have e : exec .sampleLossClear s = .next (resetAllPaths { s with bw := { s.bw with sampleBad := false, losses := [] } }) :=
    congrArg Host.Outcome.next (if_pos hb)
  have hs := (resetAllPaths_moves { s with bw := { s.bw with sampleBad := false, losses := [] } }).same
  exact ⟨_, e, congrArg Breakwater.sampleBad (hs.bw rfl), congrArg Breakwater.losses (hs.bw rfl),
      SameOutside.step hs rfl ((SameOutside.set_bw ..).widen rfl)⟩

theorem completes_slackWindowExpiry {s : State} (hon : s.fdOn = true) (hs : s.fd.slack = true) (he : s.fd.expired = false)
    (hm : s.m.mode ≠ .load) (hr : s.recov.reload = none) :
    Completes .slackWindowExpiry s fun t =>
      t.fd.expired = true ∧ (∀ n : Chan, (t.fdc n).safeOn = true) ∧ SameOutside [.free, .fd] s t := by
  let s1 : State := { s with fd := { s.fd with expired := true } }
  have hsame : SameOutside [.free, .fd] s (applySafeAll s1) :=
    SameOutside.step (applySafeAll_moves s1).same rfl ((SameOutside.set_fd ..).widen rfl)
  have e : exec .slackWindowExpiry s = .next (applySafeAll s1) := by
    show execSlackWindowExpiry s = _
    unfold execSlackWindowExpiry
    rw [if_neg (by rw [hon, hs, he]; decide)]
    dsimp only
    rw [hsame.m rfl, hsame.recov rfl, if_neg (by simp [hm]), hr]
  exact ⟨_, e, (applySafeAll_kept s1).get FieldDie.expired fun _ => rfl, applySafeAll_safeOn s1, hsame⟩

/-- Settles O16: a lane lost or trained changes its own fields, and what follows only sends. -/
theorem lanesLostAndTrained : Obligations.LanesLostAndTrained :=
  ⟨fun _ => ⟨exec_bwRetransmit_logic, exec_bwRetransmit_field, completes_l2fLaneLost, completes_f2lLaneLost0, completes_f2lLaneLost1⟩,
    fun _ => ⟨completes_trained, exec_retrainTimeout, completes_sampleLossClear, completes_slackWindowExpiry⟩⟩

end Sys2Proof.Machine
end

section
namespace Sys2Proof.Machine

/-- The frame of a command whose end is known. -/
theorem Ends.same {ps : List Part} {s t : State} {o : Host.Outcome State Fault Refusal} (h : Ends ps s o) (e : o = .next t) :
    SameOutside ps s t := by
  obtain ⟨u, hu, hm⟩ := h
  obtain rfl : u = t := Host.Outcome.next.inj (hu.symm.trans e)
  exact hm.same

/-! ## What a loop shows -/

/-- What showing a loop's state changes in its record. -/
def LoopShown (c d : ChanLoop) : Prop := d = { c with live := d.live, lat := d.lat, dirEff := d.dirEff }

theorem LoopShown.refl (c : ChanLoop) : LoopShown c c := rfl

theorem LoopShown.trans {c d e : ChanLoop} (h : LoopShown c d) (k : LoopShown d e) : LoopShown c e := by
  unfold LoopShown at *
  rw [k, h]

theorem LoopShown.get {c d : ChanLoop} (h : LoopShown c d) {α : Type} (g : ChanLoop → α)
    (hg : ∀ e : ChanLoop, g { c with live := e.live, lat := e.lat, dirEff := e.dirEff } = g c) : g d = g c :=
  (congrArg g h).trans (hg d)

/-- From `s` to `t` no loop has changed but in what it shows. -/
def LoopsShown (s t : State) : Prop := ∀ m : Chan, LoopShown s.loop[m] t.loop[m]

theorem LoopsShown.of_eq {s t : State} (h : t.loop = s.loop) : LoopsShown s t := fun m => by rw [h]; rfl

theorem LoopsShown.trans {s t u : State} (h : LoopsShown s t) (k : LoopsShown t u) : LoopsShown s u := fun m => (h m).trans (k m)

theorem LoopsShown.ite {s t u : State} {c : Prop} [Decidable c] (h : LoopsShown s t) (k : LoopsShown s u) :
    LoopsShown s (if c then t else u) := by
  split
  · exact h
  · exact k

theorem modLoop_shown (s : State) (n : Chan) (f : ChanLoop → ChanLoop) (hf : ∀ c, LoopShown c (f c)) : LoopsShown s (s.modLoop n f) := by
  intro m
  rw [State.modLoop_loop, modAt_get]
  split
  · next h => exact h ▸ hf _
  · rfl

theorem putLoop_shown (s : State) (n : Chan) : LoopsShown s (putLoop s n) := by
  unfold putLoop
  refine LoopsShown.ite (LoopsShown.of_eq ((putCommands_moves ..).same.loop rfl)) ?_
  extract_lets l act clamp fail s1
  have h1 : LoopsShown s s1 := (modLoop_shown s n _ (by intro _; rfl)).trans (modLoop_shown _ n _ (by intro _; rfl))
  refine LoopsShown.trans ?_ (LoopsShown.of_eq ((putCommands_moves ..).same.loop rfl))
  exact LoopsShown.ite (h1.trans (LoopsShown.of_eq ((raiseMeasure_moves ..).same.loop rfl))) h1

/-- A target written: the channel's own loop takes it, and the others go on. -/
theorem setTarget_loop (s : State) (n : Chan) (t : Option (W16 × Bool)) :
    (setTarget s n t).loop[n].targetOn = t.isSome ∧ (setTarget s n t).loop[n].deliver = (t.map (·.1)).getD 0 ∧
    ∀ m : Chan, m ≠ n → LoopShown s.loop[m] (setTarget s n t).loop[m] := by
  unfold setTarget
  extract_lets c same s1
  have h1 : (if t.isSome then putDac s1 n else s1).loop = s1.loop := by
    split
    · exact (putDac_moves ..).same.loop rfl
    · rfl
  generalize (if t.isSome then putDac s1 n else s1) = a at h1
  have hn := putLoop_shown a n n
  rw [h1, State.modLoop_loop, modAt_self] at hn
  refine ⟨hn.get ChanLoop.targetOn fun _ => rfl, hn.get ChanLoop.deliver fun _ => rfl, fun m hm => ?_⟩
  have h := putLoop_shown a n m
  rwa [h1, State.modLoop_loop, modAt_of_ne _ _ hm] at h

theorem targetOff_loop (s : State) (n : Chan) :
    (targetOff s n).loop[n].targetOn = false ∧ (targetOff s n).loop[n].deliver = 0 ∧
    ∀ m : Chan, m ≠ n → LoopShown s.loop[m] (targetOff s n).loop[m] := by
  obtain ⟨h1, h2, h3⟩ := setTarget_loop (s.modLoop n fun l => { l with rloop := 0xFFFF, riskSince := none, easeSince := none }) n none
  refine ⟨h1, h2, fun m hm => ?_⟩
  have h := h3 m hm
  rwa [State.modLoop_loop, modAt_of_ne _ _ hm] at h

/-- The AO channels among `l` have no target left, and those that had none keep none. -/
theorem foldl_targetOff (l : List Chan) (s : State) (m : Chan)
    (h : m ∈ l ∨ (s.loop[m].targetOn = false ∧ s.loop[m].deliver = 0)) (hm : isAO s.ch[m].kind = true) :
    (l.foldl (fun a n => if isAO a.ch[n].kind then targetOff a n else a) s).loop[m].targetOn = false ∧
    (l.foldl (fun a n => if isAO a.ch[n].kind then targetOff a n else a) s).loop[m].deliver = 0 := by
  induction l generalizing s with
  | nil => exact h.elim (fun c => absurd c (List.not_mem_nil)) id
  | cons n l ih =>
    have hch : (if isAO s.ch[n].kind then targetOff s n else s).ch = s.ch := by
      split
      · exact (targetOff_moves ..).same.ch rfl
      · rfl
    refine ih (if isAO s.ch[n].kind then targetOff s n else s) ?_ (by rw [hch]; exact hm)
    obtain ⟨h1, h2, h3⟩ := targetOff_loop s n
    by_cases hn : m = n
    · subst hn
      rw [if_pos hm]
      exact Or.inr ⟨h1, h2⟩
    · refine h.imp (fun c => (List.mem_cons.mp c).resolve_left hn) fun ⟨k1, k2⟩ => ?_
      split
      · exact ⟨((h3 m hn).get ChanLoop.targetOn fun _ => rfl).trans k1, ((h3 m hn).get ChanLoop.deliver fun _ => rfl).trans k2⟩
      · exact ⟨k1, k2⟩

/-- The regulating outputs of a field die that has gone have no target. -/
theorem fieldGone_loop {s : State} {n : Chan} (hn : isAO s.ch[n].kind = true) :
    (fieldGone s).loop[n].targetOn = false ∧ (fieldGone s).loop[n].deliver = 0 := by
  unfold fieldGone
  exact foldl_targetOff _ _ n (Or.inl (List.mem_finRange n)) hn

theorem foldl_targetOff_moves (l : List Chan) (s : State) :
    Moves [.ev, .img, .port, .conv, .loop] s (l.foldl (fun a n => if isAO a.ch[n].kind then targetOff a n else a) s) :=
  Moves.foldl (fun _ _ => Moves.ite (fun _ => targetOff_moves ..) fun _ => Moves.refl _) (Moves.refl _)

theorem fieldGone_almsel (s : State) : (fieldGone s).trim.almsel = false := by
  unfold fieldGone
  rw [(foldl_targetOff_moves ..).same.trim rfl]

/-! ## The field die's own reset, supply and last-gasp -/

theorem defaultChan_fresh (n : Chan) (f : FieldDie) (hf : f.ch = (Vector.replicate 16 ({} : FdChan)).map defaultChan) :
    f.ch[n].on = false ∧ f.ch[n].blockOpen = true := by
  have h : f.ch[n] = defaultChan {} := by
    rw [hf]
    exact (Vector.getElem_map ..).trans (congrArg defaultChan (Vector.getElem_replicate ..))
  rw [h]
  exact ⟨rfl, rfl⟩

theorem completes_fieldResetRelease {s : State} {almsel : Bool} (ha : s.fd.alive = false) :
    Completes (.fieldResetRelease almsel) s fun t =>
      t.fd.alive = true ∧ t.fd.refOn = true ∧ t.fd.refReady = false ∧ t.fd.almsel = almsel ∧ t.fd.ident = none ∧
      t.fd.gaspNumber = s.fd.gaspNumber ∧ t.fd.retained = s.fd.retained ∧
      (∀ n : Chan, (t.fdc n).on = false ∧ (t.fdc n).blockOpen = true) ∧ SameOutside [.fd] s t := by
  have e : exec (.fieldResetRelease almsel) s = .next _ := congrArg Host.Outcome.next (if_neg (by rw [ha]; decide))
  exact ⟨_, e, rfl, rfl, rfl, rfl, rfl, rfl, rfl, fun n => defaultChan_fresh n _ rfl, SameOutside.set_fd ..⟩

theorem completes_refReady {s : State} (ha : s.fd.alive = true) (ho : s.fd.refOn = true) (hr : s.fd.refReady = false) :
    Completes .refReady s fun t => t.fd.refReady = true ∧ SameOutside [.fd] s t := by
  have e : exec .refReady s = .next (reportStatus { s with fd := { s.fd with refReady := true } } .refReady) :=
    congrArg Host.Outcome.next (if_pos (by rw [ha, ho, hr]; rfl))
  exact ⟨_, e, (FieldStep.reportStatus _ 0 _).kept.get FieldDie.refReady fun _ => rfl, SameOutside.step (reportStatus_moves ..).same rfl
    (SameOutside.set_fd ..)⟩

theorem completes_refOnRetry {s : State} (hr : s.m.run = .running) (hm : s.m.mode = .load) (h5 : s.m.step = 5) (hc : s.conv.refReady = false)
    (h0 : s.m.refOnTries ≠ 0) (h3 : s.m.refOnTries ≤ 3) :
    Completes .refOnRetry s fun t =>
      t.m.refOnTries = s.m.refOnTries + 1 ∧ t.m.wait = .reference ∧ SameOutside [.m, .bw, .ev, .port] s t := by
  have e : exec .refOnRetry s = .next _ := congrArg Host.Outcome.next (if_neg (by
    rw [hr, hm, h5, hc, decide_eq_false h0, decide_eq_false (Nat.not_lt.mpr h3)]
    decide))
  have hs : SameOutside [.m, .bw, .ev, .port] s { s with m := { s.m with refOnTries := s.m.refOnTries + 1, wait := .reference } } :=
    (SameOutside.set_m ..).widen rfl
  refine ⟨_, e, ?_⟩
  dsimp only
  split
  · have h := (bwSend_moves { s with m := { s.m with refOnTries := s.m.refOnTries + 1, wait := .reference } } .refOn).same
    exact ⟨congrArg ModeState.refOnTries (h.m rfl), congrArg ModeState.wait (h.m rfl), SameOutside.step h rfl hs⟩
  · have h := (raise_moves { s with m := { s.m with refOnTries := s.m.refOnTries + 1, wait := .reference } } srcRefFault
    (refstatWord s.conv)).same
    exact ⟨congrArg ModeState.refOnTries (h.m rfl), congrArg ModeState.wait (h.m rfl), SameOutside.step h rfl hs⟩

theorem completes_bandChange {s : State} {band : BitVec 2} (ha : s.fd.alive = true) (hg : s.fd.gasping = false) (hb : band ≠ s.fd.band)
    (h3 : band ≠ 3) :
    Completes (.fieldSupplyBandChange band) s fun t =>
      t.fd.band = band ∧ (band ≠ 0 → ∀ n : Chan, (t.fdc n).dither = false) ∧ SameOutside [.fd, .ch, .ev, .img, .port, .conv] s t := by
  let s1 : State := { s with fd := { s.fd with
    band := band, ch := if band = 0 then s.fd.ch else s.fd.ch.map fun c => { c with dither := false } } }
  have e : exec (.fieldSupplyBandChange band) s = .next (reportStatus (setScan s1 (scanTarget s1).1 (ebbBand band)) (.supply band)) :=
    congrArg Host.Outcome.next (if_neg (by rw [ha, hg, decide_eq_false hb, decide_eq_false h3]; decide))
  have hfd : (setScan s1 (scanTarget s1).1 (ebbBand band)).fd = s1.fd := (setScan_moves ..).same.fd rfl
  have hs1 : SameOutside [.fd, .ch, .ev, .img, .port, .conv] s s1 := (SameOutside.set_fd ..).widen rfl
  refine ⟨_, e, ?_, fun h0 n => ?_, SameOutside.step (reportStatus_moves ..).same rfl (SameOutside.step (setScan_moves ..).same rfl hs1)⟩
  · exact ((FieldStep.reportStatus _ 0 _).kept.get FieldDie.band fun _ => rfl).trans (congrArg FieldDie.band hfd)
  · rw [reportStatus_fdc, State.fdc, hfd]
    have hn : s1.fd.ch[n] = { s.fd.ch[n] with dither := false } := by
      have hc : s1.fd.ch = s.fd.ch.map fun c => { c with dither := false } := if_neg h0
      rw [hc]
      exact Vector.getElem_map ..
    rw [hn]

/-- What a turn-off gives each record of the unit, and that it leaves the others. -/
theorem turnOff_get (s : State) (n m : Chan) :
    (turnOff s n).fdc m = if m ∈ s.halves n then
      { s.fdc m with on := false, flood := false, onHeld := false, win := .notArmed, dither := false, lastPulse := .none, offTick := some s.fd.tick }
    else s.fdc m := by
  have hc := turnOff_report_step s n (s.fdc (s.unit n)) (.ditherCut (s.unit n))
  have hr := turnOff_report_fdc s (s.fdc (s.unit n)) (.ditherCut (s.unit n)) m
  unfold turnOff
  dsimp only
  rw [report_fdc, report_fdc]
  generalize (if inLowHalf s (s.fdc (s.unit n)) then report (floodCut s (s.fdc (s.unit n))).2 (.ditherCut (s.unit n))
    else (floodCut s (s.fdc (s.unit n))).2) = a at hc hr ⊢
  rw [modHalves_get, halves_cfg hc.cfg, hr]

/-- A record whose outputs the last-gasp has switched off: what it may still become. -/
structure GaspOff (c d : FdChan) : Prop where
  dither : c.dither = false → d.dither = false
  on : c.on = false → d.on = false
  dac : d.dac = c.dac
  cfg : d.cfg = c.cfg

theorem gaspDo_off (s : State) (n m : Chan) : GaspOff (s.fdc m) ((gaspDo s n).fdc m) := by
  unfold gaspDo
  split
  · rw [turnOff_get]
    split
    · exact ⟨fun _ => rfl, fun _ => rfl, rfl, rfl⟩
    · exact ⟨id, id, rfl, rfl⟩
  · exact ⟨id, id, rfl, rfl⟩

theorem gaspDo_self {s : State} {n : Chan} (hk : fdKind (s.fdc n) = kindDO) : ((gaspDo s n).fdc n).on = false := by
  unfold gaspDo
  split
  · have h := turnOff_on s n
    rwa [unit_of_kindDO hk] at h
  · next h => simpa [hk] using h

theorem gaspDo_kept (s : State) (n : Chan) : FdKept s (gaspDo s n) := FdKept.ite (turnOff_step s n).kept (FdKept.refl s)

theorem foldl_gaspDo (l : List Chan) (s : State) (m : Chan) :
    GaspOff (s.fdc m) ((l.foldl gaspDo s).fdc m) ∧
    (fdKind (s.fdc m) = kindDO → m ∈ l → ((l.foldl gaspDo s).fdc m).on = false) := by
  induction l generalizing s with
  | nil => exact ⟨⟨id, id, rfl, rfl⟩, fun _ h => absurd h List.not_mem_nil⟩
  | cons n l ih =>
    obtain ⟨h, hdo⟩ := ih (gaspDo s n)
    have h0 := gaspDo_off s n m
    refine ⟨⟨fun c => h.dither (h0.dither c), fun c => h.on (h0.on c), h.dac.trans h0.dac, h.cfg.trans h0.cfg⟩, fun hk hm => ?_⟩
    rcases List.mem_cons.mp hm with rfl | hl
    · exact h.on (gaspDo_self hk)
    · exact hdo ((fdKind_cfg (gaspDo_kept s n).cfg m).trans hk) hl

/-- The record of a last-gasp. -/
def gaspRecord (s : State) (vfld vhold : W16) : GaspRecord :=
  ⟨s.fd.gaspNumber + 1, .fieldReset, vfld, vhold, s.fd.ch.map fun c => (gaspAo c).on⟩

/-- The field die once the first order of a last-gasp is done. -/
def gaspBegun (s : State) (vfld vhold : W16) : State :=
  { s with fd := { s.fd with gasping := true, gaspNumber := s.fd.gaspNumber + 1, retained := some (gaspRecord s vfld vhold),
                             ch := s.fd.ch.map gaspAo } }

theorem gaspBegun_fdc (s : State) (vfld vhold : W16) (n : Chan) : (gaspBegun s vfld vhold).fdc n = gaspAo (s.fdc n) := Vector.getElem_map ..

theorem gaspAo_facts (c : FdChan) :
    (gaspAo c).dither = false ∧ fdKind (gaspAo c) = fdKind c ∧ (isAO (fdKind c) = true → (gaspAo c).on = false ∧ (gaspAo c).dac = 0) := by
  unfold gaspAo
  dsimp only
  split
  · exact ⟨rfl, rfl, fun _ => ⟨rfl, rfl⟩⟩
  · next h => exact ⟨rfl, rfl, fun k => absurd k h⟩

theorem completes_lastGasp {s : State} {vfld vhold : W16} (ha : s.fd.alive = true) (hg : s.fd.gasping = false) :
    Completes (.lastGasp vfld vhold) s fun t =>
      t.fd.gasping = true ∧ t.fd.gaspNumber = s.fd.gaspNumber + 1 ∧
      t.fd.retained = some ⟨s.fd.gaspNumber + 1, .fieldReset, vfld, vhold, s.fd.ch.map fun c => (gaspAo c).on⟩ ∧
      (∀ n : Chan, (t.fdc n).dither = false ∧ (isAO (fdKind (s.fdc n)) = true → (t.fdc n).on = false ∧ (t.fdc n).dac = 0) ∧
        (fdKind (s.fdc n) = kindDO → (t.fdc n).on = false)) ∧
      SameOutside [.free, .fd] s t := by
  have e : exec (.lastGasp vfld vhold) s = .next (report (report ((List.finRange 16).foldl gaspDo (gaspBegun s vfld vhold))
      (.lastGasp (gaspRecord s vfld vhold) false)) (.lastGasp (gaspRecord s vfld vhold) false)) := by
    show execLastGasp vfld vhold s = _
    rw [execLastGasp, if_neg (by rw [ha, hg]; decide)]
    dsimp only [gaspBegun, gaspRecord]
  have hk : FdKept (gaspBegun s vfld vhold) (report (report ((List.finRange 16).foldl gaspDo (gaspBegun s vfld vhold))
      (.lastGasp (gaspRecord s vfld vhold) false)) (.lastGasp (gaspRecord s vfld vhold) false)) :=
    (FdKept.foldl gaspDo_kept _ _).trans ((FieldStep.report _ 0 _).trans (FieldStep.report _ 0 _)).kept
  refine ⟨_, e, hk.get FieldDie.gasping fun _ => rfl, hk.get FieldDie.gaspNumber fun _ => rfl, hk.get FieldDie.retained fun _ => rfl, fun n => ?_,
    ((execLastGasp_ends vfld vhold s).same e).widen rfl⟩
  rw [report_fdc, report_fdc]
  obtain ⟨hoff, hdo⟩ := foldl_gaspDo (List.finRange 16) (gaspBegun s vfld vhold) n
  rw [gaspBegun_fdc] at hoff hdo
  obtain ⟨hd, hkind, hao⟩ := gaspAo_facts (s.fdc n)
  exact ⟨hoff.dither hd, fun h => ⟨hoff.on (hao h).1, hoff.dac.trans (hao h).2⟩, fun h => hdo (hkind.trans h) (List.mem_finRange n)⟩

theorem completes_fieldDieReset {s : State} (hg : s.fd.gasping = true) :
    Completes .fieldDieReset s fun t =>
      t.fd.alive = false ∧ t.fd.ident = none ∧ t.fd.gaspNumber = s.fd.gaspNumber ∧ t.fd.retained = s.fd.retained ∧
      (∀ n : Chan, (t.fdc n).on = false ∧ (isAO s.ch[n].kind = true → t.loop[n].targetOn = false ∧ t.loop[n].deliver = 0)) ∧
      t.trim.almsel = false ∧ SameOutside [.fd, .ev, .img, .port, .conv, .loop, .trim] s t := by
  let fd : FieldDie := { gaspNumber := s.fd.gaspNumber, retained := s.fd.retained, ch := (Vector.replicate 16 {}).map defaultChan }
  have e : exec .fieldDieReset s = .next (fieldGone { s with fd := fd }) := congrArg Host.Outcome.next (if_neg (by rw [hg]; decide))
  have hs := (fieldGone_moves { s with fd := fd }).same
  refine ⟨_, e, congrArg FieldDie.alive (hs.fd rfl), congrArg FieldDie.ident (hs.fd rfl), by rw [hs.fd rfl], by rw [hs.fd rfl], fun n => ⟨?_,
      fun hk => ?_⟩, ?_, SameOutside.step hs rfl ((SameOutside.set_fd ..).widen rfl)⟩
  · rw [State.fdc, hs.fd rfl]
    exact (defaultChan_fresh n fd rfl).1
  · exact fieldGone_loop hk
  · exact fieldGone_almsel _

theorem completes_fieldFault {s : State} {f : FieldFault} (ha : s.fd.alive = true) (hf : f ≠ .microcodeRam ∨ s.bw.ramOnce = true) :
    Completes (.fieldDieFaultDetected f) s fun t =>
      t.fd.fatal = true ∧ (f = .tableCheck → t.fd.tableBad = true) ∧
      (s.fd.ident.isSome = true → ∀ n : Chan, (t.fdc n).safeOn = true) ∧ SameOutside [.free, .fd] s t := by
  let s1 : State := { s with fd := { s.fd with fatal := true, tableBad := s.fd.tableBad || f = .tableCheck } }
  have e : exec (.fieldDieFaultDetected f) s = .next (reportStatus (if s1.fdOn then applySafeAll s1 else s1) (.fatal (f = .tableCheck))) := by
    show execFieldDieFaultDetected f s = _
    unfold execFieldDieFaultDetected
    rw [if_neg (by rw [ha]; decide), if_neg (by rcases hf with h | h <;> simp [h])]
  have hk : FdKept s1 (reportStatus (if s1.fdOn then applySafeAll s1 else s1) (.fatal (f = .tableCheck))) :=
    (FdKept.ite (applySafeAll_kept s1) (FdKept.refl s1)).trans (FieldStep.reportStatus _ 0 _).kept
  refine ⟨_, e, hk.get FieldDie.fatal fun _ => rfl, fun h => (hk.get FieldDie.tableBad fun _ => rfl).trans ?_, fun hi n => ?_,
    ((execFieldDieFaultDetected_ends f s).same e).widen rfl⟩
  · simp [s1, h]
  · rw [reportStatus_fdc, if_pos (show s1.fdOn = true by rw [show s1.fdOn = (s.fd.alive && s.fd.ident.isSome) from rfl, ha, hi]; rfl)]
    exact applySafeAll_safeOn s1 n

/-- A status report outside slack hold joins those that wait. -/
theorem reportStatus_waits {s : State} {r : Report} (ha : s.fd.alive = true) (hs : s.fd.slack = false) :
    reportStatus s r = { s with fd := { s.fd with status := s.fd.status ++ [r] } } := by
  rw [reportStatus, hs, if_neg Bool.false_ne_true, if_pos ha]

/-- Settles O17: each supply event changes the field die's own fields; what it then does at the channels leaves them. -/
theorem fieldSupplyAndReset : Obligations.FieldSupplyAndReset := by
  refine fun s => ⟨fun _ => completes_fieldResetRelease, completes_refReady, completes_refOnRetry, fun _ => completes_bandChange,
    fun _ _ => completes_lastGasp, completes_fieldDieReset, rfl, fun falling ha hs => congrArg Host.Outcome.next (reportStatus_waits ha hs),
    fun ha hr hs => ?_, fun _ => completes_fieldFault⟩
  show execFieldDieFaultDetected .microcodeRam s = _
  unfold execFieldDieFaultDetected
  rw [if_neg (by rw [ha]; decide), if_pos (by rw [hr]; rfl), reportStatus_waits ha hs]

end Sys2Proof.Machine
end

section
/-! Samples, results and ALIGN (01 R19; 08 R222, R233, R236–R238). -/
namespace Sys2Proof.Machine

/-! ## SAMPLE frames -/

/-- The logic die once it has accepted a frame of lane 0. -/
def accepted0 (s : State) (h : BwHeader) : State := bwValid { s with bw := { s.bw with idle0 := h.seq } } false h

theorem accepted0_same (s : State) (h : BwHeader) : SameOutside [.bw] s (accepted0 s h) :=
  SameOutside.step (bwValid_moves ..).same rfl (SameOutside.set_bw ..)

theorem accepted0_rec (s : State) (h : BwHeader) :
    AckRec { s.bw with idle0 := h.seq, ebb := bitAt h.flags 2, fail0 := 0 } (accepted0 s h).bw :=
  bwValid_lane0 _ h

theorem takePlain_accepted {s : State} {h : BwHeader} {ty : Byte} (f : State → State) (hup : s.bw.f2l0Up = true) (ha : s.fd.alive = true)
    (hf : frameOk h ty = true) (h1 : 1 ≤ (h.seq - s.bw.idle0).toNat) (h16 : (h.seq - s.bw.idle0).toNat ≤ 16) :
    bwTakePlain s false h ty f = f (accepted0 s h) := by
  unfold bwTakePlain
  dsimp only
  rw [if_neg (by simp [hup, ha]), if_neg (by rw [if_neg Bool.false_ne_true, Bool.or_assoc, seq_ahead h1 h16, hf]; decide)]
  rfl

/-- What follows the bookkeeping of an accepted SAMPLE frame leaves the Breakwater. -/
theorem sampleFed_same (s : State) (c : Bool) (missI missV : BitVec 14) (l : List (Option (W16 × W16))) (start : W64) :
    SameOutside [.ch, .ev, .img, .port, .conv] s (feedPairs (judgeSar (if c then dropValid (raiseBw s) else s) missI missV) l start) := by
  refine SameOutside.step (feedPairs_moves ..).same rfl (SameOutside.step (judgeSar_moves ..).same rfl ?_)
  split
  · exact SameOutside.step (dropValid_moves ..).same rfl ((raiseBw_moves s).same.widen rfl)
  · exact SameOutside.refl s

/-- The bookkeeping of an accepted SAMPLE frame (01 R19). -/
def sampleCounted (s : State) (h : BwHeader) (losses : List (W64 × Nat)) (bad : Bool) : State :=
  let gap := match s.bw.lastSlot with | some l => (sampleSlot h - (l + 14)).toNat | none => 0
  { s with bw := { s.bw with
      lastSlot := some (sampleSlot h), losses := losses, lostSample := satAdd s.bw.lostSample (gap / 14), sampleBad := bad } }

theorem completes_sampleFrame {s : State} {h : BwHeader} {first : W64} {missI missV : BitVec 14} (hup : s.bw.f2l0Up = true)
    (ha : s.fd.alive = true) (hg : s.fd.gasping = false) (hf : frameOk h tySample = true) (h1 : 1 ≤ (h.seq - s.bw.idle0).toNat)
    (h16 : (h.seq - s.bw.idle0).toNat ≤ 16) (hr : s.fd.refReady = true) (hm : s.conv.mask ≠ 0) :
    Completes (.sampleFrame h first missI missV) s fun t =>
      t.bw.idle0 = h.seq ∧ t.bw.lastSlot = some (sampleSlot h) ∧
      (∀ l, s.bw.lastSlot = some l → t.bw.lostSample = satAdd s.bw.lostSample ((sampleSlot h - (l + 14)).toNat / 14)) ∧
      SameOutside [.bw, .ch, .ev, .img, .port, .conv] s t := by
  have hs := accepted0_same s h
  have hrec := accepted0_rec s h
  generalize ha' : accepted0 s h = a at hs hrec
  obtain ⟨losses, bad, c, l, start, e⟩ : ∃ losses bad, ∃ c : Bool, ∃ l start, exec (.sampleFrame h first missI missV) s = .next (feedPairs
    (judgeSar
      (if c then dropValid (raiseBw (sampleCounted a h losses bad)) else sampleCounted a h losses bad) missI missV) l start) := by
    have e : execSampleFrame h first missI missV s = _ := congrArg Host.Outcome.next (if_neg (by rw [hg]; decide))
    rw [takePlain_accepted _ hup ha hf h1 h16, ha', if_neg (by rw [hs.fd rfl, hr]; decide), if_neg (by rw [hs.conv rfl]; exact hm)] at e
    exact ⟨_, _, _, _, _, e⟩
  have hk := sampleFed_same (sampleCounted a h losses bad) c missI missV l start
  refine ⟨_, e, ?_, ?_, fun l hl => ?_, SameOutside.step hk rfl (SameOutside.step (SameOutside.set_bw a _) rfl (hs.widen rfl))⟩
  · rw [hk.bw rfl]
    exact hrec.get Breakwater.idle0 fun _ => rfl
  · rw [hk.bw rfl]
    rfl
  · rw [hk.bw rfl]
    show satAdd a.bw.lostSample ((match a.bw.lastSlot with | some l => _ | none => _) / 14) = _
    rw [hrec.get Breakwater.lostSample fun _ => rfl, hrec.get Breakwater.lastSlot fun _ => rfl, hl]

/-! ## HOUSEKEEPING frames -/

/-- The results of the housekeeping inputs stand. -/
def HkKept (s t : State) : Prop := t.conv.hk = s.conv.hk

namespace HkKept

theorem refl (s : State) : HkKept s s := rfl

theorem of_moves {ps : List Part} {s t : State} (h : Moves ps s t) (hc : ps.contains .conv = false) : HkKept s t := by
  rw [HkKept, h.same.conv hc]

theorem trans {s t u : State} (h : HkKept s t) (k : HkKept t u) : HkKept s u := Eq.trans k h

theorem ite {s a b : State} {c : Prop} [Decidable c] (ha : HkKept s a) (hb : HkKept s b) : HkKept s (if c then a else b) := by
  split
  · exact ha
  · exact hb

theorem foldl {β : Type} {f : State → β → State} (hf : ∀ a x, HkKept a (f a x)) (l : List β) (s : State) : HkKept s (l.foldl f s) := by
  induction l generalizing s with
  | nil => rfl
  | cons x l ih => exact trans (hf s x) (ih _)

end HkKept

theorem putResult_hk (s : State) (p : PathIx) (r : ResultBlock) : HkKept s (putResult s p r) :=
  HkKept.trans (by exact rfl) (HkKept.of_moves (updateSetl_moves _ (pathChan p)) rfl)

theorem resetFrom_hk (s : State) (since : W64) (p : PathIx) : HkKept s (resetFrom s since p) := by
  unfold resetFrom
  refine HkKept.ite rfl (HkKept.trans ?_ (putResult_hk _ p _))
  have h0 : ∀ a : State, HkKept a (match s.conv.path[p].fade with | some f => swapNow a p f.target | none => a) := fun a => by
    split <;> rfl
  have h2 : ∀ a : State, HkKept a (match s.conv.path[p].loadAfter with
      | some set => (loadBank a p (!a.conv.path[p].active) set).modPath p fun x => { x with loadAfter := none }
      | none => a) := fun a => by
    split <;> rfl
  have h3 : ∀ a : State, HkKept a (match a.conv.path[p].load with
      | some (x, y) =>
        let t := !a.conv.path[p].active
        (loadBank (loadBank a p t x) p (!t) y).modPath p fun z => { z with load := none, active := t, flip := t != (s.desc p).bank }
      | none => a) := fun a => by
    split <;> rfl
  exact (HkKept.trans ((h0 s).trans (by exact rfl)) (h2 _)).trans (h3 _)

theorem resetAllPaths_hk (s : State) : HkKept s (resetAllPaths s) := HkKept.foldl (fun a p => resetFrom_hk a _ p) _ s

/-- What a fault of the converters or of the reference is told to leaves the results. -/
theorem told_hk {s a : State} (h : HkKept s a) (src : SrcIx) (d : W32) : HkKept s (evalAll (raise a src d)) :=
  h.trans ((HkKept.of_moves (raise_moves ..) rfl).trans (HkKept.of_moves (evalAll_moves _) rfl))

theorem converterFault_hk (s : State) (k : Fin 3) : HkKept s (converterFault s k) := by
  unfold converterFault
  exact HkKept.ite rfl (told_hk (by exact rfl) _ _)

theorem judgeTap_hk (s : State) : HkKept s (judgeTap s) := by
  unfold judgeTap
  exact HkKept.ite (HkKept.ite rfl rfl) (HkKept.ite (HkKept.trans (by exact rfl) (converterFault_hk _ 2)) rfl)

theorem judgeRef_hk (s : State) : HkKept s (judgeRef s) := by
  unfold judgeRef
  refine HkKept.ite rfl (HkKept.ite (HkKept.ite rfl (told_hk (by exact rfl) _ _)) (HkKept.ite (HkKept.ite ?_ rfl) rfl))
  exact (HkKept.trans (by exact rfl) (resetAllPaths_hk _)).trans (HkKept.of_moves (evalAll_moves _) rfl)

theorem judgeCase_hk (s : State) : HkKept s (judgeCase s) := HkKept.of_moves (judgeCase_moves s) rfl

/-- What a HOUSEKEEPING frame's sums are judged for leaves the results as its last sums made them. -/
theorem takeSums_hk (s : State) (sums : List (Fin 24 × Nat)) (ended : W64) (missed : Bool) :
    ∃ a, HkKept (sums.foldl (fun a x => putHk a ended x.1 x.2) a) (takeSums s sums ended missed) := by
  exact ⟨_, ((HkKept.ite (judgeTap_hk _) rfl).trans (HkKept.ite (judgeRef_hk _) rfl)).trans (HkKept.ite (judgeCase_hk _) rfl)⟩

theorem foldl_putHk {sums : List (Fin 24 × Nat)} {i : Fin 24} {k : Nat} (h : sums.getLast? = some (i, k)) (ended : W64) (s : State) :
    (sums.foldl (fun a x => putHk a ended x.1 x.2) s).conv.hk[i].fout = BitVec.ofNat 32 k ∧
    (sums.foldl (fun a x => putHk a ended x.1 x.2) s).conv.hk[i].fresh = true := by
  obtain ⟨l, rfl⟩ := List.getLast?_eq_some_iff.mp h
  rw [List.foldl_append]
  simp only [List.foldl, putHk, setAt_self, and_self]

theorem completes_housekeepingFrame {s : State} {h : BwHeader} {sums : List (Fin 24 × Nat)} {missed : Bool} {i : Fin 24} {k : Nat}
    (hup : s.bw.f2l1Up = true) (hm : fdMaySend s h.seq = true) (hh : fdHeld s h.seq = none) (hg : s.fd.gasping = false)
    (he : s.fd.slack = true ∨ s.fd.events = []) (hf : frameOk h tyHousekeeping = true) (hn : h.seq = s.bw.rxNext)
    (hl : sums.getLast? = some (i, k)) :
    Completes (.housekeepingFrame h sums missed) s fun t =>
      t.conv.hk[i].fout = BitVec.ofNat 32 k ∧ t.conv.hk[i].fresh = true ∧
      SameOutside [.bw, .fd, .ch, .ev, .img, .port, .conv, .gov] s t := by
  have ha : s.fd.alive = true := by
    unfold fdMaySend at hm
    simp only [Bool.and_eq_true] at hm
    exact hm.1.1
  have hform : formHk s h.seq sums missed = fdSend s (.housekeeping sums (lastMs s) missed) := by
    unfold formHk
    refine if_neg ?_
    rw [hm, hg]
    rcases he with he | he <;> simp [he]
  have hst := formHk_formed s h.seq sums missed
  have hb : fdHeld (formHk s h.seq sums missed) h.seq = some (.housekeeping sums (lastMs s) missed) := by
    rw [hform]
    exact fdHeld_fdSend _ hm hh
  have e : exec (.housekeepingFrame h sums missed) s =
      .next (takeSums (accepted (formHk s h.seq sums missed) h) sums (lastMs s) missed) :=
    congrArg Host.Outcome.next (takeRetx_accepted _ (by rw [hst.same.bw rfl]; exact hup) (hst.alive.trans ha) hf
      (by rw [hst.same.bw rfl]; exact hn) hb rfl)
  obtain ⟨a, hk⟩ := takeSums_hk (accepted (formHk s h.seq sums missed) h) sums (lastMs s) missed
  obtain ⟨h1, h2⟩ := foldl_putHk hl (lastMs s) a
  have hs : SameOutside [.bw, .fd, .ch, .ev, .img, .port, .conv, .gov] s (accepted (formHk s h.seq sums missed) h) :=
    SameOutside.step (accepted_same ..) rfl (hst.same.widen rfl)
  have ht := SameOutside.step (takeSums_moves (accepted (formHk s h.seq sums missed) h) sums (lastMs s) missed).same rfl hs
  unfold HkKept at hk
  exact ⟨_, e, by rw [hk]; exact h1, by rw [hk]; exact h2, ht⟩

/-! ## Results -/

theorem putResult_res (s : State) (p : PathIx) (r : ResultBlock) :
    (putResult s p r).conv.path[p].res = { r with seq := s.conv.path[p].res.seq + 1, fresh := true } ∧
    (putResult s p r).conv.path[p].outs = s.conv.path[p].outs := by
  unfold putResult
  dsimp only
  rw [(updateSetl_moves ..).same.conv rfl]
  simp only [State.modPath, modAt_self, and_self]

theorem gather_path (s : State) (p : PathIx) : (gather s p).conv.path = s.conv.path := by
  unfold gather
  split
  · dsimp only
    split <;> rfl
  · rfl

theorem takeOutput_res (s : State) (p : PathIx) (o : FiltOut) :
    (takeOutput s p o).conv.path[p].outs = s.conv.path[p].outs ∧
    (takeOutput s p o).conv.path[p].res.seq = s.conv.path[p].res.seq + 1 ∧ (takeOutput s p o).conv.path[p].res.fout = toW32 o.f ∧
    (takeOutput s p o).conv.path[p].res.ts = o.ts.setWidth 32 ∧ (takeOutput s p o).conv.path[p].res.fresh = true ∧
    (takeOutput s p o).conv.path[p].res.valid = (!o.settling && !pathFault s p && !o.tainted) := by
  obtain ⟨s1, r, e, hv, ho, hn⟩ : ∃ s1 r, takeOutput s p o = putResult s1 p r ∧
      (r.valid = (!o.settling && !pathFault s p && !o.tainted) ∧ r.fout = toW32 o.f ∧ r.ts = o.ts.setWidth 32) ∧
      s1.conv.path[p].outs = s.conv.path[p].outs ∧ s1.conv.path[p].res = s.conv.path[p].res := by
    refine ⟨_, _, rfl, ⟨rfl, rfl, rfl⟩, ?_⟩
    rw [State.modPath, modAt_self]
    split <;> exact ⟨rfl, rfl⟩
  obtain ⟨hr, ho'⟩ := putResult_res s1 p r
  rw [e, ho', hr, hn]
  exact ⟨ho, rfl, hv.2.1, hv.2.2, rfl, hv.1⟩

theorem completes_mainResult {s : State} {p : PathIx} {o : FiltOut} {os : List FiltOut} (h : s.conv.path[p].outs = o :: os) :
    Completes (.mainResult p) s fun t =>
      t.conv.path[p].outs = os ∧ t.conv.path[p].res.seq = s.conv.path[p].res.seq + 1 ∧ t.conv.path[p].res.fout = toW32 o.f ∧
      t.conv.path[p].res.ts = o.ts.setWidth 32 ∧ t.conv.path[p].res.fresh = true ∧
      (t.conv.path[p].res.valid = true ↔ o.settling = false ∧ o.tainted = false ∧ pathFault s p = false) ∧
      SameOutside [.ch, .ev, .img, .port, .conv, .loop] s t := by
  let s1 := gather (takeOutput (s.modPath p fun x => { x with outs := os }) p o) p
  have e : exec (.mainResult p) s = .next (if p.val % 2 = 0 then judgeNe43 s1 (pathChan p) else s1) := by
    show execMainResult p s = _
    rw [execMainResult, h]
  have hc : (if p.val % 2 = 0 then judgeNe43 s1 (pathChan p) else s1).conv.path = s1.conv.path := by
    split
    · rw [(judgeNe43_moves ..).same.conv rfl]
    · rfl
  have ht := takeOutput_res (s.modPath p fun x => { x with outs := os }) p o
  rw [← gather_path _ p, State.modPath_conv, modAt_self] at ht
  obtain ⟨ho, hn, hf, hts, hfr, hv⟩ := ht
  refine ⟨_, e, ?_, ?_, ?_, ?_, ?_, ?_, (execMainResult_ends p s).same e⟩
  all_goals rw [hc]
  · exact ho
  · exact hn
  · exact hf
  · exact hts
  · exact hfr
  · rw [hv]
    simp only [Bool.and_eq_true, Bool.not_eq_true']
    exact ⟨fun ⟨⟨a, b⟩, c⟩ => ⟨a, c, b⟩, fun ⟨a, c, b⟩ => ⟨⟨a, b⟩, c⟩⟩

theorem exec_alignCrossing {s : State} {p : PathIx} {x : Wheel} (hw : s.conv.path[p].waitAlign = true)
    (ht : s.conv.path[p].since.toNat ≤ s.tick.toNat) (hx : x = s.wheel[(s.desc p).syncWheel.toFin]) (hs : started x = true)
    (hf : fires x.prev x.acc (s.desc p).syncPhase = true) :
    exec (.alignCrossing p) s = .next (s.modPath p fun x => { x with waitAlign := false, since := s.tick }) := by
  subst hx
  refine congrArg Host.Outcome.next (if_pos ?_)
  rw [hw, hs, hf, decide_eq_true ht]
  rfl

/-- Settles O18: a lemma for each frame, result and crossing; what feeds the paths after a SAMPLE frame leaves the Breakwater alone. -/
theorem samplesAndResults : Obligations.SamplesAndResults :=
  ⟨fun _ _ _ _ _ => completes_sampleFrame, fun _ _ _ _ _ _ => completes_housekeepingFrame, fun _ _ _ _ => completes_mainResult,
    fun _ _ _ => exec_alignCrossing⟩

end Sys2Proof.Machine
end

section
/-! Reference edges and the discipline of a wheel (10 R270–R279). -/
namespace Sys2Proof.Machine

/-! ## One wheel at a time -/

/-- A part of a wheel that no change of its state and of its uncertainty touches. -/
def Steady {α : Type} (g : Wheel → α) : Prop :=
  ∀ (x : Wheel) (st : WState) (hs : Option W64) (hsec : W32) (gr : Nat) (u : Bool),
    g { x with state := st, holdSec := hsec, holdStart := hs, goodRun := gr, uncert := u } = g x

/-- Of the wheels, only wheel `w` changes, and `g` of it stands. -/
structure WheelKeeps {α : Type} (g : Wheel → α) (w : WheelIx) (s t : State) : Prop where
  others : ∀ x : WheelIx, x ≠ w → t.wheel[x] = s.wheel[x]
  self : g t.wheel[w] = g s.wheel[w]

namespace WheelKeeps

variable {α : Type} {g : Wheel → α} {w : WheelIx} {s t u : State}

theorem of_eq (h : t.wheel = s.wheel) : WheelKeeps g w s t := ⟨fun _ _ => by rw [h], by rw [h]⟩

theorem of_moves {ps : List Part} (h : Moves ps s t) (hp : ps.contains .wheel = false) : WheelKeeps g w s t := of_eq (h.same.wheel hp)

theorem trans (h : WheelKeeps g w s t) (k : WheelKeeps g w t u) : WheelKeeps g w s u :=
  ⟨fun x hx => (k.others x hx).trans (h.others x hx), k.self.trans h.self⟩

theorem ite {c : Prop} [Decidable c] (h : WheelKeeps g w s t) (k : WheelKeeps g w s u) : WheelKeeps g w s (if c then t else u) := by
  split
  · exact h
  · exact k

theorem modWheel (s : State) (w : WheelIx) (f : Wheel → Wheel) (hf : ∀ x, g (f x) = g x) : WheelKeeps g w s (s.modWheel w f) :=
  ⟨fun x hx => modAt_of_ne _ _ hx, by rw [State.modWheel_wheel, modAt_self, hf]⟩

end WheelKeeps

theorem setUncert_keeps {α : Type} {g : Wheel → α} (hg : ∀ (x : Wheel) u, g { x with uncert := u } = g x) (s : State) (w : WheelIx) (b : Bool) :
    WheelKeeps g w s (setUncert s w b) := by
  unfold setUncert
  refine WheelKeeps.ite (WheelKeeps.of_eq rfl) ((WheelKeeps.trans ?_ (.of_moves (putWheels_moves _) rfl)).trans (.of_moves (refreshAll_moves _) rfl))
  exact WheelKeeps.modWheel s w _ fun x => hg x _

/-- What a change of a wheel's state is told to leaves the wheels. -/
theorem wheelTold_keeps {α : Type} {g : Wheel → α} (s : State) (w : WheelIx) (st : WState) :
    WheelKeeps g w s (if st = .holdover then raise (raiseTide (putWheels s) w) srcTideLost (putN 0 2 w.val) else raiseTide (putWheels s) w) :=
  ((WheelKeeps.of_moves (putWheels_moves s) rfl).trans (.of_moves (raiseTide_moves _ w) rfl)).trans
    (WheelKeeps.ite (.of_moves (raise_moves ..) rfl) (.of_eq rfl))

/-- The wheel in its new state, before its uncertainty follows (10 R271). -/
def stateSet (s : State) (w : WheelIx) (st : WState) : State :=
  s.modWheel w fun x =>
    { x with state := st
             holdSec := match x.state, x.holdStart with | .holdover, some t => BitVec.ofNat 32 (s.since t / secTicks 1) | _, _ => x.holdSec
             holdStart := if st = .holdover then some s.tick else none
             goodRun := 0 }

theorem stateSet_keeps {α : Type} {g : Wheel → α} (hg : Steady g) (s : State) (w : WheelIx) (st : WState) : WheelKeeps g w s (stateSet s w st) :=
  WheelKeeps.modWheel s w _ fun x => hg x st _ _ 0 x.uncert

theorem setWheel_keeps {α : Type} {g : Wheel → α} (hg : Steady g) (s : State) (w : WheelIx) (st : WState) :
    WheelKeeps g w s (setWheel s w st) := by
  have hu := setUncert_keeps fun x u => hg x x.state x.holdStart x.holdSec x.goodRun u
  unfold setWheel
  refine WheelKeeps.ite (WheelKeeps.of_eq rfl) ((WheelKeeps.trans (stateSet_keeps hg s w st) ?_).trans (wheelTold_keeps _ w st))
  split
  · exact hu _ _ _
  · exact hu _ _ _
  · exact hu _ _ _
  · exact hu _ _ _
  · exact WheelKeeps.of_eq rfl

theorem setWheel_state (s : State) (w : WheelIx) (st : WState) : (setWheel s w st).wheel[w].state = st := by
  have hu := setUncert_keeps (g := Wheel.state) fun _ _ => rfl
  unfold setWheel
  by_cases h : s.wheel[w].state = st
  · rw [if_pos h, h]
  rw [if_neg h]
  refine (wheelTold_keeps (g := Wheel.state) _ w st).self.trans ?_
  generalize hb : (s.modWheel w _) = b
  have hst : b.wheel[w].state = st := by rw [← hb, State.modWheel_wheel, modAt_self]
  split
  · exact (hu ..).self.trans hst
  · exact (hu ..).self.trans hst
  · exact (hu ..).self.trans hst
  · exact (hu ..).self.trans hst
  · exact hst

/-- A fold over wheels of a step that changes its own wheel only: wheel `w` is as the step at `w` leaves it. -/
theorem foldl_wheels {f : State → WheelIx → State} (hs : ∀ a x, SameOutside [.wheel] a (f a x))
    (hf : ∀ a x, ∀ y : WheelIx, y ≠ x → (f a x).wheel[y] = a.wheel[y]) (l : List WheelIx) (hl : l.Nodup) {w : WheelIx} (hw : w ∈ l)
    (s : State) :
    ∃ a : State, SameOutside [.wheel] s a ∧ a.wheel[w] = s.wheel[w] ∧ (l.foldl f s).wheel[w] = (f a w).wheel[w] := by
  have hrest : ∀ (l : List WheelIx) (a : State), w ∉ l → (l.foldl f a).wheel[w] = a.wheel[w] := fun l => by
    induction l with
    | nil => exact fun _ _ => rfl
    | cons x l ih =>
      intro a hn
      rw [List.mem_cons, not_or] at hn
      exact (ih _ hn.2).trans (hf a x w hn.1)
  induction l generalizing s with
  | nil => cases hw
  | cons x l ih =>
    rw [List.nodup_cons] at hl
    by_cases hx : w = x
    · subst hx
      exact ⟨s, SameOutside.refl s, rfl, hrest l _ hl.1⟩
    · obtain ⟨a, h1, h2, h3⟩ := ih hl.2 ((List.mem_cons.mp hw).resolve_left hx) (f s x)
      exact ⟨a, SameOutside.step h1 rfl (hs s x), h2.trans (hf s x w hx), h3⟩

theorem modWheel_others {s : State} {w y : WheelIx} (f : Wheel → Wheel) (h : y ≠ w) : (s.modWheel w f).wheel[y] = s.wheel[y] := modAt_of_ne _ _ h

theorem follows_same {s a : State} {w : WheelIx} (h : SameOutside [.wheel] s a) (hw : a.wheel[w] = s.wheel[w]) (r : Byte) :
    follows a w r = follows s w r := by
  rw [follows, follows, hw, h.m rfl, State.tide, State.tide, h.boot rfl]

theorem inChain_same {s a : State} {w : WheelIx} (h : SameOutside [.wheel] s a) (hw : a.wheel[w] = s.wheel[w]) (ok : Nat → Bool) :
    inChain a w ok = inChain s w ok := by
  have hs : a.since = s.since := by
    funext t
    rw [State.since, h.tick rfl, State.since]
  rw [inChain, inChain, hw, hs]

/-! ## PPS_IN -/

theorem takeSec_set {s : State} {v : W32} (h : s.time.set = some v) :
    takeSec s = { s with time := { s.time with sec := v, set := none, secValid := true, secSrc := false } } := by
  simp only [takeSec, h]

theorem completes_ppsEdge {s : State} (hr : s.m.run = .running)
    (hc : ∀ k, s.time.ppsChain = some k → 25000000 < s.since k ∨ ppsInterval (s.since k) = true) :
    Completes .ppsEdge s fun t =>
      t.time.ppsChain = some s.tick ∧ t.time.ppsLast = some s.tick ∧
      (∀ v, s.time.set = some v → t.time.sec = v ∧ t.time.set = none ∧ t.time.secValid = true ∧ t.time.secSrc = false) ∧
      SameOutside [.ev, .port, .wheel, .time] s t := by
  let s1 := takeSec s
  let s2 : State := { s1 with time := { s1.time with ppsChain := some s.tick, ppsLast := some s.tick } }
  have e : exec .ppsEdge s = .next ((List.finRange 4).foldl (fun a w =>
      if follows a w 1 then
        if inChain a w ppsInterval then captureEvent a w (ppsPhase a.time.sec (a.tide w).periodUs.toNat) s.tick else rejectEvent a w
      else a) s2) := by
    show execPpsEdge s = _
    rw [execPpsEdge, if_neg (not_not_intro hr)]
    refine congrArg (fun x => Host.Outcome.next (List.foldl _ x _)) (if_pos ?_)
    split
    next k hk =>
      split
      · rfl
      · exact (hc k hk).resolve_left ‹_›
    · rfl
  have ht : ∀ (l : List WheelIx) (a : State), (l.foldl (fun a w =>
      if follows a w 1 then
        if inChain a w ppsInterval then captureEvent a w (ppsPhase a.time.sec (a.tide w).periodUs.toNat) s.tick else rejectEvent a w
      else a) a).time = a.time := fun l => by
    induction l with
    | nil => exact fun _ => rfl
    | cons w l ih =>
      intro a
      rw [List.foldl_cons, ih]
      split
      · split <;> rfl
      · rfl
  refine ⟨_, e, ?_, ?_, fun v hv => ?_, (execPpsEdge_ends s).same e⟩
  · rw [ht]
  · rw [ht]
  · rw [ht]
    dsimp only [s2, s1]
    rw [takeSec_set hv]
    exact ⟨rfl, rfl, rfl, rfl⟩

/-! ## MAINS_IN and TIDE_IN -/

theorem captureEvent_others (s : State) {w y : WheelIx} (phi : W32) (t : W64) (h : y ≠ w) :
    (captureEvent s w phi t).wheel[y] = s.wheel[y] := modAt_of_ne _ _ h

theorem rejectEvent_others (s : State) {w y : WheelIx} (h : y ≠ w) : (rejectEvent s w).wheel[y] = s.wheel[y] := modAt_of_ne _ _ h

theorem captureEvent_mainsTick (s : State) (w : WheelIx) (phi : W32) (t : W64) :
    (captureEvent s w phi t).wheel[w].mainsTick = s.wheel[w].mainsTick := by
  rw [captureEvent, State.modWheel_wheel, modAt_self]
  dsimp only
  split <;> rfl

theorem rejectEvent_mainsTick (s : State) (w : WheelIx) : (rejectEvent s w).wheel[w].mainsTick = s.wheel[w].mainsTick := by
  rw [rejectEvent, State.modWheel_wheel, modAt_self]
  split <;> rfl

theorem mainsAt_others (s : State) {w y : WheelIx} (h : y ≠ w) : (mainsAt s w).wheel[y] = s.wheel[y] := by
  have hk : ∀ {a b : State}, a.wheel[y] = s.wheel[y] → b.wheel[y] = s.wheel[y] → ∀ (c : Prop) [Decidable c],
      (if c then a else b).wheel[y] = s.wheel[y] := fun ha hb c _ => by
    split
    · exact ha
    · exact hb
  unfold mainsAt
  exact hk rfl (hk (modWheel_others _ h) (hk ((captureEvent_others _ _ _ h).trans (modWheel_others _ h))
    ((rejectEvent_others _ h).trans (modWheel_others _ h)) _) _) _

/-- The first edge of MAINS_IN of a chain is counted. -/
theorem mainsAt_first {s : State} {w : WheelIx} (h : s.wheel[w].mainsTick = none) : (mainsAt s w).wheel[w].mainsTick = some s.tick := by
  unfold mainsAt
  dsimp only
  rw [h]
  dsimp only
  rw [if_neg Bool.false_ne_true]
  generalize ha : (s.modWheel w _) = a
  have hm : a.wheel[w].mainsTick = some s.tick := by rw [← ha, State.modWheel_wheel, modAt_self]
  split
  · exact hm
  · split
    · rw [captureEvent_mainsTick, hm]
    · rw [rejectEvent_mainsTick, hm]

theorem completes_mainsEdge {s : State} {w : WheelIx} (hf : follows s w 2 = true) (hm : s.wheel[w].mainsTick = none) :
    Completes .mainsEdge s fun t => t.wheel[w].mainsTick = some s.tick ∧ SameOutside [.wheel] s t := by
  refine ⟨_, rfl, ?_, (execMainsEdge_ends s).same rfl⟩
  obtain ⟨a, hs, hw, e⟩ := foldl_wheels (f := fun a w => if follows a w 2 then mainsAt a w else a)
    (fun a x => by
      split
      · exact (mainsAt_moves a x).same
      · exact SameOutside.refl a)
    (fun a x y h => by
      split
      · exact mainsAt_others a h
      · rfl)
    (List.finRange 4) (List.nodup_finRange 4) (List.mem_finRange w) s
  rw [e, if_pos ((follows_same hs hw 2).trans hf), mainsAt_first (by rw [hw, hm]), hs.tick rfl]

theorem completes_tideInEdge {s : State} {w : WheelIx} (hf : follows s w 3 = true)
    (hn : ∀ p, s.wheel[w].next = some p → p.step = none) :
    Completes .tideInEdge s fun t =>
      (inChain s w (tideInterval (s.tide w).periodUs.toNat) = true → t.wheel[w].last = some s.tick) ∧
      (inChain s w (tideInterval (s.tide w).periodUs.toNat) = false →
        t.wheel[w].rejected = satInc s.wheel[w].rejected ∧ t.wheel[w].last = s.wheel[w].last) ∧
      SameOutside [.wheel] s t := by
  obtain ⟨a, hs, hw, e⟩ := foldl_wheels (f := fun a w =>
      if follows a w 3 then
        if inChain a w (tideInterval (a.tide w).periodUs.toNat) then captureEvent a w 0 s.tick else rejectEvent a w
      else a)
    (fun a x => by
      split
      · split
        · exact (captureEvent_moves ..).same
        · exact (rejectEvent_moves ..).same
      · exact SameOutside.refl a)
    (fun a x y h => by
      split
      · split
        · exact captureEvent_others a 0 s.tick h
        · exact rejectEvent_others a h
      · rfl)
    (List.finRange 4) (List.nodup_finRange 4) (List.mem_finRange w) s
  have hp : stepPending s.wheel[w] = false := by
    unfold stepPending
    cases hx : s.wheel[w].next with
    | none => rfl
    | some p => simp [hn p hx]
  have htide : a.tide w = s.tide w := by rw [State.tide, State.tide, hs.boot rfl]
  rw [if_pos ((follows_same hs hw 3).trans hf), inChain_same hs hw, htide] at e
  refine ⟨_, rfl, fun hc => ?_, fun hc => ?_, (execTideInEdge_ends s).same rfl⟩
  · rw [e, if_pos hc, captureEvent, State.modWheel_wheel, modAt_self, hw, hp, if_neg Bool.false_ne_true]
  · rw [e, if_neg (by rw [hc]; decide), rejectEvent, State.modWheel_wheel, modAt_self, hw, hp, if_neg Bool.false_ne_true]
    exact ⟨rfl, rfl⟩

/-- Settles O19: a wheel is touched by its own step of the edge alone. -/
theorem referenceEdges : Obligations.ReferenceEdges :=
  fun _ => ⟨completes_ppsEdge, fun _ => completes_mainsEdge, fun _ => completes_tideInEdge⟩

/-! ## Events, increments and steps -/

theorem slewEnd_steady {α : Type} {g : Wheel → α} (hg : ∀ (x : Wheel) p, g { x with next := p } = g x) (s : State) (x : Wheel) :
    g (slewEnd s x) = g x := by
  unfold slewEnd
  split
  · rfl
  · exact hg x _

/-- The wheel once an event is counted and shown (10 R274). -/
def eventCounted (s : State) (w : WheelIx) (v : RefEvent) : State :=
  s.modWheel w fun x =>
    { x with accepted := x.accepted + 1, eNs := toW32 (satSigned 32 (errorNs (s.tide w) (phaseError v))), refTick := v.tick.setWidth 32 }

/-- An event processed: the wheel has it counted, and its capture tick shown. -/
theorem processEvent_keeps (s : State) (w : WheelIx) (v : RefEvent) :
    (processEvent s w v).wheel[w].accepted = s.wheel[w].accepted + 1 ∧
    (processEvent s w v).wheel[w].refTick = v.tick.setWidth 32 ∧
    ∀ x : WheelIx, x ≠ w → (processEvent s w v).wheel[x] = s.wheel[x] := by
  let g : Wheel → W16 × W32 := fun x => (x.accepted, x.refTick)
  have hw := setWheel_keeps (g := g) (fun _ _ _ _ _ _ => rfl)
  have hu := setUncert_keeps (g := g) (fun _ _ => rfl)
  have hm := fun a => WheelKeeps.modWheel (g := g) a w
  suffices h : ∃ a : State, (∀ x : WheelIx, x ≠ w → a.wheel[x] = s.wheel[x]) ∧ a.wheel[w].accepted = s.wheel[w].accepted + 1 ∧
      a.wheel[w].refTick = v.tick.setWidth 32 ∧ WheelKeeps g w a (processEvent s w v) by
    obtain ⟨a, ha, h1, h2, h3⟩ := h
    have h4 := Prod.mk.inj h3.self
    exact ⟨h4.1.trans h1, h4.2.trans h2, fun x hx => (h3.others x hx).trans (ha x hx)⟩
  refine ⟨eventCounted s w v, fun x hx => modWheel_others _ hx, ?_, ?_, ?_⟩
  rotate_left 2
  · unfold processEvent
    have h2 : WheelKeeps g w (eventCounted s w v) (if (errorNs (s.tide w) (phaseError v)).natAbs > 10 * lockNs (s.tide w)
        then setUncert (eventCounted s w v) w true else eventCounted s w v) := WheelKeeps.ite (hu _ _ _) (.of_eq rfl)
    refine WheelKeeps.ite (h2.trans (hm _ _ fun _ => rfl)) ?_
    refine WheelKeeps.trans ?_ (WheelKeeps.ite (hw _ _ _) (.of_eq rfl))
    refine WheelKeeps.trans ?_ (WheelKeeps.ite (hm _ _ fun _ => rfl) (hm _ _ fun _ => rfl))
    refine WheelKeeps.trans ?_ (hm _ _ fun _ => rfl)
    refine WheelKeeps.trans ?_ (WheelKeeps.ite (hw _ _ _) (.of_eq rfl))
    exact h2.trans (WheelKeeps.ite (hw _ _ _) (.of_eq rfl))
  · rw [eventCounted, State.modWheel_wheel, modAt_self]
  · rw [eventCounted, State.modWheel_wheel, modAt_self]

theorem completes_referenceEventProcess {s : State} {w : WheelIx} {v : RefEvent} {vs : List RefEvent} (hr : s.execRuns = true)
    (hm : s.m.mode ≠ .stop) (he : s.wheel[w].events = v :: vs) :
    Completes (.referenceEventProcess w) s fun t =>
      t.wheel[w].accepted = s.wheel[w].accepted + 1 ∧ t.wheel[w].refTick = v.tick.setWidth 32 ∧
      (∀ x : WheelIx, x ≠ w → t.wheel[x] = s.wheel[x]) ∧ SameOutside [.ch, .ev, .img, .port, .wheel] s t := by
  have e : exec (.referenceEventProcess w) s = .next (processEvent (s.modWheel w fun x => { x with events := vs }) w v) := by
    show execReferenceEventProcess w s = _
    rw [execReferenceEventProcess, if_neg (by rw [hr, decide_eq_false hm]; decide), he]
  obtain ⟨h1, h2, h3⟩ := processEvent_keeps (s.modWheel w fun x => { x with events := vs }) w v
  rw [State.modWheel_wheel, modAt_self] at h1
  exact ⟨_, e, h1, h2, fun x hx => (h3 x hx).trans (modWheel_others _ hx), (execReferenceEventProcess_ends w s).same e⟩

theorem incDue_of_due {s : State} {x : Wheel} {p : PendingInc} (h : x.next = some p) (hp : p.tick.toNat ≤ s.tick.toNat) : incDue s x = some p := by
  rw [incDue, h, Option.filter_some, if_pos (decide_eq_true hp)]

theorem incDue_early {s : State} {x : Wheel} {p : PendingInc} (h : x.next = some p) (hp : s.tick.toNat < p.tick.toNat) : incDue s x = none := by
  rw [incDue, h, Option.filter_some, if_neg (by rw [decide_eq_false (Nat.not_le.mpr hp)]; decide)]

/-- At its apply tick an increment makes the wheel's last advance the new one; a step adds its own. -/
theorem applied_acc (c : TideCfg) (x : Wheel) (p : PendingInc) (hx : x.inc ≠ 0) :
    (applied c x p p.tick p.tick).acc = x.acc - x.inc + incWord (incNom c + p.f + p.s) +
      (match p.step with | some e => BitVec.ofInt 64 e <<< 32 | none => 0) := by
  have h1 : p.tick - 1 - p.tick = -1 := by
    rw [BitVec.sub_sub, BitVec.add_comm, ← BitVec.sub_sub, BitVec.sub_self, BitVec.zero_sub]
  unfold applied
  dsimp only
  rw [if_neg hx, h1, BitVec.sub_self, BitVec.mul_zero, BitVec.add_zero]
  cases p.step with
  | none => ring
  | some d => ring

theorem completes_incApply {s : State} {w : WheelIx} {p : PendingInc} (hn : s.wheel[w].next = some p) (hs : p.step = none)
    (ht : p.tick.toNat ≤ s.tick.toNat) :
    Completes (.incApply w) s fun t =>
      t.wheel[w].inc = incWord (incNom (s.tide w) + p.f + p.s) ∧ t.wheel[w].f = p.f ∧ t.wheel[w].s = p.s ∧ t.wheel[w].next = none ∧
      (p.tick = s.tick → s.wheel[w].inc ≠ 0 → t.wheel[w].acc = s.wheel[w].acc - s.wheel[w].inc + t.wheel[w].inc) ∧
      (∀ x : WheelIx, x ≠ w → t.wheel[x] = s.wheel[x]) ∧ SameOutside [.wheel] s t := by
  have e : exec (.incApply w) s = .next (applyInc s w p) := by
    show execIncApply w s = _
    rw [execIncApply, incDue_of_due hn ht]
    dsimp only
    rw [hs]
    rfl
  refine ⟨_, e, ?_⟩
  beta_reduce
  rw [applyInc, State.modWheel_wheel, modAt_self]
  refine ⟨rfl, rfl, rfl, rfl, fun hp hi => ?_, fun x hx => modAt_of_ne _ _ hx, (applyInc_moves s w p).same⟩
  rw [← hp, applied_acc _ _ _ hi, hs]
  exact BitVec.add_zero _

theorem execs_incEarly {s : State} {w : WheelIx} {p : PendingInc} (hn : s.wheel[w].next = some p) (ht : s.tick.toNat < p.tick.toNat) :
    exec (.incApply w) s = .next s ∧ exec (.wheelStep w) s = .next s := by
  constructor
  · show execIncApply w s = _
    rw [execIncApply, incDue_early hn ht]
  · show execWheelStep w s = _
    rw [execWheelStep, incDue_early hn ht]

theorem stepWheel_wheel (s : State) (w : WheelIx) (p : PendingInc) : (stepWheel s w p).wheel = (applyInc s w p).wheel := by
  have hf : ∀ (l : List PathIx) (a : State), (l.foldl alignCrossing a).wheel = a.wheel := fun l => by
    induction l with
    | nil => exact fun _ => rfl
    | cons x l ih => exact fun a => (ih _).trans ((alignCrossing_moves a x).same.wheel rfl)
  unfold stepWheel
  dsimp only
  rw [(raiseTide_moves ..).same.wheel rfl]
  split
  · rw [(tidePulse_moves ..).same.wheel rfl, hf]
  · rw [hf]

theorem completes_wheelStep {s : State} {w : WheelIx} {p : PendingInc} {d : Int} (hn : s.wheel[w].next = some p) (hs : p.step = some d)
    (ht : s.tick = p.tick) (hi : s.wheel[w].inc ≠ 0) :
    Completes (.wheelStep w) s fun t =>
      t.wheel[w].acc = s.wheel[w].acc - s.wheel[w].inc + t.wheel[w].inc + (BitVec.ofInt 64 d <<< 32) ∧
      t.wheel[w].steps = satInc s.wheel[w].steps ∧
      t.wheel[w].inc = incWord (incNom (s.tide w) + p.f + p.s) ∧ t.wheel[w].next = none ∧
      (∀ x : WheelIx, x ≠ w → t.wheel[x] = s.wheel[x]) ∧ SameOutside [.ev, .port, .conv, .wheel, .pins] s t := by
  have e : exec (.wheelStep w) s = .next (stepWheel s w p) := by
    show execWheelStep w s = _
    rw [execWheelStep, incDue_of_due hn (by rw [ht])]
    dsimp only
    rw [hs]
    rfl
  refine ⟨_, e, ?_⟩
  beta_reduce
  rw [stepWheel_wheel, applyInc, State.modWheel_wheel, modAt_self, ht, applied_acc _ _ _ hi, hs]
  refine ⟨rfl, ?_, rfl, rfl, fun x hx => modAt_of_ne _ _ hx, (stepWheel_moves s w p).same⟩
  unfold applied
  rw [hs]
  rfl

/-- A wheel that loses its reference, its chain dropped and the loss counted, before it goes to HOLDOVER (10 R277). -/
def chainLost (s : State) (w : WheelIx) : State :=
  (s.modWheel w dropChain).modWheel w fun x => slewEnd s { x with losses := satInc x.losses }

theorem chainLost_parts (s : State) (w : WheelIx) :
    ((chainLost s w).wheel[w].qualified, (chainLost s w).wheel[w].chain, (chainLost s w).wheel[w].losses) =
      (false, 0, satInc s.wheel[w].losses) := by
  rw [chainLost, State.modWheel_wheel, modAt_self, State.modWheel_wheel, modAt_self]
  exact slewEnd_steady (g := fun x => (x.qualified, x.chain, x.losses)) (fun _ _ => rfl) s _

theorem completes_referenceLost {s : State} {w : WheelIx} (hst : started s.wheel[w] = true) (hr : (s.tide w).ref ≠ 0) (hm : s.m.mode ≠ .stop)
    (hd : lostAfter (s.tide w) ≤ s.since (s.wheel[w].last.getD s.wheel[w].waitFrom)) :
    Completes (.referenceLost w) s fun t =>
      t.wheel[w].qualified = false ∧ t.wheel[w].chain = 0 ∧
      (s.wheel[w].state = .acquire ∨ s.wheel[w].state = .slewing ∨ s.wheel[w].state = .locked →
        t.wheel[w].state = .holdover ∧ t.wheel[w].losses = satInc s.wheel[w].losses) ∧
      SameOutside [.ch, .ev, .img, .port, .wheel] s t := by
  have e : exec (.referenceLost w) s = .next (wheelLost s w true) :=
    congrArg Host.Outcome.next (if_pos (by rw [hst, decide_eq_true hr, decide_eq_true hm, decide_eq_true hd]; rfl))
  refine ⟨_, e, ?_⟩
  have hsame := (wheelLost_moves s w true).same
  by_cases hc : s.wheel[w].state = .acquire ∨ s.wheel[w].state = .slewing ∨ s.wheel[w].state = .locked
  · have hl : wheelLost s w true = setWheel (chainLost s w) w .holdover := if_pos (by simpa [or_assoc] using hc)
    have hk := (setWheel_keeps (g := fun x => (x.qualified, x.chain, x.losses)) (fun _ _ _ _ _ _ => rfl) (chainLost s w) w .holdover).self
    rw [← hl, chainLost_parts] at hk
    simp only [Prod.mk.injEq] at hk
    obtain ⟨h1, h2, h3⟩ := hk
    exact ⟨h1, h2, fun _ => ⟨by rw [hl]; exact setWheel_state _ w .holdover, h3⟩, hsame⟩
  · have hl : wheelLost s w true = s.modWheel w dropChain := if_neg (by simpa [or_assoc] using hc)
    have hx : (wheelLost s w true).wheel[w] = dropChain s.wheel[w] := by rw [hl, State.modWheel_wheel, modAt_self]
    beta_reduce
    rw [hx]
    exact ⟨rfl, rfl, fun h => absurd h hc, hsame⟩

/-- Settles O20: a lemma for each event, increment, step and loss; the apply tick decides between the new increment and the old. -/
theorem wheelDiscipline : Obligations.WheelDiscipline :=
  fun _ _ => ⟨fun _ _ => completes_referenceEventProcess, fun _ => completes_incApply, fun _ => execs_incEarly, fun _ _ => completes_wheelStep,
    completes_referenceLost⟩

end Sys2Proof.Machine
end

section
/-! Character edges, library changeover and TIDE_OUT (10 R283, R286, R287). -/
namespace Sys2Proof.Machine

/-- A running character that is demanded again gives its output the level at the wheel's phase. -/
theorem demand_charLit {s : State} {n : Chan} {k : BitVec 6} (h : runningChar (s.fdc n) = some k) :
    ((demand s n id).fdc n).charLit = charLitNow s (s.fdc n) k := by
  have hn : (s.modFd n id).fdc n = s.fdc n := fdc_modFd_self ..
  have hl : ((levelChar (s.modFd n id) n).fdc n).charLit = charLitNow s (s.fdc n) k := by
    rw [levelChar, hn, h]
    dsimp only
    rw [fdc_modFd_self, hn]
    rfl
  unfold demand
  extract_lets old s1 new
  rw [(drive_rec _ n n).get FdChan.charLit (fun _ _ _ _ _ _ _ _ _ _ _ => rfl)]
  split
  · exact hl
  · rw [report_fdc]
    exact hl

theorem completes_characterEdge {s : State} {n : Chan} {k : BitVec 6} (hk : runningChar (s.fdc n) = some k) (hf : edgeFires s n = true) :
    Completes (.characterEdge n) s fun t => (t.fdc n).charLit = charLitNow s (s.fdc n) k ∧ FieldFrame n s t := by
  have e : exec (.characterEdge n) s = .next (demand s n id) := congrArg Host.Outcome.next (if_pos hf)
  exact ⟨_, e, demand_charLit hk, (demand_step s n id fun _ => rfl).frame⟩

/-- The new library lacks the character that the channel is commanded to. -/
def charGone (s : State) (n : Chan) : Bool := match (s.fdc n).cmd with
  | .character k => (findChar s.fd.chars k).isNone
  | _ => false

theorem charGone_of_missing {s : State} {n : Chan} {k : BitVec 6} (hk : (s.fdc n).cmd = .character k) (hn : findChar s.fd.chars k = none) :
    charGone s n = true := by
  rw [charGone, hk]
  dsimp only
  rw [hn]
  rfl

theorem completes_libraryChangeover {s : State} {n : Chan} {o : Character} (ho : (s.fdc n).oldChar = some o)
    (hf : shadowFires s o.wheel 0 = true) :
    Completes (.libraryChangeover n) s fun t =>
      (t.fdc n).oldChar = none ∧ (∀ k, (s.fdc n).cmd = .character k → findChar s.fd.chars k = none → (t.fdc n).cmd = .dark) ∧
      FieldFrame n s t := by
  have e : exec (.libraryChangeover n) s =
      .next (reportStatus (demand s n fun c => { c with oldChar := none, cmd := if charGone s n then .dark else c.cmd })
        (.changedOver n (charGone s n))) := by
    show Host.Outcome.next (changeover s n) = _
    rw [changeover, ho]
    exact congrArg Host.Outcome.next (if_pos hf)
  refine ⟨_, e, ?_, fun k hk hn => ?_, ?_⟩
  · rw [reportStatus_fdc, demand_get s n _ n FdChan.oldChar (fun _ _ _ _ _ _ _ _ _ _ _ _ => rfl) (fun _ _ => rfl), fdc_modFd_self]
  · rw [reportStatus_fdc, demand_get s n _ n FdChan.cmd (fun _ _ _ _ _ _ _ _ _ _ _ _ => rfl) (fun _ _ => rfl), fdc_modFd_self,
      charGone_of_missing hk hn]
    rfl
  · exact FieldStep.frame (FieldStep.trans (demand_step s n _ (by intro _; rfl)) (FieldStep.reportStatus _ n _))

theorem exec_tideOutPulse {s : State} (hs : started s.wheel[(0 : WheelIx)] = true)
    (hf : fires s.wheel[(0 : WheelIx)].prev s.wheel[(0 : WheelIx)].acc 0 = true) :
    exec .tideOutPulse s = .next { s with pins := { s.pins with tideOut := true, tideRise := s.tick } } :=
  congrArg Host.Outcome.next (if_pos (Bool.and_eq_true_iff.mpr ⟨hs, hf⟩))

theorem exec_tideOutEnd {s : State} (hp : s.pins.tideOut = true) (h : 100 ≤ s.since s.pins.tideRise) :
    exec .tideOutEnd s = .next { s with pins := { s.pins with tideOut := false } } :=
  congrArg Host.Outcome.next (if_pos (by rw [hp, decide_eq_true h]; rfl))

theorem exec_tideOutEnd_early {s : State} (h : s.since s.pins.tideRise < 100) : exec .tideOutEnd s = .next s :=
  congrArg Host.Outcome.next (if_neg (by rw [decide_eq_false (Nat.not_le.mpr h), Bool.and_false]; decide))

/-- Settles O21: a character's output and a changeover are demands of their channel alone. -/
theorem charactersAndTideOut : Obligations.CharactersAndTideOut :=
  fun _ => ⟨fun _ _ => completes_characterEdge, fun _ h => congrArg Host.Outcome.next (if_neg (by rw [h]; decide)),
    fun _ _ => completes_libraryChangeover, exec_tideOutPulse, exec_tideOutEnd, exec_tideOutEnd_early⟩

end Sys2Proof.Machine
end

section
/-! Retry tokens, the quiet time and the back-off (06 R156–R158). -/
namespace Sys2Proof.Machine

/-! ## One channel at a time -/

theorem bitAt_withBit_self {k : Nat} (w : BitVec k) {i : Nat} (h : i < k) (b : Bool) : bitAt (withBit w i b) i = b := by
  have h1 : (1#k <<< i).getLsbD i = true := by
    simp [BitVec.getLsbD_shiftLeft, h]
  unfold withBit bitAt
  cases b with
  | true => rw [if_pos rfl, BitVec.getLsbD_or, h1, Bool.or_true]
  | false => rw [if_neg Bool.false_ne_true, BitVec.getLsbD_and, BitVec.getLsbD_not, h1, Bool.not_true, Bool.and_false, Bool.and_false]

theorem modCh_self (s : State) (n : Chan) (f : Channel → Channel) : (s.modCh n f).ch[n] = f s.ch[n] := by rw [State.modCh_ch, modAt_self]

theorem modCh_others (s : State) {n m : Chan} (f : Channel → Channel) (h : m ≠ n) : (s.modCh n f).ch[m] = s.ch[m] := modAt_of_ne _ _ h

/-! ## Tokens and the quiet time -/

theorem completes_tokenRefill {s : State} {n : Chan} (hr : s.m.run = .running) (ht : s.ch[n].prot.tokens ≠ 15)
    (hf : s.ch[n].prot.refilled = false) (h60 : secTicks 60 ≤ s.ch[n].prot.refill) :
    Completes (.tokenRefill n) s fun t =>
      t.ch[n].prot.tokens = s.ch[n].prot.tokens + 1 ∧ t.ch[n].prot.refill = 0 ∧ (∀ m : Chan, m ≠ n → t.ch[m] = s.ch[m]) ∧
      SameOutside [.ch] s t := by
  refine ⟨_, congrArg Host.Outcome.next (if_pos ?_), ?_, ?_, fun m hm => modCh_others s _ hm, (State.modCh_moves ..).same⟩
  · rw [hr, decide_eq_true ht, decide_eq_true h60]
    rfl
  · rw [modCh_self]
    dsimp only
    rw [hf, if_neg Bool.false_ne_true]
  · rw [modCh_self]

theorem completes_quietReset {s : State} {n : Chan} (hr : s.m.run = .running) (hret : s.ch[n].retired = false)
    (hq : secTicks (retryQuietS (s.crec n)) ≤ s.ch[n].prot.onTime) (ht : s.fd.events.any (tripAt n s.tick) = false) :
    Completes (.quietReset n) s fun t =>
      t.ch[n].prot.retryN = 0 ∧ t.ch[n].prot.tokens = s.ch[n].prot.tokens ∧ (∀ m : Chan, m ≠ n → t.ch[m] = s.ch[m]) ∧
      SameOutside [.ch] s t := by
  refine ⟨_, congrArg Host.Outcome.next (if_pos ?_), ?_, ?_, fun m hm => modCh_others s _ hm, (State.modCh_moves ..).same⟩
  · rw [hr, hret, ht, decide_eq_true hq]
    rfl
  · rw [modCh_self]
  · rw [modCh_self]

/-! ## The end of the back-off -/

theorem bwSend_command_free {s : State} {acts : List FieldAct} {t : W64} (hb : s.triad.blocked = false) (hg : s.bw.gathering = false)
    (hs : s.bw.stopped = false) (hr : s.recov.reload = none) (hw : s.bw.waiting = []) (hu : s.bw.unacked.length < 16) :
    (bwSend s (.command acts t)).bw.unacked = s.bw.unacked ++ [mkTx s (.command acts t)] := by
  have hc : canSend s (.command acts t) = true := by simp [canSend, hs, hr]
  unfold bwSend
  rw [if_neg (by rw [hb]; decide), if_neg (by rw [hg, Bool.false_and]; decide), if_pos (by simp [hu, hc, hw])]

/-- A restart that the governor admits, ready to be sent. -/
def restartShown (s : State) (n : Chan) : State :=
  let s1 := (govClear s n).modCh n fun c => { c with restarting := true }
  if s.ch[n].refused.isSome then showCommand s1 n s1.ch[n].cmdWord false else s1

theorem tryRestart_refused {s : State} {n : Chan} {target : W64} (hr : restartReady s n = true) (ha : admits s (doIncrease s n) false = false) :
    tryRestart s n target = showCommand (govRefuse s n s.ch[n].cmdWord) n (codeThree s.ch[n].cmdWord) true := by
  unfold tryRestart
  rw [if_neg (by rw [hr]; decide), if_pos (by rw [ha]; decide)]

theorem tryRestart_admitted {s : State} {n : Chan} {target : W64} (hr : restartReady s n = true) (ha : admits s (doIncrease s n) false = true) :
    tryRestart s n target = bwSend (restartShown s n) (.command [.restart n] target) := by
  unfold tryRestart
  rw [if_neg (by rw [hr]; decide), if_neg (by rw [ha]; decide)]
  rfl

/-- A channel whose command the governor refuses (06 R165). -/
def govMarked (w : W16) (c : Channel) : Channel :=
  { c with refused := some w
           prot := if c.refused ≠ some w then { setProt c.prot pGovRef true with cntGov := satInc (setProt c.prot pGovRef true).cntGov }
                   else setProt c.prot pGovRef true }

theorem govRefuse_ch (s : State) (n : Chan) (w : W16) : (govRefuse s n w).ch = modAt s.ch n (govMarked w) := by
  have h : ∀ a : State, ∀ c : Prop, [Decidable c] → (if c then raisePower a (some n) else a).ch = a.ch := fun a c _ => by
    split
    · rw [(raisePower_moves ..).same.ch rfl]
    · rfl
  unfold govRefuse
  dsimp only
  rw [h]
  rfl

theorem govMarked_prot (w : W16) (c : Channel) :
    bitAt (govMarked w c).prot.live pGovRef = true ∧ (govMarked w c).prot.pstate = c.prot.pstate ∧
    (govMarked w c).prot.tokens = c.prot.tokens ∧ (govMarked w c).prot.retryN = c.prot.retryN := by
  have h : bitAt (setProt c.prot pGovRef true).live pGovRef = true := bitAt_withBit_self _ (by decide) true
  unfold govMarked
  dsimp only
  split <;> exact ⟨h, rfl, rfl, rfl⟩

theorem showCommand_self (s : State) (n : Chan) (v : W16) (bad : Bool) : (showCommand s n v bad).ch[n] = { s.ch[n] with cmdBad := bad } := by
  unfold showCommand
  dsimp only
  rw [(epPut_moves ..).same.ch rfl, modCh_self]

theorem showCommand_others (s : State) {n m : Chan} (v : W16) (bad : Bool) (h : m ≠ n) : (showCommand s n v bad).ch[m] = s.ch[m] := by
  unfold showCommand
  dsimp only
  rw [(epPut_moves ..).same.ch rfl, modCh_others _ _ h]

/-- A restart admitted: the channel waits for it, and nothing is refused. -/
theorem restartShown_facts (s : State) (n : Chan) :
    ((restartShown s n).ch[n].restarting = true ∧ (restartShown s n).ch[n].refused = none ∧
      (restartShown s n).ch[n].prot.pstate = s.ch[n].prot.pstate ∧ (restartShown s n).ch[n].prot.tokens = s.ch[n].prot.tokens ∧
      (restartShown s n).ch[n].prot.retryN = s.ch[n].prot.retryN) ∧
    (∀ m : Chan, m ≠ n → (restartShown s n).ch[m] = s.ch[m]) ∧ SameOutside [.ch, .img] s (restartShown s n) := by
  have h1 : ((govClear s n).modCh n fun c => { c with restarting := true }).ch[n] =
      { s.ch[n] with refused := none, shed := false, restarting := true
                     prot := setProt (setProt s.ch[n].prot pGovRef s.loop[n].alarmRef.isSome) pShed false } := by
    rw [modCh_self, govClear, modCh_self]
  have h2 : ∀ m : Chan, m ≠ n → ((govClear s n).modCh n fun c => { c with restarting := true }).ch[m] = s.ch[m] := fun m hm => by
    rw [modCh_others _ _ hm, govClear, modCh_others _ _ hm]
  have h3 : SameOutside [.ch, .img] s ((govClear s n).modCh n fun c => { c with restarting := true }) :=
    SameOutside.step (State.modCh_moves ..).same rfl ((govClear_moves s n).same.widen rfl)
  unfold restartShown
  dsimp only
  generalize ((govClear s n).modCh n fun c => { c with restarting := true }) = a at h1 h2 h3 ⊢
  split
  · rw [showCommand_self, h1]
    exact ⟨⟨rfl, rfl, rfl, rfl, rfl⟩, fun m hm => by rw [showCommand_others _ _ _ hm, h2 m hm],
      SameOutside.step (showCommand_moves ..).same rfl h3⟩
  · rw [h1]
    exact ⟨⟨rfl, rfl, rfl, rfl, rfl⟩, h2, h3⟩

theorem completes_backoffExpiry {s : State} {n : Chan} (hr : s.execRuns = true) (hp : s.ch[n].prot.pstate = .backoff)
    (he : s.ch[n].prot.expiry.toNat ≤ s.tick.toNat) :
    Completes (.backoffExpiry n) s fun t =>
      t.ch[n].prot.pstate = .permit ∧ t.ch[n].prot.tokens = s.ch[n].prot.tokens ∧ t.ch[n].prot.retryN = s.ch[n].prot.retryN ∧
      (restartReady (permitted s n) n = false → t = permitted s n) ∧
      (restartReady (permitted s n) n = true → admits (permitted s n) (doIncrease (permitted s n) n) false = true →
        t.ch[n].restarting = true ∧ t.ch[n].refused = none ∧
        (s.triad.blocked = false → s.bw.gathering = false → s.bw.stopped = false → s.recov.reload = none → s.bw.waiting = [] →
          s.bw.unacked.length < 16 →
          ∃ x : BwTx, t.bw.unacked = s.bw.unacked ++ [x] ∧ x.body = .command [.restart n] (s.tick + leadTicks))) ∧
      (restartReady (permitted s n) n = true → admits (permitted s n) (doIncrease (permitted s n) n) false = false →
        t.ch[n].refused = some s.ch[n].cmdWord ∧ bitAt t.ch[n].prot.live pGovRef = true ∧ t.bw = s.bw) ∧
      (∀ m : Chan, m ≠ n → t.ch[m] = s.ch[m]) ∧ SameOutside [.bw, .ch, .ev, .gov, .img, .port] s t := by
  have e0 : exec (.backoffExpiry n) s = .next (tryRestartNow (permitted s n) n) :=
    congrArg Host.Outcome.next (if_pos (by rw [hr, hp, decide_eq_true he]; rfl))
  have hself : (permitted s n).ch[n] = { s.ch[n] with prot := { s.ch[n].prot with pstate := .permit } } := modCh_self ..
  have hoth : ∀ m : Chan, m ≠ n → (permitted s n).ch[m] = s.ch[m] := fun m hm => modCh_others s _ hm
  have hsame := ((execBackoffExpiry_ends n s).same e0).widen (qs := [.bw, .ch, .ev, .gov, .img, .port]) rfl
  have hb : (permitted s n).bw = s.bw := rfl
  have htri : (permitted s n).triad = s.triad := rfl
  have hrec : (permitted s n).recov = s.recov := rfl
  have htick : (permitted s n).tick = s.tick := rfl
  have e1 : tryRestartNow (permitted s n) n = tryRestart (permitted s n) n ((permitted s n).tick + leadTicks) :=
    if_pos (by rw [hself]; rfl)
  rw [e1] at e0 hsame
  generalize permitted s n = a at *
  refine ⟨_, e0, ?_⟩
  by_cases hready : restartReady a n = true
  · by_cases had : admits a (doIncrease a n) false = true
    · rw [tryRestart_admitted hready had] at hsame ⊢
      obtain ⟨⟨h1, h2, h3, h4, h5⟩, h6, h7⟩ := restartShown_facts a n
      have hch : (bwSend (restartShown a n) (.command [.restart n] (a.tick + leadTicks))).ch = (restartShown a n).ch :=
        ((bwSend_moves ..).same.ch rfl)
      rw [hself] at h3 h4 h5
      refine ⟨by rw [hch, h3], by rw [hch, h4], by rw [hch, h5], fun h => absurd (hready.symm.trans h) (by decide), fun _ _ => ⟨by rw [hch, h1],
        by rw [hch, h2], fun k1 k2 k3 k4 k5 k6 => ?_⟩, fun _ h => absurd (had.symm.trans h) (by decide),
        fun m hm => by rw [hch, h6 m hm, hoth m hm], hsame⟩
      refine ⟨mkTx (restartShown a n) (.command [.restart n] (a.tick + leadTicks)), ?_, by rw [htick]; rfl⟩
      have hbw : (restartShown a n).bw = s.bw := (h7.bw rfl).trans hb
      rw [bwSend_command_free (by rw [h7.triad rfl, htri, k1]) (by rw [hbw, k2]) (by rw [hbw, k3]) (by rw [h7.recov rfl, hrec, k4])
        (by rw [hbw, k5]) (by rw [hbw]; exact k6), hbw]
    · rw [Bool.not_eq_true] at had
      rw [tryRestart_refused hready had] at hsame ⊢
      obtain ⟨h1, h2, h3, h4⟩ := govMarked_prot a.ch[n].cmdWord a.ch[n]
      have hch : (govRefuse a n a.ch[n].cmdWord).ch[n] = govMarked a.ch[n].cmdWord a.ch[n] := by rw [govRefuse_ch, modAt_self]
      have hbw : (showCommand (govRefuse a n a.ch[n].cmdWord) n (codeThree a.ch[n].cmdWord) true).bw = s.bw := by
        rw [(showCommand_moves ..).same.bw rfl, (govRefuse_moves ..).same.bw rfl, hb]
      rw [showCommand_self, hch]
      refine ⟨by rw [h2, hself], by rw [h3, hself], by rw [h4, hself], fun h => absurd (hready.symm.trans h) (by decide),
        fun _ h => absurd (had.symm.trans h) (by decide), fun _ _ => ⟨?_, h1, hbw⟩, fun m hm => ?_, hsame⟩
      · rw [govMarked, hself]
      · rw [showCommand_others _ _ _ hm, govRefuse_ch, modAt_of_ne _ _ hm, hoth m hm]
  · rw [Bool.not_eq_true] at hready
    have e2 : tryRestart a n (a.tick + leadTicks) = a := if_pos (by rw [hready]; decide)
    rw [e2] at hsame ⊢
    exact ⟨by rw [hself], by rw [hself], by rw [hself], fun _ => rfl, fun h => absurd (hready.symm.trans h) (by decide),
      fun h => absurd (hready.symm.trans h) (by decide), hoth, hsame⟩

theorem takeReport_restarted (s : State) (n : Chan) : takeReport s (.restarted n) = s.modCh n takeRestart := rfl

theorem restarted_counts {s : State} {n : Chan} (h : s.ch[n].prot.pstate = .permit ∨ s.ch[n].prot.pstate = .backoff) :
    (takeReport s (.restarted n)).ch[n].prot.pstate = .clear ∧
    (takeReport s (.restarted n)).ch[n].prot.retryN = s.ch[n].prot.retryN + 1 ∧
    (takeReport s (.restarted n)).ch[n].prot.tokens = s.ch[n].prot.tokens - 1 ∧ SameOutside [.ch] s (takeReport s (.restarted n)) := by
  have e : takeRestart s.ch[n] = _ := if_pos (by rcases h with h | h <;> rw [h] <;> decide)
  rw [takeReport_restarted, modCh_self, e]
  exact ⟨rfl, rfl, rfl, (State.modCh_moves ..).same⟩

/-- Settles O22: the end of a back-off is PERMIT, and what follows is the trial of a restart there. -/
theorem retriesAndTokens : Obligations.RetriesAndTokens :=
  fun _ _ => ⟨completes_tokenRefill, completes_quietReset, completes_backoffExpiry, restarted_counts⟩

end Sys2Proof.Machine
end

section
/-! The governor: its estimate, OVER, the re-evaluation of refused demands, and SHED (06 R163–R166). -/
namespace Sys2Proof.Machine

/-! ## What showing a channel leaves of its record -/

/-- What a channel's record leaves when its LIFE, its safe state and its lamp are shown anew. -/
def ChanShown (c d : Channel) : Prop := d = { c with life := d.life, safeApp := d.safeApp, p := d.p }

theorem ChanShown.get {c d : Channel} (h : ChanShown c d) {α : Type} (g : Channel → α)
    (hg : ∀ e : Channel, g { c with life := e.life, safeApp := e.safeApp, p := e.p } = g c) : g d = g c :=
  (congrArg g h).trans (hg d)

def ChansShown (s t : State) : Prop := ∀ m : Chan, ChanShown s.ch[m] t.ch[m]

namespace ChansShown

variable {s t u : State}

theorem of_eq (h : t.ch = s.ch) : ChansShown s t := fun m => by rw [h]; rfl

theorem of_moves {ps : List Part} (h : Moves ps s t) (hp : ps.contains .ch = false) : ChansShown s t := of_eq (h.same.ch hp)

theorem trans (h : ChansShown s t) (k : ChansShown t u) : ChansShown s u := fun m => by
  have hm := h m
  have km := k m
  unfold ChanShown at hm km ⊢
  rw [km, hm]

theorem ite {c : Prop} [Decidable c] (h : ChansShown s t) (k : ChansShown s u) : ChansShown s (if c then t else u) := by
  split
  · exact h
  · exact k

theorem modCh (s : State) (n : Chan) (f : Channel → Channel) (hf : ∀ c, ChanShown c (f c)) : ChansShown s (s.modCh n f) := fun m => by
  rw [State.modCh_ch, modAt_get]
  split
  · next h => exact h ▸ hf _
  · rfl

theorem foldl {β : Type} {f : State → β → State} (hf : ∀ a x, ChansShown a (f a x)) (l : List β) (s : State) : ChansShown s (l.foldl f s) :=
    by
  induction l generalizing s with
  | nil => exact of_eq rfl
  | cons x l ih => exact trans (hf s x) (ih _)

end ChansShown

theorem refresh_shown (s : State) (n : Chan) : ChansShown s (refresh s n) := by
  unfold refresh
  have h1 : ChansShown s (s.modCh n fun c => { c with life := lifeOf s n }) := ChansShown.modCh s n _ fun _ => rfl
  refine (((h1.trans (.of_moves (putChanHealth_moves _ n) rfl)).trans (.of_moves (putChanState_moves _ n) rfl)).trans
    (.of_moves (putCommands_moves _ n) rfl)).trans fun m => ?_
  have h := evalLamp_rec (putCommands (putChanState (putChanHealth (s.modCh n fun c => { c with life := lifeOf s n }) n) n) n) n m
  unfold LampRec at h
  unfold ChanShown
  rw [h]

theorem endSafeApp_shown (s : State) (n : Chan) : ChansShown s (endSafeApp s n) := by
  unfold endSafeApp
  exact ChansShown.ite (ChansShown.trans (ChansShown.modCh s n _ (by intro _; rfl)) (refresh_shown _ n)) (.of_eq rfl)

theorem command_shown (s : State) (acts : List FieldAct) : ChansShown s (command s acts) := by
  unfold command
  refine ChansShown.ite (.of_eq rfl) ((ChansShown.foldl (fun a x => ?_) acts s).trans (.of_moves (bwSend_moves ..) rfl))
  unfold commanded
  split
  · exact endSafeApp_shown a _
  · exact .of_eq rfl

/-! ## What the governor keeps when demands are judged -/

/-- Of the governor's state, only the refusal of this rule cycle changes. -/
def GovKept (s t : State) : Prop := t.gov = { s.gov with cycleRefused := t.gov.cycleRefused }

namespace GovKept

variable {s t u : State}

theorem of_eq (h : t.gov = s.gov) : GovKept s t := by
  unfold GovKept
  rw [h]

theorem of_moves {ps : List Part} (h : Moves ps s t) (hp : ps.contains .gov = false) : GovKept s t := of_eq (h.same.gov hp)

theorem trans (h : GovKept s t) (k : GovKept t u) : GovKept s u := by
  unfold GovKept at *
  rw [k, h]

theorem ite {c : Prop} [Decidable c] (h : GovKept s t) (k : GovKept s u) : GovKept s (if c then t else u) := by
  split
  · exact h
  · exact k

theorem foldl {β : Type} {f : State → β → State} (hf : ∀ a x, GovKept a (f a x)) (l : List β) (s : State) : GovKept s (l.foldl f s) := by
  induction l generalizing s with
  | nil => exact of_eq rfl
  | cons x l ih => exact trans (hf s x) (ih _)

theorem get (h : GovKept s t) {α : Type} (g : GovState → α) (hg : ∀ b, g { s.gov with cycleRefused := b } = g s.gov) :
    g t.gov = g s.gov :=
  (congrArg g h).trans (hg ..)

end GovKept

theorem govRefuse_kept (s : State) (n : Chan) (w : W16) : GovKept s (govRefuse s n w) := by
  unfold govRefuse
  exact GovKept.ite (GovKept.trans (by exact rfl) (.of_moves (raisePower_moves ..) rfl)) rfl

theorem govRefuseAlarm_kept (s : State) (n : Chan) (sel : BitVec 2) : GovKept s (govRefuseAlarm s n sel) := by
  unfold govRefuseAlarm
  exact GovKept.ite (GovKept.trans (by exact rfl) (.of_moves (raisePower_moves ..) rfl)) rfl

theorem tryRestartNow_kept (s : State) (n : Chan) : GovKept s (tryRestartNow s n) := by
  unfold tryRestartNow tryRestart
  refine GovKept.ite (GovKept.ite (.of_eq rfl) (GovKept.ite ((govRefuse_kept ..).trans (.of_moves (showCommand_moves ..) rfl)) ?_)) (.of_eq rfl)
  have h1 : GovKept s ((govClear s n).modCh n fun c => { c with restarting := true }) := .of_eq rfl
  exact (GovKept.ite (h1.trans (.of_moves (showCommand_moves ..) rfl)) h1).trans (.of_moves (bwSend_moves ..) rfl)

theorem demandDO_kept (s : State) (n : Chan) (v : W16) : GovKept s (demandDO s n v) := by
  unfold demandDO
  refine GovKept.ite ((govRefuse_kept ..).trans (.of_moves (showCommand_moves ..) rfl)) (GovKept.ite rfl ?_)
  exact GovKept.trans (by exact rfl) (.of_moves (command_moves ..) rfl)

theorem aoAdmit_kept (s : State) (n : Chan) (cmd : W16) (alarm : BitVec 2) : GovKept s (aoAdmit s n cmd alarm).2 :=
  .of_moves (aoAdmit_moves s n cmd alarm) rfl

theorem takeCmd_kept (s : State) (n : Chan) (v : W16) : GovKept s (takeCmd s n v) := by
  have h := aoAdmit_kept s n v s.loop[n].alarm
  unfold takeCmd
  split
  next s1 e =>
    rw [e] at h
    refine h.trans (GovKept.trans ?_ (.of_moves (targetAO_moves _ n) rfl))
    exact GovKept.ite (GovKept.trans (by exact rfl) (.of_moves (showCommand_moves ..) rfl)) rfl
  next s1 e =>
    rw [e] at h
    refine h.trans (GovKept.trans (GovKept.trans ?_ (.of_moves (showCommand_moves ..) rfl)) (.of_moves (putLoop_moves _ n) rfl))
    exact GovKept.ite rfl rfl
  next s1 e =>
    rw [e] at h
    exact h.trans (((govRefuse_kept ..).trans (.of_moves (showCommand_moves ..) rfl)).trans (.of_moves (putLoop_moves _ n) rfl))

theorem takeAlarm_kept (s : State) (n : Chan) (sel : BitVec 2) : GovKept s (takeAlarm s n sel) := by
  have h := aoAdmit_kept s n s.loop[n].cmd sel
  unfold takeAlarm
  split
  next s1 e =>
    rw [e] at h
    exact h.trans (GovKept.trans (by exact rfl) (.of_moves (targetAO_moves _ n) rfl))
  next s1 e =>
    rw [e] at h
    refine h.trans (GovKept.trans ?_ (.of_moves (alarmRefused_moves _ n) rfl))
    exact GovKept.ite rfl (.of_moves (raise_moves ..) rfl)
  next s1 e =>
    rw [e] at h
    exact h.trans ((govRefuseAlarm_kept ..).trans (.of_moves (alarmRefused_moves _ n) rfl))

theorem retryChan_kept (s : State) (n : Chan) : GovKept s (retryChan s n) := by
  have hd : ∀ a, GovKept a (retryDemand a n) := fun a => by
    unfold retryDemand
    split
    · rfl
    · refine GovKept.ite (GovKept.ite (tryRestartNow_kept ..) (GovKept.ite rfl (GovKept.ite ?_ rfl))) (GovKept.ite ?_ rfl)
      · exact (demandDO_kept ..).trans (.of_moves (showCommand_moves ..) rfl)
      · exact (takeCmd_kept ..).trans (.of_moves (sendAO_moves ..) rfl)
  refine (hd s).trans ?_
  show GovKept _ (retryAlarm _ n)
  unfold retryAlarm
  split
  · exact GovKept.ite ((takeAlarm_kept ..).trans (.of_moves (sendAO_moves ..) rfl)) rfl
  · rfl

theorem readmit_kept (s : State) (n : Chan) : GovKept s (readmit s n) := by
  unfold readmit
  refine GovKept.ite ?_ rfl
  have h := retryChan_kept { s with gov := { s.gov with cycleRefused := false } } n
  unfold GovKept at h ⊢
  dsimp only at h ⊢
  rw [h]

/-! ## The estimate and OVER -/

theorem foldl_readmit_kept (s : State) : GovKept s ((List.finRange 16).foldl readmit s) := GovKept.foldl readmit_kept _ s

theorem govUpdate_gov (s : State) :
    (govUpdate s).gov.pEst = satNat 16 (divRound (govSum (govUpdate s)) 1000).toNat ∧
    (govUpdate s).gov.pEst.toNat ≤ (govUpdate s).gov.peak.toNat := by
  unfold govUpdate
  dsimp only
  generalize ((List.finRange 16).foldl _ s) = a
  refine ⟨rfl, ?_⟩
  split <;> omega

/-- OVER after an update: it ends with the sum back under its limit. -/
def overUpdated (s : State) (lim : Int) : State :=
  if s.gov.overSum && govSum s ≤ lim then { s with gov := { s.gov with overSum := false } } else s

theorem overUpdated_gov (s : State) (lim : Int) :
    (overUpdated s lim).gov.pEst = s.gov.pEst ∧ (overUpdated s lim).gov.peak = s.gov.peak ∧
    (govSum s ≤ lim → (overUpdated s lim).gov.overSum = false) := by
  unfold overUpdated
  split
  · exact ⟨rfl, rfl, fun _ => rfl⟩
  next h =>
    refine ⟨rfl, rfl, fun hl => ?_⟩
    rw [decide_eq_true hl, Bool.and_true, Bool.not_eq_true] at h
    exact h

theorem completes_governorUpdate {s : State} (hr : s.execRuns = true) :
    Completes .governorUpdate s fun t =>
      t.gov.pEst = satNat 16 (divRound (govSum (govUpdate s)) 1000).toNat ∧ t.gov.pEst.toNat ≤ t.gov.peak.toNat ∧
      (govSum (govUpdate s) ≤ (if s.device.shed then budgetUw s else 95 * budgetUw s / 100) → t.gov.overSum = false) ∧
      SameOutside [.free, .bw, .ch, .ev, .img, .port, .conv, .loop, .gov] s t := by
  have e : exec .governorUpdate s = .next ((List.finRange 16).foldl readmit
      (overUpdated (govUpdate s) (if s.device.shed then budgetUw s else 95 * budgetUw s / 100))) :=
    congrArg Host.Outcome.next (if_neg (by rw [hr]; decide))
  obtain ⟨h1, h2⟩ := govUpdate_gov s
  obtain ⟨h3, h4, h5⟩ := overUpdated_gov (govUpdate s) (if s.device.shed then budgetUw s else 95 * budgetUw s / 100)
  have hk := foldl_readmit_kept (overUpdated (govUpdate s) (if s.device.shed then budgetUw s else 95 * budgetUw s / 100))
  have k1 := hk.get GovState.pEst fun _ => rfl
  have k2 := hk.get GovState.peak fun _ => rfl
  have k3 := hk.get GovState.overSum fun _ => rfl
  refine ⟨_, e, ?_, ?_, fun hl => ?_, (execGovernorUpdate_ends s).same e⟩
  · rw [k1, h3, h1]
  · rw [k1, k2, h3, h4]
    exact h2
  · rw [k3, h5 hl]

theorem completes_governorOver {s : State} (hr : s.execRuns = true) (hb : budgetUw s < govSum s) (ho : s.gov.overSum = false) :
    Completes .governorOver s fun t => t.gov.overSum = true ∧ t.gov.pEst = s.gov.pEst ∧ SameOutside [.ev, .gov, .port] s t := by
  have e : exec .governorOver s = .next (raisePower { s with gov := { s.gov with overSum := true } } none) :=
    congrArg Host.Outcome.next (if_pos (by rw [hr, ho, decide_eq_true (show govSum s > budgetUw s from hb)]; rfl))
  have hg := (raisePower_moves { s with gov := { s.gov with overSum := true } } none).same.gov rfl
  exact ⟨_, e, by rw [hg], by rw [hg], ((execGovernorOver_ends s).same e).widen rfl⟩

/-! ## Refused demands -/

theorem retryChan_none {s : State} {n : Chan} (h : s.ch[n].refused = none) (hl : s.loop[n].alarmRef = none) : retryChan s n = s := by
  have hd : retryDemand s n = s := by rw [retryDemand, h]
  rw [retryChan, hd, retryAlarm, hl]

/-- Where one channel alone has a demand refused, that one alone is re-evaluated. -/
theorem foldl_retryChan {s : State} {n : Chan} (hs : ∀ m : Chan, m ≠ n → s.ch[m].refused = none) (hl : ∀ m : Chan, s.loop[m].alarmRef = none)
    (ht : ∀ m : Chan, m ≠ n → (retryDemand s n).ch[m].refused = none) (hloop : (retryDemand s n).loop = s.loop) :
    (List.finRange 16).foldl retryChan s = retryDemand s n := by
  have hn : retryChan s n = retryDemand s n := by
    unfold retryChan
    generalize hr : retryDemand s n = r at hloop
    rw [retryAlarm, hloop, hl n]
  have hid : ∀ (a : State), (∀ m : Chan, m ≠ n → a.ch[m].refused = none) → a.loop = s.loop → ∀ l : List Chan, n ∉ l →
      l.foldl retryChan a = a :=
    fun a ha hal l hnl => by
      induction l with
      | nil => rfl
      | cons m l ih =>
        rw [List.mem_cons, not_or] at hnl
        rw [List.foldl_cons, retryChan_none (ha m (Ne.symm hnl.1)) (by rw [hal]; exact hl m), ih hnl.2]
  obtain ⟨l1, l2, hsplit⟩ := List.append_of_mem (List.mem_finRange n)
  have hnd := List.nodup_finRange 16
  rw [hsplit] at hnd ⊢
  have hnd' := List.nodup_middle.mp hnd
  rw [List.nodup_cons, List.mem_append, not_or] at hnd'
  rw [List.foldl_append, List.foldl_cons, hid s hs rfl l1 hnd'.1.1, hn, hid _ ht hloop l2 hnd'.1.2]

theorem completes_governorReevaluate {s : State} {n : Chan} {v : W16} (hr : s.execRuns = true) (hv : s.ch[n].refused = some v)
    (hs : ∀ m : Chan, m ≠ n → s.ch[m].refused = none) (hl : ∀ m : Chan, s.loop[m].alarmRef = none) (hk : s.ch[n].kind = kindDO)
    (ha : acting s = true) (hm : s.ch[n].map = none) (hc : s.ch[n].cmd = .dark) (hd : doCommand v ≠ .dark)
    (had : admits s (doIncrease s n) s.ch[n].shed = true) :
    Completes .governorReevaluate s fun t =>
      t.ch[n].refused = none ∧ t.ch[n].shed = false ∧ t.ch[n].cmd = doCommand v ∧ t.gov = s.gov ∧
      SameOutside [.free, .bw, .ch, .ev, .img, .port, .conv, .loop] s t := by
  have hrole : roleChan s n = n := by rw [roleChan, hm]; rfl
  have e1 : demandDO s n v = command (setCmd (govClear s n) n (doCommand v)) [.set n (doCommand v)] := by
    simp only [demandDO, hrole, hc, had, Bool.not_true, Bool.and_false, Bool.false_eq_true, if_false, if_neg hd.symm]
  have e2 : retryDemand s n = showCommand (demandDO s n v) n v false := by
    rw [retryDemand, hv]
    dsimp only
    rw [if_pos hk]
    simp only [hrole, hc, ha, had, ne_eq, not_true_eq_false, Bool.not_true, Bool.false_eq_true, if_false, if_true]
  have hsh := command_shown (setCmd (govClear s n) n (doCommand v)) [.set n (doCommand v)]
  have hmid : SameOutside [.bw, .ch, .ev, .img, .port] s (demandDO s n v) := by
    rw [e1]
    exact SameOutside.step (command_moves ..).same rfl (SameOutside.step (setCmd_moves ..).same rfl ((govClear_moves s n).same.widen rfl))
  have hsame : SameOutside [.bw, .ch, .ev, .img, .port] s (retryDemand s n) := by
    rw [e2]
    exact SameOutside.step (showCommand_moves ..).same rfl hmid
  have hoth : ∀ m : Chan, m ≠ n → (retryDemand s n).ch[m].refused = none := fun m hm => by
    rw [e2, showCommand_others _ _ _ hm, e1, (hsh m).get Channel.refused fun _ => rfl, setCmd, modCh_others _ _ hm, govClear,
      modCh_others _ _ hm, hs m hm]
  have hself : (setCmd (govClear s n) n (doCommand v)).ch[n].refused = none ∧ (setCmd (govClear s n) n (doCommand v)).ch[n].shed = false ∧
      (setCmd (govClear s n) n (doCommand v)).ch[n].cmd = doCommand v := by
    rw [setCmd, modCh_self, govClear, modCh_self]
    exact ⟨rfl, rfl, rfl⟩
  obtain ⟨h1, h2, h3⟩ := hself
  have e : exec .governorReevaluate s = .next (retryDemand s n) := by
    show execGovernorReevaluate s = _
    rw [execGovernorReevaluate, if_pos hr, foldl_retryChan hs hl hoth (hsame.loop rfl)]
  refine ⟨_, e, ?_, ?_, ?_, hsame.gov rfl, hsame.widen rfl⟩
  · rw [e2, showCommand_self, e1]
    exact ((hsh n).get Channel.refused fun _ => rfl).trans h1
  · rw [e2, showCommand_self, e1]
    exact ((hsh n).get Channel.shed fun _ => rfl).trans h2
  · rw [e2, showCommand_self, e1]
    exact ((hsh n).get Channel.cmd fun _ => rfl).trans h3

/-! ## SHED -/

/-- The highest channel of a property that holds of none above it. -/
theorem find_highest {p : Chan → Bool} {n : Chan} (hn : p n = true) (hm : ∀ m : Chan, n < m → p m = false) :
    (List.finRange 16).reverse.find? p = some n := by
  obtain ⟨l1, l2, hl⟩ := List.append_of_mem (List.mem_reverse.mpr (List.mem_finRange n))
  have hp : ((List.finRange 16).reverse).Pairwise (· > ·) := List.pairwise_reverse.mpr (List.pairwise_lt_finRange 16)
  rw [hl] at hp ⊢
  rw [List.find?_append, List.find?_eq_none.mpr, Option.none_or, List.find?_cons_of_pos hn]
  intro m hmem
  rw [hm m ((List.pairwise_append.mp hp).2.2 m hmem n (List.mem_cons_self ..))]
  exact Bool.false_ne_true

/-- The channel that SHED switches off, its demand refused (06 R166). -/
def shedMarked (s : State) (n : Chan) : State :=
  let s1 := s.modCh n fun c =>
    { c with refused := some c.cmdWord, shed := true,
             prot := let p := setProt (setProt c.prot pGovRef true) pShed true; { p with cntGov := satInc p.cntGov } }
  (setCmd s1 n .dark).modCh n fun c => { c with prot := { c.prot with cntShed := satInc c.prot.cntShed } }

theorem shedMarked_self (s : State) (n : Chan) :
    (shedMarked s n).ch[n].refused = some s.ch[n].cmdWord ∧ (shedMarked s n).ch[n].shed = true ∧ (shedMarked s n).ch[n].cmd = .dark ∧
    (shedMarked s n).ch[n].prot.cntShed = satInc s.ch[n].prot.cntShed ∧ (shedMarked s n).ch[n].prot.cntGov = satInc s.ch[n].prot.cntGov := by
  unfold shedMarked
  dsimp only
  rw [modCh_self, setCmd, modCh_self, modCh_self]
  exact ⟨rfl, rfl, rfl, rfl, rfl⟩

theorem completes_governorShed {s : State} {n : Chan} (hr : s.execRuns = true) (ha : acting s = true) (ho : s.gov.overSum = true)
    (hsh : s.device.shed = true) (hb : budgetUw s < govSum s)
    (hn : s.ch[n].kind = kindDO ∧ retryShedOk (s.crec n) = true ∧ s.ch[n].p.cmdLit = true ∧ s.ch[n].retired = false ∧
      s.ch[n].refused = none ∧ s.ch[n].roleOf = none)
    (hm : ∀ m : Chan, n < m → s.ch[m].p.cmdLit = false) :
    Completes .governorShed s fun t =>
      t.ch[n].refused = some s.ch[n].cmdWord ∧ t.ch[n].shed = true ∧ t.ch[n].cmd = .dark ∧
      t.ch[n].prot.cntShed = satInc s.ch[n].prot.cntShed ∧ t.ch[n].prot.cntGov = satInc s.ch[n].prot.cntGov ∧
      SameOutside [.bw, .ch, .ev, .img, .port] s t := by
  obtain ⟨hk, hok, hlit, hret, href, hrole⟩ := hn
  have hfind : (List.finRange 16).reverse.find? (fun n =>
      decide (s.ch[n].kind = kindDO) && retryShedOk (s.crec n) && s.ch[n].p.cmdLit && !s.ch[n].retired && s.ch[n].refused.isNone) = some n :=
    find_highest (by rw [hk, hok, hlit, hret, href]; rfl) fun m h => by rw [hm m h, Bool.and_false, Bool.false_and, Bool.false_and]
  have e : exec .governorShed s = .next (command (raisePower (showCommand (shedMarked s n) n (codeThree (shedMarked s n).ch[n].cmdWord) true)
      (some n)) [.set n .dark]) := by
    show execGovernorShed s = _
    unfold execGovernorShed
    rw [if_neg (by rw [hr, ha, ho, hsh, decide_eq_false (Int.not_le.mpr hb)]; decide), hfind]
    simp only [hrole, Option.getD_none, shedMarked]
  obtain ⟨h1, h2, h3, h4, h5⟩ := shedMarked_self s n
  have hch : (raisePower (showCommand (shedMarked s n) n (codeThree (shedMarked s n).ch[n].cmdWord) true) (some n)).ch[n] =
      { (shedMarked s n).ch[n] with cmdBad := true } := by
    rw [(raisePower_moves ..).same.ch rfl, showCommand_self]
  have hc := command_shown (raisePower (showCommand (shedMarked s n) n (codeThree (shedMarked s n).ch[n].cmdWord) true) (some n)) [.set n .dark] n
  rw [hch] at hc
  exact ⟨_, e, (hc.get Channel.refused fun _ => rfl).trans h1, (hc.get Channel.shed fun _ => rfl).trans h2,
      (hc.get Channel.cmd fun _ => rfl).trans h3,
    (hc.get (fun c => c.prot.cntShed) fun _ => rfl).trans h4, (hc.get (fun c => c.prot.cntGov) fun _ => rfl).trans h5,
      ((execGovernorShed_ends s).same e).widen rfl⟩

/-- Settles O23: judging demands leaves the governor's estimate; what showing a channel leaves keeps the demand's mark. -/
theorem governorEstimatesRefusesAndSheds : Obligations.GovernorEstimatesRefusesAndSheds :=
  fun _ hr => ⟨completes_governorUpdate hr, completes_governorOver hr, fun _ _ => completes_governorReevaluate hr,
    fun _ => completes_governorShed hr⟩

end Sys2Proof.Machine
end

section
/-! Conditions and estimates of the regulating outputs (07 R179–R182, 09 R257). -/
namespace Sys2Proof.Machine

theorem report_waits {s : State} {r : Report} (ha : s.fd.alive = true) (hs : s.fd.slack = false) :
    report s r = { s with fd := { s.fd with events := s.fd.events ++ [r] } } := by
  rw [report, if_neg (by rw [ha]; decide), if_neg (by rw [hs, Bool.false_and]; decide)]

theorem execs_compliance {s : State} {n : Chan} (hon : s.fdOn = true) (hc : checked s n (s.fdc n) = true) (hs : s.fd.slack = false) :
    exec (.shortfall n) s = .next { s with fd := { s.fd with events := s.fd.events ++ [.compliance n 0 true] } } ∧
    exec (.excess n) s = .next { s with fd := { s.fd with events := s.fd.events ++ [.compliance n 1 true] } } ∧
    exec (.aoOpen n) s = .next { s with fd := { s.fd with events := s.fd.events ++ [.compliance n 2 true] } } ∧
    exec (.complianceClear n) s =
      .next { s with fd := { s.fd with status := s.fd.status ++ [.compliance n 0 false, .compliance n 1 false] } } := by
  have ha : s.fd.alive = true := (Bool.and_eq_true_iff.mp hon).1
  refine ⟨congrArg Host.Outcome.next ((onField_pos hon hc _).trans (report_waits ha hs)),
    congrArg Host.Outcome.next ((onField_pos hon hc _).trans (report_waits ha hs)),
    congrArg Host.Outcome.next ((onField_pos hon hc _).trans (report_waits ha hs)),
    congrArg Host.Outcome.next ((onField_pos hon hc _).trans ?_)⟩
  rw [reportStatus_waits ha hs]
  refine (reportStatus_waits (s := { s with fd := { s.fd with status := s.fd.status ++ [.compliance n 0 false] } }) ha hs).trans ?_
  dsimp only
  rw [List.append_assoc]
  rfl

/-- A value clamped to a word's range reads as it is. -/
theorem toNat_clamped (v : Int) : ((BitVec.ofInt 16 (clampInt 0 0xFFFE v)).toNat : Int) = clampInt 0 0xFFFE v := by
  have h : 0 ≤ clampInt 0 0xFFFE v ∧ clampInt 0 0xFFFE v ≤ 0xFFFE := by
    unfold clampInt
    split
    · omega
    · split <;> omega
  rw [BitVec.toNat_ofInt]
  omega

theorem completes_loopResistance {s : State} {n : Chan} (hr : s.execRuns = true) (hk : s.ch[n].kind = kindAOSrc) (hi : (s.cur n).valid = true)
    (hv : (s.vol n).valid = true) (hmin : 100000 ≤ Int.natAbs (s.cur n).value.toInt) :
    Completes (.loopResistanceEstimate n) s fun t =>
      (0 ≤ (s.vol n).value.toInt → (t.loop[n].rloop.toNat : Int) =
        clampInt 0 0xFFFE (divRound (100 * (s.vol n).value.toInt) (Int.natAbs (s.cur n).value.toInt))) ∧
      (∀ m : Chan, m ≠ n → t.loop[m] = s.loop[m]) ∧ SameOutside [.free, .loop] s t := by
  have e : exec (.loopResistanceEstimate n) s = _ :=
    congrArg Host.Outcome.next (if_pos (by rw [hr, hk, hi, hv, decide_eq_true hmin]; rfl))
  have hl := (loopR_moves s (s.vol n).value.toInt (Int.natAbs (s.cur n).value.toInt)).same.loop rfl
  refine ⟨_, e, fun hp => ?_, fun m hm => ?_, (execLoopResistanceEstimate_ends n s).same e⟩
  · rw [State.modLoop_loop, modAt_self]
    dsimp only
    rw [loopR, if_neg (Int.not_lt.mpr hp)]
    exact toNat_clamped _
  · rw [State.modLoop_loop, modAt_of_ne _ _ hm, hl]

theorem setLoop_live (l : ChanLoop) {i : Nat} (h : i < 11) (b : Bool) : bitAt (setLoop l i b).live i = b :=
  bitAt_withBit_self _ h b

theorem completes_almRisk {s : State} {n : Chan} {risk : Bool} {k : W64} (hr : s.execRuns = true) (hk : s.ch[n].kind = kindAOSrc)
    (hb : bitAt s.loop[n].live lAlmRisk = !risk) (ht : (if risk then s.loop[n].riskSince else s.loop[n].easeSince) = some k)
    (h1 : secTicks 1 ≤ s.since k) :
    Completes (.almRisk n risk) s fun t =>
      bitAt t.loop[n].live lAlmRisk = risk ∧ (∀ m : Chan, m ≠ n → t.loop[m] = s.loop[m]) ∧ SameOutside [.ev, .img, .loop, .port] s t := by
  have e : exec (.almRisk n risk) s = .next (putCommands (if risk then raiseMeasure (s.modLoop n fun l => setLoop l lAlmRisk risk) n 6 0
      else s.modLoop n fun l => setLoop l lAlmRisk risk) n) := by
    refine congrArg Host.Outcome.next (if_pos ?_)
    rw [hr, hk, hb, ht, Option.any_some, decide_eq_true h1, decide_eq_true (Bool.not_ne_self risk)]
    rfl
  have hl : (putCommands (if risk then raiseMeasure (s.modLoop n fun l => setLoop l lAlmRisk risk) n 6 0
      else s.modLoop n fun l => setLoop l lAlmRisk risk) n).loop = modAt s.loop n fun l => setLoop l lAlmRisk risk := by
    rw [(putCommands_moves ..).same.loop rfl]
    split
    · rw [(raiseMeasure_moves ..).same.loop rfl, State.modLoop_loop]
    · rw [State.modLoop_loop]
  refine ⟨_, e, ?_, fun m hm => ?_, ((execAlmRisk_ends n risk s).same e).widen rfl⟩
  · rw [hl, modAt_self]
    exact setLoop_live _ (by decide) risk
  · rw [hl, modAt_of_ne _ _ hm]

theorem completes_dacRecompute {s : State} {n : Chan} (hr : s.execRuns = true) (hk : isAO s.ch[n].kind = true) (ht : s.loop[n].targetOn = true)
    {q : Int × Int × Bool} {d : Int × W16 × Bool} (hq : q = tempTerms (factoryRec s.otpAt n (cselOut s.ch[n].kind)) (tjNow s n).1)
    (hd : d = outChain s.loop[n].deliver (factoryRec s.otpAt n (cselOut s.ch[n].kind)) (userLayer s n (cselOut s.ch[n].kind)) q.1 q.2.1) :
    Completes (.dacRecompute n) s fun t =>
      t.conv.dac[n] = d.2.1 ∧ t.conv.dacSat[n] = d.2.2 ∧ (∀ m : Chan, m ≠ n → t.conv.dac[m] = s.conv.dac[m]) ∧
      (s.conv.dac[n] = d.2.1 → t.bw = s.bw) ∧ SameOutside [.bw, .conv] s t := by
  subst hq hd
  have e : exec (.dacRecompute n) s = .next (if s.conv.dac[n] = (putDac s n).conv.dac[n] then putDac s n
      else command (putDac s n) [.dac n (putDac s n).conv.dac[n]]) := congrArg Host.Outcome.next (if_pos (by rw [hr, hk, ht]; rfl))
  have hdac : (putDac s n).conv.dac[n] = (outChain s.loop[n].deliver (factoryRec s.otpAt n (cselOut s.ch[n].kind))
      (userLayer s n (cselOut s.ch[n].kind)) (tempTerms (factoryRec s.otpAt n (cselOut s.ch[n].kind)) (tjNow s n).1).1
      (tempTerms (factoryRec s.otpAt n (cselOut s.ch[n].kind)) (tjNow s n).1).2.1).2.1 := setAt_self ..
  have hsend : ∀ a : State, ∀ w, command a [.dac n w] = bwSend a (.command [.dac n w] (a.tick + leadTicks)) := fun _ _ => rfl
  have hp := (putDac_moves s n).same
  have hs : SameOutside [.bw, .conv] s (if s.conv.dac[n] = (putDac s n).conv.dac[n] then putDac s n
      else command (putDac s n) [.dac n (putDac s n).conv.dac[n]]) := by
    split
    · exact hp.widen rfl
    · rw [hsend]
      exact SameOutside.step (bwSend_moves ..).same rfl (hp.widen rfl)
  have hconv : (if s.conv.dac[n] = (putDac s n).conv.dac[n] then putDac s n
      else command (putDac s n) [.dac n (putDac s n).conv.dac[n]]).conv = (putDac s n).conv := by
    split
    · rfl
    · rw [hsend, (bwSend_moves ..).same.conv rfl]
  refine ⟨_, e, by rw [hconv, hdac], by rw [hconv]; exact setAt_self .., fun m hm => by rw [hconv]; exact setAt_of_ne _ _ hm, fun h => ?_, hs⟩
  rw [if_pos (h.trans hdac.symm), hp.bw rfl]

/-- Settles O24: a condition only enters the field die's reports; each estimate is the branch of its own test. -/
theorem loopConditionsAndEstimates : Obligations.LoopConditionsAndEstimates :=
  ⟨fun _ _ => execs_compliance, fun _ _ hr => ⟨completes_loopResistance hr, fun _ _ => completes_almRisk hr,
    fun hk ht _ _ => completes_dacRecompute hr hk ht⟩⟩

end Sys2Proof.Machine
end

section
/-! The trim buttons and TRIMLED (07 R191–R194, 01 R34). -/
namespace Sys2Proof.Machine

theorem exec_buttonPress {s : State} (zero ended : Bool) (ms : Nat) (both : Bool) (ha : s.fd.alive = true) (hs : s.fd.slack = false) :
    exec (.buttonPress zero ended ms both) s = .next { s with fd := { s.fd with status := s.fd.status ++ [.button zero ended ms both] } } :=
  congrArg Host.Outcome.next (reportStatus_waits ha hs)

/-- The state of a button as a report tells it. -/
def buttonShown (s : State) (zero down : Bool) : State :=
  { s with trim := if zero then { s.trim with zeroP := down } else { s.trim with spanP := down } }

theorem buttonShown_facts (s : State) (zero down : Bool) :
    (if zero then (buttonShown s zero down).trim.zeroP else (buttonShown s zero down).trim.spanP) = down ∧
    (buttonShown s zero down).trim.armed = s.trim.armed ∧ (buttonShown s zero down).trim.actCount = s.trim.actCount ∧
    SameOutside [.trim] s (buttonShown s zero down) := by
  cases zero <;> exact ⟨rfl, rfl, rfl, SameOutside.set_trim ..⟩

theorem takeButton_shown {s : State} {zero ended : Bool} {ms : Nat} {both : Bool} (h : ended = false ∨ s.m.mode ≠ .trim) :
    takeReport s (.button zero ended ms both) = buttonShown s zero (!ended) := by
  show takeButton s zero ended ms both = _
  unfold takeButton
  refine if_pos ?_
  rcases h with h | h <;> simp [h]

theorem pressed_shown {s t : State} (zero : Bool) (ms : Nat) (both : Bool) (h : t = takeReport s (.button zero false ms both)) :
    (if zero then t.trim.zeroP else t.trim.spanP) = true ∧ t.trim.armed = s.trim.armed ∧ t.trim.actCount = s.trim.actCount ∧
    SameOutside [.trim] s t := by
  rw [h, takeButton_shown (.inl rfl)]
  exact buttonShown_facts s zero true

theorem released_outside_trim {s t : State} {zero : Bool} {ms : Nat} {both : Bool} (hm : s.m.mode ≠ .trim)
    (h : t = takeReport s (.button zero true ms both)) :
    (if zero then t.trim.zeroP else t.trim.spanP) = false ∧ t.trim.actCount = s.trim.actCount ∧ SameOutside [.trim] s t := by
  rw [h, takeButton_shown (.inr hm)]
  obtain ⟨h1, -, h2, h3⟩ := buttonShown_facts s zero false
  exact ⟨h1, h2, h3⟩

/-- A button released while both are held: the other's level is what remains of the press. -/
def bothDown (s : State) (zero : Bool) : State :=
  { buttonShown s zero false with trim := { (buttonShown s zero false).trim with both := if zero then s.trim.spanP else s.trim.zeroP } }

theorem bothDown_facts (s : State) (zero : Bool) :
    SameOutside [.trim] s (bothDown s zero) ∧ (bothDown s zero).trim.actCount = s.trim.actCount ∧
    (bothDown s zero).trim.armValid = s.trim.armValid ∧ nextArmed (bothDown s zero) = nextArmed s := by
  cases zero <;> exact ⟨SameOutside.step (SameOutside.set_trim ..) rfl (SameOutside.set_trim ..), rfl, rfl, rfl⟩

/-- Both buttons held: the arming moves to the next channel, and TRIMLED shows the action done. -/
theorem both_arm_next {s t : State} {zero : Bool} {ms : Nat} {n : Chan} (hm : s.m.mode = .trim) (hb : s.trim.both = false)
    (hv : s.trim.armValid = true) (hn : nextArmed s = some n) (h : t = takeReport s (.button zero true ms true)) :
    t.trim.armed = n ∧ t.trim.lastAct = 4 ∧ t.trim.actCount = satInc s.trim.actCount ∧ t.trim.led = .success ∧
    t.pins.ledLow = true ∧ SameOutside [.ev, .port, .trim, .pins] s t := by
  obtain ⟨hs, hc, hav, harm⟩ := bothDown_facts s zero
  have hna : nextArmed (bothDown s zero) = some n := harm.trans hn
  let a : State := { bothDown s zero with trim := { (bothDown s zero).trim with armed := n } }
  have e : t = buttonEnd a true 4 := by
    rw [h]
    show takeButton s zero true ms true = _
    unfold takeButton
    dsimp only
    rw [if_neg (by simp [hm]), if_neg (show ¬ s.trim.both = true by rw [hb]; decide), if_pos rfl]
    have hx : ∀ {x y : State} {f : Chan → State}, (if !(bothDown s zero).trim.armValid then x else match nextArmed (bothDown s zero) with
        | some n => f n
        | none => y) = f n := by
      intro x y f
      rw [hna, hav, hv]
      rfl
    exact hx
  have ht : t.trim = { a.trim with lastAct := 4, actCount := satInc a.trim.actCount, led := .success } ∧ t.pins.ledLow = true := by
    rw [e, buttonEnd, show a.m.mode = .trim from hm, show a.trim.armValid = true from hav.trans hv]
    dsimp only
    rw [(raise_moves ..).same.trim rfl, (raise_moves ..).same.pins rfl]
    exact ⟨rfl, rfl⟩
  refine ⟨by rw [ht.1], by rw [ht.1], by rw [ht.1]; exact congrArg satInc hc, by rw [ht.1], ht.2, ?_⟩
  rw [e]
  exact SameOutside.step (buttonEnd_moves a true 4).same rfl (SameOutside.step (SameOutside.set_trim ..) rfl (hs.widen rfl))

theorem completes_trimledTimer {s : State} (hm : s.m.mode ≠ .trim) :
    Completes .trimledTimer s fun t => t.trim.led = .off ∧ t.pins.ledLow = false ∧ SameOutside [.trim, .pins] s t := by
  have e : exec .trimledTimer s = .next { s with trim := { s.trim with led := .off }, pins := { s.pins with ledLow := false } } :=
    congrArg Host.Outcome.next (if_pos hm)
  exact ⟨_, e, rfl, rfl, (execTrimledTimer_ends s).same e⟩

theorem completes_trimledTimer_low {s : State} {k : Nat} (hm : s.m.mode = .trim) (hl : s.trim.led = .pulse k true) :
    Completes .trimledTimer s fun t => t.trim.led = .pulse k false ∧ t.pins.ledLow = false ∧ SameOutside [.trim, .pins] s t := by
  have e : exec .trimledTimer s = .next { s with trim := { s.trim with led := .pulse k false }, pins := { s.pins with ledLow := false } } := by
    show execTrimledTimer s = _
    rw [execTrimledTimer, if_neg (not_not_intro hm), hl]
  exact ⟨_, e, rfl, rfl, (execTrimledTimer_ends s).same e⟩

theorem completes_trimledTimer_high {s : State} {k : Nat} (hm : s.m.mode = .trim) (hl : s.trim.led = .pulse k false) :
    Completes .trimledTimer s fun t =>
      t.trim.led = (if k < s.trim.armed.val then .pulse (k + 1) true else .gap) ∧
      (t.pins.ledLow = true ↔ k < s.trim.armed.val) ∧ SameOutside [.trim, .pins] s t := by
  have e : exec .trimledTimer s = .next (if k < s.trim.armed.val
      then { s with trim := { s.trim with led := .pulse (k + 1) true }, pins := { s.pins with ledLow := true } }
      else { s with trim := { s.trim with led := .gap }, pins := { s.pins with ledLow := false } }) := by
    show execTrimledTimer s = _
    rw [execTrimledTimer, if_neg (not_not_intro hm), hl]
  refine ⟨_, e, ?_, ?_, (execTrimledTimer_ends s).same e⟩
  · split <;> rfl
  · split
    next h => exact ⟨fun _ => h, fun _ => rfl⟩
    next h => exact ⟨fun h' => absurd h' Bool.false_ne_true, fun h' => absurd h' h⟩

/-- Settles O25: the press waits in a STATUS frame, and what it does is decided by the mode where it is taken. -/
theorem buttonsAndTheirLamp : Obligations.ButtonsAndTheirLamp :=
  fun _ => ⟨exec_buttonPress, fun zero ms both _ => pressed_shown zero ms both, fun _ _ _ _ => released_outside_trim,
    fun _ _ _ _ hm _ => both_arm_next hm, completes_trimledTimer, fun _ => completes_trimledTimer_low, fun _ => completes_trimledTimer_high⟩

end Sys2Proof.Machine
end

section
/-! HART scheduling and the end of a transaction (07 R197, R198, R200). -/
namespace Sys2Proof.Machine

/-! ## Polls and searches that fall due -/

theorem mem_insertPoll (r : HartReq) (l : List HartReq) : r ∈ insertPoll r l := by
  induction l with
  | nil => exact List.mem_cons_self ..
  | cons x l ih =>
    unfold insertPoll
    split
    · exact List.mem_cons_self ..
    · exact List.mem_cons_of_mem _ ih

/-- A request made ready stands in the list; the pass-throughs stand. -/
theorem readyPoll_waits (s : State) (r : HartReq) :
    r ∈ (readyPoll s r).hart.polls ∧ (readyPoll s r).hart.passes = s.hart.passes ∧ SameOutside [.hart] s (readyPoll s r) := by
  refine ⟨?_, ?_, (readyPoll_moves s r).same⟩
  all_goals unfold readyPoll
  · split
    next h => exact List.contains_iff_mem.mp h
    · exact mem_insertPoll r _
  · split <;> rfl

theorem completes_hartPollDue {s : State} {n : Chan} {a : BitVec 4} (hr : hartRuns s n = true) (hm : hartMapped s n a = true)
    (hq : hartQueued s n a = false) (hl : s.loop[n].dev[a.toFin].live = true) :
    Completes (.hartPollDue n a) s fun t => HartReq.poll n a s.tick ∈ t.hart.polls ∧ t.hart.passes = s.hart.passes ∧ SameOutside [.hart] s t :=
  ⟨_, congrArg Host.Outcome.next (if_pos (by rw [hr, hm, hl, hq]; rfl)), readyPoll_waits s _⟩

theorem completes_hartSearch {s : State} {n : Chan} {a : BitVec 4} (hr : hartRuns s n = true) (hm : hartMapped s n a = true)
    (hq : hartQueued s n a = false) (hl : s.loop[n].dev[a.toFin].live = false) :
    Completes (.hartSearch n a) s fun t => HartReq.search n a s.tick ∈ t.hart.polls ∧ t.hart.passes = s.hart.passes ∧ SameOutside [.hart] s t :=
  ⟨_, congrArg Host.Outcome.next (if_pos (by rw [hr, hm, hl, hq]; rfl)), readyPoll_waits s _⟩

/-! ## A pass-through request taken -/

section
variable {s : State} {k : Fin 4} {rs : List HartReq} {n : Chan} {a : BitVec 4} {cmd : Byte} {data : List Byte} {slot : SlotIx}
  (hok : s.hart.modem[k].ok = true) (ht : s.hart.modem[k].txn = none) (hp : s.hart.passes = .pass n a cmd data slot :: rs)
  (hm : modemOf s.hart n = none) (hr : hartRuns s n = true)
include hok ht hp hm hr

/-- A free modem takes the pass-through at the front. -/
theorem exec_hartStart_pass :
    exec (.hartTransactionStart k) s = .next (startTxn { s with hart := { s.hart with passes := rs } } k (.pass n a cmd data slot) 0) := by
  show execHartTransactionStart k s = _
  unfold execHartTransactionStart
  dsimp only
  rw [if_neg (by rw [hok, ht]; decide), hp, List.find?_cons_of_pos (by rw [show (HartReq.pass n a cmd data slot).chan = n from rfl, hm, hr]; rfl)]
  dsimp only
  rw [List.erase_cons_head]

theorem completes_hartStart {f : List Byte} (hf : reqFrame s (.pass n a cmd data slot) = some f) :
    Completes (.hartTransactionStart k) s fun t =>
      t.hart.modem[k].txn = some ⟨.pass n a cmd data slot, 0, f⟩ ∧ t.hart.passes = rs ∧ t.hart.polls = s.hart.polls ∧
        SameOutside [.hart] s t := by
  have e := exec_hartStart_pass hok ht hp hm hr
  have hf' : reqFrame { s with hart := { s.hart with passes := rs } } (.pass n a cmd data slot) = some f := hf
  rw [startTxn, hf'] at e
  exact ⟨_, e, by rw [modAt_self], rfl, rfl, SameOutside.set_hart ..⟩

theorem completes_hartStart_unknown (hf : reqFrame s (.pass n a cmd data slot) = none) (hc : cmd ≠ 6) :
    Completes (.hartTransactionStart k) s fun t =>
      MbxEnded t slot rcTimeout 0 ∧ t.hart = { s.hart with passes := rs } ∧ SameOutside [.mbx, .hart] s t := by
  have e := exec_hartStart_pass hok ht hp hm hr
  have hf' : reqFrame { s with hart := { s.hart with passes := rs } } (.pass n a cmd data slot) = none := hf
  rw [startTxn, hf', passTimeout, if_neg hc] at e
  refine ⟨_, e, ?_, rfl, SameOutside.step (mbxEnd_moves ..).same rfl ((SameOutside.set_hart ..).widen rfl)⟩
  unfold MbxEnded mbxEnd State.modSlot
  rw [modAt_self]
  exact ⟨rfl, rfl, rfl⟩

end

/-! ## Modems leaving service, and burst frames -/

theorem passTimeout_modem (s : State) (r : HartReq) : (passTimeout s r).hart.modem = s.hart.modem := by
  unfold passTimeout
  split
  · dsimp only
    split
    · unfold readyPoll
      split <;> rfl
    · rfl
  · rfl

theorem hartHalt_modem (s : State) : (hartHalt s).hart.modem = s.hart.modem := by
  have h : ∀ (l : List HartReq) (a : State), (l.foldl passTimeout a).hart.modem = a.hart.modem := fun l => by
    induction l with
    | nil => exact fun _ => rfl
    | cons r l ih => exact fun a => (ih _).trans (passTimeout_modem a r)
  unfold hartHalt
  dsimp only
  rw [(putHarts_moves _).same.hart rfl, h]

theorem completes_hartModemSelftest {s : State} {k : Fin 4} (hr : s.execRuns = true) (hok : s.hart.modem[k].ok = true)
    (ht : s.hart.modem[k].txn = none) :
    Completes (.hartModemSelftest k false) s fun t =>
      t.hart.modem[k].ok = false ∧ (∀ j : Fin 4, j ≠ k → t.hart.modem[j] = s.hart.modem[j]) ∧
      SameOutside [.ev, .mbx, .img, .port, .hart] s t := by
  let s1 : State := { s with hart := { s.hart with modem := setAt s.hart.modem k { s.hart.modem[k] with ok := false } } }
  let s2 := raise s1 srcHart (hartmodWord s1.hart &&& 0xF)
  have e : exec (.hartModemSelftest k false) s = .next (if (List.finRange 4).any fun k => s2.hart.modem[k].ok then s2 else hartHalt s2) :=
    congrArg Host.Outcome.next (if_neg (by rw [ht, hok, hr]; decide))
  have hmod : (if (List.finRange 4).any fun k => s2.hart.modem[k].ok then s2 else hartHalt s2).hart.modem = s1.hart.modem := by
    have h2 : s2.hart.modem = s1.hart.modem := by rw [(raise_moves ..).same.hart rfl]
    split
    · exact h2
    · rw [hartHalt_modem, h2]
  refine ⟨_, e, ?_, fun j hj => ?_, (execHartModemSelftest_ends k false s).same e⟩
  · rw [hmod, setAt_self]
  · rw [hmod, setAt_of_ne _ _ hj]

theorem completes_hartBurst {s : State} {n : Chan} (hr : s.m.run = .running) (hk : s.ch[n].kind = kindAII) (he : hartEn (s.crec n) = true) :
    Completes (.hartBurst n) s fun t => t.loop[n].cntBurst = satInc s.loop[n].cntBurst ∧ SameOutside [.loop] s t := by
  refine ⟨_, congrArg Host.Outcome.next (if_pos (by rw [hr, hk, he]; rfl)), ?_, (State.modLoop_moves ..).same⟩
  rw [State.modLoop_loop, modAt_self]

/-! ## Responses and time-outs -/

theorem modLoop_self (s : State) (n : Chan) (f : ChanLoop → ChanLoop) : (s.modLoop n f).loop[n] = f s.loop[n] := by
  rw [State.modLoop_loop, modAt_self]

theorem modDev_self (s : State) (n : Chan) (a : BitVec 4) (f : HartDev → HartDev) :
    (modDev s n a f).loop[n] = { s.loop[n] with dev := modAt s.loop[n].dev a.toFin f } := modLoop_self ..

theorem completes_hartResponse {s : State} {k : Fin 4} {t0 : HartTxn} {n : Chan} {a : BitVec 4} {due : W64} {f : HartFrame}
    (ht : s.hart.modem[k].txn = some t0) (hq : t0.req = .poll n a due) (hf : f.ok = true) (hc : bitAt f.respCode 7 = false) :
    Completes (.hartResponse k f) s fun t =>
      t.hart.modem[k].txn = none ∧ t.loop[n].dev[a.toFin].vars = hartVars f.data ∧ t.loop[n].dev[a.toFin].fds = f.devStatus ∧
      t.loop[n].dev[a.toFin].lastRead = some s.tick ∧ t.loop[n].lastFds = f.devStatus ∧ t.loop[n].errs = s.loop[n].errs ∧
      SameOutside [.hart, .img, .loop] s t := by
  have e : exec (.hartResponse k f) s = .next (putHartChan (modDev ((modemFree s k).modLoop n fun l => { l with lastFds := f.devStatus }) n a
      fun d => { d with lastRead := some s.tick, vars := hartVars f.data, fds := f.devStatus }) n) := by
    show execHartResponse k f s = _
    unfold execHartResponse
    rw [ht]
    dsimp only
    rw [hq, if_neg (by rw [hf]; decide), if_neg (by rw [hc]; decide)]
    rfl
  have hm := (putHartChan_moves (modDev ((modemFree s k).modLoop n fun l => { l with lastFds := f.devStatus }) n a
      fun d => { d with lastRead := some s.tick, vars := hartVars f.data, fds := f.devStatus }) n).same
  have hl := hm.loop rfl
  refine ⟨_, e, ?_, ?_, ?_, ?_, ?_, ?_, ?_⟩
  · rw [hm.hart rfl]
    show (modemFree s k).hart.modem[k].txn = none
    rw [modemFree, modAt_self]
  · rw [hl, modDev_self, modAt_self]
  · rw [hl, modDev_self, modAt_self]
  · rw [hl, modDev_self, modAt_self]
  · rw [hl, modDev_self, modLoop_self]
  · rw [hl, modDev_self, modLoop_self]
    rfl
  · exact SameOutside.step hm rfl (SameOutside.step (modDev_moves ..).same rfl (SameOutside.step (State.modLoop_moves ..).same rfl
      ((modemFree_moves s k).same.widen rfl)))

/-- A failed attempt with retries left is tried again. -/
theorem hartFail_again {s : State} {k : Fin 4} {t0 : HartTxn} {f : ChanLoop → ChanLoop} (hre : t0.retries ≠ 0)
    (hr : hartRuns s t0.req.chan = true) :
    (hartFail s k t0 f).hart.modem[k].txn = some { t0 with retries := t0.retries - 1 } ∧
    (hartFail s k t0 f).loop[t0.req.chan] = { f s.loop[t0.req.chan] with errs := (f s.loop[t0.req.chan]).errs + 1 } ∧
    SameOutside [.hart, .loop] s (hartFail s k t0 f) := by
  have e : hartFail s k t0 f = _ := if_pos (by rw [decide_eq_true hre, hr]; rfl)
  rw [e]
  refine ⟨by rw [modAt_self], ?_, SameOutside.step (SameOutside.set_hart ..) rfl (SameOutside.step (hartErr_moves ..).same rfl
    ((State.modLoop_moves ..).same.widen rfl))⟩
  show (hartErr (s.modLoop t0.req.chan f) t0.req.chan).loop[t0.req.chan] = _
  rw [hartErr, modLoop_self, modLoop_self]

theorem hartPeriods_dev (s : State) (n : Chan) : (hartPeriods s n).loop[n].dev = s.loop[n].dev := by
  have h : ∀ (c : Prop) [Decidable c] (a : State), (if c then a else putCommands a n).loop[n].dev = a.loop[n].dev := fun c _ a => by
    split
    · rfl
    · exact congrArg (fun v : Vector ChanLoop 16 => v[n].dev) ((putCommands_moves a n).same.loop rfl)
  refine (h _ _).trans ?_
  rw [modLoop_self]
  rfl

/-- A device that was present is absent. -/
theorem hartAbsent_live {s : State} {n : Chan} {a : BitVec 4} (h : s.loop[n].dev[a.toFin].live = true) :
    (hartAbsent s n a).loop[n].dev[a.toFin].live = false := by
  rw [hartAbsent, if_pos h, (raiseMeasure_moves ..).same.loop rfl, hartPeriods_dev, (putHartChan_moves ..).same.loop rfl, modDev_self]
  dsimp only
  rw [modAt_self]
  rfl

theorem exec_hartTimeout {s : State} {k : Fin 4} {t0 : HartTxn} (ht : s.hart.modem[k].txn = some t0) :
    exec (.hartTimeout k) s = .next (hartFail s k t0 fun l => { l with cntTimeout := satInc l.cntTimeout }) := by
  show execHartTimeout k s = _
  rw [execHartTimeout, ht]

theorem completes_hartTimeout_last {s : State} {k : Fin 4} {t0 : HartTxn} {n : Chan} {a : BitVec 4} {due : W64}
    (ht : s.hart.modem[k].txn = some t0) (hq : t0.req = .poll n a due ∨ t0.req = .search n a due) (hre : t0.retries = 0)
    (hl : s.loop[n].dev[a.toFin].live = true) :
    Completes (.hartTimeout k) s fun t =>
      t.hart.modem[k].txn = none ∧ t.loop[n].dev[a.toFin].live = false ∧ SameOutside [.ev, .hart, .img, .loop, .port] s t := by
  have hn : t0.req.chan = n := by rcases hq with hq | hq <;> rw [hq] <;> rfl
  let s1 := modemFree (hartErr (s.modLoop n fun l => { l with cntTimeout := satInc l.cntTimeout }) n) k
  have e : exec (.hartTimeout k) s = .next (hartAbsent s1 n a) := by
    rw [exec_hartTimeout ht, hartFail, hn]
    dsimp only
    rw [if_neg (by rw [hre]; simp)]
    unfold hartEnd
    rcases hq with hq | hq <;> rw [hq]
  have hl1 : s1.loop[n].dev[a.toFin].live = true := by
    show (hartErr (s.modLoop n _) n).loop[n].dev[a.toFin].live = true
    rw [hartErr, modLoop_self, modLoop_self]
    exact hl
  have hs1 : SameOutside [.hart, .loop] s s1 := SameOutside.step (modemFree_moves ..).same rfl (SameOutside.step (hartErr_moves ..).same rfl
    ((State.modLoop_moves ..).same.widen rfl))
  refine ⟨_, e, ?_, hartAbsent_live hl1, SameOutside.step (hartAbsent_moves ..).same rfl (hs1.widen rfl)⟩
  rw [(hartAbsent_moves ..).same.hart rfl]
  exact congrArg Modem.txn (modAt_self ..)

theorem completes_hartResponse_bad {s : State} {k : Fin 4} {t0 : HartTxn} {f : HartFrame} (ht : s.hart.modem[k].txn = some t0)
    (hf : f.ok = false) (hre : t0.retries ≠ 0) (hr : hartRuns s t0.req.chan = true) :
    Completes (.hartResponse k f) s fun t =>
      t.hart.modem[k].txn = some { t0 with retries := t0.retries - 1 } ∧
      t.loop[t0.req.chan].cntCheck = satInc s.loop[t0.req.chan].cntCheck ∧
      t.loop[t0.req.chan].errs = s.loop[t0.req.chan].errs + 1 ∧ SameOutside [.hart, .loop] s t := by
  have e : exec (.hartResponse k f) s = .next (hartFail s k t0 fun l => { l with cntCheck := satInc l.cntCheck }) := by
    show execHartResponse k f s = _
    unfold execHartResponse
    rw [ht]
    dsimp only
    rw [if_pos (by rw [hf]; decide)]
  obtain ⟨h1, h2, h3⟩ := hartFail_again (s := s) (k := k) (f := fun l => { l with cntCheck := satInc l.cntCheck }) hre hr
  exact ⟨_, e, h1, by rw [h2], by rw [h2], h3⟩

theorem completes_hartTimeout {s : State} {k : Fin 4} {t0 : HartTxn} (ht : s.hart.modem[k].txn = some t0) (hre : t0.retries ≠ 0)
    (hr : hartRuns s t0.req.chan = true) :
    Completes (.hartTimeout k) s fun t =>
      t.hart.modem[k].txn = some { t0 with retries := t0.retries - 1 } ∧
      t.loop[t0.req.chan].cntTimeout = satInc s.loop[t0.req.chan].cntTimeout ∧
      t.loop[t0.req.chan].errs = s.loop[t0.req.chan].errs + 1 ∧ SameOutside [.hart, .loop] s t := by
  obtain ⟨h1, h2, h3⟩ := hartFail_again (s := s) (k := k) (f := fun l => { l with cntTimeout := satInc l.cntTimeout }) hre hr
  exact ⟨_, exec_hartTimeout ht, h1, by rw [h2], by rw [h2], h3⟩

/-- Settles O26: a failed attempt is tried again or ends; the end of a poll is the device's absence. -/
theorem hartTransactions : Obligations.HartTransactions := by
  refine ⟨fun s => ⟨fun _ _ hr hm hq => ⟨completes_hartPollDue hr hm hq, completes_hartSearch hr hm hq⟩, ?_,
    fun _ => completes_hartModemSelftest, fun _ => completes_hartBurst⟩, fun s k t0 ht => ⟨fun _ _ _ _ => completes_hartResponse ht,
    fun _ => completes_hartResponse_bad ht, completes_hartTimeout ht, fun _ _ _ => completes_hartTimeout_last ht⟩⟩
  rintro k _ rs n a cmd data slot hok ht hp rfl hm hr
  exact ⟨fun _ hf => completes_hartStart hok ht hp hm hr hf, completes_hartStart_unknown hok ht hp hm hr⟩

end Sys2Proof.Machine
end

section
/-! TIME records sent downstream, updates and sweeps sent upstream (10 R273; 13 R357, R367; 11 R299, R305, R306). -/
namespace Sys2Proof.Machine

/-! ## One port at a time -/

theorem modPort_self (s : State) (k : PortIx) (f : Port → Port) : (s.modPort k f).port[k] = f s.port[k] := by rw [State.modPort_port, modAt_self]

theorem modPort_others (s : State) {k j : PortIx} (f : Port → Port) (h : j ≠ k) : (s.modPort k f).port[j] = s.port[j] := modAt_of_ne _ _ h

/-- A fold over ports of a step that changes its own port only: port `k` is as the step at `k` leaves it. -/
theorem foldl_ports {f : State → PortIx → State} (hs : ∀ a x, SameOutside [.port] a (f a x))
    (hf : ∀ a x, ∀ y : PortIx, y ≠ x → (f a x).port[y] = a.port[y]) (l : List PortIx) (hl : l.Nodup) {k : PortIx} (hk : k ∈ l) (s : State) :
    ∃ a : State, SameOutside [.port] s a ∧ a.port[k] = s.port[k] ∧ (l.foldl f s).port[k] = (f a k).port[k] := by
  have hrest : ∀ (l : List PortIx) (a : State), k ∉ l → (l.foldl f a).port[k] = a.port[k] := fun l => by
    induction l with
    | nil => exact fun _ _ => rfl
    | cons x l ih =>
      intro a hn
      rw [List.mem_cons, not_or] at hn
      exact (ih _ hn.2).trans (hf a x k hn.1)
  induction l generalizing s with
  | nil => cases hk
  | cons x l ih =>
    rw [List.nodup_cons] at hl
    by_cases hx : k = x
    · subst hx
      exact ⟨s, SameOutside.refl s, rfl, hrest l _ hl.1⟩
    · obtain ⟨a, h1, h2, h3⟩ := ih hl.2 ((List.mem_cons.mp hk).resolve_left hx) (f s x)
      exact ⟨a, SameOutside.step h1 rfl (hs s x), h2.trans (hf s x k hx), h3⟩

theorem clearOut_port (s : State) (k : PortIx) : (clearOut s).port[k] = { s.port[k] with out := [] } := Vector.getElem_map ..

/-! ## TIME records -/

/-- The TIME frame that waits for its turn on a port. -/
def timeFrame (s : State) (w : WheelIx) (fTx : Byte) : TxFrame := { msg := .time 0 (timeRecord s w fTx), since := s.tick }

theorem timeRecord_same {s a : State} (h : SameOutside [.port] s a) (w : WheelIx) (fTx : Byte) : timeRecord a w fTx = timeRecord s w fTx := by
  have ht : a.tide = s.tide := by
    funext w
    rw [State.tide, h.boot rfl, State.tide]
  unfold timeRecord
  rw [h.wheel rfl, h.time rfl, h.tick rfl, ht]

theorem sendOn_time (s : State) (k : PortIx) (w : WheelIx) (fTx : Byte) :
    (sendOn s k (timeFrame s w fTx)).port[k] =
      { s.port[k] with rsp := { s.port[k].rsp with waiting := s.port[k].rsp.waiting ++ [timeFrame s w fTx] } } := modPort_self ..

theorem sendOn_others (s : State) {k j : PortIx} (f : TxFrame) (h : j ≠ k) : (sendOn s k f).port[j] = s.port[j] := modPort_others s _ h

theorem sendClass_others {s t : State} {k j : PortIx} {c : LinkClass} (h : j ≠ k) (ht : sendClass s k c = some t) : t.port[j] = s.port[j] := by
  unfold sendClass at ht
  dsimp only at ht
  split at ht
  · split at ht
    · cases ht
      exact modPort_others s _ h
    · cases ht
  · obtain ⟨x, -, rfl⟩ := Option.map_eq_some_iff.mp ht
    exact modPort_others s _ h

/-- A TIME record of an upstream wheel on a downstream port that is UP. -/
theorem timeOn_up {s : State} {w : WheelIx} {fTx : Byte} {k : PortIx} (hr : s.role k = 2) (hu : s.port[k].state = .up) :
    timeOn s w fTx k = if s.port[k].rsp.waiting.isEmpty
      then (sendClass (sendOn s k (timeFrame s w fTx)) k .response).getD (sendOn s k (timeFrame s w fTx))
      else sendOn s k (timeFrame s w fTx) := if_pos (by rw [decide_eq_true hr, decide_eq_true hu]; rfl)

theorem timeOn_down {s : State} {w : WheelIx} {fTx : Byte} {k : PortIx} (h : s.role k ≠ 2 ∨ s.port[k].state ≠ .up) : timeOn s w fTx k = s :=
  if_neg (by rcases h with h | h <;> simp only [h, decide_false, Bool.false_and, Bool.and_false, Bool.false_eq_true, not_false_eq_true])

theorem timeOn_others (s : State) (w : WheelIx) (fTx : Byte) {k j : PortIx} (h : j ≠ k) : (timeOn s w fTx k).port[j] = s.port[j] := by
  by_cases hc : s.role k = 2 ∧ s.port[k].state = .up
  · have h1 := sendOn_others s (timeFrame s w fTx) h
    rw [timeOn_up hc.1 hc.2]
    split
    · cases hs : sendClass (sendOn s k (timeFrame s w fTx)) k .response with
      | none => exact h1
      | some t => exact (sendClass_others h hs).trans h1
    · exact h1
  · rw [timeOn_down (by rwa [not_and_or] at hc)]

/-- The frame at the head of a class but the requests' goes next, once no retransmission waits and its credits are there. -/
theorem nextOf_head {s : State} {k : PortIx} {c : LinkClass} {f : TxFrame} {fs : List TxFrame} (hc : c ≠ .request) (ha : NoneAgain s k c)
    (hw : (s.port[k].cls c).waiting = f :: fs) (hu : txUnits f ≤ (s.port[k].cls c).credits) : nextOf s k c = some (0, f) := by
  have hb : ((s.port[k].cls c).unacked.any (·.again)) = false := ha
  cases c with
  | request => exact absurd rfl hc
  | response | urgent =>
    unfold nextOf
    rw [if_neg (by rw [hb]; decide), hw]
    exact if_pos hu

/-- A TIME record with nothing of its class before it leaves at once, behind its MARK. -/
theorem timeOn_leaves {s : State} {w : WheelIx} {fTx : Byte} {k : PortIx} (hr : s.role k = 2) (hu : s.port[k].state = .up)
    (hw : s.port[k].rsp.waiting = []) (ha : s.port[k].rsp.unacked.any (·.again) = false)
    (hc : txUnits (timeFrame s w fTx) ≤ s.port[k].rsp.credits) :
    timeOn s w fTx k = sendOf (sendOn s k (timeFrame s w fTx)) k .response 0 (timeFrame s w fTx) := by
  have hf : s.port[k].rsp.unacked.find? (·.again) = none := by
    rw [List.find?_eq_none]
    exact fun x hx h => absurd (List.any_eq_true.mpr ⟨x, hx, h⟩) (by rw [ha]; decide)
  have hn : nextOf (sendOn s k (timeFrame s w fTx)) k .response = some (0, timeFrame s w fTx) := by
    refine nextOf_head (by decide) ?_ (fs := []) ?_ ?_
    · show (sendOn s k (timeFrame s w fTx)).port[k].rsp.unacked.any (·.again) = false
      rw [sendOn_time]
      exact ha
    · show (sendOn s k (timeFrame s w fTx)).port[k].rsp.waiting = _
      rw [sendOn_time, hw]
      rfl
    · show _ ≤ (sendOn s k (timeFrame s w fTx)).port[k].rsp.credits
      rw [sendOn_time]
      exact hc
  have hs : sendClass (sendOn s k (timeFrame s w fTx)) k .response = some (sendOf (sendOn s k (timeFrame s w fTx)) k .response 0 (timeFrame s w fTx)) := by
    unfold sendClass
    dsimp only [Port.cls]
    rw [sendOn_time]
    dsimp only
    rw [hf, hn]
    rfl
  rw [timeOn_up hr hu, hw, if_pos (by rfl), hs]
  rfl

/-- A frame as it leaves a port. -/
def leaving (s : State) (k : PortIx) (c : LinkClass) (f : TxFrame) : TxFrame :=
  { f with msg := (departing s k f.msg).1, fseq := (s.port[k].cls c).txSeq, sends := 1, budget := BitVec.ofNat 16 (budgetNow s k f) }

/-- A frame sent: it joins those of its class that are not acknowledged, and is what the port put on the line. -/
theorem sendOf_port (s : State) (k : PortIx) (c : LinkClass) (i : Nat) (f : TxFrame) :
    (sendOf s k c i f).port[k].cls c = { s.port[k].cls c with
      txSeq := (s.port[k].cls c).txSeq + 1, waiting := (s.port[k].cls c).waiting.eraseIdx i,
      unacked := (s.port[k].cls c).unacked ++ [leaving s k c f], credits := (s.port[k].cls c).credits - txUnits f } ∧
    (sendOf s k c i f).port[k].out = (departing s k f.msg).2 ++ [sent (s.linkCfg k).peerId (leaving s k c f)] ∧
    (sendOf s k c i f).port[k].markSeq = if (departing s k f.msg).2.isEmpty then s.port[k].markSeq else s.port[k].markSeq + 1 := by
  rw [sendOf, modPort_self]
  cases c <;> exact ⟨rfl, rfl, rfl⟩

theorem completes_timeSend {s : State} {w : WheelIx} {fTx : Byte} (hst : started s.wheel[w] = true) (hr : s.execRuns = true) :
    Completes (.timeSend w fTx) s fun t =>
      (∀ (k : PortIx) (f : TxFrame), s.role k = 2 → s.port[k].state = .up → f = { msg := .time 0 (timeRecord s w fTx), since := s.tick } →
        f.msg.cls = .response ∧
        (s.port[k].rsp.waiting = [] → s.port[k].rsp.unacked.any (·.again) = false → txUnits f ≤ s.port[k].rsp.credits →
          t.port[k].markSeq = s.port[k].markSeq + 1 ∧ t.port[k].rsp.waiting = [] ∧
          ∃ (g : TxFrame) (r : TimeRecord), t.port[k].rsp.unacked = s.port[k].rsp.unacked ++ [g] ∧ g.msg = .time s.port[k].markSeq r ∧
            g.fseq = s.port[k].rsp.txSeq ∧
            t.port[k].out = [.mark (markBytes 2 (s.port[k].markSeq.setWidth 24)), sent (s.linkCfg k).peerId g] ∧
            r.wheel = w ∧ r.aUp = s.wheel[w].acc ∧ r.incUp = s.wheel[w].inc ∧ r.wheelState = s.wheel[w].state.code ∧
            r.periodUs = (s.tide w).periodUs ∧ r.fTx = fTx) ∧
        (s.port[k].rsp.waiting ≠ [] →
          t.port[k].rsp.waiting = s.port[k].rsp.waiting ++ [f] ∧ t.port[k].markSeq = s.port[k].markSeq ∧ t.port[k].out = [])) ∧
      (∀ k : PortIx, (s.role k ≠ 2 ∨ s.port[k].state ≠ .up) → t.port[k] = { s.port[k] with out := [] }) ∧ SameOutside [.port] s t := by
  have e : exec (.timeSend w fTx) s = .next ((List.finRange 4).foldl (fun a k => timeOn a w fTx k) (clearOut s)) :=
    congrArg Host.Outcome.next (if_neg (by rw [hst, hr]; decide))
  have hport : ∀ k : PortIx, ∃ a : State, SameOutside [.port] s a ∧ a.port[k] = { s.port[k] with out := [] } ∧
      ((List.finRange 4).foldl (fun a k => timeOn a w fTx k) (clearOut s)).port[k] = (timeOn a w fTx k).port[k] := fun k => by
    obtain ⟨a, h1, h2, h3⟩ := foldl_ports (f := fun a k => timeOn a w fTx k) (fun a x => (timeOn_moves a w fTx x).same)
      (fun a x y h => timeOn_others a w fTx h) (List.finRange 4) (List.nodup_finRange 4) (List.mem_finRange k) (clearOut s)
    exact ⟨a, SameOutside.step h1 rfl (clearOut_moves s).same, h2.trans (clearOut_port s k), h3⟩
  refine ⟨_, e, fun k f hrole hup hf => ⟨by rw [hf]; rfl, fun hw ha hc => ?_, fun hw => ?_⟩, fun k hk => ?_,
      (execTimeSend_ends w fTx s).same e⟩
  all_goals obtain ⟨a, hs, hp, hfold⟩ := hport k
  all_goals rw [hfold]
  · have hra : a.role k = 2 := by rw [State.role, State.linkCfg, hs.boot rfl]; exact hrole
    have htf : timeFrame a w fTx = f := by rw [hf, timeFrame, timeRecord_same hs, hs.tick rfl]
    rw [timeOn_leaves hra (by rw [hp]; exact hup) (by rw [hp]; exact hw) (by rw [hp]; exact ha) (by rw [hp, htf]; exact hc)]
    obtain ⟨h1, h2, h3⟩ := sendOf_port (sendOn a k (timeFrame a w fTx)) k .response 0 (timeFrame a w fTx)
    have hq : (sendOn a k (timeFrame a w fTx)).port[k] =
        { s.port[k] with out := [], rsp := { s.port[k].rsp with waiting := [timeFrame a w fTx] } } := by
      rw [sendOn_time, hp, hw]
      rfl
    have hrec : timeRecord (sendOn a k (timeFrame a w fTx)) w fTx = timeRecord s w fTx :=
      (timeRecord_same (sendOn_moves ..).same w fTx).trans (timeRecord_same hs w fTx)
    have hdep : departing (sendOn a k (timeFrame a w fTx)) k (timeFrame a w fTx).msg =
        (.time s.port[k].markSeq (timeRecord s w fTx), [.mark (markBytes 2 (s.port[k].markSeq.setWidth 24))]) := by
      show (LinkMsg.time (sendOn a k (timeFrame a w fTx)).port[k].markSeq (timeRecord (sendOn a k (timeFrame a w fTx)) w fTx), _) = _
      rw [hrec, hq]
    have hlink : (sendOn a k (timeFrame a w fTx)).linkCfg k = s.linkCfg k := by
      rw [State.linkCfg, (sendOn_moves ..).same.boot rfl, hs.boot rfl, State.linkCfg]
    rw [hdep, hlink] at h2
    rw [hdep, hq] at h3
    have hrsp := congrArg PortClass.waiting h1
    have hun := congrArg PortClass.unacked h1
    rw [hq] at hrsp hun
    refine ⟨h3, hrsp, _, timeRecord s w fTx, hun, congrArg Prod.fst hdep, ?_, h2, rfl, rfl, rfl, rfl, rfl, rfl⟩
    show ((sendOn a k (timeFrame a w fTx)).port[k].cls .response).txSeq = _
    rw [hq]
    rfl
  · have hra : a.role k = 2 := by rw [State.role, State.linkCfg, hs.boot rfl]; exact hrole
    have htf : timeFrame a w fTx = f := by rw [hf, timeFrame, timeRecord_same hs, hs.tick rfl]
    rw [timeOn_up hra (by rw [hp]; exact hup), if_neg (by rw [hp]; simpa using hw), sendOn_time, hp, htf]
    exact ⟨rfl, rfl, rfl⟩
  · rw [timeOn_down (by rw [State.role, State.linkCfg, hs.boot rfl, hp]; exact hk), hp]

/-! ## Updates and sweeps -/

/-- A request of this device put on a port: it waits there under the next tag. -/
theorem sendRequest_port {s : State} {k : PortIx} {msg : LinkMsg} (kind : RequestKind) (budget : W16) (since : W64) (hm : msg.cls = .request) :
    (sendRequest s k msg kind budget since).port[k].req.waiting =
      s.port[k].req.waiting ++ [{ msg := msg, tag := s.port[k].nextTag, budget := budget, since := since }] := by
  show (s.modPort k _).port[k].req.waiting = _
  rw [modPort_self, portQueue]
  dsimp only
  rw [hm]

theorem sendRequest_others (s : State) {k j : PortIx} (msg : LinkMsg) (kind : RequestKind) (budget : W16) (since : W64) (h : j ≠ k) :
    (sendRequest s k msg kind budget since).port[j] = s.port[j] := modPort_others s _ h

theorem sendRequest_img (s : State) (k : PortIx) (msg : LinkMsg) (kind : RequestKind) (budget : W16) (since : W64) :
    (sendRequest s k msg kind budget since).img = { s.img with out := (sendRequest s k msg kind budget since).img.out, nextId := s.img.nextId + 1 } :=
  rfl

theorem fenceWordsSent_img (s : State) (id : Nat) (ws : List (BitVec 20)) :
    (fenceWordsSent s id ws).img.changes = s.img.changes ∧ (fenceWordsSent s id ws).img.words = s.img.words ∧
    (fenceWordsSent s id ws).img.copies = s.img.copies := ⟨rfl, rfl, rfl⟩

theorem completes_updateSend {s : State} {k : PortIx} (hk : s.upPort = some k) (hr : s.execRuns = true) {as : List (BitVec 20)}
    (has : as = (s.img.changes.filter (sendable s)).take 30) (hne : as ≠ []) :
    Completes .updateSend s fun t =>
      t.port[k].req.waiting = s.port[k].req.waiting ++
        [{ msg := .update false (as.map fun a => (a, s.ep a)), tag := s.port[k].nextTag, budget := fullBudget, since := s.tick }] ∧
      t.img.changes = s.img.changes.filter (fun a => !as.contains a) ∧ t.img.words = s.img.words ∧ t.img.copies = s.img.copies ∧
      (∀ j : PortIx, j ≠ k → t.port[j] = s.port[j]) ∧ SameOutside [.img, .port] s t := by
  subst has
  have e : exec .updateSend s = .next (sendUpdate s k ((s.img.changes.filter (sendable s)).take 30)) := by
    show execUpdateSend s = _
    unfold execUpdateSend
    rw [hk]
    refine congrArg Host.Outcome.next (if_neg ?_)
    rw [hr, List.isEmpty_eq_false_iff.mpr hne]
    decide
  refine ⟨_, e, ?_, rfl, rfl, rfl, fun j hj => ?_, (sendUpdate_moves ..).same⟩
  · show (fenceWordsSent _ _ _).port[k].req.waiting = _
    rw [(fenceWordsSent_moves ..).same.port rfl]
    exact sendRequest_port _ _ _ rfl
  · show (fenceWordsSent _ _ _).port[j] = _
    rw [(fenceWordsSent_moves ..).same.port rfl]
    exact sendRequest_others _ _ _ _ _ hj

/-- One frame of a sweep. -/
def sweepFrame (k : PortIx) (a : State) (ws : List (BitVec 20)) : State :=
  sendRequest a k (.update true (ws.map fun x => (x, a.ep x))) (.update true ws) fullBudget a.tick

theorem foldl_sweepFrame (k : PortIx) (l : List (List (BitVec 20))) (s : State) :
    (∃ fs, (l.foldl (sweepFrame k) s).port[k].req.waiting = s.port[k].req.waiting ++ fs ∧ fs.length = l.length) ∧
    (∀ j : PortIx, j ≠ k → (l.foldl (sweepFrame k) s).port[j] = s.port[j]) ∧
    (l.foldl (sweepFrame k) s).img.words = s.img.words ∧ (l.foldl (sweepFrame k) s).img.copies = s.img.copies ∧
    (l.foldl (sweepFrame k) s).img.sweepAt = s.img.sweepAt := by
  induction l generalizing s with
  | nil => exact ⟨⟨[], (List.append_nil _).symm, rfl⟩, fun _ _ => rfl, rfl, rfl, rfl⟩
  | cons ws l ih =>
    obtain ⟨⟨fs, h1, h2⟩, h3, h4, h5, h6⟩ := ih (sweepFrame k s ws)
    have hw : (sweepFrame k s ws).port[k].req.waiting = s.port[k].req.waiting ++ [_] := sendRequest_port (msg := .update true _) _ _ _ rfl
    rw [hw, List.append_assoc] at h1
    exact ⟨⟨_, h1, by rw [List.singleton_append, List.length_cons, h2, List.length_cons]⟩,
      fun j hj => (h3 j hj).trans (sendRequest_others _ _ _ _ _ hj), h4, h5, h6⟩

theorem completes_sweepSend {s : State} {k : PortIx} (hk : s.upPort = some k) (hr : s.execRuns = true) (hf : s.img.sweepForward = []) :
    Completes .sweepSend s fun t =>
      t.img.sweepAt = (s.img.sweepAt + 64) % 4096 ∧
      (∃ fs, t.port[k].req.waiting = s.port[k].req.waiting ++ fs ∧ fs.length = 3) ∧
      t.img.words = s.img.words ∧ t.img.copies = s.img.copies ∧ (∀ j : PortIx, j ≠ k → t.port[j] = s.port[j]) ∧
      SameOutside [.img, .port] s t := by
  let as := (List.range 64).map fun i => s.lo ((s.img.sweepAt + i) % 4096)
  let s1 : State := { s with img := { s.img with sweepAt := (s.img.sweepAt + 64) % 4096, sweepForward := [] } }
  have e : exec .sweepSend s = .next ((chunks 30 64 as).foldl (sweepFrame k) s1) := by
    show execSweepSend s = _
    unfold execSweepSend
    rw [hk]
    dsimp only
    rw [if_neg (by rw [hr]; decide), hf, List.append_nil, List.length_map, List.length_range]
    rfl
  have hlen : (chunks 30 64 as).length = 3 := rfl
  obtain ⟨⟨fs, h1, h2⟩, h3, h4, h5, h6⟩ := foldl_sweepFrame k (chunks 30 64 as) s1
  exact ⟨_, e, h6, ⟨fs, h1, h2.trans hlen⟩, h4, h5, h3, (execSweepSend_ends s).same e⟩

/-- Settles O27: the TIME record joins its port's queue behind its MARK; updates and sweeps are folds of `sendRequest`. -/
theorem timeUpdatesAndSweepsSent : Obligations.TimeUpdatesAndSweepsSent :=
  ⟨fun _ _ _ => completes_timeSend, fun _ _ hk hr => ⟨fun _ => completes_updateSend hk hr, completes_sweepSend hk hr⟩⟩

end Sys2Proof.Machine
end

section
/-! Boundaries of a mode without rule cycles, and entries gone stale (11 R299, R305, R306). -/
namespace Sys2Proof.Machine

/-! ## What waits for a boundary -/

theorem raiseOverflow_waiting (s : State) (x : SrcIx) : (raiseOverflow s).ev.src[x].waiting = s.ev.src[x].waiting := by
  by_cases hx : x = 107
  · subst hx
    unfold raiseOverflow
    dsimp only
    obtain ⟨d, hd⟩ := linkRecord_ev _ _ 107
    rw [hd]
    simp only [ringPut, logPut_src, State.modSrc_ev]
    rw [modAt_self]
  · rw [(raiseOverflow_ev s).2.2.2 x hx]

theorem enqueue_waiting (s : State) (q : QueueEntry) (x : SrcIx) : (enqueue s q).ev.src[x].waiting = s.ev.src[x].waiting := by
  unfold enqueue
  split
  · rfl
  · dsimp only
    split
    · exact raiseOverflow_waiting _ x
    · rfl

/-- A source flushed has nothing waiting, and no other is touched. -/
theorem flushSource_waiting (s : State) (i x : SrcIx) :
    (flushSource s i).ev.src[x].waiting = if x = i then none else s.ev.src[x].waiting := by
  unfold flushSource
  split
  next p hp =>
    dsimp only
    obtain ⟨d, hd⟩ := linkRecord_ev (enqueue (s.modSrc i fun x => { x with waiting := none }) (mkEntry s i p.multi p.count p.tick p.detail))
      (mkEntry s i p.multi p.count p.tick p.detail) i
    rw [hd]
    dsimp only
    rw [enqueue_waiting, State.modSrc_ev]
    dsimp only
    rw [modAt_get]
    split
    · rfl
    · rfl
  next hn =>
    split
    next h => exact h ▸ hn
    · rfl

theorem flushNormal_waiting (s : State) (x : SrcIx) : (flushNormal s).ev.src[x].waiting = none := by
  have h : ∀ (l : List SrcIx) (a : State), (l.foldl flushSource a).ev.src[x].waiting = if x ∈ l then none else a.ev.src[x].waiting := fun l => by
    induction l with
    | nil => exact fun _ => rfl
    | cons i l ih =>
      intro a
      rw [List.foldl_cons, ih, flushSource_waiting]
      by_cases h1 : x ∈ l <;> by_cases h2 : x = i <;> simp [h1, h2]
  unfold flushNormal
  rw [h, if_pos (List.mem_finRange x)]

theorem completes_endpointRecompute {s : State} (hr : s.execRuns = true) (hc : s.ruleRunning = false) :
    Completes .endpointRecompute s fun t =>
      (∀ i : SrcIx, t.ev.src[i].waiting = none) ∧ SameOutside [.free, .m, .bw, .ch, .ev, .mbx, .img, .port, .loop, .gov, .enrol] s t := by
  have e : exec .endpointRecompute s = .next (flushNormal (mapPending (restartPending (recompute (settleMode s))))) :=
    congrArg Host.Outcome.next (if_neg (by rw [hr, hc]; decide))
  exact ⟨_, e, flushNormal_waiting _, (execEndpointRecompute_ends s).same e⟩

/-! ## A quality put over a copy -/

theorem withQual_fields (q : BitVec 4) (w : W32) :
    epQual (withQual q w) = q ∧ epValue (withQual q w) = epValue w ∧ epSeq (withQual q w) = epSeq w := by
  refine ⟨?_, ?_, ?_⟩
  all_goals
    ext i hi
    interval_cases i <;> simp [epQual, epValue, epSeq, field, withQual, put]

/-- The copies of an entry's subtree, each with the quality put over it. -/
theorem sread_override {m : List (Nat × W32)} (h : swf epNoComm m = true) (q : BitVec 4) (base n b : Nat) :
    swf epNoComm ((List.range n).foldl (fun m i => swrite epNoComm m (base + i) (withQual q (sread epNoComm m (base + i)))) m) = true ∧
    sread epNoComm ((List.range n).foldl (fun m i => swrite epNoComm m (base + i) (withQual q (sread epNoComm m (base + i)))) m) b =
      if base ≤ b ∧ b < base + n then withQual q (sread epNoComm m b) else sread epNoComm m b := by
  induction n generalizing b with
  | zero => exact ⟨h, by rw [if_neg (by omega)]; rfl⟩
  | succ n ih =>
    rw [List.range_succ, List.foldl_append]
    simp only [List.foldl_cons, List.foldl_nil]
    generalize hm : (List.range n).foldl _ m = m1 at ih ⊢
    refine ⟨swf_swrite (ih 0).1 _ _, ?_⟩
    rw [sread_swrite (ih 0).1]
    by_cases hb : b = base + n
    · rw [if_pos hb, (ih (base + n)).2, if_neg (by omega), if_pos (by omega), hb]
    · rw [if_neg hb, (ih b).2]
      by_cases hin : base ≤ b ∧ b < base + n
      · rw [if_pos hin, if_pos (by omega)]
      · rw [if_neg hin, if_neg (by omega)]

/-- A word of an entry's subtree joins the changes when its quality changes. -/
def overrideNoted (s : State) (e : GroupEntry) (q : BitVec 4) (a : State) (i : Nat) : State :=
  if epQual (s.ep (e.subBase + BitVec.ofNat 20 i)) = q then a else noteChange a (e.subBase + BitVec.ofNat 20 i)

theorem overrideCopies_words (s : State) (e : GroupEntry) (q : BitVec 4) :
    (overrideCopies s e q).img.words = s.img.words ∧ (overrideCopies s e q).img.staleEnt = s.img.staleEnt ∧
    (overrideCopies s e q).img.entry = s.img.entry := by
  have hn : ∀ (a : State) (x : BitVec 20), (noteChange a x).img.words = a.img.words ∧ (noteChange a x).img.staleEnt = a.img.staleEnt ∧
      (noteChange a x).img.entry = a.img.entry := fun a x => by
    unfold noteChange
    split <;> exact ⟨rfl, rfl, rfl⟩
  have hf : ∀ (l : List Nat) (a : State), (l.foldl (overrideNoted s e q) a).img.words = a.img.words ∧
      (l.foldl (overrideNoted s e q) a).img.staleEnt = a.img.staleEnt ∧ (l.foldl (overrideNoted s e q) a).img.entry = a.img.entry := fun l => by
    induction l with
    | nil => exact fun _ => ⟨rfl, rfl, rfl⟩
    | cons i l ih =>
      intro a
      obtain ⟨h1, h2, h3⟩ := ih (overrideNoted s e q a i)
      rw [List.foldl_cons, h1, h2, h3]
      unfold overrideNoted
      split
      · exact ⟨rfl, rfl, rfl⟩
      · exact hn a _
  exact hf _ s

theorem overrideCopies_copies (s : State) (e : GroupEntry) (q : BitVec 4) :
    (overrideCopies s e q).img.copies = (List.range (2 ^ e.subLog2.toNat)).foldl (fun m i =>
      swrite epNoComm m (e.subBase.toNat + i) (withQual q (sread epNoComm m (e.subBase.toNat + i)))) s.img.copies := rfl

theorem completes_entryStale {s : State} {j : Fin 256} {e : GroupEntry} (hr : s.execRuns = true) (he : s.group.entries[j.val]? = some e)
    (hu : s.port[e.port].state = .up) (h1 : s.img.entry[j].state = 1) (hd : secTicks 150 ≤ s.since s.img.entry[j].heard) (hs : Sound s) :
    Completes (.entryStale j) s fun t =>
      t.img.entry[j].state = 3 ∧ t.img.entry[j].losses = satInc s.img.entry[j].losses ∧ t.img.staleEnt = satInc s.img.staleEnt ∧
      (∀ a, inEntry e a = true → s.isLocal a = false →
        epQual (t.ep a) = qStale ∧ epValue (t.ep a) = epValue (s.ep a) ∧ epSeq (t.ep a) = epSeq (s.ep a)) ∧
      t.img.words = s.img.words ∧ SameOutside [.ev, .img, .port] s t := by
  let s1 := modEntry (overrideCopies s e qStale) j fun x => { x with state := 3, losses := satInc x.losses }
  have e' : exec (.entryStale j) s = .next (raiseMember { s1 with img := { s1.img with staleEnt := satInc s1.img.staleEnt } } j) := by
    show execEntryStale j s = _
    unfold execEntryStale
    rw [he]
    exact congrArg Host.Outcome.next (if_pos (by rw [hr, hu, h1, decide_eq_true hd]; rfl))
  have hsame := (execEntryStale_ends j s).same e'
  have himg := (raiseMember_moves { s1 with img := { s1.img with staleEnt := satInc s1.img.staleEnt } } j).same.img rfl
  obtain ⟨hw, hst, hent⟩ := overrideCopies_words s e qStale
  have hentry : s1.img.entry[j] = { s.img.entry[j] with state := 3, losses := satInc s.img.entry[j].losses } := by
    show (modAt (overrideCopies s e qStale).img.entry j _)[j] = _
    rw [modAt_self, hent]
  have hcopies : s1.img.copies = (overrideCopies s e qStale).img.copies := rfl
  obtain ⟨⟨-, hcanon, -⟩, -⟩ := hs .img
  refine ⟨_, e', by rw [himg]; exact congrArg EntryState.state hentry, by rw [himg]; exact congrArg EntryState.losses hentry,
    by rw [himg]; exact congrArg satInc hst, fun a ha hl => ?_, by rw [himg]; exact hw, hsame⟩
  have hep : (raiseMember { s1 with img := { s1.img with staleEnt := satInc s1.img.staleEnt } } j).ep a = withQual qStale (s.ep a) := by
    unfold inEntry at ha
    rw [Bool.and_eq_true, decide_eq_true_eq, decide_eq_true_eq] at ha
    rw [State.ep, State.isLocal, State.localBase, State.group, hsame.boot rfl]
    have hl' : (decide (s.localBase.toNat ≤ a.toNat) && decide (a.toNat < s.localBase.toNat + 4096)) = false := hl
    show (if (decide (s.localBase.toNat ≤ a.toNat) && decide (a.toNat < s.localBase.toNat + 4096)) = true then _ else _) = _
    rw [hl', if_neg Bool.false_ne_true, himg]
    show sread epNoComm s1.img.copies a.toNat = _
    rw [hcopies, overrideCopies_copies, (sread_override hcanon qStale e.subBase.toNat _ a.toNat).2, if_pos ha, State.ep, hl,
      if_neg Bool.false_ne_true]
  rw [hep]
  exact withQual_fields qStale (s.ep a)

/-- Settles O28: a boundary is one pass over the entries; a stale entry keeps its copies' values under another quality. -/
theorem boundariesAndStaleEntries : Obligations.BoundariesAndStaleEntries :=
  fun _ hr => ⟨completes_endpointRecompute hr, fun _ _ => completes_entryStale hr⟩

end Sys2Proof.Machine
end

section
/-! A fence completes, and a pending generation is applied (11 R311–R313, 02 R52–R54, 15 R422). -/
namespace Sys2Proof.Machine

/-! ## What storing endpoints leaves of the image -/

/-- Only the words of the image, the copies of others' words, and the changes to be sent differ. -/
def ImgShown (s t : State) : Prop := t.img = { s.img with words := t.img.words, copies := t.img.copies, changes := t.img.changes }

theorem ImgShown.of_eq {s t : State} (h : t.img = s.img) : ImgShown s t := by rw [ImgShown, h]

theorem ImgShown.trans {s t u : State} (h1 : ImgShown s t) (h2 : ImgShown t u) : ImgShown s u := by
  unfold ImgShown at h1 h2 ⊢
  rw [h2, h1]

theorem ImgShown.ite {s t u : State} {c : Prop} [Decidable c] (h1 : ImgShown s t) (h2 : ImgShown s u) : ImgShown s (if c then t else u) := by
  split
  · exact h1
  · exact h2

theorem ImgShown.get {α : Type} {s t : State} (h : ImgShown s t) (g : ImageState → α)
    (hg : ∀ i w c x, g { i with words := w, copies := c, changes := x } = g i) : g t.img = g s.img := by
  rw [ImgShown] at h
  rw [h]
  exact hg ..

theorem noteChange_shown (s : State) (a : BitVec 20) : ImgShown s (noteChange s a) := ImgShown.ite rfl (.of_eq rfl)

theorem epStore_shown (s : State) (a : BitVec 20) (w : W32) : ImgShown s (epStore s a w) :=
  .ite (.of_eq rfl) (.ite (.trans (by exact rfl) (noteChange_shown ..)) (.trans (by exact rfl) (noteChange_shown ..)))

theorem epPut_shown (s : State) (a : BitVec 20) (q cls : BitVec 4) (v : W16) : ImgShown s (epPut s a q cls v) :=
  .ite (.of_eq rfl) (epStore_shown ..)

theorem putHealth_shown (s : State) (o : Nat) (cls : BitVec 4) (v : W16) : ImgShown s (putHealth s o cls v) := epPut_shown ..

/-! ## Fences -/

/-- The completion of a local fence, counted in the image (Table 11-8). -/
def fenceCounted (s : State) (f : PendingFence) : State :=
  { s with img := { s.img with
      doneTag := f.tag, donePartial := f.partialFlag, doneCount := s.img.doneCount + 1,
      partials := if f.partialFlag then satInc s.img.partials else s.img.partials } }

theorem fenceTag_pend {s : State} {tag : W16} {p : PendingGen} (hp : s.boot.pend = some p) (ht : p.tag = tag) :
    (fenceTag s tag).boot.pend = some { p with due := true } := by
  have h1 : (s.boot.pend.map fun p => if p.tag = tag then { p with due := true } else p) = some { p with due := true } := by
    rw [hp, Option.map_some, if_pos ht]
  unfold fenceTag
  dsimp only
  split
  · rw [(raise_moves ..).same.boot rfl]
    exact h1
  · exact h1

theorem fenceTag_switch {s : State} {tag : W16} (ha : s.recov.stage = .armed) (ht : s.recov.stageTag = tag) :
    (fenceTag s tag).recov.stage = .switching ∧ (fenceTag s tag).recov.switchDue = true := by
  unfold fenceTag
  dsimp only
  rw [if_pos (by rw [ha, ht, decide_eq_true rfl, decide_eq_true rfl]; rfl), (raise_moves ..).same.recov rfl]
  exact ⟨rfl, rfl⟩

theorem completes_fenceLocal {s : State} {f : PendingFence} {fs : List PendingFence} (hr : s.execRuns = true) (hf : f.ready = true)
    (hl : s.img.fencesLocal = f :: fs) :
    Completes (.fenceComplete false) s fun t =>
      t.img.fencesLocal = fs ∧ t.img.doneTag = f.tag ∧ t.img.donePartial = f.partialFlag ∧ t.img.doneCount = s.img.doneCount + 1 ∧
      (∀ p, s.boot.pend = some p → p.tag = f.tag → t.boot.pend = some { p with due := true }) ∧
      (s.recov.stage = .armed → s.recov.stageTag = f.tag → t.recov.stage = .switching ∧ t.recov.switchDue = true) ∧
      SameOutside [.boot, .ev, .img, .port, .recov] s t := by
  let s1 : State := { s with img := { s.img with fencesLocal := fs } }
  let s3 := putHealth (fenceCounted s1 f) 0xF0C 3 f.tag
  let s4 := raise s3 srcFence (fenceDoneWord s3.img)
  have e : exec (.fenceComplete false) s = .next (fenceTag s4 f.tag) := by
    show execFenceComplete false s = _
    unfold execFenceComplete
    rw [hl]
    exact congrArg Host.Outcome.next ((if_neg (by rw [hr]; decide)).trans (if_pos hf))
  have h3 : SameOutside [.img] (fenceCounted s1 f) s3 := (putHealth_moves ..).same
  have h4 : SameOutside [.ev, .port] s3 s4 := (raise_moves ..).same
  have himg : (fenceTag s4 f.tag).img = s3.img := ((fenceTag_moves s4 f.tag).same.img rfl).trans (h4.img rfl)
  have hshown : ImgShown (fenceCounted s1 f) s3 := putHealth_shown ..
  have hget : ∀ {α : Type} (g : ImageState → α), (∀ i w c x, g { i with words := w, copies := c, changes := x } = g i) →
      g (fenceTag s4 f.tag).img = g (fenceCounted s1 f).img := fun g hg => by rw [himg, hshown.get g hg]
  have hb : s4.boot = s.boot := (h4.boot rfl).trans (h3.boot rfl)
  have hv : s4.recov = s.recov := (h4.recov rfl).trans (h3.recov rfl)
  exact ⟨_, e, hget ImageState.fencesLocal fun _ _ _ _ => rfl, hget ImageState.doneTag fun _ _ _ _ => rfl,
    hget ImageState.donePartial fun _ _ _ _ => rfl, hget ImageState.doneCount fun _ _ _ _ => rfl,
    fun p hp ht => fenceTag_pend (by rw [hb, hp]) ht,
    fun ha ht => fenceTag_switch (by rw [hv, ha]) (by rw [hv, ht]), (execFenceComplete_ends false s).same e |>.widen rfl⟩

theorem completes_fenceUp {s : State} {f : PendingFence} {fs : List PendingFence} {k : PortIx} {tag : W16} (hr : s.execRuns = true)
    (hf : f.ready = true) (hl : s.img.fencesUp = f :: fs) (hk : f.source = .upstream k tag) :
    Completes (.fenceComplete true) s fun t =>
      t.img.fencesUp = fs ∧
      t.port[k].rsp.waiting = s.port[k].rsp.waiting ++
        [{ msg := .fenceRsp (if f.partialFlag then 1 else 0), tag := tag, since := s.tick }] ∧
      (∀ j : PortIx, j ≠ k → t.port[j] = s.port[j]) ∧ SameOutside [.img, .port] s t := by
  let s1 : State := { s with img := { s.img with fencesUp := fs } }
  have e : exec (.fenceComplete true) s = .next (sendResponse s1 k (.fenceRsp (if f.partialFlag then 1 else 0)) tag) := by
    show execFenceComplete true s = _
    unfold execFenceComplete
    rw [hl]
    refine congrArg Host.Outcome.next (((if_neg (by rw [hr]; decide)).trans (if_pos rfl)).trans ((if_pos hf).trans ?_))
    rw [hk]
  exact ⟨_, e, rfl, congrArg (fun p : Port => p.rsp.waiting) (modPort_self s1 k _), fun j hj => sendOn_others s1 _ hj,
    SameOutside.step (sendOn_moves s1 k _).same rfl ((SameOutside.set_img s _).widen rfl)⟩

/-! ## A pending generation -/

/-- The parts of the state that taking a generation into force leaves to the boot record and the clock. -/
structure BootKept (s t : State) : Prop where
  gen : t.boot.gen = s.boot.gen
  pend : t.boot.pend = s.boot.pend
  act : t.boot.act = s.boot.act

theorem applyChars_kept (a b : Generation) (s : State) : BootKept s (applyChars a b s) := by
  unfold applyChars
  split <;> exact ⟨rfl, rfl, rfl⟩

theorem applySections_kept (s : State) (a b : Generation) :
    BootKept s (applySections s a b) ∧
    (applySections s a b).clk.clkoutSel = if a.device = b.device then s.clk.clkoutSel else b.device.clkoutSel := by
  unfold applySections
  extract_lets s1 s2 s3 s4 s5 clock rules s6
  let c := (List.finRange 16).foldl (applyChan a b) s1
  have h1 : SameOutside (partsBut [.boot, .clk]) s c := (Moves.foldl (fun x n => (applyChan_moves a b x n).widen rfl)
    (Moves.step (applyKinds_moves ..) rfl ((applyEvents_moves s b).widen rfl)) : Moves (partsBut [.boot, .clk]) s c).same
  have h2 : SameOutside [.boot, .ch] c s2 := (applyChars_moves ..).same
  have h5 : SameOutside (partsBut [.boot, .clk]) s2 s5 :=
    (Moves.foldl (fun x w => (wheelConfigure_moves x a.tide[w] w).widen rfl)
      (Moves.step (resetPaths_moves ..) rfl (Moves.foldl (fun x p => (applyPath_moves a b x p).widen rfl) (Moves.refl _))) :
      Moves (partsBut [.boot, .clk]) s2 s5).same
  clear_value s5
  have h7 : SameOutside (partsBut [.boot, .clk]) s6 (applyLinks a b (applyGroup a b s6)) :=
    (Moves.step (applyLinks_moves ..) rfl ((applyGroup_moves ..).widen rfl) : Moves (partsBut [.boot, .clk]) _ _).same
  have hb : s6.boot = s5.boot := rfl
  have hk : s6.clk.clkoutSel = if a.device = b.device then s5.clk.clkoutSel else b.device.clkoutSel := by
    show (if a.device = b.device then clock else { clock with clkoutSel := b.device.clkoutSel }).clkoutSel = _
    split <;> rfl
  obtain ⟨hg, hp, ha⟩ : BootKept c s2 := applyChars_kept a b c
  rw [h1.boot rfl] at hg hp ha
  refine ⟨⟨?_, ?_, ?_⟩, ?_⟩
  · rw [h7.boot rfl, hb, h5.boot rfl, hg]
  · rw [h7.boot rfl, hb, h5.boot rfl, hp]
  · rw [h7.boot rfl, hb, h5.boot rfl, ha]
  · rw [h7.clk rfl, hk, h5.clk rfl, h2.clk rfl, h1.clk rfl]

theorem applyGeneration_kept (s : State) (a : Generation) (p : PendingGen) :
    (applyGeneration s a p).boot.gen = some p.gen ∧ (applyGeneration s a p).boot.pend = none ∧
    (applyGeneration s a p).boot.act = (if p.copyB then 2 else 1) ∧
    (applyGeneration s a p).clk.clkoutSel = if a.device = p.gen.device then s.clk.clkoutSel else p.gen.device.clkoutSel := by
  unfold applyGeneration
  extract_lets b boot s1
  have h2 : SameOutside (partsBut [.boot, .clk]) s1 (bwSend s1 (.configure b false)) := (bwSend_moves ..).same.widen rfl
  generalize bwSend s1 (.configure b false) = s2 at h2 ⊢
  obtain ⟨⟨hg, hp, ha⟩, hc⟩ := applySections_kept s2 a b
  have h4 := (afterSections_moves (applySections s2 a b) b).same
  rw [h4.boot rfl, h4.clk rfl, hg, hp, ha, hc, h2.boot rfl, h2.clk rfl]
  exact ⟨rfl, rfl, rfl, rfl⟩

theorem generationDue_of {s : State} {p : PendingGen} (hp : s.boot.pend = some p) (hd : p.due = true) (hm : s.m.mode ≠ .load)
    (hl : s.recov.reload = none) (hs : s.recov.stage ≠ .switching) : generationDue s = true := by
  unfold generationDue
  rw [hp]
  dsimp only
  rw [hd, decide_eq_true hm, hl, decide_eq_true hs]
  rfl

theorem completes_generationApply {s : State} {a : Generation} {p : PendingGen} (hg : s.boot.gen = some a) (hp : s.boot.pend = some p)
    (hdue : generationDue s = true) (hr : s.execRuns = true) (hc : s.cycleDone = true)
    (hw : powerOk p.gen (measuredMv s 1) (measuredMv s 0) = true) :
    Completes .generationApply s fun t =>
      t.boot.gen = some p.gen ∧ t.boot.pend = none ∧ t.boot.act = (if p.copyB then 2 else 1) ∧
      t.clk.clkoutSel = (if a.device = p.gen.device then s.clk.clkoutSel else p.gen.device.clkoutSel) ∧
      t.recov.ruleRestored = true ∧
      SameOutside [.boot, .bw, .ch, .clk, .conv, .enrol, .ev, .free, .hart, .img, .loop, .m, .mbx, .port, .recov, .rul, .wheel] s t := by
  have e : exec .generationApply s = .next (applyGeneration s a p) := by
    show execGenerationApply s = _
    unfold execGenerationApply
    rw [hg, hp]
    exact congrArg Host.Outcome.next ((if_neg (by rw [hdue, hr, hc]; decide)).trans (if_neg (by rw [hw]; decide)))
  obtain ⟨hg', hp', ha, hk⟩ := applyGeneration_kept s a p
  exact ⟨_, e, hg', hp', ha, hk, by unfold applyGeneration afterSections; rfl, (execGenerationApply_ends s).same e |>.widen rfl⟩

theorem completes_generationWaits {s : State} {a : Generation} {p : PendingGen} (hg : s.boot.gen = some a) (hp : s.boot.pend = some p)
    (hdue : generationDue s = true) (hr : s.execRuns = true) (hc : s.cycleDone = true)
    (hw : powerOk p.gen (measuredMv s 1) (measuredMv s 0) = false) :
    Completes .generationApply s fun t =>
      t.boot.gen = some a ∧ t.boot.pend = some { p with due := false } ∧ SameOutside [.boot, .ev, .port] s t := by
  let s1 : State := { s with boot := { s.boot with pend := some { p with due := false } } }
  have e : exec .generationApply s = .next (raisePower s1 none) := by
    show execGenerationApply s = _
    unfold execGenerationApply
    rw [hg, hp]
    exact congrArg Host.Outcome.next ((if_neg (by rw [hdue, hr, hc]; decide)).trans (if_pos (by rw [hw]; decide)))
  have h := (raisePower_moves s1 none).same
  exact ⟨_, e, by rw [h.boot rfl]; exact hg, by rw [h.boot rfl], SameOutside.step h rfl ((SameOutside.set_boot s _).widen rfl)⟩

/-- Settles O29: a ready fence leaves the head of its list, its tag meeting a pending generation and an armed replacement; and a due generation
goes through its sections, of which none but its own record touches what is in force. -/
theorem fencesAndPendingGenerations : Obligations.FencesAndPendingGenerations :=
  ⟨fun _ _ _ hr hf => ⟨fun hl => completes_fenceLocal hr hf hl, fun _ _ hl hk => completes_fenceUp hr hf hl hk⟩,
   fun _ _ _ hg hp hd hr hm hl hs hc => ⟨completes_generationApply hg hp (generationDue_of hp hd hm hl hs) hr hc,
     completes_generationWaits hg hp (generationDue_of hp hd hm hl hs) hr hc⟩⟩

end Sys2Proof.Machine
end

section
/-! A rule cycle, and one that overran (12 R318, R319, R332; 03 R79). -/
namespace Sys2Proof.Machine

/-- The cycle noted at its end of step 4: the times, its boundary, and HBEAT, on the state that its steps left. -/
def cycleNoted (s : State) (now : W64) (d : Nat) : State :=
  { s with
    rul := { s.rul with lastUs := satNat 16 (d / 10), maxUs := if s.rul.maxUs < satNat 16 (d / 10) then satNat 16 (d / 10) else s.rul.maxUs
                        cycles := s.rul.cycles + 1, lastBoundary := some now, doneAt := now.toNat + d
                        overRun := if s.rul.overSeen then s.rul.overRun else 0, overSeen := false }
    pins := { s.pins with hbeat := if s.ruleRunning then !s.pins.hbeat else s.pins.hbeat } }

theorem cycleNoted_same (s : State) (now : W64) (d : Nat) : SameOutside [.rul, .pins] s (cycleNoted s now d) :=
  (SameOutside.set_pins { s with rul := (cycleNoted s now d).rul } _).step rfl ((SameOutside.set_rul s _).widen rfl)

/-- A cycle that ends no LEAVE: the state `x` its steps left, its times `d` and `e`, and what it notes. -/
theorem cycle_shape {s : State} (g : Generation) (hl : s.m.leaving = none) (hn : s.m.reducedNow = none) :
    ∃ (x : State) (d e : Nat), SameOutside [.bw, .ch, .conv, .enrol, .ev, .free, .gov, .img, .loop, .m, .mbx, .port, .rul] s x ∧
      x.m = { s.m with beforeSafe := none } ∧ 0 < d ∧
      cycle s g = retarget (afterCycle (writeCheckpoint (cycleNoted x s.tick d) g)) (s.tick.toNat + e)
        (BitVec.ofNat 64 (max (s.tick.toNat + 10 * g.cycleUs.toNat) (s.tick.toNat + e)) + leadTicks) := by
  unfold cycle
  extract_lets +onlyGivenNames m times sd stepFour done held target el gov s1 cy rul s2 r s3 us rul4 pins4 s4
  have ht : sd.tick = s.tick := rfl
  have hld : sd.m.leaving.isSome = false := by
    show s.m.leaving.isSome = false
    rw [hl]
    rfl
  have hs4 : s4 = cycleNoted s3 s.tick times.1 := by
    show ({ s3 with rul := _, pins := _ } : State) = _
    unfold cycleNoted
    dsimp only
    rw [hld]
    rfl
  let c : State := { sd with gov := { sd.gov with cycleRefused := false } }
  have h1 : SameOutside [.bw, .ch, .conv, .enrol, .ev, .free, .gov, .img, .loop, .mbx, .port, .rul] (settleMode c) s1 :=
    (Moves.step (gatherCommands_moves ..) rfl (Moves.step (flushNormal_moves ..) rfl ((recompute_moves _).widen rfl)) :
      Moves [.bw, .ch, .conv, .enrol, .ev, .free, .gov, .img, .loop, .mbx, .port, .rul] (settleMode c) s1).same
  have h2 : SameOutside [.bw, .ch, .conv, .enrol, .ev, .free, .gov, .img, .loop, .mbx, .port, .rul] s1 s2 :=
    SameOutside.step (cycleDemands_moves ..).same rfl (SameOutside.step (mapPending_moves ..).same rfl
      ((SameOutside.set_rul s1 _).widen rfl))
  have h3 : SameOutside [.bw, .ch, .conv, .enrol, .ev, .free, .gov, .img, .loop, .mbx, .port, .rul] s2 s3 :=
    (Moves.step (raiseEmits_moves ..) rfl (Moves.step (placeFences_moves ..) rfl (Moves.step (placeDeferred_moves ..) rfl
      (Moves.step (originWrites_moves ..) rfl ((writeOutputs_moves ..).widen rfl)))) :
      Moves [.bw, .ch, .conv, .enrol, .ev, .free, .gov, .img, .loop, .mbx, .port, .rul] s2 s3).same
  have hx : SameOutside [.bw, .ch, .conv, .enrol, .ev, .free, .gov, .img, .loop, .mbx, .port, .rul] (settleMode c) s3 :=
    SameOutside.step h3 rfl (SameOutside.step h2 rfl h1)
  have hset : settleMode c = { c with m := { c.m with beforeSafe := none } } := by
    unfold settleMode raiseReduced
    dsimp only
    rw [show c.m.reducedNow = none from hn]
  rw [hset] at hx
  have hc : SameOutside [.free, .gov, .m] s { c with m := { c.m with beforeSafe := none } } :=
    ((SameOutside.set_m c _).step rfl ((SameOutside.set_gov sd _).step rfl ((SameOutside.set_free s _).widen rfl)))
  refine ⟨s3, times.1, times.2, SameOutside.step hx rfl (hc.widen rfl), hx.m rfl, Nat.succ_pos _, ?_⟩
  have htarget : target = BitVec.ofNat 64 (max (s.tick.toNat + 10 * g.cycleUs.toNat) (s.tick.toNat + times.2)) + leadTicks := by
    show BitVec.ofNat 64 (max _ (if sd.m.leaving.isSome then done else stepFour)) + leadTicks = _
    rw [hld]
    rfl
  have hfour : stepFour = s.tick.toNat + times.2 := rfl
  rw [hs4, htarget, hfour]

/-- A cycle that neither ends a LEAVE nor starts the channels afresh leaves what it noted (R72, R77). -/
theorem afterCycle_none {s : State} (hl : s.m.leaving = none) (ha : s.m.afresh = false) : afterCycle s = s := by
  unfold afterCycle
  rw [hl, ha]
  rfl

theorem retarget_stepFive {s : State} {e : Nat} {t target : W64} {acts : List FieldAct}
    (h : L2F.command acts target ∈ (retarget s e t).bw.stepFive) : target = t := by
  obtain ⟨b, -, hb⟩ := List.mem_map.mp h
  cases b with
  | command acts' t' => exact ((L2F.command.inj hb).2).symm
  | _ => cases hb

theorem cycleDue_inv {s : State} {g : Generation} (h : cycleDue s g = true) (hl : s.m.leaving = none) :
    s.execRuns = true ∧ (s.m.mode = .run ∨ s.m.mode = .reduced) ∧ generationDue s = false ∧ s.cycleDone = true := by
  unfold cycleDue at h
  simp only [Bool.and_eq_true, Bool.or_eq_true, decide_eq_true_eq, Bool.not_eq_true', hl, Option.isSome_none, Bool.false_eq_true, or_false] at h
  obtain ⟨⟨⟨⟨hr, hm⟩, -⟩, hg⟩, hc⟩ := h
  exact ⟨hr, hm, hg, hc⟩

theorem ruleRunning_of {s : State} (hr : s.execRuns = true) (hm : s.m.mode = .run ∨ s.m.mode = .reduced) : s.ruleRunning = true := by
  unfold State.execRuns at hr
  simp only [Bool.and_eq_true, decide_eq_true_eq] at hr
  obtain ⟨⟨hrun, -⟩, -⟩ := hr
  unfold State.ruleRunning
  rw [decide_eq_true hrun]
  rcases hm with hm | hm <;> rw [hm] <;> rfl

theorem completes_ruleCycle {s : State} {g : Generation} (hg : s.boot.gen = some g) (hdue : cycleDue s g = true) (hl : s.m.leaving = none)
    (ha : s.m.afresh = false) (hn : s.m.reducedNow = none) :
    Completes .ruleCycle s fun t =>
      t.rul.lastBoundary = some s.tick ∧ t.rul.overSeen = false ∧ t.rul.lastUs.toNat ≤ t.rul.maxUs.toNat ∧
      s.tick.toNat < t.rul.doneAt ∧ t.bw.gathering = false ∧
      (∀ acts target, L2F.command acts target ∈ t.bw.stepFive →
        target = BitVec.ofNat 64 (max (s.tick.toNat + 10 * g.cycleUs.toNat) t.bw.stepFiveAt) + 1000) ∧
      (∃ c : Checkpoint, t.rul.checkpoint = some c ∧ c.seq = g.seq ∧ c.mem = t.rul.mem ∧ c.grp = t.rul.grp ∧
        c.prot = t.ch.map (·.prot) ∧ c.mode = s.m.mode) ∧
      t.pins.hbeat = !s.pins.hbeat ∧ t.m = { s.m with beforeSafe := none } ∧
      SameOutside [.bw, .ch, .conv, .enrol, .ev, .free, .gov, .img, .loop, .m, .mbx, .pins, .port, .rul] s t := by
  obtain ⟨x, d, e, hsame, hm, hd, hshape⟩ := cycle_shape g hl hn
  obtain ⟨hr, hmode, -, -⟩ := cycleDue_inv hdue hl
  have hafter : afterCycle (writeCheckpoint (cycleNoted x s.tick d) g) = writeCheckpoint (cycleNoted x s.tick d) g :=
    afterCycle_none (congrArg ModeState.leaving hm |>.trans hl) (congrArg ModeState.afresh hm |>.trans ha)
  have hmd : x.m.mode = s.m.mode := by rw [hm]
  have e' : exec .ruleCycle s = .next (cycle s g) := by
    show execRuleCycle s = _
    unfold execRuleCycle
    rw [hg]
    exact congrArg Host.Outcome.next (if_pos hdue)
  have hrun : x.ruleRunning = true := by
    unfold State.ruleRunning
    rw [hm]
    exact ruleRunning_of hr hmode
  rw [hshape, hafter] at e'
  refine ⟨_, e', rfl, rfl, ?_, Nat.lt_add_of_pos_right hd, rfl, fun acts target h => retarget_stepFive h,
    ⟨_, rfl, rfl, rfl, rfl, rfl, hmd⟩, ?_, hm, ?_⟩
  · show (satNat 16 (d / 10)).toNat ≤ BitVec.toNat (if x.rul.maxUs < satNat 16 (d / 10) then satNat 16 (d / 10) else x.rul.maxUs)
    split
    next => exact Nat.le_refl _
    next h => exact Nat.le_of_not_lt h
  · show (if x.ruleRunning then !x.pins.hbeat else x.pins.hbeat) = _
    rw [if_pos hrun, hsame.pins rfl]
  · exact (retarget_moves ..).same.step rfl ((writeCheckpoint_moves ..).same.step rfl ((cycleNoted_same ..).step rfl (hsame.widen rfl)))

theorem exec_ruleCycle_none {s : State} (h : ∀ g, cycleDue s g = false) : exec .ruleCycle s = .next s := by
  show execRuleCycle s = _
  unfold execRuleCycle
  split
  next g _ => exact congrArg Host.Outcome.next (if_neg (by rw [h g]; decide))
  next => rfl

theorem completes_ruleOverrun {s : State} (hr : s.execRuns = true) (hc : s.ruleRunning = true) (hb : boundaryMissed s = true)
    (ho : s.rul.overSeen = false) (hn : s.rul.overRun ≠ 15) :
    Completes .ruleOverrun s fun t =>
      t.rul.overrun = satInc s.rul.overrun ∧ t.rul.overSeen = true ∧ t.rul.cycles = s.rul.cycles ∧ SameOutside [.ev, .port, .rul] s t := by
  let s1 : State := { s with rul := { s.rul with overrun := satInc s.rul.overrun, overSeen := true, overRun := s.rul.overRun + 1 } }
  have hn' : s.rul.overRun + 1 ≠ 16 := fun h => hn (Nat.succ.inj h)
  have e : exec .ruleOverrun s = .next (raise s1 srcOverrun (rulTimeWord s1.rul)) := by
    show execRuleOverrun s = _
    unfold execRuleOverrun
    dsimp only
    rw [if_neg (by rw [hr, hc, hb, ho]; decide), if_neg hn', if_neg hn']
  have h := (raise_moves s1 srcOverrun (rulTimeWord s1.rul)).same
  exact ⟨_, e, by rw [h.rul rfl], by rw [h.rul rfl], by rw [h.rul rfl], SameOutside.step h rfl ((SameOutside.set_rul s _).widen rfl)⟩

/-- Settles O30: the cycle is what its steps leave, noted, checkpointed and retargeted; none is due beside a due generation or before the last has
completed. -/
theorem ruleCycleCompletesOrOverruns : Obligations.RuleCycleCompletesOrOverruns := by
  refine fun s g => ⟨completes_ruleCycle, fun h => exec_ruleCycle_none fun g => ?_, fun p hp hd hm hl hs => exec_ruleCycle_none fun g => ?_,
    completes_ruleOverrun⟩
  · unfold cycleDue
    rw [h, Bool.and_false]
  · unfold cycleDue
    rw [generationDue_of hp hd hm hl hs, Bool.not_true, Bool.and_false, Bool.false_and]

end Sys2Proof.Machine
end

section
/-! A link port trains (13 R353, R354, R360). -/
namespace Sys2Proof.Machine

/-! ## What queueing frames leaves of a port -/

/-- Only what waits to be sent on the port differs, with the tag of its next request and its count of time-outs. -/
def PortQueued (c d : Port) : Prop :=
  d = { c with req := { c.req with waiting := d.req.waiting }, rsp := { c.rsp with waiting := d.rsp.waiting }
               urg := { c.urg with waiting := d.urg.waiting }, nextTag := d.nextTag, timeouts := d.timeouts }

theorem PortQueued.get {c d : Port} (h : PortQueued c d) {α : Type} (g : Port → α)
    (hg : ∀ e : Port, g { c with req := { c.req with waiting := e.req.waiting }, rsp := { c.rsp with waiting := e.rsp.waiting }
                                 urg := { c.urg with waiting := e.urg.waiting }, nextTag := e.nextTag, timeouts := e.timeouts } = g c) :
    g d = g c :=
  (congrArg g h).trans (hg d)

structure PortsQueued (s t : State) : Prop where
  port : ∀ k : PortIx, PortQueued s.port[k] t.port[k]

namespace PortsQueued

variable {s t u : State}

theorem of_eq (h : t.port = s.port) : PortsQueued s t := ⟨fun k => by rw [h]; rfl⟩

theorem of_moves {ps : List Part} (h : Moves ps s t) (hp : ps.contains .port = false) : PortsQueued s t := of_eq (h.same.port hp)

theorem trans (h : PortsQueued s t) (k : PortsQueued t u) : PortsQueued s u := ⟨fun m => by
  have hm := h.port m
  have km := k.port m
  unfold PortQueued at hm km ⊢
  rw [km, hm]⟩

theorem ite {c : Prop} [Decidable c] (h : PortsQueued s t) (k : PortsQueued s u) : PortsQueued s (if c then t else u) := by
  split
  · exact h
  · exact k

theorem modPort (s : State) (k : PortIx) (f : Port → Port) (hf : ∀ c, PortQueued c (f c)) : PortsQueued s (s.modPort k f) := ⟨fun m => by
  rw [State.modPort_port, modAt_get]
  split
  · next h => exact h ▸ hf _
  · rfl⟩

theorem foldl {β : Type} {f : State → β → State} (hf : ∀ a x, PortsQueued a (f a x)) (l : List β) (s : State) :
    PortsQueued s (l.foldl f s) := by
  induction l generalizing s with
  | nil => exact of_eq rfl
  | cons x l ih => exact trans (hf s x) (ih _)

end PortsQueued

theorem portQueue_queued (p : Port) (f : TxFrame) : PortQueued p (portQueue p f) := by
  unfold portQueue
  split <;> rfl

theorem sendOn_queued (s : State) (k : PortIx) (f : TxFrame) : PortsQueued s (sendOn s k f) :=
  PortsQueued.modPort s k _ fun p => portQueue_queued p f

theorem sendRequest_queued (s : State) (k : PortIx) (msg : LinkMsg) (kind : RequestKind) (budget : W16) (since : W64) :
    PortsQueued s (sendRequest s k msg kind budget since) :=
  PortsQueued.trans (PortsQueued.modPort s k (fun p => { portQueue p { msg := msg, tag := s.port[k].nextTag, budget := budget, since := since } with
    nextTag := s.port[k].nextTag + 1 }) fun p => by
      have h := portQueue_queued p { msg := msg, tag := s.port[k].nextTag, budget := budget, since := since }
      unfold PortQueued at h ⊢
      rw [h]) (PortsQueued.of_eq rfl)

theorem linkRecord_queued (s : State) (q : QueueEntry) (src : SrcIx) : PortsQueued s (linkRecord s q src) := by
  unfold linkRecord
  refine PortsQueued.ite ?_ (.of_eq rfl)
  split
  · exact PortsQueued.modPort s _ _ fun p => portQueue_queued p _
  · exact .of_eq rfl

theorem enqueue_queued (s : State) (q : QueueEntry) : PortsQueued s (enqueue s q) := by
  have ho : ∀ a : State, PortsQueued a (raiseOverflow a) := fun a => by
    unfold raiseOverflow
    dsimp only
    exact PortsQueued.trans (by exact .of_eq rfl) (linkRecord_queued ..)
  unfold enqueue
  exact PortsQueued.ite (.of_eq rfl) (PortsQueued.ite (PortsQueued.trans (by exact .of_eq rfl) (ho _)) (.of_eq rfl))

theorem occur_queued (s : State) (src : SrcIx) (detail : W32) (tick : W64) : PortsQueued s (occur s src detail tick) := by
  unfold occur
  exact PortsQueued.ite (PortsQueued.ite (PortsQueued.trans (PortsQueued.trans (by exact .of_eq rfl) (enqueue_queued ..)) (linkRecord_queued ..))
    (.of_eq rfl)) (.of_eq rfl)

theorem raise_queued (s : State) (src : SrcIx) (detail : W32) : PortsQueued s (raise s src detail) := by
  unfold raise
  refine PortsQueued.ite (occur_queued ..) (PortsQueued.of_eq ?_)
  dsimp only
  split <;> rfl

theorem raiseLinkErr_queued (s : State) (k : PortIx) : PortsQueued s (raiseLinkErr s k) := raise_queued ..

theorem sendDisc_queued (s : State) : PortsQueued s (sendDisc s) := by
  unfold sendDisc
  split
  · exact sendOn_queued ..
  · exact .of_eq rfl

/-! ## A port that is lost -/

/-- Only the books of the port's classes differ, and what it puts on the line. -/
def PortBooks (c d : Port) : Prop := d = { c with req := d.req, rsp := d.rsp, urg := d.urg, out := d.out }

theorem PortBooks.trans {a b c : Port} (h : PortBooks a b) (k : PortBooks b c) : PortBooks a c := by
  unfold PortBooks at h k ⊢
  rw [k, h]

theorem PortBooks.get {c d : Port} (h : PortBooks c d) {α : Type} (g : Port → α)
    (hg : ∀ e : Port, g { c with req := e.req, rsp := e.rsp, urg := e.urg, out := e.out } = g c) : g d = g c :=
  (congrArg g h).trans (hg d)

theorem modCls_books (p : Port) (c : LinkClass) (f : PortClass → PortClass) : PortBooks p (p.modCls c f) := by
  cases c <;> rfl

theorem freeUnits_books (p : Port) (c : LinkClass) (units : Nat) (tick : W64) : PortBooks p (freeUnits p c units tick) :=
  (modCls_books p c _).trans rfl

theorem modPort_books (s : State) (j k : PortIx) {f : Port → Port} (hf : ∀ p, PortBooks p (f p)) :
    PortBooks s.port[k] (s.modPort j f).port[k] := by
  rw [State.modPort_port, modAt_get]
  split
  next h => exact h ▸ hf _
  next => rfl

theorem freeHeld_books (s : State) (f : TxFrame) (k : PortIx) : PortBooks s.port[k] (freeHeld s f).port[k] := by
  unfold freeHeld
  split
  next j u _ =>
    split
    · exact modPort_books s j k fun p => (modCls_books ..).trans (freeUnits_books ..)
    · rfl
  next => rfl

theorem dropHolds_books (s : State) (k j : PortIx) : PortBooks s.port[j] (dropHolds s k).port[j] := by
  have h : ∀ (l : List TxFrame) (a : State), PortBooks a.port[j] (l.foldl freeHeld a).port[j] := fun l => by
    induction l with
    | nil => exact fun _ => rfl
    | cons f l ih => exact fun a => (freeHeld_books a f j).trans (ih _)
  refine (h s.port[k].urg.unacked s).trans ?_
  unfold dropHolds
  dsimp only
  show PortBooks _ (Vector.map _ _)[j.val]
  rw [Vector.getElem_map]
  rfl

/-- Port `k` cleared: what its frames held elsewhere is freed, the fences that waited for its frames do so no longer (13 R353). -/
def portEmptied (s : State) (k : PortIx) (cause : BitVec 4) (st : PortState) : State :=
  (s.port[k].buffered.foldl (fun a b => fenceWriteDone a b.id) (dropHolds s k)).modPort k fun p => clearedPort p cause st

theorem portEmptied_port (s : State) (k : PortIx) (cause : BitVec 4) (st : PortState) :
    (portEmptied s k cause st).port[k] = clearedPort (dropHolds s k).port[k] cause st ∧
    ∀ j : PortIx, j ≠ k → (portEmptied s k cause st).port[j] = (dropHolds s k).port[j] := by
  have h : ∀ (l : List BufferedRequest) (a : State), (l.foldl (fun a b => fenceWriteDone a b.id) a).port = a.port := fun l => by
    induction l with
    | nil => exact fun _ => rfl
    | cons f l ih => exact fun a => ih _
  unfold portEmptied
  exact ⟨by rw [modPort_self, h], fun j hj => by rw [modPort_others _ _ hj, h]⟩

theorem portEmptied_same (s : State) (k : PortIx) (cause : BitVec 4) (st : PortState) : SameOutside [.img, .port] s (portEmptied s k cause st) :=
  SameOutside.step (SameOutside.set_port _ _) rfl (Moves.foldl (l := s.port[k].buffered) (fun a b => (fenceWriteDone_moves a b.id).widen rfl)
    ((dropHolds_moves s k).widen rfl) : Moves [.img, .port] s _).same

/-! ### Requests that fail with it -/


theorem ruleFault_queued (s : State) (i : Nat) (cause : BitVec 3) : PortsQueued s (ruleFault s i cause) := by
  unfold ruleFault
  exact PortsQueued.trans (by exact .of_eq rfl) (raise_queued ..)

theorem recordRefusal_queued (s : State) (a : BitVec 20) (reason : BitVec 3) (src : BitVec 2) : PortsQueued s (recordRefusal s a reason src) := by
  have hr : ∀ x : State, PortsQueued x (ruleRefused x a reason) := fun x => by
    unfold ruleRefused
    split
    · exact .of_eq rfl
    · dsimp only
      split
      · exact PortsQueued.ite (PortsQueued.trans (by exact .of_eq rfl) (ruleFault_queued ..)) (.of_eq rfl)
      · exact PortsQueued.ite (.of_eq rfl) (PortsQueued.trans (by exact .of_eq rfl) (ruleFault_queued ..))
  unfold recordRefusal
  exact PortsQueued.ite (PortsQueued.trans (by exact .of_eq rfl) (hr _)) (.of_eq rfl)

theorem mergeFill_queued (s : State) (id : Nat) (pos : List Nat) (rs : List Byte) : PortsQueued s (mergeFill s id pos rs) := by
  have hc : ∀ x : State, PortsQueued x (closeMerge x id) := fun x => by
    unfold closeMerge
    split
    · exact .of_eq rfl
    · exact PortsQueued.ite (PortsQueued.trans (by exact .of_eq rfl) (sendOn_queued ..)) (.of_eq rfl)
  exact PortsQueued.trans (by exact .of_eq rfl) (hc _)

theorem requestFailed_queued (s : State) (r : OutRequest) (code : Byte) : PortsQueued s (requestFailed s r code) := by
  unfold requestFailed
  extract_lets +onlyGivenNames reason s1 s2
  have h2 : PortsQueued s s2 := PortsQueued.ite (PortsQueued.trans (by exact .of_eq rfl) (PortsQueued.modPort s1 _ _ (by intro _; rfl))) (.of_eq rfl)
  refine h2.trans ?_
  split
  next => exact (PortsQueued.foldl (fun a x => recordRefusal_queued ..) _ _).trans (.of_eq rfl)
  next =>
    dsimp only
    split
    · exact PortsQueued.ite (PortsQueued.trans (by exact .of_eq rfl) (sendOn_queued ..))
        (PortsQueued.trans (by exact .of_eq rfl) (mergeFill_queued ..))
    · exact .of_eq rfl
  next => exact .of_eq rfl
  next => exact .of_eq rfl
  next => exact .of_eq rfl

theorem failPort_queued (s : State) (k : PortIx) : PortsQueued s (failPort s k) := by
  refine PortsQueued.foldl (fun a r => ?_) _ _
  split
  · exact .of_eq rfl
  · exact requestFailed_queued ..

/-- Port `k` re-initialised: cleared, its requests failed, and what it tells of it. -/
def portTold (s : State) (k : PortIx) (cause : BitVec 4) (st : PortState) : State :=
  let s1 := failPort (portEmptied s k cause st) k
  let s2 := if s.port[k].state ≠ st then putLinks (raise s1 (srcLink k) (lnkStatWord s1.port[k])) else s1
  if s.port[k].reinits ≠ 255 then raiseLinkErr s2 k else s2

theorem portTold_moves (s : State) (k : PortIx) (cause : BitVec 4) (st : PortState) :
    Moves [.ev, .img, .port, .rul] (portEmptied s k cause st) (portTold s k cause st) := by
  unfold portTold
  refine Moves.ite (fun _ => (raiseLinkErr_moves ..).step rfl ?_) (fun _ => ?_) <;>
    exact Moves.ite (fun _ => (putLinks_moves ..).step rfl ((raise_moves ..).step rfl ((failPort_moves ..).widen rfl)))
      (fun _ => (failPort_moves ..).widen rfl)

theorem portTold_queued (s : State) (k : PortIx) (cause : BitVec 4) (st : PortState) :
    PortsQueued (portEmptied s k cause st) (portTold s k cause st) := by
  have h : PortsQueued (portEmptied s k cause st) (if s.port[k].state ≠ st then
      putLinks (raise (failPort (portEmptied s k cause st) k) (srcLink k) (lnkStatWord (failPort (portEmptied s k cause st) k).port[k]))
      else failPort (portEmptied s k cause st) k) :=
    PortsQueued.ite (((failPort_queued ..).trans (raise_queued ..)).trans (.of_moves (putLinks_moves _) rfl)) (failPort_queued ..)
  exact PortsQueued.ite (h.trans (raiseLinkErr_queued ..)) h

theorem portLeave_training {s : State} {k : PortIx} (h : s.port[k].state = .training) (cause : BitVec 4) (st : PortState) :
    portLeave s k cause st = portTold s k cause st := by
  unfold portLeave
  rw [if_neg (by rw [h]; decide), if_neg (by rw [h]; decide)]
  rfl

theorem portLeave_up {s : State} {k : PortIx} (h : s.port[k].state = .up) (cause : BitVec 4) (st : PortState) :
    portLeave s k cause st = wheelsOfPort (entriesLost (portTold s k cause st) k) k := by
  unfold portLeave
  rw [if_neg (by rw [h]; decide), if_pos h]
  rfl

theorem portTold_self (s : State) (k : PortIx) (cause : BitVec 4) (st : PortState) :
    PortQueued (clearedPort (dropHolds s k).port[k] cause st) (portTold s k cause st).port[k] := by
  rw [← (portEmptied_port s k cause st).1]
  exact (portTold_queued s k cause st).port k

theorem portTold_state_others (s : State) (k : PortIx) (cause : BitVec 4) (st : PortState) {j : PortIx} (h : j ≠ k) :
    (portTold s k cause st).port[j].state = s.port[j].state :=
  (((portTold_queued s k cause st).port j).get (·.state) fun _ => rfl).trans
    ((congrArg (·.state) ((portEmptied_port s k cause st).2 j h)).trans ((dropHolds_books s k j).get (·.state) fun _ => rfl))

/-! ## Training -/

/-- A port's state set anew: beside it only the record of the change waits on the links. -/
theorem setPortState_queued (s : State) (k : PortIx) (st : PortState) :
    PortsQueued (s.modPort k fun p => { p with state := st }) (setPortState s k st) := by
  unfold setPortState
  split
  next h =>
    refine ⟨fun j => ?_⟩
    by_cases hj : j = k
    · subst hj
      rw [modPort_self, ← h]
      rfl
    · rw [modPort_others _ _ hj]
      rfl
  next => exact (raise_queued ..).trans (.of_moves (putLinks_moves _) rfl)

theorem completes_commaAligned {s : State} {k : PortIx} (hd : s.port[k].state = .down) (hw : s.port[k].retryWait = false)
    (hl : s.m.mode ≠ .load) (hs : s.m.mode ≠ .stop) :
    Completes (.commaAligned k) s fun t =>
      t.port[k].state = .training ∧ (∀ j : PortIx, j ≠ k → t.port[j].state = s.port[j].state) ∧ SameOutside [.ev, .img, .port] s t := by
  have e : exec (.commaAligned k) s = .next (setPortState s k .training) :=
    congrArg Host.Outcome.next (if_pos (by rw [hd, hw, decide_eq_true hl, decide_eq_true hs]; rfl))
  have h := setPortState_queued s k .training
  refine ⟨_, e, ?_, fun j hj => ?_, (execCommaAligned_ends k s).same e⟩
  · exact ((h.port k).get (·.state) fun _ => rfl).trans (congrArg (·.state) (modPort_self ..))
  · exact ((h.port j).get (·.state) fun _ => rfl).trans (congrArg (·.state) (modPort_others _ _ hj))

theorem completes_trainSend {s : State} {k : PortIx} (h : s.port[k].state = .training) :
    Completes (.trainSend k) s fun t =>
      t.port[k].seenSent = s.port[k].seen ∧ t.port[k].readySent = s.port[k].ready ∧ t.port[k].state = .training ∧
      (∃ i : TrainInfo, t.port[k].out = [sent (s.linkCfg k).peerId { msg := .train i }] ∧ i.ownId = (s.linkCfg k).ownId ∧
        i.role = (s.linkCfg k).role ∧ i.seen = s.port[k].seen ∧ i.ready = s.port[k].ready) ∧
      (∀ j : PortIx, j ≠ k → t.port[j] = s.port[j]) ∧ SameOutside [.port] s t := by
  obtain ⟨i, e, h1, h2, h3, h4⟩ : ∃ i : TrainInfo, exec (.trainSend k) s = .next (s.modPort k fun p =>
      { p with seenSent := p.seen, readySent := p.ready, txCnt := p.txCnt + 1, out := [sent (s.linkCfg k).peerId { msg := .train i }] }) ∧
      i.ownId = (s.linkCfg k).ownId ∧ i.role = (s.linkCfg k).role ∧ i.seen = s.port[k].seen ∧ i.ready = s.port[k].ready :=
    ⟨_, congrArg Host.Outcome.next (if_neg (not_not.mpr h)), rfl, rfl, rfl, rfl⟩
  refine ⟨_, e, ?_, ?_, ?_, ⟨i, ?_, h1, h2, h3, h4⟩, fun j hj => modPort_others _ _ hj, (execTrainSend_ends k s).same e⟩
  all_goals rw [modPort_self]
  exact h

/-- A port that takes a valid TRAIN frame `i`, whose neighbour is not yet ready, or does not agree: what it notes (13 R354). -/
def trainNoted (s : State) (k : PortIx) (i : TrainInfo) (good : Bool) : State :=
  s.modPort k fun p =>
    { p with peerId := i.ownId, idMm := p.idMm || (trainMismatch (s.linkCfg k) i).1, roleMm := p.roleMm || (trainMismatch (s.linkCfg k) i).2.1
             baudMm := p.baudMm || (trainMismatch (s.linkCfg k) i).2.2, rxCnt := p.rxCnt + 1
             trainRun := if good then p.trainRun + 1 else 0, seen := p.seen || (good && 1 ≤ p.trainRun), peerSeen :=
               p.peerSeen || (good && i.seen) }

/-- The TRAIN frame agrees with the port's configuration. -/
def trainAgrees (s : State) (k : PortIx) (i : TrainInfo) : Bool :=
  !(trainMismatch (s.linkCfg k) i).1 && !(trainMismatch (s.linkCfg k) i).2.1 && !(trainMismatch (s.linkCfg k) i).2.2 && i.revision = 1

theorem trainAgrees_of {s : State} {k : PortIx} {i : TrainInfo} (hm : trainMismatch (s.linkCfg k) i = (false, false, false))
    (hr : i.revision = 1) : trainAgrees s k i = true := by
  unfold trainAgrees
  rw [hm, decide_eq_true hr]
  rfl

/-- What a valid TRAIN frame makes of a port that trains. -/
theorem takeTrain_eq (s : State) (k : PortIx) (i : TrainInfo) :
    ∃ a : State, PortsQueued (trainNoted s k i (trainAgrees s k i)) a ∧ Moves [.ev, .port] (trainNoted s k i (trainAgrees s k i)) a ∧
      takeTrain s k i = if trainAgrees s k i && i.ready && a.port[k].readySent then enterUp a k else a :=
  ⟨_, PortsQueued.foldl (fun a r => PortsQueued.ite (raiseLinkErr_queued ..) (.of_eq rfl)) _ _,
    Moves.foldl (fun a r => Moves.ite (fun _ => raiseLinkErr_moves ..) fun _ => Moves.refl _) (Moves.refl _), rfl⟩

theorem exec_train {s : State} {k : PortIx} {f : LinkHeader} (h : s.port[k].state = .training) (hf : f.eof = true)
    (hok : linkOk (s.linkCfg k).ownId f (trainMsg f) = true) (hq : f.fseq = 0) :
    exec (.train k f) s = .next (takeTrain (clearOut s) k (trainOf f.payload)) := by
  have hst : (clearOut s).port[k].state = .training := by
    rw [clearOut_port]
    exact h
  have hok' : linkOk ((clearOut s).linkCfg k).ownId f (trainMsg f) = true := hok
  show execTrain k f s = _
  unfold execTrain
  dsimp only
  rw [if_neg (by rw [hst]; decide), if_neg (by rw [hf]; decide), if_neg (by rw [hok']; decide), if_neg (not_not.mpr hq),
    if_neg (by rw [hst]; decide)]

theorem enterUp_port (s : State) (k : PortIx) :
    PortQueued { s.port[k] with req := { s.port[k].req with credits := 8 }, rsp := { s.port[k].rsp with credits := 8 }
                                urg := { s.port[k].urg with credits := 4 }, state := .up } (enterUp s k).port[k] := by
  let s1 := s.modPort k fun p => { p with req := { p.req with credits := 8 }, rsp := { p.rsp with credits := 8 }, urg := { p.urg with credits := 4 } }
  have h2 : PortsQueued (s1.modPort k fun p => { p with state := .up }) (enterUp s k) :=
    PortsQueued.trans ((setPortState_queued s1 k .up).trans (.of_moves (entriesUp_moves _ k) rfl))
      (PortsQueued.ite (sendDisc_queued _) (PortsQueued.of_eq rfl))
  have h := h2.port k
  rw [modPort_self, modPort_self] at h
  exact h

theorem completes_train_noted {s : State} {k : PortIx} {f : LinkHeader} {i : TrainInfo} (h : s.port[k].state = .training) (hf : f.eof = true)
    (hok : linkOk (s.linkCfg k).ownId f (trainMsg f) = true) (hq : f.fseq = 0) (hi : i = trainOf f.payload) (hr : s.port[k].readySent = false) :
    Completes (.train k f) s fun t =>
      t.port[k].peerId = i.ownId ∧ t.port[k].state = .training ∧
      (trainMismatch (s.linkCfg k) i = (false, false, false) → i.revision = 1 →
        t.port[k].trainRun = s.port[k].trainRun + 1 ∧ (1 ≤ s.port[k].trainRun → t.port[k].seen = true)) ∧
      (i.ownId ≠ (s.linkCfg k).peerId → t.port[k].idMm = true ∧ t.port[k].trainRun = 0) ∧ SameOutside [.ev, .port] s t := by
  have e := exec_train h hf hok hq
  rw [← hi] at e
  obtain ⟨a, hp, hm, ht⟩ := takeTrain_eq (clearOut s) k i
  have hself := hp.port k
  rw [trainNoted, modPort_self, clearOut_port] at hself
  have hready : a.port[k].readySent = false := (hself.get (·.readySent) fun _ => rfl).trans hr
  rw [ht, hready, if_neg (by rw [Bool.and_false]; decide)] at e
  have hag : trainAgrees (clearOut s) k i = trainAgrees s k i := rfl
  have hmm : ((clearOut s).linkCfg k) = s.linkCfg k := rfl
  rw [hag, hmm] at hself
  have hrun := hself.get (·.trainRun) fun _ => rfl
  have hseen := hself.get (·.seen) fun _ => rfl
  have hid := hself.get (·.idMm) fun _ => rfl
  dsimp only at hrun hseen hid
  refine ⟨a, e, hself.get (·.peerId) fun _ => rfl, (hself.get (·.state) fun _ => rfl).trans h, fun ha hrev => ?_, fun hne => ?_,
    hm.same.step rfl ((SameOutside.set_port _ _).step rfl ((clearOut_moves s).same.widen rfl))⟩
  · rw [hrun, hseen, trainAgrees_of ha hrev]
    exact ⟨rfl, fun h1 => by rw [decide_eq_true h1]; exact Bool.or_true _⟩
  · have hne1 : (trainMismatch (s.linkCfg k) i).1 = true := decide_eq_true hne
    have hna : trainAgrees s k i = false := by
      unfold trainAgrees
      rw [hne1]
      rfl
    rw [hid, hrun, hna, hne1]
    exact ⟨Bool.or_true _, rfl⟩

theorem completes_train_up {s : State} {k : PortIx} {f : LinkHeader} {i : TrainInfo} (h : s.port[k].state = .training) (hf : f.eof = true)
    (hok : linkOk (s.linkCfg k).ownId f (trainMsg f) = true) (hq : f.fseq = 0) (hi : i = trainOf f.payload) (hr : s.port[k].readySent = true)
    (hm : trainMismatch (s.linkCfg k) i = (false, false, false)) (hrev : i.revision = 1) (hready : i.ready = true) :
    Completes (.train k f) s fun t =>
      t.port[k].state = .up ∧ t.port[k].req.credits = 8 ∧ t.port[k].rsp.credits = 8 ∧ t.port[k].urg.credits = 4 ∧
      SameOutside [.ev, .img, .port] s t := by
  have e := exec_train h hf hok hq
  rw [← hi] at e
  obtain ⟨a, hp, ha, ht⟩ := takeTrain_eq (clearOut s) k i
  have hself := hp.port k
  rw [trainNoted, modPort_self, clearOut_port] at hself
  have hrs : a.port[k].readySent = true := (hself.get (·.readySent) fun _ => rfl).trans hr
  rw [ht, hrs, hready, trainAgrees_of (s := clearOut s) hm hrev, if_pos (by rfl)] at e
  have hup := enterUp_port a k
  exact ⟨_, e, hup.get (·.state) fun _ => rfl, hup.get (·.req.credits) fun _ => rfl, hup.get (·.rsp.credits) fun _ => rfl,
      hup.get (·.urg.credits) fun _ => rfl,
    (enterUp_moves a k).same.step rfl (ha.same.step rfl ((SameOutside.set_port _ _).step rfl ((clearOut_moves s).same.widen rfl)))⟩

theorem completes_trainingTimeout {s : State} {k : PortIx} (h : s.port[k].state = .training) :
    Completes (.trainingTimeout k) s fun t =>
      t.port[k].state = .down ∧ t.port[k].lastCause = 6 ∧ t.port[k].retryWait = true ∧
      (∀ j : PortIx, j ≠ k → t.port[j].state = s.port[j].state) ∧ SameOutside [.ev, .img, .port, .rul] s t := by
  have hst : (clearOut s).port[k].state = .training := by
    rw [clearOut_port]
    exact h
  have e : exec (.trainingTimeout k) s =
      .next ((portTold (clearOut s) k 6 .down).modPort k fun p => { p with retryWait := true }) := by
    rw [← portLeave_training hst]
    exact congrArg Host.Outcome.next (if_pos h)
  have hself := portTold_self (clearOut s) k 6 .down
  refine ⟨_, e, ?_, ?_, ?_, fun j hj => ?_, (SameOutside.set_port _ _).step rfl ((portTold_moves ..).same.step rfl
    ((portEmptied_same ..).step rfl ((clearOut_moves s).same.widen rfl)))⟩
  · rw [modPort_self]
    exact hself.get (·.state) fun _ => rfl
  · rw [modPort_self]
    exact hself.get (·.lastCause) fun _ => rfl
  · rw [modPort_self]
  · rw [modPort_others _ _ hj, portTold_state_others _ _ _ _ hj, clearOut_port]

/-- Settles O31: a port's training state is set by its own frames and timers, and the records of its changes only wait on the links. -/
theorem portTraining : Obligations.PortTraining :=
  fun s k => ⟨completes_commaAligned, completes_trainSend,
    fun _ _ h hf hok hq hi => ⟨completes_train_noted h hf hok hq hi, completes_train_up h hf hok hq hi⟩, completes_trainingTimeout,
    ⟨_, rfl, by rw [modPort_self], fun j hj => modPort_others _ _ hj, SameOutside.set_port _ _⟩⟩

end Sys2Proof.Machine
end

section
/-! A port is lost; credit returns, acknowledgements and censuses (13 R346, R355, R359, R361, R363, R364, R368; 11 R306). -/
namespace Sys2Proof.Machine

/-! ## What showing the state on the endpoints leaves of the image and the ports -/

/-- Only endpoint words and the changes to be sent differ in the image, and only what waits to be sent on the ports. -/
structure Told (s t : State) : Prop where
  img : ImgShown s t
  port : PortsQueued s t

namespace Told

variable {s t u : State}

theorem of_eq (hi : t.img = s.img) (hp : t.port = s.port) : Told s t := ⟨.of_eq hi, .of_eq hp⟩

theorem trans (h : Told s t) (k : Told t u) : Told s u := ⟨h.img.trans k.img, h.port.trans k.port⟩

theorem ite {c : Prop} [Decidable c] (h : Told s t) (k : Told s u) : Told s (if c then t else u) := by
  split
  · exact h
  · exact k

theorem foldl {β : Type} {f : State → β → State} (hf : ∀ a x, Told a (f a x)) (l : List β) (s : State) : Told s (l.foldl f s) := by
  induction l generalizing s with
  | nil => exact of_eq rfl rfl
  | cons x l ih => exact trans (hf s x) (ih _)

end Told

theorem epPut_told (s : State) (a : BitVec 20) (q cls : BitVec 4) (v : W16) : Told s (epPut s a q cls v) :=
  ⟨epPut_shown .., .of_moves (epPut_moves ..) rfl⟩

theorem putHealth_told (s : State) (o : Nat) (cls : BitVec 4) (v : W16) : Told s (putHealth s o cls v) := epPut_told ..

theorem raise_told (s : State) (src : SrcIx) (detail : W32) : Told s (raise s src detail) :=
  ⟨.of_eq ((raise_moves ..).same.img rfl), raise_queued ..⟩

theorem Told.put {s t : State} (h : Told s t) (c : Prop) [Decidable c] (a : BitVec 20) (q cls : BitVec 4) (v : W16) :
    Told s (if c then epPut t a q cls v else t) := .ite (h.trans (epPut_told ..)) h

theorem putLamp_told (s : State) (n : Chan) : Told s (putLamp s n) :=
  Told.ite (.of_eq rfl rfl) (Told.ite (epPut_told ..) ((epPut_told ..).trans (raise_told ..)))

theorem putProving_told (s : State) (n : Chan) : Told s (putProving s n) :=
  Told.ite (.of_eq rfl rfl) (Told.put (epPut_told ..) _ _ _ _ _)

theorem putHartLive_told (s : State) (n : Chan) : Told s (putHartLive s n) := Told.put (.of_eq rfl rfl) _ _ _ _ _

theorem evalLamp_told (s : State) (n : Chan) : Told s (evalLamp s n) := by
  unfold evalLamp
  refine Told.ite (.of_eq rfl rfl) ?_
  dsimp only
  refine Told.trans ?_ (putHealth_told ..)
  split
  · exact Told.trans (Told.trans (Told.trans (by exact .of_eq rfl rfl) (putLamp_told _ n)) (putProving_told _ n)) (putLamp_told ..)
  · exact Told.trans (Told.trans (by exact .of_eq rfl rfl) (putLamp_told _ n)) (putProving_told _ n)

theorem putCommands_told (s : State) (n : Chan) : Told s (putCommands s n) :=
  Told.trans (Told.put (Told.put (Told.put (.of_eq rfl rfl) _ _ _ _ _) _ _ _ _ _) _ _ _ _ _) (putHartLive_told ..)

theorem refresh_told (s : State) (n : Chan) : Told s (refresh s n) := by
  have hh : ∀ a : State, Told a (putChanHealth a n) := fun a => epPut_told ..
  have hs : ∀ a : State, Told a (putChanState a n) := fun a => Told.ite (epPut_told ..) (Told.put (.of_eq rfl rfl) _ _ _ _ _)
  unfold refresh
  exact Told.trans (Told.trans (Told.trans (Told.trans (by exact .of_eq rfl rfl) (hh _)) (hs _)) (putCommands_told ..)) (evalLamp_told ..)

theorem refreshAll_told (s : State) : Told s (refreshAll s) := Told.foldl refresh_told _ _

theorem setUncert_told (s : State) (w : WheelIx) (b : Bool) : Told s (setUncert s w b) := by
  unfold setUncert
  exact Told.ite (.of_eq rfl rfl) (Told.trans (Told.trans (by exact .of_eq rfl rfl) (putHealth_told ..)) (refreshAll_told _))

theorem setWheel_told (s : State) (w : WheelIx) (st : WState) : Told s (setWheel s w st) := by
  unfold setWheel
  refine Told.ite (.of_eq rfl rfl) ?_
  extract_lets +onlyGivenNames s1 s2 s3
  have h2 : Told s s2 := by
    refine Told.trans (t := s1) (.of_eq rfl rfl) ?_
    unfold s2
    split
    · exact setUncert_told ..
    · exact setUncert_told ..
    · exact setUncert_told ..
    · exact setUncert_told ..
    · exact .of_eq rfl rfl
  have h3 : Told s s3 := Told.trans (Told.trans h2 (putHealth_told ..)) (raise_told ..)
  exact Told.ite (h3.trans (raise_told ..)) h3

theorem wheelsOfPort_told (s : State) (k : PortIx) : Told s (wheelsOfPort s k) := by
  refine Told.foldl (fun a w => Told.ite ?_ (.of_eq rfl rfl)) _ _
  unfold wheelLost
  exact Told.ite (Told.trans (by exact .of_eq rfl rfl) (setWheel_told ..)) (.of_eq rfl rfl)

/-! ## The entries that name a lost port -/

theorem copiesNoComm_shown (s : State) (e : GroupEntry) : ImgShown s (copiesNoComm s e) := by
  have hf : ∀ (l : List (Nat × W32)) (a : State), ImgShown a (l.foldl (fun a c => noteChange a (BitVec.ofNat 20 c.1)) a) := fun l => by
    induction l with
    | nil => exact fun _ => .of_eq rfl
    | cons c l ih => exact fun a => (noteChange_shown a _).trans (ih _)
  exact ImgShown.ite (.of_eq rfl) ((hf _ s).trans rfl)

/-- An entry whose port is lost (11 R306). -/
def lostEntry (x : EntryState) : EntryState := { x with state := 2, outside := false, losses := satInc x.losses }

theorem entryLost_entry (s : State) (j : Fin 256) (e : GroupEntry) :
    (entryLost s j e).img.entry[j].state = 2 ∧ ∀ m : Fin 256, m ≠ j → (entryLost s j e).img.entry[m] = s.img.entry[m] := by
  have h : (entryLost s j e).img.entry = modAt s.img.entry j lostEntry := by
    unfold entryLost
    rw [(raiseMember_moves ..).same.img rfl]
    exact congrArg (modAt · j lostEntry) ((copiesNoComm_shown s e).get ImageState.entry fun _ _ _ _ => rfl)
  exact ⟨by rw [h, modAt_self]; rfl, fun m hm => by rw [h, modAt_of_ne _ _ hm]⟩

theorem entriesLost_entry (s : State) (k : PortIx) {je : Fin 256 × GroupEntry} (hm : je ∈ s.entries) (hk : je.2.port = k) :
    (entriesLost s k).img.entry[je.1].state = 2 := by
  have hstep : ∀ (a : State) (x : Fin 256 × GroupEntry), a.img.entry[je.1].state = 2 →
      (if x.2.port = k then entryLost a x.1 x.2 else a).img.entry[je.1].state = 2 := fun a x ha => by
    by_cases hx : x.2.port = k
    · simp only [if_pos hx]
      by_cases hj : je.1 = x.1
      · simp only [hj]
        exact (entryLost_entry a x.1 x.2).1
      · exact (congrArg EntryState.state ((entryLost_entry a x.1 x.2).2 je.1 hj)).trans ha
    · simp only [if_neg hx]
      exact ha
  have hkeep : ∀ (l : List (Fin 256 × GroupEntry)) (a : State), a.img.entry[je.1].state = 2 →
      (l.foldl (fun a x => if x.2.port = k then entryLost a x.1 x.2 else a) a).img.entry[je.1].state = 2 := fun l => by
    induction l with
    | nil => exact fun _ h => h
    | cons x l ih => exact fun a h => ih _ (hstep a x h)
  obtain ⟨l1, l2, hl⟩ := List.append_of_mem hm
  unfold entriesLost
  rw [hl, List.foldl_append, List.foldl_cons]
  refine hkeep l2 _ ?_
  simp only [if_pos hk]
  exact (entryLost_entry _ je.1 je.2).1

theorem entriesLost_queued (s : State) (k : PortIx) : PortsQueued s (entriesLost s k) := by
  refine PortsQueued.foldl (fun a x => PortsQueued.ite ?_ (.of_eq rfl)) _ _
  unfold entryLost
  refine PortsQueued.trans (.of_eq ?_) (raise_queued ..)
  exact (copiesNoComm_moves a x.2).same.port rfl

theorem portReinit_up {s : State} {k : PortIx} (h : s.port[k].state = .up) (cause : BitVec 4) :
    portReinit s k cause = wheelsOfPort (entriesLost (portTold s k cause .down) k) k := portLeave_up h cause .down

theorem portReinit_queued {s : State} {k : PortIx} (h : s.port[k].state = .up) (cause : BitVec 4) :
    PortsQueued (portTold s k cause .down) (portReinit s k cause) := by
  rw [portReinit_up h]
  exact (entriesLost_queued ..).trans (wheelsOfPort_told ..).port

/-- An UP port re-initialised is cleared. -/
theorem portReinit_self {s : State} {k : PortIx} (h : s.port[k].state = .up) (cause : BitVec 4) :
    PortQueued (clearedPort (dropHolds s k).port[k] cause .down) (portReinit s k cause).port[k] := by
  have h1 := portTold_self s k cause .down
  have h2 := (portReinit_queued h cause).port k
  unfold PortQueued at h1 h2 ⊢
  rw [h2, h1]

/-- An UP port re-initialised is lost for the cause. -/
theorem portReinit_lost {s : State} {k : PortIx} (h : s.port[k].state = .up) (cause : BitVec 4) : PortLost k cause s (portReinit s k cause) := by
  have hself := portReinit_self h cause
  refine ⟨hself.get (·.state) fun _ => rfl, hself.get (·.lastCause) fun _ => rfl, (hself.get (·.reinits) fun _ => rfl).trans
    (congrArg satInc ((dropHolds_books s k k).get (·.reinits) fun _ => rfl)), hself.get (·.req.credits) fun _ => rfl,
      hself.get (·.buffered) fun _ => rfl, fun je hm hk => ?_,
    fun j hj => (((portReinit_queued h cause).port j).get (·.state) fun _ => rfl).trans (portTold_state_others s k cause .down hj),
    (portReinit_moves s k cause).same.widen rfl⟩
  have hent : (portTold s k cause .down).entries = s.entries := by
    unfold State.entries State.group
    rw [(portTold_moves s k cause .down).same.boot rfl, (portEmptied_same s k cause .down).boot rfl]
  rw [portReinit_up h, (wheelsOfPort_told ..).img.get ImageState.entry fun _ _ _ _ => rfl]
  exact entriesLost_entry _ k (by rw [hent]; exact hm) hk

theorem clearOut_self (s : State) (k : PortIx) : (clearOut s).port[k].state = s.port[k].state := by rw [clearOut_port]

/-- A port that is lost behind a silent line. -/
theorem PortLost.clear {s t : State} {k : PortIx} {cause : BitVec 4} (h : PortLost k cause (clearOut s) t) : PortLost k cause s t := by
  obtain ⟨h1, h2, h3, h4, h5, h6, h7, h8⟩ := h
  rw [clearOut_port] at h3
  exact ⟨h1, h2, h3, h4, h5, h6, fun j hj => by rw [h7 j hj, clearOut_port], h8.step rfl ((clearOut_moves s).same.widen rfl)⟩

theorem completes_lost {s : State} {k : PortIx} {cause : BitVec 4} {c : Instr} (h : s.port[k].state = .up)
    (e : exec c s = .next (portReinit (clearOut s) k cause)) : Completes c s (PortLost k cause s) :=
  ⟨_, e, (portReinit_lost ((clearOut_self s k).trans h) cause).clear⟩

theorem completes_codeViolation {s : State} {k : PortIx} {l : List W64} (h : s.port[k].state = .up)
    (hl : l = s.tick :: s.port[k].viols.filter (fun t => s.since t < msTicks 1)) :
    (l.length < 64 → exec (.codeViolation k) s = .next (s.modPort k fun p => { p with viols := l })) ∧
    (64 ≤ l.length → Completes (.codeViolation k) s (PortLost k 2 s)) := by
  have e : exec (.codeViolation k) s =
      .next (if l.length < 64 then s.modPort k fun p => { p with viols := l } else portReinit (clearOut s) k 2) := by
    rw [hl]
    exact congrArg Host.Outcome.next (if_neg (not_not.mpr h))
  exact ⟨fun hn => by rw [e, if_pos hn], fun hn => completes_lost h (by rw [e, if_neg (Nat.not_lt.mpr hn)])⟩

/-! ## Controls -/

theorem upBySymbol_up {s : State} {k : PortIx} (h : s.port[k].state = .up) : upBySymbol s k = s := if_neg (by rw [h]; exact Bool.false_ne_true)

/-- A control symbol of an UP port: taken, or counted as an error (13 R346). -/
theorem takeControl_up {s : State} {k : PortIx} (h : s.port[k].state = .up) (ok : Bool) (f : State → State) :
    takeControl s k ok f = if ok then f (clearOut s) else ctlError (clearOut s) k := by
  have hc := (clearOut_self s k).trans h
  unfold takeControl
  rw [upBySymbol_up hc, if_neg (by rw [hc]; decide)]
  cases ok
  · rfl
  · exact if_pos hc

theorem modCls_cls (p : Port) (c : LinkClass) (f : PortClass → PortClass) :
    (p.modCls c f).cls c = f (p.cls c) ∧ ∀ d, d ≠ c → (p.modCls c f).cls d = p.cls d := by
  refine ⟨by cases c <;> rfl, fun d hd => ?_⟩
  cases c <;> cases d <;> simp [Port.modCls, Port.cls] at hd ⊢

/-- A symbol that fails its check is counted, and no class's books move. -/
theorem completes_ctlError {s : State} {k : PortIx} {c : Instr} (e : exec c s = .next (ctlError (clearOut s) k)) :
    Completes c s fun t =>
      t.port[k].ctlErr = satInc s.port[k].ctlErr ∧ (∀ d, t.port[k].cls d = s.port[k].cls d) ∧ SameOutside [.port] s t := by
  have hp : (ctlError (clearOut s) k).port[k] = { s.port[k] with out := [], ctlErr := satInc s.port[k].ctlErr } := by
    rw [ctlError, modPort_self, clearOut_port]
  refine ⟨_, e, by rw [hp], fun d => ?_, (SameOutside.set_port _ _).step rfl ((clearOut_moves s).same.widen rfl)⟩
  rw [hp]
  cases d <;> rfl

theorem completes_crt {s : State} {k : PortIx} {v : Byte} {c : LinkClass} (h : s.port[k].state = .up)
    (hc : classOf (field v 6 2 : BitVec 2).toNat = some c) :
    Completes (.crt k v (~~~v)) s fun t =>
      (t.port[k].cls c).credits = (s.port[k].cls c).credits + ((field v 3 3 : BitVec 3).toNat + 1) ∧
      (∀ d, d ≠ c → t.port[k].cls d = s.port[k].cls d) ∧ t.port[k].ctlErr = s.port[k].ctlErr ∧ SameOutside [.port] s t := by
  let n := (field v 3 3 : BitVec 3).toNat + 1
  let f : Port → Port := fun p => p.modCls c fun x => { x with credits := x.credits + n, rcv := x.rcv + BitVec.ofNat 8 n }
  have e : exec (.crt k v (~~~v)) s = .next ((clearOut s).modPort k f) := by
    show execCrt k v (~~~v) s = _
    unfold execCrt
    rw [takeControl_up h, if_pos (decide_eq_true rfl), hc]
  have hp : ((clearOut s).modPort k f).port[k] = f { s.port[k] with out := [] } := by rw [modPort_self, clearOut_port]
  obtain ⟨h1, h2⟩ := modCls_cls { s.port[k] with out := [] } c fun x => { x with credits := x.credits + n, rcv := x.rcv + BitVec.ofNat 8 n }
  have hcls : ∀ d, ({ s.port[k] with out := [] } : Port).cls d = s.port[k].cls d := fun d => by cases d <;> rfl
  refine ⟨_, e, ?_, fun d hd => ?_, ?_, (SameOutside.set_port _ _).step rfl ((clearOut_moves s).same.widen rfl)⟩
  · rw [hp, h1, hcls]
  · rw [hp, h2 d hd, hcls]
  · rw [hp]
    exact (modCls_books ..).get (·.ctlErr) fun _ => rfl

theorem freeUnits_unacked (p : Port) (c : LinkClass) (units : Nat) (tick : W64) (d : LinkClass) :
    ((freeUnits p c units tick).cls d).unacked = (p.cls d).unacked := by
  cases c <;> cases d <;> rfl

theorem freeHeld_unacked (s : State) (f : TxFrame) (j : PortIx) (d : LinkClass) :
    ((freeHeld s f).port[j].cls d).unacked = (s.port[j].cls d).unacked := by
  have hm : ∀ (x : PortIx) (u : Nat), ((s.modPort x fun p => freeUnits (p.modCls .urgent fun y => { y with occupied := y.occupied - u })
      .urgent u s.tick).port[j].cls d).unacked = (s.port[j].cls d).unacked := fun x u => by
    rw [State.modPort_port, modAt_get]
    split
    next h =>
      rw [freeUnits_unacked, h]
      cases d <;> rfl
    next => rfl
  unfold freeHeld
  split
  · split
    · exact hm ..
    · rfl
  · rfl

theorem foldl_freeHeld_unacked (l : List TxFrame) (s : State) (j : PortIx) (d : LinkClass) :
    ((l.foldl freeHeld s).port[j].cls d).unacked = (s.port[j].cls d).unacked := by
  induction l generalizing s with
  | nil => rfl
  | cons f l ih => exact (ih _).trans (freeHeld_unacked s f j d)

theorem foldl_freeHeld_none {l : List TxFrame} (h : ∀ f ∈ l, f.hold = none) (s : State) : l.foldl freeHeld s = s := by
  induction l generalizing s with
  | nil => rfl
  | cons f l ih =>
    have hf : freeHeld s f = s := by
      unfold freeHeld
      rw [h f List.mem_cons_self]
    rw [List.foldl_cons, hf]
    exact ih (fun g hg => h g (List.mem_cons_of_mem _ hg)) s

/-- The frames of class `c` from `i` on wait for their acknowledgement no longer. -/
def ackTaken (s : State) (k : PortIx) (c : LinkClass) (i : Nat) : State :=
  (clearOut s).modPort k fun p => p.modCls c fun x => { x with unacked := (s.port[k].cls c).unacked.drop (i + 1) }

theorem ackTaken_self (s : State) (k : PortIx) (c : LinkClass) (i : Nat) :
    ((ackTaken s k c i).port[k].cls c).unacked = (s.port[k].cls c).unacked.drop (i + 1) ∧
    ∀ d, d ≠ c → (ackTaken s k c i).port[k].cls d = s.port[k].cls d := by
  have hp : (ackTaken s k c i).port[k] = { s.port[k] with out := [] }.modCls c
      fun x => { x with unacked := (s.port[k].cls c).unacked.drop (i + 1) } := by
    rw [ackTaken, modPort_self, clearOut_port]
  rw [hp]
  refine ⟨by rw [(modCls_cls ..).1], fun d hd => ?_⟩
  rw [(modCls_cls ..).2 d hd]
  cases d <;> rfl

theorem ackTaken_others (s : State) (k : PortIx) (c : LinkClass) (i : Nat) {j : PortIx} (h : j ≠ k) :
    (ackTaken s k c i).port[j] = { s.port[j] with out := [] } := by rw [ackTaken, modPort_others _ _ h, clearOut_port]

theorem completes_ack {s : State} {k : PortIx} {c : LinkClass} {q : Byte} {i : Nat} (h : s.port[k].state = .up)
    (hi : (s.port[k].cls c).unacked.findIdx? (fun f => f.fseq = q) = some i) :
    Completes (.ack k c q) s fun t =>
      (t.port[k].cls c).unacked = (s.port[k].cls c).unacked.drop (i + 1) ∧
      ((∀ f ∈ (s.port[k].cls c).unacked.take (i + 1), f.hold = none) →
        (∀ d, d ≠ c → t.port[k].cls d = s.port[k].cls d) ∧ ∀ j : PortIx, j ≠ k → t.port[j] = { s.port[j] with out := [] }) ∧
      (∀ f j u, (s.port[k].cls c).unacked.take (i + 1) = [f] → f.hold = some (j, u) → j ≠ k → s.port[j].state = .up →
        t.port[j].urg.occupied = s.port[j].urg.occupied - u ∧ t.port[j].out = [.crt (crtBytes .urgent u)]) ∧
      SameOutside [.port] s t := by
  have hcls : ((clearOut s).port[k].cls c).unacked = (s.port[k].cls c).unacked := by
    rw [clearOut_port]
    cases c <;> rfl
  have e : exec (.ack k c q) s = .next (((s.port[k].cls c).unacked.take (i + 1)).foldl freeHeld (ackTaken s k c i)) := by
    show execAck k c q s = _
    unfold execAck
    rw [takeControl_up h, if_pos rfl]
    dsimp only
    rw [hcls, hi]
    rfl
  obtain ⟨h1, h2⟩ := ackTaken_self s k c i
  have hsame : SameOutside [.port] s (((s.port[k].cls c).unacked.take (i + 1)).foldl freeHeld (ackTaken s k c i)) :=
    (Moves.foldl (fun a f => freeHeld_moves a f) (Moves.refl _) : Moves [.port] (ackTaken s k c i) _).same.step rfl
      ((SameOutside.set_port _ _).step rfl ((clearOut_moves s).same.widen rfl))
  refine ⟨_, e, (foldl_freeHeld_unacked ..).trans h1, fun hn => ?_, fun f j u hl hf hj hu => ?_, hsame⟩
  · rw [foldl_freeHeld_none hn]
    exact ⟨h2, fun j hj => ackTaken_others s k c i hj⟩
  · have ho := ackTaken_others s k c i hj
    have hfree : freeHeld (ackTaken s k c i) f = (ackTaken s k c i).modPort j fun p =>
        freeUnits (p.modCls .urgent fun x => { x with occupied := x.occupied - u }) .urgent u s.tick := by
      unfold freeHeld
      rw [hf]
      exact if_pos (by rw [ho]; exact hu)
    rw [hl, List.foldl_cons, hfree, List.foldl_nil, modPort_self, ho]
    exact ⟨rfl, rfl⟩

theorem completes_censusSend {s : State} {k : PortIx} (h : s.port[k].state = .up) :
    Completes (.censusSend k) s fun t =>
      t.port[k].out = [.cen (cenBytes ([s.port[k].req.credits, s.port[k].rsp.credits, s.port[k].urg.credits].map (BitVec.ofNat 8) ++
        [s.port[k].req.rcv, s.port[k].rsp.rcv, s.port[k].urg.rcv]))] ∧ (∀ d, t.port[k].cls d = s.port[k].cls d) ∧ SameOutside [.port] s t := by
  have e : exec (.censusSend k) s = .next (s.modPort k fun p =>
      { p with out := [.cen (cenBytes ([p.req.credits, p.rsp.credits, p.urg.credits].map (BitVec.ofNat 8) ++ [p.req.rcv, p.rsp.rcv, p.urg.rcv]))] }) :=
    congrArg Host.Outcome.next (if_neg (not_not.mpr h))
  refine ⟨_, e, by rw [modPort_self], fun d => ?_, SameOutside.set_port _ _⟩
  rw [modPort_self]
  cases d <;> rfl

/-- A census whose check value passes is held against the port's own books. -/
theorem exec_cen {s : State} {k : PortIx} (h : s.port[k].state = .up) {hq hp hu rq rp ru : Byte} {good : Bool}
    (hg : good = (censusOk s s.port[k] .request hq.toNat rq && censusOk s s.port[k] .response hp.toNat rp &&
      censusOk s s.port[k] .urgent hu.toNat ru)) :
    exec (.cen k hq hp hu rq rp ru (crc8 [hq, hp, hu, rq, rp, ru])) s = .next (if good then clearOut s else
      portReinit (if (clearOut s).port[k].censusFail = 15 then (clearOut s).modPort k fun p => { p with censusFail := satInc p.censusFail }
        else raiseLinkErr ((clearOut s).modPort k fun p => { p with censusFail := satInc p.censusFail }) k) k 3) := by
  have hok : ∀ c n r, censusOk (clearOut s) (clearOut s).port[k] c n r = censusOk s s.port[k] c n r := fun c n r => by
    rw [clearOut_port]
    cases c <;> rfl
  show execCen k hq hp hu rq rp ru _ s = _
  unfold execCen
  rw [takeControl_up h, if_pos (decide_eq_true rfl)]
  dsimp only
  rw [hok, hok, hok, ← hg]

theorem completes_cen_bad {s : State} {k : PortIx} (h : s.port[k].state = .up) {hq hp hu rq rp ru ck : Byte} {good : Bool}
    (hg : good = (censusOk s s.port[k] .request hq.toNat rq && censusOk s s.port[k] .response hp.toNat rp &&
      censusOk s s.port[k] .urgent hu.toNat ru)) (hck : ck = crc8 [hq, hp, hu, rq, rp, ru]) (hb : good = false) :
    Completes (.cen k hq hp hu rq rp ru ck) s fun t =>
      t.port[k].state = .down ∧ t.port[k].lastCause = 3 ∧ t.port[k].censusFail = satInc s.port[k].censusFail ∧
      SameOutside [.ch, .ev, .img, .port, .rul, .wheel] s t := by
  subst hck
  have e := exec_cen h hg
  rw [hb, if_neg Bool.false_ne_true] at e
  let s1 := (clearOut s).modPort k fun p => { p with censusFail := satInc p.censusFail }
  let s2 := if (clearOut s).port[k].censusFail = 15 then s1 else raiseLinkErr s1 k
  have hq2 : PortsQueued s1 s2 := PortsQueued.ite (.of_eq rfl) (raiseLinkErr_queued ..)
  have hk := hq2.port k
  rw [modPort_self, clearOut_port] at hk
  have hup : s2.port[k].state = .up := (hk.get (·.state) fun _ => rfl).trans h
  obtain ⟨h1, h2, -⟩ := portReinit_lost hup 3
  have hcf : (clearedPort (dropHolds s2 k).port[k] 3 .down).censusFail = satInc s.port[k].censusFail :=
    ((dropHolds_books s2 k k).get (·.censusFail) fun _ => rfl).trans (hk.get (·.censusFail) fun _ => rfl)
  exact ⟨_, e, h1, h2, ((portReinit_self hup 3).get (·.censusFail) fun _ => rfl).trans hcf, (execCen_ends ..).same e |>.widen rfl⟩

theorem completes_cen_good {s : State} {k : PortIx} (h : s.port[k].state = .up) {hq hp hu rq rp ru ck : Byte} {good : Bool}
    (hg : good = (censusOk s s.port[k] .request hq.toNat rq && censusOk s s.port[k] .response hp.toNat rp &&
      censusOk s s.port[k] .urgent hu.toNat ru)) (hck : ck = crc8 [hq, hp, hu, rq, rp, ru]) (hb : good = true) :
    Completes (.cen k hq hp hu rq rp ru ck) s fun t =>
      t.port[k].state = .up ∧ t.port[k].censusFail = s.port[k].censusFail ∧ (∀ d, t.port[k].cls d = s.port[k].cls d) ∧
      SameOutside [.port] s t := by
  subst hck
  have e := exec_cen h hg
  rw [hb, if_pos rfl] at e
  refine ⟨_, e, (clearOut_self s k).trans h, by rw [clearOut_port], fun d => ?_, (clearOut_moves s).same⟩
  rw [clearOut_port]
  cases d <;> rfl

/-- Settles O32: the causes of a loss share `portReinit_lost`, and the controls act on the books of the classes alone. -/
theorem portLossesAndControls : Obligations.PortLossesAndControls := by
  refine ⟨fun s k l h hl => ⟨completes_lost h (congrArg Host.Outcome.next (if_pos h)), (completes_codeViolation h hl).1,
    (completes_codeViolation h hl).2, completes_lost h (congrArg Host.Outcome.next (if_pos h))⟩,
    fun s k h => ⟨fun v c => completes_crt h, fun v check hv => completes_ctlError ?_, fun c q i => completes_ack h, completes_censusSend h,
      fun hq hp hu rq rp ru ck good hg => ⟨completes_cen_bad h hg, completes_cen_good h hg, fun hck => completes_ctlError ?_⟩⟩⟩
  · exact congrArg Host.Outcome.next ((takeControl_up h ..).trans (if_neg (by rw [decide_eq_false hv]; decide)))
  · exact congrArg Host.Outcome.next ((takeControl_up h ..).trans (if_neg (by rw [decide_eq_false (Ne.symm hck)]; decide)))

end Sys2Proof.Machine
end

section
/-! Delay exchanges and time-reference marks (13 R346, R356, R357). -/
namespace Sys2Proof.Machine

/-- A command that changes port `k` alone, on silent lines. -/
theorem completes_onPort {s : State} {k : PortIx} {c : Instr} {f : Port → Port} {P : State → Prop}
    (e : exec c s = .next ((clearOut s).modPort k f))
    (h : ∀ t : State, t.port[k] = f { s.port[k] with out := [] } → SameOutside [.port] s t → P t) : Completes c s P :=
  ⟨_, e, h _ (by rw [modPort_self, clearOut_port]) ((SameOutside.set_port _ _).step rfl ((clearOut_moves s).same.widen rfl))⟩

theorem completes_delayExchange {s : State} {k : PortIx} (h : s.port[k].state = .up) (t1 : Int) :
    Completes (.delayExchange k t1) s fun t =>
      t.port[k].exchOpen = some (s.port[k].exchSeq, t1) ∧ t.port[k].exchSeq = s.port[k].exchSeq + 1 ∧
      t.port[k].out = [.mark (markBytes 0 s.port[k].exchSeq)] ∧ SameOutside [.port] s t := by
  have e : exec (.delayExchange k t1) s = .next (s.modPort k fun p =>
      { p with exchOpen := some (p.exchSeq, t1), exchSeq := p.exchSeq + 1, out := [.mark (markBytes 0 p.exchSeq)] }) :=
    congrArg Host.Outcome.next (if_neg (by rw [h]; simp))
  refine ⟨_, e, ?_, ?_, ?_, SameOutside.set_port _ _⟩
  all_goals rw [modPort_self]

theorem completes_markDelayRequest {s : State} {k : PortIx} (h : s.port[k].state = .up) (v : BitVec 24) (ck : Byte) (turn : BitVec 24) :
    Completes (.markDelayRequest k v ck turn) s fun t =>
      (markOk 0 v ck = true → t.port[k].out = [.mark (markBytes 1 turn)] ∧ t.port[k].ctlErr = s.port[k].ctlErr) ∧
      (markOk 0 v ck = false → t.port[k].out = [] ∧ t.port[k].ctlErr = satInc s.port[k].ctlErr) ∧ SameOutside [.port] s t := by
  have hc := (clearOut_self s k).trans h
  have e : exec (.markDelayRequest k v ck turn) s = .next (if !markOk 0 v ck then ctlError (clearOut s) k
      else putOut (clearOut s) k (.mark (markBytes 1 turn))) := by
    show execMarkDelayRequest k v ck turn s = _
    unfold execMarkDelayRequest
    rw [upBySymbol_up hc]
    exact congrArg Host.Outcome.next (if_neg (by rw [hc]; decide))
  cases hm : markOk 0 v ck
  · rw [hm, if_pos (by decide)] at e
    exact completes_onPort e fun t ht hsame => ⟨nofun, fun _ => by rw [ht]; exact ⟨rfl, rfl⟩, hsame⟩
  · rw [hm, if_neg (by decide)] at e
    exact completes_onPort e fun t ht hsame => ⟨fun _ => by rw [ht]; exact ⟨rfl, rfl⟩, nofun, hsame⟩

/-- A round trip judged: kept, or rejected; the exchange is over (13 R356). -/
def rttJudged (p : Port) (rtt : Int) : Port :=
  { (if keptRtt p rtt then keepRtt p rtt else { p with rej := satInc p.rej }) with exchOpen := none }

theorem completes_markDelayResponse {s : State} {k : PortIx} (h : s.port[k].state = .up) {turn : BitVec 24} {ck : Byte} {t4 t1 : Int}
    {q : BitVec 24} (ho : s.port[k].exchOpen = some (q, t1)) (hm : markOk 1 turn ck = true) :
    Completes (.markDelayResponse k turn ck t4) s fun t =>
      t.port[k].exchOpen = none ∧
      (keptRtt s.port[k] ((t4 - t1) - turn.toNat) = true →
        t.port[k].rtts = (((t4 - t1) - turn.toNat : Int) :: s.port[k].rtts).take 8 ∧ t.port[k].rej = s.port[k].rej ∧
        t.port[k].delay = satNat 16 (divRound ((((t4 - t1) - turn.toNat : Int) :: s.port[k].rtts).take 8).sum 16).toNat) ∧
      (keptRtt s.port[k] ((t4 - t1) - turn.toNat) = false →
        t.port[k].rej = satInc s.port[k].rej ∧ t.port[k].delay = s.port[k].delay ∧ t.port[k].rtts = s.port[k].rtts) ∧
      SameOutside [.port] s t := by
  have hc := (clearOut_self s k).trans h
  have hoc : (clearOut s).port[k].exchOpen = some (q, t1) := by
    rw [clearOut_port]
    exact ho
  let f (p : Port) : Port :=
    let q := rttJudged p ((t4 - t1) - turn.toNat)
    if p.state = .training then { q with exchanges := p.exchanges + 1, ready := decide (8 ≤ p.exchanges + 1) } else q
  have e : exec (.markDelayResponse k turn ck t4) s = .next ((clearOut s).modPort k f) := by
    show execMarkDelayResponse k turn ck t4 s = _
    unfold execMarkDelayResponse
    rw [upBySymbol_up hc]
    dsimp only
    rw [if_neg (by rw [hc]; decide), if_neg (by rw [hm]; decide), hoc]
    rfl
  have hf : ∀ p : Port, p.state = .up → f p = rttJudged p ((t4 - t1) - turn.toNat) := fun p hp => if_neg (by rw [hp]; decide)
  refine completes_onPort e fun t ht hsame => ?_
  have hk : keptRtt { s.port[k] with out := [] } ((t4 - t1) - turn.toNat) = keptRtt s.port[k] ((t4 - t1) - turn.toNat) := rfl
  rw [hf _ (by exact h), rttJudged, hk] at ht
  rw [ht]
  cases keptRtt s.port[k] ((t4 - t1) - turn.toNat)
  · exact ⟨rfl, nofun, fun _ => ⟨rfl, rfl, rfl⟩, hsame⟩
  · exact ⟨rfl, fun _ => ⟨rfl, rfl, rfl⟩, nofun, hsame⟩

theorem completes_markTimeReference {s : State} {k : PortIx} (h : s.port[k].state = .up) {v : BitVec 24} {ck ns : Byte}
    (hm : markOk 2 v ck = true) :
    Completes (.markTimeReference k v ck ns) s fun t =>
      t.port[k].mark = some (v, s.tick, ns) ∧ t.port[k].ctlErr = s.port[k].ctlErr ∧ SameOutside [.port] s t :=
  completes_onPort (congrArg Host.Outcome.next ((takeControl_up h ..).trans (if_pos hm))) fun t ht hsame => by
    rw [ht]
    exact ⟨rfl, rfl, hsame⟩

/-- Settles O33: each mark of an UP port is an update of that port alone. -/
theorem delayAndTimeMarks : Obligations.DelayAndTimeMarks :=
  fun _ _ h => ⟨completes_delayExchange h, completes_markDelayRequest h, fun _ _ _ _ _ ho hm => completes_markDelayResponse h ho hm,
    fun _ _ _ hm => completes_markTimeReference h hm⟩

end Sys2Proof.Machine
end

section
/-! Frames sent for credits, and sent again (13 R359–R361, R366, R367). -/
namespace Sys2Proof.Machine

/-! ## Retransmissions -/

/-- What goes again keeps its numbers, and takes its units from the credits. -/
theorem resend_bounds (l : List TxFrame) (n : Nat) : (resend l n).1.map (·.fseq) = l.map (·.fseq) ∧ (resend l n).2.1 ≤ n := by
  induction l generalizing n with
  | nil => exact ⟨rfl, Nat.le_refl _⟩
  | cons f l ih =>
    unfold resend
    split
    · exact ⟨congrArg (f.fseq :: ·) (ih n).1, (ih n).2⟩
    · split
      · exact ⟨congrArg (f.fseq :: ·) (ih _).1, (ih _).2.trans (Nat.sub_le ..)⟩
      · exact ⟨rfl, Nat.le_refl _⟩

/-- The first frame that waits to go again takes its units. -/
theorem resend_first {l : List TxFrame} {n : Nat} {f : TxFrame} (hf : l.find? (·.again) = some f) (hn : txUnits f ≤ n) :
    (resend l n).2.1 + txUnits f ≤ n := by
  induction l with
  | nil => cases hf
  | cons g l ih =>
    unfold resend
    by_cases hg : g.again = true
    · obtain rfl : g = f := Option.some.inj ((List.find?_cons_of_pos hg).symm.trans hf)
      rw [if_neg (by rw [hg]; decide), if_pos hn]
      have h := (resend_bounds l (n - txUnits g)).2
      show (resend l (n - txUnits g)).2.1 + txUnits g ≤ n
      omega
    · rw [if_pos (by simpa using hg)]
      exact ih ((List.find?_cons_of_neg hg).symm.trans hf)

theorem resendClass_cls (s : State) (k : PortIx) (c : LinkClass) :
    (resendClass s k c).port[k].cls c = { s.port[k].cls c with
      unacked := (resend (s.port[k].cls c).unacked (s.port[k].cls c).credits).1
      credits := (resend (s.port[k].cls c).unacked (s.port[k].cls c).credits).2.1 } ∧
    (∀ d, d ≠ c → (resendClass s k c).port[k].cls d = s.port[k].cls d) ∧ (resendClass s k c).port[k].state = s.port[k].state := by
  rw [resendClass, modPort_self]
  refine ⟨by cases c <;> rfl, fun d hd => ?_, by cases c <;> rfl⟩
  cases c <;> cases d <;> simp [Port.modCls, Port.cls] at hd ⊢

/-! ## The next frame -/

theorem clearOut_cls (s : State) (k : PortIx) (c : LinkClass) : (clearOut s).port[k].cls c = s.port[k].cls c := by
  rw [clearOut_port]
  cases c <;> rfl

theorem find_again_none {s : State} {k : PortIx} {c : LinkClass} (h : NoneAgain s k c) :
    (s.port[k].cls c).unacked.find? (·.again) = none := by
  rw [List.find?_eq_none]
  exact fun x hx hxa => absurd (List.any_eq_true.mpr ⟨x, hx, hxa⟩) (by rw [h]; decide)

theorem sendClass_next {s : State} {k : PortIx} {c : LinkClass} {i : Nat} {f : TxFrame} (h : NoneAgain s k c)
    (hn : nextOf s k c = some (i, f)) : sendClass s k c = some (sendOf s k c i f) := by
  unfold sendClass
  dsimp only
  rw [find_again_none h, hn]
  rfl

theorem sendClass_empty {s : State} {k : PortIx} {c : LinkClass} (h : NoneAgain s k c) (hw : (s.port[k].cls c).waiting = []) :
    sendClass s k c = none := by
  have hn : nextOf s k c = none := by
    unfold nextOf
    rw [hw, ite_self]
    cases c <;> rfl
  unfold sendClass
  dsimp only
  rw [find_again_none h, hn]
  rfl

/-- The budget that `nextRequest` finds is one of the list's. -/
theorem nextRequest_mem {s : State} {k : PortIx} {l : List TxFrame} {i b : Nat} (h : nextRequest s k l = some (i, b)) :
    ∃ g, l[i]? = some g ∧ b = budgetNow s k g := by
  induction l generalizing i b with
  | nil => cases h
  | cons f l ih =>
    unfold nextRequest at h
    split at h
    next j c hj =>
      split at h
      · cases h
        exact ⟨f, rfl, rfl⟩
      · cases h
        exact ih hj
    next => 
      cases h
      exact ⟨f, rfl, rfl⟩

/-- The waiting request with the least budget, the earliest among equals, is the next. -/
theorem nextRequest_least {s : State} {k : PortIx} {l : List TxFrame} {i : Nat} {f : TxFrame} (hf : l[i]? = some f)
    (hl : ∀ j g, l[j]? = some g → budgetNow s k f ≤ budgetNow s k g ∧ (budgetNow s k g = budgetNow s k f → i ≤ j)) :
    nextRequest s k l = some (i, budgetNow s k f) := by
  induction l generalizing i with
  | nil => cases hf
  | cons x l ih =>
    unfold nextRequest
    cases i with
    | zero =>
      obtain rfl : x = f := Option.some.inj hf
      split
      next j c hj =>
        obtain ⟨g, hg, rfl⟩ := nextRequest_mem hj
        exact if_pos (hl (j + 1) g hg).1
      next => rfl
    | succ i =>
      rw [ih hf fun j g hg => ⟨(hl (j + 1) g hg).1, fun he => Nat.le_of_succ_le_succ ((hl (j + 1) g hg).2 he)⟩]
      dsimp only
      have h0 := hl 0 x rfl
      rw [if_neg fun h => absurd (h0.2 (Nat.le_antisymm h h0.1)) (Nat.not_succ_le_zero i)]

theorem nextOf_request {s : State} {k : PortIx} {i : Nat} {f : TxFrame} (h : NoneAgain s k .request)
    (hf : s.port[k].req.waiting[i]? = some f)
    (hl : ∀ j g, s.port[k].req.waiting[j]? = some g → budgetNow s k f ≤ budgetNow s k g ∧ (budgetNow s k g = budgetNow s k f → i ≤ j))
    (hu : txUnits f ≤ s.port[k].req.credits) : nextOf s k .request = some (i, f) := by
  unfold nextOf
  dsimp only
  rw [if_neg (by rw [h]; decide), show (s.port[k].cls .request).waiting = s.port[k].req.waiting from rfl, nextRequest_least hf hl]
  dsimp only [Option.map_some, Option.bind_some]
  rw [hf]
  exact if_pos hu

theorem sendOf_cls_others (s : State) (k : PortIx) {c d : LinkClass} (i : Nat) (f : TxFrame) (h : d ≠ c) :
    (sendOf s k c i f).port[k].cls d = s.port[k].cls d := by
  rw [sendOf, modPort_self]
  cases c <;> cases d <;> simp [Port.modCls, Port.cls] at h ⊢

/-! ## Sending -/

/-- The class of an UP port that goes out: the first with something to send (13 R359, R367). -/
theorem exec_linkFrameSend {s : State} {k : PortIx} (h : s.port[k].state = .up) :
    exec (.linkFrameSend k) s = .next (match sendClass (clearOut s) k .urgent with
      | some t => t
      | none => match sendClass (clearOut s) k .response with
        | some t => t
        | none => (sendClass (clearOut s) k .request).getD (clearOut s)) :=
  congrArg Host.Outcome.next (if_neg (not_not.mpr ((clearOut_self s k).trans h)))

theorem noneAgain_clear {s : State} {k : PortIx} {c : LinkClass} (h : NoneAgain s k c) : NoneAgain (clearOut s) k c := by
  unfold NoneAgain
  rw [clearOut_cls]
  exact h

theorem sendClass_urgent_none {s : State} {k : PortIx} {c : LinkClass} (h : NoneAgain s k c) (hw : (s.port[k].cls c).waiting = []) :
    sendClass (clearOut s) k c = none := sendClass_empty (noneAgain_clear h) (by rw [clearOut_cls, hw])

theorem nextOf_clear {s : State} {k : PortIx} {c : LinkClass} {f : TxFrame} {fs : List TxFrame} (hc : c ≠ .request) (ha : NoneAgain s k c)
    (hw : (s.port[k].cls c).waiting = f :: fs) (hu : txUnits f ≤ (s.port[k].cls c).credits) : nextOf (clearOut s) k c = some (0, f) :=
  nextOf_head hc (noneAgain_clear ha) (by rw [clearOut_cls, hw]) (by rw [clearOut_cls]; exact hu)

theorem sendOf_same (s : State) (k : PortIx) (c : LinkClass) (i : Nat) (f : TxFrame) : SameOutside [.port] s (sendOf (clearOut s) k c i f) :=
  (SameOutside.set_port _ _).step rfl ((clearOut_moves s).same.widen rfl)

theorem sendOf_others (s : State) {k j : PortIx} (c : LinkClass) (i : Nat) (f : TxFrame) (h : j ≠ k) :
    (sendOf (clearOut s) k c i f).port[j] = { s.port[j] with out := [] } := by rw [sendOf, modPort_others _ _ h, clearOut_port]

theorem departing_urgent (s : State) (k : PortIx) {m : LinkMsg} (h : m.cls = .urgent) : departing s k m = (m, []) := by
  cases m with
  | time => cases h
  | _ => rfl

theorem completes_sendUrgent {s : State} {k : PortIx} (h : s.port[k].state = .up) {f : TxFrame} {fs : List TxFrame} (ha : NoneAgain s k .urgent)
    (hw : s.port[k].urg.waiting = f :: fs) (hf : f.msg.cls = .urgent) (hu : txUnits f ≤ s.port[k].urg.credits) :
    Completes (.linkFrameSend k) s fun t =>
      t.port[k].urg.waiting = fs ∧ t.port[k].urg.credits = s.port[k].urg.credits - txUnits f ∧
      t.port[k].urg.txSeq = s.port[k].urg.txSeq + 1 ∧
      (∃ g : TxFrame, t.port[k].urg.unacked = s.port[k].urg.unacked ++ [g] ∧ t.port[k].out = [sent (s.linkCfg k).peerId g] ∧
        g.msg = f.msg ∧ g.fseq = s.port[k].urg.txSeq) ∧
      t.port[k].req = s.port[k].req ∧ t.port[k].rsp = s.port[k].rsp ∧ (∀ j : PortIx, j ≠ k → t.port[j] = { s.port[j] with out := [] }) ∧
      SameOutside [.port] s t := by
  have e := exec_linkFrameSend h
  rw [sendClass_next (noneAgain_clear ha) (nextOf_clear (by decide) ha hw hu)] at e
  obtain ⟨hc, ho, -⟩ := sendOf_port (clearOut s) k .urgent 0 f
  rw [clearOut_cls] at hc
  have hdep := departing_urgent (clearOut s) k hf
  have hurg : (sendOf (clearOut s) k .urgent 0 f).port[k].urg = _ := hc
  have hreq := sendOf_cls_others (clearOut s) k (c := .urgent) (d := .request) 0 f (by decide)
  have hrsp := sendOf_cls_others (clearOut s) k (c := .urgent) (d := .response) 0 f (by decide)
  rw [clearOut_cls] at hreq hrsp
  refine ⟨_, e, ?_, ?_, ?_, ⟨leaving (clearOut s) k .urgent f, ?_, ?_, ?_, ?_⟩, hreq, hrsp, fun j hj => sendOf_others s .urgent 0 f hj,
    sendOf_same s k .urgent 0 f⟩
  · rw [hurg]
    show s.port[k].urg.waiting.eraseIdx 0 = fs
    rw [hw]
    rfl
  · rw [hurg]
    rfl
  · rw [hurg]
    rfl
  · rw [hurg]
    rfl
  · rw [ho, hdep]
    rfl
  · exact congrArg Prod.fst hdep
  · exact congrArg PortClass.txSeq (clearOut_cls s k .urgent)

theorem completes_sendAgain {s : State} {k : PortIx} (h : s.port[k].state = .up) {f : TxFrame}
    (hf : s.port[k].urg.unacked.find? (·.again) = some f) (hu : txUnits f ≤ s.port[k].urg.credits) :
    Completes (.linkFrameSend k) s fun t =>
      t.port[k].urg.waiting = s.port[k].urg.waiting ∧ t.port[k].urg.txSeq = s.port[k].urg.txSeq ∧
      t.port[k].urg.unacked.map (·.fseq) = s.port[k].urg.unacked.map (·.fseq) ∧
      t.port[k].urg.credits + txUnits f ≤ s.port[k].urg.credits ∧ t.port[k].req = s.port[k].req ∧ t.port[k].rsp = s.port[k].rsp ∧
      SameOutside [.port] s t := by
  have e := exec_linkFrameSend h
  have hs : sendClass (clearOut s) k .urgent = some (resendClass (clearOut s) k .urgent) := by
    unfold sendClass
    dsimp only
    rw [clearOut_cls, show (s.port[k].cls .urgent).unacked = s.port[k].urg.unacked from rfl, hf]
    exact if_pos hu
  rw [hs] at e
  obtain ⟨hc, hd, -⟩ := resendClass_cls (clearOut s) k .urgent
  rw [clearOut_cls] at hc
  have hurg : (resendClass (clearOut s) k .urgent).port[k].urg = _ := hc
  have hreq := (hd .request (by decide)).trans (clearOut_cls s k _)
  have hrsp := (hd .response (by decide)).trans (clearOut_cls s k _)
  refine ⟨_, e, by rw [hurg]; rfl, by rw [hurg]; rfl, ?_, ?_, hreq, hrsp,
    (SameOutside.set_port _ _).step rfl ((clearOut_moves s).same.widen rfl)⟩
  · rw [hurg]
    exact (resend_bounds ..).1
  · rw [hurg]
    exact resend_first hf hu

theorem completes_sendResponse {s : State} {k : PortIx} (h : s.port[k].state = .up) {f : TxFrame} {fs : List TxFrame}
    (hau : NoneAgain s k .urgent) (ha : NoneAgain s k .response) (hwu : s.port[k].urg.waiting = []) (hw : s.port[k].rsp.waiting = f :: fs)
    (hu : txUnits f ≤ s.port[k].rsp.credits) :
    Completes (.linkFrameSend k) s fun t =>
      t.port[k].rsp.waiting = fs ∧ t.port[k].req = s.port[k].req ∧ t.port[k].urg = s.port[k].urg ∧ SameOutside [.port] s t := by
  have e := exec_linkFrameSend h
  rw [sendClass_urgent_none hau hwu, sendClass_next (noneAgain_clear ha) (nextOf_clear (by decide) ha hw hu)] at e
  obtain ⟨hc, -⟩ := sendOf_port (clearOut s) k .response 0 f
  rw [clearOut_cls] at hc
  have hrsp : (sendOf (clearOut s) k .response 0 f).port[k].rsp = _ := hc
  have hreq := (sendOf_cls_others (clearOut s) k (c := .response) (d := .request) 0 f (by decide)).trans (clearOut_cls s k _)
  have hurg := (sendOf_cls_others (clearOut s) k (c := .response) (d := .urgent) 0 f (by decide)).trans (clearOut_cls s k _)
  refine ⟨_, e, ?_, hreq, hurg, sendOf_same s k .response 0 f⟩
  rw [hrsp]
  show s.port[k].rsp.waiting.eraseIdx 0 = fs
  rw [hw]
  rfl

theorem completes_sendRequest {s : State} {k : PortIx} (h : s.port[k].state = .up) {i : Nat} {f : TxFrame} (ha : ∀ c, NoneAgain s k c)
    (hwu : s.port[k].urg.waiting = []) (hwr : s.port[k].rsp.waiting = []) (hf : s.port[k].req.waiting[i]? = some f)
    (hl : ∀ j g, s.port[k].req.waiting[j]? = some g → budgetNow s k f ≤ budgetNow s k g ∧ (budgetNow s k g = budgetNow s k f → i ≤ j))
    (hu : txUnits f ≤ s.port[k].req.credits) :
    Completes (.linkFrameSend k) s fun t =>
      t.port[k].req.waiting = s.port[k].req.waiting.eraseIdx i ∧ t.port[k].req.credits = s.port[k].req.credits - txUnits f ∧
      t.port[k].rsp = s.port[k].rsp ∧ t.port[k].urg = s.port[k].urg ∧ SameOutside [.port] s t := by
  have e := exec_linkFrameSend h
  have hcl : (clearOut s).port[k].req = s.port[k].req := clearOut_cls s k .request
  have hn : nextOf (clearOut s) k .request = some (i, f) :=
    nextOf_request (noneAgain_clear (ha _)) (by rw [hcl, hf]) (by rw [hcl]; exact hl) (by rw [hcl]; exact hu)
  rw [sendClass_urgent_none (ha .urgent) hwu, sendClass_urgent_none (ha .response) hwr, sendClass_next (noneAgain_clear (ha _)) hn] at e
  obtain ⟨hc, -⟩ := sendOf_port (clearOut s) k .request i f
  rw [clearOut_cls] at hc
  have hreq : (sendOf (clearOut s) k .request i f).port[k].req = _ := hc
  have hrsp := (sendOf_cls_others (clearOut s) k (c := .request) (d := .response) i f (by decide)).trans (clearOut_cls s k _)
  have hurg := (sendOf_cls_others (clearOut s) k (c := .request) (d := .urgent) i f (by decide)).trans (clearOut_cls s k _)
  exact ⟨_, e, congrArg PortClass.waiting hreq, congrArg PortClass.credits hreq, hrsp, hurg, sendOf_same s k .request i f⟩

/-! ## Sending again -/

/-- Every frame of a class that is not acknowledged waits to go again (13 R359). -/
def allAgain (x : PortClass) : PortClass := { x with unacked := x.unacked.map fun f => { f with again := true } }

theorem completes_retransmit {s : State} {k : PortIx} (h : s.port[k].state = .up) {c : LinkClass} (hn : (s.port[k].cls c).unacked ≠ [])
    (hs : ∀ f ∈ (s.port[k].cls c).unacked, f.sends < 16) :
    Completes (.linkRetransmit k c) s fun t =>
      (t.port[k].cls c).unacked.map (·.fseq) = (s.port[k].cls c).unacked.map (·.fseq) ∧
      (t.port[k].cls c).credits ≤ (s.port[k].cls c).credits ∧ (t.port[k].cls c).waiting = (s.port[k].cls c).waiting ∧
      t.port[k].state = .up ∧ (∀ d, d ≠ c → t.port[k].cls d = s.port[k].cls d) ∧ SameOutside [.port] s t := by
  let a := (clearOut s).modPort k fun p => p.modCls c allAgain
  have e : exec (.linkRetransmit k c) s = .next (resendClass a k c) := by
    show execLinkRetransmit k c s = _
    unfold execLinkRetransmit
    dsimp only
    rw [clearOut_cls, if_neg (by rw [clearOut_self, h, List.isEmpty_eq_false_iff.mpr hn]; decide), if_neg ?_]
    · rfl
    · rw [List.any_eq_true]
      rintro ⟨f, hf, h16⟩
      exact absurd (of_decide_eq_true h16) (Nat.not_le.mpr (hs f hf))
  obtain ⟨h1, h2, h3⟩ := resendClass_cls a k c
  obtain ⟨m1, m2⟩ := modCls_cls (clearOut s).port[k] c allAgain
  have ha : a.port[k] = (clearOut s).port[k].modCls c allAgain := modPort_self ..
  rw [ha, m1, clearOut_cls] at h1
  refine ⟨_, e, ?_, ?_, ?_, ?_, fun d hd => ?_, (SameOutside.set_port _ _).step rfl ((SameOutside.set_port _ _).step rfl
    ((clearOut_moves s).same.widen rfl))⟩
  · rw [h1]
    refine (resend_bounds ..).1.trans ?_
    rw [allAgain, List.map_map]
    rfl
  · rw [h1]
    exact (resend_bounds ..).2
  · rw [h1]
    rfl
  · rw [h3, ha]
    exact ((modCls_books ..).get (·.state) fun _ => rfl).trans ((clearOut_self s k).trans h)
  · rw [h2 d hd, ha, m2 d hd, clearOut_cls]

theorem completes_retransmit_down {s : State} {k : PortIx} (h : s.port[k].state = .up) {c : LinkClass} {f : TxFrame}
    (hf : f ∈ (s.port[k].cls c).unacked) (hs : 16 ≤ f.sends) :
    Completes (.linkRetransmit k c) s fun t =>
      t.port[k].state = .down ∧ t.port[k].lastCause = 5 ∧ SameOutside [.ch, .ev, .img, .port, .rul, .wheel] s t := by
  have e : exec (.linkRetransmit k c) s = .next (portReinit (clearOut s) k 5) := by
    show execLinkRetransmit k c s = _
    unfold execLinkRetransmit
    dsimp only
    rw [clearOut_cls, if_neg (by rw [clearOut_self, h, List.isEmpty_eq_false_iff.mpr (List.ne_nil_of_mem hf)]; decide),
      if_pos (List.any_eq_true.mpr ⟨f, hf, decide_eq_true hs⟩)]
  obtain ⟨t, e', h1, h2, -, -, -, -, -, h3⟩ := completes_lost h e
  exact ⟨t, e', h1, h2, h3⟩

/-- Settles O34: `sendClass` of the three classes in their order, and `resend` over the frames not acknowledged. -/
theorem framesSentAndSentAgain : Obligations.FramesSentAndSentAgain :=
  fun _ _ h => ⟨fun _ _ => completes_sendUrgent h, fun _ => completes_sendAgain h, fun _ _ => completes_sendResponse h,
    fun _ _ => completes_sendRequest h, fun _ => completes_retransmit h, fun _ _ => completes_retransmit_down h⟩

end Sys2Proof.Machine
end

section
/-! Writes, updates and fences taken from a port (11 R302, R304, R305, R310; 13 R352, R365). -/
namespace Sys2Proof.Machine

/-! ## A frame that a port takes -/

/-- Only what the class of a received frame counts differs: its number, the units returned for it, the count of frames, and the line. -/
def PortTaken (c d : Port) : Prop :=
  d = { c with req := { c.req with rxSeq := d.req.rxSeq, ret := d.req.ret, retHist := d.req.retHist }
               rsp := { c.rsp with rxSeq := d.rsp.rxSeq, ret := d.rsp.ret, retHist := d.rsp.retHist }
               urg := { c.urg with rxSeq := d.urg.rxSeq, ret := d.urg.ret, retHist := d.urg.retHist }, rxCnt := d.rxCnt, out := d.out }

theorem PortTaken.get {c d : Port} (h : PortTaken c d) {α : Type} (g : Port → α)
    (hg : ∀ e : Port, g { c with req := { c.req with rxSeq := e.req.rxSeq, ret := e.req.ret, retHist := e.req.retHist }
                                 rsp := { c.rsp with rxSeq := e.rsp.rxSeq, ret := e.rsp.ret, retHist := e.rsp.retHist }
                                 urg := { c.urg with rxSeq := e.urg.rxSeq, ret := e.urg.ret, retHist := e.urg.retHist }
                                 rxCnt := e.rxCnt, out := e.out } = g c) : g d = g c :=
  (congrArg g h).trans (hg d)

theorem PortTaken.trans {a b c : Port} (h : PortTaken a b) (k : PortTaken b c) : PortTaken a c := by
  unfold PortTaken at h k ⊢
  rw [k, h]

theorem modCls_taken (p : Port) (c : LinkClass) {f : PortClass → PortClass}
    (hf : ∀ x, f x = { x with rxSeq := (f x).rxSeq, ret := (f x).ret, retHist := (f x).retHist }) : PortTaken p (p.modCls c f) := by
  cases c
  · exact congrArg (fun x => { p with req := x }) (hf p.req)
  · exact congrArg (fun x => { p with rsp := x }) (hf p.rsp)
  · exact congrArg (fun x => { p with urg := x }) (hf p.urg)

theorem freeUnits_taken (p : Port) (c : LinkClass) (units : Nat) (tick : W64) : PortTaken p (freeUnits p c units tick) :=
  (modCls_taken p c fun _ => rfl).trans rfl

/-- Port `p` as it takes a frame: acknowledged, counted, and its units returned (13 R352, R361). -/
def takingFrame (p : Port) (h : LinkHeader) (tick : W64) : Port :=
  let q := p.modCls h.sof fun x => { x with rxSeq := x.rxSeq + 1 }
  freeUnits { q with rxCnt := q.rxCnt + 1, out := q.out ++ [.ack (ackBytes h.sof h.fseq)] } h.sof (unitsOf (linkBytes h)) tick

theorem takingFrame_taken (p : Port) (h : LinkHeader) (tick : W64) : PortTaken p (takingFrame p h tick) :=
  ((modCls_taken p h.sof fun _ => rfl).trans (by rfl)).trans (freeUnits_taken ..)

/-- The state in which a frame that port `k` takes is acted on. -/
def frameAccepted (s : State) (k : PortIx) (h : LinkHeader) : State := (clearOut s).modPort k fun p => takingFrame p h s.tick

theorem frameAccepted_port (s : State) (k : PortIx) (h : LinkHeader) (j : PortIx) : PortTaken s.port[j] (frameAccepted s k h).port[j] := by
  by_cases hj : j = k
  · subst hj
    rw [frameAccepted, modPort_self, clearOut_port]
    exact PortTaken.trans (by rfl) (takingFrame_taken ..)
  · rw [frameAccepted, modPort_others _ _ hj, clearOut_port]
    rfl

theorem frameAccepted_others (s : State) {k j : PortIx} (h : LinkHeader) (hj : j ≠ k) :
    (frameAccepted s k h).port[j] = { s.port[j] with out := [] } := by rw [frameAccepted, modPort_others _ _ hj, clearOut_port]

theorem frameAccepted_same (s : State) (k : PortIx) (h : LinkHeader) : SameOutside [.port] s (frameAccepted s k h) :=
  (SameOutside.set_port _ _).step rfl ((clearOut_moves s).same.widen rfl)

/-- A frame that a port takes, and that does not wait in its buffer, is acted on. -/
theorem linkFrame_taken {s : State} {k : PortIx} {h : LinkHeader} {m : LinkMsg} (ht : FrameTaken s k h m) {wait : State → Bool}
    (hw : wait (clearOut s) = false) (hw' : wait (frameAccepted s k h) = false) (f : State → State) :
    linkFrame s k h m wait f = f (frameAccepted s k h) := by
  obtain ⟨hu, he, hok, hq, hp⟩ := ht
  have hc := (clearOut_self s k).trans hu
  have hok' : linkOk ((clearOut s).linkCfg k).ownId h m = true := hok
  have hp' : permittedOn (clearOut s) k m = true := hp
  have hq' : h.fseq = ((clearOut s).port[k].cls h.sof).rxSeq := by rw [clearOut_cls, hq]
  unfold linkFrame
  dsimp only
  rw [upBySymbol_up hc, hw]
  unfold receiveFrame
  dsimp only
  rw [if_neg (not_not.mpr hc), if_neg (by rw [he]; decide), if_neg (by rw [hok']; decide), if_neg (not_not.mpr hq'), if_pos hp']
  exact if_neg (fun hx => absurd (hw'.symm.trans hx) (by decide))

/-- What a command that only takes its frame asks of the executive. -/
theorem held_same {ps : List Part} {s t : State} (h : SameOutside ps s t) (hm : ps.contains .m = false)
    (hr : ps.contains .recov = false) (ht : ps.contains .triad = false) : held t = held s := by
  unfold held State.execRuns
  rw [h.m hm, h.recov hr, h.triad ht]

/-! ## Routes -/

/-- A route depends on the configuration, the entries and the ports' states alone. -/
theorem route_same {s t : State} (hb : t.boot = s.boot) (hi : t.img.entry = s.img.entry) (hp : ∀ j : PortIx, t.port[j].state = s.port[j].state)
    (a : BitVec 20) (up : Bool) : t.route a up = s.route a up := by
  have hg : t.group = s.group := by rw [State.group, hb, State.group]
  have hl : t.isLocal a = s.isLocal a := by
    unfold State.isLocal State.localBase
    rw [hg]
  unfold State.route
  rw [hl, hg, hi]
  simp only [hp]

theorem route_local {s : State} {a : BitVec 20} (h : s.isLocal a = true) (up : Bool) : s.route a up = .loc := if_pos h

/-- The ports that the entries of a request of one word leave on. -/
theorem partPorts_single (s : State) (up : Bool) (e : BitVec 20 × W16) :
    partPorts s up [e] = match (s.route e.1 up).port with | some k => [k] | none => [] := by
  unfold partPorts
  simp only [List.any_cons, List.any_nil, Bool.or_false]
  generalize (s.route e.1 up).port = r
  cases r with
  | none => simp
  | some k =>
    revert k
    decide

theorem role_same {s t : State} (hb : t.boot = s.boot) (k : PortIx) : t.role k = s.role k := by
  unfold State.role State.linkCfg
  rw [hb]

/-- Whether a write waits in its buffer, after a change of what the ports count. -/
theorem writeWait_same {s t : State} (h : SameOutside [.port] s t) (hp : ∀ j : PortIx, t.port[j].state = s.port[j].state) {k : PortIx}
    (hk : t.port[k].buffered = s.port[k].buffered) (e : BitVec 20 × W16) :
    (held t || needsWait t k [e] || writeWaits t k) = (held s || needsWait s k [e] || writeWaits s k) := by
  unfold needsWait writeWaits transitCount
  rw [held_same h rfl rfl rfl, hk, h.img rfl, partPorts_single, partPorts_single, role_same (h.boot rfl),
      route_same (h.boot rfl) (by rw [h.img rfl]) hp]

/-! ## A request of one word -/

/-- The newest merge record, of one word, is answered as its reason comes. -/
theorem mergeFill_last {s : State} {l : List Merge} {g : Merge} (hl : s.img.merges = l ++ [g]) (hlt : ∀ m ∈ l, m.id < g.id)
    (hg : g.reasons = [none]) (r : Byte) :
    ∃ ms, mergeFill s g.id [0] [r] = sendResponse { s with img := { s.img with merges := ms } } g.port (.writeRsp [r]) g.tag := by
  have hne : ∀ m ∈ l, m.id ≠ g.id := fun m hm => Nat.ne_of_lt (hlt m hm)
  have hmap : (l ++ [g]).map (fun m => if m.id = g.id then { m with reasons := fillReasons m.reasons [0] [r] } else m) =
      l ++ [{ g with reasons := [some r] }] := by
    rw [List.map_append, List.map_cons, List.map_nil, if_pos rfl, hg, List.map_congr_left fun m hm => if_neg (hne m hm), List.map_id']
    rfl
  have hfind : (l ++ [{ g with reasons := [some r] }]).find? (fun m => m.id = g.id) = some { g with reasons := [some r] } := by
    rw [List.find?_append, List.find?_eq_none.mpr fun m hm => by rw [decide_eq_false (hne m hm)]; exact Bool.false_ne_true]
    simp
  unfold mergeFill
  rw [hl, hmap]
  unfold closeMerge
  dsimp only
  rw [hfind]
  exact ⟨_, rfl⟩

/-- The merge record of a request of one word from port `k`. -/
def wordMerge (s : State) (k : PortIx) (tag : W16) : Merge := { id := s.img.nextId, port := k, tag := tag, reasons := [none] }

/-- A request of one word that came, with its merge record. -/
def wordTaken (s : State) (k : PortIx) (tag : W16) : State :=
  { s with img := { s.img with nextId := s.img.nextId + 1, merges := s.img.merges ++ [wordMerge s k tag] } }

/-- The word of a request answered at its owner, or refused for its route. -/
def wordAnswered (s : State) (k : PortIx) (id : Nat) (up : Bool) (a : BitVec 20) (v : W16) : State := match s.route a up with
  | .loc =>
    let r := ownerWrite s a v
    mergeFill (if r.2 = 0 then r.1 else recordRefusal r.1 a r.2 (linkSrc s k)) id [0] [r.2.setWidth 8]
  | .refused why => mergeFill (recordRefusal s a why (linkSrc s k)) id [0] [why.setWidth 8]
  | _ => s

/-- A request of one word, whose route is not refused. -/
theorem transitWrite_single {s : State} {k : PortIx} {a : BitVec 20} {up : Bool} (hup : up = decide (s.role k = 1))
    (hr : ∀ why, s.route a up ≠ .refused why) (tag budget : W16) (since : W64) (v : W16) :
    transitWrite s k tag budget since [(a, v)] = wordAnswered ((partPorts s up [(a, v)]).foldl (fun x p =>
      sendRequest x p (.write (((indexed [(a, v)]).filter fun e => (s.route e.2.1 up).port = some p).map (·.2)))
        (.transit s.img.nextId (((indexed [(a, v)]).filter fun e => (s.route e.2.1 up).port = some p).map (·.1))) budget since)
      (wordTaken s k tag)) k s.img.nextId up a v := by
  subst hup
  have hn : ∀ why, allRefused s (decide (s.role k = 1)) why [(a, v)] = false := fun why => by
    unfold allRefused
    rw [List.all_cons, decide_eq_false (hr why)]
    rfl
  unfold transitWrite
  dsimp only
  rw [if_neg (by rw [hn]; decide), if_neg (by rw [hn]; decide)]
  rfl

theorem frameAccepted_route (s : State) (k : PortIx) (h : LinkHeader) (a : BitVec 20) (up : Bool) :
    (frameAccepted s k h).route a up = s.route a up :=
  route_same (s := s) (t := frameAccepted s k h) rfl rfl (fun j => (frameAccepted_port s k h j).get (·.state) fun _ => rfl) a up

theorem exec_linkWrite {s : State} {k : PortIx} {h : LinkHeader} {e : BitVec 20 × W16} (hr : s.execRuns = true)
    (ht : FrameTaken s k h (writeMsg h)) (he : writesOf h.payload = [e]) (hw : writeWaits s k = false) (hn : needsWait s k [e] = false) :
    exec (.linkWrite k h) s = .next (transitWrite (frameAccepted s k h) k h.tag h.budget s.tick [e]) := by
  have h0 : (held s || needsWait s k [e] || writeWaits s k) = false := by
    unfold held
    rw [hr, hn, hw]
    rfl
  show execLinkWrite k h s = _
  unfold execLinkWrite
  rw [he]
  refine congrArg Host.Outcome.next (linkFrame_taken ht ?_ ?_ _)
  · exact (writeWait_same (clearOut_moves s).same (fun j => clearOut_self s j) (by rw [clearOut_port]) e).trans h0
  · exact (writeWait_same (frameAccepted_same s k h) (fun j => (frameAccepted_port s k h j).get (·.state) fun _ => rfl)
      ((frameAccepted_port s k h k).get (·.buffered) fun _ => rfl) e).trans h0

/-- A word stored at a local endpoint is read there. -/
theorem ep_epStore {s : State} {a : BitVec 20} (hv : s.votes = true) (hl : s.isLocal a = true) (hs : swf epUnassigned s.img.words = true)
    (w : W32) : (epStore s a w).ep a = w := by
  have hn : ∀ x : State, (noteChange x a).img.words = x.img.words ∧ (noteChange x a).boot = x.boot := fun x => by
    unfold noteChange
    split <;> exact ⟨rfl, rfl⟩
  have e : epStore s a w = noteChange { s with img := { s.img with words := swrite epUnassigned s.img.words a.toNat w } } a :=
    (if_neg (by rw [hv]; decide)).trans (if_pos hl)
  have hloc : (epStore s a w).isLocal a = true := by
    unfold State.isLocal State.localBase State.group at hl ⊢
    rw [e, (hn _).2]
    exact hl
  unfold State.ep
  rw [if_pos hloc, e, (hn _).1]
  exact (sread_swrite hs ..).trans (if_pos rfl)

theorem votes_of_execRuns {s : State} (h : s.execRuns = true) : s.votes = true := by
  unfold State.votes
  rw [h, Bool.or_true]

theorem epWord_fields (seq : Byte) (q cls : BitVec 4) (v : W16) : epValue (epWord seq q cls v) = v ∧ epSeq (epWord seq q cls v) = seq := by
  constructor
  all_goals
    ext i hi
    interval_cases i <;> simp [epWord, epValue, epSeq, field, put]

theorem actCommand_high {s : State} {a : BitVec 20} (h : 0x800 ≤ offsetOf s.localBase a) (v : W16) :
    actCommand s a v = clearBars (epAccept s a qGood 5 v) a v := by
  have hn : ¬ offsetOf s.localBase a < 0x800 := Nat.not_lt.mpr h
  unfold actCommand
  dsimp only
  rw [decide_eq_false hn, if_neg (by exact Bool.false_ne_true), if_neg (by exact Bool.false_ne_true), if_neg (by exact Bool.false_ne_true)]

theorem clearBars_ep (s : State) (a b : BitVec 20) (v : W16) : (clearBars s a v).ep b = s.ep b := by
  unfold clearBars
  split <;> rfl

/-- A local word answered with reason `r`: the state that its owner left, with the answer waiting on the port it came from. -/
theorem wordAnswered_local {s : State} {k : PortIx} {tag : W16} {a : BitVec 20} {up : Bool} {v : W16} (hl : s.isLocal a = true)
    (hm : ∀ m ∈ s.img.merges, m.id < s.img.nextId) {y : State}
    (hy : y = if (ownerWrite (wordTaken s k tag) a v).2 = 0 then (ownerWrite (wordTaken s k tag) a v).1
      else recordRefusal (ownerWrite (wordTaken s k tag) a v).1 a (ownerWrite (wordTaken s k tag) a v).2 (linkSrc (wordTaken s k tag) k))
    (hym : y.img.merges = (wordTaken s k tag).img.merges) :
    ∃ ms, wordAnswered (wordTaken s k tag) k s.img.nextId up a v = sendResponse { y with img := { y.img with merges := ms } } k
      (.writeRsp [(ownerWrite (wordTaken s k tag) a v).2.setWidth 8]) tag := by
  have hroute : (wordTaken s k tag).route a up = .loc := if_pos hl
  unfold wordAnswered
  rw [hroute]
  dsimp only
  rw [← hy]
  exact mergeFill_last (g := wordMerge s k tag) hym hm rfl _

theorem needsWait_local {s : State} {k : PortIx} {a : BitVec 20} (h : s.isLocal a = true) (v : W16) : needsWait s k [(a, v)] = false := by
  unfold needsWait
  rw [partPorts_single, route_local h]
  rfl

/-- A request for a local word: the word at its owner, and the answer on the port it came from. -/
theorem transitWrite_local {s : State} {k : PortIx} {a : BitVec 20} {v : W16} (hl : s.isLocal a = true)
    (hm : ∀ m ∈ s.img.merges, m.id < s.img.nextId) (tag budget : W16) (since : W64) {y : State}
    (hy : y = if (ownerWrite (wordTaken s k tag) a v).2 = 0 then (ownerWrite (wordTaken s k tag) a v).1
      else recordRefusal (ownerWrite (wordTaken s k tag) a v).1 a (ownerWrite (wordTaken s k tag) a v).2 (linkSrc (wordTaken s k tag) k))
    (hym : y.img.merges = (wordTaken s k tag).img.merges) :
    ∃ ms, transitWrite s k tag budget since [(a, v)] = sendResponse { y with img := { y.img with merges := ms } } k
      (.writeRsp [(ownerWrite (wordTaken s k tag) a v).2.setWidth 8]) tag := by
  have hroute := route_local hl (decide (s.role k = 1))
  rw [transitWrite_single rfl (fun why => by rw [hroute]; exact nofun), partPorts_single, hroute]
  exact wordAnswered_local hl hm hy hym

theorem sendResponse_waiting (s : State) (k : PortIx) {msg : LinkMsg} (hm : msg.cls = .response) (tag : W16) :
    (sendResponse s k msg tag).port[k].rsp.waiting = s.port[k].rsp.waiting ++ [{ msg := msg, tag := tag, since := s.tick }] := by
  rw [sendResponse, sendOn, modPort_self]
  unfold portQueue
  dsimp only
  rw [hm]

theorem completes_writeLocal {s : State} {k : PortIx} {h : LinkHeader} {a : BitVec 20} {v : W16} (hr : s.execRuns = true) (hs : Sound s)
    (ht : FrameTaken s k h (writeMsg h)) (he : writesOf h.payload = [(a, v)]) (hw : writeWaits s k = false) (hl : s.isLocal a = true)
    (ho : 0x800 ≤ offsetOf s.localBase a) (hld : s.m.mode ≠ .load) (hst : s.m.mode ≠ .stop) (hq : epQual (s.ep a) ≠ qUnassigned)
    (hc : epClass (s.ep a) = 5) :
    Completes (.linkWrite k h) s fun t =>
      epValue (t.ep a) = v ∧ epSeq (t.ep a) = epSeq (s.ep a) + 1 ∧
      t.port[k].rsp.waiting = s.port[k].rsp.waiting ++ [{ msg := .writeRsp [0], tag := h.tag, since := s.tick }] ∧
      SameOutside [.img, .port, .rul] s t := by
  obtain ⟨⟨hwords, -, -⟩, hmerge, -⟩ := hs .img
  let y := wordTaken (frameAccepted s k h) k h.tag
  let z := clearBars (epAccept y a qGood 5 v) a v
  have ho' : ownerWrite y a v = (z, 0) := by
    have hep : y.ep a = s.ep a := rfl
    unfold ownerWrite
    rw [if_neg (show ¬(decide (y.m.mode = .load) || decide (y.m.mode = .stop)) = true by
      rw [show y.m = s.m from rfl, decide_eq_false hld, decide_eq_false hst]; decide), hep, if_neg hq, if_neg (not_not.mpr hc),
      actCommand_high (show 0x800 ≤ offsetOf y.localBase a from ho)]
  have hyz : SameOutside [.img, .rul] y z := (clearBars_moves ..).same.step rfl ((epAccept_moves ..).same.widen rfl)
  have hshown : ImgShown y z := (epStore_shown ..).trans (.of_eq ((clearBars_moves (epAccept y a qGood 5 v) a v).same.img rfl))
  have hep : z.ep a = epWord (epSeq (s.ep a) + 1) qGood 5 v :=
    (clearBars_ep ..).trans (ep_epStore (s := y) (votes_of_execRuns hr) hl hwords _)
  obtain ⟨ms, e'⟩ := transitWrite_local (s := frameAccepted s k h) (k := k) (v := v) hl hmerge h.tag h.budget s.tick (y := z)
    (by rw [ho']; rfl) (hshown.get ImageState.merges fun _ _ _ _ => rfl)
  have e := exec_linkWrite hr ht he hw (needsWait_local hl v)
  rw [e', ho'] at e
  have hsame : SameOutside [.img, .port, .rul] s (sendResponse { z with img := { z.img with merges := ms } } k (.writeRsp [0]) h.tag) :=
    (sendOn_moves ..).same.step rfl ((SameOutside.set_img z _).step rfl (hyz.step rfl ((SameOutside.set_img (frameAccepted s k h) _).step rfl
      ((frameAccepted_same s k h).widen rfl))))
  refine ⟨_, e, ?_, ?_, ?_, hsame⟩
  · exact (congrArg epValue hep).trans (epWord_fields ..).1
  · exact (congrArg epSeq hep).trans (epWord_fields ..).2
  · refine (sendResponse_waiting _ k rfl h.tag).trans ?_
    rw [show z.tick = s.tick from hyz.tick rfl, show z.port = (frameAccepted s k h).port from hyz.port rfl,
      (frameAccepted_port s k h k).get (·.rsp.waiting) fun _ => rfl]
    rfl

theorem completes_writeRefused {s : State} {k : PortIx} {h : LinkHeader} {a : BitVec 20} {v : W16} (hr : s.execRuns = true) (hs : Sound s)
    (ht : FrameTaken s k h (writeMsg h)) (he : writesOf h.payload = [(a, v)]) (hw : writeWaits s k = false) (hl : s.isLocal a = true)
    (hld : s.m.mode ≠ .load) (hst : s.m.mode ≠ .stop) (hq : epQual (s.ep a) ≠ qUnassigned) (hc : epClass (s.ep a) ≠ 5) :
    Completes (.linkWrite k h) s fun t =>
      t.img.words = s.img.words ∧ t.img.lastAddr = a ∧ t.img.lastReason = 3 ∧
      t.port[k].rsp.waiting = s.port[k].rsp.waiting ++ [{ msg := .writeRsp [3], tag := h.tag, since := s.tick }] ∧
      SameOutside [.img, .port] s t := by
  obtain ⟨-, hmerge, -⟩ := hs .img
  let y := wordTaken (frameAccepted s k h) k h.tag
  let z : State := { y with img := { y.img with refused := satInc y.img.refused, lastAddr := a, lastReason := rsClass, lastSrc := linkSrc y k } }
  have ho' : ownerWrite y a v = (y, rsClass) := by
    have hep : y.ep a = s.ep a := rfl
    unfold ownerWrite
    rw [if_neg (show ¬(decide (y.m.mode = .load) || decide (y.m.mode = .stop)) = true by
      rw [show y.m = s.m from rfl, decide_eq_false hld, decide_eq_false hst]; decide), hep, if_neg hq, if_pos hc]
  have hz : recordRefusal y a rsClass (linkSrc y k) = z := if_neg (by unfold linkSrc; split <;> decide)
  obtain ⟨ms, e'⟩ := transitWrite_local (s := frameAccepted s k h) (k := k) (v := v) hl hmerge h.tag h.budget s.tick (y := z)
    (by rw [ho']; exact hz.symm) rfl
  have e := exec_linkWrite hr ht he hw (needsWait_local hl v)
  rw [e', ho'] at e
  have hsame : SameOutside [.img, .port] s (sendResponse { z with img := { z.img with merges := ms } } k (.writeRsp [3]) h.tag) :=
    (sendOn_moves ..).same.step rfl ((SameOutside.set_img (frameAccepted s k h) _).step rfl ((frameAccepted_same s k h).widen rfl))
  refine ⟨_, e, rfl, rfl, rfl, ?_, hsame⟩
  refine (sendResponse_waiting _ k rfl h.tag).trans ?_
  show (frameAccepted s k h).port[k].rsp.waiting ++ _ = _
  rw [(frameAccepted_port s k h k).get (·.rsp.waiting) fun _ => rfl]
  rfl

theorem sendRequest_route (s : State) (p : PortIx) (msg : LinkMsg) (kind : RequestKind) (budget : W16) (since : W64) (a : BitVec 20) (up : Bool) :
    (sendRequest s p msg kind budget since).route a up = s.route a up :=
  route_same ((sendRequest_moves s p msg kind budget since).same.boot rfl) rfl
    (fun i => ((sendRequest_queued s p msg kind budget since).port i).get (·.state) fun _ => rfl) a up

theorem sendRequest_rsp (s : State) (p k : PortIx) {msg : LinkMsg} (hm : msg.cls = .request) (kind : RequestKind) (budget : W16) (since : W64) :
    (sendRequest s p msg kind budget since).port[k].rsp = s.port[k].rsp := by
  by_cases h : k = p
  · subst h
    show (State.modPort s k _).port[k].rsp = _
    rw [modPort_self]
    unfold portQueue
    dsimp only
    rw [hm]
  · rw [sendRequest_others _ _ _ _ _ h]

theorem completes_writeForwarded {s : State} {k p : PortIx} {h : LinkHeader} {a : BitVec 20} {v : W16} {j : Nat} (hr : s.execRuns = true)
    (ht : FrameTaken s k h (writeMsg h)) (he : writesOf h.payload = [(a, v)]) (hw : writeWaits s k = false)
    (hroute : s.route a (s.role k = 1) = .down p j) (hcount : transitCount s < 256) :
    Completes (.linkWrite k h) s fun t =>
      t.port[p].req.waiting = s.port[p].req.waiting ++
        [{ msg := .write [(a, v)], tag := s.port[p].nextTag, budget := h.budget, since := s.tick }] ∧
      t.port[k].rsp.waiting = s.port[k].rsp.waiting ∧ t.img.words = s.img.words ∧ SameOutside [.img, .port] s t := by
  let x := frameAccepted s k h
  let y := sendRequest (wordTaken x k h.tag) p (.write [(a, v)]) (.transit x.img.nextId [0]) h.budget s.tick
  have hrx : x.route a (decide (x.role k = 1)) = .down p j := (frameAccepted_route s k h a _).trans hroute
  have hn : needsWait s k [(a, v)] = false := by
    unfold needsWait
    rw [partPorts_single, hroute]
    simpa [Route.port] using hcount
  have hy : y.route a (decide (x.role k = 1)) = .down p j :=
    (sendRequest_route ..).trans ((route_same (s := x) (t := wordTaken x k h.tag) rfl rfl (fun _ => rfl) a _).trans hrx)
  have e' : transitWrite x k h.tag h.budget s.tick [(a, v)] = y := by
    rw [transitWrite_single rfl (fun why => by rw [hrx]; exact nofun), partPorts_single, hrx]
    have hpart : (indexed [(a, v)]).filter (fun e => (x.route e.2.1 (decide (x.role k = 1))).port = some p) = [(0, a, v)] := by
      show List.filter _ [(0, a, v)] = _
      rw [List.filter_cons_of_pos (by rw [hrx]; exact decide_eq_true rfl)]
      rfl
    rw [show (Route.down p j).port = some p from rfl]
    dsimp only [List.foldl_cons, List.foldl_nil]
    rw [hpart]
    show wordAnswered y k x.img.nextId _ a v = y
    unfold wordAnswered
    rw [hy]
  have e := exec_linkWrite hr ht he hw hn
  rw [e'] at e
  refine ⟨_, e, ?_, ?_, rfl, (sendRequest_moves ..).same.step rfl ((SameOutside.set_img x _).step rfl ((frameAccepted_same s k h).widen rfl))⟩
  · have hp := sendRequest_port (s := wordTaken x k h.tag) (k := p) (msg := .write [(a, v)]) (.transit x.img.nextId [0]) h.budget s.tick rfl
    rw [show (wordTaken x k h.tag).port = x.port from rfl, (frameAccepted_port s k h p).get (·.req.waiting) fun _ => rfl,
      (frameAccepted_port s k h p).get (·.nextTag) fun _ => rfl] at hp
    exact hp
  · exact (congrArg PortClass.waiting (sendRequest_rsp (wordTaken x k h.tag) p k rfl _ _ _)).trans
      ((frameAccepted_port s k h k).get (·.rsp.waiting) fun _ => rfl)

/-! ## Updates -/

theorem ep_epStore_copy {s : State} {a : BitVec 20} (hv : s.votes = true) (hl : s.isLocal a = false) (hs : swf epNoComm s.img.copies = true)
    (w : W32) : (epStore s a w).ep a = w := by
  have hn : ∀ x : State, (noteChange x a).img.copies = x.img.copies ∧ (noteChange x a).boot = x.boot := fun x => by
    unfold noteChange
    split <;> exact ⟨rfl, rfl⟩
  have e : epStore s a w = noteChange { s with img := { s.img with copies := swrite epNoComm s.img.copies a.toNat w } } a :=
    (if_neg (by rw [hv]; decide)).trans (if_neg (by rw [hl]; decide))
  have hloc : (epStore s a w).isLocal a = false := by
    unfold State.isLocal State.localBase State.group at hl ⊢
    rw [e, (hn _).2]
    exact hl
  unfold State.ep
  rw [if_neg (by rw [hloc]; decide), e, (hn _).1]
  exact (sread_swrite hs ..).trans (if_pos rfl)

/-- A word of an update from the port that its entry names: its copy, and the entry's arrival. -/
theorem takeWord_entry {s : State} {k : PortIx} {sweep : Bool} {a : BitVec 20} {w : W32} {j : Nat} {e : GroupEntry}
    (hv : s.votes = true) (hs : swf epNoComm s.img.copies = true) (he : findEntry s.group a = some (j, e)) (hk : e.port = k)
    (ho : s.img.entry[(BitVec.ofNat 8 j).toFin].outside = false) (hl : s.isLocal a = false) :
    (takeWord s k sweep (a, w)).2 = true ∧ (takeWord s k sweep (a, w)).1.ep a = w ∧
    (takeWord s k sweep (a, w)).1.img.entry[(BitVec.ofNat 8 j).toFin].state = 1 ∧ SameOutside [.img] s (takeWord s k sweep (a, w)).1 := by
  let x := entryArrival s (BitVec.ofNat 8 j).toFin sweep
  let y := if s.ep a = w then x else epStore x a w
  have hx : x.img.entry[(BitVec.ofNat 8 j).toFin].state = 1 := by
    show (modAt s.img.entry (BitVec.ofNat 8 j).toFin _)[(BitVec.ofNat 8 j).toFin].state = 1
    rw [modAt_self]
  have hy : ImgShown x y := ImgShown.ite (.of_eq rfl) (epStore_shown ..)
  have hyep : y.ep a = w := by
    show (if s.ep a = w then x else epStore x a w).ep a = w
    split
    next h => exact h
    next => exact ep_epStore_copy (s := x) hv hl hs w
  have hysame : SameOutside [.img] s y := by
    have h1 : SameOutside [.img] s x := SameOutside.set_img s _
    show SameOutside [.img] s (if s.ep a = w then x else epStore x a w)
    split
    · exact h1
    · exact (epStore_moves x a w).same.step rfl h1
  have hye : y.img.entry[(BitVec.ofNat 8 j).toFin].state = 1 := by
    rw [hy.get ImageState.entry fun _ _ _ _ => rfl]
    exact hx
  have e : takeWord s k sweep (a, w) = (if sweep then { y with img := { y.img with
      sweepFix := if s.ep a = w then y.img.sweepFix else satInc y.img.sweepFix
      sweepForward := if s.group.upport.isSome then y.img.sweepForward ++ [a] else y.img.sweepForward } } else y, true) := by
    unfold takeWord
    rw [he]
    exact if_neg (by rw [ho, decide_eq_false (not_not.mpr hk)]; decide)
  rw [e]
  cases sweep
  · exact ⟨rfl, hyep, hye, hysame⟩
  · exact ⟨rfl, hyep, hye, (SameOutside.set_img y _).step rfl hysame⟩

theorem completes_update {s : State} {k : PortIx} {h : LinkHeader} {a : BitVec 20} {w : W32} {j : Nat} {e : GroupEntry}
    (hr : s.execRuns = true) (hs : Sound s) (ht : FrameTaken s k h (updateMsg h)) (hp : wordsOf h.payload = [(a, w)])
    (he : findEntry s.group a = some (j, e)) (hk : e.port = k) (ho : s.img.entry[(BitVec.ofNat 8 j).toFin].outside = false)
    (hl : s.isLocal a = false) :
    Completes (.update k h) s fun t =>
      t.ep a = w ∧ t.img.entry[(BitVec.ofNat 8 j).toFin].state = 1 ∧
      t.port[k].rsp.waiting = s.port[k].rsp.waiting ++ [{ msg := .updateAck 1, tag := h.tag, since := s.tick }] ∧
      SameOutside [.img, .port] s t := by
  obtain ⟨⟨-, hcopies, -⟩, -⟩ := hs .img
  let x := frameAccepted s k h
  obtain ⟨h1, h2, h3, h4⟩ := takeWord_entry (s := x) (w := w) (sweep := bitAt h.param 0) (votes_of_execRuns hr) hcopies he hk ho hl
  let y := (takeWord x k (bitAt h.param 0) (a, w)).1
  have hheld : held s = false := by
    unfold held
    rw [hr]
    rfl
  have e' : exec (.update k h) s = .next (sendResponse y k (.updateAck 1) h.tag) := by
    refine congrArg Host.Outcome.next ((linkFrame_taken ht ((held_same (clearOut_moves s).same rfl rfl rfl).trans hheld)
      ((held_same (frameAccepted_same s k h) rfl rfl rfl).trans hheld) _).trans ?_)
    show applyUpdate x k h.tag _ (wordsOf h.payload) = _
    rw [hp]
    unfold applyUpdate
    dsimp only [takeWords]
    rw [h1]
    rfl
  refine ⟨_, e', h2, h3, ?_, (sendOn_moves y k _).same.step rfl (h4.step rfl ((frameAccepted_same s k h).widen rfl))⟩
  refine (sendResponse_waiting y k rfl h.tag).trans ?_
  rw [show y.port = x.port from h4.port rfl, show y.tick = s.tick from h4.tick rfl, (frameAccepted_port s k h k).get (·.rsp.waiting) fun _ => rfl]

/-! ## Fences -/

theorem foldl_sendRequest_img {α : Type} (g : ImageState → α) (hg : ∀ i o n, g { i with out := o, nextId := n } = g i) (l : List PortIx)
    (s : State) (msg : LinkMsg) (kind : RequestKind) (budget : W16) (since : W64) :
    g (l.foldl (fun a k => sendRequest a k msg kind budget since) s).img = g s.img := by
  induction l generalizing s with
  | nil => rfl
  | cons k l ih =>
    rw [List.foldl_cons, ih, sendRequest_img]
    exact hg ..

/-- A fence from upstream with room for it is placed at the end of its group. -/
theorem placeFence_up {s : State} {tag budget rtag : W16} {k : PortIx} (hn : s.img.fencesUp.length < 8) :
    (placeFence s tag (.upstream k rtag) budget).2 = true ∧
    (∃ f : PendingFence, (placeFence s tag (.upstream k rtag) budget).1.img.fencesUp = s.img.fencesUp ++ [f] ∧ f.tag = tag ∧
      f.source = .upstream k rtag) ∧
    (placeFence s tag (.upstream k rtag) budget).1.img.fenceRefused = s.img.fenceRefused := by
  unfold placeFence
  dsimp only
  rw [if_pos rfl, if_neg (Nat.not_le.mpr hn)]
  refine ⟨rfl, ⟨_, foldl_sendRequest_img ImageState.fencesUp (fun _ _ _ => rfl) .., rfl, rfl⟩,
    foldl_sendRequest_img ImageState.fenceRefused (fun _ _ _ => rfl) ..⟩

theorem exec_fenceRequest {s : State} {k : PortIx} {h : LinkHeader} (ht : FrameTaken s k h (fenceMsg h)) :
    exec (.fenceRequest k h) s = .next (
      let r := placeFence (frameAccepted s k h) (BitVec.ofNat 16 (beAt h.payload 0 2)) (.upstream k h.tag) h.budget
      if r.2 then r.1 else sendResponse r.1 k (.fenceRsp 2) h.tag) :=
  congrArg Host.Outcome.next (linkFrame_taken ht rfl rfl _)

theorem completes_fencePlaced {s : State} {k : PortIx} {h : LinkHeader} (ht : FrameTaken s k h (fenceMsg h)) (hn : s.img.fencesUp.length < 8) :
    Completes (.fenceRequest k h) s fun t =>
      (∃ f : PendingFence, t.img.fencesUp = s.img.fencesUp ++ [f] ∧ f.tag = BitVec.ofNat 16 (beAt h.payload 0 2) ∧
        f.source = .upstream k h.tag) ∧
      t.img.fenceRefused = s.img.fenceRefused ∧ SameOutside [.img, .port] s t := by
  obtain ⟨h1, h2, h3⟩ := placeFence_up (s := frameAccepted s k h) (tag := BitVec.ofNat 16 (beAt h.payload 0 2)) (budget := h.budget)
    (rtag := h.tag) (k := k) hn
  have e := exec_fenceRequest ht
  dsimp only at e
  rw [h1, if_pos rfl] at e
  exact ⟨_, e, h2, h3, (placeFence_moves ..).same.step rfl ((frameAccepted_same s k h).widen rfl)⟩

theorem completes_fenceRefused {s : State} {k : PortIx} {h : LinkHeader} (ht : FrameTaken s k h (fenceMsg h))
    (hn : 8 ≤ s.img.fencesUp.length) :
    Completes (.fenceRequest k h) s fun t =>
      t.img.fencesUp = s.img.fencesUp ∧ t.img.fenceRefused = satInc s.img.fenceRefused ∧
      t.port[k].rsp.waiting = s.port[k].rsp.waiting ++ [{ msg := .fenceRsp 2, tag := h.tag, since := s.tick }] ∧
      SameOutside [.img, .port] s t := by
  let x := frameAccepted s k h
  let y : State := { x with img := { x.img with fenceRefused := satInc x.img.fenceRefused } }
  have hp : placeFence x (BitVec.ofNat 16 (beAt h.payload 0 2)) (.upstream k h.tag) h.budget = (y, false) := if_pos hn
  have e := exec_fenceRequest ht
  dsimp only at e
  rw [hp, if_neg (by exact Bool.false_ne_true)] at e
  refine ⟨_, e, rfl, rfl, ?_, (sendOn_moves y k _).same.step rfl ((SameOutside.set_img x _).step rfl ((frameAccepted_same s k h).widen rfl))⟩
  refine (sendResponse_waiting y k rfl h.tag).trans ?_
  show x.port[k].rsp.waiting ++ _ = _
  rw [(frameAccepted_port s k h k).get (·.rsp.waiting) fun _ => rfl]
  rfl

/-- Settles O35: a taken frame is acted on in the state that its port leaves it; the request's words go to their owners or to the ports of their
routes, and the answers to the port they came from. -/
theorem requestsTakenFromAPort : Obligations.RequestsTakenFromAPort :=
  fun _ _ _ hr hs => ⟨fun _ _ ht he hw => ⟨fun hl ho hld hst hq =>
      ⟨completes_writeLocal hr hs ht he hw hl ho hld hst hq, completes_writeRefused hr hs ht he hw hl hld hst hq⟩,
      fun _ _ => completes_writeForwarded hr ht he hw⟩,
    fun _ _ _ _ ht hp he _ hk ho hl => completes_update hr hs ht hp he hk ho hl,
    fun ht => ⟨completes_fencePlaced ht, completes_fenceRefused ht⟩⟩

end Sys2Proof.Machine
end

section
/-! Responses, time-outs and budgets end requests (13 R365, R366; 11 R307, R308, R311, R312). -/
namespace Sys2Proof.Machine

/-! ## Nothing waits in the buffers -/

theorem modPort_id {s : State} {k : PortIx} {f : Port → Port} (h : f s.port[k] = s.port[k]) : s.modPort k f = s := by
  have hv : modAt s.port k f = s.port := by
    refine Vector.ext fun i hi => ?_
    show (modAt s.port k f)[(⟨i, hi⟩ : Fin 4)] = s.port[(⟨i, hi⟩ : Fin 4)]
    rw [modAt_get]
    split
    next hk => exact hk ▸ h
    next => rfl
  exact congrArg (fun v => { s with port := v }) hv

/-- With nothing in the buffers, none is served. -/
theorem serveAll_empty {s : State} (h : ∀ k : PortIx, s.port[k].buffered = []) : serveAll s = s := by
  have hone : ∀ k : PortIx, serveBuffered s k = s := fun k => by
    unfold serveBuffered
    dsimp only
    rw [h k]
    exact modPort_id (congrArg (fun b => { s.port[k] with buffered := b }) (h k).symm)
  have hall : ∀ l : List PortIx, l.foldl serveBuffered s = s := fun l => by
    induction l with
    | nil => rfl
    | cons k l ih => rw [List.foldl_cons, hone, ih]
  unfold serveAll
  rw [hall, hall]

theorem frameAccepted_buffered {s : State} (h : ∀ j : PortIx, s.port[j].buffered = []) (k : PortIx) (f : LinkHeader) (j : PortIx) :
    (frameAccepted s k f).port[j].buffered = [] := ((frameAccepted_port s k f j).get (·.buffered) fun _ => rfl).trans (h j)

theorem PortsQueued.serveAll {s t : State} (h : PortsQueued s t) (hb : ∀ j : PortIx, s.port[j].buffered = []) : Machine.serveAll t = t :=
  serveAll_empty fun j => ((h.port j).get (·.buffered) fun _ => rfl).trans (hb j)

theorem held_of_execRuns {s : State} (h : s.execRuns = true) : held s = false := by
  unfold held
  rw [h]
  rfl

/-- A response that port `k` takes is acted on, the executive running. -/
theorem linkFrame_response {s : State} {k : PortIx} {h : LinkHeader} {m : LinkMsg} (hr : s.execRuns = true) (ht : FrameTaken s k h m)
    (f : State → State) : linkFrame s k h m held f = f (frameAccepted s k h) :=
  linkFrame_taken ht ((held_same (clearOut_moves s).same rfl rfl rfl).trans (held_of_execRuns hr))
    ((held_same (frameAccepted_same s k h) rfl rfl rfl).trans (held_of_execRuns hr)) f

theorem takeResponse_some {s : State} {k : PortIx} {tag : W16} {r : OutRequest} (h : answered s k tag = some r) (f : OutRequest → State → State) :
    takeResponse s k tag f = f r s := by
  unfold takeResponse
  rw [h]

theorem answered_accepted {s : State} {k : PortIx} {h : LinkHeader} {tag : W16} {r : OutRequest} (ha : answered s k tag = some r) :
    answered (frameAccepted s k h) k tag = some r := ha

theorem answered_port {s : State} {k : PortIx} {tag : W16} {r : OutRequest} (h : answered s k tag = some r) : r.port = k := by
  have hp := List.find?_some h
  simp only [Bool.and_eq_true, decide_eq_true_eq] at hp
  exact hp.1

/-! ## What ends with a request -/

theorem dropOut_out (s : State) (r : OutRequest) : r ∉ (dropOut s r).img.out := fun h => by
  have h2 := List.of_mem_filter h
  exact absurd rfl (of_decide_eq_true h2)

/-- A refusal that no rule asked for is recorded, and nothing else. -/
theorem recordRefusal_host (s : State) (a : BitVec 20) (reason : BitVec 3) :
    recordRefusal s a reason 0 = { s with img := { s.img with refused := satInc s.img.refused, lastAddr := a, lastReason := reason, lastSrc := 0 } } := by
  unfold recordRefusal
  exact if_neg (by decide)

theorem completes_writeRsp {s : State} {k : PortIx} {h : LinkHeader} {r : OutRequest} {a : BitVec 20} {reason : Byte}
    (hb : ∀ j : PortIx, s.port[j].buffered = []) (ha : answered s k h.tag = some r) (hr : s.execRuns = true)
    (ht : FrameTaken s k h (writeRspMsg h)) (hp : h.payload[0]? = some reason) (hk : r.kind = .origin 0 [a]) :
    Completes (.writeRsp k h) s fun t =>
      r ∉ t.img.out ∧ (reason = 0 → t.img.refused = s.img.refused) ∧
      (reason ≠ 0 → t.img.refused = satInc s.img.refused ∧ t.img.lastAddr = a ∧ t.img.lastReason = reason.setWidth 3) ∧
      SameOutside [.img, .port] s t := by
  let x := frameAccepted s k h
  let y := if reason = 0 then dropOut x r else recordRefusal (dropOut x r) a (reason.setWidth 3) 0
  have hy : recordReasons (dropOut x r) 0 [a] h.payload = y := by
    cases hpl : h.payload with
    | nil => rw [hpl] at hp; cases hp
    | cons b l =>
      rw [hpl] at hp
      cases hp
      cases l <;> rfl
  have hq : PortsQueued x (fenceWriteDone y r.id) := by
    refine PortsQueued.trans (t := y) ?_ (.of_eq rfl)
    exact PortsQueued.ite (.of_eq rfl) (PortsQueued.trans (by exact .of_eq rfl) (recordRefusal_queued (dropOut x r) a (reason.setWidth 3) 0))
  have e : exec (.writeRsp k h) s = .next (fenceWriteDone y r.id) := by
    refine congrArg Host.Outcome.next ((linkFrame_response hr ht _).trans ?_)
    have hact : actWriteRsp x k h.tag h.payload = fenceWriteDone y r.id := by
      unfold actWriteRsp
      rw [takeResponse_some (answered_accepted ha), hk]
      dsimp only
      rw [hy]
    show serveAll (actWriteRsp x k h.tag h.payload) = _
    rw [hact]
    exact hq.serveAll (frameAccepted_buffered hb k h)
  have hdrop := dropOut_out x r
  have hsame : SameOutside [.img, .port] s (dropOut x r) := (SameOutside.set_img x _).step rfl ((frameAccepted_same s k h).widen rfl)
  refine ⟨_, e, ?_⟩
  by_cases h0 : reason = 0
  · rw [show y = dropOut x r from if_pos h0]
    exact ⟨hdrop, fun _ => rfl, fun h => absurd h0 h, (fenceWriteDone_moves ..).same.step rfl hsame⟩
  · rw [show y = _ from (if_neg h0).trans (recordRefusal_host ..)]
    exact ⟨hdrop, fun h => absurd h h0, fun _ => ⟨rfl, rfl, rfl⟩,
      (fenceWriteDone_moves ..).same.step rfl ((SameOutside.set_img (dropOut x r) _).step rfl hsame)⟩

theorem completes_updateAck {s : State} {k : PortIx} {h : LinkHeader} {r : OutRequest} {sweep : Bool} {as : List (BitVec 20)}
    (ha : answered s k h.tag = some r) (hr : s.execRuns = true) (ht : FrameTaken s k h (updateAckMsg h)) (hk : r.kind = .update sweep as) :
    Completes (.updateAck k h) s fun t =>
      r ∉ t.img.out ∧ (sweep = false → ∀ f ∈ t.img.fencesLocal ++ t.img.fencesUp, r.id ∉ f.updates) ∧
      SameOutside [.img, .port] s t := by
  let x := frameAccepted s k h
  have e : exec (.updateAck k h) s = .next (if sweep then dropOut x r else fenceUpdateDone (dropOut x r) r.id) := by
    refine congrArg Host.Outcome.next ((linkFrame_response hr ht _).trans ?_)
    unfold actUpdateAck
    rw [takeResponse_some (answered_accepted ha), hk]
  have hsame : SameOutside [.img, .port] s (dropOut x r) := (SameOutside.set_img x _).step rfl ((frameAccepted_same s k h).widen rfl)
  cases sweep with
  | true => exact ⟨_, e, dropOut_out x r, nofun, hsame⟩
  | false =>
    refine ⟨_, e, dropOut_out x r, fun _ f hf => ?_, (fenceUpdateDone_moves ..).same.step rfl hsame⟩
    obtain ⟨g, rfl⟩ : ∃ g : PendingFence, f = { g with updates := g.updates.filter (· ≠ r.id) } := by
      rcases List.mem_append.mp hf with hf | hf <;> obtain ⟨g, -, rfl⟩ := List.mem_map.mp hf <;> exact ⟨g, rfl⟩
    exact fun hm => absurd rfl (of_decide_eq_true (List.of_mem_filter (p := fun x => decide (x ≠ r.id)) hm))

theorem completes_fenceRsp {s : State} {k : PortIx} {h : LinkHeader} {r : OutRequest} {code : Byte} {id : Nat}
    (ha : answered s k h.tag = some r) (hr : s.execRuns = true) (ht : FrameTaken s k h (fenceRspMsg h)) (hc : field h.param 0 8 = code)
    (hk : r.kind = .fence id) :
    Completes (.fenceRsp k h) s fun t =>
      r ∉ t.img.out ∧ (∀ f ∈ t.img.fencesLocal ++ t.img.fencesUp, f.id = id → k ∉ f.ports) ∧
      (∀ f ∈ s.img.fencesLocal, f.id = id → k ∈ f.ports →
        { f with ports := f.ports.filter (· ≠ k), partialFlag := f.partialFlag || decide (code ≠ (0 : Byte)) } ∈ t.img.fencesLocal) ∧
      SameOutside [.img, .port] s t := by
  let x := frameAccepted s k h
  have e : exec (.fenceRsp k h) s = .next (fenceHeard (dropOut x r) id k (code ≠ 0)) := by
    refine congrArg Host.Outcome.next ((linkFrame_response hr ht _).trans ?_)
    unfold actFenceRsp
    rw [takeResponse_some (answered_accepted ha), hk, hc]
  have hsame : SameOutside [.img, .port] s (dropOut x r) := (SameOutside.set_img x _).step rfl ((frameAccepted_same s k h).widen rfl)
  refine ⟨_, e, dropOut_out x r, fun f hf hid => ?_, fun f hf hid hm => ?_, (fenceHeard_moves ..).same.step rfl hsame⟩
  · obtain ⟨g, hg⟩ : ∃ g : PendingFence, (if g.id = id && g.ports.contains k then { g with
        ports := g.ports.filter (· ≠ k), partialFlag := g.partialFlag || decide (code ≠ 0) } else g) = f := by
      rcases List.mem_append.mp hf with hf | hf <;> obtain ⟨g, -, hg⟩ := List.mem_map.mp hf <;> exact ⟨g, hg⟩
    by_cases hgk : g.id = id ∧ k ∈ g.ports
    · rw [if_pos (by simpa using hgk)] at hg
      rw [← hg]
      exact fun hm => absurd rfl (of_decide_eq_true (List.of_mem_filter (p := fun x => decide (x ≠ k)) hm))
    · rw [if_neg (by simpa using hgk)] at hg
      rw [hg] at hgk
      exact fun hm => hgk ⟨hid, hm⟩
  · refine List.mem_map.mpr ⟨f, hf, ?_⟩
    exact if_pos (by simpa using ⟨hid, hm⟩)

/-! ## Requests that fail -/

/-- The reason recorded for each code of ERROR_RSP (13 R365). -/
def failReason (code : Byte) : BitVec 3 := if code = 4 then rsNoRoute else if code = 5 then rsLoop else rsTimeout

/-- The refusal of one word that a host asked for, whose request fails. -/
theorem requestFailed_origin (s : State) {r : OutRequest} {a : BitVec 20} (hk : r.kind = .origin 0 [a]) (code : Byte) :
    requestFailed s r code = fenceWriteDone (recordRefusal (if code = 3 then
      (dropOut s r).modPort r.port fun p => { p with timeouts := satInc p.timeouts } else dropOut s r) a (failReason code) 0) r.id := by
  unfold requestFailed
  dsimp only
  rw [hk]
  rfl

theorem requestFailed_origin_parts (s : State) {r : OutRequest} {a : BitVec 20} (hk : r.kind = .origin 0 [a]) (code : Byte) :
    r ∉ (requestFailed s r code).img.out ∧ (requestFailed s r code).img.refused = satInc s.img.refused ∧
    (requestFailed s r code).img.lastAddr = a ∧ (requestFailed s r code).img.lastReason = failReason code ∧
    SameOutside [.img, .port] s (requestFailed s r code) := by
  have h1 : SameOutside [.img] s (dropOut s r) := SameOutside.set_img s _
  rw [requestFailed_origin s hk, recordRefusal_host]
  split
  · exact ⟨dropOut_out s r, rfl, rfl, rfl, (fenceWriteDone_moves ..).same.step rfl ((SameOutside.set_img _ _).step rfl
      ((SameOutside.set_port (dropOut s r) _).step rfl (h1.widen rfl)))⟩
  · exact ⟨dropOut_out s r, rfl, rfl, rfl,
      (fenceWriteDone_moves ..).same.step rfl ((SameOutside.set_img (dropOut s r) _).step rfl (h1.widen rfl))⟩

theorem completes_errorRsp {s : State} {k : PortIx} {h : LinkHeader} {r : OutRequest} {a : BitVec 20}
    (hb : ∀ j : PortIx, s.port[j].buffered = []) (ha : answered s k h.tag = some r) (hr : s.execRuns = true)
    (ht : FrameTaken s k h (errorRspMsg h)) (hk : r.kind = .origin 0 [a]) :
    Completes (.errorRsp k h) s fun t =>
      r ∉ t.img.out ∧ t.img.refused = satInc s.img.refused ∧ t.img.lastAddr = a ∧
      (field h.param 0 8 = 3#8 → t.img.lastReason = rsTimeout) ∧ (field h.param 0 8 = 4#8 → t.img.lastReason = rsNoRoute) ∧
      (field h.param 0 8 = 5#8 → t.img.lastReason = rsLoop) ∧ SameOutside [.img, .port] s t := by
  let x := frameAccepted s k h
  have e : exec (.errorRsp k h) s = .next (requestFailed x r (field h.param 0 8)) := by
    refine congrArg Host.Outcome.next ((linkFrame_response hr ht _).trans ?_)
    have hact : actErrorRsp x k h.tag (field h.param 0 8) = requestFailed x r (field h.param 0 8) := takeResponse_some (answered_accepted ha) _
    show serveAll (actErrorRsp x k h.tag (field h.param 0 8)) = _
    rw [hact]
    exact (requestFailed_queued ..).serveAll (frameAccepted_buffered hb k h)
  obtain ⟨h1, h2, h3, h4, h5⟩ := requestFailed_origin_parts x hk (field h.param 0 8)
  refine ⟨_, e, h1, h2, h3, fun hc => ?_, fun hc => ?_, fun hc => ?_, h5.step rfl ((frameAccepted_same s k h).widen rfl)⟩
  all_goals
    rw [h4, hc]
    rfl

theorem completes_requestTimeout {s : State} {k : PortIx} {tag : W16} {r : OutRequest} {a : BitVec 20} (ha : answered s k tag = some r)
    (hk : r.kind = .origin 0 [a]) (hd : msTicks 300 ≤ s.since r.since) :
    Completes (.requestTimeout k tag) s fun t =>
      r ∉ t.img.out ∧ t.img.refused = satInc s.img.refused ∧ t.img.lastAddr = a ∧ t.img.lastReason = rsTimeout ∧
      t.port[k].timeouts = satInc s.port[k].timeouts ∧ SameOutside [.img, .port] s t := by
  have e : exec (.requestTimeout k tag) s = .next (requestFailed s r 3) := by
    show execRequestTimeout k tag s = _
    unfold execRequestTimeout
    rw [ha]
    dsimp only
    rw [hk]
    exact congrArg Host.Outcome.next (if_neg (Nat.not_lt.mpr hd))
  obtain ⟨h1, h2, h3, h4, h5⟩ := requestFailed_origin_parts s hk 3
  refine ⟨_, e, h1, h2, h3, h4, ?_, h5⟩
  beta_reduce
  rw [requestFailed_origin s hk, if_pos rfl, recordRefusal_host, answered_port ha]
  show ((dropOut s r).modPort k _).port[k].timeouts = _
  rw [modPort_self]
  rfl

/-! ## Budgets that end -/

/-- A forwarded request that waited to be sent on is withdrawn (13 R366). -/
def withdrawn (s : State) (k : PortIx) (tag : W16) : State :=
  s.modPort k fun p => { p with req := { p.req with waiting := p.req.waiting.filter fun f => f.tag ≠ tag } }

/-- The one merge record of a forwarded request that fails is answered TIMEOUT. -/
theorem requestFailed_transit {s : State} {r : OutRequest} {id : Nat} {g : Merge} (hk : r.kind = .transit id [0])
    (hg : s.img.merges.find? (fun x => x.id = id) = some g) (hn : g.reasons.length = 1) :
    ∃ ms, requestFailed s r 3 = sendResponse
      { fenceWriteDone ((dropOut s r).modPort r.port fun p => { p with timeouts := satInc p.timeouts }) r.id with
        img := { (fenceWriteDone ((dropOut s r).modPort r.port fun p => { p with timeouts := satInc p.timeouts }) r.id).img with merges := ms } }
      g.port (.errorRsp 3) g.tag := by
  have hf : (fenceWriteDone ((dropOut s r).modPort r.port fun p => { p with timeouts := satInc p.timeouts }) r.id).img.merges = s.img.merges := rfl
  refine ⟨s.img.merges.filter (·.id ≠ id), ?_⟩
  unfold requestFailed
  dsimp only
  rw [hk]
  dsimp only
  rw [if_pos rfl, hf, hg]
  exact if_pos hn

theorem completes_budgetUnsent {s : State} {k : PortIx} {tag : W16} {r : OutRequest} {id : Nat} {g : Merge}
    (hb : ∀ j : PortIx, s.port[j].buffered = []) (ha : answered s k tag = some r) (hu : unsent s k tag = true)
    (hk : r.kind = .transit id [0]) (hg : s.img.merges.find? (fun x => x.id = id) = some g) (hn : g.reasons.length = 1) :
    Completes (.requestBudgetExpiry k tag) s fun t =>
      r ∉ t.img.out ∧ (∀ f ∈ t.port[k].req.waiting, f.tag ≠ tag) ∧
      t.port[g.port].rsp.waiting = s.port[g.port].rsp.waiting ++ [{ msg := .errorRsp 3, tag := g.tag, since := s.tick }] ∧
      t.port[k].timeouts = satInc s.port[k].timeouts ∧ SameOutside [.img, .port] s t := by
  let x := withdrawn s k tag
  have hx : ∀ j : PortIx, x.port[j].buffered = [] ∧ x.port[j].rsp.waiting = s.port[j].rsp.waiting := fun j => by
    by_cases hj : j = k
    · subst hj
      rw [show x.port[j] = _ from modPort_self ..]
      exact ⟨hb j, rfl⟩
    · rw [show x.port[j] = _ from modPort_others _ _ hj]
      exact ⟨hb j, rfl⟩
  have e : exec (.requestBudgetExpiry k tag) s = .next (requestFailed x r 3) := by
    show execRequestBudgetExpiry k tag s = _
    unfold execRequestBudgetExpiry
    rw [hb k]
    dsimp only [List.find?_nil]
    rw [if_neg (by rw [hu]; decide), ha]
    exact congrArg Host.Outcome.next ((requestFailed_queued x r 3).serveAll fun j => (hx j).1)
  obtain ⟨ms, e'⟩ := requestFailed_transit (s := x) hk hg hn
  let y := fenceWriteDone ((dropOut x r).modPort r.port fun p => { p with timeouts := satInc p.timeouts }) r.id
  have hy : ∀ j : PortIx, y.port[j] = if j = k then { x.port[j] with timeouts := satInc x.port[j].timeouts } else x.port[j] := fun j => by
    show (modAt (dropOut x r).port r.port _)[j] = _
    rw [answered_port ha, modAt_get]
    split
    next h => exact h ▸ rfl
    next => rfl
  let z : State := { y with img := { y.img with merges := ms } }
  have hself : (sendResponse z g.port (.errorRsp 3) g.tag).port[k].req.waiting = x.port[k].req.waiting ∧
      (sendResponse z g.port (.errorRsp 3) g.tag).port[k].timeouts = satInc x.port[k].timeouts := by
    have hz : z.port[k] = { x.port[k] with timeouts := satInc x.port[k].timeouts } := (hy k).trans (if_pos rfl)
    by_cases hj : k = g.port
    · rw [sendResponse, sendOn, ← hj, modPort_self, hz]
      exact ⟨rfl, rfl⟩
    · rw [sendResponse, sendOn_others _ _ hj, hz]
      exact ⟨rfl, rfl⟩
  have hwait : x.port[k].req.waiting = s.port[k].req.waiting.filter fun f => f.tag ≠ tag := by
    rw [show x.port[k] = _ from modPort_self ..]
  have hto : x.port[k].timeouts = s.port[k].timeouts := by rw [show x.port[k] = _ from modPort_self ..]
  rw [e'] at e
  refine ⟨_, e, dropOut_out x r, fun f hf => ?_, ?_, ?_, (sendOn_moves z g.port _).same.step rfl ((SameOutside.set_img y _).step rfl
    ((fenceWriteDone_moves ..).same.step rfl ((SameOutside.set_port (dropOut x r) _).step rfl ((SameOutside.set_img x _).step rfl
      ((SameOutside.set_port s _).widen rfl)))))⟩
  · rw [show (sendResponse z g.port (.errorRsp 3) g.tag).port[k].req.waiting = _ from hself.1, hwait] at hf
    exact of_decide_eq_true (List.of_mem_filter (p := fun f : TxFrame => decide (f.tag ≠ tag)) hf)
  · refine (sendResponse_waiting z g.port rfl g.tag).trans ?_
    have hz : z.port[g.port].rsp.waiting = s.port[g.port].rsp.waiting := by
      refine Eq.trans ?_ (hx g.port).2
      show y.port[g.port].rsp.waiting = _
      rw [hy]
      split <;> rfl
    rw [hz]
    rfl
  · exact hself.2.trans (congrArg satInc hto)

/-- A buffer released touches its own port's books alone, and nothing that waits to be sent. -/
theorem releaseBuffer_port (s : State) (k : PortIx) (b : BufferedRequest) :
    (releaseBuffer s k b).port[k].timeouts = s.port[k].timeouts ∧ (releaseBuffer s k b).port[k].buffered = s.port[k].buffered ∧
    (releaseBuffer s k b).port[k].rsp.waiting = s.port[k].rsp.waiting ∧
    (∀ j : PortIx, j ≠ k → (releaseBuffer s k b).port[j] = s.port[j]) ∧ SameOutside [.port] s (releaseBuffer s k b) := by
  by_cases hu : b.units = 0
  · rw [show releaseBuffer s k b = s from if_pos hu]
    exact ⟨rfl, rfl, rfl, fun _ _ => rfl, SameOutside.refl s⟩
  · rw [show releaseBuffer s k b = _ from if_neg hu]
    refine ⟨?_, ?_, ?_, fun j hj => modPort_others _ _ hj, SameOutside.set_port _ _⟩
    · rw [modPort_self, (freeUnits_taken ..).get (·.timeouts) fun _ => rfl]
      exact (modCls_books ..).get (·.timeouts) fun _ => rfl
    · rw [modPort_self, (freeUnits_taken ..).get (·.buffered) fun _ => rfl]
      exact (modCls_books ..).get (·.buffered) fun _ => rfl
    · rw [modPort_self, (freeUnits_taken ..).get (·.rsp.waiting) fun _ => rfl]
      cases b.msg.cls <;> rfl

theorem completes_budgetBuffered {s : State} {k : PortIx} {tag : W16} {b : BufferedRequest}
    (hb : s.port[k].buffered.find? (fun x => spent s x tag) = some b) :
    Completes (.requestBudgetExpiry k tag) s fun t =>
      t.port[k].timeouts = satInc s.port[k].timeouts ∧ t.port[k].buffered = s.port[k].buffered.erase b ∧
      t.port[k].rsp.waiting = s.port[k].rsp.waiting ++ [{ msg := .errorRsp 3, tag := tag, since := s.tick }] ∧
      (∀ f ∈ t.img.fencesLocal ++ t.img.fencesUp, b.id ∉ f.writes) ∧
      (∀ j : PortIx, j ≠ k → t.port[j] = s.port[j]) ∧ SameOutside [.img, .port] s t := by
  let x := (dropBuffered s k b).modPort k fun p => { p with timeouts := satInc p.timeouts }
  have e : exec (.requestBudgetExpiry k tag) s = .next (sendResponse x k (.errorRsp 3) tag) := by
    show execRequestBudgetExpiry k tag s = _
    unfold execRequestBudgetExpiry
    rw [hb]
  obtain ⟨h1, h2, h3, h4, h5⟩ := releaseBuffer_port s k b
  have hx : x.port[k] = { (releaseBuffer s k b).port[k] with
      buffered := (releaseBuffer s k b).port[k].buffered.erase b, timeouts := satInc (releaseBuffer s k b).port[k].timeouts } := by
    rw [show x.port[k] = _ from modPort_self ..]
    exact congrArg (fun p : Port => { p with timeouts := satInc p.timeouts }) (modPort_self (releaseBuffer s k b) k _)
  have hself : (sendResponse x k (.errorRsp 3) tag).port[k] = portQueue x.port[k] { msg := .errorRsp 3, tag := tag, since := x.tick } :=
    modPort_self ..
  have hsame : SameOutside [.img, .port] s x := (SameOutside.set_port _ _).step rfl ((fenceWriteDone_moves ..).same.step rfl
    ((SameOutside.set_port _ _).step rfl (h5.widen rfl)))
  refine ⟨_, e, ?_, ?_, ?_, fun f hf => ?_, fun j hj => ?_, (sendOn_moves x k _).same.step rfl hsame⟩
  · rw [hself, hx]
    exact congrArg satInc h1
  · rw [hself, hx]
    exact congrArg (·.erase b) h2
  · rw [sendResponse_waiting x k rfl tag, hx, hsame.tick rfl]
    exact congrArg (· ++ _) h3
  · obtain ⟨g, rfl⟩ : ∃ g : PendingFence, f = { g with writes := g.writes.filter (· ≠ b.id) } := by
      rcases List.mem_append.mp hf with hf | hf <;> obtain ⟨g, -, rfl⟩ := List.mem_map.mp hf <;> exact ⟨g, rfl⟩
    exact fun hm => absurd rfl (of_decide_eq_true (List.of_mem_filter (p := fun x => decide (x ≠ b.id)) hm))
  · rw [show (sendResponse x k (.errorRsp 3) tag).port[j] = x.port[j] from sendOn_others x _ hj, show x.port[j] = _ from modPort_others _ _ hj]
    exact (modPort_others (releaseBuffer s k b) _ hj).trans (h4 j hj)

/-- Settles O36: an answered request leaves the outstanding ones with what its kind asks, and a failed one with its reason. -/
theorem responsesEndTheirRequests : Obligations.ResponsesEndTheirRequests :=
  ⟨fun _ _ _ _ hb ha => ⟨fun _ _ => completes_writeRsp hb ha, fun _ _ => completes_updateAck ha, fun _ _ => completes_fenceRsp ha,
    fun _ => completes_errorRsp hb ha, fun _ => completes_requestTimeout ha, fun _ _ => completes_budgetUnsent hb ha⟩,
    fun _ _ _ _ => completes_budgetBuffered⟩

end Sys2Proof.Machine
end

section
/-! TIME, DISC, LAMP and EVENT records taken from a port (10 R273; 13 R357, R368, R369; 18 R487). -/
namespace Sys2Proof.Machine

/-! ## Urgent records -/

/-- Port `p` as it takes a frame whose buffer is kept: acknowledged and counted, its units held (13 R361, R368). -/
def holdingFrame (p : Port) (h : LinkHeader) : Port :=
  let q := p.modCls h.sof fun x => { x with rxSeq := x.rxSeq + 1 }
  let q : Port := { q with rxCnt := q.rxCnt + 1, out := q.out ++ [.ack (ackBytes h.sof h.fseq)] }
  q.modCls h.sof fun x => { x with occupied := x.occupied + unitsOf (linkBytes h) }

/-- The state in which an urgent record that port `k` takes is acted on: its buffer is kept for its forwarded copy. -/
def urgentTaken (s : State) (k : PortIx) (h : LinkHeader) : State :=
  if s.group.upport.isSome then (clearOut s).modPort k fun p => holdingFrame p h else frameAccepted s k h

theorem modCls_waiting (p : Port) (c d : LinkClass) {f : PortClass → PortClass} (hf : ∀ x, (f x).waiting = x.waiting) :
    ((p.modCls c f).cls d).waiting = (p.cls d).waiting := by
  by_cases hd : d = c
  · subst hd
    rw [(modCls_cls p d f).1, hf]
  · rw [(modCls_cls p c f).2 d hd]

theorem holdingFrame_parts (p : Port) (h : LinkHeader) :
    (holdingFrame p h).urg.waiting = p.urg.waiting ∧ (holdingFrame p h).rxCnt = p.rxCnt + 1 := by
  constructor
  · refine (modCls_waiting _ h.sof .urgent (f := fun x => { x with occupied := x.occupied + unitsOf (linkBytes h) }) fun _ => rfl).trans ?_
    exact modCls_waiting p h.sof .urgent (f := fun x => { x with rxSeq := x.rxSeq + 1 }) fun _ => rfl
  · refine ((modCls_books ..).get (·.rxCnt) fun _ => rfl).trans ?_
    exact congrArg (· + 1) ((modCls_books p h.sof fun x => { x with rxSeq := x.rxSeq + 1 }).get (·.rxCnt) fun _ => rfl)

theorem takingFrame_rxCnt (p : Port) (h : LinkHeader) (tick : W64) : (takingFrame p h tick).rxCnt = p.rxCnt + 1 := by
  refine ((freeUnits_books ..).get (·.rxCnt) fun _ => rfl).trans ?_
  exact congrArg (· + 1) ((modCls_books p h.sof fun x => { x with rxSeq := x.rxSeq + 1 }).get (·.rxCnt) fun _ => rfl)

theorem urgentTaken_parts (s : State) (k : PortIx) (h : LinkHeader) :
    (∀ u : PortIx, (urgentTaken s k h).port[u].urg.waiting = s.port[u].urg.waiting) ∧
    (urgentTaken s k h).port[k].rxCnt = s.port[k].rxCnt + 1 ∧ SameOutside [.port] s (urgentTaken s k h) := by
  unfold urgentTaken
  split
  · refine ⟨fun u => ?_, ?_, (SameOutside.set_port _ _).step rfl ((clearOut_moves s).same.widen rfl)⟩
    · by_cases hu : u = k
      · subst hu
        rw [modPort_self, (holdingFrame_parts ..).1, clearOut_port]
      · rw [modPort_others _ _ hu, clearOut_port]
    · rw [modPort_self, (holdingFrame_parts ..).2, clearOut_port]
  · refine ⟨fun u => (frameAccepted_port s k h u).get (·.urg.waiting) fun _ => rfl, ?_, frameAccepted_same s k h⟩
    rw [frameAccepted, modPort_self, takingFrame_rxCnt, clearOut_port]

theorem add_one_ne_self (x : W32) : x ≠ x + 1 := fun h => by
  have h1 := congrArg BitVec.toNat h
  rw [BitVec.toNat_add] at h1
  have := x.isLt
  simp at h1
  omega

/-- An urgent record that a port takes, the executive running: forwarded upstream, and acted on. -/
theorem urgentRecord_taken {s : State} {k : PortIx} {h : LinkHeader} {m : LinkMsg} (hr : s.execRuns = true) (ht : FrameTaken s k h m)
    (act : State → State) (ha : (act (forwardUrgent (urgentTaken s k h) k m (unitsOf (linkBytes h)))).port[k].rxCnt = s.port[k].rxCnt + 1) :
    urgentRecord s k h m act = act (forwardUrgent (urgentTaken s k h) k m (unitsOf (linkBytes h))) := by
  obtain ⟨hu, he, hok, hq, hp⟩ := ht
  have hc := (clearOut_self s k).trans hu
  have hok' : linkOk ((clearOut s).linkCfg k).ownId h m = true := hok
  have hp' : permittedOn (clearOut s) k m = true := hp
  have hq' : h.fseq = ((clearOut s).port[k].cls h.sof).rxSeq := by rw [clearOut_cls, hq]
  have hh : ∀ t : State, t.m = s.m → t.recov = s.recov → t.triad = s.triad → held t = false := fun t h1 h2 h3 => by
    unfold held State.execRuns at *
    rw [h1, h2, h3, hr]
    rfl
  let x := urgentTaken s k h
  let y := forwardUrgent x k m (unitsOf (linkBytes h))
  have hy : SameOutside [.port] s y := (forwardUrgent_moves ..).same.step rfl ((urgentTaken_parts s k h).2.2.widen rfl)
  have hstate : ((clearOut s).modPort k fun p =>
      let q := p.modCls h.sof fun x => { x with rxSeq := x.rxSeq + 1 }
      takeUnits { q with rxCnt := q.rxCnt + 1, out := q.out ++ [.ack (ackBytes h.sof h.fseq)] } h.sof (unitsOf (linkBytes h))
        (((clearOut s).group.upport.isSome || held (clearOut s)) && true) (clearOut s).tick) = x := by
    rw [hh (clearOut s) rfl rfl rfl, Bool.or_false, Bool.and_true, show (clearOut s).group = s.group from rfl]
    show _ = urgentTaken s k h
    unfold urgentTaken
    cases s.group.upport.isSome
    · rfl
    · rfl
  have hrec : receiveFrame (clearOut s) k h m ((clearOut s).group.upport.isSome || held (clearOut s)) (fun a =>
      if held (forwardUrgent a k m (unitsOf (linkBytes h))) then bufferFrame (forwardUrgent a k m (unitsOf (linkBytes h))) k h m
        (if a.group.upport.isSome then 0 else unitsOf (linkBytes h)) else act (forwardUrgent a k m (unitsOf (linkBytes h)))) = act y := by
    unfold receiveFrame
    dsimp only
    rw [if_neg (not_not.mpr hc), if_neg (by rw [he]; decide), if_neg (by rw [hok']; decide), if_neg (not_not.mpr hq'), if_pos hp', hp', hstate]
    exact if_neg (by rw [hh y (hy.m rfl) (hy.recov rfl) (hy.triad rfl)]; decide)
  unfold urgentRecord
  dsimp only
  rw [upBySymbol_up hc, hrec]
  refine if_neg fun hcount => ?_
  simp only [Bool.and_eq_true, decide_eq_true_eq] at hcount
  have h1 := hcount.2.trans ha
  rw [clearOut_port] at h1
  exact add_one_ne_self _ h1

/-- The copy of an urgent record that goes on upstream. -/
def forwarded (s : State) (k : PortIx) (m : LinkMsg) (units : Nat) : TxFrame := { msg := m, since := s.tick, hold := some (k, units) }

theorem forwardUrgent_queued (s : State) (k : PortIx) (m : LinkMsg) (units : Nat) : PortsQueued s (forwardUrgent s k m units) := by
  unfold forwardUrgent
  split
  · exact sendOn_queued ..
  · exact .of_eq rfl

theorem forwardUrgent_waiting {s : State} {k u : PortIx} {m : LinkMsg} (hm : m.cls = .urgent) (hu : s.group.upport = some u) (units : Nat) :
    (forwardUrgent s k m units).port[u].urg.waiting = s.port[u].urg.waiting ++ [forwarded s k m units] := by
  unfold forwardUrgent
  rw [hu]
  show (sendOn s u _).port[u].urg.waiting = _
  rw [sendOn, modPort_self]
  unfold portQueue
  dsimp only
  rw [hm]
  rfl

/-! ## Remote entries -/

/-- A link record appends at most one urgent frame to a port. -/
theorem linkRecord_waiting (s : State) (q : QueueEntry) (src : SrcIx) (u : PortIx) :
    ∃ l, (linkRecord s q src).port[u].urg.waiting = s.port[u].urg.waiting ++ l := by
  unfold linkRecord
  split
  · split
    next k _ =>
      dsimp only
      by_cases hu : u = k
      · subst hu
        rw [modPort_self]
        split <;> exact ⟨_, rfl⟩
      · rw [modPort_others _ _ hu]
        exact ⟨[], (List.append_nil _).symm⟩
    next => exact ⟨[], (List.append_nil _).symm⟩
  · exact ⟨[], (List.append_nil _).symm⟩

/-- An entry put in the queue: only its overflow is told on a link. -/
theorem enqueue_told (s : State) (q : QueueEntry) (u : PortIx) :
    (∃ l, (enqueue s q).port[u].urg.waiting = s.port[u].urg.waiting ++ l ∧ (s.ev.count < 255 → l = [])) ∧
    (enqueue s q).ev.remoteEntries = s.ev.remoteEntries := by
  have hlog : ∀ (e : EventRouter) a b c d f, (logPut e a b c d f).remoteEntries = e.remoteEntries := fun e a b c d f => by
    unfold logPut
    split <;> rfl
  have ho : ∀ x : State, (∃ l, (raiseOverflow x).port[u].urg.waiting = x.port[u].urg.waiting ++ l) ∧
      (raiseOverflow x).ev.remoteEntries = x.ev.remoteEntries := fun x => by
    unfold raiseOverflow
    dsimp only
    refine ⟨linkRecord_waiting .., ?_⟩
    obtain ⟨d, hd⟩ := linkRecord_ev _ _ 107
    rw [hd]
    simp only [ringPut, hlog, State.modSrc_ev]
  unfold enqueue
  split
  · exact ⟨⟨[], (List.append_nil _).symm, fun _ => rfl⟩, rfl⟩
  next hn =>
    dsimp only
    split
    · obtain ⟨⟨l, hl⟩, h2⟩ := ho { s with ev := { s.ev with lost := s.ev.lost + 1, ovf := true } }
      exact ⟨⟨l, hl, fun h => absurd h hn⟩, h2⟩
    · exact ⟨⟨[], (List.append_nil _).symm, fun h => absurd h hn⟩, rfl⟩

/-- What another device's record leaves when it enters the queue under this device's own source (18 R487). -/
theorem remoteEntry_parts (s : State) (src : SrcIx) (a : BitVec 20) (count : W16) (detail : W32) :
    (s.ev.src[src].enable = true → (remoteEntry s src a count detail).ev.remoteEntries = s.ev.remoteEntries + 1) ∧
    (∀ u : PortIx, ∃ l, (remoteEntry s src a count detail).port[u].urg.waiting = s.port[u].urg.waiting ++ l ∧ (s.ev.count < 255 → l = [])) ∧
    PortsQueued s (remoteEntry s src a count detail) := by
  unfold remoteEntry
  dsimp only
  cases he : s.ev.src[src].enable
  · rw [if_pos (by decide)]
    exact ⟨nofun, fun _ => ⟨[], (List.append_nil _).symm, fun _ => rfl⟩, .of_eq rfl⟩
  · rw [if_neg (by decide)]
    refine ⟨fun _ => (enqueue_told _ _ 0).2, fun u => (enqueue_told _ _ u).1, ?_⟩
    exact PortsQueued.trans (by exact .of_eq rfl) (enqueue_queued ..)

theorem entryOn_same {s t : State} (hb : t.boot = s.boot) (hi : t.img = s.img) (k : PortIx) (a : BitVec 20) : entryOn t k a = entryOn s k a := by
  unfold entryOn State.group
  rw [hb, hi]

/-- The urgent frames that wait on the upstream port after an urgent record: its copy, and what an overflow of the queue adds. -/
theorem urgent_waiting {s x t : State} {k : PortIx} {m : LinkMsg} {units : Nat} (hm : m.cls = .urgent) (hx : SameOutside [.port] s x)
    (hw : ∀ u : PortIx, x.port[u].urg.waiting = s.port[u].urg.waiting)
    (ht : ∀ u : PortIx, ∃ l, t.port[u].urg.waiting = (forwardUrgent x k m units).port[u].urg.waiting ++ l ∧ (s.ev.count < 255 → l = [])) :
    ∀ u, s.group.upport = some u → ∃ l, t.port[u].urg.waiting = s.port[u].urg.waiting ++
      { msg := m, since := s.tick, hold := some (k, units) } :: l ∧ (s.ev.count < 255 → l = []) := fun u hu => by
  obtain ⟨l, hl, h0⟩ := ht u
  have hxg : x.group.upport = some u := by
    unfold State.group at hu ⊢
    rw [hx.boot rfl]
    exact hu
  have hf : forwarded x k m units = { msg := m, since := s.tick, hold := some (k, units) } := by rw [forwarded, hx.tick rfl]
  exact ⟨l, by rw [hl, forwardUrgent_waiting hm hxg, hw, hf, List.append_assoc, List.singleton_append], h0⟩

theorem completes_lampRecord {s : State} {k : PortIx} {h : LinkHeader} {a : BitVec 20} {w : W32} {o : Byte}
    (ht : FrameTaken s k h (lampMsg h)) (ha : a = addrAt h.payload 0) (hw : w = BitVec.ofNat 32 (beAt h.payload 4 4))
    (ho : o = byteAt h.payload 8) (hr : s.execRuns = true) (hs : Sound s) :
    Completes (.lampRecord k h) s fun t =>
      (entryOn s k a = true → s.isLocal a = false → serialGt (epSeq w) (epSeq (s.ep a)) = true → t.ep a = w) ∧
      (entryOn s k a = true → s.ev.src[lampSource o].enable = true → t.ev.remoteEntries = s.ev.remoteEntries + 1) ∧
      (entryOn s k a = false → t.ev.foreign = satInc s.ev.foreign ∧ t.img.copies = s.img.copies) ∧
      (∀ u, s.group.upport = some u → ∃ l, t.port[u].urg.waiting = s.port[u].urg.waiting ++
        { msg := lampMsg h, since := s.tick, hold := some (k, unitsOf (linkBytes h)) } :: l ∧ (s.ev.count < 255 → l = [])) ∧
      SameOutside [.ev, .img, .port] s t := by
  subst ha hw ho
  obtain ⟨⟨-, hcopies, -⟩, -⟩ := hs .img
  generalize ha : addrAt h.payload 0 = a
  generalize hw : BitVec.ofNat 32 (beAt h.payload 4 4) = w
  generalize ho : byteAt h.payload 8 = o
  obtain ⟨hwait, hcount, hx⟩ := urgentTaken_parts s k h
  let x := urgentTaken s k h
  let y := forwardUrgent x k (lampMsg h) (unitsOf (linkBytes h))
  have hy : SameOutside [.port] s y := (forwardUrgent_moves ..).same.step rfl (hx.widen rfl)
  let z := if serialGt (epSeq w) (epSeq (y.ep a)) || y.ep a = epNoComm then epStore y a w else y
  have hz : Moves [.img] y z := Moves.ite (fun _ => epStore_moves ..) fun _ => Moves.refl _
  have heo := entryOn_same (hy.boot rfl) (hy.img rfl) k a
  have hep : y.ep a = s.ep a := by
    unfold State.ep State.isLocal State.localBase State.group
    rw [hy.boot rfl, hy.img rfl]
  obtain ⟨r1, r2, r3⟩ := remoteEntry_parts z (lampSource o) a 0 w
  have hact : actLamp y k a w o = if entryOn s k a then remoteEntry z (lampSource o) a 0 w
      else { y with ev := { y.ev with foreign := satInc y.ev.foreign }, img := { y.img with foreign := satInc y.img.foreign } } := by
    unfold actLamp
    rw [heo]
    cases entryOn s k a
    · rfl
    · rfl
  have hq : PortsQueued x (actLamp y k a w o) := by
    rw [hact]
    exact PortsQueued.trans (forwardUrgent_queued ..) (PortsQueued.ite ((PortsQueued.of_moves hz rfl).trans r3) (.of_eq rfl))
  have e : exec (.lampRecord k h) s = .next (actLamp y k a w o) := by
    refine congrArg Host.Outcome.next ?_
    rw [urgentRecord_taken hr ht]
    · rw [ha, hw, ho]
    · rw [ha, hw, ho]
      exact ((hq.port k).get (·.rxCnt) fun _ => rfl).trans hcount
  have hends := (execLampRecord_ends k h s).same e
  rw [hact] at e hends
  cases heb : entryOn s k a with
  | false =>
    rw [heb, if_neg Bool.false_ne_true] at e hends
    refine ⟨_, e, nofun, nofun, fun _ => ⟨congrArg (fun v => satInc v.foreign) (hy.ev rfl),
      show y.img.copies = s.img.copies by rw [hy.img rfl]⟩, ?_, hends⟩
    exact urgent_waiting rfl hx hwait fun u => ⟨[], (List.append_nil _).symm, fun _ => rfl⟩
  | true =>
    rw [heb, if_pos rfl] at e hends
    refine ⟨_, e, fun _ hl hg => ?_, fun _ hen => ?_, nofun, ?_, hends⟩
    · have hloc : y.isLocal a = false := by
        unfold State.isLocal State.localBase State.group at hl ⊢
        rw [hy.boot rfl]
        exact hl
      have hzep : z.ep a = w := by
        show (if serialGt (epSeq w) (epSeq (y.ep a)) || y.ep a = epNoComm then epStore y a w else y).ep a = w
        rw [hep, hg, if_pos (by rfl)]
        exact ep_epStore_copy (votes_of_execRuns ((execRuns_same hy rfl rfl rfl).trans hr)) hloc (by rw [hy.img rfl]; exact hcopies) w
      have hrem := (remoteEntry_moves z (lampSource o) a 0 w).same
      refine Eq.trans ?_ hzep
      unfold State.ep State.isLocal State.localBase State.group
      rw [hrem.boot rfl, hrem.img rfl]
    · have hzev : z.ev = s.ev := (hz.same.ev rfl).trans (hy.ev rfl)
      rw [hzev] at r1
      exact r1 hen
    · refine urgent_waiting rfl hx hwait fun u => ?_
      obtain ⟨l, hl, h0⟩ := r2 u
      rw [hz.same.port rfl] at hl
      rw [hz.same.ev rfl, hy.ev rfl] at h0
      exact ⟨l, hl, h0⟩

theorem completes_eventRecord {s : State} {k : PortIx} {h : LinkHeader} {src : SrcIx} {a : BitVec 20} (ht : FrameTaken s k h (eventMsg h))
    (hsrc : src = (field (byteAt h.payload 0) 0 7 : BitVec 7).toFin) (ha : a = addrAt h.payload 4) (hr : s.execRuns = true) :
    Completes (.eventRecord k h) s fun t =>
      (entryOn s k a = true → s.ev.src[src].enable = true → t.ev.remoteEntries = s.ev.remoteEntries + 1) ∧
      (entryOn s k a = false → t.ev.foreign = satInc s.ev.foreign) ∧
      (∀ u, s.group.upport = some u → ∃ l, t.port[u].urg.waiting = s.port[u].urg.waiting ++
        { msg := eventMsg h, since := s.tick, hold := some (k, unitsOf (linkBytes h)) } :: l ∧ (s.ev.count < 255 → l = [])) ∧
      SameOutside [.ev, .port] s t := by
  subst hsrc ha
  generalize ha : addrAt h.payload 4 = a
  generalize hc : BitVec.ofNat 16 (beAt h.payload 2 2) = c
  obtain ⟨hwait, hcount, hx⟩ := urgentTaken_parts s k h
  let x := urgentTaken s k h
  let y := forwardUrgent x k (eventMsg h) (unitsOf (linkBytes h))
  let src := field (byteAt h.payload 0) 0 7
  have hy : SameOutside [.port] s y := (forwardUrgent_moves ..).same.step rfl (hx.widen rfl)
  have heo := entryOn_same (hy.boot rfl) (hy.img rfl) k a
  obtain ⟨r1, r2, r3⟩ := remoteEntry_parts y src.toFin a c 0
  rw [hy.ev rfl] at r1 r2
  have hact : actEvent y k src c a = if entryOn s k a then remoteEntry y src.toFin a c 0
      else { y with ev := { y.ev with foreign := satInc y.ev.foreign } } := by
    unfold actEvent
    rw [heo]
    cases entryOn s k a
    · rfl
    · rfl
  have hq : PortsQueued x (actEvent y k src c a) := by
    rw [hact]
    exact PortsQueued.trans (forwardUrgent_queued ..) (PortsQueued.ite r3 (.of_eq rfl))
  have e : exec (.eventRecord k h) s = .next (actEvent y k src c a) := by
    refine congrArg Host.Outcome.next ?_
    rw [urgentRecord_taken hr ht]
    · rw [ha, hc]
    · rw [ha, hc]
      exact ((hq.port k).get (·.rxCnt) fun _ => rfl).trans hcount
  rw [hact] at e
  cases heb : entryOn s k a with
  | false =>
    rw [heb, if_neg Bool.false_ne_true] at e
    refine ⟨_, e, nofun, fun _ => congrArg (fun v => satInc v.foreign) (hy.ev rfl), ?_, (SameOutside.set_ev y _).step rfl (hy.widen rfl)⟩
    exact urgent_waiting rfl hx hwait fun u => ⟨[], (List.append_nil _).symm, fun _ => rfl⟩
  | true =>
    rw [heb, if_pos rfl] at e
    exact ⟨_, e, fun _ => r1, nofun, urgent_waiting rfl hx hwait r2, (remoteEntry_moves ..).same.step rfl (hy.widen rfl)⟩

/-! ## Discovery -/

theorem raiseMember_queued (s : State) (j : Fin 256) : PortsQueued s (raiseMember s j) := raise_queued ..

theorem applyPeerWindow_queued (s : State) (k : PortIx) : PortsQueued s (applyPeerWindow s k) := by
  unfold applyPeerWindow
  refine PortsQueued.foldl (fun a je => ?_) _ _
  split
  · exact .of_eq rfl
  · dsimp only
    split
    · exact .of_eq rfl
    · split
      · refine PortsQueued.trans ?_ (raiseMember_queued _ je.1)
        exact .of_eq ((copiesNoComm_moves a je.2).same.port rfl)
      · exact .of_eq rfl

theorem completes_disc {s : State} {k : PortIx} {h : LinkHeader} (ht : FrameTaken s k h (discMsg h)) (hr : s.execRuns = true) :
    Completes (.disc k h) s fun t =>
      t.port[k].peerWinBase = addrAt h.payload 0 ∧ t.port[k].peerWinLog2 = (byteAt h.payload 4).setWidth 5 ∧
      t.port[k].peerWinValid = true ∧ SameOutside [.ev, .img, .port] s t := by
  let x := (frameAccepted s k h).modPort k fun p =>
    { p with peerWinBase := addrAt h.payload 0, peerWinLog2 := (byteAt h.payload 4).setWidth 5, peerWinValid := true }
  have e : exec (.disc k h) s = .next (applyPeerWindow x k) := congrArg Host.Outcome.next (linkFrame_response hr ht _)
  have hq := (applyPeerWindow_queued x k).port k
  rw [show x.port[k] = _ from modPort_self ..] at hq
  exact ⟨_, e, hq.get (·.peerWinBase) fun _ => rfl, hq.get (·.peerWinLog2) fun _ => rfl, hq.get (·.peerWinValid) fun _ => rfl,
      (execDisc_ends k h s).same e⟩

/-! ## Time -/

theorem completes_timeRejected {s : State} {k : PortIx} {h : LinkHeader} {r : TimeRecord} (ht : FrameTaken s k h (timeMsg h))
    (hr : r = timeOf h.payload) (hp : stepPending s.wheel[r.wheel] = false) (hm : s.port[k].mark = none) :
    Completes (.timeRecord k h) s fun t =>
      t.wheel[r.wheel].rejected = satInc s.wheel[r.wheel].rejected ∧ t.time = s.time ∧ SameOutside [.port, .wheel] s t := by
  let x := frameAccepted s k h
  let y := x.modPort k fun p => { p with mark := none }
  have e : exec (.timeRecord k h) s = .next (rejectEvent y r.wheel) := by
    refine congrArg Host.Outcome.next ((linkFrame_taken ht rfl rfl _).trans ?_)
    dsimp only
    rw [(frameAccepted_port s k h k).get (·.mark) fun _ => rfl, hm, ← hr]
  refine ⟨_, e, ?_, rfl, (rejectEvent_moves ..).same.step rfl ((SameOutside.set_port x _).step rfl ((frameAccepted_same s k h).widen rfl))⟩
  show (modAt s.wheel r.wheel _)[r.wheel].rejected = _
  rw [modAt_self, if_neg (by rw [hp]; decide)]

/-- What a TIME record with its MARK leaves of the wheel that follows the port (13 R357). -/
def timeTaken (s : State) (r : TimeRecord) (phi : W32) (t : W64) : State :=
  (captureEvent s r.wheel phi t).modWheel r.wheel fun x => { x with unc := satAdd r.unc 250, hops := r.hops + 1, upUncert := r.uncert }

theorem timeTaken_keeps (s : State) (r : TimeRecord) (phi : W32) (t : W64) :
    WheelKeeps (fun x => (x.rejected, x.state)) r.wheel s (timeTaken s r phi t) := by
  refine WheelKeeps.trans (WheelKeeps.modWheel s r.wheel _ fun x => ?_) (WheelKeeps.modWheel _ r.wheel _ fun _ => rfl)
  split <;> rfl

/-- A TIME record that the wheel accepts, from a sender that knows the wheel's phase. -/
theorem takeTime_eq {s : State} {k : PortIx} {r : TimeRecord} (hf : follows s r.wheel 4 = true) (hp : (s.tide r.wheel).refPort = k)
    (hst : stepPending s.wheel[r.wheel] = false) (hw : r.wheelState ≠ 0) (hper : r.periodUs = (s.tide r.wheel).periodUs)
    (hsec : r.secValid = false) (hu : r.uncert = false) (t : W64) (d : Int) :
    ∃ phi, takeTime s k r t d = if (timeTaken s r phi t).wheel[r.wheel].state = .locked
      then setUncert (timeTaken s r phi t) r.wheel false else timeTaken s r phi t := by
  refine ⟨phaseOf (r.aUp + BitVec.ofInt 64 (divRound (d * r.incUp.toNat) 100)), ?_⟩
  unfold takeTime
  dsimp only
  rw [hsec, if_neg Bool.false_ne_true, hf, decide_eq_true hp, hst, if_neg (by decide), decide_eq_false hw,
    decide_eq_false (not_not.mpr hper), if_neg (by decide), if_neg (by rw [hu]; decide)]
  rfl

theorem setUncert_false (s : State) (w : WheelIx) : (setUncert s w false).wheel[w].uncert = false := by
  unfold setUncert
  dsimp only [Bool.false_and]
  split
  next h => exact h
  next =>
    have hw : ∀ a : State, (refreshAll (putWheels a)).wheel = a.wheel := fun a =>
      ((refreshAll_moves _).same.wheel rfl).trans ((putWheels_moves a).same.wheel rfl)
    exact (congrArg (fun v : Vector Wheel 4 => v[w].uncert) (hw _)).trans (congrArg Wheel.uncert (modAt_self ..))

theorem completes_timeTaken {s : State} {k : PortIx} {h : LinkHeader} {r : TimeRecord} {v : BitVec 24} {t0 : W64} {ns : Byte}
    (ht : FrameTaken s k h (timeMsg h)) (hr : r = timeOf h.payload) (hp : stepPending s.wheel[r.wheel] = false)
    (hm : s.port[k].mark = some (v, t0, ns)) (hv : v = (field h.param 0 16 : W16).setWidth 24) (hf : follows s r.wheel 4 = true)
    (hk : (s.tide r.wheel).refPort = k) (hw : r.wheelState ≠ 0) (hper : r.periodUs = (s.tide r.wheel).periodUs) (hsec : r.secValid = false)
    (hu : r.uncert = false) :
    Completes (.timeRecord k h) s fun t =>
      t.port[k].mark = none ∧ t.wheel[r.wheel].unc = satAdd r.unc 250 ∧ t.wheel[r.wheel].hops = r.hops + 1 ∧
      t.wheel[r.wheel].rejected = s.wheel[r.wheel].rejected ∧ (∀ w : WheelIx, w ≠ r.wheel → t.wheel[w] = s.wheel[w]) ∧
      (s.wheel[r.wheel].state = .locked → t.wheel[r.wheel].uncert = false) ∧ SameOutside [.ch, .ev, .img, .port, .wheel] s t := by
  let x := frameAccepted s k h
  let y := x.modPort k fun p => { p with mark := none }
  obtain ⟨phi, e'⟩ := takeTime_eq (s := y) (k := k) (r := r) hf hk hp hw hper hsec hu t0
    (((s.port[k].delay.toNat : Int) + r.fTx.toNat) - ns.toNat)
  let z := timeTaken y r phi t0
  have e : exec (.timeRecord k h) s = .next (if z.wheel[r.wheel].state = .locked then setUncert z r.wheel false else z) := by
    refine congrArg Host.Outcome.next ((linkFrame_taken ht rfl rfl _).trans ?_)
    dsimp only
    rw [(frameAccepted_port s k h k).get (·.mark) fun _ => rfl, hm]
    dsimp only
    rw [if_pos hv, ← hr, (frameAccepted_port s k h k).get (·.delay) fun _ => rfl]
    exact e'
  have hz := timeTaken_keeps y r phi t0
  have hzw : z.wheel[r.wheel].unc = satAdd r.unc 250 ∧ z.wheel[r.wheel].hops = r.hops + 1 := by
    rw [show z = timeTaken y r phi t0 from rfl, timeTaken, State.modWheel_wheel, modAt_self]
    exact ⟨rfl, rfl⟩
  have hlast : WheelKeeps (fun x => (x.unc, x.hops,
      x.rejected)) r.wheel z (if z.wheel[r.wheel].state = .locked then setUncert z r.wheel false else z) :=
    WheelKeeps.ite (setUncert_keeps (fun _ _ => rfl) z r.wheel false) (.of_eq rfl)
  have hport : PortsQueued z (if z.wheel[r.wheel].state = .locked then setUncert z r.wheel false else z) :=
    PortsQueued.ite (setUncert_told ..).port (.of_eq rfl)
  obtain ⟨h1, h23⟩ := Prod.mk.inj hlast.self
  obtain ⟨h2, h3⟩ := Prod.mk.inj h23
  have hrej : z.wheel[r.wheel].rejected = s.wheel[r.wheel].rejected ∧ z.wheel[r.wheel].state = s.wheel[r.wheel].state :=
    Prod.mk.inj hz.self
  refine ⟨_, e, ?_, h1.trans hzw.1, h2.trans hzw.2, h3.trans hrej.1, fun w hne => (hlast.others w hne).trans (hz.others w hne), fun hl => ?_, ?_⟩
  · refine ((hport.port k).get (·.mark) fun _ => rfl).trans ?_
    show (State.modPort x k _).port[k].mark = none
    rw [modPort_self]
  · rw [if_pos (hrej.2.trans hl)]
    exact setUncert_false ..
  · have hsz : SameOutside [.port, .wheel] s z := (SameOutside.set_wheel _ _).step rfl ((captureEvent_moves ..).same.step rfl
      ((SameOutside.set_port x _).step rfl ((frameAccepted_same s k h).widen rfl)))
    exact (Moves.ite (fun _ => setUncert_moves ..) fun _ => Moves.refl _ : Moves [.ch, .ev, .img, .port, .wheel] z _).same.step rfl
      (hsz.widen rfl)

/-- Settles O37: a record that a port takes is acted on by its kind; an urgent one goes on upstream first, and an overflow of the queue is told behind
it. -/
theorem recordsTakenFromAPort : Obligations.RecordsTakenFromAPort :=
  fun _ _ _ => ⟨fun _ ht hr hp => ⟨completes_timeRejected ht hr hp, fun _ _ _ => completes_timeTaken ht hr hp⟩, completes_disc,
    fun _ _ _ => completes_lampRecord, fun _ _ => completes_eventRecord⟩

end Sys2Proof.Machine
end

section
/-! An odd lane is held for resynchronisation or retired (14 R377, R379, R382, R387, R389, R391). -/
namespace Sys2Proof.Machine

/-! ## What a change of mode leaves of the Triad -/

/-- Only the debugger's attachment and its halt differ. -/
def TriadDetached (t u : TriadState) : Prop := u = { t with attached := u.attached, haltReq := u.haltReq, releasing := u.releasing }

theorem TriadDetached.get {t u : TriadState} (h : TriadDetached t u) {α : Type} (g : TriadState → α)
    (hg : ∀ v : TriadState, g { t with attached := v.attached, haltReq := v.haltReq, releasing := v.releasing } = g t) : g u = g t :=
  (congrArg g h).trans (hg u)

theorem TriadDetached.after {t t' u : TriadState} (h : TriadDetached t u) (e : t = t') : TriadDetached t' u := by
  subst e
  exact h

theorem autoDetach_triad (s : State) : TriadDetached s.triad (autoDetach s).triad := by
  unfold autoDetach
  split
  · dsimp only
    rw [(raise_moves ..).same.triad rfl]
    rfl
  · rfl

theorem modeChanged_triad (s : State) (mode : Mode) : TriadDetached s.triad (modeChanged s mode).triad := by
  unfold modeChanged
  dsimp only
  rw [(refreshAll_moves ..).same.triad rfl]
  split <;> split <;> exact autoDetach_triad _

theorem reduce_triad (s : State) (cause : Byte) : TriadDetached s.triad (reduce s cause).triad := by
  unfold reduce
  dsimp only
  have h : ∀ a : State, (putRetired a).triad = a.triad := fun a => ((putRetired_moves a).same.triad rfl)
  split
  · have hm := modeChanged_triad (writeMode (putRetired s) .reduced cause) .reduced
    have hw : (writeMode (putRetired s) .reduced cause).triad = s.triad := ((writeMode_moves ..).same.triad rfl).trans (h s)
    dsimp only
    exact hm.after hw
  · rw [h]
    rfl

/-- A retirement's change of the mode: the flags follow, and RUN becomes REDUCED (Table 3-4). -/
theorem reduce_m (s : State) (cause : Byte) :
    (reduce s cause).m.laneRet = (s.triad.ret[0] || s.triad.ret[1] || s.triad.ret[2]) ∧
    (s.m.mode = .run → (reduce s cause).m.mode = .reduced ∧ (reduce s cause).m.prev = .run ∧ (reduce s cause).m.cause = cause) := by
  have hp : (putRetired s).m = { s.m with chanRet := decide (retiredBits s ≠ 0), laneRet := s.triad.ret[0] || s.triad.ret[1] || s.triad.ret[2] } := by
    unfold putRetired
    dsimp only
    rw [(putHealth_moves ..).same.m rfl, (putMode_moves ..).same.m rfl]
  have hw : (modeChanged (writeMode (putRetired s) .reduced cause) .reduced).m = { (putRetired s).m with
      mode := .reduced, prev := (putRetired s).m.mode, cause := cause, reducedNow := none } := by
    rw [(modeChanged_moves ..).same.m rfl]
    unfold writeMode
    rw [(putMode_moves ..).same.m rfl]
  unfold reduce
  dsimp only
  split
  next h =>
    rw [hw, hp]
    rw [hp] at h
    exact ⟨rfl, fun _ => ⟨rfl, h, rfl⟩⟩
  next h =>
    rw [hp] at h ⊢
    exact ⟨rfl, fun hr => absurd hr h⟩

/-! ## An odd lane -/

/-- The record of a disagreement (14 R389). -/
def disRecorded (s : State) (l : LaneIx) (src : DisSource) (plane : BitVec 3) : TriadState :=
  { s.triad with
      dis := modAt s.triad.dis l satInc, lastLane := l, lastSource := src.code, lastPlane := plane, lastTick := s.tick.setWidth 32
      disTicks := modAt s.triad.disTicks l fun x => (s.tick :: x).take 3 }

theorem recordDis_triad (s : State) (l : LaneIx) (src : DisSource) (plane : BitVec 3) : (recordDis s l src plane).triad = disRecorded s l src plane :=
  ((raise_moves ..).same.triad rfl)

theorem recordDis_same (s : State) (l : LaneIx) (src : DisSource) (plane : BitVec 3) :
    SameOutside [.triad, .ev, .port] s (recordDis s l src plane) :=
  (raise_moves ..).same.step rfl ((SameOutside.set_triad s _).widen rfl)

/-- A retired lane votes no longer, and the two left are a pair (14 R391). -/
def laneRetired (t : TriadState) (l : LaneIx) : TriadState :=
  { t with vote := setAt t.vote l false, ret := setAt t.ret l true, paired := true, held := none, verFails := 0 }

/-- The state of a lane's retirement, before the mode follows. -/
def retiredTold (s : State) (l : LaneIx) : State :=
  let s1 := { s with triad := laneRetired s.triad l }
  putTriad (raise s1 srcLaneRetired (triadWord s1.triad s1.straps.lanemode))

theorem retiredTold_parts (s : State) (l : LaneIx) :
    (retiredTold s l).triad = laneRetired s.triad l ∧ SameOutside [.triad, .ev, .img, .port] s (retiredTold s l) := by
  let s1 : State := { s with triad := laneRetired s.triad l }
  have h : SameOutside [.ev, .img, .port] s1 (retiredTold s l) := (putTriad_moves ..).same.step rfl ((raise_moves ..).same.widen rfl)
  exact ⟨h.triad rfl, h.step rfl ((SameOutside.set_triad s _).widen rfl)⟩

theorem retireLane_triad (s : State) (l : LaneIx) : TriadDetached (laneRetired s.triad l) (retireLane s l).triad := by
  have h := reduce_triad (retiredTold s l) 0x07
  rw [(retiredTold_parts s l).1] at h
  exact h

theorem any_ret {v : Vector Bool 3} {l : LaneIx} (h : v[l] = true) : (v[0] || v[1] || v[2]) = true := by
  revert h
  fin_cases l <;> simp +contextual

theorem retireLane_m (s : State) (l : LaneIx) :
    (retireLane s l).m.laneRet = true ∧
    (s.m.mode = .run → (retireLane s l).m.mode = .reduced ∧ (retireLane s l).m.prev = .run ∧ (retireLane s l).m.cause = 0x07) := by
  obtain ⟨h1, h2⟩ := reduce_m (retiredTold s l) 0x07
  obtain ⟨ht, hs⟩ := retiredTold_parts s l
  rw [hs.m rfl] at h2
  rw [ht] at h1
  exact ⟨h1.trans (any_ret (setAt_self s.triad.ret l true)), h2⟩

theorem retireLane_same (s : State) (l : LaneIx) :
    SameOutside [.m, .triad, .ch, .ev, .img, .port, .trim, .rul, .pins] s (retireLane s l) :=
  (reduce_moves ..).same.step rfl ((retiredTold_parts s l).2.widen rfl)

/-- A lane declared odd while three vote, whose record of disagreements is `s0`'s. -/
theorem laneOdd_odd (s : State) (l : LaneIx) (src : DisSource) (plane : BitVec 3) : OddLane l src plane s (laneOdd s l src plane) := by
  have hrec := recordDis_triad s l src plane
  have hsame := recordDis_same s l src plane
  cases h : thirdWithin (recordDis s l src plane) l with
  | true =>
    have e : laneOdd s l src plane = retireLane (recordDis s l src plane) l := if_pos h
    have ht := retireLane_triad (recordDis s l src plane) l
    rw [hrec] at ht
    obtain ⟨hm1, hm2⟩ := retireLane_m (recordDis s l src plane) l
    have hs := retireLane_same (recordDis s l src plane) l
    rw [e]
    refine ⟨?_, ht.get (·.lastLane) fun _ => rfl, ht.get (·.lastSource) fun _ => rfl, ht.get (·.lastPlane) fun _ => rfl,
      ht.get (·.lastTick) fun _ => rfl, ?_, fun m hm => ?_, fun hf => absurd (h.symm.trans hf) (by decide),
      fun _ => ⟨ht.get (·.held) fun _ => rfl, ?_, ht.get (·.paired) fun _ => rfl, hm1, fun hr => hm2 (by rw [hsame.m rfl]; exact hr)⟩,
        (hs.fd rfl).trans (hsame.fd rfl),
      (hs.bw rfl).trans (hsame.bw rfl)⟩
    · rw [ht.get (·.dis) fun _ => rfl]
      exact modAt_self ..
    · rw [ht.get (·.vote) fun _ => rfl]
      exact setAt_self ..
    · rw [ht.get (·.vote) fun _ => rfl]
      exact setAt_of_ne _ _ hm
    · rw [ht.get (·.ret) fun _ => rfl]
      exact setAt_self ..
  | false =>
    let s1 := recordDis s l src plane
    let s2 : State := { s1 with triad := { s1.triad with vote := setAt s1.triad.vote l false, held := some l, verFails := 0 } }
    have e : laneOdd s l src plane = putTriad s2 := if_neg (by rw [h]; decide)
    have hs : SameOutside [.img] s2 (putTriad s2) := (putTriad_moves s2).same
    have ht : (putTriad s2).triad = { disRecorded s l src plane with vote := setAt s.triad.vote l false, held := some l, verFails := 0 } := by
      rw [hs.triad rfl]
      show { s1.triad with vote := setAt s1.triad.vote l false, held := some l, verFails := 0 } = _
      rw [hrec]
      rfl
    rw [e]
    refine ⟨?_, ?_, ?_, ?_, ?_, ?_, fun m hm => ?_, fun _ => ⟨?_, ?_, (hs.m rfl).trans (hsame.m rfl)⟩,
      fun hf => absurd (h.symm.trans hf) (by decide), (hs.fd rfl).trans (hsame.fd rfl), (hs.bw rfl).trans (hsame.bw rfl)⟩
    · rw [ht]
      exact modAt_self ..
    · rw [ht]
      rfl
    · rw [ht]
      rfl
    · rw [ht]
      rfl
    · rw [ht]
      rfl
    · rw [ht]
      exact setAt_self ..
    · rw [ht]
      exact setAt_of_ne _ _ hm
    · rw [ht]
    · rw [ht]
      rfl

/-- The triad once the input agreement unit has counted a lane's cycles in the minority (14 R382). -/
def minorityCounted (s : State) (l : LaneIx) (cycles : Nat) : State :=
  { s with triad := { s.triad with iau := modAt s.triad.iau l fun x => satAdd x (min cycles 4096) } }

theorem laneOdd_iau (s : State) (l : LaneIx) (src : DisSource) (plane : BitVec 3) : (laneOdd s l src plane).triad.iau = s.triad.iau := by
  have hrec : (recordDis s l src plane).triad.iau = s.triad.iau := (congrArg TriadState.iau (recordDis_triad s l src plane)).trans rfl
  unfold laneOdd
  dsimp only
  split
  · exact ((retireLane_triad _ l).get (·.iau) fun _ => rfl).trans hrec
  · exact (congrArg TriadState.iau ((putTriad_moves _).same.triad rfl)).trans hrec

/-- What the minority's count adds does not bear on the lane's disagreements. -/
theorem thirdWithin_minorityCounted (s : State) (l : LaneIx) (cycles : Nat) (src : DisSource) (plane : BitVec 3) :
    thirdWithin (recordDis (minorityCounted s l cycles) l src plane) l = thirdWithin (recordDis s l src plane) l := by
  unfold thirdWithin State.since
  rw [recordDis_triad, recordDis_triad, (recordDis_same _ l src plane).tick rfl, (recordDis_same s l src plane).tick rfl]
  rfl

theorem laneOdd_minorityCounted (s : State) (l : LaneIx) (cycles : Nat) (src : DisSource) (plane : BitVec 3) :
    OddLane l src plane s (laneOdd (minorityCounted s l cycles) l src plane) := by
  have h := laneOdd_odd (minorityCounted s l cycles) l src plane
  unfold OddLane at h ⊢
  rw [thirdWithin_minorityCounted] at h
  exact h

/-- Settles O38. A lane declared odd is held or retired by the one rule (`laneOdd_odd`), whoever declares it. -/
theorem oddLaneHeldOrRetired : Obligations.OddLaneHeldOrRetired := by
  intro s l hv hm hl hp
  have hquiet : ¬ (!s.voting || s.straps.lanemode || !s.triad.vote[l]) = true := by
    rw [hv, hm, hl]
    decide
  have hquiet2 : ¬ (!s.voting || s.straps.lanemode || !s.triad.vote[l] || asPair s.triad) = true := by
    rw [hv, hm, hl, hp]
    decide
  have hpair : ¬ asPair s.triad = true := by
    rw [hp]
    decide
  refine ⟨fun p => ?_, ?_, fun cycles hc => ?_, fun cycles hc => ?_⟩
  · exact ⟨_, congrArg Host.Outcome.next ((if_neg hquiet).trans (if_neg hpair)), laneOdd_odd ..⟩
  · exact ⟨_, congrArg Host.Outcome.next ((if_neg hquiet).trans (if_neg hpair)), laneOdd_odd ..⟩
  · have h4096 : min cycles.toNat 4096 = 4096 := min_eq_right hc
    refine ⟨_, congrArg Host.Outcome.next ((if_neg hquiet2).trans (if_pos hc)), laneOdd_minorityCounted s l cycles.toNat _ _, ?_⟩
    refine (congrArg (·[l]) (laneOdd_iau ..)).trans ((modAt_self ..).trans ?_)
    rw [h4096]
  · have hmin : min cycles.toNat 4096 = cycles.toNat := min_eq_left (Nat.le_of_lt hc)
    refine ⟨minorityCounted s l cycles.toNat, congrArg Host.Outcome.next ((if_neg hquiet2).trans (if_neg (Nat.not_le.mpr hc))), ?_, rfl, rfl,
      SameOutside.set_triad s _⟩
    refine (modAt_self ..).trans ?_
    rw [hmin]

end Sys2Proof.Machine
end

section
/-! The mode's entries into SAFE and STOP, and the voting plane's SAFE frame (03 R67, 14 R379, R383, R385). -/
namespace Sys2Proof.Machine

/-! ## The mode after an entry -/

theorem raiseReduced_m (s : State) : (raiseReduced s).m = { s.m with reducedNow := none } := by
  unfold raiseReduced
  split
  · exact (raiseAt_moves ..).same.m rfl
  next h => rw [← h]

theorem setMode_m (s : State) (mode : Mode) (cause : Byte) :
    (setMode s mode cause).m = { s.m with mode := mode, prev := s.m.mode, cause := cause, reducedNow := none } := by
  have hw : (writeMode (raiseReduced s) mode cause).m = { (raiseReduced s).m with
      mode := mode, prev := (raiseReduced s).m.mode, cause := cause, reducedNow := none } := (putMode_moves _).same.m rfl
  rw [raiseReduced_m] at hw
  exact (((modeChanged_moves ..).same.m rfl).trans ((raise_moves ..).same.m rfl)).trans hw

theorem refuseLeaving_m (s : State) (result : Byte) (detail : W32) : (refuseLeaving s result detail).m = { s.m with leaving := none } := by
  unfold refuseLeaving
  split
  · exact (mbxEnd_moves ..).same.m rfl
  next h => rw [← h]

/-- An entry into STOP takes effect in every mode but STOP. -/
theorem enterStop_mode (s : State) (cause : Byte) :
    (enterStop s cause).m.mode = .stop ∧ (s.m.mode ≠ .stop → (enterStop s cause).m.cause = cause) := by
  unfold enterStop
  split
  next h => exact ⟨h, fun hn => absurd h hn⟩
  next h =>
    extract_lets +onlyGivenNames s0 d0 m0 s1
    have h1 := setMode_m (markSafe { dropStepFive s0 with m := { s0.m with afresh := false } } true) .stop cause
    have hp : (portsDown (wheelsStop (commandSafeAll s1)) 11).m = s1.m :=
      ((portsDown_moves ..).same.m rfl).trans (((wheelsStop_moves _).same.m rfl).trans ((commandSafeAll_moves s1).same.m rfl))
    have hm : (stageStop (portsDown (wheelsStop (commandSafeAll s1)) 11)).m = s1.m := ((stageStop_moves _).same.m rfl).trans hp
    have h2 : s1.m.mode = .stop ∧ s1.m.cause = cause := by
      rw [h1]
      exact ⟨rfl, rfl⟩
    rw [hm]
    exact ⟨h2.1, fun _ => h2.2⟩

/-- An entry into SAFE counted: the mode stays SAFE, or the entry made it STOP (03 R67). -/
theorem countSafe_mode (s : State) (h : s.m.mode = .safe) :
    (countSafe s).m.mode = .safe ∧ (countSafe s).m.cause = s.m.cause ∨ (countSafe s).m.mode = .stop ∧ (countSafe s).m.cause = 0x0F := by
  unfold countSafe
  extract_lets +onlyGivenNames m1 s1 n
  split
  · obtain ⟨hm, hc⟩ := enterStop_mode s1 0x0F
    exact .inr ⟨hm, hc (by rw [show s1.m.mode = s.m.mode from rfl, h]; decide)⟩
  · exact .inl ⟨h, rfl⟩

/-- What precedes the counting of an entry into SAFE from RUN, REDUCED or TRIM. -/
def safeMade (s : State) (cause : Byte) (wd : Option (Fin 8)) : State :=
  let rec1 : SafeCause := { code := cause, wd := wd, since := s.tick }
  let s := refuseLeaving (discardReduced s) rcWrongMode (put 0 Mode.safe.code)
  let s0 := { s with
    m := { s.m with
        causes := [rec1], safeTotal := satInc s.m.safeTotal, afresh := false,
        beforeSafe := some ⟨s.m.mode, s.m.safeTicks, s.m.safeTotal, s.m.causes⟩ },
    recov := { s.recov with ruleRestored := false } }
  commandSafeAll (setMode (markSafe (dropStepFive s0) true) .safe cause)

theorem enterSafe_live (s : State) (cause : Byte) (wd : Option (Fin 8)) (h : s.m.mode = .run ∨ s.m.mode = .reduced ∨ s.m.mode = .trim) :
    enterSafe s cause wd = if cause = 0x05 then safeMade s cause wd else countSafe (safeMade s cause wd) := by
  unfold enterSafe
  rcases h with h | h | h <;> rw [h] <;> rfl

theorem safeMade_m (s : State) (cause : Byte) (wd : Option (Fin 8)) :
    (safeMade s cause wd).m.mode = .safe ∧ (safeMade s cause wd).m.cause = cause ∧
    (safeMade s cause wd).m.prev = (discardReduced s).m.mode ∧ (safeMade s cause wd).m.safeTotal = satInc s.m.safeTotal ∧
    (safeMade s cause wd).m.safeTicks = s.m.safeTicks := by
  unfold safeMade
  extract_lets +onlyGivenNames r1 s1 m1 r2 s0
  have hm : (commandSafeAll (setMode (markSafe (dropStepFive s0) true) .safe cause)).m = { s0.m with
      mode := .safe, prev := s0.m.mode, cause := cause, reducedNow := none } := ((commandSafeAll_moves _).same.m rfl).trans (setMode_m ..)
  have h1 : s1.m = { (discardReduced s).m with leaving := none } := refuseLeaving_m ..
  have hd : (discardReduced s).m.safeTotal = s.m.safeTotal ∧ (discardReduced s).m.safeTicks = s.m.safeTicks := by
    unfold discardReduced
    split <;> exact ⟨rfl, rfl⟩
  rw [hm]
  refine ⟨rfl, rfl, ?_, ?_, ?_⟩
  · show s1.m.mode = _
    rw [h1]
  · show satInc s1.m.safeTotal = _
    rw [h1, ← hd.1]
  · show s1.m.safeTicks = _
    rw [h1, ← hd.2]

/-- An entry into SAFE from a live mode ends in SAFE, or in STOP where its count makes it so (03 R67, R70). -/
theorem enterSafe_mode (s : State) (cause : Byte) (wd : Option (Fin 8)) (h : s.m.mode = .run ∨ s.m.mode = .reduced ∨ s.m.mode = .trim) :
    (enterSafe s cause wd).m.mode = .safe ∧ (enterSafe s cause wd).m.cause = cause ∨
    (enterSafe s cause wd).m.mode = .stop ∧ (enterSafe s cause wd).m.cause = 0x0F := by
  obtain ⟨hm, hc, -⟩ := safeMade_m s cause wd
  rw [enterSafe_live s cause wd h]
  split
  · exact .inl ⟨hm, hc⟩
  · have hn := countSafe_mode (safeMade s cause wd) hm
    rw [hc] at hn
    exact hn

/-! ## A blocked plane sends nothing -/

/-- The Triad as a change of the mode leaves it, and while the plane has blocked the lane, nothing is sent but what step 5 drops. -/
structure Silent (s t : State) : Prop where
  triad : TriadDetached s.triad t.triad
  bw : s.triad.blocked = true → t.bw = { s.bw with stepFive := t.bw.stepFive }

theorem TriadDetached.trans {a b c : TriadState} (h1 : TriadDetached a b) (h2 : TriadDetached b c) : TriadDetached a c := by
  unfold TriadDetached at h1 h2 ⊢
  rw [h2, h1]

namespace Silent

theorem of_eq {s t : State} (ht : t.triad = s.triad) (hb : t.bw = s.bw) : Silent s t := by
  refine ⟨?_, fun _ => ?_⟩
  · rw [ht]
    rfl
  · rw [hb]

theorem of_moves {ps : List Part} {s t : State} (h : Moves ps s t) (hp : (ps.contains .triad || ps.contains .bw) = false) : Silent s t := by
  obtain ⟨ht, hb⟩ := Bool.or_eq_false_iff.mp hp
  exact of_eq (h.same.triad ht) (h.same.bw hb)

theorem trans {a b c : State} (h1 : Silent a b) (h2 : Silent b c) : Silent a c where
  triad := h1.triad.trans h2.triad
  bw h := by
    rw [h2.bw ((h1.triad.get (·.blocked) fun _ => rfl).trans h), h1.bw h]

theorem ite {s : State} {c : Prop} [Decidable c] {a b : State} (ha : Silent s a) (hb : Silent s b) : Silent s (if c then a else b) := by
  split
  · exact ha
  · exact hb

end Silent

theorem dropStepFive_silent (s : State) : Silent s (dropStepFive s) := ⟨rfl, fun _ => rfl⟩

theorem setMode_silent (s : State) (mode : Mode) (cause : Byte) : Silent s (setMode s mode cause) := by
  let s1 := raise (writeMode (raiseReduced s) mode cause) srcMode (modeWord (writeMode (raiseReduced s) mode cause).m)
  have h1 : Silent s s1 := ((Silent.of_moves (raiseReduced_moves s) rfl).trans (.of_moves (writeMode_moves ..) rfl)).trans
    (.of_moves (raise_moves ..) rfl)
  have hb : (modeChanged s1 mode).bw = s1.bw := (modeChanged_moves s1 mode).same.bw rfl
  have h2 : Silent s1 (modeChanged s1 mode) := ⟨modeChanged_triad s1 mode, fun _ => by rw [hb]⟩
  exact h1.trans h2

theorem command_silent (s : State) (acts : List FieldAct) : Silent s (command s acts) := by
  have h : Silent s (acts.foldl commanded s) :=
    .of_moves (show Moves [.ch, .ev, .img,
      .port] s (acts.foldl commanded s) from Moves.foldl (fun a x => (commanded_moves a x).widen rfl) (Moves.refl _)) rfl
  unfold command
  split
  · exact .of_eq rfl rfl
  · refine h.trans ⟨?_, fun hb => ?_⟩
    · rw [show (bwSend (acts.foldl commanded s) _).triad = _ from (bwSend_moves ..).same.triad rfl]
      rfl
    · rw [show bwSend (acts.foldl commanded s) _ = _ from if_pos hb]

theorem commandSafeAll_silent (s : State) : Silent s (commandSafeAll s) := by
  let s1 := (List.finRange 16).foldl noteSafe s
  have h : Silent s s1 := .of_moves
    (show Moves [.ch, .ev, .img, .port, .conv, .loop] s s1 from Moves.foldl (fun a x => (noteSafe_moves a x).widen rfl) (Moves.refl _)) rfl
  exact h.trans (command_silent s1 _)

theorem enterStop_silent (s : State) (cause : Byte) : Silent s (enterStop s cause) := by
  unfold enterStop
  split
  · exact .of_eq rfl rfl
  · extract_lets +onlyGivenNames s0 d0 m0 s1
    have hd : Silent s (refuseLeaving (discardReduced (discardSafe s cause)) rcWrongMode (put 0 Mode.stop.code)) :=
      ((Silent.of_moves (discardSafe_moves s cause) rfl).trans (.of_moves (discardReduced_moves _) rfl)).trans (.of_moves (refuseLeaving_moves ..) rfl)
    have h0 : Silent s s0 := hd.trans (.of_moves (ditherStop_moves _) rfl)
    have hq : Silent s (markSafe { dropStepFive s0 with m := { s0.m with afresh := false } } true) :=
      (h0.trans (dropStepFive_silent s0)).trans (.of_eq rfl rfl)
    have h1 : Silent s s1 := hq.trans (setMode_silent ..)
    have h2 : Silent s (wheelsStop (commandSafeAll s1)) := (h1.trans (commandSafeAll_silent s1)).trans (.of_moves (wheelsStop_moves _) rfl)
    have h3 : Silent s (portsDown (wheelsStop (commandSafeAll s1)) 11) := h2.trans (.of_moves (portsDown_moves ..) rfl)
    exact h3.trans (.of_moves (stageStop_moves _) rfl)

theorem countSafe_silent (s : State) : Silent s (countSafe s) := by
  unfold countSafe
  extract_lets +onlyGivenNames m1 s1 n
  have h : Silent s s1 := .of_eq rfl rfl
  exact .ite (h.trans (enterStop_silent s1 0x0F)) h

theorem safeMade_silent (s : State) (cause : Byte) (wd : Option (Fin 8)) : Silent s (safeMade s cause wd) := by
  unfold safeMade
  extract_lets +onlyGivenNames r1 s1 m1 r2 s0
  have h1 : Silent s s1 := (Silent.of_moves (discardReduced_moves _) rfl).trans (.of_moves (refuseLeaving_moves ..) rfl)
  have h0 : Silent s s0 := h1.trans (.of_eq rfl rfl)
  exact ((((h0.trans (dropStepFive_silent s0)).trans (.of_moves (markSafe_moves _ true) rfl)).trans (setMode_silent ..)).trans
    (commandSafeAll_silent _))

theorem enterSafe_silent (s : State) (cause : Byte) (wd : Option (Fin 8)) : Silent s (enterSafe s cause wd) := by
  cases h : s.m.mode
  case run | reduced | trim =>
    rw [enterSafe_live s cause wd (by rw [h]; decide)]
    exact .ite (safeMade_silent ..) ((safeMade_silent ..).trans (countSafe_silent _))
  case safe =>
    let s1 := refuseLeaving s rcCause (put 0 cause)
    let rec1 : SafeCause := { code := cause, wd := wd, since := s.tick }
    let s2 : State := { s1 with
      m := { s1.m with causes := s1.m.causes ++ [rec1], cause := cause, safeTotal := satInc s1.m.safeTotal }
      recov := { s1.recov with ruleRestored := s1.recov.ruleRestored && wd ≠ some 1 } }
    have he : enterSafe s cause wd = countSafe (putMode s2) := by
      unfold enterSafe
      rw [h]
    have h1 : Silent s s1 := .of_moves (refuseLeaving_moves ..) rfl
    have h2 : Silent s s2 := h1.trans (.of_eq rfl rfl)
    rw [he]
    exact (h2.trans (.of_moves (putMode_moves s2) rfl)).trans (countSafe_silent _)
  all_goals
    have he : enterSafe s cause wd = s := by
      unfold enterSafe
      rw [h]
    rw [he]
    exact .of_eq rfl rfl

/-! ## The plane's own frame -/

theorem sendSafe_bw (s : State) (cause : Byte) (why : BitVec 4) : (sendSafe s cause why).bw = { s.bw with
    waiting := [], stepFive := [], txSeq := s.bw.txSeq + 1, unacked := s.bw.unacked ++ [mkTx s (.safe cause why (s.tick.setWidth 32))] } := rfl

/-- The plane's frame sent, and the lane blocked after it. -/
def planeSent (s : State) (cause : Byte) (why : BitVec 4) : State :=
  let s := { s with triad := { s.triad with safeWhy := why } }
  let s1 := sendSafe s cause why
  { s1 with triad := { s1.triad with blocked := true } }

theorem voterSafe_eq (s : State) (cause : Byte) (why : BitVec 4) (event : Bool) (h : s.triad.blocked = false) :
    voterSafe s cause why event = enterSafe (if event then
      raise (planeSent s cause why) srcVoter (triadWord (planeSent s cause why).triad (planeSent s cause why).straps.lanemode)
      else planeSent s cause why) cause none := by
  have hb : ¬ s.triad.blocked = true := by
    rw [h]
    exact Bool.false_ne_true
  unfold voterSafe
  dsimp only
  rw [if_neg hb]
  rfl

/-- A voting plane not yet blocked sends its SAFE frame, blocks the lane, and makes the mode SAFE. -/
theorem voterSafe_safe (s : State) (cause : Byte) (why : BitVec 4) (event : Bool) (h : s.triad.blocked = false) :
    PlaneSafe cause why s (voterSafe s cause why event) ∧
    TriadDetached (planeSent s cause why).triad (voterSafe s cause why event).triad := by
  let s1 := planeSent s cause why
  let s2 := if event then raise s1 srcVoter (triadWord s1.triad s1.straps.lanemode) else s1
  have h2 : SameOutside [.ev, .port] s1 s2 := by
    unfold s2
    split
    · exact (raise_moves ..).same
    · exact .refl _
  have he := enterSafe_silent s2 cause none
  have hb : (enterSafe s2 cause none).bw = { s1.bw with stepFive := (enterSafe s2 cause none).bw.stepFive } := by
    rw [← h2.bw rfl]
    exact he.bw (congrArg TriadState.blocked (h2.triad rfl))
  have ht : TriadDetached s1.triad (enterSafe s2 cause none).triad := he.triad.after (h2.triad rfl)
  have e : voterSafe s cause why event = enterSafe s2 cause none := voterSafe_eq s cause why event h
  rw [e]
  refine ⟨⟨ht.get (·.blocked) fun _ => rfl, ht.get (·.safeWhy) fun _ => rfl, ?_, ?_, fun hm => ?_⟩, ht⟩
  · rw [hb]
    rfl
  · rw [hb]
    rfl
  · have hm2 : s2.m = s.m := h2.m rfl
    rw [← hm2] at hm
    exact (enterSafe_mode s2 cause none hm).imp And.left And.left

/-- Settles O39. Each fault asks for the plane's SAFE frame (`voterSafe_safe`); after it a change of the mode sends nothing (`Silent`). -/
theorem votingPlaneEntersSafe : Obligations.VotingPlaneEntersSafe := by
  intro s hv hb hm
  have hn : ¬ (!s.voting) = true := by
    rw [hv]
    decide
  refine ⟨fun hp => ?_, fun hp => ?_, ?_, fun hh hr hd => ?_⟩
  · have hpm : (asPair s.triad && !s.straps.lanemode) = true := by
      rw [hp, hm]
      rfl
    have hl : ∀ l : LaneIx, s.triad.vote[l] = true → ¬ (!s.voting || s.straps.lanemode || !s.triad.vote[l]) = true := by
      intro l hl
      rw [hv, hm, hl]
      decide
    refine ⟨fun l p h => ?_, fun l h => ?_, ?_, ?_⟩
    · exact ⟨_, congrArg Host.Outcome.next ((if_neg (hl l h)).trans (if_pos hp)), (voterSafe_safe s 0x0A 4 false hb).1⟩
    · exact ⟨_, congrArg Host.Outcome.next ((if_neg (hl l h)).trans (if_pos hp)), (voterSafe_safe s 0x0A 6 false hb).1⟩
    · exact ⟨_, congrArg Host.Outcome.next ((if_neg hn).trans (if_pos hpm)), (voterSafe_safe s 0x0A 4 false hb).1⟩
    · exact ⟨_, congrArg Host.Outcome.next ((if_neg hn).trans (if_pos hpm)), (voterSafe_safe s 0x0A 6 false hb).1⟩
  · have h : ¬ (asPair s.triad || s.straps.lanemode) = true := by
      rw [hp, hm]
      decide
    exact ⟨_, congrArg Host.Outcome.next ((if_neg hn).trans (if_neg h)), (voterSafe_safe s 0x0B 3 true hb).1⟩
  · let s1 : State := { s with triad := { s.triad with fault := true } }
    exact ⟨_, congrArg Host.Outcome.next (if_neg hn), (voterSafe_safe s1 0x0B 1 true hb).1⟩
  · let s1 : State := { s with triad := { s.triad with patternAlt := !s.triad.patternAlt, testDue := false, fault := true, pattern := 0 } }
    have hdue : ¬ (!s.voting || !(s.tick.toNat % 10000 = 0 || s.triad.testDue)) = true := by
      rw [hv]
      rcases hd with hd | hd <;> rw [hd] <;> simp
    have hfree : ¬ (s.triad.held.isSome || s.recov.handover.isSome) = true := by
      rw [hh, hr]
      decide
    have ht : selfTest s (some 0) = voterSafe s1 0x0B 2 true := rfl
    obtain ⟨h1, h2⟩ := voterSafe_safe s1 0x0B 2 true hb
    refine ⟨_, congrArg Host.Outcome.next (((if_neg hdue).trans (if_neg hfree)).trans ht), h1, h2.get (·.fault) fun _ => rfl,
      h2.get (·.pattern) fun _ => rfl,
      h2.get (·.tests) fun _ => rfl⟩

end Sys2Proof.Machine
end

section
/-! Self-test, survey and resynchronisation of the lanes (14 R383, R387, R388, R390, R395). -/
namespace Sys2Proof.Machine

/-! ## What an odd lane leaves of the Triad -/

/-- A part of the Triad that neither the records of disagreements, the votes nor the debugger's attachment are. -/
theorem laneOdd_get {α : Type} (s : State) (l : LaneIx) (src : DisSource) (plane : BitVec 3) (g : TriadState → α)
    (hg : ∀ t v : TriadState, g { t with
      dis := v.dis, lastLane := v.lastLane, lastSource := v.lastSource, lastPlane := v.lastPlane, lastTick := v.lastTick
      disTicks := v.disTicks, vote := v.vote, ret := v.ret, paired := v.paired, held := v.held, verFails := v.verFails
      attached := v.attached, haltReq := v.haltReq, releasing := v.releasing } = g t) :
    g (laneOdd s l src plane).triad = g s.triad := by
  have hrec : g (recordDis s l src plane).triad = g s.triad :=
    (congrArg g (recordDis_triad s l src plane)).trans (hg s.triad (disRecorded s l src plane))
  unfold laneOdd
  dsimp only
  split
  · have h := retireLane_triad (recordDis s l src plane) l
    refine Eq.trans ?_ hrec
    exact (h.get g fun v => hg _ { laneRetired (recordDis s l src plane).triad l with
      attached := v.attached, haltReq := v.haltReq, releasing := v.releasing }).trans (hg _ (laneRetired (recordDis s l src plane).triad l))
  · refine Eq.trans (congrArg g ((putTriad_moves _).same.triad rfl)) (Eq.trans ?_ hrec)
    exact hg _ { (recordDis s l src plane).triad with
      vote := setAt (recordDis s l src plane).triad.vote l false, held := some l, verFails := 0 }

/-! ## Surveys -/

theorem survey_agree {s : State} (h : votingLanes s.triad = [0, 1, 2]) (x : W32) : survey s [x, x, x] = surveyRun s [x, x, x] false := by
  unfold survey
  rw [h]
  exact if_pos (by simp)

theorem survey_secondOdd {s : State} (h : votingLanes s.triad = [0, 1, 2]) {x y : W32} (hne : y ≠ x) :
    survey s [x, y, x] = laneOdd (surveyRun s [x, y, x] true) 1 .survey 7 := by
  have hxy : ¬ x = y := fun e => hne e.symm
  have h3 : ¬ (x = y && y = x) = true := by simp [hxy]
  unfold survey
  rw [h]
  exact (if_neg h3).trans ((if_neg hxy).trans (if_pos rfl))

/-! ## The end of a rebuild -/

/-- The rebuilt lane votes again. -/
def rebuilt (s : State) (l : LaneIx) : State :=
  putTriad { s with triad := { s.triad with vote := setAt s.triad.vote l true, held := none, resyncs := satInc s.triad.resyncs, verFails := 0 } }

theorem rebuilt_triad (s : State) (l : LaneIx) : (rebuilt s l).triad =
    { s.triad with vote := setAt s.triad.vote l true, held := none, resyncs := satInc s.triad.resyncs, verFails := 0 } :=
  (putTriad_moves _).same.triad rfl

theorem rebuilt_same (s : State) (l : LaneIx) : SameOutside [.triad, .img] s (rebuilt s l) :=
  (putTriad_moves _).same.step rfl ((SameOutside.set_triad s _).widen rfl)

/-- The waiting self-test of a rebuild that found no failure. -/
def retested (s : State) : State := if s.triad.testDue && s.recov.handover.isNone then selfTest s none else s

theorem retested_same (s : State) : SameOutside [.triad] s (retested s) := by
  unfold retested
  split
  · exact SameOutside.set_triad s _
  · exact SameOutside.refl s

theorem retested_get {α : Type} (s : State) (g : TriadState → α)
    (hg : ∀ t v : TriadState, g { t with patternAlt := v.patternAlt, testDue := v.testDue, tests := v.tests } = g t) :
    g (retested s).triad = g s.triad := by
  unfold retested
  split
  · exact hg s.triad (selfTest s none).triad
  · rfl

theorem retested_tests (s : State) (h : s.recov.handover = none) :
    (retested s).triad.testDue = false ∧ (retested s).triad.tests = if s.triad.testDue then s.triad.tests + 1 else s.triad.tests := by
  unfold retested
  rw [h]
  cases ht : s.triad.testDue
  · exact ⟨ht, rfl⟩
  · exact ⟨rfl, rfl⟩

theorem afterRebuild_rebuilt {s : State} {crcs : List W32} : afterRebuild s none crcs =
    if (retested s).triad.surveyDue && (retested s).execRuns then survey (retested s) crcs else retested s := rfl

theorem exec_resyncVerified {s : State} {l : LaneIx} (h : s.triad.held = some l) (failing : Option (Fin 6)) (crcs : List W32) :
    exec (.resyncComplete true true failing crcs) s = .next (afterRebuild (rebuilt s l) failing crcs) := by
  show execResyncComplete true true failing crcs s = _
  unfold execResyncComplete
  rw [h]
  rfl

theorem exec_resyncFailed {s : State} {l : LaneIx} (h : s.triad.held = some l) (hv : s.triad.verFails = 0)
    (ht : thirdWithin (recordDis s l .verification 7) l = false) (failing : Option (Fin 6)) (crcs : List W32) :
    exec (.resyncComplete false true failing crcs) s = .next { recordDis s l .verification 7 with
      triad := { (recordDis s l .verification 7).triad with verFails := 1 } } := by
  have hn : ¬ (thirdWithin (recordDis s l .verification 7) l || s.triad.verFails ≠ 0) = true := by
    rw [ht, hv]
    decide
  show execResyncComplete false true failing crcs s = _
  unfold execResyncComplete
  rw [h]
  exact congrArg Host.Outcome.next (if_neg hn)

theorem all_voting {v : Vector Bool 3} {l : LaneIx} (h : ∀ m : LaneIx, m ≠ l → v[m] = true) : setAt v l true = Vector.replicate 3 true := by
  refine Vector.ext fun i hi => ?_
  rw [Vector.getElem_replicate]
  by_cases e : (⟨i, hi⟩ : LaneIx) = l
  · exact (congrArg (fun k : LaneIx => (setAt v l true)[k]) e).trans (setAt_self v l true)
  · exact (setAt_of_ne v true e).trans (h ⟨i, hi⟩ e)

theorem voterSelftest_due {s : State} (hv : s.voting = true) (hh : s.recov.handover = none)
    (hd : s.tick.toNat % 10000 = 0 ∨ s.triad.testDue = true) :
    (s.triad.held = none →
      Completes (.voterSelftest none) s fun t =>
        t.triad.tests = s.triad.tests + 1 ∧ t.triad.patternAlt = !s.triad.patternAlt ∧ t.triad.testDue = false ∧ t.triad.vote = s.triad.vote ∧
        SameOutside [.triad] s t) ∧
    (s.triad.held.isSome = true → ∀ failing,
      exec (.voterSelftest failing) s = .next { s with triad := { s.triad with testDue := true } }) := by
  have hdue : ¬ (!s.voting || !(s.tick.toNat % 10000 = 0 || s.triad.testDue)) = true := by
    rw [hv]
    rcases hd with hd | hd <;> rw [hd] <;> simp
  refine ⟨fun hheld => ?_, fun hheld failing => ?_⟩
  · have hfree : ¬ (s.triad.held.isSome || s.recov.handover.isSome) = true := by
      rw [hheld, hh]
      decide
    exact ⟨_, congrArg Host.Outcome.next ((if_neg hdue).trans (if_neg hfree)), rfl, rfl, rfl, rfl, SameOutside.set_triad s _⟩
  · have hbusy : (s.triad.held.isSome || s.recov.handover.isSome) = true := by
      rw [hheld]
      rfl
    exact congrArg Host.Outcome.next ((if_neg hdue).trans (if_pos hbusy))

theorem stateSurvey_due {s : State} (x : W32) (hv : s.voting = true) (hm : s.straps.lanemode = false) (hheld : s.triad.held = none)
    (hr : s.execRuns = true) (hl : votingLanes s.triad = [0, 1, 2]) (hd : s.tick.toNat % 100000 = 0 ∨ s.triad.surveyDue = true) :
    Completes (.stateSurvey [x, x, x]) s (fun t =>
      t.triad.surveys = s.triad.surveys + 1 ∧ t.triad.survCrc = x ∧ t.triad.mismatch = s.triad.mismatch ∧ t.triad.vote = s.triad.vote ∧
      SameOutside [.triad] s t) ∧
    ∀ y, y ≠ x → Completes (.stateSurvey [x, y, x]) s fun t =>
      t.triad.surveys = s.triad.surveys + 1 ∧ t.triad.survCrc = x ∧ t.triad.mismatch = satInc s.triad.mismatch ∧
      t.triad.lastLane = 1 ∧ t.triad.lastSource = 1 ∧ t.triad.vote[1] = false := by
  have hdue : ¬ (!s.voting || s.straps.lanemode || !(s.tick.toNat % 100000 = 0 || s.triad.surveyDue)) = true := by
    rw [hv, hm]
    rcases hd with hd | hd <;> rw [hd] <;> simp
  have hfree : ¬ (s.triad.held.isSome || !s.execRuns) = true := by
    rw [hheld, hr]
    decide
  refine ⟨⟨_, congrArg Host.Outcome.next ((if_neg hdue).trans ((if_neg hfree).trans (survey_agree hl x))), rfl, rfl, rfl, rfl,
    SameOutside.set_triad s _⟩, fun y hy => ?_⟩
  obtain ⟨-, hlane, hsrc, -, -, hvote, -⟩ := laneOdd_odd (surveyRun s [x, y, x] true) 1 .survey 7
  exact ⟨_, congrArg Host.Outcome.next ((if_neg hdue).trans ((if_neg hfree).trans (survey_secondOdd hl hy))),
    laneOdd_get _ _ _ _ (·.surveys) fun _ _ => rfl, laneOdd_get _ _ _ _ (·.survCrc) fun _ _ => rfl,
    laneOdd_get _ _ _ _ (·.mismatch) fun _ _ => rfl, hlane, hsrc, hvote⟩

section Resync

variable {s : State} {l : LaneIx} (hl : s.triad.held = some l)

include hl

/-- A rebuilt lane that verifies votes again, and the self-test that waited runs then. -/
theorem resyncComplete_retested (crcs : List W32) (hs : s.triad.surveyDue = false) :
    Completes (.resyncComplete true true none crcs) s fun t =>
      t.triad.vote[l] = true ∧ t.triad.held = none ∧ t.triad.resyncs = satInc s.triad.resyncs ∧
      (∀ m : LaneIx, m ≠ l → t.triad.vote[m] = s.triad.vote[m]) ∧
      (s.recov.handover = none →
        t.triad.testDue = false ∧ t.triad.tests = if s.triad.testDue then s.triad.tests + 1 else s.triad.tests) ∧
      SameOutside [.triad, .img] s t := by
  have hdue : (retested (rebuilt s l)).triad.surveyDue = false := by
    rw [retested_get _ (·.surveyDue) fun _ _ => rfl, rebuilt_triad]
    exact hs
  have e : afterRebuild (rebuilt s l) none crcs = retested (rebuilt s l) := by
    rw [afterRebuild_rebuilt, hdue]
    rfl
  have hvote : (retested (rebuilt s l)).triad.vote = setAt s.triad.vote l true := by
    rw [retested_get _ (·.vote) fun _ _ => rfl, rebuilt_triad]
  refine ⟨_, (exec_resyncVerified hl none crcs).trans (congrArg Host.Outcome.next e), ?_, ?_, ?_, fun m hm => ?_, fun hh => ?_,
    (retested_same _).step rfl (rebuilt_same s l)⟩
  · rw [hvote]
    exact setAt_self ..
  · rw [retested_get _ (·.held) fun _ _ => rfl, rebuilt_triad]
  · rw [retested_get _ (·.resyncs) fun _ _ => rfl, rebuilt_triad]
  · rw [hvote]
    exact setAt_of_ne _ _ hm
  · have h := retested_tests (rebuilt s l) (by rw [(rebuilt_same s l).recov rfl]; exact hh)
    rw [rebuilt_triad] at h
    exact h

/-- The survey that waited runs once the lane is rebuilt. -/
theorem resyncComplete_surveyed (x : W32) (hs : s.triad.surveyDue = true) (ht : s.triad.testDue = false) (hr : s.execRuns = true)
    (hall : ∀ m : LaneIx, m ≠ l → s.triad.vote[m] = true) :
    Completes (.resyncComplete true true none [x, x, x]) s fun t =>
      t.triad.vote = Vector.replicate 3 true ∧ t.triad.surveyDue = false ∧ t.triad.surveys = s.triad.surveys + 1 ∧ t.triad.survCrc = x ∧
      t.triad.mismatch = s.triad.mismatch ∧ SameOutside [.triad, .img] s t := by
  have hq : retested (rebuilt s l) = rebuilt s l := by
    refine if_neg ?_
    rw [rebuilt_triad]
    show ¬ (s.triad.testDue && _) = true
    rw [ht]
    exact Bool.false_ne_true
  have hruns : (rebuilt s l).execRuns = true := by
    unfold State.execRuns
    rw [(rebuilt_same s l).m rfl, (rebuilt_same s l).recov rfl, rebuilt_triad]
    exact hr
  have hvote : (rebuilt s l).triad.vote = Vector.replicate 3 true := by
    rw [rebuilt_triad]
    exact all_voting hall
  have hlanes : votingLanes (rebuilt s l).triad = [0, 1, 2] := by
    unfold votingLanes
    rw [hvote]
    decide
  have e : afterRebuild (rebuilt s l) none [x, x, x] = surveyRun (rebuilt s l) [x, x, x] false := by
    rw [afterRebuild_rebuilt, hq, hruns, survey_agree hlanes, rebuilt_triad]
    exact if_pos (by rw [hs]; rfl)
  refine ⟨_, (exec_resyncVerified hl none _).trans (congrArg Host.Outcome.next e), hvote, rfl, ?_, rfl, ?_,
    (surveyRun_moves ..).same.step rfl (rebuilt_same s l)⟩
  · exact (congrArg (fun t : TriadState => t.surveys + 1) (rebuilt_triad s l)).trans rfl
  · exact (congrArg TriadState.mismatch (rebuilt_triad s l)).trans rfl

theorem resyncComplete_failed (failing : Option (Fin 6)) (crcs : List W32) (hf : s.triad.verFails = 0)
    (h3 : thirdWithin (recordDis s l .verification 7) l = false) :
    Completes (.resyncComplete false true failing crcs) s fun t =>
      t.triad.held = some l ∧ t.triad.verFails = 1 ∧ t.triad.lastSource = 4 ∧ t.triad.vote = s.triad.vote ∧
      SameOutside [.triad, .ev, .port] s t := by
  have hrec := recordDis_triad s l .verification 7
  refine ⟨_, exec_resyncFailed hl hf h3 failing crcs, ?_, rfl, ?_, ?_, (SameOutside.set_triad _ _).step rfl ((recordDis_same ..).widen rfl)⟩
  · exact (congrArg TriadState.held hrec).trans hl
  · exact (congrArg TriadState.lastSource hrec).trans rfl
  · exact (congrArg TriadState.vote hrec).trans rfl

end Resync

/-- Settles O40, a lemma for each of the three commands' cases. -/
theorem selfTestSurveyResynchronisation : Obligations.SelfTestSurveyResynchronisation :=
  fun _ => ⟨voterSelftest_due, stateSurvey_due, fun _ hl => ⟨resyncComplete_retested hl, resyncComplete_surveyed hl,
      resyncComplete_failed hl⟩⟩

end Sys2Proof.Machine
end

section
/-! The test access port, and the debugger's attachment (14 R398, R399, 19 R514). -/
namespace Sys2Proof.Machine

/-! ## A source that an operation does not raise -/

/-- The source keeps its settings, its latch, its count and what waits. -/
structure SrcKept (x : SrcIx) (s t : State) : Prop where
  src : t.ev.src[x] = s.ev.src[x]

namespace SrcKept

variable {x : SrcIx} {s t u : State}

theorem of_eq (h : t.ev = s.ev) : SrcKept x s t := ⟨by rw [h]⟩

theorem of_moves {ps : List Part} (h : Moves ps s t) (hp : ps.contains .ev = false) : SrcKept x s t := of_eq (h.same.ev hp)

theorem trans (h : SrcKept x s t) (k : SrcKept x t u) : SrcKept x s u := ⟨k.src.trans h.src⟩

theorem ite {c : Prop} [Decidable c] (h : SrcKept x s t) (k : SrcKept x s u) : SrcKept x s (if c then t else u) := by
  split
  · exact h
  · exact k

theorem foldl {β : Type} {f : State → β → State} (hf : ∀ a y, SrcKept x a (f a y)) (l : List β) (s : State) : SrcKept x s (l.foldl f s) := by
  induction l generalizing s with
  | nil => exact of_eq rfl
  | cons y l ih => exact trans (hf s y) (ih _)

end SrcKept

theorem occur_srcKept {x src : SrcIx} (hs : src ≠ 107) (h : x ≠ src) (h7 : x ≠ 107) (s : State) (detail : W32) (t : W64) :
    SrcKept x s (occur s src detail t) := by
  cases he : s.ev.src[src].enable with
  | true => exact ⟨(occur_source he hs detail t).2.2 x h h7⟩
  | false =>
    rw [occur_disabled he]
    exact .of_eq rfl

theorem modSrc_srcKept {x src : SrcIx} (h : x ≠ src) (s : State) (f : EventSource → EventSource) : SrcKept x s (s.modSrc src f) :=
  ⟨modAt_of_ne _ _ h⟩

theorem raise_srcKept {x src : SrcIx} (hs : src ≠ 107) (h : x ≠ src) (h7 : x ≠ 107) (s : State) (detail : W32) :
    SrcKept x s (raise s src detail) := by
  have h1 : SrcKept x s (if s.m.run = .running && s.ev.src[src].enable then s.modSrc src fun y => { y with latched := true } else s) :=
    .ite (modSrc_srcKept h ..) (.of_eq rfl)
  exact .ite (occur_srcKept hs h h7 ..) ⟨h1.src⟩

theorem raiseAt_srcKept {x src : SrcIx} (hs : src ≠ 107) (h : x ≠ src) (h7 : x ≠ 107) (s : State) (detail : W32) (t : W64) :
    SrcKept x s (raiseAt s src detail t) := .ite (occur_srcKept hs h h7 ..) ⟨rfl⟩

/-! ## Showing the channels anew raises the channels' sources alone -/

section
variable {x : SrcIx} (hx : ∀ (n : Chan) (k : Fin 4), x ≠ chanSrc n k) (h7 : x ≠ 107)
include hx h7

theorem raise_chanSrc_srcKept (s : State) (n : Chan) (k : Fin 4) (detail : W32) : SrcKept x s (raise s (chanSrc n k) detail) := by
  refine raise_srcKept (fun h => ?_) (hx n k) h7 s detail
  have hv := congrArg Fin.val h
  simp only [chanSrc] at hv
  omega

theorem putLamp_srcKept (s : State) (n : Chan) : SrcKept x s (putLamp s n) := by
  unfold putLamp
  have h : ∀ (v : W16) (q : BitVec 4), SrcKept x s (epPut s (s.chEp n 1) q 4 v) := fun v q => .of_moves (epPut_moves ..) rfl
  exact .ite (.of_eq rfl) (.ite (h ..) ((h ..).trans (raise_chanSrc_srcKept hx h7 ..)))

theorem evalLamp_srcKept (s : State) (n : Chan) : SrcKept x s (evalLamp s n) := by
  unfold evalLamp
  refine SrcKept.ite (.of_eq rfl) ?_
  dsimp only
  refine SrcKept.trans ?_ (.of_moves (putHealth_moves ..) rfl)
  have h : ∀ a : State, SrcKept x a (putProving (putLamp a n) n) := fun a =>
    (putLamp_srcKept hx h7 a n).trans (.of_moves (putProving_moves ..) rfl)
  split
  · exact SrcKept.trans (SrcKept.trans (by exact .of_eq rfl) (h _)) (putLamp_srcKept hx h7 ..)
  · exact SrcKept.trans (by exact .of_eq rfl) (h _)

theorem refresh_srcKept (s : State) (n : Chan) : SrcKept x s (refresh s n) := by
  unfold refresh
  have h1 : SrcKept x s (putChanHealth (s.modCh n fun c => { c with life := lifeOf s n }) n) :=
    (SrcKept.of_moves (State.modCh_moves s n _) rfl).trans (.of_moves (putChanHealth_moves ..) rfl)
  exact ((h1.trans (.of_moves (putChanState_moves ..) rfl)).trans (.of_moves (putCommands_moves ..) rfl)).trans (evalLamp_srcKept hx h7 ..)

theorem refreshAll_srcKept (s : State) : SrcKept x s (refreshAll s) := .foldl (refresh_srcKept hx h7) _ _

end

/-- An occurrence of an enabled source while the executive runs advances its count (18 R480). -/
theorem raise_count {s : State} {src : SrcIx} (hr : s.execRuns = true) (he : s.ev.src[src].enable = true) (hs : src ≠ 107) (detail : W32) :
    (raise s src detail).ev.src[src].count = satInc s.ev.src[src].count := by
  rw [raise_running hr]
  exact (occur_source he hs detail s.tick).2.1

/-! ## Detached at the entry into RUN or REDUCED -/

theorem debug_ne_chanSrc (n : Chan) (k : Fin 4) : srcDebug ≠ chanSrc n k := by
  intro h
  have hv := congrArg Fin.val h
  simp only [chanSrc, srcDebug] at hv
  omega

theorem raiseReduced_srcDebug (s : State) : SrcKept srcDebug s (raiseReduced s) := by
  unfold raiseReduced
  split
  · exact SrcKept.trans (by exact .of_eq rfl) (raiseAt_srcKept (by decide) (by decide) (by decide) ..)
  · exact .of_eq rfl

/-- The state before the debugger is detached at an entry into `mode`. -/
def modeWritten (s : State) (mode : Mode) (cause : Byte) : State :=
  let s1 := writeMode (raiseReduced s) mode cause
  let s2 := raise s1 srcMode (modeWord s1.m)
  { s2 with trim := { s2.trim with armValid := false, led := .off, both := false }, pins := { s2.pins with ledLow := false } }

theorem setMode_live (s : State) {mode : Mode} (cause : Byte) (h : mode = .run ∨ mode = .reduced) :
    setMode s mode cause = refreshAll (autoDetach (modeWritten s mode cause)) := by
  rcases h with rfl | rfl <;> rfl

theorem modeWritten_same (s : State) (mode : Mode) (cause : Byte) : SameOutside [.m, .ev, .img, .port, .trim,
    .pins] s (modeWritten s mode cause) := by
  unfold modeWritten
  extract_lets +onlyGivenNames s1 s2
  have h1 : SameOutside [.m, .ev, .img, .port] s s1 := (writeMode_moves ..).same.step rfl ((raiseReduced_moves s).same.widen rfl)
  have h2 : SameOutside [.m, .ev, .img, .port] s s2 := (raise_moves ..).same.step rfl h1
  clear_value s2
  have h3 : SameOutside [.m, .ev, .img, .port, .trim] s { s2 with trim := { s2.trim with armValid := false, led := .off, both := false } } :=
    (SameOutside.set_trim s2 _).step rfl (h2.widen rfl)
  exact (SameOutside.set_pins _ _).step rfl (h3.widen rfl)

theorem modeWritten_m (s : State) (mode : Mode) (cause : Byte) :
    (modeWritten s mode cause).m = { s.m with mode := mode, prev := s.m.mode, cause := cause, reducedNow := none } := by
  have hw : (writeMode (raiseReduced s) mode cause).m = { (raiseReduced s).m with
      mode := mode, prev := (raiseReduced s).m.mode, cause := cause, reducedNow := none } := (putMode_moves _).same.m rfl
  rw [raiseReduced_m] at hw
  exact ((raise_moves ..).same.m rfl).trans hw

theorem modeWritten_srcDebug (s : State) (mode : Mode) (cause : Byte) : SrcKept srcDebug s (modeWritten s mode cause) := by
  let s1 := writeMode (raiseReduced s) mode cause
  have h1 : SrcKept srcDebug s s1 := (raiseReduced_srcDebug s).trans (.of_moves (writeMode_moves ..) rfl)
  have h2 : SrcKept srcDebug s (raise s1 srcMode (modeWord s1.m)) :=
    h1.trans (raise_srcKept (by decide) (by decide) (by decide) ..)
  exact ⟨h2.src⟩

theorem modeWritten_execRuns (s : State) (mode : Mode) (cause : Byte) : (modeWritten s mode cause).execRuns = s.execRuns := by
  have h := modeWritten_same s mode cause
  unfold State.execRuns
  rw [modeWritten_m, h.recov rfl, h.triad rfl]

/-- Entering RUN or REDUCED detaches a debugger that DEBUG_RUN does not allow there (14 R399). -/
theorem setMode_detaches {s : State} {mode : Mode} (cause : Byte) (hm : mode = .run ∨ mode = .reduced) (ha : s.triad.attached = true)
    (hd : s.device.debugRun = false) :
    (setMode s mode cause).triad.attached = false ∧
    (s.execRuns = true → s.ev.src[srcDebug].enable = true →
      (setMode s mode cause).ev.src[srcDebug].count = satInc s.ev.src[srcDebug].count) := by
  let s1 := modeWritten s mode cause
  let s2 : State := { s1 with triad := { s1.triad with attached := false, haltReq := false, releasing := s1.triad.halted } }
  have hsame := modeWritten_same s mode cause
  have hdev : s1.device = s.device := by
    unfold State.device
    rw [hsame.boot rfl]
  have hc : (s1.triad.attached && !s1.device.debugRun && (s1.m.mode = .run || s1.m.mode = .reduced)) = true := by
    rw [hsame.triad rfl, ha, hdev, hd, modeWritten_m]
    rcases hm with rfl | rfl <;> rfl
  have hdet : autoDetach s1 = raise s2 srcDebug (debugWord s2.triad) := if_pos hc
  have e : setMode s mode cause = refreshAll (raise s2 srcDebug (debugWord s2.triad)) := (setMode_live s cause hm).trans (congrArg refreshAll hdet)
  rw [e]
  refine ⟨?_, fun hr he => ?_⟩
  · rw [(refreshAll_moves _).same.triad rfl, (raise_moves ..).same.triad rfl]
  · have hkept : s2.ev.src[srcDebug] = s.ev.src[srcDebug] := (modeWritten_srcDebug s mode cause).src
    have hruns : s2.execRuns = true := (modeWritten_execRuns s mode cause).trans hr
    rw [(refreshAll_srcKept debug_ne_chanSrc (by decide) _).src, raise_count hruns (by rw [hkept]; exact he) (by decide), hkept]

/-- EXTEST drives the cells in reset and in LOAD, and is BYPASS elsewhere (19 R514). -/
theorem completes_extest (s : State) (cells : BitVec 69) : Completes (.extest cells) s fun t =>
    t.triad.ir = .extest ∧ (s.m.run = .held ∨ s.m.mode = .load → t.triad.boundary = cells) ∧
    (s.m.run ≠ .held → s.m.mode ≠ .load → t.triad.boundary = s.triad.boundary ∧ t.triad.dr = 0) ∧ SameOutside [.triad] s t := by
  refine ⟨_, rfl, ?_⟩
  dsimp only
  split
  next h =>
    have hr : s.m.run = .held ∨ s.m.mode = .load := by simpa using h
    exact ⟨rfl, fun _ => rfl, fun h1 h2 => absurd hr (not_or.mpr ⟨h1, h2⟩), SameOutside.set_triad s _⟩
  next h =>
    have hr : ¬ (s.m.run = .held ∨ s.m.mode = .load) := by simpa using h
    exact ⟨rfl, fun h1 => absurd h1 hr, fun _ _ => ⟨rfl, rfl⟩, SameOutside.set_triad s _⟩

/-- Any code that names no instruction of Table 14-9 is BYPASS. -/
theorem ofCode_bypass {ir : BitVec 5} (h : ir ∉ ([0x00, 0x01, 0x02, 0x10, 0x11] : List (BitVec 5))) : TapIr.ofCode ir = .bypass := by
  revert ir
  decide

theorem completes_attach (s : State) : Completes .attach s (fun t =>
    t.triad.attaches = satInc s.triad.attaches ∧
    ((s.m.mode = .run ∨ s.m.mode = .reduced) ∧ s.device.debugRun = false →
      t.triad.attached = s.triad.attached ∧ t.triad.refused = true ∧ t.triad.lastRefused = true) ∧
    (¬((s.m.mode = .run ∨ s.m.mode = .reduced) ∧ s.device.debugRun = false) →
      t.triad.attached = true ∧ t.triad.refused = s.triad.refused ∧ t.triad.lastRefused = false) ∧
    (s.execRuns = true → s.ev.src[srcDebug].enable = true → t.ev.src[srcDebug].count = satInc s.ev.src[srcDebug].count) ∧
    SameOutside [.triad, .ev, .port] s t) := by
  let no := (s.m.mode = .run || s.m.mode = .reduced) && !s.device.debugRun
  let t0 := (scanCtrl s).triad
  let s1 : State := { s with triad := { t0 with
    attaches := satInc t0.attaches, refused := t0.refused || no, lastRefused := no, attached := t0.attached || !no } }
  have ht : (raise s1 srcDebug (debugWord s1.triad)).triad = s1.triad := (raise_moves ..).same.triad rfl
  have hc (hr : s1.execRuns = true) (he : s1.ev.src[srcDebug].enable = true) := raise_count hr he (by decide) (debugWord s1.triad)
  refine ⟨raise s1 srcDebug (debugWord s1.triad), rfl, ?_, fun h => ?_, fun h => ?_, hc,
    (raise_moves ..).same.step rfl ((SameOutside.set_triad s _).widen rfl)⟩
  · rw [ht]
    rfl
  · have hno : no = true := by simpa [no] using h
    rw [ht]
    simp only [s1, hno]
    exact ⟨Bool.or_false _, Bool.or_true _, trivial⟩
  · have hno : no = false := by simpa [no] using h
    rw [ht]
    simp only [s1, hno]
    exact ⟨Bool.or_true _, Bool.or_false _, trivial⟩

/-- Settles O41: the TAP's registers follow the instruction alone; the attachment is decided by the mode and DEBUG_RUN. -/
theorem tapAndAttach : Obligations.TapAndAttach := by
  refine ⟨fun s => ⟨completes_extest s, ?_, fun captured preload => ?_, fun ir hi => ?_⟩,
    fun s => ⟨completes_attach s, fun mode cause => setMode_detaches cause⟩⟩
  · exact ⟨_, rfl, rfl, rfl, rfl, SameOutside.set_triad s _⟩
  · exact ⟨_, rfl, rfl, rfl, rfl, SameOutside.set_triad s _⟩
  · have h := ofCode_bypass hi
    exact ⟨_, rfl, h, if_pos h, rfl, SameOutside.set_triad s _⟩

end Sys2Proof.Machine
end

section
/-! Debug halt, access, step and release (14 R398, R400, R401). -/
namespace Sys2Proof.Machine

/-! ## Replay -/

/-- Of the Triad, only the SRAM words that no other state holds have changed. -/
structure SramStored (s t : State) : Prop where
  triad : t.triad = { s.triad with sram := t.triad.sram }

namespace SramStored

variable {s t u : State}

theorem of_eq (h : t.triad = s.triad) : SramStored s t := ⟨by rw [h]⟩

theorem trans (h : SramStored s t) (k : SramStored t u) : SramStored s u := ⟨by rw [k.triad, h.triad]⟩

theorem ite {c : Prop} [Decidable c] (h : SramStored s t) (k : SramStored s u) : SramStored s (if c then t else u) := by
  split
  · exact h
  · exact k

theorem foldl {β : Type} {f : State → β → State} (hf : ∀ a y, SramStored a (f a y)) (l : List β) (s : State) : SramStored s (l.foldl f s) :=
    by
  induction l generalizing s with
  | nil => exact of_eq rfl
  | cons y l ih => exact trans (hf s y) (ih _)

theorem get (h : SramStored s t) {α : Type} (g : TriadState → α) (hg : ∀ v : TriadState, g { s.triad with sram := v.sram } = g s.triad) :
    g t.triad = g s.triad := (congrArg g h.triad).trans (hg _)

end SramStored

theorem sramStore_stored (s : State) (a : Nat) (v : W32) : SramStored s (sramStore s a v) := by
  have ho : SramStored s { s with triad := { s.triad with sram := sinsert s.triad.sram a v } } := ⟨rfl⟩
  unfold sramStore
  dsimp only
  exact .ite (.ite (.of_eq rfl) (.of_eq rfl)) (.ite (.of_eq rfl) (.ite ho (.ite (.of_eq rfl) (.ite (.of_eq rfl)
    (.ite (.ite ho (.of_eq rfl)) (.ite (.of_eq rfl) ho))))))

/-- The SRAM entries of the replay buffer, stored in order. -/
def replayed (s : State) : State := s.triad.replay.foldl (fun a e => if e.sram then sramStore a e.addr e.value else a) s

theorem replayed_stored (s : State) : SramStored s (replayed s) := .foldl (fun _ _ => .ite (sramStore_stored ..) (.of_eq rfl)) _ _

theorem replayed_same (s : State) : SameOutside [.triad, .recov, .ev, .img, .conv] s (replayed s) := by
  have h : Moves [.triad, .recov, .ev, .img, .conv] s (replayed s) :=
    Moves.foldl (fun a e => Moves.ite (fun _ => (sramStore_moves a e.addr e.value).widen rfl) fun _ => Moves.refl a) (Moves.refl _)
  exact h.same

theorem replayAll_split {s : State} (h : s.straps.lanemode = true) (crcs : List W32) :
    replayAll s crcs = { replayed s with triad := { (replayed s).triad with replay := [] } } := by
  have hm : (replayed s).straps.lanemode = true := by
    rw [(replayed_same s).straps rfl]
    exact h
  exact if_pos hm

theorem replayAll_agree {s : State} (h : s.straps.lanemode = false) (hl : votingLanes s.triad = [0, 1, 2]) (x : W32) :
    replayAll s [x, x, x] = surveyRun { replayed s with triad := { (replayed s).triad with replay := [], surveyDue := true } } [x, x, x] false := by
  have hn : ¬ (replayed s).straps.lanemode = true := by
    rw [(replayed_same s).straps rfl, h]
    exact Bool.false_ne_true
  let y : State := { replayed s with triad := { (replayed s).triad with replay := [], surveyDue := true } }
  have hv : votingLanes y.triad = votingLanes s.triad := (replayed_stored s).get votingLanes fun _ => rfl
  exact (if_neg hn).trans (survey_agree (s := y) (hv.trans hl) x)

/-! ## What waited for the end of a halt -/

theorem eccTaken_empty {s : State} (h : s.recov.eccDue = []) : eccTaken s = s := by
  unfold eccTaken
  rw [h, List.foldl_nil, ← h]

theorem takeBuffered_empty {s : State} (h : s.bw.buffered = []) : takeBuffered s = s := by
  unfold takeBuffered
  rw [h, List.foldl_nil, ← h]

theorem carryAll_empty {s : State} (h : s.held = []) : carryAll s = s := by
  unfold carryAll
  rw [h, List.foldl_nil, ← h]

theorem putAll_queued (s : State) : PortsQueued s (putAll s) := by
  have h1 : PortsQueued s ((List.finRange 16).foldl putHartLive (refreshAll s)) :=
    (refreshAll_told s).port.trans (Told.foldl putHartLive_told ..).port
  have h2 (a : State) : PortsQueued a (putTriad (putSupply (putMode (assignCommands a)))) :=
    ((PortsQueued.of_moves (assignCommands_moves a) rfl).trans (.of_moves (putMode_moves _) rfl)).trans
      ((PortsQueued.of_moves (putSupply_moves _) rfl).trans (.of_moves (putTriad_moves _) rfl))
  have h3 (a : State) : PortsQueued a (putRetired (putLinks (putWheels a))) :=
    ((PortsQueued.of_moves (putWheels_moves a) rfl).trans (.of_moves (putLinks_moves _) rfl)).trans (.of_moves (putRetired_moves _) rfl)
  exact (h1.trans (h2 _)).trans (h3 _)

theorem recallImage_queued (s : State) : PortsQueued s (recallImage s) := by
  unfold recallImage
  exact .ite (.of_eq rfl) ((putAll_queued s).trans (.foldl (fun a je => .of_moves (recallEntry_moves a je) rfl) _ _))

theorem flushSource_queued (s : State) (src : SrcIx) : PortsQueued s (flushSource s src) := by
  unfold flushSource
  split
  · exact PortsQueued.trans (by exact .of_eq rfl) ((enqueue_queued ..).trans (linkRecord_queued ..))
  · exact .of_eq rfl

theorem occurEach_queued (ds : List (SrcIx × W32 × W64)) (s : State) : PortsQueued s (occurEach ds s) := by
  induction ds generalizing s with
  | nil => exact .of_eq rfl
  | cons d ds ih =>
    unfold occurEach
    exact PortsQueued.trans (.ite (occur_queued ..) ((occur_queued ..).trans (flushSource_queued ..))) (ih _)

/-- With nothing held, the end of a halt shows the image anew and raises what that finds. -/
theorem takeWaiting_eq {s : State} (he : s.recov.eccDue = []) (hb : s.bw.buffered = []) (hp : ∀ k : PortIx, s.port[k].buffered = [])
    (hh : s.held = []) : takeWaiting s = raiseHeld (recallImage s) := by
  let a := recallImage s
  let b := raiseHeld a
  have hsame : SameOutside [.m, .ch, .ev, .img, .port] s b := (raiseHeld_moves a).same.step rfl (recallImage_moves s).same
  have hq : PortsQueued s b := (recallImage_queued s).trans (PortsQueued.trans (by exact .of_eq rfl) (occurEach_queued a.ev.deferred _))
  unfold takeWaiting
  rw [eccTaken_empty he, takeBuffered_empty ((congrArg Breakwater.buffered (hsame.bw rfl)).trans hb),
    serveAll_empty fun k => ((hq.port k).get (·.buffered) fun _ => rfl).trans (hp k), carryAll_empty ((hsame.held rfl).trans hh)]

theorem takeWaiting_quiet {s : State} (he : s.recov.eccDue = []) (hb : s.bw.buffered = []) (hp : ∀ k : PortIx, s.port[k].buffered = [])
    (hh : s.held = []) : SameOutside [.m, .ch, .ev, .img, .port] s (takeWaiting s) := by
  rw [takeWaiting_eq he hb hp hh]
  exact (raiseHeld_moves _).same.step rfl (recallImage_moves s).same

/-! ## Access -/

/-- What a scan captures does not bear on what is read. -/
theorem dbgValue_scanned (s : State) (x : DbgTarget) : dbgValue (scanAccess s) x = dbgValue s x := by
  cases x <;> rfl

theorem dbgRead_open {s : State} {addr : W32} {x : DbgTarget} (ho : dbgOpen s.triad = true) (hx : dbgTarget s addr = some x) :
    dbgRead s addr = dbgDone { s with triad := { s.triad with dbgData := dbgValue s x } } addr 0 := by
  unfold dbgRead
  rw [hx]
  exact if_neg (by rw [ho]; decide)

/-- A write of an SRAM word with the lanes in lockstep is recorded, while the buffer has room (14 R400). -/
theorem dbgWrite_open {s : State} {addr : W32} {x : DbgTarget} (ho : dbgOpen s.triad = true) (hx : dbgTarget s addr = some x)
    (hm : s.straps.lanemode = false) (hs : x.isSram = true) (data : W32) :
    dbgWrite s addr data = if 64 ≤ s.triad.replay.length then dbgDone { s with triad := { s.triad with replayFull := true } } addr 3
      else dbgDone { s with triad := { s.triad with replay := s.triad.replay ++ [⟨true, x.key, data⟩] } } addr 0 := by
  have h1 : ¬ (!x.isSram && 392 ≤ x.key % 0x400) = true := by
    rw [hs]
    exact Bool.false_ne_true
  have h2 : ¬ s.straps.lanemode = true := by
    rw [hm]
    exact Bool.false_ne_true
  unfold dbgWrite
  rw [hx]
  refine (if_neg (by rw [ho]; decide)).trans ((if_neg h1).trans ((if_neg h2).trans ?_))
  rw [hs]
  rfl

/-- The value recorded last for an SRAM word is the one read back (14 R400). -/
theorem dbgValue_recorded {s : State} {x : DbgTarget} (hs : x.isSram = true) {rs : List ReplayEntry} {data : W32}
    (hr : s.triad.replay = rs ++ [⟨true, x.key, data⟩]) : dbgValue s x = data := by
  cases x with
  | sram a =>
    unfold dbgValue
    rw [hr, List.reverse_append]
    simp [DbgTarget.key]
  | lane l w => cases hs

theorem completes_dbgRead {s : State} {addr : W32} {x : DbgTarget} (ho : dbgOpen s.triad = true) (hx : dbgTarget s addr = some x) :
    Completes (.dbgRead addr) s (fun t =>
      t.triad.dbgSt = 0 ∧ t.triad.dbgAddr = addr ∧ t.triad.dbgData = dbgValue s x ∧ SameOutside [.triad] s t) := by
  refine ⟨_, congrArg Host.Outcome.next (dbgRead_open (s := scanAccess s) ho hx), rfl, rfl, dbgValue_scanned s x, ?_⟩
  exact (SameOutside.set_triad _ _).step rfl ((SameOutside.set_triad _ _).step rfl (SameOutside.set_triad s _))

theorem completes_dbgWrite {s : State} {addr : W32} {x : DbgTarget} (ho : dbgOpen s.triad = true) (hx : dbgTarget s addr = some x)
    (hm : s.straps.lanemode = false) (hs : x.isSram = true) (data : W32) :
    (s.triad.replay.length < 64 →
      Completes (.dbgWrite addr data) s fun t =>
        t.triad.dbgSt = 0 ∧ t.triad.replay = s.triad.replay ++ [⟨true, x.key, data⟩] ∧ dbgValue t x = data ∧ SameOutside [.triad] s t) ∧
    (64 ≤ s.triad.replay.length →
      Completes (.dbgWrite addr data) s fun t =>
        t.triad.dbgSt = 3 ∧ t.triad.replayFull = true ∧ t.triad.replay = s.triad.replay ∧ SameOutside [.triad] s t) := by
  have e : exec (.dbgWrite addr data) s = .next _ := congrArg Host.Outcome.next (dbgWrite_open (s := scanAccess s) ho hx hm hs data)
  refine ⟨fun h => ?_, fun h => ?_⟩
  · refine ⟨_, e.trans (congrArg Host.Outcome.next (if_neg (Nat.not_le.mpr h))), rfl, rfl, dbgValue_recorded hs rfl, ?_⟩
    exact (SameOutside.set_triad _ _).step rfl ((SameOutside.set_triad _ _).step rfl (SameOutside.set_triad s _))
  · refine ⟨_, e.trans (congrArg Host.Outcome.next (if_pos h)), rfl, rfl, rfl, ?_⟩
    exact (SameOutside.set_triad _ _).step rfl ((SameOutside.set_triad _ _).step rfl (SameOutside.set_triad s _))

/-! ## Step -/

/-- The lanes halted again after one instruction. -/
def haltedAgain (s : State) : State := { s with triad := { s.triad with shown := s.triad.shown + 1, image := [] } }

theorem exec_step {s : State} (ho : dbgOpen s.triad = true) (crcs : List W32) :
    exec (.step crcs) s = .next (haltedAgain (replayAll (scanCtrl s) crcs)) :=
  congrArg Host.Outcome.next (if_neg (by rw [ho]; decide))

theorem scanCtrl_same (s : State) : SameOutside [.triad] s (scanCtrl s) := SameOutside.set_triad s _

theorem completes_stepSplit {s : State} (ho : dbgOpen s.triad = true) (hm : s.straps.lanemode = true) (crcs : List W32) :
    Completes (.step crcs) s fun t =>
      t.triad.replay = [] ∧ t.triad.halted = true ∧ t.triad.attached = true ∧ t.triad.surveys = s.triad.surveys ∧
      SameOutside [.triad, .img, .recov, .ev, .conv] s t := by
  obtain ⟨ha, hh⟩ := Bool.and_eq_true_iff.mp ho
  have hst := replayed_stored (scanCtrl s)
  have e := (exec_step ho crcs).trans (congrArg (fun a => Host.Outcome.next (haltedAgain a)) (replayAll_split (s := scanCtrl s) hm crcs))
  refine ⟨_, e, rfl, (hst.get (·.halted) fun _ => rfl).trans hh, (hst.get (·.attached) fun _ => rfl).trans ha,
      hst.get (·.surveys) fun _ => rfl, ?_⟩
  exact (SameOutside.set_triad _ _).step rfl ((SameOutside.set_triad _ _).step rfl
    ((replayed_same _).step rfl ((scanCtrl_same s).widen rfl)))

theorem completes_stepAgree {s : State} (ho : dbgOpen s.triad = true) (hm : s.straps.lanemode = false)
    (hl : votingLanes s.triad = [0, 1, 2]) (x : W32) :
    Completes (.step [x, x, x]) s fun t =>
      t.triad.replay = [] ∧ t.triad.halted = true ∧ t.triad.attached = true ∧ t.triad.surveys = s.triad.surveys + 1 ∧ t.triad.survCrc = x ∧
      t.triad.mismatch = s.triad.mismatch ∧ SameOutside [.triad, .img, .recov, .ev, .conv] s t := by
  obtain ⟨ha, hh⟩ := Bool.and_eq_true_iff.mp ho
  have hst := replayed_stored (scanCtrl s)
  have e := (exec_step ho [x, x, x]).trans
    (congrArg (fun a => Host.Outcome.next (haltedAgain a)) (replayAll_agree (s := scanCtrl s) hm hl x))
  refine ⟨_, e, rfl, (hst.get (·.halted) fun _ => rfl).trans hh, (hst.get (·.attached) fun _ => rfl).trans ha,
    congrArg (· + 1) (hst.get (·.surveys) fun _ => rfl), rfl, hst.get (·.mismatch) fun _ => rfl, ?_⟩
  exact (SameOutside.set_triad _ _).step rfl ((surveyRun_moves ..).same.step rfl ((SameOutside.set_triad _ _).step rfl
    ((replayed_same _).step rfl ((scanCtrl_same s).widen rfl))))

/-! ## Release -/

/-- The survey that follows an empty replay. -/
def haltSurveyed (s : State) (x : W32) : State :=
  surveyRun { s with triad := { s.triad with ir := .dbgCtrl, dr := ctrlWord s.triad, replay := [], surveyDue := true } } [x, x, x] false

theorem haltSurveyed_same (s : State) (x : W32) : SameOutside [.triad] s (haltSurveyed s x) := SameOutside.set_triad s _

/-- A halt released with nothing to replay and the lanes agreeing, before what waited is taken. -/
def haltEnded (s : State) (x : W32) : State :=
  let s1 := haltSurveyed s x
  let s2 := { s1 with triad := { s1.triad with halted := false, releasing := false, haltUs := satNat 32 (s.since s.triad.haltTick / 10) } }
  let s3 := { s2 with rul := { s2.rul with lastBoundary := none, overRun := 0, overSeen := false } }
  let s4 := { s3 with bw := { s3.bw with l2fUp := false, stopped := false, retrain := satInc s3.bw.retrain, retrainFails := 0 } }
  { s4 with recov := { s4.recov with lanesUpSince := none } }

theorem haltEnded_same (s : State) (x : W32) : SameOutside [.triad, .bw, .recov, .rul] s (haltEnded s x) := by
  have h2 (t : TriadState) : SameOutside [.triad] s { haltSurveyed s x with triad := t } :=
    (SameOutside.set_triad (haltSurveyed s x) t).step rfl (haltSurveyed_same s x)
  have h3 (t : TriadState) (r : RuleState) : SameOutside [.triad, .rul] s { haltSurveyed s x with triad := t, rul := r } :=
    (SameOutside.set_rul { haltSurveyed s x with triad := t } r).step rfl ((h2 t).widen rfl)
  have h4 (t : TriadState) (r : RuleState) (b : Breakwater) :
      SameOutside [.triad, .rul, .bw] s { haltSurveyed s x with triad := t, rul := r, bw := b } :=
    (SameOutside.set_bw { haltSurveyed s x with triad := t, rul := r } b).step rfl ((h3 t r).widen rfl)
  exact (SameOutside.set_recov _ _).step rfl ((h4 _ _ _).widen rfl)

theorem releaseHalt_halted {s : State} (hh : s.triad.halted = true) (hn : NothingHeld s) (hm : s.straps.lanemode = false)
    (hl : votingLanes s.triad = [0, 1, 2]) (x : W32) : releaseHalt (scanCtrl s) [x, x, x] = takeWaiting (haltEnded s x) := by
  have h0 : replayed (scanCtrl s) = scanCtrl s := by
    unfold replayed
    rw [show (scanCtrl s).triad.replay = [] from hn.replay, List.foldl_nil]
  have h1 : replayAll (scanCtrl s) [x, x, x] = haltSurveyed s x := by
    rw [replayAll_agree (s := scanCtrl s) hm hl x, h0]
    rfl
  have hc : ¬ (!(scanCtrl s).triad.halted) = true := by
    rw [show (scanCtrl s).triad.halted = true from hh]
    decide
  have hlane : ¬ (s.fd.alive && s.fd.l2fUp) = true := by
    rw [hn.lane, Bool.and_false]
    exact Bool.false_ne_true
  refine (if_neg hc).trans ?_
  rw [h1]
  exact congrArg takeWaiting (if_neg hlane)

theorem takeWaiting_haltEnded {s : State} (hn : NothingHeld s) (x : W32) :
    SameOutside [.m, .ch, .ev, .img, .port] (haltEnded s x) (takeWaiting (haltEnded s x)) :=
  takeWaiting_quiet hn.words hn.reports hn.requests hn.frames

theorem releaseHalt_running {s : State} (hh : s.triad.halted = false) (crcs : List W32) : releaseHalt (scanCtrl s) crcs = scanCtrl s :=
  if_pos (by rw [show (scanCtrl s).triad.halted = false from hh]; rfl)

/-- The debugger's attachment given up. -/
def detached (s : State) : State := { s with triad := { s.triad with attached := false, haltReq := false } }

theorem detached_halted (s : State) : (detached s).triad.halted = s.triad.halted := rfl

theorem exec_detach (s : State) (crcs : List W32) : exec (.detach crcs) s = .next (detached (releaseHalt (scanCtrl s) crcs)) := rfl

theorem halt_asked {s : State} (ha : s.triad.attached = true) :
    Completes .halt s fun t => (s.triad.halted = false → t.triad.haltReq = true) ∧ t.triad.halted = s.triad.halted ∧
      SameOutside [.triad] s t := by
  refine ⟨_, rfl, fun hh => ?_, rfl, SameOutside.set_triad s _⟩
  show (s.triad.haltReq || (s.triad.attached && !s.triad.halted)) = true
  rw [ha, hh]
  exact Bool.or_true _

theorem triadHalted_stops {s : State} (hq : s.triad.haltReq = true) (hv : s.voting = true) (hh : s.triad.held = none)
    (hr : s.recov.handover = none) :
    Completes .triadHalted s fun t =>
      t.triad.halted = true ∧ t.triad.haltReq = false ∧ t.triad.haltTick = s.tick ∧ t.bw.stopped = true ∧ t.rul.lastBoundary = none ∧
      t.execRuns = false ∧ SameOutside [.triad, .bw, .rul] s t := by
  have hc : ¬ (!s.triad.haltReq || !s.voting || s.triad.held.isSome || s.recov.handover.isSome) = true := by
    rw [hq, hv, hh, hr]
    decide
  have hruns : (decide (s.m.run = .running) && s.recov.handover.isNone && !true) = false := Bool.and_false _
  refine ⟨_, congrArg Host.Outcome.next (if_neg hc), rfl, rfl, rfl, rfl, rfl, hruns, ?_⟩
  have h2 (t : TriadState) (b : Breakwater) : SameOutside [.triad, .bw] s { s with triad := t, bw := b } :=
    (SameOutside.set_bw { s with triad := t } b).step rfl ((SameOutside.set_triad s t).widen rfl)
  have h3 (t : TriadState) (b : Breakwater) (r : RuleState) : SameOutside [.triad, .bw, .rul] s { s with triad := t, bw := b, rul := r } :=
    (SameOutside.set_rul { s with triad := t, bw := b } r).step rfl ((h2 t b).widen rfl)
  exact h3 _ _ _

/-- Access is refused while the triad is not open to the debugger. -/
theorem dbgAccess_closed {s : State} (ho : dbgOpen s.triad = false) (addr : W32) (data : W32) :
    Completes (.dbgRead addr) s (fun t => t.triad.dbgSt = 2 ∧ t.triad.dbgData = s.triad.dbgData ∧ SameOutside [.triad] s t) ∧
    Completes (.dbgWrite addr data) s (fun t => t.triad.dbgSt = 2 ∧ t.triad.replay = s.triad.replay ∧ SameOutside [.triad] s t) := by
  have hc : ¬ dbgOpen (scanAccess s).triad = true := by
    rw [show dbgOpen (scanAccess s).triad = false from ho]
    exact Bool.false_ne_true
  exact ⟨⟨_, congrArg Host.Outcome.next (if_pos (by rw [eq_false_of_ne_true hc]; rfl)), rfl, rfl,
      (SameOutside.set_triad _ _).step rfl (SameOutside.set_triad s _)⟩,
    _, congrArg Host.Outcome.next (if_pos (by rw [eq_false_of_ne_true hc]; rfl)), rfl, rfl,
      (SameOutside.set_triad _ _).step rfl (SameOutside.set_triad s _)⟩

theorem release_running {s : State} (hh : s.triad.halted = false) (crcs : List W32) :
    Completes (.release crcs) s (fun t => t.triad.halted = false ∧ t.triad.attached = s.triad.attached ∧ SameOutside [.triad] s t) ∧
    Completes (.detach crcs) s (fun t => t.triad.attached = false ∧ t.triad.haltReq = false ∧ SameOutside [.triad] s t) := by
  have e : exec (.detach crcs) s = .next (detached (scanCtrl s)) := by
    rw [exec_detach, releaseHalt_running hh crcs]
  exact ⟨⟨_, congrArg Host.Outcome.next (releaseHalt_running hh crcs), hh, rfl, scanCtrl_same s⟩,
    detached (scanCtrl s), e, rfl, rfl, (SameOutside.set_triad _ _).step rfl (scanCtrl_same s)⟩

section Release

variable {s : State} (x : W32) (hh : s.triad.halted = true) (hn : NothingHeld s) (hm : s.straps.lanemode = false)
  (hl : votingLanes s.triad = [0, 1, 2])

include hh hn hm hl

theorem release_goesOn :
    Completes (.release [x, x, x]) s fun t =>
      t.triad.halted = false ∧ t.triad.attached = s.triad.attached ∧ t.triad.haltUs = satNat 32 (s.since s.triad.haltTick / 10) ∧
      t.triad.surveys = s.triad.surveys + 1 ∧ t.bw.stopped = false ∧ t.bw.l2fUp = false ∧ t.bw.retrain = satInc s.bw.retrain ∧
      SameOutside [.triad, .m, .bw, .recov, .rul, .ch, .ev, .img, .port] s t := by
  have ht := takeWaiting_haltEnded hn x
  have htriad := ht.triad rfl
  have hbw := ht.bw rfl
  exact ⟨_, congrArg Host.Outcome.next (releaseHalt_halted hh hn hm hl x), by rw [htriad]; rfl, by rw [htriad]; rfl, by rw [htriad]; rfl,
    by rw [htriad]; rfl, by rw [hbw]; rfl, by rw [hbw]; rfl, by rw [hbw]; rfl, ht.step rfl ((haltEnded_same s x).widen rfl)⟩

theorem detach_goesOn :
    Completes (.detach [x, x, x]) s fun t => t.triad.halted = false ∧ t.triad.attached = false ∧ t.triad.haltReq = false ∧
      SameOutside [.triad, .m, .bw, .recov, .rul, .ch, .ev, .img, .port] s t := by
  have ht := takeWaiting_haltEnded hn x
  have hs : SameOutside [.triad, .m, .bw, .recov, .rul, .ch, .ev, .img, .port] s (takeWaiting (haltEnded s x)) :=
    ht.step rfl ((haltEnded_same s x).widen rfl)
  have e : exec (.detach [x, x, x]) s = .next (detached (takeWaiting (haltEnded s x))) := by
    rw [exec_detach, releaseHalt_halted hh hn hm hl x]
  refine ⟨detached (takeWaiting (haltEnded s x)), e, ?_, rfl, rfl, (SameOutside.set_triad _ _).step rfl hs⟩
  have hk : (takeWaiting (haltEnded s x)).triad = (haltEnded s x).triad := ht.triad rfl
  rw [detached_halted, hk]
  rfl

end Release

/-- Settles O42, a lemma for each command in each state of the debugger. -/
theorem haltAccessRelease : Obligations.HaltAccessRelease :=
  fun _ => ⟨halt_asked, triadHalted_stops, fun addr data ho => dbgAccess_closed ho addr data,
    fun _ _ ho hx => ⟨completes_dbgRead ho hx, fun data hm hs => completes_dbgWrite ho hx hm hs data⟩,
    fun ho => ⟨fun crcs hm => completes_stepSplit ho hm crcs, fun x hm hl => completes_stepAgree ho hm hl x⟩,
    release_running, fun x hh hn hm hl => ⟨release_goesOn x hh hn hm hl, detach_goesOn x hh hn hm hl⟩⟩

end Sys2Proof.Machine
end

section
/-! Reset, and the start up to the executive (03 R62, R65, R66, 14 R394, 15 R407, R412). -/
namespace Sys2Proof.Machine

/-! ## Reset -/

theorem completes_resetSupply (s : State) : Completes (.logicReset .supply) s (fun t =>
    t.m.run = .held ∧ t.m.mode = .load ∧ t.bw.retrain = 0 ∧ t.bw.crcErr = 0 ∧ t.bw.lostSample = 0 ∧ t.recov.pcyc = false ∧
    t.recov.rstCause = 0 ∧ t.held = [] ∧ (∀ n : Chan, t.ch[n].retired = false) ∧ t.flash = s.flash ∧ t.mirror = s.mirror ∧
      t.otp = s.otp) :=
  ⟨logicReset s rstPowerOn 0, rfl, rfl, rfl, rfl, rfl, rfl, rfl, rfl, rfl, fun n => by
    show (Vector.replicate 16 ({} : Channel))[n].retired = false
    exact congrArg Channel.retired (Vector.getElem_replicate ..), rfl, rfl, rfl⟩

theorem completes_resetN {s : State} (h : s.m.run ≠ .held) : Completes (.logicReset .resetN) s fun t =>
    t.m.run = .held ∧ t.m.mode = .load ∧ t.bw.retrain = s.bw.retrain ∧ t.bw.crcErr = s.bw.crcErr ∧
    t.bw.lostSample = s.bw.lostSample ∧ t.recov.pcyc = false ∧ t.recov.rstCause = 1 ∧ t.recov.resets = satInc s.recov.resets ∧
    t.rul.checkpoint = s.rul.checkpoint ∧ t.ev.sramLog = s.ev.sramLog ∧ t.held = [] ∧ (∀ n : Chan, t.ch[n].retired = false) ∧
    t.flash = s.flash ∧ t.otp = s.otp :=
  ⟨logicReset s rstResetN 0, congrArg Host.Outcome.next (if_neg h), rfl, rfl, rfl, rfl, rfl, Bool.and_false _, rfl, rfl, rfl, rfl, rfl, fun n => by
    show (Vector.replicate 16 ({} : Channel))[n].retired = false
    exact congrArg Channel.retired (Vector.getElem_replicate ..), rfl, rfl⟩

/-! ## Straps and clocks -/

/-- The record of the reset as the executive will find it: kept where SRAM kept it. -/
def resetRecord (r : RecovState) (rstValid : Bool) : RecovState :=
  if rstValid then r else { r with rstCause := 0, rstWd := 0, wdResets := [], step4 := false, step4Next := false, resets := 0 }

theorem resetRecord_cause (r : RecovState) (rstValid : Bool) : (resetRecord r rstValid).rstCause ≠ 0 ↔ rstValid = true ∧ r.rstCause ≠ 0 := by
  cases rstValid <;> simp [resetRecord]

/-- The logic die at t0, before the change of mode is recorded. -/
def strapsSampled (s : State) (straps : Straps) (rstValid logValid : Bool) : State :=
  let s1 := { s with straps := straps }
  let s2 := { s1 with recov := resetRecord s.recov rstValid }
  let s3 := { s2 with ev := if logValid then s.ev else { s.ev with sramLog := [], logSeal := false } }
  { s3 with m := { s3.m with mode := .load, prev := .load, cause := if (resetRecord s.recov rstValid).rstCause = 0 then 0x00 else 0x11
                             run := .booting, step := 1, wait := .clocks, t0 := s.tick } }

theorem strapsSampled_same (s : State) (straps : Straps) (rstValid logValid : Bool) :
    SameOutside [.straps, .recov, .ev, .m] s (strapsSampled s straps rstValid logValid) := by
  refine ⟨fun p hp => ?_⟩
  cases p
  case straps | recov | ev | m => simp at hp
  all_goals rfl

theorem exec_start {s : State} (h : s.m.run = .held) (lanemode hcompat : Bool) (boot : BitVec 2) (rstValid logValid : Bool) :
    exec (.start lanemode hcompat boot rstValid logValid) s = .next (
      let s1 := strapsSampled s ⟨lanemode, hcompat, boot⟩ rstValid logValid
      if s1.m.cause = 0 then s1 else raise s1 srcMode (modeWord s1.m)) :=
  congrArg Host.Outcome.next (if_neg (not_not.mpr h))

theorem completes_start {s : State} (h : s.m.run = .held) (lanemode hcompat : Bool) (boot : BitVec 2) (rstValid logValid : Bool) :
    Completes (.start lanemode hcompat boot rstValid logValid) s fun t =>
      t.m.run = .booting ∧ t.m.step = 1 ∧ t.m.mode = .load ∧ t.m.wait = .clocks ∧ t.m.t0 = s.tick ∧
      t.straps = ⟨lanemode, hcompat, boot⟩ ∧ (t.m.cause = 0x11 ↔ rstValid = true ∧ s.recov.rstCause ≠ 0) ∧
      SameOutside [.straps, .recov, .ev, .m, .port] s t := by
  let s1 := strapsSampled s ⟨lanemode, hcompat, boot⟩ rstValid logValid
  let t := if s1.m.cause = 0 then s1 else raise s1 srcMode (modeWord s1.m)
  have ht : SameOutside [.ev, .port] s1 t := by
    unfold t
    split
    · exact SameOutside.refl _
    · exact (raise_moves ..).same
  have hcause : s1.m.cause = 0x11 ↔ rstValid = true ∧ s.recov.rstCause ≠ 0 := by
    rw [← resetRecord_cause]
    show (if (resetRecord s.recov rstValid).rstCause = 0 then (0x00 : Byte) else 0x11) = 0x11 ↔ _
    split
    next h => exact iff_of_false (by decide) (not_not.mpr h)
    next h => exact iff_of_true rfl h
  refine ⟨t, exec_start h lanemode hcompat boot rstValid logValid, ?_⟩
  clear_value t
  beta_reduce
  rw [ht.m rfl, ht.straps rfl]
  exact ⟨rfl, rfl, rfl, rfl, rfl, rfl, hcause, ht.step rfl ((strapsSampled_same ..).widen rfl)⟩

theorem completes_clockWait {s : State} (hb : s.m.run = .booting) (hs : s.m.step = 1) : Completes .clockWaitTimeout s (fun t =>
    t.ev.deferred = s.ev.deferred ++ [(srcClock, clkcfgWord s.clk, s.tick)] ∧ SameOutside [.ev] s t) := by
  have hr : s.execRuns = false := by
    unfold State.execRuns
    rw [hb]
    rfl
  have e : raise s srcClock (clkcfgWord s.clk) =
      { s with ev := { s.ev with deferred := s.ev.deferred ++ [(srcClock, clkcfgWord s.clk, s.tick)] } } := by
    unfold raise
    rw [hr, hb]
    rfl
  have hc : (s.m.run = .booting && s.m.step = 1) = true := by
    rw [hb, hs]
    rfl
  refine ⟨_, congrArg Host.Outcome.next ((if_pos hc).trans e), rfl, SameOutside.set_ev s _⟩

/-- The logic die with its clocks, the tick count begun, before the boot descriptor is read. -/
def clocked (s : State) : State :=
  retick { s with
    clk := { s.clk with xinOk := true, cpllLock := true, lpllLock := true, onMonitor := false, failing := false, goodSince := some s.tick }
    mem := { s.mem with wel := Vector.replicate 2 false } } 0

theorem clocked_same (s : State) : SameOutside [.tick, .m, .clk, .recov, .mem] s (clocked s) := by
  have h1 (c : ClockState) (x : MemPort) : SameOutside [.clk, .mem] s { s with clk := c, mem := x } :=
    (SameOutside.set_mem { s with clk := c } x).step rfl ((SameOutside.set_clk s c).widen rfl)
  exact (retick_moves _ 0).same.step rfl ((h1 _ _).widen rfl)

theorem exec_clocksValid {s : State} (hb : s.m.run = .booting) (hs : s.m.step = 1) : exec .clocksValid s = .next (
    match bootDesc s.flashAt with
    | none => { clocked s with m := { (clocked s).m with step := 2, run := .noExec, wait := .endedInLoad } }
    | some d => { clocked s with
        boot := { (clocked s).boot with desc := some d, descCopy := if d.copy1 then 2 else 1 }
        mem := takeDesc (clocked s).mem d, m := { (clocked s).m with step := 3, wait := .none } }) := by
  have hc : ¬ (s.m.run ≠ .booting || s.m.step ≠ 1) = true := by
    rw [hb, hs]
    decide
  exact congrArg Host.Outcome.next ((if_neg hc).trans rfl)

theorem completes_clocksValid {s : State} (hb : s.m.run = .booting) (hs : s.m.step = 1) : Completes .clocksValid s fun t =>
    t.tick = 0 ∧ t.clk.xinOk = true ∧ t.clk.cpllLock = true ∧ t.clk.lpllLock = true ∧
    (bootDesc s.flashAt = none → t.m.run = .noExec ∧ t.m.wait = .endedInLoad ∧ t.m.step = 2) ∧
    (∀ d, bootDesc s.flashAt = some d → t.boot.desc = some d ∧ t.m.step = 3 ∧ t.m.run = .booting ∧ t.m.wait = .none) ∧
    SameOutside [.tick, .m, .clk, .recov, .mem, .boot] s t := by
  have e := exec_clocksValid hb hs
  have hclk : (clocked s).tick = 0 ∧ (clocked s).clk.xinOk = true ∧ (clocked s).clk.cpllLock = true ∧ (clocked s).clk.lpllLock = true :=
    ⟨rfl, rfl, rfl, rfl⟩
  have hrun : (clocked s).m.run = .booting := hb
  have hsame := clocked_same s
  obtain ⟨h1, h2, h3, h4⟩ := hclk
  cases hd : bootDesc s.flashAt with
  | none =>
    rw [hd] at e
    exact ⟨_, e, h1, h2, h3, h4, fun _ => ⟨rfl, rfl, rfl⟩, nofun, (SameOutside.set_m (clocked s) _).step rfl (hsame.widen rfl)⟩
  | some d =>
    rw [hd] at e
    refine ⟨_, e, h1, h2, h3, h4, nofun, fun d' h' => ⟨h', rfl, hrun, rfl⟩, ?_⟩
    have hb (b : BootState) : SameOutside [.tick, .m, .clk, .recov, .mem, .boot] s { clocked s with boot := b } :=
      (SameOutside.set_boot (clocked s) b).step rfl (hsame.widen rfl)
    have hm (b : BootState) (x : MemPort) : SameOutside [.tick, .m, .clk, .recov, .mem, .boot] s { clocked s with boot := b, mem := x } :=
      (SameOutside.set_mem { clocked s with boot := b } x).step rfl (hb b)
    have hall (b : BootState) (x : MemPort) (m : ModeState) :
        SameOutside [.tick, .m, .clk, .recov, .mem, .boot] s { clocked s with boot := b, mem := x, m := m } :=
      (SameOutside.set_m { clocked s with boot := b, mem := x } m).step rfl (hm b x)
    exact hall _ _ _

/-! ## The executive -/

/-- The slot chosen, and the start check run, whichever way it ended. -/
def startChecked (s : State) (slot fb : Bool) (ok : StartCheck) : State :=
  { s with boot := { s.boot with execSlot := slot, execFb := fb }, triad := startCheckRun s.triad s.straps.lanemode ok }

/-- A start check that failed (14 R394). -/
def startRefused (s : State) (slot fb : Bool) (ok : StartCheck) : State :=
  let s1 := startChecked s slot fb ok
  { s1 with triad := { s1.triad with safeWhy := 7 }, m := { s1.m with run := .noExec, wait := .endedInLoad } }

/-- The executive running, before its first log record. -/
def startPassed (s : State) (slot fb : Bool) (h : SlotHeader) (ok : StartCheck) : State :=
  let s1 := startChecked s slot fb ok
  { s1 with
    boot := { s1.boot with exec := some h }
    triad := { s1.triad with startOk := true, vote := Vector.replicate 3 (!s.straps.lanemode) }
    recov := { s1.recov with slotImage := loadSlotImage s1 (execSlotBase slot) h.length }
    m := { s1.m with run := .running, step := if s1.m.step = 4 then 5 else s1.m.step } }

theorem startCheckRun_parts (t : TriadState) (split : Bool) (ok : StartCheck) :
    (startCheckRun t split ok).startOk = t.startOk ∧
    (checkFailed ok split = none → (startCheckRun t split ok).tests = t.tests + 1) ∧
    ∀ p, checkFailed ok split = some p → (startCheckRun t split ok).fault = true ∧ (startCheckRun t split ok).pattern = BitVec.ofNat 3 p.val ∧
      (startCheckRun t split ok).tests = t.tests := by
  unfold startCheckRun
  cases hf : checkFailed ok split with
  | none => cases split <;> exact ⟨rfl, fun _ => rfl, nofun⟩
  | some p =>
    cases split <;> exact ⟨rfl, nofun, fun q hq => ⟨rfl, congrArg (fun p : Fin 6 => BitVec.ofNat 3 p.val) (Option.some.inj hq), rfl⟩⟩

theorem startChecked_same (s : State) (slot fb : Bool) (ok : StartCheck) : SameOutside [.boot, .triad] s (startChecked s slot fb ok) := by
  have h (b : BootState) (t : TriadState) : SameOutside [.boot, .triad] s { s with boot := b, triad := t } :=
    (SameOutside.set_triad { s with boot := b } t).step rfl ((SameOutside.set_boot s b).widen rfl)
  exact h _ _

theorem startRefused_same (s : State) (slot fb : Bool) (ok : StartCheck) : SameOutside [.boot, .triad, .m] s (startRefused s slot fb ok) := by
  let s1 := startChecked s slot fb ok
  have h (t : TriadState) (m : ModeState) : SameOutside [.triad, .m] s1 { s1 with triad := t, m := m } :=
    (SameOutside.set_m { s1 with triad := t } m).step rfl ((SameOutside.set_triad s1 t).widen rfl)
  exact (h _ _).step rfl ((startChecked_same s slot fb ok).widen rfl)

theorem startPassed_same (s : State) (slot fb : Bool) (h : SlotHeader) (ok : StartCheck) :
    SameOutside [.boot, .triad, .recov, .m] s (startPassed s slot fb h ok) := by
  have hk (b : BootState) (t : TriadState) : SameOutside [.boot, .triad] s { s with boot := b, triad := t } :=
    (SameOutside.set_triad { s with boot := b } t).step rfl ((SameOutside.set_boot s b).widen rfl)
  have hr (b : BootState) (t : TriadState) (r : RecovState) : SameOutside [.boot, .triad, .recov] s { s with boot := b, triad := t, recov := r } :=
    (SameOutside.set_recov { s with boot := b, triad := t } r).step rfl ((hk b t).widen rfl)
  have hm (b : BootState) (t : TriadState) (r : RecovState) (m : ModeState) :
      SameOutside [.boot, .triad, .recov, .m] s { s with boot := b, triad := t, recov := r, m := m } :=
    (SameOutside.set_m { s with boot := b, triad := t, recov := r } m).step rfl ((hr b t r).widen rfl)
  exact hm _ _ _ _

theorem logPut_deferred (e : EventRouter) (ltype flags : Byte) (resets : W16) (body : List W32) (tickh : W32) :
    (logPut e ltype flags resets body tickh).deferred = e.deferred := by
  unfold logPut
  split <;> rfl

theorem raiseDeferred_empty {s : State} (h : s.ev.deferred = []) : raiseDeferred s = s := by
  unfold raiseDeferred
  rw [h, List.foldl_nil, ← h]

section
variable {s : State} {d : BootDesc} (hd : s.boot.desc = some d) (hb : s.m.run = .booting) (hs : 3 ≤ s.m.step.toNat)
include hd hb hs

theorem exec_executiveLoaded (ok : StartCheck) : exec (.executiveLoaded ok) s =
    .next (match chooseSlot s.flashAt false d.execSlot d.fallbackExec with
      | none => { s with boot := { s.boot with execNone := true }, m := { s.m with run := .noExec, wait := .endedInLoad } }
      | some (slot, fb, h) => if !checkPassed ok s.straps.lanemode then startRefused s slot fb ok
        else takeBuffered (raiseDeferred (startLog (startPassed s slot fb h ok)))) := by
  have hc : ¬ (s.m.run ≠ .booting || s.m.step.toNat < 3) = true := by
    rw [hb]
    simpa using hs
  show execExecutiveLoaded ok s = _
  unfold execExecutiveLoaded
  rw [hd]
  refine congrArg Host.Outcome.next ((if_neg hc).trans ?_)
  cases chooseSlot s.flashAt false d.execSlot d.fallbackExec <;> rfl

theorem completes_noExecutive (hn : chooseSlot s.flashAt false d.execSlot d.fallbackExec = none) (ok : StartCheck) :
    Completes (.executiveLoaded ok) s fun t =>
      t.boot.execNone = true ∧ t.m.run = .noExec ∧ t.m.wait = .endedInLoad ∧ SameOutside [.boot, .m] s t := by
  have e := exec_executiveLoaded hd hb hs ok
  rw [hn] at e
  have h (b : BootState) (m : ModeState) : SameOutside [.boot, .m] s { s with boot := b, m := m } :=
    (SameOutside.set_m { s with boot := b } m).step rfl ((SameOutside.set_boot s b).widen rfl)
  exact ⟨_, e, rfl, rfl, rfl, h _ _⟩

variable {slot fb : Bool} {h : SlotHeader} (hsel : chooseSlot s.flashAt false d.execSlot d.fallbackExec = some (slot, fb, h))
include hsel

theorem completes_startRefused {ok : StartCheck} (hf : checkPassed ok s.straps.lanemode = false) :
    Completes (.executiveLoaded ok) s fun t =>
      t.triad.safeWhy = 7 ∧ t.triad.startOk = s.triad.startOk ∧ t.m.run = .noExec ∧ t.m.wait = .endedInLoad ∧ t.boot.execSlot = slot ∧
      (∀ p, checkFailed ok s.straps.lanemode = some p →
        t.triad.fault = true ∧ t.triad.pattern = BitVec.ofNat 3 p.val ∧ t.triad.tests = s.triad.tests) ∧
      SameOutside [.boot, .triad, .m] s t := by
  have e := exec_executiveLoaded hd hb hs ok
  rw [hsel] at e
  obtain ⟨h1, -, h3⟩ := startCheckRun_parts s.triad s.straps.lanemode ok
  exact ⟨_, e.trans (congrArg Host.Outcome.next (if_pos (by rw [hf]; rfl))), rfl, h1, rfl, rfl, rfl, h3, startRefused_same s slot fb ok⟩

theorem completes_startPassed {ok : StartCheck} (hp : checkPassed ok s.straps.lanemode = true) (hdef : s.ev.deferred = [])
    (hbuf : s.bw.buffered = []) :
    Completes (.executiveLoaded ok) s fun t =>
      t.m.run = .running ∧ t.boot.exec = some h ∧ t.boot.execSlot = slot ∧ t.boot.execFb = fb ∧ t.triad.startOk = true ∧
      t.triad.tests = s.triad.tests + 1 ∧
      (∀ l : LaneIx, t.triad.vote[l] = !s.straps.lanemode) ∧ SameOutside [.boot, .triad, .m, .recov, .ev] s t := by
  let s1 := startPassed s slot fb h ok
  have e := exec_executiveLoaded hd hb hs ok
  rw [hsel] at e
  have hlog : SameOutside [.ev] s1 (startLog s1) := (startLog_moves s1).same
  have hend : takeBuffered (raiseDeferred (startLog s1)) = startLog s1 := by
    rw [raiseDeferred_empty, takeBuffered_empty]
    · exact (congrArg Breakwater.buffered (hlog.bw rfl)).trans hbuf
    · exact (logPut_deferred ..).trans hdef
  have hnone : checkFailed ok s.straps.lanemode = none := Option.isNone_iff_eq_none.mp (Bool.and_eq_true_iff.mp hp).1
  obtain ⟨-, htests, -⟩ := startCheckRun_parts s.triad s.straps.lanemode ok
  refine ⟨startLog s1, (e.trans (congrArg Host.Outcome.next (if_neg (by rw [hp]; decide)))).trans (congrArg Host.Outcome.next hend), rfl,
      rfl, rfl, rfl,
    rfl, htests hnone, fun l => ?_, hlog.step rfl ((startPassed_same s slot fb h ok).widen rfl)⟩
  exact Vector.getElem_replicate ..

end

/-- Settles O43: a lemma for each stage of the start, in its order. -/
theorem resetAndStartUpToTheExecutive : Obligations.ResetAndStartUpToTheExecutive := fun s =>
  ⟨completes_resetSupply s, completes_resetN,
    fun h => ⟨_, congrArg Host.Outcome.next (if_pos h), rfl, rfl, SameOutside.set_recov s _⟩,
    fun lanemode hcompat boot rstValid logValid h => completes_start h lanemode hcompat boot rstValid logValid,
    fun hb hs => ⟨completes_clockWait hb hs, completes_clocksValid hb hs⟩,
    fun d hd hb hs => ⟨fun ok hn => completes_noExecutive hd hb hs hn ok, fun slot fb h ok hsel =>
      ⟨completes_startRefused hd hb hs hsel, completes_startPassed hd hb hs hsel⟩⟩⟩

end Sys2Proof.Machine
end

section
/-! The end of a start (03 R62 steps 6 to 11, R63, Tables 3-1, 3-3). -/
namespace Sys2Proof.Machine

/-! ## The copy selected depends on the flash alone -/

theorem copyAt_same {ps : List Part} {s t : State} (h : SameOutside ps s t) (hf : ps.contains .flash = false) (hm : ps.contains .mirror = false) :
    t.copyAt = s.copyAt := by
  funext c
  unfold State.copyAt State.mirrorAt State.flashAt
  rw [h.flash hf, h.mirror hm]

section
variable {s t : State} (hc : t.copyAt = s.copyAt) (hd : t.boot.desc = s.boot.desc)
include hc hd

theorem mirrorB_same : t.mirrorB = s.mirrorB := by
  unfold State.mirrorB
  rw [hd]

omit hd in
theorem copyOk_same : t.copyOk = s.copyOk := by
  funext c
  unfold State.copyOk
  rw [hc]

theorem triedMirror_same (c : CopyId) (st : Vector (BitVec 3) 3) : triedMirror t c st = triedMirror s c st := by
  unfold triedMirror
  rw [mirrorB_same hc hd, copyOk_same hc]

theorem tryCopies_same (h : SlotHeader) (cs : List CopyId) (st : Vector (BitVec 3) 3) (older : Bool) :
    tryCopies t h st older cs = tryCopies s h st older cs := by
  induction cs generalizing st older with
  | nil => rfl
  | cons c cs ih =>
    unfold tryCopies
    simp only [hc, triedMirror_same hc hd, ih]

theorem copyOrder_same : t.copyOrder = s.copyOrder := by
  have hb : t.copyB = s.copyB := by
    unfold State.copyB
    rw [mirrorB_same hc hd, copyOk_same hc]
  have hq : t.seqOf = s.seqOf := by
    funext c
    unfold State.seqOf
    rw [hc]
  unfold State.copyOrder
  rw [hb, mirrorB_same hc hd, copyOk_same hc, hq]

theorem headerStates_same : headerStates t = headerStates s := by
  unfold headerStates
  rw [mirrorB_same hc hd, copyOk_same hc]

theorem selectConfig_same (h : SlotHeader) : selectConfig t h = selectConfig s h := by
  unfold selectConfig
  rw [tryCopies_same hc hd, copyOrder_same hc hd, headerStates_same hc hd]

end

/-! ## A start that ends in LOAD -/

theorem endInLoad_parts (s : State) (cause : Option Byte) : (endInLoad s cause).m.mode = s.m.mode ∧ (endInLoad s cause).m.wait = .endedInLoad ∧
    (endInLoad s cause).m.cause = cause.getD s.m.cause ∧ (endInLoad s cause).boot = s.boot := by
  unfold endInLoad
  dsimp only
  split
  · rw [(bwSend_moves ..).same.m rfl, (bwSend_moves ..).same.boot rfl]
    exact ⟨rfl, rfl, rfl, rfl⟩
  · exact ⟨rfl, rfl, rfl, rfl⟩

theorem startNoUcode_parts (s : State) (h : SlotHeader) (hm : s.m.mode = .load) :
    (startNoUcode s h).m.mode = .load ∧ (startNoUcode s h).m.wait = .endedInLoad ∧ (startNoUcode s h).m.cause = 0x12 ∧
    (startNoUcode s h).boot.ucodeMm = true := by
  unfold startNoUcode
  extract_lets +onlyGivenNames x x2 b0 s1
  obtain ⟨h1, h2, h3, h4⟩ := endInLoad_parts (raise s1 srcVersion (if x2.schemaMm then 3 else 1)) (some 0x12)
  have hs : SameOutside [.ev, .port] s1 (raise s1 srcVersion (if x2.schemaMm then 3 else 1)) := (raise_moves ..).same
  rw [h1, h2, h3, h4, hs.m rfl, hs.boot rfl]
  exact ⟨hm, rfl, rfl, rfl⟩

/-! ## The generation reaches the field die -/

/-- What a start with the field die outside slack hold leaves, once generation `g` is chosen. -/
structure Started (g : Generation) (s t : State) : Prop where
  gen : t.boot.gen = s.boot.gen
  ident : t.fd.ident = some (g.seq, g.hdrCrc)
  readopt : t.m.readopt = .notInHold
  straps : t.straps = s.straps
  recov : t.recov = s.recov

theorem putRetired_readopt (s : State) : (putRetired s).m.readopt = s.m.readopt := by
  unfold putRetired
  dsimp only
  rw [(putHealth_moves ..).same.m rfl, (putMode_moves ..).same.m rfl]

theorem putAll_readopt (s : State) : (putAll s).m.readopt = s.m.readopt := by
  let s1 := (List.finRange 16).foldl putHartLive (refreshAll s)
  have h1 : SameOutside [.ch, .ev, .img, .port] s s1 := (Moves.foldl (fun a n => (putHartLive_moves a n).widen rfl) (refreshAll_moves s) :
    Moves [.ch, .ev, .img, .port] s s1).same
  have h2 : SameOutside [.img] s1 (putLinks (putWheels (putTriad (putSupply (putMode (assignCommands s1)))))) :=
    (putLinks_moves _).same.step rfl ((putWheels_moves _).same.step rfl ((putTriad_moves _).same.step rfl ((putSupply_moves _).same.step rfl
      ((putMode_moves _).same.step rfl (assignCommands_moves _).same))))
  exact (putRetired_readopt _).trans (congrArg ModeState.readopt ((h2.m rfl).trans (h1.m rfl)))

theorem initLocal_readopt (s : State) : (initLocal s).m.readopt = s.m.readopt := by
  unfold initLocal
  dsimp only
  rw [(recompute_moves _).same.m rfl, putAll_readopt]

theorem restoreCheckpoint_readopt (s : State) (g : Generation) (sealed adopted : Bool) :
    (restoreCheckpoint s g sealed adopted).m.readopt = s.m.readopt := by
  unfold restoreCheckpoint
  split
  · split
    · dsimp only
      split <;> rfl
    · rfl
  · rfl

theorem takeGeneration_gen (s : State) (g : Generation) : (takeGeneration s g).boot.gen = s.boot.gen := by
  unfold takeGeneration
  extract_lets +onlyGivenNames s1 b c r s2
  have h1 : SameOutside [.ev, .ch, .conv] s s1 :=
    (applyFilter_moves ..).same.step rfl ((applyKinds_moves ..).same.step rfl ((applyEvents_moves ..).same.widen rfl))
  have h2 : SameOutside [.ch, .ev, .img, .port, .wheel, .rul] s2 (entriesInit (openPorts (rulesReset s2)) fun _ _ => false) :=
    (entriesInit_moves ..).same.step rfl ((openPorts_moves _).same.step rfl ((rulesReset_moves s2).same.widen rfl))
  have hb : s1.boot = s.boot := h1.boot rfl
  rw [h2.boot rfl]
  show s1.boot.gen = _
  rw [hb]

section
variable {s : State} (hs : s.fd.slack = false)
include hs

theorem canAdopt_running (g : Generation) : canAdopt s g = false := by
  unfold canAdopt
  rw [hs]
  rfl

theorem startDie_fresh (g : Generation) (hr : s.m.readopt ≠ .refused) :
    startDie s g = configureFresh { s with m := { s.m with readopt := .notInHold } } g true := by
  have h1 : ¬ canAdopt s g = true := by
    rw [canAdopt_running hs]
    exact Bool.false_ne_true
  have h2 : refuseAdopt s g = { s with m := { s.m with readopt := .notInHold } } := (if_neg hr).trans (if_pos (by rw [hs]; rfl))
  exact (if_neg h1).trans (by rw [h2])

theorem startField_started (g : Generation) (hr : s.m.readopt ≠ .refused) (sealed : Bool) : Started g s (startField s g sealed) := by
  let s0 : State := { s with m := { s.m with readopt := .notInHold } }
  let s1 := configureFresh s0 g true
  let s2 := restoreCheckpoint (takeGeneration s1 g) g sealed false
  let s4 := (List.finRange 16).foldl (fun a n => putDir (putNoSig a n) n) ((List.finRange 16).foldl readChan s2)
  let s5 : State := { resetAllPaths s4 with ev := s4.ev }
  have e : startField s g sealed = { initLocal s5 with m := { (initLocal s5).m with step := 9 } } := by
    unfold startField
    dsimp only
    rw [canAdopt_running hs, startDie_fresh hs g hr, if_neg Bool.false_ne_true, if_neg Bool.false_ne_true]
  have h1 : SameOutside [.free, .fd, .ch, .img, .conv, .loop] s0 s1 := (configureFresh_moves ..).same
  have h2 : SameOutside [.clk, .m, .boot, .ch, .ev, .img, .port, .conv, .wheel, .rul] s1 s2 :=
    (restoreCheckpoint_moves ..).same.step rfl ((takeGeneration_moves ..).same.widen rfl)
  have h4 : SameOutside [.ch, .loop] s2 s4 :=
    (Moves.foldl (fun a n => Moves.step (putDir_moves ..) rfl ((putNoSig_moves a n).widen rfl))
      (Moves.foldl (fun a n => (readChan_moves a n).widen rfl) (Moves.refl _)) : Moves [.ch, .loop] s2 s4).same
  have h5 : SameOutside [.ch, .ev, .img, .port, .conv] s4 s5 := (SameOutside.set_ev _ _).step rfl (resetAllPaths_moves s4).same
  have h6 : SameOutside [.m, .ch, .ev, .img, .port, .loop] s5 (startField s g sealed) := by
    rw [e]
    exact (SameOutside.set_m _ _).step rfl (initLocal_moves s5).same
  have h25 : SameOutside [.ch, .ev, .img, .port, .conv, .loop] s2 s5 := h5.step rfl (h4.widen rfl)
  refine ⟨?_, ?_, ?_, ?_, ?_⟩
  · rw [h6.boot rfl, h25.boot rfl, (restoreCheckpoint_moves ..).same.boot rfl, takeGeneration_gen, h1.boot rfl]
  · rw [h6.fd rfl, h25.fd rfl, h2.fd rfl]
    exact (configureFresh_configured s0 g true).ident
  · rw [e]
    show (initLocal s5).m.readopt = _
    rw [initLocal_readopt, h25.m rfl, restoreCheckpoint_readopt, (takeGeneration_moves ..).same.m rfl, h1.m rfl]
  · rw [h6.straps rfl, h25.straps rfl, h2.straps rfl, h1.straps rfl]
  · rw [h6.recov rfl, h25.recov rfl, h2.recov rfl, h1.recov rfl]

end

/-! ## The mode of Table 3-1 -/

/-- With BOOT 0 and no step 4 of the recovery ladder, step 11 makes the mode RUN, or REDUCED where something is retired. -/
theorem startMode_run {s : State} (hr : s.recov.step4Next = false) (hb : s.straps.boot = 0) :
    ((startMode s).m.mode = .run ∨ (startMode s).m.mode = .reduced) ∧ (startMode s).m.cause = 0x01 ∧ (startMode s).m.step = 11 ∧
    (startMode s).m.readopt = s.m.readopt ∧ (startMode s).boot = s.boot ∧ (startMode s).fd = s.fd := by
  let s1 : State := { s with
    m := { s.m with step := 11, wait := .none, elapsedMs := satNat 16 (s.since s.m.t0 / 10000) }, recov := { s.recov with step4 := false } }
  have h4 : ¬ s1.recov.step4Next = true := by
    rw [show s1.recov.step4Next = false from hr]
    exact Bool.false_ne_true
  have h0 : ¬ bitAt s1.straps.boot 0 = true := by
    rw [show s1.straps.boot = 0 from hb]
    decide
  have e : startMode s = setMode s1 (runMode s1) 0x01 := (if_neg h4).trans (if_neg h0)
  have hm : runMode s1 = .run ∨ runMode s1 = .reduced := by
    unfold runMode
    split
    · exact .inr rfl
    · exact .inl rfl
  have hk : SameOutside [.m, .triad, .ch, .ev, .img, .port, .trim, .rul, .pins] s1 (setMode s1 (runMode s1) 0x01) := (setMode_moves ..).same
  rw [e, setMode_m, hk.boot rfl, hk.fd rfl]
  exact ⟨hm, rfl, rfl, rfl, rfl, rfl⟩

/-- Step 10, before the mode is made. -/
def serviceReady (s : State) (g : Generation) (x : StartMeasure) : State :=
  let s1 := startField s g x.sealed
  let s2 := wheelsStart s1 (s1.m.readopt = .readopted)
  { s2 with m := { s2.m with step := 10 }, mem := { s2.mem with bootDec := s2.straps.boot = 3 } }

theorem serviceReady_parts (s : State) (g : Generation) (x : StartMeasure) :
    (serviceReady s g x).m.readopt = (startField s g x.sealed).m.readopt ∧
    SameOutside [.m, .mem, .ch, .ev, .img, .port, .wheel] (startField s g x.sealed) (serviceReady s g x) := by
  unfold serviceReady
  extract_lets a b
  have h : SameOutside [.ch, .ev, .img, .port, .wheel] a b := (wheelsStart_moves a _).same
  clear_value b
  have hm (m : ModeState) (y : MemPort) : SameOutside [.m, .mem] b { b with m := m, mem := y } :=
    (SameOutside.set_mem { b with m := m } y).step rfl ((SameOutside.set_m b m).widen rfl)
  have hmm := h.m rfl
  refine ⟨?_, (hm _ _).step rfl (h.widen rfl)⟩
  show b.m.readopt = a.m.readopt
  rw [hmm]

theorem startService_eq (s : State) {g : Generation} {x : StartMeasure} (hp : powerOk g x.vloop x.vfld = true) :
    startService s g x = startMode (serviceReady s g x) := by
  have hn : ¬ (!powerOk g x.vloop x.vfld) = true := by
    rw [hp]
    decide
  exact if_neg hn

theorem startService_run {s : State} {g : Generation} {x : StartMeasure} (hp : powerOk g x.vloop x.vfld = true) (hs : s.fd.slack = false)
    (hr : s.m.readopt ≠ .refused) (hb : s.straps.boot = 0) (h4 : s.recov.step4Next = false) :
    ((startService s g x).m.mode = .run ∨ (startService s g x).m.mode = .reduced) ∧ (startService s g x).m.cause = 0x01 ∧
    (startService s g x).m.step = 11 ∧ (startService s g x).m.readopt = .notInHold ∧ (startService s g x).boot.gen = s.boot.gen ∧
    (startService s g x).fd.ident = some (g.seq, g.hdrCrc) := by
  have e := startService_eq s hp
  have h := startField_started hs g hr x.sealed
  obtain ⟨hra, h2⟩ := serviceReady_parts s g x
  have hr3 : (serviceReady s g x).recov.step4Next = false := by
    rw [h2.recov rfl, h.recov]
    exact h4
  have hb3 : (serviceReady s g x).straps.boot = 0 := by
    rw [h2.straps rfl, h.straps]
    exact hb
  obtain ⟨k1, k2, k3, k4, k5, k6⟩ := startMode_run hr3 hb3
  rw [e, k4, k5, k6, hra, h2.boot rfl, h2.fd rfl]
  exact ⟨k1, k2, k3, h.readopt, h.gen, h.ident⟩

/-! ## Steps 7 and 8 -/

theorem journalReplay_gen (s : State) : (journalReplay s).boot.gen = s.boot.gen := by
  unfold journalReplay
  extract_lets m rs c s1
  have h : SameOutside [.ch, .conv] { s with conv := { s.conv with points := [] } } s1 :=
    (Moves.foldl (fun a x => jApply_moves m a x) (Moves.refl _) : Moves [.ch, .conv] { s with conv := { s.conv with points := [] } } s1).same
  have hb := h.boot rfl
  have hg : s1.boot.gen = s.boot.gen := by rw [hb]
  clear_value s1
  split <;> exact hg

theorem journalReplay_raised (s : State) (b : Bool) (detail : W32) :
    (journalReplay (if b then raise s srcConfig detail else s)).boot.gen = s.boot.gen ∧
    SameOutside [.boot, .ev, .port, .ch, .conv] s (journalReplay (if b then raise s srcConfig detail else s)) := by
  have ha : SameOutside [.ev, .port] s (if b then raise s srcConfig detail else s) := by
    split
    · exact (raise_moves ..).same
    · exact SameOutside.refl _
  exact ⟨by rw [journalReplay_gen, ha.boot rfl], (journalReplay_moves _).same.step rfl (ha.widen rfl)⟩

/-- The state at step 7 with generation `g` of copy `c`. -/
def copyChosen (s : State) (c : CopyId) (g : Generation) : State :=
  { s with boot := { s.boot with gen := some g, cfg := c.code, act := c.code }, m := { s.m with step := 7 } }

theorem copyChosen_same (s : State) (c : CopyId) (g : Generation) : SameOutside [.boot, .m] s (copyChosen s c g) := by
  have hk (b : BootState) (m : ModeState) : SameOutside [.boot, .m] s { s with boot := b, m := m } :=
    (SameOutside.set_m { s with boot := b } m).step rfl ((SameOutside.set_boot s b).widen rfl)
  exact hk _ _

/-- The state at step 8 with copy `c`. -/
def copyTaken (s : State) (c : CopyId) (older : Bool) : State :=
  let g := decGeneration (s.copyAt c) c.base
  let s1 := copyChosen s c g
  let s2 := journalReplay (if older || s1.boot.unapplied then raise s1 srcConfig (put 0 g.seq) else s1)
  { s2 with m := { s2.m with step := 8 } }

theorem copyTaken_parts (s : State) (c : CopyId) (older : Bool) :
    (copyTaken s c older).boot.gen = some (decGeneration (s.copyAt c) c.base) ∧ (copyTaken s c older).m = { s.m with step := 8 } ∧
    SameOutside [.m, .boot, .ch, .ev, .port, .conv] s (copyTaken s c older) := by
  have h1 := copyChosen_same s c (decGeneration (s.copyAt c) c.base)
  obtain ⟨hg, h2⟩ := journalReplay_raised (copyChosen s c (decGeneration (s.copyAt c) c.base))
    (older || (copyChosen s c (decGeneration (s.copyAt c) c.base)).boot.unapplied) (put 0 (decGeneration (s.copyAt c) c.base).seq)
  unfold copyTaken
  dsimp only
  generalize journalReplay (if older || (copyChosen s c (decGeneration (s.copyAt c) c.base)).boot.unapplied then
    raise (copyChosen s c (decGeneration (s.copyAt c) c.base)) srcConfig (put 0 (decGeneration (s.copyAt c) c.base).seq)
    else copyChosen s c (decGeneration (s.copyAt c) c.base)) = s2 at hg h2
  have hm := h2.m rfl
  refine ⟨hg, ?_, (SameOutside.set_m s2 _).step rfl (h2.step rfl (h1.widen rfl))⟩
  rw [hm]
  rfl

theorem startCopy_eq (s : State) (c : CopyId) (older : Bool) (x : StartMeasure) : startCopy s c older x =
    if s.straps.boot = 2 then endInLoad (copyTaken s c older) (some 0x01)
    else startService (copyTaken s c older) (decGeneration (s.copyAt c) c.base) x := by
  unfold startCopy copyTaken copyChosen
  rfl

/-- Step 6 with the field die outside slack hold: the microcode is loaded. -/
theorem takeUcode_fresh {s : State} (hs : s.fd.slack = false) (slot fb : Bool) (u : SlotHeader) : takeUcode s slot fb u = { s with
    boot := { s.boot with ucodeSlot := slot, ucodeFb := fb, ucode := some u }, m := { s.m with step := 6, wait := .none }
    fd := { s.fd with ucode := some (u.version, u.bodyCrc) } } := by
  unfold takeUcode
  have h1 : ¬ (s.fd.slack && s.fd.ucode = some (u.version, u.bodyCrc)) = true := by
    rw [hs]
    exact Bool.false_ne_true
  have h2 : ¬ (s.fd.slack && !s.fd.expired) = true := by
    rw [hs]
    exact Bool.false_ne_true
  dsimp only
  rw [if_neg h1, if_neg h2]

theorem takeUcode_parts {s : State} (hs : s.fd.slack = false) (slot fb : Bool) (u : SlotHeader) :
    (takeUcode s slot fb u).copyAt = s.copyAt ∧ (takeUcode s slot fb u).boot.desc = s.boot.desc ∧
    (takeUcode s slot fb u).m = { s.m with step := 6, wait := .none } ∧ (takeUcode s slot fb u).fd.slack = false ∧
    (takeUcode s slot fb u).straps = s.straps ∧ (takeUcode s slot fb u).recov = s.recov := by
  rw [takeUcode_fresh hs]
  exact ⟨rfl, rfl, rfl, hs, rfl, rfl⟩

/-! ## The start's end -/

section
variable {s : State} {d : BootDesc} {h : SlotHeader} (hd : s.boot.desc = some d) (hh : s.boot.exec = some h) (hr : s.execRuns = true)
  (hm : s.m.mode = .load) (h5 : s.m.step = 5) (href : s.conv.refReady = true) (htry : s.m.refOnTries ≤ 3) (hup : s.bw.allUp = true)
  (hb : s.triad.blocked = false) (hf : s.fd.safeHeld = false)
include hd hh hr hm h5 href htry hup hb hf

theorem exec_microcodeAccepted (x : StartMeasure) : exec (.microcodeAccepted x) s =
    .next (match chooseSlot s.flashAt true d.ucodeSlot d.fallbackUcode with
      | some (slot, fb, u) => if ucodeOk h u.version then startConfig (takeUcode s slot fb u) h x else startNoUcode s h
      | none => startNoUcode s h) := by
  have hc : ¬ (!s.execRuns || s.m.mode ≠ .load || s.m.step ≠ 5 || !s.conv.refReady || 3 < s.m.refOnTries || !s.bw.allUp || s.triad.blocked
      || s.fd.safeHeld) = true := by
    rw [hr, hm, h5, href, hup, hb, hf]
    simpa using htry
  show execMicrocodeAccepted x s = _
  unfold execMicrocodeAccepted
  rw [hd, hh]
  exact congrArg Host.Outcome.next ((if_neg hc).trans rfl)

theorem completes_noMicrocode (hn : chooseSlot s.flashAt true d.ucodeSlot d.fallbackUcode = none) (x : StartMeasure) :
    Completes (.microcodeAccepted x) s fun t =>
      t.m.mode = .load ∧ t.m.wait = .endedInLoad ∧ t.m.cause = 0x12 ∧ t.boot.ucodeMm = true := by
  have e := exec_microcodeAccepted hd hh hr hm h5 href htry hup hb hf x
  rw [hn] at e
  exact ⟨_, e, startNoUcode_parts s h hm⟩

variable {slot fb : Bool} {u : SlotHeader} {c : CopyId} (hsel : chooseSlot s.flashAt true d.ucodeSlot d.fallbackUcode = some (slot, fb, u))
  (hu : ucodeOk h u.version = true) (hc : (selectConfig s h).active = some c) (hs : s.fd.slack = false)
include hsel hu hc hs

/-- The copy selected is tried on a state that differs from the start's only in the records of steps 6 and 7. -/
theorem exec_copySelected (x : StartMeasure) : ∃ a : State, ∃ older : Bool,
    exec (.microcodeAccepted x) s = .next (startCopy a c older x) ∧ a.copyAt = s.copyAt ∧ a.m = { s.m with step := 6, wait := .none } ∧
    a.fd.slack = false ∧ a.straps = s.straps ∧ a.recov = s.recov := by
  have e := exec_microcodeAccepted hd hh hr hm h5 href htry hup hb hf x
  rw [hsel] at e
  let s1 := takeUcode s slot fb u
  let a := recordCopies s1 (selectConfig s1 h)
  obtain ⟨hcopy, hdesc, hparts⟩ := takeUcode_parts hs slot fb u
  have hsc : selectConfig s1 h = selectConfig s h := selectConfig_same hcopy hdesc h
  have ha : (selectConfig s1 h).active = some c := by
    rw [hsc]
    exact hc
  have ec : startConfig s1 h x = startCopy a c (selectConfig s1 h).older x := by
    unfold startConfig
    dsimp only
    rw [ha]
  exact ⟨a, (selectConfig s1 h).older, (e.trans (congrArg Host.Outcome.next (if_pos hu))).trans (congrArg Host.Outcome.next ec), hcopy, hparts⟩

theorem completes_bootInLoad (h2 : s.straps.boot = 2) (x : StartMeasure) : Completes (.microcodeAccepted x) s fun t =>
    t.m.mode = .load ∧ t.m.wait = .endedInLoad ∧ t.m.cause = 0x01 ∧ t.boot.gen = some (decGeneration (s.copyAt c) c.base) := by
  obtain ⟨a, older, e, hcopy, ha, -, hstraps, -⟩ := exec_copySelected hd hh hr hm h5 href htry hup hb hf hsel hu hc hs x
  have hk : startCopy a c older x = endInLoad (copyTaken a c older) (some 0x01) :=
    (startCopy_eq a c older x).trans (if_pos (by rw [hstraps]; exact h2))
  obtain ⟨k1, k2, k3, k4⟩ := endInLoad_parts (copyTaken a c older) (some 0x01)
  obtain ⟨g1, g2, -⟩ := copyTaken_parts a c older
  refine ⟨_, e.trans (congrArg Host.Outcome.next hk), ?_, k2, k3, ?_⟩
  · rw [k1, g2, ha]
    exact hm
  · rw [k4, g1, hcopy]

theorem completes_bootInService (ha : s.m.readopt ≠ .refused) (h0 : s.straps.boot = 0) {x : StartMeasure}
    (hp : powerOk (decGeneration (s.copyAt c) c.base) x.vloop x.vfld = true) (h4 : s.recov.step4Next = false) :
    Completes (.microcodeAccepted x) s fun t =>
      (t.m.mode = .run ∨ t.m.mode = .reduced) ∧ t.m.cause = 0x01 ∧ t.m.step = 11 ∧ t.m.readopt = .notInHold ∧
      t.boot.gen = some (decGeneration (s.copyAt c) c.base) ∧
      t.fd.ident = some ((decGeneration (s.copyAt c) c.base).seq, (decGeneration (s.copyAt c) c.base).hdrCrc) := by
  obtain ⟨a, older, e, hcopy, hma, hslack, hstraps, hrecov⟩ := exec_copySelected hd hh hr hm h5 href htry hup hb hf hsel hu hc hs x
  have hk : startCopy a c older x = startService (copyTaken a c older) (decGeneration (a.copyAt c) c.base) x :=
    (startCopy_eq a c older x).trans (if_neg (by rw [hstraps, h0]; decide))
  rw [hcopy] at hk
  obtain ⟨g1, g2, g3⟩ := copyTaken_parts a c older
  rw [hcopy] at g1
  have hrun := startService_run (s := copyTaken a c older) hp (by rw [g3.fd rfl]; exact hslack) (by rw [g2, hma]; exact ha)
    (by rw [g3.straps rfl, hstraps]; exact h0) (by rw [g3.recov rfl, hrecov]; exact h4)
  rw [g1] at hrun
  exact ⟨_, e.trans (congrArg Host.Outcome.next hk), hrun⟩

end

/-- Settles O44: the start's last stage by its strap: without microcode, into LOAD, or into service. -/
theorem startEndsAsTheStrapsSay : Obligations.StartEndsAsTheStrapsSay := by
  intro s d h x hd hh hr hm h5 href htry hup hra hb hf
  refine ⟨fun hn => completes_noMicrocode hd hh hr hm h5 href htry hup hb hf hn x, fun slot fb u c hsel hu hc hs => ⟨fun h2 => ?_,
      fun h0 hp h4 => ?_⟩⟩
  · exact completes_bootInLoad hd hh hr hm h5 href htry hup hb hf hsel hu hc hs h2 x
  · exact completes_bootInService hd hh hr hm h5 href htry hup hb hf hsel hu hc hs hra h0 hp h4

end Sys2Proof.Machine
end

section
/-! Clock failure and recovery (01 R31). -/
namespace Sys2Proof.Machine

/-! ## Every port taken down -/

theorem portReinit_enabled {s : State} {k : PortIx} (h : s.port[k].state ≠ .disabled) (cause : BitVec 4) :
    portReinit s k cause = if s.port[k].state = .up then wheelsOfPort (entriesLost (portTold s k cause .down) k) k else portTold s k cause .down :=
  if_neg h

theorem portReinit_told {s : State} {k : PortIx} (h : s.port[k].state ≠ .disabled) (cause : BitVec 4) :
    PortsQueued (portTold s k cause .down) (portReinit s k cause) := by
  rw [portReinit_enabled h]
  exact .ite ((entriesLost_queued ..).trans (wheelsOfPort_told ..).port) (.of_eq rfl)

/-- A port that takes no part in the link. -/
def PortClosed (p : Port) : Prop := p.state = .down ∨ p.state = .disabled

theorem PortClosed.queued {c d : Port} (h : PortClosed c) (k : PortQueued c d) : PortClosed d := by
  unfold PortClosed at h ⊢
  rw [k.get (·.state) fun _ => rfl]
  exact h

theorem portReinit_closed (s : State) (k : PortIx) (cause : BitVec 4) : PortClosed (portReinit s k cause).port[k] := by
  by_cases h : s.port[k].state = .disabled
  · rw [show portReinit s k cause = s from if_pos h]
    exact .inr h
  · have hc : PortClosed (clearedPort (dropHolds s k).port[k] cause .down) := .inl rfl
    exact (hc.queued (portTold_self s k cause .down)).queued ((portReinit_told h cause).port k)

theorem portReinit_state_others (s : State) {k j : PortIx} (hj : j ≠ k) (cause : BitVec 4) :
    (portReinit s k cause).port[j].state = s.port[j].state := by
  by_cases h : s.port[k].state = .disabled
  · rw [show portReinit s k cause = s from if_pos h]
  · exact (((portReinit_told h cause).port j).get (·.state) fun _ => rfl).trans (portTold_state_others s k cause .down hj)

theorem foldl_portReinit_closed (cause : BitVec 4) (l : List PortIx) (s : State) (k : PortIx) (h : k ∈ l ∨ PortClosed s.port[k]) :
    PortClosed (l.foldl (fun a j => portReinit a j cause) s).port[k] := by
  induction l generalizing s with
  | nil => exact h.resolve_left List.not_mem_nil
  | cons j l ih =>
    refine ih (portReinit s j cause) ?_
    by_cases hk : k = j
    · subst hk
      exact .inr (portReinit_closed s k cause)
    · refine (h.imp_left fun hm => (List.mem_cons.mp hm).resolve_left hk).imp_right fun hc => ?_
      unfold PortClosed at hc ⊢
      rw [portReinit_state_others s hk]
      exact hc

theorem portsDown_closed (s : State) (cause : BitVec 4) (k : PortIx) : PortClosed (portsDown s cause).port[k] :=
  foldl_portReinit_closed cause _ _ k (.inl (List.mem_finRange k))

theorem wheelLost_told (s : State) (w : WheelIx) (byRef : Bool) : Told s (wheelLost s w byRef) := by
  unfold wheelLost
  dsimp only
  split
  · exact Told.trans (by exact .of_eq rfl rfl) (setWheel_told ..)
  · exact .of_eq rfl rfl

/-! ## The relock to the monitor -/

/-- The clocks on the monitor oscillator. -/
def monitored (s : State) : State :=
  { s with clk := { s.clk with cpllLock := true, lpllLock := true, onMonitor := true, failing := false } }

/-- SAFE under 0x0D, the ports down, the wheels without their references. -/
def relocked (s : State) : State :=
  (List.finRange 4).foldl (fun a w => wheelLost a w false) (portsDown (enterSafe (monitored s) 0x0D none) 9)

theorem exec_monitorRelock {s : State} (h : s.clk.failing = true) :
    exec .monitorRelock s = .next (raise (relocked s) srcClock (clkcfgWord (relocked s).clk)) :=
  congrArg Host.Outcome.next (if_neg (by rw [h]; decide))

theorem completes_monitorRelock {s : State} (h : s.clk.failing = true) : Completes .monitorRelock s (fun t =>
    t.clk.onMonitor = true ∧ t.clk.failing = false ∧ t.clk.cpllLock = true ∧ t.clk.xinOk = s.clk.xinOk ∧
    (∀ k : PortIx, t.port[k].state = .down ∨ t.port[k].state = .disabled) ∧
    (s.m.mode = .run ∨ s.m.mode = .reduced ∨ s.m.mode = .trim → t.m.mode = .safe ∧ t.m.cause = 0x0D ∨ t.m.mode = .stop)) := by
  let s1 := enterSafe (monitored s) 0x0D none
  let s2 := portsDown s1 9
  have h2 : SameOutside [.ch, .ev, .img, .port, .wheel, .rul] s1 (relocked s) :=
    (Moves.foldl (fun a w => (wheelLost_moves a w false).widen rfl) (portsDown_moves s1 9) :
      Moves [.ch, .ev, .img, .port, .wheel, .rul] s1 (relocked s)).same
  have hraise := (raise_moves (relocked s) srcClock (clkcfgWord (relocked s).clk)).same
  have hclk : (raise (relocked s) srcClock (clkcfgWord (relocked s).clk)).clk = (monitored s).clk := by
    rw [hraise.clk rfl, h2.clk rfl, (enterSafe_moves ..).same.clk rfl]
  have hm : (raise (relocked s) srcClock (clkcfgWord (relocked s).clk)).m = s1.m := by
    rw [hraise.m rfl, h2.m rfl]
  have hport : PortsQueued s2 (raise (relocked s) srcClock (clkcfgWord (relocked s).clk)) :=
    (Told.foldl (fun a w => wheelLost_told a w false) _ _).port.trans (raise_queued ..)
  refine ⟨_, exec_monitorRelock h, ?_⟩
  beta_reduce
  rw [hclk, hm]
  exact ⟨rfl, rfl, rfl, rfl, fun k => (portsDown_closed s1 9 k).queued (hport.port k),
    fun hl => (enterSafe_mode (monitored s) 0x0D none hl).imp_right And.left⟩

/-! ## Failure and return of XIN -/

theorem completes_xinFailure {s : State} (f : ClockFault) (hh : s.m.run ≠ .held) (hc : s.m.run ≠ .clockReset) (h2 : 2 ≤ s.m.step.toNat)
    (hf : s.clk.failing = false) : Completes (.xinFailure f) s fun t =>
      t.clk.xinOk = (s.clk.xinOk && decide (f ≠ .xin)) ∧ t.clk.goodSince = none ∧
      (s.clk.onMonitor = false ∨ f ≠ .xin →
        t.clk.cpllLock = false ∧ t.clk.lpllLock = false ∧ t.clk.failing = true ∧ t.clk.onMonitor = false) ∧
      (s.clk.onMonitor = true → f = .xin →
        t.clk.cpllLock = s.clk.cpllLock ∧ t.clk.lpllLock = s.clk.lpllLock ∧ t.clk.failing = false ∧ t.clk.onMonitor = true) ∧
      SameOutside [.clk] s t := by
  have h : ¬ (s.m.run = .held || s.m.run = .clockReset || s.m.step.toNat < 2) = true := by
    simp only [hh, hc, decide_false, Bool.or_self, Bool.false_or, decide_eq_true_eq]
    exact Nat.not_lt.mpr h2
  by_cases hm : (s.clk.onMonitor && decide (f = .xin)) = true
  · have hq : (s.clk.failing || (s.clk.onMonitor && f = .xin)) = true := by rw [hf, hm]; rfl
    obtain ⟨h1, hx⟩ := Bool.and_eq_true_iff.mp hm
    refine ⟨_, congrArg Host.Outcome.next ((if_neg h).trans (if_pos hq)), rfl, rfl, fun ho => ?_, fun _ _ => ⟨rfl, rfl, hf, h1⟩,
      SameOutside.set_clk s _⟩
    rcases ho with ho | ho
    · exact absurd (h1.symm.trans ho) (by decide)
    · exact absurd (of_decide_eq_true hx) ho
  · have hq : ¬ (s.clk.failing || (s.clk.onMonitor && f = .xin)) = true := by
      rw [hf, Bool.false_or]
      exact hm
    refine ⟨_, congrArg Host.Outcome.next ((if_neg h).trans (if_neg hq)), rfl, rfl, fun _ => ⟨rfl, rfl, rfl, rfl⟩, fun h1 hx => ?_,
      (SameOutside.set_clk _ _).step rfl (SameOutside.set_clk s _)⟩
    exact absurd (Bool.and_eq_true_iff.mpr ⟨h1, decide_eq_true hx⟩) hm

/-- Settles O45: each failure and return by the branch of its source. -/
theorem clockFailureAndRecovery : Obligations.ClockFailureAndRecovery := by
  intro s
  refine ⟨fun f hh hc h2 hf => completes_xinFailure f hh hc h2 hf, fun hf => ⟨completes_monitorRelock hf, ?_⟩, fun hc => ?_,
    fun hc hf hm => ?_, fun hc hf => ?_⟩
  · exact ⟨_, congrArg Host.Outcome.next (if_neg (by rw [hf]; decide)), rfl, rfl, rfl, rfl, rfl⟩
  · exact ⟨_, congrArg Host.Outcome.next (if_pos hc), rfl, rfl, SameOutside.set_m s _⟩
  · exact ⟨_, congrArg Host.Outcome.next ((if_neg hc).trans ((if_neg (by rw [hf]; decide)).trans (if_pos hm))), rfl, rfl, rfl,
      SameOutside.set_clk s _⟩
  · exact ⟨_, congrArg Host.Outcome.next ((if_neg hc).trans (if_pos hf)), rfl, SameOutside.set_clk s _⟩

end Sys2Proof.Machine
end

section
/-!
Mailbox commands taken: the slot's passage from the command to its end (18 R491, R493, Table 18-5), and the commands FENCE and
REQUEST_POWER_CYCLE (11 R310, 15 R408).
-/
namespace Sys2Proof.Machine

/-! ## A command taken by its slot -/

theorem mbxServed_running {s : State} (h : s.execRuns = true) (i : SlotIx) (code tag : W16) (run : State → SlotIx → W16 → State) :
    mbxServed s i code tag run = run s i tag := if_pos h

theorem mbxStart_same (s : State) (i : SlotIx) (code tag : W16) : SameOutside [.mbx] s (mbxStart s i code tag) := SameOutside.set_mbx s _

theorem mbxStart_slot (s : State) (i : SlotIx) (code tag : W16) : (mbxStart s i code tag).mbx.slot[i] = { s.mbx.slot[i] with
    code := code, cmdTag := tag, state := .running, result := 0, tag := tag, detail := 0, ret := Vector.replicate 28 0
    taken := s.mbx.slot[i].arg } := modAt_self ..

theorem mbxStart_arg (s : State) (i : SlotIx) (code tag : W16) (j : Fin 32) : (mbxStart s i code tag).arg i j = s.mbx.slot[i].arg[j] := by
  unfold State.arg
  rw [mbxStart_slot]

theorem mbxEnd_slot (s : State) (i : SlotIx) (result : Byte) (detail : W32) : (mbxEnd s i result detail).mbx.slot[i] =
    { s.mbx.slot[i] with state := .done, result := result, detail := detail } := modAt_self ..

theorem mbxEnd_ended (s : State) (i : SlotIx) (result : Byte) (detail : W32) : MbxEnded (mbxEnd s i result detail) i result detail := by
  unfold MbxEnded
  rw [mbxEnd_slot]
  exact ⟨rfl, rfl, rfl⟩

theorem mbxEnd_same (s : State) (i : SlotIx) (result : Byte) (detail : W32) : SameOutside [.mbx] s (mbxEnd s i result detail) :=
  SameOutside.set_mbx s _

/-- A command that ends where it began changes the mailbox alone. -/
theorem mbxEnd_start_same (s : State) (i : SlotIx) (code tag : W16) (result : Byte) (detail : W32) :
    SameOutside [.mbx] s (mbxEnd (mbxStart s i code tag) i result detail) := (mbxEnd_same ..).step rfl (mbxStart_same ..)

theorem mbxRun_rejected {s : State} {i : SlotIx} (h : s.mbx.slot[i].state = .running) (code tag : W16) (accepted : Mode → Bool)
    (masks : List (Fin 32 × W32)) (f : State → State) :
    mbxRun s i code tag accepted masks f = { s with mbx := { s.mbx with rejected := satInc s.mbx.rejected } } := if_pos h

theorem mbxRun_refused {s : State} {i : SlotIx} (h : s.mbx.slot[i].state ≠ .running) {accepted : Mode → Bool} (ha : accepted s.m.mode = false)
    (code tag : W16) (masks : List (Fin 32 × W32)) (f : State → State) :
    mbxRun s i code tag accepted masks f = mbxEnd (mbxStart s i code tag) i rcWrongMode (put 0 s.m.mode.code) :=
  (if_neg h).trans (if_pos (by rw [ha]; rfl))

/-- A command whose mode and arguments are accepted has its effect (Table 18-5). -/
theorem mbxRun_accepted {s : State} {i : SlotIx} (h : s.mbx.slot[i].state ≠ .running) {accepted : Mode → Bool} (ha : accepted s.m.mode = true)
    {code tag : W16} {masks : List (Fin 32 × W32)} (hm : ∀ m ∈ masks, s.mbx.slot[i].arg[m.1] &&& ~~~m.2 = 0) (f : State → State) :
    mbxRun s i code tag accepted masks f = f (mbxStart s i code tag) := by
  have hn : masks.find? (fun m => (mbxStart s i code tag).arg i m.1 &&& ~~~m.2 ≠ 0) = none := by
    refine List.find?_eq_none.mpr fun m hmem => ?_
    rw [mbxStart_arg, hm m hmem]
    decide
  unfold mbxRun
  rw [if_neg h]
  refine (if_neg (by rw [ha]; decide)).trans ?_
  rw [hn]

theorem mbxRun_plain {s : State} {i : SlotIx} (h : s.mbx.slot[i].state ≠ .running) {accepted : Mode → Bool} (ha : accepted s.m.mode = true)
    (code tag : W16) (f : State → State) : mbxRun s i code tag accepted [] f = f (mbxStart s i code tag) :=
  mbxRun_accepted h ha (fun _ hm => absurd hm List.not_mem_nil) f

theorem mbxRun_masked {s : State} {i : SlotIx} (h : s.mbx.slot[i].state ≠ .running) {accepted : Mode → Bool} (ha : accepted s.m.mode = true)
    {j : Fin 32} {w : W32} (hm : s.mbx.slot[i].arg[j] &&& ~~~w = 0) (code tag : W16) (f : State → State) :
    mbxRun s i code tag accepted [(j, w)] f = f (mbxStart s i code tag) := by
  refine mbxRun_accepted h ha (fun m hmem => ?_) f
  rw [List.mem_singleton.mp hmem]
  exact hm

/-! ## NOP, and a code of no command -/

theorem mbxDispatch_unknown {code : W16} (h : code.toNat ∉ [0x01, 0x10, 0x20, 0x21, 0x22, 0x30, 0x31, 0x32, 0x40, 0x41, 0x42, 0x43, 0x50, 0x51,
    0x52, 0x60, 0x70, 0x71, 0x80, 0x81, 0x90, 0xA0]) (s : State) (i : SlotIx) (tag : W16) :
    mbxDispatch s i code tag = runUnknown s i code tag := by
  unfold mbxDispatch
  split
  case h_23 => rfl
  all_goals
    rename_i hc
    simp [hc] at h

theorem completes_nopRejected {s : State} {i : SlotIx} (hr : s.execRuns = true) (h : s.mbx.slot[i].state = .running) (tag : W16) :
    Completes (.nop i tag) s fun t => t.mbx.rejected = satInc s.mbx.rejected ∧ t.mbx.slot = s.mbx.slot ∧ SameOutside [.mbx] s t :=
  ⟨_, congrArg Host.Outcome.next ((mbxServed_running hr ..).trans (mbxRun_rejected h ..)), rfl, rfl, SameOutside.set_mbx s _⟩

theorem completes_nop {s : State} {i : SlotIx} (hr : s.execRuns = true) (h : s.mbx.slot[i].state ≠ .running) (hm : s.m.mode ≠ .stop) (tag : W16) :
    Completes (.nop i tag) s fun t => MbxEnded t i rcOk 0 ∧ t.mbx.slot[i].tag = tag ∧ SameOutside [.mbx] s t := by
  refine ⟨_, congrArg Host.Outcome.next ((mbxServed_running hr ..).trans (mbxRun_plain h (decide_eq_true hm) ..)), mbxEnd_ended .., ?_,
    mbxEnd_start_same ..⟩
  rw [mbxEnd_slot, mbxStart_slot]

theorem completes_nopStop {s : State} {i : SlotIx} (hr : s.execRuns = true) (h : s.mbx.slot[i].state ≠ .running) (hm :
    s.m.mode = .stop) (tag : W16) :
    Completes (.nop i tag) s fun t => MbxEnded t i rcWrongMode 5 ∧ SameOutside [.mbx] s t := by
  have e : runNop s i tag = mbxEnd (mbxStart s i 0x01 tag) i rcWrongMode (put 0 s.m.mode.code) :=
    mbxRun_refused h (decide_eq_false (not_not.mpr hm)) ..
  rw [hm] at e
  exact ⟨_, congrArg Host.Outcome.next ((mbxServed_running hr ..).trans e), mbxEnd_ended .., mbxEnd_start_same ..⟩

theorem completes_unknown {s : State} {i : SlotIx} (hr : s.execRuns = true) (h : s.mbx.slot[i].state ≠ .running) {code : W16}
    (hc : code.toNat ∉ [0x01, 0x10, 0x20, 0x21, 0x22, 0x30, 0x31, 0x32, 0x40, 0x41, 0x42, 0x43, 0x50, 0x51,
      0x52, 0x60, 0x70, 0x71, 0x80, 0x81, 0x90, 0xA0]) (tag : W16) :
    Completes (.unknownMailboxCommand i code tag) s fun t =>
      MbxEnded t i rcUnknown (code.setWidth 32) ∧ t.mbx.slot[i].tag = tag ∧ SameOutside [.mbx] s t := by
  have e := (mbxDispatch_unknown hc s i tag).trans (mbxRun_plain h rfl code tag fun s => mbxEnd s i rcUnknown (put 0 code))
  refine ⟨_, congrArg Host.Outcome.next ((mbxServed_running hr ..).trans e), ?_, ?_, mbxEnd_start_same ..⟩
  · have hp : (put 0 code : W32) = code.setWidth 32 := by
      unfold put
      exact BitVec.shiftLeft_zero _
    rw [← hp]
    exact mbxEnd_ended ..
  · rw [mbxEnd_slot, mbxStart_slot]

/-! ## FENCE -/

theorem placeFence_local {s : State} (hn : s.img.fencesLocal.length < 8) (tag budget : W16) {src : FenceSource}
    (hs : src = .mailbox ∨ src = .frame) :
    (placeFence s tag src budget).2 = true ∧
    ∃ f : PendingFence, (placeFence s tag src budget).1.img.fencesLocal = s.img.fencesLocal ++ [f] ∧ f.tag = tag ∧ f.source = src := by
  unfold placeFence
  rcases hs with rfl | rfl
  all_goals
    dsimp only
    rw [if_neg Bool.false_ne_true, if_neg (Nat.not_le.mpr hn)]
    exact ⟨rfl, _, foldl_sendRequest_img ImageState.fencesLocal (fun _ _ _ => rfl) .., rfl, rfl⟩

theorem placeFence_full {s : State} (hn : 8 ≤ s.img.fencesLocal.length) (tag budget : W16) :
    placeFence s tag .mailbox budget = ({ s with img := { s.img with fenceRefused := satInc s.img.fenceRefused } }, false) := if_pos hn

theorem field_low16 (w : W32) : field w 0 16 = w.setWidth 16 := by
  unfold field
  rw [BitVec.setWidth_eq_extractLsb' (by decide)]

/-- What runs of a FENCE taken by its slot: the fence placed, then the slot's end. -/
def fencePlaced (s : State) (i : SlotIx) (tag : W16) : State × Bool :=
  placeFence (mbxStart s i 0x10 tag) (s.mbx.slot[i].arg[0].setWidth 16) .mailbox fullBudget

theorem exec_fence {s : State} {i : SlotIx} (ht : MbxTaken s i) (hm : served s.m.mode = true) (ha : s.mbx.slot[i].arg[0] &&& ~~~0xFFFF#32 = 0)
    (tag : W16) : exec (.fence i tag) s =
      .next (mbxEnd (fencePlaced s i tag).1 i (if (fencePlaced s i tag).2 then rcOk else rcBusy) 0) := by
  have e := (mbxServed_running ht.1 i 0x10 tag runFence).trans (mbxRun_masked ht.2 hm ha 0x10 tag _)
  rw [mbxStart_arg, field_low16] at e
  exact congrArg Host.Outcome.next e

theorem completes_fenceMailbox {s : State} {i : SlotIx} (ht : MbxTaken s i) (hm : served s.m.mode = true)
    (ha : s.mbx.slot[i].arg[0] &&& ~~~0xFFFF#32 = 0) (hn : s.img.fencesLocal.length < 8) (tag : W16) :
    Completes (.fence i tag) s fun t =>
      MbxEnded t i rcOk 0 ∧ (∃ f : PendingFence, t.img.fencesLocal = s.img.fencesLocal ++ [f] ∧
        f.tag = s.mbx.slot[i].arg[0].setWidth 16 ∧ f.source = .mailbox) ∧ SameOutside [.mbx, .img, .port] s t := by
  obtain ⟨h1, h2⟩ := placeFence_local (s := mbxStart s i 0x10 tag) hn (s.mbx.slot[i].arg[0].setWidth 16) fullBudget (.inl rfl)
  have e := exec_fence ht hm ha tag
  rw [show (fencePlaced s i tag).2 = true from h1, if_pos rfl] at e
  exact ⟨_, e, mbxEnd_ended .., h2, (mbxEnd_same ..).step rfl
    ((placeFence_moves ..).same.step rfl ((mbxStart_same s i 0x10 tag).widen rfl))⟩

theorem completes_fenceBusy {s : State} {i : SlotIx} (ht : MbxTaken s i) (hm : served s.m.mode = true)
    (ha : s.mbx.slot[i].arg[0] &&& ~~~0xFFFF#32 = 0) (hn : 8 ≤ s.img.fencesLocal.length) (tag : W16) :
    Completes (.fence i tag) s fun t =>
      MbxEnded t i rcBusy 0 ∧ t.img.fencesLocal = s.img.fencesLocal ∧ t.img.fenceRefused = satInc s.img.fenceRefused ∧
      SameOutside [.mbx, .img] s t := by
  have hp : fencePlaced s i tag = _ := placeFence_full (s := mbxStart s i 0x10 tag) hn (s.mbx.slot[i].arg[0].setWidth 16) fullBudget
  have e := exec_fence ht hm ha tag
  rw [hp, if_neg Bool.false_ne_true] at e
  exact ⟨_, e, mbxEnd_ended .., rfl, rfl, (mbxEnd_same ..).step rfl
    ((SameOutside.set_img (mbxStart s i 0x10 tag) _).step rfl ((mbxStart_same s i 0x10 tag).widen rfl))⟩

/-! ## A power cycle asked for -/

theorem logPut_length_le (e : EventRouter) (ltype flags : Byte) (resets : W16) (body : List W32) (tickh : W32) :
    (logPut e ltype flags resets body tickh).sramLog.length ≤ e.sramLog.length + 1 := by
  unfold logPut
  split
  · exact (List.length_append ..).le
  · exact Nat.le_succ _

theorem lossRecord_length_le (e : EventRouter) (resets : W16) (tickh : W32) :
    (lossRecord e resets tickh).sramLog.length ≤ e.sramLog.length + 1 := by
  unfold lossRecord
  split
  · exact Nat.le_succ _
  · exact logPut_length_le ..

/-- The log that a flush leaves in SRAM holds the record of what was lost at most (18 R489). -/
theorem flushLog_length (s : State) : (flushLog s).ev.sramLog.length ≤ 1 := by
  unfold flushLog
  split
  next h => rw [List.isEmpty_iff.mp h]; exact Nat.zero_le _
  · exact lossRecord_length_le ..

theorem flushLog_recov (s : State) : (flushLog s).recov = s.recov := (flushLog_moves s).same.recov rfl

theorem requestPcyc_asked {s : State} (h : s.recov.pcyc = true ∨ s.recov.pcycWait = true) : requestPcyc s = s :=
  if_pos (Bool.or_eq_true_iff.mpr h)

theorem requestPcyc_first {s : State} (hp : s.recov.pcyc = false) (hw : s.recov.pcycWait = false) :
    requestPcyc s = flushLog { s with recov := { s.recov with pcycWait := true, pcycTick := s.tick } } := by
  refine if_neg ?_
  rw [hp, hw]
  decide

theorem exec_requestPowerCycle {s : State} {i : SlotIx} (ht : MbxTaken s i) (tag : W16) :
    exec (.requestPowerCycle i tag) s = .next (mbxEnd (requestPcyc (mbxStart s i 0x22 tag)) i rcOk 0) :=
  congrArg Host.Outcome.next ((mbxServed_running ht.1 i 0x22 tag runRequestPowerCycle).trans (mbxRun_plain ht.2 rfl ..))

theorem completes_requestPowerCycle {s : State} {i : SlotIx} (ht : MbxTaken s i) (tag : W16) :
    Completes (.requestPowerCycle i tag) s fun t =>
      MbxEnded t i rcOk 0 ∧
      (s.recov.pcyc = false → s.recov.pcycWait = false →
        t.recov.pcycWait = true ∧ t.recov.pcycTick = s.tick ∧ t.ev.sramLog.length ≤ 1 ∧ SameOutside [.mbx, .recov, .ev, .flash] s t) ∧
      (s.recov.pcyc = true ∨ s.recov.pcycWait = true → SameOutside [.mbx] s t) := by
  refine ⟨_, exec_requestPowerCycle ht tag, mbxEnd_ended .., fun hp hw => ?_, fun h => ?_⟩
  · have e := requestPcyc_first (s := mbxStart s i 0x22 tag) hp hw
    have hr := flushLog_recov { mbxStart s i 0x22 tag with recov := { s.recov with pcycWait := true, pcycTick := s.tick } }
    refine ⟨?_, ?_, ?_, (mbxEnd_same ..).step rfl ((requestPcyc_moves _).same.step rfl ((mbxStart_same s i 0x22 tag).widen rfl))⟩
    · exact (congrArg (·.recov.pcycWait) e).trans (congrArg (·.pcycWait) hr)
    · exact (congrArg (·.recov.pcycTick) e).trans (congrArg (·.pcycTick) hr)
    · exact (congrArg (·.ev.sramLog.length) e).trans_le (flushLog_length _)
  · rw [requestPcyc_asked (s := mbxStart s i 0x22 tag) h]
    exact mbxEnd_start_same ..

theorem completes_pcycAssert {s : State} (hw : s.recov.pcycWait = true) (h : s.boot.job = none ∨ secTicks 5 ≤ s.since s.recov.pcycTick) :
    Completes .pcycAssert s fun t => t.recov.pcyc = true ∧ t.recov.pcycWait = false ∧ SameOutside [.recov] s t := by
  refine ⟨_, congrArg Host.Outcome.next (if_pos ?_), rfl, rfl, SameOutside.set_recov s _⟩
  rw [hw, Bool.true_and, Bool.or_eq_true_iff, Option.isNone_iff_eq_none, decide_eq_true_iff]
  exact h

theorem exec_pcycAssert_waits {s : State} (hw : s.recov.pcycWait = true) (hj : s.boot.job ≠ none) (ht : s.since s.recov.pcycTick < secTicks 5) :
    exec .pcycAssert s = .next s := by
  refine congrArg Host.Outcome.next (if_neg ?_)
  rw [hw, Bool.true_and, Bool.or_eq_true_iff, Option.isNone_iff_eq_none, decide_eq_true_iff]
  exact fun h => h.elim hj ht.not_ge

/-- Settles O46: a command that is taken runs between `mbxStart` and `mbxEnd`, which keep all but the slot. -/
theorem mailboxCommandsTaken : Obligations.MailboxCommandsTaken :=
  ⟨fun _ _ tag hr => ⟨fun h => completes_nopRejected hr h tag, fun h => ⟨fun hm => completes_nop hr h hm tag,
    fun hm => completes_nopStop hr h hm tag, fun _ hc => completes_unknown hr h hc tag⟩⟩,
   fun _ _ tag => ⟨fun ht hm ha => ⟨fun hn => completes_fenceMailbox ht hm ha hn tag, fun hn => completes_fenceBusy ht hm ha hn tag⟩,
    fun ht => completes_requestPowerCycle ht tag, fun hw => ⟨completes_pcycAssert hw, exec_pcycAssert_waits hw⟩⟩⟩

end Sys2Proof.Machine
end

section
/-!
RETIRE_CHANNEL, RETURN_CHANNEL and MAP_SPARE (04 R109, R111, 06 R160, R161, Table 4-6).
-/
namespace Sys2Proof.Machine

/-! ## A channel's standing: retired or not, and what its protection keeps of that -/

/-- Whether a channel is retired, mapped, and what its protection keeps of retries and retirement (Table 4-6). -/
def standing (c : Channel) : Bool × Option Chan × PState × RetCause × BitVec 4 × BitVec 4 :=
  (c.retired, c.map, c.prot.pstate, c.prot.retCause, c.prot.retryN, c.prot.tokens)

/-- What `g` reads of every channel's record is the same. -/
structure ChKept {α : Type} (g : Channel → α) (s t : State) : Prop where
  ch : ∀ m : Chan, g t.ch[m] = g s.ch[m]

abbrev StandingKept (s t : State) : Prop := ChKept standing s t

namespace ChKept

variable {α : Type} {g : Channel → α} {s t u : State}

theorem of_eq (h : t.ch = s.ch) : ChKept g s t := ⟨fun m => by rw [h]⟩

theorem of_moves {ps : List Part} (h : Moves ps s t) (hp : ps.contains .ch = false) : ChKept g s t := of_eq (h.same.ch hp)

theorem trans (h : ChKept g s t) (k : ChKept g t u) : ChKept g s u := ⟨fun m => (k.ch m).trans (h.ch m)⟩

theorem ite {c : Prop} [Decidable c] (h : ChKept g s t) (k : ChKept g s u) : ChKept g s (if c then t else u) := by
  split
  · exact h
  · exact k

theorem modCh (s : State) (n : Chan) (f : Channel → Channel) (hf : ∀ c, g (f c) = g c) : ChKept g s (s.modCh n f) :=
  ⟨fun m => by
    rw [State.modCh_ch, modAt_get]
    split
    · next h => exact h ▸ hf _
    · rfl⟩

theorem modLoop (s : State) (n : Chan) (f : ChanLoop → ChanLoop) : ChKept g s (s.modLoop n f) := of_eq rfl

theorem setConv (s : State) (x : ConvState) : ChKept g s { s with conv := x } := of_eq rfl

theorem foldl {β : Type} {f : State → β → State} (hf : ∀ a x, ChKept g a (f a x)) (l : List β) (s : State) : ChKept g s (l.foldl f s) := by
  induction l generalizing s with
  | nil => exact of_eq rfl
  | cons x l ih => exact trans (hf s x) (ih _)

end ChKept

theorem ChansShown.standing {s t : State} (h : ChansShown s t) : StandingKept s t := ⟨fun m => (h m).get Machine.standing fun _ => rfl⟩

theorem refreshAll_standing (s : State) : StandingKept s (refreshAll s) := .foldl (fun a n => ChansShown.standing (refresh_shown a n)) _ s

theorem command_standing (s : State) (acts : List FieldAct) : StandingKept s (command s acts) := ChansShown.standing (command_shown s acts)

theorem modeChanged_standing (s : State) (mode : Mode) : StandingKept s (modeChanged s mode) := by
  unfold modeChanged
  refine ChKept.trans (ChKept.trans ?_ (.of_moves (autoDetach_moves _) rfl)) (refreshAll_standing _)
  split <;> split <;> exact .of_eq rfl

theorem putRetired_standing (s : State) : StandingKept s (putRetired s) := .of_moves (putRetired_moves s) rfl

theorem reduce_standing (s : State) (cause : Byte) : StandingKept s (reduce s cause) := by
  unfold reduce
  refine (putRetired_standing s).trans (.ite ?_ (.of_eq rfl))
  have h := (ChKept.of_moves (writeMode_moves (putRetired s) .reduced cause) rfl).trans (modeChanged_standing _ .reduced)
  extract_lets s2
  change StandingKept _ s2 at h
  clear_value s2
  exact h.trans (.of_eq rfl)

theorem leaveReduced_standing (s : State) : StandingKept s (leaveReduced s) := by
  unfold leaveReduced
  refine (putRetired_standing s).trans (.ite ?_ (.of_eq rfl))
  rw [setMode_live _ _ (.inl rfl)]
  exact (ChKept.of_eq ((modeWritten_same ..).ch rfl)).trans ((ChKept.of_moves (autoDetach_moves _) rfl).trans (refreshAll_standing _))

theorem discardAcc_standing (s : State) (n : Chan) : StandingKept s (discardAcc s n) := by
  unfold discardAcc
  have h : StandingKept s (s.modCh n fun c => { c with acc := [], accN := 0 }) := .modCh s n _ fun _ => rfl
  refine h.trans ?_
  generalize s.modCh n (fun c => { c with acc := [], accN := 0 }) = a
  dsimp only
  split
  · exact .of_eq rfl
  · exact .of_eq rfl

theorem endSafeApp_standing (s : State) (n : Chan) : StandingKept s (endSafeApp s n) := ChansShown.standing (endSafeApp_shown s n)

theorem setCmd_standing (s : State) (n : Chan) (cmd : ChanCmd) : StandingKept s (setCmd s n cmd) := .modCh s n _ fun _ => rfl

theorem govClear_standing (s : State) (n : Chan) : StandingKept s (govClear s n) := .modCh s n _ fun _ => rfl

theorem showCommand_standing (s : State) (n : Chan) (v : W16) (bad : Bool) : StandingKept s (showCommand s n v bad) :=
  (ChKept.modCh s n _ (by intro _; rfl)).trans (.of_moves (epPut_moves ..) rfl)

theorem ite_standing {c : Channel} {b : Prop} [Decidable b] {p q : ChanProt} (h : (p.pstate, p.retCause, p.retryN, p.tokens) =
    (q.pstate, q.retCause, q.retryN, q.tokens)) : standing { c with prot := if b then p else q } = standing { c with prot := q } := by
  split
  · exact congrArg (fun x => (c.retired, c.map, x)) h
  · rfl

theorem govRefuse_standing (s : State) (n : Chan) (word : W16) : StandingKept s (govRefuse s n word) := by
  unfold govRefuse
  extract_lets first s1 g s2
  have h1 : StandingKept s s1 := ChKept.modCh s n _ (by intro c; exact ite_standing rfl)
  have h2 : StandingKept s s2 := h1.trans (.of_eq rfl)
  clear_value s2
  exact .ite (h2.trans (.of_moves (raisePower_moves ..) rfl)) h2

theorem govRefuseAlarm_standing (s : State) (n : Chan) (sel : BitVec 2) : StandingKept s (govRefuseAlarm s n sel) := by
  unfold govRefuseAlarm
  extract_lets first s1 g s2
  have h1 : StandingKept s s1 := (ChKept.modLoop s n _).trans (ChKept.modCh _ n _ (by intro c; exact ite_standing rfl))
  have h2 : StandingKept s s2 := h1.trans (.of_eq rfl)
  clear_value s2
  exact .ite (h2.trans (.of_moves (raisePower_moves ..) rfl)) h2

theorem alarmClear_standing (s : State) (n : Chan) : StandingKept s (alarmClear s n) :=
  (ChKept.modLoop s n _).trans (ChKept.modCh _ n _ (by intro c; rfl))

theorem targetAO_standing (s : State) (n : Chan) : StandingKept s (targetAO s n) := by
  unfold targetAO
  extract_lets s1
  have h1 : StandingKept s s1 := (endSafeApp_standing s n).trans (.of_eq rfl)
  clear_value s1
  exact h1.trans (.ite (.of_moves (targetOff_moves ..) rfl) (.of_moves (setTarget_moves ..) rfl))

theorem takeAlarm_standing (s : State) (n : Chan) (sel : BitVec 2) : StandingKept s (takeAlarm s n sel) := by
  have ha := ChKept.of_moves (g := standing) (aoAdmit_moves s n s.loop[n].cmd sel) rfl
  unfold takeAlarm
  generalize aoAdmit s n s.loop[n].cmd sel = r at ha ⊢
  obtain ⟨v, s1⟩ := r
  cases v with
  | admitted =>
    have h2 := alarmClear_standing s1 n
    exact ((ha.trans h2).trans (ChKept.modLoop _ n _)).trans (targetAO_standing ..)
  | band => exact (ha.trans (.ite (.of_eq rfl) (.of_moves (raise_moves ..) rfl))).trans (.of_moves (alarmRefused_moves ..) rfl)
  | governor => exact (ha.trans (govRefuseAlarm_standing ..)).trans (.of_moves (alarmRefused_moves ..) rfl)

theorem takeCmd_standing (s : State) (n : Chan) (v : W16) : StandingKept s (takeCmd s n v) := by
  have ha := ChKept.of_moves (g := standing) (aoAdmit_moves s n v s.loop[n].alarm) rfl
  unfold takeCmd
  generalize aoAdmit s n v s.loop[n].alarm = r at ha ⊢
  obtain ⟨x, s1⟩ := r
  cases x with
  | admitted =>
    exact (((ha.trans (govClear_standing s1 n)).trans (ChKept.modLoop _ n _)).trans (.ite (showCommand_standing ..) (.of_eq rfl))).trans
      (targetAO_standing ..)
  | band =>
    exact ((ha.trans (.ite (.of_eq rfl) (govClear_standing ..))).trans (showCommand_standing ..)).trans (.of_moves (putLoop_moves ..) rfl)
  | governor => exact ((ha.trans (govRefuse_standing ..)).trans (showCommand_standing ..)).trans (.of_moves (putLoop_moves ..) rfl)

theorem takeDO_standing (s : State) (n : Chan) : StandingKept s (takeDO s n) := by
  unfold takeDO
  exact .ite (setCmd_standing ..) (.ite ((govRefuse_standing ..).trans (showCommand_standing ..)) ((govClear_standing ..).trans (setCmd_standing ..)))

theorem takeAO_standing (s : State) (n : Chan) : StandingKept s (takeAO s n) := by
  unfold takeAO
  extract_lets l sel s1 s2
  have h1 : StandingKept s s1 := .ite (.of_eq rfl) (.ite (.of_eq rfl) (takeAlarm_standing ..))
  have h2 : StandingKept s1 s2 := .ite (.of_eq rfl) (takeCmd_standing ..)
  exact (h1.trans h2).trans (.ite (targetAO_standing ..) (.of_eq rfl))

theorem noteSafe_standing (s : State) (n : Chan) : StandingKept s (noteSafe s n) := by
  unfold noteSafe
  refine .ite (.of_eq rfl) ?_
  extract_lets s1
  have h1 : StandingKept s s1 := by
    unfold s1
    split
    · exact setCmd_standing ..
    · exact setCmd_standing ..
    · exact .of_eq rfl
    · exact setCmd_standing ..
  exact h1.trans (.ite (.of_moves (safeTarget_moves ..) rfl) (.of_eq rfl))

theorem takeReturned_standing (s : State) (n : Chan) : StandingKept s (takeReturned s n) := by
  unfold takeReturned
  exact .ite (noteSafe_standing ..) (.ite (.of_eq rfl) (.ite (takeDO_standing ..) (.ite (takeAO_standing ..) (.of_eq rfl))))

theorem updateSetl_standing (s : State) (n : Chan) : StandingKept s (updateSetl s n) := by
  unfold updateSetl
  exact .ite (.of_eq rfl) ((ChKept.modCh s n _ (by intro _; rfl)).trans (ChansShown.standing (refresh_shown _ n)))

theorem putResult_standing (s : State) (p : PathIx) (r : ResultBlock) : StandingKept s (putResult s p r) := by
  unfold putResult
  extract_lets x r1 s1
  have h1 : StandingKept s s1 := .of_eq rfl
  exact h1.trans ((ChKept.setConv s1 _).trans (updateSetl_standing _ _))

theorem resetFrom_standing (s : State) (since : W64) (p : PathIx) : StandingKept s (resetFrom s since p) := by
  unfold resetFrom
  refine .ite (.of_eq rfl) (ChKept.trans ?_ (putResult_standing _ p _))
  have h0 : ∀ a : State, StandingKept a (match s.conv.path[p].fade with | some f => swapNow a p f.target | none => a) := fun a => by
    split <;> exact .of_eq rfl
  have h2 : ∀ a : State, StandingKept a (match s.conv.path[p].loadAfter with
      | some set => (loadBank a p (!a.conv.path[p].active) set).modPath p fun x => { x with loadAfter := none }
      | none => a) := fun a => by
    split <;> exact .of_eq rfl
  have h3 : ∀ a : State, StandingKept a (match a.conv.path[p].load with
      | some (x, y) =>
        let t := !a.conv.path[p].active
        (loadBank (loadBank a p t x) p (!t) y).modPath p fun z => { z with load := none, active := t, flip := t != (s.desc p).bank }
      | none => a) := fun a => by
    split <;> exact .of_eq rfl
  exact (ChKept.trans ((h0 s).trans (by exact .of_eq rfl)) (h2 _)).trans (h3 _)

theorem resetChannel_standing (s : State) (n : Chan) : StandingKept s (resetChannel s n) := .foldl (fun a p => resetFrom_standing a _ p) _ s

/-! ## The channels that a command reaches at once -/

theorem mem_pairOf (s : State) (n : Chan) : n ∈ pairOf s n := by
  unfold pairOf
  split
  · exact List.mem_cons_self
  · exact List.mem_singleton_self n

/-- A change that leaves its own result standing, made to a list of channels, reaches each of them. -/
theorem foldl_modCh {g : State → Chan → State} {f : Channel → Channel} (hg : ∀ a k, (g a k).ch = modAt a.ch k f) (hf : ∀ c, f (f c) = f c)
    (l : List Chan) (s : State) (n : Chan) : (l.foldl g s).ch[n] = if n ∈ l then f s.ch[n] else s.ch[n] := by
  induction l generalizing s with
  | nil => rfl
  | cons k l ih =>
    rw [List.foldl_cons, ih, hg, modAt_get]
    by_cases hk : n = k
    · subst hk
      rw [if_pos rfl, if_pos List.mem_cons_self, hf, ite_self]
    · rw [if_neg hk]
      simp only [List.mem_cons, hk, false_or]

theorem foldl_bit_kept {a : W16} {i : Nat} (P : Chan → Prop) [DecidablePred P] (l : List Chan) (h : a.getLsbD i = true) :
    (l.foldl (fun a n => if P n then a ||| (1#16 <<< n.val) else a) a).getLsbD i = true := by
  induction l generalizing a with
  | nil => exact h
  | cons k l ih =>
    refine ih ?_
    dsimp only
    split
    · rw [BitVec.getLsbD_or, h, Bool.true_or]
    · exact h

theorem foldl_bit_set {P : Chan → Prop} [DecidablePred P] {n : Chan} (hn : P n) {l : List Chan} (hl : n ∈ l) (a : W16) :
    (l.foldl (fun a n => if P n then a ||| (1#16 <<< n.val) else a) a).getLsbD n.val = true := by
  induction l generalizing a with
  | nil => exact absurd hl List.not_mem_nil
  | cons k l ih =>
    rcases List.mem_cons.mp hl with rfl | hk
    · refine foldl_bit_kept P l ?_
      dsimp only
      rw [if_pos hn, BitVec.getLsbD_or, BitVec.getLsbD_shiftLeft]
      simp
    · exact ih hk _

theorem retiredBits_ne_zero {s : State} {n : Chan} (h : s.ch[n].retired = true) : retiredBits s ≠ 0 := fun h0 => by
  have hb : (retiredBits s).getLsbD n.val = true := foldl_bit_set (P := fun n => s.ch[n].retired = true) h (List.mem_finRange n) 0
  rw [h0] at hb
  exact absurd hb (by simp)

theorem reduce_chanRet (s : State) (cause : Byte) : (reduce s cause).m.chanRet = decide (retiredBits s ≠ 0) := by
  have hp : (putRetired s).m.chanRet = decide (retiredBits s ≠ 0) := by
    unfold putRetired
    dsimp only
    rw [(putHealth_moves ..).same.m rfl, (putMode_moves ..).same.m rfl]
  unfold reduce
  dsimp only
  split
  · rw [(modeChanged_moves ..).same.m rfl]
    have hw : (writeMode (putRetired s) .reduced cause).m.chanRet = (putRetired s).m.chanRet := by
      unfold writeMode
      rw [(putMode_moves ..).same.m rfl]
    exact hw.trans hp
  · exact hp

/-! ## RETIRE_CHANNEL -/

/-- What a retirement does to the channel itself (06 R160). -/
def retirement (s : State) (n : Chan) (cause : RetCause) (c : Channel) : Channel :=
  { c with restarting := false
           prot := { c.prot with pstate := .retired, retCause := cause },
           mapDue := cfgAutoSpare (s.crec n) && cfgStbyEn (s.crec n) && c.roleOf.isNone }

def retirementNoted (s : State) (n : Chan) (cause : RetCause) : State :=
  (govClear (s.modLoop n fun l => { l with alarmRef := none }) n).modCh n (retirement s n cause)

def recordRetired (c : Channel) : Channel := { c with retired := true, retNow := true }

def pairRetired (a : State) (k : Chan) : State := (a.modCh k recordRetired).modLoop k fun l =>
  { setLoop (setLoop (setLoop l lCompliance false) lOver false) lOpen false with dev := Vector.replicate 16 {} }

theorem retireChannel_eq (s : State) (n : Chan) (cause : RetCause) : retireChannel s n cause =
    let s2 := (pairOf s n).foldl pairRetired (discardAcc (hartAbandon (retirementNoted s n cause) n) n)
    let s3 := command (hartPeriods (if isAO s.ch[n].kind then targetOff s2 n else s2) n) ((pairOf s n).map .retire)
    reduce (refreshAll (raiseProt s3 n)) 0x08 := rfl

theorem retirementNoted_moves (s : State) (n : Chan) (cause : RetCause) : Moves [.ch, .loop] s (retirementNoted s n cause) :=
  Moves.step (State.modCh_moves ..) rfl (Moves.step (govClear_moves ..) rfl (Moves.step (State.modLoop_moves ..) rfl (Moves.refl _)))

theorem pairRetired_moves (s : State) (k : Chan) : Moves [.ch, .loop] s (pairRetired s k) :=
  Moves.step (State.modLoop_moves ..) rfl (Moves.step (State.modCh_moves ..) rfl (Moves.refl _))

theorem foldl_pairRetired_m (l : List Chan) (s : State) : (l.foldl pairRetired s).m = s.m :=
  (Moves.foldl (fun a k => pairRetired_moves a k) (Moves.refl s) : Moves [.ch, .loop] s (l.foldl pairRetired s)).same.m rfl

theorem standing_eq {c d : Channel} (h : standing c = standing d) : c.retired = d.retired ∧ c.map = d.map ∧ c.prot.pstate = d.prot.pstate ∧
    c.prot.retCause = d.prot.retCause ∧ c.prot.retryN = d.prot.retryN ∧ c.prot.tokens = d.prot.tokens := by
  unfold standing at h
  simpa only [Prod.mk.injEq] using h

/-- The retirement of a channel: its standing, the flag, and RUN become REDUCED (06 R160, Table 3-4). -/
theorem retireChannel_retired (s : State) (n : Chan) (cause : RetCause) :
    let t := retireChannel s n cause
    t.ch[n].retired = true ∧ t.ch[n].prot.pstate = .retired ∧ t.ch[n].prot.retCause = cause ∧ t.m.chanRet = true ∧
    (s.m.mode = .run → t.m.mode = .reduced ∧ t.m.cause = 0x08) := by
  dsimp only
  rw [retireChannel_eq]
  extract_lets s2 s3
  have h1 : StandingKept (retirementNoted s n cause) (discardAcc (hartAbandon (retirementNoted s n cause) n) n) :=
    (ChKept.of_moves (hartAbandon_moves ..) rfl).trans (discardAcc_standing ..)
  have h2 : s2.ch[n] = recordRetired (discardAcc (hartAbandon (retirementNoted s n cause) n) n).ch[n] :=
    (foldl_modCh (f := recordRetired) (fun _ _ => rfl) (fun _ => rfl) _ _ n).trans (if_pos (mem_pairOf s n))
  have h3 : StandingKept s2 s3 := ((ChKept.ite (.of_moves (targetOff_moves ..) rfl) (.of_eq rfl)).trans
    (.of_moves (hartPeriods_moves ..) rfl)).trans (command_standing ..)
  have h4 : StandingKept s3 (refreshAll (raiseProt s3 n)) := (ChKept.of_moves (raiseProt_moves ..) rfl).trans (refreshAll_standing _)
  have hn : standing s3.ch[n] = (true, s.ch[n].map, .retired, cause, s.ch[n].prot.retryN, s.ch[n].prot.tokens) := by
    obtain ⟨-, e2, e3, e4, e5, e6⟩ := standing_eq ((h1.ch n).trans (congrArg standing (modCh_self _ n _)))
    rw [h3.ch n, h2]
    unfold standing recordRetired
    rw [e2, e3, e4, e5, e6]
    simp only [govClear, modCh_self]
    rfl
  have h5 := ((h4.trans (reduce_standing _ 0x08)).ch n).trans hn
  simp only [standing, Prod.mk.injEq] at h5
  obtain ⟨hr, -, hp, hc, -, -⟩ := h5
  have h6 := (h4.ch n).trans hn
  simp only [standing, Prod.mk.injEq] at h6
  refine ⟨hr, hp, hc, (reduce_chanRet ..).trans (decide_eq_true (retiredBits_ne_zero h6.1)), fun hm => ?_⟩
  have hk : (refreshAll (raiseProt s3 n)).m = s.m := by
    rw [(refreshAll_moves _).same.m rfl, (raiseProt_moves ..).same.m rfl]
    have h0 : s2.m = s.m := by
      rw [foldl_pairRetired_m, (discardAcc_moves ..).same.m rfl, (hartAbandon_moves ..).same.m rfl, (retirementNoted_moves ..).same.m rfl]
    rw [(command_moves ..).same.m rfl, (hartPeriods_moves ..).same.m rfl]
    split
    · rw [(targetOff_moves ..).same.m rfl, h0]
    · exact h0
  obtain ⟨h7, -, h8⟩ := (reduce_m (refreshAll (raiseProt s3 n)) 0x08).2 (by rw [hk]; exact hm)
  exact ⟨h7, h8⟩

/-! ## RETURN_CHANNEL -/

/-- A channel given back: a full retry budget, and nothing of its retirement or mapping (06 R161). -/
def returned (c : Channel) : Channel :=
  { c with retired := false, mapDue := false, map := none, roleOf := none, cmd := .dark, oldChar := none
           prot := { c.prot with pstate := .clear, retryN := 0, tokens := 15, refill := 0, retCause := .notRetired } }

theorem freshReturn_self (s : State) (n : Chan) : (freshReturn s n).ch[n] = returned s.ch[n] :=
  (foldl_modCh (f := returned) (fun _ _ => rfl) (fun _ => rfl) _ s n).trans (if_pos (mem_pairOf s n))

theorem returnChannel_returned (s : State) (n : Chan) :
    standing (returnChannel s n).ch[n] = (false, none, .clear, .notRetired, 0, 15) := by
  unfold returnChannel
  extract_lets u mapped s1 acts s2 s3 p
  have h1 : StandingKept (freshReturn u.1 n) s1 := takeReturned_standing ..
  have h2 : StandingKept s1 s2 := (command_standing s1 acts).trans (.foldl (fun a k => resetChannel_standing a k) _ _)
  have h3 : StandingKept s2 s3 := (discardAcc_standing s2 n).trans (refreshAll_standing _)
  have h4 : StandingKept s3 (leaveReduced (if mapped then raise s3 (chanSrc p 0) (s3.ep (s3.chEp p 1)) else s3)) :=
    (ChKept.ite (.of_moves (raise_moves ..) rfl) (.of_eq rfl)).trans (leaveReduced_standing _)
  rw [(((h1.trans h2).trans h3).trans h4).ch n, freshReturn_self]
  rfl

/-! ## The three commands at their slots -/

theorem argChan_ofNat {s : State} {i : SlotIx} {n : Chan} (h : s.mbx.slot[i].arg[0] = BitVec.ofNat 32 n.val) (code tag : W16) :
    argChan (mbxStart s i code tag) i = n := by
  have h0 : s.mbx.slot[i].arg[(0 : Fin 32)] = BitVec.ofNat 32 n.val := h
  unfold argChan
  rw [mbxStart_arg, h0]
  unfold field
  refine Fin.ext ?_
  have hn := n.isLt
  show (BitVec.extractLsb' 0 4 (BitVec.ofNat 32 n.val)).toNat = n.val
  rw [BitVec.extractLsb'_toNat, BitVec.toNat_ofNat]
  omega

theorem arg_masked {n : Chan} {w : W32} (h : w = BitVec.ofNat 32 n.val) : w &&& ~~~0xF#32 = 0 := by
  subst h
  revert n
  decide

section Slots

variable {s : State} {i : SlotIx} {n : Chan}

/-- What a command of one channel runs, where its mode and its argument are accepted. -/
theorem channelRun {code tag : W16} {accepted : Mode → Bool} (ht : MbxTaken s i) (hm : accepted s.m.mode = true)
    (ha : s.mbx.slot[i].arg[0] = BitVec.ofNat 32 n.val) (f : State → State) : mbxRun s i code tag accepted [(0,
      0xF)] f = f (mbxStart s i code tag) :=
  mbxRun_masked (j := 0) ht.2 hm (arg_masked ha) code tag f

theorem exec_retireChannel (ht : MbxTaken s i) (hm : served s.m.mode = true) (ha : s.mbx.slot[i].arg[0] = BitVec.ofNat 32 n.val) (tag : W16) :
    exec (.retireChannel i tag) s = .next (
      if s.ch[n].kind = kindOff || s.ch[n].kind = kindPair then mbxEnd (mbxStart s i 0x30 tag) i rcInvalid 0
      else if s.ch[n].retired then mbxEnd (mbxStart s i 0x30 tag) i rcOk 0
      else mbxEnd (retireChannel (mbxStart s i 0x30 tag) n .command) i rcOk 0) := by
  have e := (mbxServed_running ht.1 i 0x30 tag runRetireChannel).trans (channelRun ht hm ha _)
  dsimp only at e
  simp only [argChan_ofNat ha] at e
  exact congrArg Host.Outcome.next e

theorem exec_returnChannel (ht : MbxTaken s i) (hm : served s.m.mode = true) (ha : s.mbx.slot[i].arg[0] = BitVec.ofNat 32 n.val)
    (hk : s.ch[n].kind ≠ kindPair) (tag : W16) :
    exec (.returnChannel i tag) s = .next (
      if !s.ch[n].retired && s.ch[n].map.isNone then mbxEnd (mbxStart s i 0x31 tag) i rcInvalid 0
      else mbxEnd (returnChannel (mbxStart s i 0x31 tag) n) i rcOk 0) := by
  have e := (mbxServed_running ht.1 i 0x31 tag runReturnChannel).trans (channelRun ht hm ha _)
  dsimp only at e
  simp only [argChan_ofNat ha, if_neg (show ¬(mbxStart s i 0x31 tag).ch[n].kind = kindPair from hk)] at e
  exact congrArg Host.Outcome.next e

theorem exec_mapSpare (ht : MbxTaken s i) (hm : served s.m.mode = true) (ha : s.mbx.slot[i].arg[0] = BitVec.ofNat 32 n.val) (tag : W16) :
    exec (.mapSpare i tag) s = .next (
      let a := mbxStart s i 0x32 tag
      let m := cfgStby (s.crec n)
      if !s.ch[n].retired || !cfgStbyEn (s.crec n) || s.ch[n].kind ≠ kindDO then mbxEnd a i rcInvalid 0
      else if s.ch[m].roleOf.isSome && s.ch[m].roleOf ≠ some n then mbxEnd a i rcBusy 0
      else if !standbyReady s m then mbxEnd a i rcInvalid 0
      else mbxEnd (a.modCh n fun c => { c with mapDue := true }) i rcOk 0) := by
  have e := (mbxServed_running ht.1 i 0x32 tag runMapSpare).trans (channelRun ht hm ha _)
  dsimp only at e
  simp only [argChan_ofNat ha] at e
  exact congrArg Host.Outcome.next e

theorem completes_retireInvalid (ht : MbxTaken s i) (hm : served s.m.mode = true) (ha : s.mbx.slot[i].arg[0] = BitVec.ofNat 32 n.val)
    (hk : s.ch[n].kind = kindOff ∨ s.ch[n].kind = kindPair) (tag : W16) :
    Completes (.retireChannel i tag) s fun t => MbxEnded t i rcInvalid 0 ∧ SameOutside [.mbx] s t := by
  have e := exec_retireChannel ht hm ha tag
  rw [if_pos (by simpa using hk)] at e
  exact ⟨_, e, mbxEnd_ended .., mbxEnd_start_same ..⟩

theorem completes_retired (ht : MbxTaken s i) (hm : served s.m.mode = true) (ha : s.mbx.slot[i].arg[0] = BitVec.ofNat 32 n.val)
    (ho : s.ch[n].kind ≠ kindOff) (hp : s.ch[n].kind ≠ kindPair) (hr : s.ch[n].retired = false) (tag : W16) :
    Completes (.retireChannel i tag) s fun t =>
      MbxEnded t i rcOk 0 ∧ t.ch[n].retired = true ∧ t.ch[n].prot.pstate = .retired ∧ t.ch[n].prot.retCause = .command ∧
      t.m.chanRet = true ∧ (s.m.mode = .run → t.m.mode = .reduced ∧ t.m.cause = 0x08) := by
  have e := exec_retireChannel ht hm ha tag
  rw [if_neg (by rw [decide_eq_false ho, decide_eq_false hp]; decide), if_neg (by rw [hr]; decide)] at e
  exact ⟨_, e, mbxEnd_ended .., retireChannel_retired (mbxStart s i 0x30 tag) n .command⟩

theorem completes_returnInvalid (ht : MbxTaken s i) (hm : served s.m.mode = true) (ha : s.mbx.slot[i].arg[0] = BitVec.ofNat 32 n.val)
    (hp : s.ch[n].kind ≠ kindPair) (hr : s.ch[n].retired = false) (hn : s.ch[n].map = none) (tag : W16) :
    Completes (.returnChannel i tag) s fun t => MbxEnded t i rcInvalid 0 ∧ SameOutside [.mbx] s t := by
  have e := exec_returnChannel ht hm ha hp tag
  rw [hr, hn] at e
  exact ⟨_, e, mbxEnd_ended .., mbxEnd_start_same ..⟩

theorem completes_returned (ht : MbxTaken s i) (hm : served s.m.mode = true) (ha : s.mbx.slot[i].arg[0] = BitVec.ofNat 32 n.val)
    (hp : s.ch[n].kind ≠ kindPair) (hr : s.ch[n].retired = true) (tag : W16) :
    Completes (.returnChannel i tag) s fun t =>
      MbxEnded t i rcOk 0 ∧ t.ch[n].retired = false ∧ t.ch[n].prot.pstate = .clear ∧ t.ch[n].prot.retryN = 0 ∧
      t.ch[n].prot.tokens = 15 ∧ t.ch[n].prot.retCause = .notRetired ∧ t.ch[n].map = none := by
  have e := exec_returnChannel ht hm ha hp tag
  rw [if_neg (by rw [hr]; exact Bool.false_ne_true)] at e
  have h := returnChannel_returned (mbxStart s i 0x31 tag) n
  simp only [standing, Prod.mk.injEq] at h
  obtain ⟨h1, h2, h3, h4, h5, h6⟩ := h
  exact ⟨_, e, mbxEnd_ended .., h1, h3, h5, h6, h4, h2⟩

theorem completes_mapInvalid (ht : MbxTaken s i) (hm : served s.m.mode = true) (ha : s.mbx.slot[i].arg[0] = BitVec.ofNat 32 n.val)
    (hr : s.ch[n].retired = false) (tag : W16) :
    Completes (.mapSpare i tag) s fun t => MbxEnded t i rcInvalid 0 ∧ SameOutside [.mbx] s t := by
  have e := exec_mapSpare ht hm ha tag
  dsimp only at e
  rw [if_pos (by rw [hr]; rfl)] at e
  exact ⟨_, e, mbxEnd_ended .., mbxEnd_start_same ..⟩

section Standby

variable (ht : MbxTaken s i) (hm : served s.m.mode = true) (ha : s.mbx.slot[i].arg[0] = BitVec.ofNat 32 n.val) (hr : s.ch[n].retired = true)
  (he : cfgStbyEn (s.crec n) = true) (hk : s.ch[n].kind = kindDO)

include ht hm ha hr he hk

theorem completes_mapBusy {q : Chan} (hq : s.ch[cfgStby (s.crec n)].roleOf = some q) (hn : q ≠ n) (tag : W16) :
    Completes (.mapSpare i tag) s fun t => MbxEnded t i rcBusy 0 ∧ SameOutside [.mbx] s t := by
  have e := exec_mapSpare ht hm ha tag
  dsimp only at e
  rw [if_neg (by rw [hr, he, hk]; decide), if_pos (by rw [hq]; exact decide_eq_true fun h => hn (Option.some.inj h))] at e
  exact ⟨_, e, mbxEnd_ended .., mbxEnd_start_same ..⟩

theorem completes_mapDue (hq : s.ch[cfgStby (s.crec n)].roleOf = none) (hs : standbyReady s (cfgStby (s.crec n)) = true) (tag : W16) :
    Completes (.mapSpare i tag) s fun t =>
      MbxEnded t i rcOk 0 ∧ t.ch[n].mapDue = true ∧ (∀ m : Chan, m ≠ n → t.ch[m] = s.ch[m]) ∧ SameOutside [.mbx, .ch] s t := by
  have e := exec_mapSpare ht hm ha tag
  dsimp only at e
  rw [if_neg (by rw [hr, he, hk]; decide), if_neg (by rw [hq]; exact Bool.false_ne_true), if_neg (by rw [hs]; decide)] at e
  refine ⟨_, e, mbxEnd_ended .., congrArg Channel.mapDue (modCh_self (mbxStart s i 0x32 tag) n _), fun m hn => modCh_others _ _ hn, ?_⟩
  exact (mbxEnd_same ..).step rfl ((SameOutside.set_ch (mbxStart s i 0x32 tag) _).step rfl ((mbxStart_same s i 0x32 tag).widen rfl))

end Standby

end Slots

/-- Settles O47: each refusal and each acceptance by the channel's retirement and its record. -/
theorem retireReturnMap : Obligations.RetireReturnMap := fun _ _ tag _ ht hm ha =>
  ⟨fun hk => completes_retireInvalid ht hm ha hk tag, fun ho hp hr => completes_retired ht hm ha ho hp hr tag,
   fun hp hr hn => completes_returnInvalid ht hm ha hp hr hn tag, fun hp hr => completes_returned ht hm ha hp hr tag,
   fun hr => completes_mapInvalid ht hm ha hr tag, fun _ hr he hk hq hn => completes_mapBusy ht hm ha hr he hk hq hn tag,
   fun hr he hk hq hs => completes_mapDue ht hm ha hr he hk hq hs tag⟩

end Sys2Proof.Machine
end

section
/-!
Trims, factory restore and signature enrolment (05 R133, 07 R186–R190).
-/
namespace Sys2Proof.Machine

/-! ## A trim begins -/

/-- The capture that a trim of an input begins at a mailbox slot (07 R187). -/
def captureBegun (n : Chan) (span : Bool) (r : Int) (i : SlotIx) : TrimCapture := { ch := n, span := span, r := r, slot := some i }

theorem trimStart_input {s : State} {n : Chan} (hk : s.ch[n].kind = kindAII ∨ s.ch[n].kind = kindAIV) (hj : s.boot.job = none)
    (hc : s.conv.capture = none) (span : Bool) (r : Int) (i : SlotIx) :
    trimStart s n span r (some i) = { s with conv := { s.conv with capture := some (captureBegun n span r i) } } := by
  have ho : isAO s.ch[n].kind = false := by
    rcases hk with h | h <;> rw [h] <;> decide
  have hi : (!(decide (s.ch[n].kind = kindAII) || decide (s.ch[n].kind = kindAIV) || isAO s.ch[n].kind)) = false := by
    rcases hk with h | h <;> rw [h] <;> decide
  unfold trimStart
  dsimp only
  rw [hi, ho, hj, hc]
  rfl

section Slots

variable {s : State} {i : SlotIx} {n : Chan}

/-- What the state holds once a trim of channel `n` has begun for slot `i`. -/
theorem captureBegun_started (code tag : W16) (span : Bool) (x : ConvState)
    (hx : x = { s.conv with capture := some (captureBegun n span s.mbx.slot[i].arg[1].toInt i) }) :
    let t : State := { mbxStart s i code tag with conv := x }
    (∃ c : TrimCapture, t.conv.capture = some c ∧ c.ch = n ∧ c.span = span ∧ c.slot = some i ∧ c.got = [] ∧ c.point = none ∧
      c.r = s.mbx.slot[i].arg[1].toInt) ∧ t.mbx.slot[i].state = .running ∧ SameOutside [.mbx, .conv] s t := by
  subst hx
  refine ⟨⟨_, rfl, rfl, rfl, rfl, rfl, rfl, rfl⟩, congrArg (·.state) (mbxStart_slot s i code tag), ?_⟩
  exact (SameOutside.set_conv (mbxStart s i code tag) _).step rfl ((mbxStart_same s i code tag).widen rfl)

theorem mbxStart_trim (code tag : W16) (ht : MbxTaken s i) (hm : trimModes s.m.mode = true) (ha : s.mbx.slot[i].arg[0] = BitVec.ofNat 32 n.val)
    (hk : s.ch[n].kind = kindAII ∨ s.ch[n].kind = kindAIV) (hj : s.boot.job = none) (hc : s.conv.capture = none) (span : Bool) :
    mbxRun s i code tag trimModes [(0, 0xF)] (fun s => trimStart s (argChan s i) span (s.arg i 1).toInt (some i)) =
    { mbxStart s i code tag with conv := { s.conv with capture := some (captureBegun n span s.mbx.slot[i].arg[1].toInt i) } } := by
  rw [channelRun ht hm ha]
  dsimp only
  rw [argChan_ofNat ha, mbxStart_arg, trimStart_input (s := mbxStart s i code tag) hk hj hc]
  rfl

theorem completes_trimZero (ht : MbxTaken s i) (hm : trimModes s.m.mode = true) (ha : s.mbx.slot[i].arg[0] = BitVec.ofNat 32 n.val)
    (hk : s.ch[n].kind = kindAII ∨ s.ch[n].kind = kindAIV) (hj : s.boot.job = none) (hc : s.conv.capture = none) (tag : W16) :
    Completes (.trimZero i tag) s fun t =>
      (∃ c : TrimCapture, t.conv.capture = some c ∧ c.ch = n ∧ c.span = false ∧ c.slot = some i ∧ c.got = [] ∧ c.point = none ∧
        c.r = s.mbx.slot[i].arg[1].toInt) ∧ t.mbx.slot[i].state = .running ∧ SameOutside [.mbx, .conv] s t :=
  ⟨_, congrArg Host.Outcome.next ((mbxServed_running ht.1 i 0x40 tag runTrimZero).trans (mbxStart_trim 0x40 tag ht hm ha hk hj hc false)),
    captureBegun_started 0x40 tag false _ rfl⟩

theorem completes_trimSpan (ht : MbxTaken s i) (hm : trimModes s.m.mode = true) (ha : s.mbx.slot[i].arg[0] = BitVec.ofNat 32 n.val)
    (hk : s.ch[n].kind = kindAII ∨ s.ch[n].kind = kindAIV) (hj : s.boot.job = none) (hc : s.conv.capture = none) (tag : W16) :
    Completes (.trimSpan i tag) s fun t =>
      (∃ c : TrimCapture, t.conv.capture = some c ∧ c.ch = n ∧ c.span = true ∧ c.slot = some i ∧ c.got = [] ∧ c.point = none ∧
        c.r = s.mbx.slot[i].arg[1].toInt) ∧ t.mbx.slot[i].state = .running ∧ SameOutside [.mbx, .conv] s t :=
  ⟨_, congrArg Host.Outcome.next ((mbxServed_running ht.1 i 0x41 tag runTrimSpan).trans (mbxStart_trim 0x41 tag ht hm ha hk hj hc true)),
    captureBegun_started 0x41 tag true _ rfl⟩

end Slots

/-! ## A trim ends -/

/-- The capture over: its result is judged on this state. -/
def captureOver (s : State) : State := { s with conv := { s.conv with capture := none } }

theorem captureOver_same (s : State) : SameOutside [.conv] s (captureOver s) := SameOutside.set_conv s _

theorem exec_trimCaptureComplete {s : State} {c : TrimCapture} {n : Chan} (hr : s.execRuns = true) (hc : s.conv.capture = some c) (hn : c.ch = n)
    (w : Bool) : exec (.trimCaptureComplete n w) s = .next (trimComplete s c w) := by
  have hi : (decide (c.ch = n) && s.execRuns) = true := by
    rw [hr, decide_eq_true hn]
    rfl
  show execTrimCaptureComplete n w s = _
  unfold execTrimCaptureComplete
  rw [hc]
  exact congrArg Host.Outcome.next (if_pos hi)

theorem trimComplete_point {c : TrimCapture} {p : CalPoint} (hp : c.point = some p) (s : State) (w : Bool) :
    trimComplete s c w = trimRecord (captureOver s) c p w := by
  unfold trimComplete
  dsimp only
  rw [hp]
  rfl

theorem trimComplete_short {c : TrimCapture} {i : SlotIx} (hp : c.point = none) (hs : c.slot = some i) (hg : c.got.length < 16) (s : State)
    (w : Bool) : trimComplete s c w = mbxEndFree (captureOver s) i rcUnstable := by
  unfold trimComplete
  dsimp only
  rw [hp, hs]
  exact if_pos hg

theorem completes_trimUnstable {s : State} {c : TrimCapture} {n : Chan} {i : SlotIx} (hr : s.execRuns = true) (hc : s.conv.capture = some c)
    (hn : c.ch = n) (hs : c.slot = some i) (hp : c.point = none) (hg : c.got.length < 16) (w : Bool) :
    Completes (.trimCaptureComplete n w) s fun t =>
      t.conv.capture = none ∧ t.conv.points = s.conv.points ∧ t.mbx.slot[i].state = .done ∧ t.mbx.slot[i].result = rcUnstable ∧
      SameOutside [.mbx, .conv, .free] s t := by
  have e := exec_trimCaptureComplete hr hc hn w
  rw [trimComplete_short hp hs hg] at e
  obtain ⟨h1, h2, -⟩ := mbxEnd_ended (captureOver s).draw.2 i rcUnstable (captureOver s).draw.1
  refine ⟨_, e, rfl, rfl, h1, h2, ?_⟩
  exact (mbxEnd_same ..).step rfl ((State.draw_moves (captureOver s)).same.step rfl ((captureOver_same s).widen rfl))

theorem journalAppend_jseq {s : State} (h : journalFull s = false) (ty ch range qty : Byte) (payload : List Byte) :
    (journalAppend s ty ch range qty payload).1.boot.jseq = s.boot.jseq + 1 := by
  unfold journalAppend
  rw [h]
  rfl

/-- A judged point that is recorded: in force among the points, its journal number drawn (07 R189, R190). -/
theorem recordPoint_recorded (s : State) (n : Chan) (span : Bool) (p : CalPoint) :
    (recordPoint s n span p).1.conv.capture = s.conv.capture ∧
    (∃ j, (n, span, { p with jseq := j }) ∈ (recordPoint s n span p).1.conv.points) ∧
    (journalFull s = false → (recordPoint s n span p).1.boot.jseq = s.boot.jseq + 1) := by
  have hj := fun h => journalAppend_jseq (s := s) h (if span then 2 else 1) (BitVec.ofNat 8 n.val) p.range p.qty (pointPayload p)
  have hc := (journalAppend_moves s (if span then 2 else 1) (BitVec.ofNat 8 n.val) p.range p.qty (pointPayload p)).same.conv rfl
  unfold recordPoint
  dsimp only
  rw [(raise_moves ..).same.conv rfl, (raise_moves ..).same.boot rfl]
  exact ⟨congrArg (·.capture) hc, ⟨_, List.mem_append_right _ List.mem_cons_self⟩, hj⟩

/-- A recorded point's values, returned to its slot, and the command's end. -/
def pointReturned (s : State) (c : TrimCapture) (p : CalPoint) (i : SlotIx) : State :=
  let r := recordPoint (captureOver s) c.ch c.span p
  mbxEnd (mbxReturn (mbxReturn (mbxReturn r.1 i 0 (toW32 p.m)) i 1 (toW32 p.rt)) i 2 r.2) i rcOk 0

theorem trimRecord_written {c : TrimCapture} {i : SlotIx} (hs : c.slot = some i) (s : State) (p : CalPoint) :
    trimRecord (captureOver s) c p true = pointReturned s c p i := by
  unfold trimRecord
  rw [hs]
  rfl

theorem trimRecord_unwritten {c : TrimCapture} {i : SlotIx} (hs : c.slot = some i) (s : State) (p : CalPoint) :
    trimRecord (captureOver s) c p false = mbxEnd (captureOver s) i rcFlash (memstatWord s.mem) := by
  unfold trimRecord
  rw [hs]
  rfl

theorem pointReturned_moves (s : State) (c : TrimCapture) (p : CalPoint) (i : SlotIx) :
    Moves [.boot, .flash, .mbx, .conv, .ev, .port] (captureOver s) (pointReturned s c p i) :=
  Moves.step (mbxEnd_moves ..) rfl (Moves.step (mbxReturn_moves ..) rfl (Moves.step (mbxReturn_moves ..) rfl
    (Moves.step (mbxReturn_moves ..) rfl ((recordPoint_moves ..).widen rfl))))

theorem completes_trimRecorded {s : State} {c : TrimCapture} {n : Chan} {i : SlotIx} {p : CalPoint} (hr : s.execRuns = true)
    (hc : s.conv.capture = some c) (hn : c.ch = n) (hs : c.slot = some i) (hp : c.point = some p) :
    Completes (.trimCaptureComplete n true) s fun t =>
      t.conv.capture = none ∧ MbxEnded t i rcOk 0 ∧ (∃ j, (n, c.span, { p with jseq := j }) ∈ t.conv.points) ∧
      (journalFull s = false → t.boot.jseq = s.boot.jseq + 1) ∧ SameOutside [.boot, .flash, .mbx, .conv, .ev, .port] s t := by
  have e := exec_trimCaptureComplete hr hc hn true
  rw [trimComplete_point hp, trimRecord_written hs] at e
  obtain ⟨h1, h2, h3⟩ := recordPoint_recorded (captureOver s) c.ch c.span p
  subst hn
  exact ⟨_, e, h1, mbxEnd_ended .., h2, h3, (pointReturned_moves ..).same.step rfl ((captureOver_same s).widen rfl)⟩

theorem completes_trimUnwritten {s : State} {c : TrimCapture} {n : Chan} {i : SlotIx} {p : CalPoint} (hr : s.execRuns = true)
    (hc : s.conv.capture = some c) (hn : c.ch = n) (hs : c.slot = some i) (hp : c.point = some p) :
    Completes (.trimCaptureComplete n false) s fun t =>
      t.conv.capture = none ∧ MbxEnded t i rcFlash (memstatWord s.mem) ∧ t.conv.points = s.conv.points ∧ SameOutside [.mbx, .conv] s t := by
  have e := exec_trimCaptureComplete hr hc hn false
  rw [trimComplete_point hp, trimRecord_unwritten hs] at e
  exact ⟨_, e, rfl, mbxEnd_ended .., rfl, (mbxEnd_same ..).step rfl ((captureOver_same s).widen rfl)⟩

/-! ## RESTORE_FACTORY -/

theorem restoreFactory_points (s : State) (n : Chan) : (restoreFactory s (some n)).1.conv.points = s.conv.points.filter fun x => x.1 ≠ n := by
  unfold restoreFactory
  dsimp only
  rw [(raise_moves ..).same.conv rfl]
  dsimp only
  rw [(journalAppend_moves ..).same.conv rfl]

/-- What runs of a RESTORE_FACTORY of one channel taken by its slot. -/
def factoryRestored (s : State) (i : SlotIx) (tag : W16) (n : Chan) : State :=
  let r := restoreFactory (mbxStart s i 0x42 tag) (some n)
  mbxEnd (mbxReturn r.1 i 2 r.2) i rcOk 0

theorem arg_channel {n : Chan} {w : W32} (h : w = BitVec.ofNat 32 n.val) : w &&& ~~~0xFF#32 = 0 ∧ w.toNat = n.val := by
  subst h
  revert n
  decide

theorem exec_restoreFactory {s : State} {i : SlotIx} {n : Chan} (ht : MbxTaken s i) (hm : served s.m.mode = true)
    (ha : s.mbx.slot[i].arg[0] = BitVec.ofNat 32 n.val) (tag : W16) : exec (.restoreFactory i tag) s = .next (factoryRestored s i tag n) := by
  have ha0 : s.mbx.slot[i].arg[(0 : Fin 32)] = BitVec.ofNat 32 n.val := ha
  obtain ⟨hmask, hnat⟩ := arg_channel ha0
  have e := (mbxServed_running ht.1 i 0x42 tag runRestoreFactory).trans (mbxRun_masked ht.2 hm hmask 0x42 tag _)
  have hn := n.isLt
  dsimp only at e
  rw [mbxStart_arg, hnat, if_neg (by simp), if_neg (show ¬n.val = 0xFF by omega),
    show chanOf n.val = n from Fin.ext (Nat.mod_eq_of_lt hn)] at e
  exact congrArg Host.Outcome.next e

theorem completes_restoreFactory {s : State} {i : SlotIx} {n : Chan} (ht : MbxTaken s i) (hm : served s.m.mode = true)
    (ha : s.mbx.slot[i].arg[0] = BitVec.ofNat 32 n.val) (tag : W16) :
    Completes (.restoreFactory i tag) s fun t =>
      MbxEnded t i rcOk 0 ∧ (∀ x ∈ t.conv.points, x.1 ≠ n) ∧ (∀ x ∈ s.conv.points, x.1 ≠ n → x ∈ t.conv.points) ∧
      SameOutside [.boot, .flash, .mbx, .conv, .ev, .port] s t := by
  have hp : (factoryRestored s i tag n).conv.points = s.conv.points.filter fun x => x.1 ≠ n := restoreFactory_points (mbxStart s i 0x42 tag) n
  refine ⟨_, exec_restoreFactory ht hm ha tag, mbxEnd_ended .., fun x hx => ?_, fun x hx hn => ?_, ?_⟩
  · rw [hp] at hx
    exact of_decide_eq_true (List.mem_filter.mp hx).2
  · rw [hp]
    exact List.mem_filter.mpr ⟨hx, decide_eq_true hn⟩
  · exact (mbxEnd_same ..).step rfl ((mbxReturn_moves ..).same.step rfl ((restoreFactory_moves ..).same.step rfl
      ((mbxStart_same s i 0x42 tag).widen rfl)))

/-! ## ENROL_SIGNATURE -/

/-- What has been accumulated of a channel is gone, and its enrolment with it (05 R133). -/
theorem discardAcc_discards (s : State) (n : Chan) : (discardAcc s n).ch = modAt s.ch n (fun c => { c with acc := [], accN := 0 }) ∧
    ∀ m : Chan, m ≠ n → (discardAcc s n).enrol[m] = s.enrol[m] := by
  unfold discardAcc
  dsimp only
  split
  · exact ⟨rfl, fun m hm => setAt_of_ne _ _ hm⟩
  · exact ⟨rfl, fun m hm => rfl⟩

/-- The enrolment begun: nothing accumulated, no estimate, and no window gathered. -/
def enrolBegun (s : State) (n : Chan) (i : SlotIx) : State :=
  let s1 := evalLamp (dropEst (discardAcc s n) n) n
  { s1 with enrol := setAt s1.enrol n (some ⟨i, []⟩) }

theorem evalLamp_estimate (s : State) (n : Chan) : (evalLamp s n).ch[n].acc = s.ch[n].acc ∧ (evalLamp s n).ch[n].accN = s.ch[n].accN ∧
    (evalLamp s n).ch[n].p.estValid = s.ch[n].p.estValid := by
  have hl := evalLamp_rec s n n
  exact ⟨hl.get Channel.acc fun _ => rfl, hl.get Channel.accN fun _ => rfl, hl.get (fun c => c.p.estValid) fun _ => rfl⟩

theorem dropEst_discarded (s : State) (n : Chan) : (dropEst (discardAcc s n) n).ch[n].acc = [] ∧
    (dropEst (discardAcc s n) n).ch[n].accN = 0 ∧ (dropEst (discardAcc s n) n).ch[n].p.estValid = false := by
  unfold dropEst
  rw [modCh_self, (discardAcc_discards s n).1, modAt_self]
  exact ⟨rfl, rfl, rfl⟩

theorem enrolBegun_channel (s : State) (n : Chan) (i : SlotIx) :
    (enrolBegun s n i).ch[n].acc = [] ∧ (enrolBegun s n i).ch[n].accN = 0 ∧ (enrolBegun s n i).ch[n].p.estValid = false := by
  obtain ⟨h1, h2, h3⟩ := dropEst_discarded s n
  unfold enrolBegun
  generalize dropEst (discardAcc s n) n = a at h1 h2 h3 ⊢
  obtain ⟨e1, e2, e3⟩ := evalLamp_estimate a n
  exact ⟨e1.trans h1, e2.trans h2, e3.trans h3⟩

theorem enrolBegun_enrol (s : State) (n : Chan) (i : SlotIx) :
    (enrolBegun s n i).enrol[n] = some ⟨i, []⟩ ∧ ∀ m : Chan, m ≠ n → (enrolBegun s n i).enrol[m] = s.enrol[m] := by
  refine ⟨setAt_self _ _ _, fun m hm => (setAt_of_ne _ _ hm).trans ?_⟩
  rw [(evalLamp_moves ..).same.enrol rfl, (dropEst_moves ..).same.enrol rfl]
  exact (discardAcc_discards s n).2 m hm

theorem enrolBegun_same (s : State) (n : Chan) (i : SlotIx) : SameOutside [.mbx, .enrol, .ch, .ev, .img, .port, .free] s (enrolBegun s n i) :=
  (SameOutside.set_enrol (evalLamp (dropEst (discardAcc s n) n) n) _).step rfl ((evalLamp_moves ..).same.step rfl
    ((dropEst_moves ..).same.step rfl ((discardAcc_moves s n).same.widen rfl)))

theorem exec_enrolSignature {s : State} {i : SlotIx} {n : Chan} (ht : MbxTaken s i) (hm : s.m.mode = .trim)
    (ha : s.mbx.slot[i].arg[0] = BitVec.ofNat 32 n.val) (tag : W16) : exec (.enrolSignature i tag) s = .next (
      if enrolBad (mbxStart s i 0x43 tag) n then mbxEnd (mbxStart s i 0x43 tag) i rcInvalid 0
      else if s.boot.job.isSome then mbxEnd (mbxStart s i 0x43 tag) i rcBusy 0
      else enrolBegun (mbxStart s i 0x43 tag) n i) := by
  have e := (mbxServed_running ht.1 i 0x43 tag runEnrolSignature).trans (channelRun ht (decide_eq_true hm) ha _)
  dsimp only at e
  simp only [argChan_ofNat ha] at e
  exact congrArg Host.Outcome.next e

theorem completes_enrolInvalid {s : State} {i : SlotIx} {n : Chan} (ht : MbxTaken s i) (hm : s.m.mode = .trim)
    (ha : s.mbx.slot[i].arg[0] = BitVec.ofNat 32 n.val) (hb : enrolBad s n = true) (tag : W16) :
    Completes (.enrolSignature i tag) s fun t => MbxEnded t i rcInvalid 0 ∧ SameOutside [.mbx] s t := by
  have e := exec_enrolSignature ht hm ha tag
  rw [if_pos (show enrolBad (mbxStart s i 0x43 tag) n = true from hb)] at e
  exact ⟨_, e, mbxEnd_ended .., mbxEnd_start_same ..⟩

theorem completes_enrolBegun {s : State} {i : SlotIx} {n : Chan} (ht : MbxTaken s i) (hm : s.m.mode = .trim)
    (ha : s.mbx.slot[i].arg[0] = BitVec.ofNat 32 n.val) (hb : enrolBad s n = false) (hj : s.boot.job = none) (tag : W16) :
    Completes (.enrolSignature i tag) s fun t =>
      t.enrol[n] = some ⟨i, []⟩ ∧ (∀ m : Chan, m ≠ n → t.enrol[m] = s.enrol[m]) ∧ t.ch[n].acc = [] ∧ t.ch[n].accN = 0 ∧
      t.ch[n].p.estValid = false ∧ SameOutside [.mbx, .enrol, .ch, .ev, .img, .port, .free] s t := by
  have e := exec_enrolSignature ht hm ha tag
  have hb' : enrolBad (mbxStart s i 0x43 tag) n = false := hb
  rw [if_neg (by rw [hb']; exact Bool.false_ne_true), hj] at e
  obtain ⟨h1, h2⟩ := enrolBegun_enrol (mbxStart s i 0x43 tag) n i
  obtain ⟨h3, h4, h5⟩ := enrolBegun_channel (mbxStart s i 0x43 tag) n i
  exact ⟨_, e, h1, h2, h3, h4, h5, (enrolBegun_same ..).step rfl ((mbxStart_same s i 0x43 tag).widen rfl)⟩

/-! ## A signature recorded -/

theorem divRound_four (g : Int) : divRound (g + (g + (g + (g + 0)))) 4 = g := by
  have h : g + (g + (g + (g + 0))) = 4 * g := by ring
  have h4 : 4 * g / 4 = g := Int.mul_ediv_cancel_left g (by decide)
  unfold divRound
  simp only [h, show ¬(4 : Int) = 0 by decide, show ¬(4 : Int) < 0 by decide, if_false, h4]
  exact if_neg (by omega)

/-- A signature recorded and returned to the slot that enrolled it (05 R133). -/
def signatureReturned (s : State) (n : Chan) (i : SlotIx) (g : Int) (a v tj : W32) : State :=
  let s1 : State := { s with enrol := setAt s.enrol n none }
  let x := newSignature s n g a v tj
  mbxEnd (mbxReturn (mbxReturn (mbxReturn (recordSignature s1 n x) i 0 x.g) i 1 a) i 2 v) i rcOk 0

theorem exec_enrolComplete {s : State} {n : Chan} {i : SlotIx} {g : Int} (hr : s.execRuns = true) (hg : 0 ≤ g)
    (he : s.enrol[n] = some ⟨i, [some g, some g, some g, some g]⟩) (a v tj : W32) :
    exec (.enrolComplete n a v tj true) s = .next (signatureReturned s n i g a v tj) := by
  have hs : ¬50 * ([g, g, g, g].foldl max g - [g, g, g, g].foldl min g) > g := by
    simp only [List.foldl_cons, List.foldl_nil, max_self, min_self]
    omega
  show execEnrolComplete n a v tj true s = _
  unfold execEnrolComplete
  rw [he]
  dsimp only
  rw [hr]
  refine congrArg Host.Outcome.next ?_
  refine (if_neg Bool.false_ne_true).trans ((if_neg (lt_irrefl 4)).trans ((if_neg (lt_irrefl 4)).trans ?_))
  have hd : divRound (([some g, some g, some g, some g].filterMap id).sum) 4 = g := divRound_four g
  rw [hd]
  exact (if_neg hs).trans (if_neg Bool.false_ne_true)

theorem recordSignature_sig (s : State) (n : Chan) (x : Signature) : (recordSignature s n x).ch[n].p.sig = some x := by
  unfold recordSignature putNoSig
  dsimp only
  rw [modCh_self, modCh_self]

theorem valuesReturned_same (s : State) (i : SlotIx) (x y z : W32) :
    SameOutside [.mbx] s (mbxEnd (mbxReturn (mbxReturn (mbxReturn s i 0 x) i 1 y) i 2 z) i rcOk 0) :=
  (mbxEnd_same ..).step rfl ((mbxReturn_moves ..).same.step rfl ((mbxReturn_moves ..).same.step rfl (mbxReturn_moves ..).same))

theorem signatureReturned_recorded (s : State) (n : Chan) (i : SlotIx) (g : Int) (a v tj : W32) : SameOutside [.mbx]
    (recordSignature { s with enrol := setAt s.enrol n none } n (newSignature s n g a v tj)) (signatureReturned s n i g a v tj) :=
  valuesReturned_same ..

theorem signatureReturned_ended (s : State) (n : Chan) (i : SlotIx) (g : Int) (a v tj : W32) :
    MbxEnded (signatureReturned s n i g a v tj) i rcOk 0 := mbxEnd_ended ..

theorem completes_enrolComplete {s : State} {n : Chan} {i : SlotIx} {g : Int} (hr : s.execRuns = true) (hg : 0 ≤ g)
    (he : s.enrol[n] = some ⟨i, [some g, some g, some g, some g]⟩) (a v tj : W32) :
    Completes (.enrolComplete n a v tj true) s fun t =>
      t.enrol[n] = none ∧ MbxEnded t i rcOk 0 ∧ t.ch[n].p.sig = some (newSignature s n g a v tj) ∧
      SameOutside [.boot, .ch, .enrol, .flash, .mbx] s t := by
  have h := signatureReturned_recorded s n i g a v tj
  have hm := (recordSignature_moves { s with enrol := setAt s.enrol n none } n (newSignature s n g a v tj)).same
  have hs := recordSignature_sig { s with enrol := setAt s.enrol n none } n (newSignature s n g a v tj)
  refine ⟨_, exec_enrolComplete hr hg he a v tj, ?_, signatureReturned_ended .., ?_, ?_⟩
  · rw [h.enrol rfl, hm.enrol rfl]
    exact setAt_self _ _ _
  · rw [h.ch rfl]
    exact hs
  · exact h.step rfl (hm.step rfl ((SameOutside.set_enrol s _).widen rfl))

/-- Settles O48: each command and each end of a capture by what the capture has gathered. -/
theorem trimsAndEnrolments : Obligations.TrimsAndEnrolments := fun _ _ tag _ =>
  ⟨fun ht hm ha hk hj hc => ⟨completes_trimZero ht hm ha hk hj hc tag, completes_trimSpan ht hm ha hk hj hc tag⟩,
   fun _ hr hc hn hs => ⟨fun w hp hg => completes_trimUnstable hr hc hn hs hp hg w,
    fun _ hp => ⟨completes_trimRecorded hr hc hn hs hp, completes_trimUnwritten hr hc hn hs hp⟩⟩,
   fun ht hm ha => completes_restoreFactory ht hm ha tag,
   fun ht hm ha => ⟨fun hb => completes_enrolInvalid ht hm ha hb tag, fun hb hj => completes_enrolBegun ht hm ha hb hj tag⟩,
   fun _ a v tj hr hg he => completes_enrolComplete hr hg he a v tj⟩

end Sys2Proof.Machine
end

section
/-!
FORCE_SAFE, LEAVE_SAFE, ENTER_TRIM and LEAVE_TRIM, and the cycle that ends a LEAVE (03 R67, R68, R72–R74, R77).
-/
namespace Sys2Proof.Machine

/-! ## Entering SAFE marks every channel's safe state as applied -/

theorem evalLamp_safeApp (s : State) (n : Chan) : ChKept Channel.safeApp s (evalLamp s n) :=
  ⟨fun m => (evalLamp_rec s n m).get Channel.safeApp fun _ => rfl⟩

theorem refresh_safeApp (s : State) (n : Chan) : ChKept Channel.safeApp s (refresh s n) := by
  unfold refresh
  have h1 : ChKept Channel.safeApp s (s.modCh n fun c => { c with life := lifeOf s n }) := .modCh s n _ (by intro _; rfl)
  exact (((h1.trans (.of_moves (putChanHealth_moves _ n) rfl)).trans (.of_moves (putChanState_moves _ n) rfl)).trans
    (.of_moves (putCommands_moves _ n) rfl)).trans (evalLamp_safeApp _ n)

theorem modeChanged_safeApp (s : State) (mode : Mode) : ChKept Channel.safeApp s (modeChanged s mode) := by
  unfold modeChanged
  refine ChKept.trans (ChKept.trans ?_ (.of_moves (autoDetach_moves _) rfl)) (.foldl (fun a n => refresh_safeApp a n) _ _)
  split <;> split <;> exact .of_eq rfl

theorem setMode_safeApp (s : State) (mode : Mode) (cause : Byte) : ChKept Channel.safeApp s (setMode s mode cause) :=
  ((ChKept.of_moves (raiseReduced_moves s) rfl).trans (.of_moves (writeMode_moves ..) rfl)).trans
    ((ChKept.of_moves (raise_moves ..) rfl).trans (modeChanged_safeApp ..))

theorem noteSafe_safeApp (s : State) (n : Chan) : ChKept Channel.safeApp s (noteSafe s n) := by
  have hset : ∀ cmd, ChKept Channel.safeApp s (setCmd s n cmd) := fun cmd => .modCh s n _ (by intro _; rfl)
  unfold noteSafe
  refine .ite (.of_eq rfl) ?_
  extract_lets s1
  have h1 : ChKept Channel.safeApp s s1 := by
    unfold s1
    split
    · exact hset _
    · exact hset _
    · exact .of_eq rfl
    · exact hset _
  exact h1.trans (.ite (.of_moves (safeTarget_moves ..) rfl) (.of_eq rfl))

/-- In SAFE no command ends the application of a safe state (Table 4-7). -/
theorem commanded_safe {s : State} (h : s.m.mode = .safe) (x : FieldAct) : commanded s x = s := by
  unfold commanded
  split
  · refine if_neg ?_
    rw [h]
    simp
  · rfl

theorem foldl_commanded_safe {s : State} (h : s.m.mode = .safe) (acts : List FieldAct) : acts.foldl commanded s = s := by
  induction acts with
  | nil => rfl
  | cons x l ih => rw [List.foldl_cons, commanded_safe h, ih]

theorem command_safe_ch {s : State} (h : s.m.mode = .safe) (acts : List FieldAct) : (command s acts).ch = s.ch := by
  unfold command
  rw [foldl_commanded_safe h]
  split
  · rfl
  · exact (bwSend_moves ..).same.ch rfl

theorem commandSafeAll_safeApp {s : State} (h : s.m.mode = .safe) : ChKept Channel.safeApp s (commandSafeAll s) := by
  have hn : ChKept Channel.safeApp s ((List.finRange 16).foldl noteSafe s) := .foldl (fun a n => noteSafe_safeApp a n) _ s
  have hm : ((List.finRange 16).foldl noteSafe s).m = s.m :=
    (Moves.foldl (fun a n => noteSafe_moves a n) (Moves.refl s) :
      Moves [.ch, .ev, .img, .port, .conv, .loop] s ((List.finRange 16).foldl noteSafe s)).same.m rfl
  exact hn.trans (.of_eq (command_safe_ch (by rw [hm, h]) _))

theorem markSafe_safeApp (s : State) (b : Bool) (n : Chan) : (markSafe s b).ch[n].safeApp = b := by
  unfold markSafe
  simp

theorem safeMade_safeApp (s : State) (cause : Byte) (wd : Option (Fin 8)) (n : Chan) : (safeMade s cause wd).ch[n].safeApp = true := by
  unfold safeMade
  extract_lets +onlyGivenNames r1 s1 m1 r2 s0
  have h := (setMode_safeApp (markSafe (dropStepFive s0) true) .safe cause).trans (commandSafeAll_safeApp (by rw [setMode_m]))
  exact (h.ch n).trans (markSafe_safeApp ..)

/-- The mode that an entry leaves is RUN where the change to REDUCED was of this rule cycle (03 R68). -/
theorem discardReduced_mode (s : State) :
    (discardReduced s).m.mode = if s.m.reducedNow.isSome = true ∧ s.m.mode = .reduced then .run else s.m.mode := by
  unfold discardReduced
  simp only [Bool.and_eq_true, decide_eq_true_eq]
  split <;> rfl

theorem completes_forceSafe {s : State} {i : SlotIx} (ht : MbxTaken s i) (hm : s.m.mode = .run ∨ s.m.mode = .reduced ∨ s.m.mode = .trim)
    (tag : W16) :
    Completes (.forceSafe i tag) s fun t =>
      MbxEnded t i rcOk 0 ∧ t.m.mode = .safe ∧
      t.m.prev = (if s.m.reducedNow.isSome = true ∧ s.m.mode = .reduced then .run else s.m.mode) ∧ t.m.cause = 0x05 ∧
      t.m.safeTotal = satInc s.m.safeTotal ∧ t.m.safeTicks = s.m.safeTicks ∧ (∀ n : Chan, t.ch[n].safeApp = true) := by
  have ha : trimModes s.m.mode = true := by
    rcases hm with h | h | h <;> rw [h] <;> rfl
  have e : runForceSafe s i tag = mbxEnd (enterSafe (mbxStart s i 0x70 tag) 0x05 none) i rcOk 0 := mbxRun_plain ht.2 ha ..
  rw [enterSafe_live (mbxStart s i 0x70 tag) 0x05 none hm, if_pos rfl] at e
  obtain ⟨h1, h2, h3, h4, h5⟩ := safeMade_m (mbxStart s i 0x70 tag) 0x05 none
  have h6 := safeMade_safeApp (mbxStart s i 0x70 tag) 0x05 none
  rw [discardReduced_mode] at h3
  generalize safeMade (mbxStart s i 0x70 tag) 0x05 none = u at e h1 h2 h3 h4 h5 h6
  exact ⟨_, congrArg Host.Outcome.next ((mbxServed_running ht.1 ..).trans e), mbxEnd_ended .., h1, h3, h2, h4, h5, h6⟩

/-! ## LEAVE_SAFE and LEAVE_TRIM -/

theorem beginLeaving_begun {s : State} (h : s.m.leaving = none) (i : SlotIx) :
    beginLeaving s i = { s with m := { s.m with leaving := some i } } := by
  unfold beginLeaving
  rw [h]
  rfl

theorem beginLeaving_busy {s : State} {j : SlotIx} (h : s.m.leaving = some j) (i : SlotIx) : beginLeaving s i = mbxEnd s i rcBusy 0 := by
  unfold beginLeaving
  rw [h]
  rfl

theorem runLeaveSafe_blocked {s : State} {i : SlotIx} (h : s.mbx.slot[i].state ≠ .running) (hm : s.m.mode = .safe) {c : SafeCause}
    (hc : safeBlock s = some c) (tag : W16) : runLeaveSafe s i tag = mbxEnd (mbxStart s i 0x71 tag) i rcCause (put 0 c.code) := by
  refine (mbxRun_plain h (decide_eq_true hm) 0x71 tag _).trans ?_
  rw [show safeBlock (mbxStart s i 0x71 tag) = some c from hc]

theorem runLeaveSafe_free {s : State} {i : SlotIx} (h : s.mbx.slot[i].state ≠ .running) (hm : s.m.mode = .safe) (hc : safeBlock s = none)
    (tag : W16) : runLeaveSafe s i tag = beginLeaving (mbxStart s i 0x71 tag) i := by
  refine (mbxRun_plain h (decide_eq_true hm) 0x71 tag _).trans ?_
  rw [show safeBlock (mbxStart s i 0x71 tag) = none from hc]

theorem completes_leaveSafeCause {s : State} {i : SlotIx} (ht : MbxTaken s i) (hm : s.m.mode = .safe) {c : SafeCause} (hc : safeBlock s = some c)
    (tag : W16) : Completes (.leaveSafe i tag) s fun t => MbxEnded t i rcCause (c.code.setWidth 32) ∧ SameOutside [.mbx] s t := by
  have e := runLeaveSafe_blocked ht.2 hm hc tag
  have hp : (put 0 c.code : W32) = c.code.setWidth 32 := BitVec.shiftLeft_zero _
  rw [hp] at e
  exact ⟨_, congrArg Host.Outcome.next ((mbxServed_running ht.1 ..).trans e), mbxEnd_ended .., mbxEnd_start_same ..⟩

/-- What a LEAVE that waits for its cycle leaves: its slot running, and the mode standing. -/
theorem leaving_begun (s : State) (i : SlotIx) (code tag : W16) :
    let t : State := { mbxStart s i code tag with m := { s.m with leaving := some i } }
    t.mbx.slot[i].state = .running ∧ t.m.leaving = some i ∧ t.m.mode = s.m.mode ∧ SameOutside [.mbx, .m] s t :=
  ⟨congrArg (·.state) (mbxStart_slot s i code tag), rfl, rfl,
    (SameOutside.set_m (mbxStart s i code tag) _).step rfl ((mbxStart_same s i code tag).widen rfl)⟩

theorem completes_leaveSafe {s : State} {i : SlotIx} (ht : MbxTaken s i) (hm : s.m.mode = .safe) (hc : safeBlock s = none)
    (hl : s.m.leaving = none) (tag : W16) :
    Completes (.leaveSafe i tag) s fun t =>
      t.mbx.slot[i].state = .running ∧ t.m.leaving = some i ∧ t.m.mode = .safe ∧ SameOutside [.mbx, .m] s t := by
  have e := (runLeaveSafe_free ht.2 hm hc tag).trans (beginLeaving_begun (s := mbxStart s i 0x71 tag) hl i)
  obtain ⟨h1, h2, h3, h4⟩ := leaving_begun s i 0x71 tag
  exact ⟨_, congrArg Host.Outcome.next ((mbxServed_running ht.1 ..).trans e), h1, h2, h3.trans hm, h4⟩

theorem completes_leaveSafeBusy {s : State} {i j : SlotIx} (ht : MbxTaken s i) (hm : s.m.mode = .safe) (hc : safeBlock s = none)
    (hl : s.m.leaving = some j) (tag : W16) : Completes (.leaveSafe i tag) s fun t => MbxEnded t i rcBusy 0 ∧ SameOutside [.mbx] s t := by
  have e := (runLeaveSafe_free ht.2 hm hc tag).trans (beginLeaving_busy (s := mbxStart s i 0x71 tag) hl i)
  exact ⟨_, congrArg Host.Outcome.next ((mbxServed_running ht.1 ..).trans e), mbxEnd_ended .., mbxEnd_start_same ..⟩

theorem completes_leaveTrim {s : State} {i : SlotIx} (ht : MbxTaken s i) (hm : s.m.mode = .trim) (hl : s.m.leaving = none) (tag : W16) :
    Completes (.leaveTrim i tag) s fun t =>
      t.mbx.slot[i].state = .running ∧ t.m.leaving = some i ∧ t.m.mode = .trim ∧ SameOutside [.mbx, .m] s t := by
  have e : runLeaveTrim s i tag = beginLeaving (mbxStart s i 0x81 tag) i := mbxRun_plain ht.2 (decide_eq_true hm) ..
  have e' := e.trans (beginLeaving_begun (s := mbxStart s i 0x81 tag) hl i)
  obtain ⟨h1, h2, h3, h4⟩ := leaving_begun s i 0x81 tag
  exact ⟨_, congrArg Host.Outcome.next ((mbxServed_running ht.1 ..).trans e'), h1, h2, h3.trans hm, h4⟩

/-! ## ENTER_TRIM -/

/-- The mode TRIM, entered from RUN or REDUCED, before its channel is armed. -/
def trimMode (s : State) : State := commandSafeAll (setMode (refuseLeaving (discardReduced s) rcWrongMode (put 0 Mode.trim.code)) .trim 0x03)

theorem enterTrim_live {s : State} (hm : s.m.mode = .run ∨ s.m.mode = .reduced) (ask : Option Chan) : enterTrim s ask = arm (trimMode s) ask := by
  have h : (refuseLeaving (discardReduced s) rcWrongMode (put 0 Mode.trim.code)).m.mode ≠ .safe := by
    rw [refuseLeaving_m, discardReduced_mode]
    rcases hm with h | h <;> rw [h] <;> split <;> decide
  unfold enterTrim trimMode
  dsimp only
  rw [if_neg h]

theorem trimMode_m (s : State) : (trimMode s).m.mode = .trim ∧ (trimMode s).m.prev = (discardReduced s).m.mode ∧ (trimMode s).m.cause = 0x03 := by
  unfold trimMode
  rw [(commandSafeAll_moves _).same.m rfl, setMode_m, refuseLeaving_m]
  exact ⟨rfl, rfl, rfl⟩

theorem modeChanged_hbeat {s : State} {mode : Mode} (h : mode ≠ .run ∧ mode ≠ .reduced) : (modeChanged s mode).pins.hbeat = false := by
  unfold modeChanged
  dsimp only
  rw [(refreshAll_moves _).same.pins rfl, (autoDetach_moves _).same.pins rfl, decide_eq_false h.1, decide_eq_false h.2]
  split <;> rfl

theorem trimMode_hbeat (s : State) : (trimMode s).pins.hbeat = false := by
  unfold trimMode
  rw [(commandSafeAll_moves _).same.pins rfl]
  unfold setMode
  extract_lets s1
  have h := modeChanged_hbeat (s := raise s1 srcMode (modeWord s1.m)) (mode := .trim) ⟨by decide, by decide⟩
  exact h

theorem ledResume_parts (s : State) : (ledResume s).pins.hbeat = s.pins.hbeat ∧ (ledResume s).trim.armValid = s.trim.armValid := ⟨rfl, rfl⟩

/-- The trim channel is armed exactly where some channel can be (07 R194). -/
theorem arm_armed (s : State) : (arm s none).trim.armValid = true ↔ ∃ n : Chan, armable (arm s none) n = true := by
  have h : (arm s none).trim.armValid = ((List.finRange 16).find? (armable s)).isSome := rfl
  have hn : ∀ n, armable (arm s none) n = armable s n := fun _ => rfl
  simp only [h, hn, List.find?_isSome, List.mem_finRange, true_and]

/-- What runs of an ENTER_TRIM that leaves the choice of its channel to the executive. -/
def trimEntered (s : State) (i : SlotIx) (tag : W16) : State :=
  let s1 := arm (trimMode (mbxStart s i 0x80 tag)) none
  mbxEnd (mbxReturn s1 i 0 (putN 0 4 s1.trim.armed.val ||| putB 4 s1.trim.armValid)) i rcOk 0

theorem exec_enterTrim {s : State} {i : SlotIx} (ht : MbxTaken s i) (hm : s.m.mode = .run ∨ s.m.mode = .reduced)
    (ha : s.mbx.slot[i].arg[0] = 0xFF) (tag : W16) : exec (.enterTrim i tag) s = .next (trimEntered s i tag) := by
  have ha0 : s.mbx.slot[i].arg[(0 : Fin 32)] = 0xFF := ha
  have hacc : (decide (s.m.mode = .run) || decide (s.m.mode = .reduced) || decide (s.m.mode = .safe)) = true := by
    rcases hm with h | h <;> rw [h] <;> rfl
  have hs : ¬(mbxStart s i 0x80 tag).m.mode = .safe := by
    show ¬s.m.mode = .safe
    rcases hm with h | h <;> rw [h] <;> decide
  have e := (mbxServed_running ht.1 i 0x80 tag runEnterTrim).trans
    (mbxRun_masked (w := 0xFF) (accepted := fun m => m = .run || m = .reduced || m = .safe) ht.2 hacc (by rw [ha0]; decide) 0x80 tag _)
  dsimp only at e
  rw [mbxStart_arg, ha0, if_neg (by decide), if_neg hs, enterTrim_live (s := mbxStart s i 0x80 tag) hm] at e
  exact congrArg Host.Outcome.next e

theorem completes_enterTrim {s : State} {i : SlotIx} (ht : MbxTaken s i) (hm : s.m.mode = .run ∨ s.m.mode = .reduced)
    (ha : s.mbx.slot[i].arg[0] = 0xFF) (tag : W16) :
    Completes (.enterTrim i tag) s fun t =>
      t.mbx.slot[i].state = .done ∧ t.mbx.slot[i].result = rcOk ∧ t.m.mode = .trim ∧
      t.m.prev = (if s.m.reducedNow.isSome = true ∧ s.m.mode = .reduced then .run else s.m.mode) ∧ t.m.cause = 0x03 ∧
      t.pins.hbeat = false ∧ (t.trim.armValid = true ↔ ∃ n : Chan, armable t n = true) := by
  have e := exec_enterTrim ht hm ha tag
  obtain ⟨h1, h2, h3⟩ := trimMode_m (mbxStart s i 0x80 tag)
  have h4 := trimMode_hbeat (mbxStart s i 0x80 tag)
  rw [discardReduced_mode] at h2
  unfold trimEntered at e
  generalize trimMode (mbxStart s i 0x80 tag) = u at e h1 h2 h3 h4
  obtain ⟨h5, h6, -⟩ := mbxEnd_ended (mbxReturn (arm u none) i 0 (putN 0 4 (arm u none).trim.armed.val ||| putB 4 (arm u none).trim.armValid))
    i rcOk 0
  exact ⟨_, e, h5, h6, h1, h2, h3, h4, arm_armed u⟩

/-! ## The cycle that ends a LEAVE -/

theorem settleMode_m (s : State) : (settleMode s).m = { s.m with beforeSafe := none, reducedNow := none } := by
  unfold settleMode
  rw [raiseReduced_m]

/-- A cycle that ends a LEAVE: the state `x` its steps left, whose mode is settled, and what the LEAVE's end makes of it (03 R72, R77). -/
theorem cycle_leaving {s : State} (g : Generation) :
    ∃ (x : State) (e : Nat) (t : W64), x.m = { s.m with beforeSafe := none, reducedNow := none } ∧
      cycle s g = retarget (afterCycle (writeCheckpoint x g)) e t := by
  unfold cycle
  extract_lets +onlyGivenNames m times sd stepFour done held target el gov s1 cy rul s2 r s3 us rul4 pins4 s4
  let c : State := { sd with gov := { sd.gov with cycleRefused := false } }
  have h1 : SameOutside [.bw, .ch, .conv, .enrol, .ev, .free, .gov, .img, .loop, .mbx, .port, .rul] (settleMode c) s1 :=
    (Moves.step (gatherCommands_moves ..) rfl (Moves.step (flushNormal_moves ..) rfl ((recompute_moves _).widen rfl)) :
      Moves [.bw, .ch, .conv, .enrol, .ev, .free, .gov, .img, .loop, .mbx, .port, .rul] (settleMode c) s1).same
  have h2 : SameOutside [.bw, .ch, .conv, .enrol, .ev, .free, .gov, .img, .loop, .mbx, .port, .rul] s1 s2 :=
    SameOutside.step (cycleDemands_moves ..).same rfl (SameOutside.step (mapPending_moves ..).same rfl
      ((SameOutside.set_rul s1 _).widen rfl))
  have h3 : SameOutside [.bw, .ch, .conv, .enrol, .ev, .free, .gov, .img, .loop, .mbx, .port, .rul] s2 s3 :=
    (Moves.step (raiseEmits_moves ..) rfl (Moves.step (placeFences_moves ..) rfl (Moves.step (placeDeferred_moves ..) rfl
      (Moves.step (originWrites_moves ..) rfl ((writeOutputs_moves ..).widen rfl)))) :
      Moves [.bw, .ch, .conv, .enrol, .ev, .free, .gov, .img, .loop, .mbx, .port, .rul] s2 s3).same
  have hm : s3.m = (settleMode c).m := ((h3.m rfl).trans (h2.m rfl)).trans (h1.m rfl)
  rw [settleMode_m] at hm
  exact ⟨s4, stepFour, target, hm, rfl⟩

/-- The mode that a LEAVE's cycle gives, and the LEAVE's end, before its commands (03 R72, R77). -/
def leaveEnded (s : State) : State :=
  let cause : Byte := if s.m.mode = .trim then 0x04 else 0x06
  let a := endLeaving s
  let b := markSafe { a with m := { a.m with afresh := false, causes := [] } } false
  setMode b (runMode b) cause

theorem afterCycle_leaving {s : State} {j : SlotIx} (h : s.m.leaving = some j) :
    afterCycle s = commandAll (takeCommands (leaveEnded s)) := by
  unfold afterCycle leaveEnded
  rw [if_pos (by rw [h]; rfl)]

theorem endLeaving_some {s : State} {j : SlotIx} (h : s.m.leaving = some j) :
    endLeaving s = mbxEnd { s with m := { s.m with leaving := none } } j rcOk 0 := by
  unfold endLeaving
  rw [h]

theorem leaveEnded_parts {s : State} {j : SlotIx} (h : s.m.leaving = some j) :
    MbxEnded (leaveEnded s) j rcOk 0 ∧ (leaveEnded s).m.leaving = none ∧ ((leaveEnded s).m.mode = .run ∨ (leaveEnded s).m.mode = .reduced) ∧
    (leaveEnded s).m.prev = s.m.mode ∧ (leaveEnded s).m.cause = if s.m.mode = .trim then 0x04 else 0x06 := by
  have hend := mbxEnd_ended { s with m := { s.m with leaving := none } } j rcOk 0
  unfold leaveEnded
  rw [endLeaving_some h]
  extract_lets +onlyGivenNames cause m1 a m2 b
  have hx : (setMode b (runMode b) cause).mbx = a.mbx := (setMode_moves ..).same.mbx rfl
  have hm := setMode_m b (runMode b) cause
  have hrun : runMode b = .run ∨ runMode b = .reduced := by
    unfold runMode
    split
    · exact .inr rfl
    · exact .inl rfl
  refine ⟨?_, ?_⟩
  · unfold MbxEnded
    rw [hx]
    exact hend
  · rw [hm]
    exact ⟨rfl, hrun, rfl, rfl⟩

theorem completes_leaveCycle {s : State} {g : Generation} {j : SlotIx} (hg : s.boot.gen = some g) (hdue : cycleDue s g = true)
    (hl : s.m.leaving = some j) :
    Completes .ruleCycle s fun t =>
      MbxEnded t j rcOk 0 ∧ t.m.leaving = none ∧ (t.m.mode = .run ∨ t.m.mode = .reduced) ∧ t.m.prev = s.m.mode ∧
      t.m.cause = (if s.m.mode = .trim then 0x04 else 0x06) := by
  obtain ⟨x, e, u, hx, hc⟩ := cycle_leaving (s := s) g
  have hxl : (writeCheckpoint x g).m.leaving = some j := by
    show x.m.leaving = _
    rw [hx, hl]
  have hxm : (writeCheckpoint x g).m.mode = s.m.mode := by
    show x.m.mode = _
    rw [hx]
  rw [afterCycle_leaving hxl] at hc
  obtain ⟨h1, h2⟩ := leaveEnded_parts hxl
  have hsame : SameOutside [.bw, .free, .ch, .ev, .img, .port, .conv, .loop, .gov] (leaveEnded (writeCheckpoint x g))
      (retarget (commandAll (takeCommands (leaveEnded (writeCheckpoint x g)))) e u) :=
    (retarget_moves ..).same.step rfl ((commandAll_moves _).same.step rfl ((takeCommands_moves _).same.widen rfl))
  refine ⟨retarget (commandAll (takeCommands (leaveEnded (writeCheckpoint x g)))) e u, ?_, ?_, ?_⟩
  · have hd : execRuleCycle s = .next (cycle s g) := by
      unfold execRuleCycle
      rw [hg]
      exact congrArg Host.Outcome.next (if_pos hdue)
    exact hd.trans (congrArg Host.Outcome.next hc)
  · unfold MbxEnded at h1 ⊢
    rw [hsame.mbx rfl]
    exact h1
  · rw [hsame.m rfl, ← hxm]
    exact h2

/-- Settles O49: each mode command by the mode and the causes that stand. -/
theorem modeCommands : Obligations.ModeCommands := fun _ _ tag ht =>
  ⟨fun hm => completes_forceSafe ht hm tag,
   fun hm => ⟨fun _ hc => completes_leaveSafeCause ht hm hc tag, fun hc hl => completes_leaveSafe ht hm hc hl tag,
    fun _ hc hl => completes_leaveSafeBusy ht hm hc hl tag⟩,
   fun hm ha => completes_enterTrim ht hm ha tag, fun hm hl => completes_leaveTrim ht hm hl tag,
   fun _ _ hg hdue hl => completes_leaveCycle hg hdue hl⟩

end Sys2Proof.Machine
end

section
/-!
HART pass-through, CHECK and the check-value unit (07 R203, 17 R472–R476).
-/
namespace Sys2Proof.Machine

/-! ## HART pass-through -/

/-- The argument of a pass-through of command 1 without data to poll address 1 at channel `n` (Table 18-6). -/
theorem passArg {n : Chan} {w : W32} (h : w = 0x00010100 ||| BitVec.ofNat 32 n.val) :
    w &&& ~~~0xFFFF0F0F#32 = 0 ∧ (field w 0 4 : BitVec 4).toFin = n ∧ (field w 8 4 : BitVec 4) = 1 ∧ (field w 16 8 : Byte) = 1 ∧
    (field w 24 8 : Byte) = 0 := by
  subst h
  revert n
  decide

section Pass

variable {s : State} {i : SlotIx} {n : Chan} (ht : MbxTaken s i) (hm : served s.m.mode = true)
  (ha : s.mbx.slot[i].arg[0] = 0x00010100 ||| BitVec.ofNat 32 n.val) (hk : s.ch[n].kind = kindAII) (he : hartEn (s.crec n) = true)
  (hr : s.ch[n].retired = false) (hl : s.ch[n].life ≠ .isolated)

include ht hm ha hk he hr hl

theorem exec_hartPass (tag : W16) : exec (.hartPass i tag) s = .next (
    let a := mbxStart s i 0xA0 tag
    if passOutstanding s n then mbxEnd a i rcBusy 0
    else if !((List.finRange 4).any fun m => s.hart.modem[m].ok) then mbxEnd a i rcTimeout 0
    else { a with hart := { s.hart with passes := s.hart.passes ++ [.pass n 1 1 [] i] } }) := by
  have ha0 : s.mbx.slot[i].arg[(0 : Fin 32)] = 0x00010100 ||| BitVec.ofNat 32 n.val := ha
  obtain ⟨h1, h2, h3, h4, h5⟩ := passArg ha0
  have e := (mbxServed_running ht.1 i 0xA0 tag runHartPass).trans (mbxRun_masked ht.2 hm h1 0xA0 tag _)
  have hc : argChan (mbxStart s i 0xA0 tag) i = n := by
    unfold argChan
    rw [mbxStart_arg]
    exact h2
  simp only [hc, mbxStart_arg, h3, h4, h5] at e
  have hbad : (decide (s.ch[n].kind ≠ kindAII) || !hartEn (s.crec n) || s.ch[n].retired || decide (s.ch[n].life = .isolated) ||
      decide ((1 : BitVec 4) = 0) || decide (64 < (0 : Byte).toNat) || (decide ((1 : Byte) = 6) && decide (s.m.mode ≠ .trim))) = false := by
    rw [hk, he, hr, decide_eq_false hl]
    rfl
  have hb : ¬((decide ((mbxStart s i 0xA0 tag).ch[n].kind ≠ kindAII) || !hartEn ((mbxStart s i 0xA0 tag).crec n) ||
      (mbxStart s i 0xA0 tag).ch[n].retired || decide ((mbxStart s i 0xA0 tag).ch[n].life = .isolated) ||
      decide ((1 : BitVec 4) = 0) || decide (64 < (0 : Byte).toNat) ||
      (decide ((1 : Byte) = 6) && decide ((mbxStart s i 0xA0 tag).m.mode ≠ .trim))) = true) := fun h => absurd (hbad.symm.trans h) (by decide)
  rw [if_neg hb] at e
  exact congrArg Host.Outcome.next e

theorem completes_passBusy (hp : passOutstanding s n = true) (tag : W16) :
    Completes (.hartPass i tag) s fun t => MbxEnded t i rcBusy 0 ∧ SameOutside [.mbx] s t := by
  have e := exec_hartPass ht hm ha hk he hr hl tag
  dsimp only at e
  rw [if_pos hp] at e
  exact ⟨_, e, mbxEnd_ended .., mbxEnd_start_same ..⟩

theorem completes_passTimeout (hp : passOutstanding s n = false) (ho : ∀ m : Fin 4, s.hart.modem[m].ok = false) (tag : W16) :
    Completes (.hartPass i tag) s fun t => MbxEnded t i rcTimeout 0 ∧ SameOutside [.mbx] s t := by
  have e := exec_hartPass ht hm ha hk he hr hl tag
  have hn : ((List.finRange 4).any fun m => s.hart.modem[m].ok) = false := List.any_eq_false.mpr fun m _ => by
    rw [ho m]
    exact Bool.false_ne_true
  dsimp only at e
  rw [hp, if_neg Bool.false_ne_true, hn] at e
  exact ⟨_, e, mbxEnd_ended .., mbxEnd_start_same ..⟩

theorem completes_passWaits {m : Fin 4} (hp : passOutstanding s n = false) (ho : s.hart.modem[m].ok = true) (tag : W16) :
    Completes (.hartPass i tag) s fun t =>
      t.hart.passes = s.hart.passes ++ [.pass n 1 1 [] i] ∧ t.hart.polls = s.hart.polls ∧ t.mbx.slot[i].state = .running ∧
      SameOutside [.mbx, .hart] s t := by
  have e := exec_hartPass ht hm ha hk he hr hl tag
  have hn : ((List.finRange 4).any fun m => s.hart.modem[m].ok) = true := List.any_eq_true.mpr ⟨m, List.mem_finRange m, ho⟩
  dsimp only at e
  rw [hp, if_neg Bool.false_ne_true, hn, if_neg (by decide)] at e
  exact ⟨_, e, rfl, rfl, congrArg (·.state) (mbxStart_slot s i 0xA0 tag),
    (SameOutside.set_hart (mbxStart s i 0xA0 tag) _).step rfl ((mbxStart_same s i 0xA0 tag).widen rfl)⟩

end Pass

/-! ## CHECK -/

theorem and_not_mask {k : Nat} {w : W32} (h : w.toNat < 2 ^ k) : w &&& ~~~(BitVec.ofNat 32 (2 ^ k - 1)) = 0 := by
  refine BitVec.eq_of_getLsbD_eq fun j hj => ?_
  rw [BitVec.getLsbD_and, BitVec.getLsbD_not, BitVec.getLsbD_ofNat, Nat.testBit_two_pow_sub_one,
    show (0 : W32).getLsbD j = false from BitVec.getLsbD_zero]
  by_cases hk : j < k
  · simp [hk, hj]
  · have hw : w.getLsbD j = false := Nat.testBit_lt_two_pow (h.trans_le (Nat.pow_le_pow_right (by decide) (Nat.not_lt.mp hk)))
    rw [hw, Bool.false_and]

theorem checkSpan_ok {start len : Nat} (h2 : 0 < len) (h3 : start + len ≤ 0x1000000) :
    ¬(decide (len = 0) || decide (0x1000000 < start + len)) = true := by
  rw [decide_eq_false (Nat.pos_iff_ne_zero.mp h2), decide_eq_false (Nat.not_lt.mpr h3)]
  decide

/-- A CHECK of a preset over a range within the flash address names no reserved bit (Table 18-6). -/
theorem checkMasks_ok {v : Vector W32 32} (h0 : v[(0 : Fin 32)] = 8) (h1 : v[(1 : Fin 32)].toNat < 2 ^ 24)
    (h2 : v[(2 : Fin 32)].toNat < 2 ^ 25) :
    ∀ m ∈ ([(0, 0xF), (1, 0xFFFFFF), (2, 0x1FFFFFF)] ++ if bitAt (8 : W32) 0 then [(5, 0x37F)] else [] : List (Fin 32 × W32)),
      v[m.1] &&& ~~~m.2 = 0 := by
  intro m hm
  have hl : m ∈ ([(0, 0xF), (1, 0xFFFFFF), (2, 0x1FFFFFF)] : List (Fin 32 × W32)) := hm
  simp only [List.mem_cons, List.not_mem_nil, or_false] at hl
  rcases hl with rfl | rfl | rfl
  · rw [h0]
    decide
  · exact and_not_mask h1
  · exact and_not_mask h2

theorem completes_check {s : State} {i : SlotIx} (ht : MbxTaken s i) (hm : s.m.mode ≠ .stop) (h0 : s.mbx.slot[i].arg[0] = 8)
    (h1 : s.mbx.slot[i].arg[1].toNat < 0x1000000) (h2 : 0 < s.mbx.slot[i].arg[2].toNat)
    (h3 : s.mbx.slot[i].arg[1].toNat + s.mbx.slot[i].arg[2].toNat ≤ 0x1000000) (hj : s.chk.job = none) (tag : W16) :
    Completes (.check i tag) s fun t =>
      t.chk.job = some (i, true, s.mbx.slot[i].arg[1].toNat, s.mbx.slot[i].arg[2].toNat) ∧ t.mbx.slot[i].state = .running ∧
      SameOutside [.mbx, .chk] s t := by
  have a0 : s.mbx.slot[i].arg[(0 : Fin 32)] = 8 := h0
  have hspan := checkSpan_ok (start := s.mbx.slot[i].arg[(1 : Fin 32)].toNat) (len := s.mbx.slot[i].arg[(2 : Fin 32)].toNat) h2 h3
  have e := (mbxServed_running ht.1 i 0x60 tag runCheck).trans (mbxRun_accepted ht.2 (decide_eq_true hm) ?_ _)
  · dsimp only at e
    rw [mbxStart_arg, mbxStart_arg, mbxStart_arg, a0, show (mbxStart s i 0x60 tag).chk.job = none from hj, if_neg (by decide), if_neg (by decide),
      if_neg hspan, show bitAt (8 : W32) 0 = false by decide, Bool.false_and, if_neg Bool.false_ne_true] at e
    exact ⟨_, congrArg Host.Outcome.next e, rfl, congrArg (·.state) (mbxStart_slot s i 0x60 tag),
      (SameOutside.set_chk (mbxStart s i 0x60 tag) _).step rfl ((mbxStart_same s i 0x60 tag).widen rfl)⟩
  · unfold checkMasks
    rw [a0]
    exact checkMasks_ok a0 (Nat.lt_of_lt_of_le h1 (by decide)) (Nat.lt_of_le_of_lt (Nat.le_of_add_left_le h3) (by decide))

/-- What a CHECK of flash leaves once its range has been read (17 R476). -/
def checkReturned (s : State) (i : SlotIx) (start len : Nat) : State :=
  let r := checkOver (checkParams s i) (rdBytes s.flashAt start len)
  let s1 := { s with chk := { s.chk with job := none }, free := s.free }
  mbxEnd (mbxReturn (mbxReturn s1 i 0 (field r 0 32)) i 1 (field r 32 32)) i rcOk 0

theorem exec_checkComplete {s : State} {i : SlotIx} {start len : Nat} (hr : s.execRuns = true) (hj : s.chk.job = some (i, true, start, len)) :
    exec .checkComplete s = .next (checkReturned s i start len) := by
  show execCheckComplete s = _
  unfold execCheckComplete
  rw [hj]
  refine congrArg Host.Outcome.next ?_
  dsimp only
  rw [hr]
  rfl

theorem mbxReturn_ret (s : State) (i : SlotIx) (j k : Fin 28) (v : W32) :
    (mbxReturn s i j v).mbx.slot[i].ret[k] = if k = j then v else s.mbx.slot[i].ret[k] := by
  have h : (mbxReturn s i j v).mbx.slot[i] = { s.mbx.slot[i] with ret := setAt s.mbx.slot[i].ret j v } := modAt_self ..
  rw [h, setAt_get]

theorem mbxEnd_ret (s : State) (i : SlotIx) (result : Byte) (detail : W32) : (mbxEnd s i result detail).mbx.slot[i].ret = s.mbx.slot[i].ret := by
  rw [mbxEnd_slot]

theorem halves_append {a b : W32} {r : W64} (ha : a = field r 32 32) (hb : b = field r 0 32) : a ++ b = r := by
  subst ha hb
  refine BitVec.eq_of_getLsbD_eq fun j hj => ?_
  simp only [field, BitVec.getLsbD_append, BitVec.getLsbD_extractLsb']
  by_cases h : j < 32
  · simp [h]
  · have h1 : j - 32 < 32 := by omega
    have h2 : 32 + (j - 32) = j := by omega
    simp [h, h1, h2]

theorem completes_checkComplete {s : State} {i : SlotIx} {start len : Nat} (hr : s.execRuns = true)
    (hj : s.chk.job = some (i, true, start, len)) :
    Completes .checkComplete s fun t =>
      t.chk.job = none ∧ MbxEnded t i rcOk 0 ∧
      t.mbx.slot[i].ret[1] ++ t.mbx.slot[i].ret[0] = checkOver (checkParams s i) (rdBytes s.flashAt start len) ∧
      SameOutside [.mbx, .chk] s t := by
  refine ⟨_, exec_checkComplete hr hj, rfl, mbxEnd_ended .., ?_, ?_⟩
  · have h : ∀ k : Fin 28, (checkReturned s i start len).mbx.slot[i].ret[k] = _ := fun k => by
      unfold checkReturned
      rw [mbxEnd_ret, mbxReturn_ret, mbxReturn_ret]
    exact halves_append (h 1) (h 0)
  · exact (mbxEnd_same ..).step rfl ((mbxReturn_moves ..).same.step rfl ((mbxReturn_moves ..).same.step rfl ((SameOutside.set_chk s _).widen rfl)))

/-! ## The check-value unit -/

theorem checkMask_and (w : BitVec 7) (a b : W64) : checkMask w (checkMask w a ^^^ checkMask w b) = checkMask w (a ^^^ b) := by
  unfold checkMask
  refine BitVec.eq_of_getLsbD_eq fun j _ => ?_
  simp only [BitVec.getLsbD_and, BitVec.getLsbD_xor]
  cases (BitVec.setWidth 64 (1#65 <<< w.toNat - 1)).getLsbD j <;> simp

theorem completes_checkUnitStart {s : State} (hr : s.execRuns = true) {ctrl : W32} (poly init xorout fold : W64) (hc : bitAt ctrl 16 = true)
    (hw : widthOk (field ctrl 0 7) = true) :
    Completes (.checkUnitStart ctrl poly init xorout fold) s fun t =>
      t.chk.reg = checkMask (field ctrl 0 7) (init ^^^ fold) ∧ t.chk.width = field ctrl 0 7 ∧ t.chk.job = s.chk.job ∧
      SameOutside [.chk] s t := by
  refine ⟨_, congrArg Host.Outcome.next ((if_neg (by rw [hr]; decide)).trans (if_pos (by rw [hc, hw]; rfl))), ?_, rfl, rfl,
      SameOutside.set_chk s _⟩
  exact checkMask_and ..

/-- A write of DATA feeds its bytes in ascending order (17 R474). -/
theorem checkData_fed (s : State) (bs : List Byte) :
    (checkData s bs).chk.reg = bs.foldl (checkFeed s.chk) s.chk.reg ∧ SameOutside [.chk] s (checkData s bs) := ⟨rfl, SameOutside.set_chk s _⟩

/-- Settles O50: the pass-through list, CHECK's job and the unit's register, each by its own lemma. -/
theorem passThroughAndCheck : Obligations.PassThroughAndCheck :=
  ⟨fun _ _ tag _ ht hm ha hk he hr hl => ⟨fun hp ho => completes_passTimeout ht hm ha hk he hr hl hp ho tag,
    fun _ hp ho => completes_passWaits ht hm ha hk he hr hl hp ho tag, fun hp => completes_passBusy ht hm ha hk he hr hl hp tag⟩,
   fun _ _ tag ht hm h0 h1 h2 h3 hj => completes_check ht hm h0 h1 h2 h3 hj tag,
   fun _ _ _ _ hr hj => completes_checkComplete hr hj,
   fun s hr => ⟨fun _ poly init xorout fold hc hw => completes_checkUnitStart hr poly init xorout fold hc hw,
    fun v => ⟨⟨_, congrArg Host.Outcome.next (if_pos hr), checkData_fed s [field v 0 8]⟩,
      ⟨_, congrArg Host.Outcome.next (if_pos hr), checkData_fed s [field v 0 8, field v 8 8]⟩,
      ⟨_, congrArg Host.Outcome.next (if_pos hr), checkData_fed s (bytesLE v)⟩⟩⟩⟩

end Sys2Proof.Machine
end

section
/-!
Staging opened, filled, committed and aborted (15 R418–R421, 02 R49, Table 15-7).
-/
namespace Sys2Proof.Machine

/-! ## Memories with a range cleared -/

/-- A cleared range reads as erased, and nothing else changes. -/
theorem sread_sclear {α : Type} (d : α) (m : List (Nat × α)) (lo hi a : Nat) :
    sread d (sclear m lo hi) a = if lo ≤ a ∧ a < hi then d else sread d m a := by
  split
  next h =>
    refine sread_absent fun c hc hca => ?_
    have hk := (List.mem_filter.mp hc).2
    simp only [Bool.or_eq_true, decide_eq_true_eq] at hk
    omega
  next h =>
    induction m with
    | nil => rfl
    | cons c m ih =>
      obtain ⟨k, v⟩ := c
      unfold sclear at ih ⊢
      rw [List.filter_cons]
      by_cases hk : a = k
      · have hp : (decide (k < lo) || decide (hi ≤ k)) = true := by
          simp only [Bool.or_eq_true, decide_eq_true_eq]
          omega
        rw [if_pos hp, sread, sread, if_pos hk, if_pos hk]
      · rw [sread, if_neg hk]
        split
        · rw [sread, if_neg hk, ih]
        · exact ih

/-- An erase of whole sectors reads as erased flash over their range (17 R466). -/
theorem sread_eraseRange (fl : List Host.Cell) (b len a : Nat) : sread flashErased (eraseRange fl b len) a =
    if b ≤ a ∧ a < b + (len + 0xFFF) / 0x1000 * 0x1000 then flashErased else sread flashErased fl a := by
  unfold eraseRange
  exact sread_sclear ..

theorem sread_eraseSector (fl : List Host.Cell) (b a : Nat) : sread flashErased (eraseRange fl b 0x1000) a =
    if b ≤ a ∧ a < b + 0x1000 then flashErased else sread flashErased fl a := sread_eraseRange fl b 0x1000 a

/-! ## The stage -/

theorem setStage_recov (s : State) (st : StageState) : (setStage s st).recov = { s.recov with stage := st } := by
  unfold setStage
  dsimp only
  split
  · rfl
  · exact (raise_moves ..).same.recov rfl

theorem field_low2 (w : W32) : field w 0 2 = w.setWidth 2 := by
  unfold field
  rw [BitVec.setWidth_eq_extractLsb' (by decide)]

theorem kind_masked {w : W32} (h : w.toNat < 3) : w &&& ~~~3#32 = 0 ∧ (w.setWidth 2 : BitVec 2) ≠ 3 := by
  have hw : w = 0 ∨ w = 1 ∨ w = 2 := by
    have h3 : w.toNat = 0 ∨ w.toNat = 1 ∨ w.toNat = 2 := by omega
    rcases h3 with h | h | h
    · exact .inl (BitVec.eq_of_toNat_eq h)
    · exact .inr (.inl (BitVec.eq_of_toNat_eq h))
    · exact .inr (.inr (BitVec.eq_of_toNat_eq h))
  rcases hw with rfl | rfl | rfl <;> decide

section Open

variable {s : State} {i : SlotIx} (ht : MbxTaken s i) (hm : s.m.mode ≠ .stop)

include ht hm

/-- What runs of a STAGE_OPEN whose kind is named in two bits (Table 15-7). -/
theorem exec_stageOpen (ha : s.mbx.slot[i].arg[(0 : Fin 32)] &&& ~~~3#32 = 0) (tag : W16) : exec (.stageOpen i tag) s = .next (
    let a := mbxStart s i 0x50 tag
    let k : BitVec 2 := s.mbx.slot[i].arg[(0 : Fin 32)].setWidth 2
    if stageInUse s.recov || s.recov.filling.isSome then mbxEnd a i rcBusy 0
    else if k = 3 then mbxEnd a i rcInvalid 0
    else if !stageLenOk k s.mbx.slot[i].arg[(1 : Fin 32)].toNat then mbxEnd a i rcInvalid 1
    else { a with recov := { s.recov with filling := some i } }) := by
  have e := (mbxServed_running ht.1 i 0x50 tag runStageOpen).trans (mbxRun_masked ht.2 (decide_eq_true hm) ha 0x50 tag _)
  dsimp only at e
  rw [mbxStart_arg, mbxStart_arg, field_low2] at e
  exact congrArg Host.Outcome.next e

theorem completes_stageOpenBusy (hu : stageInUse s.recov = true) (h0 : s.mbx.slot[i].arg[0] = 0) (tag : W16) :
    Completes (.stageOpen i tag) s fun t => MbxEnded t i rcBusy 0 ∧ SameOutside [.mbx] s t := by
  have a0 : s.mbx.slot[i].arg[(0 : Fin 32)] = 0 := h0
  have e := exec_stageOpen ht hm (by rw [a0]; decide) tag
  dsimp only at e
  rw [hu, Bool.true_or, if_pos rfl] at e
  exact ⟨_, e, mbxEnd_ended .., mbxEnd_start_same ..⟩

theorem completes_stageOpen (hu : stageInUse s.recov = false) (hf : s.recov.filling = none) (h0 : s.mbx.slot[i].arg[0].toNat < 3) (tag : W16) :
    (stageLenOk (s.mbx.slot[i].arg[0].setWidth 2) s.mbx.slot[i].arg[1].toNat = true →
      Completes (.stageOpen i tag) s fun t =>
        t.recov.filling = some i ∧ t.recov.stage = s.recov.stage ∧ t.mbx.slot[i].state = .running ∧
        t.mbx.slot[i].taken = s.mbx.slot[i].arg ∧ SameOutside [.mbx, .recov] s t) ∧
    (stageLenOk (s.mbx.slot[i].arg[0].setWidth 2) s.mbx.slot[i].arg[1].toNat = false →
      Completes (.stageOpen i tag) s fun t => MbxEnded t i rcInvalid 1 ∧ SameOutside [.mbx] s t) := by
  obtain ⟨hmask, hk⟩ := kind_masked (w := s.mbx.slot[i].arg[(0 : Fin 32)]) h0
  have e := exec_stageOpen ht hm hmask tag
  dsimp only at e
  rw [hu, hf, if_neg (by decide), if_neg hk] at e
  refine ⟨fun hl => ?_, fun hl => ?_⟩
  · have hl' : stageLenOk (s.mbx.slot[i].arg[(0 : Fin 32)].setWidth 2) s.mbx.slot[i].arg[(1 : Fin 32)].toNat = true := hl
    rw [hl', if_neg (by decide)] at e
    exact ⟨_, e, rfl, rfl, congrArg (·.state) (mbxStart_slot s i 0x50 tag), congrArg (·.taken) (mbxStart_slot s i 0x50 tag),
      (SameOutside.set_recov (mbxStart s i 0x50 tag) _).step rfl ((mbxStart_same s i 0x50 tag).widen rfl)⟩
  · have hl' : stageLenOk (s.mbx.slot[i].arg[(0 : Fin 32)].setWidth 2) s.mbx.slot[i].arg[(1 : Fin 32)].toNat = false := hl
    rw [hl', if_pos (show (!false) = true from rfl)] at e
    exact ⟨_, e, mbxEnd_ended .., mbxEnd_start_same ..⟩

end Open

/-! ## The zero fill ends -/

/-- The record of staging once its fill has ended, before its stage is OPEN. -/
def filledRecord (s : State) (i : SlotIx) : State :=
  { s with recov := { s.recov with
      filling := none, stageKind := field (s.arg i 0) 0 2, stageLen := BitVec.ofNat 21 (s.arg i 1).toNat, stageEcc := false
      staging := sclear s.recov.staging 0 (s.arg i 1).toNat } }

theorem exec_stagingFilled {s : State} {i : SlotIx} (hr : s.execRuns = true) (hf : s.recov.filling = some i) :
    exec .stagingFilled s = .next (mbxEnd (setStage (filledRecord s i) .opened) i rcOk 0) := by
  show execStagingFilled s = _
  unfold execStagingFilled
  rw [hf]
  refine congrArg Host.Outcome.next ?_
  dsimp only
  rw [hr]
  rfl

theorem completes_stagingFilled {s : State} {i : SlotIx} (hr : s.execRuns = true) (hf : s.recov.filling = some i) :
    Completes .stagingFilled s fun t =>
      t.recov.filling = none ∧ t.recov.stage = .opened ∧ t.recov.stageKind = s.mbx.slot[i].taken[0].setWidth 2 ∧
      t.recov.stageLen = s.mbx.slot[i].taken[1].setWidth 21 ∧ MbxEnded t i rcOk 0 ∧
      (∀ k, k < s.mbx.slot[i].taken[1].toNat → t.stageAt k = 0) ∧
      (∀ k, s.mbx.slot[i].taken[1].toNat ≤ k → t.stageAt k = s.stageAt k) ∧ SameOutside [.ev, .mbx, .port, .recov] s t := by
  have hrec : (mbxEnd (setStage (filledRecord s i) .opened) i rcOk 0).recov = { (filledRecord s i).recov with stage := .opened } :=
    setStage_recov ..
  have hread : ∀ k, (mbxEnd (setStage (filledRecord s i) .opened) i rcOk 0).stageAt k =
      if 0 ≤ k ∧ k < (s.arg i 1).toNat then stagingEmpty else s.stageAt k := fun k => by
    unfold State.stageAt
    rw [hrec]
    exact sread_sclear ..
  refine ⟨_, exec_stagingFilled hr hf, congrArg (·.filling) hrec, congrArg (·.stage) hrec, (congrArg (·.stageKind) hrec).trans (field_low2 _),
    congrArg (·.stageLen) hrec, mbxEnd_ended .., fun k hk => ?_, fun k hk => ?_, ?_⟩
  · exact (hread k).trans (if_pos ⟨Nat.zero_le k, hk⟩)
  · exact (hread k).trans (if_neg fun h => absurd h.2 (Nat.not_lt.mpr hk))
  · exact (mbxEnd_same ..).step rfl ((setStage_moves ..).same.step rfl ((SameOutside.set_recov s _).widen rfl))

/-! ## STAGE_ABORT -/

theorem exec_stageAbort {s : State} {i : SlotIx} (ht : MbxTaken s i) (hm : s.m.mode ≠ .stop) (hs : s.recov.stage = .opened)
    (hf : s.recov.filling = none) (tag : W16) :
    exec (.stageAbort i tag) s = .next (mbxEnd (setStage (mbxStart s i 0x52 tag) .empty) i rcOk 0) := by
  have e := (mbxServed_running ht.1 i 0x52 tag runStageAbort).trans (mbxRun_plain ht.2 (decide_eq_true hm) 0x52 tag _)
  rw [show (mbxStart s i 0x52 tag).recov.stage = .opened from hs, show (mbxStart s i 0x52 tag).recov.filling = none from hf, if_neg (by decide),
    if_neg (by decide)] at e
  exact congrArg Host.Outcome.next e

theorem completes_stageAbort {s : State} {i : SlotIx} (ht : MbxTaken s i) (hm : s.m.mode ≠ .stop) (hs : s.recov.stage = .opened)
    (hf : s.recov.filling = none) (tag : W16) :
    Completes (.stageAbort i tag) s fun t =>
      t.recov.stage = .empty ∧ MbxEnded t i rcOk 0 ∧ t.recov.staging = s.recov.staging ∧ SameOutside [.ev, .mbx, .port, .recov] s t := by
  have hrec := setStage_recov (mbxStart s i 0x52 tag) .empty
  exact ⟨_, exec_stageAbort ht hm hs hf tag, congrArg (·.stage) hrec, mbxEnd_ended .., congrArg (·.staging) hrec,
    (mbxEnd_same ..).step rfl ((setStage_moves ..).same.step rfl ((mbxStart_same s i 0x52 tag).widen rfl))⟩

/-! ## STAGE_COMMIT -/

section Commit

variable {s : State} {i : SlotIx} (ht : MbxTaken s i) (hm : s.m.mode ≠ .stop) (ha : s.mbx.slot[i].arg[0] &&& ~~~0xFFFF#32 = 0)

include ht hm ha

theorem completes_commitInvalid (hs : s.recov.stage ≠ .opened ∨ s.recov.stageKind = 0) (tag : W16) :
    Completes (.stageCommit i tag) s fun t =>
      t.mbx.slot[i].state = .done ∧ t.mbx.slot[i].result = rcInvalid ∧ SameOutside [.mbx, .free] s t := by
  have e := (mbxServed_running ht.1 i 0x51 tag runStageCommit).trans (mbxRun_masked (j := 0) ht.2 (decide_eq_true hm) ha 0x51 tag _)
  have hb : (decide ((mbxStart s i 0x51 tag).recov.stage ≠ .opened) || decide ((mbxStart s i 0x51 tag).recov.stageKind = 0)) = true := by
    rw [Bool.or_eq_true, decide_eq_true_iff, decide_eq_true_iff]
    exact hs
  dsimp only at e
  rw [if_pos hb] at e
  obtain ⟨h1, h2, -⟩ := mbxEnd_ended (mbxStart s i 0x51 tag).draw.2 i rcInvalid (mbxStart s i 0x51 tag).draw.1
  exact ⟨_, congrArg Host.Outcome.next e, h1, h2, (mbxEnd_same ..).step rfl ((State.draw_moves (mbxStart s i 0x51 tag)).same.step rfl
    ((mbxStart_same s i 0x51 tag).widen rfl))⟩

/-- The slot that a commit writes: the other of the descriptor's two (15 R421). -/
def commitTarget (s : State) (d : BootDesc) : Bool := !(if s.recov.stageKind = 2 then d.ucodeSlot else d.execSlot)

/-- What a commit that is accepted leaves: staging COMMITTING, the target's header sector erased, and the job begun (15 R421). -/
def commitBegun (s : State) (i : SlotIx) (tag : W16) (target : Bool) : State :=
  let s1 := setStage (mbxStart s i 0x51 tag) .committing
  { s1 with flash := eraseRange s1.flash (slotBase (s.recov.stageKind = 2) target) 0x1000
            boot := { s1.boot with
              job := some (.image i (s.mbx.slot[i].arg[(0 : Fin 32)].setWidth 16) (s.recov.stageKind = 2) target .rest) } }

theorem exec_commit {d : BootDesc} (hs : s.recov.stage = .opened) (hk : s.recov.stageKind ≠ 0) (hj : s.boot.job = none)
    (hf : s.recov.filling = none) (hr : ∀ j ∈ s.recov.jobs, j.func ≠ 0x1C) (hc : commitCheck s (s.recov.stageKind = 2) = .ok)
    (hd : s.boot.desc = some d) (tag : W16) : exec (.stageCommit i tag) s = .next (commitBegun s i tag (commitTarget s d)) := by
  have e := (mbxServed_running ht.1 i 0x51 tag runStageCommit).trans (mbxRun_masked (j := 0) ht.2 (decide_eq_true hm) ha 0x51 tag _)
  have hu : (decide ((mbxStart s i 0x51 tag).recov.stage ≠ .opened) || decide ((mbxStart s i 0x51 tag).recov.stageKind = 0)) = false := by
    rw [Bool.or_eq_false_iff, decide_eq_false_iff_not, decide_eq_false_iff_not]
    exact ⟨not_not.mpr hs, hk⟩
  have hb : ((mbxStart s i 0x51 tag).boot.job.isSome || (mbxStart s i 0x51 tag).recov.filling.isSome ||
      (mbxStart s i 0x51 tag).recov.jobs.any fun j => decide (j.func = 0x1C)) = false := by
    rw [show (mbxStart s i 0x51 tag).boot.job = none from hj, show (mbxStart s i 0x51 tag).recov.filling = none from hf]
    exact List.any_eq_false.mpr fun j hmem => by simpa using hr j hmem
  have hc' : commitCheck (mbxStart s i 0x51 tag) (decide ((mbxStart s i 0x51 tag).recov.stageKind = 2)) = .ok := hc
  have hd' : (mbxStart s i 0x51 tag).boot.desc = some d := hd
  dsimp only at e
  rw [hu, if_neg Bool.false_ne_true, hb, if_neg Bool.false_ne_true, hc', hd'] at e
  dsimp only at e
  have harg : (setStage (mbxStart s i 0x51 tag) .committing).arg i 0 = s.mbx.slot[i].arg[(0 : Fin 32)] := by
    unfold State.arg
    rw [(setStage_moves ..).same.mbx rfl]
    exact mbxStart_arg s i 0x51 tag 0
  rw [harg, field_low16] at e
  simp only [decide_eq_true_eq] at e
  exact congrArg Host.Outcome.next e

omit ht hm ha in
theorem commitBegun_parts (tag : W16) (target : Bool) :
    let t := commitBegun s i tag target
    t.recov.stage = .committing ∧ t.mbx.slot[i].state = .running ∧
    (∀ a, t.flashAt a = if slotBase (s.recov.stageKind = 2) target ≤ a ∧ a < slotBase (s.recov.stageKind = 2) target + 0x1000 then flashErased
      else s.flashAt a) ∧ SameOutside [.boot, .ev, .flash, .mbx, .port, .recov] s t := by
  have hrec := setStage_recov (mbxStart s i 0x51 tag) .committing
  have hsame := (setStage_moves (mbxStart s i 0x51 tag) .committing).same
  refine ⟨congrArg (·.stage) hrec, ?_, fun a => ?_, ?_⟩
  · show (setStage (mbxStart s i 0x51 tag) .committing).mbx.slot[i].state = .running
    rw [hsame.mbx rfl]
    exact congrArg (·.state) (mbxStart_slot s i 0x51 tag)
  · have h := sread_eraseSector (setStage (mbxStart s i 0x51 tag) .committing).flash (slotBase (s.recov.stageKind = 2) target) a
    rw [hsame.flash rfl] at h
    unfold commitBegun State.flashAt
    dsimp only
    rw [hsame.flash rfl]
    exact h
  · have h (x : List Host.Cell) (b : BootState) (u : State) : SameOutside [.boot, .flash] u { u with flash := x, boot := b } :=
      (SameOutside.set_boot { u with flash := x } b).step rfl ((SameOutside.set_flash u x).widen rfl)
    exact (h _ _ _).step rfl (hsame.step rfl ((mbxStart_same s i 0x51 tag).widen rfl))

theorem completes_commit {d : BootDesc} (hs : s.recov.stage = .opened) (hk : s.recov.stageKind ≠ 0) (hj : s.boot.job = none)
    (hf : s.recov.filling = none) (hr : ∀ j ∈ s.recov.jobs, j.func ≠ 0x1C) (hc : commitCheck s (s.recov.stageKind = 2) = .ok)
    (hd : s.boot.desc = some d) (tag : W16) :
    Completes (.stageCommit i tag) s fun t =>
      t.recov.stage = .committing ∧ t.mbx.slot[i].state = .running ∧
      t.boot.job = some (.image i (s.mbx.slot[i].arg[0].setWidth 16) (s.recov.stageKind = 2)
        (!(if s.recov.stageKind = 2 then d.ucodeSlot else d.execSlot)) .rest) ∧
      (∀ base, base = slotBase (s.recov.stageKind = 2) (!(if s.recov.stageKind = 2 then d.ucodeSlot else d.execSlot)) →
        ∀ a, t.flashAt a = if base ≤ a ∧ a < base + 0x1000 then flashErased else s.flashAt a) ∧
      SameOutside [.boot, .ev, .flash, .mbx, .port, .recov] s t := by
  obtain ⟨h1, h2, h3, h4⟩ := commitBegun_parts (s := s) (i := i) tag (commitTarget s d)
  refine ⟨_, exec_commit ht hm ha hs hk hj hf hr hc hd tag, h1, h2, rfl, fun base hbase a => ?_, h4⟩
  subst hbase
  exact h3 a

end Commit

/-! ## WRITE_CONFIG -/

/-- The number that a committed configuration takes: one more than the greatest, and never 0 (02 R49). -/
def nextSeq (s : State) : W32 := if greatestSeq s + 1 = 0 then 1 else greatestSeq s + 1

theorem nextSeq_ne_zero (s : State) : nextSeq s ≠ 0 := by
  unfold nextSeq
  split
  · decide
  next h => exact h

/-- The job begun, the target copy's header sector erased, before staging is COMMITTING (02 R49). -/
def configJob (s : State) (i : SlotIx) (tag : W16) : State :=
  { mbxStart s i 0x90 tag with
    flash := eraseRange s.flash (copyBase (writeTargetB s)) 0x1000
    boot := { s.boot with
      job := some (.config i (s.mbx.slot[i].arg[(0 : Fin 32)].getLsbD 0) (s.mbx.slot[i].arg[(1 : Fin 32)].setWidth 16) (nextSeq s) (writeTargetB s)
        false .rest)
      unapplied := false } }

theorem configJob_same (s : State) (i : SlotIx) (tag : W16) : SameOutside [.mbx, .flash, .boot] s (configJob s i tag) := by
  have h (x : List Host.Cell) (b : BootState) (u : State) : SameOutside [.boot, .flash] u { u with flash := x, boot := b } :=
    (SameOutside.set_boot { u with flash := x } b).step rfl ((SameOutside.set_flash u x).widen rfl)
  exact (h _ _ _).step rfl ((mbxStart_same s i 0x90 tag).widen rfl)

section Config

variable {s : State} {i : SlotIx} (ht : MbxTaken s i) (hm : s.m.mode ≠ .stop) (h0 : s.mbx.slot[i].arg[0] &&& ~~~1#32 = 0)
  (h1 : s.mbx.slot[i].arg[1] &&& ~~~0xFFFF#32 = 0) (hj : s.boot.job = none) (hp : s.boot.pend = none) (hf : s.recov.filling = none)
  (hs : s.recov.stage = .opened) (hk : s.recov.stageKind = 0)

include ht hm h0 h1 hj hp hf hs hk

/-- What runs of a WRITE_CONFIG once staging holds a configuration that nothing holds up. -/
theorem exec_writeConfig (tag : W16) : exec (.writeConfig i tag) s = .next (
    let a := mbxStart s i 0x90 tag
    if !headerOk s.stageAt 0 then mbxEnd a i rcInvalid 0xFFFF
    else match bodyCheck s.stageAt 0 (measuredMv s 1) (measuredMv s 0) with
      | .badCrc id => mbxEnd a i rcInvalid (putN 0 16 id)
      | .badBody id => mbxEnd a i rcInvalid (putN 0 16 id)
      | .valid =>
        if !(match s.boot.exec with | some h => schemaOk h (copySchema s.stageAt 0) | none => false) then
          mbxEnd (raiseVersion a 3) i rcVersion (put 0 (copySchema s.stageAt 0))
        else setStage (configJob s i tag) .committing) := by
  have hmask : ∀ m ∈ ([(0, 1), (1, 0xFFFF)] : List (Fin 32 × W32)), s.mbx.slot[i].arg[m.1] &&& ~~~m.2 = 0 := by
    intro m hmem
    simp only [List.mem_cons, List.not_mem_nil, or_false] at hmem
    rcases hmem with rfl | rfl
    · exact h0
    · exact h1
  have e := (mbxServed_running ht.1 i 0x90 tag runWriteConfig).trans (mbxRun_accepted ht.2 (decide_eq_true hm) hmask _)
  have hb : ((mbxStart s i 0x90 tag).boot.job.isSome || (mbxStart s i 0x90 tag).boot.pend.isSome ||
      (mbxStart s i 0x90 tag).recov.filling.isSome) = false := by
    rw [show (mbxStart s i 0x90 tag).boot.job = none from hj, show (mbxStart s i 0x90 tag).boot.pend = none from hp,
      show (mbxStart s i 0x90 tag).recov.filling = none from hf]
    rfl
  have hu : (decide ((mbxStart s i 0x90 tag).recov.stage ≠ .opened) || decide ((mbxStart s i 0x90 tag).recov.stageKind ≠ 0)) = false := by
    rw [Bool.or_eq_false_iff, decide_eq_false_iff_not, decide_eq_false_iff_not]
    exact ⟨not_not.mpr hs, not_not.mpr hk⟩
  dsimp only at e
  rw [hb, if_neg Bool.false_ne_true, hu, if_neg Bool.false_ne_true, mbxStart_arg, mbxStart_arg, field_low16] at e
  exact congrArg Host.Outcome.next e

theorem completes_configHeader (hh : headerOk s.stageAt 0 = false) (tag : W16) :
    Completes (.writeConfig i tag) s fun t => MbxEnded t i rcInvalid 0xFFFF ∧ SameOutside [.mbx] s t := by
  have e := exec_writeConfig ht hm h0 h1 hj hp hf hs hk tag
  dsimp only at e
  rw [hh, if_pos (show (!false) = true from rfl)] at e
  exact ⟨_, e, mbxEnd_ended .., mbxEnd_start_same ..⟩

theorem completes_configBegun {h : SlotHeader} (hh : headerOk s.stageAt 0 = true)
    (hb : bodyCheck s.stageAt 0 (measuredMv s 1) (measuredMv s 0) = .valid) (he : s.boot.exec = some h)
    (ho : schemaOk h (copySchema s.stageAt 0) = true) (tag : W16) :
    Completes (.writeConfig i tag) s fun t =>
      t.recov.stage = .committing ∧ t.mbx.slot[i].state = .running ∧
      (∃ seq, seq ≠ 0 ∧ t.boot.job = some (.config i (s.mbx.slot[i].arg[0].getLsbD 0) (s.mbx.slot[i].arg[1].setWidth 16) seq
        (writeTargetB s) false .rest)) ∧
      (∀ a, t.flashAt a = if copyBase (writeTargetB s) ≤ a ∧ a < copyBase (writeTargetB s) + 0x1000 then flashErased else s.flashAt a) ∧
      SameOutside [.boot, .ev, .flash, .mbx, .port, .recov] s t := by
  have e := exec_writeConfig ht hm h0 h1 hj hp hf hs hk tag
  dsimp only at e
  rw [hh, if_neg (by decide), hb, he] at e
  simp only [ho, Bool.not_true, Bool.false_eq_true, if_false] at e
  have hsame := (setStage_moves (configJob s i tag) .committing).same
  refine ⟨_, e, congrArg (·.stage) (setStage_recov ..), ?_, ⟨nextSeq s, nextSeq_ne_zero s, ?_⟩, fun a => ?_,
    hsame.step rfl ((configJob_same s i tag).widen rfl)⟩
  · rw [hsame.mbx rfl]
    exact congrArg (·.state) (mbxStart_slot s i 0x90 tag)
  · rw [hsame.boot rfl]
    rfl
  · unfold State.flashAt
    rw [hsame.flash rfl]
    exact sread_eraseSector ..

end Config

/-- Settles O51: each staging command by the state of staging. -/
theorem stagingOpenedCommittedAborted : Obligations.StagingOpenedCommittedAborted := fun _ _ tag hm =>
  ⟨fun ht hu h0 => completes_stageOpenBusy ht hm hu h0 tag, fun ht hu hf h0 => completes_stageOpen ht hm hu hf h0 tag,
   fun hr hf _ => completes_stagingFilled hr hf, fun ht hs hf => completes_stageAbort ht hm hs hf tag,
   fun ht ha => ⟨fun hs => completes_commitInvalid ht hm ha hs tag,
    fun _ hs hk hj hf hr hc hd => completes_commit ht hm ha hs hk hj hf hr hc hd tag⟩,
   fun ht h0 h1 hj hp hf hs hk => ⟨fun hh => completes_configHeader ht hm h0 h1 hj hp hf hs hk hh tag,
    fun _ hh hb he ho _ => completes_configBegun ht hm h0 h1 hj hp hf hs hk hh hb he ho tag⟩⟩

end Sys2Proof.Machine
end

section
/-!
The flash write of a copy or a slot, step by step, and its end (15 R421, R422, 02 R49–R51).
-/
namespace Sys2Proof.Machine

/-! ## What a step of the write leaves in flash -/

theorem exec_entryComplete {s : State} {j : FlashJob} (hc : s.mem.cur = none) (hr : s.execRuns = true) (hj : s.boot.job = some j) (ok : Bool) :
    exec (.entryComplete ok) s = .next (jobEnd s j ok) := by
  show execEntryComplete ok s = _
  unfold execEntryComplete
  rw [hc, hj]
  exact congrArg Host.Outcome.next (if_pos hr)

/-- A part of a content programmed at its base: its bytes, and no other byte, are written (17 R466). -/
theorem sread_programPart {fl : List Host.Cell} (h : swf flashErased fl = true) (base : Nat) (bs : List Byte) (lo hi a : Nat) :
    sread flashErased (programPart fl base bs lo hi) a =
      if base + lo ≤ a ∧ a < base + min hi bs.length then bs.getD (a - base) 0 else sread flashErased fl a := by
  unfold programPart
  rw [sread_swriteList h, List.length_drop, List.length_take]
  by_cases hin : base + lo ≤ a ∧ a < base + min hi bs.length
  · have hlt : a - base < bs.length := by omega
    have hlo : lo + (a - (base + lo)) = a - base := by omega
    have hhi : a - base < hi := by omega
    rw [if_pos (by omega), if_pos hin, List.getD_eq_getElem?_getD, List.getD_eq_getElem?_getD, List.getElem?_drop, hlo,
      List.getElem?_take_of_lt hhi, List.getElem?_eq_getElem hlt]
    rfl
  · rw [if_neg (by omega), if_neg hin]

theorem stepFlash_rest (fl : List Host.Cell) (base : Nat) (bs : List Byte) (hdr a : Nat) :
    sread flashErased (stepFlash fl base bs hdr .rest) a =
      if base + 0x1000 ≤ a ∧ a < base + 0x1000 + (bs.length - 0x1000 + 0xFFF) / 0x1000 * 0x1000 then flashErased else sread flashErased fl a := by
  unfold stepFlash
  exact sread_eraseRange ..

/-- The steps that program a part of the content, with the bounds of that part. -/
theorem sread_stepFlash {fl : List Host.Cell} (h : swf flashErased fl = true) {p : JobStep} {bs : List Byte} {hdr lo hi : Nat}
    (hp : (p, lo, hi) ∈ [(JobStep.body, hdr, bs.length), (JobStep.headLow, 0, 0x100), (JobStep.headHigh, 0x100, hdr)]) (base a : Nat) :
    sread flashErased (stepFlash fl base bs hdr p) a =
      if base + lo ≤ a ∧ a < base + min hi bs.length then bs.getD (a - base) 0 else sread flashErased fl a := by
  simp only [List.mem_cons, List.not_mem_nil, or_false, Prod.mk.injEq] at hp
  unfold stepFlash
  rcases hp with ⟨rfl, rfl, rfl⟩ | ⟨rfl, rfl, rfl⟩ | ⟨rfl, rfl, rfl⟩ <;> exact sread_programPart h ..

theorem set_flash_boot (s : State) (x : List Host.Cell) (b : BootState) : SameOutside [.boot, .flash] s { s with flash := x, boot := b } :=
  (SameOutside.set_boot { s with flash := x } b).step rfl ((SameOutside.set_flash s x).widen rfl)

theorem set_mirror_boot (s : State) (x : List Host.Cell) (b : BootState) : SameOutside [.boot, .mirror] s { s with mirror := x, boot := b } :=
  (SameOutside.set_boot { s with mirror := x } b).step rfl ((SameOutside.set_mirror s x).widen rfl)

/-! ## The steps of a copy -/

section Job

variable {s : State} (hc : s.mem.cur = none) (hr : s.execRuns = true)

include hc hr

/-- A step of a copy's write on MCS0_N: what it leaves. -/
theorem exec_copyStep {i : SlotIx} {apply b : Bool} {seq : W32} {tag : W16} {p : JobStep}
    (hj : s.boot.job = some (.config i apply tag seq b false p)) (hp : p ≠ .readBack) : exec (.entryComplete true) s = .next
      { s with flash := stepFlash s.flash (copyBase b) (stagedCopy s seq) 0x200 p
               boot := { s.boot with job := some (.config i apply tag seq b false (nextStep false p))
                                     unapplied := s.boot.unapplied || p = .headHigh } } := by
  refine (exec_entryComplete hc hr hj true).trans (congrArg Host.Outcome.next ?_)
  cases p with
  | readBack => exact absurd rfl hp
  | _ => rfl

theorem completes_copyStep {i : SlotIx} {apply b : Bool} {seq : W32} {tag : W16} {p : JobStep} {bs : List Byte}
    (hj : s.boot.job = some (.config i apply tag seq b false p)) (hp : p ≠ .readBack) (hb : bs = stagedCopy s seq) (hs : Sound s) :
    Completes (.entryComplete true) s fun t =>
      t.boot.job = some (.config i apply tag seq b false (nextStep false p)) ∧
      (p = .rest → ∀ a, t.flashAt a = if copyBase b + 0x1000 ≤ a ∧ a < copyBase b + 0x1000 + (bs.length - 0x1000 + 0xFFF) / 0x1000 * 0x1000
        then flashErased else s.flashAt a) ∧
      (∀ lo hi, (p, lo, hi) ∈ [(JobStep.body, 0x200, bs.length), (JobStep.headLow, 0, 0x100), (JobStep.headHigh, 0x100, 0x200)] →
        ∀ a, t.flashAt a = if copyBase b + lo ≤ a ∧ a < copyBase b + min hi bs.length then bs.getD (a - copyBase b) 0 else s.flashAt a) ∧
      SameOutside [.boot, .flash] s t := by
  subst hb
  refine ⟨_, exec_copyStep hc hr hj hp, rfl, fun h a => ?_, fun lo hi h a => sread_stepFlash (hs .flash) h _ a, set_flash_boot ..⟩
  subst h
  exact stepFlash_rest ..

theorem completes_mirrorStep {i : SlotIx} {apply b : Bool} {seq : W32} {tag : W16} {p : JobStep}
    (hj : s.boot.job = some (.config i apply tag seq b true p)) (hp : p ≠ .readBack) :
    Completes (.entryComplete true) s fun t =>
      t.boot.job = some (.config i apply tag seq b true (nextStep false p)) ∧
      t.mirror = stepFlash s.mirror (copyBase b) (stagedCopy s seq) 0x200 p ∧ SameOutside [.boot, .mirror] s t := by
  have e : jobEnd s (.config i apply tag seq b true p) true =
      { s with mirror := stepFlash s.mirror (copyBase b) (stagedCopy s seq) 0x200 p
               boot := { s.boot with job := some (.config i apply tag seq b true (nextStep false p)) } } := by
    cases p with
    | readBack => exact absurd rfl hp
    | _ => rfl
  exact ⟨_, (exec_entryComplete hc hr hj true).trans (congrArg Host.Outcome.next e), rfl, rfl, set_mirror_boot ..⟩

theorem completes_mirrorBegun {i : SlotIx} {apply : Bool} {seq : W32} {tag : W16}
    (hj : s.boot.job = some (.config i apply tag seq true false .readBack)) (hm : s.mirrorB = true) :
    Completes (.entryComplete true) s fun t =>
      t.boot.job = some (.config i apply tag seq true true .rest) ∧ t.mirror = eraseRange s.mirror (copyBase true) 0x1000 ∧
      SameOutside [.boot, .mirror] s t := by
  have e : copyDone s i apply tag seq true = _ := if_pos (by rw [hm]; rfl)
  exact ⟨_, (exec_entryComplete hc hr hj true).trans (congrArg Host.Outcome.next e), rfl, rfl, set_mirror_boot ..⟩

end Job

/-! ## A copy written to its end -/

theorem mbxReturn_slot (s : State) (i : SlotIx) (j : Fin 28) (v : W32) :
    (mbxReturn s i j v).mbx.slot[i] = { s.mbx.slot[i] with ret := setAt s.mbx.slot[i].ret j v } := modAt_self ..

theorem mbxReturn_ended {s : State} {i : SlotIx} {result : Byte} {detail : W32} (h : MbxEnded s i result detail) (j : Fin 28) (v : W32) :
    MbxEnded (mbxReturn s i j v) i result detail := by
  unfold MbxEnded at h ⊢
  rw [mbxReturn_slot]
  exact h

theorem configDone_parts (s : State) (i : SlotIx) (apply : Bool) (tag : W16) (seq : W32) (b : Bool) :
    let t := configDone s i apply tag seq b
    t.boot.job = none ∧ t.boot.lastFail = false ∧ t.recov.stage = .empty ∧ MbxEnded t i rcOk 0 ∧ t.mbx.slot[i].ret[0] = seq ∧
    (apply = true → s.m.mode ≠ .load → t.boot.pend = some ⟨decGeneration s.flashAt (copyBase b), tag, false, b⟩) ∧
    (apply = false ∨ s.m.mode = .load → t.boot.pend = s.boot.pend) ∧ SameOutside [.boot, .ev, .mbx, .port, .recov] s t := by
  have hm : SameOutside [.boot, .ev, .mbx, .port, .recov] s (configDone s i apply tag seq b) := (configDone_moves ..).same.widen rfl
  unfold configDone at hm ⊢
  extract_lets +onlyGivenNames g bt s1 at hm ⊢
  have hrec := setStage_recov s1 .empty
  have hboot : (mbxReturn (mbxEnd (setStage s1 .empty) i rcOk 0) i 0 seq).boot = s1.boot := (setStage_moves s1 .empty).same.boot rfl
  have hret : (mbxReturn (mbxEnd (setStage s1 .empty) i rcOk 0) i 0 seq).mbx.slot[i].ret[(0 : Fin 28)] = seq := by
    rw [mbxReturn_ret, if_pos rfl]
  refine ⟨congrArg (·.job) hboot, congrArg (·.lastFail) hboot, congrArg (·.stage) hrec, mbxReturn_ended (mbxEnd_ended ..) .., hret,
    fun ha hl => ?_, fun h => ?_, hm⟩
  · refine (congrArg (·.pend) hboot).trans (if_pos ?_)
    rw [ha, decide_eq_true hl]
    rfl
  · refine (congrArg (·.pend) hboot).trans (if_neg ?_)
    rcases h with h | h
    · rw [h]
      exact Bool.false_ne_true
    · rw [h, decide_eq_false (not_not.mpr rfl), Bool.and_false]
      exact Bool.false_ne_true

theorem jobEnd_copyDone {s : State} {i : SlotIx} {apply : Bool} {seq : W32} {b m : Bool} {tag : W16}
    (h : m = true ∨ b = false ∨ s.mirrorB = false) :
    jobEnd s (.config i apply tag seq b m .readBack) true = configDone s i apply tag seq b := by
  cases m with
  | true => rfl
  | false =>
    show copyDone s i apply tag seq b = _
    refine if_neg ?_
    rcases h with h | h | h
    · exact absurd h (by decide)
    · rw [h]
      exact Bool.false_ne_true
    · rw [h, Bool.and_false]
      exact Bool.false_ne_true

/-! ## A slot written to its end -/

theorem imageDone_armed {s : State} (h : s.m.mode ≠ .load) (i : SlotIx) (tag : W16) (ucode target : Bool) :
    let t := imageDone s i tag ucode target
    t.boot.job = none ∧ t.recov.stage = .armed ∧ t.recov.stageTag = tag ∧ MbxEnded t i rcOk 0 ∧ SameOutside [.boot, .ev, .mbx, .port,
      .recov] s t := by
  unfold imageDone
  extract_lets +onlyGivenNames b1 s1
  rw [if_neg (show ¬s1.m.mode = .load from h)]
  have hrec := setStage_recov { s1 with recov := { s1.recov with stageTag := tag } } .armed
  have hsame := (setStage_moves { s1 with recov := { s1.recov with stageTag := tag } } .armed).same
  refine ⟨?_, congrArg (·.stage) hrec, congrArg (·.stageTag) hrec, mbxEnd_ended .., ?_⟩
  · exact congrArg (·.job) (hsame.boot rfl)
  · exact (mbxEnd_same ..).step rfl (hsame.step rfl ((SameOutside.set_recov s1 _).step rfl ((SameOutside.set_boot s _).widen rfl)))

/-- The descriptor that names the new slot, in the copy not in use (02 R55). -/
def descNamed (d : BootDesc) (ucode slot : Bool) : BootDesc :=
  { d with copy1 := !d.copy1, seq := d.seq + 1, execSlot := if ucode then d.execSlot else slot, ucodeSlot := if ucode then slot else d.ucodeSlot }

theorem writeDesc_desc {s : State} {d : BootDesc} (h : s.boot.desc = some d) (ucode slot : Bool) :
    (writeDesc s ucode slot).boot = { s.boot with desc := some (descNamed d ucode slot) } := by
  unfold writeDesc
  rw [h]
  rfl

theorem descNamed_slot (d : BootDesc) (ucode slot : Bool) :
    (if ucode then (descNamed d ucode slot).ucodeSlot else (descNamed d ucode slot).execSlot) = slot := by
  cases ucode <;> rfl

theorem imageDone_load {s : State} {d : BootDesc} (h : s.m.mode = .load) (hd : s.boot.desc = some d) (i : SlotIx) (tag : W16)
    (ucode target : Bool) :
    let t := imageDone s i tag ucode target
    t.boot.job = none ∧ t.recov.stage = .empty ∧ MbxEnded t i rcOk 0 ∧ t.boot.desc = some (descNamed d ucode target) ∧
    SameOutside [.boot, .ev, .flash, .mbx, .port, .recov] s t := by
  unfold imageDone
  extract_lets +onlyGivenNames b1 s1
  rw [if_pos (show s1.m.mode = .load from h)]
  have hrec := setStage_recov (writeDesc s1 ucode target) .empty
  have hsame := (setStage_moves (writeDesc s1 ucode target) .empty).same
  have hboot : (setStage (writeDesc s1 ucode target) .empty).boot = _ := (hsame.boot rfl).trans (writeDesc_desc (s := s1) hd ucode target)
  exact ⟨congrArg (·.job) hboot, congrArg (·.stage) hrec, mbxEnd_ended .., congrArg (·.desc) hboot, (mbxEnd_same ..).step rfl
    (hsame.step rfl ((writeDesc_moves ..).same.step rfl ((SameOutside.set_boot s _).widen rfl)))⟩

section Image

variable {s : State} (hc : s.mem.cur = none) (hr : s.execRuns = true) {i : SlotIx} {tag : W16} {ucode target : Bool} {p : JobStep}
  (hj : s.boot.job = some (.image i tag ucode target p))

include hc hr hj

theorem exec_imageStep (hp : p ≠ .readBack) : exec (.entryComplete true) s = .next
      { s with flash := stepFlash s.flash (slotBase ucode target) (sreadList stagingEmpty s.recov.staging 0 s.recov.stageLen.toNat) 0x100 p
               boot := { s.boot with job := some (.image i tag ucode target (nextStep true p)) } } := by
  refine (exec_entryComplete hc hr hj true).trans (congrArg Host.Outcome.next ?_)
  cases p with
  | readBack => exact absurd rfl hp
  | _ => rfl

theorem completes_imageStep {bs : List Byte} (hp : p ≠ .readBack) (hb : bs = sreadList stagingEmpty s.recov.staging 0 s.recov.stageLen.toNat)
    (hs : Sound s) :
    Completes (.entryComplete true) s fun t =>
      t.boot.job = some (.image i tag ucode target (nextStep true p)) ∧
      (∀ lo hi, (p, lo, hi) ∈ [(JobStep.body, 0x100, bs.length), (JobStep.headLow, 0, 0x100)] →
        ∀ a, t.flashAt a = if slotBase ucode target + lo ≤ a ∧ a < slotBase ucode target + min hi bs.length
          then bs.getD (a - slotBase ucode target) 0 else s.flashAt a) ∧ SameOutside [.boot, .flash] s t := by
  subst hb
  refine ⟨_, exec_imageStep hc hr hj hp, rfl, fun lo hi h a => ?_, set_flash_boot ..⟩
  exact sread_stepFlash (hs .flash) (List.mem_append_left [(JobStep.headHigh, 0x100, 0x100)] h) _ a

theorem completes_imageArmed (hp : p = .readBack) (hm : s.m.mode ≠ .load) :
    Completes (.entryComplete true) s fun t =>
      t.boot.job = none ∧ t.recov.stage = .armed ∧ t.recov.stageTag = tag ∧ MbxEnded t i rcOk 0 ∧
      SameOutside [.boot, .ev, .mbx, .port, .recov] s t := by
  subst hp
  exact ⟨_, exec_entryComplete hc hr hj true, imageDone_armed hm i tag ucode target⟩

theorem completes_imageLoad {d : BootDesc} (hp : p = .readBack) (hm : s.m.mode = .load) (hd : s.boot.desc = some d) :
    Completes (.entryComplete true) s fun t =>
      t.boot.job = none ∧ t.recov.stage = .empty ∧ MbxEnded t i rcOk 0 ∧
      (∃ e, t.boot.desc = some e ∧ e.copy1 = !d.copy1 ∧ e.seq = d.seq + 1 ∧ (if ucode then e.ucodeSlot else e.execSlot) = target) ∧
      SameOutside [.boot, .ev, .flash, .mbx, .port, .recov] s t := by
  subst hp
  obtain ⟨h1, h2, h3, h4, h5⟩ := imageDone_load hm hd i tag ucode target
  exact ⟨_, exec_entryComplete hc hr hj true, h1, h2, h3, ⟨_, h4, rfl, rfl, descNamed_slot ..⟩, h5⟩

end Image

/-! ## A write that fails -/

/-- A write that fails, told before its slot ends: staging OPEN again, on the state `a` whose target's header is erased (Tables 2-11, 15-8). -/
def failureTold (a : State) : State := raise (setStage a .opened) srcMemErr (memstatWord (setStage a .opened).mem)

theorem failureTold_same (a : State) : SameOutside [.ev, .port, .recov] a (failureTold a) :=
  (raise_moves ..).same.step rfl ((setStage_moves a .opened).same.widen rfl)

theorem failureTold_stage (a : State) : (failureTold a).recov.stage = .opened := by
  unfold failureTold
  rw [(raise_moves ..).same.recov rfl, setStage_recov]

/-- The job over, its slot's header sector erased. -/
def imageErased (s : State) (ucode target : Bool) : State :=
  { s with flash := eraseRange s.flash (slotBase ucode target) 0x1000, boot := { s.boot with job := none } }

def imageFailed (s : State) (ucode target : Bool) : State := failureTold (imageErased s ucode target)

/-- The job over, its copy's header sector erased. -/
def copyErased (s : State) (b : Bool) : State :=
  { s with flash := eraseRange s.flash (copyBase b) 0x1000, boot := { s.boot with job := none, unapplied := false } }

def copyFailed (s : State) (b : Bool) : State :=
  { failureTold (copyErased s b) with boot := { (failureTold (copyErased s b)).boot with lastFail := true } }

theorem completes_imageFails {s : State} (hc : s.mem.cur = none) (hr : s.execRuns = true) {i : SlotIx} {tag : W16} {ucode target : Bool}
    {p : JobStep} (hj : s.boot.job = some (.image i tag ucode target p)) :
    Completes (.entryComplete false) s fun t =>
      t.boot.job = none ∧ t.recov.stage = .opened ∧ t.mbx.slot[i].state = .done ∧ t.mbx.slot[i].result = rcFlash ∧
      (∀ a, t.flashAt a = if slotBase ucode target ≤ a ∧ a < slotBase ucode target + 0x1000 then flashErased else s.flashAt a) ∧
      SameOutside [.boot, .ev, .flash, .mbx, .port, .recov] s t := by
  have hsame := failureTold_same (imageErased s ucode target)
  have hend := mbxEnd_ended (imageFailed s ucode target) i rcFlash (memstatWord (imageFailed s ucode target).mem)
  refine ⟨mbxEnd (imageFailed s ucode target) i rcFlash (memstatWord (imageFailed s ucode target).mem), exec_entryComplete hc hr hj false,
    congrArg (·.job) (hsame.boot rfl), failureTold_stage _, hend.1, hend.2.1, fun x => ?_,
    (mbxEnd_same ..).step rfl (hsame.step rfl ((set_flash_boot s _ _).widen rfl))⟩
  have hf : (mbxEnd (imageFailed s ucode target) i rcFlash (memstatWord (imageFailed s ucode target).mem)).flash =
      (imageErased s ucode target).flash := hsame.flash rfl
  unfold State.flashAt
  rw [hf]
  exact sread_eraseSector ..

theorem jobEnd_copyFails (s : State) (i : SlotIx) (apply : Bool) (tag : W16) (seq : W32) (b : Bool) (p : JobStep) :
    jobEnd s (.config i apply tag seq b false p) false = mbxEnd (copyFailed s b) i rcFlash (memstatWord (copyFailed s b).mem) := rfl

theorem copyFailed_parts (s : State) (b : Bool) :
    (copyFailed s b).boot.job = none ∧ (copyFailed s b).boot.lastFail = true ∧ (copyFailed s b).recov.stage = .opened ∧
    (copyFailed s b).flash = (copyErased s b).flash ∧ SameOutside [.boot, .ev, .flash, .port, .recov] s (copyFailed s b) := by
  have hstage := failureTold_stage (copyErased s b)
  have hsame := failureTold_same (copyErased s b)
  have hs : SameOutside [.boot, .flash] s (copyErased s b) := set_flash_boot ..
  have hj : (copyErased s b).boot.job = none := rfl
  unfold copyFailed
  generalize copyErased s b = a at hstage hsame hs hj ⊢
  exact ⟨(congrArg (·.job) (hsame.boot rfl)).trans hj, rfl, hstage, hsame.flash rfl,
    (SameOutside.set_boot (failureTold a) _).step rfl (hsame.step rfl (hs.widen rfl))⟩

theorem completes_copyFails {s : State} (hc : s.mem.cur = none) (hr : s.execRuns = true) {i : SlotIx} {apply b : Bool} {seq : W32} {tag : W16}
    {p : JobStep} (hj : s.boot.job = some (.config i apply tag seq b false p)) :
    Completes (.entryComplete false) s fun t =>
      t.boot.job = none ∧ t.boot.lastFail = true ∧ t.recov.stage = .opened ∧ t.mbx.slot[i].state = .done ∧ t.mbx.slot[i].result = rcFlash ∧
      (∀ a, t.flashAt a = if copyBase b ≤ a ∧ a < copyBase b + 0x1000 then flashErased else s.flashAt a) ∧
      SameOutside [.boot, .ev, .flash, .mbx, .port, .recov] s t := by
  have e := (exec_entryComplete hc hr hj false).trans (congrArg Host.Outcome.next (jobEnd_copyFails s i apply tag seq b p))
  obtain ⟨h1, h2, h3, h4, h5⟩ := copyFailed_parts s b
  generalize copyFailed s b = u at e h1 h2 h3 h4 h5
  obtain ⟨h6, h7, -⟩ := mbxEnd_ended u i rcFlash (memstatWord u.mem)
  refine ⟨_, e, h1, h2, h3, h6, h7, fun a => ?_, (mbxEnd_same ..).step rfl (h5.widen rfl)⟩
  show sread flashErased u.flash a = _
  rw [h4]
  exact sread_eraseSector ..

/-- Settles O52: one entry completed advances the job by one step, or ends it. -/
theorem flashWritesEnd : Obligations.FlashWritesEnd := fun _ hc hr =>
  ⟨fun _ _ _ _ _ _ _ hj hp hb hs => completes_copyStep hc hr hj hp hb hs, fun _ _ _ _ _ _ hj hp => completes_mirrorStep hc hr hj hp,
   fun _ _ _ _ hj hm => completes_mirrorBegun hc hr hj hm,
   fun i apply seq b tag _ hj h => ⟨_, (exec_entryComplete hc hr hj true).trans (congrArg Host.Outcome.next (jobEnd_copyDone h)),
    configDone_parts _ i apply tag seq b⟩,
   fun _ _ _ _ _ hj => ⟨fun _ hp hb hs => completes_imageStep hc hr hj hp hb hs, fun hp hm => completes_imageArmed hc hr hj hp hm,
    fun _ hp hm hd => completes_imageLoad hc hr hj hp hm hd, completes_imageFails hc hr hj⟩,
   fun _ _ _ _ _ _ hj => completes_copyFails hc hr hj⟩

end Sys2Proof.Machine
end

section
/-!
A REINIT begins and completes (15 R416, Table 15-5): the completion of a function that Table 15-5 does not name.
-/
namespace Sys2Proof.Machine

/-- The executive runs in RUN with a generation in force that the field die does not hold, and a job of function 0x1E, which Table 15-5 does not
name, is in progress for slot 0. -/
def jobBeyondTable : State :=
  { State.reset with
    m := { State.reset.m with mode := .run, run := .running }
    boot := { State.reset.boot with gen := some {} }
    recov := { State.reset.recov with jobs := [⟨0x1E, some 0⟩] } }

/-- The model completes function 0x1E as the field die's: it presents the configuration afresh, and the mode's record changes with it. -/
theorem jobBeyondTable_afresh {t : State} (h : exec (.reinitComplete 0x1E) jobBeyondTable = .next t) : t.m.afresh = true := by
  have e : exec (.reinitComplete 0x1E) jobBeyondTable = .next (mbxEnd (finishReinit { jobBeyondTable with
      recov := { jobBeyondTable.recov with jobs := [] } } 0x1E) 0 rcOk 0) := rfl
  rw [← Host.Outcome.next.inj (e.symm.trans h)]
  rfl

/-- Refutes O53: its clause on completions binds every function but 0x1D, and the model completes 0x1E and 0x1F, which begin no REINIT, as
the field die's function: what that presents afresh is no part of the frame the clause states. -/
theorem not_reinitBeginsAndCompletes : ¬ Obligations.ReinitBeginsAndCompletes := by
  unfold Obligations.ReinitBeginsAndCompletes
  intro h
  obtain ⟨-, hcompletes, -⟩ := h jobBeyondTable 0 0
  obtain ⟨t, e, -, -, -, -, -, -, hsame⟩ := hcompletes 0x1E rfl (by decide) rfl
  have hm : t.m.afresh = jobBeyondTable.m.afresh := congrArg (·.afresh) (hsame.m rfl)
  rw [jobBeyondTable_afresh e] at hm
  exact absurd hm (by decide)

end Sys2Proof.Machine
end

section
/-!
RESET_DEVICE and the watchdogs (15 R407, R410–R414, Table 15-3).
-/
namespace Sys2Proof.Machine

/-! ## RESET_DEVICE -/

theorem exec_resetDevice {s : State} {i : SlotIx} (ht : MbxTaken s i) (ha : s.mbx.slot[i].arg[0] &&& ~~~1#32 = 0) (tag : W16) :
    exec (.resetDevice i tag) s = .next (
      if s.boot.job.isSome && !bitAt s.mbx.slot[i].arg[(0 : Fin 32)] 0 then mbxEnd (mbxStart s i 0x21 tag) i rcBusy 0
      else logicReset (mbxStart s i 0x21 tag) rstDevice 0) := by
  have e := (mbxServed_running ht.1 i 0x21 tag runResetDevice).trans (mbxRun_masked (j := 0) (accepted := inAll) ht.2 rfl ha 0x21 tag _)
  rw [mbxStart_arg] at e
  exact congrArg Host.Outcome.next e

/-- What a reset that RESET_DEVICE asks for leaves (15 R407, 03 R66). -/
theorem logicReset_device (s : State) (i : SlotIx) :
    let t := logicReset s rstDevice 0
    t.m.run = .held ∧ t.m.mode = .load ∧ t.recov.rstCause = 2 ∧ t.bw.retrain = 0 ∧ t.recov.pcyc = s.recov.pcyc ∧
    t.mbx.slot[i].state = .free ∧ t.flash = s.flash ∧ t.otp = s.otp ∧ t.tick = s.tick ∧ t.pending = s.pending := by
  have hslot : (Vector.replicate 8 ({} : MailSlot))[i] = {} := Vector.getElem_replicate _
  refine ⟨rfl, rfl, rfl, rfl, ?_, congrArg (·.state) hslot, rfl, rfl, rfl, rfl⟩
  show (s.recov.pcyc && decide (rstDevice ≠ rstResetN)) = s.recov.pcyc
  rw [show decide (rstDevice ≠ rstResetN) = true from rfl, Bool.and_true]

theorem completes_resetDevice {s : State} {i : SlotIx} (ht : MbxTaken s i) (ha : s.mbx.slot[i].arg[0] &&& ~~~1#32 = 0)
    (h : s.boot.job = none ∨ s.mbx.slot[i].arg[0].getLsbD 0 = true) (tag : W16) :
    Completes (.resetDevice i tag) s fun t =>
      t.m.run = .held ∧ t.m.mode = .load ∧ t.recov.rstCause = 2 ∧ t.bw.retrain = 0 ∧ t.recov.pcyc = s.recov.pcyc ∧
      t.mbx.slot[i].state = .free ∧ t.flash = s.flash ∧ t.otp = s.otp ∧ t.tick = s.tick ∧ t.pending = s.pending := by
  have hn : (s.boot.job.isSome && !bitAt s.mbx.slot[i].arg[(0 : Fin 32)] 0) = false := by
    rcases h with h | h
    · rw [h]
      rfl
    · rw [show bitAt s.mbx.slot[i].arg[(0 : Fin 32)] 0 = true from h, Bool.not_true, Bool.and_false]
  have e := exec_resetDevice ht ha tag
  rw [hn, if_neg Bool.false_ne_true] at e
  exact ⟨_, e, logicReset_device (mbxStart s i 0x21 tag) i⟩

theorem completes_resetBusy {s : State} {i : SlotIx} (ht : MbxTaken s i) (ha : s.mbx.slot[i].arg[0] &&& ~~~1#32 = 0) (hj : s.boot.job ≠ none)
    (hb : s.mbx.slot[i].arg[0].getLsbD 0 = false) (tag : W16) :
    Completes (.resetDevice i tag) s fun t => MbxEnded t i rcBusy 0 ∧ SameOutside [.mbx] s t := by
  have hn : (s.boot.job.isSome && !bitAt s.mbx.slot[i].arg[(0 : Fin 32)] 0) = true := by
    rw [Option.isSome_iff_ne_none.mpr hj, show bitAt s.mbx.slot[i].arg[(0 : Fin 32)] 0 = false from hb]
    rfl
  have e := exec_resetDevice ht ha tag
  rw [hn, if_pos rfl] at e
  exact ⟨_, e, mbxEnd_ended .., mbxEnd_start_same ..⟩

/-! ## A watchdog expires -/

/-- Watchdog `k` has expired at step `step`, counted and told, before its step is taken (15 R410). -/
def wdNoted (s : State) (k : Fin 8) (step : BitVec 3) : State :=
  let c : Fin 4 := ⟨min k.val 3, by omega⟩
  let s1 := { notePoll s k with recov := { s.recov with
    expired := s.recov.expired ||| (1#8 <<< k.val), wdLast := BitVec.ofNat 3 k.val, wdStep := step
    wdCnt := modAt s.recov.wdCnt c satInc
    lanesUpSince := if k = 2 then s.recov.lanesUpSince.map fun _ => s.tick else s.recov.lanesUpSince } }
  raise s1 srcWatchdog (putN 0 3 k.val ||| put 3 step)

/-- Watchdog `k` last fell due within 60 s. -/
def wdRepeats (s : State) (k : Fin 8) : Bool := match s.recov.wdTick[k] with | some t => decide (s.since t < secTicks 60) | none => false

theorem wdNoted_recov (s : State) (k : Fin 8) (step : BitVec 3) :
    (wdNoted s k step).recov.expired = s.recov.expired ||| (1#8 <<< k.val) ∧ (wdNoted s k step).recov.wdLast = BitVec.ofNat 3 k.val ∧
    (wdNoted s k step).recov.wdStep = step ∧ (wdNoted s k step).recov.handover = s.recov.handover ∧
    (wdNoted s k step).recov.reload = s.recov.reload ∧ (wdNoted s k step).recov.wdDue = s.recov.wdDue ∧
    (wdNoted s k step).recov.jobs = s.recov.jobs ∧ (wdNoted s k step).recov.resets = s.recov.resets := by
  unfold wdNoted
  extract_lets +onlyGivenNames c r s1
  rw [(raise_moves ..).same.recov rfl]
  exact ⟨rfl, rfl, rfl, rfl, rfl, rfl, rfl, rfl⟩

theorem notePoll_same (s : State) (k : Fin 8) : SameOutside [.mem] s (notePoll s k) := (notePoll_moves s k).same

theorem notePoll_other {k : Fin 8} (h : k ≠ 4) (s : State) : notePoll s k = s := by
  unfold notePoll
  rw [if_neg h]

theorem wdNoted_same (s : State) (k : Fin 8) (step : BitVec 3) : SameOutside [.ev, .mem, .port, .recov] s (wdNoted s k step) := by
  unfold wdNoted
  extract_lets +onlyGivenNames c r s1
  exact (raise_moves ..).same.step rfl ((SameOutside.set_recov (notePoll s k) _).step rfl ((notePoll_same s k).widen rfl))

theorem wdExpire_noted {s : State} {k : Fin 8} (hr : s.m.run = .running) (hh : s.wdHeld k = false) (func : BitVec 5) :
    wdExpire s k func =
      let step := wdStepOf k (wdRepeats s k) (s.m.mode = .safe)
      let a := wdNoted s k step
      let d := (k, wdFunc k func, step)
      if a.recov.handover.isSome || a.recov.reload.isSome
        then { a with recov := { a.recov with wdDue := a.recov.wdDue ++ [d] } } else wdTake a d := by
  unfold wdExpire
  refine (if_neg ?_).trans ?_
  · rw [hr, hh]
    simp
  · rfl

theorem exec_watchdog_taken {s : State} {k : Fin 8} (hr : s.m.run = .running) (hh : s.wdHeld k = false) (hn : s.recov.handover = none)
    (hl : s.recov.reload = none) (func : BitVec 5) {step : BitVec 3} (hs : wdStepOf k (wdRepeats s k) (s.m.mode = .safe) = step) :
    exec (.watchdog k func) s = .next (wdTake (wdNoted s k step) (k, wdFunc k func, step)) := by
  obtain ⟨-, -, -, h4, h5, -⟩ := wdNoted_recov s k step
  have e := wdExpire_noted hr hh func
  dsimp only at e
  rw [hs, h4, h5, hn, hl] at e
  exact congrArg Host.Outcome.next e

/-- A handover in progress keeps the step until its end (15 R415). -/
theorem completes_watchdogDue {s : State} {k : Fin 8} (hr : s.m.run = .running) (hh : s.wdHeld k = false) (hn : s.recov.handover.isSome = true)
    (func : BitVec 5) :
    Completes (.watchdog k func) s fun t =>
      t.recov.wdLast = BitVec.ofNat 3 k.val ∧ t.recov.wdDue.length = s.recov.wdDue.length + 1 ∧ (k ≠ 4 → t.mem = s.mem) ∧
      SameOutside [.ev, .mem, .port, .recov] s t := by
  have e := wdExpire_noted hr hh func
  dsimp only at e
  generalize wdStepOf k (wdRepeats s k) (s.m.mode = .safe) = step at e
  obtain ⟨-, h2, -, h4, -, h6, -⟩ := wdNoted_recov s k step
  have hsame := wdNoted_same s k step
  rw [h4, hn, Bool.true_or, if_pos rfl] at e
  refine ⟨_, congrArg Host.Outcome.next e, h2, ?_, fun hk => ?_, (SameOutside.set_recov (wdNoted s k step) _).step rfl hsame⟩
  · dsimp only
    rw [h6, List.length_append]
    rfl
  · dsimp only
    unfold wdNoted
    rw [(raise_moves ..).same.mem rfl, notePoll_other hk]

/-! ## Watchdog 0 resets the logic die -/

theorem completes_watchdog0 {s : State} (hr : s.m.run = .running) (hh : s.wdHeld 0 = false) (hn : s.recov.handover = none)
    (hl : s.recov.reload = none) (func : BitVec 5) :
    Completes (.watchdog 0 func) s fun t =>
      t.m.run = .held ∧ t.recov.rstCause = 3 ∧ t.recov.rstWd = 0 ∧ t.recov.resets = satInc s.recov.resets ∧ t.flash = s.flash := by
  obtain ⟨-, -, -, -, -, -, -, h8⟩ := wdNoted_recov s 0 3
  refine ⟨_, exec_watchdog_taken hr hh hn hl func (step := 3) rfl, rfl, rfl, rfl, congrArg satInc h8, (wdNoted_same s 0 3).flash rfl⟩

/-! ## Watchdog 1 enters SAFE -/

/-- What an expiry leaves of itself in the recovery's record (Table 15-3). -/
def wdMarks (r : RecovState) : BitVec 8 × BitVec 3 × BitVec 3 := (r.expired, r.wdLast, r.wdStep)

theorem stageStop_marks (s : State) : wdMarks (stageStop s).recov = wdMarks s.recov := by
  unfold stageStop
  split
  · dsimp only
    rw [(raise_moves ..).same.recov rfl]
    rfl
  · rfl

theorem enterStop_marks (s : State) (cause : Byte) : wdMarks (enterStop s cause).recov = wdMarks s.recov := by
  unfold enterStop
  split
  · rfl
  · extract_lets +onlyGivenNames s0 d1 m1 s1
    have h0 : s0.recov = s.recov := ((refuseLeaving_moves ..).same.recov rfl).trans
      (((discardReduced_moves _).same.recov rfl).trans ((discardSafe_moves s cause).same.recov rfl))
    have h1 : s1.recov = s0.recov := ((setMode_moves ..).same.recov rfl).trans (((markSafe_moves ..).same.recov rfl).trans
      ((dropStepFive_moves s0).same.recov rfl))
    rw [stageStop_marks, (portsDown_moves ..).same.recov rfl, (wheelsStop_moves _).same.recov rfl, (commandSafeAll_moves _).same.recov rfl, h1, h0]

theorem countSafe_marks (s : State) : wdMarks (countSafe s).recov = wdMarks s.recov := by
  unfold countSafe
  extract_lets +onlyGivenNames m1 s1 n
  split
  · exact enterStop_marks s1 0x0F
  · rfl

theorem safeMade_marks (s : State) (cause : Byte) (wd : Option (Fin 8)) : wdMarks (safeMade s cause wd).recov = wdMarks s.recov := by
  unfold safeMade
  extract_lets +onlyGivenNames r1 s1 m1 r2 s0
  have h1 : s1.recov = s.recov := ((refuseLeaving_moves ..).same.recov rfl).trans ((discardReduced_moves s).same.recov rfl)
  have h0 : (dropStepFive s0).recov = s0.recov := (dropStepFive_moves s0).same.recov rfl
  rw [(commandSafeAll_moves _).same.recov rfl, (setMode_moves ..).same.recov rfl, (markSafe_moves ..).same.recov rfl, h0]
  exact (show wdMarks s0.recov = wdMarks s1.recov from rfl).trans (congrArg wdMarks h1)

theorem enterSafe_marks {s : State} (h : s.m.mode = .run ∨ s.m.mode = .reduced ∨ s.m.mode = .trim) (cause : Byte) (wd : Option (Fin 8)) :
    wdMarks (enterSafe s cause wd).recov = wdMarks s.recov := by
  rw [enterSafe_live s cause wd h]
  split
  · exact safeMade_marks ..
  · exact (countSafe_marks _).trans (safeMade_marks ..)

/-- The expiry of watchdog `k` noted, with the tick at which its step is taken. -/
def wdTaken (s : State) (k : Fin 8) (step : BitVec 3) : State :=
  { wdNoted s k step with
    recov := { (wdNoted s k step).recov with wdTick := setAt (wdNoted s k step).recov.wdTick k (some (wdNoted s k step).tick) } }

theorem wdTaken_marks (s : State) (k : Fin 8) (step : BitVec 3) :
    wdMarks (wdTaken s k step).recov = (s.recov.expired ||| (1#8 <<< k.val), BitVec.ofNat 3 k.val, step) := by
  obtain ⟨h1, h2, h3, -⟩ := wdNoted_recov s k step
  show ((wdNoted s k step).recov.expired, (wdNoted s k step).recov.wdLast, (wdNoted s k step).recov.wdStep) = _
  rw [h1, h2, h3]

theorem wdTaken_same (s : State) (k : Fin 8) (step : BitVec 3) : SameOutside [.ev, .mem, .port, .recov] s (wdTaken s k step) :=
  (SameOutside.set_recov (wdNoted s k step) _).step rfl (wdNoted_same s k step)

theorem wdTake_safe (s : State) (k : Fin 8) (func : BitVec 5) :
    wdTake (wdNoted s k 5) (k, func, 5) = enterSafe (wdTaken s k 5) 0x0E (some k) := by
  unfold wdTake
  dsimp only
  rw [if_neg (by decide), if_pos rfl]
  rfl

theorem wdTake_reinit (s : State) (k : Fin 8) (func : BitVec 5) :
    wdTake (wdNoted s k 2) (k, func, 2) = startReinit (wdTaken s k 2) func none := by
  unfold wdTake
  dsimp only
  rw [if_neg (by decide), if_neg (by decide), if_pos rfl]
  rfl

theorem completes_watchdog1 {s : State} (hr : s.m.run = .running) (hh : s.wdHeld 1 = false) (hn : s.recov.handover = none)
    (hl : s.recov.reload = none) (hm : s.m.mode = .run) (func : BitVec 5) :
    Completes (.watchdog 1 func) s fun t =>
      (t.m.mode = .safe ∧ t.m.cause = 0x0E ∨ t.m.mode = .stop) ∧
      t.recov.wdLast = 1 ∧ t.recov.wdStep = 5 ∧ t.recov.expired = s.recov.expired ||| 2 := by
  have hstep : wdStepOf 1 (wdRepeats s 1) (s.m.mode = .safe) = 5 := by
    rw [hm]
    rfl
  have hmode : (wdTaken s 1 5).m.mode = .run := by
    rw [(wdTaken_same s 1 5).m rfl]
    exact hm
  have e := exec_watchdog_taken hr hh hn hl func hstep
  rw [wdTake_safe] at e
  have hmarks := (enterSafe_marks (.inl hmode) 0x0E (some 1)).trans (wdTaken_marks s 1 5)
  have hsafe := enterSafe_mode (wdTaken s 1 5) 0x0E (some 1) (.inl hmode)
  generalize enterSafe (wdTaken s 1 5) 0x0E (some 1) = t at e hmarks hsafe
  exact ⟨t, e, hsafe.imp id And.left, congrArg (·.2.1) hmarks, congrArg (·.2.2) hmarks, congrArg (·.1) hmarks⟩

/-! ## Watchdog 4 reinitialises the memory port -/

theorem jobFail_recov (s : State) (j : FlashJob) : (jobFail s j).recov = { s.recov with stage := .opened } := by
  have he : (eraseHeader { s with boot := { s.boot with job := none } } j).recov = s.recov := (eraseHeader_moves ..).same.recov rfl
  unfold jobFail
  extract_lets +onlyGivenNames b1 s1 s2
  have h2 : s2.recov = { s.recov with stage := .opened } := by
    unfold s2 s1
    rw [(raise_moves ..).same.recov rfl, setStage_recov, he]
  cases j with
  | config => exact h2
  | image => exact h2

/-- The memory port's queue empty, its operation abandoned and its error noted (17 R478). -/
theorem reinitMemory_parts (s : State) :
    (reinitMemory s).mem.queue = [] ∧ (reinitMemory s).mem.cur = none ∧ (reinitMemory s).mem.lastErr = 4 ∧
    ((reinitMemory s).recov = s.recov ∨ (reinitMemory s).recov = { s.recov with stage := .opened }) := by
  unfold reinitMemory
  extract_lets +onlyGivenNames m1 s1 m2 s2
  split
  next j h =>
    rw [(jobFail_moves ..).same.mem rfl]
    exact ⟨rfl, rfl, rfl, .inr (jobFail_recov s2 j)⟩
  next h =>
    split
    · rw [(raise_moves ..).same.mem rfl, (raise_moves ..).same.recov rfl]
      exact ⟨rfl, rfl, rfl, .inl rfl⟩
    · exact ⟨rfl, rfl, rfl, .inl rfl⟩

/-- A REINIT of the memory port begins for a watchdog. -/
def memoryBegun (s : State) : State :=
  { s with recov := { s.recov with func := 0x1C, reinits := satInc s.recov.reinits, jobs := s.recov.jobs ++ [⟨0x1C, none⟩] } }

theorem startReinit_memory {s : State} (h : ∀ j ∈ s.recov.jobs, j.func ≠ 0x1C) : startReinit s 0x1C none = reinitMemory (memoryBegun s) := by
  have hn : (s.recov.jobs.any fun j => decide (j.func = 0x1C)) = false := List.any_eq_false.mpr fun j hj => by simpa using h j hj
  unfold startReinit
  rw [hn]
  rfl

theorem completes_watchdog4 {s : State} (hr : s.m.run = .running) (hh : s.wdHeld 4 = false) (hn : s.recov.handover = none)
    (hl : s.recov.reload = none) (ht : s.recov.wdTick[(4 : Fin 8)] = none) (hj : ∀ j ∈ s.recov.jobs, j.func ≠ 0x1C) (func : BitVec 5) :
    Completes (.watchdog 4 func) s fun t =>
      t.recov.func = 0x1C ∧ t.recov.wdLast = 4 ∧ t.recov.wdStep = 2 ∧ (∃ j ∈ t.recov.jobs, j.func = 0x1C ∧ j.slot = none) ∧
      t.mem.queue = [] ∧ t.mem.cur = none ∧ t.mem.lastErr = 4 := by
  have hstep : wdStepOf 4 (wdRepeats s 4) (s.m.mode = .safe) = 2 := by
    unfold wdRepeats
    rw [ht]
    rfl
  obtain ⟨-, -, -, -, -, -, h7, -⟩ := wdNoted_recov s 4 2
  have hjobs : (wdTaken s 4 2).recov.jobs = s.recov.jobs := h7
  have e := exec_watchdog_taken hr hh hn hl func hstep
  rw [wdTake_reinit, show wdFunc 4 func = 0x1C from rfl, startReinit_memory (by rw [hjobs]; exact hj)] at e
  have hmarks : wdMarks (memoryBegun (wdTaken s 4 2)).recov = _ := wdTaken_marks s 4 2
  obtain ⟨m1, m2, m3, hrec⟩ := reinitMemory_parts (memoryBegun (wdTaken s 4 2))
  have hb : (memoryBegun (wdTaken s 4 2)).recov.func = 0x1C ∧ ⟨0x1C, none⟩ ∈ (memoryBegun (wdTaken s 4 2)).recov.jobs :=
    ⟨rfl, List.mem_append_right _ List.mem_cons_self⟩
  generalize memoryBegun (wdTaken s 4 2) = a at e hmarks m1 m2 m3 hrec hb
  simp only [wdMarks, Prod.mk.injEq] at hmarks
  obtain ⟨-, k2, k3⟩ := hmarks
  refine ⟨_, e, ?_⟩
  rcases hrec with h | h <;> rw [h] <;> exact ⟨hb.1, k2, k3, ⟨_, hb.2, rfl, rfl⟩, m1, m2, m3⟩

/-- Settles O54: RESET_DEVICE by the job in progress, and each watchdog by the function that it watches. -/
theorem resetDeviceAndWatchdogs : Obligations.ResetDeviceAndWatchdogs := fun _ =>
  ⟨fun _ tag ht ha => ⟨fun h => completes_resetDevice ht ha h tag, fun hj hb => completes_resetBusy ht ha hj hb tag⟩,
   fun func hr hn hl => ⟨fun hh => completes_watchdog0 hr hh hn hl func, fun hh _ hm => completes_watchdog1 hr hh hn hl hm func,
    fun hh ht hj => completes_watchdog4 hr hh hn hl ht hj func⟩,
   fun _ func hr hn hh => completes_watchdogDue hr hh hn func⟩

end Sys2Proof.Machine
end

section
/-!
Executive handover, its reversal and its probation (15 R424–R429, 03 R67, R33).
-/
namespace Sys2Proof.Machine

/-! ## The two images exchanged -/

/-- A cell that a filter keeps reads as it did. -/
theorem sread_filter {α : Type} {d : α} {p : Nat × α → Bool} {k : Nat} (h : ∀ v, p (k, v) = true) (m : List (Nat × α)) :
    sread d (m.filter p) k = sread d m k := by
  induction m with
  | nil => rfl
  | cons c m ih =>
    obtain ⟨a, v⟩ := c
    by_cases hk : k = a
    · subst hk
      rw [List.filter_cons_of_pos (h v)]
      simp only [sread, if_true]
    · have hr : sread d ((a, v) :: m) k = sread d m k := if_neg hk
      by_cases hp : p (a, v) = true
      · rw [List.filter_cons_of_pos hp, hr, ← ih]
        exact if_neg hk
      · rw [List.filter_cons_of_neg hp, ih, hr]

theorem sread_append_right {α : Type} {d : α} {a : List (Nat × α)} {k : Nat} (h : ∀ c ∈ a, c.1 ≠ k) (b : List (Nat × α)) :
    sread d (a ++ b) k = sread d b k := by
  induction a with
  | nil => rfl
  | cons c a ih =>
    exact (if_neg (h c List.mem_cons_self).symm).trans (ih fun x hx => h x (List.mem_cons_of_mem _ hx))

theorem sread_append_left {α : Type} {d : α} {b : List (Nat × α)} {k : Nat} (h : ∀ c ∈ b, c.1 ≠ k) (a : List (Nat × α)) :
    sread d (a ++ b) k = sread d a k := by
  induction a with
  | nil => exact sread_absent h
  | cons c a ih =>
    simp only [List.cons_append, sread, ih]

/-- Two memories joined at n read as the first below n, and as the second from n on. -/
theorem sread_joinAt (d : Byte) (n : Nat) (a b : List (Nat × Byte)) (k : Nat) :
    sread d (joinAt n a b) k = if k < n then sread d a k else sread d b k := by
  unfold joinAt
  split
  · rename_i hk
    rw [sread_append_left, sread_filter fun _ => decide_eq_true hk]
    intro c hc
    have := of_decide_eq_true (List.mem_filter.mp hc).2
    omega
  · rename_i hk
    rw [sread_append_right, sread_filter fun _ => decide_eq_true (Nat.le_of_not_lt hk)]
    intro c hc
    have := of_decide_eq_true (List.mem_filter.mp hc).2
    omega

theorem exchange_reads (s : State) (k : Nat) :
    (exchange s).stageAt k = (if k < exchangeLen s then sread stagingEmpty s.recov.slotImage k else s.stageAt k) ∧
    sread stagingEmpty (exchange s).recov.slotImage k =
      if k < exchangeLen s then s.stageAt k else sread stagingEmpty s.recov.slotImage k :=
  ⟨sread_joinAt .., sread_joinAt ..⟩

/-! ## The start check -/

theorem startCheckRun_failed (t : TriadState) (split : Bool) (k : StartCheck) :
    (checkFailed k split = none → (startCheckRun t split k).tests = t.tests + 1 ∧ (startCheckRun t split k).fault = t.fault) ∧
    ∀ p, checkFailed k split = some p → (startCheckRun t split k).tests = t.tests ∧ (startCheckRun t split k).fault = true ∧
      (startCheckRun t split k).pattern = BitVec.ofNat 3 p.val := by
  refine ⟨fun h => ?_, fun p h => ?_⟩
  · unfold startCheckRun
    rw [h]
    cases split <;> exact ⟨rfl, rfl⟩
  · unfold startCheckRun
    rw [h]
    cases split <;> exact ⟨rfl, rfl, rfl⟩

/-! ## What a resumed executive does -/

theorem putRetired_mode (s : State) : (putRetired s).m.mode = s.m.mode := by
  unfold putRetired
  dsimp only
  rw [(putHealth_moves ..).same.m rfl, (putMode_moves ..).same.m rfl]

theorem putAll_mode (s : State) : (putAll s).m.mode = s.m.mode := by
  let s1 := (List.finRange 16).foldl putHartLive (refreshAll s)
  have h1 : SameOutside [.ch, .ev, .img, .port] s s1 := (Moves.foldl (fun a n => (putHartLive_moves a n).widen rfl) (refreshAll_moves s) :
    Moves [.ch, .ev, .img, .port] s s1).same
  have h2 : SameOutside [.img] s1 (putLinks (putWheels (putTriad (putSupply (putMode (assignCommands s1)))))) :=
    (putLinks_moves _).same.step rfl ((putWheels_moves _).same.step rfl ((putTriad_moves _).same.step rfl ((putSupply_moves _).same.step rfl
      ((putMode_moves _).same.step rfl (assignCommands_moves _).same))))
  exact (putRetired_mode _).trans (congrArg ModeState.mode ((h2.m rfl).trans (h1.m rfl)))

theorem recallImage_mode (s : State) : (recallImage s).m.mode = s.m.mode := by
  unfold recallImage
  split
  · rfl
  · have h : Moves [.img] (putAll s) (s.entries.foldl recallEntry (putAll s)) := .foldl (fun a je => recallEntry_moves a je) (.refl _)
    exact (congrArg ModeState.mode (h.same.m rfl)).trans (putAll_mode s)

/-- Nothing waits that the voters alone could take. -/
structure NothingWaits (s : State) : Prop where
  words : s.recov.eccDue = []
  reports : s.bw.buffered = []
  requests : ∀ k : PortIx, s.port[k].buffered = []
  frames : s.held = []
  dogs : s.recov.wdDue = []

theorem takeWaiting_mode {s : State} (hn : NothingWaits s) : (takeWaiting s).m.mode = s.m.mode := by
  have e : takeWaiting s = raiseHeld (recallImage s) := takeWaiting_eq hn.words hn.reports hn.requests hn.frames
  rw [e, (raiseHeld_moves _).same.m rfl]
  exact recallImage_mode s

theorem takeDue_none {s : State} (h : s.recov.wdDue = []) : takeDue s = { s with recov := { s.recov with wdDue := [] } } := by
  unfold takeDue
  rw [h]
  rfl

theorem resumeWith_quiet {s : State} (hn : NothingWaits s) (st : StageState) :
    (resumeWith s st).recov = { s.recov with stage := st, wdDue := [] } ∧ (resumeWith s st).m.mode = s.m.mode ∧
    SameOutside [.m, .ch, .ev, .img, .port, .recov] s (resumeWith s st) := by
  have h1 : SameOutside [.m, .ch, .ev, .img, .port] s (takeWaiting s) := takeWaiting_quiet hn.words hn.reports hn.requests hn.frames
  have hm := takeWaiting_mode hn
  unfold resumeWith
  generalize takeWaiting s = a at h1 hm ⊢
  have h2 : SameOutside [.recov, .ev, .port] a (setStage a st) := (setStage_moves a st).same
  have hr : (setStage a st).recov = { s.recov with stage := st } := (setStage_recov a st).trans (by rw [h1.recov rfl])
  generalize setStage a st = b at h2 hr ⊢
  rw [takeDue_none (by rw [hr]; exact hn.dogs)]
  exact ⟨by rw [hr], (congrArg ModeState.mode (h2.m rfl)).trans hm, (SameOutside.set_recov b _).step rfl (h2.step rfl (h1.widen rfl))⟩

/-! ## The outcome of a handover -/

theorem handoverOver_parts (s : State) (h : Handover) (reversed : Bool) (why : BitVec 3) :
    SameOutside [.recov, .rul] s (handoverOver s h reversed why) := by
  unfold handoverOver
  have h1 : SameOutside [.recov] s { s with recov := { s.recov with
    handover := none, hoLastUs := satNat 16 (s.since h.start / 10), hoReversed := reversed, hoWhy := why } } := SameOutside.set_recov _ _
  exact (SameOutside.set_rul _ _).step rfl (h1.widen rfl)

/-- The machine as a handover leaves it to the new executive. -/
def handedOver (s : State) (h : Handover) : State :=
  let s1 := handoverOver s h false 0
  { s1 with boot := { s1.boot with exec := slotAt (sread 0 s1.recov.slotImage) 0 false }, recov := { s1.recov with probation := s1.tick } }

theorem exec_executiveResume {s : State} {h : Handover} (hh : s.recov.handover = some h) (hx : h.exchanged = true) (hc : h.checked = true) :
    exec .executiveResume s = .next (resumeWith (handedOver s h) .probation) := by
  refine congrArg Host.Outcome.next ?_
  rw [hh]
  exact if_neg (by rw [hx, hc]; decide)

/-- The machine as a reversed handover leaves it to the old executive (15 R428). -/
def handedBack (s : State) (h : Handover) (why : BitVec 3) (check : StartCheck) : State :=
  let s1 := exchange s
  handoverOver { s1 with triad := startCheckRun s1.triad s1.straps.lanemode check } h true why

theorem handedBack_same (s : State) (h : Handover) (why : BitVec 3) (check : StartCheck) :
    SameOutside [.recov, .rul, .triad] s (handedBack s h why check) := by
  unfold handedBack
  exact (handoverOver_parts ..).step rfl ((SameOutside.set_triad _ _).step rfl ((exchange_moves s).same.widen rfl))

theorem exec_handoverReverse {s : State} {h : Handover} (hh : s.recov.handover = some h) (hx : h.exchanged = true) {why : BitVec 3}
    (hw : reverseCase s h why = true) (check : StartCheck) :
    exec (.handoverReverse why check) s = .next (if checkPassed check s.straps.lanemode then resumeWith (handedBack s h why check) .invalid
      else reverseDead (handedBack s h why check)) := by
  refine congrArg Host.Outcome.next ?_
  rw [hh]
  dsimp only
  rw [if_neg (by rw [hw]; decide), hx]
  rfl

/-! ## Neither executive -/

/-- The executive stopped for good, as a failed reversal leaves it. -/
def deadEnd (s : State) : State :=
  { s with
    m := { s.m with run := .noExec, wait := .endedInLoad }
    triad := { s.triad with startOk := false, safeWhy := 7 }
    bw := { s.bw with stopped := true } }

theorem setStage_queued (s : State) (st : StageState) : PortsQueued s (setStage s st) := by
  unfold setStage
  exact .ite (.of_eq rfl) (PortsQueued.trans (by exact .of_eq rfl) (raise_queued ..))

theorem setMode_hbeat (s : State) {mode : Mode} (cause : Byte) (h : mode ≠ .run ∧ mode ≠ .reduced) :
    (setMode s mode cause).pins.hbeat = false := by
  unfold setMode
  extract_lets s1
  exact modeChanged_hbeat h

/-- With neither executive the device stands in LOAD, with HBEAT low, the transmitter stopped and every port down (15 R428, 03 R67, R33). -/
theorem reverseDead_parts (s : State) :
    (reverseDead s).recov = { s.recov with stage := .invalid } ∧ (reverseDead s).m.mode = .load ∧ (reverseDead s).m.run = .noExec ∧
    (reverseDead s).m.prev = s.m.mode ∧ (reverseDead s).pins.hbeat = false ∧ (reverseDead s).triad.safeWhy = 7 ∧
    (reverseDead s).bw.stopped = true ∧ ∀ k : PortIx, PortClosed (reverseDead s).port[k] := by
  have h1 := setMode_m s.draw.2 .load (field s.draw.1 0 8)
  have hb : (setMode s.draw.2 .load (field s.draw.1 0 8)).pins.hbeat = false :=
    setMode_hbeat _ _ ⟨by decide, by decide⟩
  have hs1 := (setMode_moves s.draw.2 .load (field s.draw.1 0 8)).same
  unfold reverseDead
  dsimp only
  generalize setMode s.draw.2 .load (field s.draw.1 0 8) = a at h1 hb hs1 ⊢
  have hs2 := (portsDown_moves a 11).same
  have hp := portsDown_closed a 11
  generalize portsDown a 11 = b at hs2 hp ⊢
  have hm2 : b.m = _ := (hs2.m rfl).trans h1
  have hb2 : b.pins.hbeat = false := (congrArg Pins.hbeat (hs2.pins rfl)).trans hb
  have hr2 : b.recov = s.recov := (hs2.recov rfl).trans (hs1.recov rfl)
  have hq := setStage_queued (deadEnd b) .invalid
  have hs3 := (setStage_moves (deadEnd b) .invalid).same
  have hr3 := setStage_recov (deadEnd b) .invalid
  change (setStage (deadEnd b) .invalid).recov = _ ∧ _
  refine ⟨hr3.trans ?_, ?_, ?_, ?_, ?_, ?_, ?_, fun k => ?_⟩
  · rw [← hr2]
    rfl
  · exact (congrArg ModeState.mode (hs3.m rfl)).trans (congrArg ModeState.mode hm2)
  · exact congrArg ModeState.run (hs3.m rfl)
  · exact (congrArg ModeState.prev (hs3.m rfl)).trans (congrArg ModeState.prev hm2)
  · exact (congrArg Pins.hbeat (hs3.pins rfl)).trans hb2
  · exact congrArg TriadState.safeWhy (hs3.triad rfl)
  · exact congrArg Breakwater.stopped (hs3.bw rfl)
  · exact (hp k).queued (hq.port k)

/-! ## Probation -/

theorem exec_probationEnd {s : State} {d : BootDesc} (hr : s.execRuns = true) (hs : s.recov.stage = .probation) (hd : s.boot.desc = some d)
    (ht : secTicks 1 ≤ s.since s.recov.probation) (written : Bool) :
    exec (.probationEnd written) s = .next (setStage (if written then writeDesc s false (!d.execSlot)
      else raise { s with recov := { s.recov with hoDescFail := true } } srcMemErr (memstatWord s.mem)) .empty) := by
  refine congrArg Host.Outcome.next ((if_neg ?_).trans ?_)
  · rw [hr, hs, decide_eq_false (Nat.not_lt.mpr ht)]
    decide
  · dsimp only
    rw [hd]

theorem probationEnd_written {s : State} {d : BootDesc} (hr : s.execRuns = true) (hs : s.recov.stage = .probation) (hd : s.boot.desc = some d)
    (ht : secTicks 1 ≤ s.since s.recov.probation) :
    Completes (.probationEnd true) s fun t =>
      t.recov.stage = .empty ∧ t.boot.desc = some { d with copy1 := !d.copy1, seq := d.seq + 1, execSlot := !d.execSlot } ∧
      SameOutside [.boot, .ev, .flash, .port, .recov] s t := by
  have e := exec_probationEnd hr hs hd ht true
  have hw := writeDesc_desc hd false (!d.execSlot)
  have h1 := (writeDesc_moves s false (!d.execSlot)).same
  rw [if_pos rfl] at e
  generalize writeDesc s false (!d.execSlot) = a at e hw h1
  have h2 := (setStage_moves a .empty).same
  have hrec := setStage_recov a .empty
  generalize setStage a .empty = t at e h2 hrec
  refine ⟨t, e, congrArg RecovState.stage hrec, ?_, h2.step rfl (h1.widen rfl)⟩
  rw [h2.boot rfl, hw]
  rfl

theorem probationEnd_failed {s : State} {d : BootDesc} (hr : s.execRuns = true) (hs : s.recov.stage = .probation) (hd : s.boot.desc = some d)
    (ht : secTicks 1 ≤ s.since s.recov.probation) :
    Completes (.probationEnd false) s fun t =>
      t.recov.stage = .empty ∧ t.recov.hoDescFail = true ∧ t.boot.desc = some d ∧ SameOutside [.ev, .port, .recov] s t := by
  have e := exec_probationEnd hr hs hd ht false
  rw [if_neg Bool.false_ne_true] at e
  have h0 := SameOutside.set_recov s { s.recov with hoDescFail := true }
  have h1 := (raise_moves { s with recov := { s.recov with hoDescFail := true } } srcMemErr (memstatWord s.mem)).same
  have hr1 := h1.recov rfl
  generalize raise { s with recov := { s.recov with hoDescFail := true } } srcMemErr (memstatWord s.mem) = a at e h1 hr1
  have h2 := (setStage_moves a .empty).same
  have hrec := (setStage_recov a .empty).trans (by rw [hr1])
  generalize setStage a .empty = t at e h2 hrec
  have hall : SameOutside [.ev, .port, .recov] s t := h2.step rfl (h1.step rfl (h0.widen rfl))
  exact ⟨t, e, congrArg RecovState.stage hrec, congrArg RecovState.hoDescFail hrec, by rw [hall.boot rfl, hd], hall⟩

/-! ## The statement's parts -/

theorem SameOutside.set_boot_recov (s : State) (x : BootState) (y : RecovState) :
    SameOutside [.boot, .recov] s { s with boot := x, recov := y } :=
  (SameOutside.set_recov { s with boot := x } y).step rfl ((SameOutside.set_boot s x).widen rfl)

theorem SameOutside.set_recov_triad (s : State) (x : RecovState) (y : TriadState) :
    SameOutside [.recov, .triad] s { s with recov := x, triad := y } :=
  (SameOutside.set_triad { s with recov := x } y).step rfl ((SameOutside.set_recov s x).widen rfl)

section Outcome

variable {s : State} {h : Handover} (hh : s.recov.handover = some h) (hx : h.exchanged = true) (hn : NothingWaits s)

include hh hx hn

theorem executiveResume_ends (hc : h.checked = true) :
    Completes .executiveResume s fun t =>
      t.recov.handover = none ∧ t.recov.stage = .probation ∧ t.recov.hoReversed = false ∧ t.recov.probation = s.tick ∧
      t.recov.hoLastUs = satNat 16 (s.since h.start / 10) ∧ t.boot.exec = slotAt (sread 0 s.recov.slotImage) 0 false ∧
      t.m.mode = s.m.mode ∧ SameOutside [.m, .boot, .ch, .ev, .img, .port, .recov, .rul] s t := by
  have h0 : SameOutside [.boot, .recov, .rul] s (handedOver s h) :=
    by
    unfold handedOver
    dsimp only
    have h1 : SameOutside [.recov, .rul] s (handoverOver s h false 0) := handoverOver_parts ..
    have h2 : SameOutside [.boot, .recov, .rul] s (handoverOver s h false 0) := h1.widen rfl
    generalize handoverOver s h false 0 = a at h2 ⊢
    exact (SameOutside.set_boot_recov a _ _).step rfl h2
  have hq : NothingWaits (handedOver s h) := ⟨hn.words, hn.reports, hn.requests, hn.frames, hn.dogs⟩
  obtain ⟨hr, hm, h1⟩ := resumeWith_quiet hq .probation
  refine ⟨_, exec_executiveResume hh hx hc, by rw [hr]; rfl, by rw [hr], by rw [hr]; rfl, by rw [hr]; rfl, by rw [hr]; rfl, ?_, hm,
    h1.step rfl (h0.widen rfl)⟩
  rw [h1.boot rfl]
  rfl

variable {why : BitVec 3} (hw : reverseCase s h why = true) {check : StartCheck}

include hw

theorem handoverReverse_ends (hc : checkPassed check s.straps.lanemode = true) :
    Completes (.handoverReverse why check) s fun t =>
      t.recov.handover = none ∧ t.recov.stage = .invalid ∧ t.recov.hoReversed = true ∧ t.recov.hoWhy = why ∧
      t.m.mode = s.m.mode ∧ SameOutside [.m, .ch, .ev, .img, .port, .recov, .rul, .triad] s t := by
  have e := exec_handoverReverse hh hx hw check
  rw [if_pos hc] at e
  have hq : NothingWaits (handedBack s h why check) := ⟨hn.words, hn.reports, hn.requests, hn.frames, hn.dogs⟩
  obtain ⟨hr, hm, h1⟩ := resumeWith_quiet hq .invalid
  exact ⟨_, e, by rw [hr]; rfl, by rw [hr], by rw [hr]; rfl, by rw [hr]; rfl, hm, h1.step rfl ((handedBack_same ..).widen rfl)⟩

omit hn in
theorem handoverReverse_dead (hc : checkPassed check s.straps.lanemode = false) :
    Completes (.handoverReverse why check) s fun t =>
      t.recov.handover = none ∧ t.recov.stage = .invalid ∧ t.m.mode = .load ∧ t.m.run = .noExec ∧ t.m.prev = s.m.mode ∧
      t.pins.hbeat = false ∧ t.triad.safeWhy = 7 ∧ t.bw.stopped = true ∧
      (∀ k : PortIx, t.port[k].state = .down ∨ t.port[k].state = .disabled) := by
  have e := exec_handoverReverse hh hx hw check
  rw [if_neg (by rw [hc]; decide)] at e
  obtain ⟨hr, hm, hrun, hprev, hb, hwhy, hst, hp⟩ := reverseDead_parts (handedBack s h why check)
  exact ⟨_, e, by rw [hr]; rfl, by rw [hr], hm, hrun, hprev, hb, hwhy, hst, hp⟩

end Outcome

theorem handoverStart_begins {s : State} (hr : s.execRuns = true) (hc : s.cycleDone = true) (hs : s.recov.stage = .switching)
    (hk : s.recov.stageKind = 1) (hd : s.recov.switchDue = true) (hl : s.recov.reload = none) :
    Completes .handoverStart s fun t =>
      t.execRuns = false ∧ t.recov.hoCount = satInc s.recov.hoCount ∧ t.recov.switchDue = false ∧
      (∃ h : Handover, t.recov.handover = some h ∧ h.start = s.tick ∧ h.exchanged = false) ∧ SameOutside [.recov] s t := by
  refine ⟨_, congrArg Host.Outcome.next (if_neg ?_), ?_, rfl, rfl, ⟨_, rfl, rfl, rfl⟩, SameOutside.set_recov _ _⟩
  · rw [hr, hc, hs, hk, hd, hl]
    decide
  · exact (congrArg (· && !s.triad.halted) (Bool.and_false _)).trans (Bool.false_and _)

theorem exchangeComplete_exchanges {s : State} {h : Handover} (hh : s.recov.handover = some h) (hx : h.exchanged = false) (check : StartCheck) :
    Completes (.exchangeComplete check) s fun t =>
      (∀ k, k < exchangeLen s → t.stageAt k = sread stagingEmpty s.recov.slotImage k ∧
        sread stagingEmpty t.recov.slotImage k = s.stageAt k) ∧
      (∀ k, exchangeLen s ≤ k → t.stageAt k = s.stageAt k ∧
        sread stagingEmpty t.recov.slotImage k = sread stagingEmpty s.recov.slotImage k) ∧
      t.recov.handover = some { h with exchanged := true, checked := checkPassed check s.straps.lanemode } ∧
      (checkFailed check s.straps.lanemode = none → t.triad.tests = s.triad.tests + 1 ∧ t.triad.fault = s.triad.fault) ∧
      (∀ p, checkFailed check s.straps.lanemode = some p →
        t.triad.tests = s.triad.tests ∧ t.triad.fault = true ∧ t.triad.pattern = BitVec.ofNat 3 p.val) ∧
      SameOutside [.recov, .triad] s t := by
  have hf := startCheckRun_failed s.triad s.straps.lanemode check
  have hr := exchange_reads s
  refine ⟨{ exchange s with
    recov := { (exchange s).recov with handover := some { h with exchanged := true, checked := checkPassed check s.straps.lanemode } }
    triad := startCheckRun s.triad s.straps.lanemode check }, ?_, fun k hk => ?_, fun k hk => ?_, rfl, hf.1, hf.2, ?_⟩
  · refine congrArg Host.Outcome.next ?_
    rw [hh]
    exact if_neg (by rw [hx]; decide)
  · exact ⟨(hr k).1.trans (if_pos hk), (hr k).2.trans (if_pos hk)⟩
  · exact ⟨(hr k).1.trans (if_neg (Nat.not_lt.mpr hk)), (hr k).2.trans (if_neg (Nat.not_lt.mpr hk))⟩
  · have h1 : SameOutside [.recov, .triad] s (exchange s) := (exchange_moves s).same.widen rfl
    exact (SameOutside.set_recov_triad _ _ _).step rfl h1

/-- Settles O55: the handover's steps, each with its guard's branch; what the resumed executive takes is empty by hypothesis, so that only the
image is shown anew. -/
theorem handoverStepsAreTaken : Obligations.HandoverStepsAreTaken := by
  unfold Obligations.HandoverStepsAreTaken
  refine fun s => ⟨handoverStart_begins, fun h check hh hx _ => exchangeComplete_exchanges hh hx check,
    fun h hh hx hdef hb hp hheld hw he => ?_, fun h why check hh hw => ?_, fun d hr hs hd ht =>
      ⟨probationEnd_written hr hs hd ht, probationEnd_failed hr hs hd ht⟩⟩
  · have hn : NothingWaits s := ⟨he, hb, hp, hheld, hw⟩
    exact ⟨executiveResume_ends hh hx hn, fun why check hc => ⟨handoverReverse_ends hh hx hn hc, handoverReverse_dead hh hx hc⟩⟩
  · refine congrArg Host.Outcome.next ?_
    rw [hh]
    exact if_pos (by rw [hw]; decide)

end Sys2Proof.Machine
end

section
/-!
Replacement of the field sequencer microcode (15 R430–R434).
-/
namespace Sys2Proof.Machine

/-! ## The frames of a microcode load -/

/-- The retransmitted frames that the logic→field lane has taken and the field die has not accepted, in order. -/
def sentFrames (s : State) : List L2F := s.bw.unacked.map (·.body) ++ s.bw.waiting

/-- The lane takes a frame other than a COMMAND: at once while a place is free, and behind those that wait otherwise. -/
structure LaneReady (s : State) : Prop where
  unblocked : s.triad.blocked = false
  going : s.bw.stopped = false
  inOrder : s.bw.unacked.length < 16 → s.bw.waiting = []

theorem canSend_frame {s : State} {b : L2F} (hg : s.bw.stopped = false) (hb : b.isCommand = false) : canSend s b = true := by
  unfold canSend
  rw [hg]
  cases b with
  | command acts target => exact Bool.noConfusion hb
  | _ => rfl

theorem bwSend_ready {s : State} {b : L2F} (hr : LaneReady s) (hb : b.isCommand = false) :
    LaneReady (bwSend s b) ∧ sentFrames (bwSend s b) = sentFrames s ++ [b] := by
  obtain ⟨hbl, hg, ho⟩ := hr
  unfold bwSend
  rw [if_neg (by rw [hbl]; decide), if_neg (by rw [hb, Bool.and_false]; decide), canSend_frame hg hb]
  by_cases hu : s.bw.unacked.length < 16
  · rw [ho hu, if_pos (by rw [decide_eq_true hu]; rfl)]
    refine ⟨⟨hbl, hg, fun _ => ho hu⟩, ?_⟩
    unfold sentFrames
    dsimp only
    rw [ho hu, List.map_append, List.append_nil, List.append_nil]
    rfl
  · rw [decide_eq_false hu, Bool.false_and, Bool.false_and, if_neg Bool.false_ne_true]
    exact ⟨⟨hbl, hg, fun h => absurd h hu⟩, (List.append_assoc ..).symm⟩

theorem foldl_bwSend_ready (l : List Nat) {s : State} (hr : LaneReady s) :
    LaneReady (l.foldl (fun a i => bwSend a (.loadBody i)) s) ∧
    sentFrames (l.foldl (fun a i => bwSend a (.loadBody i)) s) = sentFrames s ++ l.map .loadBody := by
  induction l generalizing s with
  | nil => exact ⟨hr, (List.append_nil _).symm⟩
  | cons i l ih =>
    obtain ⟨h1, e1⟩ := bwSend_ready hr (b := .loadBody i) rfl
    obtain ⟨h2, e2⟩ := ih h1
    exact ⟨h2, by rw [List.foldl_cons, e2, e1, List.append_assoc]; rfl⟩

/-- A load's frames are taken in order: opening, bodies of 48 bytes, closing (15 R431). -/
theorem sendUcode_frames {s : State} (hr : LaneReady s) (h : SlotHeader) :
    sentFrames (sendUcode s h) =
      sentFrames s ++ (.loadOpen :: (List.range ((h.length + 47) / 48)).map .loadBody ++ [.loadClose h.version h.bodyCrc]) := by
  obtain ⟨h1, e1⟩ := bwSend_ready hr (b := .loadOpen) rfl
  obtain ⟨h2, e2⟩ := foldl_bwSend_ready (List.range ((h.length + 47) / 48)) h1
  obtain ⟨-, e3⟩ := bwSend_ready h2 (b := .loadClose h.version h.bodyCrc) rfl
  refine e3.trans ?_
  rw [e2, e1]
  simp only [List.append_assoc, List.cons_append, List.nil_append]

/-! ## A reload begins -/

/-- The machine in which a reload has begun: its hold runs from this tick. -/
def reloadBegun (s : State) (h : SlotHeader) (reinit : Bool) : State :=
  { s with recov := { s.recov with
    reload := some { start := s.tick, reinit := reinit, hdr := some h, resent := false, fellBack := false, failed := false }
    ucCount := satInc s.recov.ucCount, ucResent := false, ucFellBack := false, laneWait := false
    switchDue := s.recov.switchDue && reinit } }

section Start

variable {s : State} (hr : s.execRuns = true) (hl : s.recov.reload = none) (hs : s.recov.stage = .switching) (hk : s.recov.stageKind = 2)
  (hd : s.recov.switchDue = true)

include hs hk hd in
theorem reloadDue_switching : reloadDue s = true := by
  unfold reloadDue
  rw [hs, hk, hd]
  rfl

include hr hl hs hk hd

theorem reloadStart_waits (hu : s.bw.allUp = false) :
    Completes .reloadStart s fun t => t.recov = { s.recov with laneWait := true } ∧ SameOutside [.recov] s t := by
  refine ⟨{ s with recov := { s.recov with laneWait := true } }, congrArg Host.Outcome.next ((if_neg ?_).trans (if_pos ?_)), rfl,
    SameOutside.set_recov _ _⟩
  · rw [hr, hl, reloadDue_switching hs hk hd, Bool.or_true]
    decide
  · rw [hu]
    rfl

theorem exec_reloadStart {h : SlotHeader} (hu : s.bw.allUp = true) (hst : s.bw.stopped = false) (hf : s.bw.reloadFirst = false)
    (hc : s.cycleDone = true) (hw : s.recov.laneWait = false ∨ atBoundary s = true) (hh : slotAt s.stageAt 0 true = some h) :
    exec .reloadStart s = .next (sendUcode (reloadBegun s h false) h) := by
  have hre : reinitReload s = false := by
    unfold reinitReload
    rw [hf]
    rfl
  have ht : reloadTime s = true := by
    unfold reloadTime
    rw [hc]
    rcases hw with hw | hw <;> rw [hw]
    · rfl
    · exact (Bool.true_and _).trans (Bool.or_true _)
  refine congrArg Host.Outcome.next ?_
  dsimp only
  rw [hre, if_neg (by rw [hr, hl, reloadDue_switching hs hk hd]; decide), if_neg (by rw [hu, hst]; decide), if_neg (by rw [ht]; decide)]
  have e : stagedUcode s = some h := hh
  simp only [Bool.false_eq_true, if_false, e]
  rfl

theorem reloadStart_begins {h : SlotHeader} (hu : s.bw.allUp = true) (hst : s.bw.stopped = false) (hf : s.bw.reloadFirst = false)
    (hb : s.triad.blocked = false) (hwait : s.bw.waiting = []) (hc : s.cycleDone = true)
    (hw : s.recov.laneWait = false ∨ atBoundary s = true) (hh : slotAt s.stageAt 0 true = some h) :
    Completes .reloadStart s fun t =>
      t.recov.reload = some ⟨s.tick, false, some h, false, false, false⟩ ∧
      t.recov.ucCount = satInc s.recov.ucCount ∧ t.recov.switchDue = false ∧ t.recov.ucResent = false ∧ t.recov.ucFellBack = false ∧
      t.bw.unacked.map (·.body) ++ t.bw.waiting = s.bw.unacked.map (·.body) ++
        (.loadOpen :: (List.range ((h.length + 47) / 48)).map .loadBody ++ [.loadClose h.version h.bodyCrc]) ∧
      SameOutside [.bw, .recov] s t := by
  have e := exec_reloadStart hr hl hs hk hd hu hst hf hc hw hh
  have hready : LaneReady (reloadBegun s h false) := ⟨hb, hst, fun _ => hwait⟩
  have hsent := sendUcode_frames hready h
  have h1 : SameOutside [.bw, .recov] s (reloadBegun s h false) := (SameOutside.set_recov s _).widen rfl
  have h2 := (sendUcode_moves (reloadBegun s h false) h).same
  have hrec : (sendUcode (reloadBegun s h false) h).recov = (reloadBegun s h false).recov := h2.recov rfl
  generalize sendUcode (reloadBegun s h false) h = t at e hsent h2 hrec
  refine ⟨t, e, by rw [hrec]; rfl, by rw [hrec]; rfl, ?_, by rw [hrec]; rfl, by rw [hrec]; rfl, hsent.trans ?_, h2.step rfl h1⟩
  · rw [hrec]
    exact Bool.and_false _
  · have hs0 : sentFrames (reloadBegun s h false) = s.bw.unacked.map (·.body) ++ s.bw.waiting := rfl
    rw [hs0, hwait, List.append_nil]

end Start

/-! ## A body fails its check -/

section BodyFail

variable {s : State} {x : Reload} (hx : s.recov.reload = some x) (hr : s.execRuns = true) (hf : x.failed = false)

/-- The field die is without microcode while its load goes on. -/
def ucodeLost (s : State) : State := { s with fd := { s.fd with ucode := none } }

theorem ucodeLost_same (s : State) : SameOutside [.fd] s (ucodeLost s) := SameOutside.set_fd _ _

include hx hr hf

theorem exec_reloadBodyFail_first {h : SlotHeader} (hh : x.hdr = some h) (hn : x.resent = false) :
    exec .reloadBodyFail s = .next (sendUcode { ucodeLost s with
      recov := { s.recov with reload := some { x with resent := true }, ucResent := true } } h) := by
  refine congrArg Host.Outcome.next ?_
  rw [hx]
  dsimp only
  rw [if_neg (by rw [hr, hf]; decide), if_pos (by rw [hn]; rfl), hh]
  rfl

theorem reloadBodyFail_resends {h : SlotHeader} (hh : x.hdr = some h) (hn : x.resent = false) :
    Completes .reloadBodyFail s fun t =>
      t.recov.reload = some { x with resent := true } ∧ t.recov.ucResent = true ∧ t.fd.ucode = none ∧ SameOutside [.bw, .fd, .recov] s t := by
  have e := exec_reloadBodyFail_first hx hr hf hh hn
  have h0 : SameOutside [.bw, .fd, .recov] s (ucodeLost s) := (ucodeLost_same s).widen rfl
  have h1 := (SameOutside.set_recov (ucodeLost s) { s.recov with reload := some { x with resent := true }, ucResent := true }).step rfl h0
  have h2 := (sendUcode_moves { ucodeLost s with recov := { s.recov with reload := some { x with resent := true }, ucResent := true } } h).same
  have hrec := h2.recov rfl
  have hfd := h2.fd rfl
  generalize sendUcode { ucodeLost s with recov := { s.recov with reload := some { x with resent := true }, ucResent := true } } h = t
    at e h2 hrec hfd
  exact ⟨t, e, by rw [hrec], by rw [hrec], by rw [hfd]; rfl, h2.step rfl h1⟩

/-- The machine in which the named slot's microcode takes the staged one's place (15 R432). -/
def fallenBack (s : State) (x : Reload) (u : SlotHeader) : State :=
  { ucodeLost s with recov := { s.recov with reload := some { x with fellBack := true, hdr := some u }, ucFellBack := true } }

theorem exec_reloadBodyFail_second {u : SlotHeader} (hn : x.resent = true) (hb : x.fellBack = false) (hi : x.reinit = false)
    (hs : s.recov.stage = .switching) (hu : namedUcode s = some u) :
    exec .reloadBodyFail s = .next (sendUcode (setStage (fallenBack s x u) .invalid) u) := by
  refine congrArg Host.Outcome.next ?_
  rw [hx]
  dsimp only
  rw [if_neg (by rw [hr, hf]; decide), if_neg (by rw [hn]; decide), if_pos (by rw [hb]; rfl), hu, if_pos (by rw [hs, hi]; rfl)]
  rfl

theorem reloadBodyFail_fallsBack {u : SlotHeader} (hn : x.resent = true) (hb : x.fellBack = false) (hi : x.reinit = false)
    (hs : s.recov.stage = .switching) (hu : namedUcode s = some u) :
    Completes .reloadBodyFail s fun t =>
      t.recov.reload = some { x with fellBack := true, hdr := some u } ∧ t.recov.ucFellBack = true ∧ t.recov.stage = .invalid ∧
      t.fd.ucode = none ∧ SameOutside [.bw, .ev, .fd, .port, .recov] s t := by
  have e := exec_reloadBodyFail_second hx hr hf hn hb hi hs hu
  have h0 : SameOutside [.bw, .ev, .fd, .port, .recov] s (ucodeLost s) := (ucodeLost_same s).widen rfl
  have h1 : SameOutside [.bw, .ev, .fd, .port, .recov] s (fallenBack s x u) := (SameOutside.set_recov (ucodeLost s) _).step rfl h0
  have h2 := (setStage_moves (fallenBack s x u) .invalid).same
  have hrec2 := setStage_recov (fallenBack s x u) .invalid
  have hfd2 : (setStage (fallenBack s x u) .invalid).fd.ucode = none := by
    rw [h2.fd rfl]
    rfl
  generalize setStage (fallenBack s x u) .invalid = a at e h2 hrec2 hfd2
  have h3 := (sendUcode_moves a u).same
  have hrec := (h3.recov rfl).trans hrec2
  have hfd := h3.fd rfl
  generalize sendUcode a u = t at e h3 hrec hfd
  exact ⟨t, e, by rw [hrec]; rfl, by rw [hrec]; rfl, by rw [hrec], by rw [hfd, hfd2], h3.step rfl (h2.step rfl h1)⟩

theorem reloadBodyFail_fails (hn : x.resent = true) (hb : x.fellBack = true) (hs : s.fd.slack = true) (he : s.fd.expired = false) :
    Completes .reloadBodyFail s fun t =>
      t.recov.reload = some { x with failed := true } ∧ t.fd.ucode = none ∧ SameOutside [.fd, .recov] s t := by
  have h0 : SameOutside [.fd, .recov] s (ucodeLost s) := (ucodeLost_same s).widen rfl
  refine ⟨{ ucodeLost s with recov := { s.recov with reload := some { x with failed := true } } }, congrArg Host.Outcome.next ?_, rfl, rfl,
    (SameOutside.set_recov (ucodeLost s) _).step rfl h0⟩
  rw [hx]
  dsimp only
  rw [if_neg (by rw [hr, hf]; decide), if_neg (by rw [hn]; decide), if_neg (by rw [hb]; decide)]
  exact if_pos (by rw [hs, he]; rfl)

end BodyFail

/-! ## The field die accepts the microcode -/

/-- The machine at the end of a reload's hold, with the identity presented. -/
def ucodeTaken (s : State) (x : Reload) (h : SlotHeader) : State := reloadOver { s with boot := { s.boot with ucode := some h } } x

theorem exec_reloadComplete {s : State} {x : Reload} {h : SlotHeader} (hx : s.recov.reload = some x) (hh : x.hdr = some h)
    (hr : s.execRuns = true) (hf : x.failed = false) (hi : x.reinit = false) (hb : x.fellBack = false) (hl : loadSent s = true)
    (hu : s.fd.ucode = some (h.version, h.bodyCrc)) (hs : s.fd.slack = false) (ht : s.triad.blocked = false) (hsafe : s.fd.safeHeld = false)
    (written : Bool) :
    exec (.reloadComplete written) s = .next (takeDue (commitUcode (endHold (ucodeTaken s x h)) written)) := by
  refine congrArg Host.Outcome.next ?_
  rw [hx]
  dsimp only
  rw [hh]
  dsimp only
  have hs1 : (ucodeTaken s x h).fd.slack = false := hs
  have hu' : decide (s.fd.ucode ≠ some (h.version, h.bodyCrc)) = false := decide_eq_false fun hne => hne hu
  rw [if_neg (by rw [hr, hf, hl, hu', ht, hsafe]; decide)]
  change takeDue (if (x.reinit || x.fellBack) = true
    then (if ((ucodeTaken s x h).fd.slack && !(ucodeTaken s x h).fd.expired) = true then _ else if (ucodeTaken s x h).fd.slack = true then _ else _)
    else commitUcode (if ((ucodeTaken s x h).fd.slack && !(ucodeTaken s x h).fd.expired) = true then _
      else if (ucodeTaken s x h).fd.slack = true then _ else endHold (ucodeTaken s x h)) written) = _
  rw [hs1, hi, hb]
  rfl

theorem reloadComplete_ends {s : State} {x : Reload} {h : SlotHeader} (hx : s.recov.reload = some x) (hh : x.hdr = some h)
    (hr : s.execRuns = true) (hf : x.failed = false) (hi : x.reinit = false) (hb : x.fellBack = false) (hl : loadSent s = true)
    (hu : s.fd.ucode = some (h.version, h.bodyCrc)) (hs : s.fd.slack = false) (ht : s.triad.blocked = false) (hsafe : s.fd.safeHeld = false)
    {d : BootDesc} (hd : s.boot.desc = some d) (hw : s.recov.wdDue = []) :
    Completes (.reloadComplete true) s fun t =>
      t.recov.reload = none ∧ t.recov.ucLastUs = satNat 16 (s.since x.start / 10) ∧ t.boot.ucode = some h ∧ t.recov.stage = .empty ∧
      t.boot.desc = some { d with copy1 := !d.copy1, seq := d.seq + 1, ucodeSlot := !d.ucodeSlot } := by
  have e := exec_reloadComplete hx hh hr hf hi hb hl hu hs ht hsafe true
  have h1 := (endHold_moves (ucodeTaken s x h)).same
  have hrec1 : (endHold (ucodeTaken s x h)).recov = { s.recov with reload := none, ucLastUs := satNat 16 (s.since x.start / 10) } := h1.recov rfl
  have hboot1 : (endHold (ucodeTaken s x h)).boot = { s.boot with ucode := some h } := h1.boot rfl
  generalize endHold (ucodeTaken s x h) = a at e hrec1 hboot1
  have hda : a.boot.desc = some d := by
    rw [hboot1]
    exact hd
  have ec : commitUcode a true = setStage (writeDesc a true (!d.ucodeSlot)) .empty := by
    unfold commitUcode
    rw [hda]
    rfl
  have hboot2 := writeDesc_desc hda true (!d.ucodeSlot)
  have hrec2 := (writeDesc_moves a true (!d.ucodeSlot)).same.recov rfl
  rw [ec] at e
  generalize writeDesc a true (!d.ucodeSlot) = b at e hboot2 hrec2
  have hrec3 := setStage_recov b .empty
  have hboot3 := ((setStage_moves b .empty).same.boot rfl).trans hboot2
  rw [hrec2, hrec1] at hrec3
  generalize setStage b .empty = c at e hboot3 hrec3
  have hdue : c.recov.wdDue = [] := by
    rw [hrec3]
    exact hw
  rw [takeDue_none hdue] at e
  refine ⟨_, e, by rw [hrec3], by rw [hrec3], ?_, by rw [hrec3], ?_⟩
  · rw [hboot3, hboot1]
  · rw [hboot3]
    rfl

/-- Settles O56: each step of a reload by the branch its hypotheses choose; the frames are those the lane takes in order. -/
theorem microcodeReload : Obligations.MicrocodeReload := by
  unfold Obligations.MicrocodeReload
  refine fun s => ⟨fun hr hl hu hs hk hd => reloadStart_waits hr hl hs hk hd hu,
    fun h hr hl hu hst hf hb hwait hc hw hs hk hd hh => reloadStart_begins hr hl hs hk hd hu hst hf hb hwait hc hw hh, fun x h hx hh hr hf =>
      ⟨reloadBodyFail_resends hx hr hf hh, fun u => reloadBodyFail_fallsBack hx hr hf, reloadBodyFail_fails hx hr hf,
        fun d hi hb hl hu hs ht hsafe => reloadComplete_ends hx hh hr hf hi hb hl hu hs ht hsafe⟩⟩

end Sys2Proof.Machine
end

section
/-!
The host port's frames (16 R438–R452).
-/
namespace Sys2Proof.Machine

theorem SameOutside.set_free_host (s : State) (x : Nat) (y : HostPort) : SameOutside [.free, .host] s { s with free := x, host := y } :=
  (SameOutside.set_host { s with free := x } y).step rfl ((SameOutside.set_free s x).widen rfl)

/-! ## A frame seen, and one that is counted -/

theorem frameStart_whole {s : State} (hp : portReset s = false) (hx : s.extestActs = false) {cycles : Nat} (hc : 8 ≤ cycles) (f : State → State) :
    frameStart s cycles f = f (endRead s) := by
  unfold frameStart
  dsimp only
  rw [hp, hx, decide_eq_false (by omega), if_neg (by decide), if_neg (Nat.not_lt.mpr hc)]

theorem hostError_host (s : State) (code : BitVec 4) (cmd : Byte) (addr : BitVec 24) :
    (hostError s code cmd addr).host =
      { countHost s.host code with discards := (countHost s.host code).discards + 1, lastErr := code, lastCmd := cmd, lastAddr := addr } := by
  unfold hostError
  exact (raise_moves ..).same.host rfl

theorem countHost_discards (h : HostPort) (code : BitVec 4) : (countHost h code).discards = h.discards := by
  unfold countHost
  split <;> rfl

theorem hostError_counted {s a : State} (h : SameOutside [.host, .ev, .port] s a) (hd : a.host.discards = s.host.discards)
    (code : BitVec 4) (cmd : Byte) (addr : BitVec 24) : HostCounted s (hostError a code cmd addr) code cmd addr := by
  have e := hostError_host a code cmd addr
  refine ⟨?_, congrArg HostPort.lastErr e, congrArg HostPort.lastCmd e, congrArg HostPort.lastAddr e, (hostError_moves ..).same.step rfl h⟩
  rw [e, ← hd, ← countHost_discards a.host code]

/-- A frame whose rule is checked when no read is in progress is counted as of the state it came in. -/
theorem hostError_endRead (s : State) (code : BitVec 4) (cmd : Byte) (addr : BitVec 24) :
    HostCounted s (hostError (endRead s) code cmd addr) code cmd addr :=
  hostError_counted ((endRead_moves s).same.widen rfl) rfl code cmd addr

/-! ## Native reads -/

/-- The five native reads, each with its command byte and its address lanes. -/
def nativeReads (f : HostFrame) : List (Instr × Byte × Nat) :=
  [(Instr.read f, 0x0B#8, 1), (.readDualData f, 0x3B#8, 1), (.readDualAddressData f, 0xBB#8, 2), (.readQuadData f, 0x6B#8, 1),
    (.readQuadAddressData f, 0xEB#8, 4)]

theorem exec_nativeRead {f : HostFrame} {x : Instr × Byte × Nat} (hx : x ∈ nativeReads f) (s : State) :
    exec x.1 s = .next (readFrame s x.2.1 x.2.2 f) := by
  simp only [nativeReads, List.mem_cons, List.not_mem_nil, or_false] at hx
  rcases hx with rfl | rfl | rfl | rfl | rfl <;> rfl

section Read

variable {s : State} (hp : portReset s = false) (hx : s.extestActs = false) {f : HostFrame} {lanes : Nat} (hc : 8 + 40 / lanes ≤ f.cycles)
  (cmd : Byte)

include hp hx hc

theorem readFrame_captured (hl : s.straps.hcompat = false) (hr : s.execRuns = true) (hs : SpanOk f) :
    ReadCaptured cmd f s (readFrame s cmd lanes f) := by
  obtain ⟨h1, h2, h3⟩ := hs
  unfold readFrame
  rw [frameStart_whole hp hx (le_trans (Nat.le_add_right 8 _) hc)]
  have hl' : (endRead s).straps.hcompat = false := hl
  have hr' : (endRead s).execRuns = true := hr
  rw [hl', hr', if_neg Bool.false_ne_true, if_neg (Nat.not_lt.mpr hc), decide_eq_false (by omega), decide_eq_false (by omega),
    if_neg (by decide), if_neg (by unfold hostEnd; omega), if_pos rfl]
  exact ⟨rfl, rfl, (SameOutside.set_free_host (endRead s) _ _).step rfl ((endRead_moves s).same.widen rfl)⟩

theorem readFrame_length (hl : s.straps.hcompat = false) (hn : f.len = 0 ∨ 4096 < f.len) :
    readFrame s cmd lanes f = hostError ((endRead s).modHost fun h => { h with reply := .fill }) 1 cmd f.addr := by
  have hl' : (endRead s).straps.hcompat = false := hl
  unfold readFrame
  rw [frameStart_whole hp hx (le_trans (Nat.le_add_right 8 _) hc), hl', if_neg Bool.false_ne_true, if_neg (Nat.not_lt.mpr hc), if_pos]
  rcases hn with h | h <;> rw [decide_eq_true h]
  · rfl
  · exact Bool.or_true _

theorem readFrame_span (hl : s.straps.hcompat = false) (h1 : 1 ≤ f.len) (h2 : f.len ≤ 4096) (h3 : 0x1000000 < f.addr.toNat + f.len) :
    readFrame s cmd lanes f = hostError ((endRead s).modHost fun h => { h with reply := .fill }) 7 cmd f.addr := by
  have hl' : (endRead s).straps.hcompat = false := hl
  unfold readFrame
  rw [frameStart_whole hp hx (le_trans (Nat.le_add_right 8 _) hc), hl', if_neg Bool.false_ne_true, if_neg (Nat.not_lt.mpr hc),
    decide_eq_false (by omega), decide_eq_false (by omega), if_neg (by decide)]
  exact if_pos h3

theorem readFrame_legacy (hl : s.straps.hcompat = true) : readFrame s cmd lanes f = hostError (endRead s) 8 cmd 0 := by
  have hl' : (endRead s).straps.hcompat = true := hl
  unfold readFrame
  rw [frameStart_whole hp hx (le_trans (Nat.le_add_right 8 _) hc), hl', if_pos rfl]
  rfl

omit hp hx hc in
theorem modHost_counted (s : State) (cmd : Byte) (code : BitVec 4) (addr : BitVec 24) :
    HostCounted s (hostError ((endRead s).modHost fun h => { h with reply := .fill }) code cmd addr) code cmd addr :=
  hostError_counted (a := (endRead s).modHost fun h => { h with reply := .fill })
    ((SameOutside.set_host (endRead s) { (endRead s).host with reply := .fill }).step rfl ((endRead_moves s).same.widen rfl)) rfl code cmd addr

end Read

/-! ## FRESH of the words clocked out -/

/-- Host address of word 1 of path `p`'s result block. -/
def resultWord (p : PathIx) : Nat := 0x420004 + 16 * p.val

/-- Path `p`'s state when its result numbered `q` has been clocked out (16 R442). -/
def readOut (x : PathState) (q : W16) : PathState := if x.res.seq = q then { x with res := { x.res with fresh := false } } else x

theorem clearFresh_path (s : State) (a : Nat) (w : W32) (p : PathIx) :
    (clearFresh s a w).conv.path[p] = if a = resultWord p then readOut s.conv.path[p] (field w 16 16) else s.conv.path[p] := by
  have hp := p.isLt
  unfold clearFresh resultWord
  dsimp only
  by_cases hg : a < 0x420004 ∨ 0x420380 ≤ a ∨ (a - 0x420000) % 16 ≠ 4
  · rw [if_pos (by simpa only [Bool.or_eq_true, decide_eq_true_eq, or_assoc] using hg), if_neg (by omega)]
  · rw [if_neg (by simpa only [Bool.or_eq_true, decide_eq_true_eq, or_assoc] using hg)]
    by_cases hr : a - 0x420000 < 0x200
    · rw [if_pos hr]
      refine (modAt_get _ (pathOf ((a - 0x420000) / 16)) p _).trans ?_
      by_cases hq : p = pathOf ((a - 0x420000) / 16)
      · have hv : p.val = (a - 0x420000) / 16 % 32 := congrArg Fin.val hq
        rw [if_pos hq, if_pos (by omega), ← hq]
        unfold readOut clearRec
        split <;> rfl
      · rw [if_neg hq, if_neg]
        intro h
        exact hq (Fin.ext (show p.val = (a - 0x420000) / 16 % 32 by omega))
    · rw [if_neg hr, if_neg (by omega)]
      split <;> rfl

theorem natLE_high {q : List Byte} (h : q.length = 4) : natLE q / 65536 = natLE (q.drop 2) := by
  match q, h with
  | [a, b, c, d], _ =>
    have ha := a.isLt
    have hb := b.isLt
    simp only [natLE, List.drop_succ_cons, List.drop_zero]
    omega

theorem field_high16 (n : Nat) : field (BitVec.ofNat 32 n) 16 16 = BitVec.ofNat 16 (n / 65536) := by
  refine BitVec.eq_of_toNat_eq ?_
  unfold field
  rw [BitVec.extractLsb'_toNat, BitVec.toNat_ofNat, BitVec.toNat_ofNat, Nat.shiftRight_eq_div_pow]
  omega

/-- The number that a result block's word 1, clocked out at index `j`, carries in its high half. -/
theorem seq_of_bytes {bytes : List Byte} {j : Nat} (h : j + 4 ≤ bytes.length) :
    field (BitVec.ofNat 32 (natLE ((bytes.drop j).take 4))) 16 16 = BitVec.ofNat 16 (natLE ((bytes.drop (j + 2)).take 2)) := by
  have hl : ((bytes.drop j).take 4).length = 4 := by
    rw [List.length_take, List.length_drop]
    omega
  rw [field_high16, natLE_high hl, List.drop_take, List.drop_drop]

/-- What the words clocked out from address `a` up to index `n` leave of path `p`'s state. -/
theorem clearRead_prefix (s : State) (a : Nat) (bytes : List Byte) (p : PathIx) (n : Nat) :
    ((List.range n).foldl (fun x i => if ((a + i) % 4 = 0 && i + 4 ≤ bytes.length) = true
      then clearFresh x (a + i) (BitVec.ofNat 32 (natLE ((bytes.drop i).take 4))) else x) s).conv.path[p] =
    if a ≤ resultWord p ∧ resultWord p - a < n ∧ resultWord p - a + 4 ≤ bytes.length
      then readOut s.conv.path[p] (BitVec.ofNat 16 (natLE ((bytes.drop (resultWord p - a + 2)).take 2))) else s.conv.path[p] := by
  induction n with
  | zero => rw [if_neg (by omega)]; rfl
  | succ n ih =>
    rw [List.range_succ, List.foldl_append, List.foldl_cons, List.foldl_nil]
    generalize (List.range n).foldl _ s = x at ih ⊢
    by_cases hw : a + n = resultWord p
    · rw [if_neg (by omega)] at ih
      by_cases hl : n + 4 ≤ bytes.length
      · have h4 : (a + n) % 4 = 0 := by unfold resultWord at hw; omega
        have hn : resultWord p - a = n := by omega
        rw [if_pos (by rw [decide_eq_true h4, decide_eq_true hl]; rfl), clearFresh_path, if_pos hw, if_pos (by omega), ih, hn, seq_of_bytes hl]
      · rw [if_neg (by rw [decide_eq_false hl, Bool.and_false]; decide), if_neg (by omega), ih]
    · have hstep : (if ((a + n) % 4 = 0 && n + 4 ≤ bytes.length) = true
          then clearFresh x (a + n) (BitVec.ofNat 32 (natLE ((bytes.drop n).take 4))) else x).conv.path[p] = x.conv.path[p] := by
        split
        · rw [clearFresh_path, if_neg hw]
        · rfl
      rw [hstep, ih]
      exact if_congr (by omega) rfl rfl

theorem clearRead_path (s : State) (a : Nat) (bytes : List Byte) (p : PathIx) :
    (clearRead s a bytes).conv.path[p] = if a ≤ resultWord p ∧ resultWord p - a + 4 ≤ bytes.length
      then readOut s.conv.path[p] (BitVec.ofNat 16 (natLE ((bytes.drop (resultWord p - a + 2)).take 2))) else s.conv.path[p] := by
  exact (clearRead_prefix s a bytes p bytes.length).trans (if_congr (by omega) rfl rfl)

/-! ## The sync, and the abort -/

section Reading

variable {s : State} {r : PendingRead} (hr : s.host.reading = some r)

include hr

/-- The machine whose read has been answered with its bytes. -/
def readAnswered (s : State) (r : PendingRead) : State := s.modHost fun h => { h with reading := none, reply := .data r.bytes }

omit hr in
theorem readAnswered_same (s : State) (r : PendingRead) : SameOutside [.host] s (readAnswered s r) :=
  SameOutside.set_host s { s.host with reading := none, reply := .data r.bytes }

theorem readSync_data (clocked : Nat) (hb : r.bytes ≠ []) (hl : r.laneError = false) :
    Completes (.readSync clocked false) s fun t =>
      t.host.reading = none ∧ t.host.reply = .data r.bytes ∧
      (∀ p : PathIx, t.conv.path[p] =
        if r.addr.toNat ≤ 0x420004 + 16 * p.val ∧ 0x420008 + 16 * p.val ≤ r.addr.toNat + min clocked r.bytes.length ∧
            s.conv.path[p].res.seq =
              BitVec.ofNat 16 (natLE ((r.bytes.drop (0x420006 + 16 * p.val - r.addr.toNat)).take 2)) then
          { s.conv.path[p] with res := { s.conv.path[p].res with fresh := false } }
        else s.conv.path[p]) ∧ SameOutside [.host, .conv] s t := by
  have e : exec (.readSync clocked false) s = .next (clearRead (readAnswered s r) r.addr.toNat (r.bytes.take clocked)) := by
    refine congrArg Host.Outcome.next ?_
    rw [hr]
    dsimp only
    rw [if_neg (by rwa [List.isEmpty_iff]), hl]
    rfl
  have h1 := (clearRead_moves (readAnswered s r) r.addr.toNat (r.bytes.take clocked)).same
  have hp := clearRead_path (readAnswered s r) r.addr.toNat (r.bytes.take clocked)
  have hh := h1.host rfl
  generalize clearRead (readAnswered s r) r.addr.toNat (r.bytes.take clocked) = t at e h1 hp hh
  refine ⟨t, e, by rw [hh]; rfl, by rw [hh]; rfl, fun p => (hp p).trans ?_, h1.step rfl ((readAnswered_same s r).widen rfl)⟩
  rw [List.length_take]
  unfold resultWord readOut
  by_cases hc : r.addr.toNat ≤ 0x420004 + 16 * p.val ∧ 0x420008 + 16 * p.val ≤ r.addr.toNat + min clocked r.bytes.length
  · have hd : ((r.bytes.take clocked).drop (0x420004 + 16 * p.val - r.addr.toNat + 2)).take 2 =
        (r.bytes.drop (0x420006 + 16 * p.val - r.addr.toNat)).take 2 := by
      rw [List.drop_take, List.take_take, Nat.min_eq_left (by omega)]
      exact congrArg (fun k => (r.bytes.drop k).take 2) (by omega)
    rw [if_pos (by omega), hd]
    exact if_congr ⟨fun h => ⟨hc.1, hc.2, h⟩, fun h => h.2.2⟩ rfl rfl
  · rw [if_neg (by omega), if_neg fun h => hc ⟨h.1, h.2.1⟩]
    rfl

theorem readSync_lane (clocked : Nat) (hb : r.bytes ≠ []) (hc : r.bytes.length ≤ clocked) :
    Completes (.readSync clocked true) s fun t =>
      HostCounted s t 5 r.cmd r.addr ∧ t.host.cLane = satInc s.host.cLane ∧ t.host.reply = .data r.bytes := by
  have e : exec (.readSync clocked true) s = .next (hostError (readAnswered s r) 5 r.cmd r.addr) := by
    refine congrArg Host.Outcome.next ?_
    rw [hr]
    dsimp only
    rw [if_neg (by rwa [List.isEmpty_iff]), Bool.true_or, if_pos rfl, if_neg (Nat.not_lt.mpr hc)]
    rfl
  have hh := hostError_host (readAnswered s r) 5 r.cmd r.addr
  exact ⟨_, e, hostError_counted ((readAnswered_same s r).widen rfl) rfl 5 r.cmd r.addr, by rw [hh]; rfl, by rw [hh]; rfl⟩

theorem readAbort_ends (hl : r.laneError = false) :
    Completes .readAbort s fun t =>
      t.host.reading = none ∧ t.host.reply = .abort ∧ t.host.aborts = satInc s.host.aborts ∧ t.host.discards = s.host.discards ∧
      SameOutside [.host] s t := by
  refine ⟨{ s with host := { s.host with reading := none, reply := .abort, aborts := satInc s.host.aborts } }, congrArg Host.Outcome.next ?_,
    rfl, rfl, rfl, rfl, SameOutside.set_host _ _⟩
  rw [hr]
  exact if_neg (by rw [hl]; decide)

end Reading

/-! ## STATUS, IDENT and codes of no command -/

section Fixed

variable {s : State} (hp : portReset s = false) (hx : s.extestActs = false) {cycles : Nat} (code : Byte) (bytes : State → List Byte)

include hp hx

/-- The machine that answers a frame at its fixed latency. -/
def fixedReply (s : State) (bytes : State → List Byte) : State := (endRead s).modHost fun h => { h with reply := .fixed (bytes (endRead s)) }

omit hp hx in
theorem fixedReply_same (s : State) (bytes : State → List Byte) : SameOutside [.host] s (fixedReply s bytes) :=
  (SameOutside.set_host (endRead s) { (endRead s).host with reply := .fixed (bytes (endRead s)) }).step rfl (endRead_moves s).same

theorem fixedFrame_answers (hc : 8 ≤ cycles) {laneError : Bool}
    (hl : (laneError && 16 + 8 * (bytes (endRead s)).length ≤ cycles) = false) :
    fixedFrame s code cycles laneError bytes = fixedReply s bytes := by
  unfold fixedFrame
  rw [frameStart_whole hp hx hc]
  exact if_neg (by rw [hl]; decide)

theorem fixedFrame_lane (hc : 16 + 8 * (bytes (endRead s)).length ≤ cycles) :
    fixedFrame s code cycles true bytes = hostError (fixedReply s bytes) 5 code 0 := by
  unfold fixedFrame
  rw [frameStart_whole hp hx (by omega)]
  exact if_pos (by rw [decide_eq_true hc]; rfl)

omit hp hx in
theorem fixedReply_counted (s : State) (code : Byte) (bytes : State → List Byte) :
    HostCounted s (hostError (fixedReply s bytes) 5 code 0) 5 code 0 ∧
    (hostError (fixedReply s bytes) 5 code 0).host.cLane = satInc s.host.cLane :=
  ⟨hostError_counted ((fixedReply_same s bytes).widen rfl) rfl 5 code 0, by rw [hostError_host]; rfl⟩

theorem exec_unknownCommand (hc : 8 ≤ cycles) (hk : knownCode s.straps.hcompat code = false) :
    exec (.unknownCommand code cycles) s = .next (hostError (endRead s) 8 code 0) := by
  refine congrArg Host.Outcome.next ((if_neg (by rw [hk]; decide)).trans ?_)
  exact frameStart_whole hp hx hc _

end Fixed

/-! ## Frames accepted, held and refused -/

theorem acceptWrite_carried {s : State} (hr : s.execRuns = true) (hm : s.m.mode ≠ .stop) (c cmd : Byte) (a addr : BitVec 24)
    (ws : List (Nat × W32)) : acceptFrame s (.write c a ws) cmd addr = hostWords (countDone s) ws := by
  have hd : countAccepted s (.write c a ws) = countDone s := if_neg (by rw [decide_eq_false hm]; exact Bool.false_ne_true)
  have hm' : (countDone s).m.mode ≠ .stop := hm
  unfold acceptFrame
  rw [if_pos hr, hd]
  exact if_neg (by rw [decide_eq_false hm']; exact Bool.false_ne_true)

theorem acceptWrite_held {s : State} (hrun : s.m.run = .running) (hr : s.execRuns = false) (hm : s.m.mode ≠ .stop) (c cmd : Byte)
    (a addr : BitVec 24) {ws : List (Nat × W32)} (hroom : s.holdRoom (4 * ws.length) = true) :
    acceptFrame s (.write c a ws) cmd addr = countDone { s with held := s.held ++ [.write c a ws] } := by
  have hm' : (({ s with held := s.held ++ [.write c a ws] } : State)).m.mode ≠ .stop := hm
  unfold acceptFrame
  rw [if_neg (by rw [hr]; exact Bool.false_ne_true), if_neg (not_not.mpr hrun)]
  refine (if_pos hroom).trans ?_
  exact if_neg (by rw [decide_eq_false hm']; exact Bool.false_ne_true)

theorem execRuns_running {s : State} (h : s.m.run ≠ .running) : s.execRuns = false := by
  unfold State.execRuns
  rw [decide_eq_false h, Bool.false_and, Bool.false_and]

theorem acceptFrame_unavailable {s : State} (h : s.m.run ≠ .running) (f : HeldFrame) (cmd : Byte) (addr : BitVec 24) :
    acceptFrame s f cmd addr = hostError s 10 cmd addr := by
  unfold acceptFrame
  rw [if_neg (by rw [execRuns_running h]; exact Bool.false_ne_true), if_pos h]

theorem wordsFrom_length (a : Nat) (bs : List Byte) : (wordsFrom a bs).length = bs.length / 4 := by
  unfold wordsFrom
  rw [List.length_map, List.length_range]

theorem padded_length (n : Nat) (bs : List Byte) : (padded n bs).length = n := by
  unfold padded
  rw [List.length_take, List.length_append, List.length_replicate]
  omega

/-! ## Native writes -/

/-- The three native writes, each with its command byte and its data lanes. -/
def nativeWrites (f : HostFrame) : List (Instr × Byte × Nat) :=
  [(Instr.write f, 0x02#8, 1), (.writeDualData f, 0xA2#8, 2), (.writeQuadData f, 0x32#8, 4)]

section Write

variable {s : State} {f : HostFrame} {lanes : Nat}

theorem exec_nativeWrite (hp : portReset s = false) (hx : s.extestActs = false) (hl : s.straps.hcompat = false) {x : Instr × Byte × Nat}
    (hw : x ∈ nativeWrites f) (hc : 8 ≤ f.cycles) : exec x.1 s = .next (writeFrame (endRead s) x.2.1 x.2.2 f) := by
  have hl' : (endRead s).straps.hcompat = false := hl
  have hn : ¬(endRead s).straps.hcompat = true := by
    rw [hl']
    exact Bool.false_ne_true
  simp only [nativeWrites, List.mem_cons, List.not_mem_nil, or_false] at hw
  rcases hw with rfl | rfl | rfl <;> exact congrArg Host.Outcome.next ((frameStart_whole hp hx hc _).trans (if_neg hn))

variable (cmd : Byte)

theorem writeFrame_length (hc : 48 ≤ f.cycles) (hn : f.len = 0 ∨ 4096 < f.len) : writeFrame s cmd lanes f = hostError s 1 cmd f.addr := by
  unfold writeFrame
  dsimp only
  rw [if_neg (Nat.not_lt.mpr hc), if_pos]
  rcases hn with h | h <;> rw [decide_eq_true h]
  · rfl
  · exact Bool.or_true _

theorem writeFrame_align (hc : 48 ≤ f.cycles) (h1 : 1 ≤ f.len) (h2 : f.len ≤ 4096) (ha : f.addr.toNat % 4 ≠ 0 ∨ f.len % 4 ≠ 0) :
    writeFrame s cmd lanes f = hostError s 6 cmd f.addr := by
  unfold writeFrame
  dsimp only
  rw [if_neg (Nat.not_lt.mpr hc), decide_eq_false (by omega), decide_eq_false (by omega), if_neg (by decide), if_pos]
  rcases ha with h | h <;> rw [decide_eq_true h]
  · rfl
  · exact Bool.or_true _

/-- A whole write is judged by its lanes alone. -/
theorem writeFrame_whole (hw : WriteWhole lanes f) : writeFrame s cmd lanes f =
    if f.laneError then hostError s 5 cmd f.addr
    else acceptFrame s (.write cmd f.addr (wordsFrom f.addr.toNat (padded f.len f.data))) cmd f.addr := by
  obtain ⟨⟨h1, h2, h3⟩, ha, hn, hc⟩ := hw
  unfold writeFrame
  dsimp only
  rw [hc, if_neg (Nat.not_lt.mpr (Nat.le_add_right ..)), decide_eq_false (by omega), decide_eq_false (by omega), if_neg (by decide), ha, hn,
    if_neg (by decide), if_neg (by unfold hostEnd; omega), if_neg (Nat.lt_irrefl _), if_neg (Nat.lt_irrefl _)]

theorem writeFrame_carried (hw : WriteWhole lanes f) (hl : f.laneError = false) (hr : s.execRuns = true) (hm : s.m.mode ≠ .stop) :
    writeFrame (endRead s) cmd lanes f = writeCarried s f := by
  have hr' : (endRead s).execRuns = true := hr
  have hm' : (endRead s).m.mode ≠ .stop := hm
  rw [writeFrame_whole cmd hw, hl, if_neg Bool.false_ne_true]
  exact acceptWrite_carried hr' hm' cmd cmd f.addr f.addr _

theorem writeFrame_held (hw : WriteWhole lanes f) (hl : f.laneError = false) (hrun : s.m.run = .running) (hr : s.execRuns = false)
    (hroom : s.holdRoom f.len = true) (hm : s.m.mode ≠ .stop) :
    writeFrame (endRead s) cmd lanes f = countDone { endRead s with
      held := s.held ++ [.write cmd f.addr (wordsFrom f.addr.toNat (padded f.len f.data))] } := by
  have hrun' : (endRead s).m.run = .running := hrun
  have hr' : (endRead s).execRuns = false := hr
  have hm' : (endRead s).m.mode ≠ .stop := hm
  have hlen : 4 * (wordsFrom f.addr.toNat (padded f.len f.data)).length = f.len := by
    rw [wordsFrom_length, padded_length]
    exact Nat.mul_div_cancel' (Nat.dvd_of_mod_eq_zero hw.2.2.1)
  have hroom' : (endRead s).holdRoom (4 * (wordsFrom f.addr.toNat (padded f.len f.data)).length) = true := by
    rw [hlen]
    exact hroom
  rw [writeFrame_whole cmd hw, hl, if_neg Bool.false_ne_true, acceptWrite_held hrun' hr' hm' cmd cmd f.addr f.addr hroom']
  rfl

theorem writeFrame_unavailable (hw : WriteWhole lanes f) (hl : f.laneError = false) (hrun : s.m.run ≠ .running) :
    writeFrame (endRead s) cmd lanes f = hostError (endRead s) 10 cmd f.addr := by
  have hrun' : (endRead s).m.run ≠ .running := hrun
  rw [writeFrame_whole cmd hw, hl, if_neg Bool.false_ne_true, acceptFrame_unavailable hrun']

theorem writeFrame_lane (hw : WriteWhole lanes f) (hl : f.laneError = true) :
    writeFrame (endRead s) cmd lanes f = hostError (endRead s) 5 cmd f.addr := by
  rw [writeFrame_whole cmd hw, hl, if_pos rfl]

end Write

/-! ## FENCE frames -/

section Fence

variable {s : State} (hp : portReset s = false) (hx : s.extestActs = false) (hl : s.straps.hcompat = false) (hr : s.execRuns = true) (tag : W16)

include hp hx hl hr

theorem exec_fenceFrame : exec (.fenceFrame tag 24 false) s = .next (carryFence (endRead s) tag) := by
  have hl' : (endRead s).straps.hcompat = false := hl
  have hr' : (endRead s).execRuns = true := hr
  refine congrArg Host.Outcome.next ((frameStart_whole hp hx (by decide) _).trans ?_)
  rw [hl', if_neg Bool.false_ne_true, if_neg (by decide), if_neg (by decide), if_neg Bool.false_ne_true]
  exact if_pos hr'

theorem fenceFrame_placed (hm : served s.m.mode = true) (hn : s.img.fencesLocal.length < 8) :
    Completes (.fenceFrame tag 24 false) s fun t =>
      t.host.done = s.host.done + 1 ∧
      (∃ f : PendingFence, t.img.fencesLocal = s.img.fencesLocal ++ [f] ∧ f.tag = tag ∧ f.source = .frame) ∧
      SameOutside [.host, .img, .port] s t := by
  have e := exec_fenceFrame hp hx hl hr tag
  have hstop : (endRead s).m.mode ≠ .stop := fun h => by
    rw [show s.m.mode = .stop from h] at hm
    exact absurd hm (by decide)
  have hload : (endRead s).m.mode ≠ .load := fun h => by
    rw [show s.m.mode = .load from h] at hm
    exact absurd hm (by decide)
  have hn' : (endRead s).img.fencesLocal.length < 8 := hn
  obtain ⟨h1, f, hf⟩ := placeFence_local hn' tag fullBudget (.inr rfl : FenceSource.frame = .mailbox ∨ _)
  have h2 : SameOutside [.host, .img, .port] s (placeFence (endRead s) tag .frame fullBudget).1 :=
    (placeFence_moves ..).same.step rfl ((endRead_moves s).same.widen rfl)
  have hd : (placeFence (endRead s) tag .frame fullBudget).1.host = (endRead s).host := (placeFence_moves ..).same.host rfl
  unfold carryFence at e
  dsimp only at e
  rw [if_neg hstop, if_neg hload, if_pos h1] at e
  generalize (placeFence (endRead s) tag .frame fullBudget).1 = a at e hf h2 hd
  refine ⟨_, e, ?_, ⟨f, hf⟩, (countDone_moves a).same.step rfl h2⟩
  exact (congrArg (fun h : HostPort => h.done + 1) hd).trans rfl

theorem fenceFrame_refused (hm : s.m.mode = .load) :
    Completes (.fenceFrame tag 24 false) s fun t =>
      t.img.fenceRefused = satInc s.img.fenceRefused ∧ t.img.fencesLocal = s.img.fencesLocal ∧ SameOutside [.host, .img] s t := by
  have hm' : (endRead s).m.mode = .load := hm
  have e : carryFence (endRead s) tag =
      { endRead s with img := { s.img with fenceRefused := satInc s.img.fenceRefused } } := by
    unfold carryFence
    rw [hm', if_neg (by decide), if_pos rfl]
    rfl
  exact ⟨_, (exec_fenceFrame hp hx hl hr tag).trans (congrArg Host.Outcome.next e), rfl, rfl,
    (SameOutside.set_img (endRead s) _).step rfl ((endRead_moves s).same.widen rfl)⟩

theorem fenceFrame_stopped (hm : s.m.mode = .stop) :
    Completes (.fenceFrame tag 24 false) s fun t => HostCounted s t 10 0xB9 0 ∧ t.img.fencesLocal = s.img.fencesLocal := by
  have hm' : (endRead s).m.mode = .stop := hm
  have e : carryFence (endRead s) tag = hostError (endRead s) 10 0xB9 0 := if_pos hm'
  have hc := hostError_endRead s 10 0xB9 0
  obtain ⟨-, -, -, -, hs⟩ := id hc
  exact ⟨_, (exec_fenceFrame hp hx hl hr tag).trans (congrArg Host.Outcome.next e), hc, by rw [hs.img rfl]⟩

end Fence

/-! ## Legacy frames -/

section Legacy

variable {s : State} (hp : portReset s = false) (hx : s.extestActs = false) (hl : s.straps.hcompat = true)

include hp hx hl

theorem setpage_gives (page : Byte) : Completes (.setpage page 16 false) s fun t =>
    t.host.page = page ∧ t.host.done = s.host.done + 1 ∧ SameOutside [.host] s t := by
  have hl' : (endRead s).straps.hcompat = true := hl
  have e : exec (.setpage page 16 false) s = .next (countDone ((endRead s).modHost fun h => { h with page := page })) := by
    refine congrArg Host.Outcome.next ((frameStart_whole hp hx (by decide) _).trans ?_)
    rw [hl']
    rfl
  exact ⟨_, e, rfl, rfl, (countDone_moves _).same.step rfl ((SameOutside.set_host (endRead s) _).step rfl (endRead_moves s).same)⟩

variable {f : HostFrame}

/-- Host address of a legacy frame: the page, and A. -/
def legacyAddr (s : State) (f : HostFrame) : Nat := s.host.page.toNat * 0x10000 + f.addr.toNat % 0x10000

/-- The machine that answers a legacy READ with its status byte and `bytes`. -/
def legacyReply (s : State) (f : HostFrame) (bytes : List Byte) (isLate : Bool) : State :=
  let a := endRead s
  { a with
    free := if 0x800000 < legacyAddr s f + 64 then a.free + 1 else a.free
    host := { a.host with reply := .legacy (legacyStatus a) bytes, latePrev := isLate, late := if isLate then satInc a.host.late else a.host.late } }

omit hp hx hl in
theorem legacyReply_same (s : State) (f : HostFrame) (bytes : List Byte) (isLate : Bool) :
    SameOutside [.host, .free] s (legacyReply s f bytes isLate) :=
  (SameOutside.set_free_host (endRead s) _ _).step rfl ((endRead_moves s).same.widen rfl)

theorem legacyReadFrame_whole (hc : f.cycles = 600) (hlane : f.laneError = false) (hr : s.execRuns = true) (ha : legacyAddr s f + 64 ≤ 0x1000000)
    (late : Bool) : legacyReadFrame s f late =
      if late then legacyReply s f (List.replicate 64 0xFF) true
      else clearRead (legacyReply s f (hostBytes (endRead s) (legacyAddr s f) 64) false) (legacyAddr s f)
        (hostBytes (endRead s) (legacyAddr s f) 64) := by
  have hl' : (endRead s).straps.hcompat = true := hl
  have hr' : (endRead s).execRuns = true := hr
  have ha' : ¬hostEnd < (endRead s).host.page.toNat * 0x10000 + f.addr.toNat % 0x10000 + 64 := Nat.not_lt.mpr ha
  have h64 : (hostBytes (endRead s) (legacyAddr s f) 64).take ((600 - 88) / 8) = hostBytes (endRead s) (legacyAddr s f) 64 :=
    List.take_of_length_le (by unfold hostBytes; rw [List.length_map, List.length_range])
  unfold legacyReadFrame
  rw [frameStart_whole hp hx (by omega)]
  dsimp only
  rw [hl', hr', hc, hlane, if_neg (by decide), if_neg (by decide), if_neg ha']
  cases late
  · simp only [Bool.not_true, Bool.or_false, Bool.false_and, Bool.false_eq_true, if_false]
    exact congrArg (clearRead (legacyReply s f (hostBytes (endRead s) (legacyAddr s f) 64) false) (legacyAddr s f)) h64
  · simp only [Bool.not_true, Bool.or_false, Bool.true_and, Nat.reduceLeDiff, decide_true, if_true, Bool.false_eq_true, if_false]
    rfl

theorem legacyRead_answers (hc : f.cycles = 600) (hlane : f.laneError = false) (hr : s.execRuns = true)
    (ha : legacyAddr s f + 64 ≤ 0x1000000) :
    Completes (.legacyRead f) s (fun t =>
      t.host.reply = .legacy (legacyStatus (endRead s)) (hostBytes (endRead s) (legacyAddr s f) 64) ∧
      t.host.latePrev = false ∧ t.host.late = s.host.late ∧ SameOutside [.host, .free, .conv] s t) ∧
    Completes (.legacyReadLate f) s fun t =>
      t.host.reply = .legacy (legacyStatus (endRead s)) (List.replicate 64 0xFF) ∧ t.host.latePrev = true ∧
      t.host.late = satInc s.host.late ∧ SameOutside [.host, .free] s t := by
  have e0 : exec (.legacyRead f) s = .next _ := congrArg Host.Outcome.next (legacyReadFrame_whole hp hx hl hc hlane hr ha false)
  have e1 : exec (.legacyReadLate f) s = .next _ := congrArg Host.Outcome.next (legacyReadFrame_whole hp hx hl hc hlane hr ha true)
  have h1 := (clearRead_moves (legacyReply s f (hostBytes (endRead s) (legacyAddr s f) 64) false) (legacyAddr s f)
    (hostBytes (endRead s) (legacyAddr s f) 64)).same
  have hh := h1.host rfl
  exact ⟨⟨_, e0, by rw [if_neg Bool.false_ne_true, hh]; rfl, by rw [if_neg Bool.false_ne_true, hh]; rfl,
    by rw [if_neg Bool.false_ne_true, hh]; rfl, h1.step rfl ((legacyReply_same ..).widen rfl)⟩,
    _, e1, rfl, rfl, rfl, legacyReply_same ..⟩

theorem legacyWrite_carried {n : Nat} (h1 : 0 < n) (h2 : n ≤ 64) (h4 : n % 4 = 0) (hc : f.cycles = 24 + 8 * n) (ha : f.addr.toNat % 4 = 0)
    (hlane : f.laneError = false) (hspan : legacyAddr s f + n ≤ 0x1000000) (hr : s.execRuns = true) (hm : s.m.mode ≠ .stop) :
    exec (.legacyWrite f) s = .next (hostWords (countDone (endRead s)) (wordsFrom (legacyAddr s f) (padded n f.data))) := by
  have hl' : (endRead s).straps.hcompat = true := hl
  have hr' : (endRead s).execRuns = true := hr
  have hm' : (endRead s).m.mode ≠ .stop := hm
  have hf : (field f.addr 0 16 : W16).toNat = f.addr.toNat % 0x10000 := by
    unfold field
    rw [BitVec.extractLsb'_toNat, Nat.shiftRight_zero]
  have hn : (24 + 8 * n - 24) / 8 = n := by omega
  have ha' : ¬hostEnd < (endRead s).host.page.toNat * 0x10000 + f.addr.toNat % 0x10000 + n := Nat.not_lt.mpr hspan
  refine congrArg Host.Outcome.next ((frameStart_whole hp hx (by omega) _).trans ?_)
  rw [hl', if_pos rfl]
  unfold legacyWriteFrame
  dsimp only
  rw [hf, hc, hlane, hn, if_neg (by omega), decide_eq_false (by omega), decide_eq_false (by omega), if_neg (by decide), decide_eq_false (by omega),
    h4, if_neg (by decide), if_neg ha', if_neg (by omega), if_neg Bool.false_ne_true]
  exact acceptWrite_carried hr' hm' 0x02 0x02 _ _ _

end Legacy

/-! ## The statement's parts -/

section Parts

variable {s : State} (hp : portReset s = false) (hx : s.extestActs = false)

include hp hx

theorem hostReads_captured {f : HostFrame} (hl : s.straps.hcompat = false) (hr : s.execRuns = true) (hs : SpanOk f) :
    (48 ≤ f.cycles →
      Completes (.read f) s (ReadCaptured 0x0B f s) ∧ Completes (.readDualData f) s (ReadCaptured 0x3B f s) ∧
      Completes (.readQuadData f) s (ReadCaptured 0x6B f s)) ∧
    (28 ≤ f.cycles → Completes (.readDualAddressData f) s (ReadCaptured 0xBB f s)) ∧
    (18 ≤ f.cycles → Completes (.readQuadAddressData f) s (ReadCaptured 0xEB f s)) :=
  ⟨fun hc => ⟨⟨_, rfl, readFrame_captured (lanes := 1) hp hx hc 0x0B hl hr hs⟩,
    ⟨_, rfl, readFrame_captured (lanes := 1) hp hx hc 0x3B hl hr hs⟩,
    _, rfl, readFrame_captured (lanes := 1) hp hx hc 0x6B hl hr hs⟩,
    fun hc => ⟨_, rfl, readFrame_captured (lanes := 2) hp hx hc 0xBB hl hr hs⟩,
    fun hc => ⟨_, rfl, readFrame_captured (lanes := 4) hp hx hc 0xEB hl hr hs⟩⟩

theorem hostReads_counted {f : HostFrame} {x : Instr × Byte × Nat} (hn : x ∈ nativeReads f) (hc : 8 + 40 / x.2.2 ≤ f.cycles) :
    (s.straps.hcompat = false → f.len = 0 ∨ 4096 < f.len →
      Completes x.1 s fun t => HostCounted s t 1 x.2.1 f.addr ∧ t.host.cLength = satInc s.host.cLength ∧ t.host.reply = .fill) ∧
    (s.straps.hcompat = false → 1 ≤ f.len → f.len ≤ 4096 → 0x1000000 < f.addr.toNat + f.len →
      Completes x.1 s fun t => HostCounted s t 7 x.2.1 f.addr ∧ t.host.cAlign = satInc s.host.cAlign) ∧
    (s.straps.hcompat = true →
      Completes x.1 s fun t => HostCounted s t 8 x.2.1 0 ∧ t.host.cUnknown = satInc s.host.cUnknown) := by
  have e := exec_nativeRead hn s
  refine ⟨fun hl h => ?_, fun hl h1 h2 h3 => ?_, fun hl => ?_⟩
  · rw [readFrame_length hp hx hc _ hl h] at e
    exact ⟨_, e, modHost_counted .., by rw [hostError_host]; rfl, by rw [hostError_host]; rfl⟩
  · rw [readFrame_span hp hx hc _ hl h1 h2 h3] at e
    exact ⟨_, e, modHost_counted .., by rw [hostError_host]; rfl⟩
  · rw [readFrame_legacy hp hx hc _ hl] at e
    exact ⟨_, e, hostError_endRead .., by rw [hostError_host]; rfl⟩

theorem hostFixed_answered {cycles : Nat} (hc : 8 ≤ cycles) :
    Completes (.status cycles false) s (fun t =>
      t.host.reply = .fixed (bytesLE (statusWord (endRead s))) ∧ t.host.done = s.host.done ∧ SameOutside [.host] s t) ∧
    Completes (.ident cycles false) s (fun t =>
      t.host.reply = .fixed ([0, 1, 2, 3].flatMap fun i => bytesLE (identWord (endRead s) i)) ∧ t.host.done = s.host.done ∧
      SameOutside [.host] s t) ∧
    (cycles < 48 → Completes (.status cycles true) s fun t =>
      t.host.reply = .fixed (bytesLE (statusWord (endRead s))) ∧ t.host.discards = s.host.discards ∧ SameOutside [.host] s t) ∧
    (48 ≤ cycles → Completes (.status cycles true) s fun t => HostCounted s t 5 0x05 0 ∧ t.host.cLane = satInc s.host.cLane) ∧
    (144 ≤ cycles → Completes (.ident cycles true) s fun t => HostCounted s t 5 0x9F 0 ∧ t.host.cLane = satInc s.host.cLane) ∧
    (∀ code, knownCode s.straps.hcompat code = false →
      Completes (.unknownCommand code cycles) s fun t => HostCounted s t 8 code 0 ∧ t.host.cUnknown = satInc s.host.cUnknown) := by
  let status (s : State) : List Byte := bytesLE (statusWord s)
  let ident (s : State) : List Byte := [0, 1, 2, 3].flatMap fun i => bytesLE (identWord s i)
  refine ⟨⟨_, congrArg Host.Outcome.next (fixedFrame_answers hp hx 0x05 status hc rfl), rfl, rfl, fixedReply_same ..⟩,
    ⟨_, congrArg Host.Outcome.next (fixedFrame_answers hp hx 0x9F ident hc rfl), rfl, rfl, fixedReply_same ..⟩, fun h => ?_, fun h => ?_,
    fun h => ?_, fun code hk => ⟨_, exec_unknownCommand hp hx code hc hk, hostError_endRead .., by rw [hostError_host]; rfl⟩⟩
  · have hlane : (true && decide (16 + 8 * (status (endRead s)).length ≤ cycles)) = false :=
      (Bool.true_and _).trans (decide_eq_false (Nat.not_le.mpr h))
    exact ⟨_, congrArg Host.Outcome.next (fixedFrame_answers hp hx 0x05 status hc hlane), rfl, rfl, fixedReply_same ..⟩
  · exact ⟨_, congrArg Host.Outcome.next (fixedFrame_lane hp hx 0x05 status h), fixedReply_counted ..⟩
  · exact ⟨_, congrArg Host.Outcome.next (fixedFrame_lane hp hx 0x9F ident h), fixedReply_counted ..⟩

variable (hl : s.straps.hcompat = false)

include hl

theorem hostWrites_counted {f : HostFrame} {x : Instr × Byte × Nat} (hn : x ∈ nativeWrites f) (hc : 48 ≤ f.cycles) :
    (WriteWhole x.2.2 f →
      (f.laneError = false → s.m.run = .running → s.execRuns = false → s.holdRoom f.len = true → s.m.mode ≠ .stop →
        Completes x.1 s fun t =>
          t.held = s.held ++ [.write x.2.1 f.addr (wordsFrom f.addr.toNat (padded f.len f.data))] ∧ t.host.done = s.host.done + 1 ∧
          SameOutside [.held, .host] s t) ∧
      (f.laneError = false → s.m.run ≠ .running →
        Completes x.1 s fun t => HostCounted s t 10 x.2.1 f.addr ∧ t.host.cDropped = satInc s.host.cDropped) ∧
      (f.laneError = true → Completes x.1 s fun t => HostCounted s t 5 x.2.1 f.addr ∧ t.host.cLane = satInc s.host.cLane)) ∧
    (f.len = 0 ∨ 4096 < f.len → Completes x.1 s fun t => HostCounted s t 1 x.2.1 f.addr) ∧
    (1 ≤ f.len → f.len ≤ 4096 → f.addr.toNat % 4 ≠ 0 ∨ f.len % 4 ≠ 0 → Completes x.1 s fun t => HostCounted s t 6 x.2.1 f.addr) := by
  have e := exec_nativeWrite hp hx hl hn (by omega)
  refine ⟨fun hw => ⟨fun hlane hrun hr hroom hm => ?_, fun hlane hrun => ?_, fun hlane => ?_⟩, fun h => ?_, fun h1 h2 h => ?_⟩
  · rw [writeFrame_held x.2.1 hw hlane hrun hr hroom hm] at e
    exact ⟨_, e, rfl, rfl, (countDone_moves _).same.step rfl ((SameOutside.set_held (endRead s) _).step rfl ((endRead_moves s).same.widen rfl))⟩
  · rw [writeFrame_unavailable x.2.1 hw hlane hrun] at e
    exact ⟨_, e, hostError_endRead .., by rw [hostError_host]; rfl⟩
  · rw [writeFrame_lane x.2.1 hw hlane] at e
    exact ⟨_, e, hostError_endRead .., by rw [hostError_host]; rfl⟩
  · rw [writeFrame_length x.2.1 hc h] at e
    exact ⟨_, e, hostError_endRead ..⟩
  · rw [writeFrame_align x.2.1 hc h1 h2 h] at e
    exact ⟨_, e, hostError_endRead ..⟩

theorem hostWrites_carried {f : HostFrame} (hlane : f.laneError = false) (hr : s.execRuns = true) (hm : s.m.mode ≠ .stop)
    {x : Instr × Byte × Nat} (hn : x ∈ nativeWrites f) (hw : WriteWhole x.2.2 f) : exec x.1 s = .next (writeCarried s f) := by
  have hc : 8 ≤ f.cycles := le_trans ((by decide : 8 ≤ 48).trans (Nat.le_add_right ..)) hw.2.2.2.ge
  rw [exec_nativeWrite hp hx hl hn hc, writeFrame_carried x.2.1 hw hlane hr hm]

end Parts

/-- Settles O57: every frame by the branch of Table 16-2 or 16-5 that its cycles, length and lanes choose. -/
theorem hostFrames : Obligations.HostFrames := by
  unfold Obligations.HostFrames
  refine ⟨fun s hp hx => ⟨fun f hl hr hs => hostReads_captured hp hx hl hr hs, fun f x hn hc => hostReads_counted hp hx hn hc,
    fun r hr => ⟨readSync_data hr, readSync_lane hr, readAbort_ends hr⟩, fun cycles => hostFixed_answered hp hx⟩,
    fun s hp hx hl => ⟨fun f hlane hr hm => ?_, fun f x hn hc => hostWrites_counted hp hx hl hn hc, fun tag hr =>
      ⟨fenceFrame_placed hp hx hl hr tag, fenceFrame_refused hp hx hl hr tag, fenceFrame_stopped hp hx hl hr tag⟩⟩,
    fun s hp hx hl => ⟨setpage_gives hp hx hl, fun f hc hlane hr ha => legacyRead_answers hp hx hl hc hlane hr ha,
      fun f n h1 h2 h4 hc ha hlane hspan hr hm => legacyWrite_carried hp hx hl h1 h2 h4 hc ha hlane hspan hr hm⟩⟩
  have h (x : Instr × Byte × Nat) (hn : x ∈ nativeWrites f) : WriteWhole x.2.2 f → exec x.1 s = .next (writeCarried s f) :=
    hostWrites_carried hp hx hl hlane hr hm hn
  exact ⟨h _ (.head _), h _ (.tail _ (.head _)), h _ (.tail _ (.tail _ (.head _)))⟩

end Sys2Proof.Machine
end

section
/-!
Words written to filters, endpoints and registers (08 R224, R225, R228; 00 R5, R9; 11 R294, R304, R307, R308; 18 R480).
-/
namespace Sys2Proof.Machine

/-! ## One word written by the host -/

section Served

variable {s : State} (hr : s.execRuns = true) (hm : s.m.mode ≠ .stop)

include hr hm in
theorem hostWrite_words (addr : Nat) (ws : List (Nat × W32)) : hostWrite s addr ws = hostWords s ws := by
  unfold hostWrite whenServed
  rw [if_pos hr]
  dsimp only
  rw [decide_eq_false hm]
  rfl

/-- A frame of one word of RW1C bits is that word's own write. -/
theorem hostWords_rw1c (s : State) {a : Nat} (v : W32) (himage : ¬ a < 0x400000) (hcmd : cmdSlot a = none) (hrw1c : isRw1c a = true) :
    hostWords s [(a, v)] = writeWord s a v := by
  simp [hostWords, himage, hcmd, hrw1c, runCmds_nil]

/-- Above the links' blocks only words of FLT hold RW1C bits. -/
theorem isRw1c_high {a : Nat} (h : 0x468000 ≤ a) (hr : a < 0x484000 ∨ 0x484200 ≤ a ∨ a % 16 ≠ 8) (he : a ≠ 0x484200) :
    isRw1c a = false := by
  unfold isRw1c
  dsimp only
  rw [decide_eq_false (show ¬a < 0x410000 by omega), decide_eq_false (show ¬a < 0x420000 by omega), decide_eq_false (show ¬a < 0x440000 by omega),
    decide_eq_false (show ¬a < 0x468000 by omega), decide_eq_false he]
  have h16 : (decide (0x484000 ≤ a) && decide (a < 0x484200) && decide (a % 0x10000 % 16 = 8)) = false := by
    by_contra h
    simp only [Bool.not_eq_false, Bool.and_eq_true, decide_eq_true_eq] at h
    omega
  rw [h16]
  simp only [Bool.and_false, Bool.false_and, Bool.or_self]

theorem cmdSlot_high {a : Nat} (h : 0x440800 ≤ a) : cmdSlot a = none := by
  unfold cmdSlot
  rw [decide_eq_false (show ¬a < 0x440800 by omega), Bool.and_false, Bool.false_and, if_neg Bool.false_ne_true]

/-- A word of the map above the links' blocks, written alone. -/
theorem hostWords_high (s : State) {a : Nat} (v : W32) (h : 0x468000 ≤ a)
    (hr : a < 0x484000 ∨ 0x484200 ≤ a ∨ a % 16 ≠ 8) (he : a ≠ 0x484200) :
    hostWords s [(a, v)] = writeWord s a v :=
  hostWords_singleton s v (by omega) (cmdSlot_high (by omega)) (isRw1c_high h hr he)

end Served

/-! ## FLT.PCTL -/

theorem writeWord_pctl (s : State) (p : PathIx) (v : W32) : writeWord s (0x484000 + 16 * p.val) v = writePctl s p v := by
  have hp := p.isLt
  have hix : pathOf ((0x484000 + 16 * p.val - 0x480000 - 0x4000) / 16) = p := Fin.ext (show _ % 32 = p.val by omega)
  unfold writeWord
  dsimp only
  rw [if_neg (by omega), if_neg (by omega), if_neg (by omega), if_neg (by omega), if_neg (by omega), if_neg (by omega), if_neg (by omega),
    if_neg (by omega), if_neg (by omega), if_neg (by omega), if_pos (by omega)]
  unfold writeFlt
  rw [if_neg (by omega), if_pos (by omega)]
  dsimp only
  rw [if_pos (by omega), hix]

theorem hostWrite_pctl {s : State} (hr : s.execRuns = true) (hm : s.m.mode ≠ .stop) (p : PathIx) (v : W32) :
    hostWrite s (0x484000 + 16 * p.val) [(0x484000 + 16 * p.val, v)] = writePctl s p v := by
  have hp := p.isLt
  rw [hostWrite_words hr hm, hostWords_high s v (by omega) (.inr (.inr (by omega))) (by omega), writeWord_pctl]

theorem bitAt_or (v w : W32) (i : Nat) : bitAt (v ||| w) i = (bitAt v i || bitAt w i) := BitVec.getLsbD_or ..

theorem writePctl_swap (s : State) (p : PathIx) {v : W32} (h : v.getLsbD 2 = false) :
    writePctl s p (v ||| 1) = requestSwap s p (v.getLsbD 1) (v.extractLsb' 16 16).toNat := by
  have h0 : bitAt (v ||| 1) 0 = true := by rw [bitAt_or]; exact Bool.or_true _
  have h1 : bitAt (v ||| 1) 1 = v.getLsbD 1 := by rw [bitAt_or]; exact Bool.or_false _
  have h2 : bitAt (v ||| 1) 2 = false := by rw [bitAt_or]; exact (Bool.or_false _).trans h
  have h16 : (field (v ||| 1) 16 16 : BitVec 16) = v.extractLsb' 16 16 := by
    unfold field
    rw [BitVec.extractLsb'_or]
    exact BitVec.or_zero
  unfold writePctl
  dsimp only
  rw [h0, h1, h2, h16]
  rfl

theorem writePctl_sync (s : State) (p : PathIx) {v : W32} (h : v.getLsbD 0 = false) : writePctl s p (v ||| 4) = syncReset s p := by
  have h0 : bitAt (v ||| 4) 0 = false := by rw [bitAt_or]; exact (Bool.or_false _).trans h
  have h2 : bitAt (v ||| 4) 2 = true := by rw [bitAt_or]; exact Bool.or_true _
  unfold writePctl
  dsimp only
  rw [h0, h2]
  rfl

/-! ## A swap asked for (08 R225) -/

section Swap

variable {s : State} {p : PathIx} (hr : s.execRuns = true) (hm : s.m.mode ≠ .stop) {v : W32} (hv : v.getLsbD 2 = false)

include hr hm hv

theorem exec_swapRequest : exec (.swapRequest p v) s = .next (requestSwap s p (v.getLsbD 1) (v.extractLsb' 16 16).toNat) :=
  congrArg Host.Outcome.next ((hostWrite_pctl hr hm p _).trans (writePctl_swap s p hv))

theorem swapRequest_refused (h0 : (v.extractLsb' 16 16).toNat ≠ 0) (h : (v.extractLsb' 16 16).toNat < 16 ∨ 4096 < (v.extractLsb' 16 16).toNat) :
    Completes (.swapRequest p v) s fun t =>
      t.conv.errSwap = true ∧ t.conv.errPath = BitVec.ofNat 5 p.val ∧ t.conv.path = s.conv.path ∧ SameOutside [.conv] s t := by
  have e : requestSwap s p (v.getLsbD 1) (v.extractLsb' 16 16).toNat =
      { s with conv := { s.conv with errSwap := true, errPath := BitVec.ofNat 5 p.val } } := by
    refine if_pos ?_
    rw [decide_eq_true h0, Bool.true_and]
    exact Bool.or_eq_true_iff.mpr (h.imp decide_eq_true decide_eq_true)
  exact ⟨_, (exec_swapRequest hr hm hv).trans (congrArg Host.Outcome.next e), rfl, rfl, rfl, SameOutside.set_conv _ _⟩

omit hr hm hv in
theorem swapLength_ok {n : Nat} (h : n = 0 ∨ 16 ≤ n ∧ n ≤ 4096) : (decide (n ≠ 0) && (decide (n < 16) || decide (4096 < n))) = false := by
  by_contra hn
  simp only [Bool.not_eq_false, Bool.and_eq_true, Bool.or_eq_true, decide_eq_true_eq] at hn
  omega

theorem swapRequest_waits {n : Nat} (hn : n = (v.extractLsb' 16 16).toNat) (hl : n = 0 ∨ 16 ≤ n ∧ n ≤ 4096)
    (hf : s.conv.path[p].fade.isSome = true) :
    exec (.swapRequest p v) s = .next (s.modPath p fun x =>
      { x with pend := some (v.getLsbD 1, if n = 0 then (s.desc p).fade.toNat else n) }) := by
  have e := exec_swapRequest hr hm hv (p := p)
  rw [← hn] at e
  unfold requestSwap at e
  dsimp only at e
  rw [swapLength_ok hl, if_neg Bool.false_ne_true, hf, if_pos (Bool.true_or _)] at e
  exact e

variable (hf : s.conv.path[p].fade = none) (hload : s.conv.path[p].load = none) (hrem : s.conv.path[p].remain = 0)
  (hwait : s.conv.path[p].waitAlign = false)

include hf hload hrem hwait

theorem exec_swapRequest_idle {n : Nat} (hn : n = (v.extractLsb' 16 16).toNat) (hl : n = 0 ∨ 16 ≤ n ∧ n ≤ 4096) :
    exec (.swapRequest p v) s = .next (if v.getLsbD 1 = s.conv.path[p].active then s
      else s.modPath p fun x => { x with fade := some { target := v.getLsbD 1, len := if n = 0 then (s.desc p).fade.toNat else n, i := 0 } }) := by
  have e := exec_swapRequest hr hm hv (p := p)
  rw [← hn] at e
  unfold requestSwap at e
  dsimp only at e
  rw [swapLength_ok hl, if_neg Bool.false_ne_true, hf, hload, if_neg (by decide), hrem, hwait, if_neg (by decide)] at e
  exact e

theorem swapRequest_fades {n : Nat} (hn : n = (v.extractLsb' 16 16).toNat) (hl : n = 0 ∨ 16 ≤ n ∧ n ≤ 4096)
    (ht : v.getLsbD 1 ≠ s.conv.path[p].active) :
    Completes (.swapRequest p v) s fun t =>
      t.conv.path[p].fade = some { target := v.getLsbD 1, len := if n = 0 then (s.desc p).fade.toNat else n, i := 0 } ∧
      t.conv.path[p].active = s.conv.path[p].active ∧ (∀ q : PathIx, q ≠ p → t.conv.path[q] = s.conv.path[q]) ∧
      SameOutside [.conv] s t := by
  have e := exec_swapRequest_idle hr hm hv hf hload hrem hwait hn hl
  rw [if_neg ht] at e
  refine ⟨_, e, ?_, ?_, fun q hq => modAt_of_ne _ _ hq, SameOutside.set_conv _ _⟩
  · exact congrArg PathState.fade (modAt_self ..)
  · exact (congrArg PathState.active (modAt_self ..)).trans rfl

theorem swapRequest_same (h0 : (v.extractLsb' 16 16).toNat = 0) (ht : v.getLsbD 1 = s.conv.path[p].active) :
    exec (.swapRequest p v) s = .next s := by
  have e := exec_swapRequest_idle hr hm hv hf hload hrem hwait rfl (.inl h0)
  rwa [if_pos ht] at e

end Swap

/-! ## Coefficients (08 R224) -/

theorem exec_coefficientWrite {s : State} (hr : s.execRuns = true) (p : PathIx) (bank : Bool) (tap : BitVec 6) (v : W32) :
    exec (.coefficientWrite p bank tap v) s = .next (writeCoeff s p bank tap v) := congrArg Host.Outcome.next (if_pos hr)

theorem writeCoeff_mode {s : State} (h : s.m.mode = .load ∨ s.m.mode = .stop) (p : PathIx) (bank : Bool) (tap : BitVec 6) (v : W32) :
    writeCoeff s p bank tap v = { s with conv := { s.conv with errMode := true, errPath := BitVec.ofNat 5 p.val, errBank := bank } } :=
  if_pos (Bool.or_eq_true_iff.mpr (h.imp decide_eq_true decide_eq_true))

section Coefficient

variable {s : State} {p : PathIx} {bank : Bool} (hl : s.m.mode ≠ .load) (hm : s.m.mode ≠ .stop) (tap : BitVec 6) (v : W32)

include hl hm

theorem writeCoeff_busy (h : bank = s.conv.path[p].active ∨ s.conv.path[p].fade.isSome = true) :
    writeCoeff s p bank tap v = { s with conv := { s.conv with errBusy := true, errPath := BitVec.ofNat 5 p.val, errBank := bank } } := by
  unfold writeCoeff
  dsimp only
  rw [decide_eq_false hl, decide_eq_false hm, if_neg (by decide)]
  exact if_pos (Bool.or_eq_true_iff.mpr (h.imp decide_eq_true id))

theorem writeCoeff_idle (ha : bank ≠ s.conv.path[p].active) (hf : s.conv.path[p].fade = none) :
    writeCoeff s p bank tap v =
      { s with conv := { s.conv with coeff := swrite 0 s.conv.coeff (coeffIx p bank tap.toNat) (field v 0 24) } } := by
  unfold writeCoeff
  dsimp only
  rw [decide_eq_false hl, decide_eq_false hm, if_neg (by decide), decide_eq_false ha, hf]
  rfl

omit hl hm in
theorem coeffIx_inj {p q : PathIx} {b c : Bool} {t u : BitVec 6} (h : coeffIx q c u.toNat = coeffIx p b t.toNat) : (q, c, u) = (p, b, t) := by
  have ht := t.isLt
  have hu := u.isLt
  unfold coeffIx at h
  have hp : q.val = p.val := by cases b <;> cases c <;> simp at h <;> omega
  have hc : c = b := by cases b <;> cases c <;> simp at h ⊢ <;> omega
  subst hc
  have htu : u.toNat = t.toNat := by omega
  rw [Fin.ext hp, BitVec.eq_of_toNat_eq htu]

theorem coefficientWrite_idle (hr : s.execRuns = true) (ha : bank ≠ s.conv.path[p].active) (hf : s.conv.path[p].fade = none) (hs : Sound s) :
    Completes (.coefficientWrite p bank tap v) s fun t =>
      t.coeff p bank tap.toNat = v.setWidth 24 ∧
      (∀ (q : PathIx) (b : Bool) (u : BitVec 6), (q, b, u) ≠ (p, bank, tap) → t.coeff q b u.toNat = s.coeff q b u.toNat) ∧
      t.conv.errBusy = s.conv.errBusy ∧ SameOutside [.conv] s t := by
  have hc : swf 0 s.conv.coeff = true := (hs .conv).1
  refine ⟨_, (exec_coefficientWrite hr ..).trans (congrArg Host.Outcome.next (writeCoeff_idle hl hm tap v ha hf)), ?_, fun q b u hq => ?_, rfl,
    SameOutside.set_conv _ _⟩
  · refine (sread_swrite hc ..).trans ((if_pos rfl).trans ?_)
    unfold field
    rw [BitVec.setWidth_eq_extractLsb' (by decide)]
  · exact (sread_swrite hc ..).trans (if_neg fun h => hq (coeffIx_inj h))

end Coefficient

/-! ## SYNC (08 R228) -/

/-- What follows a path's reset within the same step keeps what the reset set of path `p`, and every other path. -/
structure PathStep (p : PathIx) (s t : State) : Prop where
  others : ∀ q : PathIx, q ≠ p → t.conv.path[q] = s.conv.path[q]
  outs : t.conv.path[p].outs = s.conv.path[p].outs
  fade : t.conv.path[p].fade = s.conv.path[p].fade
  since : t.conv.path[p].since = s.conv.path[p].since
  remain : t.conv.path[p].remain = s.conv.path[p].remain
  resets : t.conv.path[p].resets = s.conv.path[p].resets

namespace PathStep

variable {p : PathIx} {s t u : State}

theorem of_eq (h : t.conv.path = s.conv.path) : PathStep p s t :=
  ⟨fun q _ => by rw [h], by rw [h], by rw [h], by rw [h], by rw [h], by rw [h]⟩

theorem trans (h : PathStep p s t) (k : PathStep p t u) : PathStep p s u :=
  ⟨fun q hq => (k.others q hq).trans (h.others q hq), k.outs.trans h.outs, k.fade.trans h.fade, k.since.trans h.since,
    k.remain.trans h.remain, k.resets.trans h.resets⟩

theorem modPath (s : State) (p : PathIx) (f : PathState → PathState)
    (hf : ∀ x, (f x).outs = x.outs ∧ (f x).fade = x.fade ∧ (f x).since = x.since ∧ (f x).remain = x.remain ∧ (f x).resets = x.resets) :
    PathStep p s (s.modPath p f) := by
  obtain ⟨h1, h2, h3, h4, h5⟩ := hf s.conv.path[p]
  have e : (s.modPath p f).conv.path[p] = f s.conv.path[p] := modAt_self ..
  exact ⟨fun q hq => modAt_of_ne _ _ hq, by rw [e, h1], by rw [e, h2], by rw [e, h3], by rw [e, h4], by rw [e, h5]⟩

end PathStep

theorem putResult_path (s : State) (p : PathIx) (r : ResultBlock) :
    PathStep p s (putResult s p r) ∧ (putResult s p r).conv.path[p].res = { r with seq := s.conv.path[p].res.seq + 1, fresh := true } := by
  unfold putResult
  extract_lets +onlyGivenNames x r1 s1
  have h1 : PathStep p s s1 := .modPath s p _ fun _ => ⟨rfl, rfl, rfl, rfl, rfl⟩
  have hres : s1.conv.path[p].res = r1 := congrArg PathState.res (modAt_self ..)
  clear_value s1
  generalize hb : { s1 with conv := { s1.conv with ring := swrite {} s1.conv.ring (1024 * p.val + x.ringNext.toNat) { r1 with fresh := false } } } = b
  have hpath : (updateSetl b (pathChan p)).conv.path = s1.conv.path := by
    rw [(updateSetl_moves b _).same.conv rfl, ← hb]
  exact ⟨h1.trans (.of_eq hpath), by rw [hpath, hres]⟩

/-- The synchronising reset of a scanned path (08 R228). -/
theorem resetFrom_path {s : State} {p : PathIx} (h : s.scanned p = true) (since : W64) :
    let t := resetFrom s since p
    (t.conv.path[p].outs = [] ∧ t.conv.path[p].fade = none ∧ t.conv.path[p].res.settling = true ∧ t.conv.path[p].since = since ∧
      t.conv.path[p].remain = settleOf (s.desc p) ∧ t.conv.path[p].resets = satInc s.conv.path[p].resets) ∧
    ∀ q : PathIx, q ≠ p → t.conv.path[q] = s.conv.path[q] := by
  unfold resetFrom
  rw [if_neg (by rw [h]; decide)]
  extract_lets +onlyGivenNames x d s0 s1 s2 u s3
  have h0 : PathStep p s s0 := by
    unfold s0
    split
    · exact .modPath _ _ _ fun _ => ⟨rfl, rfl, rfl, rfl, rfl⟩
    · exact .of_eq rfl
  have hreset := h0.resets
  have hothers : ∀ q : PathIx, q ≠ p → s1.conv.path[q] = s.conv.path[q] := fun q hq => (modAt_of_ne _ _ hq).trans (h0.others q hq)
  clear_value s0
  have hp : s1.conv.path[p] = _ := modAt_self ..
  have houts : s1.conv.path[p].outs = [] := by rw [hp]
  have hfade : s1.conv.path[p].fade = none := by rw [hp]
  have hsince : s1.conv.path[p].since = since := by rw [hp]
  have hremain : s1.conv.path[p].remain = settleOf (s.desc p) := by rw [hp]
  have hresets : s1.conv.path[p].resets = satInc s.conv.path[p].resets := by rw [hp, hreset]
  clear hp
  clear_value s1
  have h2 : PathStep p s1 s2 := by
    unfold s2
    split
    · exact PathStep.trans (by exact .of_eq rfl) (.modPath _ _ _ fun _ => ⟨rfl, rfl, rfl, rfl, rfl⟩)
    · exact .of_eq rfl
  clear_value s2
  have h3 : PathStep p s2 s3 := by
    unfold s3
    split
    · exact PathStep.trans (by exact .of_eq rfl) (.modPath _ _ _ fun _ => ⟨rfl, rfl, rfl, rfl, rfl⟩)
    · exact .of_eq rfl
  clear_value s3
  obtain ⟨h4, hres⟩ := putResult_path s3 p { value := 0x80000000, settling := true, calsrc := calSrc s3 p, ts := s.tick.setWidth 32 }
  have hall := (h2.trans h3).trans h4
  exact ⟨⟨hall.outs.trans houts, hall.fade.trans hfade, congrArg ResultBlock.settling hres, hall.since.trans hsince,
    hall.remain.trans hremain, hall.resets.trans hresets⟩, fun q hq => (hall.others q hq).trans (hothers q hq)⟩

theorem syncRequest_resets {s : State} {p : PathIx} (hr : s.execRuns = true) {v : W32} (hm : s.m.mode ≠ .stop) (hv : v.getLsbD 0 = false) :
    Completes (.syncRequest p v) s fun t =>
      (s.scanned p = true → t.conv.path[p].outs = [] ∧ t.conv.path[p].fade = none ∧ t.conv.path[p].res.settling = true ∧
        t.conv.path[p].since = s.tick + 1 ∧ t.conv.path[p].remain = settleOf (s.desc p) ∧
        t.conv.path[p].resets = satInc s.conv.path[p].resets) ∧
      (s.scanned p = false → t = s) ∧
      (∀ q : PathIx, q ≠ p → t.conv.path[q] = s.conv.path[q]) ∧ SameOutside [.ch, .conv, .ev, .img, .port] s t := by
  have e : exec (.syncRequest p v) s = .next (syncReset s p) :=
    congrArg Host.Outcome.next ((hostWrite_pctl hr hm p _).trans (writePctl_sync s p hv))
  have hu : s.scanned p = false → syncReset s p = s := fun h => if_pos (by rw [h]; rfl)
  refine ⟨_, e, fun h => (resetFrom_path h _).1, hu, fun q hq => ?_, (syncReset_moves s p).same.widen rfl⟩
  cases h : s.scanned p
  · rw [hu h]
  · exact (resetFrom_path h _).2 q hq

theorem ep_epStore_other {s : State} {a : BitVec 20} (hv : s.votes = true) (hw : swf epUnassigned s.img.words = true)
    (hc : swf epNoComm s.img.copies = true) (w : W32) {b : BitVec 20} (hb : b ≠ a) : (epStore s a w).ep b = s.ep b := by
  have hn : ∀ x : State, (noteChange x a).img.words = x.img.words ∧ (noteChange x a).img.copies = x.img.copies ∧
      (noteChange x a).boot = x.boot := fun x => by
    unfold noteChange
    split <;> exact ⟨rfl, rfl, rfl⟩
  have hne : b.toNat ≠ a.toNat := fun h => hb (BitVec.eq_of_toNat_eq h)
  obtain ⟨hwords, hcopies⟩ : sread epUnassigned (epStore s a w).img.words b.toNat = sread epUnassigned s.img.words b.toNat ∧
      sread epNoComm (epStore s a w).img.copies b.toNat = sread epNoComm s.img.copies b.toNat := by
    unfold epStore
    rw [if_neg (by rw [hv]; decide)]
    split <;> rw [(hn _).1, (hn _).2.1]
    · exact ⟨(sread_swrite hw ..).trans (if_neg hne), rfl⟩
    · exact ⟨rfl, (sread_swrite hc ..).trans (if_neg hne)⟩
  have hl : (epStore s a w).isLocal b = s.isLocal b := by
    unfold State.isLocal State.localBase State.group
    rw [(epStore_moves s a w).same.boot rfl]
  unfold State.ep
  rw [hl, hwords, hcopies]

/-! ## Image words at their origin (11 R294, R304, R307, R308) -/

theorem originWrites_settled {s x : State} {src : BitVec 2} {ws : List (BitVec 20 × W16)} (h : originWords s src ws [] = (x, [])) :
    originWrites s src ws = x := by
  unfold originWrites
  rw [h]
  exact List.foldl_fixed _

theorem originWrites_sent {s x : State} {src : BitVec 2} {ws : List (BitVec 20 × W16)} {k : PortIx} {e : BitVec 20 × W16}
    (h : originWords s src ws [] = (x, [(k, e)])) :
    originWrites s src ws = sendRequest x k (.write [e]) (.origin src [e.1]) fullBudget x.tick := by
  unfold originWrites
  rw [h]
  fin_cases k <;> rfl

theorem hostWords_image (s : State) (a : BitVec 20) (v : W16) :
    hostWords s [(4 * a.toNat, v.setWidth 32)] = originWrites s 0 [(a, v)] := by
  have ha := a.isLt
  have hlow : 4 * a.toNat < 0x400000 := by omega
  have hcmd : cmdSlot (4 * a.toNat) = none := by
    unfold cmdSlot
    rw [decide_eq_false (by omega), Bool.false_and, Bool.false_and, if_neg Bool.false_ne_true]
  have hrw : isRw1c (4 * a.toNat) = false := by
    unfold isRw1c
    dsimp only
    rw [decide_eq_false (show ¬0x400000 ≤ 4 * a.toNat by omega), decide_eq_false (show ¬0x410000 ≤ 4 * a.toNat by omega),
      decide_eq_false (show ¬0x430000 ≤ 4 * a.toNat by omega), decide_eq_false (show ¬0x460000 ≤ 4 * a.toNat by omega),
      decide_eq_false (show ¬0x484000 ≤ 4 * a.toNat by omega), decide_eq_false (show ¬4 * a.toNat = 0x484200 by omega)]
    simp only [Bool.false_and, Bool.or_self]
  have hw (t : State) : writeWord t (4 * a.toNat) (v.setWidth 32) = t := if_pos hlow
  have hix : BitVec.ofNat 20 (4 * a.toNat / 4) = a := by
    rw [Nat.mul_div_cancel_left _ (by decide), BitVec.ofNat_toNat, BitVec.setWidth_eq]
  have hv : (field (v.setWidth 32) 0 16 : W16) = v := by
    rw [field_low16, BitVec.setWidth_setWidth_of_le _ (by decide), BitVec.setWidth_eq]
  simp [hostWords, hlow, hcmd, hrw, hw, hix, hv, runCmds_nil, sortBy, placeBy]

section Image

variable {s : State} (hr : s.execRuns = true) (hm : s.m.mode ≠ .stop) (a : BitVec 20) (v : W16)

include hr hm in
theorem exec_imageWrite : exec (.imageWrite [(a, v)]) s = .next (originWrites s 0 [(a, v)]) :=
  congrArg Host.Outcome.next ((hostWrite_words hr hm 0 _).trans (hostWords_image s a v))

include hr hm in
theorem imageWrite_refused {why : BitVec 3} (h : originWords s 0 [(a, v)] [] = (recordRefusal s a why 0, [])) :
    Completes (.imageWrite [(a, v)]) s fun t =>
      t.img.words = s.img.words ∧ t.img.refused = satInc s.img.refused ∧ t.img.lastAddr = a ∧ t.img.lastReason = why ∧
      t.img.lastSrc = 0 ∧ SameOutside [.img] s t := by
  have e := (exec_imageWrite hr hm a v).trans (congrArg Host.Outcome.next (originWrites_settled h))
  rw [recordRefusal_host] at e
  exact ⟨_, e, rfl, rfl, rfl, rfl, rfl, SameOutside.set_img _ _⟩

theorem originWords_load (hl : s.m.mode = .load) : originWords s 0 [(a, v)] [] = (recordRefusal s a rsMode 0, []) := if_pos hl

variable (hl : s.m.mode ≠ .load)

include hl

theorem originWords_refused {why : BitVec 3} (h : s.route a false = .refused why) :
    originWords s 0 [(a, v)] [] = (recordRefusal s a why 0, []) := by
  unfold originWords originWord
  rw [if_neg hl, h]
  rfl

theorem originWords_sent {k : PortIx} (h : (s.route a false).port = some k) (hn : s.img.pendingWrites < 64) :
    originWords s 0 [(a, v)] [] = ({ s with img := { s.img with issued := s.img.issued + 1 } }, [(k, (a, v))]) := by
  have hfull : ¬(s.img.pendingWrites + List.length ([] : List (PortIx × BitVec 20 × W16)) ≥ 64) := Nat.not_le.mpr hn
  unfold originWords originWord
  rw [if_neg hl]
  cases hroute : s.route a false with
  | loc => rw [hroute] at h; exact nomatch h
  | refused why => rw [hroute] at h; exact nomatch h
  | down j i =>
    rw [hroute] at h
    obtain rfl := Option.some.inj h
    dsimp only
    rw [if_neg hfull]
    rfl
  | up j =>
    rw [hroute] at h
    obtain rfl := Option.some.inj h
    dsimp only
    rw [if_neg hfull]
    rfl

theorem originWords_local (hloc : s.isLocal a = true) : originWords s 0 [(a, v)] [] =
    (if (ownerWrite s a v).2 = 0 then (ownerWrite s a v).1 else recordRefusal (ownerWrite s a v).1 a (ownerWrite s a v).2 0, []) := by
  have h : s.route a false = .loc := if_pos hloc
  unfold originWords originWord
  rw [if_neg hl, h]
  rfl

include hr hm

theorem imageWrite_sent {k : PortIx} (h : (s.route a false).port = some k) (hn : s.img.pendingWrites < 64) :
    Completes (.imageWrite [(a, v)]) s fun t =>
      t.img.out = s.img.out ++ [⟨k, s.port[k].nextTag, .origin 0 [a], s.tick, s.img.nextId⟩] ∧
      t.img.issued = s.img.issued + 1 ∧ t.img.refused = s.img.refused ∧ t.img.words = s.img.words ∧
      SameOutside [.img, .port] s t := by
  have e := (exec_imageWrite hr hm a v).trans (congrArg Host.Outcome.next (originWrites_sent (originWords_sent a v hl h hn)))
  have himg := sendRequest_img { s with img := { s.img with issued := s.img.issued + 1 } } k (.write [(a, v)]) (.origin 0 [a]) fullBudget s.tick
  exact ⟨_, e, (congrArg ImageState.out himg).trans rfl, (congrArg ImageState.issued himg).trans rfl,
    (congrArg ImageState.refused himg).trans rfl, (congrArg ImageState.words himg).trans rfl,
    (sendRequest_moves ..).same.step rfl ((SameOutside.set_img s _).widen rfl)⟩

variable (hloc : s.isLocal a = true) (hq : epQual (s.ep a) ≠ qUnassigned)

include hloc hq

theorem imageWrite_class (hc : epClass (s.ep a) ≠ 5) :
    Completes (.imageWrite [(a, v)]) s fun t =>
      t.img.words = s.img.words ∧ t.img.refused = satInc s.img.refused ∧ t.img.lastAddr = a ∧ t.img.lastReason = 3 ∧
      t.img.lastSrc = 0 ∧ SameOutside [.img] s t := by
  have ho : ownerWrite s a v = (s, rsClass) := by
    unfold ownerWrite
    rw [decide_eq_false hl, decide_eq_false hm, if_neg (by decide), if_neg hq, if_pos hc]
  refine imageWrite_refused hr hm a v ((originWords_local a v hl hloc).trans ?_)
  rw [ho]
  rfl

theorem imageWrite_acts (ho : 0x800 ≤ offsetOf s.localBase a) (hs : Sound s) (hc : epClass (s.ep a) = 5) :
    Completes (.imageWrite [(a, v)]) s fun t =>
      epValue (t.ep a) = v ∧ epSeq (t.ep a) = epSeq (s.ep a) + 1 ∧ t.img.refused = s.img.refused ∧
      (∀ b : BitVec 20, b ≠ a → t.ep b = s.ep b) ∧ SameOutside [.img, .rul] s t := by
  obtain ⟨⟨hwords, hcopies, -⟩, -, -⟩ := hs .img
  let z := clearBars (epAccept s a qGood 5 v) a v
  have hz : ownerWrite s a v = (z, 0) := by
    unfold ownerWrite
    rw [decide_eq_false hl, decide_eq_false hm, if_neg (by decide), if_neg hq, if_neg (not_not.mpr hc), actCommand_high ho]
  have e := (exec_imageWrite hr hm a v).trans (congrArg Host.Outcome.next (originWrites_settled (originWords_local a v hl hloc)))
  rw [hz] at e
  have hep : z.ep a = epWord (epSeq (s.ep a) + 1) qGood 5 v := (clearBars_ep ..).trans (ep_epStore (votes_of_execRuns hr) hloc hwords _)
  have hshown : ImgShown s z := (epStore_shown ..).trans (.of_eq ((clearBars_moves (epAccept s a qGood 5 v) a v).same.img rfl))
  refine ⟨z, e, (congrArg epValue hep).trans (epWord_fields ..).1, (congrArg epSeq hep).trans (epWord_fields ..).2, ?_, fun b hb => ?_,
    (clearBars_moves ..).same.step rfl ((epAccept_moves ..).same.widen rfl)⟩
  · exact hshown.get ImageState.refused fun _ _ _ _ => rfl
  · exact (clearBars_ep ..).trans (ep_epStore_other (votes_of_execRuns hr) hwords hcopies _ hb)

end Image

theorem memError_mem (s : State) (code : BitVec 3) : (memError s code).mem = { s.mem with lastErr := code, errors := satInc s.mem.errors } := by
  unfold memError
  exact (raise_moves ..).same.mem rfl

/-! ## Registers (00 R5, R9, 18 R480, Tables 10-12, 18-14) -/

section Register

variable {s : State} (hr : s.execRuns = true) (hm : s.m.mode ≠ .stop)

theorem field_low (w : W32) {n : Nat} (h : n ≤ 32) : field w 0 n = w.setWidth n := by
  unfold field
  rw [BitVec.setWidth_eq_extractLsb' h]

include hr hm

theorem exec_ppssetWrite (v : W32) : exec (.ppssetWrite v) s = .next { s with time := { s.time with set := some v } } :=
  congrArg Host.Outcome.next ((hostWrite_words hr hm _ _).trans (hostWords_singleton s v (by decide) (by decide) (by decide)))

theorem exec_countClear (v : W32) : exec (.countClear v) s = .next { s with ev := countClearWrite s.ev v } :=
  congrArg Host.Outcome.next ((hostWrite_words hr hm _ _).trans (hostWords_singleton s v (by decide) (by decide) (by decide)))

omit hr hm in
theorem countClearWrite_count (e : EventRouter) (v : W32) (i : SrcIx) :
    (countClearWrite e v).src[i].count = if v.getLsbD 8 = true ∨ v.setWidth 7 = BitVec.ofNat 7 i.val then 0 else e.src[i].count := by
  unfold countClearWrite
  by_cases h8 : v.getLsbD 8 = true
  · rw [if_pos (show bitAt v 8 = true from h8), if_pos (.inl h8)]
    simp
  · rw [if_neg (show ¬bitAt v 8 = true from h8)]
    dsimp only
    have hi : i = (field v 0 7 : BitVec 7).toFin ↔ v.setWidth 7 = BitVec.ofNat 7 i.val := by
      rw [field_low v (by decide)]
      constructor
      · rintro rfl
        exact (BitVec.ofNat_toNat ..).symm ▸ (BitVec.setWidth_eq _).symm
      · intro h
        rw [h]
        exact Fin.ext (Nat.mod_eq_of_lt i.isLt).symm
    rw [modAt_get]
    by_cases h : i = (field v 0 7 : BitVec 7).toFin
    · rw [if_pos h, if_pos (.inr (hi.mp h))]
    · rw [if_neg h, if_neg (not_or.mpr ⟨h8, mt hi.mpr h⟩)]

theorem countClear_clears (v : W32) : Completes (.countClear v) s fun t =>
    (∀ i : SrcIx, t.ev.src[i].count = (if v.getLsbD 8 = true ∨ v.setWidth 7 = BitVec.ofNat 7 i.val then 0 else s.ev.src[i].count)) ∧
    t.ev.ring = s.ev.ring ∧ t.ev.count = s.ev.count ∧ SameOutside [.ev] s t := by
  obtain ⟨h1, h2⟩ : (countClearWrite s.ev v).ring = s.ev.ring ∧ (countClearWrite s.ev v).count = s.ev.count := by
    unfold countClearWrite
    split <;> exact ⟨rfl, rfl⟩
  exact ⟨_, exec_countClear hr hm v, countClearWrite_count s.ev v, h1, h2, SameOutside.set_ev _ _⟩

theorem exec_registerWrite (a : BitVec 24) (v : W32) : exec (.registerWrite a v) s = .next (hostWords s [(a.toNat / 4 * 4, v)]) :=
  congrArg Host.Outcome.next (hostWrite_words hr hm _ _)

theorem registerWrite_clkout (v : W32) :
    exec (.registerWrite 0x400048 v) s = .next { s with clk := { s.clk with clkoutSel := v.setWidth 2 } } := by
  rw [← field_low v (by decide)]
  exact (exec_registerWrite hr hm _ v).trans (congrArg Host.Outcome.next (hostWords_singleton s v (by decide) (by decide) (by decide)))

theorem registerWrite_irq (v : W32) :
    exec (.registerWrite 0x431004 v) s = .next { s with ev := { s.ev with irqEn := v.getLsbD 0, irqOvf := v.getLsbD 1 } } :=
  (exec_registerWrite hr hm _ v).trans (congrArg Host.Outcome.next (hostWords_singleton s v (by decide) (by decide) (by decide)))

omit hr hm in
theorem writeWord_protLatch (s : State) (n : Chan) (v : W32) : writeWord s (0x410124 + 0x1000 * n.val) v =
    s.modCh n fun c => { c with prot := { c.prot with lat := rw1c c.prot.lat (field v 0 10) } } := by
  have hn := n.isLt
  have ho : (0x410124 + 0x1000 * n.val) % 0x10000 = 0x124 + 0x1000 * n.val := by omega
  have hc : chanOf ((0x124 + 0x1000 * n.val) / 0x1000) = n := Fin.ext (show _ % 16 = n.val by omega)
  have hw : (0x124 + 0x1000 * n.val) % 0x1000 = 0x124 := by omega
  unfold writeWord
  dsimp only
  rw [if_neg (by omega), if_neg (by omega), if_pos (by omega), ho, hc, hw]
  rfl

theorem registerWrite_protLatch (n : Chan) (v : W32) :
    Completes (.registerWrite (BitVec.ofNat 24 (0x410124 + 0x1000 * n.val)) v) s fun t =>
      t.ch[n].prot.lat = s.ch[n].prot.lat &&& ~~~(v.setWidth 10) ∧ t.ch[n].prot.live = s.ch[n].prot.live ∧
      (∀ m : Chan, m ≠ n → t.ch[m] = s.ch[m]) ∧ SameOutside [.ch] s t := by
  have hn := n.isLt
  have ha : (BitVec.ofNat 24 (0x410124 + 0x1000 * n.val)).toNat / 4 * 4 = 0x410124 + 0x1000 * n.val := by
    rw [BitVec.toNat_ofNat]
    omega
  have hrw : ∀ n : Chan, isRw1c (0x410124 + 0x1000 * n.val) = true := by decide
  have hcmd : ∀ n : Chan, cmdSlot (0x410124 + 0x1000 * n.val) = none := by decide
  have e := exec_registerWrite hr hm (BitVec.ofNat 24 (0x410124 + 0x1000 * n.val)) v
  rw [ha, hostWords_rw1c s v (by omega) (hcmd n) (hrw n), writeWord_protLatch] at e
  have h : (s.modCh n fun c => { c with prot := { c.prot with lat := rw1c c.prot.lat (field v 0 10) } }).ch[n] = _ := modAt_self ..
  refine ⟨_, e, ?_, by rw [h], fun m hmn => modAt_of_ne _ _ hmn, SameOutside.set_ch _ _⟩
  rw [h, field_low v (by decide)]
  rfl

theorem registerWrite_reserved (a : BitVec 24) (v : W32) (h1 : 0x4C0000 ≤ a.toNat) (h2 : a.toNat < 0x500000) :
    exec (.registerWrite a v) s = .next s := by
  have e := exec_registerWrite hr hm a v
  rw [hostWords_high s v (by omega) (.inr (.inl (by omega))) (by omega)] at e
  refine e.trans (congrArg Host.Outcome.next ?_)
  unfold writeWord
  dsimp only
  rw [if_neg (by omega), if_neg (by omega), if_neg (by omega), if_neg (by omega), if_neg (by omega), if_neg (by omega), if_neg (by omega),
    if_neg (by omega), if_neg (by omega), if_neg (by omega), if_neg (by omega), if_pos (by omega)]

theorem registerWrite_serial (a : BitVec 24) (v : W32) (h : 0x800000 ≤ a.toNat) :
    Completes (.registerWrite a v) s fun t =>
      t.flash = s.flash ∧ t.mem.lastErr = 1 ∧ t.mem.errors = satInc s.mem.errors ∧ SameOutside [.ev, .mem, .port] s t := by
  have e := exec_registerWrite hr hm a v
  rw [hostWords_high s v (by omega) (.inr (.inl (by omega))) (by omega)] at e
  have hw : writeWord s (a.toNat / 4 * 4) v = memError s 1 := by
    unfold writeWord
    dsimp only
    rw [if_neg (by omega), if_neg (by omega), if_neg (by omega), if_neg (by omega), if_neg (by omega), if_neg (by omega), if_neg (by omega),
      if_neg (by omega), if_neg (by omega), if_neg (by omega), if_neg (by omega), if_neg (by omega), if_neg (by omega), if_neg (by omega)]
  rw [hw] at e
  have h1 := (memError_moves s 1).same
  have hmem : (memError s 1).mem = { s.mem with lastErr := 1, errors := satInc s.mem.errors } := memError_mem ..
  exact ⟨_, e, h1.flash rfl, by rw [hmem], by rw [hmem], h1.widen rfl⟩

end Register

/-- Settles O58: each write is the meaning of the one word that it carries. -/
theorem wordsWrittenToTheMap : Obligations.WordsWrittenToTheMap := by
  unfold Obligations.WordsWrittenToTheMap
  refine ⟨fun s p hr => ⟨fun bank tap v => ⟨fun h => ?_, fun hl hm h => ?_,
      fun hl hm ha hf hs => coefficientWrite_idle hl hm tap v hr ha hf hs⟩,
    fun v hm hv => ⟨fun n hn hl hf hload hrem hwait ht => swapRequest_fades hr hm hv hf hload hrem hwait hn hl ht,
      fun n hn hl hf => swapRequest_waits hr hm hv hn hl hf,
      fun h0 hf hload hrem hwait ht => swapRequest_same hr hm hv hf hload hrem hwait h0 ht, fun h0 h => swapRequest_refused hr hm hv h0 h⟩,
    fun v hm hv => syncRequest_resets hr hm hv⟩,
    fun s hr hm => ⟨fun a v hl hloc ho hq hs => ⟨imageWrite_acts hr hm a v hl hloc hq ho hs, imageWrite_class hr hm a v hl hloc hq⟩,
      fun a v k hl h hn => imageWrite_sent hr hm a v hl h hn, fun a v why hl h => ?_, fun a v hl => ?_, exec_ppssetWrite hr hm,
      countClear_clears hr hm, registerWrite_clkout hr hm, registerWrite_irq hr hm, registerWrite_protLatch hr hm, registerWrite_reserved hr hm,
      registerWrite_serial hr hm⟩⟩
  · exact ⟨_, (exec_coefficientWrite hr ..).trans (congrArg Host.Outcome.next (writeCoeff_mode h p bank tap v)), rfl, rfl, rfl, rfl,
      SameOutside.set_conv _ _⟩
  · exact ⟨_, (exec_coefficientWrite hr ..).trans (congrArg Host.Outcome.next (writeCoeff_busy hl hm tap v h)), rfl, rfl, rfl, rfl,
      SameOutside.set_conv _ _⟩
  · obtain ⟨t, e, h1, h2, h3, h4, -, h6⟩ := imageWrite_refused hr hm a v (originWords_refused a v hl h)
    exact ⟨t, e, h1, h2, h3, h4, h6⟩
  · obtain ⟨t, e, h1, h2, h3, h4, -, h6⟩ := imageWrite_refused hr hm a v (originWords_load a v hl)
    exact ⟨t, e, h1, h2, h3, h4, h6⟩

end Sys2Proof.Machine
end

section
/-!
Entries, frames and polls of the memory port (17 R456–R466, R471).
-/
namespace Sys2Proof.Machine

theorem SameOutside.set_free_mem (s : State) (x : Nat) (y : MemPort) : SameOutside [.free, .mem] s { s with free := x, mem := y } :=
  (SameOutside.set_mem { s with free := x } y).step rfl ((SameOutside.set_free s x).widen rfl)

/-! ## Queue entries -/

section Entry

variable {s : State} (hr : s.execRuns = true) (e : MemEntry) (data : List Byte)

include hr

theorem queueEntry_bad (hb : entryBad s.mem e = true) :
    Completes (.queueEntry e.w0 e.w1 e.w2 e.w3 data) s fun t =>
      t.mem.lastErr = 1 ∧ t.mem.errors = satInc s.mem.errors ∧ t.mem.queue = s.mem.queue ∧ SameOutside [.ev, .mem, .port] s t := by
  have hx : exec (.queueEntry e.w0 e.w1 e.w2 e.w3 data) s = .next (memError s 1) :=
    congrArg Host.Outcome.next ((if_neg (by rw [hr]; decide)).trans (if_pos hb))
  have hm := memError_mem s 1
  exact ⟨_, hx, by rw [hm], by rw [hm], by rw [hm], (memError_moves s 1).same.widen rfl⟩

theorem queueEntry_full (hb : entryBad s.mem e = false) (hn : 16 ≤ s.mem.queue.length) :
    Completes (.queueEntry e.w0 e.w1 e.w2 e.w3 data) s fun t =>
      t.mem.lastErr = 6 ∧ t.mem.errors = satInc s.mem.errors ∧ t.mem.queue = s.mem.queue ∧ SameOutside [.ev, .mem, .port] s t := by
  have hx : exec (.queueEntry e.w0 e.w1 e.w2 e.w3 data) s = .next (memError s 6) :=
    congrArg Host.Outcome.next ((if_neg (by rw [hr]; decide)).trans ((if_neg (by rw [show entryBad s.mem _ = false from hb]; decide)).trans
      (if_pos hn)))
  have hm := memError_mem s 6
  exact ⟨_, hx, by rw [hm], by rw [hm], by rw [hm], (memError_moves s 6).same.widen rfl⟩

theorem queueEntry_enters (hb : entryBad s.mem e = false) (hn : s.mem.queue.length < 16) :
    Completes (.queueEntry e.w0 e.w1 e.w2 e.w3 data) s fun t =>
      t.mem.queue = s.mem.queue ++ [e] ∧ (e.write = false → t.mem.buf = s.mem.buf) ∧ t.mem.errors = s.mem.errors ∧
      SameOutside [.mem] s t := by
  refine ⟨{ s with mem := { s.mem with
    queue := s.mem.queue ++ [e], buf := if e.write then swriteList 0 s.mem.buf e.bufOfs (data.take e.dataBytes) else s.mem.buf } },
    congrArg Host.Outcome.next ((if_neg (by rw [hr]; decide)).trans ((if_neg (by rw [show entryBad s.mem _ = false from hb]; decide)).trans
      (if_neg (Nat.not_le.mpr hn)))), rfl, fun hw => ?_, rfl, SameOutside.set_mem _ _⟩
  exact if_neg (by rw [hw]; decide)

end Entry

/-! ## What a finished frame does -/

theorem setWel_mem (s : State) (dev : Nat) (b : Bool) : ∃ w, (setWel s dev b).mem = { s.mem with wel := w } := by
  unfold setWel
  split
  · exact ⟨_, rfl⟩
  · exact ⟨s.mem.wel, rfl⟩

theorem onFlash_mem (s : State) (dev : Nat) (f : List Host.Cell → List Host.Cell) : (onFlash s dev f).mem = s.mem := by
  unfold onFlash
  split
  · rfl
  · split <;> rfl

/-- A finished frame leaves the port's own state but for the write-enable latches (17 R460, Table 17-3). -/
theorem frameDone_mem (s : State) (dev : Nat) (cmd : W16) (addr : W32) (data : List Byte) :
    ∃ w, (frameDone s dev cmd addr data).mem = { s.mem with wel := w } := by
  have h (f : List Host.Cell → List Host.Cell) : ∃ w, (setWel (onFlash s dev f) dev false).mem = { s.mem with wel := w } := by
    obtain ⟨w, e⟩ := setWel_mem (onFlash s dev f) dev false
    exact ⟨w, by rw [e, onFlash_mem]⟩
  unfold frameDone
  dsimp only
  split
  · exact setWel_mem ..
  · split
    · exact setWel_mem ..
    · split
      · exact h _
      · split
        · exact h _
        · exact ⟨s.mem.wel, rfl⟩

/-- Without write enable a device keeps its content. -/
theorem frameDone_content (s : State) (dev : Nat) (cmd : W16) (addr : W32) (data : List Byte) :
    (s.mem.wel[(0 : Fin 2)] = false → (frameDone s dev cmd addr data).flash = s.flash) ∧
    (s.mem.wel[(1 : Fin 2)] = false → (frameDone s dev cmd addr data).mirror = s.mirror) := by
  have hset (a : State) (b : Bool) : (setWel a dev b).flash = a.flash ∧ (setWel a dev b).mirror = a.mirror :=
    ⟨(setWel_moves a dev b).same.flash rfl, (setWel_moves a dev b).same.mirror rfl⟩
  have hon (f : List Host.Cell → List Host.Cell) (hw : welOf s.mem dev = true) :
      (s.mem.wel[(0 : Fin 2)] = false → (setWel (onFlash s dev f) dev false).flash = s.flash) ∧
      (s.mem.wel[(1 : Fin 2)] = false → (setWel (onFlash s dev f) dev false).mirror = s.mirror) := by
    rw [(hset _ _).1, (hset _ _).2]
    unfold welOf at hw
    unfold onFlash
    by_cases h0 : dev = 0
    · rw [if_pos h0] at hw ⊢
      exact ⟨fun h => absurd (hw.symm.trans h) (by decide), fun _ => rfl⟩
    · rw [if_neg h0, Bool.and_eq_true, decide_eq_true_eq] at hw
      rw [if_neg h0, if_pos hw.1]
      exact ⟨fun _ => rfl, fun h => absurd (hw.2.symm.trans h) (by decide)⟩
  have hkeep (b : Bool) : (s.mem.wel[(0 : Fin 2)] = false → (setWel s dev b).flash = s.flash) ∧
      (s.mem.wel[(1 : Fin 2)] = false → (setWel s dev b).mirror = s.mirror) := ⟨fun _ => (hset s b).1, fun _ => (hset s b).2⟩
  unfold frameDone
  dsimp only
  split
  · exact hkeep _
  · split
    · exact hkeep _
    · split
      next h => exact hon _ (Bool.and_eq_true_iff.mp h).2
      next =>
        split
        next h => exact hon _ (Bool.and_eq_true_iff.mp h).2
        next => exact ⟨fun _ => rfl, fun _ => rfl⟩

theorem frameDone_enable (s : State) (addr : W32) (data : List Byte) : (frameDone s 0 0x06 addr data).mem.wel[(0 : Fin 2)] = true := by
  have e : frameDone s 0 0x06 addr data = setWel s 0 true := by
    unfold frameDone
    exact if_pos rfl
  rw [e]
  unfold setWel
  rw [dif_pos (by decide)]
  simp [setAt]

/-! ## The frame of an entry -/

/-- The machine with the frame of `e` sent, as `sendFrame` leaves it before its end: `cmd`, `addr` and `data` are what was sent. -/
def frameSent (s : State) (e : MemEntry) (cmd : W16) (addr : W32) (got data : List Byte) : State :=
  { s with
    free := if e.write then s.free else s.free + 1
    mem := { s.mem with
      frame := some (e.sel, e.msel, cmd, addr, data)
      buf := if e.write then s.mem.buf else swriteList 0 s.mem.buf e.bufOfs got } }

/-- A frame that begins with its entry's select not held. -/
theorem sendFrame_begins {s : State} (hh : s.mem.heldSel = none) (e : MemEntry) :
    ∃ addr got data sent, sendFrame s e =
      if e.cont then frameSent s e (if e.cmdBits = 0 then 0 else e.cmd) addr got data
      else frameDone (frameSent s e (if e.cmdBits = 0 then 0 else e.cmd) addr got data) (deviceOf s.mem e.sel e.msel)
        (if e.cmdBits = 0 then 0 else e.cmd) addr sent := by
  unfold sendFrame
  rw [hh]
  exact ⟨_, _, _, _, rfl⟩

theorem sendFrame_parts {s : State} (hh : s.mem.heldSel = none) (e : MemEntry) :
    let t := sendFrame s e
    t.mem.chainPoll = s.mem.chainPoll ∧ (s.mem.wel[(0 : Fin 2)] = false → t.flash = s.flash) ∧
    (s.mem.wel[(1 : Fin 2)] = false → t.mirror = s.mirror) ∧ (e.cont = true → t.flash = s.flash ∧ t.mirror = s.mirror) ∧
    (e.cont = false → s.mem.decoded = false → e.sel = false → e.cmd = 0x06 → e.cmdBits ≠ 0 → t.mem.wel[(0 : Fin 2)] = true) := by
  obtain ⟨addr, got, data, sent, he⟩ := sendFrame_begins hh e
  dsimp only
  rw [he]
  cases hc : e.cont
  · rw [if_neg Bool.false_ne_true]
    obtain ⟨w, hw⟩ := frameDone_mem (frameSent s e (if e.cmdBits = 0 then 0 else e.cmd) addr got data) (deviceOf s.mem e.sel e.msel)
      (if e.cmdBits = 0 then 0 else e.cmd) addr sent
    obtain ⟨hf, hm⟩ := frameDone_content (frameSent s e (if e.cmdBits = 0 then 0 else e.cmd) addr got data) (deviceOf s.mem e.sel e.msel)
      (if e.cmdBits = 0 then 0 else e.cmd) addr sent
    refine ⟨by rw [hw]; rfl, hf, hm, fun h => absurd h Bool.false_ne_true, fun _ hd hs hcmd hb => ?_⟩
    have hdev : deviceOf s.mem e.sel e.msel = 0 := by
      unfold deviceOf
      rw [hd, hs]
      rfl
    rw [hdev, if_neg hb, hcmd]
    exact frameDone_enable ..
  · rw [if_pos rfl]
    exact ⟨rfl, fun _ => rfl, fun _ => rfl, fun _ => ⟨rfl, rfl⟩, fun h => absurd h (by decide)⟩

theorem nextEntry_some {m : MemPort} {e : MemEntry} {rest : List MemEntry}
    (h : m.again = some e ∧ rest = m.queue ∨ m.again = none ∧ m.queue = e :: rest) : nextEntry m = some (e, rest) := by
  unfold nextEntry
  rcases h with ⟨h1, rfl⟩ | ⟨h1, h2⟩
  · rw [h1]
  · rw [h1, h2]

theorem memoryFrame_sends {s : State} {e : MemEntry} {rest : List MemEntry}
    (hn : s.mem.again = some e ∧ rest = s.mem.queue ∨ s.mem.again = none ∧ s.mem.queue = e :: rest) (hp : portReset s = false)
    (hc : s.mem.cur = none) (hpoll : s.mem.polling = false) (hh : s.mem.heldSel = none) (hcp : s.mem.chainPoll = 0) :
    Completes .memoryFrame s fun t =>
      t.mem.queue = rest ∧ t.mem.again = none ∧ t.mem.cur = some e ∧ (t.mem.polling = true ↔ e.cont = false ∧ e.poll ≠ 0) ∧
      t.mem.heldSel = (if e.cont then some (e.sel, e.msel) else none) ∧
      (s.mem.wel[(0 : Fin 2)] = false → t.flash = s.flash) ∧ (s.mem.wel[(1 : Fin 2)] = false → t.mirror = s.mirror) ∧
      (e.cont = true → t.flash = s.flash ∧ t.mirror = s.mirror) ∧
      (e.cont = false → s.mem.decoded = false → e.sel = false → e.cmd = 0x06 → e.cmdBits ≠ 0 → t.mem.wel[(0 : Fin 2)] = true) ∧
      SameOutside [.flash, .mirror, .free, .mem] s t := by
  have hx : exec .memoryFrame s = .next (
      let s2 := sendFrame s e
      let poll := if e.poll ≠ 0 then e.poll else s2.mem.chainPoll
      { s2 with mem := { s2.mem with
          queue := rest, again := none, cur := some e, heldSel := if e.cont then some (e.sel, e.msel) else none
          chainPoll := if e.cont then poll else 0, polling := !e.cont && poll ≠ 0, pollErase := poll = 2 } }) := by
    refine congrArg Host.Outcome.next ?_
    rw [nextEntry_some hn]
    dsimp only
    rw [hp, hc, hpoll, if_neg (by decide), hh, if_neg Bool.false_ne_true, hpoll, if_neg Bool.false_ne_true]
  obtain ⟨h1, h2, h3, h4, h5⟩ := sendFrame_parts hh e
  have hs := (sendFrame_moves s e).same
  dsimp only at hx
  generalize sendFrame s e = a at hx h1 h2 h3 h4 h5 hs
  refine ⟨_, hx, rfl, rfl, rfl, ?_, rfl, h2, h3, h4, h5, (SameOutside.set_mem a _).step rfl (hs.widen rfl)⟩
  dsimp only
  rw [h1, hcp]
  by_cases hz : e.poll = 0 <;> simp [hz]

/-! ## Polls, chains and window reads -/

theorem contBreak_releases {s : State} {x : Bool × BitVec 3} (hh : s.mem.heldSel = some x) (hc : s.mem.cur = none) (hq : s.mem.queue = []) :
    Completes .contBreak s fun t =>
      t.mem.heldSel = none ∧ t.mem.contBreak = satInc s.mem.contBreak ∧ (t.mem.polling = true ↔ s.mem.chainPoll ≠ 0) ∧
      SameOutside [.flash, .mirror, .mem] s t := by
  have hx : exec .contBreak s = .next (breakChain s) := congrArg Host.Outcome.next (if_pos (by rw [hh, hc, hq]; rfl))
  refine ⟨_, hx, rfl, ?_, ?_, (breakChain_moves s).same⟩
  all_goals
    unfold breakChain releaseSelect
    dsimp only
    split
  · obtain ⟨w, hw⟩ := frameDone_mem { s with mem := { s.mem with contBreak := satInc s.mem.contBreak } } (deviceOf _ _ _) _ _ _
    rw [hw]
  · rfl
  · obtain ⟨w, hw⟩ := frameDone_mem { s with mem := { s.mem with contBreak := satInc s.mem.contBreak } } (deviceOf _ _ _) _ _ _
    rw [hw, decide_eq_true_eq]
  · rw [decide_eq_true_eq]

section Window

variable {s : State} {addr : BitVec 24} {len : W16} (hp : portReset s = false) (hc : s.mem.cur = none) (hh : s.mem.heldSel = none)
  (hpoll : s.mem.polling = false)

include hp hc hh hpoll

theorem exec_xipRead {code : BitVec 3} (hcode : (if s.mem.decoded then s.mem.code else 0) = code)
    (hspan : xipSpan code addr.toNat (addr.toNat + len.toNat) = (addr.toNat, addr.toNat + len.toNat)) (hl : 0 < len.toNat) :
    exec (.xipRead addr len) s = .next { s with
      free := s.free + 1
      mem := { s.mem with xip := s.mem.xip + 1, frame := some (false, code, s.mem.xipCmd.setWidth 16, addr.setWidth 32,
        (List.range len.toNat).map fun i => windowByte s (addr.toNat + i)) } } := by
  refine congrArg Host.Outcome.next ?_
  dsimp only
  rw [hcode, hspan, if_neg, Nat.add_sub_cancel_left, BitVec.ofNat_toNat]
  rw [hp, hc, hh, hpoll, decide_eq_false (by omega)]
  decide

theorem xipRead_flash (hd : s.mem.decoded = false) (hl : 0 < len.toNat) :
    Completes (.xipRead addr len) s fun t =>
      t.mem.xip = s.mem.xip + 1 ∧ t.mem.queue = s.mem.queue ∧ t.mem.buf = s.mem.buf ∧
      t.mem.frame = some (false, 0, s.mem.xipCmd.setWidth 16, addr.setWidth 32,
        (List.range len.toNat).map fun i => s.flashAt (addr.toNat + i)) ∧
      SameOutside [.free, .mem] s t := by
  have hx := exec_xipRead hp hc hh hpoll (code := 0) (by rw [hd]; rfl) rfl hl (addr := addr)
  have hb : ∀ o, windowByte s o = s.flashAt o := fun o => if_pos (by rw [hd]; rfl)
  refine ⟨_, hx, rfl, rfl, rfl, ?_, SameOutside.set_free_mem ..⟩
  simp only [hb]

theorem xipRead_mirror (hd : s.mem.decoded = true) (hcode : s.mem.code = 1) (h1 : 0x400000 ≤ addr.toNat)
    (h2 : addr.toNat + len.toNat ≤ 0x500000) (hl : 0 < len.toNat) :
    Completes (.xipRead addr len) s fun t =>
      t.mem.xip = s.mem.xip + 1 ∧
      t.mem.frame = some (false, 1, s.mem.xipCmd.setWidth 16, addr.setWidth 32,
        (List.range len.toNat).map fun i => s.mirrorAt (addr.toNat + i)) ∧
      SameOutside [.free, .mem] s t := by
  have hspan : xipSpan 1 addr.toNat (addr.toNat + len.toNat) = (addr.toNat, addr.toNat + len.toNat) := by
    unfold xipSpan
    rw [if_pos rfl, Nat.max_eq_left h1, Nat.min_eq_left h2]
  have hx := exec_xipRead hp hc hh hpoll (code := 1) (by rw [hd]; exact hcode) hspan hl
  refine ⟨_, hx, rfl, ?_, SameOutside.set_free_mem ..⟩
  have hb : ∀ i ∈ List.range len.toNat, windowByte s (addr.toNat + i) = s.mirrorAt (addr.toNat + i) := fun i hi => by
    have := List.mem_range.mp hi
    unfold windowByte
    rw [hd, hcode, if_neg (by decide), if_pos rfl, if_pos]
    rw [decide_eq_true (by omega), decide_eq_true (by omega)]
    rfl
  rw [List.map_congr_left hb]

end Window

/-- Settles O59: entries, frames and polls by the branches of the port's own definitions; only a finished frame reaches a device, and it needs
the device's write-enable latch. -/
theorem memoryPortEntriesAndFrames : Obligations.MemoryPortEntriesAndFrames := by
  unfold Obligations.MemoryPortEntriesAndFrames
  refine fun s => ⟨fun e data hr => ⟨queueEntry_bad hr e data, queueEntry_full hr e data, queueEntry_enters hr e data⟩,
    fun e rest hn hp hc hpoll hh hcp => memoryFrame_sends hn hp hc hpoll hh hcp, fun st hpoll => ⟨fun h => ?_, fun h => ?_⟩,
    fun e ok hc => ⟨fun hpoll => ?_, fun hpoll => ?_⟩, fun x hh hc hq => contBreak_releases hh hc hq,
    fun addr len hp hc hh hpoll => ⟨xipRead_flash hp hc hh hpoll, xipRead_mirror hp hc hh hpoll⟩, fun hd hc hpoll hh => ?_⟩
  · exact congrArg Host.Outcome.next (if_pos (by rw [hpoll, show bitAt st 0 = false from h]; rfl))
  · exact congrArg Host.Outcome.next (if_neg (by rw [hpoll, show bitAt st 0 = true from h]; decide))
  · refine congrArg Host.Outcome.next ?_
    rw [hc]
    exact if_neg (by rw [hpoll]; decide)
  · refine congrArg Host.Outcome.next ?_
    rw [hc]
    exact if_pos hpoll
  · refine congrArg Host.Outcome.next ?_
    dsimp only
    rw [if_neg (by rw [decide_eq_false hd, hc, hpoll]; decide), if_neg (by rw [hh]; decide)]

end Sys2Proof.Machine
end

section
/-!
The event log in flash, and the scrubber (18 R489, 01 R29, Table 1-9).
-/
namespace Sys2Proof.Machine

/-! ## The log's records programmed -/

theorem exec_logFlush {s : State} (hr : s.execRuns = true) : exec .logFlush s = .next (flushLog s) := congrArg Host.Outcome.next (if_pos hr)

theorem flushLog_empty {s : State} (h : s.ev.sramLog = []) : flushLog s = s := if_pos (by rw [h]; rfl)

/-- The machine whose collected records have been programmed, before a loss is recorded. -/
def logWritten (s : State) : EventRouter :=
  let r := logProgram s.ev.sramLog s.flash s.ev.logPlace
  { s.ev with sramLog := [], logPlace := pagePlace r.2, logOld := (findLog (sread flashErased r.1)).2.2 }

theorem flushLog_writes {s : State} (h : s.ev.sramLog ≠ []) : flushLog s = { s with
    flash := (logProgram s.ev.sramLog s.flash s.ev.logPlace).1
    ev := lossRecord (logWritten s) s.recov.resets (field s.tick 32 32) } :=
  if_neg (by rwa [List.isEmpty_iff])

theorem pagePlace_whole (i : Nat) : pagePlace i % 8 = 0 := by
  unfold pagePlace
  omega

theorem logFlush_programs {s : State} (hr : s.execRuns = true) (h : s.ev.sramLog ≠ []) (hl : s.ev.logLostRun = 0) :
    Completes .logFlush s fun t =>
      t.ev.sramLog = [] ∧ t.flash = (logProgram s.ev.sramLog s.flash s.ev.logPlace).1 ∧ t.ev.logPlace % 8 = 0 ∧
      t.ev.ring = s.ev.ring ∧ SameOutside [.ev, .flash] s t := by
  have e := exec_logFlush hr
  have hloss : lossRecord (logWritten s) s.recov.resets (field s.tick 32 32) = logWritten s := if_pos hl
  have hs := (flushLog_moves s).same
  rw [flushLog_writes h, hloss] at e hs
  exact ⟨_, e, rfl, rfl, pagePlace_whole _, rfl, hs⟩

theorem logFlush_recordsLoss {s : State} (hr : s.execRuns = true) (h : s.ev.sramLog ≠ []) (hl : s.ev.logLostRun ≠ 0) :
    Completes .logFlush s fun t =>
      (∃ r : LogRecord, t.ev.sramLog = [r] ∧ r.ltype = 0x03 ∧ r.body = [BitVec.ofNat 32 s.ev.logLostRun, 0, 0, 0]) ∧
      t.ev.logLostRun = 0 ∧ SameOutside [.ev, .flash] s t := by
  have e := exec_logFlush hr
  have hs := (flushLog_moves s).same
  have hloss : lossRecord (logWritten s) s.recov.resets (field s.tick 32 32) =
      { logPut (logWritten s) 0x03 0 s.recov.resets [BitVec.ofNat 32 s.ev.logLostRun, 0, 0, 0] (field s.tick 32 32) with logLostRun := 0 } :=
    if_neg hl
  have hput (r : W16) (b : List W32) (k : W32) : logPut (logWritten s) 0x03 0 r b k = { logWritten s with
      sramLog := [⟨0x03, 0, r, (logWritten s).logPos, b, k⟩], logPos := (logWritten s).logPos + 1, logSeal := true } :=
    if_pos (by decide : ([] : List LogRecord).length < 8192)
  rw [flushLog_writes h, hloss, hput] at e hs
  exact ⟨_, e, ⟨_, rfl, rfl, rfl⟩, rfl, hs⟩

/-! ## The scrubber -/

section Scrub

variable {s : State} (hp : portReset s = false)

/-- The machine with the event of an uncorrectable word raised. -/
def eccRaised (s : State) (o : BitVec 23) : State := raise s srcEccUncorr (BitVec.ofNat 32 (o.toNat / 8 * 8))

theorem eccRaised_moves (s : State) (o : BitVec 23) : Moves [.ev, .port] s (eccRaised s o) := raise_moves ..

include hp

theorem exec_scrub_corrected (o : BitVec 23) : exec (.scrub o false) s = .next (raise s srcEccCorr (BitVec.ofNat 32 (o.toNat / 8 * 8))) :=
  congrArg Host.Outcome.next ((if_neg (by rw [hp]; decide)).trans (if_pos rfl))

theorem exec_scrub_lost (o : BitVec 23) : exec (.scrub o true) s = .next (eccWord (eccRaised s o) (o.toNat / 8 * 8)) :=
  congrArg Host.Outcome.next ((if_neg (by rw [hp]; decide)).trans (if_neg (by decide)))

theorem scrub_corrected (o : BitVec 23) : Completes (.scrub o false) s fun t =>
    (s.execRuns = true → s.ev.src[srcEccCorr].enable = true → t.ev.src[srcEccCorr].count = satInc s.ev.src[srcEccCorr].count) ∧
    SameOutside [.ev, .port] s t :=
  ⟨_, exec_scrub_corrected hp o, fun hr he => raise_count hr he (by decide) _, (raise_moves ..).same⟩

omit hp in
/-- A word that the executive need not write again acts at once by its region. -/
theorem eccWord_region {a : State} {o : Nat} (h : a.execRuns = true ∨ 0x400000 ≤ o ∧ (o < 0x7C0000 ∨ 0x7C4000 ≤ o)) :
    eccWord a o = eccRegion a o := by
  refine if_neg ?_
  rcases h with h | ⟨h1, h2⟩
  · rw [h, Bool.not_true, Bool.and_false, Bool.false_and]
    exact Bool.false_ne_true
  · simp only [Bool.and_eq_true, Bool.or_eq_true, decide_eq_true_eq]
    omega

theorem scrub_staging (o : BitVec 23) (h1 : 0x600000 ≤ o.toNat) (h2 : o.toNat < 0x700000) (hs : s.recov.stage = .opened) :
    Completes (.scrub o true) s fun t =>
      t.recov.stage = .invalid ∧ t.recov.stageEcc = true ∧ t.recov.staging = s.recov.staging ∧ SameOutside [.ev, .port, .recov] s t := by
  have e := exec_scrub_lost hp o
  have h0 := (eccRaised_moves s o).same
  have hreg (a : State) : eccRegion a (o.toNat / 8 * 8) = eccStaging a := by
    unfold eccRegion
    rw [if_neg (by omega), if_neg (by omega), if_pos (by omega)]
  rw [eccWord_region (.inr ⟨by omega, by omega⟩), hreg] at e
  generalize eccRaised s o = a at e h0
  have hst : eccStaging a = setStage { a with recov := { a.recov with stageEcc := true, switchDue := false } } .invalid := by
    have hopen : a.recov.stage = .opened := (congrArg RecovState.stage (h0.recov rfl)).trans hs
    unfold eccStaging
    rw [hopen]
  rw [hst] at e
  have hrec := setStage_recov { a with recov := { a.recov with stageEcc := true, switchDue := false } } .invalid
  have h1 := (setStage_moves { a with recov := { a.recov with stageEcc := true, switchDue := false } } .invalid).same
  refine ⟨_, e, by rw [hrec], by rw [hrec], by rw [hrec]; exact (congrArg RecovState.staging (h0.recov rfl) : a.recov.staging = _), ?_⟩
  exact h1.step rfl ((SameOutside.set_recov a _).step rfl (h0.widen rfl))

theorem scrub_ring (o : BitVec 23) (h1 : 0x700000 ≤ o.toNat) (h2 : o.toNat < 0x780000) (hs : Sound s) :
    Completes (.scrub o true) s fun t =>
      (sread {} t.conv.ring ((o.toNat - 0x700000) / 16)).valid = false ∧
      (∀ k, k ≠ (o.toNat - 0x700000) / 16 → sread {} t.conv.ring k = sread {} s.conv.ring k) ∧ SameOutside [.conv, .ev, .port] s t := by
  have e := exec_scrub_lost hp o
  have h0 := (eccRaised_moves s o).same
  have hk : (o.toNat / 8 * 8 - 0x700000) / 16 = (o.toNat - 0x700000) / 16 := by omega
  have hreg (a : State) : eccRegion a (o.toNat / 8 * 8) = eccRing a ((o.toNat - 0x700000) / 16) := by
    unfold eccRegion
    rw [if_neg (by omega), if_neg (by omega), if_neg (by omega), if_pos (by omega), hk]
  rw [eccWord_region (.inr ⟨by omega, by omega⟩), hreg] at e
  have hc : (eccRaised s o).conv = s.conv := h0.conv rfl
  generalize eccRaised s o = a at e h0 hc
  have hw : swf {} a.conv.ring = true := by
    rw [hc]
    exact (hs .conv).2
  refine ⟨_, e, ?_, fun k hk => ?_, (eccRing_moves a _).same.step rfl (h0.widen rfl)⟩
  · exact (congrArg ResultBlock.valid ((sread_swrite hw ..).trans (if_pos rfl))).trans rfl
  · rw [← hc]
    exact (sread_swrite hw ..).trans (if_neg hk)

theorem scrub_waits (o : BitVec 23) (hrun : s.m.run = .running) (hr : s.execRuns = false) (ho : o.toNat < 0x400000) :
    Completes (.scrub o true) s fun t =>
      t.recov.eccDue = s.recov.eccDue ++ [o.toNat / 8 * 8] ∧ SameOutside [.ev, .port, .recov] s t := by
  have e := exec_scrub_lost hp o
  have h0 := (eccRaised_moves s o).same
  have hr' : (eccRaised s o).execRuns = false := by
    unfold State.execRuns
    rw [h0.m rfl, h0.recov rfl, h0.triad rfl]
    exact hr
  generalize eccRaised s o = a at e h0 hr'
  have hw : eccWord a (o.toNat / 8 * 8) = { a with recov := { a.recov with eccDue := a.recov.eccDue ++ [o.toNat / 8 * 8] } } := by
    refine if_pos ?_
    rw [h0.m rfl, hrun, hr', decide_eq_true (show o.toNat / 8 * 8 < 0x400000 by omega)]
    rfl
  rw [hw] at e
  refine ⟨_, e, ?_, (SameOutside.set_recov a _).step rfl (h0.widen rfl)⟩
  dsimp only
  rw [h0.recov rfl]

theorem scrub_rules (o : BitVec 23) (h1 : 0x400000 ≤ o.toNat) (h2 : o.toNat < 0x600000) (hr : s.execRuns = true)
    (hm : s.m.mode ∈ [Mode.run, .reduced, .trim]) :
    Completes (.scrub o true) s fun t => t.m.mode = .safe ∧ t.m.cause = 0x0C ∨ t.m.mode = .stop ∧ t.m.cause = 0x0F := by
  have e := exec_scrub_lost hp o
  have h0 := (eccRaised_moves s o).same
  have hrun : (eccRaised s o).m.run = .running := by
    rw [h0.m rfl]
    by_contra h
    rw [execRuns_running h] at hr
    exact Bool.false_ne_true hr
  have hm' : (eccRaised s o).m.mode = .run ∨ (eccRaised s o).m.mode = .reduced ∨ (eccRaised s o).m.mode = .trim := by
    rw [h0.m rfl]
    simpa only [List.mem_cons, List.not_mem_nil, or_false] using hm
  have hreg : eccRegion (eccRaised s o) (o.toNat / 8 * 8) = enterSafe (eccRaised s o) 0x0C none := by
    unfold eccRegion
    rw [if_neg (by omega), if_pos (by omega), if_pos hrun]
  rw [eccWord_region (.inr ⟨by omega, by omega⟩), hreg] at e
  exact ⟨_, e, enterSafe_mode _ _ _ hm'⟩

end Scrub

/-! ## Endpoint words lost -/

theorem epWord_quality (seq : Byte) (q cls : BitVec 4) (v : W16) : epQual (epWord seq q cls v) = q ∧ epClass (epWord seq q cls v) = cls := by
  constructor
  all_goals
    ext i hi
    interval_cases i <;> simp [epWord, epQual, epClass, field, put]

section Endpoint

variable {s : State} {a : BitVec 20} (hv : s.votes = true) (hs : Sound s)

include hv hs

theorem eccEndpoint_other {b : BitVec 20} (hb : b ≠ a) : (eccEndpoint s a).ep b = s.ep b := by
  obtain ⟨⟨hw, hc, -⟩, -, -⟩ := hs .img
  unfold eccEndpoint
  split
  · dsimp only
    split
    · rfl
    · exact ep_epStore_other hv hw hc _ hb
  · split
    · exact ep_epStore_other (s := s.draw.2) hv hw hc _ hb
    · rfl

/-- A lost copy reads BAD_FAULT with VALUE 0 (Table 1-9). -/
theorem eccEndpoint_copy (hl : s.isLocal a = false) (hf : (findEntry s.group a).isSome = true) :
    epQual ((eccEndpoint s a).ep a) = qFault ∧ epValue ((eccEndpoint s a).ep a) = 0 ∧ (epClass ((eccEndpoint s a).ep a)).toNat < 7 := by
  obtain ⟨⟨-, hc, -⟩, -, -⟩ := hs .img
  have e : eccEndpoint s a = epStore s.draw.2 a (epWord (epSeq s.draw.1) qFault (BitVec.ofNat 4 ((epClass s.draw.1).toNat % 7)) 0) :=
    (if_neg (by rw [hl]; decide)).trans (if_pos hf)
  rw [e, ep_epStore_copy (s := s.draw.2) hv hl hc, (epWord_quality ..).1, (epWord_quality ..).2, (epWord_fields ..).1]
  refine ⟨rfl, rfl, ?_⟩
  rw [BitVec.toNat_ofNat]
  omega

end Endpoint

/-- The two words of a scrubbed 64-bit word, each lost. -/
def pairLost (s : State) (o : BitVec 23) : State :=
  eccEndpoint (eccEndpoint s (BitVec.ofNat 20 (o.toNat / 8 * 8 / 4))) (BitVec.ofNat 20 (o.toNat / 8 * 8 / 4 + 1))

theorem pairLost_ep {s : State} {o : BitVec 23} {a : BitVec 20} (hr : s.execRuns = true) (hs : Sound s) (ho : o.toNat < 0x400000)
    (ha : a.toNat = o.toNat / 8 * 2 ∨ a.toNat = o.toNat / 8 * 2 + 1) (hl : s.isLocal a = false) (hf : (findEntry s.group a).isSome = true) :
    let t := pairLost s o
    epQual (t.ep a) = qFault ∧ epValue (t.ep a) = 0 ∧ (epClass (t.ep a)).toNat < 7 ∧
    ∀ b : BitVec 20, b.toNat / 2 ≠ a.toNat / 2 → t.ep b = s.ep b := by
  have h0 : (BitVec.ofNat 20 (o.toNat / 8 * 8 / 4)).toNat = o.toNat / 8 * 2 := by
    rw [BitVec.toNat_ofNat]
    omega
  have h1 : (BitVec.ofNat 20 (o.toNat / 8 * 8 / 4 + 1)).toNat = o.toNat / 8 * 2 + 1 := by
    rw [BitVec.toNat_ofNat]
    omega
  unfold pairLost
  generalize BitVec.ofNat 20 (o.toNat / 8 * 8 / 4) = a0 at h0 ⊢
  generalize BitVec.ofNat 20 (o.toNat / 8 * 8 / 4 + 1) = a1 at h1 ⊢
  have hv := votes_of_execRuns hr
  have hm := eccEndpoint_moves s a0
  have hv1 : (eccEndpoint s a0).votes = true := by
    unfold State.votes State.execRuns
    rw [hm.same.m rfl, hm.same.recov rfl, hm.same.triad rfl]
    exact hv
  have hs1 : Sound (eccEndpoint s a0) := hm.sound hs
  have hother : ∀ b : BitVec 20, b.toNat / 2 ≠ a.toNat / 2 → (eccEndpoint (eccEndpoint s a0) a1).ep b = s.ep b := fun b hb => by
    have hb0 : b ≠ a0 := fun h => by rw [h] at hb; omega
    have hb1 : b ≠ a1 := fun h => by rw [h] at hb; omega
    rw [eccEndpoint_other hv1 hs1 hb1, eccEndpoint_other hv hs hb0]
  dsimp only
  rcases ha with ha | ha
  · obtain rfl : a = a0 := BitVec.eq_of_toNat_eq (ha.trans h0.symm)
    have hne : a ≠ a1 := fun h => by rw [h, h1] at h0; omega
    rw [eccEndpoint_other hv1 hs1 hne]
    obtain ⟨hq, hval, hc⟩ := eccEndpoint_copy hv hs hl hf
    exact ⟨hq, hval, hc, hother⟩
  · obtain rfl : a = a1 := BitVec.eq_of_toNat_eq (ha.trans h1.symm)
    have hl1 : (eccEndpoint s a0).isLocal a = false := by
      unfold State.isLocal State.localBase State.group at hl ⊢
      rw [hm.same.boot rfl]
      exact hl
    have hf1 : (findEntry (eccEndpoint s a0).group a).isSome = true := by
      unfold State.group at hf ⊢
      rw [hm.same.boot rfl]
      exact hf
    obtain ⟨hq, hval, hc⟩ := eccEndpoint_copy hv1 hs1 hl1 hf1
    exact ⟨hq, hval, hc, hother⟩

theorem scrub_copy {s : State} (hp : portReset s = false) (o : BitVec 23) (a : BitVec 20) (hr : s.execRuns = true) (ho : o.toNat < 0x400000)
    (ha : a.toNat = o.toNat / 8 * 2 ∨ a.toNat = o.toNat / 8 * 2 + 1) (hl : s.isLocal a = false) (hf : (findEntry s.group a).isSome = true)
    (hs : Sound s) :
    Completes (.scrub o true) s fun t =>
      epQual (t.ep a) = qFault ∧ epValue (t.ep a) = 0 ∧ (epClass (t.ep a)).toNat < 7 ∧
      (∀ b : BitVec 20, b.toNat / 2 ≠ a.toNat / 2 → t.ep b = s.ep b) ∧ SameOutside [.ev, .port, .img, .free] s t := by
  have e := exec_scrub_lost hp o
  have hm := eccRaised_moves s o
  have hr' : (eccRaised s o).execRuns = true := by
    unfold State.execRuns
    rw [hm.same.m rfl, hm.same.recov rfl, hm.same.triad rfl]
    exact hr
  have hreg : eccRegion (eccRaised s o) (o.toNat / 8 * 8) = pairLost (eccRaised s o) o := if_pos (by omega)
  rw [eccWord_region (.inl hr'), hreg] at e
  generalize eccRaised s o = x at e hm hr'
  have hboot : x.boot = s.boot := hm.same.boot rfl
  have hep : ∀ b, x.ep b = s.ep b := fun b => by
    unfold State.ep State.isLocal State.localBase State.group
    rw [hboot, hm.same.img rfl]
  have hl' : x.isLocal a = false := by
    unfold State.isLocal State.localBase State.group at hl ⊢
    rw [hboot]
    exact hl
  have hf' : (findEntry x.group a).isSome = true := by
    unfold State.group at hf ⊢
    rw [hboot]
    exact hf
  obtain ⟨hq, hval, hc, hother⟩ := pairLost_ep hr' (hm.sound hs) ho ha hl' hf'
  refine ⟨_, e, hq, hval, hc, fun b hb => (hother b hb).trans (hep b), ?_⟩
  exact (eccEndpoint_moves ..).same.step rfl ((eccEndpoint_moves ..).same.step rfl (hm.same.widen rfl))

/-- Settles O60: the flush by what the log holds, and the scrubber by the region of the word. -/
theorem logAndScrubber : Obligations.LogAndScrubber := by
  unfold Obligations.LogAndScrubber
  exact fun s => ⟨fun hr => ⟨fun h => (exec_logFlush hr).trans (congrArg Host.Outcome.next (flushLog_empty h)), logFlush_programs hr,
    logFlush_recordsLoss hr⟩, fun hp => ⟨scrub_corrected hp, scrub_staging hp, scrub_ring hp, scrub_waits hp, scrub_copy hp, scrub_rules hp⟩⟩

end Sys2Proof.Machine
end

section
/-!
One step of the block: the command at the front of the queue, or one tick.
-/
namespace Sys2Proof.Machine

/-! ## A quiet tick -/

theorem issueStepFive_empty {s : State} (h : s.bw.stepFive = []) : issueStepFive s = s := by
  unfold issueStepFive
  split
  · rw [h, List.foldl_nil, ← h]
  · rfl

section Quiet

variable {s : State} (h : Quiet s)

include h

theorem wheelDue_quiet (w : WheelIx) : wheelDue s w = s := by
  unfold wheelDue
  rw [h.wheels w]

theorem alignCrossing_quiet (p : PathIx) : alignCrossing s p = s :=
  if_neg (by rw [h.paths p, Bool.false_and, Bool.false_and, Bool.false_and]; exact Bool.false_ne_true)

theorem tide_quiet : tideFall (tidePulse s) = s := by
  have hp : tidePulse s = s := if_neg (by rw [show fires s.wheel[0].prev s.wheel[0].acc 0 = false from h.phase, Bool.and_false]; decide)
  rw [hp]
  exact if_neg (by rw [h.pulse, Bool.false_and]; decide)

theorem character_quiet (n : Chan) : charEdge (changeover s n) n = s := by
  obtain ⟨ho, he⟩ := h.chars n
  have hc : changeover s n = s := by
    unfold changeover
    rw [ho]
  rw [hc]
  exact if_neg (by rw [he]; decide)

/-- Nothing is due: the tick closes with nothing done. -/
theorem closeTick_quiet : closeTick s = s := by
  unfold closeTick
  dsimp only
  rw [h.release, if_neg Bool.false_ne_true, issueStepFive_empty h.stepFive, List.foldl_fixed' (wheelDue_quiet h),
    List.foldl_fixed' (alignCrossing_quiet h), tide_quiet h, List.foldl_fixed' (character_quiet h)]

theorem serveDue_quiet : serveDue s = s := by
  unfold serveDue
  rw [serveAll_empty h.ports]
  exact ite_self s

end Quiet

/-- The machine one tick on, its phases and scan aside. -/
def ticked (s : State) : State :=
  { s with tick := s.tick + 1, wheel := s.wheel.map tickWheel, ch := s.ch.map (tickChan (s.m.run = .running)), fd := tickDie (checking s) s.fd }

theorem tickDie_phases (checks : Bool) (d : FieldDie) : (tickDie checks d).phases = d.phases := by
  unfold tickDie
  split <;> rfl

theorem loadDue_none {s : State} (h : s.fd.phases = []) : loadDue s = s := by
  unfold loadDue takePhase
  rw [h]
  exact congrArg (fun x => { s with fd := { s.fd with phases := x } }) h.symm

theorem scanDue_none {s : State} (h : s.conv.next = none) : scanDue s = s := by
  unfold scanDue
  rw [h]

theorem idle_quiet {s : State} (h : Quiet s) : idle s = ticked s := by
  have hp : (ticked s).fd.phases = [] := (tickDie_phases ..).trans h.phases
  unfold idle
  rw [closeTick_quiet h, serveDue_quiet h]
  dsimp only
  change scanDue (loadDue (ticked s)) = ticked s
  rw [loadDue_none hp]
  exact scanDue_none h.scan

theorem idle_tick (s : State) : (idle s).tick = s.tick + 1 := by
  have h1 : (serveDue (closeTick s)).tick = s.tick := ((serveDue_moves _).same.tick rfl).trans ((closeTick_moves s).same.tick rfl)
  unfold idle
  dsimp only
  rw [(scanDue_moves _).same.tick rfl, (loadDue_moves _).same.tick rfl, h1]

theorem ticked_parts (s : State) :
    (∀ w : WheelIx, (ticked s).wheel[w] = tickWheel s.wheel[w]) ∧
    (∀ n : Chan, (ticked s).ch[n] = tickChan (s.m.run = .running) s.ch[n]) ∧
    (s.fd.alive = true → (ticked s).fd.tick = s.fd.tick + 1 ∧
      ∀ w : WheelIx, (ticked s).fd.acc[w] = if s.fd.wheelOn[w] then s.fd.acc[w] + s.fd.inc[w] else s.fd.acc[w]) := by
  refine ⟨fun w => Vector.getElem_map _ w.isLt, fun n => Vector.getElem_map _ n.isLt, fun ha => ?_⟩
  have hd : (ticked s).fd = tickDie (checking s) s.fd := rfl
  unfold tickDie at hd
  rw [if_pos ha] at hd
  rw [hd]
  exact ⟨rfl, fun w => Vector.getElem_ofFn w.isLt⟩

theorem ticked_same (s : State) : SameOutside [.tick, .wheel, .ch, .fd] s (ticked s) := by
  have h1 : SameOutside [.tick, .wheel, .ch, .fd] s { s with tick := s.tick + 1 } := (SameOutside.set_tick s _).widen rfl
  have h2 := (SameOutside.set_wheel { s with tick := s.tick + 1 } (s.wheel.map tickWheel)).step rfl h1
  have h3 := (SameOutside.set_ch { s with tick := s.tick + 1, wheel := s.wheel.map tickWheel }
    (s.ch.map (tickChan (s.m.run = .running)))).step rfl h2
  exact (SameOutside.set_fd { s with
    tick := s.tick + 1, wheel := s.wheel.map tickWheel, ch := s.ch.map (tickChan (s.m.run = .running)) } (tickDie (checking s) s.fd)).step rfl h3

/-- Settles O1: a step is `exec` of the front command on the queue's rest, or `idle`, which on a quiet tick only advances the counts. -/
theorem stepTakesTheFrontCommand : Obligations.StepTakesTheFrontCommand := by
  unfold Obligations.StepTakesTheFrontCommand
  refine ⟨fun s c => rfl, fun s hp => ⟨idle s, ?_, idle_tick s, ((idle_moves s).same.pending rfl).trans hp, fun h => ?_⟩⟩
  · unfold step
    rw [hp]
  · rw [idle_quiet h]
    obtain ⟨h1, h2, h3⟩ := ticked_parts s
    exact ⟨h1, h2, h3, ticked_same s⟩

end Sys2Proof.Machine
end
